-- ==== Sys2Proof/Word.lean ====
section
/-! DEFINITION. The words of the machine: bytes, byte strings and sparse maps. -/

namespace Sys2Proof

/-- One byte of a frame, a host buffer or HBM. -/
abbrev Byte := BitVec 8

/-- A byte string in wire order, the first byte first. -/
abbrev Bytes := List Byte

/-- A sparse map from object numbers to values, in one canonical form: keys strictly rising, and no entry that
equals what an unlisted key reads as. The reader supplies that default. -/
abbrev PMap (α : Type) := List (Nat × α)

end Sys2Proof
end

