-- ==== Sys2Proof/Syntax.lean ====
section
/-! DEFINITION. The commands: one constructor per row of spec/opcode_table.json, in the table's order. The table gives
its rows no operands, so the operands here are what the rule of each row says arrives from outside: what a frame, a
write, a message or a measurement carries, and which object it names. -/

namespace Sys2Proof

/-- The requesters of R466, with the Dysum pair, management port or VF that speaks. -/
inductive Requester where
  /-- PF0 through BAR0 -/
  | pf0
  /-- VF `f` through its window -/
  | vf (f : Fin 32)
  /-- Dysum pair `k` on PCIe -/
  | dysPcie (k : Fin 35)
  /-- Dysum on management Ethernet port `e` -/
  | dysEth (e : Fin 2)
  | jtag
  /-- the image's REG_INIT list -/
  | regInit
deriving DecidableEq, Repr

/-- The blocks that have an INT_STATUS register (R475 to R477); the four island sub-blocks count separately. -/
inductive Blk where
  | chip | boot | clk | pwr | keep | light | harb | dys | lane | mac | prs | pipe | cway | lag | tm | mc | bpm | atl
  | tel | cnt | ras | dbg
deriving DecidableEq, Repr

/-- The interface on which a Dysum command arrives (R431). -/
inductive Via where
  | ring (k : Fin 35)
  | eth (e : Fin 2)
  | i2c
deriving DecidableEq, Repr

/-! ### What images and programs supply -/

/-- A field of LEN_FIELD, SEL0 or SEL1 (R117, R118): byte offset, bit offset from the most significant bit, width. -/
structure BitField where
  off : Nat
  bit : Nat
  width : Nat
deriving DecidableEq, Repr

/-- Where a parse state leads when no transition entry matches (R117). -/
inductive Next where
  | goto (state : Nat)
  | accept
  | fail
deriving DecidableEq, Repr

/-- A state of a parse graph (R117). -/
structure ParseState where
  extract : Option Nat
  lenBase : Nat
  lenField : Option BitField
  lenScale : Nat
  sel0 : Option BitField
  sel1 : Option BitField
  dflt : Next
deriving DecidableEq, Repr

/-- One part of a transition key (R119): value and mask; `pvs` are parser values that stand in for bits of the value, each with those
bits. -/
structure KeyPart where
  value : Nat
  mask : Nat
  pvs : List (Nat × Nat) := []
deriving DecidableEq, Repr

/-- An entry of the transition table (R119): its key of state number, SEL0 and SEL1, and the next step. -/
structure Trans where
  state : KeyPart
  k0 : KeyPart
  k1 : KeyPart
  next : Next
deriving DecidableEq, Repr

/-- What the parser does at a failure of a given reason (R122). -/
inductive FailAct where
  | cont | drop | trap
deriving DecidableEq, Repr

/-- A parse graph with its failure actions; a reason without one takes TRAP. -/
structure ParseGraph where
  states : List ParseState
  trans : List Trans
  fails : List FailAct
deriving DecidableEq, Repr

/-- A payload pattern (R125). -/
structure Pattern where
  value : Bytes
  mask : Bytes
  group : Nat
  endMin : Nat
  endMax : Nat
deriving DecidableEq, Repr

/-! ### Programs (R140). The spec gives a stage its work and its limits, and leaves the form of a program to the image. -/

/-- Metadata fields that a program reads and sets (R156, R305). -/
inductive MetaField where
  | egressPort | queue | mcastGroup | pg | colour | ecnCap | mirror | telFlags | egressMeta | flowKey
deriving DecidableEq, Repr

/-- What travels beside a packet and a program only reads (R117, R126, R141, R156, R305). -/
inductive InfoField where
  | inPort | length | payOff | recirc | parseFail | ppeCount | ppeGroups
  | ppeFirst (k : Fin 4)
  | ingressTime | outPort | depth | resTime
deriving DecidableEq, Repr

/-- Two-operand arithmetic of an action. -/
inductive BinOp where
  | add | and | or | xor
deriving DecidableEq, Repr

/-- A value that an operation reads. -/
inductive Src where
  | const (v : Nat)
  /-- a field of a header instance -/
  | header (inst : Nat) (x : BitField)
  /-- the valid bit of a header instance, and the offset of its header in the frame -/
  | valid (inst : Nat)
  | offset (inst : Nat)
  | field (f : MetaField)
  | info (f : InfoField)
  /-- a word of the packet that an earlier operation of the program has written -/
  | word (k : Nat)
  | bin (o : BinOp) (a b : Src)
deriving DecidableEq, Repr

/-- Predicates, unsigned (R148). -/
inductive Cmp where
  | eq | ne | lt | ge
deriving DecidableEq, Repr

/-- A condition of an operation. -/
structure Test where
  a : Src
  cmp : Cmp
  b : Src
deriving DecidableEq, Repr

/-- A 16-bit checksum that the program names: its offset, the bytes that it covers, and whether a length in a pseudo-header counts
too (R317). -/
structure SumSrc where
  off : Src
  start : Src
  len : Src
  pseudo : Bool
deriving DecidableEq, Repr

/-- Where the egress program has found the IOAM Trace-Option header (R316): its offset, whether the option is incremental, the offsets of
16-bit lengths of the encapsulation, and its checksums. -/
structure TraceSrc where
  off : Src
  incremental : Bool
  lens : List Src
  sums : List SumSrc
deriving DecidableEq, Repr

/-- An action operation on the header vector and the metadata (R140). -/
inductive ActOp where
  | set (f : MetaField) (v : Src)
  | word (k : Nat) (v : Src)
  /-- write a field of a header -/
  | header (inst : Nat) (x : BitField) (v : Src)
  /-- a new header of `len` zero bytes, behind that of instance `after`, or at the front -/
  | addHeader (inst : Nat) (after : Option Nat) (len : Nat)
  | dropHeader (inst : Nat)
  /-- an action group with its hash; the member's action data goes to word `dst` (R152) -/
  | group (g hash : Src) (dst : Nat)
  /-- a meter operation (R157) -/
  | meter (ix : Src)
  /-- a trap action (R134) -/
  | trap (reason : Nat) (copy : Bool)
  /-- DROP with a DROP_REASON -/
  | drop (reason : Nat)
  /-- ATOLL for a session -/
  | atoll (session : Src)
  /-- the recirculation mark (R141) -/
  | recirc
  /-- a timestamp action and the offset of the PTP header (R351) -/
  | stamp (act : Nat) (off : Src)
  /-- the trace option (R316) -/
  | trace (a : TraceSrc)
deriving DecidableEq, Repr

/-- An action operation with the conditions under which it acts. -/
structure Act where
  tests : List Test
  op : ActOp
deriving DecidableEq, Repr

/-- A table lookup (R140, R142): word `dst` takes 1 for a hit and 0 for a miss, the words behind it the action words of the entry. An
exact or ternary table is looked up by its key words, a direct table by an index. -/
structure Lookup where
  tests : List Test
  table : Nat
  key : List Src
  dst : Nat
deriving DecidableEq, Repr

/-- Operations of a stateful ALU (R148). -/
inductive AluOp where
  | read | write | add | sub | min | max | and | or | xor | cas
  | condWrite (c : Cmp)
deriving DecidableEq, Repr

/-- A stateful ALU of a stage (R148, R151): the register table to which the image binds it, its operation and operands, MERGE, and the
word that takes the old value, or the new one. -/
structure Alu where
  tests : List Test
  table : Nat
  index : Src
  op : AluOp
  a : Src
  b : Src
  merge : Bool
  new : Bool
  dst : Nat
deriving DecidableEq, Repr

/-- A hash computation (R140). -/
structure Hash where
  tests : List Test
  seed : Nat
  key : List Src
  dst : Nat
deriving DecidableEq, Repr

/-- A stage (R140). An ALU is named by its place in the list. -/
structure Stage where
  lookups : List Lookup
  actions : List Act
  alus : List Alu
  hashes : List Hash
deriving DecidableEq, Repr

/-- A program of a pipeline: PROG_ID and its stages (R391). DESIGN CHOICE: log entry 27. -/
structure Program where
  id : Nat
  stages : List Stage
deriving DecidableEq, Repr

/-- A table of a pool as the image lays it out (R128, R142 to R145, R147). -/
structure TblLayout where
  num : Nat
  /-- 0 exact, 1 ternary, 2 direct, 3 register -/
  kind : Nat
  shared : Bool
  ways : Nat
  log2 : Nat
  keyWords : Nat
  actWords : Nat
  seeds : List Nat
  /-- the image gives the table a counter bank (R323) -/
  counters : Bool
  /-- SRAM blocks of one copy (R144) -/
  blocks : Nat
  /-- 1, 2, 3 for the group, member and slot table of the pool (R152), 4 for its multicast groups, 5 for its mirror sessions, 0 for any
  other -/
  role : Nat := 0
  /-- what TABLE_INIT gives for a miss (R147) -/
  miss : List Act := []
deriving DecidableEq, Repr

/-- A memory word that a packet's pass finds uncorrectable (R437): an entry of a table, or a meter's buckets or configuration. -/
inductive MemFault where
  | entry (table ix : Nat)
  | meter (ix : Nat) (config : Bool)
  /-- a cell link or a free list of the Lagoon half (R438) -/
  | links
  /-- descriptor or scheduler state of the traffic manager (R438) -/
  | sched
deriving DecidableEq, Repr

/-! ### Lanes and frames -/

/-- What a training frame of a CR or KR lane asks for, by the rules of IEEE 802.3 for the lane's PMD (R52, R81). -/
inductive TrainReq where
  | hold
  /-- one step of a transmit tap, up or down -/
  | step (tap : Fin 6) (up : Bool)
  /-- a preset or initial condition of the standard: the six coefficients that it names -/
  | initial (c : List Int)
  /-- PAM4 precoding on or off (R47) -/
  | precode (on : Bool)
deriving DecidableEq, Repr

/-- A training frame: marker, control, status and check of a Strait frame in symbols (R59), or what a frame of a CR or KR lane asks
for. -/
inductive TrainIn where
  | strait (head : List (Fin 6))
  | ethernet (req : TrainReq)
deriving DecidableEq, Repr

/-- How a frame arrives: as the PCS of its port hands it to the MAC, with the coding class of R93 and the logical lane that carried its
first block, or as the codewords that the lanes of a Strait port have received since the frame before, in level pairs by logical
lane. -/
inductive Reception where
  | octets (data : Bytes) (coding : Bool) (lane : Fin 8)
  | pairs (lanes : List (List (Fin 6 × Fin 6)))
deriving DecidableEq, Repr

/-- A codeword as the lines changed it: the positions and values of its wrong symbols (R89). -/
abbrev LineErr := List (Fin 544 × BitVec 10)

/-! ### Images and ports -/

/-- A port as PORT_MAP and PORT_DEFINE name it, in the codes of PORT_CFG (R76, R77, R391). -/
structure PortDef where
  port : Nat
  /-- WIDTH: 0 undefined, 1 one lane, 2 two, 3 four, 4 eight -/
  width : Nat
  firstLane : Nat
  mode : Nat
  fec : Nat
  pmd : Nat
  an : Bool
  /-- local index of the hot spare, 0x3F none -/
  spare : Nat
  trusted : Bool
deriving DecidableEq, Repr

/-- The content of a section (R391). Register values are pairs of an address and a word. -/
inductive SecBody where
  | portMap (ports : List PortDef)
  | parseGraph (graph : ParseGraph) (values : List Nat)
  | pipeProgram (prog : Program)
  | tableLayout (tables : List TblLayout)
  /-- initial entries (table, index and words), miss actions by table, and the register tables marked INIT with the initial value of
  their entries; the others are KEEP (R147, R169) -/
  | tableInit (entries : List (Nat × Nat × List Nat)) (miss : List (Nat × List Act)) (inits : List (Nat × Nat))
  /-- the pattern set and the number of states of its automaton (R125, R127) -/
  | patterns (l : List Pattern) (states : Nat)
  /-- wide mode by island: bit i is island i -/
  | meterMode (wide : BitVec 16)
  | lagoon (values : List (Nat × Nat))
  /-- regions (stack, region, first block, blocks), buffers of pool k on stack s by 8 s + k, class reserves by register address -/
  | hbmPartition (regions : List (Nat × Nat × Nat × Nat)) (pools : List (Nat × Nat)) (reserves : List (Nat × Nat))
  /-- domain mask of an agent -/
  | bpmDomains (masks : List (Nat × Nat))
  | names
  | regInit (writes : List (Nat × Nat))
  | unknown
deriving DecidableEq, Repr

/-- A Gymel image: its bytes as the source holds them (R393, R394), and what the bytes of each section say, in section-table order; none
where they form no content of their type. The spec gives the content of a section and not its byte layout. DESIGN CHOICE: log entry 171. -/
structure Image where
  bytes : Bytes
  bodies : List (Option SecBody)
deriving DecidableEq, Repr

/-- What starts a device reset (R469). -/
inductive ResetCause where
  | powerUp | resetN | resetReq | pcieReset | devReset
deriving DecidableEq, Repr

/-- What the power manager measures at a control interval (R366, R371): power in W of the part and of the domains LINKS, MEMORY
and COMPUTE, VCORE in mV, the power estimated at ÷3.5, and the VCORE target that the trim would give at ÷3.5. -/
structure PwrReading where
  power : Nat
  links : Nat
  memory : Nat
  compute : Nat
  vcore : Nat
  estBoost : Nat
  trimBoost : Nat
  /-- real-time load of each stack in percent (R234) -/
  rtLoad : List Nat
deriving DecidableEq, Repr

/-! ### Egress -/

/-- A checksum of the encapsulation with its offsets in the frame (R317). -/
structure SumAt where
  off : Nat
  start : Nat
  len : Nat
  pseudo : Bool
deriving DecidableEq, Repr

/-- The trace option with its offsets in the frame (R316). -/
structure IoamAt where
  off : Nat
  incremental : Bool
  lens : List Nat
  sums : List SumAt
deriving DecidableEq, Repr

/-- What the egress program does to a packet beside its metadata: the rewritten frame without FCS, the trace option, and the
timestamp action with its offset (R316, R351). -/
structure EgressWork where
  rewrite : Option Bytes
  ioam : Option IoamAt
  ptp : Option (Nat × Nat)
deriving DecidableEq, Repr

/-! ### Host -/

/-- A TX descriptor (R418). -/
structure TxDesc where
  length : Nat
  last : Bool
  path : Bool
  int : Bool
  tsAction : Nat
  port : Nat
  queue : Nat
  ptpOff : Nat
  egressMeta : Nat
deriving DecidableEq, Repr

/-- The fields of a Dysum command entry that every opcode shares (R420), with the interface on which it arrives. `suits` tells that
ARG_LEN suits the opcode. -/
structure DysHdr where
  via : Via
  tag : Nat
  indirect : Bool
  argLen : Nat
  suits : Bool
  object : Nat
  resAddr : Nat
  resLen : Nat
deriving DecidableEq, Repr

/-- What SPARE_POLICY does beside RETURN (R449). -/
inductive PolicyOp where
  | mode (mode ask : Nat)
  | dismiss
deriving DecidableEq, Repr

/-- A member that SESSION_OPEN names (R271). -/
structure AtlMember where
  kind : Nat
  v6 : Bool
  addr : Nat
  udpSrc : Nat
  port : Nat
  remoteSession : Nat
  remoteMember : Nat
deriving DecidableEq, Repr

/-- What SESSION_OPEN names (R272). -/
structure AtlOpen where
  kind : Nat
  format : Nat
  op : Nat
  intSat : Bool
  fpSat : Bool
  chunkElems : Nat
  window : Nat
  timeout : Nat
  holdOffHosts : Bool
  members : List AtlMember
  root : Option Nat
  group : Nat
  roles : Option Nat
deriving DecidableEq, Repr

/-- The commands. -/
inductive Instr where
  /-- FRAME_RECEIVE (R86 to R95, R347): the block with the last bit of a frame, FCS included, is decoded on port `p`; `sub` is the
  receive phase, in sixteenths of a tick, of the lane that carried its first block. -/
  | frameReceive (p : Fin 512) (rx : Reception) (sub : Fin 16)
  /-- INGRESS_ISSUE (R138, R327): one core clock of ingress pipeline `x` of island `i`. `faults` are the uncorrectable words that the
  packets issued find, in slot order (R437). Each clock adds 2 to the top-down classes. -/
  | ingressIssue (isl : Fin 16) (x : Fin 5) (faults : List (List MemFault))
  /-- RECIRC_ISSUE (R141): the marked packet at the end of stage 24 of ingress pipeline `x` takes its reserved slot of the present
  clock and enters stage 1 again; the slot of a packet that a stage has dropped stays empty. `faults` are the uncorrectable words that
  it finds. -/
  | recircIssue (i : Fin 16) (x : Fin 5) (faults : List MemFault)
  /-- PIPELINE_EXIT (R139, R166): the oldest packet of ingress pipeline `x` of island `i` leaves stage 24, unless it is marked for
  another pass. A FENCED reserve holds it while the target still has a frame of its port. `faults` are the uncorrectable words of the
  Lagoon and the traffic manager that its admission finds (R438). -/
  | pipelineExit (i : Fin 16) (x : Fin 5) (sub : Fin 16) (faults : List MemFault)
  /-- DEEP_PAGE_WRITTEN (R201): the write of page `seq` of queue `q` completes; its record and cells stand in HBM, and its cells
  in the Lagoon go back to their accounts. -/
  | deepPageWritten (q : Fin 8192) (seq : Fin 65536)
  /-- DEEP_MODE_LEAVE (R198): the queue has no page in HBM, no page being written and no open page. -/
  | deepModeLeave (q : Fin 8192)
  /-- DRAIN_READ_ISSUE (R201, R203): the next page read of queue `q`, in list order, while fewer than DRAIN_AHEAD pages are in
  flight or read back; with the list empty, an open page that holds a cell is closed. -/
  | drainReadIssue (q : Fin 8192)
  /-- DRAIN_PAGE_LAND (R205, R206): page `seq` of queue `q` lands in the Lagoon. `err` is 1 for an uncorrectable page, which drops
  every packet with a cell in it, and 2 for a list block lost in both copies. -/
  | drainPageLand (q : Fin 8192) (seq : Fin 65536) (err : Fin 3)
  /-- CELL_GRANT (R27). A RETIRED bundle takes no grants. -/
  | cellGrant (d : Fin 2) (b : Fin 64) (n : Nat)
  /-- FLIT_RECEIVE (R26, R28): the oldest flit on bundle `b`. A flit with a bad CRC is discarded with a negative acknowledgement,
  later ones until it arrives again; the others are delivered in sequence order and acknowledged. `err` marks the bits of the flit
  that the wires have changed. -/
  | flitReceive (d : Fin 2) (b : Fin 64) (err : BitVec 2096)
  /-- FLIT_NACK_RECEIVE (R28, R30): the flits before the named one have arrived, and the sender resends from it onward, unless it
  has resent it REPLAY_LIMIT times in a row: the bundle then retrains (BUNDLE_RETRAIN). -/
  | flitNackReceive (d : Fin 2) (b : Fin 64)
  /-- FLIT_ACK_RECEIVE (R29): the flits up to the acknowledged one leave the replay store. -/
  | flitAckReceive (d : Fin 2) (b : Fin 64)
  /-- CREDIT_RETURN (R34): the receiver returns `n` credits of virtual channel `vc` of bundle `b`. -/
  | creditReturn (d : Fin 2) (b : Fin 64) (vc : Fin 6) (n : Nat)
  /-- DESC_ENQUEUE (R33): the descriptor of packet `pkt` has crossed and its cells have landed; it is the oldest of its stream. -/
  | descEnqueue (pkt : Nat)
  /-- BUNDLE_RETRAIN (R30): one flit has been resent REPLAY_LIMIT times in a row without success. -/
  | bundleRetrain (d : Fin 2) (b : Fin 64)
  /-- BUNDLE_TRAIN_DONE (R30): training ends within 5 µs. -/
  | bundleTrainDone (d : Fin 2) (b : Fin 64)
  /-- BUNDLE_RETIRE (R30, R31): a bundle that has not trained within 5 µs. Flits that the receiver has delivered are not sent
  again. With more than RETIRE_LIMIT bundles RETIRED in a direction the event is FATAL. -/
  | bundleRetire (d : Fin 2) (b : Fin 64)
  /-- WIRE_SWAP_START (R32): the sparing manager replaces data wire `w` of an ACTIVE bundle by a reserve wire; a dead wire without
  a reserve leaves a resource failed (R445). -/
  | wireSwapStart (d : Fin 2) (b w : Fin 64)
  /-- WIRE_SWAP_DONE (R32): both ends have changed the wire map; the sender resends from the oldest unacknowledged flit. -/
  | wireSwapDone (d : Fin 2) (b : Fin 64)
  /-- DEQUEUE_DECISION (R247 to R253): one decision of arbiter `a`. `errs` are the cells that read with an error, `faults` the
  uncorrectable words that the packet's pass finds, and `sub` the phase of the decision in sixteenths of a tick. -/
  | dequeueDecision (a : Fin 64) (sub : Fin 16) (errs : List (Nat × Bool)) (faults : List MemFault)
  /-- EGRESS_EXIT (R139, R166): the oldest packet of egress pipeline `x` of island `i` leaves stage 24, as its program has rewritten it, and
  goes to the MAC. A FENCED reserve holds it while the target still has a frame for its port. -/
  | egressExit (i : Fin 16) (x : Fin 5)
  /-- FRAME_SENT (R96, R174, R313, R317, R318, R321, R351): the last bit of the frame at the head of port `p` leaves the MAC; `sub` is the
  phase of its first bit in sixteenths of a tick, and `errs` are the cells that read with an error, and whether uncorrectable, once its
  transmission had started. -/
  | frameSent (p : Fin 512) (sub : Fin 16) (errs : List (Nat × Bool))
  /-- PFC_REFRESH (R101): while XOFF holds the frame is repeated at the end of each interval. -/
  | pfcRefresh (p : Fin 512)
  /-- TRAP_REFILL (R135, R136): once per µs RATE units are added, up to BURST packets, a BURST of 0 acting as 1. -/
  | trapRefill (i : Fin 16) (r : Fin 64)
  /-- RX_TAIL_WRITE (R413, R416): requester `q` advances TAIL of RX ring `r`. -/
  | rxTailWrite (q : Requester) (r : Fin 64) (tail : Fin 65536)
  /-- RX_FRAME_WRITE (R41, R248, R416, R417): one decision of the CPU scheduler. `bufs` are the host addresses in the posted descriptors of
  the ring that it serves, in ring order, and `errs` the cells that read with an error. -/
  | rxFrameWrite (bufs : List Nat) (errs : List (Nat × Bool))
  /-- RX_ITR_EXPIRE (R417): ITR µs after the first waiting frame of ring `r`, its vector is raised. -/
  | rxItrExpire (r : Fin 64)
  /-- TX_TAIL_WRITE (R413, R419): requester `q` advances TAIL of TX ring `r`. -/
  | txTailWrite (q : Requester) (r : Fin 64) (tail : Fin 65536)
  /-- TX_FRAME_READ (R42, R418, R419): Harbour takes the next frame of TX ring `r`. `ds` are the posted descriptors that it reads and
  `data` the bytes of the frame's buffers; `sub` is the phase in sixteenths of a tick. A frame whose descriptors are not all posted waits. -/
  | txFrameRead (r : Fin 64) (ds : List (BitVec 256)) (data : Bytes) (sub : Fin 16)
  /-- HOST_INJECT_WAIT_EXPIRE (R42): host frames of ingress pipeline `x` of island `i` that have waited 1 µs go ahead of the lanes. -/
  | hostInjectWaitExpire (i : Fin 16) (x : Fin 5)
  /-- PCIE_LINK_CHANGE (R411, R419): the link is up or down with a rate, a width and Flit mode. The rings stop and resume with LINK_UP. -/
  | pcieLinkChange (up : Bool) (rate : Fin 6) (width : Fin 9) (flit : Bool)
  /-- FUNCTION_LEVEL_RESET (R419, R470). -/
  | functionLevelReset (f : Fin 32)
  /-- VF_WINDOW_ACCESS (R413): VF `f` reads `size` bytes at offset `off` of its window, or writes `w` there. -/
  | vfWindowAccess (f : Fin 32) (off : Fin 1048576) (size : Nat) (w : Option Nat)
  /-- HARB_RING_CFG_WRITE (R332, R416, R419, R435). -/
  | harbRingCfgWrite (q : Requester) (tx : Bool) (r : Fin 64) (v : BitVec 32)
  /-- INT_STATUS_WRITE (R475, R479): a write to INT_STATUS of instance `i` of block `b`. -/
  | intStatusWrite (q : Requester) (b : Blk) (i : Nat) (v : BitVec 32)
  /-- CHIP_VEC_MAP_WRITE (R478, R479): summary bit `b` takes a vector. -/
  | chipVecMapWrite (q : Requester) (b : Fin 39) (v : BitVec 32)
  /-- DYS_CMD_TAIL_WRITE (R424): the doorbell of Dysum pair `k`. -/
  | dysCmdTailWrite (q : Requester) (k : Fin 35) (tail : BitVec 32)
  /-- DYS_DATAGRAM_RECEIVE (R422, R423): a UDP datagram reaches management port `e`, with its addresses, its destination port and its
  header. -/
  | dysDatagramReceive (e : Fin 2) (v6 : Bool) (src dst dport ver ty count seq : Nat)
  /-- NOP (R430). -/
  | nop (h : DysHdr)
  /-- REG_READ (R432, R468): `count` words from the address OBJECT. -/
  | regRead (h : DysHdr) (count : Fin 16)
  /-- REG_WRITE (R425, R434, R468): words from the address OBJECT on; a discarded write is recorded, and the command is OK. -/
  | regWrite (h : DysHdr) (words : List (BitVec 32))
  /-- PORT_DEFINE (R76, R109, R110): TRUSTED 1 needs OWNER. -/
  | portDefine (h : DysHdr) (d : PortDef)
  /-- PORT_ENABLE (R109, R110). -/
  | portEnable (h : DysHdr) (on : Bool)
  /-- SPARE_SWAP (R74, R365, R444, R450): the replacement of OBJECT starts, or the PLLs change at once. -/
  | spareSwap (h : DysHdr)
  /-- SPARE_POLICY (R449, R462): MODE and ASK_KINDS take values, or the pending request for OBJECT is dismissed. -/
  | sparePolicy (h : DysHdr) (op : PolicyOp)
  /-- SPARE_RETURN (R427, R451): a FAILED or RETIRED resource is tested; while another test runs the answer is BUSY. -/
  | spareReturn (h : DysHdr)
  /-- RETURN_TEST_DONE (R451): the test that runs passes, or fails at `step`. -/
  | returnTestDone (pass : Bool) (step : BitVec 32)
  /-- ERRLOG_READ (R442): at most `count` entries of the log, the oldest with SEQ `seq` or later first. -/
  | errlogRead (h : DysHdr) (seq : BitVec 32) (count : Nat)
  /-- TIDEMARK_FIRE (R453). -/
  | tidemarkFire (h : DysHdr)
  /-- SESSION_OPEN (R272, R297, R299, R302). -/
  | sessionOpen (h : DysHdr) (o : AtlOpen)
  /-- SESSION_CLOSE (R302, R424): an ACTIVE session is CLOSING until its chunks are done, and holds the ring. -/
  | sessionClose (h : DysHdr)
  /-- IMAGE_STAGE (R407): `im` is verified and starts to load; `x` is the pipeline of its direction that a pipeline image replaces. -/
  | imageStage (h : DysHdr) (im : Image) (x : Fin 5)
  /-- IMAGE_SWAP (R164, R166, R408): the staged image is checked against the SVN floor again and applied. -/
  | imageSwap (h : DysHdr)
  /-- IMAGE_CANCEL (R163, R408). -/
  | imageCancel (h : DysHdr)
  /-- KEY_PROGRAM (R396, R397, R402): a blank slot takes a digest; a boot in KEYWAIT goes on to VERIFY. -/
  | keyProgram (h : DysHdr) (digest : BitVec 384)
  /-- KEY_REVOKE (R396 to R398): a staged image signed with the slot is discarded. -/
  | keyRevoke (h : DysHdr)
  /-- SVN_RAISE (R397, R399). -/
  | svnRaise (h : DysHdr) (floor : Fin 128)
  /-- LIGHT_STEP (R339): a step of the domain OBJECT, absolute or relative. -/
  | lightStep (h : DysHdr) (abs : Bool) (sec : BitVec 64) (ns : BitVec 32) (frac : BitVec 16)
  /-- LIGHT_STATE (R342): REQ is 1 ACQUIRE, 2 LOCKED, 3 FREE. -/
  | lightState (h : DysHdr) (req : Fin 8)
  /-- CAP_SET (R366, R384): the local power cap in W, held to the register's bound. -/
  | capSet (h : DysHdr) (cap : BitVec 16)
  /-- TEL_READ (R267, R268, R321, R433): a VF reads the ports assigned to it. The bins clear on read. -/
  | telRead (h : DysHdr)
  /-- RING_RESET (R419, R433): CPU ring OBJECT, RX or TX, is disabled and starts again from descriptor 0; a VF resets its own. -/
  | ringReset (h : DysHdr) (tx : Bool)
  /-- SENSOR_READ (R377, R432): thermal sensor OBJECT in °C. -/
  | sensorRead (h : DysHdr)
  /-- RESET_REQ (R432, R469): on I²C with the I2C_RST_EN strap, or from OPERATOR and OWNER. The response is written before the reset. -/
  | resetReq (h : DysHdr)
  /-- LANE_ENABLE (R58): ENABLE at 1 with MODE not 0 starts training of a lane in OFF; a FAILED lane stays FAILED. -/
  | laneEnable (l : Fin 544)
  /-- LANE_DISABLE (R58): ENABLE at 0 turns any lane that is not FAILED OFF. A port in UP loses the lane as it would lose its
  lock. -/
  | laneDisable (l : Fin 544)
  /-- TRAINING_FRAME_RECEIVE (R59 to R61): a frame whose check fails is ignored. -/
  | trainingFrameReceive (l : Fin 544) (x : TrainIn)
  /-- TRAINING_TIMEOUT (R58, R84): training restarts from the first phase. -/
  | trainingTimeout (l : Fin 544)
  /-- ADAPT_UPDATE (R53 to R55, R61): the loop wants the CTLE moved by `ctle` and the FFE taps by `ffe`; in phase 2 of a
  Strait training it may have settled, or ask the partner for one tap step (increment when the flag is true). -/
  | adaptUpdate (l : Fin 544) (ctle : Int) (ffe : List Int) (settled : Bool) (req : Option (Fin 6 × Bool)) (offset : BitVec 16)
  /-- BLOCK_LOCK_ACQUIRE (R58, R63): lock completes the training. A lane that carries a port enters LOCKED, a hot spare
  RESERVE; a Strait lane has reached phase 4. `offset` is the partner's clock offset that LANE_CDR reports (R56). -/
  | blockLockAcquire (l : Fin 544) (offset : BitVec 16) (pos : Fin 66) (heads : List (BitVec 2))
  /-- LOSS_OF_LOCK (R58, R63, R112): lane `l` falls out of lock after `hdrErr` invalid sync headers; `signal` and `cdr` tell whether the
  receiver still sees a signal and holds its clock. -/
  | lossOfLock (l : Fin 544) (heads : List (BitVec 2)) (words : List LineErr) (signal cdr : Bool)
  /-- LANE_BITSLIP (R64): SLIP acts in LOCK_MODE 1 with MODE 5 or 6 and FEC off; any other write is discarded and recorded. -/
  | laneBitslip (q : Requester) (l : Fin 544)
  /-- PORT_IDLE_ENTRY (R65, R366, R367, R372): while LINKS yields or SAVE holds, an idle-eligible Strait port without a frame
  for 100 µs asks its partner for IDLE. The TAG is the requester's choice. -/
  | portIdleEntry (p : Fin 512)
  /-- IDLE_REQ_RECEIVE (R65, R68): the request is answered with IDLE_ACK, or with IDLE_NAK 4 during a swap and 1 while frames
  wait; on agreement the port's lanes enter IDLE. -/
  | idleReqReceive (p : Fin 512) (block : BitVec 66)
  /-- IDLE_ACK_RECEIVE (R65): the answer to this end's own request puts the lanes in IDLE. -/
  | idleAckReceive (p : Fin 512) (block : BitVec 66)
  /-- IDLE_NAK_RECEIVE (R68): the request is refused. -/
  | idleNakReceive (p : Fin 512) (block : BitVec 66)
  /-- WAKE_BURST_DETECT (R65): an end in IDLE that has not started its own burst starts it. -/
  | wakeBurstDetect (p : Fin 512)
  /-- WAKE_COMPLETE (R58, R65, R109): both bursts have ended. The held coefficients are valid within 100 ms of entry and
  10 °C (`tempOk`): the lanes return to LOCKED and the port to UP; otherwise they train and the port is LINKING. -/
  | wakeComplete (p : Fin 512) (tempOk : Bool)
  /-- SWAP_WINDOW_CLOSE (R58, R66, R72, R458, R459): a window of a Strait lane in LOCKED or RESERVE, with the corrected bits and the
  uncorrectable codewords that the line itself gave. -/
  | swapWindowClose (l : Fin 544) (words : List LineErr) (corner : Nat)
  /-- SWAP_REQ_RECEIVE (R68 to R70, R74). -/
  | swapReqReceive (p : Fin 512) (block : BitVec 66) (byCmd : Bool)
  /-- SWAP_ACK_RECEIVE (R70): the swap proceeds to alignment. -/
  | swapAckReceive (p : Fin 512) (block : BitVec 66)
  /-- SWAP_NAK_RECEIVE (R74): the swap ends and is recorded. -/
  | swapNakReceive (p : Fin 512) (block : BitVec 66)
  /-- SWAP_ALIGNED (R70 steps 3 to 5): the receiver takes the logical lane from the hot spare, and sends SWAP_DONE in the
  logical lane's stream, which both lanes carry. -/
  | swapAligned (p : Fin 512) (run : Nat) (skew : Int)
  /-- SWAP_DONE_RECEIVE (R70 step 6). -/
  | swapDoneReceive (p : Fin 512) (block : BitVec 66)
  /-- SWAP_ABORT_RECEIVE (R72): mirroring stops and the old lane keeps the logical lane. -/
  | swapAbortReceive (p : Fin 512) (block : BitVec 66)
  /-- SWAP_TIMEOUT (R72): a swap that has not reached step 6 within LANE_SWAP_CFG.TIMEOUT µs is aborted. -/
  | swapTimeout (p : Fin 512)
  /-- LMOS_REPEAT (R69): an unanswered message is repeated with the same TAG. -/
  | lmosRepeat (l : Fin 544)
  /-- PORT_CTL_ENABLE (R109, R110): ENABLE is locked only in UNDEFINED; a write that changes nothing has no effect. -/
  | portCtlEnable (q : Requester) (p : Fin 512) (on : Bool)
  /-- PORT_LINK_UP (R109): every main lane is LOCKED, negotiation is complete and the lanes are deskewed. -/
  | portLinkUp (p : Fin 512) (arrivals : List Nat)
  /-- AN_COMPLETE (R82, R104): Clause 73 negotiation of an Ethernet port with AN_EN in LINKING ends. With a common technology
  the partner entry is filled from the pages `an`; without one the port stays in LINKING with NO_COMMON, bit 31. -/
  | anComplete (p : Fin 512) (common : Bool) (an : BitVec 31)
  /-- FEC_DEGRADE_WINDOW (R73, R112, R113): a window with `corr` corrected and `uncorr` uncorrectable codewords of the port's lanes, beside
  those of a perturbation (R458), closes; the port's codeword counters take them. A port
  without FEC has no degrade trigger, and a swap holds the count for at most its timeout. -/
  | fecDegradeWindow (p : Fin 512) (corr uncorr : Nat)
  /-- HELLO_SEND (R102): every Strait port in UP or IDLE sends hellos; a hello wakes an idle port (R111). -/
  | helloSend (p : Fin 512)
  /-- HELLO_RECEIVE (R103 to R106): the whole frame, FCS included. -/
  | helloReceive (p : Fin 512) (frame : Bytes) (coding : Bool)
  /-- PARTNER_EXPIRE (R104): four announced periods, an announced 0 counting as 1, have passed without a hello. -/
  | partnerExpire (p : Fin 512)
  /-- MAC_CONTROL_RECEIVE (R98, R99): the whole frame, FCS included. -/
  | macControlReceive (p : Fin 512) (frame : Bytes) (coding : Bool)
  /-- PAUSE_EXPIRE (R259): the pause time of priority `g` has run out. -/
  | pauseExpire (p : Fin 512) (g : Fin 8)
  /-- PIPE_PORT_LIVE_WRITE (R154, R473): the W1S write sets the bits of ports in UP or IDLE; the others stay 0 and the write
  is recorded once, with STATE that of the lowest-numbered such port. -/
  | pipePortLiveWrite (q : Requester) (i w : Fin 16) (v : BitVec 32)
  /-- CLS_WRITE_DATA (R130, R131): words `first` to `last` of an invalid entry, a `last` beyond the entry acting as its last
  word. -/
  | clsWriteData (q : Requester) (i : Fin 16) (d : Fin 2) (first last : Fin 32)
  /-- CLS_SET_VALID (R130, R131). -/
  | clsSetValid (q : Requester) (i : Fin 16) (d : Fin 2)
  /-- CLS_CLEAR_VALID (R130, R131). -/
  | clsClearValid (q : Requester) (i : Fin 16) (d : Fin 2)
  /-- CLS_WRITE_ACTION (R130): every action word at once. -/
  | clsWriteAction (q : Requester) (i : Fin 16) (d : Fin 2)
  /-- CLS_READ (R130): the entry to CLS_WR_DATA and its valid bit to CLS_WR_STATUS. -/
  | clsRead (q : Requester) (i : Fin 16) (d : Fin 2)
  /-- PPE_BANK_SWITCH (R127): a write to PPE_BANK.ACTIVE. -/
  | ppeBankSwitch (q : Requester) (i : Fin 16) (active : Bool)
  /-- MTR_WRITE (R161): the configuration is set and both buckets are filled to their bursts. -/
  | mtrWrite (q : Requester) (i : Fin 16)
  /-- MTR_WRITE_KEEP (R161): the configuration is set and the levels stay, lowered to the new bursts. -/
  | mtrWriteKeep (q : Requester) (i : Fin 16)
  /-- MTR_READ (R161): the configuration and the levels, in whole bytes or packets, to MTR_DATA. -/
  | mtrRead (q : Requester) (i : Fin 16)
  /-- LOADING_READY (R165, R169): the program of the reserve is verified and every copy is complete. A retirement goes on at once. -/
  | loadingReady (i : Fin 16) (d : Fin 2)
  /-- SWAP_TARGET_EMPTY (R166, R169, R170, R408): the target's last frame has left stage 24. -/
  | swapTargetEmpty (i : Fin 16) (d : Fin 2)
  /-- FENCE_TIMEOUT (R167): the frames still in the target are dropped with SWAP_FLUSH, and the fence lifts. -/
  | fenceTimeout (i : Fin 16) (d : Fin 2)
  /-- PIPELINE_RETIRE (R170): the sparing manager retires an ACTIVE pipeline into the reserve of its direction; with the reserve in
  another use it waits. -/
  | pipelineRetire (i : Fin 16) (x : Fin 10)
  /-- PIPELINE_FAULT (R163, R164, R445): an uncorrectable fault in stage logic. An ACTIVE pipeline is retired into its reserve; with
  none it enters RETIRED, and its group's frames are dropped. A RESERVE pipeline enters RETIRED. -/
  | pipelineFault (i : Fin 16) (x : Fin 10)
  /-- BANK_REPLACE (R175): without a RESERVE bank the replacement is refused and logged, and the bank stays ACTIVE. -/
  | bankReplace (h : Fin 2) (b : Fin 34)
  /-- ALPHA_ADAPT (R186, R187): the end of a period of queue `k` (unicast q, multicast 8,192 + m). A working value outside the
  bounds moves to the nearer one; a step beyond a bound leaves it there and pins it. -/
  | alphaAdapt (k : Fin 9216)
  /-- BPM_ALLOC (R209, R211, R212): a page that a deep-buffer engine draws from pool P1 joins its stock (R199). -/
  | bpmAlloc (a : Fin 256) (pool : Fin 4) (domain : Fin 64)
  /-- BPM_ADD_REF (R212, R213). -/
  | bpmAddRef (a : Fin 256) (h : BitVec 48) (n : BitVec 8)
  /-- BPM_RELEASE (R211 to R213). `uncorr` tells an uncorrectable error in the buffer's META entry, which is FATAL (R438) and
  leaves the entry as it is. -/
  | bpmRelease (a : Fin 256) (h : BitVec 48) (uncorr : Bool)
  /-- BPM_QUERY (R212). -/
  | bpmQuery (a : Fin 256) (h : BitVec 48)
  /-- BPM_CACHE_REFILL (R207): a part (0 LOCAL, 1 ALL) of the cache of die `d` and pool `k` with fewer than 128 handles takes 64. -/
  | bpmCacheRefill (d : Fin 2) (k : Fin 4) (part : Fin 2)
  /-- BPM_CACHE_RETURN (R207): a part with more than 448 handles gives 64 back to the rings. -/
  | bpmCacheReturn (d : Fin 2) (k : Fin 4) (part : Fin 2)
  /-- MC_REQUEST (R219, R223, R224, R237): a request of 1 to 64 lines within one block takes an entry of its channel, or replaces the
  data of a queued write that covers it; with the entries full it waits at its client. -/
  | mcRequest (st : Fin 6) (off len : Nat) (wr : Option Bytes) (rt : Bool) (client : Fin 256)
  /-- MC_REQUEST_DONE (R222 to R226, R230, R240): the scheduler of a logical channel serves the request that it chooses. `errs` names
  lines of the request, by number, with their pins in error. -/
  | mcRequestDone (st : Fin 6) (c : Fin 31) (errs : List (Nat × Nat))
  /-- REFRESH_DUE (R229 to R232): the refresh of a bank is postponed, splits a real-time burst, or is issued; in self-refresh the stack
  refreshes itself. -/
  | refreshDue (st : Fin 6) (ch : Fin 32) (bank : Fin 16)
  /-- ROW_IDLE_CLOSE (R226): a bank's idle timer expires with no request for its row waiting. -/
  | rowIdleClose (st : Fin 6) (pc : Fin 64) (bank : Fin 16)
  /-- IDLE_TIMER_ADAPT (R227, R228): every 4,096 memory clocks a pseudo-channel adapts its timer. -/
  | idleTimerAdapt (st : Fin 6) (pc : Fin 64)
  /-- MC_TSET_WRITE (R236, R245): a write to TARGET. `commits` tells that the self-refresh entry commits with no request before it. -/
  | mcTsetWrite (q : Requester) (st : Fin 6) (target : Fin 4) (commits : Bool)
  /-- TSET_ENTRY_RETRY (R237): the entry of a change goes on, or is tried again 1 µs after its abort; `commits` tells that it commits. -/
  | tsetEntryRetry (st : Fin 6) (commits : Bool)
  /-- TSET_CHANGE_DONE (R236, R245): the committed change leaves self-refresh in the new set, retrained if its training was stale, and
  the next change starts. -/
  | tsetChangeDone (st : Fin 6)
  /-- SR_IDLE_ENTRY (R239): the stack enters self-refresh after its idle time, its owed refreshes repaid. -/
  | srIdleEntry (st : Fin 6)
  /-- PATROL_SCRUB (R240, R241): the next line is read, with `pins` pins in error; a correctable line is written back, and one beyond
  correction stays poisoned for its next reader. -/
  | patrolScrub (st : Fin 6) (pins : Nat)
  /-- HBM_TEMP_READ (R229, R244): every 100 µs. -/
  | hbmTempRead (st : Fin 6) (temp : Fin 256)
  /-- DELAY_TRACKING (R244): a channel's delays are tracked every 100 ms and after every 10 °C of drift; the stack's next tracking
  counts from the last channel's. -/
  | delayTracking (st : Fin 6) (ch : Fin 32)
  /-- HBM_TRAINING_DONE (R244): boot training of the three sets at `temp`; `fail` names a physical channel whose training failed. -/
  | hbmTrainingDone (st : Fin 6) (temp : Fin 256) (fail : Option (Fin 32))
  /-- CHANNEL_SPARE_START (R243): the sparing manager starts channel sparing; with the spare in use, a second failing channel logs
  DEGRADED and stays in service. -/
  | channelSpareStart (st : Fin 6) (c : Fin 31)
  /-- CHANNEL_COPY_DONE (R243): the map changes, and the old channel is FAILED. -/
  | channelCopyDone (st : Fin 6)
  /-- SHAPER_REFILL (R254 to R256): the refill of shaper `n`, every 128 time ticks. The shapers of queue k are 2 k (max) and 2 k + 1
  (min), those of group g and port p follow the 9,216 queues, and the last is the CPU shaper. -/
  | shaperRefill (n : Fin 23553)
  /-- GATE_EDGE (R261): an entry's interval ends on port `p`, and the gates take the states of the next one. -/
  | gateEdge (p : Fin 512)
  /-- GATE_CONFIG_CHANGE (R264, R265): requester `q` writes 1 to CONFIG_CHANGE of port `p`. -/
  | gateConfigChange (q : Requester) (p : Fin 512)
  /-- GATE_CANCEL (R265): a pending list is dropped, and the old list runs on. -/
  | gateCancel (q : Requester) (p : Fin 512)
  /-- GATE_LIST_START (R264, R266): domain A has reached the start instant of the pending list of port `p`; the banks exchange roles. -/
  | gateListStart (p : Fin 512)
  /-- QUEUE_SAMPLE (R267, R315): the sample of queue `k`, every 1 µs, in its histograms and for the collector of queue samples. -/
  | queueSample (k : Fin 9216)
  /-- CONTRIB_RECEIVE (R285 to R288, R292): the engine of role `r` takes the contribution at its head. -/
  | contribReceive (r : Fin 32)
  /-- CHUNK_RESULT_SEND (R273, R277, R287, R290, R292): the oldest complete chunk of a session sends its result. -/
  | chunkResultSend (n : Fin 4096)
  /-- RESULT_RECEIVE (R292): a PARENT's RESULT completes a chunk whose partial went up, or opens and completes a BROADCAST chunk whose ROOT
  lies above; its bits go on unchanged. -/
  | resultReceive (r : Fin 32)
  /-- ATOLL_NACK_RECEIVE (R289 to R292): a PARENT that misses a contribution receives the staged partial again; a member that misses a
  result receives the staged result, or a NACK with ARG 3 when it has left the stage. -/
  | atollNackReceive (r : Fin 32)
  /-- HOLD_OFF_RECEIVE (R285, R289, R293, R294). -/
  | holdOffReceive (r : Fin 32)
  /-- ABORT_RECEIVE (R302). -/
  | abortReceive (r : Fin 32)
  /-- NACK_DELAY_EXPIRE (R289): each NACK_DELAY that a chunk stays open, NACKs with ARG 1 go to the contributors missing from it; for a
  partial that waits for its result, one with ARG 2 goes to the PARENT. -/
  | nackDelayExpire (n : Fin 4096) (opseq chunk : BitVec 32)
  /-- CHUNK_DEADLINE (R293, R302). -/
  | chunkDeadline (n : Fin 4096) (opseq chunk : BitVec 32)
  /-- HOLD_OFF_SEND (R293, R294): every HOLDOFF_PERIOD while the power manager holds COMPUTE back, or a notice has been heard within the
  last one. -/
  | holdOffSend (n : Fin 4096)
  /-- ENGINE_REPLACE (R300): the replacement of an ACTIVE engine starts; a DRAINING engine has finished its contribution, and the reserve
  takes its role. -/
  | engineReplace (e : Fin 36)
  /-- ENGINE_FAULT (R300, R445): an uncorrectable fault in a chunk's state restarts the role's chunks; one in the engine itself also
  replaces it, or with no reserve left on the die retires its role. -/
  | engineFault (e : Fin 36) (logic : Bool)
  /-- EXPORT_FRAME_CLOSE (R311, R312): the oldest frame of a collector and TYPE closes when it is full or 10 µs after its first record. A
  refused frame loses its records, and SEQ still rises. -/
  | exportFrameClose (c : Fin 16) (ty : Fin 5)
  /-- COLLECTOR_REFILL (R312): every 1 µs the bucket of a collector gains RATE records per second, up to 64. -/
  | collectorRefill (c : Fin 16)
  /-- FLOW_SWEEP (R320): the sweeper visits a record. An idle one is exported and freed; one older than ACTIVE is exported and
  restarted. -/
  | flowSweep (die : Fin 2) (key : BitVec 64)
  /-- TEL_FLOW_RD (R320): GO returns the record of the key in TEL_FLOW_RD_KEY, the north die's before the south die's. -/
  | telFlowRd (q : Requester)
  /-- CNT_TBL_READ (R323). -/
  | cntTblRead (q : Requester) (i : Fin 16) (d : Fin 2)
  /-- CNT_TBL_READ_CLEAR (R323): the counter is returned and cleared at one core clock boundary. -/
  | cntTblReadClear (q : Requester) (i : Fin 16) (d : Fin 2)
  /-- CNT_CTL_VF_WRITE (R332): a VF's write to CNT_CTL of a counter in one of its pages takes effect when it leaves SAMPLE at 0 or RING at a
  ring of the VF; any other is discarded whole. -/
  | cntCtlVfWrite (f : Fin 32) (n : Fin 1088) (v : BitVec 32)
  /-- CNT_USER_PAGES_WRITE (R332): word `w` of a VF's page mask; a page that another VF holds is not given. -/
  | cntUserPagesWrite (q : Requester) (f : Fin 32) (w : Fin 3) (v : BitVec 32)
  /-- DUMP_EDGE (R328): an edge of the period, aligned to domain A or counted from EN. -/
  | dumpEdge
  /-- DUMP_WRITE_DONE (R330): the snapshot stands in the next slot of its ring, and PROD advances. -/
  | dumpWriteDone
  /-- LIGHT_STEP_GO (R339): GO applies the step that LIGHT_STEP_S, _NS and _FRAC hold at the next tick; a step the state
  does not allow is discarded and recorded. -/
  | lightStepGo (q : Requester) (d : Fin 2)
  /-- LIGHT_REQ_ACQUIRE (R342). -/
  | lightReqAcquire (q : Requester) (d : Fin 2)
  /-- LIGHT_REQ_LOCKED (R342). -/
  | lightReqLocked (q : Requester) (d : Fin 2)
  /-- LIGHT_REQ_FREE (R342). -/
  | lightReqFree (q : Requester) (d : Fin 2)
  /-- LIGHT_SNAP (R334): SNAP copies the time to LIGHT_SNAP at one tick. -/
  | lightSnap (d : Fin 2)
  /-- LIGHT_KICK (R343): the watchdog counts from this write. -/
  | lightKick (d : Fin 2)
  /-- LIGHT_RATE_ADJ_WRITE (R335, R336, R343, R360): the clamped rate takes effect at the next tick and the watchdog
  restarts; in DIRECT mode the register is locked. -/
  | lightRateAdjWrite (q : Requester) (d : Fin 2) (adj : BitVec 40)
  /-- LIGHT_INCR_WRITE (R336, R360): in DIRECT mode the increment from the next tick; locked in NATIVE mode. -/
  | lightIncrWrite (q : Requester) (d : Fin 2) (incr : BitVec 40)
  /-- LIGHT_MODE_WRITE (R338, R360): MODE changes only in FREE; a change from NATIVE to DIRECT loads LIGHT_INCR with the
  effective increment of the last tick, cut to 40 bits. -/
  | lightModeWrite (q : Requester) (d : Fin 2) (mode : Bool)
  /-- WATCHDOG_EXPIRE (R343): a LOCKED domain whose SRC watches the watchdog loses its master when the time has run out. -/
  | watchdogExpire (d : Fin 2)
  /-- PPS_IN_EDGE (R343, R357): an edge at least 500 ms after the last accepted one is accepted; with EN it is timestamped in
  both domains, `sub` sixteenths into the tick. -/
  | ppsInEdge (sub : Fin 16)
  /-- PPS_IN_MISS (R343): a LOCKED domain whose SRC watches PPS_IN loses its master when MISS seconds have passed. -/
  | ppsInMiss (d : Fin 2)
  /-- PPS_IN_TS_READ (R357): requester `q` reads the high word of domain B's LIGHT_PPS_IN_TS. -/
  | ppsInTsRead (q : Requester)
  /-- PPS_OUT_EDGE (R356): PPS_OUT rises at each whole second of its domain, shifted by OFFSET sixteenths of a tick. -/
  | ppsOutEdge
  /-- TEN_MHZ_PHASE (R358): at a whole second of domain A the phase to the next 10 MHz edge is recorded. -/
  | tenMhzPhase (phase : Fin 2560)
  /-- TSF_POP (R355). -/
  | tsfPop (q : Requester) (i : Fin 16)
  /-- TIME_COMPARE_FIRE (R453): domain A has reached the armed time, or was stepped past it. ARM clears and the Tidemark
  source fires. -/
  | timeCompareFire
  /-- PLL_TAKEOVER (R364): the active PLL loses lock, or its REFCLK is lost. A standby that is STANDBY and ALIGNED takes over and the
  failed PLL tries to relock; otherwise the error is FATAL. -/
  | pllTakeover (refLost : Bool)
  /-- PLL_RELOCK_DONE (R364): PLL `k` locks again within 10 ms of a takeover and becomes STANDBY. -/
  | pllRelockDone (k : Fin 2)
  /-- PLL_RELOCK_TIMEOUT (R364): PLL `k` has not locked within 10 ms; the spare map records it as FAILED. -/
  | pllRelockTimeout (k : Fin 2)
  /-- PLL_ALIGNED (R363 to R365): the standby comes within ±20 ps of the active PLL. A standby that relocks for another reason than a
  takeover becomes STANDBY with it. -/
  | pllAligned
  /-- CLK_SWITCH (R365, R390): a write of 1 to CLK_CFG.SWITCH moves the clock tree to the standby; it is locked while the standby is not
  STANDBY and ALIGNED. -/
  | clkSwitch (q : Requester)
  /-- CLK_REF_WRITE (R365, R390): a write of both REF fields. That of the active PLL is locked; a change of the standby's puts it in
  RELOCKING. -/
  | clkRefWrite (q : Requester) (a b : Bool)
  /-- DIVIDER_SWITCH (R363, R376): VCORE is sensed at `mv`, and a pending change whose conditions hold switches. -/
  | dividerSwitch (mv : Fin 1024)
  /-- POWER_CONTROL_INTERVAL (R366, R368, R370, R371, R373, R377, R384, R385): every 10 µs. -/
  | powerControlInterval (r : PwrReading)
  /-- CAP_TAKEBACK (R366, R370): power has stayed below the cap less CAP_HYST for 1 ms, and the domain that yielded last takes back one
  step; what the thermal throttle took is released by it alone. -/
  | capTakeback
  /-- BOOST_ENTRY (R370, R371): in NOMINAL the conditions have held for 100 µs. -/
  | boostEntry
  /-- PWR_MODE_WRITE (R370, R390): MODE is locked in SAVE. -/
  | pwrModeWrite (q : Requester) (mode : Bool)
  /-- PWR_SAVE_WRITE (R370, R372): SAVE set to 1 enters SAVE. -/
  | pwrSaveWrite (q : Requester) (save : Bool)
  /-- PWRFAIL_ASSERT (R370, R387, R491). -/
  | pwrfailAssert
  /-- SAVE_EXIT (R370): SAVE is 0 and PWRFAIL_N has been deasserted for 10 ms. -/
  | saveExit
  /-- VR_ALERT (R487): the regulator's fault acts as PWRFAIL_N. -/
  | vrAlert
  /-- VOLT_TRIM (R373): every 100 µs the margin that the detectors measure asks for a step of 5 mV, `some true` up, or none. -/
  | voltTrim (want : Option Bool)
  /-- DROOP_DETECT (R374 to R376): a detector fires. The core clock is stretched, or the stretch goes on; a pending faster change waits. -/
  | droopDetect (det : Fin 64)
  /-- DROOP_STRETCH_END (R375): MIN_CYCLES stretched core clocks have passed, and no detector has fired in the last 64. -/
  | droopStretchEnd
  /-- CURRENT_LIMIT (R374): the VCORE current is at or above PWR_IMAX, or the package has drawn more than 1,600 W for 10 µs. -/
  | currentLimit (amps watts : Nat)
  /-- DUTY_RISE (R374): while the trigger stays clear the duty of the current limit rises by 1/16 every 10 µs. -/
  | dutyRise
  /-- THERMAL_READ (R377, R378, R438): every 100 µs. At THROTTLE the throttle starts; at 115 °C the XH9 trips. -/
  | thermalRead (temps : List (Fin 256))
  /-- THROTTLE_STEP (R377): each millisecond the throttle slows the divider by one code, after the domains and the duty have given what
  they can; or it releases its last step once Tj has fallen HYST below THROTTLE. -/
  | throttleStep
  /-- AGEING_MEASURE (R378): once a second the 256 monitors report their delay change; the wear section keeps it (R386). -/
  | ageingMeasure (values : List (Fin 65536))
  /-- ANNOUNCE_SEND (R381): every 100 ms on each link, the lowest pair that the member knows. -/
  | announceSend
  /-- ANNOUNCE_RECEIVE (R380, R381): the known best of the link, the up link and the coordinator. -/
  | announceReceive (p : Fin 512) (frame : Bytes)
  /-- BEST_EXPIRE (R381): a known best goes 350 ms after the last ANNOUNCE that carried it. -/
  | bestExpire
  /-- REPORT_SEND (R382): at the end of each period a member reports on its up link. -/
  | reportSend
  /-- REPORT_RECEIVE (R380 to R383). -/
  | reportReceive (p : Fin 512) (frame : Bytes)
  /-- LAG_SEND (R385): every 100 µs while COMPUTE is held back. -/
  | lagSend
  /-- LAG_RECEIVE (R380 to R383). -/
  | lagReceive (p : Fin 512) (frame : Bytes)
  /-- GRANT_COMPUTE (R383): at the end of each period the coordinator grants every member an equal share, in its first period and whenever
  the members change; later it moves budget from members in time to late ones. -/
  | grantCompute
  /-- GRANT_RECEIVE (R382, R384): a GRANT from the up link is sent on each other link, and the entry that names this XH9 is applied at the
  next control interval. -/
  | grantReceive (p : Fin 512) (frame : Bytes)
  /-- GRANT_REVERT (R384): no GRANT has arrived for REVERT, and the member returns to PWR_CAP. -/
  | grantRevert
  /-- KEEP_SAVE_START (R387, R404): a save trigger that KEEP_CFG enables starts a save. -/
  | keepSaveStart (trigger : Fin 3)
  /-- VKEEP_LOW (R387): VKEEP falls below 3.0 V. -/
  | vkeepLow (mv : Fin 3000)
  /-- TEST_SAVE (R387, R390): writing 1 to KEEP_CFG.TEST_SAVE runs a save at once; it is locked while a save runs. -/
  | testSave (q : Requester)
  /-- KEEP_SAVE_DONE (R387): the save has completed `n` sections, all seven or fewer, and ends. -/
  | keepSaveDone (n late : Fin 8)
  /-- KEEP_SHADOW_UPDATE (R386): the time section is refreshed every 1 µs, the wear section every second. -/
  | keepShadowUpdate (wear : Bool)
  /-- DEVICE_RESET (R469): power-up, RESET_N, RESET_REQ or a PCIe conventional reset; the straps show `src` and `i2c` (R400). -/
  | deviceReset (cause : ResetCause) (src : Fin 4) (i2c : Bool)
  /-- POWER_UP_RAILS (R489): every rail lies in its range, and the XH9 leaves power-up reset. -/
  | powerUpRails
  /-- FUSE_DONE (R396, R403). -/
  | fuseDone
  /-- CLOCK_DONE (R364, R403): both ROOT PLLs have locked to the references that are present; a PLL that the fuses record as FAILED stays so. -/
  | clockDone (ref0 ref1 : Bool)
  /-- BOOT_PCIE_GO (R402, R405, R410). -/
  | bootPcieGo (q : Requester)
  /-- FETCH_DONE (R401, R403): the image that the source holds has been read. -/
  | fetchDone (image : Image)
  /-- VERIFY_DONE (R395, R402, R403): a valid image loads; an invalid one is rejected and the next source is tried. With no slot programmed
  the boot stops in KEYWAIT. -/
  | verifyDone
  /-- LOAD_DONE (R391, R403): after HBM training the sections apply in section-table order, then REG_INIT. -/
  | loadDone
  /-- RESTORE_DONE (R389, R403): the sections come back, the free rings are built, ports with a FAILED main lane stay UNDEFINED, and the boot
  reaches READY. -/
  | restoreDone
  /-- TIDEMARK_IN_EDGE (R453). -/
  | tidemarkInEdge
  /-- RAS_TM_FIRE (R453): FIRE is written. -/
  | rasTmFire (q : Requester)
  /-- SPARE_REQ_AGE (R449): the age of a pending request; at 24 hours it logs a NOTICE with code 0x88 and sets LIFE_VOID. -/
  | spareReqAge (n : Fin 16)
  /-- SPARE_MODE_WRITE (R449, R462, R499): a write of RAS_SPARE_POLICY; MODE is locked while a RETURN test runs. -/
  | spareModeWrite (q : Requester) (mode : Fin 4) (ask : Fin 256)
  /-- SPARE_RATE_WINDOW (R446): the hour closes, and the counts of wires, banks, pipelines, channels and engines are judged. `extra` gives
  corrected words of pipelines and engines (kind, object, count) that no other command has reported. -/
  | spareRateWindow (extra : List (Fin 8 × Nat × Nat))
  /-- AGEING_CHECK (R448): once a day each monitor is judged. -/
  | ageingCheck
  /-- SOFT_REPAIR (R445, R447, R452): a failing row, or column, of an SRAM macro is mapped to a spare of the macro. -/
  | softRepair (mac line : Nat) (col : Bool)
  /-- TCAM_SCRUB (R437): every 10 ms; `bad` names TCAM entries that fail their parity (pool, table, index). -/
  | tcamScrub (bad : List (Fin 32 × Nat × Nat))
  /-- DBG_ARM_WRITE (R457, R462, R472): ARM accepts a write through BAR0 of PF0 or JTAG; any other that would change it is discarded with
  reason ARM. Setting ARM, and clearing it while a perturbation acts, raise their events. -/
  | dbgArmWrite (q : Requester) (on : Bool)
  /-- JTAG_BYPASS (R460): one bit of delay from TDI to TDO. -/
  | jtagBypass (tdi : Bytes)
  /-- JTAG_IDCODE (R460). -/
  | jtagIdcode
  /-- JTAG_SAMPLE_PRELOAD (R460, R461): the boundary cells take the data, and what the pins showed, which the board gives, shifts out. -/
  | jtagSamplePreload (data : Bytes)
  /-- JTAG_EXTEST (R461). -/
  | jtagExtest
  /-- JTAG_CLAMP (R461). -/
  | jtagClamp
  /-- JTAG_HIGHZ (R461). -/
  | jtagHighz
  /-- JTAG_EXTEST_PULSE (R461). -/
  | jtagExtestPulse
  /-- JTAG_EXTEST_TRAIN (R461). -/
  | jtagExtestTrain
  /-- JTAG_TM_FIRE (R453, R460). -/
  | jtagTmFire
  /-- JTAG_TM_READ (R456, R460): the snapshot's 65,536 bits, byte 0 bit 0 first. -/
  | jtagTmRead
  /-- JTAG_DEV_RESET (R460, R461): the instruction resets the XH9 as RESET_N does; no strap is sampled. -/
  | jtagDevReset
  /-- LOW_WORD_READ (R413, R463 to R466): requester `q` reads `size` bytes; a 4-byte read of the low word of a 64-bit register latches
  its high word. -/
  | lowWordRead (q : Requester) (addr : BitVec 28) (size : Fin 9)
  /-- LOW_WORD_WRITE (R467): the low word of a 64-bit register is held. -/
  | lowWordWrite (q : Requester) (addr : BitVec 28) (v : BitVec 32)
  /-- HIGH_WORD_WRITE (R467): both words of a 64-bit register take effect. -/
  | highWordWrite (q : Requester) (addr : BitVec 28) (v : BitVec 32)
  /-- REGISTER_WRITE (R17, R465, R472, R499): requester `q` writes `size` bytes. -/
  | registerWrite (q : Requester) (addr : BitVec 28) (size : Fin 9) (v : BitVec 64)
  /-- TIME_TICK (R334, R337): `n` time ticks pass one after another with nothing else between them. -/
  | timeTick (n : Nat)
  /-- PPE_LOAD_DONE (R127, R407): the inactive bank of an island holds the staged pattern set, or its load fails. -/
  | ppeLoadDone (i : Fin 16) (ok : Bool)
  /-- LOAD_FAILED (R163, R407): the program in LOADING fails its verification, or a table copy fails. -/
  | loadFailed (i : Fin 16) (d : Fin 2)
  /-- MSIX_UNMASK (R479): vector `v` of function `owner` is unmasked, and a pending one sends its message. -/
  | msixUnmask (owner : Fin 32) (v : Fin 1056)
  /-- REFCLK_STATUS_CHANGE (R363, R364): REFCLK `r` is lost or returns, or the standby loses lock by itself. -/
  | refclkStatusChange (r : Fin 2) (ok lock : Bool)
deriving DecidableEq, Repr

end Sys2Proof
end

