-- ==== Sys2Proof/WellFormed.lean ====
section
/-! DEFINITION. Which terms are commands: an interface sends only what its form can carry, and every operand fits its field. -/

namespace Sys2Proof

/-- A requester of a register outside the windows of the VFs: PF0, a Dysum pair of PF0, a management port, JTAG or the image. -/
def hostRequester : Requester → Bool
  | .vf _ => false
  | .dysPcie k => k.val < 4
  | _ => true

/-- A requester of a register that a VF's window may hold: VF 0 is PF0 itself. -/
def anyRequester : Requester → Bool
  | .vf f => f.val ≠ 0
  | q => hostRequester q

/-- An access of 1, 2, 4 or 8 bytes, aligned to its size (R465). -/
def sizeOk (addr size : Nat) : Bool := [1, 2, 4, 8].contains size && addr % size = 0

/-- Instances of a block with an INT_STATUS register (R476, R477). -/
def blkCount : Blk → Nat
  | .lane => 16
  | .mac => 16
  | .prs => 16
  | .pipe => 16
  | .mc => 6
  | _ => 1

/-- One more than the largest address of a family. -/
def addrMax (v6 : Bool) : Nat := 2 ^ (if v6 then 128 else 32)

/-- The fields of a Dysum entry fit their places (R420). I²C holds no ring of host memory. -/
def dysFits (h : DysHdr) : Bool :=
  h.tag < 2 ^ 16 && h.argLen ≤ (if h.indirect then 65535 else 48) && h.object < 2 ^ 32 && h.resAddr < 2 ^ 64 && h.resLen < 2 ^ 32

/-- The fields of a port form fit PORT_CFG (R110). -/
def portFits (d : PortDef) : Bool :=
  d.width < 8 && d.firstLane < 64 && d.mode < 8 && d.fec < 4 && d.pmd < 4 && d.spare < 64

/-- The fields of SPARE_POLICY fit RAS_SPARE_POLICY (R449). -/
def policyFits : PolicyOp → Bool
  | .mode m ask => m < 4 && ask < 256
  | .dismiss => true

/-- A reception brings octets, or the codewords of at least one lane. -/
def Reception.wf : Reception → Bool
  | .octets data _ _ => !data.isEmpty
  | .pairs lanes => !lanes.isEmpty

/-- A term is a command. -/
def Instr.wf : Instr → Bool
  | .frameReceive _ rx _ => rx.wf
  | .ingressIssue _ _ _ => true
  | .recircIssue _ _ _ => true
  | .pipelineExit _ _ _ _ => true
  | .deepPageWritten _ _ => true
  | .deepModeLeave _ => true
  | .drainReadIssue _ => true
  | .drainPageLand _ _ _ => true
  | .cellGrant _ _ n => n ≠ 0
  | .flitReceive _ _ _ => true
  | .flitNackReceive _ _ => true
  | .flitAckReceive _ _ => true
  | .creditReturn _ _ _ n => n ≠ 0
  | .descEnqueue _ => true
  | .bundleRetrain _ _ => true
  | .bundleTrainDone _ _ => true
  | .bundleRetire _ _ => true
  | .wireSwapStart _ _ _ => true
  | .wireSwapDone _ _ => true
  | .dequeueDecision _ _ _ _ => true
  | .egressExit _ _ => true
  | .frameSent _ _ _ => true
  | .pfcRefresh _ => true
  | .trapRefill _ _ => true
  | .rxTailWrite q _ _ => anyRequester q
  | .rxFrameWrite bufs _ => bufs.all (fun a => a < 2 ^ 64)
  | .rxItrExpire _ => true
  | .txTailWrite q _ _ => anyRequester q
  | .txFrameRead _ _ _ _ => true
  | .hostInjectWaitExpire _ _ => true
  | .pcieLinkChange _ _ width _ => [1, 2, 4, 8].contains width.val
  | .functionLevelReset _ => true
  | .vfWindowAccess f off size w => f.val ≠ 0 && sizeOk off.val size && w.all (fun v => v < 2 ^ (8 * size))
  | .harbRingCfgWrite q _ _ _ => anyRequester q
  | .intStatusWrite q b i _ => hostRequester q && i < blkCount b
  | .chipVecMapWrite q _ _ => hostRequester q
  | .dysCmdTailWrite q _ _ => anyRequester q
  | .dysDatagramReceive _ v6 src dst dport ver ty count seq => src < addrMax v6 && dst < addrMax v6 && dport < 2 ^ 16 && ver < 256 && ty < 256 && count < 2 ^ 16 && seq < 2 ^ 32
  | .nop h => dysFits h
  | .regRead h _ => dysFits h
  | .regWrite h _ => dysFits h
  | .portDefine h d => dysFits h && portFits d
  | .portEnable h _ => dysFits h
  | .spareSwap h => dysFits h
  | .sparePolicy h op => dysFits h && policyFits op
  | .spareReturn h => dysFits h
  | .returnTestDone _ _ => true
  | .errlogRead h _ _ => dysFits h
  | .tidemarkFire h => dysFits h
  | .sessionOpen h _ => dysFits h
  | .sessionClose h => dysFits h
  | .imageStage h _ _ => dysFits h
  | .imageSwap h => dysFits h
  | .imageCancel h => dysFits h
  | .keyProgram h _ => dysFits h
  | .keyRevoke h => dysFits h
  | .svnRaise h _ => dysFits h
  | .lightStep h _ _ _ _ => dysFits h
  | .lightState h _ => dysFits h
  | .capSet h _ => dysFits h
  | .telRead h => dysFits h
  | .ringReset h _ => dysFits h
  | .sensorRead h => dysFits h
  | .resetReq h => dysFits h
  | .laneEnable _ => true
  | .laneDisable _ => true
  | .trainingFrameReceive _ _ => true
  | .trainingTimeout _ => true
  | .adaptUpdate _ _ ffe _ _ _ => ffe.length ≤ 32
  | .blockLockAcquire _ _ _ _ => true
  | .lossOfLock _ _ _ _ _ => true
  | .laneBitslip q _ => hostRequester q
  | .portIdleEntry _ => true
  | .idleReqReceive _ _ => true
  | .idleAckReceive _ _ => true
  | .idleNakReceive _ _ => true
  | .wakeBurstDetect _ => true
  | .wakeComplete _ _ => true
  | .swapWindowClose _ _ _ => true
  | .swapReqReceive _ _ _ => true
  | .swapAckReceive _ _ => true
  | .swapNakReceive _ _ => true
  | .swapAligned _ _ _ => true
  | .swapDoneReceive _ _ => true
  | .swapAbortReceive _ _ => true
  | .swapTimeout _ => true
  | .lmosRepeat _ => true
  | .portCtlEnable q _ _ => hostRequester q
  | .portLinkUp _ _ => true
  | .anComplete _ _ _ => true
  | .fecDegradeWindow _ _ _ => true
  | .helloSend _ => true
  | .helloReceive _ _ _ => true
  | .partnerExpire _ => true
  | .macControlReceive _ _ _ => true
  | .pauseExpire _ _ => true
  | .pipePortLiveWrite q _ _ _ => hostRequester q
  | .clsWriteData q _ _ _ _ => hostRequester q
  | .clsSetValid q _ _ => hostRequester q
  | .clsClearValid q _ _ => hostRequester q
  | .clsWriteAction q _ _ => hostRequester q
  | .clsRead q _ _ => hostRequester q
  | .ppeBankSwitch q _ _ => hostRequester q
  | .mtrWrite q _ => hostRequester q
  | .mtrWriteKeep q _ => hostRequester q
  | .mtrRead q _ => hostRequester q
  | .loadingReady _ _ => true
  | .swapTargetEmpty _ _ => true
  | .fenceTimeout _ _ => true
  | .pipelineRetire _ _ => true
  | .pipelineFault _ _ => true
  | .bankReplace _ _ => true
  | .alphaAdapt _ => true
  | .bpmAlloc _ _ _ => true
  | .bpmAddRef _ _ _ => true
  | .bpmRelease _ _ _ => true
  | .bpmQuery _ _ => true
  | .bpmCacheRefill _ _ _ => true
  | .bpmCacheReturn _ _ _ => true
  | .mcRequest _ _ len wr _ _ => len ≠ 0 && wr.all (fun d => d.length = len)
  | .mcRequestDone _ _ _ => true
  | .refreshDue _ _ _ => true
  | .rowIdleClose _ _ _ => true
  | .idleTimerAdapt _ _ => true
  | .mcTsetWrite q _ _ _ => hostRequester q
  | .tsetEntryRetry _ _ => true
  | .tsetChangeDone _ => true
  | .srIdleEntry _ => true
  | .patrolScrub _ _ => true
  | .hbmTempRead _ _ => true
  | .delayTracking _ _ => true
  | .hbmTrainingDone _ _ _ => true
  | .channelSpareStart _ _ => true
  | .channelCopyDone _ => true
  | .shaperRefill _ => true
  | .gateEdge _ => true
  | .gateConfigChange q _ => hostRequester q
  | .gateCancel q _ => hostRequester q
  | .gateListStart _ => true
  | .queueSample _ => true
  | .contribReceive _ => true
  | .chunkResultSend _ => true
  | .resultReceive _ => true
  | .atollNackReceive _ => true
  | .holdOffReceive _ => true
  | .abortReceive _ => true
  | .nackDelayExpire _ _ _ => true
  | .chunkDeadline _ _ _ => true
  | .holdOffSend _ => true
  | .engineReplace _ => true
  | .engineFault _ _ => true
  | .exportFrameClose _ _ => true
  | .collectorRefill _ => true
  | .flowSweep _ _ => true
  | .telFlowRd q => hostRequester q
  | .cntTblRead q _ _ => hostRequester q
  | .cntTblReadClear q _ _ => hostRequester q
  | .cntCtlVfWrite f _ _ => f.val ≠ 0
  | .cntUserPagesWrite q f _ _ => hostRequester q && f.val ≠ 0
  | .dumpEdge => true
  | .dumpWriteDone => true
  | .lightStepGo q _ => hostRequester q
  | .lightReqAcquire q _ => hostRequester q
  | .lightReqLocked q _ => hostRequester q
  | .lightReqFree q _ => hostRequester q
  | .lightSnap _ => true
  | .lightKick _ => true
  | .lightRateAdjWrite q _ _ => hostRequester q
  | .lightIncrWrite q _ _ => hostRequester q
  | .lightModeWrite q _ _ => hostRequester q
  | .watchdogExpire _ => true
  | .ppsInEdge _ => true
  | .ppsInMiss _ => true
  | .ppsInTsRead q => hostRequester q
  | .ppsOutEdge => true
  | .tenMhzPhase _ => true
  | .tsfPop q _ => hostRequester q
  | .timeCompareFire => true
  | .pllTakeover _ => true
  | .pllRelockDone _ => true
  | .pllRelockTimeout _ => true
  | .pllAligned => true
  | .clkSwitch q => hostRequester q
  | .clkRefWrite q _ _ => hostRequester q
  | .dividerSwitch _ => true
  | .powerControlInterval _ => true
  | .capTakeback => true
  | .boostEntry => true
  | .pwrModeWrite q _ => hostRequester q
  | .pwrSaveWrite q _ => hostRequester q
  | .pwrfailAssert => true
  | .saveExit => true
  | .vrAlert => true
  | .voltTrim _ => true
  | .droopDetect _ => true
  | .droopStretchEnd => true
  | .currentLimit _ _ => true
  | .dutyRise => true
  | .thermalRead temps => temps.length = 128
  | .throttleStep => true
  | .ageingMeasure values => values.length = 256
  | .announceSend => true
  | .announceReceive _ _ => true
  | .bestExpire => true
  | .reportSend => true
  | .reportReceive _ _ => true
  | .lagSend => true
  | .lagReceive _ _ => true
  | .grantCompute => true
  | .grantReceive _ _ => true
  | .grantRevert => true
  | .keepSaveStart _ => true
  | .vkeepLow _ => true
  | .testSave q => hostRequester q
  | .keepSaveDone _ _ => true
  | .keepShadowUpdate _ => true
  | .deviceReset _ _ _ => true
  | .powerUpRails => true
  | .fuseDone => true
  | .clockDone _ _ => true
  | .bootPcieGo q => hostRequester q
  | .fetchDone _ => true
  | .verifyDone => true
  | .loadDone => true
  | .restoreDone => true
  | .tidemarkInEdge => true
  | .rasTmFire q => hostRequester q
  | .spareReqAge _ => true
  | .spareModeWrite q _ _ => hostRequester q
  | .spareRateWindow _ => true
  | .ageingCheck => true
  | .softRepair _ _ _ => true
  | .tcamScrub _ => true
  | .dbgArmWrite q _ => hostRequester q
  | .jtagBypass _ => true
  | .jtagIdcode => true
  | .jtagSamplePreload _ => true
  | .jtagExtest => true
  | .jtagClamp => true
  | .jtagHighz => true
  | .jtagExtestPulse => true
  | .jtagExtestTrain => true
  | .jtagTmFire => true
  | .jtagTmRead => true
  | .jtagDevReset => true
  | .lowWordRead q addr size => anyRequester q && sizeOk addr.toNat size
  | .lowWordWrite q addr _ => anyRequester q && addr.toNat % 4 = 0
  | .highWordWrite q addr _ => anyRequester q && addr.toNat % 4 = 0
  | .registerWrite q addr size v => anyRequester q && sizeOk addr.toNat size && v.toNat < 2 ^ (8 * size.val)
  | .timeTick n => n ≠ 0
  | .ppeLoadDone _ _ => true
  | .loadFailed _ _ => true
  | .msixUnmask owner v => (owner.val = 0 || v.val < 32)
  | .refclkStatusChange _ _ _ => true

end Sys2Proof
end

