-- ==== Sys2Proof/Machine/Bytes.lean ====
section
/-! DEFINITION. Byte order, slices of byte strings, and the CRCs of the spec. -/

namespace Sys2Proof.Machine

/-- The low `n` bytes of `v`, most significant first (network order, R15). -/
def beBytes : Nat → Nat → Bytes
  | 0, _ => []
  | n + 1, v => BitVec.ofNat 8 (v / 256 ^ n) :: beBytes n v

/-- The low `n` bytes of `v`, least significant first. -/
def leBytes : Nat → Nat → Bytes
  | 0, _ => []
  | n + 1, v => BitVec.ofNat 8 v :: leBytes n (v / 256)

/-- The number that bytes in network order spell. -/
def ofBe (l : Bytes) : Nat := l.foldl (fun a b => a * 256 + b.toNat) 0

/-- The number that little-endian bytes spell. -/
def ofLe : Bytes → Nat
  | [] => 0
  | b :: t => b.toNat + 256 * ofLe t

/-- `n` bytes from offset `o`. -/
def slice (l : Bytes) (o n : Nat) : Bytes := (l.drop o).take n

/-- The network-order number in the `n` bytes at offset `o`. -/
def beAt (l : Bytes) (o n : Nat) : Nat := ofBe (slice l o n)

/-- The little-endian number in the `n` bytes at offset `o`. -/
def leAt (l : Bytes) (o n : Nat) : Nat := ofLe (slice l o n)

/-- `l` with the bytes from offset `o` replaced by `r`. -/
def patch (l : Bytes) (o : Nat) (r : Bytes) : Bytes := l.take o ++ r ++ l.drop (o + r.length)

/-- Bits `lo` to `lo + w - 1` of `v`. -/
def bits (v lo w : Nat) : Nat := v / 2 ^ lo % 2 ^ w

/-- Bit `i` of `v`. -/
def bit (v i : Nat) : Bool := v.testBit i

/-- `v` with bit `i` set to `b`. -/
def setBit (v i : Nat) (b : Bool) : Nat :=
  if b then v ||| 2 ^ i else if v.testBit i then v - 2 ^ i else v

/-- The two's-complement value of the low `w` bits of `v`. -/
def sext (w v : Nat) : Int := (BitVec.ofNat w v).toInt

/-- The low `w` bits of an integer. -/
def trunc (w : Nat) (v : Int) : Nat := (BitVec.ofInt w v).toNat

/-- One bit of a reflected CRC. -/
def crcStepR (poly : Nat) (c : Nat) : Nat := if c % 2 = 1 then (c / 2) ^^^ poly else c / 2

/-- One byte of a reflected CRC. -/
def crcByteR (poly c : Nat) (b : Byte) : Nat := (crcStepR poly)^[8] (c ^^^ b.toNat)

/-- CRC-32C (Castagnoli) over a byte string (R143). -/
def crc32c (l : Bytes) : Nat := (l.foldl (crcByteR 0x82F63B78) 0xFFFFFFFF) ^^^ 0xFFFFFFFF

/-- CRC-32C with initial value `init` over a byte string (R143). -/
def crc32cSeed (init : Nat) (l : Bytes) : Nat := (l.foldl (crcByteR 0x82F63B78) init) ^^^ 0xFFFFFFFF

/-- One bit of the non-reflected CRC-32 register of R26, polynomial 0x04C1_1DB7. -/
def crcStep (c : Nat) (b : Bool) : Nat :=
  if (c.testBit 31 != b) then (c * 2 % 2 ^ 32) ^^^ 0x04C11DB7 else c * 2 % 2 ^ 32

/-- The CRC-32 of R26 over bits in wire order, initial value 0xFFFF_FFFF. -/
def crc32Bits (l : List Bool) : Nat := l.foldl crcStep 0xFFFFFFFF

/-- The number whose bits, least significant first, are `l`. -/
def ofLsb : List Bool → Nat
  | [] => 0
  | b :: t => (if b then 1 else 0) + 2 * ofLsb t

/-- The low `n` bits of `v`, least significant first. -/
def lsbBits : Nat → Nat → List Bool
  | 0, _ => []
  | n + 1, v => (v % 2 = 1) :: lsbBits n (v / 2)

end Sys2Proof.Machine
end

