-- ==== Sys2Proof/Machine/Crypto.lean ====
section
/-! DEFINITION. SHA-384 and ECDSA on curve P-384 as FIPS 180 and FIPS 186 define them, and a Gymel image read from its bytes: header,
section table and signature block (R391, R393, R394). The algorithms' constants are the standards' own. PRESUMED: log entry 159. -/

namespace Sys2Proof.Machine

/-! ### SHA-384 -/

/-- The words of the SHA-512 family's schedule constant. PRESUMED: log entry 159. -/
def shaK : List Nat :=
  [0x428a2f98d728ae22, 0x7137449123ef65cd, 0xb5c0fbcfec4d3b2f, 0xe9b5dba58189dbbc,
   0x3956c25bf348b538, 0x59f111f1b605d019, 0x923f82a4af194f9b, 0xab1c5ed5da6d8118,
   0xd807aa98a3030242, 0x12835b0145706fbe, 0x243185be4ee4b28c, 0x550c7dc3d5ffb4e2,
   0x72be5d74f27b896f, 0x80deb1fe3b1696b1, 0x9bdc06a725c71235, 0xc19bf174cf692694,
   0xe49b69c19ef14ad2, 0xefbe4786384f25e3, 0x0fc19dc68b8cd5b5, 0x240ca1cc77ac9c65,
   0x2de92c6f592b0275, 0x4a7484aa6ea6e483, 0x5cb0a9dcbd41fbd4, 0x76f988da831153b5,
   0x983e5152ee66dfab, 0xa831c66d2db43210, 0xb00327c898fb213f, 0xbf597fc7beef0ee4,
   0xc6e00bf33da88fc2, 0xd5a79147930aa725, 0x06ca6351e003826f, 0x142929670a0e6e70,
   0x27b70a8546d22ffc, 0x2e1b21385c26c926, 0x4d2c6dfc5ac42aed, 0x53380d139d95b3df,
   0x650a73548baf63de, 0x766a0abb3c77b2a8, 0x81c2c92e47edaee6, 0x92722c851482353b] ++
  [0xa2bfe8a14cf10364, 0xa81a664bbc423001, 0xc24b8b70d0f89791, 0xc76c51a30654be30,
   0xd192e819d6ef5218, 0xd69906245565a910, 0xf40e35855771202a, 0x106aa07032bbd1b8,
   0x19a4c116b8d2d0c8, 0x1e376c085141ab53, 0x2748774cdf8eeb99, 0x34b0bcb5e19b48a8,
   0x391c0cb3c5c95a63, 0x4ed8aa4ae3418acb, 0x5b9cca4f7763e373, 0x682e6ff3d6b2b8a3,
   0x748f82ee5defb2fc, 0x78a5636f43172f60, 0x84c87814a1f0ab72, 0x8cc702081a6439ec,
   0x90befffa23631e28, 0xa4506cebde82bde9, 0xbef9a3f7b2c67915, 0xc67178f2e372532b,
   0xca273eceea26619c, 0xd186b8c721c0c207, 0xeada7dd6cde0eb1e, 0xf57d4f7fee6ed178,
   0x06f067aa72176fba, 0x0a637dc5a2c898a6, 0x113f9804bef90dae, 0x1b710b35131c471b,
   0x28db77f523047d84, 0x32caab7b40c72493, 0x3c9ebe0a15c9bebc, 0x431d67c49c100d4c,
   0x4cc5d4becb3e42b6, 0x597f299cfc657e2a, 0x5fcb6fab3ad6faec, 0x6c44198c4a475817]

/-- The initial hash value of SHA-384. -/
def shaInit : List Nat :=
  [0xcbbb9d5dc1059ed8, 0x629a292a367cd507, 0x9159015a3070dd17, 0x152fecd8f70e5939,
   0x67332667ffc00b31, 0x8eb44a8768581511, 0xdb0c2e0d64f98fa7, 0x47b5481dbefa4fa4]

/-- Rotate a 64-bit word right. -/
def rotr64 (n x : Nat) : Nat := x / 2 ^ n + x % 2 ^ n * 2 ^ (64 - n)

/-- The small sigma functions of the schedule. -/
def shaS0 (x : Nat) : Nat := rotr64 1 x ^^^ rotr64 8 x ^^^ (x / 2 ^ 7)
def shaS1 (x : Nat) : Nat := rotr64 19 x ^^^ rotr64 61 x ^^^ (x / 2 ^ 6)

/-- `n` more words of a message schedule, whose last words stand first. -/
def shaExtend (w : List Nat) : Nat → List Nat
  | 0 => w
  | n + 1 =>
    shaExtend ((shaS1 (w.getD 1 0) + w.getD 6 0 + shaS0 (w.getD 14 0) + w.getD 15 0) % 2 ^ 64 :: w) n

/-- The eight working variables. -/
structure Sha where
  a : Nat
  b : Nat
  c : Nat
  d : Nat
  e : Nat
  f : Nat
  g : Nat
  h : Nat
deriving DecidableEq, Repr

/-- One round with constant and schedule word `k` and `w`. -/
def shaRound (x : Sha) (k w : Nat) : Sha :=
  let ch := (x.e &&& x.f) ^^^ ((2 ^ 64 - 1 - x.e) &&& x.g)
  let t1 := x.h + (rotr64 14 x.e ^^^ rotr64 18 x.e ^^^ rotr64 41 x.e) + ch + k + w
  let maj := (x.a &&& x.b) ^^^ (x.a &&& x.c) ^^^ (x.b &&& x.c)
  let t2 := (rotr64 28 x.a ^^^ rotr64 34 x.a ^^^ rotr64 39 x.a) + maj
  { a := (t1 + t2) % 2 ^ 64, b := x.a, c := x.b, d := x.c, e := (x.d + t1) % 2 ^ 64, f := x.e, g := x.f, h := x.g }

/-- One block of 128 bytes. -/
def shaBlock (hs : List Nat) (b : Bytes) : List Nat :=
  let w0 := (List.range 16).map (fun i => beAt b (8 * i) 8)
  let w := (shaExtend w0.reverse 64).reverse
  let x : Sha := { a := hs.getD 0 0, b := hs.getD 1 0, c := hs.getD 2 0, d := hs.getD 3 0, e := hs.getD 4 0, f := hs.getD 5 0,
                   g := hs.getD 6 0, h := hs.getD 7 0 }
  let y := (shaK.zip w).foldl (fun x kw => shaRound x kw.1 kw.2) x
  (hs.zip [y.a, y.b, y.c, y.d, y.e, y.f, y.g, y.h]).map (fun p => (p.1 + p.2) % 2 ^ 64)

/-- A message padded to whole blocks. -/
def shaPad (m : Bytes) : Bytes := m ++ [0x80] ++ List.replicate ((239 - m.length % 128) % 128) 0 ++ beBytes 16 (8 * m.length)

/-- `n` blocks of a padded message. -/
def shaBlocks (hs : List Nat) (m : Bytes) : Nat → List Nat
  | 0 => hs
  | n + 1 => shaBlocks (shaBlock hs (m.take 128)) (m.drop 128) n

/-- The SHA-384 digest of a byte string, as a number in network order. PRESUMED: log entry 159. -/
def sha384 (m : Bytes) : Nat :=
  let p := shaPad m
  ((shaBlocks shaInit p (p.length / 128)).take 6).foldl (fun a w => a * 2 ^ 64 + w) 0

/-! ### Curve P-384 -/

/-- The field prime. -/
def ecP : Nat := 2 ^ 384 - 2 ^ 128 - 2 ^ 96 + 2 ^ 32 - 1
/-- The order of the base point. -/
def ecN : Nat := 0xffffffffffffffffffffffffffffffffffffffffffffffffc7634d81f4372ddf581a0db248b0a77aecec196accc52973
/-- The coefficient b of y² = x³ − 3x + b. -/
def ecB : Nat := 0xb3312fa7e23ee7e4988e056be3f82d19181d9c6efe8141120314088f5013875ac656398d8a2ed19d2a85c8edd3ec2aef
/-- The base point. -/
def ecG : Nat × Nat :=
  (0xaa87ca22be8b05378eb1c71ef320ad746e1d3b628ba79b9859f741e082542a385502f25dbf55296c3a545e3872760ab7,
   0x3617de4a96262c6f5d9e98bf9292dc29f8f41dbd289a147ce9da3113b5f0b8c00a60b1ce1d7e819d7a431d7c90ea0e5f)

/-- `a` − `b` modulo the field prime, for residues. -/
def fsub (a b : Nat) : Nat := (a + ecP - b) % ecP

/-- `x` ^ `e` modulo `m`, over the low `n` bits of `e`. -/
def powMod (m x e : Nat) : Nat → Nat
  | 0 => 1
  | n + 1 =>
    let r := powMod m x (e / 2) n
    if e % 2 = 1 then r * r % m * x % m else r * r % m

/-- A point in Jacobian coordinates; the third is 0 at the point at infinity. -/
abbrev EcPoint := Nat × Nat × Nat

/-- Twice a point. -/
def ecDouble (p : EcPoint) : EcPoint :=
  let (x, y, z) := p
  let delta := z * z % ecP
  let gamma := y * y % ecP
  let beta := x * gamma % ecP
  let alpha := 3 * fsub x delta * (x + delta) % ecP
  let x3 := fsub (alpha * alpha % ecP) (8 * beta % ecP)
  let z3 := fsub (fsub ((y + z) * (y + z) % ecP) gamma) delta
  (x3, fsub (alpha * fsub (4 * beta % ecP) x3 % ecP) (8 * gamma * gamma % ecP), z3)

/-- The sum of two points. -/
def ecAdd (p q : EcPoint) : EcPoint :=
  let (x1, y1, z1) := p
  let (x2, y2, z2) := q
  if z1 = 0 then q
  else if z2 = 0 then p
  else
    let zz1 := z1 * z1 % ecP
    let zz2 := z2 * z2 % ecP
    let u1 := x1 * zz2 % ecP
    let u2 := x2 * zz1 % ecP
    let s1 := y1 * z2 * zz2 % ecP
    let s2 := y2 * z1 * zz1 % ecP
    if u1 = u2 then (if s1 = s2 then ecDouble p else (1, 1, 0))
    else
      let h := fsub u2 u1
      let r := fsub s2 s1
      let hh := h * h % ecP
      let hhh := h * hh % ecP
      let v := u1 * hh % ecP
      let x3 := fsub (fsub (r * r % ecP) hhh) (2 * v % ecP)
      (x3, fsub (r * fsub v x3 % ecP) (s1 * hhh % ecP), h * z1 * z2 % ecP)

/-- `k` times a point, over the low `n` bits of `k`. -/
def ecMul (p : EcPoint) (k : Nat) : Nat → EcPoint
  | 0 => (1, 1, 0)
  | n + 1 =>
    let d := ecDouble (ecMul p (k / 2) n)
    if k % 2 = 1 then ecAdd d p else d

/-- The point (x, y) lies on the curve. -/
def ecOn (x y : Nat) : Bool := x < ecP && y < ecP && y * y % ecP = (x * x * x + ecB + 3 * (ecP - x)) % ecP

/-- ECDSA verification of signature (r, s) on digest `e` under public key (x, y), as FIPS 186 defines it. PRESUMED: log entry 159. -/
def ecdsaOk (x y r s e : Nat) : Bool :=
  ecOn x y && 1 ≤ r && r < ecN && 1 ≤ s && s < ecN &&
    (let w := powMod ecN s (ecN - 2) 384
     let p := ecAdd (ecMul (ecG.1, ecG.2, 1) (e * w % ecN) 384) (ecMul (x, y, 1) (r * w % ecN) 384)
     let zi := powMod ecP p.2.2 (ecP - 2) 384
     p.2.2 ≠ 0 && p.1 * zi % ecP * zi % ecP % ecN = r)

/-- A section with its entry of the section table (R393), and whether its CRC-32C matches. -/
structure Sec where
  type : Nat
  /-- INSTANCE: island and pipeline, both 0xFF for a device-wide section -/
  island : Nat
  pipe : Nat
  offset : Nat
  length : Nat
  crcOk : Bool
  body : SecBody
deriving DecidableEq, Repr

/-- Section type code of a content (R391), 0 for none. -/
def secType : SecBody → Nat
  | .portMap _ => 0x01
  | .parseGraph _ _ => 0x02
  | .pipeProgram _ => 0x03
  | .tableLayout _ => 0x04
  | .tableInit _ _ _ => 0x05
  | .patterns _ _ => 0x06
  | .meterMode _ => 0x07
  | .lagoon _ => 0x08
  | .hbmPartition _ _ _ => 0x09
  | .bpmDomains _ => 0x0A
  | .names => 0x0B
  | .regInit _ => 0x0C
  | .unknown => 0

/-- Content that stands under its own type code; anything else is no content. -/
def secBody (type : Nat) (b : Option SecBody) : SecBody :=
  match b with
  | some c => if secType c = type then c else .unknown
  | none => .unknown

end Sys2Proof.Machine

namespace Sys2Proof

open Sys2Proof.Machine

/-! ### The fields of R393 and R394 -/

def Image.magic (im : Image) : Nat := leAt im.bytes 0 4
def Image.format (im : Image) : Nat := leAt im.bytes 4 2
def Image.type (im : Image) : Nat := leAt im.bytes 6 2
def Image.device (im : Image) : Nat := leAt im.bytes 8 2
def Image.stepMin (im : Image) : Nat := leAt im.bytes 10 1
def Image.keySlot (im : Image) : Nat := leAt im.bytes 11 1
def Image.svn (im : Image) : Nat := leAt im.bytes 12 4
def Image.imageId (im : Image) : Nat := leAt im.bytes 16 4
def Image.baseId (im : Image) : Nat := leAt im.bytes 20 4
/-- LENGTH: bytes in the image, signature block included. -/
def Image.length (im : Image) : Nat := leAt im.bytes 24 4
def Image.sections (im : Image) : Nat := leAt im.bytes 28 2
def Image.flashClk (im : Image) : Nat := leAt im.bytes 30 1
def Image.target (im : Image) : Nat := leAt im.bytes 31 1

/-- Every reserved header byte is 0: those behind TARGET, up to the section table. -/
def Image.reserved0 (im : Image) : Bool := (slice im.bytes 32 224).all (fun b => b = 0)

/-- The sections in section-table order (R393). -/
def Image.secs (im : Image) : List Sec :=
  (List.range im.sections).map (fun k =>
    let o := 256 + 32 * k
    let off := leAt im.bytes (o + 4) 4
    let len := leAt im.bytes (o + 8) 4
    { type := leAt im.bytes o 2, island := leAt im.bytes (o + 3) 1, pipe := leAt im.bytes (o + 2) 1, offset := off, length := len,
      crcOk := crc32c (slice im.bytes off len) = leAt im.bytes (o + 12) 4, body := secBody (leAt im.bytes o 2) (im.bodies.getD k none) })

/-- Field `k` of the signature block: Qx, Qy, r and s. -/
def Image.sigField (im : Image) (k : Nat) : Nat := beAt im.bytes (im.length - 256 + 48 * k) 48

/-- SHA-384 of Qx‖Qy, as the number whose little-endian bytes are the digest. DESIGN CHOICE: log entry 173. -/
def Image.keyDigest (im : Image) : Nat := ofLe (beBytes 48 (sha384 (slice im.bytes (im.length - 256) 96)))

/-- The signature verifies under R394: ECDSA over the SHA-384 digest of bytes 0 to LENGTH − 257, and 64 B of 0 behind s. PRESUMED: log entry
159. -/
def Image.sigOk (im : Image) : Bool :=
  ecdsaOk (im.sigField 0) (im.sigField 1) (im.sigField 2) (im.sigField 3) (sha384 (im.bytes.take (im.length - 256))) &&
    (slice im.bytes (im.length - 64) 64).all (fun b => b = 0)

end Sys2Proof
end

