-- ==== Sys2Proof/Machine/PMap.lean ====
section
/-! DEFINITION. Reading and writing the sparse maps of the state, in their canonical form. -/

namespace Sys2Proof.Machine

/-- The entry of key `k`, if one is listed. -/
def mfind {α : Type} (m : PMap α) (k : Nat) : Option α :=
  match m with
  | [] => none
  | (k', v) :: t => if k = k' then some v else mfind t k

/-- The value of key `k`; an unlisted key reads as `d`. -/
def mget {α : Type} (m : PMap α) (k : Nat) (d : α) : α := (mfind m k).getD d

/-- Enter `v` at key `k`, keeping the keys rising. -/
def minsert {α : Type} (m : PMap α) (k : Nat) (v : α) : PMap α :=
  match m with
  | [] => [(k, v)]
  | (k', v') :: t =>
    if k < k' then (k, v) :: (k', v') :: t
    else if k = k' then (k, v) :: t
    else (k', v') :: minsert t k v

/-- Remove the entry of key `k`. -/
def merase {α : Type} (m : PMap α) (k : Nat) : PMap α := m.filter (fun e => e.1 ≠ k)

/-- Write `v` at key `k`, in canonical form: the default `d` is not listed. -/
def mset {α : Type} [DecidableEq α] (m : PMap α) (k : Nat) (v d : α) : PMap α :=
  if v = d then merase m k else minsert m k v

/-- The keys of a map rise strictly. -/
abbrev msorted {α : Type} (m : PMap α) : Prop := m.Pairwise (fun a b => a.1 < b.1)

/-- One key for a pair of object numbers. -/
abbrev key2 (a b : Nat) : Nat := Nat.pair a b

end Sys2Proof.Machine
end

