-- ==== Sys2Proof/Config.lean ====
section
/-! DEFINITION. What the spec leaves to the part or leaves open: constants with no body, so that no proof can rest on a
value of them. Each is named in a row of notes/assumptions. -/

namespace Sys2Proof.Config

/-- Spare rows and columns of every SRAM macro of the part, before fuse repair: R452 calls the number a fixed property of the silicon and
does not give it. DESIGN CHOICE: log entry 139. -/
opaque sramSpares : Nat

/-- A value that the spec leaves open, applied to the step's free-value counter. DESIGN CHOICE: log entries 17, 140. -/
opaque freeValue : Nat → Nat

/-- Credits that the receiver of direction `d` gives virtual channel `vc` at reset, as `8 d + vc`: R34 names no number. DESIGN CHOICE: log
entry 138. -/
opaque cwayCredits : Nat → Nat

/-- The hash of a stream's source pipeline and egress queue that chooses its bundle: R33 does not give it. DESIGN CHOICE: log entry 138. -/
opaque streamHash : Nat → Nat

/-- What the frames that Atoll builds carry and R280 does not give, source MAC address, own addresses and time to live serving the export
frames of R311 too: 0 the source MAC address, 1 and 2 the XH9's own IPv4 and IPv6 addresses, 3 the time to live, 4 the UDP source port, 16 +
n the destination MAC address of member entry n. DESIGN CHOICE: log entry 38. -/
opaque atollAddr : Nat → Nat

/-- The 16-bit random value of the LFSR of half `h` after `n` advances: R188 gives neither its polynomial nor its start. DESIGN CHOICE: log
entry 169. -/
opaque ecnLfsr : Nat → Nat → BitVec 16

/-- The transmit window in bytes of a port of a speed in Gb/s: R249 says that the XH9 sizes it and gives no number. DESIGN CHOICE: log entry
53. -/
opaque txWindow : Nat → Nat

/-- The register from which the pseudo-random pattern of a training frame of lane `l` or of the wake burst of port `512 + p` runs: R59 and
R65 name the sequence only. DESIGN CHOICE: log entry 170. -/
opaque patternSeed : Nat → Nat

/-- The silicon's fixed receive latency of a lane for its MODE and FEC, as `4 MODE + FEC`, in sixteenths of a tick: R347 and R349 give no
number. DESIGN CHOICE: log entry 151. -/
opaque laneLatency : Nat → Nat → Nat

/-- What a field of a header instance reads that the packet does not have, by instance and byte offset: R117 to R140 do not say. DESIGN
CHOICE: log entry 154. -/
opaque noHeader : Nat → Nat → Nat

/-- The hash function of a stage, by its seed and key: R140 names the computation only. DESIGN CHOICE: log entry 154. -/
opaque stageHash : Nat → List Nat → Nat

end Sys2Proof.Config
end

