-- ==== Sys2Proof/Machine/Coding.lean ====
section
/-! DEFINITION. Line coding: the PAM6 map (R48, R49), PAM4 (R47), training frames and wake bursts (R59, R65), lane-management ordered
sets (R68), and the Strait PCS and FEC (R50, R86 to R89). Bits stand in the order in which they are sent. -/

namespace Sys2Proof.Machine

/-- Bits in the order in which they are sent. -/
abbrev Bits := List Bool

/-- Lists of `n` entries each, from a list; a rest that is too short is left out. -/
def chunks {α : Type} (n : Nat) (l : List α) : List (List α) := (List.range (l.length / n)).map (fun k => (l.drop (n * k)).take n)

/-- The low `n` bits of `v`, most significant first. -/
def msbBits (n v : Nat) : Bits := (lsbBits n v).reverse

/-- The number whose bits, most significant first, are `l`. -/
def ofMsb (l : Bits) : Nat := ofLsb l.reverse

/-! ### Levels -/

/-- The level pair that carries the five-bit value `v` (R48). PRESUMED: log entry 150. -/
def pam6Pair (v : Nat) : Nat × Nat :=
  if v < 4 then (0, v + 1) else if v < 28 then ((v - 4) / 6 + 1, (v - 4) % 6) else (5, v - 27)

/-- Both symbols of a pair are extreme levels (R49). -/
def pam6Corner (x : Nat × Nat) : Bool := (x.1 = 0 || x.1 = 5) && (x.2 = 0 || x.2 = 5)

/-- The value that a received pair decodes to, a corner pair as the adjacent cell of its row (R48, R49). -/
def pam6Value (x : Nat × Nat) : Nat :=
  if x.1 = 0 then min 3 (x.2 - 1) else if x.1 = 5 then 28 + min 3 (x.2 - 1) else 4 + 6 * (x.1 - 1) + x.2

/-- Bits as level pairs, five at a time, the first bit of each five being v[4] (R48). -/
def pam6Send (l : Bits) : List (Nat × Nat) := (chunks 5 l).map (fun b => pam6Pair (ofMsb b))

/-- The bits that level pairs carry (R48, R49). -/
def pam6Receive (l : List (Nat × Nat)) : Bits := l.flatMap (fun x => msbBits 5 (pam6Value x))

/-- Gray mapping of a pair of bits to a PAM4 level (R47). PRESUMED: log entry 150. -/
def pam4Gray (a b : Bool) : Nat := (if a then 2 else 0) + (if a != b then 1 else 0)

/-- PAM4 levels with precoding: each less the one sent before it, modulo 4 (R47). PRESUMED: log entry 150. -/
def pam4Precode : Nat → List Nat → List Nat
  | _, [] => []
  | p, g :: t => (g + 4 - p) % 4 :: pam4Precode ((g + 4 - p) % 4) t

/-- PAM4 levels of a bit string, with precoding where it was asked for (R47). PRESUMED: log entry 150. -/
def pam4Send (precode : Bool) (l : Bits) : List Nat :=
  let g := (chunks 2 l).map (fun b => pam4Gray (b.getD 0 false) (b.getD 1 false))
  if precode then pam4Precode 0 g else g

/-! ### Training frames and wake bursts -/

/-- `n` bits of a pseudo-random sequence whose next bit is the exclusive or of the bits `taps` back, from the register `st`, whose bit 0
is the newest. -/
def prbs (w : Nat) (taps : List Nat) : Nat → Nat → Bits
  | 0, _ => []
  | n + 1, st =>
    let b := taps.foldl (fun a t => a != st.testBit (t - 1)) false
    b :: prbs w taps n ((2 * st + (if b then 1 else 0)) % 2 ^ w)

/-- A bit as eight symbols at an outer level (R59). -/
def outerBit (b : Bool) : List Nat := List.replicate 8 (if b then 5 else 0)

/-- CRC-8 of a training frame: polynomial 0x07, initial value 0, over control then status (R59). -/
def crc8 (control status : Nat) : Nat :=
  (List.range 32).foldl (fun c i =>
    let b := (control * 65536 + status).testBit (31 - i)
    if (c.testBit 7 != b) then (c * 2 % 256) ^^^ 0x07 else c * 2 % 256) 0

/-- Marker, control, status and check of a training frame (R59). PRESUMED: log entry 150. -/
def trainingHead (control status : Nat) : List Nat :=
  List.replicate 16 5 ++ List.replicate 16 0 ++
    (msbBits 16 control ++ msbBits 16 status ++ msbBits 8 (crc8 control status)).flatMap outerBit

/-- The 4,352 symbols of a training frame (R59); PRBS31 runs from the register `seed`. PRESUMED: log entry 150. -/
def trainingSymbols (control status seed : Nat) : List Nat :=
  trainingHead control status ++ (pam6Send (prbs 31 [31, 28] 10000 seed)).flatMap (fun x => [x.1, x.2])

/-- A bit of eight received symbols: the one whose eight symbols they are, if either. -/
def outerRead (l : List Nat) : Option Bool := if l = outerBit true then some true else if l = outerBit false then some false else none

/-- Control, status and check of a received training frame; none without its marker (R59, R60). -/
def trainingRead (l : List Nat) : Option (Nat × Nat × Nat) :=
  if l.take 32 = List.replicate 16 5 ++ List.replicate 16 0 then
    let b := (chunks 8 ((l.drop 32).take 320)).map outerRead
    if b.length = 40 && b.all Option.isSome then
      let v := b.map (fun x => x.getD false)
      some (ofMsb (v.take 16), ofMsb ((v.drop 16).take 16), ofMsb (v.drop 32))
    else none
  else none

/-- The 10,880 symbols of a wake burst (R65); PRBS13 runs from the register `seed`. PRESUMED: log entry 150. -/
def wakeSymbols (seed : Nat) : List Nat :=
  (List.range 5440).map (fun k => if k % 2 = 0 then 0 else 5) ++
    (pam6Send (prbs 13 [13, 12, 2, 1] 13600 seed)).flatMap (fun x => [x.1, x.2])

/-! ### 66-bit blocks (R86) -/

/-- The bits of octets, each from its least significant bit. PRESUMED: log entry 150. -/
def octetBits (l : Bytes) : Bits := l.flatMap (fun b => lsbBits 8 b.toNat)

/-- A data block: sync header 0b01 and eight octets. PRESUMED: log entry 150. -/
def dataBlock (l : Bytes) : Bits := [false, true] ++ octetBits l

/-- A control block: sync header 0b10, block type and content, filled with 0. PRESUMED: log entry 150. -/
def controlBlock (type : Nat) (rest : Bits) : Bits :=
  [true, false] ++ lsbBits 8 type ++ rest ++ List.replicate (56 - rest.length) false

/-- The block that starts a frame in its first octet: type 0x78, the rest of the preamble and the SFD (R86). PRESUMED: log entry 150. -/
def startBlock : Bits := controlBlock 0x78 (octetBits (List.replicate 6 0x55 ++ [0xD5]))

/-- The type of the block that ends a frame after `k` octets. PRESUMED: log entry 150. -/
def termType (k : Nat) : Nat := ([0x87, 0x99, 0xAA, 0xB4, 0xCC, 0xD2, 0xE1, 0xFF] : List Nat).getD k 0xFF

/-- The block that ends a frame with its last octets. PRESUMED: log entry 150. -/
def termBlock (l : Bytes) : Bits := controlBlock (termType l.length) (octetBits l)

/-- An idle block. PRESUMED: log entry 150. -/
def idleBlock : Bits := controlBlock 0x1E []

/-- An error block: block type 0x1E and eight /E/ characters (R89). PRESUMED: log entry 150. -/
def errorBlock : Bits := controlBlock 0x1E ((List.replicate 8 (lsbBits 7 0x1E)).flatten)

/-- The lane-management ordered set of R68. -/
def lmosBlock (code logical arg tag : Nat) : Bits :=
  controlBlock 0x4B (lsbBits 8 code ++ lsbBits 8 logical ++ lsbBits 8 arg ++ lsbBits 4 0xA ++ lsbBits 8 tag)

/-- Message code, logical lane, argument and TAG of a lane-management ordered set; none for any other block (R68). -/
def lmosRead (b : Bits) : Option (Nat × Nat × Nat × Nat) :=
  if b.length = 66 && b.take 2 = [true, false] && ofLsb ((b.drop 2).take 8) = 0x4B && ofLsb ((b.drop 34).take 4) = 0xA then
    some (ofLsb ((b.drop 10).take 8), ofLsb ((b.drop 18).take 3), ofLsb ((b.drop 26).take 8), ofLsb ((b.drop 38).take 8))
  else none

/-- The blocks of a frame after its start block. -/
def bodyBlocks : Bytes → List Bits
  | a :: b :: c :: d :: e :: f :: g :: h :: t => dataBlock [a, b, c, d, e, f, g, h] :: bodyBlocks t
  | l => [termBlock l]

/-- A frame as 66-bit blocks, FCS included, with the idle blocks that its inter-frame gap of 12 bytes needs (R86). -/
def frameBlocks (f : Bytes) : List Bits :=
  startBlock :: bodyBlocks f ++ List.replicate ((4 + f.length % 8 + 7) / 8) idleBlock

/-- A frame that breaks off behind the octets `f`: the blocks that these fill, then an error block (R89, R174). -/
def cutBlocks (f : Bytes) : List Bits := startBlock :: (bodyBlocks f).dropLast ++ [errorBlock]

/-- One bit through the scrambler x^58 + x^39 + 1; bit 0 of the register is the newest sent (R86). -/
def scrambleBit (st : Nat) (b : Bool) : Nat × Bool :=
  let o := (b != st.testBit 38) != st.testBit 57
  ((2 * st + (if o then 1 else 0)) % 2 ^ 58, o)

/-- The payload of a block through the scrambler; the sync header passes as it is (R86). DESIGN CHOICE: log entry 170. -/
def scramble (st : Nat) (b : Bits) : Nat × Bits :=
  let r := (b.drop 2).foldl (fun (a : Nat × Bits) x => ((scrambleBit a.1 x).1, (scrambleBit a.1 x).2 :: a.2)) (st, [])
  (r.1, b.take 2 ++ r.2.reverse)

/-- One received bit through the descrambler. -/
def unscrambleBit (st : Nat) (b : Bool) : Nat × Bool :=
  ((2 * st + (if b then 1 else 0)) % 2 ^ 58, (b != st.testBit 38) != st.testBit 57)

/-- The payload of a received block through the descrambler. -/
def unscramble (st : Nat) (b : Bits) : Nat × Bits :=
  let r := (b.drop 2).foldl (fun (a : Nat × Bits) x => ((unscrambleBit a.1 x).1, (unscrambleBit a.1 x).2 :: a.2)) (st, [])
  (r.1, b.take 2 ++ r.2.reverse)

/-! ### The Strait FEC (R88, R89) -/

/-- An element of GF(2^10) times α, a root of x^10 + x^3 + 1. -/
def gfShift (a : Nat) : Nat := if 2 * a ≥ 1024 then (2 * a) ^^^ 0x409 else 2 * a

/-- Product in GF(2^10). -/
def gfMul (a b : Nat) : Nat :=
  (List.range 10).foldl (fun r i => if b.testBit (9 - i) then gfShift r ^^^ a else gfShift r) 0

/-- α^n. -/
def gfPow (n : Nat) : Nat := gfShift^[n % 1023] 1

/-- `a` to the power whose bits, most significant first, are `l`. -/
def gfExp (a : Nat) (l : Bits) : Nat := l.foldl (fun r b => if b then gfMul (gfMul r r) a else gfMul r r) 1

/-- The inverse of a nonzero element. -/
def gfInv (a : Nat) : Nat := gfExp a (msbBits 10 1022)

/-- A polynomial times (x − r), coefficients from the highest power down. -/
def polyRoot (p : List Nat) (r : Nat) : List Nat :=
  List.zipWith (fun a b => a ^^^ b) (p ++ [0]) (0 :: p.map (gfMul r))

/-- The generator polynomial, the product of (x − α^j) for j from 0 to 15 (R88). -/
def rsGenerator : List Nat := (List.range 16).foldl (fun p j => polyRoot p (gfPow j)) [1]

/-- The 16 parity symbols of a message, x^15 first (R88). -/
def rsParity (msg : List Nat) : List Nat :=
  let g := rsGenerator.tail
  msg.foldl (fun r m => List.zipWith (fun a b => a ^^^ b) (r.tail ++ [0]) (g.map (gfMul (m ^^^ r.headD 0)))) (List.replicate 16 0)

/-- The codeword of 528 message symbols (R88). -/
def rsEncode (msg : List Nat) : List Nat := msg ++ rsParity msg

/-- The value of a polynomial, coefficients from the highest power down. -/
def polyAt (p : List Nat) (x : Nat) : Nat := p.foldl (fun a c => gfMul a x ^^^ c) 0

/-- The 16 syndromes of a received word. -/
def rsSyndromes (w : List Nat) : List Nat := (List.range 16).map (fun j => polyAt w (gfPow j))

/-- The error locator in the search of its shortest recurrence: the recurrence, the one before its last growth, the length, the
distance since and the discrepancy then; coefficients from the lowest power up. -/
structure Locator where
  c : List Nat := [1]
  b : List Nat := [1]
  len : Nat := 0
  m : Nat := 1
  d : Nat := 1
deriving DecidableEq, Repr

/-- The sum of two polynomials, coefficients from the lowest power up. -/
def polyAdd : List Nat → List Nat → List Nat
  | [], q => q
  | p, [] => p
  | a :: p, b :: q => (a ^^^ b) :: polyAdd p q

/-- One syndrome more; `n` have been taken. -/
def Locator.take (x : Locator) (syn : List Nat) (n : Nat) : Locator :=
  let d := (List.range (x.len + 1)).foldl (fun a i => a ^^^ gfMul (x.c.getD i 0) (syn.getD (n - i) 0)) 0
  if d = 0 then { x with m := x.m + 1 }
  else
    let k := gfMul d (gfInv x.d)
    let c := polyAdd x.c (List.replicate x.m 0 ++ x.b.map (gfMul k))
    if 2 * x.len ≤ n then { c := c, b := x.c, len := n + 1 - x.len, m := 1, d := d }
    else { x with c := c, m := x.m + 1 }

/-- The value of a polynomial, coefficients from the lowest power up. -/
def polyUp (p : List Nat) (x : Nat) : Nat := polyAt p.reverse x

/-- The error of the symbol whose power has locator `x`: 0 where the locator polynomial `c` has no root. -/
def rsError (c ev : List Nat) (x : Nat) : Nat :=
  let i := gfInv x
  if polyUp c i ≠ 0 then 0
  else
    let dv := (List.range c.length).map (fun k => if k % 2 = 0 then c.getD (k + 1) 0 else 0)
    gfMul x (gfMul (polyUp ev i) (gfInv (polyUp dv i)))

/-- The errors of a received word, symbol by symbol, when at most 8 symbols are wrong; none for an uncorrectable word (R89). -/
def rsErrors (w : List Nat) : Option (List Nat) :=
  let syn := rsSyndromes w
  if syn.all (fun x => x = 0) then some (List.replicate w.length 0)
  else
    let x := (List.range 16).foldl (fun (a : Locator) n => a.take syn n) {}
    if x.len > 8 then none
    else
      let ev := ((List.range x.len).map (fun k =>
        (List.range (k + 1)).foldl (fun a i => a ^^^ gfMul (x.c.getD i 0) (syn.getD (k - i) 0)) 0))
      let e := (List.range w.length).map (fun k => rsError x.c ev (gfPow (w.length - 1 - k)))
      if (e.filter (fun v => v ≠ 0)).length = x.len &&
          (rsSyndromes (List.zipWith (fun a b => a ^^^ b) w e)).all (fun v => v = 0) then some e
      else none

/-- Number of bits set in the low ten bits. -/
def popcount10 (v : Nat) : Nat := ((lsbBits 10 v).filter id).length

/-- Wrong symbols and wrong bits of errors, symbol by symbol (R89). -/
def errorCounts (e : List Nat) : Nat × Nat := ((e.filter (fun v => v ≠ 0)).length, (e.map popcount10).sum)

/-- The wrong symbols of a codeword, symbol by symbol. -/
def lineWord (l : LineErr) : List Nat :=
  (List.range 544).map (fun k => l.foldl (fun a e => if e.1.val = k then a ^^^ e.2.toNat else a) 0)

/-- What the decoder does with a codeword whose wrong symbols are `l`, the code being linear (R89): corrected symbols and bits, or none. -/
def lineDecode (l : LineErr) : Option (Nat × Nat) := (rsErrors (lineWord l)).map errorCounts

/-- Corrected symbols, corrected bits, corrected codewords and uncorrectable codewords among codewords in error (R66, R89, R113). -/
def lineCounts (l : List LineErr) : Nat × Nat × Nat × Nat :=
  l.foldl (fun a e =>
    match lineDecode e with
    | some (sy, bi) => (a.1 + sy, a.2.1 + bi, a.2.2.1 + (if sy = 0 then 0 else 1), a.2.2.2)
    | none => (a.1, a.2.1, a.2.2.1, a.2.2.2 + 1)) (0, 0, 0, 0)

/-! ### Codewords (R50, R87, R88) -/

/-- The symbols of the data bits of a codeword, bit k being bit k mod 10 of symbol k div 10 (R88). -/
def symbolsOf (l : Bits) : List Nat := (chunks 10 l).map ofLsb

/-- A codeword of 80 blocks as 1,088 level pairs (R48, R50, R87, R88). -/
def codewordPairs (blocks : List Bits) : List (Nat × Nat) :=
  pam6Send ((rsEncode (symbolsOf blocks.flatten)).flatMap (lsbBits 10))

/-- A received codeword: its corner pairs, and its 80 blocks with corrected symbols and bits, or none for an uncorrectable one. The blocks
of an uncorrectable codeword are as received (R49, R89). -/
def codewordRead (l : List (Nat × Nat)) : Nat × List Bits × Option (Nat × Nat) :=
  let w := symbolsOf (pam6Receive l)
  let blocks (w : List Nat) : List Bits := chunks 66 ((w.take 528).flatMap (lsbBits 10))
  let corners := (l.filter pam6Corner).length
  match rsErrors w with
  | some e => (corners, blocks (List.zipWith (fun a b => a ^^^ b) w e), some (errorCounts e))
  | none => (corners, blocks w, none)

/-! ### Frames from blocks (R86, R89, R93) -/

/-- What a descrambled block says to the MAC. -/
inductive RxBlock where
  | data (l : Bytes)
  | start
  | term (l : Bytes)
  /-- an idle block or an ordered set -/
  | gap
  /-- an error block, or an invalid control character or sync header (R93) -/
  | bad
deriving DecidableEq, Repr

/-- The octets of bits, each from its least significant bit. -/
def bitOctets (l : Bits) : Bytes := (chunks 8 l).map (fun b => BitVec.ofNat 8 (ofLsb b))

/-- A descrambled block read. PRESUMED: log entry 150. -/
def readBlock (b : Bits) : RxBlock :=
  let rest := b.drop 10
  if b.length ≠ 66 then .bad
  else if b.take 2 = [false, true] then .data (bitOctets (b.drop 2))
  else if b.take 2 = [true, false] then
    let ty := ofLsb ((b.drop 2).take 8)
    if ty = 0x1E then (if rest.all (fun x => !x) then .gap else .bad)
    else if ty = 0x4B then .gap
    else if ty = 0x78 then .start
    else
      match (List.range 8).find? (fun k => termType k = ty) with
      | some k => if (rest.drop (8 * k)).all (fun x => !x) then .term (bitOctets (rest.take (8 * k))) else .bad
      | none => .bad
  else .bad

/-- A frame that is being received: its octets, whether a block of the coding class has touched it, and the logical lane of its first
block. -/
structure RxPart where
  data : Bytes := []
  coding : Bool := false
  lane : Nat := 0
deriving DecidableEq, Repr

/-- Blocks with their logical lanes up to the end of the first frame: that frame, the frame in hand, and the blocks left. A frame that
another start or a gap cuts off ends there with a coding error. PRESUMED: log entry 150. -/
def takeFrameBlocks : Option RxPart → List (Nat × RxBlock) → Option RxPart × Option RxPart × List (Nat × RxBlock)
  | cur, [] => (none, cur, [])
  | none, (k, .start) :: t => takeFrameBlocks (some { lane := k }) t
  | none, _ :: t => takeFrameBlocks none t
  | some f, (_, .data l) :: t => takeFrameBlocks (some { f with data := f.data ++ l }) t
  | some f, (_, .bad) :: t => takeFrameBlocks (some { f with coding := true }) t
  | some f, (_, .term l) :: t => (some { f with data := f.data ++ l }, none, t)
  | some f, (k, .start) :: t => (some { f with coding := true }, none, (k, .start) :: t)
  | some f, (_, .gap) :: t => (some { f with coding := true }, none, t)

end Sys2Proof.Machine
end

