-- ==== Sys2Proof/Machine/RegName.lean ====
section
/-! DEFINITION. The registers of the address map (R463, R464, R480), one name per register of the spec's
register tables and register lists. A replicated register has one name, and an index picks the instance. -/

namespace Sys2Proof.Machine

/-- A register of BAR0, by the name its chapter gives it. -/
inductive RegName where
  | CHIP_ID
  | CHIP_WDISCARD_ADDR
  | CHIP_WDISCARD_STATE
  | CHIP_WDISCARD_CNT
  | CHIP_INT_SUMMARY
  | CHIP_INT_ISL
  | CHIP_VEC_MAP
  | CHIP_INT_STATUS
  | CHIP_INT_MASK
  | BOOT_STATUS
  | BOOT_ERR
  | BOOT_IMAGE
  | BOOT_IMAGE_SVN
  | BOOT_STAGED
  | BOOT_KEY_STATUS
  | BOOT_PCIE_ADDR
  | BOOT_PCIE_LEN
  | BOOT_PCIE_GO
  | BOOT_KEY_DIGEST
  | BOOT_INT_STATUS
  | BOOT_INT_MASK
  | CLK_CFG
  | CLK_STATUS
  | CLK_CORE
  | CLK_INT_STATUS
  | CLK_INT_MASK
  | PWR_CFG
  | PWR_PRIO
  | PWR_CAP
  | PWR_CAP_LIMIT
  | PWR_FREQ_BOUND
  | PWR_VOLT_BOUND
  | PWR_IMAX
  | PWR_DOM_FLOOR
  | PWR_STATUS
  | PWR_POWER
  | PWR_CAP_EFF
  | PWR_PINNED_CNT
  | PWR_OVERRIDE_CNT
  | PWR_DROOP_CFG
  | PWR_DROOP_CNT
  | PWR_THERM_CFG
  | PWR_THERM_STATUS
  | PWR_DOM_STATUS
  | PWR_IDLE_EN
  | PWR_LINK_LIMIT
  | PWR_INT_STATUS
  | PWR_INT_MASK
  | PWR_SENSOR
  | PWR_AGE
  | PWR_FERRY_CFG
  | PWR_FERRY_JOB
  | PWR_FERRY_CTL
  | PWR_FERRY_TOTAL
  | PWR_FERRY_STATUS
  | PWR_FERRY_COORD
  | FERRY_UNTRUSTED
  | FERRY_FOREIGN
  | PWR_FERRY_PORT
  | KEEP_CFG
  | KEEP_STATUS
  | KEEP_SEQ
  | KEEP_SAVES
  | KEEP_INT_STATUS
  | KEEP_INT_MASK
  | LIGHT_CTL
  | LIGHT_STATUS
  | LIGHT_RATE_ADJ
  | LIGHT_INCR
  | LIGHT_STEP_S
  | LIGHT_STEP_NS
  | LIGHT_STEP_FRAC
  | LIGHT_STEP_CTL
  | LIGHT_SNAP_S
  | LIGHT_SNAP_NS
  | LIGHT_SNAP_FRAC
  | LIGHT_LEAD
  | LIGHT_TICKS
  | LIGHT_PPS_OUT_CFG
  | LIGHT_PPS_IN_CFG
  | LIGHT_PPS_IN_TS
  | LIGHT_PPS_IN_STAT
  | LIGHT_10M_PHASE
  | LIGHT_TM_CMP_S
  | LIGHT_TM_CMP_NS
  | LIGHT_INT_STATUS
  | LIGHT_INT_MASK
  | LIGHT_PORT_CFG
  | LIGHT_PORT_DELAY
  | LIGHT_PORT_PDELAY
  | LIGHT_TS_LOST
  | LIGHT_TS_BADOFF
  | LIGHT_TSF_STATUS
  | LIGHT_TSF_CFG
  | LIGHT_TSF_POP
  | HARB_STATUS
  | HARB_INT_STATUS
  | HARB_INT_MASK
  | HARB_RX_BASE
  | HARB_RX_CFG
  | HARB_RX_TAIL
  | HARB_RX_HEAD
  | HARB_RX_DROP
  | HARB_TX_BASE
  | HARB_TX_CFG
  | HARB_TX_TAIL
  | HARB_TX_HEAD
  | HARB_TX_DROP
  | HARB_VF_PORTS
  | HARB_VF_DENIED
  | DYS_RING_CFG
  | DYS_CMD_BASE
  | DYS_RSP_BASE
  | DYS_CMD_TAIL
  | DYS_CMD_HEAD
  | DYS_RSP_TAIL
  | DYS_INT_STATUS
  | DYS_INT_MASK
  | DYS_ETH_CFG
  | DYS_ETH_ADDR
  | DYS_ETH_DROP
  | DYS_ETH_ACL
  | DYS_ETH_ACL_CTL
  | LANE_CTL
  | LANE_STATUS
  | LANE_TRAIN
  | LANE_TX_TAP
  | LANE_RX_CTLE
  | LANE_RX_FFE
  | LANE_ERR
  | LANE_ERR_CNT
  | LANE_PINNED_CNT
  | LANE_BITSLIP
  | LANE_LOCK
  | LANE_CDR
  | LANE_SWAP_BER
  | LANE_SWAP_WIN
  | LANE_SWAP_CFG
  | LANE_SWAP_STATUS
  | LANE_INT_STATUS
  | LANE_INT_MASK
  | PORT_CFG
  | PORT_CTL
  | PORT_STATUS
  | MAC_RX_CFG
  | MAC_PFC_CFG
  | MAC_PFC_QUANTA
  | MAC_PFC_STATUS
  | PORT_FEC_DEG
  | PCS_FEC_CORR
  | PCS_FEC_UNCORR
  | MAC_SA
  | MAC_RX_OVERFLOW
  | HELLO_UNTRUSTED
  | PORT_PARTNER_STATUS
  | PORT_PARTNER_ID
  | PORT_PARTNER_SERIAL
  | PORT_PARTNER_PORT
  | PORT_PARTNER_LMAP
  | PORT_PARTNER_SPARE
  | PORT_PARTNER_AN
  | PORT_HELLO_CFG
  | MAC_INT_STATUS
  | MAC_INT_MASK
  | MAC_PARTNER_CHG
  | PRS_STATUS
  | PRS_STEPS
  | PRS_VALUE
  | PRS_FAIL_CNT
  | CLS_WR_TARGET
  | CLS_WR_CMD
  | CLS_WR_STATUS
  | CLS_WR_DATA
  | PPE_BANK
  | PPE_MATCH_PKTS
  | TRAP_RATE
  | TRAP_CFG
  | TRAP_PASS
  | TRAP_DROP
  | PRS_INT_STATUS
  | PRS_INT_MASK
  | CNT_TBL_TARGET
  | CNT_TBL_CMD
  | CNT_TBL_DATA
  | PIPE_STATUS
  | PIPE_HAZARD
  | PIPE_HAZARD_LAST
  | PIPE_BANK_STALL
  | PIPE_RECIRC_LIMIT
  | PIPE_SWAP_CFG
  | PIPE_SWAP_STATUS
  | PIPE_COPY_STATUS
  | PIPE_PORT_LIVE
  | PIPE_INT_STATUS
  | PIPE_INT_MASK
  | PIPE_TBL_INFO
  | PIPE_TBL_SEED
  | MTR_CFG
  | MTR_TARGET
  | MTR_CMD
  | MTR_STATUS
  | MTR_DATA
  | CWAY_CFG
  | CWAY_STATUS
  | CWAY_VC_WEIGHT
  | CWAY_INT_STATUS
  | CWAY_INT_MASK
  | CWAY_BUNDLE_STATUS
  | CWAY_BUNDLE_ERR
  | LAG_CFG
  | LAG_SPILL_LOW
  | LAG_SPILL_HIGH
  | LAG_POOL
  | LAG_HALF_STATUS
  | LAG_HALF_USE
  | LAG_PINNED_CNT
  | LAG_BANK_STATUS
  | LAG_DROP_CNT
  | LAG_INT_STATUS
  | LAG_INT_MASK
  | LAG_PG_MIN
  | LAG_PG_CFG
  | LAG_PG_HDRM
  | LAG_PG_USE
  | LAG_Q_MIN
  | LAG_Q_CFG
  | LAG_Q_MAX
  | LAG_Q_ECN
  | LAG_Q_ECN_BOUND
  | LAG_Q_STATUS
  | LAG_MQ_CFG
  | LAG_MQ_MAX
  | LAG_MQ_ECN
  | LAG_MQ_ECN_BOUND
  | LAG_MQ_STATUS
  | TM_SHAPE_CFG
  | TM_HIST_CFG
  | TM_INT_STATUS
  | TM_INT_MASK
  | TM_Q_SHAPE
  | TM_Q_BURST
  | TM_Q_MIN
  | TM_Q_MIN_BURST
  | TM_Q_CFG
  | TM_Q_STATUS
  | TM_Q_MAX_DEPTH
  | TM_Q_LEVEL
  | TM_Q_MIN_LEVEL
  | TM_MQ_SHAPE
  | TM_MQ_BURST
  | TM_MQ_MIN
  | TM_MQ_MIN_BURST
  | TM_MQ_CFG
  | TM_MQ_STATUS
  | TM_MQ_MAX_DEPTH
  | TM_MQ_LEVEL
  | TM_MQ_MIN_LEVEL
  | TM_CPU_Q_CFG
  | TM_CPU_SHAPE
  | TM_CPU_BURST
  | TM_G_SHAPE
  | TM_G_BURST
  | TM_G_MIN
  | TM_G_MIN_BURST
  | TM_G_CFG
  | TM_G_LEVEL
  | TM_G_MIN_LEVEL
  | TM_P_SHAPE
  | TM_P_BURST
  | TM_P_MIN
  | TM_P_MIN_BURST
  | TM_PORT_CFG
  | TM_PORT_STATUS
  | TM_GATE_CTL
  | TM_GATE_STATUS
  | TM_GATE_ADMIN_BASE_S
  | TM_GATE_ADMIN_BASE_NS
  | TM_GATE_ADMIN_CYCLE
  | TM_GATE_ADMIN_LEN
  | TM_GATE_START_S
  | TM_GATE_START_NS
  | TM_GATE_OPER_CYCLE
  | TM_GATE_OPER_LEN
  | TM_P_LEVEL
  | TM_P_MIN_LEVEL
  | TM_GATE_ENTRY
  | TM_HIST
  | MC_CFG
  | MC_STATUS
  | MC_TSET_CMD
  | MC_BW_CAP
  | MC_IDLE
  | MC_PINNED_CNT
  | MC_RT_SPLIT
  | MC_SR_CFG
  | MC_RAS_CFG
  | MC_ECC_CE
  | MC_ECC_UE
  | MC_ECC_LAST
  | MC_RETIRE_STATUS
  | MC_INT_STATUS
  | MC_INT_MASK
  | MC_IDLE_STATUS
  | MC_TRAIN_STATUS
  | MC_CHMAP
  | MC_REF_OWED
  | MC_RETIRE_LIST
  | BPM_REGION
  | BPM_POOL_FREE
  | BPM_POOL_RETIRED
  | BPM_CLASS_RSV
  | BPM_CLASS_MAX
  | BPM_CLASS_USED
  | BPM_BAD_RELEASE
  | BPM_BAD_COUNT
  | BPM_INT_STATUS
  | BPM_INT_MASK
  | BPM_AGENT_DOMAIN
  | BPM_FN_ARG
  | BPM_FN_CMD
  | BPM_FN_RESULT
  | BPM_FN_HANDLE
  | BPM_DEEP_CFG
  | BPM_DEEP_DIE_STATUS
  | BPM_DEEP_DROP_CNT
  | BPM_DEEP_Q_CFG
  | BPM_DEEP_Q_ON
  | BPM_DEEP_Q_MAX
  | BPM_DEEP_Q_STATUS
  | ATL_CFG
  | ATL_TIMER
  | ATL_STATUS
  | ATL_ENG_STATUS
  | ATL_DROP_CNT
  | ATL_INT_STATUS
  | ATL_INT_MASK
  | ATL_SESS_CFG
  | ATL_SESS_ROLES
  | ATL_SESS_TIMEOUT
  | ATL_SESS_MEMBERS
  | ATL_SESS_ROOT
  | ATL_SESS_MCAST
  | ATL_SESS_STATUS
  | ATL_SESS_OPSEQ
  | ATL_SESS_DONE
  | ATL_SESS_EVT
  | ATL_SESS_SPILL
  | ATL_MEMBER
  | ATL_MEMBER_W1
  | ATL_MEMBER_ADDR
  | TEL_CFG
  | TEL_SOURCE_ID
  | TEL_IOAM_NODE
  | TEL_IOAM_NODE_W
  | TEL_STATUS
  | TEL_INT_STATUS
  | TEL_INT_MASK
  | TEL_COLLECTOR
  | TEL_COLLECTOR_UDP
  | TEL_COLLECTOR_RATE
  | TEL_COLLECTOR_MAC
  | TEL_COLLECTOR_DST
  | TEL_COLLECTOR_SRC
  | TEL_DROP_EN
  | TEL_DROP_ALL
  | TEL_QS_SEL
  | TEL_FLOW_CFG
  | TEL_FLOW_STATUS
  | TEL_FLOW_RD_KEY
  | TEL_FLOW_RD_GO
  | TEL_FLOW_RD_STAT
  | TEL_FLOW_RD_REC
  | TEL_DROP_CNT
  | CNT_DUMP_CFG
  | CNT_DUMP_PERIOD
  | CNT_DUMP_BASE
  | CNT_DUMP_RING
  | CNT_DUMP_PROD
  | CNT_DUMP_CONS
  | CNT_DUMP_STATUS
  | CNT_DUMP_SEQ
  | CNT_USER_PAGES
  | CNT_INT_STATUS
  | CNT_INT_MASK
  | CNT_TD
  | CNT_SEL
  | CNT_CTL
  | CNT_VALUE
  | CNT_PRESET
  | CNT_MIB
  | CNT_MIB_DISC
  | RAS_CFG
  | RAS_CLASS_CNT
  | RAS_FATAL_FIRST
  | RAS_LOG_WR
  | RAS_LOG_RD
  | RAS_LOG_OVERRUN
  | RAS_SPARE_POLICY
  | RAS_SPARE_STATUS
  | RAS_SPARE_SUMMARY
  | RAS_SPARE_SUMMARY_HI
  | RAS_SPARE_REQ
  | RAS_SPARE_REQ_OBJ
  | RAS_SPARE_REQ_AGE
  | RAS_SPARE_THRESH
  | RAS_TM_CFG
  | RAS_TM_SEQ
  | RAS_TM_IGNORED
  | RAS_INT_STATUS
  | RAS_INT_MASK
  | RAS_ALERT_EN
  | RAS_LOG
  | DBG_CTL
  | DBG_PERTURB_CWAY
  | DBG_PERTURB_CWAY_W1
  | DBG_PERTURB_TM
  | DBG_PERTURB_TM_W1
  | DBG_PERTURB_HBM
  | DBG_PERTURB_PFC
  | DBG_PERTURB_LANE
  | DBG_PERTURB_ECC
  | DBG_INT_STATUS
  | DBG_INT_MASK
  | DBG_TM_SNAP
deriving DecidableEq, Repr

end Sys2Proof.Machine
end

