-- ==== Sys2Proof/Machine/Parts.lean ====
section
/-! DEFINITION. The parts of the state of the XH9: what the rules give each block beside its registers. Plain data
throughout. -/

namespace Sys2Proof.Machine

/-! ### Registers -/

/-- A field of a register: the register, the flat instance number, its lowest bit, its width and its reset value. DESIGN CHOICE: log entry
1. -/
structure Fld where
  reg : RegName
  ix : Nat
  lo : Nat
  width : Nat
  dflt : Nat
deriving DecidableEq, Repr

/-- The access types of R17. -/
inductive Access where
  | rw | ro | wo | w1c | w1s | rc | rwl
deriving DecidableEq, Repr

/-- The high word that a requester's read of a low word latched (R466). -/
structure Latched where
  reg : RegName
  ix : Nat
  hi : Nat
deriving DecidableEq, Repr

/-- A low word that the XH9 holds for a requester until it writes the high word (R467). -/
structure HeldLow where
  reg : RegName
  ix : Nat
  lo : Nat
deriving DecidableEq, Repr

/-! ### What leaves the device -/

/-- Single-signal outputs. -/
inductive Pin where
  | ppsOut | tidemarkOut | thermtripN | alertN
deriving DecidableEq, Repr

/-! ### Lighthouse -/

/-- A step that waits for the next time tick (R339). -/
structure LightStep where
  /-- an absolute step sets the time, a relative step adds a signed offset -/
  abs : Bool
  s : Nat
  ns : Nat
  frac : Nat
deriving DecidableEq, Repr

/-- A time domain (R334): seconds, nanoseconds and a fraction that keeps the 24 further bits of R335, so that it counts
in units of 2^−56 ns. -/
structure Dom where
  sec : Nat := 0
  ns : Nat := 0
  frac : Nat := 0
  /-- the increment of the last tick, in 2^−56 ns -/
  eff : Nat := 0xA0000000 * 2 ^ 24
  /-- the steps that the next tick applies, in order -/
  steps : List LightStep := []
  /-- the increment stands until the domain leaves HOLDOVER: following of domain B has ended (R344) -/
  keepEff : Bool := false
  /-- tick from which the software watchdog counts (R343) -/
  wdFrom : Nat := 0
  /-- domain A seconds and nanoseconds from which the PPS_IN watch counts (R343) -/
  ppsFromS : Nat := 0
  ppsFromNs : Nat := 0
deriving DecidableEq, Repr

/-- An entry of a TX timestamp FIFO (R353): words 0 and 1 and the timestamp. -/
structure TsfEntry where
  w0 : Nat
  w1 : Nat
  ts : Nat
deriving DecidableEq, Repr

/-! ### Error log, Tidemark and counter dumps -/

/-- An entry of the error log (R441), with the tick at which it was written (R442). -/
structure LogEntry where
  seq : Nat
  cls : Nat
  inj : Bool
  restored : Bool
  code : Nat
  unit : Nat
  count : Nat
  timeS : Nat
  timeNs : Nat
  detail : Nat
  tick : Nat
deriving DecidableEq, Repr

/-- A Tidemark snapshot (R456): the header's values and the registers as they stood at the edge. -/
structure Snap where
  seq : Nat
  sources : Nat
  sec : Nat
  ns : Nat
  frac : Nat
  ticks : Nat
  logSeq : Nat
  regs : PMap Nat
deriving DecidableEq, Repr

/-- A counter dump that is being written (R329 to R331): the header's values and the counters as they stood. -/
structure DumpRec where
  seq : Nat
  sets : Nat
  flags : Nat
  sec : Nat
  ns : Nat
  frac : Nat
  ticks : Nat
  missed : Nat
  regs : PMap Nat
  hist : PMap Nat
deriving DecidableEq, Repr

/-! ### Fuses and straps -/

/-- What is fused, strapped or held outside the registers and survives every reset (R396, R399, R400, R8, R432). DESIGN CHOICE: log entry
14. -/
structure Fuses where
  grade : Nat := 1
  serial : Nat := 0
  /-- digest of each programmed key slot -/
  digests : PMap Nat := []
  revoked : List Nat := []
  svn : Nat := 0
  bootSrc : Nat := 0
  i2cRstEn : Bool := false
  /-- the spare map of fuse repair: resources out of service, by kind and object (R389, R403), and the spares consumed at manufacture, by kind -/
  map : PMap Nat := []
  used : PMap Nat := []
deriving DecidableEq, Repr

/-! ### Lanes and ports -/

/-- What a lane holds beside its registers: its Strait training (R59 to R61) and its stay in IDLE (R65). -/
structure LaneX where
  /-- training frames in a row that passed their check (phase 1) -/
  good : Nat := 0
  /-- frames in a row with the partner's RX_READY (phase 3) -/
  rdySeen : Nat := 0
  /-- this end's receiver has finished adapting -/
  rxReady : Bool := false
  /-- the control word that this end sends, and the status word that answers the partner -/
  ctl : Nat := 0
  sts : Nat := 0
  /-- the partner's control word of the last frame that passed its check -/
  seen : Nat := 0
  /-- tick of entry to IDLE -/
  idleAt : Nat := 0
  /-- tick at which the present training began -/
  trainAt : Nat := 0
  /-- the transmit tap that the partner last asked to change (R60) -/
  lastTap : Nat := 0
  /-- the partner shows no answer, so a new request may follow -/
  calm : Bool := true
  /-- the partner of a PAM4 lane has asked for precoding (R47) -/
  precode : Bool := false
  /-- corrected bits, corrected codewords and uncorrectable codewords of the present window, among codewords that carried received frames -/
  winBits : Nat := 0
  winCorr : Nat := 0
  winBad : Nat := 0
deriving DecidableEq, Repr

/-- A lane-management message that awaits its answer (R68, R69). -/
structure Lmos where
  code : Nat
  logical : Nat
  arg : Nat
  tag : Nat
  /-- tick at which it was last sent -/
  sent : Nat := 0
deriving DecidableEq, Repr

/-- The answer that a port gave to a lane-management request: the request's code and TAG, the answer and its lane, and its tick (R69). -/
structure LmosAns where
  code : Nat
  tag : Nat
  lane : Nat
  answer : Lmos
deriving DecidableEq, Repr

/-- The PCS of a Strait port (R86 to R90). -/
structure Pcs where
  /-- tick at which data began on all lanes of the port, if it has (R90) -/
  began : Option Nat := none
  /-- transmit: scrambler, blocks dealt since then, and the blocks that each logical lane has collected -/
  txScr : Nat := 0
  txCount : Nat := 0
  txLanes : PMap (List Bits) := []
  /-- receive: descrambler, blocks taken since then, the blocks of each logical lane that wait for their turn, each with whether its
  codeword was uncorrectable, blocks beyond the last frame, and the frame in hand -/
  rxScr : Nat := 0
  rxCount : Nat := 0
  rxLanes : PMap (List (Bool × Bits)) := []
  rxBlocks : List (Nat × RxBlock) := []
  rxFrame : Option RxPart := none
  /-- deskew offset of each logical lane, in units of 100 ps (R90) -/
  deskew : List Nat := []
deriving DecidableEq, Repr

/-- A reserve-lane swap in progress on a trunk (R70). -/
structure Swap where
  logical : Nat
  oldLane : Nat
  spare : Nat
  tag : Nat
  /-- started by SPARE_SWAP: the old lane ends in RESERVE -/
  byCmd : Bool
  /-- this end sent SWAP_REQ -/
  requester : Bool
  /-- the answer (or the partner's own request) has arrived -/
  acked : Bool
  /-- step 4 is done at this end and SWAP_DONE is sent -/
  switched : Bool
  /-- SWAP_DONE has arrived -/
  doneRx : Bool
  /-- tick of SWAP_REQ -/
  start : Nat
deriving DecidableEq, Repr

/-- What a port holds beside its registers. -/
structure PortX where
  /-- SEQ of the next hello (R102) -/
  helloSeq : Nat := 0
  /-- tick of the last hello received and its announced period (R104) -/
  helloAt : Nat := 0
  helloPeriod : Nat := 0
  /-- degraded windows in a row (R113) -/
  degRun : Nat := 0
  /-- tag of an IDLE_REQ that awaits its answer -/
  idleTag : Option Nat := none
  /-- this end has started its wake bursts (R65, R111) -/
  waking : Bool := false
  /-- negotiation is complete (R82, R109) -/
  anDone : Bool := false
  /-- tick at which the port last sent or received a frame (R367) -/
  lastFrame : Nat := 0
  /-- tick of the last PFC frame sent while XOFF holds, by priority (R101) -/
  pfcAt : PMap Nat := []
  /-- XOFF that admission asks for, and XOFF forced by the power manager or a perturbation, by priority (R101, R366, R458) -/
  wantXoff : Nat := 0
  forceXoff : Nat := 0
  /-- LINKING since a wake that found the held coefficients stale: queued frames wait for UP (R111) -/
  woke : Bool := false
  /-- the last answer to a lane-management request (R69) -/
  answered : Option LmosAns := none
  /-- the swap that this end has finished last, which the partner may still abort (R72) -/
  swapped : Option Swap := none
  /-- logical lane whose request waits for the swap in progress (R74) -/
  second : Option Nat := none
  /-- logical lane, the lane that it was received from before, and the tick of step 4 of R70 (R349) -/
  rxOld : Option (Nat × Nat × Nat) := none
  pcs : Pcs := {}
  /-- hello fields, SEQ set aside, as last sent, and the tick; none since UP was entered (R102) -/
  helloSent : Option (Nat × Bytes) := none
  /-- earlier values of DELIVER_BAD with the ticks at which they ended, newest first (R94) -/
  deliverOld : List (Nat × Bool) := []
  /-- corrected and uncorrectable codewords that the windows of a Strait port's lanes have found since the port's last window (R113) -/
  winCorr : Nat := 0
  winBad : Nat := 0
  /-- tick of the last link failure (R115) -/
  failAt : Nat := 0
  /-- remote fault sequences sent (R81) -/
  faults : Nat := 0
deriving DecidableEq, Repr

/-! ### Dysum -/

/-- A long command that holds its ring until it completes (R424): its interface, opcode, tag and object, and the kind and
number of the work that completes it. -/
structure Hold where
  via : Via
  opcode : Nat
  tag : Nat
  object : Nat
  kind : Nat
  ix : Nat
deriving DecidableEq, Repr

/-- A Dysum response as a management port caches it (R421, R423). -/
structure Rsp where
  opcode : Nat
  tag : Nat
  status : Nat
  state : Nat
  object : Nat
  detail : Nat
  result : Bytes
deriving DecidableEq, Repr

/-- A management Ethernet port (R422, R423): the last SEQ carried out (none before the first datagram), the datagram in hand (SEQ, commands still to come,
responses so far), datagrams that wait for an earlier SEQ (SEQ, commands), and the cache of the last 64 responses. -/
structure EthX where
  lastSeq : Option Nat := none
  cur : Option (Nat × Nat × List Rsp) := none
  waiting : PMap Nat := []
  cache : List (Nat × List Rsp) := []
deriving DecidableEq, Repr

/-- The Dysum processor (R420 to R424). -/
structure DysSt where
  /-- PHASE of the next response of a ring, inverted (R421) -/
  phase : PMap Bool := []
  eth : PMap EthX := []
  holds : List Hold := []
deriving DecidableEq, Repr
/-! ### Packets -/

/-- The metadata of R156 and the telemetry metadata that the program sets (R305). -/
structure Meta where
  egressPort : Nat := 0x3FF
  queue : Nat := 0
  mcastGroup : Nat := 0
  pg : Nat := 0
  colour : Nat := 0
  ecnCap : Bool := false
  drop : Bool := false
  dropReason : Nat := 0
  group : Nat := 0xFFF
  groupHash : Nat := 0
  trapReason : Nat := 0
  /-- 0 none, 1 redirect, 2 copy -/
  trapMode : Nat := 0
  mirror : Nat := 0
  atoll : Bool := false
  session : Nat := 0
  telFlags : Nat := 0
  parseFail : Nat := 0xF
  badFrame : Bool := false
  egressMeta : Nat := 0
  flowKey : Nat := 0
  /-- timestamp action and offset that the TX descriptor of a direct frame gives (R351) -/
  hostPtp : Option (Nat × Nat) := none
deriving DecidableEq, Repr

/-- A header of a header vector, in frame order (R117, R118): its instance, none for bytes that no state extracts; the bytes that the
instance holds; and the rest of a header longer than 64 B. -/
structure Hdr where
  inst : Option Nat
  data : Bytes
  rest : Bytes := []
deriving DecidableEq, Repr

/-- A frame with its parse and scan results (R117, R126). -/
structure RxFrame where
  /-- the port on which it arrived, or stands for (R42) -/
  port : Nat
  /-- written by host software -/
  host : Bool
  data : Bytes
  /-- error flag of R94 -/
  bad : Bool
  /-- ING_TS in domain A -/
  ts : Nat
  /-- receive timestamp in domain B, and in sixteenths of a tick of LIGHT_TICKS (R337) -/
  tsB : Nat
  t16 : Nat
  /-- tick at which its first byte reached the MAC -/
  begun : Nat
  /-- header vector -/
  hdrs : List Hdr
  /-- offset at which parsing stopped -/
  payOff : Nat
  /-- PARSE_FAIL -/
  pfail : Nat
  ppeCount : Nat := 0
  ppeGroups : Nat := 0
  ppeFirst : List Nat := []
  /-- tick at which its FCS check was complete (R138) -/
  ready : Nat := 0
deriving DecidableEq, Repr

/-- A packet inside a pipeline, its pass worked out at issue. -/
structure Flight where
  rx : RxFrame
  md : Meta
  /-- RECIRC count -/
  passes : Nat
  /-- marked for recirculation: an issue slot is reserved (R141) -/
  marked : Bool
  /-- dropped by a stage: the reserved slot stays empty -/
  dead : Bool
  /-- hardware drop code of a stage, 0 for none -/
  hw : Nat := 0
  /-- the header vector, and the words that its program has written (R140) -/
  hv : List Hdr := []
  words : PMap Nat := []
  /-- in an egress pipeline: its port, its queue's depth at enqueue, RES_TIME (R305) -/
  outPort : Nat := 0x3FF
  depth : Nat := 0
  resTime : Nat := 0
  /-- the timestamp action and the trace option that the egress program asks for (R316, R351) -/
  stamp : Option (Nat × Src) := none
  trace : Option TraceSrc := none
deriving DecidableEq, Repr

/-- The present core clock of a pipeline's issue stage. -/
structure IssueClk where
  /-- slots taken in this clock -/
  used : Nat := 0
  /-- slot 0 is lost to a slip of the clock before (R150) -/
  hazard : Bool := false
  /-- stateful ALU entries (stage, ALU, entry) that the packet in slot 0 names -/
  acc : List (Nat × Nat × Nat) := []
  /-- the same of a packet that slips into the next clock -/
  slip : Option (List (Nat × Nat × Nat)) := none
  /-- clocks since reset, modulo 16 (R368) -/
  phase : Nat := 0
  /-- clocks since reset, and the clocks of the slots that marks have reserved (R141) -/
  clock : Nat := 0
  reserved : List Nat := []
  /-- clocks that shared-table stalls still take (R146) -/
  stall : Nat := 0
  /-- the core clock of the device in which the pipeline last issued, and every entry that its packets named in that clock (R168) -/
  idx : Nat := 0
  named : List (Nat × Nat × Nat) := []
deriving DecidableEq, Repr

/-- The account that paid for a packet's cells (R178). -/
inductive Acct where
  | none
  | pgMin (p g : Nat)
  | qMin (q : Nat)
  /-- shared pool, with the ingress account that is charged, if any -/
  | shared (pg : Option (Nat × Nat))
  | headroom (p g : Nat)
deriving DecidableEq, Repr

/-- A packet that admission has stored (R172). -/
structure Pkt where
  data : Bytes
  md : Meta
  /-- 0x3FF for a packet without an ingress port -/
  inPort : Nat
  host : Bool
  ts : Nat
  tsB : Nat
  t16 : Nat
  half : Nat
  /-- the addresses of the cells that it holds, in the order of their links (R172, R173) -/
  cells : List Nat
  acct : Acct
  /-- reference count (R190) -/
  refs : Nat
  ce : Bool
  /-- passed the deep buffer (R200) -/
  deep : Bool
  /-- admission time in units of 39.0625 ps (R305) -/
  admitted : Nat
  /-- domain A time of the admission, in ticks (R200) -/
  timeA : Nat := 0
  /-- an uncorrectable cell has been found (R191) -/
  bad : Bool
  payOff : Nat
  /-- addresses of the cells read back from HBM, in order, and their half (R203) -/
  back : List Nat := []
  backHalf : Nat := 0
  /-- read-back cells that are crossing to the half of a new queue (R206) -/
  moving : Nat := 0
  /-- frames of single members where the copies of a packet differ (R43): queue key and frame, in queue order -/
  own : List (Nat × Bytes) := []
deriving DecidableEq, Repr

/-- A descriptor in a queue: the packet and the depth found at its enqueue. -/
structure QEnt where
  pkt : Nat
  depth : Nat
deriving DecidableEq, Repr

/-- A packet that has been dequeued: in the egress pipeline, then at the MAC. -/
structure TxFrame where
  port : Nat
  /-- queue key: unicast q, multicast 8,192 + m -/
  queue : Nat
  pkt : Nat
  data : Bytes
  md : Meta
  inPort : Nat
  ts : Nat
  t16 : Nat
  depth : Nat
  resTime : Nat
  deep : Bool
  ce : Bool
  ioam : Bool
  /-- cells still to be read across the Causeway -/
  owed : Nat
  /-- the cells that its transmission reads (R174) -/
  cells : List Nat := []
  /-- what its program has done to it (R140, R316, R351) -/
  work : EgressWork := { rewrite := none, ioam := none, ptp := none }
  /-- a trap of its egress pass: the reason, and whether it only copies (R134) -/
  trap : Option (Nat × Bool) := none
  /-- offset of the transit delay that the MAC writes, if any (R317) -/
  delayAt : Option Nat
  /-- timestamp action and offset of the PTP header (R351) -/
  ptp : Option (Nat × Nat)
  /-- drop code that the egress program or a stage gave it -/
  dropCode : Option Nat := none
  /-- tick at which an egress fence stopped it (R166) -/
  heldAt : Option Nat := none
deriving DecidableEq, Repr

/-- A descriptor that waits for its cells to land, or for an earlier one of its stream (R33). A stream is a source pipeline with an
egress queue, so that a multicast packet has one descriptor for each member queue. -/
structure HeldDesc where
  stream : Nat
  pkt : Nat
  queue : Nat
  /-- cells still to land -/
  cells : Nat
  /-- the descriptor has crossed -/
  here : Bool
deriving DecidableEq, Repr

/-! ### Causeway -/

/-- A frame that an ingress pipeline hands to an Atoll engine (R284): its arrival, its session and its UDP payload. -/
structure AtlIn where
  port : Nat
  host : Bool
  sess : Nat
  /-- pipeline that hands it over -/
  src : Nat
  frame : Bytes
  md : Meta
  ts : Nat
  /-- header and payload of R280 -/
  data : Bytes
  /-- pool buffer that holds a contribution beyond the input queue of its engine (R298) -/
  buf : Option Nat := none
deriving DecidableEq, Repr

/-- What a flit carries (R27). IDLE flits carry nothing, and the content of CTRL flits arrives by the commands CELL_GRANT,
FLIT_ACK_RECEIVE, FLIT_NACK_RECEIVE, CREDIT_RETURN and WIRE_SWAP_DONE. -/
inductive Body where
  /-- cell `k` of a packet -/
  | cellWr (pkt k : Nat)
  /-- cell `k` of a frame from the host that is bound for an ingress pipeline of the south die (R42) -/
  | hostWr (id k : Nat)
  /-- up to 32 cell reads of a packet from cell `first` on, for egress pipeline `client`, or 160 + q for the gatherer of queue q -/
  | rdq (client pkt first cells : Nat)
  /-- cell `k` as read data, on the bundle of its request -/
  | rdd (b client pkt k : Nat)
  /-- up to 8 descriptors: packet and queue -/
  | desc (l : List (Nat × Nat))
  /-- part `k` of the operands that cross as number `id` -/
  | atoll (id k : Nat)
  | misc (data : Bytes)
deriving DecidableEq, Repr

/-- A frame from the host that crosses to an ingress pipeline of the south die (R42): its cells still to land, and the cells that it
fills. -/
structure HostCross where
  rx : RxFrame
  owed : Nat
  cells : List Nat
deriving DecidableEq, Repr

/-- A flit (R26). -/
structure Flit where
  seq : Nat
  body : Body
deriving DecidableEq, Repr

/-- One bundle of one direction (R28 to R32). -/
structure Bundle where
  /-- sender: next SEQ, unacknowledged flits oldest first, resends of the oldest in a row -/
  next : Nat := 0
  unacked : List Flit := []
  resends : Nat := 0
  /-- flits on the wires, oldest first -/
  wire : List Flit := []
  /-- receiver: SEQ expected, and whether it discards until that flit arrives -/
  expect : Nat := 0
  discarding : Bool := false
  /-- acknowledgements and the negative acknowledgement under way to the sender -/
  ack : Option Nat := none
  nack : Option Nat := none
  /-- addresses of the cells granted to it, in order (R27) -/
  grants : List Nat := []
  /-- flits that a retired bundle has handed over and that go ahead of anything new (R31) -/
  carry : List Body := []
  /-- a wire swap that waits for the replay to end, and the wire of the swap under way -/
  swapWait : Option Nat := none
  swapWire : Option Nat := none
  /-- tick at which RETRAIN or SWAP began -/
  since : Nat := 0
  /-- flits received, for CRC_EVERY of R458 -/
  count : Nat := 0
deriving DecidableEq, Repr

/-- The Causeway: bundles by 64 d + b, flits that wait for a bundle or a credit by direction and virtual channel,
credits used by bundle and channel, the next bundle in turn by direction, and by direction and bundle the bundle that
took over the streams of a retired one (R31). -/
structure Cway where
  bundles : PMap Bundle := []
  waiting : PMap (List Body) := []
  credits : PMap Nat := []
  turn : PMap Nat := []
  pins : PMap Nat := []
  /-- arbitration of CWAY_VC_WEIGHT: the tag of each virtual channel of a bundle, and its virtual time as channel 7 -/
  tags : PMap Nat := []
  /-- operands that cross (R43): parts still to land, and the operands; the number of the next -/
  atl : PMap (Nat × AtlIn) := []
  nextAtl : Nat := 0
  /-- bits of ATOLL payload beyond the ceiling of R35 by direction, and the tick up to which they have drained -/
  atlDebt : PMap Nat := []
  atlAt : PMap Nat := []
deriving DecidableEq, Repr

/-! ### The packet path -/

/-- Everything between a front port's receiver and its transmitter beside the registers. -/
structure Path where
  /-- MAC receive buffers, by pipeline 10 i + x -/
  rxq : PMap (List RxFrame) := []
  /-- packets in the ingress pipelines, by pipeline 10 i + x, oldest first -/
  pipes : PMap (List Flight) := []
  /-- issue stages, by pipeline -/
  clk : PMap IssueClk := []
  /-- packets that a drain fence holds, with the tick of their exit from stage 24, by pipeline (R167) -/
  fence : PMap (List (Nat × Flight)) := []
  /-- the Lagoon's packets, and the number of the next one -/
  pkts : PMap Pkt := []
  nextPkt : Nat := 0
  /-- last bank used by the allocator, by half -/
  lastBank : PMap Nat := []
  /-- cells of a bank by 34 h + b (R173): the first index that has never been given out, and the indices given back, oldest first -/
  cellNext : PMap Nat := []
  cellRing : PMap (List Nat) := []
  /-- frames from the host that cross to the south die, and the number of the next (R42) -/
  hostCross : PMap (Option HostCross) := []
  nextHost : Nat := 0
  /-- cells of each bank granted to the other die, by 34 h + b -/
  granted : PMap Nat := []
  /-- descriptors that wait for their cells -/
  held : List HeldDesc := []
  /-- queues, head first: unicast q, multicast 8,192 + m, CPU 9,216 + r -/
  queues : PMap (List QEnt) := []
  /-- admission time of the last packet dequeued from a queue (R267) -/
  lastOut : PMap Nat := []
  /-- egress pipelines by 10 i + x and transmit queues by port -/
  eg : PMap (List TxFrame) := []
  tx : PMap (List TxFrame) := []
  /-- host frames that wait for an issue slot, by pipeline 10 i + x, with their tick and whether the wait of R42 is over -/
  inject : PMap (List (Nat × Bool × RxFrame)) := []
  /-- EGR_THRESHOLD drops of a queue in the present α period, and periods in a row without a wish (R186) -/
  egrDrops : PMap Nat := []
  quiet : PMap Nat := []
  /-- ALPHA of a queue plus 1, as it stood before a write that waits for the next period boundary (R187) -/
  alphaWas : PMap Nat := []
  /-- advances of the ECN LFSR of a half: one for each admission decision (R188) -/
  lfsr : PMap Nat := []
  /-- ingress accounts 8 p + g that have been charged, and cells charged to a queue's egress minimum -/
  pgSeen : List Nat := []
  qMinUsed : PMap Nat := []
  cway : Cway := {}
deriving DecidableEq, Repr

/-- The traffic manager: tags and virtual times of WFQ (R251), working shaper values (R256), gate lists (R264). -/
structure TmSt where
  /-- tags of queues, groups (by group number) and ports -/
  tagQ : PMap Nat := []
  tagG : PMap Nat := []
  tagP : PMap Nat := []
  /-- virtual times by node and PRIO -/
  vG : PMap Nat := []
  vP : PMap Nat := []
  vA : PMap Nat := []
  vC : PMap Nat := []
  /-- working (RATE, BURST) of a shaper -/
  shape : PMap (Nat × Nat) := []
  /-- RATE (key 2 n) or BURST (key 2 n + 1) of shaper n before the writes of one time tick, with that tick plus 1 (R256) -/
  shapeWas : PMap (Nat × Nat) := []
  /-- level of the CPU shaper -/
  cpuLevel : Int := 0x4000 * 100
  /-- start of the operational gate list and of the pending one, in ns of domain A -/
  gateStart : PMap Nat := []
  gateNext : PMap (Option Nat) := []
  /-- children that held packets and were not eligible at the last decision of their node (R252): queue k, group 10,000 + g, port
  20,000 + p -/
  out : PMap Bool := []
deriving DecidableEq, Repr

/-! ### Tables, meters and pipeline swaps -/

/-- A table entry (R128). -/
structure ClsEntry where
  words : List Nat := []
  valid : Bool := false
deriving DecidableEq, Repr

/-- A meter (R157 to R161). Levels count in 1/12,800,000 B or 1/1,600,000,000 packet, so that one time tick adds the
rate itself. -/
structure Meter where
  /-- RFC 2698 -/
  twoRate : Bool := false
  aware : Bool := false
  packets : Bool := false
  cir : Nat := 0
  cbs : Nat := 0
  eir : Nat := 0
  ebs : Nat := 0
  lc : Nat := 0
  le : Nat := 0
  last : Nat := 0
  /-- the configuration word is lost: the meter passes every packet (R437) -/
  lost : Bool := false
deriving DecidableEq, Repr

/-- A hitless swap or retirement of one island and direction (R163 to R170). -/
structure PipeSwap where
  resv : Nat
  target : Nat
  retire : Bool
  /-- the program that the reserve receives -/
  progId : Nat
  /-- tables that its image adds, initial entries, and register tables marked INIT with their initial value (R169) -/
  tables : List TblLayout
  entries : List (Nat × Nat × List Nat) := []
  inits : List (Nat × Nat) := []
  /-- sizes of the tables that LOADING copies, and the tick at which the copies began (R165) -/
  copies : List Nat := []
  began : Nat := 0
  /-- tick at which the swap was accepted -/
  start : Nat
  /-- longest hold at the fence so far, in core clocks -/
  hold : Nat
deriving DecidableEq, Repr

/-- What images load into the islands, beside the registers. Pools are numbered 2 i + d. -/
structure MatSt where
  /-- table entries, by pool, table and index -/
  entries : PMap ClsEntry := []
  /-- tables that the layout defines, by pool and number -/
  tables : PMap (Option TblLayout) := []
  /-- the table of a pool that has a role, by pool and role (R152) -/
  roles : PMap Nat := []
  /-- register table entries, by pool and place, table and index: places 0 to 3 are the groups of eight lanes, 4 the pool as a whole, and
  5 more the new table that a swap brings (R145, R149, R169) -/
  regTab : PMap Nat := []
  /-- lookups that a block of a shared table serves in a core clock, by pool and table, block and clock (R146) -/
  served : PMap Nat := []
  /-- table-entry counters: packets and bytes (R323) -/
  counts : PMap (Nat × Nat) := []
  meters : PMap Meter := []
  /-- parse graph, program and PRS_VALUE reset values of a pipeline's image (R116, R140, R391) -/
  graphs : PMap (Option ParseGraph) := []
  progs : PMap (Option Program) := []
  values : PMap (List Nat) := []
  /-- ticks of the bank switches of an island, newest first (R127) -/
  flips : PMap (List Nat) := []
  /-- pattern sets by 2 i + bank -/
  patterns : PMap (List Pattern) := []
  /-- trap limiter levels in 10^−6 packet, by 64 i + r (R135) -/
  trapLevel : PMap Nat := []
  /-- tick of the last TRAP_LIMIT drop of an island -/
  trapQuiet : PMap (Option Nat) := []
  /-- swaps by 2 i + d -/
  swaps : PMap (Option PipeSwap) := []
deriving DecidableEq, Repr

/-! ### Telemetry -/

/-- An export frame that is being filled (R312). -/
structure ExpFrame where
  recs : List Bytes
  since : Nat
deriving DecidableEq, Repr

/-- A flow record (R318). -/
structure FlowRec where
  packets : Nat
  bytes : Nat
  first : Nat
  last : Nat
  maxLat : Nat
  outPort : Nat
  inPort : Nat
deriving DecidableEq, Repr

/-- A live flow record: its way in its bucket, and its values while the die caches it; else they stand in HBM (R319). -/
structure FlowSlot where
  way : Nat
  cached : Option FlowRec
deriving DecidableEq, Repr

/-- An update that a sent packet brings to its flow record (R318). -/
structure FlowUpd where
  key : Nat
  len : Nat
  time : Nat
  lat : Nat
  outPort : Nat
  inPort : Nat
deriving DecidableEq, Repr

/-- Telemetry beside its registers. -/
structure TelSt where
  /-- collector buckets in 10^−6 record (R312) -/
  tokens : PMap Nat := []
  /-- records lost since the previous frame, and SEQ, by collector -/
  lost : PMap Nat := []
  seq : PMap Nat := []
  /-- frames being filled, by collector and TYPE, oldest first -/
  frames : PMap (List ExpFrame) := []
  /-- live flow records by die and key; the keys of a die's cache, the last used first; and its updates that wait for a fetch (R319) -/
  flows : PMap (Option FlowSlot) := []
  recent : PMap (List Nat) := []
  flowQ : PMap (List FlowUpd) := []
  /-- samples of R326 that wait for their limiter: pipeline 10 i + x, ring, frame and metadata -/
  samples : List (Nat × Nat × RxFrame × Meta) := []
deriving DecidableEq, Repr

/-! ### Deep buffer and buffer pools -/

/-- A deep page (R200): its place in the queue's run, the cells of each packet in it, and the packets that begin in it. -/
structure Page where
  handle : Nat
  seq : Nat
  parts : List (Nat × Nat)
  begins : List Nat
  /-- cells of its first packet that stand in earlier pages -/
  start : Nat := 0
  /-- where its list entry stands: the list block with its copy, and the entry; and the block before, when this is the first entry of
  its block (R202) -/
  place : Option (Nat × Nat × Nat) := none
  prev : Option (Nat × Nat) := none
  /-- 0 open, 1 being written, 2 in HBM, 3 being read back, 4 landed, 5 delivered -/
  stage : Nat
  /-- tick of the page read -/
  since : Nat
deriving DecidableEq, Repr

/-- A queue's deep run (R197 to R205): its pages in list order and the handles of its list blocks, each with its copy. -/
structure DeepQ where
  pages : List Page := []
  seq : Nat := 0
  entries : Nat := 0
  blocks : List (Nat × Nat) := []
  /-- packets that wait in the Lagoon for a page, and the packet whose gathering has stopped for want of one, with the cells left -/
  waiting : List Nat := []
  part : Option (Nat × Nat) := none
  /-- cells of a spilled packet that are still to be read across the Causeway -/
  owed : PMap Nat := []
deriving DecidableEq, Repr

/-- The META entry of a buffer (R211). -/
structure BufEnt where
  count : Nat := 0
  owner : Nat := 0
  domain : Nat := 0
  gen : Nat := 0
  /-- marked for retirement (R242) -/
  retire : Bool := false
deriving DecidableEq, Repr

/-- The deep-buffer engines and the buffer pool manager. -/
structure BpmSt where
  deep : PMap DeepQ := []
  /-- pre-allocated pages of a die's deep engine -/
  stock : PMap (List Nat) := []
  /-- buffers of each pool on each stack, by 8 s + k, as the image's partition gives them -/
  size : PMap Nat := []
  /-- first index that the free ring has not yet given out, and indices given back, oldest first -/
  next : PMap Nat := []
  ring : PMap (List Nat) := []
  /-- on-chip caches: handles by die, pool and part (0 LOCAL, 1 ALL) -/
  cache : PMap (List Nat) := []
  /-- stack from which part ALL is refilled next -/
  turn : PMap Nat := []
  ents : PMap BufEnt := []
deriving DecidableEq, Repr

/-! ### HBM -/

/-- A request at a memory controller (R219). -/
structure McReq where
  id : Nat
  /-- first line of the stack -/
  line : Nat
  lines : Nat
  write : Bool
  data : Bytes
  /-- offset of the data in its first line, and its length in bytes -/
  off : Nat
  len : Nat
  rt : Bool
  arrive : Nat
  client : Nat
  /-- lines already served -/
  served : Nat
deriving DecidableEq, Repr

/-- A timing-set change (R236): pending until its self-refresh entry commits, then in progress. -/
structure Tset where
  target : Nat
  committed : Bool
  /-- the controller is entering self-refresh for it -/
  entering : Bool
  aborts : Nat
  since : Nat
deriving DecidableEq, Repr

/-- One memory controller beside its registers. -/
structure McSt where
  reqs : List McReq := []
  next : Nat := 0
  /-- pseudo-channels in a write batch (R223) -/
  batch : PMap Bool := []
  /-- open row of a bank, by 16 ch + bank, with the tick of its last access -/
  rows : PMap (Option (Nat × Nat)) := []
  /-- row last closed by the idle timer and its tick -/
  closed : PMap (Option (Nat × Nat)) := []
  lateHits : PMap Nat := []
  conflicts : PMap Nat := []
  /-- refresh of a bank that waits for the next boundary of a real-time burst -/
  change : Option Tset := none
  nextSet : Option Nat := none
  /-- idle self-refresh: 0 none, 1 entering, 2 in self-refresh -/
  sr : Nat := 0
  lastReq : Nat := 0
  lastEntry : Nat := 0
  /-- ticks of the corrected errors of a block within 24 hours, newest first (R242) -/
  blockCe : PMap (List Nat) := []
  poison : PMap Bool := []
  /-- sparing copy in progress: logical channel, next line of it -/
  copy : Option (Nat × Nat) := none
  trainTemp : PMap Nat := []
  trackTemp : Nat := 0
  trackAt : Nat := 0
  scrubAt : Nat := 0
deriving DecidableEq, Repr

/-! ### Atoll -/

/-- An open chunk (R286 to R293). -/
structure Chunk where
  opseq : Nat
  chunk : Nat
  count : Nat
  last : Bool
  /-- members that have contributed -/
  from_ : List Nat
  /-- exact sums, or the values of the other operations -/
  acc : List Int
  /-- special codes (R276) -/
  code : List Nat
  opened : Nat
  deadline : Nat
  /-- NACK intervals already served -/
  nacks : Nat
  /-- the partial has gone up, and the chunk waits for the PARENT's RESULT (R292) -/
  sentUp : Bool
  /-- every contributor has contributed, and the result waits to be sent -/
  done : Bool
  /-- the bits of the PARENT's RESULT -/
  down : Option Bytes
  /-- 4 KiB pages of scratch, or none when a pool buffer holds the state -/
  pages : Nat
  buffer : Option Nat
  lastTick : Nat
  /-- lead of the last contribution over the one before, in ticks -/
  lead : Nat
deriving DecidableEq, Repr

/-- A staged result (R290): OPSEQ, CHUNK, COUNT, ARG, FLAGS and payload; `up` tells a partial sent to the PARENT. -/
structure Staged where
  opseq : Nat
  chunk : Nat
  count : Nat
  arg : Nat
  flags : Nat
  up : Bool
  data : Bytes
deriving DecidableEq, Repr

/-- A session beside its registers. -/
structure Sess where
  chunks : List Chunk := []
  stage : List Staged := []
  /-- tick of the last HOLD_OFF of each member -/
  holdOff : PMap (Option Nat) := []
  /-- tick of the last notice sent -/
  sentAt : Option Nat := none
  /-- JOB of the newest contribution (R280) -/
  job : Nat := 0
  reserved : Nat := 0
  /-- OPSEQ and CHUNK of the results that have left the stage -/
  released : List (Nat × Nat) := []
deriving DecidableEq, Repr

/-- Atoll beside its registers. -/
structure AtlSt where
  /-- sessions that are not IDLE -/
  live : List Nat := []
  sess : PMap Sess := []
  /-- frames handed to the engines and not yet taken, oldest first -/
  inq : List AtlIn := []
  /-- free pages of scratch by die -/
  scratch : PMap Nat := []

  /-- members whose contribution came last: session, member, lead (R295) -/
  reports : List (Nat × Nat × Nat) := []
  capped : Bool := false
deriving DecidableEq, Repr

/-! ### Reliability -/

/-- An ageing monitor (R448): its present value, the values of the last days, newest first, the largest value and hours in
service. -/
structure AgeMon where
  now : Nat := 0
  days : List Nat := []
  largest : Nat := 0
  hours : Nat := 0
deriving DecidableEq, Repr

/-- A Tidemark edge between its tick n and its latch at tick n + 8 (R453, R454): the sources, the SEQ of the triggering event, and
whether a source drives TIDEMARK_OUT (R455). -/
structure TmEdge where
  at_ : Nat
  sources : Nat
  logSeq : Nat
  out : Bool
deriving DecidableEq, Repr

/-- Reliability beside its registers. -/
structure RasSt where
  /-- corrected errors of a resource in the present window (R446), by kind and object -/
  rate : PMap Nat := []
  /-- ticks of the uncorrectable cells of a bank (R444) -/
  bankUe : PMap (List Nat) := []
  /-- tick at which a pending request was entered, by slot -/
  reqAt : PMap Nat := []
  ages : PMap AgeMon := []
  /-- rows and columns mapped by soft repair: macro and spare (R447) -/
  repairs : List (Nat × Nat) := []
  /-- the resource whose RETURN test runs, as OBJECT of R450 (R451) -/
  returning : Option Nat := none
  /-- the Tidemark edge that has not latched yet (R454) -/
  edge : Option TmEdge := none
  /-- the tick at which TIDEMARK_OUT falls (R455) -/
  tmOut : Option Nat := none
deriving DecidableEq, Repr

/-! ### Boot -/

/-- The boot ROM beside its registers (R400 to R410). -/
structure BootSt where
  /-- the XH9 holds itself in power-up reset (R489) -/
  powerHeld : Bool := false
  /-- tick at which the present stage began -/
  since : Nat := 0
  /-- source that is being tried, coded as BOOT_STATUS.USED -/
  source : Nat := 0
  /-- the PCIe fetch waits for its GO -/
  waitGo : Bool := false
  /-- the image that has been fetched -/
  image : Option Image := none
  running : Option Image := none
  /-- the staged partial image, and whether its swap has been accepted (R407, R408) -/
  staged : Option Image := none
  swapping : Bool := false
  /-- islands whose inactive PPE bank the staged table-set image still loads -/
  loading : List Nat := []
deriving DecidableEq, Repr

/-! ### Clocks, power and Ferry -/

/-- A best that a Ferry link has announced (R381): PRIO, SERIAL, HOPS and the tick of the last ANNOUNCE that carried it. -/
structure FerryBest where
  prio : Nat
  serial : Nat
  hops : Nat
  total : Nat
  at_ : Nat
deriving DecidableEq, Repr

/-- What the coordinator knows of a member (R383). -/
structure FerryMember where
  cap : Nat
  power : Nat
  floor : Nat
  ceil : Nat
  /-- tick of its last REPORT -/
  at_ : Nat
  /-- sum of the leads that name it, and whether a LAG of it arrived, in this period -/
  late : Nat
  lag : Bool
  /-- the cap granted to it -/
  grant : Nat
deriving DecidableEq, Repr

/-- The power manager beside its registers. -/
structure PwrSt where
  /-- domains in the order of the yield steps they have taken under R366, newest first -/
  yields : List Nat := []
  /-- issue duty of the current limit, in sixteenths -/
  dutyLimit : Nat := 16
  /-- steps of the thermal throttle beyond the domains' yields, newest first: false a duty step, true a divider step (R377) -/
  thermSteps : List Bool := []
  /-- yield steps that the thermal throttle has taken -/
  thermYield : Nat := 0
  /-- tick since which power has stayed below the cap less CAP_HYST -/
  under : Option Nat := none
  /-- tick since which the conditions of R371 have held -/
  boostFrom : Option Nat := none
  /-- VCORE target in mV, and the tick at which it was raised for a pending faster code -/
  target : Nat := 720
  raisedAt : Nat := 0
  /-- ticks of the present stretch's start and of the last detector that fired -/
  stretchAt : Nat := 0
  droopAt : Option Nat := none
  /-- tick of the last trigger of the current limit -/
  limitAt : Nat := 0
  /-- the last trim or target asked for a voltage beyond a bound (R373) -/
  voltBeyond : Bool := false
  /-- tick at which PWRFAIL_N or VR_ALERT_N was last asserted -/
  failAt : Nat := 0
  /-- control intervals, modulo 8, for the duty of forced XOFF -/
  phase : Nat := 0
  /-- a PLL in RELOCKING: since when, and whether after a takeover (R364) -/
  relock : PMap (Option (Nat × Bool)) := []
  /-- the applied grant: cap, SEQ and tick (R384) -/
  grant : Option (Nat × Nat × Nat) := none
  /-- a GRANT that waits for the next control interval: cap and SEQ -/
  grantNext : Option (Nat × Nat) := none
  /-- Ferry: bests by link port and pair, SEQ by TYPE, members by serial, members of the last grant, what the coordinator has seen
  (serial, TYPE, SEQ) -/
  bests : PMap FerryBest := []
  seqs : PMap Nat := []
  members : PMap FerryMember := []
  granted : List Nat := []
  seen : List (Nat × Nat × Nat) := []
deriving DecidableEq, Repr

/-! ### Keep -/

/-- The content of a saved section: register values by their keys, the spare map, the ageing monitors, soft repairs, the snapshot,
error events, and of section 1 the time (seconds, nanoseconds, fraction, ADJ). -/
structure KeepSec where
  regs : PMap Nat := []
  map : PMap Nat := []
  /-- the 32 bytes of each partner entry that the store holds, by port (R107) -/
  partners : PMap Bytes := []
  ages : PMap AgeMon := []
  repairs : List (Nat × Nat) := []
  snap : Option Snap := none
  events : List LogEntry := []
  time : Option (Nat × Nat × Nat × Nat) := none
deriving DecidableEq, Repr

/-- A slot of the MRAM store (R386, R387): SEQ, trigger (0 PWRFAIL_N, 1 VKEEP, 2 thermal trip, 3 TEST_SAVE), domain A time at the
trigger, and the sections whose CRC is good. -/
structure KeepSlot where
  seq : Nat
  trigger : Nat
  sec : Nat
  ns : Nat
  secs : PMap KeepSec
deriving DecidableEq, Repr

/-- The Keep domain (R386 to R389, R404). The store survives every reset. -/
structure KeepSt where
  slots : PMap (Option KeepSlot) := []
  /-- slot of the next save, LAST and SLOT of the last one, saves so far, and SEQ of the last complete save -/
  next : Nat := 0
  last : Nat := 0
  lastSlot : Nat := 0
  seq : Nat := 0
  seqComplete : Nat := 0
  /-- the save that runs, with the shadow as it stood at its start, and the tick of its start -/
  save : Option KeepSlot := none
  saveAt : Nat := 0
  /-- shadow of sections 1 and 3 -/
  time : Option (Nat × Nat × Nat × Nat) := none
  wear : Option KeepSec := none
deriving DecidableEq, Repr

/-! ### Harbour and the TAP -/

/-- Harbour and the test access port beside their registers. -/
structure HarbSt where
  /-- frames written to an RX ring since it was enabled (SEQ of R416), frames that wait for the vector, tick of the first -/
  seq : PMap Nat := []
  waiting : PMap Nat := []
  since : PMap Nat := []
  /-- TAP instruction (IDCODE after TAP reset) and preloaded boundary data (R460) -/
  tapIr : Nat := 0x01
  boundary : Bytes := []
deriving DecidableEq, Repr

end Sys2Proof.Machine
end

