-- ==== Sys2Proof/Machine/State.lean ====
section
/-! DEFINITION. The state of the XH9: every register of the address map in one register file, and the state that the
rules give each block beside its registers. Plain data throughout. -/

namespace Sys2Proof.Machine


/-! ### What leaves the device -/

/-- What leaves the device: messages, frames, host memory writes, read data and pin edges. DESIGN CHOICE: log entries 11, 136, 142. -/
inductive Out where
  /-- an MSI-X message of vector `vector` of `owner` (0 PF0) -/
  | msix (owner vector : Nat)
  /-- the data that a register read returns to its requester -/
  | readData (q : Requester) (addr size value : Nat)
  /-- a write to host memory by DMA in the name of function `owner` -/
  | hostWrite (owner addr : Nat) (data : Bytes)
  /-- a Dysum response on I2C (R421) -/
  | dysRsp (r : Rsp)
  /-- the response datagram of a management port (R422) -/
  | dysDatagram (e seq : Nat) (rsps : List Rsp)
  /-- a frame on a front port, FCS included -/
  | frame (port : Nat) (data : Bytes)
  /-- a frame on a front port that breaks off in an error block (R174): the octets that have left -/
  | frameCut (port : Nat) (data : Bytes)
  /-- a lane-management ordered set on a lane (R68) -/
  | lmos (lane : Nat) (block : Bits)
  /-- a training frame on a Strait lane (R59, R60) -/
  | training (lane : Nat) (symbols : List Nat)
  /-- the answer to a training frame on a CR or KR lane: 0 not updated, 1 updated, 2 at limit, 3 not supported (R52, R81) -/
  | trainAnswer (lane answer : Nat)
  /-- the page that a port advertises in negotiation: lane MODE, WIDTH, FEC, PMD and pause ability (R82) -/
  | anPage (port mode width fec pmd : Nat) (pause : Bool)
  /-- remote fault sequences start on an Ethernet port (R81) -/
  | remoteFault (port : Nat)
  /-- a codeword on a Strait lane, in level pairs (R48, R88) -/
  | codeword (lane : Nat) (l : List (Nat × Nat))
  /-- wake bursts on every lane of a port (R65) -/
  | wakeBurst (port : Nat) (symbols : List Nat)
  /-- a new target in the frames to the VCORE regulator (R487) -/
  | vr (frame : Nat)
  /-- a pin takes a level -/
  | pin (p : Pin) (level : Bool)
  /-- lines that a memory controller returns to a client: stack, client, offset, data, and offsets of poisoned lines -/
  | mcData (stack client off : Nat) (data : Bytes) (poisoned : List Nat)
  /-- bits shifted out at TDO -/
  | tdo (data : Bytes)
deriving DecidableEq, Repr

/-- The whole state of the XH9. DESIGN CHOICE: log entries 137, 142, 163. -/
structure State where
  /-- the commands that wait, first in first out -/
  pending : List Instr := []
  /-- the register file, keyed by `Fld.key`; an unlisted field reads its reset value -/
  regs : PMap Nat := []
  /-- the latch of R466, by requester -/
  latch : PMap (Option Latched) := []
  /-- the held low words of R467, by requester -/
  held : PMap (Option HeldLow) := []
  /-- what has left the device, newest first (the model's own record of its outputs) -/
  out : List Out := []
  /-- the model's own counter of free values -/
  free : Nat := 0
  /-- MSI-X vectors that host software has unmasked, and the pending bits, by owner and vector (R479) -/
  msixOn : PMap Bool := []
  msixPend : PMap Bool := []
  /-- fuses and straps -/
  fuses : Fuses := {}
  /-- time domains (R334) -/
  domA : Dom := {}
  domB : Dom := {}
  /-- TX timestamp FIFOs by island, oldest entry first (R353), and the words latched by the last pop (R355) -/
  tsf : PMap (List TsfEntry) := []
  tsfLatch : PMap (Nat × Nat) := []
  /-- ports with a lost capture since their last entry (R354) -/
  tsGap : PMap Bool := []
  /-- tick of the last accepted PPS_IN edge, and whether its timestamps are still unread (R357) -/
  ppsLast : Option Nat := none
  ppsUnread : Bool := false
  /-- the instant of the armed Tidemark compare (LIGHT_TM_CMP) -/
  cmpAt : Option (Nat × Nat) := none
  /-- error log, newest first (R441) -/
  log : List LogEntry := []
  /-- the first FATAL event (RAS_FATAL_FIRST) and the stop of R438 -/
  fatalFirst : Option LogEntry := none
  fatalStop : Bool := false
  /-- forwarding stopped by a JTAG instruction (R461) or the thermal trip (R378) -/
  scanStop : Bool := false
  thermTrip : Bool := false
  /-- tick of the last accepted Tidemark edge and the last snapshot (R453, R456) -/
  tmLast : Option Nat := none
  snap : Option Snap := none
  /-- the dump that is being written, edges missed and steps since the last one, histogram counts since the last one -/
  dump : Option DumpRec := none
  dumpMissed : Bool := false
  dumpStep : Bool := false
  dumpFrom : Nat := 0
  histDump : PMap Nat := []
  /-- the Dysum processor -/
  dys : DysSt := {}
  /-- the spare map (R444, R452): what it records of resource `id` of kind `k`, keyed by `k` and `id` -/
  spareMap : PMap Nat := []
  /-- lanes and ports beside their registers -/
  laneX : PMap LaneX := []
  portX : PMap PortX := []
  /-- device lane of logical lane k (k 0–7) and of the hot spare (k 8, 544 for none) of port p, where a swap has changed
  what PORT_CFG gives (R70); keyed by port and k -/
  laneMap : PMap (Option Nat) := []
  /-- swaps in progress, by port (R70) -/
  swaps : PMap (Option Swap) := []
  /-- lane-management messages that await an answer, by the lane that sent them (R69) -/
  lmosWait : PMap (Option Lmos) := []
  /-- tick at which a received pause ends, by port and priority (R99, R259) -/
  pauseEnd : PMap Nat := []
  /-- ticks at which periodic work last ran, by kind and object -/
  timers : PMap Nat := []
  /-- HBM contents by byte address: stack × 2^35 + offset; an unlisted byte reads 0 -/
  hbm : PMap Byte := []
  /-- everything between a front port's receiver and its transmitter -/
  path : Path := {}
  /-- the traffic manager -/
  tm : TmSt := {}
  /-- parsers, tables, patterns and pipelines -/
  mat : MatSt := {}
  /-- telemetry -/
  tel : TelSt := {}
  /-- the deep buffer and the buffer pools -/
  bpm : BpmSt := {}
  /-- the memory controllers, by stack -/
  mc : PMap McSt := []
  /-- Atoll -/
  atl : AtlSt := {}
  /-- reliability and sparing -/
  ras : RasSt := {}
  /-- the boot ROM -/
  boot : BootSt := {}
  /-- clocks, power and Ferry -/
  pwr : PwrSt := {}
  /-- the Keep domain -/
  keep : KeepSt := {}
  /-- Harbour and the test access port -/
  harb : HarbSt := {}
deriving DecidableEq, Repr

/-- The stops of the machine. The spec gives every command of the table an effect, so no meaning faults. -/
inductive Fault where
  /-- Raised by no meaning: the block has no stuck state that the spec leaves without an effect (safe). -/
  | none
deriving DecidableEq, Repr

/-- The refusals of the machine. -/
inductive Refusal where
  /-- The command has no meaning in this model (safe: nothing can be proved of it). -/
  | notModelled (mnemonic : String)
deriving DecidableEq, Repr

/-- What a command answers. -/
abbrev Result := Host.Outcome State Fault Refusal

/-- The machine right after a device reset (R469), in the boot stage FUSE (R403): every register at its reset value, every queue and table
empty. DESIGN CHOICE: log entries 14, 125. DEDUCED: log entry 141. -/
def State.reset : State := {}

end Sys2Proof.Machine
end

