-- ==== Sys2Proof/Machine/Fields.lean ====
section
/-! DEFINITION. The fields of every register, with the bits and the reset value that the register tables of spec/ give.
A field of a replicated register takes the flat instance number `k`: the outer index of the address expression times the
count of the inner index, plus the inner index (lane 34i + j, port 32i + p, pipeline 10i + x of the device, and so on).
A reset entry "Fuse", "Strap", "From the image" or "From Keep" reads 0 until it is set (R469). -/

namespace Sys2Proof.Machine

/-- Reset weights of the virtual channels (R27). -/
def cwayVcWeightReset (vc : Nat) : Nat := ([16, 64, 8, 64, 16, 4] : List Nat).getD vc 0

/-- Reset floors of the power domains in W (PWR_DOM_FLOOR). -/
def pwrDomFloorReset (d : Nat) : Nat := ([0x1C2, 0x0A0, 0x096] : List Nat).getD d 0

/-- Reset values of RAS_SPARE_THRESH (R446). -/
def rasThreshReset (t : Nat) : Nat := ([3, 64, 16, 16, 4096, 8, 800, 90] : List Nat).getD t 0

/-- Spares in total of each kind (R452). Kind 6 counts the spare rows and columns of the silicon, which the spec does not number. -/
def rasSpareTotal (k : Nat) : Nat :=
  match k with
  | 0 => 32 | 1 => 256 | 2 => 4 | 3 => 32 | 4 => 6 | 5 => 4 | 7 => 1
  | _ => Config.sramSpares % 65536

namespace F

def CHIP_ID_DEVICE : Fld := ⟨.CHIP_ID, 0, 16, 16, 2569⟩
def CHIP_ID_GRADE : Fld := ⟨.CHIP_ID, 0, 12, 4, 0⟩
def CHIP_ID_STEP_MAJOR : Fld := ⟨.CHIP_ID, 0, 8, 4, 11⟩
def CHIP_ID_STEP_MINOR : Fld := ⟨.CHIP_ID, 0, 4, 4, 1⟩
def CHIP_WDISCARD_ADDR_ADDR : Fld := ⟨.CHIP_WDISCARD_ADDR, 0, 0, 28, 0⟩
def CHIP_WDISCARD_STATE_STATE : Fld := ⟨.CHIP_WDISCARD_STATE, 0, 0, 8, 0⟩
def CHIP_WDISCARD_STATE_REASON : Fld := ⟨.CHIP_WDISCARD_STATE, 0, 8, 2, 0⟩
def CHIP_WDISCARD_STATE_SOURCE : Fld := ⟨.CHIP_WDISCARD_STATE, 0, 10, 3, 0⟩
def CHIP_WDISCARD_STATE_VF : Fld := ⟨.CHIP_WDISCARD_STATE, 0, 13, 5, 0⟩
def CHIP_WDISCARD_CNT_COUNT : Fld := ⟨.CHIP_WDISCARD_CNT, 0, 0, 32, 0⟩
def CHIP_INT_SUMMARY_BITS : Fld := ⟨.CHIP_INT_SUMMARY, 0, 0, 64, 0⟩
def CHIP_INT_ISL_BITS : Fld := ⟨.CHIP_INT_ISL, 0, 0, 64, 0⟩
def CHIP_VEC_MAP_VECTOR (k : Nat) : Fld := ⟨.CHIP_VEC_MAP, k, 0, 10, k⟩
def CHIP_INT_STATUS_BITS : Fld := ⟨.CHIP_INT_STATUS, 0, 0, 32, 0⟩
def CHIP_INT_MASK_BITS : Fld := ⟨.CHIP_INT_MASK, 0, 0, 32, 0⟩
def BOOT_STATUS_STAGE : Fld := ⟨.BOOT_STATUS, 0, 0, 4, 0⟩
def BOOT_STATUS_SRC : Fld := ⟨.BOOT_STATUS, 0, 4, 2, 0⟩
def BOOT_STATUS_USED : Fld := ⟨.BOOT_STATUS, 0, 6, 2, 0⟩
def BOOT_STATUS_ELAPSED : Fld := ⟨.BOOT_STATUS, 0, 16, 16, 0⟩
def BOOT_ERR_CODE : Fld := ⟨.BOOT_ERR, 0, 0, 4, 0⟩
def BOOT_ERR_SOURCE : Fld := ⟨.BOOT_ERR, 0, 4, 2, 0⟩
def BOOT_ERR_STAGED : Fld := ⟨.BOOT_ERR, 0, 6, 1, 0⟩
def BOOT_ERR_COUNT : Fld := ⟨.BOOT_ERR, 0, 16, 16, 0⟩
def BOOT_IMAGE_IMAGE_ID : Fld := ⟨.BOOT_IMAGE, 0, 0, 32, 0⟩
def BOOT_IMAGE_SVN_SVN : Fld := ⟨.BOOT_IMAGE_SVN, 0, 0, 32, 0⟩
def BOOT_STAGED_IMAGE_ID : Fld := ⟨.BOOT_STAGED, 0, 0, 32, 0⟩
def BOOT_KEY_STATUS_PROGRAMMED : Fld := ⟨.BOOT_KEY_STATUS, 0, 0, 4, 0⟩
def BOOT_KEY_STATUS_REVOKED : Fld := ⟨.BOOT_KEY_STATUS, 0, 4, 4, 0⟩
def BOOT_KEY_STATUS_SLOT_USED : Fld := ⟨.BOOT_KEY_STATUS, 0, 8, 2, 0⟩
def BOOT_KEY_STATUS_SVN_FLOOR : Fld := ⟨.BOOT_KEY_STATUS, 0, 16, 7, 0⟩
def BOOT_PCIE_ADDR_ADDR : Fld := ⟨.BOOT_PCIE_ADDR, 0, 0, 64, 0⟩
def BOOT_PCIE_LEN_LEN : Fld := ⟨.BOOT_PCIE_LEN, 0, 0, 27, 0⟩
def BOOT_PCIE_GO_GO : Fld := ⟨.BOOT_PCIE_GO, 0, 0, 1, 0⟩
def BOOT_KEY_DIGEST_WORD (k : Nat) : Fld := ⟨.BOOT_KEY_DIGEST, k, 0, 32, 0⟩
def BOOT_INT_STATUS_BITS : Fld := ⟨.BOOT_INT_STATUS, 0, 0, 32, 0⟩
def BOOT_INT_MASK_BITS : Fld := ⟨.BOOT_INT_MASK, 0, 0, 32, 0⟩
def CLK_CFG_REF_A : Fld := ⟨.CLK_CFG, 0, 0, 1, 0⟩
def CLK_CFG_REF_B : Fld := ⟨.CLK_CFG, 0, 1, 1, 1⟩
def CLK_CFG_SWITCH : Fld := ⟨.CLK_CFG, 0, 2, 1, 0⟩
def CLK_STATUS_A_STATE : Fld := ⟨.CLK_STATUS, 0, 0, 2, 0⟩
def CLK_STATUS_B_STATE : Fld := ⟨.CLK_STATUS, 0, 2, 2, 1⟩
def CLK_STATUS_REF0_OK : Fld := ⟨.CLK_STATUS, 0, 4, 1, 0⟩
def CLK_STATUS_REF1_OK : Fld := ⟨.CLK_STATUS, 0, 5, 1, 0⟩
def CLK_STATUS_ALIGNED : Fld := ⟨.CLK_STATUS, 0, 6, 1, 0⟩
def CLK_STATUS_TAKEOVERS : Fld := ⟨.CLK_STATUS, 0, 16, 16, 0⟩
def CLK_CORE_DIV : Fld := ⟨.CLK_CORE, 0, 0, 3, 1⟩
def CLK_CORE_STRETCH : Fld := ⟨.CLK_CORE, 0, 3, 1, 0⟩
def CLK_CORE_PENDING : Fld := ⟨.CLK_CORE, 0, 4, 3, 7⟩
def CLK_CORE_DEFERRED_BY_DROOP : Fld := ⟨.CLK_CORE, 0, 7, 1, 0⟩
def CLK_CORE_CHANGES : Fld := ⟨.CLK_CORE, 0, 16, 16, 0⟩
def CLK_INT_STATUS_BITS : Fld := ⟨.CLK_INT_STATUS, 0, 0, 32, 0⟩
def CLK_INT_MASK_BITS : Fld := ⟨.CLK_INT_MASK, 0, 0, 32, 0⟩
def PWR_CFG_MODE : Fld := ⟨.PWR_CFG, 0, 0, 1, 0⟩
def PWR_CFG_BOOST_EN : Fld := ⟨.PWR_CFG, 0, 1, 1, 0⟩
def PWR_CFG_SAVE : Fld := ⟨.PWR_CFG, 0, 2, 1, 0⟩
def PWR_CFG_FERRY_EN : Fld := ⟨.PWR_CFG, 0, 3, 1, 0⟩
def PWR_CFG_CAP_HYST : Fld := ⟨.PWR_CFG, 0, 8, 8, 20⟩
def PWR_PRIO_FIRST : Fld := ⟨.PWR_PRIO, 0, 0, 2, 2⟩
def PWR_PRIO_SECOND : Fld := ⟨.PWR_PRIO, 0, 2, 2, 1⟩
def PWR_PRIO_LAST : Fld := ⟨.PWR_PRIO, 0, 4, 2, 0⟩
def PWR_PRIO_PRIO_ERR : Fld := ⟨.PWR_PRIO, 0, 6, 1, 0⟩
def PWR_CAP_CAP : Fld := ⟨.PWR_CAP, 0, 0, 11, 1300⟩
def PWR_CAP_LIMIT_MIN : Fld := ⟨.PWR_CAP_LIMIT, 0, 0, 11, 700⟩
def PWR_CAP_LIMIT_MAX : Fld := ⟨.PWR_CAP_LIMIT, 0, 16, 11, 1600⟩
def PWR_FREQ_BOUND_FLOOR : Fld := ⟨.PWR_FREQ_BOUND, 0, 0, 3, 4⟩
def PWR_FREQ_BOUND_CEIL : Fld := ⟨.PWR_FREQ_BOUND, 0, 4, 3, 1⟩
def PWR_VOLT_BOUND_FLOOR : Fld := ⟨.PWR_VOLT_BOUND, 0, 0, 10, 600⟩
def PWR_VOLT_BOUND_CEIL : Fld := ⟨.PWR_VOLT_BOUND, 0, 16, 10, 850⟩
def PWR_IMAX_IMAX : Fld := ⟨.PWR_IMAX, 0, 0, 11, 0x3E8⟩
def PWR_DOM_FLOOR_FLOOR (k : Nat) : Fld := ⟨.PWR_DOM_FLOOR, k, 0, 11, (pwrDomFloorReset k)⟩
def PWR_STATUS_STATE : Fld := ⟨.PWR_STATUS, 0, 0, 3, 0⟩
def PWR_STATUS_CAP_UNMET : Fld := ⟨.PWR_STATUS, 0, 3, 1, 0⟩
def PWR_STATUS_FREQ_PINNED : Fld := ⟨.PWR_STATUS, 0, 4, 1, 0⟩
def PWR_STATUS_VOLT_PINNED : Fld := ⟨.PWR_STATUS, 0, 5, 1, 0⟩
def PWR_STATUS_THERM_THROTTLE : Fld := ⟨.PWR_STATUS, 0, 6, 1, 0⟩
def PWR_STATUS_ILIMIT : Fld := ⟨.PWR_STATUS, 0, 7, 1, 0⟩
def PWR_STATUS_HOLDING_OFF : Fld := ⟨.PWR_STATUS, 0, 8, 1, 0⟩
def PWR_STATUS_PWRFAIL : Fld := ⟨.PWR_STATUS, 0, 9, 1, 0⟩
def PWR_STATUS_DUTY : Fld := ⟨.PWR_STATUS, 0, 16, 5, 16⟩
def PWR_POWER_TOTAL : Fld := ⟨.PWR_POWER, 0, 0, 11, 0⟩
def PWR_POWER_VCORE : Fld := ⟨.PWR_POWER, 0, 16, 10, 0⟩
def PWR_CAP_EFF_CAP : Fld := ⟨.PWR_CAP_EFF, 0, 0, 11, 1300⟩
def PWR_CAP_EFF_SOURCE : Fld := ⟨.PWR_CAP_EFF, 0, 12, 1, 0⟩
def PWR_PINNED_CNT_FREQ : Fld := ⟨.PWR_PINNED_CNT, 0, 0, 16, 0⟩
def PWR_PINNED_CNT_VOLT : Fld := ⟨.PWR_PINNED_CNT, 0, 16, 16, 0⟩
def PWR_OVERRIDE_CNT_THERMAL : Fld := ⟨.PWR_OVERRIDE_CNT, 0, 0, 8, 0⟩
def PWR_OVERRIDE_CNT_ILIMIT : Fld := ⟨.PWR_OVERRIDE_CNT, 0, 8, 8, 0⟩
def PWR_OVERRIDE_CNT_DROOP : Fld := ⟨.PWR_OVERRIDE_CNT, 0, 16, 8, 0⟩
def PWR_OVERRIDE_CNT_PACKAGE : Fld := ⟨.PWR_OVERRIDE_CNT, 0, 24, 8, 0⟩
def PWR_DROOP_CFG_THRESH : Fld := ⟨.PWR_DROOP_CFG, 0, 0, 6, 40⟩
def PWR_DROOP_CFG_MIN_CYCLES : Fld := ⟨.PWR_DROOP_CFG, 0, 8, 10, 256⟩
def PWR_DROOP_CNT_COUNT : Fld := ⟨.PWR_DROOP_CNT, 0, 0, 32, 0⟩
def PWR_THERM_CFG_THROTTLE : Fld := ⟨.PWR_THERM_CFG, 0, 0, 8, 100⟩
def PWR_THERM_CFG_HYST : Fld := ⟨.PWR_THERM_CFG, 0, 8, 4, 3⟩
def PWR_THERM_STATUS_TJ : Fld := ⟨.PWR_THERM_STATUS, 0, 0, 8, 0⟩
def PWR_THERM_STATUS_SENSOR : Fld := ⟨.PWR_THERM_STATUS, 0, 8, 7, 0⟩
def PWR_DOM_STATUS_POWER (k : Nat) : Fld := ⟨.PWR_DOM_STATUS, k, 0, 11, 0⟩
def PWR_DOM_STATUS_STEPS (k : Nat) : Fld := ⟨.PWR_DOM_STATUS, k, 12, 4, 0⟩
def PWR_DOM_STATUS_AT_FLOOR (k : Nat) : Fld := ⟨.PWR_DOM_STATUS, k, 16, 1, 0⟩
def PWR_IDLE_EN_PORTS (k : Nat) : Fld := ⟨.PWR_IDLE_EN, k, 0, 32, 0⟩
def PWR_LINK_LIMIT_PORTS (k : Nat) : Fld := ⟨.PWR_LINK_LIMIT, k, 0, 32, 0⟩
def PWR_INT_STATUS_BITS : Fld := ⟨.PWR_INT_STATUS, 0, 0, 32, 0⟩
def PWR_INT_MASK_BITS : Fld := ⟨.PWR_INT_MASK, 0, 0, 32, 0⟩
def PWR_SENSOR_TEMP (k : Nat) : Fld := ⟨.PWR_SENSOR, k, 0, 8, 0⟩
def PWR_AGE_DELAY (k : Nat) : Fld := ⟨.PWR_AGE, k, 0, 16, 0⟩
def PWR_FERRY_CFG_ETYPE : Fld := ⟨.PWR_FERRY_CFG, 0, 0, 16, 0x88b5⟩
def PWR_FERRY_CFG_PRIO : Fld := ⟨.PWR_FERRY_CFG, 0, 16, 8, 128⟩
def PWR_FERRY_CFG_SOFT_COORD : Fld := ⟨.PWR_FERRY_CFG, 0, 24, 1, 0⟩
def PWR_FERRY_CFG_RING : Fld := ⟨.PWR_FERRY_CFG, 0, 25, 6, 0⟩
def PWR_FERRY_JOB_JOB : Fld := ⟨.PWR_FERRY_JOB, 0, 0, 32, 0⟩
def PWR_FERRY_CTL_PERIOD : Fld := ⟨.PWR_FERRY_CTL, 0, 0, 8, 1⟩
def PWR_FERRY_CTL_MOVES : Fld := ⟨.PWR_FERRY_CTL, 0, 8, 8, 8⟩
def PWR_FERRY_CTL_REVERT : Fld := ⟨.PWR_FERRY_CTL, 0, 16, 8, 10⟩
def PWR_FERRY_TOTAL_TOTAL : Fld := ⟨.PWR_FERRY_TOTAL, 0, 0, 16, 0⟩
def PWR_FERRY_STATUS_ROLE : Fld := ⟨.PWR_FERRY_STATUS, 0, 0, 2, 0⟩
def PWR_FERRY_STATUS_UP : Fld := ⟨.PWR_FERRY_STATUS, 0, 2, 10, 0x3FF⟩
def PWR_FERRY_STATUS_MEMBERS : Fld := ⟨.PWR_FERRY_STATUS, 0, 16, 10, 0⟩
def PWR_FERRY_COORD_SERIAL : Fld := ⟨.PWR_FERRY_COORD, 0, 0, 64, 0⟩
def FERRY_UNTRUSTED_COUNT : Fld := ⟨.FERRY_UNTRUSTED, 0, 0, 32, 0⟩
def FERRY_FOREIGN_COUNT : Fld := ⟨.FERRY_FOREIGN, 0, 0, 32, 0⟩
def PWR_FERRY_PORT_PORT (k : Nat) : Fld := ⟨.PWR_FERRY_PORT, k, 0, 10, 0⟩
def PWR_FERRY_PORT_VALID (k : Nat) : Fld := ⟨.PWR_FERRY_PORT, k, 31, 1, 0⟩
def KEEP_CFG_PWRFAIL_EN : Fld := ⟨.KEEP_CFG, 0, 0, 1, 1⟩
def KEEP_CFG_VKEEP_EN : Fld := ⟨.KEEP_CFG, 0, 1, 1, 1⟩
def KEEP_CFG_THERM_EN : Fld := ⟨.KEEP_CFG, 0, 2, 1, 1⟩
def KEEP_CFG_TEST_SAVE : Fld := ⟨.KEEP_CFG, 0, 3, 1, 0⟩
def KEEP_STATUS_LAST : Fld := ⟨.KEEP_STATUS, 0, 0, 2, 0⟩
def KEEP_STATUS_SLOT : Fld := ⟨.KEEP_STATUS, 0, 2, 4, 0⟩
def KEEP_STATUS_RESTORED : Fld := ⟨.KEEP_STATUS, 0, 8, 7, 0⟩
def KEEP_STATUS_VKEEP : Fld := ⟨.KEEP_STATUS, 0, 16, 12, 0⟩
def KEEP_SEQ_SEQ : Fld := ⟨.KEEP_SEQ, 0, 0, 32, 0⟩
def KEEP_SAVES_COMPLETE : Fld := ⟨.KEEP_SAVES, 0, 0, 16, 0⟩
def KEEP_SAVES_PARTIAL : Fld := ⟨.KEEP_SAVES, 0, 16, 16, 0⟩
def KEEP_INT_STATUS_BITS : Fld := ⟨.KEEP_INT_STATUS, 0, 0, 32, 0⟩
def KEEP_INT_MASK_BITS : Fld := ⟨.KEEP_INT_MASK, 0, 0, 32, 0⟩
def LIGHT_CTL_MODE (k : Nat) : Fld := ⟨.LIGHT_CTL, k, 0, 1, k⟩
def LIGHT_CTL_REQ (k : Nat) : Fld := ⟨.LIGHT_CTL, k, 1, 2, 0⟩
def LIGHT_CTL_SNAP (k : Nat) : Fld := ⟨.LIGHT_CTL, k, 3, 1, 0⟩
def LIGHT_CTL_B_FOLLOW (k : Nat) : Fld := ⟨.LIGHT_CTL, k, 4, 1, 0⟩
def LIGHT_CTL_SRC (k : Nat) : Fld := ⟨.LIGHT_CTL, k, 5, 2, 0⟩
def LIGHT_CTL_KICK (k : Nat) : Fld := ⟨.LIGHT_CTL, k, 7, 1, 0⟩
def LIGHT_CTL_WD_TIMEOUT (k : Nat) : Fld := ⟨.LIGHT_CTL, k, 8, 8, 20⟩
def LIGHT_STATUS_STATE (k : Nat) : Fld := ⟨.LIGHT_STATUS, k, 0, 2, 0⟩
def LIGHT_STATUS_FOLLOWING_B (k : Nat) : Fld := ⟨.LIGHT_STATUS, k, 2, 1, 0⟩
def LIGHT_STATUS_RESTORED (k : Nat) : Fld := ⟨.LIGHT_STATUS, k, 3, 1, 0⟩
def LIGHT_STATUS_STEP_USED (k : Nat) : Fld := ⟨.LIGHT_STATUS, k, 4, 1, 0⟩
def LIGHT_STATUS_DISC (k : Nat) : Fld := ⟨.LIGHT_STATUS, k, 16, 16, 0⟩
def LIGHT_RATE_ADJ_ADJ (k : Nat) : Fld := ⟨.LIGHT_RATE_ADJ, k, 0, 40, 0⟩
def LIGHT_INCR_INCR (k : Nat) : Fld := ⟨.LIGHT_INCR, k, 0, 40, 0xa0000000⟩
def LIGHT_STEP_S_S (k : Nat) : Fld := ⟨.LIGHT_STEP_S, k, 0, 64, 0⟩
def LIGHT_STEP_NS_NS (k : Nat) : Fld := ⟨.LIGHT_STEP_NS, k, 0, 32, 0⟩
def LIGHT_STEP_FRAC_FRAC (k : Nat) : Fld := ⟨.LIGHT_STEP_FRAC, k, 0, 16, 0⟩
def LIGHT_STEP_CTL_GO (k : Nat) : Fld := ⟨.LIGHT_STEP_CTL, k, 0, 1, 0⟩
def LIGHT_STEP_CTL_KIND (k : Nat) : Fld := ⟨.LIGHT_STEP_CTL, k, 1, 1, 0⟩
def LIGHT_STEP_CTL_RESULT (k : Nat) : Fld := ⟨.LIGHT_STEP_CTL, k, 2, 2, 0⟩
def LIGHT_SNAP_S_S (k : Nat) : Fld := ⟨.LIGHT_SNAP_S, k, 0, 64, 0⟩
def LIGHT_SNAP_NS_NS (k : Nat) : Fld := ⟨.LIGHT_SNAP_NS, k, 0, 32, 0⟩
def LIGHT_SNAP_FRAC_FRAC (k : Nat) : Fld := ⟨.LIGHT_SNAP_FRAC, k, 0, 16, 0⟩
def LIGHT_LEAD_LEAD : Fld := ⟨.LIGHT_LEAD, 0, 0, 16, 0x7D0⟩
def LIGHT_TICKS_TICKS : Fld := ⟨.LIGHT_TICKS, 0, 0, 64, 0⟩
def LIGHT_PPS_OUT_CFG_EN : Fld := ⟨.LIGHT_PPS_OUT_CFG, 0, 0, 1, 0⟩
def LIGHT_PPS_OUT_CFG_DOMAIN : Fld := ⟨.LIGHT_PPS_OUT_CFG, 0, 1, 1, 0⟩
def LIGHT_PPS_OUT_CFG_WIDTH : Fld := ⟨.LIGHT_PPS_OUT_CFG, 0, 8, 8, 0x64⟩
def LIGHT_PPS_OUT_CFG_OFFSET : Fld := ⟨.LIGHT_PPS_OUT_CFG, 0, 16, 16, 0⟩
def LIGHT_PPS_IN_CFG_EN : Fld := ⟨.LIGHT_PPS_IN_CFG, 0, 0, 1, 0⟩
def LIGHT_PPS_IN_CFG_MISS : Fld := ⟨.LIGHT_PPS_IN_CFG, 0, 8, 4, 3⟩
def LIGHT_PPS_IN_TS_TS (k : Nat) : Fld := ⟨.LIGHT_PPS_IN_TS, k, 0, 64, 0⟩
def LIGHT_PPS_IN_STAT_OVERRUN : Fld := ⟨.LIGHT_PPS_IN_STAT, 0, 0, 1, 0⟩
def LIGHT_PPS_IN_STAT_VALID : Fld := ⟨.LIGHT_PPS_IN_STAT, 0, 1, 1, 0⟩
def LIGHT_10M_PHASE_PHASE : Fld := ⟨.LIGHT_10M_PHASE, 0, 0, 12, 0⟩
def LIGHT_10M_PHASE_VALID : Fld := ⟨.LIGHT_10M_PHASE, 0, 31, 1, 0⟩
def LIGHT_TM_CMP_S_S : Fld := ⟨.LIGHT_TM_CMP_S, 0, 0, 64, 0⟩
def LIGHT_TM_CMP_NS_NS : Fld := ⟨.LIGHT_TM_CMP_NS, 0, 0, 30, 0⟩
def LIGHT_TM_CMP_NS_ARM : Fld := ⟨.LIGHT_TM_CMP_NS, 0, 31, 1, 0⟩
def LIGHT_INT_STATUS_BITS : Fld := ⟨.LIGHT_INT_STATUS, 0, 0, 32, 0⟩
def LIGHT_INT_MASK_BITS : Fld := ⟨.LIGHT_INT_MASK, 0, 0, 32, 0⟩
def LIGHT_PORT_CFG_DOMAIN (k : Nat) : Fld := ⟨.LIGHT_PORT_CFG, k, 0, 1, 0⟩
def LIGHT_PORT_CFG_ONE_STEP_EN (k : Nat) : Fld := ⟨.LIGHT_PORT_CFG, k, 1, 1, 0⟩
def LIGHT_PORT_CFG_TWO_STEP_EN (k : Nat) : Fld := ⟨.LIGHT_PORT_CFG, k, 2, 1, 0⟩
def LIGHT_PORT_CFG_TC_MODE (k : Nat) : Fld := ⟨.LIGHT_PORT_CFG, k, 3, 1, 0⟩
def LIGHT_PORT_DELAY_RX_DELAY (k : Nat) : Fld := ⟨.LIGHT_PORT_DELAY, k, 0, 16, 0⟩
def LIGHT_PORT_DELAY_TX_DELAY (k : Nat) : Fld := ⟨.LIGHT_PORT_DELAY, k, 16, 16, 0⟩
def LIGHT_PORT_PDELAY_DELAY (k : Nat) : Fld := ⟨.LIGHT_PORT_PDELAY, k, 0, 32, 0⟩
def LIGHT_TS_LOST_COUNT (k : Nat) : Fld := ⟨.LIGHT_TS_LOST, k, 0, 32, 0⟩
def LIGHT_TS_BADOFF_COUNT (k : Nat) : Fld := ⟨.LIGHT_TS_BADOFF, k, 0, 32, 0⟩
def LIGHT_TSF_STATUS_COUNT (k : Nat) : Fld := ⟨.LIGHT_TSF_STATUS, k, 0, 10, 0⟩
def LIGHT_TSF_CFG_LEVEL (k : Nat) : Fld := ⟨.LIGHT_TSF_CFG, k, 0, 10, 1⟩
def LIGHT_TSF_POP_WORD (k : Nat) : Fld := ⟨.LIGHT_TSF_POP, k, 0, 32, 0⟩
def HARB_STATUS_LINK_UP : Fld := ⟨.HARB_STATUS, 0, 0, 1, 0⟩
def HARB_STATUS_RATE : Fld := ⟨.HARB_STATUS, 0, 1, 3, 0⟩
def HARB_STATUS_WIDTH : Fld := ⟨.HARB_STATUS, 0, 4, 4, 0⟩
def HARB_STATUS_FLIT : Fld := ⟨.HARB_STATUS, 0, 8, 1, 0⟩
def HARB_INT_STATUS_BITS : Fld := ⟨.HARB_INT_STATUS, 0, 0, 32, 0⟩
def HARB_INT_MASK_BITS : Fld := ⟨.HARB_INT_MASK, 0, 0, 32, 0⟩
def HARB_RX_BASE_BASE (k : Nat) : Fld := ⟨.HARB_RX_BASE, k, 0, 64, 0⟩
def HARB_RX_CFG_EN (k : Nat) : Fld := ⟨.HARB_RX_CFG, k, 0, 1, 0⟩
def HARB_RX_CFG_SIZE (k : Nat) : Fld := ⟨.HARB_RX_CFG, k, 1, 4, 0⟩
def HARB_RX_CFG_OWNER (k : Nat) : Fld := ⟨.HARB_RX_CFG, k, 5, 5, 0⟩
def HARB_RX_CFG_BUF (k : Nat) : Fld := ⟨.HARB_RX_CFG, k, 10, 6, 0⟩
def HARB_RX_CFG_VECTOR (k : Nat) : Fld := ⟨.HARB_RX_CFG, k, 16, 5, 0⟩
def HARB_RX_CFG_COUNT (k : Nat) : Fld := ⟨.HARB_RX_CFG, k, 21, 5, 1⟩
def HARB_RX_CFG_ITR (k : Nat) : Fld := ⟨.HARB_RX_CFG, k, 26, 6, 0⟩
def HARB_RX_TAIL_TAIL (k : Nat) : Fld := ⟨.HARB_RX_TAIL, k, 0, 16, 0⟩
def HARB_RX_HEAD_HEAD (k : Nat) : Fld := ⟨.HARB_RX_HEAD, k, 0, 16, 0⟩
def HARB_RX_DROP_COUNT (k : Nat) : Fld := ⟨.HARB_RX_DROP, k, 0, 32, 0⟩
def HARB_TX_BASE_BASE (k : Nat) : Fld := ⟨.HARB_TX_BASE, k, 0, 64, 0⟩
def HARB_TX_CFG_EN (k : Nat) : Fld := ⟨.HARB_TX_CFG, k, 0, 1, 0⟩
def HARB_TX_CFG_SIZE (k : Nat) : Fld := ⟨.HARB_TX_CFG, k, 1, 4, 0⟩
def HARB_TX_CFG_OWNER (k : Nat) : Fld := ⟨.HARB_TX_CFG, k, 5, 5, 0⟩
def HARB_TX_CFG_VECTOR (k : Nat) : Fld := ⟨.HARB_TX_CFG, k, 16, 5, 0⟩
def HARB_TX_TAIL_TAIL (k : Nat) : Fld := ⟨.HARB_TX_TAIL, k, 0, 16, 0⟩
def HARB_TX_HEAD_HEAD (k : Nat) : Fld := ⟨.HARB_TX_HEAD, k, 0, 16, 0⟩
def HARB_TX_DROP_COUNT (k : Nat) : Fld := ⟨.HARB_TX_DROP, k, 0, 32, 0⟩
def HARB_VF_PORTS_PORTS (k : Nat) : Fld := ⟨.HARB_VF_PORTS, k, 0, 32, 0⟩
def HARB_VF_DENIED_COUNT (k : Nat) : Fld := ⟨.HARB_VF_DENIED, k, 0, 32, 0⟩
def DYS_RING_CFG_EN (k : Nat) : Fld := ⟨.DYS_RING_CFG, k, 0, 1, 0⟩
def DYS_RING_CFG_CMD_SIZE (k : Nat) : Fld := ⟨.DYS_RING_CFG, k, 1, 4, 0⟩
def DYS_RING_CFG_RSP_SIZE (k : Nat) : Fld := ⟨.DYS_RING_CFG, k, 5, 4, 0⟩
def DYS_RING_CFG_VECTOR (k : Nat) : Fld := ⟨.DYS_RING_CFG, k, 9, 5, 0⟩
def DYS_CMD_BASE_BASE (k : Nat) : Fld := ⟨.DYS_CMD_BASE, k, 0, 64, 0⟩
def DYS_RSP_BASE_BASE (k : Nat) : Fld := ⟨.DYS_RSP_BASE, k, 0, 64, 0⟩
def DYS_CMD_TAIL_TAIL (k : Nat) : Fld := ⟨.DYS_CMD_TAIL, k, 0, 32, 0⟩
def DYS_CMD_HEAD_HEAD (k : Nat) : Fld := ⟨.DYS_CMD_HEAD, k, 0, 32, 0⟩
def DYS_RSP_TAIL_TAIL (k : Nat) : Fld := ⟨.DYS_RSP_TAIL, k, 0, 32, 0⟩
def DYS_INT_STATUS_BITS : Fld := ⟨.DYS_INT_STATUS, 0, 0, 32, 0⟩
def DYS_INT_MASK_BITS : Fld := ⟨.DYS_INT_MASK, 0, 0, 32, 0⟩
def DYS_ETH_CFG_EN (k : Nat) : Fld := ⟨.DYS_ETH_CFG, k, 0, 1, 1⟩
def DYS_ETH_CFG_IPV6 (k : Nat) : Fld := ⟨.DYS_ETH_CFG, k, 1, 1, 0⟩
def DYS_ETH_CFG_ACL_EN (k : Nat) : Fld := ⟨.DYS_ETH_CFG, k, 2, 1, 0⟩
def DYS_ETH_CFG_UDP_PORT (k : Nat) : Fld := ⟨.DYS_ETH_CFG, k, 16, 16, 0x5a0e⟩
def DYS_ETH_ADDR_WORD (k : Nat) : Fld := ⟨.DYS_ETH_ADDR, k, 0, 32, 0⟩
def DYS_ETH_DROP_COUNT (k : Nat) : Fld := ⟨.DYS_ETH_DROP, k, 0, 32, 0⟩
def DYS_ETH_ACL_WORD (k : Nat) : Fld := ⟨.DYS_ETH_ACL, k, 0, 32, 0⟩
def DYS_ETH_ACL_CTL_VALID (k : Nat) : Fld := ⟨.DYS_ETH_ACL_CTL, k, 0, 1, 0⟩
def DYS_ETH_ACL_CTL_IPV6 (k : Nat) : Fld := ⟨.DYS_ETH_ACL_CTL, k, 1, 1, 0⟩
def LANE_CTL_MODE (k : Nat) : Fld := ⟨.LANE_CTL, k, 0, 3, 0⟩
def LANE_CTL_ENABLE (k : Nat) : Fld := ⟨.LANE_CTL, k, 3, 1, 0⟩
def LANE_CTL_LOCK_MODE (k : Nat) : Fld := ⟨.LANE_CTL, k, 4, 1, 0⟩
def LANE_CTL_ADAPT_FREEZE (k : Nat) : Fld := ⟨.LANE_CTL, k, 5, 1, 0⟩
def LANE_CTL_TX_SQUELCH (k : Nat) : Fld := ⟨.LANE_CTL, k, 6, 1, 0⟩
def LANE_CTL_LOOPBACK (k : Nat) : Fld := ⟨.LANE_CTL, k, 7, 2, 0⟩
def LANE_STATUS_STATE (k : Nat) : Fld := ⟨.LANE_STATUS, k, 0, 3, 0⟩
def LANE_STATUS_SIGNAL_DET (k : Nat) : Fld := ⟨.LANE_STATUS, k, 3, 1, 0⟩
def LANE_STATUS_CDR_LOCK (k : Nat) : Fld := ⟨.LANE_STATUS, k, 4, 1, 0⟩
def LANE_STATUS_BLOCK_LOCK (k : Nat) : Fld := ⟨.LANE_STATUS, k, 5, 1, 0⟩
def LANE_STATUS_TX_PINNED (k : Nat) : Fld := ⟨.LANE_STATUS, k, 6, 1, 0⟩
def LANE_STATUS_RX_PINNED (k : Nat) : Fld := ⟨.LANE_STATUS, k, 7, 1, 0⟩
def LANE_STATUS_PORT (k : Nat) : Fld := ⟨.LANE_STATUS, k, 8, 10, 1023⟩
def LANE_STATUS_LOGICAL (k : Nat) : Fld := ⟨.LANE_STATUS, k, 18, 3, 0⟩
def LANE_STATUS_MIRROR (k : Nat) : Fld := ⟨.LANE_STATUS, k, 21, 1, 0⟩
def LANE_TRAIN_TIMEOUT (k : Nat) : Fld := ⟨.LANE_TRAIN, k, 0, 8, 50⟩
def LANE_TRAIN_PHASE (k : Nat) : Fld := ⟨.LANE_TRAIN, k, 8, 2, 0⟩
def LANE_TRAIN_RESTARTS (k : Nat) : Fld := ⟨.LANE_TRAIN, k, 10, 16, 0⟩
def LANE_TX_TAP_VALUE (k : Nat) : Fld := ⟨.LANE_TX_TAP, k, 0, 8, (if k % 6 = 3 then 0x40 else 0)⟩
def LANE_TX_TAP_MIN (k : Nat) : Fld := ⟨.LANE_TX_TAP, k, 8, 8, (if k % 6 = 3 then 0x20 else 0xE0)⟩
def LANE_TX_TAP_MAX (k : Nat) : Fld := ⟨.LANE_TX_TAP, k, 16, 8, (if k % 6 = 3 then 0x40 else 0x20)⟩
def LANE_TX_TAP_PIN (k : Nat) : Fld := ⟨.LANE_TX_TAP, k, 24, 1, 0⟩
def LANE_TX_TAP_AT_BOUND (k : Nat) : Fld := ⟨.LANE_TX_TAP, k, 25, 1, 0⟩
def LANE_RX_CTLE_PEAK (k : Nat) : Fld := ⟨.LANE_RX_CTLE, k, 0, 6, 0⟩
def LANE_RX_CTLE_MIN (k : Nat) : Fld := ⟨.LANE_RX_CTLE, k, 8, 6, 0⟩
def LANE_RX_CTLE_MAX (k : Nat) : Fld := ⟨.LANE_RX_CTLE, k, 16, 6, 48⟩
def LANE_RX_CTLE_PIN (k : Nat) : Fld := ⟨.LANE_RX_CTLE, k, 24, 1, 0⟩
def LANE_RX_CTLE_AT_BOUND (k : Nat) : Fld := ⟨.LANE_RX_CTLE, k, 25, 1, 0⟩
def LANE_RX_FFE_VALUE (k : Nat) : Fld := ⟨.LANE_RX_FFE, k, 0, 10, (if k % 24 = 4 then 0x100 else 0)⟩
def LANE_RX_FFE_MIN (k : Nat) : Fld := ⟨.LANE_RX_FFE, k, 10, 10, (if k % 24 = 4 then 0x080 else 0x200)⟩
def LANE_RX_FFE_MAX (k : Nat) : Fld := ⟨.LANE_RX_FFE, k, 20, 10, 511⟩
def LANE_RX_FFE_PIN (k : Nat) : Fld := ⟨.LANE_RX_FFE, k, 30, 1, 0⟩
def LANE_RX_FFE_AT_BOUND (k : Nat) : Fld := ⟨.LANE_RX_FFE, k, 31, 1, 0⟩
def LANE_ERR_CORR_BITS (k : Nat) : Fld := ⟨.LANE_ERR, k, 0, 24, 0⟩
def LANE_ERR_FAIL_RUN (k : Nat) : Fld := ⟨.LANE_ERR, k, 24, 4, 0⟩
def LANE_ERR_CNT_UNCORR (k : Nat) : Fld := ⟨.LANE_ERR_CNT, k, 0, 16, 0⟩
def LANE_ERR_CNT_CORNER (k : Nat) : Fld := ⟨.LANE_ERR_CNT, k, 16, 16, 0⟩
def LANE_PINNED_CNT_TX (k : Nat) : Fld := ⟨.LANE_PINNED_CNT, k, 0, 16, 0⟩
def LANE_PINNED_CNT_RX (k : Nat) : Fld := ⟨.LANE_PINNED_CNT, k, 16, 16, 0⟩
def LANE_BITSLIP_SLIP (k : Nat) : Fld := ⟨.LANE_BITSLIP, k, 0, 1, 0⟩
def LANE_LOCK_SLIP_POS (k : Nat) : Fld := ⟨.LANE_LOCK, k, 0, 7, 0⟩
def LANE_LOCK_HDR_ERR (k : Nat) : Fld := ⟨.LANE_LOCK, k, 8, 8, 0⟩
def LANE_CDR_FREQ_OFFSET (k : Nat) : Fld := ⟨.LANE_CDR, k, 0, 16, 0⟩
def LANE_SWAP_BER_MANT (k : Nat) : Fld := ⟨.LANE_SWAP_BER, k, 0, 8, 2⟩
def LANE_SWAP_BER_EXP (k : Nat) : Fld := ⟨.LANE_SWAP_BER, k, 8, 4, 5⟩
def LANE_SWAP_WIN_WIN (k : Nat) : Fld := ⟨.LANE_SWAP_WIN, k, 0, 4, 4⟩
def LANE_SWAP_CFG_TIMEOUT (k : Nat) : Fld := ⟨.LANE_SWAP_CFG, k, 0, 8, 20⟩
def LANE_SWAP_STATUS_BUSY (k : Nat) : Fld := ⟨.LANE_SWAP_STATUS, k, 0, 1, 0⟩
def LANE_SWAP_STATUS_LAST (k : Nat) : Fld := ⟨.LANE_SWAP_STATUS, k, 1, 3, 0⟩
def LANE_SWAP_STATUS_OLD_LANE (k : Nat) : Fld := ⟨.LANE_SWAP_STATUS, k, 4, 6, 0⟩
def LANE_SWAP_STATUS_NEW_LANE (k : Nat) : Fld := ⟨.LANE_SWAP_STATUS, k, 10, 6, 0⟩
def LANE_SWAP_STATUS_COUNT (k : Nat) : Fld := ⟨.LANE_SWAP_STATUS, k, 16, 16, 0⟩
def LANE_INT_STATUS_BITS (k : Nat) : Fld := ⟨.LANE_INT_STATUS, k, 0, 32, 0⟩
def LANE_INT_MASK_BITS (k : Nat) : Fld := ⟨.LANE_INT_MASK, k, 0, 32, 0⟩
def PORT_CFG_WIDTH (k : Nat) : Fld := ⟨.PORT_CFG, k, 0, 3, 0⟩
def PORT_CFG_FIRST_LANE (k : Nat) : Fld := ⟨.PORT_CFG, k, 3, 6, 0⟩
def PORT_CFG_MODE (k : Nat) : Fld := ⟨.PORT_CFG, k, 9, 3, 0⟩
def PORT_CFG_FEC (k : Nat) : Fld := ⟨.PORT_CFG, k, 12, 2, 0⟩
def PORT_CFG_PMD (k : Nat) : Fld := ⟨.PORT_CFG, k, 14, 2, 0⟩
def PORT_CFG_AN_EN (k : Nat) : Fld := ⟨.PORT_CFG, k, 16, 1, 0⟩
def PORT_CFG_SPARE_LANE (k : Nat) : Fld := ⟨.PORT_CFG, k, 17, 6, 63⟩
def PORT_CFG_TRUSTED (k : Nat) : Fld := ⟨.PORT_CFG, k, 23, 1, 0⟩
def PORT_CTL_ENABLE (k : Nat) : Fld := ⟨.PORT_CTL, k, 0, 1, 0⟩
def PORT_STATUS_STATE (k : Nat) : Fld := ⟨.PORT_STATUS, k, 0, 3, 0⟩
def PORT_STATUS_CAUSE (k : Nat) : Fld := ⟨.PORT_STATUS, k, 3, 2, 0⟩
def PORT_STATUS_FEC_DEG (k : Nat) : Fld := ⟨.PORT_STATUS, k, 5, 1, 0⟩
def PORT_STATUS_SPARE_READY (k : Nat) : Fld := ⟨.PORT_STATUS, k, 6, 1, 0⟩
def PORT_STATUS_FAILS (k : Nat) : Fld := ⟨.PORT_STATUS, k, 16, 16, 0⟩
def MAC_RX_CFG_MAX_LEN (k : Nat) : Fld := ⟨.MAC_RX_CFG, k, 0, 14, 0x2400⟩
def MAC_RX_CFG_DELIVER_BAD (k : Nat) : Fld := ⟨.MAC_RX_CFG, k, 16, 1, 0⟩
def MAC_PFC_CFG_RX_EN (k : Nat) : Fld := ⟨.MAC_PFC_CFG, k, 0, 8, 0⟩
def MAC_PFC_CFG_TX_EN (k : Nat) : Fld := ⟨.MAC_PFC_CFG, k, 8, 8, 0⟩
def MAC_PFC_CFG_LEGACY_RX (k : Nat) : Fld := ⟨.MAC_PFC_CFG, k, 16, 1, 0⟩
def MAC_PFC_CFG_REFRESH (k : Nat) : Fld := ⟨.MAC_PFC_CFG, k, 20, 8, 64⟩
def MAC_PFC_QUANTA_XOFF (k : Nat) : Fld := ⟨.MAC_PFC_QUANTA, k, 0, 16, 0xffff⟩
def MAC_PFC_STATUS_RX_PAUSED (k : Nat) : Fld := ⟨.MAC_PFC_STATUS, k, 0, 8, 0⟩
def MAC_PFC_STATUS_TX_XOFF (k : Nat) : Fld := ⟨.MAC_PFC_STATUS, k, 8, 8, 0⟩
def PORT_FEC_DEG_WIN (k : Nat) : Fld := ⟨.PORT_FEC_DEG, k, 0, 4, 8⟩
def PORT_FEC_DEG_UNCORR_MAX (k : Nat) : Fld := ⟨.PORT_FEC_DEG, k, 4, 12, 4⟩
def PCS_FEC_CORR_COUNT (k : Nat) : Fld := ⟨.PCS_FEC_CORR, k, 0, 64, 0⟩
def PCS_FEC_UNCORR_COUNT (k : Nat) : Fld := ⟨.PCS_FEC_UNCORR, k, 0, 64, 0⟩
def MAC_SA_ADDR (k : Nat) : Fld := ⟨.MAC_SA, k, 0, 48, 0⟩
def MAC_RX_OVERFLOW_COUNT (k : Nat) : Fld := ⟨.MAC_RX_OVERFLOW, k, 0, 32, 0⟩
def HELLO_UNTRUSTED_COUNT (k : Nat) : Fld := ⟨.HELLO_UNTRUSTED, k, 0, 32, 0⟩
def PORT_PARTNER_STATUS_VALID (k : Nat) : Fld := ⟨.PORT_PARTNER_STATUS, k, 0, 1, 0⟩
def PORT_PARTNER_STATUS_SOURCE (k : Nat) : Fld := ⟨.PORT_PARTNER_STATUS, k, 1, 2, 0⟩
def PORT_PARTNER_STATUS_MISMATCH (k : Nat) : Fld := ⟨.PORT_PARTNER_STATUS, k, 3, 1, 0⟩
def PORT_PARTNER_STATUS_CHANGES (k : Nat) : Fld := ⟨.PORT_PARTNER_STATUS, k, 16, 16, 0⟩
def PORT_PARTNER_ID_ID (k : Nat) : Fld := ⟨.PORT_PARTNER_ID, k, 0, 32, 0⟩
def PORT_PARTNER_SERIAL_SERIAL (k : Nat) : Fld := ⟨.PORT_PARTNER_SERIAL, k, 0, 64, 0⟩
def PORT_PARTNER_PORT_PORT (k : Nat) : Fld := ⟨.PORT_PARTNER_PORT, k, 0, 10, 0⟩
def PORT_PARTNER_PORT_LANES (k : Nat) : Fld := ⟨.PORT_PARTNER_PORT, k, 10, 4, 0⟩
def PORT_PARTNER_PORT_CAP (k : Nat) : Fld := ⟨.PORT_PARTNER_PORT, k, 16, 8, 0⟩
def PORT_PARTNER_LMAP_LO (k : Nat) : Fld := ⟨.PORT_PARTNER_LMAP, k, 0, 16, 0⟩
def PORT_PARTNER_LMAP_HI (k : Nat) : Fld := ⟨.PORT_PARTNER_LMAP, k, 16, 16, 0⟩
def PORT_PARTNER_SPARE_LANE (k : Nat) : Fld := ⟨.PORT_PARTNER_SPARE, k, 0, 16, 0⟩
def PORT_PARTNER_AN_AN (k : Nat) : Fld := ⟨.PORT_PARTNER_AN, k, 0, 32, 0⟩
def PORT_HELLO_CFG_PERIOD (k : Nat) : Fld := ⟨.PORT_HELLO_CFG, k, 0, 8, 100⟩
def PORT_HELLO_CFG_ETYPE (k : Nat) : Fld := ⟨.PORT_HELLO_CFG, k, 16, 16, 0x88b6⟩
def MAC_INT_STATUS_BITS (k : Nat) : Fld := ⟨.MAC_INT_STATUS, k, 0, 32, 0⟩
def MAC_INT_MASK_BITS (k : Nat) : Fld := ⟨.MAC_INT_MASK, k, 0, 32, 0⟩
def MAC_PARTNER_CHG_PORTS (k : Nat) : Fld := ⟨.MAC_PARTNER_CHG, k, 0, 32, 0⟩
def PRS_STATUS_LAST_FAIL (k : Nat) : Fld := ⟨.PRS_STATUS, k, 0, 4, 15⟩
def PRS_STATUS_LAST_STATE (k : Nat) : Fld := ⟨.PRS_STATUS, k, 4, 8, 0⟩
def PRS_STATUS_MAX_STEPS (k : Nat) : Fld := ⟨.PRS_STATUS, k, 12, 6, 0⟩
def PRS_STEPS_STEPS (k : Nat) : Fld := ⟨.PRS_STEPS, k, 0, 64, 0⟩
def PRS_VALUE_VALUE (k : Nat) : Fld := ⟨.PRS_VALUE, k, 0, 16, 0⟩
def PRS_FAIL_CNT_COUNT (k : Nat) : Fld := ⟨.PRS_FAIL_CNT, k, 0, 32, 0⟩
def CLS_WR_TARGET_TABLE (k : Nat) : Fld := ⟨.CLS_WR_TARGET, k, 0, 8, 0⟩
def CLS_WR_TARGET_INDEX (k : Nat) : Fld := ⟨.CLS_WR_TARGET, k, 8, 24, 0⟩
def CLS_WR_CMD_OP (k : Nat) : Fld := ⟨.CLS_WR_CMD, k, 0, 3, 0⟩
def CLS_WR_CMD_FIRST (k : Nat) : Fld := ⟨.CLS_WR_CMD, k, 8, 5, 0⟩
def CLS_WR_CMD_LAST (k : Nat) : Fld := ⟨.CLS_WR_CMD, k, 16, 5, 0⟩
def CLS_WR_STATUS_BUSY (k : Nat) : Fld := ⟨.CLS_WR_STATUS, k, 0, 1, 0⟩
def CLS_WR_STATUS_RESULT (k : Nat) : Fld := ⟨.CLS_WR_STATUS, k, 1, 3, 0⟩
def CLS_WR_STATUS_VALID (k : Nat) : Fld := ⟨.CLS_WR_STATUS, k, 4, 1, 0⟩
def CLS_WR_DATA_WORD (k : Nat) : Fld := ⟨.CLS_WR_DATA, k, 0, 32, 0⟩
def PPE_BANK_ACTIVE (k : Nat) : Fld := ⟨.PPE_BANK, k, 0, 1, 0⟩
def PPE_BANK_SHADOW_OK (k : Nat) : Fld := ⟨.PPE_BANK, k, 1, 1, 0⟩
def PPE_BANK_LOADING (k : Nat) : Fld := ⟨.PPE_BANK, k, 2, 1, 0⟩
def PPE_BANK_FLIPS (k : Nat) : Fld := ⟨.PPE_BANK, k, 16, 16, 0⟩
def PPE_MATCH_PKTS_COUNT (k : Nat) : Fld := ⟨.PPE_MATCH_PKTS, k, 0, 64, 0⟩
def TRAP_RATE_RATE (k : Nat) : Fld := ⟨.TRAP_RATE, k, 0, 20, 0x2710⟩
def TRAP_CFG_BURST (k : Nat) : Fld := ⟨.TRAP_CFG, k, 0, 12, 64⟩
def TRAP_CFG_RING (k : Nat) : Fld := ⟨.TRAP_CFG, k, 12, 6, 0⟩
def TRAP_PASS_COUNT (k : Nat) : Fld := ⟨.TRAP_PASS, k, 0, 32, 0⟩
def TRAP_DROP_COUNT (k : Nat) : Fld := ⟨.TRAP_DROP, k, 0, 32, 0⟩
def PRS_INT_STATUS_BITS (k : Nat) : Fld := ⟨.PRS_INT_STATUS, k, 0, 32, 0⟩
def PRS_INT_MASK_BITS (k : Nat) : Fld := ⟨.PRS_INT_MASK, k, 0, 32, 0⟩
def CNT_TBL_TARGET_TABLE (k : Nat) : Fld := ⟨.CNT_TBL_TARGET, k, 0, 8, 0⟩
def CNT_TBL_TARGET_INDEX (k : Nat) : Fld := ⟨.CNT_TBL_TARGET, k, 8, 24, 0⟩
def CNT_TBL_CMD_OP (k : Nat) : Fld := ⟨.CNT_TBL_CMD, k, 0, 2, 0⟩
def CNT_TBL_DATA_WORD (k : Nat) : Fld := ⟨.CNT_TBL_DATA, k, 0, 32, 0⟩
def PIPE_STATUS_STATE (k : Nat) : Fld := ⟨.PIPE_STATUS, k, 0, 3, (if k % 5 = 4 then 1 else 0)⟩
def PIPE_STATUS_GROUP (k : Nat) : Fld := ⟨.PIPE_STATUS, k, 3, 2, (if k % 5 = 4 then 0 else k % 10 % 5)⟩
def PIPE_STATUS_READY (k : Nat) : Fld := ⟨.PIPE_STATUS, k, 5, 1, 0⟩
def PIPE_STATUS_PROG_ID (k : Nat) : Fld := ⟨.PIPE_STATUS, k, 16, 16, 0⟩
def PIPE_HAZARD_COUNT (k : Nat) : Fld := ⟨.PIPE_HAZARD, k, 0, 64, 0⟩
def PIPE_HAZARD_LAST_STAGE (k : Nat) : Fld := ⟨.PIPE_HAZARD_LAST, k, 0, 5, 0⟩
def PIPE_HAZARD_LAST_ALU (k : Nat) : Fld := ⟨.PIPE_HAZARD_LAST, k, 5, 2, 0⟩
def PIPE_HAZARD_LAST_INDEX (k : Nat) : Fld := ⟨.PIPE_HAZARD_LAST, k, 16, 16, 0⟩
def PIPE_BANK_STALL_COUNT (k : Nat) : Fld := ⟨.PIPE_BANK_STALL, k, 0, 32, 0⟩
def PIPE_RECIRC_LIMIT_COUNT (k : Nat) : Fld := ⟨.PIPE_RECIRC_LIMIT, k, 0, 32, 0⟩
def PIPE_SWAP_CFG_QUIESCE (k : Nat) : Fld := ⟨.PIPE_SWAP_CFG, k, 0, 1, 0⟩
def PIPE_SWAP_CFG_FENCE_MAX (k : Nat) : Fld := ⟨.PIPE_SWAP_CFG, k, 8, 8, 125⟩
def PIPE_SWAP_STATUS_LAST (k : Nat) : Fld := ⟨.PIPE_SWAP_STATUS, k, 0, 3, 0⟩
def PIPE_SWAP_STATUS_TARGET (k : Nat) : Fld := ⟨.PIPE_SWAP_STATUS, k, 3, 3, 0⟩
def PIPE_SWAP_STATUS_HOLD_MAX (k : Nat) : Fld := ⟨.PIPE_SWAP_STATUS, k, 6, 10, 0⟩
def PIPE_SWAP_STATUS_FLUSHED (k : Nat) : Fld := ⟨.PIPE_SWAP_STATUS, k, 16, 16, 0⟩
def PIPE_COPY_STATUS_REMAIN (k : Nat) : Fld := ⟨.PIPE_COPY_STATUS, k, 0, 24, 0⟩
def PIPE_COPY_STATUS_TABLES (k : Nat) : Fld := ⟨.PIPE_COPY_STATUS, k, 24, 4, 0⟩
def PIPE_PORT_LIVE_LIVE (k : Nat) : Fld := ⟨.PIPE_PORT_LIVE, k, 0, 32, 0⟩
def PIPE_INT_STATUS_BITS (k : Nat) : Fld := ⟨.PIPE_INT_STATUS, k, 0, 32, 0⟩
def PIPE_INT_MASK_BITS (k : Nat) : Fld := ⟨.PIPE_INT_MASK, k, 0, 32, 0⟩
def PIPE_TBL_INFO_KIND (k : Nat) : Fld := ⟨.PIPE_TBL_INFO, k, 0, 2, 0⟩
def PIPE_TBL_INFO_SHARED (k : Nat) : Fld := ⟨.PIPE_TBL_INFO, k, 2, 1, 0⟩
def PIPE_TBL_INFO_WAYS (k : Nat) : Fld := ⟨.PIPE_TBL_INFO, k, 3, 2, 0⟩
def PIPE_TBL_INFO_LOG2 (k : Nat) : Fld := ⟨.PIPE_TBL_INFO, k, 5, 5, 0⟩
def PIPE_TBL_INFO_KEY_WORDS (k : Nat) : Fld := ⟨.PIPE_TBL_INFO, k, 10, 5, 0⟩
def PIPE_TBL_INFO_ACT_WORDS (k : Nat) : Fld := ⟨.PIPE_TBL_INFO, k, 15, 4, 0⟩
def PIPE_TBL_SEED_SEED (k : Nat) : Fld := ⟨.PIPE_TBL_SEED, k, 0, 32, 0⟩
def MTR_CFG_MODE (k : Nat) : Fld := ⟨.MTR_CFG, k, 0, 1, 0⟩
def MTR_CFG_WIRE (k : Nat) : Fld := ⟨.MTR_CFG, k, 1, 1, 0⟩
def MTR_TARGET_INDEX (k : Nat) : Fld := ⟨.MTR_TARGET, k, 0, 18, 0⟩
def MTR_CMD_OP (k : Nat) : Fld := ⟨.MTR_CMD, k, 0, 2, 0⟩
def MTR_STATUS_BUSY (k : Nat) : Fld := ⟨.MTR_STATUS, k, 0, 1, 0⟩
def MTR_STATUS_RESULT (k : Nat) : Fld := ⟨.MTR_STATUS, k, 1, 2, 0⟩
def MTR_DATA_WORD (k : Nat) : Fld := ⟨.MTR_DATA, k, 0, 32, 0⟩
def CWAY_CFG_REPLAY_LIMIT : Fld := ⟨.CWAY_CFG, 0, 0, 4, 8⟩
def CWAY_CFG_RETIRE_LIMIT : Fld := ⟨.CWAY_CFG, 0, 4, 4, 4⟩
def CWAY_CFG_ATL_MAX : Fld := ⟨.CWAY_CFG, 0, 8, 8, 16⟩
def CWAY_STATUS_ACTIVE_NS : Fld := ⟨.CWAY_STATUS, 0, 0, 7, 64⟩
def CWAY_STATUS_ACTIVE_SN : Fld := ⟨.CWAY_STATUS, 0, 7, 7, 64⟩
def CWAY_STATUS_SPARES_NS : Fld := ⟨.CWAY_STATUS, 0, 14, 8, 128⟩
def CWAY_STATUS_SPARES_SN : Fld := ⟨.CWAY_STATUS, 0, 22, 8, 128⟩
def CWAY_VC_WEIGHT_WEIGHT (k : Nat) : Fld := ⟨.CWAY_VC_WEIGHT, k, 0, 8, (cwayVcWeightReset k)⟩
def CWAY_INT_STATUS_BITS : Fld := ⟨.CWAY_INT_STATUS, 0, 0, 32, 0⟩
def CWAY_INT_MASK_BITS : Fld := ⟨.CWAY_INT_MASK, 0, 0, 32, 0⟩
def CWAY_BUNDLE_STATUS_STATE (k : Nat) : Fld := ⟨.CWAY_BUNDLE_STATUS, k, 0, 2, 0⟩
def CWAY_BUNDLE_STATUS_SUB0 (k : Nat) : Fld := ⟨.CWAY_BUNDLE_STATUS, k, 2, 7, 127⟩
def CWAY_BUNDLE_STATUS_SUB1 (k : Nat) : Fld := ⟨.CWAY_BUNDLE_STATUS, k, 9, 7, 127⟩
def CWAY_BUNDLE_ERR_CRC_ERR (k : Nat) : Fld := ⟨.CWAY_BUNDLE_ERR, k, 0, 16, 0⟩
def CWAY_BUNDLE_ERR_REPLAY (k : Nat) : Fld := ⟨.CWAY_BUNDLE_ERR, k, 16, 16, 0⟩
def LAG_CFG_SPILL_EN : Fld := ⟨.LAG_CFG, 0, 0, 1, 1⟩
def LAG_CFG_ADAPT_PERIOD : Fld := ⟨.LAG_CFG, 0, 8, 8, 10⟩
def LAG_SPILL_LOW_LOW (k : Nat) : Fld := ⟨.LAG_SPILL_LOW, k, 0, 20, 0⟩
def LAG_SPILL_HIGH_HIGH (k : Nat) : Fld := ⟨.LAG_SPILL_HIGH, k, 0, 20, 0⟩
def LAG_POOL_SIZE (k : Nat) : Fld := ⟨.LAG_POOL, k, 0, 20, 0⟩
def LAG_HALF_STATUS_FREE (k : Nat) : Fld := ⟨.LAG_HALF_STATUS, k, 0, 20, 0x80000⟩
def LAG_HALF_STATUS_SPILLING (k : Nat) : Fld := ⟨.LAG_HALF_STATUS, k, 20, 1, 0⟩
def LAG_HALF_STATUS_OVERCOMMIT (k : Nat) : Fld := ⟨.LAG_HALF_STATUS, k, 21, 1, 0⟩
def LAG_HALF_STATUS_RESERVE_LEFT (k : Nat) : Fld := ⟨.LAG_HALF_STATUS, k, 22, 2, 2⟩
def LAG_HALF_USE_USED (k : Nat) : Fld := ⟨.LAG_HALF_USE, k, 0, 20, 0⟩
def LAG_PINNED_CNT_ALPHA : Fld := ⟨.LAG_PINNED_CNT, 0, 0, 16, 0⟩
def LAG_PINNED_CNT_ECN : Fld := ⟨.LAG_PINNED_CNT, 0, 16, 16, 0⟩
def LAG_BANK_STATUS_STATE (k : Nat) : Fld := ⟨.LAG_BANK_STATUS, k, 0, 2, (if k % 34 < 32 then 0 else 1)⟩
def LAG_BANK_STATUS_HELD (k : Nat) : Fld := ⟨.LAG_BANK_STATUS, k, 2, 15, 0⟩
def LAG_DROP_CNT_COUNT (k : Nat) : Fld := ⟨.LAG_DROP_CNT, k, 0, 32, 0⟩
def LAG_INT_STATUS_BITS : Fld := ⟨.LAG_INT_STATUS, 0, 0, 32, 0⟩
def LAG_INT_MASK_BITS : Fld := ⟨.LAG_INT_MASK, 0, 0, 32, 0⟩
def LAG_PG_MIN_MIN (k : Nat) : Fld := ⟨.LAG_PG_MIN, k, 0, 20, 0⟩
def LAG_PG_CFG_ALPHA (k : Nat) : Fld := ⟨.LAG_PG_CFG, k, 0, 4, 0⟩
def LAG_PG_CFG_LOSSLESS (k : Nat) : Fld := ⟨.LAG_PG_CFG, k, 4, 1, 0⟩
def LAG_PG_CFG_XON_DELTA (k : Nat) : Fld := ⟨.LAG_PG_CFG, k, 8, 20, 256⟩
def LAG_PG_HDRM_HDRM_MAX (k : Nat) : Fld := ⟨.LAG_PG_HDRM, k, 0, 20, 0⟩
def LAG_PG_USE_USED (k : Nat) : Fld := ⟨.LAG_PG_USE, k, 0, 20, 0⟩
def LAG_PG_USE_XOFF (k : Nat) : Fld := ⟨.LAG_PG_USE, k, 31, 1, 0⟩
def LAG_Q_MIN_MIN (k : Nat) : Fld := ⟨.LAG_Q_MIN, k, 0, 20, 0⟩
def LAG_Q_CFG_ALPHA (k : Nat) : Fld := ⟨.LAG_Q_CFG, k, 0, 4, 0⟩
def LAG_Q_CFG_ADAPT (k : Nat) : Fld := ⟨.LAG_Q_CFG, k, 4, 1, 0⟩
def LAG_Q_CFG_ALPHA_FLOOR (k : Nat) : Fld := ⟨.LAG_Q_CFG, k, 8, 4, 0⟩
def LAG_Q_CFG_ALPHA_CEIL (k : Nat) : Fld := ⟨.LAG_Q_CFG, k, 12, 4, 9⟩
def LAG_Q_CFG_LOSSLESS (k : Nat) : Fld := ⟨.LAG_Q_CFG, k, 16, 1, 0⟩
def LAG_Q_MAX_MAX (k : Nat) : Fld := ⟨.LAG_Q_MAX, k, 0, 20, 0xfffff⟩
def LAG_Q_ECN_MIN (k : Nat) : Fld := ⟨.LAG_Q_ECN, k, 0, 12, 64⟩
def LAG_Q_ECN_MAX (k : Nat) : Fld := ⟨.LAG_Q_ECN, k, 12, 12, 256⟩
def LAG_Q_ECN_PMAX (k : Nat) : Fld := ⟨.LAG_Q_ECN, k, 24, 6, 63⟩
def LAG_Q_ECN_ADAPT (k : Nat) : Fld := ⟨.LAG_Q_ECN, k, 30, 1, 0⟩
def LAG_Q_ECN_EN (k : Nat) : Fld := ⟨.LAG_Q_ECN, k, 31, 1, 0⟩
def LAG_Q_ECN_BOUND_FLOOR (k : Nat) : Fld := ⟨.LAG_Q_ECN_BOUND, k, 0, 12, 0⟩
def LAG_Q_ECN_BOUND_CEIL (k : Nat) : Fld := ⟨.LAG_Q_ECN_BOUND, k, 12, 12, 4095⟩
def LAG_Q_STATUS_OCC (k : Nat) : Fld := ⟨.LAG_Q_STATUS, k, 0, 20, 0⟩
def LAG_Q_STATUS_ALPHA_CUR (k : Nat) : Fld := ⟨.LAG_Q_STATUS, k, 20, 4, 0⟩
def LAG_Q_STATUS_ALPHA_PINNED (k : Nat) : Fld := ⟨.LAG_Q_STATUS, k, 24, 1, 0⟩
def LAG_Q_STATUS_ECN_PINNED (k : Nat) : Fld := ⟨.LAG_Q_STATUS, k, 25, 1, 0⟩
def LAG_MQ_CFG_ALPHA (k : Nat) : Fld := ⟨.LAG_MQ_CFG, k, 0, 4, 0⟩
def LAG_MQ_CFG_ADAPT (k : Nat) : Fld := ⟨.LAG_MQ_CFG, k, 4, 1, 0⟩
def LAG_MQ_CFG_ALPHA_FLOOR (k : Nat) : Fld := ⟨.LAG_MQ_CFG, k, 8, 4, 0⟩
def LAG_MQ_CFG_ALPHA_CEIL (k : Nat) : Fld := ⟨.LAG_MQ_CFG, k, 12, 4, 9⟩
def LAG_MQ_CFG_LOSSLESS (k : Nat) : Fld := ⟨.LAG_MQ_CFG, k, 16, 1, 0⟩
def LAG_MQ_MAX_MAX (k : Nat) : Fld := ⟨.LAG_MQ_MAX, k, 0, 20, 0xfffff⟩
def LAG_MQ_ECN_MIN (k : Nat) : Fld := ⟨.LAG_MQ_ECN, k, 0, 12, 64⟩
def LAG_MQ_ECN_MAX (k : Nat) : Fld := ⟨.LAG_MQ_ECN, k, 12, 12, 256⟩
def LAG_MQ_ECN_PMAX (k : Nat) : Fld := ⟨.LAG_MQ_ECN, k, 24, 6, 63⟩
def LAG_MQ_ECN_ADAPT (k : Nat) : Fld := ⟨.LAG_MQ_ECN, k, 30, 1, 0⟩
def LAG_MQ_ECN_EN (k : Nat) : Fld := ⟨.LAG_MQ_ECN, k, 31, 1, 0⟩
def LAG_MQ_ECN_BOUND_FLOOR (k : Nat) : Fld := ⟨.LAG_MQ_ECN_BOUND, k, 0, 12, 0⟩
def LAG_MQ_ECN_BOUND_CEIL (k : Nat) : Fld := ⟨.LAG_MQ_ECN_BOUND, k, 12, 12, 4095⟩
def LAG_MQ_STATUS_OCC (k : Nat) : Fld := ⟨.LAG_MQ_STATUS, k, 0, 20, 0⟩
def LAG_MQ_STATUS_ALPHA_CUR (k : Nat) : Fld := ⟨.LAG_MQ_STATUS, k, 20, 4, 0⟩
def LAG_MQ_STATUS_ALPHA_PINNED (k : Nat) : Fld := ⟨.LAG_MQ_STATUS, k, 24, 1, 0⟩
def LAG_MQ_STATUS_ECN_PINNED (k : Nat) : Fld := ⟨.LAG_MQ_STATUS, k, 25, 1, 0⟩
def TM_SHAPE_CFG_FORGIVE : Fld := ⟨.TM_SHAPE_CFG, 0, 0, 1, 0⟩
def TM_HIST_CFG_EN : Fld := ⟨.TM_HIST_CFG, 0, 0, 1, 1⟩
def TM_INT_STATUS_BITS : Fld := ⟨.TM_INT_STATUS, 0, 0, 32, 0⟩
def TM_INT_MASK_BITS : Fld := ⟨.TM_INT_MASK, 0, 0, 32, 0⟩
def TM_Q_SHAPE_RATE (k : Nat) : Fld := ⟨.TM_Q_SHAPE, k, 0, 22, 0⟩
def TM_Q_BURST_BURST (k : Nat) : Fld := ⟨.TM_Q_BURST, k, 0, 24, 0x4000⟩
def TM_Q_MIN_RATE (k : Nat) : Fld := ⟨.TM_Q_MIN, k, 0, 22, 0⟩
def TM_Q_MIN_BURST_BURST (k : Nat) : Fld := ⟨.TM_Q_MIN_BURST, k, 0, 24, 0x4000⟩
def TM_Q_CFG_GROUP (k : Nat) : Fld := ⟨.TM_Q_CFG, k, 0, 2, (k % 16 / 4)⟩
def TM_Q_CFG_PRIO (k : Nat) : Fld := ⟨.TM_Q_CFG, k, 2, 3, 0⟩
def TM_Q_CFG_WEIGHT (k : Nat) : Fld := ⟨.TM_Q_CFG, k, 8, 8, 1⟩
def TM_Q_CFG_TC (k : Nat) : Fld := ⟨.TM_Q_CFG, k, 16, 3, (k % 16 % 8)⟩
def TM_Q_CFG_PFC_PRIO (k : Nat) : Fld := ⟨.TM_Q_CFG, k, 19, 3, (k % 16 % 8)⟩
def TM_Q_CFG_PAUSE_EN (k : Nat) : Fld := ⟨.TM_Q_CFG, k, 22, 1, 1⟩
def TM_Q_STATUS_BACKLOG (k : Nat) : Fld := ⟨.TM_Q_STATUS, k, 0, 1, 0⟩
def TM_Q_STATUS_PAUSED (k : Nat) : Fld := ⟨.TM_Q_STATUS, k, 1, 1, 0⟩
def TM_Q_STATUS_GATE_CLOSED (k : Nat) : Fld := ⟨.TM_Q_STATUS, k, 2, 1, 0⟩
def TM_Q_STATUS_MAX_DEBT (k : Nat) : Fld := ⟨.TM_Q_STATUS, k, 3, 1, 0⟩
def TM_Q_STATUS_BELOW_MIN (k : Nat) : Fld := ⟨.TM_Q_STATUS, k, 4, 1, 0⟩
def TM_Q_STATUS_WAIT_PAGE (k : Nat) : Fld := ⟨.TM_Q_STATUS, k, 5, 1, 0⟩
def TM_Q_MAX_DEPTH_DEPTH (k : Nat) : Fld := ⟨.TM_Q_MAX_DEPTH, k, 0, 28, 0⟩
def TM_Q_LEVEL_LEVEL (k : Nat) : Fld := ⟨.TM_Q_LEVEL, k, 0, 64, 1638400⟩
def TM_Q_MIN_LEVEL_LEVEL (k : Nat) : Fld := ⟨.TM_Q_MIN_LEVEL, k, 0, 64, 1638400⟩
def TM_MQ_SHAPE_RATE (k : Nat) : Fld := ⟨.TM_MQ_SHAPE, k, 0, 22, 0⟩
def TM_MQ_BURST_BURST (k : Nat) : Fld := ⟨.TM_MQ_BURST, k, 0, 24, 0x4000⟩
def TM_MQ_MIN_RATE (k : Nat) : Fld := ⟨.TM_MQ_MIN, k, 0, 22, 0⟩
def TM_MQ_MIN_BURST_BURST (k : Nat) : Fld := ⟨.TM_MQ_MIN_BURST, k, 0, 24, 0x4000⟩
def TM_MQ_CFG_GROUP (k : Nat) : Fld := ⟨.TM_MQ_CFG, k, 0, 2, 3⟩
def TM_MQ_CFG_PRIO (k : Nat) : Fld := ⟨.TM_MQ_CFG, k, 2, 3, 0⟩
def TM_MQ_CFG_WEIGHT (k : Nat) : Fld := ⟨.TM_MQ_CFG, k, 8, 8, 1⟩
def TM_MQ_CFG_TC (k : Nat) : Fld := ⟨.TM_MQ_CFG, k, 16, 3, (k % 2)⟩
def TM_MQ_CFG_PFC_PRIO (k : Nat) : Fld := ⟨.TM_MQ_CFG, k, 19, 3, (k % 2)⟩
def TM_MQ_CFG_PAUSE_EN (k : Nat) : Fld := ⟨.TM_MQ_CFG, k, 22, 1, 1⟩
def TM_MQ_STATUS_BACKLOG (k : Nat) : Fld := ⟨.TM_MQ_STATUS, k, 0, 1, 0⟩
def TM_MQ_STATUS_PAUSED (k : Nat) : Fld := ⟨.TM_MQ_STATUS, k, 1, 1, 0⟩
def TM_MQ_STATUS_GATE_CLOSED (k : Nat) : Fld := ⟨.TM_MQ_STATUS, k, 2, 1, 0⟩
def TM_MQ_STATUS_MAX_DEBT (k : Nat) : Fld := ⟨.TM_MQ_STATUS, k, 3, 1, 0⟩
def TM_MQ_STATUS_BELOW_MIN (k : Nat) : Fld := ⟨.TM_MQ_STATUS, k, 4, 1, 0⟩
def TM_MQ_STATUS_WAIT_PAGE (k : Nat) : Fld := ⟨.TM_MQ_STATUS, k, 5, 1, 0⟩
def TM_MQ_MAX_DEPTH_DEPTH (k : Nat) : Fld := ⟨.TM_MQ_MAX_DEPTH, k, 0, 28, 0⟩
def TM_MQ_LEVEL_LEVEL (k : Nat) : Fld := ⟨.TM_MQ_LEVEL, k, 0, 64, 1638400⟩
def TM_MQ_MIN_LEVEL_LEVEL (k : Nat) : Fld := ⟨.TM_MQ_MIN_LEVEL, k, 0, 64, 1638400⟩
def TM_CPU_Q_CFG_PRIO (k : Nat) : Fld := ⟨.TM_CPU_Q_CFG, k, 0, 3, 0⟩
def TM_CPU_Q_CFG_WEIGHT (k : Nat) : Fld := ⟨.TM_CPU_Q_CFG, k, 8, 8, 0⟩
def TM_CPU_Q_CFG_MAX (k : Nat) : Fld := ⟨.TM_CPU_Q_CFG, k, 16, 20, 0x4000⟩
def TM_CPU_SHAPE_RATE : Fld := ⟨.TM_CPU_SHAPE, 0, 0, 22, 0⟩
def TM_CPU_BURST_BURST : Fld := ⟨.TM_CPU_BURST, 0, 0, 24, 0x4000⟩
def TM_G_SHAPE_RATE (k : Nat) : Fld := ⟨.TM_G_SHAPE, k, 0, 22, 0⟩
def TM_G_BURST_BURST (k : Nat) : Fld := ⟨.TM_G_BURST, k, 0, 24, 0x4000⟩
def TM_G_MIN_RATE (k : Nat) : Fld := ⟨.TM_G_MIN, k, 0, 22, 0⟩
def TM_G_MIN_BURST_BURST (k : Nat) : Fld := ⟨.TM_G_MIN_BURST, k, 0, 24, 0x4000⟩
def TM_G_CFG_PRIO (k : Nat) : Fld := ⟨.TM_G_CFG, k, 0, 3, 0⟩
def TM_G_CFG_WEIGHT (k : Nat) : Fld := ⟨.TM_G_CFG, k, 8, 8, 1⟩
def TM_G_LEVEL_LEVEL (k : Nat) : Fld := ⟨.TM_G_LEVEL, k, 0, 64, 1638400⟩
def TM_G_MIN_LEVEL_LEVEL (k : Nat) : Fld := ⟨.TM_G_MIN_LEVEL, k, 0, 64, 1638400⟩
def TM_P_SHAPE_RATE (k : Nat) : Fld := ⟨.TM_P_SHAPE, k, 0, 22, 0⟩
def TM_P_BURST_BURST (k : Nat) : Fld := ⟨.TM_P_BURST, k, 0, 24, 0x4000⟩
def TM_P_MIN_RATE (k : Nat) : Fld := ⟨.TM_P_MIN, k, 0, 22, 0⟩
def TM_P_MIN_BURST_BURST (k : Nat) : Fld := ⟨.TM_P_MIN_BURST, k, 0, 24, 0x4000⟩
def TM_PORT_CFG_PRIO (k : Nat) : Fld := ⟨.TM_PORT_CFG, k, 0, 3, 0⟩
def TM_PORT_CFG_WEIGHT (k : Nat) : Fld := ⟨.TM_PORT_CFG, k, 8, 8, 0⟩
def TM_PORT_CFG_OVERHEAD (k : Nat) : Fld := ⟨.TM_PORT_CFG, k, 16, 8, 20⟩
def TM_PORT_CFG_REROUTE_QUEUED (k : Nat) : Fld := ⟨.TM_PORT_CFG, k, 24, 1, 0⟩
def TM_PORT_STATUS_PAUSED (k : Nat) : Fld := ⟨.TM_PORT_STATUS, k, 0, 8, 0⟩
def TM_PORT_STATUS_GATES (k : Nat) : Fld := ⟨.TM_PORT_STATUS, k, 8, 8, 255⟩
def TM_GATE_CTL_EN (k : Nat) : Fld := ⟨.TM_GATE_CTL, k, 0, 1, 0⟩
def TM_GATE_CTL_GUARD (k : Nat) : Fld := ⟨.TM_GATE_CTL, k, 1, 1, 0⟩
def TM_GATE_CTL_CONFIG_CHANGE (k : Nat) : Fld := ⟨.TM_GATE_CTL, k, 2, 1, 0⟩
def TM_GATE_CTL_CANCEL (k : Nat) : Fld := ⟨.TM_GATE_CTL, k, 3, 1, 0⟩
def TM_GATE_CTL_ADJ (k : Nat) : Fld := ⟨.TM_GATE_CTL, k, 16, 16, 0⟩
def TM_GATE_STATUS_PENDING (k : Nat) : Fld := ⟨.TM_GATE_STATUS, k, 0, 1, 0⟩
def TM_GATE_STATUS_BASE_IN_PAST (k : Nat) : Fld := ⟨.TM_GATE_STATUS, k, 1, 1, 0⟩
def TM_GATE_STATUS_OPER_BANK (k : Nat) : Fld := ⟨.TM_GATE_STATUS, k, 2, 1, 0⟩
def TM_GATE_STATUS_CONFIG_ERR (k : Nat) : Fld := ⟨.TM_GATE_STATUS, k, 3, 3, 0⟩
def TM_GATE_STATUS_STEPS (k : Nat) : Fld := ⟨.TM_GATE_STATUS, k, 8, 16, 0⟩
def TM_GATE_ADMIN_BASE_S_S (k : Nat) : Fld := ⟨.TM_GATE_ADMIN_BASE_S, k, 0, 64, 0⟩
def TM_GATE_ADMIN_BASE_NS_NS (k : Nat) : Fld := ⟨.TM_GATE_ADMIN_BASE_NS, k, 0, 32, 0⟩
def TM_GATE_ADMIN_CYCLE_CYCLE (k : Nat) : Fld := ⟨.TM_GATE_ADMIN_CYCLE, k, 0, 32, 0⟩
def TM_GATE_ADMIN_LEN_LEN (k : Nat) : Fld := ⟨.TM_GATE_ADMIN_LEN, k, 0, 9, 0⟩
def TM_GATE_START_S_S (k : Nat) : Fld := ⟨.TM_GATE_START_S, k, 0, 64, 0⟩
def TM_GATE_START_NS_NS (k : Nat) : Fld := ⟨.TM_GATE_START_NS, k, 0, 32, 0⟩
def TM_GATE_OPER_CYCLE_CYCLE (k : Nat) : Fld := ⟨.TM_GATE_OPER_CYCLE, k, 0, 32, 0⟩
def TM_GATE_OPER_LEN_LEN (k : Nat) : Fld := ⟨.TM_GATE_OPER_LEN, k, 0, 9, 0⟩
def TM_P_LEVEL_LEVEL (k : Nat) : Fld := ⟨.TM_P_LEVEL, k, 0, 64, 1638400⟩
def TM_P_MIN_LEVEL_LEVEL (k : Nat) : Fld := ⟨.TM_P_MIN_LEVEL, k, 0, 64, 1638400⟩
def TM_GATE_ENTRY_GATES (k : Nat) : Fld := ⟨.TM_GATE_ENTRY, k, 0, 8, 255⟩
def TM_GATE_ENTRY_INTERVAL (k : Nat) : Fld := ⟨.TM_GATE_ENTRY, k, 32, 32, 0⟩
def TM_HIST_COUNT (k : Nat) : Fld := ⟨.TM_HIST, k, 0, 32, 0⟩
def MC_CFG_RT_SHARE (k : Nat) : Fld := ⟨.MC_CFG, k, 0, 8, 75⟩
def MC_CFG_AGE_MAX (k : Nat) : Fld := ⟨.MC_CFG, k, 8, 8, 25⟩
def MC_CFG_WR_HIGH (k : Nat) : Fld := ⟨.MC_CFG, k, 16, 6, 24⟩
def MC_CFG_WR_LOW (k : Nat) : Fld := ⟨.MC_CFG, k, 22, 6, 8⟩
def MC_STATUS_TSET (k : Nat) : Fld := ⟨.MC_STATUS, k, 0, 2, 0⟩
def MC_STATUS_TSET_BUSY (k : Nat) : Fld := ⟨.MC_STATUS, k, 2, 1, 0⟩
def MC_STATUS_SR (k : Nat) : Fld := ⟨.MC_STATUS, k, 3, 1, 0⟩
def MC_STATUS_HOT (k : Nat) : Fld := ⟨.MC_STATUS, k, 4, 1, 0⟩
def MC_STATUS_RT_AT_RISK (k : Nat) : Fld := ⟨.MC_STATUS, k, 5, 1, 0⟩
def MC_STATUS_SPARE (k : Nat) : Fld := ⟨.MC_STATUS, k, 6, 2, 0⟩
def MC_STATUS_SPARED_CH (k : Nat) : Fld := ⟨.MC_STATUS, k, 8, 5, 31⟩
def MC_STATUS_TEMP (k : Nat) : Fld := ⟨.MC_STATUS, k, 16, 8, 0⟩
def MC_STATUS_COPY_PCT (k : Nat) : Fld := ⟨.MC_STATUS, k, 24, 8, 0⟩
def MC_TSET_CMD_TARGET (k : Nat) : Fld := ⟨.MC_TSET_CMD, k, 0, 2, 0⟩
def MC_TSET_CMD_ABORTS (k : Nat) : Fld := ⟨.MC_TSET_CMD, k, 8, 8, 0⟩
def MC_TSET_CMD_CHANGES (k : Nat) : Fld := ⟨.MC_TSET_CMD, k, 16, 16, 0⟩
def MC_BW_CAP_CAP (k : Nat) : Fld := ⟨.MC_BW_CAP, k, 0, 8, 0⟩
def MC_IDLE_MIN (k : Nat) : Fld := ⟨.MC_IDLE, k, 0, 10, 16⟩
def MC_IDLE_MAX (k : Nat) : Fld := ⟨.MC_IDLE, k, 10, 10, 256⟩
def MC_IDLE_INIT (k : Nat) : Fld := ⟨.MC_IDLE, k, 20, 10, 64⟩
def MC_IDLE_ADAPT (k : Nat) : Fld := ⟨.MC_IDLE, k, 30, 1, 1⟩
def MC_PINNED_CNT_COUNT (k : Nat) : Fld := ⟨.MC_PINNED_CNT, k, 0, 32, 0⟩
def MC_RT_SPLIT_COUNT (k : Nat) : Fld := ⟨.MC_RT_SPLIT, k, 0, 32, 0⟩
def MC_SR_CFG_EN (k : Nat) : Fld := ⟨.MC_SR_CFG, k, 0, 1, 0⟩
def MC_SR_CFG_IDLE (k : Nat) : Fld := ⟨.MC_SR_CFG, k, 8, 8, 100⟩
def MC_RAS_CFG_ROW_CE (k : Nat) : Fld := ⟨.MC_RAS_CFG, k, 0, 8, 8⟩
def MC_RAS_CFG_SCRUB_HOURS (k : Nat) : Fld := ⟨.MC_RAS_CFG, k, 8, 8, 24⟩
def MC_RAS_CFG_CH_RETIRE_MAX (k : Nat) : Fld := ⟨.MC_RAS_CFG, k, 16, 8, 64⟩
def MC_ECC_CE_COUNT (k : Nat) : Fld := ⟨.MC_ECC_CE, k, 0, 64, 0⟩
def MC_ECC_UE_COUNT (k : Nat) : Fld := ⟨.MC_ECC_UE, k, 0, 64, 0⟩
def MC_ECC_LAST_OFFSET (k : Nat) : Fld := ⟨.MC_ECC_LAST, k, 0, 35, 0⟩
def MC_ECC_LAST_CH (k : Nat) : Fld := ⟨.MC_ECC_LAST, k, 35, 5, 0⟩
def MC_RETIRE_STATUS_COUNT (k : Nat) : Fld := ⟨.MC_RETIRE_STATUS, k, 0, 10, 0⟩
def MC_RETIRE_STATUS_FULL (k : Nat) : Fld := ⟨.MC_RETIRE_STATUS, k, 10, 1, 0⟩
def MC_INT_STATUS_BITS (k : Nat) : Fld := ⟨.MC_INT_STATUS, k, 0, 32, 0⟩
def MC_INT_MASK_BITS (k : Nat) : Fld := ⟨.MC_INT_MASK, k, 0, 32, 0⟩
def MC_IDLE_STATUS_CUR (k : Nat) : Fld := ⟨.MC_IDLE_STATUS, k, 0, 10, 0x40⟩
def MC_IDLE_STATUS_PINNED (k : Nat) : Fld := ⟨.MC_IDLE_STATUS, k, 10, 1, 0⟩
def MC_TRAIN_STATUS_VALID (k : Nat) : Fld := ⟨.MC_TRAIN_STATUS, k, 0, 3, 0⟩
def MC_TRAIN_STATUS_FAIL (k : Nat) : Fld := ⟨.MC_TRAIN_STATUS, k, 3, 1, 0⟩
def MC_TRAIN_STATUS_FAIL_CH (k : Nat) : Fld := ⟨.MC_TRAIN_STATUS, k, 4, 5, 0⟩
def MC_TRAIN_STATUS_TEMP_AT (k : Nat) : Fld := ⟨.MC_TRAIN_STATUS, k, 16, 8, 0⟩
def MC_CHMAP_PHYS (k : Nat) : Fld := ⟨.MC_CHMAP, k, 0, 5, (k % 31)⟩
def MC_REF_OWED_OWED (k : Nat) : Fld := ⟨.MC_REF_OWED, k, 0, 4, 0⟩
def MC_REF_OWED_MAX_OWED_CNT (k : Nat) : Fld := ⟨.MC_REF_OWED, k, 16, 16, 0⟩
def MC_RETIRE_LIST_BLOCK (k : Nat) : Fld := ⟨.MC_RETIRE_LIST, k, 0, 23, 0⟩
def MC_RETIRE_LIST_VALID (k : Nat) : Fld := ⟨.MC_RETIRE_LIST, k, 31, 1, 0⟩
def BPM_REGION_BASE (k : Nat) : Fld := ⟨.BPM_REGION, k, 0, 15, 0⟩
def BPM_REGION_SIZE (k : Nat) : Fld := ⟨.BPM_REGION, k, 16, 15, 0⟩
def BPM_POOL_FREE_FREE (k : Nat) : Fld := ⟨.BPM_POOL_FREE, k, 0, 28, 0⟩
def BPM_POOL_RETIRED_RETIRED (k : Nat) : Fld := ⟨.BPM_POOL_RETIRED, k, 0, 28, 0⟩
def BPM_CLASS_RSV_RSV (k : Nat) : Fld := ⟨.BPM_CLASS_RSV, k, 0, 28, 0⟩
def BPM_CLASS_MAX_MAX (k : Nat) : Fld := ⟨.BPM_CLASS_MAX, k, 0, 28, 0xFFFFFFF⟩
def BPM_CLASS_USED_USED (k : Nat) : Fld := ⟨.BPM_CLASS_USED, k, 0, 28, 0⟩
def BPM_BAD_RELEASE_HANDLE : Fld := ⟨.BPM_BAD_RELEASE, 0, 0, 48, 0⟩
def BPM_BAD_RELEASE_AGENT : Fld := ⟨.BPM_BAD_RELEASE, 0, 48, 8, 0⟩
def BPM_BAD_RELEASE_KIND : Fld := ⟨.BPM_BAD_RELEASE, 0, 56, 3, 0⟩
def BPM_BAD_COUNT_COUNT : Fld := ⟨.BPM_BAD_COUNT, 0, 0, 32, 0⟩
def BPM_INT_STATUS_BITS : Fld := ⟨.BPM_INT_STATUS, 0, 0, 32, 0⟩
def BPM_INT_MASK_BITS : Fld := ⟨.BPM_INT_MASK, 0, 0, 32, 0⟩
def BPM_AGENT_DOMAIN_MASK (k : Nat) : Fld := ⟨.BPM_AGENT_DOMAIN, k, 0, 64, 0⟩
def BPM_FN_ARG_ARG (k : Nat) : Fld := ⟨.BPM_FN_ARG, k, 0, 64, 0⟩
def BPM_FN_CMD_OP (k : Nat) : Fld := ⟨.BPM_FN_CMD, k, 0, 2, 0⟩
def BPM_FN_CMD_POOL (k : Nat) : Fld := ⟨.BPM_FN_CMD, k, 2, 2, 0⟩
def BPM_FN_CMD_DOMAIN (k : Nat) : Fld := ⟨.BPM_FN_CMD, k, 4, 6, 0⟩
def BPM_FN_CMD_N (k : Nat) : Fld := ⟨.BPM_FN_CMD, k, 10, 8, 0⟩
def BPM_FN_RESULT_BUSY (k : Nat) : Fld := ⟨.BPM_FN_RESULT, k, 0, 1, 0⟩
def BPM_FN_RESULT_STATUS (k : Nat) : Fld := ⟨.BPM_FN_RESULT, k, 8, 8, 0⟩
def BPM_FN_HANDLE_HANDLE (k : Nat) : Fld := ⟨.BPM_FN_HANDLE, k, 0, 64, 0⟩
def BPM_DEEP_CFG_NOBUF_LOW : Fld := ⟨.BPM_DEEP_CFG, 0, 0, 16, 1024⟩
def BPM_DEEP_DIE_STATUS_DEEP_QUEUES (k : Nat) : Fld := ⟨.BPM_DEEP_DIE_STATUS, k, 0, 14, 0⟩
def BPM_DEEP_DIE_STATUS_LOST (k : Nat) : Fld := ⟨.BPM_DEEP_DIE_STATUS, k, 16, 16, 0⟩
def BPM_DEEP_DROP_CNT_COUNT (k : Nat) : Fld := ⟨.BPM_DEEP_DROP_CNT, k, 0, 32, 0⟩
def BPM_DEEP_Q_CFG_EN (k : Nat) : Fld := ⟨.BPM_DEEP_Q_CFG, k, 0, 1, 0⟩
def BPM_DEEP_Q_CFG_DRAIN_AHEAD (k : Nat) : Fld := ⟨.BPM_DEEP_Q_CFG, k, 12, 9, 64⟩
def BPM_DEEP_Q_ON_ON (k : Nat) : Fld := ⟨.BPM_DEEP_Q_ON, k, 0, 20, 0x4000⟩
def BPM_DEEP_Q_MAX_PAGES (k : Nat) : Fld := ⟨.BPM_DEEP_Q_MAX, k, 0, 24, 0x40000⟩
def BPM_DEEP_Q_STATUS_DEEP (k : Nat) : Fld := ⟨.BPM_DEEP_Q_STATUS, k, 0, 1, 0⟩
def BPM_DEEP_Q_STATUS_PAGES (k : Nat) : Fld := ⟨.BPM_DEEP_Q_STATUS, k, 1, 24, 0⟩
def ATL_CFG_UDP_PORT : Fld := ⟨.ATL_CFG, 0, 0, 16, 0x5a0d⟩
def ATL_TIMER_NACK_DELAY : Fld := ⟨.ATL_TIMER, 0, 0, 8, 50⟩
def ATL_TIMER_HOLDOFF_PERIOD : Fld := ⟨.ATL_TIMER, 0, 8, 8, 10⟩
def ATL_TIMER_HOLDOFF_EXT : Fld := ⟨.ATL_TIMER, 0, 16, 16, 50⟩
def ATL_STATUS_SESSIONS : Fld := ⟨.ATL_STATUS, 0, 0, 13, 0⟩
def ATL_STATUS_RESERVE_N : Fld := ⟨.ATL_STATUS, 0, 16, 2, 2⟩
def ATL_STATUS_RESERVE_S : Fld := ⟨.ATL_STATUS, 0, 18, 2, 2⟩
def ATL_STATUS_HOLDING_OFF : Fld := ⟨.ATL_STATUS, 0, 20, 1, 0⟩
def ATL_ENG_STATUS_STATE (k : Nat) : Fld := ⟨.ATL_ENG_STATUS, k, 0, 2, (if k < 32 then 0 else 1)⟩
def ATL_ENG_STATUS_ROLE (k : Nat) : Fld := ⟨.ATL_ENG_STATUS, k, 2, 6, (if k < 32 then k else 0x3F)⟩
def ATL_ENG_STATUS_SESSIONS (k : Nat) : Fld := ⟨.ATL_ENG_STATUS, k, 8, 12, 0⟩
def ATL_DROP_CNT_COUNT (k : Nat) : Fld := ⟨.ATL_DROP_CNT, k, 0, 32, 0⟩
def ATL_INT_STATUS_BITS : Fld := ⟨.ATL_INT_STATUS, 0, 0, 32, 0⟩
def ATL_INT_MASK_BITS : Fld := ⟨.ATL_INT_MASK, 0, 0, 32, 0⟩
def ATL_SESS_CFG_FORMAT (k : Nat) : Fld := ⟨.ATL_SESS_CFG, k, 0, 4, 0⟩
def ATL_SESS_CFG_OP (k : Nat) : Fld := ⟨.ATL_SESS_CFG, k, 4, 4, 0⟩
def ATL_SESS_CFG_KIND (k : Nat) : Fld := ⟨.ATL_SESS_CFG, k, 8, 2, 0⟩
def ATL_SESS_CFG_INT_SAT (k : Nat) : Fld := ⟨.ATL_SESS_CFG, k, 10, 1, 0⟩
def ATL_SESS_CFG_FP_SAT (k : Nat) : Fld := ⟨.ATL_SESS_CFG, k, 11, 1, 0⟩
def ATL_SESS_CFG_WINDOW (k : Nat) : Fld := ⟨.ATL_SESS_CFG, k, 12, 4, 0⟩
def ATL_SESS_CFG_CHUNK_ELEMS (k : Nat) : Fld := ⟨.ATL_SESS_CFG, k, 16, 14, 0⟩
def ATL_SESS_ROLES_ROLES (k : Nat) : Fld := ⟨.ATL_SESS_ROLES, k, 0, 32, 0⟩
def ATL_SESS_TIMEOUT_TIMEOUT (k : Nat) : Fld := ⟨.ATL_SESS_TIMEOUT, k, 0, 16, 0⟩
def ATL_SESS_TIMEOUT_HOLDOFF_HOSTS (k : Nat) : Fld := ⟨.ATL_SESS_TIMEOUT, k, 16, 1, 0⟩
def ATL_SESS_MEMBERS_COUNT (k : Nat) : Fld := ⟨.ATL_SESS_MEMBERS, k, 0, 10, 0⟩
def ATL_SESS_MEMBERS_BASE (k : Nat) : Fld := ⟨.ATL_SESS_MEMBERS, k, 10, 16, 0⟩
def ATL_SESS_ROOT_ROOT (k : Nat) : Fld := ⟨.ATL_SESS_ROOT, k, 0, 10, 1023⟩
def ATL_SESS_ROOT_PARENT (k : Nat) : Fld := ⟨.ATL_SESS_ROOT, k, 16, 10, 1023⟩
def ATL_SESS_MCAST_GROUP (k : Nat) : Fld := ⟨.ATL_SESS_MCAST, k, 0, 16, 0⟩
def ATL_SESS_STATUS_STATE (k : Nat) : Fld := ⟨.ATL_SESS_STATUS, k, 0, 3, 0⟩
def ATL_SESS_STATUS_CAUSE (k : Nat) : Fld := ⟨.ATL_SESS_STATUS, k, 3, 3, 0⟩
def ATL_SESS_STATUS_OPEN_CHUNKS (k : Nat) : Fld := ⟨.ATL_SESS_STATUS, k, 6, 4, 0⟩
def ATL_SESS_STATUS_LAST_MEMBER (k : Nat) : Fld := ⟨.ATL_SESS_STATUS, k, 10, 10, 0⟩
def ATL_SESS_OPSEQ_OPSEQ (k : Nat) : Fld := ⟨.ATL_SESS_OPSEQ, k, 0, 32, 0⟩
def ATL_SESS_DONE_COUNT (k : Nat) : Fld := ⟨.ATL_SESS_DONE, k, 0, 64, 0⟩
def ATL_SESS_EVT_NACKS (k : Nat) : Fld := ⟨.ATL_SESS_EVT, k, 0, 12, 0⟩
def ATL_SESS_EVT_HOLDOFFS (k : Nat) : Fld := ⟨.ATL_SESS_EVT, k, 12, 12, 0⟩
def ATL_SESS_EVT_RESTARTS (k : Nat) : Fld := ⟨.ATL_SESS_EVT, k, 24, 8, 0⟩
def ATL_SESS_SPILL_RESERVED (k : Nat) : Fld := ⟨.ATL_SESS_SPILL, k, 0, 16, 0⟩
def ATL_SESS_SPILL_IN_USE (k : Nat) : Fld := ⟨.ATL_SESS_SPILL, k, 16, 16, 0⟩
def ATL_MEMBER_KIND (k : Nat) : Fld := ⟨.ATL_MEMBER, k, 0, 2, 3⟩
def ATL_MEMBER_IPV6 (k : Nat) : Fld := ⟨.ATL_MEMBER, k, 2, 1, 0⟩
def ATL_MEMBER_PORT (k : Nat) : Fld := ⟨.ATL_MEMBER, k, 3, 10, 0⟩
def ATL_MEMBER_REMOTE_SESSION (k : Nat) : Fld := ⟨.ATL_MEMBER, k, 16, 12, 0⟩
def ATL_MEMBER_W1_UDP_SRC (k : Nat) : Fld := ⟨.ATL_MEMBER_W1, k, 0, 16, 0⟩
def ATL_MEMBER_W1_REMOTE_MEMBER (k : Nat) : Fld := ⟨.ATL_MEMBER_W1, k, 16, 10, 0⟩
def ATL_MEMBER_ADDR_WORD (k : Nat) : Fld := ⟨.ATL_MEMBER_ADDR, k, 0, 32, 0⟩
def TEL_CFG_POSTCARD_COL : Fld := ⟨.TEL_CFG, 0, 0, 4, 0⟩
def TEL_CFG_DROP_COL : Fld := ⟨.TEL_CFG, 0, 4, 4, 0⟩
def TEL_CFG_FLOW_COL : Fld := ⟨.TEL_CFG, 0, 8, 4, 0⟩
def TEL_CFG_QS_COL : Fld := ⟨.TEL_CFG, 0, 12, 4, 0⟩
def TEL_CFG_EN : Fld := ⟨.TEL_CFG, 0, 16, 1, 0⟩
def TEL_SOURCE_ID_ID : Fld := ⟨.TEL_SOURCE_ID, 0, 0, 32, 0⟩
def TEL_IOAM_NODE_NODE : Fld := ⟨.TEL_IOAM_NODE, 0, 0, 24, 0⟩
def TEL_IOAM_NODE_W_NODE : Fld := ⟨.TEL_IOAM_NODE_W, 0, 0, 56, 0⟩
def TEL_STATUS_REFUSED : Fld := ⟨.TEL_STATUS, 0, 0, 32, 0⟩
def TEL_INT_STATUS_BITS : Fld := ⟨.TEL_INT_STATUS, 0, 0, 32, 0⟩
def TEL_INT_MASK_BITS : Fld := ⟨.TEL_INT_MASK, 0, 0, 32, 0⟩
def TEL_COLLECTOR_IPV6 (k : Nat) : Fld := ⟨.TEL_COLLECTOR, k, 0, 1, 0⟩
def TEL_COLLECTOR_PORT (k : Nat) : Fld := ⟨.TEL_COLLECTOR, k, 1, 10, 0⟩
def TEL_COLLECTOR_QUEUE (k : Nat) : Fld := ⟨.TEL_COLLECTOR, k, 11, 4, 0⟩
def TEL_COLLECTOR_UDP_UDP_DST (k : Nat) : Fld := ⟨.TEL_COLLECTOR_UDP, k, 0, 16, 0⟩
def TEL_COLLECTOR_UDP_UDP_SRC (k : Nat) : Fld := ⟨.TEL_COLLECTOR_UDP, k, 16, 16, 0⟩
def TEL_COLLECTOR_RATE_RATE (k : Nat) : Fld := ⟨.TEL_COLLECTOR_RATE, k, 0, 24, 0x2710⟩
def TEL_COLLECTOR_MAC_WORD (k : Nat) : Fld := ⟨.TEL_COLLECTOR_MAC, k, 0, 32, 0⟩
def TEL_COLLECTOR_DST_WORD (k : Nat) : Fld := ⟨.TEL_COLLECTOR_DST, k, 0, 32, 0⟩
def TEL_COLLECTOR_SRC_WORD (k : Nat) : Fld := ⟨.TEL_COLLECTOR_SRC, k, 0, 32, 0⟩
def TEL_DROP_EN_MASK (k : Nat) : Fld := ⟨.TEL_DROP_EN, k, 0, 32, 0⟩
def TEL_DROP_ALL_MASK (k : Nat) : Fld := ⟨.TEL_DROP_ALL, k, 0, 32, 0⟩
def TEL_QS_SEL_QUEUE (k : Nat) : Fld := ⟨.TEL_QS_SEL, k, 0, 14, 0⟩
def TEL_QS_SEL_VALID (k : Nat) : Fld := ⟨.TEL_QS_SEL, k, 31, 1, 0⟩
def TEL_FLOW_CFG_IDLE : Fld := ⟨.TEL_FLOW_CFG, 0, 0, 16, 60⟩
def TEL_FLOW_CFG_ACTIVE : Fld := ⟨.TEL_FLOW_CFG, 0, 16, 16, 1800⟩
def TEL_FLOW_STATUS_FULL : Fld := ⟨.TEL_FLOW_STATUS, 0, 0, 16, 0⟩
def TEL_FLOW_STATUS_LOST : Fld := ⟨.TEL_FLOW_STATUS, 0, 16, 16, 0⟩
def TEL_FLOW_RD_KEY_KEY : Fld := ⟨.TEL_FLOW_RD_KEY, 0, 0, 64, 0⟩
def TEL_FLOW_RD_GO_GO : Fld := ⟨.TEL_FLOW_RD_GO, 0, 0, 1, 0⟩
def TEL_FLOW_RD_STAT_BUSY : Fld := ⟨.TEL_FLOW_RD_STAT, 0, 0, 1, 0⟩
def TEL_FLOW_RD_STAT_FOUND : Fld := ⟨.TEL_FLOW_RD_STAT, 0, 1, 1, 0⟩
def TEL_FLOW_RD_REC_WORD (k : Nat) : Fld := ⟨.TEL_FLOW_RD_REC, k, 0, 32, 0⟩
def TEL_DROP_CNT_COUNT (k : Nat) : Fld := ⟨.TEL_DROP_CNT, k, 0, 64, 0⟩
def CNT_DUMP_CFG_EN : Fld := ⟨.CNT_DUMP_CFG, 0, 0, 1, 0⟩
def CNT_DUMP_CFG_TARGET : Fld := ⟨.CNT_DUMP_CFG, 0, 1, 1, 0⟩
def CNT_DUMP_CFG_STACK : Fld := ⟨.CNT_DUMP_CFG, 0, 2, 3, 0⟩
def CNT_DUMP_CFG_ALIGN : Fld := ⟨.CNT_DUMP_CFG, 0, 5, 1, 1⟩
def CNT_DUMP_CFG_SOURCE : Fld := ⟨.CNT_DUMP_CFG, 0, 6, 1, 0⟩
def CNT_DUMP_CFG_SETS : Fld := ⟨.CNT_DUMP_CFG, 0, 7, 5, 7⟩
def CNT_DUMP_CFG_INT : Fld := ⟨.CNT_DUMP_CFG, 0, 12, 1, 0⟩
def CNT_DUMP_PERIOD_PERIOD : Fld := ⟨.CNT_DUMP_PERIOD, 0, 0, 17, 0x2710⟩
def CNT_DUMP_BASE_BASE : Fld := ⟨.CNT_DUMP_BASE, 0, 0, 64, 0⟩
def CNT_DUMP_RING_SLOTS : Fld := ⟨.CNT_DUMP_RING, 0, 0, 16, 0⟩
def CNT_DUMP_RING_SLOT_KIB : Fld := ⟨.CNT_DUMP_RING, 0, 16, 16, 0⟩
def CNT_DUMP_PROD_PROD : Fld := ⟨.CNT_DUMP_PROD, 0, 0, 32, 0⟩
def CNT_DUMP_CONS_CONS : Fld := ⟨.CNT_DUMP_CONS, 0, 0, 32, 0⟩
def CNT_DUMP_STATUS_BUSY : Fld := ⟨.CNT_DUMP_STATUS, 0, 0, 1, 0⟩
def CNT_DUMP_STATUS_CFG_ERR : Fld := ⟨.CNT_DUMP_STATUS, 0, 1, 1, 0⟩
def CNT_DUMP_STATUS_MISSED : Fld := ⟨.CNT_DUMP_STATUS, 0, 16, 16, 0⟩
def CNT_DUMP_SEQ_SEQ : Fld := ⟨.CNT_DUMP_SEQ, 0, 0, 32, 0⟩
def CNT_USER_PAGES_MASK (k : Nat) : Fld := ⟨.CNT_USER_PAGES, k, 0, 32, 0⟩
def CNT_INT_STATUS_BITS : Fld := ⟨.CNT_INT_STATUS, 0, 0, 32, 0⟩
def CNT_INT_MASK_BITS : Fld := ⟨.CNT_INT_MASK, 0, 0, 32, 0⟩
def CNT_TD_COUNT (k : Nat) : Fld := ⟨.CNT_TD, k, 0, 64, 0⟩
def CNT_SEL_EVENT (k : Nat) : Fld := ⟨.CNT_SEL, k, 0, 8, 0⟩
def CNT_SEL_ARG (k : Nat) : Fld := ⟨.CNT_SEL, k, 8, 8, 255⟩
def CNT_SEL_PIPE_MASK (k : Nat) : Fld := ⟨.CNT_SEL, k, 16, 10, 1023⟩
def CNT_CTL_EN (k : Nat) : Fld := ⟨.CNT_CTL, k, 0, 1, 0⟩
def CNT_CTL_RELOAD (k : Nat) : Fld := ⟨.CNT_CTL, k, 1, 1, 0⟩
def CNT_CTL_INT (k : Nat) : Fld := ⟨.CNT_CTL, k, 2, 1, 0⟩
def CNT_CTL_SAMPLE (k : Nat) : Fld := ⟨.CNT_CTL, k, 3, 1, 0⟩
def CNT_CTL_RING (k : Nat) : Fld := ⟨.CNT_CTL, k, 4, 6, 0⟩
def CNT_CTL_OVF (k : Nat) : Fld := ⟨.CNT_CTL, k, 10, 1, 0⟩
def CNT_VALUE_VALUE (k : Nat) : Fld := ⟨.CNT_VALUE, k, 0, 48, 0⟩
def CNT_PRESET_VALUE (k : Nat) : Fld := ⟨.CNT_PRESET, k, 0, 48, 0⟩
def CNT_MIB_COUNT (k : Nat) : Fld := ⟨.CNT_MIB, k, 0, 64, 0⟩
def CNT_MIB_DISC_TIME (k : Nat) : Fld := ⟨.CNT_MIB_DISC, k, 0, 64, 0⟩
def RAS_CFG_FATAL_STOP : Fld := ⟨.RAS_CFG, 0, 0, 1, 1⟩
def RAS_CFG_CE_LOG : Fld := ⟨.RAS_CFG, 0, 1, 1, 1⟩
def RAS_CLASS_CNT_COUNT (k : Nat) : Fld := ⟨.RAS_CLASS_CNT, k, 0, 32, 0⟩
def RAS_FATAL_FIRST_WORD (k : Nat) : Fld := ⟨.RAS_FATAL_FIRST, k, 0, 32, 0⟩
def RAS_LOG_WR_SEQ : Fld := ⟨.RAS_LOG_WR, 0, 0, 32, 0⟩
def RAS_LOG_RD_SEQ : Fld := ⟨.RAS_LOG_RD, 0, 0, 32, 0⟩
def RAS_LOG_OVERRUN_COUNT : Fld := ⟨.RAS_LOG_OVERRUN, 0, 0, 32, 0⟩
def RAS_SPARE_POLICY_MODE : Fld := ⟨.RAS_SPARE_POLICY, 0, 0, 2, 0⟩
def RAS_SPARE_POLICY_ASK_KINDS : Fld := ⟨.RAS_SPARE_POLICY, 0, 2, 8, 0⟩
def RAS_SPARE_STATUS_LIFE_VOID : Fld := ⟨.RAS_SPARE_STATUS, 0, 0, 1, 0⟩
def RAS_SPARE_STATUS_BUSY : Fld := ⟨.RAS_SPARE_STATUS, 0, 1, 1, 0⟩
def RAS_SPARE_STATUS_REQS : Fld := ⟨.RAS_SPARE_STATUS, 0, 2, 5, 0⟩
def RAS_SPARE_STATUS_SWAPS : Fld := ⟨.RAS_SPARE_STATUS, 0, 16, 16, 0⟩
def RAS_SPARE_SUMMARY_TOTAL (k : Nat) : Fld := ⟨.RAS_SPARE_SUMMARY, k, 0, 16, (rasSpareTotal k)⟩
def RAS_SPARE_SUMMARY_FREE (k : Nat) : Fld := ⟨.RAS_SPARE_SUMMARY, k, 16, 16, (rasSpareTotal k)⟩
def RAS_SPARE_SUMMARY_HI_FUSE (k : Nat) : Fld := ⟨.RAS_SPARE_SUMMARY_HI, k, 0, 16, 0⟩
def RAS_SPARE_SUMMARY_HI_FAILED (k : Nat) : Fld := ⟨.RAS_SPARE_SUMMARY_HI, k, 16, 16, 0⟩
def RAS_SPARE_REQ_VALID (k : Nat) : Fld := ⟨.RAS_SPARE_REQ, k, 0, 1, 0⟩
def RAS_SPARE_REQ_KIND (k : Nat) : Fld := ⟨.RAS_SPARE_REQ, k, 1, 3, 0⟩
def RAS_SPARE_REQ_TRIGGER (k : Nat) : Fld := ⟨.RAS_SPARE_REQ, k, 4, 1, 0⟩
def RAS_SPARE_REQ_OBJ_OBJECT (k : Nat) : Fld := ⟨.RAS_SPARE_REQ_OBJ, k, 0, 32, 0⟩
def RAS_SPARE_REQ_AGE_AGE (k : Nat) : Fld := ⟨.RAS_SPARE_REQ_AGE, k, 0, 16, 0⟩
def RAS_SPARE_THRESH_THRESH (k : Nat) : Fld := ⟨.RAS_SPARE_THRESH, k, 0, 16, (rasThreshReset k)⟩
def RAS_TM_CFG_SRC_EN : Fld := ⟨.RAS_TM_CFG, 0, 0, 4, 15⟩
def RAS_TM_CFG_ERR_CLASS : Fld := ⟨.RAS_TM_CFG, 0, 4, 5, 8⟩
def RAS_TM_CFG_HOLD : Fld := ⟨.RAS_TM_CFG, 0, 9, 1, 0⟩
def RAS_TM_CFG_HELD : Fld := ⟨.RAS_TM_CFG, 0, 10, 1, 0⟩
def RAS_TM_CFG_OUT_SRC : Fld := ⟨.RAS_TM_CFG, 0, 11, 4, 15⟩
def RAS_TM_CFG_FIRE : Fld := ⟨.RAS_TM_CFG, 0, 15, 1, 0⟩
def RAS_TM_CFG_ERR_CODE : Fld := ⟨.RAS_TM_CFG, 0, 16, 16, 0⟩
def RAS_TM_SEQ_SEQ : Fld := ⟨.RAS_TM_SEQ, 0, 0, 32, 0⟩
def RAS_TM_IGNORED_COUNT : Fld := ⟨.RAS_TM_IGNORED, 0, 0, 32, 0⟩
def RAS_INT_STATUS_BITS : Fld := ⟨.RAS_INT_STATUS, 0, 0, 32, 0⟩
def RAS_INT_MASK_BITS : Fld := ⟨.RAS_INT_MASK, 0, 0, 32, 0x11⟩
def RAS_ALERT_EN_EN : Fld := ⟨.RAS_ALERT_EN, 0, 0, 5, 0xC⟩
def RAS_LOG_WORD (k : Nat) : Fld := ⟨.RAS_LOG, k, 0, 32, 0⟩
def DBG_CTL_ARM : Fld := ⟨.DBG_CTL, 0, 0, 1, 0⟩
def DBG_CTL_SPARE_COUNT : Fld := ⟨.DBG_CTL, 0, 1, 1, 0⟩
def DBG_CTL_ACTIVE : Fld := ⟨.DBG_CTL, 0, 2, 1, 0⟩
def DBG_PERTURB_CWAY_DIR : Fld := ⟨.DBG_PERTURB_CWAY, 0, 0, 1, 0⟩
def DBG_PERTURB_CWAY_BUNDLE : Fld := ⟨.DBG_PERTURB_CWAY, 0, 1, 6, 0⟩
def DBG_PERTURB_CWAY_DELAY : Fld := ⟨.DBG_PERTURB_CWAY, 0, 7, 10, 0⟩
def DBG_PERTURB_CWAY_W1_CRC_EVERY : Fld := ⟨.DBG_PERTURB_CWAY_W1, 0, 17, 15, 0⟩
def DBG_PERTURB_TM_PORT : Fld := ⟨.DBG_PERTURB_TM, 0, 0, 10, 0⟩
def DBG_PERTURB_TM_STALL : Fld := ⟨.DBG_PERTURB_TM, 0, 16, 10, 0⟩
def DBG_PERTURB_TM_W1_PERIOD : Fld := ⟨.DBG_PERTURB_TM_W1, 0, 0, 32, 0⟩
def DBG_PERTURB_HBM_STACKS : Fld := ⟨.DBG_PERTURB_HBM, 0, 0, 6, 0⟩
def DBG_PERTURB_HBM_DELAY : Fld := ⟨.DBG_PERTURB_HBM, 0, 16, 12, 0⟩
def DBG_PERTURB_PFC_PORT : Fld := ⟨.DBG_PERTURB_PFC, 0, 0, 10, 0⟩
def DBG_PERTURB_PFC_PRIOS : Fld := ⟨.DBG_PERTURB_PFC, 0, 16, 8, 0⟩
def DBG_PERTURB_PFC_DIR : Fld := ⟨.DBG_PERTURB_PFC, 0, 24, 1, 0⟩
def DBG_PERTURB_LANE_LANE : Fld := ⟨.DBG_PERTURB_LANE, 0, 0, 10, 0⟩
def DBG_PERTURB_LANE_SYMS : Fld := ⟨.DBG_PERTURB_LANE, 0, 10, 6, 0⟩
def DBG_PERTURB_LANE_EVERY : Fld := ⟨.DBG_PERTURB_LANE, 0, 16, 16, 1⟩
def DBG_PERTURB_ECC_KIND : Fld := ⟨.DBG_PERTURB_ECC, 0, 0, 3, 0⟩
def DBG_PERTURB_ECC_DOUBLE : Fld := ⟨.DBG_PERTURB_ECC, 0, 3, 1, 0⟩
def DBG_PERTURB_ECC_INSTANCE : Fld := ⟨.DBG_PERTURB_ECC, 0, 4, 16, 0⟩
def DBG_PERTURB_ECC_COUNT : Fld := ⟨.DBG_PERTURB_ECC, 0, 20, 8, 0⟩
def DBG_INT_STATUS_BITS : Fld := ⟨.DBG_INT_STATUS, 0, 0, 32, 0⟩
def DBG_INT_MASK_BITS : Fld := ⟨.DBG_INT_MASK, 0, 0, 32, 0⟩
def DBG_TM_SNAP_WORD (k : Nat) : Fld := ⟨.DBG_TM_SNAP, k, 0, 32, 0⟩

end F

end Sys2Proof.Machine
end

