-- ==== Sys2Proof/Machine/RegMap.lean ====
section
/-! DEFINITION. The address map: where each register lies (base, repetition, width) and which fields it has with which
access type (R17, R463, R464 and the register tables of each chapter). One row per name of RegName, in its order. -/

namespace Sys2Proof.Machine

/-- A row of the address map: the register, the address of its first instance, how it repeats ((first index, one past
the last, stride), the outer index first), whether it has 64 bits (R16), and the fields of instance `k` with their
access types. -/
structure RegRow where
  reg : RegName
  base : Nat
  dims : List (Nat × Nat × Nat)
  wide : Bool
  fields : Nat → List (Fld × Access)

def regRows0 : List RegRow := [
  ⟨.CHIP_ID, 0x0, [], false, fun _ => [(F.CHIP_ID_DEVICE, .ro), (F.CHIP_ID_GRADE, .ro), (F.CHIP_ID_STEP_MAJOR, .ro), (F.CHIP_ID_STEP_MINOR, .ro)]⟩,
  ⟨.CHIP_WDISCARD_ADDR, 0x100, [], false, fun _ => [(F.CHIP_WDISCARD_ADDR_ADDR, .ro)]⟩,
  ⟨.CHIP_WDISCARD_STATE, 0x104, [], false, fun _ => [(F.CHIP_WDISCARD_STATE_STATE, .ro), (F.CHIP_WDISCARD_STATE_REASON, .ro), (F.CHIP_WDISCARD_STATE_SOURCE, .ro), (F.CHIP_WDISCARD_STATE_VF, .ro)]⟩,
  ⟨.CHIP_WDISCARD_CNT, 0x108, [], false, fun _ => [(F.CHIP_WDISCARD_CNT_COUNT, .rc)]⟩,
  ⟨.CHIP_INT_SUMMARY, 0x800, [], true, fun _ => [(F.CHIP_INT_SUMMARY_BITS, .ro)]⟩,
  ⟨.CHIP_INT_ISL, 0x808, [], true, fun _ => [(F.CHIP_INT_ISL_BITS, .ro)]⟩,
  ⟨.CHIP_VEC_MAP, 0xA00, [(0, 39, 0x4)], false, fun k => [(F.CHIP_VEC_MAP_VECTOR k, .rw)]⟩,
  ⟨.CHIP_INT_STATUS, 0xF00, [], false, fun _ => [(F.CHIP_INT_STATUS_BITS, .w1c)]⟩,
  ⟨.CHIP_INT_MASK, 0xF04, [], false, fun _ => [(F.CHIP_INT_MASK_BITS, .rw)]⟩,
  ⟨.BOOT_STATUS, 0x100000, [], false, fun _ => [(F.BOOT_STATUS_STAGE, .ro), (F.BOOT_STATUS_SRC, .ro), (F.BOOT_STATUS_USED, .ro), (F.BOOT_STATUS_ELAPSED, .ro)]⟩,
  ⟨.BOOT_ERR, 0x100004, [], false, fun _ => [(F.BOOT_ERR_CODE, .ro), (F.BOOT_ERR_SOURCE, .ro), (F.BOOT_ERR_STAGED, .ro), (F.BOOT_ERR_COUNT, .ro)]⟩,
  ⟨.BOOT_IMAGE, 0x100010, [], false, fun _ => [(F.BOOT_IMAGE_IMAGE_ID, .ro)]⟩,
  ⟨.BOOT_IMAGE_SVN, 0x100014, [], false, fun _ => [(F.BOOT_IMAGE_SVN_SVN, .ro)]⟩,
  ⟨.BOOT_STAGED, 0x100018, [], false, fun _ => [(F.BOOT_STAGED_IMAGE_ID, .ro)]⟩,
  ⟨.BOOT_KEY_STATUS, 0x100020, [], false, fun _ => [(F.BOOT_KEY_STATUS_PROGRAMMED, .ro), (F.BOOT_KEY_STATUS_REVOKED, .ro), (F.BOOT_KEY_STATUS_SLOT_USED, .ro), (F.BOOT_KEY_STATUS_SVN_FLOOR, .ro)]⟩,
  ⟨.BOOT_PCIE_ADDR, 0x100030, [], true, fun _ => [(F.BOOT_PCIE_ADDR_ADDR, .rwl)]⟩,
  ⟨.BOOT_PCIE_LEN, 0x100038, [], false, fun _ => [(F.BOOT_PCIE_LEN_LEN, .rwl)]⟩,
  ⟨.BOOT_PCIE_GO, 0x10003C, [], false, fun _ => [(F.BOOT_PCIE_GO_GO, .rwl)]⟩,
  ⟨.BOOT_KEY_DIGEST, 0x100100, [(0, 4, 0x40), (0, 12, 0x4)], false, fun k => [(F.BOOT_KEY_DIGEST_WORD k, .ro)]⟩,
  ⟨.BOOT_INT_STATUS, 0x100F00, [], false, fun _ => [(F.BOOT_INT_STATUS_BITS, .w1c)]⟩,
  ⟨.BOOT_INT_MASK, 0x100F04, [], false, fun _ => [(F.BOOT_INT_MASK_BITS, .rw)]⟩,
  ⟨.CLK_CFG, 0x200000, [], false, fun _ => [(F.CLK_CFG_REF_A, .rwl), (F.CLK_CFG_REF_B, .rwl), (F.CLK_CFG_SWITCH, .w1s)]⟩,
  ⟨.CLK_STATUS, 0x200004, [], false, fun _ => [(F.CLK_STATUS_A_STATE, .ro), (F.CLK_STATUS_B_STATE, .ro), (F.CLK_STATUS_REF0_OK, .ro), (F.CLK_STATUS_REF1_OK, .ro), (F.CLK_STATUS_ALIGNED, .ro), (F.CLK_STATUS_TAKEOVERS, .ro)]⟩,
  ⟨.CLK_CORE, 0x200010, [], false, fun _ => [(F.CLK_CORE_DIV, .ro), (F.CLK_CORE_STRETCH, .ro), (F.CLK_CORE_PENDING, .ro), (F.CLK_CORE_DEFERRED_BY_DROOP, .ro), (F.CLK_CORE_CHANGES, .ro)]⟩,
  ⟨.CLK_INT_STATUS, 0x200F00, [], false, fun _ => [(F.CLK_INT_STATUS_BITS, .w1c)]⟩,
  ⟨.CLK_INT_MASK, 0x200F04, [], false, fun _ => [(F.CLK_INT_MASK_BITS, .rw)]⟩,
  ⟨.PWR_CFG, 0x300000, [], false, fun _ => [(F.PWR_CFG_MODE, .rwl), (F.PWR_CFG_BOOST_EN, .rw), (F.PWR_CFG_SAVE, .rw), (F.PWR_CFG_FERRY_EN, .rwl), (F.PWR_CFG_CAP_HYST, .rw)]⟩,
  ⟨.PWR_PRIO, 0x300004, [], false, fun _ => [(F.PWR_PRIO_FIRST, .rw), (F.PWR_PRIO_SECOND, .rw), (F.PWR_PRIO_LAST, .rw), (F.PWR_PRIO_PRIO_ERR, .ro)]⟩,
  ⟨.PWR_CAP, 0x300008, [], false, fun _ => [(F.PWR_CAP_CAP, .rwl)]⟩,
  ⟨.PWR_CAP_LIMIT, 0x30000C, [], false, fun _ => [(F.PWR_CAP_LIMIT_MIN, .rw), (F.PWR_CAP_LIMIT_MAX, .rw)]⟩,
  ⟨.PWR_FREQ_BOUND, 0x300010, [], false, fun _ => [(F.PWR_FREQ_BOUND_FLOOR, .rw), (F.PWR_FREQ_BOUND_CEIL, .rw)]⟩,
  ⟨.PWR_VOLT_BOUND, 0x300014, [], false, fun _ => [(F.PWR_VOLT_BOUND_FLOOR, .rw), (F.PWR_VOLT_BOUND_CEIL, .rw)]⟩,
  ⟨.PWR_IMAX, 0x300018, [], false, fun _ => [(F.PWR_IMAX_IMAX, .rw)]⟩,
  ⟨.PWR_DOM_FLOOR, 0x300020, [(0, 3, 0x4)], false, fun k => [(F.PWR_DOM_FLOOR_FLOOR k, .rw)]⟩,
  ⟨.PWR_STATUS, 0x300040, [], false, fun _ => [(F.PWR_STATUS_STATE, .ro), (F.PWR_STATUS_CAP_UNMET, .ro), (F.PWR_STATUS_FREQ_PINNED, .ro), (F.PWR_STATUS_VOLT_PINNED, .ro), (F.PWR_STATUS_THERM_THROTTLE, .ro), (F.PWR_STATUS_ILIMIT, .ro), (F.PWR_STATUS_HOLDING_OFF, .ro), (F.PWR_STATUS_PWRFAIL, .ro), (F.PWR_STATUS_DUTY, .ro)]⟩,
  ⟨.PWR_POWER, 0x300044, [], false, fun _ => [(F.PWR_POWER_TOTAL, .ro), (F.PWR_POWER_VCORE, .ro)]⟩,
  ⟨.PWR_CAP_EFF, 0x300050, [], false, fun _ => [(F.PWR_CAP_EFF_CAP, .ro), (F.PWR_CAP_EFF_SOURCE, .ro)]⟩,
  ⟨.PWR_PINNED_CNT, 0x300058, [], false, fun _ => [(F.PWR_PINNED_CNT_FREQ, .rc), (F.PWR_PINNED_CNT_VOLT, .rc)]⟩,
  ⟨.PWR_OVERRIDE_CNT, 0x30005C, [], false, fun _ => [(F.PWR_OVERRIDE_CNT_THERMAL, .rc), (F.PWR_OVERRIDE_CNT_ILIMIT, .rc), (F.PWR_OVERRIDE_CNT_DROOP, .rc), (F.PWR_OVERRIDE_CNT_PACKAGE, .rc)]⟩,
  ⟨.PWR_DROOP_CFG, 0x300060, [], false, fun _ => [(F.PWR_DROOP_CFG_THRESH, .rw), (F.PWR_DROOP_CFG_MIN_CYCLES, .rw)]⟩]

def regRows1 : List RegRow := [
  ⟨.PWR_DROOP_CNT, 0x300064, [], false, fun _ => [(F.PWR_DROOP_CNT_COUNT, .rc)]⟩,
  ⟨.PWR_THERM_CFG, 0x300070, [], false, fun _ => [(F.PWR_THERM_CFG_THROTTLE, .rw), (F.PWR_THERM_CFG_HYST, .rw)]⟩,
  ⟨.PWR_THERM_STATUS, 0x300074, [], false, fun _ => [(F.PWR_THERM_STATUS_TJ, .ro), (F.PWR_THERM_STATUS_SENSOR, .ro)]⟩,
  ⟨.PWR_DOM_STATUS, 0x300080, [(0, 3, 0x4)], false, fun k => [(F.PWR_DOM_STATUS_POWER k, .ro), (F.PWR_DOM_STATUS_STEPS k, .ro), (F.PWR_DOM_STATUS_AT_FLOOR k, .ro)]⟩,
  ⟨.PWR_IDLE_EN, 0x300100, [(0, 16, 0x4)], false, fun k => [(F.PWR_IDLE_EN_PORTS k, .rw)]⟩,
  ⟨.PWR_LINK_LIMIT, 0x300140, [(0, 16, 0x4)], false, fun k => [(F.PWR_LINK_LIMIT_PORTS k, .rw)]⟩,
  ⟨.PWR_INT_STATUS, 0x300F00, [], false, fun _ => [(F.PWR_INT_STATUS_BITS, .w1c)]⟩,
  ⟨.PWR_INT_MASK, 0x300F04, [], false, fun _ => [(F.PWR_INT_MASK_BITS, .rw)]⟩,
  ⟨.PWR_SENSOR, 0x301000, [(0, 128, 0x4)], false, fun k => [(F.PWR_SENSOR_TEMP k, .ro)]⟩,
  ⟨.PWR_AGE, 0x302000, [(0, 256, 0x4)], false, fun k => [(F.PWR_AGE_DELAY k, .ro)]⟩,
  ⟨.PWR_FERRY_CFG, 0x304000, [], false, fun _ => [(F.PWR_FERRY_CFG_ETYPE, .rw), (F.PWR_FERRY_CFG_PRIO, .rw), (F.PWR_FERRY_CFG_SOFT_COORD, .rw), (F.PWR_FERRY_CFG_RING, .rw)]⟩,
  ⟨.PWR_FERRY_JOB, 0x304004, [], false, fun _ => [(F.PWR_FERRY_JOB_JOB, .rwl)]⟩,
  ⟨.PWR_FERRY_CTL, 0x304008, [], false, fun _ => [(F.PWR_FERRY_CTL_PERIOD, .rw), (F.PWR_FERRY_CTL_MOVES, .rw), (F.PWR_FERRY_CTL_REVERT, .rw)]⟩,
  ⟨.PWR_FERRY_TOTAL, 0x30400C, [], false, fun _ => [(F.PWR_FERRY_TOTAL_TOTAL, .rw)]⟩,
  ⟨.PWR_FERRY_STATUS, 0x304010, [], false, fun _ => [(F.PWR_FERRY_STATUS_ROLE, .ro), (F.PWR_FERRY_STATUS_UP, .ro), (F.PWR_FERRY_STATUS_MEMBERS, .ro)]⟩,
  ⟨.PWR_FERRY_COORD, 0x304018, [], true, fun _ => [(F.PWR_FERRY_COORD_SERIAL, .ro)]⟩,
  ⟨.FERRY_UNTRUSTED, 0x304020, [], false, fun _ => [(F.FERRY_UNTRUSTED_COUNT, .rc)]⟩,
  ⟨.FERRY_FOREIGN, 0x304024, [], false, fun _ => [(F.FERRY_FOREIGN_COUNT, .rc)]⟩,
  ⟨.PWR_FERRY_PORT, 0x304100, [(0, 32, 0x4)], false, fun k => [(F.PWR_FERRY_PORT_PORT k, .rwl), (F.PWR_FERRY_PORT_VALID k, .rwl)]⟩,
  ⟨.KEEP_CFG, 0x400000, [], false, fun _ => [(F.KEEP_CFG_PWRFAIL_EN, .rw), (F.KEEP_CFG_VKEEP_EN, .rw), (F.KEEP_CFG_THERM_EN, .rw), (F.KEEP_CFG_TEST_SAVE, .rwl)]⟩,
  ⟨.KEEP_STATUS, 0x400004, [], false, fun _ => [(F.KEEP_STATUS_LAST, .ro), (F.KEEP_STATUS_SLOT, .ro), (F.KEEP_STATUS_RESTORED, .ro), (F.KEEP_STATUS_VKEEP, .ro)]⟩,
  ⟨.KEEP_SEQ, 0x400008, [], false, fun _ => [(F.KEEP_SEQ_SEQ, .ro)]⟩,
  ⟨.KEEP_SAVES, 0x40000C, [], false, fun _ => [(F.KEEP_SAVES_COMPLETE, .ro), (F.KEEP_SAVES_PARTIAL, .ro)]⟩,
  ⟨.KEEP_INT_STATUS, 0x400F00, [], false, fun _ => [(F.KEEP_INT_STATUS_BITS, .w1c)]⟩,
  ⟨.KEEP_INT_MASK, 0x400F04, [], false, fun _ => [(F.KEEP_INT_MASK_BITS, .rw)]⟩,
  ⟨.LIGHT_CTL, 0x500000, [(0, 2, 0x100)], false, fun k => [(F.LIGHT_CTL_MODE k, .rwl), (F.LIGHT_CTL_REQ k, .wo), (F.LIGHT_CTL_SNAP k, .w1s), (F.LIGHT_CTL_B_FOLLOW k, .rw), (F.LIGHT_CTL_SRC k, .rw), (F.LIGHT_CTL_KICK k, .w1s), (F.LIGHT_CTL_WD_TIMEOUT k, .rw)]⟩,
  ⟨.LIGHT_STATUS, 0x500004, [(0, 2, 0x100)], false, fun k => [(F.LIGHT_STATUS_STATE k, .ro), (F.LIGHT_STATUS_FOLLOWING_B k, .ro), (F.LIGHT_STATUS_RESTORED k, .ro), (F.LIGHT_STATUS_STEP_USED k, .ro), (F.LIGHT_STATUS_DISC k, .ro)]⟩,
  ⟨.LIGHT_RATE_ADJ, 0x500008, [(0, 2, 0x100)], true, fun k => [(F.LIGHT_RATE_ADJ_ADJ k, .rwl)]⟩,
  ⟨.LIGHT_INCR, 0x500010, [(0, 2, 0x100)], true, fun k => [(F.LIGHT_INCR_INCR k, .rwl)]⟩,
  ⟨.LIGHT_STEP_S, 0x500018, [(0, 2, 0x100)], true, fun k => [(F.LIGHT_STEP_S_S k, .rw)]⟩,
  ⟨.LIGHT_STEP_NS, 0x500020, [(0, 2, 0x100)], false, fun k => [(F.LIGHT_STEP_NS_NS k, .rw)]⟩,
  ⟨.LIGHT_STEP_FRAC, 0x500024, [(0, 2, 0x100)], false, fun k => [(F.LIGHT_STEP_FRAC_FRAC k, .rw)]⟩,
  ⟨.LIGHT_STEP_CTL, 0x500028, [(0, 2, 0x100)], false, fun k => [(F.LIGHT_STEP_CTL_GO k, .rwl), (F.LIGHT_STEP_CTL_KIND k, .rw), (F.LIGHT_STEP_CTL_RESULT k, .ro)]⟩,
  ⟨.LIGHT_SNAP_S, 0x500030, [(0, 2, 0x100)], true, fun k => [(F.LIGHT_SNAP_S_S k, .ro)]⟩,
  ⟨.LIGHT_SNAP_NS, 0x500038, [(0, 2, 0x100)], false, fun k => [(F.LIGHT_SNAP_NS_NS k, .ro)]⟩,
  ⟨.LIGHT_SNAP_FRAC, 0x50003C, [(0, 2, 0x100)], false, fun k => [(F.LIGHT_SNAP_FRAC_FRAC k, .ro)]⟩,
  ⟨.LIGHT_LEAD, 0x500300, [], false, fun _ => [(F.LIGHT_LEAD_LEAD, .rw)]⟩,
  ⟨.LIGHT_TICKS, 0x500308, [], true, fun _ => [(F.LIGHT_TICKS_TICKS, .ro)]⟩,
  ⟨.LIGHT_PPS_OUT_CFG, 0x500400, [], false, fun _ => [(F.LIGHT_PPS_OUT_CFG_EN, .rw), (F.LIGHT_PPS_OUT_CFG_DOMAIN, .rw), (F.LIGHT_PPS_OUT_CFG_WIDTH, .rw), (F.LIGHT_PPS_OUT_CFG_OFFSET, .rw)]⟩,
  ⟨.LIGHT_PPS_IN_CFG, 0x500404, [], false, fun _ => [(F.LIGHT_PPS_IN_CFG_EN, .rw), (F.LIGHT_PPS_IN_CFG_MISS, .rw)]⟩]

def regRows2 : List RegRow := [
  ⟨.LIGHT_PPS_IN_TS, 0x500410, [(0, 2, 0x8)], true, fun k => [(F.LIGHT_PPS_IN_TS_TS k, .ro)]⟩,
  ⟨.LIGHT_PPS_IN_STAT, 0x500420, [], false, fun _ => [(F.LIGHT_PPS_IN_STAT_OVERRUN, .ro), (F.LIGHT_PPS_IN_STAT_VALID, .ro)]⟩,
  ⟨.LIGHT_10M_PHASE, 0x500430, [], false, fun _ => [(F.LIGHT_10M_PHASE_PHASE, .ro), (F.LIGHT_10M_PHASE_VALID, .ro)]⟩,
  ⟨.LIGHT_TM_CMP_S, 0x500500, [], true, fun _ => [(F.LIGHT_TM_CMP_S_S, .rw)]⟩,
  ⟨.LIGHT_TM_CMP_NS, 0x500508, [], false, fun _ => [(F.LIGHT_TM_CMP_NS_NS, .rw), (F.LIGHT_TM_CMP_NS_ARM, .rw)]⟩,
  ⟨.LIGHT_INT_STATUS, 0x500F00, [], false, fun _ => [(F.LIGHT_INT_STATUS_BITS, .w1c)]⟩,
  ⟨.LIGHT_INT_MASK, 0x500F04, [], false, fun _ => [(F.LIGHT_INT_MASK_BITS, .rw)]⟩,
  ⟨.LIGHT_PORT_CFG, 0x504000, [(0, 512, 0x20)], false, fun k => [(F.LIGHT_PORT_CFG_DOMAIN k, .rwl), (F.LIGHT_PORT_CFG_ONE_STEP_EN k, .rw), (F.LIGHT_PORT_CFG_TWO_STEP_EN k, .rw), (F.LIGHT_PORT_CFG_TC_MODE k, .rw)]⟩,
  ⟨.LIGHT_PORT_DELAY, 0x504004, [(0, 512, 0x20)], false, fun k => [(F.LIGHT_PORT_DELAY_RX_DELAY k, .rw), (F.LIGHT_PORT_DELAY_TX_DELAY k, .rw)]⟩,
  ⟨.LIGHT_PORT_PDELAY, 0x504008, [(0, 512, 0x20)], false, fun k => [(F.LIGHT_PORT_PDELAY_DELAY k, .rw)]⟩,
  ⟨.LIGHT_TS_LOST, 0x50400C, [(0, 512, 0x20)], false, fun k => [(F.LIGHT_TS_LOST_COUNT k, .rc)]⟩,
  ⟨.LIGHT_TS_BADOFF, 0x504010, [(0, 512, 0x20)], false, fun k => [(F.LIGHT_TS_BADOFF_COUNT k, .rc)]⟩,
  ⟨.LIGHT_TSF_STATUS, 0x508000, [(0, 16, 0x100)], false, fun k => [(F.LIGHT_TSF_STATUS_COUNT k, .ro)]⟩,
  ⟨.LIGHT_TSF_CFG, 0x508004, [(0, 16, 0x100)], false, fun k => [(F.LIGHT_TSF_CFG_LEVEL k, .rw)]⟩,
  ⟨.LIGHT_TSF_POP, 0x508010, [(0, 16, 0x100), (0, 4, 0x4)], false, fun k => [(F.LIGHT_TSF_POP_WORD k, .ro)]⟩,
  ⟨.HARB_STATUS, 0x600004, [], false, fun _ => [(F.HARB_STATUS_LINK_UP, .ro), (F.HARB_STATUS_RATE, .ro), (F.HARB_STATUS_WIDTH, .ro), (F.HARB_STATUS_FLIT, .ro)]⟩,
  ⟨.HARB_INT_STATUS, 0x600F00, [], false, fun _ => [(F.HARB_INT_STATUS_BITS, .w1c)]⟩,
  ⟨.HARB_INT_MASK, 0x600F04, [], false, fun _ => [(F.HARB_INT_MASK_BITS, .rw)]⟩,
  ⟨.HARB_RX_BASE, 0x601000, [(0, 64, 0x40)], true, fun k => [(F.HARB_RX_BASE_BASE k, .rw)]⟩,
  ⟨.HARB_RX_CFG, 0x601008, [(0, 64, 0x40)], false, fun k => [(F.HARB_RX_CFG_EN k, .rw), (F.HARB_RX_CFG_SIZE k, .rwl), (F.HARB_RX_CFG_OWNER k, .rwl), (F.HARB_RX_CFG_BUF k, .rwl), (F.HARB_RX_CFG_VECTOR k, .rw), (F.HARB_RX_CFG_COUNT k, .rw), (F.HARB_RX_CFG_ITR k, .rw)]⟩,
  ⟨.HARB_RX_TAIL, 0x60100C, [(0, 64, 0x40)], false, fun k => [(F.HARB_RX_TAIL_TAIL k, .rw)]⟩,
  ⟨.HARB_RX_HEAD, 0x601010, [(0, 64, 0x40)], false, fun k => [(F.HARB_RX_HEAD_HEAD k, .ro)]⟩,
  ⟨.HARB_RX_DROP, 0x601014, [(0, 64, 0x40)], false, fun k => [(F.HARB_RX_DROP_COUNT k, .rc)]⟩,
  ⟨.HARB_TX_BASE, 0x602000, [(0, 64, 0x40)], true, fun k => [(F.HARB_TX_BASE_BASE k, .rw)]⟩,
  ⟨.HARB_TX_CFG, 0x602008, [(0, 64, 0x40)], false, fun k => [(F.HARB_TX_CFG_EN k, .rw), (F.HARB_TX_CFG_SIZE k, .rwl), (F.HARB_TX_CFG_OWNER k, .rwl), (F.HARB_TX_CFG_VECTOR k, .rw)]⟩,
  ⟨.HARB_TX_TAIL, 0x60200C, [(0, 64, 0x40)], false, fun k => [(F.HARB_TX_TAIL_TAIL k, .rw)]⟩,
  ⟨.HARB_TX_HEAD, 0x602010, [(0, 64, 0x40)], false, fun k => [(F.HARB_TX_HEAD_HEAD k, .ro)]⟩,
  ⟨.HARB_TX_DROP, 0x602014, [(0, 64, 0x40)], false, fun k => [(F.HARB_TX_DROP_COUNT k, .rc)]⟩,
  ⟨.HARB_VF_PORTS, 0x604000, [(1, 32, 0x40), (0, 16, 0x4)], false, fun k => [(F.HARB_VF_PORTS_PORTS k, .rw)]⟩,
  ⟨.HARB_VF_DENIED, 0x605000, [(1, 32, 0x4)], false, fun k => [(F.HARB_VF_DENIED_COUNT k, .rc)]⟩,
  ⟨.DYS_RING_CFG, 0x700000, [(0, 35, 0x40)], false, fun k => [(F.DYS_RING_CFG_EN k, .rw), (F.DYS_RING_CFG_CMD_SIZE k, .rwl), (F.DYS_RING_CFG_RSP_SIZE k, .rwl), (F.DYS_RING_CFG_VECTOR k, .rwl)]⟩,
  ⟨.DYS_CMD_BASE, 0x700008, [(0, 35, 0x40)], true, fun k => [(F.DYS_CMD_BASE_BASE k, .rwl)]⟩,
  ⟨.DYS_RSP_BASE, 0x700010, [(0, 35, 0x40)], true, fun k => [(F.DYS_RSP_BASE_BASE k, .rwl)]⟩,
  ⟨.DYS_CMD_TAIL, 0x700018, [(0, 35, 0x40)], false, fun k => [(F.DYS_CMD_TAIL_TAIL k, .rw)]⟩,
  ⟨.DYS_CMD_HEAD, 0x70001C, [(0, 35, 0x40)], false, fun k => [(F.DYS_CMD_HEAD_HEAD k, .ro)]⟩,
  ⟨.DYS_RSP_TAIL, 0x700020, [(0, 35, 0x40)], false, fun k => [(F.DYS_RSP_TAIL_TAIL k, .ro)]⟩,
  ⟨.DYS_INT_STATUS, 0x700F00, [], false, fun _ => [(F.DYS_INT_STATUS_BITS, .w1c)]⟩,
  ⟨.DYS_INT_MASK, 0x700F04, [], false, fun _ => [(F.DYS_INT_MASK_BITS, .rw)]⟩,
  ⟨.DYS_ETH_CFG, 0x701000, [(0, 2, 0x40)], false, fun k => [(F.DYS_ETH_CFG_EN k, .rw), (F.DYS_ETH_CFG_IPV6 k, .rw), (F.DYS_ETH_CFG_ACL_EN k, .rw), (F.DYS_ETH_CFG_UDP_PORT k, .rw)]⟩,
  ⟨.DYS_ETH_ADDR, 0x701010, [(0, 2, 0x40), (0, 4, 0x4)], false, fun k => [(F.DYS_ETH_ADDR_WORD k, .rw)]⟩]

def regRows3 : List RegRow := [
  ⟨.DYS_ETH_DROP, 0x701020, [(0, 2, 0x40)], false, fun k => [(F.DYS_ETH_DROP_COUNT k, .rc)]⟩,
  ⟨.DYS_ETH_ACL, 0x701100, [(0, 2, 0x200), (0, 16, 0x20), (0, 4, 0x4)], false, fun k => [(F.DYS_ETH_ACL_WORD k, .rw)]⟩,
  ⟨.DYS_ETH_ACL_CTL, 0x701110, [(0, 2, 0x200), (0, 16, 0x20)], false, fun k => [(F.DYS_ETH_ACL_CTL_VALID k, .rw), (F.DYS_ETH_ACL_CTL_IPV6 k, .rw)]⟩,
  ⟨.LANE_CTL, 0x1000000, [(0, 16, 0x400000), (0, 34, 0x1000)], false, fun k => [(F.LANE_CTL_MODE k, .rwl), (F.LANE_CTL_ENABLE k, .rw), (F.LANE_CTL_LOCK_MODE k, .rwl), (F.LANE_CTL_ADAPT_FREEZE k, .rw), (F.LANE_CTL_TX_SQUELCH k, .rw), (F.LANE_CTL_LOOPBACK k, .rwl)]⟩,
  ⟨.LANE_STATUS, 0x1000004, [(0, 16, 0x400000), (0, 34, 0x1000)], false, fun k => [(F.LANE_STATUS_STATE k, .ro), (F.LANE_STATUS_SIGNAL_DET k, .ro), (F.LANE_STATUS_CDR_LOCK k, .ro), (F.LANE_STATUS_BLOCK_LOCK k, .ro), (F.LANE_STATUS_TX_PINNED k, .ro), (F.LANE_STATUS_RX_PINNED k, .ro), (F.LANE_STATUS_PORT k, .ro), (F.LANE_STATUS_LOGICAL k, .ro), (F.LANE_STATUS_MIRROR k, .ro)]⟩,
  ⟨.LANE_TRAIN, 0x1000008, [(0, 16, 0x400000), (0, 34, 0x1000)], false, fun k => [(F.LANE_TRAIN_TIMEOUT k, .rw), (F.LANE_TRAIN_PHASE k, .ro), (F.LANE_TRAIN_RESTARTS k, .rc)]⟩,
  ⟨.LANE_TX_TAP, 0x1000020, [(0, 16, 0x400000), (0, 34, 0x1000), (0, 6, 0x4)], false, fun k => [(F.LANE_TX_TAP_VALUE k, .rw), (F.LANE_TX_TAP_MIN k, .rw), (F.LANE_TX_TAP_MAX k, .rw), (F.LANE_TX_TAP_PIN k, .rw), (F.LANE_TX_TAP_AT_BOUND k, .ro)]⟩,
  ⟨.LANE_RX_CTLE, 0x1000040, [(0, 16, 0x400000), (0, 34, 0x1000)], false, fun k => [(F.LANE_RX_CTLE_PEAK k, .rw), (F.LANE_RX_CTLE_MIN k, .rw), (F.LANE_RX_CTLE_MAX k, .rw), (F.LANE_RX_CTLE_PIN k, .rw), (F.LANE_RX_CTLE_AT_BOUND k, .ro)]⟩,
  ⟨.LANE_RX_FFE, 0x1000080, [(0, 16, 0x400000), (0, 34, 0x1000), (0, 24, 0x4)], false, fun k => [(F.LANE_RX_FFE_VALUE k, .rw), (F.LANE_RX_FFE_MIN k, .rw), (F.LANE_RX_FFE_MAX k, .rw), (F.LANE_RX_FFE_PIN k, .rw), (F.LANE_RX_FFE_AT_BOUND k, .ro)]⟩,
  ⟨.LANE_ERR, 0x10000E0, [(0, 16, 0x400000), (0, 34, 0x1000)], false, fun k => [(F.LANE_ERR_CORR_BITS k, .ro), (F.LANE_ERR_FAIL_RUN k, .ro)]⟩,
  ⟨.LANE_ERR_CNT, 0x10000E4, [(0, 16, 0x400000), (0, 34, 0x1000)], false, fun k => [(F.LANE_ERR_CNT_UNCORR k, .rc), (F.LANE_ERR_CNT_CORNER k, .rc)]⟩,
  ⟨.LANE_PINNED_CNT, 0x10000E8, [(0, 16, 0x400000), (0, 34, 0x1000)], false, fun k => [(F.LANE_PINNED_CNT_TX k, .rc), (F.LANE_PINNED_CNT_RX k, .rc)]⟩,
  ⟨.LANE_BITSLIP, 0x10000F0, [(0, 16, 0x400000), (0, 34, 0x1000)], false, fun k => [(F.LANE_BITSLIP_SLIP k, .wo)]⟩,
  ⟨.LANE_LOCK, 0x10000F4, [(0, 16, 0x400000), (0, 34, 0x1000)], false, fun k => [(F.LANE_LOCK_SLIP_POS k, .ro), (F.LANE_LOCK_HDR_ERR k, .rc)]⟩,
  ⟨.LANE_CDR, 0x10000F8, [(0, 16, 0x400000), (0, 34, 0x1000)], false, fun k => [(F.LANE_CDR_FREQ_OFFSET k, .ro)]⟩,
  ⟨.LANE_SWAP_BER, 0x1022000, [(0, 16, 0x400000)], false, fun k => [(F.LANE_SWAP_BER_MANT k, .rw), (F.LANE_SWAP_BER_EXP k, .rw)]⟩,
  ⟨.LANE_SWAP_WIN, 0x1022004, [(0, 16, 0x400000)], false, fun k => [(F.LANE_SWAP_WIN_WIN k, .rw)]⟩,
  ⟨.LANE_SWAP_CFG, 0x1022008, [(0, 16, 0x400000)], false, fun k => [(F.LANE_SWAP_CFG_TIMEOUT k, .rw)]⟩,
  ⟨.LANE_SWAP_STATUS, 0x102200C, [(0, 16, 0x400000)], false, fun k => [(F.LANE_SWAP_STATUS_BUSY k, .ro), (F.LANE_SWAP_STATUS_LAST k, .ro), (F.LANE_SWAP_STATUS_OLD_LANE k, .ro), (F.LANE_SWAP_STATUS_NEW_LANE k, .ro), (F.LANE_SWAP_STATUS_COUNT k, .ro)]⟩,
  ⟨.LANE_INT_STATUS, 0x1022010, [(0, 16, 0x400000)], false, fun k => [(F.LANE_INT_STATUS_BITS k, .w1c)]⟩,
  ⟨.LANE_INT_MASK, 0x1022014, [(0, 16, 0x400000)], false, fun k => [(F.LANE_INT_MASK_BITS k, .rw)]⟩,
  ⟨.PORT_CFG, 0x1100000, [(0, 16, 0x400000), (0, 32, 0x1000)], false, fun k => [(F.PORT_CFG_WIDTH k, .rwl), (F.PORT_CFG_FIRST_LANE k, .rwl), (F.PORT_CFG_MODE k, .rwl), (F.PORT_CFG_FEC k, .rwl), (F.PORT_CFG_PMD k, .rwl), (F.PORT_CFG_AN_EN k, .rwl), (F.PORT_CFG_SPARE_LANE k, .rwl), (F.PORT_CFG_TRUSTED k, .rwl)]⟩,
  ⟨.PORT_CTL, 0x1100004, [(0, 16, 0x400000), (0, 32, 0x1000)], false, fun k => [(F.PORT_CTL_ENABLE k, .rwl)]⟩,
  ⟨.PORT_STATUS, 0x1100008, [(0, 16, 0x400000), (0, 32, 0x1000)], false, fun k => [(F.PORT_STATUS_STATE k, .ro), (F.PORT_STATUS_CAUSE k, .ro), (F.PORT_STATUS_FEC_DEG k, .ro), (F.PORT_STATUS_SPARE_READY k, .ro), (F.PORT_STATUS_FAILS k, .ro)]⟩,
  ⟨.MAC_RX_CFG, 0x1100010, [(0, 16, 0x400000), (0, 32, 0x1000)], false, fun k => [(F.MAC_RX_CFG_MAX_LEN k, .rw), (F.MAC_RX_CFG_DELIVER_BAD k, .rw)]⟩,
  ⟨.MAC_PFC_CFG, 0x1100018, [(0, 16, 0x400000), (0, 32, 0x1000)], false, fun k => [(F.MAC_PFC_CFG_RX_EN k, .rw), (F.MAC_PFC_CFG_TX_EN k, .rw), (F.MAC_PFC_CFG_LEGACY_RX k, .rw), (F.MAC_PFC_CFG_REFRESH k, .rw)]⟩,
  ⟨.MAC_PFC_QUANTA, 0x110001C, [(0, 16, 0x400000), (0, 32, 0x1000)], false, fun k => [(F.MAC_PFC_QUANTA_XOFF k, .rw)]⟩,
  ⟨.MAC_PFC_STATUS, 0x1100020, [(0, 16, 0x400000), (0, 32, 0x1000)], false, fun k => [(F.MAC_PFC_STATUS_RX_PAUSED k, .ro), (F.MAC_PFC_STATUS_TX_XOFF k, .ro)]⟩,
  ⟨.PORT_FEC_DEG, 0x1100028, [(0, 16, 0x400000), (0, 32, 0x1000)], false, fun k => [(F.PORT_FEC_DEG_WIN k, .rw), (F.PORT_FEC_DEG_UNCORR_MAX k, .rw)]⟩,
  ⟨.PCS_FEC_CORR, 0x1100030, [(0, 16, 0x400000), (0, 32, 0x1000)], true, fun k => [(F.PCS_FEC_CORR_COUNT k, .ro)]⟩,
  ⟨.PCS_FEC_UNCORR, 0x1100038, [(0, 16, 0x400000), (0, 32, 0x1000)], true, fun k => [(F.PCS_FEC_UNCORR_COUNT k, .ro)]⟩,
  ⟨.MAC_SA, 0x1100040, [(0, 16, 0x400000), (0, 32, 0x1000)], true, fun k => [(F.MAC_SA_ADDR k, .rw)]⟩,
  ⟨.MAC_RX_OVERFLOW, 0x1100048, [(0, 16, 0x400000), (0, 32, 0x1000)], false, fun k => [(F.MAC_RX_OVERFLOW_COUNT k, .rc)]⟩,
  ⟨.HELLO_UNTRUSTED, 0x110004C, [(0, 16, 0x400000), (0, 32, 0x1000)], false, fun k => [(F.HELLO_UNTRUSTED_COUNT k, .rc)]⟩,
  ⟨.PORT_PARTNER_STATUS, 0x1100080, [(0, 16, 0x400000), (0, 32, 0x1000)], false, fun k => [(F.PORT_PARTNER_STATUS_VALID k, .ro), (F.PORT_PARTNER_STATUS_SOURCE k, .ro), (F.PORT_PARTNER_STATUS_MISMATCH k, .ro), (F.PORT_PARTNER_STATUS_CHANGES k, .ro)]⟩,
  ⟨.PORT_PARTNER_ID, 0x1100084, [(0, 16, 0x400000), (0, 32, 0x1000)], false, fun k => [(F.PORT_PARTNER_ID_ID k, .ro)]⟩,
  ⟨.PORT_PARTNER_SERIAL, 0x1100088, [(0, 16, 0x400000), (0, 32, 0x1000)], true, fun k => [(F.PORT_PARTNER_SERIAL_SERIAL k, .ro)]⟩,
  ⟨.PORT_PARTNER_PORT, 0x1100090, [(0, 16, 0x400000), (0, 32, 0x1000)], false, fun k => [(F.PORT_PARTNER_PORT_PORT k, .ro), (F.PORT_PARTNER_PORT_LANES k, .ro), (F.PORT_PARTNER_PORT_CAP k, .ro)]⟩,
  ⟨.PORT_PARTNER_LMAP, 0x1100094, [(0, 16, 0x400000), (0, 32, 0x1000), (0, 4, 0x4)], false, fun k => [(F.PORT_PARTNER_LMAP_LO k, .ro), (F.PORT_PARTNER_LMAP_HI k, .ro)]⟩,
  ⟨.PORT_PARTNER_SPARE, 0x11000A4, [(0, 16, 0x400000), (0, 32, 0x1000)], false, fun k => [(F.PORT_PARTNER_SPARE_LANE k, .ro)]⟩]

def regRows4 : List RegRow := [
  ⟨.PORT_PARTNER_AN, 0x11000A8, [(0, 16, 0x400000), (0, 32, 0x1000)], false, fun k => [(F.PORT_PARTNER_AN_AN k, .ro)]⟩,
  ⟨.PORT_HELLO_CFG, 0x1120000, [(0, 16, 0x400000)], false, fun k => [(F.PORT_HELLO_CFG_PERIOD k, .rw), (F.PORT_HELLO_CFG_ETYPE k, .rw)]⟩,
  ⟨.MAC_INT_STATUS, 0x1120010, [(0, 16, 0x400000)], false, fun k => [(F.MAC_INT_STATUS_BITS k, .w1c)]⟩,
  ⟨.MAC_INT_MASK, 0x1120014, [(0, 16, 0x400000)], false, fun k => [(F.MAC_INT_MASK_BITS k, .rw)]⟩,
  ⟨.MAC_PARTNER_CHG, 0x1120018, [(0, 16, 0x400000)], false, fun k => [(F.MAC_PARTNER_CHG_PORTS k, .w1c)]⟩,
  ⟨.PRS_STATUS, 0x1200000, [(0, 16, 0x400000), (0, 10, 0x1000)], false, fun k => [(F.PRS_STATUS_LAST_FAIL k, .ro), (F.PRS_STATUS_LAST_STATE k, .ro), (F.PRS_STATUS_MAX_STEPS k, .ro)]⟩,
  ⟨.PRS_STEPS, 0x1200008, [(0, 16, 0x400000), (0, 10, 0x1000)], true, fun k => [(F.PRS_STEPS_STEPS k, .ro)]⟩,
  ⟨.PRS_VALUE, 0x1200040, [(0, 16, 0x400000), (0, 10, 0x1000), (0, 16, 0x4)], false, fun k => [(F.PRS_VALUE_VALUE k, .rw)]⟩,
  ⟨.PRS_FAIL_CNT, 0x1200080, [(0, 16, 0x400000), (0, 10, 0x1000), (0, 16, 0x4)], false, fun k => [(F.PRS_FAIL_CNT_COUNT k, .rc)]⟩,
  ⟨.CLS_WR_TARGET, 0x120A000, [(0, 16, 0x400000), (0, 2, 0x400)], false, fun k => [(F.CLS_WR_TARGET_TABLE k, .rw), (F.CLS_WR_TARGET_INDEX k, .rw)]⟩,
  ⟨.CLS_WR_CMD, 0x120A004, [(0, 16, 0x400000), (0, 2, 0x400)], false, fun k => [(F.CLS_WR_CMD_OP k, .wo), (F.CLS_WR_CMD_FIRST k, .wo), (F.CLS_WR_CMD_LAST k, .wo)]⟩,
  ⟨.CLS_WR_STATUS, 0x120A008, [(0, 16, 0x400000), (0, 2, 0x400)], false, fun k => [(F.CLS_WR_STATUS_BUSY k, .ro), (F.CLS_WR_STATUS_RESULT k, .ro), (F.CLS_WR_STATUS_VALID k, .ro)]⟩,
  ⟨.CLS_WR_DATA, 0x120A100, [(0, 16, 0x400000), (0, 2, 0x400), (0, 32, 0x4)], false, fun k => [(F.CLS_WR_DATA_WORD k, .rw)]⟩,
  ⟨.PPE_BANK, 0x120B000, [(0, 16, 0x400000)], false, fun k => [(F.PPE_BANK_ACTIVE k, .rwl), (F.PPE_BANK_SHADOW_OK k, .ro), (F.PPE_BANK_LOADING k, .ro), (F.PPE_BANK_FLIPS k, .ro)]⟩,
  ⟨.PPE_MATCH_PKTS, 0x120B010, [(0, 16, 0x400000), (0, 4, 0x8)], true, fun k => [(F.PPE_MATCH_PKTS_COUNT k, .ro)]⟩,
  ⟨.TRAP_RATE, 0x120C000, [(0, 16, 0x400000), (0, 64, 0x10)], false, fun k => [(F.TRAP_RATE_RATE k, .rw)]⟩,
  ⟨.TRAP_CFG, 0x120C004, [(0, 16, 0x400000), (0, 64, 0x10)], false, fun k => [(F.TRAP_CFG_BURST k, .rw), (F.TRAP_CFG_RING k, .rw)]⟩,
  ⟨.TRAP_PASS, 0x120C008, [(0, 16, 0x400000), (0, 64, 0x10)], false, fun k => [(F.TRAP_PASS_COUNT k, .rc)]⟩,
  ⟨.TRAP_DROP, 0x120C00C, [(0, 16, 0x400000), (0, 64, 0x10)], false, fun k => [(F.TRAP_DROP_COUNT k, .rc)]⟩,
  ⟨.PRS_INT_STATUS, 0x120D000, [(0, 16, 0x400000)], false, fun k => [(F.PRS_INT_STATUS_BITS k, .w1c)]⟩,
  ⟨.PRS_INT_MASK, 0x120D004, [(0, 16, 0x400000)], false, fun k => [(F.PRS_INT_MASK_BITS k, .rw)]⟩,
  ⟨.CNT_TBL_TARGET, 0x120E000, [(0, 16, 0x400000), (0, 2, 0x100)], false, fun k => [(F.CNT_TBL_TARGET_TABLE k, .rw), (F.CNT_TBL_TARGET_INDEX k, .rw)]⟩,
  ⟨.CNT_TBL_CMD, 0x120E004, [(0, 16, 0x400000), (0, 2, 0x100)], false, fun k => [(F.CNT_TBL_CMD_OP k, .wo)]⟩,
  ⟨.CNT_TBL_DATA, 0x120E010, [(0, 16, 0x400000), (0, 2, 0x100), (0, 4, 0x4)], false, fun k => [(F.CNT_TBL_DATA_WORD k, .ro)]⟩,
  ⟨.PIPE_STATUS, 0x1210000, [(0, 16, 0x400000), (0, 10, 0x1000)], false, fun k => [(F.PIPE_STATUS_STATE k, .ro), (F.PIPE_STATUS_GROUP k, .ro), (F.PIPE_STATUS_READY k, .ro), (F.PIPE_STATUS_PROG_ID k, .ro)]⟩,
  ⟨.PIPE_HAZARD, 0x1210008, [(0, 16, 0x400000), (0, 10, 0x1000)], true, fun k => [(F.PIPE_HAZARD_COUNT k, .ro)]⟩,
  ⟨.PIPE_HAZARD_LAST, 0x1210010, [(0, 16, 0x400000), (0, 10, 0x1000)], false, fun k => [(F.PIPE_HAZARD_LAST_STAGE k, .ro), (F.PIPE_HAZARD_LAST_ALU k, .ro), (F.PIPE_HAZARD_LAST_INDEX k, .ro)]⟩,
  ⟨.PIPE_BANK_STALL, 0x1210018, [(0, 16, 0x400000), (0, 10, 0x1000)], false, fun k => [(F.PIPE_BANK_STALL_COUNT k, .rc)]⟩,
  ⟨.PIPE_RECIRC_LIMIT, 0x121001C, [(0, 16, 0x400000), (0, 10, 0x1000)], false, fun k => [(F.PIPE_RECIRC_LIMIT_COUNT k, .rc)]⟩,
  ⟨.PIPE_SWAP_CFG, 0x121A000, [(0, 16, 0x400000), (0, 2, 0x100)], false, fun k => [(F.PIPE_SWAP_CFG_QUIESCE k, .rwl), (F.PIPE_SWAP_CFG_FENCE_MAX k, .rwl)]⟩,
  ⟨.PIPE_SWAP_STATUS, 0x121A004, [(0, 16, 0x400000), (0, 2, 0x100)], false, fun k => [(F.PIPE_SWAP_STATUS_LAST k, .ro), (F.PIPE_SWAP_STATUS_TARGET k, .ro), (F.PIPE_SWAP_STATUS_HOLD_MAX k, .ro), (F.PIPE_SWAP_STATUS_FLUSHED k, .ro)]⟩,
  ⟨.PIPE_COPY_STATUS, 0x121A008, [(0, 16, 0x400000), (0, 2, 0x100)], false, fun k => [(F.PIPE_COPY_STATUS_REMAIN k, .ro), (F.PIPE_COPY_STATUS_TABLES k, .ro)]⟩,
  ⟨.PIPE_PORT_LIVE, 0x121B000, [(0, 16, 0x400000), (0, 16, 0x4)], false, fun k => [(F.PIPE_PORT_LIVE_LIVE k, .w1s)]⟩,
  ⟨.PIPE_INT_STATUS, 0x121C000, [(0, 16, 0x400000)], false, fun k => [(F.PIPE_INT_STATUS_BITS k, .w1c)]⟩,
  ⟨.PIPE_INT_MASK, 0x121C004, [(0, 16, 0x400000)], false, fun k => [(F.PIPE_INT_MASK_BITS k, .rw)]⟩,
  ⟨.PIPE_TBL_INFO, 0x1230000, [(0, 16, 0x400000), (0, 2, 0x2000), (0, 256, 0x20)], false, fun k => [(F.PIPE_TBL_INFO_KIND k, .ro), (F.PIPE_TBL_INFO_SHARED k, .ro), (F.PIPE_TBL_INFO_WAYS k, .ro), (F.PIPE_TBL_INFO_LOG2 k, .ro), (F.PIPE_TBL_INFO_KEY_WORDS k, .ro), (F.PIPE_TBL_INFO_ACT_WORDS k, .ro)]⟩,
  ⟨.PIPE_TBL_SEED, 0x1230004, [(0, 16, 0x400000), (0, 2, 0x2000), (0, 256, 0x20), (0, 4, 0x4)], false, fun k => [(F.PIPE_TBL_SEED_SEED k, .ro)]⟩,
  ⟨.MTR_CFG, 0x1300000, [(0, 16, 0x400000)], false, fun k => [(F.MTR_CFG_MODE k, .ro), (F.MTR_CFG_WIRE k, .rw)]⟩,
  ⟨.MTR_TARGET, 0x1300010, [(0, 16, 0x400000)], false, fun k => [(F.MTR_TARGET_INDEX k, .rw)]⟩,
  ⟨.MTR_CMD, 0x1300014, [(0, 16, 0x400000)], false, fun k => [(F.MTR_CMD_OP k, .wo)]⟩]

def regRows5 : List RegRow := [
  ⟨.MTR_STATUS, 0x1300018, [(0, 16, 0x400000)], false, fun k => [(F.MTR_STATUS_BUSY k, .ro), (F.MTR_STATUS_RESULT k, .ro)]⟩,
  ⟨.MTR_DATA, 0x1300020, [(0, 16, 0x400000), (0, 8, 0x4)], false, fun k => [(F.MTR_DATA_WORD k, .rw)]⟩,
  ⟨.CWAY_CFG, 0x5000000, [], false, fun _ => [(F.CWAY_CFG_REPLAY_LIMIT, .rw), (F.CWAY_CFG_RETIRE_LIMIT, .rw), (F.CWAY_CFG_ATL_MAX, .rw)]⟩,
  ⟨.CWAY_STATUS, 0x5000004, [], false, fun _ => [(F.CWAY_STATUS_ACTIVE_NS, .ro), (F.CWAY_STATUS_ACTIVE_SN, .ro), (F.CWAY_STATUS_SPARES_NS, .ro), (F.CWAY_STATUS_SPARES_SN, .ro)]⟩,
  ⟨.CWAY_VC_WEIGHT, 0x5000040, [(0, 6, 0x4)], false, fun k => [(F.CWAY_VC_WEIGHT_WEIGHT k, .rw)]⟩,
  ⟨.CWAY_INT_STATUS, 0x5000F00, [], false, fun _ => [(F.CWAY_INT_STATUS_BITS, .w1c)]⟩,
  ⟨.CWAY_INT_MASK, 0x5000F04, [], false, fun _ => [(F.CWAY_INT_MASK_BITS, .rw)]⟩,
  ⟨.CWAY_BUNDLE_STATUS, 0x5001000, [(0, 2, 0x100), (0, 64, 0x4)], false, fun k => [(F.CWAY_BUNDLE_STATUS_STATE k, .ro), (F.CWAY_BUNDLE_STATUS_SUB0 k, .ro), (F.CWAY_BUNDLE_STATUS_SUB1 k, .ro)]⟩,
  ⟨.CWAY_BUNDLE_ERR, 0x5002000, [(0, 2, 0x100), (0, 64, 0x4)], false, fun k => [(F.CWAY_BUNDLE_ERR_CRC_ERR k, .rc), (F.CWAY_BUNDLE_ERR_REPLAY k, .rc)]⟩,
  ⟨.LAG_CFG, 0x6000000, [], false, fun _ => [(F.LAG_CFG_SPILL_EN, .rw), (F.LAG_CFG_ADAPT_PERIOD, .rw)]⟩,
  ⟨.LAG_SPILL_LOW, 0x6000010, [(0, 2, 0x8)], false, fun k => [(F.LAG_SPILL_LOW_LOW k, .rw)]⟩,
  ⟨.LAG_SPILL_HIGH, 0x6000014, [(0, 2, 0x8)], false, fun k => [(F.LAG_SPILL_HIGH_HIGH k, .rw)]⟩,
  ⟨.LAG_POOL, 0x6000040, [(0, 2, 0x10), (0, 3, 0x4)], false, fun k => [(F.LAG_POOL_SIZE k, .rw)]⟩,
  ⟨.LAG_HALF_STATUS, 0x6000100, [(0, 2, 0x20)], false, fun k => [(F.LAG_HALF_STATUS_FREE k, .ro), (F.LAG_HALF_STATUS_SPILLING k, .ro), (F.LAG_HALF_STATUS_OVERCOMMIT k, .ro), (F.LAG_HALF_STATUS_RESERVE_LEFT k, .ro)]⟩,
  ⟨.LAG_HALF_USE, 0x6000104, [(0, 2, 0x20), (0, 3, 0x4)], false, fun k => [(F.LAG_HALF_USE_USED k, .ro)]⟩,
  ⟨.LAG_PINNED_CNT, 0x6000200, [], false, fun _ => [(F.LAG_PINNED_CNT_ALPHA, .rc), (F.LAG_PINNED_CNT_ECN, .rc)]⟩,
  ⟨.LAG_BANK_STATUS, 0x6000300, [(0, 2, 0x88), (0, 34, 0x4)], false, fun k => [(F.LAG_BANK_STATUS_STATE k, .ro), (F.LAG_BANK_STATUS_HELD k, .ro)]⟩,
  ⟨.LAG_DROP_CNT, 0x6000500, [(0, 2, 0x40), (0, 6, 0x4)], false, fun k => [(F.LAG_DROP_CNT_COUNT k, .rc)]⟩,
  ⟨.LAG_INT_STATUS, 0x6000800, [], false, fun _ => [(F.LAG_INT_STATUS_BITS, .w1c)]⟩,
  ⟨.LAG_INT_MASK, 0x6000804, [], false, fun _ => [(F.LAG_INT_MASK_BITS, .rw)]⟩,
  ⟨.LAG_PG_MIN, 0x6100000, [(0, 4096, 0x20)], false, fun k => [(F.LAG_PG_MIN_MIN k, .rw)]⟩,
  ⟨.LAG_PG_CFG, 0x6100004, [(0, 4096, 0x20)], false, fun k => [(F.LAG_PG_CFG_ALPHA k, .rw), (F.LAG_PG_CFG_LOSSLESS k, .rwl), (F.LAG_PG_CFG_XON_DELTA k, .rw)]⟩,
  ⟨.LAG_PG_HDRM, 0x6100008, [(0, 4096, 0x20)], false, fun k => [(F.LAG_PG_HDRM_HDRM_MAX k, .rw)]⟩,
  ⟨.LAG_PG_USE, 0x610000C, [(0, 4096, 0x20), (0, 3, 0x4)], false, fun k => [(F.LAG_PG_USE_USED k, .ro), (F.LAG_PG_USE_XOFF k, .ro)]⟩,
  ⟨.LAG_Q_MIN, 0x6200000, [(0, 8192, 0x20)], false, fun k => [(F.LAG_Q_MIN_MIN k, .rw)]⟩,
  ⟨.LAG_Q_CFG, 0x6200004, [(0, 8192, 0x20)], false, fun k => [(F.LAG_Q_CFG_ALPHA k, .rw), (F.LAG_Q_CFG_ADAPT k, .rw), (F.LAG_Q_CFG_ALPHA_FLOOR k, .rw), (F.LAG_Q_CFG_ALPHA_CEIL k, .rw), (F.LAG_Q_CFG_LOSSLESS k, .rwl)]⟩,
  ⟨.LAG_Q_MAX, 0x6200008, [(0, 8192, 0x20)], false, fun k => [(F.LAG_Q_MAX_MAX k, .rw)]⟩,
  ⟨.LAG_Q_ECN, 0x620000C, [(0, 8192, 0x20)], false, fun k => [(F.LAG_Q_ECN_MIN k, .rw), (F.LAG_Q_ECN_MAX k, .rw), (F.LAG_Q_ECN_PMAX k, .rw), (F.LAG_Q_ECN_ADAPT k, .rw), (F.LAG_Q_ECN_EN k, .rw)]⟩,
  ⟨.LAG_Q_ECN_BOUND, 0x6200010, [(0, 8192, 0x20)], false, fun k => [(F.LAG_Q_ECN_BOUND_FLOOR k, .rw), (F.LAG_Q_ECN_BOUND_CEIL k, .rw)]⟩,
  ⟨.LAG_Q_STATUS, 0x6200014, [(0, 8192, 0x20)], false, fun k => [(F.LAG_Q_STATUS_OCC k, .ro), (F.LAG_Q_STATUS_ALPHA_CUR k, .ro), (F.LAG_Q_STATUS_ALPHA_PINNED k, .ro), (F.LAG_Q_STATUS_ECN_PINNED k, .ro)]⟩,
  ⟨.LAG_MQ_CFG, 0x6300004, [(0, 1024, 0x20)], false, fun k => [(F.LAG_MQ_CFG_ALPHA k, .rw), (F.LAG_MQ_CFG_ADAPT k, .rw), (F.LAG_MQ_CFG_ALPHA_FLOOR k, .rw), (F.LAG_MQ_CFG_ALPHA_CEIL k, .rw), (F.LAG_MQ_CFG_LOSSLESS k, .rwl)]⟩,
  ⟨.LAG_MQ_MAX, 0x6300008, [(0, 1024, 0x20)], false, fun k => [(F.LAG_MQ_MAX_MAX k, .rw)]⟩,
  ⟨.LAG_MQ_ECN, 0x630000C, [(0, 1024, 0x20)], false, fun k => [(F.LAG_MQ_ECN_MIN k, .rw), (F.LAG_MQ_ECN_MAX k, .rw), (F.LAG_MQ_ECN_PMAX k, .rw), (F.LAG_MQ_ECN_ADAPT k, .rw), (F.LAG_MQ_ECN_EN k, .rw)]⟩,
  ⟨.LAG_MQ_ECN_BOUND, 0x6300010, [(0, 1024, 0x20)], false, fun k => [(F.LAG_MQ_ECN_BOUND_FLOOR k, .rw), (F.LAG_MQ_ECN_BOUND_CEIL k, .rw)]⟩,
  ⟨.LAG_MQ_STATUS, 0x6300014, [(0, 1024, 0x20)], false, fun k => [(F.LAG_MQ_STATUS_OCC k, .ro), (F.LAG_MQ_STATUS_ALPHA_CUR k, .ro), (F.LAG_MQ_STATUS_ALPHA_PINNED k, .ro), (F.LAG_MQ_STATUS_ECN_PINNED k, .ro)]⟩,
  ⟨.TM_SHAPE_CFG, 0x7000000, [], false, fun _ => [(F.TM_SHAPE_CFG_FORGIVE, .rw)]⟩,
  ⟨.TM_HIST_CFG, 0x7000004, [], false, fun _ => [(F.TM_HIST_CFG_EN, .rw)]⟩,
  ⟨.TM_INT_STATUS, 0x7000F00, [], false, fun _ => [(F.TM_INT_STATUS_BITS, .w1c)]⟩,
  ⟨.TM_INT_MASK, 0x7000F04, [], false, fun _ => [(F.TM_INT_MASK_BITS, .rw)]⟩,
  ⟨.TM_Q_SHAPE, 0x7004000, [(0, 8192, 0x40)], false, fun k => [(F.TM_Q_SHAPE_RATE k, .rw)]⟩]

def regRows6 : List RegRow := [
  ⟨.TM_Q_BURST, 0x7004004, [(0, 8192, 0x40)], false, fun k => [(F.TM_Q_BURST_BURST k, .rw)]⟩,
  ⟨.TM_Q_MIN, 0x7004008, [(0, 8192, 0x40)], false, fun k => [(F.TM_Q_MIN_RATE k, .rw)]⟩,
  ⟨.TM_Q_MIN_BURST, 0x700400C, [(0, 8192, 0x40)], false, fun k => [(F.TM_Q_MIN_BURST_BURST k, .rw)]⟩,
  ⟨.TM_Q_CFG, 0x7004010, [(0, 8192, 0x40)], false, fun k => [(F.TM_Q_CFG_GROUP k, .rwl), (F.TM_Q_CFG_PRIO k, .rw), (F.TM_Q_CFG_WEIGHT k, .rw), (F.TM_Q_CFG_TC k, .rw), (F.TM_Q_CFG_PFC_PRIO k, .rw), (F.TM_Q_CFG_PAUSE_EN k, .rw)]⟩,
  ⟨.TM_Q_STATUS, 0x7004014, [(0, 8192, 0x40)], false, fun k => [(F.TM_Q_STATUS_BACKLOG k, .ro), (F.TM_Q_STATUS_PAUSED k, .ro), (F.TM_Q_STATUS_GATE_CLOSED k, .ro), (F.TM_Q_STATUS_MAX_DEBT k, .ro), (F.TM_Q_STATUS_BELOW_MIN k, .ro), (F.TM_Q_STATUS_WAIT_PAGE k, .ro)]⟩,
  ⟨.TM_Q_MAX_DEPTH, 0x7004018, [(0, 8192, 0x40)], false, fun k => [(F.TM_Q_MAX_DEPTH_DEPTH k, .rc)]⟩,
  ⟨.TM_Q_LEVEL, 0x7004020, [(0, 8192, 0x40)], true, fun k => [(F.TM_Q_LEVEL_LEVEL k, .ro)]⟩,
  ⟨.TM_Q_MIN_LEVEL, 0x7004028, [(0, 8192, 0x40)], true, fun k => [(F.TM_Q_MIN_LEVEL_LEVEL k, .ro)]⟩,
  ⟨.TM_MQ_SHAPE, 0x7084000, [(0, 1024, 0x40)], false, fun k => [(F.TM_MQ_SHAPE_RATE k, .rw)]⟩,
  ⟨.TM_MQ_BURST, 0x7084004, [(0, 1024, 0x40)], false, fun k => [(F.TM_MQ_BURST_BURST k, .rw)]⟩,
  ⟨.TM_MQ_MIN, 0x7084008, [(0, 1024, 0x40)], false, fun k => [(F.TM_MQ_MIN_RATE k, .rw)]⟩,
  ⟨.TM_MQ_MIN_BURST, 0x708400C, [(0, 1024, 0x40)], false, fun k => [(F.TM_MQ_MIN_BURST_BURST k, .rw)]⟩,
  ⟨.TM_MQ_CFG, 0x7084010, [(0, 1024, 0x40)], false, fun k => [(F.TM_MQ_CFG_GROUP k, .rwl), (F.TM_MQ_CFG_PRIO k, .rw), (F.TM_MQ_CFG_WEIGHT k, .rw), (F.TM_MQ_CFG_TC k, .rw), (F.TM_MQ_CFG_PFC_PRIO k, .rw), (F.TM_MQ_CFG_PAUSE_EN k, .rw)]⟩,
  ⟨.TM_MQ_STATUS, 0x7084014, [(0, 1024, 0x40)], false, fun k => [(F.TM_MQ_STATUS_BACKLOG k, .ro), (F.TM_MQ_STATUS_PAUSED k, .ro), (F.TM_MQ_STATUS_GATE_CLOSED k, .ro), (F.TM_MQ_STATUS_MAX_DEBT k, .ro), (F.TM_MQ_STATUS_BELOW_MIN k, .ro), (F.TM_MQ_STATUS_WAIT_PAGE k, .ro)]⟩,
  ⟨.TM_MQ_MAX_DEPTH, 0x7084018, [(0, 1024, 0x40)], false, fun k => [(F.TM_MQ_MAX_DEPTH_DEPTH k, .rc)]⟩,
  ⟨.TM_MQ_LEVEL, 0x7084020, [(0, 1024, 0x40)], true, fun k => [(F.TM_MQ_LEVEL_LEVEL k, .ro)]⟩,
  ⟨.TM_MQ_MIN_LEVEL, 0x7084028, [(0, 1024, 0x40)], true, fun k => [(F.TM_MQ_MIN_LEVEL_LEVEL k, .ro)]⟩,
  ⟨.TM_CPU_Q_CFG, 0x70A0000, [(0, 64, 0x10)], true, fun k => [(F.TM_CPU_Q_CFG_PRIO k, .rw), (F.TM_CPU_Q_CFG_WEIGHT k, .rw), (F.TM_CPU_Q_CFG_MAX k, .rw)]⟩,
  ⟨.TM_CPU_SHAPE, 0x70A0400, [], false, fun _ => [(F.TM_CPU_SHAPE_RATE, .rw)]⟩,
  ⟨.TM_CPU_BURST, 0x70A0404, [], false, fun _ => [(F.TM_CPU_BURST_BURST, .rw)]⟩,
  ⟨.TM_G_SHAPE, 0x7100000, [(0, 2048, 0x40)], false, fun k => [(F.TM_G_SHAPE_RATE k, .rw)]⟩,
  ⟨.TM_G_BURST, 0x7100004, [(0, 2048, 0x40)], false, fun k => [(F.TM_G_BURST_BURST k, .rw)]⟩,
  ⟨.TM_G_MIN, 0x7100008, [(0, 2048, 0x40)], false, fun k => [(F.TM_G_MIN_RATE k, .rw)]⟩,
  ⟨.TM_G_MIN_BURST, 0x710000C, [(0, 2048, 0x40)], false, fun k => [(F.TM_G_MIN_BURST_BURST k, .rw)]⟩,
  ⟨.TM_G_CFG, 0x7100010, [(0, 2048, 0x40)], false, fun k => [(F.TM_G_CFG_PRIO k, .rw), (F.TM_G_CFG_WEIGHT k, .rw)]⟩,
  ⟨.TM_G_LEVEL, 0x7100020, [(0, 2048, 0x40)], true, fun k => [(F.TM_G_LEVEL_LEVEL k, .ro)]⟩,
  ⟨.TM_G_MIN_LEVEL, 0x7100028, [(0, 2048, 0x40)], true, fun k => [(F.TM_G_MIN_LEVEL_LEVEL k, .ro)]⟩,
  ⟨.TM_P_SHAPE, 0x7140000, [(0, 512, 0x100)], false, fun k => [(F.TM_P_SHAPE_RATE k, .rw)]⟩,
  ⟨.TM_P_BURST, 0x7140004, [(0, 512, 0x100)], false, fun k => [(F.TM_P_BURST_BURST k, .rw)]⟩,
  ⟨.TM_P_MIN, 0x7140008, [(0, 512, 0x100)], false, fun k => [(F.TM_P_MIN_RATE k, .rw)]⟩,
  ⟨.TM_P_MIN_BURST, 0x714000C, [(0, 512, 0x100)], false, fun k => [(F.TM_P_MIN_BURST_BURST k, .rw)]⟩,
  ⟨.TM_PORT_CFG, 0x7140010, [(0, 512, 0x100)], false, fun k => [(F.TM_PORT_CFG_PRIO k, .rw), (F.TM_PORT_CFG_WEIGHT k, .rw), (F.TM_PORT_CFG_OVERHEAD k, .rw), (F.TM_PORT_CFG_REROUTE_QUEUED k, .rw)]⟩,
  ⟨.TM_PORT_STATUS, 0x7140014, [(0, 512, 0x100)], false, fun k => [(F.TM_PORT_STATUS_PAUSED k, .ro), (F.TM_PORT_STATUS_GATES k, .ro)]⟩,
  ⟨.TM_GATE_CTL, 0x7140020, [(0, 512, 0x100)], false, fun k => [(F.TM_GATE_CTL_EN k, .rw), (F.TM_GATE_CTL_GUARD k, .rw), (F.TM_GATE_CTL_CONFIG_CHANGE k, .rwl), (F.TM_GATE_CTL_CANCEL k, .w1s), (F.TM_GATE_CTL_ADJ k, .rw)]⟩,
  ⟨.TM_GATE_STATUS, 0x7140024, [(0, 512, 0x100)], false, fun k => [(F.TM_GATE_STATUS_PENDING k, .ro), (F.TM_GATE_STATUS_BASE_IN_PAST k, .ro), (F.TM_GATE_STATUS_OPER_BANK k, .ro), (F.TM_GATE_STATUS_CONFIG_ERR k, .ro), (F.TM_GATE_STATUS_STEPS k, .ro)]⟩,
  ⟨.TM_GATE_ADMIN_BASE_S, 0x7140030, [(0, 512, 0x100)], true, fun k => [(F.TM_GATE_ADMIN_BASE_S_S k, .rwl)]⟩,
  ⟨.TM_GATE_ADMIN_BASE_NS, 0x7140038, [(0, 512, 0x100)], false, fun k => [(F.TM_GATE_ADMIN_BASE_NS_NS k, .rwl)]⟩,
  ⟨.TM_GATE_ADMIN_CYCLE, 0x714003C, [(0, 512, 0x100)], false, fun k => [(F.TM_GATE_ADMIN_CYCLE_CYCLE k, .rwl)]⟩,
  ⟨.TM_GATE_ADMIN_LEN, 0x7140040, [(0, 512, 0x100)], false, fun k => [(F.TM_GATE_ADMIN_LEN_LEN k, .rwl)]⟩,
  ⟨.TM_GATE_START_S, 0x7140048, [(0, 512, 0x100)], true, fun k => [(F.TM_GATE_START_S_S k, .ro)]⟩]

def regRows7 : List RegRow := [
  ⟨.TM_GATE_START_NS, 0x7140050, [(0, 512, 0x100)], false, fun k => [(F.TM_GATE_START_NS_NS k, .ro)]⟩,
  ⟨.TM_GATE_OPER_CYCLE, 0x7140054, [(0, 512, 0x100)], false, fun k => [(F.TM_GATE_OPER_CYCLE_CYCLE k, .ro)]⟩,
  ⟨.TM_GATE_OPER_LEN, 0x7140058, [(0, 512, 0x100)], false, fun k => [(F.TM_GATE_OPER_LEN_LEN k, .ro)]⟩,
  ⟨.TM_P_LEVEL, 0x7140060, [(0, 512, 0x100)], true, fun k => [(F.TM_P_LEVEL_LEVEL k, .ro)]⟩,
  ⟨.TM_P_MIN_LEVEL, 0x7140068, [(0, 512, 0x100)], true, fun k => [(F.TM_P_MIN_LEVEL_LEVEL k, .ro)]⟩,
  ⟨.TM_GATE_ENTRY, 0x7200000, [(0, 512, 0x1000), (0, 2, 0x800), (0, 256, 0x8)], true, fun k => [(F.TM_GATE_ENTRY_GATES k, .rwl), (F.TM_GATE_ENTRY_INTERVAL k, .rwl)]⟩,
  ⟨.TM_HIST, 0x7800000, [(0, 9216, 0x200), (0, 2, 0x100), (0, 32, 0x4)], false, fun k => [(F.TM_HIST_COUNT k, .rc)]⟩,
  ⟨.MC_CFG, 0x8000000, [(0, 6, 0x200000)], false, fun k => [(F.MC_CFG_RT_SHARE k, .rw), (F.MC_CFG_AGE_MAX k, .rw), (F.MC_CFG_WR_HIGH k, .rw), (F.MC_CFG_WR_LOW k, .rw)]⟩,
  ⟨.MC_STATUS, 0x8000004, [(0, 6, 0x200000)], false, fun k => [(F.MC_STATUS_TSET k, .ro), (F.MC_STATUS_TSET_BUSY k, .ro), (F.MC_STATUS_SR k, .ro), (F.MC_STATUS_HOT k, .ro), (F.MC_STATUS_RT_AT_RISK k, .ro), (F.MC_STATUS_SPARE k, .ro), (F.MC_STATUS_SPARED_CH k, .ro), (F.MC_STATUS_TEMP k, .ro), (F.MC_STATUS_COPY_PCT k, .ro)]⟩,
  ⟨.MC_TSET_CMD, 0x8000010, [(0, 6, 0x200000)], false, fun k => [(F.MC_TSET_CMD_TARGET k, .rw), (F.MC_TSET_CMD_ABORTS k, .ro), (F.MC_TSET_CMD_CHANGES k, .ro)]⟩,
  ⟨.MC_BW_CAP, 0x8000014, [(0, 6, 0x200000)], false, fun k => [(F.MC_BW_CAP_CAP k, .ro)]⟩,
  ⟨.MC_IDLE, 0x8000020, [(0, 6, 0x200000)], false, fun k => [(F.MC_IDLE_MIN k, .rw), (F.MC_IDLE_MAX k, .rw), (F.MC_IDLE_INIT k, .rw), (F.MC_IDLE_ADAPT k, .rw)]⟩,
  ⟨.MC_PINNED_CNT, 0x8000024, [(0, 6, 0x200000)], false, fun k => [(F.MC_PINNED_CNT_COUNT k, .rc)]⟩,
  ⟨.MC_RT_SPLIT, 0x8000030, [(0, 6, 0x200000)], false, fun k => [(F.MC_RT_SPLIT_COUNT k, .rc)]⟩,
  ⟨.MC_SR_CFG, 0x8000040, [(0, 6, 0x200000)], false, fun k => [(F.MC_SR_CFG_EN k, .rw), (F.MC_SR_CFG_IDLE k, .rw)]⟩,
  ⟨.MC_RAS_CFG, 0x8000050, [(0, 6, 0x200000)], false, fun k => [(F.MC_RAS_CFG_ROW_CE k, .rw), (F.MC_RAS_CFG_SCRUB_HOURS k, .rw), (F.MC_RAS_CFG_CH_RETIRE_MAX k, .rw)]⟩,
  ⟨.MC_ECC_CE, 0x8000060, [(0, 6, 0x200000)], true, fun k => [(F.MC_ECC_CE_COUNT k, .ro)]⟩,
  ⟨.MC_ECC_UE, 0x8000068, [(0, 6, 0x200000)], true, fun k => [(F.MC_ECC_UE_COUNT k, .ro)]⟩,
  ⟨.MC_ECC_LAST, 0x8000070, [(0, 6, 0x200000)], true, fun k => [(F.MC_ECC_LAST_OFFSET k, .ro), (F.MC_ECC_LAST_CH k, .ro)]⟩,
  ⟨.MC_RETIRE_STATUS, 0x8000080, [(0, 6, 0x200000)], false, fun k => [(F.MC_RETIRE_STATUS_COUNT k, .ro), (F.MC_RETIRE_STATUS_FULL k, .ro)]⟩,
  ⟨.MC_INT_STATUS, 0x80000F0, [(0, 6, 0x200000)], false, fun k => [(F.MC_INT_STATUS_BITS k, .w1c)]⟩,
  ⟨.MC_INT_MASK, 0x80000F4, [(0, 6, 0x200000)], false, fun k => [(F.MC_INT_MASK_BITS k, .rw)]⟩,
  ⟨.MC_IDLE_STATUS, 0x8000100, [(0, 6, 0x200000), (0, 64, 0x4)], false, fun k => [(F.MC_IDLE_STATUS_CUR k, .ro), (F.MC_IDLE_STATUS_PINNED k, .ro)]⟩,
  ⟨.MC_TRAIN_STATUS, 0x8000200, [(0, 6, 0x200000)], false, fun k => [(F.MC_TRAIN_STATUS_VALID k, .ro), (F.MC_TRAIN_STATUS_FAIL k, .ro), (F.MC_TRAIN_STATUS_FAIL_CH k, .ro), (F.MC_TRAIN_STATUS_TEMP_AT k, .ro)]⟩,
  ⟨.MC_CHMAP, 0x8000400, [(0, 6, 0x200000), (0, 31, 0x4)], false, fun k => [(F.MC_CHMAP_PHYS k, .ro)]⟩,
  ⟨.MC_REF_OWED, 0x8001000, [(0, 6, 0x200000), (0, 32, 0x40), (0, 16, 0x4)], false, fun k => [(F.MC_REF_OWED_OWED k, .ro), (F.MC_REF_OWED_MAX_OWED_CNT k, .rc)]⟩,
  ⟨.MC_RETIRE_LIST, 0x8002000, [(0, 6, 0x200000), (0, 512, 0x4)], false, fun k => [(F.MC_RETIRE_LIST_BLOCK k, .ro), (F.MC_RETIRE_LIST_VALID k, .ro)]⟩,
  ⟨.BPM_REGION, 0x9000200, [(0, 6, 0x40), (0, 10, 0x4)], false, fun k => [(F.BPM_REGION_BASE k, .ro), (F.BPM_REGION_SIZE k, .ro)]⟩,
  ⟨.BPM_POOL_FREE, 0x9000400, [(0, 6, 0x20), (0, 4, 0x8)], false, fun k => [(F.BPM_POOL_FREE_FREE k, .ro)]⟩,
  ⟨.BPM_POOL_RETIRED, 0x9000404, [(0, 6, 0x20), (0, 4, 0x8)], false, fun k => [(F.BPM_POOL_RETIRED_RETIRED k, .ro)]⟩,
  ⟨.BPM_CLASS_RSV, 0x9000600, [(0, 20, 0x10)], false, fun k => [(F.BPM_CLASS_RSV_RSV k, .rw)]⟩,
  ⟨.BPM_CLASS_MAX, 0x9000604, [(0, 20, 0x10)], false, fun k => [(F.BPM_CLASS_MAX_MAX k, .rw)]⟩,
  ⟨.BPM_CLASS_USED, 0x9000608, [(0, 20, 0x10)], false, fun k => [(F.BPM_CLASS_USED_USED k, .ro)]⟩,
  ⟨.BPM_BAD_RELEASE, 0x9000C00, [], true, fun _ => [(F.BPM_BAD_RELEASE_HANDLE, .ro), (F.BPM_BAD_RELEASE_AGENT, .ro), (F.BPM_BAD_RELEASE_KIND, .ro)]⟩,
  ⟨.BPM_BAD_COUNT, 0x9000C08, [], false, fun _ => [(F.BPM_BAD_COUNT_COUNT, .rc)]⟩,
  ⟨.BPM_INT_STATUS, 0x9000C10, [], false, fun _ => [(F.BPM_INT_STATUS_BITS, .w1c)]⟩,
  ⟨.BPM_INT_MASK, 0x9000C14, [], false, fun _ => [(F.BPM_INT_MASK_BITS, .rw)]⟩,
  ⟨.BPM_AGENT_DOMAIN, 0x9001000, [(0, 256, 0x8)], true, fun k => [(F.BPM_AGENT_DOMAIN_MASK k, .rw)]⟩,
  ⟨.BPM_FN_ARG, 0x9004000, [(0, 32, 0x100)], true, fun k => [(F.BPM_FN_ARG_ARG k, .rw)]⟩,
  ⟨.BPM_FN_CMD, 0x9004008, [(0, 32, 0x100)], false, fun k => [(F.BPM_FN_CMD_OP k, .wo), (F.BPM_FN_CMD_POOL k, .wo), (F.BPM_FN_CMD_DOMAIN k, .wo), (F.BPM_FN_CMD_N k, .wo)]⟩]

def regRows8 : List RegRow := [
  ⟨.BPM_FN_RESULT, 0x900400C, [(0, 32, 0x100)], false, fun k => [(F.BPM_FN_RESULT_BUSY k, .ro), (F.BPM_FN_RESULT_STATUS k, .ro)]⟩,
  ⟨.BPM_FN_HANDLE, 0x9004010, [(0, 32, 0x100)], true, fun k => [(F.BPM_FN_HANDLE_HANDLE k, .ro)]⟩,
  ⟨.BPM_DEEP_CFG, 0x9008000, [], false, fun _ => [(F.BPM_DEEP_CFG_NOBUF_LOW, .rw)]⟩,
  ⟨.BPM_DEEP_DIE_STATUS, 0x9008010, [(0, 2, 0x10)], false, fun k => [(F.BPM_DEEP_DIE_STATUS_DEEP_QUEUES k, .ro), (F.BPM_DEEP_DIE_STATUS_LOST k, .ro)]⟩,
  ⟨.BPM_DEEP_DROP_CNT, 0x9008014, [(0, 2, 0x10), (0, 3, 0x4)], false, fun k => [(F.BPM_DEEP_DROP_CNT_COUNT k, .rc)]⟩,
  ⟨.BPM_DEEP_Q_CFG, 0x9100000, [(0, 8192, 0x10)], false, fun k => [(F.BPM_DEEP_Q_CFG_EN k, .rw), (F.BPM_DEEP_Q_CFG_DRAIN_AHEAD k, .rw)]⟩,
  ⟨.BPM_DEEP_Q_ON, 0x9100004, [(0, 8192, 0x10)], false, fun k => [(F.BPM_DEEP_Q_ON_ON k, .rw)]⟩,
  ⟨.BPM_DEEP_Q_MAX, 0x9100008, [(0, 8192, 0x10)], false, fun k => [(F.BPM_DEEP_Q_MAX_PAGES k, .rw)]⟩,
  ⟨.BPM_DEEP_Q_STATUS, 0x910000C, [(0, 8192, 0x10)], false, fun k => [(F.BPM_DEEP_Q_STATUS_DEEP k, .ro), (F.BPM_DEEP_Q_STATUS_PAGES k, .ro)]⟩,
  ⟨.ATL_CFG, 0xA000000, [], false, fun _ => [(F.ATL_CFG_UDP_PORT, .rwl)]⟩,
  ⟨.ATL_TIMER, 0xA000004, [], false, fun _ => [(F.ATL_TIMER_NACK_DELAY, .rw), (F.ATL_TIMER_HOLDOFF_PERIOD, .rw), (F.ATL_TIMER_HOLDOFF_EXT, .rw)]⟩,
  ⟨.ATL_STATUS, 0xA000008, [], false, fun _ => [(F.ATL_STATUS_SESSIONS, .ro), (F.ATL_STATUS_RESERVE_N, .ro), (F.ATL_STATUS_RESERVE_S, .ro), (F.ATL_STATUS_HOLDING_OFF, .ro)]⟩,
  ⟨.ATL_ENG_STATUS, 0xA000100, [(0, 36, 0x4)], false, fun k => [(F.ATL_ENG_STATUS_STATE k, .ro), (F.ATL_ENG_STATUS_ROLE k, .ro), (F.ATL_ENG_STATUS_SESSIONS k, .ro)]⟩,
  ⟨.ATL_DROP_CNT, 0xA000200, [(0, 7, 0x4)], false, fun k => [(F.ATL_DROP_CNT_COUNT k, .rc)]⟩,
  ⟨.ATL_INT_STATUS, 0xA000F00, [], false, fun _ => [(F.ATL_INT_STATUS_BITS, .w1c)]⟩,
  ⟨.ATL_INT_MASK, 0xA000F04, [], false, fun _ => [(F.ATL_INT_MASK_BITS, .rw)]⟩,
  ⟨.ATL_SESS_CFG, 0xA100000, [(0, 4096, 0x40)], false, fun k => [(F.ATL_SESS_CFG_FORMAT k, .ro), (F.ATL_SESS_CFG_OP k, .ro), (F.ATL_SESS_CFG_KIND k, .ro), (F.ATL_SESS_CFG_INT_SAT k, .ro), (F.ATL_SESS_CFG_FP_SAT k, .ro), (F.ATL_SESS_CFG_WINDOW k, .ro), (F.ATL_SESS_CFG_CHUNK_ELEMS k, .ro)]⟩,
  ⟨.ATL_SESS_ROLES, 0xA100004, [(0, 4096, 0x40)], false, fun k => [(F.ATL_SESS_ROLES_ROLES k, .ro)]⟩,
  ⟨.ATL_SESS_TIMEOUT, 0xA100008, [(0, 4096, 0x40)], false, fun k => [(F.ATL_SESS_TIMEOUT_TIMEOUT k, .ro), (F.ATL_SESS_TIMEOUT_HOLDOFF_HOSTS k, .ro)]⟩,
  ⟨.ATL_SESS_MEMBERS, 0xA10000C, [(0, 4096, 0x40)], false, fun k => [(F.ATL_SESS_MEMBERS_COUNT k, .ro), (F.ATL_SESS_MEMBERS_BASE k, .ro)]⟩,
  ⟨.ATL_SESS_ROOT, 0xA100010, [(0, 4096, 0x40)], false, fun k => [(F.ATL_SESS_ROOT_ROOT k, .ro), (F.ATL_SESS_ROOT_PARENT k, .ro)]⟩,
  ⟨.ATL_SESS_MCAST, 0xA100014, [(0, 4096, 0x40)], false, fun k => [(F.ATL_SESS_MCAST_GROUP k, .ro)]⟩,
  ⟨.ATL_SESS_STATUS, 0xA100018, [(0, 4096, 0x40)], false, fun k => [(F.ATL_SESS_STATUS_STATE k, .ro), (F.ATL_SESS_STATUS_CAUSE k, .ro), (F.ATL_SESS_STATUS_OPEN_CHUNKS k, .ro), (F.ATL_SESS_STATUS_LAST_MEMBER k, .ro)]⟩,
  ⟨.ATL_SESS_OPSEQ, 0xA10001C, [(0, 4096, 0x40)], false, fun k => [(F.ATL_SESS_OPSEQ_OPSEQ k, .ro)]⟩,
  ⟨.ATL_SESS_DONE, 0xA100020, [(0, 4096, 0x40)], true, fun k => [(F.ATL_SESS_DONE_COUNT k, .ro)]⟩,
  ⟨.ATL_SESS_EVT, 0xA100028, [(0, 4096, 0x40)], false, fun k => [(F.ATL_SESS_EVT_NACKS k, .rc), (F.ATL_SESS_EVT_HOLDOFFS k, .rc), (F.ATL_SESS_EVT_RESTARTS k, .rc)]⟩,
  ⟨.ATL_SESS_SPILL, 0xA10002C, [(0, 4096, 0x40)], false, fun k => [(F.ATL_SESS_SPILL_RESERVED k, .ro), (F.ATL_SESS_SPILL_IN_USE k, .ro)]⟩,
  ⟨.ATL_MEMBER, 0xA400000, [(0, 65536, 0x20)], false, fun k => [(F.ATL_MEMBER_KIND k, .ro), (F.ATL_MEMBER_IPV6 k, .ro), (F.ATL_MEMBER_PORT k, .ro), (F.ATL_MEMBER_REMOTE_SESSION k, .ro)]⟩,
  ⟨.ATL_MEMBER_W1, 0xA400004, [(0, 65536, 0x20)], false, fun k => [(F.ATL_MEMBER_W1_UDP_SRC k, .ro), (F.ATL_MEMBER_W1_REMOTE_MEMBER k, .ro)]⟩,
  ⟨.ATL_MEMBER_ADDR, 0xA400008, [(0, 65536, 0x20), (0, 4, 0x4)], false, fun k => [(F.ATL_MEMBER_ADDR_WORD k, .ro)]⟩,
  ⟨.TEL_CFG, 0xB000000, [], false, fun _ => [(F.TEL_CFG_POSTCARD_COL, .rw), (F.TEL_CFG_DROP_COL, .rw), (F.TEL_CFG_FLOW_COL, .rw), (F.TEL_CFG_QS_COL, .rw), (F.TEL_CFG_EN, .rw)]⟩,
  ⟨.TEL_SOURCE_ID, 0xB000004, [], false, fun _ => [(F.TEL_SOURCE_ID_ID, .rw)]⟩,
  ⟨.TEL_IOAM_NODE, 0xB000008, [], false, fun _ => [(F.TEL_IOAM_NODE_NODE, .rw)]⟩,
  ⟨.TEL_IOAM_NODE_W, 0xB000010, [], true, fun _ => [(F.TEL_IOAM_NODE_W_NODE, .rw)]⟩,
  ⟨.TEL_STATUS, 0xB000018, [], false, fun _ => [(F.TEL_STATUS_REFUSED, .rc)]⟩,
  ⟨.TEL_INT_STATUS, 0xB000F00, [], false, fun _ => [(F.TEL_INT_STATUS_BITS, .w1c)]⟩,
  ⟨.TEL_INT_MASK, 0xB000F04, [], false, fun _ => [(F.TEL_INT_MASK_BITS, .rw)]⟩,
  ⟨.TEL_COLLECTOR, 0xB001000, [(0, 16, 0x40)], false, fun k => [(F.TEL_COLLECTOR_IPV6 k, .rw), (F.TEL_COLLECTOR_PORT k, .rw), (F.TEL_COLLECTOR_QUEUE k, .rw)]⟩,
  ⟨.TEL_COLLECTOR_UDP, 0xB001004, [(0, 16, 0x40)], false, fun k => [(F.TEL_COLLECTOR_UDP_UDP_DST k, .rw), (F.TEL_COLLECTOR_UDP_UDP_SRC k, .rw)]⟩,
  ⟨.TEL_COLLECTOR_RATE, 0xB001008, [(0, 16, 0x40)], false, fun k => [(F.TEL_COLLECTOR_RATE_RATE k, .rw)]⟩]

def regRows9 : List RegRow := [
  ⟨.TEL_COLLECTOR_MAC, 0xB00100C, [(0, 16, 0x40), (0, 2, 0x4)], false, fun k => [(F.TEL_COLLECTOR_MAC_WORD k, .rw)]⟩,
  ⟨.TEL_COLLECTOR_DST, 0xB001018, [(0, 16, 0x40), (0, 4, 0x4)], false, fun k => [(F.TEL_COLLECTOR_DST_WORD k, .rw)]⟩,
  ⟨.TEL_COLLECTOR_SRC, 0xB001028, [(0, 16, 0x40), (0, 4, 0x4)], false, fun k => [(F.TEL_COLLECTOR_SRC_WORD k, .rw)]⟩,
  ⟨.TEL_DROP_EN, 0xB002000, [(0, 8, 0x4)], false, fun k => [(F.TEL_DROP_EN_MASK k, .rw)]⟩,
  ⟨.TEL_DROP_ALL, 0xB002020, [(0, 8, 0x4)], false, fun k => [(F.TEL_DROP_ALL_MASK k, .rw)]⟩,
  ⟨.TEL_QS_SEL, 0xB002100, [(0, 64, 0x4)], false, fun k => [(F.TEL_QS_SEL_QUEUE k, .rw), (F.TEL_QS_SEL_VALID k, .rw)]⟩,
  ⟨.TEL_FLOW_CFG, 0xB003000, [], false, fun _ => [(F.TEL_FLOW_CFG_IDLE, .rwl), (F.TEL_FLOW_CFG_ACTIVE, .rwl)]⟩,
  ⟨.TEL_FLOW_STATUS, 0xB003004, [], false, fun _ => [(F.TEL_FLOW_STATUS_FULL, .rc), (F.TEL_FLOW_STATUS_LOST, .rc)]⟩,
  ⟨.TEL_FLOW_RD_KEY, 0xB003010, [], true, fun _ => [(F.TEL_FLOW_RD_KEY_KEY, .rw)]⟩,
  ⟨.TEL_FLOW_RD_GO, 0xB003018, [], false, fun _ => [(F.TEL_FLOW_RD_GO_GO, .wo)]⟩,
  ⟨.TEL_FLOW_RD_STAT, 0xB00301C, [], false, fun _ => [(F.TEL_FLOW_RD_STAT_BUSY, .ro), (F.TEL_FLOW_RD_STAT_FOUND, .ro)]⟩,
  ⟨.TEL_FLOW_RD_REC, 0xB003040, [(0, 16, 0x4)], false, fun k => [(F.TEL_FLOW_RD_REC_WORD k, .ro)]⟩,
  ⟨.TEL_DROP_CNT, 0xB004000, [(0, 256, 0x8)], true, fun k => [(F.TEL_DROP_CNT_COUNT k, .ro)]⟩,
  ⟨.CNT_DUMP_CFG, 0xC000000, [], false, fun _ => [(F.CNT_DUMP_CFG_EN, .rw), (F.CNT_DUMP_CFG_TARGET, .rwl), (F.CNT_DUMP_CFG_STACK, .rwl), (F.CNT_DUMP_CFG_ALIGN, .rwl), (F.CNT_DUMP_CFG_SOURCE, .rwl), (F.CNT_DUMP_CFG_SETS, .rwl), (F.CNT_DUMP_CFG_INT, .rw)]⟩,
  ⟨.CNT_DUMP_PERIOD, 0xC000004, [], false, fun _ => [(F.CNT_DUMP_PERIOD_PERIOD, .rwl)]⟩,
  ⟨.CNT_DUMP_BASE, 0xC000008, [], true, fun _ => [(F.CNT_DUMP_BASE_BASE, .rwl)]⟩,
  ⟨.CNT_DUMP_RING, 0xC000010, [], false, fun _ => [(F.CNT_DUMP_RING_SLOTS, .rwl), (F.CNT_DUMP_RING_SLOT_KIB, .rwl)]⟩,
  ⟨.CNT_DUMP_PROD, 0xC000014, [], false, fun _ => [(F.CNT_DUMP_PROD_PROD, .ro)]⟩,
  ⟨.CNT_DUMP_CONS, 0xC000018, [], false, fun _ => [(F.CNT_DUMP_CONS_CONS, .rw)]⟩,
  ⟨.CNT_DUMP_STATUS, 0xC00001C, [], false, fun _ => [(F.CNT_DUMP_STATUS_BUSY, .ro), (F.CNT_DUMP_STATUS_CFG_ERR, .ro), (F.CNT_DUMP_STATUS_MISSED, .rc)]⟩,
  ⟨.CNT_DUMP_SEQ, 0xC000020, [], false, fun _ => [(F.CNT_DUMP_SEQ_SEQ, .ro)]⟩,
  ⟨.CNT_USER_PAGES, 0xC000100, [(1, 32, 0x10), (0, 3, 0x4)], false, fun k => [(F.CNT_USER_PAGES_MASK k, .rw)]⟩,
  ⟨.CNT_INT_STATUS, 0xC000F00, [], false, fun _ => [(F.CNT_INT_STATUS_BITS, .w1c)]⟩,
  ⟨.CNT_INT_MASK, 0xC000F04, [], false, fun _ => [(F.CNT_INT_MASK_BITS, .rw)]⟩,
  ⟨.CNT_TD, 0xC008000, [(0, 160, 0x40), (0, 8, 0x8)], true, fun k => [(F.CNT_TD_COUNT k, .ro)]⟩,
  ⟨.CNT_SEL, 0xC100000, [(0, 68, 0x1000), (0, 16, 0x40)], false, fun k => [(F.CNT_SEL_EVENT k, .rw), (F.CNT_SEL_ARG k, .rw), (F.CNT_SEL_PIPE_MASK k, .rw)]⟩,
  ⟨.CNT_CTL, 0xC100004, [(0, 68, 0x1000), (0, 16, 0x40)], false, fun k => [(F.CNT_CTL_EN k, .rw), (F.CNT_CTL_RELOAD k, .rw), (F.CNT_CTL_INT k, .rw), (F.CNT_CTL_SAMPLE k, .rw), (F.CNT_CTL_RING k, .rw), (F.CNT_CTL_OVF k, .w1c)]⟩,
  ⟨.CNT_VALUE, 0xC100008, [(0, 68, 0x1000), (0, 16, 0x40)], true, fun k => [(F.CNT_VALUE_VALUE k, .rw)]⟩,
  ⟨.CNT_PRESET, 0xC100010, [(0, 68, 0x1000), (0, 16, 0x40)], true, fun k => [(F.CNT_PRESET_VALUE k, .rw)]⟩,
  ⟨.CNT_MIB, 0xC200000, [(0, 512, 0x200), (0, 64, 0x8)], true, fun k => [(F.CNT_MIB_COUNT k, .ro)]⟩,
  ⟨.CNT_MIB_DISC, 0xC240000, [(0, 512, 0x8)], true, fun k => [(F.CNT_MIB_DISC_TIME k, .ro)]⟩,
  ⟨.RAS_CFG, 0xD000000, [], false, fun _ => [(F.RAS_CFG_FATAL_STOP, .rw), (F.RAS_CFG_CE_LOG, .rw)]⟩,
  ⟨.RAS_CLASS_CNT, 0xD000010, [(0, 5, 0x4)], false, fun k => [(F.RAS_CLASS_CNT_COUNT k, .ro)]⟩,
  ⟨.RAS_FATAL_FIRST, 0xD000040, [(0, 8, 0x4)], false, fun k => [(F.RAS_FATAL_FIRST_WORD k, .ro)]⟩,
  ⟨.RAS_LOG_WR, 0xD000100, [], false, fun _ => [(F.RAS_LOG_WR_SEQ, .ro)]⟩,
  ⟨.RAS_LOG_RD, 0xD000104, [], false, fun _ => [(F.RAS_LOG_RD_SEQ, .rw)]⟩,
  ⟨.RAS_LOG_OVERRUN, 0xD000108, [], false, fun _ => [(F.RAS_LOG_OVERRUN_COUNT, .rc)]⟩,
  ⟨.RAS_SPARE_POLICY, 0xD000200, [], false, fun _ => [(F.RAS_SPARE_POLICY_MODE, .rwl), (F.RAS_SPARE_POLICY_ASK_KINDS, .rw)]⟩,
  ⟨.RAS_SPARE_STATUS, 0xD000204, [], false, fun _ => [(F.RAS_SPARE_STATUS_LIFE_VOID, .ro), (F.RAS_SPARE_STATUS_BUSY, .ro), (F.RAS_SPARE_STATUS_REQS, .ro), (F.RAS_SPARE_STATUS_SWAPS, .ro)]⟩,
  ⟨.RAS_SPARE_SUMMARY, 0xD000240, [(0, 8, 0x8)], false, fun k => [(F.RAS_SPARE_SUMMARY_TOTAL k, .ro), (F.RAS_SPARE_SUMMARY_FREE k, .ro)]⟩]

def regRows10 : List RegRow := [
  ⟨.RAS_SPARE_SUMMARY_HI, 0xD000244, [(0, 8, 0x8)], false, fun k => [(F.RAS_SPARE_SUMMARY_HI_FUSE k, .ro), (F.RAS_SPARE_SUMMARY_HI_FAILED k, .ro)]⟩,
  ⟨.RAS_SPARE_REQ, 0xD000300, [(0, 16, 0x10)], false, fun k => [(F.RAS_SPARE_REQ_VALID k, .ro), (F.RAS_SPARE_REQ_KIND k, .ro), (F.RAS_SPARE_REQ_TRIGGER k, .ro)]⟩,
  ⟨.RAS_SPARE_REQ_OBJ, 0xD000304, [(0, 16, 0x10)], false, fun k => [(F.RAS_SPARE_REQ_OBJ_OBJECT k, .ro)]⟩,
  ⟨.RAS_SPARE_REQ_AGE, 0xD000308, [(0, 16, 0x10)], false, fun k => [(F.RAS_SPARE_REQ_AGE_AGE k, .ro)]⟩,
  ⟨.RAS_SPARE_THRESH, 0xD000400, [(0, 8, 0x4)], false, fun k => [(F.RAS_SPARE_THRESH_THRESH k, .rw)]⟩,
  ⟨.RAS_TM_CFG, 0xD000500, [], false, fun _ => [(F.RAS_TM_CFG_SRC_EN, .rw), (F.RAS_TM_CFG_ERR_CLASS, .rw), (F.RAS_TM_CFG_HOLD, .rw), (F.RAS_TM_CFG_HELD, .w1c), (F.RAS_TM_CFG_OUT_SRC, .rw), (F.RAS_TM_CFG_FIRE, .w1s), (F.RAS_TM_CFG_ERR_CODE, .rw)]⟩,
  ⟨.RAS_TM_SEQ, 0xD000504, [], false, fun _ => [(F.RAS_TM_SEQ_SEQ, .ro)]⟩,
  ⟨.RAS_TM_IGNORED, 0xD000508, [], false, fun _ => [(F.RAS_TM_IGNORED_COUNT, .rc)]⟩,
  ⟨.RAS_INT_STATUS, 0xD000F00, [], false, fun _ => [(F.RAS_INT_STATUS_BITS, .w1c)]⟩,
  ⟨.RAS_INT_MASK, 0xD000F04, [], false, fun _ => [(F.RAS_INT_MASK_BITS, .rw)]⟩,
  ⟨.RAS_ALERT_EN, 0xD000F08, [], false, fun _ => [(F.RAS_ALERT_EN_EN, .rw)]⟩,
  ⟨.RAS_LOG, 0xD010000, [(0, 4096, 0x20), (0, 8, 0x4)], false, fun k => [(F.RAS_LOG_WORD k, .ro)]⟩,
  ⟨.DBG_CTL, 0xE000000, [], false, fun _ => [(F.DBG_CTL_ARM, .rwl), (F.DBG_CTL_SPARE_COUNT, .rw), (F.DBG_CTL_ACTIVE, .ro)]⟩,
  ⟨.DBG_PERTURB_CWAY, 0xE000100, [], false, fun _ => [(F.DBG_PERTURB_CWAY_DIR, .rw), (F.DBG_PERTURB_CWAY_BUNDLE, .rw), (F.DBG_PERTURB_CWAY_DELAY, .rw)]⟩,
  ⟨.DBG_PERTURB_CWAY_W1, 0xE000104, [], false, fun _ => [(F.DBG_PERTURB_CWAY_W1_CRC_EVERY, .rw)]⟩,
  ⟨.DBG_PERTURB_TM, 0xE000110, [], false, fun _ => [(F.DBG_PERTURB_TM_PORT, .rw), (F.DBG_PERTURB_TM_STALL, .rw)]⟩,
  ⟨.DBG_PERTURB_TM_W1, 0xE000114, [], false, fun _ => [(F.DBG_PERTURB_TM_W1_PERIOD, .rw)]⟩,
  ⟨.DBG_PERTURB_HBM, 0xE000120, [], false, fun _ => [(F.DBG_PERTURB_HBM_STACKS, .rw), (F.DBG_PERTURB_HBM_DELAY, .rw)]⟩,
  ⟨.DBG_PERTURB_PFC, 0xE000130, [], false, fun _ => [(F.DBG_PERTURB_PFC_PORT, .rw), (F.DBG_PERTURB_PFC_PRIOS, .rw), (F.DBG_PERTURB_PFC_DIR, .rw)]⟩,
  ⟨.DBG_PERTURB_LANE, 0xE000140, [], false, fun _ => [(F.DBG_PERTURB_LANE_LANE, .rw), (F.DBG_PERTURB_LANE_SYMS, .rw), (F.DBG_PERTURB_LANE_EVERY, .rw)]⟩,
  ⟨.DBG_PERTURB_ECC, 0xE000150, [], false, fun _ => [(F.DBG_PERTURB_ECC_KIND, .rw), (F.DBG_PERTURB_ECC_DOUBLE, .rw), (F.DBG_PERTURB_ECC_INSTANCE, .rw), (F.DBG_PERTURB_ECC_COUNT, .rw)]⟩,
  ⟨.DBG_INT_STATUS, 0xE000F00, [], false, fun _ => [(F.DBG_INT_STATUS_BITS, .w1c)]⟩,
  ⟨.DBG_INT_MASK, 0xE000F04, [], false, fun _ => [(F.DBG_INT_MASK_BITS, .rw)]⟩,
  ⟨.DBG_TM_SNAP, 0xE010000, [(0, 2048, 0x4)], false, fun k => [(F.DBG_TM_SNAP_WORD k, .ro)]⟩]

/-- The address map. -/
def regTable : List RegRow :=
  regRows0 ++ regRows1 ++ regRows2 ++ regRows3 ++ regRows4 ++ regRows5 ++ regRows6 ++ regRows7 ++ regRows8 ++ regRows9 ++ regRows10

/-- The row of a register. PRESUMED: log entry 9. -/
def regRow (r : RegName) : RegRow := regTable.getD r.ctorIdx ⟨.CHIP_ID, 0, [], false, fun _ => []⟩

end Sys2Proof.Machine
end

