-- ==== Sys2Proof/Machine/Ops.lean ====
section
/-! DEFINITION. The named operations over registers, interrupts, the error log and time that every block shares. -/

namespace Sys2Proof.Machine

/-! ### The register file -/

/-- The key of a field in the register file. DESIGN CHOICE: log entry 1. -/
def Fld.key (f : Fld) : Nat := Nat.pair f.reg.ctorIdx (Nat.pair f.ix f.lo)

/-- The present value of a field. DESIGN CHOICE: log entry 1. -/
def State.rd (s : State) (f : Fld) : Nat := mget s.regs f.key f.dflt % 2 ^ f.width

/-- Set a field; the value is cut to the field's width. DESIGN CHOICE: log entry 1. -/
def State.wr (s : State) (f : Fld) (v : Nat) : State :=
  { s with regs := mset s.regs f.key (v % 2 ^ f.width) f.dflt }

/-- Add to a counter that saturates at its largest value. -/
def State.satAdd (s : State) (f : Fld) (n : Nat) : State :=
  s.wr f (min (s.rd f + n) (2 ^ f.width - 1))

/-- Add to a counter that wraps. -/
def State.wrapAdd (s : State) (f : Fld) (n : Nat) : State := s.wr f (s.rd f + n)

/-- Subtract from a use count, not below 0. -/
def State.subFrom (s : State) (f : Fld) (n : Nat) : State := s.wr f (s.rd f - n)

/-- Whether a one-bit field is 1. -/
def State.on (s : State) (f : Fld) : Bool := s.rd f ≠ 0

/-- Set or clear a one-bit field. -/
def State.wrB (s : State) (f : Fld) (b : Bool) : State := s.wr f (if b then 1 else 0)

/-- Record something that leaves the device. DESIGN CHOICE: log entry 11. -/
def State.emit (s : State) (o : Out) : State := { s with out := o :: s.out }

/-- The next free value, for what the spec leaves open. DESIGN CHOICE: log entry 140. -/
def State.fresh (s : State) : Nat × State := (Config.freeValue s.free, { s with free := s.free + 1 })

/-- Time ticks since reset (R337). DESIGN CHOICE: log entry 135. -/
def State.now (s : State) : Nat := s.rd F.LIGHT_TICKS_TICKS

/-- The boot has reached READY (R403). -/
def State.ready (s : State) : Bool := s.rd F.BOOT_STATUS_STAGE = 6

/-! ### Time domains -/

/-- Domain `d`, 0 for A and 1 for B. -/
def State.dom (s : State) (d : Nat) : Dom := if d = 0 then s.domA else s.domB

/-- Replace domain `d`. -/
def State.setDom (s : State) (d : Nat) (x : Dom) : State :=
  if d = 0 then { s with domA := x } else { s with domB := x }

/-- The fraction of a nanosecond as it is read, in 2^−16 ns (R334). -/
def Dom.frac16 (x : Dom) : Nat := x.frac / 2 ^ 40

/-- The time of a domain in TS64 form (R305), `sub` sixteenths of a tick after the tick's start. -/
def Dom.ts64 (x : Dom) (sub : Nat) : Nat :=
  ((x.sec * 1000000000 + x.ns) * 2 ^ 16 + x.frac16 + sub * 2560) % 2 ^ 64

/-! ### Requesters and discarded writes -/

/-- The place of a requester in the order of R466. DEDUCED: log entry 113. -/
def requesterIx : Requester → Nat
  | .pf0 => 0
  | .vf f => f.val
  | .dysPcie _ => 32
  | .dysEth e => 33 + e.val
  | .jtag => 35
  | .regInit => 36

/-- SOURCE of CHIP_WDISCARD_STATE. -/
def requesterSource : Requester → Nat
  | .pf0 => 0 | .vf _ => 1 | .dysPcie _ => 2 | .dysEth _ => 3 | .jtag => 4 | .regInit => 5

/-- VF of CHIP_WDISCARD_STATE: the VF of a window, or of a VF's Dysum pair. -/
def requesterVf : Requester → Nat
  | .vf f => f.val
  | .dysPcie k => k.val - 3
  | _ => 0

/-- A request of `q` reaches a register outside the windows of the VFs (R403, R413, R431): the image's list always, a VF never, any other
once the device is READY, and before that where the boot ROM serves the register (`early`). DESIGN CHOICE: log entry 3. DEDUCED: log entry
108. -/
def State.grants (s : State) (q : Requester) (early : Bool) : Bool :=
  match q with
  | .regInit => true
  | .vf _ => false
  | .dysPcie k => k.val < 4 && (early || s.ready)
  | _ => early || s.ready

/-- A management port, which changes no field of the list of R434. -/
def viaEth : Requester → Bool
  | .dysEth _ => true
  | _ => false

/-! ### Interrupts (R475 to R479) -/

/-- INT_STATUS of instance `i` of a block. -/
def intStatus (b : Blk) (i : Nat) : Fld :=
  match b with
  | .chip => F.CHIP_INT_STATUS_BITS | .boot => F.BOOT_INT_STATUS_BITS | .clk => F.CLK_INT_STATUS_BITS
  | .pwr => F.PWR_INT_STATUS_BITS | .keep => F.KEEP_INT_STATUS_BITS | .light => F.LIGHT_INT_STATUS_BITS
  | .harb => F.HARB_INT_STATUS_BITS | .dys => F.DYS_INT_STATUS_BITS | .lane => F.LANE_INT_STATUS_BITS i
  | .mac => F.MAC_INT_STATUS_BITS i | .prs => F.PRS_INT_STATUS_BITS i | .pipe => F.PIPE_INT_STATUS_BITS i
  | .cway => F.CWAY_INT_STATUS_BITS | .lag => F.LAG_INT_STATUS_BITS | .tm => F.TM_INT_STATUS_BITS
  | .mc => F.MC_INT_STATUS_BITS i | .bpm => F.BPM_INT_STATUS_BITS | .atl => F.ATL_INT_STATUS_BITS
  | .tel => F.TEL_INT_STATUS_BITS | .cnt => F.CNT_INT_STATUS_BITS | .ras => F.RAS_INT_STATUS_BITS
  | .dbg => F.DBG_INT_STATUS_BITS

/-- INT_MASK of instance `i` of a block. -/
def intMask (b : Blk) (i : Nat) : Fld :=
  match b with
  | .chip => F.CHIP_INT_MASK_BITS | .boot => F.BOOT_INT_MASK_BITS | .clk => F.CLK_INT_MASK_BITS
  | .pwr => F.PWR_INT_MASK_BITS | .keep => F.KEEP_INT_MASK_BITS | .light => F.LIGHT_INT_MASK_BITS
  | .harb => F.HARB_INT_MASK_BITS | .dys => F.DYS_INT_MASK_BITS | .lane => F.LANE_INT_MASK_BITS i
  | .mac => F.MAC_INT_MASK_BITS i | .prs => F.PRS_INT_MASK_BITS i | .pipe => F.PIPE_INT_MASK_BITS i
  | .cway => F.CWAY_INT_MASK_BITS | .lag => F.LAG_INT_MASK_BITS | .tm => F.TM_INT_MASK_BITS
  | .mc => F.MC_INT_MASK_BITS i | .bpm => F.BPM_INT_MASK_BITS | .atl => F.ATL_INT_MASK_BITS
  | .tel => F.TEL_INT_MASK_BITS | .cnt => F.CNT_INT_MASK_BITS | .ras => F.RAS_INT_MASK_BITS
  | .dbg => F.DBG_INT_MASK_BITS

/-- The bit of CHIP_INT_SUMMARY that an instance of a block drives (R476, R477). -/
def summaryBit (b : Blk) (i : Nat) : Nat :=
  match b with
  | .chip => 0 | .boot => 1 | .clk => 2 | .pwr => 3 | .keep => 4 | .light => 5 | .harb => 6 | .dys => 7
  | .lane => 8 + i | .mac => 8 + i | .prs => 8 + i | .pipe => 8 + i
  | .cway => 24 | .lag => 25 | .tm => 26 | .mc => 27 + i
  | .bpm => 33 | .atl => 34 | .tel => 35 | .cnt => 36 | .ras => 37 | .dbg => 38

/-- A block's pending condition (R475). -/
def State.pendingOf (s : State) (b : Blk) (i : Nat) : Bool :=
  let st := s.rd (intStatus b i)
  st - (st &&& s.rd (intMask b i)) ≠ 0

/-- The four sub-blocks of an island, in the order of CHIP_INT_ISL (R476). -/
def islandBlks : List Blk := [.lane, .mac, .prs, .pipe]

/-- The pending condition behind bit `b` of CHIP_INT_SUMMARY (R477). -/
def State.summaryCond (s : State) (b : Nat) : Bool :=
  if b < 8 then s.pendingOf (([.chip, .boot, .clk, .pwr, .keep, .light, .harb, .dys] : List Blk).getD b .chip) 0
  else if b < 24 then islandBlks.any (fun k => s.pendingOf k (b - 8))
  else if b < 27 then s.pendingOf (([.cway, .lag, .tm] : List Blk).getD (b - 24) .cway) 0
  else if b < 33 then s.pendingOf .mc (b - 27)
  else if b < 39 then s.pendingOf (([.bpm, .atl, .tel, .cnt, .ras, .dbg] : List Blk).getD (b - 33) .bpm) 0
  else false

/-- A block vector's condition: the OR of the summary bits mapped to it (R478, R479). -/
def State.vectorCond (s : State) (v : Nat) : Bool :=
  (List.range 39).any (fun b => s.rd (F.CHIP_VEC_MAP_VECTOR b) = v && s.summaryCond b)

/-- A vector's message is due: it leaves, or a masked vector sets its pending bit (R479). Owner 0 is PF0. PRESUMED: log entry 8. -/
def State.sendVector (s : State) (owner v : Nat) : State :=
  if mget s.msixOn (key2 owner v) false then s.emit (.msix owner v)
  else { s with msixPend := mset s.msixPend (key2 owner v) true false }

/-- The vector of a ring or Dysum pair (R414, R478): PF0's ring vectors start at 1,024, and a number beyond the owner's
table acts as its last vector. A VECTOR field has 5 bits, so it never lies beyond a table of 32. -/
def ringVector (owner v : Nat) : Nat := if owner = 0 then 1024 + v else v

/-- Change the interrupt state of a block by `f` and send the vector's message if its condition rises (R479). -/
def State.intEdge (s : State) (b : Blk) (i : Nat) (f : State → State) : State :=
  let v := s.rd (F.CHIP_VEC_MAP_VECTOR (summaryBit b i))
  let t := f s
  if !s.vectorCond v && t.vectorCond v then t.sendVector 0 v else t

/-- Event `e` of a block: its INT_STATUS bit is set whatever INT_MASK holds (R475). -/
def State.raise (s : State) (b : Blk) (i e : Nat) : State :=
  s.intEdge b i (fun t => t.wr (intStatus b i) (setBit (t.rd (intStatus b i)) e true))

/-- Whether bit `e` of a block's INT_STATUS is set. -/
def State.intBit (s : State) (b : Blk) (i e : Nat) : Bool := bit (s.rd (intStatus b i)) e

/-- The address of instance `k` of a register (R464). -/
def regOffset : List (Nat × Nat × Nat) → Nat → Nat
  | [], _ => 0
  | (_, _, st) :: t, k =>
    let inner := t.foldl (fun a d => a * d.2.1) 1
    st * (k / inner) + regOffset t (k % inner)

/-- The byte address of instance `k` of register `r`. -/
def regAddr (r : RegName) (k : Nat) : Nat := (regRow r).base + regOffset (regRow r).dims k

/-- A discarded write (R472): counted, and recorded when WDISCARD is 0. DEDUCED: log entry 88. -/
def State.discard (s : State) (q : Requester) (addr state reason : Nat) : State :=
  let s := s.satAdd F.CHIP_WDISCARD_CNT_COUNT 1
  if s.intBit .chip 0 0 then s
  else
    let s := s.wr F.CHIP_WDISCARD_ADDR_ADDR addr
    let s := s.wr F.CHIP_WDISCARD_STATE_STATE state
    let s := s.wr F.CHIP_WDISCARD_STATE_REASON reason
    let s := s.wr F.CHIP_WDISCARD_STATE_SOURCE (requesterSource q)
    let s := s.wr F.CHIP_WDISCARD_STATE_VF (requesterVf q)
    s.raise .chip 0 0

/-- A write refused because the field of register `r` is locked in `state` (R472, R473, reason LOCK). -/
def State.locked (s : State) (q : Requester) (r : RegName) (k state : Nat) : State :=
  s.discard q (regAddr r k) state 0

end Sys2Proof.Machine
end

