-- ==== Sys2Proof/Machine/Report.lean ====
section
/-! DEFINITION. Counter dump edges (R328 to R330), Tidemark edges (R453 to R456) and the error log with the FATAL stop
(R436 to R443). -/

namespace Sys2Proof.Machine

/-! ### Counter dumps -/

/-- Length in bytes of a snapshot of the selected sets (R331). -/
def dumpLength (sets : Nat) : Nat :=
  64 + (List.range 5).foldl (fun a i =>
    a + if bit sets i then 16 + ([8704, 7680, 2048, 262144, 2359296] : List Nat).getD i 0 else 0) 0

/-- A dump edge (R328 to R330): it latches the selected sets, or is skipped and counted in MISSED. `src1` tells an edge
of SOURCE 1. SEQ rises at every edge. -/
def State.dumpEdge (s : State) (src1 : Bool) : State :=
  let seq := s.rd F.CNT_DUMP_SEQ_SEQ + 1
  let s := s.wr F.CNT_DUMP_SEQ_SEQ seq
  let slots := s.rd F.CNT_DUMP_RING_SLOTS
  let prod := s.rd F.CNT_DUMP_PROD_PROD
  let cons := s.rd F.CNT_DUMP_CONS_CONS
  if s.dump.isSome || (prod + 1) % slots = cons % slots then
    let s := s.satAdd F.CNT_DUMP_STATUS_MISSED 1
    { s with dumpMissed := true }.raise .cnt 0 2
  else if s.rd F.CNT_DUMP_RING_SLOT_KIB * 1024 < dumpLength (s.rd F.CNT_DUMP_CFG_SETS) then
    (s.wrB F.CNT_DUMP_STATUS_CFG_ERR true).raise .cnt 0 3
  else
    let d : DumpRec :=
      { seq := seq, sets := s.rd F.CNT_DUMP_CFG_SETS,
        flags := (if s.dumpStep then 1 else 0) + (if s.dumpMissed then 2 else 0) + (if src1 then 4 else 0),
        sec := s.domA.sec, ns := s.domA.ns, frac := s.domA.frac16, ticks := s.now,
        missed := s.rd F.CNT_DUMP_STATUS_MISSED, regs := s.regs, hist := s.histDump }
    { s with dump := some d, dumpStep := false, dumpMissed := false, histDump := [] }.wrB F.CNT_DUMP_STATUS_BUSY true

/-! ### Tidemark -/

/-- The snapshot that an edge latches (R454, R456). -/
def State.takeSnap (s : State) (sources logSeq : Nat) : State :=
  let seq := s.rd F.RAS_TM_SEQ_SEQ + 1
  let s := s.wr F.RAS_TM_SEQ_SEQ seq
  let s := { s with snap := some { seq := seq % 2 ^ 32, sources := sources, sec := s.domA.sec, ns := s.domA.ns,
                                   frac := s.domA.frac16, ticks := s.now, logSeq := logSeq, regs := s.regs } }
  if s.on F.RAS_TM_CFG_HOLD || s.fatalFirst.isSome then s.wrB F.RAS_TM_CFG_HELD true else s

/-- One more source of the edge's own tick: the edge names it, and the first event logged (R453, R456). -/
def TmEdge.join (e : TmEdge) (src logSeq : Nat) (out : Bool) : TmEdge :=
  { e with sources := e.sources ||| 2 ^ src, out := e.out || out,
           logSeq := if src = 3 && !bit e.sources 3 then logSeq else e.logSeq }

/-- A Tidemark source fires (R453): the sources of one tick make one edge, an edge less than 1,600 ticks after the last accepted one is
counted and ignored, and a disabled source fires nothing. The edge latches at tick n + 8 (R454). DESIGN CHOICE: log entry 166. -/
def State.tidemark (s : State) (src logSeq : Nat) : State :=
  let out : Bool := bit (s.rd F.RAS_TM_CFG_OUT_SRC) src
  if !bit (s.rd F.RAS_TM_CFG_SRC_EN) src then s
  else if s.tmLast = some s.now then
    { s with ras := { s.ras with edge := s.ras.edge.map (fun e => e.join src logSeq out) } }
  else if s.tmLast.any (fun t => s.now - t < 1600) then s.satAdd F.RAS_TM_IGNORED_COUNT 1
  else
    { s with tmLast := some s.now,
             ras := { s.ras with edge := some { at_ := s.now + 8, sources := 2 ^ src, logSeq := logSeq, out := out } } }

/-- The edge latches (R328, R454 to R456): TIDEMARK_OUT rises for 64 ticks where a source drives it, with SOURCE 1 the counters are dumped,
and a snapshot is taken unless HELD is set. DESIGN CHOICE: log entry 166. -/
def State.tmLatch (s : State) (e : TmEdge) : State :=
  let s := { s with ras := { s.ras with edge := none } }
  let s := if e.out then { s with ras := { s.ras with tmOut := some (s.now + 64) } }.emit (.pin .tidemarkOut true) else s
  let s := if s.on F.CNT_DUMP_CFG_EN && s.on F.CNT_DUMP_CFG_SOURCE then s.dumpEdge true else s
  if s.on F.RAS_TM_CFG_HELD then s else s.takeSnap e.sources e.logSeq

/-- TIDEMARK_OUT falls 64 ticks after it rose (R455). -/
def State.tmFall (s : State) : State :=
  if s.ras.tmOut.any (fun t => t ≤ s.now) then { s with ras := { s.ras with tmOut := none } }.emit (.pin .tidemarkOut false) else s

/-! ### The error log -/

/-- The class codes of R436. -/
def corrected : Nat := 0
/-- CONTAINED (R436). -/
def contained : Nat := 1
/-- DEGRADED (R436). -/
def degraded : Nat := 2
/-- FATAL (R436). -/
def fatal : Nat := 3
/-- NOTICE (R436). -/
def notice : Nat := 4

/-- Whether an event of class `c`, CODE `code` and UNIT `unit` merges into entry `e` (R442): CORRECTED and NOTICE
events merge into an entry of the same class, CODE and UNIT written less than 1 ms earlier. -/
def LogEntry.merges (e : LogEntry) (now c code unit : Nat) : Bool :=
  (c = corrected || c = notice) && e.cls = c && e.code = code && e.unit = unit && !e.restored && now - e.tick < 1600000

/-- Add 1 to COUNT of the first entry that `p` accepts. -/
def bumpFirst (p : LogEntry → Bool) : List LogEntry → List LogEntry
  | [] => []
  | e :: t => if p e then { e with count := e.count + 1 } :: t else e :: bumpFirst p t

/-- Write an event into the log: merged, or as a new entry at RAS_LOG_WR that overwrites the oldest (R441, R442). -/
def State.logWrite (s : State) (c code unit detail : Nat) (inj : Bool) : State :=
  if s.log.any (fun e => e.merges s.now c code unit) then
    { s with log := bumpFirst (fun e => e.merges s.now c code unit) s.log }
  else
    let seq := s.rd F.RAS_LOG_WR_SEQ
    let e : LogEntry := { seq := seq, cls := c, inj := inj, restored := false, code := code, unit := unit, count := 1,
                          timeS := s.domA.sec % 2 ^ 32, timeNs := s.domA.ns, detail := detail, tick := s.now }
    let old := if s.log.length ≥ 4096 then s.log.getLast? else none
    let s := if old.any (fun o => s.rd F.RAS_LOG_RD_SEQ ≤ o.seq) then s.satAdd F.RAS_LOG_OVERRUN_COUNT 1 else s
    let s := s.wrapAdd F.RAS_LOG_WR_SEQ 1
    let s := { s with log := (e :: s.log).take 4096 }
    if c = fatal && s.fatalFirst.isNone then { s with fatalFirst := some e } else s

/-- An event of class `c` (R436 to R443): it counts in RAS_CLASS_CNT and sets its class bit, is logged unless CE_LOG keeps
a CORRECTED event out, fires a Tidemark error edge when it is logged, and a FATAL event stops the XH9 under R438. -/
def State.event (s : State) (c code unit detail : Nat) (inj : Bool := false) : State :=
  let s := s.satAdd (F.RAS_CLASS_CNT_COUNT c) 1
  let s := s.raise .ras 0 c
  let s :=
    if c = corrected && !s.on F.RAS_CFG_CE_LOG then s
    else
      let s := s.logWrite c code unit detail inj
      if bit (s.rd F.RAS_TM_CFG_ERR_CLASS) c || (code ≠ 0 && code = s.rd F.RAS_TM_CFG_ERR_CODE) then
        s.tidemark 3 (s.rd F.RAS_LOG_WR_SEQ - 1)
      else s
  if c = fatal && s.on F.RAS_CFG_FATAL_STOP && !s.fatalStop then
    { s with fatalStop := true }.emit (.pin .alertN false)
  else s

/-- Block codes of R439. -/
def blkCode (b : Blk) (i : Nat) : Nat :=
  match b with
  | .chip => 0x00 | .boot => 0x01 | .clk => 0x02 | .pwr => 0x03 | .keep => 0x04 | .light => 0x05 | .harb => 0x06
  | .dys => 0x07 | .lane => 0x10 + i | .mac => 0x10 + i | .prs => 0x10 + i | .pipe => 0x10 + i
  | .cway => 0x20 | .lag => 0x21 | .tm => 0x22 | .mc => 0x23 | .bpm => 0x24 | .atl => 0x25 | .tel => 0x26
  | .cnt => 0x27 | .ras => 0x28 | .dbg => 0x29

/-- CODE of event bit or common code `e` of a block (R439). DESIGN CHOICE: log entry 31. -/
def codeOf (b : Blk) (i e : Nat) : Nat := blkCode b i * 256 + e

/-- ALERT_N is asserted (R436): a status bit that RAS_ALERT_EN enables is set, or a FATAL stop holds. -/
def State.alert (s : State) : Bool :=
  s.fatalStop || (s.rd F.RAS_INT_STATUS_BITS &&& s.rd F.RAS_ALERT_EN_EN) ≠ 0

/-- Forwarding is stopped: a FATAL stop (R438), a thermal trip (R378) or a JTAG instruction of R461. -/
def State.stopped (s : State) : Bool := s.fatalStop || s.thermTrip || s.scanStop

end Sys2Proof.Machine
end

