-- ==== Sys2Proof/Machine/TimeOps.lean ====
section
/-! DEFINITION. Time domains: increments, steps, states, master loss and timestamp capture (R334 to R345, R353, R354). -/

namespace Sys2Proof.Machine

/-- One second in 2^−56 ns. -/
def secondUnits : Nat := 1000000000 * 2 ^ 56

/-- A domain's time in 2^−56 ns. -/
def Dom.total (x : Dom) : Nat := (x.sec * 1000000000 + x.ns) * 2 ^ 56 + x.frac

/-- A domain's time in time ticks of 625 ps, whole (R200). -/
def Dom.ticks (x : Dom) : Nat := x.total * 8 / (5 * 2 ^ 56)

/-- A domain with its time set to `t` 2^−56 ns; seconds have 64 bits. -/
def Dom.withTotal (x : Dom) (t : Nat) : Dom :=
  { x with sec := t / secondUnits % 2 ^ 64, ns := t % secondUnits / 2 ^ 56, frac := t % 2 ^ 56 }

/-- ADJ clamped to ±1,000 ppm (R335). -/
def clampAdj (a : Int) : Int := max (-65536000000) (min a 65536000000)

/-- The effective increment of NATIVE mode in 2^−56 ns per tick: nominal × (1 + ADJ × 2^−16 × 10^−9), cut below the 24 further bits (R335).
DESIGN CHOICE: log entry 4. -/
def nativeEff (adj : Int) : Nat := (0xA0000000 * 2 ^ 24 + (0xA0000000 * 2 ^ 8 * clampAdj adj) / 1000000000).toNat

/-- The increment that a domain's mode and registers give (R335, R338). DESIGN CHOICE: log entry 4. -/
def State.modeEff (s : State) (d : Nat) : Nat :=
  if s.on (F.LIGHT_CTL_MODE d) then s.rd (F.LIGHT_INCR_INCR d) * 2 ^ 24
  else nativeEff (sext 40 (s.rd (F.LIGHT_RATE_ADJ_ADJ d)))

/-- Domain A follows domain B (R344). -/
def State.following (s : State) : Bool := s.on (F.LIGHT_STATUS_FOLLOWING_B 0)

/-- The increment of the next tick of domain `d` (R335, R336, R344). DESIGN CHOICE: log entries 4, 12. -/
def State.nextEff (s : State) (d : Nat) : Nat :=
  if d = 0 && s.following then (if s.domB.keepEff then s.domB.eff else s.modeEff 1)
  else if (s.dom d).keepEff then (s.dom d).eff else s.modeEff d

/-- A step applied to a time in 2^−56 ns: a relative step is normalised, and a time before 0 s becomes 0 (R339). DEDUCED: log entry 5. -/
def LightStep.apply (x : LightStep) (t : Nat) : Nat :=
  let v : Int := (sext 64 x.s * 1000000000 + sext 32 x.ns) * 2 ^ 56 + x.frac * 2 ^ 40
  (if x.abs then v else (t : Int) + v).toNat

/-- What a list of steps makes of a time. DEDUCED: log entry 5. -/
def applySteps (l : List LightStep) (t : Nat) : Nat := l.foldl (fun a x => x.apply a) t

/-- `n` time ticks (R334, R336, R337, R344): the first tick adds the new increment and applies the waiting steps, the others add the
increment. Domain A, following domain B, takes each step of domain B by the same amount. DESIGN CHOICE: log entry 2. -/
def State.ticks (s : State) (n : Nat) : State :=
  if n = 0 then s
  else
    let ea := s.nextEff 0
    let eb := s.nextEff 1
    let tb0 := s.domB.total + eb
    let tb1 := applySteps s.domB.steps tb0
    let ta0 := s.domA.total + ea
    let ta1 := if s.following then ((ta0 : Int) + (tb1 : Int) - (tb0 : Int)).toNat else applySteps s.domA.steps ta0
    let a := ({ s.domA with eff := ea, steps := [] }.withTotal (ta1 + (n - 1) * ea))
    let b := ({ s.domB with eff := eb, steps := [] }.withTotal (tb1 + (n - 1) * eb))
    { s with domA := a, domB := b }.wrapAdd F.LIGHT_TICKS_TICKS n

/-- The STATE of domain `d` (R341): 0 FREE, 1 ACQUIRE, 2 LOCKED, 3 HOLDOVER. -/
def State.lightState (s : State) (d : Nat) : Nat := s.rd (F.LIGHT_STATUS_STATE d)

/-- Following of domain B ends; domain A keeps the increment of that tick (R344). DESIGN CHOICE: log entry 12. -/
def State.endFollow (s : State) : State :=
  if s.following then
    { s with domA := { s.domA with keepEff := true } }.wrB (F.LIGHT_STATUS_FOLLOWING_B 0) false
  else s

/-- Domain `d` enters `st`. Entry to LOCKED starts the watches of R343; leaving HOLDOVER ends following and a kept
increment; domain B leaving LOCKED ends following (R342 to R344). -/
def State.lightEnter (s : State) (d st : Nat) : State :=
  let s := if d = 0 then s.endFollow else if s.lightState 1 = 2 then s.endFollow else s
  let x := { s.dom d with keepEff := false }
  let x := if st = 2 then { x with wdFrom := s.now, ppsFromS := s.domA.sec, ppsFromNs := s.domA.ns } else x
  ((s.setDom d x).wr (F.LIGHT_STATUS_STATE d) st).raise .light 0 0

/-- The master of a LOCKED domain is lost (R343): it enters HOLDOVER, and domain A starts to follow a LOCKED domain B when
B_FOLLOW is 1 (R344). -/
def State.loseMaster (s : State) (d : Nat) : State :=
  let s := s.lightEnter d 3
  if d = 0 && s.on (F.LIGHT_CTL_B_FOLLOW 0) && s.lightState 1 = 2 then
    (s.wrB (F.LIGHT_STATUS_FOLLOWING_B 0) true).raise .light 0 3
  else s

/-- The software watchdog of domain `d` has run out: WD_TIMEOUT in units of 100 ms, 0 acting as 1 (R343). -/
def State.wdExpired (s : State) (d : Nat) : Bool :=
  s.now - (s.dom d).wdFrom ≥ max 1 (s.rd (F.LIGHT_CTL_WD_TIMEOUT d)) * 160000000

/-- MISS seconds of domain A have passed without an accepted edge, 0 acting as 1 (R343). -/
def State.ppsMissed (s : State) (d : Nat) : Bool :=
  let x := s.dom d
  s.domA.sec * 1000000000 + s.domA.ns ≥
    (x.ppsFromS + max 1 (s.rd F.LIGHT_PPS_IN_CFG_MISS)) * 1000000000 + x.ppsFromNs

/-- The state allows a step of domain `d` (R338, R339): any in DIRECT mode, one in each stay in ACQUIRE in NATIVE mode,
and none for domain A while it follows domain B (R344). -/
def State.stepAllowed (s : State) (d : Nat) : Bool :=
  (s.on (F.LIGHT_CTL_MODE d) || (s.lightState d = 1 && !s.on (F.LIGHT_STATUS_STEP_USED d))) &&
    !(d = 0 && s.following)

/-- What a step of domain `d` does beside the time (R338 to R340): DISC, the interrupt, and for domain A the STEP flag of the next counter
dump (R328). DEDUCED: log entries 6, 7. -/
def State.stepEffects (s : State) (d : Nat) : State :=
  let s := (s.satAdd (F.LIGHT_STATUS_DISC d) 1).raise .light 0 1
  if d = 0 then
    (List.range 512).foldl (fun s p =>
      if s.on (F.TM_GATE_CTL_EN p) || s.on (F.TM_GATE_STATUS_PENDING p) then s.satAdd (F.TM_GATE_STATUS_STEPS p) 1 else s)
      { s with dumpStep := true }
  else s

/-- An accepted step waits for the next tick (R339). A step of domain B that domain A follows counts in domain A too (R344). DEDUCED: log
entry 6. -/
def State.acceptStep (s : State) (d : Nat) (x : LightStep) : State :=
  let s := if s.on (F.LIGHT_CTL_MODE d) then s else s.wrB (F.LIGHT_STATUS_STEP_USED d) true
  let s := s.setDom d { s.dom d with steps := (s.dom d).steps ++ [x] }
  let s := s.stepEffects d
  if d = 1 && s.following then s.stepEffects 0 else s

/-- The state allows a request of R342: 1 ACQUIRE, 2 LOCKED, 3 FREE. -/
def reqAllowed (st req : Nat) : Bool :=
  match req with
  | 1 => st ≠ 1
  | 2 => st = 1 || st = 3
  | 3 => st ≠ 0
  | _ => false

/-- The state that a request of R342 leads to. -/
def reqState (req : Nat) : Nat := if req = 3 then 0 else req

/-- An allowed request of R342: the domain enters the named state, and entry to ACQUIRE clears STEP_USED. -/
def State.applyReq (s : State) (d req : Nat) : State :=
  let s := s.lightEnter d (reqState req)
  if req = 1 then s.wrB (F.LIGHT_STATUS_STEP_USED d) false else s

/-- A capture for the TX timestamp FIFO of port `p` (R353, R354): the full FIFO drops it, counts it and leaves GAP to the
port's next entry. -/
def State.tsfCapture (s : State) (p msg dom ptpDom seqId ts : Nat) : State :=
  let i := p / 32
  let q := mget s.tsf i []
  if q.length ≥ 512 then
    let s := { s with tsGap := mset s.tsGap p true false }.satAdd (F.LIGHT_TS_LOST_COUNT p) 1
    if s.intBit .light 0 5 then s else s.raise .light 0 5
  else
    let gap := mget s.tsGap p false
    let w0 := p + msg % 16 * 2 ^ 10 + dom % 2 * 2 ^ 14 + (if gap then 2 ^ 15 else 0) + ptpDom % 256 * 2 ^ 16 + 2 ^ 31
    let e : TsfEntry := { w0 := w0, w1 := seqId % 65536, ts := ts }
    let s := { s with tsf := mset s.tsf i (q ++ [e]) [], tsGap := mset s.tsGap p false false }
    let s := s.wr (F.LIGHT_TSF_STATUS_COUNT i) (q.length + 1)
    if q.length + 1 = max 1 (s.rd (F.LIGHT_TSF_CFG_LEVEL i)) then s.raise .light 0 4 else s

/-- The instant of domain A, `off` 2^−56 ns after a whole second, falls into the tick that the domain is in (R356, R358). -/
def Dom.atSecond (x : Dom) (off : Int) : Bool :=
  let u := ((x.total : Int) - off) % (secondUnits : Int)
  u = 0 || (secondUnits : Int) - u < x.eff

/-- A delay in ps in units of 2^−16 ns (R348); the spec gives no rounding, and the model rounds down. DESIGN CHOICE: log entry 22. -/
def psUnits (v : Int) : Int := v * 65536 / 1000

/-- The timestamp of domain `d` in TS64 form, `age` ticks before the present tick and `sub` sixteenths after that tick's start, with a delay
of `delay` ps added (R347, R348). DESIGN CHOICE: log entry 22. -/
def State.stamp (s : State) (d age sub : Nat) (delay : Int) : Nat :=
  let x := s.dom d
  trunc 64 (((x.total / 2 ^ 40 : Nat) : Int) - ((age * x.eff / 2 ^ 40 : Nat) : Int) + ((sub * 2560 : Nat) : Int) + psUnits delay)

/-- Arming the Tidemark compare: an instant less than LIGHT_LEAD ahead fires at now + LIGHT_LEAD (R359). -/
def State.armCompare (s : State) : State :=
  let lead := max 100 (s.rd F.LIGHT_LEAD_LEAD)
  let nowNs := s.domA.sec * 1000000000 + s.domA.ns
  let at0 := s.rd F.LIGHT_TM_CMP_S_S * 1000000000 + s.rd F.LIGHT_TM_CMP_NS_NS
  let t := max at0 (nowNs + lead)
  { s with cmpAt := some (t / 1000000000, t % 1000000000) }

end Sys2Proof.Machine
end

