-- ==== Sys2Proof/Machine/DysOps.lean ====
section
/-! DEFINITION. Dysum responses (R421 to R424) and long commands that hold their ring (R424, R429). -/

namespace Sys2Proof.Machine

/-- The Dysum status codes of R427. -/
def stOk : Nat := 0x00
/-- BAD_OPCODE -/
def stBadOpcode : Nat := 0x01
/-- BAD_ARG -/
def stBadArg : Nat := 0x02
/-- NO_RESOURCE -/
def stNoResource : Nat := 0x03
/-- DENIED -/
def stDenied : Nat := 0x04
/-- STATE_CONFLICT -/
def stConflict : Nat := 0x05
/-- BUSY -/
def stBusy : Nat := 0x06
/-- TIMEOUT -/
def stTimeout : Nat := 0x07
/-- IMAGE_INVALID -/
def stImageInvalid : Nat := 0x08
/-- NO_BUFFER -/
def stNoBuffer : Nat := 0x09

/-- The function that owns Dysum pair `k`: pairs 0–3 belong to PF0, pair 3 + f to VF f (R420). -/
def pairOwner (k : Nat) : Nat := k - 3

/-- Entries of a Dysum ring from its size code, values above 8 acting as 8 (DYS_RING_CFG). -/
def dysSize (code : Nat) : Nat := 2 ^ (min code 8 + 4)

/-- State of management port `e`. -/
def State.ethX (s : State) (e : Nat) : EthX := mget s.dys.eth e {}

/-- Replace the state of management port `e`. -/
def State.setEth (s : State) (e : Nat) (x : EthX) : State :=
  { s with dys := { s.dys with eth := mset s.dys.eth e x {} } }

/-- One response of the datagram in hand on port `e`; with the last one the response datagram leaves, is cached, and its SEQ counts as
carried out (R422, R423). DEDUCED: log entry 167. -/
def State.ethRespond (s : State) (e : Nat) (r : Rsp) : State :=
  let x := s.ethX e
  match x.cur with
  | none => s
  | some (seq, left, rs) =>
    let rs := rs ++ [r]
    if left ≤ 1 then
      (s.setEth e { x with lastSeq := some seq, cur := none, cache := ((seq, rs) :: x.cache).take 64 }).emit
        (.dysDatagram e seq rs)
    else s.setEth e { x with cur := some (seq, left - 1, rs) }

/-- The 32 bytes of a response entry (R421); RES_LEN is the length of the result. -/
def Rsp.bytes (r : Rsp) (phase : Bool) : Bytes :=
  leBytes 2 r.opcode ++ leBytes 2 r.tag ++ leBytes 1 r.status ++ leBytes 1 r.state ++ leBytes 2 r.result.length ++ leBytes 4 r.object ++
    leBytes 4 r.detail ++ (r.result ++ List.replicate 15 0).take 15 ++ leBytes 1 (if phase then 128 else 0)

/-- A response on ring `k` (R421), written to the next entry of the response ring: PHASE is 1 in the first pass and flips at each wrap,
RSP_TAIL advances, and the pair raises its vector. A ring that has been reset takes none. DEDUCED: log entry 112. -/
def State.ringRespond (s : State) (k : Nat) (r : Rsp) : State :=
  if !s.on (F.DYS_RING_CFG_EN k) then s
  else
    let t := s.rd (F.DYS_RSP_TAIL_TAIL k) + 1
    let at_ := s.rd (F.DYS_RSP_BASE_BASE k) + 32 * (t - 1)
    let ph := mget s.dys.phase k false
    let s := s.emit (.hostWrite (pairOwner k) at_ (r.bytes (!ph)))
    let n := dysSize (s.rd (F.DYS_RING_CFG_RSP_SIZE k))
    let s := s.wr (F.DYS_RSP_TAIL_TAIL k) (t % n)
    let s := if t = n then { s with dys := { s.dys with phase := mset s.dys.phase k (!ph) false } } else s
    s.sendVector (pairOwner k) (ringVector (pairOwner k) (s.rd (F.DYS_RING_CFG_VECTOR k)))

/-- Write the response of a command. DEDUCED: log entry 112. -/
def State.respond (s : State) (via : Via) (r : Rsp) : State :=
  match via with
  | .ring k => s.ringRespond k.val r
  | .eth e => s.ethRespond e.val r
  | .i2c => s.emit (.dysRsp r)

/-- Kinds of long work: a lane swap, another replacement, an image stage, a session close, a RETURN test. -/
def holdLane : Nat := 0
/-- A replacement of kinds 1 to 7 of R444 is hold kind 16 + KIND. -/
def holdSpare (kind : Nat) : Nat := 16 + kind
/-- IMAGE_STAGE -/
def holdStage : Nat := 1
/-- SESSION_CLOSE of an ACTIVE session -/
def holdClose : Nat := 2
/-- SPARE_RETURN -/
def holdReturn : Nat := 3

/-- The long commands of kind `kind` on object `ix` complete: their responses are written (R424, R429). -/
def State.finishHold (s : State) (kind ix status state detail : Nat) : State :=
  let done := s.dys.holds.filter (fun h => h.kind = kind && h.ix = ix)
  let s := { s with dys := { s.dys with holds := s.dys.holds.filter (fun h => !(h.kind = kind && h.ix = ix)) } }
  done.foldl (fun s h => s.respond h.via { opcode := h.opcode, tag := h.tag, status := status, state := state,
                                           object := h.object, detail := detail, result := [] }) s

end Sys2Proof.Machine
end

