-- ==== Sys2Proof/Machine/PortOps.lean ====
section
/-! DEFINITION. Ports and lanes: forms, lane maps, state changes, PFC frames, hellos and partner entries (R46, R57, R76 to
R80, R98 to R110). -/

namespace Sys2Proof.Machine

/-- No port in LANE_STATUS.PORT, PORT_PARTNER and the metadata. -/
def noPort : Nat := 0x3FF

/-- Number of lanes of port `p` (PORT_CFG.WIDTH). -/
def State.portWidth (s : State) (p : Nat) : Nat :=
  match s.rd (F.PORT_CFG_WIDTH p) with
  | 1 => 1 | 2 => 2 | 3 => 4 | 4 => 8 | _ => 0

/-- Payload rate of one lane in Gb/s by lane MODE (R46, R76). -/
def modeRate (m : Nat) : Nat := ([0, 400, 200, 100, 50, 25, 10] : List Nat).getD m 0

/-- Speed of port `p` in Gb/s (R76). -/
def State.portSpeed (s : State) (p : Nat) : Nat := modeRate (s.rd (F.PORT_CFG_MODE p)) * s.portWidth p

/-- Port `p` is a Strait port. -/
def State.strait (s : State) (p : Nat) : Bool := s.rd (F.PORT_CFG_MODE p) = 1

/-- STATE of port `p` (R108): 0 UNDEFINED, 1 DISABLED, 2 LINKING, 3 UP, 4 IDLE. -/
def State.portState (s : State) (p : Nat) : Nat := s.rd (F.PORT_STATUS_STATE p)

/-- The port is UP or IDLE. -/
def State.portLive (s : State) (p : Nat) : Bool := s.portState p = 3 || s.portState p = 4

/-- The port trains again after a wake (R111): what is queued for it waits. -/
def State.wakeLinking (s : State) (p : Nat) : Bool := s.portState p = 2 && (mget s.portX p {}).woke

/-- The port is LINKING, UP or IDLE, where its RWL fields are locked (R110). -/
def State.portLocked (s : State) (p : Nat) : Bool := s.portState p = 2 || s.portLive p

/-- Device lane of logical lane `k` of port `p`: as PORT_CFG places it, unless a swap has replaced it (R70). -/
def State.laneOf (s : State) (p k : Nat) : Nat :=
  (mget s.laneMap (key2 p k) none).getD (34 * (p / 32) + s.rd (F.PORT_CFG_FIRST_LANE p) + k)

/-- The hot spare of port `p`, 544 when it has none (R77). -/
def State.spareOf (s : State) (p : Nat) : Nat :=
  (mget s.laneMap (key2 p 8) none).getD
    (if s.rd (F.PORT_CFG_SPARE_LANE p) = 0x3F then 544 else 34 * (p / 32) + s.rd (F.PORT_CFG_SPARE_LANE p))

/-- The main lanes of port `p`, in logical order. -/
def State.mainLanes (s : State) (p : Nat) : List Nat := (List.range (s.portWidth p)).map (s.laneOf p)

/-- The main lanes and the hot spare of port `p`. -/
def State.allLanes (s : State) (p : Nat) : List Nat :=
  s.mainLanes p ++ (if s.spareOf p < 544 then [s.spareOf p] else [])

/-- STATE of lane `l` (R57): 0 OFF, 1 IDLE, 2 TRAINING, 3 LOCKED, 4 RESERVE, 5 FAILED. -/
def State.laneState (s : State) (l : Nat) : Nat := s.rd (F.LANE_STATUS_STATE l)

/-- Update what lane `l` holds beside its registers. -/
def State.updLane (s : State) (l : Nat) (f : LaneX → LaneX) : State :=
  { s with laneX := mset s.laneX l (f (mget s.laneX l {})) {} }

/-- What port `p` holds beside its registers. -/
def State.px (s : State) (p : Nat) : PortX := mget s.portX p {}

/-- Update what port `p` holds beside its registers. -/
def State.updPort (s : State) (p : Nat) (f : PortX → PortX) : State :=
  { s with portX := mset s.portX p (f (s.px p)) {} }

/-- Lane `l` enters `st` (R57, R58): LANE_STATUS, the island's interrupt, and for FAILED its own event. Leaving LOCKED and RESERVE clears
BLOCK_LOCK; SIGNAL_DET and CDR_LOCK stay as the receiver last reported them, in OFF too. TRAINING starts at the first phase. DEDUCED: log
entry 123. DESIGN CHOICE: log entry 149. -/
def State.laneEnter (s : State) (l st : Nat) : State :=
  if s.laneState l = st && st ≠ 2 then s
  else
    let s := (s.wr (F.LANE_STATUS_STATE l) st).raise .lane (l / 34) 0
    let s := if st = 3 || st = 4 then s.wrB (F.LANE_STATUS_BLOCK_LOCK l) true
             else (s.wrB (F.LANE_STATUS_BLOCK_LOCK l) false).wr (F.LANE_TRAIN_PHASE l) 0
    let s := if st = 1 then s else s.updLane l (fun x => { x with good := 0, rdySeen := 0, rxReady := false, ctl := 0, sts := 0, seen := 0, lastTap := 0, calm := true, precode := false })
    if st = 5 then s.raise .lane (l / 34) 4 else s

/-- The partner of port `p` announced lane management, and the widths agree (R105). -/
def State.partnerLm (s : State) (p : Nat) : Bool :=
  s.on (F.PORT_PARTNER_STATUS_VALID p) && bit (s.rd (F.PORT_PARTNER_PORT_CAP p)) 0 &&
    !s.on (F.PORT_PARTNER_STATUS_MISMATCH p)

/-- PORT_STATUS.SPARE_READY of port `p` brought up to date: the hot spare is in RESERVE and the partner announced lane
management. -/
def State.spareReady (s : State) (p : Nat) : State :=
  s.wrB (F.PORT_STATUS_SPARE_READY p) (s.spareOf p < 544 && s.laneState (s.spareOf p) = 4 && s.partnerLm p)

/-- Port `p` enters `st` (R109). -/
def State.portEnter (s : State) (p st : Nat) : State :=
  if s.portState p = st then s else (s.wr (F.PORT_STATUS_STATE p) st).raise .mac (p / 32) 0

/-! ### MIB counters -/

/-- Add to MIB counter `k` of port `p` (R321, R322). -/
def State.mib (s : State) (p k n : Nat) : State := s.wrapAdd (F.CNT_MIB_COUNT (64 * p + k)) n

/-- 0 unicast, 1 multicast, 2 broadcast, by the destination address. -/
def castOf (f : Bytes) : Nat :=
  if beAt f 0 6 = 0xFFFFFFFFFFFF then 2 else if bit (beAt f 0 1) 0 then 1 else 0

/-- A sent frame in the counters of R321. DEDUCED: log entry 23. -/
def State.mibTx (s : State) (p : Nat) (f : Bytes) : State :=
  (((s.mib p 32 f.length).mib p 33 1).mib p (34 + castOf f) 1).mib p 46 f.length

/-! ### Frames that the MAC builds -/

/-- The IEEE 802.3 frame check sequence, as it is sent. -/
def fcsOf (l : Bytes) : Bytes := leBytes 4 ((l.foldl (crcByteR 0xEDB88320) 0xFFFFFFFF) ^^^ 0xFFFFFFFF)

/-- Pad to 60 B and append the FCS (R96). -/
def padFcs (l : Bytes) : Bytes :=
  let l := l ++ List.replicate (60 - l.length) 0
  l ++ fcsOf l

/-- A scrambled block is dealt to its logical lane; the 80th makes a codeword, which leaves on the lane, and on the hot spare too while a
swap mirrors the lane (R70, R87, R88). -/
def State.dealBlock (s : State) (p : Nat) (b : Bits) : State :=
  let x := (s.px p).pcs
  let k := x.txCount % s.portWidth p
  let l := mget x.txLanes k [] ++ [b]
  let full : Bool := l.length = 80
  let s := s.updPort p (fun y => { y with pcs := { y.pcs with txCount := x.txCount + 1, txLanes := mset x.txLanes k (if full then [] else l) [] } })
  if full then
    let s := s.emit (.codeword (s.laneOf p k) (codewordPairs l))
    match mget s.swaps p none with
    | some w => if w.logical = k then s.emit (.codeword w.spare (codewordPairs l)) else s
    | none => s
  else s

/-- Blocks of the stream of Strait port `p` pass its scrambler and are dealt to its lanes (R86, R87). -/
def State.sendBlocks (s : State) (p : Nat) (l : List Bits) : State :=
  l.foldl (fun s b =>
    let r := scramble (s.px p).pcs.txScr b
    (s.updPort p (fun y => { y with pcs := { y.pcs with txScr := r.1 } })).dealBlock p r.2) s

/-- A frame leaves port `p`, FCS included; a Strait port codes it. The idle blocks that only fill time between frames are not shown. DESIGN
CHOICE: log entry 170. -/
def State.lineSend (s : State) (p : Nat) (f : Bytes) : State :=
  let s := s.emit (.frame p f)
  if s.strait p then s.sendBlocks p (frameBlocks f) else s

/-- What of a frame has left port `p` when its transmission breaks off: the octets `f`, then an error block (R174). A Strait port codes it. -/
def State.lineCut (s : State) (p : Nat) (f : Bytes) : State :=
  let s := s.emit (.frameCut p f)
  if s.strait p then s.sendBlocks p (cutBlocks f) else s

/-- A frame built by the MAC of port `p` leaves, and counts as sent: destination, the port's MAC_SA, Ethertype and payload. DEDUCED: log
entry 23. -/
def State.macSend (s : State) (p da etype : Nat) (payload : Bytes) : State :=
  let f := padFcs (beBytes 6 da ++ beBytes 6 (s.rd (F.MAC_SA_ADDR p)) ++ beBytes 2 etype ++ payload)
  (s.lineSend p f).mibTx p f

/-- A PFC frame with `time` quanta for the priorities in `prios` (R101, IEEE 802.1Qbb). -/
def State.sendPfc (s : State) (p prios time : Nat) : State :=
  let s := (List.range 8).foldl (fun s i => if bit prios i then s.mib p (38 + i) 1 else s) s
  s.macSend p 0x0180C2000001 0x8808
    (beBytes 2 0x0101 ++ beBytes 2 prios ++
      (List.range 8).flatMap (fun i => beBytes 2 (if bit prios i then time else 0)))

/-- XOFF that DBG_PERTURB_PFC with DIR 0 sends on port `p`, as if admission asked (R458). -/
def State.perturbXoff (s : State) (p : Nat) : Nat :=
  if s.on F.DBG_CTL_ARM && !s.on F.DBG_PERTURB_PFC_DIR && s.rd F.DBG_PERTURB_PFC_PORT = p then s.rd F.DBG_PERTURB_PFC_PRIOS else 0

/-- XOFF asked for and enabled on port `p`, by priority. -/
def State.xoffWanted (s : State) (p : Nat) : Nat :=
  ((s.px p).wantXoff ||| (s.px p).forceXoff ||| s.perturbXoff p) &&& s.rd (F.MAC_PFC_CFG_TX_EN p)

/-- Bring the PFC frames of port `p` in line with what admission and the power manager ask for (R101): XOFF leaves with
MAC_PFC_QUANTA.XOFF ahead of any data frame, XON with time 0. A port that is not UP sends neither (R115, R193). -/
def State.pfcUpdate (s : State) (p : Nat) : State :=
  if s.portState p ≠ 3 then s.wr (F.MAC_PFC_STATUS_TX_XOFF p) 0 else
  let want := s.xoffWanted p
  let have0 := s.rd (F.MAC_PFC_STATUS_TX_XOFF p)
  let s := s.wr (F.MAC_PFC_STATUS_TX_XOFF p) want
  let s := if want - (want &&& have0) ≠ 0 then
      (s.sendPfc p (want - (want &&& have0)) (s.rd (F.MAC_PFC_QUANTA_XOFF p))).updPort p
        (fun x => { x with pfcAt := (List.range 8).foldl (fun m g => if bit (want - (want &&& have0)) g then mset m g s.now 0 else m) x.pfcAt })
    else s
  if have0 - (want &&& have0) ≠ 0 then s.sendPfc p (have0 - (want &&& have0)) 0 else s

/-- Admission asks for XOFF (or XON) on priority `g` of port `p` (R192, R101). -/
def State.askXoff (s : State) (p g : Nat) (on : Bool) : State :=
  (s.updPort p (fun x => { x with wantXoff := setBit x.wantXoff g on })).pfcUpdate p

/-- `q` quanta of 512 bit times at the speed of port `p`, in time ticks, rounded up (R99). -/
def State.quantaTicks (s : State) (p q : Nat) : Nat :=
  (q * 8192 + (10 * s.portSpeed p - 1)) / (10 * s.portSpeed p)

/-- CAP of the hello of port `p` (R102, R105). -/
def State.helloCap (s : State) (p : Nat) (ferry : Bool) : Nat :=
  let sp := s.spareOf p
  let spare := (s.rd (F.PORT_CFG_SPARE_LANE p) ≠ 0x3F) &&
    ((sp < 544 && s.laneState sp = 4) || (s.mainLanes p).any (fun l => l % 34 ≥ 32))
  (if s.on (F.PORT_PARTNER_STATUS_MISMATCH p) then 0 else 1) + (if spare then 2 else 0) + 4 + (if ferry then 8 else 0) + 16

/-- Port `p` is a Ferry link: set in PWR_FERRY_PORT while FERRY_EN is 1. -/
def State.ferryLink (s : State) (p : Nat) : Bool :=
  s.on F.PWR_CFG_FERRY_EN &&
    (List.range 32).any (fun k => s.on (F.PWR_FERRY_PORT_VALID k) && s.rd (F.PWR_FERRY_PORT_PORT k) = p)

/-- CHIP_ID as it reads (R11). -/
def State.chipId (s : State) : Nat :=
  s.rd F.CHIP_ID_DEVICE * 2 ^ 16 + s.rd F.CHIP_ID_GRADE * 2 ^ 12 + s.rd F.CHIP_ID_STEP_MAJOR * 2 ^ 8 +
    s.rd F.CHIP_ID_STEP_MINOR * 2 ^ 4

/-- The fields of the hello of port `p` after its SEQ (R102). -/
def State.helloFields (s : State) (p : Nat) : Bytes :=
  beBytes 4 s.chipId ++ beBytes 8 s.fuses.serial ++ beBytes 2 p ++ beBytes 1 (s.portWidth p) ++ beBytes 1 (s.helloCap p (s.ferryLink p)) ++
  (List.range 8).flatMap (fun k => beBytes 2 (if k < s.portWidth p then s.laneOf p k else 0xFFFF)) ++
  beBytes 2 (if s.spareOf p < 544 then s.spareOf p else 0xFFFF) ++
  beBytes 2 (s.rd (F.PORT_HELLO_CFG_PERIOD (p / 32))) ++ beBytes 6 0

/-- The 46-byte payload of the hello of port `p` (R102). -/
def State.helloPayload (s : State) (p : Nat) : Bytes :=
  beBytes 1 1 ++ beBytes 1 1 ++ beBytes 2 (s.px p).helloSeq ++ s.helloFields p

/-- A hello of port `p` is due (R102): none has left since it entered UP, PERIOD has passed, or a field has changed. DESIGN CHOICE: log
entry 134. -/
def State.helloDue (s : State) (p : Nat) : Bool :=
  match (s.px p).helloSent with
  | none => true
  | some (t, f) => s.now - t ≥ max 1 (s.rd (F.PORT_HELLO_CFG_PERIOD (p / 32))) * 16000000 || s.helloFields p ≠ f

/-- A hello leaves port `p` (R102). -/
def State.sendHello (s : State) (p : Nat) : State :=
  (s.macSend p 0x0180C200000E (s.rd (F.PORT_HELLO_CFG_ETYPE (p / 32))) (s.helloPayload p)).updPort p
    (fun x => { x with helloSeq := (x.helloSeq + 1) % 65536, helloSent := some (s.now, s.helloFields p) })

/-- A partner entry changed (R104): the port's bit in MAC_PARTNER_CHG and the PARTNER interrupt. -/
def State.partnerChanged (s : State) (p : Nat) : State :=
  let i := p / 32
  ((s.wr (F.MAC_PARTNER_CHG_PORTS i) (setBit (s.rd (F.MAC_PARTNER_CHG_PORTS i)) (p % 32) true)).satAdd
    (F.PORT_PARTNER_STATUS_CHANGES p) 1).raise .mac i 2

/-- The partner entry of port `p` becomes invalid (R104). -/
def State.partnerInvalid (s : State) (p : Nat) : State :=
  if s.on (F.PORT_PARTNER_STATUS_VALID p) then
    ((s.wrB (F.PORT_PARTNER_STATUS_VALID p) false).partnerChanged p).spareReady p
  else s

end Sys2Proof.Machine
end

