-- ==== Sys2Proof/Machine/CountOps.lean ====
section
/-! DEFINITION. Periodic work, programmable counters (R324 to R326), MIB counters (R321) and top-down slots (R327). -/

namespace Sys2Proof.Machine

/-! ### Periodic work -/

/-- Kinds of periodic work, for the record of when each last ran. -/
inductive Timer where
  | shaper | trap | collector | sample | alpha | idle | refresh | gate | dump | itr | spare | soft | tcam | exporter
  | nack | holdOff | keep | thermal | trim | control | ferry | lag | report | announce | age | rate | scrub | track
  | retry | lmos | duty | throttle | takeback | ppsOut | cls | mtr | tbl | flow
deriving DecidableEq, Repr

/-- The tick at which work of kind `k` on object `i` last ran (0 before the first time). DESIGN CHOICE: log entry 135. -/
def State.ranAt (s : State) (k : Timer) (i : Nat) : Nat := mget s.timers (key2 k.ctorIdx i) 0

/-- `p` ticks have passed since work of kind `k` on object `i` last ran. DESIGN CHOICE: log entries 3, 135. -/
def State.due (s : State) (k : Timer) (i p : Nat) : Bool := s.now - s.ranAt k i ≥ p

/-- Record that work of kind `k` on object `i` ran at tick `t`. -/
def State.ran (s : State) (k : Timer) (i t : Nat) : State :=
  { s with timers := mset s.timers (key2 k.ctorIdx i) t 0 }

/-! ### Programmable counters -/

/-- Add `v` events of one clock to counter `n` (R325): a wrap sets OVF, raises the interrupt when INT is set, and loads
PRESET when RELOAD is set. The answer tells whether it wrapped. -/
def State.cntAdd (s : State) (n v : Nat) : Bool × State :=
  let t := s.rd (F.CNT_VALUE_VALUE n) + v
  if t < 2 ^ 48 then (false, s.wr (F.CNT_VALUE_VALUE n) t)
  else
    let s := s.wrB (F.CNT_CTL_OVF n) true
    let s := if s.on (F.CNT_CTL_INT n) then s.raise .cnt 0 0 else s
    (true, s.wr (F.CNT_VALUE_VALUE n) (if s.on (F.CNT_CTL_RELOAD n) then s.rd (F.CNT_PRESET_VALUE n) else t))

/-- Counter `n` counts event `ev` with argument `arg` (R324). -/
def State.cntSelects (s : State) (n ev arg : Nat) : Bool :=
  s.on (F.CNT_CTL_EN n) && s.rd (F.CNT_SEL_EVENT n) = ev &&
    (s.rd (F.CNT_SEL_ARG n) = 0xFF || s.rd (F.CNT_SEL_ARG n) = arg)

/-- A global event (R324): counters 1,024 to 1,087. -/
def State.cntGlobal (s : State) (ev arg v : Nat) : State :=
  (List.range 64).foldl (fun s k => if s.cntSelects (1024 + k) ev arg then (s.cntAdd (1024 + k) v).2 else s) s

/-- An event of pipeline `x` of island `i` (R324), with the packet it belongs to: a counter with SAMPLE that wraps keeps
the packet for its ring (R326). -/
def State.cntIsland (s : State) (i x ev arg v : Nat) (pkt : Option (RxFrame × Meta) := none) : State :=
  (List.range 64).foldl (fun s k =>
    let n := 64 * i + k
    if s.cntSelects n ev arg && bit (s.rd (F.CNT_SEL_PIPE_MASK n)) x then
      let r := s.cntAdd n v
      match pkt with
      | some d =>
        if r.1 && r.2.on (F.CNT_CTL_SAMPLE n) then
          { r.2 with tel := { r.2.tel with samples := r.2.tel.samples ++ [(10 * i + x, r.2.rd (F.CNT_CTL_RING n), d)] } }
        else r.2
      | none => r.2
    else s) s

/-- `n` issue slots of pipeline `x` of island `i` in top-down class `c` (R327). DESIGN CHOICE: log entry 30. -/
def State.slots (s : State) (i x c n : Nat) : State :=
  if n = 0 then s
  else ((s.wrapAdd (F.CNT_TD_COUNT (6 * (10 * i + x) + c)) n).cntIsland i x 0x02 c n)

/-! ### MIB counters -/

/-- The size bin of a received frame of `len` octets, at least 64. DEDUCED: log entry 24. -/
def sizeBin (len : Nat) : Nat :=
  if len ≤ 64 then 48 else if len ≤ 127 then 49 else if len ≤ 255 then 50 else if len ≤ 511 then 51
  else if len ≤ 1023 then 52 else if len ≤ 1518 then 53 else if len ≤ 2047 then 54 else if len ≤ 4095 then 55
  else if len ≤ 9216 then 56 else 57

/-- A good received frame in the counters of R321. -/
def State.mibRxGood (s : State) (p : Nat) (f : Bytes) : State :=
  ((((s.mib p 0 f.length).mib p 1 1).mib p (2 + castOf f) 1).mib p 20 f.length).mib p (sizeBin f.length) 1

/-- A received frame of a bad class in the counters of R321: `k` is 5 FCS, 6 coding, 7 runt, 8 jabber. -/
def State.mibRxErr (s : State) (p k len : Nat) : State :=
  let s := ((s.mib p k 1).mib p 22 1).mib p 20 len
  if len < 64 then s else s.mib p (sizeBin len) 1

/-- A MAC Control frame with a bad FCS counts as an FCS frame, in RX_FCS and IN_ERRORS (R321). -/
def State.mibRxBad (s : State) (p _len : Nat) : State := (s.mib p 5 1).mib p 22 1

/-- A good MAC Control frame (R321). -/
def State.mibRxControl (s : State) (p : Nat) (f : Bytes) : State :=
  let s := (s.mibRxGood p f).mib p 10 1
  match beAt f 14 2 with
  | 0x0001 => s.mib p 11 1
  | 0x0101 => (List.range 8).foldl (fun s g => if bit (beAt f 16 2) g then s.mib p (12 + g) 1 else s) s
  | _ => s

end Sys2Proof.Machine
end

