-- ==== Sys2Proof/Machine/BufOps.lean ====
section
/-! DEFINITION. Drops and telemetry records (R308 to R315), the Lagoon's accounts, thresholds, banks and reference counts
(R172 to R194). -/

namespace Sys2Proof.Machine

/-- Update the packet path. -/
def State.updPath (s : State) (f : Path → Path) : State := { s with path := f s.path }
/-- Update the traffic manager's hidden state. -/
def State.updTm (s : State) (f : TmSt → TmSt) : State := { s with tm := f s.tm }
/-- Update the match-action state. -/
def State.updMat (s : State) (f : MatSt → MatSt) : State := { s with mat := f s.mat }
/-- Update telemetry's hidden state. -/
def State.updTel (s : State) (f : TelSt → TelSt) : State := { s with tel := f s.tel }
/-- Update the buffer pool manager's hidden state. -/
def State.updBpm (s : State) (f : BpmSt → BpmSt) : State := { s with bpm := f s.bpm }

/-! ### Records for collectors -/

/-- A collector's bucket is full at 64 records (R312). -/
def fullBucket : Nat := 64 * 1000000

/-- Records that a frame of each TYPE holds at most (R314, R315, R320). -/
def recLimit (ty : Nat) : Nat := if ty = 3 then 16 else if ty = 4 then 64 else 8

/-- `rec` joins the newest frame of its collector and type, or opens the next one. -/
def addRecord (l : List ExpFrame) (lim tick : Nat) (rec : Bytes) : List ExpFrame :=
  match l.getLast? with
  | some f => if f.recs.length < lim then l.dropLast ++ [{ f with recs := f.recs ++ [rec] }]
              else l ++ [{ recs := [rec], since := tick }]
  | none => [{ recs := [rec], since := tick }]

/-- `n` records for collector `c` are lost (R307, R312): counted for LOST of the next frame. -/
def State.recLost (s : State) (c n : Nat) : State :=
  let s := s.updTel (fun t => { t with lost := mset t.lost c (mget t.lost c 0 + n) 0 })
  if s.intBit .tel 0 0 then s else s.raise .tel 0 0

/-- A record of TYPE `ty` for collector `c` (R312): it takes a token, or it is lost and counted. -/
def State.telRecord (s : State) (ty c : Nat) (rec : Bytes) : State :=
  if !s.on F.TEL_CFG_EN then s
  else if mget s.tel.tokens c fullBucket ≥ 1000000 then
    s.updTel (fun t =>
      { t with tokens := mset t.tokens c (mget t.tokens c fullBucket - 1000000) fullBucket,
               frames := mset t.frames (key2 c ty) (addRecord (mget t.frames (key2 c ty) []) (recLimit ty) s.now rec) [] })
  else s.recLost c 1

/-- QUEUE of R305 for a queue key (unicast q, multicast 8,192 + m). -/
def queueField (k : Nat) : Nat := if k < 8192 then k else 2 ^ 13 + (k - 8192)

/-- A postcard or drop-report record (R314). -/
def cardRecord (ts egr : Nat) (md : Meta) (res depth queue inPort outPort len reason flags : Nat) (frame : Bytes) : Bytes :=
  beBytes 8 ts ++ beBytes 8 egr ++ beBytes 8 md.flowKey ++ beBytes 8 md.egressMeta ++ beBytes 4 res ++
    beBytes 4 (depth % 2 ^ 20) ++ beBytes 2 queue ++ beBytes 2 inPort ++ beBytes 2 outPort ++ beBytes 2 len ++
    beBytes 1 reason ++ beBytes 1 flags ++ beBytes 1 (md.pg % 8 + md.colour % 4 * 8) ++ beBytes 1 (md.parseFail % 16) ++
    beBytes 12 0 ++ frame.take 64 ++ List.replicate (64 - frame.length) 0

/-! ### Drops -/

/-- LINK_DOWN (R269) -/
def dropLinkDown : Nat := 0x60
/-- PORT_DISABLED (R269) -/
def dropPortDisabled : Nat := 0x61

/-- Bit `c` of a 256-bit mask in eight words. -/
def State.dropBit (s : State) (f : Nat → Fld) (c : Nat) : Bool := bit (s.rd (f (c / 32))) (c % 32)

/-- What a drop reports of its packet. -/
structure DropInfo where
  inPort : Nat
  host : Bool
  data : Bytes
  md : Meta
  ts : Nat
  depth : Nat := 0
  queue : Nat := 0
  /-- the port to which it was enqueued, for OUT_DISCARDS -/
  outPort : Option Nat := none
  res : Nat := 0
  deep : Bool := false
  ce : Bool := false
  mcast : Bool := false
  /-- dropped before its program set TEL_FLAGS -/
  early : Bool := false
deriving DecidableEq, Repr

/-- The egress port of a drop report: the port it was enqueued to, or the one that the program chose. -/
def DropInfo.out (i : DropInfo) : Nat := i.outPort.getD i.md.egressPort

/-- A packet or multicast copy is dropped with `code` (R308, R310, R314, R321). DEDUCED: log entry 62. -/
def State.drop (s : State) (code : Nat) (i : DropInfo) : State :=
  let s := s.wrapAdd (F.TEL_DROP_CNT_COUNT code) 1
  let s := if i.inPort < 512 && !i.host then s.mib i.inPort 21 1 else s
  let s := match i.outPort with
    | some p => s.mib p 47 1
    | none => s
  let wanted := if i.early then s.dropBit F.TEL_DROP_ALL_MASK code
                else bit i.md.telFlags 3 && s.dropBit F.TEL_DROP_EN_MASK code
  if wanted then
    s.telRecord 2 (s.rd F.TEL_CFG_DROP_COL)
      (cardRecord i.ts 0 i.md i.res i.depth i.queue i.inPort i.out i.data.length code
        ((if i.deep then 1 else 0) + (if i.ce then 2 else 0) + (if i.mcast then 4 else 0) + (if i.md.badFrame then 8 else 0))
        i.data)
  else s

/-- A drop in the pipelines of island `i` (event 0x13 of R324). DEDUCED: log entry 62. -/
def State.pipeDrop (s : State) (i x code : Nat) (d : DropInfo) : State := (s.drop code d).cntIsland i x 0x13 code 1

/-! ### The halves and their events -/

/-- Event `e` of the Lagoon for half `h`: bit e, or e + 16 for the south half. DEDUCED: log entry 147. -/
def State.lagEvent (s : State) (h e : Nat) : State := s.raise .lag 0 (e + 16 * h)

/-- Cells of the ACTIVE banks of half `h`. -/
def State.activeCells (s : State) (h : Nat) : Nat :=
  ((List.range 34).filter (fun b => s.rd (F.LAG_BANK_STATUS_STATE (34 * h + b)) = 0)).length * 16384

/-- Bring SPILLING of half `h` up to date after a change of its free count (R176). -/
def State.spillUpdate (s : State) (h : Nat) : State :=
  let free := s.rd (F.LAG_HALF_STATUS_FREE h)
  let low := s.rd (F.LAG_SPILL_LOW_LOW h)
  let high := max low (s.rd (F.LAG_SPILL_HIGH_HIGH h))
  if !s.on (F.LAG_HALF_STATUS_SPILLING h) && free < low then
    (s.wrB (F.LAG_HALF_STATUS_SPILLING h) true).lagEvent h 0
  else if s.on (F.LAG_HALF_STATUS_SPILLING h) && free ≥ high then s.wrB (F.LAG_HALF_STATUS_SPILLING h) false
  else s

/-- Bring OVERCOMMIT of half `h` up to date (R185). -/
def State.overcommitUpdate (s : State) (h : Nat) : State :=
  let tooBig := s.rd (F.LAG_POOL_SIZE (3 * h)) + s.rd (F.LAG_POOL_SIZE (3 * h + 1)) + s.rd (F.LAG_POOL_SIZE (3 * h + 2)) >
    s.activeCells h
  let was := s.on (F.LAG_HALF_STATUS_OVERCOMMIT h)
  let s := s.wrB (F.LAG_HALF_STATUS_OVERCOMMIT h) tooBig
  if tooBig && !was then s.lagEvent h 1 else s

/-- Used cells of pool `k` of half `h`: 0 reserved, 1 shared, 2 headroom. -/
def State.used (s : State) (h k : Nat) : Nat := s.rd (F.LAG_HALF_USE_USED (3 * h + k))

/-- Cells of pool `k` of half `h` that are still free. -/
def State.poolFree (s : State) (h k : Nat) : Nat := s.rd (F.LAG_POOL_SIZE (3 * h + k)) - s.used h k

/-- F of R178: the free count of the shared pool of half `h`. -/
def State.sharedFree (s : State) (h : Nat) : Nat := s.poolFree h 1

/-- `x ≤ α × f` for an ALPHA code: α = 2^(k − 6), codes above 9 acting as 9 (R179). -/
def withinAlpha (x code f : Nat) : Bool := x * 64 ≤ f * 2 ^ min code 9

/-! ### Queue registers of the Lagoon, by queue key (unicast q, multicast 8,192 + m) -/

/-- OCC of a queue. -/
def occF (k : Nat) : Fld := if k < 8192 then F.LAG_Q_STATUS_OCC k else F.LAG_MQ_STATUS_OCC (k - 8192)
/-- ALPHA of a queue. -/
def qAlphaF (k : Nat) : Fld := if k < 8192 then F.LAG_Q_CFG_ALPHA k else F.LAG_MQ_CFG_ALPHA (k - 8192)
/-- ADAPT of a queue. -/
def qAdaptF (k : Nat) : Fld := if k < 8192 then F.LAG_Q_CFG_ADAPT k else F.LAG_MQ_CFG_ADAPT (k - 8192)
/-- ALPHA_CUR of a queue. -/
def qCurF (k : Nat) : Fld := if k < 8192 then F.LAG_Q_STATUS_ALPHA_CUR k else F.LAG_MQ_STATUS_ALPHA_CUR (k - 8192)
/-- LAG_Q_MAX of a queue. -/
def qMaxF (k : Nat) : Fld := if k < 8192 then F.LAG_Q_MAX_MAX k else F.LAG_MQ_MAX_MAX (k - 8192)

/-- The working α code of a queue: ALPHA while ADAPT is 0 (R187). -/
def State.alphaCur (s : State) (k : Nat) : Nat := if s.on (qAdaptF k) then s.rd (qCurF k) else s.rd (qAlphaF k)

/-- The ALPHA of a queue that is in force: while ADAPT is 1, a write takes effect at the next period boundary (R187). Codes 10 to 15 act as 9
(R179). -/
def State.alphaSet (s : State) (k : Nat) : Nat :=
  match mget s.path.alphaWas k 0 with
  | 0 => min 9 (s.rd (qAlphaF k))
  | v + 1 => min 9 v

/-- Ticks of an adaptation period (R186). -/
def State.adaptPeriod (s : State) : Nat := max 1 (s.rd F.LAG_CFG_ADAPT_PERIOD) * 1600

/-- After a write to the configuration of queue `k` (R186, R187), whose ADAPT and ALPHA were `was` and `old`: with ADAPT 0 the working α is
ALPHA; an adaptation that begins starts from there with nothing counted; one that goes on keeps `old` to the next period boundary. -/
def State.alphaWritten (s : State) (k : Nat) (was : Bool) (old : Nat) : State :=
  if s.on (qAdaptF k) && was then s.updPath (fun y => { y with alphaWas := mset y.alphaWas k (old + 1) 0 })
  else
    let s := s.wr (qCurF k) (s.rd (qAlphaF k))
    let s := s.ran .alpha k (s.now - s.now % s.adaptPeriod)
    s.updPath (fun y => { y with alphaWas := mset y.alphaWas k 0 0, egrDrops := mset y.egrDrops k 0 0, quiet := mset y.quiet k 0 0 })

/-- Queue `k` has dropped a packet, or a multicast copy, with EGR_THRESHOLD: an adaptation counts it (R186). -/
def State.egrDropped (s : State) (k : Nat) : State :=
  if s.on (qAdaptF k) then s.updPath (fun y => { y with egrDrops := mset y.egrDrops k (mget y.egrDrops k 0 + 1) 0 }) else s

/-- Egress minimum of a queue; a multicast queue has none. -/
def State.qMin (s : State) (k : Nat) : Nat := if k < 8192 then s.rd (F.LAG_Q_MIN_MIN k) else 0

/-! ### PFC tests -/

/-- The free shared cells that the PFC tests use: the smaller of the halves' counts (R192). -/
def State.pfcFree (s : State) : Nat := min (s.sharedFree 0) (s.sharedFree 1)

/-- One test of account (p, g) (R192): it enters or leaves XOFF, and admission signals the MAC (R193). -/
def State.pgTest (s : State) (h p g : Nat) : State :=
  let a := 8 * p + g
  let shared := s.rd (F.LAG_PG_USE_USED (3 * a + 1))
  let hdrm := s.rd (F.LAG_PG_USE_USED (3 * a + 2))
  let code := s.rd (F.LAG_PG_CFG_ALPHA a)
  let f := s.pfcFree
  if !s.on (F.LAG_PG_USE_XOFF (3 * a + 2)) then
    if s.on (F.LAG_PG_CFG_LOSSLESS a) && (hdrm > 0 || (shared > 0 && f * 2 ^ min code 9 ≤ shared * 64)) then
      ((s.wrB (F.LAG_PG_USE_XOFF (3 * a + 2)) true).askXoff p g true).cntGlobal 0x46 h 1
    else s
  else if hdrm = 0 && withinAlpha (shared + s.rd (F.LAG_PG_CFG_XON_DELTA a)) code f then
    (s.wrB (F.LAG_PG_USE_XOFF (3 * a + 2)) false).askXoff p g false
  else s

/-- The tests of every ingress account that has ever been charged (R192 tests all accounts at every core clock; an account
that holds no cell and is not in XOFF does not change). -/
def State.pgTests (s : State) (h : Nat) : State :=
  s.path.pgSeen.foldl (fun s a => s.pgTest h (a / 8) (a % 8)) s

/-! ### Accounts -/

/-- Add `n` cells to an account of half `h` (R178). -/
def State.charge (s : State) (a : Acct) (h n : Nat) : State :=
  let seen (p g : Nat) (s : State) : State :=
    s.updPath (fun x => { x with pgSeen := if x.pgSeen.contains (8 * p + g) then x.pgSeen else (8 * p + g) :: x.pgSeen })
  match a with
  | .none => s
  | .pgMin p g => seen p g ((s.wrapAdd (F.LAG_PG_USE_USED (3 * (8 * p + g))) n).wrapAdd (F.LAG_HALF_USE_USED (3 * h)) n)
  | .qMin q =>
    (s.updPath (fun x => { x with qMinUsed := mset x.qMinUsed q (mget x.qMinUsed q 0 + n) 0 })).wrapAdd
      (F.LAG_HALF_USE_USED (3 * h)) n
  | .shared none => s.wrapAdd (F.LAG_HALF_USE_USED (3 * h + 1)) n
  | .shared (some (p, g)) =>
    seen p g ((s.wrapAdd (F.LAG_PG_USE_USED (3 * (8 * p + g) + 1)) n).wrapAdd (F.LAG_HALF_USE_USED (3 * h + 1)) n)
  | .headroom p g =>
    seen p g ((s.wrapAdd (F.LAG_PG_USE_USED (3 * (8 * p + g) + 2)) n).wrapAdd (F.LAG_HALF_USE_USED (3 * h + 2)) n)

/-- Return `n` cells to an account of half `h` (R182). -/
def State.refund (s : State) (a : Acct) (h n : Nat) : State :=
  match a with
  | .none => s
  | .pgMin p g => (s.subFrom (F.LAG_PG_USE_USED (3 * (8 * p + g))) n).subFrom (F.LAG_HALF_USE_USED (3 * h)) n
  | .qMin q =>
    (s.updPath (fun x => { x with qMinUsed := mset x.qMinUsed q (mget x.qMinUsed q 0 - n) 0 })).subFrom
      (F.LAG_HALF_USE_USED (3 * h)) n
  | .shared none => s.subFrom (F.LAG_HALF_USE_USED (3 * h + 1)) n
  | .shared (some (p, g)) =>
    (s.subFrom (F.LAG_PG_USE_USED (3 * (8 * p + g) + 1)) n).subFrom (F.LAG_HALF_USE_USED (3 * h + 1)) n
  | .headroom p g =>
    (s.subFrom (F.LAG_PG_USE_USED (3 * (8 * p + g) + 2)) n).subFrom (F.LAG_HALF_USE_USED (3 * h + 2)) n

/-! ### Banks -/

/-- Bank `b` of half `h` can give a cell: it is ACTIVE and not full (R173). -/
def State.bankOpen (s : State) (h b : Nat) : Bool :=
  s.rd (F.LAG_BANK_STATUS_STATE (34 * h + b)) = 0 &&
    s.rd (F.LAG_BANK_STATUS_HELD (34 * h + b)) + mget s.path.granted (34 * h + b) 0 < 16384

/-- The next bank in rotation that can give a cell (R173). Where the rotation stands at reset and for a packet's first cell the rule does
not say: the model starts at bank 0 and goes on from the last bank given. DESIGN CHOICE: log entry 143. -/
def State.nextBank (s : State) (h : Nat) : Option Nat :=
  let last := mget s.path.lastBank h 33
  ((List.range 34).map (fun k => (last + 1 + k) % 34)).find? (s.bankOpen h)

/-- A cell address (R173): the half in bit 20, the bank in bits 19:14, the cell within the bank in bits 13:0. -/
def cellAddr (h b c : Nat) : Nat := h * 2 ^ 20 + b * 2 ^ 14 + c
/-- The bank of a cell address, as 34 × half + bank. -/
def cellBank (a : Nat) : Nat := 34 * (a / 2 ^ 20) + a / 2 ^ 14 % 64

/-- A free cell of bank `o` (34 × half + bank): one that has never been used, or the one freed longest ago. The rule does not say which.
DESIGN CHOICE: log entry 143. -/
def State.takeIndex (s : State) (o : Nat) : Nat × State :=
  let n := mget s.path.cellNext o 0
  if n < 16384 then (n, s.updPath (fun x => { x with cellNext := mset x.cellNext o (n + 1) 0 }))
  else
    match mget s.path.cellRing o [] with
    | c :: t => (c, s.updPath (fun x => { x with cellRing := mset x.cellRing o t [] }))
    | [] => (0, s)

/-- Cell `a` is free for the allocator again. -/
def State.backIndex (s : State) (a : Nat) : State :=
  s.updPath (fun x => { x with cellRing := mset x.cellRing (cellBank a) (mget x.cellRing (cellBank a) [] ++ [a % 2 ^ 14]) [] })

/-- The next cell of half `h` in rotation (R173), if a bank can give one. DESIGN CHOICE: log entry 143. -/
def State.nextCell (s : State) (h : Nat) : Option (Nat × State) :=
  match s.nextBank h with
  | none => none
  | some b =>
    let r := (s.updPath (fun x => { x with lastBank := mset x.lastBank h b 33 })).takeIndex (34 * h + b)
    some (cellAddr h b r.1, r.2)

/-- Take `n` cells of half `h` in rotation (R173); the answer is their addresses. DESIGN CHOICE: log entry 143. -/
def State.takeCells (s : State) (h : Nat) : Nat → List Nat × State
  | 0 => ([], s)
  | n + 1 =>
    match s.nextCell h with
    | none => ([], s)
    | some (a, s) =>
      let r := (s.wrapAdd (F.LAG_BANK_STATUS_HELD (cellBank a)) 1).takeCells h n
      (a :: r.1, r.2)

/-- Cells of half `h` that are granted to the other die and not yet filled (R27). -/
def State.grantedOut (s : State) (h : Nat) : Nat :=
  (List.range 34).foldl (fun n b => n + mget s.path.granted (34 * h + b) 0) 0

/-- Free cells of half `h` for a packet that comes from die `die`: only the other die fills the cells granted to it (R27, R180). -/
def State.freeFor (s : State) (h die : Nat) : Nat :=
  s.rd (F.LAG_HALF_STATUS_FREE h) - (if die = h then s.grantedOut h else 0)

/-- A DRAINING bank enters RETIRED when its last cell is freed, and its replacement is complete (R175). -/
def State.bankCheck (s : State) (h b : Nat) : State :=
  if s.rd (F.LAG_BANK_STATUS_STATE (34 * h + b)) = 2 && s.rd (F.LAG_BANK_STATUS_HELD (34 * h + b)) = 0 &&
      mget s.path.granted (34 * h + b) 0 = 0 then
    let s := ((s.wr (F.LAG_BANK_STATUS_STATE (34 * h + b)) 3).satAdd F.RAS_SPARE_STATUS_SWAPS 1).lagEvent h 2
    s.finishHold (holdSpare 2) (34 * h + b) stOk 3 0
  else s

/-- Free cells of half `h`, given by their addresses: the cells of ACTIVE banks join the free count (R175, R176, R182). -/
def State.freeCells (s : State) (h : Nat) (cells : List Nat) : State :=
  let s := cells.foldl (fun s a =>
    let s := (s.backIndex a).subFrom (F.LAG_BANK_STATUS_HELD (cellBank a)) 1
    let s := if s.rd (F.LAG_BANK_STATUS_STATE (cellBank a)) = 0 then s.wrapAdd (F.LAG_HALF_STATUS_FREE h) 1 else s
    s.bankCheck h (a / 2 ^ 14 % 64)) s
  s.spillUpdate h

/-! ### Packets -/

/-- Replace a packet. -/
def State.setPkt (s : State) (k : Nat) (x : Option Pkt) : State :=
  s.updPath (fun y => { y with pkts := match x with
                                 | some v => minsert y.pkts k v
                                 | none => merase y.pkts k })

/-- Return the cells that packet `k` still holds in the Lagoon to their account and pool. -/
def State.returnCells (s : State) (x : Pkt) : State :=
  let s := (s.freeCells x.half x.cells).refund x.acct x.half x.cells.length
  let s := (s.freeCells x.backHalf x.back).refund (.shared none) x.backHalf x.back.length
  s.pgTests x.half

/-- One reference of packet `k` is released; with the last one its cells return (R182, R191). -/
def State.release (s : State) (k : Nat) : State :=
  match mfind s.path.pkts k with
  | none => s
  | some x =>
    if x.refs ≤ 1 then (s.returnCells x).setPkt k none
    else s.setPkt k (some { x with refs := x.refs - 1 })

/-- What a drop of packet `x` from queue `q` reports. -/
def Pkt.info (x : Pkt) (q depth res : Nat) : DropInfo :=
  { inPort := x.inPort, host := x.host, data := x.data, md := x.md, ts := x.ts, depth := depth, queue := queueField q,
    outPort := some (if q < 8192 then q / 16 else (q - 8192) / 2), res := res, deep := x.deep, ce := x.ce,
    mcast := q ≥ 8192 }

end Sys2Proof.Machine
end

