-- ==== Sys2Proof/Machine/TmOps.lean ====
section
/-! DEFINITION. The traffic manager's tree, shapers, pauses, gate lists and queues (R246 to R266). Queues are named by one
key: unicast q, multicast 8,192 + m, CPU queue 9,216 + r. -/

namespace Sys2Proof.Machine

/-! ### Registers of a queue by its key -/

/-- Unicast or multicast register of a front-port queue. -/
def byKey (u m : Nat → Fld) (k : Nat) : Fld := if k < 8192 then u k else m (k - 8192)

/-- The egress port of a front-port queue. -/
def queuePort (k : Nat) : Nat := if k < 8192 then k / 16 else (k - 8192) / 2

/-- The 18 queues of a port (R246). -/
def portQueues (p : Nat) : List Nat :=
  (List.range 16).map (fun q => 16 * p + q) ++ (List.range 2).map (fun m => 8192 + 2 * p + m)

/-- The group of a front-port queue, 4 p + GROUP (R246). -/
def State.queueGroup (s : State) (k : Nat) : Nat :=
  4 * queuePort k + s.rd (byKey F.TM_Q_CFG_GROUP F.TM_MQ_CFG_GROUP k)

/-- The dequeue arbiter of a port: its group of eight main lanes (R20, R21, R23, R246). -/
def arbiterOf (p : Nat) : Nat := 4 * (p / 32) + p % 32 / 8

/-- The entries of a queue, head first. -/
def State.queue (s : State) (k : Nat) : List QEnt := mget s.path.queues k []

/-! ### Shapers -/

/-- The shaper numbers: 2 k and 2 k + 1 are the max and min shaper of queue k < 9,216; then of groups, then of ports, then
the CPU shaper. -/
def shaperQ (k : Nat) (min : Bool) : Nat := 2 * k + (if min then 1 else 0)
/-- Shaper of a group. -/
def shaperG (g : Nat) (min : Bool) : Nat := 2 * (9216 + g) + (if min then 1 else 0)
/-- Shaper of a port. -/
def shaperP (p : Nat) (min : Bool) : Nat := 2 * (9216 + 2048 + p) + (if min then 1 else 0)
/-- The CPU shaper. -/
def shaperCpu : Nat := 2 * (9216 + 2048 + 512)

/-- RATE, BURST and LEVEL fields of a shaper; the CPU shaper has no LEVEL register. -/
def shaperFlds (n : Nat) : Fld × Fld × Option Fld :=
  let k := n / 2
  let mn := n % 2 = 1
  if n ≥ shaperCpu then (F.TM_CPU_SHAPE_RATE, F.TM_CPU_BURST_BURST, none)
  else if k < 8192 then
    if mn then (F.TM_Q_MIN_RATE k, F.TM_Q_MIN_BURST_BURST k, some (F.TM_Q_MIN_LEVEL_LEVEL k))
    else (F.TM_Q_SHAPE_RATE k, F.TM_Q_BURST_BURST k, some (F.TM_Q_LEVEL_LEVEL k))
  else if k < 9216 then
    let m := k - 8192
    if mn then (F.TM_MQ_MIN_RATE m, F.TM_MQ_MIN_BURST_BURST m, some (F.TM_MQ_MIN_LEVEL_LEVEL m))
    else (F.TM_MQ_SHAPE_RATE m, F.TM_MQ_BURST_BURST m, some (F.TM_MQ_LEVEL_LEVEL m))
  else if k < 9216 + 2048 then
    let g := k - 9216
    if mn then (F.TM_G_MIN_RATE g, F.TM_G_MIN_BURST_BURST g, some (F.TM_G_MIN_LEVEL_LEVEL g))
    else (F.TM_G_SHAPE_RATE g, F.TM_G_BURST_BURST g, some (F.TM_G_LEVEL_LEVEL g))
  else
    let p := k - 9216 - 2048
    if mn then (F.TM_P_MIN_RATE p, F.TM_P_MIN_BURST_BURST p, some (F.TM_P_MIN_LEVEL_LEVEL p))
    else (F.TM_P_SHAPE_RATE p, F.TM_P_BURST_BURST p, some (F.TM_P_LEVEL_LEVEL p))

/-- RATE and BURST in force at a shaper: off with BURST 0x4000 after reset (R254, R256). -/
def State.shape (s : State) (n : Nat) : Nat × Nat := mget s.tm.shape n (0, 0x4000)

/-- Level of a shaper in 1/100 B (R254). -/
def State.level (s : State) (n : Nat) : Int :=
  match (shaperFlds n).2.2 with
  | some f => sext 64 (s.rd f)
  | none => s.tm.cpuLevel

/-- Set the level of a shaper. -/
def State.setLevel (s : State) (n : Nat) (v : Int) : State :=
  match (shaperFlds n).2.2 with
  | some f => s.wr f (trunc 64 v)
  | none => s.updTm (fun t => { t with cpuLevel := v })

/-- A max shaper does not hold its node back (R254, R255). -/
def State.maxOk (s : State) (n : Nat) : Bool := (s.shape n).1 = 0 || s.level n ≥ 0

/-- A min shaper places its node in pass 1 (R250, R254). -/
def State.belowMin (s : State) (n : Nat) : Bool := (s.shape n).1 ≠ 0 && s.level n ≥ 0

/-- Charge `l` bytes to a shaper (R253, R254). -/
def State.chargeShaper (s : State) (n l : Nat) : State :=
  if (s.shape n).1 = 0 then s else s.setLevel n (s.level n - 100 * (l : Int))

/-- RATE (`j` = 0) or BURST (`j` = 1) of shaper `n` that a refill of the present tick takes: a write of this tick waits for the next (R256). -/
def State.shapeWant (s : State) (n j : Nat) (f : Fld) : Nat :=
  let w := mget s.tm.shapeWas (2 * n + j) (0, 0)
  if w.1 = s.now + 1 then w.2 else s.rd f

/-- The shaper of which a register holds RATE (0) or BURST (1). -/
def shaperReg : RegName → Nat → Option (Nat × Nat)
  | .TM_Q_SHAPE, k => some (shaperQ k false, 0)
  | .TM_Q_BURST, k => some (shaperQ k false, 1)
  | .TM_Q_MIN, k => some (shaperQ k true, 0)
  | .TM_Q_MIN_BURST, k => some (shaperQ k true, 1)
  | .TM_MQ_SHAPE, m => some (shaperQ (8192 + m) false, 0)
  | .TM_MQ_BURST, m => some (shaperQ (8192 + m) false, 1)
  | .TM_MQ_MIN, m => some (shaperQ (8192 + m) true, 0)
  | .TM_MQ_MIN_BURST, m => some (shaperQ (8192 + m) true, 1)
  | .TM_G_SHAPE, g => some (shaperG g false, 0)
  | .TM_G_BURST, g => some (shaperG g false, 1)
  | .TM_G_MIN, g => some (shaperG g true, 0)
  | .TM_G_MIN_BURST, g => some (shaperG g true, 1)
  | .TM_P_SHAPE, p => some (shaperP p false, 0)
  | .TM_P_BURST, p => some (shaperP p false, 1)
  | .TM_P_MIN, p => some (shaperP p true, 0)
  | .TM_P_MIN_BURST, p => some (shaperP p true, 1)
  | .TM_CPU_SHAPE, _ => some (shaperCpu, 0)
  | .TM_CPU_BURST, _ => some (shaperCpu, 1)
  | _, _ => none

/-- A write to a shaper register at this tick: the value before the tick stays known to a refill of the same tick (R256). -/
def State.shapeWrite (s : State) (r : RegName) (k : Nat) : State :=
  match shaperReg r k with
  | none => s
  | some (n, j) =>
    if (mget s.tm.shapeWas (2 * n + j) (0, 0)).1 = s.now + 1 then s
    else
      let (rf, bf, _) := shaperFlds n
      s.updTm (fun t => { t with shapeWas := mset t.shapeWas (2 * n + j) (s.now + 1, s.rd (if j = 0 then rf else bf)) (0, 0) })

/-- One refill of a shaper (R254, R256): a RATE or BURST written since the last refill takes effect, FORGIVE then clears a
debt, RATE is added and BURST caps the level; a shaper that is off holds a full bucket. -/
def State.refill (s : State) (n : Nat) : State :=
  let (rf, bf, _) := shaperFlds n
  let want := (min (s.shapeWant n 0 rf) 3200000, s.shapeWant n 1 bf)
  let changed := want ≠ s.shape n
  let s := s.updTm (fun t => { t with shape := mset t.shape n want (0, 0x4000) })
  let full : Int := want.2 * 100
  if want.1 = 0 then s.setLevel n full
  else
    let l := if changed && s.on F.TM_SHAPE_CFG_FORGIVE && s.level n < 0 then 0 else s.level n
    s.setLevel n (min full (l + want.1))

/-! ### Gate lists -/

/-- The entries of bank `b` of port `p`, as gates and interval in ns. -/
def State.gateList (s : State) (p b len : Nat) : List (Nat × Nat) :=
  (List.range len).map (fun e =>
    (s.rd (F.TM_GATE_ENTRY_GATES (512 * p + 256 * b + e)), s.rd (F.TM_GATE_ENTRY_INTERVAL (512 * p + 256 * b + e))))

/-- A list fitted to its cycle: cut at the cycle's end, or with its last entry lengthened (R261). -/
def fitCycle : List (Nat × Nat) → Nat → List (Nat × Nat)
  | [], _ => []
  | [(g, _)], rest => [(g, rest)]
  | (g, n) :: t, rest => if n ≥ rest then [(g, rest)] else (g, n) :: fitCycle t (rest - n)

/-- Gates at offset `pos` of a fitted list. -/
def gatesAt : List (Nat × Nat) → Nat → Nat
  | [], _ => 0xFF
  | [(g, _)], _ => g
  | (g, n) :: t, pos => if pos < n then g else gatesAt t (pos - n)

/-- Time that gate `c` stays open from offset `pos` of a fitted list, the list being followed by `more`. -/
def openFor (c : Nat) : List (Nat × Nat) → Nat → Nat
  | [], _ => 0
  | (g, n) :: t, pos =>
    if pos ≥ n then openFor c t (pos - n)
    else if bit g c then n - pos + openFor c t 0 else 0

/-- The operational gate list of port `p`, fitted to OPER_CYCLE. -/
def State.operList (s : State) (p : Nat) : List (Nat × Nat) :=
  fitCycle (s.gateList p (s.rd (F.TM_GATE_STATUS_OPER_BANK p)) (s.rd (F.TM_GATE_OPER_LEN_LEN p)))
    (s.rd (F.TM_GATE_OPER_CYCLE_CYCLE p))

/-- The pending gate list of port `p`, fitted to the admin cycle. -/
def State.adminList (s : State) (p : Nat) : List (Nat × Nat) :=
  fitCycle (s.gateList p (1 - s.rd (F.TM_GATE_STATUS_OPER_BANK p)) (s.rd (F.TM_GATE_ADMIN_LEN_LEN p)))
    (s.rd (F.TM_GATE_ADMIN_CYCLE_CYCLE p))

/-- Domain A time in whole ns. -/
def State.nowNs (s : State) : Nat := s.domA.sec * 1000000000 + s.domA.ns

/-- Position of instant `t` in cycles of `cyc` ns that start at `start`, an instant before the start included (R266). -/
def cyclePos (t start cyc : Nat) : Nat := (((t : Int) - (start : Int)) % (max 1 cyc : Nat)).toNat

/-- The list in force at instant `t` ns with its position, counting a pending list from its start (R262, R264). A port with
EN 0, or without a list, has none. -/
def State.listAt (s : State) (p t : Nat) : Option (List (Nat × Nat) × Nat) :=
  if !s.on (F.TM_GATE_CTL_EN p) then none
  else
    match mget s.tm.gateNext p none with
    | some n => if t ≥ n then some (s.adminList p, cyclePos t n (s.rd (F.TM_GATE_ADMIN_CYCLE_CYCLE p))) else oper
    | none => oper
where
  oper : Option (List (Nat × Nat) × Nat) :=
    if s.rd (F.TM_GATE_OPER_LEN_LEN p) = 0 then none
    else some (s.operList p, cyclePos t (mget s.tm.gateStart p 0) (s.rd (F.TM_GATE_OPER_CYCLE_CYCLE p)))

/-- Gates of port `p` at domain A instant `t` ns. -/
def State.gatesNow (s : State) (p t : Nat) : Nat :=
  match s.listAt p t with
  | none => 0xFF
  | some (l, pos) => gatesAt l pos

/-- The transmit term of R97 of port `p` in ns. -/
def State.txTerm (s : State) (p : Nat) : Nat :=
  match s.rd (F.PORT_CFG_MODE p) with
  | 1 => 140 | 2 => 180 | 3 => 215 | 4 => 330
  | 5 => match s.rd (F.PORT_CFG_FEC p) with
    | 1 => 150 | 0 => 95 | _ => 350
  | _ => 125

/-- Twice the divider of a core divider code (R362). -/
def twiceDiv (code : Nat) : Nat := ([7, 8, 10, 12, 16] : List Nat).getD code 16

/-- ADV of R262 in units of 2^−6 ns: transmit term, 216 core periods of D × 5/32 ns, and ADJ. -/
def State.adv (s : State) (p : Nat) : Int :=
  (s.txTerm p * 64 + 216 * twiceDiv (s.rd F.CLK_CORE_DIV) * 5 : Nat) + sext 16 (s.rd (F.TM_GATE_CTL_ADJ p)) * 64

/-- Gate `c` stays open in fitted list `l` from position `pos`, for `need` 2^−6 ns counted from `part` 2^−6 ns after it; times are scaled by `speed`. -/
def staysOpen (c speed : Nat) (l : List (Nat × Nat)) (pos part need : Nat) : Bool :=
  l.all (fun e => bit e.1 c) || (openFor c (l ++ l) pos * 64 - part) * speed ≥ need

/-- Gate `c` of port `p` stays open for `need` ÷ speed 2^−6 ns from `w` 2^−6 ns on, over the list in force at each instant (R262). -/
def State.guardHolds (s : State) (p c w need speed : Nat) : Bool :=
  match s.listAt p (w / 64) with
  | none => true
  | some (l, pos) =>
    match mget s.tm.gateNext p none with
    | none => staysOpen c speed l pos (w % 64) need
    | some n =>
      if w / 64 ≥ n then staysOpen c speed l pos (w % 64) need
      else
        let rest := (n * 64 - w) * speed
        staysOpen c speed l pos (w % 64) (min need rest) &&
          (need ≤ rest || (bit (gatesAt (s.adminList p) 0) c && staysOpen c speed (s.adminList p) 0 0 (need - rest)))

/-- A frame of `len` octets and class `c` may be dequeued on port `p` now (R262). -/
def State.gateAllows (s : State) (p c len : Nat) : Bool :=
  let w := ((s.nowNs * 64 + s.domA.frac / 2 ^ 50 : Nat) + s.adv p).toNat
  match s.listAt p (w / 64) with
  | none => true
  | some (l, pos) =>
    bit (gatesAt l pos) c &&
      (!s.on (F.TM_GATE_CTL_GUARD p) || s.guardHolds p c w ((len + 8) * 8 * 64) (max 1 (s.portSpeed p)))

/-- The longest run for which gate `c` stays open in a fitted list, across cycle boundaries. -/
def longestOpen (c : Nat) (l : List (Nat × Nat)) : Nat :=
  ((List.range l.length).map (fun k => openFor c (l.drop k ++ l) 0)).foldl max 0

/-- No open period of its gate can hold the frame (R263). -/
def State.gateTooLong (s : State) (p c len : Nat) : Bool :=
  s.on (F.TM_GATE_CTL_EN p) && s.on (F.TM_GATE_CTL_GUARD p) && s.rd (F.TM_GATE_OPER_LEN_LEN p) ≠ 0 &&
    (let l := s.operList p
     !l.all (fun e => bit e.1 c) && longestOpen c l * max 1 (s.portSpeed p) < (len + 8) * 8)

/-! ### Tags -/

/-- Tags and virtual times are compared modulo 2^48 (R251). -/
def tagMod : Nat := 2 ^ 48

/-- `a` is not after `b`, modulo 2^48. -/
def tagLe (a b : Nat) : Bool := (b + tagMod - a % tagMod) % tagMod < 2 ^ 47

/-- The later of two tags. -/
def tagMax (a b : Nat) : Nat := if tagLe a b then b % tagMod else a % tagMod

/-- PRIO and WEIGHT of a queue, a WEIGHT of 0 acting as 1. -/
def State.prioQ (s : State) (k : Nat) : Nat := s.rd (byKey F.TM_Q_CFG_PRIO F.TM_MQ_CFG_PRIO k)
/-- WEIGHT of a queue. -/
def State.weightQ (s : State) (k : Nat) : Nat := max 1 (s.rd (byKey F.TM_Q_CFG_WEIGHT F.TM_MQ_CFG_WEIGHT k))

/-- A group holds a packet. -/
def State.groupBusy (s : State) (g : Nat) : Bool :=
  (portQueues (g / 4)).any (fun k => s.queueGroup k = g && !(s.queue k).isEmpty)

/-- A port holds a packet. -/
def State.portBusy (s : State) (p : Nat) : Bool := (portQueues p).any (fun k => !(s.queue k).isEmpty)

/-- A queue that becomes eligible again takes T = max(T, V) (R252). DEDUCED: log entry 52. -/
def State.rejoin (s : State) (k : Nat) : State :=
  if (s.queue k).isEmpty then s
  else s.updTm (fun t =>
    { t with tagQ := mset t.tagQ k (tagMax (mget t.tagQ k 0) (mget t.vG (8 * s.queueGroup k + s.prioQ k) 0)) 0 })

/-- Tags of the nodes that wake when queue `k` goes from empty to holding a packet: T = V of their PRIO (R252). -/
def State.wakeTags (s : State) (k : Nat) : State :=
  if k ≥ 9216 then
    s.updTm (fun t => { t with tagQ := mset t.tagQ k (mget t.vC (s.rd (F.TM_CPU_Q_CFG_PRIO (k - 9216))) 0) 0 })
  else
    let g := s.queueGroup k
    let p := queuePort k
    let gb := s.groupBusy g
    let pb := s.portBusy p
    s.updTm (fun t =>
      let t := { t with tagQ := mset t.tagQ k (mget t.vG (8 * g + s.prioQ k) 0) 0 }
      let t := if gb then t else { t with tagG := mset t.tagG g (mget t.vP (8 * p + s.rd (F.TM_G_CFG_PRIO g)) 0) 0 }
      if pb then t
      else { t with tagP := mset t.tagP p (mget t.vA (8 * arbiterOf p + s.rd (F.TM_PORT_CFG_PRIO p)) 0) 0 })

/-! ### Queue status and enqueue -/

/-- The TM_Q_STATUS bits of a queue brought up to date. -/
def State.queueStatus (s : State) (k : Nat) : State :=
  if k ≥ 9216 then s
  else
    let p := queuePort k
    let paused := s.on (byKey F.TM_Q_CFG_PAUSE_EN F.TM_MQ_CFG_PAUSE_EN k) &&
      bit (s.rd (F.TM_PORT_STATUS_PAUSED p)) (s.rd (byKey F.TM_Q_CFG_PFC_PRIO F.TM_MQ_CFG_PFC_PRIO k))
    let s := s.wrB (byKey F.TM_Q_STATUS_BACKLOG F.TM_MQ_STATUS_BACKLOG k) (!(s.queue k).isEmpty)
    let s := s.wrB (byKey F.TM_Q_STATUS_PAUSED F.TM_MQ_STATUS_PAUSED k) paused
    let s := s.wrB (byKey F.TM_Q_STATUS_GATE_CLOSED F.TM_MQ_STATUS_GATE_CLOSED k)
      (!bit (s.rd (F.TM_PORT_STATUS_GATES p)) (s.rd (byKey F.TM_Q_CFG_TC F.TM_MQ_CFG_TC k)))
    let s := s.wrB (byKey F.TM_Q_STATUS_MAX_DEBT F.TM_MQ_STATUS_MAX_DEBT k) (s.level (shaperQ k false) < 0)
    s.wrB (byKey F.TM_Q_STATUS_BELOW_MIN F.TM_MQ_STATUS_BELOW_MIN k) (s.belowMin (shaperQ k true))

/-- Cells of a queue in HBM, being written or gathered (D of R199). -/
def DeepQ.cells (d : DeepQ) : Nat :=
  (d.pages.filter (fun g => g.stage < 4)).foldl (fun a g => a + g.parts.foldl (fun b x => b + x.2) 0) 0

/-- Depth of a queue: its cells in the Lagoon and in HBM (R267). -/
def State.depth (s : State) (k : Nat) : Nat :=
  if k < 9216 then s.rd (occF k) + (mget s.bpm.deep k {}).cells
  else (s.queue k).foldl (fun a e => a + ((mfind s.path.pkts e.pkt).map (fun x => x.cells.length)).getD 0) 0

/-- An enqueue to a port in IDLE starts its wake bursts (R65, R111). -/
def State.portWake (s : State) (p : Nat) : State :=
  if s.portState p = 4 && !(s.px p).waking then
    (s.updPort p (fun x => { x with waking := true })).emit (.wakeBurst p (wakeSymbols (Config.patternSeed (512 + p))))
  else s

/-- The descriptor of packet `id` joins the tail of queue `k` (R252, R267). -/
def State.enqueue (s : State) (k id depth : Nat) : State :=
  let s := if (s.queue k).isEmpty then s.wakeTags k else s
  let s := s.updPath (fun x => { x with queues := mset x.queues k (mget x.queues k [] ++ [⟨id, depth⟩]) [] })
  let s := s.queueStatus k
  if k < 9216 then
    let s := s.wr (byKey F.TM_Q_MAX_DEPTH_DEPTH F.TM_MQ_MAX_DEPTH_DEPTH k)
      (max (s.rd (byKey F.TM_Q_MAX_DEPTH_DEPTH F.TM_MQ_MAX_DEPTH_DEPTH k)) (s.depth k))
    s.portWake (queuePort k)
  else s

/-- The head of queue `k` leaves it. -/
def State.popQueue (s : State) (k : Nat) : State :=
  (s.updPath (fun x => { x with queues := mset x.queues k (mget x.queues k []).tail [] })).queueStatus k

/-! ### Pauses -/

/-- Bring the pauses of port `p` in line with what it has received and what a perturbation forces (R258, R458): queues that
are released take T = max(T, V). -/
def State.pauseUpdate (s : State) (p : Nat) : State :=
  let forced := if s.on F.DBG_CTL_ARM && s.on F.DBG_PERTURB_PFC_DIR && s.rd F.DBG_PERTURB_PFC_PORT = p then
      s.rd F.DBG_PERTURB_PFC_PRIOS else 0
  let was := s.rd (F.TM_PORT_STATUS_PAUSED p)
  let now := s.rd (F.MAC_PFC_STATUS_RX_PAUSED p) ||| forced
  let s := s.wr (F.TM_PORT_STATUS_PAUSED p) now
  (portQueues p).foldl (fun s k =>
    let g := s.rd (byKey F.TM_Q_CFG_PFC_PRIO F.TM_MQ_CFG_PFC_PRIO k)
    let s := if bit was g && !bit now g && s.on (byKey F.TM_Q_CFG_PAUSE_EN F.TM_MQ_CFG_PAUSE_EN k) then s.rejoin k else s
    s.queueStatus k) s

/-- The pause of priority `g` on port `p` ends (R259). -/
def State.pauseRelease (s : State) (p g : Nat) : State :=
  let s := { s with pauseEnd := mset s.pauseEnd (key2 p g) 0 0 }
  (s.wr (F.MAC_PFC_STATUS_RX_PAUSED p) (setBit (s.rd (F.MAC_PFC_STATUS_RX_PAUSED p)) g false)).pauseUpdate p

/-- A received pause of `q` quanta for priority `g` of port `p` (R99, R258, R259). DEDUCED: log entry 132. -/
def State.pauseSet (s : State) (p g q : Nat) : State :=
  if q = 0 then s.pauseRelease p g
  else
    let s := { s with pauseEnd := mset s.pauseEnd (key2 p g) (s.now + s.quantaTicks p q) 0 }
    (s.wr (F.MAC_PFC_STATUS_RX_PAUSED p) (setBit (s.rd (F.MAC_PFC_STATUS_RX_PAUSED p)) g true)).pauseUpdate p

end Sys2Proof.Machine
end

