-- ==== Sys2Proof/Machine/CwayOps.lean ====
section
/-! DEFINITION. The Causeway's bundles: flits, sending, waiting, grants, credits, weights and retirement (R26 to R35). Direction 0
runs north to south. -/

namespace Sys2Proof.Machine

/-- Update the Causeway. -/
def State.updCway (s : State) (f : Cway → Cway) : State := s.updPath (fun x => { x with cway := f x.cway })

/-- Bundle `b` of direction `d`. -/
def State.bundle (s : State) (d b : Nat) : Bundle := mget s.path.cway.bundles (64 * d + b) {}

/-- Replace a bundle. -/
def State.setBundle (s : State) (d b : Nat) (x : Bundle) : State :=
  s.updCway (fun c => { c with bundles := mset c.bundles (64 * d + b) x {} })

/-- STATE of a bundle: 0 ACTIVE, 1 RETRAIN, 2 SWAP, 3 RETIRED. -/
def State.bundleState (s : State) (d b : Nat) : Nat := s.rd (F.CWAY_BUNDLE_STATUS_STATE (64 * d + b))

/-- A bundle changes state: CWAY_STATUS counts the ACTIVE ones, and the interrupt reports the change. -/
def State.bundleEnter (s : State) (d b st : Nat) : State :=
  let s := s.wr (F.CWAY_BUNDLE_STATUS_STATE (64 * d + b)) st
  let n := ((List.range 64).filter (fun k => s.bundleState d k = 0)).length
  (s.wr (if d = 0 then F.CWAY_STATUS_ACTIVE_NS else F.CWAY_STATUS_ACTIVE_SN) n).raise .cway 0 0

/-! ### Flits (R26, R27) -/

/-- TYPE of an IDLE flit, which carries nothing and changes nothing. -/
def typeIdle : Nat := 0
/-- TYPE of a CTRL flit. -/
def typeCtrl : Nat := 6

/-- TYPE of a flit (R27). -/
def Body.type : Body → Nat
  | .cellWr _ _ => 1
  | .hostWr _ _ => 1
  | .rdq _ _ _ _ => 2
  | .rdd _ _ _ _ => 3
  | .desc _ => 4
  | .atoll _ _ => 5
  | .misc _ => 7

/-- The virtual channel of what a flit carries (R27). -/
def Body.vc : Body → Nat
  | .cellWr _ _ => 1
  | .hostWr _ _ => 1
  | .rdq _ _ _ _ => 2
  | .rdd _ _ _ _ => 3
  | .desc _ => 0
  | .atoll _ _ => 4
  | .misc _ => 5

/-- Cell `k` of a byte string, 256 B. -/
def cellBytes (l : Bytes) (k : Nat) : Bytes :=
  let c := slice l (256 * k) 256
  c ++ List.replicate (256 - c.length) 0

/-- The first `n` words of 64 bits of a byte string. -/
def words64 (l : Bytes) (n : Nat) : List Nat := (List.range n).map (fun k => leAt l (8 * k) 8)

/-- The payload words of a flit (R27). The rules give one request per word and four words per descriptor, and not what stands in them: the
model puts the cell address into a request, and the queue, the packet's number, its first cell and its length in cells into a descriptor
(R172). DESIGN CHOICE: log entry 144. -/
def State.flitWords (s : State) (x : Body) : List Nat :=
  let cells (pkt : Nat) : List Nat := ((mfind s.path.pkts pkt).map (fun y => if y.back.isEmpty then y.cells else y.back)).getD []
  match x with
  | .cellWr pkt k => words64 (cellBytes (((mfind s.path.pkts pkt).map (fun y => y.data)).getD []) k) 32
  | .rdd _ _ pkt k => words64 (cellBytes (((mfind s.path.pkts pkt).map (fun y => y.data)).getD []) k) 32
  | .hostWr id k => words64 (cellBytes (((mget s.path.hostCross id none).map (fun y => y.rx.data)).getD []) k) 32
  | .rdq _ pkt first n => (List.range n).map (fun k => (cells pkt).getD (first + k) 0)
  | .desc l => l.flatMap (fun y => [y.2, y.1, (cells y.1).headD 0, (cells y.1).length])
  | .atoll id k =>
    let d := ((mfind s.path.cway.atl id).map (fun y => y.2.data)).getD []
    words64 (slice d (256 * k) 256) (max 1 ((min 256 (d.length - 256 * k) + 7) / 8))
  | .misc d => words64 d (max 1 ((d.length + 7) / 8))

/-- A flit without its CRC, in wire order (R26): TYPE, SEQ, FILL and 32 payload words. -/
def flitHead (type seq : Nat) (words : List Nat) : List Bool :=
  lsbBits 3 type ++ lsbBits 8 seq ++ lsbBits 5 (words.length - 1) ++
    (words ++ List.replicate (32 - words.length) 0).flatMap (lsbBits 64)

/-- The 2,096 bits of a flit in wire order (R26). -/
def flitBits (type seq : Nat) (words : List Nat) : List Bool :=
  let h := flitHead type seq words
  h ++ lsbBits 32 (crc32Bits h)

/-- The receiver's check of the 2,096 bits that arrive (R28). -/
def flitGood (l : List Bool) : Bool := crc32Bits (l.take 2064) = ofLsb (l.drop 2064)

/-- The bits of a flit after bit errors on its wires. -/
def State.flitArrives (s : State) (f : Flit) (err : BitVec 2096) : List Bool :=
  List.zipWith xor (flitBits f.body.type f.seq (s.flitWords f.body)) (lsbBits 2096 err.toNat)

/-! ### Sending -/

/-- Credits of a virtual channel of a bundle that its receiver has given and the sender has not used; the number that the receiver grants at
first is not in the spec. DESIGN CHOICE: log entry 138. -/
def State.credit (s : State) (d b vc : Nat) : Nat :=
  Config.cwayCredits (8 * (64 * d + b) + vc) - mget s.path.cway.credits (8 * (64 * d + b) + vc) 0

/-- A bundle may take a new flit: ACTIVE, no swap waiting, fewer than 128 flits unacknowledged, and nothing handed over by a retired
bundle still to send (R29, R31, R32). -/
def State.bundleOpen (s : State) (d b : Nat) : Bool :=
  let y := s.bundle d b
  s.bundleState d b = 0 && y.unacked.length < 128 && y.swapWait.isNone && y.carry.isEmpty

/-- `x` is sent on bundle `b` as the next flit in sequence (R26). -/
def State.seqFlit (s : State) (d b : Nat) (x : Body) : State :=
  let y := s.bundle d b
  let f : Flit := { seq := y.next, body := x }
  s.setBundle d b { y with next := (y.next + 1) % 256, unacked := y.unacked ++ [f], wire := y.wire ++ [f] }

/-- A new flit takes its credit, its grant and its share of the bundle (R27, R34). -/
def State.putFlit (s : State) (d b : Nat) (x : Body) : State :=
  let s := s.seqFlit d b x
  let s := if x.vc = 1 then s.setBundle d b { s.bundle d b with grants := (s.bundle d b).grants.tail } else s
  let k := 8 * (64 * d + b) + x.vc
  let s := if x.vc = 3 then s else s.updCway (fun c => { c with credits := mset c.credits k (mget c.credits k 0 + 1) 0 })
  s.cntGlobal 0x40 x.vc 1

/-- The bundle that carries what belongs to bundle `b`: itself, or the one that took over its streams (R31). -/
def State.tookOver (s : State) (d : Nat) : Nat → Nat → Nat
  | 0, b => b
  | n + 1, b =>
    let b' := mget s.path.cway.pins (key2 d b) 64
    if b' < 64 then s.tookOver d n b' else b

/-- Bundle of a stream (R31, R33): a hash of the source pipeline and the egress queue that the spec does not give. DESIGN CHOICE: log entry
138. -/
def State.streamBundle (s : State) (d stream : Nat) : Nat := s.tookOver d 64 (Config.streamHash stream % 64)

/-- The grant that the next cell write of bundle `b` uses: its cell is filled, by a packet or by a frame from the host. -/
def State.useGrant (s : State) (d b : Nat) (x : Body) : State :=
  match (s.bundle d b).grants.head? with
  | none => s
  | some a =>
    let o := cellBank a
    let s := s.updPath (fun y => { y with granted := mset y.granted o (mget y.granted o 0 - 1) 0 })
    let s := s.wrapAdd (F.LAG_BANK_STATUS_HELD o) 1
    match x with
    | .cellWr id _ =>
      match mfind s.path.pkts id with
      | some y => s.setPkt id (some (if y.moving ≠ 0 then { y with back := y.back ++ [a] } else { y with cells := y.cells ++ [a] }))
      | none => s
    | .hostWr id _ =>
      let s := if s.rd (F.LAG_BANK_STATUS_STATE o) = 0 then (s.subFrom (F.LAG_HALF_STATUS_FREE 1) 1).spillUpdate 1 else s
      let h := (mget s.path.hostCross id none).map (fun h => { h with cells := h.cells ++ [a] })
      s.updPath (fun y => { y with hostCross := mset y.hostCross id h none })
    | _ => s

/-! ### What waits -/

/-- What waits to cross in direction `d` on channel `vc`. -/
def State.cwayWait (s : State) (d vc : Nat) : List Body := mget s.path.cway.waiting (8 * d + vc) []

/-- Replace what waits. -/
def State.setWait (s : State) (d vc : Nat) (l : List Body) : State :=
  s.updCway (fun c => { c with waiting := mset c.waiting (8 * d + vc) l [] })

/-- The bundle to which a descriptor or a cell of read data is bound (R27, R33); any other flit takes the bundles in turn. -/
def State.pinOf (s : State) (d : Nat) (x : Body) : Option Nat :=
  match x with
  | .desc l => (l.head?.bind (fun y => s.path.held.find? (fun h => h.pkt = y.1 && h.queue = y.2))).map
      (fun h => s.streamBundle d h.stream)
  | .rdd b _ _ _ => some (s.tookOver d 64 b)
  | _ => none

/-- Descriptors of one flit. -/
def Body.descs : Body → List (Nat × Nat)
  | .desc l => l
  | _ => []

/-- Bits of ATOLL payload beyond the ceiling of direction `d` at the present tick (R35). -/
def State.atlDebt (s : State) (d : Nat) : Nat :=
  mget s.path.cway.atlDebt d 0 - 625 * min 0x40 (s.rd F.CWAY_CFG_ATL_MAX) * (s.now - mget s.path.cway.atlAt d 0)

/-- The ceiling of CWAY_CFG.ATL_MAX leaves room for an ATOLL flit (R35): in every tick of 625 ps 625 bits of payload for each Tb/s. DESIGN
CHOICE: log entry 35. -/
def State.atlRoom (s : State) (d : Nat) : Bool := s.atlDebt d < 625 * min 0x40 (s.rd F.CWAY_CFG_ATL_MAX)

/-- The next flit of channel `vc` for bundle `b`, with what then still waits: up to 8 descriptors of its streams, the next cell of its
read data, or the oldest of a channel that takes the bundles in turn, a cell write only into a granted cell (R27, R33, R35). -/
def State.candidate (s : State) (d b vc : Nat) : Option (Body × List Body) :=
  let l := s.cwayWait d vc
  let mine := l.filter (fun x => s.pinOf d x = some b)
  match vc with
  | 0 =>
    match mine.take 8 with
    | [] => none
    | m => some (.desc (m.flatMap Body.descs), m.foldl (fun l x => l.erase x) l)
  | 3 => mine.head?.map (fun x => (x, l.erase x))
  | 1 => if (s.bundle d b).grants.isEmpty then none else l.head?.map (fun x => (x, l.tail))
  | 4 => if s.atlRoom d then l.head?.map (fun x => (x, l.tail)) else none
  | _ => l.head?.map (fun x => (x, l.tail))

/-- The channels that may send on bundle `b`: something waits, and there is a credit, which read data always has (R34). -/
def State.vcReady (s : State) (d b : Nat) : List Nat :=
  (List.range 6).filter (fun vc => (vc = 3 || s.credit d b vc ≠ 0) && (s.candidate d b vc).isSome)

/-- Start tag of a channel at the arbiter of a bundle. -/
def State.vcStart (s : State) (d b vc : Nat) : Nat :=
  max (mget s.path.cway.tags (8 * (64 * d + b) + vc) 0) (mget s.path.cway.tags (8 * (64 * d + b) + 7) 0)

/-- The waiting channels share a bundle in proportion to CWAY_VC_WEIGHT, 0 acting as 1: the channel with the least start tag sends, and a
flit moves its tag by 65,536 over its weight. The rule gives the proportion and not the order. DESIGN CHOICE: log entry 144. -/
def State.vcPick (s : State) (d b : Nat) : Option Nat :=
  (s.vcReady d b).foldl (fun r vc =>
    match r with
    | none => some vc
    | some w => if s.vcStart d b vc < s.vcStart d b w then some vc else some w) none

/-- The share that channel `vc` has used of bundle `b`. DESIGN CHOICE: log entry 144. -/
def State.vcServed (s : State) (d b vc : Nat) : State :=
  let t := s.vcStart d b vc
  let k := 8 * (64 * d + b)
  s.updCway (fun c => { c with tags := mset (mset c.tags (k + 7) t 0) (k + vc) (t + 65536 / max 1 (s.rd (F.CWAY_VC_WEIGHT_WEIGHT vc))) 0 })

/-- The first bundle in turn that can send a flit, and the channel that sends (R33). -/
def State.nextSend (s : State) (d : Nat) : Option (Nat × Nat) :=
  let t := mget s.path.cway.turn d 0
  ((List.range 64).map (fun k => (t + k) % 64)).findSome? (fun b =>
    if s.bundleOpen d b then (s.vcPick d b).map (fun vc => (b, vc)) else none)

/-- Send one flit, if a bundle, a grant and a credit allow it. -/
def State.sendOne (s : State) (d : Nat) : Option State :=
  match s.nextSend d with
  | none => none
  | some (b, vc) =>
    match s.candidate d b vc with
    | none => none
    | some (x, rest) =>
      let s := (s.vcServed d b vc).setWait d vc rest
      let s := if vc = 1 then s.useGrant d b x else s
      let s := if vc = 4 then
          let debt := s.atlDebt d
          s.updCway (fun c => { c with atlDebt := mset c.atlDebt d (debt + 2048) 0, atlAt := mset c.atlAt d s.now 0 })
        else s
      let s := s.putFlit d b x
      some (if vc = 0 || vc = 3 then s else s.updCway (fun c => { c with turn := mset c.turn d ((b + 1) % 64) 0 }))

/-- Send flits, at most `n`, as far as bundles, grants and credits allow. -/
def State.sendMany (s : State) (d : Nat) : Nat → State
  | 0 => s
  | n + 1 =>
    match s.sendOne d with
    | some s => s.sendMany d n
    | none => s

/-- Flits handed over by a retired bundle leave on bundle `b` as soon as it is ACTIVE with fewer than 128 flits unacknowledged
(R29, R31). -/
def State.sendCarry (s : State) (d b : Nat) : State :=
  let y := s.bundle d b
  if s.bundleState d b ≠ 0 || y.swapWait.isSome then s
  else
    let n := 128 - y.unacked.length
    (y.carry.take n).foldl (fun s x => s.seqFlit d b x) (s.setBundle d b { y with carry := y.carry.drop n })

/-- Send what waits, as far as bundles, grants and credits allow (R33, R34). DESIGN CHOICE: log entry 35. -/
def State.cwayPump (s : State) (d : Nat) : State :=
  let s := (List.range 64).foldl (fun s b => if (s.bundle d b).carry.isEmpty then s else s.sendCarry d b) s
  s.sendMany d ((List.range 6).foldl (fun n vc => n + (s.cwayWait d vc).length) 0)

/-- Something is to cross in direction `d`. -/
def State.cross (s : State) (d : Nat) (l : List Body) : State :=
  (l.foldl (fun s x => s.setWait d x.vc (s.cwayWait d x.vc ++ [x])) s).cwayPump d

/-- Cell reads of `n` cells of packet `pkt` for `client`, up to 32 in a flit (R27). -/
def readFlits (client pkt n : Nat) : List Body :=
  (List.range ((n + 31) / 32)).map (fun k => .rdq client pkt (32 * k) (min 32 (n - 32 * k)))

/-- Virtual channel 1 of direction `d` makes its ingress pipelines stall: cells wait and no ACTIVE bundle has a credit (R34). -/
def State.cwayStall (s : State) (d : Nat) : Bool :=
  !(s.cwayWait d 1).isEmpty && (List.range 64).all (fun b => s.bundleState d b ≠ 0 || s.credit d b 1 = 0)

end Sys2Proof.Machine
end

