-- ==== Sys2Proof/Machine/Memory.lean ====
section
/-! DEFINITION. HBM as memory: a canonical list of address and byte, an unlisted byte reading 0. -/

namespace Sys2Proof.Machine

/-- What a byte that nothing has written reads as (DESIGN CHOICE: R244 trains HBM and the spec gives no contents). DESIGN CHOICE: log entry
13. -/
def hbmFill : Byte := 0

/-- The canonical form: addresses strictly rising and no entry equal to the fill. -/
abbrev Memory.wf (m : PMap Byte) : Prop := msorted m ∧ ∀ e ∈ m, e.2 ≠ hbmFill

/-- The byte at address `a`. DESIGN CHOICE: log entry 13. -/
def Memory.read (m : PMap Byte) (a : Nat) : Byte := mget m a hbmFill

/-- Write one byte. -/
def Memory.write (m : PMap Byte) (a : Nat) (b : Byte) : PMap Byte := mset m a b hbmFill

/-- Write a byte string from address `a` up. -/
def Memory.writeAll (m : PMap Byte) (a : Nat) : Bytes → PMap Byte
  | [] => m
  | b :: t => Memory.writeAll (Memory.write m a b) (a + 1) t

/-- `n` bytes from address `a`. -/
def Memory.readAll (m : PMap Byte) (a n : Nat) : Bytes := (List.range n).map (fun k => Memory.read m (a + k))

/-- Address of byte `off` of stack `st`: 24 GiB fit below 2^35. -/
def hbmAddr (st off : Nat) : Nat := st * 2 ^ 35 + off

/-- Write `data` at `off` of stack `st`. -/
def State.hbmWrite (s : State) (st off : Nat) (data : Bytes) : State :=
  { s with hbm := Memory.writeAll s.hbm (hbmAddr st off) data }

/-- `n` bytes at `off` of stack `st`. -/
def State.hbmRead (s : State) (st off n : Nat) : Bytes := Memory.readAll s.hbm (hbmAddr st off) n

end Sys2Proof.Machine
end

