-- ==== Sys2Proof/Machine/BpmOps.lean ====
section
/-! DEFINITION. Buffer pools (R207 to R214): handles, free stores, caches, and the four operations. -/

namespace Sys2Proof.Machine

/-- A handle's fields (R210). -/
def hGen (h : Nat) : Nat := bits h 40 8
/-- POOL of a handle. -/
def hPool (h : Nat) : Nat := bits h 37 3
/-- STACK of a handle. -/
def hStack (h : Nat) : Nat := bits h 34 3
/-- INDEX of a handle. -/
def hIndex (h : Nat) : Nat := bits h 0 34

/-- A handle from its fields. -/
def mkHandle (gen pool stack index : Nat) : Nat := gen * 2 ^ 40 + pool * 2 ^ 37 + stack * 2 ^ 34 + index

/-- Buffer size of pool `k` (R207). -/
def poolSize (k : Nat) : Nat := 512 * 8 ^ k

/-- Buffers of pool `k` on stack `st`. -/
def State.poolCount (s : State) (st k : Nat) : Nat := mget s.bpm.size (8 * st + k) 0

/-- The handle is valid (R210). -/
def State.validHandle (s : State) (h : Nat) : Bool :=
  hPool h ≤ 3 && hStack h ≤ 5 && hIndex h < s.poolCount (hStack h) (hPool h)

/-- Key of a buffer's META entry. -/
def entKey (h : Nat) : Nat := h % 2 ^ 40

/-- The META entry of the buffer that a handle names (R211). -/
def State.bufEnt (s : State) (h : Nat) : BufEnt := mget s.bpm.ents (entKey h) {}

/-- Replace a META entry. -/
def State.setEnt (s : State) (h : Nat) (e : BufEnt) : State :=
  s.updBpm (fun b => { b with ents := mset b.ents (entKey h) e {} })

/-- Stack-local offset of a buffer: the base of its pool's region plus INDEX × size (R210, R215). -/
def State.bufOffset (s : State) (h : Nat) : Nat :=
  s.rd (F.BPM_REGION_BASE (10 * hStack h + 3 + hPool h)) * 2 ^ 20 + hIndex h * poolSize (hPool h)

/-- The class of an agent (R208, R214). -/
def classOf (a : Nat) : Nat :=
  if a = 1 then 0 else if a = 2 then 1 else if 0x10 ≤ a && a < 0x34 then 2 else if 0x40 ≤ a && a < 0x60 then 3
  else if a = 0x60 || a = 0x61 then 4 else 5

/-- The die of an agent: 0 north, 1 south (R18). -/
def agentDie (a : Nat) : Nat :=
  if a = 2 || a = 0x61 || (0x20 ≤ a && a < 0x30) || a = 0x32 || a = 0x33 then 1 else 0

/-- The stacks that a class may use (R208). -/
def classStacks (c : Nat) : List Nat := if c = 0 then [0, 1, 2] else if c = 1 then [3, 4, 5] else [0, 1, 2, 3, 4, 5]

/-- F of R209: free buffers of pool `k` on the stacks of class `c`. -/
def State.classFree (s : State) (c k : Nat) : Nat :=
  (classStacks c).foldl (fun a st => a + s.rd (F.BPM_POOL_FREE_FREE (4 * st + k))) 0

/-- Class `c` may be served from pool `k` (R209). -/
def State.mayServe (s : State) (c k : Nat) : Bool :=
  let used := s.rd (F.BPM_CLASS_USED_USED (4 * c + k))
  let f := s.classFree c k
  let others := (List.range 5).foldl (fun a o =>
    if o = c then a else a + (s.rd (F.BPM_CLASS_RSV_RSV (4 * o + k)) - s.rd (F.BPM_CLASS_USED_USED (4 * o + k)))) 0
  used < s.rd (F.BPM_CLASS_MAX_MAX (4 * c + k)) && ((used < s.rd (F.BPM_CLASS_RSV_RSV (4 * c + k)) && f > 0) || f > others)

/-- The first index from `n` on whose buffer is not withheld (R242): a stack withholds at most 512 blocks of 8 buffers. -/
def State.skipRetired (s : State) (st k : Nat) : Nat → Nat → Nat
  | 0, n => n
  | m + 1, n => if (s.bufEnt (mkHandle 0 k st n)).retire then s.skipRetired st k m (n + 1) else n

/-- The next handle of the free ring of pool `k` on stack `st`: the ring first gives the image's entries in order, then
what was given back. -/
def State.ringPop (s : State) (st k : Nat) : Option (Nat × State) :=
  let n := s.skipRetired st k 4097 (mget s.bpm.next (8 * st + k) 0)
  if n < s.poolCount st k then
    some (mkHandle (s.bufEnt (mkHandle 0 k st n)).gen k st n,
      s.updBpm (fun b => { b with next := mset b.next (8 * st + k) (n + 1) 0 }))
  else
    match mget s.bpm.ring (8 * st + k) [] with
    | [] => none
    | i :: t =>
      some (mkHandle (s.bufEnt (mkHandle 0 k st i)).gen k st i,
        s.updBpm (fun b => { b with ring := mset b.ring (8 * st + k) t [] }))

/-- Key of a cache part of die `d` and pool `k`: part 0 LOCAL, 1 ALL (R207). -/
def cacheKey (d k part : Nat) : Nat := 8 * d + 2 * k + part

/-- Handles in a cache part. -/
def State.cacheOf (s : State) (d k part : Nat) : List Nat := mget s.bpm.cache (cacheKey d k part) []

/-- Set a cache part. -/
def State.setCache (s : State) (d k part : Nat) (l : List Nat) : State :=
  s.updBpm (fun b => { b with cache := mset b.cache (cacheKey d k part) l [] })

/-- The stacks from which a cache part is filled. -/
def partStacks (d part : Nat) : List Nat := if part = 1 then [0, 1, 2, 3, 4, 5] else if d = 0 then [0, 1, 2] else [3, 4, 5]

/-- Draw up to `n` handles into a cache part, in rotation over its stacks (R207). -/
def State.cacheFill (s : State) (d k part : Nat) : Nat → State
  | 0 => s
  | n + 1 =>
    let sts := partStacks d part
    let t := mget s.bpm.turn (cacheKey d k part) 0
    let order := (List.range sts.length).map (fun j => sts.getD ((t + j) % sts.length) 0)
    match order.findSome? (fun st => (s.ringPop st k).map (fun r => (st, r))) with
    | none => s
    | some (st, h, s') =>
      let s := s'.setCache d k part (s'.cacheOf d k part ++ [h])
      (s.updBpm (fun b => { b with turn := mset b.turn (cacheKey d k part) ((sts.idxOf st + 1) % sts.length) 0 })).cacheFill
        d k part n

/-- Give up to `n` handles of a cache part back to their rings (R207). -/
def State.cacheDrain (s : State) (d k part : Nat) : Nat → State
  | 0 => s
  | n + 1 =>
    match s.cacheOf d k part with
    | [] => s
    | h :: t =>
      let s := s.setCache d k part t
      (s.updBpm (fun b =>
        { b with ring := mset b.ring (8 * hStack h + k) (mget b.ring (8 * hStack h + k) [] ++ [hIndex h]) [] })).cacheDrain
        d k part n

/-- The cache part that serves a class. -/
def classPart (c : Nat) : Nat := if c ≤ 1 then 0 else 1

/-- Take one handle of pool `k` for an agent, not on stack `avoid`; a cache that has none is refilled first (R207). -/
def State.takeHandle (s : State) (agent k : Nat) (avoid : Option Nat) : Option (Nat × State) :=
  let d := agentDie agent
  let part := classPart (classOf agent)
  let fits (h : Nat) : Bool := avoid ≠ some (hStack h)
  let s := if (s.cacheOf d k part).any fits then s else s.cacheFill d k part 64
  match (s.cacheOf d k part).find? fits with
  | none => none
  | some h => some (h, s.setCache d k part ((s.cacheOf d k part).erase h))

/-- The pool that serves a request for pool `k`: pools k up to P3 in turn (R209). -/
def State.servingPool (s : State) (c k : Nat) : Option Nat := (List.range 4).find? (fun j => j ≥ k && s.mayServe c j)

/-- ALLOC (R209, R211, R212): the status and, with OK, the handle; `avoid` is the stack that the copy of a list block keeps off (R202). -/
def State.bpmAlloc (s : State) (agent k domain : Nat) (avoid : Option Nat := none) : Nat × Nat × State :=
  let c := classOf agent
  if !bit (s.rd (F.BPM_AGENT_DOMAIN_MASK agent)) domain then (stDenied, 0, s)
  else
    match s.servingPool c k with
    | none => (stNoBuffer, 0, (s.raise .bpm 0 1).cntGlobal 0x4A c 1)
    | some j =>
      match s.takeHandle agent j avoid with
      | none => (stNoBuffer, 0, (s.raise .bpm 0 1).cntGlobal 0x4A c 1)
      | some (h, s) =>
        let e := s.bufEnt h
        let s := s.setEnt h { e with count := 1, owner := agent, domain := domain }
        let s := s.subFrom (F.BPM_POOL_FREE_FREE (4 * hStack h + hPool h)) 1
        let s := s.wrapAdd (F.BPM_CLASS_USED_USED (4 * c + hPool h)) 1
        let s := if s.rd (F.BPM_CLASS_USED_USED (4 * c + hPool h)) = s.rd (F.BPM_CLASS_MAX_MAX (4 * c + hPool h)) then
            s.raise .bpm 0 2 else s
        (stOk, h, s)

/-- A rejected ADD_REF or RELEASE (R213): kind 1 stale, 2 foreign domain, 3 overflow, 4 invalid handle. -/
def State.badRelease (s : State) (agent h kind : Nat) : State :=
  let s := (s.wr F.BPM_BAD_RELEASE_HANDLE h).wr F.BPM_BAD_RELEASE_AGENT agent
  ((s.wr F.BPM_BAD_RELEASE_KIND kind).satAdd F.BPM_BAD_COUNT_COUNT 1).raise .bpm 0 0

/-- Why an ADD_REF or RELEASE is rejected: the kind and the status (R213). A handle of a free buffer counts as stale. DESIGN CHOICE: log
entry 161. -/
def State.refReject (s : State) (agent h add : Nat) : Option (Nat × Nat) :=
  let e := s.bufEnt h
  if !s.validHandle h then some (4, stBadArg)
  else if hGen h ≠ e.gen || e.count = 0 then some (1, stBadArg)
  else if !bit (s.rd (F.BPM_AGENT_DOMAIN_MASK agent)) e.domain then some (2, stDenied)
  else if e.count + add > 0xFFFF then some (3, stNoResource)
  else none

/-- The buffer of handle `h` is freed (R211): generation up, owner none, and its handle back to a cache unless the buffer is marked for
retirement. The rule does not say which cache: the one of the buffer's die that serves the owner's class. DESIGN CHOICE: log entry 161. -/
def State.freeBuf (s : State) (h : Nat) : State :=
  let e := s.bufEnt h
  let c := classOf e.owner
  let k := hPool h
  let g := (e.gen + 1) % 256
  let s := s.setEnt h { e with count := 0, owner := 0, gen := g }
  let s := s.subFrom (F.BPM_CLASS_USED_USED (4 * c + k)) 1
  if e.retire then s.wrapAdd (F.BPM_POOL_RETIRED_RETIRED (4 * hStack h + k)) 1
  else
    let d := hStack h / 3
    let part := classPart c
    let s := s.wrapAdd (F.BPM_POOL_FREE_FREE (4 * hStack h + k)) 1
    s.setCache d k part (s.cacheOf d k part ++ [mkHandle g k (hStack h) (hIndex h)])

/-- ADD_REF (R212, R213). -/
def State.bpmAddRef (s : State) (agent h n : Nat) : Nat × State :=
  match s.refReject agent h n with
  | some (kind, st) => (st, s.badRelease agent h kind)
  | none => (stOk, s.setEnt h { s.bufEnt h with count := (s.bufEnt h).count + n })

/-- RELEASE (R211 to R213). -/
def State.bpmRelease (s : State) (agent h : Nat) : Nat × State :=
  match s.refReject agent h 0 with
  | some (kind, st) => (st, s.badRelease agent h kind)
  | none =>
    let e := s.bufEnt h
    if e.count ≤ 1 then (stOk, s.freeBuf h) else (stOk, s.setEnt h { e with count := e.count - 1 })

/-- What QUERY returns (BPM_FN_HANDLE): count, owner, domain and generation. -/
def State.bpmQuery (s : State) (h : Nat) : Nat × Nat :=
  if s.validHandle h then
    let e := s.bufEnt h
    (stOk, e.count + e.owner * 2 ^ 16 + e.domain * 2 ^ 24 + e.gen * 2 ^ 32)
  else (stBadArg, 0)

/-- A domain of the agent's own mask, for the allocations that an engine makes by itself: the spec names none. DESIGN CHOICE: log entry 161.
-/
def State.ownDomain (s : State) (agent : Nat) : Nat :=
  ((List.range 64).find? (fun d => bit (s.rd (F.BPM_AGENT_DOMAIN_MASK agent)) d)).getD 0

/-! ### The IMAGE regions -/

/-- Where the staging area begins in the IMAGE regions: behind the running image (R215, R407). DEDUCED: log entry 94. -/
def State.stagingOff (s : State) : Nat := (s.boot.running.map (fun r => r.length)).getD 0

/-- Bytes go to the IMAGE regions of stacks 0 and 3, where these hold them (R215, R403). DESIGN CHOICE: log entry 101. -/
def State.imageStore (s : State) (off : Nat) (data : Bytes) : State :=
  ([0, 3] : List Nat).foldl (fun s st =>
    if off + data.length ≤ s.rd (F.BPM_REGION_SIZE (10 * st + 1)) * 2 ^ 20 then
      s.hbmWrite st (s.rd (F.BPM_REGION_BASE (10 * st + 1)) * 2 ^ 20 + off) data
    else s) s

end Sys2Proof.Machine
end

