-- ==== Sys2Proof/Machine/FlowOps.lean ====
section
/-! DEFINITION. Flow records: their place in HBM, the cache of each die, and the updates that wait for a fetch (R318 to R320). -/

namespace Sys2Proof.Machine

/-- Bucket of a flow key (R319). DEDUCED: log entry 59. -/
def flowBucket (key : Nat) : Nat := crc32cSeed 0 (leBytes 8 key) % 2 ^ 17

/-- Key of a flow record: die and key. -/
def flowIx (die key : Nat) : Nat := key2 die key

/-- A flow time: seconds in bits 63:30, ns in bits 29:0 (R318). -/
def State.flowTime (s : State) : Nat := s.domA.sec % 2 ^ 34 * 2 ^ 30 + s.domA.ns

/-- The 64 bytes of a flow record as it stands in HBM and in TEL_FLOW_RD (R318): little-endian. DEDUCED: log entry 77. -/
def flowBytes (key : Nat) (r : FlowRec) : Bytes :=
  leBytes 8 key ++ leBytes 8 r.packets ++ leBytes 8 r.bytes ++ leBytes 8 r.first ++ leBytes 8 r.last ++ leBytes 4 r.maxLat ++
    leBytes 2 r.outPort ++ leBytes 2 r.inPort ++ leBytes 16 0

/-- The same fields in an export frame, all of whose fields are in network order (R15, R311). DEDUCED: log entry 77. -/
def flowWire (key : Nat) (r : FlowRec) : Bytes :=
  beBytes 8 key ++ beBytes 8 r.packets ++ beBytes 8 r.bytes ++ beBytes 8 r.first ++ beBytes 8 r.last ++ beBytes 4 r.maxLat ++
    beBytes 2 r.outPort ++ beBytes 2 r.inPort ++ beBytes 16 0

/-- The record that 64 bytes of HBM hold. -/
def flowOf (b : Bytes) : FlowRec :=
  { packets := leAt b 8 8, bytes := leAt b 16 8, first := leAt b 24 8, last := leAt b 32 8, maxLat := leAt b 40 4, outPort := leAt b 44 2,
    inPort := leAt b 46 2 }

/-- The stack that holds the FLOW region, of at least 64 MiB (R215, R319). DESIGN CHOICE: log entry 124. -/
def State.flowStack (s : State) : Option Nat := (List.range 6).find? (fun st => s.rd (F.BPM_REGION_SIZE (10 * st + 7)) ≥ 64)

/-- Offset of way `w` of the bucket of a key in the half of a die (R319). -/
def State.flowOff (s : State) (st die key w : Nat) : Nat :=
  s.rd (F.BPM_REGION_BASE (10 * st + 7)) * 2 ^ 20 + die * 2 ^ 25 + (4 * flowBucket key + w) * 64

/-- The record of a key on a die, from the cache or from HBM. -/
def State.flowGet (s : State) (die key : Nat) : Option FlowRec :=
  match mget s.tel.flows (flowIx die key) none with
  | none => none
  | some e => e.cached.orElse (fun _ => s.flowStack.map (fun st => flowOf (s.hbmRead st (s.flowOff st die key e.way) 64)))

/-- A live record takes new values where it stands. -/
def State.flowPut (s : State) (die key : Nat) (r : FlowRec) : State :=
  match mget s.tel.flows (flowIx die key) none with
  | none => s
  | some e =>
    match e.cached, s.flowStack with
    | none, some st => s.hbmWrite st (s.flowOff st die key e.way) (flowBytes key r)
    | _, _ => s.updTel (fun x => { x with flows := mset x.flows (flowIx die key) (some { e with cached := some r }) none })

/-- A record is freed (R320). -/
def State.flowFree (s : State) (die key : Nat) : State :=
  s.updTel (fun x => { x with flows := mset x.flows (flowIx die key) none none,
                              recent := mset x.recent die ((mget x.recent die []).erase key) [] })

/-- Records that a die caches (R319). -/
def flowCache : Nat := 32768

/-- A record leaves the cache of its die for HBM. -/
def State.flowEvict (s : State) (die key : Nat) : State :=
  match mget s.tel.flows (flowIx die key) none, s.flowStack with
  | some { way := w, cached := some r }, some st =>
    (s.hbmWrite st (s.flowOff st die key w) (flowBytes key r)).updTel
      (fun x => { x with flows := mset x.flows (flowIx die key) (some { way := w, cached := none }) none })
  | _, _ => s

/-- A key is the one that its die's cache has used last; the one used longest ago is evicted when the cache is full. The rule does not name
the one that leaves. DESIGN CHOICE: log entry 124. -/
def State.flowTouch (s : State) (die key : Nat) : State :=
  let l := key :: (mget s.tel.recent die []).erase key
  let s := s.updTel (fun x => { x with recent := mset x.recent die (l.take flowCache) [] })
  (l.drop flowCache).foldl (fun s k => s.flowEvict die k) s

/-- Ways of a bucket of a die that live records take. -/
def State.bucketWays (s : State) (die b : Nat) : List Nat :=
  s.tel.flows.filterMap (fun e =>
    let (d, k) := Nat.unpair e.1
    if d = die && flowBucket k = b then e.2.map (fun f => f.way) else none)

/-- A first FULL or LOST flow event raises its interrupt. -/
def State.flowTrouble (s : State) : State := if s.intBit .tel 0 1 then s else s.raise .tel 0 1

/-- An update meets its record on the die, or opens one (R318, R319). -/
def State.flowApply (s : State) (die : Nat) (u : FlowUpd) : State :=
  let ix := flowIx die u.key
  match s.flowGet die u.key with
  | some r =>
    let r := { r with packets := r.packets + 1, bytes := r.bytes + u.len, last := u.time, maxLat := max r.maxLat u.lat,
                      outPort := u.outPort, inPort := u.inPort }
    (s.updTel (fun x => { x with flows := mset x.flows ix ((mget x.flows ix none).map (fun e => { e with cached := some r })) none })).flowTouch die u.key
  | none =>
    let ways := s.bucketWays die (flowBucket u.key)
    match (List.range 4).find? (fun w => !ways.contains w) with
    | none => (s.satAdd F.TEL_FLOW_STATUS_FULL 1).flowTrouble
    | some w =>
      let r : FlowRec := { packets := 1, bytes := u.len, first := u.time, last := u.time, maxLat := u.lat, outPort := u.outPort, inPort := u.inPort }
      (s.updTel (fun x => { x with flows := mset x.flows ix (some { way := w, cached := some r }) none })).flowTouch die u.key

/-- A sent packet updates the record of its key (R318, R319): at once when the die caches it, else through the queue of updates that wait
for a fetch. DEDUCED: log entry 59. -/
def State.flowUpdate (s : State) (die : Nat) (u : FlowUpd) : State :=
  let q := mget s.tel.flowQ die []
  if (mget s.tel.flows (flowIx die u.key) none).any (fun e => e.cached.isSome) then s.flowApply die u
  else if q.length ≥ 4096 then (s.satAdd F.TEL_FLOW_STATUS_LOST 1).flowTrouble
  else s.updTel (fun x => { x with flowQ := mset x.flowQ die (q ++ [u]) [] })

/-- The bucket `b` of a die has been fetched: the updates that wait for it apply, oldest first. A record in a poisoned line of it, named by
`bad` by its way, is lost with a CONTAINED event (R240). DESIGN CHOICE: log entry 124. -/
def State.flowFetched (s : State) (die b : Nat) (bad : List Nat) : State :=
  let lost := s.tel.flows.filterMap (fun e =>
    let (d, k) := Nat.unpair e.1
    if d = die && flowBucket k = b && e.2.any (fun f => f.cached.isNone && bad.contains f.way) then some k else none)
  let s := lost.foldl (fun s k => (s.flowFree die k).event contained (codeOf .tel 0 0x81) die k) s
  let q := mget s.tel.flowQ die []
  let s := s.updTel (fun x => { x with flowQ := mset x.flowQ die (q.filter (fun u => flowBucket u.key ≠ b)) [] })
  (q.filter (fun u => flowBucket u.key = b)).foldl (fun s u => s.flowApply die u) s

/-- The client of the memory controllers that fetches flow records. DESIGN CHOICE: log entry 124. -/
def flowClient : Nat := 255

/-- A read of `n` bytes at `off` of stack `st` has returned to the flow engine, with the lines at the offsets `bad` poisoned: the buckets that
lie whole in it have been fetched. -/
def State.flowRead (s : State) (st off n : Nat) (bad : List Nat) : State :=
  if s.flowStack ≠ some st then s
  else
    let base := s.rd (F.BPM_REGION_BASE (10 * st + 7)) * 2 ^ 20
    (List.range 17).foldl (fun s k =>
      let o := (off / 256 + k) * 256
      if off ≤ o && o + 256 ≤ off + n && base ≤ o && o < base + 2 ^ 26 then
        s.flowFetched ((o - base) / 2 ^ 25) ((o - base) % 2 ^ 25 / 256) (bad.filterMap (fun a => if o ≤ a && a < o + 256 then some ((a - o) / 64) else none))
      else s) s

end Sys2Proof.Machine
end

