-- ==== Sys2Proof/Machine/AtollArith.lean ====
section
/-! DEFINITION. Atoll's formats and arithmetic: exact sums rounded once, special codes, minima, maxima and bitwise operations
(R274 to R279), and the element layouts of payloads (R282, R283). -/

namespace Sys2Proof.Machine

/-! ### Formats -/

/-- Bytes of an element by FORMAT (R274). -/
def elemSize (fmt : Nat) : Nat := ([4, 2, 2, 1, 1, 4, 1] : List Nat).getD fmt 1

/-- The format is floating-point. -/
def isFloat (fmt : Nat) : Bool := fmt ≤ 4

/-- Bytes of a SUM accumulator: 320 bits for FP32 and BF16, 64 bits otherwise (R274). -/
def accSize (fmt : Nat) : Nat := if fmt ≤ 1 then 40 else 8

/-- The format table accepts kind, format and operation; for BROADCAST and BARRIER only the format counts (R274). -/
def formatOk (kind fmt op : Nat) : Bool :=
  fmt ≤ 6 && (kind ≥ 2 || op ≤ 2 || (op ≤ 5 && fmt ≥ 5))

/-- Exponent bits, mantissa bits, bias and the exponent of the accumulator's unit. -/
structure FpFmt where
  e : Nat
  m : Nat
  bias : Nat
  lsb : Nat
deriving DecidableEq, Repr

/-- The floating-point formats of R274. -/
def fpFmt (fmt : Nat) : FpFmt :=
  match fmt with
  | 0 => ⟨8, 23, 127, 149⟩
  | 1 => ⟨8, 7, 127, 149⟩
  | 2 => ⟨5, 10, 15, 24⟩
  | 3 => ⟨4, 3, 7, 24⟩
  | _ => ⟨5, 2, 15, 24⟩

/-- A value of a floating-point format; a finite one counts units of the accumulator's LSB. -/
inductive FpVal where
  | nan
  | inf (neg : Bool)
  | fin (neg : Bool) (mag : Nat)
deriving DecidableEq, Repr

/-- The value that a format gives its bits. E4M3 has one NaN magnitude and no infinity. -/
def fpDecode (fmt v : Nat) : FpVal :=
  let f := fpFmt fmt
  let neg := bit v (f.e + f.m)
  let e := bits v f.m f.e
  let m := bits v 0 f.m
  if fmt = 3 && e = 15 && m = 7 then .nan
  else if fmt ≠ 3 && e = 2 ^ f.e - 1 then (if m = 0 then .inf neg else .nan)
  else
    let e' := max e 1
    .fin neg ((if e = 0 then m else m + 2 ^ f.m) * 2 ^ (e' + f.lsb - f.bias - f.m))

/-- The canonical NaN of a format (R277). -/
def fpNan (fmt : Nat) : Nat := ([0x7FC00000, 0x7FC0, 0x7E00, 0x7F, 0x7E] : List Nat).getD fmt 0

/-- Infinity of a format; E4M3 has none. -/
def fpInf (fmt : Nat) : Nat := (2 ^ (fpFmt fmt).e - 1) * 2 ^ (fpFmt fmt).m

/-- The largest finite magnitude of a format, as bits. -/
def fpMax (fmt : Nat) : Nat := if fmt = 3 then 0x7E else fpInf fmt - 1

/-- The sign bit of a format. -/
def fpSign (fmt : Nat) (neg : Bool) : Nat := if neg then 2 ^ ((fpFmt fmt).e + (fpFmt fmt).m) else 0

/-- `n / 2^k` rounded to the nearest integer, ties to even. -/
def roundEven (n k : Nat) : Nat :=
  let q := n / 2 ^ k
  let r := n % 2 ^ k
  if 2 * r > 2 ^ k || (2 * r = 2 ^ k && q % 2 = 1) then q + 1 else q

/-- A magnitude in units rounded to a format: the exponent field and the significand as one number, with no limit to the
exponent (R277 step 3). -/
def fpRoundMag (fmt mag : Nat) : Nat :=
  let f := fpFmt fmt
  let u0 := 1 + f.lsb - f.bias - f.m
  let e' := max 1 (Nat.log2 mag + 1 - f.m - u0)
  let q := roundEven mag (u0 + e' - 1)
  if q ≥ 2 ^ f.m then (e' - 1) * 2 ^ f.m + q else q

/-- The result of a complete SUM element (R277): NaN and infinities by the code, one rounding, the sign of zero, and
overflow. -/
def fpResult (fmt : Nat) (sat : Bool) (acc : Int) (code : Nat) : Nat :=
  if bit code 3 || (bit code 1 && bit code 2) then fpNan fmt
  else if bit code 1 then (if fmt = 3 then fpNan fmt else fpInf fmt)
  else if bit code 2 then (if fmt = 3 then fpNan fmt else fpSign fmt true + fpInf fmt)
  else
    let r := fpRoundMag fmt acc.natAbs
    if r = 0 then fpSign fmt (bit code 0)
    else if r ≤ fpMax fmt then fpSign fmt (acc < 0) + r
    else if sat then fpSign fmt (acc < 0) + fpMax fmt
    else if fmt = 3 then fpNan fmt
    else fpSign fmt (acc < 0) + fpInf fmt

/-- What a contribution adds to an accumulator and how it acts on a code (R275, R276). -/
def fpAdd (fmt v : Nat) (acc : Int) (code : Nat) : Int × Nat :=
  match fpDecode fmt v with
  | .nan => (acc, (code ||| 8) &&& 14)
  | .inf n => (acc, (code ||| (if n then 4 else 2)) &&& 14)
  | .fin true 0 => (acc, code)
  | .fin n m => (acc + (if n then -(m : Int) else (m : Int)), code &&& 14)

/-- Two partial codes combine by OR in bits 3:1 and AND in bit 0 (R276). -/
def codeJoin (a b : Nat) : Nat := ((a ||| b) &&& 14) ||| (a &&& b &&& 1)

/-- An accumulator kept to its width in two's complement. -/
def wrapAcc (fmt : Nat) (v : Int) : Int := (BitVec.ofInt (8 * accSize fmt) v).toInt

/-- The result of a complete integer SUM element (R278). -/
def intResult (fmt : Nat) (sat : Bool) (acc : Int) : Nat :=
  let w := 8 * elemSize fmt
  if sat then trunc w (max (-(2 ^ (w - 1) : Int)) (min (2 ^ (w - 1) - 1) acc)) else trunc w acc

/-- The place of a value in the order of MIN and MAX: −0 counts as less than +0 (R279). -/
def orderKey (fmt v : Nat) : Int :=
  if isFloat fmt then
    let f := fpFmt fmt
    let m := bits v 0 (f.e + f.m)
    if bit v (f.e + f.m) then -(m : Int) - 1 else m
  else sext (8 * elemSize fmt) v

/-- MIN, MAX, AND, OR or XOR of two elements (R279). -/
def combine (fmt op a b : Nat) : Nat :=
  match op with
  | 1 => pick (orderKey fmt b < orderKey fmt a)
  | 2 => pick (orderKey fmt a < orderKey fmt b)
  | 3 => a &&& b
  | 4 => a ||| b
  | _ => a ^^^ b
where
  /-- The second value where the condition holds; a NaN gives the canonical NaN. -/
  pick (c : Bool) : Nat :=
    if isFloat fmt && (fpDecode fmt a = .nan || fpDecode fmt b = .nan) then fpNan fmt else if c then b else a

/-! ### Payloads -/

/-- Bytes of a payload of `count` elements (R282). -/
def payloadLen (fmt count : Nat) (wide : Bool) : Nat :=
  if wide then
    count * accSize fmt + (if isFloat fmt then ((count + 1) / 2 + 3) / 4 * 4 else 0)
  else count * elemSize fmt

/-- The elements of a native payload. -/
def elems (fmt count : Nat) (p : Bytes) : List Nat := (List.range count).map (fun k => beAt p (k * elemSize fmt) (elemSize fmt))

/-- The accumulators of a wide payload. -/
def wideAccs (fmt count : Nat) (p : Bytes) : List Int :=
  (List.range count).map (fun k => sext (8 * accSize fmt) (beAt p (k * accSize fmt) (accSize fmt)))

/-- The special codes of a wide payload: element k in the high half of map byte k div 2 when k is even. -/
def wideCodes (fmt count : Nat) (p : Bytes) : List Nat :=
  (List.range count).map (fun k =>
    if isFloat fmt then bits (beAt p (count * accSize fmt + k / 2) 1) (if k % 2 = 0 then 4 else 0) 4 else 0)

/-- A native payload. -/
def elemBytes (fmt : Nat) (l : List Nat) : Bytes := l.flatMap (beBytes (elemSize fmt))

/-- The bytes of a map of 4-bit codes. -/
def codeMap : List Nat → Bytes
  | [] => []
  | [a] => [BitVec.ofNat 8 (a * 16)]
  | a :: b :: t => BitVec.ofNat 8 (a * 16 + b) :: codeMap t

/-- A wide payload (R282). -/
def wideBytes (fmt : Nat) (acc : List Int) (code : List Nat) : Bytes :=
  let a := acc.flatMap (fun v => beBytes (accSize fmt) (trunc (8 * accSize fmt) v))
  let m := if isFloat fmt then codeMap code else []
  a ++ m ++ List.replicate ((4 - m.length % 4) % 4) 0

/-- The largest CHUNK_ELEMS (R283); a BARRIER takes the last column. -/
def chunkLimit (kind fmt op : Nat) (tree : Bool) : Nat :=
  let last : Nat := ([2048, 4096, 4096, 8192, 8192, 2048, 8192] : List Nat).getD fmt 0
  if kind ≥ 2 || op ≠ 0 then last
  else if tree then ([202, 202, 963, 963, 963, 1024, 1024] : List Nat).getD fmt 0
  else ([807, 807, 3847, 3847, 3847, 2048, 4088] : List Nat).getD fmt 0

end Sys2Proof.Machine
end

