-- ==== Sys2Proof/Machine/FrameOps.lean ====
section
/-! DEFINITION. Building and reading Ethernet, IP and UDP frames: for Atoll (R280, R284), exports (R311), IOAM and PTP. -/

namespace Sys2Proof.Machine

/-- Ones' complement sum of a byte string in 16-bit words. -/
def sum16 : Bytes → Nat
  | [] => 0
  | [a] => a.toNat * 256
  | a :: b :: t => a.toNat * 256 + b.toNat + sum16 t

/-- A folded ones' complement sum. -/
def fold16 (n : Nat) : Nat :=
  let n := n % 65536 + n / 65536
  let n := n % 65536 + n / 65536
  n % 65536 + n / 65536

/-- The Internet checksum of a byte string. -/
def inetSum (l : Bytes) : Nat := 65535 - fold16 (sum16 l)

/-- What an IP and UDP frame names: both MAC addresses, the IP version, both addresses, the time to live and both ports. -/
structure UdpHdr where
  da : Nat
  sa : Nat
  v6 : Bool
  src : Nat
  dst : Nat
  ttl : Nat
  sport : Nat
  dport : Nat
deriving DecidableEq, Repr

/-- The UDP header and payload with its checksum over the pseudo-header. -/
def udpBytes (h : UdpHdr) (payload : Bytes) : Bytes :=
  let n := 8 + payload.length
  let w := if h.v6 then 16 else 4
  let c := inetSum (beBytes w h.src ++ beBytes w h.dst ++ beBytes 4 n ++ beBytes 4 17 ++ beBytes 2 h.sport ++
    beBytes 2 h.dport ++ beBytes 2 n ++ payload)
  beBytes 2 h.sport ++ beBytes 2 h.dport ++ beBytes 2 n ++ beBytes 2 (if c = 0 then 65535 else c) ++ payload

/-- A whole Ethernet frame that carries a UDP payload, FCS included. -/
def udpFrame (h : UdpHdr) (payload : Bytes) : Bytes :=
  let u := udpBytes h payload
  let ip :=
    if h.v6 then
      beBytes 4 0x60000000 ++ beBytes 2 u.length ++ beBytes 1 17 ++ beBytes 1 h.ttl ++ beBytes 16 h.src ++ beBytes 16 h.dst
    else
      let a := beBytes 2 0x4500 ++ beBytes 2 (20 + u.length) ++ beBytes 4 0x00004000 ++ beBytes 1 h.ttl ++ beBytes 1 17
      let b := beBytes 4 h.src ++ beBytes 4 h.dst
      a ++ beBytes 2 (inetSum (a ++ b)) ++ b
  padFcs (beBytes 6 h.da ++ beBytes 6 h.sa ++ beBytes 2 (if h.v6 then 0x86DD else 0x0800) ++ ip ++ u)

/-- The offset of the Ethertype of a frame behind up to two VLAN tags. -/
def etherOff (f : Bytes) : Nat :=
  let tag (o : Nat) : Bool := beAt f o 2 = 0x8100 || beAt f o 2 = 0x88A8
  if tag 12 then (if tag 16 then 20 else 16) else 12

/-- What a UDP frame carries: IP version 6, source address, offset of the UDP header and its length field. -/
structure UdpView where
  v6 : Bool
  src : Nat
  dport : Nat
  udpOff : Nat
  udpLen : Nat
deriving DecidableEq, Repr

/-- Read an IPv4 or IPv6 frame whose next header is UDP. -/
def udpView (f : Bytes) : Option UdpView :=
  let e := etherOff f
  let o := e + 2
  match beAt f e 2 with
  | 0x0800 =>
    let u := o + 4 * (beAt f o 1 % 16)
    if beAt f o 1 / 16 = 4 && beAt f o 1 % 16 ≥ 5 && beAt f (o + 9) 1 = 17 && f.length ≥ u + 8 then
      some { v6 := false, src := beAt f (o + 12) 4, dport := beAt f (u + 2) 2, udpOff := u, udpLen := beAt f (u + 4) 2 }
    else none
  | 0x86DD =>
    let u := o + 40
    if beAt f (o + 6) 1 = 17 && f.length ≥ u + 8 then
      some { v6 := true, src := beAt f (o + 8) 16, dport := beAt f (u + 2) 2, udpOff := u, udpLen := beAt f (u + 4) 2 }
    else none
  | _ => none

end Sys2Proof.Machine
end

