-- ==== Sys2Proof/Machine/DeepOps.lean ====
section
/-! DEFINITION. Deep mode: gathering packets into pages, the page list, writing, and what lands again (R197 to R206). -/

namespace Sys2Proof.Machine

/-- Cells of a packet of `len` bytes (R172). -/
def cellsOf (len : Nat) : Nat := (len + 255) / 256

/-- What the deep engine holds for queue `q`. -/
def State.deepQ (s : State) (q : Nat) : DeepQ := mget s.bpm.deep q {}

/-- Replace it, keeping BPM_DEEP_Q_STATUS.PAGES in line: pages in HBM or being written. -/
def State.setDeep (s : State) (q : Nat) (d : DeepQ) : State :=
  (s.updBpm (fun b => { b with deep := mset b.deep q d {} })).wr (F.BPM_DEEP_Q_STATUS_PAGES q)
    (d.pages.filter (fun g => g.stage = 1 || g.stage = 2 || g.stage = 3)).length

/-- Slots of the record of a page that begins `n` packets (R200). -/
def recSlots (n : Nat) : Nat := if n ≤ 7 then 1 else 2

/-- Data cells of a page. -/
def Page.cells (g : Page) : Nat := g.parts.foldl (fun a x => a + x.2) 0

/-- The page is full: record slots and data cells fill all 16 slots (R201). -/
def Page.full (g : Page) : Bool := recSlots g.begins.length + g.cells ≥ 16

/-- Change the page of a queue that `p` accepts first. -/
def updFirst (p : Page → Bool) (f : Page → Page) : List Page → List Page
  | [] => []
  | g :: t => if p g then f g :: t else g :: updFirst p f t

/-- The deep agent of a die (R214). -/
def deepAgent (die : Nat) : Nat := 1 + die

/-- Draw a page for die `die`: from its stock, which the engine refills from the DEEP class when it is empty (R199). -/
def State.drawPage (s : State) (die : Nat) : Option (Nat × State) :=
  match mget s.bpm.stock die [] with
  | h :: t =>
    let s := s.updBpm (fun b => { b with stock := mset b.stock die t [] })
    some (h, if t.length < s.rd F.BPM_DEEP_CFG_NOBUF_LOW && t.length + 1 ≥ s.rd F.BPM_DEEP_CFG_NOBUF_LOW then
               s.raise .bpm 0 3 else s)
  | [] =>
    let r := s.bpmAlloc (deepAgent die) 1 (s.ownDomain (deepAgent die))
    if r.1 = stOk then some (r.2.1, r.2.2) else none

/-- Room for the list entry of a page that closes (R202): the first of 63 entries takes a list block and its copy, on two stacks of the
die. The answer is none while there is none to be had. -/
def State.listRoom (s : State) (q : Nat) : Option State :=
  let d := s.deepQ q
  if d.entries % 63 ≠ 0 then some s
  else
    let ag := deepAgent (q / 4096)
    let a := s.bpmAlloc ag 0 (s.ownDomain ag)
    if a.1 ≠ stOk then none
    else
      let b := a.2.2.bpmAlloc ag 0 (s.ownDomain ag) (some (hStack a.2.1))
      if b.1 = stOk then some (b.2.2.updBpm (fun x => { x with deep := mset x.deep q { d with blocks := d.blocks ++ [(a.2.1, b.2.1)] } {} }))
      else none

/-- Close the open page of queue `q`: it is being written, and its entry joins the list (R201, R202). Without a list block to be had it
stays open until there is one. -/
def State.closePage (s : State) (q : Nat) : State :=
  if (s.deepQ q).pages.any (fun g => g.stage = 0) then
    match s.listRoom q with
    | none => s
    | some s =>
      let d := s.deepQ q
      let blk := d.blocks.getLast?
      let first := d.entries % 63 = 0
      let place := blk.map (fun b => (b.1, b.2, d.entries % 63))
      let prev := if first then d.blocks.dropLast.getLast? else none
      (s.setDeep q { d with pages := updFirst (fun g => g.stage = 0) (fun g => { g with stage := 1, place := place, prev := prev }) d.pages,
                            entries := d.entries + 1 }).cntGlobal 0x48 (q / 4096) 1
  else s

/-- Open a page of queue `q`. -/
def State.openPage (s : State) (q : Nat) : Option State :=
  match s.drawPage (q / 4096) with
  | none => none
  | some (h, s) =>
    let d := s.deepQ q
    some (s.setDeep q { d with pages := d.pages ++ [{ handle := h, seq := d.seq % 65536, parts := [], begins := [],
                                                      stage := 0, since := s.now }], seq := d.seq + 1 })

/-- The open page of a queue. -/
def State.open? (s : State) (q : Nat) : Option Page := (s.deepQ q).pages.find? (fun g => g.stage = 0)

/-- A cell of packet `id` joins page `g`; `at_` of its cells stand in earlier pages. -/
def Page.addCell (id at_ : Nat) (g : Page) : Page :=
  match g.parts.getLast? with
  | some (i, c) => if i = id then { g with parts := g.parts.dropLast ++ [(i, c + 1)] } else { g with parts := g.parts ++ [(id, 1)] }
  | none => { g with parts := [(id, 1)], start := at_ }

/-- An open page of queue `q` that is not full: the present one, or the next when that one can close and a page can be had. -/
def State.roomPage (s : State) (q : Nat) (fits : Page → Bool) : Option State :=
  let s := match s.open? q with
    | some g => if fits g then s else s.closePage q
    | none => s
  match s.open? q with
  | some g => if fits g then some s else none
  | none => s.openPage q

/-- What is left of the packet that queue `q` gathers, for want of a page. -/
def State.setPart (s : State) (q : Nat) (p : Option (Nat × Nat)) : State :=
  let d := s.deepQ q
  s.updBpm (fun b => { b with deep := mset b.deep q { d with part := p } {} })

/-- Put the last `n` of the `m` cells of packet `id` into pages of queue `q`, filling one page after another (R200, R201); without a page
the rest waits (R199). -/
def State.fillPages (s : State) (q id m : Nat) : Nat → State
  | 0 => s.setPart q none
  | n + 1 =>
    match s.roomPage q (fun g => !g.full) with
    | none => s.setPart q (some (id, n + 1))
    | some s =>
      let d := s.deepQ q
      let s := s.setDeep q { d with pages := updFirst (fun g => g.stage = 0) (Page.addCell id (m - (n + 1))) d.pages }
      let s := match s.open? q with
        | some g => if g.full then s.closePage q else s
        | none => s
      s.fillPages q id m n

/-- Whether a packet can begin in page `g` (R201). -/
def Page.canBegin (g : Page) : Bool := recSlots (g.begins.length + 1) + g.cells + 1 ≤ 16

/-- The gatherer takes packet `id` of queue `q` (R197, R200, R201); the cells of a spilled packet are read across the Causeway (R35). The
answer is none when no page can be had: gathering waits, and the packet stays in the Lagoon (R199). -/
def State.gather (s : State) (q id : Nat) : Option State :=
  match mfind s.path.pkts id with
  | none => some s
  | some x =>
    match s.roomPage q Page.canBegin with
    | none => none
    | some s =>
      let d := s.deepQ q
      let n := cellsOf x.data.length
      let away := x.half ≠ q / 4096
      let s := s.setDeep q { d with pages := updFirst (fun g => g.stage = 0) (fun g => { g with begins := g.begins ++ [id] })
                                               d.pages, owed := if away then mset d.owed id n 0 else d.owed }
      let s := if away then s.cross (q / 4096) (readFlits (160 + q) id n) else s
      some (s.fillPages q id n n)

/-- The gatherer takes a packet, or leaves it waiting in the Lagoon behind the packets that already wait. -/
def State.gatherOrWait (s : State) (q id : Nat) : State :=
  let wait (s : State) : State :=
    let d := s.deepQ q
    s.updBpm (fun b => { b with deep := mset b.deep q { d with waiting := d.waiting ++ [id] } {} })
  if !(s.deepQ q).waiting.isEmpty || (s.deepQ q).part.isSome then wait s
  else
    match s.gather q id with
    | some s => s
    | none => wait s

/-- Packets that waited for a page are gathered as far as pages can be had. -/
def State.gatherWaiting (s : State) (q : Nat) : List Nat → State
  | [] => s
  | id :: t =>
    if (s.deepQ q).part.isSome then s
    else
      match s.gather q id with
      | some s =>
        let d := s.deepQ q
        (s.updBpm (fun b => { b with deep := mset b.deep q { d with waiting := t } {} })).gatherWaiting q t
      | none => s

/-- Gathering of queue `q` goes on, as far as pages can be had: the packet that had stopped, then those that wait (R199). -/
def State.gatherRetry (s : State) (q : Nat) : State :=
  let s := match (s.deepQ q).part with
    | some (id, n) => s.fillPages q id (((mfind s.path.pkts id).map (fun x : Pkt => cellsOf x.data.length)).getD n) n
    | none => s
  s.gatherWaiting q (s.deepQ q).waiting

/-- Pages have become free: every queue whose gathering waits goes on, the lowest queue first (R199). The order among queues is not said.
DESIGN CHOICE: log entry 148. -/
def State.gatherAll (s : State) : State :=
  (s.bpm.deep.filter (fun e => !e.2.waiting.isEmpty || e.2.part.isSome)).foldl (fun s e => s.gatherRetry e.1) s

/-- Queue `q` enters deep mode (R197). -/
def State.deepEnter (s : State) (q : Nat) : State :=
  if s.on (F.BPM_DEEP_Q_STATUS_DEEP q) then s
  else (s.wrB (F.BPM_DEEP_Q_STATUS_DEEP q) true).wrapAdd (F.BPM_DEEP_DIE_STATUS_DEEP_QUEUES (q / 4096)) 1

/-! ### The page image in HBM -/

/-- The 32-byte descriptor of a packet in a page record (R200), as bits from the least significant. -/
def descBytes (x : Pkt) (slot base : Nat) : Bytes :=
  leBytes 32 (x.md.egressMeta % 2 ^ 64 + x.data.length % 2 ^ 14 * 2 ^ 64 + slot % 16 * 2 ^ 78 + x.md.colour % 4 * 2 ^ 82 +
    (if x.ce then 2 ^ 84 else 0) + x.md.telFlags % 16 * 2 ^ 85 + x.inPort % 2 ^ 10 * 2 ^ 89 +
    min (x.timeA - base) (2 ^ 32 - 1) * 2 ^ 128 + x.md.group % 2 ^ 12 * 2 ^ 160 + x.md.groupHash % 2 ^ 32 * 2 ^ 176)

/-- The record of a page (R200): header, then one descriptor for each packet that begins in it. -/
def State.pageRecord (s : State) (q : Nat) (g : Page) : Bytes :=
  let first := recSlots g.begins.length
  let base := match g.parts.head? with
    | some (i, _) => ((mfind s.path.pkts i).map (fun x => x.timeA)).getD 0
    | none => 0
  let hdr := leBytes 16 (q % 2 ^ 16 + g.seq % 2 ^ 16 * 2 ^ 16 + g.cells % 16 * 2 ^ 32 + g.begins.length % 16 * 2 ^ 36 +
    base % 2 ^ 48 * 2 ^ 40)
  hdr ++ g.begins.flatMap (fun i =>
    match mfind s.path.pkts i with
    | some x => descBytes x (first + ((g.parts.takeWhile (fun y => y.1 ≠ i)).foldl (fun a y => a + y.2) 0)) base
    | none => List.replicate 32 0)

/-- The data cells of a page, in slot order. A packet that began in an earlier page goes on with its next cell. -/
def State.pageCells (s : State) (g : Page) : Bytes :=
  g.parts.flatMap (fun y =>
    match mfind s.path.pkts y.1 with
    | some x =>
      let from_ := if g.begins.contains y.1 then 0 else g.start
      (List.range y.2).flatMap (fun k => cellBytes x.data (from_ + k))
    | none => List.replicate (256 * y.2) 0)

/-- The list entry of a page (R202): its handle in bits 47:0, CELLS in 51:48, PKTS in 55:52. -/
def Page.entry (g : Page) : Nat := g.handle % 2 ^ 48 + g.cells % 16 * 2 ^ 48 + g.begins.length % 16 * 2 ^ 52

/-- Entry `e` of the list block `h` in HBM. -/
def State.putEntry (s : State) (h e v : Nat) : State := s.hbmWrite (hStack h) (s.bufOffset h + 8 * e) (leBytes 8 v)

/-- The list entry of a page reaches both copies of its list block, and with the first entry of a block the block before names it in
entry 63 (R202). -/
def State.putList (s : State) (g : Page) : State :=
  match g.place with
  | none => s
  | some (a, b, e) =>
    let s := (s.putEntry a e g.entry).putEntry b e g.entry
    match g.prev with
    | some (a0, b0) => (s.putEntry a0 63 a).putEntry b0 63 b
    | none => s

/-- A page is written (R201): its record, rounded up to whole 64 B lines, and its filled slots reach HBM. -/
def State.storePage (s : State) (q : Nat) (g : Page) : State :=
  let rec_ := s.pageRecord q g
  let rec_ := rec_ ++ List.replicate ((64 - rec_.length % 64) % 64) 0
  let off := s.bufOffset g.handle
  (s.hbmWrite (hStack g.handle) off rec_).hbmWrite (hStack g.handle) (off + 256 * recSlots g.begins.length) (s.pageCells g)

/-- Packet `id` gives up `n` of its cells in the Lagoon (R184). -/
def State.giveCells (s : State) (id n : Nat) : State :=
  match mfind s.path.pkts id with
  | none => s
  | some x =>
    let s := (s.freeCells x.half (x.cells.take n)).refund x.acct x.half (min n x.cells.length)
    let s := s.setPkt id (some { x with cells := x.cells.drop n })
    s.pgTests x.half

end Sys2Proof.Machine
end

