-- ==== Sys2Proof/Machine/AdmitOps.lean ====
section
/-! DEFINITION. Admission (R177, R180 to R190), action groups (R152, R153), traps (R134 to R136), and what becomes of the
packets of a port that fails or is disabled (R114, R155). -/

namespace Sys2Proof.Machine

/-! ### Action groups -/

/-- Words of entry `ix` of the table of pool `2 i + d` that has role `role`, if the entry is valid. -/
def State.roleWords (s : State) (pool role ix : Nat) : Option (List Nat) :=
  match mfind s.mat.roles (key2 pool role) with
  | none => none
  | some t =>
    let e := mget s.mat.entries (key2 pool (key2 t ix)) {}
    if e.valid then some e.words else none

/-- Port `p` is live in island `i` (R153): the vector has 512 bits. -/
def State.islandLive (s : State) (i p : Nat) : Bool := p < 512 && bit (s.rd (F.PIPE_PORT_LIVE_LIVE (16 * i + p / 32))) (p % 32)

/-- The choice that a group makes for hash `h` in island `i` (R152, R153): an egress port and the member's action data, or the drop code.
The word layout of group, member and slot entries is the image's; the model takes M, n, first member and first slot in the four words of a
group entry, the egress port and the action data in words 0 and 1 of a member entry, and the member number in word 0 of a slot entry. DESIGN
CHOICE: log entry 157. -/
def State.groupPick (s : State) (i g h : Nat) : Except Nat (Nat × Nat) :=
  let pool := 2 * i
  match s.roleWords pool 1 g with
  | none => .error 0x08
  | some gw =>
    let m := gw.getD 0 0
    let first := gw.getD 2 0
    let slot := h % 2 ^ min (gw.getD 1 0) 12
    let members := (List.range (min m 64)).map (fun k => s.roleWords pool 2 (first + k))
    match s.roleWords pool 3 (gw.getD 3 0 + slot) with
    | none => .error 0x08
    | some sw =>
      let mix := sw.getD 0 0
      if members.any (fun x => x.isNone) || m = 0 || m > 64 || mix ≥ m then .error 0x08
      else
        let mem := members.map (fun x => ((x.getD []).getD 0 0 % 1024, (x.getD []).getD 1 0 % 2 ^ 32))
        let chosen := mem.getD mix (0, 0)
        if s.islandLive i chosen.1 then .ok chosen
        else
          let l := mem.filter (fun x => s.islandLive i x.1)
          if l.isEmpty then .error 0x60 else .ok (l.getD (bits h 16 16 % l.length) (0, 0))

/-- The multicast queues of a multicast group in island `i`. The rules give a group no form: the model takes it from a table of the image's
layout, whose entries hold up to six members (their number, then the queues) and the entry that goes on, or 0. DESIGN CHOICE: log entry 157.
-/
def State.mcastFrom (s : State) (i ix : Nat) : Nat → List Nat
  | 0 => []
  | n + 1 =>
    match s.roleWords (2 * i) 4 ix with
    | none => []
    | some w =>
      ((w.drop 1).take (min 6 (w.getD 0 0))).map (fun m => 8192 + m % 1024) ++
        if w.getD 7 0 = 0 then [] else s.mcastFrom i (w.getD 7 0) n

/-- The members of multicast group `g` of island `i`, at most 1,024 copies (R190). -/
def State.mcastMembers (s : State) (i g : Nat) : List Nat := ((s.mcastFrom i g 1024).eraseDups).take 1024

/-! ### Admission -/

/-- A packet that comes to admission. -/
structure Arrival where
  data : Bytes
  md : Meta
  /-- 0x3FF for a packet without an ingress port (R183) -/
  inPort : Nat
  host : Bool
  ts : Nat
  tsB : Nat
  t16 : Nat
  /-- die of origin -/
  die : Nat
  /-- source pipeline, for the stream of its descriptor (R33) -/
  src : Nat
  /-- sixteenths of a tick -/
  sub : Nat
  payOff : Nat
  /-- half in which it is to be stored, where a rule names one (R43) -/
  home : Option Nat := none
deriving DecidableEq, Repr

/-- What a drop of an arrival reports. -/
def Arrival.info (a : Arrival) (queue depth : Nat) : DropInfo :=
  { inPort := a.inPort, host := a.host, data := a.data, md := a.md, ts := a.ts, depth := depth, queue := queue }

/-- The half that stores a packet whose home half is `home` (R177). -/
def State.chooseHalf (s : State) (home : Nat) : Nat :=
  if s.on (F.LAG_HALF_STATUS_SPILLING home) && s.on F.LAG_CFG_SPILL_EN && !s.on (F.LAG_HALF_STATUS_SPILLING (1 - home)) then
    1 - home
  else home

/-- The account that pays for `n` cells in half `h` (R180, R183), or the drop code. -/
def State.account (s : State) (ing : Option (Nat × Nat)) (q : Option Nat) (n h : Nat) : Except Nat Acct :=
  let rsv := s.poolFree h 0 ≥ n
  let f := s.sharedFree h
  let qmin (els : Except Nat Acct) : Except Nat Acct :=
    match q with
    | some k => if rsv && mget s.path.qMinUsed k 0 + n ≤ s.qMin k then .ok (.qMin k) else els
    | none => els
  match ing with
  | none => qmin (if f ≥ n then .ok (.shared none) else .error 0x41)
  | some (p, g) =>
    let a := 8 * p + g
    if rsv && s.rd (F.LAG_PG_USE_USED (3 * a)) + n ≤ s.rd (F.LAG_PG_MIN_MIN a) then .ok (.pgMin p g)
    else
      qmin (
        if f ≥ n && withinAlpha (s.rd (F.LAG_PG_USE_USED (3 * a + 1)) + n) (s.rd (F.LAG_PG_CFG_ALPHA a)) f then
          .ok (.shared (some (p, g)))
        else if !s.on (F.LAG_PG_CFG_LOSSLESS a) then .error 0x41
        else if s.poolFree h 2 ≥ n && s.rd (F.LAG_PG_USE_USED (3 * a + 2)) + n ≤ s.rd (F.LAG_PG_HDRM_HDRM_MAX a) then
          .ok (.headroom p g)
        else .error 0x42)

/-- A drop by admission in half `h` (R195). -/
def State.admitDrop (s : State) (h code : Nat) (i : DropInfo) : State :=
  let s := (s.drop code i).cntGlobal 0x44 code 1
  if 0x40 ≤ code && code < 0x50 then
    let s := s.satAdd (F.LAG_DROP_CNT_COUNT (6 * h + (code - 0x40))) 1
    if code = 0x42 && !s.intBit .lag 0 (4 + 16 * h) then s.lagEvent h 4 else s
  else if 0x50 ≤ code && code < 0x53 then s.satAdd (F.BPM_DEEP_DROP_CNT_COUNT (3 * h + (code - 0x50))) 1
  else s

/-- The egress tests of R180, R184 and R199 for `n` cells to unicast queue `k` in half `h`: a drop code, if they fail. -/
def State.egressTest (s : State) (k n h : Nat) : Option Nat :=
  let occ := s.rd (occF k)
  let deep := s.on (F.BPM_DEEP_Q_STATUS_DEEP k)
  if occ + n > s.rd (qMaxF k) then some 0x43
  else if s.on (F.LAG_Q_CFG_LOSSLESS k) then none
  else if deep then
    if (s.deepQ k).cells + n > 15 * s.rd (F.BPM_DEEP_Q_MAX_PAGES k) then some 0x50
    else if (mget s.bpm.stock (k / 4096) []).length < s.rd F.BPM_DEEP_CFG_NOBUF_LOW then some 0x51
    else none
  else if withinAlpha (occ + n - s.qMin k) (s.alphaCur k) (s.sharedFree h) then none
  else some 0x40

/-- The effective ECN thresholds of a queue in cells, and whether a bound acted (R188, R189). -/
def State.ecnThresholds (s : State) (k : Nat) : Nat × Nat × Bool :=
  let mn := s.rd (F.LAG_Q_ECN_MIN k)
  let mx := max mn (s.rd (F.LAG_Q_ECN_MAX k))
  if !s.on (F.LAG_Q_ECN_ADAPT k) then (16 * mn, 16 * mx, false)
  else
    let cur := min (s.alphaCur k) 9
    let cfg := s.alphaSet k
    let scale (v : Nat) : Nat := v * 16 * 2 ^ cur / 2 ^ cfg
    let lo := 16 * s.rd (F.LAG_Q_ECN_BOUND_FLOOR k)
    let hi := 16 * s.rd (F.LAG_Q_ECN_BOUND_CEIL k)
    let bound (v : Nat) : Nat := max lo (min hi v)
    (bound (scale mn), bound (scale mx), bound (scale mn) ≠ scale mn || bound (scale mx) ≠ scale mx)

/-- One admission decision in half `h`: its LFSR advances (R188). -/
def State.decide1 (s : State) (h : Nat) : State := s.updPath (fun y => { y with lfsr := mset y.lfsr h (mget y.lfsr h 0 + 1) 0 })

/-- A bound acts on the ECN thresholds of queue `k` (R189). -/
def State.ecnHeld (s : State) (k : Nat) : State := (s.wrB (F.LAG_Q_STATUS_ECN_PINNED k) true).satAdd F.LAG_PINNED_CNT_ECN 1

/-- ECN marking of a packet admitted to unicast queue `k` of half `h` (R188). A bound that begins to act counts at once (R189); one that
goes on acting counts at the end of each period. DESIGN CHOICE: log entry 158. -/
def State.ecnMark (s : State) (h k : Nat) (md : Meta) : Bool × State :=
  let r := (Config.ecnLfsr h (mget s.path.lfsr h 0)).toNat
  if !md.ecnCap || !s.on (F.LAG_Q_ECN_EN k) then (false, s)
  else
    let occ := s.rd (occF k)
    let (mn, mx, pinned) := s.ecnThresholds k
    let s := if pinned && !s.on (F.LAG_Q_STATUS_ECN_PINNED k) then s.ecnHeld k else s
    let mark :=
      if occ ≥ mx then true
      else if occ < mn then false
      else r * (256 * (mx - mn)) < s.rd (F.LAG_Q_ECN_PMAX k) * (occ - mn) * 65536
    (mark, if mark then s.cntGlobal 0x45 h 1 else s)

/-- A descriptor whose cells and which itself are in place goes to its queues (R33), or to the gatherer. -/
def State.deliver (s : State) (id : Nat) (queues : List Nat) : State :=
  match mfind s.path.pkts id with
  | none => s
  | some x =>
    queues.foldl (fun s k =>
      if x.deep && k < 8192 then s.gatherOrWait k id
      else s.enqueue k id (s.depth k - (if k < 8192 then x.cells.length else 0))) s

/-- The die whose traffic manager serves a queue key (R18, R41): CPU queues are on the north die. -/
def queueDie (k : Nat) : Nat := if k < 8192 then k / 4096 else if k < 9216 then (k - 8192) / 512 else 0

/-- Store packet `x` of `n` cells, its account chosen, for `queues` (R33, R172, R180): the account is charged and the cells
are allocated, or written across the Causeway into granted cells; the descriptor joins its queues when every cell and the
descriptor itself are on the die of the queue, and no earlier descriptor of its stream is held. -/
def State.store (s : State) (a : Arrival) (x : Pkt) (n : Nat) (queues : List Nat) : State :=
  let id := s.path.nextPkt
  let s := s.updPath (fun y => { y with nextPkt := id + 1 })
  let s := (s.charge x.acct x.half n).subFrom (F.LAG_HALF_STATUS_FREE x.half) n
  let s := (s.spillUpdate x.half).cntGlobal 0x42 x.half n
  let s := if a.die ≠ x.half then s.setPkt id (some x)
    else
      let r := s.takeCells x.half n
      r.2.setPkt id (some { x with cells := r.1 })
  let s := s.pgTests x.half
  let far (k : Nat) : Bool := a.die ≠ queueDie k
  let straight (k : Nat) : Bool := a.die = x.half && !far k && s.path.held.all (fun h => h.stream ≠ key2 a.src k)
  let later := queues.filter (fun k => !straight k)
  let held := later.map (fun k => ({ stream := key2 a.src k, pkt := id, queue := k, cells := if a.die ≠ x.half then n else 0,
                                     here := !far k } : HeldDesc))
  let s := (s.deliver id (queues.filter straight)).updPath (fun y => { y with held := y.held ++ held })
  let l := (if a.die ≠ x.half then (List.range n).map (Body.cellWr id) else []) ++
    (later.filter far).map (fun k => Body.desc [(id, k)])
  if l.isEmpty then s else s.cross a.die l

/-- Admission of a unicast packet to queue `16 p + q` (R177, R180, R183, R184, R188, R197). -/
def State.admitUnicast (s : State) (a : Arrival) (p q : Nat) : State :=
  let k := 16 * p + q
  let n := cellsOf a.data.length
  let home := a.home.getD (p / 256)
  let h := s.chooseHalf home
  let s := (if h ≠ home then s.cntGlobal 0x43 home 1 else s).decide1 h
  match s.egressTest k n h with
  | some code =>
    let s := if code = 0x40 then s.egrDropped k else s
    s.admitDrop (if code < 0x50 then h else k / 4096) code (a.info k (s.depth k))
  | none =>
    let ing := if a.inPort < 512 then some (a.inPort, a.md.pg % 8) else none
    match s.account ing (some k) n h with
    | .error code => s.admitDrop h code (a.info k (s.depth k))
    | .ok acct =>
      if s.freeFor h a.die < n then s.admitDrop h 0x44 (a.info k (s.depth k))
      else
        let (ce, s) := s.ecnMark h k a.md
        let s := if s.on (F.BPM_DEEP_Q_CFG_EN k) && s.rd (occF k) ≥ s.rd (F.BPM_DEEP_Q_ON_ON k) then s.deepEnter k else s
        let deep := s.on (F.BPM_DEEP_Q_STATUS_DEEP k)
        let s := s.wrapAdd (occF k) n
        s.store a { data := a.data, md := a.md, inPort := a.inPort, host := a.host, ts := a.ts, tsB := a.tsB, t16 := a.t16, half := h, cells := [],
                    acct := acct, refs := 1, ce := ce, deep := deep, admitted := s.now * 16 + a.sub, timeA := s.domA.ticks, bad := false,
                    payOff := a.payOff } n [k]

/-- The half of a multicast packet (R39, R40): the die that serves more member ports, the ingress die on a tie. -/
def mcastHome (queues : List Nat) (die : Nat) : Nat :=
  let n := (queues.filter (fun k => queuePort k < 256)).length
  let m := queues.length - n
  if n > m then 0 else if m > n then 1 else die

/-- Admission of a multicast packet to its member queues (R190). `home` is the home half. -/
def State.admitMcast (s : State) (a : Arrival) (queues : List Nat) (home : Nat) : State :=
  let n := cellsOf a.data.length
  let h := s.chooseHalf home
  let s := (if h ≠ home then s.cntGlobal 0x43 home 1 else s).decide1 h
  if queues.isEmpty then s.admitDrop h 0x08 (a.info 0 0)
  else
    let ing := if a.inPort < 512 then some (a.inPort, a.md.pg % 8) else none
    match s.account ing none n h with
    | .error code => s.admitDrop h code (a.info (queueField (queues.headD 0)) (s.depth (queues.headD 0)))
    | .ok acct =>
      let test (k : Nat) : Option Nat :=
        if s.rd (occF k) + n > s.rd (qMaxF k) then some 0x43
        else if withinAlpha (s.rd (occF k) + n) (s.alphaCur k) (s.sharedFree h) then none
        else some 0x40
      let good := queues.filter (fun k => (test k).isNone)
      let s := queues.foldl (fun s k =>
        match test k with
        | some code => (if code = 0x40 then s.egrDropped k else s).admitDrop h code { a.info (queueField k) (s.depth k) with mcast := true }
        | none => s) s
      if good.isEmpty then s
      else if s.freeFor h a.die < n then s.admitDrop h 0x44 (a.info (queueField (good.headD 0)) 0)
      else
        let s := good.foldl (fun s k => s.wrapAdd (occF k) n) s
        s.store a { data := a.data, md := a.md, inPort := a.inPort, host := a.host, ts := a.ts, tsB := a.tsB, t16 := a.t16, half := h, cells := [],
                    acct := acct, refs := good.length, ce := false, deep := false, admitted := s.now * 16 + a.sub, timeA := s.domA.ticks,
                    bad := false, payOff := a.payOff } n good

/-- Cells that wait in CPU queue `r`. -/
def State.cpuCells (s : State) (r : Nat) : Nat := s.depth (9216 + r)

/-- A frame for RX ring `r` is dropped with CPU_FULL (R248, R419). -/
def State.cpuFull (s : State) (r : Nat) (i : DropInfo) : State :=
  let s := (s.drop 0x63 i).satAdd (F.HARB_RX_DROP_COUNT r) 1
  if s.intBit .tm 0 4 then s else s.raise .tm 0 4

/-- Admission of a frame for RX ring `r` (R41, R183, R248): the ingress accounts alone, in the north half. A disabled ring takes no frame
(R419). DESIGN CHOICE: log entry 40. -/
def State.admitCpu (s : State) (a : Arrival) (r : Nat) : State :=
  let n := cellsOf a.data.length
  let h := 0
  if !s.on (F.HARB_RX_CFG_EN r) || s.cpuCells r + n > s.rd (F.TM_CPU_Q_CFG_MAX r) then s.cpuFull r (a.info 0 0)
  else
    let s := s.decide1 h
    match s.account (if a.inPort < 512 then some (a.inPort, a.md.pg % 8) else none) none n h with
    | .error code => s.admitDrop h code (a.info 0 0)
    | .ok acct =>
      if s.freeFor h a.die < n then s.admitDrop h 0x44 (a.info 0 0)
      else
        s.store a { data := a.data, md := a.md, inPort := a.inPort, host := a.host, ts := a.ts, tsB := a.tsB, t16 := a.t16, half := h, cells := [],
                    acct := acct, refs := 1, ce := false, deep := false, admitted := s.now * 16 + a.sub, timeA := s.domA.ticks, bad := false,
                    payOff := a.payOff } n [9216 + r]

/-! ### Traps -/

/-- Level of the limiter of reason `r` of island `i` (R135); full at reset. DESIGN CHOICE: log entry 125. -/
def State.trapLevel (s : State) (i r : Nat) : Nat := mget s.mat.trapLevel (64 * i + r) (64 * 1000000)

/-- A trapped packet of island `i` with reason `r` passes its limiter to its RX ring, or is dropped (R134 to R136). `whole`
tells a redirect, whose drop is the packet's own. -/
def State.trapPass (s : State) (i x r : Nat) (ring : Option Nat) (a : Arrival) : State :=
  let l := s.trapLevel i r
  if l ≥ 1000000 then
    let s := s.updMat (fun m => { m with trapLevel := mset m.trapLevel (64 * i + r) (l - 1000000) (64 * 1000000) })
    let s := (s.satAdd (F.TRAP_PASS_COUNT (64 * i + r)) 1).cntIsland i x 0x0B r 1
    s.admitCpu a (ring.getD (s.rd (F.TRAP_CFG_RING (64 * i + r))))
  else
    let s := (s.satAdd (F.TRAP_DROP_COUNT (64 * i + r)) 1).cntIsland i x 0x0C r 1
    let quiet := (mget s.mat.trapQuiet i none).all (fun t => s.now - t ≥ 1600000000)
    let s := s.updMat (fun m => { m with trapQuiet := mset m.trapQuiet i (some s.now) none })
    let s := if quiet then s.raise .prs i 3 else s
    s.pipeDrop i x 0x03 (a.info 0 0)

/-! ### Packets of a failed or disabled port -/

/-- A descriptor leaves queue `k` with a drop (R114, R155, R269). -/
def State.queueDrop (s : State) (k code : Nat) (e : QEnt) : State :=
  match mfind s.path.pkts e.pkt with
  | none => s
  | some x =>
    let n := if k < 8192 && x.deep then x.back.length else cellsOf x.data.length
    let s := s.subFrom (occF k) n
    (s.drop code (x.info k e.depth (s.now * 16 - x.admitted))).release e.pkt

/-- A unicast descriptor with a group is chosen again in the island that first chose it, and joins the tail of the same
queue index on the new port, or is dropped (R155). -/
def State.reroute (s : State) (k code : Nat) (e : QEnt) : State :=
  match mfind s.path.pkts e.pkt with
  | none => s
  | some x =>
    if k ≥ 8192 || x.md.group = 0xFFF || x.inPort ≥ 512 then s.queueDrop k code e
    else
      match s.groupPick (x.inPort / 32) x.md.group x.md.groupHash with
      | .error c => s.queueDrop k c e
      | .ok (p, _) =>
        let k' := 16 * p + k % 16
        let n := if x.deep then x.back.length else cellsOf x.data.length
        let s := (s.subFrom (occF k) n).wrapAdd (occF k') n
        let s := s.setPkt e.pkt (some { x with md := { x.md with egressPort := p } })
        s.enqueue k' e.pkt e.depth

/-- Every packet queued to port `p`, and every frame dequeued for it whose first bit has not left, is rerouted or dropped
with `code` (R114, R155, R201). The frame at the head of the transmit queue is on the wire, and ends as the failure leaves
it. Descriptors that wait for cells are treated as they land. -/
def State.failQueued (s : State) (p code : Nat) : State :=
  let re := s.on (F.TM_PORT_CFG_REROUTE_QUEUED p) && code = dropLinkDown
  let s := (portQueues p).foldl (fun s k =>
    let l := s.queue k
    let s := (s.updPath (fun x => { x with queues := mset x.queues k [] [] })).queueStatus k
    let s := l.foldl (fun s e => if re then s.reroute k code e else s.queueDrop k code e) s
    if k < 8192 then s.closePage k else s) s
  let pre := (List.range 10).flatMap (fun x => mget s.path.eg (10 * (p / 32) + x) [])
  let txs := mget s.path.tx p []
  let s := s.updPath (fun y =>
    { y with tx := mset y.tx p [] [],
             eg := (List.range 10).foldl (fun m x =>
               mset m (10 * (p / 32) + x) ((mget m (10 * (p / 32) + x) []).filter (fun t => t.port ≠ p)) []) y.eg })
  let lose (s : State) (t : TxFrame) : State :=
    s.drop code { inPort := t.inPort, host := false, data := t.data, md := t.md, ts := t.ts, depth := t.depth,
                  queue := queueField t.queue, outPort := some p, res := t.resTime, deep := t.deep, ce := t.ce,
                  mcast := t.queue ≥ 8192 }
  let s := (txs.drop 1).foldl lose s
  (pre.filter (fun t => t.port = p)).foldl (fun s t => (lose s t).release t.pkt) s

end Sys2Proof.Machine
end

