-- ==== Sys2Proof/Machine/LinkOps.lean ====
section
/-! DEFINITION. Removal of a port from its groups, and link failure (R112 to R115, R154). -/

namespace Sys2Proof.Machine

/-- The port's liveness bit clears in all 16 islands (R154). -/
def State.livenessClear (s : State) (p : Nat) : State :=
  (List.range 16).foldl (fun s i =>
    let f := F.PIPE_PORT_LIVE_LIVE (16 * i + p / 32)
    if bit (s.rd f) (p % 32) then (s.wr f (setBit (s.rd f) (p % 32) false)).raise .pipe i 4 else s) s

/-- Every pause that received PFC frames hold on port `p` is cleared (R115). -/
def State.clearPauses (s : State) (p : Nat) : State :=
  (List.range 8).foldl (fun s g => s.pauseRelease p g) s

end Sys2Proof.Machine
end

