-- ==== Sys2Proof/Machine/LaneOps.lean ====
section
/-! DEFINITION. Lane training, adaptation and reserve-lane swaps (R51 to R55, R58 to R63, R68 to R74). -/

namespace Sys2Proof.Machine

/-! ### Transmit taps and training -/

/-- The presets of R52: pre3, pre2, pre1, main, post1, post2. -/
def preset (n : Nat) : List Int :=
  ([[0, 0, 0, 64, 0, 0], [0, 0, -8, 52, -4, 0], [0, 2, -10, 48, -4, 0], [-1, 3, -12, 44, -3, -1]] : List (List Int)).getD
    (n - 1) [0, 0, 0, 64, 0, 0]

/-- The six transmit coefficients of lane `l`. -/
def State.taps (s : State) (l : Nat) : List Int :=
  (List.range 6).map (fun t => sext 8 (s.rd (F.LANE_TX_TAP_VALUE (6 * l + t))))

/-- The limits of R51: magnitudes add up to at most 64, and the main coefficient is at least 32. -/
def tapsLegal (c : List Int) : Bool := (c.map Int.natAbs).sum ≤ 64 && c.getD 3 0 ≥ 32

/-- A transmit coefficient is held at a bound or pin (R53, R54). -/
def State.tapHeld (s : State) (l t : Nat) : State :=
  ((s.wrB (F.LANE_TX_TAP_AT_BOUND (6 * l + t)) true).wrB (F.LANE_STATUS_TX_PINNED l) true).satAdd
    (F.LANE_PINNED_CNT_TX l) 1

/-- TX_PINNED and RX_PINNED brought up to date from the AT_BOUND bits (R53). -/
def State.pinStatus (s : State) (l : Nat) : State :=
  (s.wrB (F.LANE_STATUS_TX_PINNED l) ((List.range 6).any (fun t => s.on (F.LANE_TX_TAP_AT_BOUND (6 * l + t))))).wrB
    (F.LANE_STATUS_RX_PINNED l)
    (s.on (F.LANE_RX_CTLE_AT_BOUND l) || (List.range 24).any (fun t => s.on (F.LANE_RX_FFE_AT_BOUND (24 * l + t))))

/-- A value held between two bounds. -/
def clampInt (lo hi v : Int) : Int := max lo (min v hi)

/-- Lower bound of tap `t`. -/
def State.tapMin (s : State) (l t : Nat) : Int := sext 8 (s.rd (F.LANE_TX_TAP_MIN (6 * l + t)))
/-- Upper bound of tap `t`. -/
def State.tapMax (s : State) (l t : Nat) : Int := sext 8 (s.rd (F.LANE_TX_TAP_MAX (6 * l + t)))

/-- Set tap `t` to `v`, refused where it would break R51. DEDUCED: log entry 100. -/
def State.setTap (s : State) (l t : Nat) (v : Int) : State :=
  if tapsLegal ((s.taps l).set t v) then s.wr (F.LANE_TX_TAP_VALUE (6 * l + t)) (trunc 8 v) else s

/-- What lane `l` makes of coefficients `c`: a pinned tap keeps its value, and any other is held within its bounds (R53, R54). -/
def State.boundTaps (s : State) (l : Nat) (c : List Int) : List Int :=
  (List.range 6).map (fun t =>
    if s.on (F.LANE_TX_TAP_PIN (6 * l + t)) then (s.taps l).getD t 0 else clampInt (s.tapMin l t) (s.tapMax l t) (c.getD t 0))

/-- Load six coefficients within the bounds and pins (R52, R53); a set that breaks R51 is refused whole. -/
def State.loadTaps (s : State) (l : Nat) (c : List Int) : State :=
  let want := s.boundTaps l c
  if tapsLegal want then
    (List.range 6).foldl (fun s t => s.wr (F.LANE_TX_TAP_VALUE (6 * l + t)) (trunc 8 (want.getD t 0))) s
  else s

/-- A partner's request for six coefficients (R52 to R54): taps held at a bound or pin are counted, and the answer is 1 updated, or 2 at
limit when one was held or R51 refused the set. -/
def State.requestTaps (s : State) (l : Nat) (c : List Int) : Nat × State :=
  let want := s.boundTaps l c
  let held := (List.range 6).filter (fun t => want.getD t 0 ≠ c.getD t 0)
  let free := (List.range 6).filter (fun t => want.getD t 0 = c.getD t 0)
  let s := s.loadTaps l c
  let s := free.foldl (fun s t => s.wrB (F.LANE_TX_TAP_AT_BOUND (6 * l + t)) false) s
  let s := (held.foldl (fun s t => s.tapHeld l t) s).pinStatus l
  (if held.isEmpty && tapsLegal want then 1 else 2, s)

/-- A partner's request to move tap `t` by one unit (R52 to R54): 1 updated, or 2 at limit. -/
def State.requestStep (s : State) (l t : Nat) (up : Bool) : Nat × State :=
  let v := (s.taps l).getD t 0
  let w := if up then v + 1 else v - 1
  if s.on (F.LANE_TX_TAP_PIN (6 * l + t)) || w < s.tapMin l t || w > s.tapMax l t ||
      !tapsLegal ((s.taps l).set t w) then (2, s.tapHeld l t)
  else (1, ((s.setTap l t w).wrB (F.LANE_TX_TAP_AT_BOUND (6 * l + t)) false).pinStatus l)

/-- Corrected bits and uncorrectable codewords that DBG_PERTURB_LANE adds to a window of 8,192 codewords of lane `l`, with a code that
corrects `t` symbols (R458). DEDUCED: log entry 74. -/
def State.perturbLane (s : State) (l t : Nat) : Nat × Nat :=
  let y := s.rd F.DBG_PERTURB_LANE_SYMS
  if s.on F.DBG_CTL_ARM && s.rd F.DBG_PERTURB_LANE_LANE = l && y ≠ 0 then
    let n := 8192 / max 1 (s.rd F.DBG_PERTURB_LANE_EVERY)
    if y ≤ t then (n * y, 0) else (0, n)
  else (0, 0)

/-- The port that lane `l` carries (LANE_STATUS.PORT), if any. -/
def State.carried (s : State) (l : Nat) : Option Nat :=
  if s.rd (F.LANE_STATUS_PORT l) < 512 then some (s.rd (F.LANE_STATUS_PORT l)) else none

/-- Lane `l` enters TRAINING at the first phase; a Strait transmitter starts at preset 1 (R58, R61), and data of its port stops. -/
def State.laneTrain (s : State) (l : Nat) : State :=
  let s := (s.laneEnter l 2).updLane l (fun x => { x with trainAt := s.now })
  let s := match s.carried l with
    | some p => s.updPort p (fun y => { y with pcs := { y.pcs with began := none } })
    | none => s
  if s.rd (F.LANE_CTL_MODE l) = 1 then s.loadTaps l (preset 1) else s

/-- Data starts on all lanes of Strait port `p` at one codeword boundary, with deal position 0 (R87, R90); the scramblers run on. -/
def State.dataStart (s : State) (p : Nat) : State :=
  s.updPort p (fun y => { y with pcs := { y.pcs with began := some s.now, txCount := 0, txLanes := [], rxCount := 0, rxLanes := [],
                                                     rxBlocks := [], rxFrame := none } })

/-- Phase 3 has ended on lane `l`: data starts once it has ended on all lanes of the port (R61, R90). -/
def State.dataCheck (s : State) (l : Nat) : State :=
  match s.carried l with
  | some p =>
    if s.strait p && (s.px p).pcs.began.isNone && (s.mainLanes p).all (fun k => s.rd (F.LANE_TRAIN_PHASE k) = 3) then s.dataStart p
    else s
  | none => s

/-- Lane `l` still sends training frames: until its phase 3 has ended, and on the lanes of a port until data starts (R61, R90). -/
def State.sendsTraining (s : State) (l : Nat) : Bool :=
  s.rd (F.LANE_TRAIN_PHASE l) < 3 || (s.carried l).any (fun p => (s.px p).pcs.began.isNone)

/-- The partner's request acted on once, and the RESP that answers it (R52 to R54, R60): 1 updated, 2 at limit, 3 not supported, which a
reserved TAP, REQ or PRESET code gets. DESIGN CHOICE: log entry 149. -/
def State.answerRequest (s : State) (l control : Nat) : Nat × State :=
  let tap := bits control 0 3
  let req := bits control 3 2
  let pre := bits control 5 3
  if pre ≠ 0 then (if pre > 4 then (3, s) else s.requestTaps l (preset pre))
  else if req = 0 then (0, s)
  else if tap > 5 || req = 3 then (3, s)
  else s.requestStep l tap (req = 1)

/-- A Strait training frame that passed its check on a lane in TRAINING (R60, R61): the request is answered, this end's own
request ends with the answer that echoes its tap, and the phase advances. -/
def State.trainFrame (s : State) (l control status : Nat) : State :=
  let x := mget s.laneX l {}
  let r := if control = x.seen then (bits x.sts 3 2, s) else s.answerRequest l control
  let s := r.2
  let resp := bits status 3 2
  let answered : Bool := resp ≠ 0 && (bits x.ctl 5 3 ≠ 0 || bits status 0 3 = bits x.ctl 0 3)
  let good := x.good + 1
  let rdy := if bit status 5 then x.rdySeen + 1 else 0
  let ph := s.rd (F.LANE_TRAIN_PHASE l)
  let tap := if bits control 3 2 ≠ 0 then bits control 0 3 else x.lastTap
  let sts := tap + r.1 * 8 + (if x.rxReady then 32 else 0)
  let s := s.updLane l (fun x => { x with good := good, seen := control, ctl := if answered then 0 else x.ctl, sts := sts, lastTap := tap,
                                          calm := resp = 0 || (x.calm && !answered), rdySeen := if ph = 2 then rdy else 0 })
  let s :=
    if ph = 0 && good ≥ 4 then
      (s.wr (F.LANE_TRAIN_PHASE l) 1).updLane l (fun x => { x with ctl := 3 * 32 })
    else if ph = 2 && rdy ≥ 8 then (s.wr (F.LANE_TRAIN_PHASE l) 3).dataCheck l
    else s
  let x := mget s.laneX l {}
  if s.sendsTraining l then s.emit (.training l (trainingSymbols x.ctl x.sts (Config.patternSeed l))) else s

/-- What a training frame of a CR or KR lane asks for, within bounds and pins, and the answer (R47, R52, R53, R81). Only a PAM4 lane
codes ahead. -/
def State.trainEthernet (s : State) (l : Nat) (q : TrainReq) : State :=
  let m := s.rd (F.LANE_CTL_MODE l)
  let r : Nat × State := match q with
    | .hold => (0, s)
    | .step t up => s.requestStep l t up
    | .initial c => s.requestTaps l c
    | .precode b => if 2 ≤ m && m ≤ 4 then (1, s.updLane l (fun x => { x with precode := b })) else (3, s)
  r.2.emit (.trainAnswer l r.1)

/-! ### Adaptation -/

/-- One update of a receive element with value `v`: a pinned element stays, any other moves by `d` and stops at a bound.
The answer is the new value, and whether it was held, moved freely or left alone. -/
def adaptElem (v lo hi d : Int) (pin : Bool) : Int × Option Bool :=
  if pin then (v, none)
  else
    let w := clampInt lo hi (v + d)
    if w ≠ v + d && d ≠ 0 then (w, some true) else (w, if d = 0 then none else some false)

/-- Record an update of a receive element: the value in its field, AT_BOUND, and the count of R53. -/
def State.adaptWr (s : State) (l : Nat) (val ab : Fld) (r : Int × Option Bool) : State :=
  let s := s.wr val (trunc val.width r.1)
  match r.2 with
  | none => s
  | some false => s.wrB ab false
  | some true => (s.wrB ab true).satAdd (F.LANE_PINNED_CNT_RX l) 1

/-- One adaptation update of lane `l` (R53 to R55): the CTLE moves by `ctle` and FFE tap t by entry t of `ffe`, each within
its bounds and pins, unless ADAPT_FREEZE holds them; a transmit tap outside new bounds moves to the nearer bound. -/
def State.adapt (s : State) (l : Nat) (ctle : Int) (ffe : List Int) : State :=
  let s :=
    if s.on (F.LANE_CTL_ADAPT_FREEZE l) then s
    else
      let s := s.adaptWr l (F.LANE_RX_CTLE_PEAK l) (F.LANE_RX_CTLE_AT_BOUND l)
        (adaptElem (s.rd (F.LANE_RX_CTLE_PEAK l)) (s.rd (F.LANE_RX_CTLE_MIN l)) (s.rd (F.LANE_RX_CTLE_MAX l)) ctle
          (s.on (F.LANE_RX_CTLE_PIN l)))
      (List.range 24).foldl (fun s t =>
        let k := 24 * l + t
        s.adaptWr l (F.LANE_RX_FFE_VALUE k) (F.LANE_RX_FFE_AT_BOUND k)
          (adaptElem (sext 10 (s.rd (F.LANE_RX_FFE_VALUE k))) (sext 10 (s.rd (F.LANE_RX_FFE_MIN k)))
            (sext 10 (s.rd (F.LANE_RX_FFE_MAX k))) (ffe.getD t 0) (s.on (F.LANE_RX_FFE_PIN k)))) s
  let s := (List.range 6).foldl (fun s t =>
    let v := (s.taps l).getD t 0
    let w := clampInt (s.tapMin l t) (s.tapMax l t) v
    if s.on (F.LANE_TX_TAP_PIN (6 * l + t)) || w = v then s else s.setTap l t w) s
  s.pinStatus l

/-! ### Swaps -/

/-- Record in the spare map what became of resource `id` of kind `k` (R452), kind 8 being a retired Causeway bundle (R389): 1 out of
service, 2 + n replaced by resource n (R13); 0 removes the record. DESIGN CHOICE: log entry 164. -/
def State.mapRecord (s : State) (k id v : Nat) : State := { s with spareMap := mset s.spareMap (key2 k id) v 0 }

/-- The swap in progress on port `p`. -/
def State.swapOf (s : State) (p : Nat) : Option Swap := mget s.swaps p none

/-- Replace the swap of port `p`, and keep LANE_SWAP_STATUS.BUSY of its island in line. -/
def State.setSwap (s : State) (p : Nat) (x : Option Swap) : State :=
  let s := { s with swaps := mset s.swaps p x none }
  s.wrB (F.LANE_SWAP_STATUS_BUSY (p / 32)) ((List.range 32).any (fun k => (s.swapOf (32 * (p / 32) + k)).isSome))

/-- Both lanes of a swap show MIRROR while it mirrors. DEDUCED: log entry 15. -/
def State.setMirror (s : State) (x : Swap) (b : Bool) : State :=
  (s.wrB (F.LANE_STATUS_MIRROR x.oldLane) b).wrB (F.LANE_STATUS_MIRROR x.spare) b

/-- A lane-management message leaves lane `l`; one that awaits an answer is kept for repeats (R68, R69). DESIGN CHOICE: log entry 17. -/
def State.lmosSend (s : State) (l code logical arg tag : Nat) (await : Bool) : State :=
  let s := s.emit (.lmos l (lmosBlock code logical arg tag))
  if await then
    { s with lmosWait := mset s.lmosWait l (some { code := code, logical := logical, arg := arg, tag := tag, sent := s.now }) none }
  else s

/-- The lane-management message in a received block (R68). -/
def lmosOf (b : BitVec 66) : Option Lmos :=
  (lmosRead (lsbBits 66 b.toNat)).map (fun m => { code := m.1, logical := m.2.1, arg := m.2.2.1, tag := m.2.2.2 })

/-- The message of code `c` in a received block; none for any other block. -/
def lmosIs (c : Nat) (b : BitVec 66) : Option Lmos := (lmosOf b).filter (fun m => m.code = c)

/-- Port `p` answers request `req` with TAG `tag` on lane `l`, and keeps the answer for repeats (R69). -/
def State.lmosAnswer (s : State) (p l req tag code logical arg : Nat) : State :=
  let m : Lmos := { code := code, logical := logical, arg := arg, tag := tag, sent := s.now }
  (s.lmosSend l code logical arg tag false).updPort p (fun x => { x with answered := some { code := req, tag := tag, lane := l, answer := m } })

/-- A request that repeats the one answered last, while its sender may still repeat it: the swap timeout long (R69). DEDUCED: log entry 172.
-/
def State.lmosRepeated (s : State) (p req tag : Nat) : Option LmosAns :=
  (s.px p).answered.filter (fun a =>
    a.code = req && a.tag = tag && s.now - a.answer.sent ≤ max 1 (s.rd (F.LANE_SWAP_CFG_TIMEOUT (p / 32))) * 1600)

/-- The answer to a repeated request goes out again (R69). -/
def State.lmosAgain (s : State) (a : LmosAns) : State := s.lmosSend a.lane a.answer.code a.answer.logical a.answer.arg a.answer.tag false

/-- The answer to the message of lane `l` has arrived. -/
def State.lmosAnswered (s : State) (l : Nat) : State := { s with lmosWait := mset s.lmosWait l none none }

/-- A swap of logical lane `k` of port `p` may start: the port is UP, the lane LOCKED, the hot spare in RESERVE, the
partner announced lane management, and no swap runs on the trunk (R58, R70, R74). -/
def State.swapReady (s : State) (p k : Nat) : Bool :=
  s.strait p && s.portState p = 3 && k < s.portWidth p && s.laneState (s.laneOf p k) = 3 &&
    s.spareOf p < 544 && s.laneState (s.spareOf p) = 4 && s.partnerLm p && (s.swapOf p).isNone

/-- The requesting end of a swap (R70 step 1): SWAP_REQ on the hot spare, and mirroring. The TAG is the requester's choice. -/
def State.swapStart (s : State) (p k : Nat) (byCmd : Bool) : State :=
  let (v, s) := s.fresh
  let x : Swap := { logical := k, oldLane := s.laneOf p k, spare := s.spareOf p, tag := v % 256, byCmd := byCmd,
                    requester := true, acked := false, switched := false, doneRx := false, start := s.now }
  let s := (s.setSwap p (some x)).updPort p (fun y => { y with swapped := none })
  let s := if byCmd then s else s.mapRecord 0 x.oldLane (2 + x.spare)
  let s := (s.wr (F.LANE_SWAP_STATUS_OLD_LANE (p / 32)) (x.oldLane % 34)).wr (F.LANE_SWAP_STATUS_NEW_LANE (p / 32))
    (x.spare % 34)
  (s.setMirror x true).lmosSend x.spare 0x01 k (x.spare % 34) x.tag true

/-- The answering end of a swap (R70 step 2): SWAP_ACK on its hot spare, and mirroring. The old lane ends as at the other end (step 6);
`byCmd` tells how the partner started the swap. DESIGN CHOICE: log entry 152. -/
def State.swapAnswer (s : State) (p k tag : Nat) (byCmd : Bool) : State :=
  let x : Swap := { logical := k, oldLane := s.laneOf p k, spare := s.spareOf p, tag := tag, byCmd := byCmd,
                    requester := false, acked := true, switched := false, doneRx := false, start := s.now }
  let s := (s.setSwap p (some x)).updPort p (fun y => { y with swapped := none })
  let s := if byCmd then s else s.mapRecord 0 x.oldLane (2 + x.spare)
  let s := (s.wr (F.LANE_SWAP_STATUS_OLD_LANE (p / 32)) (x.oldLane % 34)).wr (F.LANE_SWAP_STATUS_NEW_LANE (p / 32))
    (x.spare % 34)
  (s.setMirror x true).lmosAnswer p x.spare 0x01 tag 0x02 k 0

/-- A swap ends without its lane replaced: mirroring stops, the hot spare stays in RESERVE, LAST holds the result, and a command that waits
for it completes (R72, R74, R429). A request that waited for it is raised again by its next failing window. DESIGN CHOICE: log entry 16. -/
def State.swapEnd (s : State) (p last status : Nat) (x : Swap) : State :=
  let s := ((s.setMirror x false).setSwap p none).lmosAnswered x.spare
  let s := s.updPort p (fun y => { y with second := none, rxOld := if x.switched then some (x.logical, x.spare, s.now) else y.rxOld })
  let s := (s.mapRecord 0 x.oldLane 0).wr (F.LANE_SWAP_STATUS_LAST (p / 32)) last
  s.finishHold holdLane p status (s.laneState x.oldLane) last

/-- A swap in progress on port `p` is aborted; the end that notices sends SWAP_ABORT (R72). DEDUCED: log entry 15. -/
def State.swapAbort (s : State) (p last : Nat) (send : Bool) : State :=
  match s.swapOf p with
  | none => s
  | some x =>
    let s := if send then s.lmosSend x.spare 0x05 x.logical 0 x.tag false else s
    (s.swapEnd p last (if last = 3 then stConflict else stTimeout) x).raise .lane (p / 32) 3

/-- A spare of kind `k` is consumed: RAS_SPARE_SUMMARY and the DEGRADED event with code 0x85 (R440, R452). -/
def State.spareConsumed (s : State) (k : Nat) (b : Blk) (i unit detail : Nat) : State :=
  let s := (s.subFrom (F.RAS_SPARE_SUMMARY_FREE k) 1).satAdd (F.RAS_SPARE_SUMMARY_HI_FAILED k) 1
  s.event degraded (codeOf b i 0x85) unit detail

/-- OBJECT of R450, with KIND in its top four bits. -/
def objectWord (kind o : Nat) : Nat := kind * 2 ^ 28 + o

/-- The request that waited for the swap of port `p` (R74): without a hot spare it ends in a DEGRADED event with code 0x86. -/
def State.secondRequest (s : State) (p : Nat) : State :=
  match (s.px p).second with
  | none => s
  | some k =>
    let s := s.updPort p (fun y => { y with second := none })
    if s.spareOf p ≥ 544 then
      s.event degraded (codeOf .lane (p / 32) 0x86) (s.laneOf p k) (objectWord 0 (p + 2 ^ 10 * k))
    else if s.swapReady p k then s.swapStart p k false
    else s

/-- The swap that this end has finished is aborted by its partner, which has not (R72): the old lane takes its logical lane back, and the
hot spare returns to RESERVE. DEDUCED: log entry 172. -/
def State.swapUndo (s : State) (p : Nat) (x : Swap) : State :=
  let s := s.updPort p (fun y => { y with swapped := none, rxOld := some (x.logical, x.spare, s.now) })
  let s := (s.laneEnter x.oldLane 3).laneEnter x.spare 4
  let s := { s with laneMap := mset (mset s.laneMap (key2 p x.logical) (some x.oldLane) none) (key2 p 8) (some x.spare) none }
  let s := (s.wr (F.LANE_STATUS_PORT x.oldLane) p).wr (F.LANE_STATUS_LOGICAL x.oldLane) x.logical
  let s := (s.wr (F.LANE_STATUS_PORT x.spare) noPort).wr (F.LANE_STATUS_LOGICAL x.spare) 0
  let s := if x.byCmd then s
    else ((s.mapRecord 0 x.oldLane 0).satAdd (F.RAS_SPARE_SUMMARY_FREE 0) 1).subFrom (F.RAS_SPARE_SUMMARY_HI_FAILED 0) 1
  ((s.wr (F.LANE_SWAP_STATUS_LAST (p / 32)) 3).raise .lane (p / 32) 3).spareReady p

/-- Step 6 of a swap (R70): the old lane enters FAILED, or RESERVE after a swap by command, and the hot spare LOCKED in its place. A request
that waited for the swap goes on. DESIGN CHOICE: log entry 16. -/
def State.swapFinish (s : State) (p : Nat) (x : Swap) : State :=
  let i := p / 32
  let s := (s.setMirror x false).setSwap p none
  let s := s.laneEnter x.oldLane (if x.byCmd then 4 else 5)
  let s := s.laneEnter x.spare 3
  let s := { s with laneMap := mset (mset s.laneMap (key2 p x.logical) (some x.spare) none) (key2 p 8)
                                 (some (if x.byCmd then x.oldLane else 544)) none }
  let s := (s.wr (F.LANE_STATUS_PORT x.spare) p).wr (F.LANE_STATUS_LOGICAL x.spare) x.logical
  let s := if x.byCmd then s else (s.wr (F.LANE_STATUS_PORT x.oldLane) noPort).wr (F.LANE_STATUS_LOGICAL x.oldLane) 0
  let s := (s.wr (F.LANE_SWAP_STATUS_LAST i) 1).satAdd (F.LANE_SWAP_STATUS_COUNT i) 1
  let s := (s.satAdd F.RAS_SPARE_STATUS_SWAPS 1).raise .lane i 2
  let s := if x.byCmd then s else s.spareConsumed 0 .lane i x.oldLane p
  let s := (s.spareReady p).finishHold holdLane p stOk (s.laneState x.oldLane) 1
  (s.updPort p (fun y => { y with swapped := some x })).secondRequest p

/-- Step 6 follows when this end has switched and SWAP_DONE has arrived. -/
def State.swapCheck (s : State) (p : Nat) : State :=
  match s.swapOf p with
  | some x => if x.switched && x.doneRx then s.swapFinish p x else s
  | none => s

end Sys2Proof.Machine
end

