-- ==== Sys2Proof/Machine/KeepOps.lean ====
section
/-! DEFINITION. The keep shadow and its saves (R386 to R389, R404, R443). -/

namespace Sys2Proof.Machine

/-- The registers of the file whose names are in `l`, as they stand. -/
def State.regsOf (s : State) (l : List RegName) : PMap Nat :=
  s.regs.filter (fun e => l.any (fun r => r.ctorIdx = (Nat.unpair e.1).1))

/-- The register file with the registers whose names are in `l` as `m` holds them, and reset where it holds none. -/
def State.setRegsOf (s : State) (l : List RegName) (m : PMap Nat) : State :=
  let rest := s.regs.filter (fun e => !l.any (fun r => r.ctorIdx = (Nat.unpair e.1).1))
  { s with regs := (m.filter (fun e => l.any (fun r => r.ctorIdx = (Nat.unpair e.1).1))).foldl (fun a e => minsert a e.1 e.2) rest }

/-- Registers that section 2 holds beside the spare map: channel maps and retirement lists (R386). -/
def spareRegs : List RegName := [.MC_CHMAP, .MC_RETIRE_LIST, .MC_RETIRE_STATUS]

/-- Registers that hold the states of Lagoon banks, the roles of engines and the wires that reserve wires replace (R389). -/
def roleRegs : List RegName := [.LAG_BANK_STATUS, .ATL_ENG_STATUS, .CWAY_BUNDLE_STATUS]

/-- Their fields that come back at boot. -/
def roleFlds : List Fld :=
  (List.range 68).map F.LAG_BANK_STATUS_STATE ++ (List.range 36).map F.ATL_ENG_STATUS_STATE ++ (List.range 36).map F.ATL_ENG_STATUS_ROLE ++
    (List.range 128).map F.CWAY_BUNDLE_STATUS_SUB0 ++ (List.range 128).map F.CWAY_BUNDLE_STATUS_SUB1

/-- A RESERVE engine of die `d`. -/
def State.reserveEngine (s : State) (d : Nat) : Option Nat :=
  ([32 + 2 * d, 33 + 2 * d] ++ (List.range 16).map (fun e => 16 * d + e)).find? (fun e => s.rd (F.ATL_ENG_STATUS_STATE e) = 1)

/-- The die of an engine (R214). -/
def engineDie (e : Nat) : Nat := if e < 32 then e / 16 else (e - 32) / 2

/-- Reserve engines left on a die, as ATL_STATUS counts them. -/
def reserveF (d : Nat) : Fld := if d = 0 then F.ATL_STATUS_RESERVE_N else F.ATL_STATUS_RESERVE_S

/-- The engine `e` that drains as the spare map has it: its role with a reserve, itself out of service (R452). -/
def State.settleEngine (s : State) (e : Nat) : State :=
  if s.rd (F.ATL_ENG_STATUS_STATE e) ≠ 2 then s
  else
    match s.reserveEngine (engineDie e) with
    | none => s
    | some r =>
      let s := (s.wr (F.ATL_ENG_STATUS_STATE r) 0).wr (F.ATL_ENG_STATUS_ROLE r) (s.rd (F.ATL_ENG_STATUS_ROLE e))
      (s.wr (F.ATL_ENG_STATUS_STATE e) 3).wr (F.ATL_ENG_STATUS_ROLE e) 0x3F

/-- A wire whose replacement is under way as the spare map has it (R452). -/
def State.settleWire (s : State) (k : Nat) : State :=
  let y := s.bundle (k / 64) (k % 64)
  match y.swapWait.orElse (fun _ => y.swapWire) with
  | none => s
  | some w =>
    if s.rd (F.CWAY_BUNDLE_STATUS_SUB0 k) = 0x7F then s.wr (F.CWAY_BUNDLE_STATUS_SUB0 k) w else s.wr (F.CWAY_BUNDLE_STATUS_SUB1 k) w

/-- The state as the spare map records it: the replacements under way have ended, the old resource out of service and its spare in use
(R452). -/
def State.settled (s : State) : State :=
  let s := (List.range 68).foldl (fun s o =>
    if s.rd (F.LAG_BANK_STATUS_STATE o) = 2 then s.wr (F.LAG_BANK_STATUS_STATE o) 3 else s) s
  (List.range 128).foldl State.settleWire ((List.range 36).foldl State.settleEngine s)

/-- Device lane number of logical lane `k` in the partner entry of port `p`. -/
def State.partnerLane (s : State) (p k : Nat) : Nat :=
  s.rd (if k % 2 = 0 then F.PORT_PARTNER_LMAP_LO (4 * p + k / 2) else F.PORT_PARTNER_LMAP_HI (4 * p + k / 2))

/-- The partner entry of port `p` in the compact form of R107; 0xFFFF becomes 0x3FF. -/
def State.partnerBytes (s : State) (p : Nat) : Bytes :=
  let held : Nat := if s.rd (F.PORT_PARTNER_STATUS_SOURCE p) ≠ 0 then 1 else 0
  let v := held + s.rd (F.PORT_PARTNER_PORT_PORT p) * 2 ^ 1 + s.rd (F.PORT_PARTNER_PORT_LANES p) * 2 ^ 11 +
    s.rd (F.PORT_PARTNER_PORT_CAP p) * 2 ^ 15 +
    ((List.range 8).map (fun k => s.partnerLane p k % 1024 * 2 ^ (23 + 10 * k))).sum +
    s.rd (F.PORT_PARTNER_SPARE_LANE p) % 1024 * 2 ^ 103 + (if s.strait p then 0 else s.rd (F.PORT_PARTNER_AN_AN p) * 2 ^ 113)
  leBytes 4 (s.rd (F.PORT_PARTNER_ID_ID p)) ++ leBytes 8 (s.rd (F.PORT_PARTNER_SERIAL_SERIAL p)) ++ leBytes 20 v

/-- A lane number of ten bits, as the registers hold it: 0x3FF, for none, is 0xFFFF. -/
def wideLane (v : Nat) : Nat := if v = 0x3FF then 0xFFFF else v

/-- The partner entry of port `p` comes back from its compact form, with SOURCE 3 and VALID 0 (R106, R107). -/
def State.backPartner (s : State) (p : Nat) (b : Bytes) : State :=
  let v := leAt b 12 20
  if bits v 0 1 = 0 then s
  else
    let s := (s.wr (F.PORT_PARTNER_ID_ID p) (leAt b 0 4)).wr (F.PORT_PARTNER_SERIAL_SERIAL p) (leAt b 4 8)
    let s := (s.wr (F.PORT_PARTNER_PORT_PORT p) (bits v 1 10)).wr (F.PORT_PARTNER_PORT_LANES p) (bits v 11 4)
    let s := (s.wr (F.PORT_PARTNER_PORT_CAP p) (bits v 15 8)).wr (F.PORT_PARTNER_SPARE_LANE p) (wideLane (bits v 103 10))
    let s := (List.range 4).foldl (fun s n =>
      (s.wr (F.PORT_PARTNER_LMAP_LO (4 * p + n)) (wideLane (bits v (23 + 20 * n) 10))).wr (F.PORT_PARTNER_LMAP_HI (4 * p + n))
        (wideLane (bits v (33 + 20 * n) 10))) s
    let s := s.wr (F.PORT_PARTNER_AN_AN p) (bits v 113 32)
    (s.wr (F.PORT_PARTNER_STATUS_SOURCE p) 3).wrB (F.PORT_PARTNER_STATUS_VALID p) false

/-- Registers that section 3 holds: the ageing monitors. -/
def wearRegs : List RegName := [.PWR_AGE]

/-- The time of section 1: domain A seconds, nanoseconds, fraction and LIGHT_RATE_ADJ. -/
def State.keepTime (s : State) : Nat × Nat × Nat × Nat :=
  (s.domA.sec, s.domA.ns, s.domA.frac16, s.rd (F.LIGHT_RATE_ADJ_ADJ 0))

/-- Section 3 as it stands. -/
def State.wearSec (s : State) : KeepSec := { regs := s.regsOf wearRegs, ages := s.ras.ages }

/-- The compact form of an event that section 6 keeps (R443): CLASS, INJECTED, CODE, UNIT[11:0] and the low 32 bits of the time in
ms; the rest is lost. -/
def LogEntry.compact (e : LogEntry) : LogEntry :=
  let ms := (e.timeS * 1000 + e.timeNs / 1000000) % 2 ^ 32
  { e with seq := 0, restored := true, unit := e.unit % 2 ^ 12, count := 1, detail := 0, tick := 0, timeS := ms / 1000,
           timeNs := ms % 1000 * 1000000 }

/-- A section of the keep shadow (R386). Sections 1 and 3 stand as they were last refreshed. -/
def State.shadowSec (s : State) (k : Nat) : KeepSec :=
  match k with
  | 1 => { time := s.keep.time }
  | 2 => { regs := s.settled.regsOf (spareRegs ++ roleRegs), map := minsert s.spareMap (key2 9 0) (s.rd F.RAS_SPARE_STATUS_LIFE_VOID),
           repairs := s.ras.repairs }
  | 3 => s.keep.wear.getD {}
  | 4 => { partners := (List.range 512).map (fun p => (p, s.partnerBytes p)) }
  | 5 => { snap := s.snap }
  | 6 => { events := (s.log.take 4096).map LogEntry.compact }
  | _ => {}

/-- The keep shadow. -/
def State.shadow (s : State) : PMap KeepSec := (List.range 7).map (fun k => (k, s.shadowSec k))

/-- Update the Keep domain. -/
def State.updKeep (s : State) (f : KeepSt → KeepSt) : State := { s with keep := f s.keep }

/-- A save starts (R387, R404): not before RESTORE has completed. A trigger during a save changes nothing, but a thermal trip in the same
microsecond is the one that the header records. DEDUCED: log entry 47. -/
def State.keepStart (s : State) (trigger : Nat) : State :=
  if !s.ready then s
  else
    match s.keep.save with
    | some x =>
      if trigger = 2 && s.now - s.keep.saveAt < 1600 then s.updKeep (fun k => { k with save := some { x with trigger := 2 } }) else s
    | none =>
      s.updKeep (fun k => { k with save := some { seq := k.seq + 1, trigger := trigger, sec := s.domA.sec, ns := s.domA.ns,
                                                  secs := s.shadow }, saveAt := s.now })

/-- The save ends (R387): sections 0 to `n` − 1 are complete; those from `late` on began their writing after the shadow's last change.
KEEP_STATUS, KEEP_SEQ, KEEP_SAVES and the event of a completed save. DEDUCED: log entry 47. -/
def State.keepFinish (s : State) (n late : Nat) : State :=
  match s.keep.save with
  | none => s
  | some x =>
    let sec := fun (k : Nat) => if k < late then mget x.secs k {} else s.shadowSec k
    let slot := { x with secs := (List.range n).map (fun k => (k, sec k)) }
    let last := if n ≥ 7 then 1 else if n = 0 then 3 else 2
    let s := s.updKeep (fun k => { k with slots := minsert k.slots k.next (some slot), lastSlot := k.next, next := (k.next + 1) % 16,
                                          last := last, seq := x.seq, seqComplete := if n ≥ 7 then x.seq else k.seqComplete,
                                          save := none })
    let s := (s.wr F.KEEP_STATUS_LAST last).wr F.KEEP_STATUS_SLOT s.keep.lastSlot
    let s := s.wr F.KEEP_SEQ_SEQ s.keep.seqComplete
    if n ≥ 7 then (s.satAdd F.KEEP_SAVES_COMPLETE 1).raise .keep 0 0
    else if n = 0 then s else s.satAdd F.KEEP_SAVES_PARTIAL 1

/-- The newest slot in which section `k` is good. -/
def State.newestSec (s : State) (k : Nat) : Option KeepSec :=
  let good := s.keep.slots.filterMap (fun e => e.2.bind (fun x => (mfind x.secs k).map (fun c => (x.seq, c))))
  (good.foldl (fun (a : Option (Nat × KeepSec)) e => match a with
    | none => some e
    | some b => if b.1 < e.1 then some e else some b) none).map (fun e => e.2)

end Sys2Proof.Machine
end

