-- ==== Sys2Proof/Machine/Lanes.lean ====
section
/-! DEFINITION. The commands of the lanes and of the Strait PHY (R52 to R74), and link failure (R112 to R115). -/

namespace Sys2Proof.Machine

/-- A link failure of port `p` (R112, R114, R115): only a port in UP fails. It leaves every group, CAUSE records the first cause, its other
lanes retrain, a hot spare in RESERVE keeping its lock, its pauses clear, it sends no XON, an Ethernet port starts to send remote fault
(R81), and its queued packets are rerouted or dropped. The partner entry of an Ethernet port becomes invalid too. DESIGN CHOICE: log entry
153. -/
def State.linkFailure (s : State) (p cause : Nat) : State :=
  if s.portState p ≠ 3 then s
  else
    let s := s.swapAbort p 2 true
    let s := s.livenessClear p
    let s := (s.wr (F.PORT_STATUS_CAUSE p) cause).satAdd (F.PORT_STATUS_FAILS p) 1
    let s := (s.mainLanes p).foldl (fun s l => if s.laneState l = 3 then s.laneTrain l else s) s
    let s := ((s.portEnter p 2).raise .mac (p / 32) 1).updPort p
      (fun x => { x with degRun := 0, idleTag := none, waking := false, anDone := false, woke := false, swapped := none, failAt := s.now })
    let s := if s.strait p then s else (s.updPort p (fun x => { x with faults := x.faults + 1 })).emit (.remoteFault p)
    (((s.partnerInvalid p).clearPauses p).pfcUpdate p).failQueued p dropLinkDown

/-- The port that lane `l` carries or guards, if any. -/
def State.portOfLane (s : State) (l : Nat) : Option Nat :=
  if s.rd (F.LANE_STATUS_PORT l) < 512 then some (s.rd (F.LANE_STATUS_PORT l))
  else (List.range 32).findSome? (fun k =>
    let p := 32 * (l / 34) + k
    if s.portState p ≠ 0 && s.spareOf p = l then some p else none)

/-- Lane `l` loses lock (R58, R63, R74, R112): a swap of its trunk is aborted, a main lane of a port in UP starts a link
failure, and the lane retrains. Loss of lock is the cause that stands when FEC degrade held at the same moment (R115). -/
def State.lockLost (s : State) (l : Nat) : State :=
  let st := s.laneState l
  if st ≠ 3 && st ≠ 4 then s
  else
    match s.portOfLane l with
    | none => s.laneTrain l
    | some p =>
      let s := s.swapAbort p 2 true
      let s := s.laneTrain l
      let s := if st = 3 then s.linkFailure p 1 else s
      let s := if st = 3 && s.portState p = 2 && (s.px p).failAt = s.now && s.rd (F.PORT_STATUS_CAUSE p) = 2 then
          s.wr (F.PORT_STATUS_CAUSE p) 1
        else s
      s.spareReady p

/-- LANE_ENABLE (R58): ENABLE at 1 with MODE not 0 starts training of a lane in OFF; a FAILED lane stays FAILED. -/
def execLaneEnable (l : Fin 544) (s : State) : Result :=
  .next (
    let s := s.wrB (F.LANE_CTL_ENABLE l) true
    if s.laneState l = 0 && s.rd (F.LANE_CTL_MODE l) ≠ 0 then s.laneTrain l else s)

/-- LANE_DISABLE (R58): ENABLE at 0 turns any lane that is not FAILED OFF. A port in UP loses the lane as it would lose its lock. DEDUCED:
log entry 19. -/
def execLaneDisable (l : Fin 544) (s : State) : Result :=
  .next (
    let s := s.wrB (F.LANE_CTL_ENABLE l) false
    if s.laneState l = 5 then s
    else
      let s := s.lockLost l
      s.laneEnter l 0)

/-- The receiver of lane `l` sees a signal and holds its clock. -/
def State.signalSeen (s : State) (l : Nat) : State := (s.wrB (F.LANE_STATUS_SIGNAL_DET l) true).wrB (F.LANE_STATUS_CDR_LOCK l) true

/-- TRAINING_FRAME_RECEIVE (R52, R59 to R61, R81, R83): a Strait frame without its marker or whose check fails is ignored; a chip-to-module
port runs no training. DESIGN CHOICE: log entries 136, 149. -/
def execTrainingFrameReceive (l : Fin 544) (x : TrainIn) (s : State) : Result :=
  .next (
    if s.laneState l ≠ 2 then s
    else
      match x with
      | .strait head =>
        if s.rd (F.LANE_CTL_MODE l) ≠ 1 then s
        else
          match trainingRead (head.map Fin.val) with
          | none => s.updLane l (fun x => { x with good := 0, rdySeen := 0 })
          | some (control, status, check) =>
            if crc8 control status ≠ check then s.updLane l (fun x => { x with good := 0, rdySeen := 0 })
            else (s.signalSeen l).trainFrame l control status
      | .ethernet q =>
        if s.rd (F.LANE_CTL_MODE l) ≠ 1 && (s.carried l).any (fun p => s.rd (F.PORT_CFG_PMD p) ≤ 1) then (s.signalSeen l).trainEthernet l q
        else s)

/-- Port `p` runs Clause 73 negotiation: a CR or KR port with AN_EN (R81, R83). -/
def State.negotiates (s : State) (p : Nat) : Bool := !s.strait p && s.rd (F.PORT_CFG_PMD p) ≤ 1 && s.on (F.PORT_CFG_AN_EN p)

/-- The page that port `p` advertises (R82): its own technology and FEC, and the pause ability of MAC_PFC_CFG.LEGACY_RX. DESIGN CHOICE: log
entry 18. -/
def State.advertise (s : State) (p : Nat) : State :=
  if s.negotiates p then
    s.emit (.anPage p (s.rd (F.PORT_CFG_MODE p)) (s.rd (F.PORT_CFG_WIDTH p)) (s.rd (F.PORT_CFG_FEC p)) (s.rd (F.PORT_CFG_PMD p))
      (s.on (F.MAC_PFC_CFG_LEGACY_RX p)))
  else s

/-- Negotiation of the LINKING port that lane `l` carries is still open; the whole attempt is bounded (R84). -/
def State.anOpen (s : State) (l : Nat) : Bool :=
  (s.carried l).any (fun p => s.portState p = 2 && s.negotiates p && !(s.px p).anDone)

/-- TRAINING_TIMEOUT (R58, R84): training restarts from the first phase, and with it a negotiation that is still open. DEDUCED: log entry
123. -/
def execTrainingTimeout (l : Fin 544) (s : State) : Result :=
  .next (
    if (s.laneState l = 2 || (s.laneState l = 3 && s.anOpen l)) && s.now - (mget s.laneX l {}).trainAt ≥ max 1 (s.rd (F.LANE_TRAIN_TIMEOUT l)) * 1600000 then
      let s := (s.satAdd (F.LANE_TRAIN_RESTARTS l) 1).laneTrain l
      match s.carried l with
      | some p => if s.anOpen l && s.laneOf p 0 = l.val then s.advertise p else s
      | none => s
    else s)

/-- The partner's clock offset that the loop of lane `l` measures, in 0.01 ppm, where it can track it, up to ±200 ppm (R56). -/
def State.trackOffset (s : State) (l : Nat) (offset : BitVec 16) : State :=
  if offset.toInt.natAbs ≤ 20000 then s.wr (F.LANE_CDR_FREQ_OFFSET l) offset.toNat else s

/-- ADAPT_UPDATE (R53 to R56, R61): the loop wants the CTLE moved by `ctle` and the FFE taps by `ffe`, and measures the partner's clock
offset; in phase 2 of a Strait training it may have settled, or ask the partner for one tap step (increment when the flag is true), which
waits until the request before it has been answered. DESIGN CHOICE: log entry 149. -/
def execAdaptUpdate (l : Fin 544) (ctle : Int) (ffe : List Int) (settled : Bool) (req : Option (Fin 6 × Bool)) (offset : BitVec 16)
    (s : State) : Result :=
  .next (
    let s := if s.on (F.LANE_STATUS_CDR_LOCK l) && s.laneState l ≠ 0 then s.trackOffset l offset else s
    let st := s.laneState l
    let strait := s.rd (F.LANE_CTL_MODE l) = 1
    let ph2 := strait && st = 2 && s.rd (F.LANE_TRAIN_PHASE l) = 1
    if st = 3 || st = 4 || ph2 || (st = 2 && !strait) then
      let s := s.adapt l ctle ffe
      if !ph2 then s
      else if settled then
        (s.wr (F.LANE_TRAIN_PHASE l) 2).updLane l (fun x => { x with rxReady := true, rdySeen := 0 })
      else
        match req with
        | some (t, up) =>
          s.updLane l (fun x => if x.ctl = 0 && x.calm then { x with ctl := t.val + (if up then 8 else 16) } else x)
        | none => s
    else s)

/-- A sync header is valid: 0b01 or 0b10. -/
def headValid (h : BitVec 2) : Bool := h = 1#2 || h = 2#2

/-- The last 64 blocks carry valid sync headers (R63). -/
def headsLock (l : List (BitVec 2)) : Bool := 64 ≤ l.length && (l.drop (l.length - 64)).all headValid

/-- Some 64 blocks in a row hold 16 or more invalid sync headers (R63). -/
def headsLost (l : List (BitVec 2)) : Bool :=
  (List.range l.length).any (fun k => 16 ≤ (((l.drop k).take 64).filter (fun h => !headValid h)).length)

/-- Four codewords in a row are uncorrectable (R63). -/
def wordsLost (l : List LineErr) : Bool :=
  (List.range l.length).any (fun k => k + 4 ≤ l.length && ((l.drop k).take 4).all (fun e => (lineDecode e).isNone))

/-- The 66-bit boundary that lane `l` uses (R62, R64): host software sets it in LOCK_MODE 1, it follows from the codeword boundary where
there are codewords, and elsewhere the receiver's own search finds it at `pos`. -/
def State.boundary (s : State) (l pos : Nat) : Nat :=
  let m := s.rd (F.LANE_CTL_MODE l)
  let fecOff := (s.carried l).all (fun p => s.rd (F.PORT_CFG_FEC p) = 0)
  if s.on (F.LANE_CTL_LOCK_MODE l) then s.rd (F.LANE_LOCK_SLIP_POS l) else if (m = 5 || m = 6) && fecOff then pos else 0

/-- BLOCK_LOCK_ACQUIRE (R56, R58, R62, R63): lock, after 64 blocks with valid sync headers at the boundary, completes the training. A lane
that carries a port enters LOCKED, a hot spare RESERVE; a Strait lane has reached phase 4, and data has begun at a codeword boundary.
`heads` are the sync headers since the last such command, at boundary `pos` where the receiver searches, and `offset` is the partner's
clock offset. -/
def execBlockLockAcquire (l : Fin 544) (offset : BitVec 16) (pos : Fin 66) (heads : List (BitVec 2)) (s : State) : Result :=
  .next (
    let s := (s.signalSeen l).trackOffset l offset
    let s := s.satAdd (F.LANE_LOCK_HDR_ERR l) (heads.filter (fun h => !headValid h)).length
    if s.laneState l ≠ 2 || !headsLock heads || 20000 < offset.toInt.natAbs || s.sendsTraining l && s.rd (F.LANE_CTL_MODE l) = 1 then s
    else
      match s.portOfLane l with
      | none => s
      | some p =>
        let s := s.wr (F.LANE_LOCK_SLIP_POS l) (s.boundary l pos)
        ((s.laneEnter l (if s.spareOf p = l then 4 else 3)).wr (F.LANE_ERR_FAIL_RUN l) 0).spareReady p)

/-- LOSS_OF_LOCK (R58, R63, R112): lane `l` has received blocks with the sync headers `heads` and, on a Strait lane, the codewords
`words`; `signal` and `cdr` tell whether the receiver still sees a signal and holds its clock. The lane falls out of lock when the clock
is lost, when 16 of 64 blocks in a row carry an invalid header, or when 4 Strait codewords in a row are uncorrectable. -/
def execLossOfLock (l : Fin 544) (heads : List (BitVec 2)) (words : List LineErr) (signal cdr : Bool) (s : State) : Result :=
  .next (
    let s := (s.wrB (F.LANE_STATUS_SIGNAL_DET l) signal).wrB (F.LANE_STATUS_CDR_LOCK l) cdr
    let s := s.satAdd (F.LANE_LOCK_HDR_ERR l) (heads.filter (fun h => !headValid h)).length
    if !cdr || headsLost heads || (s.rd (F.LANE_CTL_MODE l) = 1 && wordsLost words) then s.lockLost l else s)

/-- LANE_BITSLIP (R64): SLIP acts in LOCK_MODE 1 with MODE 5 or 6 and FEC off; any other write is discarded and recorded. -/
def execLaneBitslip (q : Requester) (l : Fin 544) (s : State) : Result := if !s.grants q false then .next s else
  .next (
    let m := s.rd (F.LANE_CTL_MODE l)
    let fecOff := (s.portOfLane l).all (fun p => s.rd (F.PORT_CFG_FEC p) = 0)
    if s.on (F.LANE_CTL_LOCK_MODE l) && (m = 5 || m = 6) && fecOff then
      s.wr (F.LANE_LOCK_SLIP_POS l) ((s.rd (F.LANE_LOCK_SLIP_POS l) + 1) % 66)
    else s.locked q .LANE_BITSLIP l 1)

/-! ### Electrical idle -/

/-- A queue of port `p` holds a packet. -/
def State.portBacklog (s : State) (p : Nat) : Bool :=
  (List.range 16).any (fun q => s.on (F.TM_Q_STATUS_BACKLOG (16 * p + q))) ||
    (List.range 2).any (fun m => s.on (F.TM_MQ_STATUS_BACKLOG (2 * p + m)))

/-- All lanes of a Strait port enter IDLE together (R65, R109). -/
def State.enterIdle (s : State) (p : Nat) : State :=
  let s := (s.mainLanes p).foldl (fun s l =>
    if s.laneState l = 3 then (s.laneEnter l 1).updLane l (fun x => { x with idleAt := s.now }) else s) s
  ((((s.portEnter p 4).updPort p (fun x => { x with idleTag := none, waking := false })).lmosAnswered (s.laneOf p 0))).pfcUpdate p

/-- PORT_IDLE_ENTRY (R65, R366, R367, R372): while LINKS yields or SAVE holds, an idle-eligible Strait port without a frame
for 100 µs asks its partner for IDLE. The TAG is the requester's choice. -/
def execPortIdleEntry (p : Fin 512) (s : State) : Result :=
  .next (
    let eligible := bit (s.rd (F.PWR_IDLE_EN_PORTS (p / 32))) (p % 32) && s.strait p && s.portState p = 3 &&
      s.now - (s.px p).lastFrame ≥ 160000 && !s.portBacklog p && (s.swapOf p).isNone && (s.px p).idleTag.isNone
    if eligible && (s.rd (F.PWR_DOM_STATUS_STEPS 0) ≠ 0 || s.rd F.PWR_STATUS_STATE = 4) then
      let (v, s) := s.fresh
      (s.updPort p (fun x => { x with idleTag := some (v % 256) })).lmosSend (s.laneOf p 0) 0x10 0 0 (v % 256) true
    else s)

/-- IDLE_REQ_RECEIVE (R65, R68, R69): the request is answered with IDLE_ACK, or with IDLE_NAK 4 during a swap and 1 while frames wait; on
agreement the port's lanes enter IDLE. A repeat is answered as the first request was. DEDUCED: log entry 21. -/
def execIdleReqReceive (p : Fin 512) (block : BitVec 66) (s : State) : Result :=
  .next (
    match lmosIs 0x10 block with
    | none => s
    | some m =>
      let l := s.laneOf p 0
      if !s.strait p || (s.portState p ≠ 3 && s.portState p ≠ 4) then s
      else
        match s.lmosRepeated p 0x10 m.tag with
        | some a => s.lmosAgain a
        | none =>
          if s.portState p = 4 then s.lmosAnswer p l 0x10 m.tag 0x11 0 0
          else if (s.swapOf p).isSome then s.lmosAnswer p l 0x10 m.tag 0x12 0 4
          else if s.portBacklog p then s.lmosAnswer p l 0x10 m.tag 0x12 0 1
          else (s.lmosAnswer p l 0x10 m.tag 0x11 0 0).enterIdle p)

/-- IDLE_ACK_RECEIVE (R65, R68): the answer to this end's own request puts the lanes in IDLE. -/
def execIdleAckReceive (p : Fin 512) (block : BitVec 66) (s : State) : Result :=
  .next (
    match lmosIs 0x11 block with
    | none => s
    | some m => if s.portState p = 3 && (s.px p).idleTag = some m.tag then s.enterIdle p else s)

/-- IDLE_NAK_RECEIVE (R68): the request is refused. -/
def execIdleNakReceive (p : Fin 512) (block : BitVec 66) (s : State) : Result :=
  .next (
    match lmosIs 0x12 block with
    | none => s
    | some m =>
      if (s.px p).idleTag = some m.tag then
        (s.updPort p (fun x => { x with idleTag := none })).lmosAnswered (s.laneOf p 0)
      else s)

/-- WAKE_BURST_DETECT (R65): an end in IDLE that has not started its own burst starts it. -/
def execWakeBurstDetect (p : Fin 512) (s : State) : Result := .next (s.portWake p)

/-- WAKE_COMPLETE (R58, R65, R109): both bursts have ended. The held coefficients are valid within 100 ms of entry and
10 °C (`tempOk`): the lanes return to LOCKED, data starts at the end of the bursts (R90), and the port returns to UP; otherwise they train
and the port is LINKING. -/
def execWakeComplete (p : Fin 512) (tempOk : Bool) (s : State) : Result :=
  .next (
    if s.portState p ≠ 4 || !(s.px p).waking then s
    else
      let lanes := (s.mainLanes p).filter (fun l => s.laneState l = 1)
      let valid := tempOk && lanes.all (fun l => s.now - (mget s.laneX l {}).idleAt ≤ 160000000)
      let s := s.updPort p (fun x => { x with waking := false, lastFrame := s.now })
      if valid then
        let s := ((lanes.foldl (fun s l => s.laneEnter l 3) s).portEnter p 3).updPort p (fun x => { x with helloSent := none })
        (s.dataStart p).pfcUpdate p
      else
        (((lanes.foldl (fun s l => s.laneTrain l) s).portEnter p 2).updPort p (fun x => { x with woke := true })).partnerInvalid p)

/-! ### Swaps -/

/-- SWAP_REQ_RECEIVE (R68 to R70, R74): a repeat is answered as the first request was. The refusal is SWAP_NAK 4 against the lower of two
logical lanes, 1 during another swap or for a lane that is not LOCKED, 2 for a hot spare that is not in RESERVE, and 3 without the partner's
lane management. The index of the partner's hot spare is not used: R91 fixes which it is. DESIGN CHOICE: log entry 152. -/
def execSwapReqReceive (p : Fin 512) (block : BitVec 66) (byCmd : Bool) (s : State) : Result :=
  .next (
    match lmosIs 0x01 block with
    | none => s
    | some m =>
      let k := m.logical
      let t := m.tag
      let sp := s.spareOf p
      let nak (s : State) (arg : Nat) : State := s.lmosAnswer p sp 0x01 t 0x03 k arg
      if !s.strait p then s
      else
        match s.lmosRepeated p 0x01 t with
        | some a => s.lmosAgain a
        | none =>
          if sp ≥ 544 then s
          else
            match s.swapOf p with
            | some x =>
              if x.requester then
                if x.logical = k then
                  (s.setSwap p (some { x with acked := true })).lmosAnswered x.spare
                else if k < x.logical then
                  (s.swapEnd p 4 stConflict x).swapAnswer p k t byCmd
                else nak s 4
              else nak s 1
            | none =>
              if !s.partnerLm p then nak s 3
              else if s.laneState sp ≠ 4 then nak s 2
              else if k ≥ s.portWidth p || s.laneState (s.laneOf p k) ≠ 3 then nak s 1
              else s.swapAnswer p k t byCmd)

/-- SWAP_ACK_RECEIVE (R68, R70): the swap proceeds to alignment. -/
def execSwapAckReceive (p : Fin 512) (block : BitVec 66) (s : State) : Result :=
  .next (
    match lmosIs 0x02 block, s.swapOf p with
    | some m, some x =>
      if x.requester && x.tag = m.tag then (s.setSwap p (some { x with acked := true })).lmosAnswered x.spare else s
    | _, _ => s)

/-- SWAP_NAK_RECEIVE (R68, R74): the swap ends and is recorded. -/
def execSwapNakReceive (p : Fin 512) (block : BitVec 66) (s : State) : Result :=
  .next (
    match lmosIs 0x03 block, s.swapOf p with
    | some m, some x => if x.requester && x.tag = m.tag && !x.acked then s.swapEnd p 4 stConflict x else s
    | _, _ => s)

/-- SWAP_ALIGNED (R70 steps 3 to 5): after 4 matching codewords in a row, within ±200 ns (`skew` in units of 100 ps), the receiver takes the
logical lane from the hot spare at the next codeword boundary, with its deskew offset and receive latency (R349), and sends SWAP_DONE in
the logical lane's stream, which both lanes carry. -/
def execSwapAligned (p : Fin 512) (run : Nat) (skew : Int) (s : State) : Result :=
  .next (
    match s.swapOf p with
    | some x =>
      if x.switched || !x.acked || run < 4 || 2000 < skew.natAbs then s
      else
        let s := (s.lmosSend x.oldLane 0x04 x.logical 0 x.tag false).lmosSend x.spare 0x04 x.logical 0 x.tag false
        let s := s.updPort p (fun y =>
          { y with rxOld := some (x.logical, x.oldLane, s.now),
                   pcs := { y.pcs with deskew := y.pcs.deskew.modify x.logical (fun d => ((d : Int) - skew).toNat) } })
        (s.setSwap p (some { x with switched := true })).swapCheck p
    | none => s)

/-- SWAP_DONE_RECEIVE (R68, R70 step 6). -/
def execSwapDoneReceive (p : Fin 512) (block : BitVec 66) (s : State) : Result :=
  .next (
    match lmosIs 0x04 block, s.swapOf p with
    | some m, some x => if m.logical = x.logical then (s.setSwap p (some { x with doneRx := true })).swapCheck p else s
    | _, _ => s)

/-- SWAP_ABORT_RECEIVE (R68, R72): mirroring stops and the old lane keeps the logical lane, or takes it back when this end has already
reached step 6. -/
def execSwapAbortReceive (p : Fin 512) (block : BitVec 66) (s : State) : Result :=
  .next (
    match lmosIs 0x05 block with
    | none => s
    | some m =>
      match s.swapOf p, (s.px p).swapped with
      | some x, _ => if m.logical = x.logical then s.swapAbort p 3 false else s
      | none, some x => if m.logical = x.logical && m.tag = x.tag then s.swapUndo p x else s
      | none, none => s)

/-- SWAP_TIMEOUT (R72): a swap that has not reached step 6 within LANE_SWAP_CFG.TIMEOUT µs is aborted. -/
def execSwapTimeout (p : Fin 512) (s : State) : Result :=
  .next (
    match s.swapOf p with
    | some x =>
      if s.now - x.start ≥ max 1 (s.rd (F.LANE_SWAP_CFG_TIMEOUT (p / 32))) * 1600 then s.swapAbort p 2 true else s
    | none => s)

/-- LMOS_REPEAT (R69): a message that has been unanswered for 1 µs is repeated with the same TAG. -/
def execLmosRepeat (l : Fin 544) (s : State) : Result :=
  .next (
    match mget s.lmosWait l none with
    | some m => if s.now - m.sent ≥ 1600 then s.lmosSend l m.code m.logical m.arg m.tag true else s
    | none => s)

end Sys2Proof.Machine
end

