-- ==== Sys2Proof/Machine/Ports.lean ====
section
/-! DEFINITION. The commands of ports, link partners and priority flow control (R81 to R115, R154, R258, R259). -/

namespace Sys2Proof.Machine

/-- A DISABLED port is enabled: its lanes and hot spare start training, and it enters LINKING (R58, R109). DEDUCED: log entry 20. -/
def State.portOn (s : State) (p : Nat) : State :=
  let s := (s.wrB (F.PORT_CTL_ENABLE p) true).updPort p (fun x => { x with anDone := !s.negotiates p })
  let s := (s.allLanes p).foldl (fun s l =>
    let s := s.wrB (F.LANE_CTL_ENABLE l) true
    if s.laneState l = 0 then s.laneTrain l else s) s
  (s.portEnter p 2).advertise p

/-- A port in LINKING, UP or IDLE is disabled (R109, R114, R154): a swap is aborted, it leaves every group, its lanes turn OFF, its partner
entry becomes invalid, and its queued packets are rerouted or dropped. DEDUCED: log entry 20. DESIGN CHOICE: log entry 153. -/
def State.portOff (s : State) (p : Nat) : State :=
  let s := (s.swapAbort p 2 true).livenessClear p
  let s := s.wrB (F.PORT_CTL_ENABLE p) false
  let s := (s.allLanes p).foldl (fun s l =>
    let s := s.wrB (F.LANE_CTL_ENABLE l) false
    if s.laneState l = 5 then s else s.laneEnter l 0) s
  let s := (s.portEnter p 1).updPort p (fun x => { x with idleTag := none, waking := false, degRun := 0, anDone := false, woke := false, swapped := none, pcs := {} })
  ((((s.partnerInvalid p).clearPauses p).pfcUpdate p).failQueued p dropPortDisabled).spareReady p

/-- PORT_CTL_ENABLE (R109, R110): ENABLE is locked only in UNDEFINED; a write that changes nothing has no effect. -/
def execPortCtlEnable (q : Requester) (p : Fin 512) (on : Bool) (s : State) : Result := if !s.grants q false then .next s else
  .next (
    match s.portState p with
    | 0 => if on then s.locked q .PORT_CTL p 0 else s
    | 1 => if on then s.portOn p else s
    | _ => if on then s else s.portOff p)

/-- The arrivals of the first data codewords of the lanes, in units of 100 ps, lie near enough for the deskew buffers: 16 codewords of 12.8
ns on a Strait port (R90, R91); 180 ns, the limit of IEEE 802.3, on an Ethernet port. PRESUMED: log entry 150. -/
def State.deskewable (s : State) (p : Nat) (arrivals : List Nat) : Bool :=
  arrivals.length = s.portWidth p &&
    arrivals.all (fun a => arrivals.all (fun b => a ≤ b + if s.strait p then 2048 else 1800))

/-- PORT_LINK_UP (R90, R102, R109): every main lane is LOCKED, negotiation is complete and the lanes are deskewed by `arrivals`, when the first
data codeword of each logical lane came, in units of 100 ps; the offsets then stay. A hello is due, and XOFF that admission asks for leaves. -/
def execPortLinkUp (p : Fin 512) (arrivals : List Nat) (s : State) : Result :=
  .next (
    if s.portState p = 2 && (s.mainLanes p).all (fun l => s.laneState l = 3) &&
        (!s.negotiates p || (s.px p).anDone) && s.deskewable p arrivals then
      let last := arrivals.foldl max 0
      let s := (s.portEnter p 3).updPort p (fun x =>
        { x with lastFrame := s.now, degRun := 0, woke := false, helloSent := none,
                 pcs := { x.pcs with deskew := arrivals.map (fun a => last - a) } })
      (s.pfcUpdate p).spareReady p
    else s)

/-- AN_COMPLETE (R82, R104): Clause 73 negotiation of an Ethernet port with AN_EN in LINKING ends. With a common technology the partner
entry is filled from the pages `an`; without one the port stays in LINKING with NO_COMMON, bit 31. DESIGN CHOICE: log entry 18. -/
def execAnComplete (p : Fin 512) (common : Bool) (an : BitVec 31) (s : State) : Result :=
  .next (
    if s.portState p ≠ 2 || !s.negotiates p then s
    else if common then
      let changed := !s.on (F.PORT_PARTNER_STATUS_VALID p)
      let s := (s.wr (F.PORT_PARTNER_AN_AN p) an.toNat).updPort p (fun x => { x with anDone := true })
      let s := (s.wr (F.PORT_PARTNER_STATUS_SOURCE p) 2).wrB (F.PORT_PARTNER_STATUS_VALID p) true
      if changed then s.partnerChanged p else s
    else s.wr (F.PORT_PARTNER_AN_AN p) (2 ^ 31 + an.toNat))

/-- FEC_DEGRADE_WINDOW (R73, R112, R113): a window with `corr` corrected and `uncorr` uncorrectable codewords of an Ethernet port, or with
those that the windows of a Strait port's lanes have just found (R66), beside those of a perturbation (R458), closes; the port's codeword
counters take them. A port without FEC has no degrade trigger, and a swap holds the count for at most its timeout. -/
def execFecDegradeWindow (p : Fin 512) (corr uncorr : Nat) (s : State) : Result :=
  .next (
    let corr := if s.strait p then (s.px p).winCorr else corr
    let uncorr := if s.strait p then (s.px p).winBad else uncorr
    let s := s.updPort p (fun x => { x with winCorr := 0, winBad := 0 })
    let s := (s.wrapAdd (F.PCS_FEC_CORR_COUNT p) corr).wrapAdd (F.PCS_FEC_UNCORR_COUNT p) uncorr
    if s.portState p ≠ 3 || (!s.strait p && s.rd (F.PORT_CFG_FEC p) = 0) then s
    else
      let t := if s.strait p then 8 else match s.rd (F.PORT_CFG_FEC p) with
        | 2 => 7
        | 3 => 15
        | _ => 0
      let inj := if t = 0 then 0 else ((s.mainLanes p).map (fun l => (s.perturbLane l t).2)).sum
      let bad : Bool := uncorr + inj ≥ max 1 (s.rd (F.PORT_FEC_DEG_UNCORR_MAX p))
      let heldOff := (s.swapOf p).any (fun x =>
        s.now - x.start ≤ max 1 (s.rd (F.LANE_SWAP_CFG_TIMEOUT (p / 32))) * 1600)
      let s := s.wrB (F.PORT_STATUS_FEC_DEG p) bad
      if heldOff then s
      else
        let run := if bad then (s.px p).degRun + 1 else 0
        let s := s.updPort p (fun x => { x with degRun := run })
        let win := s.rd (F.PORT_FEC_DEG_WIN p)
        if win ≠ 0 && run ≥ win then (s.raise .mac (p / 32) 3).linkFailure p 2 else s)

/-- HELLO_SEND (R102, R111): a Strait port in UP sends the hello that is due; an idle port whose hello is due wakes, and the hello leaves
once it is UP. DESIGN CHOICE: log entry 134. -/
def execHelloSend (p : Fin 512) (s : State) : Result :=
  .next (
    if !s.strait p || !s.portLive p || !s.helloDue p then s
    else if s.portState p = 3 then s.sendHello p
    else s.portWake p)

/-- The fields of a received hello that the partner entry holds (R102, R104). -/
def State.fillPartner (s : State) (p : Nat) (pl : Bytes) : State :=
  let s := s.wr (F.PORT_PARTNER_ID_ID p) (beAt pl 4 4)
  let s := s.wr (F.PORT_PARTNER_SERIAL_SERIAL p) (beAt pl 8 8)
  let s := s.wr (F.PORT_PARTNER_PORT_PORT p) (beAt pl 16 2)
  let s := s.wr (F.PORT_PARTNER_PORT_LANES p) (beAt pl 18 1)
  let s := s.wr (F.PORT_PARTNER_PORT_CAP p) (beAt pl 19 1)
  let s := (List.range 4).foldl (fun s n =>
    (s.wr (F.PORT_PARTNER_LMAP_LO (4 * p + n)) (beAt pl (20 + 4 * n) 2)).wr (F.PORT_PARTNER_LMAP_HI (4 * p + n))
      (beAt pl (22 + 4 * n) 2)) s
  s.wr (F.PORT_PARTNER_SPARE_LANE p) (beAt pl 36 2)

/-- The registers of a partner entry whose change raises the PARTNER interrupt (R104). -/
def State.partnerView (s : State) (p : Nat) : List Nat :=
  [s.rd (F.PORT_PARTNER_STATUS_VALID p), s.rd (F.PORT_PARTNER_ID_ID p), s.rd (F.PORT_PARTNER_SERIAL_SERIAL p),
   s.rd (F.PORT_PARTNER_PORT_PORT p), s.rd (F.PORT_PARTNER_PORT_LANES p), s.rd (F.PORT_PARTNER_PORT_CAP p),
   s.rd (F.PORT_PARTNER_SPARE_LANE p)] ++
  (List.range 4).flatMap (fun n => [s.rd (F.PORT_PARTNER_LMAP_LO (4 * p + n)), s.rd (F.PORT_PARTNER_LMAP_HI (4 * p + n))])

/-- A frame's last four octets are the FCS of the rest. -/
def fcsGood (f : Bytes) : Bool := f.drop (f.length - 4) = fcsOf (f.take (f.length - 4))

/-- The class of a received frame, as its MIB counter: 7 runt, 8 jabber, 6 coding, 5 FCS; none for a good frame (R93). -/
def State.frameClass (s : State) (p : Nat) (frame : Bytes) (coding : Bool) : Option Nat :=
  if frame.length < 64 then some 7
  else if frame.length > max 64 (min 16000 (s.rd (F.MAC_RX_CFG_MAX_LEN p))) then some 8
  else if coding then some 6
  else if !fcsGood frame then some 5
  else none

/-- A received frame counts in its class (R93, R321). -/
def State.countClass (s : State) (p : Nat) (frame : Bytes) (cls : Option Nat) : State :=
  let s := s.updPort p (fun x => { x with lastFrame := s.now })
  match cls with
  | some k => s.mibRxErr p k frame.length
  | none => s

/-- A hello of the port's Ethertype arrives, FCS included (R103 to R106): a Strait port consumes it; a trusted port takes a
good hello of VERSION 0x01 and TYPE 0x01 into its partner entry, any other port drops and counts it. -/
def State.helloRx (s : State) (p : Nat) (frame : Bytes) (cls : Option Nat) : State :=
  let s := s.countClass p frame cls
  let s := if cls.isNone then s.mibRxGood p frame else s
  if !s.on (F.PORT_CFG_TRUSTED p) then s.satAdd (F.HELLO_UNTRUSTED_COUNT p) 1
  else
    let pl := frame.drop 14
    if cls.isSome || beAt pl 0 1 ≠ 1 || beAt pl 1 1 ≠ 1 then s
    else
      let before := s.partnerView p
      let s := s.fillPartner p pl
      let s := (s.wr (F.PORT_PARTNER_STATUS_SOURCE p) 1).wrB (F.PORT_PARTNER_STATUS_VALID p) true
      let s := s.wrB (F.PORT_PARTNER_STATUS_MISMATCH p) (beAt pl 18 1 ≠ s.portWidth p)
      let s := s.updPort p (fun x => { x with helloAt := s.now, helloPeriod := beAt pl 38 2 })
      let s := if s.partnerView p = before then s else s.partnerChanged p
      s.spareReady p

/-- A frame is a hello on port `p` (R103). -/
def State.isHello (s : State) (p : Nat) (frame : Bytes) : Bool :=
  s.strait p && beAt frame 0 6 = 0x0180C200000E && beAt frame 12 2 = s.rd (F.PORT_HELLO_CFG_ETYPE (p / 32))

/-- A frame of class `cls` that the MAC itself consumes, a MAC Control frame or a hello (R98, R103); a runt is filtered first (R93). -/
def State.consumed (s : State) (p : Nat) (frame : Bytes) (cls : Option Nat) (f : State → State) : State :=
  if cls = some 7 then s.countClass p frame cls else f s

/-- HELLO_RECEIVE (R93, R103 to R106): the whole frame, FCS included; `coding` tells a block of the coding class. -/
def execHelloReceive (p : Fin 512) (frame : Bytes) (coding : Bool) (s : State) : Result :=
  .next (
    let cls := s.frameClass p frame coding
    if s.portState p = 3 && s.isHello p frame then s.consumed p frame cls (fun s => s.helloRx p frame cls) else s)

/-- PARTNER_EXPIRE (R104): four announced periods, an announced 0 counting as 1, have passed without a hello. -/
def execPartnerExpire (p : Fin 512) (s : State) : Result :=
  .next (
    if s.strait p && s.on (F.PORT_PARTNER_STATUS_VALID p) &&
        s.now - (s.px p).helloAt ≥ 4 * max 1 (s.px p).helloPeriod * 16000000 then s.partnerInvalid p
    else s)

/-- A MAC Control frame arrives, FCS included (R98, R99, R321): PFC acts for the priorities of RX_EN, PAUSE for all eight when
LEGACY_RX is set; one that is not good is discarded and counted in its class. -/
def State.macControl (s : State) (p : Nat) (frame : Bytes) (cls : Option Nat) : State :=
  let s := s.updPort p (fun x => { x with lastFrame := s.now })
  if cls = some 5 then s.mibRxBad p frame.length
  else if cls.isSome then s.countClass p frame cls
  else
    let s := s.mibRxControl p frame
    match beAt frame 14 2 with
    | 0x0101 =>
      let en := beAt frame 16 2 &&& s.rd (F.MAC_PFC_CFG_RX_EN p)
      (List.range 8).foldl (fun s g => if bit en g then s.pauseSet p g (beAt frame (18 + 2 * g) 2) else s) s
    | 0x0001 =>
      if s.on (F.MAC_PFC_CFG_LEGACY_RX p) then
        (List.range 8).foldl (fun s g => s.pauseSet p g (beAt frame 16 2)) s
      else s
    | _ => s

/-- A frame is a MAC Control frame (R98). -/
def isMacControl (frame : Bytes) : Bool := beAt frame 0 6 = 0x0180C2000001 && beAt frame 12 2 = 0x8808

/-- MAC_CONTROL_RECEIVE (R93, R98, R99): the whole frame, FCS included; `coding` tells a block of the coding class. DEDUCED: log entry 132.
-/
def execMacControlReceive (p : Fin 512) (frame : Bytes) (coding : Bool) (s : State) : Result :=
  .next (
    let cls := s.frameClass p frame coding
    if s.portState p = 3 && isMacControl frame then s.consumed p frame cls (fun s => s.macControl p frame cls) else s)

/-- PAUSE_EXPIRE (R259): the pause time of priority `g` has run out. -/
def execPauseExpire (p : Fin 512) (g : Fin 8) (s : State) : Result :=
  .next (
    if bit (s.rd (F.MAC_PFC_STATUS_RX_PAUSED p)) g && s.now ≥ mget s.pauseEnd (key2 p g) 0 then s.pauseRelease p g else s)

/-- The interval at which a PFC frame is repeated, in time ticks (R101). -/
def State.pfcInterval (s : State) (p : Nat) : Nat :=
  max 128 (min (max 1 (s.rd (F.MAC_PFC_CFG_REFRESH p)) * 128) (s.quantaTicks p (s.rd (F.MAC_PFC_QUANTA_XOFF p)) / 2))

/-- The priorities of port `p` whose XOFF is due to be repeated (R101). -/
def State.pfcDue (s : State) (p : Nat) : Nat :=
  (List.range 8).foldl (fun a g =>
    if bit (s.rd (F.MAC_PFC_STATUS_TX_XOFF p)) g && s.now - mget (s.px p).pfcAt g 0 ≥ s.pfcInterval p then setBit a g true else a) 0

/-- PFC_REFRESH (R101): while XOFF holds the frame is repeated at the end of each interval of its priority. -/
def execPfcRefresh (p : Fin 512) (s : State) : Result :=
  .next (
    let x := s.pfcDue p
    if s.portState p = 3 && x ≠ 0 then
      (s.sendPfc p x (s.rd (F.MAC_PFC_QUANTA_XOFF p))).updPort p
        (fun y => { y with pfcAt := (List.range 8).foldl (fun m g => if bit x g then mset m g s.now 0 else m) y.pfcAt })
    else s)

/-- PIPE_PORT_LIVE_WRITE (R154, R473): the W1S write sets the bits of ports in UP or IDLE; the others stay 0 and the write
is recorded once, with STATE that of the lowest-numbered such port. -/
def execPipePortLiveWrite (q : Requester) (i w : Fin 16) (v : BitVec 32) (s : State) : Result := if !s.grants q false then .next s else
  .next (
    let f := F.PIPE_PORT_LIVE_LIVE (16 * i + w)
    let named := (List.range 32).filter (fun k => v.toNat.testBit k)
    let good := named.filter (fun k => s.portLive (32 * w + k))
    let s' := s.wr f (good.foldl (fun a k => setBit a k true) (s.rd f))
    match named.filter (fun k => !s.portLive (32 * w + k)) with
    | [] => s'
    | k :: _ => s'.locked q .PIPE_PORT_LIVE (16 * i + w) (s.portState (32 * w + k)))

end Sys2Proof.Machine
end

