-- ==== Sys2Proof/Machine/PipeOps.lean ====
section
/-! DEFINITION. Pipelines: which serves a group, tables and their lookups, register tables and meters (R128 to R170). Pipelines are
numbered 10 i + x, pools 2 i + d. -/

namespace Sys2Proof.Machine

/-! ### Pipelines -/

/-- STATE of pipeline `y` (R162): 0 ACTIVE, 1 RESERVE, 2 LOADING, 3 FENCED, 4 RETIRED. -/
def State.pipeState (s : State) (y : Nat) : Nat := s.rd (F.PIPE_STATUS_STATE y)

/-- The swap or retirement under way in direction `d` of island `i`. -/
def State.pipeSwap (s : State) (i d : Nat) : Option PipeSwap := mget s.mat.swaps (2 * i + d) none

/-- Replace it. -/
def State.setPipeSwap (s : State) (i d : Nat) (x : Option PipeSwap) : State :=
  s.updMat (fun m => { m with swaps := mset m.swaps (2 * i + d) x none })

/-- The pipeline of direction `d` that takes a frame of group `g` of island `i` whose first byte came at tick `begun`: the
FENCED reserve for frames from the swap's clock on, else the ACTIVE one (R25, R166); none when the group's pipeline is
retired without a reserve (R164). -/
def State.servePipe (s : State) (i d g begun : Nat) : Option Nat :=
  let xs := (List.range 5).map (fun k => 5 * d + k)
  let serves (st x : Nat) : Bool := s.pipeState (10 * i + x) = st && s.rd (F.PIPE_STATUS_GROUP (10 * i + x)) = g
  match xs.find? (serves 3) with
  | some x => if (s.pipeSwap i d).all (fun w => begun ≥ w.start) then some x else xs.find? (serves 0)
  | none => xs.find? (serves 0)

/-- `n` symbols that the FEC of lane `l` has corrected count as event 0x12 of the ingress pipeline that serves port `p` (R89, R324).
DEDUCED: log entry 24. -/
def State.symbolsFixed (s : State) (p l n : Nat) : State :=
  s.cntIsland (l / 34) ((s.servePipe (p / 32) 0 (p % 32 / 8) s.now).getD (p % 32 / 8)) 0x12 (l % 34) n

/-- Flights in pipeline `y`, oldest first. -/
def State.flights (s : State) (y : Nat) : List Flight := mget s.path.pipes y []

/-- Replace them. -/
def State.setFlights (s : State) (y : Nat) (l : List Flight) : State :=
  s.updPath (fun p => { p with pipes := mset p.pipes y l [] })

/-- Frames that wait in the MAC receive buffer for pipeline `y`. -/
def State.rxq (s : State) (y : Nat) : List RxFrame := mget s.path.rxq y []

/-- Replace them. -/
def State.setRxq (s : State) (y : Nat) (l : List RxFrame) : State :=
  s.updPath (fun p => { p with rxq := mset p.rxq y l [] })

/-- The issue stage of pipeline `y`. -/
def State.issueClk (s : State) (y : Nat) : IssueClk := mget s.path.clk y {}

/-- Replace it. -/
def State.setIssueClk (s : State) (y : Nat) (c : IssueClk) : State :=
  s.updPath (fun p => { p with clk := mset p.clk y c {} })

/-- Packets that the drain fence of pipeline `y` holds. -/
def State.fenced (s : State) (y : Nat) : List (Nat × Flight) := mget s.path.fence y []

/-- Replace them. -/
def State.setFenced (s : State) (y : Nat) (l : List (Nat × Flight)) : State :=
  s.updPath (fun p => { p with fence := mset p.fence y l [] })

/-- Pipeline `y` still holds a frame of port `p`, in its stages or before them (R166). -/
def State.holdsPort (s : State) (y p : Nat) : Bool :=
  (s.flights y).any (fun f => f.rx.port = p) || (s.rxq y).any (fun f => f.port = p) ||
    (mget s.path.inject y []).any (fun e => e.2.2.port = p)

/-- `n` time ticks in core clocks of the present divider (R362). -/
def State.coreClocks (s : State) (n : Nat) : Nat := n * 8 / twiceDiv (s.rd F.CLK_CORE_DIV)

/-- The present core clock of the device, counted at the present divider. -/
def State.coreIdx (s : State) : Nat := s.coreClocks s.now

/-! ### Tables -/

/-- The layout of table `t` of a pool. -/
def State.layout (s : State) (pool t : Nat) : Option TblLayout := mget s.mat.tables (key2 pool t) none

/-- Entry `ix` of table `t` of a pool. -/
def State.entry (s : State) (pool t ix : Nat) : ClsEntry := mget s.mat.entries (key2 pool (key2 t ix)) {}

/-- Replace an entry. -/
def State.setEntry (s : State) (pool t ix : Nat) (e : ClsEntry) : State :=
  s.updMat (fun m => { m with entries := mset m.entries (key2 pool (key2 t ix)) e {} })

/-- Entries of a table (R142, R143). -/
def tblSize (t : TblLayout) : Nat := if t.kind = 0 then t.ways * 2 ^ t.log2 else 2 ^ t.log2

/-- Words of an entry of a table (R128). -/
def tblWords (t : TblLayout) : Nat :=
  match t.kind with
  | 0 => t.keyWords + t.actWords
  | 1 => 2 * t.keyWords + t.actWords
  | _ => t.actWords

/-- First action word. -/
def tblActFirst (t : TblLayout) : Nat := tblWords t - t.actWords

/-- Candidate index of way `w` of an exact table for a key (R143). -/
def tblCandidate (t : TblLayout) (key : List Nat) (w : Nat) : Nat :=
  w * 2 ^ t.log2 + crc32cSeed (t.seeds.getD w 0) (key.flatMap (leBytes 4)) % 2 ^ t.log2

/-- Whether a valid entry matches `key` (R128, R129, R143). -/
def tblMatches (t : TblLayout) (e : ClsEntry) (key : List Nat) : Bool :=
  e.valid &&
    (if t.kind = 0 then (List.range t.keyWords).all (fun k => e.words.getD k 0 = key.getD k 0)
     else (List.range t.keyWords).all (fun k =>
       (e.words.getD k 0 &&& e.words.getD (t.keyWords + k) 0) = (key.getD k 0 &&& e.words.getD (t.keyWords + k) 0)))

/-- Indices of the listed entries of table `t` of a pool, lowest first within the map. -/
def State.tableIndices (s : State) (pool t : Nat) : List Nat :=
  s.mat.entries.filterMap (fun e =>
    let (a, r) := Nat.unpair e.1
    let (b, ix) := Nat.unpair r
    if a = pool && b = t then some ix else none)

/-- The least number of a list. -/
def least : List Nat → Option Nat
  | [] => none
  | a :: t => match least t with
    | none => some a
    | some b => some (min a b)

/-- The entries that a lookup reads (R142, R143): the candidates of an exact table, every listed entry of a ternary one, the named one of
a direct one. -/
def State.reads (s : State) (pool : Nat) (t : TblLayout) (key : List Nat) : List Nat :=
  match t.kind with
  | 0 => (List.range t.ways).map (tblCandidate t key)
  | 1 => s.tableIndices pool t.num
  | _ => [key.headD 0]

/-- The entry that a lookup by key selects: the lowest index among those that match (R129, R142, R143). -/
def State.select (s : State) (pool : Nat) (t : TblLayout) (key : List Nat) : Option Nat :=
  least ((s.reads pool t key).filter (fun ix => tblMatches t (s.entry pool t.num ix) key))

/-- An uncorrectable word in entry `ix`: its valid bit is cleared, and a CONTAINED event names the table and index (R437). DESIGN CHOICE:
log entry 31. -/
def State.entryLost (s : State) (i d t ix : Nat) : State :=
  (s.setEntry (2 * i + d) t ix { s.entry (2 * i + d) t ix with valid := false }).event contained (codeOf .pipe i 0x81)
    (3 * 2 ^ 12 + d) (t + ix * 256)

/-- Uncorrectable words that are FATAL (R438): a cell link or free list of half `h`, and descriptor or scheduler state of the traffic
manager at unit `u`. DESIGN CHOICE: log entries 31, 165. -/
def State.memoryFatal (s : State) (h u : Nat) (faults : List MemFault) : State :=
  let s := if faults.contains .links then s.event fatal (codeOf .lag h 0x81) h 0 else s
  if faults.contains .sched then s.event fatal (codeOf .tm 0 0x81) u 0 else s

/-- A lookup by index hits (R142): an index beyond the table, and an invalid entry, is a miss. -/
def State.directHit (s : State) (pool t ix : Nat) : Bool :=
  match s.layout pool t with
  | some l => decide (ix < tblSize l) && (s.entry pool t ix).valid
  | none => false

/-- A lookup that selects an entry adds to its counter (R323). -/
def State.countEntry (s : State) (pool : Nat) (t : TblLayout) (ix len : Nat) : State :=
  if t.counters then
    let k := key2 pool (key2 t.num ix)
    let c := mget s.mat.counts k (0, 0)
    s.updMat (fun m => { m with counts := mset m.counts k (min (c.1 + 1) (2 ^ 40 - 1), min (c.2 + len) (2 ^ 56 - 1)) (0, 0) })
  else s

/-! ### The blocks of a pool (R144, R145) -/

/-- SRAM words of 32 bits of an entry; the key and mask of a ternary entry lie in TCAM. -/
def sramWords (t : TblLayout) : Nat := if t.kind = 1 then t.actWords else tblWords t

/-- TCAM blocks of one copy of a table: ⌈32 K ÷ 128⌉ side by side for every 1,024 entries (R144). -/
def tcamBlocks (t : TblLayout) : Nat := if t.kind = 1 then (32 * t.keyWords + 127) / 128 * ((tblSize t + 1023) / 1024) else 0

/-- Copies of a table that the image sets aside: one of a shared table, five of a replicated one (R145). -/
def tblCopies (t : TblLayout) : Nat := if t.shared then 1 else 5

/-- A layout keeps the limits of R128, R142 to R145 and R148: its blocks hold its entries in words of 128 bits, a shared table lies on 8 to
64 of them, and a ternary table is never shared. DESIGN CHOICE: log entry 155. -/
def tblOk (t : TblLayout) : Bool :=
  t.num < 256 && t.kind ≤ 3 && t.actWords ≤ 8 && t.log2 ≤ 24 && tblSize t ≤ 2 ^ 24 && t.role ≤ 5 &&
    (t.kind ≠ 0 || (1 ≤ t.ways && t.ways ≤ 4 && 1 ≤ t.keyWords && t.keyWords ≤ 16)) &&
    (t.kind ≠ 1 || (1 ≤ t.keyWords && t.keyWords ≤ 12 && !t.shared)) && (t.kind ≠ 3 || t.actWords = 1 || t.actWords = 2) &&
    (!t.shared || [8, 16, 32, 64].contains t.blocks) && tblSize t * ((32 * sramWords t + 127) / 128) ≤ 8192 * t.blocks

/-- The tables of a pool fit its blocks: 64 SRAM and 64 TCAM blocks for ingress, 32 of each for egress (R3, R144). -/
def poolFits (d : Nat) (l : List TblLayout) : Bool :=
  let n := if d = 0 then 64 else 32
  (l.map (fun t => tblCopies t * t.blocks)).sum ≤ n && (l.map (fun t => tblCopies t * tcamBlocks t)).sum ≤ n

/-- The tables of a pool. -/
def State.poolTables (s : State) (pool : Nat) : List TblLayout :=
  s.mat.tables.filterMap (fun e => if (Nat.unpair e.1).1 = pool then e.2 else none)

/-- Block `b` of a shared table serves a lookup that reaches it in core clock `c`: two in each clock, the others in the clocks that follow.
The answer is how many clocks it waits (R144, R146). -/
def State.blockServe (s : State) (pool t b c : Nat) : Nat → Nat × State
  | 0 => (0, s)
  | n + 1 =>
    let k := key2 (key2 pool t) (key2 b c)
    let u := mget s.mat.served k 0
    if u < 2 then (0, s.updMat (fun m => { m with served := mset m.served k (u + 1) 0 }))
    else
      let r := s.blockServe pool t b (c + 1) n
      (r.1 + 1, r.2)

/-- Clocks that have passed need no record. -/
def State.servedPrune (s : State) : State :=
  s.updMat (fun m => { m with served := m.served.filter (fun e => s.coreIdx ≤ (Nat.unpair (Nat.unpair e.1).2).2) })

/-- The longest wait at the blocks of the entries `l` of a shared table in stage `st` (R145, R146). DESIGN CHOICE: log entry 155. -/
def State.sharedWait (s : State) (pool st : Nat) (t : TblLayout) (l : List Nat) : Nat × State :=
  if !t.shared then (0, s)
  else ((l.map (fun ix => ix % max 1 t.blocks)).eraseDups).foldl (fun r b =>
    let w := r.2.blockServe pool t.num b (s.coreIdx + 6 * (st - 1)) 64
    (max r.1 w.1, w.2)) (0, s)

/-! ### Stateful ALUs -/

/-- Where a register table stands: once for the pool when it is shared (R145), else once for each group of eight main lanes, whichever
pipeline serves it (R149); 5 more for the new table that a swap brings (R169). The rules do not say which of the two holds for a shared
register table. DESIGN CHOICE: log entry 155. -/
def regPlace (shared fresh : Bool) (group : Nat) : Nat := (if shared then 4 else group) + if fresh then 5 else 0

/-- Key of an entry of a register table at a place. -/
def regKey (pool place t ix : Nat) : Nat := key2 (10 * pool + place) (key2 t ix)

/-- Pipeline `x` is a reserve whose program brings its own version of table `t` (R169). -/
def State.freshTable (s : State) (i x t : Nat) : Bool :=
  (s.pipeSwap i (x / 5)).any (fun w => w.resv = x && w.inits.any (fun e => e.1 = t))

/-- A predicate on two unsigned numbers. -/
def cmpHolds (c : Cmp) (x y : Nat) : Bool :=
  match c with
  | .eq => x = y
  | .ne => x ≠ y
  | .lt => x < y
  | .ge => x ≥ y

/-- An ALU operation on an old value of `w` bits (R148). The rule does not say how numbers compare nor what a sum beyond the width gives:
minimum, maximum and predicates take unsigned numbers, and add and subtract wrap. DESIGN CHOICE: log entry 32. -/
def aluApply (op : AluOp) (w old a b : Nat) : Nat :=
  match op with
  | .read => old
  | .write => a % 2 ^ w
  | .add => (old + a) % 2 ^ w
  | .sub => (old + 2 ^ w - a % 2 ^ w) % 2 ^ w
  | .min => Nat.min old (a % 2 ^ w)
  | .max => Nat.max old (a % 2 ^ w)
  | .and => old &&& (a % 2 ^ w)
  | .or => old ||| (a % 2 ^ w)
  | .xor => old ^^^ (a % 2 ^ w)
  | .cas => if old = a % 2 ^ w then b % 2 ^ w else old
  | .condWrite c =>
    if cmpHolds c old (a % 2 ^ w) then b % 2 ^ w else old

/-- Operations that may merge (R151). -/
def mergeable (op : AluOp) : Bool :=
  match op with
  | .add | .sub | .min | .max | .and | .or | .xor => true
  | _ => false

/-- Read, compute and write back at entry `ix` of a register table (R148): the old and the new value, and the state. DESIGN CHOICE: log
entry 32. -/
def State.aluRun (s : State) (i x : Nat) (l : TblLayout) (ix : Nat) (op : AluOp) (a b : Nat) : Nat × Nat × State :=
  let k := regKey (2 * i + x / 5) (regPlace l.shared (s.freshTable i x l.num) (s.rd (F.PIPE_STATUS_GROUP (10 * i + x)))) l.num ix
  let old := mget s.mat.regTab k 0
  let new := aluApply op (32 * l.actWords) old a b
  (old, new, s.updMat (fun m => { m with regTab := mset m.regTab k new 0 }))

/-! ### Meters -/

/-- One byte, or one packet, in the unit of a meter's levels. -/
def Meter.unit (m : Meter) : Nat := if m.packets then 1600000000 else 12800000

/-- A rate clamped to 3.2 Tb/s or 3.2 × 10^9 packets per second (R158). -/
def clampRate (r : Nat) : Nat := min r 3200000000

/-- The buckets after the ticks since the last access (R159): RFC 2697 lets the committed bucket overflow into the excess
bucket, RFC 2698 fills both. -/
def Meter.refill (m : Meter) (now : Nat) : Meter :=
  let n := now - m.last
  let cap := m.cbs * m.unit
  let ecap := m.ebs * m.unit
  let c := m.lc + n * clampRate m.cir
  if m.twoRate then
    { m with lc := min cap c, le := min ecap (m.le + n * clampRate m.eir), last := now }
  else { m with lc := min cap c, le := min ecap (m.le + (c - cap)), last := now }

/-- A packet of `n` units at a compact meter: its colour and the meter afterwards (R157, RFC 2697, RFC 2698). -/
def Meter.colour (m : Meter) (n pre : Nat) : Nat × Meter :=
  let pre := if m.aware then pre else 0
  if m.twoRate then
    if pre = 2 || m.le < n then (2, m)
    else if pre = 1 || m.lc < n then (1, { m with le := m.le - n })
    else (0, { m with le := m.le - n, lc := m.lc - n })
  else if pre = 0 && m.lc ≥ n then (0, { m with lc := m.lc - n })
  else if pre ≤ 1 && m.le ≥ n then (1, { m with le := m.le - n })
  else (2, m)

/-- Key of meter `ix` of island `i`. -/
def meterKey (i ix : Nat) : Nat := 2 ^ 18 * i + ix

/-- Meter `ix` of island `i`. -/
def State.meter (s : State) (i ix : Nat) : Meter := mget s.mat.meters (meterKey i ix) {}

/-- Replace a meter. -/
def State.setMeter (s : State) (i ix : Nat) (m : Meter) : State :=
  s.updMat (fun x => { x with meters := mset x.meters (meterKey i ix) m {} })

/-- What a bad word does to a meter: `false` the buckets are refilled, `true` the configuration is lost (R437). -/
def Meter.damage (m : Meter) (bad : Option Bool) : Meter :=
  match bad with
  | none => m
  | some false => { m with lc := m.cbs * m.unit, le := m.ebs * m.unit }
  | some true => { m with lost := true }

end Sys2Proof.Machine
end

