-- ==== Sys2Proof/Machine/ProgOps.lean ====
section
/-! DEFINITION. What a pass of the image's program does with a packet (R140 to R153), and its issue slot (R138, R150). -/

namespace Sys2Proof.Machine

/-! ### The header vector -/

/-- Bytes that a field spans from its first byte (R118). -/
def fieldSpan (x : BitField) : Nat := (x.bit + x.width + 7) / 8

/-- The value of a field of the header at `off` (R118). -/
def fieldAt (f : Bytes) (off : Nat) (x : BitField) : Nat :=
  beAt f (off + x.off) (fieldSpan x) / 2 ^ (8 * fieldSpan x - x.bit - x.width) % 2 ^ x.width

/-- A header with a field of it set to `v`. -/
def setField (f : Bytes) (x : BitField) (v : Nat) : Bytes :=
  let sh := 8 * fieldSpan x - x.bit - x.width
  let w := beAt f x.off (fieldSpan x)
  patch f x.off (beBytes (fieldSpan x) (w - fieldAt f 0 x * 2 ^ sh + v % 2 ^ x.width * 2 ^ sh))

/-- All bytes of a header. -/
def Hdr.bytes (h : Hdr) : Bytes := h.data ++ h.rest

/-- The header of an instance. -/
def findHdr (l : List Hdr) (n : Nat) : Option Hdr := l.find? (fun h => h.inst = some n)

/-- The offset of the header of an instance in the frame. -/
def hdrOffset (l : List Hdr) (n : Nat) : Nat := ((l.takeWhile (fun h => h.inst ≠ some n)).map (fun h => h.bytes.length)).sum

/-- A new header of `len` zero bytes behind that of instance `after`, or at the front. An instance that is valid stays as it is. DESIGN
CHOICE: log entry 154. -/
def addHdr (l : List Hdr) (n : Nat) (after : Option Nat) (len : Nat) : List Hdr :=
  let h : Hdr := { inst := some n, data := List.replicate (min len 64) 0 }
  if (findHdr l n).isSome then l
  else match after with
    | none => h :: l
    | some a => l.flatMap (fun g => if g.inst = some a then [g, h] else [g])

/-- A frame without FCS that a header vector and the bytes behind it make. The rules do not say how the header vector becomes a frame again:
its headers stand in frame order before the payload. DESIGN CHOICE: log entry 154. -/
def deparse (l : List Hdr) (frame : Bytes) (payOff : Nat) : Bytes :=
  l.flatMap (fun h => h.bytes) ++ (frame.take (frame.length - 4)).drop payOff

/-! ### Values -/

/-- A metadata field (R156, R305). -/
def Meta.get (m : Meta) (f : MetaField) : Nat :=
  match f with
  | .egressPort => m.egressPort
  | .queue => m.queue
  | .mcastGroup => m.mcastGroup
  | .pg => m.pg
  | .colour => m.colour
  | .ecnCap => if m.ecnCap then 1 else 0
  | .mirror => m.mirror
  | .telFlags => m.telFlags
  | .egressMeta => m.egressMeta
  | .flowKey => m.flowKey

/-- Set a metadata field, cut to its width (R156, R305). -/
def Meta.put (m : Meta) (f : MetaField) (v : Nat) : Meta :=
  match f with
  | .egressPort => { m with egressPort := v % 2 ^ 10 }
  | .queue => { m with queue := v % 16 }
  | .mcastGroup => { m with mcastGroup := v % 2 ^ 16 }
  | .pg => { m with pg := v % 8 }
  | .colour => { m with colour := v % 4 }
  | .ecnCap => { m with ecnCap := v % 2 = 1 }
  | .mirror => { m with mirror := v % 16 }
  | .telFlags => { m with telFlags := v % 16 }
  | .egressMeta => { m with egressMeta := v % 2 ^ 64 }
  | .flowKey => { m with flowKey := v % 2 ^ 64 }

/-- What travels beside a packet (R117, R126, R141, R156, R305). -/
def Flight.look (f : Flight) (x : InfoField) : Nat :=
  match x with
  | .inPort => f.rx.port
  | .length => f.rx.data.length
  | .payOff => f.rx.payOff
  | .recirc => f.passes
  | .parseFail => f.md.parseFail
  | .ppeCount => f.rx.ppeCount
  | .ppeGroups => f.rx.ppeGroups
  | .ppeFirst k => f.rx.ppeFirst.getD k 0x7FF
  | .ingressTime => f.rx.ts
  | .outPort => f.outPort
  | .depth => min f.depth 0xFFFFF
  | .resTime => f.resTime

/-- The value of a source. A field of a header that the packet does not have is open. DESIGN CHOICE: log entry 154. -/
def Flight.src (f : Flight) : Src → Nat
  | .const v => v
  | .header n x =>
    match findHdr f.hv n with
    | some h => fieldAt h.data 0 x
    | none => Config.noHeader n x.off % 2 ^ x.width
  | .valid n => if (findHdr f.hv n).isSome then 1 else 0
  | .offset n => hdrOffset f.hv n
  | .field m => f.md.get m
  | .info x => f.look x
  | .word k => mget f.words k 0
  | .bin o a b =>
    let x := f.src a
    let y := f.src b
    match o with
    | .add => (x + y) % 2 ^ 64
    | .and => x &&& y
    | .or => x ||| y
    | .xor => x ^^^ y

/-- The conditions of an operation hold. -/
def Flight.holds (f : Flight) (l : List Test) : Bool := l.all (fun t => cmpHolds t.cmp (f.src t.a) (f.src t.b))

/-- Write a word of the packet. -/
def Flight.putWord (f : Flight) (k v : Nat) : Flight := { f with words := mset f.words k (v % 2 ^ 64) 0 }

/-- Write consecutive words. -/
def Flight.putWords (f : Flight) (k : Nat) (l : List Nat) : Flight := (l.zipIdx).foldl (fun f e => f.putWord (k + e.2) e.1) f

/-! ### A pass -/

/-- A packet on its pass through pipeline `x` of island `i`: the stage, the uncorrectable words that it meets, the entries that it has
named at ALUs without MERGE, its longest wait at a shared table, its meter operations, and the miss actions of the present stage. -/
structure Pass where
  i : Nat
  x : Nat
  fl : Flight
  faults : List MemFault
  stage : Nat := 0
  names : List (Nat × Nat × Nat) := []
  wait : Nat := 0
  meters : Nat := 0
  missed : List Act := []
deriving DecidableEq, Repr

/-- The pool of the pipeline. -/
def Pass.pool (p : Pass) : Nat := 2 * p.i + p.x / 5

/-- An event of the packet (R324). -/
def State.passEvent (s : State) (p : Pass) (ev arg n : Nat) : State := s.cntIsland p.i p.x ev arg n (some (p.fl.rx, p.fl.md))

/-- The blocks of a shared table serve the entries that the packet reads; it may have to wait (R146). -/
def State.passWait (s : State) (p : Pass) (t : TblLayout) (l : List Nat) : State × Pass :=
  let w := s.sharedWait p.pool p.stage t l
  (w.2, { p with wait := max p.wait w.1 })

/-- A lookup (R128, R142, R143, R147, R323, R324, R437): the word of the hit and the action words of the entry, or the table's miss action. An
entry with an uncorrectable word is lost, and its lookup misses. `seen` is the packet as the part of the stage found it. -/
def State.runLookup (s : State) (seen : Flight) (p : Pass) (k : Lookup) : State × Pass :=
  if p.fl.dead || !seen.holds k.tests then (s, p)
  else
    let s := s.passEvent p 0x04 k.table 1
    let miss (p : Pass) (l : List Act) : Pass := { p with fl := p.fl.putWord k.dst 0, missed := p.missed ++ l }
    match s.layout p.pool k.table with
    | none => (s, miss p [])
    | some l =>
      let key := k.key.map (fun v => seen.src v % 2 ^ 32)
      let (s, p) := s.passWait p l (s.reads p.pool l key)
      match p.faults.findSome? (fun e => match e with
          | .entry t ix => if t = l.num then some ix else none
          | _ => none) with
      | some ix => (s.entryLost p.i (p.x / 5) l.num ix, miss p l.miss)
      | none =>
        match if l.kind ≤ 1 then s.select p.pool l key
              else if s.directHit p.pool l.num (key.headD 0) then some (key.headD 0) else none with
        | none => (s, miss p l.miss)
        | some ix =>
          let w := (s.entry p.pool l.num ix).words.drop (tblActFirst l)
          ((s.countEntry p.pool l ix p.fl.rx.data.length).passEvent p 0x05 l.num 1,
            { p with fl := p.fl.putWords k.dst (1 :: w) })

/-- A meter operation (R157 to R161): the colour, or METER_DROP in wide mode. -/
def State.runMeter (s : State) (p : Pass) (ix : Nat) : State × Pass :=
  let bad := p.faults.findSome? (fun e => match e with
    | .meter j c => if j = ix then some c else none
    | _ => none)
  let s := match bad with
    | some _ => s.event contained (codeOf .pipe p.i 0x81) (4 * 2 ^ 12) ix
    | none => s
  let m := ((s.meter p.i ix).damage bad).refill s.now
  let wide := s.on (F.MTR_CFG_MODE p.i)
  let n := if m.packets then m.unit else (p.fl.rx.data.length + if s.on (F.MTR_CFG_WIRE p.i) then 20 else 0) * m.unit
  let colour (c : Nat) : Pass := { p with fl := { p.fl with md := { p.fl.md with colour := c } } }
  if m.lost then ((s.setMeter p.i ix m).passEvent p 0x0D 0 1, if wide then p else colour 0)
  else if wide then
    if m.lc ≥ n then ((s.setMeter p.i ix { m with lc := m.lc - n }).passEvent p 0x0D 0 1, p)
    else ((s.setMeter p.i ix m).passEvent p 0x0D 2 1, { p with fl := { p.fl with hw := 0x04, dead := true } })
  else
    let (c, m') := m.colour n p.fl.md.colour
    ((s.setMeter p.i ix m').passEvent p 0x0D c 1, colour c)

/-- An action operation (R134, R140, R141, R152, R157). It reads `seen`, the packet as the part of the stage found it. A packet that a stage
has dropped is not worked on further, and a meter operation beyond the second of a pass does nothing. DESIGN CHOICE: log entries 27, 154. -/
def State.runAct (s : State) (seen : Flight) (p : Pass) (a : Act) : State × Pass :=
  if p.fl.dead || !seen.holds a.tests then (s, p)
  else
    let fl := p.fl
    match a.op with
    | .set f v => (s, { p with fl := { fl with md := fl.md.put f (seen.src v) } })
    | .word k v => (s, { p with fl := fl.putWord k (seen.src v) })
    | .header n x v =>
      (s, { p with fl := { fl with hv := fl.hv.map (fun h => if h.inst = some n then { h with data := setField h.data x (seen.src v) } else h) } })
    | .addHeader n after len => (s, { p with fl := { fl with hv := addHdr fl.hv n after len } })
    | .dropHeader n => (s, { p with fl := { fl with hv := fl.hv.filter (fun h => h.inst ≠ some n) } })
    | .group g h dst =>
      let md := { fl.md with group := seen.src g % 2 ^ 12, groupHash := seen.src h % 2 ^ 32 }
      match s.groupPick p.i md.group md.groupHash with
      | .ok (port, data) => (s, { p with fl := { fl with md := { md with egressPort := port } }.putWord dst data })
      | .error c => (s, { p with fl := { fl with md := md, hw := c, dead := true } })
    | .meter ix => if p.meters ≥ 2 then (s, p) else s.runMeter { p with meters := p.meters + 1 } (seen.src ix)
    | .trap r copy =>
      (s, if fl.md.trapMode = 0 then { p with fl := { fl with md := { fl.md with trapReason := r % 64, trapMode := if copy then 2 else 1 } } }
          else p)
    | .drop r => (s, { p with fl := { fl with md := { fl.md with drop := true, dropReason := r % 256 }, dead := true } })
    | .atoll se => (s, { p with fl := { fl with md := { fl.md with atoll := true, session := seen.src se % 2 ^ 12 } } })
    | .recirc =>
      if p.x ≥ 5 then (s, p)
      else if fl.passes ≥ 2 then (s.satAdd (F.PIPE_RECIRC_LIMIT_COUNT (10 * p.i + p.x)) 1, p)
      else (s, { p with fl := { fl with marked := true } })
    | .stamp act off => (s, { p with fl := { fl with stamp := some (act % 4, off) } })
    | .trace t => (s, { p with fl := { fl with trace := some t } })

/-- Several action operations of one part of a stage. -/
def State.runActs (s : State) (seen : Flight) (p : Pass) (l : List Act) : State × Pass :=
  l.foldl (fun r a => r.1.runAct seen r.2 a) (s, p)

/-- An operation of ALU `al` (R142, R148, R150, R151): an index beyond its table is a miss, and an entry that it names without MERGE may make a
packet slip. -/
def State.runAlu (s : State) (seen : Flight) (p : Pass) (al : Nat) (a : Alu) : State × Pass :=
  if p.fl.dead || !seen.holds a.tests then (s, p)
  else
    match s.layout p.pool a.table with
    | none => (s, p)
    | some l =>
      let ix := seen.src a.index
      if l.kind ≠ 3 || ix ≥ tblSize l then s.runActs seen { p with fl := p.fl.putWord a.dst 0 } l.miss
      else
        let (s, p) := s.passWait p l [ix]
        let (old, new, s) := s.aluRun p.i p.x l ix a.op (seen.src a.a) (seen.src a.b)
        (s, { p with fl := p.fl.putWord a.dst (if a.new then new else old),
                     names := if a.merge && mergeable a.op then p.names else p.names ++ [(p.stage, al, ix)] })

/-- A hash computation (R140). -/
def Flight.runHash (f seen : Flight) (h : Hash) : Flight :=
  if f.dead || !seen.holds h.tests then f else f.putWord h.dst (Config.stageHash h.seed (h.key.map seen.src) % 2 ^ 32)

/-- A stage (R140): its lookups, its action operations after the actions of the lookups that have missed, its ALU operations and its
hashes. Each part reads what the parts before it have left. -/
def State.runStage (s : State) (p : Pass) (g : Stage) : State × Pass :=
  let r := g.lookups.foldl (fun r k => r.1.runLookup p.fl r.2 k) (s, { p with missed := [] })
  let r := r.1.runActs r.2.fl r.2 (r.2.missed ++ g.actions)
  let seen := r.2.fl
  let r := (g.alus.zipIdx).foldl (fun r a => r.1.runAlu seen r.2 a.2 a.1) r
  let seen := r.2.fl
  (r.1, { r.2 with fl := g.hashes.foldl (fun f h => f.runHash seen h) r.2.fl })

/-- The program of pipeline `y`. -/
def State.progOf (s : State) (y : Nat) : Program := (mget s.mat.progs y none).getD { id := 0, stages := [] }

/-- A pass of a packet through pipeline `x` of island `i` (R140). DESIGN CHOICE: log entry 27. -/
def State.runProgram (s : State) (i x : Nat) (fl : Flight) (faults : List MemFault) : State × Pass :=
  (((s.progOf (10 * i + x)).stages).zipIdx).foldl (fun r g => r.1.runStage { r.2 with stage := g.2 + 1 } g.1)
    (s.servedPrune, { i := i, x := x, fl := fl, faults := faults })

/-! ### The issue slot -/

/-- The entries that the target's packets have named in this core clock, for a packet of its FENCED reserve (R168). -/
def State.targetNames (s : State) (i x : Nat) : List (Nat × Nat × Nat) :=
  match s.pipeSwap i (x / 5) with
  | some w =>
    let c := s.issueClk (10 * i + w.target)
    if w.resv = x && c.idx = s.coreIdx then c.named else []
  | none => []

/-- A packet that names the ALU entries `names` takes the next issue slot of pipeline `x`; in slot 1 it slips behind the packet of slot 0
that names the same one, and in a reserve behind one of the target (R150, R168). DESIGN CHOICE: log entry 30. -/
def State.takeSlot (s : State) (i x : Nat) (names : List (Nat × Nat × Nat)) : State :=
  let y := 10 * i + x
  let c := s.issueClk y
  let c := if c.idx = s.coreIdx then c else { c with idx := s.coreIdx, named := [] }
  let ahead := (if c.used = 0 then [] else c.acc) ++ s.targetNames i x
  let c := { c with used := c.used + 1, named := c.named ++ names, acc := if c.used = 0 then names else c.acc }
  match names.find? (fun n => ahead.contains n) with
  | none => s.setIssueClk y c
  | some (st, al, ix) =>
    let s := (s.wrapAdd (F.PIPE_HAZARD_COUNT y) 1).wr (F.PIPE_HAZARD_LAST_STAGE y) st
    let s := (s.wr (F.PIPE_HAZARD_LAST_ALU y) al).wr (F.PIPE_HAZARD_LAST_INDEX y) ix
    (s.setIssueClk y { c with slip := some (names.filter (fun n => n.1 ≥ st)) }).cntIsland i x 0x06 st 1

/-- A packet that has made its pass takes its slot (R138, R146, R150): a wait beyond the slack of two clocks stalls the pipeline. -/
def State.takeIssue (s : State) (p : Pass) : State :=
  let y := 10 * p.i + p.x
  let s := s.takeSlot p.i p.x p.names
  let s := (s.slots p.i p.x 0 1).passEvent p 0x03 0 1
  if p.wait ≤ 2 then s
  else
    let n := p.wait - 2
    let c := s.issueClk y
    ((s.setIssueClk y { c with stall := c.stall + n }).satAdd (F.PIPE_BANK_STALL_COUNT y) n).cntIsland p.i p.x 0x07 0 n

/-- The present clock of pipeline `x` of island `i` ends: a packet that has slipped takes the first slot of the next (R150). -/
def State.nextClock (s : State) (i x : Nat) : State :=
  let y := 10 * i + x
  let c := s.issueClk y
  let s := s.setIssueClk y
    { c with used := if c.slip.isSome then 1 else 0, hazard := c.slip.isSome, acc := c.slip.getD [], slip := none,
             phase := (c.phase + 1) % 16, clock := c.clock + 1 }
  if c.slip.isSome then s.slots i x 1 1 else s

/-- Of the `n` clocks after phase `ph`, those whose slots the duty `d` removes (R368). -/
def throttled (ph d n : Nat) : Nat := n / 16 * (16 - min d 16) + ((List.range (n % 16)).filter (fun k => (ph + 1 + k) % 16 ≥ d)).length

/-- An egress pipeline comes to the present core clock: the slots that the clocks since its last decision have left empty count as
FRONT_STARVED, or as THROTTLE where the duty has removed them (R141, R327). DESIGN CHOICE: log entry 156. -/
def State.egressClock (s : State) (i x : Nat) : State :=
  let y := 10 * i + x
  let c := s.issueClk y
  if c.idx = s.coreIdx then s
  else
    let n := if c.idx < s.coreIdx then s.coreIdx - c.idx else 1
    let cut := throttled c.phase (s.rd F.PWR_STATUS_DUTY) (n - 1)
    let s := s.slots i x 4 (2 - c.used + 2 * (n - 1 - cut))
    let s := (s.slots i x 3 (2 * cut)).cntGlobal 0x69 0 (2 * cut)
    let s := s.cntIsland i x 0x01 0 n
    let s := s.setIssueClk y { s.issueClk y with phase := (c.phase + n - 1) % 16, clock := c.clock + n - 1, idx := s.coreIdx, named := [] }
    s.nextClock i x

/-- A packet of pipeline `y` as it comes to admission, or to a trap. -/
def State.arrival (_s : State) (y : Nat) (rx : RxFrame) (md : Meta) (sub : Nat) : Arrival :=
  { data := rx.data, md := md, inPort := rx.port, host := rx.host, ts := rx.ts, tsB := rx.tsB, t16 := rx.t16,
    die := y / 80, src := y, sub := sub, payOff := rx.payOff }

/-- What a drop in the ingress pipelines reports of a packet. -/
def Flight.info (f : Flight) : DropInfo :=
  { inPort := f.rx.port, host := f.rx.host, data := f.rx.data, md := f.md, ts := f.rx.ts }

/-- The samples of R326 that wait go to their rings through trap reason 6 (COUNTER_SAMPLE) of their islands. -/
def State.flushSamples (s : State) (sub : Nat) : State :=
  let l := s.tel.samples
  let s := s.updTel (fun t => { t with samples := [] })
  l.foldl (fun s (y, ring, rx, md) =>
    s.trapPass (y / 10) (y % 10) 6 (some ring)
      (s.arrival y { rx with data := rx.data.take 128 } { md with trapReason := 6, trapMode := 2 } sub)) s

end Sys2Proof.Machine
end

