-- ==== Sys2Proof/Machine/Parser.lean ====
section
/-! DEFINITION. The parse machine (R116 to R123), payload patterns (R124 to R127), classifier updates (R128 to R133), trap
limiters (R135) and meter commands (R161). -/

namespace Sys2Proof.Machine

/-! ### The parse machine -/

/-- One past the last byte of a field. -/
def fieldEnd (off : Nat) (x : BitField) : Nat := off + x.off + fieldSpan x

/-- A state number or a select field's value matches its part of a key (R119): each bit under the mask equals that of the key's value, or of
the parser value that stands in for it. -/
def State.keyMatch (s : State) (y : Nat) (k : KeyPart) (v : Nat) : Bool :=
  let fixed := k.pvs.foldl (fun m e => m - (m &&& e.2)) k.mask
  (v &&& fixed) = (k.value &&& fixed) &&
    k.pvs.all (fun e => (v &&& (k.mask &&& e.2)) = (s.rd (F.PRS_VALUE_VALUE (16 * y + e.1 % 16)) &&& (k.mask &&& e.2)))

/-- The next step of a walk from state `st` (R119): the matching entry with the lowest index, else the default. -/
def State.parseNext (s : State) (y : Nat) (g : ParseGraph) (st : Nat) (p : ParseState) (f : Bytes) (off : Nat) : Next :=
  let v (x : Option BitField) : Nat := match x with
    | some b => fieldAt f off b
    | none => 0
  match g.trans.find? (fun t => s.keyMatch y t.state st && s.keyMatch y t.k0 (v p.sel0) && s.keyMatch y t.k1 (v p.sel1)) with
  | some t => t.next
  | none => p.dflt

/-- How a walk ended: the header vector, the offset at which it stopped, its steps, and the reason and state of a failure. -/
structure Walk where
  hdrs : List Hdr
  off : Nat
  steps : Nat
  fail : Option (Nat × Nat)
deriving DecidableEq, Repr

/-- The reason for which a step fails before its transition (R122), in the order of that rule. DESIGN CHOICE: log entry 25. -/
def stepFault (p : ParseState) (f : Bytes) (off : Nat) (hdrs : List Hdr) (len : Nat) : Option Nat :=
  let ends := (off + len) :: ([p.sel0, p.sel1].filterMap id).map (fieldEnd off)
  if ends.any (fun e => e > 512) then some 0
  else if ends.any (fun e => e > f.length - 4) then some 3
  else if p.extract.any (fun h => (findHdr hdrs h).isSome) then some 1
  else if len = 0 then some 4
  else none

/-- The header length of a state (R118). DESIGN CHOICE: log entry 25. -/
def headerLen (p : ParseState) (f : Bytes) (off : Nat) : Nat :=
  p.lenBase + (match p.lenField with
    | some b => p.lenScale * fieldAt f off b
    | none => 0)

/-- The walk of graph `g` of pipeline `y` over frame `f`, FCS included (R117 to R122), from step 65 − `n`. DESIGN CHOICE: log entry 25. -/
def State.walk (s : State) (y : Nat) (g : ParseGraph) (f : Bytes) : Nat → Nat → Nat → List Hdr → Walk
  | 0, st, off, hdrs => { hdrs := hdrs, off := off, steps := 64, fail := some (5, st) }
  | n + 1, st, off, hdrs =>
    let stop (c : Nat) : Walk := { hdrs := hdrs, off := off, steps := 64 - n, fail := some (c, st) }
    match g.states[st]? with
    | none => stop 2
    | some p =>
      let len := headerLen p f off
      match stepFault p f off hdrs len with
      | some c => stop c
      | none =>
        let hdrs' := hdrs ++ [{ inst := p.extract, data := slice f off (min len 64), rest := slice f (off + 64) (len - 64) }]
        match s.parseNext y g st p f off with
        | .fail => stop 2
        | .accept => { hdrs := hdrs', off := off + len, steps := 64 - n, fail := none }
        | .goto st' => if n = 0 then stop 5 else s.walk y g f n st' (off + len) hdrs'

/-- The parse of frame `f` in pipeline `y`, with its counters (R116, R120, R123); a pipeline without a graph extracts
nothing. -/
def State.parse (s : State) (y : Nat) (f : Bytes) : Walk × State :=
  match mget s.mat.graphs y none with
  | none => ({ hdrs := [], off := 0, steps := 0, fail := none }, s)
  | some g =>
    let w := s.walk y g f 64 0 0 []
    let s := s.wrapAdd (F.PRS_STEPS_STEPS y) w.steps
    let s := s.wr (F.PRS_STATUS_MAX_STEPS y) (max (s.rd (F.PRS_STATUS_MAX_STEPS y)) (min w.steps 63))
    match w.fail with
    | none => (w, s)
    | some (c, st) =>
      let s := (s.wr (F.PRS_STATUS_LAST_FAIL y) c).wr (F.PRS_STATUS_LAST_STATE y) st
      (w, (s.satAdd (F.PRS_FAIL_CNT_COUNT (16 * y + c)) 1).cntIsland (y / 10) (y % 10) 0x09 c 1)

/-- The action of pipeline `y` at failure reason `c` (R122): TRAP when the image assigns none. -/
def State.failAction (s : State) (y c : Nat) : FailAct :=
  match mget s.mat.graphs y none with
  | some g => g.fails.getD c .trap
  | none => .trap

/-! ### Payload patterns -/

/-- Pattern `p` matches in `f` with end offset `e` (R125). -/
def patternAt (p : Pattern) (f : Bytes) (e : Nat) : Bool :=
  let n := p.value.length
  n ≠ 0 && n ≤ e + 1 && p.endMin ≤ e && e ≤ p.endMax &&
    (List.range n).all (fun k =>
      (f.getD (e + 1 - n + k) 0 &&& p.mask.getD k 0) = (p.value.getD k 0 &&& p.mask.getD k 0))

/-- Every match of a pattern set in the scanned bytes, by end offset and then by number: pattern number and group. -/
def scanAll (ps : List Pattern) (f : Bytes) : List (Nat × Nat) :=
  (List.range (min 512 (f.length - 4))).flatMap (fun e =>
    (ps.zipIdx).filterMap (fun (p, k) => if patternAt p f e then some (k, p.group) else none))

/-- PPE_GROUPS of a list of matches. -/
def groupBits (l : List (Nat × Nat)) : Nat := l.foldl (fun a m => setBit a m.2 true) 0

/-- The bank that scans a frame whose first byte came at tick `begun` (R127): every later switch is undone. DEDUCED: log entry 26. -/
def State.ppeBank (s : State) (i begun : Nat) : Nat :=
  (s.rd (F.PPE_BANK_ACTIVE i) + ((mget s.mat.flips i []).filter (fun t => begun < t)).length) % 2

/-- The scan of a frame of scan lane `k` of island `i` (R124, R126). -/
def State.scan (s : State) (i k x : Nat) (r : RxFrame) : RxFrame × State :=
  let l := scanAll (mget s.mat.patterns (2 * i + s.ppeBank i r.begun) []) r.data
  let firsts := (l.map (fun m => m.1)).eraseDups.take 4
  let s := if l.isEmpty then s else s.wrapAdd (F.PPE_MATCH_PKTS_COUNT (4 * i + k)) 1
  let s := l.foldl (fun s m => s.cntIsland i x 0x0A m.2 1) s
  ({ r with ppeCount := min l.length 15, ppeGroups := groupBits l,
            ppeFirst := firsts ++ List.replicate (4 - firsts.length) 0x7FF }, s)

/-- PPE_BANK_SWITCH (R127): a write to PPE_BANK.ACTIVE. DEDUCED: log entry 26. -/
def execPpeBankSwitch (q : Requester) (i : Fin 16) (active : Bool) (s : State) : Result := if !s.grants q false then .next s else
  .next (
    if s.on (F.PPE_BANK_ACTIVE i) = active then s
    else if !s.on (F.PPE_BANK_SHADOW_OK i) || s.on (F.PPE_BANK_LOADING i) then s.locked q .PPE_BANK i 1
    else
      let s := (s.wrB (F.PPE_BANK_ACTIVE i) active).satAdd (F.PPE_BANK_FLIPS i) 1
      (s.updMat (fun m => { m with flips := mset m.flips i (s.now :: (mget m.flips i []).filter (fun t => s.now - t ≤ 2 ^ 20)) [] })).raise .prs i 2)

/-! ### Classifier updates -/

/-- The write engine of a pool has a command that has not yet taken effect: it accepts one every 25 ns, 40 ticks (R132). DEDUCED: log entry
28. -/
def State.clsBusy (s : State) (pool : Nat) : Bool := s.now < s.ranAt .cls pool

/-- RESULT and VALID of the last command of a write engine. -/
def State.clsResult (s : State) (pool r : Nat) (valid : Bool) : State :=
  (s.wr (F.CLS_WR_STATUS_RESULT pool) r).wrB (F.CLS_WR_STATUS_VALID pool) valid

/-- Words `a` to `b` of an entry replaced by those of CLS_WR_DATA. -/
def State.takeWords (s : State) (pool size : Nat) (old : List Nat) (a b : Nat) : List Nat :=
  (List.range size).map (fun k => if a ≤ k && k ≤ b then s.rd (F.CLS_WR_DATA_WORD (32 * pool + k)) else old.getD k 0)

/-- A command at the write engine of pool 2 i + d (R130 to R132): BUSY, the table and the index are checked, `ok` gives the entry's validity
for which the command is allowed, and `f` its effect on the entry. DEDUCED: log entry 28. -/
def State.clsCommand (s : State) (q : Requester) (pool : Nat) (ok : Bool → Bool)
    (f : State → TblLayout → ClsEntry → ClsEntry) : State :=
  if s.clsBusy pool then s.wr (F.CLS_WR_STATUS_RESULT pool) 2
  else
    let s := s.ran .cls pool (s.now + 40)
    let t := s.rd (F.CLS_WR_TARGET_TABLE pool)
    let ix := s.rd (F.CLS_WR_TARGET_INDEX pool)
    match s.layout pool t with
    | none => s.wr (F.CLS_WR_STATUS_RESULT pool) 3
    | some l =>
      if ix ≥ tblSize l then s.wr (F.CLS_WR_STATUS_RESULT pool) 4
      else
        let e := s.entry pool t ix
        if ok e.valid then
          let e' := f s l e
          (s.setEntry pool t ix e').clsResult pool 0 e'.valid
        else ((s.clsResult pool 1 e.valid).locked q .CLS_WR_CMD pool 1).raise .prs (pool / 2) 1

/-- CLS_WRITE_DATA (R130, R131): words `first` to `last` of an invalid entry, a `last` beyond the entry acting as its last
word. -/
def execClsWriteData (q : Requester) (i : Fin 16) (d : Fin 2) (first last : Fin 32) (s : State) : Result := if !s.grants q false then .next s else
  .next (s.clsCommand q (2 * i + d) (fun v => !v)
    (fun s l e => { e with words := s.takeWords (2 * i + d) (tblWords l) e.words first last }))

/-- CLS_SET_VALID (R130, R131). -/
def execClsSetValid (q : Requester) (i : Fin 16) (d : Fin 2) (s : State) : Result := if !s.grants q false then .next s else
  .next (s.clsCommand q (2 * i + d) (fun v => !v) (fun _ _ e => { e with valid := true }))

/-- CLS_CLEAR_VALID (R130, R131). -/
def execClsClearValid (q : Requester) (i : Fin 16) (d : Fin 2) (s : State) : Result := if !s.grants q false then .next s else
  .next (s.clsCommand q (2 * i + d) (fun v => v) (fun _ _ e => { e with valid := false }))

/-- CLS_WRITE_ACTION (R130): every action word at once. -/
def execClsWriteAction (q : Requester) (i : Fin 16) (d : Fin 2) (s : State) : Result := if !s.grants q false then .next s else
  .next (s.clsCommand q (2 * i + d) (fun _ => true)
    (fun s l e => { e with words := s.takeWords (2 * i + d) (tblWords l) e.words (tblActFirst l) (tblWords l) }))

/-- Copy an entry's words to CLS_WR_DATA. -/
def State.showEntry (s : State) (pool : Nat) : State :=
  let t := s.rd (F.CLS_WR_TARGET_TABLE pool)
  let ix := s.rd (F.CLS_WR_TARGET_INDEX pool)
  match s.layout pool t with
  | none => s
  | some l =>
    if ix ≥ tblSize l then s
    else (List.range (tblWords l)).foldl (fun s k =>
      s.wr (F.CLS_WR_DATA_WORD (32 * pool + k)) ((s.entry pool t ix).words.getD k 0)) s

/-- CLS_READ (R130): the entry to CLS_WR_DATA and its valid bit to CLS_WR_STATUS. -/
def execClsRead (q : Requester) (i : Fin 16) (d : Fin 2) (s : State) : Result := if !s.grants q false then .next s else
  .next (
    let s' := s.clsCommand q (2 * i + d) (fun _ => true) (fun _ _ e => e)
    if s.clsBusy (2 * i + d) then s' else s'.showEntry (2 * i + d))

/-! ### Trap limiters -/

/-- TRAP_REFILL (R135, R136): once per µs RATE units are added, up to BURST packets, a BURST of 0 acting as 1. DESIGN CHOICE: log entry 133.
-/
def execTrapRefill (i : Fin 16) (r : Fin 64) (s : State) : Result :=
  .next (
    let n := 64 * i.val + r.val
    if s.due .trap n 1600 then
      let cap := max 1 (s.rd (F.TRAP_CFG_BURST n)) * 1000000
      let l := min cap (s.trapLevel i r + min (s.rd (F.TRAP_RATE_RATE n)) 1000000)
      (s.updMat (fun m => { m with trapLevel := mset m.trapLevel n l (64 * 1000000) })).ran .trap n (s.ranAt .trap n + 1600)
    else s)

/-! ### Meter commands -/

/-- The configuration that MTR_DATA spells (R158, R161). -/
def State.meterConfig (s : State) (i : Nat) : Meter :=
  let w (k : Nat) : Nat := s.rd (F.MTR_DATA_WORD (8 * i + k))
  if s.on (F.MTR_CFG_MODE i) then
    { packets := bit (w 0) 2, cir := clampRate (w 1), cbs := w 2 % 2 ^ 24 }
  else
    { twoRate := bit (w 0) 0, aware := bit (w 0) 1, packets := bit (w 0) 2, cir := clampRate (w 1), cbs := w 2 % 2 ^ 24,
      eir := clampRate (w 3), ebs := w 4 % 2 ^ 24 }

/-- A meter command of island `i` (R161): BUSY and the index are checked, then `f` acts on the meter. DEDUCED: log entry 28. -/
def State.mtrCommand (s : State) (i : Nat) (f : State → Meter → Meter × State) : State :=
  if s.now < s.ranAt .mtr i then s.wr (F.MTR_STATUS_RESULT i) 2
  else
    let s := s.ran .mtr i (s.now + 40)
    let ix := s.rd (F.MTR_TARGET_INDEX i)
    if ix ≥ (if s.on (F.MTR_CFG_MODE i) then 262144 else 65536) then s.wr (F.MTR_STATUS_RESULT i) 1
    else
      let r := f s (s.meter i ix)
      (r.2.setMeter i ix r.1).wr (F.MTR_STATUS_RESULT i) 0

/-- MTR_WRITE (R161): the configuration is set and both buckets are filled to their bursts. -/
def execMtrWrite (q : Requester) (i : Fin 16) (s : State) : Result := if !s.grants q false then .next s else
  .next (s.mtrCommand i (fun s _ =>
    let m := s.meterConfig i
    ({ m with lc := m.cbs * m.unit, le := m.ebs * m.unit, last := s.now }, s)))

/-- A level moved from the unit of one meter to that of another. -/
def moveLevel (l : Nat) (old new : Meter) : Nat := l / old.unit * new.unit + l % old.unit * new.unit / old.unit

/-- MTR_WRITE_KEEP (R161): the configuration is set and the levels stay, lowered to the new bursts. DEDUCED: log entry 29. -/
def execMtrWriteKeep (q : Requester) (i : Fin 16) (s : State) : Result := if !s.grants q false then .next s else
  .next (s.mtrCommand i (fun s old =>
    let old := old.refill s.now
    let m := s.meterConfig i
    ({ m with lc := min (moveLevel old.lc old m) (m.cbs * m.unit), le := min (moveLevel old.le old m) (m.ebs * m.unit),
              last := s.now }, s)))

/-- MTR_READ (R161): the configuration and the levels, in whole bytes or packets, to MTR_DATA. DEDUCED: log entry 29. -/
def execMtrRead (q : Requester) (i : Fin 16) (s : State) : Result := if !s.grants q false then .next s else
  .next (s.mtrCommand i (fun s old =>
    let m := old.refill s.now
    let b (x : Bool) (k : Nat) : Nat := if x then 2 ^ k else 0
    let ws := [b m.twoRate 0 + b m.aware 1 + b m.packets 2, m.cir, m.cbs, m.eir, m.ebs, 0, m.lc / m.unit,
               if s.on (F.MTR_CFG_MODE i) then 0 else m.le / m.unit]
    (m, (List.range 8).foldl (fun s k => s.wr (F.MTR_DATA_WORD (8 * i + k)) (ws.getD k 0)) s)))

end Sys2Proof.Machine
end

