-- ==== Sys2Proof/Machine/Receive.lean ====
section
/-! DEFINITION. Receiving a frame (R92 to R95, R121) and issue into the ingress pipelines (R138 to R151, R166 to R168). -/

namespace Sys2Proof.Machine

/-! ### Receiving -/

/-- The tick at which the first byte of a frame of `len` octets reached port `p`, whose last bit arrives now. DESIGN CHOICE: log entry 22.
-/
def State.frameBegun (s : State) (p len : Nat) : Nat := s.now - len * 64 / (5 * max 1 (s.portSpeed p))

/-- DELIVER_BAD as it holds for a frame whose first bit came at tick `begun` (R94): the value that ended first after that tick, or the present
one. -/
def State.deliverBad (s : State) (p begun : Nat) : Bool :=
  match ((s.px p).deliverOld.filter (fun e => begun < e.1)).getLast? with
  | some e => e.2
  | none => s.on (F.MAC_RX_CFG_DELIVER_BAD p)

/-- Bytes in the MAC receive buffer of group `g` of island `i` (R95). -/
def State.rxBytes (s : State) (i g : Nat) : Nat :=
  (List.range 5).foldl (fun a x =>
    (s.rxq (10 * i + x)).foldl (fun a r => if r.port % 32 / 8 = g then a + r.data.length else a) a) 0

/-- A frame joins those that wait for pipeline `y`: behind those that were ready in an earlier core clock, and among those of the same clock
in order of port number (R138). -/
def State.rxqAdd (s : State) (y : Nat) (r : RxFrame) : List RxFrame :=
  let later (e : RxFrame) : Bool := s.coreClocks e.ready = s.coreClocks r.ready && r.port < e.port
  let tail := ((s.rxq y).reverse.takeWhile later).reverse
  (s.rxq y).take ((s.rxq y).length - tail.length) ++ [r] ++ tail

/-- A parsed and scanned frame goes on as its parse decides (R123): to its pipeline, to a drop, or to the CPU. -/
def State.parsed (s : State) (y : Nat) (r : RxFrame) (w : Walk) (sub : Nat) : State :=
  let queued (s : State) : State := s.setRxq y (s.rxqAdd y r)
  match w.fail with
  | none => queued s
  | some (c, _) =>
    let md : Meta := { parseFail := c, badFrame := r.bad }
    match s.failAction y c with
    | .cont => queued s
    | .drop =>
      (s.raise .prs (y / 10) 0).pipeDrop (y / 10) (y % 10) 0x02
        { inPort := r.port, host := r.host, data := r.data, md := md, ts := r.ts, early := true }
    | .trap =>
      (s.raise .prs (y / 10) 0).trapPass (y / 10) (y % 10) c none
        (s.arrival y r { md with trapReason := c, trapMode := 1 } sub)

/-- A frame of port `p` enters the ingress pipeline that serves the port's group, through its parser and the payload pattern
engine (R95, R116, R121, R124, R164). -/
def State.takeFrame (s : State) (r : RxFrame) (sub : Nat) : State :=
  let i := r.port / 32
  let g := r.port % 32 / 8
  match s.servePipe i 0 g r.begun with
  | none =>
    s.drop 0x05 { inPort := r.port, host := r.host, data := r.data, md := { badFrame := r.bad }, ts := r.ts, early := true }
  | some x =>
    let y := 10 * i + x
    let (w, s) := s.parse y r.data
    let (r, s) := s.scan i g x { r with hdrs := w.hdrs, payOff := w.off,
                                        pfail := match w.fail with
                                          | some f => f.1
                                          | none => 0xF }
    let s := (s.cntIsland i x 0x0E (r.port % 32) 1).cntIsland i x 0x0F (r.port % 32) r.data.length
    (s.parsed y r w sub).flushSamples sub

/-- The lane from which port `p` took logical lane `k` at tick `t`: after step 4 of a swap the hot spare (R70, R349). -/
def State.rxLane (s : State) (p k t : Nat) : Nat :=
  let present := match s.swapOf p with
    | some x => if x.logical = k && x.switched then x.spare else s.laneOf p k
    | none => s.laneOf p k
  match (s.px p).rxOld with
  | some (j, l, since) => if j = k && t < since then l else present
  | none => present

/-- A frame timed at sixteenth `t` of LIGHT_TICKS, with a delay in ps (R305, R337). -/
def State.frameAt (s : State) (p : Nat) (data : Bytes) (bad : Bool) (begun t : Nat) (delay : Int) : RxFrame :=
  { port := p, host := false, data := data, bad := bad, ts := s.stamp 0 (s.now - t / 16) (t % 16) delay,
    tsB := s.stamp 1 (s.now - t / 16) (t % 16) delay, t16 := t, begun := begun, hdrs := [], payOff := 0, pfail := 0xF, ready := s.now }

/-- A received frame with its timestamps, before its parse (R305, R347, R349): from the tick `begun` in which its first block was decoded,
on logical lane `k` with receive phase `sub`, less the fixed latency of the lane that carried it. DESIGN CHOICE: log entry 151. -/
def State.stamped (s : State) (p : Nat) (data : Bytes) (bad : Bool) (begun k sub : Nat) : RxFrame :=
  s.frameAt p data bad begun
    (begun * 16 + sub - Config.laneLatency (s.rxLane p k begun) (4 * s.rd (F.PORT_CFG_MODE p) + s.rd (F.PORT_CFG_FEC p)))
    (sext 16 (s.rd (F.LIGHT_PORT_DELAY_RX_DELAY p)))

/-! ### The Strait PCS, receive side (R49, R86 to R90) -/

/-- A codeword received on logical lane `k` of Strait port `p`, in level pairs: corner pairs and corrected symbols count, the window of the
lane takes its bits, and its blocks wait for their turn. -/
def State.readCodeword (s : State) (p k : Nat) (l : List (Nat × Nat)) : State :=
  let lane := s.rxLane p k s.now
  let (corners, blocks, fixed) := codewordRead l
  let s := s.satAdd (F.LANE_ERR_CNT_CORNER lane) corners
  let s := s.updPort p (fun y =>
    let q := y.pcs
    { y with pcs := { q with rxLanes := mset q.rxLanes k (mget q.rxLanes k [] ++ blocks.map (fun b => (fixed.isNone, b))) [] } })
  match fixed with
  | some (sy, bi) =>
    (s.updLane lane (fun x => { x with winBits := x.winBits + bi, winCorr := x.winCorr + (if sy = 0 then 0 else 1) })).symbolsFixed p lane sy
  | none => s.updLane lane (fun x => { x with winBad := x.winBad + 1 })

/-- Up to `n` blocks in the order of their dealing, descrambled; those of an uncorrectable codeword as error blocks (R87, R89). -/
def State.collectBlocks (s : State) (p : Nat) : Nat → State
  | 0 => s
  | n + 1 =>
    let q := (s.px p).pcs
    let k := q.rxCount % s.portWidth p
    match mget q.rxLanes k [] with
    | [] => s
    | (bad, b) :: t =>
      let r := unscramble q.rxScr b
      let x := readBlock (if bad then errorBlock else r.2)
      (s.updPort p (fun y =>
        { y with pcs := { q with rxScr := r.1, rxCount := q.rxCount + 1, rxLanes := mset q.rxLanes k t [],
                                 rxBlocks := q.rxBlocks ++ [(k, x)] } })).collectBlocks p n

/-- The codewords that the logical lanes of Strait port `p` have received, in level pairs, and the first frame that they complete. -/
def State.readPairs (s : State) (p : Nat) (lanes : List (List (Nat × Nat))) : Option RxPart × State :=
  let s := (List.range (s.portWidth p)).foldl (fun s k => (chunks 1088 (lanes.getD k [])).foldl (fun s l => s.readCodeword p k l) s) s
  let s := s.collectBlocks p ((s.px p).pcs.rxLanes.map (fun e => e.2.length)).sum
  let r := takeFrameBlocks (s.px p).pcs.rxFrame (s.px p).pcs.rxBlocks
  (r.1, s.updPort p (fun y => { y with pcs := { y.pcs with rxFrame := r.2.1, rxBlocks := r.2.2 } }))

/-- The frame that a reception gives, and the state after its line coding. -/
def State.readFrame (s : State) (p : Nat) (rx : Reception) : Option RxPart × State :=
  match rx with
  | .octets data coding lane => (some { data := data, coding := coding, lane := lane }, s)
  | .pairs lanes => if s.strait p then s.readPairs p (lanes.map (fun l => l.map (fun x => (x.1.val, x.2.val)))) else (none, s)

/-- A frame from the host reaches the ingress pipeline of its port: it is parsed as if it had arrived there, and waits for an issue slot
(R42). DEDUCED: log entry 84. -/
def State.injectHere (s : State) (r : RxFrame) (sub : Nat) : State :=
  let i := r.port / 32
  let g := r.port % 32 / 8
  match s.servePipe i 0 g s.now with
  | none => s.drop 0x05 { inPort := r.port, host := true, data := r.data, md := {}, ts := r.ts, early := true }
  | some x =>
    let y := 10 * i + x
    let (w, s) := s.parse y r.data
    let (r, s) := s.scan i g x { r with hdrs := w.hdrs, payOff := w.off, pfail := match w.fail with
                                                                          | some f => f.1
                                                                          | none => 0xF }
    let goes : Bool := match w.fail with
      | none => true
      | some (c, _) => s.failAction y c = .cont
    if goes then s.updPath (fun q => { q with inject := mset q.inject y (mget q.inject y [] ++ [(s.now, false, r)]) [] })
    else (s.parsed y r w sub).flushSamples sub

/-! ### Issue -/

/-- Some cell of a packet, or an Atoll frame, of pipeline `y` waits for want of credit on its virtual channel (R34, R297). -/
def State.creditStall (s : State) (y : Nat) : Bool :=
  let d := y / 80
  (s.cwayStall d &&
    (s.cwayWait d 1).any (fun b => match b with
      | .cellWr k _ => s.path.held.any (fun h => h.pkt = k && (Nat.unpair h.stream).1 = y)
      | _ => false)) ||
  (s.cwayWait d 4).any (fun b => match b with
      | .atoll k _ => ((mfind s.path.cway.atl k).map (fun e => e.2.src)) = some y
      | _ => false)

/-- The drain fence keeps pipeline `y` from issuing (R167, R168): its buffer of 64 KiB is full, or QUIESCE waits for the
target. -/
def State.fenceStall (s : State) (i x : Nat) : Bool :=
  let y := 10 * i + x
  s.pipeState y = 3 &&
    ((s.fenced y).foldl (fun a f => a + f.2.rx.data.length) 0 ≥ 65536 ||
      (s.on (F.PIPE_SWAP_CFG_QUIESCE (2 * i + x / 5)) &&
        (s.pipeSwap i (x / 5)).any (fun w =>
          !(s.flights (10 * i + w.target)).isEmpty || !(s.rxq (10 * i + w.target)).isEmpty ||
            !(mget s.path.inject (10 * i + w.target) []).isEmpty)))

/-- A packet enters stage 1 of ingress pipeline `x` and makes its pass (R138, R140); a mark reserves a slot 144 core clocks on (R141). -/
def State.enter (s : State) (i x : Nat) (fl : Flight) (faults : List MemFault) : State :=
  let y := 10 * i + x
  let (s, p) := s.runProgram i x fl faults
  let s := s.takeIssue p
  let s := s.setFlights y (s.flights y ++ [p.fl])
  let c := s.issueClk y
  if p.fl.marked then s.setIssueClk y { c with reserved := c.reserved ++ [c.clock + 144] } else s

/-- The frame that takes the next free slot of pipeline `y` (R42, R138): a host frame whose wait is over, then the MAC's, then a
host frame in a slot that the lanes leave empty. -/
def State.nextFrame (s : State) (y : Nat) : Option (RxFrame × State) :=
  let inj := mget s.path.inject y []
  let fromHost (k : Nat) : Option (RxFrame × State) :=
    (inj[k]?).map (fun e =>
      ({ e.2.2 with begun := s.now }, s.updPath (fun p => { p with inject := mset p.inject y (inj.eraseIdx k) [] })))
  match inj.findIdx? (fun e => e.2.1) with
  | some k => fromHost k
  | none =>
    match s.rxq y with
    | r :: t => some (r, s.setRxq y t)
    | [] => fromHost 0

/-- A frame as it enters stage 1 for the first time (R156). -/
def firstFlight (r : RxFrame) : Flight :=
  { rx := r, md := { parseFail := r.pfail, badFrame := r.bad }, passes := 0, marked := false, dead := false, hv := r.hdrs }

/-- Issue up to `n` frames; the rest of the slots is FRONT_STARVED. -/
def State.issueFrames (s : State) (i x : Nat) : Nat → List (List MemFault) → State
  | 0, _ => s
  | n + 1, fs =>
    match s.nextFrame (10 * i + x) with
    | none => s.slots i x 4 (n + 1)
    | some (r, s) => (s.enter i x (firstFlight r) (fs.headD [])).issueFrames i x n fs.tail

/-- Reservations of pipeline `y` whose clock has come (R141). -/
def State.reservedNow (s : State) (y : Nat) : Nat := ((s.issueClk y).reserved.filter (fun t => t ≤ (s.issueClk y).clock)).length

/-- The slots of the reservations whose clock has come, as far as the clock has any, stay empty (R141). -/
def State.reservedEmpty (s : State) (i x : Nat) : State :=
  let y := 10 * i + x
  let c := s.issueClk y
  let n := min (s.reservedNow y) (2 - c.used)
  (s.setIssueClk y { c with used := c.used + n, reserved := c.reserved.drop n }).slots i x 2 n

/-- The slots of a clock of ingress pipeline `x` that no reservation takes: lost to the duty throttle (R368), to a stop, a Causeway stall or
the fence (R34, R167), to a shared-table stall (R146), or for the frames that wait. -/
def State.issueClock (s : State) (i x : Nat) (faults : List (List MemFault)) : State :=
  let y := 10 * i + x
  let c := s.issueClk y
  let free := 2 - c.used
  if free = 0 then s
  else if c.phase ≥ s.rd F.PWR_STATUS_DUTY then (s.slots i x 3 free).cntGlobal 0x69 0 free
  else if s.stopped || s.creditStall y || s.fenceStall i x then s.slots i x 5 free
  else if c.stall > 0 then (s.setIssueClk y { c with stall := c.stall - 1 }).slots i x 5 free
  else
    let s := s.reservedEmpty i x
    s.issueFrames i x (2 - (s.issueClk y).used) faults

/-- INGRESS_ISSUE (R138, R141, R327): one core clock of ingress pipeline `x` of island `i`. `faults` are the uncorrectable words that the
packets issued find, in slot order (R437). A reserved slot that RECIRC_ISSUE has not taken in this clock stays empty. Each clock adds 2 to the
top-down classes. -/
def execIngressIssue (i : Fin 16) (x : Fin 5) (faults : List (List MemFault)) (s : State) : Result :=
  .next (
    let y := 10 * i.val + x.val
    if s.pipeState y ≠ 0 && s.pipeState y ≠ 3 then s
    else (((s.cntIsland i x 0x01 0 1).issueClock i x faults).nextClock i x).flushSamples 0)

/-- RECIRC_ISSUE (R141): the marked packet at the end of stage 24 of ingress pipeline `x` takes its reserved slot of the present
clock and enters stage 1 again; the slot of a packet that a stage has dropped stays empty. `faults` are the uncorrectable words that it
finds. -/
def execRecircIssue (i : Fin 16) (x : Fin 5) (faults : List MemFault) (s : State) : Result :=
  .next (
    let y := 10 * i.val + x.val
    let c := s.issueClk y
    match s.flights y with
    | [] => s
    | fl :: t =>
      if !fl.marked || c.used ≥ 2 || s.stopped || c.reserved.headD 0 > c.clock then s
      else
        let s := s.setIssueClk y { c with reserved := c.reserved.drop 1 }
        if fl.dead || fl.md.drop then
          ((s.takeSlot i x []).slots i x 2 1).setFlights y ({ fl with marked := false } :: t)
        else
          let s := (s.setFlights y t).cntIsland i x 0x08 0 1 (some (fl.rx, fl.md))
          (s.enter i x { fl with marked := false, passes := fl.passes + 1 } faults).flushSamples 0)

end Sys2Proof.Machine
end

