-- ==== Sys2Proof/Machine/AtollOps.lean ====
section
/-! DEFINITION. Atoll: recognition and hand-off, sessions, roles, chunk state, and the frames it sends (R271 to R302). -/

namespace Sys2Proof.Machine

/-- Update Atoll's hidden state. -/
def State.updAtl (s : State) (f : AtlSt → AtlSt) : State := { s with atl := f s.atl }

/-- What session `n` holds beside its registers. -/
def State.sess (s : State) (n : Nat) : Sess := mget s.atl.sess n {}

/-- Replace it, keeping OPEN_CHUNKS in line. -/
def State.setSess (s : State) (n : Nat) (x : Sess) : State :=
  (s.updAtl (fun a => { a with sess := mset a.sess n x {} })).wr (F.ATL_SESS_STATUS_OPEN_CHUNKS n) x.chunks.length

/-- STATE of a session (R301): 0 IDLE, 1 OPEN, 2 ACTIVE, 3 CLOSING, 4 FAILED. -/
def State.sessState (s : State) (n : Nat) : Nat := s.rd (F.ATL_SESS_STATUS_STATE n)

/-! ### Members and roles -/

/-- The member entry of member `m` of session `n`. -/
def State.memberIx (s : State) (n m : Nat) : Nat := s.rd (F.ATL_SESS_MEMBERS_BASE n) + m

/-- KIND of a member (R271): 0 HOST, 1 CHILD, 2 PARENT, 3 unused. -/
def State.memberKind (s : State) (n m : Nat) : Nat := s.rd (F.ATL_MEMBER_KIND (s.memberIx n m))

/-- Members of a session. -/
def State.members (s : State) (n : Nat) : List Nat := List.range (s.rd (F.ATL_SESS_MEMBERS_COUNT n))

/-- IP address of a member. -/
def State.memberAddr (s : State) (n m : Nat) : Nat :=
  let k := 4 * s.memberIx n m
  s.rd (F.ATL_MEMBER_ADDR_WORD k) + s.rd (F.ATL_MEMBER_ADDR_WORD (k + 1)) * 2 ^ 32 +
    s.rd (F.ATL_MEMBER_ADDR_WORD (k + 2)) * 2 ^ 64 + s.rd (F.ATL_MEMBER_ADDR_WORD (k + 3)) * 2 ^ 96

/-- The PARENT of a session, if it has one. -/
def State.parent (s : State) (n : Nat) : Option Nat :=
  let p := s.rd (F.ATL_SESS_ROOT_PARENT n)
  if p = 0x3FF then none else some p

/-- KIND of a session (R273). -/
def State.sessKind (s : State) (n : Nat) : Nat := s.rd (F.ATL_SESS_CFG_KIND n)
/-- FORMAT of a session. -/
def State.sessFmt (s : State) (n : Nat) : Nat := s.rd (F.ATL_SESS_CFG_FORMAT n)
/-- OP of a session. -/
def State.sessOp (s : State) (n : Nat) : Nat := s.rd (F.ATL_SESS_CFG_OP n)

/-- The session sums its members' chunks. -/
def State.sums (s : State) (n : Nat) : Bool := s.sessKind n ≤ 1 && s.sessOp n = 0

/-- The contributors to a chunk (R273). -/
def State.contributors (s : State) (n : Nat) : List Nat :=
  (s.members n).filter (fun m =>
    if s.sessKind n = 2 then m = s.rd (F.ATL_SESS_ROOT_ROOT n) else s.memberKind n m ≤ 1)

/-- The roles of a session's engine set, in ascending order (R297). -/
def State.rolesOf (s : State) (n : Nat) : List Nat := (List.range 32).filter (fun r => bit (s.rd (F.ATL_SESS_ROLES_ROLES n)) r)

/-- The role of chunk `c` of a session (R297). -/
def State.roleOf (s : State) (n c : Nat) : Nat :=
  let l := s.rolesOf n
  l.getD (c % max 1 l.length) 0

/-- The die of a role. -/
def roleDie (r : Nat) : Nat := r / 16

/-- The engine that holds a role, ACTIVE or DRAINING. -/
def State.engineOf (s : State) (r : Nat) : Option Nat :=
  (List.range 36).find? (fun e => s.rd (F.ATL_ENG_STATUS_ROLE e) = r && s.rd (F.ATL_ENG_STATUS_STATE e) % 2 = 0)

/-- The agent of the engine that holds a role (R214). -/
def State.roleAgent (s : State) (r : Nat) : Nat := 0x10 + (s.engineOf r).getD r

/-! ### Headers -/

/-- The fields of an Atoll header (R280). -/
structure AtlHdr where
  version : Nat
  type : Nat
  session : Nat
  member : Nat
  fmt : Nat
  op : Nat
  last : Bool
  wide : Bool
  opseq : Nat
  chunk : Nat
  count : Nat
  arg : Nat
  job : Nat
deriving DecidableEq, Repr

/-- Read a header. -/
def atlHdr (d : Bytes) : AtlHdr :=
  { version := beAt d 0 1, type := beAt d 1 1, session := beAt d 2 2 % 4096, member := beAt d 4 2, fmt := beAt d 6 1 % 16,
    op := beAt d 6 1 / 16, last := bit (beAt d 7 1) 0, wide := bit (beAt d 7 1) 1, opseq := beAt d 8 4, chunk := beAt d 12 4,
    count := beAt d 16 2, arg := beAt d 18 2, job := beAt d 20 4 }

/-- The CHECK of a header and payload (R280). -/
def atlCheck (d : Bytes) : Nat := crc32c (patch (d.take 32) 28 (beBytes 4 0) ++ d.drop 32)

/-- Header and payload of a frame that the XH9 sends to member `m` of session `n` (R280). -/
def State.atlBytes (s : State) (n m type flags opseq chunk count arg : Nat) (payload : Bytes) : Bytes :=
  let host := s.memberKind n m = 0
  let k := s.memberIx n m
  let d := beBytes 1 1 ++ beBytes 1 type ++ beBytes 2 (if host then n else s.rd (F.ATL_MEMBER_REMOTE_SESSION k)) ++
    beBytes 2 (if host then m else s.rd (F.ATL_MEMBER_W1_REMOTE_MEMBER k)) ++ beBytes 1 (s.sessFmt n + 16 * s.sessOp n) ++
    beBytes 1 flags ++ beBytes 4 opseq ++ beBytes 4 chunk ++ beBytes 2 count ++ beBytes 2 arg ++ beBytes 4 (s.sess n).job ++
    beBytes 4 (s.domA.sec * 1000000000 + s.domA.ns) ++ beBytes 4 0 ++ payload
  patch d 28 (beBytes 4 (atlCheck d))

/-- A whole frame to a member. Its Ethernet addresses, the XH9's own IP address, the time to live and the UDP source port are not in the
spec. DESIGN CHOICE: log entry 38. -/
def State.atlFrame (s : State) (n m type flags opseq chunk count arg : Nat) (payload : Bytes) : Bytes :=
  let k := s.memberIx n m
  let v6 := s.on (F.ATL_MEMBER_IPV6 k)
  udpFrame { da := Config.atollAddr (16 + k), sa := Config.atollAddr 0, v6 := v6,
             src := Config.atollAddr (if v6 then 2 else 1), dst := s.memberAddr n m, ttl := Config.atollAddr 3,
             sport := Config.atollAddr 4, dport := s.rd F.ATL_CFG_UDP_PORT }
    (s.atlBytes n m type flags opseq chunk count arg payload)

/-- An arrival for admission of a frame that Atoll builds on die `die` (R43, R183). -/
def State.atlArrival (s : State) (frame : Bytes) (port queue die : Nat) : Arrival :=
  { data := frame, md := { egressPort := port, queue := queue }, inPort := 0x3FF, host := false, ts := s.stamp 0 0 0 0,
    tsB := s.stamp 1 0 0 0, t16 := s.now * 16, die := die, src := 80 * die, sub := 0, payOff := 0, home := some die }

/-- A frame to one member alone leaves by queue 0 of the member's port (R271, R183). -/
def State.atlSend (s : State) (n m type flags opseq chunk count arg : Nat) (payload : Bytes) : State :=
  let p := s.rd (F.ATL_MEMBER_PORT (s.memberIx n m))
  if p ≥ 512 then s
  else s.admitUnicast (s.atlArrival (s.atlFrame n m type flags opseq chunk count arg payload) p 0
                        (roleDie (s.roleOf n chunk))) p 0

/-- The TYPE codes of R281. -/
def atlContrib : Nat := 1
/-- RESULT -/
def atlResult : Nat := 2
/-- NACK -/
def atlNack : Nat := 3
/-- HOLD_OFF -/
def atlHoldOff : Nat := 4
/-- ABORT -/
def atlAbort : Nat := 5

/-- A NACK to a member (R289, R290), counted. -/
def State.sendNack (s : State) (n m opseq chunk arg : Nat) : State :=
  ((s.atlSend n m atlNack 0 opseq chunk 0 arg []).satAdd (F.ATL_SESS_EVT_NACKS n) 1).cntGlobal 0x61
    (roleDie (s.roleOf n chunk)) 1

/-! ### Recognition -/

/-- The checks of R284 on a packet that the program gives to Atoll: its UDP payload, cut to the UDP length. -/
def State.atlRecognise (s : State) (n : Nat) (frame : Bytes) : Option Bytes :=
  match udpView frame with
  | none => none
  | some u =>
    let d := slice frame (u.udpOff + 8) (u.udpLen - 8)
    let h := atlHdr d
    if u.dport = s.rd F.ATL_CFG_UDP_PORT && d.length = u.udpLen - 8 && h.version = 1 && 1 ≤ h.type && h.type ≤ 5 &&
        n = h.session && s.sessState n ≠ 0 && h.member < s.rd (F.ATL_SESS_MEMBERS_COUNT n) &&
        u.src = s.memberAddr n h.member && u.v6 = s.on (F.ATL_MEMBER_IPV6 (s.memberIx n h.member)) &&
        u.udpLen = 8 + 32 + payloadLen h.fmt h.count h.wide then some d
    else none

/-- Contributions that wait for role `r`, and their bytes within the input queue of 256 KiB (R298). -/
def State.roleBytes (s : State) (r : Nat) : Nat :=
  s.atl.inq.foldl (fun a x =>
    if x.buf.isNone && s.roleOf x.sess (atlHdr x.data).chunk = r then a + x.data.length else a) 0

/-- A frame leaves the input queue of its engine: a pool buffer that held it goes back (R298). -/
def State.atlDone (s : State) (x : AtlIn) : State :=
  match x.buf with
  | some h =>
    ((s.bpmRelease (s.roleAgent (s.roleOf x.sess (atlHdr x.data).chunk)) h).2).subFrom (F.ATL_SESS_SPILL_IN_USE x.sess) 1
  | none => s

/-- A drop by an engine (R285, R303). -/
def State.atlDrop (s : State) (x : AtlIn) (code : Nat) : State :=
  let s := s.atlDone x
  let s := (s.drop code { inPort := x.port, host := x.host, data := x.frame, md := x.md, ts := x.ts }).satAdd
    (F.ATL_DROP_CNT_COUNT (code - 0x70)) 1
  if code = 0x75 && !s.intBit .atl 0 3 then s.raise .atl 0 3
  else if code = 0x76 && !s.intBit .atl 0 4 then s.raise .atl 0 4 else s

/-- A frame reaches its engine (R43, R298): beyond 256 KiB a contribution waits in a P2 buffer of class ATOLL. -/
def State.atlQueue (s : State) (x : AtlIn) : State :=
  let r := s.roleOf x.sess (atlHdr x.data).chunk
  if (atlHdr x.data).type = atlContrib && s.roleBytes r + x.data.length > 262144 then
    let ag := s.roleAgent r
    let a := s.bpmAlloc ag 2 (s.ownDomain ag)
    if a.1 = stOk then
      (a.2.2.wrapAdd (F.ATL_SESS_SPILL_IN_USE x.sess) 1).updAtl (fun t => { t with inq := t.inq ++ [{ x with buf := some a.2.1 }] })
    else a.2.2.atlDrop x 0x75
  else s.updAtl (fun t => { t with inq := t.inq ++ [x] })

/-- A pipeline hands a frame to Atoll (R43, R297): to an engine of its own die, or across the Causeway. -/
def State.atlHandoff (s : State) (x : AtlIn) : State :=
  let d := x.src / 80
  if roleDie (s.roleOf x.sess (atlHdr x.data).chunk) = d then s.atlQueue x
  else
    let id := s.path.cway.nextAtl
    let n := max 1 (cellsOf x.data.length)
    (s.updCway (fun c => { c with nextAtl := id + 1, atl := minsert c.atl id (n, x) })).cross d ((List.range n).map (fun k => .atoll id k))

/-! ### Chunks -/

/-- Chunk (`o`, `c`) comes before chunk (`o'`, `c'`), OPSEQ compared modulo 2^32 (R281). -/
def chunkLt (o c o' c' : Nat) : Bool :=
  let d := (o' + 2 ^ 32 - o) % 2 ^ 32
  (d ≠ 0 && d < 2 ^ 31) || (d = 0 && c < c')

/-- Bytes of a chunk's state (R298). -/
def State.chunkBytes (s : State) (n count : Nat) : Nat :=
  let f := s.sessFmt n
  64 + (if s.sums n then payloadLen f count true else count * elemSize f)

/-- Free pages of the scratch of die `d` (R298). -/
def State.scratch (s : State) (d : Nat) : Nat := mget s.atl.scratch d 8192

/-- Room for a new chunk (R298): pages of scratch, or a P1 or P2 buffer; none when no buffer is found. -/
def State.chunkRoom (s : State) (n chunk count : Nat) : Option (Nat × Option Nat × State) :=
  let r := s.roleOf n chunk
  let d := roleDie r
  let bytes := s.chunkBytes n count
  let pages := (bytes + 4095) / 4096
  if pages ≤ s.scratch d then
    some (pages, none, s.updAtl (fun a => { a with scratch := mset a.scratch d (s.scratch d - pages) 8192 }))
  else
    let ag := s.roleAgent r
    let a := s.bpmAlloc ag (if bytes ≤ 4096 then 1 else 2) (s.ownDomain ag)
    if a.1 = stOk then some (0, some a.2.1, a.2.2.wrapAdd (F.ATL_SESS_SPILL_IN_USE n) 1) else none

/-- A chunk gives back its room. -/
def State.chunkFree (s : State) (n : Nat) (c : Chunk) : State :=
  let r := s.roleOf n c.chunk
  let d := roleDie r
  let s := s.updAtl (fun a => { a with scratch := mset a.scratch d (min 8192 (s.scratch d + c.pages)) 8192 })
  match c.buffer with
  | some h => ((s.bpmRelease (s.roleAgent r) h).2).subFrom (F.ATL_SESS_SPILL_IN_USE n) 1
  | none => s

/-- TIMEOUT of a session in ticks (R293). -/
def State.sessTimeout (s : State) (n : Nat) : Nat := s.rd (F.ATL_SESS_TIMEOUT_TIMEOUT n) * 16000

/-- HOLDOFF_EXT in ticks. -/
def State.holdOffExt (s : State) : Nat := s.rd F.ATL_TIMER_HOLDOFF_EXT * 16000

/-- HOLDOFF_PERIOD in ticks; one that is not below HOLDOFF_EXT acts as half of it (R294). -/
def State.holdOffPeriod (s : State) : Nat :=
  let p := max 1 (s.rd F.ATL_TIMER_HOLDOFF_PERIOD) * 16000
  if p ≥ s.holdOffExt then s.holdOffExt / 2 else p

/-- NACK_DELAY in ticks (R289). -/
def State.nackDelay (s : State) : Nat := max 1 (s.rd F.ATL_TIMER_NACK_DELAY) * 1600

/-- A chunk with no contribution yet (R276, R293). -/
def State.newChunk (s : State) (n opseq chunk count pages : Nat) (buffer : Option Nat) : Chunk :=
  { opseq := opseq, chunk := chunk, count := count, last := false, from_ := [], acc := List.replicate count 0,
    code := List.replicate count 1, opened := s.now, deadline := s.now + s.sessTimeout n, nacks := 0, sentUp := false,
    done := false, down := none, pages := pages, buffer := buffer, lastTick := s.now, lead := 0 }

/-- A contribution is added to a chunk's elements (R275 to R279): exactly for SUM, by the operation otherwise; BROADCAST keeps
the root's chunk. -/
def State.addElems (s : State) (n : Nat) (c : Chunk) (wide : Bool) (p : Bytes) : Chunk :=
  let f := s.sessFmt n
  if s.sums n then
    if wide then
      { c with acc := List.zipWith (fun a b => wrapAcc f (a + b)) c.acc (wideAccs f c.count p),
               code := List.zipWith codeJoin c.code (wideCodes f c.count p) }
    else if isFloat f then
      let l := List.zipWith (fun (x : Int × Nat) v => fpAdd f v x.1 x.2) (List.zip c.acc c.code) (elems f c.count p)
      { c with acc := l.map (fun x => wrapAcc f x.1), code := l.map (fun x => x.2) }
    else { c with acc := List.zipWith (fun a v => wrapAcc f (a + sext (8 * elemSize f) v)) c.acc (elems f c.count p) }
  else if s.sessKind n = 2 then { c with acc := (elems f c.count p).map Int.ofNat }
  else if c.from_.isEmpty then
    { c with acc := (elems f c.count p).map (fun v => Int.ofNat (if s.sessOp n ≤ 2 then combine f (s.sessOp n) v v else v)) }
  else { c with acc := List.zipWith (fun a v => Int.ofNat (combine f (s.sessOp n) a.toNat v)) c.acc (elems f c.count p) }

/-- The native result of a complete chunk, rounded once for a floating-point SUM (R277, R278). -/
def State.chunkResult (s : State) (n : Nat) (c : Chunk) : Bytes :=
  let f := s.sessFmt n
  if !s.sums n then elemBytes f (c.acc.map Int.toNat)
  else if isFloat f then
    elemBytes f (List.zipWith (fun a k => fpResult f (s.on (F.ATL_SESS_CFG_FP_SAT n)) a k) c.acc c.code)
  else elemBytes f (c.acc.map (intResult f (s.on (F.ATL_SESS_CFG_INT_SAT n))))

/-- The payload that a chunk sends to the PARENT (R292): wide for SUM, native values otherwise. -/
def State.chunkPartial (s : State) (n : Nat) (c : Chunk) : Bytes :=
  if s.sums n then wideBytes (s.sessFmt n) c.acc c.code else elemBytes (s.sessFmt n) (c.acc.map Int.toNat)

/-- Change the chunk of session `n` with number (`o`, `k`). -/
def State.updChunk (s : State) (n o k : Nat) (f : Chunk → Chunk) : State :=
  let x := s.sess n
  s.setSess n { x with chunks := x.chunks.map (fun c => if c.opseq = o && c.chunk = k then f c else c) }

/-- FLAGS of a frame for a chunk. -/
def chunkFlags (last wide resend : Bool) : Nat := (if last then 1 else 0) + (if wide then 2 else 0) + (if resend then 4 else 0)

/-! ### Results -/

/-- What member `m` receives of a result (R273): COUNT, ARG and payload, or nothing. The elements of a REDUCE go to the ROOT member, and
down every branch where ROOT is none of this XH9's own members. DEDUCED: log entry 39. -/
def State.resultFor (s : State) (n m count arg : Nat) (data : Bytes) : Option (Nat × Nat × Bytes) :=
  let root := s.rd (F.ATL_SESS_ROOT_ROOT n)
  if s.memberKind n m ≥ 2 then none
  else
    match s.sessKind n with
    | 1 =>
      if m = root || (root = 0x3FF && s.memberKind n m = 1) then some (count, arg, data) else some (0, 1, [])
    | 2 => if m = root then none else some (count, arg, data)
    | _ => some (count, arg, data)

/-- The multicast queue by which a copy for port `p` leaves: the one that the session's group names for the port, else m 0. DESIGN CHOICE:
log entry 42. -/
def State.resultQueue (s : State) (n p : Nat) : Nat :=
  ((s.mcastMembers (p / 32) (s.rd (F.ATL_SESS_MCAST_GROUP n))).find? (fun k => k ≥ 8192 && queuePort k = p)).getD (8192 + 2 * p)

/-- Admission of a result stored once for the copies in `copies`, queue and frame of each (R43, R183, R190, R273). -/
def State.admitResult (s : State) (die : Nat) (copies : List (Nat × Bytes)) : State :=
  match copies with
  | [] => s
  | (k0, f0) :: _ =>
    let a := s.atlArrival f0 (queuePort k0) 0 die
    let n := cellsOf (copies.foldl (fun b c => max b c.2.length) 0)
    let h := s.chooseHalf die
    let s := if h ≠ die then s.cntGlobal 0x43 die 1 else s
    match s.account none none n h with
    | .error code => s.admitDrop h code (a.info (queueField k0) (s.depth k0))
    | .ok acct =>
      let test (k : Nat) : Option Nat :=
        if s.rd (occF k) + n > s.rd (qMaxF k) then some 0x43
        else if withinAlpha (s.rd (occF k) + n) (s.alphaCur k) (s.sharedFree h) then none
        else some 0x40
      let good := copies.filter (fun c => (test c.1).isNone)
      let s := copies.foldl (fun s c =>
        match test c.1 with
        | some code =>
          s.admitDrop h code { (s.atlArrival c.2 (queuePort c.1) 0 die).info (queueField c.1) (s.depth c.1) with mcast := true }
        | none => s) s
      if good.isEmpty then s
      else if s.freeFor h die < n then s.admitDrop h 0x44 (a.info (queueField k0) 0)
      else
        let s := good.foldl (fun s c => s.wrapAdd (occF c.1) n) s
        s.store a { data := f0, md := a.md, inPort := 0x3FF, host := false, ts := a.ts, tsB := a.tsB, t16 := a.t16, half := h,
                    cells := [], acct := acct, refs := good.length, ce := false, deep := false, admitted := s.now * 16, bad := false,
                    payOff := 0, own := good } n (good.map (fun c => c.1))

/-- The result frames of a chunk enter the Lagoon (R43, R273, R287): those that carry the result, then the completions. -/
def State.sendResult (s : State) (n : Nat) (x : Staged) : State :=
  let copy (m : Nat) : Option (Bool × Nat × Bytes) :=
    (s.resultFor n m x.count x.arg x.data).map (fun r =>
      let p := s.rd (F.ATL_MEMBER_PORT (s.memberIx n m))
      (r.1 = x.count && r.2.1 = x.arg, s.resultQueue n p,
        s.atlFrame n m atlResult x.flags x.opseq x.chunk r.1 r.2.1 r.2.2))
  let l := (s.members n).filterMap (fun m => if s.rd (F.ATL_MEMBER_PORT (s.memberIx n m)) ≥ 512 then none else copy m)
  let die := roleDie (s.roleOf n x.chunk)
  (s.admitResult die ((l.filter (fun c => c.1)).map (fun c => c.2))).admitResult die
    ((l.filter (fun c => !c.1)).map (fun c => c.2))

/-- A staged result is sent again to one member alone (R288, R289). -/
def State.resendResult (s : State) (n m : Nat) (x : Staged) : State :=
  match s.resultFor n m x.count x.arg x.data with
  | some (count, arg, data) => s.atlSend n m atlResult (x.flags ||| 4) x.opseq x.chunk count arg data
  | none => s

/-- The results in a session's stage are released (R290). DEDUCED: log entry 130. -/
def State.stageRelease (s : State) (n : Nat) : State :=
  let y := s.sess n
  s.setSess n { y with stage := y.stage.filter (fun z => z.up),
                       released := (y.stage.filter (fun z => !z.up)).map (fun z => (z.opseq, z.chunk)) ++ y.released }

/-- A result joins the stage of an OPEN or ACTIVE session, which keeps the last 2 × WINDOW results; in another state it is released at
once (R290). -/
def State.stageResult (s : State) (n : Nat) (x : Staged) : State :=
  if s.sessState n ≠ 1 && s.sessState n ≠ 2 then
    s.setSess n { s.sess n with released := (x.opseq, x.chunk) :: (s.sess n).released }
  else
    let y := s.sess n
    let l := y.stage ++ [x]
    if (l.filter (fun z => !z.up)).length > 2 * s.rd (F.ATL_SESS_CFG_WINDOW n) then
      match l.find? (fun z => !z.up) with
      | some z => s.setSess n { y with stage := l.erase z, released := (z.opseq, z.chunk) :: y.released }
      | none => s.setSess n { y with stage := l }
    else s.setSess n { y with stage := l }

/-! ### Session states -/

/-- ATL_STATUS.SESSIONS brought up to date. -/
def State.sessCount (s : State) : State := s.wr F.ATL_STATUS_SESSIONS s.atl.live.length

/-- The roles of a session count one session more or less. -/
def State.roleSessions (s : State) (n : Nat) (add : Bool) : State :=
  (s.rolesOf n).foldl (fun s r =>
    match s.engineOf r with
    | some e => if add then s.wrapAdd (F.ATL_ENG_STATUS_SESSIONS e) 1 else s.subFrom (F.ATL_ENG_STATUS_SESSIONS e) 1
    | none => s) s

/-- A session enters IDLE (R302): its scratch, buffers, stage, member entries and configuration go, and a SESSION_CLOSE that waits
completes. DEDUCED: log entry 129. -/
def State.sessIdle (s : State) (n : Nat) : State :=
  let s := (s.sess n).chunks.foldl (fun s c => s.chunkFree n c) s
  let s := s.roleSessions n false
  let s := (s.members n).foldl (fun s m => s.wr (F.ATL_MEMBER_KIND (s.memberIx n m)) 3) s
  let s := (s.setSess n {}).updAtl (fun a => { a with live := a.live.erase n })
  let s := [F.ATL_SESS_CFG_FORMAT, F.ATL_SESS_CFG_OP, F.ATL_SESS_CFG_KIND, F.ATL_SESS_CFG_INT_SAT, F.ATL_SESS_CFG_FP_SAT,
    F.ATL_SESS_CFG_WINDOW, F.ATL_SESS_CFG_CHUNK_ELEMS, F.ATL_SESS_ROLES_ROLES, F.ATL_SESS_TIMEOUT_TIMEOUT,
    F.ATL_SESS_TIMEOUT_HOLDOFF_HOSTS, F.ATL_SESS_MEMBERS_COUNT, F.ATL_SESS_MEMBERS_BASE, F.ATL_SESS_MCAST_GROUP,
    F.ATL_SESS_STATUS_STATE, F.ATL_SESS_STATUS_CAUSE, F.ATL_SESS_STATUS_LAST_MEMBER, F.ATL_SESS_SPILL_RESERVED, F.ATL_SESS_SPILL_IN_USE].foldl
    (fun s f => s.wr (f n) 0) s
  let s := (s.wr (F.ATL_SESS_ROOT_ROOT n) 0x3FF).wr (F.ATL_SESS_ROOT_PARENT n) 0x3FF
  s.sessCount.finishHold holdClose n stOk 0 0

/-- A session enters FAILED (R302): ABORT with the cause to every member but `skip`, its open chunks and its stage go. A
SESSION_CLOSE that waits on it completes with STATE_CONFLICT. -/
def State.sessFail (s : State) (n cause : Nat) (skip : Option Nat) : State :=
  let s := (s.wr (F.ATL_SESS_STATUS_STATE n) 4).wr (F.ATL_SESS_STATUS_CAUSE n) cause
  let s := (s.members n).foldl (fun s m => if some m = skip then s else s.atlSend n m atlAbort 0 0 0 0 cause []) s
  let s := (s.sess n).chunks.foldl (fun s c => s.chunkFree n c) s
  let s := s.setSess n { s.sess n with chunks := [], stage := [] }
  (s.raise .atl 0 0).finishHold holdClose n stConflict 4 cause

/-- A chunk closes (R286, R287, R302). -/
def State.chunkClose (s : State) (n : Nat) (c : Chunk) : State :=
  let s := s.chunkFree n c
  let x := s.sess n
  let s := s.setSess n { x with chunks := x.chunks.filter (fun y => !(y.opseq = c.opseq && y.chunk = c.chunk)),
                                stage := x.stage.filter (fun y => !(y.up && y.opseq = c.opseq && y.chunk = c.chunk)) }
  let s := (s.wrapAdd (F.ATL_SESS_DONE_COUNT n) 1).cntGlobal 0x60 (roleDie (s.roleOf n c.chunk)) 1
  let s := match c.from_ with
    | m :: _ => (s.wr (F.ATL_SESS_STATUS_LAST_MEMBER n) m).updAtl (fun a => { a with reports := (n, m, c.lead) :: a.reports })
    | [] => s
  if (s.sess n).chunks.isEmpty then
    if s.sessState n = 3 then s.sessIdle n else s.wr (F.ATL_SESS_STATUS_STATE n) 1
  else s

/-- A result is sent and staged, and its chunk closes (R273, R287, R290, R292). -/
def State.finishChunk (s : State) (n : Nat) (c : Chunk) (count arg : Nat) (data : Bytes) : State :=
  let x : Staged := { opseq := c.opseq, chunk := c.chunk, count := count, arg := arg, flags := chunkFlags c.last false false,
                      up := false, data := data }
  ((s.sendResult n x).stageResult n x).chunkClose n c

/-- A complete chunk of a session with a PARENT goes up as one CONTRIB, and stays staged (R290, R292). -/
def State.sendPartial (s : State) (n p : Nat) (c : Chunk) : State :=
  let data := s.chunkPartial n c
  let fl := chunkFlags c.last (s.sums n) false
  let s := s.atlSend n p atlContrib fl c.opseq c.chunk c.count 0 data
  let y := s.sess n
  let s := s.setSess n { y with stage := y.stage ++ [{ opseq := c.opseq, chunk := c.chunk, count := c.count, arg := 0, flags := fl,
                                                       up := true, data := data }] }
  s.updChunk n c.opseq c.chunk (fun c => { c with sentUp := true })

/-! ### Engines -/

/-- Engine `e` stops taking contributions: its replacement has started, and the spare map records it (R300, R452). DEDUCED: log entry 43. -/
def State.engineDrain (s : State) (e : Nat) : State := (s.wr (F.ATL_ENG_STATUS_STATE e) 2).mapRecord 5 e (2 + (s.reserveEngine (engineDie e)).getD 0)

/-- Reserve `r` takes the role of engine `e` at one core clock boundary (R300). By command the old engine returns to RESERVE
(R450). -/
def State.engineTake (s : State) (e r : Nat) (byCmd : Bool) : State :=
  let role := s.rd (F.ATL_ENG_STATUS_ROLE e)
  let n := s.rd (F.ATL_ENG_STATUS_SESSIONS e)
  let s := ((s.wr (F.ATL_ENG_STATUS_STATE r) 0).wr (F.ATL_ENG_STATUS_ROLE r) role).wr (F.ATL_ENG_STATUS_SESSIONS r) n
  let s := ((s.wr (F.ATL_ENG_STATUS_STATE e) (if byCmd then 1 else 3)).wr (F.ATL_ENG_STATUS_ROLE e) 0x3F).wr
    (F.ATL_ENG_STATUS_SESSIONS e) 0
  let s := (s.satAdd F.RAS_SPARE_STATUS_SWAPS 1).raise .atl 0 1
  let s := if byCmd then s.mapRecord 5 e 0 else (s.subFrom (reserveF (engineDie e)) 1).spareConsumed 5 .atl 0 e r
  s.finishHold (holdSpare 5) e stOk (if byCmd then 1 else 3) 0

/-- Every open chunk of session `n` that `p` accepts restarts (R300): its state is cleared, and every contributor receives a NACK with ARG 1
at once. DEDUCED: log entry 44. -/
def State.restartChunks (s : State) (n : Nat) (p : Chunk → Bool) : State :=
  (s.sess n).chunks.foldl (fun s c =>
    if p c then
      let s := s.updChunk n c.opseq c.chunk (fun c =>
        { c with from_ := [], acc := List.replicate c.count 0, code := List.replicate c.count 1, done := false,
                 sentUp := false, down := none })
      let s := (s.contributors n).foldl (fun s m => s.sendNack n m c.opseq c.chunk 1) s
      let s := ((s.satAdd (F.ATL_SESS_EVT_RESTARTS n) 1).raise .atl 0 2)
      s.event contained (codeOf .atl 0 2) (s.roleOf n c.chunk) (n + c.chunk * 2 ^ 12)
    else s) s

end Sys2Proof.Machine
end

