-- ==== Sys2Proof/Machine/Causeway.lean ====
section
/-! DEFINITION. The commands of the Causeway (R26 to R34). -/

namespace Sys2Proof.Machine

/-- CELL_GRANT (R27, R173): the Lagoon of the receiving die grants `n` free cells, as far as it has them, to bundle `b` of
direction `d`. -/
def State.grantCells (s : State) (d b : Nat) : Nat → State
  | 0 => s
  | n + 1 =>
    match s.nextCell (1 - d) with
    | none => s
    | some (k, s) =>
      let s := s.updPath (fun x => { x with granted := mset x.granted (cellBank k) (mget x.granted (cellBank k) 0 + 1) 0 })
      let y := s.bundle d b
      (s.setBundle d b { y with grants := y.grants ++ [k] }).grantCells d b n

/-- CELL_GRANT (R27). A RETIRED bundle takes no grants. -/
def execCellGrant (d : Fin 2) (b : Fin 64) (n : Nat) (s : State) : Result :=
  .next (if s.bundleState d b = 3 then s else (s.grantCells d b n).cwayPump d)

/-- Change the first element that `p` accepts. -/
def changeFirst {α : Type} (p : α → Bool) (f : α → α) : List α → List α
  | [] => []
  | a :: t => if p a then f a :: t else a :: changeFirst p f t

/-- A cell of a frame from the host has landed on the south die; with the last one the frame enters its ingress pipeline and its cells
are free again (R42). -/
def State.hostLanded (s : State) (id : Nat) : State :=
  match mget s.path.hostCross id none with
  | none => s
  | some h =>
    if h.owed > 1 then s.updPath (fun y => { y with hostCross := mset y.hostCross id (some { h with owed := h.owed - 1 }) none })
    else ((s.updPath (fun y => { y with hostCross := mset y.hostCross id none none })).freeCells 1 h.cells).injectHere
      { h.rx with begun := s.now } (h.rx.t16 % 16)

/-- A part of crossing operands has landed; with the last one they reach the queue of their engine (R43, R298). -/
def State.atlLanded (s : State) (id : Nat) : State :=
  match mfind s.path.cway.atl id with
  | none => s
  | some (n, x) =>
    if n > 1 then s.updCway (fun c => { c with atl := minsert c.atl id (n - 1, x) })
    else (s.updCway (fun c => { c with atl := merase c.atl id })).atlQueue x

/-- A cell of read data reaches its client: a frame in an egress pipeline, or the gatherer of queue `client - 160` (R37, R201). -/
def State.readLanded (s : State) (client pkt : Nat) : State :=
  if client < 160 then
    let l := changeFirst (fun t : TxFrame => t.pkt = pkt && t.owed ≠ 0) (fun t => { t with owed := t.owed - 1 })
      (mget s.path.eg client [])
    s.updPath (fun y => { y with eg := mset y.eg client l [] })
  else
    let q := client - 160
    let d := s.deepQ q
    s.setDeep q { d with owed := mset d.owed pkt (mget d.owed pkt 0 - 1) 0 }

/-- A flit delivered in sequence order (R27, R33, R43). -/
def State.deliverFlit (s : State) (d b : Nat) (x : Body) : State :=
  match x with
  | .cellWr k _ =>
    let s := match mfind s.path.pkts k with
      | some x => if x.moving ≠ 0 then s.setPkt k (some { x with moving := x.moving - 1 }) else s
      | none => s
    s.updPath (fun y => { y with held := y.held.map (fun h => if h.pkt = k then { h with cells := h.cells - 1 } else h) })
  | .hostWr id _ => s.hostLanded id
  | .desc l =>
    s.updPath (fun y => { y with held := y.held.map (fun h => if l.contains (h.pkt, h.queue) then { h with here := true } else h) })
  | .rdq client k first n => s.cross (1 - d) ((List.range n).map (fun j => .rdd b client k (first + j)))
  | .rdd _ client k _ => s.readLanded client k
  | .atoll id _ => s.atlLanded id
  | .misc _ => s

/-- The flit is corrupted by DBG_PERTURB_CWAY (R458). DEDUCED: log entry 10. -/
def State.perturbFlit (s : State) (d b : Nat) : Bool :=
  let n := s.rd F.DBG_PERTURB_CWAY_W1_CRC_EVERY
  s.on F.DBG_CTL_ARM && s.rd F.DBG_PERTURB_CWAY_DIR = d && s.rd F.DBG_PERTURB_CWAY_BUNDLE = b && n ≠ 0 &&
    ((s.bundle d b).count + 1) % n = 0

/-- FLIT_RECEIVE (R26, R28): the oldest flit on bundle `b`, with the bits `err` of it changed by the wires. A flit with a bad CRC is
discarded with a negative acknowledgement, later ones until it arrives again; the others are delivered in sequence order and acknowledged.
What becomes of a flit whose changed bits the CRC does not show is not said: the model delivers what was sent. DESIGN CHOICE: log entry 145.
-/
def execFlitReceive (d : Fin 2) (b : Fin 64) (err : BitVec 2096) (s : State) : Result :=
  .next (
    let y := s.bundle d b
    match y.wire with
    | [] => s
    | f :: t =>
      let bad := !flitGood (s.flitArrives f err) || s.perturbFlit d b
      let y := { y with wire := t, count := y.count + 1 }
      if bad then
        let s := s.satAdd (F.CWAY_BUNDLE_ERR_CRC_ERR (64 * d + b)) 1
        s.setBundle d b (if y.discarding then y else { y with discarding := true, nack := some f.seq })
      else if f.seq ≠ y.expect then
        s.setBundle d b (if 0 < (y.expect + 256 - f.seq) % 256 && (y.expect + 256 - f.seq) % 256 ≤ 128 then
            { y with ack := some ((y.expect + 255) % 256) } else y)
      else
        (s.setBundle d b { y with expect := (y.expect + 1) % 256, discarding := false, ack := some f.seq }).deliverFlit d b
          f.body)

/-- A swap that waited for the end of a replay begins (R32). -/
def State.swapPending (s : State) (d b : Nat) : State :=
  let y := s.bundle d b
  match y.swapWait with
  | some w =>
    if y.nack.isNone && !y.discarding && s.bundleState d b = 0 then
      (s.setBundle d b { y with swapWait := none, swapWire := some w, since := s.now }).bundleEnter d b 2
    else s
  | none => s

/-- FLIT_ACK_RECEIVE (R29): the flits up to the acknowledged one leave the replay store. -/
def execFlitAckReceive (d : Fin 2) (b : Fin 64) (s : State) : Result :=
  .next (
    let y := s.bundle d b
    match y.ack with
    | none => s
    | some a =>
      let rest := y.unacked.dropWhile (fun f => (a + 256 - f.seq) % 256 < 128)
      let s := s.setBundle d b { y with unacked := rest, ack := none,
                                        resends := if rest.length < y.unacked.length then 0 else y.resends }
      (s.swapPending d b).cwayPump d)

/-- Resend from the oldest unacknowledged flit on: what is on the wires is discarded at the receiver, and a flit that it has
already delivered is not delivered again. -/
def State.resend (s : State) (d b : Nat) : State :=
  let y := s.bundle d b
  let s := s.setBundle d b { y with wire := y.unacked, nack := none, discarding := false, resends := y.resends + 1 }
  let s := s.satAdd (F.CWAY_BUNDLE_ERR_REPLAY (64 * d + b)) 1
  y.unacked.foldl (fun s f => s.cntGlobal 0x41 f.body.vc 1) s

/-- FLIT_NACK_RECEIVE (R28, R30): the flits before the named one have arrived, and the sender resends from it onward, unless it
has resent it REPLAY_LIMIT times in a row: the bundle then retrains (BUNDLE_RETRAIN). A named flit that has been acknowledged since is one
that the receiver already had: the sender then resends from the oldest unacknowledged flit, so that none is lost (R28). -/
def execFlitNackReceive (d : Fin 2) (b : Fin 64) (s : State) : Result :=
  .next (
    let y := s.bundle d b
    match y.nack with
    | none => s
    | some k =>
      let rest := if y.unacked.any (fun f => f.seq = k) then y.unacked.dropWhile (fun f => f.seq ≠ k) else y.unacked
      let y := { y with resends := if rest.length < y.unacked.length then 0 else y.resends, unacked := rest, ack := none }
      let s := s.setBundle d b y
      if s.bundleState d b ≠ 0 || y.resends ≥ max 1 (s.rd F.CWAY_CFG_REPLAY_LIMIT) then s
      else ((s.resend d b).swapPending d b).cwayPump d)

/-- CREDIT_RETURN (R34): the receiver returns `n` credits of virtual channel `vc` of bundle `b`. -/
def execCreditReturn (d : Fin 2) (b : Fin 64) (vc : Fin 6) (n : Nat) (s : State) : Result :=
  .next (
    let k := 8 * (64 * d.val + b.val) + vc.val
    (s.updCway (fun c => { c with credits := mset c.credits k (mget c.credits k 0 - n) 0 })).cwayPump d)

/-- A held descriptor is enqueued when it is on the die of its queue with every cell landed, and is the oldest of its stream (R33). -/
def State.enqueueHeld (s : State) (h : HeldDesc) : State :=
  if h.cells ≠ 0 || !h.here || (s.path.held.find? (fun x => x.stream = h.stream)) ≠ some h then s
  else (s.updPath (fun y => { y with held := y.held.erase h })).deliver h.pkt [h.queue]

/-- DESC_ENQUEUE (R33): the held descriptors of packet `pkt` that may be enqueued are. -/
def execDescEnqueue (pkt : Nat) (s : State) : Result :=
  .next ((s.path.held.filter (fun h => h.pkt = pkt)).foldl (fun s h => s.enqueueHeld h) s)

/-- BUNDLE_RETRAIN (R30): one flit has been resent REPLAY_LIMIT times in a row without success. -/
def execBundleRetrain (d : Fin 2) (b : Fin 64) (s : State) : Result :=
  .next (
    let y := s.bundle d b
    if s.bundleState d b = 0 && y.nack.isSome && y.resends ≥ max 1 (s.rd F.CWAY_CFG_REPLAY_LIMIT) then
      (s.setBundle d b { y with since := s.now, wire := [] }).bundleEnter d b 1
    else s)

/-- BUNDLE_TRAIN_DONE (R30): training ends within 5 µs. -/
def execBundleTrainDone (d : Fin 2) (b : Fin 64) (s : State) : Result :=
  .next (
    let y := s.bundle d b
    if s.bundleState d b = 1 && s.now - y.since ≤ 8000 then
      let s := (s.setBundle d b { y with resends := 0 }).bundleEnter d b 0
      let s := s.resend d b
      ((s.setBundle d b { s.bundle d b with resends := 0 }).swapPending d b).cwayPump d
    else s)

/-- A granted cell of half `h` that no flit will fill goes back to the allocator; a bank that drains may thereby be empty (R175). -/
def State.ungrant (s : State) (h a : Nat) : State :=
  let o := cellBank a
  let s := (s.updPath (fun x => { x with granted := mset x.granted o (mget x.granted o 0 - 1) 0 })).backIndex a
  if s.rd (F.LAG_BANK_STATUS_STATE o) = 0 then s
  else ((s.subFrom (F.LAG_HALF_STATUS_FREE h) 1).spillUpdate h).bankCheck h (a / 2 ^ 14 % 64)

/-- The next ACTIVE bundle after `b` of direction `d` (R31). -/
def State.nextActive (s : State) (d b : Nat) : Option Nat :=
  ((List.range 63).map (fun k => (b + 1 + k) % 64)).find? (fun k => s.bundleState d k = 0)

/-- Flits moved to bundle `b`, ahead of anything new, with its sequence numbers, as soon as it may send them (R29, R31). -/
def State.moveFlits (s : State) (d b : Nat) (l : List Body) : State :=
  (s.setBundle d b { s.bundle d b with carry := (s.bundle d b).carry ++ l }).sendCarry d b

/-- BUNDLE_RETIRE (R30, R31): a bundle that has not trained within 5 µs. Flits that the receiver has delivered are not sent again. With more
than RETIRE_LIMIT bundles RETIRED in a direction the event is FATAL. What becomes of the unacknowledged flits when no other bundle of the
direction is ACTIVE is not said: the model drops them. DESIGN CHOICE: log entry 146. -/
def execBundleRetire (d : Fin 2) (b : Fin 64) (s : State) : Result :=
  .next (
    let y := s.bundle d b
    if s.bundleState d b = 1 && s.now - y.since > 8000 then
      let left := (y.unacked.dropWhile (fun f => f.seq ≠ y.expect)).map (fun f => f.body) ++ y.carry
      let s := match s.nextActive d b with
        | some k =>
          (s.moveFlits d k left).updCway (fun c => { c with pins := mset c.pins (key2 d b) k 64 })
        | none => s
      let s := y.grants.foldl (fun s a => s.ungrant (1 - d.val) a) s
      let s := ((s.setBundle d b {}).bundleEnter d b 3).mapRecord 8 (64 * d + b) 1
      let s := s.event degraded (codeOf .cway 0 0) (64 * d + b) 0
      let s := if ((List.range 64).filter (fun k => s.bundleState d k = 3)).length > s.rd F.CWAY_CFG_RETIRE_LIMIT then
          (s.raise .cway 0 2).event fatal (codeOf .cway 0 2) (64 * d + b) 0
        else s
      s.cwayPump d
    else s)

/-- A reserve wire of a bundle is unused. -/
def State.wireFree (s : State) (d b : Nat) : Bool :=
  s.rd (F.CWAY_BUNDLE_STATUS_SUB0 (64 * d + b)) = 0x7F || s.rd (F.CWAY_BUNDLE_STATUS_SUB1 (64 * d + b)) = 0x7F

/-- The wire of a bundle is in use: it is not already replaced. -/
def State.wireInUse (s : State) (d b w : Nat) : Bool :=
  s.rd (F.CWAY_BUNDLE_STATUS_SUB0 (64 * d + b)) ≠ w && s.rd (F.CWAY_BUNDLE_STATUS_SUB1 (64 * d + b)) ≠ w

/-- Object of a data wire under R450. -/
def wireObject (d b w : Nat) : Nat := d * 2 ^ 12 + b * 2 ^ 6 + w

/-- The replacement of wire `w` of bundle `b` may start (R32, R450). -/
def State.wireReady (s : State) (d b w : Nat) : Bool :=
  s.bundleState d b = 0 && s.wireFree d b && s.wireInUse d b w && (s.bundle d b).swapWait.isNone

/-- The replacement starts, at once or when a replay under way has ended; the spare map records it (R32, R452). -/
def State.wireSwap (s : State) (d b w : Nat) : State :=
  let y := s.bundle d b
  let sub := if s.rd (F.CWAY_BUNDLE_STATUS_SUB0 (64 * d + b)) = 0x7F then 0 else 1
  ((s.mapRecord 1 (wireObject d b w) (2 + sub)).setBundle d b { y with swapWait := some w }).swapPending d b

/-- WIRE_SWAP_START (R32): the sparing manager replaces data wire `w` of an ACTIVE bundle by a reserve wire; a dead wire without
a reserve leaves a resource failed (R445). -/
def execWireSwapStart (d : Fin 2) (b w : Fin 64) (s : State) : Result :=
  .next (
    if s.wireReady d b w then s.wireSwap d b w
    else if s.bundleState d b = 0 && !s.wireFree d b then s.event degraded (codeOf .cway 0 0x86) (64 * d + b) w
    else s)

/-- WIRE_SWAP_DONE (R32): both ends have changed the wire map; the sender resends from the oldest unacknowledged flit. -/
def execWireSwapDone (d : Fin 2) (b : Fin 64) (s : State) : Result :=
  .next (
    let y := s.bundle d b
    match y.swapWire with
    | none => s
    | some w =>
      if s.bundleState d b ≠ 2 then s
      else
        let k := 64 * d.val + b.val
        let s := if s.rd (F.CWAY_BUNDLE_STATUS_SUB0 k) = 0x7F then s.wr (F.CWAY_BUNDLE_STATUS_SUB0 k) w
                 else s.wr (F.CWAY_BUNDLE_STATUS_SUB1 k) w
        let s := s.subFrom (if d.val = 0 then F.CWAY_STATUS_SPARES_NS else F.CWAY_STATUS_SPARES_SN) 1
        let s := (s.setBundle d b { y with swapWire := none }).bundleEnter d b 0
        let s := s.resend d b
        let s := s.setBundle d b { s.bundle d b with resends := 0 }
        let s := ((s.raise .cway 0 1).satAdd F.RAS_SPARE_STATUS_SWAPS 1).spareConsumed 1 .cway 0 k w
        (s.finishHold (holdSpare 1) (wireObject d b w) stOk 0 0).cwayPump d)

end Sys2Proof.Machine
end

