-- ==== Sys2Proof/Machine/Clocks.lean ====
section
/-! DEFINITION. The clock tree: the ROOT PLL, its standby twin and the reference clocks (R361 to R365). -/

namespace Sys2Proof.Machine

/-- STATE of ROOT_A (0) and ROOT_B (1): 0 ACTIVE, 1 STANDBY, 2 RELOCKING, 3 FAILED (R364). -/
def pllStateF (k : Nat) : Fld := if k = 0 then F.CLK_STATUS_A_STATE else F.CLK_STATUS_B_STATE

/-- REFCLK of ROOT_A and ROOT_B. -/
def pllRefF (k : Nat) : Fld := if k = 0 then F.CLK_CFG_REF_A else F.CLK_CFG_REF_B

/-- REFCLK `r` is present and within range. -/
def refOkF (r : Nat) : Fld := if r = 0 then F.CLK_STATUS_REF0_OK else F.CLK_STATUS_REF1_OK

/-- The PLL that drives the clock tree. -/
def State.activePll (s : State) : Nat := if s.rd (pllStateF 0) = 0 then 0 else 1

/-- The other PLL. -/
def State.standbyPll (s : State) : Nat := 1 - s.activePll

/-- The standby is STANDBY and ALIGNED. -/
def State.standbyReady (s : State) : Bool := s.rd (pllStateF s.standbyPll) = 1 && s.on F.CLK_STATUS_ALIGNED

/-- Update the power manager's own state. -/
def State.updPwr (s : State) (f : PwrSt → PwrSt) : State := { s with pwr := f s.pwr }

/-- What PLL `k` does about its lock: since when it relocks, and whether after a takeover. -/
def State.setRelock (s : State) (k : Nat) (x : Option (Nat × Bool)) : State :=
  s.updPwr (fun p => { p with relock := mset p.relock k x none })

/-- A REFCLK is lost: its OK bit and the interrupt. -/
def State.refLost (s : State) (r : Nat) : State := (s.wrB (refOkF r) false).raise .clk 0 2

/-- The two PLLs exchange roles (R364, R365); the PLL that was active enters `st`. DESIGN CHOICE: log entry 46. -/
def State.exchangePlls (s : State) (st : Nat) : State :=
  let k := s.activePll
  (s.wr (pllStateF k) st).wr (pllStateF (1 - k)) 0

/-- PLL_TAKEOVER (R364): the active PLL loses lock, or its REFCLK is lost. A standby that is STANDBY and ALIGNED takes over and the failed
PLL tries to relock; otherwise the error is FATAL. DEDUCED: log entry 45. -/
def execPllTakeover (refLost : Bool) (s : State) : Result :=
  .next (
    let k := s.activePll
    let s := if refLost then s.refLost (s.rd (pllRefF k)) else s
    if s.standbyReady then
      ((((s.exchangePlls 2).setRelock k (some (s.now, true))).wrB F.CLK_STATUS_ALIGNED false).satAdd F.CLK_STATUS_TAKEOVERS 1).raise
        .clk 0 0
    else ((s.wr (pllStateF k) 3).raise .clk 0 1).event fatal (codeOf .clk 0 1) k 0)

/-- Ticks in which a failed PLL may relock: 10 ms (R364). -/
def relockTicks : Nat := 16000000

/-- PLL_RELOCK_DONE (R364): PLL `k` locks again within 10 ms of a takeover and becomes STANDBY. -/
def execPllRelockDone (k : Fin 2) (s : State) : Result :=
  .next (
    match mget s.pwr.relock k none with
    | some (t, true) =>
      if s.rd (pllStateF k) = 2 && s.now - t ≤ relockTicks then
        ((s.setRelock k none).wr (pllStateF k) 1).event corrected (codeOf .clk 0 0) k 0
      else s
    | _ => s)

/-- PLL_RELOCK_TIMEOUT (R364): PLL `k` has not locked within 10 ms; the spare map records it as FAILED. -/
def execPllRelockTimeout (k : Fin 2) (s : State) : Result :=
  .next (
    match mget s.pwr.relock k none with
    | some (t, true) =>
      if s.rd (pllStateF k) = 2 && s.now - t ≥ relockTicks then
        ((((s.setRelock k none).wr (pllStateF k) 3).raise .clk 0 1).mapRecord 7 k (2 + (1 - k.val))).spareConsumed 7 .clk 0 k k
      else s
    | _ => s)

/-- PLL_ALIGNED (R363 to R365): the standby comes within ±20 ps of the active PLL. A standby that relocks for another reason than a
takeover becomes STANDBY with it. -/
def execPllAligned (s : State) : Result :=
  .next (
    let k := s.standbyPll
    if s.rd (pllStateF k) = 1 then s.wrB F.CLK_STATUS_ALIGNED true
    else
      match mget s.pwr.relock k none with
      | some (_, false) =>
        if s.rd (pllStateF k) = 2 then ((s.setRelock k none).wr (pllStateF k) 1).wrB F.CLK_STATUS_ALIGNED true else s
      | _ => s)

/-- CLK_SWITCH (R365, R390): a write of 1 to CLK_CFG.SWITCH moves the clock tree to the standby; it is locked while the standby is not
STANDBY and ALIGNED. DEDUCED: log entry 45. -/
def execClkSwitch (q : Requester) (s : State) : Result := if !s.grants q true then .next s else
  .next (
    if s.standbyReady then
      ((s.exchangePlls 1).satAdd F.CLK_STATUS_TAKEOVERS 1).raise .clk 0 0
    else s.locked q .CLK_CFG 0 (s.rd (pllStateF s.standbyPll)))

/-- The standby PLL must lock again for another reason than a takeover: it is RELOCKING until it is ALIGNED. -/
def State.standbyRelock (s : State) : State :=
  let k := s.standbyPll
  let s := s.wrB F.CLK_STATUS_ALIGNED false
  if s.rd (pllStateF k) = 1 then (s.wr (pllStateF k) 2).setRelock k (some (s.now, false)) else s

/-- CLK_REF_WRITE (R365, R390): a write of both REF fields. That of the active PLL is locked; a change of the standby's puts it in
RELOCKING. -/
def execClkRefWrite (q : Requester) (a b : Bool) (s : State) : Result := if !s.grants q true then .next s else
  .next (
    let v := fun (k : Nat) => if k = 0 then a else b
    let k := s.activePll
    let j := s.standbyPll
    let s := if s.on (pllRefF k) != v k then s.locked q .CLK_CFG 0 0 else s
    if s.on (pllRefF j) != v j then (s.wrB (pllRefF j) (v j)).standbyRelock else s)

/-- REFCLK_STATUS_CHANGE (R363, R364): REFCLK `r` is lost or returns, or the standby loses lock by itself. -/
def execRefclkStatusChange (r : Fin 2) (ok lock : Bool) (s : State) : Result :=
  .next (
    let lost := s.on (refOkF r) && !ok
    let s := if lost then s.refLost r else s.wrB (refOkF r) ok
    if !lock || (lost && s.rd (pllRefF s.standbyPll) = r.val) then s.standbyRelock else s)

end Sys2Proof.Machine
end

