-- ==== Sys2Proof/Machine/HbmOps.lean ====
section
/-! DEFINITION. The memory controllers: the address map, requests, rows, refresh credit, timing-set changes, retirement and channel
sparing (R216 to R245). -/

namespace Sys2Proof.Machine

/-- The controller of stack `st` beside its registers. -/
def State.mcOf (s : State) (st : Nat) : McSt := mget s.mc st {}

/-- Update the controller of stack `st`. -/
def State.updMc (s : State) (st : Nat) (f : McSt → McSt) : State := { s with mc := mset s.mc st (f (s.mcOf st)) {} }

/-! ### The address map (R217, R220, R221) -/

/-- Block number B of a stack-local offset. -/
def blockOf (off : Nat) : Nat := off / 4096

/-- Logical channel of a block. -/
def logicalCh (b : Nat) : Nat := b % 31

/-- Row of a block. -/
def rowOf (b : Nat) : Nat := b / 31 / 8

/-- Bank pair P of a block. -/
def bankPair (b : Nat) : Nat := (b / 31 % 8) ^^^ (rowOf b % 8) ^^^ (rowOf b / 8 % 8)

/-- Bank 0–15 of line `n` of a block: 4 × bank group + bank. -/
def bankOf (b n : Nat) : Nat := 4 * (2 * (bankPair b / 4) + n % 2) + bankPair b % 4

/-- Column of line `n` of a block, in units of 32 B within the pseudo-channel's row. -/
def columnOf (n : Nat) : Nat := n / 2

/-- Bytes of the 31 logical channels of a stack. -/
def stackBytes : Nat := 31 * 196608 * 4096

/-- Physical channel that serves logical channel `c`. -/
def State.physCh (s : State) (st c : Nat) : Nat := s.rd (F.MC_CHMAP_PHYS (31 * st + c))

/-- The physical channel of a stack that carries no logical channel: its spare (R243, R451). -/
def State.sparePhys (s : State) (st : Nat) : Nat :=
  ((List.range 32).find? (fun ch => !(List.range 31).any (fun c => s.physCh st c = ch))).getD 31

/-! ### Requests (R219, R222 to R225) -/

/-- Block of a request. -/
def McReq.block (r : McReq) : Nat := r.line / 64

/-- Banks that the lines of a request use. -/
def McReq.banks (r : McReq) : List Nat :=
  if r.lines ≤ 1 then [bankOf r.block (r.line % 64)] else [bankOf r.block 0, bankOf r.block 1]

/-- Two requests share a line. -/
def McReq.meets (a b : McReq) : Bool := a.line < b.line + b.lines && b.line < a.line + a.lines

/-- Requests of logical channel `c`, oldest first. -/
def State.chReqs (s : State) (st c : Nat) : List McReq := (s.mcOf st).reqs.filter (fun r => logicalCh r.block = c)

/-- A write that waits behind an earlier read of one of its lines (R224). -/
def blockedWrite (l : List McReq) (r : McReq) : Bool := r.write && l.any (fun x => x.id < r.id && !x.write && x.meets r)

/-- The row that a bank of pseudo-channel `pc` holds open, with the tick of its last access. -/
def State.openRow (s : State) (st pc bank : Nat) : Option (Nat × Nat) := mget (s.mcOf st).rows (16 * pc + bank) none

/-- The scheduler of channel `c` issues writes (R223): in a batch, or while no read waits. -/
def State.writeTurn (s : State) (st c : Nat) : Bool :=
  mget (s.mcOf st).batch c false || (s.chReqs st c).all (fun r => r.write)

/-- AGE_MAX of a stack in time ticks, 0 acting as 1. -/
def State.ageMax (s : State) (st : Nat) : Nat := max 1 (s.rd (F.MC_CFG_AGE_MAX st)) * 128

/-- The request that the scheduler of channel `c` chooses (R222): real-time, aged, open row, any, each oldest first. DESIGN CHOICE: log
entry 50. -/
def State.mcPick (s : State) (st c : Nat) : Option McReq :=
  let l := s.chReqs st c
  let turn := s.writeTurn st c
  let ok := l.filter (fun r => !blockedWrite l r && (r.rt || r.write = turn || (!r.write && !mget (s.mcOf st).batch c false)))
  let pc := 2 * s.physCh st c
  (ok.find? (fun r => r.rt)).orElse (fun _ =>
  (ok.find? (fun r => s.now - r.arrive > s.ageMax st)).orElse (fun _ =>
  (ok.find? (fun r => (s.openRow st pc (bankOf r.block (r.line % 64))).any (fun x => x.1 = rowOf r.block))).orElse (fun _ =>
  ok.head?)))

/-- WR_HIGH and WR_LOW of a stack (R223). -/
def State.wrMarks (s : State) (st : Nat) : Nat × Nat :=
  let hi := max 1 (min 32 (s.rd (F.MC_CFG_WR_HIGH st)))
  (hi, min hi (s.rd (F.MC_CFG_WR_LOW st)))

/-- The write batch of channel `c` starts at WR_HIGH and ends at WR_LOW (R223). -/
def State.batchUpdate (s : State) (st c : Nat) : State :=
  let n := ((s.chReqs st c).filter (fun r => r.write)).length
  let (hi, lo) := s.wrMarks st
  let b : Bool := if n ≥ hi then true else if n ≤ lo then false else mget (s.mcOf st).batch c false
  s.updMc st (fun m => { m with batch := mset m.batch c b false })

/-- A bank of pseudo-channel `pc` is closed, by its idle timer or not. -/
def State.closeRow (s : State) (st pc bank : Nat) (byTimer : Bool) : State :=
  let k := 16 * pc + bank
  s.updMc st (fun m =>
    { m with rows := mset m.rows k none none,
             closed := if byTimer then mset m.closed k ((mget m.rows k none).map (fun x => (x.1, s.now))) none
                       else mset m.closed k none none })

/-- An access to `row` of a bank of pseudo-channel `pc` (R226, R227): late hits and conflicts, and the row stays open. -/
def State.touchRow (s : State) (st pc bank row : Nat) : State :=
  let k := 16 * pc + bank
  let m := s.mcOf st
  let conflict := (mget m.rows k none).any (fun x => x.1 ≠ row)
  let late := (mget m.rows k none).isNone &&
    (mget m.closed k none).any (fun x => x.1 = row && s.now - x.2 ≤ s.rd (F.MC_IDLE_STATUS_CUR (64 * st + pc)))
  s.updMc st (fun m =>
    { m with rows := mset m.rows k (some (row, s.now)) none, closed := mset m.closed k none none,
             conflicts := if conflict then mset m.conflicts pc (mget m.conflicts pc 0 + 1) 0 else m.conflicts,
             lateHits := if late then mset m.lateHits pc (mget m.lateHits pc 0 + 1) 0 else m.lateHits })

/-- The access of a request to its rows, in both pseudo-channels of its channel (R217, R222). -/
def State.touchRows (s : State) (st : Nat) (r : McReq) : State :=
  let ch := s.physCh st (logicalCh r.block)
  r.banks.foldl (fun s b => (s.touchRow st (2 * ch) b (rowOf r.block)).touchRow st (2 * ch + 1) b (rowOf r.block)) s

/-- The line contents that a read finds (R224): HBM with the data of the writes queued before it, oldest first. DESIGN CHOICE: log entry 50.
-/
def State.queuedView (s : State) (st : Nat) (before : List McReq) (a n : Nat) : Bytes :=
  (before.filter (fun w => w.write)).foldl (fun d w =>
    (List.range n).map (fun k =>
      let x := a + k
      let w0 := 64 * w.line + w.off
      if w0 ≤ x && x < w0 + w.len then w.data.getD (x - w0) 0 else d.getD k 0)) (s.hbmRead st a n)

/-! ### Refresh credit (R229 to R232) -/

/-- OWED of a bank of physical channel `ch`. -/
def owedF (st ch bank : Nat) : Fld := F.MC_REF_OWED_OWED (512 * st + 16 * ch + bank)

/-- Logical channel that physical channel `ch` serves. -/
def State.logicalOf (s : State) (st ch : Nat) : Option Nat := (List.range 31).find? (fun c => s.physCh st c = ch)

/-- Requests that wait for a bank of physical channel `ch`. -/
def State.bankReqs (s : State) (st ch bank : Nat) : List McReq :=
  match s.logicalOf st ch with
  | some c => (s.chReqs st c).filter (fun r => r.banks.contains bank)
  | none => []

/-- A refresh of a bank is issued: its rows close in both pseudo-channels (R226, R229). DESIGN CHOICE: log entry 66. -/
def State.refreshIssue (s : State) (st ch bank : Nat) : State :=
  (s.closeRow st (2 * ch) bank false).closeRow st (2 * ch + 1) bank false

/-- One owed refresh of a bank is repaid when no real-time request waits for it (R230). -/
def State.repay (s : State) (st ch bank : Nat) : State :=
  if s.rd (owedF st ch bank) > 0 && (s.bankReqs st ch bank).all (fun r => !r.rt) then
    (s.subFrom (owedF st ch bank) 1).refreshIssue st ch bank
  else s

/-- Before a request that is not real-time, a bank that owes 4 or more is repaid (R230). -/
def State.repayAhead (s : State) (st ch bank : Nat) : State :=
  if s.rd (owedF st ch bank) ≥ 4 then (s.wr (owedF st ch bank) 3).refreshIssue st ch bank else s

/-! ### Self-refresh and timing sets (R235 to R239, R245) -/

/-- A request arrives at a stack that is in idle self-refresh, or is entering self-refresh for a timing-set change that has not
committed (R237). -/
def State.mcWake (s : State) (st : Nat) : State :=
  let m := s.mcOf st
  let s := if m.sr ≠ 0 then (s.updMc st (fun m => { m with sr := 0 })).wrB (F.MC_STATUS_SR st) false else s
  match m.change with
  | some t =>
    if t.entering && !t.committed && t.aborts < 4 then
      (s.updMc st (fun m => { m with change := some { t with aborts := t.aborts + 1, entering := false, since := s.now } })).wr
        (F.MC_TSET_CMD_ABORTS st) (t.aborts + 1)
    else s
  | none => s

/-- The controller holds its requests: a timing-set change is in progress, or after 4 aborts waits for its entry (R237). -/
def State.mcHeld (s : State) (st : Nat) : Bool :=
  (s.mcOf st).sr ≠ 0 || (s.mcOf st).change.any (fun t => t.committed || (t.entering && t.aborts ≥ 4))

/-- The entry of a timing-set change commits. DESIGN CHOICE: log entry 36. -/
def State.tsetCommit (s : State) (st : Nat) : State :=
  (s.updMc st (fun m => { m with change := m.change.map (fun t => { t with committed := true, entering := true, since := s.now }),
                                 sr := 0 })).wrB (F.MC_STATUS_SR st) true

/-- A timing-set change begins (R236). -/
def State.tsetBegin (s : State) (st target : Nat) : State :=
  ((s.updMc st (fun m => { m with change := some { target := target, committed := false, entering := true, aborts := 0,
                                                   since := s.now } })).wrB (F.MC_STATUS_TSET_BUSY st) true).wr
    (F.MC_TSET_CMD_ABORTS st) 0

/-- A request for timing set `target` (R236, R245): it starts a change, replaces the target of a pending one, or becomes the next
change; 3 is ignored, and the active set with no change pending starts nothing. -/
def State.tsetRequest (s : State) (st target : Nat) : State :=
  if target ≥ 3 then s
  else
    let s := s.wr (F.MC_TSET_CMD_TARGET st) target
    match (s.mcOf st).change with
    | none => if s.rd (F.MC_STATUS_TSET st) = target then s else s.tsetBegin st target
    | some t =>
      if t.committed then s.updMc st (fun m => { m with nextSet := some target })
      else s.updMc st (fun m => { m with change := some { t with target := target } })

/-- Difference of two temperatures. -/
def tempDiff (a b : Nat) : Nat := (a - b) + (b - a)

/-- VALID of MC_TRAIN_STATUS: a set is stale when the temperature has moved more than 15 °C since it was trained (R244). -/
def State.staleCheck (s : State) (st : Nat) : State :=
  let t := s.rd (F.MC_STATUS_TEMP st)
  (List.range 3).foldl (fun s k =>
    match mfind (s.mcOf st).trainTemp k with
    | some x =>
      if tempDiff t x > 15 then s.wr (F.MC_TRAIN_STATUS_VALID st) (setBit (s.rd (F.MC_TRAIN_STATUS_VALID st)) k false) else s
    | none => s) s

/-- Set `k` is trained at the present temperature. -/
def State.trainSet (s : State) (st k : Nat) : State :=
  (s.updMc st (fun m => { m with trainTemp := minsert m.trainTemp k (s.rd (F.MC_STATUS_TEMP st)) })).wr
    (F.MC_TRAIN_STATUS_VALID st) (setBit (s.rd (F.MC_TRAIN_STATUS_VALID st)) k true)

/-! ### Retirement and channel sparing (R242, R243) -/

/-- The pool whose region holds a stack-local offset, with the index of the buffer there. -/
def State.poolAt (s : State) (st off : Nat) : Option (Nat × Nat) :=
  (List.range 4).findSome? (fun k =>
    let base := 2 ^ 20 * s.rd (F.BPM_REGION_BASE (10 * st + 3 + k))
    let size := 2 ^ 20 * s.rd (F.BPM_REGION_SIZE (10 * st + 3 + k))
    if base ≤ off && off < base + size then some (k, (off - base) / poolSize k) else none)

/-- A free buffer leaves its ring and its caches and counts as retired (R211, R242). -/
def State.withhold (s : State) (st k ix : Nat) : State :=
  let s := (s.subFrom (F.BPM_POOL_FREE_FREE (4 * st + k)) 1).wrapAdd (F.BPM_POOL_RETIRED_RETIRED (4 * st + k)) 1
  let key := entKey (mkHandle 0 k st ix)
  s.updBpm (fun b =>
    { b with ring := mset b.ring (8 * st + k) ((mget b.ring (8 * st + k) []).filter (fun i => i ≠ ix)) [],
             cache := b.cache.map (fun c => (c.1, c.2.filter (fun h => entKey h ≠ key))) })

/-- Every buffer that overlaps block `b` is marked, so that the pool manager withholds it (R211, R242). -/
def State.markBuffers (s : State) (st b : Nat) : State :=
  match s.poolAt st (4096 * b) with
  | none => s
  | some (k, ix) =>
    (List.range (if k = 0 then 8 else 1)).foldl (fun s j =>
      let h := mkHandle 0 k st (ix + j)
      if ix + j < s.poolCount st k && !(s.bufEnt h).retire then
        let e := s.bufEnt h
        let s := s.setEnt h { e with retire := true }
        if e.count = 0 then s.withhold st k (ix + j) else s
      else s) s

/-- Block `b` is in the retirement list of a stack. -/
def State.retired (s : State) (st b : Nat) : Bool :=
  (List.range 512).any (fun e =>
    s.on (F.MC_RETIRE_LIST_VALID (512 * st + e)) && s.rd (F.MC_RETIRE_LIST_BLOCK (512 * st + e)) = b)

/-- Retired blocks of logical channel `c`. -/
def State.retiredOf (s : State) (st c : Nat) : Nat :=
  ((List.range 512).filter (fun e =>
    s.on (F.MC_RETIRE_LIST_VALID (512 * st + e)) && logicalCh (s.rd (F.MC_RETIRE_LIST_BLOCK (512 * st + e))) = c)).length

/-- A block of a pool region is marked for retirement (R242); with the list full it is only logged. DEDUCED: log entry 63. -/
def State.blockRetire (s : State) (st b : Nat) : State :=
  if (s.poolAt st (4096 * b)).isNone || s.retired st b then s
  else
    let n := s.rd (F.MC_RETIRE_STATUS_COUNT st)
    if n ≥ 512 then s.event notice (codeOf .mc 0 2) st b
    else
      let s := (s.wr (F.MC_RETIRE_LIST_BLOCK (512 * st + n)) b).wrB (F.MC_RETIRE_LIST_VALID (512 * st + n)) true
      let s := ((s.wr (F.MC_RETIRE_STATUS_COUNT st) (n + 1)).raise .mc st 1).markBuffers st b
      if n + 1 = 512 then (s.wrB (F.MC_RETIRE_STATUS_FULL st) true).raise .mc st 2 else s

/-- Object of a channel under R450. -/
def channelObject (st c : Nat) : Nat := 32 * st + c

/-- The stack's spare channel is unused. -/
def State.channelReady (s : State) (st : Nat) : Bool := s.rd (F.MC_STATUS_SPARE st) = 0

/-- Channel sparing of logical channel `c` starts (R243, R452). -/
def State.channelStart (s : State) (st c : Nat) : State :=
  let s := { s with spareMap := minsert s.spareMap (key2 4 (channelObject st c)) (2 + s.sparePhys st) }
  let s := ((s.wr (F.MC_STATUS_SPARE st) 1).wr (F.MC_STATUS_SPARED_CH st) c).wr (F.MC_STATUS_COPY_PCT st) 0
  s.updMc st (fun m => { m with copy := some (c, 0) })

end Sys2Proof.Machine
end

