-- ==== Sys2Proof/Machine/Lagoon.lean ====
section
/-! DEFINITION. The commands of the Lagoon (R175, R186, R187), the deep buffer (R197 to R206) and the buffer pools (R207 to
R214). -/

namespace Sys2Proof.Machine

/-! ### Banks and adaptive thresholds -/

/-- A RESERVE bank of half `h`. -/
def State.reserveBank (s : State) (h : Nat) : Option Nat :=
  (List.range 34).find? (fun b => s.rd (F.LAG_BANK_STATUS_STATE (34 * h + b)) = 1)

/-- Bank `b` of half `h` is replaced by RESERVE bank `r` (R175, R452): `b` drains, and the cells of `r` join the free count. DEDUCED: log
entry 147. -/
def State.bankReplace (s : State) (h b r : Nat) : State :=
  let s := (s.mapRecord 2 (34 * h + b) (2 + (34 * h + r))).subFrom (F.LAG_HALF_STATUS_FREE h)
    (16384 - s.rd (F.LAG_BANK_STATUS_HELD (34 * h + b)) - mget s.path.granted (34 * h + b) 0)
  let s := ((s.wr (F.LAG_BANK_STATUS_STATE (34 * h + b)) 2).wr (F.LAG_BANK_STATUS_STATE (34 * h + r)) 0).lagEvent h 2
  let s := (s.wrapAdd (F.LAG_HALF_STATUS_FREE h) 16384).subFrom (F.LAG_HALF_STATUS_RESERVE_LEFT h) 1
  let s := (s.spareConsumed 2 .lag 0 (34 * h + b) r).spillUpdate h
  (s.overcommitUpdate h).bankCheck h b

/-- BANK_REPLACE (R175): without a RESERVE bank the replacement is refused and logged, and the bank stays ACTIVE. -/
def execBankReplace (h : Fin 2) (b : Fin 34) (s : State) : Result :=
  .next (
    if s.rd (F.LAG_BANK_STATUS_STATE (34 * h + b)) ≠ 0 then s
    else
      match s.reserveBank h with
      | some r => s.bankReplace h b r
      | none => (s.lagEvent h 3).event degraded (codeOf .lag 0 0x86) (34 * h + b) 0)

/-- The half of a queue's port. -/
def homeOf (k : Nat) : Nat := queuePort k / 256

/-- ALPHA_FLOOR and ALPHA_CEIL of a queue, a FLOOR above CEIL acting as CEIL (R187). -/
def State.alphaBounds (s : State) (k : Nat) : Nat × Nat :=
  let hi := min 9 (s.rd (byKey F.LAG_Q_CFG_ALPHA_CEIL F.LAG_MQ_CFG_ALPHA_CEIL k))
  (min hi (s.rd (byKey F.LAG_Q_CFG_ALPHA_FLOOR F.LAG_MQ_CFG_ALPHA_FLOOR k)), hi)

/-- The step that the loop wants for a queue at the end of a period, given the quiet periods so far, this one included (R186). -/
def State.alphaWish (s : State) (k quiet : Nat) : Int :=
  let h := homeOf k
  let f := s.sharedFree h
  let sp := s.rd (F.LAG_POOL_SIZE (3 * h + 1))
  if mget s.path.egrDrops k 0 > 0 && f * 4 ≥ sp then 1
  else if f * 16 < sp && !withinAlpha (s.rd (occF k) - s.qMin k) (s.rd (qCurF k)) f then -1
  else if quiet ≥ 16 then
    let cur := min 9 (s.rd (qCurF k))
    if cur < s.alphaSet k then 1 else if cur > s.alphaSet k then -1 else 0
  else 0

/-- A period of queue `k` has neither of the first two conditions of R186. -/
def State.alphaQuiet (s : State) (k : Nat) : Bool :=
  let h := homeOf k
  let f := s.sharedFree h
  let sp := s.rd (F.LAG_POOL_SIZE (3 * h + 1))
  !(mget s.path.egrDrops k 0 > 0 && f * 4 ≥ sp) &&
    !(f * 16 < sp && !withinAlpha (s.rd (occF k) - s.qMin k) (s.rd (qCurF k)) f)

/-- The end of an α period of queue `k` (R186, R187). The values written since the last boundary take effect. A working value outside the
bounds moves to the nearer one, and that is its step; a step beyond a bound leaves it there and pins it. -/
def State.alphaEnd (s : State) (k : Nat) : State :=
  let s := s.updPath (fun y => { y with alphaWas := mset y.alphaWas k 0 0 })
  let quiet := if s.alphaQuiet k then mget s.path.quiet k 0 + 1 else 0
  let (lo, hi) := s.alphaBounds k
  let cur := min 9 (s.rd (qCurF k))
  let want := (cur : Int) + s.alphaWish k quiet
  let inside := lo ≤ cur && cur ≤ hi
  let pin := inside && (want < lo || want > hi)
  let s := s.updPath (fun y => { y with egrDrops := mset y.egrDrops k 0 0, quiet := mset y.quiet k (min quiet 16) 0 })
  let s := s.wr (qCurF k) (if !inside then max lo (min hi cur) else if pin then cur else want.toNat)
  let s := s.wrB (byKey F.LAG_Q_STATUS_ALPHA_PINNED F.LAG_MQ_STATUS_ALPHA_PINNED k) pin
  if pin then s.satAdd F.LAG_PINNED_CNT_ALPHA 1 else s

/-- A unicast queue scales its ECN thresholds (R189). -/
def State.ecnAdapts (s : State) (k : Nat) : Bool := k < 8192 && s.on (F.LAG_Q_ECN_ADAPT k)

/-- The end of a period for the ECN thresholds of queue `k` (R189): a bound that acts sets ECN_PINNED and counts, as under R187. -/
def State.ecnEnd (s : State) (k : Nat) : State :=
  if (s.ecnThresholds k).2.2 then s.ecnHeld k else s.wrB (F.LAG_Q_STATUS_ECN_PINNED k) false

/-- ALPHA_ADAPT (R186, R187, R189): the end of a period of queue `k` (unicast q, multicast 8,192 + m). Periods lie on the time ticks that
are multiples of the period. DESIGN CHOICE: log entry 158. -/
def execAlphaAdapt (k : Fin 9216) (s : State) : Result :=
  .next (
    if !(s.on (qAdaptF k) || s.ecnAdapts k) || !s.due .alpha k s.adaptPeriod then s
    else
      let s := s.ran .alpha k (s.now - s.now % s.adaptPeriod)
      let s := if s.on (qAdaptF k) then s.alphaEnd k else s
      if s.ecnAdapts k then s.ecnEnd k else s)

/-! ### Deep pages -/

/-- Pages that have been delivered and whose packets have all left are forgotten, and a list block whose 63 entries are all
consumed is released with its copy (R202, R205). -/
def State.deepTidy (s : State) (q : Nat) : State :=
  let d := s.deepQ q
  let live (g : Page) : Bool := g.stage ≠ 5 || g.parts.any (fun y => (mfind s.path.pkts y.1).isSome)
  let s := s.setDeep q { d with pages := d.pages.filter live }
  let d := s.deepQ q
  let left := (d.pages.filter (fun g => g.stage ≠ 0 && g.stage ≠ 5)).length
  match d.blocks with
  | (a, b) :: t =>
    if d.entries - left ≥ 63 then
      let s := (s.bpmRelease (deepAgent (q / 4096)) a).2
      let s := (s.bpmRelease (deepAgent (q / 4096)) b).2
      s.setDeep q { d with entries := d.entries - 63, blocks := t }
    else s
  | [] => s

/-- 64 B lines of a page's record. -/
def Page.recLines (g : Page) : Nat := (16 + 32 * g.begins.length + 63) / 64

/-- 64 B lines of a page: its record and its filled slots (R201). -/
def Page.lines (g : Page) : Nat := g.recLines + 4 * g.cells

/-- The deep packets of queue `q` are lost: its port has failed with REROUTE_QUEUED at 0, or is disabled (R114, R206). -/
def State.deepDead (s : State) (q : Nat) : Bool :=
  let p := q / 16
  !s.portLive p && !s.wakeLinking p && !(s.portState p = 2 && s.on (F.TM_PORT_CFG_REROUTE_QUEUED p))

/-- A page of queue `q` may be written: every cell of it that a spilled packet has in the other half has been read across (R35, R201). -/
def State.pageHere (s : State) (q : Nat) (g : Page) : Bool := g.parts.all (fun y => mget (s.deepQ q).owed y.1 0 = 0)

/-- Packet `y.1` gives up the `y.2` cells of it that now stand in HBM (R184). -/
def State.cellsGone (s : State) (q : Nat) (y : Nat × Nat) : State :=
  match mfind s.path.pkts y.1 with
  | some x => (s.subFrom (occF q) (min y.2 x.cells.length)).giveCells y.1 y.2
  | none => s

/-- DEEP_PAGE_WRITTEN (R201, R202): the write of page `seq` of queue `q` completes; its record, its cells and its list entry stand in HBM,
and its cells in the Lagoon go back to their accounts. -/
def execDeepPageWritten (q : Fin 8192) (seq : Fin 65536) (s : State) : Result :=
  .next (
    match (s.deepQ q).pages.find? (fun g => g.stage = 1 && g.seq = seq.val && s.pageHere q g) with
    | none => s
    | some g =>
      let s := ((s.storePage q g).putList g).cntGlobal 0x51 (hStack g.handle) g.lines
      let s := g.parts.foldl (fun s y => s.cellsGone q y) s
      let d := s.deepQ q
      s.setDeep q { d with pages := updFirst (fun p => p.stage = 1 && p.seq = seq.val) (fun p => { p with stage := 2 }) d.pages })

/-- DEEP_MODE_LEAVE (R198): the queue has no page in HBM, no page being written and no open page. -/
def execDeepModeLeave (q : Fin 8192) (s : State) : Result :=
  .next (
    let d := s.deepQ q
    if s.on (F.BPM_DEEP_Q_STATUS_DEEP q) && d.pages.all (fun g => g.stage ≥ 4) && d.waiting.isEmpty && d.part.isNone then
      let ag := deepAgent (q / 4096)
      let s := d.blocks.foldl (fun s b => ((s.bpmRelease ag b.1).2.bpmRelease ag b.2).2) s
      let s := s.setDeep q { d with blocks := [], entries := 0, seq := 0 }
      (s.wrB (F.BPM_DEEP_Q_STATUS_DEEP q) false).subFrom (F.BPM_DEEP_DIE_STATUS_DEEP_QUEUES (q / 4096)) 1
    else s)

/-- DRAIN_READ_ISSUE (R201, R203): the next page read of queue `q`, in list order, while fewer than DRAIN_AHEAD pages are in
flight or read back; with the list empty, an open page that holds a cell is closed. -/
def execDrainReadIssue (q : Fin 8192) (s : State) : Result :=
  .next (
    let s := s.deepTidy q
    let d := s.deepQ q
    if (d.pages.filter (fun g => g.stage ≥ 3)).length ≥ max 1 (s.rd (F.BPM_DEEP_Q_CFG_DRAIN_AHEAD q)) then s
    else
      match d.pages.find? (fun g => g.stage = 1 || g.stage = 2) with
      | none => if d.pages.any (fun g => g.stage = 0 && g.cells ≠ 0) then s.closePage q else s
      | some g =>
        if g.stage ≠ 2 then s
        else
          let s := s.setDeep q { d with pages := updFirst (fun p => p.stage = 2)
                                                    (fun p => { p with stage := 3, since := s.now }) d.pages }
          (s.cntGlobal 0x49 (q / 4096) 1).cntGlobal 0x50 (hStack g.handle) (if s.deepDead q then g.recLines else g.lines))

/-- The queue that a deep packet of queue `q` is bound for now: a reroute keeps the queue index. -/
def deepQueueOf (x : Pkt) (q : Nat) : Nat := 16 * x.md.egressPort + q % 16

/-- `n` cells of deep packet `id` of queue `q` take cells of half `h`, charged to its shared pool: those of the other die cross the
Causeway into granted cells (R184, R203, R206). -/
def State.backTo (s : State) (q id h n : Nat) : State :=
  match mfind s.path.pkts id with
  | none => s
  | some x =>
    let s := ((s.charge (.shared none) h n).subFrom (F.LAG_HALF_STATUS_FREE h) n).spillUpdate h
    let s := if h = q / 4096 then
        let r := s.takeCells h n
        r.2.setPkt id (some { x with back := x.back ++ r.1, backHalf := h })
      else
        (s.setPkt id (some { x with backHalf := h, moving := x.moving + n })).cross (q / 4096)
          ((List.range n).map (fun k => .cellWr id (x.back.length + x.moving + k)))
    s.pgTests h

/-- `n` cells of packet `id` are read back into the Lagoon half of its queue, charged to the shared pool (R184, R203). -/
def State.cellsBack (s : State) (q id n : Nat) : State :=
  match mfind s.path.pkts id with
  | none => s
  | some x =>
    let k := deepQueueOf x q
    (s.backTo q id (homeOf k) n).wrapAdd (occF k) n

/-- The cells that a rerouted deep packet has had read back move to the half of its new queue, across the Causeway (R206). -/
def State.moveBack (s : State) (q id : Nat) : State :=
  match mfind s.path.pkts id with
  | none => s
  | some x =>
    let h := homeOf (deepQueueOf x q)
    if h = x.backHalf || x.back.isEmpty then s
    else
      let s := (s.freeCells x.backHalf x.back).refund (.shared none) x.backHalf x.back.length
      (s.setPkt id (some { x with back := [] })).backTo q id h x.back.length

/-- A packet of queue `q` is dropped while deep, with all that it holds. -/
def State.deepDrop (s : State) (q code id : Nat) : State :=
  match mfind s.path.pkts id with
  | none => s
  | some x =>
    let k := deepQueueOf x q
    let s := s.subFrom (occF k) (x.cells.length + x.back.length + x.moving)
    let s := s.updPath (fun y => { y with queues := mset y.queues k ((mget y.queues k []).filter (fun e => e.pkt ≠ id)) [] })
    let s := if code = 0x52 then s.satAdd (F.BPM_DEEP_DROP_CNT_COUNT (3 * (q / 4096) + 2)) 1 else s
    ((s.drop code (x.info k (s.depth k) (s.now * 16 - x.admitted))).release id).queueStatus k

/-- A landed descriptor goes to its queue, or as a failed port decides (R155, R205). -/
def State.deepDeliver (s : State) (q id : Nat) : State :=
  match mfind s.path.pkts id with
  | none => s
  | some x =>
    let k := deepQueueOf x q
    let p := queuePort k
    let e : QEnt := { pkt := id, depth := s.depth k }
    if s.portLive p || s.wakeLinking p then s.enqueue k id (s.depth k)
    else if s.portState p = 2 && s.on (F.TM_PORT_CFG_REROUTE_QUEUED p) then (s.reroute k dropLinkDown e).moveBack q id
    else s.deepDrop q (if s.portState p = 2 then dropLinkDown else dropPortDisabled) id

/-- Deliver the pages that have landed at the head of the list, in order (R205). -/
def State.deepDeliverAll (s : State) (q : Nat) : List Page → State
  | [] => s
  | g :: t =>
    if g.stage = 5 then s.deepDeliverAll q t
    else if g.stage = 4 then
      let d := s.deepQ q
      let s := s.setDeep q { d with pages := updFirst (fun p => p.seq = g.seq && p.stage = 4) (fun p => { p with stage := 5 })
                                               d.pages }
      (g.begins.foldl (fun s id => s.deepDeliver q id) s).deepDeliverAll q t
    else s

/-- Both copies of a list block of queue `q` are lost (R206): its remaining deep packets, those that have not reached the traffic
manager, are dropped, and the buffers that they held are unreachable until reset. -/
def State.listLost (s : State) (q : Nat) : State :=
  let die := q / 4096
  let d := s.deepQ q
  let out := d.pages.filter (fun g => g.stage ≤ 3)
  let ids := ((d.pages.filter (fun g => g.stage ≠ 5)).flatMap (fun g => g.parts.map (fun y => y.1)) ++ d.waiting).eraseDups
  let s := ids.foldl (fun s id => s.deepDrop q 0x52 id) s
  let d := s.deepQ q
  let s := s.satAdd (F.BPM_DEEP_DIE_STATUS_LOST die) (out.length + 2 * d.blocks.length)
  let s := s.setDeep q { d with pages := d.pages.filter (fun g => g.stage = 5), blocks := [], entries := 0, waiting := [], part := none,
                                owed := [] }
  (s.raise .bpm 0 4).event degraded (codeOf .bpm 0 4) die q

/-- DRAIN_PAGE_LAND (R205, R206): page `seq` of queue `q` lands in the Lagoon. `err` is 1 for an uncorrectable page, which drops
every packet with a cell in it, and 2 for a list block lost in both copies. Of a port that has failed with REROUTE_QUEUED at 0 only the
records are read. -/
def execDrainPageLand (q : Fin 8192) (seq : Fin 65536) (err : Fin 3) (s : State) : Result :=
  .next (
    if err = 2 then (if (s.deepQ q).blocks.isEmpty then s else s.listLost q)
    else
      match (s.deepQ q).pages.find? (fun g => g.stage = 3 && g.seq = seq.val) with
      | none => s
      | some g =>
        let s := if err = 1 then
            g.parts.foldl (fun s y => s.deepDrop q 0x52 y.1)
              (s.event contained (codeOf .bpm 0 0x81) (q / 4096) g.handle)
          else if s.deepDead q then s
          else g.parts.foldl (fun s y => s.cellsBack q y.1 y.2) s
        let d := s.deepQ q
        let s := s.setDeep q { d with pages := updFirst (fun p => p.stage = 3 && p.seq = seq.val)
                                                  (fun p => { p with stage := 4 }) d.pages }
        let s := (s.bpmRelease (deepAgent (q / 4096)) g.handle).2
        let s := s.deepDeliverAll q (s.deepQ q).pages
        (s.deepTidy q).gatherAll)

/-! ### Buffer pools -/

/-- The agents of R214. -/
def agentKnown (a : Nat) : Bool := a = 1 || a = 2 || (0x10 ≤ a && a < 0x34) || (0x40 ≤ a && a < 0x60) || a = 0x60 || a = 0x61

/-- The result of an operation for a Harbour function stands in its BPM_FN registers. -/
def State.fnResult (s : State) (a status handle : Nat) : State :=
  if 0x40 ≤ a && a < 0x60 then
    (s.wr (F.BPM_FN_RESULT_STATUS (a - 0x40)) status).wr (F.BPM_FN_HANDLE_HANDLE (a - 0x40)) handle
  else s

/-- BPM_ALLOC (R209, R211, R212): a page that a deep-buffer engine draws from pool P1 joins its stock (R199). -/
def execBpmAlloc (a : Fin 256) (pool : Fin 4) (domain : Fin 64) (s : State) : Result :=
  .next (
    if !agentKnown a then s
    else
      let r := s.bpmAlloc a pool domain
      if r.1 = stOk && (a.val = 1 || a.val = 2) && pool.val = 1 then
        (r.2.2.updBpm (fun b => { b with stock := mset b.stock (a - 1) (mget b.stock (a - 1) [] ++ [r.2.1]) [] })).gatherAll
      else r.2.2.fnResult a r.1 r.2.1)

/-- BPM_ADD_REF (R212, R213). -/
def execBpmAddRef (a : Fin 256) (h : BitVec 48) (n : BitVec 8) (s : State) : Result :=
  .next (
    if !agentKnown a then s
    else
      let r := s.bpmAddRef a h.toNat n.toNat
      r.2.fnResult a r.1 h.toNat)

/-- BPM_RELEASE (R211 to R213). `uncorr` tells an uncorrectable error in the buffer's META entry, which is FATAL (R438) and
leaves the entry as it is. A freed page lets gathering that waits go on (R199). -/
def execBpmRelease (a : Fin 256) (h : BitVec 48) (uncorr : Bool) (s : State) : Result :=
  .next (
    if !agentKnown a then s
    else if uncorr then s.event fatal (codeOf .bpm 0 0x81) a h.toNat
    else
      let r := s.bpmRelease a h.toNat
      (r.2.fnResult a r.1 h.toNat).gatherAll)

/-- BPM_QUERY (R212). -/
def execBpmQuery (a : Fin 256) (h : BitVec 48) (s : State) : Result :=
  .next (
    if !agentKnown a then s
    else
      let r := s.bpmQuery h.toNat
      s.fnResult a r.1 r.2)

/-- BPM_CACHE_REFILL (R207): a part (0 LOCAL, 1 ALL) of the cache of die `d` and pool `k` with fewer than 128 handles takes 64. -/
def execBpmCacheRefill (d : Fin 2) (k : Fin 4) (part : Fin 2) (s : State) : Result :=
  .next (if (s.cacheOf d k part).length < 128 then s.cacheFill d k part 64 else s)

/-- BPM_CACHE_RETURN (R207): a part with more than 448 handles gives 64 back to the rings. -/
def execBpmCacheReturn (d : Fin 2) (k : Fin 4) (part : Fin 2) (s : State) : Result :=
  .next (if (s.cacheOf d k part).length > 448 then s.cacheDrain d k part 64 else s)

end Sys2Proof.Machine
end

