-- ==== Sys2Proof/Machine/PipeExit.lean ====
section
/-! DEFINITION. The end of an ingress pipeline (R139), and the hitless swap and retirement of pipelines (R162 to R170). -/

namespace Sys2Proof.Machine

/-! ### Handing a packet on -/

/-- The drop code of a packet that the program drops (R308). DESIGN CHOICE: log entry 33. -/
def programDrop (reason : Nat) : Nat := if reason < 0x80 then 0x07 else reason

/-- A packet with a front-port destination goes to admission (R94, R180, R190). A packet whose program names no destination is
dropped with a code that the spec does not give. -/
def State.toAdmission (s : State) (i x : Nat) (f : Flight) (a : Arrival) : State :=
  if f.md.mcastGroup ≠ 0 then
    let qs := s.mcastMembers i f.md.mcastGroup
    if f.md.badFrame then s.pipeDrop i x 0x01 f.info else s.admitMcast a qs (mcastHome qs a.die)
  else if f.md.egressPort < 512 then
    if f.md.badFrame then s.pipeDrop i x 0x01 f.info else s.admitUnicast a f.md.egressPort f.md.queue
  else
    let (v, s) := s.fresh
    s.pipeDrop i x (v % 256) f.info

/-- The copy of a packet for its mirror session, which has no ingress port (R156, R183). The rules give a session no form: the model takes
its egress port and queue from words 0 and 1 of an entry of a table of the image's layout. DESIGN CHOICE: log entries 34, 157. -/
def State.mirror (s : State) (i : Nat) (f : Flight) (a : Arrival) : State :=
  if f.md.mirror = 0 || f.md.badFrame then s
  else
    match s.roleWords (2 * i) 5 f.md.mirror with
    | none => s
    | some w =>
      let p := w.getD 0 0 % 512
      let q := w.getD 1 0 % 16
      s.admitUnicast { a with inPort := 0x3FF, md := { f.md with mirror := 0, trapMode := 0, group := 0xFFF, mcastGroup := 0, egressPort := p, queue := q } } p q

/-- A packet that leaves stage 24 of pipeline `x` of island `i` is dropped, trapped, given to Atoll or admitted (R43, R134, R139, R284).
DESIGN CHOICE: log entries 33, 34. -/
def State.handOn (s : State) (i x : Nat) (f : Flight) (sub : Nat) : State :=
  let a := s.arrival (10 * i + x) f.rx f.md sub
  if f.hw ≠ 0 then s.pipeDrop i x f.hw f.info
  else if f.md.drop then s.pipeDrop i x (programDrop f.md.dropReason) f.info
  else if f.md.trapMode = 1 then s.trapPass i x f.md.trapReason none a
  else
    let s := (if f.md.trapMode = 2 then s.trapPass i x f.md.trapReason none a else s).mirror i f a
    match if f.md.atoll && !f.rx.bad then s.atlRecognise f.md.session f.rx.data else none with
    | some d =>
      s.atlHandoff { port := f.rx.port, host := f.rx.host, sess := f.md.session, src := 10 * i + x, frame := f.rx.data,
                     md := f.md, ts := f.rx.ts, data := d }
    | none => s.toAdmission i x f a

/-- Frames of port `p` that the drain fence of the reserve holds pass it, in order (R166). -/
def State.releaseFence (s : State) (i d p : Nat) : State :=
  match s.pipeSwap i d with
  | none => s
  | some w =>
    let y := 10 * i + w.resv
    let go := (s.fenced y).filter (fun e => e.2.rx.port = p)
    let s := s.setFenced y ((s.fenced y).filter (fun e => e.2.rx.port ≠ p))
    go.foldl (fun s e =>
      let h := s.coreClocks (s.now - e.1)
      let s := s.wr (F.PIPE_SWAP_STATUS_HOLD_MAX (2 * i + d)) (min 1023 (max h (s.rd (F.PIPE_SWAP_STATUS_HOLD_MAX (2 * i + d)))))
      s.handOn i w.resv e.2 0) s

/-- What a drop reports of a frame in an egress pipeline or at the MAC. -/
def TxFrame.info (t : TxFrame) : DropInfo :=
  { inPort := t.inPort, host := false, data := t.data, md := t.md, ts := t.ts, depth := t.depth, queue := queueField t.queue,
    outPort := some t.port, res := t.resTime, deep := t.deep, ce := t.ce, mcast := t.queue ≥ 8192 }

/-- A frame leaves the egress pipeline for the MAC of its port (R139), unless its program drops it or sends it to the CPU (R134). Its cells
have been read (R191). -/
def State.toMac (s : State) (i x : Nat) (t : TxFrame) : State :=
  let s := s.release t.pkt
  match t.dropCode with
  | some c => s.pipeDrop i x c t.info
  | none =>
    let cpu (s : State) (r : Nat) : State :=
      s.trapPass i x r none
        { data := t.data, md := t.md, inPort := t.inPort, host := false, ts := t.ts, tsB := s.stamp 1 0 0 0, t16 := t.t16, die := i / 8,
          src := 10 * i + x, sub := 0, payOff := 0 }
    match t.trap with
    | some (r, false) => cpu s r
    | o =>
      let s := match o with
        | some (r, _) => cpu s r
        | none => s
      s.updPath (fun y => { y with tx := mset y.tx t.port (mget y.tx t.port [] ++ [t]) [] })

/-- Frames of port `p` that the fence of the egress reserve holds pass it, in order (R166). -/
def State.releaseEgress (s : State) (i p : Nat) : State :=
  match s.pipeSwap i 1 with
  | none => s
  | some w =>
    let y := 10 * i + w.resv
    let l := mget s.path.eg y []
    let go := l.filter (fun t => t.heldAt.isSome && t.port = p)
    let s := s.updPath (fun z => { z with eg := mset z.eg y (l.filter (fun t => !(t.heldAt.isSome && t.port = p))) [] })
    go.foldl (fun s t =>
      let h := s.coreClocks (s.now - t.heldAt.getD s.now)
      let f := F.PIPE_SWAP_STATUS_HOLD_MAX (2 * i + 1)
      (s.wr f (min 1023 (max h (s.rd f)))).toMac i w.resv t) s

/-- PIPELINE_EXIT (R139, R166, R438): the oldest packet of ingress pipeline `x` of island `i` leaves stage 24, unless it is marked for
another pass. `faults` are the uncorrectable words of the Lagoon and the traffic manager that its admission finds. A FENCED reserve holds it
while the target still has a frame of its port. DESIGN CHOICE: log entry 165. -/
def execPipelineExit (i : Fin 16) (x : Fin 5) (sub : Fin 16) (faults : List MemFault) (s : State) : Result :=
  .next (
    let y := 10 * i.val + x.val
    let s := s.memoryFatal (i / 8) y faults
    match s.flights y with
    | [] => s
    | f :: t =>
      if f.marked && !f.dead then s
      else
        let s := s.setFlights y t
        match s.pipeSwap i 0 with
        | some w =>
          if x.val = w.resv && s.pipeState y = 3 && s.holdsPort (10 * i + w.target) f.rx.port then
            s.setFenced y (s.fenced y ++ [(s.now, f)])
          else
            let s := s.handOn i x f sub
            if x.val = w.target && !s.holdsPort y f.rx.port then s.releaseFence i 0 f.rx.port else s
        | none => s.handOn i x f sub)

/-! ### Swaps -/

/-- The reserve of direction `d` of island `i` that is in RESERVE. -/
def State.reservePipe (s : State) (i d : Nat) : Option Nat :=
  ((List.range 5).map (fun k => 5 * d + k)).find? (fun x => s.pipeState (10 * i + x) = 1)

/-- A pipeline enters `st`; entering RETIRED raises its event. The slots of an egress pipeline count from FENCED on, and until it leaves ACTIVE
(R327). -/
def State.pipeEnter (s : State) (y st : Nat) : State :=
  let s := if y % 10 ≥ 5 && s.pipeState y = 0 && st ≠ 0 then s.egressClock (y / 10) (y % 10) else s
  let s := s.wr (F.PIPE_STATUS_STATE y) st
  let s := if st = 3 then s.setIssueClk y { s.issueClk y with idx := s.coreIdx } else s
  if st = 3 || st = 2 then s else if st = 4 then (s.wr (F.PIPE_STATUS_READY y) 0).raise .pipe (y / 10) 3
  else s.wr (F.PIPE_STATUS_READY y) 0

/-- The tables that a program names. -/
def progTables (p : Program) : List Nat :=
  p.stages.flatMap (fun g => g.lookups.map (fun k => k.table) ++ g.alus.map (fun a => a.table))

/-- Tables that LOADING copies for the program of pipeline `y`: its replicated ones, register tables apart (R145, R165). -/
def State.replicated (s : State) (pool y : Nat) : List TblLayout :=
  (s.poolTables pool).filter (fun t => !t.shared && t.kind ≠ 3 && (progTables (s.progOf y)).contains t.num)

/-- When each of the tables being copied is complete, in core clocks after the start: eight at once, one entry in each clock (R165). -/
def copyEnds (sizes : List Nat) : List (Nat × Nat) :=
  (sizes.foldl (fun (r : List Nat × List (Nat × Nat)) n =>
    let b := (least r.1).getD 0
    (r.1.erase b ++ [b + n], r.2 ++ [(b, b + n)])) (List.replicate 8 0, [])).2

/-- Core clocks that the copies take. -/
def copyTime (sizes : List Nat) : Nat := ((copyEnds sizes).map (fun e => e.2)).foldl max 0

/-- REMAIN and TABLES after `n` core clocks: the entries still to copy in the largest table, and the tables that are not complete. -/
def copyLeft (sizes : List Nat) (n : Nat) : Nat × Nat :=
  let l := sizes.zip (copyEnds sizes)
  let big := sizes.foldl max 0
  ((((l.filter (fun e => e.1 = big)).map (fun e => e.2.2 - max n e.2.1)).foldl max 0), min 15 (l.filter (fun e => n < e.2.2)).length)

/-- PIPE_COPY_STATUS as it stands now (R165). DESIGN CHOICE: log entry 92. -/
def State.copyStatus (s : State) (i d : Nat) : State :=
  match s.pipeSwap i d with
  | none => s
  | some w =>
    let r := copyLeft w.copies (s.coreClocks (s.now - w.began))
    (s.wr (F.PIPE_COPY_STATUS_REMAIN (2 * i + d)) r.1).wr (F.PIPE_COPY_STATUS_TABLES (2 * i + d)) r.2

/-- No table is being copied any more. DESIGN CHOICE: log entry 92. -/
def State.copyEnd (s : State) (i d : Nat) : State :=
  (s.wr (F.PIPE_COPY_STATUS_REMAIN (2 * i + d)) 0).wr (F.PIPE_COPY_STATUS_TABLES (2 * i + d)) 0

/-- Pipeline `y` holds a program: its parse graph, its stages and its PRS_VALUE reset values (R165, R391). DESIGN CHOICE: log entry 122. -/
def State.putProgram (s : State) (y : Nat) (graph : Option ParseGraph) (prog : Option Program) (values : List Nat) : State :=
  (List.range 16).foldl (fun s k => s.wr (F.PRS_VALUE_VALUE (16 * y + k)) (values.getD k 0))
    (s.updMat (fun m => { m with graphs := mset m.graphs y graph none, progs := mset m.progs y prog none, values := mset m.values y values [] }))

/-- An initial value of an entry of a register table at a place. -/
def State.initReg (s : State) (pool place t ix v : Nat) : State :=
  s.updMat (fun m => { m with regTab := mset m.regTab (regKey pool place t ix) v 0 })

/-- The register tables marked INIT take their initial values, for group `g` (R169, R391). -/
def State.initRegs (s : State) (pool g : Nat) (fresh : Bool) (l : List (Nat × Nat)) : State :=
  l.foldl (fun s e =>
    match mget s.mat.tables (key2 pool e.1) none with
    | some t => (List.range (tblSize t)).foldl (fun s ix => s.initReg pool (regPlace t.shared fresh g) t.num ix e.2) s
    | none => s) s

/-- Initial entries of the tables `ok` of a pool: an entry of a register table for group `g`, any other a valid entry (R169, R391). -/
def State.initEntries (s : State) (pool g : Nat) (fresh ok : Nat → Bool) (l : List (Nat × Nat × List Nat)) : State :=
  l.foldl (fun s e =>
    match if ok e.1 then mget s.mat.tables (key2 pool e.1) none else none with
    | some t =>
      if t.kind = 3 then s.initReg pool (regPlace t.shared (fresh t.num) g) t.num e.2.1 (ofLe (e.2.2.flatMap (leBytes 4)))
      else s.setEntry pool e.1 e.2.1 { words := e.2.2, valid := true }
    | none => s) s

/-- The reserve enters LOADING for a target: its program is written into it, and the copies of the target's replicated tables begin (R163,
R165, R170). DESIGN CHOICE: log entry 92. -/
def State.loadStart (s : State) (i d resv target progId : Nat) (retire : Bool) (graph : Option ParseGraph) (prog : Option Program)
    (values : List Nat) (tables : List TblLayout) (entries : List (Nat × Nat × List Nat)) (inits : List (Nat × Nat)) : State :=
  let s := (s.pipeEnter (10 * i + resv) 2).wr (F.PIPE_STATUS_GROUP (10 * i + resv)) (s.rd (F.PIPE_STATUS_GROUP (10 * i + target)))
  let s := s.putProgram (10 * i + resv) graph prog values
  let sizes := (s.replicated (2 * i + d) (10 * i + target)).map tblSize
  (s.setPipeSwap i d (some { resv := resv, target := target, retire := retire, progId := progId, tables := tables, entries := entries,
                             inits := inits, copies := sizes, began := s.now, start := s.now, hold := 0 })).copyStatus i d

/-- A frame from the host that waits for an issue slot is parsed by pipeline `y`. -/
def State.injectParse (s : State) (y : Nat) (e : Nat × Bool × RxFrame) : State :=
  let (w, s) := s.parse y e.2.2.data
  let r := { e.2.2 with hdrs := w.hdrs, payOff := w.off, pfail := match w.fail with
                                                                   | some f => f.1
                                                                   | none => 0xF }
  let goes : Bool := match w.fail with
    | none => true
    | some (c, _) => s.failAction y c = .cont
  if goes then s.updPath (fun q => { q with inject := mset q.inject y (mget q.inject y [] ++ [(e.1, e.2.1, r)]) [] })
  else s.parsed y r w 0

/-- The frames from the host that wait before the target go to the reserve that serves the group from now on (R166). -/
def State.injectMove (s : State) (a b : Nat) : State :=
  (mget s.path.inject a []).foldl (fun s e => s.injectParse b e) (s.updPath (fun q => { q with inject := mset q.inject a [] [] }))

/-- The swap is accepted (R166): from this clock on new frames go to the reserve, which is FENCED. -/
def State.fenceStart (s : State) (i d : Nat) : State :=
  match s.pipeSwap i d with
  | none => s
  | some w =>
    let s := (s.setPipeSwap i d (some { w with start := s.now })).pipeEnter (10 * i + w.resv) 3
    let s := s.injectMove (10 * i + w.target) (10 * i + w.resv)
    ((s.wr (F.PIPE_SWAP_STATUS_TARGET (2 * i + d)) (w.target % 5)).wr (F.PIPE_SWAP_STATUS_HOLD_MAX (2 * i + d)) 0).wr
      (F.PIPE_SWAP_STATUS_FLUSHED (2 * i + d)) 0

/-- A retirement starts (R170, R452): the reserve is loaded with the target's present program, as the image region of HBM holds it, and keeps
every register table. -/
def State.retireStart (s : State) (i x resv : Nat) : State :=
  let y := 10 * i + x
  (s.mapRecord 3 y (2 + (10 * i + resv))).loadStart i (x / 5) resv x (s.rd (F.PIPE_STATUS_PROG_ID y)) true (mget s.mat.graphs y none) (mget s.mat.progs y none)
    (mget s.mat.values y []) [] [] []

/-- A pipeline that holds no program any more. -/
def State.clearPipe (s : State) (y : Nat) : State :=
  (s.wr (F.PIPE_STATUS_PROG_ID y) 0).updMat (fun m =>
    { m with graphs := mset m.graphs y none none, progs := mset m.progs y none none, values := mset m.values y [] [] })

/-- The new version of the tables marked INIT takes the place of the old (R169). -/
def State.freshKeep (s : State) (pool g : Nat) (w : PipeSwap) : State :=
  w.inits.foldl (fun s e =>
    match mget s.mat.tables (key2 pool e.1) none with
    | some t =>
      (List.range (tblSize t)).foldl (fun s ix =>
        let v := mget s.mat.regTab (regKey pool (regPlace t.shared true g) t.num ix) 0
        (s.initReg pool (regPlace t.shared false g) t.num ix v).initReg pool (regPlace t.shared true g) t.num ix 0) s
    | none => s) s

/-- A table of a pool is gone: its layout, its entries and the registers that describe it. -/
def State.dropTable (s : State) (pool t : Nat) : State :=
  let k := 256 * pool + t
  let mine (e : Nat) : Bool := (Nat.unpair e).1 = pool && (Nat.unpair (Nat.unpair e).2).1 = t
  let s := s.updMat (fun m =>
    { m with tables := mset m.tables (key2 pool t) none none, entries := m.entries.filter (fun e => !mine e.1),
             roles := m.roles.filter (fun e => !((Nat.unpair e.1).1 = pool && e.2 = t)) })
  let s := (List.range 4).foldl (fun s w => s.wr (F.PIPE_TBL_SEED_SEED (4 * k + w)) 0) s
  [F.PIPE_TBL_INFO_KIND k, F.PIPE_TBL_INFO_SHARED k, F.PIPE_TBL_INFO_WAYS k, F.PIPE_TBL_INFO_LOG2 k, F.PIPE_TBL_INFO_KEY_WORDS k,
   F.PIPE_TBL_INFO_ACT_WORDS k].foldl (fun s f => s.wr f 0) s

/-- The replicated tables that the old program named and no pipeline of the pool names any more are freed (R169). DESIGN CHOICE: log entry
155. -/
def State.freeTables (s : State) (i d : Nat) (old : Program) : State :=
  let used := (List.range 5).flatMap (fun k => progTables (s.progOf (10 * i + 5 * d + k)))
  ((s.poolTables (2 * i + d)).filter (fun t =>
    !t.shared && t.kind ≠ 3 && t.role = 0 && (progTables old).contains t.num && !used.contains t.num)).foldl
      (fun s t => s.dropTable (2 * i + d) t.num) s

/-- No partial image is staged any more. DEDUCED: log entries 94, 105. -/
def State.unstage (s : State) : State :=
  let s := match s.boot.staged with
    | some im => s.imageStore s.stagingOff (List.replicate im.length 0)
    | none => s
  { s with boot := { s.boot with staged := none, swapping := false, loading := [] } }.wr F.BOOT_STAGED_IMAGE_ID 0

/-- The swap or retirement of direction `d` ends (R166, R170, R408): what the fence holds leaves, the reserve serves the group, and the
target is RESERVE or RETIRED. DESIGN CHOICE: log entry 122. -/
def State.swapDone (s : State) (i d : Nat) (w : PipeSwap) (flush : Bool) : State :=
  let y := 10 * i + w.resv
  let held := s.fenced y
  let s := held.foldl (fun s e => s.releaseFence i d e.2.rx.port) s
  let s := if d = 1 then ((mget s.path.eg y []).map (fun t => t.port)).eraseDups.foldl (fun s p => s.releaseEgress i p) s else s
  let s := (s.freshKeep (2 * i + d) (s.rd (F.PIPE_STATUS_GROUP y)) w).setPipeSwap i d none
  let out : Bool := w.retire || s.pipeState (10 * i + w.target) = 4
  let old := s.progOf (10 * i + w.target)
  let s := ((s.pipeEnter y 0).pipeEnter (10 * i + w.target) (if out then 4 else 1)).clearPipe (10 * i + w.target)
  let s := if w.retire then s else s.freeTables i d old
  let s := s.wr (F.PIPE_SWAP_STATUS_LAST (2 * i + d)) (if flush then 2 else if w.retire then 5 else 1)
  let s := s.raise .pipe i (if flush then 2 else 1)
  if w.retire then
    ((s.satAdd F.RAS_SPARE_STATUS_SWAPS 1).spareConsumed 3 .pipe i (3 * 2 ^ 12 + w.target) (10 * i + w.target)).finishHold
      (holdSpare 3) (10 * i + w.target) stOk 4 0
  else s.unstage

/-- Registers that describe a table (PIPE_TBL_INFO, PIPE_TBL_SEED), and the table itself in its pool (R145). -/
def State.addTable (s : State) (pool : Nat) (t : TblLayout) : State :=
  let s := s.updMat (fun m =>
    { m with tables := mset m.tables (key2 pool t.num) (some t) none,
             roles := if t.role = 0 then m.roles else minsert m.roles (key2 pool t.role) t.num })
  let k := 256 * pool + t.num
  let s := ((s.wr (F.PIPE_TBL_INFO_KIND k) t.kind).wrB (F.PIPE_TBL_INFO_SHARED k) t.shared).wr (F.PIPE_TBL_INFO_WAYS k) (t.ways - 1)
  let s := ((s.wr (F.PIPE_TBL_INFO_LOG2 k) t.log2).wr (F.PIPE_TBL_INFO_KEY_WORDS k) t.keyWords).wr (F.PIPE_TBL_INFO_ACT_WORDS k)
    t.actWords
  (List.range 4).foldl (fun s w => s.wr (F.PIPE_TBL_SEED_SEED (4 * k + w)) (t.seeds.getD w 0)) s

/-- Miss actions of tables of a pool (R147). -/
def setMiss (l : List (Nat × List Act)) (t : TblLayout) : TblLayout :=
  match l.find? (fun e => e.1 = t.num) with
  | some e => { t with miss := e.2 }
  | none => t

/-- LOADING_READY (R165, R169): the program of the reserve is verified and every copy is complete. A retirement goes on at once. -/
def execLoadingReady (i : Fin 16) (d : Fin 2) (s : State) : Result :=
  .next (
    match s.pipeSwap i d with
    | none => s
    | some w =>
      let y := 10 * i.val + w.resv
      if s.pipeState y ≠ 2 || s.on (F.PIPE_STATUS_READY y) || s.coreClocks (s.now - w.began) < copyTime w.copies then s
      else
        let g := s.rd (F.PIPE_STATUS_GROUP y)
        let s := w.tables.foldl (fun s t => s.addTable (2 * i + d) t) s
        let s := s.initRegs (2 * i + d) g true w.inits
        let fresh (t : Nat) : Bool := w.inits.any (fun e => e.1 = t)
        let s := s.initEntries (2 * i + d) g fresh (fun t => fresh t || w.tables.any (fun e => e.num = t)) w.entries
        let s := s.copyEnd i d
        let s := ((s.wr (F.PIPE_STATUS_PROG_ID y) w.progId).wrB (F.PIPE_STATUS_READY y) true).raise .pipe i 0
        if w.retire then s.fenceStart i d else s.finishHold holdStage 0 stOk 2 0)

/-- Target of a swap and its frames: nothing is left in its stages or before them (R166). -/
def State.targetEmpty (s : State) (i d : Nat) (w : PipeSwap) : Bool :=
  let y := 10 * i + w.target
  if d = 0 then (s.flights y).isEmpty && (s.rxq y).isEmpty && (mget s.path.inject y []).isEmpty else (mget s.path.eg y []).isEmpty

/-- SWAP_TARGET_EMPTY (R166, R169, R170, R408): the target's last frame has left stage 24. -/
def execSwapTargetEmpty (i : Fin 16) (d : Fin 2) (s : State) : Result :=
  .next (
    match s.pipeSwap i d with
    | none => s
    | some w =>
      if s.pipeState (10 * i + w.resv) = 3 && s.targetEmpty i d w then s.swapDone i d w false else s)

/-- What a drop reports of a frame that has not been issued. -/
def RxFrame.info (r : RxFrame) : DropInfo :=
  { inPort := r.port, host := r.host, data := r.data, md := { badFrame := r.bad }, ts := r.ts, early := true }

/-- Everything in pipeline `y` is dropped with `code`; the answer is how many frames (R164, R167). DEDUCED: log entry 41. -/
def State.flushPipe (s : State) (i x code : Nat) : Nat × State :=
  let y := 10 * i + x
  let wait := s.rxq y ++ (mget s.path.inject y []).map (fun e => e.2.2)
  let a := (s.flights y).map Flight.info ++ wait.map RxFrame.info
  let e := mget s.path.eg y []
  let s := (s.setFlights y []).setRxq y []
  let s := s.updPath (fun p => { p with eg := mset p.eg y [] [], inject := mset p.inject y [] [] })
  let s := a.foldl (fun s d => s.pipeDrop i x code d) s
  (a.length + e.length, e.foldl (fun s t => (s.pipeDrop i x code t.info).release t.pkt) s)

/-- FENCE_TIMEOUT (R167): the frames still in the target are dropped with SWAP_FLUSH, and the fence lifts. DEDUCED: log entry 41. -/
def execFenceTimeout (i : Fin 16) (d : Fin 2) (s : State) : Result :=
  .next (
    match s.pipeSwap i d with
    | none => s
    | some w =>
      if s.pipeState (10 * i + w.resv) = 3 &&
          s.now - w.start ≥ max 1 (s.rd (F.PIPE_SWAP_CFG_FENCE_MAX (2 * i.val + d.val))) * 128 then
        let r := s.flushPipe i w.target 0x06
        (r.2.satAdd (F.PIPE_SWAP_STATUS_FLUSHED (2 * i.val + d.val)) r.1).swapDone i d w true
      else s)

/-- LOAD_FAILED (R163, R407): the program in LOADING fails its verification, or a table copy fails. -/
def execLoadFailed (i : Fin 16) (d : Fin 2) (s : State) : Result :=
  .next (
    match s.pipeSwap i d with
    | none => s
    | some w =>
      let y := 10 * i.val + w.resv
      if s.pipeState y ≠ 2 || s.on (F.PIPE_STATUS_READY y) then s
      else
        let s := ((((s.setPipeSwap i d none).pipeEnter y 1).clearPipe y).wr (F.PIPE_SWAP_STATUS_LAST (2 * i.val + d.val)) 3).copyEnd i d
        if w.retire then (s.mapRecord 3 (10 * i + w.target) 0).finishHold (holdSpare 3) (10 * i + w.target) stImageInvalid 0 0
        else s.unstage.finishHold holdStage 0 stImageInvalid 0 0)

/-- PIPELINE_RETIRE (R170): the sparing manager retires an ACTIVE pipeline into the reserve of its direction; with the reserve in
another use it waits. -/
def execPipelineRetire (i : Fin 16) (x : Fin 10) (s : State) : Result :=
  .next (
    if s.pipeState (10 * i.val + x.val) ≠ 0 || (s.pipeSwap i (x / 5)).isSome then s
    else
      match s.reservePipe i (x / 5) with
      | some r => s.retireStart i x r
      | none => s)

/-- PIPELINE_FAULT (R163, R164, R445): an uncorrectable fault in stage logic. An ACTIVE pipeline is retired into its reserve; with
none it enters RETIRED, and its group's frames are dropped. When it is the target of a running swap, the FENCED reserve serves its group from
then on. A RESERVE pipeline enters RETIRED. -/
def execPipelineFault (i : Fin 16) (x : Fin 10) (s : State) : Result :=
  .next (
    let y := 10 * i.val + x.val
    let obj := 10 * i.val + x.val
    match s.pipeState y with
    | 0 =>
      match if (s.pipeSwap i (x / 5)).isSome then none else s.reservePipe i (x / 5) with
      | some r => s.retireStart i x r
      | none =>
        let w := (s.pipeSwap i (x / 5)).filter (fun w => w.target = x.val)
        let sub := (w.map (fun w => 2 + (10 * i.val + w.resv))).getD 1
        let s := (((s.mapRecord 3 obj sub).pipeEnter y 4).flushPipe i x 0x05).2
        match w.filter (fun w => s.pipeState (10 * i.val + w.resv) = 3) with
        | some w => (if w.retire then s else s.spareConsumed 3 .pipe i (3 * 2 ^ 12 + x) obj).swapDone i (x / 5) w true
        | none =>
          (if w.any (fun w => w.retire) then s else s.satAdd (F.RAS_SPARE_SUMMARY_HI_FAILED 3) 1).event degraded (codeOf .pipe i 0x86)
            (3 * 2 ^ 12 + x) obj
    | 1 =>
      ((s.mapRecord 3 obj 1).pipeEnter y 4).spareConsumed 3 .pipe i (3 * 2 ^ 12 + x) obj
    | _ => s)

end Sys2Proof.Machine
end

