-- ==== Sys2Proof/Machine/SpareOps.lean ====
section
/-! DEFINITION. The sparing manager: objects, replacements, requests and the policy (R444 to R452), and the perturbed errors that feed
it (R457 to R459). -/

namespace Sys2Proof.Machine

/-- Update the reliability state. -/
def State.updRas (s : State) (f : RasSt → RasSt) : State := { s with ras := f s.ras }

/-! ### Perturbed errors -/

/-- An injected error feeds the sparing triggers (R459). DEDUCED: log entry 63. -/
def State.feeds (s : State) (inj : Bool) : Bool := !inj || s.on F.DBG_CTL_SPARE_COUNT

/-- DBG_PERTURB_ECC acts on a read of memory `inst` of kind `k` (R458): the answer is some DOUBLE while COUNT lasts. DESIGN CHOICE: log
entry 57. -/
def State.injectEcc (s : State) (k inst : Nat) : Option Bool × State :=
  let c := s.rd F.DBG_PERTURB_ECC_COUNT
  if s.on F.DBG_CTL_ARM && c ≠ 0 && s.rd F.DBG_PERTURB_ECC_KIND = k && s.rd F.DBG_PERTURB_ECC_INSTANCE = inst then
    (some (s.on F.DBG_PERTURB_ECC_DOUBLE), s.wr F.DBG_PERTURB_ECC_COUNT (c - 1))
  else (none, s)

/-- A perturbation register names an effect (R458). -/
def State.perturbs (s : State) : Bool :=
  s.rd F.DBG_PERTURB_CWAY_DELAY ≠ 0 || s.rd F.DBG_PERTURB_CWAY_W1_CRC_EVERY ≠ 0 ||
    (s.rd F.DBG_PERTURB_TM_STALL ≠ 0 && s.rd F.DBG_PERTURB_TM_W1_PERIOD ≠ 0) ||
    (s.rd F.DBG_PERTURB_HBM_STACKS ≠ 0 && s.rd F.DBG_PERTURB_HBM_DELAY ≠ 0) || s.rd F.DBG_PERTURB_PFC_PRIOS ≠ 0 ||
    s.rd F.DBG_PERTURB_LANE_SYMS ≠ 0 || s.rd F.DBG_PERTURB_ECC_COUNT ≠ 0

/-- ACTIVE of DBG_CTL, and the pauses and XOFFs of DBG_PERTURB_PFC on port `p` (the port named before or after a write), brought in
line (R457, R458). -/
def State.perturbUpdate (s : State) (p : Nat) : State :=
  let s := s.wrB F.DBG_CTL_ACTIVE (s.on F.DBG_CTL_ARM && s.perturbs)
  if p < 512 then (s.pfcUpdate p).pauseUpdate p else s

/-! ### Objects (R450) -/

/-- Port and logical lane of a lane object. -/
def laneObj (o : Nat) : Nat × Nat := (bits o 0 10, bits o 10 3)

/-- Direction, bundle and wire of a wire object. -/
def wireObj (o : Nat) : Nat × Nat × Nat := (bits o 12 1, bits o 6 6, bits o 0 6)

/-- The object number is in range (R450). -/
def objectOk (kind o : Nat) : Bool :=
  match kind with
  | 0 => o < 8192 && (laneObj o).1 < 512
  | 1 => o < 8192
  | 2 => o < 68
  | 3 => o < 160
  | 4 => o / 32 < 6 && o % 32 < 31
  | 5 => o < 32
  | 7 => o = 0
  | _ => false

/-- The state of an object's status register, for the STATE of a response (R450). -/
def State.objectState (s : State) (kind o : Nat) : Nat :=
  match kind with
  | 0 => s.laneState (s.laneOf (laneObj o).1 (laneObj o).2)
  | 1 => s.bundleState (wireObj o).1 (wireObj o).2.1
  | 2 => s.rd (F.LAG_BANK_STATUS_STATE o)
  | 3 => s.pipeState o
  | 4 => s.rd (F.MC_STATUS_SPARE (o / 32))
  | 5 => s.rd (F.ATL_ENG_STATUS_STATE o)
  | _ => s.rd F.CLK_STATUS_A_STATE + 4 * s.rd F.CLK_STATUS_B_STATE

/-- Block, instance and UNIT under which the events of an object are logged (R439). -/
def State.objectBlk (s : State) (kind o : Nat) : Blk × Nat × Nat :=
  match kind with
  | 0 => (.lane, (laneObj o).1 / 32, s.laneOf (laneObj o).1 (laneObj o).2)
  | 1 => (.cway, 0, 64 * (wireObj o).1 + (wireObj o).2.1)
  | 2 => (.lag, 0, o)
  | 3 => (.pipe, o / 10, 3 * 2 ^ 12 + o % 10)
  | 4 => (.mc, 0, 32 * (o / 32) + s.physCh (o / 32) (o % 32))
  | 5 => (.atl, 0, o)
  | 6 => (.ras, 0, o)
  | _ => (.clk, 0, o)

/-- A spare is left in the scope of an object (R444). -/
def State.spareLeft (s : State) (kind o : Nat) : Bool :=
  match kind with
  | 0 => s.spareOf (laneObj o).1 < 544
  | 1 => s.wireFree (wireObj o).1 (wireObj o).2.1
  | 2 => (s.reserveBank (o / 34)).isSome
  | 3 => (s.reservePipe (o / 10) (o % 10 / 5)).isSome
  | 4 => s.channelReady (o / 32)
  | 5 => (s.reserveEngine (engineDie o)).isSome
  | _ => true

/-- A replacement is under way in the scope of an object. -/
def State.scopeBusy (s : State) (kind o : Nat) : Bool :=
  match kind with
  | 0 => (s.swapOf (laneObj o).1).isSome
  | 1 => (s.bundle (wireObj o).1 (wireObj o).2.1).swapWait.isSome || (s.bundle (wireObj o).1 (wireObj o).2.1).swapWire.isSome
  | 2 => (List.range 34).any (fun b => s.rd (F.LAG_BANK_STATUS_STATE (34 * (o / 34) + b)) = 2)
  | 3 => (s.pipeSwap (o / 10) (o % 10 / 5)).isSome
  | 4 => s.rd (F.MC_STATUS_SPARE (o / 32)) = 1
  | 5 => (List.range 36).any (fun e => engineDie e = engineDie o && s.rd (F.ATL_ENG_STATUS_STATE e) = 2)
  | _ => false

/-- The object is in service and can be replaced now (the conditions of R450). -/
def State.canReplace (s : State) (kind o : Nat) : Bool :=
  !s.scopeBusy kind o && s.spareLeft kind o &&
    (match kind with
     | 0 => s.swapReady (laneObj o).1 (laneObj o).2
     | 1 => s.wireReady (wireObj o).1 (wireObj o).2.1 (wireObj o).2.2
     | 2 => s.rd (F.LAG_BANK_STATUS_STATE o) = 0
     | 3 => s.pipeState o = 0
     | 4 => true
     | 5 => s.rd (F.ATL_ENG_STATUS_STATE o) = 0
     | _ => false)

/-- The replacement of an object starts (R70, R32, R175, R170, R243, R300). -/
def State.startReplace (s : State) (kind o : Nat) (byCmd : Bool) : State :=
  match kind with
  | 0 => s.swapStart (laneObj o).1 (laneObj o).2 byCmd
  | 1 => s.wireSwap (wireObj o).1 (wireObj o).2.1 (wireObj o).2.2
  | 2 =>
    match s.reserveBank (o / 34) with
    | some r => s.bankReplace (o / 34) (o % 34) r
    | none => s
  | 3 =>
    match s.reservePipe (o / 10) (o % 10 / 5) with
    | some r => s.retireStart (o / 10) (o % 10) r
    | none => s
  | 4 => s.channelStart (o / 32) (o % 32)
  | 5 => s.engineDrain o
  | _ => s

/-! ### BUSY -/

/-- BUSY of RAS_SPARE_STATUS as it is read: a replacement is under way, or a RETURN test, which the field itself holds. DESIGN CHOICE: log
entry 58. -/
def State.sparing (s : State) : Bool :=
  s.swaps.any (fun e => e.2.isSome) || s.path.cway.bundles.any (fun e => e.2.swapWait.isSome || e.2.swapWire.isSome) ||
    (List.range 68).any (fun b => s.rd (F.LAG_BANK_STATUS_STATE b) = 2) || s.mat.swaps.any (fun e => e.2.any (fun w => w.retire)) ||
    (List.range 6).any (fun st => s.rd (F.MC_STATUS_SPARE st) = 1) ||
    (List.range 36).any (fun e => s.rd (F.ATL_ENG_STATUS_STATE e) = 2) || s.on F.RAS_SPARE_STATUS_BUSY

/-! ### Requests and the policy (R445, R449) -/

/-- The slot of a pending request for an object. -/
def State.requestSlot (s : State) (kind o : Nat) : Option Nat :=
  (List.range 16).find? (fun n => s.on (F.RAS_SPARE_REQ_VALID n) && s.rd (F.RAS_SPARE_REQ_KIND n) = kind &&
    s.rd (F.RAS_SPARE_REQ_OBJ_OBJECT n) = objectWord kind o)

/-- REQS: the number of pending requests. -/
def State.requestCount (s : State) : State :=
  s.wr F.RAS_SPARE_STATUS_REQS ((List.range 16).filter (fun n => s.on (F.RAS_SPARE_REQ_VALID n))).length

/-- A pending request leaves its slot. -/
def State.requestClear (s : State) (n : Nat) : State :=
  let s := ((s.wr (F.RAS_SPARE_REQ_VALID n) 0).wr (F.RAS_SPARE_REQ_KIND n) 0).wr (F.RAS_SPARE_REQ_TRIGGER n) 0
  let s := (s.wr (F.RAS_SPARE_REQ_OBJ_OBJECT n) 0).wr (F.RAS_SPARE_REQ_AGE_AGE n) 0
  (s.updRas (fun r => { r with reqAt := mset r.reqAt n 0 0 })).requestCount

/-- The request for an object, if one is pending, is removed. -/
def State.requestRemove (s : State) (kind o : Nat) : State :=
  match s.requestSlot kind o with
  | some n => s.requestClear n
  | none => s

/-- LIFE_VOID is set, and the spare map records it (R449). -/
def State.lifeVoid (s : State) : State := (s.wrB F.RAS_SPARE_STATUS_LIFE_VOID true).mapRecord 9 0 1

/-- The policy that acts on kind `k`: 0 automatic, 1 ask-first, 2 off (R449). -/
def State.policyOf (s : State) (k : Nat) : Nat :=
  match s.rd F.RAS_SPARE_POLICY_MODE with
  | 0 => if bit (s.rd F.RAS_SPARE_POLICY_ASK_KINDS) k then 1 else 0
  | 1 => 1
  | _ => 2

/-- An object whose replacement finds no spare: a DEGRADED event with code 0x86 (R445). -/
def State.noSpare (s : State) (kind o : Nat) : State :=
  let (b, i, u) := s.objectBlk kind o
  s.event degraded (codeOf b i 0x86) u (objectWord kind o)

/-- A rate trigger (0) or trend trigger (1) becomes a request, which the policy handles (R445, R449). A lane's request waits for a swap of
its trunk (R74). DESIGN CHOICE: log entry 58. -/
def State.spareRequest (s : State) (kind o trigger : Nat) : State :=
  let (b, i, u) := s.objectBlk kind o
  let note (s : State) : State := s.event notice (codeOf b i 0x84) u (objectWord kind o)
  match s.policyOf kind with
  | 0 =>
    let s := note s
    if !s.spareLeft kind o then s.noSpare kind o
    else if s.canReplace kind o then s.startReplace kind o false
    else if kind = 0 && (s.swapOf (laneObj o).1).any (fun x => x.logical ≠ (laneObj o).2) then
      s.updPort (laneObj o).1 (fun y => { y with second := some (laneObj o).2 })
    else s
  | 1 =>
    if (s.requestSlot kind o).isSome then s
    else
      let s := note s
      let s := if kind = 0 then s.raise .lane i 1 else if kind = 4 then s.raise .mc (o / 32) 3 else s
      match (List.range 16).find? (fun n => !s.on (F.RAS_SPARE_REQ_VALID n)) with
      | none => s
      | some n =>
        let s := ((s.wr (F.RAS_SPARE_REQ_VALID n) 1).wr (F.RAS_SPARE_REQ_KIND n) kind).wr (F.RAS_SPARE_REQ_TRIGGER n) trigger
        let s := (s.wr (F.RAS_SPARE_REQ_OBJ_OBJECT n) (objectWord kind o)).wr (F.RAS_SPARE_REQ_AGE_AGE n) 0
        (s.updRas (fun r => { r with reqAt := mset r.reqAt n s.now 0 })).requestCount
  | _ => note s

/-- A failure trigger replaces its object under every policy, and removes a pending request for it (R445). -/
def State.spareFailure (s : State) (kind o : Nat) : State :=
  let s := s.requestRemove kind o
  if !s.spareLeft kind o then s.noSpare kind o
  else if s.canReplace kind o then s.startReplace kind o false
  else s

/-- MODE takes a value (R449): off dismisses every pending request and sets LIFE_VOID. 3 acts as 2. -/
def State.setSpareMode (s : State) (m : Nat) : State :=
  let s := s.wr F.RAS_SPARE_POLICY_MODE m
  if m ≥ 2 then
    ((List.range 16).foldl (fun s n => if s.on (F.RAS_SPARE_REQ_VALID n) then s.requestClear n else s) s).lifeVoid
  else s

/-! ### Error rates (R446) -/

/-- A corrected error of an object counts in the present window. -/
def State.rateAdd (s : State) (kind o n : Nat) (inj : Bool) : State :=
  if s.feeds inj then s.updRas (fun r => { r with rate := mset r.rate (key2 kind o) (mget r.rate (key2 kind o) 0 + n) 0 }) else s

/-- One hour and one day in time ticks. -/
def hourTicks : Nat := 5760000000000
/-- One day in time ticks. -/
def dayTicks : Nat := 138240000000000

/-- An uncorrectable cell in Lagoon bank `o` (R444): two within 24 hours are a failure trigger. -/
def State.bankUncorrectable (s : State) (o : Nat) (inj : Bool) : State :=
  if !s.feeds inj then s
  else
    let l := s.now :: (mget s.ras.bankUe o []).filter (fun t => s.now - t < dayTicks)
    let s := s.updRas (fun r => { r with bankUe := mset r.bankUe o l [] })
    if l.length ≥ 2 && s.rd (F.LAG_BANK_STATUS_STATE o) = 0 then s.spareFailure 2 o else s

end Sys2Proof.Machine
end

