-- ==== Sys2Proof/Machine/Hbm.lean ====
section
/-! DEFINITION. The memory controllers: requests, refresh, idle timers, timing-set changes, self-refresh, scrub, training and channel
sparing (R216 to R245). -/

namespace Sys2Proof.Machine

/-- An access to a channel counts a line's corrected error against its block and its channel (R240, R242, R243). -/
def State.lineCorrected (s : State) (st line pins : Nat) (inj : Bool) : State :=
  let b := line / 64
  let c := logicalCh b
  let s := s.wrapAdd (F.MC_ECC_CE_COUNT st) 1
  let s := s.event corrected (codeOf .mc 0 0x80) (32 * st + s.physCh st c) (64 * line) inj
  let l := s.now :: (mget (s.mcOf st).blockCe b []).filter (fun t => s.now - t < dayTicks)
  let s := s.updMc st (fun m => { m with blockCe := mset m.blockCe b l [] })
  let s := if l.length ≥ max 1 (s.rd (F.MC_RAS_CFG_ROW_CE st)) then s.blockRetire st b else s
  let s := s.rateAdd 4 (channelObject st c) 1 inj
  if s.feeds inj && (pins ≥ 3 || s.retiredOf st c ≥ s.rd (F.MC_RAS_CFG_CH_RETIRE_MAX st)) then s.spareRequest 4 (channelObject st c) 0
  else s

/-- A line beyond correction, `pins` of its pins in error now, is returned to its client (R240, R242, R243). DEDUCED: log entry 64. -/
def State.lineUncorrectable (s : State) (st line pins : Nat) (inj : Bool) : State :=
  let c := logicalCh (line / 64)
  let s := s.wrapAdd (F.MC_ECC_UE_COUNT st) 1
  let s := (s.wr (F.MC_ECC_LAST_OFFSET st) (64 * line)).wr (F.MC_ECC_LAST_CH st) (s.physCh st c)
  let s := (s.raise .mc st 0).blockRetire st (line / 64)
  if s.feeds inj && (pins ≥ 3 || s.retiredOf st c ≥ s.rd (F.MC_RAS_CFG_CH_RETIRE_MAX st)) then s.spareRequest 4 (channelObject st c) 0 else s

/-- A read of line `line` of stack `st` for a client, with `pins` of its 72 pins in error (R218, R240, R458): whether the line is
uncorrectable. DESIGN CHOICE: log entry 37. -/
def State.lineRead (s : State) (st line pins : Nat) : Bool × State :=
  let (e, s) := s.injectEcc 1 st
  let n := match e with
    | some true => 5
    | some false => max 1 pins
    | none => pins
  if n > 4 || mget (s.mcOf st).poison line false then
    let s := if pins > 4 then s.updMc st (fun m => { m with poison := mset m.poison line true false }) else s
    (true, s.lineUncorrectable st line n e.isSome)
  else if n > 0 then (false, s.lineCorrected st line n e.isSome)
  else (false, s)

/-- Pins in error of line `k` of a request. -/
def pinsOf (errs : List (Nat × Nat)) (k : Nat) : Nat := ((errs.find? (fun e => e.1 = k)).map (fun e => e.2)).getD 0

/-- Bytes of line `k` of a request that it covers: the first, and one past the last, as stack-local offsets. -/
def McReq.span (r : McReq) (k : Nat) : Nat × Nat :=
  let w0 := 64 * r.line + r.off
  (max w0 (64 * (r.line + k)), min (w0 + r.len) (64 * (r.line + k + 1)))

/-- A queued write holds the whole of line `line`. -/
def McReq.holds (w : McReq) (line : Nat) : Bool :=
  w.write && 64 * w.line + w.off ≤ 64 * line && 64 * (line + 1) ≤ 64 * w.line + w.off + w.len

/-- Line `k` of a write reaches the stack (R225): a part of a line is a read-modify-write, which a line beyond correction stops.
The answer tells whether the line was written. -/
def State.lineWrite (s : State) (st : Nat) (r : McReq) (k pins : Nat) : Bool × State :=
  let (a, z) := r.span k
  let data := slice r.data (a - (64 * r.line + r.off)) (z - a)
  if z - a = 64 then
    (true, (s.updMc st (fun m => { m with poison := mset m.poison (r.line + k) false false })).hbmWrite st a data)
  else
    let (bad, s) := s.lineRead st (r.line + k) pins
    if bad then (false, s.event contained (codeOf .mc 0 0x81) (32 * st + s.physCh st (logicalCh r.block)) (64 * (r.line + k)))
    else (true, s.hbmWrite st a data)

/-- Line `k` of a read (R224, R240): a line that an earlier queued write holds is served from it, and the stack is not read. -/
def State.readOne (s : State) (st : Nat) (before : List McReq) (r : McReq) (k pins : Nat) : Bool × State :=
  if before.any (fun w => w.holds (r.line + k)) then (false, s) else s.lineRead st (r.line + k) pins

/-- The lines of a request in order (R222): offsets of the lines that stay unwritten or are poisoned. DESIGN CHOICE: log entry 65. -/
def State.runLines (s : State) (st : Nat) (r : McReq) (errs : List (Nat × Nat)) : List Nat × State :=
  let before := (s.mcOf st).reqs.filter (fun w => w.write && w.id < r.id)
  (List.range r.lines).foldl (fun (a : List Nat × State) k =>
    if r.write then
      let (ok, s) := a.2.lineWrite st r k (pinsOf errs k)
      (if ok then a.1 else a.1 ++ [64 * (r.line + k)], s)
    else
      let (bad, s) := a.2.readOne st before r k (pinsOf errs k)
      (if bad then a.1 ++ [64 * (r.line + k)] else a.1, s)) ([], s)

/-- MC_REQUEST (R219, R223, R224, R237): a request of 1 to 64 lines within one block takes an entry of its channel, or replaces the
data of a queued write that covers it; with the entries full it waits at its client. -/
def execMcRequest (st : Fin 6) (off len : Nat) (wr : Option Bytes) (rt : Bool) (client : Fin 256) (s : State) : Result :=
  .next (
    let len := match wr with
      | some d => d.length
      | none => len
    if len = 0 || off / 4096 ≠ (off + len - 1) / 4096 || off + len > stackBytes then s
    else
      let m := s.mcOf st
      let r : McReq := { id := m.next, line := off / 64, lines := (off % 64 + len + 63) / 64, write := wr.isSome, data := wr.getD [],
                         off := off % 64, len := len, rt := rt && wr.isNone, arrive := s.now, client := client, served := 0 }
      let q := s.chReqs st (logicalCh r.block)
      let into := q.find? (fun w => w.write && 64 * w.line + w.off ≤ off && off + len ≤ 64 * w.line + w.off + w.len &&
        !q.any (fun x => x.id > w.id && x.meets r))
      match wr, into with
      | some d, some w =>
        s.updMc st (fun m =>
          { m with lastReq := s.now,
                   reqs := m.reqs.map (fun x => if x.id = w.id then { x with data := patch x.data (off - (64 * w.line + w.off)) d } else x) })
      | _, _ =>
        if q.length ≥ 48 || (r.write && (q.filter (fun x => x.write)).length ≥ 32) then s
        else
          let s := s.updMc st (fun m => { m with reqs := m.reqs ++ [r], next := m.next + 1, lastReq := s.now })
          (s.mcWake st).batchUpdate st (logicalCh r.block))

/-- MC_REQUEST_DONE (R222 to R226, R230, R240): the scheduler of a logical channel serves the request that it chooses. `errs` names lines of
the request, by number, with their pins in error. DESIGN CHOICE: log entry 65. -/
def execMcRequestDone (st : Fin 6) (c : Fin 31) (errs : List (Nat × Nat)) (s : State) : Result :=
  .next (
    if s.mcHeld st then s
    else
      match s.mcPick st c with
      | none => s
      | some r =>
        let ch := s.physCh st c
        let s := if r.rt then s else r.banks.foldl (fun s b => s.repayAhead st ch b) s
        let open_ (pc b : Nat) : Bool := (s.openRow st pc b).any (fun x => x.1 ≠ rowOf r.block)
        let n := ((r.banks.map (fun b => (if open_ (2 * ch) b then 1 else 0) + (if open_ (2 * ch + 1) b then 1 else 0))).sum : Nat)
        let s := s.touchRows st r
        let s := if n = 0 then s else s.cntGlobal 0x52 st n
        let s := s.cntGlobal (if r.write then 0x51 else 0x50) st r.lines
        let before := (s.mcOf st).reqs.filter (fun w => w.write && w.id < r.id && w.meets r)
        let data := if r.write then [] else s.queuedView st before (64 * r.line + r.off) r.len
        let (bad, s) := s.runLines st r errs
        let s := if r.write && bad.isEmpty then s else s.emit (.mcData st r.client (64 * r.line + r.off) data bad)
        let s := if !r.write && r.client = flowClient then s.flowRead st (64 * r.line + r.off) r.len bad else s
        let s := s.updMc st (fun m => { m with reqs := m.reqs.filter (fun x => x.id ≠ r.id),
                                               batch := if r.rt then mset m.batch c false false else m.batch })
        let s := s.batchUpdate st c
        if r.rt then r.banks.foldl (fun s b => s.repay st ch b) s else s)

/-- tREFI of a stack in time ticks (R229). -/
def State.refi (s : State) (st : Nat) : Nat := if s.on (F.MC_STATUS_HOT st) then 3120 else 6240

/-- The tick at which the present refresh interval of a bank began; the first intervals of the 16 banks are staggered evenly (R229). -/
def State.refreshLast (s : State) (k : Nat) : Nat := max (s.ranAt .refresh k) (390 * (k % 16))

/-- REFRESH_DUE (R229 to R232): the refresh of a bank is postponed, splits a real-time burst, or is issued; in self-refresh the stack
refreshes itself. -/
def execRefreshDue (st : Fin 6) (ch : Fin 32) (bank : Fin 16) (s : State) : Result :=
  .next (
    let k := 512 * st.val + 16 * ch.val + bank.val
    let last := s.refreshLast k
    if s.now - last < s.refi st then s
    else
      let s := s.ran .refresh k (s.now - (s.now - last) % s.refi st)
      if s.on (F.MC_STATUS_SR st) then s
      else
        let l := s.bankReqs st ch bank
        let hit := l.any (fun r => (s.openRow st (2 * ch) bank).any (fun x => x.1 = rowOf r.block))
        let rt := l.any (fun r => r.rt)
        let batch := (s.logicalOf st ch).any (fun c => mget (s.mcOf st).batch c false)
        let owed := s.rd (owedF st ch bank)
        if (hit || rt || batch) && owed < 8 then
          let s := s.wr (owedF st ch bank) (owed + 1)
          if owed + 1 = 8 then s.satAdd (F.MC_REF_OWED_MAX_OWED_CNT k) 1 else s
        else if rt then ((s.satAdd (F.MC_RT_SPLIT_COUNT st) 1).cntGlobal 0x53 st 1).refreshIssue st ch bank
        else (s.refreshIssue st ch bank).repay st ch bank)

/-- ROW_IDLE_CLOSE (R226): a bank's idle timer expires with no request for its row waiting. -/
def execRowIdleClose (st : Fin 6) (pc : Fin 64) (bank : Fin 16) (s : State) : Result :=
  .next (
    match s.openRow st pc bank with
    | none => s
    | some (row, t) =>
      if s.now - t ≥ s.rd (F.MC_IDLE_STATUS_CUR (64 * st.val + pc.val)) &&
          !(s.bankReqs st (pc / 2) bank).any (fun r => rowOf r.block = row) then s.closeRow st pc bank true
      else s)

/-- The timer of a pseudo-channel after a period (R227, R228): its value, and whether a step was held at a bound. A timer outside the bounds
moves to the nearer one, and that is its step. -/
def idleStep (cur lo hi late conf : Nat) : Nat × Bool :=
  let lo := min lo hi
  let c := max lo (min hi cur)
  if c ≠ cur then (c, false)
  else if late > conf then if 2 * c > hi then (hi, true) else (2 * c, false)
  else if conf > 2 * late then if c / 2 < lo then (lo, true) else (c / 2, false)
  else (c, false)

/-- IDLE_TIMER_ADAPT (R227, R228): every 4,096 memory clocks a pseudo-channel adapts its timer. -/
def execIdleTimerAdapt (st : Fin 6) (pc : Fin 64) (s : State) : Result :=
  .next (
    let k := 64 * st.val + pc.val
    if !s.due .idle k 4096 then s
    else
      let s := s.ran .idle k s.now
      let m := s.mcOf st
      let (v, pin) :=
        if s.on (F.MC_IDLE_ADAPT st) then
          idleStep (s.rd (F.MC_IDLE_STATUS_CUR k)) (s.rd (F.MC_IDLE_MIN st)) (s.rd (F.MC_IDLE_MAX st)) (mget m.lateHits pc 0)
            (mget m.conflicts pc 0)
        else (s.rd (F.MC_IDLE_INIT st), false)
      let s := (s.wr (F.MC_IDLE_STATUS_CUR k) v).wrB (F.MC_IDLE_STATUS_PINNED k) pin
      let s := if pin then s.satAdd (F.MC_PINNED_CNT_COUNT st) 1 else s
      s.updMc st (fun m => { m with lateHits := mset m.lateHits pc 0 0, conflicts := mset m.conflicts pc 0 0 }))

/-- TEMP_AT shows the temperature at which the active set was trained. -/
def State.trainTempShow (s : State) (st : Nat) : State :=
  s.wr (F.MC_TRAIN_STATUS_TEMP_AT st) ((mfind (s.mcOf st).trainTemp (s.rd (F.MC_STATUS_TSET st))).getD 0)

/-- MC_TSET_WRITE (R236, R245): a write to TARGET. `commits` tells that the self-refresh entry commits with no request before it. -/
def execMcTsetWrite (q : Requester) (st : Fin 6) (target : Fin 4) (commits : Bool) (s : State) : Result := if !s.grants q false then .next s else
  .next (
    let s := s.tsetRequest st target
    if commits && (s.mcOf st).change.any (fun t => t.entering && !t.committed) then s.tsetCommit st else s)

/-- TSET_ENTRY_RETRY (R237): the entry of a change goes on, or is tried again 1 µs after its abort; `commits` tells that it commits. -/
def execTsetEntryRetry (st : Fin 6) (commits : Bool) (s : State) : Result :=
  .next (
    match (s.mcOf st).change with
    | none => s
    | some t =>
      if t.committed || (!t.entering && s.now - t.since < 1600) then s
      else
        let s := s.updMc st (fun m => { m with change := some { t with entering := true } })
        if commits then s.tsetCommit st else s)

/-- TSET_CHANGE_DONE (R236, R245): the committed change leaves self-refresh in the new set, retrained if its training was stale, and the
next change starts. DESIGN CHOICE: log entry 36. -/
def execTsetChangeDone (st : Fin 6) (s : State) : Result :=
  .next (
    match (s.mcOf st).change with
    | none => s
    | some t =>
      if !t.committed then s
      else
        let next := (s.mcOf st).nextSet
        let s := s.updMc st (fun m => { m with change := none, nextSet := none, sr := 0 })
        let s := if bit (s.rd (F.MC_TRAIN_STATUS_VALID st)) t.target then s else s.trainSet st t.target
        let s := ((s.wr (F.MC_STATUS_TSET st) t.target).wrB (F.MC_STATUS_TSET_BUSY st) false).wrB (F.MC_STATUS_SR st) false
        let s := ((s.trainTempShow st).satAdd (F.MC_TSET_CMD_CHANGES st) 1).raise .mc st 5
        match next with
        | some n => s.tsetRequest st n
        | none => s)

/-- SR_IDLE_ENTRY (R239, R372): in SAVE whatever MC_SR_CFG.EN holds, the stack enters self-refresh after its idle time, its owed refreshes
repaid. DESIGN CHOICE: log entry 66. -/
def execSrIdleEntry (st : Fin 6) (s : State) : Result :=
  .next (
    let m := s.mcOf st
    if (!s.on (F.MC_SR_CFG_EN st) && s.rd F.PWR_STATUS_STATE ≠ 4) || !m.reqs.isEmpty || m.change.isSome || m.sr ≠ 0 ||
        s.now - m.lastReq < max 1 (s.rd (F.MC_SR_CFG_IDLE st)) * 1600 then s
    else
      let s := (List.range 512).foldl (fun s k => s.wr (F.MC_REF_OWED_OWED (512 * st.val + k)) 0) s
      (s.updMc st (fun m => { m with sr := 2, rows := [] })).wrB (F.MC_STATUS_SR st) true)

/-- PATROL_SCRUB (R222, R240, R241, R243): the next line is read once no request waits for its channel, with `pins` pins in error; a
correctable line is written back, and one beyond correction stays poisoned for its next reader. DESIGN CHOICE: log entry 37. DEDUCED: log
entry 64. -/
def execPatrolScrub (st : Fin 6) (pins : Nat) (s : State) : Result :=
  .next (
    let h := s.rd (F.MC_RAS_CFG_SCRUB_HOURS st)
    if h = 0 || s.mcHeld st || !s.due .scrub st (h * hourTicks / 390070272) then s
    else
      let line := (s.mcOf st).scrubAt
      if !(s.chReqs st (logicalCh (line / 64))).isEmpty then s else
      let s := s.ran .scrub st s.now
      let s := s.updMc st (fun m => { m with scrubAt := (line + 1) % 390070272 })
      let (e, s) := s.injectEcc 1 st
      let n := match e with
        | some true => 5
        | some false => max 1 pins
        | none => pins
      if n > 4 then
        let s := if pins > 4 then s.updMc st (fun m => { m with poison := mset m.poison line true false }) else s
        if s.feeds e.isSome then s.spareRequest 4 (channelObject st (logicalCh (line / 64))) 0 else s
      else if n > 0 && !mget (s.mcOf st).poison line false then s.lineCorrected st line n e.isSome
      else s)

/-- HBM_TEMP_READ (R229, R244): every 100 µs. DESIGN CHOICE: log entry 37. -/
def execHbmTempRead (st : Fin 6) (temp : Fin 256) (s : State) : Result :=
  .next (
    if !s.due .thermal (1 + st.val) 160000 then s
    else
      let s := (s.ran .thermal (1 + st.val) s.now).wr (F.MC_STATUS_TEMP st) temp
      let s := if temp.val > 85 then s.wrB (F.MC_STATUS_HOT st) true
               else if temp.val ≤ 82 then s.wrB (F.MC_STATUS_HOT st) false
               else s
      s.staleCheck st)

/-- DELAY_TRACKING (R244): a channel's delays are tracked every 100 ms and after every 10 °C of drift, not while a real-time burst uses the
channel; the stack's next tracking counts from the last channel's. -/
def execDelayTracking (st : Fin 6) (ch : Fin 32) (s : State) : Result :=
  .next (
    let t := s.rd (F.MC_STATUS_TEMP st)
    let m := s.mcOf st
    let busy := (s.logicalOf st ch).any (fun c => (s.chReqs st c).any (fun r => r.rt))
    if (s.now - m.trackAt < 160000000 && tempDiff t m.trackTemp < 10) || busy then s
    else if ch.val = 31 then s.updMc st (fun m => { m with trackAt := s.now, trackTemp := t })
    else s)

/-- HBM_TRAINING_DONE (R244): boot training of the three sets at `temp`; `fail` names a physical channel whose training failed. -/
def execHbmTrainingDone (st : Fin 6) (temp : Fin 256) (fail : Option (Fin 32)) (s : State) : Result :=
  .next (
    let s := s.wr (F.MC_STATUS_TEMP st) temp
    let s := (List.range 3).foldl (fun s k => s.trainSet st k) s
    let s := (s.trainTempShow st).updMc st (fun m => { m with trackTemp := temp, trackAt := s.now })
    match fail with
    | none => s.wrB (F.MC_TRAIN_STATUS_FAIL st) false
    | some ch => ((s.wrB (F.MC_TRAIN_STATUS_FAIL st) true).wr (F.MC_TRAIN_STATUS_FAIL_CH st) ch).raise .mc st 7)

/-- CHANNEL_SPARE_START (R243): the sparing manager starts channel sparing; with the spare in use, a second failing channel logs DEGRADED
and stays in service. DESIGN CHOICE: log entry 50. -/
def execChannelSpareStart (st : Fin 6) (c : Fin 31) (s : State) : Result :=
  .next (
    if s.channelReady st then s.channelStart st c
    else if s.rd (F.MC_STATUS_SPARE st) = 1 || s.rd (F.MC_STATUS_SPARED_CH st) = c then s
    else s.noSpare 4 (channelObject st c))

/-- CHANNEL_COPY_DONE (R239, R243): the map changes, and the old channel is FAILED; the copy pauses while the stack changes its timing set
or is in self-refresh. DESIGN CHOICE: log entry 66. -/
def execChannelCopyDone (st : Fin 6) (s : State) : Result :=
  .next (
    match (s.mcOf st).copy with
    | none => s
    | some (c, _) =>
      if s.mcHeld st then s else
      let old := s.physCh st c
      let s := (s.updMc st (fun m => { m with copy := none })).wr (F.MC_CHMAP_PHYS (31 * st.val + c)) (s.sparePhys st)
      let s := ((s.wr (F.MC_STATUS_SPARE st) 2).wr (F.MC_STATUS_COPY_PCT st) 100).mapRecord 4 (channelObject st c) (2 + s.sparePhys st)
      let s := (s.raise .mc st 4).satAdd F.RAS_SPARE_STATUS_SWAPS 1
      (s.spareConsumed 4 .mc 0 (32 * st.val + old) (channelObject st c)).finishHold (holdSpare 4) (channelObject st c) stOk 2 0)

end Sys2Proof.Machine
end

