-- ==== Sys2Proof/Machine/Snap.lean ====
section
/-! DEFINITION. The bytes of a Tidemark snapshot (R456). -/

namespace Sys2Proof.Machine

/-- A field as it stood when a snapshot was latched. -/
def Snap.rd (x : Snap) (f : Fld) : Nat := mget x.regs f.key f.dflt

/-- The value of a register made of the fields `l` with the readings `f`. -/
def fieldSum (l : List (Fld × Access)) (f : Fld → Nat) : Nat := (l.map (fun e => f e.1 * 2 ^ e.1.lo)).sum

/-- A 32-bit register as it stood when a snapshot was latched. -/
def Snap.word (x : Snap) (r : RegName) (k : Nat) : Bytes := leBytes 4 (fieldSum ((regRow r).fields k) x.rd)

/-- Values of `w` bits packed from bit 0 of the first byte up, `8 / w` to a byte. -/
def packed (w : Nat) : List Nat → Bytes
  | [] => []
  | a :: t =>
    let per := 8 / w
    let rec go (n : Nat) (l : List Nat) (k acc : Nat) : Bytes :=
      match l with
      | [] => if k = 0 then [] else [BitVec.ofNat 8 acc]
      | v :: u =>
        let acc := acc + v * 2 ^ (w * k)
        if k + 1 = n then BitVec.ofNat 8 acc :: go n u 0 0 else go n u (k + 1) acc
    go per (a :: t) 0 0

/-- A block of the snapshot, filled with 0 to its size. -/
def padTo (n : Nat) (l : Bytes) : Bytes := (l ++ List.replicate (n - l.length) 0).take n

/-- A replacement is under way as the latched registers show it. -/
def Snap.sparing (x : Snap) : Bool :=
  (List.range 16).any (fun i => x.rd (F.LANE_SWAP_STATUS_BUSY i) ≠ 0) ||
    (List.range 68).any (fun b => x.rd (F.LAG_BANK_STATUS_STATE b) = 2) ||
    (List.range 6).any (fun st => x.rd (F.MC_STATUS_SPARE st) = 1) ||
    (List.range 36).any (fun e => x.rd (F.ATL_ENG_STATUS_STATE e) = 2) ||
    (List.range 128).any (fun b => x.rd (F.CWAY_BUNDLE_STATUS_STATE b) = 2) || x.rd F.RAS_SPARE_STATUS_BUSY ≠ 0

/-- The header of a snapshot. -/
def Snap.header (x : Snap) : Bytes :=
  leBytes 1 1 ++ leBytes 1 x.sources ++ leBytes 1 (x.rd F.CLK_CORE_DIV) ++ leBytes 1 0 ++ leBytes 4 x.seq ++ leBytes 8 x.sec ++
    leBytes 4 x.ns ++ leBytes 2 x.frac ++ leBytes 2 0 ++ leBytes 8 x.ticks ++ leBytes 4 x.logSeq

/-- Registers 0 to `n` − 1 of a name. -/
def Snap.words (x : Snap) (r : RegName) (n : Nat) : Bytes := (List.range n).flatMap (x.word r)

/-- The snapshot's 8 KiB (R456). -/
def Snap.bytes (x : Snap) : Bytes :=
  let each (w n : Nat) (f : Nat → Fld) : Bytes := packed w ((List.range n).map (fun k => x.rd (f k)))
  padTo 64 x.header ++
  padTo 64 (x.word .CLK_STATUS 0 ++ x.word .CLK_CORE 0 ++ x.word .PWR_STATUS 0 ++ x.word .PWR_POWER 0 ++ x.word .PWR_CAP_EFF 0 ++
    x.word .PWR_THERM_STATUS 0 ++ x.words .LIGHT_STATUS 2) ++
  each 4 544 F.LANE_STATUS_STATE ++ each 4 512 F.PORT_STATUS_STATE ++ each 4 160 F.PIPE_STATUS_STATE ++
  padTo 64 (x.word .CWAY_STATUS 0 ++ each 2 128 F.CWAY_BUNDLE_STATUS_STATE) ++
  padTo 64 (x.words .LAG_HALF_STATUS 2 ++ x.words .LAG_HALF_USE 2 ++ each 2 68 F.LAG_BANK_STATUS_STATE) ++
  each 1 4096 F.LAG_PG_USE_XOFF ++ each 8 512 F.MAC_PFC_STATUS_RX_PAUSED ++
  each 8 512 F.TM_PORT_STATUS_GATES ++ each 1 8192 F.TM_Q_STATUS_BACKLOG ++ each 1 1024 F.TM_MQ_STATUS_BACKLOG ++
  x.words .MC_STATUS 6 ++ x.words .BPM_DEEP_DIE_STATUS 2 ++ x.words .BPM_POOL_FREE 24 ++
  padTo 160 (x.word .ATL_STATUS 0 ++ x.words .ATL_ENG_STATUS 36) ++ each 4 4096 F.ATL_SESS_STATUS_STATE ++
  padTo 64 (x.words .RAS_CLASS_CNT 5 ++ x.word .RAS_LOG_WR 0 ++
    leBytes 4 (fieldSum ((regRow .RAS_SPARE_STATUS).fields 0) x.rd +
      if x.sparing && x.rd F.RAS_SPARE_STATUS_BUSY = 0 then 2 else 0)) ++
  List.replicate 2240 0

/-- The snapshot as it is read: zeros before the first one. -/
def State.snapBytes (s : State) : Bytes :=
  match s.snap with
  | some x => x.bytes
  | none => List.replicate 8192 0

end Sys2Proof.Machine
end

