-- ==== Sys2Proof/Machine/Ras.lean ====
section
/-! DEFINITION. Sparing triggers and policy, soft repair, scrub, Tidemark sources, perturbation arming and the test access port (R437 to
R462, R66). -/

namespace Sys2Proof.Machine

/-! ### Lane windows -/

/-- The corrected bits of a window fail the threshold of R66. DEDUCED: log entry 74. -/
def State.berFails (s : State) (i corr : Nat) : Bool :=
  let m := s.rd (F.LANE_SWAP_BER_MANT i)
  m ≠ 0 && corr * 10 ^ s.rd (F.LANE_SWAP_BER_EXP i) > m * 44564480

/-- What a window of lane `l` counts (R49, R89): corner pairs for the lane, and corrected symbols and codewords for its port. -/
def State.windowCount (s : State) (l : Nat) (words : List LineErr) (corner : Nat) : State :=
  let x := mget s.laneX l {}
  let c := lineCounts words
  let s := (s.satAdd (F.LANE_ERR_CNT_CORNER l) corner).updLane l (fun x => { x with winBits := 0, winCorr := 0, winBad := 0 })
  match s.carried l with
  | some p =>
    (s.updPort p (fun y => { y with winCorr := y.winCorr + x.winCorr + c.2.2.1, winBad := y.winBad + x.winBad + c.2.2.2 })).symbolsFixed p l c.1
  | none => s

/-- A lane in RESERVE with LANE_SWAP_WIN failing windows in a row is FAILED, and a swap to it ends (R58, R72). -/
def State.reserveFails (s : State) (l : Nat) : State :=
  let s := match s.portOfLane l with
    | some p => s.swapAbort p 2 true
    | none => s
  let s := ((s.laneEnter l 5).mapRecord 0 l 1).spareConsumed 0 .lane (l / 34) l 0
  match s.portOfLane l with
  | some p => s.spareReady p
  | none => s

/-- A lane in LOCKED with LANE_SWAP_WIN failing windows in a row asks for its replacement, where the port's form has a hot spare (R66). -/
def State.lockedFails (s : State) (l : Nat) : State :=
  match s.portOfLane l with
  | none => s
  | some p =>
    if s.rd (F.PORT_CFG_SPARE_LANE p) = 0x3F then s
    else s.spareRequest 0 (p + 2 ^ 10 * s.rd (F.LANE_STATUS_LOGICAL l)) 0

/-- SWAP_WINDOW_CLOSE (R49, R58, R66, R72, R89, R458, R459): a window of a Strait lane in LOCKED or RESERVE, with what the codewords of received
frames have shown, and the errors and corner pairs of the other codewords of the window. -/
def execSwapWindowClose (l : Fin 544) (words : List LineErr) (corner : Nat) (s : State) : Result :=
  .next (
    let x := mget s.laneX l {}
    let corr := x.winBits + (lineCounts words).2.1
    let uncorr := x.winBad + (lineCounts words).2.2.2
    let s := s.windowCount l words corner
    let st := s.laneState l
    if s.rd (F.LANE_CTL_MODE l) ≠ 1 || (st ≠ 3 && st ≠ 4) then s
    else
      let inj := s.perturbLane l 8
      let fed : Nat × Nat := if s.on F.DBG_CTL_SPARE_COUNT then inj else (0, 0)
      let s := (s.wr (F.LANE_ERR_CORR_BITS l) (min (corr + inj.1) (2 ^ 24 - 1))).satAdd (F.LANE_ERR_CNT_UNCORR l) (uncorr + inj.2)
      let fail : Bool := uncorr + fed.2 > 0 || s.berFails (l / 34) (corr + fed.1)
      let run := if fail then min 15 (s.rd (F.LANE_ERR_FAIL_RUN l) + 1) else 0
      let s := s.wr (F.LANE_ERR_FAIL_RUN l) run
      let win := s.rd (F.LANE_SWAP_WIN_WIN (l / 34))
      if win = 0 || run < win then s
      else if st = 4 then s.reserveFails l
      else s.lockedFails l)

/-! ### Requests and policy -/

/-- SPARE_REQ_AGE (R449): the age of a pending request; at 24 hours it logs a NOTICE with code 0x88 and sets LIFE_VOID. -/
def execSpareReqAge (n : Fin 16) (s : State) : Result :=
  .next (
    if !s.on (F.RAS_SPARE_REQ_VALID n) then s
    else
      let h := (s.now - mget s.ras.reqAt n 0) / hourTicks
      let old := s.rd (F.RAS_SPARE_REQ_AGE_AGE n)
      let s := s.wr (F.RAS_SPARE_REQ_AGE_AGE n) (min h 65535)
      if old < 24 && h ≥ 24 then
        let (b, i, u) := s.objectBlk (s.rd (F.RAS_SPARE_REQ_KIND n)) (s.rd (F.RAS_SPARE_REQ_OBJ_OBJECT n) % 2 ^ 28)
        (s.event notice (codeOf b i 0x88) u (s.rd (F.RAS_SPARE_REQ_OBJ_OBJECT n))).lifeVoid
      else s)

/-- SPARE_MODE_WRITE (R449, R462, R499): a write of RAS_SPARE_POLICY; MODE is locked while a RETURN test runs. -/
def execSpareModeWrite (q : Requester) (mode : Fin 4) (ask : Fin 256) (s : State) : Result := if !s.grants q false then .next s else
  .next (
    let s := s.wr F.RAS_SPARE_POLICY_ASK_KINDS ask
    if s.rd F.RAS_SPARE_POLICY_MODE = mode then s
    else if s.on F.RAS_SPARE_STATUS_BUSY then s.locked q .RAS_SPARE_POLICY 0 1
    else s.setSpareMode mode)

/-- The threshold of R446 for a kind. -/
def rateField (kind : Nat) : Nat :=
  match kind with
  | 1 => 0
  | 2 => 1
  | 3 => 2
  | 4 => 4
  | _ => 3

/-- SPARE_RATE_WINDOW (R446): the hour closes, and the counts of wires, banks, pipelines, channels and engines are judged. `extra` gives
corrected words of pipelines and engines (kind, object, count) that no other command has reported. DESIGN CHOICE: log entry 61. -/
def execSpareRateWindow (extra : List (Fin 8 × Nat × Nat)) (s : State) : Result :=
  .next (
    if !s.due .rate 0 hourTicks then s
    else
      let s := s.ran .rate 0 s.now
      let s := extra.foldl (fun s e =>
        if (e.1.val = 3 || e.1.val = 5) && objectOk e.1 e.2.1 && e.2.2 ≠ 0 then
          let (b, i, u) := s.objectBlk e.1 e.2.1
          (s.event corrected (codeOf b i 0x80) u (objectWord e.1 e.2.1)).rateAdd e.1 e.2.1 e.2.2 false
        else s) s
      let l := s.ras.rate
      let s := s.updRas (fun r => { r with rate := [] })
      l.foldl (fun s e =>
        let (k, o) := Nat.unpair e.1
        if 1 ≤ k && k ≤ 5 && e.2 ≥ s.rd (F.RAS_SPARE_THRESH_THRESH (rateField k)) then s.spareRequest k o 0 else s) s)

/-! ### Ageing -/

/-- The trend rule of R448 for a present value, the value 30 days earlier if there is one, and hours in service. DEDUCED: log entries 60,
75. -/
def ageTrigger (limit horizon p : Nat) (v30 : Option Nat) (hours : Nat) : Bool :=
  hours ≥ 720 && (p ≥ limit || v30.any (fun v => p > v && (limit - p) * 30 ≤ horizon * (p - v)))

/-- AGEING_CHECK (R448): once a day each monitor is judged. DEDUCED: log entry 75. -/
def execAgeingCheck (s : State) : Result :=
  .next (
    if !s.due .age 1 dayTicks then s
    else
      let s := s.ran .age 1 s.now
      (List.range 256).foldl (fun s m =>
        let a := mget s.ras.ages m {}
        let hours := a.hours + 24
        let hit := ageTrigger (s.rd (F.RAS_SPARE_THRESH_THRESH 6)) (s.rd (F.RAS_SPARE_THRESH_THRESH 7)) a.now a.days[29]? hours
        let s := s.updRas (fun r =>
          { r with ages := minsert r.ages m { a with days := (a.now :: a.days).take 30, hours := hours } })
        if !hit then s
        else if m < 160 then if s.pipeState m = 0 then s.spareRequest 3 m 1 else s
        else if m < 196 then
          if s.rd (F.ATL_ENG_STATUS_STATE (m - 160)) = 0 then s.spareRequest 5 (m - 160) 1 else s
        else s.event notice (codeOf .ras 0 0x84) m a.now) s)

/-! ### Memory -/

/-- A free spare row (0–3) or column (4, 5) of SRAM macro `m` (R444). DESIGN CHOICE: log entry 139. -/
def State.sramSpare (s : State) (m : Nat) (col : Bool) : Option Nat :=
  (if col then [4, 5] else [0, 1, 2, 3]).find? (fun k =>
    !s.ras.repairs.contains (m, k) && mget s.fuses.map (key2 6 (8 * m + k)) 0 = 0)

/-- SOFT_REPAIR (R445, R447, R452): a failing row, or column, of an SRAM macro is mapped to a spare of the macro. DESIGN CHOICE: log entry
76. -/
def execSoftRepair (mac line : Nat) (col : Bool) (s : State) : Result :=
  .next (
    match s.sramSpare mac col with
    | none => s.event degraded (codeOf .ras 0 0x86) mac line
    | some k =>
      let s := (s.updRas (fun r => { r with repairs := r.repairs ++ [(mac, k)] })).mapRecord 6 (8 * mac + k) (line + 1)
      let s := (s.subFrom (F.RAS_SPARE_SUMMARY_FREE 6) 1).satAdd (F.RAS_SPARE_SUMMARY_HI_FAILED 6) 1
      (s.satAdd F.RAS_SPARE_STATUS_SWAPS 1).event degraded (codeOf .ras 0 0x82) mac line)

/-- TCAM_SCRUB (R437): every 10 ms; `bad` names TCAM entries that fail their parity (pool, table, index). -/
def execTcamScrub (bad : List (Fin 32 × Nat × Nat)) (s : State) : Result :=
  .next (
    if !s.due .tcam 0 16000000 then s
    else
      bad.foldl (fun s e =>
        let (p, t, ix) := e
        if (s.layout p t).any (fun l => l.kind = 1) && (s.entry p t ix).valid then s.entryLost (p / 2) (p % 2) t ix else s)
        (s.ran .tcam 0 s.now))

/-! ### Perturbation and Tidemark -/

/-- DBG_ARM_WRITE (R457, R462, R472): ARM accepts a write through BAR0 of PF0 or JTAG; any other that would change it is discarded with
reason ARM. Setting ARM, and clearing it while a perturbation acts, raise their events. -/
def execDbgArmWrite (q : Requester) (on : Bool) (s : State) : Result := if !s.grants q false then .next s else
  .next (
    if s.on F.DBG_CTL_ARM = on then s
    else if q = .pf0 || q = .jtag then
      let acts := s.perturbs
      let s := (s.wrB F.DBG_CTL_ARM on).perturbUpdate (s.rd F.DBG_PERTURB_PFC_PORT)
      if on then s.raise .dbg 0 0 else if acts then s.raise .dbg 0 1 else s
    else s.discard q (regAddr .DBG_CTL 0) 0 2)

/-- TIDEMARK_IN_EDGE (R453). -/
def execTidemarkInEdge (s : State) : Result := .next (s.tidemark 0 0)

/-- RAS_TM_FIRE (R453): FIRE is written. -/
def execRasTmFire (q : Requester) (s : State) : Result := if !s.grants q false then .next s else .next (s.tidemark 2 0)

/-! ### The test access port (R460, R461) -/

/-- The TAP instruction register holds `code`. DESIGN CHOICE: log entry 73. -/
def State.tap (s : State) (code : Nat) : State := { s with harb := { s.harb with tapIr := code } }

/-- An instruction of R461 that stops forwarding and logs a NOTICE; the spec gives its CODE no event number. -/
def State.tapStop (s : State) (code : Nat) : State :=
  let (v, s) := s.fresh
  { s.tap code with scanStop := true }.event notice (0x2900 + v % 256) 0 code

/-- JTAG_BYPASS (R460): one bit of delay from TDI to TDO. -/
def execJtagBypass (tdi : Bytes) (s : State) : Result :=
  .next ((s.tap 0xFF).emit (.tdo (leBytes tdi.length (2 * ofLe tdi))))

/-- JTAG_IDCODE (R460). -/
def execJtagIdcode (s : State) : Result := .next ((s.tap 0x01).emit (.tdo (leBytes 4 0xB0A0947D)))

/-- JTAG_SAMPLE_PRELOAD (R460, R461): the boundary cells take the data, and what the pins showed, which the board gives, shifts out. DESIGN
CHOICE: log entry 73. -/
def execJtagSamplePreload (data : Bytes) (s : State) : Result :=
  .next (
    let (v, s) := (s.tap 0x02).fresh
    { s with harb := { s.harb with boundary := data } }.emit (.tdo (leBytes data.length v)))

/-- JTAG_EXTEST (R461). -/
def execJtagExtest (s : State) : Result := .next (s.tapStop 0x03)

/-- JTAG_CLAMP (R461). -/
def execJtagClamp (s : State) : Result := .next (s.tapStop 0x04)

/-- JTAG_HIGHZ (R461). -/
def execJtagHighz (s : State) : Result := .next (s.tapStop 0x05)

/-- JTAG_EXTEST_PULSE (R461). -/
def execJtagExtestPulse (s : State) : Result := .next (s.tapStop 0x06)

/-- JTAG_EXTEST_TRAIN (R461). -/
def execJtagExtestTrain (s : State) : Result := .next (s.tapStop 0x07)

/-- JTAG_TM_FIRE (R453, R460). -/
def execJtagTmFire (s : State) : Result := .next ((s.tap 0x20).tidemark 2 0)

/-- JTAG_TM_READ (R456, R460): the snapshot's 65,536 bits, byte 0 bit 0 first. -/
def execJtagTmRead (s : State) : Result := .next ((s.tap 0x21).emit (.tdo s.snapBytes))

end Sys2Proof.Machine
end

