-- ==== Sys2Proof/Machine/Atoll.lean ====
section
/-! DEFINITION. Atoll's commands: frames that the engines take, results, timeouts, notices and engine replacement (R285 to R302). -/

namespace Sys2Proof.Machine

/-! ### Frames at an engine -/

/-- The oldest frame that waits for role `r`. -/
def State.atlHead (s : State) (r : Nat) : Option AtlIn :=
  s.atl.inq.find? (fun x => s.roleOf x.sess (atlHdr x.data).chunk = r)

/-- The engine that holds role `r` takes frames: it is ACTIVE (R300). -/
def State.roleTakes (s : State) (r : Nat) : Bool :=
  (s.engineOf r).any (fun e => s.rd (F.ATL_ENG_STATUS_STATE e) = 0)

/-- The frame arrived on a trusted port (R285). DEDUCED: log entry 70. -/
def State.atlTrusted (s : State) (x : AtlIn) : Bool := !x.host && s.on (F.PORT_CFG_TRUSTED x.port)

/-- WIDE that the session and the member's kind call for (R282, R292). -/
def State.wideWanted (s : State) (h : AtlHdr) : Bool :=
  h.type = atlContrib && s.sums h.session && s.memberKind h.session h.member = 1

/-- Why an engine drops a frame of a session (R285), in the order of the rule; `fresh` tells that the frame would open a new operation. -/
def State.atlReject (s : State) (x : AtlIn) (fresh : Bool) : Option Nat :=
  let h := atlHdr x.data
  let n := h.session
  if beAt x.data 28 4 ≠ atlCheck x.data then some 0x70
  else if (h.type = atlHoldOff || h.type = atlAbort || h.wide) && !s.atlTrusted x then some 0x76
  else if h.fmt ≠ s.sessFmt n || h.op ≠ s.sessOp n || h.wide ≠ s.wideWanted h then some 0x74
  else if s.sessState n = 4 || s.sessState n = 0 || (s.sessState n = 3 && fresh) then some 0x73
  else none

/-- The frame at the head of role `r` is taken when its TYPE is `type`: dropped, or given to `f`. DEDUCED: log entry 67. -/
def State.atlTake (s : State) (r type : Nat) (fresh : State → AtlHdr → Bool) (f : State → AtlIn → AtlHdr → State) : State :=
  match s.atlHead r with
  | none => s
  | some x =>
    let h := atlHdr x.data
    if h.type ≠ type || !s.roleTakes r then s
    else
      let s := s.updAtl (fun a => { a with inq := a.inq.erase x })
      match s.atlReject x (fresh s h) with
      | some code => s.atlDrop x code
      | none => f s x h

/-- The open chunk of a frame. -/
def State.chunkOf (s : State) (h : AtlHdr) : Option Chunk :=
  (s.sess h.session).chunks.find? (fun c => c.opseq = h.opseq && c.chunk = h.chunk)

/-- The staged result of a frame's chunk, or with `up` the staged partial. -/
def State.stagedOf (s : State) (h : AtlHdr) (up : Bool) : Option Staged :=
  (s.sess h.session).stage.find? (fun z => z.up = up && z.opseq = h.opseq && z.chunk = h.chunk)

/-- The result of the frame's chunk has left the stage (R290). -/
def State.isReleased (s : State) (h : AtlHdr) : Bool :=
  (s.sess h.session).released.contains (h.opseq, h.chunk)

/-- The session has seen no operation yet. -/
def State.sessNew (s : State) (n : Nat) : Bool :=
  let x := s.sess n
  x.chunks.isEmpty && x.stage.isEmpty && x.released.isEmpty

/-- The frame opens an operation newer than every one seen. DEDUCED: log entry 129. -/
def State.newOperation (s : State) (h : AtlHdr) : Bool :=
  s.sessNew h.session || chunkLt (s.rd (F.ATL_SESS_OPSEQ_OPSEQ h.session)) 0 h.opseq 0

/-- A chunk opens (R286, R293, R298, R302): the new chunk, or the drop code. DEDUCED: log entry 69. -/
def State.chunkOpen (s : State) (h : AtlHdr) : Except Nat (Chunk × State) :=
  let n := h.session
  let x := s.sess n
  if s.isReleased h || x.chunks.length ≥ s.rd (F.ATL_SESS_CFG_WINDOW n) then .error 0x72
  else
    match s.chunkRoom n h.chunk h.count with
    | none => .error 0x75
    | some (pages, buf, t) =>
      let c := t.newChunk n h.opseq h.chunk h.count pages buf
      let t := if t.newOperation h then t.wr (F.ATL_SESS_OPSEQ_OPSEQ n) h.opseq else t
      let t := t.setSess n { t.sess n with chunks := (t.sess n).chunks ++ [c] }
      .ok (c, if t.sessState n = 1 then t.wr (F.ATL_SESS_STATUS_STATE n) 2 else t)

/-- A RESULT opens a chunk of a new operation: a BROADCAST whose ROOT lies above (R285, R292). -/
def State.resultOpens (s : State) (h : AtlHdr) : Bool :=
  s.sessKind h.session = 2 && (s.chunkOf h).isNone && s.newOperation h

/-- Every open chunk of role `r` restarts (R300). -/
def State.restartRole (s : State) (r : Nat) : State :=
  s.atl.live.foldl (fun s n => s.restartChunks n (fun c => s.roleOf n c.chunk = r)) s

/-- Engine that holds role `r`, for events and error counts. -/
def State.roleEngine (s : State) (r : Nat) : Nat := (s.engineOf r).getD r

/-- The contribution of member `m` is added (R275 to R279, R287, R288, R292, R458): the read of the chunk's state may show a perturbed
error; with the last contributor the chunk completes. -/
def State.contribute (s : State) (x : AtlIn) (h : AtlHdr) (c : Chunk) : State :=
  let n := h.session
  let r := s.roleOf n h.chunk
  let (e, s) := s.injectEcc 3 (roleDie r)
  if e = some true then (s.atlDone x).restartRole r
  else
    let s := if e = some false then
        (s.event corrected (codeOf .atl 0 0x80) (s.roleEngine r) n true).rateAdd 5 (s.roleEngine r) 1 true
      else s
    let c' := s.addElems n c h.wide (x.data.drop 32)
    let lead := if c.from_.isEmpty then 0 else s.now - c.lastTick
    let c' := { c' with from_ := h.member :: c.from_, last := h.last, lastTick := s.now, lead := lead }
    let full := (s.contributors n).all (fun m => c'.from_.contains m)
    let c' := { c' with done := full && (s.parent n).isNone }
    let s := s.setSess n { s.sess n with job := h.job }
    let s := (s.updChunk n h.opseq h.chunk (fun _ => c')).atlDone x
    if full then
      match s.parent n with
      | some p => s.sendPartial n p c'
      | none => s
    else s

/-- A contribution to an open chunk (R287, R288). -/
def State.contribOpen (s : State) (x : AtlIn) (h : AtlHdr) (c : Chunk) : State :=
  if c.from_.contains h.member then s.atlDrop x 0x71
  else if h.count ≠ c.count then (s.atlDrop x 0x74).sessFail h.session 3 none
  else s.contribute x h c

/-- CONTRIB_RECEIVE (R285 to R288, R292): the engine of role `r` takes the contribution at its head. DEDUCED: log entry 67. -/
def execContribReceive (r : Fin 32) (s : State) : Result :=
  .next (s.atlTake r atlContrib State.newOperation (fun s x h =>
    if !(s.contributors h.session).contains h.member then s.atlDrop x 0x74
    else
      match s.chunkOf h with
      | some c => s.contribOpen x h c
      | none =>
        match s.stagedOf h false with
        | some z => (s.resendResult h.session h.member z).atlDrop x 0x71
        | none =>
          match s.chunkOpen h with
          | .error code => s.atlDrop x code
          | .ok (c, s) => s.contribute x h c))

/-- RESULT_RECEIVE (R292): a PARENT's RESULT completes a chunk whose partial went up, or opens and completes a BROADCAST chunk whose ROOT
lies above; its bits go on unchanged. DEDUCED: log entry 67. -/
def execResultReceive (r : Fin 32) (s : State) : Result :=
  .next (s.atlTake r atlResult State.resultOpens (fun s x h =>
    let n := h.session
    let bits := x.data.drop 32
    if some h.member ≠ s.parent n then s.atlDrop x 0x74
    else
      match s.chunkOf h with
      | some c =>
        if c.sentUp && c.down.isNone then
          (s.updChunk n h.opseq h.chunk (fun c => { c with down := some bits, done := true, last := h.last })).atlDone x
        else s.atlDrop x 0x71
      | none =>
        if (s.stagedOf h false).isSome then s.atlDrop x 0x71
        else if s.sessKind n ≠ 2 || s.rd (F.ATL_SESS_ROOT_ROOT n) ≠ 0x3FF then s.atlDrop x 0x72
        else
          match s.chunkOpen h with
          | .error code => s.atlDrop x code
          | .ok (_, s) =>
            (s.updChunk n h.opseq h.chunk (fun c =>
              { c with from_ := [h.member], down := some bits, done := true, last := h.last })).atlDone x))

/-- CHUNK_RESULT_SEND (R273, R277, R287, R290, R292): the oldest complete chunk of a session sends its result. -/
def execChunkResultSend (n : Fin 4096) (s : State) : Result :=
  .next (
    match (s.sess n).chunks.find? (fun c => c.done) with
    | none => s
    | some c =>
      match c.down with
      | some d => s.finishChunk n c (if d.isEmpty then 0 else c.count) (if d.isEmpty && s.sessKind n = 1 then 1 else 0) d
      | none => s.finishChunk n c c.count 0 (s.chunkResult n c))

/-- ATOLL_NACK_RECEIVE (R289 to R292): a PARENT that misses a contribution receives the staged partial again; a member that misses a
result receives the staged result, or a NACK with ARG 3 when it has left the stage. -/
def execAtollNackReceive (r : Fin 32) (s : State) : Result :=
  .next (s.atlTake r atlNack (fun _ _ => false) (fun s x h =>
    let n := h.session
    let s := s.atlDone x
    if h.arg = 1 then
      match s.stagedOf h true with
      | some z =>
        if some h.member = s.parent n then s.atlSend n h.member atlContrib (z.flags ||| 4) z.opseq z.chunk z.count 0 z.data else s
      | none => s
    else if h.arg = 2 then
      match s.stagedOf h false with
      | some z => s.resendResult n h.member z
      | none => if s.isReleased h then (s.sendNack n h.member h.opseq h.chunk 3).raise .atl 0 5 else s
    else s))

/-! ### Notices and timeouts -/

/-- The deadlines of a session's open chunks are extended (R293). -/
def State.extendDeadlines (s : State) (n : Nat) : State :=
  let x := s.sess n
  s.setSess n { x with chunks := x.chunks.map (fun c =>
    { c with deadline := max c.deadline (min (c.deadline + s.holdOffExt) (s.now + s.sessTimeout n + s.holdOffExt)) }) }

/-- HOLD_OFF_RECEIVE (R285, R289, R293, R294). -/
def execHoldOffReceive (r : Fin 32) (s : State) : Result :=
  .next (s.atlTake r atlHoldOff (fun _ _ => false) (fun s x h =>
    let n := h.session
    let s := (s.atlDone x).satAdd (F.ATL_SESS_EVT_HOLDOFFS n) 1
    let y := s.sess n
    (s.setSess n { y with holdOff := mset y.holdOff h.member (some s.now) none }).extendDeadlines n))

/-- ABORT_RECEIVE (R302). -/
def execAbortReceive (r : Fin 32) (s : State) : Result :=
  .next (s.atlTake r atlAbort (fun _ _ => false) (fun s x h => (s.atlDone x).sessFail h.session 2 (some h.member)))

/-- A member's last HOLD_OFF arrived within HOLDOFF_EXT (R289). -/
def State.heldOff (s : State) (n m : Nat) : Bool :=
  (mget (s.sess n).holdOff m none).any (fun t => s.now - t ≤ s.holdOffExt)

/-- NACK_DELAY_EXPIRE (R289): each NACK_DELAY that a chunk stays open, NACKs with ARG 1 go to the contributors missing from it; for a
partial that waits for its result, one with ARG 2 goes to the PARENT. DESIGN CHOICE: log entry 68. -/
def execNackDelayExpire (n : Fin 4096) (opseq chunk : BitVec 32) (s : State) : Result :=
  .next (
    let o := opseq.toNat
    let k := chunk.toNat
    match (s.sess n).chunks.find? (fun c => c.opseq = o && c.chunk = k) with
    | none => s
    | some c =>
      if s.now - c.opened < (c.nacks + 1) * s.nackDelay then s
      else
        let s := s.updChunk n o k (fun c => { c with nacks := (s.now - c.opened) / s.nackDelay })
        if c.sentUp && c.down.isNone then
          match s.parent n with
          | some p => if s.heldOff n p then s else s.sendNack n p o k 2
          | none => s
        else
          (s.contributors n).foldl (fun s m =>
            if c.from_.contains m || s.heldOff n m then s else s.sendNack n m o k 1) s)

/-- CHUNK_DEADLINE (R293, R302). -/
def execChunkDeadline (n : Fin 4096) (opseq chunk : BitVec 32) (s : State) : Result :=
  .next (
    match (s.sess n).chunks.find? (fun c => c.opseq = opseq.toNat && c.chunk = chunk.toNat) with
    | none => s
    | some c => if s.now < c.deadline then s else s.sessFail n 1 none)

/-- The members whose HOLD_OFF came within the last HOLDOFF_PERIOD (R294). -/
def State.heardFrom (s : State) (n : Nat) : List Nat :=
  (s.members n).filter (fun m => (mget (s.sess n).holdOff m none).any (fun t => s.now - t ≤ s.holdOffPeriod))

/-- HOLD_OFF_SEND (R293, R294): every HOLDOFF_PERIOD while the power manager holds COMPUTE back, or a notice has been heard within the last
one. DESIGN CHOICE: log entry 162. -/
def execHoldOffSend (n : Fin 4096) (s : State) : Result :=
  .next (
    let x := s.sess n
    let own := s.on F.ATL_STATUS_HOLDING_OFF
    let from_ := s.heardFrom n
    if s.sessState n ≠ 2 || (!own && from_.isEmpty) then s.setSess n { x with sentAt := none }
    else if x.sentAt.any (fun t => s.now - t < s.holdOffPeriod) then s
    else
      let s := s.setSess n { x with sentAt := some s.now }
      let s := (s.members n).foldl (fun s m =>
        let k := s.memberKind n m
        if (k = 0 && !s.on (F.ATL_SESS_TIMEOUT_HOLDOFF_HOSTS n)) || (!own && from_ = [m]) then s
        else s.atlSend n m atlHoldOff 0 0 0 0 0 []) s
      if own then s.extendDeadlines n else s)

/-! ### Engines -/

/-- ENGINE_REPLACE (R300): the replacement of an ACTIVE engine starts; a DRAINING engine has finished its contribution, and the reserve
takes its role. DEDUCED: log entry 43. -/
def execEngineReplace (e : Fin 36) (s : State) : Result :=
  .next (
    match s.rd (F.ATL_ENG_STATUS_STATE e), s.reserveEngine (engineDie e) with
    | 0, some _ => if s.scopeBusy 5 e then s else s.engineDrain e
    | 2, some r => s.engineTake e r (s.dys.holds.any (fun h => h.kind = holdSpare 5 && h.ix = e.val))
    | _, _ => s)

/-- The ACTIVE role of a die, other than `r`, with the fewest sessions. -/
def State.leastRole (s : State) (d r : Nat) : Option Nat :=
  (((List.range 16).map (fun k => 16 * d + k)).filter (fun k => k ≠ r && s.roleTakes k)).foldl (fun (a : Option Nat) k =>
    match a with
    | none => some k
    | some b =>
      if s.rd (F.ATL_ENG_STATUS_SESSIONS (s.roleEngine k)) < s.rd (F.ATL_ENG_STATUS_SESSIONS (s.roleEngine b)) then some k
      else some b) none

/-- The sessions of role `r` move to role `t`, and all their open chunks restart (R300). DEDUCED: log entry 72. -/
def State.moveRole (s : State) (r t : Nat) : State :=
  s.atl.live.foldl (fun s n =>
    if (s.rolesOf n).contains r then
      let had := (s.rolesOf n).contains t
      let s := s.wr (F.ATL_SESS_ROLES_ROLES n) (setBit (setBit (s.rd (F.ATL_SESS_ROLES_ROLES n)) r false) t true)
      let s := if had then s else s.wrapAdd (F.ATL_ENG_STATUS_SESSIONS (s.roleEngine t)) 1
      s.restartChunks n (fun _ => true)
    else s) s

/-- ENGINE_FAULT (R300, R445): an uncorrectable fault in a chunk's state restarts the role's chunks; one in the engine itself also replaces
it, or with no reserve left on the die retires its role. DEDUCED: log entry 72. -/
def execEngineFault (e : Fin 36) (logic : Bool) (s : State) : Result :=
  .next (
    let st := s.rd (F.ATL_ENG_STATUS_STATE e)
    let r := s.rd (F.ATL_ENG_STATUS_ROLE e)
    if st ≠ 0 && st ≠ 2 then s
    else if !logic then s.restartRole r
    else
      match s.reserveEngine (engineDie e) with
      | some v => (((s.restartRole r).requestRemove 5 e).mapRecord 5 e (2 + v)).engineTake e v false
      | none =>
        let s := (s.requestRemove 5 e).mapRecord 5 e 1
        let s := ((s.wr (F.ATL_ENG_STATUS_STATE e) 3).wr (F.ATL_ENG_STATUS_ROLE e) 0x3F).wr (F.ATL_ENG_STATUS_SESSIONS e) 0
        let s := match s.leastRole (engineDie e) r with
          | some t => s.moveRole r t
          | none => s
        ((s.satAdd (F.RAS_SPARE_SUMMARY_HI_FAILED 5) 1).raise .atl 0 1).noSpare 5 e)

/-! ### Opening and closing a session -/

/-- Bytes of the stage that a session needs (R290, R299). -/
def stageNeed (kind fmt op elems window : Nat) (parent : Bool) : Nat :=
  let elems := if kind = 3 then 0 else elems
  2 * window * (elems * elemSize fmt) + if parent then window * payloadLen fmt elems (kind ≤ 1 && op = 0) else 0

/-- Bytes of the stage that an open session holds. -/
def State.stageHeld (s : State) (n : Nat) : Nat :=
  stageNeed (s.sessKind n) (s.sessFmt n) (s.sessOp n) (s.rd (F.ATL_SESS_CFG_CHUNK_ELEMS n)) (s.rd (F.ATL_SESS_CFG_WINDOW n))
    (s.parent n).isSome

/-- Bytes of ATL_STAGE on a die. -/
def State.stageRoom (s : State) (d : Nat) : Nat :=
  ((List.range 3).map (fun k => s.rd (F.BPM_REGION_SIZE (10 * (3 * d + k) + 8)) * 2 ^ 20)).sum

/-- The stage of the die of every role in `roles` holds `need` bytes more (R299). DEDUCED: log entry 71. DESIGN CHOICE: log entry 162. -/
def State.stageFits (s : State) (roles : List Nat) (need : Nat) : Bool :=
  roles.all (fun r =>
    let d := roleDie r
    let used := ((s.atl.live.filter (fun n => (s.rolesOf n).any (fun k => roleDie k = d))).map s.stageHeld).sum
    used + need ≤ s.stageRoom d)

/-- The first free run of `n` member entries. DEDUCED: log entry 71. -/
def State.memberBase (s : State) (n : Nat) : Option Nat :=
  let used := s.atl.live.map (fun k => (s.rd (F.ATL_SESS_MEMBERS_BASE k), s.rd (F.ATL_SESS_MEMBERS_COUNT k)))
  let free (b : Nat) : Bool := b + n ≤ 65536 && used.all (fun u => b + n ≤ u.1 || u.1 + u.2 ≤ b)
  (0 :: used.map (fun u => u.1 + u.2)).foldl (fun (a : Option Nat) b =>
    if free b then some (match a with
      | none => b
      | some c => min b c) else a) none

/-- The role that the XH9 chooses when SESSION_OPEN names none (R297). -/
def State.chooseRole (s : State) (ms : List AtlMember) : Option Nat :=
  let south := (ms.filter (fun m => m.port ≥ 256)).length
  s.leastRole (if south > ms.length - south then 1 else 0) 32

/-- P2 buffers that a session reserves (R299). A BARRIER's contributions carry no payload; the PARENT is the contributor of a BROADCAST whose ROOT
lies above (R273). -/
def spillNeed (o : AtlOpen) : Nat :=
  let sums : Bool := o.kind ≤ 1 && o.op = 0
  let contributes (k : Nat) (m : AtlMember) : Bool := if o.kind = 2 then (if o.root.isSome then some k = o.root else m.kind = 2) else m.kind ≤ 1
  let l := (List.zip (List.range o.members.length) o.members).filter (fun e => contributes e.1 e.2)
  let p := l.foldl (fun a e => max a (payloadLen o.format (if o.kind = 3 then 0 else o.chunkElems) (sums && e.2.kind = 1))) 0
  o.window * (1 + (l.length * p + 32767) / 32768)

/-- The arguments of SESSION_OPEN that are wrong in themselves (R271, R272, R274, R283). DEDUCED: log entry 69. -/
def atlOpenBad (o : AtlOpen) : Bool :=
  let tree := o.members.any (fun m => m.kind = 1 || m.kind = 2)
  !formatOk o.kind o.format o.op || o.kind > 3 || o.op > 5 ||
    o.chunkElems > chunkLimit o.kind o.format o.op tree || o.window = 0 || o.window > 15 ||
    o.members.isEmpty || o.members.length > 512 || o.members.any (fun m => m.kind > 2) ||
    (o.members.filter (fun m => m.kind = 2)).length ≥ 2 ||
    o.root.any (fun r => (o.members[r]?).all (fun m => m.kind ≠ 0))

/-- A member entry is written. -/
def State.writeMember (s : State) (k : Nat) (m : AtlMember) : State :=
  let s := ((s.wr (F.ATL_MEMBER_KIND k) m.kind).wrB (F.ATL_MEMBER_IPV6 k) m.v6).wr (F.ATL_MEMBER_PORT k) m.port
  let s := (s.wr (F.ATL_MEMBER_REMOTE_SESSION k) m.remoteSession).wr (F.ATL_MEMBER_W1_UDP_SRC k) m.udpSrc
  let s := s.wr (F.ATL_MEMBER_W1_REMOTE_MEMBER k) m.remoteMember
  (List.range 4).foldl (fun s w => s.wr (F.ATL_MEMBER_ADDR_WORD (4 * k + w)) (bits m.addr (32 * w) 32)) s

/-- The configuration of a session is written, and it enters OPEN (R272, R302). -/
def State.sessWrite (s : State) (n base roles spill : Nat) (o : AtlOpen) : State :=
  let s := ((s.wr (F.ATL_SESS_CFG_FORMAT n) o.format).wr (F.ATL_SESS_CFG_OP n) o.op).wr (F.ATL_SESS_CFG_KIND n) o.kind
  let s := (s.wrB (F.ATL_SESS_CFG_INT_SAT n) o.intSat).wrB (F.ATL_SESS_CFG_FP_SAT n) o.fpSat
  let s := (s.wr (F.ATL_SESS_CFG_WINDOW n) o.window).wr (F.ATL_SESS_CFG_CHUNK_ELEMS n) o.chunkElems
  let s := (s.wr (F.ATL_SESS_ROLES_ROLES n) roles).wr (F.ATL_SESS_TIMEOUT_TIMEOUT n) o.timeout
  let s := s.wrB (F.ATL_SESS_TIMEOUT_HOLDOFF_HOSTS n) o.holdOffHosts
  let s := (s.wr (F.ATL_SESS_MEMBERS_COUNT n) o.members.length).wr (F.ATL_SESS_MEMBERS_BASE n) base
  let parent := (o.members.findIdx? (fun m => m.kind = 2)).getD 0x3FF
  let root := if o.kind = 1 || o.kind = 2 then o.root.getD 0x3FF else 0x3FF
  let s := (s.wr (F.ATL_SESS_ROOT_ROOT n) root).wr (F.ATL_SESS_ROOT_PARENT n) parent
  let s := (s.wr (F.ATL_SESS_MCAST_GROUP n) o.group).wr (F.ATL_SESS_SPILL_RESERVED n) spill
  let s := (List.zip (List.range o.members.length) o.members).foldl (fun s e => s.writeMember (base + e.1) e.2) s
  let s := (s.wr (F.ATL_SESS_STATUS_STATE n) 1).wr (F.ATL_SESS_STATUS_CAUSE n) 0
  ((s.updAtl (fun a => { a with live := a.live ++ [n] })).roleSessions n true).sessCount

/-- SESSION_OPEN of session `n` (R272, R297, R299): its status, and the state after it. -/
def State.sessOpen (s : State) (n : Nat) (o : AtlOpen) : Nat × State :=
  if s.sessState n ≠ 0 then (stConflict, s)
  else if atlOpenBad o then (stBadArg, s)
  else
    let roles : Option Nat := match o.roles with
      | some r => if r % 2 ^ 32 = 0 then (s.chooseRole o.members).map (fun k => 2 ^ k) else some (r % 2 ^ 32)
      | none => (s.chooseRole o.members).map (fun k => 2 ^ k)
    match s.memberBase o.members.length, roles with
    | some base, some roles =>
      let need := stageNeed o.kind o.format o.op o.chunkElems o.window (o.members.any (fun m => m.kind = 2))
      if !s.stageFits ((List.range 32).filter (bit roles)) need then (stNoResource, s)
      else
        let spill := spillNeed o
        let held := (s.atl.live.map (fun k => s.rd (F.ATL_SESS_SPILL_RESERVED k))).sum
        if held + spill > s.rd (F.BPM_CLASS_RSV_RSV (4 * 2 + 2)) then (stNoBuffer, s)
        else (stOk, s.sessWrite n base roles spill o)
    | _, _ => (stNoResource, s)

end Sys2Proof.Machine
end

