-- ==== Sys2Proof/Machine/Flags.lean ====
section
/-! DEFINITION. The event flags of the blocks: INT_STATUS and INT_MASK as registers (R475, R476). -/

namespace Sys2Proof.Machine

/-- The event bits of a block (R475): the bits of its INT_STATUS and INT_MASK that are not reserved. -/
def intBits (b : Blk) : Nat :=
  match b with
  | .chip => 0x1 | .boot => 0x1F | .clk => 0x7 | .pwr => 0x7F | .keep => 0x7 | .light => 0xFF
  | .harb => 0xF | .dys => 0x3 | .lane => 0x1F | .mac => 0x1F | .prs => 0xF | .pipe => 0x1F
  | .cway => 0x7 | .lag => 0x3F003F | .tm => 0x1F | .mc => 0xFF | .bpm => 0x1F | .atl => 0x3F
  | .tel => 0x7 | .cnt => 0xF | .ras => 0x1F | .dbg => 0x3

/-- Every block with an INT_STATUS and an INT_MASK, and its instances. -/
def intBlks : List (Blk × Nat) :=
  [(.chip, 1), (.boot, 1), (.clk, 1), (.pwr, 1), (.keep, 1), (.light, 1), (.harb, 1), (.dys, 1), (.lane, 16), (.mac, 16), (.prs, 16),
   (.pipe, 16), (.cway, 1), (.lag, 1), (.tm, 1), (.mc, 6), (.bpm, 1), (.atl, 1), (.tel, 1), (.cnt, 1), (.ras, 1), (.dbg, 1)]

/-- The block whose INT_STATUS a register is. -/
def statusOf (r : RegName) : Option Blk := (intBlks.find? (fun e => (intStatus e.1 0).reg = r)).map (fun e => e.1)

/-- The block whose INT_MASK a register is. -/
def maskOf (r : RegName) : Option Blk := (intBlks.find? (fun e => (intMask e.1 0).reg = r)).map (fun e => e.1)

end Sys2Proof.Machine
end

