-- ==== Sys2Proof/Machine/Tm.lean ====
section
/-! DEFINITION. The commands of the traffic manager: dequeue decisions, shapers, gate lists and queue samples (R246 to R268). -/

namespace Sys2Proof.Machine

/-! ### Scheduling nodes (R249 to R252) -/

/-- A child of a scheduling node. -/
structure Child where
  /-- queue key, group number or port number -/
  ix : Nat
  /-- its key in the record of children that were not eligible -/
  key : Nat
  prio : Nat
  weight : Nat
  tag : Nat
  /-- below its minimum: it competes in pass 1 -/
  below : Bool
  elig : Bool
  /-- it holds a packet -/
  busy : Bool
deriving DecidableEq, Repr

/-- The tag with which an eligible child competes: one that was not eligible before takes T = max(T, V) (R252). -/
def State.liveTag (s : State) (v : Nat) (c : Child) : Nat := if mget s.tm.out c.key false then tagMax c.tag v else c.tag

/-- The better of two children of one pass: the lower PRIO, then the smaller tag, then the earlier index (R250, R251). -/
def betterChild (a b : Child) : Child :=
  if b.prio < a.prio then b else if b.prio = a.prio && !tagLe a.tag b.tag then b else a

/-- The child that a node with virtual times `v` serves (R250, R251). -/
def State.choose (s : State) (v : Nat → Nat) (l : List Child) : Option Child :=
  let l := (l.filter (fun c => c.elig)).map (fun c => { c with tag := s.liveTag (v c.prio) c })
  let one := l.filter (fun c => c.below)
  match if one.isEmpty then l else one with
  | [] => none
  | c :: t => some (t.foldl betterChild c)

/-- The tags of a node's children after it has served `w` with charged length `n` (R251, R252). -/
def State.servedTags (s : State) (v : Nat → Nat) (tags : PMap Nat) (l : List Child) (w : Child) (n : Nat) : PMap Nat :=
  let tags := l.foldl (fun t c => if c.elig then mset t c.ix (s.liveTag (v c.prio) c) 0 else t) tags
  mset tags w.ix ((w.tag + n * 65536 / w.weight) % tagMod) 0

/-- The record of children that hold packets and are not eligible, after a decision of their node. -/
def servedOut (out : PMap Bool) (l : List Child) : PMap Bool := l.foldl (fun o c => mset o c.key (c.busy && !c.elig) false) out

/-! ### Packets at the head of a queue -/

/-- The head of a queue with its packet. -/
def State.headPkt (s : State) (k : Nat) : Option (QEnt × Pkt) :=
  match s.queue k with
  | [] => none
  | e :: _ => (mfind s.path.pkts e.pkt).map (fun x => (e, x))

/-- The frame that queue `k` sends of a packet (R43). -/
def Pkt.frame (x : Pkt) (k : Nat) : Bytes := ((x.own.find? (fun o => o.1 = k)).map (fun o => o.2)).getD x.data

/-- Every cell of a packet is in the Lagoon (R205, R249). -/
def Pkt.ready (x : Pkt) (k : Nat) : Bool := !(x.deep && k < 8192) || (x.moving = 0 && x.back.length ≥ cellsOf x.data.length)

/-- Cells that a packet counts for in OCC of queue `k`. -/
def Pkt.occ (x : Pkt) (k : Nat) : Nat := if k < 8192 && x.deep then x.back.length else cellsOf x.data.length

/-- Traffic class of a queue for the gates. -/
def State.tcOf (s : State) (k : Nat) : Nat := s.rd (byKey F.TM_Q_CFG_TC F.TM_MQ_CFG_TC k)

/-- Frames at the head of queue `k` that no open period of their gate can hold are dropped with GATE_TOO_LONG (R263). -/
def State.dropTooLong (s : State) (p k : Nat) : Nat → State
  | 0 => s
  | n + 1 =>
    match s.headPkt k with
    | none => s
    | some (e, x) =>
      if s.gateTooLong p (s.tcOf k) (x.frame k).length then
        let s := (s.popQueue k).queueDrop k 0x62 e
        (if s.intBit .tm 0 3 then s else s.raise .tm 0 3).dropTooLong p k n
      else s

/-- A queue is paused on its port (R258). -/
def State.queuePaused (s : State) (p k : Nat) : Bool :=
  s.on (byKey F.TM_Q_CFG_PAUSE_EN F.TM_MQ_CFG_PAUSE_EN k) &&
    bit (s.rd (F.TM_PORT_STATUS_PAUSED p)) (s.rd (byKey F.TM_Q_CFG_PFC_PRIO F.TM_MQ_CFG_PFC_PRIO k))

/-- A queue is eligible at a decision, its port apart (R249). -/
def State.queueEligible (s : State) (p k : Nat) : Bool :=
  match s.headPkt k with
  | none => false
  | some (_, x) =>
    x.ready k && !s.queuePaused p k && s.gateAllows p (s.tcOf k) (x.frame k).length && s.maxOk (shaperQ k false)

/-- Bytes dequeued for port `p` and not yet sent. -/
def State.inFlight (s : State) (p : Nat) : Nat :=
  let pre := (List.range 5).flatMap (fun x => (mget s.path.eg (10 * (p / 32) + 5 + x) []).filter (fun t => t.port = p))
  (pre ++ mget s.path.tx p []).foldl (fun a t => a + t.data.length) 0

/-- DBG_PERTURB_TM stops dequeue for port `p` now (R458). DESIGN CHOICE: log entry 57. -/
def State.perturbStall (s : State) (p : Nat) : Bool :=
  s.on F.DBG_CTL_ARM && s.rd F.DBG_PERTURB_TM_PORT = p && s.rd F.DBG_PERTURB_TM_W1_PERIOD ≠ 0 &&
    s.now % (s.rd F.DBG_PERTURB_TM_W1_PERIOD * 128) < s.rd F.DBG_PERTURB_TM_STALL

/-- A port may be served, its groups apart (R249). DESIGN CHOICE: log entry 53. -/
def State.portEligible (s : State) (p : Nat) : Bool :=
  s.portLive p && s.maxOk (shaperP p false) && (s.inFlight p = 0 || s.inFlight p < Config.txWindow (s.portSpeed p)) && !s.perturbStall p

/-- Virtual times of a group, of a port and of an arbiter, by PRIO. -/
def State.vGroup (s : State) (g pr : Nat) : Nat := mget s.tm.vG (8 * g + pr) 0
/-- Virtual times of a port. -/
def State.vPort (s : State) (p pr : Nat) : Nat := mget s.tm.vP (8 * p + pr) 0
/-- Virtual times of an arbiter. -/
def State.vArb (s : State) (a pr : Nat) : Nat := mget s.tm.vA (8 * a + pr) 0

/-- The queues of group `g` of port `p` as children. -/
def State.queueChildren (s : State) (p g : Nat) : List Child :=
  ((portQueues p).filter (fun k => s.queueGroup k = g)).map (fun k =>
    { ix := k, key := k, prio := s.prioQ k, weight := s.weightQ k, tag := mget s.tm.tagQ k 0, below := s.belowMin (shaperQ k true),
      elig := s.queueEligible p k, busy := !(s.queue k).isEmpty })

/-- The groups of port `p` as children. -/
def State.groupChildren (s : State) (p : Nat) : List Child :=
  (List.range 4).map (fun j =>
    let g := 4 * p + j
    { ix := g, key := 10000 + g, prio := s.rd (F.TM_G_CFG_PRIO g), weight := max 1 (s.rd (F.TM_G_CFG_WEIGHT g)),
      tag := mget s.tm.tagG g 0, below := s.belowMin (shaperG g true),
      elig := s.maxOk (shaperG g false) && (s.queueChildren p g).any (fun c => c.elig), busy := s.groupBusy g })

/-- The ports of arbiter `a` as children. -/
def State.portChildren (s : State) (a : Nat) : List Child :=
  (List.range 8).map (fun j =>
    let p := 32 * (a / 4) + 8 * (a % 4) + j
    { ix := p, key := 20000 + p, prio := s.rd (F.TM_PORT_CFG_PRIO p), weight := max 1 (s.rd (F.TM_PORT_CFG_WEIGHT p)),
      tag := mget s.tm.tagP p 0, below := s.belowMin (shaperP p true),
      elig := s.portBusy p && s.portEligible p && (s.groupChildren p).any (fun c => c.elig), busy := s.portBusy p })

/-- Charged length of a frame of `len` octets on port `p` (R253). -/
def State.chargedLen (s : State) (p len : Nat) : Nat := (max 1 ((len : Int) + sext 8 (s.rd (F.TM_PORT_CFG_OVERHEAD p)))).toNat

/-- A decision of an arbiter: the port, group and queue that it serves (R247). -/
structure Choice where
  port : Child
  group : Child
  queue : Child
deriving DecidableEq, Repr

/-- What arbiter `a` serves now. -/
def State.decide (s : State) (a : Nat) : Option Choice :=
  match s.choose (s.vArb a) (s.portChildren a) with
  | none => none
  | some p =>
    match s.choose (s.vPort p.ix) (s.groupChildren p.ix) with
    | none => none
    | some g =>
      match s.choose (s.vGroup g.ix) (s.queueChildren p.ix g.ix) with
      | none => none
      | some q => some { port := p, group := g, queue := q }

/-- Shapers, tags and virtual times after a decision with charged length `n` (R251, R253). -/
def State.account3 (s : State) (a : Nat) (c : Choice) (n : Nat) : State :=
  let ps := s.portChildren a
  let gs := s.groupChildren c.port.ix
  let qs := s.queueChildren c.port.ix c.group.ix
  let s' := s.updTm (fun t =>
    { t with tagP := s.servedTags (s.vArb a) t.tagP ps c.port n, tagG := s.servedTags (s.vPort c.port.ix) t.tagG gs c.group n,
             tagQ := s.servedTags (s.vGroup c.group.ix) t.tagQ qs c.queue n,
             vA := mset t.vA (8 * a + c.port.prio) c.port.tag 0, vP := mset t.vP (8 * c.port.ix + c.group.prio) c.group.tag 0,
             vG := mset t.vG (8 * c.group.ix + c.queue.prio) c.queue.tag 0, out := servedOut t.out (ps ++ gs ++ qs) })
  [shaperQ c.queue.ix false, shaperQ c.queue.ix true, shaperG c.group.ix false, shaperG c.group.ix true, shaperP c.port.ix false,
   shaperP c.port.ix true].foldl (fun s k => s.chargeShaper k n) s'

/-! ### Reading a packet's cells -/

/-- The cells from which queue `k` reads a packet: those that a deep page brought back, or those of its admission. -/
def Pkt.held (x : Pkt) (k : Nat) : List Nat := if x.deep && k < 8192 then x.back else x.cells
/-- The half of those cells. -/
def Pkt.halfOf (x : Pkt) (k : Nat) : Nat := if x.deep && k < 8192 then x.backHalf else x.half

/-- The bank of cell `j` of a packet, as 34 × half + bank. -/
def Pkt.bankOfCell (x : Pkt) (k j : Nat) : Option Nat := ((x.held k)[j]?).map cellBank

/-- A word of a cell in bank `o` is corrected, or found uncorrectable (R174, R444, R446). DESIGN CHOICE: log entry 31. DEDUCED: log entry
147. -/
def State.cellError (s : State) (o : Nat) (uncorr inj : Bool) : State :=
  if uncorr then ((s.event contained (codeOf .lag 0 0x81) o 0 inj).lagEvent (o / 34) 5).bankUncorrectable o inj
  else (s.event corrected (codeOf .lag 0 0x80) o 0 inj).rateAdd 2 o 1 inj

/-- The errors that reading the cells of a packet shows: those of `errs` (cell, uncorrectable) and perturbed ones. The answer tells
whether a word is uncorrectable. -/
def State.readCells (s : State) (k : Nat) (x : Pkt) (errs : List (Nat × Bool)) : Bool × State :=
  (List.range (cellsOf x.data.length)).foldl (fun r j =>
    match x.bankOfCell k j with
    | none => r
    | some o =>
      let (inj, s) := r.2.injectEcc 0 o
      match inj with
      | some d => (r.1 || d, s.cellError o d true)
      | none =>
        match errs.find? (fun e => e.1 = j) with
        | some e => (r.1 || e.2, s.cellError o e.2 false)
        | none => (r.1, s)) (x.bad, s)

/-! ### A dequeue decision -/

/-- RES_TIME of a packet, whole ticks after the deep buffer (R305, R306). -/
def State.resTime (s : State) (x : Pkt) (sub : Nat) : Nat :=
  min (2 ^ 32 - 1) (if x.deep then (s.now - x.admitted / 16) * 16 else s.now * 16 + sub - x.admitted)

/-- Cells of a packet in the half of the other die. -/
def Pkt.remote (x : Pkt) (k die : Nat) : Nat :=
  if x.halfOf k ≠ die then (x.held k).length else 0

/-- The descriptor of packet `id` leaves queue `k`: OCC falls, and the queue remembers its admission (R182, R267). -/
def State.leaveQueue (s : State) (k id : Nat) (x : Pkt) : State :=
  let s := (s.popQueue k).subFrom (occF k) (x.occ k)
  let s := s.updPath (fun y => { y with lastOut := mset y.lastOut k x.admitted 0 })
  s.setPkt id (some { x with own := x.own.eraseP (fun o => o.1 = k) })

/-- The egress pipeline of port `p` stops taking frames: a FENCED reserve under QUIESCE, or with a full fence buffer (R167, R168). -/
def State.egressStall (s : State) (i x : Nat) : Bool :=
  let y := 10 * i + x
  s.pipeState y = 3 &&
    ((mget s.path.eg y []).foldl (fun a t => a + if t.heldAt.isSome then t.data.length else 0) 0 ≥ 65536 ||
      (s.on (F.PIPE_SWAP_CFG_QUIESCE (2 * i + 1)) &&
        (s.pipeSwap i 1).any (fun w => !(mget s.path.eg (10 * i + w.target) []).isEmpty)))

/-- A dequeued packet as it stands before egress pipeline `y`, parsed by the pipeline's own graph (R116). The parse of its ingress is not carried
over; a packet that an ingress parser or its program has trapped keeps its reason (R134). -/
def State.egressFlight (s : State) (k depth : Nat) (pk : Pkt) (sub : Nat) (w : Walk) : Flight :=
  let c := match w.fail with
    | some f => f.1
    | none => 0xF
  { rx := { port := pk.inPort, host := pk.host, data := pk.frame k, bad := false, ts := pk.ts, tsB := pk.tsB, t16 := pk.t16, begun := s.now,
            hdrs := w.hdrs, payOff := w.off, pfail := c },
    md := { pk.md with drop := false, dropReason := 0, parseFail := c }, passes := 0, marked := false, dead := false, hv := w.hdrs,
    outPort := queuePort k, depth := depth, resTime := s.resTime pk sub }

/-- What the egress program has asked for (R140, R316, R351), its offsets worked out on the packet as the program leaves it. -/
def Flight.work (f : Flight) : EgressWork :=
  { rewrite := some (deparse f.hv f.rx.data f.rx.payOff),
    ioam := f.trace.map (fun t =>
      { off := f.src t.off, incremental := t.incremental, lens := t.lens.map f.src,
        sums := t.sums.map (fun c => { off := f.src c.off, start := f.src c.start, len := f.src c.len, pseudo := c.pseudo }) }),
    ptp := f.stamp.map (fun a => (a.1, f.src a.2)) }

/-- The dequeued packet makes its pass through egress pipeline `x`, in the next slot of the clock (R138, R150); cells of the other half are
requested (R27, R43). -/
def State.egressPass (s : State) (i x k id : Nat) (pk : Pkt) (f : Flight) (faults : List MemFault) : State :=
  let y := 10 * i + x
  let p := queuePort k
  let (s, r) := s.runProgram i x f faults
  let s := s.takeIssue r
  let fl := r.fl
  let n := pk.remote k (p / 256)
  let t : TxFrame :=
    { port := p, queue := k, pkt := id, data := f.rx.data, md := fl.md, inPort := pk.inPort, ts := pk.ts, t16 := pk.t16, depth := f.depth,
      resTime := f.resTime, deep := pk.deep && k < 8192, ce := pk.ce, ioam := bit fl.md.telFlags 2, owed := n, cells := pk.held k, work := fl.work,
      trap := if f.md.trapMode = 0 && fl.md.trapMode ≠ 0 then some (fl.md.trapReason, fl.md.trapMode = 2) else none, delayAt := none,
      ptp := pk.md.hostPtp,
      dropCode := if fl.hw ≠ 0 then some fl.hw else if fl.md.drop then some (programDrop fl.md.dropReason) else none }
  let s := s.updPath (fun z => { z with eg := mset z.eg y (mget z.eg y [] ++ [t]) [] })
  if n = 0 then s else s.cross (p / 256) (readFlits y id n)

/-- The dequeued packet is parsed and enters egress pipeline `x`, or goes as the failure action of its parse says (R116, R123). DESIGN
CHOICE: log entry 54. -/
def State.enterEgress (s : State) (i x k id depth : Nat) (pk : Pkt) (sub : Nat) (faults : List MemFault) : State :=
  let y := 10 * i + x
  let (w, s) := s.parse y (pk.frame k)
  let f := s.egressFlight k depth pk sub w
  let info := { pk.info k depth f.resTime with md := f.md }
  match w.fail.map (fun e => (e.1, s.failAction y e.1)) with
  | some (_, .drop) => ((s.raise .prs i 0).pipeDrop i x 0x02 info).release id
  | some (c, .trap) =>
    if f.md.trapMode ≠ 0 then s.egressPass i x k id pk f faults
    else
      ((s.raise .prs i 0).trapPass i x c none
        (s.arrival y f.rx { f.md with trapReason := c, trapMode := 1 } sub)).release id
  | _ => s.egressPass i x k id pk f faults

/-- What arbiter `a` has chosen leaves its queue. -/
def State.takeChoice (s : State) (a : Nat) (c : Choice) (sub : Nat) (errs : List (Nat × Bool)) (faults : List MemFault) : State :=
  let i := a / 4
  let k := c.queue.ix
  match s.headPkt k with
  | none => s
  | some (e, x) =>
    let s := (s.account3 a c (s.chargedLen c.port.ix (x.frame k).length)).cntGlobal 0x58 (i / 8) 1
    let pipe := s.servePipe i 1 (a % 4) s.now
    let s := s.leaveQueue k e.pkt x
    let (bad, s) := s.readCells k x errs
    let s := s.queueStatus k
    let info := x.info k e.depth (s.resTime x sub)
    if bad then ((s.setPkt e.pkt (some { x with bad := true })).admitDrop (x.halfOf k) 0x45 info).release e.pkt
    else
      match pipe with
      | none => (s.pipeDrop i (5 + a % 4) 0x05 info).release e.pkt
      | some y => s.enterEgress i y k e.pkt e.depth x sub faults

/-- The slot that a decision for egress pipeline `x` may fill in the present core clock: none when both are taken, or lost to the duty throttle
(R368), to a shared-table stall (R146) or to the fence (R167), whose slots count as BACK_STALLED. -/
def State.egressSlot (s : State) (i x : Nat) : Bool × State :=
  let y := 10 * i + x
  let s := s.egressClock i x
  let c := s.issueClk y
  let lose (s : State) (k : Nat) (c : IssueClk) : State := (s.setIssueClk y { c with used := 2 }).slots i x k (2 - c.used)
  if c.used ≥ 2 then (false, s)
  else if c.phase ≥ s.rd F.PWR_STATUS_DUTY then (false, (lose s 3 c).cntGlobal 0x69 0 (2 - c.used))
  else if c.stall > 0 then (false, lose s 5 { c with stall := c.stall - 1 })
  else if s.egressStall i x then (false, lose s 5 c)
  else (true, s)

/-- Heads that are too long for their port's MAC leave the queues of arbiter `a` before it decides. -/
def State.dropOverlong (s : State) (a : Nat) : State :=
  (s.portChildren a).foldl (fun s c => (portQueues c.ix).foldl (fun s k => s.dropTooLong c.ix k (s.queue k).length) s) s

/-- The slot that arbiter `a` may fill: in the egress pipeline that serves its group. -/
def State.arbiterSlot (s : State) (a : Nat) : Bool × State :=
  match s.servePipe (a / 4) 1 (a % 4) s.now with
  | some x => s.egressSlot (a / 4) x
  | none => (true, s)

/-- DEQUEUE_DECISION (R247 to R253, R438): one decision of arbiter `a`, in the next slot of its egress pipeline. `errs` are the cells that
read with an error, `faults` the uncorrectable words that the decision and the packet's pass find, and `sub` the phase of the decision in
sixteenths of a tick. DESIGN CHOICE: log entry 165. -/
def execDequeueDecision (a : Fin 64) (sub : Fin 16) (errs : List (Nat × Bool)) (faults : List MemFault) (s : State) : Result :=
  .next (
    let s := s.memoryFatal (a / 32) a faults
    if s.stopped then s
    else
      let r := (s.dropOverlong a).arbiterSlot a
      match if r.1 then r.2.decide a else none with
      | none => r.2
      | some c => (r.2.takeChoice a c sub errs faults).flushSamples sub)

/-! ### Shapers -/

/-- SHAPER_REFILL (R254 to R256): the refill of shaper `n`, every 128 time ticks. The shapers of queue k are 2 k (max) and 2 k + 1 (min),
those of group g and port p follow the 9,216 queues, and the last is the CPU shaper. DESIGN CHOICE: log entry 133. -/
def execShaperRefill (n : Fin 23553) (s : State) : Result :=
  .next (
    if s.due .shaper n 128 then
      let s := (s.ran .shaper n s.now).refill n
      if n.val / 2 < 9216 then s.queueStatus (n / 2) else s
    else s)

/-! ### Gate lists -/

/-- GATES of port `p` and GATE_CLOSED of its queues brought up to date (R261). -/
def State.gatesUpdate (s : State) (p : Nat) : State :=
  let s := s.wr (F.TM_PORT_STATUS_GATES p) (s.gatesNow p s.nowNs)
  (portQueues p).foldl (fun s k => s.queueStatus k) s

/-- GATE_EDGE (R261): an entry's interval ends on port `p`, and the gates take the states of the next one. -/
def execGateEdge (p : Fin 512) (s : State) : Result := .next (s.gatesUpdate p)

/-- The check of an admin list (R260): 0 passes, 1 length, 2 cycle, 3 interval. -/
def State.gateCheck (s : State) (p : Nat) : Nat :=
  let len := s.rd (F.TM_GATE_ADMIN_LEN_LEN p)
  let cyc := s.rd (F.TM_GATE_ADMIN_CYCLE_CYCLE p)
  if len = 0 || len > 256 then 1
  else if cyc < 1000 || cyc > 1000000000 then 2
  else if (s.gateList p (1 - s.rd (F.TM_GATE_STATUS_OPER_BANK p)) len).any (fun e => e.2 < 10) then 3
  else 0

/-- The start instant of an admin list, and whether its base lies in the past (R264). -/
def State.gateStartAt (s : State) (p : Nat) : Nat × Bool :=
  let target := s.nowNs + (if s.domA.frac = 0 then 0 else 1) + max 100 (s.rd F.LIGHT_LEAD_LEAD)
  let base := s.rd (F.TM_GATE_ADMIN_BASE_S_S p) * 1000000000 + s.rd (F.TM_GATE_ADMIN_BASE_NS_NS p)
  let cyc := max 1 (s.rd (F.TM_GATE_ADMIN_CYCLE_CYCLE p))
  if base ≥ target then (base, false) else (base + (target - base + cyc - 1) / cyc * cyc, true)

/-- GATE_CONFIG_CHANGE (R264, R265): requester `q` writes 1 to CONFIG_CHANGE of port `p`. -/
def execGateConfigChange (q : Requester) (p : Fin 512) (s : State) : Result := if !s.grants q false then .next s else
  .next (
    if s.on (F.TM_GATE_STATUS_PENDING p) then s.locked q .TM_GATE_CTL p 1
    else
      match s.gateCheck p with
      | 0 =>
        let (start, past) := s.gateStartAt p
        let s := (s.wr (F.TM_GATE_STATUS_CONFIG_ERR p) 0).wrB (F.TM_GATE_STATUS_BASE_IN_PAST p) past
        let s := (s.wr (F.TM_GATE_START_S_S p) (start / 1000000000)).wr (F.TM_GATE_START_NS_NS p) (start % 1000000000)
        let s := (s.wrB (F.TM_GATE_STATUS_PENDING p) true).wrB (F.TM_GATE_CTL_CONFIG_CHANGE p) true
        let s := s.updTm (fun t => { t with gateNext := mset t.gateNext p (some start) none })
        if past then s.raise .tm 0 1 else s
      | e => (s.wr (F.TM_GATE_STATUS_CONFIG_ERR p) e).raise .tm 0 2)

/-- START of a port shows the operational list again: the pending one is gone. -/
def State.gateDrop (s : State) (p : Nat) : State :=
  let g := mget s.tm.gateStart p 0
  let s := (s.wrB (F.TM_GATE_STATUS_PENDING p) false).wrB (F.TM_GATE_CTL_CONFIG_CHANGE p) false
  let s := (s.wr (F.TM_GATE_START_S_S p) (g / 1000000000)).wr (F.TM_GATE_START_NS_NS p) (g % 1000000000)
  s.updTm (fun t => { t with gateNext := mset t.gateNext p none none })

/-- GATE_CANCEL (R265): a pending list is dropped, and the old list runs on. -/
def execGateCancel (q : Requester) (p : Fin 512) (s : State) : Result := if !s.grants q false then .next s else
  .next (if s.on (F.TM_GATE_STATUS_PENDING p) then s.gateDrop p else s)

/-- GATE_LIST_START (R264, R266): domain A has reached the start instant of the pending list of port `p`; the banks exchange roles. -/
def execGateListStart (p : Fin 512) (s : State) : Result :=
  .next (
    match mget s.tm.gateNext p none with
    | none => s
    | some start =>
      if s.nowNs < start then s
      else
        let s := s.wr (F.TM_GATE_STATUS_OPER_BANK p) (1 - s.rd (F.TM_GATE_STATUS_OPER_BANK p))
        let s := (s.wr (F.TM_GATE_OPER_CYCLE_CYCLE p) (s.rd (F.TM_GATE_ADMIN_CYCLE_CYCLE p))).wr (F.TM_GATE_OPER_LEN_LEN p)
          (s.rd (F.TM_GATE_ADMIN_LEN_LEN p))
        let s := s.updTm (fun t => { t with gateStart := mset t.gateStart p start 0 })
        ((s.gateDrop p).raise .tm 0 0).gatesUpdate p)

/-! ### Queue samples -/

/-- The bin of a sampled value (R267). -/
def sampleBin (v : Nat) : Nat := if v = 0 then 0 else min 31 (Nat.log2 v + 1)

/-- The head of a queue waits for a page: WAIT_PAGE of TM_Q_STATUS (R205). -/
def State.headWaits (s : State) (k : Nat) : Bool :=
  match s.headPkt k with
  | some (_, x) => !x.ready k
  | none => (mget s.bpm.deep k {}).cells ≠ 0

/-- Delay of a queue in ticks (R267). -/
def State.queueDelay (s : State) (k : Nat) : Nat :=
  if s.headWaits k then s.now - mget s.path.lastOut k 0 / 16
  else
    match s.headPkt k with
    | some (_, x) => s.now - x.admitted / 16
    | none => 0

/-- QUEUE_SAMPLE (R267, R315): the sample of queue `k`, every 1 µs, in its histograms and for the collector of queue samples. -/
def execQueueSample (k : Fin 9216) (s : State) : Result :=
  .next (
    if !s.due .sample k 1600 then s
    else
      let s := s.ran .sample k s.now
      let d := s.depth k
      let l := s.queueDelay k
      let hist (s : State) (h v : Nat) : State :=
        let ix := 64 * k.val + 32 * h + sampleBin v
        { s.satAdd (F.TM_HIST_COUNT ix) 1 with histDump := mset s.histDump ix (mget s.histDump ix 0 + 1) 0 }
      let s := if s.on F.TM_HIST_CFG_EN then hist (hist s 0 d) 1 l else s
      if s.on F.TM_HIST_CFG_EN && (List.range 64).any (fun e =>
          s.on (F.TEL_QS_SEL_VALID e) && s.rd (F.TEL_QS_SEL_QUEUE e) = queueField k) then
        s.telRecord 4 (s.rd F.TEL_CFG_QS_COL)
          (beBytes 2 (queueField k) ++ beBytes 2 0 ++ beBytes 4 (min d (2 ^ 32 - 1)) ++ beBytes 4 (min l (2 ^ 32 - 1)) ++
            beBytes 4 (s.nowNs / 1000))
      else s)

end Sys2Proof.Machine
end

