-- ==== Sys2Proof/Machine/HarbOps.lean ====
section
/-! DEFINITION. Harbour's rings and windows: which function owns what, receive and transmit rings, function level resets
(R411 to R419, R470). -/

namespace Sys2Proof.Machine

/-! ### Ring registers -/

/-- EN of RX ring `r`, or of TX ring `r` where `tx` holds. -/
def ringEnF (tx : Bool) (r : Nat) : Fld := if tx then F.HARB_TX_CFG_EN r else F.HARB_RX_CFG_EN r
/-- SIZE. -/
def ringSizeF (tx : Bool) (r : Nat) : Fld := if tx then F.HARB_TX_CFG_SIZE r else F.HARB_RX_CFG_SIZE r
/-- OWNER. -/
def ringOwnerF (tx : Bool) (r : Nat) : Fld := if tx then F.HARB_TX_CFG_OWNER r else F.HARB_RX_CFG_OWNER r
/-- VECTOR. -/
def ringVectorF (tx : Bool) (r : Nat) : Fld := if tx then F.HARB_TX_CFG_VECTOR r else F.HARB_RX_CFG_VECTOR r
/-- BASE. -/
def ringBaseF (tx : Bool) (r : Nat) : Fld := if tx then F.HARB_TX_BASE_BASE r else F.HARB_RX_BASE_BASE r
/-- TAIL. -/
def ringTailF (tx : Bool) (r : Nat) : Fld := if tx then F.HARB_TX_TAIL_TAIL r else F.HARB_RX_TAIL_TAIL r
/-- HEAD. -/
def ringHeadF (tx : Bool) (r : Nat) : Fld := if tx then F.HARB_TX_HEAD_HEAD r else F.HARB_RX_HEAD_HEAD r

/-- Owner of a ring: 0 PF0. -/
def State.ringOwner (s : State) (tx : Bool) (r : Nat) : Nat := s.rd (ringOwnerF tx r)

/-- Entries of a ring, SIZE above 10 acting as 10. -/
def State.ringEntries (s : State) (tx : Bool) (r : Nat) : Nat := 2 ^ (min 10 (s.rd (ringSizeF tx r)) + 6)

/-- Descriptors of a ring that Harbour may use: those from HEAD up to TAIL. -/
def State.posted (s : State) (tx : Bool) (r : Nat) : Nat :=
  let n := s.ringEntries tx r
  (s.rd (ringTailF tx r) % n + n - s.rd (ringHeadF tx r) % n) % n

/-- The ring is enabled and the PCIe link is up (R419). -/
def State.ringRuns (s : State) (tx : Bool) (r : Nat) : Bool := s.on (ringEnF tx r) && s.on F.HARB_STATUS_LINK_UP

/-- HEAD moves past `k` descriptors. -/
def State.headMove (s : State) (tx : Bool) (r k : Nat) : State :=
  s.wr (ringHeadF tx r) ((s.rd (ringHeadF tx r) + k) % s.ringEntries tx r)

/-- Host address of the `k`-th descriptor from HEAD. -/
def State.descAddr (s : State) (tx : Bool) (r k : Nat) : Nat :=
  s.rd (ringBaseF tx r) + 32 * ((s.rd (ringHeadF tx r) + k) % s.ringEntries tx r)

/-- The ring raises its vector (R414, R417). -/
def State.ringRaise (s : State) (tx : Bool) (r : Nat) : State :=
  let o := s.ringOwner tx r
  s.sendVector o (ringVector o (s.rd (ringVectorF tx r)))

/-- Update Harbour's own state. -/
def State.updHarb (s : State) (f : HarbSt → HarbSt) : State := { s with harb := f s.harb }

/-- A window access that the VF does not own is counted (R413). -/
def State.vfDenied (s : State) (f : Nat) : State := (s.satAdd (F.HARB_VF_DENIED_COUNT f) 1).raise .harb 0 2

/-- A requester other than a VF reaches every ring, a VF its own (R413). -/
def State.ringGranted (s : State) (q : Requester) (tx : Bool) (r : Nat) : Bool :=
  match q with
  | .vf f => s.ringOwner tx r = f
  | _ => true

/-! ### Enabling and disabling (R416, R419) -/

/-- The frames in the CPU queue of RX ring `r` are dropped with CPU_FULL, `n` of them at most. DEDUCED: log entry 83. -/
def State.cpuFlush (s : State) (r : Nat) : Nat → State
  | 0 => s
  | n + 1 =>
    match s.headPkt (9216 + r) with
    | none => s
    | some (e, x) =>
      let s := (s.popQueue (9216 + r)).cpuFull r
        { inPort := x.inPort, host := x.host, data := x.data, md := x.md, ts := x.ts, depth := e.depth }
      (s.release e.pkt).cpuFlush r n

/-- EN of a ring takes a value: an RX ring that is enabled counts its frames from 0, one that is disabled drops what waits for it. DEDUCED:
log entry 83. -/
def State.ringEnable (s : State) (tx : Bool) (r : Nat) (on : Bool) : State :=
  if s.on (ringEnF tx r) = on then s
  else
    let s := s.wrB (ringEnF tx r) on
    if tx then s
    else
      let s := s.updHarb (fun h => { h with seq := mset h.seq r 0 0, waiting := mset h.waiting r 0 0, since := merase h.since r })
      if on then s else s.cpuFlush r (s.queue (9216 + r)).length

/-- The OWNER of RX ring `r` is now `o`: SAMPLE of every counter whose RING names the ring and whose page another VF holds is cleared
(R332). -/
def State.sampleClear (s : State) (r o : Nat) : State :=
  (List.range 1088).foldl (fun s n =>
    if s.on (F.CNT_CTL_SAMPLE n) && s.rd (F.CNT_CTL_RING n) = r &&
        (List.range 32).any (fun f => f ≠ 0 && f ≠ o && bit (s.rd (F.CNT_USER_PAGES_MASK (3 * f + n / 16 / 32))) (n / 16 % 32))
    then s.wrB (F.CNT_CTL_SAMPLE n) false else s) s

/-- A write of a ring configuration (R332, R435): SIZE, OWNER and BUF are locked while EN is 1. A VF does not change OWNER (R431). -/
def State.ringCfg (s : State) (q : Requester) (tx : Bool) (r v : Nat) : State :=
  let owner := match q with
    | .vf _ => s.ringOwner tx r
    | _ => bits v 5 5
  let was := s.ringOwner tx r
  let changes : Bool := s.rd (ringSizeF tx r) ≠ bits v 1 4 || was ≠ owner || (!tx && s.rd (F.HARB_RX_CFG_BUF r) ≠ bits v 10 6)
  let s :=
    if s.on (ringEnF tx r) then
      if changes then s.locked q (if tx then .HARB_TX_CFG else .HARB_RX_CFG) r 1 else s
    else
      let s := (s.wr (ringSizeF tx r) (bits v 1 4)).wr (ringOwnerF tx r) owner
      let s := if tx then s else s.wr (F.HARB_RX_CFG_BUF r) (bits v 10 6)
      if tx || was = owner then s else s.sampleClear r owner
  let s := s.wr (ringVectorF tx r) (bits v 16 5)
  let s := if tx then s else (s.wr (F.HARB_RX_CFG_COUNT r) (bits v 21 5)).wr (F.HARB_RX_CFG_ITR r) (bits v 26 6)
  s.ringEnable tx r (bit v 0)

/-! ### Receive (R248, R416, R417) -/

/-- Buffer size of RX ring `r` in bytes. -/
def State.rxBuf (s : State) (r : Nat) : Nat :=
  (if s.rd (F.HARB_RX_CFG_BUF r) = 0 then 64 else s.rd (F.HARB_RX_CFG_BUF r)) * 256

/-- Buffers that a frame of `len` octets takes on ring `r`. -/
def State.rxNeed (s : State) (r len : Nat) : Nat := (len + s.rxBuf r - 1) / s.rxBuf r

/-- The CPU queues as children of their node: a queue is eligible while its ring runs and has the buffers for its head (R248). -/
def State.cpuChildren (s : State) : List Child :=
  (List.range 64).map (fun r =>
    { ix := 9216 + r, key := 9216 + r, prio := s.rd (F.TM_CPU_Q_CFG_PRIO r), weight := max 1 (s.rd (F.TM_CPU_Q_CFG_WEIGHT r)),
      tag := mget s.tm.tagQ (9216 + r) 0, below := false, busy := !(s.queue (9216 + r)).isEmpty,
      elig := match s.headPkt (9216 + r) with
        | some (_, x) => s.ringRuns false r && s.posted false r ≥ s.rxNeed r x.data.length
        | none => false })

/-- Virtual time of the CPU node. -/
def State.vCpu (s : State) (pr : Nat) : Nat := mget s.tm.vC pr 0

/-- The 32 bytes of a write-back (R416). -/
def State.writeBack (s : State) (r : Nat) (x : Pkt) (len : Nat) (first last : Bool) : Bytes :=
  let front : Bool := x.inPort < 512 && !x.host
  let domB : Bool := front && s.on (F.LIGHT_PORT_CFG_DOMAIN x.inPort)
  leBytes 8 (if domB then x.tsB else x.ts) ++ leBytes 8 x.md.egressMeta ++ leBytes 2 len ++ leBytes 2 x.inPort ++
    leBytes 1 (x.md.trapReason % 64) ++ leBytes 1 (x.md.parseFail % 16 + 16 * (x.md.colour % 4)) ++
    leBytes 2 ((if first then 1 else 0) + (if last then 2 else 0) + (if x.md.badFrame then 4 else 0) +
      (if x.md.trapMode = 2 then 8 else 0) + (if front then 16 else 0) + (if domB then 32 else 0) + 2 ^ 15) ++
    leBytes 4 (mget s.harb.seq r 0) ++ leBytes 4 0

/-- A frame stands in the posted buffers `bufs`, its descriptors are written back and HEAD moves past them. -/
def State.rxWrite (s : State) (r : Nat) (x : Pkt) (bufs : List Nat) : State :=
  let n := s.rxNeed r x.data.length
  let o := s.ringOwner false r
  let size := s.rxBuf r
  let s := (List.range n).foldl (fun s k => s.emit (.hostWrite o (bufs.getD k 0) (slice x.data (k * size) size))) s
  let s := (List.range n).foldl (fun s k =>
    s.emit (.hostWrite o (s.descAddr false r k)
      (s.writeBack r x (min size (x.data.length - k * size)) (k = 0) (k + 1 = n)))) s
  let s := s.headMove false r n
  let w := mget s.harb.waiting r 0 + 1
  let s := s.updHarb (fun h => { h with seq := mset h.seq r ((mget h.seq r 0 + 1) % 2 ^ 32) 0 })
  if w ≥ max 1 (s.rd (F.HARB_RX_CFG_COUNT r)) || s.rd (F.HARB_RX_CFG_ITR r) = 0 then
    (s.updHarb (fun h => { h with waiting := mset h.waiting r 0 0, since := merase h.since r })).ringRaise false r
  else
    s.updHarb (fun h => { h with waiting := mset h.waiting r w 0, since := if w = 1 then minsert h.since r s.now else h.since })

/-! ### Transmit (R418, R419) -/

/-- The fields of a 32-byte TX descriptor, read little-endian (R418). DEDUCED: log entry 167. -/
def txDesc (b : BitVec 256) : TxDesc :=
  let n := b.toNat
  { length := bits n 64 16, last := bit n 80, path := bit n 81, int := bit n 82, tsAction := bits n 88 2, port := bits n 96 16,
    queue := bits n 112 4, ptpOff := bits n 128 16, egressMeta := bits n 160 64 }

/-- The descriptors of the first frame of a list: up to LAST, 16 at most. DEDUCED: log entry 85. -/
def takeFrameDescs : Nat → List TxDesc → List TxDesc
  | 0, _ => []
  | _, [] => []
  | n + 1, d :: t => if d.last then [d] else d :: takeFrameDescs n t

/-- The descriptors of a frame meet R418. DEDUCED: log entry 85. -/
def txDescsOk (ds : List TxDesc) (d : TxDesc) : Bool :=
  let total := (ds.map (fun e => e.length)).sum
  ds.any (fun e => e.last) && ds.all (fun e => 1 ≤ e.length && e.length ≤ 16384) && 60 ≤ total && total ≤ 16000 && d.port < 512 &&
    (d.path || d.queue < 16) && d.ptpOff < 512 && d.tsAction < 4

/-- A frame that goes through the pipeline joins the ingress pipeline of its port; to a port of the south die it crosses the Causeway as
CELL_WR flits, whose cells hold it until the last has landed (R42). DEDUCED: log entry 84. -/
def State.injectFrame (s : State) (p : Nat) (data : Bytes) (sub : Nat) : State :=
  let r := { s.frameAt p data false s.now (s.now * 16 + sub) 0 with host := true }
  if p < 256 then s.injectHere r sub
  else
    let id := s.path.nextHost
    let n := cellsOf data.length
    (s.updPath (fun y => { y with nextHost := id + 1, hostCross := mset y.hostCross id (some { rx := r, owed := n, cells := [] }) none })).cross 0
      ((List.range n).map (fun k => .hostWr id k))

/-- What Harbour does with a frame of a TX ring: its STATUS and the state (R419). -/
def State.txHand (s : State) (d : TxDesc) (data : Bytes) (sub : Nat) : Nat × State :=
  if !s.portLive d.port then (3, s)
  else if d.path then (0, s.injectFrame d.port (padFcs data) sub)
  else
    let md : Meta := { egressPort := d.port, queue := d.queue, egressMeta := d.egressMeta,
                       hostPtp := if d.tsAction = 0 then none else some (d.tsAction, d.ptpOff) }
    let before := s.path.nextPkt
    let s := s.admitUnicast { data := padFcs data, md := md, inPort := 0x3FF, host := true, ts := s.stamp 0 0 sub 0,
                              tsB := s.stamp 1 0 sub 0, t16 := s.now * 16 + sub, die := 0, src := 160, sub := sub, payOff := 0 }
      d.port d.queue
    (if s.path.nextPkt = before then 1 else 0, s)

/-! ### Function level reset (R419, R470) -/

/-- Instance `k` of a register holds its reset value again. DEDUCED: log entry 81. -/
def State.regReset (s : State) (r : RegName) (k : Nat) : State :=
  { s with regs := s.regs.filter (fun e =>
      !((Nat.unpair e.1).1 = r.ctorIdx && (Nat.unpair (Nat.unpair e.1).2).1 = k)) }

/-- The registers of a ring hold their reset values. DEDUCED: log entry 86. -/
def State.ringClear (s : State) (tx : Bool) (r : Nat) : State :=
  let s := s.ringEnable tx r false
  let was := s.ringOwner tx r
  let s := (if tx then [RegName.HARB_TX_BASE, .HARB_TX_CFG, .HARB_TX_TAIL, .HARB_TX_HEAD, .HARB_TX_DROP]
    else [.HARB_RX_BASE, .HARB_RX_CFG, .HARB_RX_TAIL, .HARB_RX_HEAD, .HARB_RX_DROP]).foldl (fun s n => s.regReset n r) s
  if tx || was = 0 then s else s.sampleClear r 0

/-- Dysum pair `k` is reset: its registers, its PHASE, and the response of a command that still runs (R419). -/
def State.dysClear (s : State) (k : Nat) : State :=
  let s := [RegName.DYS_RING_CFG, .DYS_CMD_BASE, .DYS_RSP_BASE, .DYS_CMD_TAIL, .DYS_CMD_HEAD, .DYS_RSP_TAIL].foldl
    (fun s n => s.regReset n k) s
  { s with dys := { s.dys with phase := mset s.dys.phase k false false,
                               holds := s.dys.holds.filter (fun h => match h.via with
                                 | .ring j => j.val ≠ k
                                 | _ => true) } }

/-- Each buffer whose owner is `agent` loses one reference (R419). -/
def State.ownerRelease (s : State) (agent : Nat) : State :=
  (s.bpm.ents.filter (fun e => e.2.owner = agent && e.2.count > 0)).foldl (fun s e =>
    let h := e.2.gen * 2 ^ 40 + e.1
    if e.2.count ≤ 1 then s.freeBuf h else s.setEnt h { e.2 with count := e.2.count - 1 }) s

/-- The registers of function `f`'s window that are not rings hold their reset values (R413, R470). -/
def State.windowClear (s : State) (f : Nat) : State :=
  let s := [RegName.BPM_FN_ARG, .BPM_FN_CMD, .BPM_FN_RESULT, .BPM_FN_HANDLE].foldl (fun s n => s.regReset n f) s
  (List.range 1088).foldl (fun s n =>
    if bit (s.rd (F.CNT_USER_PAGES_MASK (3 * f + n / 16 / 32))) (n / 16 % 32) then
      [RegName.CNT_SEL, .CNT_CTL, .CNT_VALUE, .CNT_PRESET].foldl (fun s m => s.regReset m n) s
    else s) s

/-- A Function Level Reset of function `f`. DEDUCED: log entry 81. -/
def State.flr (s : State) (f : Nat) : State :=
  let mine := (List.range 64).filter (fun r => s.ringOwner false r = f)
  let mineTx := (List.range 64).filter (fun r => s.ringOwner true r = f)
  let s := mine.foldl (fun s r => s.ringClear false r) s
  let s := mineTx.foldl (fun s r => s.ringClear true r) s
  let s := if f = 0 then (List.range 4).foldl (fun s k => s.dysClear k) s
    else ((s.dysClear (3 + f)).ownerRelease (0x40 + f)).windowClear f
  s.raise .harb 0 1

end Sys2Proof.Machine
end

