-- ==== Sys2Proof/Machine/FormOps.lean ====
section
/-! DEFINITION. Port forms (R20 to R23, R76 to R80) and what defining a port does (R109, R322). -/

namespace Sys2Proof.Machine

/-- Lanes of a WIDTH code. -/
def widthLanes (w : Nat) : Nat := ([0, 1, 2, 4, 8] : List Nat).getD w 0

/-- A row of R76: lane MODE, WIDTH, FEC and PMD. FEC is ignored for Strait. -/
def formRow (d : PortDef) : Bool :=
  let lanes : Bool := 1 ≤ d.width && d.width ≤ 4
  match d.mode with
  | 1 => lanes && d.pmd = 3
  | 2 => lanes && d.fec = 3 && d.pmd ≤ 2
  | 3 => lanes && d.fec = 3 && d.pmd ≤ 2
  | 4 => lanes && d.fec = 3 && d.pmd ≤ 2
  | 5 => ((d.width = 1 && d.fec ≤ 2) || (d.width = 3 && d.fec = 2)) && d.pmd ≤ 2
  | 6 => d.width = 1 && d.fec = 0 && (d.pmd = 1 || d.pmd = 2)
  | _ => false

/-- The placement of a port's lanes (R20, R21, R23, R78, R80). -/
def formPlace (d : PortDef) : Bool :=
  let j := d.port % 32
  if d.firstLane < 32 then d.firstLane = j && j % 8 % widthLanes d.width = 0
  else d.firstLane < 34 && d.width = 1 && 3 ≤ d.mode && d.mode ≤ 6

/-- What a port may say of its hot spare (R77). -/
def formSpare (d : PortDef) : Bool :=
  d.spare = 0x3F || ((d.spare = 32 || d.spare = 33) && d.mode = 1 && d.width ≥ 3 && d.trusted)

/-- Device lanes of a form. -/
def formLanes (d : PortDef) : List Nat := (List.range (widthLanes d.width)).map (fun k => 34 * (d.port / 32) + d.firstLane + k)

/-- The other defined ports of port `p`'s island. -/
def State.neighbours (s : State) (p : Nat) : List Nat :=
  ((List.range 32).map (fun k => 32 * (p / 32) + k)).filter (fun q => q ≠ p && s.portState q ≠ 0)

/-- Speed of a form in Gb/s. -/
def formSpeed (d : PortDef) : Nat := modeRate d.mode * widthLanes d.width

/-- What is wrong with a form: 0 nothing, BAD_ARG, or NO_RESOURCE for the rate of R23. A FAILED main lane blocks the port (R403). DEDUCED:
log entry 91. -/
def State.formError (s : State) (d : PortDef) : Nat :=
  let lanes := formLanes d
  let all := lanes ++ (if d.spare = 0x3F then [] else [34 * (d.port / 32) + d.spare])
  let others := s.neighbours d.port
  let used := others.flatMap s.allLanes
  if !(formRow d && formPlace d && formSpare d && (!d.an || d.pmd ≤ 1)) then stBadArg
  else if all.any (fun l => used.contains l) || lanes.any (fun l => s.laneState l = 5) then stBadArg
  else if ((others.filter (fun q => q % 32 / 8 = d.port % 32 / 8)).map s.portSpeed).sum + formSpeed d > 3200 then stNoResource
  else 0

/-- The lanes of port `p` carry no port any more. -/
def State.freeLanes (s : State) (p : Nat) : State :=
  let s := (s.mainLanes p).foldl (fun s l =>
    ((s.wr (F.LANE_CTL_MODE l) 0).wr (F.LANE_STATUS_PORT l) noPort).wr (F.LANE_STATUS_LOGICAL l) 0) s
  let s := if s.spareOf p < 544 then s.wr (F.LANE_CTL_MODE (s.spareOf p)) 0 else s
  { s with laneMap := (List.range 9).foldl (fun m k => mset m (key2 p k) none none) s.laneMap }

/-- Port `p` becomes UNDEFINED (R109). -/
def State.undefine (s : State) (p : Nat) : State := ((s.freeLanes p).regReset .PORT_CFG p).portEnter p 0

/-- A port takes a form (R46, R109, R321, R322): its lanes take their MODE, its counters start again from 0, and it is DISABLED. -/
def State.define (s : State) (d : PortDef) : State :=
  let p := d.port
  let s := if s.portState p = 0 then s else s.freeLanes p
  let s := ((s.wr (F.PORT_CFG_WIDTH p) d.width).wr (F.PORT_CFG_FIRST_LANE p) d.firstLane).wr (F.PORT_CFG_MODE p) d.mode
  let s := ((s.wr (F.PORT_CFG_FEC p) d.fec).wr (F.PORT_CFG_PMD p) d.pmd).wrB (F.PORT_CFG_AN_EN p) d.an
  let s := (s.wr (F.PORT_CFG_SPARE_LANE p) d.spare).wrB (F.PORT_CFG_TRUSTED p) d.trusted
  let s := (List.range (widthLanes d.width)).foldl (fun s k =>
    let l := s.laneOf p k
    ((s.wr (F.LANE_CTL_MODE l) d.mode).wr (F.LANE_STATUS_PORT l) p).wr (F.LANE_STATUS_LOGICAL l) k) s
  let s := if s.spareOf p < 544 then s.wr (F.LANE_CTL_MODE (s.spareOf p)) d.mode else s
  let s := (List.range 64).foldl (fun s k => s.wr (F.CNT_MIB_COUNT (64 * p + k)) 0) s
  let s := s.wr (F.CNT_MIB_DISC_TIME p) s.domA.sec
  s.portEnter p 1

end Sys2Proof.Machine
end

