-- ==== Sys2Proof/Machine/Operands.lean ====
section
/-! DEFINITION. Address operands: the register that a BAR0 address names (R463, R464), and the bits of a register that take writes
(R17). -/

namespace Sys2Proof.Machine

/-! ### Addresses -/

/-- The flat index of an offset in a register's repetition and what is left of the offset (R464). -/
def findIndex : List (Nat × Nat × Nat) → Nat → Nat → Option (Nat × Nat)
  | [], off, acc => some (acc, off)
  | (first, last, stride) :: t, off, acc =>
    let i := off / max 1 stride
    if first ≤ i && i < last then findIndex t (off % max 1 stride) (acc * last + i) else none

/-- The register at a word address: its name, its instance, and whether the word is the high one of a 64-bit register. -/
def RegRow.find (r : RegRow) (addr : Nat) : Option (RegName × Nat × Bool) :=
  if addr < r.base then none
  else
    match findIndex r.dims (addr - r.base) 0 with
    | some (k, off) => if off < 4 then some (r.reg, k, false) else if r.wide && off < 8 then some (r.reg, k, true) else none
    | none => none

/-- The register at a byte address (R463): none where the address map has none. -/
def regAt (addr : Nat) : Option (RegName × Nat × Bool) := regTable.findSome? (fun r => r.find addr)

/-- A field of a register that takes writes. -/
def Access.writable : Access → Bool
  | .ro => false
  | .rc => false
  | _ => true

/-- Bits of a register that a field takes. -/
def Fld.mask (f : Fld) : Nat := (2 ^ f.width - 1) * 2 ^ f.lo

end Sys2Proof.Machine
end

