-- ==== Sys2Proof/Machine/BootOps.lean ====
section
/-! DEFINITION. Device reset, the boot source, and the checks of an image (R391 to R402, R469). -/

namespace Sys2Proof.Machine

/-! ### Device reset -/

/-- A device reset (R469, R489): every register and every unit starts again; fuses and the Keep domain stand. The straps are sampled at
power-up and at RESET_N (R400). HBM keeps its contents unless power was lost, the TAP its instruction. DEDUCED: log entries 89, 90. DESIGN
CHOICE: log entry 125. -/
def State.deviceReset (s : State) (cause : ResetCause) (src : Nat) (i2c : Bool) : State :=
  let up : Bool := cause = .powerUp
  let fuses := if up || cause = .resetN then { s.fuses with bootSrc := src, i2cRstEn := i2c } else s.fuses
  let harb : HarbSt := if up then {} else { tapIr := s.harb.tapIr, boundary := s.harb.boundary }
  { pending := s.pending, out := if s.fatalStop then .pin .alertN true :: s.out else s.out, free := s.free, fuses := fuses,
    hbm := if up then [] else s.hbm, keep := s.keep, boot := { powerHeld := up }, harb := harb }

/-! ### Stages -/

/-- The present stage (R403). -/
def State.stage (s : State) : Nat := s.rd F.BOOT_STATUS_STAGE

/-- Update the boot ROM's own state. -/
def State.updBoot (s : State) (f : BootSt → BootSt) : State := { s with boot := f s.boot }

/-- The boot enters a stage. DESIGN CHOICE: log entry 101. -/
def State.stageEnter (s : State) (st : Nat) : State := (s.wr F.BOOT_STATUS_STAGE st).updBoot (fun b => { b with since := s.now })

/-- FETCH from a source, coded as USED; a PCIe fetch waits for its GO (R400 to R402). -/
def State.fetchFrom (s : State) (src : Nat) : State :=
  (s.stageEnter 2).updBoot (fun b => { b with source := src, waitGo := src = 3, image := none })

/-- The boot stops without a valid image (R403). -/
def State.bootFailed (s : State) : State := ((s.stageEnter 7).updBoot (fun b => { b with image := none })).raise .boot 0 3

/-- The source after one that gave no valid image (R400, R401). -/
def State.nextSource (s : State) : State :=
  match s.boot.source with
  | 1 => s.fetchFrom 2
  | 2 => if s.fuses.bootSrc ≥ 2 then s.fetchFrom 3 else s.bootFailed
  | _ => s.bootFailed

/-- A write of 1 to BOOT_PCIE_GO (R402, R405, R410): it starts the fetch that waits for it, and in FAILED a new attempt where BOOT_SRC
allows PCIe. DEDUCED: log entry 95. -/
def State.pcieGo (s : State) (q : Requester) : State :=
  if s.stage = 2 && s.boot.waitGo then (s.wrB F.BOOT_PCIE_GO_GO true).updBoot (fun b => { b with waitGo := false })
  else if s.stage = 7 then
    let s := s.wrB F.BOOT_PCIE_GO_GO true
    if s.fuses.bootSrc = 0 then s else (s.fetchFrom 3).updBoot (fun b => { b with waitGo := false })
  else s.locked q .BOOT_PCIE_GO 0 s.stage

/-! ### Register writes of an image -/

/-- The bits of a register that a field which is not RO takes. -/
def liveBits (r : RegName) (k : Nat) : Nat :=
  match (statusOf r).orElse (fun _ => maskOf r) with
  | some b => intBits b
  | none => (((regRow r).fields k).filter (fun f => f.2 ≠ .ro)).foldl (fun a f => a ||| f.1.mask) 0

/-- A REG_INIT write may stand in an image (R392): a block that it allows, a register with a writable field, and no 1 in a RO field. -/
def regInitOk (e : Nat × Nat) : Bool :=
  let b := e.1 / 2 ^ 20
  let blk : Bool := (0x010 ≤ b && b < 0x050) || b / 16 = 6 || b / 16 = 7 || (9 ≤ b / 16 && b / 16 ≤ 12)
  match regAt e.1 with
  | none => false
  | some (r, k, hi) =>
    let fs := (regRow r).fields k
    let v := if hi then e.2 * 2 ^ 32 else e.2
    blk && e.2 < 2 ^ 32 && fs.any (fun f => f.2.writable) && v &&& liveBits r k = v

/-- The writable fields of a register take the bits of a word, whatever locks hold: an image section sets them (R391). -/
def State.pokeWord (s : State) (e : Nat × Nat) : State :=
  match regAt e.1 with
  | none => s
  | some (r, k, hi) =>
    ((regRow r).fields k).foldl (fun s f =>
      if !f.2.writable then s
      else if hi then
        if f.1.lo ≥ 32 then s.wr f.1 (bits e.2 (f.1.lo - 32) f.1.width)
        else if f.1.lo + f.1.width > 32 then s.wr f.1 (s.rd f.1 % 2 ^ (32 - f.1.lo) + e.2 * 2 ^ (32 - f.1.lo))
        else s
      else if f.1.lo ≥ 32 then s
      else if f.1.lo + f.1.width > 32 then s.wr f.1 (s.rd f.1 / 2 ^ (32 - f.1.lo) * 2 ^ (32 - f.1.lo) + e.2 / 2 ^ f.1.lo)
      else s.wr f.1 (bits e.2 f.1.lo f.1.width)) s

/-! ### The checks of R395 -/

/-- Ranges (start, length) that do not overlap. -/
def disjoint : List (Nat × Nat) → Bool
  | [] => true
  | (a, n) :: t => t.all (fun e => a + n ≤ e.1 || e.1 + e.2 ≤ a) && disjoint t

/-- Check 8: the sections lie within the image, do not overlap, and their CRCs match. -/
def imageSectionsOk (im : Image) : Bool :=
  let table := 256 + 32 * im.secs.length
  1 ≤ im.secs.length && im.secs.length ≤ 1024 &&
  im.secs.all (fun c => c.crcOk && c.offset % 4096 = 0 && table ≤ c.offset && c.offset + c.length + 256 ≤ im.length) &&
  disjoint (im.secs.map (fun c => (c.offset, c.length)))

/-- The ports of a map, taken one after another (R23, R76). -/
def portsOk : List PortDef → State → Bool
  | [], _ => true
  | d :: t, s => d.port < 512 && s.portState d.port = 0 && s.formError d = 0 && portsOk t (s.define d)

/-- The partition of one stack, in MiB: regions within 23.25 GiB that do not overlap, pool regions and META for the buffers, and the
image's place on stacks 0 and 3 (R215). -/
def stackOk (regions : List (Nat × Nat × Nat × Nat)) (pools : List (Nat × Nat)) (st : Nat) : Bool :=
  let rs := (regions.filter (fun r => r.1 = st)).map (fun r => r.2)
  let size (n : Nat) : Nat := ((rs.find? (fun r => r.1 = n)).map (fun r => r.2.2)).getD 0
  let bufs (k : Nat) : Nat := ((pools.find? (fun p => p.1 = 8 * st + k)).map (fun p => p.2)).getD 0
  disjoint (rs.map (fun r => r.2)) && rs.all (fun r => 1 ≤ r.1 && r.1 ≤ 9 && r.2.1 + r.2.2 ≤ 23808) &&
  (List.range 4).all (fun k => bufs k * (512 * 8 ^ k) ≤ size (3 + k) * 2 ^ 20) &&
  16 * ((List.range 4).map bufs).sum ≤ size 2 * 2 ^ 20 && ((st ≠ 0 && st ≠ 3) || size 1 ≥ 64)

/-- The reserves of a pool do not exceed its buffers on the stacks concerned (R209). -/
def reservesOk (pools reserves : List (Nat × Nat)) : Bool :=
  let bufs (sts : List Nat) (k : Nat) : Nat := (pools.filter (fun p => sts.contains (p.1 / 8) && p.1 % 8 = k)).foldl (fun a p => a + p.2) 0
  let rsv (c k : Nat) : Nat := ((reserves.find? (fun e => e.1 = regAddr .BPM_CLASS_RSV (4 * c + k))).map (fun e => e.2)).getD 0
  (List.range 4).all (fun k =>
    rsv 0 k ≤ bufs [0, 1, 2] k && rsv 1 k ≤ bufs [3, 4, 5] k &&
    ((List.range 5).map (fun c => rsv c k)).sum ≤ bufs [0, 1, 2, 3, 4, 5] k)

/-- A field keeps the ranges of R117. -/
def fieldOk (w : Nat) (x : Option BitField) : Bool := x.all (fun b => b.off ≤ 63 && b.bit ≤ 7 && 1 ≤ b.width && b.width ≤ w)

/-- A next step names a state (R117). -/
def nextOk (n : Next) : Bool :=
  match n with
  | .goto st => st < 256
  | _ => true

/-- A parse state keeps the ranges of R117. -/
def parseStateOk (p : ParseState) : Bool :=
  p.extract.all (fun h => h ≤ 31) && p.lenBase ≤ 255 && fieldOk 8 p.lenField && [1, 2, 4, 8].contains p.lenScale && fieldOk 16 p.sel0 &&
    fieldOk 16 p.sel1 && nextOk p.dflt

/-- A parse graph keeps the limits of R117, R119 and R122: 256 states and 1,024 transition entries. -/
def graphOk (g : ParseGraph) (values : List Nat) : Bool :=
  g.states.length ≤ 256 && g.states.all parseStateOk && g.trans.length ≤ 1024 && g.trans.all (fun t => nextOk t.next) &&
    g.fails.length ≤ 6 && values.length ≤ 16 && values.all (fun v => v < 2 ^ 16)

/-- A stage keeps the limits of R140 and R151: 8 lookups, 32 action operations, 4 ALUs and 2 hashes, with MERGE only where an operation may
merge. -/
def stageOk (g : Stage) : Bool :=
  g.lookups.length ≤ 8 && g.actions.length ≤ 32 && g.alus.length ≤ 4 && g.hashes.length ≤ 2 && g.alus.all (fun a => !a.merge || mergeable a.op)

/-- A program has 24 stages at most that do something, and a PROG_ID of 16 bits (R138, R391). -/
def progOk (p : Program) : Bool := p.stages.length ≤ 24 && p.id < 2 ^ 16 && p.stages.all stageOk

/-- A pattern set keeps the limits of R125 and R127: 1,024 patterns of 1 to 32 bytes, and 4,096 states of their automaton. -/
def patternsOk (l : List Pattern) (states : Nat) : Bool :=
  l.length ≤ 1024 && states ≤ 4096 &&
    l.all (fun p => 1 ≤ p.value.length && p.value.length ≤ 32 && p.mask.length = p.value.length && p.group ≤ 63 && p.endMin ≤ 511 && p.endMax ≤ 511)

/-- What the model checks of a section's content. -/
def secBodyOk : SecBody → Bool
  | .portMap l => portsOk l {}
  | .parseGraph g vs => graphOk g vs
  | .pipeProgram p => progOk p
  | .tableLayout l => l.all tblOk
  | .tableInit l _ _ => l.all (fun e => e.2.2.length ≤ 32 && e.2.2.all (fun w => w < 2 ^ 32))
  | .patterns l n => patternsOk l n
  | .hbmPartition rs ps vs =>
    rs.all (fun r => r.1 < 6 && (r.2.1 ≠ 7 || r.2.2.2 ≥ 64)) && rs.any (fun r => r.2.1 = 7) && (List.range 6).all (stackOk rs ps) &&
      reservesOk ps vs
  | .regInit ws => ws.all regInitOk
  | .lagoon ws => ws.all (fun e => e.1 / 2 ^ 24 = 6 && regInitOk e)
  | .unknown => false
  | _ => true

/-- The ports of every PORT_MAP section of an image, which share the lanes (R23, R76). -/
def imagePorts (im : Image) : List PortDef :=
  im.secs.flatMap (fun c => match c.body with
    | .portMap l => l
    | _ => [])

/-- The tables that an image lays out in a pool. -/
def imagePool (im : Image) (pool : Nat) : List TblLayout :=
  im.secs.flatMap (fun c => match c.body with
    | .tableLayout l => if 2 * c.island + c.pipe / 5 = pool then l else []
    | _ => [])

/-- The tables of a pool have numbers of their own, and its blocks hold them. -/
def poolOk (pool : Nat) (l : List TblLayout) : Bool := (l.map (fun t => t.num)).dedup.length = l.length && poolFits (pool % 2) l

/-- The instance of a section is one that its type takes (R393): a pipeline, an island, or the device. -/
def secPlaceOk (c : Sec) : Bool :=
  match c.body with
  | .parseGraph _ _ => c.island < 16 && c.pipe < 10
  | .pipeProgram _ => c.island < 16 && c.pipe < 10
  | .tableLayout _ => c.island < 16 && c.pipe < 10
  | .tableInit _ _ _ => c.island < 16 && c.pipe < 10
  | .patterns _ _ => c.island < 16
  | _ => c.island = 0xFF && c.pipe = 0xFF

/-- Check 9: the content. -/
def imageContentGood (im : Image) : Bool :=
  im.secs.all (fun c => secBodyOk c.body && secPlaceOk c) && portsOk (imagePorts im) {} &&
    (List.range 32).all (fun pool => poolOk pool (imagePool im pool))

/-- The tables that a partial image adds lie in free blocks of the target's pool (R391, R406). -/
def State.stagedFits (s : State) (im : Image) : Bool :=
  (List.range 32).all (fun pool => (imagePool im pool).isEmpty || poolOk pool (s.poolTables pool ++ imagePool im pool))

/-- The sections that a partial image may carry (R406). -/
def imageCarries (im : Image) : Bool :=
  let has (p : SecBody → Bool) : Bool := im.secs.any (fun c => p c.body)
  let graph : SecBody → Bool := fun b => match b with
    | .parseGraph _ _ => true
    | _ => false
  let prog : SecBody → Bool := fun b => match b with
    | .pipeProgram _ => true
    | _ => false
  let tabs : SecBody → Bool := fun b => match b with
    | .tableLayout _ => true
    | .tableInit _ _ _ => true
    | _ => false
  let pats : SecBody → Bool := fun b => match b with
    | .patterns _ _ => true
    | _ => false
  match im.type with
  | 1 =>
    has graph && has prog &&
      im.secs.all (fun c => (graph c.body || prog c.body || tabs c.body) && c.island = im.target / 16 && c.pipe / 5 = im.target % 2)
  | 2 => has pats && im.secs.all (fun c => pats c.body) && (im.secs.map (fun c => c.island)).dedup.length = im.secs.length
  | _ => false

/-- BOOT_ERR.CODE of an image, 0 for a valid one (R395). `staged` tells a partial image of IMAGE_STAGE. DEDUCED: log entry 94. -/
def State.imageError (s : State) (im : Image) (staged : Bool) : Nat :=
  if !(im.magic = 0x4C4D5947 && im.format = 1 && im.type ≤ 2 && im.imageId ≠ 0 && im.reserved0) then 1
  else if !(im.device = 0x0A09 && im.stepMin ≤ s.rd F.CHIP_ID_STEP_MAJOR * 16 + s.rd F.CHIP_ID_STEP_MINOR) then 2
  else if im.length > (if im.type = 0 then 67108864 else 16777216) then 3
  else if !((mfind s.fuses.digests im.keySlot).isSome && im.keySlot < 4 && !s.fuses.revoked.contains im.keySlot) then 4
  else if mfind s.fuses.digests im.keySlot ≠ some im.keyDigest then 5
  else if !im.sigOk then 6
  else if im.svn < s.fuses.svn then 7
  else if !imageSectionsOk im then 8
  else if !(imageContentGood im && (!staged || s.stagedFits im)) then 9
  else if staged then
    if im.type ≠ 0 && imageCarries im && (s.boot.running.map (fun r => r.imageId)) = some im.baseId then 0 else 10
  else if im.type = 0 then 0 else 10

/-- A rejected image (R395). -/
def State.imageRejected (s : State) (code : Nat) (staged : Bool) : State :=
  let s := (s.wr F.BOOT_ERR_CODE code).wr F.BOOT_ERR_SOURCE (if staged then 3 else s.boot.source)
  ((s.wrB F.BOOT_ERR_STAGED staged).satAdd F.BOOT_ERR_COUNT 1).raise .boot 0 1

/-! ### Fuses -/

/-- The key registers as the fuses stand (R396, R399). -/
def State.keyRegs (s : State) : State :=
  let f := s.fuses
  let flags (p : Nat → Bool) : Nat := (List.range 4).foldl (fun a k => a + if p k then 2 ^ k else 0) 0
  let s := s.wr F.BOOT_KEY_STATUS_PROGRAMMED (flags (fun k => (mfind f.digests k).isSome))
  let s := (s.wr F.BOOT_KEY_STATUS_REVOKED (flags (fun k => f.revoked.contains k))).wr F.BOOT_KEY_STATUS_SVN_FLOOR f.svn
  (List.range 48).foldl (fun s n => s.wr (F.BOOT_KEY_DIGEST_WORD n) (bits (mget f.digests (n / 12) 0) (32 * (n % 12)) 32)) s

/-- What FUSE senses (R396, R400, R403): grade, straps, keys, and the spares consumed at manufacture. -/
def State.fuseSense (s : State) : State :=
  let s := ((s.wr F.CHIP_ID_GRADE s.fuses.grade).wr F.BOOT_STATUS_SRC s.fuses.bootSrc).keyRegs
  (List.range 8).foldl (fun s k =>
    let n := mget s.fuses.used k 0
    (s.wr (F.RAS_SPARE_SUMMARY_HI_FUSE k) n).subFrom (F.RAS_SPARE_SUMMARY_FREE k) n) s

end Sys2Proof.Machine
end

