-- ==== Sys2Proof/Machine/Package.lean ====
section
/-! DEFINITION. The ball map (R481 to R484) and the frame of the voltage-control interface (R487). A ball is (row, column), each 1 to 96. -/

namespace Sys2Proof.Machine

/-! ### Lane balls (R483) -/

/-- The four signals of a lane. -/
inductive LaneSignal where
  | txP | txN | rxP | rxN
deriving DecidableEq, Repr

/-- The ball at depth `d` and position `e` of the tile of chiplet `c` (R483). -/
def tileBall (c d e : Nat) : Nat × Nat :=
  match c with
  | 0 => (d, 24 + e)
  | 1 => (d, 48 + e)
  | 2 => (24 + e, d)
  | 3 => (24 + e, 97 - d)
  | 4 => (48 + e, d)
  | 5 => (48 + e, 97 - d)
  | 6 => (97 - d, 24 + e)
  | _ => (97 - d, 48 + e)

/-- The ball of a signal of device lane `l` (R483). -/
def laneBall (l : Nat) (x : LaneSignal) : Nat × Nat :=
  let n := l % 68
  let e := 3 * (n % 8)
  match x with
  | .txP => tileBall (l / 68) (1 + n / 8) (e + 1)
  | .txN => tileBall (l / 68) (1 + n / 8) (e + 2)
  | .rxP => tileBall (l / 68) (11 + n / 8) (e + 1)
  | .rxN => tileBall (l / 68) (11 + n / 8) (e + 2)

/-! ### Corner tiles (R484) -/

/-- The corner tiles: north or south edge, west or east side. -/
structure Corner where
  south : Bool
  east : Bool
deriving DecidableEq, Repr

/-- An item of R484: a differential pair or a single signal. -/
inductive CornerItem where
  | pair (name : String)
  | one (name : String)
deriving DecidableEq, Repr

/-- Signal balls of an item; one VSS ball follows them. -/
def CornerItem.balls : CornerItem → Nat
  | .pair _ => 2
  | .one _ => 1

/-- Names that a row of the table numbers. -/
def numbered (mk : String → CornerItem) (name : String) (n : Nat) : List CornerItem :=
  (List.range n).map (fun k => mk (name ++ toString k))

/-- The signals of a corner tile in order (R484). -/
def cornerItems (c : Corner) : List CornerItem :=
  match c.south, c.east with
  | false, false =>
    numbered .pair "PCIE_TX" 8 ++ numbered .pair "PCIE_RX" 8 ++ [.pair "PCIE_REFCLK", .one "PCIE_PERST_N"]
  | false, true =>
    [.pair "REFCLK0", .pair "REFCLK1", .one "CLK10M_IN", .one "PPS_IN", .one "PPS_OUT", .one "TIDEMARK_IN", .one "TIDEMARK_OUT"]
  | true, false =>
    [.pair "MGMT0_TX", .pair "MGMT0_RX", .pair "MGMT1_TX", .pair "MGMT1_RX", .one "QSPI_CLK", .one "QSPI_CS_N"] ++
      numbered .one "QSPI_IO" 4 ++ [.one "TCK", .one "TMS", .one "TDI", .one "TDO", .one "TRST_N", .one "I2C_SCL", .one "I2C_SDA"]
  | true, true =>
    [.one "PWRFAIL_N", .one "RESET_N", .one "THERMTRIP_N", .one "ALERT_N", .one "BOOT_SRC0", .one "BOOT_SRC1", .one "I2C_RST_EN",
     .one "I2C_ADDR0", .one "I2C_ADDR1", .one "VR_CLK", .one "VR_DATA", .one "VR_ALERT_N", .pair "VSNS_NORTH", .pair "VSNS_SOUTH",
     .pair "TDIODE"] ++ numbered .one "GPIO" 16

/-- The place (row, column, both from the package corner and from 0) of each item: rows of 24 balls, an item with its VSS ball on one row.
DEDUCED: log entry 168. -/
def placeItems : Nat → List CornerItem → List (CornerItem × Nat × Nat)
  | _, [] => []
  | k, i :: t =>
    let n := i.balls + 1
    let k := if k % 24 + n > 24 then (k / 24 + 1) * 24 else k
    (i, k / 24, k % 24) :: placeItems (k + n) t

/-- The first ball of each signal of a corner tile (R484). -/
def cornerBalls (c : Corner) : List (CornerItem × Nat × Nat) :=
  (placeItems 0 (cornerItems c)).map (fun e =>
    (e.1, if c.south then 96 - e.2.1 else 1 + e.2.1, if c.east then 96 - e.2.2 else 1 + e.2.2))

/-! ### Voltage control -/

/-- The frame that asks the regulator for `mv`: steps of 5 mV above 0.60 V (R487). -/
def vrFrame (mv : Nat) : Nat := (mv - 600) / 5

end Sys2Proof.Machine
end

