-- ==== Sys2Proof/Machine/PwrOps.lean ====
section
/-! DEFINITION. The power manager: bounds, the core divider and its voltage, yields of the budget domains, overrides and power states
(R362 to R378). -/

namespace Sys2Proof.Machine

/-! ### Bounds and voltage (R362, R363, R373) -/

/-- Nominal VCORE of a divider code in mV (R362). -/
def nominalMv (code : Nat) : Nat := ([820, 720, 660, 620, 600] : List Nat).getD code 600

/-- Half ROOT periods in a stretched core clock of a divider code (R362). -/
def stretchHalves (code : Nat) : Nat := ([9, 10, 12, 14, 18] : List Nat).getD code 18

/-- Fastest code allowed, codes 5–7 acting as 4 (R373). -/
def State.freqCeil (s : State) : Nat := min 4 (s.rd F.PWR_FREQ_BOUND_CEIL)

/-- Slowest code allowed; a FLOOR faster than CEIL acts as CEIL (R373). -/
def State.freqFloor (s : State) : Nat := max s.freqCeil (min 4 (s.rd F.PWR_FREQ_BOUND_FLOOR))

/-- Voltage bounds in mV: FLOOR at least 600, CEIL at most 850, a FLOOR above CEIL acting as CEIL (R373). -/
def State.voltBounds (s : State) : Nat × Nat :=
  let hi := min 850 (s.rd F.PWR_VOLT_BOUND_CEIL)
  (min hi (max 600 (s.rd F.PWR_VOLT_BOUND_FLOOR)), hi)

/-- A pinned bit: set and counted when a step would cross a bound (R373). -/
def State.pin (s : State) (bitF cntF : Fld) : State :=
  let was := s.on bitF
  let s := (s.wrB bitF true).satAdd cntF 1
  if was then s else s.raise .pwr 0 2

/-- The VCORE target moves to `mv`, clamped to the bounds, and the frames to the regulator hold it; a clamp sets VOLT_PINNED (R363, R373,
R487). -/
def State.voltTarget (s : State) (mv : Int) : State :=
  let (lo, hi) := s.voltBounds
  let v := max (lo : Int) (min (hi : Int) mv)
  let s := (s.updPwr (fun p => { p with target := v.toNat, voltBeyond := v ≠ mv })).emit (.vr (vrFrame v.toNat))
  if v ≠ mv then s.pin F.PWR_STATUS_VOLT_PINNED F.PWR_PINNED_CNT_VOLT else s

/-! ### The divider (R363, R376) -/

/-- Ticks of the quiet period that a change to a faster code waits for: 5 µs (R376). -/
def quietTicks : Nat := 8000

/-- A stretch is in force, or a detector has fired in the last 5 µs. -/
def State.droopBusy (s : State) : Bool :=
  s.on F.CLK_CORE_STRETCH || s.pwr.droopAt.any (fun t => s.now - t < quietTicks)

/-- A request for divider code `c` (R363, R376): it replaces a pending one, and a request for the present code cancels it. For a faster
code the voltage target rises first. -/
def State.divRequest (s : State) (c : Nat) : State :=
  let cur := s.rd F.CLK_CORE_DIV
  let pend := s.rd F.CLK_CORE_PENDING
  if c = cur then
    if pend = 7 then s
    else ((s.wr F.CLK_CORE_PENDING 7).wrB F.CLK_CORE_DEFERRED_BY_DROOP false).voltTarget (nominalMv cur)
  else if c = pend then s
  else
    let s := s.wr F.CLK_CORE_PENDING c
    if c < cur then
      ((s.voltTarget (nominalMv c)).updPwr (fun p => { p with raisedAt := s.now })).wrB F.CLK_CORE_DEFERRED_BY_DROOP s.droopBusy
    else s.wrB F.CLK_CORE_DEFERRED_BY_DROOP false

/-- The pending change may switch with VCORE sensed at `mv` (R363, R376): a slower code outside a stretch; a faster one with VCORE
within 10 mV of its target, 20 µs after the request and 5 µs after the last droop. -/
def State.divReady (s : State) (mv : Nat) : Bool :=
  let c := s.rd F.CLK_CORE_PENDING
  let cur := s.rd F.CLK_CORE_DIV
  c ≠ 7 && !s.on F.CLK_CORE_STRETCH &&
    (c > cur || (mv + 10 ≥ s.pwr.target && s.now - s.pwr.raisedAt ≥ 32000 && !s.droopBusy))

/-- The pending change switches (R363); after a change to a slower code the voltage is lowered. -/
def State.divSwitch (s : State) : State :=
  let c := s.rd F.CLK_CORE_PENDING
  let cur := s.rd F.CLK_CORE_DIV
  let s := ((s.wr F.CLK_CORE_DIV c).wr F.CLK_CORE_PENDING 7).wrB F.CLK_CORE_DEFERRED_BY_DROOP false
  let s := s.satAdd F.CLK_CORE_CHANGES 1
  if c > cur then s.voltTarget (nominalMv c) else s

/-! ### Power states, yields and duty (R366 to R372, R377) -/

/-- PWR_STATUS.STATE: 0 NOMINAL, 1 CAPPED, 2 BOOST, 3 FIXED, 4 SAVE. -/
def State.pwrState (s : State) : Nat := s.rd F.PWR_STATUS_STATE

/-- The power manager enters `st` (R369, R370). -/
def State.pwrEnter (s : State) (st : Nat) : State :=
  if s.pwrState = st then s else (s.wr F.PWR_STATUS_STATE st).raise .pwr 0 0

/-- Yield steps that domain `d` has taken. -/
def State.steps (s : State) (d : Nat) : Nat := s.rd (F.PWR_DOM_STATUS_STEPS d)

/-- Divider codes that the thermal throttle has slowed. -/
def State.thermCodes (s : State) : Nat := (s.pwr.thermSteps.filter (fun b => b)).length

/-- Duty steps that the thermal throttle has taken. -/
def State.thermDuty (s : State) : Nat := (s.pwr.thermSteps.filter (fun b => !b)).length

/-- The code of NOMINAL: the fastest that the ceiling allows, not faster than ÷4 (R369). -/
def State.nominalCode (s : State) : Nat := max 1 s.freqCeil

/-- The code that the mode and the COMPUTE yield ask for, without the thermal throttle (R366, R369, R372). -/
def State.policyCode (s : State) : Nat :=
  match s.pwrState with
  | 2 => 0
  | 3 => 1
  | 4 => 4
  | _ => min (max s.nominalCode s.freqFloor) (s.nominalCode + s.steps 2)

/-- The divider moves to the code in force. DEDUCED: log entry 131. -/
def State.applyCode (s : State) : State := s.divRequest (min 4 (s.policyCode + s.thermCodes))

/-- Issue duty in sixteenths: that of FIXED mode under the cap, of the current limit and of the thermal throttle (R366, R374, R377). -/
def State.dutyNow (s : State) : Nat :=
  let base := if s.pwrState = 3 then 16 - s.steps 2 else 16
  max 4 (min (base - s.thermDuty) s.pwr.dutyLimit)

/-- PWR_STATUS.DUTY. -/
def State.applyDuty (s : State) : State := s.wr F.PWR_STATUS_DUTY s.dutyNow

/-- The ports of PWR_LINK_LIMIT. -/
def State.limitPorts (s : State) : List Nat :=
  (List.range 16).flatMap (fun w =>
    let v := s.rd (F.PWR_LINK_LIMIT_PORTS w)
    if v = 0 then [] else ((List.range 32).filter (fun k => bit v k)).map (fun k => 32 * w + k))

/-- Lossless priorities of port `p`. -/
def State.losslessOf (s : State) (p : Nat) : Nat :=
  (List.range 8).foldl (fun a g => if s.on (F.LAG_PG_CFG_LOSSLESS (8 * p + g)) then a + 2 ^ g else a) 0

/-- Forced XOFF of LINKS (R366, R367): with steps 2 to 5 taken the ports of PWR_LINK_LIMIT hold XOFF in 1 to 4 of every 8 control intervals.
DESIGN CHOICE: log entry 48. -/
def State.applyXoff (s : State) : State :=
  let on : Bool := s.pwr.phase < s.steps 0 - 1
  s.limitPorts.foldl (fun s p =>
    (s.updPort p (fun x => { x with forceXoff := if on then s.losslessOf p else 0 })).pfcUpdate p) s

/-- MC_BW_CAP of MEMORY steps: 90 % down to 50 %, 0 none (R366). -/
def bwCap (steps : Nat) : Nat := if steps = 0 then 0 else 100 - 10 * min 5 steps

/-- Timing set of MEMORY steps: B at the sixth, C at the seventh. -/
def memSet (steps : Nat) : Nat := steps - 5

/-- Bandwidth caps and timing sets of the MEMORY steps, with the steps before and the real-time load of each
stack where it is measured (R234, R236, R366). -/
def State.applyMemory (s : State) (before : Nat) (load : List Nat) : State :=
  let n := s.steps 1
  (List.range 6).foldl (fun s st =>
    let s := s.wr (F.MC_BW_CAP_CAP st) (bwCap n)
    let risk : Bool := n > 0 && (if load.isEmpty then s.on (F.MC_STATUS_RT_AT_RISK st) else bwCap n < load.getD st 0)
    let s := if risk && !s.on (F.MC_STATUS_RT_AT_RISK st) then s.raise .mc st 6 else s
    let s := s.wrB (F.MC_STATUS_RT_AT_RISK st) risk
    if memSet before = memSet n then s else s.tsetRequest st (memSet n)) s

/-- Yield steps that domain `d` may take (R366). -/
def State.maxSteps (s : State) (d : Nat) : Nat :=
  match d with
  | 0 => 5
  | 1 => 7
  | _ => if s.pwrState = 3 then 12 else if s.pwrState = 4 then 0 else s.freqFloor - s.nominalCode

/-- The domains in the order of PWR_PRIO. -/
def State.prioOrder (s : State) : List Nat := [s.rd F.PWR_PRIO_FIRST, s.rd F.PWR_PRIO_SECOND, s.rd F.PWR_PRIO_LAST]

/-- A domain is above its floor. -/
def State.aboveFloor (s : State) (d : Nat) : Bool := s.rd (F.PWR_DOM_STATUS_POWER d) > s.rd (F.PWR_DOM_FLOOR_FLOOR d)

/-- The domain that yields next: the first in order that is above its floor and has a step left (R366). -/
def State.nextYield (s : State) : Option Nat :=
  s.prioOrder.find? (fun d => s.aboveFloor d && s.steps d < s.maxSteps d)

/-- COMPUTE would step beyond the frequency floor: its turn comes before the domain that yields (R373). -/
def State.computePinned (s : State) : Bool :=
  s.pwrState ≤ 2 && s.aboveFloor 2 && s.steps 2 ≥ s.maxSteps 2 &&
    (match s.nextYield with
     | some d => s.prioOrder.idxOf 2 < s.prioOrder.idxOf d
     | none => true)

/-- Domain `d` yields one step. -/
def State.yieldStep (s : State) (d : Nat) (load : List Nat) : State :=
  let before := s.steps 1
  let s := (s.wr (F.PWR_DOM_STATUS_STEPS d) (s.steps d + 1)).updPwr (fun p => { p with yields := d :: p.yields })
  let s := if d = 1 then s.applyMemory before load else s
  if s.pwrState = 0 || s.pwrState = 2 then s.pwrEnter 1 else s

/-- The domain that yielded last takes back one step (R366); with none left CAPPED ends. -/
def State.takeBack (s : State) : State :=
  match s.pwr.yields with
  | [] => s
  | d :: t =>
    let before := s.steps 1
    let s := (s.subFrom (F.PWR_DOM_STATUS_STEPS d) 1).updPwr (fun p => { p with yields := t })
    let s := if d = 1 then s.applyMemory before [] else s
    let s := if t.isEmpty && s.pwrState = 1 then s.pwrEnter 0 else s
    s.applyCode.applyDuty

/-- The yields of COMPUTE end: the mode changes, so that its steps mean something else (R366, R370). DESIGN CHOICE: log entry 48. -/
def State.clearCompute (s : State) : State :=
  (s.wr (F.PWR_DOM_STATUS_STEPS 2) 0).updPwr (fun p => { p with yields := p.yields.filter (fun d => d ≠ 2) })

/-- NOMINAL, or CAPPED while a domain yields (R369). -/
def State.enterAdaptive (s : State) : State := s.pwrEnter (if s.pwr.yields.isEmpty then 0 else 1)

/-- The code that COMPUTE would have without the cap and without the safety actions of R374. -/
def State.freeCode (s : State) : Nat :=
  match s.pwrState with
  | 2 => 0
  | 3 => 1
  | 4 => 4
  | _ => s.nominalCode

/-- HOLDING_OFF (R385): COMPUTE runs below the divider or the duty that it would have without the cap and without the safety actions of
R374. DESIGN CHOICE: log entry 48. -/
def State.holdingOff (s : State) : State :=
  let h : Bool := min 4 (s.policyCode + s.thermCodes) > s.freeCode || s.dutyNow < 16
  (s.wrB F.PWR_STATUS_HOLDING_OFF h).wrB F.ATL_STATUS_HOLDING_OFF h

/-- The XH9 enters SAVE (R370, R372). -/
def State.enterSave (s : State) : State :=
  if s.pwrState = 4 then s else (s.clearCompute.pwrEnter 4).applyCode.applyDuty.holdingOff

/-- PWRFAIL_N asserted (R370, R387): SAVE and a Keep save. -/
def State.pwrfail (s : State) : State :=
  let s := (s.wrB F.PWR_STATUS_PWRFAIL true).updPwr (fun p => { p with failAt := s.now })
  let s := s.enterSave
  if s.on F.KEEP_CFG_PWRFAIL_EN then s.keepStart 0 else s

/-! ### The cap (R366, R384) -/

/-- The cap in force: a grant or PWR_CAP, clamped to PWR_CAP_LIMIT and never above 1,600 W. DEDUCED: log entry 117. -/
def State.capOf (s : State) (w : Nat) : Nat := min 1600 (min (max w (s.rd F.PWR_CAP_LIMIT_MIN)) (s.rd F.PWR_CAP_LIMIT_MAX))

/-- PWR_CAP_EFF as the grant and PWR_CAP give it. -/
def State.applyCap (s : State) : State :=
  match s.pwr.grant with
  | some (c, _, _) => (s.wr F.PWR_CAP_EFF_CAP (s.capOf c)).wr F.PWR_CAP_EFF_SOURCE 1
  | none => (s.wr F.PWR_CAP_EFF_CAP (s.capOf (s.rd F.PWR_CAP_CAP))).wr F.PWR_CAP_EFF_SOURCE 0

/-- A GRANT that waits is applied at the control interval (R384). -/
def State.applyGrant (s : State) : State :=
  match s.pwr.grantNext with
  | some (c, q) =>
    (s.updPwr (fun p => { p with grant := some (c, q, s.now), grantNext := none })).raise .pwr 0 5
  | none => s

/-! ### Overrides (R374) -/

/-- An OVERRIDE event of kind 0 THERMAL, 1 ILIMIT, 2 DROOP or 3 PACKAGE: counted, logged and raised. -/
def State.override (s : State) (kind detail : Nat) : State :=
  let f := match kind with
    | 0 => F.PWR_OVERRIDE_CNT_THERMAL | 1 => F.PWR_OVERRIDE_CNT_ILIMIT
    | 2 => F.PWR_OVERRIDE_CNT_DROOP | _ => F.PWR_OVERRIDE_CNT_PACKAGE
  ((s.satAdd f 1).raise .pwr 0 3).event notice 0x0383 kind detail

/-- THROTTLE of PWR_THERM_CFG, clamped to 85–105 °C. -/
def State.throttleAt (s : State) : Nat := max 85 (min 105 (s.rd F.PWR_THERM_CFG_THROTTLE))

/-- Tj is at or above THROTTLE. -/
def State.tooHot (s : State) : Bool := s.rd F.PWR_THERM_STATUS_TJ ≥ s.throttleAt

/-- Tj has fallen HYST below THROTTLE. -/
def State.coolEnough (s : State) : Bool :=
  s.rd F.PWR_THERM_STATUS_TJ + max 1 (s.rd F.PWR_THERM_CFG_HYST) ≤ s.throttleAt

/-- The conditions of BOOST hold at a measurement (R371). -/
def State.boostOk (s : State) (r : PwrReading) : Bool :=
  s.on F.PWR_CFG_BOOST_EN && !s.on F.PWR_CFG_MODE && s.freqCeil = 0 &&
    r.trimBoost ≤ min 820 s.voltBounds.2 && s.rd F.PWR_THERM_STATUS_TJ + 5 ≤ s.throttleAt &&
    r.estBoost + s.rd F.PWR_CFG_CAP_HYST ≤ s.rd F.PWR_CAP_EFF_CAP

/-- One step of the thermal throttle at a control interval (R377): a domain yields; after that the duty falls by 1/16, down to 4/16. -/
def State.thermInterval (s : State) (load : List Nat) : State :=
  if !s.on F.PWR_STATUS_THERM_THROTTLE || !s.tooHot then s
  else
    match s.nextYield with
    | some d => (s.yieldStep d load).updPwr (fun p => { p with thermYield := p.thermYield + 1 })
    | none =>
      if s.dutyNow > 4 then (s.updPwr (fun p => { p with thermSteps := false :: p.thermSteps })).override 0 0 else s

/-- What a control interval records of its measurement. DESIGN CHOICE: log entry 49. -/
def State.recordPower (s : State) (r : PwrReading) : State :=
  let s := (s.wr F.PWR_POWER_TOTAL r.power).wr F.PWR_POWER_VCORE r.vcore
  let s := ((s.wr (F.PWR_DOM_STATUS_POWER 0) r.links).wr (F.PWR_DOM_STATUS_POWER 1) r.memory).wr (F.PWR_DOM_STATUS_POWER 2) r.compute
  (List.range 3).foldl (fun s d => s.wrB (F.PWR_DOM_STATUS_AT_FLOOR d) (!s.aboveFloor d)) s

/-- The cap at a control interval (R366): above it a domain yields, and CAP_UNMET tells that none can. DESIGN CHOICE: log entry 48. -/
def State.capInterval (s : State) (r : PwrReading) : State :=
  let cap := s.rd F.PWR_CAP_EFF_CAP
  if r.power > cap then
    let s := s.updPwr (fun p => { p with under := none })
    let s := if s.computePinned then s.pin F.PWR_STATUS_FREQ_PINNED F.PWR_PINNED_CNT_FREQ
             else s.wrB F.PWR_STATUS_FREQ_PINNED false
    match s.nextYield with
    | some d => (s.yieldStep d r.rtLoad).wrB F.PWR_STATUS_CAP_UNMET false
    | none =>
      let was := s.on F.PWR_STATUS_CAP_UNMET
      let s := s.wrB F.PWR_STATUS_CAP_UNMET true
      if was then s else s.raise .pwr 0 1
  else
    let s := (s.wrB F.PWR_STATUS_CAP_UNMET false).wrB F.PWR_STATUS_FREQ_PINNED false
    let low : Bool := r.power + s.rd F.PWR_CFG_CAP_HYST < cap
    s.updPwr (fun p => { p with under := if low then some (p.under.getD s.now) else none })

/-- BOOST at a control interval (R370, R371): it is left at the first at which a condition fails; in NOMINAL the time since which the
conditions hold is kept. -/
def State.boostInterval (s : State) (r : PwrReading) : State :=
  let ok := s.boostOk r
  let s := s.updPwr (fun p => { p with boostFrom := if ok && s.pwrState = 0 then some (p.boostFrom.getD s.now) else none })
  if s.pwrState = 2 && !ok then s.pwrEnter 0 else s

end Sys2Proof.Machine
end

