-- ==== Sys2Proof/Machine/FerryOps.lean ====
section
/-! DEFINITION. Ferry: frames, election, reports and grants (R379 to R385). -/

namespace Sys2Proof.Machine

/-! ### Links and frames -/

/-- The Ferry links: the ports of PWR_FERRY_PORT (R380). -/
def State.ferryPorts (s : State) : List Nat :=
  ((List.range 32).filter (fun k => s.on (F.PWR_FERRY_PORT_VALID k))).map (fun k => s.rd (F.PWR_FERRY_PORT_PORT k))

/-- The TYPE codes of R379. -/
def ferryAnnounce : Nat := 1
/-- REPORT -/
def ferryReport : Nat := 2
/-- GRANT -/
def ferryGrant : Nat := 3
/-- LAG -/
def ferryLag : Nat := 4

/-- A Ferry frame of this XH9 (R379). -/
def State.ferryFrame (s : State) (p type count seq : Nat) (body : Bytes) : Bytes :=
  padFcs (beBytes 6 0x0180C200000E ++ beBytes 6 (s.rd (F.MAC_SA_ADDR p)) ++ beBytes 2 (s.rd F.PWR_FERRY_CFG_ETYPE) ++
    beBytes 1 1 ++ beBytes 1 type ++ beBytes 2 count ++ beBytes 4 (s.rd F.PWR_FERRY_JOB_JOB) ++ beBytes 8 s.fuses.serial ++
    beBytes 4 seq ++ beBytes 4 ((s.domA.sec * 1000000 + s.domA.ns / 1000) % 2 ^ 32) ++ body)

/-- A frame leaves port `p` as a direct frame (R42, R183, R380); R380 names no queue of the port, so its index is a free value. -/
def State.ferryDirect (s : State) (p : Nat) (frame : Bytes) : State :=
  if p ≥ 512 then s
  else
    let (v, s) := s.fresh
    let q := v % 16
    s.admitUnicast { data := frame, md := { egressPort := p, queue := q }, inPort := 0x3FF, host := true, ts := s.stamp 0 0 0 0,
                     tsB := s.stamp 1 0 0 0, t16 := s.now * 16, die := p / 256, src := 0, sub := 0, payOff := 0 } p q

/-- A new frame of `type` leaves on the links `ports`, with the next SEQ of the type. -/
def State.ferrySend (s : State) (ports : List Nat) (type count : Nat) (body : Bytes) : State :=
  let seq := mget s.pwr.seqs type 0
  let s := s.updPwr (fun p => { p with seqs := mset p.seqs type ((seq + 1) % 2 ^ 32) 0 })
  ports.foldl (fun s p => s.ferryDirect p (s.ferryFrame p type count seq body)) s

/-- A frame with the Ferry Ethertype, which the MAC consumes whatever port it arrives on (R380). -/
def State.isFerry (s : State) (frame : Bytes) : Bool := beAt frame 12 2 = s.rd F.PWR_FERRY_CFG_ETYPE

/-- The MAC of port `p` consumes a Ferry frame (R380): whether it is one of this member's job that a trusted Ferry link brought. A frame of
another job, or on another port, is dropped and counted; `coding` tells a block of the coding class. -/
def State.ferryTaken (s : State) (p : Nat) (frame : Bytes) (coding : Bool) : Bool × State :=
  let cls := s.frameClass p frame coding
  let s := s.countClass p frame cls
  let s := if cls.isNone then s.mibRxGood p frame else s
  if cls.isSome then (false, s)
  else if !(s.ferryLink p && s.on (F.PORT_CFG_TRUSTED p)) then (false, s.satAdd F.FERRY_UNTRUSTED_COUNT 1)
  else if beAt frame 18 4 ≠ s.rd F.PWR_FERRY_JOB_JOB then (false, s.satAdd F.FERRY_FOREIGN_COUNT 1)
  else (beAt frame 14 1 = 1, s)

/-- A frame of `type` arrives on port `p` (R380): `none` when it is no such event. -/
def State.ferryRx (s : State) (p type : Nat) (frame : Bytes) : Option (Bool × State) :=
  if s.portState p ≠ 3 || !s.isFerry frame || beAt frame 15 1 ≠ type then none else some (s.ferryTaken p frame false)

/-! ### Election (R381) -/

/-- The PRIO that this XH9 announces: 0 with SOFT_COORD. -/
def State.ownPrio (s : State) : Nat := if s.on F.PWR_FERRY_CFG_SOFT_COORD then 0 else s.rd F.PWR_FERRY_CFG_PRIO

/-- A pair (PRIO, SERIAL) is lower than another. -/
def pairLt (a b : Nat × Nat) : Bool := a.1 < b.1 || (a.1 = b.1 && a.2 < b.2)

/-- The bests that other members announce, with the link of each; PRIO 255 is never chosen. -/
def State.heardBests (s : State) : List (Nat × FerryBest) :=
  (s.pwr.bests.map (fun e => ((Nat.unpair e.1).1, e.2))).filter (fun e => e.2.prio ≠ 255 && e.2.serial ≠ s.fuses.serial)

/-- The lowest pair that the member knows, its own included. -/
def State.bestPair (s : State) : Option (Nat × Nat) :=
  let own := if s.ownPrio = 255 then none else some (s.ownPrio, s.fuses.serial)
  s.heardBests.foldl (fun a e => match a with
    | none => some (e.2.prio, e.2.serial)
    | some b => if pairLt (e.2.prio, e.2.serial) b then some (e.2.prio, e.2.serial) else some b) own

/-- The link on which the best arrived with the fewest HOPS, ties to the lower port. -/
def State.bestLink (s : State) (b : Nat × Nat) : Option (Nat × FerryBest) :=
  (s.heardBests.filter (fun e => (e.2.prio, e.2.serial) = b)).foldl (fun a e => match a with
    | none => some e
    | some x => if e.2.hops < x.2.hops || (e.2.hops = x.2.hops && e.1 < x.1) then some e else some x) none

/-- PWR_FERRY_STATUS and PWR_FERRY_COORD as the known bests give them; a change of coordinator raises its event. -/
def State.ferryUpdate (s : State) : State :=
  let old := s.rd F.PWR_FERRY_COORD_SERIAL
  let set := fun (s : State) (role up coord : Nat) =>
    let s := (s.wr F.PWR_FERRY_STATUS_ROLE role).wr F.PWR_FERRY_STATUS_UP up
    let s := s.wr F.PWR_FERRY_COORD_SERIAL coord
    if coord = old then s else s.raise .pwr 0 6
  if !s.on F.PWR_CFG_FERRY_EN then (set s 0 0x3FF 0).wr F.PWR_FERRY_STATUS_MEMBERS 0
  else
    match s.bestPair with
    | none => set s 3 0x3FF 0
    | some b =>
      match s.bestLink b with
      | some (p, _) => set s 1 p b.2
      | none => set s 2 0x3FF b.2

/-- ROLE: 0 off, 1 member, 2 coordinator, 3 member without a coordinator. -/
def State.ferryRole (s : State) : Nat := s.rd F.PWR_FERRY_STATUS_ROLE

/-- The up link. -/
def State.upLink (s : State) : Nat := s.rd F.PWR_FERRY_STATUS_UP

/-- PERIOD in time ticks, 0 acting as 1 ms. -/
def State.ferryPeriod (s : State) : Nat := max 1 (s.rd F.PWR_FERRY_CTL_PERIOD) * 1600000

/-! ### Reports (R382) -/

/-- The serial of the Ferry member behind a port: the partner that announces Ferry (R102, R105). -/
def State.ferryPartner (s : State) (p : Nat) : Option Nat :=
  if p < 512 && s.on (F.PORT_PARTNER_STATUS_VALID p) && bit (s.rd (F.PORT_PARTNER_PORT_CAP p)) 3 then
    some (s.rd (F.PORT_PARTNER_SERIAL_SERIAL p))
  else none

/-- The entries of a REPORT: serial of the child, session, chunks completed, chunks that the child completed last, and the sum of its
leads in units of 10 ns. -/
def State.reportEntries (s : State) : List (Nat × Nat × Nat × Nat × Nat) :=
  s.atl.live.flatMap (fun n =>
    let mine := s.atl.reports.filter (fun r => r.1 = n)
    (s.members n).filterMap (fun m =>
      if s.memberKind n m = 1 then
        (s.ferryPartner (s.rd (F.ATL_MEMBER_PORT (s.memberIx n m)))).map (fun q =>
          let l := mine.filter (fun r => r.2.1 = m)
          (q, n, mine.length, l.length, l.foldl (fun a r => a + r.2.2) 0 / 16))
      else none))

/-- The body of a REPORT. -/
def State.reportBody (s : State) : Bytes :=
  beBytes 2 (s.rd F.PWR_CAP_EFF_CAP) ++ beBytes 2 (s.rd F.PWR_POWER_TOTAL) ++ beBytes 2 (s.rd F.PWR_CAP_LIMIT_MIN) ++
    beBytes 2 (s.rd F.PWR_CAP_LIMIT_MAX) ++
    beBytes 1 (s.rd F.PWR_STATUS_HOLDING_OFF + 2 * s.rd (F.PWR_DOM_STATUS_AT_FLOOR 2)) ++ beBytes 7 0 ++
    s.reportEntries.flatMap (fun e => beBytes 8 e.1 ++ beBytes 2 e.2.1 ++ beBytes 2 e.2.2.1 ++ beBytes 2 e.2.2.2.1 ++ beBytes 2 0 ++
      beBytes 4 e.2.2.2.2)

/-- An unknown member. -/
def noMember : FerryMember := { cap := 0, power := 0, floor := 0, ceil := 0, at_ := 0, late := 0, lag := false, grant := 0 }

/-- Update what the coordinator knows of member `q`. -/
def State.updMember (s : State) (q : Nat) (f : FerryMember → FerryMember) : State :=
  s.updPwr (fun p => { p with members := minsert p.members q (f (mget p.members q noMember)) })

/-- The leads that an entry adds to the members it names. -/
def State.addLate (s : State) (l : List (Nat × Nat)) : State :=
  l.foldl (fun s e => s.updMember e.1 (fun m => { m with late := m.late + e.2 })) s

/-- The coordinator has seen (SERIAL, TYPE, SEQ) before; otherwise it notes it. -/
def State.ferrySeen (s : State) (k : Nat × Nat × Nat) : Bool × State :=
  if s.pwr.seen.contains k then (true, s) else (false, s.updPwr (fun p => { p with seen := (k :: p.seen).take 1024 }))

/-- The coordinator takes a REPORT (R382, R383). -/
def State.takeReport (s : State) (frame : Bytes) : State :=
  let q := beAt frame 22 8
  match s.ferrySeen (q, ferryReport, beAt frame 30 4) with
  | (true, s) => s
  | (false, s) =>
    let s := s.updMember q (fun m => { m with cap := beAt frame 38 2, power := beAt frame 40 2, floor := beAt frame 42 2,
                                              ceil := beAt frame 44 2, at_ := s.now })
    s.addLate ((List.range (beAt frame 16 2)).map (fun k => (beAt frame (54 + 20 * k) 8, beAt frame (70 + 20 * k) 4)))

/-- The coordinator takes a LAG. -/
def State.takeLag (s : State) (frame : Bytes) : State :=
  let q := beAt frame 22 8
  match s.ferrySeen (q, ferryLag, beAt frame 30 4) with
  | (true, s) => s
  | (false, s) => s.updMember q (fun m => { m with lag := true })

/-- A REPORT or LAG that arrived on link `p` goes on (R381, R382): to host software with SOFT_COORD, to the coordinator's own list, or
up the tree unchanged. -/
def State.ferryUpward (s : State) (p : Nat) (frame : Bytes) (take : State → State) : State :=
  if s.on F.PWR_FERRY_CFG_SOFT_COORD then
    s.admitCpu { data := frame, md := {}, inPort := p, host := false, ts := s.stamp 0 0 0 0, tsB := s.stamp 1 0 0 0,
                 t16 := s.now * 16, die := p / 256, src := 0, sub := 0, payOff := 0 } (s.rd F.PWR_FERRY_CFG_RING)
  else if s.ferryRole = 2 then take s
  else if s.ferryRole = 1 && p ≠ s.upLink then s.ferryDirect s.upLink frame
  else s

/-! ### Moving budget (R383) -/

/-- The members: originators of REPORTs in the last three periods, by serial. -/
def State.activeMembers (s : State) : List (Nat × FerryMember) :=
  s.pwr.members.filter (fun e => e.2.ceil > 0 && s.now < e.2.at_ + 3 * s.ferryPeriod)

/-- The first grant of a member. -/
def firstGrant (total n : Nat) (m : FerryMember) : Nat := min (max (total / max 1 n / 5 * 5) m.floor) m.ceil

/-- A member may take, or give, 5 W. -/
def mayTake (m : FerryMember) : Bool := (m.late > 0 || m.lag) && m.grant + 5 ≤ m.ceil
/-- A member may give 5 W. -/
def mayGive (m : FerryMember) : Bool := m.late = 0 && !m.lag && m.floor + 5 ≤ m.grant

/-- Taker `a` stands before taker `b`: later first, lagging members with late 0 after them, ties by lower serial. -/
def takerLt (a b : Nat × FerryMember) : Bool := a.2.late > b.2.late || (a.2.late = b.2.late && a.1 < b.1)

/-- The first taker. -/
def firstTaker (l : List (Nat × FerryMember)) : Option (Nat × FerryMember) :=
  (l.filter (fun e => mayTake e.2)).foldl (fun a e => match a with
    | none => some e
    | some x => if takerLt e x then some e else some x) none

/-- The donor with the largest unused budget, ties by lower serial. -/
def bestDonor (l : List (Nat × FerryMember)) : Option (Nat × FerryMember) :=
  (l.filter (fun e => mayGive e.2)).foldl (fun a e => match a with
    | none => some e
    | some x =>
      let u : Int := (e.2.grant : Int) - e.2.power
      let v : Int := (x.2.grant : Int) - x.2.power
      if u > v || (u = v && e.1 < x.1) then some e else some x) none

/-- Up to `n` moves of 5 W. -/
def moveBudget (l : List (Nat × FerryMember)) : Nat → List (Nat × FerryMember)
  | 0 => l
  | n + 1 =>
    match firstTaker l, bestDonor l with
    | some t, some d =>
      moveBudget (l.map (fun e =>
        if e.1 = d.1 then (e.1, { e.2 with grant := e.2.grant - 5 })
        else if e.1 = t.1 then (e.1, { e.2 with grant := e.2.grant + 5 }) else e)) n
    | _, _ => l

/-- Entries of 128 at a time. -/
def chunks128 (l : List (Nat × Nat)) : Nat → List (List (Nat × Nat))
  | 0 => []
  | n + 1 => if l.isEmpty then [] else l.take 128 :: chunks128 (l.drop 128) n

/-- GRANT frames with the caps of `l` leave on the links `ports`. -/
def State.sendGrants (s : State) (l : List (Nat × Nat)) : State :=
  (chunks128 l (l.length + 1)).foldl (fun s c =>
    s.ferrySend s.ferryPorts ferryGrant c.length (c.flatMap (fun e => beBytes 8 e.1 ++ beBytes 2 e.2 ++ beBytes 2 0))) s

/-- A GRANT of this XH9's own cap, from `serial` with `seq`, waits for the next control interval, unless it is not newer than the last
applied one (R384). -/
def State.takeGrant (s : State) (serial seq cap : Nat) : State :=
  let last := s.pwr.grant.map (fun g => g.2.1)
  let newer : Bool := match last with
    | none => true
    | some x => x / 2 ^ 32 ≠ serial || (let d := (seq + 2 ^ 32 - x % 2 ^ 32) % 2 ^ 32; 0 < d && d < 2 ^ 31)
  if newer then s.updPwr (fun p => { p with grantNext := some (cap, serial * 2 ^ 32 + seq) }) else s

/-! ### What arrives -/

/-- An ANNOUNCE (R381): the known best of the link, the up link and the coordinator. -/
def State.announceIn (s : State) (p : Nat) (frame : Bytes) : State :=
  let b : FerryBest := { prio := beAt frame 38 1, serial := beAt frame 46 8, hops := beAt frame 39 1 + 1,
                         total := beAt frame 42 4, at_ := s.now }
  (s.updPwr (fun w => { w with bests := minsert w.bests (key2 p (key2 b.prio b.serial)) b })).ferryUpdate

/-- A REPORT (R382, R383). -/
def State.reportIn (s : State) (p : Nat) (frame : Bytes) : State := s.ferryUpward p frame (fun s => s.takeReport frame)

/-- A LAG (R382, R383). -/
def State.lagIn (s : State) (p : Nat) (frame : Bytes) : State := s.ferryUpward p frame (fun s => s.takeLag frame)

/-- A GRANT (R382, R384): one from the up link is sent on each other link, and the entry that names this XH9 is applied at the next control
interval. -/
def State.grantIn (s : State) (p : Nat) (frame : Bytes) : State :=
  if s.ferryRole ≠ 1 || p ≠ s.upLink then s
  else
    let s := (s.ferryPorts.filter (fun x => x ≠ p)).foldl (fun s x => s.ferryDirect x frame) s
    let s := s.ran .ferry 1 s.now
    match (List.range (beAt frame 16 2)).find? (fun k => beAt frame (38 + 12 * k) 8 = s.fuses.serial) with
    | some k => s.takeGrant (beAt frame 22 8) (beAt frame 30 4) (beAt frame (46 + 12 * k) 2)
    | none => s

/-- A Ferry frame that arrived on port `p` in a reception acts as its TYPE says; a reserved TYPE does nothing (R379, R380). -/
def State.ferryArrive (s : State) (p : Nat) (frame : Bytes) (coding : Bool) : State :=
  match s.ferryTaken p frame coding with
  | (false, s) => s
  | (true, s) =>
    match beAt frame 15 1 with
    | 1 => s.announceIn p frame
    | 2 => s.reportIn p frame
    | 3 => s.grantIn p frame
    | 4 => s.lagIn p frame
    | _ => s

end Sys2Proof.Machine
end

