-- ==== Sys2Proof/Machine/Ferry.lean ====
section
/-! DEFINITION. The commands of Ferry (R379 to R385). -/

namespace Sys2Proof.Machine

/-- ANNOUNCE_SEND (R381): every 100 ms on each link, the lowest pair that the member knows. -/
def execAnnounceSend (s : State) : Result :=
  .next (
    if !s.on F.PWR_CFG_FERRY_EN || !s.due .announce 0 160000000 then s
    else
      let s := s.ran .announce 0 s.now
      let own := (s.ownPrio, s.fuses.serial)
      let b := s.bestPair.getD own
      let (hops, total) := match s.bestLink b with
        | some (_, x) => (x.hops, x.total)
        | none => (0, s.rd F.PWR_FERRY_TOTAL_TOTAL)
      s.ferrySend s.ferryPorts ferryAnnounce 0
        (beBytes 1 b.1 ++ beBytes 1 hops ++ beBytes 2 0 ++ beBytes 4 total ++ beBytes 8 b.2))

/-- ANNOUNCE_RECEIVE (R380, R381): the known best of the link, the up link and the coordinator. -/
def execAnnounceReceive (p : Fin 512) (frame : Bytes) (s : State) : Result :=
  .next (
    match s.ferryRx p ferryAnnounce frame with
    | none => s
    | some (false, s) => s
    | some (true, s) => s.announceIn p frame)

/-- BEST_EXPIRE (R381): a known best goes 350 ms after the last ANNOUNCE that carried it. -/
def execBestExpire (s : State) : Result :=
  .next (s.updPwr (fun w => { w with bests := w.bests.filter (fun e => s.now - e.2.at_ < 560000000) })).ferryUpdate

/-- REPORT_SEND (R382): at the end of each period a member reports on its up link. -/
def execReportSend (s : State) : Result :=
  .next (
    if s.ferryRole ≠ 1 || !s.due .report 0 s.ferryPeriod then s
    else
      let s := s.ran .report 0 s.now
      let s := s.ferrySend [s.upLink] ferryReport s.reportEntries.length s.reportBody
      s.updAtl (fun a => { a with reports := [] }))

/-- REPORT_RECEIVE (R380 to R383). -/
def execReportReceive (p : Fin 512) (frame : Bytes) (s : State) : Result :=
  .next (
    match s.ferryRx p ferryReport frame with
    | none => s
    | some (false, s) => s
    | some (true, s) => s.reportIn p frame)

/-- LAG_SEND (R385): every 100 µs while COMPUTE is held back. -/
def execLagSend (s : State) : Result :=
  .next (
    if !s.on F.PWR_STATUS_HOLDING_OFF || s.ferryRole = 0 || !s.due .lag 0 160000 then s
    else
      let s := s.ran .lag 0 s.now
      if s.ferryRole = 1 then
        s.ferrySend [s.upLink] ferryLag 0 (beBytes 2 (s.rd F.PWR_CAP_EFF_CAP) ++ beBytes 2 (s.rd F.PWR_POWER_TOTAL))
      else if s.ferryRole = 2 then s.updMember s.fuses.serial (fun m => { m with lag := true })
      else s)

/-- LAG_RECEIVE (R380 to R383). -/
def execLagReceive (p : Fin 512) (frame : Bytes) (s : State) : Result :=
  .next (
    match s.ferryRx p ferryLag frame with
    | none => s
    | some (false, s) => s
    | some (true, s) => s.lagIn p frame)

/-- GRANT_COMPUTE (R383): at the end of each period the coordinator grants every member an equal share, in its first period and whenever
the members change; later it moves budget from members in time to late ones. -/
def execGrantCompute (s : State) : Result :=
  .next (
    if s.ferryRole ≠ 2 || s.on F.PWR_FERRY_CFG_SOFT_COORD || !s.due .ferry 0 s.ferryPeriod then s
    else
      let s := s.ran .ferry 0 s.now
      let s := s.updMember s.fuses.serial (fun m =>
        { m with cap := s.rd F.PWR_CAP_EFF_CAP, power := s.rd F.PWR_POWER_TOTAL, floor := s.rd F.PWR_CAP_LIMIT_MIN,
                 ceil := s.rd F.PWR_CAP_LIMIT_MAX, at_ := s.now, lag := m.lag || s.on F.PWR_STATUS_HOLDING_OFF })
      let s := (s.addLate (s.reportEntries.map (fun e => (e.1, e.2.2.2.2)))).updAtl (fun a => { a with reports := [] })
      let l := s.activeMembers
      let ids := l.map (fun e => e.1)
      let l := if ids = s.pwr.granted then moveBudget l (s.rd F.PWR_FERRY_CTL_MOVES)
               else l.map (fun e => (e.1, { e.2 with grant := firstGrant (s.rd F.PWR_FERRY_TOTAL_TOTAL) l.length e.2 }))
      let l := l.map (fun e => (e.1, { e.2 with late := 0, lag := false }))
      let s := s.updPwr (fun p => { p with members := l, granted := ids })
      let s := s.wr F.PWR_FERRY_STATUS_MEMBERS l.length
      let seq := mget s.pwr.seqs ferryGrant 0
      let s := s.sendGrants (l.map (fun e => (e.1, e.2.grant)))
      let s := s.ran .ferry 1 s.now
      match l.find? (fun e => e.1 = s.fuses.serial) with
      | some e => s.takeGrant s.fuses.serial seq e.2.grant
      | none => s)

/-- GRANT_RECEIVE (R382, R384): a GRANT from the up link is sent on each other link, and the entry that names this XH9 is applied at the
next control interval. -/
def execGrantReceive (p : Fin 512) (frame : Bytes) (s : State) : Result :=
  .next (
    match s.ferryRx p ferryGrant frame with
    | none => s
    | some (false, s) => s
    | some (true, s) => s.grantIn p frame)

/-- GRANT_REVERT (R384): no GRANT has arrived for REVERT, and the member returns to PWR_CAP. -/
def execGrantRevert (s : State) : Result :=
  .next (
    if s.pwr.grant.isSome && s.due .ferry 1 (max 1 (s.rd F.PWR_FERRY_CTL_REVERT) * 16000000) then
      (s.updPwr (fun p => { p with grant := none, grantNext := none })).applyCap
    else s)

end Sys2Proof.Machine
end

