-- ==== Sys2Proof/Machine/Keep.lean ====
section
/-! DEFINITION. The commands of the Keep domain (R386, R387). -/

namespace Sys2Proof.Machine

/-- Triggers of a save: PWRFAIL_N, VKEEP below 3.0 V, the thermal trip, TEST_SAVE (R387). -/
def State.keepTrigger (s : State) (t : Nat) : State :=
  let en : Bool := match t with
    | 0 => s.on F.KEEP_CFG_PWRFAIL_EN
    | 1 => s.on F.KEEP_CFG_VKEEP_EN
    | 2 => s.on F.KEEP_CFG_THERM_EN
    | _ => true
  if en then s.keepStart t else s

/-- KEEP_SAVE_START (R387, R404): a save trigger that KEEP_CFG enables starts a save. -/
def execKeepSaveStart (trigger : Fin 3) (s : State) : Result := .next (s.keepTrigger trigger)

/-- VKEEP_LOW (R387): VKEEP falls below 3.0 V. -/
def execVkeepLow (mv : Fin 3000) (s : State) : Result := .next ((s.wr F.KEEP_STATUS_VKEEP mv).keepTrigger 1)

/-- TEST_SAVE (R387, R390): writing 1 to KEEP_CFG.TEST_SAVE runs a save at once; it is locked while a save runs. -/
def execTestSave (q : Requester) (s : State) : Result := if !s.grants q true then .next s else
  .next (if s.keep.save.isSome then s.locked q .KEEP_CFG 0 1 else s.keepTrigger 3)

/-- KEEP_SAVE_DONE (R387): the save has completed `n` sections, all seven or fewer, and ends. -/
def execKeepSaveDone (n late : Fin 8) (s : State) : Result := .next (s.keepFinish n late)

/-- KEEP_SHADOW_UPDATE (R386): the time section is refreshed every 1 µs, the wear section every second. -/
def execKeepShadowUpdate (wear : Bool) (s : State) : Result :=
  .next (
    if wear then s.updKeep (fun k => { k with wear := some s.wearSec })
    else s.updKeep (fun k => { k with time := some s.keepTime }))

end Sys2Proof.Machine
end

