-- ==== Sys2Proof/Machine/Lighthouse.lean ====
section
/-! DEFINITION. The commands of Lighthouse (R334 to R359, R453). -/

namespace Sys2Proof.Machine

/-- PPS_OUT falls WIDTH µs after its edge (R356). DESIGN CHOICE: log entry 106. -/
def State.ppsFall (s : State) : State :=
  if s.ranAt .ppsOut 0 ≠ 0 && s.ranAt .ppsOut 0 ≤ s.now then (s.ran .ppsOut 0 0).emit (.pin .ppsOut false) else s

/-- `n` time ticks, with the latch of a Tidemark edge at its tick (R454). -/
def State.tmTicks (s : State) (n : Nat) : State :=
  match s.ras.edge with
  | some e => if e.at_ ≤ s.now + n then ((s.ticks (e.at_ - s.now)).tmLatch e).ticks (n - (e.at_ - s.now)) else s.ticks n
  | none => s.ticks n

/-- TIME_TICK (R324, R334, R337, R356, R454, R455): `n` time ticks pass one after another with nothing else between them. DESIGN CHOICE: log
entry 2. -/
def execTimeTick (n : Nat) (s : State) : Result := .next ((((s.tmTicks n).cntGlobal 0x70 0 n).ppsFall).tmFall)

/-- LIGHT_STEP_GO (R339): GO applies the step that LIGHT_STEP_S, _NS and _FRAC hold at the next tick; a step the state
does not allow is discarded and recorded. -/
def execLightStepGo (q : Requester) (d : Fin 2) (s : State) : Result := if !s.grants q false then .next s else
  .next (
    if s.stepAllowed d then
      (s.acceptStep d { abs := s.on (F.LIGHT_STEP_CTL_KIND d), s := s.rd (F.LIGHT_STEP_S_S d),
                        ns := s.rd (F.LIGHT_STEP_NS_NS d), frac := s.rd (F.LIGHT_STEP_FRAC_FRAC d) }).wr
        (F.LIGHT_STEP_CTL_RESULT d) 1
    else
      (((s.wr (F.LIGHT_STEP_CTL_RESULT d) 2).raise .light 0 2).locked q .LIGHT_STEP_CTL d (s.lightState d)))

/-- A write of LIGHT_CTL.REQ: an allowed request changes the state, any other is discarded and recorded (R342). -/
def State.lightReq (s : State) (q : Requester) (d req : Nat) : State :=
  if reqAllowed (s.lightState d) req then s.applyReq d req else s.locked q .LIGHT_CTL d (s.lightState d)

/-- LIGHT_REQ_ACQUIRE (R342). -/
def execLightReqAcquire (q : Requester) (d : Fin 2) (s : State) : Result := if !s.grants q false then .next s else .next (s.lightReq q d 1)

/-- LIGHT_REQ_LOCKED (R342). -/
def execLightReqLocked (q : Requester) (d : Fin 2) (s : State) : Result := if !s.grants q false then .next s else .next (s.lightReq q d 2)

/-- LIGHT_REQ_FREE (R342). -/
def execLightReqFree (q : Requester) (d : Fin 2) (s : State) : Result := if !s.grants q false then .next s else .next (s.lightReq q d 3)

/-- LIGHT_SNAP (R334): SNAP copies the time to LIGHT_SNAP at one tick. -/
def execLightSnap (d : Fin 2) (s : State) : Result :=
  .next (((s.wr (F.LIGHT_SNAP_S_S d) (s.dom d).sec).wr (F.LIGHT_SNAP_NS_NS d) (s.dom d).ns).wr
    (F.LIGHT_SNAP_FRAC_FRAC d) (s.dom d).frac16)

/-- LIGHT_KICK (R343): the watchdog counts from this write. -/
def execLightKick (d : Fin 2) (s : State) : Result := .next (s.setDom d { s.dom d with wdFrom := s.now })

/-- LIGHT_RATE_ADJ_WRITE (R335, R336, R343, R360): the clamped rate takes effect at the next tick and the watchdog
restarts; in DIRECT mode the register is locked. -/
def execLightRateAdjWrite (q : Requester) (d : Fin 2) (adj : BitVec 40) (s : State) : Result := if !s.grants q false then .next s else
  .next (
    if s.on (F.LIGHT_CTL_MODE d) then
      if s.rd (F.LIGHT_RATE_ADJ_ADJ d) = adj.toNat then s else s.locked q .LIGHT_RATE_ADJ d 1
    else
      (s.setDom d { s.dom d with wdFrom := s.now }).wr (F.LIGHT_RATE_ADJ_ADJ d) (trunc 40 (clampAdj adj.toInt)))

/-- LIGHT_INCR as it reads: in NATIVE mode the effective increment (the LIGHT_INCR table). -/
def State.incrRead (s : State) (d : Nat) : Nat :=
  if s.on (F.LIGHT_CTL_MODE d) then s.rd (F.LIGHT_INCR_INCR d) else (s.dom d).eff / 2 ^ 24 % 2 ^ 40

/-- LIGHT_INCR_WRITE (R336, R360): in DIRECT mode the increment from the next tick; locked in NATIVE mode. -/
def execLightIncrWrite (q : Requester) (d : Fin 2) (incr : BitVec 40) (s : State) : Result := if !s.grants q false then .next s else
  .next (
    if s.on (F.LIGHT_CTL_MODE d) then s.wr (F.LIGHT_INCR_INCR d) incr.toNat
    else if s.incrRead d = incr.toNat then s
    else s.locked q .LIGHT_INCR d 1)

/-- LIGHT_MODE_WRITE (R338, R360): MODE changes only in FREE; a change from NATIVE to DIRECT loads LIGHT_INCR with the
effective increment of the last tick, cut to 40 bits. -/
def execLightModeWrite (q : Requester) (d : Fin 2) (mode : Bool) (s : State) : Result := if !s.grants q false then .next s else
  .next (
    if s.on (F.LIGHT_CTL_MODE d) = mode then s
    else if s.lightState d ≠ 0 then s.locked q .LIGHT_CTL d (s.lightState d)
    else
      let s := if mode then s.wr (F.LIGHT_INCR_INCR d) ((s.dom d).eff / 2 ^ 24) else s
      s.wrB (F.LIGHT_CTL_MODE d) mode)

/-- WATCHDOG_EXPIRE (R343): a LOCKED domain whose SRC watches the watchdog loses its master when the time has run out. -/
def execWatchdogExpire (d : Fin 2) (s : State) : Result :=
  .next (if s.lightState d = 2 && bit (s.rd (F.LIGHT_CTL_SRC d)) 0 && s.wdExpired d then s.loseMaster d else s)

/-- PPS_IN_EDGE (R343, R357): an edge at least 500 ms after the last accepted one is accepted; with EN it is timestamped in
both domains, `sub` sixteenths into the tick. -/
def execPpsInEdge (sub : Fin 16) (s : State) : Result :=
  .next (
    if s.ppsLast.any (fun t => s.now - t < 800000000) then s
    else
      let mark (x : Dom) : Dom := { x with ppsFromS := s.domA.sec, ppsFromNs := s.domA.ns }
      let s := { s with ppsLast := some s.now, domA := mark s.domA, domB := mark s.domB }
      if s.on F.LIGHT_PPS_IN_CFG_EN then
        let overrun := s.ppsUnread
        let s := s.wr (F.LIGHT_PPS_IN_TS_TS 0) (s.domA.ts64 sub)
        let s := s.wr (F.LIGHT_PPS_IN_TS_TS 1) (s.domB.ts64 sub)
        let s := { s.wrB F.LIGHT_PPS_IN_STAT_VALID true with ppsUnread := true }
        if overrun then (s.wrB F.LIGHT_PPS_IN_STAT_OVERRUN true).raise .light 0 6 else s
      else s)

/-- PPS_IN_MISS (R343): a LOCKED domain whose SRC watches PPS_IN loses its master when MISS seconds have passed. -/
def execPpsInMiss (d : Fin 2) (s : State) : Result :=
  .next (if s.lightState d = 2 && bit (s.rd (F.LIGHT_CTL_SRC d)) 1 && s.ppsMissed d then s.loseMaster d else s)

/-- PPS_OUT_EDGE (R356): PPS_OUT rises at each whole second of its domain, shifted by OFFSET sixteenths of a tick. DESIGN CHOICE: log entry
106. -/
def execPpsOutEdge (s : State) : Result :=
  .next (
    if s.on F.LIGHT_PPS_OUT_CFG_EN &&
        (s.dom (s.rd F.LIGHT_PPS_OUT_CFG_DOMAIN)).atSecond (sext 16 (s.rd F.LIGHT_PPS_OUT_CFG_OFFSET) * 2560 * 2 ^ 40)
    then (s.ran .ppsOut 0 (s.now + s.rd F.LIGHT_PPS_OUT_CFG_WIDTH * 1600)).emit (.pin .ppsOut true) else s)

/-- TEN_MHZ_PHASE (R358): at a whole second of domain A the phase to the next 10 MHz edge is recorded. -/
def execTenMhzPhase (phase : Fin 2560) (s : State) : Result :=
  .next (
    if s.domA.atSecond 0 then
      (s.wr F.LIGHT_10M_PHASE_PHASE phase.val).wrB F.LIGHT_10M_PHASE_VALID true
    else s)

/-- The oldest entry leaves a TX timestamp FIFO and its other words are latched (R355); an empty FIFO returns VALID 0. -/
def State.tsfPop (s : State) (i : Nat) : Nat × State :=
  match mget s.tsf i [] with
  | [] => (0, s)
  | e :: t =>
    let s := { s with tsf := mset s.tsf i t [], tsfLatch := mset s.tsfLatch i (e.w1, e.ts) (0, 0) }
    (e.w0, s.wr (F.LIGHT_TSF_STATUS_COUNT i) t.length)

/-- TSF_POP (R355). -/
def execTsfPop (q : Requester) (i : Fin 16) (s : State) : Result := if !s.grants q false then .next s else
  .next ((s.tsfPop i).2.emit (.readData q (regAddr .LIGHT_TSF_POP (4 * i)) 4 (s.tsfPop i).1))

/-- TIME_COMPARE_FIRE (R453): domain A has reached the armed time, or was stepped past it. ARM clears and the Tidemark
source fires. -/
def execTimeCompareFire (s : State) : Result :=
  .next (
    if s.on F.LIGHT_TM_CMP_NS_ARM &&
        s.cmpAt.any (fun t => t.1 * 1000000000 + t.2 ≤ s.domA.sec * 1000000000 + s.domA.ns) then
      let s := { s with cmpAt := none }.wrB F.LIGHT_TM_CMP_NS_ARM false
      (s.raise .light 0 7).tidemark 1 0
    else s)

end Sys2Proof.Machine
end

