-- ==== Sys2Proof/Machine/Power.lean ====
section
/-! DEFINITION. The commands of the power manager (R363 to R378). -/

namespace Sys2Proof.Machine

/-- DIVIDER_SWITCH (R363, R376): VCORE is sensed at `mv`, and a pending change whose conditions hold switches. -/
def execDividerSwitch (mv : Fin 1024) (s : State) : Result :=
  .next (if s.divReady mv then (s.wr F.PWR_POWER_VCORE mv).divSwitch else s)

/-- POWER_CONTROL_INTERVAL (R366, R368, R370, R371, R373, R377, R384, R385): every 10 µs. -/
def execPowerControlInterval (r : PwrReading) (s : State) : Result :=
  .next (
    if !s.due .control 0 16000 then s
    else
      let s := (s.ran .control 0 s.now).recordPower r
      let s := s.applyGrant.applyCap
      let s := s.boostInterval r
      let s := s.capInterval r
      let s := s.thermInterval r.rtLoad
      let s := if s.pwr.voltBeyond then s else s.wrB F.PWR_STATUS_VOLT_PINNED false
      let s := s.applyMemory (s.steps 1) r.rtLoad
      let s := s.updPwr (fun p => { p with phase := (p.phase + 1) % 8 })
      s.applyXoff.applyCode.applyDuty.holdingOff)

/-- CAP_TAKEBACK (R366, R370): power has stayed below the cap less CAP_HYST for 1 ms, and the domain that yielded last takes back one
step; what the thermal throttle took is released by it alone. -/
def execCapTakeback (s : State) : Result :=
  .next (
    match s.pwr.under with
    | some t =>
      if s.now - t ≥ 1600000 && s.due .takeback 0 1600000 && s.pwr.yields.length > s.pwr.thermYield then
        (s.ran .takeback 0 s.now).takeBack.holdingOff
      else s
    | none => s)

/-- BOOST_ENTRY (R370, R371): in NOMINAL the conditions have held for 100 µs. -/
def execBoostEntry (s : State) : Result :=
  .next (
    match s.pwr.boostFrom with
    | some t => if s.pwrState = 0 && s.now - t ≥ 160000 then (s.pwrEnter 2).applyCode else s
    | none => s)

/-- PWR_MODE_WRITE (R370, R390): MODE is locked in SAVE. -/
def execPwrModeWrite (q : Requester) (mode : Bool) (s : State) : Result := if !s.grants q true then .next s else
  .next (
    if s.on F.PWR_CFG_MODE = mode then s
    else if s.pwrState = 4 then s.locked q .PWR_CFG 0 4
    else
      let s := (s.wrB F.PWR_CFG_MODE mode).clearCompute
      let s := if mode then s.pwrEnter 3 else s.enterAdaptive
      s.applyCode.applyDuty.holdingOff)

/-- PWR_SAVE_WRITE (R370, R372): SAVE set to 1 enters SAVE. -/
def execPwrSaveWrite (q : Requester) (save : Bool) (s : State) : Result := if !s.grants q true then .next s else
  .next (
    let s := s.wrB F.PWR_CFG_SAVE save
    if save then s.enterSave else s)

/-- PWRFAIL_ASSERT (R370, R387, R491). -/
def execPwrfailAssert (s : State) : Result := .next s.pwrfail

/-- VR_ALERT (R487): the regulator's fault acts as PWRFAIL_N. -/
def execVrAlert (s : State) : Result := .next s.pwrfail

/-- SAVE_EXIT (R370): SAVE is 0 and PWRFAIL_N has been deasserted for 10 ms. -/
def execSaveExit (s : State) : Result :=
  .next (
    if s.pwrState ≠ 4 || s.on F.PWR_CFG_SAVE || (s.on F.PWR_STATUS_PWRFAIL && s.now - s.pwr.failAt < 16000000) then s
    else
      let s := s.wrB F.PWR_STATUS_PWRFAIL false
      let s := (s.pwr.yields.foldl (fun s _ => s.takeBack) s).updPwr (fun p => { p with thermYield := 0 })
      let s := s.pwrEnter (if s.on F.PWR_CFG_MODE then 3 else 0)
      s.applyCode.applyDuty.holdingOff)

/-- VOLT_TRIM (R373): every 100 µs the margin that the detectors measure asks for a step of 5 mV, `some true` up, or none. -/
def execVoltTrim (want : Option Bool) (s : State) : Result :=
  .next (
    if !s.due .trim 0 160000 then s
    else
      let s := s.ran .trim 0 s.now
      match want with
      | none => s.updPwr (fun p => { p with voltBeyond := false })
      | some up => s.voltTarget ((s.pwr.target : Int) + (if up then 5 else -5)))

/-- DROOP_DETECT (R374 to R376): a detector fires. The core clock is stretched, or the stretch goes on; a pending faster change waits.
DESIGN CHOICE: log entry 106. -/
def execDroopDetect (det : Fin 64) (s : State) : Result :=
  .next (
    let s := s.updPwr (fun p => { p with droopAt := some s.now })
    let s := if s.rd F.CLK_CORE_PENDING < s.rd F.CLK_CORE_DIV then s.wrB F.CLK_CORE_DEFERRED_BY_DROOP true else s
    if s.on F.CLK_CORE_STRETCH then s
    else
      let s := (s.wrB F.CLK_CORE_STRETCH true).updPwr (fun p => { p with stretchAt := s.now })
      ((s.satAdd F.PWR_DROOP_CNT_COUNT 1).cntGlobal 0x68 0 1).override 2 det)

/-- DROOP_STRETCH_END (R375): MIN_CYCLES stretched core clocks have passed, and no detector has fired in the last 64. -/
def execDroopStretchEnd (s : State) : Result :=
  .next (
    let h := stretchHalves (s.rd F.CLK_CORE_DIV)
    if s.on F.CLK_CORE_STRETCH && (s.now - s.pwr.stretchAt) * 8 ≥ max 64 (s.rd F.PWR_DROOP_CFG_MIN_CYCLES) * h &&
        (s.now - s.pwr.droopAt.getD 0) * 8 ≥ 64 * h then s.wrB F.CLK_CORE_STRETCH false
    else s)

/-- CURRENT_LIMIT (R374): the VCORE current is at or above PWR_IMAX, or the package has drawn more than 1,600 W for 10 µs. -/
def execCurrentLimit (amps watts : Nat) (s : State) : Result :=
  .next (
    let cur : Bool := amps ≥ min 1000 (s.rd F.PWR_IMAX_IMAX)
    if !cur && watts ≤ 1600 then s
    else
      let was := s.on F.PWR_STATUS_ILIMIT
      let s := ((s.wrB F.PWR_STATUS_ILIMIT true).updPwr (fun p => { p with dutyLimit := 4, limitAt := s.now })).applyDuty.holdingOff
      if was then s else s.override (if cur then 1 else 3) 0)

/-- DUTY_RISE (R374): while the trigger stays clear the duty of the current limit rises by 1/16 every 10 µs. -/
def execDutyRise (s : State) : Result :=
  .next (
    if !s.on F.PWR_STATUS_ILIMIT || s.now - s.pwr.limitAt < 16000 then s
    else
      let d := s.pwr.dutyLimit + 1
      let s := (s.updPwr (fun p => { p with dutyLimit := min 16 d, limitAt := s.now })).applyDuty.holdingOff
      if d ≥ 16 then s.wrB F.PWR_STATUS_ILIMIT false else s)

/-- The hottest of the sensors, and its number. -/
def hottest (l : List Nat) : Nat × Nat :=
  let m := l.foldl max 0
  (m, l.idxOf m)

/-- THERMAL_READ (R377, R378, R438): every 100 µs. At THROTTLE the throttle starts; at 115 °C the XH9 trips. DESIGN CHOICE: log entry 49. -/
def execThermalRead (temps : List (Fin 256)) (s : State) : Result :=
  .next (
    if !s.due .thermal 0 160000 || temps.length ≠ 128 then s
    else
      let t := temps.map (fun x => x.val)
      let s := s.ran .thermal 0 s.now
      let s := (List.range 128).foldl (fun s n => s.wr (F.PWR_SENSOR_TEMP n) (t.getD n 0)) s
      let s := (s.wr F.PWR_THERM_STATUS_TJ (hottest t).1).wr F.PWR_THERM_STATUS_SENSOR (hottest t).2
      let s :=
        if s.tooHot && !s.on F.PWR_STATUS_THERM_THROTTLE then
          ((s.wrB F.PWR_STATUS_THERM_THROTTLE true).raise .pwr 0 4).ran .throttle 0 s.now
        else s
      if (hottest t).1 ≥ 115 && !s.thermTrip then
        let s := { s with thermTrip := true }.emit (.pin .thermtripN false)
        let s := s.event fatal (codeOf .pwr 0 4) (hottest t).2 (hottest t).1
        if s.on F.KEEP_CFG_THERM_EN then s.keepStart 2 else s
      else s)

/-- THROTTLE_STEP (R377): each millisecond the throttle slows the divider by one code, after the domains and the duty have given what
they can; or it releases its last step once Tj has fallen HYST below THROTTLE. -/
def execThrottleStep (s : State) : Result :=
  .next (
    if !s.on F.PWR_STATUS_THERM_THROTTLE || !s.due .throttle 0 1600000 then s
    else
      let s := s.ran .throttle 0 s.now
      if s.tooHot then
        if s.dutyNow = 4 && s.nextYield.isNone && s.policyCode + s.thermCodes < 4 then
          let s := s.updPwr (fun p => { p with thermSteps := true :: p.thermSteps })
          let below : Bool := s.policyCode + s.thermCodes > s.freqFloor
          (s.override 0 (if below then 1 else 0)).applyCode.holdingOff
        else s
      else if s.coolEnough then
        match s.pwr.thermSteps with
        | _ :: t => (s.updPwr (fun p => { p with thermSteps := t })).applyCode.applyDuty.holdingOff
        | [] =>
          if s.pwr.thermYield > 0 && !s.pwr.yields.isEmpty then
            (s.updPwr (fun p => { p with thermYield := p.thermYield - 1 })).takeBack.holdingOff
          else (s.updPwr (fun p => { p with thermYield := 0 })).wrB F.PWR_STATUS_THERM_THROTTLE false
      else s)

/-- AGEING_MEASURE (R378): once a second the 256 monitors report their delay change; the wear section keeps it (R386). -/
def execAgeingMeasure (values : List (Fin 65536)) (s : State) : Result :=
  .next (
    if !s.due .age 0 1600000000 || values.length ≠ 256 then s
    else
      let s := s.ran .age 0 s.now
      let v := values.map (fun x => x.val)
      (List.range 256).foldl (fun s n =>
        let x := v.getD n 0
        let a := mget s.ras.ages n {}
        { (s.wr (F.PWR_AGE_DELAY n) x) with
          ras := { s.ras with ages := minsert s.ras.ages n { a with now := x, largest := max a.largest x } } }) s)

end Sys2Proof.Machine
end

