-- ==== Sys2Proof/Machine/Egress.lean ====
section
/-! DEFINITION. The end of an egress pipeline and the MAC's transmit side: ECN (R188), IOAM (R316, R317), timestamp actions (R351,
R352), postcards and flow records (R313, R318). -/

namespace Sys2Proof.Machine

/-! ### Checksums -/

/-- A checksum after the bytes that it covers have changed from sum `o` to sum `n`, in ones' complement. -/
def sumUpdate (c o n : Nat) : Nat := 65535 - ((65535 - c) + n + 65535 * (o + 1) - o) % 65535

/-- The checksums that the program names, after `added` bytes have been inserted at `ins` and other bytes changed (R317). A UDP
checksum of 0 stays 0. -/
def fixSums (l : List SumAt) (old new : Bytes) (ins added : Nat) : Bytes :=
  l.foldl (fun b c =>
    let move (o : Nat) : Nat := if ins ≤ o then o + added else o
    let inside : Bool := c.start < ins && ins ≤ c.start + c.len
    let v := beAt old c.off 2
    let o := sum16 (slice old c.start c.len)
    let n := sum16 (slice new (move c.start) (c.len + if inside then added else 0)) + if c.pseudo then added else 0
    if v = 0 && c.pseudo then b else patch b (move c.off) (beBytes 2 (sumUpdate v o n))) new

/-- The UDP checksum of a frame after its bytes have changed: updated for IPv6, and for IPv4 unless it is 0 (R351). -/
def fixUdp (old new : Bytes) : Bytes :=
  match udpView old with
  | none => new
  | some v =>
    let c := beAt old (v.udpOff + 6) 2
    if !v.v6 && c = 0 then new
    else patch new (v.udpOff + 6)
      (beBytes 2 (sumUpdate c (sum16 (slice old v.udpOff v.udpLen)) (sum16 (slice new v.udpOff v.udpLen))))

/-! ### The egress pipeline's changes -/

/-- The IP ECN field is set to CE, and the IPv4 header checksum updated (R188). -/
def setCe (b : Bytes) : Bytes :=
  let o := etherOff b + 2
  match beAt b (o - 2) 2 with
  | 0x0800 =>
    let w := beAt b o 2
    let w' := w ||| 3
    patch (patch b o (beBytes 2 w')) (o + 10) (beBytes 2 (sumUpdate (beAt b (o + 10) 2) w w'))
  | 0x86DD => patch b (o + 1) (beBytes 1 (beAt b (o + 1) 1 ||| 0x30))
  | _ => b

/-- The outgoing TTL or Hop Limit; 0xFF where the frame has none. -/
def hopLimit (b : Bytes) : Nat :=
  let o := etherOff b + 2
  match beAt b (o - 2) 2 with
  | 0x0800 => beAt b (o + 8) 1
  | 0x86DD => beAt b (o + 7) 1
  | _ => 0xFF

/-- Domain A time at ingress in units of 2^−16 ns since the epoch of the domain, from the TS64 that the packet carries. -/
def State.ingressTime (s : State) (ts : Nat) : Nat :=
  let nowT := (s.domA.sec * 1000000000 + s.domA.ns) * 2 ^ 16 + s.domA.frac16
  nowT - (nowT + 2 ^ 64 - ts % 2 ^ 64) % 2 ^ 64

/-- The data of Trace-Type bit `b` for a frame (R316). PRESUMED: log entry 56. -/
def State.ioamField (s : State) (t : TxFrame) (body : Bytes) (b : Nat) : Bytes :=
  let ing := s.ingressTime t.ts / 2 ^ 16
  let half := match mfind s.path.pkts t.pkt with
    | some x => if t.deep then x.backHalf else x.half
    | none => t.port / 256
  match b with
  | 0 => beBytes 1 (hopLimit body) ++ beBytes 3 (s.rd F.TEL_IOAM_NODE_NODE)
  | 1 => beBytes 2 t.inPort ++ beBytes 2 t.port
  | 2 => beBytes 4 (ing / 1000000000)
  | 3 => beBytes 4 (ing % 1000000000)
  | 4 => beBytes 4 0
  | 5 => beBytes 4 t.md.egressMeta
  | 6 => beBytes 4 (min t.depth 0xFFFFF)
  | 8 => beBytes 1 (hopLimit body) ++ beBytes 7 (s.rd F.TEL_IOAM_NODE_W_NODE)
  | 9 => beBytes 4 t.inPort ++ beBytes 4 t.port
  | 10 => beBytes 8 t.md.egressMeta
  | 11 => beBytes 4 (s.used half 0 + s.used half 1 + s.used half 2)
  | _ => []

/-- Trace-Type bit `b` is set; bit 0 is the first on the wire (RFC 9197). -/
def traceBit (ty b : Nat) : Bool := bit ty (23 - b)

/-- The node data of a frame, and the offset in it of the transit delay (R316, R317). PRESUMED: log entry 56. -/
def State.ioamData (s : State) (t : TxFrame) (body : Bytes) (ty : Nat) : Bytes × Option Nat :=
  (List.range 12).foldl (fun r b =>
    if traceBit ty b then (r.1 ++ s.ioamField t body b, if b = 4 then some r.1.length else r.2) else r) ([], none)

/-- MAX_LEN of a port, clamped to 64–16,000. -/
def State.maxLen (s : State) (p : Nat) : Nat := max 64 (min 16000 (s.rd (F.MAC_RX_CFG_MAX_LEN p)))

/-- The trace option after the egress pipeline (R317): node data with RemainingLen reduced by it, or the O flag alone where there is no
room. The answer names the offset of the transit delay, and whether data was written. PRESUMED: log entry 56. -/
def State.addIoam (s : State) (t : TxFrame) (a : IoamAt) (body : Bytes) : Bytes × Option Nat × Bool :=
  let h := beAt body a.off 4
  let ty := beAt body (a.off + 4) 3
  let (d, dl) := s.ioamData t body ty
  let n := d.length / 4
  let rest := h % 128
  let h0 := if (7 :: (List.range 11).map (fun k => 12 + k)).any (traceBit ty) then h ||| 2 ^ 10 else h
  if n > rest || (a.incremental && body.length + d.length + 4 > s.maxLen t.port) then
    let b := patch body a.off (beBytes 4 (h ||| 2 ^ 10))
    (fixSums a.sums body b b.length 0, none, false)
  else
    let b := patch body a.off (beBytes 4 (h0 - n))
    if a.incremental then
      let ins := a.off + 8
      let b := b.take ins ++ d ++ b.drop ins
      let b := a.lens.foldl (fun b o =>
        let o' := if ins ≤ o then o + d.length else o
        patch b o' (beBytes 2 (beAt b o' 2 + d.length))) b
      (fixSums a.sums body b ins d.length, dl.map (fun k => ins + k), true)
    else
      let o := a.off + 8 + 4 * (rest - n)
      let b := patch b o d
      (fixSums a.sums body b b.length 0, dl.map (fun k => o + k), true)

/-- A frame as it leaves the egress pipeline: rewritten, marked, with its trace data, its FCS recomputed (R96, R188, R317). -/
def State.egressFrame (s : State) (t : TxFrame) : TxFrame :=
  let w := t.work
  let body := w.rewrite.getD (t.data.take (t.data.length - 4))
  let body := if t.ce then setCe body else body
  let r := match w.ioam with
    | some a => if t.ioam then s.addIoam t a body else (body, none, false)
    | none => (body, none, false)
  { t with data := padFcs r.1, delayAt := r.2.1, ioam := r.2.2, ptp := t.ptp.orElse (fun _ => w.ptp) }

/-! ### The end of an egress pipeline -/

/-- The oldest frame of an egress pipeline's stages (R139), once its cells have all been read; the frames that the fence holds have left
them. DESIGN CHOICE: log entry 54. -/
def readyAt (l : List TxFrame) : Option Nat :=
  match l.findIdx? (fun t => t.heldAt.isNone) with
  | some k => if (l[k]?).any (fun t => t.owed = 0) then some k else none
  | none => none

/-- EGRESS_EXIT (R139, R166): the oldest packet of egress pipeline `x` of island `i` leaves stage 24, as its program has rewritten it, and
goes to the MAC. A FENCED reserve holds it while the target still has a frame for its port. DESIGN CHOICE: log entry 54. -/
def execEgressExit (i : Fin 16) (x : Fin 5) (s : State) : Result :=
  .next (
    let y := 10 * i.val + 5 + x.val
    let l := mget s.path.eg y []
    match (readyAt l).bind (fun k => (l[k]?).map (fun t => (k, t))) with
    | none => s
    | some (k, t) =>
      let t := s.egressFrame t
      let out (s : State) : State := s.updPath (fun z => { z with eg := mset z.eg y (l.eraseIdx k) [] })
      match s.pipeSwap i 1 with
      | none => (out s).toMac i (5 + x) t
      | some sw =>
        if 5 + x.val = sw.resv && s.pipeState y = 3 &&
            (mget s.path.eg (10 * i.val + sw.target) []).any (fun u => u.port = t.port) then
          s.updPath (fun z => { z with eg := mset z.eg y (l.set k { t with heldAt := some s.now }) [] })
        else
          let s := (out s).toMac i (5 + x) t
          if 5 + x.val = sw.target && (mget s.path.eg y []).all (fun u => u.port ≠ t.port) then s.releaseEgress i t.port else s)

/-! ### The MAC -/

/-- Time of a domain in units of 2^−16 ns since its epoch, `age` ticks before the present tick and `sub` sixteenths after that tick's
start, with a delay of `delay` ps. -/
def State.fullTime (s : State) (d age sub : Nat) (delay : Int) : Nat :=
  let x := s.dom d
  (((x.total / 2 ^ 40 : Nat) : Int) - ((age * x.eff / 2 ^ 40 : Nat) : Int) + ((sub * 2560 : Nat) : Int) + psUnits delay).toNat

/-- The timestamp of R351 for originTimestamp: 48 bits of seconds and 32 bits of ns, the fraction rounded to the nearest ns. -/
def originBytes (t : Nat) : Bytes :=
  let ns := (t + 2 ^ 15) / 2 ^ 16
  beBytes 6 (ns / 1000000000) ++ beBytes 4 (ns % 1000000000)

/-- The correction of action TC in units of 2^−16 ns (R352). DEDUCED: log entry 55. -/
def State.tcAdd (s : State) (t : TxFrame) (d at16 msg : Nat) : Int :=
  let res := at16 - t.t16
  let conv : Nat := (res * (s.dom d).eff + 2 ^ 43) / 2 ^ 44
  let tx := sext 16 (s.rd (F.LIGHT_PORT_DELAY_TX_DELAY t.port))
  let rx := if t.inPort < 512 then sext 16 (s.rd (F.LIGHT_PORT_DELAY_RX_DELAY t.inPort)) else 0
  let pd := if s.on (F.LIGHT_PORT_CFG_TC_MODE t.port) && msg = 0 && t.inPort < 512 then s.rd (F.LIGHT_PORT_PDELAY_DELAY t.inPort) else 0
  (conv : Int) + psUnits (tx - rx) + (pd : Int)

/-- The timestamp action at the MAC (R351 to R354): the frame without FCS, and the state. `age` and `sub` place the frame's first bit.
DEDUCED: log entry 55. -/
def State.ptpAction (s : State) (t : TxFrame) (body : Bytes) (age sub : Nat) : Bytes × State :=
  match t.ptp with
  | none => (body, s)
  | some (act, off) =>
    let p := t.port
    let act := if act = 1 then (if s.on (F.LIGHT_PORT_CFG_TWO_STEP_EN p) then 1 else 0)
      else if s.on (F.LIGHT_PORT_CFG_ONE_STEP_EN p) then act else 0
    let need := ([0, 32, 44, 16] : List Nat).getD act 0
    if act = 0 then (body, s)
    else if off + need > body.length then (body, s.satAdd (F.LIGHT_TS_BADOFF_COUNT p) 1)
    else
      let d := s.rd (F.LIGHT_PORT_CFG_DOMAIN p)
      let delay := sext 16 (s.rd (F.LIGHT_PORT_DELAY_TX_DELAY p))
      let msg := beAt body off 1 % 16
      match act with
      | 1 => (body, s.tsfCapture p msg d (beAt body (off + 4) 1) (beAt body (off + 30) 2) (s.stamp d age sub delay))
      | 2 => (fixUdp body (patch body (off + 34) (originBytes (s.fullTime d age sub delay))), s)
      | _ =>
        let v := sext 64 (beAt body (off + 8) 8) + s.tcAdd t d ((s.now - age) * 16 + sub) msg
        (fixUdp body (patch body (off + 8) (beBytes 8 (trunc 64 (min v (2 ^ 63 - 1))))), s)

/-- The transit delay of R317: whole ns in 31 bits, bit 31 on overflow. DEDUCED: log entry 55. -/
def transitField (lat : Nat) : Nat := if lat / 2 ^ 16 < 2 ^ 31 then lat / 2 ^ 16 else 2 ^ 32 - 1

/-- What the cells that a transmission reads show (R174): the events of `errs` (cell, uncorrectable), and the first uncorrectable cell. -/
def State.txErrors (s : State) (t : TxFrame) (errs : List (Nat × Bool)) : Option Nat × State :=
  errs.foldl (fun r e =>
    match t.cells[e.1]? with
    | none => r
    | some a => (if e.2 && r.1.all (fun j => e.1 < j) then some e.1 else r.1, r.2.cellError (cellBank a) e.2 false)) (none, s)

/-- A frame that breaks off at cell `j`: it ends with an error block and counts as one (R174, R321). Other copies of its packet are dropped when
they are read. -/
def State.cutFrame (s : State) (p : Nat) (t : TxFrame) (j : Nat) : State :=
  let s := match mfind s.path.pkts t.pkt with
    | some x => s.setPkt t.pkt (some { x with bad := true })
    | none => s
  ((s.lineCut p (t.data.take (256 * j))).mib p 37 1).updPort p (fun y => { y with lastFrame := s.now })

/-- FRAME_SENT (R96, R174, R313, R317, R318, R321, R351): the last bit of the frame at the head of port `p` leaves the MAC; `sub` is the
phase of its first bit in sixteenths of a tick. `errs` are the cells that read with an error once the transmission had started; an
uncorrectable one ends the frame. DESIGN CHOICE: log entry 160. -/
def execFrameSent (p : Fin 512) (sub : Fin 16) (errs : List (Nat × Bool)) (s : State) : Result :=
  .next (
    match mget s.path.tx p [] with
    | [] => s
    | t :: rest =>
      if s.portState p ≠ 3 || s.stopped then s
      else
        let s := s.updPath (fun y => { y with tx := mset y.tx p rest [] })
        let (cut, s) := s.txErrors t errs
        if let some j := cut then s.cutFrame p t j else
        let age := s.now - s.frameBegun p t.data.length
        let egr := s.stamp 0 age sub (sext 16 (s.rd (F.LIGHT_PORT_DELAY_TX_DELAY p)))
        let lat := (egr + 2 ^ 64 - t.ts % 2 ^ 64) % 2 ^ 64
        let body := t.data.take (t.data.length - 4)
        let body := match t.delayAt with
          | some o => patch body o (beBytes 4 (transitField lat))
          | none => body
        let (body, s) := s.ptpAction t body age sub
        let data := body ++ fcsOf body
        let i := p.val / 32
        let x := (s.servePipe i 1 (p.val % 32 / 8) s.now).getD (5 + p.val % 32 / 8)
        let s := ((s.lineSend p data).mibTx p data).updPort p (fun y => { y with lastFrame := s.now })
        let s := (s.cntIsland i x 0x10 (p.val % 32) 1).cntIsland i x 0x11 (p.val % 32) data.length
        let s := if bit t.md.telFlags 1 then
            s.telRecord 1 (s.rd F.TEL_CFG_POSTCARD_COL)
              (cardRecord t.ts egr t.md t.resTime (min t.depth 0xFFFFF) (queueField t.queue) t.inPort p data.length 0
                ((if t.deep then 1 else 0) + (if t.ce then 2 else 0) + (if t.queue ≥ 8192 then 4 else 0) +
                  (if t.md.badFrame then 8 else 0) + (if t.ioam then 16 else 0)) data)
          else s
        if !bit t.md.telFlags 0 then s
        else
          s.flowUpdate (p.val / 256)
            { key := t.md.flowKey, len := data.length, time := s.flowTime, lat := min (lat / 2560) (2 ^ 32 - 1), outPort := p, inPort := t.inPort })

end Sys2Proof.Machine
end

