-- ==== Sys2Proof/Machine/Telemetry.lean ====
section
/-! DEFINITION. Telemetry exports, flow records, table counters, tenant counter pages and counter dumps (R311, R312, R318 to R332). -/

namespace Sys2Proof.Machine

/-! ### Exports -/

/-- A 128-bit address in four words, the lowest first. -/
def State.wordsAt (s : State) (f : Nat → Fld) (k n : Nat) : Nat :=
  ((List.range n).map (fun w => s.rd (f (n * k + w)) * 2 ^ (32 * w))).sum

/-- An export frame of TYPE `ty` for collector `c` (R311, R312). Its source MAC address and time to live are not in the spec. DESIGN CHOICE:
log entry 38. DEDUCED: log entry 77. -/
def State.exportFrame (s : State) (c ty : Nat) (recs : List Bytes) : Bytes :=
  let v6 := s.on (F.TEL_COLLECTOR_IPV6 c)
  let hdr : Bytes := beBytes 1 1 ++ beBytes 1 ty ++ beBytes 2 recs.length ++ beBytes 4 (mget s.tel.seq c 0) ++
    beBytes 4 (s.rd F.TEL_SOURCE_ID_ID) ++ beBytes 4 (min (mget s.tel.lost c 0) (2 ^ 32 - 1))
  udpFrame { da := s.wordsAt F.TEL_COLLECTOR_MAC_WORD c 2 % 2 ^ 48, sa := Config.atollAddr 0, v6 := v6,
             src := s.wordsAt F.TEL_COLLECTOR_SRC_WORD c 4, dst := s.wordsAt F.TEL_COLLECTOR_DST_WORD c 4,
             ttl := Config.atollAddr 3, sport := s.rd (F.TEL_COLLECTOR_UDP_UDP_SRC c), dport := s.rd (F.TEL_COLLECTOR_UDP_UDP_DST c) }
    (hdr ++ recs.flatten)

/-- Admission of an export frame as a direct frame on the die of its egress port (R42, R183, R312); the answer tells whether the Lagoon
took it. -/
def State.admitExport (s : State) (p q : Nat) (frame : Bytes) : Bool × State :=
  if p ≥ 512 then (false, s)
  else
    let a : Arrival := { data := frame, md := { egressPort := p, queue := q }, inPort := 0x3FF, host := false, ts := s.stamp 0 0 0 0,
                         tsB := s.stamp 1 0 0 0, t16 := s.now * 16, die := p / 256, src := 80 * (p / 256), sub := 0, payOff := 0 }
    let t := s.admitUnicast a p q
    (t.path.nextPkt ≠ s.path.nextPkt, t)

/-- EXPORT_FRAME_CLOSE (R311, R312): the oldest frame of a collector and TYPE closes when it is full or 10 µs after its first record. A
refused frame loses its records, and SEQ still rises. -/
def execExportFrameClose (c : Fin 16) (ty : Fin 5) (s : State) : Result :=
  .next (
    match mget s.tel.frames (key2 c ty) [] with
    | [] => s
    | f :: rest =>
      if f.recs.length < recLimit ty && s.now - f.since < 16000 then s
      else
        let frame := s.exportFrame c ty f.recs
        let s := s.updTel (fun t => { t with frames := mset t.frames (key2 c ty) rest [], lost := mset t.lost c 0 0,
                                             seq := mset t.seq c ((mget t.seq c 0 + 1) % 2 ^ 32) 0 })
        let (ok, s) := s.admitExport (s.rd (F.TEL_COLLECTOR_PORT c)) (s.rd (F.TEL_COLLECTOR_QUEUE c)) frame
        if ok then s else (s.satAdd F.TEL_STATUS_REFUSED 1).raise .tel 0 2)

/-- COLLECTOR_REFILL (R312): every 1 µs the bucket of a collector gains RATE records per second, up to 64. -/
def execCollectorRefill (c : Fin 16) (s : State) : Result :=
  .next (
    if !s.due .collector c 1600 then s
    else
      let r := max 1 (s.rd (F.TEL_COLLECTOR_RATE_RATE c))
      (s.ran .collector c s.now).updTel (fun t =>
        { t with tokens := mset t.tokens c (min fullBucket (mget t.tokens c fullBucket + r)) fullBucket }))

/-! ### Flow records -/

/-- A flow time in ns. -/
def flowNs (t : Nat) : Nat := t / 2 ^ 30 * 1000000000 + t % 2 ^ 30

/-- FLOW_SWEEP (R320): the sweeper visits a record. An idle one is exported and freed; one older than ACTIVE is exported and restarted.
DESIGN CHOICE: log entry 124. -/
def execFlowSweep (die : Fin 2) (key : BitVec 64) (s : State) : Result :=
  .next (
    match s.flowGet die key.toNat with
    | none => s
    | some r =>
      let t := flowNs s.flowTime
      let idle := s.rd F.TEL_FLOW_CFG_IDLE * 1000000000
      let act := s.rd F.TEL_FLOW_CFG_ACTIVE * 1000000000
      let out (s : State) : State := s.telRecord 3 (s.rd F.TEL_CFG_FLOW_COL) (flowWire key.toNat r)
      if idle ≠ 0 && t - flowNs r.last ≥ idle then (out s).flowFree die key.toNat
      else if act ≠ 0 && t - flowNs r.first > act then
        (out s).flowPut die key.toNat { r with packets := 0, bytes := 0, maxLat := 0, first := s.flowTime }
      else s)

/-- TEL_FLOW_RD (R320): GO returns the record of the key in TEL_FLOW_RD_KEY, the north die's before the south die's. DESIGN CHOICE: log
entry 78. -/
def execTelFlowRd (q : Requester) (s : State) : Result := if !s.grants q false then .next s else
  .next (
    let key := s.rd F.TEL_FLOW_RD_KEY_KEY
    match (s.flowGet 0 key).orElse (fun _ => s.flowGet 1 key) with
    | none => s.wrB F.TEL_FLOW_RD_STAT_FOUND false
    | some r =>
      let b := flowBytes key r
      (List.range 16).foldl (fun s w => s.wr (F.TEL_FLOW_RD_REC_WORD w) (leAt b (4 * w) 4)) (s.wrB F.TEL_FLOW_RD_STAT_FOUND true))

/-! ### Table-entry counters -/

/-- The counter that CNT_TBL_TARGET of pool `k` names, copied to CNT_TBL_DATA (R323). -/
def State.tblRead (s : State) (k : Nat) : State :=
  let c := mget s.mat.counts (key2 k (key2 (s.rd (F.CNT_TBL_TARGET_TABLE k)) (s.rd (F.CNT_TBL_TARGET_INDEX k)))) (0, 0)
  let v := c.1 + c.2 * 2 ^ 64
  (List.range 4).foldl (fun s w => s.wr (F.CNT_TBL_DATA_WORD (4 * k + w)) (bits v (32 * w) 32)) s

/-- CNT_TBL_READ (R323). -/
def execCntTblRead (q : Requester) (i : Fin 16) (d : Fin 2) (s : State) : Result := if !s.grants q false then .next s else .next (s.tblRead (2 * i + d))

/-- CNT_TBL_READ_CLEAR (R323): the counter is returned and cleared at one core clock boundary. -/
def execCntTblReadClear (q : Requester) (i : Fin 16) (d : Fin 2) (s : State) : Result := if !s.grants q false then .next s else
  .next (
    let k := 2 * i.val + d.val
    (s.tblRead k).updMat (fun m =>
      { m with counts := mset m.counts (key2 k (key2 (s.rd (F.CNT_TBL_TARGET_TABLE k)) (s.rd (F.CNT_TBL_TARGET_INDEX k)))) (0, 0) (0, 0) }))

/-! ### Tenant pages -/

/-- Page `k` of the programmable counters is given to VF `f` (R332). -/
def State.pageOf (s : State) (f k : Nat) : Bool := bit (s.rd (F.CNT_USER_PAGES_MASK (3 * f + k / 32))) (k % 32)

/-- The fields of CNT_CTL take a written value; OVF clears on 1. -/
def State.cntCtl (s : State) (n v : Nat) : State :=
  let s := (s.wrB (F.CNT_CTL_EN n) (bit v 0)).wrB (F.CNT_CTL_RELOAD n) (bit v 1)
  let s := (s.wrB (F.CNT_CTL_INT n) (bit v 2)).wrB (F.CNT_CTL_SAMPLE n) (bit v 3)
  let s := s.wr (F.CNT_CTL_RING n) (bits v 4 6)
  if bit v 10 then s.wrB (F.CNT_CTL_OVF n) false else s

/-- CNT_CTL_VF_WRITE (R332): a VF's write to CNT_CTL of a counter in one of its pages takes effect when it leaves SAMPLE at 0 or RING at a
ring of the VF; any other is discarded whole. -/
def execCntCtlVfWrite (f : Fin 32) (n : Fin 1088) (v : BitVec 32) (s : State) : Result :=
  .next (
    if f.val = 0 || !s.pageOf f (n / 16) then s
    else
      let x := v.toNat
      if !bit x 3 || s.rd (F.HARB_RX_CFG_OWNER (bits x 4 6)) = f then s.cntCtl n x
      else s.locked (.vf f) .CNT_CTL n 1)

/-- CNT_USER_PAGES_WRITE (R332): word `w` of a VF's page mask; a page that another VF holds is not given. -/
def execCntUserPagesWrite (q : Requester) (f : Fin 32) (w : Fin 3) (v : BitVec 32) (s : State) : Result := if !s.grants q false || viaEth q then .next s else
  .next (
    if f.val = 0 then s
    else
      let want := if w.val = 2 then v.toNat % 16 else v.toNat
      let other (b : Nat) : Bool := (List.range 32).any (fun g => g ≠ 0 && g ≠ f.val && bit (s.rd (F.CNT_USER_PAGES_MASK (3 * g + w))) b)
      let taken := (List.range 32).filter (fun b => bit want b && other b)
      let s := s.wr (F.CNT_USER_PAGES_MASK (3 * f.val + w.val)) (taken.foldl (fun a b => setBit a b false) want)
      if taken.isEmpty then s else s.locked q .CNT_USER_PAGES (3 * f.val + w.val) 1)

/-! ### Dumps -/

/-- PERIOD of a dump in units of 100 µs. DESIGN CHOICE: log entry 79. -/
def State.dumpPeriod (s : State) : Nat := max 1 (min 100000 (s.rd F.CNT_DUMP_PERIOD_PERIOD))

/-- A whole multiple of `p` 2^−56 ns of domain time falls into the present tick. DEDUCED: log entry 80. -/
def Dom.atMultiple (x : Dom) (p : Nat) : Bool := x.total % p = 0 || p - x.total % p < x.eff

/-- DUMP_EDGE (R328): an edge of the period, aligned to domain A or counted from EN. DEDUCED: log entry 80. -/
def execDumpEdge (s : State) : Result :=
  .next (
    let p := s.dumpPeriod
    let hit : Bool :=
      if s.on F.CNT_DUMP_CFG_ALIGN then s.domA.atMultiple (p * 100000 * 2 ^ 56) && s.ranAt .dump 0 ≠ s.now
      else s.now - max s.dumpFrom (s.ranAt .dump 0) ≥ p * 160000
    if s.on F.CNT_DUMP_CFG_EN && !s.on F.CNT_DUMP_CFG_SOURCE && hit then (s.ran .dump 0 s.now).dumpEdge false else s)

/-- A field as it stood at the edge. -/
def DumpRec.rd (d : DumpRec) (f : Fld) : Nat := mget d.regs f.key f.dflt

/-- A section of a snapshot (R331): its 16-byte head and its entries. DESIGN CHOICE: log entry 79. -/
def dumpSection (ty count size : Nat) (f : Nat → Nat) : Bytes :=
  leBytes 2 ty ++ leBytes 2 0 ++ leBytes 4 count ++ leBytes 4 size ++ leBytes 4 0 ++ (List.range count).flatMap (fun k => leBytes size (f k))

/-- The bytes of a snapshot (R331). DESIGN CHOICE: log entry 79. -/
def DumpRec.bytes (d : DumpRec) : Bytes :=
  let sec (b count size : Nat) (f : Nat → Nat) : Bytes := if bit d.sets b then dumpSection b count size f else []
  leBytes 1 1 ++ leBytes 1 d.sets ++ leBytes 2 d.flags ++ leBytes 4 d.seq ++ leBytes 8 d.sec ++ leBytes 4 d.ns ++ leBytes 2 d.frac ++
    leBytes 2 0 ++ leBytes 8 d.ticks ++ leBytes 4 (dumpLength d.sets) ++ leBytes 4 d.missed ++
    leBytes 4 (d.rd F.TEL_SOURCE_ID_ID) ++ leBytes 20 0 ++
  sec 0 1088 8 (fun k => d.rd (F.CNT_VALUE_VALUE k)) ++ sec 1 960 8 (fun k => d.rd (F.CNT_TD_COUNT k)) ++
  sec 2 256 8 (fun k => d.rd (F.TEL_DROP_CNT_COUNT k)) ++ sec 3 32768 8 (fun k => d.rd (F.CNT_MIB_COUNT k)) ++
  sec 4 589824 4 (fun k => mget d.hist k 0)

/-- DUMP_WRITE_DONE (R330): the snapshot stands in the next slot of its ring, and PROD advances. -/
def execDumpWriteDone (s : State) : Result :=
  .next (
    match s.dump with
    | none => s
    | some d =>
      let slots := max 1 (s.rd F.CNT_DUMP_RING_SLOTS)
      let prod := s.rd F.CNT_DUMP_PROD_PROD
      let off := prod % slots * (s.rd F.CNT_DUMP_RING_SLOT_KIB * 1024)
      let s :=
        if s.on F.CNT_DUMP_CFG_TARGET then
          let st := s.rd F.CNT_DUMP_CFG_STACK
          if st < 6 then s.hbmWrite st (s.rd (F.BPM_REGION_BASE (10 * st + 9)) * 2 ^ 20 + off) d.bytes else s
        else s.emit (.hostWrite 0 (s.rd F.CNT_DUMP_BASE_BASE + off) d.bytes)
      let s := ({ s with dump := none }.wrB F.CNT_DUMP_STATUS_BUSY false).wr F.CNT_DUMP_PROD_PROD ((prod + 1) % slots)
      if s.on F.CNT_DUMP_CFG_INT then s.raise .cnt 0 1 else s)

end Sys2Proof.Machine
end

