-- ==== Sys2Proof/Machine/RegOps.lean ====
section
/-! DEFINITION. Reads and writes of whole registers: locks, clamps, what a write starts, derived values and side effects of reads
(R16, R17, R463 to R479, R499, and the register tables). -/

namespace Sys2Proof.Machine

/-- The state that a command leaves. -/
def State.after (s : State) (r : Result) : State :=
  match r with
  | .next t => t
  | _ => s

/-- A 1 when a flag lock holds (R473). -/
def flagLock (b : Bool) : Option Nat := if b then some 1 else none

/-- The STATE of the lock on the RWL fields of instance `k` of a register, if they are locked in the present state (R75, R110, R171, R196,
R265, R270, R304, R333, R360, R384, R390, R410, R435). Registers with a row of commands of their own judge their locks there. DEDUCED: log
entry 97. -/
def State.lockState (s : State) (r : RegName) (k : Nat) : Option Nat :=
  let port (p : Nat) : Option Nat := if s.portLocked p then some (s.portState p) else none
  match r with
  | .BOOT_PCIE_ADDR => if 2 ≤ s.stage && s.stage ≤ 4 then some s.stage else none
  | .BOOT_PCIE_LEN => if 2 ≤ s.stage && s.stage ≤ 4 then some s.stage else none
  | .PWR_CAP => flagLock (s.ferryRole = 1)
  | .PWR_FERRY_JOB => flagLock (s.on F.PWR_CFG_FERRY_EN)
  | .PWR_FERRY_PORT => flagLock (s.on F.PWR_CFG_FERRY_EN)
  | .LIGHT_PORT_CFG => port k
  | .DYS_RING_CFG => flagLock (s.on (F.DYS_RING_CFG_EN k))
  | .DYS_CMD_BASE => flagLock (s.on (F.DYS_RING_CFG_EN k))
  | .DYS_RSP_BASE => flagLock (s.on (F.DYS_RING_CFG_EN k))
  | .LANE_CTL => if s.laneState k = 0 then none else some (s.laneState k)
  | .PORT_CFG => port k
  | .PIPE_SWAP_CFG =>
    ((List.range 5).find? (fun x => s.pipeState (10 * (k / 2) + 5 * (k % 2) + x) = 2 || s.pipeState (10 * (k / 2) + 5 * (k % 2) + x) = 3)).map
      (fun x => s.pipeState (10 * (k / 2) + 5 * (k % 2) + x))
  | .LAG_PG_CFG => port (k / 8)
  | .LAG_Q_CFG => port (k / 16)
  | .LAG_MQ_CFG => port (k / 2)
  | .TM_Q_CFG => port (k / 16)
  | .TM_MQ_CFG => port (k / 2)
  | .TM_GATE_ADMIN_BASE_S => flagLock (s.on (F.TM_GATE_STATUS_PENDING k))
  | .TM_GATE_ADMIN_BASE_NS => flagLock (s.on (F.TM_GATE_STATUS_PENDING k))
  | .TM_GATE_ADMIN_CYCLE => flagLock (s.on (F.TM_GATE_STATUS_PENDING k))
  | .TM_GATE_ADMIN_LEN => flagLock (s.on (F.TM_GATE_STATUS_PENDING k))
  | .TM_GATE_ENTRY =>
    flagLock (s.on (F.TM_GATE_STATUS_PENDING (k / 512)) || s.rd (F.TM_GATE_STATUS_OPER_BANK (k / 512)) = k / 256 % 2)
  | .ATL_CFG => flagLock (!s.atl.live.isEmpty)
  | .TEL_FLOW_CFG => flagLock (s.tel.flows.any (fun e => e.2.isSome))
  | .CNT_DUMP_CFG => flagLock (s.on F.CNT_DUMP_CFG_EN)
  | .CNT_DUMP_PERIOD => flagLock (s.on F.CNT_DUMP_CFG_EN)
  | .CNT_DUMP_BASE => flagLock (s.on F.CNT_DUMP_CFG_EN)
  | .CNT_DUMP_RING => flagLock (s.on F.CNT_DUMP_CFG_EN)
  | _ => none

/-- A value held between two bounds, the upper one first. -/
def bounded (lo hi v : Nat) : Nat := max lo (min hi v)

/-- A signed value of `w` bits held between two bounds (R54). -/
def boundedS (w lo hi v : Nat) : Nat := trunc w (max (sext w lo) (min (sext w hi) (sext w v)))

/-- The buffers of pool `k` on the stacks of class `c` (R209). -/
def State.classBuffers (s : State) (c k : Nat) : Nat := ((classStacks c).map (fun st => s.poolCount st k)).sum

/-- The value that a field takes when `x` is written to it and `v` to its register: fields that the register tables clamp. DEDUCED: log
entries 96, 100. DESIGN CHOICE: log entry 149. -/
def State.clamped (s : State) (f : Fld) (v x : Nat) : Nat :=
  match f.reg with
  | .LANE_TX_TAP => if f.lo = 0 then boundedS 8 (bits v 8 8) (bits v 16 8) x else x
  | .LANE_RX_CTLE => if f.lo = 0 then bounded (bits v 8 6) (bits v 16 6) x else x
  | .LANE_RX_FFE => if f.lo = 0 then boundedS 10 (bits v 10 10) (bits v 20 10) x else x
  | .MAC_RX_CFG => if f.lo = 0 then bounded 64 16000 x else x
  | .TRAP_RATE => min 1000000 x
  | .TM_Q_SHAPE => min 3200000 x
  | .TM_Q_MIN => min 3200000 x
  | .TM_MQ_SHAPE => min 3200000 x
  | .TM_MQ_MIN => min 3200000 x
  | .TM_G_SHAPE => min 3200000 x
  | .TM_G_MIN => min 3200000 x
  | .TM_P_SHAPE => min 3200000 x
  | .TM_P_MIN => min 3200000 x
  | .TM_CPU_SHAPE => min 3200000 x
  | .PWR_CAP => min 1600 x
  | .PWR_IMAX => min 1000 x
  | .PWR_VOLT_BOUND => if f.lo = 0 then max 600 x else min 850 x
  | .PWR_THERM_CFG => if f.lo = 0 then bounded 85 105 x else x
  | .MC_CFG => if f.lo = 0 then min 100 x else x
  | .BPM_CLASS_RSV => min (s.classBuffers (f.ix / 4) (f.ix % 4)) x
  | _ => x

/-- The writable fields of instance `k` of a register take their bits of `v`, except locked ones (R17). DEDUCED: log entry 96. -/
def State.takeFields (s : State) (r : RegName) (k v : Nat) : State :=
  ((regRow r).fields k).foldl (fun t f =>
    let x := bits v f.1.lo f.1.width
    match f.2 with
    | .rw => t.wr f.1 (s.clamped f.1 v x)
    | .rwl => if (s.lockState r k).isSome then t else t.wr f.1 (s.clamped f.1 v x)
    | .w1c => t.wr f.1 (t.rd f.1 - (t.rd f.1 &&& x))
    | .w1s => t.wr f.1 (t.rd f.1 ||| x)
    | _ => t) s

/-- A write would change a RWL field (R499). DEDUCED: log entry 109. -/
def State.changesRwl (s : State) (r : RegName) (k v : Nat) : Bool :=
  ((regRow r).fields k).any (fun f => f.2 = .rwl && s.rd f.1 ≠ bits v f.1.lo f.1.width)

/-- A write to a register with no commands of its own: its writable fields take the value, a locked one that would change keeps its own and
the write is recorded (R472, R499). DEDUCED: log entry 96. DESIGN CHOICE: log entry 106. -/
def State.plainWrite (s : State) (q : Requester) (r : RegName) (k v : Nat) : State :=
  let s := s.shapeWrite r k
  let t := s.takeFields r k v
  match s.lockState r k with
  | some st => if s.changesRwl r k v then t.locked q r k st else t
  | none => t

/-! ### Interrupt registers -/

/-- A write to INT_STATUS clears the bits written as 1, and the vector's message is sent again while its condition holds (R475, R479). -/
def State.intStatusWrite (s : State) (b : Blk) (i v : Nat) : State :=
  let s := s.wr (intStatus b i) (s.rd (intStatus b i) - (s.rd (intStatus b i) &&& v))
  let x := s.rd (F.CHIP_VEC_MAP_VECTOR (summaryBit b i))
  if s.vectorCond x then s.sendVector 0 x else s

/-- A write to INT_MASK (R475): the vector's message is sent if its condition rises. -/
def State.intMaskWrite (s : State) (b : Blk) (i v : Nat) : State :=
  s.intEdge b i (fun t => t.wr (intMask b i) (v &&& intBits b))

/-- A write of CHIP_VEC_MAP (R478, R479): a new vector sends at once while the bit's condition holds. DEDUCED: log entry 99. -/
def State.vecMapWrite (s : State) (b v : Nat) : State :=
  let x := bits v 0 10
  let old := s.rd (F.CHIP_VEC_MAP_VECTOR b)
  let s := s.wr (F.CHIP_VEC_MAP_VECTOR b) x
  if x ≠ old && s.summaryCond b then s.sendVector 0 x else s

/-! ### Writes that start something -/

/-- A write of a register: state, requester, instance, value. -/
abbrev WriteFn := State → Requester → Nat → Nat → State

/-- CLK_CFG (R365, R390). -/
def writeClkCfg : WriteFn := fun s q _ v =>
  let bad : Bool := s.on (pllRefF s.activePll) ≠ bit v s.activePll
  let s := s.after (execClkRefWrite q (bit v 0) (bit v 1) s)
  if !bit v 2 || (bad && !s.standbyReady) then s else s.after (execClkSwitch q s)

/-- PWR_CFG (R370, R372, R390). -/
def writePwrCfg : WriteFn := fun s q _ v =>
  let save := s.pwrState = 4
  let mode : Bool := s.on F.PWR_CFG_MODE ≠ bit v 0
  let ferry : Bool := s.on F.PWR_CFG_FERRY_EN ≠ bit v 3
  let refused : Bool := save && (mode || ferry)
  let s := (s.wrB F.PWR_CFG_BOOST_EN (bit v 1)).wr F.PWR_CFG_CAP_HYST (bits v 8 8)
  let s := if mode && !save then s.after (execPwrModeWrite q (bit v 0) s) else s
  let s := if s.on F.PWR_CFG_SAVE = bit v 2 then s else s.after (execPwrSaveWrite q (bit v 2) s)
  let s := if ferry && !save then (s.wrB F.PWR_CFG_FERRY_EN (bit v 3)).ferryUpdate else s
  if refused then s.locked q .PWR_CFG 0 4 else s

/-- PWR_PRIO: a write that names no permutation is ignored and sets PRIO_ERR. -/
def writePwrPrio : WriteFn := fun s _ _ v =>
  let l := [bits v 0 2, bits v 2 2, bits v 4 2]
  if [0, 1, 2].all (fun d => l.contains d) then
    (((s.wr F.PWR_PRIO_FIRST (bits v 0 2)).wr F.PWR_PRIO_SECOND (bits v 2 2)).wr F.PWR_PRIO_LAST (bits v 4 2)).wrB F.PWR_PRIO_PRIO_ERR false
  else s.wrB F.PWR_PRIO_PRIO_ERR true

/-- PWR_FERRY_CFG: PRIO and SOFT_COORD take part in the election at once (R381, R385). -/
def writeFerryCfg : WriteFn := fun s q k v => (s.plainWrite q .PWR_FERRY_CFG k v).ferryUpdate

/-- KEEP_CFG (R387, R390). -/
def writeKeepCfg : WriteFn := fun s q _ v =>
  let s := ((s.wrB F.KEEP_CFG_PWRFAIL_EN (bit v 0)).wrB F.KEEP_CFG_VKEEP_EN (bit v 1)).wrB F.KEEP_CFG_THERM_EN (bit v 2)
  if bit v 3 then s.after (execTestSave q s) else s

/-- LIGHT_CTL (R334, R338, R342, R343): the fields act lowest bit first, and a refused MODE or REQ is recorded once. -/
def writeLightCtl : WriteFn := fun s q d v =>
  let st := s.lightState d
  let dd : Fin 2 := if d = 0 then 0 else 1
  let modeBad : Bool := s.on (F.LIGHT_CTL_MODE d) ≠ bit v 0 && st ≠ 0
  let req := bits v 1 2
  let reqBad : Bool := req ≠ 0 && !reqAllowed st req
  let s := if modeBad then s else s.after (execLightModeWrite q dd (bit v 0) s)
  let s := if req = 0 || reqBad then s else s.applyReq d req
  let s := if bit v 3 then s.after (execLightSnap dd s) else s
  let s := ((s.wrB (F.LIGHT_CTL_B_FOLLOW d) (bit v 4)).wr (F.LIGHT_CTL_SRC d) (bits v 5 2)).wr (F.LIGHT_CTL_WD_TIMEOUT d) (bits v 8 8)
  let s := if bit v 7 then s.after (execLightKick dd s) else s
  if modeBad || reqBad then s.locked q .LIGHT_CTL d st else s

/-- LIGHT_RATE_ADJ (R335, R336). DEDUCED: log entry 128. -/
def writeRateAdj : WriteFn := fun s q d v => s.after (execLightRateAdjWrite q (if d = 0 then 0 else 1) (BitVec.ofNat 40 v) s)

/-- LIGHT_INCR (R336). DEDUCED: log entry 128. -/
def writeIncr : WriteFn := fun s q d v => s.after (execLightIncrWrite q (if d = 0 then 0 else 1) (BitVec.ofNat 40 v) s)

/-- LIGHT_STEP_CTL (R339): KIND takes its value before GO applies the step. -/
def writeStepCtl : WriteFn := fun s q d v =>
  let s := s.wrB (F.LIGHT_STEP_CTL_KIND d) (bit v 1)
  if bit v 0 then s.after (execLightStepGo q (if d = 0 then 0 else 1) s) else s

/-- LIGHT_TM_CMP_NS (R359, R453): ARM arms the compare, or disarms it. -/
def writeTmCmp : WriteFn := fun s q k v =>
  let s := s.plainWrite q .LIGHT_TM_CMP_NS k v
  if bit v 31 then s.armCompare else { s with cmpAt := none }

/-- LANE_CTL (R58, R75): ENABLE acts as LANE_ENABLE and LANE_DISABLE do. -/
def writeLaneCtl : WriteFn := fun s q l v =>
  let was := s.on (F.LANE_CTL_ENABLE l)
  let s := (s.plainWrite q .LANE_CTL l v).wrB (F.LANE_CTL_ENABLE l) was
  let l' : Fin 544 := ⟨l % 544, Nat.mod_lt _ (by decide)⟩
  if was = bit v 3 then s else s.after (if bit v 3 then execLaneEnable l' s else execLaneDisable l' s)

/-- LANE_BITSLIP (R64). DEDUCED: log entry 128. -/
def writeBitslip : WriteFn := fun s q l v =>
  if bit v 0 then s.after (execLaneBitslip q ⟨l % 544, Nat.mod_lt _ (by decide)⟩ s) else s

/-- PORT_CTL (R109, R110). -/
def writePortCtl : WriteFn := fun s q p v => s.after (execPortCtlEnable q ⟨p % 512, Nat.mod_lt _ (by decide)⟩ (bit v 0) s)

/-- LANE_TX_TAP (R51, R54): a VALUE that would break the limits of R51 is refused, and the coefficient keeps its value. -/
def writeTxTap : WriteFn := fun s q k v =>
  let t := s.plainWrite q .LANE_TX_TAP k v
  if tapsLegal (t.taps (k / 6)) then t else t.wr (F.LANE_TX_TAP_VALUE k) (s.rd (F.LANE_TX_TAP_VALUE k))

/-- PORT_CFG (R76): AN_EN at 1 is accepted only with a CR or KR PMD and no Strait MODE. -/
def writePortCfg : WriteFn := fun s q p v =>
  let t := s.plainWrite q .PORT_CFG p v
  if t.strait p || t.rd (F.PORT_CFG_PMD p) > 1 then t.wrB (F.PORT_CFG_AN_EN p) false else t

/-- MAC_RX_CFG (R93): a new DELIVER_BAD applies from the next frame on. -/
def writeMacRx : WriteFn := fun s q p v =>
  let was := s.on (F.MAC_RX_CFG_DELIVER_BAD p)
  let s := s.plainWrite q .MAC_RX_CFG p v
  if was = bit v 16 then s
  else s.updPort p (fun x => { x with deliverOld := (s.now, was) :: x.deliverOld.filter (fun e => s.now - e.1 ≤ 2 ^ 20) })

/-- MAC_PFC_CFG (R99, R101): the frames that go out follow TX_EN at once. -/
def writePfcCfg : WriteFn := fun s q p v => (s.plainWrite q .MAC_PFC_CFG p v).pfcUpdate p

/-- PPE_BANK (R127). -/
def writePpeBank : WriteFn := fun s q i v => s.after (execPpeBankSwitch q ⟨i % 16, Nat.mod_lt _ (by decide)⟩ (bit v 0) s)

/-- CLS_WR_CMD (R130): OP 0, 6 and 7 are ignored. -/
def writeClsCmd : WriteFn := fun s q k v =>
  let i : Fin 16 := ⟨k / 2 % 16, Nat.mod_lt _ (by decide)⟩
  let d : Fin 2 := ⟨k % 2, Nat.mod_lt _ (by decide)⟩
  match bits v 0 3 with
  | 1 => s.after (execClsWriteData q i d ⟨bits v 8 5 % 32, Nat.mod_lt _ (by decide)⟩ ⟨bits v 16 5 % 32, Nat.mod_lt _ (by decide)⟩ s)
  | 2 => s.after (execClsSetValid q i d s)
  | 3 => s.after (execClsClearValid q i d s)
  | 4 => s.after (execClsWriteAction q i d s)
  | 5 => s.after (execClsRead q i d s)
  | _ => s

/-- CNT_TBL_CMD (R323). -/
def writeTblCmd : WriteFn := fun s q k v =>
  let i : Fin 16 := ⟨k / 2 % 16, Nat.mod_lt _ (by decide)⟩
  let d : Fin 2 := ⟨k % 2, Nat.mod_lt _ (by decide)⟩
  match bits v 0 2 with
  | 1 => s.after (execCntTblRead q i d s)
  | 2 => s.after (execCntTblReadClear q i d s)
  | _ => s

/-- MTR_CMD (R161). -/
def writeMtrCmd : WriteFn := fun s q k v =>
  let i : Fin 16 := ⟨k % 16, Nat.mod_lt _ (by decide)⟩
  match bits v 0 2 with
  | 1 => s.after (execMtrWrite q i s)
  | 2 => s.after (execMtrWriteKeep q i s)
  | 3 => s.after (execMtrRead q i s)
  | _ => s

/-- PIPE_PORT_LIVE (R154). -/
def writePortLive : WriteFn := fun s q k v =>
  s.after (execPipePortLiveWrite q ⟨k / 16 % 16, Nat.mod_lt _ (by decide)⟩ ⟨k % 16, Nat.mod_lt _ (by decide)⟩ (BitVec.ofNat 32 v) s)

/-- LAG_SPILL_LOW and LAG_SPILL_HIGH (R176). -/
def writeSpill (r : RegName) : WriteFn := fun s q h v => (s.plainWrite q r h v).spillUpdate h

/-- LAG_POOL (R185, R192). -/
def writePool : WriteFn := fun s q k v => ((s.plainWrite q .LAG_POOL k v).overcommitUpdate (k / 3)).pgTests (k / 3)

/-- LAG_PG_CFG (R192): the tests are made at every core clock. -/
def writePgCfg : WriteFn := fun s q a v => (s.plainWrite q .LAG_PG_CFG a v).pgTest (a / 8 / 256) (a / 8) (a % 8)

/-- LAG_Q_CFG (R186, R187). -/
def writeQCfg : WriteFn := fun s q k v => (s.plainWrite q .LAG_Q_CFG k v).alphaWritten k (s.on (qAdaptF k)) (s.alphaSet k)

/-- LAG_MQ_CFG (R186, R187). -/
def writeMqCfg : WriteFn := fun s q m v =>
  (s.plainWrite q .LAG_MQ_CFG m v).alphaWritten (8192 + m) (s.on (qAdaptF (8192 + m))) (s.alphaSet (8192 + m))

/-- The status of queue `k` after a change of its configuration; a queue that the change releases from a pause joins again (R252). -/
def State.queueCfg (s : State) (k : Nat) : State :=
  let paused := byKey F.TM_Q_STATUS_PAUSED F.TM_MQ_STATUS_PAUSED k
  let t := s.queueStatus k
  if s.on paused && !t.on paused then t.rejoin k else t

/-- TM_Q_CFG. -/
def writeTmQ : WriteFn := fun s q k v => (s.plainWrite q .TM_Q_CFG k v).queueCfg k

/-- TM_MQ_CFG. -/
def writeTmMq : WriteFn := fun s q m v => (s.plainWrite q .TM_MQ_CFG m v).queueCfg (8192 + m)

/-- TM_GATE_CTL (R260, R264, R265): EN, GUARD and ADJ first, then CONFIG_CHANGE and CANCEL. -/
def writeGateCtl : WriteFn := fun s q p v =>
  let p' : Fin 512 := ⟨p % 512, Nat.mod_lt _ (by decide)⟩
  let s := ((s.wrB (F.TM_GATE_CTL_EN p) (bit v 0)).wrB (F.TM_GATE_CTL_GUARD p) (bit v 1)).wr (F.TM_GATE_CTL_ADJ p) (bits v 16 16)
  let s := if bit v 2 then s.after (execGateConfigChange q p' s) else s
  let s := if bit v 3 then s.after (execGateCancel q p' s) else s
  s.gatesUpdate p

/-- MC_TSET_CMD (R236, R245). -/
def writeTset : WriteFn := fun s q st v =>
  s.after (execMcTsetWrite q ⟨st % 6, Nat.mod_lt _ (by decide)⟩ ⟨v % 4, Nat.mod_lt _ (by decide)⟩ false s)

/-- MC_IDLE (R228): with ADAPT 0 every timer of the stack holds INIT. -/
def writeMcIdle : WriteFn := fun s q st v =>
  let s := s.plainWrite q .MC_IDLE st v
  if s.on (F.MC_IDLE_ADAPT st) then s
  else (List.range 64).foldl (fun s pc => s.wr (F.MC_IDLE_STATUS_CUR (64 * st + pc)) (s.rd (F.MC_IDLE_INIT st))) s

/-- BPM_FN_CMD (R212): the operation of function `f`, agent 0x40 + f. -/
def writeFnCmd : WriteFn := fun s _ f v =>
  let a : Fin 256 := ⟨(0x40 + f) % 256, Nat.mod_lt _ (by decide)⟩
  let h : BitVec 48 := BitVec.ofNat 48 (s.rd (F.BPM_FN_ARG_ARG f))
  s.after (
    match bits v 0 2 with
    | 0 => execBpmAlloc a ⟨bits v 2 2 % 4, Nat.mod_lt _ (by decide)⟩ ⟨bits v 4 6 % 64, Nat.mod_lt _ (by decide)⟩ s
    | 1 => execBpmAddRef a h (BitVec.ofNat 8 (bits v 10 8)) s
    | 2 => execBpmRelease a h false s
    | _ => execBpmQuery a h s)

/-- TEL_FLOW_RD_GO (R320). -/
def writeFlowGo : WriteFn := fun s q _ v => if bit v 0 then s.after (execTelFlowRd q s) else s

/-- CNT_DUMP_CFG (R328): the periods of ALIGN 0 count from EN. -/
def writeDumpCfg : WriteFn := fun s q k v =>
  let was := s.on F.CNT_DUMP_CFG_EN
  let s := s.plainWrite q .CNT_DUMP_CFG k v
  if !was && bit v 0 then { s with dumpFrom := s.now } else s

/-- CNT_USER_PAGES (R332). -/
def writePages : WriteFn := fun s q k v =>
  s.after (execCntUserPagesWrite q ⟨k / 3 % 32, Nat.mod_lt _ (by decide)⟩ ⟨k % 3, Nat.mod_lt _ (by decide)⟩ (BitVec.ofNat 32 v) s)

/-- CNT_SEL (R332): a VF's write that would change it is refused whole. -/
def writeCntSel : WriteFn := fun s q n v =>
  match q with
  | .vf _ =>
    if bits v 0 8 = s.rd (F.CNT_SEL_EVENT n) && bits v 8 8 = s.rd (F.CNT_SEL_ARG n) && bits v 16 10 = s.rd (F.CNT_SEL_PIPE_MASK n) then s
    else s.locked q .CNT_SEL n 1
  | _ => s.plainWrite q .CNT_SEL n v

/-- CNT_CTL (R332). -/
def writeCntCtl : WriteFn := fun s q n v =>
  match q with
  | .vf f => s.after (execCntCtlVfWrite ⟨f.val % 32, Nat.mod_lt _ (by decide)⟩ ⟨n % 1088, Nat.mod_lt _ (by decide)⟩ (BitVec.ofNat 32 v) s)
  | _ => s.cntCtl n v

/-- RAS_SPARE_POLICY (R449, R462). -/
def writePolicy : WriteFn := fun s q _ v =>
  s.after (execSpareModeWrite q ⟨bits v 0 2 % 4, Nat.mod_lt _ (by decide)⟩ ⟨bits v 2 8 % 256, Nat.mod_lt _ (by decide)⟩ s)

/-- RAS_TM_CFG (R453): FIRE fires after the other fields have taken their values. -/
def writeTmCfg : WriteFn := fun s q k v =>
  let s := (s.plainWrite q .RAS_TM_CFG k v).wrB F.RAS_TM_CFG_FIRE false
  if bit v 15 then s.after (execRasTmFire q s) else s

/-- DBG_CTL (R457, R459). -/
def writeDbgCtl : WriteFn := fun s q _ v => s.after (execDbgArmWrite q (bit v 0) (s.wrB F.DBG_CTL_SPARE_COUNT (bit v 1)))

/-- A perturbation register (R457, R458): its effect follows at once while ARM is 1. DEDUCED: log entry 10. -/
def writePerturb (r : RegName) : WriteFn := fun s q k v =>
  let p := s.rd F.DBG_PERTURB_PFC_PORT
  let s := s.plainWrite q r k v
  (s.perturbUpdate p).perturbUpdate (s.rd F.DBG_PERTURB_PFC_PORT)

/-- PWR_FREQ_BOUND (R369): the core clock takes the fastest code the bounds now allow. DEDUCED: log entry 131. -/
def writeFreqBound : WriteFn := fun s q k v => (s.plainWrite q .PWR_FREQ_BOUND k v).applyCode

/-- The registers whose write does more than set fields. -/
def writeTable : List (RegName × WriteFn) := [
  (.CHIP_VEC_MAP, fun s _ k v => s.vecMapWrite k v),
  (.BOOT_PCIE_GO, fun s q _ v => if bit v 0 then s.pcieGo q else s),
  (.CLK_CFG, writeClkCfg),
  (.PWR_CFG, writePwrCfg),
  (.PWR_PRIO, writePwrPrio),
  (.PWR_FERRY_CFG, writeFerryCfg),
  (.PWR_FREQ_BOUND, writeFreqBound),
  (.KEEP_CFG, writeKeepCfg),
  (.LIGHT_CTL, writeLightCtl),
  (.LIGHT_RATE_ADJ, writeRateAdj),
  (.LIGHT_INCR, writeIncr),
  (.LIGHT_STEP_CTL, writeStepCtl),
  (.LIGHT_TM_CMP_NS, writeTmCmp),
  (.HARB_RX_CFG, fun s q r v => s.ringCfg q false r v),
  (.HARB_TX_CFG, fun s q r v => s.ringCfg q true r v),
  (.LANE_CTL, writeLaneCtl),
  (.LANE_BITSLIP, writeBitslip),
  (.PORT_CTL, writePortCtl),
  (.PORT_CFG, writePortCfg),
  (.LANE_TX_TAP, writeTxTap),
  (.MAC_RX_CFG, writeMacRx),
  (.MAC_PFC_CFG, writePfcCfg),
  (.PPE_BANK, writePpeBank),
  (.CLS_WR_CMD, writeClsCmd),
  (.CNT_TBL_CMD, writeTblCmd),
  (.MTR_CMD, writeMtrCmd),
  (.PIPE_PORT_LIVE, writePortLive),
  (.LAG_SPILL_LOW, writeSpill .LAG_SPILL_LOW),
  (.LAG_SPILL_HIGH, writeSpill .LAG_SPILL_HIGH),
  (.LAG_POOL, writePool),
  (.LAG_PG_CFG, writePgCfg),
  (.LAG_Q_CFG, writeQCfg),
  (.LAG_MQ_CFG, writeMqCfg)] ++ [
  (.TM_Q_CFG, writeTmQ),
  (.TM_MQ_CFG, writeTmMq),
  (.TM_GATE_CTL, writeGateCtl),
  (.MC_TSET_CMD, writeTset),
  (.MC_IDLE, writeMcIdle),
  (.BPM_FN_CMD, writeFnCmd),
  (.TEL_FLOW_RD_GO, writeFlowGo),
  (.CNT_DUMP_CFG, writeDumpCfg),
  (.CNT_USER_PAGES, writePages),
  (.CNT_SEL, writeCntSel),
  (.CNT_CTL, writeCntCtl),
  (.RAS_SPARE_POLICY, writePolicy),
  (.RAS_TM_CFG, writeTmCfg),
  (.DBG_CTL, writeDbgCtl),
  (.DBG_PERTURB_CWAY, writePerturb .DBG_PERTURB_CWAY),
  (.DBG_PERTURB_CWAY_W1, writePerturb .DBG_PERTURB_CWAY_W1),
  (.DBG_PERTURB_TM, writePerturb .DBG_PERTURB_TM),
  (.DBG_PERTURB_TM_W1, writePerturb .DBG_PERTURB_TM_W1),
  (.DBG_PERTURB_HBM, writePerturb .DBG_PERTURB_HBM),
  (.DBG_PERTURB_PFC, writePerturb .DBG_PERTURB_PFC),
  (.DBG_PERTURB_LANE, writePerturb .DBG_PERTURB_LANE),
  (.DBG_PERTURB_ECC, writePerturb .DBG_PERTURB_ECC)]

/-- A write of value `v` to instance `k` of register `r` by requester `q`. -/
def State.regWrite (s : State) (q : Requester) (r : RegName) (k v : Nat) : State :=
  match statusOf r with
  | some b => s.intStatusWrite b k v
  | none =>
    match maskOf r with
    | some b => s.intMaskWrite b k v
    | none =>
      match writeTable.find? (fun e => e.1 = r) with
      | some (_, f) => f s q k v
      | none => s.plainWrite q r k v

/-! ### Reads -/

/-- Word `w` of the bytes of an entry. -/
def wordOf (b : Bytes) (w : Nat) : Nat := leAt b (4 * w) 4

/-- An entry of the error log (R441). -/
def LogEntry.bytes (e : LogEntry) : Bytes :=
  leBytes 4 e.seq ++ leBytes 1 (e.cls + (if e.inj then 8 else 0) + (if e.restored then 16 else 0)) ++ leBytes 1 0 ++ leBytes 2 e.code ++
    leBytes 4 e.unit ++ leBytes 4 e.count ++ leBytes 4 e.timeS ++ leBytes 4 e.timeNs ++ leBytes 8 e.detail

/-- The sum of the fields of instance `k` of a register, each in its place; a WO field reads 0 (R17). -/
def State.fieldsOf (s : State) (r : RegName) (k : Nat) : Nat :=
  ((regRow r).fields k).foldl (fun a f => if f.2 = .wo then a else a + s.rd f.1 * 2 ^ f.1.lo) 0

/-- A one-bit field that follows from the rest of the state. -/
def flagAt (b : Bool) (n : Nat) : Nat := if b then 2 ^ n else 0

/-- A register's present value. Registers that follow from the rest of the state are computed. DESIGN CHOICE: log entry 1. -/
def State.regValue (s : State) (r : RegName) (k : Nat) : Nat :=
  let v := s.fieldsOf r k
  match r with
  | .CHIP_INT_SUMMARY => (List.range 39).foldl (fun a b => a + flagAt (s.summaryCond b) b) 0
  | .CHIP_INT_ISL =>
    (List.range 64).foldl (fun a b => a + flagAt (s.pendingOf (islandBlks.getD (b % 4) .lane) (b / 4)) b) 0
  | .LIGHT_INCR => s.incrRead k
  | .LIGHT_TSF_POP =>
    let l := mget s.tsfLatch (k / 4) (0, 0)
    match k % 4 with
    | 0 => ((mget s.tsf (k / 4) []).head?.map (fun e => e.w0)).getD 0
    | 1 => l.1
    | 2 => l.2 % 2 ^ 32
    | _ => l.2 / 2 ^ 32
  | .CLS_WR_STATUS => v + flagAt (s.clsBusy k) 0
  | .PIPE_COPY_STATUS => (s.copyStatus (k / 2) (k % 2)).fieldsOf r k
  | .MTR_STATUS => v + flagAt (s.now < s.ranAt .mtr k) 0
  | .LAG_Q_STATUS => v - s.rd (F.LAG_Q_STATUS_ALPHA_CUR k) * 2 ^ 20 + s.alphaCur k * 2 ^ 20
  | .LAG_MQ_STATUS => v - s.rd (F.LAG_MQ_STATUS_ALPHA_CUR k) * 2 ^ 20 + s.alphaCur (8192 + k) * 2 ^ 20
  | .TM_Q_STATUS => v + flagAt (s.headWaits k) (F.TM_Q_STATUS_WAIT_PAGE k).lo
  | .TM_MQ_STATUS => v + flagAt (s.headWaits (8192 + k)) (F.TM_MQ_STATUS_WAIT_PAGE k).lo
  | .RAS_FATAL_FIRST => (s.fatalFirst.map (fun e => wordOf e.bytes k)).getD 0
  | .RAS_SPARE_STATUS =>
    v - s.rd F.RAS_SPARE_STATUS_BUSY * 2 ^ F.RAS_SPARE_STATUS_BUSY.lo + flagAt s.sparing F.RAS_SPARE_STATUS_BUSY.lo
  | .RAS_LOG => ((s.log.find? (fun e => e.seq % 4096 = k / 8)).map (fun e => wordOf e.bytes (k % 8))).getD 0
  | .DBG_TM_SNAP => wordOf s.snapBytes k
  | _ => v

/-- A read of a whole register, or of the only or the low word of one: its value, and the state after its side effects (R17, R355). -/
def State.regRead (s : State) (r : RegName) (k : Nat) : Nat × State :=
  match r with
  | .LIGHT_TSF_POP => if k % 4 = 0 then s.tsfPop (k / 4) else (s.regValue r k, s)
  | _ =>
    (s.regValue r k, ((regRow r).fields k).foldl (fun s f => if f.2 = .rc then s.wr f.1 0 else s) s)

/-- What a read of the high word of a register does besides (R357, PRS_STATUS.MAX_STEPS). -/
def State.highRead (s : State) (r : RegName) (k : Nat) : State :=
  match r with
  | .PRS_STEPS => s.wr (F.PRS_STATUS_MAX_STEPS k) 0
  | .LIGHT_PPS_IN_TS => if k = 1 then { s.wrB F.LIGHT_PPS_IN_STAT_OVERRUN false with ppsUnread := false } else s
  | _ => s

/-! ### Accesses (R463 to R467) -/

/-- A register that answers before READY (R403): the blocks that the boot ROM serves, and the Dysum rings of PF0. -/
def bootServes (addr : Nat) : Bool :=
  addr / 2 ^ 20 ≤ 4 || addr / 2 ^ 24 = 0xD || (0x700000 ≤ addr && addr < 0x700100) || addr = 0x700F00 || addr = 0x700F04

/-- The register that an address reaches now. -/
def State.reach (s : State) (addr : Nat) : Option (RegName × Nat × Bool) :=
  if s.ready || bootServes addr then regAt addr else none

/-- A held low word of requester `q` is dropped when it writes another register (R467). -/
def State.dropHeld (s : State) (q : Requester) (r : RegName) (k : Nat) : State :=
  match mget s.held (requesterIx q) none with
  | some h => if h.reg = r && h.ix = k then s else { s with held := mset s.held (requesterIx q) none none }
  | none => s

/-- A 4-byte read (R465, R466). -/
def State.readWord (s : State) (q : Requester) (addr : Nat) : Nat × State :=
  match s.reach addr with
  | none => (0, s)
  | some (r, k, true) =>
    match mget s.latch (requesterIx q) none with
    | some l =>
      if l.reg = r && l.ix = k then (l.hi, { s with latch := mset s.latch (requesterIx q) none none }.highRead r k)
      else (s.regValue r k / 2 ^ 32, s.highRead r k)
    | none => (s.regValue r k / 2 ^ 32, s.highRead r k)
  | some (r, k, false) =>
    let (v, s) := s.regRead r k
    if (regRow r).wide then
      (v % 2 ^ 32, { s with latch := mset s.latch (requesterIx q) (some { reg := r, ix := k, hi := v / 2 ^ 32 }) none })
    else (v, s)

/-- A read of `size` bytes (R465): 1, 2, 4 or 8, aligned. -/
def State.readAccess (s : State) (q : Requester) (addr size : Nat) : Nat × State :=
  if size = 8 then
    match s.reach addr with
    | some (r, k, false) =>
      if (regRow r).wide then
        let (v, s) := s.regRead r k
        (v, s.highRead r k)
      else
        let (a, s) := s.readWord q addr
        let (b, s) := s.readWord q (addr + 4)
        (a + b * 2 ^ 32, s)
    | _ =>
      let (a, s) := s.readWord q addr
      let (b, s) := s.readWord q (addr + 4)
      (a + b * 2 ^ 32, s)
  else
    let (v, s) := s.readWord q (addr / 4 * 4)
    (bits v (8 * (addr % 4)) (8 * size), s)

/-- A 4-byte write that reaches its register (R465, R467). -/
def State.writeAt (s : State) (q : Requester) (addr v : Nat) : State :=
  match regAt addr with
  | none => s
  | some (r, k, hi) =>
    let s := s.dropHeld q r k
    if !(regRow r).wide then s.regWrite q r k v
    else if hi then
      let lo := match mget s.held (requesterIx q) none with
        | some h => h.lo
        | none => s.regValue r k % 2 ^ 32
      { s with held := mset s.held (requesterIx q) none none }.regWrite q r k (lo + v * 2 ^ 32)
    else { s with held := mset s.held (requesterIx q) (some { reg := r, ix := k, lo := v }) none }

/-- A 4-byte write by a requester. -/
def State.writeWord (s : State) (q : Requester) (addr v : Nat) : State :=
  if (s.reach addr).isSome then s.writeAt q addr v else s

/-- A write of `size` bytes (R465, R467): 4 and 8 act, 1 and 2 are discarded with reason SIZE. -/
def State.writeAccess (s : State) (q : Requester) (addr size v : Nat) : State :=
  if size = 4 then s.writeWord q addr v
  else if size = 8 then
    match s.reach addr with
    | some (r, k, false) =>
      if (regRow r).wide then { s with held := mset s.held (requesterIx q) none none }.regWrite q r k v
      else (s.writeWord q addr (v % 2 ^ 32)).writeWord q (addr + 4) (v / 2 ^ 32)
    | _ => (s.writeWord q addr (v % 2 ^ 32)).writeWord q (addr + 4) (v / 2 ^ 32)
  else
    match s.reach (addr / 4 * 4) with
    | none => s
    | some (r, k, _) => (s.dropHeld q r k).discard q (regAddr r k) 0 1

/-- The size and the place of an access are ones that BAR0 takes (R465). -/
def accessOk (addr size : Nat) : Bool := [1, 2, 4, 8].contains size && addr % size = 0 && addr < 2 ^ 28

/-! ### VF windows (R413) -/

/-- The BAR0 address behind an offset of the window of VF `f`, if the VF owns what lies there. -/
def State.windowAddr (s : State) (f off : Nat) : Option Nat :=
  if off < 0x1000 then
    if s.ringOwner false (off / 0x40) = f then some (0x601000 + off) else none
  else if 0x2000 ≤ off && off < 0x3000 then
    if s.ringOwner true ((off - 0x2000) / 0x40) = f then some (0x602000 + (off - 0x2000)) else none
  else if 0x10000 ≤ off && off < 0x10040 then some (0x700000 + 0x40 * (3 + f) + (off - 0x10000))
  else if 0x20000 ≤ off && off < 0x20018 then some (0x9004000 + 0x100 * f + (off - 0x20000))
  else if 0x40000 ≤ off && off < 0x40000 + 0x1000 * 68 then
    if s.pageOf f ((off - 0x40000) / 0x1000) then some (0xC100000 + (off - 0x40000)) else none
  else none

/-- A VF may reach the register at a BAR0 address through its window. DEDUCED: log entry 82. -/
def State.vfReaches (s : State) (f addr : Nat) : Bool :=
  match regAt addr with
  | some (r, k, _) =>
    match r with
    | .HARB_RX_BASE => s.ringOwner false k = f
    | .HARB_RX_CFG => s.ringOwner false k = f
    | .HARB_RX_TAIL => s.ringOwner false k = f
    | .HARB_RX_HEAD => s.ringOwner false k = f
    | .HARB_RX_DROP => s.ringOwner false k = f
    | .HARB_TX_BASE => s.ringOwner true k = f
    | .HARB_TX_CFG => s.ringOwner true k = f
    | .HARB_TX_TAIL => s.ringOwner true k = f
    | .HARB_TX_HEAD => s.ringOwner true k = f
    | .HARB_TX_DROP => s.ringOwner true k = f
    | .DYS_RING_CFG => k = 3 + f
    | .DYS_CMD_BASE => k = 3 + f
    | .DYS_RSP_BASE => k = 3 + f
    | .DYS_CMD_TAIL => k = 3 + f
    | .DYS_CMD_HEAD => k = 3 + f
    | .DYS_RSP_TAIL => k = 3 + f
    | .BPM_FN_ARG => k = f
    | .BPM_FN_CMD => k = f
    | .BPM_FN_RESULT => k = f
    | .BPM_FN_HANDLE => k = f
    | .CNT_SEL => s.pageOf f (k / 16)
    | .CNT_CTL => s.pageOf f (k / 16)
    | .CNT_VALUE => s.pageOf f (k / 16)
    | .CNT_PRESET => s.pageOf f (k / 16)
    | _ => false
  | none => false

/-- A read by any requester: the data returns to it; a VF reads 0 where its window ends (R413). -/
def State.read (s : State) (q : Requester) (addr size : Nat) : State :=
  if !accessOk addr size then s
  else
    let (v, t) : Nat × State := match q with
      | .vf f => if s.vfReaches f addr then s.readAccess q addr size else (0, s)
      | _ => s.readAccess q addr size
    t.emit (.readData q addr size v)

/-- A 4-byte write of `v` at `addr` changes a field of the list of R434: the BOOT block, HARB_VF_PORTS, CNT_USER_PAGES, DYS_ETH_CFG and
DYS_ETH_ACL as wholes, and OWNER and TRUSTED where the value differs from the present one. DEDUCED: log entries 82, 109. -/
def State.ownerField (s : State) (addr v : Nat) : Bool :=
  match regAt addr with
  | none => addr / 2 ^ 20 = 1
  | some (r, k, _) =>
    addr / 2 ^ 20 = 1 ||
    match r with
    | .HARB_RX_CFG => s.ringOwner false k ≠ bits v 5 5
    | .HARB_TX_CFG => s.ringOwner true k ≠ bits v 5 5
    | .HARB_VF_PORTS => true
    | .CNT_USER_PAGES => true
    | .DYS_ETH_CFG => true
    | .DYS_ETH_ADDR => true
    | .DYS_ETH_ACL => true
    | .DYS_ETH_ACL_CTL => true
    | .PORT_CFG => s.rd (F.PORT_CFG_TRUSTED k) ≠ bits v (F.PORT_CFG_TRUSTED k).lo 1
    | _ => false

/-- A write by any requester; a VF's outside its window is counted (R413), and a management port's to a field of R434 has no effect.
DEDUCED: log entries 82, 109. -/
def State.write (s : State) (q : Requester) (addr size v : Nat) : State :=
  if !accessOk addr size then s
  else
    match q with
    | .vf f => if s.vfReaches f addr then s.writeAccess q addr size v else s.vfDenied f
    | .dysPcie k => if k.val < 4 then s.writeAccess q addr size v else s
    | .dysEth _ => if s.ownerField addr (v % 2 ^ 32) || (size = 8 && s.ownerField (addr + 4) (v / 2 ^ 32)) then s else s.writeAccess q addr size v
    | _ => s.writeAccess q addr size v

end Sys2Proof.Machine
end

