-- ==== Sys2Proof/Machine/Boot.lean ====
section
/-! DEFINITION. The boot sequence: its stages, loading an image, and restoring the Keep sections (R389, R391 to R405, R443, R452, R469). -/

namespace Sys2Proof.Machine

/-! ### Resets and the first stages -/

/-- DEVICE_RESET (R469): power-up, RESET_N, RESET_REQ or a PCIe conventional reset; the straps show `src` and `i2c` (R400). -/
def execDeviceReset (cause : ResetCause) (src : Fin 4) (i2c : Bool) (s : State) : Result := .next (s.deviceReset cause src i2c)

/-- JTAG_DEV_RESET (R460, R461): the instruction resets the XH9 as RESET_N does; no strap is sampled. -/
def execJtagDevReset (s : State) : Result := .next (({ s with harb := { s.harb with tapIr := 0x22 } }).deviceReset .devReset 0 false)

/-- POWER_UP_RAILS (R489): every rail lies in its range, and the XH9 leaves power-up reset. DESIGN CHOICE: log entry 51. DEDUCED: log
entries 89, 90. -/
def execPowerUpRails (s : State) : Result := .next (s.updBoot (fun b => { b with powerHeld := false }))

/-- FUSE_DONE (R396, R403). DEDUCED: log entry 141. -/
def execFuseDone (s : State) : Result :=
  .next (if s.stage = 0 && !s.boot.powerHeld then s.fuseSense.stageEnter 1 else s)

/-- CLOCK_DONE (R364, R403): both ROOT PLLs have locked to the references that are present; a PLL that the fuses record as FAILED stays so. -/
def execClockDone (ref0 ref1 : Bool) (s : State) : Result :=
  .next (
    if s.stage ≠ 1 then s
    else
      let s := (s.wrB F.CLK_STATUS_REF0_OK ref0).wrB F.CLK_STATUS_REF1_OK ref1
      let bad (k : Nat) : Bool := mget s.fuses.map (key2 7 k) 0 ≠ 0
      let s := if bad 0 then (s.wr F.CLK_STATUS_A_STATE 3).wr F.CLK_STATUS_B_STATE 0
        else if bad 1 then s.wr F.CLK_STATUS_B_STATE 3 else s
      s.fetchFrom (if s.fuses.bootSrc = 1 then 3 else 1))

/-- BOOT_PCIE_GO (R402, R405, R410). -/
def execBootPcieGo (q : Requester) (s : State) : Result := if !s.grants q true || viaEth q then .next s else .next (s.pcieGo q)

/-- FETCH_DONE (R401, R403): the image that the source holds has been read. -/
def execFetchDone (image : Image) (s : State) : Result :=
  .next (if s.stage = 2 && !s.boot.waitGo then (s.stageEnter 3).updBoot (fun b => { b with image := some image }) else s)

/-- VERIFY_DONE (R395, R402, R403): a valid image loads; an invalid one is rejected and the next source is tried. With no slot programmed
the boot stops in KEYWAIT. DEDUCED: log entry 93. -/
def execVerifyDone (s : State) : Result :=
  .next (
    if s.stage ≠ 3 then s
    else
      match s.boot.image with
      | none => s
      | some im =>
        if s.fuses.digests.isEmpty then (s.stageEnter 8).raise .boot 0 2
        else
          match s.imageError im false with
          | 0 => s.stageEnter 4
          | c => (s.imageRejected c false).nextSource)

/-! ### Loading -/

/-- Registers of a partition: regions (stack, region, base, size in MiB), pools and reserves (R207 to R209, R215). -/
def State.partition (s : State) (rs : List (Nat × Nat × Nat × Nat)) (ps vs : List (Nat × Nat)) : State :=
  let s := rs.foldl (fun s r =>
    (s.wr (F.BPM_REGION_BASE (10 * r.1 + r.2.1)) r.2.2.1).wr (F.BPM_REGION_SIZE (10 * r.1 + r.2.1)) r.2.2.2) s
  let s := ps.foldl (fun s p =>
    (s.updBpm (fun b => { b with size := mset b.size p.1 p.2 0 })).wr (F.BPM_POOL_FREE_FREE (4 * (p.1 / 8) + p.1 % 8)) p.2) s
  vs.foldl (fun s e => s.pokeWord e) s

/-- A section takes effect (R391). -/
def State.loadSec (s : State) (c : Sec) : State :=
  let y := 10 * c.island + c.pipe
  let pool := 2 * c.island + c.pipe / 5
  match c.body with
  | .portMap l => l.foldl (fun s d => (s.define d).wr (F.TM_PORT_CFG_WEIGHT d.port) ((formSpeed d + 24) / 25)) s
  | .parseGraph g vs => s.putProgram y (some g) (mget s.mat.progs y none) vs
  | .pipeProgram p => (s.wr (F.PIPE_STATUS_PROG_ID y) p.id).putProgram y (mget s.mat.graphs y none) (some p) (mget s.mat.values y [])
  | .tableLayout l => l.foldl (fun s t => s.addTable pool t) s
  | .tableInit l ms is =>
    let s := s.updMat (fun m => { m with tables := m.tables.map (fun e => if (Nat.unpair e.1).1 = pool then (e.1, e.2.map (setMiss ms)) else e) })
    (List.range 4).foldl (fun s g => (s.initRegs pool g false is).initEntries pool g (fun _ => false) (fun _ => true) l) s
  | .patterns l _ => s.updMat (fun m => { m with patterns := mset m.patterns (2 * c.island) l [] })
  | .meterMode wide => (List.range 16).foldl (fun s i => s.wrB (F.MTR_CFG_MODE i) (wide.getLsbD i)) s
  | .lagoon l => ((l.foldl (fun s e => s.pokeWord e) s).overcommitUpdate 0).overcommitUpdate 1
  | .hbmPartition rs ps vs => s.partition rs ps vs
  | .bpmDomains l => l.foldl (fun s e => s.wr (F.BPM_AGENT_DOMAIN_MASK e.1) e.2) s
  | .names => s
  | .regInit _ => s
  | .unknown => s

/-- The REG_INIT lists, applied after every section as if host software made the writes (R392, R403). DEDUCED: log entry 102. -/
def State.loadInit (s : State) (c : Sec) : State :=
  match c.body with
  | .regInit l => l.foldl (fun s e => s.writeAt .regInit e.1 e.2) s
  | _ => s

/-- Every stack has taken its boot training (R244). -/
def State.trained (s : State) : Bool := (List.range 6).all (fun st => !(s.mcOf st).trainTemp.isEmpty)

/-- LOAD_DONE (R391, R403): after HBM training the image is copied to the IMAGE regions, and the sections apply in section-table order, then
REG_INIT. DEDUCED: log entries 102, 141. -/
def execLoadDone (s : State) : Result :=
  .next (
    if s.stage ≠ 4 || !s.trained then s
    else
      match s.boot.image with
      | none => s
      | some im =>
        let s := (im.secs.foldl (fun s c => s.loadSec c) s).imageStore 0 im.bytes
        let s := im.secs.foldl (fun s c => s.loadInit c) s
        let s := (s.wr F.BOOT_STATUS_USED s.boot.source).wr F.BOOT_KEY_STATUS_SLOT_USED im.keySlot
        let s := (s.wr F.BOOT_IMAGE_IMAGE_ID im.imageId).wr F.BOOT_IMAGE_SVN_SVN im.svn
        (s.updBoot (fun b => { b with running := some im, image := none })).stageEnter 5)

/-! ### Restoring -/

/-- The resource that a record of the spare map names in the place of another; none in a record of fuse repair that names none (R13). -/
def mapSub (v : Nat) : Option Nat := if v < 2 then none else some (v - 2)

/-- A lane comes back FAILED; the hot spare that replaced it carries its logical lane (R58, R389, R452). -/
def State.backLane (s : State) (l v : Nat) : State :=
  let s := s.wr (F.LANE_STATUS_STATE l) 5
  match mapSub v, s.portOfLane l with
  | some n, some p =>
    match (s.mainLanes p).findIdx? (fun m => m = l) with
    | none => s
    | some k =>
      let s := { s with laneMap := mset (mset s.laneMap (key2 p k) (some n) none) (key2 p 8) (some 544) none }
      let s := (s.wr (F.LANE_CTL_MODE n) (s.rd (F.PORT_CFG_MODE p))).wr (F.LANE_STATUS_PORT n) p
      ((s.wr (F.LANE_STATUS_LOGICAL n) k).wr (F.LANE_STATUS_PORT l) noPort).wr (F.LANE_STATUS_LOGICAL l) 0
  | _, _ => s

/-- A Lagoon bank comes back RETIRED, with its substitute, or a RESERVE bank of its half, in its place (R175, R389). -/
def State.backBank (s : State) (o v : Nat) : State :=
  let h := o / 34
  let reserve : Bool := s.rd (F.LAG_BANK_STATUS_STATE o) = 1
  let s := s.wr (F.LAG_BANK_STATUS_STATE o) 3
  if reserve then s
  else
    match (mapSub v).orElse (fun _ => (s.reserveBank h).map (fun b => 34 * h + b)) with
    | some b => if s.rd (F.LAG_BANK_STATUS_STATE b) = 1 then s.wr (F.LAG_BANK_STATUS_STATE b) 0 else s
    | none => s

/-- A pipeline comes back RETIRED; the reserve of its direction serves its group with its program (R164, R389). A direction has one reserve,
so it is the substitute that the record names. -/
def State.backPipe (s : State) (o : Nat) : State :=
  let i := o / 10
  let reserve : Bool := s.pipeState o = 1
  let s := s.wr (F.PIPE_STATUS_STATE o) 4
  if reserve then s
  else
    match s.reservePipe i (o % 10 / 5) with
    | some x =>
      let y := 10 * i + x
      let s := (s.wr (F.PIPE_STATUS_STATE y) 0).wr (F.PIPE_STATUS_GROUP y) (s.rd (F.PIPE_STATUS_GROUP o))
      let s := (s.wr (F.PIPE_STATUS_PROG_ID y) (s.rd (F.PIPE_STATUS_PROG_ID o))).putProgram y (mget s.mat.graphs o none)
        (mget s.mat.progs o none) (mget s.mat.values o [])
      let s := (List.range 16).foldl (fun s k => s.wr (F.PRS_VALUE_VALUE (16 * y + k)) (s.rd (F.PRS_VALUE_VALUE (16 * o + k)))) s
      s.clearPipe o
    | none => s.clearPipe o

/-- An engine comes back RETIRED, and its substitute, or a RESERVE engine of its die, takes its role (R300, R389). -/
def State.backEngine (s : State) (e v : Nat) : State :=
  let reserve : Bool := s.rd (F.ATL_ENG_STATUS_STATE e) = 1
  let role := s.rd (F.ATL_ENG_STATUS_ROLE e)
  let s := ((s.wr (F.ATL_ENG_STATUS_STATE e) 3).wr (F.ATL_ENG_STATUS_ROLE e) 0x3F)
  if reserve then s
  else
    match (mapSub v).orElse (fun _ => s.reserveEngine (engineDie e)) with
    | some r =>
      if s.rd (F.ATL_ENG_STATUS_STATE r) = 1 then (s.wr (F.ATL_ENG_STATUS_STATE r) 0).wr (F.ATL_ENG_STATUS_ROLE r) role else s
    | none => s

/-- A Causeway wire comes back replaced by a reserve wire of its bundle (R32, R389). -/
def State.backWire (s : State) (o v : Nat) : State :=
  let (d, b, w) := wireObj o
  let k := 64 * d + b
  let sub := (mapSub v).getD (if s.rd (F.CWAY_BUNDLE_STATUS_SUB0 k) = 0x7F then 0 else 1)
  s.wr (if sub = 0 then F.CWAY_BUNDLE_STATUS_SUB0 k else F.CWAY_BUNDLE_STATUS_SUB1 k) w

/-- A bundle comes back RETIRED, its direct mapping on the next bundle (R31, R389). -/
def State.backBundle (s : State) (o : Nat) : State :=
  let d := o / 64
  let s := s.wr (F.CWAY_BUNDLE_STATUS_STATE o) 3
  let s := s.subFrom (if d = 0 then F.CWAY_STATUS_ACTIVE_NS else F.CWAY_STATUS_ACTIVE_SN) 1
  match s.nextActive d (o % 64) with
  | some k => s.updCway (fun c => { c with pins := mset c.pins (key2 d (o % 64)) k 64 })
  | none => s

/-- A PLL comes back FAILED; its twin drives the clock tree (R364, R389). -/
def State.backPll (s : State) (k : Nat) : State :=
  let s := if s.rd (pllStateF k) = 0 then s.wr (pllStateF (1 - k)) 0 else s
  s.wr (pllStateF k) 3

/-- Channel sparing of logical channel `c` of a stack comes back complete (R221, R243, R389). -/
def State.backChannel (s : State) (o : Nat) : State :=
  let st := o / 32
  let s := s.wr (F.MC_CHMAP_PHYS (31 * st + o % 32)) (s.sparePhys st)
  ((s.wr (F.MC_STATUS_SPARE st) 2).wr (F.MC_STATUS_SPARED_CH st) (o % 32)).wr (F.MC_STATUS_COPY_PCT st) 100

/-- What the spare map records of object `o` of kind `k` is in force again (R389, R452). DESIGN CHOICE: log entry 164. -/
def State.backOne (s : State) (k o v : Nat) : State :=
  if v = 0 then s
  else
    match k with
    | 0 => s.backLane o v
    | 1 => s.backWire o v
    | 2 => s.backBank o v
    | 3 => s.backPipe o
    | 4 => s.backChannel o
    | 5 => s.backEngine o v
    | 6 => s.updRas (fun r => { r with repairs := r.repairs ++ [(o / 8, o % 8)] })
    | 7 => s.backPll o
    | 8 => s.backBundle o
    | 9 => s.wrB F.RAS_SPARE_STATUS_LIFE_VOID true
    | _ => s

/-- Entries of kind `k` of a spare map. -/
def mapCount (m : PMap Nat) (k : Nat) : Nat := (m.filter (fun e => (Nat.unpair e.1).1 = k && e.2 ≠ 0)).length

/-- The spare map `m` is in force, and RAS_SPARE_SUMMARY counts it (R452). DEDUCED: log entries 103, 104. -/
def State.backMap (s : State) (m : PMap Nat) : State :=
  let s := m.foldl (fun s e => s.backOne (Nat.unpair e.1).1 (Nat.unpair e.1).2 e.2) { s with spareMap := m }
  let late := m.filter (fun e => mget s.fuses.map e.1 0 = 0)
  (List.range 8).foldl (fun s k =>
    (s.wr (F.RAS_SPARE_SUMMARY_FREE k) (rasSpareTotal k - mget s.fuses.used k 0 - mapCount late k)).wr
      (F.RAS_SPARE_SUMMARY_HI_FAILED k) (mapCount m k)) s

/-- How many of the fields `l` hold a value that `p` accepts. -/
def State.countFlds (s : State) (l : List Fld) (p : Nat → Bool) : Nat := (l.filter (fun f => p (s.rd f))).length

/-- The counts of reserves and of free cells follow the states that have come back. -/
def State.backCounts (s : State) : State :=
  let s := (List.range 2).foldl (fun s h =>
    let banks := (List.range 34).map (fun b => F.LAG_BANK_STATUS_STATE (34 * h + b))
    let s := s.wr (F.LAG_HALF_STATUS_RESERVE_LEFT h) (s.countFlds banks (fun v => v = 1))
    let s := s.subFrom (F.LAG_HALF_STATUS_FREE h) (16384 * (32 - s.countFlds banks (fun v => v = 0)))
    s.wr (reserveF h)
      (s.countFlds (((List.range 36).filter (fun e => engineDie e = h)).map F.ATL_ENG_STATUS_STATE) (fun v => v = 1))) s
  (List.range 2).foldl (fun s d =>
    let wires := (List.range 64).flatMap (fun b => [F.CWAY_BUNDLE_STATUS_SUB0 (64 * d + b), F.CWAY_BUNDLE_STATUS_SUB1 (64 * d + b)])
    s.wr (if d = 0 then F.CWAY_STATUS_SPARES_NS else F.CWAY_STATUS_SPARES_SN) (s.countFlds wires (fun v => v = 0x7F))) s

/-- The bank states, engine roles and wire substitutions of section 2 are in force again (R389). -/
def State.backRoles (s : State) (m : PMap Nat) : State := roleFlds.foldl (fun s f => s.wr f (mget m f.key f.dflt)) s

/-- Saved partner entries come back (R106). -/
def State.backPartners (s : State) (m : PMap Bytes) : State := m.foldl (fun s e => s.backPartner e.1 e.2) s

/-- Domain A starts in FREE at the saved time and rate (R345). -/
def State.backTime (s : State) (t : Nat × Nat × Nat × Nat) : State :=
  let (sec, ns, frac, adj) := t
  ({ s with domA := { s.domA with sec := sec, ns := ns, frac := frac * 2 ^ 40 } }.wr (F.LIGHT_RATE_ADJ_ADJ 0) adj).wrB
    (F.LIGHT_STATUS_RESTORED 0) true

/-- Restored events enter the log ahead of any new one, newest last, and the log is numbered from 0 (R441, R443). DEDUCED: log entry 104. -/
def State.backEvents (s : State) (l : List LogEntry) : State :=
  let all := s.log ++ l
  let n := all.length
  { s with log := ((all.zip (List.range n)).map (fun (e : LogEntry × Nat) => { e.1 with seq := n - 1 - e.2 })).take 4096 }.wr F.RAS_LOG_WR_SEQ n

/-- A section of the store is restored (R389). -/
def State.backSec (s : State) (k : Nat) (c : KeepSec) : State :=
  match k with
  | 1 =>
    match c.time with
    | some t => s.backTime t
    | none => s
  | 2 => (((s.setRegsOf spareRegs c.regs).backMap c.map).backRoles c.regs).backCounts
  | 3 => (s.setRegsOf wearRegs c.regs).updRas (fun r => { r with ages := c.ages })
  | 4 => s.backPartners c.partners
  | 5 => { s with snap := c.snap }
  | 6 => s.backEvents c.events
  | _ => s

/-- The Keep sections of the newest slots in which each is good, and the fuses' spare map where none holds section 2 (R389). -/
def State.backKeep (s : State) : State :=
  let found := (List.range 7).filter (fun k => (s.newestSec k).isSome)
  let s := (List.range 7).foldl (fun s k => match s.newestSec k with
    | some c => s.backSec k c
    | none => if k = 2 then (s.backMap s.fuses.map).backCounts else s) s
  let s := (s.wr F.KEEP_STATUS_RESTORED (found.foldl (fun a k => a + 2 ^ k) 0)).wr F.KEEP_STATUS_LAST s.keep.last
  let s := (s.wr F.KEEP_STATUS_SLOT s.keep.lastSlot).wr F.KEEP_SEQ_SEQ s.keep.seqComplete
  if found.isEmpty then s.raise .keep 0 2 else if s.keep.last = 2 then s.raise .keep 0 1 else s

/-- The free rings are built without the buffers of retired blocks (R242, R403). -/
def State.backRetired (s : State) : State :=
  (List.range 6).foldl (fun s st =>
    (List.range 512).foldl (fun s e =>
      if s.on (F.MC_RETIRE_LIST_VALID (512 * st + e)) then s.markBuffers st (s.rd (F.MC_RETIRE_LIST_BLOCK (512 * st + e))) else s) s) s

/-- RESTORE_DONE (R389, R403): the sections come back, the free rings are built, ports with a FAILED main lane stay UNDEFINED, and the boot
reaches READY. DEDUCED: log entries 103, 141. -/
def execRestoreDone (s : State) : Result :=
  .next (
    if s.stage ≠ 5 then s
    else
      let s := s.backKeep.backRetired
      let s := (List.range 512).foldl (fun s p =>
        if s.portState p ≠ 0 && (s.mainLanes p).any (fun l => s.laneState l = 5) then s.undefine p else s) s
      ((s.wr F.BOOT_STATUS_ELAPSED (min 65535 (s.now / 160000))).stageEnter 6).raise .boot 0 0)

/-! ### Pattern banks -/

/-- Patterns that the staged image brings for an island. -/
def State.stagedPatterns (s : State) (i : Nat) : Option (List Pattern) :=
  match s.boot.staged with
  | some im => im.secs.findSome? (fun c => match c.body with
      | .patterns l _ => if c.island = i then some l else none
      | _ => none)
  | none => none

/-- The inactive banks of a staged table-set image hold nothing verified any more, and no load goes on. DEDUCED: log entry 105. -/
def State.dropPatterns (s : State) (im : Image) : State :=
  if im.type ≠ 2 then s
  else im.secs.foldl (fun s c => (s.wrB (F.PPE_BANK_SHADOW_OK c.island) false).wrB (F.PPE_BANK_LOADING c.island) false) s

/-- PPE_LOAD_DONE (R127, R407): the inactive bank of an island holds the staged pattern set, or its load fails. DESIGN CHOICE: log entry
122. -/
def execPpeLoadDone (i : Fin 16) (ok : Bool) (s : State) : Result :=
  .next (
    if !s.boot.loading.contains i.val then s
    else
      match s.boot.staged, s.stagedPatterns i with
      | some im, some l =>
        let s := s.wrB (F.PPE_BANK_LOADING i) false
        if ok then
          let bank := 2 * i.val + (1 - s.rd (F.PPE_BANK_ACTIVE i))
          let s := (s.updMat (fun m => { m with patterns := mset m.patterns bank l [] })).wrB (F.PPE_BANK_SHADOW_OK i) true
          let s := s.updBoot (fun b => { b with loading := b.loading.erase i.val })
          if s.boot.loading.isEmpty then s.finishHold holdStage 0 stOk 0 0 else s
        else ((s.dropPatterns im).unstage).finishHold holdStage 0 stImageInvalid 0 0
      | _, _ => s)

end Sys2Proof.Machine
end

