-- ==== Sys2Proof/Machine/Harbour.lean ====
section
/-! DEFINITION. The commands of Harbour and of the interfaces: rings, windows, function level resets, Dysum doorbells and datagrams
(R411 to R423, R435, R470, R478, R479). -/

namespace Sys2Proof.Machine

/-! ### Receive rings -/

/-- RX_TAIL_WRITE (R413, R416): requester `q` advances TAIL of RX ring `r`. -/
def execRxTailWrite (q : Requester) (r : Fin 64) (tail : Fin 65536) (s : State) : Result :=
  .next (s.write q (regAddr .HARB_RX_TAIL r) 4 tail)

/-- The CPU queue that Harbour serves now (R248, R250), while the shaper of the CPU node allows. -/
def State.cpuDecide (s : State) : Option Child :=
  if s.stopped || !s.maxOk shaperCpu then none else s.choose s.vCpu s.cpuChildren

/-- Tags, virtual time and shaper of the CPU node after it has served `c` with charged length `n` (R248, R251). -/
def State.cpuAccount (s : State) (c : Child) (n : Nat) : State :=
  let l := s.cpuChildren
  (s.updTm (fun t => { t with tagQ := s.servedTags s.vCpu t.tagQ l c n, vC := mset t.vC c.prio c.tag 0,
                              out := servedOut t.out l })).chargeShaper shaperCpu n

/-- The frame at the head of the CPU queue of ring `r` leaves it: into `bufs`, or dropped where a word of it is uncorrectable. -/
def State.cpuServe (s : State) (r : Nat) (e : QEnt) (x : Pkt) (bufs : List Nat) (errs : List (Nat × Bool)) : State :=
  let k := 9216 + r
  let (bad, s) := (s.popQueue k).readCells k x errs
  let s := if bad then
      (s.setPkt e.pkt (some { x with bad := true })).drop 0x45
        { inPort := x.inPort, host := x.host, data := x.data, md := x.md, ts := x.ts, depth := e.depth }
    else s.rxWrite r x bufs
  s.release e.pkt

/-- RX_FRAME_WRITE (R41, R248, R416, R417): one decision of the CPU scheduler. `bufs` are the host addresses in the posted descriptors of
the ring that it serves, in ring order, and `errs` the cells that read with an error. DEDUCED: log entry 83. -/
def execRxFrameWrite (bufs : List Nat) (errs : List (Nat × Bool)) (s : State) : Result :=
  .next (
    match s.cpuDecide with
    | none => s
    | some c =>
      let r := c.ix - 9216
      match s.headPkt c.ix with
      | none => s
      | some (e, x) =>
        if bufs.length < s.rxNeed r x.data.length then s
        else (s.cpuAccount c (max 1 x.data.length)).cpuServe r e x bufs errs)

/-- RX_ITR_EXPIRE (R417): ITR µs after the first waiting frame of ring `r`, its vector is raised. -/
def execRxItrExpire (r : Fin 64) (s : State) : Result :=
  .next (
    match mfind s.harb.since r with
    | none => s
    | some t =>
      if s.now < t + 1600 * s.rd (F.HARB_RX_CFG_ITR r) then s
      else (s.updHarb (fun h => { h with waiting := mset h.waiting r 0 0, since := merase h.since r })).ringRaise false r)

/-! ### Transmit rings -/

/-- TX_TAIL_WRITE (R413, R419): requester `q` advances TAIL of TX ring `r`. -/
def execTxTailWrite (q : Requester) (r : Fin 64) (tail : Fin 65536) (s : State) : Result :=
  .next (s.write q (regAddr .HARB_TX_TAIL r) 4 tail)

/-- FLAGS of a descriptor with DONE set (R418). -/
def flagsDone (d : TxDesc) : Nat :=
  (if d.last then 1 else 0) + (if d.path then 2 else 0) + (if d.int then 4 else 0) + 128

/-- The frame of the next `n` descriptors of TX ring `r` has STATUS `st`: DONE and STATUS go into the last one, `d`, and HEAD moves past
them (R418, R419). DEDUCED: log entry 84. -/
def State.txDone (s : State) (r n : Nat) (d : TxDesc) (st : Nat) : State :=
  let a := s.descAddr true r (n - 1)
  let o := s.ringOwner true r
  let s := (s.emit (.hostWrite o (a + 10) (leBytes 1 (flagsDone d)))).emit (.hostWrite o (a + 15) (leBytes 1 st))
  let s := s.headMove true r n
  if d.int then s.ringRaise true r else s

/-- TX_FRAME_READ (R42, R418, R419): Harbour takes the next frame of TX ring `r`. `ds` are the posted descriptors that it reads and `data`
the bytes of the frame's buffers; `sub` is the phase in sixteenths of a tick. A frame whose descriptors are not all posted waits. DEDUCED:
log entries 85, 107. -/
def execTxFrameRead (r : Fin 64) (ds : List (BitVec 256)) (data : Bytes) (sub : Fin 16) (s : State) : Result :=
  .next (
    let l := takeFrameDescs (min 16 (s.posted true r)) (ds.map txDesc)
    match l.head?, l.getLast? with
    | some first, some last =>
      if !s.ringRuns true r || s.stopped || (!last.last && l.length < 16) then s
      else if !txDescsOk l first || data.length ≠ (l.map (fun d => d.length)).sum then s.txDone r l.length last 2
      else
        let (st, t) := s.txHand first data sub
        (t.txDone r l.length last st).flushSamples sub
    | _, _ => s)

/-- HOST_INJECT_WAIT_EXPIRE (R42): host frames of ingress pipeline `x` of island `i` that have waited 1 µs go ahead of the lanes. -/
def execHostInjectWaitExpire (i : Fin 16) (x : Fin 5) (s : State) : Result :=
  .next (
    let y := 10 * i.val + x.val
    let l := (mget s.path.inject y []).map (fun e => if s.now ≥ e.1 + 1600 then (e.1, true, e.2.2) else e)
    s.updPath (fun q => { q with inject := mset q.inject y l [] }))

/-! ### The link and the functions -/

/-- What HARB_STATUS shows of the link. -/
def State.linkNow (s : State) : List Nat :=
  [s.rd F.HARB_STATUS_LINK_UP, s.rd F.HARB_STATUS_RATE, s.rd F.HARB_STATUS_WIDTH, s.rd F.HARB_STATUS_FLIT]

/-- PCIE_LINK_CHANGE (R411, R419): the link is up or down with a rate, a width and Flit mode. The rings stop and resume with LINK_UP. -/
def execPcieLinkChange (up : Bool) (rate : Fin 6) (width : Fin 9) (flit : Bool) (s : State) : Result :=
  .next (
    let t := (((s.wrB F.HARB_STATUS_LINK_UP up).wr F.HARB_STATUS_RATE (if up then rate else 0)).wr F.HARB_STATUS_WIDTH
      (if up then width else 0)).wrB F.HARB_STATUS_FLIT (up && flit)
    if t.linkNow = s.linkNow then s else t.raise .harb 0 0)

/-- FUNCTION_LEVEL_RESET (R419, R470). -/
def execFunctionLevelReset (f : Fin 32) (s : State) : Result := .next (s.flr f)

/-- VF_WINDOW_ACCESS (R413): VF `f` reads `size` bytes at offset `off` of its window, or writes `w` there. DEDUCED: log entry 108. -/
def execVfWindowAccess (f : Fin 32) (off : Fin 1048576) (size : Nat) (w : Option Nat) (s : State) : Result :=
  .next (
    if f.val = 0 || !accessOk off size then s
    else
      match s.windowAddr f off, w with
      | some a, none =>
        let (v, t) := s.readAccess (.vf f) a size
        t.emit (.readData (.vf f) off size v)
      | some a, some v => s.writeAccess (.vf f) a size v
      | none, none => s.emit (.readData (.vf f) off size 0)
      | none, some _ => s.vfDenied f)

/-- HARB_RING_CFG_WRITE (R332, R416, R419, R435). -/
def execHarbRingCfgWrite (q : Requester) (tx : Bool) (r : Fin 64) (v : BitVec 32) (s : State) : Result :=
  .next (s.write q (regAddr (if tx then .HARB_TX_CFG else .HARB_RX_CFG) r) 4 v.toNat)

/-! ### Interrupt registers -/

/-- INT_STATUS_WRITE (R475, R479): a write to INT_STATUS of instance `i` of block `b`. DEDUCED: log entry 88. -/
def execIntStatusWrite (q : Requester) (b : Blk) (i : Nat) (v : BitVec 32) (s : State) : Result :=
  .next (if intBlks.any (fun e => e.1 = b && i < e.2) then s.write q (regAddr (intStatus b i).reg i) 4 v.toNat else s)

/-- CHIP_VEC_MAP_WRITE (R478, R479): summary bit `b` takes a vector. -/
def execChipVecMapWrite (q : Requester) (b : Fin 39) (v : BitVec 32) (s : State) : Result :=
  .next (s.write q (regAddr .CHIP_VEC_MAP b) 4 v.toNat)

/-! ### Dysum's doors -/

/-- DYS_CMD_TAIL_WRITE (R424): the doorbell of Dysum pair `k`. -/
def execDysCmdTailWrite (q : Requester) (k : Fin 35) (tail : BitVec 32) (s : State) : Result :=
  .next (s.write q (regAddr .DYS_CMD_TAIL k) 4 tail.toNat)

/-- An address in words 0 to 3. -/
def addrOf (f : Nat → Nat) : Nat := f 0 + f 1 * 2 ^ 32 + f 2 * 2 ^ 64 + f 3 * 2 ^ 96

/-- The sender is in DYS_ETH_ACL of port `e` (R423). -/
def State.aclHas (s : State) (e : Nat) (v6 : Bool) (src : Nat) : Bool :=
  (List.range 16).any (fun n =>
    let k := 16 * e + n
    s.on (F.DYS_ETH_ACL_CTL_VALID k) && s.on (F.DYS_ETH_ACL_CTL_IPV6 k) = v6 &&
      addrOf (fun w => s.rd (F.DYS_ETH_ACL_WORD (4 * k + w))) = src)

/-- A datagram is dropped under R423 and counted. DEDUCED: log entry 87. -/
def State.ethDrop (s : State) (e : Nat) : State := (s.satAdd (F.DYS_ETH_DROP_COUNT e) 1).raise .dys 0 1

/-- A Dysum datagram reached management port `e` from a sender that may send (R423): answered from the cache, kept for its turn, or dropped
beyond the window. The first datagram of all sets the window (DESIGN CHOICE, log entry 98). DEDUCED: log entry 87. DESIGN CHOICE: log entry
98. -/
def State.ethTake (s : State) (e count seq : Nat) : State :=
  let x := s.ethX e
  match x.cache.find? (fun c => c.1 = seq) with
  | some (_, rs) => s.emit (.dysDatagram e seq rs)
  | none =>
    let last := x.lastSeq.getD ((seq + 2 ^ 32 - 1) % 2 ^ 32)
    let above := (seq + 2 ^ 32 - last) % 2 ^ 32
    if x.cur.any (fun c => c.1 = seq) then s
    else if above = 0 || above > 64 then s.ethDrop e
    else s.setEth e { x with lastSeq := some last, waiting := mset x.waiting seq count 0 }

/-- DYS_DATAGRAM_RECEIVE (R422, R423): a UDP datagram reaches management port `e`, with its addresses, its destination port and its
header. -/
def execDysDatagramReceive (e : Fin 2) (v6 : Bool) (src dst dport ver ty count seq : Nat) (s : State) : Result :=
  .next (
    let mine : Bool := s.on (F.DYS_ETH_CFG_EN e) && s.on (F.DYS_ETH_CFG_IPV6 e) = v6 &&
      addrOf (fun w => s.rd (F.DYS_ETH_ADDR_WORD (4 * e + w))) = dst && s.rd (F.DYS_ETH_CFG_UDP_PORT e) = dport
    if !mine || ver ≠ 1 || ty ≠ 1 || count = 0 || count > 16 then s
    else if s.on (F.DYS_ETH_CFG_ACL_EN e) && !s.aclHas e v6 src then s.ethDrop e
    else s.ethTake e count (seq % 2 ^ 32))

end Sys2Proof.Machine
end

