-- ==== Sys2Proof/Machine/Registers.lean ====
section
/-! DEFINITION. The commands that read and write registers: the latch of R466, the held low words of R467, whole registers (R499) and
MSI-X masks (R479). -/

namespace Sys2Proof.Machine

/-- LOW_WORD_READ (R413, R463 to R466): requester `q` reads `size` bytes; a 4-byte read of the low word of a 64-bit register latches
its high word. -/
def execLowWordRead (q : Requester) (addr : BitVec 28) (size : Fin 9) (s : State) : Result := .next (s.read q addr.toNat size)

/-- An address names the low word (`hi` false) or the high word of a 64-bit register. -/
def wideWord (addr : Nat) (hi : Bool) : Bool :=
  match regAt addr with
  | some (r, _, h) => (regRow r).wide && h = hi
  | none => false

/-- LOW_WORD_WRITE (R467): the low word of a 64-bit register is held. -/
def execLowWordWrite (q : Requester) (addr : BitVec 28) (v : BitVec 32) (s : State) : Result :=
  .next (if wideWord addr.toNat false then s.write q addr.toNat 4 v.toNat else s)

/-- HIGH_WORD_WRITE (R467): both words of a 64-bit register take effect. -/
def execHighWordWrite (q : Requester) (addr : BitVec 28) (v : BitVec 32) (s : State) : Result :=
  .next (if wideWord addr.toNat true then s.write q addr.toNat 4 v.toNat else s)

/-- REGISTER_WRITE (R17, R465, R472, R499): requester `q` writes `size` bytes. -/
def execRegisterWrite (q : Requester) (addr : BitVec 28) (size : Fin 9) (v : BitVec 64) (s : State) : Result :=
  .next (s.write q addr.toNat size (v.toNat % 2 ^ (8 * size.val)))

/-- MSIX_UNMASK (R479): vector `v` of function `owner` is unmasked, and a pending one sends its message. PRESUMED: log entry 8. -/
def execMsixUnmask (owner : Fin 32) (v : Fin 1056) (s : State) : Result :=
  .next (
    if owner.val ≠ 0 && v.val ≥ 32 then s
    else
      let k := key2 owner.val v.val
      let t := { s with msixOn := mset s.msixOn k true false }
      if mget t.msixPend k false then { t with msixPend := mset t.msixPend k false false }.emit (.msix owner v) else t)

/-- PPS_IN_TS_READ (R357): requester `q` reads the high word of domain B's LIGHT_PPS_IN_TS. -/
def execPpsInTsRead (q : Requester) (s : State) : Result := .next (s.read q (regAddr .LIGHT_PPS_IN_TS 1 + 4) 4)

end Sys2Proof.Machine
end

