-- ==== Sys2Proof/Machine/DysCmd.lean ====
section
/-! DEFINITION. How a Dysum command is taken, checked and answered (R424 to R434), and what several commands share. -/

namespace Sys2Proof.Machine

/-! ### Taking an entry (R423, R424) -/

/-- Update the Dysum processor's own state. -/
def State.updDys (s : State) (f : DysSt → DysSt) : State := { s with dys := f s.dys }

/-- A ring or port that a command after its acceptance still holds (R424). -/
def State.viaHeld (s : State) (via : Via) : Bool := s.dys.holds.any (fun h => h.via = via)

/-- The next entry of an interface is taken; none where no entry waits or an earlier command holds the interface. DEDUCED: log entry 110. -/
def State.dysTake (s : State) (via : Via) : Option State :=
  if s.viaHeld via then none
  else
    match via with
    | .ring k =>
      let n := dysSize (s.rd (F.DYS_RING_CFG_CMD_SIZE k))
      let head := s.rd (F.DYS_CMD_HEAD_HEAD k)
      if !s.on (F.DYS_RING_CFG_EN k) || !s.on F.HARB_STATUS_LINK_UP || head % n = s.rd (F.DYS_CMD_TAIL_TAIL k) % n then none
      else some (s.wr (F.DYS_CMD_HEAD_HEAD k) ((head + 1) % n))
    | .eth e =>
      let x := s.ethX e
      match x.cur with
      | some _ => some s
      | none =>
        let seq := (x.lastSeq.getD 0 + 1) % 2 ^ 32
        match mfind x.waiting seq with
        | some n => some (s.setEth e { x with cur := some (seq, n, []), waiting := merase x.waiting seq })
        | none => none
    | .i2c => some s

/-! ### Authority (R431 to R434) -/

/-- The levels of R430, lowest first. -/
def lvTenant : Nat := 0
/-- MONITOR -/
def lvMonitor : Nat := 1
/-- OPERATOR -/
def lvOperator : Nat := 2
/-- OWNER -/
def lvOwner : Nat := 3

/-- The level of an interface (R431). -/
def levelOf (via : Via) : Nat :=
  match via with
  | .ring k => if k.val < 4 then lvOwner else lvTenant
  | .eth _ => lvOperator
  | .i2c => lvMonitor

/-- The VF behind an interface of level TENANT. -/
def vfOf (via : Via) : Nat :=
  match via with
  | .ring k => k.val - 3
  | _ => 0

/-- The requester under which an interface's register accesses run (R466). -/
def requesterOf (via : Via) : Requester :=
  match via with
  | .ring k => .dysPcie k
  | .eth e => .dysEth e
  | .i2c => .dysPcie 0

/-- INDIRECT stands on an interface that does not allow it (R422). DEDUCED: log entry 111. -/
def dysBadForm (h : DysHdr) : Bool :=
  h.indirect && (match h.via with
    | .eth _ => true
    | _ => false)

/-! ### Checks and answers (R426) -/

/-- What a command answers once the checks of opcode, authority and object have passed: a response, or none yet where it holds its ring. -/
structure DysAns where
  st : State
  status : Nat := stOk
  state : Nat := 0
  detail : Nat := 0
  result : Bytes := []
  held : Bool := false

/-- How an opcode is judged: its code, the lowest level, what the authority of the interface demands besides, whether OBJECT exists, and
whether the boot ROM accepts it before READY (R402). -/
structure DysRule where
  code : Nat
  level : Nat
  auth : Bool := true
  object : Bool := true
  early : Bool := false

/-- A command that goes on after its acceptance holds its interface (R424). -/
def State.addHold (s : State) (h : DysHdr) (code kind ix : Nat) : State :=
  s.updDys (fun d => { d with holds := d.holds ++ [{ via := h.via, opcode := code, tag := h.tag, object := h.object, kind := kind, ix := ix }] })

/-- The response to a command, with its result in host memory where the command is INDIRECT (R420, R421). -/
def State.dysAnswer (h : DysHdr) (code : Nat) (a : DysAns) : State :=
  let s := if h.indirect && !a.result.isEmpty then
      a.st.emit (.hostWrite (match h.via with
        | .ring k => pairOwner k.val
        | _ => 0) h.resAddr (a.result.take h.resLen))
    else a.st
  s.respond h.via { opcode := code, tag := h.tag, status := a.status, state := a.state, object := h.object, detail := a.detail,
                    result := a.result }

/-- A command with rule `r` is taken, checked in the order of R426 and answered; `body` gives the checks of state, arguments and
resources and the effect. The answer's first part is the STATUS, none while no entry was taken or its ring is held. -/
def State.dysRun (s : State) (h : DysHdr) (r : DysRule) (body : State → DysAns) : Option Nat × State :=
  match s.dysTake h.via with
  | none => (none, s)
  | some s =>
    let no (s : State) (st : Nat) : Option Nat × State := (some st, State.dysAnswer h r.code { st := s, status := st })
    if !s.ready && !(r.early && levelOf h.via = lvOwner) then no s stBusy
    else if !h.suits then no s stBadOpcode
    else if levelOf h.via < r.level || !r.auth then no (s.raise .dys 0 0) stDenied
    else if !r.object then no s stBadArg
    else
      let a := body s
      if a.held then (none, a.st) else (some a.status, State.dysAnswer h r.code a)

/-- The state after a command. DEDUCED: log entries 110, 111. -/
def State.dysCmd (s : State) (h : DysHdr) (r : DysRule) (body : State → DysAns) : State := (s.dysRun h r body).2

/-! ### Registers by command (R468) -/

/-- `n` consecutive words from `addr` are read, a 64-bit register named whole at once. -/
def State.dysRead (s : State) (q : Requester) (addr : Nat) : Nat → Bytes × State
  | 0 => ([], s)
  | 1 =>
    let (v, s) := s.readWord q addr
    (leBytes 4 v, s)
  | n + 2 =>
    if wideWord addr false then
      let (v, s) := s.readAccess q addr 8
      let (l, s) := s.dysRead q (addr + 8) n
      (leBytes 8 v ++ l, s)
    else
      let (v, s) := s.readWord q addr
      let (l, s) := s.dysRead q (addr + 4) (n + 1)
      (leBytes 4 v ++ l, s)

/-- Consecutive words are written from `addr` on. -/
def State.dysWrite (s : State) (q : Requester) (addr : Nat) : List Nat → State
  | [] => s
  | [v] => s.writeAccess q addr 4 v
  | v :: w :: t =>
    if wideWord addr false then (s.writeAccess q addr 8 (v + w * 2 ^ 32)).dysWrite q (addr + 8) t
    else (s.writeAccess q addr 4 v).dysWrite q (addr + 4) (w :: t)

/-- A word address of `n` words within the space. -/
def wordsExist (addr n : Nat) : Bool := addr % 4 = 0 && addr + 4 * max 1 n ≤ 2 ^ 28

/-- The blocks that REG_READ of a MONITOR reaches: CHIP, PWR, KEEP and RAS (R432). -/
def monitorReads (addr n : Nat) : Bool :=
  (List.range n).all (fun k => let b := (addr + 4 * k) / 2 ^ 20; b = 0 || b = 3 || b = 4 || b / 16 = 0xD)

/-! ### Staged images (R407, R408) -/

/-- Island and direction of a pipeline partial image (R393). -/
def imageTarget (im : Image) : Nat × Nat := (im.target / 16 % 16, im.target % 2)

/-- The program that a pipeline partial image brings. -/
def imageProg (im : Image) : Option Program :=
  im.secs.findSome? (fun c => match c.body with
    | .pipeProgram p => some p
    | _ => none)

/-- The parse graph that it brings, with its PRS_VALUE reset values. -/
def imageGraph (im : Image) : Option (ParseGraph × List Nat) :=
  im.secs.findSome? (fun c => match c.body with
    | .parseGraph g vs => some (g, vs)
    | _ => none)

/-- What it gives as initial entries and as marks of register tables (R169). -/
def imageInits (im : Image) : List (Nat × Nat × List Nat) × List (Nat × Nat) :=
  im.secs.foldl (fun r c => match c.body with
    | .tableInit l _ is => (r.1 ++ l, r.2 ++ is)
    | _ => r) ([], [])

/-- The tables that it adds, with their miss actions (R147). -/
def imageTables (im : Image) : List TblLayout :=
  let ms := im.secs.flatMap (fun c => match c.body with
    | .tableInit _ ms _ => ms
    | _ => [])
  (im.secs.flatMap (fun c => match c.body with
    | .tableLayout l => l
    | _ => [])).map (setMiss ms)

/-- Islands that a table-set image names. -/
def imageIslands (im : Image) : List Nat := im.secs.map (fun c => c.island % 16)

/-- An IMAGE_STAGE that still loads ends without its image; the spec gives no status for it, so it is a free value among those of R427. -/
def State.stageCut (s : State) : State :=
  let (v, s) := s.fresh
  s.finishHold holdStage 0 (v % 10) 0 0

/-- The staged image that has not been swapped is discarded: a reserve returns to RESERVE (R163, R398, R408). -/
def State.discardStaged (s : State) : State :=
  match s.boot.staged with
  | none => s
  | some im =>
    let (i, d) := imageTarget im
    let s := if im.type = 1 then
        match s.pipeSwap i d with
        | some w =>
          (((s.setPipeSwap i d none).pipeEnter (10 * i + w.resv) 1).clearPipe (10 * i + w.resv)).copyEnd i d
            |>.wr (F.PIPE_SWAP_STATUS_LAST (2 * i + d)) 4
        | none => s
      else s.dropPatterns im
    s.unstage.stageCut

/-- The staging area holds an image beside the running one (R407): the IMAGE regions of stacks 0 and 3. -/
def State.stagingHolds (s : State) (im : Image) : Bool :=
  [0, 3].all (fun st => s.stagingOff + im.length ≤ s.rd (F.BPM_REGION_SIZE (10 * st + 1)) * 2 ^ 20)

/-- An accepted and verified image starts to load; `x` is the pipeline that a pipeline image is to replace. -/
def State.stageStart (s : State) (im : Image) (x : Nat) : State :=
  let s := ((s.updBoot (fun b => { b with staged := some im, swapping := false, loading := [] })).wr F.BOOT_STAGED_IMAGE_ID im.imageId).imageStore
    s.stagingOff im.bytes
  if im.type = 1 then
    let (i, d) := imageTarget im
    match s.reservePipe i d with
    | some r =>
      let g := imageGraph im
      s.loadStart i d r (5 * d + x) (((imageProg im).map (fun p => p.id)).getD 0) false (g.map (fun e => e.1)) (imageProg im)
        ((g.map (fun e => e.2)).getD []) (imageTables im) (imageInits im).1 (imageInits im).2
    | none => s
  else
    ((imageIslands im).foldl (fun s i => (s.wrB (F.PPE_BANK_LOADING i) true).wrB (F.PPE_BANK_SHADOW_OK i) false) s).updBoot
      (fun b => { b with loading := (imageIslands im).dedup })

/-! ### Returning a resource to service (R451) -/

/-- The FAILED lane that OBJECT names for RETURN: the lane in service for the logical lane, the lane that the port's form gives it, or the
form's hot spare. DESIGN CHOICE: log entry 115. -/
def State.returnLane (s : State) (o : Nat) : Option Nat :=
  let (p, k) := laneObj o
  let own := 34 * (p / 32) + s.rd (F.PORT_CFG_FIRST_LANE p) + k
  let spare := 34 * (p / 32) + s.rd (F.PORT_CFG_SPARE_LANE p)
  if s.portState p = 0 || k ≥ s.portWidth p then none
  else ([s.laneOf p k, own] ++ (if s.rd (F.PORT_CFG_SPARE_LANE p) = 0x3F then [] else [spare])).find? (fun l => l < 544 && s.laneState l = 5)

/-- The resource is FAILED or RETIRED. -/
def State.returnable (s : State) (kind o : Nat) : Bool :=
  match kind with
  | 0 => (s.returnLane o).isSome
  | 1 => let k := 64 * (wireObj o).1 + (wireObj o).2.1
         s.rd (F.CWAY_BUNDLE_STATUS_SUB0 k) = (wireObj o).2.2 || s.rd (F.CWAY_BUNDLE_STATUS_SUB1 k) = (wireObj o).2.2
  | 2 => s.rd (F.LAG_BANK_STATUS_STATE o) = 3
  | 3 => s.pipeState o = 4
  | 4 => s.rd (F.MC_STATUS_SPARE (o / 32)) = 2 && s.rd (F.MC_STATUS_SPARED_CH (o / 32)) = o % 32
  | 5 => s.rd (F.ATL_ENG_STATUS_STATE o) = 3
  | _ => s.rd F.CLK_STATUS_A_STATE = 3 || s.rd F.CLK_STATUS_B_STATE = 3

/-- Object under which the spare map holds a resource. -/
def State.mapObject (s : State) (kind o : Nat) : Nat :=
  match kind with
  | 0 => (s.returnLane o).getD 544
  | 7 => if s.rd F.CLK_STATUS_A_STATE = 3 then 0 else 1
  | _ => o

/-- A returned wire is a reserve of its bundle again. -/
def State.wireReturn (s : State) (o : Nat) : State :=
  let (d, b, w) := wireObj o
  let k := 64 * d + b
  let s := if s.rd (F.CWAY_BUNDLE_STATUS_SUB0 k) = w then s.wr (F.CWAY_BUNDLE_STATUS_SUB0 k) 0x7F else s.wr (F.CWAY_BUNDLE_STATUS_SUB1 k) 0x7F
  s.wrapAdd (if d = 0 then F.CWAY_STATUS_SPARES_NS else F.CWAY_STATUS_SPARES_SN) 1

/-- A lane back in OFF; it is the hot spare of its port where that has none. DESIGN CHOICE: log entry 115. -/
def State.laneReturn (s : State) (o : Nat) : State :=
  match s.returnLane o with
  | none => s
  | some l =>
    let p := (laneObj o).1
    let s := s.laneEnter l 0
    if s.spareOf p = 544 && s.rd (F.PORT_CFG_SPARE_LANE p) ≠ 0x3F && !(s.mainLanes p).contains l then
      { s with laneMap := mset s.laneMap (key2 p 8) (some l) none }
    else s

/-- The resource is in its spare state again. -/
def State.returnTo (s : State) (kind o : Nat) : State :=
  let s := (s.mapRecord kind (s.mapObject kind o) 0)
  let s := match kind with
    | 0 => s.laneReturn o
    | 1 => s.wireReturn o
    | 2 => (s.wr (F.LAG_BANK_STATUS_STATE o) 1).wrapAdd (F.LAG_HALF_STATUS_RESERVE_LEFT (o / 34)) 1
    | 3 => s.pipeEnter o 1
    | 4 => s.wr (F.MC_STATUS_SPARE (o / 32)) 0
    | 5 => (s.wr (F.ATL_ENG_STATUS_STATE o) 1).wrapAdd (reserveF (engineDie o)) 1
    | _ => s.wr (pllStateF (if s.rd F.CLK_STATUS_A_STATE = 3 then 0 else 1)) 1
  let (b, i, u) := s.objectBlk kind o
  let s := (s.wrapAdd (F.RAS_SPARE_SUMMARY_FREE kind) 1).subFrom (F.RAS_SPARE_SUMMARY_HI_FAILED kind) 1
  s.event notice (codeOf b i 0x87) u (objectWord kind o)

end Sys2Proof.Machine
end

