-- ==== Sys2Proof/Machine/Dysum.lean ====
section
/-! DEFINITION. The commands of Dysum (R424 to R434, R468, and the state rules that R430 names). -/

namespace Sys2Proof.Machine

/-! ### General -/

/-- NOP (R430). -/
def execNop (h : DysHdr) (s : State) : Result :=
  .next (s.dysCmd h { code := 0x0001, level := lvTenant } (fun s => { st := s, status := if dysBadForm h then stBadArg else stOk }))

/-- REG_READ (R432, R468): `count` words from the address OBJECT. DEDUCED: log entry 113. -/
def execRegRead (h : DysHdr) (count : Fin 16) (s : State) : Result :=
  .next (
    s.dysCmd h { code := 0x0002, level := lvMonitor, auth := levelOf h.via ≠ lvMonitor || monitorReads h.object (max 1 count),
                 object := wordsExist h.object count }
      (fun s =>
        if count = 0 || count.val > 8 || dysBadForm h then { st := s, status := stBadArg }
        else
          let (l, t) := s.dysRead (requesterOf h.via) h.object count
          { st := if h.via = .i2c then { t with latch := s.latch } else t, result := l }))

/-- REG_WRITE (R425, R434, R468): words from the address OBJECT on; a discarded write is recorded, and the command is OK. -/
def execRegWrite (h : DysHdr) (words : List (BitVec 32)) (s : State) : Result :=
  .next (
    let vs := words.map (fun w => w.toNat)
    s.dysCmd h { code := 0x0003, level := lvOperator,
                 auth := levelOf h.via ≠ lvOperator || (List.zip (List.range vs.length) vs).all (fun e => !s.ownerField (h.object + 4 * e.1) e.2),
                 object := wordsExist h.object vs.length }
      (fun s =>
        if vs.isEmpty || vs.length > 8 || dysBadForm h then { st := s, status := stBadArg }
        else { st := s.dysWrite (requesterOf h.via) h.object vs }))

/-! ### Ports -/

/-- PORT_DEFINE (R76, R109, R110): TRUSTED 1 needs OWNER. DEDUCED: log entry 91. -/
def execPortDefine (h : DysHdr) (d : PortDef) (s : State) : Result :=
  .next (
    let p := h.object
    let d := { d with port := p }
    s.dysCmd h { code := 0x0010, level := lvOperator, auth := !d.trusted || levelOf h.via = lvOwner, object := p < 512 }
      (fun s =>
        let st := s.portState p
        if st > 1 then { st := s, status := stConflict, state := st }
        else if dysBadForm h then { st := s, status := stBadArg, state := st }
        else if d.width = 0 then { st := if st = 0 then s else s.undefine p }
        else
          match s.formError d with
          | 0 => { st := s.define d, state := 1 }
          | e => { st := s, status := e, state := st }))

/-- PORT_ENABLE (R109, R110). -/
def execPortEnable (h : DysHdr) (on : Bool) (s : State) : Result :=
  .next (
    let p := h.object
    s.dysCmd h { code := 0x0011, level := lvOperator, object := p < 512 }
      (fun s =>
        let st := s.portState p
        if st = 0 then { st := s, status := stConflict }
        else if dysBadForm h then { st := s, status := stBadArg, state := st }
        else
          let t := if st = 1 then (if on then s.portOn p else s) else if on then s else s.portOff p
          { st := t, state := t.portState p }))

/-! ### Sparing, the log and Tidemark -/

/-- SPARE_SWAP (R74, R365, R444, R450): the replacement of OBJECT starts, or the PLLs change at once. -/
def execSpareSwap (h : DysHdr) (s : State) : Result :=
  .next (
    let kind := h.object / 2 ^ 28
    let o := h.object % 2 ^ 28
    s.dysCmd h { code := 0x0020, level := lvOperator, object := objectOk kind o }
      (fun s =>
        let st := s.objectState kind o
        if !(if kind = 7 then s.standbyReady else s.canReplace kind o) then { st := s, status := stConflict, state := st }
        else if dysBadForm h then { st := s, status := stBadArg, state := st }
        else
          let s := s.requestRemove kind o
          if kind = 7 then
            let t := ((s.exchangePlls 1).satAdd F.CLK_STATUS_TAKEOVERS 1).raise .clk 0 0
            { st := t, state := t.objectState kind o }
          else
            let t := if kind = 0 then s.addHold h 0x0020 holdLane (laneObj o).1 else s.addHold h 0x0020 (holdSpare kind) o
            { st := t.startReplace kind o true, held := true }))

/-- SPARE_POLICY (R449, R462): MODE and ASK_KINDS take values, or the pending request for OBJECT is dismissed. DEDUCED: log entry 114. -/
def execSparePolicy (h : DysHdr) (op : PolicyOp) (s : State) : Result :=
  .next (
    let kind := h.object / 2 ^ 28
    let o := h.object % 2 ^ 28
    match op with
    | .mode m ask =>
      s.dysCmd h { code := 0x0021, level := lvOperator }
        (fun s =>
          if s.on F.RAS_SPARE_STATUS_BUSY && s.rd F.RAS_SPARE_POLICY_MODE ≠ m then { st := s, status := stConflict }
          else if m > 2 || ask ≥ 256 || dysBadForm h then { st := s, status := stBadArg }
          else
            let s := s.wr F.RAS_SPARE_POLICY_ASK_KINDS ask
            { st := if s.rd F.RAS_SPARE_POLICY_MODE = m then s else s.setSpareMode m })
    | .dismiss =>
      s.dysCmd h { code := 0x0021, level := lvOperator, object := objectOk kind o }
        (fun s =>
          match s.requestSlot kind o with
          | none => { st := s, status := stConflict, state := s.objectState kind o }
          | some n =>
            if dysBadForm h then { st := s, status := stBadArg, state := s.objectState kind o }
            else { st := s.requestClear n, state := s.objectState kind o }))

/-- SPARE_RETURN (R427, R451): a FAILED or RETIRED resource is tested; while another test runs the answer is BUSY. DESIGN CHOICE: log entry
115. -/
def execSpareReturn (h : DysHdr) (s : State) : Result :=
  .next (
    let kind := h.object / 2 ^ 28
    let o := h.object % 2 ^ 28
    s.dysCmd h { code := 0x0021, level := lvOperator, object := objectOk kind o }
      (fun s =>
        let st := s.objectState kind o
        if !s.returnable kind o then { st := s, status := stConflict, state := st }
        else if dysBadForm h then { st := s, status := stBadArg, state := st }
        else if s.ras.returning.isSome then { st := s, status := stBusy, state := st }
        else
          let t := (s.addHold h 0x0021 holdReturn h.object).wrB F.RAS_SPARE_STATUS_BUSY true
          { st := t.updRas (fun r => { r with returning := some h.object }), held := true }))

/-- RETURN_TEST_DONE (R451): the test that runs passes, or fails at `step`. DESIGN CHOICE: log entries 115, 116. -/
def execReturnTestDone (pass : Bool) (step : BitVec 32) (s : State) : Result :=
  .next (
    match s.ras.returning with
    | none => s
    | some w =>
      let kind := w / 2 ^ 28
      let o := w % 2 ^ 28
      let s := (s.updRas (fun r => { r with returning := none })).wrB F.RAS_SPARE_STATUS_BUSY false
      if pass && s.returnable kind o then
        let st := if kind = 0 then 0 else (s.returnTo kind o).objectState kind o
        (s.returnTo kind o).finishHold holdReturn w stOk st 0
      else s.finishHold holdReturn w stNoResource (if kind = 0 then 5 else s.objectState kind o) step.toNat)

/-- ERRLOG_READ (R442): at most `count` entries of the log, the oldest with SEQ `seq` or later first. -/
def execErrlogRead (h : DysHdr) (seq : BitVec 32) (count : Nat) (s : State) : Result :=
  .next (
    s.dysCmd h { code := 0x0022, level := lvMonitor }
      (fun s =>
        if count = 0 || dysBadForm h then { st := s, status := stBadArg }
        else { st := s, result := (((s.log.reverse.filter (fun e => e.seq ≥ seq.toNat)).take count).flatMap (fun e => e.bytes)) }))

/-- TIDEMARK_FIRE (R453). -/
def execTidemarkFire (h : DysHdr) (s : State) : Result :=
  .next (
    s.dysCmd h { code := 0x0023, level := lvOperator }
      (fun s => if dysBadForm h then { st := s, status := stBadArg } else { st := s.tidemark 2 0 }))

/-! ### Sessions -/

/-- SESSION_OPEN (R272, R297, R299, R302). -/
def execSessionOpen (h : DysHdr) (o : AtlOpen) (s : State) : Result :=
  .next (
    let n := h.object
    s.dysCmd h { code := 0x0030, level := lvOperator, object := n < 4096 }
      (fun s =>
        if s.sessState n = 0 && dysBadForm h then { st := s, status := stBadArg }
        else
          let (e, t) := s.sessOpen n o
          { st := t, status := e, state := t.sessState n }))

/-- SESSION_CLOSE (R302, R424): an ACTIVE session is CLOSING until its chunks are done, and holds the ring. DEDUCED: log entry 130. -/
def execSessionClose (h : DysHdr) (s : State) : Result :=
  .next (
    let n := h.object
    s.dysCmd h { code := 0x0031, level := lvOperator, object := n < 4096 }
      (fun s =>
        let st := s.sessState n
        if st = 0 || st = 3 then { st := s, status := stConflict, state := st }
        else if dysBadForm h then { st := s, status := stBadArg, state := st }
        else if st = 2 then { st := ((s.addHold h 0x0031 holdClose n).wr (F.ATL_SESS_STATUS_STATE n) 3).stageRelease n, held := true }
        else { st := s.sessIdle n }))

/-! ### Images and keys -/

/-- IMAGE_STAGE (R407): `im` is verified and starts to load; `x` is the pipeline of its direction that a pipeline image replaces. DESIGN
CHOICE: log entry 119. -/
def execImageStage (h : DysHdr) (im : Image) (x : Fin 5) (s : State) : Result :=
  .next (
    let (i, d) := imageTarget im
    s.dysCmd h { code := 0x0040, level := lvOwner }
      (fun s =>
        let st := if im.type = 1 then ((s.reservePipe i d).map (fun r => s.pipeState (10 * i + r))).getD 0 else 0
        let bad : Bool :=
          s.boot.staged.isSome ||
          (im.type = 1 && ((s.reservePipe i d).isNone || (s.pipeSwap i d).isSome || s.pipeState (10 * i + 5 * d + x) ≠ 0)) ||
          (im.type = 2 && (imageIslands im).any (fun k => s.on (F.PPE_BANK_LOADING k)))
        if bad then { st := s, status := stConflict, state := st }
        else if dysBadForm h then { st := s, status := stBadArg, state := st }
        else if !s.stagingHolds im then { st := s, status := stNoResource, state := st }
        else
          match s.imageError im true with
          | 0 => { st := (s.addHold h 0x0040 holdStage 0).stageStart im x, held := true }
          | c => { st := s.imageRejected c true, status := stImageInvalid, state := st, detail := c }))

/-- The pipeline swap of a staged image may start (R164). -/
def State.swapAllowed (s : State) (i d : Nat) : Bool :=
  match s.pipeSwap i d with
  | none => false
  | some w => s.pipeState (10 * i + w.resv) = 2 && s.on (F.PIPE_STATUS_READY (10 * i + w.resv)) && s.pipeState (10 * i + w.target) = 0

/-- IMAGE_SWAP (R164, R166, R408): the staged image is checked against the SVN floor again and applied. -/
def execImageSwap (h : DysHdr) (s : State) : Result :=
  .next (
    s.dysCmd h { code := 0x0041, level := lvOwner }
      (fun s =>
        match s.boot.staged with
        | none => { st := s, status := stConflict }
        | some im =>
          let (i, d) := imageTarget im
          let st := if im.type = 1 then ((s.pipeSwap i d).map (fun w => s.pipeState (10 * i + w.resv))).getD 0 else 0
          let ok : Bool := !s.boot.swapping &&
            (if im.type = 1 then s.swapAllowed i d else (imageIslands im).all (fun k => s.on (F.PPE_BANK_SHADOW_OK k) && !s.on (F.PPE_BANK_LOADING k)))
          if !ok then { st := s, status := stConflict, state := st }
          else if dysBadForm h then { st := s, status := stBadArg, state := st }
          else if im.svn < s.fuses.svn then { st := s.imageRejected 7 true, status := stImageInvalid, state := st, detail := 7 }
          else if im.type = 1 then { st := (s.updBoot (fun b => { b with swapping := true })).fenceStart i d, state := 3 }
          else
            { st := ((imageIslands im).dedup.foldl (fun s k =>
                s.after (execPpeBankSwitch .regInit ⟨k % 16, Nat.mod_lt _ (by decide)⟩ (!s.on (F.PPE_BANK_ACTIVE k)) s)) s).unstage }))

/-- IMAGE_CANCEL (R163, R408). DESIGN CHOICE: log entry 120. -/
def execImageCancel (h : DysHdr) (s : State) : Result :=
  .next (
    s.dysCmd h { code := 0x0042, level := lvOwner }
      (fun s =>
        if s.boot.staged.isNone || s.boot.swapping then { st := s, status := stConflict }
        else if dysBadForm h then { st := s, status := stBadArg }
        else
          let st := match s.boot.staged with
            | some im => if im.type = 1 then 1 else 0
            | none => 0
          { st := s.discardStaged, state := st }))

/-- KEY_PROGRAM (R396, R397, R402): a blank slot takes a digest; a boot in KEYWAIT goes on to VERIFY. DEDUCED: log entry 93. -/
def execKeyProgram (h : DysHdr) (digest : BitVec 384) (s : State) : Result :=
  .next (
    let k := h.object
    s.dysCmd h { code := 0x0048, level := lvOwner, object := k < 4, early := true }
      (fun s =>
        if (mfind s.fuses.digests k).isSome then { st := s, status := stConflict }
        else if dysBadForm h then { st := s, status := stBadArg }
        else
          let t := { s with fuses := { s.fuses with digests := minsert s.fuses.digests k digest.toNat } }.keyRegs
          { st := if t.stage = 8 then t.stageEnter 3 else t }))

/-- KEY_REVOKE (R396 to R398): a staged image signed with the slot is discarded. DESIGN CHOICE: log entry 120. -/
def execKeyRevoke (h : DysHdr) (s : State) : Result :=
  .next (
    let k := h.object
    s.dysCmd h { code := 0x0049, level := lvOwner, object := k < 4, early := true }
      (fun s =>
        let left := (List.range 4).any (fun j => j ≠ k && (mfind s.fuses.digests j).isSome && !s.fuses.revoked.contains j)
        if !left then { st := s, status := stConflict }
        else if dysBadForm h then { st := s, status := stBadArg }
        else
          let revoked := if s.fuses.revoked.contains k then s.fuses.revoked else s.fuses.revoked ++ [k]
          let t := { s with fuses := { s.fuses with revoked := revoked } }.keyRegs
          { st := if !t.boot.swapping && t.boot.staged.any (fun im => im.keySlot = k) then t.discardStaged.raise .boot 0 4 else t }))

/-- SVN_RAISE (R397, R399). DEDUCED: log entry 121. -/
def execSvnRaise (h : DysHdr) (floor : Fin 128) (s : State) : Result :=
  .next (
    s.dysCmd h { code := 0x004A, level := lvOwner, early := true }
      (fun s =>
        if floor.val < s.fuses.svn || s.boot.running.all (fun im => floor.val > im.svn) then { st := s, status := stConflict }
        else if floor.val > 64 || dysBadForm h then { st := s, status := stBadArg }
        else { st := { s with fuses := { s.fuses with svn := floor.val } }.keyRegs }))

/-! ### Time and power -/

/-- LIGHT_STEP (R339): a step of the domain OBJECT, absolute or relative. -/
def execLightStep (h : DysHdr) (abs : Bool) (sec : BitVec 64) (ns : BitVec 32) (frac : BitVec 16) (s : State) : Result :=
  .next (
    let d := h.object
    s.dysCmd h { code := 0x0050, level := lvOperator, object := d < 2 }
      (fun s =>
        let st := s.lightState d
        if !s.stepAllowed d then { st := s, status := stConflict, state := st }
        else if dysBadForm h then { st := s, status := stBadArg, state := st }
        else { st := s.acceptStep d { abs := abs, s := sec.toNat, ns := ns.toNat, frac := frac.toNat }, state := st }))

/-- LIGHT_STATE (R342): REQ is 1 ACQUIRE, 2 LOCKED, 3 FREE. -/
def execLightState (h : DysHdr) (req : Fin 8) (s : State) : Result :=
  .next (
    let d := h.object
    s.dysCmd h { code := 0x0051, level := lvOperator, object := d < 2 }
      (fun s =>
        let st := s.lightState d
        let known : Bool := 1 ≤ req.val && req.val ≤ 3
        if known && !reqAllowed st req then { st := s, status := stConflict, state := st }
        else if !known || dysBadForm h then { st := s, status := stBadArg, state := st }
        else
          let t := s.applyReq d req
          { st := t, state := t.lightState d }))

/-- CAP_SET (R366, R384): the local power cap in W, held to the register's bound. DEDUCED: log entry 117. -/
def execCapSet (h : DysHdr) (cap : BitVec 16) (s : State) : Result :=
  .next (
    s.dysCmd h { code := 0x0060, level := lvOperator }
      (fun s =>
        if s.ferryRole = 1 then { st := s, status := stConflict, state := s.pwrState }
        else if dysBadForm h then { st := s, status := stBadArg, state := s.pwrState }
        else { st := s.wr F.PWR_CAP_CAP (min 1600 cap.toNat), state := s.pwrState }))

/-! ### Telemetry, rings, sensors, reset -/

/-- The result of TEL_READ: the 64 MIB counters of port `p` and the 64 bins of each of its queues, unicast first. DEDUCED: log entry 118. -/
def State.telResult (s : State) (p : Nat) : Bytes :=
  (List.range 64).flatMap (fun k => leBytes 8 (s.rd (F.CNT_MIB_COUNT (64 * p + k)))) ++
    (portQueues p).flatMap (fun k => (List.range 64).flatMap (fun b => leBytes 4 (s.rd (F.TM_HIST_COUNT (64 * k + b)))))

/-- TEL_READ (R267, R268, R321, R433): a VF reads the ports assigned to it. The bins clear on read. DEDUCED: log entry 118. -/
def execTelRead (h : DysHdr) (s : State) : Result :=
  .next (
    let p := h.object
    s.dysCmd h { code := 0x0070, level := lvTenant,
                 auth := levelOf h.via ≠ lvTenant ||
                   (p < 512 && bit (s.rd (F.HARB_VF_PORTS_PORTS (16 * vfOf h.via + p / 32))) (p % 32)), object := p < 512 }
      (fun s =>
        let st := s.portState p
        if dysBadForm h then { st := s, status := stBadArg, state := st }
        else
          { st := (portQueues p).foldl (fun s k => (List.range 64).foldl (fun s b => s.wr (F.TM_HIST_COUNT (64 * k + b)) 0) s) s,
            state := st, result := s.telResult p }))

/-- RING_RESET (R419, R433): CPU ring OBJECT, RX or TX, is disabled and starts again from descriptor 0; a VF resets its own. DEDUCED: log
entry 86. -/
def execRingReset (h : DysHdr) (tx : Bool) (s : State) : Result :=
  .next (
    let r := h.object
    s.dysCmd h { code := 0x0071, level := lvTenant,
                 auth := levelOf h.via ≠ lvTenant || (r < 64 && s.ringOwner tx r = vfOf h.via), object := r < 64 }
      (fun s =>
        if dysBadForm h then { st := s, status := stBadArg }
        else { st := ((s.ringEnable tx r false).wr (ringHeadF tx r) 0).wr (ringTailF tx r) 0 }))

/-- SENSOR_READ (R377, R432): thermal sensor OBJECT in °C. -/
def execSensorRead (h : DysHdr) (s : State) : Result :=
  .next (
    s.dysCmd h { code := 0x0080, level := lvMonitor, object := h.object < 128 }
      (fun s =>
        if dysBadForm h then { st := s, status := stBadArg } else { st := s, result := leBytes 1 (s.rd (F.PWR_SENSOR_TEMP h.object)) }))

/-- RESET_REQ (R432, R469): on I²C with the I2C_RST_EN strap, or from OPERATOR and OWNER. The response is written before the reset. -/
def execResetReq (h : DysHdr) (s : State) : Result :=
  .next (
    let (st, t) := s.dysRun h { code := 0x0081, level := lvMonitor, auth := levelOf h.via ≠ lvMonitor || s.fuses.i2cRstEn }
      (fun s => { st := s, status := if dysBadForm h then stBadArg else stOk })
    if st = some stOk then t.deviceReset .resetReq 0 false else t)

end Sys2Proof.Machine
end

