-- ==== Sys2Proof/Machine/Mac.lean ====
section
/-! DEFINITION. What the MAC does with a received frame (R86 to R95, R380). -/

namespace Sys2Proof.Machine

/-- A whole frame at the MAC of port `p`, sorted into its class (R92 to R95): MAC Control frames, the hellos of a Strait port and Ferry
frames (R380) are consumed, bad frames filtered unless DELIVER_BAD holds, and the others go to the ingress pipeline. -/
def State.macFrame (s : State) (p : Nat) (x : RxPart) (sub : Nat) : State :=
  let begun := s.frameBegun p x.data.length
  let cls := s.frameClass p x.data x.coding
  if isMacControl x.data then s.consumed p x.data cls (fun s => s.macControl p x.data cls)
  else if s.isHello p x.data then s.consumed p x.data cls (fun s => s.helloRx p x.data cls)
  else if s.isFerry x.data then s.ferryArrive p x.data x.coding
  else
    let s := s.countClass p x.data cls
    let s := if cls.isNone then s.mibRxGood p x.data else s
    if cls = some 7 || (cls.isSome && !s.deliverBad p begun) then s
    else
      let data := x.data.take (max 64 (min 16000 (s.rd (F.MAC_RX_CFG_MAX_LEN p))))
      if s.rxBytes (p / 32) (p % 32 / 8) + data.length > 262144 then
        ((((s.satAdd (F.MAC_RX_OVERFLOW_COUNT p) 1).mib p 9 1).mib p 21 1)).raise .mac (p / 32) 4
      else s.takeFrame (s.stamped p data cls.isSome begun x.lane sub) sub

/-- FRAME_RECEIVE (R86 to R95, R347, R500): the block with the last bit of a frame, FCS included, is decoded on port `p`; `sub` is the receive
phase, in sixteenths of a tick, of the lane that carried its first block. A port that is not UP receives nothing. -/
def execFrameReceive (p : Fin 512) (rx : Reception) (sub : Fin 16) (s : State) : Result :=
  .next (
    if s.portState p ≠ 3 then s
    else
      match s.readFrame p rx with
      | (none, s) => s
      | (some x, s) => s.macFrame p x sub)

end Sys2Proof.Machine
end

