-- ==== Sys2Proof/Machine/Dispatch.lean ====
section
/-! DEFINITION. The command that each constructor of Instr names, run on the state. -/

namespace Sys2Proof.Machine

open Sys2Proof

/-- The effect of a command on everything but the queue. -/
def exec (i : Instr) (s : State) : Host.Outcome State Fault Refusal :=
  match i with
  | .frameReceive p rx sub => Sys2Proof.Machine.execFrameReceive p rx sub s
  | .ingressIssue isl x faults => Sys2Proof.Machine.execIngressIssue isl x faults s
  | .recircIssue isl x ops => Sys2Proof.Machine.execRecircIssue isl x ops s
  | .pipelineExit isl x sub faults => Sys2Proof.Machine.execPipelineExit isl x sub faults s
  | .deepPageWritten q seq => Sys2Proof.Machine.execDeepPageWritten q seq s
  | .deepModeLeave q => Sys2Proof.Machine.execDeepModeLeave q s
  | .drainReadIssue q => Sys2Proof.Machine.execDrainReadIssue q s
  | .drainPageLand q seq err => Sys2Proof.Machine.execDrainPageLand q seq err s
  | .cellGrant d b n => Sys2Proof.Machine.execCellGrant d b n s
  | .flitReceive d b err => Sys2Proof.Machine.execFlitReceive d b err s
  | .flitNackReceive d b => Sys2Proof.Machine.execFlitNackReceive d b s
  | .flitAckReceive d b => Sys2Proof.Machine.execFlitAckReceive d b s
  | .creditReturn d b vc n => Sys2Proof.Machine.execCreditReturn d b vc n s
  | .descEnqueue pkt => Sys2Proof.Machine.execDescEnqueue pkt s
  | .bundleRetrain d b => Sys2Proof.Machine.execBundleRetrain d b s
  | .bundleTrainDone d b => Sys2Proof.Machine.execBundleTrainDone d b s
  | .bundleRetire d b => Sys2Proof.Machine.execBundleRetire d b s
  | .wireSwapStart d b w => Sys2Proof.Machine.execWireSwapStart d b w s
  | .wireSwapDone d b => Sys2Proof.Machine.execWireSwapDone d b s
  | .dequeueDecision a sub errs ops => Sys2Proof.Machine.execDequeueDecision a sub errs ops s
  | .egressExit a b => Sys2Proof.Machine.execEgressExit a b s
  | .frameSent p sub errs => Sys2Proof.Machine.execFrameSent p sub errs s
  | .pfcRefresh p => Sys2Proof.Machine.execPfcRefresh p s
  | .trapRefill isl r => Sys2Proof.Machine.execTrapRefill isl r s
  | .rxTailWrite q r tail => Sys2Proof.Machine.execRxTailWrite q r tail s
  | .rxFrameWrite bufs errs => Sys2Proof.Machine.execRxFrameWrite bufs errs s
  | .rxItrExpire r => Sys2Proof.Machine.execRxItrExpire r s
  | .txTailWrite q r tail => Sys2Proof.Machine.execTxTailWrite q r tail s
  | .txFrameRead r ds data sub => Sys2Proof.Machine.execTxFrameRead r ds data sub s
  | .hostInjectWaitExpire isl x => Sys2Proof.Machine.execHostInjectWaitExpire isl x s
  | .pcieLinkChange up rate width flit => Sys2Proof.Machine.execPcieLinkChange up rate width flit s
  | .functionLevelReset f => Sys2Proof.Machine.execFunctionLevelReset f s
  | .vfWindowAccess f off size w => Sys2Proof.Machine.execVfWindowAccess f off size w s
  | .harbRingCfgWrite q tx r v => Sys2Proof.Machine.execHarbRingCfgWrite q tx r v s
  | .intStatusWrite q b isl v => Sys2Proof.Machine.execIntStatusWrite q b isl v s
  | .chipVecMapWrite q b v => Sys2Proof.Machine.execChipVecMapWrite q b v s
  | .dysCmdTailWrite q k tail => Sys2Proof.Machine.execDysCmdTailWrite q k tail s
  | .dysDatagramReceive e v6 src dst dport ver ty count seq => Sys2Proof.Machine.execDysDatagramReceive e v6 src dst dport ver ty count seq s
  | .nop h => Sys2Proof.Machine.execNop h s
  | .regRead h count => Sys2Proof.Machine.execRegRead h count s
  | .regWrite h words => Sys2Proof.Machine.execRegWrite h words s
  | .portDefine h d => Sys2Proof.Machine.execPortDefine h d s
  | .portEnable h on => Sys2Proof.Machine.execPortEnable h on s
  | .spareSwap h => Sys2Proof.Machine.execSpareSwap h s
  | .sparePolicy h op => Sys2Proof.Machine.execSparePolicy h op s
  | .spareReturn h => Sys2Proof.Machine.execSpareReturn h s
  | .returnTestDone pass step => Sys2Proof.Machine.execReturnTestDone pass step s
  | .errlogRead h seq count => Sys2Proof.Machine.execErrlogRead h seq count s
  | .tidemarkFire h => Sys2Proof.Machine.execTidemarkFire h s
  | .sessionOpen h o => Sys2Proof.Machine.execSessionOpen h o s
  | .sessionClose h => Sys2Proof.Machine.execSessionClose h s
  | .imageStage h im x => Sys2Proof.Machine.execImageStage h im x s
  | .imageSwap h => Sys2Proof.Machine.execImageSwap h s
  | .imageCancel h => Sys2Proof.Machine.execImageCancel h s
  | .keyProgram h digest => Sys2Proof.Machine.execKeyProgram h digest s
  | .keyRevoke h => Sys2Proof.Machine.execKeyRevoke h s
  | .svnRaise h floor => Sys2Proof.Machine.execSvnRaise h floor s
  | .lightStep h abs sec ns frac => Sys2Proof.Machine.execLightStep h abs sec ns frac s
  | .lightState h req => Sys2Proof.Machine.execLightState h req s
  | .capSet h cap => Sys2Proof.Machine.execCapSet h cap s
  | .telRead h => Sys2Proof.Machine.execTelRead h s
  | .ringReset h tx => Sys2Proof.Machine.execRingReset h tx s
  | .sensorRead h => Sys2Proof.Machine.execSensorRead h s
  | .resetReq h => Sys2Proof.Machine.execResetReq h s
  | .laneEnable l => Sys2Proof.Machine.execLaneEnable l s
  | .laneDisable l => Sys2Proof.Machine.execLaneDisable l s
  | .trainingFrameReceive l x => Sys2Proof.Machine.execTrainingFrameReceive l x s
  | .trainingTimeout l => Sys2Proof.Machine.execTrainingTimeout l s
  | .adaptUpdate l ctle ffe settled req offset => Sys2Proof.Machine.execAdaptUpdate l ctle ffe settled req offset s
  | .blockLockAcquire l offset pos heads => Sys2Proof.Machine.execBlockLockAcquire l offset pos heads s
  | .lossOfLock l heads words signal cdr => Sys2Proof.Machine.execLossOfLock l heads words signal cdr s
  | .laneBitslip q l => Sys2Proof.Machine.execLaneBitslip q l s
  | .portIdleEntry p => Sys2Proof.Machine.execPortIdleEntry p s
  | .idleReqReceive p tag => Sys2Proof.Machine.execIdleReqReceive p tag s
  | .idleAckReceive p tag => Sys2Proof.Machine.execIdleAckReceive p tag s
  | .idleNakReceive p block => Sys2Proof.Machine.execIdleNakReceive p block s
  | .wakeBurstDetect p => Sys2Proof.Machine.execWakeBurstDetect p s
  | .wakeComplete p tempOk => Sys2Proof.Machine.execWakeComplete p tempOk s
  | .swapWindowClose l words corner => Sys2Proof.Machine.execSwapWindowClose l words corner s
  | .swapReqReceive p block byCmd => Sys2Proof.Machine.execSwapReqReceive p block byCmd s
  | .swapAckReceive p tag => Sys2Proof.Machine.execSwapAckReceive p tag s
  | .swapNakReceive p block => Sys2Proof.Machine.execSwapNakReceive p block s
  | .swapAligned p run skew => Sys2Proof.Machine.execSwapAligned p run skew s
  | .swapDoneReceive p block => Sys2Proof.Machine.execSwapDoneReceive p block s
  | .swapAbortReceive p block => Sys2Proof.Machine.execSwapAbortReceive p block s
  | .swapTimeout p => Sys2Proof.Machine.execSwapTimeout p s
  | .lmosRepeat l => Sys2Proof.Machine.execLmosRepeat l s
  | .portCtlEnable q p on => Sys2Proof.Machine.execPortCtlEnable q p on s
  | .portLinkUp p arrivals => Sys2Proof.Machine.execPortLinkUp p arrivals s
  | .anComplete p common an => Sys2Proof.Machine.execAnComplete p common an s
  | .fecDegradeWindow p corr uncorr => Sys2Proof.Machine.execFecDegradeWindow p corr uncorr s
  | .helloSend p => Sys2Proof.Machine.execHelloSend p s
  | .helloReceive p frame coding => Sys2Proof.Machine.execHelloReceive p frame coding s
  | .partnerExpire p => Sys2Proof.Machine.execPartnerExpire p s
  | .macControlReceive p frame coding => Sys2Proof.Machine.execMacControlReceive p frame coding s
  | .pauseExpire p g => Sys2Proof.Machine.execPauseExpire p g s
  | .pipePortLiveWrite q isl w v => Sys2Proof.Machine.execPipePortLiveWrite q isl w v s
  | .clsWriteData q isl d first last => Sys2Proof.Machine.execClsWriteData q isl d first last s
  | .clsSetValid q isl d => Sys2Proof.Machine.execClsSetValid q isl d s
  | .clsClearValid q isl d => Sys2Proof.Machine.execClsClearValid q isl d s
  | .clsWriteAction q isl d => Sys2Proof.Machine.execClsWriteAction q isl d s
  | .clsRead q isl d => Sys2Proof.Machine.execClsRead q isl d s
  | .ppeBankSwitch q isl active => Sys2Proof.Machine.execPpeBankSwitch q isl active s
  | .mtrWrite q isl => Sys2Proof.Machine.execMtrWrite q isl s
  | .mtrWriteKeep q isl => Sys2Proof.Machine.execMtrWriteKeep q isl s
  | .mtrRead q isl => Sys2Proof.Machine.execMtrRead q isl s
  | .loadingReady isl d => Sys2Proof.Machine.execLoadingReady isl d s
  | .swapTargetEmpty isl d => Sys2Proof.Machine.execSwapTargetEmpty isl d s
  | .fenceTimeout isl d => Sys2Proof.Machine.execFenceTimeout isl d s
  | .pipelineRetire isl x => Sys2Proof.Machine.execPipelineRetire isl x s
  | .pipelineFault isl x => Sys2Proof.Machine.execPipelineFault isl x s
  | .bankReplace h b => Sys2Proof.Machine.execBankReplace h b s
  | .alphaAdapt k => Sys2Proof.Machine.execAlphaAdapt k s
  | .bpmAlloc a pool domain => Sys2Proof.Machine.execBpmAlloc a pool domain s
  | .bpmAddRef a h n => Sys2Proof.Machine.execBpmAddRef a h n s
  | .bpmRelease a h uncorr => Sys2Proof.Machine.execBpmRelease a h uncorr s
  | .bpmQuery a h => Sys2Proof.Machine.execBpmQuery a h s
  | .bpmCacheRefill d k part => Sys2Proof.Machine.execBpmCacheRefill d k part s
  | .bpmCacheReturn d k part => Sys2Proof.Machine.execBpmCacheReturn d k part s
  | .mcRequest st off len wr rt client => Sys2Proof.Machine.execMcRequest st off len wr rt client s
  | .mcRequestDone st c errs => Sys2Proof.Machine.execMcRequestDone st c errs s
  | .refreshDue st ch bank => Sys2Proof.Machine.execRefreshDue st ch bank s
  | .rowIdleClose st pc bank => Sys2Proof.Machine.execRowIdleClose st pc bank s
  | .idleTimerAdapt st pc => Sys2Proof.Machine.execIdleTimerAdapt st pc s
  | .mcTsetWrite q st target commits => Sys2Proof.Machine.execMcTsetWrite q st target commits s
  | .tsetEntryRetry st commits => Sys2Proof.Machine.execTsetEntryRetry st commits s
  | .tsetChangeDone st => Sys2Proof.Machine.execTsetChangeDone st s
  | .srIdleEntry st => Sys2Proof.Machine.execSrIdleEntry st s
  | .patrolScrub st pins => Sys2Proof.Machine.execPatrolScrub st pins s
  | .hbmTempRead st temp => Sys2Proof.Machine.execHbmTempRead st temp s
  | .delayTracking st ch => Sys2Proof.Machine.execDelayTracking st ch s
  | .hbmTrainingDone st temp fail => Sys2Proof.Machine.execHbmTrainingDone st temp fail s
  | .channelSpareStart st c => Sys2Proof.Machine.execChannelSpareStart st c s
  | .channelCopyDone st => Sys2Proof.Machine.execChannelCopyDone st s
  | .shaperRefill n => Sys2Proof.Machine.execShaperRefill n s
  | .gateEdge p => Sys2Proof.Machine.execGateEdge p s
  | .gateConfigChange q p => Sys2Proof.Machine.execGateConfigChange q p s
  | .gateCancel q p => Sys2Proof.Machine.execGateCancel q p s
  | .gateListStart p => Sys2Proof.Machine.execGateListStart p s
  | .queueSample k => Sys2Proof.Machine.execQueueSample k s
  | .contribReceive r => Sys2Proof.Machine.execContribReceive r s
  | .chunkResultSend n => Sys2Proof.Machine.execChunkResultSend n s
  | .resultReceive r => Sys2Proof.Machine.execResultReceive r s
  | .atollNackReceive r => Sys2Proof.Machine.execAtollNackReceive r s
  | .holdOffReceive r => Sys2Proof.Machine.execHoldOffReceive r s
  | .abortReceive r => Sys2Proof.Machine.execAbortReceive r s
  | .nackDelayExpire n opseq chunk => Sys2Proof.Machine.execNackDelayExpire n opseq chunk s
  | .chunkDeadline n opseq chunk => Sys2Proof.Machine.execChunkDeadline n opseq chunk s
  | .holdOffSend n => Sys2Proof.Machine.execHoldOffSend n s
  | .engineReplace e => Sys2Proof.Machine.execEngineReplace e s
  | .engineFault e logic => Sys2Proof.Machine.execEngineFault e logic s
  | .exportFrameClose c ty => Sys2Proof.Machine.execExportFrameClose c ty s
  | .collectorRefill c => Sys2Proof.Machine.execCollectorRefill c s
  | .flowSweep die key => Sys2Proof.Machine.execFlowSweep die key s
  | .telFlowRd q => Sys2Proof.Machine.execTelFlowRd q s
  | .cntTblRead q isl d => Sys2Proof.Machine.execCntTblRead q isl d s
  | .cntTblReadClear q isl d => Sys2Proof.Machine.execCntTblReadClear q isl d s
  | .cntCtlVfWrite f n v => Sys2Proof.Machine.execCntCtlVfWrite f n v s
  | .cntUserPagesWrite q f w v => Sys2Proof.Machine.execCntUserPagesWrite q f w v s
  | .dumpEdge => Sys2Proof.Machine.execDumpEdge s
  | .dumpWriteDone => Sys2Proof.Machine.execDumpWriteDone s
  | .lightStepGo q d => Sys2Proof.Machine.execLightStepGo q d s
  | .lightReqAcquire q d => Sys2Proof.Machine.execLightReqAcquire q d s
  | .lightReqLocked q d => Sys2Proof.Machine.execLightReqLocked q d s
  | .lightReqFree q d => Sys2Proof.Machine.execLightReqFree q d s
  | .lightSnap d => Sys2Proof.Machine.execLightSnap d s
  | .lightKick d => Sys2Proof.Machine.execLightKick d s
  | .lightRateAdjWrite q d adj => Sys2Proof.Machine.execLightRateAdjWrite q d adj s
  | .lightIncrWrite q d incr => Sys2Proof.Machine.execLightIncrWrite q d incr s
  | .lightModeWrite q d mode => Sys2Proof.Machine.execLightModeWrite q d mode s
  | .watchdogExpire d => Sys2Proof.Machine.execWatchdogExpire d s
  | .ppsInEdge sub => Sys2Proof.Machine.execPpsInEdge sub s
  | .ppsInMiss d => Sys2Proof.Machine.execPpsInMiss d s
  | .ppsInTsRead q => Sys2Proof.Machine.execPpsInTsRead q s
  | .ppsOutEdge => Sys2Proof.Machine.execPpsOutEdge s
  | .tenMhzPhase phase => Sys2Proof.Machine.execTenMhzPhase phase s
  | .tsfPop q isl => Sys2Proof.Machine.execTsfPop q isl s
  | .timeCompareFire => Sys2Proof.Machine.execTimeCompareFire s
  | .pllTakeover refLost => Sys2Proof.Machine.execPllTakeover refLost s
  | .pllRelockDone k => Sys2Proof.Machine.execPllRelockDone k s
  | .pllRelockTimeout k => Sys2Proof.Machine.execPllRelockTimeout k s
  | .pllAligned => Sys2Proof.Machine.execPllAligned s
  | .clkSwitch q => Sys2Proof.Machine.execClkSwitch q s
  | .clkRefWrite q a b => Sys2Proof.Machine.execClkRefWrite q a b s
  | .dividerSwitch mv => Sys2Proof.Machine.execDividerSwitch mv s
  | .powerControlInterval r => Sys2Proof.Machine.execPowerControlInterval r s
  | .capTakeback => Sys2Proof.Machine.execCapTakeback s
  | .boostEntry => Sys2Proof.Machine.execBoostEntry s
  | .pwrModeWrite q mode => Sys2Proof.Machine.execPwrModeWrite q mode s
  | .pwrSaveWrite q save => Sys2Proof.Machine.execPwrSaveWrite q save s
  | .pwrfailAssert => Sys2Proof.Machine.execPwrfailAssert s
  | .saveExit => Sys2Proof.Machine.execSaveExit s
  | .vrAlert => Sys2Proof.Machine.execVrAlert s
  | .voltTrim want => Sys2Proof.Machine.execVoltTrim want s
  | .droopDetect det => Sys2Proof.Machine.execDroopDetect det s
  | .droopStretchEnd => Sys2Proof.Machine.execDroopStretchEnd s
  | .currentLimit amps watts => Sys2Proof.Machine.execCurrentLimit amps watts s
  | .dutyRise => Sys2Proof.Machine.execDutyRise s
  | .thermalRead temps => Sys2Proof.Machine.execThermalRead temps s
  | .throttleStep => Sys2Proof.Machine.execThrottleStep s
  | .ageingMeasure values => Sys2Proof.Machine.execAgeingMeasure values s
  | .announceSend => Sys2Proof.Machine.execAnnounceSend s
  | .announceReceive p frame => Sys2Proof.Machine.execAnnounceReceive p frame s
  | .bestExpire => Sys2Proof.Machine.execBestExpire s
  | .reportSend => Sys2Proof.Machine.execReportSend s
  | .reportReceive p frame => Sys2Proof.Machine.execReportReceive p frame s
  | .lagSend => Sys2Proof.Machine.execLagSend s
  | .lagReceive p frame => Sys2Proof.Machine.execLagReceive p frame s
  | .grantCompute => Sys2Proof.Machine.execGrantCompute s
  | .grantReceive p frame => Sys2Proof.Machine.execGrantReceive p frame s
  | .grantRevert => Sys2Proof.Machine.execGrantRevert s
  | .keepSaveStart trigger => Sys2Proof.Machine.execKeepSaveStart trigger s
  | .vkeepLow mv => Sys2Proof.Machine.execVkeepLow mv s
  | .testSave q => Sys2Proof.Machine.execTestSave q s
  | .keepSaveDone n late => Sys2Proof.Machine.execKeepSaveDone n late s
  | .keepShadowUpdate wear => Sys2Proof.Machine.execKeepShadowUpdate wear s
  | .deviceReset cause src i2c => Sys2Proof.Machine.execDeviceReset cause src i2c s
  | .powerUpRails => Sys2Proof.Machine.execPowerUpRails s
  | .fuseDone => Sys2Proof.Machine.execFuseDone s
  | .clockDone ref0 ref1 => Sys2Proof.Machine.execClockDone ref0 ref1 s
  | .bootPcieGo q => Sys2Proof.Machine.execBootPcieGo q s
  | .fetchDone image => Sys2Proof.Machine.execFetchDone image s
  | .verifyDone => Sys2Proof.Machine.execVerifyDone s
  | .loadDone => Sys2Proof.Machine.execLoadDone s
  | .restoreDone => Sys2Proof.Machine.execRestoreDone s
  | .tidemarkInEdge => Sys2Proof.Machine.execTidemarkInEdge s
  | .rasTmFire q => Sys2Proof.Machine.execRasTmFire q s
  | .spareReqAge n => Sys2Proof.Machine.execSpareReqAge n s
  | .spareModeWrite q mode ask => Sys2Proof.Machine.execSpareModeWrite q mode ask s
  | .spareRateWindow extra => Sys2Proof.Machine.execSpareRateWindow extra s
  | .ageingCheck => Sys2Proof.Machine.execAgeingCheck s
  | .softRepair mac line col => Sys2Proof.Machine.execSoftRepair mac line col s
  | .tcamScrub bad => Sys2Proof.Machine.execTcamScrub bad s
  | .dbgArmWrite q on => Sys2Proof.Machine.execDbgArmWrite q on s
  | .jtagBypass tdi => Sys2Proof.Machine.execJtagBypass tdi s
  | .jtagIdcode => Sys2Proof.Machine.execJtagIdcode s
  | .jtagSamplePreload data => Sys2Proof.Machine.execJtagSamplePreload data s
  | .jtagExtest => Sys2Proof.Machine.execJtagExtest s
  | .jtagClamp => Sys2Proof.Machine.execJtagClamp s
  | .jtagHighz => Sys2Proof.Machine.execJtagHighz s
  | .jtagExtestPulse => Sys2Proof.Machine.execJtagExtestPulse s
  | .jtagExtestTrain => Sys2Proof.Machine.execJtagExtestTrain s
  | .jtagTmFire => Sys2Proof.Machine.execJtagTmFire s
  | .jtagTmRead => Sys2Proof.Machine.execJtagTmRead s
  | .jtagDevReset => Sys2Proof.Machine.execJtagDevReset s
  | .lowWordRead q addr size => Sys2Proof.Machine.execLowWordRead q addr size s
  | .lowWordWrite q addr v => Sys2Proof.Machine.execLowWordWrite q addr v s
  | .highWordWrite q addr v => Sys2Proof.Machine.execHighWordWrite q addr v s
  | .registerWrite q addr size v => Sys2Proof.Machine.execRegisterWrite q addr size v s
  | .timeTick n => Sys2Proof.Machine.execTimeTick n s
  | .ppeLoadDone isl ok => Sys2Proof.Machine.execPpeLoadDone isl ok s
  | .loadFailed isl d => Sys2Proof.Machine.execLoadFailed isl d s
  | .msixUnmask owner v => Sys2Proof.Machine.execMsixUnmask owner v s
  | .refclkStatusChange r ok lock => Sys2Proof.Machine.execRefclkStatusChange r ok lock s

end Sys2Proof.Machine
end

