-- ==== Sys2Proof/Safety.lean ====
section
/-! DEFINITION. What a safe run keeps: the fuse promises of R396 to R399, the canonical form of HBM, and the order of the queue. -/

namespace Sys2Proof.Machine

/-- Fuses as R396 to R399 bound them: four slots, at most 64 bits of floor. -/
def fusesLegal (f : Fuses) : Prop := f.svn ≤ 64 ∧ (∀ k ∈ f.revoked, k < 4) ∧ ∀ e ∈ f.digests, e.1 < 4

/-- What fuses never undo: a programmed slot keeps its digest, a revoked slot stays revoked, and the floor does not fall (R396, R398, R399). -/
def fusesGrow (f g : Fuses) : Prop :=
  (∀ k d, mfind f.digests k = some d → mfind g.digests k = some d) ∧ (∀ k ∈ f.revoked, k ∈ g.revoked) ∧ f.svn ≤ g.svn

/-- A run that goes on: a step that is no fault and no refusal. -/
def stepsTo (s t : State) : Prop := step s = .next t

/-- The invariant of every step: legal fuses, and HBM in canonical form. -/
def State.inv (s : State) : Prop := fusesLegal s.fuses ∧ Memory.wf s.hbm

/-! ### Frames -/

/-- Every field at a place other than those of `fs` reads in `t` as it does in `s`. -/
def readsBut (fs : List Fld) (s t : State) : Prop := ∀ f : Fld, (∀ g ∈ fs, f.key ≠ g.key) → t.rd f = s.rd f

/-- From `s` to `t` nothing changes but the fields `fs` of the register file. -/
def changes (fs : List Fld) (s t : State) : Prop := readsBut fs s t ∧ { t with regs := s.regs } = s

/-- From `s` to `t` nothing changes but the fields `fs` of the register file and the messages of interrupt vectors: messages leave, and
masked vectors set pending bits (R479). -/
def signals (fs : List Fld) (s t : State) : Prop :=
  readsBut fs s t ∧ { t with regs := s.regs, out := s.out, msixPend := s.msixPend } = s ∧
    ∃ l, t.out = l ++ s.out ∧ ∀ o ∈ l, ∃ k v, o = .msix k v

/-- Every field of a register whose name is not in `rs` reads in `t` as it does in `s`. -/
def readsOff (rs : List RegName) (s t : State) : Prop := ∀ f : Fld, f.reg ∉ rs → t.rd f = s.rd f

/-- The command `c` completes from `s`, in a state with `p`. -/
def Runs (c : Instr) (s : State) (p : State → Prop) : Prop := ∃ t, exec c s = .next t ∧ p t

/-- The fields that a discarded write may change (R472). -/
def discardFields : List Fld :=
  [F.CHIP_WDISCARD_CNT_COUNT, F.CHIP_WDISCARD_ADDR_ADDR, F.CHIP_WDISCARD_STATE_STATE, F.CHIP_WDISCARD_STATE_REASON,
   F.CHIP_WDISCARD_STATE_SOURCE, F.CHIP_WDISCARD_STATE_VF, F.CHIP_INT_STATUS_BITS]

/-- From `s` to `t` a write by `q` was discarded with the reason and nothing else happened: it is counted, and where no discard waits
its record is taken and the interrupt set (R472, R473). -/
def discarded (q : Requester) (addr st reason : Nat) (s t : State) : Prop :=
  signals discardFields s t ∧ t.rd F.CHIP_WDISCARD_CNT_COUNT = min (s.rd F.CHIP_WDISCARD_CNT_COUNT + 1) (2 ^ 32 - 1) ∧ t.intBit .chip 0 0 = true ∧
    (s.intBit .chip 0 0 = false → t.rd F.CHIP_WDISCARD_ADDR_ADDR = addr % 2 ^ 28 ∧ t.rd F.CHIP_WDISCARD_STATE_STATE = st % 2 ^ 8 ∧
      t.rd F.CHIP_WDISCARD_STATE_REASON = reason % 4 ∧ t.rd F.CHIP_WDISCARD_STATE_SOURCE = requesterSource q)

/-! ### Who may change what -/

/-- Commands that blow fuses (R396, R399). -/
def blowsFuses : Instr → Bool
  | .keyProgram _ _ | .keyRevoke _ | .svnRaise _ _ => true
  | _ => false

/-- Commands that reset the device (R432, R461, R469). -/
def resetsDevice : Instr → Bool
  | .deviceReset _ _ _ | .jtagDevReset | .resetReq _ => true
  | _ => false

/-- Commands that write HBM (R201, R219, R242, R319, R330, R403, R407): the memory controllers, pages and snapshots, flow records, and the
images that load, are staged or are dropped. -/
def writesHbm : Instr → Bool
  | .mcRequestDone .. | .deepPageWritten .. | .dumpWriteDone | .frameSent .. | .flowSweep .. | .loadDone .. | .ppeLoadDone .. | .imageStage ..
  | .imageSwap .. | .imageCancel .. | .keyRevoke .. | .swapTargetEmpty .. | .fenceTimeout .. | .loadFailed .. | .pipelineFault .. => true
  | _ => false

/-- Domain `d` lost its master between `s` and `t` (R343, R344): it is in HOLDOVER with its time and its increment, and domain A follows a
LOCKED domain B where B_FOLLOW is 1. -/
def masterLost (s : State) (d : Fin 2) (t : State) : Prop :=
  t.lightState d = 3 ∧ t.intBit .light 0 0 = true ∧
  (∀ e : Fin 2, (t.dom e).total = (s.dom e).total ∧ (t.dom e).eff = (s.dom e).eff) ∧
  (d = 0 → s.on (F.LIGHT_CTL_B_FOLLOW 0) = true → s.lightState 1 = 2 → t.following = true ∧ t.intBit .light 0 3 = true) ∧
  (d = 1 → t.following = false) ∧
  signals [F.LIGHT_STATUS_STATE d, F.LIGHT_STATUS_FOLLOWING_B 0, F.LIGHT_INT_STATUS_BITS] s { t with domA := s.domA, domB := s.domB }

/-- The field of a ring's registers that a response moves (R421). -/
def rspFields (via : Via) : List Fld :=
  match via with
  | .ring k => [F.DYS_RSP_TAIL_TAIL k]
  | _ => []

/-- From `s` to `t` a command answered: beside the fields `fs`, only what a response changes differs. -/
def answers (h : DysHdr) (fs : List Fld) (s t : State) : Prop :=
  changes (fs ++ rspFields h.via) s { t with out := s.out, msixPend := s.msixPend, dys := s.dys }

end Sys2Proof.Machine
end

