-- ==== Sys2Proof/Certificates/Slice0/Obligations.lean ====
section
/-! DEFINITION. The statements for the provers: the queue, what no step undoes, and for each family of commands what a command does, what it
leaves alone, and that it completes. -/

open Sys2Proof Sys2Proof.Machine

/-- A step with a command at the front of the queue runs that command with the queue's rest. -/
def Obligations.StepRunsFront : Prop := ∀ (s : State) (c : Instr) (rest : List Instr), s.pending = c :: rest →
  step s = exec c { s with pending := rest }

/-- On an empty queue the block idles: a step changes nothing. This is the model's choice (log entry 126). A step takes one command from
the front of the queue and leaves the rest in order (log entry 126). -/
def Obligations.QueueOrder : Prop :=
  (∀ s : State, s.pending = [] → step s = .next s) ∧
  (∀ (s t : State) (c : Instr) (rest : List Instr), s.pending = c :: rest → stepsTo s t → t.pending = rest)

/-- Every command completes from every state: none ends in a fault or a refusal, and none but the step itself moves the queue. -/
def Obligations.EveryCommandCompletes : Prop := ∀ (c : Instr) (s : State), Runs c s fun t => t.pending = s.pending

/-- Every step, from every state, keeps the fuses legal and HBM in its canonical form (R396, R399; the form of HBM is the model's, log
entry 13). -/
def Obligations.InvariantKept : Prop := ∀ s t : State, s.inv → stepsTo s t → t.inv

/-- After reset the fuses are legal and blank, HBM lists nothing, the queue is empty, and time stands at its reset values (R334, R335,
R396, R399): no second, no tick, the nominal increment. It rests on choices of the model too: log entries 14, 125, 141. -/
def Obligations.ResetState : Prop :=
  State.reset.inv ∧ State.reset.pending = [] ∧ State.reset.hbm = [] ∧ State.reset.fuses.digests = [] ∧ State.reset.fuses.revoked = [] ∧
  State.reset.fuses.svn = 0 ∧ State.reset.rd F.LIGHT_TICKS_TICKS = 0 ∧ (∀ d : Fin 2, (State.reset.dom d).total = 0) ∧
  (∀ f : Fld, State.reset.rd f = f.dflt % 2 ^ f.width)

/-- No step undoes a fuse: a programmed key slot keeps its digest, a revoked slot stays revoked, the SVN floor never falls (R396, R399).
-/
def Obligations.FusesNeverUndone : Prop := ∀ s t : State, stepsTo s t → fusesGrow s.fuses t.fuses

/-- Only KEY_PROGRAM, KEY_REVOKE and SVN_RAISE blow fuses; beside them only a reset of the device touches their state at all (R396, R399).
The bytes of HBM change only when a memory controller completes a request, the deep buffer writes a page or the dump engine a snapshot,
flow records are updated, swept or read in, an image loads, is staged, or leaves the staging area, or the device is reset (R201, R219,
R242, R319, R330, R403, R407). It rests on choices of the model too: log entry 13. -/
def Obligations.OnlyNamedCommands : Prop :=
  (∀ (s t : State) (c : Instr) (rest : List Instr), s.pending = c :: rest → stepsTo s t →
  blowsFuses c = false → resetsDevice c = false → t.fuses = s.fuses) ∧
  (∀ (s t : State) (c : Instr) (rest : List Instr), s.pending = c :: rest → stepsTo s t →
  writesHbm c = false → resetsDevice c = false → ∀ a : Nat, Memory.read t.hbm a = Memory.read s.hbm a)

/-- A request of a VF for a register outside its window, and any request but the image's before the device is READY where the boot ROM
does not serve the register, does nothing (R403, R413, R431; log entries 3 and 108): the commands that stand for such a write leave the
state as it is. It rests on choices of the model too: log entries 26, 29, 45. -/
def Obligations.DeniedRequests : Prop := ∀ (s : State) (q : Requester),
  (s.grants q true = false →
    (Runs (.bootPcieGo q) s fun t => t = s) ∧
    (Runs (.clkSwitch q) s fun t => t = s) ∧
    (∀ (a : Bool) (b : Bool), Runs (.clkRefWrite q a b) s fun t => t = s) ∧
    (Runs (.testSave q) s fun t => t = s) ∧
    (∀ (mode : Bool), Runs (.pwrModeWrite q mode) s fun t => t = s) ∧
    (∀ (save : Bool), Runs (.pwrSaveWrite q save) s fun t => t = s)) ∧
  (s.grants q false = false →
    (∀ (st : Fin 6) (target : Fin 4) (commits : Bool), Runs (.mcTsetWrite q st target commits) s fun t => t = s) ∧
    (∀ (l : Fin 544), Runs (.laneBitslip q l) s fun t => t = s) ∧
    (∀ (d : Fin 2), Runs (.lightStepGo q d) s fun t => t = s) ∧
    (∀ (d : Fin 2), Runs (.lightReqAcquire q d) s fun t => t = s) ∧
    (∀ (d : Fin 2), Runs (.lightReqLocked q d) s fun t => t = s) ∧
    (∀ (d : Fin 2), Runs (.lightReqFree q d) s fun t => t = s) ∧
    (∀ (d : Fin 2) (adj : BitVec 40), Runs (.lightRateAdjWrite q d adj) s fun t => t = s) ∧
    (∀ (d : Fin 2) (incr : BitVec 40), Runs (.lightIncrWrite q d incr) s fun t => t = s) ∧
    (∀ (d : Fin 2) (mode : Bool), Runs (.lightModeWrite q d mode) s fun t => t = s) ∧
    (∀ (i : Fin 16), Runs (.tsfPop q i) s fun t => t = s) ∧
    (∀ (i : Fin 16) (active : Bool), Runs (.ppeBankSwitch q i active) s fun t => t = s) ∧
    (∀ (i : Fin 16) (d : Fin 2) (first : Fin 32) (last : Fin 32), Runs (.clsWriteData q i d first last) s fun t => t = s) ∧
    (∀ (i : Fin 16) (d : Fin 2), Runs (.clsSetValid q i d) s fun t => t = s) ∧
    (∀ (i : Fin 16) (d : Fin 2), Runs (.clsClearValid q i d) s fun t => t = s) ∧
    (∀ (i : Fin 16) (d : Fin 2), Runs (.clsWriteAction q i d) s fun t => t = s) ∧
    (∀ (i : Fin 16) (d : Fin 2), Runs (.clsRead q i d) s fun t => t = s) ∧
    (∀ (i : Fin 16), Runs (.mtrWrite q i) s fun t => t = s) ∧
    (∀ (i : Fin 16), Runs (.mtrWriteKeep q i) s fun t => t = s) ∧
    (∀ (i : Fin 16), Runs (.mtrRead q i) s fun t => t = s) ∧
    (∀ (p : Fin 512) (on : Bool), Runs (.portCtlEnable q p on) s fun t => t = s) ∧
    (∀ (i : Fin 16) (w : Fin 16) (v : BitVec 32), Runs (.pipePortLiveWrite q i w v) s fun t => t = s) ∧
    (∀ (mode : Fin 4) (ask : Fin 256), Runs (.spareModeWrite q mode ask) s fun t => t = s) ∧
    (∀ (on : Bool), Runs (.dbgArmWrite q on) s fun t => t = s) ∧
    (Runs (.rasTmFire q) s fun t => t = s) ∧
    (Runs (.telFlowRd q) s fun t => t = s) ∧
    (∀ (i : Fin 16) (d : Fin 2), Runs (.cntTblRead q i d) s fun t => t = s) ∧
    (∀ (i : Fin 16) (d : Fin 2), Runs (.cntTblReadClear q i d) s fun t => t = s) ∧
    (∀ (f : Fin 32) (w : Fin 3) (v : BitVec 32), Runs (.cntUserPagesWrite q f w v) s fun t => t = s) ∧
    (∀ (p : Fin 512), Runs (.gateConfigChange q p) s fun t => t = s) ∧
    (∀ (p : Fin 512), Runs (.gateCancel q p) s fun t => t = s))

/-- The ALPHA fields have 4 bits, and an account is within α × F exactly when it is at most 2^(k − 6) × F, codes 10 to 15 acting as 9
(R179). -/
def Obligations.AlphaCodes : Prop :=
  (∀ k : Nat, (F.LAG_Q_CFG_ALPHA k).width = 4 ∧ (F.LAG_MQ_CFG_ALPHA k).width = 4 ∧ (F.LAG_PG_CFG_ALPHA k).width = 4 ∧
    (F.LAG_Q_CFG_ALPHA_FLOOR k).width = 4 ∧ (F.LAG_Q_CFG_ALPHA_CEIL k).width = 4) ∧
  (∀ x f k : Nat, k ≤ 9 → (withinAlpha x k f = true ↔ (x : ℚ) ≤ (2 : ℚ) ^ ((k : ℤ) - 6) * f)) ∧
  (∀ x f k : Nat, 10 ≤ k → k ≤ 15 → withinAlpha x k f = withinAlpha x 9 f)

/-- A half that is not SPILLING enters SPILLING when its free cell count is below LOW, and one that is leaves it when the count reaches
HIGH or more, a HIGH that is not above LOW acting as LOW (R176); otherwise the state stays. -/
def Obligations.SpillBand : Prop := ∀ (s : State) (h : Fin 2), ∀ free, free = s.rd (F.LAG_HALF_STATUS_FREE h) →
  ∀ low, low = s.rd (F.LAG_SPILL_LOW_LOW h) → ∀ high, high = (if s.rd (F.LAG_SPILL_HIGH_HIGH h) ≤ low then low else s.rd (F.LAG_SPILL_HIGH_HIGH h)) →
  (s.on (F.LAG_HALF_STATUS_SPILLING h) = false → ((s.spillUpdate h).on (F.LAG_HALF_STATUS_SPILLING h) = true ↔ free < low)) ∧
  (s.on (F.LAG_HALF_STATUS_SPILLING h) = true → ((s.spillUpdate h).on (F.LAG_HALF_STATUS_SPILLING h) = false ↔ high ≤ free))

/-- CHIP_INT_ISL has 4 bits per island i: bit 4i for LANE, 4i + 1 for MAC, 4i + 2 for PRS and 4i + 3 for PIPE; island i's bit in
CHIP_INT_SUMMARY, bit 8 + i, is the OR of those four (R476). -/
def Obligations.IslandInterrupts : Prop := ∀ (s : State) (i : Fin 16),
  bit (s.regValue .CHIP_INT_ISL 0) (4 * i) = s.pendingOf .lane i ∧ bit (s.regValue .CHIP_INT_ISL 0) (4 * i + 1) = s.pendingOf .mac i ∧
  bit (s.regValue .CHIP_INT_ISL 0) (4 * i + 2) = s.pendingOf .prs i ∧ bit (s.regValue .CHIP_INT_ISL 0) (4 * i + 3) = s.pendingOf .pipe i ∧
  bit (s.regValue .CHIP_INT_SUMMARY 0) (8 + i) =
    (bit (s.regValue .CHIP_INT_ISL 0) (4 * i) || bit (s.regValue .CHIP_INT_ISL 0) (4 * i + 1) || bit (s.regValue .CHIP_INT_ISL 0) (4 * i + 2) ||
      bit (s.regValue .CHIP_INT_ISL 0) (4 * i + 3))

/-- A bit of INT_STATUS is set when its event occurs, whatever INT_MASK holds, the other bits stay, and a masked bit keeps the block's
pending condition as the unmasked bits make it (R475). -/
def Obligations.InterruptStatus : Prop := ∀ (s : State) (b : Blk) (i e : Nat), i < 16 → e < (intStatus b i).width →
  (s.raise b i e).intBit b i e = true ∧ (∀ k < 32, k ≠ e → (s.raise b i e).intBit b i k = s.intBit b i k) ∧
  ((s.raise b i e).pendingOf b i = true ↔ ∃ k < (intStatus b i).width, (s.raise b i e).intBit b i k = true ∧ bit (s.rd (intMask b i)) k = false)

/-- TIME_TICK: `n` time ticks of the two domains (R334, R335, R337, R344). Each domain that follows no other and has no step waiting adds
its increment `n` times: that of its mode (log entry 4), or for a domain B stepped into HOLDOVER the kept one. LIGHT_TICKS adds `n`,
modulo 2^64. Where no edge of Tidemark waits, no pulse of PPS_OUT or TIDEMARK_OUT stands and no programmable counter counts time ticks,
nothing else changes; a pulse that stands falls once its end is reached (R356, R455), and an edge that waits latches at its tick (R454).
It rests on choices of the model too: log entry 12. -/
def Obligations.TimeTicks : Prop := ∀ (s : State) (n : Nat), 0 < n →
  Runs (.timeTick n) s fun t =>
    t.rd F.LIGHT_TICKS_TICKS = (s.rd F.LIGHT_TICKS_TICKS + n) % 2 ^ 64 ∧
    (∀ d : Fin 2, (d = 0 → s.following = false) → (s.dom d).steps = [] →
      t.dom d = { s.dom d with eff := s.nextEff d }.withTotal ((s.dom d).total + n * s.nextEff d)) ∧
    (∀ d : Fin 2, (t.dom d).ns < 1000000000 ∧ (t.dom d).frac < 2 ^ 56 ∧ (t.dom d).sec < 2 ^ 64 ∧ (t.dom d).steps = []) ∧
    (s.ras.edge = none → s.ras.tmOut = none → s.ranAt .ppsOut 0 = 0 → (∀ k : Fin 64, s.cntSelects (1024 + k) 0x70 0 = false) →
      changes [F.LIGHT_TICKS_TICKS] s { t with domA := s.domA, domB := s.domB }) ∧
    (s.ras.edge = none → s.ranAt .ppsOut 0 ≠ 0 → s.ranAt .ppsOut 0 ≤ t.now → Out.pin .ppsOut false ∈ t.out ∧ t.ranAt .ppsOut 0 = 0) ∧
    (s.ras.edge = none → ∀ e, s.ras.tmOut = some e →
      (e ≤ t.now → t.ras.tmOut = none ∧ Out.pin .tidemarkOut false ∈ t.out) ∧ (t.now < e → t.ras.tmOut = some e)) ∧
    (∀ e, s.ras.edge = some e → (s.now + n < e.at_ → t.ras.edge = some e) ∧ (e.at_ ≤ s.now + n → t.ras.edge = none))

/-- LIGHT_STEP_GO (R338 to R340): a step that the state allows waits for the next tick, counts in DISC and raises the STEP interrupt, and
in NATIVE mode uses up the one step of the stay in ACQUIRE; time, rate and the other domain's time stay. Any other step is discarded and
recorded as a write to a locked field, with RESULT 2. -/
def Obligations.LightSteps : Prop := ∀ (s : State) (q : Requester) (d : Fin 2), s.grants q false = true →
  (s.stepAllowed d = true → Runs (.lightStepGo q d) s fun t =>
    t.dom d = { s.dom d with steps := (s.dom d).steps ++
      [⟨s.on (F.LIGHT_STEP_CTL_KIND d), s.rd (F.LIGHT_STEP_S_S d), s.rd (F.LIGHT_STEP_NS_NS d), s.rd (F.LIGHT_STEP_FRAC_FRAC d)⟩] } ∧
    t.rd (F.LIGHT_STEP_CTL_RESULT d) = 1 ∧
    t.rd (F.LIGHT_STATUS_DISC d) = min (s.rd (F.LIGHT_STATUS_DISC d) + 1) (2 ^ 16 - 1) ∧
    t.intBit .light 0 1 = true ∧
    (s.on (F.LIGHT_CTL_MODE d) = false → t.on (F.LIGHT_STATUS_STEP_USED d) = true) ∧
    (d = 0 → t.dumpStep = true) ∧
    (∀ e : Fin 2, e ≠ d → t.dom e = s.dom e) ∧
    readsOff [.LIGHT_STATUS, .LIGHT_STEP_CTL, .LIGHT_INT_STATUS, .TM_GATE_STATUS] s t ∧
    { t with regs := s.regs, out := s.out, msixPend := s.msixPend, domA := s.domA, domB := s.domB, dumpStep := s.dumpStep } = s) ∧
  (s.stepAllowed d = false → Runs (.lightStepGo q d) s fun t =>
    t.rd (F.LIGHT_STEP_CTL_RESULT d) = 2 ∧ t.intBit .light 0 2 = true ∧
    t.rd F.CHIP_WDISCARD_CNT_COUNT = min (s.rd F.CHIP_WDISCARD_CNT_COUNT + 1) (2 ^ 32 - 1) ∧ t.intBit .chip 0 0 = true ∧
    signals ([F.LIGHT_STEP_CTL_RESULT d, F.LIGHT_INT_STATUS_BITS] ++ discardFields) s t)

/-- LIGHT_REQ_ACQUIRE, LIGHT_REQ_LOCKED, LIGHT_REQ_FREE (R342): each row of the table of states, the STATE interrupt, STEP_USED cleared at
the entry to ACQUIRE, the watches of R343 started at the entry to LOCKED, and every request that the table does not allow discarded and
recorded as a write to a locked field. LIGHT_SNAP, LIGHT_KICK, LIGHT_RATE_ADJ_WRITE, LIGHT_INCR_WRITE, LIGHT_MODE_WRITE (R334 to R338,
R343, R360): the writes of a domain's control registers where its mode and state take them. -/
def Obligations.LightControls : Prop :=
  (∀ (s : State) (q : Requester) (d : Fin 2), s.grants q false = true →
  (s.lightState d ≠ 1 → Runs (.lightReqAcquire q d) s fun t => t.lightState d = 1 ∧ t.on (F.LIGHT_STATUS_STEP_USED d) = false ∧
    t.intBit .light 0 0 = true ∧
    signals [F.LIGHT_STATUS_STATE d, F.LIGHT_STATUS_STEP_USED d, F.LIGHT_STATUS_FOLLOWING_B 0, F.LIGHT_INT_STATUS_BITS] s
      { t with domA := s.domA, domB := s.domB }) ∧
  (s.lightState d = 1 ∨ s.lightState d = 3 → Runs (.lightReqLocked q d) s fun t => t.lightState d = 2 ∧ t.intBit .light 0 0 = true ∧
    (t.dom d).wdFrom = s.now ∧ (t.dom d).ppsFromS = s.domA.sec ∧ (t.dom d).ppsFromNs = s.domA.ns ∧
    (d = 0 → t.following = false) ∧
    signals [F.LIGHT_STATUS_STATE d, F.LIGHT_STATUS_FOLLOWING_B 0, F.LIGHT_INT_STATUS_BITS] s { t with domA := s.domA, domB := s.domB }) ∧
  (s.lightState d ≠ 0 → Runs (.lightReqFree q d) s fun t => t.lightState d = 0 ∧ t.intBit .light 0 0 = true ∧
    (∀ e : Fin 2, (t.dom e).total = (s.dom e).total) ∧
    signals [F.LIGHT_STATUS_STATE d, F.LIGHT_STATUS_FOLLOWING_B 0, F.LIGHT_INT_STATUS_BITS] s { t with domA := s.domA, domB := s.domB }) ∧
  (s.lightState d = 1 → Runs (.lightReqAcquire q d) s (discarded q (regAddr .LIGHT_CTL d) 1 0 s)) ∧
  (s.lightState d = 0 ∨ s.lightState d = 2 → Runs (.lightReqLocked q d) s (discarded q (regAddr .LIGHT_CTL d) (s.lightState d) 0 s)) ∧
  (s.lightState d = 0 → Runs (.lightReqFree q d) s (discarded q (regAddr .LIGHT_CTL d) 0 0 s))) ∧
  (∀ (s : State) (q : Requester) (d : Fin 2), s.grants q false = true →
  Runs (.lightSnap d) s (fun t => t.rd (F.LIGHT_SNAP_S_S d) = (s.dom d).sec % 2 ^ 64 ∧ t.rd (F.LIGHT_SNAP_NS_NS d) = (s.dom d).ns % 2 ^ 32 ∧
    t.rd (F.LIGHT_SNAP_FRAC_FRAC d) = (s.dom d).frac / 2 ^ 40 % 2 ^ 16 ∧
    changes [F.LIGHT_SNAP_S_S d, F.LIGHT_SNAP_NS_NS d, F.LIGHT_SNAP_FRAC_FRAC d] s t) ∧
  Runs (.lightKick d) s (fun t => t = s.setDom d { s.dom d with wdFrom := s.now }) ∧
  (s.on (F.LIGHT_CTL_MODE d) = false → ∀ adj, Runs (.lightRateAdjWrite q d adj) s fun t =>
    sext 40 (t.rd (F.LIGHT_RATE_ADJ_ADJ d)) = max (-65536000000) (min adj.toInt 65536000000) ∧ (t.dom d).wdFrom = s.now ∧
    t.dom d = { s.dom d with wdFrom := s.now } ∧
    changes [F.LIGHT_RATE_ADJ_ADJ d] s { t with domA := s.domA, domB := s.domB }) ∧
  (s.on (F.LIGHT_CTL_MODE d) = true → ∀ incr, Runs (.lightIncrWrite q d incr) s fun t =>
    t.rd (F.LIGHT_INCR_INCR d) = incr.toNat ∧ changes [F.LIGHT_INCR_INCR d] s t) ∧
  (s.lightState d = 0 → ∀ mode, s.on (F.LIGHT_CTL_MODE d) ≠ mode → Runs (.lightModeWrite q d mode) s fun t =>
    t.on (F.LIGHT_CTL_MODE d) = mode ∧ (mode = true → t.rd (F.LIGHT_INCR_INCR d) = (s.dom d).eff / 2 ^ 24 % 2 ^ 40) ∧
    changes [F.LIGHT_CTL_MODE d, F.LIGHT_INCR_INCR d] s t) ∧
  (s.on (F.LIGHT_CTL_MODE d) = true → ∀ adj : BitVec 40, adj.toNat ≠ s.rd (F.LIGHT_RATE_ADJ_ADJ d) →
    Runs (.lightRateAdjWrite q d adj) s (discarded q (regAddr .LIGHT_RATE_ADJ d) 1 0 s)) ∧
  (s.on (F.LIGHT_CTL_MODE d) = false → ∀ incr : BitVec 40, incr.toNat ≠ s.incrRead d →
    Runs (.lightIncrWrite q d incr) s (discarded q (regAddr .LIGHT_INCR d) 1 0 s)) ∧
  (s.lightState d ≠ 0 → ∀ mode, s.on (F.LIGHT_CTL_MODE d) ≠ mode →
    Runs (.lightModeWrite q d mode) s (discarded q (regAddr .LIGHT_CTL d) (s.lightState d) 0 s)))

/-- WATCHDOG_EXPIRE, PPS_IN_MISS (R343, R344): a LOCKED domain whose source watches what was lost loses its master; any other domain stays
as it is. -/
def Obligations.MasterLoss : Prop := ∀ (s : State) (d : Fin 2),
  (s.lightState d = 2 → bit (s.rd (F.LIGHT_CTL_SRC d)) 0 = true → s.wdExpired d = true → Runs (.watchdogExpire d) s (masterLost s d)) ∧
  (s.lightState d = 2 → bit (s.rd (F.LIGHT_CTL_SRC d)) 1 = true → s.ppsMissed d = true → Runs (.ppsInMiss d) s (masterLost s d)) ∧
  (s.lightState d ≠ 2 → Runs (.watchdogExpire d) s (fun t => t = s) ∧ Runs (.ppsInMiss d) s fun t => t = s)

/-- PPS_IN_EDGE, PPS_OUT_EDGE, TEN_MHZ_PHASE (R356 to R358): an edge of PPS_IN at least 500 ms after the last accepted one is accepted
and, with EN, timestamped in both domains; PPS_OUT rises at a whole second of its domain; the phase to the 10 MHz edge is recorded at a
whole second. TSF_POP, TIME_COMPARE_FIRE (R355, R453): a pop returns the oldest entry's first word, latches its others and lowers COUNT,
and an empty FIFO returns 0; the armed compare fires once domain A has reached its instant, disarms and raises its interrupt, and an
instant not reached changes nothing. -/
def Obligations.TimingInputs : Prop :=
  (∀ (s : State),
  (∀ sub, s.ppsLast.any (fun t => s.now - t < 800000000) = true → Runs (.ppsInEdge sub) s fun t => t = s) ∧
  (∀ sub, s.ppsLast.any (fun t => s.now - t < 800000000) = false → Runs (.ppsInEdge sub) s fun t =>
    t.ppsLast = some s.now ∧ (∀ e : Fin 2, (t.dom e).ppsFromS = s.domA.sec ∧ (t.dom e).ppsFromNs = s.domA.ns ∧ (t.dom e).total = (s.dom e).total) ∧
    (s.on F.LIGHT_PPS_IN_CFG_EN = true → t.rd (F.LIGHT_PPS_IN_TS_TS 0) = s.domA.ts64 sub ∧ t.rd (F.LIGHT_PPS_IN_TS_TS 1) = s.domB.ts64 sub ∧
      t.on F.LIGHT_PPS_IN_STAT_VALID = true ∧ t.ppsUnread = true ∧
      (s.ppsUnread = true → t.on F.LIGHT_PPS_IN_STAT_OVERRUN = true ∧ t.intBit .light 0 6 = true)) ∧
    signals [F.LIGHT_PPS_IN_TS_TS 0, F.LIGHT_PPS_IN_TS_TS 1, F.LIGHT_PPS_IN_STAT_VALID, F.LIGHT_PPS_IN_STAT_OVERRUN, F.LIGHT_INT_STATUS_BITS] s
      { t with ppsLast := s.ppsLast, ppsUnread := s.ppsUnread, domA := s.domA, domB := s.domB }) ∧
  (s.on F.LIGHT_PPS_OUT_CFG_EN = true →
    (s.dom (s.rd F.LIGHT_PPS_OUT_CFG_DOMAIN)).atSecond (sext 16 (s.rd F.LIGHT_PPS_OUT_CFG_OFFSET) * 2560 * 2 ^ 40) = true →
    Runs .ppsOutEdge s fun t => Out.pin .ppsOut true ∈ t.out ∧ t.ranAt .ppsOut 0 = s.now + s.rd F.LIGHT_PPS_OUT_CFG_WIDTH * 1600 ∧
      { t with out := s.out, timers := s.timers } = s) ∧
  (s.domA.atSecond 0 = true → ∀ phase, Runs (.tenMhzPhase phase) s fun t => t.rd F.LIGHT_10M_PHASE_PHASE = phase.val ∧
    t.on F.LIGHT_10M_PHASE_VALID = true ∧ changes [F.LIGHT_10M_PHASE_PHASE, F.LIGHT_10M_PHASE_VALID] s t)) ∧
  (∀ (s : State) (q : Requester) (i : Fin 16),
  (s.grants q false = true → mget s.tsf i [] = [] → Runs (.tsfPop q i) s fun t =>
    t = { s with out := .readData q (regAddr .LIGHT_TSF_POP (4 * i)) 4 0 :: s.out }) ∧
  (s.grants q false = true → ∀ e l, mget s.tsf i [] = e :: l → Runs (.tsfPop q i) s fun t =>
    t.out = .readData q (regAddr .LIGHT_TSF_POP (4 * i)) 4 e.w0 :: s.out ∧ mget t.tsf i [] = l ∧ mget t.tsfLatch i (0, 0) = (e.w1, e.ts) ∧
    t.rd (F.LIGHT_TSF_STATUS_COUNT i) = l.length % 2 ^ 10 ∧ (∀ k : Nat, k ≠ i → mget t.tsf k [] = mget s.tsf k []) ∧
    changes [F.LIGHT_TSF_STATUS_COUNT i] s { t with tsf := s.tsf, tsfLatch := s.tsfLatch, out := s.out }) ∧
  (s.on F.LIGHT_TM_CMP_NS_ARM = true → ∀ x, s.cmpAt = some x → x.1 * 1000000000 + x.2 ≤ s.domA.sec * 1000000000 + s.domA.ns →
    Runs .timeCompareFire s fun t => t.on F.LIGHT_TM_CMP_NS_ARM = false ∧ t.cmpAt = none ∧ t.intBit .light 0 7 = true ∧ t.domA = s.domA ∧
      t.domB = s.domB ∧ t.hbm = s.hbm ∧ t.fuses = s.fuses) ∧
  (∀ x, s.cmpAt = some x → s.domA.sec * 1000000000 + s.domA.ns < x.1 * 1000000000 + x.2 → Runs .timeCompareFire s fun t => t = s))

/-- LOW_WORD_READ, PPS_IN_TS_READ (R357, R403, R413, R466): what a 4-byte read answers. Before READY a register that the boot ROM does not
serve reads 0; the low word of a 64-bit register latches the high word for its requester alone, and the next read of the high word takes
the latch; a VF reads 0 where it owns nothing. No other state changes, but for a register with a side effect of its own. It rests on
choices of the model too: log entries 9, 82. -/
def Obligations.RegisterReads : Prop := ∀ (s : State) (q : Requester) (addr : BitVec 28), addr.toNat % 4 = 0 →
  (requesterSource q ≠ 1 → s.reach addr.toNat = none → Runs (.lowWordRead q addr 4) s fun t =>
    t = { s with out := .readData q addr.toNat 4 0 :: s.out }) ∧
  (requesterSource q ≠ 1 → ∀ r k, s.reach addr.toNat = some (r, k, false) → r ≠ .LIGHT_TSF_POP →
    ((regRow r).fields k).all (fun f => f.2 ≠ .rc) = true →
    Runs (.lowWordRead q addr 4) s fun t =>
      ((regRow r).wide = false → t = { s with out := .readData q addr.toNat 4 (s.regValue r k % 2 ^ 32) :: s.out }) ∧
      ((regRow r).wide = true → t.out = .readData q addr.toNat 4 (s.regValue r k % 2 ^ 32) :: s.out ∧
        mget t.latch (requesterIx q) none = some { reg := r, ix := k, hi := s.regValue r k / 2 ^ 32 } ∧
        (∀ p : Requester, requesterIx p ≠ requesterIx q → mget t.latch (requesterIx p) none = mget s.latch (requesterIx p) none) ∧
        { t with out := s.out, latch := s.latch } = s)) ∧
  (requesterSource q ≠ 1 → ∀ r k, s.reach addr.toNat = some (r, k, true) → r ≠ .LIGHT_PPS_IN_TS → r ≠ .PRS_STEPS →
    ∀ l, mget s.latch (requesterIx q) none = some l → l.reg = r → l.ix = k → Runs (.lowWordRead q addr 4) s fun t =>
      t.out = .readData q addr.toNat 4 l.hi :: s.out ∧ mget t.latch (requesterIx q) none = none ∧
      { t with out := s.out, latch := s.latch } = s) ∧
  (∀ f, s.vfReaches (Fin.val f) addr.toNat = false → Runs (.lowWordRead (.vf f) addr 4) s fun t =>
    t = { s with out := .readData (.vf f) addr.toNat 4 0 :: s.out }) ∧
  (requesterSource q ≠ 1 → s.ready = true → Runs (.ppsInTsRead q) s fun t =>
    t.on F.LIGHT_PPS_IN_STAT_OVERRUN = false ∧ t.ppsUnread = false ∧
    changes [F.LIGHT_PPS_IN_STAT_OVERRUN] s { t with ppsUnread := s.ppsUnread, out := s.out, latch := s.latch })

/-- LOW_WORD_WRITE, HIGH_WORD_WRITE, REGISTER_WRITE (R403, R465, R467, R472): a low word of a 64-bit register is held for its requester,
the high word brings both into effect, 4-byte writes reach a 32-bit register, 8-byte writes a 64-bit one whole, and writes of 1 or 2 bytes
are discarded with reason SIZE. Before READY a write to a register that the boot ROM does not serve has no effect. It rests on choices of
the model too: log entry 9. -/
def Obligations.RegisterWrites : Prop := ∀ (s : State) (q : Requester) (addr : BitVec 28) (v : BitVec 32) (w : BitVec 64),
  q = .pf0 ∨ q = .jtag ∨ q = .regInit →
  (∀ r k, s.reach addr.toNat = some (r, k, true) → addr.toNat % 4 = 0 → ∀ x, mget s.held (requesterIx q) none = some x → x.reg = r → x.ix = k →
    Runs (.highWordWrite q addr v) s fun t =>
      t = State.regWrite { s with held := mset s.held (requesterIx q) none none } q r k (x.lo + v.toNat * 2 ^ 32)) ∧
  (mget s.held (requesterIx q) none = none →
  (addr.toNat % 4 = 0 → s.reach addr.toNat = none → Runs (.registerWrite q addr 4 w) s fun t => t = s) ∧
  (addr.toNat % 4 = 0 → ∀ r k, s.reach addr.toNat = some (r, k, false) → (regRow r).wide = true →
    Runs (.lowWordWrite q addr v) s (fun t =>
      mget t.held (requesterIx q) none = some { reg := r, ix := k, lo := v.toNat } ∧ { t with held := s.held } = s) ∧
    (addr.toNat % 8 = 0 → Runs (.registerWrite q addr 8 w) s fun t =>
      t = State.regWrite { s with held := mset s.held (requesterIx q) none none } q r k w.toNat)) ∧
  (addr.toNat % 4 = 0 → ∀ r k, s.reach addr.toNat = some (r, k, false) → (regRow r).wide = false →
    Runs (.registerWrite q addr 4 w) s fun t => t = s.regWrite q r k (w.toNat % 2 ^ 32)) ∧
  (∀ r k, s.reach (addr.toNat / 4 * 4) = some (r, k, false) → Runs (.registerWrite q addr 1 w) s (discarded q (regAddr r k) 0 1 s)))

/-- INT_STATUS_WRITE, CHIP_VEC_MAP_WRITE, MSIX_UNMASK (R475, R478, R479): bits written as 1 are cleared and the vector's message is sent
again while its condition holds; a summary bit takes its vector, and a new vector sends at once while the bit's condition holds; an
unmasked vector with a pending message sends it. It rests on choices of the model too: log entry 8. -/
def Obligations.InterruptWrites : Prop := ∀ (s : State) (q : Requester), s.ready = true → q = .pf0 ∨ q = .jtag ∨ q = .regInit →
  mget s.held (requesterIx q) none = none →
  (∀ (b : Blk) (i : Fin 16) (v : BitVec 32), intBlks.any (fun e => e.1 = b && i < e.2) = true → Runs (.intStatusWrite q b i v) s fun t =>
    t.rd (intStatus b i) = s.rd (intStatus b i) - (s.rd (intStatus b i) &&& v.toNat) ∧
    (t.vectorCond (s.rd (F.CHIP_VEC_MAP_VECTOR (summaryBit b i))) = true →
      t.out = (s.sendVector 0 (s.rd (F.CHIP_VEC_MAP_VECTOR (summaryBit b i)))).out) ∧
    (t.vectorCond (s.rd (F.CHIP_VEC_MAP_VECTOR (summaryBit b i))) = false → t.out = s.out) ∧
    signals [intStatus b i] s t) ∧
  (∀ (b : Fin 39) (v : BitVec 32), Runs (.chipVecMapWrite q b v) s fun t =>
    t.rd (F.CHIP_VEC_MAP_VECTOR b) = v.toNat % 2 ^ 10 ∧ signals [F.CHIP_VEC_MAP_VECTOR b] s t ∧
    (s.summaryCond b = true → s.rd (F.CHIP_VEC_MAP_VECTOR b) ≠ v.toNat % 2 ^ 10 → t.out = (s.sendVector 0 (v.toNat % 2 ^ 10)).out)) ∧
  (∀ (owner : Fin 32) (v : Fin 1056), owner.val = 0 ∨ v.val < 32 → Runs (.msixUnmask owner v) s fun t =>
    mget t.msixOn (key2 owner.val v.val) false = true ∧ mget t.msixPend (key2 owner.val v.val) false = false ∧
    (mget s.msixPend (key2 owner.val v.val) false = true → t.out = .msix owner v :: s.out) ∧
    (mget s.msixPend (key2 owner.val v.val) false = false → t.out = s.out) ∧
    { t with out := s.out, msixOn := s.msixOn, msixPend := s.msixPend } = s)

/-- VF_WINDOW_ACCESS, RX_TAIL_WRITE, TX_TAIL_WRITE (R413, R416, R419, R467): a VF's access outside what it owns reads 0, or is counted and
signalled; within, it is the access of the register behind the window. A tail write moves TAIL for PF0 and for the ring's owner.
HARB_RING_CFG_WRITE (R416, R419, R435): a ring that is disabled takes every field of its configuration, and SEQ of an RX ring that is
enabled counts from 0; SIZE, OWNER and BUF of an enabled ring are locked, and a write that would change one is recorded. It rests on
choices of the model too: log entry 108. -/
def Obligations.RingRegisters : Prop :=
  (∀ (s : State) (f : Fin 32) (off : Fin 1048576) (w : Nat), 0 < f.val → off.val % 4 = 0 →
  (s.windowAddr f off = none →
    Runs (.vfWindowAccess f off 4 none) s (fun t => t = { s with out := .readData (.vf f) off 4 0 :: s.out }) ∧
    Runs (.vfWindowAccess f off 4 (some w)) s fun t =>
      t.rd (F.HARB_VF_DENIED_COUNT f) = min (s.rd (F.HARB_VF_DENIED_COUNT f) + 1) (2 ^ 32 - 1) ∧ t.intBit .harb 0 2 = true ∧
      signals [F.HARB_VF_DENIED_COUNT f, F.HARB_INT_STATUS_BITS] s t) ∧
  (∀ a, s.windowAddr f off = some a →
    Runs (.vfWindowAccess f off 4 none) s (fun t =>
      t = (s.readAccess (.vf f) a 4).2.emit (.readData (.vf f) off 4 (s.readAccess (.vf f) a 4).1)) ∧
    Runs (.vfWindowAccess f off 4 (some w)) s fun t => t = s.writeAccess (.vf f) a 4 w) ∧
  (∀ (q : Requester) (r : Fin 64) (tail : Fin 65536), s.ready = true → mget s.held (requesterIx q) none = none →
    (q = .pf0 ∨ q = .vf f ∧ s.ringOwner false r = f → Runs (.rxTailWrite q r tail) s fun t =>
      t.rd (F.HARB_RX_TAIL_TAIL r) = tail ∧ changes [F.HARB_RX_TAIL_TAIL r] s t) ∧
    (q = .pf0 ∨ q = .vf f ∧ s.ringOwner true r = f → Runs (.txTailWrite q r tail) s fun t =>
      t.rd (F.HARB_TX_TAIL_TAIL r) = tail ∧ changes [F.HARB_TX_TAIL_TAIL r] s t) ∧
    (s.ringOwner false r ≠ f → Runs (.rxTailWrite (.vf f) r tail) s fun t =>
      t.rd (F.HARB_VF_DENIED_COUNT f) = min (s.rd (F.HARB_VF_DENIED_COUNT f) + 1) (2 ^ 32 - 1) ∧
      signals [F.HARB_VF_DENIED_COUNT f, F.HARB_INT_STATUS_BITS] s t))) ∧
  (∀ (s : State) (q : Requester) (r : Fin 64) (v : BitVec 32), s.ready = true → q = .pf0 ∨ q = .regInit →
  mget s.held (requesterIx q) none = none →
  (s.on (F.HARB_RX_CFG_EN r) = false → v.getLsbD 0 = true → Runs (.harbRingCfgWrite q false r v) s fun t =>
    t.on (F.HARB_RX_CFG_EN r) = true ∧ t.rd (F.HARB_RX_CFG_SIZE r) = v.toNat / 2 % 2 ^ 4 ∧ t.rd (F.HARB_RX_CFG_OWNER r) = v.toNat / 2 ^ 5 % 2 ^ 5 ∧
    t.rd (F.HARB_RX_CFG_BUF r) = v.toNat / 2 ^ 10 % 2 ^ 6 ∧ t.rd (F.HARB_RX_CFG_VECTOR r) = v.toNat / 2 ^ 16 % 2 ^ 5 ∧
    t.rd (F.HARB_RX_CFG_COUNT r) = v.toNat / 2 ^ 21 % 2 ^ 5 ∧ t.rd (F.HARB_RX_CFG_ITR r) = v.toNat / 2 ^ 26 % 2 ^ 6 ∧
    mget t.harb.seq r 0 = 0 ∧ mget t.harb.waiting r 0 = 0 ∧
    readsOff [.HARB_RX_CFG, .CNT_CTL] s t ∧ { t with regs := s.regs, harb := s.harb } = s) ∧
  (s.on (F.HARB_TX_CFG_EN r) = false → Runs (.harbRingCfgWrite q true r v) s fun t =>
    t.on (F.HARB_TX_CFG_EN r) = v.getLsbD 0 ∧ t.rd (F.HARB_TX_CFG_SIZE r) = v.toNat / 2 % 2 ^ 4 ∧
    t.rd (F.HARB_TX_CFG_OWNER r) = v.toNat / 2 ^ 5 % 2 ^ 5 ∧ t.rd (F.HARB_TX_CFG_VECTOR r) = v.toNat / 2 ^ 16 % 2 ^ 5 ∧
    changes [F.HARB_TX_CFG_EN r, F.HARB_TX_CFG_SIZE r, F.HARB_TX_CFG_OWNER r, F.HARB_TX_CFG_VECTOR r] s t) ∧
  (s.on (F.HARB_TX_CFG_EN r) = true → v.getLsbD 0 = true → s.ringOwner true r ≠ v.toNat / 2 ^ 5 % 2 ^ 5 →
    Runs (.harbRingCfgWrite q true r v) s fun t =>
      t.ringOwner true r = s.ringOwner true r ∧ t.rd (F.HARB_TX_CFG_SIZE r) = s.rd (F.HARB_TX_CFG_SIZE r) ∧
      t.rd (F.HARB_TX_CFG_VECTOR r) = v.toNat / 2 ^ 16 % 2 ^ 5 ∧ t.intBit .chip 0 0 = true ∧
      t.rd F.CHIP_WDISCARD_CNT_COUNT = min (s.rd F.CHIP_WDISCARD_CNT_COUNT + 1) (2 ^ 32 - 1) ∧
      signals (F.HARB_TX_CFG_VECTOR r :: discardFields) s t))

/-- RX_ITR_EXPIRE, PCIE_LINK_CHANGE, HOST_INJECT_WAIT_EXPIRE (R42, R411, R417, R419): a ring whose first waiting frame is ITR µs old
raises its vector; the link's status registers follow the link, with an interrupt at a change; host frames that have waited 1 µs go ahead.
It rests on choices of the model too: log entry 8. -/
def Obligations.HarbourTimers : Prop := ∀ (s : State),
  (∀ (r : Fin 64) (a : Nat), mfind s.harb.since r = some a →
    (a + 1600 * s.rd (F.HARB_RX_CFG_ITR r) ≤ s.now → Runs (.rxItrExpire r) s fun t =>
      mget t.harb.waiting r 0 = 0 ∧ mfind t.harb.since r = none ∧
      t.out = (s.sendVector (s.ringOwner false r) (ringVector (s.ringOwner false r) (s.rd (F.HARB_RX_CFG_VECTOR r)))).out ∧
      { t with harb := s.harb, out := s.out, msixPend := s.msixPend } = s) ∧
    (s.now < a + 1600 * s.rd (F.HARB_RX_CFG_ITR r) → Runs (.rxItrExpire r) s fun t => t = s)) ∧
  (∀ (up : Bool) (rate : Fin 6) (width : Fin 9) (flit : Bool), Runs (.pcieLinkChange up rate width flit) s fun t =>
    t.on F.HARB_STATUS_LINK_UP = up ∧ t.rd F.HARB_STATUS_RATE = (if up then rate.val else 0) ∧
    t.rd F.HARB_STATUS_WIDTH = (if up then width.val else 0) ∧ t.on F.HARB_STATUS_FLIT = (up && flit) ∧
    (s.on F.HARB_STATUS_LINK_UP ≠ up → t.intBit .harb 0 0 = true) ∧
    signals [F.HARB_STATUS_LINK_UP, F.HARB_STATUS_RATE, F.HARB_STATUS_WIDTH, F.HARB_STATUS_FLIT, F.HARB_INT_STATUS_BITS] s t) ∧
  (∀ (i : Fin 16) (x : Fin 5), Runs (.hostInjectWaitExpire i x) s fun t =>
    mget t.path.inject (10 * i.val + x.val) [] =
      (mget s.path.inject (10 * i.val + x.val) []).map (fun e => if s.now ≥ e.1 + 1600 then (e.1, true, e.2.2) else e) ∧
    (∀ y : Fin 160, y.val ≠ 10 * i.val + x.val → mget t.path.inject y [] = mget s.path.inject y []) ∧
    { t with path := { t.path with inject := s.path.inject } } = s)

/-- RX_FRAME_WRITE, TX_FRAME_READ (R41, R42, R248, R416, R418, R419): the CPU scheduler's choice goes to host memory once its ring has the
buffers, and otherwise nothing moves; a host frame whose descriptors are posted leaves with its STATUS, 2 where the descriptors break
R418, and a ring that does not run moves nothing. What TX_FRAME_READ writes back (R418, R419): FLAGS with DONE and STATUS in the last
descriptor, HEAD past the frame's descriptors, and the ring's vector where INT asks for it; an RX frame (R416) stands in its buffers, and
HEAD passes its descriptors. It rests on choices of the model too: log entries 83, 84, 85, 107, 167. -/
def Obligations.RingFrames : Prop :=
  (∀ (s : State),
  (∀ bufs errs, s.cpuDecide = none → Runs (.rxFrameWrite bufs errs) s fun t => t = s) ∧
  (∀ bufs errs c, s.cpuDecide = some c → ∀ e x, s.headPkt c.ix = some (e, x) → s.rxNeed (c.ix - 9216) x.data.length ≤ bufs.length →
    Runs (.rxFrameWrite bufs errs) s fun t =>
      t = (s.cpuAccount c (max 1 x.data.length)).cpuServe (c.ix - 9216) e x bufs errs) ∧
  (∀ bufs c, s.cpuDecide = some c → ∀ e x, s.headPkt c.ix = some (e, x) → ∀ r, r = c.ix - 9216 → s.rxNeed r x.data.length ≤ bufs.length → s.on F.DBG_CTL_ARM = false →
    Runs (.rxFrameWrite bufs []) s fun t =>
      mget t.path.queues (9216 + r) [] = (mget s.path.queues (9216 + r) []).tail ∧
      t.rd (F.HARB_RX_HEAD_HEAD r) = (s.rd (F.HARB_RX_HEAD_HEAD r) + s.rxNeed r x.data.length) % s.ringEntries false r ∧
      (∀ k : Fin 3, k.val < s.rxNeed r x.data.length →
        Out.hostWrite (s.ringOwner false r) (bufs.getD k 0) (slice x.data (k * s.rxBuf r) (s.rxBuf r)) ∈ t.out)) ∧
  (∀ (r : Fin 64) ds data sub, s.ringRuns true r = false ∨ s.stopped = true → Runs (.txFrameRead r ds data sub) s fun t => t = s) ∧
  (∀ (r : Fin 64) ds data sub, s.ringRuns true r = true → s.stopped = false →
    ∀ l, l = takeFrameDescs (min 16 (s.posted true r)) (ds.map txDesc) → ∀ d, l.head? = some d → ∀ e, l.getLast? = some e →
    (e.last = false → l.length < 16 → Runs (.txFrameRead r ds data sub) s fun t => t = s) ∧
    (e.last = true ∨ l.length = 16 →
      (txDescsOk l d = false ∨ data.length ≠ (l.map (fun x => x.length)).sum → Runs (.txFrameRead r ds data sub) s fun t =>
        t = s.txDone r l.length e 2) ∧
      (txDescsOk l d = true → data.length = (l.map (fun x => x.length)).sum → Runs (.txFrameRead r ds data sub) s fun t =>
        t = ((s.txHand d data sub).2.txDone r l.length e (s.txHand d data sub).1).flushSamples sub ∧
          t.rd (F.HARB_TX_HEAD_HEAD r) = (s.rd (F.HARB_TX_HEAD_HEAD r) + l.length) % s.ringEntries true r))) ∧
  (∀ (r : Fin 64) ds data sub, takeFrameDescs (min 16 (s.posted true r)) (ds.map txDesc) = [] →
    Runs (.txFrameRead r ds data sub) s fun t => t = s)) ∧
  (∀ (s : State) (r : Fin 64),
  (∀ (n st : Nat) (d : TxDesc) (t : State), t = s.txDone r n d st →
    t.rd (F.HARB_TX_HEAD_HEAD r) = (s.rd (F.HARB_TX_HEAD_HEAD r) + n) % s.ringEntries true r ∧
    (d.int = false → t.out =
      .hostWrite (s.ringOwner true r) (s.descAddr true r (n - 1) + 15) (leBytes 1 st) ::
        .hostWrite (s.ringOwner true r) (s.descAddr true r (n - 1) + 10) (leBytes 1 (flagsDone d)) :: s.out) ∧
    changes [F.HARB_TX_HEAD_HEAD r] s { t with out := s.out, msixPend := s.msixPend }) ∧
  (∀ (x : Pkt) (bufs : List Nat) (t : State), t = s.rxWrite r x bufs →
    t.rd (F.HARB_RX_HEAD_HEAD r) = (s.rd (F.HARB_RX_HEAD_HEAD r) + s.rxNeed r x.data.length) % s.ringEntries false r ∧
    (∀ k, k < s.rxNeed r x.data.length →
      Out.hostWrite (s.ringOwner false r) (bufs.getD k 0) (slice x.data (k * s.rxBuf r) (s.rxBuf r)) ∈ t.out) ∧
    changes [F.HARB_RX_HEAD_HEAD r] s { t with out := s.out, msixPend := s.msixPend, harb := s.harb }))

/-- FUNCTION_LEVEL_RESET (R419, R470): the function's rings are disabled and hold their reset values, so does its Dysum pair, and the
event is raised; where no frame waits in them, rings of other functions keep theirs. -/
def Obligations.FunctionReset : Prop := ∀ (s : State) (f : Fin 32),
  Runs (.functionLevelReset f) s fun t =>
    (∀ r : Fin 64, s.ringOwner true r = f → t.on (F.HARB_TX_CFG_EN r) = false ∧ t.rd (F.HARB_TX_TAIL_TAIL r) = 0 ∧
      t.rd (F.HARB_TX_HEAD_HEAD r) = 0 ∧ t.ringOwner true r = 0 ∧ t.rd (F.HARB_TX_BASE_BASE r) = 0) ∧
    ((∀ r : Fin 64, s.ringOwner false r = f → s.queue (9216 + r) = []) →
      (∀ r : Fin 64, s.ringOwner false r = f → t.on (F.HARB_RX_CFG_EN r) = false ∧ t.rd (F.HARB_RX_TAIL_TAIL r) = 0 ∧
        t.rd (F.HARB_RX_HEAD_HEAD r) = 0 ∧ t.ringOwner false r = 0 ∧ t.rd (F.HARB_RX_BASE_BASE r) = 0) ∧
      (∀ r : Fin 64, s.ringOwner false r ≠ f → t.on (F.HARB_RX_CFG_EN r) = s.on (F.HARB_RX_CFG_EN r) ∧
        t.rd (F.HARB_RX_TAIL_TAIL r) = s.rd (F.HARB_RX_TAIL_TAIL r) ∧ t.rd (F.HARB_RX_BASE_BASE r) = s.rd (F.HARB_RX_BASE_BASE r))) ∧
    (f.val ≠ 0 → t.on (F.DYS_RING_CFG_EN (3 + f)) = false ∧ t.rd (F.DYS_CMD_TAIL_TAIL (3 + f)) = 0 ∧ t.rd (F.DYS_CMD_HEAD_HEAD (3 + f)) = 0 ∧
      t.rd (F.DYS_RSP_TAIL_TAIL (3 + f)) = 0) ∧
    t.intBit .harb 0 1 = true

/-- DYS_CMD_TAIL_WRITE, DYS_DATAGRAM_RECEIVE (R422 to R424): a doorbell moves TAIL of its pair; a datagram that is not for the port or is
malformed has no effect, one from a sender outside the ACL or beyond the window is dropped and counted, one that is cached is answered
again, and one within the window waits for its turn. It rests on choices of the model too: log entry 154. -/
def Obligations.DysumDoors : Prop := ∀ (s : State),
  (∀ (q : Requester) (k : Fin 35) (tail : BitVec 32), mget s.held (requesterIx q) none = none →
    q = .pf0 ∧ (s.ready = true ∨ k.val < 4) ∨ (∃ f : Fin 32, 0 < f.val ∧ q = .vf f ∧ k.val = 3 + f ∧ s.ready = true) → Runs (.dysCmdTailWrite q k tail) s fun t =>
      t.rd (F.DYS_CMD_TAIL_TAIL k) = tail.toNat ∧ changes [F.DYS_CMD_TAIL_TAIL k] s t) ∧
  (∀ (e : Fin 2) v6 src dst dport ver ty count seq, ver ≠ 1 ∨ ty ≠ 1 ∨ count = 0 ∨ 16 < count ∨ s.on (F.DYS_ETH_CFG_EN e) = false →
    Runs (.dysDatagramReceive e v6 src dst dport ver ty count seq) s fun t => t = s) ∧
  (∀ (e : Fin 2) src count seq, 0 < count → count ≤ 16 → seq < 2 ^ 32 → s.on (F.DYS_ETH_CFG_EN e) = true →
    (s.on (F.DYS_ETH_CFG_ACL_EN e) = true → s.aclHas e (s.on (F.DYS_ETH_CFG_IPV6 e)) src = false →
      Runs (.dysDatagramReceive e (s.on (F.DYS_ETH_CFG_IPV6 e)) src (addrOf (fun w => s.rd (F.DYS_ETH_ADDR_WORD (4 * e + w))))
        (s.rd (F.DYS_ETH_CFG_UDP_PORT e)) 1 1 count seq) s fun t =>
        t.rd (F.DYS_ETH_DROP_COUNT e) = min (s.rd (F.DYS_ETH_DROP_COUNT e) + 1) (2 ^ 32 - 1) ∧ t.intBit .dys 0 1 = true ∧
        signals [F.DYS_ETH_DROP_COUNT e, F.DYS_INT_STATUS_BITS] s t) ∧
    (s.on (F.DYS_ETH_CFG_ACL_EN e) = false ∨ s.aclHas e (s.on (F.DYS_ETH_CFG_IPV6 e)) src = true →
      (∀ x, (s.ethX e).cache.find? (fun c => c.1 = seq) = some x →
        Runs (.dysDatagramReceive e (s.on (F.DYS_ETH_CFG_IPV6 e)) src (addrOf (fun w => s.rd (F.DYS_ETH_ADDR_WORD (4 * e + w))))
          (s.rd (F.DYS_ETH_CFG_UDP_PORT e)) 1 1 count seq) s fun t => t = s.emit (.dysDatagram e seq x.2)) ∧
      (∀ last, (s.ethX e).lastSeq = some last → (s.ethX e).cache.find? (fun c => c.1 = seq) = none → (s.ethX e).cur = none →
        (0 < (seq + 2 ^ 32 - last) % 2 ^ 32 → (seq + 2 ^ 32 - last) % 2 ^ 32 ≤ 64 →
          Runs (.dysDatagramReceive e (s.on (F.DYS_ETH_CFG_IPV6 e)) src (addrOf (fun w => s.rd (F.DYS_ETH_ADDR_WORD (4 * e + w))))
            (s.rd (F.DYS_ETH_CFG_UDP_PORT e)) 1 1 count seq) s fun t =>
            mget (t.ethX e).waiting seq 0 = count ∧ (t.ethX e).lastSeq = some last ∧ (t.ethX e).cur = none ∧ { t with dys := s.dys } = s) ∧
        (64 < (seq + 2 ^ 32 - last) % 2 ^ 32 →
          Runs (.dysDatagramReceive e (s.on (F.DYS_ETH_CFG_IPV6 e)) src (addrOf (fun w => s.rd (F.DYS_ETH_ADDR_WORD (4 * e + w))))
            (s.rd (F.DYS_ETH_CFG_UDP_PORT e)) 1 1 count seq) s fun t =>
            t.rd (F.DYS_ETH_DROP_COUNT e) = min (s.rd (F.DYS_ETH_DROP_COUNT e) + 1) (2 ^ 32 - 1) ∧
            signals [F.DYS_ETH_DROP_COUNT e, F.DYS_INT_STATUS_BITS] s t))))

/-- NOP, and how every command of Dysum is taken and answered (R421, R424, R426, R427): an interface without an entry, or held by an
earlier command, waits; a ring's HEAD passes the entry, its RSP_TAIL the response, PHASE flips at each wrap, and the response carries the
opcode, the tag and the status. The order of the checks (R402, R426, R431): a command of too low a level is DENIED with its interrupt and
no other effect, an object that does not exist gives BAD_ARG, and before READY all but the commands of the boot are BUSY. It rests on
choices of the model too: log entries 79, 93, 110, 111, 117, 121, 130. -/
def Obligations.DysumAnswers : Prop :=
  (∀ (s : State) (h : DysHdr),
  (s.dysTake h.via = none → Runs (.nop h) s fun t => t = s) ∧
  (∀ (k : Fin 35) (u : State), s.dysTake (.ring k) = some u → dysBadForm { h with via := .ring k } = false →
    u = s.wr (F.DYS_CMD_HEAD_HEAD k) ((s.rd (F.DYS_CMD_HEAD_HEAD k) + 1) % dysSize (s.rd (F.DYS_RING_CFG_CMD_SIZE k))) ∧
    Runs (.nop { h with via := .ring k }) s fun t =>
      t.rd (F.DYS_RSP_TAIL_TAIL k) = (s.rd (F.DYS_RSP_TAIL_TAIL k) + 1) % dysSize (s.rd (F.DYS_RING_CFG_RSP_SIZE k)) ∧
      mget t.dys.phase k false = (if s.rd (F.DYS_RSP_TAIL_TAIL k) + 1 = dysSize (s.rd (F.DYS_RING_CFG_RSP_SIZE k))
        then !mget s.dys.phase k false else mget s.dys.phase k false) ∧
      Out.hostWrite (pairOwner k) (s.rd (F.DYS_RSP_BASE_BASE k) + 32 * s.rd (F.DYS_RSP_TAIL_TAIL k))
        (Rsp.bytes ⟨1, h.tag, if !s.ready then stBusy else if !h.suits then stBadOpcode else stOk, 0, h.object, 0, []⟩
          (!mget s.dys.phase k false)) ∈ t.out ∧
      answers { h with via := .ring k } [F.DYS_CMD_HEAD_HEAD k] s t) ∧
  (s.dysTake .i2c = some s → s.ready = true → h.suits = true → dysBadForm { h with via := .i2c } = false →
    Runs (.nop { h with via := .i2c }) s fun t =>
      t = s.emit (.dysRsp ⟨1, h.tag, stOk, 0, h.object, 0, []⟩))) ∧
  (∀ (s : State) (h : DysHdr) (u : State), s.dysTake h.via = some u → h.suits = true →
  (s.ready = true → levelOf h.via < lvOperator →
    Runs (.portEnable h true) s (fun t => t = State.dysAnswer h 0x0011 { st := u.raise .dys 0 0, status := stDenied }) ∧
    Runs (.spareSwap h) s (fun t => t = State.dysAnswer h 0x0020 { st := u.raise .dys 0 0, status := stDenied }) ∧
    Runs (.sessionClose h) s (fun t => t = State.dysAnswer h 0x0031 { st := u.raise .dys 0 0, status := stDenied }) ∧
    (∀ req, Runs (.lightState h req) s (fun t => t = State.dysAnswer h 0x0051 { st := u.raise .dys 0 0, status := stDenied })) ∧
    (∀ cap, Runs (.capSet h cap) s fun t => t = State.dysAnswer h 0x0060 { st := u.raise .dys 0 0, status := stDenied })) ∧
  (s.ready = true → levelOf h.via < lvOwner →
    (∀ d, Runs (.keyProgram h d) s (fun t => t = State.dysAnswer h 0x0048 { st := u.raise .dys 0 0, status := stDenied })) ∧
    Runs (.imageSwap h) s (fun t => t = State.dysAnswer h 0x0041 { st := u.raise .dys 0 0, status := stDenied }) ∧
    (∀ f, Runs (.svnRaise h f) s fun t => t = State.dysAnswer h 0x004A { st := u.raise .dys 0 0, status := stDenied })) ∧
  (s.ready = true → lvOperator ≤ levelOf h.via → 512 ≤ h.object →
    Runs (.portEnable h true) s (fun t => t = State.dysAnswer h 0x0011 { st := u, status := stBadArg }) ∧
    (∀ req, Runs (.lightState h req) s fun t => t = State.dysAnswer h 0x0051 { st := u, status := stBadArg }) ∧
    Runs (.sensorRead h) s fun t => t = State.dysAnswer h 0x0080 { st := u, status := stBadArg }) ∧
  (s.ready = false →
    Runs (.sensorRead h) s (fun t => t = State.dysAnswer h 0x0080 { st := u, status := stBusy }) ∧
    Runs (.portEnable h true) s fun t => t = State.dysAnswer h 0x0011 { st := u, status := stBusy }) ∧
  (s.ready = true → dysBadForm h = true → lvMonitor ≤ levelOf h.via →
    Runs (.nop h) s (fun t => t = State.dysAnswer h 0x0001 { st := u, status := stBadArg }) ∧
    Runs (.tidemarkFire h) s fun t => lvOperator ≤ levelOf h.via → t = State.dysAnswer h 0x0023 { st := u, status := stBadArg }))

/-- REG_READ, REG_WRITE (R425, R432, R468): one word, or up to eight, read or written from OBJECT on as the interface's requester would.
ERRLOG_READ, TIDEMARK_FIRE, TEL_READ, SENSOR_READ (R377, R433, R442, R453): what these commands answer, and that TEL_READ clears the
port's bins. It rests on choices of the model too: log entries 79, 110, 111, 118, 166. -/
def Obligations.DysumAccesses : Prop :=
  (∀ (s : State) (h : DysHdr) (u : State), s.dysTake h.via = some u → u.ready = true → h.suits = true →
  dysBadForm h = false →
  (∀ count : Fin 16, 0 < count.val → count.val ≤ 8 → wordsExist h.object count = true → lvMonitor ≤ levelOf h.via →
    (levelOf h.via = lvMonitor → monitorReads h.object count = true) → Runs (.regRead h count) s fun t =>
      (h.via ≠ .i2c → t = State.dysAnswer h 2 { st := (u.dysRead (requesterOf h.via) h.object count).2, result := (u.dysRead (requesterOf h.via) h.object count).1 }) ∧
      (count.val = 1 → (u.dysRead (requesterOf h.via) h.object count).1 = leBytes 4 (u.readWord (requesterOf h.via) h.object).1)) ∧
  (∀ words : List (BitVec 32), 0 < words.length → words.length ≤ 8 → wordsExist h.object words.length = true → levelOf h.via = lvOwner →
    Runs (.regWrite h words) s fun t =>
      t = State.dysAnswer h 3 { st := u.dysWrite (requesterOf h.via) h.object (words.map BitVec.toNat) })) ∧
  (∀ (s : State) (h : DysHdr) (u : State), s.dysTake h.via = some u → u.ready = true → h.suits = true →
  dysBadForm h = false →
  (∀ (seq : BitVec 32) count, 0 < count → lvMonitor ≤ levelOf h.via → Runs (.errlogRead h seq count) s fun t =>
    t = State.dysAnswer h 0x0022
      { st := u, result := ((u.log.reverse.filter (fun e => e.seq ≥ seq.toNat)).take count).flatMap (fun e => e.bytes) }) ∧
  (lvOperator ≤ levelOf h.via → Runs (.tidemarkFire h) s fun t => t = State.dysAnswer h 0x0023 { st := u.tidemark 2 0 }) ∧
  (h.object < 512 → levelOf h.via ≠ lvTenant ∨ bit (u.rd (F.HARB_VF_PORTS_PORTS (16 * vfOf h.via + h.object / 32))) (h.object % 32) = true →
    Runs (.telRead h) s fun t =>
      (∀ k ∈ portQueues h.object, ∀ b : Fin 64, t.rd (F.TM_HIST_COUNT (64 * k + b)) = 0) ∧
      readsOff [.TM_HIST, .DYS_RSP_TAIL] u t ∧
      { t with regs := u.regs, out := u.out, msixPend := u.msixPend, dys := u.dys } = u) ∧
  (h.object < 128 → lvMonitor ≤ levelOf h.via → Runs (.sensorRead h) s fun t =>
    t = State.dysAnswer h 0x0080 { st := u, result := leBytes 1 (u.rd (F.PWR_SENSOR_TEMP h.object)) }))

/-- PORT_DEFINE, PORT_ENABLE (R76, R109, R110): an UNDEFINED or DISABLED port takes a form that meets R76, WIDTH 0 makes it UNDEFINED, and
ENABLE takes a DISABLED port to LINKING; in another state the command is STATE_CONFLICT and nothing changes. SPARE_SWAP, SPARE_POLICY,
SPARE_RETURN, RETURN_TEST_DONE (R365, R444, R449 to R451): a replacement that may start holds its ring, the PLLs exchange at once, the
policy takes its values, a request is dismissed, and a returned resource is tested before it is a spare again. It rests on choices of the
model too: log entries 20, 91, 110, 111, 114, 115, 116, 153. -/
def Obligations.DysumPortsAndSpares : Prop :=
  (∀ (s : State) (h : DysHdr) (u : State), s.dysTake h.via = some u → u.ready = true → h.suits = true →
  dysBadForm h = false → levelOf h.via = lvOwner → h.object < 512 →
  (∀ d : PortDef, u.portState h.object ≤ 1 → d.width ≠ 0 → u.formError { d with port := h.object } = 0 → Runs (.portDefine h d) s fun t =>
    t = State.dysAnswer h 0x0010 { st := u.define { d with port := h.object }, state := 1 }) ∧
  (∀ d : PortDef, u.portState h.object = 1 → d.width = 0 → Runs (.portDefine h d) s fun t =>
    t = State.dysAnswer h 0x0010 { st := u.undefine h.object }) ∧
  (∀ d : PortDef, 1 < u.portState h.object → Runs (.portDefine h d) s fun t =>
    t = State.dysAnswer h 0x0010 { st := u, status := stConflict, state := u.portState h.object }) ∧
  (u.portState h.object = 1 → Runs (.portEnable h true) s fun t =>
    t = State.dysAnswer h 0x0011 { st := u.portOn h.object, state := (u.portOn h.object).portState h.object }) ∧
  (1 < u.portState h.object → Runs (.portEnable h false) s fun t =>
    t = State.dysAnswer h 0x0011 { st := u.portOff h.object, state := (u.portOff h.object).portState h.object }) ∧
  (u.portState h.object = 0 → Runs (.portEnable h true) s fun t => t = State.dysAnswer h 0x0011 { st := u, status := stConflict })) ∧
  (∀ (s : State) (h : DysHdr) (u : State), s.dysTake h.via = some u → u.ready = true → h.suits = true →
  dysBadForm h = false → lvOperator ≤ levelOf h.via →
  (∀ kind, kind = h.object / 2 ^ 28 → ∀ o, o = h.object % 2 ^ 28 → kind < 7 → objectOk kind o = true →
    (u.canReplace kind o = false → Runs (.spareSwap h) s fun t =>
      t = State.dysAnswer h 0x0020 { st := u, status := stConflict, state := u.objectState kind o }) ∧
    (u.canReplace kind o = true → Runs (.spareSwap h) s fun t =>
      t = ((u.requestRemove kind o).addHold h 0x0020 (if kind = 0 then holdLane else holdSpare kind) (if kind = 0 then (laneObj o).1 else o)).startReplace kind o true) ∧
    (u.returnable kind o = true → u.ras.returning = none → Runs (.spareReturn h) s fun t =>
      t.ras.returning = some h.object ∧ t.on F.RAS_SPARE_STATUS_BUSY = true ∧
      changes [F.RAS_SPARE_STATUS_BUSY] u { t with ras := u.ras, dys := u.dys }) ∧
    (∀ n, u.requestSlot kind o = some n → Runs (.sparePolicy h .dismiss) s fun t =>
      t = State.dysAnswer h 0x0021 { st := u.requestClear n, state := u.objectState kind o })) ∧
  (∀ m ask, m ≤ 1 → ask < 256 → u.on F.RAS_SPARE_STATUS_BUSY = false → Runs (.sparePolicy h (.mode m ask)) s fun t =>
    t.rd F.RAS_SPARE_POLICY_MODE = m ∧ t.rd F.RAS_SPARE_POLICY_ASK_KINDS = ask ∧
    answers h [F.RAS_SPARE_POLICY_MODE, F.RAS_SPARE_POLICY_ASK_KINDS] u t) ∧
  (∀ w, s.ras.returning = some w → ∀ step : BitVec 32, Runs (.returnTestDone false step) s fun t =>
    t.ras.returning = none ∧ t.on F.RAS_SPARE_STATUS_BUSY = false ∧ t.spareMap = s.spareMap ∧
    (s.dys.holds = [] → changes [F.RAS_SPARE_STATUS_BUSY] s { t with ras := s.ras })) ∧
  (∀ w, s.ras.returning = some w → w / 2 ^ 28 = 2 → s.rd (F.LAG_BANK_STATUS_STATE (w % 2 ^ 28)) = 3 → ∀ step, Runs (.returnTestDone true step) s fun t =>
    t.ras.returning = none ∧ t.on F.RAS_SPARE_STATUS_BUSY = false ∧ t.rd (F.LAG_BANK_STATUS_STATE (w % 2 ^ 28)) = 1))

/-- SESSION_OPEN, SESSION_CLOSE (R272, R297, R299, R302, R424): a session in IDLE opens as its resources allow; an OPEN or FAILED one
closes at once, and an ACTIVE one is CLOSING and holds its ring. LIGHT_STEP, LIGHT_STATE, CAP_SET, RING_RESET, RESET_REQ (R339, R342,
R366, R419, R469): the effect of each command once it is accepted. It rests on choices of the model too: log entries 89, 90, 110, 111,
117, 125, 129, 130. -/
def Obligations.DysumControls : Prop :=
  (∀ (s : State) (h : DysHdr) (u : State), s.dysTake h.via = some u → u.ready = true → h.suits = true →
  dysBadForm h = false → lvOperator ≤ levelOf h.via → h.object < 4096 →
  (∀ o, u.sessState h.object = 0 → Runs (.sessionOpen h o) s fun t =>
    t = State.dysAnswer h 0x0030 { st := (u.sessOpen h.object o).2, status := (u.sessOpen h.object o).1,
                                   state := (u.sessOpen h.object o).2.sessState h.object }) ∧
  (∀ o, u.sessState h.object ≠ 0 → Runs (.sessionOpen h o) s fun t =>
    t = State.dysAnswer h 0x0030 { st := u, status := stConflict, state := u.sessState h.object }) ∧
  (u.sessState h.object = 1 ∨ u.sessState h.object = 4 → Runs (.sessionClose h) s fun t =>
    t = State.dysAnswer h 0x0031 { st := u.sessIdle h.object }) ∧
  (u.sessState h.object = 2 → Runs (.sessionClose h) s fun t => t.sessState h.object = 3 ∧ u.dys.holds.length < t.dys.holds.length ∧ t.out = u.out)) ∧
  (∀ (s : State) (h : DysHdr) (u : State), s.dysTake h.via = some u → u.ready = true → h.suits = true →
  dysBadForm h = false → lvOperator ≤ levelOf h.via →
  (∀ d, d = h.object → ∀ (abs : Bool) (sec : BitVec 64) (ns : BitVec 32) (frac : BitVec 16), d < 2 →
    (u.stepAllowed d = true → Runs (.lightStep h abs sec ns frac) s fun t =>
      t = State.dysAnswer h 0x0050 { st := u.acceptStep d ⟨abs, sec.toNat, ns.toNat, frac.toNat⟩, state := u.lightState d }) ∧
    (u.stepAllowed d = false → Runs (.lightStep h abs sec ns frac) s fun t =>
      t = State.dysAnswer h 0x0050 { st := u, status := stConflict, state := u.lightState d }) ∧
    (∀ req : Fin 8, 1 ≤ req.val → req.val ≤ 3 → reqAllowed (u.lightState d) req = true → Runs (.lightState h req) s fun t =>
      t.lightState d = reqState req ∧ t.intBit .light 0 0 = true) ∧
    (∀ req : Fin 8, 1 ≤ req.val → req.val ≤ 3 → reqAllowed (u.lightState d) req = false → Runs (.lightState h req) s fun t =>
      t = State.dysAnswer h 0x0051 { st := u, status := stConflict, state := u.lightState d })) ∧
  (∀ cap : BitVec 16, u.ferryRole ≠ 1 → Runs (.capSet h cap) s fun t =>
    t.rd F.PWR_CAP_CAP = min 1600 cap.toNat ∧ answers h [F.PWR_CAP_CAP] u t) ∧
  (∀ cap : BitVec 16, u.ferryRole = 1 → Runs (.capSet h cap) s fun t =>
    t = State.dysAnswer h 0x0060 { st := u, status := stConflict, state := u.pwrState }) ∧
  (∀ r, r = h.object → r < 64 → Runs (.ringReset h true) s fun t =>
    t.on (F.HARB_TX_CFG_EN r) = false ∧ t.rd (F.HARB_TX_HEAD_HEAD r) = 0 ∧ t.rd (F.HARB_TX_TAIL_TAIL r) = 0 ∧
    answers h [F.HARB_TX_CFG_EN r, F.HARB_TX_HEAD_HEAD r, F.HARB_TX_TAIL_TAIL r] u t) ∧
  Runs (.resetReq h) s fun t => t = (State.dysAnswer h 0x0081 { st := u }).deviceReset .resetReq 0 false)

/-- IMAGE_STAGE, IMAGE_SWAP, IMAGE_CANCEL (R163, R164, R407, R408): a table-set image that verifies is staged and its islands load; a
staged image whose pipeline is ready starts its swap; a staged image that is not being swapped is discarded. It rests on choices of the
model too: log entries 79, 94, 101, 110, 111, 119, 120. -/
def Obligations.DysumImages : Prop := ∀ (s : State) (h : DysHdr) (u : State), s.dysTake h.via = some u → u.ready = true → h.suits = true →
  dysBadForm h = false → levelOf h.via = lvOwner →
  (∀ im x, im.type = 2 → u.boot.staged = none → (imageIslands im).any (fun k => u.on (F.PPE_BANK_LOADING k)) = false →
    u.stagingHolds im = true →
    (u.imageError im true = 0 → Runs (.imageStage h im x) s fun t =>
      t.boot.staged = some im ∧ t.boot.swapping = false ∧ t.rd F.BOOT_STAGED_IMAGE_ID = im.imageId % 2 ^ 32 ∧
      (∀ k ∈ imageIslands im, t.on (F.PPE_BANK_LOADING k) = true ∧ t.on (F.PPE_BANK_SHADOW_OK k) = false) ∧
      readsOff [.BOOT_STAGED, .PPE_BANK] u t ∧ t.hbm = (u.imageStore u.stagingOff im.bytes).hbm ∧
      { t with regs := u.regs, boot := u.boot, dys := u.dys, hbm := u.hbm } = u) ∧
    (u.imageError im true ≠ 0 → Runs (.imageStage h im x) s fun t =>
      t = State.dysAnswer h 0x0040 { st := u.imageRejected (u.imageError im true) true, status := stImageInvalid, detail := u.imageError im true })) ∧
  (u.boot.staged = none → Runs (.imageSwap h) s (fun t => t = State.dysAnswer h 0x0041 { st := u, status := stConflict }) ∧
    Runs (.imageCancel h) s fun t => t = State.dysAnswer h 0x0042 { st := u, status := stConflict }) ∧
  (∀ im, u.boot.staged = some im → im.type = 1 → u.fuses.svn ≤ im.svn → u.boot.swapping = false →
    u.swapAllowed (imageTarget im).1 (imageTarget im).2 = true → Runs (.imageSwap h) s fun t =>
      t = State.dysAnswer h 0x0041
        { st := (u.updBoot (fun b => { b with swapping := true })).fenceStart (imageTarget im).1 (imageTarget im).2, state := 3 }) ∧
  (∀ im, u.boot.staged = some im → u.boot.swapping = false → Runs (.imageCancel h) s fun t =>
      t = State.dysAnswer h 0x0042 { st := u.discardStaged, state := if im.type = 1 then 1 else 0 })

/-- KEY_PROGRAM, KEY_REVOKE, SVN_RAISE (R396 to R399, R402): a blank slot takes a digest, a slot is revoked while another key remains, the
floor rises; KEY_STATUS follows the fuses. What would break one of these rules is STATE_CONFLICT and changes no fuse. It rests on choices
of the model too: log entries 93, 110, 111, 120, 121. -/
def Obligations.DysumFuses : Prop := ∀ (s : State) (h : DysHdr) (u : State), s.dysTake h.via = some u → h.suits = true →
  dysBadForm h = false → levelOf h.via = lvOwner →
  (h.object < 4 → ∀ d, mfind u.fuses.digests h.object = none → Runs (.keyProgram h d) s fun t =>
    mfind t.fuses.digests h.object = some d.toNat ∧ (∀ k : Fin 4, k.val ≠ h.object → mfind t.fuses.digests k = mfind u.fuses.digests k) ∧
    t.fuses.revoked = u.fuses.revoked ∧ t.fuses.svn = u.fuses.svn ∧ (u.stage = 8 → t.stage = 3) ∧
    bit (t.rd F.BOOT_KEY_STATUS_PROGRAMMED) h.object = true) ∧
  (h.object < 4 → ∀ d e, mfind u.fuses.digests h.object = some e → Runs (.keyProgram h d) s fun t =>
    t = State.dysAnswer h 0x0048 { st := u, status := stConflict }) ∧
  (h.object < 4 → (∃ j : Fin 4, j.val ≠ h.object ∧ (mfind u.fuses.digests j).isSome = true ∧ u.fuses.revoked.contains j.val = false) →
    u.boot.staged = none → Runs (.keyRevoke h) s fun t =>
      h.object ∈ t.fuses.revoked ∧ t.fuses.digests = u.fuses.digests ∧ t.fuses.svn = u.fuses.svn ∧
      bit (t.rd F.BOOT_KEY_STATUS_REVOKED) h.object = true) ∧
  (h.object < 4 → (∀ j : Fin 4, j.val ≠ h.object → (mfind u.fuses.digests j).isSome = true → u.fuses.revoked.contains j.val = true) →
    Runs (.keyRevoke h) s fun t => t = State.dysAnswer h 0x0049 { st := u, status := stConflict }) ∧
  (∀ floor : Fin 128, floor.val ≤ 64 → u.fuses.svn ≤ floor.val → ∀ im, u.boot.running = some im → floor.val ≤ im.svn →
    Runs (.svnRaise h floor) s fun t => t.fuses.svn = floor.val ∧ t.rd F.BOOT_KEY_STATUS_SVN_FLOOR = floor.val ∧
      t.fuses.digests = u.fuses.digests ∧ t.fuses.revoked = u.fuses.revoked)

/-- FRAME_RECEIVE (R86 to R95, R98, R103, R380): a port that is not UP receives nothing; a reception that completes no frame only moves
the line coding; a runt is counted and goes no further; MAC Control frames, hellos and Ferry frames are taken by the MAC; a good frame
that finds the receive buffer full is counted as an overflow and dropped; any other good frame that parses waits, with its port and
arrival, for the pipeline that serves the group of its port, and no other pipeline's frames change. INGRESS_ISSUE, RECIRC_ISSUE (R138,
R139, R141): a pipeline that is neither ACTIVE nor FENCED issues nothing; a core clock moves the duty phase on and, while traffic is
stopped, issues nothing; in a clock that nothing stalls up to two waiting frames enter the pipeline in their order; a marked packet enters
stage 1 for one more pass in its slot, and a dropped one leaves its slot empty. It rests on choices of the model too: log entries 22, 62.
-/
def Obligations.PacketsIn : Prop :=
  (∀ (s : State) (p : Fin 512) (rx : Reception) (sub : Fin 16),
  (s.portState p ≠ 3 → Runs (.frameReceive p rx sub) s fun t => t = s) ∧
  (∀ data coding (lane : Fin 8), s.readFrame p (.octets data coding lane) = (some { data := data, coding := coding, lane := lane }, s)) ∧
  (s.portState p = 3 → ∀ r, r = s.readFrame p rx → ∀ u, u = r.2 →
    (r.1 = none → Runs (.frameReceive p rx sub) s fun t => t = u) ∧
    (∀ x, r.1 = some x → x.data.length < 64 → Runs (.frameReceive p rx sub) s fun t =>
      t = (u.updPort p (fun y => { y with lastFrame := u.now })).mibRxErr p 7 x.data.length) ∧
    (∀ x, r.1 = some x → 64 ≤ x.data.length →
      (isMacControl x.data = true → Runs (.frameReceive p rx sub) s fun t => t = u.macControl p x.data (u.frameClass p x.data x.coding)) ∧
      (isMacControl x.data = false → u.isHello p x.data = true → Runs (.frameReceive p rx sub) s fun t =>
        t = u.helloRx p x.data (u.frameClass p x.data x.coding)) ∧
      (isMacControl x.data = false → u.isHello p x.data = false → u.isFerry x.data = true → Runs (.frameReceive p rx sub) s fun t =>
        t = u.ferryArrive p x.data x.coding)) ∧
    (∀ x, r.1 = some x → 64 ≤ x.data.length → x.data.length ≤ max 64 (min 16000 (s.rd (F.MAC_RX_CFG_MAX_LEN p))) → x.coding = false →
      fcsGood x.data = true → isMacControl x.data = false → u.isHello p x.data = false → u.isFerry x.data = false →
      (262144 < s.rxBytes (p / 32) (p % 32 / 8) + x.data.length → Runs (.frameReceive p rx sub) s fun t =>
        t.rd (F.MAC_RX_OVERFLOW_COUNT p) = min (u.rd (F.MAC_RX_OVERFLOW_COUNT p) + 1) (2 ^ 32 - 1) ∧ t.intBit .mac (p / 32) 4 = true ∧ t.path = s.path) ∧
      (s.rxBytes (p / 32) (p % 32 / 8) + x.data.length ≤ 262144 →
        ∀ begun, begun = s.frameBegun p x.data.length → ∀ k, s.servePipe (p / 32) 0 (p % 32 / 8) begun = some k →
        ∀ y, y = 10 * (p.val / 32) + k → (s.parse y x.data).1.fail = none → Runs (.frameReceive p rx sub) s fun t =>
          (t.rxq y).length = (s.rxq y).length + 1 ∧
          (∃ f, f ∈ t.rxq y ∧ f.data = x.data ∧ f.port = p ∧ f.host = false ∧ f.bad = false ∧ f.begun = begun ∧ f.ready = s.now ∧
            f.payOff = (s.parse y x.data).1.off ∧ f.hdrs = (s.parse y x.data).1.hdrs) ∧
          (∀ j : Fin 160, j ≠ y → t.rxq j = s.rxq j) ∧ (t.px p).lastFrame = s.now ∧ t.path.pipes = s.path.pipes ∧ t.hbm = s.hbm ∧ t.fuses = s.fuses)))) ∧
  (∀ (s : State) (i : Fin 16) (x : Fin 5), ∀ y, y = 10 * i.val + x.val →
  (∀ faults, s.pipeState y = 1 ∨ s.pipeState y = 2 ∨ s.pipeState y = 4 → Runs (.ingressIssue i x faults) s fun t => t = s) ∧
  (∀ faults, s.pipeState y = 0 ∨ s.pipeState y = 3 → s.stopped = true → Runs (.ingressIssue i x faults) s fun t =>
    (t.issueClk y).phase = ((s.issueClk y).phase + 1) % 16 ∧ (t.issueClk y).clock = (s.issueClk y).clock + 1 ∧
    t.flights y = s.flights y ∧ t.rxq y = s.rxq y) ∧
  (∀ faults, s.pipeState y = 0 → s.stopped = false → s.creditStall y = false → (s.issueClk y).used = 0 → (s.issueClk y).stall = 0 →
    (s.issueClk y).phase < s.rd F.PWR_STATUS_DUTY → (s.issueClk y).reserved = [] → mget s.path.inject y [] = [] →
    Runs (.ingressIssue i x faults) s fun t =>
      t.rxq y = (s.rxq y).drop 2 ∧
      (t.flights y).map (fun f => (f.rx, f.passes)) = (s.flights y).map (fun f => (f.rx, f.passes)) ++ ((s.rxq y).take 2).map (fun r => (r, 0)) ∧
      (t.issueClk y).phase = ((s.issueClk y).phase + 1) % 16 ∧ (t.issueClk y).clock = (s.issueClk y).clock + 1 ∧
      (∀ j : Fin 160, j ≠ y → t.flights j = s.flights j ∧ t.rxq j = s.rxq j)) ∧
  (∀ faults fl rest, s.flights y = fl :: rest → fl.marked = true → s.stopped = false → (s.issueClk y).used < 2 →
    (s.issueClk y).reserved.headD 0 ≤ (s.issueClk y).clock →
    (fl.dead = false → fl.md.drop = false → Runs (.recircIssue i x faults) s fun t =>
      (t.flights y).map (fun f => (f.rx, f.passes)) = rest.map (fun f => (f.rx, f.passes)) ++ [(fl.rx, fl.passes + 1)] ∧
      (t.issueClk y).used = (s.issueClk y).used + 1 ∧ t.rxq y = s.rxq y ∧ (∀ j : Fin 160, j ≠ y → t.flights j = s.flights j)) ∧
    (fl.dead = true ∨ fl.md.drop = true → Runs (.recircIssue i x faults) s fun t =>
      t.flights y = { fl with marked := false } :: rest ∧ (t.issueClk y).used = (s.issueClk y).used + 1 ∧
      (t.issueClk y).reserved = (s.issueClk y).reserved.drop 1)) ∧
  (∀ faults fl rest, s.flights y = fl :: rest → fl.marked = false → Runs (.recircIssue i x faults) s fun t => t = s))

/-- PIPELINE_EXIT, EGRESS_EXIT, FRAME_SENT (R96, R139, R166, R174, R180, R321): the oldest packet of a pipeline that is not marked for
another pass goes on as its metadata say: dropped by its program, or, where admission passes it, stored and put at the tail of the queue
of its egress port; a FENCED reserve holds it while the target has a frame of its port; a frame whose cells have been read goes to the MAC
of its port; the MAC sends its oldest frame, cut short where a cell reads with an uncorrectable error, and nothing while the port is not
UP or traffic is stopped. It rests on choices of the model too: log entries 33, 34, 54, 62, 157, 160, 165. -/
def Obligations.PacketExits : Prop := ∀ (s : State) (i : Fin 16) (x : Fin 5) (sub : Fin 16), ∀ y, y = 10 * i.val + x.val →
  (s.flights y = [] → Runs (.pipelineExit i x sub []) s fun t => t = s) ∧
  (∀ f rest, s.flights y = f :: rest → f.marked = false ∨ f.dead = true →
    (s.pipeSwap i 0 = none → Runs (.pipelineExit i x sub []) s fun t => t = (s.setFlights y rest).handOn i x f sub) ∧
    (s.pipeSwap i 0 = none → f.hw = 0 → f.md.drop = true → Runs (.pipelineExit i x sub []) s fun t =>
      t.flights y = rest ∧ t.rd (F.TEL_DROP_CNT_COUNT (programDrop f.md.dropReason)) =
        (s.rd (F.TEL_DROP_CNT_COUNT (programDrop f.md.dropReason)) + 1) % 2 ^ (F.TEL_DROP_CNT_COUNT 0).width ∧
      t.path.queues = s.path.queues ∧ t.path.pkts = s.path.pkts) ∧
    (s.pipeSwap i 0 = none → f.hw = 0 → f.md.drop = false → f.md.trapMode = 0 → f.md.mirror = 0 → f.md.atoll = false → f.md.mcastGroup = 0 →
      f.md.badFrame = false → f.md.egressPort < 512 → f.md.queue < 16 → ∀ k, k = 16 * f.md.egressPort + f.md.queue →
      ∀ h, h = f.md.egressPort / 256 → s.chooseHalf h = h → i.val / 8 = h → ∀ n, n = cellsOf f.rx.data.length →
      s.egressTest k n h = none → n ≤ s.freeFor h h → s.path.held = [] → s.on (F.BPM_DEEP_Q_CFG_EN k) = false →
      s.on (F.BPM_DEEP_Q_STATUS_DEEP k) = false →
      (s.account (if f.rx.port < 512 then some (f.rx.port, f.md.pg % 8) else none) (some k) n h).isOk = true →
      Runs (.pipelineExit i x sub []) s fun t =>
        t.flights y = rest ∧ (t.queue k).map (fun e => e.pkt) = (s.queue k).map (fun e => e.pkt) ++ [s.path.nextPkt] ∧
        (∀ z, mfind t.path.pkts s.path.nextPkt = some z → z.data = f.rx.data ∧ z.half = h ∧ z.md = f.md ∧ z.inPort = f.rx.port ∧ z.cells.length = n) ∧
        (mfind t.path.pkts s.path.nextPkt).isSome = true ∧ t.rd (occF k) = (s.rd (occF k) + n) % 2 ^ (occF k).width) ∧
    (∀ w, s.pipeSwap i 0 = some w → x.val = w.resv → s.pipeState y = 3 →
      (s.setFlights y rest).holdsPort (10 * i + w.target) f.rx.port = true → Runs (.pipelineExit i x sub []) s fun t =>
        t.fenced y = s.fenced y ++ [(s.now, f)] ∧ t.flights y = rest ∧ { t with path := s.path } = s)) ∧
  (∀ (f : TxFrame) (rest : List TxFrame), mget s.path.eg (10 * i.val + 5 + x.val) [] = f :: rest → f.heldAt = none →
    s.pipeSwap i 1 = none →
    (f.owed ≠ 0 → Runs (.egressExit i x) s fun t => t = s) ∧
    (f.owed = 0 → Runs (.egressExit i x) s fun t =>
      t = (s.updPath (fun z => { z with eg := mset z.eg (10 * i.val + 5 + x.val) rest [] })).toMac i (5 + x) (s.egressFrame f)) ∧
    (f.owed = 0 → f.dropCode = none → f.trap = none → Runs (.egressExit i x) s fun t =>
      mget t.path.eg (10 * i.val + 5 + x.val) [] = rest ∧ mget t.path.tx f.port [] = mget s.path.tx f.port [] ++ [s.egressFrame f] ∧
      (∀ z, mfind s.path.pkts f.pkt = some z → z.refs ≤ 1 → mfind t.path.pkts f.pkt = none))) ∧
  (∀ (p : Fin 512) (errs : List (Nat × Bool)),
    (mget s.path.tx p [] = [] ∨ s.portState p ≠ 3 ∨ s.stopped = true → Runs (.frameSent p sub errs) s fun t => t = s) ∧
    (∀ f rest, mget s.path.tx p [] = f :: rest → s.portState p = 3 → s.stopped = false →
      ((s.txErrors f errs).1 = none → Runs (.frameSent p sub errs) s fun t =>
        mget t.path.tx p [] = rest ∧ (t.px p).lastFrame = s.now ∧ (∃ data, Out.frame p data ∈ t.out) ∧
        (∀ k : Fin 512, k ≠ p → mget t.path.tx k [] = mget s.path.tx k [])) ∧
      (∀ j, (s.txErrors f errs).1 = some j → Runs (.frameSent p sub errs) s fun t =>
        mget t.path.tx p [] = rest ∧ Out.frameCut p (f.data.take (256 * j)) ∈ t.out ∧ (t.px p).lastFrame = s.now)))

/-- LOADING_READY, LOAD_FAILED, SWAP_TARGET_EMPTY, FENCE_TIMEOUT, PIPELINE_RETIRE, PIPELINE_FAULT (R162 to R170, R445): the states of a
pipeline swap or retirement, and what each transition reports. It rests on choices of the model too: log entry 41. -/
def Obligations.PipelineSwaps : Prop := ∀ (s : State) (i : Fin 16) (d : Fin 2) (x : Fin 10),
  (∀ w, s.pipeSwap i d = some w → w.resv < 10 → s.pipeState (10 * i.val + w.resv) = 2 → s.on (F.PIPE_STATUS_READY (10 * i.val + w.resv)) = false →
    Runs (.loadingReady i d) s (fun t =>
      t.on (F.PIPE_STATUS_READY (10 * i.val + w.resv)) = true ∧ t.rd (F.PIPE_STATUS_PROG_ID (10 * i.val + w.resv)) = w.progId % 2 ^ 16 ∧
      t.pipeState (10 * i.val + w.resv) = (if w.retire then 3 else 2) ∧ t.intBit .pipe i 0 = true) ∧
    Runs (.loadFailed i d) s fun t =>
      t.pipeSwap i d = none ∧ t.pipeState (10 * i.val + w.resv) = 1 ∧ t.rd (F.PIPE_SWAP_STATUS_LAST (2 * i.val + d.val)) = 3 ∧
      t.path = s.path) ∧
  (∀ w, s.pipeSwap i d = some w → w.resv < 10 → w.target < 10 → w.resv ≠ w.target → s.pipeState (10 * i.val + w.resv) = 3 →
    (s.targetEmpty i d w = true → Runs (.swapTargetEmpty i d) s fun t =>
      t.pipeSwap i d = none ∧ t.pipeState (10 * i.val + w.resv) = 0 ∧ t.pipeState (10 * i.val + w.target) = (if w.retire then 4 else 1) ∧
      t.rd (F.PIPE_SWAP_STATUS_LAST (2 * i.val + d.val)) = (if w.retire then 5 else 1) ∧ t.intBit .pipe i 1 = true) ∧
    (s.targetEmpty i d w = false → Runs (.swapTargetEmpty i d) s fun t => t = s) ∧
    (s.now - w.start ≥ max 1 (s.rd (F.PIPE_SWAP_CFG_FENCE_MAX (2 * i.val + d.val))) * 128 → Runs (.fenceTimeout i d) s fun t =>
      t.pipeSwap i d = none ∧ t.pipeState (10 * i.val + w.resv) = 0 ∧ t.rd (F.PIPE_SWAP_STATUS_LAST (2 * i.val + d.val)) = 2 ∧
      t.flights (10 * i.val + w.target) = [] ∧ t.rxq (10 * i.val + w.target) = [] ∧ t.intBit .pipe i 2 = true) ∧
    (s.now - w.start < max 1 (s.rd (F.PIPE_SWAP_CFG_FENCE_MAX (2 * i.val + d.val))) * 128 → Runs (.fenceTimeout i d) s fun t => t = s)) ∧
  (s.pipeState (10 * i.val + x.val) = 0 → s.pipeSwap i (x / 5) = none → ∀ r, s.reservePipe i (x / 5) = some r →
    Runs (.pipelineRetire i x) s (fun t =>
      t.pipeState (10 * i.val + r) = 2 ∧ t.pipeState (10 * i.val + x.val) = 0 ∧
      t.rd (F.PIPE_STATUS_GROUP (10 * i.val + r)) = s.rd (F.PIPE_STATUS_GROUP (10 * i.val + x.val)) % 4 ∧
      (t.pipeSwap i (x / 5)).map (fun w => (w.resv, w.target, w.retire)) = some (r, x.val, true) ∧ t.path = s.path ∧
      readsOff [.PIPE_STATUS, .PIPE_COPY_STATUS] s t) ∧
    Runs (.pipelineFault i x) s (fun t => t = s.retireStart i x r)) ∧
  (s.pipeState (10 * i.val + x.val) = 1 → Runs (.pipelineFault i x) s fun t => t.pipeState (10 * i.val + x.val) = 4 ∧ t.path = s.path ∧
    t.intBit .pipe i 3 = true) ∧
  (s.pipeState (10 * i.val + x.val) = 0 → s.pipeSwap i (x / 5) = none → s.reservePipe i (x / 5) = none → Runs (.pipelineFault i x) s fun t =>
    t.pipeState (10 * i.val + x.val) = 4 ∧ t.flights (10 * i.val + x.val) = [] ∧ t.intBit .pipe i 3 = true)

/-- CELL_GRANT, FLIT_RECEIVE, FLIT_ACK_RECEIVE, FLIT_NACK_RECEIVE, CREDIT_RETURN, DESC_ENQUEUE (R26 to R34): a flit with a bad CRC is
discarded and answered with one negative acknowledgement, one in sequence is delivered and acknowledged; acknowledged flits leave the
replay store; a sender resends from the named flit; credits and grants let what waits go on, and stand where nothing waits; a descriptor
whose cells have landed joins its queue. BUNDLE_RETRAIN, BUNDLE_TRAIN_DONE, BUNDLE_RETIRE, WIRE_SWAP_START, WIRE_SWAP_DONE (R30 to R32):
the states of a bundle, each with the interrupt of CWAY; a retired bundle is empty; a replaced wire is named in SUB0 or SUB1 and uses up a
spare. It rests on choices of the model too: log entries 10, 35, 143, 144, 145, 146. -/
def Obligations.Causeway : Prop :=
  (∀ (s : State) (d : Fin 2) (b : Fin 64),
  (∀ n, s.bundleState d b ≠ 3 → Runs (.cellGrant d b n) s fun t => t = (s.grantCells d b n).cwayPump d) ∧
  (∀ n, s.bundleState d b = 3 → Runs (.cellGrant d b n) s fun t => t = s) ∧
  (s.bundleState d b ≠ 3 → (∀ vc : Fin 6, s.cwayWait d vc = []) → (∀ k : Fin 64, (s.bundle d k).carry = []) →
    ∀ k, (s.nextCell (1 - d)).map (fun r => r.1) = some k → Runs (.cellGrant d b 1) s fun t =>
      (t.bundle d b).grants = (s.bundle d b).grants ++ [k] ∧ mget t.path.granted (cellBank k) 0 = mget s.path.granted (cellBank k) 0 + 1 ∧
      (t.bundle d b).wire = (s.bundle d b).wire) ∧
  (∀ (err : BitVec 2096), (s.bundle d b).wire = [] → Runs (.flitReceive d b err) s fun t => t = s) ∧
  (∀ (err : BitVec 2096) f rest, (s.bundle d b).wire = f :: rest →
    (0 < (s.flitWords f.body).length → (s.flitWords f.body).length ≤ 32 → flitGood (s.flitArrives f 0) = true) ∧
    (flitGood (s.flitArrives f err) = false → Runs (.flitReceive d b err) s fun t =>
      (t.bundle d b).wire = rest ∧ (t.bundle d b).discarding = true ∧
      ((s.bundle d b).discarding = false → (t.bundle d b).nack = some f.seq) ∧ (t.bundle d b).expect = (s.bundle d b).expect ∧
      t.rd (F.CWAY_BUNDLE_ERR_CRC_ERR (64 * d + b)) = min (s.rd (F.CWAY_BUNDLE_ERR_CRC_ERR (64 * d + b)) + 1) (2 ^ 16 - 1) ∧
      changes [F.CWAY_BUNDLE_ERR_CRC_ERR (64 * d + b)] s { t with path := s.path } ∧ t.path.held = s.path.held) ∧
    (flitGood (s.flitArrives f err) = true → s.perturbFlit d b = false →
      (f.seq = (s.bundle d b).expect → ∀ y, y = s.bundle d b → Runs (.flitReceive d b err) s fun t =>
        t = (s.setBundle d b { y with wire := rest, count := y.count + 1, expect := (y.expect + 1) % 256, discarding := false,
                                      ack := some f.seq }).deliverFlit d b f.body) ∧
      (f.seq = (s.bundle d b).expect → ∀ pkt k, f.body = Body.cellWr pkt k → Runs (.flitReceive d b err) s fun t =>
        (t.bundle d b).wire = rest ∧ (t.bundle d b).expect = ((s.bundle d b).expect + 1) % 256 ∧ (t.bundle d b).ack = some f.seq ∧
        (t.bundle d b).discarding = false ∧
        t.path.held = s.path.held.map (fun h => if h.pkt = pkt then { h with cells := h.cells - 1 } else h) ∧
        { t with path := s.path } = s) ∧
      (f.seq ≠ (s.bundle d b).expect → Runs (.flitReceive d b err) s fun t =>
        (t.bundle d b).wire = rest ∧ (t.bundle d b).expect = (s.bundle d b).expect ∧ t.path.held = s.path.held ∧ { t with path := s.path } = s))) ∧
  (∀ a, (s.bundle d b).ack = some a → (s.bundle d b).swapWait = none → ∀ y, y = s.bundle d b →
    ∀ rest, rest = y.unacked.dropWhile (fun f => (a + 256 - f.seq) % 256 < 128) → Runs (.flitAckReceive d b) s fun t =>
      (t.bundle d b).unacked.take rest.length = rest ∧ (t.bundle d b).ack = none ∧
      t = (s.setBundle d b { y with unacked := rest, ack := none,
                                    resends := if rest.length < y.unacked.length then 0 else y.resends }).cwayPump d) ∧
  (∀ k, (s.bundle d b).nack = some k → s.bundleState d b = 0 → (s.bundle d b).resends < max 1 (s.rd F.CWAY_CFG_REPLAY_LIMIT) →
    (s.bundle d b).swapWait = none → ∀ y, y = s.bundle d b →
    ∀ rest, rest = (if y.unacked.any (fun f => f.seq = k) then y.unacked.dropWhile (fun f => f.seq ≠ k) else y.unacked) →
      Runs (.flitNackReceive d b) s fun t =>
        (t.bundle d b).wire.take rest.length = rest ∧ (t.bundle d b).nack = none ∧ (t.bundle d b).discarding = false ∧
        t = ((s.setBundle d b { y with resends := if rest.length < y.unacked.length then 0 else y.resends, unacked := rest,
                                       ack := none }).resend d b).cwayPump d) ∧
  (∀ (vc : Fin 6) n, ∀ k, k = 8 * (64 * d.val + b.val) + vc.val →
    Runs (.creditReturn d b vc n) s (fun t =>
      t = (s.updCway (fun c => { c with credits := mset c.credits k (mget c.credits k 0 - n) 0 })).cwayPump d) ∧
    ((∀ v : Fin 6, s.cwayWait d v = []) → (∀ j : Fin 64, (s.bundle d j).carry = []) → Runs (.creditReturn d b vc n) s fun t =>
      mget t.path.cway.credits k 0 = mget s.path.cway.credits k 0 - n ∧
      (∀ j : Fin 1024, j ≠ k → mget t.path.cway.credits j 0 = mget s.path.cway.credits j 0) ∧ { t with path := s.path } = s)) ∧
  (∀ pkt h, s.path.held.filter (fun e => e.pkt = pkt) = [h] → h.cells = 0 → h.here = true →
    s.path.held.find? (fun e => e.stream = h.stream) = some h →
    Runs (.descEnqueue pkt) s (fun t => t = (s.updPath (fun y => { y with held := y.held.erase h })).deliver pkt [h.queue]) ∧
    (∀ z, mfind s.path.pkts pkt = some z → z.deep = false → Runs (.descEnqueue pkt) s fun t =>
      (t.queue h.queue).map (fun e => e.pkt) = (s.queue h.queue).map (fun e => e.pkt) ++ [pkt] ∧ t.path.held = s.path.held.erase h)) ∧
  (∀ pkt, s.path.held.find? (fun h => h.pkt = pkt) = none → Runs (.descEnqueue pkt) s fun t => t = s)) ∧
  (∀ (s : State) (d : Fin 2) (b w : Fin 64),
  (s.bundleState d b = 0 → (s.bundle d b).nack.isSome = true → (s.bundle d b).resends ≥ max 1 (s.rd F.CWAY_CFG_REPLAY_LIMIT) →
    Runs (.bundleRetrain d b) s fun t =>
      t.bundleState d b = 1 ∧ (t.bundle d b).wire = [] ∧ (t.bundle d b).since = s.now ∧ t.intBit .cway 0 0 = true ∧
      signals [F.CWAY_BUNDLE_STATUS_STATE (64 * d + b), F.CWAY_STATUS_ACTIVE_NS, F.CWAY_STATUS_ACTIVE_SN, F.CWAY_INT_STATUS_BITS] s { t with path := s.path }) ∧
  (s.bundleState d b = 1 → s.now - (s.bundle d b).since ≤ 8000 → (s.bundle d b).swapWait = none → Runs (.bundleTrainDone d b) s fun t =>
    t.bundleState d b = 0 ∧ (t.bundle d b).resends = 0 ∧ t.intBit .cway 0 0 = true) ∧
  (s.bundleState d b = 1 → 8000 < s.now - (s.bundle d b).since → Runs (.bundleRetire d b) s fun t =>
    t.bundleState d b = 3 ∧ t.bundle d b = {} ∧ t.intBit .cway 0 0 = true) ∧
  (s.bundleState d b = 1 → 8000 < s.now - (s.bundle d b).since → Runs (.bundleTrainDone d b) s fun t => t = s) ∧
  (s.wireReady d b w = true → (s.bundle d b).nack = none → (s.bundle d b).discarding = false → Runs (.wireSwapStart d b w) s fun t =>
    t.bundleState d b = 2 ∧ (t.bundle d b).swapWire = some w.val ∧ t.intBit .cway 0 0 = true ∧ (t.bundle d b).unacked = (s.bundle d b).unacked) ∧
  (∀ x, (s.bundle d b).swapWire = some x → s.bundleState d b = 2 → Runs (.wireSwapDone d b) s fun t =>
    t.bundleState d b = 0 ∧ (t.bundle d b).swapWire = none ∧ (t.bundle d b).resends = 0 ∧ t.intBit .cway 0 1 = true ∧
    (if s.rd (F.CWAY_BUNDLE_STATUS_SUB0 (64 * d + b)) = 0x7F then t.rd (F.CWAY_BUNDLE_STATUS_SUB0 (64 * d + b)) = x % 2 ^ 7
      else t.rd (F.CWAY_BUNDLE_STATUS_SUB1 (64 * d + b)) = x % 2 ^ 7) ∧
    t.rd (if d.val = 0 then F.CWAY_STATUS_SPARES_NS else F.CWAY_STATUS_SPARES_SN) =
      s.rd (if d.val = 0 then F.CWAY_STATUS_SPARES_NS else F.CWAY_STATUS_SPARES_SN) - 1))

/-- CLS_WRITE_DATA, CLS_SET_VALID, CLS_CLEAR_VALID, CLS_WRITE_ACTION, CLS_READ (R130 to R132): a command that finds the engine busy, names
no table or names no entry says so and changes no entry; data and validity change only as the entry's valid bit allows; an action changes
at any time, and no key word with it; a read shows the entry as it stands. PPE_BANK_SWITCH, PPE_LOAD_DONE (R127): a switch to a bank that
holds no staged set, or that is being loaded, is discarded and recorded; a switch flips the active bank for frames that begin from now on,
counts the flip and sets bit 2 of PRS_INT_STATUS; a finished load fills the inactive bank, a failed one drops the staged image. It rests
on choices of the model too: log entries 26, 94, 105. -/
def Obligations.Classification : Prop :=
  (∀ (s : State) (q : Requester) (i : Fin 16) (d : Fin 2), s.grants q false = true →
  (s.clsBusy (2 * i + d) = true →
    (∀ a b, Runs (.clsWriteData q i d a b) s fun t => t.rd (F.CLS_WR_STATUS_RESULT (2 * i + d)) = 2 ∧ changes [F.CLS_WR_STATUS_RESULT (2 * i + d)] s t) ∧
    Runs (.clsSetValid q i d) s (fun t => t.rd (F.CLS_WR_STATUS_RESULT (2 * i + d)) = 2 ∧ changes [F.CLS_WR_STATUS_RESULT (2 * i + d)] s t) ∧
    Runs (.clsClearValid q i d) s (fun t => t.rd (F.CLS_WR_STATUS_RESULT (2 * i + d)) = 2 ∧ changes [F.CLS_WR_STATUS_RESULT (2 * i + d)] s t) ∧
    Runs (.clsWriteAction q i d) s (fun t => t.rd (F.CLS_WR_STATUS_RESULT (2 * i + d)) = 2 ∧ changes [F.CLS_WR_STATUS_RESULT (2 * i + d)] s t) ∧
    Runs (.clsRead q i d) s (fun t => t.rd (F.CLS_WR_STATUS_RESULT (2 * i + d)) = 2 ∧ changes [F.CLS_WR_STATUS_RESULT (2 * i + d)] s t)) ∧
  (s.clsBusy (2 * i + d) = false → ∀ tb, tb = s.rd (F.CLS_WR_TARGET_TABLE (2 * i + d)) → ∀ ix, ix = s.rd (F.CLS_WR_TARGET_INDEX (2 * i + d)) →
    (s.layout (2 * i + d) tb = none → Runs (.clsSetValid q i d) s fun t => t.rd (F.CLS_WR_STATUS_RESULT (2 * i + d)) = 3 ∧ t.mat = s.mat ∧
      readsBut [F.CLS_WR_STATUS_RESULT (2 * i + d)] s t) ∧
    (∀ l, s.layout (2 * i + d) tb = some l → tblSize l ≤ ix → Runs (.clsSetValid q i d) s fun t =>
      t.rd (F.CLS_WR_STATUS_RESULT (2 * i + d)) = 4 ∧ t.mat = s.mat ∧ readsBut [F.CLS_WR_STATUS_RESULT (2 * i + d)] s t) ∧
    (∀ l, s.layout (2 * i + d) tb = some l → ix < tblSize l → ∀ e, e = s.entry (2 * i + d) tb ix →
      (e.valid = false →
        (∀ a b, Runs (.clsWriteData q i d a b) s fun t =>
          t.entry (2 * i + d) tb ix = { e with words := s.takeWords (2 * i + d) (tblWords l) e.words a b } ∧
          t.rd (F.CLS_WR_STATUS_RESULT (2 * i + d)) = 0 ∧ t.on (F.CLS_WR_STATUS_VALID (2 * i + d)) = false) ∧
        Runs (.clsSetValid q i d) s (fun t => t.entry (2 * i + d) tb ix = { e with valid := true } ∧
          t.rd (F.CLS_WR_STATUS_RESULT (2 * i + d)) = 0 ∧ t.on (F.CLS_WR_STATUS_VALID (2 * i + d)) = true) ∧
        Runs (.clsClearValid q i d) s (fun t => t.mat = s.mat ∧ t.rd (F.CLS_WR_STATUS_RESULT (2 * i + d)) = 1 ∧
          t.on (F.CLS_WR_STATUS_VALID (2 * i + d)) = false ∧ t.intBit .prs i 1 = true)) ∧
      (e.valid = true →
        (∀ a b, Runs (.clsWriteData q i d a b) s fun t => t.mat = s.mat ∧ t.rd (F.CLS_WR_STATUS_RESULT (2 * i + d)) = 1 ∧
          t.on (F.CLS_WR_STATUS_VALID (2 * i + d)) = true ∧ t.intBit .prs i 1 = true) ∧
        Runs (.clsSetValid q i d) s (fun t => t.mat = s.mat ∧ t.rd (F.CLS_WR_STATUS_RESULT (2 * i + d)) = 1 ∧
          t.on (F.CLS_WR_STATUS_VALID (2 * i + d)) = true ∧ t.intBit .prs i 1 = true) ∧
        Runs (.clsClearValid q i d) s (fun t => t.entry (2 * i + d) tb ix = { e with valid := false } ∧
          t.rd (F.CLS_WR_STATUS_RESULT (2 * i + d)) = 0 ∧ t.on (F.CLS_WR_STATUS_VALID (2 * i + d)) = false)) ∧
      Runs (.clsWriteAction q i d) s (fun t => (t.entry (2 * i + d) tb ix).valid = e.valid ∧
        (∀ k < tblActFirst l, (t.entry (2 * i + d) tb ix).words.getD k 0 = e.words.getD k 0) ∧
        (∀ k < tblWords l, tblActFirst l ≤ k → (t.entry (2 * i + d) tb ix).words.getD k 0 = s.rd (F.CLS_WR_DATA_WORD (32 * (2 * i + d) + k))) ∧
        t.rd (F.CLS_WR_STATUS_RESULT (2 * i + d)) = 0) ∧
      Runs (.clsRead q i d) s (fun t => t.entry (2 * i + d) tb ix = e ∧ t.on (F.CLS_WR_STATUS_VALID (2 * i + d)) = e.valid ∧
        (∀ k < tblWords l, t.rd (F.CLS_WR_DATA_WORD (32 * (2 * i + d) + k)) = e.words.getD k 0 % 2 ^ 32))))) ∧
  (∀ (s : State) (i : Fin 16),
  (∀ q active, s.grants q false = true →
    (s.on (F.PPE_BANK_ACTIVE i) = active → Runs (.ppeBankSwitch q i active) s fun t => t = s) ∧
    (s.on (F.PPE_BANK_ACTIVE i) ≠ active → s.on (F.PPE_BANK_SHADOW_OK i) = false ∨ s.on (F.PPE_BANK_LOADING i) = true →
      Runs (.ppeBankSwitch q i active) s (discarded q (regAddr .PPE_BANK i) 1 0 s)) ∧
    (s.on (F.PPE_BANK_ACTIVE i) ≠ active → s.on (F.PPE_BANK_SHADOW_OK i) = true → s.on (F.PPE_BANK_LOADING i) = false →
      Runs (.ppeBankSwitch q i active) s fun t =>
        t.on (F.PPE_BANK_ACTIVE i) = active ∧ t.rd (F.PPE_BANK_FLIPS i) = min (s.rd (F.PPE_BANK_FLIPS i) + 1) (2 ^ 16 - 1) ∧
        t.intBit .prs i 2 = true ∧ (∀ b, b < s.now → s.now ≤ b + 2 ^ 20 → t.ppeBank i b = s.ppeBank i b) ∧
        ((mget s.mat.flips i []).all (fun x => x ≤ s.now) = true → ∀ b, s.now ≤ b → t.ppeBank i b = t.rd (F.PPE_BANK_ACTIVE i)) ∧
        signals [F.PPE_BANK_ACTIVE i, F.PPE_BANK_FLIPS i, F.PRS_INT_STATUS_BITS i] s { t with mat := s.mat })) ∧
  (s.boot.loading.contains i.val = false → ∀ ok, Runs (.ppeLoadDone i ok) s fun t => t = s) ∧
  (s.boot.loading.contains i.val = true → ∀ l, s.stagedPatterns i = some l → Runs (.ppeLoadDone i true) s fun t =>
    t.on (F.PPE_BANK_LOADING i) = false ∧ t.on (F.PPE_BANK_SHADOW_OK i) = true ∧
    mget t.mat.patterns (2 * i.val + (1 - s.rd (F.PPE_BANK_ACTIVE i))) [] = l ∧ t.boot.loading = s.boot.loading.erase i.val ∧
    (∀ b ≠ 2 * i.val + (1 - s.rd (F.PPE_BANK_ACTIVE i)), mget t.mat.patterns b [] = mget s.mat.patterns b [])) ∧
  (s.boot.loading.contains i.val = true → ∀ im, s.boot.staged = some im → ∀ l, s.stagedPatterns i = some l → Runs (.ppeLoadDone i false) s fun t =>
    t.boot.staged = none ∧ t.boot.loading = [] ∧ t.mat = s.mat ∧
    t = (((s.wrB (F.PPE_BANK_LOADING i) false).dropPatterns im).unstage).finishHold holdStage 0 stImageInvalid 0 0))

/-- MTR_WRITE, MTR_WRITE_KEEP, MTR_READ, TRAP_REFILL (R135, R158, R161): a meter command that finds the engine busy or an index beyond the
meters says so; a write fills both buckets to their bursts, a kept write lowers the levels to the new bursts, a read shows configuration
and levels; a trap limiter gains RATE units each microsecond, up to BURST packets. It rests on choices of the model too: log entries 29,
125, 133. -/
def Obligations.Meters : Prop := ∀ (s : State) (i : Fin 16),
  (∀ q, s.grants q false = true → s.now < s.ranAt .mtr i →
    Runs (.mtrWrite q i) s (fun t => t.rd (F.MTR_STATUS_RESULT i) = 2 ∧ changes [F.MTR_STATUS_RESULT i] s t) ∧
    Runs (.mtrWriteKeep q i) s (fun t => t.rd (F.MTR_STATUS_RESULT i) = 2 ∧ changes [F.MTR_STATUS_RESULT i] s t) ∧
    Runs (.mtrRead q i) s (fun t => t.rd (F.MTR_STATUS_RESULT i) = 2 ∧ changes [F.MTR_STATUS_RESULT i] s t)) ∧
  (∀ q, s.grants q false = true → s.ranAt .mtr i ≤ s.now → ∀ ix, ix = s.rd (F.MTR_TARGET_INDEX i) →
    ∀ size, size = (if s.on (F.MTR_CFG_MODE i) then 262144 else 65536) →
    (size ≤ ix → Runs (.mtrRead q i) s (fun t => t.rd (F.MTR_STATUS_RESULT i) = 1 ∧ t.mat = s.mat ∧ readsBut [F.MTR_STATUS_RESULT i] s t)) ∧
    (ix < size → ∀ m, m = s.meterConfig i → ∀ o, o = (s.meter i ix).refill s.now →
      Runs (.mtrWrite q i) s (fun t => t.rd (F.MTR_STATUS_RESULT i) = 0 ∧
        t.meter i ix = { m with lc := m.cbs * m.unit, le := m.ebs * m.unit, last := s.now } ∧ readsBut [F.MTR_STATUS_RESULT i] s t) ∧
      Runs (.mtrWriteKeep q i) s (fun t => t.rd (F.MTR_STATUS_RESULT i) = 0 ∧ (t.meter i ix).cir = m.cir ∧ (t.meter i ix).eir = m.eir ∧
        (t.meter i ix).lc = min (moveLevel o.lc o m) (m.cbs * m.unit) ∧ (t.meter i ix).le = min (moveLevel o.le o m) (m.ebs * m.unit) ∧
        readsBut [F.MTR_STATUS_RESULT i] s t) ∧
      Runs (.mtrRead q i) s (fun t => t.rd (F.MTR_STATUS_RESULT i) = 0 ∧ t.meter i ix = o ∧
        t.rd (F.MTR_DATA_WORD (8 * i)) = (if o.twoRate then 1 else 0) + (if o.aware then 2 else 0) + (if o.packets then 4 else 0) ∧
        t.rd (F.MTR_DATA_WORD (8 * i + 1)) = o.cir % 2 ^ 32 ∧ t.rd (F.MTR_DATA_WORD (8 * i + 2)) = o.cbs % 2 ^ 32 ∧
        t.rd (F.MTR_DATA_WORD (8 * i + 3)) = o.eir % 2 ^ 32 ∧ t.rd (F.MTR_DATA_WORD (8 * i + 6)) = o.lc / o.unit % 2 ^ 32 ∧
        t.rd (F.MTR_DATA_WORD (8 * i + 7)) = if s.on (F.MTR_CFG_MODE i) then 0 else o.le / o.unit % 2 ^ 32))) ∧
  (∀ r : Fin 64,
    (s.now - s.ranAt .trap (64 * i + r) < 1600 → Runs (.trapRefill i r) s fun t => t = s) ∧
    (1600 ≤ s.now - s.ranAt .trap (64 * i + r) → Runs (.trapRefill i r) s fun t =>
      t.trapLevel i r = min (max 1 (s.rd (F.TRAP_CFG_BURST (64 * i + r))) * 1000000)
                          (s.trapLevel i r + min (s.rd (F.TRAP_RATE_RATE (64 * i + r))) 1000000) ∧
      t.ranAt .trap (64 * i + r) = s.ranAt .trap (64 * i + r) + 1600 ∧ t.regs = s.regs ∧
      { t with mat := s.mat, timers := s.timers } = s))

/-- BANK_REPLACE, ALPHA_ADAPT, PFC_REFRESH (R175, R186, R187, R194): only an ACTIVE bank is replaced, by the lowest RESERVE bank, and
without one the refusal is logged; the working threshold of a queue takes at most one step a period, between FLOOR and CEIL, and is pinned
at a bound; a port that holds XOFF sends it again once per interval. It rests on choices of the model too: log entries 31, 147, 158. -/
def Obligations.LagoonLoops : Prop := ∀ (s : State),
  (∀ (h : Fin 2) (b : Fin 34),
    (s.rd (F.LAG_BANK_STATUS_STATE (34 * h + b)) ≠ 0 → Runs (.bankReplace h b) s fun t => t = s) ∧
    (s.rd (F.LAG_BANK_STATUS_STATE (34 * h + b)) = 0 → s.reserveBank h = none → Runs (.bankReplace h b) s fun t =>
      t = (s.lagEvent h 3).event degraded (codeOf .lag 0 0x86) (34 * h + b) 0 ∧ t.intBit .lag 0 (3 + 16 * h) = true ∧
      t.rd (F.LAG_BANK_STATUS_STATE (34 * h + b)) = 0) ∧
    (s.rd (F.LAG_BANK_STATUS_STATE (34 * h + b)) = 0 → ∀ r, s.reserveBank h = some r → Runs (.bankReplace h b) s fun t =>
      t.rd (F.LAG_BANK_STATUS_STATE (34 * h + r)) = 0 ∧
      t.rd (F.LAG_BANK_STATUS_STATE (34 * h + b)) = (if s.rd (F.LAG_BANK_STATUS_HELD (34 * h + b)) = 0 ∧ mget s.path.granted (34 * h + b) 0 = 0 then 3 else 2) ∧
      t.rd (F.LAG_HALF_STATUS_RESERVE_LEFT h) = s.rd (F.LAG_HALF_STATUS_RESERVE_LEFT h) - 1 ∧
      t.intBit .lag 0 (2 + 16 * h) = true ∧
      t.path = s.path ∧ mget t.spareMap (key2 2 (34 * h + b)) 0 = 2 + (34 * h + r))) ∧
  (∀ k : Fin 9216, ∀ period, period = s.adaptPeriod →
    ((s.on (qAdaptF k) = false → s.ecnAdapts k = false) ∧ (s.on (qAdaptF k) = true ∨ s.ecnAdapts k = true → s.now - s.ranAt .alpha k < period) →
      Runs (.alphaAdapt k) s fun t => t = s) ∧
    (s.ecnAdapts k = true → period ≤ s.now - s.ranAt .alpha k → Runs (.alphaAdapt k) s fun t =>
      t.on (F.LAG_Q_STATUS_ECN_PINNED k) = (t.ecnThresholds k).2.2 ∧ t.ranAt .alpha k = s.now - s.now % period ∧
      (s.on (qAdaptF k) = false → changes [F.LAG_Q_STATUS_ECN_PINNED k, F.LAG_PINNED_CNT_ECN] s { t with timers := s.timers })) ∧
    (s.on (qAdaptF k) = true → period ≤ s.now - s.ranAt .alpha k → Runs (.alphaAdapt k) s fun t =>
      (s.alphaBounds k).1 ≤ t.rd (qCurF k) ∧ t.rd (qCurF k) ≤ (s.alphaBounds k).2 ∧
      ((s.alphaBounds k).1 ≤ s.rd (qCurF k) → s.rd (qCurF k) ≤ (s.alphaBounds k).2 →
        t.rd (qCurF k) ≤ s.rd (qCurF k) + 1 ∧ s.rd (qCurF k) ≤ t.rd (qCurF k) + 1 ∧
        (s.on (byKey F.LAG_Q_STATUS_ALPHA_PINNED F.LAG_MQ_STATUS_ALPHA_PINNED k) = false →
          t.on (byKey F.LAG_Q_STATUS_ALPHA_PINNED F.LAG_MQ_STATUS_ALPHA_PINNED k) = true → t.rd (qCurF k) = s.rd (qCurF k))) ∧
      mget t.path.egrDrops k 0 = 0 ∧ t.ranAt .alpha k = s.now - s.now % period ∧
      changes [qCurF k, byKey F.LAG_Q_STATUS_ALPHA_PINNED F.LAG_MQ_STATUS_ALPHA_PINNED k, F.LAG_PINNED_CNT_ALPHA,
        F.LAG_Q_STATUS_ECN_PINNED k, F.LAG_PINNED_CNT_ECN] s
        { t with path := s.path, timers := s.timers })) ∧
  (∀ p : Fin 512,
    (s.portState p ≠ 3 ∨ (∀ g : Fin 8, bit (s.rd (F.MAC_PFC_STATUS_TX_XOFF p)) g = true → s.now - mget (s.px p).pfcAt g 0 < s.pfcInterval p) →
      Runs (.pfcRefresh p) s fun t => t = s) ∧
    (s.portState p = 3 → s.pfcDue p ≠ 0 →
      (∀ g : Fin 8, bit (s.pfcDue p) g = (bit (s.rd (F.MAC_PFC_STATUS_TX_XOFF p)) g && s.now - mget (s.px p).pfcAt g 0 ≥ s.pfcInterval p)) ∧
      Runs (.pfcRefresh p) s fun t =>
        (∀ g : Fin 8, mget (t.px p).pfcAt g 0 = if bit (s.pfcDue p) g then s.now else mget (s.px p).pfcAt g 0) ∧
        (∃ data, Out.frame p data ∈ t.out) ∧ { t with portX := s.portX, laneX := s.laneX, regs := s.regs, out := s.out } = s))

/-- DEEP_PAGE_WRITTEN, DEEP_MODE_LEAVE, DRAIN_READ_ISSUE, DRAIN_PAGE_LAND (R198, R201 to R206): a written page gives its cells in the
Lagoon back, a queue leaves deep mode when nothing of it is deep, reads go in list order and at most DRAIN_AHEAD at a time, and a page
that lands is released. It rests on choices of the model too: log entries 62, 148. -/
def Obligations.DeepPages : Prop := ∀ (s : State) (q : Fin 8192),
  (∀ seq : Fin 65536, (s.deepQ q).pages.find? (fun g => g.stage = 1 && g.seq = seq.val && s.pageHere q g) = none →
    Runs (.deepPageWritten q seq) s fun t => t = s) ∧
  (∀ (seq : Fin 65536) g, (s.deepQ q).pages.find? (fun g => g.stage = 1 && g.seq = seq.val && s.pageHere q g) = some g →
    Runs (.deepPageWritten q seq) s fun t =>
      t.hbm = ((s.storePage q g).putList g).hbm ∧
      (t.deepQ q).pages = updFirst (fun p => p.stage = 1 && p.seq = seq.val) (fun p => { p with stage := 2 }) (s.deepQ q).pages ∧
      ((g.parts.map (fun y => y.1)).Nodup → g.parts.all (fun y =>
        (mfind t.path.pkts y.1).map (fun z => z.cells) = (mfind s.path.pkts y.1).map (fun z => z.cells.drop y.2)) = true) ∧
      t.path.queues = s.path.queues ∧ t.path.pipes = s.path.pipes) ∧
  (s.on (F.BPM_DEEP_Q_STATUS_DEEP q) = true → (s.deepQ q).pages.all (fun g => g.stage ≥ 4) = true → (s.deepQ q).waiting = [] →
    (s.deepQ q).part = none → (s.deepQ q).blocks = [] →
    Runs (.deepModeLeave q) s fun t =>
      t.on (F.BPM_DEEP_Q_STATUS_DEEP q) = false ∧
      t.rd (F.BPM_DEEP_DIE_STATUS_DEEP_QUEUES (q / 4096)) = s.rd (F.BPM_DEEP_DIE_STATUS_DEEP_QUEUES (q / 4096)) - 1 ∧
      (t.deepQ q).entries = 0 ∧ (t.deepQ q).blocks = [] ∧ (t.deepQ q).pages = (s.deepQ q).pages ∧
      changes [F.BPM_DEEP_Q_STATUS_DEEP q, F.BPM_DEEP_Q_STATUS_PAGES q, F.BPM_DEEP_DIE_STATUS_DEEP_QUEUES (q / 4096)] s { t with bpm := s.bpm }) ∧
  (s.on (F.BPM_DEEP_Q_STATUS_DEEP q) = false ∨ (s.deepQ q).pages.any (fun g => g.stage < 4) = true ∨ (s.deepQ q).waiting ≠ [] ∨ (s.deepQ q).part ≠ none →
    Runs (.deepModeLeave q) s fun t => t = s) ∧
  (∀ u, u = s.deepTidy q →
    (max 1 (u.rd (F.BPM_DEEP_Q_CFG_DRAIN_AHEAD q)) ≤ ((u.deepQ q).pages.filter (fun g => g.stage ≥ 3)).length →
      Runs (.drainReadIssue q) s fun t => t = u) ∧
    (((u.deepQ q).pages.filter (fun g => g.stage ≥ 3)).length < max 1 (u.rd (F.BPM_DEEP_Q_CFG_DRAIN_AHEAD q)) →
      ((u.deepQ q).pages.find? (fun g => g.stage = 1 || g.stage = 2) = none → Runs (.drainReadIssue q) s fun t =>
        t = if (u.deepQ q).pages.any (fun g => g.stage = 0 && g.cells ≠ 0) then u.closePage q else u) ∧
      ∀ g, (u.deepQ q).pages.find? (fun g => g.stage = 1 || g.stage = 2) = some g →
        (g.stage = 1 → Runs (.drainReadIssue q) s fun t => t = u) ∧
        (g.stage = 2 → Runs (.drainReadIssue q) s fun t =>
          (t.deepQ q).pages = updFirst (fun p => p.stage = 2) (fun p => { p with stage := 3, since := u.now }) (u.deepQ q).pages ∧ t.hbm = u.hbm))) ∧
  (∀ seq : Fin 65536,
    ((s.deepQ q).blocks = [] → Runs (.drainPageLand q seq 2) s fun t => t = s) ∧
    ((s.deepQ q).blocks ≠ [] → Runs (.drainPageLand q seq 2) s fun t => t = s.listLost q) ∧
    ((s.deepQ q).pages.find? (fun g => g.stage = 3 && g.seq = seq.val) = none → Runs (.drainPageLand q seq 0) s fun t => t = s) ∧
    (∀ g, (s.deepQ q).pages.find? (fun g => g.stage = 3 && g.seq = seq.val) = some g →
      (∀ err : Fin 3, err.val < 2 → ((s.deepQ q).pages.filter (fun g => g.stage = 3 && g.seq = seq.val)).length = 1 →
        Runs (.drainPageLand q seq err) s fun t =>
          (t.deepQ q).pages.any (fun p => p.stage = 3 && p.seq = seq.val) = false ∧ t.hbm = s.hbm ∧ t.path.pipes = s.path.pipes) ∧
      ∀ u, u = (if s.deepDead q then s else g.parts.foldl (fun s y => s.cellsBack q y.1 y.2) s) → Runs (.drainPageLand q seq 0) s fun t =>
      ∀ d, d = u.deepQ q →
      ∀ v, v = u.setDeep q { d with pages := updFirst (fun p => p.stage = 3 && p.seq = seq.val) (fun p => { p with stage := 4 }) d.pages } →
      ∀ w, w = (v.bpmRelease (deepAgent (q / 4096)) g.handle).2 →
        t = ((w.deepDeliverAll q (w.deepQ q).pages).deepTidy q).gatherAll))

/-- BPM_ALLOC, BPM_ADD_REF, BPM_RELEASE, BPM_QUERY, BPM_CACHE_REFILL, BPM_CACHE_RETURN (R207 to R214): an unknown agent gets nothing; an
allocation outside the agent's domains is DENIED; a reference is added, and the last release frees the buffer and changes its generation;
a reference to an invalid handle, a stale one or a foreign domain changes no buffer and is recorded; a query changes no buffer; the caches
take and give 64 handles at their marks. A freed buffer may go at once to a queue whose gathering waits for a page (R199); the release is
stated where none waits. It rests on choices of the model too: log entries 31, 62. -/
def Obligations.BufferPools : Prop := ∀ (s : State) (a : Fin 256) (h : BitVec 48),
  ∀ idle, idle = s.bpm.deep.all (fun e => e.2.waiting.isEmpty && e.2.part.isNone) →
  (agentKnown a = false → (∀ pool domain, Runs (.bpmAlloc a pool domain) s fun t => t = s) ∧ (∀ n, Runs (.bpmAddRef a h n) s fun t => t = s) ∧
    (∀ e, Runs (.bpmRelease a h e) s fun t => t = s) ∧ Runs (.bpmQuery a h) s (fun t => t = s)) ∧
  (agentKnown a = true → ∀ (pool : Fin 4) (domain : Fin 64), bit (s.rd (F.BPM_AGENT_DOMAIN_MASK a)) domain = false →
    Runs (.bpmAlloc a pool domain) s fun t => t = s.fnResult a stDenied 0) ∧
  (agentKnown a = true → ∀ (pool : Fin 4) (domain : Fin 64), bit (s.rd (F.BPM_AGENT_DOMAIN_MASK a)) domain = true →
    (s.servingPool (classOf a) pool = none → Runs (.bpmAlloc a pool domain) s fun t =>
      t = ((s.raise .bpm 0 1).cntGlobal 0x4A (classOf a) 1).fnResult a stNoBuffer 0) ∧
    (∀ j, s.servingPool (classOf a) pool = some j → ∀ x u, s.takeHandle a j none = some (x, u) →
      (a.val ≠ 1 ∧ a.val ≠ 2 ∨ pool.val ≠ 1 ∨ idle = true) → Runs (.bpmAlloc a pool domain) s fun t =>
        (t.bufEnt x).count = 1 ∧ (t.bufEnt x).owner = a.val ∧ (t.bufEnt x).domain = domain.val ∧ (t.bufEnt x).gen = (u.bufEnt x).gen ∧
        t.rd (F.BPM_POOL_FREE_FREE (4 * hStack x + hPool x)) = u.rd (F.BPM_POOL_FREE_FREE (4 * hStack x + hPool x)) - 1 ∧
        (a.val = 1 ∨ a.val = 2 → pool.val = 1 → mget t.bpm.stock (a - 1) [] = mget u.bpm.stock (a - 1) [] ++ [x]))) ∧
  (agentKnown a = true → ∀ (n : BitVec 8), s.refReject a h.toNat n.toNat = none → Runs (.bpmAddRef a h n) s fun t =>
    (t.bufEnt h.toNat).count = (s.bufEnt h.toNat).count + n.toNat ∧ (t.bufEnt h.toNat).gen = (s.bufEnt h.toNat).gen ∧
    (∀ x, entKey x ≠ entKey h.toNat → t.bufEnt x = s.bufEnt x)) ∧
  (agentKnown a = true → ∀ (n : BitVec 8) kind st, s.refReject a h.toNat n.toNat = some (kind, st) → Runs (.bpmAddRef a h n) s fun t =>
    t.rd F.BPM_BAD_RELEASE_HANDLE = h.toNat ∧ t.rd F.BPM_BAD_RELEASE_AGENT = a.val ∧ t.rd F.BPM_BAD_RELEASE_KIND = kind % 2 ^ 3 ∧
    t.rd F.BPM_BAD_COUNT_COUNT = min (s.rd F.BPM_BAD_COUNT_COUNT + 1) (2 ^ 32 - 1) ∧ t.intBit .bpm 0 0 = true ∧ t.bpm = s.bpm) ∧
  (agentKnown a = true → s.refReject a h.toNat 0 = none → idle = true →
    (1 < (s.bufEnt h.toNat).count → Runs (.bpmRelease a h false) s fun t =>
      (t.bufEnt h.toNat).count = (s.bufEnt h.toNat).count - 1 ∧ (t.bufEnt h.toNat).gen = (s.bufEnt h.toNat).gen ∧
      (t.bufEnt h.toNat).owner = (s.bufEnt h.toNat).owner) ∧
    ((s.bufEnt h.toNat).count = 1 → Runs (.bpmRelease a h false) s fun t =>
      (t.bufEnt h.toNat).count = 0 ∧ (t.bufEnt h.toNat).gen = ((s.bufEnt h.toNat).gen + 1) % 256 ∧ (t.bufEnt h.toNat).owner = 0 ∧
      (∀ x, entKey x ≠ entKey h.toNat → t.bufEnt x = s.bufEnt x))) ∧
  (agentKnown a = true → Runs (.bpmRelease a h true) s fun t => t = s.event fatal (codeOf .bpm 0 0x81) a h.toNat) ∧
  (agentKnown a = true → Runs (.bpmQuery a h) s fun t => t = s.fnResult a (s.bpmQuery h.toNat).1 (s.bpmQuery h.toNat).2) ∧
  (∀ (d : Fin 2) (k : Fin 4) (part : Fin 2),
    Runs (.bpmCacheRefill d k part) s (fun t => t = if (s.cacheOf d k part).length < 128 then s.cacheFill d k part 64 else s) ∧
    ((s.cacheOf d k part).length < 128 → Runs (.bpmCacheRefill d k part) s fun t =>
      (t.cacheOf d k part).take (s.cacheOf d k part).length = s.cacheOf d k part ∧
      (t.cacheOf d k part).length ≤ (s.cacheOf d k part).length + 64 ∧ t.regs = s.regs ∧ t.hbm = s.hbm ∧
      ((t.cacheOf d k part).drop (s.cacheOf d k part).length).all (fun h => hPool h = k.val) = true) ∧
    (448 < (s.cacheOf d k part).length → Runs (.bpmCacheReturn d k part) s fun t => t.cacheOf d k part = (s.cacheOf d k part).drop 64 ∧ t.regs = s.regs) ∧
    ((s.cacheOf d k part).length ≤ 448 → Runs (.bpmCacheReturn d k part) s fun t => t = s))

/-- DEQUEUE_DECISION, SHAPER_REFILL, QUEUE_SAMPLE (R246 to R256, R267): while traffic is stopped nothing leaves; a decision without a free
slot or an eligible child only drops what waited too long; what the arbiter chooses leaves its queue for the egress pipeline that serves
its port; a shaper gains its rate once every 128 ticks up to its burst, and FORGIVE clears a debt when the shape changes; a sample counts
the depth and the delay of a queue in its two histograms. GATE_EDGE, GATE_CONFIG_CHANGE, GATE_CANCEL, GATE_LIST_START (R260 to R266): the
gates of a port follow its operational list; a change while one is pending is discarded, a list that fails its checks is refused with the
reason, any other becomes pending with its start instant; cancelling drops the pending list and nothing else; at the start instant the
banks exchange roles. It rests on choices of the model too: log entries 31, 133, 165. -/
def Obligations.TrafficManager : Prop :=
  (∀ (s : State),
  (∀ (a : Fin 64) sub errs faults, ∀ v, v = s.memoryFatal (a / 32) a faults →
    (v.stopped = true → Runs (.dequeueDecision a sub errs faults) s fun t => t = v) ∧
    (v.stopped = false → ∀ u, u = (v.portChildren a).foldl (fun s c =>
        (portQueues c.ix).foldl (fun s k => s.dropTooLong c.ix k (s.queue k).length) s) v →
      ∀ r, r = ((u.servePipe (a / 4) 1 (a % 4) u.now).map (fun x => u.egressSlot (a / 4) x)).getD (true, u) →
        (r.1 = false ∨ r.2.decide a = none → Runs (.dequeueDecision a sub errs faults) s fun t => t = r.2) ∧
        (r.1 = true → ∀ c, r.2.decide a = some c →
          Runs (.dequeueDecision a sub errs faults) s (fun t => t = (r.2.takeChoice a c sub errs faults).flushSamples sub) ∧
          ∀ e x, r.2.headPkt c.queue.ix = some (e, x) → x.bad = false → errs = [] → s.on F.DBG_CTL_ARM = false →
            ∀ y, u.servePipe (a / 4) 1 (a % 4) u.now = some y → (r.2.parse (10 * (a.val / 4) + y) (x.frame c.queue.ix)).1.fail = none →
            Runs (.dequeueDecision a sub errs faults) s fun t =>
              t.queue c.queue.ix = (r.2.queue c.queue.ix).tail ∧
              (mget t.path.eg (10 * (a.val / 4) + y) []).map (fun f => (f.pkt, f.queue, f.port, f.data)) =
                (mget r.2.path.eg (10 * (a.val / 4) + y) []).map (fun f => (f.pkt, f.queue, f.port, f.data)) ++
                  [(e.pkt, c.queue.ix, queuePort c.queue.ix, x.frame c.queue.ix)]))) ∧
  (∀ n : Fin 23553,
    (s.now - s.ranAt .shaper n < 128 → Runs (.shaperRefill n) s fun t => t = s) ∧
    (128 ≤ s.now - s.ranAt .shaper n → ∀ r, r = min (s.shapeWant n 0 (shaperFlds n).1) 3200000 → ∀ b, b = s.shapeWant n 1 (shaperFlds n).2.1 → Runs (.shaperRefill n) s fun t =>
      t.shape n = (r, b) ∧ t.ranAt .shaper n = s.now ∧ t.path = s.path ∧
      (r = 0 → t.level n = 100 * b) ∧
      (r ≠ 0 → s.shape n = (r, b) ∨ s.on F.TM_SHAPE_CFG_FORGIVE = false ∨ 0 ≤ s.level n → t.level n = min (100 * (b : Int)) (s.level n + r)) ∧
      (r ≠ 0 → s.shape n ≠ (r, b) → s.on F.TM_SHAPE_CFG_FORGIVE = true → s.level n < 0 → t.level n = min (100 * (b : Int)) r))) ∧
  (∀ k : Fin 9216,
    (s.now - s.ranAt .sample k < 1600 → Runs (.queueSample k) s fun t => t = s) ∧
    (1600 ≤ s.now - s.ranAt .sample k → s.on F.TM_HIST_CFG_EN = false → Runs (.queueSample k) s fun t => t = s.ran .sample k s.now) ∧
    (1600 ≤ s.now - s.ranAt .sample k → s.on F.TM_HIST_CFG_EN = true →
      (List.range 64).all (fun e => !s.on (F.TEL_QS_SEL_VALID e)) = true → Runs (.queueSample k) s fun t =>
        ∀ x, x = 64 * k.val + sampleBin (s.depth k) → ∀ y, y = 64 * k.val + 32 + sampleBin (s.queueDelay k) →
          t.rd (F.TM_HIST_COUNT x) = min (s.rd (F.TM_HIST_COUNT x) + 1) (2 ^ (F.TM_HIST_COUNT x).width - 1) ∧
          t.rd (F.TM_HIST_COUNT y) = min (s.rd (F.TM_HIST_COUNT y) + 1) (2 ^ (F.TM_HIST_COUNT y).width - 1) ∧
          changes [F.TM_HIST_COUNT x, F.TM_HIST_COUNT y] s { t with timers := s.timers, histDump := s.histDump }))) ∧
  (∀ (s : State) (p : Fin 512),
  Runs (.gateEdge p) s (fun t => t.rd (F.TM_PORT_STATUS_GATES p) = s.gatesNow p s.nowNs % 2 ^ 8 ∧ 
    readsOff [.TM_PORT_STATUS, .TM_Q_STATUS, .TM_MQ_STATUS] s t ∧ { t with regs := s.regs } = s) ∧
  (∀ q, s.grants q false = true →
    (s.on (F.TM_GATE_STATUS_PENDING p) = true →
      Runs (.gateConfigChange q p) s (discarded q (regAddr .TM_GATE_CTL p) 1 0 s) ∧
      Runs (.gateCancel q p) s (fun t => t.on (F.TM_GATE_STATUS_PENDING p) = false ∧ mget t.tm.gateNext p none = none ∧ t.tm.gateStart = s.tm.gateStart ∧
        changes [F.TM_GATE_STATUS_PENDING p, F.TM_GATE_CTL_CONFIG_CHANGE p, F.TM_GATE_START_S_S p, F.TM_GATE_START_NS_NS p] s { t with tm := s.tm })) ∧
    (s.on (F.TM_GATE_STATUS_PENDING p) = false →
      Runs (.gateCancel q p) s (fun t => t = s) ∧
      (s.gateCheck p ≠ 0 → Runs (.gateConfigChange q p) s fun t => t.rd (F.TM_GATE_STATUS_CONFIG_ERR p) = s.gateCheck p ∧ t.intBit .tm 0 2 = true ∧
        signals [F.TM_GATE_STATUS_CONFIG_ERR p, F.TM_INT_STATUS_BITS] s t) ∧
      (s.gateCheck p = 0 → ∀ start, start = (s.gateStartAt p).1 → ∀ past, past = (s.gateStartAt p).2 → Runs (.gateConfigChange q p) s fun t =>
        t.on (F.TM_GATE_STATUS_PENDING p) = true ∧ t.rd (F.TM_GATE_STATUS_CONFIG_ERR p) = 0 ∧ t.on (F.TM_GATE_STATUS_BASE_IN_PAST p) = past ∧
        t.rd (F.TM_GATE_START_NS_NS p) = start % 1000000000 ∧ mget t.tm.gateNext p none = some start ∧ t.tm.gateStart = s.tm.gateStart ∧
        t.rd (F.TM_GATE_STATUS_OPER_BANK p) = s.rd (F.TM_GATE_STATUS_OPER_BANK p) ∧ (past = true → t.intBit .tm 0 1 = true) ∧ t.path = s.path))) ∧
  (mget s.tm.gateNext p none = none → Runs (.gateListStart p) s fun t => t = s) ∧
  (∀ start, mget s.tm.gateNext p none = some start →
    (s.nowNs < start → Runs (.gateListStart p) s fun t => t = s) ∧
    (start ≤ s.nowNs → Runs (.gateListStart p) s fun t =>
      t.rd (F.TM_GATE_STATUS_OPER_BANK p) = 1 - s.rd (F.TM_GATE_STATUS_OPER_BANK p) ∧ t.on (F.TM_GATE_STATUS_PENDING p) = false ∧
      t.rd (F.TM_GATE_OPER_CYCLE_CYCLE p) = s.rd (F.TM_GATE_ADMIN_CYCLE_CYCLE p) ∧ t.rd (F.TM_GATE_OPER_LEN_LEN p) = s.rd (F.TM_GATE_ADMIN_LEN_LEN p) ∧
      mget t.tm.gateStart p 0 = start ∧ mget t.tm.gateNext p none = none ∧ t.intBit .tm 0 0 = true ∧ t.path = s.path)))

/-- MC_REQUEST, MC_REQUEST_DONE, REFRESH_DUE, ROW_IDLE_CLOSE, IDLE_TIMER_ADAPT (R219, R222 to R232): a request that crosses a block is
none; a request takes an entry while its channel has one; a served request leaves the queue, a write of whole lines stands in HBM, a read
returns what HBM and the writes before it hold; a refresh is postponed up to 8; the idle timer stays within its bounds. MC_TSET_WRITE,
TSET_ENTRY_RETRY, TSET_CHANGE_DONE, SR_IDLE_ENTRY, PATROL_SCRUB, HBM_TEMP_READ, DELAY_TRACKING, HBM_TRAINING_DONE, CHANNEL_SPARE_START,
CHANNEL_COPY_DONE (R229, R236 to R245): timing-set changes, self-refresh, the scrubber's walk over the stack, temperature, training, and
the sparing of a channel. It rests on choices of the model too: log entries 13, 36, 37, 50, 65, 66, 82, 109. -/
def Obligations.HbmController : Prop :=
  (∀ (s : State) (st : Fin 6),
  (∀ (off len : Nat) rt client,
    (len = 0 ∨ off / 4096 ≠ (off + len - 1) / 4096 ∨ stackBytes < off + len → Runs (.mcRequest st off len none rt client) s fun t => t = s) ∧
    (0 < len → off / 4096 = (off + len - 1) / 4096 → off + len ≤ stackBytes →
      (48 ≤ (s.chReqs st (logicalCh (off / 4096))).length → Runs (.mcRequest st off len none rt client) s fun t => t = s) ∧
      ((s.chReqs st (logicalCh (off / 4096))).length < 48 → Runs (.mcRequest st off len none rt client) s fun t =>
        ∀ r : McReq, r = { id := (s.mcOf st).next, line := off / 64, lines := (off % 64 + len + 63) / 64, write := false, data := [],
                           off := off % 64, len := len, rt := rt, arrive := s.now, client := client, served := 0 } →
          (t.mcOf st).reqs = (s.mcOf st).reqs ++ [r] ∧ (t.mcOf st).lastReq = s.now ∧ (t.mcOf st).sr = 0 ∧ t.hbm = s.hbm ∧
          readsBut [F.MC_STATUS_SR st, F.MC_TSET_CMD_ABORTS st] s t))) ∧
  (∀ (off : Nat) (d : Bytes) rt client, 0 < d.length → off / 4096 = (off + d.length - 1) / 4096 → off + d.length ≤ stackBytes →
    ∀ l, l = s.chReqs st (logicalCh (off / 4096)) →
    (48 ≤ l.length ∨ 32 ≤ (l.filter (fun w => w.write)).length → l.all (fun w => w.line + w.lines ≤ off / 64 || off / 64 + 64 < w.line) = true →
      Runs (.mcRequest st off 0 (some d) rt client) s fun t => t = s) ∧
    (l.length < 48 → (l.filter (fun w => w.write)).length < 32 →
      l.all (fun w => w.line + w.lines ≤ off / 64 || off / 64 + 64 < w.line) = true → Runs (.mcRequest st off 0 (some d) rt client) s fun t =>
        ∀ r : McReq, r = { id := (s.mcOf st).next, line := off / 64, lines := (off % 64 + d.length + 63) / 64, write := true, data := d,
                           off := off % 64, len := d.length, rt := false, arrive := s.now, client := client, served := 0 } →
          (t.mcOf st).reqs = (s.mcOf st).reqs ++ [r] ∧ (t.mcOf st).lastReq = s.now ∧ t.hbm = s.hbm) ∧
    (∀ w, l = [w] → w.write = true → 64 * w.line + w.off ≤ off → off + d.length ≤ 64 * w.line + w.off + w.len →
      Runs (.mcRequest st off 0 (some d) rt client) s fun t =>
        (t.mcOf st).reqs = (s.mcOf st).reqs.map (fun x => if x.id = w.id then { x with data := patch x.data (off - (64 * w.line + w.off)) d } else x) ∧
        t.hbm = s.hbm ∧ t.regs = s.regs)) ∧
  (∀ (c : Fin 31) errs,
    (s.mcHeld st = true ∨ s.mcPick st c = none → Runs (.mcRequestDone st c errs) s fun t => t = s) ∧
    (s.mcHeld st = false → ∀ r, s.mcPick st c = some r → Runs (.mcRequestDone st c errs) s fun t =>
      ((t.mcOf st).reqs.all (fun x => x.id ≠ r.id) = true) ∧
      (r.write = true → r.off = 0 → r.len = 64 * r.lines → r.data.length = r.len →
        Memory.readAll t.hbm (hbmAddr st (64 * r.line)) r.len = r.data ∧
        (∀ a : Nat, a < hbmAddr st (64 * r.line) ∨ hbmAddr st (64 * r.line) + r.len ≤ a → Memory.read t.hbm a = Memory.read s.hbm a)) ∧
      (r.write = false → t.hbm = s.hbm ∧ ∃ bad, Out.mcData st r.client (64 * r.line + r.off)
        (s.queuedView st ((s.mcOf st).reqs.filter (fun w => w.write && w.id < r.id && w.meets r)) (64 * r.line + r.off) r.len) bad ∈ t.out))) ∧
  (∀ (ch : Fin 32) (bank : Fin 16), ∀ k, k = 512 * st.val + 16 * ch.val + bank.val →
    (s.now - s.refreshLast k < s.refi st → Runs (.refreshDue st ch bank) s fun t => t = s) ∧
    (s.refi st ≤ s.now - s.refreshLast k → s.on (F.MC_STATUS_SR st) = true → Runs (.refreshDue st ch bank) s fun t =>
      t = s.ran .refresh k (s.now - (s.now - s.refreshLast k) % s.refi st)) ∧
    (s.refi st ≤ s.now - s.refreshLast k → s.on (F.MC_STATUS_SR st) = false → 8 ≤ s.rd (owedF st ch bank) →
      (s.bankReqs st ch bank).any (fun r => r.rt) = true → Runs (.refreshDue st ch bank) s fun t =>
        t.rd (F.MC_RT_SPLIT_COUNT st) = min (s.rd (F.MC_RT_SPLIT_COUNT st) + 1) (2 ^ (F.MC_RT_SPLIT_COUNT st).width - 1) ∧
        t.openRow st (2 * ch) bank = none ∧ t.openRow st (2 * ch + 1) bank = none) ∧
    (s.refi st ≤ s.now - s.refreshLast k → s.on (F.MC_STATUS_SR st) = false → s.rd (owedF st ch bank) < 8 →
      (s.bankReqs st ch bank).any (fun r => r.rt) = true → Runs (.refreshDue st ch bank) s fun t =>
        t.rd (owedF st ch bank) = s.rd (owedF st ch bank) + 1 ∧ t.mc = s.mc ∧ readsBut [owedF st ch bank, F.MC_REF_OWED_MAX_OWED_CNT k] s t) ∧
    (s.refi st ≤ s.now - s.refreshLast k → s.on (F.MC_STATUS_SR st) = false → (s.bankReqs st ch bank) = [] →
      (s.logicalOf st ch).any (fun c => mget (s.mcOf st).batch c false) = false → Runs (.refreshDue st ch bank) s fun t =>
        t.rd (owedF st ch bank) = s.rd (owedF st ch bank) - 1 ∧ t.openRow st (2 * ch) bank = none ∧ t.openRow st (2 * ch + 1) bank = none ∧
        readsBut [owedF st ch bank] s t)) ∧
  (∀ (pc : Fin 64) (bank : Fin 16),
    (s.openRow st pc bank = none → Runs (.rowIdleClose st pc bank) s fun t => t = s) ∧
    (∀ row t0, s.openRow st pc bank = some (row, t0) →
      (s.now - t0 < s.rd (F.MC_IDLE_STATUS_CUR (64 * st.val + pc.val)) → Runs (.rowIdleClose st pc bank) s fun t => t = s) ∧
      (s.rd (F.MC_IDLE_STATUS_CUR (64 * st.val + pc.val)) ≤ s.now - t0 → (s.bankReqs st (pc / 2) bank).any (fun r => rowOf r.block = row) = false →
        Runs (.rowIdleClose st pc bank) s fun t => t.openRow st pc bank = none ∧ mget (t.mcOf st).closed (16 * pc + bank) none = some (row, s.now) ∧
          { t with mc := s.mc } = s))) ∧
  (∀ pc : Fin 64, ∀ k, k = 64 * st.val + pc.val →
    (s.now - s.ranAt .idle k < 4096 → Runs (.idleTimerAdapt st pc) s fun t => t = s) ∧
    (4096 ≤ s.now - s.ranAt .idle k → s.on (F.MC_IDLE_ADAPT st) = false → Runs (.idleTimerAdapt st pc) s fun t =>
      t.rd (F.MC_IDLE_STATUS_CUR k) = s.rd (F.MC_IDLE_INIT st) ∧ t.on (F.MC_IDLE_STATUS_PINNED k) = false) ∧
    (4096 ≤ s.now - s.ranAt .idle k → s.on (F.MC_IDLE_ADAPT st) = true → Runs (.idleTimerAdapt st pc) s fun t =>
      t.rd (F.MC_IDLE_STATUS_CUR k) ≤ s.rd (F.MC_IDLE_MAX st) ∧ min (s.rd (F.MC_IDLE_MIN st)) (s.rd (F.MC_IDLE_MAX st)) ≤ t.rd (F.MC_IDLE_STATUS_CUR k) ∧
      mget (t.mcOf st).lateHits pc 0 = 0 ∧ mget (t.mcOf st).conflicts pc 0 = 0 ∧
      changes [F.MC_IDLE_STATUS_CUR k, F.MC_IDLE_STATUS_PINNED k, F.MC_PINNED_CNT_COUNT st] s { t with mc := s.mc, timers := s.timers }))) ∧
  (∀ (s : State) (st : Fin 6),
  (∀ q (target : Fin 4), s.grants q false = true →
    (target.val = 3 → (s.mcOf st).change = none → ∀ commits, Runs (.mcTsetWrite q st target commits) s fun t => t = s) ∧
    (target.val < 3 → (s.mcOf st).change = none → s.rd (F.MC_STATUS_TSET st) ≠ target → Runs (.mcTsetWrite q st target false) s fun t =>
      (t.mcOf st).change = some { target := target, committed := false, entering := true, aborts := 0, since := s.now } ∧
      t.on (F.MC_STATUS_TSET_BUSY st) = true ∧ t.rd (F.MC_TSET_CMD_TARGET st) = target ∧ t.rd (F.MC_STATUS_TSET st) = s.rd (F.MC_STATUS_TSET st)) ∧
    (∀ c, (s.mcOf st).change = some c → c.committed = true → target.val < 3 → Runs (.mcTsetWrite q st target false) s fun t =>
      (t.mcOf st).change = some c ∧ (t.mcOf st).nextSet = some target.val)) ∧
  (∀ c, (s.mcOf st).change = some c → ∀ commits,
    (c.committed = true → Runs (.tsetEntryRetry st commits) s fun t => t = s) ∧
    (c.committed = false → c.entering = true ∨ 1600 ≤ s.now - c.since → Runs (.tsetEntryRetry st true) s fun t =>
      (t.mcOf st).change = some { c with entering := true, committed := true, since := s.now } ∧ t.on (F.MC_STATUS_SR st) = true)) ∧
  ((s.mcOf st).change = none → ∀ commits, Runs (.tsetEntryRetry st commits) s (fun t => t = s) ∧ Runs (.tsetChangeDone st) s fun t => t = s) ∧
  (∀ c, (s.mcOf st).change = some c → c.committed = true → (s.mcOf st).nextSet = none → Runs (.tsetChangeDone st) s fun t =>
    (t.mcOf st).change = none ∧ t.rd (F.MC_STATUS_TSET st) = c.target % 2 ^ 2 ∧ t.on (F.MC_STATUS_TSET_BUSY st) = false ∧
    t.on (F.MC_STATUS_SR st) = false ∧ t.intBit .mc st 5 = true ∧ t.hbm = s.hbm) ∧
  (s.on (F.MC_SR_CFG_EN st) = true ∨ s.rd F.PWR_STATUS_STATE = 4 → (s.mcOf st).reqs = [] → (s.mcOf st).change = none → (s.mcOf st).sr = 0 →
    max 1 (s.rd (F.MC_SR_CFG_IDLE st)) * 1600 ≤ s.now - (s.mcOf st).lastReq → Runs (.srIdleEntry st) s fun t =>
      t.on (F.MC_STATUS_SR st) = true ∧ (t.mcOf st).sr = 2 ∧ (t.mcOf st).rows = [] ∧ (∀ k, k < 512 → t.rd (F.MC_REF_OWED_OWED (512 * st.val + k)) = 0)) ∧
  ((s.on (F.MC_SR_CFG_EN st) = false ∧ s.rd F.PWR_STATUS_STATE ≠ 4) ∨ (s.mcOf st).reqs ≠ [] ∨ (s.mcOf st).sr ≠ 0 → Runs (.srIdleEntry st) s fun t => t = s) ∧
  (s.rd (F.MC_RAS_CFG_SCRUB_HOURS st) = 0 ∨ s.mcHeld st = true ∨ s.chReqs st (logicalCh ((s.mcOf st).scrubAt / 64)) ≠ [] → ∀ pins, Runs (.patrolScrub st pins) s fun t => t = s) ∧
  (s.rd (F.MC_RAS_CFG_SCRUB_HOURS st) ≠ 0 → s.mcHeld st = false → s.rd (F.MC_RAS_CFG_SCRUB_HOURS st) * hourTicks / 390070272 ≤ s.now - s.ranAt .scrub st →
    s.chReqs st (logicalCh ((s.mcOf st).scrubAt / 64)) = [] → s.on F.DBG_CTL_ARM = false → Runs (.patrolScrub st 0) s fun t => (t.mcOf st).scrubAt = ((s.mcOf st).scrubAt + 1) % 390070272 ∧ t.hbm = s.hbm ∧ t.regs = s.regs) ∧
  (∀ temp : Fin 256,
    (s.now - s.ranAt .thermal (1 + st.val) < 160000 → Runs (.hbmTempRead st temp) s fun t => t = s) ∧
    (160000 ≤ s.now - s.ranAt .thermal (1 + st.val) → Runs (.hbmTempRead st temp) s fun t =>
      t.rd (F.MC_STATUS_TEMP st) = temp ∧
      t.on (F.MC_STATUS_HOT st) = (if 85 < temp.val then true else if temp.val ≤ 82 then false else s.on (F.MC_STATUS_HOT st)) ∧
      changes [F.MC_STATUS_TEMP st, F.MC_STATUS_HOT st, F.MC_TRAIN_STATUS_VALID st] s { t with timers := s.timers })) ∧
  (∀ ch : Fin 32, ∀ busy, busy = (s.logicalOf st ch).any (fun c => (s.chReqs st c).any (fun r => r.rt)) →
    (busy = true → Runs (.delayTracking st ch) s fun t => t = s) ∧
    (s.now - (s.mcOf st).trackAt < 160000000 → tempDiff (s.rd (F.MC_STATUS_TEMP st)) (s.mcOf st).trackTemp < 10 → Runs (.delayTracking st ch) s fun t => t = s) ∧
    (160000000 ≤ s.now - (s.mcOf st).trackAt ∨ 10 ≤ tempDiff (s.rd (F.MC_STATUS_TEMP st)) (s.mcOf st).trackTemp → ch.val = 31 → busy = false → Runs (.delayTracking st ch) s fun t =>
      (t.mcOf st).trackAt = s.now ∧ (t.mcOf st).trackTemp = s.rd (F.MC_STATUS_TEMP st) ∧ { t with mc := s.mc } = s)) ∧
  (∀ temp : Fin 256,
    Runs (.hbmTrainingDone st temp none) s (fun t => t.rd (F.MC_STATUS_TEMP st) = temp ∧ t.on (F.MC_TRAIN_STATUS_FAIL st) = false ∧
      bit (t.rd (F.MC_TRAIN_STATUS_VALID st)) 0 = true ∧ bit (t.rd (F.MC_TRAIN_STATUS_VALID st)) 1 = true ∧ bit (t.rd (F.MC_TRAIN_STATUS_VALID st)) 2 = true ∧
      (t.mcOf st).trackTemp = temp) ∧
    (∀ ch : Fin 32, Runs (.hbmTrainingDone st temp (some ch)) s fun t => t.on (F.MC_TRAIN_STATUS_FAIL st) = true ∧
      t.rd (F.MC_TRAIN_STATUS_FAIL_CH st) = ch ∧ t.intBit .mc st 7 = true)) ∧
  (∀ c : Fin 31,
    (s.rd (F.MC_STATUS_SPARE st) = 0 → Runs (.channelSpareStart st c) s fun t => t.rd (F.MC_STATUS_SPARE st) = 1 ∧ t.rd (F.MC_STATUS_SPARED_CH st) = c ∧
      t.rd (F.MC_STATUS_COPY_PCT st) = 0 ∧ (t.mcOf st).copy = some (c.val, 0) ∧ t.hbm = s.hbm) ∧
    (s.rd (F.MC_STATUS_SPARE st) = 1 → Runs (.channelSpareStart st c) s fun t => t = s) ∧
    (s.rd (F.MC_STATUS_SPARE st) ≠ 0 → s.rd (F.MC_STATUS_SPARE st) ≠ 1 → s.rd (F.MC_STATUS_SPARED_CH st) ≠ c → Runs (.channelSpareStart st c) s fun t =>
      t = s.noSpare 4 (channelObject st c))) ∧
  ((s.mcOf st).copy = none → Runs (.channelCopyDone st) s fun t => t = s) ∧
  (s.mcHeld st = true → Runs (.channelCopyDone st) s fun t => t = s) ∧
  (∀ c n, (s.mcOf st).copy = some (c, n) → s.mcHeld st = false → Runs (.channelCopyDone st) s fun t =>
    t.physCh st c = s.sparePhys st ∧ t.rd (F.MC_STATUS_SPARE st) = 2 ∧ t.rd (F.MC_STATUS_COPY_PCT st) = 100 ∧ t.intBit .mc st 4 = true ∧ t.hbm = s.hbm))

/-- CONTRIB_RECEIVE, RESULT_RECEIVE, ATOLL_NACK_RECEIVE, HOLD_OFF_RECEIVE, ABORT_RECEIVE (R285 to R294, R302): a role takes the frame at
its head only when its engine is ACTIVE and the frame is of its TYPE; a frame that fails a check is dropped with its code; a contribution
is added once for each member; a PARENT's result completes the chunk that went up; a notice counts and is remembered; an ABORT fails the
session. It rests on choices of the model too: log entries 62, 67, 129. -/
def Obligations.AtollFrames : Prop := ∀ (s : State) (r : Fin 32),
  (s.atlHead r = none →
    Runs (.contribReceive r) s (fun t => t = s) ∧ Runs (.resultReceive r) s (fun t => t = s) ∧ Runs (.atollNackReceive r) s (fun t => t = s) ∧
    Runs (.holdOffReceive r) s (fun t => t = s) ∧ Runs (.abortReceive r) s (fun t => t = s)) ∧
  (s.roleTakes r = false →
    Runs (.contribReceive r) s (fun t => t = s) ∧ Runs (.resultReceive r) s (fun t => t = s) ∧ Runs (.atollNackReceive r) s (fun t => t = s) ∧
    Runs (.holdOffReceive r) s (fun t => t = s) ∧ Runs (.abortReceive r) s (fun t => t = s)) ∧
  (∀ x, s.atlHead r = some x → s.roleTakes r = true → ∀ h, h = atlHdr x.data → ∀ u, u = s.updAtl (fun a => { a with inq := a.inq.erase x }) →
    (h.type ≠ atlContrib → Runs (.contribReceive r) s fun t => t = s) ∧
    (h.type ≠ atlAbort → Runs (.abortReceive r) s fun t => t = s) ∧
    (h.type = atlContrib → ∀ code, u.atlReject x (u.newOperation h) = some code → Runs (.contribReceive r) s fun t => t = u.atlDrop x code) ∧
    (h.type = atlResult → ∀ code, u.atlReject x false = some code → Runs (.resultReceive r) s fun t => t = u.atlDrop x code) ∧
    (h.type = atlNack → ∀ code, u.atlReject x false = some code → Runs (.atollNackReceive r) s fun t => t = u.atlDrop x code) ∧
    (h.type = atlHoldOff → ∀ code, u.atlReject x false = some code → Runs (.holdOffReceive r) s fun t => t = u.atlDrop x code) ∧
    (h.type = atlAbort → ∀ code, u.atlReject x false = some code → Runs (.abortReceive r) s fun t => t = u.atlDrop x code) ∧
    (h.type = atlContrib → u.atlReject x (u.newOperation h) = none → (u.contributors h.session).contains h.member = true → ∀ c, u.chunkOf h = some c →
      (c.from_.contains h.member = true → Runs (.contribReceive r) s fun t => t = u.atlDrop x 0x71) ∧
      (c.from_.contains h.member = false → h.count = c.count → Runs (.contribReceive r) s fun t => t = u.contribute x h c) ∧
      (c.from_.contains h.member = false → h.count = c.count → s.on F.DBG_CTL_ARM = false → x.buf = none → u.parent h.session = none → Runs (.contribReceive r) s fun t =>
        (t.chunkOf h).map (fun y => (y.from_, y.last, y.opened, y.deadline)) = some (h.member :: c.from_, h.last, c.opened, c.deadline) ∧
        (t.chunkOf h).map (fun y => y.done) = some ((u.contributors h.session).all (fun m => m = h.member || c.from_.contains m)) ∧
        (u.sums h.session = true → isFloat (u.sessFmt h.session) = false → h.wide = false → (t.chunkOf h).map (fun y => y.acc) =
          some (List.zipWith (fun a v => wrapAcc (u.sessFmt h.session) (a + sext (8 * elemSize (u.sessFmt h.session)) v)) c.acc (elems (u.sessFmt h.session) c.count (x.data.drop 32)))) ∧
        t.atl.inq = u.atl.inq ∧ readsOff [.ATL_SESS_STATUS] s t) ∧
      (c.from_.contains h.member = false → h.count ≠ c.count → Runs (.contribReceive r) s fun t => t = (u.atlDrop x 0x74).sessFail h.session 3 none)) ∧
    (h.type = atlResult → u.atlReject x false = none → u.parent h.session = some h.member → x.buf = none → ∀ c, u.chunkOf h = some c →
      c.sentUp = true → c.down = none → Runs (.resultReceive r) s fun t =>
        (t.chunkOf h).map (fun y => (y.down, y.done, y.from_)) = some (some (x.data.drop 32), true, c.from_)) ∧
    (h.type = atlNack → u.atlReject x false = none → x.buf = none → h.arg = 2 → ∀ z, u.stagedOf h false = some z → Runs (.atollNackReceive r) s fun t =>
      t = u.resendResult h.session h.member z) ∧
    (h.type = atlNack → u.atlReject x false = none → x.buf = none → h.arg = 1 → u.parent h.session = some h.member → ∀ z, u.stagedOf h true = some z →
      Runs (.atollNackReceive r) s fun t => t = u.atlSend h.session h.member atlContrib (z.flags ||| 4) z.opseq z.chunk z.count 0 z.data) ∧
    (h.type = atlNack → u.atlReject x false = none → x.buf = none → h.arg = 2 → u.stagedOf h false = none → u.isReleased h = true → Runs (.atollNackReceive r) s fun t =>
      t.rd (F.ATL_SESS_EVT_NACKS h.session) = min (s.rd (F.ATL_SESS_EVT_NACKS h.session) + 1) (2 ^ (F.ATL_SESS_EVT_NACKS h.session).width - 1) ∧
      t.intBit .atl 0 5 = true ∧ t.atl = u.atl) ∧
    (h.type = atlHoldOff → u.atlReject x false = none → x.buf = none → Runs (.holdOffReceive r) s fun t =>
      t.rd (F.ATL_SESS_EVT_HOLDOFFS h.session) = min (s.rd (F.ATL_SESS_EVT_HOLDOFFS h.session) + 1) (2 ^ (F.ATL_SESS_EVT_HOLDOFFS h.session).width - 1) ∧
      mget (t.sess h.session).holdOff h.member none = some s.now) ∧
    (h.type = atlAbort → u.atlReject x false = none → x.buf = none → Runs (.abortReceive r) s fun t => t = u.sessFail h.session 2 (some h.member) ∧
      t.sessState h.session = 4 ∧ t.rd (F.ATL_SESS_STATUS_CAUSE h.session) = 2 ∧ (t.sess h.session).chunks = [] ∧ (t.sess h.session).stage = [] ∧
      t.rd (F.ATL_SESS_STATUS_OPEN_CHUNKS h.session) = 0 ∧ t.intBit .atl 0 0 = true))

/-- CHUNK_RESULT_SEND, NACK_DELAY_EXPIRE, CHUNK_DEADLINE, HOLD_OFF_SEND, ENGINE_REPLACE, ENGINE_FAULT (R273, R287, R289, R293, R294,
R300): a session sends the result of its oldest complete chunk; an open chunk is answered for once each NACK_DELAY and fails its session
at its deadline; notices go out once a period while COMPUTE is held back; an ACTIVE engine drains, a DRAINING one gives its role to the
reserve, and a fault restarts the role's chunks. It rests on choices of the model too: log entries 43, 68, 72, 162, 164. -/
def Obligations.AtollTimers : Prop := ∀ (s : State),
  (∀ n : Fin 4096,
    ((s.sess n).chunks.find? (fun c => c.done) = none → Runs (.chunkResultSend n) s fun t => t = s) ∧
    (∀ c, (s.sess n).chunks.find? (fun c => c.done) = some c →
      (c.down = none → Runs (.chunkResultSend n) s fun t => t = s.finishChunk n c c.count 0 (s.chunkResult n c)) ∧
      (s.sessState n = 2 → ∀ l, l = (s.sess n).chunks.filter (fun y => !(y.opseq = c.opseq && y.chunk = c.chunk)) → Runs (.chunkResultSend n) s fun t =>
        (t.sess n).chunks = l ∧ t.rd (F.ATL_SESS_STATUS_OPEN_CHUNKS n) = l.length % 2 ^ (F.ATL_SESS_STATUS_OPEN_CHUNKS n).width ∧
        t.rd (F.ATL_SESS_DONE_COUNT n) = (s.rd (F.ATL_SESS_DONE_COUNT n) + 1) % 2 ^ (F.ATL_SESS_DONE_COUNT n).width ∧
        t.sessState n = (if l = [] then 1 else 2)) ∧
      (∀ d, c.down = some d → d ≠ [] → Runs (.chunkResultSend n) s fun t => t = s.finishChunk n c c.count 0 d)) ∧
    (∀ o k : BitVec 32,
      ((s.sess n).chunks.find? (fun c => c.opseq = o.toNat && c.chunk = k.toNat) = none →
        Runs (.nackDelayExpire n o k) s (fun t => t = s) ∧ Runs (.chunkDeadline n o k) s (fun t => t = s)) ∧
      (∀ c, (s.sess n).chunks.find? (fun c => c.opseq = o.toNat && c.chunk = k.toNat) = some c →
        (s.now < c.deadline → Runs (.chunkDeadline n o k) s fun t => t = s) ∧
        (c.deadline ≤ s.now → Runs (.chunkDeadline n o k) s fun t => t = s.sessFail n 1 none ∧ t.sessState n = 4 ∧
          t.rd (F.ATL_SESS_STATUS_CAUSE n) = 1 ∧ (t.sess n).chunks = [] ∧ (t.sess n).stage = [] ∧ t.intBit .atl 0 0 = true) ∧
        (s.now - c.opened < (c.nacks + 1) * s.nackDelay → Runs (.nackDelayExpire n o k) s fun t => t = s) ∧
        ((c.nacks + 1) * s.nackDelay ≤ s.now - c.opened → ∀ u, u = s.updChunk n o.toNat k.toNat (fun c => { c with nacks := (s.now - c.opened) / s.nackDelay }) →
          c.sentUp = false → Runs (.nackDelayExpire n o k) s fun t =>
            t = (u.contributors n).foldl (fun s m => if c.from_.contains m || s.heldOff n m then s else s.sendNack n m o.toNat k.toNat 1) u ∧
            (t.sess n).chunks = (s.sess n).chunks.map (fun y => if y.opseq = o.toNat && y.chunk = k.toNat then { y with nacks := (s.now - y.opened) / s.nackDelay } else y) ∧
            t.rd (F.ATL_SESS_EVT_NACKS n) = min (s.rd (F.ATL_SESS_EVT_NACKS n) + ((s.contributors n).filter (fun m => !(c.from_.contains m || s.heldOff n m))).length)
              (2 ^ (F.ATL_SESS_EVT_NACKS n).width - 1)) ∧
        ((c.nacks + 1) * s.nackDelay ≤ s.now - c.opened → c.sentUp = true → c.down = none → ∀ p, s.parent n = some p → s.heldOff n p = false →
          Runs (.nackDelayExpire n o k) s fun t =>
            t.rd (F.ATL_SESS_EVT_NACKS n) = min (s.rd (F.ATL_SESS_EVT_NACKS n) + 1) (2 ^ (F.ATL_SESS_EVT_NACKS n).width - 1)))) ∧
    (s.sessState n ≠ 2 → Runs (.holdOffSend n) s fun t => (t.sess n).sentAt = none ∧ (t.sess n).chunks = (s.sess n).chunks ∧
      changes [F.ATL_SESS_STATUS_OPEN_CHUNKS n] s { t with atl := s.atl }) ∧
    (s.sessState n = 2 → s.on F.ATL_STATUS_HOLDING_OFF = true → (s.sess n).sentAt = none → Runs (.holdOffSend n) s fun t =>
      (t.sess n).sentAt = some s.now ∧ (t.sess n).chunks = (s.sess n).chunks.map (fun c =>
        { c with deadline := max c.deadline (min (c.deadline + s.holdOffExt) (s.now + s.sessTimeout n + s.holdOffExt)) })) ∧
    (s.sessState n = 2 → ∀ a, (s.sess n).sentAt = some a → s.now - a < s.holdOffPeriod → s.on F.ATL_STATUS_HOLDING_OFF = true → Runs (.holdOffSend n) s fun t => t = s)) ∧
  (∀ e : Fin 36,
    (s.rd (F.ATL_ENG_STATUS_STATE e) = 1 ∨ s.rd (F.ATL_ENG_STATUS_STATE e) = 3 →
      Runs (.engineReplace e) s (fun t => t = s) ∧ ∀ logic, Runs (.engineFault e logic) s fun t => t = s) ∧
    (s.rd (F.ATL_ENG_STATUS_STATE e) = 0 → s.reserveEngine (engineDie e) = none → Runs (.engineReplace e) s fun t => t = s) ∧
    (s.rd (F.ATL_ENG_STATUS_STATE e) = 0 → s.scopeBusy 5 e = false → ∀ r, s.reserveEngine (engineDie e) = some r → Runs (.engineReplace e) s fun t =>
      t.rd (F.ATL_ENG_STATUS_STATE e) = 2 ∧ mget t.spareMap (key2 5 e) 0 = 2 + r ∧ changes [F.ATL_ENG_STATUS_STATE e] s { t with spareMap := s.spareMap }) ∧
    (s.rd (F.ATL_ENG_STATUS_STATE e) = 2 → ∀ r, s.reserveEngine (engineDie e) = some r → Runs (.engineReplace e) s fun t =>
      t.rd (F.ATL_ENG_STATUS_STATE r) = 0 ∧ t.rd (F.ATL_ENG_STATUS_ROLE r) = s.rd (F.ATL_ENG_STATUS_ROLE e) ∧
      t.rd (F.ATL_ENG_STATUS_SESSIONS r) = s.rd (F.ATL_ENG_STATUS_SESSIONS e) ∧ t.rd (F.ATL_ENG_STATUS_ROLE e) = 0x3F ∧ t.intBit .atl 0 1 = true) ∧
    (s.rd (F.ATL_ENG_STATUS_STATE e) = 0 → Runs (.engineFault e false) s fun t => t = s.restartRole (s.rd (F.ATL_ENG_STATUS_ROLE e)) ∧
      (∀ n : Fin 4096, s.atl.live.contains n.val = true → (t.sess n).chunks = (s.sess n).chunks.map (fun c =>
        if s.roleOf n c.chunk = s.rd (F.ATL_ENG_STATUS_ROLE e) then
          { c with from_ := [], acc := List.replicate c.count 0, code := List.replicate c.count 1, done := false, sentUp := false, down := none } else c))) ∧
    (s.rd (F.ATL_ENG_STATUS_STATE e) = 0 → ∀ v, s.reserveEngine (engineDie e) = some v → Runs (.engineFault e true) s fun t =>
      t = (((s.restartRole (s.rd (F.ATL_ENG_STATUS_ROLE e))).requestRemove 5 e).mapRecord 5 e (2 + v)).engineTake e v false ∧
      t.rd (F.ATL_ENG_STATUS_STATE e) = 3 ∧ t.rd (F.ATL_ENG_STATUS_ROLE e) = 0x3F ∧ t.rd (F.ATL_ENG_STATUS_STATE v) = 0 ∧
      t.rd (F.ATL_ENG_STATUS_ROLE v) = s.rd (F.ATL_ENG_STATUS_ROLE e) ∧ t.intBit .atl 0 1 = true) ∧
    (s.rd (F.ATL_ENG_STATUS_STATE e) = 0 → s.reserveEngine (engineDie e) = none → Runs (.engineFault e true) s fun t =>
      t.rd (F.ATL_ENG_STATUS_STATE e) = 3 ∧ t.rd (F.ATL_ENG_STATUS_ROLE e) = 0x3F ∧ t.rd (F.ATL_ENG_STATUS_SESSIONS e) = 0 ∧ t.intBit .atl 0 1 = true))

/-- EXPORT_FRAME_CLOSE, COLLECTOR_REFILL, FLOW_SWEEP, TEL_FLOW_RD (R311, R312, R318, R320): an export frame closes when it is full or 10
µs old, takes the next sequence number, and one that is refused is counted; a collector's bucket gains its rate each microsecond up to 64
records; an idle flow is exported and freed, an old one restarted, any other left; a read returns the record of a key. It rests on choices
of the model too: log entries 13, 38, 77, 79, 124. -/
def Obligations.TelemetryExport : Prop := ∀ (s : State),
  (∀ (c : Fin 16) (ty : Fin 5),
    (mget s.tel.frames (key2 c ty) [] = [] → Runs (.exportFrameClose c ty) s fun t => t = s) ∧
    (∀ f rest, mget s.tel.frames (key2 c ty) [] = f :: rest →
      (f.recs.length < recLimit ty → s.now - f.since < 16000 → Runs (.exportFrameClose c ty) s fun t => t = s) ∧
      (recLimit ty ≤ f.recs.length ∨ 16000 ≤ s.now - f.since → s.rd (F.TEL_COLLECTOR_PORT c) ≥ 512 → Runs (.exportFrameClose c ty) s fun t =>
        mget t.tel.frames (key2 c ty) [] = rest ∧ mget t.tel.seq c 0 = (mget s.tel.seq c 0 + 1) % 2 ^ 32 ∧ mget t.tel.lost c 0 = 0 ∧
        t.rd F.TEL_STATUS_REFUSED = min (s.rd F.TEL_STATUS_REFUSED + 1) (2 ^ F.TEL_STATUS_REFUSED.width - 1) ∧ t.intBit .tel 0 2 = true ∧
        signals [F.TEL_STATUS_REFUSED, F.TEL_INT_STATUS_BITS] s { t with tel := s.tel }) ∧
      (recLimit ty ≤ f.recs.length ∨ 16000 ≤ s.now - f.since → Runs (.exportFrameClose c ty) s fun t =>
        ∀ u, u = s.updTel (fun t => { t with frames := mset t.frames (key2 c ty) rest [], lost := mset t.lost c 0 0,
                                             seq := mset t.seq c ((mget t.seq c 0 + 1) % 2 ^ 32) 0 }) →
        ∀ a, a = u.admitExport (u.rd (F.TEL_COLLECTOR_PORT c)) (u.rd (F.TEL_COLLECTOR_QUEUE c)) (s.exportFrame c ty f.recs) →
          t = if a.1 then a.2 else (a.2.satAdd F.TEL_STATUS_REFUSED 1).raise .tel 0 2)) ∧
    (s.now - s.ranAt .collector c < 1600 → Runs (.collectorRefill c) s fun t => t = s) ∧
    (1600 ≤ s.now - s.ranAt .collector c → Runs (.collectorRefill c) s fun t =>
      mget t.tel.tokens c fullBucket = min fullBucket (mget s.tel.tokens c fullBucket + max 1 (s.rd (F.TEL_COLLECTOR_RATE_RATE c))) ∧
      t.ranAt .collector c = s.now ∧ { t with tel := s.tel, timers := s.timers } = s)) ∧
  (∀ (die : Fin 2) (key : BitVec 64),
    (s.flowGet die key.toNat = none → Runs (.flowSweep die key) s fun t => t = s) ∧
    (∀ r, s.flowGet die key.toNat = some r →
      ∀ idle, idle = (s.rd F.TEL_FLOW_CFG_IDLE ≠ 0 && flowNs s.flowTime - flowNs r.last ≥ s.rd F.TEL_FLOW_CFG_IDLE * 1000000000) →
      ∀ old, old = (s.rd F.TEL_FLOW_CFG_ACTIVE ≠ 0 && flowNs s.flowTime - flowNs r.first > s.rd F.TEL_FLOW_CFG_ACTIVE * 1000000000) →
        (idle = false → old = false → Runs (.flowSweep die key) s fun t => t = s) ∧
        (idle = true → Runs (.flowSweep die key) s fun t => t.flowGet die key.toNat = none ∧ t.hbm = s.hbm) ∧
        (∀ n, n = ({ r with packets := 0, bytes := 0, maxLat := 0, first := s.flowTime } : FlowRec) → idle = false → old = true →
          ∀ e, mget s.tel.flows (flowIx die key.toNat) none = some e →
          (e.cached = some r → Runs (.flowSweep die key) s fun t => t.flowGet die key.toNat = some n ∧ t.hbm = s.hbm) ∧
          (e.cached = none → ∀ st, s.flowStack = some st → ∀ o, o = s.flowOff st die key.toNat e.way → Runs (.flowSweep die key) s fun t =>
            t.hbmRead st o 64 = flowBytes key.toNat n ∧
            (∀ a : Nat, a < hbmAddr st o ∨ hbmAddr st o + 64 ≤ a → Memory.read t.hbm a = Memory.read s.hbm a))))) ∧
  (∀ q, s.grants q false = true → ∀ rec_, rec_ = (s.flowGet 0 (s.rd F.TEL_FLOW_RD_KEY_KEY)).orElse (fun _ => s.flowGet 1 (s.rd F.TEL_FLOW_RD_KEY_KEY)) →
    (rec_ = none → Runs (.telFlowRd q) s fun t => t.on F.TEL_FLOW_RD_STAT_FOUND = false ∧ changes [F.TEL_FLOW_RD_STAT_FOUND] s t) ∧
    (∀ r, rec_ = some r → Runs (.telFlowRd q) s fun t => t.on F.TEL_FLOW_RD_STAT_FOUND = true ∧ t.tel = s.tel ∧
      (∀ w, w < 16 → t.rd (F.TEL_FLOW_RD_REC_WORD w) = leAt (flowBytes (s.rd F.TEL_FLOW_RD_KEY_KEY) r) (4 * w) 4 % 2 ^ 32) ∧
      readsOff [.TEL_FLOW_RD_STAT, .TEL_FLOW_RD_REC] s t))

/-- CNT_TBL_READ, CNT_TBL_READ_CLEAR, CNT_CTL_VF_WRITE, CNT_USER_PAGES_WRITE, DUMP_EDGE, DUMP_WRITE_DONE (R323, R328 to R332): a counter
is shown, and cleared only by the second form; a VF writes only the counters of its pages, a page has one holder; a dump waits for its
edge, and a finished one advances PROD. It rests on choices of the model too: log entries 2, 79, 80. -/
def Obligations.CountersAndDumps : Prop := ∀ (s : State),
  (∀ q (i : Fin 16) (d : Fin 2), s.grants q false = true → ∀ k, k = 2 * i.val + d.val → ∀ key, key = key2 k (key2 (s.rd (F.CNT_TBL_TARGET_TABLE k)) (s.rd (F.CNT_TBL_TARGET_INDEX k))) →
    ∀ c, c = mget s.mat.counts key (0, 0) →
    Runs (.cntTblRead q i d) s (fun t => t.mat = s.mat ∧
      t.rd (F.CNT_TBL_DATA_WORD (4 * k)) = c.1 % 2 ^ 32 ∧ t.rd (F.CNT_TBL_DATA_WORD (4 * k + 2)) = (c.1 / 2 ^ 64 + c.2) % 2 ^ 32 ∧
      changes [F.CNT_TBL_DATA_WORD (4 * k), F.CNT_TBL_DATA_WORD (4 * k + 1), F.CNT_TBL_DATA_WORD (4 * k + 2), F.CNT_TBL_DATA_WORD (4 * k + 3)] s t) ∧
    Runs (.cntTblReadClear q i d) s (fun t => mget t.mat.counts key (0, 0) = (0, 0) ∧ (∀ j, j ≠ key → mget t.mat.counts j (0, 0) = mget s.mat.counts j (0, 0)) ∧
      t.rd (F.CNT_TBL_DATA_WORD (4 * k)) = c.1 % 2 ^ 32)) ∧
  (∀ (f : Fin 32) (n : Fin 1088) (v : BitVec 32),
    (f.val = 0 ∨ s.pageOf f (n / 16) = false → Runs (.cntCtlVfWrite f n v) s fun t => t = s) ∧
    (f.val ≠ 0 → s.pageOf f (n / 16) = true → bit v.toNat 3 = false ∨ s.rd (F.HARB_RX_CFG_OWNER (bits v.toNat 4 6)) = f → Runs (.cntCtlVfWrite f n v) s fun t =>
      t.on (F.CNT_CTL_EN n) = bit v.toNat 0 ∧ t.on (F.CNT_CTL_SAMPLE n) = bit v.toNat 3 ∧ t.rd (F.CNT_CTL_RING n) = bits v.toNat 4 6 ∧ readsOff [.CNT_CTL] s t) ∧
    (f.val ≠ 0 → s.pageOf f (n / 16) = true → bit v.toNat 3 = true → s.rd (F.HARB_RX_CFG_OWNER (bits v.toNat 4 6)) ≠ f →
      Runs (.cntCtlVfWrite f n v) s (discarded (.vf f) (regAddr .CNT_CTL n) 1 0 s))) ∧
  (∀ q (f : Fin 32) (w : Fin 3) (v : BitVec 32), s.grants q false = true → viaEth q = false → f.val ≠ 0 → Runs (.cntUserPagesWrite q f w v) s fun t =>
    (∀ b, b < 32 → w.val < 2 ∨ b < 4 → bit (t.rd (F.CNT_USER_PAGES_MASK (3 * f.val + w.val))) b =
      (bit v.toNat b && !(List.range 32).any (fun g => g ≠ 0 && g ≠ f.val && bit (s.rd (F.CNT_USER_PAGES_MASK (3 * g + w))) b)))) ∧
  (s.on F.CNT_DUMP_CFG_EN = false ∨ s.on F.CNT_DUMP_CFG_SOURCE = true → Runs .dumpEdge s fun t => t = s) ∧
  (s.on F.CNT_DUMP_CFG_EN = true → s.on F.CNT_DUMP_CFG_SOURCE = false → s.on F.CNT_DUMP_CFG_ALIGN = false →
    (s.now - max s.dumpFrom (s.ranAt .dump 0) < s.dumpPeriod * 160000 → Runs .dumpEdge s fun t => t = s) ∧
    (s.dumpPeriod * 160000 ≤ s.now - max s.dumpFrom (s.ranAt .dump 0) → Runs .dumpEdge s fun t => t = (s.ran .dump 0 s.now).dumpEdge false ∧
      t.rd F.CNT_DUMP_SEQ_SEQ = (s.rd F.CNT_DUMP_SEQ_SEQ + 1) % 2 ^ F.CNT_DUMP_SEQ_SEQ.width ∧
      (∀ full, full = (s.dump.isSome || (s.rd F.CNT_DUMP_PROD_PROD + 1) % s.rd F.CNT_DUMP_RING_SLOTS = s.rd F.CNT_DUMP_CONS_CONS % s.rd F.CNT_DUMP_RING_SLOTS) →
       ∀ fits, fits = decide (dumpLength (s.rd F.CNT_DUMP_CFG_SETS) ≤ s.rd F.CNT_DUMP_RING_SLOT_KIB * 1024) →
        (full = true → t.dump = s.dump ∧ t.intBit .cnt 0 2 = true ∧
          t.rd F.CNT_DUMP_STATUS_MISSED = min (s.rd F.CNT_DUMP_STATUS_MISSED + 1) (2 ^ F.CNT_DUMP_STATUS_MISSED.width - 1)) ∧
        (full = false → fits = false → t.dump = none ∧ t.on F.CNT_DUMP_STATUS_CFG_ERR = true ∧ t.intBit .cnt 0 3 = true) ∧
        (full = false → fits = true → t.on F.CNT_DUMP_STATUS_BUSY = true ∧
          t.dump.map (fun d => (d.seq, d.sets, d.ticks, d.sec, d.ns)) = some (s.rd F.CNT_DUMP_SEQ_SEQ + 1, s.rd F.CNT_DUMP_CFG_SETS, s.now, s.domA.sec, s.domA.ns))))) ∧
  (s.dump = none → Runs .dumpWriteDone s fun t => t = s) ∧
  (∀ d, s.dump = some d → Runs .dumpWriteDone s fun t =>
    t.dump = none ∧ t.on F.CNT_DUMP_STATUS_BUSY = false ∧
    t.rd F.CNT_DUMP_PROD_PROD = (s.rd F.CNT_DUMP_PROD_PROD + 1) % max 1 (s.rd F.CNT_DUMP_RING_SLOTS) % 2 ^ F.CNT_DUMP_PROD_PROD.width ∧
    (s.on F.CNT_DUMP_CFG_TARGET = false → t.hbm = s.hbm ∧
      Out.hostWrite 0 (s.rd F.CNT_DUMP_BASE_BASE + s.rd F.CNT_DUMP_PROD_PROD % max 1 (s.rd F.CNT_DUMP_RING_SLOTS) * (s.rd F.CNT_DUMP_RING_SLOT_KIB * 1024)) d.bytes ∈ t.out) ∧
    (s.on F.CNT_DUMP_CFG_INT = true → t.intBit .cnt 0 1 = true))

/-- LANE_ENABLE, LANE_DISABLE, TRAINING_FRAME_RECEIVE, TRAINING_TIMEOUT, ADAPT_UPDATE, BLOCK_LOCK_ACQUIRE, LOSS_OF_LOCK, LANE_BITSLIP,
LMOS_REPEAT (R53 to R64, R69): what moves a lane between its states, and what leaves it alone; a frame whose check fails is ignored but
for the run of good frames; an adapted element stays within its bounds, and a pinned one stays; a bitslip acts only where the spec allows
it. PORT_IDLE_ENTRY, IDLE_REQ_RECEIVE, IDLE_ACK_RECEIVE, IDLE_NAK_RECEIVE, WAKE_BURST_DETECT, WAKE_COMPLETE (R65, R68, R109, R111): a
quiet port asks for IDLE; a request is agreed to only by an UP port without a swap and without a backlog; an agreement puts port and lanes
in IDLE; a wake burst is answered once, and a valid wake brings the port back UP. The line codings read back what they write (R48, R59,
R60, R68, R86): every five-bit value has a level pair of its own, which is no corner; a training frame gives its control, status and
check; a lane-management message its four fields; data and terminate blocks their octets; and a descrambler whose register equals the
scrambler's returns the block. Block types and bit order are the model's reading of IEEE 802.3 (log entry 150). It rests on choices of the
model too: log entries 19, 21, 136, 149, 170, 172. -/
def Obligations.LaneStates : Prop :=
  (∀ (s : State) (l : Fin 544),
  (s.laneState l = 0 → s.rd (F.LANE_CTL_MODE l) ≠ 0 → Runs (.laneEnable l) s fun t => t.on (F.LANE_CTL_ENABLE l) = true ∧ t.laneState l = 2 ∧
    t.rd (F.LANE_TRAIN_PHASE l) = 0 ∧ t.intBit .lane (l / 34) 0 = true) ∧
  (s.laneState l ≠ 0 ∨ s.rd (F.LANE_CTL_MODE l) = 0 → Runs (.laneEnable l) s fun t => t.on (F.LANE_CTL_ENABLE l) = true ∧ changes [F.LANE_CTL_ENABLE l] s t) ∧
  (s.laneState l = 5 → Runs (.laneDisable l) s fun t => t.on (F.LANE_CTL_ENABLE l) = false ∧ changes [F.LANE_CTL_ENABLE l] s t) ∧
  (s.laneState l ≠ 5 → s.laneState l ≠ 3 → s.laneState l ≠ 4 → Runs (.laneDisable l) s fun t => t.on (F.LANE_CTL_ENABLE l) = false ∧ t.laneState l = 0 ∧ t.path = s.path) ∧
  (∀ head : List (Fin 6),
    (s.laneState l ≠ 2 ∨ s.rd (F.LANE_CTL_MODE l) ≠ 1 → Runs (.trainingFrameReceive l (.strait head)) s fun t => t = s) ∧
    (s.laneState l = 2 → s.rd (F.LANE_CTL_MODE l) = 1 → trainingRead (head.map Fin.val) = none → Runs (.trainingFrameReceive l (.strait head)) s fun t =>
      t = s.updLane l (fun x => { x with good := 0, rdySeen := 0 })) ∧
    (s.laneState l = 2 → s.rd (F.LANE_CTL_MODE l) = 1 → ∀ control status check, trainingRead (head.map Fin.val) = some (control, status, check) →
      (crc8 control status ≠ check → Runs (.trainingFrameReceive l (.strait head)) s fun t => t = s.updLane l (fun x => { x with good := 0, rdySeen := 0 })) ∧
      (crc8 control status = check → Runs (.trainingFrameReceive l (.strait head)) s fun t =>
        t.on (F.LANE_STATUS_SIGNAL_DET l) = true ∧ t.on (F.LANE_STATUS_CDR_LOCK l) = true ∧ (mget t.laneX l {}).good = (mget s.laneX l {}).good + 1 ∧
        (mget t.laneX l {}).seen = control ∧ t.laneState l = 2 ∧
        t.rd (F.LANE_TRAIN_PHASE l) = (if s.rd (F.LANE_TRAIN_PHASE l) = 0 && 3 ≤ (mget s.laneX l {}).good then 1
          else if s.rd (F.LANE_TRAIN_PHASE l) = 2 && bit status 5 && 7 ≤ (mget s.laneX l {}).rdySeen then 3 else s.rd (F.LANE_TRAIN_PHASE l))))) ∧
  (∀ (k : Fin 6) up,
    (s.laneState l ≠ 2 ∨ s.rd (F.LANE_CTL_MODE l) = 1 ∨ s.carried l = none → Runs (.trainingFrameReceive l (.ethernet (.step k up))) s fun t => t = s) ∧
    (∀ p, s.carried l = some p → s.laneState l = 2 → s.rd (F.LANE_CTL_MODE l) ≠ 1 →
      (1 < s.rd (F.PORT_CFG_PMD p) → Runs (.trainingFrameReceive l (.ethernet (.step k up))) s fun t => t = s) ∧
      (s.rd (F.PORT_CFG_PMD p) ≤ 1 → s.on (F.LANE_TX_TAP_PIN (6 * l + k)) = true → Runs (.trainingFrameReceive l (.ethernet (.step k up))) s fun t =>
        t.taps l = s.taps l ∧ t.on (F.LANE_TX_TAP_AT_BOUND (6 * l + k)) = true ∧ t.on (F.LANE_STATUS_TX_PINNED l) = true ∧ t.out = .trainAnswer l 2 :: s.out) ∧
      (s.rd (F.PORT_CFG_PMD p) ≤ 1 → s.on (F.LANE_TX_TAP_PIN (6 * l + k)) = false → ∀ w, w = (s.taps l).getD k 0 + (if up then 1 else -1) →
        s.tapMin l k ≤ w → w ≤ s.tapMax l k → tapsLegal ((s.taps l).set k w) = true → Runs (.trainingFrameReceive l (.ethernet (.step k up))) s fun t =>
          t.rd (F.LANE_TX_TAP_VALUE (6 * l + k)) = trunc 8 w ∧ t.out = .trainAnswer l 1 :: s.out))) ∧
  (s.laneState l = 2 → max 1 (s.rd (F.LANE_TRAIN_TIMEOUT l)) * 1600000 ≤ s.now - (mget s.laneX l {}).trainAt → Runs (.trainingTimeout l) s fun t =>
    t.laneState l = 2 ∧ t.rd (F.LANE_TRAIN_PHASE l) = 0 ∧ (mget t.laneX l {}).trainAt = s.now ∧
    t.rd (F.LANE_TRAIN_RESTARTS l) = min (s.rd (F.LANE_TRAIN_RESTARTS l) + 1) (2 ^ (F.LANE_TRAIN_RESTARTS l).width - 1)) ∧
  (s.laneState l ≠ 2 → Runs (.trainingTimeout l) s fun t => t = s) ∧
  (∀ ctle ffe settled req (offset : BitVec 16),
    (s.laneState l = 0 → Runs (.adaptUpdate l ctle ffe settled req offset) s fun t => t = s) ∧
    (s.laneState l = 1 ∨ s.laneState l = 5 → Runs (.adaptUpdate l ctle ffe settled req offset) s fun t => changes [F.LANE_CDR_FREQ_OFFSET l] s t ∧
      t.rd (F.LANE_CDR_FREQ_OFFSET l) = (if s.on (F.LANE_STATUS_CDR_LOCK l) && offset.toInt.natAbs ≤ 20000 then offset.toNat else s.rd (F.LANE_CDR_FREQ_OFFSET l))) ∧
    (s.laneState l = 2 → s.rd (F.LANE_CTL_MODE l) = 1 → s.rd (F.LANE_TRAIN_PHASE l) = 1 →
      Runs (.adaptUpdate l ctle ffe true req offset) s (fun t => t.rd (F.LANE_TRAIN_PHASE l) = 2 ∧ (mget t.laneX l {}).rxReady = true ∧ t.laneState l = 2) ∧
      (∀ (k : Fin 6) up, Runs (.adaptUpdate l ctle ffe false (some (k, up)) offset) s fun t => t.rd (F.LANE_TRAIN_PHASE l) = 1 ∧
        (mget t.laneX l {}).ctl = (if (mget s.laneX l {}).ctl = 0 && (mget s.laneX l {}).calm then k.val + (if up then 8 else 16) else (mget s.laneX l {}).ctl))) ∧
    (s.laneState l = 3 → s.on (F.LANE_CTL_ADAPT_FREEZE l) = false → Runs (.adaptUpdate l ctle ffe settled req offset) s fun t =>
      (s.on (F.LANE_RX_CTLE_PIN l) = true → t.rd (F.LANE_RX_CTLE_PEAK l) = s.rd (F.LANE_RX_CTLE_PEAK l)) ∧
      (s.on (F.LANE_RX_CTLE_PIN l) = false → s.rd (F.LANE_RX_CTLE_MIN l) ≤ s.rd (F.LANE_RX_CTLE_MAX l) →
        s.rd (F.LANE_RX_CTLE_MIN l) ≤ t.rd (F.LANE_RX_CTLE_PEAK l) ∧ t.rd (F.LANE_RX_CTLE_PEAK l) ≤ s.rd (F.LANE_RX_CTLE_MAX l)) ∧
      (∀ k : Fin 24, s.on (F.LANE_RX_FFE_PIN (24 * l + k)) = true → t.rd (F.LANE_RX_FFE_VALUE (24 * l + k)) = s.rd (F.LANE_RX_FFE_VALUE (24 * l + k))) ∧
      (∀ k : Fin 6, s.on (F.LANE_TX_TAP_PIN (6 * l + k)) = true → t.rd (F.LANE_TX_TAP_VALUE (6 * l + k)) = s.rd (F.LANE_TX_TAP_VALUE (6 * l + k))) ∧
      (tapsLegal (s.taps l) = true → tapsLegal (t.taps l) = true) ∧ t.laneState l = 3)) ∧
  (∀ (offset : BitVec 16) (pos : Fin 66) heads,
    (s.laneState l ≠ 2 ∨ headsLock heads = false ∨ 20000 < offset.toInt.natAbs ∨ (s.rd (F.LANE_CTL_MODE l) = 1 ∧ s.sendsTraining l = true) →
      Runs (.blockLockAcquire l offset pos heads) s fun t => t.laneState l = s.laneState l ∧
        t.rd (F.LANE_CDR_FREQ_OFFSET l) = (if offset.toInt.natAbs ≤ 20000 then offset.toNat else s.rd (F.LANE_CDR_FREQ_OFFSET l)) ∧
        t.on (F.LANE_STATUS_SIGNAL_DET l) = true ∧ t.on (F.LANE_STATUS_CDR_LOCK l) = true ∧
        changes [F.LANE_STATUS_SIGNAL_DET l, F.LANE_STATUS_CDR_LOCK l, F.LANE_CDR_FREQ_OFFSET l, F.LANE_LOCK_HDR_ERR l] s t) ∧
    (s.laneState l = 2 → headsLock heads = true → offset.toInt.natAbs ≤ 20000 → s.rd (F.LANE_CTL_MODE l) ≠ 1 ∨ s.sendsTraining l = false →
      ∀ p, s.portOfLane l = some p → Runs (.blockLockAcquire l offset pos heads) s fun t =>
        t.laneState l = (if s.spareOf p = l then 4 else 3) ∧ t.on (F.LANE_STATUS_BLOCK_LOCK l) = true ∧ t.rd (F.LANE_ERR_FAIL_RUN l) = 0 ∧
        t.rd (F.LANE_LOCK_SLIP_POS l) = s.boundary l pos % 2 ^ (F.LANE_LOCK_SLIP_POS l).width ∧ t.rd (F.LANE_CDR_FREQ_OFFSET l) = offset.toNat ∧
        t.intBit .lane (l / 34) 0 = true)) ∧
  (∀ heads words signal cdr,
    (∀ lost, lost = (!cdr || headsLost heads || (s.rd (F.LANE_CTL_MODE l) = 1 && wordsLost words)) →
      (lost = false ∨ (s.laneState l ≠ 3 ∧ s.laneState l ≠ 4) → Runs (.lossOfLock l heads words signal cdr) s fun t =>
        t.on (F.LANE_STATUS_SIGNAL_DET l) = signal ∧ t.on (F.LANE_STATUS_CDR_LOCK l) = cdr ∧
        t.rd (F.LANE_LOCK_HDR_ERR l) = min (s.rd (F.LANE_LOCK_HDR_ERR l) + (heads.filter (fun h => !headValid h)).length) (2 ^ (F.LANE_LOCK_HDR_ERR l).width - 1) ∧
        changes [F.LANE_STATUS_SIGNAL_DET l, F.LANE_STATUS_CDR_LOCK l, F.LANE_LOCK_HDR_ERR l] s t) ∧
      (lost = true → s.laneState l = 3 ∨ s.laneState l = 4 → s.portOfLane l = none → Runs (.lossOfLock l heads words signal cdr) s fun t =>
        t.laneState l = 2 ∧ t.on (F.LANE_STATUS_BLOCK_LOCK l) = false ∧ t.rd (F.LANE_TRAIN_PHASE l) = 0))) ∧
  (∀ q, s.grants q false = true →
    (s.on (F.LANE_CTL_LOCK_MODE l) = true → s.rd (F.LANE_CTL_MODE l) = 5 ∨ s.rd (F.LANE_CTL_MODE l) = 6 → (s.portOfLane l).all (fun p => s.rd (F.PORT_CFG_FEC p) = 0) = true →
      Runs (.laneBitslip q l) s fun t => t.rd (F.LANE_LOCK_SLIP_POS l) = (s.rd (F.LANE_LOCK_SLIP_POS l) + 1) % 66 ∧ changes [F.LANE_LOCK_SLIP_POS l] s t) ∧
    (s.on (F.LANE_CTL_LOCK_MODE l) = false ∨ (s.rd (F.LANE_CTL_MODE l) ≠ 5 ∧ s.rd (F.LANE_CTL_MODE l) ≠ 6) → Runs (.laneBitslip q l) s
      (discarded q (regAddr .LANE_BITSLIP l) 1 0 s))) ∧
  (mget s.lmosWait l none = none → Runs (.lmosRepeat l) s fun t => t = s) ∧
  (∀ m, mget s.lmosWait l none = some m →
    (s.now - m.sent < 1600 → Runs (.lmosRepeat l) s fun t => t = s) ∧
    (1600 ≤ s.now - m.sent → Runs (.lmosRepeat l) s fun t => t.out = .lmos l (lmosBlock m.code m.logical m.arg m.tag) :: s.out ∧
      mget t.lmosWait l none = some { m with sent := s.now } ∧ t.regs = s.regs))) ∧
  (∀ (s : State) (p : Fin 512),
  (s.portState p ≠ 3 → Runs (.portIdleEntry p) s fun t => t = s) ∧
  (s.portState p = 3 → s.strait p = true → bit (s.rd (F.PWR_IDLE_EN_PORTS (p / 32))) (p % 32) = true → 160000 ≤ s.now - (s.px p).lastFrame → s.portBacklog p = false →
    s.swapOf p = none → (s.px p).idleTag = none → s.rd (F.PWR_DOM_STATUS_STEPS 0) ≠ 0 ∨ s.rd F.PWR_STATUS_STATE = 4 → Runs (.portIdleEntry p) s fun t =>
      (t.px p).idleTag = some (Config.freeValue s.free % 256) ∧ t.free = s.free + 1 ∧
      mget t.lmosWait (s.laneOf p 0) none = some { code := 0x10, logical := 0, arg := 0, tag := Config.freeValue s.free % 256, sent := s.now } ∧
      t.out = .lmos (s.laneOf p 0) (lmosBlock 0x10 0 0 (Config.freeValue s.free % 256)) :: s.out ∧ t.regs = s.regs) ∧
  (∀ b,
    (s.strait p = false ∨ lmosIs 0x10 b = none ∨ (s.portState p ≠ 3 ∧ s.portState p ≠ 4) → Runs (.idleReqReceive p b) s fun t => t = s) ∧
    (∀ m, lmosIs 0x10 b = some m → s.strait p = true → s.portState p = 3 ∨ s.portState p = 4 →
      (∀ a, s.lmosRepeated p 0x10 m.tag = some a → Runs (.idleReqReceive p b) s fun t =>
        t = { s with out := .lmos a.lane (lmosBlock a.answer.code a.answer.logical a.answer.arg a.answer.tag) :: s.out }) ∧
      (s.lmosRepeated p 0x10 m.tag = none →
        (s.portState p = 4 → Runs (.idleReqReceive p b) s fun t => t.out = .lmos (s.laneOf p 0) (lmosBlock 0x11 0 0 m.tag) :: s.out ∧ t.regs = s.regs) ∧
        (s.portState p = 3 → (s.swapOf p).isSome = true → Runs (.idleReqReceive p b) s fun t =>
          t.out = .lmos (s.laneOf p 0) (lmosBlock 0x12 0 4 m.tag) :: s.out ∧ t.regs = s.regs) ∧
        (s.portState p = 3 → s.swapOf p = none → s.portBacklog p = true → Runs (.idleReqReceive p b) s fun t =>
          t.out = .lmos (s.laneOf p 0) (lmosBlock 0x12 0 1 m.tag) :: s.out ∧ t.regs = s.regs ∧
          (t.px p).answered.map (fun a => (a.code, a.tag, a.answer.code)) = some (0x10, m.tag, 0x12)) ∧
        (s.portState p = 3 → s.swapOf p = none → s.portBacklog p = false → Runs (.idleReqReceive p b) s fun t =>
          t.portState p = 4 ∧ t.intBit .mac (p / 32) 0 = true ∧ (t.px p).waking = false ∧ (t.px p).idleTag = none ∧
          Out.lmos (s.laneOf p 0) (lmosBlock 0x11 0 0 m.tag) ∈ t.out))) ∧
    (∀ m, lmosIs 0x11 b = some m →
      (s.portState p = 3 → (s.px p).idleTag = some m.tag → Runs (.idleAckReceive p b) s fun t =>
        t.portState p = 4 ∧ (t.px p).idleTag = none ∧ mget t.lmosWait (s.laneOf p 0) none = none) ∧
      (s.portState p ≠ 3 ∨ (s.px p).idleTag ≠ some m.tag → Runs (.idleAckReceive p b) s fun t => t = s)) ∧
    (lmosIs 0x11 b = none → Runs (.idleAckReceive p b) s fun t => t = s) ∧
    (lmosIs 0x12 b = none → Runs (.idleNakReceive p b) s fun t => t = s) ∧
    (∀ m, lmosIs 0x12 b = some m →
      ((s.px p).idleTag ≠ some m.tag → Runs (.idleNakReceive p b) s fun t => t = s) ∧
      ((s.px p).idleTag = some m.tag → Runs (.idleNakReceive p b) s fun t =>
        (t.px p).idleTag = none ∧ mget t.lmosWait (s.laneOf p 0) none = none ∧ t.regs = s.regs))) ∧
  (s.portState p ≠ 4 ∨ (s.px p).waking = true → Runs (.wakeBurstDetect p) s fun t => t = s) ∧
  (s.portState p = 4 → (s.px p).waking = false → Runs (.wakeBurstDetect p) s fun t => (t.px p).waking = true ∧ t.out = .wakeBurst p (wakeSymbols (Config.patternSeed (512 + p))) :: s.out ∧ t.regs = s.regs) ∧
  (∀ ok, s.portState p ≠ 4 ∨ (s.px p).waking = false → Runs (.wakeComplete p ok) s fun t => t = s) ∧
  (s.portState p = 4 → (s.px p).waking = true →
    ((s.mainLanes p).all (fun l => s.laneState l ≠ 1 || s.now - (mget s.laneX l {}).idleAt ≤ 160000000) = true → Runs (.wakeComplete p true) s fun t =>
      t.portState p = 3 ∧ (t.px p).waking = false ∧ (t.px p).lastFrame = s.now ∧ (t.px p).pcs.began = some s.now ∧ (t.mainLanes p).all (fun l => t.laneState l ≠ 1) = true) ∧
    Runs (.wakeComplete p false) s fun t => t.portState p = 2 ∧ (t.px p).waking = false ∧ (t.px p).woke = true ∧ t.on (F.PORT_PARTNER_STATUS_VALID p) = false)) ∧
  ((∀ v : Fin 32, pam6Value (pam6Pair v) = v.val ∧ pam6Corner (pam6Pair v) = false ∧ (pam6Pair v).1 < 6 ∧ (pam6Pair v).2 < 6) ∧
  (∀ control status : BitVec 16, trainingRead (trainingHead control.toNat status.toNat) = some (control.toNat, status.toNat, crc8 control.toNat status.toNat)) ∧
  (∀ (code arg tag : BitVec 8) (logical : BitVec 3), lmosRead (lmosBlock code.toNat logical.toNat arg.toNat tag.toNat) = some (code.toNat, logical.toNat, arg.toNat, tag.toNat) ∧
    (lmosBlock code.toNat logical.toNat arg.toNat tag.toNat).length = 66) ∧
  (∀ l : Bytes, (l.length = 8 → readBlock (dataBlock l) = .data l) ∧ (l.length < 8 → readBlock (termBlock l) = .term l)) ∧
  (∀ (st : BitVec 58) (b : Bits), (unscramble st.toNat (scramble st.toNat b).2).2 = b ∧ (unscramble st.toNat (scramble st.toNat b).2).1 = (scramble st.toNat b).1 ∧
    (scramble st.toNat b).2.take 2 = b.take 2))

/-- SWAP_WINDOW_CLOSE, SWAP_REQ_RECEIVE, SWAP_ACK_RECEIVE, SWAP_NAK_RECEIVE, SWAP_ALIGNED, SWAP_DONE_RECEIVE, SWAP_ABORT_RECEIVE,
SWAP_TIMEOUT (R58, R66, R68 to R74): a window counts and ends a run of bad windows; a request is answered once and repeated answers change
nothing; a refused or aborted swap leaves the old lane in place and sets LAST; a swap is finished when both ends have switched. It rests
on choices of the model too: log entries 74, 152, 172. -/
def Obligations.LaneSwaps : Prop := ∀ (s : State) (p : Fin 512),
  (∀ (l : Fin 544) words corner, ∀ bits_, bits_ = (mget s.laneX l {}).winBits + (lineCounts words).2.1 → ∀ bad, bad = (mget s.laneX l {}).winBad + (lineCounts words).2.2.2 →
    (s.rd (F.LANE_CTL_MODE l) ≠ 1 ∨ s.laneState l = 0 ∨ s.laneState l = 1 ∨ s.laneState l = 2 ∨ s.laneState l = 5 → s.carried l = none → Runs (.swapWindowClose l words corner) s fun t =>
      t.rd (F.LANE_ERR_CNT_CORNER l) = min (s.rd (F.LANE_ERR_CNT_CORNER l) + corner) (2 ^ (F.LANE_ERR_CNT_CORNER l).width - 1) ∧
      changes [F.LANE_ERR_CNT_CORNER l] s { t with laneX := s.laneX }) ∧
    (s.rd (F.LANE_CTL_MODE l) = 1 → s.laneState l = 3 → s.on F.DBG_CTL_ARM = false → bad = 0 → s.berFails (l / 34) bits_ = false → Runs (.swapWindowClose l words corner) s fun t =>
      t.rd (F.LANE_ERR_FAIL_RUN l) = 0 ∧ t.rd (F.LANE_ERR_CORR_BITS l) = min bits_ (2 ^ 24 - 1) ∧ t.laneState l = 3) ∧
    (s.rd (F.LANE_CTL_MODE l) = 1 → s.laneState l = 3 ∨ s.laneState l = 4 → s.on F.DBG_CTL_ARM = false → 0 < bad → s.rd (F.LANE_SWAP_WIN_WIN (l / 34)) = 0 →
      Runs (.swapWindowClose l words corner) s fun t => t.rd (F.LANE_ERR_FAIL_RUN l) = min 15 (s.rd (F.LANE_ERR_FAIL_RUN l) + 1) ∧
        t.rd (F.LANE_ERR_CNT_UNCORR l) = min (s.rd (F.LANE_ERR_CNT_UNCORR l) + bad) (2 ^ (F.LANE_ERR_CNT_UNCORR l).width - 1) ∧ t.laneState l = s.laneState l)) ∧
  (∀ b byCmd,
    (s.strait p = false ∨ lmosIs 0x01 b = none → Runs (.swapReqReceive p b byCmd) s fun t => t = s) ∧
    (∀ m, lmosIs 0x01 b = some m → s.strait p = true →
      (∀ a, s.lmosRepeated p 0x01 m.tag = some a → Runs (.swapReqReceive p b byCmd) s fun t =>
        t = { s with out := .lmos a.lane (lmosBlock a.answer.code a.answer.logical a.answer.arg a.answer.tag) :: s.out }) ∧
      (s.lmosRepeated p 0x01 m.tag = none →
        (544 ≤ s.spareOf p → Runs (.swapReqReceive p b byCmd) s fun t => t = s) ∧
        (s.spareOf p < 544 → ∀ nak, nak = (fun arg : Nat => Out.lmos (s.spareOf p) (lmosBlock 0x03 m.logical arg m.tag) :: s.out) →
          (s.swapOf p = none →
            (s.partnerLm p = false → Runs (.swapReqReceive p b byCmd) s fun t => t.out = nak 3 ∧ t.regs = s.regs ∧ t.swaps = s.swaps) ∧
            (s.partnerLm p = true → s.laneState (s.spareOf p) ≠ 4 → Runs (.swapReqReceive p b byCmd) s fun t => t.out = nak 2 ∧ t.regs = s.regs ∧ t.swaps = s.swaps) ∧
            (s.partnerLm p = true → s.laneState (s.spareOf p) = 4 → m.logical < s.portWidth p → s.laneState (s.laneOf p m.logical) ≠ 3 → Runs (.swapReqReceive p b byCmd) s fun t =>
              t.out = nak 1 ∧ t.regs = s.regs ∧ t.swaps = s.swaps) ∧
            (s.partnerLm p = true → s.laneState (s.spareOf p) = 4 → m.logical < s.portWidth p → s.laneState (s.laneOf p m.logical) = 3 → Runs (.swapReqReceive p b byCmd) s fun t =>
              (t.swapOf p).map (fun x => (x.logical, x.oldLane, x.spare, x.tag, x.byCmd, x.requester, x.acked)) =
                some (m.logical, s.laneOf p m.logical, s.spareOf p, m.tag, byCmd, false, true) ∧
              t.out = .lmos (s.spareOf p) (lmosBlock 0x02 m.logical 0 m.tag) :: s.out ∧ t.on (F.LANE_SWAP_STATUS_BUSY (p / 32)) = true)) ∧
          (∀ x, s.swapOf p = some x →
            (x.requester = false → Runs (.swapReqReceive p b byCmd) s fun t => t.out = nak 1 ∧ t.regs = s.regs ∧ t.swaps = s.swaps) ∧
            (x.requester = true → x.logical < m.logical → Runs (.swapReqReceive p b byCmd) s fun t => t.out = nak 4 ∧ t.regs = s.regs ∧ t.swaps = s.swaps) ∧
            (x.requester = true → x.logical = m.logical → Runs (.swapReqReceive p b byCmd) s fun t =>
              t.swapOf p = some { x with acked := true } ∧ mget t.lmosWait x.spare none = none ∧ t.out = s.out) ∧
            (x.requester = true → m.logical < x.logical → Runs (.swapReqReceive p b byCmd) s fun t =>
              (t.swapOf p).map (fun y => (y.logical, y.oldLane, y.tag, y.requester)) = some (m.logical, s.laneOf p m.logical, m.tag, false) ∧
              t.rd (F.LANE_SWAP_STATUS_LAST (p / 32)) = 4)))))) ∧
  (s.swapOf p = none →
    (∀ b, Runs (.swapAckReceive p b) s (fun t => t = s) ∧ Runs (.swapNakReceive p b) s (fun t => t = s) ∧ Runs (.swapDoneReceive p b) s (fun t => t = s) ∧
      ((s.px p).swapped = none → Runs (.swapAbortReceive p b) s fun t => t = s) ∧
      (∀ x, (s.px p).swapped = some x → x.oldLane ≠ x.spare → ∀ m, lmosIs 0x05 b = some m → m.logical = x.logical → m.tag = x.tag → Runs (.swapAbortReceive p b) s fun t =>
        t.laneState x.oldLane = 3 ∧ t.laneState x.spare = 4 ∧ t.laneOf p x.logical = x.oldLane ∧ t.spareOf p = x.spare ∧
        t.rd (F.LANE_SWAP_STATUS_LAST (p / 32)) = 3 ∧ t.intBit .lane (p / 32) 3 = true)) ∧
    (∀ run skew, Runs (.swapAligned p run skew) s (fun t => t = s)) ∧ Runs (.swapTimeout p) s (fun t => t = s)) ∧
  (∀ x, s.swapOf p = some x →
    (∀ b m, lmosIs 0x02 b = some m → x.requester = true → x.tag = m.tag → Runs (.swapAckReceive p b) s fun t =>
      t.swapOf p = some { x with acked := true } ∧ mget t.lmosWait x.spare none = none) ∧
    (∀ b m, lmosIs 0x03 b = some m → x.requester = true → x.tag = m.tag → x.acked = false → Runs (.swapNakReceive p b) s fun t =>
      t.swapOf p = none ∧ t.rd (F.LANE_SWAP_STATUS_LAST (p / 32)) = 4 ∧ t.laneState x.oldLane = s.laneState x.oldLane ∧ t.laneMap = s.laneMap) ∧
    (∀ (run : Nat) (skew : Int),
      (x.acked = false ∨ run < 4 ∨ 2000 < skew.natAbs → Runs (.swapAligned p run skew) s fun t => t = s) ∧
      (x.acked = true → x.switched = false → x.doneRx = false → 4 ≤ run → skew.natAbs ≤ 2000 → Runs (.swapAligned p run skew) s fun t =>
        t.swapOf p = some { x with switched := true } ∧ t.laneMap = s.laneMap ∧ (t.px p).rxOld = some (x.logical, x.oldLane, s.now) ∧
        t.out = .lmos x.spare (lmosBlock 0x04 x.logical 0 x.tag) :: .lmos x.oldLane (lmosBlock 0x04 x.logical 0 x.tag) :: s.out)) ∧
    (∀ b m, lmosIs 0x04 b = some m → m.logical = x.logical →
      (x.switched = false → Runs (.swapDoneReceive p b) s fun t => t.swapOf p = some { x with doneRx := true } ∧ t.laneMap = s.laneMap) ∧
      (x.switched = true → x.oldLane ≠ x.spare → (s.px p).second = none → Runs (.swapDoneReceive p b) s fun t =>
        t.swapOf p = none ∧ t.laneState x.oldLane = (if x.byCmd then 4 else 5) ∧ t.laneState x.spare = 3 ∧ t.laneOf p x.logical = x.spare ∧
        t.spareOf p = (if x.byCmd then x.oldLane else 544) ∧ t.rd (F.LANE_SWAP_STATUS_LAST (p / 32)) = 1 ∧ t.intBit .lane (p / 32) 2 = true)) ∧
    (∀ b m, lmosIs 0x05 b = some m → m.logical = x.logical →
      Runs (.swapAbortReceive p b) s (fun t => t.swapOf p = none ∧ t.rd (F.LANE_SWAP_STATUS_LAST (p / 32)) = 3 ∧ t.laneMap = s.laneMap ∧ t.intBit .lane (p / 32) 3 = true ∧
        t.laneState x.oldLane = s.laneState x.oldLane)) ∧
    (s.now - x.start < max 1 (s.rd (F.LANE_SWAP_CFG_TIMEOUT (p / 32))) * 1600 → Runs (.swapTimeout p) s fun t => t = s) ∧
    (max 1 (s.rd (F.LANE_SWAP_CFG_TIMEOUT (p / 32))) * 1600 ≤ s.now - x.start → Runs (.swapTimeout p) s fun t =>
      t.swapOf p = none ∧ t.rd (F.LANE_SWAP_STATUS_LAST (p / 32)) = 2 ∧ t.laneMap = s.laneMap ∧ t.intBit .lane (p / 32) 3 = true))

/-- PORT_CTL_ENABLE, PORT_LINK_UP, AN_COMPLETE, FEC_DEGRADE_WINDOW, HELLO_SEND, HELLO_RECEIVE, PARTNER_EXPIRE, MAC_CONTROL_RECEIVE,
PAUSE_EXPIRE, PIPE_PORT_LIVE_WRITE (R82, R98, R99, R102 to R104, R109, R110, R112, R113, R154, R259): what moves a port between its
states, counts its windows, keeps its partner entry and its pauses. It rests on choices of the model too: log entries 18, 20, 132, 134,
150, 153. -/
def Obligations.PortCommands : Prop := ∀ (s : State) (p : Fin 512),
  (∀ q, s.grants q false = true →
    (s.portState p = 0 → Runs (.portCtlEnable q p true) s (discarded q (regAddr .PORT_CTL p) 0 0 s) ∧ Runs (.portCtlEnable q p false) s fun t => t = s) ∧
    (s.portState p = 1 → Runs (.portCtlEnable q p false) s (fun t => t = s) ∧ Runs (.portCtlEnable q p true) s fun t =>
      t.portState p = 2 ∧ t.on (F.PORT_CTL_ENABLE p) = true ∧ (t.px p).anDone = !s.negotiates p ∧ t.intBit .mac (p / 32) 0 = true) ∧
    (s.portState p = 2 ∨ s.portState p = 3 ∨ s.portState p = 4 → Runs (.portCtlEnable q p true) s (fun t => t = s) ∧ Runs (.portCtlEnable q p false) s fun t => t = s.portOff p ∧
      t.portState p = 1 ∧ t.on (F.PORT_CTL_ENABLE p) = false ∧ t.on (F.PORT_PARTNER_STATUS_VALID p) = false ∧ (t.px p).idleTag = none ∧ t.intBit .mac (p / 32) 0 = true) ∧
    (∀ (i w : Fin 16) (v : BitVec 32),
      (∀ k : Fin 32, v.toNat.testBit k = true → s.portLive (32 * w + k) = true) → Runs (.pipePortLiveWrite q i w v) s fun t =>
        (∀ k : Fin 32, bit (t.rd (F.PIPE_PORT_LIVE_LIVE (16 * i + w))) k = (bit (s.rd (F.PIPE_PORT_LIVE_LIVE (16 * i + w))) k || v.toNat.testBit k)) ∧
        changes [F.PIPE_PORT_LIVE_LIVE (16 * i + w)] s t) ∧
    (∀ (i w : Fin 16) (v : BitVec 32) (k : Fin 32), v.toNat.testBit k = true → s.portLive (32 * w + k) = false → Runs (.pipePortLiveWrite q i w v) s fun t =>
      (bit (t.rd (F.PIPE_PORT_LIVE_LIVE (16 * i + w))) k = bit (s.rd (F.PIPE_PORT_LIVE_LIVE (16 * i + w))) k) ∧ t.intBit .chip 0 0 = true ∧
      t.rd F.CHIP_WDISCARD_CNT_COUNT = min (s.rd F.CHIP_WDISCARD_CNT_COUNT + 1) (2 ^ 32 - 1))) ∧
  (∀ arrivals,
    (s.portState p = 2 → (s.mainLanes p).all (fun l => s.laneState l = 3) = true → s.negotiates p = false ∨ (s.px p).anDone = true → s.deskewable p arrivals = true → Runs (.portLinkUp p arrivals) s fun t =>
      t.portState p = 3 ∧ (t.px p).lastFrame = s.now ∧ (t.px p).degRun = 0 ∧ (t.px p).helloSent = none ∧ (t.px p).woke = false ∧ t.intBit .mac (p / 32) 0 = true ∧
      (t.px p).pcs.deskew = arrivals.map (fun a => arrivals.foldl max 0 - a) ∧
      (s.xoffWanted p = 0 → s.rd (F.MAC_PFC_STATUS_TX_XOFF p) = 0 →
        signals [F.PORT_STATUS_STATE p, F.MAC_INT_STATUS_BITS (p / 32), F.PORT_STATUS_SPARE_READY p] s { t with portX := s.portX })) ∧
    (s.portState p ≠ 2 ∨ (s.mainLanes p).any (fun l => s.laneState l ≠ 3) = true ∨ s.deskewable p arrivals = false ∨ (s.negotiates p = true ∧ (s.px p).anDone = false) →
      Runs (.portLinkUp p arrivals) s fun t => t = s)) ∧
  (∀ common an,
    (s.portState p ≠ 2 ∨ s.negotiates p = false → Runs (.anComplete p common an) s fun t => t = s) ∧
    (s.portState p = 2 → s.negotiates p = true →
      Runs (.anComplete p false an) s (fun t => t.rd (F.PORT_PARTNER_AN_AN p) = 2 ^ 31 + an.toNat ∧ changes [F.PORT_PARTNER_AN_AN p] s t) ∧
      Runs (.anComplete p true an) s fun t => t.rd (F.PORT_PARTNER_AN_AN p) = an.toNat ∧ (t.px p).anDone = true ∧ t.rd (F.PORT_PARTNER_STATUS_SOURCE p) = 2 ∧
        t.on (F.PORT_PARTNER_STATUS_VALID p) = true ∧ (s.on (F.PORT_PARTNER_STATUS_VALID p) = false → t.intBit .mac (p / 32) 2 = true))) ∧
  (∀ corr uncorr, ∀ c, c = (if s.strait p then (s.px p).winCorr else corr) → ∀ u, u = (if s.strait p then (s.px p).winBad else uncorr) →
    (s.portState p ≠ 3 ∨ (s.strait p = false ∧ s.rd (F.PORT_CFG_FEC p) = 0) → Runs (.fecDegradeWindow p corr uncorr) s fun t =>
      t.rd (F.PCS_FEC_CORR_COUNT p) = (s.rd (F.PCS_FEC_CORR_COUNT p) + c) % 2 ^ (F.PCS_FEC_CORR_COUNT p).width ∧
      t.rd (F.PCS_FEC_UNCORR_COUNT p) = (s.rd (F.PCS_FEC_UNCORR_COUNT p) + u) % 2 ^ (F.PCS_FEC_UNCORR_COUNT p).width ∧
      (t.px p).winCorr = 0 ∧ (t.px p).winBad = 0 ∧
      changes [F.PCS_FEC_CORR_COUNT p, F.PCS_FEC_UNCORR_COUNT p] s { t with portX := s.portX }) ∧
    (s.portState p = 3 → s.strait p = true → s.on F.DBG_CTL_ARM = false → s.swapOf p = none → u < max 1 (s.rd (F.PORT_FEC_DEG_UNCORR_MAX p)) → Runs (.fecDegradeWindow p corr uncorr) s fun t =>
      t.on (F.PORT_STATUS_FEC_DEG p) = false ∧ (t.px p).degRun = 0 ∧ t.portState p = 3) ∧
    (s.portState p = 3 → s.strait p = true → s.swapOf p = none → max 1 (s.rd (F.PORT_FEC_DEG_UNCORR_MAX p)) ≤ u → s.rd (F.PORT_FEC_DEG_WIN p) = 0 → Runs (.fecDegradeWindow p corr uncorr) s fun t =>
      t.on (F.PORT_STATUS_FEC_DEG p) = true ∧ (t.px p).degRun = (s.px p).degRun + 1 ∧ t.portState p = 3) ∧
    (s.portState p = 3 → s.strait p = true → s.swapOf p = none → max 1 (s.rd (F.PORT_FEC_DEG_UNCORR_MAX p)) ≤ u → s.rd (F.PORT_FEC_DEG_WIN p) = 1 → Runs (.fecDegradeWindow p corr uncorr) s fun t =>
      t.portState p = 2 ∧ t.rd (F.PORT_STATUS_CAUSE p) = 2 ∧ t.intBit .mac (p / 32) 3 = true)) ∧
  (s.strait p = false ∨ s.portLive p = false ∨ s.helloDue p = false → Runs (.helloSend p) s fun t => t = s) ∧
  (s.strait p = true → s.portState p = 3 → s.helloDue p = true → Runs (.helloSend p) s fun t => t = s.sendHello p ∧
    (t.px p).helloSeq = ((s.px p).helloSeq + 1) % 65536 ∧ (t.px p).helloSent = some (s.now, s.helloFields p) ∧
    t.rd (F.CNT_MIB_COUNT (64 * p + 33)) = (s.rd (F.CNT_MIB_COUNT (64 * p + 33)) + 1) % 2 ^ 64) ∧
  (s.strait p = true → s.portState p = 4 → s.helloDue p = true → Runs (.helloSend p) s fun t => (t.px p).waking = true ∧ (t.px p).helloSent = (s.px p).helloSent ∧ t.regs = s.regs) ∧
  (∀ frame coding, ∀ cls, cls = s.frameClass p frame coding → ∀ mib, mib = (fun (t : State) (k : Nat) => t.rd (F.CNT_MIB_COUNT (64 * p + k))) →
    (s.portState p ≠ 3 ∨ s.isHello p frame = false → Runs (.helloReceive p frame coding) s fun t => t = s) ∧
    (s.portState p = 3 → s.isHello p frame = true → cls = some 7 → Runs (.helloReceive p frame coding) s fun t =>
      mib t 7 = (mib s 7 + 1) % 2 ^ 64 ∧ (t.px p).lastFrame = s.now ∧ t.rd (F.PORT_PARTNER_ID_ID p) = s.rd (F.PORT_PARTNER_ID_ID p) ∧
      t.rd (F.HELLO_UNTRUSTED_COUNT p) = s.rd (F.HELLO_UNTRUSTED_COUNT p)) ∧
    (s.portState p = 3 → s.isHello p frame = true → cls ≠ some 7 → s.on (F.PORT_CFG_TRUSTED p) = false → Runs (.helloReceive p frame coding) s fun t =>
      t.rd (F.HELLO_UNTRUSTED_COUNT p) = min (s.rd (F.HELLO_UNTRUSTED_COUNT p) + 1) (2 ^ (F.HELLO_UNTRUSTED_COUNT p).width - 1) ∧
      (t.px p).lastFrame = s.now ∧ t.rd (F.PORT_PARTNER_ID_ID p) = s.rd (F.PORT_PARTNER_ID_ID p)) ∧
    (s.portState p = 3 → s.isHello p frame = true → s.on (F.PORT_CFG_TRUSTED p) = true → cls = none → beAt frame 14 1 = 1 → beAt frame 15 1 = 1 → Runs (.helloReceive p frame coding) s fun t =>
      t.on (F.PORT_PARTNER_STATUS_VALID p) = true ∧ t.rd (F.PORT_PARTNER_STATUS_SOURCE p) = 1 ∧ t.rd (F.PORT_PARTNER_ID_ID p) = beAt frame 18 4 ∧
      t.on (F.PORT_PARTNER_STATUS_MISMATCH p) = (beAt frame 32 1 ≠ s.portWidth p) ∧ (t.px p).helloAt = s.now ∧ t.portState p = 3) ∧
    (s.portState p ≠ 3 ∨ isMacControl frame = false → Runs (.macControlReceive p frame coding) s fun t => t = s) ∧
    (s.portState p = 3 → isMacControl frame = true →
      (∀ k, cls = some k → Runs (.macControlReceive p frame coding) s fun t => mib t k = (mib s k + 1) % 2 ^ 64 ∧ mib t 10 = mib s 10 ∧
        t.rd (F.MAC_PFC_STATUS_RX_PAUSED p) = s.rd (F.MAC_PFC_STATUS_RX_PAUSED p) ∧ t.pauseEnd = s.pauseEnd) ∧
      (cls = none → ∀ was, was = s.rd (F.MAC_PFC_STATUS_RX_PAUSED p) →
        (beAt frame 14 2 = 1 → s.on (F.MAC_PFC_CFG_LEGACY_RX p) = true → ∀ q, q = beAt frame 16 2 → Runs (.macControlReceive p frame coding) s fun t =>
          mib t 10 = (mib s 10 + 1) % 2 ^ 64 ∧ mib t 11 = (mib s 11 + 1) % 2 ^ 64 ∧
          ∀ g : Fin 8, bit (t.rd (F.MAC_PFC_STATUS_RX_PAUSED p)) g = decide (q ≠ 0) ∧ mget t.pauseEnd (key2 p g) 0 = (if q = 0 then 0 else s.now + s.quantaTicks p q)) ∧
        (beAt frame 14 2 = 1 → s.on (F.MAC_PFC_CFG_LEGACY_RX p) = false → Runs (.macControlReceive p frame coding) s fun t =>
          mib t 11 = (mib s 11 + 1) % 2 ^ 64 ∧ t.rd (F.MAC_PFC_STATUS_RX_PAUSED p) = was ∧ t.pauseEnd = s.pauseEnd) ∧
        (beAt frame 14 2 = 0x0101 → Runs (.macControlReceive p frame coding) s fun t => mib t 10 = (mib s 10 + 1) % 2 ^ 64 ∧
          ∀ g : Fin 8, ∀ q, q = beAt frame (18 + 2 * g.val) 2 →
            (bit (beAt frame 16 2) g = true → bit (s.rd (F.MAC_PFC_CFG_RX_EN p)) g = true →
              bit (t.rd (F.MAC_PFC_STATUS_RX_PAUSED p)) g = decide (q ≠ 0) ∧ mget t.pauseEnd (key2 p g) 0 = (if q = 0 then 0 else s.now + s.quantaTicks p q)) ∧
            (bit (beAt frame 16 2) g = false ∨ bit (s.rd (F.MAC_PFC_CFG_RX_EN p)) g = false →
              bit (t.rd (F.MAC_PFC_STATUS_RX_PAUSED p)) g = bit was g ∧ mget t.pauseEnd (key2 p g) 0 = mget s.pauseEnd (key2 p g) 0))))) ∧
  (s.strait p = true → s.on (F.PORT_PARTNER_STATUS_VALID p) = true → 4 * max 1 (s.px p).helloPeriod * 16000000 ≤ s.now - (s.px p).helloAt → Runs (.partnerExpire p) s fun t =>
    t.on (F.PORT_PARTNER_STATUS_VALID p) = false ∧ t.intBit .mac (p / 32) 2 = true ∧ bit (t.rd (F.MAC_PARTNER_CHG_PORTS (p / 32))) (p % 32) = true) ∧
  (s.strait p = false ∨ s.on (F.PORT_PARTNER_STATUS_VALID p) = false → Runs (.partnerExpire p) s fun t => t = s) ∧
  (s.now - (s.px p).helloAt < 4 * max 1 (s.px p).helloPeriod * 16000000 → Runs (.partnerExpire p) s fun t => t = s) ∧
  (∀ g : Fin 8,
    (bit (s.rd (F.MAC_PFC_STATUS_RX_PAUSED p)) g = false ∨ s.now < mget s.pauseEnd (key2 p g) 0 → Runs (.pauseExpire p g) s fun t => t = s) ∧
    (bit (s.rd (F.MAC_PFC_STATUS_RX_PAUSED p)) g = true → mget s.pauseEnd (key2 p g) 0 ≤ s.now → Runs (.pauseExpire p g) s fun t =>
      bit (t.rd (F.MAC_PFC_STATUS_RX_PAUSED p)) g = false ∧ mget t.pauseEnd (key2 p g) 0 = 0 ∧
      (∀ j : Fin 8, j ≠ g → bit (t.rd (F.MAC_PFC_STATUS_RX_PAUSED p)) j = bit (s.rd (F.MAC_PFC_STATUS_RX_PAUSED p)) j)))

/-- PLL_TAKEOVER, PLL_RELOCK_DONE, PLL_RELOCK_TIMEOUT, PLL_ALIGNED, CLK_SWITCH, CLK_REF_WRITE, REFCLK_STATUS_CHANGE (R363 to R365): a
standby that is STANDBY and ALIGNED takes the clock tree over, without one the loss is FATAL; a PLL relocks within 10 ms or is FAILED; a
switch without a ready standby is discarded. It rests on choices of the model too: log entries 31, 45. -/
def Obligations.ClockTree : Prop := ∀ (s : State),
  (s.standbyReady = true → Runs (.pllTakeover false) s fun t =>
    t.rd (pllStateF s.standbyPll) = 0 ∧ t.rd (pllStateF s.activePll) = 2 ∧ mget t.pwr.relock s.activePll none = some (s.now, true) ∧
    t.on F.CLK_STATUS_ALIGNED = false ∧ t.rd F.CLK_STATUS_TAKEOVERS = min (s.rd F.CLK_STATUS_TAKEOVERS + 1) (2 ^ F.CLK_STATUS_TAKEOVERS.width - 1) ∧ t.intBit .clk 0 0 = true ∧
    signals [F.CLK_STATUS_A_STATE, F.CLK_STATUS_B_STATE, F.CLK_STATUS_ALIGNED, F.CLK_STATUS_TAKEOVERS, F.CLK_INT_STATUS_BITS] s { t with pwr := s.pwr }) ∧
  (s.standbyReady = false → Runs (.pllTakeover false) s fun t =>
    t = ((s.wr (pllStateF s.activePll) 3).raise .clk 0 1).event fatal (codeOf .clk 0 1) s.activePll 0) ∧
  Runs (.pllTakeover true) s (fun t => t.on (refOkF (s.rd (pllRefF s.activePll))) = false ∧ t.intBit .clk 0 2 = true) ∧
  (∀ k : Fin 2,
    (mget s.pwr.relock k none = none → Runs (.pllRelockDone k) s (fun t => t = s) ∧ Runs (.pllRelockTimeout k) s (fun t => t = s)) ∧
    (∀ t0, mget s.pwr.relock k none = some (t0, true) → s.rd (pllStateF k) = 2 →
      (s.now - t0 ≤ 16000000 → Runs (.pllRelockDone k) s fun t => t = ((s.setRelock k none).wr (pllStateF k) 1).event corrected (codeOf .clk 0 0) k 0 ∧
        t.rd (pllStateF k) = 1 ∧ mget t.pwr.relock k none = none) ∧
      (s.now - t0 < 16000000 → Runs (.pllRelockTimeout k) s fun t => t = s) ∧
      (16000000 < s.now - t0 → Runs (.pllRelockDone k) s fun t => t = s) ∧
      (16000000 ≤ s.now - t0 → Runs (.pllRelockTimeout k) s fun t => t.rd (pllStateF k) = 3 ∧ mget t.spareMap (key2 7 k) 0 = 2 + (1 - k.val) ∧ mget t.pwr.relock k none = none))) ∧
  (s.rd (pllStateF s.standbyPll) = 1 → Runs .pllAligned s fun t => t.on F.CLK_STATUS_ALIGNED = true ∧ changes [F.CLK_STATUS_ALIGNED] s t) ∧
  (∀ t0, s.rd (pllStateF s.standbyPll) = 2 → mget s.pwr.relock s.standbyPll none = some (t0, true) → Runs .pllAligned s fun t => t = s) ∧
  (∀ t0, mget s.pwr.relock s.standbyPll none = some (t0, false) → s.rd (pllStateF s.standbyPll) = 2 → Runs .pllAligned s fun t =>
    t.rd (pllStateF s.standbyPll) = 1 ∧ t.on F.CLK_STATUS_ALIGNED = true) ∧
  (∀ q, s.grants q true = true →
    (s.standbyReady = true → Runs (.clkSwitch q) s fun t => t.rd (pllStateF s.standbyPll) = 0 ∧ t.rd (pllStateF s.activePll) = 1 ∧ t.intBit .clk 0 0 = true ∧ t.pwr = s.pwr) ∧
    (s.standbyReady = false → Runs (.clkSwitch q) s (discarded q (regAddr .CLK_CFG 0) (s.rd (pllStateF s.standbyPll)) 0 s)) ∧
    (∀ a b, ∀ v, v = (if s.activePll = 0 then a else b) → ∀ w, w = (if s.activePll = 0 then b else a) →
      (s.on (pllRefF s.activePll) = v → s.on (pllRefF s.standbyPll) = w → Runs (.clkRefWrite q a b) s fun t => t = s) ∧
      (s.on (pllRefF s.activePll) ≠ v → s.on (pllRefF s.standbyPll) = w → Runs (.clkRefWrite q a b) s (discarded q (regAddr .CLK_CFG 0) 0 0 s)) ∧
      (s.on (pllRefF s.activePll) = v → s.on (pllRefF s.standbyPll) ≠ w → Runs (.clkRefWrite q a b) s fun t =>
        t.on (pllRefF s.standbyPll) = w ∧ t.on F.CLK_STATUS_ALIGNED = false ∧ (s.rd (pllStateF s.standbyPll) = 1 → t.rd (pllStateF s.standbyPll) = 2)))) ∧
  (∀ (r : Fin 2), ∀ lock,
    (s.on (refOkF r) = false → Runs (.refclkStatusChange r true true) s fun t => t.on (refOkF r) = true ∧ changes [refOkF r] s t) ∧
    (s.on (refOkF r) = true → Runs (.refclkStatusChange r false lock) s fun t => t.on (refOkF r) = false ∧ t.intBit .clk 0 2 = true) ∧
    (∀ ok, Runs (.refclkStatusChange r ok false) s fun t => t.on F.CLK_STATUS_ALIGNED = false ∧ (s.rd (pllStateF s.standbyPll) = 1 → t.rd (pllStateF s.standbyPll) = 2)))

/-- DIVIDER_SWITCH, POWER_CONTROL_INTERVAL, CAP_TAKEBACK, BOOST_ENTRY, PWR_MODE_WRITE, PWR_SAVE_WRITE, PWRFAIL_ASSERT, VR_ALERT,
SAVE_EXIT, VOLT_TRIM (R363, R366, R369 to R373, R376, R385, R387, R487): when the core divider switches, what a control interval records
and has yield, and what moves the power manager between its states. It rests on choices of the model too: log entry 48. -/
def Obligations.PowerControl : Prop := ∀ (s : State),
  (∀ mv : Fin 1024,
    (s.rd F.CLK_CORE_PENDING = 7 ∨ s.on F.CLK_CORE_STRETCH = true → Runs (.dividerSwitch mv) s fun t => t = s) ∧
    (s.on F.CLK_CORE_STRETCH = false → s.rd F.CLK_CORE_PENDING ≠ 7 → s.rd F.CLK_CORE_DIV < s.rd F.CLK_CORE_PENDING → Runs (.dividerSwitch mv) s fun t =>
      t.rd F.CLK_CORE_DIV = s.rd F.CLK_CORE_PENDING ∧ t.rd F.CLK_CORE_PENDING = 7 ∧ t.on F.CLK_CORE_DEFERRED_BY_DROOP = false ∧
      t.rd F.CLK_CORE_CHANGES = min (s.rd F.CLK_CORE_CHANGES + 1) (2 ^ F.CLK_CORE_CHANGES.width - 1) ∧
      (t.pwr.target : Int) = max (s.voltBounds.1 : Int) (min (s.voltBounds.2 : Int) (nominalMv (s.rd F.CLK_CORE_PENDING)))) ∧
    (s.on F.CLK_CORE_STRETCH = false → s.rd F.CLK_CORE_PENDING < s.rd F.CLK_CORE_DIV → s.pwr.droopAt.any (fun t => s.now - t < 8000) = false → s.pwr.target ≤ mv + 10 → 32000 ≤ s.now - s.pwr.raisedAt →
      Runs (.dividerSwitch mv) s fun t => t.rd F.CLK_CORE_DIV = s.rd F.CLK_CORE_PENDING ∧ t.rd F.CLK_CORE_PENDING = 7 ∧
        changes [F.PWR_POWER_VCORE, F.CLK_CORE_DIV, F.CLK_CORE_PENDING, F.CLK_CORE_DEFERRED_BY_DROOP, F.CLK_CORE_CHANGES] s t) ∧
    (s.rd F.CLK_CORE_PENDING ≤ s.rd F.CLK_CORE_DIV → s.pwr.droopAt.any (fun t => s.now - t < 8000) = true ∨ mv + 10 < s.pwr.target ∨ s.now - s.pwr.raisedAt < 32000 → Runs (.dividerSwitch mv) s fun t => t = s)) ∧
  (∀ r : PwrReading,
    (s.due .control 0 16000 = false → Runs (.powerControlInterval r) s fun t => t = s) ∧
    (s.due .control 0 16000 = true → Runs (.powerControlInterval r) s fun t =>
      t.rd F.PWR_POWER_TOTAL = r.power % 2 ^ F.PWR_POWER_TOTAL.width ∧ t.rd (F.PWR_DOM_STATUS_POWER 0) = r.links % 2 ^ (F.PWR_DOM_STATUS_POWER 0).width ∧
      t.rd (F.PWR_DOM_STATUS_POWER 1) = r.memory % 2 ^ (F.PWR_DOM_STATUS_POWER 1).width ∧ t.rd (F.PWR_DOM_STATUS_POWER 2) = r.compute % 2 ^ (F.PWR_DOM_STATUS_POWER 2).width ∧
      t.pwr.phase = (s.pwr.phase + 1) % 8 ∧ t.pwr.grantNext = none) ∧
    (∀ d, s.rd F.PWR_CAP_EFF_CAP < r.power → s.nextYield = some d → s.steps d < 7 →
      (s.capInterval r).steps d = s.steps d + 1 ∧ (s.capInterval r).pwr.yields = d :: s.pwr.yields ∧ (s.capInterval r).on F.PWR_STATUS_CAP_UNMET = false) ∧
    (s.rd F.PWR_CAP_EFF_CAP < r.power → s.nextYield = none → (s.capInterval r).on F.PWR_STATUS_CAP_UNMET = true ∧ (s.capInterval r).intBit .pwr 0 1 = (s.intBit .pwr 0 1 || !s.on F.PWR_STATUS_CAP_UNMET)) ∧
    (r.power ≤ s.rd F.PWR_CAP_EFF_CAP → (s.capInterval r).on F.PWR_STATUS_CAP_UNMET = false ∧ (s.capInterval r).pwr.yields = s.pwr.yields)) ∧
  (s.pwr.under = none ∨ s.due .takeback 0 1600000 = false ∨ s.pwr.yields.length ≤ s.pwr.thermYield → Runs .capTakeback s fun t => t = s) ∧
  (∀ t0, s.pwr.under = some t0 → s.now - t0 < 1600000 → Runs .capTakeback s fun t => t = s) ∧
  (∀ t0, s.pwr.under = some t0 → 1600000 ≤ s.now - t0 → s.due .takeback 0 1600000 = true → s.pwr.thermYield < s.pwr.yields.length → Runs .capTakeback s fun t =>
    t.pwr.yields = s.pwr.yields.tail ∧ t.steps (s.pwr.yields.headD 0) = s.steps (s.pwr.yields.headD 0) - 1) ∧
  (s.pwr.boostFrom = none ∨ s.pwrState ≠ 0 → Runs .boostEntry s fun t => t = s) ∧
  (∀ t0, s.pwr.boostFrom = some t0 → s.now - t0 < 160000 → Runs .boostEntry s fun t => t = s) ∧
  (∀ t0, s.pwr.boostFrom = some t0 → 160000 ≤ s.now - t0 → s.pwrState = 0 → Runs .boostEntry s fun t =>
    t.pwrState = 2 ∧ t.intBit .pwr 0 0 = true ∧ (s.pwr.thermSteps = [] → s.rd F.CLK_CORE_DIV ≠ 0 → t.rd F.CLK_CORE_PENDING = 0)) ∧
  (∀ q, s.grants q true = true →
    (∀ mode,
      (s.on F.PWR_CFG_MODE = mode → Runs (.pwrModeWrite q mode) s fun t => t = s) ∧
      (s.on F.PWR_CFG_MODE ≠ mode → s.pwrState = 4 → Runs (.pwrModeWrite q mode) s (discarded q (regAddr .PWR_CFG 0) 4 0 s))) ∧
    (s.on F.PWR_CFG_MODE = false → s.pwrState ≠ 4 → Runs (.pwrModeWrite q true) s fun t =>
      t.on F.PWR_CFG_MODE = true ∧ t.pwrState = 3 ∧ t.steps 2 = 0 ∧ (s.pwr.thermSteps = [] → s.rd F.CLK_CORE_DIV ≠ 1 → t.rd F.CLK_CORE_PENDING = 1)) ∧
    (s.on F.PWR_CFG_MODE = true → s.pwrState ≠ 4 → Runs (.pwrModeWrite q false) s fun t =>
      t.on F.PWR_CFG_MODE = false ∧ t.steps 2 = 0 ∧ t.pwr.yields = s.pwr.yields.filter (fun d => d ≠ 2) ∧ t.pwrState = (if t.pwr.yields = [] then 0 else 1)) ∧
    Runs (.pwrSaveWrite q false) s (fun t => t.on F.PWR_CFG_SAVE = false ∧ changes [F.PWR_CFG_SAVE] s t) ∧
    Runs (.pwrSaveWrite q true) s fun t => t.on F.PWR_CFG_SAVE = true ∧ t.pwrState = 4 ∧ (s.pwrState ≠ 4 → s.rd F.CLK_CORE_DIV ≠ 4 → t.rd F.CLK_CORE_PENDING = 4)) ∧
  Runs .pwrfailAssert s (fun t => t.on F.PWR_STATUS_PWRFAIL = true ∧ t.pwr.failAt = s.now ∧ t.pwrState = 4 ∧
    (s.ready = true → s.keep.save = none → s.on F.KEEP_CFG_PWRFAIL_EN = true → t.keep.save.map (fun x => x.trigger) = some 0) ∧
    (s.ready = false ∨ s.on F.KEEP_CFG_PWRFAIL_EN = false → t.keep = s.keep)) ∧
  Runs .vrAlert s (fun t => t = s.pwrfail ∧ t.on F.PWR_STATUS_PWRFAIL = true ∧ t.pwr.failAt = s.now ∧ t.pwrState = 4 ∧ (s.ready = false ∨ s.on F.KEEP_CFG_PWRFAIL_EN = false → t.keep = s.keep)) ∧
  (s.pwrState ≠ 4 ∨ s.on F.PWR_CFG_SAVE = true → Runs .saveExit s fun t => t = s) ∧
  (s.on F.PWR_STATUS_PWRFAIL = true → s.now - s.pwr.failAt < 16000000 → Runs .saveExit s fun t => t = s) ∧
  (s.pwrState = 4 → s.on F.PWR_CFG_SAVE = false → s.on F.PWR_STATUS_PWRFAIL = false ∨ 16000000 ≤ s.now - s.pwr.failAt → Runs .saveExit s fun t =>
    t.on F.PWR_STATUS_PWRFAIL = false ∧ t.pwr.yields = [] ∧ t.pwrState = (if s.on F.PWR_CFG_MODE then 3 else 0)) ∧
  (∀ want, s.due .trim 0 160000 = false → Runs (.voltTrim want) s fun t => t = s) ∧
  (s.due .trim 0 160000 = true → Runs (.voltTrim none) s fun t => t.pwr.target = s.pwr.target) ∧
  (∀ up, ∀ v : Int, v = (s.pwr.target : Int) + (if up then 5 else -5) → ∀ c : Int, c = max (s.voltBounds.1 : Int) (min (s.voltBounds.2 : Int) v) → s.due .trim 0 160000 = true → Runs (.voltTrim (some up)) s fun t =>
    (t.pwr.target : Int) = c ∧ (c ≠ v → t.on F.PWR_STATUS_VOLT_PINNED = true ∧
      t.rd F.PWR_PINNED_CNT_VOLT = min (s.rd F.PWR_PINNED_CNT_VOLT + 1) (2 ^ F.PWR_PINNED_CNT_VOLT.width - 1)))

/-- DROOP_DETECT, DROOP_STRETCH_END, CURRENT_LIMIT, DUTY_RISE, THERMAL_READ, THROTTLE_STEP, AGEING_MEASURE (R374 to R378, R438): what a
droop, an excess current, heat and age do. It rests on choices of the model too: log entries 49, 106. -/
def Obligations.PowerProtect : Prop := ∀ (s : State),
  (∀ det : Fin 64, Runs (.droopDetect det) s fun t =>
    t.pwr.droopAt = some s.now ∧ t.on F.CLK_CORE_STRETCH = true ∧ (s.rd F.CLK_CORE_PENDING < s.rd F.CLK_CORE_DIV → t.on F.CLK_CORE_DEFERRED_BY_DROOP = true) ∧
    (s.on F.CLK_CORE_STRETCH = true → t.rd F.PWR_DROOP_CNT_COUNT = s.rd F.PWR_DROOP_CNT_COUNT ∧ t.pwr.stretchAt = s.pwr.stretchAt) ∧
    (s.on F.CLK_CORE_STRETCH = false → t.rd F.PWR_DROOP_CNT_COUNT = min (s.rd F.PWR_DROOP_CNT_COUNT + 1) (2 ^ F.PWR_DROOP_CNT_COUNT.width - 1) ∧ t.pwr.stretchAt = s.now ∧
      t.rd F.PWR_OVERRIDE_CNT_DROOP = min (s.rd F.PWR_OVERRIDE_CNT_DROOP + 1) (2 ^ F.PWR_OVERRIDE_CNT_DROOP.width - 1) ∧ t.intBit .pwr 0 3 = true)) ∧
  (∀ h, h = stretchHalves (s.rd F.CLK_CORE_DIV) →
    (s.on F.CLK_CORE_STRETCH = true → max 64 (s.rd F.PWR_DROOP_CFG_MIN_CYCLES) * h ≤ (s.now - s.pwr.stretchAt) * 8 → 64 * h ≤ (s.now - s.pwr.droopAt.getD 0) * 8 →
      Runs .droopStretchEnd s fun t => t.on F.CLK_CORE_STRETCH = false ∧ changes [F.CLK_CORE_STRETCH] s t) ∧
    ((s.now - s.pwr.stretchAt) * 8 < max 64 (s.rd F.PWR_DROOP_CFG_MIN_CYCLES) * h ∨ (s.now - s.pwr.droopAt.getD 0) * 8 < 64 * h → Runs .droopStretchEnd s fun t => t = s)) ∧
  (∀ amps watts,
    (amps < min 1000 (s.rd F.PWR_IMAX_IMAX) → watts ≤ 1600 → Runs (.currentLimit amps watts) s fun t => t = s) ∧
    (min 1000 (s.rd F.PWR_IMAX_IMAX) ≤ amps ∨ 1600 < watts → Runs (.currentLimit amps watts) s fun t =>
      t.on F.PWR_STATUS_ILIMIT = true ∧ t.rd F.PWR_STATUS_DUTY = 4 ∧ t.pwr.dutyLimit = 4 ∧ t.pwr.limitAt = s.now ∧
      (s.on F.PWR_STATUS_ILIMIT = true → t.rd F.PWR_OVERRIDE_CNT_ILIMIT = s.rd F.PWR_OVERRIDE_CNT_ILIMIT ∧ t.rd F.PWR_OVERRIDE_CNT_PACKAGE = s.rd F.PWR_OVERRIDE_CNT_PACKAGE) ∧
      (s.on F.PWR_STATUS_ILIMIT = false → min 1000 (s.rd F.PWR_IMAX_IMAX) ≤ amps →
        t.rd F.PWR_OVERRIDE_CNT_ILIMIT = min (s.rd F.PWR_OVERRIDE_CNT_ILIMIT + 1) (2 ^ F.PWR_OVERRIDE_CNT_ILIMIT.width - 1)))) ∧
  (s.on F.PWR_STATUS_ILIMIT = false ∨ s.now - s.pwr.limitAt < 16000 → Runs .dutyRise s fun t => t = s) ∧
  (s.on F.PWR_STATUS_ILIMIT = true → 16000 ≤ s.now - s.pwr.limitAt → Runs .dutyRise s fun t =>
    t.pwr.dutyLimit = min 16 (s.pwr.dutyLimit + 1) ∧ t.pwr.limitAt = s.now ∧ (t.on F.PWR_STATUS_ILIMIT = true ↔ s.pwr.dutyLimit < 15) ∧ t.rd F.PWR_STATUS_DUTY = t.dutyNow % 2 ^ F.PWR_STATUS_DUTY.width) ∧
  (∀ temps : List (Fin 256),
    (s.due .thermal 0 160000 = false ∨ temps.length ≠ 128 → Runs (.thermalRead temps) s fun t => t = s) ∧
    (s.due .thermal 0 160000 = true → temps.length = 128 → Runs (.thermalRead temps) s fun t =>
      (∀ k : Fin 128, t.rd (F.PWR_SENSOR_TEMP k) = (temps.getD k 0).val % 2 ^ (F.PWR_SENSOR_TEMP 0).width) ∧
      (∀ k : Fin 128, (temps.getD k 0).val ≤ t.rd F.PWR_THERM_STATUS_TJ) ∧ (temps.getD (t.rd F.PWR_THERM_STATUS_SENSOR) 0).val = t.rd F.PWR_THERM_STATUS_TJ ∧
      (s.throttleAt ≤ t.rd F.PWR_THERM_STATUS_TJ → t.on F.PWR_STATUS_THERM_THROTTLE = true) ∧ (115 ≤ t.rd F.PWR_THERM_STATUS_TJ → t.thermTrip = true) ∧
      (t.rd F.PWR_THERM_STATUS_TJ < 115 → t.thermTrip = s.thermTrip))) ∧
  (s.on F.PWR_STATUS_THERM_THROTTLE = false ∨ s.due .throttle 0 1600000 = false → Runs .throttleStep s fun t => t = s) ∧
  (s.on F.PWR_STATUS_THERM_THROTTLE = true → s.due .throttle 0 1600000 = true →
    (s.tooHot = true → s.dutyNow = 4 → s.nextYield = none → s.policyCode + s.thermCodes < 4 → Runs .throttleStep s fun t =>
      t.pwr.thermSteps = true :: s.pwr.thermSteps ∧ (s.rd F.CLK_CORE_DIV ≠ s.policyCode + s.thermCodes + 1 → t.rd F.CLK_CORE_PENDING = s.policyCode + s.thermCodes + 1)) ∧
    (s.coolEnough = true → s.pwr.thermSteps ≠ [] → Runs .throttleStep s fun t => t.pwr.thermSteps = s.pwr.thermSteps.tail ∧ t.on F.PWR_STATUS_THERM_THROTTLE = true) ∧
    (s.coolEnough = true → s.pwr.thermSteps = [] → s.pwr.thermYield = 0 ∨ s.pwr.yields = [] → Runs .throttleStep s fun t => t.on F.PWR_STATUS_THERM_THROTTLE = false)) ∧
  (∀ values : List (Fin 65536),
    (s.due .age 0 1600000000 = false ∨ values.length ≠ 256 → Runs (.ageingMeasure values) s fun t => t = s) ∧
    (s.due .age 0 1600000000 = true → values.length = 256 → Runs (.ageingMeasure values) s fun t => ∀ k : Fin 256,
      t.rd (F.PWR_AGE_DELAY k) = (values.getD k 0).val % 2 ^ (F.PWR_AGE_DELAY 0).width ∧ (mget t.ras.ages k {}).now = (values.getD k 0).val ∧
      (mget t.ras.ages k {}).largest = max (mget s.ras.ages k {}).largest (values.getD k 0).val))

/-- KEEP_SAVE_START, VKEEP_LOW, TEST_SAVE, KEEP_SAVE_DONE, KEEP_SHADOW_UPDATE (R386, R387, R390, R404): an enabled trigger starts a save
once the boot is READY, which keeps the shadow as it stood; the save's end fills the next of 16 slots. It rests on choices of the model
too: log entry 30. -/
def Obligations.KeepSaves : Prop := ∀ (s : State),
  (∀ k : Fin 3,
    (s.ready = false ∨ (k = 0 ∧ s.on F.KEEP_CFG_PWRFAIL_EN = false) ∨ (k = 1 ∧ s.on F.KEEP_CFG_VKEEP_EN = false) ∨ (k = 2 ∧ s.on F.KEEP_CFG_THERM_EN = false) → Runs (.keepSaveStart k) s fun t => t = s) ∧
    (s.ready = true → s.keep.save = none → (k = 0 ∧ s.on F.KEEP_CFG_PWRFAIL_EN = true) ∨ (k = 1 ∧ s.on F.KEEP_CFG_VKEEP_EN = true) ∨ (k = 2 ∧ s.on F.KEEP_CFG_THERM_EN = true) → Runs (.keepSaveStart k) s fun t =>
      t.keep = { s.keep with saveAt := s.now, save := some { seq := s.keep.seq + 1, trigger := k, sec := s.domA.sec, ns := s.domA.ns, secs := s.shadow } } ∧ { t with keep := s.keep } = s) ∧
    (∀ x, s.keep.save = some x → s.ready = true → k ≠ 2 → Runs (.keepSaveStart k) s fun t => t = s) ∧
    (∀ x, s.keep.save = some x → s.ready = true → s.on F.KEEP_CFG_THERM_EN = true → s.now - s.keep.saveAt < 1600 → Runs (.keepSaveStart 2) s fun t =>
      t.keep.save = some { x with trigger := 2 } ∧ { t with keep := s.keep } = s)) ∧
  (∀ mv : Fin 3000,
    (s.on F.KEEP_CFG_VKEEP_EN = false → Runs (.vkeepLow mv) s fun t => t.rd F.KEEP_STATUS_VKEEP = mv.val % 2 ^ F.KEEP_STATUS_VKEEP.width ∧ changes [F.KEEP_STATUS_VKEEP] s t) ∧
    (s.on F.KEEP_CFG_VKEEP_EN = true → s.ready = true → s.keep.save = none → Runs (.vkeepLow mv) s fun t =>
      t.keep.save.map (fun x => x.trigger) = some 1 ∧ changes [F.KEEP_STATUS_VKEEP] s { t with keep := s.keep })) ∧
  (∀ q, s.grants q true = true →
    (∀ x, s.keep.save = some x → Runs (.testSave q) s (discarded q (regAddr .KEEP_CFG 0) 1 0 s)) ∧
    (s.keep.save = none → s.ready = false → Runs (.testSave q) s fun t => t = s) ∧
    (s.keep.save = none → s.ready = true → Runs (.testSave q) s fun t =>
      t.keep = { s.keep with saveAt := s.now, save := some { seq := s.keep.seq + 1, trigger := 3, sec := s.domA.sec, ns := s.domA.ns, secs := s.shadow } } ∧ { t with keep := s.keep } = s)) ∧
  (∀ n late : Fin 8,
    (s.keep.save = none → Runs (.keepSaveDone n late) s fun t => t = s) ∧
    (∀ x, s.keep.save = some x → Runs (.keepSaveDone n late) s fun t =>
      t.keep.save = none ∧ t.keep.next = (s.keep.next + 1) % 16 ∧ t.keep.lastSlot = s.keep.next ∧ t.keep.seq = x.seq ∧
      (∀ y, mget t.keep.slots s.keep.next none = some y → y.seq = x.seq ∧ y.trigger = x.trigger ∧
        (∀ k : Fin 7, mfind y.secs k = if k.val < n then some (if k.val < late then mget x.secs k {} else s.shadowSec k) else none)) ∧
      (mget t.keep.slots s.keep.next none).isSome = true ∧
      t.rd F.KEEP_STATUS_LAST = (if n = 7 then 1 else if n = 0 then 3 else 2) ∧
      t.rd F.KEEP_SAVES_COMPLETE = (if n = 7 then min (s.rd F.KEEP_SAVES_COMPLETE + 1) (2 ^ F.KEEP_SAVES_COMPLETE.width - 1) else s.rd F.KEEP_SAVES_COMPLETE) ∧
      t.rd F.KEEP_SAVES_PARTIAL = (if 0 < n ∧ n < 7 then min (s.rd F.KEEP_SAVES_PARTIAL + 1) (2 ^ F.KEEP_SAVES_PARTIAL.width - 1) else s.rd F.KEEP_SAVES_PARTIAL))) ∧
  Runs (.keepShadowUpdate true) s (fun t => t.keep.wear = some s.wearSec ∧ { t with keep := { t.keep with wear := s.keep.wear } } = s) ∧
  Runs (.keepShadowUpdate false) s fun t => t.keep.time = some s.keepTime ∧ { t with keep := { t.keep with time := s.keep.time } } = s

/-- ANNOUNCE_SEND, ANNOUNCE_RECEIVE, BEST_EXPIRE (R379 to R381): a member announces every 100 ms, keeps the bests that trusted links of
its own job bring, drops each after 350 ms, and takes its role from the lowest pair. REPORT_SEND, REPORT_RECEIVE, LAG_SEND, LAG_RECEIVE
(R380 to R383, R385): a member reports on its up link each period and tells when COMPUTE is held back; what arrives goes up the tree or to
the coordinator. -/
def Obligations.FerryTree : Prop :=
  (∀ (s : State),
  (s.on F.PWR_CFG_FERRY_EN = false ∨ s.due .announce 0 160000000 = false → Runs .announceSend s fun t => t = s) ∧
  (∀ b, b = s.bestPair.getD (s.ownPrio, s.fuses.serial) → ∀ h, h = ((s.bestLink b).map (fun e => (e.2.hops, e.2.total))).getD (0, s.rd F.PWR_FERRY_TOTAL_TOTAL) →
    s.on F.PWR_CFG_FERRY_EN = true → s.due .announce 0 160000000 = true → Runs .announceSend s fun t =>
      t = (s.ran .announce 0 s.now).ferrySend s.ferryPorts ferryAnnounce 0 (beBytes 1 b.1 ++ beBytes 1 h.1 ++ beBytes 2 0 ++ beBytes 4 h.2 ++ beBytes 8 b.2) ∧
      mget t.pwr.seqs ferryAnnounce 0 = (mget s.pwr.seqs ferryAnnounce 0 + 1) % 2 ^ 32) ∧
  (∀ (p : Fin 512) (frame : Bytes),
    (s.portState p ≠ 3 ∨ beAt frame 12 2 ≠ s.rd F.PWR_FERRY_CFG_ETYPE ∨ beAt frame 15 1 ≠ ferryAnnounce → Runs (.announceReceive p frame) s fun t => t = s) ∧
    (s.portState p = 3 → beAt frame 12 2 = s.rd F.PWR_FERRY_CFG_ETYPE → beAt frame 15 1 = ferryAnnounce → fcsGood frame = true →
      (s.ferryLink p = false ∨ s.on (F.PORT_CFG_TRUSTED p) = false → Runs (.announceReceive p frame) s fun t =>
        t.rd F.FERRY_UNTRUSTED_COUNT = min (s.rd F.FERRY_UNTRUSTED_COUNT + 1) (2 ^ F.FERRY_UNTRUSTED_COUNT.width - 1) ∧ t.pwr = s.pwr ∧ (t.px p).lastFrame = s.now) ∧
      (s.ferryLink p = true → s.on (F.PORT_CFG_TRUSTED p) = true → beAt frame 18 4 ≠ s.rd F.PWR_FERRY_JOB_JOB → Runs (.announceReceive p frame) s fun t =>
        t.rd F.FERRY_FOREIGN_COUNT = min (s.rd F.FERRY_FOREIGN_COUNT + 1) (2 ^ F.FERRY_FOREIGN_COUNT.width - 1) ∧ t.pwr = s.pwr ∧ (t.px p).lastFrame = s.now) ∧
      (s.ferryLink p = true → s.on (F.PORT_CFG_TRUSTED p) = true → beAt frame 18 4 = s.rd F.PWR_FERRY_JOB_JOB → beAt frame 14 1 = 1 → Runs (.announceReceive p frame) s fun t =>
        mfind t.pwr.bests (key2 p (key2 (beAt frame 38 1) (beAt frame 46 8))) =
          some { prio := beAt frame 38 1, serial := beAt frame 46 8, hops := beAt frame 39 1 + 1, total := beAt frame 42 4, at_ := s.now } ∧ (t.px p).lastFrame = s.now))) ∧
  Runs .bestExpire s (fun t => t.pwr.bests = s.pwr.bests.filter (fun e => s.now - e.2.at_ < 560000000) ∧
    (s.on F.PWR_CFG_FERRY_EN = false → t.ferryRole = 0 ∧ t.upLink = 0x3FF ∧ t.rd F.PWR_FERRY_COORD_SERIAL = 0) ∧
    (∀ b, t.bestPair = some b → s.on F.PWR_CFG_FERRY_EN = true → t.rd F.PWR_FERRY_COORD_SERIAL = b.2 % 2 ^ F.PWR_FERRY_COORD_SERIAL.width ∧ (t.ferryRole = 1 ∨ t.ferryRole = 2)) ∧
    (∀ b, t.bestPair = some b → s.on F.PWR_CFG_FERRY_EN = true → t.bestLink b = none → t.ferryRole = 2 ∧ t.upLink = 0x3FF) ∧
    (s.on F.PWR_CFG_FERRY_EN = true → t.bestPair = none → t.ferryRole = 3 ∧ t.upLink = 0x3FF ∧ t.rd F.PWR_FERRY_COORD_SERIAL = 0))) ∧
  (∀ (s : State),
  (s.ferryRole ≠ 1 ∨ s.due .report 0 s.ferryPeriod = false → Runs .reportSend s fun t => t = s) ∧
  (s.ferryRole = 1 → s.due .report 0 s.ferryPeriod = true → Runs .reportSend s fun t =>
    t = ((s.ran .report 0 s.now).ferrySend [s.upLink] ferryReport s.reportEntries.length s.reportBody).updAtl (fun a => { a with reports := [] }) ∧
    t.atl.reports = [] ∧ mget t.pwr.seqs ferryReport 0 = (mget s.pwr.seqs ferryReport 0 + 1) % 2 ^ 32 ∧ t.ranAt .report 0 = s.now) ∧
  (s.on F.PWR_STATUS_HOLDING_OFF = false ∨ s.ferryRole = 0 ∨ s.due .lag 0 160000 = false → Runs .lagSend s fun t => t = s) ∧
  (s.on F.PWR_STATUS_HOLDING_OFF = true → s.due .lag 0 160000 = true →
    (s.ferryRole = 1 → Runs .lagSend s fun t =>
      t = (s.ran .lag 0 s.now).ferrySend [s.upLink] ferryLag 0 (beBytes 2 (s.rd F.PWR_CAP_EFF_CAP) ++ beBytes 2 (s.rd F.PWR_POWER_TOTAL)) ∧
      mget t.pwr.seqs ferryLag 0 = (mget s.pwr.seqs ferryLag 0 + 1) % 2 ^ 32 ∧ t.ranAt .lag 0 = s.now) ∧
    (s.ferryRole = 2 → Runs .lagSend s fun t => (mget t.pwr.members s.fuses.serial noMember).lag = true ∧ { t with timers := s.timers, pwr := s.pwr } = s)) ∧
  (∀ (p : Fin 512) (frame : Bytes),
    (s.ferryRx p ferryReport frame = none → Runs (.reportReceive p frame) s fun t => t = s) ∧
    (s.ferryRx p ferryLag frame = none → Runs (.lagReceive p frame) s fun t => t = s) ∧
    (∀ r, s.ferryRx p ferryReport frame = some r →
      (r.1 = false → Runs (.reportReceive p frame) s fun t => t = r.2) ∧
      (r.1 = true → s.on F.PWR_FERRY_CFG_SOFT_COORD = false → s.ferryRole = 1 → p.val ≠ s.upLink → Runs (.reportReceive p frame) s fun t => t = r.2.ferryDirect s.upLink frame) ∧
      (r.1 = true → s.on F.PWR_FERRY_CFG_SOFT_COORD = false → s.ferryRole = 1 → p.val = s.upLink → Runs (.reportReceive p frame) s fun t => t = r.2) ∧
      (r.1 = true → s.on F.PWR_FERRY_CFG_SOFT_COORD = false → s.ferryRole = 2 → s.pwr.seen.contains (beAt frame 22 8, ferryReport, beAt frame 30 4) = true → Runs (.reportReceive p frame) s fun t => t = r.2) ∧
      (r.1 = true → s.on F.PWR_FERRY_CFG_SOFT_COORD = false → s.ferryRole = 2 → s.pwr.seen.contains (beAt frame 22 8, ferryReport, beAt frame 30 4) = false → beAt frame 16 2 = 0 → Runs (.reportReceive p frame) s fun t =>
        mfind t.pwr.members (beAt frame 22 8) = some { mget s.pwr.members (beAt frame 22 8) noMember with
          cap := beAt frame 38 2, power := beAt frame 40 2, floor := beAt frame 42 2, ceil := beAt frame 44 2, at_ := s.now } ∧
        (beAt frame 22 8, ferryReport, beAt frame 30 4) ∈ t.pwr.seen ∧ { t with pwr := r.2.pwr } = r.2)) ∧
    (∀ r, s.ferryRx p ferryLag frame = some r →
      (r.1 = false → Runs (.lagReceive p frame) s fun t => t = r.2) ∧
      (r.1 = true → s.on F.PWR_FERRY_CFG_SOFT_COORD = false → s.ferryRole = 1 → p.val ≠ s.upLink → Runs (.lagReceive p frame) s fun t => t = r.2.ferryDirect s.upLink frame) ∧
      (r.1 = true → s.on F.PWR_FERRY_CFG_SOFT_COORD = false → s.ferryRole = 2 → s.pwr.seen.contains (beAt frame 22 8, ferryLag, beAt frame 30 4) = false → Runs (.lagReceive p frame) s fun t =>
        (mget t.pwr.members (beAt frame 22 8) noMember).lag = true ∧ { t with pwr := r.2.pwr } = r.2))))

/-- GRANT_COMPUTE, GRANT_RECEIVE, GRANT_REVERT (R383, R384): the coordinator's period grants every active member a cap; a member without a
GRANT for REVERT returns to PWR_CAP. It rests on choices of the model too: log entry 117. -/
def Obligations.FerryGrants : Prop := ∀ (s : State),
  (s.ferryRole ≠ 2 ∨ s.on F.PWR_FERRY_CFG_SOFT_COORD = true ∨ s.due .ferry 0 s.ferryPeriod = false → Runs .grantCompute s fun t => t = s) ∧
  (s.ferryRole = 2 → s.on F.PWR_FERRY_CFG_SOFT_COORD = false → s.due .ferry 0 s.ferryPeriod = true → Runs .grantCompute s fun t =>
    t.pwr.granted = t.pwr.members.map (fun e => e.1) ∧ t.rd F.PWR_FERRY_STATUS_MEMBERS = t.pwr.members.length % 2 ^ F.PWR_FERRY_STATUS_MEMBERS.width ∧
    (∀ e ∈ t.pwr.members, e.2.late = 0 ∧ e.2.lag = false) ∧
    (t.pwr.granted ≠ s.pwr.granted → ∀ e ∈ t.pwr.members, e.2.grant = firstGrant (s.rd F.PWR_FERRY_TOTAL_TOTAL) t.pwr.members.length e.2)) ∧
  (∀ (p : Fin 512) (frame : Bytes),
    (s.ferryRx p ferryGrant frame = none → Runs (.grantReceive p frame) s fun t => t = s) ∧
    (∀ r, s.ferryRx p ferryGrant frame = some r →
      (r.1 = false ∨ s.ferryRole ≠ 1 ∨ p.val ≠ s.upLink → Runs (.grantReceive p frame) s fun t => t = r.2) ∧
      (r.1 = true → s.ferryRole = 1 → p.val = s.upLink → beAt frame 16 2 = 1 → beAt frame 38 8 = s.fuses.serial → s.pwr.grant = none → Runs (.grantReceive p frame) s fun t =>
        t.pwr.grantNext = some (beAt frame 46 2, beAt frame 22 8 * 2 ^ 32 + beAt frame 30 4)) ∧
      (r.1 = true → s.ferryRole = 1 → p.val = s.upLink → beAt frame 16 2 = 0 → Runs (.grantReceive p frame) s fun t => t.pwr.grantNext = s.pwr.grantNext))) ∧
  (s.pwr.grant = none ∨ s.due .ferry 1 (max 1 (s.rd F.PWR_FERRY_CTL_REVERT) * 16000000) = false → Runs .grantRevert s fun t => t = s) ∧
  (∀ g, s.pwr.grant = some g → s.due .ferry 1 (max 1 (s.rd F.PWR_FERRY_CTL_REVERT) * 16000000) = true → Runs .grantRevert s fun t =>
    t.pwr.grant = none ∧ t.pwr.grantNext = none ∧ t.rd F.PWR_CAP_EFF_SOURCE = 0 ∧ t.rd F.PWR_CAP_EFF_CAP = s.capOf (s.rd F.PWR_CAP_CAP) % 2 ^ F.PWR_CAP_EFF_CAP.width ∧
    changes [F.PWR_CAP_EFF_CAP, F.PWR_CAP_EFF_SOURCE] s { t with pwr := s.pwr })

/-- Moving budget creates none: among members with distinct serials the sum of the grants stays, and grants within a member's floor and
ceiling stay within them (R383). -/
def Obligations.BudgetConserved : Prop := ∀ (n : Nat) (l : List (Nat × FerryMember)), (l.map (fun e => e.1)).Nodup →
  ((moveBudget l n).map (fun e => e.2.grant)).sum = (l.map (fun e => e.2.grant)).sum ∧ (moveBudget l n).map (fun e => e.1) = l.map (fun e => e.1) ∧
  ((∀ e ∈ l, e.2.floor ≤ e.2.grant ∧ e.2.grant ≤ e.2.ceil) → ∀ e ∈ moveBudget l n, e.2.floor ≤ e.2.grant ∧ e.2.grant ≤ e.2.ceil)

/-- DEVICE_RESET, JTAG_DEV_RESET (R400, R460, R461, R469, R489): every register holds its reset value; the fuses and the Keep domain
stand, the straps are sampled at power-up and at RESET_N, and HBM is lost only with power (the last is the model's reading, log entries 89
and 90). POWER_UP_RAILS, FUSE_DONE, CLOCK_DONE, BOOT_PCIE_GO, FETCH_DONE, VERIFY_DONE, LOAD_DONE, RESTORE_DONE (R395, R400 to R405): the
boot goes through its stages in order; each ends by its own command only in its stage. It rests on choices of the model too: log entries
14, 51, 93, 94, 102, 103, 125, 141, 154. -/
def Obligations.BootFlow : Prop :=
  (∀ (s : State),
  (∀ src i2c,
    Runs (.deviceReset .powerUp src i2c) s (fun t => t.regs = [] ∧ t.keep = s.keep ∧ t.hbm = [] ∧ t.fuses = { s.fuses with bootSrc := src, i2cRstEn := i2c } ∧
      t.boot = { powerHeld := true } ∧ t.path = {} ∧ t.dys = {} ∧ t.log = [] ∧ t.domA = State.reset.domA ∧ t.harb = {}) ∧
    Runs (.deviceReset .resetN src i2c) s (fun t => t.regs = [] ∧ t.keep = s.keep ∧ t.hbm = s.hbm ∧ t.fuses = { s.fuses with bootSrc := src, i2cRstEn := i2c } ∧
      t.boot = {} ∧ t.path = {} ∧ t.dys = {} ∧ t.log = [] ∧ t.domA = State.reset.domA)) ∧
  (∀ (cause : ResetCause) src i2c, cause ≠ .powerUp → cause ≠ .resetN → Runs (.deviceReset cause src i2c) s fun t =>
    t.regs = [] ∧ t.keep = s.keep ∧ t.hbm = s.hbm ∧ t.fuses = s.fuses ∧ t.boot = {} ∧ t.log = []) ∧
  Runs .jtagDevReset s fun t => t.regs = [] ∧ t.keep = s.keep ∧ t.hbm = s.hbm ∧ t.fuses = s.fuses ∧ t.boot = {} ∧ t.harb = { tapIr := 0x22, boundary := s.harb.boundary }) ∧
  (∀ (s : State),
  Runs .powerUpRails s (fun t => t.boot.powerHeld = false ∧ { t with boot := { t.boot with powerHeld := s.boot.powerHeld } } = s) ∧
  (s.stage ≠ 0 ∨ s.boot.powerHeld = true → Runs .fuseDone s fun t => t = s) ∧
  (s.stage = 0 → s.boot.powerHeld = false → Runs .fuseDone s fun t =>
    t.stage = 1 ∧ t.boot.since = s.now ∧ t.rd F.BOOT_STATUS_SRC = s.fuses.bootSrc % 2 ^ F.BOOT_STATUS_SRC.width ∧
    t.rd F.BOOT_KEY_STATUS_SVN_FLOOR = s.fuses.svn % 2 ^ F.BOOT_KEY_STATUS_SVN_FLOOR.width ∧
    (∀ k : Fin 4, bit (t.rd F.BOOT_KEY_STATUS_PROGRAMMED) k = (mfind s.fuses.digests k).isSome ∧ bit (t.rd F.BOOT_KEY_STATUS_REVOKED) k = s.fuses.revoked.contains k.val) ∧
    (∀ n : Fin 48, t.rd (F.BOOT_KEY_DIGEST_WORD n) = bits (mget s.fuses.digests (n / 12) 0) (32 * (n % 12)) 32) ∧ t.fuses = s.fuses) ∧
  (∀ a b,
    (s.stage ≠ 1 → Runs (.clockDone a b) s fun t => t = s) ∧
    (s.stage = 1 → Runs (.clockDone a b) s fun t =>
      t.stage = 2 ∧ t.on F.CLK_STATUS_REF0_OK = a ∧ t.on F.CLK_STATUS_REF1_OK = b ∧ t.boot.image = none ∧
      (s.fuses.bootSrc = 1 → t.boot.source = 3 ∧ t.boot.waitGo = true) ∧ (s.fuses.bootSrc ≠ 1 → t.boot.source = 1 ∧ t.boot.waitGo = false))) ∧
  (∀ q, s.grants q true = true →
    (viaEth q = true → Runs (.bootPcieGo q) s fun t => t = s) ∧
    (viaEth q = false →
      (s.stage = 2 → s.boot.waitGo = true → Runs (.bootPcieGo q) s fun t => t.boot = { s.boot with waitGo := false } ∧ t.on F.BOOT_PCIE_GO_GO = true ∧ changes [F.BOOT_PCIE_GO_GO] s { t with boot := s.boot }) ∧
      (s.stage = 7 → s.fuses.bootSrc ≠ 0 → Runs (.bootPcieGo q) s fun t => t.stage = 2 ∧ t.boot.source = 3 ∧ t.boot.waitGo = false ∧ t.boot.image = none) ∧
      (s.stage = 7 → s.fuses.bootSrc = 0 → Runs (.bootPcieGo q) s fun t => t.on F.BOOT_PCIE_GO_GO = true ∧ changes [F.BOOT_PCIE_GO_GO] s t) ∧
      (s.stage ≠ 7 → s.stage ≠ 2 ∨ s.boot.waitGo = false → Runs (.bootPcieGo q) s (discarded q (regAddr .BOOT_PCIE_GO 0) s.stage 0 s)))) ∧
  (∀ im : Image,
    (s.stage ≠ 2 ∨ s.boot.waitGo = true → Runs (.fetchDone im) s fun t => t = s) ∧
    (s.stage = 2 → s.boot.waitGo = false → Runs (.fetchDone im) s fun t =>
      t.stage = 3 ∧ t.boot.image = some im ∧ t.boot.since = s.now ∧ changes [F.BOOT_STATUS_STAGE] s { t with boot := s.boot })) ∧
  (s.stage ≠ 3 ∨ s.boot.image = none → Runs .verifyDone s fun t => t = s) ∧
  (∀ im, s.boot.image = some im → s.stage = 3 →
    (s.fuses.digests = [] → Runs .verifyDone s fun t => t.stage = 8 ∧ t.intBit .boot 0 2 = true ∧ t.boot.image = some im) ∧
    (s.fuses.digests ≠ [] → s.imageError im false = 0 → Runs .verifyDone s fun t => t.stage = 4 ∧ t.boot.image = some im ∧ changes [F.BOOT_STATUS_STAGE] s { t with boot := s.boot }) ∧
    (s.fuses.digests ≠ [] → s.imageError im false ≠ 0 → Runs .verifyDone s fun t =>
      t.rd F.BOOT_ERR_CODE = s.imageError im false % 2 ^ F.BOOT_ERR_CODE.width ∧ t.on F.BOOT_ERR_STAGED = false ∧ t.rd F.BOOT_ERR_COUNT = min (s.rd F.BOOT_ERR_COUNT + 1) (2 ^ F.BOOT_ERR_COUNT.width - 1) ∧
      t.intBit .boot 0 1 = true ∧ t.boot.image = none ∧
      (s.boot.source = 1 → t.stage = 2 ∧ t.boot.source = 2) ∧ (s.boot.source = 2 → 2 ≤ s.fuses.bootSrc → t.stage = 2 ∧ t.boot.source = 3 ∧ t.boot.waitGo = true) ∧
      (s.boot.source = 2 → s.fuses.bootSrc < 2 → t.stage = 7 ∧ t.intBit .boot 0 3 = true) ∧ (s.boot.source = 3 → t.stage = 7 ∧ t.intBit .boot 0 3 = true))) ∧
  (s.stage ≠ 4 ∨ s.trained = false ∨ s.boot.image = none → Runs .loadDone s fun t => t = s) ∧
  (∀ im, s.boot.image = some im → s.stage = 4 → s.trained = true → Runs .loadDone s fun t =>
    t.stage = 5 ∧ t.boot.running = some im ∧ t.boot.image = none ∧ t.rd F.BOOT_IMAGE_IMAGE_ID = im.imageId % 2 ^ F.BOOT_IMAGE_IMAGE_ID.width ∧
    t.rd F.BOOT_IMAGE_SVN_SVN = im.svn % 2 ^ F.BOOT_IMAGE_SVN_SVN.width ∧ t.rd F.BOOT_KEY_STATUS_SLOT_USED = im.keySlot % 2 ^ F.BOOT_KEY_STATUS_SLOT_USED.width) ∧
  (s.stage ≠ 5 → Runs .restoreDone s fun t => t = s) ∧
  (s.stage = 5 → Runs .restoreDone s fun t => t.stage = 6 ∧ t.intBit .boot 0 0 = true))

/-- An image is valid only if it passes every check in the order of R395: each code says which check failed first, and a key slot must be
programmed and not revoked, the digest match, and the SVN be no less than the floor (R395, R399). It rests on choices of the model too:
log entries 94, 173. -/
def Obligations.ImageChecks : Prop := ∀ (s : State) (im : Image) (staged : Bool), s.imageError im staged = 0 →
  im.magic = 0x4C4D5947 ∧ im.format = 1 ∧ im.device = 0x0A09 ∧ im.stepMin ≤ s.rd F.CHIP_ID_STEP_MAJOR * 16 + s.rd F.CHIP_ID_STEP_MINOR ∧
  im.length ≤ 67108864 ∧ im.keySlot < 4 ∧ mfind s.fuses.digests im.keySlot = some im.keyDigest ∧ im.keySlot ∉ s.fuses.revoked ∧ im.sigOk = true ∧ s.fuses.svn ≤ im.svn ∧
  imageSectionsOk im = true ∧ imageContentGood im = true ∧ (staged = false → im.type = 0) ∧
  (staged = true → im.type ≠ 0 ∧ s.boot.running.map (fun r => r.imageId) = some im.baseId)

/-- SPARE_REQ_AGE, SPARE_MODE_WRITE, SPARE_RATE_WINDOW, AGEING_CHECK, SOFT_REPAIR, TCAM_SCRUB (R437, R444 to R449, R452, R462): the age of
requests, the policy, the hourly and daily judgements, and repair of memories. It rests on choices of the model too: log entries 31, 58,
60, 61, 75, 139. -/
def Obligations.SparingPolicy : Prop := ∀ (s : State),
  (∀ n : Fin 16, ∀ h, h = (s.now - mget s.ras.reqAt n 0) / 5760000000000 →
    (s.on (F.RAS_SPARE_REQ_VALID n) = false → Runs (.spareReqAge n) s fun t => t = s) ∧
    (s.on (F.RAS_SPARE_REQ_VALID n) = true → Runs (.spareReqAge n) s fun t => t.rd (F.RAS_SPARE_REQ_AGE_AGE n) = min h 65535 % 2 ^ (F.RAS_SPARE_REQ_AGE_AGE n).width ∧
      (s.rd (F.RAS_SPARE_REQ_AGE_AGE n) < 24 → 24 ≤ h → t.on F.RAS_SPARE_STATUS_LIFE_VOID = true ∧ mget t.spareMap (key2 9 0) 0 = 1) ∧
      (h < 24 → changes [F.RAS_SPARE_REQ_AGE_AGE n] s t))) ∧
  (∀ q, ∀ (mode : Fin 4) (ask : Fin 256), s.grants q false = true →
    (s.rd F.RAS_SPARE_POLICY_MODE = mode → Runs (.spareModeWrite q mode ask) s fun t => t.rd F.RAS_SPARE_POLICY_ASK_KINDS = ask.val % 2 ^ F.RAS_SPARE_POLICY_ASK_KINDS.width ∧ changes [F.RAS_SPARE_POLICY_ASK_KINDS] s t) ∧
    (s.rd F.RAS_SPARE_POLICY_MODE ≠ mode → s.on F.RAS_SPARE_STATUS_BUSY = true → Runs (.spareModeWrite q mode ask) s (discarded q (regAddr .RAS_SPARE_POLICY 0) 1 0 (s.wr F.RAS_SPARE_POLICY_ASK_KINDS ask))) ∧
    (s.rd F.RAS_SPARE_POLICY_MODE ≠ mode → s.on F.RAS_SPARE_STATUS_BUSY = false → mode.val < 2 → Runs (.spareModeWrite q mode ask) s fun t =>
      t.rd F.RAS_SPARE_POLICY_MODE = mode ∧ t.rd F.RAS_SPARE_POLICY_ASK_KINDS = ask.val % 2 ^ F.RAS_SPARE_POLICY_ASK_KINDS.width ∧ changes [F.RAS_SPARE_POLICY_MODE, F.RAS_SPARE_POLICY_ASK_KINDS] s t) ∧
    (s.rd F.RAS_SPARE_POLICY_MODE ≠ mode → s.on F.RAS_SPARE_STATUS_BUSY = false → 2 ≤ mode.val → Runs (.spareModeWrite q mode ask) s fun t =>
      t.rd F.RAS_SPARE_POLICY_MODE = mode ∧ t.on F.RAS_SPARE_STATUS_LIFE_VOID = true ∧ mget t.spareMap (key2 9 0) 0 = 1 ∧ (∀ n : Fin 16, t.on (F.RAS_SPARE_REQ_VALID n) = false))) ∧
  (∀ extra,
    (s.due .rate 0 5760000000000 = false → Runs (.spareRateWindow extra) s fun t => t = s)) ∧
  (s.due .rate 0 5760000000000 = true → s.ras.rate = [] → Runs (.spareRateWindow []) s fun t => { t with timers := s.timers } = s) ∧
  (∀ e, s.ras.rate = [e] → s.due .rate 0 5760000000000 = true → 1 ≤ (Nat.unpair e.1).1 → (Nat.unpair e.1).1 ≤ 5 →
    (s.rd (F.RAS_SPARE_THRESH_THRESH (rateField (Nat.unpair e.1).1)) ≤ e.2 → Runs (.spareRateWindow []) s fun t =>
      t = ((s.ran .rate 0 s.now).updRas (fun r => { r with rate := [] })).spareRequest (Nat.unpair e.1).1 (Nat.unpair e.1).2 0) ∧
    (e.2 < s.rd (F.RAS_SPARE_THRESH_THRESH (rateField (Nat.unpair e.1).1)) → Runs (.spareRateWindow []) s fun t =>
      t.ras = { s.ras with rate := [] } ∧ { t with timers := s.timers, ras := s.ras } = s)) ∧
  (s.due .age 1 138240000000000 = false → Runs .ageingCheck s fun t => t = s) ∧
  (s.due .age 1 138240000000000 = true →
    (∀ m : Fin 256, ageTrigger (s.rd (F.RAS_SPARE_THRESH_THRESH 6)) (s.rd (F.RAS_SPARE_THRESH_THRESH 7)) (mget s.ras.ages m {}).now (mget s.ras.ages m {}).days[29]? ((mget s.ras.ages m {}).hours + 24) = false) →
    Runs .ageingCheck s fun t =>
      (∀ m : Fin 256, (mget t.ras.ages m {}).now = (mget s.ras.ages m {}).now ∧ (mget t.ras.ages m {}).hours = (mget s.ras.ages m {}).hours + 24 ∧
        (mget t.ras.ages m {}).days = ((mget s.ras.ages m {}).now :: (mget s.ras.ages m {}).days).take 30) ∧
      { t with timers := s.timers, ras := { t.ras with ages := s.ras.ages } } = s) ∧
  (∀ limit horizon p hours v,
    (hours < 720 → ageTrigger limit horizon p (some v) hours = false) ∧
    (720 ≤ hours → limit ≤ p → ageTrigger limit horizon p none hours = true) ∧
    (720 ≤ hours → p < limit → v < p → (ageTrigger limit horizon p (some v) hours = true ↔ (limit - p) * 30 ≤ horizon * (p - v))) ∧
    (p < limit → p ≤ v → ageTrigger limit horizon p (some v) hours = false)) ∧
  (∀ mac line col,
    (s.sramSpare mac col = none → Runs (.softRepair mac line col) s fun t => t = s.event degraded (codeOf .ras 0 0x86) mac line) ∧
    (∀ k, s.sramSpare mac col = some k → Runs (.softRepair mac line col) s fun t =>
      t.ras.repairs = s.ras.repairs ++ [(mac, k)] ∧ mget t.spareMap (key2 6 (8 * mac + k)) 0 = line + 1 ∧ (col = true ↔ 4 ≤ k) ∧ k < 6 ∧ (mac, k) ∉ s.ras.repairs ∧
      t.rd (F.RAS_SPARE_SUMMARY_FREE 6) = s.rd (F.RAS_SPARE_SUMMARY_FREE 6) - 1 ∧ t.rd F.RAS_SPARE_STATUS_SWAPS = min (s.rd F.RAS_SPARE_STATUS_SWAPS + 1) (2 ^ F.RAS_SPARE_STATUS_SWAPS.width - 1))) ∧
  (∀ bad, s.due .tcam 0 16000000 = false → Runs (.tcamScrub bad) s fun t => t = s) ∧
  (∀ (p : Fin 32) (tb ix : Nat), s.due .tcam 0 16000000 = true →
    ((s.layout p tb).any (fun l => l.kind = 1) = true → (s.entry p tb ix).valid = true → Runs (.tcamScrub [(p, tb, ix)]) s fun t =>
      t = (s.ran .tcam 0 s.now).entryLost (p / 2) (p % 2) tb ix ∧ (t.entry p tb ix).valid = false) ∧
    ((s.layout p tb).any (fun l => l.kind = 1) = false ∨ (s.entry p tb ix).valid = false → Runs (.tcamScrub [(p, tb, ix)]) s fun t => { t with timers := s.timers } = s))

/-- TIDEMARK_IN_EDGE, RAS_TM_FIRE, JTAG_TM_FIRE, DBG_ARM_WRITE (R453, R456, R457, R460, R462): an enabled source makes an edge that
latches 8 ticks later, the sources of one tick make one edge, an edge within 1 µs of the last counts as ignored, and ARM takes writes from
PF0 and JTAG alone. JTAG_BYPASS, JTAG_IDCODE, JTAG_SAMPLE_PRELOAD, JTAG_EXTEST, JTAG_CLAMP, JTAG_HIGHZ, JTAG_EXTEST_PULSE,
JTAG_EXTEST_TRAIN, JTAG_TM_READ (R456, R460, R461): the codes of the TAP's instruction register, what shifts out, and the instructions
that stop forwarding. It rests on choices of the model too: log entry 73. -/
def Obligations.TidemarkAndTap : Prop :=
  (∀ (s : State),
  (bit (s.rd F.RAS_TM_CFG_SRC_EN) 0 = false → Runs .tidemarkInEdge s fun t => t = s) ∧
  (bit (s.rd F.RAS_TM_CFG_SRC_EN) 0 = true → s.tmLast = none → Runs .tidemarkInEdge s fun t =>
    t.tmLast = some s.now ∧ t.ras.edge = some { at_ := s.now + 8, sources := 1, logSeq := 0, out := bit (s.rd F.RAS_TM_CFG_OUT_SRC) 0 } ∧
    { t with tmLast := s.tmLast, ras := { t.ras with edge := s.ras.edge } } = s) ∧
  (∀ e, s.ras.edge = some e → bit (s.rd F.RAS_TM_CFG_SRC_EN) 0 = true → s.tmLast = some s.now → Runs .tidemarkInEdge s fun t =>
    t.ras.edge = some { e with sources := e.sources ||| 1, out := e.out || bit (s.rd F.RAS_TM_CFG_OUT_SRC) 0 } ∧ { t with ras := s.ras } = s) ∧
  (∀ t0, s.tmLast = some t0 → t0 < s.now → s.now - t0 < 1600 → bit (s.rd F.RAS_TM_CFG_SRC_EN) 0 = true → Runs .tidemarkInEdge s fun t =>
    t.rd F.RAS_TM_IGNORED_COUNT = min (s.rd F.RAS_TM_IGNORED_COUNT + 1) (2 ^ F.RAS_TM_IGNORED_COUNT.width - 1) ∧ changes [F.RAS_TM_IGNORED_COUNT] s t) ∧
  (∀ q, s.grants q false = true →
    (bit (s.rd F.RAS_TM_CFG_SRC_EN) 2 = false → Runs (.rasTmFire q) s fun t => t = s) ∧
    (bit (s.rd F.RAS_TM_CFG_SRC_EN) 2 = true → s.tmLast = none → Runs (.rasTmFire q) s fun t =>
      t.tmLast = some s.now ∧ t.ras.edge = some { at_ := s.now + 8, sources := 4, logSeq := 0, out := bit (s.rd F.RAS_TM_CFG_OUT_SRC) 2 } ∧
      { t with tmLast := s.tmLast, ras := { t.ras with edge := s.ras.edge } } = s) ∧
    (∀ e, s.ras.edge = some e → bit (s.rd F.RAS_TM_CFG_SRC_EN) 2 = true → s.tmLast = some s.now → Runs (.rasTmFire q) s fun t =>
      t.ras.edge = some { e with sources := e.sources ||| 4, out := e.out || bit (s.rd F.RAS_TM_CFG_OUT_SRC) 2 } ∧ { t with ras := s.ras } = s) ∧
    (∀ t0, s.tmLast = some t0 → t0 < s.now → 1600 ≤ s.now - t0 → bit (s.rd F.RAS_TM_CFG_SRC_EN) 2 = true → Runs (.rasTmFire q) s fun t =>
      t.tmLast = some s.now ∧ t.ras.edge.map (fun e => (e.at_, e.sources)) = some (s.now + 8, 4)) ∧
    (∀ on,
      (s.on F.DBG_CTL_ARM = on → Runs (.dbgArmWrite q on) s fun t => t = s) ∧
      (s.on F.DBG_CTL_ARM ≠ on → q ≠ .pf0 → q ≠ .jtag → Runs (.dbgArmWrite q on) s (discarded q (regAddr .DBG_CTL 0) 0 2 s)) ∧
      (s.on F.DBG_CTL_ARM ≠ on → q = .pf0 ∨ q = .jtag → 512 ≤ s.rd F.DBG_PERTURB_PFC_PORT → Runs (.dbgArmWrite q on) s fun t =>
        t.on F.DBG_CTL_ARM = on ∧ t.on F.DBG_CTL_ACTIVE = (on && s.perturbs) ∧ (on = true → t.intBit .dbg 0 0 = true) ∧ (on = false → s.perturbs = true → t.intBit .dbg 0 1 = true) ∧
        signals [F.DBG_CTL_ARM, F.DBG_CTL_ACTIVE, F.DBG_INT_STATUS_BITS] s t))) ∧
  (bit (s.rd F.RAS_TM_CFG_SRC_EN) 2 = false → Runs .jtagTmFire s fun t => t.harb.tapIr = 0x20 ∧ { t with harb := { t.harb with tapIr := s.harb.tapIr } } = s) ∧
  (bit (s.rd F.RAS_TM_CFG_SRC_EN) 2 = true → s.tmLast = none → Runs .jtagTmFire s fun t =>
    t.harb.tapIr = 0x20 ∧ t.tmLast = some s.now ∧ t.ras.edge = some { at_ := s.now + 8, sources := 4, logSeq := 0, out := bit (s.rd F.RAS_TM_CFG_OUT_SRC) 2 } ∧ t.snap = s.snap)) ∧
  (∀ (s : State),
  (∀ tdi : Bytes, Runs (.jtagBypass tdi) s fun t => t.harb.tapIr = 0xFF ∧ t.out = .tdo (leBytes tdi.length (2 * ofLe tdi)) :: s.out ∧ { t with out := s.out, harb := { t.harb with tapIr := s.harb.tapIr } } = s) ∧
  Runs .jtagIdcode s (fun t => t.harb.tapIr = 0x01 ∧ t.out = .tdo (leBytes 4 0xB0A0947D) :: s.out ∧ { t with out := s.out, harb := { t.harb with tapIr := s.harb.tapIr } } = s) ∧
  (∀ data : Bytes, Runs (.jtagSamplePreload data) s fun t => t.harb.tapIr = 0x02 ∧ t.harb.boundary = data ∧ t.out.tail = s.out ∧ t.free = s.free + 1 ∧ { t with out := s.out, free := s.free, harb := s.harb } = s) ∧
  Runs .jtagExtest s (fun t => t.harb.tapIr = 0x03 ∧ t.scanStop = true ∧ t.intBit .ras 0 notice = true ∧ t.path = s.path) ∧
  Runs .jtagClamp s (fun t => t.harb.tapIr = 0x04 ∧ t.scanStop = true ∧ t.intBit .ras 0 notice = true ∧ t.path = s.path) ∧
  Runs .jtagHighz s (fun t => t.harb.tapIr = 0x05 ∧ t.scanStop = true ∧ t.intBit .ras 0 notice = true ∧ t.path = s.path) ∧
  Runs .jtagExtestPulse s (fun t => t.harb.tapIr = 0x06 ∧ t.scanStop = true ∧ t.intBit .ras 0 notice = true ∧ t.path = s.path) ∧
  Runs .jtagExtestTrain s (fun t => t.harb.tapIr = 0x07 ∧ t.scanStop = true ∧ t.intBit .ras 0 notice = true ∧ t.path = s.path) ∧
  Runs .jtagTmRead s fun t => t.harb.tapIr = 0x21 ∧ t.out = .tdo s.snapBytes :: s.out ∧ { t with out := s.out, harb := { t.harb with tapIr := s.harb.tapIr } } = s)
end

