-- ==== Sys2Proof/Laws/Map.lean ====
section
/-! SUPPORT. Laws of the sparse maps: a read after a write, and the canonical form that every write keeps. -/

set_option Elab.async false

namespace Sys2Proof.Machine

theorem mfind_minsert {α : Type} (m : PMap α) (k j : Nat) (v : α) :
    mfind (minsert m k v) j = if j = k then some v else mfind m j := by
  induction m with
  | nil => simp [minsert, mfind]
  | cons e t ih =>
    obtain ⟨k', v'⟩ := e
    simp only [minsert]
    split
    · simp [mfind]
    · split
      · subst_vars; simp only [mfind]; split <;> rfl
      · simp only [mfind, ih]
        split
        · next h => subst h; split
                    · next h' => exact absurd h'.symm ‹_›
                    · rfl
        · rfl

theorem mfind_merase {α : Type} (m : PMap α) (k j : Nat) :
    mfind (merase m k) j = if j = k then none else mfind m j := by
  induction m with
  | nil => simp [merase, mfind]
  | cons e t ih =>
    obtain ⟨k', v'⟩ := e
    unfold merase at ih ⊢
    by_cases h : k' = k
    · subst h
      simp only [List.filter_cons, ne_eq, not_true_eq_false, decide_false, Bool.false_eq_true, if_false, ih, mfind]
      split <;> rfl
    · simp only [List.filter_cons, ne_eq, h, not_false_eq_true, decide_true, if_true, mfind, ih]
      split
      · next h' => subst h'; simp [h]
      · rfl

/-- A read after a write of the same key gives the value written. -/
@[simp] theorem mget_mset_self {α : Type} [DecidableEq α] (m : PMap α) (k : Nat) (v d : α) :
    mget (mset m k v d) k d = v := by
  unfold mget mset
  split
  · simp [mfind_merase, *]
  · simp [mfind_minsert]

/-- A write leaves every other key alone. -/
theorem mget_mset_ne {α : Type} [DecidableEq α] (m : PMap α) {k j : Nat} (v d e : α) (h : j ≠ k) :
    mget (mset m k v d) j e = mget m j e := by
  unfold mget mset
  split
  · simp [mfind_merase, h]
  · simp [mfind_minsert, h]

theorem mget_mset {α : Type} [DecidableEq α] (m : PMap α) (k j : Nat) (v d : α) :
    mget (mset m k v d) j d = if j = k then v else mget m j d := by
  split
  · next h => subst h; exact mget_mset_self ..
  · next h => exact mget_mset_ne m v d d h

@[simp] theorem mget_nil {α : Type} (k : Nat) (d : α) : mget ([] : PMap α) k d = d := rfl

theorem mem_minsert {α : Type} (m : PMap α) (k : Nat) (v : α) (e : Nat × α) (h : e ∈ minsert m k v) :
    e = (k, v) ∨ e ∈ m := by
  induction m with
  | nil => simpa [minsert] using h
  | cons x t ih =>
    obtain ⟨k', v'⟩ := x
    simp only [minsert] at h
    split at h
    · simpa using h
    · split at h
      · rcases List.mem_cons.1 h with h | h
        · exact .inl h
        · exact .inr (List.mem_cons_of_mem _ h)
      · rcases List.mem_cons.1 h with h | h
        · exact .inr (h ▸ List.mem_cons_self)
        · exact (ih h).imp_right (List.mem_cons_of_mem _)

/-- Entering a key keeps the keys rising. -/
theorem msorted_minsert {α : Type} (m : PMap α) (k : Nat) (v : α) (h : msorted m) : msorted (minsert m k v) := by
  induction m with
  | nil => simp [minsert, msorted]
  | cons x t ih =>
    obtain ⟨k', v'⟩ := x
    unfold msorted at h ih ⊢
    obtain ⟨h1, h2⟩ := List.pairwise_cons.1 h
    simp only [minsert]
    split
    · next hk =>
      refine List.pairwise_cons.2 ⟨fun e he => ?_, h⟩
      rcases List.mem_cons.1 he with rfl | he
      · exact hk
      · exact Nat.lt_trans hk (h1 e he)
    · split
      · next hk => subst hk; exact List.pairwise_cons.2 ⟨h1, h2⟩
      · refine List.pairwise_cons.2 ⟨fun e he => ?_, ih h2⟩
        rcases mem_minsert _ _ _ _ he with rfl | he
        · simp only; omega
        · exact h1 e he

/-- Removing a key keeps the keys rising. -/
theorem msorted_merase {α : Type} (m : PMap α) (k : Nat) (h : msorted m) : msorted (merase m k) := by
  unfold msorted merase at *
  exact h.sublist List.filter_sublist

theorem msorted_mset {α : Type} [DecidableEq α] (m : PMap α) (k : Nat) (v d : α) (h : msorted m) :
    msorted (mset m k v d) := by
  unfold mset
  split
  · exact msorted_merase m k h
  · exact msorted_minsert m k v h

/-- A write lists no entry with the default value. -/
theorem mset_canonical {α : Type} [DecidableEq α] (m : PMap α) (k : Nat) (v d : α) (h : ∀ e ∈ m, e.2 ≠ d) :
    ∀ e ∈ mset m k v d, e.2 ≠ d := by
  intro e he
  unfold mset at he
  split at he
  · exact h e (List.mem_filter.1 he).1
  · rcases mem_minsert _ _ _ _ he with rfl | he
    · assumption
    · exact h e he

/-- Writing one byte keeps the canonical form of memory. -/
theorem Memory.wf_write (m : PMap Byte) (a : Nat) (b : Byte) (h : Memory.wf m) : Memory.wf (Memory.write m a b) :=
  ⟨msorted_mset m a b hbmFill h.1, mset_canonical m a b hbmFill h.2⟩

/-- Writing a byte string keeps the canonical form of memory. -/
theorem Memory.wf_writeAll (m : PMap Byte) (a : Nat) (l : Bytes) (h : Memory.wf m) : Memory.wf (Memory.writeAll m a l) := by
  induction l generalizing m a with
  | nil => exact h
  | cons b t ih => exact ih _ _ (Memory.wf_write m a b h)

/-- Empty memory is in canonical form. -/
theorem Memory.wf_nil : Memory.wf ([] : PMap Byte) := ⟨List.Pairwise.nil, by simp⟩

/-- A read of the byte just written. -/
@[simp] theorem Memory.read_write_self (m : PMap Byte) (a : Nat) (b : Byte) : Memory.read (Memory.write m a b) a = b :=
  mget_mset_self m a b hbmFill

/-- A write of one byte leaves the others. -/
theorem Memory.read_write_ne (m : PMap Byte) {a c : Nat} (b : Byte) (h : c ≠ a) :
    Memory.read (Memory.write m a b) c = Memory.read m c := mget_mset_ne m b hbmFill hbmFill h

/-- Writing a byte string leaves every byte outside it. -/
theorem Memory.read_writeAll_out (m : PMap Byte) (a c : Nat) (l : Bytes) (h : c < a ∨ a + l.length ≤ c) :
    Memory.read (Memory.writeAll m a l) c = Memory.read m c := by
  induction l generalizing m a with
  | nil => rfl
  | cons b t ih =>
    simp only [List.length_cons] at h
    simp only [Memory.writeAll]
    rw [ih _ _ (by omega), Memory.read_write_ne m b (by omega)]

/-- Every byte of a string written reads back. -/
theorem Memory.read_writeAll_in (m : PMap Byte) (a k : Nat) (l : Bytes) (h : k < l.length) :
    Memory.read (Memory.writeAll m a l) (a + k) = l[k] := by
  induction l generalizing m a k with
  | nil => simp at h
  | cons b t ih =>
    simp only [Memory.writeAll]
    cases k with
    | zero => rw [Memory.read_writeAll_out _ _ _ _ (by omega)]; simp
    | succ n =>
      have := ih (Memory.write m a b) (a + 1) n (by simpa using h)
      rw [show a + (n + 1) = a + 1 + n by omega, this]; rfl

end Sys2Proof.Machine
end

