-- ==== Sys2Proof/Laws/Regs.lean ====
section
/-! SUPPORT. Laws of the register file: a read after a write, and what a write leaves alone. -/

set_option Elab.async false

namespace Sys2Proof.Machine

theorem regName_ctorIdx_inj {a b : RegName} (h : a.ctorIdx = b.ctorIdx) : a = b := by
  have e : ∀ x : RegName, RegName.ofNat x.ctorIdx = x := RegName.ofNat_ctorIdx
  rw [← e a, ← e b, h]

/-- Two fields share a place of the register file where register, instance and low bit agree. -/
theorem Fld.key_eq {f g : Fld} : f.key = g.key ↔ f.reg = g.reg ∧ f.ix = g.ix ∧ f.lo = g.lo := by
  unfold Fld.key
  rw [Nat.pair_eq_pair, Nat.pair_eq_pair]
  constructor
  · rintro ⟨h1, h2, h3⟩
    exact ⟨regName_ctorIdx_inj h1, h2, h3⟩
  · rintro ⟨h1, h2, h3⟩
    exact ⟨by rw [h1], h2, h3⟩

/-- The field just written reads as the value, cut to its width. -/
@[simp] theorem State.rd_wr_self (s : State) (f : Fld) (v : Nat) : (s.wr f v).rd f = v % 2 ^ f.width := by
  unfold State.rd State.wr
  rw [mget_mset_self, Nat.mod_mod]

/-- A write leaves every field at another place. -/
theorem State.rd_wr_ne (s : State) {f g : Fld} (v : Nat) (h : g.key ≠ f.key) : (s.wr f v).rd g = s.rd g := by
  unfold State.rd State.wr
  rw [mget_mset_ne _ _ _ _ h]

/-- A read after a write, by the places of the two fields. -/
theorem State.rd_wr_mk (s : State) (r r' : RegName) (i i' l l' w w' d d' v : Nat) (h : r = r' → i = i' → l = l' → d = d') :
    (s.wr ⟨r, i, l, w, d⟩ v).rd ⟨r', i', l', w', d'⟩ =
      if r = r' ∧ i = i' ∧ l = l' then v % 2 ^ w % 2 ^ w' else s.rd ⟨r', i', l', w', d'⟩ := by
  split
  · next e =>
    obtain ⟨rfl, rfl, rfl⟩ := e
    cases h rfl rfl rfl
    unfold State.rd State.wr
    exact congrArg (· % 2 ^ w') (mget_mset_self ..)
  · next e =>
    refine State.rd_wr_ne s v fun he => e ?_
    obtain ⟨h1, h2, h3⟩ := Fld.key_eq.1 he
    exact ⟨h1.symm, h2.symm, h3.symm⟩

/-- A write to another register leaves the field. -/
theorem State.rd_wr_reg (s : State) (r r' : RegName) (i i' l l' w w' d d' v : Nat) (h : ¬ r = r') :
    (s.wr ⟨r, i, l, w, d⟩ v).rd ⟨r', i', l', w', d'⟩ = s.rd ⟨r', i', l', w', d'⟩ := by
  rw [State.rd_wr_mk _ _ _ _ _ _ _ _ _ _ _ _ (fun e => absurd e h)]
  simp [h]

/-- A write to another field of the register leaves the field. -/
theorem State.rd_wr_lo (s : State) (r r' : RegName) (i i' l l' w w' d d' v : Nat) (h : ¬ l = l') :
    (s.wr ⟨r, i, l, w, d⟩ v).rd ⟨r', i', l', w', d'⟩ = s.rd ⟨r', i', l', w', d'⟩ := by
  rw [State.rd_wr_mk _ _ _ _ _ _ _ _ _ _ _ _ (fun _ _ e => absurd e h)]
  simp [h]

/-- A field reads below two to its width. -/
theorem State.rd_lt (s : State) (f : Fld) : s.rd f < 2 ^ f.width := Nat.mod_lt _ (Nat.two_pow_pos _)

/-- What changes nothing but registers leaves a read where the register file agrees. -/
theorem State.rd_congr {s t : State} (h : t.regs = s.regs) (f : Fld) : t.rd f = s.rd f := by unfold State.rd; rw [h]

@[simp] theorem State.emit_rd (s : State) (o : Out) (f : Fld) : (s.emit o).rd f = s.rd f := rfl

end Sys2Proof.Machine
end

