-- ==== Sys2Proof/Laws/Changes.lean ====
section
/-! SUPPORT. What the shared operations over registers and interrupts change, said once: the frame relations of Safety.lean are closed
under them, and the fields they leave read as before. -/

set_option Elab.async false

namespace Sys2Proof.Machine

/-! ### Reads after the shared operations -/

theorem State.rd_wrB_self (s : State) (f : Fld) (b : Bool) (h : 0 < f.width) : (s.wrB f b).rd f = if b then 1 else 0 := by
  have : 1 < 2 ^ f.width := Nat.one_lt_two_pow (by omega)
  unfold State.wrB
  rw [State.rd_wr_self]
  cases b <;> simp
  omega

theorem State.rd_satAdd_self (s : State) (f : Fld) (n : Nat) : (s.satAdd f n).rd f = min (s.rd f + n) (2 ^ f.width - 1) := by
  unfold State.satAdd
  rw [State.rd_wr_self]
  have := Nat.two_pow_pos f.width
  exact Nat.mod_eq_of_lt (by omega)

@[simp] theorem State.rd_sendVector (s : State) (k v : Nat) (f : Fld) : (s.sendVector k v).rd f = s.rd f := by
  unfold State.sendVector; split <;> rfl

@[simp] theorem State.rd_setDom (s : State) (d : Nat) (x : Dom) (f : Fld) : (s.setDom d x).rd f = s.rd f := by
  unfold State.setDom; split <;> rfl

theorem State.regs_raise (s : State) (b : Blk) (i e : Nat) :
    (s.raise b i e).regs = (s.wr (intStatus b i) (setBit (s.rd (intStatus b i)) e true)).regs := by
  unfold State.raise State.intEdge State.sendVector
  dsimp only
  split
  · split <;> rfl
  · rfl

theorem State.rd_raise (s : State) (b : Blk) (i e : Nat) (f : Fld) :
    (s.raise b i e).rd f = (s.wr (intStatus b i) (setBit (s.rd (intStatus b i)) e true)).rd f :=
  State.rd_congr (State.regs_raise ..) f

theorem intStatus_width (b : Blk) (i : Nat) : (intStatus b i).width = 32 := by cases b <;> rfl

theorem bit_setBit (x e : Nat) : bit (setBit x e true) e = true := by simp [bit, setBit]

theorem bit_setBit_ne (x : Nat) {e k : Nat} (h : k ≠ e) : bit (setBit x e true) k = bit x k := by
  simp [bit, setBit, Ne.symm h]

theorem bit_mod (x w e : Nat) (h : e < w) : bit (x % 2 ^ w) e = bit x e := by simp [bit, h]

/-- An event sets its bit. -/
theorem State.intBit_raise_self (s : State) (b : Blk) (i e : Nat) (h : e < 32) : (s.raise b i e).intBit b i e = true := by
  unfold State.intBit
  rw [State.rd_raise, State.rd_wr_self, intStatus_width, bit_mod _ _ _ h, bit_setBit]

/-- An event leaves the fields of other places. -/
theorem State.rd_raise_ne (s : State) (b : Blk) (i e : Nat) {f : Fld} (h : f.key ≠ (intStatus b i).key) : (s.raise b i e).rd f = s.rd f := by
  rw [State.rd_raise, State.rd_wr_ne _ _ h]

/-- An event leaves the fields of other registers. -/
theorem State.rd_raise_reg (s : State) (b : Blk) (i e : Nat) {r : RegName} {k lo w d : Nat} (h : ¬ r = (intStatus b i).reg) :
    (s.raise b i e).rd ⟨r, k, lo, w, d⟩ = s.rd ⟨r, k, lo, w, d⟩ :=
  State.rd_raise_ne _ _ _ _ (fun e => h (Fld.key_eq.1 e).1)

/-! ### What changes -/

theorem readsBut.refl {fs : List Fld} (s : State) : readsBut fs s s := fun _ _ => rfl

theorem readsBut.trans {fs : List Fld} {s t u : State} (h : readsBut fs s t) (k : readsBut fs t u) : readsBut fs s u :=
  fun f hf => (k f hf).trans (h f hf)

theorem readsBut.mono {fs gs : List Fld} {s t : State} (h : readsBut fs s t) (k : ∀ g ∈ fs, g ∈ gs) : readsBut gs s t :=
  fun f hf => h f fun g hg => hf g (k g hg)

theorem readsBut.wr {fs : List Fld} {s0 s : State} (h : readsBut fs s0 s) {f : Fld} (hf : f ∈ fs) (v : Nat) : readsBut fs s0 (s.wr f v) :=
  fun g hg => (State.rd_wr_ne s v (hg f hf)).trans (h g hg)

theorem readsBut.congr {fs : List Fld} {s0 s t : State} (h : readsBut fs s0 s) (e : t.regs = s.regs) : readsBut fs s0 t :=
  fun g hg => (State.rd_congr e g).trans (h g hg)

theorem readsOff.refl {rs : List RegName} (s : State) : readsOff rs s s := fun _ _ => rfl

theorem readsOff.trans {rs : List RegName} {s t u : State} (h : readsOff rs s t) (k : readsOff rs t u) : readsOff rs s u :=
  fun f hf => (k f hf).trans (h f hf)

theorem readsOff.wr {rs : List RegName} {s0 s : State} (h : readsOff rs s0 s) {f : Fld} (hf : f.reg ∈ rs) (v : Nat) :
    readsOff rs s0 (s.wr f v) :=
  fun g hg => (State.rd_wr_ne s v (fun e => hg ((Fld.key_eq.1 e).1.symm ▸ hf))).trans (h g hg)

theorem readsOff.congr {rs : List RegName} {s0 s t : State} (h : readsOff rs s0 s) (e : t.regs = s.regs) : readsOff rs s0 t :=
  fun g hg => (State.rd_congr e g).trans (h g hg)

theorem readsOff.raise {rs : List RegName} {s0 s : State} (h : readsOff rs s0 s) {b : Blk} {i : Nat} (hf : (intStatus b i).reg ∈ rs) (e : Nat) :
    readsOff rs s0 (s.raise b i e) := (h.wr hf _).congr (State.regs_raise ..)

theorem readsBut.off {fs : List Fld} {rs : List RegName} {s t : State} (h : readsBut fs s t) (k : ∀ g ∈ fs, g.reg ∈ rs) : readsOff rs s t :=
  fun f hf => h f fun g hg e => hf ((Fld.key_eq.1 e).1 ▸ k g hg)

theorem changes.refl {fs : List Fld} (s : State) : changes fs s s := ⟨readsBut.refl s, rfl⟩

theorem changes.trans {fs : List Fld} {s t u : State} (h : changes fs s t) (k : changes fs t u) : changes fs s u := by
  refine ⟨h.1.trans k.1, ?_⟩
  have e := k.2
  rw [← h.2, ← e]

theorem changes.mono {fs gs : List Fld} {s t : State} (h : changes fs s t) (k : ∀ g ∈ fs, g ∈ gs) : changes gs s t := ⟨h.1.mono k, h.2⟩

theorem changes.wr {fs : List Fld} {s0 s : State} (h : changes fs s0 s) {f : Fld} (hf : f ∈ fs) (v : Nat) : changes fs s0 (s.wr f v) :=
  ⟨h.1.wr hf v, h.2⟩

theorem changes.wrB {fs : List Fld} {s0 s : State} (h : changes fs s0 s) {f : Fld} (hf : f ∈ fs) (b : Bool) : changes fs s0 (s.wrB f b) :=
  h.wr hf _

theorem changes.satAdd {fs : List Fld} {s0 s : State} (h : changes fs s0 s) {f : Fld} (hf : f ∈ fs) (n : Nat) :
    changes fs s0 (s.satAdd f n) := h.wr hf _

theorem changes.wrapAdd {fs : List Fld} {s0 s : State} (h : changes fs s0 s) {f : Fld} (hf : f ∈ fs) (n : Nat) :
    changes fs s0 (s.wrapAdd f n) := h.wr hf _

theorem changes.subFrom {fs : List Fld} {s0 s : State} (h : changes fs s0 s) {f : Fld} (hf : f ∈ fs) (n : Nat) :
    changes fs s0 (s.subFrom f n) := h.wr hf _

theorem changes.signals {fs : List Fld} {s t : State} (h : changes fs s t) : signals fs s t := by
  obtain ⟨h1, h2⟩ := h
  have e : t.out = s.out := by rw [← h2]
  exact ⟨h1, by rw [← e, ← show t.msixPend = s.msixPend by rw [← h2]]; exact h2, [], by simp [e], by simp⟩

theorem signals.refl {fs : List Fld} (s : State) : signals fs s s := (changes.refl s).signals

theorem signals.mono {fs gs : List Fld} {s t : State} (h : signals fs s t) (k : ∀ g ∈ fs, g ∈ gs) : signals gs s t := ⟨h.1.mono k, h.2⟩

theorem signals.trans {fs : List Fld} {s t u : State} (h : signals fs s t) (k : signals fs t u) : signals fs s u := by
  obtain ⟨h1, h2, l, hl, ho⟩ := h
  obtain ⟨k1, k2, m, hm, hn⟩ := k
  refine ⟨h1.trans k1, ?_, m ++ l, by simp [hm, hl], ?_⟩
  · rw [← h2, ← k2]
  · intro o h
    rcases List.mem_append.1 h with h | h
    · exact hn o h
    · exact ho o h

theorem signals.wr {fs : List Fld} {s0 s : State} (h : signals fs s0 s) {f : Fld} (hf : f ∈ fs) (v : Nat) : signals fs s0 (s.wr f v) :=
  ⟨h.1.wr hf v, h.2⟩

theorem signals.wrB {fs : List Fld} {s0 s : State} (h : signals fs s0 s) {f : Fld} (hf : f ∈ fs) (b : Bool) : signals fs s0 (s.wrB f b) :=
  h.wr hf _

theorem signals.satAdd {fs : List Fld} {s0 s : State} (h : signals fs s0 s) {f : Fld} (hf : f ∈ fs) (n : Nat) :
    signals fs s0 (s.satAdd f n) := h.wr hf _

theorem signals.wrapAdd {fs : List Fld} {s0 s : State} (h : signals fs s0 s) {f : Fld} (hf : f ∈ fs) (n : Nat) :
    signals fs s0 (s.wrapAdd f n) := h.wr hf _

theorem signals.subFrom {fs : List Fld} {s0 s : State} (h : signals fs s0 s) {f : Fld} (hf : f ∈ fs) (n : Nat) :
    signals fs s0 (s.subFrom f n) := h.wr hf _

theorem signals.sendVector {fs : List Fld} {s0 s : State} (h : signals fs s0 s) (k v : Nat) : signals fs s0 (s.sendVector k v) := by
  obtain ⟨h1, h2, l, hl, ho⟩ := h
  unfold State.sendVector
  split
  · refine ⟨h1, h2, .msix k v :: l, by simp [State.emit, hl], ?_⟩
    intro o hm
    rcases List.mem_cons.1 hm with rfl | hm
    · exact ⟨k, v, rfl⟩
    · exact ho o hm
  · exact ⟨h1, h2, l, hl, ho⟩

/-- A change of a block's interrupt state sends at most a message. -/
theorem signals.intEdge {fs : List Fld} {s0 s : State} (b : Blk) (i : Nat) {f : State → State} (h : signals fs s0 (f s)) :
    signals fs s0 (s.intEdge b i f) := by
  unfold State.intEdge
  dsimp only
  split
  · exact h.sendVector _ _
  · exact h

theorem signals.raise {fs : List Fld} {s0 s : State} (h : signals fs s0 s) {b : Blk} {i : Nat} (hf : intStatus b i ∈ fs) (e : Nat) :
    signals fs s0 (s.raise b i e) := signals.intEdge b i (h.wr hf _)

theorem signals.discard {s0 s : State} (h : signals discardFields s0 s) (q : Requester) (a st r : Nat) :
    signals discardFields s0 (s.discard q a st r) := by
  have hm : ∀ f ∈ discardFields, f ∈ discardFields := fun _ h => h
  unfold State.discard
  dsimp only
  split
  · exact h.satAdd (hm _ (by simp [discardFields])) _
  · exact ((((((h.satAdd (hm _ (by simp [discardFields])) _).wr (hm _ (by simp [discardFields])) _).wr
      (hm _ (by simp [discardFields])) _).wr (hm _ (by simp [discardFields])) _).wr (hm _ (by simp [discardFields])) _).wr
      (hm _ (by simp [discardFields])) _).raise (by simp [discardFields, intStatus]) 0

/-- What a discarded write does, once and for all (R472). -/
theorem State.discard_discarded (s : State) (q : Requester) (a st r : Nat) : discarded q a st r s (s.discard q a st r) := by
  refine ⟨(signals.refl s).discard q a st r, ?_, ?_, ?_⟩
  · unfold State.discard
    dsimp only
    split
    · exact State.rd_satAdd_self ..
    · simp only [F.CHIP_WDISCARD_CNT_COUNT, F.CHIP_WDISCARD_ADDR_ADDR, F.CHIP_WDISCARD_STATE_STATE, F.CHIP_WDISCARD_STATE_REASON,
        F.CHIP_WDISCARD_STATE_SOURCE, F.CHIP_WDISCARD_STATE_VF]
      simp [State.rd_raise_reg, State.rd_wr_reg, intStatus, F.CHIP_INT_STATUS_BITS, State.rd_satAdd_self]
  · unfold State.discard
    dsimp only
    split
    · assumption
    · exact State.intBit_raise_self _ _ _ _ (by decide)
  · intro h
    have h2 : (s.satAdd F.CHIP_WDISCARD_CNT_COUNT 1).intBit .chip 0 0 = false := by
      rw [← h]
      unfold State.intBit
      congr 1
      exact State.rd_wr_ne _ _ (by decide)
    unfold State.discard
    simp only [h2, Bool.false_eq_true, if_false]
    simp only [F.CHIP_WDISCARD_ADDR_ADDR, F.CHIP_WDISCARD_STATE_STATE, F.CHIP_WDISCARD_STATE_REASON,
        F.CHIP_WDISCARD_STATE_SOURCE, F.CHIP_WDISCARD_STATE_VF]
    simp [State.rd_raise_reg, State.rd_wr_reg, State.rd_wr_lo, intStatus, F.CHIP_INT_STATUS_BITS]
    cases q <;> simp [requesterSource]

end Sys2Proof.Machine
end

