-- ==== Sys2Proof/Laws/Keeps.lean ====
section
/-! SUPPORT. What the machine's functions keep: the queue, the fuses and HBM. One relation says it for every function, and each function has
one lemma in the files Laws/Keeps*.lean. -/

namespace Sys2Proof.Machine

/-- From `s` to `t` the queue stays, fuses only grow and stay legal, and HBM stays in canonical form; with `a` the fuses are unchanged, with
`b` every byte of HBM is. -/
structure State.Keeps (a b : Bool) (s t : State) : Prop where
  pending : t.pending = s.pending
  fuses : a = true → t.fuses = s.fuses
  hbm : b = true → t.hbm = s.hbm
  grow : fusesGrow s.fuses t.fuses
  legal : fusesLegal s.fuses → fusesLegal t.fuses
  wf : Memory.wf s.hbm → Memory.wf t.hbm

theorem fusesGrow.refl (f : Fuses) : fusesGrow f f := ⟨fun _ _ h => h, fun _ h => h, Nat.le_refl _⟩

theorem fusesGrow.trans {f g h : Fuses} (a : fusesGrow f g) (b : fusesGrow g h) : fusesGrow f h :=
  ⟨fun k d e => b.1 k d (a.1 k d e), fun k e => b.2.1 k (a.2.1 k e), Nat.le_trans a.2.2 b.2.2⟩

theorem State.Keeps.refl {a b : Bool} (s : State) : State.Keeps a b s s :=
  ⟨rfl, fun _ => rfl, fun _ => rfl, fusesGrow.refl _, id, id⟩

theorem State.Keeps.trans {a b : Bool} {s t u : State} (h : State.Keeps a b s t) (k : State.Keeps a b t u) : State.Keeps a b s u :=
  ⟨k.pending.trans h.pending, fun e => (k.fuses e).trans (h.fuses e), fun e => (k.hbm e).trans (h.hbm e), h.grow.trans k.grow,
   fun e => k.legal (h.legal e), fun e => k.wf (h.wf e)⟩

/-- A state that differs elsewhere only. -/
theorem State.Keeps.upd {a b : Bool} {s0 s t : State} (h : State.Keeps a b s0 s) (h1 : t.pending = s.pending) (h2 : t.fuses = s.fuses)
    (h3 : t.hbm = s.hbm) : State.Keeps a b s0 t :=
  h.trans ⟨h1, fun _ => h2, fun _ => h3, h2 ▸ fusesGrow.refl _, fun e => h2 ▸ e, fun e => h3 ▸ e⟩

theorem State.Keeps.weak {a b : Bool} {s t : State} (h : State.Keeps a b s t) : State.Keeps false false s t :=
  ⟨h.pending, nofun, nofun, h.grow, h.legal, h.wf⟩

theorem foldl_keeps {a b : Bool} {s0 s : State} {α : Type} {g : State → α → State} {l : List α} (h : State.Keeps a b s0 s)
    (hg : ∀ t x, State.Keeps a b s0 t → State.Keeps a b s0 (g t x)) : State.Keeps a b s0 (l.foldl g s) := by
  induction l generalizing s with
  | nil => exact h
  | cons x r ih => exact ih (hg _ _ h)

/-- A fold that carries the state in its second component. -/
theorem foldl_keeps_snd {a b : Bool} {s0 : State} {α β : Type} {g : β × State → α → β × State} {l : List α} {p : β × State}
    (h : State.Keeps a b s0 p.2) (hg : ∀ q x, State.Keeps a b s0 q.2 → State.Keeps a b s0 (g q x).2) :
    State.Keeps a b s0 (l.foldl g p).2 := by
  induction l generalizing p with
  | nil => exact h
  | cons x r ih => exact ih (hg _ _ h)

/-- A fold that carries the state in its first component. -/
theorem foldl_keeps_fst {a b : Bool} {s0 : State} {α β : Type} {g : State × β → α → State × β} {l : List α} {p : State × β}
    (h : State.Keeps a b s0 p.1) (hg : ∀ q x, State.Keeps a b s0 q.1 → State.Keeps a b s0 (g q x).1) :
    State.Keeps a b s0 (l.foldl g p).1 := by
  induction l generalizing p with
  | nil => exact h
  | cons x r ih => exact ih (hg _ _ h)

theorem pair_keeps {a b : Bool} {s0 t : State} {α : Type} {p : α × State} {x : α} (h : State.Keeps a b s0 p.2) (e : p = (x, t)) :
    State.Keeps a b s0 t := by subst e; exact h

theorem pair_keeps_fst {a b : Bool} {s0 t : State} {α : Type} {p : State × α} {x : α} (h : State.Keeps a b s0 p.1) (e : p = (t, x)) :
    State.Keeps a b s0 t := by subst e; exact h

theorem triple_keeps {a b : Bool} {s0 t : State} {α β : Type} {p : α × β × State} {x : α} {y : β} (h : State.Keeps a b s0 p.2.2)
    (e : p = (x, y, t)) : State.Keeps a b s0 t := by subst e; exact h

theorem ite_keeps {a b : Bool} {s0 s t : State} {c : Prop} [Decidable c] (h : c → State.Keeps a b s0 s) (k : ¬c → State.Keeps a b s0 t) :
    State.Keeps a b s0 (if c then s else t) := by split <;> simp_all

/-- What a command answers, if it goes on, keeps what `Keeps` says. -/
def Keeping (a b : Bool) (s : State) (r : Result) : Prop := ∀ t, r = .next t → State.Keeps a b s t

theorem keeping_next {a b : Bool} {s0 t : State} (h : State.Keeps a b s0 t) : Keeping a b s0 (.next t) := by
  intro u e
  cases e
  exact h

/-- What a Dysum command's body answers keeps what `Keeps` says of its state. -/
theorem mk_keeps {a b : Bool} {s0 s : State} (h : State.Keeps a b s0 s) {regs latch held out free msixOn msixPend domA domB tsf tsfLatch tsGap
    ppsLast ppsUnread cmpAt log fatalFirst fatalStop scanStop thermTrip tmLast snap dump dumpMissed dumpStep dumpFrom histDump dys spareMap laneX
    portX laneMap swaps lmosWait pauseEnd timers path tm mat tel bpm mc atl ras boot pwr keep harb} :
    State.Keeps a b s0 {
      pending := s.pending, regs := regs, latch := latch, held := held, out := out, free := free, msixOn := msixOn, msixPend := msixPend,
      fuses := s.fuses, domA := domA, domB := domB, tsf := tsf, tsfLatch := tsfLatch, tsGap := tsGap, ppsLast := ppsLast, ppsUnread := ppsUnread,
      cmpAt := cmpAt, log := log, fatalFirst := fatalFirst, fatalStop := fatalStop, scanStop := scanStop, thermTrip := thermTrip, tmLast := tmLast,
      snap := snap, dump := dump, dumpMissed := dumpMissed, dumpStep := dumpStep, dumpFrom := dumpFrom, histDump := histDump, dys := dys,
      spareMap := spareMap, laneX := laneX, portX := portX, laneMap := laneMap, swaps := swaps, lmosWait := lmosWait, pauseEnd := pauseEnd,
      timers := timers, hbm := s.hbm, path := path, tm := tm, mat := mat, tel := tel, bpm := bpm, mc := mc, atl := atl, ras := ras, boot := boot,
      pwr := pwr, keep := keep, harb := harb } :=
  h.upd rfl rfl rfl

end Sys2Proof.Machine
end

