-- ==== Sys2Proof/Laws/Keeps1.lean ====
section
/-! SUPPORT. What the machine's functions keep, one lemma for each. -/

set_option linter.all false
set_option Elab.async false

namespace Sys2Proof.Machine

variable {a b : Bool} {s0 : State}

theorem State.wr_keeps {s : State} {f : Fld} {v : Nat} (h : State.Keeps a b s0 s) : State.Keeps a b s0 (State.wr s f v) := by
  unfold State.wr
  repeat' first | with_reducible assumption | fail_if_no_progress (with_reducible apply mk_keeps)

theorem State.wrB_keeps {s : State} {f : Fld} {x2 : Bool} (h : State.Keeps a b s0 s) : State.Keeps a b s0 (State.wrB s f x2) := by
  unfold State.wrB
  repeat' first | with_reducible assumption | with_reducible apply State.wr_keeps

theorem State.emit_keeps {s : State} {o : Out} (h : State.Keeps a b s0 s) : State.Keeps a b s0 (State.emit s o) := by
  unfold State.emit
  repeat' first | with_reducible assumption | fail_if_no_progress (with_reducible apply mk_keeps)

theorem State.sendVector_keeps {s : State} {owner : Nat} {v : Nat} (h : State.Keeps a b s0 s) : State.Keeps a b s0 (State.sendVector s owner v) := by
  unfold State.sendVector
  repeat' first | with_reducible assumption | with_reducible apply State.emit_keeps | fail_if_no_progress (with_reducible apply mk_keeps) | ((with_reducible conv => arg 4; whnf); split)

theorem State.intEdge_keeps {s0 s : State} {k : Blk} {i : Nat} {f : State → State} (h : State.Keeps a b s0 s)
    (hf : State.Keeps a b s0 s → State.Keeps a b s0 (f s)) : State.Keeps a b s0 (s.intEdge k i f) := by
  unfold State.intEdge
  dsimp only
  split
  · exact State.sendVector_keeps (hf h)
  · exact hf h

theorem State.raise_keeps {s : State} {x1 : Sys2Proof.Blk} {i : Nat} {x3 : Nat} (h : State.Keeps a b s0 s) : State.Keeps a b s0 (State.raise s x1 i x3) := by
  unfold State.raise
  repeat' first | with_reducible assumption | with_reducible apply State.intEdge_keeps | with_reducible apply State.wr_keeps

theorem State.cntAdd_keeps {s : State} {n : Nat} {v : Nat} (h : State.Keeps a b s0 s) : State.Keeps a b s0 (State.cntAdd s n v).2 := by
  unfold State.cntAdd
  repeat' first | with_reducible assumption | with_reducible apply State.wr_keeps | with_reducible apply State.wrB_keeps | with_reducible apply State.raise_keeps | ((with_reducible conv => arg 4; whnf); split) | (dsimp only; split)

theorem State.cntGlobal_keeps {s : State} {ev : Nat} {arg : Nat} {v : Nat} (h : State.Keeps a b s0 s) : State.Keeps a b s0 (State.cntGlobal s ev arg v) := by
  unfold State.cntGlobal
  repeat' first | with_reducible assumption | with_reducible apply State.cntAdd_keeps | with_reducible apply foldl_keeps | ((with_reducible conv => arg 4; whnf); split) | intro _

theorem State.wrapAdd_keeps {s : State} {f : Fld} {n : Nat} (h : State.Keeps a b s0 s) : State.Keeps a b s0 (State.wrapAdd s f n) := by
  unfold State.wrapAdd
  repeat' first | with_reducible assumption | with_reducible apply State.wr_keeps

theorem State.mib_keeps {s : State} {p : Nat} {k : Nat} {n : Nat} (h : State.Keeps a b s0 s) : State.Keeps a b s0 (State.mib s p k n) := by
  unfold State.mib
  repeat' first | with_reducible assumption | with_reducible apply State.wrapAdd_keeps

theorem State.updTel_keeps {s : State} {f : TelSt → TelSt} (h : State.Keeps a b s0 s) : State.Keeps a b s0 (State.updTel s f) := by
  unfold State.updTel
  repeat' first | with_reducible assumption | fail_if_no_progress (with_reducible apply mk_keeps)

theorem State.recLost_keeps {s : State} {c : Nat} {n : Nat} (h : State.Keeps a b s0 s) : State.Keeps a b s0 (State.recLost s c n) := by
  unfold State.recLost
  repeat' first | with_reducible assumption | with_reducible apply State.updTel_keeps | with_reducible apply State.raise_keeps | (dsimp only; split)

theorem State.telRecord_keeps {s : State} {ty : Nat} {c : Nat} {rec : Sys2Proof.Bytes} (h : State.Keeps a b s0 s) : State.Keeps a b s0 (State.telRecord s ty c rec) := by
  unfold State.telRecord
  repeat' first | with_reducible assumption | with_reducible apply State.updTel_keeps | with_reducible apply State.recLost_keeps | ((with_reducible conv => arg 4; whnf); split)

theorem State.drop_keeps {s : State} {code : Nat} {i : DropInfo} (h : State.Keeps a b s0 s) : State.Keeps a b s0 (State.drop s code i) := by
  unfold State.drop
  repeat' first | with_reducible assumption | with_reducible apply State.wrapAdd_keeps | with_reducible apply State.mib_keeps | with_reducible apply State.telRecord_keeps | ((with_reducible conv => arg 4; whnf); split)

theorem State.satAdd_keeps {s : State} {f : Fld} {n : Nat} (h : State.Keeps a b s0 s) : State.Keeps a b s0 (State.satAdd s f n) := by
  unfold State.satAdd
  repeat' first | with_reducible assumption | with_reducible apply State.wr_keeps

theorem State.lagEvent_keeps {s : State} {x1 : Nat} {x2 : Nat} (h : State.Keeps a b s0 s) : State.Keeps a b s0 (State.lagEvent s x1 x2) := by
  unfold State.lagEvent
  repeat' first | with_reducible assumption | with_reducible apply State.raise_keeps

theorem State.admitDrop_keeps {s : State} {x1 : Nat} {code : Nat} {i : DropInfo} (h : State.Keeps a b s0 s) : State.Keeps a b s0 (State.admitDrop s x1 code i) := by
  unfold State.admitDrop
  repeat' first | with_reducible assumption | with_reducible apply State.cntGlobal_keeps | with_reducible apply State.drop_keeps | with_reducible apply State.satAdd_keeps | with_reducible apply State.lagEvent_keeps | ((with_reducible conv => arg 4; whnf); split)

theorem State.updPath_keeps {s : State} {f : Path → Path} (h : State.Keeps a b s0 s) : State.Keeps a b s0 (State.updPath s f) := by
  unfold State.updPath
  repeat' first | with_reducible assumption | fail_if_no_progress (with_reducible apply mk_keeps)

theorem State.decide1_keeps {s : State} {x1 : Nat} (h : State.Keeps a b s0 s) : State.Keeps a b s0 (State.decide1 s x1) := by
  unfold State.decide1
  repeat' first | with_reducible assumption | with_reducible apply State.updPath_keeps

theorem State.ecnHeld_keeps {s : State} {k : Nat} (h : State.Keeps a b s0 s) : State.Keeps a b s0 (State.ecnHeld s k) := by
  unfold State.ecnHeld
  repeat' first | with_reducible assumption | with_reducible apply State.satAdd_keeps | with_reducible apply State.wrB_keeps

theorem State.ecnMark_keeps {s : State} {x1 : Nat} {k : Nat} {md : Meta} (h : State.Keeps a b s0 s) : State.Keeps a b s0 (State.ecnMark s x1 k md).2 := by
  unfold State.ecnMark
  repeat' first | with_reducible assumption | with_reducible apply State.ecnHeld_keeps | with_reducible apply State.cntGlobal_keeps | ((with_reducible conv => arg 4; whnf); split)

theorem State.updBpm_keeps {s : State} {f : BpmSt → BpmSt} (h : State.Keeps a b s0 s) : State.Keeps a b s0 (State.updBpm s f) := by
  unfold State.updBpm
  repeat' first | with_reducible assumption | fail_if_no_progress (with_reducible apply mk_keeps)

theorem State.ringPop_keeps {s : State} {st : Nat} {k : Nat} (h : State.Keeps a b s0 s) {y0 : Nat} {t : State} (e : State.ringPop s st k = some (y0, t)) : State.Keeps a b s0 t := by
  unfold State.ringPop at e
  dsimp only at e
  repeat' first | cases e | split at e
  repeat' first | with_reducible assumption | with_reducible apply State.updBpm_keeps

theorem State.setCache_keeps {s : State} {d : Nat} {k : Nat} {part : Nat} {l : List Nat} (h : State.Keeps a b s0 s) : State.Keeps a b s0 (State.setCache s d k part l) := by
  unfold State.setCache
  repeat' first | with_reducible assumption | with_reducible apply State.updBpm_keeps

theorem State.cacheFill_keeps {s0 s : State} {d k part x4 : Nat} (h : State.Keeps a b s0 s) :
    State.Keeps a b s0 (s.cacheFill d k part x4) := by
  induction x4 generalizing s with
  | zero => exact h
  | succ n ih =>
    unfold State.cacheFill
    dsimp only
    split
    · exact h
    · next st hd s' e =>
      obtain ⟨x, -, e⟩ := List.exists_of_findSome?_eq_some e
      obtain ⟨r, e, q⟩ := Option.map_eq_some_iff.1 e
      cases q
      exact ih (State.updBpm_keeps (State.setCache_keeps (State.ringPop_keeps h e)))

theorem State.takeHandle_keeps {s : State} {agent : Nat} {k : Nat} {avoid : Option Nat} (h : State.Keeps a b s0 s) {y0 : Nat} {t : State} (e : State.takeHandle s agent k avoid = some (y0, t)) : State.Keeps a b s0 t := by
  unfold State.takeHandle at e
  dsimp only at e
  repeat' first | cases e | split at e
  repeat' first | with_reducible assumption | with_reducible apply State.cacheFill_keeps | with_reducible apply State.setCache_keeps | ((with_reducible conv => arg 4; whnf); split)

theorem State.setEnt_keeps {s : State} {x1 : Nat} {x2 : BufEnt} (h : State.Keeps a b s0 s) : State.Keeps a b s0 (State.setEnt s x1 x2) := by
  unfold State.setEnt
  repeat' first | with_reducible assumption | with_reducible apply State.updBpm_keeps

theorem State.subFrom_keeps {s : State} {f : Fld} {n : Nat} (h : State.Keeps a b s0 s) : State.Keeps a b s0 (State.subFrom s f n) := by
  unfold State.subFrom
  repeat' first | with_reducible assumption | with_reducible apply State.wr_keeps

theorem State.bpmAlloc_keeps {s : State} {agent : Nat} {k : Nat} {domain : Nat} {avoid : optParam (Option Nat) Option.none} (h : State.Keeps a b s0 s) : State.Keeps a b s0 (State.bpmAlloc s agent k domain avoid).2.2 := by
  unfold State.bpmAlloc
  repeat' first | with_reducible assumption | with_reducible apply State.cntGlobal_keeps | with_reducible apply State.raise_keeps | refine State.takeHandle_keeps ?_ (by assumption) | with_reducible apply State.setEnt_keeps | with_reducible apply State.subFrom_keeps | with_reducible apply State.wrapAdd_keeps | ((with_reducible conv => arg 4; whnf); split) | (dsimp only; split)

theorem State.listRoom_keeps {s : State} {q : Nat} (h : State.Keeps a b s0 s) {t : State} (e : State.listRoom s q = some t) : State.Keeps a b s0 t := by
  unfold State.listRoom at e
  dsimp only at e
  repeat' first | cases e | split at e
  repeat' first | with_reducible assumption | with_reducible apply State.bpmAlloc_keeps | with_reducible apply State.updBpm_keeps

theorem State.setDeep_keeps {s : State} {q : Nat} {d : DeepQ} (h : State.Keeps a b s0 s) : State.Keeps a b s0 (State.setDeep s q d) := by
  unfold State.setDeep
  repeat' first | with_reducible assumption | with_reducible apply State.wr_keeps | with_reducible apply State.updBpm_keeps

theorem State.closePage_keeps {s0 s : State} {q : Nat} (h : State.Keeps a b s0 s) : State.Keeps a b s0 (State.closePage s q) := by
  unfold State.closePage
  refine ite_keeps (fun _ => ?_) (fun _ => h)
  split
  · exact h
  · next t e => exact State.cntGlobal_keeps (State.setDeep_keeps (State.listRoom_keeps h e))

theorem State.drawPage_keeps {s : State} {die : Nat} (h : State.Keeps a b s0 s) {y0 : Nat} {t : State} (e : State.drawPage s die = some (y0, t)) : State.Keeps a b s0 t := by
  unfold State.drawPage at e
  dsimp only at e
  repeat' first | cases e | split at e
  repeat' first | with_reducible assumption | with_reducible apply State.updBpm_keeps | with_reducible apply State.raise_keeps | with_reducible apply State.bpmAlloc_keeps | ((with_reducible conv => arg 4; whnf); split)

theorem State.openPage_keeps {s : State} {q : Nat} (h : State.Keeps a b s0 s) {t : State} (e : State.openPage s q = some t) : State.Keeps a b s0 t := by
  unfold State.openPage at e
  dsimp only at e
  repeat' first | cases e | split at e
  repeat' first | with_reducible assumption | refine State.drawPage_keeps ?_ (by assumption) | with_reducible apply State.setDeep_keeps

theorem State.roomPage_keeps {s : State} {q : Nat} {fits : Page → Bool} (h : State.Keeps a b s0 s) {t : State} (e : State.roomPage s q fits = some t) : State.Keeps a b s0 t := by
  unfold State.roomPage at e
  dsimp only at e
  repeat' first | cases e | split at e
  repeat' first | with_reducible assumption | with_reducible apply State.closePage_keeps | refine State.openPage_keeps ?_ (by assumption) | ((with_reducible conv => arg 4; whnf); split)

theorem State.updCway_keeps {s : State} {f : Cway → Cway} (h : State.Keeps a b s0 s) : State.Keeps a b s0 (State.updCway s f) := by
  unfold State.updCway
  repeat' first | with_reducible assumption | with_reducible apply State.updPath_keeps

theorem State.setBundle_keeps {s : State} {d : Nat} {x2 : Nat} {x : Bundle} (h : State.Keeps a b s0 s) : State.Keeps a b s0 (State.setBundle s d x2 x) := by
  unfold State.setBundle
  repeat' first | with_reducible assumption | with_reducible apply State.updCway_keeps

theorem State.seqFlit_keeps {s : State} {d : Nat} {x2 : Nat} {x : Body} (h : State.Keeps a b s0 s) : State.Keeps a b s0 (State.seqFlit s d x2 x) := by
  unfold State.seqFlit
  repeat' first | with_reducible assumption | with_reducible apply State.setBundle_keeps

theorem State.sendCarry_keeps {s : State} {d : Nat} {x2 : Nat} (h : State.Keeps a b s0 s) : State.Keeps a b s0 (State.sendCarry s d x2) := by
  unfold State.sendCarry
  repeat' first | with_reducible assumption | with_reducible apply State.seqFlit_keeps | with_reducible apply State.setBundle_keeps | with_reducible apply foldl_keeps | (dsimp only; split) | intro _

theorem State.setWait_keeps {s : State} {d : Nat} {vc : Nat} {l : List Body} (h : State.Keeps a b s0 s) : State.Keeps a b s0 (State.setWait s d vc l) := by
  unfold State.setWait
  repeat' first | with_reducible assumption | with_reducible apply State.updCway_keeps

theorem State.vcServed_keeps {s : State} {d : Nat} {x2 : Nat} {vc : Nat} (h : State.Keeps a b s0 s) : State.Keeps a b s0 (State.vcServed s d x2 vc) := by
  unfold State.vcServed
  repeat' first | with_reducible assumption | with_reducible apply State.updCway_keeps

theorem State.setPkt_keeps {s : State} {k : Nat} {x : Option Pkt} (h : State.Keeps a b s0 s) : State.Keeps a b s0 (State.setPkt s k x) := by
  unfold State.setPkt
  repeat' first | with_reducible assumption | with_reducible apply State.updPath_keeps

theorem State.spillUpdate_keeps {s : State} {x1 : Nat} (h : State.Keeps a b s0 s) : State.Keeps a b s0 (State.spillUpdate s x1) := by
  unfold State.spillUpdate
  repeat' first | with_reducible assumption | with_reducible apply State.lagEvent_keeps | with_reducible apply State.wrB_keeps | ((with_reducible conv => arg 4; whnf); split)

theorem State.useGrant_keeps {s : State} {d : Nat} {x2 : Nat} {x : Body} (h : State.Keeps a b s0 s) : State.Keeps a b s0 (State.useGrant s d x2 x) := by
  unfold State.useGrant
  repeat' first | with_reducible assumption | with_reducible apply State.updPath_keeps | with_reducible apply State.wrapAdd_keeps | with_reducible apply State.setPkt_keeps | with_reducible apply State.spillUpdate_keeps | with_reducible apply State.subFrom_keeps | ((with_reducible conv => arg 4; whnf); split)

theorem State.putFlit_keeps {s : State} {d : Nat} {x2 : Nat} {x : Body} (h : State.Keeps a b s0 s) : State.Keeps a b s0 (State.putFlit s d x2 x) := by
  unfold State.putFlit
  repeat' first | with_reducible assumption | with_reducible apply State.seqFlit_keeps | with_reducible apply State.setBundle_keeps | with_reducible apply State.updCway_keeps | with_reducible apply State.cntGlobal_keeps | ((with_reducible conv => arg 4; whnf); split)

theorem State.sendOne_keeps {s : State} {d : Nat} (h : State.Keeps a b s0 s) {t : State} (e : State.sendOne s d = some t) : State.Keeps a b s0 t := by
  unfold State.sendOne at e
  dsimp only at e
  repeat' first | cases e | split at e
  repeat' first | with_reducible assumption | with_reducible apply State.setWait_keeps | with_reducible apply State.vcServed_keeps | with_reducible apply State.useGrant_keeps | with_reducible apply State.updCway_keeps | with_reducible apply State.putFlit_keeps | ((with_reducible conv => arg 4; whnf); split)

theorem State.sendMany_keeps {s : State} {d : Nat} {x2 : Nat} (h : State.Keeps a b s0 s) : State.Keeps a b s0 (State.sendMany s d x2) := by
  induction x2 generalizing s d
  all_goals unfold State.sendMany
  all_goals repeat' first | with_reducible assumption | refine State.sendOne_keeps ?_ (by assumption) | ((with_reducible conv => arg 4; whnf); split) | with_reducible apply_assumption

theorem State.cwayPump_keeps {s : State} {d : Nat} (h : State.Keeps a b s0 s) : State.Keeps a b s0 (State.cwayPump s d) := by
  unfold State.cwayPump
  repeat' first | with_reducible assumption | with_reducible apply State.sendCarry_keeps | with_reducible apply State.sendMany_keeps | with_reducible apply foldl_keeps | ((with_reducible conv => arg 4; whnf); split) | intro _

theorem State.cross_keeps {s : State} {d : Nat} {l : List Body} (h : State.Keeps a b s0 s) : State.Keeps a b s0 (State.cross s d l) := by
  unfold State.cross
  repeat' first | with_reducible assumption | with_reducible apply State.cwayPump_keeps | with_reducible apply State.setWait_keeps | with_reducible apply foldl_keeps | intro _

theorem State.setPart_keeps {s : State} {q : Nat} {p : Option (Nat × Nat)} (h : State.Keeps a b s0 s) : State.Keeps a b s0 (State.setPart s q p) := by
  unfold State.setPart
  repeat' first | with_reducible assumption | with_reducible apply State.updBpm_keeps

theorem State.fillPages_keeps {s0 s : State} {q id m n : Nat} (h : State.Keeps a b s0 s) :
    State.Keeps a b s0 (State.fillPages s q id m n) := by
  induction n generalizing s with
  | zero => exact State.setPart_keeps h
  | succ n ih =>
    unfold State.fillPages
    split
    · exact State.setPart_keeps h
    · next t e =>
      refine ih ?_
      split
      · exact ite_keeps (fun _ => State.closePage_keeps (State.setDeep_keeps (State.roomPage_keeps h e)))
          (fun _ => State.setDeep_keeps (State.roomPage_keeps h e))
      · exact State.setDeep_keeps (State.roomPage_keeps h e)

theorem State.gather_keeps {s0 s : State} {q id : Nat} (h : State.Keeps a b s0 s) {t : State} (e : s.gather q id = some t) :
    State.Keeps a b s0 t := by
  unfold State.gather at e
  split at e
  · cases e; exact h
  · split at e
    · cases e
    · next v hv =>
      cases e
      exact State.fillPages_keeps (ite_keeps (fun _ => State.cross_keeps (State.setDeep_keeps (State.roomPage_keeps h hv)))
        (fun _ => State.setDeep_keeps (State.roomPage_keeps h hv)))

theorem State.gatherOrWait_keeps {s : State} {q : Nat} {id : Nat} (h : State.Keeps a b s0 s) : State.Keeps a b s0 (State.gatherOrWait s q id) := by
  unfold State.gatherOrWait
  repeat' first | with_reducible assumption | with_reducible apply State.updBpm_keeps | refine State.gather_keeps ?_ (by assumption) | ((with_reducible conv => arg 4; whnf); split)

theorem State.updTm_keeps {s : State} {f : TmSt → TmSt} (h : State.Keeps a b s0 s) : State.Keeps a b s0 (State.updTm s f) := by
  unfold State.updTm
  repeat' first | with_reducible assumption | fail_if_no_progress (with_reducible apply mk_keeps)

theorem State.wakeTags_keeps {s : State} {k : Nat} (h : State.Keeps a b s0 s) : State.Keeps a b s0 (State.wakeTags s k) := by
  unfold State.wakeTags
  repeat' first | with_reducible assumption | with_reducible apply State.updTm_keeps | (dsimp only; split)

theorem State.queueStatus_keeps {s : State} {k : Nat} (h : State.Keeps a b s0 s) : State.Keeps a b s0 (State.queueStatus s k) := by
  unfold State.queueStatus
  repeat' first | with_reducible assumption | with_reducible apply State.wrB_keeps | (dsimp only; split)

theorem State.updPort_keeps {s : State} {p : Nat} {f : PortX → PortX} (h : State.Keeps a b s0 s) : State.Keeps a b s0 (State.updPort s p f) := by
  unfold State.updPort
  repeat' first | with_reducible assumption | fail_if_no_progress (with_reducible apply mk_keeps)

theorem State.portWake_keeps {s : State} {p : Nat} (h : State.Keeps a b s0 s) : State.Keeps a b s0 (State.portWake s p) := by
  unfold State.portWake
  repeat' first | with_reducible assumption | with_reducible apply State.emit_keeps | with_reducible apply State.updPort_keeps | ((with_reducible conv => arg 4; whnf); split)

theorem State.enqueue_keeps {s : State} {k : Nat} {id : Nat} {depth : Nat} (h : State.Keeps a b s0 s) : State.Keeps a b s0 (State.enqueue s k id depth) := by
  unfold State.enqueue
  repeat' first | with_reducible assumption | with_reducible apply State.wakeTags_keeps | with_reducible apply State.updPath_keeps | with_reducible apply State.queueStatus_keeps | with_reducible apply State.wr_keeps | with_reducible apply State.portWake_keeps | ((with_reducible conv => arg 4; whnf); split)

theorem State.deliver_keeps {s : State} {id : Nat} {queues : List Nat} (h : State.Keeps a b s0 s) : State.Keeps a b s0 (State.deliver s id queues) := by
  unfold State.deliver
  repeat' first | with_reducible assumption | with_reducible apply State.gatherOrWait_keeps | with_reducible apply State.enqueue_keeps | with_reducible apply foldl_keeps | ((with_reducible conv => arg 4; whnf); split) | intro _

theorem State.charge_keeps {s : State} {x1 : Acct} {x2 : Nat} {n : Nat} (h : State.Keeps a b s0 s) : State.Keeps a b s0 (State.charge s x1 x2 n) := by
  unfold State.charge
  repeat' first | with_reducible assumption | with_reducible apply State.updPath_keeps | with_reducible apply State.wrapAdd_keeps | (dsimp only; split)

theorem State.takeIndex_keeps {s : State} {o : Nat} (h : State.Keeps a b s0 s) : State.Keeps a b s0 (State.takeIndex s o).2 := by
  unfold State.takeIndex
  repeat' first | with_reducible assumption | with_reducible apply State.updPath_keeps | ((with_reducible conv => arg 4; whnf); split) | (dsimp only; split)

theorem State.nextCell_keeps {s : State} {x1 : Nat} (h : State.Keeps a b s0 s) {y0 : Nat} {t : State} (e : State.nextCell s x1 = some (y0, t)) : State.Keeps a b s0 t := by
  unfold State.nextCell at e
  dsimp only at e
  repeat' first | cases e | split at e
  repeat' first | with_reducible assumption | with_reducible apply State.takeIndex_keeps | with_reducible apply State.updPath_keeps

theorem State.takeCells_keeps {s : State} {x1 : Nat} {x2 : Nat} (h : State.Keeps a b s0 s) : State.Keeps a b s0 (State.takeCells s x1 x2).2 := by
  induction x2 generalizing s x1
  all_goals unfold State.takeCells
  all_goals repeat' first | with_reducible assumption | refine State.nextCell_keeps ?_ (by assumption) | with_reducible apply State.wrapAdd_keeps | (dsimp only; split) | with_reducible apply_assumption

theorem State.mibTx_keeps {s : State} {p : Nat} {f : Sys2Proof.Bytes} (h : State.Keeps a b s0 s) : State.Keeps a b s0 (State.mibTx s p f) := by
  unfold State.mibTx
  repeat' first | with_reducible assumption | with_reducible apply State.mib_keeps

theorem State.dealBlock_keeps {s : State} {p : Nat} {x2 : Bits} (h : State.Keeps a b s0 s) : State.Keeps a b s0 (State.dealBlock s p x2) := by
  unfold State.dealBlock
  repeat' first | with_reducible assumption | with_reducible apply State.updPort_keeps | with_reducible apply State.emit_keeps | ((with_reducible conv => arg 4; whnf); split)

theorem State.sendBlocks_keeps {s : State} {p : Nat} {l : List Bits} (h : State.Keeps a b s0 s) : State.Keeps a b s0 (State.sendBlocks s p l) := by
  unfold State.sendBlocks
  repeat' first | with_reducible assumption | with_reducible apply State.dealBlock_keeps | with_reducible apply State.updPort_keeps | with_reducible apply foldl_keeps | intro _

theorem State.lineSend_keeps {s : State} {p : Nat} {f : Sys2Proof.Bytes} (h : State.Keeps a b s0 s) : State.Keeps a b s0 (State.lineSend s p f) := by
  unfold State.lineSend
  repeat' first | with_reducible assumption | with_reducible apply State.emit_keeps | with_reducible apply State.sendBlocks_keeps | (dsimp only; split)

theorem State.macSend_keeps {s : State} {p : Nat} {da : Nat} {etype : Nat} {payload : Sys2Proof.Bytes} (h : State.Keeps a b s0 s) : State.Keeps a b s0 (State.macSend s p da etype payload) := by
  unfold State.macSend
  repeat' first | with_reducible assumption | with_reducible apply State.mibTx_keeps | with_reducible apply State.lineSend_keeps

theorem State.sendPfc_keeps {s : State} {p : Nat} {prios : Nat} {time : Nat} (h : State.Keeps a b s0 s) : State.Keeps a b s0 (State.sendPfc s p prios time) := by
  unfold State.sendPfc
  repeat' first | with_reducible assumption | with_reducible apply State.mib_keeps | with_reducible apply State.macSend_keeps | with_reducible apply foldl_keeps | ((with_reducible conv => arg 4; whnf); split) | intro _

theorem State.pfcUpdate_keeps {s : State} {p : Nat} (h : State.Keeps a b s0 s) : State.Keeps a b s0 (State.pfcUpdate s p) := by
  unfold State.pfcUpdate
  repeat' first | with_reducible assumption | with_reducible apply State.wr_keeps | with_reducible apply State.updPort_keeps | with_reducible apply State.sendPfc_keeps | ((with_reducible conv => arg 4; whnf); split)

theorem State.askXoff_keeps {s : State} {p : Nat} {g : Nat} {on : Bool} (h : State.Keeps a b s0 s) : State.Keeps a b s0 (State.askXoff s p g on) := by
  unfold State.askXoff
  repeat' first | with_reducible assumption | with_reducible apply State.pfcUpdate_keeps | with_reducible apply State.updPort_keeps

theorem State.pgTest_keeps {s : State} {x1 : Nat} {p : Nat} {g : Nat} (h : State.Keeps a b s0 s) : State.Keeps a b s0 (State.pgTest s x1 p g) := by
  unfold State.pgTest
  repeat' first | with_reducible assumption | with_reducible apply State.cntGlobal_keeps | with_reducible apply State.askXoff_keeps | with_reducible apply State.wrB_keeps | ((with_reducible conv => arg 4; whnf); split)

theorem State.pgTests_keeps {s : State} {x1 : Nat} (h : State.Keeps a b s0 s) : State.Keeps a b s0 (State.pgTests s x1) := by
  unfold State.pgTests
  repeat' first | with_reducible assumption | with_reducible apply State.pgTest_keeps | with_reducible apply foldl_keeps | intro _

theorem State.store_keeps {s : State} {x1 : Arrival} {x : Pkt} {n : Nat} {queues : List Nat} (h : State.Keeps a b s0 s) : State.Keeps a b s0 (State.store s x1 x n queues) := by
  unfold State.store
  repeat' first | with_reducible assumption | with_reducible apply State.updPath_keeps | with_reducible apply State.subFrom_keeps | with_reducible apply State.charge_keeps | with_reducible apply State.cntGlobal_keeps | with_reducible apply State.spillUpdate_keeps | with_reducible apply State.setPkt_keeps | with_reducible apply State.takeCells_keeps | with_reducible apply State.pgTests_keeps | with_reducible apply State.deliver_keeps | with_reducible apply State.cross_keeps | ((with_reducible conv => arg 4; whnf); split)

theorem State.egrDropped_keeps {s : State} {k : Nat} (h : State.Keeps a b s0 s) : State.Keeps a b s0 (State.egrDropped s k) := by
  unfold State.egrDropped
  repeat' first | with_reducible assumption | with_reducible apply State.updPath_keeps | ((with_reducible conv => arg 4; whnf); split)

theorem State.deepEnter_keeps {s : State} {q : Nat} (h : State.Keeps a b s0 s) : State.Keeps a b s0 (State.deepEnter s q) := by
  unfold State.deepEnter
  repeat' first | with_reducible assumption | with_reducible apply State.wrapAdd_keeps | with_reducible apply State.wrB_keeps | ((with_reducible conv => arg 4; whnf); split)

theorem State.admitUnicast_keeps {s : State} {x1 : Arrival} {p : Nat} {q : Nat} (h : State.Keeps a b s0 s) : State.Keeps a b s0 (State.admitUnicast s x1 p q) := by
  unfold State.admitUnicast
  repeat' first | with_reducible assumption | with_reducible apply State.decide1_keeps | with_reducible apply State.cntGlobal_keeps | with_reducible apply State.egrDropped_keeps | with_reducible apply State.admitDrop_keeps | with_reducible apply State.ecnMark_keeps | with_reducible apply State.deepEnter_keeps | with_reducible apply State.wrapAdd_keeps | with_reducible apply State.store_keeps | ((with_reducible conv => arg 4; whnf); split)

theorem State.admitMcast_keeps {s : State} {x1 : Arrival} {queues : List Nat} {home : Nat} (h : State.Keeps a b s0 s) : State.Keeps a b s0 (State.admitMcast s x1 queues home) := by
  unfold State.admitMcast
  repeat' first | with_reducible assumption | with_reducible apply State.decide1_keeps | with_reducible apply State.cntGlobal_keeps | with_reducible apply State.admitDrop_keeps | with_reducible apply State.egrDropped_keeps | with_reducible apply State.wrapAdd_keeps | with_reducible apply State.store_keeps | with_reducible apply foldl_keeps | ((with_reducible conv => arg 4; whnf); split) | intro _

theorem State.cpuFull_keeps {s : State} {r : Nat} {i : DropInfo} (h : State.Keeps a b s0 s) : State.Keeps a b s0 (State.cpuFull s r i) := by
  unfold State.cpuFull
  repeat' first | with_reducible assumption | with_reducible apply State.satAdd_keeps | with_reducible apply State.drop_keeps | with_reducible apply State.raise_keeps | (dsimp only; split)

theorem State.admitCpu_keeps {s : State} {x1 : Arrival} {r : Nat} (h : State.Keeps a b s0 s) : State.Keeps a b s0 (State.admitCpu s x1 r) := by
  unfold State.admitCpu
  repeat' first | with_reducible assumption | with_reducible apply State.cpuFull_keeps | with_reducible apply State.decide1_keeps | with_reducible apply State.admitDrop_keeps | with_reducible apply State.store_keeps | ((with_reducible conv => arg 4; whnf); split)

theorem State.updMat_keeps {s : State} {f : MatSt → MatSt} (h : State.Keeps a b s0 s) : State.Keeps a b s0 (State.updMat s f) := by
  unfold State.updMat
  repeat' first | with_reducible assumption | fail_if_no_progress (with_reducible apply mk_keeps)

theorem State.cntIsland_keeps {s : State} {i : Nat} {x : Nat} {ev : Nat} {arg : Nat} {v : Nat} {pkt : optParam (Option (RxFrame × Meta)) Option.none} (h : State.Keeps a b s0 s) : State.Keeps a b s0 (State.cntIsland s i x ev arg v pkt) := by
  unfold State.cntIsland
  repeat' first | with_reducible assumption | with_reducible apply State.cntAdd_keeps | with_reducible apply foldl_keeps | fail_if_no_progress (with_reducible apply mk_keeps) | ((with_reducible conv => arg 4; whnf); split) | intro _

theorem State.pipeDrop_keeps {s : State} {i : Nat} {x : Nat} {code : Nat} {d : DropInfo} (h : State.Keeps a b s0 s) : State.Keeps a b s0 (State.pipeDrop s i x code d) := by
  unfold State.pipeDrop
  repeat' first | with_reducible assumption | with_reducible apply State.cntIsland_keeps | with_reducible apply State.drop_keeps

theorem State.trapPass_keeps {s0 s : State} {i x r : Nat} {ring : Option Nat} {y : Arrival} (h : State.Keeps a b s0 s) :
    State.Keeps a b s0 (s.trapPass i x r ring y) := by
  unfold State.trapPass
  refine ite_keeps (fun _ => ?_) (fun _ => ?_)
  · exact State.admitCpu_keeps (State.cntIsland_keeps (State.satAdd_keeps (State.updMat_keeps h)))
  · exact State.pipeDrop_keeps (ite_keeps (fun _ => State.raise_keeps (State.updMat_keeps (State.cntIsland_keeps (State.satAdd_keeps h))))
      (fun _ => State.updMat_keeps (State.cntIsland_keeps (State.satAdd_keeps h))))

theorem State.refund_keeps {s : State} {x1 : Acct} {x2 : Nat} {n : Nat} (h : State.Keeps a b s0 s) : State.Keeps a b s0 (State.refund s x1 x2 n) := by
  unfold State.refund
  repeat' first | with_reducible assumption | with_reducible apply State.subFrom_keeps | with_reducible apply State.updPath_keeps | ((with_reducible conv => arg 4; whnf); split)

theorem State.backIndex_keeps {s : State} {x1 : Nat} (h : State.Keeps a b s0 s) : State.Keeps a b s0 (State.backIndex s x1) := by
  unfold State.backIndex
  repeat' first | with_reducible assumption | with_reducible apply State.updPath_keeps

theorem State.ringRespond_keeps {s : State} {k : Nat} {r : Rsp} (h : State.Keeps a b s0 s) : State.Keeps a b s0 (State.ringRespond s k r) := by
  unfold State.ringRespond
  repeat' first | with_reducible assumption | with_reducible apply State.emit_keeps | with_reducible apply State.wr_keeps | with_reducible apply State.sendVector_keeps | fail_if_no_progress (with_reducible apply mk_keeps) | ((with_reducible conv => arg 4; whnf); split)

theorem State.setEth_keeps {s : State} {x1 : Nat} {x : EthX} (h : State.Keeps a b s0 s) : State.Keeps a b s0 (State.setEth s x1 x) := by
  unfold State.setEth
  repeat' first | with_reducible assumption | fail_if_no_progress (with_reducible apply mk_keeps)

theorem State.ethRespond_keeps {s : State} {x1 : Nat} {r : Rsp} (h : State.Keeps a b s0 s) : State.Keeps a b s0 (State.ethRespond s x1 r) := by
  unfold State.ethRespond
  repeat' first | with_reducible assumption | with_reducible apply State.emit_keeps | with_reducible apply State.setEth_keeps | ((with_reducible conv => arg 4; whnf); split)

theorem State.respond_keeps {s : State} {via : Sys2Proof.Via} {r : Rsp} (h : State.Keeps a b s0 s) : State.Keeps a b s0 (State.respond s via r) := by
  unfold State.respond
  repeat' first | with_reducible assumption | with_reducible apply State.ringRespond_keeps | with_reducible apply State.ethRespond_keeps | with_reducible apply State.emit_keeps | ((with_reducible conv => arg 4; whnf); split)

theorem State.finishHold_keeps {s : State} {kind : Nat} {ix : Nat} {status : Nat} {state : Nat} {detail : Nat} (h : State.Keeps a b s0 s) : State.Keeps a b s0 (State.finishHold s kind ix status state detail) := by
  unfold State.finishHold
  repeat' first | with_reducible assumption | with_reducible apply State.respond_keeps | with_reducible apply foldl_keeps | fail_if_no_progress (with_reducible apply mk_keeps) | intro _

theorem State.bankCheck_keeps {s : State} {x1 : Nat} {x2 : Nat} (h : State.Keeps a b s0 s) : State.Keeps a b s0 (State.bankCheck s x1 x2) := by
  unfold State.bankCheck
  repeat' first | with_reducible assumption | with_reducible apply State.lagEvent_keeps | with_reducible apply State.satAdd_keeps | with_reducible apply State.wr_keeps | with_reducible apply State.finishHold_keeps | (dsimp only; split)

theorem State.freeCells_keeps {s : State} {x1 : Nat} {cells : List Nat} (h : State.Keeps a b s0 s) : State.Keeps a b s0 (State.freeCells s x1 cells) := by
  unfold State.freeCells
  repeat' first | with_reducible assumption | with_reducible apply State.subFrom_keeps | with_reducible apply State.backIndex_keeps | with_reducible apply State.wrapAdd_keeps | with_reducible apply State.bankCheck_keeps | with_reducible apply State.spillUpdate_keeps | with_reducible apply foldl_keeps | ((with_reducible conv => arg 4; whnf); split) | intro _

theorem State.returnCells_keeps {s : State} {x : Pkt} (h : State.Keeps a b s0 s) : State.Keeps a b s0 (State.returnCells s x) := by
  unfold State.returnCells
  repeat' first | with_reducible assumption | with_reducible apply State.refund_keeps | with_reducible apply State.freeCells_keeps | with_reducible apply State.pgTests_keeps

theorem State.release_keeps {s : State} {k : Nat} (h : State.Keeps a b s0 s) : State.Keeps a b s0 (State.release s k) := by
  unfold State.release
  repeat' first | with_reducible assumption | with_reducible apply State.setPkt_keeps | with_reducible apply State.returnCells_keeps | ((with_reducible conv => arg 4; whnf); split)

theorem State.queueDrop_keeps {s : State} {k : Nat} {code : Nat} {x3 : QEnt} (h : State.Keeps a b s0 s) : State.Keeps a b s0 (State.queueDrop s k code x3) := by
  unfold State.queueDrop
  repeat' first | with_reducible assumption | with_reducible apply State.subFrom_keeps | with_reducible apply State.release_keeps | with_reducible apply State.drop_keeps | (dsimp only; split)

theorem State.reroute_keeps {s : State} {k : Nat} {code : Nat} {x3 : QEnt} (h : State.Keeps a b s0 s) : State.Keeps a b s0 (State.reroute s k code x3) := by
  unfold State.reroute
  repeat' first | with_reducible assumption | with_reducible apply State.queueDrop_keeps | with_reducible apply State.wrapAdd_keeps | with_reducible apply State.subFrom_keeps | with_reducible apply State.setPkt_keeps | with_reducible apply State.enqueue_keeps | ((with_reducible conv => arg 4; whnf); split)

theorem State.failQueued_keeps {s : State} {p : Nat} {code : Nat} (h : State.Keeps a b s0 s) : State.Keeps a b s0 (State.failQueued s p code) := by
  unfold State.failQueued
  repeat' first | with_reducible assumption | with_reducible apply State.queueStatus_keeps | with_reducible apply State.updPath_keeps | with_reducible apply State.reroute_keeps | with_reducible apply State.queueDrop_keeps | with_reducible apply State.closePage_keeps | with_reducible apply State.drop_keeps | with_reducible apply State.release_keeps | with_reducible apply foldl_keeps | ((with_reducible conv => arg 4; whnf); split) | intro _

theorem State.updAtl_keeps {s : State} {f : AtlSt → AtlSt} (h : State.Keeps a b s0 s) : State.Keeps a b s0 (State.updAtl s f) := by
  unfold State.updAtl
  repeat' first | with_reducible assumption | fail_if_no_progress (with_reducible apply mk_keeps)

theorem State.badRelease_keeps {s : State} {agent : Nat} {x2 : Nat} {kind : Nat} (h : State.Keeps a b s0 s) : State.Keeps a b s0 (State.badRelease s agent x2 kind) := by
  unfold State.badRelease
  repeat' first | with_reducible assumption | with_reducible apply State.wr_keeps | with_reducible apply State.raise_keeps | with_reducible apply State.satAdd_keeps

theorem State.freeBuf_keeps {s : State} {x1 : Nat} (h : State.Keeps a b s0 s) : State.Keeps a b s0 (State.freeBuf s x1) := by
  unfold State.freeBuf
  repeat' first | with_reducible assumption | with_reducible apply State.setEnt_keeps | with_reducible apply State.subFrom_keeps | with_reducible apply State.wrapAdd_keeps | with_reducible apply State.setCache_keeps | (dsimp only; split)

theorem State.bpmRelease_keeps {s : State} {agent : Nat} {x2 : Nat} (h : State.Keeps a b s0 s) : State.Keeps a b s0 (State.bpmRelease s agent x2).2 := by
  unfold State.bpmRelease
  repeat' first | with_reducible assumption | with_reducible apply State.badRelease_keeps | with_reducible apply State.freeBuf_keeps | with_reducible apply State.setEnt_keeps | ((with_reducible conv => arg 4; whnf); split) | (dsimp only; split)

theorem State.atlDone_keeps {s : State} {x : AtlIn} (h : State.Keeps a b s0 s) : State.Keeps a b s0 (State.atlDone s x) := by
  unfold State.atlDone
  repeat' first | with_reducible assumption | with_reducible apply State.subFrom_keeps | with_reducible apply State.bpmRelease_keeps | ((with_reducible conv => arg 4; whnf); split)

theorem State.atlDrop_keeps {s : State} {x : AtlIn} {code : Nat} (h : State.Keeps a b s0 s) : State.Keeps a b s0 (State.atlDrop s x code) := by
  unfold State.atlDrop
  repeat' first | with_reducible assumption | with_reducible apply State.atlDone_keeps | with_reducible apply State.satAdd_keeps | with_reducible apply State.drop_keeps | with_reducible apply State.raise_keeps | ((with_reducible conv => arg 4; whnf); split)

theorem State.atlTake_keeps {s0 s : State} {r type : Nat} {fresh : State → AtlHdr → Bool} {f : State → AtlIn → AtlHdr → State}
    (h : State.Keeps a b s0 s) (hf : ∀ t x k, State.Keeps a b s0 t → State.Keeps a b s0 (f t x k)) :
    State.Keeps a b s0 (s.atlTake r type fresh f) := by
  unfold State.atlTake
  dsimp only
  repeat' split
  · exact h
  · exact h
  · exact State.atlDrop_keeps (State.updAtl_keeps h)
  · exact hf _ _ _ (State.updAtl_keeps h)

theorem State.chunkRoom_keeps {s : State} {n : Nat} {chunk : Nat} {count : Nat} (h : State.Keeps a b s0 s) {y0 : Nat} {y1 : Option Nat} {t : State} (e : State.chunkRoom s n chunk count = some (y0, y1, t)) : State.Keeps a b s0 t := by
  unfold State.chunkRoom at e
  dsimp only at e
  repeat' first | cases e | split at e
  repeat' first | with_reducible assumption | with_reducible apply State.updAtl_keeps | with_reducible apply State.bpmAlloc_keeps | with_reducible apply State.wrapAdd_keeps

theorem State.setSess_keeps {s : State} {n : Nat} {x : Sess} (h : State.Keeps a b s0 s) : State.Keeps a b s0 (State.setSess s n x) := by
  unfold State.setSess
  repeat' first | with_reducible assumption | with_reducible apply State.wr_keeps | with_reducible apply State.updAtl_keeps

theorem State.chunkOpen_keeps {s : State} {x1 : AtlHdr} (h : State.Keeps a b s0 s) {y0 : Chunk} {t : State} (e : State.chunkOpen s x1 = .ok (y0, t)) : State.Keeps a b s0 t := by
  unfold State.chunkOpen at e
  dsimp only at e
  repeat' first | cases e | split at e
  repeat' first | with_reducible assumption | refine State.chunkRoom_keeps ?_ (by assumption) | with_reducible apply State.wr_keeps | with_reducible apply State.setSess_keeps | ((with_reducible conv => arg 4; whnf); split)

theorem State.updChunk_keeps {s : State} {n : Nat} {o : Nat} {k : Nat} {f : Chunk → Chunk} (h : State.Keeps a b s0 s) : State.Keeps a b s0 (State.updChunk s n o k f) := by
  unfold State.updChunk
  repeat' first | with_reducible assumption | with_reducible apply State.setSess_keeps

theorem State.atlSend_keeps {s : State} {n : Nat} {m : Nat} {type : Nat} {flags : Nat} {opseq : Nat} {chunk : Nat} {count : Nat} {arg : Nat} {payload : Sys2Proof.Bytes} (h : State.Keeps a b s0 s) : State.Keeps a b s0 (State.atlSend s n m type flags opseq chunk count arg payload) := by
  unfold State.atlSend
  repeat' first | with_reducible assumption | with_reducible apply State.admitUnicast_keeps | (dsimp only; split)

theorem State.sendNack_keeps {s : State} {n : Nat} {m : Nat} {opseq : Nat} {chunk : Nat} {arg : Nat} (h : State.Keeps a b s0 s) : State.Keeps a b s0 (State.sendNack s n m opseq chunk arg) := by
  unfold State.sendNack
  repeat' first | with_reducible assumption | with_reducible apply State.cntGlobal_keeps | with_reducible apply State.satAdd_keeps | with_reducible apply State.atlSend_keeps

theorem State.logWrite_keeps {s : State} {c : Nat} {code : Nat} {unit : Nat} {detail : Nat} {inj : Bool} (h : State.Keeps a b s0 s) : State.Keeps a b s0 (State.logWrite s c code unit detail inj) := by
  unfold State.logWrite
  repeat' first | with_reducible assumption | with_reducible apply State.satAdd_keeps | with_reducible apply State.wrapAdd_keeps | fail_if_no_progress (with_reducible apply mk_keeps) | ((with_reducible conv => arg 4; whnf); split)

theorem State.tidemark_keeps {s : State} {src : Nat} {logSeq : Nat} (h : State.Keeps a b s0 s) : State.Keeps a b s0 (State.tidemark s src logSeq) := by
  unfold State.tidemark
  repeat' first | with_reducible assumption | with_reducible apply State.satAdd_keeps | fail_if_no_progress (with_reducible apply mk_keeps) | ((with_reducible conv => arg 4; whnf); split)

theorem State.event_keeps {s : State} {c : Nat} {code : Nat} {unit : Nat} {detail : Nat} {inj : optParam Bool Bool.false} (h : State.Keeps a b s0 s) : State.Keeps a b s0 (State.event s c code unit detail inj) := by
  unfold State.event
  repeat' first | with_reducible assumption | with_reducible apply State.satAdd_keeps | with_reducible apply State.raise_keeps | with_reducible apply State.logWrite_keeps | with_reducible apply State.tidemark_keeps | with_reducible apply State.emit_keeps | fail_if_no_progress (with_reducible apply mk_keeps) | ((with_reducible conv => arg 4; whnf); split)

theorem State.restartChunks_keeps {s : State} {n : Nat} {p : Chunk → Bool} (h : State.Keeps a b s0 s) : State.Keeps a b s0 (State.restartChunks s n p) := by
  unfold State.restartChunks
  repeat' first | with_reducible assumption | with_reducible apply State.updChunk_keeps | with_reducible apply State.sendNack_keeps | with_reducible apply State.raise_keeps | with_reducible apply State.satAdd_keeps | with_reducible apply State.event_keeps | with_reducible apply foldl_keeps | (dsimp only; split) | intro _

theorem State.restartRole_keeps {s : State} {r : Nat} (h : State.Keeps a b s0 s) : State.Keeps a b s0 (State.restartRole s r) := by
  unfold State.restartRole
  repeat' first | with_reducible assumption | with_reducible apply State.restartChunks_keeps | with_reducible apply foldl_keeps | intro _

theorem State.injectEcc_keeps {s : State} {k : Nat} {inst : Nat} (h : State.Keeps a b s0 s) : State.Keeps a b s0 (State.injectEcc s k inst).2 := by
  unfold State.injectEcc
  repeat' first | with_reducible assumption | with_reducible apply State.wr_keeps | (dsimp only; split)

theorem State.updRas_keeps {s : State} {f : RasSt → RasSt} (h : State.Keeps a b s0 s) : State.Keeps a b s0 (State.updRas s f) := by
  unfold State.updRas
  repeat' first | with_reducible assumption | fail_if_no_progress (with_reducible apply mk_keeps)

theorem State.rateAdd_keeps {s : State} {kind : Nat} {o : Nat} {n : Nat} {inj : Bool} (h : State.Keeps a b s0 s) : State.Keeps a b s0 (State.rateAdd s kind o n inj) := by
  unfold State.rateAdd
  repeat' first | with_reducible assumption | with_reducible apply State.updRas_keeps | ((with_reducible conv => arg 4; whnf); split)

theorem State.sendPartial_keeps {s : State} {n : Nat} {p : Nat} {c : Chunk} (h : State.Keeps a b s0 s) : State.Keeps a b s0 (State.sendPartial s n p c) := by
  unfold State.sendPartial
  repeat' first | with_reducible assumption | with_reducible apply State.atlSend_keeps | with_reducible apply State.setSess_keeps | with_reducible apply State.updChunk_keeps

theorem State.contribute_keeps {s : State} {x : AtlIn} {x2 : AtlHdr} {c : Chunk} (h : State.Keeps a b s0 s) : State.Keeps a b s0 (State.contribute s x x2 c) := by
  unfold State.contribute
  repeat' first | with_reducible assumption | with_reducible apply State.injectEcc_keeps | with_reducible apply State.restartRole_keeps | with_reducible apply State.atlDone_keeps | with_reducible apply State.rateAdd_keeps | with_reducible apply State.event_keeps | with_reducible apply State.setSess_keeps | with_reducible apply State.updChunk_keeps | with_reducible apply State.sendPartial_keeps | ((with_reducible conv => arg 4; whnf); split)

theorem State.chunkFree_keeps {s : State} {n : Nat} {c : Chunk} (h : State.Keeps a b s0 s) : State.Keeps a b s0 (State.chunkFree s n c) := by
  unfold State.chunkFree
  repeat' first | with_reducible assumption | with_reducible apply State.updAtl_keeps | with_reducible apply State.subFrom_keeps | with_reducible apply State.bpmRelease_keeps | (dsimp only; split)

theorem State.sessFail_keeps {s : State} {n : Nat} {cause : Nat} {skip : Option Nat} (h : State.Keeps a b s0 s) : State.Keeps a b s0 (State.sessFail s n cause skip) := by
  unfold State.sessFail
  repeat' first | with_reducible assumption | with_reducible apply State.wr_keeps | with_reducible apply State.atlSend_keeps | with_reducible apply State.chunkFree_keeps | with_reducible apply State.setSess_keeps | with_reducible apply State.finishHold_keeps | with_reducible apply State.raise_keeps | with_reducible apply foldl_keeps | ((with_reducible conv => arg 4; whnf); split) | intro _

theorem State.contribOpen_keeps {s : State} {x : AtlIn} {x2 : AtlHdr} {c : Chunk} (h : State.Keeps a b s0 s) : State.Keeps a b s0 (State.contribOpen s x x2 c) := by
  unfold State.contribOpen
  repeat' first | with_reducible assumption | with_reducible apply State.atlDrop_keeps | with_reducible apply State.sessFail_keeps | with_reducible apply State.contribute_keeps | ((with_reducible conv => arg 4; whnf); split)

theorem State.resendResult_keeps {s : State} {n : Nat} {m : Nat} {x : Staged} (h : State.Keeps a b s0 s) : State.Keeps a b s0 (State.resendResult s n m x) := by
  unfold State.resendResult
  repeat' first | with_reducible assumption | with_reducible apply State.atlSend_keeps | ((with_reducible conv => arg 4; whnf); split)

theorem execContribReceive_keeps (r : Fin 32) (s : State) : Keeping a b s (execContribReceive r s) := by
  unfold execContribReceive
  repeat' first | with_reducible assumption | with_reducible exact State.Keeps.refl _ | with_reducible apply State.atlTake_keeps | with_reducible apply State.atlDrop_keeps | with_reducible apply State.contribOpen_keeps | with_reducible apply State.resendResult_keeps | refine State.chunkOpen_keeps ?_ (by assumption) | with_reducible apply State.contribute_keeps | with_reducible apply keeping_next | ((with_reducible conv => arg 4; whnf); split) | intro _

theorem execResultReceive_keeps (r : Fin 32) (s : State) : Keeping a b s (execResultReceive r s) := by
  unfold execResultReceive
  repeat' first | with_reducible assumption | with_reducible exact State.Keeps.refl _ | with_reducible apply State.atlTake_keeps | with_reducible apply State.atlDrop_keeps | with_reducible apply State.atlDone_keeps | with_reducible apply State.updChunk_keeps | refine State.chunkOpen_keeps ?_ (by assumption) | with_reducible apply keeping_next | ((with_reducible conv => arg 4; whnf); split) | intro _

theorem State.roleSessions_keeps {s : State} {n : Nat} {add : Bool} (h : State.Keeps a b s0 s) : State.Keeps a b s0 (State.roleSessions s n add) := by
  unfold State.roleSessions
  repeat' first | with_reducible assumption | with_reducible apply State.wrapAdd_keeps | with_reducible apply State.subFrom_keeps | with_reducible apply foldl_keeps | ((with_reducible conv => arg 4; whnf); split) | intro _

theorem State.sessCount_keeps {s : State} (h : State.Keeps a b s0 s) : State.Keeps a b s0 (State.sessCount s) := by
  unfold State.sessCount
  repeat' first | with_reducible assumption | with_reducible apply State.wr_keeps

theorem State.sessIdle_keeps {s : State} {n : Nat} (h : State.Keeps a b s0 s) : State.Keeps a b s0 (State.sessIdle s n) := by
  unfold State.sessIdle
  repeat' first | with_reducible assumption | with_reducible apply State.chunkFree_keeps | with_reducible apply State.roleSessions_keeps | with_reducible apply State.wr_keeps | with_reducible apply State.updAtl_keeps | with_reducible apply State.setSess_keeps | with_reducible apply State.finishHold_keeps | with_reducible apply State.sessCount_keeps | with_reducible apply foldl_keeps | intro _

theorem State.chunkClose_keeps {s : State} {n : Nat} {c : Chunk} (h : State.Keeps a b s0 s) : State.Keeps a b s0 (State.chunkClose s n c) := by
  unfold State.chunkClose
  repeat' first | with_reducible assumption | with_reducible apply State.chunkFree_keeps | with_reducible apply State.setSess_keeps | with_reducible apply State.cntGlobal_keeps | with_reducible apply State.wrapAdd_keeps | with_reducible apply State.updAtl_keeps | with_reducible apply State.wr_keeps | with_reducible apply State.sessIdle_keeps | ((with_reducible conv => arg 4; whnf); split)

theorem State.stageResult_keeps {s : State} {n : Nat} {x : Staged} (h : State.Keeps a b s0 s) : State.Keeps a b s0 (State.stageResult s n x) := by
  unfold State.stageResult
  repeat' first | with_reducible assumption | with_reducible apply State.setSess_keeps | ((with_reducible conv => arg 4; whnf); split)

theorem State.admitResult_keeps {s : State} {die : Nat} {copies : List (Nat × Sys2Proof.Bytes)} (h : State.Keeps a b s0 s) : State.Keeps a b s0 (State.admitResult s die copies) := by
  unfold State.admitResult
  repeat' first | with_reducible assumption | with_reducible apply State.cntGlobal_keeps | with_reducible apply State.admitDrop_keeps | with_reducible apply State.wrapAdd_keeps | with_reducible apply State.store_keeps | with_reducible apply foldl_keeps | ((with_reducible conv => arg 4; whnf); split) | intro _

theorem State.sendResult_keeps {s : State} {n : Nat} {x : Staged} (h : State.Keeps a b s0 s) : State.Keeps a b s0 (State.sendResult s n x) := by
  unfold State.sendResult
  repeat' first | with_reducible assumption | with_reducible apply State.admitResult_keeps

theorem State.finishChunk_keeps {s : State} {n : Nat} {c : Chunk} {count : Nat} {arg : Nat} {data : Sys2Proof.Bytes} (h : State.Keeps a b s0 s) : State.Keeps a b s0 (State.finishChunk s n c count arg data) := by
  unfold State.finishChunk
  repeat' first | with_reducible assumption | with_reducible apply State.chunkClose_keeps | with_reducible apply State.stageResult_keeps | with_reducible apply State.sendResult_keeps

theorem execChunkResultSend_keeps (n : Fin 4096) (s : State) : Keeping a b s (execChunkResultSend n s) := by
  unfold execChunkResultSend
  repeat' first | with_reducible assumption | with_reducible exact State.Keeps.refl _ | with_reducible apply State.finishChunk_keeps | with_reducible apply keeping_next | ((with_reducible conv => arg 4; whnf); split)

theorem execAtollNackReceive_keeps (r : Fin 32) (s : State) : Keeping a b s (execAtollNackReceive r s) := by
  unfold execAtollNackReceive
  repeat' first | with_reducible assumption | with_reducible exact State.Keeps.refl _ | with_reducible apply State.atlTake_keeps | with_reducible apply State.atlDone_keeps | with_reducible apply State.atlSend_keeps | with_reducible apply State.resendResult_keeps | with_reducible apply State.raise_keeps | with_reducible apply State.sendNack_keeps | with_reducible apply keeping_next | ((with_reducible conv => arg 4; whnf); split) | intro _

theorem State.extendDeadlines_keeps {s : State} {n : Nat} (h : State.Keeps a b s0 s) : State.Keeps a b s0 (State.extendDeadlines s n) := by
  unfold State.extendDeadlines
  repeat' first | with_reducible assumption | with_reducible apply State.setSess_keeps

theorem execHoldOffReceive_keeps (r : Fin 32) (s : State) : Keeping a b s (execHoldOffReceive r s) := by
  unfold execHoldOffReceive
  repeat' first | with_reducible assumption | with_reducible exact State.Keeps.refl _ | with_reducible apply State.atlTake_keeps | with_reducible apply State.satAdd_keeps | with_reducible apply State.atlDone_keeps | with_reducible apply State.extendDeadlines_keeps | with_reducible apply State.setSess_keeps | with_reducible apply keeping_next | intro _

theorem execAbortReceive_keeps (r : Fin 32) (s : State) : Keeping a b s (execAbortReceive r s) := by
  unfold execAbortReceive
  repeat' first | with_reducible assumption | with_reducible exact State.Keeps.refl _ | with_reducible apply State.atlTake_keeps | with_reducible apply State.sessFail_keeps | with_reducible apply State.atlDone_keeps | with_reducible apply keeping_next | intro _

theorem execNackDelayExpire_keeps (n : Fin 4096) (opseq : BitVec 32) (chunk : BitVec 32) (s : State) : Keeping a b s (execNackDelayExpire n opseq chunk s) := by
  unfold execNackDelayExpire
  repeat' first | with_reducible assumption | with_reducible exact State.Keeps.refl _ | with_reducible apply State.updChunk_keeps | with_reducible apply State.sendNack_keeps | with_reducible apply foldl_keeps | with_reducible apply keeping_next | ((with_reducible conv => arg 4; whnf); split) | intro _

theorem execChunkDeadline_keeps (n : Fin 4096) (opseq : BitVec 32) (chunk : BitVec 32) (s : State) : Keeping a b s (execChunkDeadline n opseq chunk s) := by
  unfold execChunkDeadline
  repeat' first | with_reducible assumption | with_reducible exact State.Keeps.refl _ | with_reducible apply State.sessFail_keeps | with_reducible apply keeping_next | ((with_reducible conv => arg 4; whnf); split)

theorem execHoldOffSend_keeps (n : Fin 4096) (s : State) : Keeping a b s (execHoldOffSend n s) := by
  unfold execHoldOffSend
  repeat' first | with_reducible assumption | with_reducible exact State.Keeps.refl _ | with_reducible apply State.setSess_keeps | with_reducible apply State.atlSend_keeps | with_reducible apply State.extendDeadlines_keeps | with_reducible apply foldl_keeps | with_reducible apply keeping_next | ((with_reducible conv => arg 4; whnf); split) | intro _

theorem State.mapRecord_keeps {s : State} {k : Nat} {id : Nat} {v : Nat} (h : State.Keeps a b s0 s) : State.Keeps a b s0 (State.mapRecord s k id v) := by
  unfold State.mapRecord
  repeat' first | with_reducible assumption | fail_if_no_progress (with_reducible apply mk_keeps)

theorem State.engineDrain_keeps {s : State} {x1 : Nat} (h : State.Keeps a b s0 s) : State.Keeps a b s0 (State.engineDrain s x1) := by
  unfold State.engineDrain
  repeat' first | with_reducible assumption | with_reducible apply State.mapRecord_keeps | with_reducible apply State.wr_keeps

theorem State.spareConsumed_keeps {s : State} {k : Nat} {x2 : Sys2Proof.Blk} {i : Nat} {unit : Nat} {detail : Nat} (h : State.Keeps a b s0 s) : State.Keeps a b s0 (State.spareConsumed s k x2 i unit detail) := by
  unfold State.spareConsumed
  repeat' first | with_reducible assumption | with_reducible apply State.satAdd_keeps | with_reducible apply State.subFrom_keeps | with_reducible apply State.event_keeps

theorem State.engineTake_keeps {s : State} {x1 : Nat} {r : Nat} {byCmd : Bool} (h : State.Keeps a b s0 s) : State.Keeps a b s0 (State.engineTake s x1 r byCmd) := by
  unfold State.engineTake
  repeat' first | with_reducible assumption | with_reducible apply State.wr_keeps | with_reducible apply State.raise_keeps | with_reducible apply State.satAdd_keeps | with_reducible apply State.mapRecord_keeps | with_reducible apply State.spareConsumed_keeps | with_reducible apply State.subFrom_keeps | with_reducible apply State.finishHold_keeps | ((with_reducible conv => arg 4; whnf); split)

theorem execEngineReplace_keeps (x0 : Fin 36) (s : State) : Keeping a b s (execEngineReplace x0 s) := by
  unfold execEngineReplace
  repeat' first | with_reducible assumption | with_reducible exact State.Keeps.refl _ | with_reducible apply State.engineDrain_keeps | with_reducible apply State.engineTake_keeps | with_reducible apply keeping_next | ((with_reducible conv => arg 4; whnf); split)

theorem State.moveRole_keeps {s : State} {r : Nat} {x2 : Nat} (h : State.Keeps a b s0 s) : State.Keeps a b s0 (State.moveRole s r x2) := by
  unfold State.moveRole
  repeat' first | with_reducible assumption | with_reducible apply State.wr_keeps | with_reducible apply State.wrapAdd_keeps | with_reducible apply State.restartChunks_keeps | with_reducible apply foldl_keeps | ((with_reducible conv => arg 4; whnf); split) | intro _

end Sys2Proof.Machine
end

