-- ==== Sys2Proof/Laws/Keeps2.lean ====
section
/-! SUPPORT. What the machine's functions keep, one lemma for each. -/

set_option linter.all false
set_option Elab.async false

namespace Sys2Proof.Machine

variable {a b : Bool} {s0 : State}

theorem State.requestCount_keeps {s : State} (h : State.Keeps a b s0 s) : State.Keeps a b s0 (State.requestCount s) := by
  unfold State.requestCount
  repeat' first | with_reducible assumption | with_reducible apply State.wr_keeps

theorem State.requestClear_keeps {s : State} {n : Nat} (h : State.Keeps a b s0 s) : State.Keeps a b s0 (State.requestClear s n) := by
  unfold State.requestClear
  repeat' first | with_reducible assumption | with_reducible apply State.wr_keeps | with_reducible apply State.requestCount_keeps | with_reducible apply State.updRas_keeps

theorem State.requestRemove_keeps {s : State} {kind : Nat} {o : Nat} (h : State.Keeps a b s0 s) : State.Keeps a b s0 (State.requestRemove s kind o) := by
  unfold State.requestRemove
  repeat' first | with_reducible assumption | with_reducible apply State.requestClear_keeps | ((with_reducible conv => arg 4; whnf); split)

theorem State.noSpare_keeps {s : State} {kind : Nat} {o : Nat} (h : State.Keeps a b s0 s) : State.Keeps a b s0 (State.noSpare s kind o) := by
  unfold State.noSpare
  repeat' first | with_reducible assumption | with_reducible apply State.event_keeps

theorem execEngineFault_keeps (x0 : Fin 36) (logic : Bool) (s : State) : Keeping a b s (execEngineFault x0 logic s) := by
  unfold execEngineFault
  repeat' first | with_reducible assumption | with_reducible exact State.Keeps.refl _ | with_reducible apply State.restartRole_keeps | with_reducible apply State.engineTake_keeps | with_reducible apply State.mapRecord_keeps | with_reducible apply State.requestRemove_keeps | with_reducible apply State.wr_keeps | with_reducible apply State.moveRole_keeps | with_reducible apply State.noSpare_keeps | with_reducible apply State.raise_keeps | with_reducible apply State.satAdd_keeps | with_reducible apply keeping_next | ((with_reducible conv => arg 4; whnf); split)

theorem State.writeMember_keeps {s : State} {k : Nat} {m : Sys2Proof.AtlMember} (h : State.Keeps a b s0 s) : State.Keeps a b s0 (State.writeMember s k m) := by
  unfold State.writeMember
  repeat' first | with_reducible assumption | with_reducible apply State.wr_keeps | with_reducible apply State.wrB_keeps | with_reducible apply foldl_keeps | intro _

theorem State.sessWrite_keeps {s : State} {n : Nat} {base : Nat} {roles : Nat} {spill : Nat} {o : Sys2Proof.AtlOpen} (h : State.Keeps a b s0 s) : State.Keeps a b s0 (State.sessWrite s n base roles spill o) := by
  unfold State.sessWrite
  repeat' first | with_reducible assumption | with_reducible apply State.wr_keeps | with_reducible apply State.wrB_keeps | with_reducible apply State.writeMember_keeps | with_reducible apply State.sessCount_keeps | with_reducible apply State.roleSessions_keeps | with_reducible apply State.updAtl_keeps | with_reducible apply foldl_keeps | intro _

theorem State.sessOpen_keeps {s : State} {n : Nat} {o : Sys2Proof.AtlOpen} (h : State.Keeps a b s0 s) : State.Keeps a b s0 (State.sessOpen s n o).2 := by
  unfold State.sessOpen
  repeat' first | with_reducible assumption | with_reducible apply State.sessWrite_keeps | ((with_reducible conv => arg 4; whnf); split) | (dsimp only; split)

theorem State.atlQueue_keeps {s : State} {x : AtlIn} (h : State.Keeps a b s0 s) : State.Keeps a b s0 (State.atlQueue s x) := by
  unfold State.atlQueue
  repeat' first | with_reducible assumption | with_reducible apply State.bpmAlloc_keeps | with_reducible apply State.updAtl_keeps | with_reducible apply State.wrapAdd_keeps | with_reducible apply State.atlDrop_keeps | ((with_reducible conv => arg 4; whnf); split)

theorem State.atlHandoff_keeps {s : State} {x : AtlIn} (h : State.Keeps a b s0 s) : State.Keeps a b s0 (State.atlHandoff s x) := by
  unfold State.atlHandoff
  repeat' first | with_reducible assumption | with_reducible apply State.atlQueue_keeps | with_reducible apply State.cross_keeps | with_reducible apply State.updCway_keeps | (dsimp only; split)

theorem State.stageRelease_keeps {s : State} {n : Nat} (h : State.Keeps a b s0 s) : State.Keeps a b s0 (State.stageRelease s n) := by
  unfold State.stageRelease
  repeat' first | with_reducible assumption | with_reducible apply State.setSess_keeps

theorem State.deviceReset_keeps {s0 s : State} {cause : ResetCause} {src : Nat} {i2c : Bool} (h : State.Keeps false false s0 s) :
    State.Keeps false false s0 (s.deviceReset cause src i2c) := by
  refine h.trans ⟨rfl, nofun, nofun, ?_, ?_, ?_⟩
  · unfold State.deviceReset
    dsimp only
    split <;> exact fusesGrow.refl _
  · unfold State.deviceReset
    dsimp only
    split <;> exact id
  · unfold State.deviceReset
    dsimp only
    split
    · exact fun _ => Memory.wf_nil
    · exact id

theorem execDeviceReset_keeps (cause : Sys2Proof.ResetCause) (src : Fin 4) (i2c : Bool) (s : State) : Keeping false false s (execDeviceReset cause src i2c s) := by
  unfold execDeviceReset
  repeat' first | with_reducible assumption | with_reducible exact State.Keeps.refl _ | with_reducible apply State.deviceReset_keeps | with_reducible apply keeping_next

theorem execJtagDevReset_keeps (s : State) : Keeping false false s (execJtagDevReset s) := by
  unfold execJtagDevReset
  repeat' first | with_reducible assumption | with_reducible exact State.Keeps.refl _ | with_reducible apply State.deviceReset_keeps | with_reducible apply keeping_next | fail_if_no_progress (with_reducible apply mk_keeps)

theorem State.updBoot_keeps {s : State} {f : BootSt → BootSt} (h : State.Keeps a b s0 s) : State.Keeps a b s0 (State.updBoot s f) := by
  unfold State.updBoot
  repeat' first | with_reducible assumption | fail_if_no_progress (with_reducible apply mk_keeps)

theorem execPowerUpRails_keeps (s : State) : Keeping a b s (execPowerUpRails s) := by
  unfold execPowerUpRails
  repeat' first | with_reducible assumption | with_reducible exact State.Keeps.refl _ | with_reducible apply State.updBoot_keeps | with_reducible apply keeping_next

theorem State.stageEnter_keeps {s : State} {st : Nat} (h : State.Keeps a b s0 s) : State.Keeps a b s0 (State.stageEnter s st) := by
  unfold State.stageEnter
  repeat' first | with_reducible assumption | with_reducible apply State.updBoot_keeps | with_reducible apply State.wr_keeps

theorem State.keyRegs_keeps {s : State} (h : State.Keeps a b s0 s) : State.Keeps a b s0 (State.keyRegs s) := by
  unfold State.keyRegs
  repeat' first | with_reducible assumption | with_reducible apply State.wr_keeps | with_reducible apply foldl_keeps | intro _

theorem State.fuseSense_keeps {s : State} (h : State.Keeps a b s0 s) : State.Keeps a b s0 (State.fuseSense s) := by
  unfold State.fuseSense
  repeat' first | with_reducible assumption | with_reducible apply State.keyRegs_keeps | with_reducible apply State.wr_keeps | with_reducible apply State.subFrom_keeps | with_reducible apply foldl_keeps | intro _

theorem execFuseDone_keeps (s : State) : Keeping a b s (execFuseDone s) := by
  unfold execFuseDone
  repeat' first | with_reducible assumption | with_reducible exact State.Keeps.refl _ | with_reducible apply State.stageEnter_keeps | with_reducible apply State.fuseSense_keeps | with_reducible apply keeping_next | ((with_reducible conv => arg 4; whnf); split)

theorem State.fetchFrom_keeps {s : State} {src : Nat} (h : State.Keeps a b s0 s) : State.Keeps a b s0 (State.fetchFrom s src) := by
  unfold State.fetchFrom
  repeat' first | with_reducible assumption | with_reducible apply State.updBoot_keeps | with_reducible apply State.stageEnter_keeps

theorem execClockDone_keeps (ref0 : Bool) (ref1 : Bool) (s : State) : Keeping a b s (execClockDone ref0 ref1 s) := by
  unfold execClockDone
  repeat' first | with_reducible assumption | with_reducible exact State.Keeps.refl _ | with_reducible apply State.wrB_keeps | with_reducible apply State.wr_keeps | with_reducible apply State.fetchFrom_keeps | with_reducible apply keeping_next | ((with_reducible conv => arg 4; whnf); split)

theorem State.discard_keeps {s : State} {q : Requester} {addr : Nat} {state : Nat} {reason : Nat} (h : State.Keeps a b s0 s) : State.Keeps a b s0 (State.discard s q addr state reason) := by
  unfold State.discard
  repeat' first | with_reducible assumption | with_reducible apply State.satAdd_keeps | with_reducible apply State.wr_keeps | with_reducible apply State.raise_keeps | (dsimp only; split)

theorem State.locked_keeps {s : State} {q : Requester} {r : RegName} {k : Nat} {state : Nat} (h : State.Keeps a b s0 s) : State.Keeps a b s0 (State.locked s q r k state) := by
  unfold State.locked
  repeat' first | with_reducible assumption | with_reducible apply State.discard_keeps

theorem State.pcieGo_keeps {s : State} {q : Requester} (h : State.Keeps a b s0 s) : State.Keeps a b s0 (State.pcieGo s q) := by
  unfold State.pcieGo
  repeat' first | with_reducible assumption | with_reducible apply State.updBoot_keeps | with_reducible apply State.wrB_keeps | with_reducible apply State.fetchFrom_keeps | with_reducible apply State.locked_keeps | ((with_reducible conv => arg 4; whnf); split)

theorem execBootPcieGo_keeps (q : Requester) (s : State) : Keeping a b s (execBootPcieGo q s) := by
  unfold execBootPcieGo
  repeat' first | with_reducible assumption | with_reducible exact State.Keeps.refl _ | with_reducible apply State.pcieGo_keeps | with_reducible apply keeping_next | ((with_reducible conv => arg 4; whnf); split)

theorem execFetchDone_keeps (image : Sys2Proof.Image) (s : State) : Keeping a b s (execFetchDone image s) := by
  unfold execFetchDone
  repeat' first | with_reducible assumption | with_reducible exact State.Keeps.refl _ | with_reducible apply State.updBoot_keeps | with_reducible apply State.stageEnter_keeps | with_reducible apply keeping_next | ((with_reducible conv => arg 4; whnf); split)

theorem State.bootFailed_keeps {s : State} (h : State.Keeps a b s0 s) : State.Keeps a b s0 (State.bootFailed s) := by
  unfold State.bootFailed
  repeat' first | with_reducible assumption | with_reducible apply State.raise_keeps | with_reducible apply State.updBoot_keeps | with_reducible apply State.stageEnter_keeps

theorem State.nextSource_keeps {s : State} (h : State.Keeps a b s0 s) : State.Keeps a b s0 (State.nextSource s) := by
  unfold State.nextSource
  repeat' first | with_reducible assumption | with_reducible apply State.fetchFrom_keeps | with_reducible apply State.bootFailed_keeps | ((with_reducible conv => arg 4; whnf); split)

theorem State.imageRejected_keeps {s : State} {code : Nat} {staged : Bool} (h : State.Keeps a b s0 s) : State.Keeps a b s0 (State.imageRejected s code staged) := by
  unfold State.imageRejected
  repeat' first | with_reducible assumption | with_reducible apply State.wr_keeps | with_reducible apply State.raise_keeps | with_reducible apply State.satAdd_keeps | with_reducible apply State.wrB_keeps

theorem execVerifyDone_keeps (s : State) : Keeping a b s (execVerifyDone s) := by
  unfold execVerifyDone
  repeat' first | with_reducible assumption | with_reducible exact State.Keeps.refl _ | with_reducible apply State.raise_keeps | with_reducible apply State.stageEnter_keeps | with_reducible apply State.nextSource_keeps | with_reducible apply State.imageRejected_keeps | with_reducible apply keeping_next | ((with_reducible conv => arg 4; whnf); split)

theorem State.pokeWord_keeps {s : State} {x1 : Nat × Nat} (h : State.Keeps a b s0 s) : State.Keeps a b s0 (State.pokeWord s x1) := by
  unfold State.pokeWord
  repeat' first | with_reducible assumption | with_reducible apply State.wr_keeps | with_reducible apply foldl_keeps | ((with_reducible conv => arg 4; whnf); split) | intro _

theorem State.partition_keeps {s : State} {rs : List (Nat × Nat × Nat × Nat)} {ps : List (Nat × Nat)} {vs : List (Nat × Nat)} (h : State.Keeps a b s0 s) : State.Keeps a b s0 (State.partition s rs ps vs) := by
  unfold State.partition
  repeat' first | with_reducible assumption | with_reducible apply State.wr_keeps | with_reducible apply State.updBpm_keeps | with_reducible apply State.pokeWord_keeps | with_reducible apply foldl_keeps | intro _

theorem State.freeLanes_keeps {s : State} {p : Nat} (h : State.Keeps a b s0 s) : State.Keeps a b s0 (State.freeLanes s p) := by
  unfold State.freeLanes
  repeat' first | with_reducible assumption | with_reducible apply State.wr_keeps | with_reducible apply foldl_keeps | fail_if_no_progress (with_reducible apply mk_keeps) | ((with_reducible conv => arg 4; whnf); split) | intro _

theorem State.portEnter_keeps {s : State} {p : Nat} {st : Nat} (h : State.Keeps a b s0 s) : State.Keeps a b s0 (State.portEnter s p st) := by
  unfold State.portEnter
  repeat' first | with_reducible assumption | with_reducible apply State.raise_keeps | with_reducible apply State.wr_keeps | ((with_reducible conv => arg 4; whnf); split)

theorem State.define_keeps {s : State} {d : Sys2Proof.PortDef} (h : State.Keeps a b s0 s) : State.Keeps a b s0 (State.define s d) := by
  unfold State.define
  repeat' first | with_reducible assumption | with_reducible apply State.freeLanes_keeps | with_reducible apply State.wr_keeps | with_reducible apply State.wrB_keeps | with_reducible apply State.portEnter_keeps | with_reducible apply foldl_keeps | ((with_reducible conv => arg 4; whnf); split) | intro _

theorem State.putProgram_keeps {s : State} {y : Nat} {graph : Option Sys2Proof.ParseGraph} {prog : Option Sys2Proof.Program} {values : List Nat} (h : State.Keeps a b s0 s) : State.Keeps a b s0 (State.putProgram s y graph prog values) := by
  unfold State.putProgram
  repeat' first | with_reducible assumption | with_reducible apply State.wr_keeps | with_reducible apply State.updMat_keeps | with_reducible apply foldl_keeps | intro _

theorem State.addTable_keeps {s : State} {pool : Nat} {x2 : Sys2Proof.TblLayout} (h : State.Keeps a b s0 s) : State.Keeps a b s0 (State.addTable s pool x2) := by
  unfold State.addTable
  repeat' first | with_reducible assumption | with_reducible apply State.updMat_keeps | with_reducible apply State.wr_keeps | with_reducible apply State.wrB_keeps | with_reducible apply foldl_keeps | intro _

theorem State.initReg_keeps {s : State} {pool : Nat} {place : Nat} {x3 : Nat} {ix : Nat} {v : Nat} (h : State.Keeps a b s0 s) : State.Keeps a b s0 (State.initReg s pool place x3 ix v) := by
  unfold State.initReg
  repeat' first | with_reducible assumption | with_reducible apply State.updMat_keeps

theorem State.setEntry_keeps {s : State} {pool : Nat} {x2 : Nat} {ix : Nat} {x4 : ClsEntry} (h : State.Keeps a b s0 s) : State.Keeps a b s0 (State.setEntry s pool x2 ix x4) := by
  unfold State.setEntry
  repeat' first | with_reducible assumption | with_reducible apply State.updMat_keeps

theorem State.initEntries_keeps {s : State} {pool : Nat} {g : Nat} {fresh : Nat → Bool} {ok : Nat → Bool} {l : List (Nat × Nat × List Nat)} (h : State.Keeps a b s0 s) : State.Keeps a b s0 (State.initEntries s pool g fresh ok l) := by
  unfold State.initEntries
  repeat' first | with_reducible assumption | with_reducible apply State.initReg_keeps | with_reducible apply State.setEntry_keeps | with_reducible apply foldl_keeps | ((with_reducible conv => arg 4; whnf); split) | intro _

theorem State.initRegs_keeps {s : State} {pool : Nat} {g : Nat} {fresh : Bool} {l : List (Nat × Nat)} (h : State.Keeps a b s0 s) : State.Keeps a b s0 (State.initRegs s pool g fresh l) := by
  unfold State.initRegs
  repeat' first | with_reducible assumption | with_reducible apply State.initReg_keeps | with_reducible apply foldl_keeps | ((with_reducible conv => arg 4; whnf); split) | intro _

theorem State.overcommitUpdate_keeps {s : State} {x1 : Nat} (h : State.Keeps a b s0 s) : State.Keeps a b s0 (State.overcommitUpdate s x1) := by
  unfold State.overcommitUpdate
  repeat' first | with_reducible assumption | with_reducible apply State.wrB_keeps | with_reducible apply State.lagEvent_keeps | (dsimp only; split)

theorem State.loadSec_keeps {s : State} {c : Sec} (h : State.Keeps a b s0 s) : State.Keeps a b s0 (State.loadSec s c) := by
  unfold State.loadSec
  repeat' first | with_reducible assumption | with_reducible apply State.wr_keeps | with_reducible apply State.define_keeps | with_reducible apply State.putProgram_keeps | with_reducible apply State.addTable_keeps | with_reducible apply State.updMat_keeps | with_reducible apply State.initEntries_keeps | with_reducible apply State.initRegs_keeps | with_reducible apply State.wrB_keeps | with_reducible apply State.overcommitUpdate_keeps | with_reducible apply State.pokeWord_keeps | with_reducible apply State.partition_keeps | with_reducible apply foldl_keeps | (dsimp only; split) | intro _

theorem State.dropHeld_keeps {s : State} {q : Requester} {r : RegName} {k : Nat} (h : State.Keeps a b s0 s) : State.Keeps a b s0 (State.dropHeld s q r k) := by
  unfold State.dropHeld
  repeat' first | with_reducible assumption | fail_if_no_progress (with_reducible apply mk_keeps) | ((with_reducible conv => arg 4; whnf); split)

theorem State.intStatusWrite_keeps {s : State} {x1 : Sys2Proof.Blk} {i : Nat} {v : Nat} (h : State.Keeps a b s0 s) : State.Keeps a b s0 (State.intStatusWrite s x1 i v) := by
  unfold State.intStatusWrite
  repeat' first | with_reducible assumption | with_reducible apply State.wr_keeps | with_reducible apply State.sendVector_keeps | (dsimp only; split)

theorem State.intMaskWrite_keeps {s : State} {x1 : Sys2Proof.Blk} {i : Nat} {v : Nat} (h : State.Keeps a b s0 s) : State.Keeps a b s0 (State.intMaskWrite s x1 i v) := by
  unfold State.intMaskWrite
  repeat' first | with_reducible assumption | with_reducible apply State.intEdge_keeps | with_reducible apply State.wr_keeps

theorem State.shapeWrite_keeps {s : State} {r : RegName} {k : Nat} (h : State.Keeps a b s0 s) : State.Keeps a b s0 (State.shapeWrite s r k) := by
  unfold State.shapeWrite
  repeat' first | with_reducible assumption | with_reducible apply State.updTm_keeps | ((with_reducible conv => arg 4; whnf); split)

theorem State.takeFields_keeps {s : State} {r : RegName} {k : Nat} {v : Nat} (h : State.Keeps a b s0 s) : State.Keeps a b s0 (State.takeFields s r k v) := by
  unfold State.takeFields
  repeat' first | with_reducible assumption | with_reducible apply State.wr_keeps | with_reducible apply foldl_keeps | ((with_reducible conv => arg 4; whnf); split) | intro _

theorem State.plainWrite_keeps {s : State} {q : Requester} {r : RegName} {k : Nat} {v : Nat} (h : State.Keeps a b s0 s) : State.Keeps a b s0 (State.plainWrite s q r k v) := by
  unfold State.plainWrite
  repeat' first | with_reducible assumption | with_reducible apply State.shapeWrite_keeps | with_reducible apply State.takeFields_keeps | with_reducible apply State.locked_keeps | ((with_reducible conv => arg 4; whnf); split)

theorem writeSpill_keeps {s0 s : State} {r : RegName} {q : Requester} {k v : Nat} (h : State.Keeps a b s0 s) :
    State.Keeps a b s0 (writeSpill r s q k v) := State.spillUpdate_keeps (State.plainWrite_keeps h)

theorem writePool_keeps {s : State} {q : Requester} {k v : Nat} (h : State.Keeps a b s0 s) : State.Keeps a b s0 (writePool s q k v) := by
  unfold writePool
  repeat' first | with_reducible assumption | with_reducible apply State.pgTests_keeps | with_reducible apply State.overcommitUpdate_keeps | with_reducible apply State.plainWrite_keeps

theorem writePgCfg_keeps {s : State} {q : Requester} {k v : Nat} (h : State.Keeps a b s0 s) : State.Keeps a b s0 (writePgCfg s q k v) := by
  unfold writePgCfg
  repeat' first | with_reducible assumption | with_reducible apply State.pgTest_keeps | with_reducible apply State.plainWrite_keeps

theorem State.ran_keeps {s : State} {k : Timer} {i : Nat} {x3 : Nat} (h : State.Keeps a b s0 s) : State.Keeps a b s0 (State.ran s k i x3) := by
  unfold State.ran
  repeat' first | with_reducible assumption | fail_if_no_progress (with_reducible apply mk_keeps)

theorem State.alphaWritten_keeps {s : State} {k : Nat} {was : Bool} {old : Nat} (h : State.Keeps a b s0 s) : State.Keeps a b s0 (State.alphaWritten s k was old) := by
  unfold State.alphaWritten
  repeat' first | with_reducible assumption | with_reducible apply State.updPath_keeps | with_reducible apply State.wr_keeps | with_reducible apply State.ran_keeps | (dsimp only; split)

theorem writeQCfg_keeps {s : State} {q : Requester} {k v : Nat} (h : State.Keeps a b s0 s) : State.Keeps a b s0 (writeQCfg s q k v) := by
  unfold writeQCfg
  repeat' first | with_reducible assumption | with_reducible apply State.alphaWritten_keeps | with_reducible apply State.plainWrite_keeps

theorem writeMqCfg_keeps {s : State} {q : Requester} {k v : Nat} (h : State.Keeps a b s0 s) : State.Keeps a b s0 (writeMqCfg s q k v) := by
  unfold writeMqCfg
  repeat' first | with_reducible assumption | with_reducible apply State.alphaWritten_keeps | with_reducible apply State.plainWrite_keeps

theorem State.after_keeps {s0 s s' : State} {r : Result} (k : Keeping a b s' r) (h' : State.Keeps a b s0 s')
    (h : State.Keeps a b s0 s) : State.Keeps a b s0 (s.after r) := by
  unfold State.after
  split
  · exact h'.trans (k _ rfl)
  · exact h

theorem State.tblRead_keeps {s : State} {k : Nat} (h : State.Keeps a b s0 s) : State.Keeps a b s0 (State.tblRead s k) := by
  unfold State.tblRead
  repeat' first | with_reducible assumption | with_reducible apply State.wr_keeps | with_reducible apply foldl_keeps | intro _

theorem execCntTblRead_keeps (q : Requester) (i : Fin 16) (d : Fin 2) (s : State) : Keeping a b s (execCntTblRead q i d s) := by
  unfold execCntTblRead
  repeat' first | with_reducible assumption | with_reducible exact State.Keeps.refl _ | with_reducible apply State.tblRead_keeps | with_reducible apply keeping_next | ((with_reducible conv => arg 4; whnf); split)

theorem execCntTblReadClear_keeps (q : Requester) (i : Fin 16) (d : Fin 2) (s : State) : Keeping a b s (execCntTblReadClear q i d s) := by
  unfold execCntTblReadClear
  repeat' first | with_reducible assumption | with_reducible exact State.Keeps.refl _ | with_reducible apply State.updMat_keeps | with_reducible apply State.tblRead_keeps | with_reducible apply keeping_next | (dsimp only; split)

theorem writeTblCmd_keeps {s0 s : State} {q : Requester} {k v : Nat} (h : State.Keeps a b s0 s) :
    State.Keeps a b s0 (writeTblCmd s q k v) := by
  unfold writeTblCmd
  dsimp only
  split
  · exact State.after_keeps (execCntTblRead_keeps _ _ _ _) h h
  · exact State.after_keeps (execCntTblReadClear_keeps _ _ _ _) h h
  · exact h

theorem State.setMeter_keeps {s : State} {i : Nat} {ix : Nat} {m : Meter} (h : State.Keeps a b s0 s) : State.Keeps a b s0 (State.setMeter s i ix m) := by
  unfold State.setMeter
  repeat' first | with_reducible assumption | with_reducible apply State.updMat_keeps

theorem State.mtrCommand_keeps {s0 s : State} {i : Nat} {f : State → Meter → Meter × State} (h : State.Keeps a b s0 s)
    (hf : ∀ t m, State.Keeps a b s0 t → State.Keeps a b s0 (f t m).2) : State.Keeps a b s0 (s.mtrCommand i f) := by
  unfold State.mtrCommand
  refine ite_keeps (fun _ => State.wr_keeps h) (fun _ => ?_)
  have h1 := State.ran_keeps (s := s) (k := .mtr) (i := i) (x3 := s.now + 40) h
  exact ite_keeps (fun _ => State.wr_keeps h1) (fun _ => State.wr_keeps (State.setMeter_keeps (hf _ _ h1)))

theorem execMtrWrite_keeps (q : Requester) (i : Fin 16) (s : State) : Keeping a b s (execMtrWrite q i s) := by
  unfold execMtrWrite
  repeat' first | with_reducible assumption | with_reducible exact State.Keeps.refl _ | with_reducible apply State.mtrCommand_keeps | with_reducible apply keeping_next | (dsimp only; split) | intro _

theorem execMtrWriteKeep_keeps (q : Requester) (i : Fin 16) (s : State) : Keeping a b s (execMtrWriteKeep q i s) := by
  unfold execMtrWriteKeep
  repeat' first | with_reducible assumption | with_reducible exact State.Keeps.refl _ | with_reducible apply State.mtrCommand_keeps | with_reducible apply keeping_next | (dsimp only; split) | intro _

theorem execMtrRead_keeps (q : Requester) (i : Fin 16) (s : State) : Keeping a b s (execMtrRead q i s) := by
  unfold execMtrRead
  repeat' first | with_reducible assumption | with_reducible exact State.Keeps.refl _ | with_reducible apply State.mtrCommand_keeps | with_reducible apply State.wr_keeps | with_reducible apply foldl_keeps | with_reducible apply keeping_next | (dsimp only; split) | intro _

theorem writeMtrCmd_keeps {s0 s : State} {q : Requester} {k v : Nat} (h : State.Keeps a b s0 s) :
    State.Keeps a b s0 (writeMtrCmd s q k v) := by
  unfold writeMtrCmd
  dsimp only
  split
  · exact State.after_keeps (execMtrWrite_keeps _ _ _) h h
  · exact State.after_keeps (execMtrWriteKeep_keeps _ _ _) h h
  · exact State.after_keeps (execMtrRead_keeps _ _ _) h h
  · exact h

theorem execPipePortLiveWrite_keeps (q : Requester) (i : Fin 16) (w : Fin 16) (v : BitVec 32) (s : State) : Keeping a b s (execPipePortLiveWrite q i w v s) := by
  unfold execPipePortLiveWrite
  repeat' first | with_reducible assumption | with_reducible exact State.Keeps.refl _ | with_reducible apply State.wr_keeps | with_reducible apply State.locked_keeps | with_reducible apply keeping_next | ((with_reducible conv => arg 4; whnf); split)

theorem writePortLive_keeps {s : State} {q : Requester} {k v : Nat} (h : State.Keeps a b s0 s) : State.Keeps a b s0 (writePortLive s q k v) := by
  unfold writePortLive
  repeat' first | with_reducible assumption | (with_reducible refine State.after_keeps (execPipePortLiveWrite_keeps _ _ _ _ _) ?_ ?_)

theorem writeMacRx_keeps {s : State} {q : Requester} {k v : Nat} (h : State.Keeps a b s0 s) : State.Keeps a b s0 (writeMacRx s q k v) := by
  unfold writeMacRx
  repeat' first | with_reducible assumption | with_reducible apply State.plainWrite_keeps | with_reducible apply State.updPort_keeps | (dsimp only; split)

theorem writePfcCfg_keeps {s : State} {q : Requester} {k v : Nat} (h : State.Keeps a b s0 s) : State.Keeps a b s0 (writePfcCfg s q k v) := by
  unfold writePfcCfg
  repeat' first | with_reducible assumption | with_reducible apply State.pfcUpdate_keeps | with_reducible apply State.plainWrite_keeps

theorem execPpeBankSwitch_keeps (q : Requester) (i : Fin 16) (active : Bool) (s : State) : Keeping a b s (execPpeBankSwitch q i active s) := by
  unfold execPpeBankSwitch
  repeat' first | with_reducible assumption | with_reducible exact State.Keeps.refl _ | with_reducible apply State.locked_keeps | with_reducible apply State.satAdd_keeps | with_reducible apply State.wrB_keeps | with_reducible apply State.raise_keeps | with_reducible apply State.updMat_keeps | with_reducible apply keeping_next | ((with_reducible conv => arg 4; whnf); split)

theorem writePpeBank_keeps {s : State} {q : Requester} {k v : Nat} (h : State.Keeps a b s0 s) : State.Keeps a b s0 (writePpeBank s q k v) := by
  unfold writePpeBank
  repeat' first | with_reducible assumption | (with_reducible refine State.after_keeps (execPpeBankSwitch_keeps _ _ _ _) ?_ ?_)

theorem State.clsResult_keeps {s : State} {pool : Nat} {r : Nat} {valid : Bool} (h : State.Keeps a b s0 s) : State.Keeps a b s0 (State.clsResult s pool r valid) := by
  unfold State.clsResult
  repeat' first | with_reducible assumption | with_reducible apply State.wrB_keeps | with_reducible apply State.wr_keeps

theorem State.clsCommand_keeps {s : State} {q : Requester} {pool : Nat} {ok : Bool → Bool} {f : State → Sys2Proof.TblLayout → ClsEntry → ClsEntry} (h : State.Keeps a b s0 s) : State.Keeps a b s0 (State.clsCommand s q pool ok f) := by
  unfold State.clsCommand
  repeat' first | with_reducible assumption | with_reducible apply State.wr_keeps | with_reducible apply State.ran_keeps | with_reducible apply State.clsResult_keeps | with_reducible apply State.setEntry_keeps | with_reducible apply State.raise_keeps | with_reducible apply State.locked_keeps | ((with_reducible conv => arg 4; whnf); split)

theorem execClsWriteData_keeps (q : Requester) (i : Fin 16) (d : Fin 2) (first : Fin 32) (last : Fin 32) (s : State) : Keeping a b s (execClsWriteData q i d first last s) := by
  unfold execClsWriteData
  repeat' first | with_reducible assumption | with_reducible exact State.Keeps.refl _ | with_reducible apply State.clsCommand_keeps | with_reducible apply keeping_next | ((with_reducible conv => arg 4; whnf); split)

theorem execClsSetValid_keeps (q : Requester) (i : Fin 16) (d : Fin 2) (s : State) : Keeping a b s (execClsSetValid q i d s) := by
  unfold execClsSetValid
  repeat' first | with_reducible assumption | with_reducible exact State.Keeps.refl _ | with_reducible apply State.clsCommand_keeps | with_reducible apply keeping_next | ((with_reducible conv => arg 4; whnf); split)

theorem execClsClearValid_keeps (q : Requester) (i : Fin 16) (d : Fin 2) (s : State) : Keeping a b s (execClsClearValid q i d s) := by
  unfold execClsClearValid
  repeat' first | with_reducible assumption | with_reducible exact State.Keeps.refl _ | with_reducible apply State.clsCommand_keeps | with_reducible apply keeping_next | ((with_reducible conv => arg 4; whnf); split)

theorem execClsWriteAction_keeps (q : Requester) (i : Fin 16) (d : Fin 2) (s : State) : Keeping a b s (execClsWriteAction q i d s) := by
  unfold execClsWriteAction
  repeat' first | with_reducible assumption | with_reducible exact State.Keeps.refl _ | with_reducible apply State.clsCommand_keeps | with_reducible apply keeping_next | ((with_reducible conv => arg 4; whnf); split)

theorem State.showEntry_keeps {s : State} {pool : Nat} (h : State.Keeps a b s0 s) : State.Keeps a b s0 (State.showEntry s pool) := by
  unfold State.showEntry
  repeat' first | with_reducible assumption | with_reducible apply State.wr_keeps | with_reducible apply foldl_keeps | ((with_reducible conv => arg 4; whnf); split) | intro _

theorem execClsRead_keeps (q : Requester) (i : Fin 16) (d : Fin 2) (s : State) : Keeping a b s (execClsRead q i d s) := by
  unfold execClsRead
  repeat' first | with_reducible assumption | with_reducible exact State.Keeps.refl _ | with_reducible apply State.clsCommand_keeps | with_reducible apply State.showEntry_keeps | with_reducible apply keeping_next | ((with_reducible conv => arg 4; whnf); split)

theorem writeClsCmd_keeps {s0 s : State} {q : Requester} {k v : Nat} (h : State.Keeps a b s0 s) :
    State.Keeps a b s0 (writeClsCmd s q k v) := by
  unfold writeClsCmd
  dsimp only
  split
  · exact State.after_keeps (execClsWriteData_keeps _ _ _ _ _ _) h h
  · exact State.after_keeps (execClsSetValid_keeps _ _ _ _) h h
  · exact State.after_keeps (execClsClearValid_keeps _ _ _ _) h h
  · exact State.after_keeps (execClsWriteAction_keeps _ _ _ _) h h
  · exact State.after_keeps (execClsRead_keeps _ _ _ _) h h
  · exact h

theorem execLaneBitslip_keeps (q : Requester) (l : Fin 544) (s : State) : Keeping a b s (execLaneBitslip q l s) := by
  unfold execLaneBitslip
  repeat' first | with_reducible assumption | with_reducible exact State.Keeps.refl _ | with_reducible apply State.wr_keeps | with_reducible apply State.locked_keeps | with_reducible apply keeping_next | ((with_reducible conv => arg 4; whnf); split)

theorem writeBitslip_keeps {s : State} {q : Requester} {k v : Nat} (h : State.Keeps a b s0 s) : State.Keeps a b s0 (writeBitslip s q k v) := by
  unfold writeBitslip
  repeat' first | with_reducible assumption | (with_reducible refine State.after_keeps (execLaneBitslip_keeps _ _ _) ?_ ?_) | ((with_reducible conv => arg 4; whnf); split)

theorem State.updLane_keeps {s : State} {l : Nat} {f : LaneX → LaneX} (h : State.Keeps a b s0 s) : State.Keeps a b s0 (State.updLane s l f) := by
  unfold State.updLane
  repeat' first | with_reducible assumption | fail_if_no_progress (with_reducible apply mk_keeps)

theorem State.laneEnter_keeps {s : State} {l : Nat} {st : Nat} (h : State.Keeps a b s0 s) : State.Keeps a b s0 (State.laneEnter s l st) := by
  unfold State.laneEnter
  repeat' first | with_reducible assumption | with_reducible apply State.raise_keeps | with_reducible apply State.wr_keeps | with_reducible apply State.wrB_keeps | with_reducible apply State.updLane_keeps | ((with_reducible conv => arg 4; whnf); split)

theorem State.loadTaps_keeps {s : State} {l : Nat} {c : List ℤ} (h : State.Keeps a b s0 s) : State.Keeps a b s0 (State.loadTaps s l c) := by
  unfold State.loadTaps
  repeat' first | with_reducible assumption | with_reducible apply State.wr_keeps | with_reducible apply foldl_keeps | (dsimp only; split) | intro _

theorem State.laneTrain_keeps {s : State} {l : Nat} (h : State.Keeps a b s0 s) : State.Keeps a b s0 (State.laneTrain s l) := by
  unfold State.laneTrain
  repeat' first | with_reducible assumption | with_reducible apply State.updLane_keeps | with_reducible apply State.laneEnter_keeps | with_reducible apply State.updPort_keeps | with_reducible apply State.loadTaps_keeps | ((with_reducible conv => arg 4; whnf); split)

theorem State.advertise_keeps {s : State} {p : Nat} (h : State.Keeps a b s0 s) : State.Keeps a b s0 (State.advertise s p) := by
  unfold State.advertise
  repeat' first | with_reducible assumption | with_reducible apply State.emit_keeps | ((with_reducible conv => arg 4; whnf); split)

theorem State.portOn_keeps {s : State} {p : Nat} (h : State.Keeps a b s0 s) : State.Keeps a b s0 (State.portOn s p) := by
  unfold State.portOn
  repeat' first | with_reducible assumption | with_reducible apply State.updPort_keeps | with_reducible apply State.wrB_keeps | with_reducible apply State.laneTrain_keeps | with_reducible apply State.advertise_keeps | with_reducible apply State.portEnter_keeps | with_reducible apply foldl_keeps | (dsimp only; split) | intro _

theorem State.livenessClear_keeps {s : State} {p : Nat} (h : State.Keeps a b s0 s) : State.Keeps a b s0 (State.livenessClear s p) := by
  unfold State.livenessClear
  repeat' first | with_reducible assumption | with_reducible apply State.raise_keeps | with_reducible apply State.wr_keeps | with_reducible apply foldl_keeps | (dsimp only; split) | intro _

theorem State.lmosSend_keeps {s : State} {l : Nat} {code : Nat} {logical : Nat} {arg : Nat} {tag : Nat} {x6 : Bool} (h : State.Keeps a b s0 s) : State.Keeps a b s0 (State.lmosSend s l code logical arg tag x6) := by
  unfold State.lmosSend
  repeat' first | with_reducible assumption | with_reducible apply State.emit_keeps | fail_if_no_progress (with_reducible apply mk_keeps) | (dsimp only; split)

theorem State.lmosAnswered_keeps {s : State} {l : Nat} (h : State.Keeps a b s0 s) : State.Keeps a b s0 (State.lmosAnswered s l) := by
  unfold State.lmosAnswered
  repeat' first | with_reducible assumption | fail_if_no_progress (with_reducible apply mk_keeps)

theorem State.setSwap_keeps {s : State} {p : Nat} {x : Option Swap} (h : State.Keeps a b s0 s) : State.Keeps a b s0 (State.setSwap s p x) := by
  unfold State.setSwap
  repeat' first | with_reducible assumption | with_reducible apply State.wrB_keeps | fail_if_no_progress (with_reducible apply mk_keeps)

theorem State.setMirror_keeps {s : State} {x : Swap} {x2 : Bool} (h : State.Keeps a b s0 s) : State.Keeps a b s0 (State.setMirror s x x2) := by
  unfold State.setMirror
  repeat' first | with_reducible assumption | with_reducible apply State.wrB_keeps

theorem State.swapEnd_keeps {s : State} {p : Nat} {last : Nat} {status : Nat} {x : Swap} (h : State.Keeps a b s0 s) : State.Keeps a b s0 (State.swapEnd s p last status x) := by
  unfold State.swapEnd
  repeat' first | with_reducible assumption | with_reducible apply State.lmosAnswered_keeps | with_reducible apply State.setSwap_keeps | with_reducible apply State.setMirror_keeps | with_reducible apply State.updPort_keeps | with_reducible apply State.wr_keeps | with_reducible apply State.mapRecord_keeps | with_reducible apply State.finishHold_keeps

theorem State.swapAbort_keeps {s : State} {p : Nat} {last : Nat} {send : Bool} (h : State.Keeps a b s0 s) : State.Keeps a b s0 (State.swapAbort s p last send) := by
  unfold State.swapAbort
  repeat' first | with_reducible assumption | with_reducible apply State.lmosSend_keeps | with_reducible apply State.raise_keeps | with_reducible apply State.swapEnd_keeps | ((with_reducible conv => arg 4; whnf); split)

theorem State.spareReady_keeps {s : State} {p : Nat} (h : State.Keeps a b s0 s) : State.Keeps a b s0 (State.spareReady s p) := by
  unfold State.spareReady
  repeat' first | with_reducible assumption | with_reducible apply State.wrB_keeps

theorem State.rejoin_keeps {s : State} {k : Nat} (h : State.Keeps a b s0 s) : State.Keeps a b s0 (State.rejoin s k) := by
  unfold State.rejoin
  repeat' first | with_reducible assumption | with_reducible apply State.updTm_keeps | ((with_reducible conv => arg 4; whnf); split)

theorem State.pauseUpdate_keeps {s : State} {p : Nat} (h : State.Keeps a b s0 s) : State.Keeps a b s0 (State.pauseUpdate s p) := by
  unfold State.pauseUpdate
  repeat' first | with_reducible assumption | with_reducible apply State.wr_keeps | with_reducible apply State.rejoin_keeps | with_reducible apply State.queueStatus_keeps | with_reducible apply foldl_keeps | ((with_reducible conv => arg 4; whnf); split) | intro _

theorem State.pauseRelease_keeps {s : State} {p : Nat} {g : Nat} (h : State.Keeps a b s0 s) : State.Keeps a b s0 (State.pauseRelease s p g) := by
  unfold State.pauseRelease
  repeat' first | with_reducible assumption | with_reducible apply State.pauseUpdate_keeps | with_reducible apply State.wr_keeps | fail_if_no_progress (with_reducible apply mk_keeps)

theorem State.clearPauses_keeps {s : State} {p : Nat} (h : State.Keeps a b s0 s) : State.Keeps a b s0 (State.clearPauses s p) := by
  unfold State.clearPauses
  repeat' first | with_reducible assumption | with_reducible apply State.pauseRelease_keeps | with_reducible apply foldl_keeps | intro _

theorem State.partnerChanged_keeps {s : State} {p : Nat} (h : State.Keeps a b s0 s) : State.Keeps a b s0 (State.partnerChanged s p) := by
  unfold State.partnerChanged
  repeat' first | with_reducible assumption | with_reducible apply State.raise_keeps | with_reducible apply State.satAdd_keeps | with_reducible apply State.wr_keeps

theorem State.partnerInvalid_keeps {s : State} {p : Nat} (h : State.Keeps a b s0 s) : State.Keeps a b s0 (State.partnerInvalid s p) := by
  unfold State.partnerInvalid
  repeat' first | with_reducible assumption | with_reducible apply State.spareReady_keeps | with_reducible apply State.partnerChanged_keeps | with_reducible apply State.wrB_keeps | ((with_reducible conv => arg 4; whnf); split)

theorem State.portOff_keeps {s : State} {p : Nat} (h : State.Keeps a b s0 s) : State.Keeps a b s0 (State.portOff s p) := by
  unfold State.portOff
  repeat' first | with_reducible assumption | with_reducible apply State.livenessClear_keeps | with_reducible apply State.swapAbort_keeps | with_reducible apply State.wrB_keeps | with_reducible apply State.laneEnter_keeps | with_reducible apply State.updPort_keeps | with_reducible apply State.portEnter_keeps | with_reducible apply State.spareReady_keeps | with_reducible apply State.failQueued_keeps | with_reducible apply State.pfcUpdate_keeps | with_reducible apply State.clearPauses_keeps | with_reducible apply State.partnerInvalid_keeps | with_reducible apply foldl_keeps | (dsimp only; split) | intro _

theorem execPortCtlEnable_keeps (q : Requester) (p : Fin 512) (on : Bool) (s : State) : Keeping a b s (execPortCtlEnable q p on s) := by
  unfold execPortCtlEnable
  repeat' first | with_reducible assumption | with_reducible exact State.Keeps.refl _ | with_reducible apply State.locked_keeps | with_reducible apply State.portOn_keeps | with_reducible apply State.portOff_keeps | with_reducible apply keeping_next | ((with_reducible conv => arg 4; whnf); split)

theorem writePortCtl_keeps {s : State} {q : Requester} {k v : Nat} (h : State.Keeps a b s0 s) : State.Keeps a b s0 (writePortCtl s q k v) := by
  unfold writePortCtl
  repeat' first | with_reducible assumption | (with_reducible refine State.after_keeps (execPortCtlEnable_keeps _ _ _ _) ?_ ?_)

theorem writePortCfg_keeps {s : State} {q : Requester} {k v : Nat} (h : State.Keeps a b s0 s) : State.Keeps a b s0 (writePortCfg s q k v) := by
  unfold writePortCfg
  repeat' first | with_reducible assumption | with_reducible apply State.plainWrite_keeps | with_reducible apply State.wrB_keeps | (dsimp only; split)

theorem writeTxTap_keeps {s : State} {q : Requester} {k v : Nat} (h : State.Keeps a b s0 s) : State.Keeps a b s0 (writeTxTap s q k v) := by
  unfold writeTxTap
  repeat' first | with_reducible assumption | with_reducible apply State.plainWrite_keeps | with_reducible apply State.wr_keeps | (dsimp only; split)

theorem State.armCompare_keeps {s : State} (h : State.Keeps a b s0 s) : State.Keeps a b s0 (State.armCompare s) := by
  unfold State.armCompare
  repeat' first | with_reducible assumption | fail_if_no_progress (with_reducible apply mk_keeps)

theorem writeTmCmp_keeps {s : State} {q : Requester} {k v : Nat} (h : State.Keeps a b s0 s) : State.Keeps a b s0 (writeTmCmp s q k v) := by
  unfold writeTmCmp
  repeat' first | with_reducible assumption | with_reducible apply State.plainWrite_keeps | with_reducible apply State.armCompare_keeps | fail_if_no_progress (with_reducible apply mk_keeps) | (dsimp only; split)

theorem State.sampleClear_keeps {s : State} {r : Nat} {o : Nat} (h : State.Keeps a b s0 s) : State.Keeps a b s0 (State.sampleClear s r o) := by
  unfold State.sampleClear
  repeat' first | with_reducible assumption | with_reducible apply State.wrB_keeps | with_reducible apply foldl_keeps | ((with_reducible conv => arg 4; whnf); split) | intro _

theorem State.updHarb_keeps {s : State} {f : HarbSt → HarbSt} (h : State.Keeps a b s0 s) : State.Keeps a b s0 (State.updHarb s f) := by
  unfold State.updHarb
  repeat' first | with_reducible assumption | fail_if_no_progress (with_reducible apply mk_keeps)

theorem State.popQueue_keeps {s : State} {k : Nat} (h : State.Keeps a b s0 s) : State.Keeps a b s0 (State.popQueue s k) := by
  unfold State.popQueue
  repeat' first | with_reducible assumption | with_reducible apply State.queueStatus_keeps | with_reducible apply State.updPath_keeps

theorem State.cpuFlush_keeps {s : State} {r : Nat} {x2 : Nat} (h : State.Keeps a b s0 s) : State.Keeps a b s0 (State.cpuFlush s r x2) := by
  induction x2 generalizing s r
  all_goals unfold State.cpuFlush
  all_goals repeat' first | with_reducible assumption | with_reducible apply State.cpuFull_keeps | with_reducible apply State.popQueue_keeps | with_reducible apply State.release_keeps | (dsimp only; split) | with_reducible apply_assumption

theorem State.ringEnable_keeps {s : State} {tx : Bool} {r : Nat} {on : Bool} (h : State.Keeps a b s0 s) : State.Keeps a b s0 (State.ringEnable s tx r on) := by
  unfold State.ringEnable
  repeat' first | with_reducible assumption | with_reducible apply State.wrB_keeps | with_reducible apply State.updHarb_keeps | with_reducible apply State.cpuFlush_keeps | ((with_reducible conv => arg 4; whnf); split)

theorem State.ringCfg_keeps {s : State} {q : Requester} {tx : Bool} {r : Nat} {v : Nat} (h : State.Keeps a b s0 s) : State.Keeps a b s0 (State.ringCfg s q tx r v) := by
  unfold State.ringCfg
  repeat' first | with_reducible assumption | with_reducible apply State.locked_keeps | with_reducible apply State.wr_keeps | with_reducible apply State.sampleClear_keeps | with_reducible apply State.ringEnable_keeps | ((with_reducible conv => arg 4; whnf); split)

theorem execLaneEnable_keeps (l : Fin 544) (s : State) : Keeping a b s (execLaneEnable l s) := by
  unfold execLaneEnable
  repeat' first | with_reducible assumption | with_reducible exact State.Keeps.refl _ | with_reducible apply State.wrB_keeps | with_reducible apply State.laneTrain_keeps | with_reducible apply keeping_next | (dsimp only; split)

theorem State.linkFailure_keeps {s0 s : State} {p cause : Nat} (h : State.Keeps a b s0 s) :
    State.Keeps a b s0 (State.linkFailure s p cause) := by
  unfold State.linkFailure
  refine ite_keeps (fun _ => h) (fun _ => ?_)
  refine State.failQueued_keeps (State.pfcUpdate_keeps (State.clearPauses_keeps (State.partnerInvalid_keeps ?_)))
  refine ite_keeps (fun _ => ?_) (fun _ => State.emit_keeps (State.updPort_keeps ?_))
  all_goals exact State.updPort_keeps (State.raise_keeps (State.portEnter_keeps (foldl_keeps (State.satAdd_keeps (State.wr_keeps
    (State.livenessClear_keeps (State.swapAbort_keeps h)))) fun t l ht => ite_keeps (fun _ => State.laneTrain_keeps ht) (fun _ => ht))))

theorem State.lockLost_keeps {s : State} {l : Nat} (h : State.Keeps a b s0 s) : State.Keeps a b s0 (State.lockLost s l) := by
  unfold State.lockLost
  repeat' first | with_reducible assumption | with_reducible apply State.laneTrain_keeps | with_reducible apply State.swapAbort_keeps | with_reducible apply State.linkFailure_keeps | with_reducible apply State.wr_keeps | with_reducible apply State.spareReady_keeps | ((with_reducible conv => arg 4; whnf); split)

theorem execLaneDisable_keeps (l : Fin 544) (s : State) : Keeping a b s (execLaneDisable l s) := by
  unfold execLaneDisable
  repeat' first | with_reducible assumption | with_reducible exact State.Keeps.refl _ | with_reducible apply State.wrB_keeps | with_reducible apply State.lockLost_keeps | with_reducible apply State.laneEnter_keeps | with_reducible apply keeping_next | (dsimp only; split)

theorem writeLaneCtl_keeps {s : State} {q : Requester} {k v : Nat} (h : State.Keeps a b s0 s) : State.Keeps a b s0 (writeLaneCtl s q k v) := by
  unfold writeLaneCtl
  repeat' first | with_reducible assumption | with_reducible apply State.wrB_keeps | with_reducible apply State.plainWrite_keeps | (with_reducible refine State.after_keeps (execLaneEnable_keeps _ _) ?_ ?_) | (with_reducible refine State.after_keeps (execLaneDisable_keeps _ _) ?_ ?_) | ((with_reducible conv => arg 4; whnf); split)

theorem execLightModeWrite_keeps (q : Requester) (d : Fin 2) (mode : Bool) (s : State) : Keeping a b s (execLightModeWrite q d mode s) := by
  unfold execLightModeWrite
  repeat' first | with_reducible assumption | with_reducible exact State.Keeps.refl _ | with_reducible apply State.locked_keeps | with_reducible apply State.wr_keeps | with_reducible apply State.wrB_keeps | with_reducible apply keeping_next | ((with_reducible conv => arg 4; whnf); split)

theorem State.endFollow_keeps {s : State} (h : State.Keeps a b s0 s) : State.Keeps a b s0 (State.endFollow s) := by
  unfold State.endFollow
  repeat' first | with_reducible assumption | with_reducible apply State.wrB_keeps | fail_if_no_progress (with_reducible apply mk_keeps) | (dsimp only; split)

theorem State.setDom_keeps {s : State} {d : Nat} {x : Dom} (h : State.Keeps a b s0 s) : State.Keeps a b s0 (State.setDom s d x) := by
  unfold State.setDom
  repeat' first | with_reducible assumption | fail_if_no_progress (with_reducible apply mk_keeps) | ((with_reducible conv => arg 4; whnf); split)

theorem State.lightEnter_keeps {s : State} {d : Nat} {st : Nat} (h : State.Keeps a b s0 s) : State.Keeps a b s0 (State.lightEnter s d st) := by
  unfold State.lightEnter
  repeat' first | with_reducible assumption | with_reducible apply State.endFollow_keeps | with_reducible apply State.raise_keeps | with_reducible apply State.wr_keeps | with_reducible apply State.setDom_keeps | ((with_reducible conv => arg 4; whnf); split)

theorem State.applyReq_keeps {s : State} {d : Nat} {req : Nat} (h : State.Keeps a b s0 s) : State.Keeps a b s0 (State.applyReq s d req) := by
  unfold State.applyReq
  repeat' first | with_reducible assumption | with_reducible apply State.lightEnter_keeps | with_reducible apply State.wrB_keeps | (dsimp only; split)

theorem execLightSnap_keeps (d : Fin 2) (s : State) : Keeping a b s (execLightSnap d s) := by
  unfold execLightSnap
  repeat' first | with_reducible assumption | with_reducible exact State.Keeps.refl _ | with_reducible apply State.wr_keeps | with_reducible apply keeping_next

theorem execLightKick_keeps (d : Fin 2) (s : State) : Keeping a b s (execLightKick d s) := by
  unfold execLightKick
  repeat' first | with_reducible assumption | with_reducible exact State.Keeps.refl _ | with_reducible apply State.setDom_keeps | with_reducible apply keeping_next

theorem writeLightCtl_keeps {s : State} {q : Requester} {k v : Nat} (h : State.Keeps a b s0 s) : State.Keeps a b s0 (writeLightCtl s q k v) := by
  unfold writeLightCtl
  repeat' first | with_reducible assumption | (with_reducible refine State.after_keeps (execLightModeWrite_keeps _ _ _ _) ?_ ?_) | with_reducible apply State.applyReq_keeps | (with_reducible refine State.after_keeps (execLightSnap_keeps _ _) ?_ ?_) | with_reducible apply State.wr_keeps | with_reducible apply State.wrB_keeps | (with_reducible refine State.after_keeps (execLightKick_keeps _ _) ?_ ?_) | with_reducible apply State.locked_keeps | ((with_reducible conv => arg 4; whnf); split)

theorem execLightRateAdjWrite_keeps (q : Requester) (d : Fin 2) (adj : BitVec 40) (s : State) : Keeping a b s (execLightRateAdjWrite q d adj s) := by
  unfold execLightRateAdjWrite
  repeat' first | with_reducible assumption | with_reducible exact State.Keeps.refl _ | with_reducible apply State.locked_keeps | with_reducible apply State.wr_keeps | with_reducible apply State.setDom_keeps | with_reducible apply keeping_next | ((with_reducible conv => arg 4; whnf); split)

theorem writeRateAdj_keeps {s : State} {q : Requester} {k v : Nat} (h : State.Keeps a b s0 s) : State.Keeps a b s0 (writeRateAdj s q k v) := by
  unfold writeRateAdj
  repeat' first | with_reducible assumption | (with_reducible refine State.after_keeps (execLightRateAdjWrite_keeps _ _ _ _) ?_ ?_)

theorem execLightIncrWrite_keeps (q : Requester) (d : Fin 2) (incr : BitVec 40) (s : State) : Keeping a b s (execLightIncrWrite q d incr s) := by
  unfold execLightIncrWrite
  repeat' first | with_reducible assumption | with_reducible exact State.Keeps.refl _ | with_reducible apply State.wr_keeps | with_reducible apply State.locked_keeps | with_reducible apply keeping_next | ((with_reducible conv => arg 4; whnf); split)

theorem writeIncr_keeps {s : State} {q : Requester} {k v : Nat} (h : State.Keeps a b s0 s) : State.Keeps a b s0 (writeIncr s q k v) := by
  unfold writeIncr
  repeat' first | with_reducible assumption | (with_reducible refine State.after_keeps (execLightIncrWrite_keeps _ _ _ _) ?_ ?_)

theorem State.stepEffects_keeps {s : State} {d : Nat} (h : State.Keeps a b s0 s) : State.Keeps a b s0 (State.stepEffects s d) := by
  unfold State.stepEffects
  repeat' first | with_reducible assumption | with_reducible apply State.raise_keeps | with_reducible apply State.satAdd_keeps | with_reducible apply foldl_keeps | fail_if_no_progress (with_reducible apply mk_keeps) | ((with_reducible conv => arg 4; whnf); split) | intro _

theorem State.acceptStep_keeps {s : State} {d : Nat} {x : LightStep} (h : State.Keeps a b s0 s) : State.Keeps a b s0 (State.acceptStep s d x) := by
  unfold State.acceptStep
  repeat' first | with_reducible assumption | with_reducible apply State.wrB_keeps | with_reducible apply State.setDom_keeps | with_reducible apply State.stepEffects_keeps | ((with_reducible conv => arg 4; whnf); split)

theorem execLightStepGo_keeps (q : Requester) (d : Fin 2) (s : State) : Keeping a b s (execLightStepGo q d s) := by
  unfold execLightStepGo
  repeat' first | with_reducible assumption | with_reducible exact State.Keeps.refl _ | with_reducible apply State.wr_keeps | with_reducible apply State.acceptStep_keeps | with_reducible apply State.locked_keeps | with_reducible apply State.raise_keeps | with_reducible apply keeping_next | ((with_reducible conv => arg 4; whnf); split)

theorem writeStepCtl_keeps {s : State} {q : Requester} {k v : Nat} (h : State.Keeps a b s0 s) : State.Keeps a b s0 (writeStepCtl s q k v) := by
  unfold writeStepCtl
  repeat' first | with_reducible assumption | with_reducible apply State.wrB_keeps | (with_reducible refine State.after_keeps (execLightStepGo_keeps _ _ _) ?_ ?_) | (dsimp only; split)

theorem writePwrPrio_keeps {s : State} {q : Requester} {k v : Nat} (h : State.Keeps a b s0 s) : State.Keeps a b s0 (writePwrPrio s q k v) := by
  unfold writePwrPrio
  repeat' first | with_reducible assumption | with_reducible apply State.wrB_keeps | with_reducible apply State.wr_keeps | (dsimp only; split)

theorem State.ferryUpdate_keeps {s : State} (h : State.Keeps a b s0 s) : State.Keeps a b s0 (State.ferryUpdate s) := by
  unfold State.ferryUpdate
  repeat' first | with_reducible assumption | with_reducible apply State.wr_keeps | with_reducible apply State.raise_keeps | ((with_reducible conv => arg 4; whnf); split)

theorem writeFerryCfg_keeps {s : State} {q : Requester} {k v : Nat} (h : State.Keeps a b s0 s) : State.Keeps a b s0 (writeFerryCfg s q k v) := by
  unfold writeFerryCfg
  repeat' first | with_reducible assumption | with_reducible apply State.ferryUpdate_keeps | with_reducible apply State.plainWrite_keeps

theorem State.updPwr_keeps {s : State} {f : PwrSt → PwrSt} (h : State.Keeps a b s0 s) : State.Keeps a b s0 (State.updPwr s f) := by
  unfold State.updPwr
  repeat' first | with_reducible assumption | fail_if_no_progress (with_reducible apply mk_keeps)

theorem State.pin_keeps {s : State} {bitF : Fld} {cntF : Fld} (h : State.Keeps a b s0 s) : State.Keeps a b s0 (State.pin s bitF cntF) := by
  unfold State.pin
  repeat' first | with_reducible assumption | with_reducible apply State.satAdd_keeps | with_reducible apply State.wrB_keeps | with_reducible apply State.raise_keeps | (dsimp only; split)

theorem State.voltTarget_keeps {s : State} {mv : ℤ} (h : State.Keeps a b s0 s) : State.Keeps a b s0 (State.voltTarget s mv) := by
  unfold State.voltTarget
  repeat' first | with_reducible assumption | with_reducible apply State.emit_keeps | with_reducible apply State.updPwr_keeps | with_reducible apply State.pin_keeps | (dsimp only; split)

theorem State.divRequest_keeps {s : State} {c : Nat} (h : State.Keeps a b s0 s) : State.Keeps a b s0 (State.divRequest s c) := by
  unfold State.divRequest
  repeat' first | with_reducible assumption | with_reducible apply State.voltTarget_keeps | with_reducible apply State.wrB_keeps | with_reducible apply State.wr_keeps | with_reducible apply State.updPwr_keeps | ((with_reducible conv => arg 4; whnf); split)

theorem State.applyCode_keeps {s : State} (h : State.Keeps a b s0 s) : State.Keeps a b s0 (State.applyCode s) := by
  unfold State.applyCode
  repeat' first | with_reducible assumption | with_reducible apply State.divRequest_keeps

theorem writeFreqBound_keeps {s : State} {q : Requester} {k v : Nat} (h : State.Keeps a b s0 s) : State.Keeps a b s0 (writeFreqBound s q k v) := by
  unfold writeFreqBound
  repeat' first | with_reducible assumption | with_reducible apply State.applyCode_keeps | with_reducible apply State.plainWrite_keeps

theorem State.updKeep_keeps {s : State} {f : KeepSt → KeepSt} (h : State.Keeps a b s0 s) : State.Keeps a b s0 (State.updKeep s f) := by
  unfold State.updKeep
  repeat' first | with_reducible assumption | fail_if_no_progress (with_reducible apply mk_keeps)

theorem State.keepStart_keeps {s : State} {trigger : Nat} (h : State.Keeps a b s0 s) : State.Keeps a b s0 (State.keepStart s trigger) := by
  unfold State.keepStart
  repeat' first | with_reducible assumption | with_reducible apply State.updKeep_keeps | ((with_reducible conv => arg 4; whnf); split)

theorem State.keepTrigger_keeps {s : State} {x1 : Nat} (h : State.Keeps a b s0 s) : State.Keeps a b s0 (State.keepTrigger s x1) := by
  unfold State.keepTrigger
  repeat' first | with_reducible assumption | with_reducible apply State.keepStart_keeps | ((with_reducible conv => arg 4; whnf); split)

theorem execTestSave_keeps (q : Requester) (s : State) : Keeping a b s (execTestSave q s) := by
  unfold execTestSave
  repeat' first | with_reducible assumption | with_reducible exact State.Keeps.refl _ | with_reducible apply State.locked_keeps | with_reducible apply State.keepTrigger_keeps | with_reducible apply keeping_next | ((with_reducible conv => arg 4; whnf); split)

theorem writeKeepCfg_keeps {s : State} {q : Requester} {k v : Nat} (h : State.Keeps a b s0 s) : State.Keeps a b s0 (writeKeepCfg s q k v) := by
  unfold writeKeepCfg
  repeat' first | with_reducible assumption | with_reducible apply State.wrB_keeps | (with_reducible refine State.after_keeps (execTestSave_keeps _ _) ?_ ?_) | (dsimp only; split)

theorem State.vecMapWrite_keeps {s : State} {x1 : Nat} {v : Nat} (h : State.Keeps a b s0 s) : State.Keeps a b s0 (State.vecMapWrite s x1 v) := by
  unfold State.vecMapWrite
  repeat' first | with_reducible assumption | with_reducible apply State.wr_keeps | with_reducible apply State.sendVector_keeps | (dsimp only; split)

theorem State.setRelock_keeps {s : State} {k : Nat} {x : Option (Nat × Bool)} (h : State.Keeps a b s0 s) : State.Keeps a b s0 (State.setRelock s k x) := by
  unfold State.setRelock
  repeat' first | with_reducible assumption | with_reducible apply State.updPwr_keeps

theorem State.standbyRelock_keeps {s : State} (h : State.Keeps a b s0 s) : State.Keeps a b s0 (State.standbyRelock s) := by
  unfold State.standbyRelock
  repeat' first | with_reducible assumption | with_reducible apply State.wrB_keeps | with_reducible apply State.setRelock_keeps | with_reducible apply State.wr_keeps | (dsimp only; split)

theorem execClkRefWrite_keeps (q : Requester) (x1 : Bool) (x2 : Bool) (s : State) : Keeping a b s (execClkRefWrite q x1 x2 s) := by
  unfold execClkRefWrite
  repeat' first | with_reducible assumption | with_reducible exact State.Keeps.refl _ | with_reducible apply State.locked_keeps | with_reducible apply State.standbyRelock_keeps | with_reducible apply State.wrB_keeps | with_reducible apply keeping_next | ((with_reducible conv => arg 4; whnf); split)

theorem State.exchangePlls_keeps {s : State} {st : Nat} (h : State.Keeps a b s0 s) : State.Keeps a b s0 (State.exchangePlls s st) := by
  unfold State.exchangePlls
  repeat' first | with_reducible assumption | with_reducible apply State.wr_keeps

theorem execClkSwitch_keeps (q : Requester) (s : State) : Keeping a b s (execClkSwitch q s) := by
  unfold execClkSwitch
  repeat' first | with_reducible assumption | with_reducible exact State.Keeps.refl _ | with_reducible apply State.raise_keeps | with_reducible apply State.satAdd_keeps | with_reducible apply State.exchangePlls_keeps | with_reducible apply State.locked_keeps | with_reducible apply keeping_next | ((with_reducible conv => arg 4; whnf); split)

theorem writeClkCfg_keeps {s : State} {q : Requester} {k v : Nat} (h : State.Keeps a b s0 s) : State.Keeps a b s0 (writeClkCfg s q k v) := by
  unfold writeClkCfg
  repeat' first | with_reducible assumption | (with_reducible refine State.after_keeps (execClkRefWrite_keeps _ _ _ _) ?_ ?_) | (with_reducible refine State.after_keeps (execClkSwitch_keeps _ _) ?_ ?_) | (dsimp only; split)

theorem State.clearCompute_keeps {s : State} (h : State.Keeps a b s0 s) : State.Keeps a b s0 (State.clearCompute s) := by
  unfold State.clearCompute
  repeat' first | with_reducible assumption | with_reducible apply State.updPwr_keeps | with_reducible apply State.wr_keeps

theorem State.pwrEnter_keeps {s : State} {st : Nat} (h : State.Keeps a b s0 s) : State.Keeps a b s0 (State.pwrEnter s st) := by
  unfold State.pwrEnter
  repeat' first | with_reducible assumption | with_reducible apply State.raise_keeps | with_reducible apply State.wr_keeps | ((with_reducible conv => arg 4; whnf); split)

theorem State.enterAdaptive_keeps {s : State} (h : State.Keeps a b s0 s) : State.Keeps a b s0 (State.enterAdaptive s) := by
  unfold State.enterAdaptive
  repeat' first | with_reducible assumption | with_reducible apply State.pwrEnter_keeps

theorem State.holdingOff_keeps {s : State} (h : State.Keeps a b s0 s) : State.Keeps a b s0 (State.holdingOff s) := by
  unfold State.holdingOff
  repeat' first | with_reducible assumption | with_reducible apply State.wrB_keeps

theorem State.applyDuty_keeps {s : State} (h : State.Keeps a b s0 s) : State.Keeps a b s0 (State.applyDuty s) := by
  unfold State.applyDuty
  repeat' first | with_reducible assumption | with_reducible apply State.wr_keeps

theorem execPwrModeWrite_keeps (q : Requester) (mode : Bool) (s : State) : Keeping a b s (execPwrModeWrite q mode s) := by
  unfold execPwrModeWrite
  repeat' first | with_reducible assumption | with_reducible exact State.Keeps.refl _ | with_reducible apply State.locked_keeps | with_reducible apply State.clearCompute_keeps | with_reducible apply State.wrB_keeps | with_reducible apply State.pwrEnter_keeps | with_reducible apply State.enterAdaptive_keeps | with_reducible apply State.holdingOff_keeps | with_reducible apply State.applyDuty_keeps | with_reducible apply State.applyCode_keeps | with_reducible apply keeping_next | ((with_reducible conv => arg 4; whnf); split)

theorem State.enterSave_keeps {s : State} (h : State.Keeps a b s0 s) : State.Keeps a b s0 (State.enterSave s) := by
  unfold State.enterSave
  repeat' first | with_reducible assumption | with_reducible apply State.holdingOff_keeps | with_reducible apply State.applyDuty_keeps | with_reducible apply State.applyCode_keeps | with_reducible apply State.pwrEnter_keeps | with_reducible apply State.clearCompute_keeps | ((with_reducible conv => arg 4; whnf); split)

theorem execPwrSaveWrite_keeps (q : Requester) (save : Bool) (s : State) : Keeping a b s (execPwrSaveWrite q save s) := by
  unfold execPwrSaveWrite
  repeat' first | with_reducible assumption | with_reducible exact State.Keeps.refl _ | with_reducible apply State.wrB_keeps | with_reducible apply State.enterSave_keeps | with_reducible apply keeping_next | ((with_reducible conv => arg 4; whnf); split)

theorem writePwrCfg_keeps {s : State} {q : Requester} {k v : Nat} (h : State.Keeps a b s0 s) : State.Keeps a b s0 (writePwrCfg s q k v) := by
  unfold writePwrCfg
  repeat' first | with_reducible assumption | with_reducible apply State.wr_keeps | with_reducible apply State.wrB_keeps | (with_reducible refine State.after_keeps (execPwrModeWrite_keeps _ _ _) ?_ ?_) | (with_reducible refine State.after_keeps (execPwrSaveWrite_keeps _ _ _) ?_ ?_) | with_reducible apply State.ferryUpdate_keeps | with_reducible apply State.locked_keeps | ((with_reducible conv => arg 4; whnf); split)

theorem State.queueCfg_keeps {s : State} {k : Nat} (h : State.Keeps a b s0 s) : State.Keeps a b s0 (State.queueCfg s k) := by
  unfold State.queueCfg
  repeat' first | with_reducible assumption | with_reducible apply State.queueStatus_keeps | with_reducible apply State.rejoin_keeps | (dsimp only; split)

end Sys2Proof.Machine
end

