-- ==== Sys2Proof/Laws/Keeps3.lean ====
section
/-! SUPPORT. What the machine's functions keep, one lemma for each. -/

set_option linter.all false
set_option Elab.async false

namespace Sys2Proof.Machine

variable {a b : Bool} {s0 : State}

theorem writeTmQ_keeps {s : State} {q : Requester} {k v : Nat} (h : State.Keeps a b s0 s) : State.Keeps a b s0 (writeTmQ s q k v) := by
  unfold writeTmQ
  repeat' first | with_reducible assumption | with_reducible apply State.queueCfg_keeps | with_reducible apply State.plainWrite_keeps

theorem writeTmMq_keeps {s : State} {q : Requester} {k v : Nat} (h : State.Keeps a b s0 s) : State.Keeps a b s0 (writeTmMq s q k v) := by
  unfold writeTmMq
  repeat' first | with_reducible assumption | with_reducible apply State.queueCfg_keeps | with_reducible apply State.plainWrite_keeps

theorem execGateConfigChange_keeps (q : Requester) (p : Fin 512) (s : State) : Keeping a b s (execGateConfigChange q p s) := by
  unfold execGateConfigChange
  repeat' first | with_reducible assumption | with_reducible exact State.Keeps.refl _ | with_reducible apply State.locked_keeps | with_reducible apply State.wrB_keeps | with_reducible apply State.wr_keeps | with_reducible apply State.updTm_keeps | with_reducible apply State.raise_keeps | with_reducible apply keeping_next | split

theorem State.gateDrop_keeps {s : State} {p : Nat} (h : State.Keeps a b s0 s) : State.Keeps a b s0 (State.gateDrop s p) := by
  unfold State.gateDrop
  repeat' first | with_reducible assumption | with_reducible apply State.wrB_keeps | with_reducible apply State.wr_keeps | with_reducible apply State.updTm_keeps

theorem execGateCancel_keeps (q : Requester) (p : Fin 512) (s : State) : Keeping a b s (execGateCancel q p s) := by
  unfold execGateCancel
  repeat' first | with_reducible assumption | with_reducible exact State.Keeps.refl _ | with_reducible apply State.gateDrop_keeps | with_reducible apply keeping_next | ((with_reducible conv => arg 4; whnf); split)

theorem State.gatesUpdate_keeps {s : State} {p : Nat} (h : State.Keeps a b s0 s) : State.Keeps a b s0 (State.gatesUpdate s p) := by
  unfold State.gatesUpdate
  repeat' first | with_reducible assumption | with_reducible apply State.wr_keeps | with_reducible apply State.queueStatus_keeps | with_reducible apply foldl_keeps

theorem writeGateCtl_keeps {s : State} {q : Requester} {k v : Nat} (h : State.Keeps a b s0 s) : State.Keeps a b s0 (writeGateCtl s q k v) := by
  unfold writeGateCtl
  repeat' first | with_reducible assumption | with_reducible apply State.wr_keeps | with_reducible apply State.wrB_keeps | (with_reducible refine State.after_keeps (execGateConfigChange_keeps _ _ _) ?_ ?_) | (with_reducible refine State.after_keeps (execGateCancel_keeps _ _ _) ?_ ?_) | with_reducible apply State.gatesUpdate_keeps | ((with_reducible conv => arg 4; whnf); split)

theorem State.updMc_keeps {s : State} {st : Nat} {f : McSt → McSt} (h : State.Keeps a b s0 s) : State.Keeps a b s0 (State.updMc s st f) := by
  unfold State.updMc
  repeat' first | with_reducible assumption | fail_if_no_progress (with_reducible apply mk_keeps)

theorem State.tsetBegin_keeps {s : State} {st : Nat} {target : Nat} (h : State.Keeps a b s0 s) : State.Keeps a b s0 (State.tsetBegin s st target) := by
  unfold State.tsetBegin
  repeat' first | with_reducible assumption | with_reducible apply State.wr_keeps | with_reducible apply State.wrB_keeps | with_reducible apply State.updMc_keeps

theorem State.tsetRequest_keeps {s : State} {st : Nat} {target : Nat} (h : State.Keeps a b s0 s) : State.Keeps a b s0 (State.tsetRequest s st target) := by
  unfold State.tsetRequest
  repeat' first | with_reducible assumption | with_reducible apply State.wr_keeps | with_reducible apply State.tsetBegin_keeps | with_reducible apply State.updMc_keeps | ((with_reducible conv => arg 4; whnf); split)

theorem State.tsetCommit_keeps {s : State} {st : Nat} (h : State.Keeps a b s0 s) : State.Keeps a b s0 (State.tsetCommit s st) := by
  unfold State.tsetCommit
  repeat' first | with_reducible assumption | with_reducible apply State.wrB_keeps | with_reducible apply State.updMc_keeps

theorem execMcTsetWrite_keeps (q : Requester) (st : Fin 6) (target : Fin 4) (commits : Bool) (s : State) : Keeping a b s (execMcTsetWrite q st target commits s) := by
  unfold execMcTsetWrite
  repeat' first | with_reducible assumption | with_reducible exact State.Keeps.refl _ | with_reducible apply State.tsetRequest_keeps | with_reducible apply State.tsetCommit_keeps | with_reducible apply keeping_next | ((with_reducible conv => arg 4; whnf); split)

theorem writeTset_keeps {s : State} {q : Requester} {k v : Nat} (h : State.Keeps a b s0 s) : State.Keeps a b s0 (writeTset s q k v) := by
  unfold writeTset
  repeat' first | with_reducible assumption | (with_reducible refine State.after_keeps (execMcTsetWrite_keeps _ _ _ _ _) ?_ ?_)

theorem writeMcIdle_keeps {s : State} {q : Requester} {k v : Nat} (h : State.Keeps a b s0 s) : State.Keeps a b s0 (writeMcIdle s q k v) := by
  unfold writeMcIdle
  repeat' first | with_reducible assumption | with_reducible apply State.plainWrite_keeps | with_reducible apply State.wr_keeps | with_reducible apply foldl_keeps | (dsimp only; split) | intro _

theorem State.gatherWaiting_keeps {s : State} {q : Nat} {x2 : List Nat} (h : State.Keeps a b s0 s) : State.Keeps a b s0 (State.gatherWaiting s q x2) := by
  induction x2 generalizing s q
  all_goals unfold State.gatherWaiting
  all_goals repeat' first | with_reducible assumption | refine State.gather_keeps ?_ (by assumption) | with_reducible apply State.updBpm_keeps | ((with_reducible conv => arg 4; whnf); split) | with_reducible apply_assumption

theorem State.gatherRetry_keeps {s : State} {q : Nat} (h : State.Keeps a b s0 s) : State.Keeps a b s0 (State.gatherRetry s q) := by
  unfold State.gatherRetry
  repeat' first | with_reducible assumption | with_reducible apply State.fillPages_keeps | with_reducible apply State.gatherWaiting_keeps | ((with_reducible conv => arg 4; whnf); split)

theorem State.gatherAll_keeps {s : State} (h : State.Keeps a b s0 s) : State.Keeps a b s0 (State.gatherAll s) := by
  unfold State.gatherAll
  repeat' first | with_reducible assumption | with_reducible apply State.gatherRetry_keeps | with_reducible apply foldl_keeps | intro _

theorem State.fnResult_keeps {s : State} {x1 : Nat} {status : Nat} {handle : Nat} (h : State.Keeps a b s0 s) : State.Keeps a b s0 (State.fnResult s x1 status handle) := by
  unfold State.fnResult
  repeat' first | with_reducible assumption | with_reducible apply State.wr_keeps | ((with_reducible conv => arg 4; whnf); split)

theorem execBpmAlloc_keeps (x0 : Fin 256) (pool : Fin 4) (domain : Fin 64) (s : State) : Keeping a b s (execBpmAlloc x0 pool domain s) := by
  unfold execBpmAlloc
  repeat' first | with_reducible assumption | with_reducible exact State.Keeps.refl _ | with_reducible apply State.bpmAlloc_keeps | with_reducible apply State.gatherAll_keeps | with_reducible apply State.updBpm_keeps | with_reducible apply State.fnResult_keeps | with_reducible apply keeping_next | ((with_reducible conv => arg 4; whnf); split)

theorem State.bpmAddRef_keeps {s : State} {agent : Nat} {x2 : Nat} {n : Nat} (h : State.Keeps a b s0 s) : State.Keeps a b s0 (State.bpmAddRef s agent x2 n).2 := by
  unfold State.bpmAddRef
  repeat' first | with_reducible assumption | with_reducible apply State.badRelease_keeps | with_reducible apply State.setEnt_keeps | (dsimp only; split)

theorem execBpmAddRef_keeps (x0 : Fin 256) (x1 : BitVec 48) (n : BitVec 8) (s : State) : Keeping a b s (execBpmAddRef x0 x1 n s) := by
  unfold execBpmAddRef
  repeat' first | with_reducible assumption | with_reducible exact State.Keeps.refl _ | with_reducible apply State.bpmAddRef_keeps | with_reducible apply State.fnResult_keeps | with_reducible apply keeping_next | (dsimp only; split)

theorem execBpmRelease_keeps (x0 : Fin 256) (x1 : BitVec 48) (uncorr : Bool) (s : State) : Keeping a b s (execBpmRelease x0 x1 uncorr s) := by
  unfold execBpmRelease
  repeat' first | with_reducible assumption | with_reducible exact State.Keeps.refl _ | with_reducible apply State.event_keeps | with_reducible apply State.bpmRelease_keeps | with_reducible apply State.gatherAll_keeps | with_reducible apply State.fnResult_keeps | with_reducible apply keeping_next | ((with_reducible conv => arg 4; whnf); split)

theorem execBpmQuery_keeps (x0 : Fin 256) (x1 : BitVec 48) (s : State) : Keeping a b s (execBpmQuery x0 x1 s) := by
  unfold execBpmQuery
  repeat' first | with_reducible assumption | with_reducible exact State.Keeps.refl _ | with_reducible apply State.fnResult_keeps | with_reducible apply keeping_next | (dsimp only; split)

theorem writeFnCmd_keeps {s : State} {q : Requester} {k v : Nat} (h : State.Keeps a b s0 s) : State.Keeps a b s0 (writeFnCmd s q k v) := by
  unfold writeFnCmd
  repeat' first | with_reducible assumption | (with_reducible refine State.after_keeps (execBpmAlloc_keeps _ _ _ _) ?_ ?_) | (with_reducible refine State.after_keeps (execBpmAddRef_keeps _ _ _ _) ?_ ?_) | (with_reducible refine State.after_keeps (execBpmRelease_keeps _ _ _ _) ?_ ?_) | (with_reducible refine State.after_keeps (execBpmQuery_keeps _ _ _) ?_ ?_) | (dsimp only; split)

theorem execTelFlowRd_keeps (q : Requester) (s : State) : Keeping a b s (execTelFlowRd q s) := by
  unfold execTelFlowRd
  repeat' first | with_reducible assumption | with_reducible exact State.Keeps.refl _ | with_reducible apply State.wrB_keeps | with_reducible apply State.wr_keeps | with_reducible apply foldl_keeps | with_reducible apply keeping_next | ((with_reducible conv => arg 4; whnf); split) | intro _

theorem writeFlowGo_keeps {s : State} {q : Requester} {k v : Nat} (h : State.Keeps a b s0 s) : State.Keeps a b s0 (writeFlowGo s q k v) := by
  unfold writeFlowGo
  repeat' first | with_reducible assumption | (with_reducible refine State.after_keeps (execTelFlowRd_keeps _ _) ?_ ?_) | ((with_reducible conv => arg 4; whnf); split)

theorem writeDumpCfg_keeps {s : State} {q : Requester} {k v : Nat} (h : State.Keeps a b s0 s) : State.Keeps a b s0 (writeDumpCfg s q k v) := by
  unfold writeDumpCfg
  repeat' first | with_reducible assumption | with_reducible apply State.plainWrite_keeps | fail_if_no_progress (with_reducible apply mk_keeps) | (dsimp only; split)

theorem execCntUserPagesWrite_keeps (q : Requester) (f : Fin 32) (w : Fin 3) (v : BitVec 32) (s : State) : Keeping a b s (execCntUserPagesWrite q f w v s) := by
  unfold execCntUserPagesWrite
  repeat' first | with_reducible assumption | with_reducible exact State.Keeps.refl _ | with_reducible apply State.wr_keeps | with_reducible apply State.locked_keeps | with_reducible apply keeping_next | ((with_reducible conv => arg 4; whnf); split)

theorem writePages_keeps {s : State} {q : Requester} {k v : Nat} (h : State.Keeps a b s0 s) : State.Keeps a b s0 (writePages s q k v) := by
  unfold writePages
  repeat' first | with_reducible assumption | (with_reducible refine State.after_keeps (execCntUserPagesWrite_keeps _ _ _ _ _) ?_ ?_)

theorem writeCntSel_keeps {s : State} {q : Requester} {k v : Nat} (h : State.Keeps a b s0 s) : State.Keeps a b s0 (writeCntSel s q k v) := by
  unfold writeCntSel
  repeat' first | with_reducible assumption | with_reducible apply State.locked_keeps | with_reducible apply State.plainWrite_keeps | ((with_reducible conv => arg 4; whnf); split)

theorem State.cntCtl_keeps {s : State} {n : Nat} {v : Nat} (h : State.Keeps a b s0 s) : State.Keeps a b s0 (State.cntCtl s n v) := by
  unfold State.cntCtl
  repeat' first | with_reducible assumption | with_reducible apply State.wrB_keeps | with_reducible apply State.wr_keeps | (dsimp only; split)

theorem execCntCtlVfWrite_keeps (f : Fin 32) (n : Fin 1088) (v : BitVec 32) (s : State) : Keeping a b s (execCntCtlVfWrite f n v s) := by
  unfold execCntCtlVfWrite
  repeat' first | with_reducible assumption | with_reducible exact State.Keeps.refl _ | with_reducible apply State.cntCtl_keeps | with_reducible apply State.locked_keeps | with_reducible apply keeping_next | ((with_reducible conv => arg 4; whnf); split)

theorem writeCntCtl_keeps {s : State} {q : Requester} {k v : Nat} (h : State.Keeps a b s0 s) : State.Keeps a b s0 (writeCntCtl s q k v) := by
  unfold writeCntCtl
  repeat' first | with_reducible assumption | (with_reducible refine State.after_keeps (execCntCtlVfWrite_keeps _ _ _ _) ?_ ?_) | with_reducible apply State.cntCtl_keeps | ((with_reducible conv => arg 4; whnf); split)

theorem State.lifeVoid_keeps {s : State} (h : State.Keeps a b s0 s) : State.Keeps a b s0 (State.lifeVoid s) := by
  unfold State.lifeVoid
  repeat' first | with_reducible assumption | with_reducible apply State.mapRecord_keeps | with_reducible apply State.wrB_keeps

theorem State.setSpareMode_keeps {s : State} {m : Nat} (h : State.Keeps a b s0 s) : State.Keeps a b s0 (State.setSpareMode s m) := by
  unfold State.setSpareMode
  repeat' first | with_reducible assumption | with_reducible apply State.wr_keeps | with_reducible apply State.lifeVoid_keeps | with_reducible apply State.requestClear_keeps | with_reducible apply foldl_keeps | ((with_reducible conv => arg 4; whnf); split) | intro _

theorem execSpareModeWrite_keeps (q : Requester) (mode : Fin 4) (ask : Fin 256) (s : State) : Keeping a b s (execSpareModeWrite q mode ask s) := by
  unfold execSpareModeWrite
  repeat' first | with_reducible assumption | with_reducible exact State.Keeps.refl _ | with_reducible apply State.wr_keeps | with_reducible apply State.locked_keeps | with_reducible apply State.setSpareMode_keeps | with_reducible apply keeping_next | ((with_reducible conv => arg 4; whnf); split)

theorem writePolicy_keeps {s : State} {q : Requester} {k v : Nat} (h : State.Keeps a b s0 s) : State.Keeps a b s0 (writePolicy s q k v) := by
  unfold writePolicy
  repeat' first | with_reducible assumption | (with_reducible refine State.after_keeps (execSpareModeWrite_keeps _ _ _ _) ?_ ?_)

theorem execRasTmFire_keeps (q : Requester) (s : State) : Keeping a b s (execRasTmFire q s) := by
  unfold execRasTmFire
  repeat' first | with_reducible assumption | with_reducible exact State.Keeps.refl _ | with_reducible apply State.tidemark_keeps | with_reducible apply keeping_next | ((with_reducible conv => arg 4; whnf); split)

theorem writeTmCfg_keeps {s : State} {q : Requester} {k v : Nat} (h : State.Keeps a b s0 s) : State.Keeps a b s0 (writeTmCfg s q k v) := by
  unfold writeTmCfg
  repeat' first | with_reducible assumption | with_reducible apply State.wrB_keeps | with_reducible apply State.plainWrite_keeps | (with_reducible refine State.after_keeps (execRasTmFire_keeps _ _) ?_ ?_) | (dsimp only; split)

theorem State.perturbUpdate_keeps {s : State} {p : Nat} (h : State.Keeps a b s0 s) : State.Keeps a b s0 (State.perturbUpdate s p) := by
  unfold State.perturbUpdate
  repeat' first | with_reducible assumption | with_reducible apply State.wrB_keeps | with_reducible apply State.pauseUpdate_keeps | with_reducible apply State.pfcUpdate_keeps | (dsimp only; split)

theorem execDbgArmWrite_keeps (q : Requester) (on : Bool) (s : State) : Keeping a b s (execDbgArmWrite q on s) := by
  unfold execDbgArmWrite
  repeat' first | with_reducible assumption | with_reducible exact State.Keeps.refl _ | with_reducible apply State.perturbUpdate_keeps | with_reducible apply State.wrB_keeps | with_reducible apply State.raise_keeps | with_reducible apply State.discard_keeps | with_reducible apply keeping_next | ((with_reducible conv => arg 4; whnf); split)

theorem writeDbgCtl_keeps {s : State} {q : Requester} {k v : Nat} (h : State.Keeps a b s0 s) : State.Keeps a b s0 (writeDbgCtl s q k v) := by
  unfold writeDbgCtl
  repeat' first | with_reducible assumption | (with_reducible refine State.after_keeps (execDbgArmWrite_keeps _ _ _) ?_ ?_) | with_reducible apply State.wrB_keeps

theorem writePerturb_keeps {s0 s : State} {r : RegName} {q : Requester} {k v : Nat} (h : State.Keeps a b s0 s) :
    State.Keeps a b s0 (writePerturb r s q k v) :=
  State.perturbUpdate_keeps (State.perturbUpdate_keeps (State.plainWrite_keeps h))

theorem writeTable_keeps : ∀ e ∈ writeTable, ∀ {a b : Bool} {s0 s : State} (q : Requester) (k v : Nat), State.Keeps a b s0 s →
    State.Keeps a b s0 (e.2 s q k v) := by
  unfold writeTable
  rw [List.forall_mem_append]
  constructor
  all_goals
    repeat' first
      | with_reducible refine List.forall_mem_cons.2 ⟨?_, ?_⟩
      | exact List.forall_mem_nil _
  all_goals
    intro a b s0 s q k v h
    dsimp only
    first | with_reducible exact writeSpill_keeps h | with_reducible exact writePool_keeps h | with_reducible exact writePgCfg_keeps h | with_reducible exact writeQCfg_keeps h | with_reducible exact writeMqCfg_keeps h | with_reducible exact writeTblCmd_keeps h | with_reducible exact writeMtrCmd_keeps h | with_reducible exact writePortLive_keeps h | with_reducible exact writeMacRx_keeps h | with_reducible exact writePfcCfg_keeps h | with_reducible exact writePpeBank_keeps h | with_reducible exact writeClsCmd_keeps h | with_reducible exact writeBitslip_keeps h | with_reducible exact writePortCtl_keeps h | with_reducible exact writePortCfg_keeps h | with_reducible exact writeTxTap_keeps h | with_reducible exact writeTmCmp_keeps h | with_reducible exact State.ringCfg_keeps h | with_reducible exact writeLaneCtl_keeps h | with_reducible exact writeLightCtl_keeps h | with_reducible exact writeRateAdj_keeps h | with_reducible exact writeIncr_keeps h | with_reducible exact writeStepCtl_keeps h | with_reducible exact writePwrPrio_keeps h | with_reducible exact writeFerryCfg_keeps h | with_reducible exact writeFreqBound_keeps h | with_reducible exact writeKeepCfg_keeps h | with_reducible exact State.vecMapWrite_keeps h | with_reducible exact State.pcieGo_keeps h | with_reducible exact writeClkCfg_keeps h | with_reducible exact writePwrCfg_keeps h | with_reducible exact writeTmQ_keeps h | with_reducible exact writeTmMq_keeps h | with_reducible exact writeGateCtl_keeps h | with_reducible exact writeTset_keeps h | with_reducible exact writeMcIdle_keeps h | with_reducible exact writeFnCmd_keeps h | with_reducible exact writeFlowGo_keeps h | with_reducible exact writeDumpCfg_keeps h | with_reducible exact writePages_keeps h | with_reducible exact writeCntSel_keeps h | with_reducible exact writeCntCtl_keeps h | with_reducible exact writePolicy_keeps h | with_reducible exact writeTmCfg_keeps h | with_reducible exact writeDbgCtl_keeps h | with_reducible exact writePerturb_keeps h | (with_reducible refine ite_keeps (fun _ => State.pcieGo_keeps h) (fun _ => h))

theorem State.regWrite_keeps {s0 s : State} {q : Requester} {r : RegName} {k v : Nat} (h : State.Keeps a b s0 s) :
    State.Keeps a b s0 (s.regWrite q r k v) := by
  unfold State.regWrite
  split
  · exact State.intStatusWrite_keeps h
  · split
    · exact State.intMaskWrite_keeps h
    · split
      · next e => exact writeTable_keeps _ (List.mem_of_find?_eq_some e) _ _ _ h
      · exact State.plainWrite_keeps h

theorem State.writeAt_keeps {s : State} {q : Requester} {addr : Nat} {v : Nat} (h : State.Keeps a b s0 s) : State.Keeps a b s0 (State.writeAt s q addr v) := by
  unfold State.writeAt
  repeat' first | with_reducible assumption | with_reducible apply State.dropHeld_keeps | with_reducible apply State.regWrite_keeps | fail_if_no_progress (with_reducible apply mk_keeps) | ((with_reducible conv => arg 4; whnf); split)

theorem State.loadInit_keeps {s : State} {c : Sec} (h : State.Keeps a b s0 s) : State.Keeps a b s0 (State.loadInit s c) := by
  unfold State.loadInit
  repeat' first | with_reducible assumption | with_reducible apply State.writeAt_keeps | with_reducible apply foldl_keeps | ((with_reducible conv => arg 4; whnf); split) | intro _

theorem State.hbmWrite_keeps {s0 s : State} {st off : Nat} {data : Bytes} (h : State.Keeps a false s0 s) :
    State.Keeps a false s0 (s.hbmWrite st off data) :=
  h.trans ⟨rfl, fun _ => rfl, nofun, fusesGrow.refl _, id, fun w => Memory.wf_writeAll _ _ _ w⟩

theorem State.imageStore_keeps {s : State} {off : Nat} {data : Sys2Proof.Bytes} (h : State.Keeps a false s0 s) : State.Keeps a false s0 (State.imageStore s off data) := by
  unfold State.imageStore
  repeat' first | with_reducible assumption | with_reducible apply State.hbmWrite_keeps | with_reducible apply foldl_keeps | ((with_reducible conv => arg 4; whnf); split) | intro _

theorem execLoadDone_keeps (s : State) : Keeping a false s (execLoadDone s) := by
  unfold execLoadDone
  repeat' first | with_reducible assumption | with_reducible exact State.Keeps.refl _ | with_reducible apply State.imageStore_keeps | with_reducible apply State.loadSec_keeps | with_reducible apply State.loadInit_keeps | with_reducible apply State.wr_keeps | with_reducible apply State.stageEnter_keeps | with_reducible apply State.updBoot_keeps | with_reducible apply foldl_keeps | with_reducible apply keeping_next | ((with_reducible conv => arg 4; whnf); split)

theorem State.backLane_keeps {s : State} {l : Nat} {v : Nat} (h : State.Keeps a b s0 s) : State.Keeps a b s0 (State.backLane s l v) := by
  unfold State.backLane
  repeat' first | with_reducible assumption | with_reducible apply State.wr_keeps | fail_if_no_progress (with_reducible apply mk_keeps) | ((with_reducible conv => arg 4; whnf); split)

theorem State.backBank_keeps {s : State} {o : Nat} {v : Nat} (h : State.Keeps a b s0 s) : State.Keeps a b s0 (State.backBank s o v) := by
  unfold State.backBank
  repeat' first | with_reducible assumption | with_reducible apply State.wr_keeps | ((with_reducible conv => arg 4; whnf); split)

theorem State.clearPipe_keeps {s : State} {y : Nat} (h : State.Keeps a b s0 s) : State.Keeps a b s0 (State.clearPipe s y) := by
  unfold State.clearPipe
  repeat' first | with_reducible assumption | with_reducible apply State.updMat_keeps | with_reducible apply State.wr_keeps

theorem State.backPipe_keeps {s : State} {o : Nat} (h : State.Keeps a b s0 s) : State.Keeps a b s0 (State.backPipe s o) := by
  unfold State.backPipe
  repeat' first | with_reducible assumption | with_reducible apply State.wr_keeps | with_reducible apply State.putProgram_keeps | with_reducible apply State.clearPipe_keeps | with_reducible apply foldl_keeps | ((with_reducible conv => arg 4; whnf); split) | intro _

theorem State.backEngine_keeps {s : State} {x1 : Nat} {v : Nat} (h : State.Keeps a b s0 s) : State.Keeps a b s0 (State.backEngine s x1 v) := by
  unfold State.backEngine
  repeat' first | with_reducible assumption | with_reducible apply State.wr_keeps | ((with_reducible conv => arg 4; whnf); split)

theorem State.backWire_keeps {s : State} {o : Nat} {v : Nat} (h : State.Keeps a b s0 s) : State.Keeps a b s0 (State.backWire s o v) := by
  unfold State.backWire
  repeat' first | with_reducible assumption | with_reducible apply State.wr_keeps

theorem State.backBundle_keeps {s : State} {o : Nat} (h : State.Keeps a b s0 s) : State.Keeps a b s0 (State.backBundle s o) := by
  unfold State.backBundle
  repeat' first | with_reducible assumption | with_reducible apply State.wr_keeps | with_reducible apply State.subFrom_keeps | with_reducible apply State.updCway_keeps | (dsimp only; split)

theorem State.backPll_keeps {s : State} {k : Nat} (h : State.Keeps a b s0 s) : State.Keeps a b s0 (State.backPll s k) := by
  unfold State.backPll
  repeat' first | with_reducible assumption | with_reducible apply State.wr_keeps | ((with_reducible conv => arg 4; whnf); split)

theorem State.backChannel_keeps {s : State} {o : Nat} (h : State.Keeps a b s0 s) : State.Keeps a b s0 (State.backChannel s o) := by
  unfold State.backChannel
  repeat' first | with_reducible assumption | with_reducible apply State.wr_keeps

theorem State.backOne_keeps {s : State} {k : Nat} {o : Nat} {v : Nat} (h : State.Keeps a b s0 s) : State.Keeps a b s0 (State.backOne s k o v) := by
  unfold State.backOne
  repeat' first | with_reducible assumption | with_reducible apply State.backLane_keeps | with_reducible apply State.backWire_keeps | with_reducible apply State.backBank_keeps | with_reducible apply State.backPipe_keeps | with_reducible apply State.backChannel_keeps | with_reducible apply State.backEngine_keeps | with_reducible apply State.updRas_keeps | with_reducible apply State.backPll_keeps | with_reducible apply State.backBundle_keeps | with_reducible apply State.wrB_keeps | ((with_reducible conv => arg 4; whnf); split)

theorem State.backMap_keeps {s : State} {m : Sys2Proof.PMap Nat} (h : State.Keeps a b s0 s) : State.Keeps a b s0 (State.backMap s m) := by
  unfold State.backMap
  repeat' first | with_reducible assumption | with_reducible apply State.backOne_keeps | with_reducible apply State.wr_keeps | with_reducible apply foldl_keeps | fail_if_no_progress (with_reducible apply mk_keeps) | intro _

theorem State.backCounts_keeps {s : State} (h : State.Keeps a b s0 s) : State.Keeps a b s0 (State.backCounts s) := by
  unfold State.backCounts
  repeat' first | with_reducible assumption | with_reducible apply State.wr_keeps | with_reducible apply State.subFrom_keeps | with_reducible apply foldl_keeps | intro _

theorem State.backRoles_keeps {s : State} {m : Sys2Proof.PMap Nat} (h : State.Keeps a b s0 s) : State.Keeps a b s0 (State.backRoles s m) := by
  unfold State.backRoles
  repeat' first | with_reducible assumption | with_reducible apply State.wr_keeps | with_reducible apply foldl_keeps | intro _

theorem State.backPartner_keeps {s : State} {p : Nat} {x2 : Sys2Proof.Bytes} (h : State.Keeps a b s0 s) : State.Keeps a b s0 (State.backPartner s p x2) := by
  unfold State.backPartner
  repeat' first | with_reducible assumption | with_reducible apply State.wr_keeps | with_reducible apply State.wrB_keeps | with_reducible apply foldl_keeps | (dsimp only; split) | intro _

theorem State.backPartners_keeps {s : State} {m : Sys2Proof.PMap Sys2Proof.Bytes} (h : State.Keeps a b s0 s) : State.Keeps a b s0 (State.backPartners s m) := by
  unfold State.backPartners
  repeat' first | with_reducible assumption | with_reducible apply State.backPartner_keeps | with_reducible apply foldl_keeps | intro _

theorem State.backTime_keeps {s : State} {x1 : Nat × Nat × Nat × Nat} (h : State.Keeps a b s0 s) : State.Keeps a b s0 (State.backTime s x1) := by
  unfold State.backTime
  repeat' first | with_reducible assumption | with_reducible apply State.wrB_keeps | with_reducible apply State.wr_keeps | fail_if_no_progress (with_reducible apply mk_keeps)

theorem State.backEvents_keeps {s : State} {l : List LogEntry} (h : State.Keeps a b s0 s) : State.Keeps a b s0 (State.backEvents s l) := by
  unfold State.backEvents
  repeat' first | with_reducible assumption | with_reducible apply State.wr_keeps | fail_if_no_progress (with_reducible apply mk_keeps)

theorem State.setRegsOf_keeps {s : State} {l : List RegName} {m : Sys2Proof.PMap Nat} (h : State.Keeps a b s0 s) : State.Keeps a b s0 (State.setRegsOf s l m) := by
  unfold State.setRegsOf
  repeat' first | with_reducible assumption | fail_if_no_progress (with_reducible apply mk_keeps)

theorem State.backSec_keeps {s : State} {k : Nat} {c : KeepSec} (h : State.Keeps a b s0 s) : State.Keeps a b s0 (State.backSec s k c) := by
  unfold State.backSec
  repeat' first | with_reducible assumption | with_reducible apply State.backTime_keeps | with_reducible apply State.backCounts_keeps | with_reducible apply State.backRoles_keeps | with_reducible apply State.backMap_keeps | with_reducible apply State.setRegsOf_keeps | with_reducible apply State.updRas_keeps | with_reducible apply State.backPartners_keeps | with_reducible apply State.backEvents_keeps | fail_if_no_progress (with_reducible apply mk_keeps) | ((with_reducible conv => arg 4; whnf); split)

theorem State.backKeep_keeps {s0 s : State} (h : State.Keeps a b s0 s) : State.Keeps a b s0 s.backKeep := by
  have h1 : ∀ (t : State) (k : Nat), State.Keeps a b s0 t → State.Keeps a b s0 (match t.newestSec k with
      | some c => t.backSec k c
      | none => if k = 2 then (t.backMap t.fuses.map).backCounts else t) := by
    intro t k ht
    split
    · exact State.backSec_keeps ht
    · exact ite_keeps (fun _ => State.backCounts_keeps (State.backMap_keeps ht)) (fun _ => ht)
  have h2 := foldl_keeps (l := List.range 7) h h1
  unfold State.backKeep
  generalize List.foldl _ s _ = u at h2 ⊢
  dsimp only
  split
  · exact State.raise_keeps (State.wr_keeps (State.wr_keeps (State.wr_keeps (State.wr_keeps h2))))
  · split
    · exact State.raise_keeps (State.wr_keeps (State.wr_keeps (State.wr_keeps (State.wr_keeps h2))))
    · exact State.wr_keeps (State.wr_keeps (State.wr_keeps (State.wr_keeps h2)))

theorem State.withhold_keeps {s : State} {st : Nat} {k : Nat} {ix : Nat} (h : State.Keeps a b s0 s) : State.Keeps a b s0 (State.withhold s st k ix) := by
  unfold State.withhold
  repeat' first | with_reducible assumption | with_reducible apply State.wrapAdd_keeps | with_reducible apply State.subFrom_keeps | with_reducible apply State.updBpm_keeps

theorem State.markBuffers_keeps {s0 s : State} {st x : Nat} (h : State.Keeps a b s0 s) : State.Keeps a b s0 (s.markBuffers st x) := by
  unfold State.markBuffers
  split
  · exact h
  · exact foldl_keeps h fun t j ht => ite_keeps (fun _ => ite_keeps (fun _ => State.withhold_keeps (State.setEnt_keeps ht))
      (fun _ => State.setEnt_keeps ht)) (fun _ => ht)

theorem State.backRetired_keeps {s : State} (h : State.Keeps a b s0 s) : State.Keeps a b s0 (State.backRetired s) := by
  unfold State.backRetired
  repeat' first | with_reducible assumption | with_reducible apply State.markBuffers_keeps | with_reducible apply foldl_keeps | ((with_reducible conv => arg 4; whnf); split) | intro _

theorem State.regReset_keeps {s : State} {r : RegName} {k : Nat} (h : State.Keeps a b s0 s) : State.Keeps a b s0 (State.regReset s r k) := by
  unfold State.regReset
  repeat' first | with_reducible assumption | fail_if_no_progress (with_reducible apply mk_keeps)

theorem State.undefine_keeps {s : State} {p : Nat} (h : State.Keeps a b s0 s) : State.Keeps a b s0 (State.undefine s p) := by
  unfold State.undefine
  repeat' first | with_reducible assumption | with_reducible apply State.portEnter_keeps | with_reducible apply State.regReset_keeps | with_reducible apply State.freeLanes_keeps

theorem execRestoreDone_keeps (s : State) : Keeping a b s (execRestoreDone s) := by
  unfold execRestoreDone
  repeat' first | with_reducible assumption | with_reducible exact State.Keeps.refl _ | with_reducible apply State.backRetired_keeps | with_reducible apply State.backKeep_keeps | with_reducible apply State.undefine_keeps | with_reducible apply State.raise_keeps | with_reducible apply State.stageEnter_keeps | with_reducible apply State.wr_keeps | with_reducible apply foldl_keeps | with_reducible apply keeping_next | ((with_reducible conv => arg 4; whnf); split) | intro _

theorem State.dropPatterns_keeps {s : State} {im : Sys2Proof.Image} (h : State.Keeps a b s0 s) : State.Keeps a b s0 (State.dropPatterns s im) := by
  unfold State.dropPatterns
  repeat' first | with_reducible assumption | with_reducible apply State.wrB_keeps | with_reducible apply foldl_keeps | ((with_reducible conv => arg 4; whnf); split) | intro _

theorem State.unstage_keeps {s : State} (h : State.Keeps a false s0 s) : State.Keeps a false s0 (State.unstage s) := by
  unfold State.unstage
  repeat' first | with_reducible assumption | with_reducible apply State.imageStore_keeps | with_reducible apply State.wr_keeps | fail_if_no_progress (with_reducible apply mk_keeps) | ((with_reducible conv => arg 4; whnf); split)

theorem execPpeLoadDone_keeps (i : Fin 16) (ok : Bool) (s : State) : Keeping a false s (execPpeLoadDone i ok s) := by
  unfold execPpeLoadDone
  repeat' first | with_reducible assumption | with_reducible exact State.Keeps.refl _ | with_reducible apply State.wrB_keeps | with_reducible apply State.updMat_keeps | with_reducible apply State.updBoot_keeps | with_reducible apply State.finishHold_keeps | with_reducible apply State.unstage_keeps | with_reducible apply State.dropPatterns_keeps | with_reducible apply keeping_next | ((with_reducible conv => arg 4; whnf); split)

theorem State.cacheDrain_keeps {s : State} {d : Nat} {k : Nat} {part : Nat} {x4 : Nat} (h : State.Keeps a b s0 s) : State.Keeps a b s0 (State.cacheDrain s d k part x4) := by
  induction x4 generalizing s d k part
  all_goals unfold State.cacheDrain
  all_goals repeat' first | with_reducible assumption | with_reducible apply State.setCache_keeps | with_reducible apply State.updBpm_keeps | (dsimp only; split) | with_reducible apply_assumption

theorem State.grantCells_keeps {s : State} {d : Nat} {x2 : Nat} {x3 : Nat} (h : State.Keeps a b s0 s) : State.Keeps a b s0 (State.grantCells s d x2 x3) := by
  induction x3 generalizing s d x2
  all_goals unfold State.grantCells
  all_goals repeat' first | with_reducible assumption | refine State.nextCell_keeps ?_ (by assumption) | with_reducible apply State.updPath_keeps | with_reducible apply State.setBundle_keeps | (dsimp only; split) | with_reducible apply_assumption

theorem execCellGrant_keeps (d : Fin 2) (x1 : Fin 64) (n : Nat) (s : State) : Keeping a b s (execCellGrant d x1 n s) := by
  unfold execCellGrant
  repeat' first | with_reducible assumption | with_reducible exact State.Keeps.refl _ | with_reducible apply State.cwayPump_keeps | with_reducible apply State.grantCells_keeps | with_reducible apply keeping_next | ((with_reducible conv => arg 4; whnf); split)

theorem State.parse_keeps {s : State} {y : Nat} {f : Sys2Proof.Bytes} (h : State.Keeps a b s0 s) : State.Keeps a b s0 (State.parse s y f).2 := by
  unfold State.parse
  repeat' first | with_reducible assumption | with_reducible apply State.wrapAdd_keeps | with_reducible apply State.wr_keeps | with_reducible apply State.cntIsland_keeps | with_reducible apply State.satAdd_keeps | ((with_reducible conv => arg 4; whnf); split) | (dsimp only; split)

theorem State.scan_keeps {s : State} {i : Nat} {k : Nat} {x : Nat} {r : RxFrame} (h : State.Keeps a b s0 s) : State.Keeps a b s0 (State.scan s i k x r).2 := by
  unfold State.scan
  repeat' first | with_reducible assumption | with_reducible apply State.wrapAdd_keeps | with_reducible apply State.cntIsland_keeps | with_reducible apply foldl_keeps | ((with_reducible conv => arg 4; whnf); split) | intro _

theorem State.flushSamples_keeps {s : State} {sub : Nat} (h : State.Keeps a b s0 s) : State.Keeps a b s0 (State.flushSamples s sub) := by
  unfold State.flushSamples
  repeat' first | with_reducible assumption | with_reducible apply State.updTel_keeps | with_reducible apply State.trapPass_keeps | with_reducible apply foldl_keeps | intro _

theorem State.setRxq_keeps {s : State} {y : Nat} {l : List RxFrame} (h : State.Keeps a b s0 s) : State.Keeps a b s0 (State.setRxq s y l) := by
  unfold State.setRxq
  repeat' first | with_reducible assumption | with_reducible apply State.updPath_keeps

theorem State.parsed_keeps {s : State} {y : Nat} {r : RxFrame} {w : Walk} {sub : Nat} (h : State.Keeps a b s0 s) : State.Keeps a b s0 (State.parsed s y r w sub) := by
  unfold State.parsed
  repeat' first | with_reducible assumption | with_reducible apply State.setRxq_keeps | with_reducible apply State.pipeDrop_keeps | with_reducible apply State.raise_keeps | with_reducible apply State.trapPass_keeps | ((with_reducible conv => arg 4; whnf); split)

theorem State.injectHere_keeps {s : State} {r : RxFrame} {sub : Nat} (h : State.Keeps a b s0 s) : State.Keeps a b s0 (State.injectHere s r sub) := by
  unfold State.injectHere
  repeat' first | with_reducible assumption | with_reducible apply State.drop_keeps | with_reducible apply State.parse_keeps | with_reducible apply State.scan_keeps | with_reducible apply State.updPath_keeps | with_reducible apply State.flushSamples_keeps | with_reducible apply State.parsed_keeps | ((with_reducible conv => arg 4; whnf); split)

theorem State.hostLanded_keeps {s : State} {id : Nat} (h : State.Keeps a b s0 s) : State.Keeps a b s0 (State.hostLanded s id) := by
  unfold State.hostLanded
  repeat' first | with_reducible assumption | with_reducible apply State.updPath_keeps | with_reducible apply State.injectHere_keeps | with_reducible apply State.freeCells_keeps | ((with_reducible conv => arg 4; whnf); split)

theorem State.atlLanded_keeps {s : State} {id : Nat} (h : State.Keeps a b s0 s) : State.Keeps a b s0 (State.atlLanded s id) := by
  unfold State.atlLanded
  repeat' first | with_reducible assumption | with_reducible apply State.updCway_keeps | with_reducible apply State.atlQueue_keeps | ((with_reducible conv => arg 4; whnf); split)

theorem State.readLanded_keeps {s : State} {client : Nat} {pkt : Nat} (h : State.Keeps a b s0 s) : State.Keeps a b s0 (State.readLanded s client pkt) := by
  unfold State.readLanded
  repeat' first | with_reducible assumption | with_reducible apply State.updPath_keeps | with_reducible apply State.setDeep_keeps | (dsimp only; split)

theorem State.deliverFlit_keeps {s : State} {d : Nat} {x2 : Nat} {x : Body} (h : State.Keeps a b s0 s) : State.Keeps a b s0 (State.deliverFlit s d x2 x) := by
  unfold State.deliverFlit
  repeat' first | with_reducible assumption | with_reducible apply State.setPkt_keeps | with_reducible apply State.updPath_keeps | with_reducible apply State.hostLanded_keeps | with_reducible apply State.cross_keeps | with_reducible apply State.readLanded_keeps | with_reducible apply State.atlLanded_keeps | ((with_reducible conv => arg 4; whnf); split)

theorem execFlitReceive_keeps (d : Fin 2) (x1 : Fin 64) (err : BitVec 2096) (s : State) : Keeping a b s (execFlitReceive d x1 err s) := by
  unfold execFlitReceive
  repeat' first | with_reducible assumption | with_reducible exact State.Keeps.refl _ | with_reducible apply State.satAdd_keeps | with_reducible apply State.setBundle_keeps | with_reducible apply State.deliverFlit_keeps | with_reducible apply keeping_next | ((with_reducible conv => arg 4; whnf); split)

theorem State.bundleEnter_keeps {s : State} {d : Nat} {x2 : Nat} {st : Nat} (h : State.Keeps a b s0 s) : State.Keeps a b s0 (State.bundleEnter s d x2 st) := by
  unfold State.bundleEnter
  repeat' first | with_reducible assumption | with_reducible apply State.wr_keeps | with_reducible apply State.raise_keeps

theorem State.swapPending_keeps {s : State} {d : Nat} {x2 : Nat} (h : State.Keeps a b s0 s) : State.Keeps a b s0 (State.swapPending s d x2) := by
  unfold State.swapPending
  repeat' first | with_reducible assumption | with_reducible apply State.bundleEnter_keeps | with_reducible apply State.setBundle_keeps | ((with_reducible conv => arg 4; whnf); split)

theorem execFlitAckReceive_keeps (d : Fin 2) (x1 : Fin 64) (s : State) : Keeping a b s (execFlitAckReceive d x1 s) := by
  unfold execFlitAckReceive
  repeat' first | with_reducible assumption | with_reducible exact State.Keeps.refl _ | with_reducible apply State.setBundle_keeps | with_reducible apply State.cwayPump_keeps | with_reducible apply State.swapPending_keeps | with_reducible apply keeping_next | (dsimp only; split)

theorem State.resend_keeps {s : State} {d : Nat} {x2 : Nat} (h : State.Keeps a b s0 s) : State.Keeps a b s0 (State.resend s d x2) := by
  unfold State.resend
  repeat' first | with_reducible assumption | with_reducible apply State.setBundle_keeps | with_reducible apply State.satAdd_keeps | with_reducible apply State.cntGlobal_keeps | with_reducible apply foldl_keeps | intro _

theorem execFlitNackReceive_keeps (d : Fin 2) (x1 : Fin 64) (s : State) : Keeping a b s (execFlitNackReceive d x1 s) := by
  unfold execFlitNackReceive
  repeat' first | with_reducible assumption | with_reducible exact State.Keeps.refl _ | with_reducible apply State.setBundle_keeps | with_reducible apply State.cwayPump_keeps | with_reducible apply State.swapPending_keeps | with_reducible apply State.resend_keeps | with_reducible apply keeping_next | ((with_reducible conv => arg 4; whnf); split)

theorem execCreditReturn_keeps (d : Fin 2) (x1 : Fin 64) (vc : Fin 6) (n : Nat) (s : State) : Keeping a b s (execCreditReturn d x1 vc n s) := by
  unfold execCreditReturn
  repeat' first | with_reducible assumption | with_reducible exact State.Keeps.refl _ | with_reducible apply State.cwayPump_keeps | with_reducible apply State.updCway_keeps | with_reducible apply keeping_next

theorem State.enqueueHeld_keeps {s : State} {x1 : HeldDesc} (h : State.Keeps a b s0 s) : State.Keeps a b s0 (State.enqueueHeld s x1) := by
  unfold State.enqueueHeld
  repeat' first | with_reducible assumption | with_reducible apply State.deliver_keeps | with_reducible apply State.updPath_keeps | ((with_reducible conv => arg 4; whnf); split)

theorem execDescEnqueue_keeps (pkt : Nat) (s : State) : Keeping a b s (execDescEnqueue pkt s) := by
  unfold execDescEnqueue
  repeat' first | with_reducible assumption | with_reducible exact State.Keeps.refl _ | with_reducible apply State.enqueueHeld_keeps | with_reducible apply foldl_keeps | with_reducible apply keeping_next

theorem execBundleRetrain_keeps (d : Fin 2) (x1 : Fin 64) (s : State) : Keeping a b s (execBundleRetrain d x1 s) := by
  unfold execBundleRetrain
  repeat' first | with_reducible assumption | with_reducible exact State.Keeps.refl _ | with_reducible apply State.bundleEnter_keeps | with_reducible apply State.setBundle_keeps | with_reducible apply keeping_next | (dsimp only; split)

theorem execBundleTrainDone_keeps (d : Fin 2) (x1 : Fin 64) (s : State) : Keeping a b s (execBundleTrainDone d x1 s) := by
  unfold execBundleTrainDone
  repeat' first | with_reducible assumption | with_reducible exact State.Keeps.refl _ | with_reducible apply State.bundleEnter_keeps | with_reducible apply State.setBundle_keeps | with_reducible apply State.resend_keeps | with_reducible apply State.cwayPump_keeps | with_reducible apply State.swapPending_keeps | with_reducible apply keeping_next | (dsimp only; split)

theorem State.ungrant_keeps {s : State} {x1 : Nat} {x2 : Nat} (h : State.Keeps a b s0 s) : State.Keeps a b s0 (State.ungrant s x1 x2) := by
  unfold State.ungrant
  repeat' first | with_reducible assumption | with_reducible apply State.backIndex_keeps | with_reducible apply State.updPath_keeps | with_reducible apply State.bankCheck_keeps | with_reducible apply State.spillUpdate_keeps | with_reducible apply State.subFrom_keeps | (dsimp only; split)

theorem State.moveFlits_keeps {s : State} {d : Nat} {x2 : Nat} {l : List Body} (h : State.Keeps a b s0 s) : State.Keeps a b s0 (State.moveFlits s d x2 l) := by
  unfold State.moveFlits
  repeat' first | with_reducible assumption | with_reducible apply State.sendCarry_keeps | with_reducible apply State.setBundle_keeps

theorem execBundleRetire_keeps (d : Fin 2) (x1 : Fin 64) (s : State) : Keeping a b s (execBundleRetire d x1 s) := by
  unfold execBundleRetire
  repeat' first | with_reducible assumption | with_reducible exact State.Keeps.refl _ | with_reducible apply State.updCway_keeps | with_reducible apply State.moveFlits_keeps | with_reducible apply State.ungrant_keeps | with_reducible apply State.mapRecord_keeps | with_reducible apply State.bundleEnter_keeps | with_reducible apply State.setBundle_keeps | with_reducible apply State.event_keeps | with_reducible apply State.raise_keeps | with_reducible apply State.cwayPump_keeps | with_reducible apply foldl_keeps | with_reducible apply keeping_next | ((with_reducible conv => arg 4; whnf); split) | intro _

theorem State.wireSwap_keeps {s : State} {d : Nat} {x2 : Nat} {w : Nat} (h : State.Keeps a b s0 s) : State.Keeps a b s0 (State.wireSwap s d x2 w) := by
  unfold State.wireSwap
  repeat' first | with_reducible assumption | with_reducible apply State.swapPending_keeps | with_reducible apply State.setBundle_keeps | with_reducible apply State.mapRecord_keeps

theorem execWireSwapStart_keeps (d : Fin 2) (x1 : Fin 64) (w : Fin 64) (s : State) : Keeping a b s (execWireSwapStart d x1 w s) := by
  unfold execWireSwapStart
  repeat' first | with_reducible assumption | with_reducible exact State.Keeps.refl _ | with_reducible apply State.wireSwap_keeps | with_reducible apply State.event_keeps | with_reducible apply keeping_next | ((with_reducible conv => arg 4; whnf); split)

theorem execWireSwapDone_keeps (d : Fin 2) (x1 : Fin 64) (s : State) : Keeping a b s (execWireSwapDone d x1 s) := by
  unfold execWireSwapDone
  repeat' first | with_reducible assumption | with_reducible exact State.Keeps.refl _ | with_reducible apply State.wr_keeps | with_reducible apply State.subFrom_keeps | with_reducible apply State.bundleEnter_keeps | with_reducible apply State.setBundle_keeps | with_reducible apply State.resend_keeps | with_reducible apply State.spareConsumed_keeps | with_reducible apply State.satAdd_keeps | with_reducible apply State.raise_keeps | with_reducible apply State.cwayPump_keeps | with_reducible apply State.finishHold_keeps | with_reducible apply keeping_next | ((with_reducible conv => arg 4; whnf); split)

theorem State.refLost_keeps {s : State} {r : Nat} (h : State.Keeps a b s0 s) : State.Keeps a b s0 (State.refLost s r) := by
  unfold State.refLost
  repeat' first | with_reducible assumption | with_reducible apply State.raise_keeps | with_reducible apply State.wrB_keeps

theorem execPllTakeover_keeps (refLost : Bool) (s : State) : Keeping a b s (execPllTakeover refLost s) := by
  unfold execPllTakeover
  repeat' first | with_reducible assumption | with_reducible exact State.Keeps.refl _ | with_reducible apply State.refLost_keeps | with_reducible apply State.raise_keeps | with_reducible apply State.satAdd_keeps | with_reducible apply State.wrB_keeps | with_reducible apply State.setRelock_keeps | with_reducible apply State.exchangePlls_keeps | with_reducible apply State.event_keeps | with_reducible apply State.wr_keeps | with_reducible apply keeping_next | ((with_reducible conv => arg 4; whnf); split)

theorem execPllRelockDone_keeps (k : Fin 2) (s : State) : Keeping a b s (execPllRelockDone k s) := by
  unfold execPllRelockDone
  repeat' first | with_reducible assumption | with_reducible exact State.Keeps.refl _ | with_reducible apply State.event_keeps | with_reducible apply State.wr_keeps | with_reducible apply State.setRelock_keeps | with_reducible apply keeping_next | ((with_reducible conv => arg 4; whnf); split)

theorem execPllRelockTimeout_keeps (k : Fin 2) (s : State) : Keeping a b s (execPllRelockTimeout k s) := by
  unfold execPllRelockTimeout
  repeat' first | with_reducible assumption | with_reducible exact State.Keeps.refl _ | with_reducible apply State.spareConsumed_keeps | with_reducible apply State.mapRecord_keeps | with_reducible apply State.raise_keeps | with_reducible apply State.wr_keeps | with_reducible apply State.setRelock_keeps | with_reducible apply keeping_next | ((with_reducible conv => arg 4; whnf); split)

theorem execPllAligned_keeps (s : State) : Keeping a b s (execPllAligned s) := by
  unfold execPllAligned
  repeat' first | with_reducible assumption | with_reducible exact State.Keeps.refl _ | with_reducible apply State.wrB_keeps | with_reducible apply State.wr_keeps | with_reducible apply State.setRelock_keeps | with_reducible apply keeping_next | ((with_reducible conv => arg 4; whnf); split)

theorem execRefclkStatusChange_keeps (r : Fin 2) (ok : Bool) (lock : Bool) (s : State) : Keeping a b s (execRefclkStatusChange r ok lock s) := by
  unfold execRefclkStatusChange
  repeat' first | with_reducible assumption | with_reducible exact State.Keeps.refl _ | with_reducible apply State.refLost_keeps | with_reducible apply State.wrB_keeps | with_reducible apply State.standbyRelock_keeps | with_reducible apply keeping_next | ((with_reducible conv => arg 4; whnf); split)

theorem State.slots_keeps {s : State} {i : Nat} {x : Nat} {c : Nat} {n : Nat} (h : State.Keeps a b s0 s) : State.Keeps a b s0 (State.slots s i x c n) := by
  unfold State.slots
  repeat' first | with_reducible assumption | with_reducible apply State.cntIsland_keeps | with_reducible apply State.wrapAdd_keeps | ((with_reducible conv => arg 4; whnf); split)

theorem State.mibRxGood_keeps {s : State} {p : Nat} {f : Sys2Proof.Bytes} (h : State.Keeps a b s0 s) : State.Keeps a b s0 (State.mibRxGood s p f) := by
  unfold State.mibRxGood
  repeat' first | with_reducible assumption | with_reducible apply State.mib_keeps

theorem State.mibRxErr_keeps {s : State} {p : Nat} {k : Nat} {len : Nat} (h : State.Keeps a b s0 s) : State.Keeps a b s0 (State.mibRxErr s p k len) := by
  unfold State.mibRxErr
  repeat' first | with_reducible assumption | with_reducible apply State.mib_keeps | (dsimp only; split)

theorem State.mibRxBad_keeps {s : State} {p : Nat} {_len : Nat} (h : State.Keeps a b s0 s) : State.Keeps a b s0 (State.mibRxBad s p _len) := by
  unfold State.mibRxBad
  repeat' first | with_reducible assumption | with_reducible apply State.mib_keeps

theorem State.mibRxControl_keeps {s : State} {p : Nat} {f : Sys2Proof.Bytes} (h : State.Keeps a b s0 s) : State.Keeps a b s0 (State.mibRxControl s p f) := by
  unfold State.mibRxControl
  repeat' first | with_reducible assumption | with_reducible apply State.mib_keeps | with_reducible apply State.mibRxGood_keeps | with_reducible apply foldl_keeps | ((with_reducible conv => arg 4; whnf); split) | intro _

theorem State.putEntry_keeps {s : State} {x1 : Nat} {x2 : Nat} {v : Nat} (h : State.Keeps a false s0 s) : State.Keeps a false s0 (State.putEntry s x1 x2 v) := by
  unfold State.putEntry
  repeat' first | with_reducible assumption | with_reducible apply State.hbmWrite_keeps

theorem State.putList_keeps {s : State} {g : Page} (h : State.Keeps a false s0 s) : State.Keeps a false s0 (State.putList s g) := by
  unfold State.putList
  repeat' first | with_reducible assumption | with_reducible apply State.putEntry_keeps | ((with_reducible conv => arg 4; whnf); split)

theorem State.storePage_keeps {s : State} {q : Nat} {g : Page} (h : State.Keeps a false s0 s) : State.Keeps a false s0 (State.storePage s q g) := by
  unfold State.storePage
  repeat' first | with_reducible assumption | with_reducible apply State.hbmWrite_keeps

theorem State.giveCells_keeps {s : State} {id : Nat} {n : Nat} (h : State.Keeps a b s0 s) : State.Keeps a b s0 (State.giveCells s id n) := by
  unfold State.giveCells
  repeat' first | with_reducible assumption | with_reducible apply State.refund_keeps | with_reducible apply State.freeCells_keeps | with_reducible apply State.setPkt_keeps | with_reducible apply State.pgTests_keeps | (dsimp only; split)

theorem State.updDys_keeps {s : State} {f : DysSt → DysSt} (h : State.Keeps a b s0 s) : State.Keeps a b s0 (State.updDys s f) := by
  unfold State.updDys
  repeat' first | with_reducible assumption | fail_if_no_progress (with_reducible apply mk_keeps)

theorem State.dysTake_keeps {s : State} {via : Sys2Proof.Via} (h : State.Keeps a b s0 s) {t : State} (e : State.dysTake s via = some t) : State.Keeps a b s0 t := by
  unfold State.dysTake at e
  dsimp only at e
  repeat' first | cases e | split at e
  repeat' first | with_reducible assumption | with_reducible apply State.wr_keeps | with_reducible apply State.setEth_keeps

theorem State.addHold_keeps {s : State} {x1 : Sys2Proof.DysHdr} {code : Nat} {kind : Nat} {ix : Nat} (h : State.Keeps a b s0 s) : State.Keeps a b s0 (State.addHold s x1 code kind ix) := by
  unfold State.addHold
  repeat' first | with_reducible assumption | with_reducible apply State.updDys_keeps

theorem State.dysAnswer_keeps {hd : DysHdr} {code : Nat} {x : DysAns} (h : State.Keeps a b s0 x.st) :
    State.Keeps a b s0 (State.dysAnswer hd code x) := by
  unfold State.dysAnswer
  dsimp only
  split
  · exact State.respond_keeps (State.emit_keeps h)
  · exact State.respond_keeps h

theorem State.dysRun_keeps {s0 s : State} {hd : DysHdr} {r : DysRule} {body : State → DysAns} (h : State.Keeps a b s0 s)
    (hb : ∀ t, r.object = true → State.Keeps a b s0 t → State.Keeps a b s0 (body t).st) : State.Keeps a b s0 (s.dysRun hd r body).2 := by
  unfold State.dysRun
  split
  · exact h
  · next t e =>
    have ht := State.dysTake_keeps h e
    dsimp only
    split
    · exact State.dysAnswer_keeps ht
    · split
      · exact State.dysAnswer_keeps ht
      · split
        · exact State.dysAnswer_keeps (State.raise_keeps ht)
        · split
          · exact State.dysAnswer_keeps ht
          · next ho =>
            have hb' := hb t (by simpa using ho) ht
            split
            · exact hb'
            · exact State.dysAnswer_keeps hb'

theorem State.dysCmd_keeps {s0 s : State} {hd : DysHdr} {r : DysRule} {body : State → DysAns} (h : State.Keeps a b s0 s)
    (hb : ∀ t, r.object = true → State.Keeps a b s0 t → State.Keeps a b s0 (body t).st) : State.Keeps a b s0 (s.dysCmd hd r body) :=
  State.dysRun_keeps h hb

theorem State.highRead_keeps {s : State} {r : RegName} {k : Nat} (h : State.Keeps a b s0 s) : State.Keeps a b s0 (State.highRead s r k) := by
  unfold State.highRead
  repeat' first | with_reducible assumption | with_reducible apply State.wr_keeps | with_reducible apply State.wrB_keeps | fail_if_no_progress (with_reducible apply mk_keeps) | ((with_reducible conv => arg 4; whnf); split)

theorem State.tsfPop_keeps {s : State} {i : Nat} (h : State.Keeps a b s0 s) : State.Keeps a b s0 (State.tsfPop s i).2 := by
  unfold State.tsfPop
  repeat' first | with_reducible assumption | with_reducible apply State.wr_keeps | fail_if_no_progress (with_reducible apply mk_keeps) | (dsimp only; split)

theorem State.regRead_keeps {s : State} {r : RegName} {k : Nat} (h : State.Keeps a b s0 s) : State.Keeps a b s0 (State.regRead s r k).2 := by
  unfold State.regRead
  repeat' first | with_reducible assumption | with_reducible apply State.tsfPop_keeps | with_reducible apply State.wr_keeps | with_reducible apply foldl_keeps | ((with_reducible conv => arg 4; whnf); split) | intro _

theorem State.readWord_keeps {s : State} {q : Requester} {addr : Nat} (h : State.Keeps a b s0 s) : State.Keeps a b s0 (State.readWord s q addr).2 := by
  unfold State.readWord
  repeat' first | with_reducible assumption | with_reducible apply State.highRead_keeps | with_reducible apply State.regRead_keeps | fail_if_no_progress (with_reducible apply mk_keeps) | ((with_reducible conv => arg 4; whnf); split) | (refine pair_keeps ?_ (by assumption))

theorem State.readAccess_keeps {s : State} {q : Requester} {addr : Nat} {size : Nat} (h : State.Keeps a b s0 s) : State.Keeps a b s0 (State.readAccess s q addr size).2 := by
  unfold State.readAccess
  repeat' first | with_reducible assumption | with_reducible apply State.regRead_keeps | with_reducible apply State.highRead_keeps | with_reducible apply State.readWord_keeps | ((with_reducible conv => arg 4; whnf); split)

theorem State.dysRead_keeps {q : Requester} : ∀ {s : State} {addr n : Nat}, State.Keeps a b s0 s →
    State.Keeps a b s0 (s.dysRead q addr n).2
  | s, addr, 0, h => h
  | s, addr, 1, h => State.readWord_keeps h
  | s, addr, n + 2, h => by
    unfold State.dysRead
    split
    · exact State.dysRead_keeps (State.readAccess_keeps h)
    · exact State.dysRead_keeps (State.readWord_keeps h)

theorem State.writeWord_keeps {s : State} {q : Requester} {addr : Nat} {v : Nat} (h : State.Keeps a b s0 s) : State.Keeps a b s0 (State.writeWord s q addr v) := by
  unfold State.writeWord
  repeat' first | with_reducible assumption | with_reducible apply State.writeAt_keeps | ((with_reducible conv => arg 4; whnf); split)

theorem State.writeAccess_keeps {s : State} {q : Requester} {addr : Nat} {size : Nat} {v : Nat} (h : State.Keeps a b s0 s) : State.Keeps a b s0 (State.writeAccess s q addr size v) := by
  unfold State.writeAccess
  repeat' first | with_reducible assumption | with_reducible apply State.writeWord_keeps | with_reducible apply State.regWrite_keeps | with_reducible apply State.discard_keeps | with_reducible apply State.dropHeld_keeps | fail_if_no_progress (with_reducible apply mk_keeps) | ((with_reducible conv => arg 4; whnf); split)

theorem State.dysWrite_keeps {q : Requester} : ∀ {s : State} {addr : Nat} {l : List Nat}, State.Keeps a b s0 s →
    State.Keeps a b s0 (s.dysWrite q addr l)
  | s, addr, [], h => h
  | s, addr, [v], h => State.writeAccess_keeps h
  | s, addr, v :: w :: t, h => by
    unfold State.dysWrite
    split
    · exact State.dysWrite_keeps (State.writeAccess_keeps h)
    · exact State.dysWrite_keeps (State.writeAccess_keeps h)

theorem State.fresh_keeps {s : State} (h : State.Keeps a b s0 s) : State.Keeps a b s0 (State.fresh s).2 := by
  unfold State.fresh
  repeat' first | with_reducible assumption | fail_if_no_progress (with_reducible apply mk_keeps)

theorem State.stageCut_keeps {s : State} (h : State.Keeps a b s0 s) : State.Keeps a b s0 (State.stageCut s) := by
  unfold State.stageCut
  repeat' first | with_reducible assumption | with_reducible apply State.fresh_keeps | with_reducible apply State.finishHold_keeps

theorem State.copyEnd_keeps {s : State} {i : Nat} {d : Nat} (h : State.Keeps a b s0 s) : State.Keeps a b s0 (State.copyEnd s i d) := by
  unfold State.copyEnd
  repeat' first | with_reducible assumption | with_reducible apply State.wr_keeps

theorem State.setIssueClk_keeps {s : State} {y : Nat} {c : IssueClk} (h : State.Keeps a b s0 s) : State.Keeps a b s0 (State.setIssueClk s y c) := by
  unfold State.setIssueClk
  repeat' first | with_reducible assumption | with_reducible apply State.updPath_keeps

theorem State.nextClock_keeps {s : State} {i : Nat} {x : Nat} (h : State.Keeps a b s0 s) : State.Keeps a b s0 (State.nextClock s i x) := by
  unfold State.nextClock
  repeat' first | with_reducible assumption | with_reducible apply State.setIssueClk_keeps | with_reducible apply State.slots_keeps | (dsimp only; split)

theorem State.egressClock_keeps {s : State} {i : Nat} {x : Nat} (h : State.Keeps a b s0 s) : State.Keeps a b s0 (State.egressClock s i x) := by
  unfold State.egressClock
  repeat' first | with_reducible assumption | with_reducible apply State.slots_keeps | with_reducible apply State.cntGlobal_keeps | with_reducible apply State.cntIsland_keeps | with_reducible apply State.setIssueClk_keeps | with_reducible apply State.nextClock_keeps | (dsimp only; split)

theorem State.pipeEnter_keeps {s : State} {y : Nat} {st : Nat} (h : State.Keeps a b s0 s) : State.Keeps a b s0 (State.pipeEnter s y st) := by
  unfold State.pipeEnter
  repeat' first | with_reducible assumption | with_reducible apply State.egressClock_keeps | with_reducible apply State.wr_keeps | with_reducible apply State.setIssueClk_keeps | with_reducible apply State.raise_keeps | ((with_reducible conv => arg 4; whnf); split)

theorem State.setPipeSwap_keeps {s : State} {i : Nat} {d : Nat} {x : Option PipeSwap} (h : State.Keeps a b s0 s) : State.Keeps a b s0 (State.setPipeSwap s i d x) := by
  unfold State.setPipeSwap
  repeat' first | with_reducible assumption | with_reducible apply State.updMat_keeps

theorem State.discardStaged_keeps {s : State} (h : State.Keeps a false s0 s) : State.Keeps a false s0 (State.discardStaged s) := by
  unfold State.discardStaged
  repeat' first | with_reducible assumption | with_reducible apply State.wr_keeps | with_reducible apply State.copyEnd_keeps | with_reducible apply State.clearPipe_keeps | with_reducible apply State.pipeEnter_keeps | with_reducible apply State.setPipeSwap_keeps | with_reducible apply State.dropPatterns_keeps | with_reducible apply State.stageCut_keeps | with_reducible apply State.unstage_keeps | ((with_reducible conv => arg 4; whnf); split)

theorem State.copyStatus_keeps {s : State} {i : Nat} {d : Nat} (h : State.Keeps a b s0 s) : State.Keeps a b s0 (State.copyStatus s i d) := by
  unfold State.copyStatus
  repeat' first | with_reducible assumption | with_reducible apply State.wr_keeps | (dsimp only; split)

theorem State.loadStart_keeps {s : State} {i : Nat} {d : Nat} {resv : Nat} {target : Nat} {progId : Nat} {retire : Bool} {graph : Option Sys2Proof.ParseGraph} {prog : Option Sys2Proof.Program} {values : List Nat} {tables : List Sys2Proof.TblLayout} {entries : List (Nat × Nat × List Nat)} {inits : List (Nat × Nat)} (h : State.Keeps a b s0 s) : State.Keeps a b s0 (State.loadStart s i d resv target progId retire graph prog values tables entries inits) := by
  unfold State.loadStart
  repeat' first | with_reducible assumption | with_reducible apply State.wr_keeps | with_reducible apply State.pipeEnter_keeps | with_reducible apply State.putProgram_keeps | with_reducible apply State.copyStatus_keeps | with_reducible apply State.setPipeSwap_keeps

theorem State.stageStart_keeps {s : State} {im : Sys2Proof.Image} {x : Nat} (h : State.Keeps a false s0 s) : State.Keeps a false s0 (State.stageStart s im x) := by
  unfold State.stageStart
  repeat' first | with_reducible assumption | with_reducible apply State.imageStore_keeps | with_reducible apply State.wr_keeps | with_reducible apply State.updBoot_keeps | with_reducible apply State.loadStart_keeps | with_reducible apply State.wrB_keeps | with_reducible apply foldl_keeps | ((with_reducible conv => arg 4; whnf); split) | intro _

theorem State.wireReturn_keeps {s : State} {o : Nat} (h : State.Keeps a b s0 s) : State.Keeps a b s0 (State.wireReturn s o) := by
  unfold State.wireReturn
  repeat' first | with_reducible assumption | with_reducible apply State.wr_keeps | with_reducible apply State.wrapAdd_keeps | ((with_reducible conv => arg 4; whnf); split)

theorem State.laneReturn_keeps {s : State} {o : Nat} (h : State.Keeps a b s0 s) : State.Keeps a b s0 (State.laneReturn s o) := by
  unfold State.laneReturn
  repeat' first | with_reducible assumption | with_reducible apply State.laneEnter_keeps | fail_if_no_progress (with_reducible apply mk_keeps) | ((with_reducible conv => arg 4; whnf); split)

theorem State.returnTo_keeps {s : State} {kind : Nat} {o : Nat} (h : State.Keeps a b s0 s) : State.Keeps a b s0 (State.returnTo s kind o) := by
  unfold State.returnTo
  repeat' first | with_reducible assumption | with_reducible apply State.mapRecord_keeps | with_reducible apply State.laneReturn_keeps | with_reducible apply State.wireReturn_keeps | with_reducible apply State.wrapAdd_keeps | with_reducible apply State.wr_keeps | with_reducible apply State.pipeEnter_keeps | with_reducible apply State.subFrom_keeps | with_reducible apply State.event_keeps | ((with_reducible conv => arg 4; whnf); split)

theorem execNop_keeps (x0 : Sys2Proof.DysHdr) (s : State) : Keeping a b s (execNop x0 s) := by
  unfold execNop
  repeat' first | with_reducible assumption | with_reducible exact State.Keeps.refl _ | with_reducible apply State.dysCmd_keeps | with_reducible apply keeping_next | intro _

theorem execRegRead_keeps (x0 : Sys2Proof.DysHdr) (count : Fin 16) (s : State) : Keeping a b s (execRegRead x0 count s) := by
  unfold execRegRead
  repeat' first | with_reducible assumption | with_reducible exact State.Keeps.refl _ | with_reducible apply State.dysCmd_keeps | with_reducible apply State.dysRead_keeps | with_reducible apply keeping_next | fail_if_no_progress (with_reducible apply mk_keeps) | (dsimp only; split) | intro _

theorem execRegWrite_keeps (x0 : Sys2Proof.DysHdr) (words : List (BitVec 32)) (s : State) : Keeping a b s (execRegWrite x0 words s) := by
  unfold execRegWrite
  repeat' first | with_reducible assumption | with_reducible exact State.Keeps.refl _ | with_reducible apply State.dysCmd_keeps | with_reducible apply State.dysWrite_keeps | with_reducible apply keeping_next | (dsimp only; split) | intro _

theorem execPortDefine_keeps (x0 : Sys2Proof.DysHdr) (d : Sys2Proof.PortDef) (s : State) : Keeping a b s (execPortDefine x0 d s) := by
  unfold execPortDefine
  repeat' first | with_reducible assumption | with_reducible exact State.Keeps.refl _ | with_reducible apply State.dysCmd_keeps | with_reducible apply State.undefine_keeps | with_reducible apply State.define_keeps | with_reducible apply keeping_next | ((with_reducible conv => arg 4; whnf); split) | (dsimp only; split) | intro _

theorem execPortEnable_keeps (x0 : Sys2Proof.DysHdr) (on : Bool) (s : State) : Keeping a b s (execPortEnable x0 on s) := by
  unfold execPortEnable
  repeat' first | with_reducible assumption | with_reducible exact State.Keeps.refl _ | with_reducible apply State.dysCmd_keeps | with_reducible apply State.portOn_keeps | with_reducible apply State.portOff_keeps | with_reducible apply keeping_next | ((with_reducible conv => arg 4; whnf); split) | (dsimp only; split) | intro _

theorem State.swapStart_keeps {s : State} {p : Nat} {k : Nat} {byCmd : Bool} (h : State.Keeps a b s0 s) : State.Keeps a b s0 (State.swapStart s p k byCmd) := by
  unfold State.swapStart
  repeat' first | with_reducible assumption | with_reducible apply State.fresh_keeps | with_reducible apply State.updPort_keeps | with_reducible apply State.setSwap_keeps | with_reducible apply State.mapRecord_keeps | with_reducible apply State.wr_keeps | with_reducible apply State.lmosSend_keeps | with_reducible apply State.setMirror_keeps | (dsimp only; split)

theorem State.bankReplace_keeps {s : State} {x1 : Nat} {x2 : Nat} {r : Nat} (h : State.Keeps a b s0 s) : State.Keeps a b s0 (State.bankReplace s x1 x2 r) := by
  unfold State.bankReplace
  repeat' first | with_reducible assumption | with_reducible apply State.subFrom_keeps | with_reducible apply State.mapRecord_keeps | with_reducible apply State.lagEvent_keeps | with_reducible apply State.wr_keeps | with_reducible apply State.wrapAdd_keeps | with_reducible apply State.spillUpdate_keeps | with_reducible apply State.spareConsumed_keeps | with_reducible apply State.bankCheck_keeps | with_reducible apply State.overcommitUpdate_keeps

theorem State.retireStart_keeps {s : State} {i : Nat} {x : Nat} {resv : Nat} (h : State.Keeps a b s0 s) : State.Keeps a b s0 (State.retireStart s i x resv) := by
  unfold State.retireStart
  repeat' first | with_reducible assumption | with_reducible apply State.loadStart_keeps | with_reducible apply State.mapRecord_keeps

theorem State.channelStart_keeps {s : State} {st : Nat} {c : Nat} (h : State.Keeps a b s0 s) : State.Keeps a b s0 (State.channelStart s st c) := by
  unfold State.channelStart
  repeat' first | with_reducible assumption | with_reducible apply State.wr_keeps | with_reducible apply State.updMc_keeps | fail_if_no_progress (with_reducible apply mk_keeps)

theorem State.startReplace_keeps {s : State} {kind : Nat} {o : Nat} {byCmd : Bool} (h : State.Keeps a b s0 s) : State.Keeps a b s0 (State.startReplace s kind o byCmd) := by
  unfold State.startReplace
  repeat' first | with_reducible assumption | with_reducible apply State.swapStart_keeps | with_reducible apply State.wireSwap_keeps | with_reducible apply State.bankReplace_keeps | with_reducible apply State.retireStart_keeps | with_reducible apply State.channelStart_keeps | with_reducible apply State.engineDrain_keeps | ((with_reducible conv => arg 4; whnf); split)

theorem execSpareSwap_keeps (x0 : Sys2Proof.DysHdr) (s : State) : Keeping a b s (execSpareSwap x0 s) := by
  unfold execSpareSwap
  repeat' first | with_reducible assumption | with_reducible exact State.Keeps.refl _ | with_reducible apply State.dysCmd_keeps | with_reducible apply State.requestRemove_keeps | with_reducible apply State.raise_keeps | with_reducible apply State.satAdd_keeps | with_reducible apply State.exchangePlls_keeps | with_reducible apply State.addHold_keeps | with_reducible apply State.startReplace_keeps | with_reducible apply keeping_next | ((with_reducible conv => arg 4; whnf); split) | intro _

theorem execSparePolicy_keeps (x0 : Sys2Proof.DysHdr) (op : Sys2Proof.PolicyOp) (s : State) : Keeping a b s (execSparePolicy x0 op s) := by
  unfold execSparePolicy
  repeat' first | with_reducible assumption | with_reducible exact State.Keeps.refl _ | with_reducible apply State.dysCmd_keeps | with_reducible apply State.wr_keeps | with_reducible apply State.setSpareMode_keeps | with_reducible apply State.requestClear_keeps | with_reducible apply keeping_next | ((with_reducible conv => arg 4; whnf); split) | intro _

theorem execSpareReturn_keeps (x0 : Sys2Proof.DysHdr) (s : State) : Keeping a b s (execSpareReturn x0 s) := by
  unfold execSpareReturn
  repeat' first | with_reducible assumption | with_reducible exact State.Keeps.refl _ | with_reducible apply State.dysCmd_keeps | with_reducible apply State.wrB_keeps | with_reducible apply State.addHold_keeps | with_reducible apply State.updRas_keeps | with_reducible apply keeping_next | ((with_reducible conv => arg 4; whnf); split) | intro _

theorem execReturnTestDone_keeps (pass : Bool) (step : BitVec 32) (s : State) : Keeping a b s (execReturnTestDone pass step s) := by
  unfold execReturnTestDone
  repeat' first | with_reducible assumption | with_reducible exact State.Keeps.refl _ | with_reducible apply State.wrB_keeps | with_reducible apply State.updRas_keeps | with_reducible apply State.returnTo_keeps | with_reducible apply State.finishHold_keeps | with_reducible apply keeping_next | ((with_reducible conv => arg 4; whnf); split)

theorem execErrlogRead_keeps (x0 : Sys2Proof.DysHdr) (seq : BitVec 32) (count : Nat) (s : State) : Keeping a b s (execErrlogRead x0 seq count s) := by
  unfold execErrlogRead
  repeat' first | with_reducible assumption | with_reducible exact State.Keeps.refl _ | with_reducible apply State.dysCmd_keeps | with_reducible apply keeping_next | (dsimp only; split) | intro _

theorem execTidemarkFire_keeps (x0 : Sys2Proof.DysHdr) (s : State) : Keeping a b s (execTidemarkFire x0 s) := by
  unfold execTidemarkFire
  repeat' first | with_reducible assumption | with_reducible exact State.Keeps.refl _ | with_reducible apply State.dysCmd_keeps | with_reducible apply State.tidemark_keeps | with_reducible apply keeping_next | (dsimp only; split) | intro _

theorem execSessionOpen_keeps (x0 : Sys2Proof.DysHdr) (o : Sys2Proof.AtlOpen) (s : State) : Keeping a b s (execSessionOpen x0 o s) := by
  unfold execSessionOpen
  repeat' first | with_reducible assumption | with_reducible exact State.Keeps.refl _ | with_reducible apply State.dysCmd_keeps | with_reducible apply State.sessOpen_keeps | with_reducible apply keeping_next | (dsimp only; split) | intro _

end Sys2Proof.Machine
end

