-- ==== Sys2Proof/Laws/Keeps4.lean ====
section
/-! SUPPORT. What the machine's functions keep, one lemma for each. -/

set_option linter.all false
set_option Elab.async false

namespace Sys2Proof.Machine

variable {a b : Bool} {s0 : State}

theorem execSessionClose_keeps (x0 : Sys2Proof.DysHdr) (s : State) : Keeping a b s (execSessionClose x0 s) := by
  unfold execSessionClose
  repeat' first | with_reducible assumption | with_reducible exact State.Keeps.refl _ | with_reducible apply State.dysCmd_keeps | with_reducible apply State.stageRelease_keeps | with_reducible apply State.wr_keeps | with_reducible apply State.addHold_keeps | with_reducible apply State.sessIdle_keeps | with_reducible apply keeping_next | ((with_reducible conv => arg 4; whnf); split) | (dsimp only; split) | intro _

theorem execImageStage_keeps (x0 : Sys2Proof.DysHdr) (im : Sys2Proof.Image) (x : Fin 5) (s : State) : Keeping a false s (execImageStage x0 im x s) := by
  unfold execImageStage
  repeat' first | with_reducible assumption | with_reducible exact State.Keeps.refl _ | with_reducible apply State.dysCmd_keeps | with_reducible apply State.stageStart_keeps | with_reducible apply State.addHold_keeps | with_reducible apply State.imageRejected_keeps | with_reducible apply keeping_next | ((with_reducible conv => arg 4; whnf); split) | (dsimp only; split) | intro _

theorem State.injectParse_keeps {s : State} {y : Nat} {x2 : Nat × Bool × RxFrame} (h : State.Keeps a b s0 s) : State.Keeps a b s0 (State.injectParse s y x2) := by
  unfold State.injectParse
  repeat' first | with_reducible assumption | with_reducible apply State.parse_keeps | with_reducible apply State.updPath_keeps | with_reducible apply State.parsed_keeps | ((with_reducible conv => arg 4; whnf); split)

theorem State.injectMove_keeps {s : State} {x1 : Nat} {x2 : Nat} (h : State.Keeps a b s0 s) : State.Keeps a b s0 (State.injectMove s x1 x2) := by
  unfold State.injectMove
  repeat' first | with_reducible assumption | with_reducible apply State.injectParse_keeps | with_reducible apply State.updPath_keeps | with_reducible apply foldl_keeps | intro _

theorem State.fenceStart_keeps {s : State} {i : Nat} {d : Nat} (h : State.Keeps a b s0 s) : State.Keeps a b s0 (State.fenceStart s i d) := by
  unfold State.fenceStart
  repeat' first | with_reducible assumption | with_reducible apply State.pipeEnter_keeps | with_reducible apply State.setPipeSwap_keeps | with_reducible apply State.injectMove_keeps | with_reducible apply State.wr_keeps | (dsimp only; split)

theorem execImageSwap_keeps (x0 : Sys2Proof.DysHdr) (s : State) : Keeping a false s (execImageSwap x0 s) := by
  unfold execImageSwap
  repeat' first | with_reducible assumption | with_reducible exact State.Keeps.refl _ | with_reducible apply State.dysCmd_keeps | with_reducible apply State.imageRejected_keeps | with_reducible apply State.fenceStart_keeps | with_reducible apply State.updBoot_keeps | with_reducible apply State.unstage_keeps | (with_reducible refine State.after_keeps (execPpeBankSwitch_keeps _ _ _ _) ?_ ?_) | with_reducible apply foldl_keeps | with_reducible apply keeping_next | ((with_reducible conv => arg 4; whnf); split) | (dsimp only; split) | intro _

theorem execImageCancel_keeps (x0 : Sys2Proof.DysHdr) (s : State) : Keeping a false s (execImageCancel x0 s) := by
  unfold execImageCancel
  repeat' first | with_reducible assumption | with_reducible exact State.Keeps.refl _ | with_reducible apply State.dysCmd_keeps | with_reducible apply State.discardStaged_keeps | with_reducible apply keeping_next | ((with_reducible conv => arg 4; whnf); split) | intro _

theorem execKeyProgram_keeps (h : DysHdr) (digest : BitVec 384) (s : State) : Keeping false b s (execKeyProgram h digest s) := by
  unfold execKeyProgram
  refine keeping_next (State.dysCmd_keeps (State.Keeps.refl s) fun t ho ht => ?_)
  have hk : h.object < 4 := by simpa using ho
  split
  · exact ht
  · next hn =>
    split
    · exact ht
    · have key : State.Keeps false b s { t with fuses := { t.fuses with digests := minsert t.fuses.digests h.object digest.toNat } } := by
        refine ht.trans ⟨rfl, nofun, fun _ => rfl, ⟨fun k d e => ?_, fun _ e => e, Nat.le_refl _⟩, fun l => ⟨l.1, l.2.1, fun e he => ?_⟩, id⟩
        · rw [mfind_minsert]
          split
          · next hj => subst hj; simp [e] at hn
          · exact e
        · rcases mem_minsert _ _ _ _ he with rfl | he
          · exact hk
          · exact l.2.2 e he
      dsimp only
      split
      · exact State.stageEnter_keeps (State.keyRegs_keeps key)
      · exact State.keyRegs_keeps key

theorem execKeyRevoke_keeps (h : DysHdr) (s : State) : Keeping false false s (execKeyRevoke h s) := by
  unfold execKeyRevoke
  refine keeping_next (State.dysCmd_keeps (State.Keeps.refl s) fun t ho ht => ?_)
  have hk : h.object < 4 := by simpa using ho
  dsimp only
  split
  · exact ht
  · split
    · exact ht
    · have key : State.Keeps false false s { t with fuses := { t.fuses with
          revoked := if t.fuses.revoked.contains h.object then t.fuses.revoked else t.fuses.revoked ++ [h.object] } } := by
        refine ht.trans ⟨rfl, nofun, fun _ => rfl, ⟨fun _ _ e => e, fun k e => ?_, Nat.le_refl _⟩, fun l => ⟨l.1, fun k e => ?_, l.2.2⟩, id⟩
        · dsimp only; split
          · exact e
          · exact List.mem_append_left _ e
        · dsimp only at e; split at e
          · exact l.2.1 k e
          · rcases List.mem_append.1 e with e | e
            · exact l.2.1 k e
            · simp at e; omega
      exact ite_keeps (fun _ => State.raise_keeps (State.discardStaged_keeps (State.keyRegs_keeps key))) (fun _ => State.keyRegs_keeps key)

theorem execSvnRaise_keeps (h : DysHdr) (floor : Fin 128) (s : State) : Keeping false b s (execSvnRaise h floor s) := by
  unfold execSvnRaise
  refine keeping_next (State.dysCmd_keeps (State.Keeps.refl s) fun t _ ht => ?_)
  split
  · exact ht
  · next h1 =>
    split
    · exact ht
    · next h2 =>
      simp only [Bool.or_eq_true, decide_eq_true_eq, not_or, Nat.not_lt, Nat.not_gt_eq] at h1 h2
      refine State.keyRegs_keeps (ht.trans ⟨rfl, nofun, fun _ => rfl, ⟨fun _ _ e => e, fun _ e => e, ?_⟩, fun l => ⟨?_, l.2.1, l.2.2⟩, id⟩)
      · exact h1.1
      · exact h2.1

theorem execLightStep_keeps (x0 : Sys2Proof.DysHdr) (abs : Bool) (sec : BitVec 64) (ns : BitVec 32) (frac : BitVec 16) (s : State) : Keeping a b s (execLightStep x0 abs sec ns frac s) := by
  unfold execLightStep
  repeat' first | with_reducible assumption | with_reducible exact State.Keeps.refl _ | with_reducible apply State.dysCmd_keeps | with_reducible apply State.acceptStep_keeps | with_reducible apply keeping_next | ((with_reducible conv => arg 4; whnf); split) | intro _

theorem execLightState_keeps (x0 : Sys2Proof.DysHdr) (req : Fin 8) (s : State) : Keeping a b s (execLightState x0 req s) := by
  unfold execLightState
  repeat' first | with_reducible assumption | with_reducible exact State.Keeps.refl _ | with_reducible apply State.dysCmd_keeps | with_reducible apply State.applyReq_keeps | with_reducible apply keeping_next | ((with_reducible conv => arg 4; whnf); split) | (dsimp only; split) | intro _

theorem execCapSet_keeps (x0 : Sys2Proof.DysHdr) (cap : BitVec 16) (s : State) : Keeping a b s (execCapSet x0 cap s) := by
  unfold execCapSet
  repeat' first | with_reducible assumption | with_reducible exact State.Keeps.refl _ | with_reducible apply State.dysCmd_keeps | with_reducible apply State.wr_keeps | with_reducible apply keeping_next | ((with_reducible conv => arg 4; whnf); split) | intro _

theorem execTelRead_keeps (x0 : Sys2Proof.DysHdr) (s : State) : Keeping a b s (execTelRead x0 s) := by
  unfold execTelRead
  repeat' first | with_reducible assumption | with_reducible exact State.Keeps.refl _ | with_reducible apply State.dysCmd_keeps | with_reducible apply State.wr_keeps | with_reducible apply foldl_keeps | with_reducible apply keeping_next | (dsimp only; split) | intro _

theorem execRingReset_keeps (x0 : Sys2Proof.DysHdr) (tx : Bool) (s : State) : Keeping a b s (execRingReset x0 tx s) := by
  unfold execRingReset
  repeat' first | with_reducible assumption | with_reducible exact State.Keeps.refl _ | with_reducible apply State.dysCmd_keeps | with_reducible apply State.wr_keeps | with_reducible apply State.ringEnable_keeps | with_reducible apply keeping_next | (dsimp only; split) | intro _

theorem execSensorRead_keeps (x0 : Sys2Proof.DysHdr) (s : State) : Keeping a b s (execSensorRead x0 s) := by
  unfold execSensorRead
  repeat' first | with_reducible assumption | with_reducible exact State.Keeps.refl _ | with_reducible apply State.dysCmd_keeps | with_reducible apply keeping_next | (dsimp only; split) | intro _

theorem execResetReq_keeps (x0 : Sys2Proof.DysHdr) (s : State) : Keeping false false s (execResetReq x0 s) := by
  unfold execResetReq
  repeat' first | with_reducible assumption | with_reducible exact State.Keeps.refl _ | with_reducible apply State.dysRun_keeps | with_reducible apply State.deviceReset_keeps | with_reducible apply keeping_next | ((with_reducible conv => arg 4; whnf); split) | intro _

theorem State.toMac_keeps {s : State} {i : Nat} {x : Nat} {x3 : TxFrame} (h : State.Keeps a b s0 s) : State.Keeps a b s0 (State.toMac s i x x3) := by
  unfold State.toMac
  repeat' first | with_reducible assumption | with_reducible apply State.release_keeps | with_reducible apply State.pipeDrop_keeps | with_reducible apply State.trapPass_keeps | with_reducible apply State.updPath_keeps | ((with_reducible conv => arg 4; whnf); split)

theorem State.releaseEgress_keeps {s : State} {i : Nat} {p : Nat} (h : State.Keeps a b s0 s) : State.Keeps a b s0 (State.releaseEgress s i p) := by
  unfold State.releaseEgress
  repeat' first | with_reducible assumption | with_reducible apply State.updPath_keeps | with_reducible apply State.toMac_keeps | with_reducible apply State.wr_keeps | with_reducible apply foldl_keeps | (dsimp only; split) | intro _

theorem execEgressExit_keeps (i : Fin 16) (x : Fin 5) (s : State) : Keeping a b s (execEgressExit i x s) := by
  unfold execEgressExit
  repeat' first | with_reducible assumption | with_reducible exact State.Keeps.refl _ | with_reducible apply State.updPath_keeps | with_reducible apply State.toMac_keeps | with_reducible apply State.releaseEgress_keeps | with_reducible apply keeping_next | ((with_reducible conv => arg 4; whnf); split)

theorem State.tsfCapture_keeps {s : State} {p : Nat} {msg : Nat} {dom : Nat} {ptpDom : Nat} {seqId : Nat} {ts : Nat} (h : State.Keeps a b s0 s) : State.Keeps a b s0 (State.tsfCapture s p msg dom ptpDom seqId ts) := by
  unfold State.tsfCapture
  repeat' first | with_reducible assumption | with_reducible apply State.satAdd_keeps | with_reducible apply State.raise_keeps | with_reducible apply State.wr_keeps | fail_if_no_progress (with_reducible apply mk_keeps) | ((with_reducible conv => arg 4; whnf); split)

theorem State.ptpAction_keeps {s : State} {x1 : TxFrame} {body : Sys2Proof.Bytes} {age : Nat} {sub : Nat} (h : State.Keeps a b s0 s) : State.Keeps a b s0 (State.ptpAction s x1 body age sub).2 := by
  unfold State.ptpAction
  repeat' first | with_reducible assumption | with_reducible apply State.satAdd_keeps | with_reducible apply State.tsfCapture_keeps | ((with_reducible conv => arg 4; whnf); split) | (dsimp only; split)

theorem State.spareFailure_keeps {s : State} {kind : Nat} {o : Nat} (h : State.Keeps a b s0 s) : State.Keeps a b s0 (State.spareFailure s kind o) := by
  unfold State.spareFailure
  repeat' first | with_reducible assumption | with_reducible apply State.requestRemove_keeps | with_reducible apply State.noSpare_keeps | with_reducible apply State.startReplace_keeps | ((with_reducible conv => arg 4; whnf); split)

theorem State.bankUncorrectable_keeps {s : State} {o : Nat} {inj : Bool} (h : State.Keeps a b s0 s) : State.Keeps a b s0 (State.bankUncorrectable s o inj) := by
  unfold State.bankUncorrectable
  repeat' first | with_reducible assumption | with_reducible apply State.updRas_keeps | with_reducible apply State.spareFailure_keeps | ((with_reducible conv => arg 4; whnf); split)

theorem State.cellError_keeps {s : State} {o : Nat} {uncorr : Bool} {inj : Bool} (h : State.Keeps a b s0 s) : State.Keeps a b s0 (State.cellError s o uncorr inj) := by
  unfold State.cellError
  repeat' first | with_reducible assumption | with_reducible apply State.bankUncorrectable_keeps | with_reducible apply State.lagEvent_keeps | with_reducible apply State.event_keeps | with_reducible apply State.rateAdd_keeps | ((with_reducible conv => arg 4; whnf); split)

theorem State.txErrors_keeps {s : State} {x1 : TxFrame} {errs : List (Nat × Bool)} (h : State.Keeps a b s0 s) : State.Keeps a b s0 (State.txErrors s x1 errs).2 := by
  unfold State.txErrors
  repeat' first | with_reducible assumption | with_reducible apply State.cellError_keeps | with_reducible apply foldl_keeps_snd | ((with_reducible conv => arg 4; whnf); split) | intro _

theorem State.lineCut_keeps {s : State} {p : Nat} {f : Sys2Proof.Bytes} (h : State.Keeps a b s0 s) : State.Keeps a b s0 (State.lineCut s p f) := by
  unfold State.lineCut
  repeat' first | with_reducible assumption | with_reducible apply State.emit_keeps | with_reducible apply State.sendBlocks_keeps | (dsimp only; split)

theorem State.cutFrame_keeps {s : State} {p : Nat} {x2 : TxFrame} {j : Nat} (h : State.Keeps a b s0 s) : State.Keeps a b s0 (State.cutFrame s p x2 j) := by
  unfold State.cutFrame
  repeat' first | with_reducible assumption | with_reducible apply State.setPkt_keeps | with_reducible apply State.updPort_keeps | with_reducible apply State.mib_keeps | with_reducible apply State.lineCut_keeps | ((with_reducible conv => arg 4; whnf); split)

theorem State.flowEvict_keeps {s : State} {die : Nat} {key : Nat} (h : State.Keeps a false s0 s) : State.Keeps a false s0 (State.flowEvict s die key) := by
  unfold State.flowEvict
  repeat' first | with_reducible assumption | with_reducible apply State.updTel_keeps | with_reducible apply State.hbmWrite_keeps | ((with_reducible conv => arg 4; whnf); split)

theorem State.flowTouch_keeps {s : State} {die : Nat} {key : Nat} (h : State.Keeps a false s0 s) : State.Keeps a false s0 (State.flowTouch s die key) := by
  unfold State.flowTouch
  repeat' first | with_reducible assumption | with_reducible apply State.updTel_keeps | with_reducible apply State.flowEvict_keeps | with_reducible apply foldl_keeps | intro _

theorem State.flowTrouble_keeps {s : State} (h : State.Keeps a b s0 s) : State.Keeps a b s0 (State.flowTrouble s) := by
  unfold State.flowTrouble
  repeat' first | with_reducible assumption | with_reducible apply State.raise_keeps | ((with_reducible conv => arg 4; whnf); split)

theorem State.flowApply_keeps {s : State} {die : Nat} {u : FlowUpd} (h : State.Keeps a false s0 s) : State.Keeps a false s0 (State.flowApply s die u) := by
  unfold State.flowApply
  repeat' first | with_reducible assumption | with_reducible apply State.flowTouch_keeps | with_reducible apply State.updTel_keeps | with_reducible apply State.flowTrouble_keeps | with_reducible apply State.satAdd_keeps | ((with_reducible conv => arg 4; whnf); split)

theorem State.flowUpdate_keeps {s : State} {die : Nat} {u : FlowUpd} (h : State.Keeps a false s0 s) : State.Keeps a false s0 (State.flowUpdate s die u) := by
  unfold State.flowUpdate
  repeat' first | with_reducible assumption | with_reducible apply State.flowApply_keeps | with_reducible apply State.flowTrouble_keeps | with_reducible apply State.satAdd_keeps | with_reducible apply State.updTel_keeps | ((with_reducible conv => arg 4; whnf); split)

theorem execFrameSent_keeps (p : Fin 512) (sub : Fin 16) (errs : List (Nat × Bool)) (s : State) : Keeping a false s (execFrameSent p sub errs s) := by
  unfold execFrameSent
  repeat' first | with_reducible assumption | with_reducible exact State.Keeps.refl _ | with_reducible apply State.updPath_keeps | with_reducible apply State.txErrors_keeps | with_reducible apply State.cutFrame_keeps | with_reducible apply State.ptpAction_keeps | with_reducible apply State.updPort_keeps | with_reducible apply State.mibTx_keeps | with_reducible apply State.lineSend_keeps | with_reducible apply State.cntIsland_keeps | with_reducible apply State.telRecord_keeps | with_reducible apply State.flowUpdate_keeps | with_reducible apply keeping_next | ((with_reducible conv => arg 4; whnf); split)

theorem State.ferryDirect_keeps {s : State} {p : Nat} {frame : Sys2Proof.Bytes} (h : State.Keeps a b s0 s) : State.Keeps a b s0 (State.ferryDirect s p frame) := by
  unfold State.ferryDirect
  repeat' first | with_reducible assumption | with_reducible apply State.fresh_keeps | with_reducible apply State.admitUnicast_keeps | (dsimp only; split)

theorem State.ferrySend_keeps {s : State} {ports : List Nat} {type : Nat} {count : Nat} {body : Sys2Proof.Bytes} (h : State.Keeps a b s0 s) : State.Keeps a b s0 (State.ferrySend s ports type count body) := by
  unfold State.ferrySend
  repeat' first | with_reducible assumption | with_reducible apply State.updPwr_keeps | with_reducible apply State.ferryDirect_keeps | with_reducible apply foldl_keeps | intro _

theorem execAnnounceSend_keeps (s : State) : Keeping a b s (execAnnounceSend s) := by
  unfold execAnnounceSend
  repeat' first | with_reducible assumption | with_reducible exact State.Keeps.refl _ | with_reducible apply State.ran_keeps | with_reducible apply State.ferrySend_keeps | with_reducible apply keeping_next | (dsimp only; split)

theorem State.countClass_keeps {s : State} {p : Nat} {frame : Sys2Proof.Bytes} {cls : Option Nat} (h : State.Keeps a b s0 s) : State.Keeps a b s0 (State.countClass s p frame cls) := by
  unfold State.countClass
  repeat' first | with_reducible assumption | with_reducible apply State.updPort_keeps | with_reducible apply State.mibRxErr_keeps | (dsimp only; split)

theorem State.ferryTaken_keeps {s : State} {p : Nat} {frame : Sys2Proof.Bytes} {coding : Bool} (h : State.Keeps a b s0 s) : State.Keeps a b s0 (State.ferryTaken s p frame coding).2 := by
  unfold State.ferryTaken
  repeat' first | with_reducible assumption | with_reducible exact State.Keeps.refl _ | with_reducible apply State.countClass_keeps | with_reducible apply State.mibRxGood_keeps | with_reducible apply State.satAdd_keeps | with_reducible apply foldl_keeps | with_reducible apply foldl_keeps_snd | with_reducible apply foldl_keeps_fst | with_reducible apply keeping_next | fail_if_no_progress (with_reducible apply mk_keeps) | with_reducible apply ite_keeps | ((with_reducible conv => arg 4; whnf); split) | (refine pair_keeps ?_ (by assumption)) | (refine triple_keeps ?_ (by assumption)) | (refine pair_keeps_fst ?_ (by assumption)) | (dsimp only; split) | intro _ _ _ _ | intro _ _ _ | intro _

theorem State.ferryRx_keeps {s0 s : State} {p type : Nat} {frame : Bytes} (h : State.Keeps a b s0 s) {y : Bool} {t : State}
    (e : s.ferryRx p type frame = some (y, t)) : State.Keeps a b s0 t := by
  unfold State.ferryRx at e
  split at e
  · cases e
  · have k := State.ferryTaken_keeps (p := p) (frame := frame) (coding := false) h
    injection e with e
    rw [e] at k
    exact k

theorem State.announceIn_keeps {s : State} {p : Nat} {frame : Sys2Proof.Bytes} (h : State.Keeps a b s0 s) : State.Keeps a b s0 (State.announceIn s p frame) := by
  unfold State.announceIn
  repeat' first | with_reducible assumption | with_reducible exact State.Keeps.refl _ | with_reducible apply State.ferryUpdate_keeps | with_reducible apply State.updPwr_keeps | with_reducible apply foldl_keeps | with_reducible apply foldl_keeps_snd | with_reducible apply foldl_keeps_fst | with_reducible apply keeping_next | fail_if_no_progress (with_reducible apply mk_keeps) | with_reducible apply ite_keeps | ((with_reducible conv => arg 4; whnf); split) | (refine pair_keeps ?_ (by assumption)) | (refine triple_keeps ?_ (by assumption)) | (refine pair_keeps_fst ?_ (by assumption)) | (dsimp only; split) | intro _ _ _ _ | intro _ _ _ | intro _

theorem execAnnounceReceive_keeps (p : Fin 512) (frame : Sys2Proof.Bytes) (s : State) : Keeping a b s (execAnnounceReceive p frame s) := by
  unfold execAnnounceReceive
  repeat' first | with_reducible assumption | with_reducible exact State.Keeps.refl _ | refine State.ferryRx_keeps ?_ (by assumption) | with_reducible apply State.announceIn_keeps | with_reducible apply foldl_keeps | with_reducible apply foldl_keeps_snd | with_reducible apply foldl_keeps_fst | with_reducible apply keeping_next | fail_if_no_progress (with_reducible apply mk_keeps) | with_reducible apply ite_keeps | ((with_reducible conv => arg 4; whnf); split) | (refine pair_keeps ?_ (by assumption)) | (refine triple_keeps ?_ (by assumption)) | (refine pair_keeps_fst ?_ (by assumption)) | (dsimp only; split) | intro _ _ _ _ | intro _ _ _ | intro _

theorem execBestExpire_keeps (s : State) : Keeping a b s (execBestExpire s) := by
  unfold execBestExpire
  repeat' first | with_reducible assumption | with_reducible exact State.Keeps.refl _ | with_reducible apply State.ferryUpdate_keeps | with_reducible apply State.updPwr_keeps | with_reducible apply keeping_next

theorem execReportSend_keeps (s : State) : Keeping a b s (execReportSend s) := by
  unfold execReportSend
  repeat' first | with_reducible assumption | with_reducible exact State.Keeps.refl _ | with_reducible apply State.ran_keeps | with_reducible apply State.ferrySend_keeps | with_reducible apply State.updAtl_keeps | with_reducible apply keeping_next | (dsimp only; split)

theorem State.ferryUpward_keeps {s0 s : State} {p : Nat} {frame : Bytes} {take : State → State} (h : State.Keeps a b s0 s)
    (ht : State.Keeps a b s0 (take s)) : State.Keeps a b s0 (s.ferryUpward p frame take) := by
  unfold State.ferryUpward
  repeat' split
  · exact State.admitCpu_keeps h
  · exact ht
  · exact State.ferryDirect_keeps h
  · exact h

theorem State.ferrySeen_keeps {s : State} {k : Nat × Nat × Nat} (h : State.Keeps a b s0 s) : State.Keeps a b s0 (State.ferrySeen s k).2 := by
  unfold State.ferrySeen
  repeat' first | with_reducible assumption | with_reducible apply State.updPwr_keeps | ((with_reducible conv => arg 4; whnf); split)

theorem State.updMember_keeps {s : State} {q : Nat} {f : FerryMember → FerryMember} (h : State.Keeps a b s0 s) : State.Keeps a b s0 (State.updMember s q f) := by
  unfold State.updMember
  repeat' first | with_reducible assumption | with_reducible apply State.updPwr_keeps

theorem State.addLate_keeps {s : State} {l : List (Nat × Nat)} (h : State.Keeps a b s0 s) : State.Keeps a b s0 (State.addLate s l) := by
  unfold State.addLate
  repeat' first | with_reducible assumption | with_reducible apply State.updMember_keeps | with_reducible apply foldl_keeps | intro _

theorem State.takeReport_keeps {s : State} {frame : Sys2Proof.Bytes} (h : State.Keeps a b s0 s) : State.Keeps a b s0 (State.takeReport s frame) := by
  unfold State.takeReport
  repeat' first | with_reducible assumption | with_reducible apply State.ferrySeen_keeps | with_reducible apply State.updMember_keeps | with_reducible apply State.addLate_keeps | (refine pair_keeps ?_ (by assumption)) | (dsimp only; split)

theorem State.reportIn_keeps {s : State} {p : Nat} {frame : Sys2Proof.Bytes} (h : State.Keeps a b s0 s) : State.Keeps a b s0 (State.reportIn s p frame) := by
  unfold State.reportIn
  repeat' first | with_reducible assumption | with_reducible exact State.Keeps.refl _ | with_reducible apply State.ferryUpward_keeps | with_reducible apply State.takeReport_keeps | with_reducible apply foldl_keeps | with_reducible apply foldl_keeps_snd | with_reducible apply foldl_keeps_fst | with_reducible apply keeping_next | fail_if_no_progress (with_reducible apply mk_keeps) | with_reducible apply ite_keeps | ((with_reducible conv => arg 4; whnf); split) | (refine pair_keeps ?_ (by assumption)) | (refine triple_keeps ?_ (by assumption)) | (refine pair_keeps_fst ?_ (by assumption)) | (dsimp only; split) | intro _ _ _ _ | intro _ _ _ | intro _

theorem execReportReceive_keeps (p : Fin 512) (frame : Sys2Proof.Bytes) (s : State) : Keeping a b s (execReportReceive p frame s) := by
  unfold execReportReceive
  repeat' first | with_reducible assumption | with_reducible exact State.Keeps.refl _ | refine State.ferryRx_keeps ?_ (by assumption) | with_reducible apply State.reportIn_keeps | with_reducible apply keeping_next | ((with_reducible conv => arg 4; whnf); split)

theorem execLagSend_keeps (s : State) : Keeping a b s (execLagSend s) := by
  unfold execLagSend
  repeat' first | with_reducible assumption | with_reducible exact State.Keeps.refl _ | with_reducible apply State.ran_keeps | with_reducible apply State.ferrySend_keeps | with_reducible apply State.updMember_keeps | with_reducible apply keeping_next | ((with_reducible conv => arg 4; whnf); split)

theorem State.takeLag_keeps {s : State} {frame : Sys2Proof.Bytes} (h : State.Keeps a b s0 s) : State.Keeps a b s0 (State.takeLag s frame) := by
  unfold State.takeLag
  repeat' first | with_reducible assumption | with_reducible apply State.ferrySeen_keeps | with_reducible apply State.updMember_keeps | (refine pair_keeps ?_ (by assumption)) | (dsimp only; split)

theorem State.lagIn_keeps {s : State} {p : Nat} {frame : Sys2Proof.Bytes} (h : State.Keeps a b s0 s) : State.Keeps a b s0 (State.lagIn s p frame) := by
  unfold State.lagIn
  repeat' first | with_reducible assumption | with_reducible exact State.Keeps.refl _ | with_reducible apply State.ferryUpward_keeps | with_reducible apply State.takeLag_keeps | with_reducible apply foldl_keeps | with_reducible apply foldl_keeps_snd | with_reducible apply foldl_keeps_fst | with_reducible apply keeping_next | fail_if_no_progress (with_reducible apply mk_keeps) | with_reducible apply ite_keeps | ((with_reducible conv => arg 4; whnf); split) | (refine pair_keeps ?_ (by assumption)) | (refine triple_keeps ?_ (by assumption)) | (refine pair_keeps_fst ?_ (by assumption)) | (dsimp only; split) | intro _ _ _ _ | intro _ _ _ | intro _

theorem execLagReceive_keeps (p : Fin 512) (frame : Sys2Proof.Bytes) (s : State) : Keeping a b s (execLagReceive p frame s) := by
  unfold execLagReceive
  repeat' first | with_reducible assumption | with_reducible exact State.Keeps.refl _ | refine State.ferryRx_keeps ?_ (by assumption) | with_reducible apply State.lagIn_keeps | with_reducible apply keeping_next | ((with_reducible conv => arg 4; whnf); split)

theorem State.sendGrants_keeps {s : State} {l : List (Nat × Nat)} (h : State.Keeps a b s0 s) : State.Keeps a b s0 (State.sendGrants s l) := by
  unfold State.sendGrants
  repeat' first | with_reducible assumption | with_reducible apply State.ferrySend_keeps | with_reducible apply foldl_keeps | intro _

theorem State.takeGrant_keeps {s : State} {serial : Nat} {seq : Nat} {cap : Nat} (h : State.Keeps a b s0 s) : State.Keeps a b s0 (State.takeGrant s serial seq cap) := by
  unfold State.takeGrant
  repeat' first | with_reducible assumption | with_reducible apply State.updPwr_keeps | ((with_reducible conv => arg 4; whnf); split)

theorem execGrantCompute_keeps (s : State) : Keeping a b s (execGrantCompute s) := by
  unfold execGrantCompute
  repeat' first | with_reducible assumption | with_reducible exact State.Keeps.refl _ | with_reducible apply State.ran_keeps | with_reducible apply State.updMember_keeps | with_reducible apply State.updAtl_keeps | with_reducible apply State.addLate_keeps | with_reducible apply State.updPwr_keeps | with_reducible apply State.wr_keeps | with_reducible apply State.sendGrants_keeps | with_reducible apply State.takeGrant_keeps | with_reducible apply keeping_next | ((with_reducible conv => arg 4; whnf); split)

theorem State.grantIn_keeps {s : State} {p : Nat} {frame : Sys2Proof.Bytes} (h : State.Keeps a b s0 s) : State.Keeps a b s0 (State.grantIn s p frame) := by
  unfold State.grantIn
  repeat' first | with_reducible assumption | with_reducible exact State.Keeps.refl _ | with_reducible apply State.ferryDirect_keeps | with_reducible apply State.ran_keeps | with_reducible apply State.takeGrant_keeps | with_reducible apply foldl_keeps | with_reducible apply foldl_keeps_snd | with_reducible apply foldl_keeps_fst | with_reducible apply keeping_next | fail_if_no_progress (with_reducible apply mk_keeps) | with_reducible apply ite_keeps | ((with_reducible conv => arg 4; whnf); split) | (refine pair_keeps ?_ (by assumption)) | (refine triple_keeps ?_ (by assumption)) | (refine pair_keeps_fst ?_ (by assumption)) | (dsimp only; split) | intro _ _ _ _ | intro _ _ _ | intro _

theorem execGrantReceive_keeps (p : Fin 512) (frame : Sys2Proof.Bytes) (s : State) : Keeping a b s (execGrantReceive p frame s) := by
  unfold execGrantReceive
  repeat' first | with_reducible assumption | with_reducible exact State.Keeps.refl _ | refine State.ferryRx_keeps ?_ (by assumption) | with_reducible apply State.grantIn_keeps | with_reducible apply foldl_keeps | with_reducible apply keeping_next | ((with_reducible conv => arg 4; whnf); split) | intro _

theorem State.applyCap_keeps {s : State} (h : State.Keeps a b s0 s) : State.Keeps a b s0 (State.applyCap s) := by
  unfold State.applyCap
  repeat' first | with_reducible assumption | with_reducible apply State.wr_keeps | ((with_reducible conv => arg 4; whnf); split)

theorem execGrantRevert_keeps (s : State) : Keeping a b s (execGrantRevert s) := by
  unfold execGrantRevert
  repeat' first | with_reducible assumption | with_reducible exact State.Keeps.refl _ | with_reducible apply State.applyCap_keeps | with_reducible apply State.updPwr_keeps | with_reducible apply keeping_next | ((with_reducible conv => arg 4; whnf); split)

theorem State.ferryArrive_keeps {s : State} {p : Nat} {frame : Sys2Proof.Bytes} {coding : Bool} (h : State.Keeps a b s0 s) : State.Keeps a b s0 (State.ferryArrive s p frame coding) := by
  unfold State.ferryArrive
  repeat' first | with_reducible assumption | with_reducible exact State.Keeps.refl _ | with_reducible apply State.ferryTaken_keeps | with_reducible apply State.announceIn_keeps | with_reducible apply State.reportIn_keeps | with_reducible apply State.grantIn_keeps | with_reducible apply State.lagIn_keeps | with_reducible apply foldl_keeps | with_reducible apply foldl_keeps_snd | with_reducible apply foldl_keeps_fst | with_reducible apply keeping_next | fail_if_no_progress (with_reducible apply mk_keeps) | with_reducible apply ite_keeps | ((with_reducible conv => arg 4; whnf); split) | (refine pair_keeps ?_ (by assumption)) | (refine triple_keeps ?_ (by assumption)) | (refine pair_keeps_fst ?_ (by assumption)) | (dsimp only; split) | intro _ _ _ _ | intro _ _ _ | intro _

theorem State.flowPut_keeps {s : State} {die : Nat} {key : Nat} {r : FlowRec} (h : State.Keeps a false s0 s) : State.Keeps a false s0 (State.flowPut s die key r) := by
  unfold State.flowPut
  repeat' first | with_reducible assumption | with_reducible apply State.hbmWrite_keeps | with_reducible apply State.updTel_keeps | ((with_reducible conv => arg 4; whnf); split)

theorem State.flowFree_keeps {s : State} {die : Nat} {key : Nat} (h : State.Keeps a b s0 s) : State.Keeps a b s0 (State.flowFree s die key) := by
  unfold State.flowFree
  repeat' first | with_reducible assumption | with_reducible apply State.updTel_keeps

theorem State.flowFetched_keeps {s : State} {die : Nat} {x2 : Nat} {bad : List Nat} (h : State.Keeps a false s0 s) : State.Keeps a false s0 (State.flowFetched s die x2 bad) := by
  unfold State.flowFetched
  repeat' first | with_reducible assumption | with_reducible apply State.event_keeps | with_reducible apply State.flowFree_keeps | with_reducible apply State.updTel_keeps | with_reducible apply State.flowApply_keeps | with_reducible apply foldl_keeps | intro _

theorem State.flowRead_keeps {s : State} {st : Nat} {off : Nat} {n : Nat} {bad : List Nat} (h : State.Keeps a false s0 s) : State.Keeps a false s0 (State.flowRead s st off n bad) := by
  unfold State.flowRead
  repeat' first | with_reducible assumption | with_reducible apply State.flowFetched_keeps | with_reducible apply foldl_keeps | ((with_reducible conv => arg 4; whnf); split) | intro _

theorem State.headMove_keeps {s : State} {tx : Bool} {r : Nat} {k : Nat} (h : State.Keeps a b s0 s) : State.Keeps a b s0 (State.headMove s tx r k) := by
  unfold State.headMove
  repeat' first | with_reducible assumption | with_reducible apply State.wr_keeps

theorem State.ringRaise_keeps {s : State} {tx : Bool} {r : Nat} (h : State.Keeps a b s0 s) : State.Keeps a b s0 (State.ringRaise s tx r) := by
  unfold State.ringRaise
  repeat' first | with_reducible assumption | with_reducible apply State.sendVector_keeps

theorem State.vfDenied_keeps {s : State} {f : Nat} (h : State.Keeps a b s0 s) : State.Keeps a b s0 (State.vfDenied s f) := by
  unfold State.vfDenied
  repeat' first | with_reducible assumption | with_reducible apply State.raise_keeps | with_reducible apply State.satAdd_keeps

theorem State.rxWrite_keeps {s : State} {r : Nat} {x : Pkt} {bufs : List Nat} (h : State.Keeps a b s0 s) : State.Keeps a b s0 (State.rxWrite s r x bufs) := by
  unfold State.rxWrite
  repeat' first | with_reducible assumption | with_reducible apply State.emit_keeps | with_reducible apply State.headMove_keeps | with_reducible apply State.updHarb_keeps | with_reducible apply State.ringRaise_keeps | with_reducible apply foldl_keeps | (dsimp only; split) | intro _

theorem State.injectFrame_keeps {s : State} {p : Nat} {data : Sys2Proof.Bytes} {sub : Nat} (h : State.Keeps a b s0 s) : State.Keeps a b s0 (State.injectFrame s p data sub) := by
  unfold State.injectFrame
  repeat' first | with_reducible assumption | with_reducible apply State.injectHere_keeps | with_reducible apply State.cross_keeps | with_reducible apply State.updPath_keeps | (dsimp only; split)

theorem State.txHand_keeps {s : State} {d : Sys2Proof.TxDesc} {data : Sys2Proof.Bytes} {sub : Nat} (h : State.Keeps a b s0 s) : State.Keeps a b s0 (State.txHand s d data sub).2 := by
  unfold State.txHand
  repeat' first | with_reducible assumption | with_reducible apply State.injectFrame_keeps | with_reducible apply State.admitUnicast_keeps | ((with_reducible conv => arg 4; whnf); split)

theorem State.ringClear_keeps {s : State} {tx : Bool} {r : Nat} (h : State.Keeps a b s0 s) : State.Keeps a b s0 (State.ringClear s tx r) := by
  unfold State.ringClear
  repeat' first | with_reducible assumption | with_reducible apply State.ringEnable_keeps | with_reducible apply State.regReset_keeps | with_reducible apply State.sampleClear_keeps | with_reducible apply foldl_keeps | (dsimp only; split) | intro _

theorem State.dysClear_keeps {s : State} {k : Nat} (h : State.Keeps a b s0 s) : State.Keeps a b s0 (State.dysClear s k) := by
  unfold State.dysClear
  repeat' first | with_reducible assumption | with_reducible apply State.regReset_keeps | with_reducible apply foldl_keeps | fail_if_no_progress (with_reducible apply mk_keeps) | intro _

theorem State.ownerRelease_keeps {s : State} {agent : Nat} (h : State.Keeps a b s0 s) : State.Keeps a b s0 (State.ownerRelease s agent) := by
  unfold State.ownerRelease
  repeat' first | with_reducible assumption | with_reducible apply State.freeBuf_keeps | with_reducible apply State.setEnt_keeps | with_reducible apply foldl_keeps | (dsimp only; split) | intro _

theorem State.windowClear_keeps {s : State} {f : Nat} (h : State.Keeps a b s0 s) : State.Keeps a b s0 (State.windowClear s f) := by
  unfold State.windowClear
  repeat' first | with_reducible assumption | with_reducible apply State.regReset_keeps | with_reducible apply foldl_keeps | ((with_reducible conv => arg 4; whnf); split) | intro _

theorem State.flr_keeps {s : State} {f : Nat} (h : State.Keeps a b s0 s) : State.Keeps a b s0 (State.flr s f) := by
  unfold State.flr
  repeat' first | with_reducible assumption | with_reducible apply State.ringClear_keeps | with_reducible apply State.dysClear_keeps | with_reducible apply State.windowClear_keeps | with_reducible apply State.ownerRelease_keeps | with_reducible apply State.raise_keeps | with_reducible apply foldl_keeps | ((with_reducible conv => arg 4; whnf); split) | intro _

theorem State.write_keeps {s : State} {q : Requester} {addr : Nat} {size : Nat} {v : Nat} (h : State.Keeps a b s0 s) : State.Keeps a b s0 (State.write s q addr size v) := by
  unfold State.write
  repeat' first | with_reducible assumption | with_reducible apply State.writeAccess_keeps | with_reducible apply State.vfDenied_keeps | ((with_reducible conv => arg 4; whnf); split)

theorem execRxTailWrite_keeps (q : Requester) (r : Fin 64) (tail : Fin 65536) (s : State) : Keeping a b s (execRxTailWrite q r tail s) := by
  unfold execRxTailWrite
  repeat' first | with_reducible assumption | with_reducible exact State.Keeps.refl _ | with_reducible apply State.write_keeps | with_reducible apply keeping_next

theorem State.setLevel_keeps {s : State} {n : Nat} {v : ℤ} (h : State.Keeps a b s0 s) : State.Keeps a b s0 (State.setLevel s n v) := by
  unfold State.setLevel
  repeat' first | with_reducible assumption | with_reducible apply State.wr_keeps | with_reducible apply State.updTm_keeps | ((with_reducible conv => arg 4; whnf); split)

theorem State.chargeShaper_keeps {s : State} {n : Nat} {l : Nat} (h : State.Keeps a b s0 s) : State.Keeps a b s0 (State.chargeShaper s n l) := by
  unfold State.chargeShaper
  repeat' first | with_reducible assumption | with_reducible apply State.setLevel_keeps | ((with_reducible conv => arg 4; whnf); split)

theorem State.cpuAccount_keeps {s : State} {c : Child} {n : Nat} (h : State.Keeps a b s0 s) : State.Keeps a b s0 (State.cpuAccount s c n) := by
  unfold State.cpuAccount
  repeat' first | with_reducible assumption | with_reducible apply State.chargeShaper_keeps | with_reducible apply State.updTm_keeps

theorem State.readCells_keeps {s : State} {k : Nat} {x : Pkt} {errs : List (Nat × Bool)} (h : State.Keeps a b s0 s) : State.Keeps a b s0 (State.readCells s k x errs).2 := by
  unfold State.readCells
  repeat' first | with_reducible assumption | with_reducible apply State.injectEcc_keeps | with_reducible apply State.cellError_keeps | with_reducible apply foldl_keeps_snd | ((with_reducible conv => arg 4; whnf); split) | (refine pair_keeps ?_ (by assumption)) | intro _

theorem State.cpuServe_keeps {s : State} {r : Nat} {x2 : QEnt} {x : Pkt} {bufs : List Nat} {errs : List (Nat × Bool)} (h : State.Keeps a b s0 s) : State.Keeps a b s0 (State.cpuServe s r x2 x bufs errs) := by
  unfold State.cpuServe
  repeat' first | with_reducible assumption | with_reducible apply State.readCells_keeps | with_reducible apply State.popQueue_keeps | with_reducible apply State.drop_keeps | with_reducible apply State.setPkt_keeps | with_reducible apply State.rxWrite_keeps | with_reducible apply State.release_keeps | ((with_reducible conv => arg 4; whnf); split)

theorem execRxFrameWrite_keeps (bufs : List Nat) (errs : List (Nat × Bool)) (s : State) : Keeping a b s (execRxFrameWrite bufs errs s) := by
  unfold execRxFrameWrite
  repeat' first | with_reducible assumption | with_reducible exact State.Keeps.refl _ | with_reducible apply State.cpuServe_keeps | with_reducible apply State.cpuAccount_keeps | with_reducible apply keeping_next | ((with_reducible conv => arg 4; whnf); split)

theorem execRxItrExpire_keeps (r : Fin 64) (s : State) : Keeping a b s (execRxItrExpire r s) := by
  unfold execRxItrExpire
  repeat' first | with_reducible assumption | with_reducible exact State.Keeps.refl _ | with_reducible apply State.ringRaise_keeps | with_reducible apply State.updHarb_keeps | with_reducible apply keeping_next | ((with_reducible conv => arg 4; whnf); split)

theorem execTxTailWrite_keeps (q : Requester) (r : Fin 64) (tail : Fin 65536) (s : State) : Keeping a b s (execTxTailWrite q r tail s) := by
  unfold execTxTailWrite
  repeat' first | with_reducible assumption | with_reducible exact State.Keeps.refl _ | with_reducible apply State.write_keeps | with_reducible apply keeping_next

theorem State.txDone_keeps {s : State} {r : Nat} {n : Nat} {d : Sys2Proof.TxDesc} {st : Nat} (h : State.Keeps a b s0 s) : State.Keeps a b s0 (State.txDone s r n d st) := by
  unfold State.txDone
  repeat' first | with_reducible assumption | with_reducible apply State.emit_keeps | with_reducible apply State.headMove_keeps | with_reducible apply State.ringRaise_keeps | (dsimp only; split)

theorem execTxFrameRead_keeps (r : Fin 64) (ds : List (BitVec 256)) (data : Sys2Proof.Bytes) (sub : Fin 16) (s : State) : Keeping a b s (execTxFrameRead r ds data sub s) := by
  unfold execTxFrameRead
  repeat' first | with_reducible assumption | with_reducible exact State.Keeps.refl _ | with_reducible apply State.txDone_keeps | with_reducible apply State.txHand_keeps | with_reducible apply State.flushSamples_keeps | with_reducible apply keeping_next | ((with_reducible conv => arg 4; whnf); split)

theorem execHostInjectWaitExpire_keeps (i : Fin 16) (x : Fin 5) (s : State) : Keeping a b s (execHostInjectWaitExpire i x s) := by
  unfold execHostInjectWaitExpire
  repeat' first | with_reducible assumption | with_reducible exact State.Keeps.refl _ | with_reducible apply State.updPath_keeps | with_reducible apply keeping_next

theorem execPcieLinkChange_keeps (up : Bool) (rate : Fin 6) (width : Fin 9) (flit : Bool) (s : State) : Keeping a b s (execPcieLinkChange up rate width flit s) := by
  unfold execPcieLinkChange
  repeat' first | with_reducible assumption | with_reducible exact State.Keeps.refl _ | with_reducible apply State.wrB_keeps | with_reducible apply State.wr_keeps | with_reducible apply State.raise_keeps | with_reducible apply keeping_next | ((with_reducible conv => arg 4; whnf); split)

theorem execFunctionLevelReset_keeps (f : Fin 32) (s : State) : Keeping a b s (execFunctionLevelReset f s) := by
  unfold execFunctionLevelReset
  repeat' first | with_reducible assumption | with_reducible exact State.Keeps.refl _ | with_reducible apply State.flr_keeps | with_reducible apply keeping_next

theorem execVfWindowAccess_keeps (f : Fin 32) (off : Fin 1048576) (size : Nat) (w : Option Nat) (s : State) : Keeping a b s (execVfWindowAccess f off size w s) := by
  unfold execVfWindowAccess
  repeat' first | with_reducible assumption | with_reducible exact State.Keeps.refl _ | with_reducible apply State.readAccess_keeps | with_reducible apply State.emit_keeps | with_reducible apply State.writeAccess_keeps | with_reducible apply State.vfDenied_keeps | with_reducible apply keeping_next | ((with_reducible conv => arg 4; whnf); split)

theorem execHarbRingCfgWrite_keeps (q : Requester) (tx : Bool) (r : Fin 64) (v : BitVec 32) (s : State) : Keeping a b s (execHarbRingCfgWrite q tx r v s) := by
  unfold execHarbRingCfgWrite
  repeat' first | with_reducible assumption | with_reducible exact State.Keeps.refl _ | with_reducible apply State.write_keeps | with_reducible apply keeping_next

theorem execIntStatusWrite_keeps (q : Requester) (x1 : Sys2Proof.Blk) (i : Nat) (v : BitVec 32) (s : State) : Keeping a b s (execIntStatusWrite q x1 i v s) := by
  unfold execIntStatusWrite
  repeat' first | with_reducible assumption | with_reducible exact State.Keeps.refl _ | with_reducible apply State.write_keeps | with_reducible apply keeping_next | ((with_reducible conv => arg 4; whnf); split)

theorem execChipVecMapWrite_keeps (q : Requester) (x1 : Fin 39) (v : BitVec 32) (s : State) : Keeping a b s (execChipVecMapWrite q x1 v s) := by
  unfold execChipVecMapWrite
  repeat' first | with_reducible assumption | with_reducible exact State.Keeps.refl _ | with_reducible apply State.write_keeps | with_reducible apply keeping_next

theorem execDysCmdTailWrite_keeps (q : Requester) (k : Fin 35) (tail : BitVec 32) (s : State) : Keeping a b s (execDysCmdTailWrite q k tail s) := by
  unfold execDysCmdTailWrite
  repeat' first | with_reducible assumption | with_reducible exact State.Keeps.refl _ | with_reducible apply State.write_keeps | with_reducible apply keeping_next

theorem State.ethDrop_keeps {s : State} {x1 : Nat} (h : State.Keeps a b s0 s) : State.Keeps a b s0 (State.ethDrop s x1) := by
  unfold State.ethDrop
  repeat' first | with_reducible assumption | with_reducible apply State.raise_keeps | with_reducible apply State.satAdd_keeps

theorem State.ethTake_keeps {s : State} {x1 : Nat} {count : Nat} {seq : Nat} (h : State.Keeps a b s0 s) : State.Keeps a b s0 (State.ethTake s x1 count seq) := by
  unfold State.ethTake
  repeat' first | with_reducible assumption | with_reducible apply State.emit_keeps | with_reducible apply State.ethDrop_keeps | with_reducible apply State.setEth_keeps | ((with_reducible conv => arg 4; whnf); split)

theorem execDysDatagramReceive_keeps (x0 : Fin 2) (v6 : Bool) (src : Nat) (dst : Nat) (dport : Nat) (ver : Nat) (ty : Nat) (count : Nat) (seq : Nat) (s : State) : Keeping a b s (execDysDatagramReceive x0 v6 src dst dport ver ty count seq s) := by
  unfold execDysDatagramReceive
  repeat' first | with_reducible assumption | with_reducible exact State.Keeps.refl _ | with_reducible apply State.ethDrop_keeps | with_reducible apply State.ethTake_keeps | with_reducible apply keeping_next | ((with_reducible conv => arg 4; whnf); split)

theorem State.blockRetire_keeps {s : State} {st : Nat} {x2 : Nat} (h : State.Keeps a b s0 s) : State.Keeps a b s0 (State.blockRetire s st x2) := by
  unfold State.blockRetire
  repeat' first | with_reducible assumption | with_reducible apply State.event_keeps | with_reducible apply State.wrB_keeps | with_reducible apply State.wr_keeps | with_reducible apply State.markBuffers_keeps | with_reducible apply State.raise_keeps | ((with_reducible conv => arg 4; whnf); split)

theorem State.spareRequest_keeps {s : State} {kind : Nat} {o : Nat} {trigger : Nat} (h : State.Keeps a b s0 s) : State.Keeps a b s0 (State.spareRequest s kind o trigger) := by
  unfold State.spareRequest
  repeat' first | with_reducible assumption | with_reducible apply State.event_keeps | with_reducible apply State.noSpare_keeps | with_reducible apply State.startReplace_keeps | with_reducible apply State.updPort_keeps | with_reducible apply State.raise_keeps | with_reducible apply State.wr_keeps | with_reducible apply State.requestCount_keeps | with_reducible apply State.updRas_keeps | ((with_reducible conv => arg 4; whnf); split)

theorem State.lineCorrected_keeps {s : State} {st : Nat} {line : Nat} {pins : Nat} {inj : Bool} (h : State.Keeps a b s0 s) : State.Keeps a b s0 (State.lineCorrected s st line pins inj) := by
  unfold State.lineCorrected
  repeat' first | with_reducible assumption | with_reducible apply State.wrapAdd_keeps | with_reducible apply State.event_keeps | with_reducible apply State.updMc_keeps | with_reducible apply State.blockRetire_keeps | with_reducible apply State.rateAdd_keeps | with_reducible apply State.spareRequest_keeps | ((with_reducible conv => arg 4; whnf); split)

theorem State.lineUncorrectable_keeps {s : State} {st : Nat} {line : Nat} {pins : Nat} {inj : Bool} (h : State.Keeps a b s0 s) : State.Keeps a b s0 (State.lineUncorrectable s st line pins inj) := by
  unfold State.lineUncorrectable
  repeat' first | with_reducible assumption | with_reducible apply State.wrapAdd_keeps | with_reducible apply State.wr_keeps | with_reducible apply State.blockRetire_keeps | with_reducible apply State.raise_keeps | with_reducible apply State.spareRequest_keeps | (dsimp only; split)

theorem State.lineRead_keeps {s : State} {st : Nat} {line : Nat} {pins : Nat} (h : State.Keeps a b s0 s) : State.Keeps a b s0 (State.lineRead s st line pins).2 := by
  unfold State.lineRead
  repeat' first | with_reducible assumption | with_reducible apply State.injectEcc_keeps | with_reducible apply State.updMc_keeps | with_reducible apply State.lineUncorrectable_keeps | with_reducible apply State.lineCorrected_keeps | split | dsimp only | (refine pair_keeps ?_ (by assumption))

theorem State.lineWrite_keeps {s : State} {st : Nat} {r : McReq} {k : Nat} {pins : Nat} (h : State.Keeps a false s0 s) : State.Keeps a false s0 (State.lineWrite s st r k pins).2 := by
  unfold State.lineWrite
  repeat' first | with_reducible assumption | with_reducible apply State.hbmWrite_keeps | with_reducible apply State.updMc_keeps | with_reducible apply State.lineRead_keeps | with_reducible apply State.event_keeps | ((with_reducible conv => arg 4; whnf); split) | (refine pair_keeps ?_ (by assumption))

theorem State.readOne_keeps {s : State} {st : Nat} {before : List McReq} {r : McReq} {k : Nat} {pins : Nat} (h : State.Keeps a b s0 s) : State.Keeps a b s0 (State.readOne s st before r k pins).2 := by
  unfold State.readOne
  repeat' first | with_reducible assumption | with_reducible apply State.lineRead_keeps | ((with_reducible conv => arg 4; whnf); split)

theorem State.runLines_keeps {s : State} {st : Nat} {r : McReq} {errs : List (Nat × Nat)} (h : State.Keeps a false s0 s) : State.Keeps a false s0 (State.runLines s st r errs).2 := by
  unfold State.runLines
  repeat' first | with_reducible assumption | with_reducible apply State.lineWrite_keeps | with_reducible apply State.readOne_keeps | with_reducible apply foldl_keeps_snd | (dsimp only; split) | intro _

theorem State.batchUpdate_keeps {s : State} {st : Nat} {c : Nat} (h : State.Keeps a b s0 s) : State.Keeps a b s0 (State.batchUpdate s st c) := by
  unfold State.batchUpdate
  repeat' first | with_reducible assumption | with_reducible apply State.updMc_keeps

theorem State.mcWake_keeps {s : State} {st : Nat} (h : State.Keeps a b s0 s) : State.Keeps a b s0 (State.mcWake s st) := by
  unfold State.mcWake
  repeat' first | with_reducible assumption | with_reducible apply State.wrB_keeps | with_reducible apply State.updMc_keeps | with_reducible apply State.wr_keeps | ((with_reducible conv => arg 4; whnf); split)

theorem execMcRequest_keeps (st : Fin 6) (off : Nat) (len : Nat) (wr : Option Sys2Proof.Bytes) (rt : Bool) (client : Fin 256) (s : State) : Keeping a b s (execMcRequest st off len wr rt client s) := by
  unfold execMcRequest
  repeat' first | with_reducible assumption | with_reducible exact State.Keeps.refl _ | with_reducible apply State.updMc_keeps | with_reducible apply State.batchUpdate_keeps | with_reducible apply State.mcWake_keeps | with_reducible apply keeping_next | ((with_reducible conv => arg 4; whnf); split)

theorem State.closeRow_keeps {s : State} {st : Nat} {pc : Nat} {bank : Nat} {byTimer : Bool} (h : State.Keeps a b s0 s) : State.Keeps a b s0 (State.closeRow s st pc bank byTimer) := by
  unfold State.closeRow
  repeat' first | with_reducible assumption | with_reducible apply State.updMc_keeps

theorem State.refreshIssue_keeps {s : State} {st : Nat} {ch : Nat} {bank : Nat} (h : State.Keeps a b s0 s) : State.Keeps a b s0 (State.refreshIssue s st ch bank) := by
  unfold State.refreshIssue
  repeat' first | with_reducible assumption | with_reducible apply State.closeRow_keeps

theorem State.repayAhead_keeps {s : State} {st : Nat} {ch : Nat} {bank : Nat} (h : State.Keeps a b s0 s) : State.Keeps a b s0 (State.repayAhead s st ch bank) := by
  unfold State.repayAhead
  repeat' first | with_reducible assumption | with_reducible apply State.refreshIssue_keeps | with_reducible apply State.wr_keeps | ((with_reducible conv => arg 4; whnf); split)

theorem State.touchRow_keeps {s : State} {st : Nat} {pc : Nat} {bank : Nat} {row : Nat} (h : State.Keeps a b s0 s) : State.Keeps a b s0 (State.touchRow s st pc bank row) := by
  unfold State.touchRow
  repeat' first | with_reducible assumption | with_reducible apply State.updMc_keeps

theorem State.touchRows_keeps {s : State} {st : Nat} {r : McReq} (h : State.Keeps a b s0 s) : State.Keeps a b s0 (State.touchRows s st r) := by
  unfold State.touchRows
  repeat' first | with_reducible assumption | with_reducible apply State.touchRow_keeps | with_reducible apply foldl_keeps | intro _

theorem State.repay_keeps {s : State} {st : Nat} {ch : Nat} {bank : Nat} (h : State.Keeps a b s0 s) : State.Keeps a b s0 (State.repay s st ch bank) := by
  unfold State.repay
  repeat' first | with_reducible assumption | with_reducible apply State.refreshIssue_keeps | with_reducible apply State.subFrom_keeps | ((with_reducible conv => arg 4; whnf); split)

theorem execMcRequestDone_keeps (st : Fin 6) (c : Fin 31) (errs : List (Nat × Nat)) (s : State) : Keeping a false s (execMcRequestDone st c errs s) := by
  unfold execMcRequestDone
  repeat' first | with_reducible assumption | with_reducible exact State.Keeps.refl _ | with_reducible apply State.repayAhead_keeps | with_reducible apply State.touchRows_keeps | with_reducible apply State.cntGlobal_keeps | with_reducible apply State.runLines_keeps | with_reducible apply State.emit_keeps | with_reducible apply State.flowRead_keeps | with_reducible apply State.updMc_keeps | with_reducible apply State.batchUpdate_keeps | with_reducible apply State.repay_keeps | with_reducible apply foldl_keeps | with_reducible apply keeping_next | with_reducible apply ite_keeps | (dsimp only; split) | intro _

theorem execRefreshDue_keeps (st : Fin 6) (ch : Fin 32) (bank : Fin 16) (s : State) : Keeping a b s (execRefreshDue st ch bank s) := by
  unfold execRefreshDue
  repeat' first | with_reducible assumption | with_reducible exact State.Keeps.refl _ | with_reducible apply State.ran_keeps | with_reducible apply State.wr_keeps | with_reducible apply State.satAdd_keeps | with_reducible apply State.refreshIssue_keeps | with_reducible apply State.cntGlobal_keeps | with_reducible apply State.repay_keeps | with_reducible apply keeping_next | ((with_reducible conv => arg 4; whnf); split)

theorem execRowIdleClose_keeps (st : Fin 6) (pc : Fin 64) (bank : Fin 16) (s : State) : Keeping a b s (execRowIdleClose st pc bank s) := by
  unfold execRowIdleClose
  repeat' first | with_reducible assumption | with_reducible exact State.Keeps.refl _ | with_reducible apply State.closeRow_keeps | with_reducible apply keeping_next | ((with_reducible conv => arg 4; whnf); split)

theorem execIdleTimerAdapt_keeps (st : Fin 6) (pc : Fin 64) (s : State) : Keeping a b s (execIdleTimerAdapt st pc s) := by
  unfold execIdleTimerAdapt
  repeat' first | with_reducible assumption | with_reducible exact State.Keeps.refl _ | with_reducible apply State.ran_keeps | with_reducible apply State.wrB_keeps | with_reducible apply State.wr_keeps | with_reducible apply State.satAdd_keeps | with_reducible apply State.updMc_keeps | with_reducible apply keeping_next | ((with_reducible conv => arg 4; whnf); split)

theorem State.trainTempShow_keeps {s : State} {st : Nat} (h : State.Keeps a b s0 s) : State.Keeps a b s0 (State.trainTempShow s st) := by
  unfold State.trainTempShow
  repeat' first | with_reducible assumption | with_reducible apply State.wr_keeps

theorem execTsetEntryRetry_keeps (st : Fin 6) (commits : Bool) (s : State) : Keeping a b s (execTsetEntryRetry st commits s) := by
  unfold execTsetEntryRetry
  repeat' first | with_reducible assumption | with_reducible exact State.Keeps.refl _ | with_reducible apply State.updMc_keeps | with_reducible apply State.tsetCommit_keeps | with_reducible apply keeping_next | ((with_reducible conv => arg 4; whnf); split)

theorem State.trainSet_keeps {s : State} {st : Nat} {k : Nat} (h : State.Keeps a b s0 s) : State.Keeps a b s0 (State.trainSet s st k) := by
  unfold State.trainSet
  repeat' first | with_reducible assumption | with_reducible apply State.wr_keeps | with_reducible apply State.updMc_keeps

theorem execTsetChangeDone_keeps (st : Fin 6) (s : State) : Keeping a b s (execTsetChangeDone st s) := by
  unfold execTsetChangeDone
  repeat' first | with_reducible assumption | with_reducible exact State.Keeps.refl _ | with_reducible apply State.updMc_keeps | with_reducible apply State.trainSet_keeps | with_reducible apply State.wrB_keeps | with_reducible apply State.wr_keeps | with_reducible apply State.raise_keeps | with_reducible apply State.satAdd_keeps | with_reducible apply State.trainTempShow_keeps | with_reducible apply State.tsetRequest_keeps | with_reducible apply keeping_next | ((with_reducible conv => arg 4; whnf); split)

theorem execSrIdleEntry_keeps (st : Fin 6) (s : State) : Keeping a b s (execSrIdleEntry st s) := by
  unfold execSrIdleEntry
  repeat' first | with_reducible assumption | with_reducible exact State.Keeps.refl _ | with_reducible apply State.wr_keeps | with_reducible apply State.wrB_keeps | with_reducible apply State.updMc_keeps | with_reducible apply foldl_keeps | with_reducible apply keeping_next | (dsimp only; split) | intro _

theorem execPatrolScrub_keeps (st : Fin 6) (pins : Nat) (s : State) : Keeping a b s (execPatrolScrub st pins s) := by
  unfold execPatrolScrub
  repeat' first | with_reducible assumption | with_reducible exact State.Keeps.refl _ | with_reducible apply State.ran_keeps | with_reducible apply State.updMc_keeps | with_reducible apply State.injectEcc_keeps | with_reducible apply State.spareRequest_keeps | with_reducible apply State.lineCorrected_keeps | with_reducible apply keeping_next | ((with_reducible conv => arg 4; whnf); split)

theorem State.staleCheck_keeps {s : State} {st : Nat} (h : State.Keeps a b s0 s) : State.Keeps a b s0 (State.staleCheck s st) := by
  unfold State.staleCheck
  repeat' first | with_reducible assumption | with_reducible apply State.wr_keeps | with_reducible apply foldl_keeps | ((with_reducible conv => arg 4; whnf); split) | intro _

theorem execHbmTempRead_keeps (st : Fin 6) (temp : Fin 256) (s : State) : Keeping a b s (execHbmTempRead st temp s) := by
  unfold execHbmTempRead
  repeat' first | with_reducible assumption | with_reducible exact State.Keeps.refl _ | with_reducible apply State.wr_keeps | with_reducible apply State.ran_keeps | with_reducible apply State.wrB_keeps | with_reducible apply State.staleCheck_keeps | with_reducible apply keeping_next | ((with_reducible conv => arg 4; whnf); split)

theorem execDelayTracking_keeps (st : Fin 6) (ch : Fin 32) (s : State) : Keeping a b s (execDelayTracking st ch s) := by
  unfold execDelayTracking
  repeat' first | with_reducible assumption | with_reducible exact State.Keeps.refl _ | with_reducible apply State.updMc_keeps | with_reducible apply keeping_next | ((with_reducible conv => arg 4; whnf); split)

theorem execHbmTrainingDone_keeps (st : Fin 6) (temp : Fin 256) (fail : Option (Fin 32)) (s : State) : Keeping a b s (execHbmTrainingDone st temp fail s) := by
  unfold execHbmTrainingDone
  repeat' first | with_reducible assumption | with_reducible exact State.Keeps.refl _ | with_reducible apply State.wr_keeps | with_reducible apply State.trainSet_keeps | with_reducible apply State.updMc_keeps | with_reducible apply State.trainTempShow_keeps | with_reducible apply State.wrB_keeps | with_reducible apply State.raise_keeps | with_reducible apply foldl_keeps | with_reducible apply keeping_next | (dsimp only; split) | intro _

theorem execChannelSpareStart_keeps (st : Fin 6) (c : Fin 31) (s : State) : Keeping a b s (execChannelSpareStart st c s) := by
  unfold execChannelSpareStart
  repeat' first | with_reducible assumption | with_reducible exact State.Keeps.refl _ | with_reducible apply State.channelStart_keeps | with_reducible apply State.noSpare_keeps | with_reducible apply keeping_next | ((with_reducible conv => arg 4; whnf); split)

theorem execChannelCopyDone_keeps (st : Fin 6) (s : State) : Keeping a b s (execChannelCopyDone st s) := by
  unfold execChannelCopyDone
  repeat' first | with_reducible assumption | with_reducible exact State.Keeps.refl _ | with_reducible apply State.wr_keeps | with_reducible apply State.updMc_keeps | with_reducible apply State.mapRecord_keeps | with_reducible apply State.satAdd_keeps | with_reducible apply State.raise_keeps | with_reducible apply State.finishHold_keeps | with_reducible apply State.spareConsumed_keeps | with_reducible apply keeping_next | ((with_reducible conv => arg 4; whnf); split)

theorem execKeepSaveStart_keeps (trigger : Fin 3) (s : State) : Keeping a b s (execKeepSaveStart trigger s) := by
  unfold execKeepSaveStart
  repeat' first | with_reducible assumption | with_reducible exact State.Keeps.refl _ | with_reducible apply State.keepTrigger_keeps | with_reducible apply keeping_next

theorem execVkeepLow_keeps (mv : Fin 3000) (s : State) : Keeping a b s (execVkeepLow mv s) := by
  unfold execVkeepLow
  repeat' first | with_reducible assumption | with_reducible exact State.Keeps.refl _ | with_reducible apply State.keepTrigger_keeps | with_reducible apply State.wr_keeps | with_reducible apply keeping_next

theorem State.keepFinish_keeps {s : State} {n : Nat} {late : Nat} (h : State.Keeps a b s0 s) : State.Keeps a b s0 (State.keepFinish s n late) := by
  unfold State.keepFinish
  repeat' first | with_reducible assumption | with_reducible exact State.Keeps.refl _ | with_reducible apply State.updKeep_keeps | with_reducible apply State.wr_keeps | with_reducible apply State.raise_keeps | with_reducible apply State.satAdd_keeps | with_reducible apply foldl_keeps | with_reducible apply foldl_keeps_snd | with_reducible apply foldl_keeps_fst | with_reducible apply keeping_next | fail_if_no_progress (with_reducible apply mk_keeps) | with_reducible apply ite_keeps | ((with_reducible conv => arg 4; whnf); split) | (refine pair_keeps ?_ (by assumption)) | (refine triple_keeps ?_ (by assumption)) | (refine pair_keeps_fst ?_ (by assumption)) | (dsimp only; split) | intro _ _ _ _ | intro _ _ _ | intro _

theorem execKeepSaveDone_keeps (n : Fin 8) (late : Fin 8) (s : State) : Keeping a b s (execKeepSaveDone n late s) := by
  unfold execKeepSaveDone
  repeat' first | with_reducible assumption | with_reducible exact State.Keeps.refl _ | with_reducible apply State.keepFinish_keeps | with_reducible apply keeping_next

theorem execKeepShadowUpdate_keeps (wear : Bool) (s : State) : Keeping a b s (execKeepShadowUpdate wear s) := by
  unfold execKeepShadowUpdate
  repeat' first | with_reducible assumption | with_reducible exact State.Keeps.refl _ | with_reducible apply State.updKeep_keeps | with_reducible apply foldl_keeps | with_reducible apply foldl_keeps_snd | with_reducible apply foldl_keeps_fst | with_reducible apply keeping_next | fail_if_no_progress (with_reducible apply mk_keeps) | with_reducible apply ite_keeps | ((with_reducible conv => arg 4; whnf); split) | (refine pair_keeps ?_ (by assumption)) | (refine triple_keeps ?_ (by assumption)) | (refine pair_keeps_fst ?_ (by assumption)) | (dsimp only; split) | intro _ _ _ _ | intro _ _ _ | intro _

theorem State.settleEngine_keeps {s : State} {x1 : Nat} (h : State.Keeps a b s0 s) : State.Keeps a b s0 (State.settleEngine s x1) := by
  unfold State.settleEngine
  repeat' first | with_reducible assumption | with_reducible exact State.Keeps.refl _ | with_reducible apply State.wr_keeps | with_reducible apply foldl_keeps | with_reducible apply foldl_keeps_snd | with_reducible apply foldl_keeps_fst | with_reducible apply keeping_next | fail_if_no_progress (with_reducible apply mk_keeps) | with_reducible apply ite_keeps | ((with_reducible conv => arg 4; whnf); split) | (refine pair_keeps ?_ (by assumption)) | (refine triple_keeps ?_ (by assumption)) | (refine pair_keeps_fst ?_ (by assumption)) | (dsimp only; split) | intro _ _ _ _ | intro _ _ _ | intro _

theorem State.settleWire_keeps {s : State} {k : Nat} (h : State.Keeps a b s0 s) : State.Keeps a b s0 (State.settleWire s k) := by
  unfold State.settleWire
  repeat' first | with_reducible assumption | with_reducible exact State.Keeps.refl _ | with_reducible apply State.wr_keeps | with_reducible apply foldl_keeps | with_reducible apply foldl_keeps_snd | with_reducible apply foldl_keeps_fst | with_reducible apply keeping_next | fail_if_no_progress (with_reducible apply mk_keeps) | with_reducible apply ite_keeps | ((with_reducible conv => arg 4; whnf); split) | (refine pair_keeps ?_ (by assumption)) | (refine triple_keeps ?_ (by assumption)) | (refine pair_keeps_fst ?_ (by assumption)) | (dsimp only; split) | intro _ _ _ _ | intro _ _ _ | intro _

theorem State.settled_keeps {s : State} (h : State.Keeps a b s0 s) : State.Keeps a b s0 (State.settled s) := by
  unfold State.settled
  repeat' first | with_reducible assumption | with_reducible exact State.Keeps.refl _ | with_reducible apply State.wr_keeps | with_reducible apply State.settleWire_keeps | with_reducible apply State.settleEngine_keeps | with_reducible apply foldl_keeps | with_reducible apply foldl_keeps_snd | with_reducible apply foldl_keeps_fst | with_reducible apply keeping_next | fail_if_no_progress (with_reducible apply mk_keeps) | with_reducible apply ite_keeps | ((with_reducible conv => arg 4; whnf); split) | (refine pair_keeps ?_ (by assumption)) | (refine triple_keeps ?_ (by assumption)) | (refine pair_keeps_fst ?_ (by assumption)) | (dsimp only; split) | intro _ _ _ _ | intro _ _ _ | intro _

theorem execBankReplace_keeps (x0 : Fin 2) (x1 : Fin 34) (s : State) : Keeping a b s (execBankReplace x0 x1 s) := by
  unfold execBankReplace
  repeat' first | with_reducible assumption | with_reducible exact State.Keeps.refl _ | with_reducible apply State.bankReplace_keeps | with_reducible apply State.event_keeps | with_reducible apply State.lagEvent_keeps | with_reducible apply foldl_keeps | with_reducible apply foldl_keeps_snd | with_reducible apply foldl_keeps_fst | with_reducible apply keeping_next | fail_if_no_progress (with_reducible apply mk_keeps) | with_reducible apply ite_keeps | ((with_reducible conv => arg 4; whnf); split) | (refine pair_keeps ?_ (by assumption)) | (refine triple_keeps ?_ (by assumption)) | (refine pair_keeps_fst ?_ (by assumption)) | (dsimp only; split) | intro _ _ _ _ | intro _ _ _ | intro _

theorem State.alphaEnd_keeps {s : State} {k : Nat} (h : State.Keeps a b s0 s) : State.Keeps a b s0 (State.alphaEnd s k) := by
  unfold State.alphaEnd
  repeat' first | with_reducible assumption | with_reducible exact State.Keeps.refl _ | with_reducible apply State.updPath_keeps | with_reducible apply State.wr_keeps | with_reducible apply State.wrB_keeps | with_reducible apply State.satAdd_keeps | with_reducible apply foldl_keeps | with_reducible apply foldl_keeps_snd | with_reducible apply foldl_keeps_fst | with_reducible apply keeping_next | fail_if_no_progress (with_reducible apply mk_keeps) | with_reducible apply ite_keeps | ((with_reducible conv => arg 4; whnf); split) | (refine pair_keeps ?_ (by assumption)) | (refine triple_keeps ?_ (by assumption)) | (refine pair_keeps_fst ?_ (by assumption)) | (dsimp only; split) | intro _ _ _ _ | intro _ _ _ | intro _

theorem State.ecnEnd_keeps {s : State} {k : Nat} (h : State.Keeps a b s0 s) : State.Keeps a b s0 (State.ecnEnd s k) := by
  unfold State.ecnEnd
  repeat' first | with_reducible assumption | with_reducible exact State.Keeps.refl _ | with_reducible apply State.ecnHeld_keeps | with_reducible apply State.wrB_keeps | with_reducible apply foldl_keeps | with_reducible apply foldl_keeps_snd | with_reducible apply foldl_keeps_fst | with_reducible apply keeping_next | fail_if_no_progress (with_reducible apply mk_keeps) | with_reducible apply ite_keeps | ((with_reducible conv => arg 4; whnf); split) | (refine pair_keeps ?_ (by assumption)) | (refine triple_keeps ?_ (by assumption)) | (refine pair_keeps_fst ?_ (by assumption)) | (dsimp only; split) | intro _ _ _ _ | intro _ _ _ | intro _

theorem execAlphaAdapt_keeps (k : Fin 9216) (s : State) : Keeping a b s (execAlphaAdapt k s) := by
  unfold execAlphaAdapt
  repeat' first | with_reducible assumption | with_reducible exact State.Keeps.refl _ | with_reducible apply State.ran_keeps | with_reducible apply State.alphaEnd_keeps | with_reducible apply State.ecnEnd_keeps | with_reducible apply foldl_keeps | with_reducible apply foldl_keeps_snd | with_reducible apply foldl_keeps_fst | with_reducible apply keeping_next | fail_if_no_progress (with_reducible apply mk_keeps) | with_reducible apply ite_keeps | ((with_reducible conv => arg 4; whnf); split) | (refine pair_keeps ?_ (by assumption)) | (refine triple_keeps ?_ (by assumption)) | (refine pair_keeps_fst ?_ (by assumption)) | (dsimp only; split) | intro _ _ _ _ | intro _ _ _ | intro _

theorem State.deepTidy_keeps {s : State} {q : Nat} (h : State.Keeps a b s0 s) : State.Keeps a b s0 (State.deepTidy s q) := by
  unfold State.deepTidy
  repeat' first | with_reducible assumption | with_reducible exact State.Keeps.refl _ | with_reducible apply State.setDeep_keeps | with_reducible apply State.bpmRelease_keeps | with_reducible apply foldl_keeps | with_reducible apply foldl_keeps_snd | with_reducible apply foldl_keeps_fst | with_reducible apply keeping_next | fail_if_no_progress (with_reducible apply mk_keeps) | with_reducible apply ite_keeps | ((with_reducible conv => arg 4; whnf); split) | (refine pair_keeps ?_ (by assumption)) | (refine triple_keeps ?_ (by assumption)) | (refine pair_keeps_fst ?_ (by assumption)) | (dsimp only; split) | intro _ _ _ _ | intro _ _ _ | intro _

theorem State.cellsGone_keeps {s : State} {q : Nat} {y : Nat × Nat} (h : State.Keeps a b s0 s) : State.Keeps a b s0 (State.cellsGone s q y) := by
  unfold State.cellsGone
  repeat' first | with_reducible assumption | with_reducible apply State.giveCells_keeps | with_reducible apply State.subFrom_keeps | ((with_reducible conv => arg 4; whnf); split)

theorem execDeepPageWritten_keeps (q : Fin 8192) (seq : Fin 65536) (s : State) : Keeping a false s (execDeepPageWritten q seq s) := by
  unfold execDeepPageWritten
  repeat' first | with_reducible assumption | with_reducible exact State.Keeps.refl _ | with_reducible apply State.cntGlobal_keeps | with_reducible apply State.putList_keeps | with_reducible apply State.storePage_keeps | with_reducible apply State.cellsGone_keeps | with_reducible apply State.setDeep_keeps | with_reducible apply foldl_keeps | with_reducible apply keeping_next | (dsimp only; split) | intro _

theorem execDeepModeLeave_keeps (q : Fin 8192) (s : State) : Keeping a b s (execDeepModeLeave q s) := by
  unfold execDeepModeLeave
  repeat' first | with_reducible assumption | with_reducible exact State.Keeps.refl _ | with_reducible apply State.bpmRelease_keeps | with_reducible apply State.setDeep_keeps | with_reducible apply State.subFrom_keeps | with_reducible apply State.wrB_keeps | with_reducible apply foldl_keeps | with_reducible apply keeping_next | (dsimp only; split) | intro _

theorem execDrainReadIssue_keeps (q : Fin 8192) (s : State) : Keeping a b s (execDrainReadIssue q s) := by
  unfold execDrainReadIssue
  repeat' first | with_reducible assumption | with_reducible exact State.Keeps.refl _ | with_reducible apply State.deepTidy_keeps | with_reducible apply State.closePage_keeps | with_reducible apply State.setDeep_keeps | with_reducible apply State.cntGlobal_keeps | with_reducible apply keeping_next | ((with_reducible conv => arg 4; whnf); split)

theorem State.backTo_keeps {s : State} {q : Nat} {id : Nat} {x3 : Nat} {n : Nat} (h : State.Keeps a b s0 s) : State.Keeps a b s0 (State.backTo s q id x3 n) := by
  unfold State.backTo
  repeat' first | with_reducible assumption | with_reducible apply State.spillUpdate_keeps | with_reducible apply State.subFrom_keeps | with_reducible apply State.charge_keeps | with_reducible apply State.takeCells_keeps | with_reducible apply State.setPkt_keeps | with_reducible apply State.cross_keeps | with_reducible apply State.pgTests_keeps | ((with_reducible conv => arg 4; whnf); split)

theorem State.cellsBack_keeps {s : State} {q : Nat} {id : Nat} {n : Nat} (h : State.Keeps a b s0 s) : State.Keeps a b s0 (State.cellsBack s q id n) := by
  unfold State.cellsBack
  repeat' first | with_reducible assumption | with_reducible apply State.wrapAdd_keeps | with_reducible apply State.backTo_keeps | (dsimp only; split)

theorem State.moveBack_keeps {s : State} {q : Nat} {id : Nat} (h : State.Keeps a b s0 s) : State.Keeps a b s0 (State.moveBack s q id) := by
  unfold State.moveBack
  repeat' first | with_reducible assumption | with_reducible apply State.refund_keeps | with_reducible apply State.freeCells_keeps | with_reducible apply State.backTo_keeps | with_reducible apply State.setPkt_keeps | ((with_reducible conv => arg 4; whnf); split)

theorem State.deepDrop_keeps {s : State} {q : Nat} {code : Nat} {id : Nat} (h : State.Keeps a b s0 s) : State.Keeps a b s0 (State.deepDrop s q code id) := by
  unfold State.deepDrop
  repeat' first | with_reducible assumption | with_reducible apply State.subFrom_keeps | with_reducible apply State.updPath_keeps | with_reducible apply State.satAdd_keeps | with_reducible apply State.queueStatus_keeps | with_reducible apply State.release_keeps | with_reducible apply State.drop_keeps | ((with_reducible conv => arg 4; whnf); split)

theorem State.deepDeliver_keeps {s : State} {q : Nat} {id : Nat} (h : State.Keeps a b s0 s) : State.Keeps a b s0 (State.deepDeliver s q id) := by
  unfold State.deepDeliver
  repeat' first | with_reducible assumption | with_reducible apply State.enqueue_keeps | with_reducible apply State.moveBack_keeps | with_reducible apply State.reroute_keeps | with_reducible apply State.deepDrop_keeps | ((with_reducible conv => arg 4; whnf); split)

theorem State.deepDeliverAll_keeps {s : State} {q : Nat} {x2 : List Page} (h : State.Keeps a b s0 s) : State.Keeps a b s0 (State.deepDeliverAll s q x2) := by
  induction x2 generalizing s q
  all_goals unfold State.deepDeliverAll
  all_goals repeat' first | with_reducible assumption | with_reducible apply State.setDeep_keeps | with_reducible apply State.deepDeliver_keeps | with_reducible apply foldl_keeps | ((with_reducible conv => arg 4; whnf); split) | intro _ | with_reducible apply_assumption

theorem State.listLost_keeps {s : State} {q : Nat} (h : State.Keeps a b s0 s) : State.Keeps a b s0 (State.listLost s q) := by
  unfold State.listLost
  repeat' first | with_reducible assumption | with_reducible apply State.deepDrop_keeps | with_reducible apply State.satAdd_keeps | with_reducible apply State.setDeep_keeps | with_reducible apply State.event_keeps | with_reducible apply State.raise_keeps | with_reducible apply foldl_keeps | intro _

theorem execDrainPageLand_keeps (q : Fin 8192) (seq : Fin 65536) (err : Fin 3) (s : State) : Keeping a b s (execDrainPageLand q seq err s) := by
  unfold execDrainPageLand
  repeat' first | with_reducible assumption | with_reducible exact State.Keeps.refl _ | with_reducible apply State.listLost_keeps | with_reducible apply State.deepDrop_keeps | with_reducible apply State.event_keeps | with_reducible apply State.cellsBack_keeps | with_reducible apply State.setDeep_keeps | with_reducible apply State.bpmRelease_keeps | with_reducible apply State.deepDeliverAll_keeps | with_reducible apply State.gatherAll_keeps | with_reducible apply State.deepTidy_keeps | with_reducible apply foldl_keeps | with_reducible apply keeping_next | ((with_reducible conv => arg 4; whnf); split) | intro _

theorem execBpmCacheRefill_keeps (d : Fin 2) (k : Fin 4) (part : Fin 2) (s : State) : Keeping a b s (execBpmCacheRefill d k part s) := by
  unfold execBpmCacheRefill
  repeat' first | with_reducible assumption | with_reducible exact State.Keeps.refl _ | with_reducible apply State.cacheFill_keeps | with_reducible apply keeping_next | ((with_reducible conv => arg 4; whnf); split)

theorem execBpmCacheReturn_keeps (d : Fin 2) (k : Fin 4) (part : Fin 2) (s : State) : Keeping a b s (execBpmCacheReturn d k part s) := by
  unfold execBpmCacheReturn
  repeat' first | with_reducible assumption | with_reducible exact State.Keeps.refl _ | with_reducible apply State.cacheDrain_keeps | with_reducible apply keeping_next | ((with_reducible conv => arg 4; whnf); split)

theorem State.tapHeld_keeps {s : State} {l : Nat} {x2 : Nat} (h : State.Keeps a b s0 s) : State.Keeps a b s0 (State.tapHeld s l x2) := by
  unfold State.tapHeld
  repeat' first | with_reducible assumption | with_reducible apply State.satAdd_keeps | with_reducible apply State.wrB_keeps

theorem State.pinStatus_keeps {s : State} {l : Nat} (h : State.Keeps a b s0 s) : State.Keeps a b s0 (State.pinStatus s l) := by
  unfold State.pinStatus
  repeat' first | with_reducible assumption | with_reducible apply State.wrB_keeps

theorem State.setTap_keeps {s : State} {l : Nat} {x2 : Nat} {v : ℤ} (h : State.Keeps a b s0 s) : State.Keeps a b s0 (State.setTap s l x2 v) := by
  unfold State.setTap
  repeat' first | with_reducible assumption | with_reducible apply State.wr_keeps | ((with_reducible conv => arg 4; whnf); split)

theorem State.requestTaps_keeps {s : State} {l : Nat} {c : List ℤ} (h : State.Keeps a b s0 s) : State.Keeps a b s0 (State.requestTaps s l c).2 := by
  unfold State.requestTaps
  repeat' first | with_reducible assumption | with_reducible apply State.loadTaps_keeps | with_reducible apply State.wrB_keeps | with_reducible apply State.pinStatus_keeps | with_reducible apply State.tapHeld_keeps | with_reducible apply foldl_keeps | intro _

theorem State.requestStep_keeps {s : State} {l : Nat} {x2 : Nat} {up : Bool} (h : State.Keeps a b s0 s) : State.Keeps a b s0 (State.requestStep s l x2 up).2 := by
  unfold State.requestStep
  repeat' first | with_reducible assumption | with_reducible apply State.tapHeld_keeps | with_reducible apply State.pinStatus_keeps | with_reducible apply State.wrB_keeps | with_reducible apply State.setTap_keeps | ((with_reducible conv => arg 4; whnf); split) | (dsimp only; split)

theorem State.dataStart_keeps {s : State} {p : Nat} (h : State.Keeps a b s0 s) : State.Keeps a b s0 (State.dataStart s p) := by
  unfold State.dataStart
  repeat' first | with_reducible assumption | with_reducible apply State.updPort_keeps

theorem State.dataCheck_keeps {s : State} {l : Nat} (h : State.Keeps a b s0 s) : State.Keeps a b s0 (State.dataCheck s l) := by
  unfold State.dataCheck
  repeat' first | with_reducible assumption | with_reducible apply State.dataStart_keeps | ((with_reducible conv => arg 4; whnf); split)

theorem State.answerRequest_keeps {s : State} {l : Nat} {control : Nat} (h : State.Keeps a b s0 s) : State.Keeps a b s0 (State.answerRequest s l control).2 := by
  unfold State.answerRequest
  repeat' first | with_reducible assumption | with_reducible apply State.requestTaps_keeps | with_reducible apply State.requestStep_keeps | ((with_reducible conv => arg 4; whnf); split) | (dsimp only; split)

theorem State.trainFrame_keeps {s : State} {l : Nat} {control : Nat} {status : Nat} (h : State.Keeps a b s0 s) : State.Keeps a b s0 (State.trainFrame s l control status) := by
  unfold State.trainFrame
  repeat' first | with_reducible assumption | with_reducible apply State.answerRequest_keeps | with_reducible apply State.updLane_keeps | with_reducible apply State.wr_keeps | with_reducible apply State.dataCheck_keeps | with_reducible apply State.emit_keeps | with_reducible apply ite_keeps | ((with_reducible conv => arg 4; whnf); split) | intro _

end Sys2Proof.Machine
end

