-- ==== Sys2Proof/Laws/Keeps5.lean ====
section
/-! SUPPORT. What the machine's functions keep, one lemma for each. -/

set_option linter.all false
set_option Elab.async false

namespace Sys2Proof.Machine

variable {a b : Bool} {s0 : State}

theorem State.trainEthernet_keeps {s : State} {l : Nat} {q : Sys2Proof.TrainReq} (h : State.Keeps a b s0 s) : State.Keeps a b s0 (State.trainEthernet s l q) := by
  unfold State.trainEthernet
  repeat' first | with_reducible assumption | with_reducible apply State.requestStep_keeps | with_reducible apply State.requestTaps_keeps | with_reducible apply State.updLane_keeps | with_reducible apply State.emit_keeps | ((with_reducible conv => arg 4; whnf); split)

theorem State.adaptWr_keeps {s : State} {l : Nat} {val : Fld} {ab : Fld} {r : ℤ × Option Bool} (h : State.Keeps a b s0 s) : State.Keeps a b s0 (State.adaptWr s l val ab r) := by
  unfold State.adaptWr
  repeat' first | with_reducible assumption | with_reducible apply State.wr_keeps | with_reducible apply State.wrB_keeps | with_reducible apply State.satAdd_keeps | (dsimp only; split)

theorem State.adapt_keeps {s : State} {l : Nat} {ctle : ℤ} {ffe : List ℤ} (h : State.Keeps a b s0 s) : State.Keeps a b s0 (State.adapt s l ctle ffe) := by
  unfold State.adapt
  repeat' first | with_reducible assumption | with_reducible apply State.adaptWr_keeps | with_reducible apply State.setTap_keeps | with_reducible apply State.pinStatus_keeps | with_reducible apply foldl_keeps | (dsimp only; split) | intro _

theorem State.lmosAnswer_keeps {s : State} {p : Nat} {l : Nat} {req : Nat} {tag : Nat} {code : Nat} {logical : Nat} {arg : Nat} (h : State.Keeps a b s0 s) : State.Keeps a b s0 (State.lmosAnswer s p l req tag code logical arg) := by
  unfold State.lmosAnswer
  repeat' first | with_reducible assumption | with_reducible apply State.updPort_keeps | with_reducible apply State.lmosSend_keeps

theorem State.lmosAgain_keeps {s : State} {x1 : LmosAns} (h : State.Keeps a b s0 s) : State.Keeps a b s0 (State.lmosAgain s x1) := by
  unfold State.lmosAgain
  repeat' first | with_reducible assumption | with_reducible apply State.lmosSend_keeps

theorem State.swapAnswer_keeps {s : State} {p : Nat} {k : Nat} {tag : Nat} {byCmd : Bool} (h : State.Keeps a b s0 s) : State.Keeps a b s0 (State.swapAnswer s p k tag byCmd) := by
  unfold State.swapAnswer
  repeat' first | with_reducible assumption | with_reducible apply State.updPort_keeps | with_reducible apply State.setSwap_keeps | with_reducible apply State.mapRecord_keeps | with_reducible apply State.wr_keeps | with_reducible apply State.lmosAnswer_keeps | with_reducible apply State.setMirror_keeps | (dsimp only; split)

theorem State.secondRequest_keeps {s : State} {p : Nat} (h : State.Keeps a b s0 s) : State.Keeps a b s0 (State.secondRequest s p) := by
  unfold State.secondRequest
  repeat' first | with_reducible assumption | with_reducible apply State.updPort_keeps | with_reducible apply State.event_keeps | with_reducible apply State.swapStart_keeps | ((with_reducible conv => arg 4; whnf); split)

theorem State.swapUndo_keeps {s : State} {p : Nat} {x : Swap} (h : State.Keeps a b s0 s) : State.Keeps a b s0 (State.swapUndo s p x) := by
  unfold State.swapUndo
  repeat' first | with_reducible assumption | with_reducible apply State.updPort_keeps | with_reducible apply State.laneEnter_keeps | with_reducible apply State.wr_keeps | with_reducible apply State.subFrom_keeps | with_reducible apply State.satAdd_keeps | with_reducible apply State.mapRecord_keeps | with_reducible apply State.spareReady_keeps | with_reducible apply State.raise_keeps | fail_if_no_progress (with_reducible apply mk_keeps) | ((with_reducible conv => arg 4; whnf); split)

theorem State.swapFinish_keeps {s : State} {p : Nat} {x : Swap} (h : State.Keeps a b s0 s) : State.Keeps a b s0 (State.swapFinish s p x) := by
  unfold State.swapFinish
  repeat' first | with_reducible assumption | with_reducible apply State.setSwap_keeps | with_reducible apply State.setMirror_keeps | with_reducible apply State.laneEnter_keeps | with_reducible apply State.wr_keeps | with_reducible apply State.satAdd_keeps | with_reducible apply State.raise_keeps | with_reducible apply State.spareConsumed_keeps | with_reducible apply State.finishHold_keeps | with_reducible apply State.spareReady_keeps | with_reducible apply State.secondRequest_keeps | with_reducible apply State.updPort_keeps | fail_if_no_progress (with_reducible apply mk_keeps) | ((with_reducible conv => arg 4; whnf); split)

theorem State.swapCheck_keeps {s : State} {p : Nat} (h : State.Keeps a b s0 s) : State.Keeps a b s0 (State.swapCheck s p) := by
  unfold State.swapCheck
  repeat' first | with_reducible assumption | with_reducible apply State.swapFinish_keeps | ((with_reducible conv => arg 4; whnf); split)

theorem State.signalSeen_keeps {s : State} {l : Nat} (h : State.Keeps a b s0 s) : State.Keeps a b s0 (State.signalSeen s l) := by
  unfold State.signalSeen
  repeat' first | with_reducible assumption | with_reducible apply State.wrB_keeps

theorem execTrainingFrameReceive_keeps (l : Fin 544) (x : Sys2Proof.TrainIn) (s : State) : Keeping a b s (execTrainingFrameReceive l x s) := by
  unfold execTrainingFrameReceive
  repeat' first | with_reducible assumption | with_reducible exact State.Keeps.refl _ | with_reducible apply State.updLane_keeps | with_reducible apply State.trainFrame_keeps | with_reducible apply State.signalSeen_keeps | with_reducible apply State.trainEthernet_keeps | with_reducible apply keeping_next | ((with_reducible conv => arg 4; whnf); split)

theorem execTrainingTimeout_keeps (l : Fin 544) (s : State) : Keeping a b s (execTrainingTimeout l s) := by
  unfold execTrainingTimeout
  refine keeping_next (ite_keeps (fun _ => ?_) (fun _ => State.Keeps.refl s))
  dsimp only
  split
  · exact ite_keeps (fun _ => State.advertise_keeps (State.laneTrain_keeps (State.satAdd_keeps (State.Keeps.refl s))))
      (fun _ => State.laneTrain_keeps (State.satAdd_keeps (State.Keeps.refl s)))
  · exact State.laneTrain_keeps (State.satAdd_keeps (State.Keeps.refl s))

theorem State.trackOffset_keeps {s : State} {l : Nat} {offset : BitVec 16} (h : State.Keeps a b s0 s) : State.Keeps a b s0 (State.trackOffset s l offset) := by
  unfold State.trackOffset
  repeat' first | with_reducible assumption | with_reducible apply State.wr_keeps | ((with_reducible conv => arg 4; whnf); split)

theorem execAdaptUpdate_keeps (l : Fin 544) (ctle : ℤ) (ffe : List ℤ) (settled : Bool) (req : Option (Fin 6 × Bool)) (offset : BitVec 16) (s : State) : Keeping a b s (execAdaptUpdate l ctle ffe settled req offset s) := by
  unfold execAdaptUpdate
  repeat' first | with_reducible assumption | with_reducible exact State.Keeps.refl _ | with_reducible apply State.trackOffset_keeps | with_reducible apply State.adapt_keeps | with_reducible apply State.updLane_keeps | with_reducible apply State.wr_keeps | with_reducible apply keeping_next | ((with_reducible conv => arg 4; whnf); split)

theorem execBlockLockAcquire_keeps (l : Fin 544) (offset : BitVec 16) (pos : Fin 66) (heads : List (BitVec 2)) (s : State) : Keeping a b s (execBlockLockAcquire l offset pos heads s) := by
  unfold execBlockLockAcquire
  repeat' first | with_reducible assumption | with_reducible exact State.Keeps.refl _ | with_reducible apply State.trackOffset_keeps | with_reducible apply State.signalSeen_keeps | with_reducible apply State.satAdd_keeps | with_reducible apply State.wr_keeps | with_reducible apply State.spareReady_keeps | with_reducible apply State.laneEnter_keeps | with_reducible apply keeping_next | ((with_reducible conv => arg 4; whnf); split)

theorem execLossOfLock_keeps (l : Fin 544) (heads : List (BitVec 2)) (words : List Sys2Proof.LineErr) (signal : Bool) (cdr : Bool) (s : State) : Keeping a b s (execLossOfLock l heads words signal cdr s) := by
  unfold execLossOfLock
  repeat' first | with_reducible assumption | with_reducible exact State.Keeps.refl _ | with_reducible apply State.wrB_keeps | with_reducible apply State.satAdd_keeps | with_reducible apply State.lockLost_keeps | with_reducible apply keeping_next | (dsimp only; split)

theorem State.enterIdle_keeps {s : State} {p : Nat} (h : State.Keeps a b s0 s) : State.Keeps a b s0 (State.enterIdle s p) := by
  unfold State.enterIdle
  repeat' first | with_reducible assumption | with_reducible apply State.updLane_keeps | with_reducible apply State.laneEnter_keeps | with_reducible apply State.pfcUpdate_keeps | with_reducible apply State.lmosAnswered_keeps | with_reducible apply State.updPort_keeps | with_reducible apply State.portEnter_keeps | with_reducible apply foldl_keeps | ((with_reducible conv => arg 4; whnf); split) | intro _

theorem execPortIdleEntry_keeps (p : Fin 512) (s : State) : Keeping a b s (execPortIdleEntry p s) := by
  unfold execPortIdleEntry
  repeat' first | with_reducible assumption | with_reducible exact State.Keeps.refl _ | with_reducible apply State.fresh_keeps | with_reducible apply State.lmosSend_keeps | with_reducible apply State.updPort_keeps | with_reducible apply keeping_next | (dsimp only; split)

theorem execIdleReqReceive_keeps (p : Fin 512) (block : BitVec 66) (s : State) : Keeping a b s (execIdleReqReceive p block s) := by
  unfold execIdleReqReceive
  repeat' first | with_reducible assumption | with_reducible exact State.Keeps.refl _ | with_reducible apply State.lmosAgain_keeps | with_reducible apply State.lmosAnswer_keeps | with_reducible apply State.enterIdle_keeps | with_reducible apply keeping_next | ((with_reducible conv => arg 4; whnf); split)

theorem execIdleAckReceive_keeps (p : Fin 512) (block : BitVec 66) (s : State) : Keeping a b s (execIdleAckReceive p block s) := by
  unfold execIdleAckReceive
  repeat' first | with_reducible assumption | with_reducible exact State.Keeps.refl _ | with_reducible apply State.enterIdle_keeps | with_reducible apply keeping_next | ((with_reducible conv => arg 4; whnf); split)

theorem execIdleNakReceive_keeps (p : Fin 512) (block : BitVec 66) (s : State) : Keeping a b s (execIdleNakReceive p block s) := by
  unfold execIdleNakReceive
  repeat' first | with_reducible assumption | with_reducible exact State.Keeps.refl _ | with_reducible apply State.lmosAnswered_keeps | with_reducible apply State.updPort_keeps | with_reducible apply keeping_next | ((with_reducible conv => arg 4; whnf); split)

theorem execWakeBurstDetect_keeps (p : Fin 512) (s : State) : Keeping a b s (execWakeBurstDetect p s) := by
  unfold execWakeBurstDetect
  repeat' first | with_reducible assumption | with_reducible exact State.Keeps.refl _ | with_reducible apply State.portWake_keeps | with_reducible apply keeping_next

theorem execWakeComplete_keeps (p : Fin 512) (tempOk : Bool) (s : State) : Keeping a b s (execWakeComplete p tempOk s) := by
  unfold execWakeComplete
  repeat' first | with_reducible assumption | with_reducible exact State.Keeps.refl _ | with_reducible apply State.updPort_keeps | with_reducible apply State.portEnter_keeps | with_reducible apply State.laneEnter_keeps | with_reducible apply State.pfcUpdate_keeps | with_reducible apply State.dataStart_keeps | with_reducible apply State.partnerInvalid_keeps | with_reducible apply State.laneTrain_keeps | with_reducible apply foldl_keeps | with_reducible apply keeping_next | ((with_reducible conv => arg 4; whnf); split) | intro _

theorem execSwapReqReceive_keeps (p : Fin 512) (block : BitVec 66) (byCmd : Bool) (s : State) : Keeping a b s (execSwapReqReceive p block byCmd s) := by
  unfold execSwapReqReceive
  repeat' first | with_reducible assumption | with_reducible exact State.Keeps.refl _ | with_reducible apply State.lmosAnswer_keeps | with_reducible apply State.lmosAgain_keeps | with_reducible apply State.lmosAnswered_keeps | with_reducible apply State.setSwap_keeps | with_reducible apply State.swapAnswer_keeps | with_reducible apply State.swapEnd_keeps | with_reducible apply keeping_next | ((with_reducible conv => arg 4; whnf); split)

theorem execSwapAckReceive_keeps (p : Fin 512) (block : BitVec 66) (s : State) : Keeping a b s (execSwapAckReceive p block s) := by
  unfold execSwapAckReceive
  repeat' first | with_reducible assumption | with_reducible exact State.Keeps.refl _ | with_reducible apply State.lmosAnswered_keeps | with_reducible apply State.setSwap_keeps | with_reducible apply keeping_next | ((with_reducible conv => arg 4; whnf); split)

theorem execSwapNakReceive_keeps (p : Fin 512) (block : BitVec 66) (s : State) : Keeping a b s (execSwapNakReceive p block s) := by
  unfold execSwapNakReceive
  repeat' first | with_reducible assumption | with_reducible exact State.Keeps.refl _ | with_reducible apply State.swapEnd_keeps | with_reducible apply keeping_next | ((with_reducible conv => arg 4; whnf); split)

theorem execSwapAligned_keeps (p : Fin 512) (run : Nat) (skew : ℤ) (s : State) : Keeping a b s (execSwapAligned p run skew s) := by
  unfold execSwapAligned
  repeat' first | with_reducible assumption | with_reducible exact State.Keeps.refl _ | with_reducible apply State.lmosSend_keeps | with_reducible apply State.updPort_keeps | with_reducible apply State.swapCheck_keeps | with_reducible apply State.setSwap_keeps | with_reducible apply keeping_next | ((with_reducible conv => arg 4; whnf); split)

theorem execSwapDoneReceive_keeps (p : Fin 512) (block : BitVec 66) (s : State) : Keeping a b s (execSwapDoneReceive p block s) := by
  unfold execSwapDoneReceive
  repeat' first | with_reducible assumption | with_reducible exact State.Keeps.refl _ | with_reducible apply State.swapCheck_keeps | with_reducible apply State.setSwap_keeps | with_reducible apply keeping_next | ((with_reducible conv => arg 4; whnf); split)

theorem execSwapAbortReceive_keeps (p : Fin 512) (block : BitVec 66) (s : State) : Keeping a b s (execSwapAbortReceive p block s) := by
  unfold execSwapAbortReceive
  repeat' first | with_reducible assumption | with_reducible exact State.Keeps.refl _ | with_reducible apply State.swapAbort_keeps | with_reducible apply State.swapUndo_keeps | with_reducible apply keeping_next | ((with_reducible conv => arg 4; whnf); split)

theorem execSwapTimeout_keeps (p : Fin 512) (s : State) : Keeping a b s (execSwapTimeout p s) := by
  unfold execSwapTimeout
  repeat' first | with_reducible assumption | with_reducible exact State.Keeps.refl _ | with_reducible apply State.swapAbort_keeps | with_reducible apply keeping_next | ((with_reducible conv => arg 4; whnf); split)

theorem execLmosRepeat_keeps (l : Fin 544) (s : State) : Keeping a b s (execLmosRepeat l s) := by
  unfold execLmosRepeat
  repeat' first | with_reducible assumption | with_reducible exact State.Keeps.refl _ | with_reducible apply State.lmosSend_keeps | with_reducible apply keeping_next | ((with_reducible conv => arg 4; whnf); split)

theorem State.ppsFall_keeps {s : State} (h : State.Keeps a b s0 s) : State.Keeps a b s0 (State.ppsFall s) := by
  unfold State.ppsFall
  repeat' first | with_reducible assumption | with_reducible apply State.emit_keeps | with_reducible apply State.ran_keeps | ((with_reducible conv => arg 4; whnf); split)

theorem State.ticks_keeps {s : State} {n : Nat} (h : State.Keeps a b s0 s) : State.Keeps a b s0 (State.ticks s n) := by
  unfold State.ticks
  repeat' first | with_reducible assumption | with_reducible apply State.wrapAdd_keeps | fail_if_no_progress (with_reducible apply mk_keeps) | (dsimp only; split)

theorem State.dumpEdge_keeps {s : State} {src1 : Bool} (h : State.Keeps a b s0 s) : State.Keeps a b s0 (State.dumpEdge s src1) := by
  unfold State.dumpEdge
  repeat' first | with_reducible assumption | with_reducible apply State.wr_keeps | with_reducible apply State.satAdd_keeps | with_reducible apply State.raise_keeps | with_reducible apply State.wrB_keeps | fail_if_no_progress (with_reducible apply mk_keeps) | ((with_reducible conv => arg 4; whnf); split)

theorem State.takeSnap_keeps {s : State} {sources : Nat} {logSeq : Nat} (h : State.Keeps a b s0 s) : State.Keeps a b s0 (State.takeSnap s sources logSeq) := by
  unfold State.takeSnap
  repeat' first | with_reducible assumption | with_reducible apply State.wr_keeps | with_reducible apply State.wrB_keeps | fail_if_no_progress (with_reducible apply mk_keeps) | (dsimp only; split)

theorem State.tmLatch_keeps {s : State} {x1 : TmEdge} (h : State.Keeps a b s0 s) : State.Keeps a b s0 (State.tmLatch s x1) := by
  unfold State.tmLatch
  repeat' first | with_reducible assumption | with_reducible apply State.emit_keeps | with_reducible apply State.dumpEdge_keeps | with_reducible apply State.takeSnap_keeps | fail_if_no_progress (with_reducible apply mk_keeps) | ((with_reducible conv => arg 4; whnf); split)

theorem State.tmTicks_keeps {s : State} {n : Nat} (h : State.Keeps a b s0 s) : State.Keeps a b s0 (State.tmTicks s n) := by
  unfold State.tmTicks
  repeat' first | with_reducible assumption | with_reducible apply State.ticks_keeps | with_reducible apply State.tmLatch_keeps | ((with_reducible conv => arg 4; whnf); split)

theorem State.tmFall_keeps {s : State} (h : State.Keeps a b s0 s) : State.Keeps a b s0 (State.tmFall s) := by
  unfold State.tmFall
  repeat' first | with_reducible assumption | with_reducible apply State.emit_keeps | fail_if_no_progress (with_reducible apply mk_keeps) | (dsimp only; split)

theorem execTimeTick_keeps (n : Nat) (s : State) : Keeping a b s (execTimeTick n s) := by
  unfold execTimeTick
  repeat' first | with_reducible assumption | with_reducible exact State.Keeps.refl _ | with_reducible apply State.tmFall_keeps | with_reducible apply State.ppsFall_keeps | with_reducible apply State.cntGlobal_keeps | with_reducible apply State.tmTicks_keeps | with_reducible apply keeping_next

theorem State.lightReq_keeps {s : State} {q : Requester} {d : Nat} {req : Nat} (h : State.Keeps a b s0 s) : State.Keeps a b s0 (State.lightReq s q d req) := by
  unfold State.lightReq
  repeat' first | with_reducible assumption | with_reducible apply State.applyReq_keeps | with_reducible apply State.locked_keeps | ((with_reducible conv => arg 4; whnf); split)

theorem execLightReqAcquire_keeps (q : Requester) (d : Fin 2) (s : State) : Keeping a b s (execLightReqAcquire q d s) := by
  unfold execLightReqAcquire
  repeat' first | with_reducible assumption | with_reducible exact State.Keeps.refl _ | with_reducible apply State.lightReq_keeps | with_reducible apply keeping_next | ((with_reducible conv => arg 4; whnf); split)

theorem execLightReqLocked_keeps (q : Requester) (d : Fin 2) (s : State) : Keeping a b s (execLightReqLocked q d s) := by
  unfold execLightReqLocked
  repeat' first | with_reducible assumption | with_reducible exact State.Keeps.refl _ | with_reducible apply State.lightReq_keeps | with_reducible apply keeping_next | ((with_reducible conv => arg 4; whnf); split)

theorem execLightReqFree_keeps (q : Requester) (d : Fin 2) (s : State) : Keeping a b s (execLightReqFree q d s) := by
  unfold execLightReqFree
  repeat' first | with_reducible assumption | with_reducible exact State.Keeps.refl _ | with_reducible apply State.lightReq_keeps | with_reducible apply keeping_next | ((with_reducible conv => arg 4; whnf); split)

theorem State.loseMaster_keeps {s : State} {d : Nat} (h : State.Keeps a b s0 s) : State.Keeps a b s0 (State.loseMaster s d) := by
  unfold State.loseMaster
  repeat' first | with_reducible assumption | with_reducible apply State.lightEnter_keeps | with_reducible apply State.raise_keeps | with_reducible apply State.wrB_keeps | (dsimp only; split)

theorem execWatchdogExpire_keeps (d : Fin 2) (s : State) : Keeping a b s (execWatchdogExpire d s) := by
  unfold execWatchdogExpire
  repeat' first | with_reducible assumption | with_reducible exact State.Keeps.refl _ | with_reducible apply State.loseMaster_keeps | with_reducible apply keeping_next | ((with_reducible conv => arg 4; whnf); split)

theorem execPpsInEdge_keeps (sub : Fin 16) (s : State) : Keeping a b s (execPpsInEdge sub s) := by
  unfold execPpsInEdge
  repeat' first | with_reducible assumption | with_reducible exact State.Keeps.refl _ | with_reducible apply State.wr_keeps | with_reducible apply State.wrB_keeps | with_reducible apply State.raise_keeps | with_reducible apply keeping_next | fail_if_no_progress (with_reducible apply mk_keeps) | ((with_reducible conv => arg 4; whnf); split)

theorem execPpsInMiss_keeps (d : Fin 2) (s : State) : Keeping a b s (execPpsInMiss d s) := by
  unfold execPpsInMiss
  repeat' first | with_reducible assumption | with_reducible exact State.Keeps.refl _ | with_reducible apply State.loseMaster_keeps | with_reducible apply keeping_next | ((with_reducible conv => arg 4; whnf); split)

theorem execPpsOutEdge_keeps (s : State) : Keeping a b s (execPpsOutEdge s) := by
  unfold execPpsOutEdge
  repeat' first | with_reducible assumption | with_reducible exact State.Keeps.refl _ | with_reducible apply State.emit_keeps | with_reducible apply State.ran_keeps | with_reducible apply keeping_next | ((with_reducible conv => arg 4; whnf); split)

theorem execTenMhzPhase_keeps (phase : Fin 2560) (s : State) : Keeping a b s (execTenMhzPhase phase s) := by
  unfold execTenMhzPhase
  repeat' first | with_reducible assumption | with_reducible exact State.Keeps.refl _ | with_reducible apply State.wrB_keeps | with_reducible apply State.wr_keeps | with_reducible apply keeping_next | ((with_reducible conv => arg 4; whnf); split)

theorem execTsfPop_keeps (q : Requester) (i : Fin 16) (s : State) : Keeping a b s (execTsfPop q i s) := by
  unfold execTsfPop
  repeat' first | with_reducible assumption | with_reducible exact State.Keeps.refl _ | with_reducible apply State.emit_keeps | with_reducible apply State.tsfPop_keeps | with_reducible apply keeping_next | ((with_reducible conv => arg 4; whnf); split)

theorem execTimeCompareFire_keeps (s : State) : Keeping a b s (execTimeCompareFire s) := by
  unfold execTimeCompareFire
  repeat' first | with_reducible assumption | with_reducible exact State.Keeps.refl _ | with_reducible apply State.wrB_keeps | with_reducible apply State.tidemark_keeps | with_reducible apply State.raise_keeps | with_reducible apply keeping_next | fail_if_no_progress (with_reducible apply mk_keeps) | (dsimp only; split)

theorem State.consumed_keeps {s0 s : State} {p : Nat} {frame : Bytes} {cls : Option Nat} {f : State → State}
    (h : State.Keeps a b s0 s) (hf : State.Keeps a b s0 s → State.Keeps a b s0 (f s)) : State.Keeps a b s0 (s.consumed p frame cls f) :=
  ite_keeps (fun _ => State.countClass_keeps h) (fun _ => hf h)

theorem State.pauseSet_keeps {s : State} {p : Nat} {g : Nat} {q : Nat} (h : State.Keeps a b s0 s) : State.Keeps a b s0 (State.pauseSet s p g q) := by
  unfold State.pauseSet
  repeat' first | with_reducible assumption | with_reducible apply State.pauseRelease_keeps | with_reducible apply State.pauseUpdate_keeps | with_reducible apply State.wr_keeps | fail_if_no_progress (with_reducible apply mk_keeps) | (dsimp only; split)

theorem State.macControl_keeps {s : State} {p : Nat} {frame : Sys2Proof.Bytes} {cls : Option Nat} (h : State.Keeps a b s0 s) : State.Keeps a b s0 (State.macControl s p frame cls) := by
  unfold State.macControl
  repeat' first | with_reducible assumption | with_reducible apply State.updPort_keeps | with_reducible apply State.mibRxBad_keeps | with_reducible apply State.countClass_keeps | with_reducible apply State.mibRxControl_keeps | with_reducible apply State.pauseSet_keeps | with_reducible apply foldl_keeps | ((with_reducible conv => arg 4; whnf); split) | intro _

theorem State.fillPartner_keeps {s : State} {p : Nat} {pl : Sys2Proof.Bytes} (h : State.Keeps a b s0 s) : State.Keeps a b s0 (State.fillPartner s p pl) := by
  unfold State.fillPartner
  repeat' first | with_reducible assumption | with_reducible apply State.wr_keeps | with_reducible apply foldl_keeps | intro _

theorem State.helloRx_keeps {s : State} {p : Nat} {frame : Sys2Proof.Bytes} {cls : Option Nat} (h : State.Keeps a b s0 s) : State.Keeps a b s0 (State.helloRx s p frame cls) := by
  unfold State.helloRx
  repeat' first | with_reducible assumption | with_reducible apply State.countClass_keeps | with_reducible apply State.mibRxGood_keeps | with_reducible apply State.satAdd_keeps | with_reducible apply State.fillPartner_keeps | with_reducible apply State.wrB_keeps | with_reducible apply State.wr_keeps | with_reducible apply State.updPort_keeps | with_reducible apply State.partnerChanged_keeps | with_reducible apply State.spareReady_keeps | ((with_reducible conv => arg 4; whnf); split)

theorem State.takeFrame_keeps {s : State} {r : RxFrame} {sub : Nat} (h : State.Keeps a b s0 s) : State.Keeps a b s0 (State.takeFrame s r sub) := by
  unfold State.takeFrame
  repeat' first | with_reducible assumption | with_reducible apply State.drop_keeps | with_reducible apply State.parse_keeps | with_reducible apply State.scan_keeps | with_reducible apply State.cntIsland_keeps | with_reducible apply State.flushSamples_keeps | with_reducible apply State.parsed_keeps | (dsimp only; split)

theorem State.macFrame_keeps {s : State} {p : Nat} {x : RxPart} {sub : Nat} (h : State.Keeps a b s0 s) : State.Keeps a b s0 (State.macFrame s p x sub) := by
  unfold State.macFrame
  repeat' first | with_reducible assumption | with_reducible apply State.consumed_keeps | with_reducible apply State.macControl_keeps | with_reducible apply State.helloRx_keeps | with_reducible apply State.ferryArrive_keeps | with_reducible apply State.countClass_keeps | with_reducible apply State.mibRxGood_keeps | with_reducible apply State.raise_keeps | with_reducible apply State.mib_keeps | with_reducible apply State.satAdd_keeps | with_reducible apply State.takeFrame_keeps | ((with_reducible conv => arg 4; whnf); split)

theorem State.symbolsFixed_keeps {s : State} {p : Nat} {l : Nat} {n : Nat} (h : State.Keeps a b s0 s) : State.Keeps a b s0 (State.symbolsFixed s p l n) := by
  unfold State.symbolsFixed
  repeat' first | with_reducible assumption | with_reducible apply State.cntIsland_keeps

theorem State.readCodeword_keeps {s : State} {p : Nat} {k : Nat} {l : List (Nat × Nat)} (h : State.Keeps a b s0 s) : State.Keeps a b s0 (State.readCodeword s p k l) := by
  unfold State.readCodeword
  repeat' first | with_reducible assumption | with_reducible apply State.satAdd_keeps | with_reducible apply State.updPort_keeps | with_reducible apply State.symbolsFixed_keeps | with_reducible apply State.updLane_keeps | (dsimp only; split)

theorem State.collectBlocks_keeps {s : State} {p : Nat} {x2 : Nat} (h : State.Keeps a b s0 s) : State.Keeps a b s0 (State.collectBlocks s p x2) := by
  induction x2 generalizing s p
  all_goals unfold State.collectBlocks
  all_goals repeat' first | with_reducible assumption | with_reducible apply State.updPort_keeps | (dsimp only; split) | with_reducible apply_assumption

theorem State.readPairs_keeps {s : State} {p : Nat} {lanes : List (List (Nat × Nat))} (h : State.Keeps a b s0 s) : State.Keeps a b s0 (State.readPairs s p lanes).2 := by
  unfold State.readPairs
  repeat' first | with_reducible assumption | with_reducible apply State.readCodeword_keeps | with_reducible apply State.collectBlocks_keeps | with_reducible apply State.updPort_keeps | with_reducible apply foldl_keeps | intro _

theorem State.readFrame_keeps {s : State} {p : Nat} {rx : Sys2Proof.Reception} (h : State.Keeps a b s0 s) : State.Keeps a b s0 (State.readFrame s p rx).2 := by
  unfold State.readFrame
  repeat' first | with_reducible assumption | with_reducible apply State.readPairs_keeps | ((with_reducible conv => arg 4; whnf); split)

theorem execFrameReceive_keeps (p : Fin 512) (rx : Sys2Proof.Reception) (sub : Fin 16) (s : State) : Keeping a b s (execFrameReceive p rx sub s) := by
  unfold execFrameReceive
  repeat' first | with_reducible assumption | with_reducible exact State.Keeps.refl _ | with_reducible apply State.readFrame_keeps | with_reducible apply State.macFrame_keeps | with_reducible apply keeping_next | ((with_reducible conv => arg 4; whnf); split) | (refine pair_keeps ?_ (by assumption))

theorem execTrapRefill_keeps (i : Fin 16) (r : Fin 64) (s : State) : Keeping a b s (execTrapRefill i r s) := by
  unfold execTrapRefill
  repeat' first | with_reducible assumption | with_reducible exact State.Keeps.refl _ | with_reducible apply State.ran_keeps | with_reducible apply State.updMat_keeps | with_reducible apply keeping_next | (dsimp only; split)

theorem State.toAdmission_keeps {s : State} {i : Nat} {x : Nat} {f : Flight} {x4 : Arrival} (h : State.Keeps a b s0 s) : State.Keeps a b s0 (State.toAdmission s i x f x4) := by
  unfold State.toAdmission
  repeat' first | with_reducible assumption | with_reducible apply State.pipeDrop_keeps | with_reducible apply State.admitMcast_keeps | with_reducible apply State.admitUnicast_keeps | with_reducible apply State.fresh_keeps | ((with_reducible conv => arg 4; whnf); split)

theorem State.mirror_keeps {s : State} {i : Nat} {f : Flight} {x3 : Arrival} (h : State.Keeps a b s0 s) : State.Keeps a b s0 (State.mirror s i f x3) := by
  unfold State.mirror
  repeat' first | with_reducible assumption | with_reducible apply State.admitUnicast_keeps | ((with_reducible conv => arg 4; whnf); split)

theorem State.handOn_keeps {s : State} {i : Nat} {x : Nat} {f : Flight} {sub : Nat} (h : State.Keeps a b s0 s) : State.Keeps a b s0 (State.handOn s i x f sub) := by
  unfold State.handOn
  repeat' first | with_reducible assumption | with_reducible apply State.pipeDrop_keeps | with_reducible apply State.trapPass_keeps | with_reducible apply State.mirror_keeps | with_reducible apply State.atlHandoff_keeps | with_reducible apply State.toAdmission_keeps | ((with_reducible conv => arg 4; whnf); split)

theorem State.setFenced_keeps {s : State} {y : Nat} {l : List (Nat × Flight)} (h : State.Keeps a b s0 s) : State.Keeps a b s0 (State.setFenced s y l) := by
  unfold State.setFenced
  repeat' first | with_reducible assumption | with_reducible apply State.updPath_keeps

theorem State.releaseFence_keeps {s : State} {i : Nat} {d : Nat} {p : Nat} (h : State.Keeps a b s0 s) : State.Keeps a b s0 (State.releaseFence s i d p) := by
  unfold State.releaseFence
  repeat' first | with_reducible assumption | with_reducible apply State.setFenced_keeps | with_reducible apply State.wr_keeps | with_reducible apply State.handOn_keeps | with_reducible apply foldl_keeps | (dsimp only; split) | intro _

theorem State.memoryFatal_keeps {s : State} {x1 : Nat} {u : Nat} {faults : List Sys2Proof.MemFault} (h : State.Keeps a b s0 s) : State.Keeps a b s0 (State.memoryFatal s x1 u faults) := by
  unfold State.memoryFatal
  repeat' first | with_reducible assumption | with_reducible apply State.event_keeps | ((with_reducible conv => arg 4; whnf); split)

theorem State.setFlights_keeps {s : State} {y : Nat} {l : List Flight} (h : State.Keeps a b s0 s) : State.Keeps a b s0 (State.setFlights s y l) := by
  unfold State.setFlights
  repeat' first | with_reducible assumption | with_reducible apply State.updPath_keeps

theorem execPipelineExit_keeps (i : Fin 16) (x : Fin 5) (sub : Fin 16) (faults : List Sys2Proof.MemFault) (s : State) : Keeping a b s (execPipelineExit i x sub faults s) := by
  unfold execPipelineExit
  repeat' first | with_reducible assumption | with_reducible exact State.Keeps.refl _ | with_reducible apply State.memoryFatal_keeps | with_reducible apply State.setFlights_keeps | with_reducible apply State.setFenced_keeps | with_reducible apply State.handOn_keeps | with_reducible apply State.releaseFence_keeps | with_reducible apply keeping_next | ((with_reducible conv => arg 4; whnf); split)

theorem State.freshKeep_keeps {s : State} {pool : Nat} {g : Nat} {w : PipeSwap} (h : State.Keeps a b s0 s) : State.Keeps a b s0 (State.freshKeep s pool g w) := by
  unfold State.freshKeep
  repeat' first | with_reducible assumption | with_reducible apply State.initReg_keeps | with_reducible apply foldl_keeps | (dsimp only; split) | intro _

theorem State.dropTable_keeps {s : State} {pool : Nat} {x2 : Nat} (h : State.Keeps a b s0 s) : State.Keeps a b s0 (State.dropTable s pool x2) := by
  unfold State.dropTable
  repeat' first | with_reducible assumption | with_reducible apply State.updMat_keeps | with_reducible apply State.wr_keeps | with_reducible apply foldl_keeps | intro _

theorem State.freeTables_keeps {s : State} {i : Nat} {d : Nat} {old : Sys2Proof.Program} (h : State.Keeps a b s0 s) : State.Keeps a b s0 (State.freeTables s i d old) := by
  unfold State.freeTables
  repeat' first | with_reducible assumption | with_reducible apply State.dropTable_keeps | with_reducible apply foldl_keeps | intro _

theorem State.swapDone_keeps {s : State} {i : Nat} {d : Nat} {w : PipeSwap} {flush : Bool} (h : State.Keeps a false s0 s) : State.Keeps a false s0 (State.swapDone s i d w flush) := by
  unfold State.swapDone
  repeat' first | with_reducible assumption | with_reducible apply State.releaseFence_keeps | with_reducible apply State.releaseEgress_keeps | with_reducible apply State.setPipeSwap_keeps | with_reducible apply State.freshKeep_keeps | with_reducible apply State.clearPipe_keeps | with_reducible apply State.pipeEnter_keeps | with_reducible apply State.freeTables_keeps | with_reducible apply State.wr_keeps | with_reducible apply State.raise_keeps | with_reducible apply State.finishHold_keeps | with_reducible apply State.spareConsumed_keeps | with_reducible apply State.satAdd_keeps | with_reducible apply State.unstage_keeps | with_reducible apply foldl_keeps | ((with_reducible conv => arg 4; whnf); split) | intro _

theorem execLoadingReady_keeps (i : Fin 16) (d : Fin 2) (s : State) : Keeping a b s (execLoadingReady i d s) := by
  unfold execLoadingReady
  repeat' first | with_reducible assumption | with_reducible exact State.Keeps.refl _ | with_reducible apply State.addTable_keeps | with_reducible apply State.initRegs_keeps | with_reducible apply State.initEntries_keeps | with_reducible apply State.copyEnd_keeps | with_reducible apply State.raise_keeps | with_reducible apply State.wrB_keeps | with_reducible apply State.wr_keeps | with_reducible apply State.fenceStart_keeps | with_reducible apply State.finishHold_keeps | with_reducible apply foldl_keeps | with_reducible apply keeping_next | ((with_reducible conv => arg 4; whnf); split) | intro _

theorem execSwapTargetEmpty_keeps (i : Fin 16) (d : Fin 2) (s : State) : Keeping a false s (execSwapTargetEmpty i d s) := by
  unfold execSwapTargetEmpty
  repeat' first | with_reducible assumption | with_reducible exact State.Keeps.refl _ | with_reducible apply State.swapDone_keeps | with_reducible apply keeping_next | ((with_reducible conv => arg 4; whnf); split)

theorem State.flushPipe_keeps {s : State} {i : Nat} {x : Nat} {code : Nat} (h : State.Keeps a b s0 s) : State.Keeps a b s0 (State.flushPipe s i x code).2 := by
  unfold State.flushPipe
  repeat' first | with_reducible assumption | with_reducible apply State.setRxq_keeps | with_reducible apply State.setFlights_keeps | with_reducible apply State.updPath_keeps | with_reducible apply State.pipeDrop_keeps | with_reducible apply State.release_keeps | with_reducible apply foldl_keeps | intro _

theorem execFenceTimeout_keeps (i : Fin 16) (d : Fin 2) (s : State) : Keeping a false s (execFenceTimeout i d s) := by
  unfold execFenceTimeout
  repeat' first | with_reducible assumption | with_reducible exact State.Keeps.refl _ | with_reducible apply State.flushPipe_keeps | with_reducible apply State.swapDone_keeps | with_reducible apply State.satAdd_keeps | with_reducible apply keeping_next | ((with_reducible conv => arg 4; whnf); split)

theorem execLoadFailed_keeps (i : Fin 16) (d : Fin 2) (s : State) : Keeping a false s (execLoadFailed i d s) := by
  unfold execLoadFailed
  repeat' first | with_reducible assumption | with_reducible exact State.Keeps.refl _ | with_reducible apply State.copyEnd_keeps | with_reducible apply State.wr_keeps | with_reducible apply State.clearPipe_keeps | with_reducible apply State.pipeEnter_keeps | with_reducible apply State.setPipeSwap_keeps | with_reducible apply State.finishHold_keeps | with_reducible apply State.mapRecord_keeps | with_reducible apply State.unstage_keeps | with_reducible apply keeping_next | ((with_reducible conv => arg 4; whnf); split)

theorem execPipelineRetire_keeps (i : Fin 16) (x : Fin 10) (s : State) : Keeping a b s (execPipelineRetire i x s) := by
  unfold execPipelineRetire
  repeat' first | with_reducible assumption | with_reducible exact State.Keeps.refl _ | with_reducible apply State.retireStart_keeps | with_reducible apply keeping_next | ((with_reducible conv => arg 4; whnf); split)

theorem execPipelineFault_keeps (i : Fin 16) (x : Fin 10) (s : State) : Keeping a false s (execPipelineFault i x s) := by
  unfold execPipelineFault
  repeat' first | with_reducible assumption | with_reducible exact State.Keeps.refl _ | with_reducible apply State.retireStart_keeps | with_reducible apply State.flushPipe_keeps | with_reducible apply State.pipeEnter_keeps | with_reducible apply State.mapRecord_keeps | with_reducible apply State.swapDone_keeps | with_reducible apply State.spareConsumed_keeps | with_reducible apply State.event_keeps | with_reducible apply State.satAdd_keeps | with_reducible apply keeping_next | ((with_reducible conv => arg 4; whnf); split)

theorem State.entryLost_keeps {s : State} {i : Nat} {d : Nat} {x3 : Nat} {ix : Nat} (h : State.Keeps a b s0 s) : State.Keeps a b s0 (State.entryLost s i d x3 ix) := by
  unfold State.entryLost
  repeat' first | with_reducible assumption | with_reducible apply State.event_keeps | with_reducible apply State.setEntry_keeps

theorem State.countEntry_keeps {s : State} {pool : Nat} {x2 : Sys2Proof.TblLayout} {ix : Nat} {len : Nat} (h : State.Keeps a b s0 s) : State.Keeps a b s0 (State.countEntry s pool x2 ix len) := by
  unfold State.countEntry
  repeat' first | with_reducible assumption | with_reducible apply State.updMat_keeps | (dsimp only; split)

theorem State.blockServe_keeps {s : State} {pool : Nat} {x2 : Nat} {x3 : Nat} {c : Nat} {x5 : Nat} (h : State.Keeps a b s0 s) : State.Keeps a b s0 (State.blockServe s pool x2 x3 c x5).2 := by
  induction x5 generalizing s pool x2 x3 c
  all_goals unfold State.blockServe
  all_goals repeat' first | with_reducible assumption | with_reducible apply State.updMat_keeps | (dsimp only; split) | with_reducible apply_assumption

theorem State.servedPrune_keeps {s : State} (h : State.Keeps a b s0 s) : State.Keeps a b s0 (State.servedPrune s) := by
  unfold State.servedPrune
  repeat' first | with_reducible assumption | with_reducible apply State.updMat_keeps

theorem State.sharedWait_keeps {s : State} {pool : Nat} {st : Nat} {x3 : Sys2Proof.TblLayout} {l : List Nat} (h : State.Keeps a b s0 s) : State.Keeps a b s0 (State.sharedWait s pool st x3 l).2 := by
  unfold State.sharedWait
  repeat' first | with_reducible assumption | with_reducible apply State.blockServe_keeps | with_reducible apply foldl_keeps_snd | (dsimp only; split) | intro _

theorem State.aluRun_keeps {s : State} {i : Nat} {x : Nat} {l : Sys2Proof.TblLayout} {ix : Nat} {op : Sys2Proof.AluOp} {x6 : Nat} {x7 : Nat} (h : State.Keeps a b s0 s) : State.Keeps a b s0 (State.aluRun s i x l ix op x6 x7).2.2 := by
  unfold State.aluRun
  repeat' first | with_reducible assumption | with_reducible apply State.updMat_keeps

theorem State.sendHello_keeps {s : State} {p : Nat} (h : State.Keeps a b s0 s) : State.Keeps a b s0 (State.sendHello s p) := by
  unfold State.sendHello
  repeat' first | with_reducible assumption | with_reducible apply State.updPort_keeps | with_reducible apply State.macSend_keeps

theorem execPortLinkUp_keeps (p : Fin 512) (arrivals : List Nat) (s : State) : Keeping a b s (execPortLinkUp p arrivals s) := by
  unfold execPortLinkUp
  repeat' first | with_reducible assumption | with_reducible exact State.Keeps.refl _ | with_reducible apply State.updPort_keeps | with_reducible apply State.portEnter_keeps | with_reducible apply State.spareReady_keeps | with_reducible apply State.pfcUpdate_keeps | with_reducible apply keeping_next | (dsimp only; split)

theorem execAnComplete_keeps (p : Fin 512) (common : Bool) (an : BitVec 31) (s : State) : Keeping a b s (execAnComplete p common an s) := by
  unfold execAnComplete
  repeat' first | with_reducible assumption | with_reducible exact State.Keeps.refl _ | with_reducible apply State.updPort_keeps | with_reducible apply State.wr_keeps | with_reducible apply State.wrB_keeps | with_reducible apply State.partnerChanged_keeps | with_reducible apply keeping_next | ((with_reducible conv => arg 4; whnf); split)

theorem execFecDegradeWindow_keeps (p : Fin 512) (corr : Nat) (uncorr : Nat) (s : State) : Keeping a b s (execFecDegradeWindow p corr uncorr s) := by
  unfold execFecDegradeWindow
  repeat' first | with_reducible assumption | with_reducible exact State.Keeps.refl _ | with_reducible apply State.updPort_keeps | with_reducible apply State.wrapAdd_keeps | with_reducible apply State.wrB_keeps | with_reducible apply State.linkFailure_keeps | with_reducible apply State.raise_keeps | with_reducible apply keeping_next | with_reducible apply ite_keeps | intro _

theorem execHelloSend_keeps (p : Fin 512) (s : State) : Keeping a b s (execHelloSend p s) := by
  unfold execHelloSend
  repeat' first | with_reducible assumption | with_reducible exact State.Keeps.refl _ | with_reducible apply State.sendHello_keeps | with_reducible apply State.portWake_keeps | with_reducible apply keeping_next | ((with_reducible conv => arg 4; whnf); split)

theorem execHelloReceive_keeps (p : Fin 512) (frame : Sys2Proof.Bytes) (coding : Bool) (s : State) : Keeping a b s (execHelloReceive p frame coding s) := by
  unfold execHelloReceive
  repeat' first | with_reducible assumption | with_reducible exact State.Keeps.refl _ | with_reducible apply State.consumed_keeps | with_reducible apply State.helloRx_keeps | with_reducible apply keeping_next | (dsimp only; split)

theorem execPartnerExpire_keeps (p : Fin 512) (s : State) : Keeping a b s (execPartnerExpire p s) := by
  unfold execPartnerExpire
  repeat' first | with_reducible assumption | with_reducible exact State.Keeps.refl _ | with_reducible apply State.partnerInvalid_keeps | with_reducible apply keeping_next | ((with_reducible conv => arg 4; whnf); split)

theorem execMacControlReceive_keeps (p : Fin 512) (frame : Sys2Proof.Bytes) (coding : Bool) (s : State) : Keeping a b s (execMacControlReceive p frame coding s) := by
  unfold execMacControlReceive
  repeat' first | with_reducible assumption | with_reducible exact State.Keeps.refl _ | with_reducible apply State.consumed_keeps | with_reducible apply State.macControl_keeps | with_reducible apply keeping_next | (dsimp only; split)

theorem execPauseExpire_keeps (p : Fin 512) (g : Fin 8) (s : State) : Keeping a b s (execPauseExpire p g s) := by
  unfold execPauseExpire
  repeat' first | with_reducible assumption | with_reducible exact State.Keeps.refl _ | with_reducible apply State.pauseRelease_keeps | with_reducible apply keeping_next | ((with_reducible conv => arg 4; whnf); split)

theorem execPfcRefresh_keeps (p : Fin 512) (s : State) : Keeping a b s (execPfcRefresh p s) := by
  unfold execPfcRefresh
  repeat' first | with_reducible assumption | with_reducible exact State.Keeps.refl _ | with_reducible apply State.updPort_keeps | with_reducible apply State.sendPfc_keeps | with_reducible apply keeping_next | (dsimp only; split)

theorem State.divSwitch_keeps {s : State} (h : State.Keeps a b s0 s) : State.Keeps a b s0 (State.divSwitch s) := by
  unfold State.divSwitch
  repeat' first | with_reducible assumption | with_reducible apply State.wrB_keeps | with_reducible apply State.wr_keeps | with_reducible apply State.satAdd_keeps | with_reducible apply State.voltTarget_keeps | (dsimp only; split)

theorem execDividerSwitch_keeps (mv : Fin 1024) (s : State) : Keeping a b s (execDividerSwitch mv s) := by
  unfold execDividerSwitch
  repeat' first | with_reducible assumption | with_reducible exact State.Keeps.refl _ | with_reducible apply State.divSwitch_keeps | with_reducible apply State.wr_keeps | with_reducible apply keeping_next | ((with_reducible conv => arg 4; whnf); split)

theorem State.recordPower_keeps {s : State} {r : Sys2Proof.PwrReading} (h : State.Keeps a b s0 s) : State.Keeps a b s0 (State.recordPower s r) := by
  unfold State.recordPower
  repeat' first | with_reducible assumption | with_reducible apply State.wr_keeps | with_reducible apply State.wrB_keeps | with_reducible apply foldl_keeps | intro _

theorem State.applyGrant_keeps {s : State} (h : State.Keeps a b s0 s) : State.Keeps a b s0 (State.applyGrant s) := by
  unfold State.applyGrant
  repeat' first | with_reducible assumption | with_reducible apply State.raise_keeps | with_reducible apply State.updPwr_keeps | ((with_reducible conv => arg 4; whnf); split)

theorem State.boostInterval_keeps {s : State} {r : Sys2Proof.PwrReading} (h : State.Keeps a b s0 s) : State.Keeps a b s0 (State.boostInterval s r) := by
  unfold State.boostInterval
  repeat' first | with_reducible assumption | with_reducible apply State.updPwr_keeps | with_reducible apply State.pwrEnter_keeps | ((with_reducible conv => arg 4; whnf); split)

theorem State.applyMemory_keeps {s : State} {before : Nat} {load : List Nat} (h : State.Keeps a b s0 s) : State.Keeps a b s0 (State.applyMemory s before load) := by
  unfold State.applyMemory
  repeat' first | with_reducible assumption | with_reducible apply State.wr_keeps | with_reducible apply State.raise_keeps | with_reducible apply State.wrB_keeps | with_reducible apply State.tsetRequest_keeps | with_reducible apply foldl_keeps | ((with_reducible conv => arg 4; whnf); split) | intro _

theorem State.yieldStep_keeps {s : State} {d : Nat} {load : List Nat} (h : State.Keeps a b s0 s) : State.Keeps a b s0 (State.yieldStep s d load) := by
  unfold State.yieldStep
  repeat' first | with_reducible assumption | with_reducible apply State.updPwr_keeps | with_reducible apply State.wr_keeps | with_reducible apply State.applyMemory_keeps | with_reducible apply State.pwrEnter_keeps | ((with_reducible conv => arg 4; whnf); split)

theorem State.capInterval_keeps {s : State} {r : Sys2Proof.PwrReading} (h : State.Keeps a b s0 s) : State.Keeps a b s0 (State.capInterval s r) := by
  unfold State.capInterval
  repeat' first | with_reducible assumption | with_reducible apply State.updPwr_keeps | with_reducible apply State.pin_keeps | with_reducible apply State.wrB_keeps | with_reducible apply State.yieldStep_keeps | with_reducible apply State.raise_keeps | ((with_reducible conv => arg 4; whnf); split)

theorem State.override_keeps {s : State} {kind : Nat} {detail : Nat} (h : State.Keeps a b s0 s) : State.Keeps a b s0 (State.override s kind detail) := by
  unfold State.override
  repeat' first | with_reducible assumption | with_reducible apply State.event_keeps | with_reducible apply State.raise_keeps | with_reducible apply State.satAdd_keeps

theorem State.thermInterval_keeps {s : State} {load : List Nat} (h : State.Keeps a b s0 s) : State.Keeps a b s0 (State.thermInterval s load) := by
  unfold State.thermInterval
  repeat' first | with_reducible assumption | with_reducible apply State.updPwr_keeps | with_reducible apply State.yieldStep_keeps | with_reducible apply State.override_keeps | ((with_reducible conv => arg 4; whnf); split)

theorem State.applyXoff_keeps {s : State} (h : State.Keeps a b s0 s) : State.Keeps a b s0 (State.applyXoff s) := by
  unfold State.applyXoff
  repeat' first | with_reducible assumption | with_reducible apply State.pfcUpdate_keeps | with_reducible apply State.updPort_keeps | with_reducible apply foldl_keeps | intro _

theorem execPowerControlInterval_keeps (r : Sys2Proof.PwrReading) (s : State) : Keeping a b s (execPowerControlInterval r s) := by
  unfold execPowerControlInterval
  repeat' first | with_reducible assumption | with_reducible exact State.Keeps.refl _ | with_reducible apply State.recordPower_keeps | with_reducible apply State.ran_keeps | with_reducible apply State.applyCap_keeps | with_reducible apply State.applyGrant_keeps | with_reducible apply State.boostInterval_keeps | with_reducible apply State.capInterval_keeps | with_reducible apply State.thermInterval_keeps | with_reducible apply State.wrB_keeps | with_reducible apply State.applyMemory_keeps | with_reducible apply State.updPwr_keeps | with_reducible apply State.holdingOff_keeps | with_reducible apply State.applyDuty_keeps | with_reducible apply State.applyCode_keeps | with_reducible apply State.applyXoff_keeps | with_reducible apply keeping_next | ((with_reducible conv => arg 4; whnf); split)

theorem State.takeBack_keeps {s : State} (h : State.Keeps a b s0 s) : State.Keeps a b s0 (State.takeBack s) := by
  unfold State.takeBack
  repeat' first | with_reducible assumption | with_reducible apply State.updPwr_keeps | with_reducible apply State.subFrom_keeps | with_reducible apply State.applyMemory_keeps | with_reducible apply State.pwrEnter_keeps | with_reducible apply State.applyDuty_keeps | with_reducible apply State.applyCode_keeps | ((with_reducible conv => arg 4; whnf); split)

theorem execCapTakeback_keeps (s : State) : Keeping a b s (execCapTakeback s) := by
  unfold execCapTakeback
  repeat' first | with_reducible assumption | with_reducible exact State.Keeps.refl _ | with_reducible apply State.holdingOff_keeps | with_reducible apply State.takeBack_keeps | with_reducible apply State.ran_keeps | with_reducible apply keeping_next | ((with_reducible conv => arg 4; whnf); split)

theorem execBoostEntry_keeps (s : State) : Keeping a b s (execBoostEntry s) := by
  unfold execBoostEntry
  repeat' first | with_reducible assumption | with_reducible exact State.Keeps.refl _ | with_reducible apply State.applyCode_keeps | with_reducible apply State.pwrEnter_keeps | with_reducible apply keeping_next | ((with_reducible conv => arg 4; whnf); split)

theorem State.pwrfail_keeps {s : State} (h : State.Keeps a b s0 s) : State.Keeps a b s0 (State.pwrfail s) := by
  unfold State.pwrfail
  repeat' first | with_reducible assumption | with_reducible apply State.updPwr_keeps | with_reducible apply State.wrB_keeps | with_reducible apply State.enterSave_keeps | with_reducible apply State.keepStart_keeps | (dsimp only; split)

theorem execPwrfailAssert_keeps (s : State) : Keeping a b s (execPwrfailAssert s) := by
  unfold execPwrfailAssert
  repeat' first | with_reducible assumption | with_reducible exact State.Keeps.refl _ | with_reducible apply State.pwrfail_keeps | with_reducible apply keeping_next

theorem execVrAlert_keeps (s : State) : Keeping a b s (execVrAlert s) := by
  unfold execVrAlert
  repeat' first | with_reducible assumption | with_reducible exact State.Keeps.refl _ | with_reducible apply State.pwrfail_keeps | with_reducible apply keeping_next

theorem execSaveExit_keeps (s : State) : Keeping a b s (execSaveExit s) := by
  unfold execSaveExit
  repeat' first | with_reducible assumption | with_reducible exact State.Keeps.refl _ | with_reducible apply State.wrB_keeps | with_reducible apply State.updPwr_keeps | with_reducible apply State.takeBack_keeps | with_reducible apply State.pwrEnter_keeps | with_reducible apply State.holdingOff_keeps | with_reducible apply State.applyDuty_keeps | with_reducible apply State.applyCode_keeps | with_reducible apply foldl_keeps | with_reducible apply keeping_next | (dsimp only; split) | intro _

theorem execVoltTrim_keeps (want : Option Bool) (s : State) : Keeping a b s (execVoltTrim want s) := by
  unfold execVoltTrim
  repeat' first | with_reducible assumption | with_reducible exact State.Keeps.refl _ | with_reducible apply State.ran_keeps | with_reducible apply State.updPwr_keeps | with_reducible apply State.voltTarget_keeps | with_reducible apply keeping_next | ((with_reducible conv => arg 4; whnf); split)

theorem execDroopDetect_keeps (det : Fin 64) (s : State) : Keeping a b s (execDroopDetect det s) := by
  unfold execDroopDetect
  repeat' first | with_reducible assumption | with_reducible exact State.Keeps.refl _ | with_reducible apply State.updPwr_keeps | with_reducible apply State.wrB_keeps | with_reducible apply State.override_keeps | with_reducible apply State.cntGlobal_keeps | with_reducible apply State.satAdd_keeps | with_reducible apply keeping_next | ((with_reducible conv => arg 4; whnf); split)

theorem execDroopStretchEnd_keeps (s : State) : Keeping a b s (execDroopStretchEnd s) := by
  unfold execDroopStretchEnd
  repeat' first | with_reducible assumption | with_reducible exact State.Keeps.refl _ | with_reducible apply State.wrB_keeps | with_reducible apply keeping_next | (dsimp only; split)

theorem execCurrentLimit_keeps (amps : Nat) (watts : Nat) (s : State) : Keeping a b s (execCurrentLimit amps watts s) := by
  unfold execCurrentLimit
  repeat' first | with_reducible assumption | with_reducible exact State.Keeps.refl _ | with_reducible apply State.holdingOff_keeps | with_reducible apply State.applyDuty_keeps | with_reducible apply State.updPwr_keeps | with_reducible apply State.wrB_keeps | with_reducible apply State.override_keeps | with_reducible apply keeping_next | ((with_reducible conv => arg 4; whnf); split)

theorem execDutyRise_keeps (s : State) : Keeping a b s (execDutyRise s) := by
  unfold execDutyRise
  repeat' first | with_reducible assumption | with_reducible exact State.Keeps.refl _ | with_reducible apply State.holdingOff_keeps | with_reducible apply State.applyDuty_keeps | with_reducible apply State.updPwr_keeps | with_reducible apply State.wrB_keeps | with_reducible apply keeping_next | ((with_reducible conv => arg 4; whnf); split)

theorem execThermalRead_keeps (temps : List (Fin 256)) (s : State) : Keeping a b s (execThermalRead temps s) := by
  unfold execThermalRead
  repeat' first | with_reducible assumption | with_reducible exact State.Keeps.refl _ | with_reducible apply State.ran_keeps | with_reducible apply State.wr_keeps | with_reducible apply State.raise_keeps | with_reducible apply State.wrB_keeps | with_reducible apply State.emit_keeps | with_reducible apply State.event_keeps | with_reducible apply State.keepStart_keeps | with_reducible apply foldl_keeps | with_reducible apply keeping_next | fail_if_no_progress (with_reducible apply mk_keeps) | ((with_reducible conv => arg 4; whnf); split) | intro _

theorem execThrottleStep_keeps (s : State) : Keeping a b s (execThrottleStep s) := by
  unfold execThrottleStep
  repeat' first | with_reducible assumption | with_reducible exact State.Keeps.refl _ | with_reducible apply State.ran_keeps | with_reducible apply State.updPwr_keeps | with_reducible apply State.holdingOff_keeps | with_reducible apply State.applyCode_keeps | with_reducible apply State.override_keeps | with_reducible apply State.applyDuty_keeps | with_reducible apply State.takeBack_keeps | with_reducible apply State.wrB_keeps | with_reducible apply keeping_next | ((with_reducible conv => arg 4; whnf); split)

theorem execAgeingMeasure_keeps (values : List (Fin 65536)) (s : State) : Keeping a b s (execAgeingMeasure values s) := by
  unfold execAgeingMeasure
  repeat' first | with_reducible assumption | with_reducible exact State.Keeps.refl _ | with_reducible apply State.ran_keeps | with_reducible apply State.wr_keeps | with_reducible apply foldl_keeps | with_reducible apply keeping_next | fail_if_no_progress (with_reducible apply mk_keeps) | (dsimp only; split) | intro _

theorem State.passEvent_keeps {s : State} {p : Pass} {ev : Nat} {arg : Nat} {n : Nat} (h : State.Keeps a b s0 s) : State.Keeps a b s0 (State.passEvent s p ev arg n) := by
  unfold State.passEvent
  repeat' first | with_reducible assumption | with_reducible apply State.cntIsland_keeps

theorem State.passWait_keeps {s : State} {p : Pass} {x2 : Sys2Proof.TblLayout} {l : List Nat} (h : State.Keeps a b s0 s) : State.Keeps a b s0 (State.passWait s p x2 l).1 := by
  unfold State.passWait
  repeat' first | with_reducible assumption | with_reducible apply State.sharedWait_keeps

theorem State.runLookup_keeps {s : State} {seen : Flight} {p : Pass} {k : Sys2Proof.Lookup} (h : State.Keeps a b s0 s) : State.Keeps a b s0 (State.runLookup s seen p k).1 := by
  unfold State.runLookup
  repeat' first | with_reducible assumption | with_reducible apply State.passEvent_keeps | with_reducible apply State.passWait_keeps | with_reducible apply State.entryLost_keeps | with_reducible apply State.countEntry_keeps | ((with_reducible conv => arg 4; whnf); split) | (dsimp only; split)

theorem State.runMeter_keeps {s : State} {p : Pass} {ix : Nat} (h : State.Keeps a b s0 s) : State.Keeps a b s0 (State.runMeter s p ix).1 := by
  unfold State.runMeter
  repeat' first | with_reducible assumption | with_reducible apply State.event_keeps | with_reducible apply State.passEvent_keeps | with_reducible apply State.setMeter_keeps | ((with_reducible conv => arg 4; whnf); split) | (dsimp only; split)

theorem State.runAct_keeps {s : State} {seen : Flight} {p : Pass} {x3 : Sys2Proof.Act} (h : State.Keeps a b s0 s) : State.Keeps a b s0 (State.runAct s seen p x3).1 := by
  unfold State.runAct
  repeat' first | with_reducible assumption | with_reducible apply State.runMeter_keeps | with_reducible apply State.satAdd_keeps | ((with_reducible conv => arg 4; whnf); split) | (dsimp only; split)

theorem State.runActs_keeps {s : State} {seen : Flight} {p : Pass} {l : List Sys2Proof.Act} (h : State.Keeps a b s0 s) : State.Keeps a b s0 (State.runActs s seen p l).1 := by
  unfold State.runActs
  repeat' first | with_reducible assumption | with_reducible apply State.runAct_keeps | with_reducible apply foldl_keeps_fst | intro _

theorem State.runAlu_keeps {s : State} {seen : Flight} {p : Pass} {al : Nat} {x4 : Sys2Proof.Alu} (h : State.Keeps a b s0 s) : State.Keeps a b s0 (State.runAlu s seen p al x4).1 := by
  unfold State.runAlu
  repeat' first | with_reducible assumption | with_reducible apply State.runActs_keeps | with_reducible apply State.passWait_keeps | with_reducible apply State.aluRun_keeps | ((with_reducible conv => arg 4; whnf); split) | (dsimp only; split)

theorem State.runStage_keeps {s : State} {p : Pass} {g : Sys2Proof.Stage} (h : State.Keeps a b s0 s) : State.Keeps a b s0 (State.runStage s p g).1 := by
  unfold State.runStage
  repeat' first | with_reducible assumption | with_reducible apply State.runLookup_keeps | with_reducible apply State.runActs_keeps | with_reducible apply State.runAlu_keeps | with_reducible apply foldl_keeps_fst | intro _

theorem State.runProgram_keeps {s : State} {i : Nat} {x : Nat} {fl : Flight} {faults : List Sys2Proof.MemFault} (h : State.Keeps a b s0 s) : State.Keeps a b s0 (State.runProgram s i x fl faults).1 := by
  unfold State.runProgram
  repeat' first | with_reducible assumption | with_reducible apply State.runStage_keeps | with_reducible apply State.servedPrune_keeps | with_reducible apply foldl_keeps_fst | intro _

theorem State.takeSlot_keeps {s : State} {i : Nat} {x : Nat} {names : List (Nat × Nat × Nat)} (h : State.Keeps a b s0 s) : State.Keeps a b s0 (State.takeSlot s i x names) := by
  unfold State.takeSlot
  repeat' first | with_reducible assumption | with_reducible apply State.setIssueClk_keeps | with_reducible apply State.wr_keeps | with_reducible apply State.wrapAdd_keeps | with_reducible apply State.cntIsland_keeps | (dsimp only; split)

theorem State.takeIssue_keeps {s : State} {p : Pass} (h : State.Keeps a b s0 s) : State.Keeps a b s0 (State.takeIssue s p) := by
  unfold State.takeIssue
  repeat' first | with_reducible assumption | with_reducible apply State.takeSlot_keeps | with_reducible apply State.passEvent_keeps | with_reducible apply State.slots_keeps | with_reducible apply State.cntIsland_keeps | with_reducible apply State.satAdd_keeps | with_reducible apply State.setIssueClk_keeps | (dsimp only; split)

theorem State.windowCount_keeps {s : State} {l : Nat} {words : List Sys2Proof.LineErr} {corner : Nat} (h : State.Keeps a b s0 s) : State.Keeps a b s0 (State.windowCount s l words corner) := by
  unfold State.windowCount
  repeat' first | with_reducible assumption | with_reducible apply State.updLane_keeps | with_reducible apply State.satAdd_keeps | with_reducible apply State.symbolsFixed_keeps | with_reducible apply State.updPort_keeps | (dsimp only; split)

theorem State.reserveFails_keeps {s : State} {l : Nat} (h : State.Keeps a b s0 s) : State.Keeps a b s0 (State.reserveFails s l) := by
  unfold State.reserveFails
  repeat' first | with_reducible assumption | with_reducible apply State.swapAbort_keeps | with_reducible apply State.spareConsumed_keeps | with_reducible apply State.mapRecord_keeps | with_reducible apply State.laneEnter_keeps | with_reducible apply State.spareReady_keeps | ((with_reducible conv => arg 4; whnf); split)

theorem State.lockedFails_keeps {s : State} {l : Nat} (h : State.Keeps a b s0 s) : State.Keeps a b s0 (State.lockedFails s l) := by
  unfold State.lockedFails
  repeat' first | with_reducible assumption | with_reducible apply State.spareRequest_keeps | ((with_reducible conv => arg 4; whnf); split)

theorem execSwapWindowClose_keeps (l : Fin 544) (words : List Sys2Proof.LineErr) (corner : Nat) (s : State) : Keeping a b s (execSwapWindowClose l words corner s) := by
  unfold execSwapWindowClose
  repeat' first | with_reducible assumption | with_reducible exact State.Keeps.refl _ | with_reducible apply State.windowCount_keeps | with_reducible apply State.satAdd_keeps | with_reducible apply State.wr_keeps | with_reducible apply State.reserveFails_keeps | with_reducible apply State.lockedFails_keeps | with_reducible apply keeping_next | ((with_reducible conv => arg 4; whnf); split)

theorem execSpareReqAge_keeps (n : Fin 16) (s : State) : Keeping a b s (execSpareReqAge n s) := by
  unfold execSpareReqAge
  repeat' first | with_reducible assumption | with_reducible exact State.Keeps.refl _ | with_reducible apply State.wr_keeps | with_reducible apply State.lifeVoid_keeps | with_reducible apply State.event_keeps | with_reducible apply keeping_next | ((with_reducible conv => arg 4; whnf); split)

theorem execSpareRateWindow_keeps (extra : List (Fin 8 × Nat × Nat)) (s : State) : Keeping a b s (execSpareRateWindow extra s) := by
  unfold execSpareRateWindow
  repeat' first | with_reducible assumption | with_reducible exact State.Keeps.refl _ | with_reducible apply State.ran_keeps | with_reducible apply State.rateAdd_keeps | with_reducible apply State.event_keeps | with_reducible apply State.updRas_keeps | with_reducible apply State.spareRequest_keeps | with_reducible apply foldl_keeps | with_reducible apply keeping_next | ((with_reducible conv => arg 4; whnf); split) | intro _

theorem execAgeingCheck_keeps (s : State) : Keeping a b s (execAgeingCheck s) := by
  unfold execAgeingCheck
  repeat' first | with_reducible assumption | with_reducible exact State.Keeps.refl _ | with_reducible apply State.ran_keeps | with_reducible apply State.updRas_keeps | with_reducible apply State.spareRequest_keeps | with_reducible apply State.event_keeps | with_reducible apply foldl_keeps | with_reducible apply keeping_next | ((with_reducible conv => arg 4; whnf); split) | intro _

theorem execSoftRepair_keeps (mac : Nat) (line : Nat) (col : Bool) (s : State) : Keeping a b s (execSoftRepair mac line col s) := by
  unfold execSoftRepair
  repeat' first | with_reducible assumption | with_reducible exact State.Keeps.refl _ | with_reducible apply State.event_keeps | with_reducible apply State.mapRecord_keeps | with_reducible apply State.updRas_keeps | with_reducible apply State.satAdd_keeps | with_reducible apply State.subFrom_keeps | with_reducible apply keeping_next | (dsimp only; split)

theorem execTcamScrub_keeps (bad : List (Fin 32 × Nat × Nat)) (s : State) : Keeping a b s (execTcamScrub bad s) := by
  unfold execTcamScrub
  repeat' first | with_reducible assumption | with_reducible exact State.Keeps.refl _ | with_reducible apply State.entryLost_keeps | with_reducible apply State.ran_keeps | with_reducible apply foldl_keeps | with_reducible apply keeping_next | ((with_reducible conv => arg 4; whnf); split) | intro _

theorem execTidemarkInEdge_keeps (s : State) : Keeping a b s (execTidemarkInEdge s) := by
  unfold execTidemarkInEdge
  repeat' first | with_reducible assumption | with_reducible exact State.Keeps.refl _ | with_reducible apply State.tidemark_keeps | with_reducible apply keeping_next

theorem State.tap_keeps {s : State} {code : Nat} (h : State.Keeps a b s0 s) : State.Keeps a b s0 (State.tap s code) := by
  unfold State.tap
  repeat' first | with_reducible assumption | fail_if_no_progress (with_reducible apply mk_keeps)

theorem State.tapStop_keeps {s : State} {code : Nat} (h : State.Keeps a b s0 s) : State.Keeps a b s0 (State.tapStop s code) := by
  unfold State.tapStop
  repeat' first | with_reducible assumption | with_reducible apply State.fresh_keeps | with_reducible apply State.event_keeps | with_reducible apply State.tap_keeps | fail_if_no_progress (with_reducible apply mk_keeps)

theorem execJtagBypass_keeps (tdi : Sys2Proof.Bytes) (s : State) : Keeping a b s (execJtagBypass tdi s) := by
  unfold execJtagBypass
  repeat' first | with_reducible assumption | with_reducible exact State.Keeps.refl _ | with_reducible apply State.emit_keeps | with_reducible apply State.tap_keeps | with_reducible apply keeping_next

theorem execJtagIdcode_keeps (s : State) : Keeping a b s (execJtagIdcode s) := by
  unfold execJtagIdcode
  repeat' first | with_reducible assumption | with_reducible exact State.Keeps.refl _ | with_reducible apply State.emit_keeps | with_reducible apply State.tap_keeps | with_reducible apply keeping_next

theorem execJtagSamplePreload_keeps (data : Sys2Proof.Bytes) (s : State) : Keeping a b s (execJtagSamplePreload data s) := by
  unfold execJtagSamplePreload
  repeat' first | with_reducible assumption | with_reducible exact State.Keeps.refl _ | with_reducible apply State.fresh_keeps | with_reducible apply State.tap_keeps | with_reducible apply State.emit_keeps | with_reducible apply keeping_next | fail_if_no_progress (with_reducible apply mk_keeps)

theorem execJtagExtest_keeps (s : State) : Keeping a b s (execJtagExtest s) := by
  unfold execJtagExtest
  repeat' first | with_reducible assumption | with_reducible exact State.Keeps.refl _ | with_reducible apply State.tapStop_keeps | with_reducible apply keeping_next

theorem execJtagClamp_keeps (s : State) : Keeping a b s (execJtagClamp s) := by
  unfold execJtagClamp
  repeat' first | with_reducible assumption | with_reducible exact State.Keeps.refl _ | with_reducible apply State.tapStop_keeps | with_reducible apply keeping_next

theorem execJtagHighz_keeps (s : State) : Keeping a b s (execJtagHighz s) := by
  unfold execJtagHighz
  repeat' first | with_reducible assumption | with_reducible exact State.Keeps.refl _ | with_reducible apply State.tapStop_keeps | with_reducible apply keeping_next

theorem execJtagExtestPulse_keeps (s : State) : Keeping a b s (execJtagExtestPulse s) := by
  unfold execJtagExtestPulse
  repeat' first | with_reducible assumption | with_reducible exact State.Keeps.refl _ | with_reducible apply State.tapStop_keeps | with_reducible apply keeping_next

theorem execJtagExtestTrain_keeps (s : State) : Keeping a b s (execJtagExtestTrain s) := by
  unfold execJtagExtestTrain
  repeat' first | with_reducible assumption | with_reducible exact State.Keeps.refl _ | with_reducible apply State.tapStop_keeps | with_reducible apply keeping_next

theorem execJtagTmFire_keeps (s : State) : Keeping a b s (execJtagTmFire s) := by
  unfold execJtagTmFire
  repeat' first | with_reducible assumption | with_reducible exact State.Keeps.refl _ | with_reducible apply State.tidemark_keeps | with_reducible apply State.tap_keeps | with_reducible apply keeping_next

theorem execJtagTmRead_keeps (s : State) : Keeping a b s (execJtagTmRead s) := by
  unfold execJtagTmRead
  repeat' first | with_reducible assumption | with_reducible exact State.Keeps.refl _ | with_reducible apply State.emit_keeps | with_reducible apply State.tap_keeps | with_reducible apply keeping_next

theorem State.enter_keeps {s : State} {i : Nat} {x : Nat} {fl : Flight} {faults : List Sys2Proof.MemFault} (h : State.Keeps a b s0 s) : State.Keeps a b s0 (State.enter s i x fl faults) := by
  unfold State.enter
  repeat' first | with_reducible assumption | with_reducible apply State.runProgram_keeps | with_reducible apply State.takeIssue_keeps | with_reducible apply State.setFlights_keeps | with_reducible apply State.setIssueClk_keeps | (dsimp only; split)

theorem State.nextFrame_keeps {s0 s : State} {y : Nat} (h : State.Keeps a b s0 s) {y0 : RxFrame} {t : State}
    (e : s.nextFrame y = some (y0, t)) : State.Keeps a b s0 t := by
  unfold State.nextFrame at e
  dsimp only at e
  split at e
  · obtain ⟨r, -, q⟩ := Option.map_eq_some_iff.1 e
    cases q
    exact State.updPath_keeps h
  · split at e
    · cases e
      exact State.setRxq_keeps h
    · obtain ⟨r, -, q⟩ := Option.map_eq_some_iff.1 e
      cases q
      exact State.updPath_keeps h

theorem State.issueFrames_keeps {s : State} {i : Nat} {x : Nat} {x3 : Nat} {x4 : List (List Sys2Proof.MemFault)} (h : State.Keeps a b s0 s) : State.Keeps a b s0 (State.issueFrames s i x x3 x4) := by
  induction x3 generalizing s i x x4
  all_goals unfold State.issueFrames
  all_goals repeat' first | with_reducible assumption | refine State.nextFrame_keeps ?_ (by assumption) | with_reducible apply State.slots_keeps | with_reducible apply State.enter_keeps | ((with_reducible conv => arg 4; whnf); split) | with_reducible apply_assumption

theorem State.reservedEmpty_keeps {s : State} {i : Nat} {x : Nat} (h : State.Keeps a b s0 s) : State.Keeps a b s0 (State.reservedEmpty s i x) := by
  unfold State.reservedEmpty
  repeat' first | with_reducible assumption | with_reducible apply State.slots_keeps | with_reducible apply State.setIssueClk_keeps

theorem State.issueClock_keeps {s : State} {i : Nat} {x : Nat} {faults : List (List Sys2Proof.MemFault)} (h : State.Keeps a b s0 s) : State.Keeps a b s0 (State.issueClock s i x faults) := by
  unfold State.issueClock
  repeat' first | with_reducible assumption | with_reducible exact State.Keeps.refl _ | with_reducible apply State.cntGlobal_keeps | with_reducible apply State.slots_keeps | with_reducible apply State.setIssueClk_keeps | with_reducible apply State.reservedEmpty_keeps | with_reducible apply State.issueFrames_keeps | with_reducible apply foldl_keeps | with_reducible apply foldl_keeps_snd | with_reducible apply foldl_keeps_fst | with_reducible apply keeping_next | fail_if_no_progress (with_reducible apply mk_keeps) | with_reducible apply ite_keeps | ((with_reducible conv => arg 4; whnf); split) | (refine pair_keeps ?_ (by assumption)) | (refine triple_keeps ?_ (by assumption)) | (refine pair_keeps_fst ?_ (by assumption)) | (dsimp only; split) | intro _ _ _ _ | intro _ _ _ | intro _

theorem execIngressIssue_keeps (i : Fin 16) (x : Fin 5) (faults : List (List Sys2Proof.MemFault)) (s : State) : Keeping a b s (execIngressIssue i x faults s) := by
  unfold execIngressIssue
  repeat' first | with_reducible assumption | with_reducible exact State.Keeps.refl _ | with_reducible apply State.flushSamples_keeps | with_reducible apply State.nextClock_keeps | with_reducible apply State.issueClock_keeps | with_reducible apply State.cntIsland_keeps | with_reducible apply keeping_next | (dsimp only; split)

theorem execRecircIssue_keeps (i : Fin 16) (x : Fin 5) (faults : List Sys2Proof.MemFault) (s : State) : Keeping a b s (execRecircIssue i x faults s) := by
  unfold execRecircIssue
  repeat' first | with_reducible assumption | with_reducible exact State.Keeps.refl _ | with_reducible apply State.setIssueClk_keeps | with_reducible apply State.setFlights_keeps | with_reducible apply State.slots_keeps | with_reducible apply State.takeSlot_keeps | with_reducible apply State.cntIsland_keeps | with_reducible apply State.flushSamples_keeps | with_reducible apply State.enter_keeps | with_reducible apply foldl_keeps | with_reducible apply foldl_keeps_snd | with_reducible apply foldl_keeps_fst | with_reducible apply keeping_next | fail_if_no_progress (with_reducible apply mk_keeps) | with_reducible apply ite_keeps | ((with_reducible conv => arg 4; whnf); split) | (refine pair_keeps ?_ (by assumption)) | (refine triple_keeps ?_ (by assumption)) | (refine pair_keeps_fst ?_ (by assumption)) | (dsimp only; split) | intro _ _ _ _ | intro _ _ _ | intro _

theorem State.read_keeps {s : State} {q : Requester} {addr : Nat} {size : Nat} (h : State.Keeps a b s0 s) : State.Keeps a b s0 (State.read s q addr size) := by
  unfold State.read
  repeat' first | with_reducible assumption | with_reducible exact State.Keeps.refl _ | with_reducible apply State.readAccess_keeps | with_reducible apply State.emit_keeps | with_reducible apply foldl_keeps | with_reducible apply foldl_keeps_snd | with_reducible apply foldl_keeps_fst | with_reducible apply keeping_next | fail_if_no_progress (with_reducible apply mk_keeps) | with_reducible apply ite_keeps | ((with_reducible conv => arg 4; whnf); split) | (refine pair_keeps ?_ (by assumption)) | (refine triple_keeps ?_ (by assumption)) | (refine pair_keeps_fst ?_ (by assumption)) | (dsimp only; split) | intro _ _ _ _ | intro _ _ _ | intro _

theorem execLowWordRead_keeps (q : Requester) (addr : BitVec 28) (size : Fin 9) (s : State) : Keeping a b s (execLowWordRead q addr size s) := by
  unfold execLowWordRead
  repeat' first | with_reducible assumption | with_reducible exact State.Keeps.refl _ | with_reducible apply State.read_keeps | with_reducible apply keeping_next

theorem execLowWordWrite_keeps (q : Requester) (addr : BitVec 28) (v : BitVec 32) (s : State) : Keeping a b s (execLowWordWrite q addr v s) := by
  unfold execLowWordWrite
  repeat' first | with_reducible assumption | with_reducible exact State.Keeps.refl _ | with_reducible apply State.write_keeps | with_reducible apply foldl_keeps | with_reducible apply foldl_keeps_snd | with_reducible apply foldl_keeps_fst | with_reducible apply keeping_next | fail_if_no_progress (with_reducible apply mk_keeps) | with_reducible apply ite_keeps | ((with_reducible conv => arg 4; whnf); split) | (refine pair_keeps ?_ (by assumption)) | (refine triple_keeps ?_ (by assumption)) | (refine pair_keeps_fst ?_ (by assumption)) | (dsimp only; split) | intro _ _ _ _ | intro _ _ _ | intro _

theorem execHighWordWrite_keeps (q : Requester) (addr : BitVec 28) (v : BitVec 32) (s : State) : Keeping a b s (execHighWordWrite q addr v s) := by
  unfold execHighWordWrite
  repeat' first | with_reducible assumption | with_reducible exact State.Keeps.refl _ | with_reducible apply State.write_keeps | with_reducible apply foldl_keeps | with_reducible apply foldl_keeps_snd | with_reducible apply foldl_keeps_fst | with_reducible apply keeping_next | fail_if_no_progress (with_reducible apply mk_keeps) | with_reducible apply ite_keeps | ((with_reducible conv => arg 4; whnf); split) | (refine pair_keeps ?_ (by assumption)) | (refine triple_keeps ?_ (by assumption)) | (refine pair_keeps_fst ?_ (by assumption)) | (dsimp only; split) | intro _ _ _ _ | intro _ _ _ | intro _

theorem execRegisterWrite_keeps (q : Requester) (addr : BitVec 28) (size : Fin 9) (v : BitVec 64) (s : State) : Keeping a b s (execRegisterWrite q addr size v s) := by
  unfold execRegisterWrite
  repeat' first | with_reducible assumption | with_reducible exact State.Keeps.refl _ | with_reducible apply State.write_keeps | with_reducible apply keeping_next

theorem execMsixUnmask_keeps (owner : Fin 32) (v : Fin 1056) (s : State) : Keeping a b s (execMsixUnmask owner v s) := by
  unfold execMsixUnmask
  repeat' first | with_reducible assumption | with_reducible exact State.Keeps.refl _ | with_reducible apply State.emit_keeps | with_reducible apply foldl_keeps | with_reducible apply foldl_keeps_snd | with_reducible apply foldl_keeps_fst | with_reducible apply keeping_next | fail_if_no_progress (with_reducible apply mk_keeps) | with_reducible apply ite_keeps | ((with_reducible conv => arg 4; whnf); split) | (refine pair_keeps ?_ (by assumption)) | (refine triple_keeps ?_ (by assumption)) | (refine pair_keeps_fst ?_ (by assumption)) | (dsimp only; split) | intro _ _ _ _ | intro _ _ _ | intro _

theorem execPpsInTsRead_keeps (q : Requester) (s : State) : Keeping a b s (execPpsInTsRead q s) := by
  unfold execPpsInTsRead
  repeat' first | with_reducible assumption | with_reducible exact State.Keeps.refl _ | with_reducible apply State.read_keeps | with_reducible apply keeping_next

theorem State.admitExport_keeps {s : State} {p : Nat} {q : Nat} {frame : Sys2Proof.Bytes} (h : State.Keeps a b s0 s) : State.Keeps a b s0 (State.admitExport s p q frame).2 := by
  unfold State.admitExport
  repeat' first | with_reducible assumption | with_reducible apply State.admitUnicast_keeps | (dsimp only; split)

theorem execExportFrameClose_keeps (c : Fin 16) (ty : Fin 5) (s : State) : Keeping a b s (execExportFrameClose c ty s) := by
  unfold execExportFrameClose
  repeat' first | with_reducible assumption | with_reducible exact State.Keeps.refl _ | with_reducible apply State.updTel_keeps | with_reducible apply State.admitExport_keeps | with_reducible apply State.raise_keeps | with_reducible apply State.satAdd_keeps | with_reducible apply foldl_keeps | with_reducible apply foldl_keeps_snd | with_reducible apply foldl_keeps_fst | with_reducible apply keeping_next | fail_if_no_progress (with_reducible apply mk_keeps) | with_reducible apply ite_keeps | ((with_reducible conv => arg 4; whnf); split) | (refine pair_keeps ?_ (by assumption)) | (refine triple_keeps ?_ (by assumption)) | (refine pair_keeps_fst ?_ (by assumption)) | (dsimp only; split) | intro _ _ _ _ | intro _ _ _ | intro _

theorem execCollectorRefill_keeps (c : Fin 16) (s : State) : Keeping a b s (execCollectorRefill c s) := by
  unfold execCollectorRefill
  repeat' first | with_reducible assumption | with_reducible exact State.Keeps.refl _ | with_reducible apply State.updTel_keeps | with_reducible apply State.ran_keeps | with_reducible apply keeping_next | (dsimp only; split)

theorem execFlowSweep_keeps (die : Fin 2) (key : BitVec 64) (s : State) : Keeping a false s (execFlowSweep die key s) := by
  unfold execFlowSweep
  repeat' first | with_reducible assumption | with_reducible exact State.Keeps.refl _ | with_reducible apply State.telRecord_keeps | with_reducible apply State.flowFree_keeps | with_reducible apply State.flowPut_keeps | with_reducible apply foldl_keeps | with_reducible apply foldl_keeps_snd | with_reducible apply foldl_keeps_fst | with_reducible apply keeping_next | fail_if_no_progress (with_reducible apply mk_keeps) | with_reducible apply ite_keeps | ((with_reducible conv => arg 4; whnf); split) | (refine pair_keeps ?_ (by assumption)) | (refine triple_keeps ?_ (by assumption)) | (refine pair_keeps_fst ?_ (by assumption)) | (dsimp only; split) | intro _ _ _ _ | intro _ _ _ | intro _

theorem execDumpEdge_keeps (s : State) : Keeping a b s (execDumpEdge s) := by
  unfold execDumpEdge
  repeat' first | with_reducible assumption | with_reducible exact State.Keeps.refl _ | with_reducible apply State.dumpEdge_keeps | with_reducible apply State.ran_keeps | with_reducible apply foldl_keeps | with_reducible apply foldl_keeps_snd | with_reducible apply foldl_keeps_fst | with_reducible apply keeping_next | fail_if_no_progress (with_reducible apply mk_keeps) | with_reducible apply ite_keeps | ((with_reducible conv => arg 4; whnf); split) | (refine pair_keeps ?_ (by assumption)) | (refine triple_keeps ?_ (by assumption)) | (refine pair_keeps_fst ?_ (by assumption)) | (dsimp only; split) | intro _ _ _ _ | intro _ _ _ | intro _

theorem execDumpWriteDone_keeps (s : State) : Keeping a false s (execDumpWriteDone s) := by
  unfold execDumpWriteDone
  repeat' first | with_reducible assumption | with_reducible exact State.Keeps.refl _ | with_reducible apply State.hbmWrite_keeps | with_reducible apply State.emit_keeps | with_reducible apply State.wr_keeps | with_reducible apply State.wrB_keeps | with_reducible apply State.raise_keeps | with_reducible apply keeping_next | fail_if_no_progress (with_reducible apply mk_keeps) | ((with_reducible conv => arg 4; whnf); split)

theorem State.dropTooLong_keeps {s : State} {p : Nat} {k : Nat} {x3 : Nat} (h : State.Keeps a b s0 s) : State.Keeps a b s0 (State.dropTooLong s p k x3) := by
  induction x3 generalizing s p k
  all_goals unfold State.dropTooLong
  all_goals repeat' first | with_reducible assumption | with_reducible apply State.queueDrop_keeps | with_reducible apply State.popQueue_keeps | with_reducible apply State.raise_keeps | ((with_reducible conv => arg 4; whnf); split) | with_reducible apply_assumption

theorem State.account3_keeps {s : State} {x1 : Nat} {c : Choice} {n : Nat} (h : State.Keeps a b s0 s) : State.Keeps a b s0 (State.account3 s x1 c n) := by
  unfold State.account3
  repeat' first | with_reducible assumption | with_reducible apply State.updTm_keeps | with_reducible apply State.chargeShaper_keeps | with_reducible apply foldl_keeps | intro _

theorem State.leaveQueue_keeps {s : State} {k : Nat} {id : Nat} {x : Pkt} (h : State.Keeps a b s0 s) : State.Keeps a b s0 (State.leaveQueue s k id x) := by
  unfold State.leaveQueue
  repeat' first | with_reducible assumption | with_reducible apply State.subFrom_keeps | with_reducible apply State.popQueue_keeps | with_reducible apply State.updPath_keeps | with_reducible apply State.setPkt_keeps

theorem State.egressPass_keeps {s : State} {i : Nat} {x : Nat} {k : Nat} {id : Nat} {pk : Pkt} {f : Flight} {faults : List Sys2Proof.MemFault} (h : State.Keeps a b s0 s) : State.Keeps a b s0 (State.egressPass s i x k id pk f faults) := by
  unfold State.egressPass
  repeat' first | with_reducible assumption | with_reducible apply State.runProgram_keeps | with_reducible apply State.takeIssue_keeps | with_reducible apply State.updPath_keeps | with_reducible apply State.cross_keeps | (dsimp only; split)

theorem State.enterEgress_keeps {s : State} {i : Nat} {x : Nat} {k : Nat} {id : Nat} {depth : Nat} {pk : Pkt} {sub : Nat} {faults : List Sys2Proof.MemFault} (h : State.Keeps a b s0 s) : State.Keeps a b s0 (State.enterEgress s i x k id depth pk sub faults) := by
  unfold State.enterEgress
  repeat' first | with_reducible assumption | with_reducible apply State.parse_keeps | with_reducible apply State.release_keeps | with_reducible apply State.pipeDrop_keeps | with_reducible apply State.raise_keeps | with_reducible apply State.egressPass_keeps | with_reducible apply State.trapPass_keeps | ((with_reducible conv => arg 4; whnf); split)

theorem State.takeChoice_keeps {s : State} {x1 : Nat} {c : Choice} {sub : Nat} {errs : List (Nat × Bool)} {faults : List Sys2Proof.MemFault} (h : State.Keeps a b s0 s) : State.Keeps a b s0 (State.takeChoice s x1 c sub errs faults) := by
  unfold State.takeChoice
  repeat' first | with_reducible assumption | with_reducible apply State.cntGlobal_keeps | with_reducible apply State.account3_keeps | with_reducible apply State.leaveQueue_keeps | with_reducible apply State.readCells_keeps | with_reducible apply State.queueStatus_keeps | with_reducible apply State.release_keeps | with_reducible apply State.admitDrop_keeps | with_reducible apply State.setPkt_keeps | with_reducible apply State.pipeDrop_keeps | with_reducible apply State.enterEgress_keeps | ((with_reducible conv => arg 4; whnf); split)

theorem State.egressSlot_keeps {s : State} {i : Nat} {x : Nat} (h : State.Keeps a b s0 s) : State.Keeps a b s0 (State.egressSlot s i x).2 := by
  unfold State.egressSlot
  repeat' first | with_reducible assumption | with_reducible apply State.egressClock_keeps | with_reducible apply State.slots_keeps | with_reducible apply State.setIssueClk_keeps | with_reducible apply State.cntGlobal_keeps | ((with_reducible conv => arg 4; whnf); split) | (dsimp only; split)

theorem State.dropOverlong_keeps {s : State} {x1 : Nat} (h : State.Keeps a b s0 s) : State.Keeps a b s0 (State.dropOverlong s x1) := by
  unfold State.dropOverlong
  repeat' first | with_reducible assumption | with_reducible apply State.dropTooLong_keeps | with_reducible apply foldl_keeps | intro _

theorem State.arbiterSlot_keeps {s : State} {x1 : Nat} (h : State.Keeps a b s0 s) : State.Keeps a b s0 (State.arbiterSlot s x1).2 := by
  unfold State.arbiterSlot
  repeat' first | with_reducible assumption | with_reducible apply State.egressSlot_keeps | ((with_reducible conv => arg 4; whnf); split)

theorem execDequeueDecision_keeps (x : Fin 64) (sub : Fin 16) (errs : List (Nat × Bool)) (faults : List MemFault) (s : State) :
    Keeping a b s (execDequeueDecision x sub errs faults s) := by
  unfold execDequeueDecision
  have h := State.memoryFatal_keeps (x1 := x / 32) (u := x) (faults := faults) (State.Keeps.refl (a := a) (b := b) s)
  refine keeping_next (ite_keeps (fun _ => h) (fun _ => ?_))
  have h1 := State.arbiterSlot_keeps (x1 := x) (State.dropOverlong_keeps (x1 := x) h)
  dsimp only
  split
  · exact h1
  · exact State.flushSamples_keeps (State.takeChoice_keeps h1)

theorem State.refill_keeps {s : State} {n : Nat} (h : State.Keeps a b s0 s) : State.Keeps a b s0 (State.refill s n) := by
  unfold State.refill
  repeat' first | with_reducible assumption | with_reducible apply State.updTm_keeps | with_reducible apply State.setLevel_keeps | (dsimp only; split)

theorem execShaperRefill_keeps (n : Fin 23553) (s : State) : Keeping a b s (execShaperRefill n s) := by
  unfold execShaperRefill
  repeat' first | with_reducible assumption | with_reducible exact State.Keeps.refl _ | with_reducible apply State.refill_keeps | with_reducible apply State.ran_keeps | with_reducible apply State.queueStatus_keeps | with_reducible apply keeping_next | ((with_reducible conv => arg 4; whnf); split)

theorem execGateEdge_keeps (p : Fin 512) (s : State) : Keeping a b s (execGateEdge p s) := by
  unfold execGateEdge
  repeat' first | with_reducible assumption | with_reducible exact State.Keeps.refl _ | with_reducible apply State.gatesUpdate_keeps | with_reducible apply keeping_next

theorem execGateListStart_keeps (p : Fin 512) (s : State) : Keeping a b s (execGateListStart p s) := by
  unfold execGateListStart
  repeat' first | with_reducible assumption | with_reducible exact State.Keeps.refl _ | with_reducible apply State.wr_keeps | with_reducible apply State.updTm_keeps | with_reducible apply State.gatesUpdate_keeps | with_reducible apply State.raise_keeps | with_reducible apply State.gateDrop_keeps | with_reducible apply keeping_next | ((with_reducible conv => arg 4; whnf); split)

theorem execQueueSample_keeps (k : Fin 9216) (s : State) : Keeping a b s (execQueueSample k s) := by
  unfold execQueueSample
  repeat' first | with_reducible assumption | with_reducible exact State.Keeps.refl _ | with_reducible apply State.ran_keeps | with_reducible apply State.satAdd_keeps | with_reducible apply State.telRecord_keeps | with_reducible apply keeping_next | fail_if_no_progress (with_reducible apply mk_keeps) | ((with_reducible conv => arg 4; whnf); split)

end Sys2Proof.Machine
end

