-- ==== Sys2Proof/Laws/PerInstr.lean ====
section
/-! SUPPORT. For each command: where a well-formed term names a requester, that requester reaches registers (R403, R413, R431). -/

set_option Elab.async false

namespace Sys2Proof.Laws.Row

/-- The requester that a command names; the window of a VF is the VF's own. -/
def sender : Instr → Option Requester
  | .rxTailWrite q _ _ => some q
  | .txTailWrite q _ _ => some q
  | .vfWindowAccess f _ _ _ => some (.vf f)
  | .harbRingCfgWrite q _ _ _ => some q
  | .intStatusWrite q _ _ _ => some q
  | .chipVecMapWrite q _ _ => some q
  | .dysCmdTailWrite q _ _ => some q
  | .laneBitslip q _ => some q
  | .portCtlEnable q _ _ => some q
  | .pipePortLiveWrite q _ _ _ => some q
  | .clsWriteData q _ _ _ _ => some q
  | .clsSetValid q _ _ => some q
  | .clsClearValid q _ _ => some q
  | .clsWriteAction q _ _ => some q
  | .clsRead q _ _ => some q
  | .ppeBankSwitch q _ _ => some q
  | .mtrWrite q _ => some q
  | .mtrWriteKeep q _ => some q
  | .mtrRead q _ => some q
  | .mcTsetWrite q _ _ _ => some q
  | .gateConfigChange q _ => some q
  | .gateCancel q _ => some q
  | .telFlowRd q => some q
  | .cntTblRead q _ _ => some q
  | .cntTblReadClear q _ _ => some q
  | .cntCtlVfWrite f _ _ => some (.vf f)
  | .cntUserPagesWrite q _ _ _ => some q
  | .lightStepGo q _ => some q
  | .lightReqAcquire q _ => some q
  | .lightReqLocked q _ => some q
  | .lightReqFree q _ => some q
  | .lightRateAdjWrite q _ _ => some q
  | .lightIncrWrite q _ _ => some q
  | .lightModeWrite q _ _ => some q
  | .ppsInTsRead q => some q
  | .tsfPop q _ => some q
  | .clkSwitch q => some q
  | .clkRefWrite q _ _ => some q
  | .pwrModeWrite q _ => some q
  | .pwrSaveWrite q _ => some q
  | .testSave q => some q
  | .bootPcieGo q => some q
  | .rasTmFire q => some q
  | .spareModeWrite q _ _ => some q
  | .dbgArmWrite q _ => some q
  | .lowWordRead q _ _ => some q
  | .lowWordWrite q _ _ => some q
  | .highWordWrite q _ _ => some q
  | .registerWrite q _ _ _ => some q
  | _ => none

/-- A requester outside the windows of the VFs is one of those that reach registers. -/
theorem any_of_host {q : Requester} (h : hostRequester q = true) : anyRequester q = true := by
  cases q <;> simp_all [hostRequester, anyRequester]

/-- The left side of a conjunction that holds. -/
theorem and_left {a b : Bool} (h : (a && b) = true) : a = true := by
  cases a <;> simp_all

/-- Where a well-formed command names a requester, the requester reaches registers. -/
def Statement (i : Instr) : Prop := ∀ q, sender i = some q → i.wf = true → anyRequester q = true

/-- A command without a requester. -/
theorem no_sender {i : Instr} (h : sender i = none) : Statement i := fun q e _ => by
  rw [h] at e; cases e

/-- A command with one. -/
theorem one_sender {i : Instr} {u : Requester} (h : sender i = some u) (k : i.wf = true → anyRequester u = true) : Statement i := fun q e w => by
  rw [h] at e; cases e; exact k w

theorem frameReceive (p : Fin 512) (rx : Reception) (sub : Fin 16) : Statement (.frameReceive p rx sub) := no_sender rfl
theorem ingressIssue (isl : Fin 16) (x : Fin 5) (faults : List (List MemFault)) : Statement (.ingressIssue isl x faults) := no_sender rfl
theorem recircIssue (i : Fin 16) (x : Fin 5) (faults : List MemFault) : Statement (.recircIssue i x faults) := no_sender rfl
theorem pipelineExit (i : Fin 16) (x : Fin 5) (sub : Fin 16) (faults : List MemFault) : Statement (.pipelineExit i x sub faults) := no_sender rfl
theorem deepPageWritten (q : Fin 8192) (seq : Fin 65536) : Statement (.deepPageWritten q seq) := no_sender rfl
theorem deepModeLeave (q : Fin 8192) : Statement (.deepModeLeave q) := no_sender rfl
theorem drainReadIssue (q : Fin 8192) : Statement (.drainReadIssue q) := no_sender rfl
theorem drainPageLand (q : Fin 8192) (seq : Fin 65536) (err : Fin 3) : Statement (.drainPageLand q seq err) := no_sender rfl
theorem cellGrant (d : Fin 2) (b : Fin 64) (n : Nat) : Statement (.cellGrant d b n) := no_sender rfl
theorem flitReceive (d : Fin 2) (b : Fin 64) (err : BitVec 2096) : Statement (.flitReceive d b err) := no_sender rfl
theorem flitNackReceive (d : Fin 2) (b : Fin 64) : Statement (.flitNackReceive d b) := no_sender rfl
theorem flitAckReceive (d : Fin 2) (b : Fin 64) : Statement (.flitAckReceive d b) := no_sender rfl
theorem creditReturn (d : Fin 2) (b : Fin 64) (vc : Fin 6) (n : Nat) : Statement (.creditReturn d b vc n) := no_sender rfl
theorem descEnqueue (pkt : Nat) : Statement (.descEnqueue pkt) := no_sender rfl
theorem bundleRetrain (d : Fin 2) (b : Fin 64) : Statement (.bundleRetrain d b) := no_sender rfl
theorem bundleTrainDone (d : Fin 2) (b : Fin 64) : Statement (.bundleTrainDone d b) := no_sender rfl
theorem bundleRetire (d : Fin 2) (b : Fin 64) : Statement (.bundleRetire d b) := no_sender rfl
theorem wireSwapStart (d : Fin 2) (b : Fin 64) (w : Fin 64) : Statement (.wireSwapStart d b w) := no_sender rfl
theorem wireSwapDone (d : Fin 2) (b : Fin 64) : Statement (.wireSwapDone d b) := no_sender rfl
theorem dequeueDecision (a : Fin 64) (sub : Fin 16) (errs : List (Nat × Bool)) (faults : List MemFault) : Statement (.dequeueDecision a sub errs faults) := no_sender rfl
theorem egressExit (i : Fin 16) (x : Fin 5) : Statement (.egressExit i x) := no_sender rfl
theorem frameSent (p : Fin 512) (sub : Fin 16) (errs : List (Nat × Bool)) : Statement (.frameSent p sub errs) := no_sender rfl
theorem pfcRefresh (p : Fin 512) : Statement (.pfcRefresh p) := no_sender rfl
theorem trapRefill (i : Fin 16) (r : Fin 64) : Statement (.trapRefill i r) := no_sender rfl
theorem rxTailWrite (u : Requester) (r : Fin 64) (tail : Fin 65536) : Statement (.rxTailWrite u r tail) := one_sender rfl (fun w => w)
theorem rxFrameWrite (bufs : List Nat) (errs : List (Nat × Bool)) : Statement (.rxFrameWrite bufs errs) := no_sender rfl
theorem rxItrExpire (r : Fin 64) : Statement (.rxItrExpire r) := no_sender rfl
theorem txTailWrite (u : Requester) (r : Fin 64) (tail : Fin 65536) : Statement (.txTailWrite u r tail) := one_sender rfl (fun w => w)
theorem txFrameRead (r : Fin 64) (ds : List (BitVec 256)) (data : Bytes) (sub : Fin 16) : Statement (.txFrameRead r ds data sub) := no_sender rfl
theorem hostInjectWaitExpire (i : Fin 16) (x : Fin 5) : Statement (.hostInjectWaitExpire i x) := no_sender rfl
theorem pcieLinkChange (up : Bool) (rate : Fin 6) (width : Fin 9) (flit : Bool) : Statement (.pcieLinkChange up rate width flit) := no_sender rfl
theorem functionLevelReset (f : Fin 32) : Statement (.functionLevelReset f) := no_sender rfl
theorem vfWindowAccess (f : Fin 32) (off : Fin 1048576) (size : Nat) (w : Option Nat) : Statement (.vfWindowAccess f off size w) := one_sender rfl (fun w => and_left (and_left w))
theorem harbRingCfgWrite (u : Requester) (tx : Bool) (r : Fin 64) (v : BitVec 32) : Statement (.harbRingCfgWrite u tx r v) := one_sender rfl (fun w => w)
theorem intStatusWrite (u : Requester) (b : Blk) (i : Nat) (v : BitVec 32) : Statement (.intStatusWrite u b i v) := one_sender rfl (fun w => any_of_host (and_left w))
theorem chipVecMapWrite (u : Requester) (b : Fin 39) (v : BitVec 32) : Statement (.chipVecMapWrite u b v) := one_sender rfl (fun w => any_of_host w)
theorem dysCmdTailWrite (u : Requester) (k : Fin 35) (tail : BitVec 32) : Statement (.dysCmdTailWrite u k tail) := one_sender rfl (fun w => w)
theorem dysDatagramReceive (e : Fin 2) (v6 : Bool) (src : Nat) (dst : Nat) (dport : Nat) (ver : Nat) (ty : Nat) (count : Nat) (seq : Nat) : Statement (.dysDatagramReceive e v6 src dst dport ver ty count seq) := no_sender rfl
theorem nop (h : DysHdr) : Statement (.nop h) := no_sender rfl
theorem regRead (h : DysHdr) (count : Fin 16) : Statement (.regRead h count) := no_sender rfl
theorem regWrite (h : DysHdr) (words : List (BitVec 32)) : Statement (.regWrite h words) := no_sender rfl
theorem portDefine (h : DysHdr) (d : PortDef) : Statement (.portDefine h d) := no_sender rfl
theorem portEnable (h : DysHdr) (on : Bool) : Statement (.portEnable h on) := no_sender rfl
theorem spareSwap (h : DysHdr) : Statement (.spareSwap h) := no_sender rfl
theorem sparePolicy (h : DysHdr) (op : PolicyOp) : Statement (.sparePolicy h op) := no_sender rfl
theorem spareReturn (h : DysHdr) : Statement (.spareReturn h) := no_sender rfl
theorem returnTestDone (pass : Bool) (step : BitVec 32) : Statement (.returnTestDone pass step) := no_sender rfl
theorem errlogRead (h : DysHdr) (seq : BitVec 32) (count : Nat) : Statement (.errlogRead h seq count) := no_sender rfl
theorem tidemarkFire (h : DysHdr) : Statement (.tidemarkFire h) := no_sender rfl
theorem sessionOpen (h : DysHdr) (o : AtlOpen) : Statement (.sessionOpen h o) := no_sender rfl
theorem sessionClose (h : DysHdr) : Statement (.sessionClose h) := no_sender rfl
theorem imageStage (h : DysHdr) (im : Image) (x : Fin 5) : Statement (.imageStage h im x) := no_sender rfl
theorem imageSwap (h : DysHdr) : Statement (.imageSwap h) := no_sender rfl
theorem imageCancel (h : DysHdr) : Statement (.imageCancel h) := no_sender rfl
theorem keyProgram (h : DysHdr) (digest : BitVec 384) : Statement (.keyProgram h digest) := no_sender rfl
theorem keyRevoke (h : DysHdr) : Statement (.keyRevoke h) := no_sender rfl
theorem svnRaise (h : DysHdr) (floor : Fin 128) : Statement (.svnRaise h floor) := no_sender rfl
theorem lightStep (h : DysHdr) (abs : Bool) (sec : BitVec 64) (ns : BitVec 32) (frac : BitVec 16) : Statement (.lightStep h abs sec ns frac) := no_sender rfl
theorem lightState (h : DysHdr) (req : Fin 8) : Statement (.lightState h req) := no_sender rfl
theorem capSet (h : DysHdr) (cap : BitVec 16) : Statement (.capSet h cap) := no_sender rfl
theorem telRead (h : DysHdr) : Statement (.telRead h) := no_sender rfl
theorem ringReset (h : DysHdr) (tx : Bool) : Statement (.ringReset h tx) := no_sender rfl
theorem sensorRead (h : DysHdr) : Statement (.sensorRead h) := no_sender rfl
theorem resetReq (h : DysHdr) : Statement (.resetReq h) := no_sender rfl
theorem laneEnable (l : Fin 544) : Statement (.laneEnable l) := no_sender rfl
theorem laneDisable (l : Fin 544) : Statement (.laneDisable l) := no_sender rfl
theorem trainingFrameReceive (l : Fin 544) (x : TrainIn) : Statement (.trainingFrameReceive l x) := no_sender rfl
theorem trainingTimeout (l : Fin 544) : Statement (.trainingTimeout l) := no_sender rfl
theorem adaptUpdate (l : Fin 544) (ctle : Int) (ffe : List Int) (settled : Bool) (req : Option (Fin 6 × Bool)) (offset : BitVec 16) : Statement (.adaptUpdate l ctle ffe settled req offset) := no_sender rfl
theorem blockLockAcquire (l : Fin 544) (offset : BitVec 16) (pos : Fin 66) (heads : List (BitVec 2)) : Statement (.blockLockAcquire l offset pos heads) := no_sender rfl
theorem lossOfLock (l : Fin 544) (heads : List (BitVec 2)) (words : List LineErr) (signal : Bool) (cdr : Bool) : Statement (.lossOfLock l heads words signal cdr) := no_sender rfl
theorem laneBitslip (u : Requester) (l : Fin 544) : Statement (.laneBitslip u l) := one_sender rfl (fun w => any_of_host w)
theorem portIdleEntry (p : Fin 512) : Statement (.portIdleEntry p) := no_sender rfl
theorem idleReqReceive (p : Fin 512) (block : BitVec 66) : Statement (.idleReqReceive p block) := no_sender rfl
theorem idleAckReceive (p : Fin 512) (block : BitVec 66) : Statement (.idleAckReceive p block) := no_sender rfl
theorem idleNakReceive (p : Fin 512) (block : BitVec 66) : Statement (.idleNakReceive p block) := no_sender rfl
theorem wakeBurstDetect (p : Fin 512) : Statement (.wakeBurstDetect p) := no_sender rfl
theorem wakeComplete (p : Fin 512) (tempOk : Bool) : Statement (.wakeComplete p tempOk) := no_sender rfl
theorem swapWindowClose (l : Fin 544) (words : List LineErr) (corner : Nat) : Statement (.swapWindowClose l words corner) := no_sender rfl
theorem swapReqReceive (p : Fin 512) (block : BitVec 66) (byCmd : Bool) : Statement (.swapReqReceive p block byCmd) := no_sender rfl
theorem swapAckReceive (p : Fin 512) (block : BitVec 66) : Statement (.swapAckReceive p block) := no_sender rfl
theorem swapNakReceive (p : Fin 512) (block : BitVec 66) : Statement (.swapNakReceive p block) := no_sender rfl
theorem swapAligned (p : Fin 512) (run : Nat) (skew : Int) : Statement (.swapAligned p run skew) := no_sender rfl
theorem swapDoneReceive (p : Fin 512) (block : BitVec 66) : Statement (.swapDoneReceive p block) := no_sender rfl
theorem swapAbortReceive (p : Fin 512) (block : BitVec 66) : Statement (.swapAbortReceive p block) := no_sender rfl
theorem swapTimeout (p : Fin 512) : Statement (.swapTimeout p) := no_sender rfl
theorem lmosRepeat (l : Fin 544) : Statement (.lmosRepeat l) := no_sender rfl
theorem portCtlEnable (u : Requester) (p : Fin 512) (on : Bool) : Statement (.portCtlEnable u p on) := one_sender rfl (fun w => any_of_host w)
theorem portLinkUp (p : Fin 512) (arrivals : List Nat) : Statement (.portLinkUp p arrivals) := no_sender rfl
theorem anComplete (p : Fin 512) (common : Bool) (an : BitVec 31) : Statement (.anComplete p common an) := no_sender rfl
theorem fecDegradeWindow (p : Fin 512) (corr : Nat) (uncorr : Nat) : Statement (.fecDegradeWindow p corr uncorr) := no_sender rfl
theorem helloSend (p : Fin 512) : Statement (.helloSend p) := no_sender rfl
theorem helloReceive (p : Fin 512) (frame : Bytes) (coding : Bool) : Statement (.helloReceive p frame coding) := no_sender rfl
theorem partnerExpire (p : Fin 512) : Statement (.partnerExpire p) := no_sender rfl
theorem macControlReceive (p : Fin 512) (frame : Bytes) (coding : Bool) : Statement (.macControlReceive p frame coding) := no_sender rfl
theorem pauseExpire (p : Fin 512) (g : Fin 8) : Statement (.pauseExpire p g) := no_sender rfl
theorem pipePortLiveWrite (u : Requester) (i : Fin 16) (w : Fin 16) (v : BitVec 32) : Statement (.pipePortLiveWrite u i w v) := one_sender rfl (fun w => any_of_host w)
theorem clsWriteData (u : Requester) (i : Fin 16) (d : Fin 2) (first : Fin 32) (last : Fin 32) : Statement (.clsWriteData u i d first last) := one_sender rfl (fun w => any_of_host w)
theorem clsSetValid (u : Requester) (i : Fin 16) (d : Fin 2) : Statement (.clsSetValid u i d) := one_sender rfl (fun w => any_of_host w)
theorem clsClearValid (u : Requester) (i : Fin 16) (d : Fin 2) : Statement (.clsClearValid u i d) := one_sender rfl (fun w => any_of_host w)
theorem clsWriteAction (u : Requester) (i : Fin 16) (d : Fin 2) : Statement (.clsWriteAction u i d) := one_sender rfl (fun w => any_of_host w)
theorem clsRead (u : Requester) (i : Fin 16) (d : Fin 2) : Statement (.clsRead u i d) := one_sender rfl (fun w => any_of_host w)
theorem ppeBankSwitch (u : Requester) (i : Fin 16) (active : Bool) : Statement (.ppeBankSwitch u i active) := one_sender rfl (fun w => any_of_host w)
theorem mtrWrite (u : Requester) (i : Fin 16) : Statement (.mtrWrite u i) := one_sender rfl (fun w => any_of_host w)
theorem mtrWriteKeep (u : Requester) (i : Fin 16) : Statement (.mtrWriteKeep u i) := one_sender rfl (fun w => any_of_host w)
theorem mtrRead (u : Requester) (i : Fin 16) : Statement (.mtrRead u i) := one_sender rfl (fun w => any_of_host w)
theorem loadingReady (i : Fin 16) (d : Fin 2) : Statement (.loadingReady i d) := no_sender rfl
theorem swapTargetEmpty (i : Fin 16) (d : Fin 2) : Statement (.swapTargetEmpty i d) := no_sender rfl
theorem fenceTimeout (i : Fin 16) (d : Fin 2) : Statement (.fenceTimeout i d) := no_sender rfl
theorem pipelineRetire (i : Fin 16) (x : Fin 10) : Statement (.pipelineRetire i x) := no_sender rfl
theorem pipelineFault (i : Fin 16) (x : Fin 10) : Statement (.pipelineFault i x) := no_sender rfl
theorem bankReplace (h : Fin 2) (b : Fin 34) : Statement (.bankReplace h b) := no_sender rfl
theorem alphaAdapt (k : Fin 9216) : Statement (.alphaAdapt k) := no_sender rfl
theorem bpmAlloc (a : Fin 256) (pool : Fin 4) (domain : Fin 64) : Statement (.bpmAlloc a pool domain) := no_sender rfl
theorem bpmAddRef (a : Fin 256) (h : BitVec 48) (n : BitVec 8) : Statement (.bpmAddRef a h n) := no_sender rfl
theorem bpmRelease (a : Fin 256) (h : BitVec 48) (uncorr : Bool) : Statement (.bpmRelease a h uncorr) := no_sender rfl
theorem bpmQuery (a : Fin 256) (h : BitVec 48) : Statement (.bpmQuery a h) := no_sender rfl
theorem bpmCacheRefill (d : Fin 2) (k : Fin 4) (part : Fin 2) : Statement (.bpmCacheRefill d k part) := no_sender rfl
theorem bpmCacheReturn (d : Fin 2) (k : Fin 4) (part : Fin 2) : Statement (.bpmCacheReturn d k part) := no_sender rfl
theorem mcRequest (st : Fin 6) (off : Nat) (len : Nat) (wr : Option Bytes) (rt : Bool) (client : Fin 256) : Statement (.mcRequest st off len wr rt client) := no_sender rfl
theorem mcRequestDone (st : Fin 6) (c : Fin 31) (errs : List (Nat × Nat)) : Statement (.mcRequestDone st c errs) := no_sender rfl
theorem refreshDue (st : Fin 6) (ch : Fin 32) (bank : Fin 16) : Statement (.refreshDue st ch bank) := no_sender rfl
theorem rowIdleClose (st : Fin 6) (pc : Fin 64) (bank : Fin 16) : Statement (.rowIdleClose st pc bank) := no_sender rfl
theorem idleTimerAdapt (st : Fin 6) (pc : Fin 64) : Statement (.idleTimerAdapt st pc) := no_sender rfl
theorem mcTsetWrite (u : Requester) (st : Fin 6) (target : Fin 4) (commits : Bool) : Statement (.mcTsetWrite u st target commits) := one_sender rfl (fun w => any_of_host w)
theorem tsetEntryRetry (st : Fin 6) (commits : Bool) : Statement (.tsetEntryRetry st commits) := no_sender rfl
theorem tsetChangeDone (st : Fin 6) : Statement (.tsetChangeDone st) := no_sender rfl
theorem srIdleEntry (st : Fin 6) : Statement (.srIdleEntry st) := no_sender rfl
theorem patrolScrub (st : Fin 6) (pins : Nat) : Statement (.patrolScrub st pins) := no_sender rfl
theorem hbmTempRead (st : Fin 6) (temp : Fin 256) : Statement (.hbmTempRead st temp) := no_sender rfl
theorem delayTracking (st : Fin 6) (ch : Fin 32) : Statement (.delayTracking st ch) := no_sender rfl
theorem hbmTrainingDone (st : Fin 6) (temp : Fin 256) (fail : Option (Fin 32)) : Statement (.hbmTrainingDone st temp fail) := no_sender rfl
theorem channelSpareStart (st : Fin 6) (c : Fin 31) : Statement (.channelSpareStart st c) := no_sender rfl
theorem channelCopyDone (st : Fin 6) : Statement (.channelCopyDone st) := no_sender rfl
theorem shaperRefill (n : Fin 23553) : Statement (.shaperRefill n) := no_sender rfl
theorem gateEdge (p : Fin 512) : Statement (.gateEdge p) := no_sender rfl
theorem gateConfigChange (u : Requester) (p : Fin 512) : Statement (.gateConfigChange u p) := one_sender rfl (fun w => any_of_host w)
theorem gateCancel (u : Requester) (p : Fin 512) : Statement (.gateCancel u p) := one_sender rfl (fun w => any_of_host w)
theorem gateListStart (p : Fin 512) : Statement (.gateListStart p) := no_sender rfl
theorem queueSample (k : Fin 9216) : Statement (.queueSample k) := no_sender rfl
theorem contribReceive (r : Fin 32) : Statement (.contribReceive r) := no_sender rfl
theorem chunkResultSend (n : Fin 4096) : Statement (.chunkResultSend n) := no_sender rfl
theorem resultReceive (r : Fin 32) : Statement (.resultReceive r) := no_sender rfl
theorem atollNackReceive (r : Fin 32) : Statement (.atollNackReceive r) := no_sender rfl
theorem holdOffReceive (r : Fin 32) : Statement (.holdOffReceive r) := no_sender rfl
theorem abortReceive (r : Fin 32) : Statement (.abortReceive r) := no_sender rfl
theorem nackDelayExpire (n : Fin 4096) (opseq : BitVec 32) (chunk : BitVec 32) : Statement (.nackDelayExpire n opseq chunk) := no_sender rfl
theorem chunkDeadline (n : Fin 4096) (opseq : BitVec 32) (chunk : BitVec 32) : Statement (.chunkDeadline n opseq chunk) := no_sender rfl
theorem holdOffSend (n : Fin 4096) : Statement (.holdOffSend n) := no_sender rfl
theorem engineReplace (e : Fin 36) : Statement (.engineReplace e) := no_sender rfl
theorem engineFault (e : Fin 36) (logic : Bool) : Statement (.engineFault e logic) := no_sender rfl
theorem exportFrameClose (c : Fin 16) (ty : Fin 5) : Statement (.exportFrameClose c ty) := no_sender rfl
theorem collectorRefill (c : Fin 16) : Statement (.collectorRefill c) := no_sender rfl
theorem flowSweep (die : Fin 2) (key : BitVec 64) : Statement (.flowSweep die key) := no_sender rfl
theorem telFlowRd (u : Requester) : Statement (.telFlowRd u) := one_sender rfl (fun w => any_of_host w)
theorem cntTblRead (u : Requester) (i : Fin 16) (d : Fin 2) : Statement (.cntTblRead u i d) := one_sender rfl (fun w => any_of_host w)
theorem cntTblReadClear (u : Requester) (i : Fin 16) (d : Fin 2) : Statement (.cntTblReadClear u i d) := one_sender rfl (fun w => any_of_host w)
theorem cntCtlVfWrite (f : Fin 32) (n : Fin 1088) (v : BitVec 32) : Statement (.cntCtlVfWrite f n v) := one_sender rfl (fun w => w)
theorem cntUserPagesWrite (u : Requester) (f : Fin 32) (w : Fin 3) (v : BitVec 32) : Statement (.cntUserPagesWrite u f w v) := one_sender rfl (fun w => any_of_host (and_left w))
theorem dumpEdge : Statement (.dumpEdge) := no_sender rfl
theorem dumpWriteDone : Statement (.dumpWriteDone) := no_sender rfl
theorem lightStepGo (u : Requester) (d : Fin 2) : Statement (.lightStepGo u d) := one_sender rfl (fun w => any_of_host w)
theorem lightReqAcquire (u : Requester) (d : Fin 2) : Statement (.lightReqAcquire u d) := one_sender rfl (fun w => any_of_host w)
theorem lightReqLocked (u : Requester) (d : Fin 2) : Statement (.lightReqLocked u d) := one_sender rfl (fun w => any_of_host w)
theorem lightReqFree (u : Requester) (d : Fin 2) : Statement (.lightReqFree u d) := one_sender rfl (fun w => any_of_host w)
theorem lightSnap (d : Fin 2) : Statement (.lightSnap d) := no_sender rfl
theorem lightKick (d : Fin 2) : Statement (.lightKick d) := no_sender rfl
theorem lightRateAdjWrite (u : Requester) (d : Fin 2) (adj : BitVec 40) : Statement (.lightRateAdjWrite u d adj) := one_sender rfl (fun w => any_of_host w)
theorem lightIncrWrite (u : Requester) (d : Fin 2) (incr : BitVec 40) : Statement (.lightIncrWrite u d incr) := one_sender rfl (fun w => any_of_host w)
theorem lightModeWrite (u : Requester) (d : Fin 2) (mode : Bool) : Statement (.lightModeWrite u d mode) := one_sender rfl (fun w => any_of_host w)
theorem watchdogExpire (d : Fin 2) : Statement (.watchdogExpire d) := no_sender rfl
theorem ppsInEdge (sub : Fin 16) : Statement (.ppsInEdge sub) := no_sender rfl
theorem ppsInMiss (d : Fin 2) : Statement (.ppsInMiss d) := no_sender rfl
theorem ppsInTsRead (u : Requester) : Statement (.ppsInTsRead u) := one_sender rfl (fun w => any_of_host w)
theorem ppsOutEdge : Statement (.ppsOutEdge) := no_sender rfl
theorem tenMhzPhase (phase : Fin 2560) : Statement (.tenMhzPhase phase) := no_sender rfl
theorem tsfPop (u : Requester) (i : Fin 16) : Statement (.tsfPop u i) := one_sender rfl (fun w => any_of_host w)
theorem timeCompareFire : Statement (.timeCompareFire) := no_sender rfl
theorem pllTakeover (refLost : Bool) : Statement (.pllTakeover refLost) := no_sender rfl
theorem pllRelockDone (k : Fin 2) : Statement (.pllRelockDone k) := no_sender rfl
theorem pllRelockTimeout (k : Fin 2) : Statement (.pllRelockTimeout k) := no_sender rfl
theorem pllAligned : Statement (.pllAligned) := no_sender rfl
theorem clkSwitch (u : Requester) : Statement (.clkSwitch u) := one_sender rfl (fun w => any_of_host w)
theorem clkRefWrite (u : Requester) (a : Bool) (b : Bool) : Statement (.clkRefWrite u a b) := one_sender rfl (fun w => any_of_host w)
theorem dividerSwitch (mv : Fin 1024) : Statement (.dividerSwitch mv) := no_sender rfl
theorem powerControlInterval (r : PwrReading) : Statement (.powerControlInterval r) := no_sender rfl
theorem capTakeback : Statement (.capTakeback) := no_sender rfl
theorem boostEntry : Statement (.boostEntry) := no_sender rfl
theorem pwrModeWrite (u : Requester) (mode : Bool) : Statement (.pwrModeWrite u mode) := one_sender rfl (fun w => any_of_host w)
theorem pwrSaveWrite (u : Requester) (save : Bool) : Statement (.pwrSaveWrite u save) := one_sender rfl (fun w => any_of_host w)
theorem pwrfailAssert : Statement (.pwrfailAssert) := no_sender rfl
theorem saveExit : Statement (.saveExit) := no_sender rfl
theorem vrAlert : Statement (.vrAlert) := no_sender rfl
theorem voltTrim (want : Option Bool) : Statement (.voltTrim want) := no_sender rfl
theorem droopDetect (det : Fin 64) : Statement (.droopDetect det) := no_sender rfl
theorem droopStretchEnd : Statement (.droopStretchEnd) := no_sender rfl
theorem currentLimit (amps : Nat) (watts : Nat) : Statement (.currentLimit amps watts) := no_sender rfl
theorem dutyRise : Statement (.dutyRise) := no_sender rfl
theorem thermalRead (temps : List (Fin 256)) : Statement (.thermalRead temps) := no_sender rfl
theorem throttleStep : Statement (.throttleStep) := no_sender rfl
theorem ageingMeasure (values : List (Fin 65536)) : Statement (.ageingMeasure values) := no_sender rfl
theorem announceSend : Statement (.announceSend) := no_sender rfl
theorem announceReceive (p : Fin 512) (frame : Bytes) : Statement (.announceReceive p frame) := no_sender rfl
theorem bestExpire : Statement (.bestExpire) := no_sender rfl
theorem reportSend : Statement (.reportSend) := no_sender rfl
theorem reportReceive (p : Fin 512) (frame : Bytes) : Statement (.reportReceive p frame) := no_sender rfl
theorem lagSend : Statement (.lagSend) := no_sender rfl
theorem lagReceive (p : Fin 512) (frame : Bytes) : Statement (.lagReceive p frame) := no_sender rfl
theorem grantCompute : Statement (.grantCompute) := no_sender rfl
theorem grantReceive (p : Fin 512) (frame : Bytes) : Statement (.grantReceive p frame) := no_sender rfl
theorem grantRevert : Statement (.grantRevert) := no_sender rfl
theorem keepSaveStart (trigger : Fin 3) : Statement (.keepSaveStart trigger) := no_sender rfl
theorem vkeepLow (mv : Fin 3000) : Statement (.vkeepLow mv) := no_sender rfl
theorem testSave (u : Requester) : Statement (.testSave u) := one_sender rfl (fun w => any_of_host w)
theorem keepSaveDone (n : Fin 8) (late : Fin 8) : Statement (.keepSaveDone n late) := no_sender rfl
theorem keepShadowUpdate (wear : Bool) : Statement (.keepShadowUpdate wear) := no_sender rfl
theorem deviceReset (cause : ResetCause) (src : Fin 4) (i2c : Bool) : Statement (.deviceReset cause src i2c) := no_sender rfl
theorem powerUpRails : Statement (.powerUpRails) := no_sender rfl
theorem fuseDone : Statement (.fuseDone) := no_sender rfl
theorem clockDone (ref0 : Bool) (ref1 : Bool) : Statement (.clockDone ref0 ref1) := no_sender rfl
theorem bootPcieGo (u : Requester) : Statement (.bootPcieGo u) := one_sender rfl (fun w => any_of_host w)
theorem fetchDone (image : Image) : Statement (.fetchDone image) := no_sender rfl
theorem verifyDone : Statement (.verifyDone) := no_sender rfl
theorem loadDone : Statement (.loadDone) := no_sender rfl
theorem restoreDone : Statement (.restoreDone) := no_sender rfl
theorem tidemarkInEdge : Statement (.tidemarkInEdge) := no_sender rfl
theorem rasTmFire (u : Requester) : Statement (.rasTmFire u) := one_sender rfl (fun w => any_of_host w)
theorem spareReqAge (n : Fin 16) : Statement (.spareReqAge n) := no_sender rfl
theorem spareModeWrite (u : Requester) (mode : Fin 4) (ask : Fin 256) : Statement (.spareModeWrite u mode ask) := one_sender rfl (fun w => any_of_host w)
theorem spareRateWindow (extra : List (Fin 8 × Nat × Nat)) : Statement (.spareRateWindow extra) := no_sender rfl
theorem ageingCheck : Statement (.ageingCheck) := no_sender rfl
theorem softRepair (mac : Nat) (line : Nat) (col : Bool) : Statement (.softRepair mac line col) := no_sender rfl
theorem tcamScrub (bad : List (Fin 32 × Nat × Nat)) : Statement (.tcamScrub bad) := no_sender rfl
theorem dbgArmWrite (u : Requester) (on : Bool) : Statement (.dbgArmWrite u on) := one_sender rfl (fun w => any_of_host w)
theorem jtagBypass (tdi : Bytes) : Statement (.jtagBypass tdi) := no_sender rfl
theorem jtagIdcode : Statement (.jtagIdcode) := no_sender rfl
theorem jtagSamplePreload (data : Bytes) : Statement (.jtagSamplePreload data) := no_sender rfl
theorem jtagExtest : Statement (.jtagExtest) := no_sender rfl
theorem jtagClamp : Statement (.jtagClamp) := no_sender rfl
theorem jtagHighz : Statement (.jtagHighz) := no_sender rfl
theorem jtagExtestPulse : Statement (.jtagExtestPulse) := no_sender rfl
theorem jtagExtestTrain : Statement (.jtagExtestTrain) := no_sender rfl
theorem jtagTmFire : Statement (.jtagTmFire) := no_sender rfl
theorem jtagTmRead : Statement (.jtagTmRead) := no_sender rfl
theorem jtagDevReset : Statement (.jtagDevReset) := no_sender rfl
theorem lowWordRead (u : Requester) (addr : BitVec 28) (size : Fin 9) : Statement (.lowWordRead u addr size) := one_sender rfl (fun w => and_left w)
theorem lowWordWrite (u : Requester) (addr : BitVec 28) (v : BitVec 32) : Statement (.lowWordWrite u addr v) := one_sender rfl (fun w => and_left w)
theorem highWordWrite (u : Requester) (addr : BitVec 28) (v : BitVec 32) : Statement (.highWordWrite u addr v) := one_sender rfl (fun w => and_left w)
theorem registerWrite (u : Requester) (addr : BitVec 28) (size : Fin 9) (v : BitVec 64) : Statement (.registerWrite u addr size v) := one_sender rfl (fun w => and_left (and_left w))
theorem timeTick (n : Nat) : Statement (.timeTick n) := no_sender rfl
theorem ppeLoadDone (i : Fin 16) (ok : Bool) : Statement (.ppeLoadDone i ok) := no_sender rfl
theorem loadFailed (i : Fin 16) (d : Fin 2) : Statement (.loadFailed i d) := no_sender rfl
theorem msixUnmask (owner : Fin 32) (v : Fin 1056) : Statement (.msixUnmask owner v) := no_sender rfl
theorem refclkStatusChange (r : Fin 2) (ok : Bool) (lock : Bool) : Statement (.refclkStatusChange r ok lock) := no_sender rfl

end Sys2Proof.Laws.Row
end

