-- ==== Sys2Proof/Laws/State.lean ====
section
/-! SUPPORT. One lemma per field of the state and update: what each update of the machine leaves as it is, so that no proof unfolds a record
update. -/

set_option Elab.async false

namespace Sys2Proof.Machine

/-! ### Updates of one field -/

section Wr
variable (s : State) (f : Fld) (v : Nat)

@[simp] theorem State.wr_pending : (s.wr f v).pending = s.pending := rfl
@[simp] theorem State.wr_latch : (s.wr f v).latch = s.latch := rfl
@[simp] theorem State.wr_held : (s.wr f v).held = s.held := rfl
@[simp] theorem State.wr_out : (s.wr f v).out = s.out := rfl
@[simp] theorem State.wr_free : (s.wr f v).free = s.free := rfl
@[simp] theorem State.wr_msixOn : (s.wr f v).msixOn = s.msixOn := rfl
@[simp] theorem State.wr_msixPend : (s.wr f v).msixPend = s.msixPend := rfl
@[simp] theorem State.wr_fuses : (s.wr f v).fuses = s.fuses := rfl
@[simp] theorem State.wr_domA : (s.wr f v).domA = s.domA := rfl
@[simp] theorem State.wr_domB : (s.wr f v).domB = s.domB := rfl
@[simp] theorem State.wr_tsf : (s.wr f v).tsf = s.tsf := rfl
@[simp] theorem State.wr_tsfLatch : (s.wr f v).tsfLatch = s.tsfLatch := rfl
@[simp] theorem State.wr_tsGap : (s.wr f v).tsGap = s.tsGap := rfl
@[simp] theorem State.wr_ppsLast : (s.wr f v).ppsLast = s.ppsLast := rfl
@[simp] theorem State.wr_ppsUnread : (s.wr f v).ppsUnread = s.ppsUnread := rfl
@[simp] theorem State.wr_cmpAt : (s.wr f v).cmpAt = s.cmpAt := rfl
@[simp] theorem State.wr_log : (s.wr f v).log = s.log := rfl
@[simp] theorem State.wr_fatalFirst : (s.wr f v).fatalFirst = s.fatalFirst := rfl
@[simp] theorem State.wr_fatalStop : (s.wr f v).fatalStop = s.fatalStop := rfl
@[simp] theorem State.wr_scanStop : (s.wr f v).scanStop = s.scanStop := rfl
@[simp] theorem State.wr_thermTrip : (s.wr f v).thermTrip = s.thermTrip := rfl
@[simp] theorem State.wr_tmLast : (s.wr f v).tmLast = s.tmLast := rfl
@[simp] theorem State.wr_snap : (s.wr f v).snap = s.snap := rfl
@[simp] theorem State.wr_dump : (s.wr f v).dump = s.dump := rfl
@[simp] theorem State.wr_dumpMissed : (s.wr f v).dumpMissed = s.dumpMissed := rfl
@[simp] theorem State.wr_dumpStep : (s.wr f v).dumpStep = s.dumpStep := rfl
@[simp] theorem State.wr_dumpFrom : (s.wr f v).dumpFrom = s.dumpFrom := rfl
@[simp] theorem State.wr_histDump : (s.wr f v).histDump = s.histDump := rfl
@[simp] theorem State.wr_dys : (s.wr f v).dys = s.dys := rfl
@[simp] theorem State.wr_spareMap : (s.wr f v).spareMap = s.spareMap := rfl
@[simp] theorem State.wr_laneX : (s.wr f v).laneX = s.laneX := rfl
@[simp] theorem State.wr_portX : (s.wr f v).portX = s.portX := rfl
@[simp] theorem State.wr_laneMap : (s.wr f v).laneMap = s.laneMap := rfl
@[simp] theorem State.wr_swaps : (s.wr f v).swaps = s.swaps := rfl
@[simp] theorem State.wr_lmosWait : (s.wr f v).lmosWait = s.lmosWait := rfl
@[simp] theorem State.wr_pauseEnd : (s.wr f v).pauseEnd = s.pauseEnd := rfl
@[simp] theorem State.wr_timers : (s.wr f v).timers = s.timers := rfl
@[simp] theorem State.wr_hbm : (s.wr f v).hbm = s.hbm := rfl
@[simp] theorem State.wr_path : (s.wr f v).path = s.path := rfl
@[simp] theorem State.wr_tm : (s.wr f v).tm = s.tm := rfl
@[simp] theorem State.wr_mat : (s.wr f v).mat = s.mat := rfl
@[simp] theorem State.wr_tel : (s.wr f v).tel = s.tel := rfl
@[simp] theorem State.wr_bpm : (s.wr f v).bpm = s.bpm := rfl
@[simp] theorem State.wr_mc : (s.wr f v).mc = s.mc := rfl
@[simp] theorem State.wr_atl : (s.wr f v).atl = s.atl := rfl
@[simp] theorem State.wr_ras : (s.wr f v).ras = s.ras := rfl
@[simp] theorem State.wr_boot : (s.wr f v).boot = s.boot := rfl
@[simp] theorem State.wr_pwr : (s.wr f v).pwr = s.pwr := rfl
@[simp] theorem State.wr_keep : (s.wr f v).keep = s.keep := rfl
@[simp] theorem State.wr_harb : (s.wr f v).harb = s.harb := rfl

end Wr

section Wrb
variable (s : State) (f : Fld) (b : Bool)

@[simp] theorem State.wrB_pending : (s.wrB f b).pending = s.pending := rfl
@[simp] theorem State.wrB_latch : (s.wrB f b).latch = s.latch := rfl
@[simp] theorem State.wrB_held : (s.wrB f b).held = s.held := rfl
@[simp] theorem State.wrB_out : (s.wrB f b).out = s.out := rfl
@[simp] theorem State.wrB_free : (s.wrB f b).free = s.free := rfl
@[simp] theorem State.wrB_msixOn : (s.wrB f b).msixOn = s.msixOn := rfl
@[simp] theorem State.wrB_msixPend : (s.wrB f b).msixPend = s.msixPend := rfl
@[simp] theorem State.wrB_fuses : (s.wrB f b).fuses = s.fuses := rfl
@[simp] theorem State.wrB_domA : (s.wrB f b).domA = s.domA := rfl
@[simp] theorem State.wrB_domB : (s.wrB f b).domB = s.domB := rfl
@[simp] theorem State.wrB_tsf : (s.wrB f b).tsf = s.tsf := rfl
@[simp] theorem State.wrB_tsfLatch : (s.wrB f b).tsfLatch = s.tsfLatch := rfl
@[simp] theorem State.wrB_tsGap : (s.wrB f b).tsGap = s.tsGap := rfl
@[simp] theorem State.wrB_ppsLast : (s.wrB f b).ppsLast = s.ppsLast := rfl
@[simp] theorem State.wrB_ppsUnread : (s.wrB f b).ppsUnread = s.ppsUnread := rfl
@[simp] theorem State.wrB_cmpAt : (s.wrB f b).cmpAt = s.cmpAt := rfl
@[simp] theorem State.wrB_log : (s.wrB f b).log = s.log := rfl
@[simp] theorem State.wrB_fatalFirst : (s.wrB f b).fatalFirst = s.fatalFirst := rfl
@[simp] theorem State.wrB_fatalStop : (s.wrB f b).fatalStop = s.fatalStop := rfl
@[simp] theorem State.wrB_scanStop : (s.wrB f b).scanStop = s.scanStop := rfl
@[simp] theorem State.wrB_thermTrip : (s.wrB f b).thermTrip = s.thermTrip := rfl
@[simp] theorem State.wrB_tmLast : (s.wrB f b).tmLast = s.tmLast := rfl
@[simp] theorem State.wrB_snap : (s.wrB f b).snap = s.snap := rfl
@[simp] theorem State.wrB_dump : (s.wrB f b).dump = s.dump := rfl
@[simp] theorem State.wrB_dumpMissed : (s.wrB f b).dumpMissed = s.dumpMissed := rfl
@[simp] theorem State.wrB_dumpStep : (s.wrB f b).dumpStep = s.dumpStep := rfl
@[simp] theorem State.wrB_dumpFrom : (s.wrB f b).dumpFrom = s.dumpFrom := rfl
@[simp] theorem State.wrB_histDump : (s.wrB f b).histDump = s.histDump := rfl
@[simp] theorem State.wrB_dys : (s.wrB f b).dys = s.dys := rfl
@[simp] theorem State.wrB_spareMap : (s.wrB f b).spareMap = s.spareMap := rfl
@[simp] theorem State.wrB_laneX : (s.wrB f b).laneX = s.laneX := rfl
@[simp] theorem State.wrB_portX : (s.wrB f b).portX = s.portX := rfl
@[simp] theorem State.wrB_laneMap : (s.wrB f b).laneMap = s.laneMap := rfl
@[simp] theorem State.wrB_swaps : (s.wrB f b).swaps = s.swaps := rfl
@[simp] theorem State.wrB_lmosWait : (s.wrB f b).lmosWait = s.lmosWait := rfl
@[simp] theorem State.wrB_pauseEnd : (s.wrB f b).pauseEnd = s.pauseEnd := rfl
@[simp] theorem State.wrB_timers : (s.wrB f b).timers = s.timers := rfl
@[simp] theorem State.wrB_hbm : (s.wrB f b).hbm = s.hbm := rfl
@[simp] theorem State.wrB_path : (s.wrB f b).path = s.path := rfl
@[simp] theorem State.wrB_tm : (s.wrB f b).tm = s.tm := rfl
@[simp] theorem State.wrB_mat : (s.wrB f b).mat = s.mat := rfl
@[simp] theorem State.wrB_tel : (s.wrB f b).tel = s.tel := rfl
@[simp] theorem State.wrB_bpm : (s.wrB f b).bpm = s.bpm := rfl
@[simp] theorem State.wrB_mc : (s.wrB f b).mc = s.mc := rfl
@[simp] theorem State.wrB_atl : (s.wrB f b).atl = s.atl := rfl
@[simp] theorem State.wrB_ras : (s.wrB f b).ras = s.ras := rfl
@[simp] theorem State.wrB_boot : (s.wrB f b).boot = s.boot := rfl
@[simp] theorem State.wrB_pwr : (s.wrB f b).pwr = s.pwr := rfl
@[simp] theorem State.wrB_keep : (s.wrB f b).keep = s.keep := rfl
@[simp] theorem State.wrB_harb : (s.wrB f b).harb = s.harb := rfl

end Wrb

section Satadd
variable (s : State) (f : Fld) (n : Nat)

@[simp] theorem State.satAdd_pending : (s.satAdd f n).pending = s.pending := rfl
@[simp] theorem State.satAdd_latch : (s.satAdd f n).latch = s.latch := rfl
@[simp] theorem State.satAdd_held : (s.satAdd f n).held = s.held := rfl
@[simp] theorem State.satAdd_out : (s.satAdd f n).out = s.out := rfl
@[simp] theorem State.satAdd_free : (s.satAdd f n).free = s.free := rfl
@[simp] theorem State.satAdd_msixOn : (s.satAdd f n).msixOn = s.msixOn := rfl
@[simp] theorem State.satAdd_msixPend : (s.satAdd f n).msixPend = s.msixPend := rfl
@[simp] theorem State.satAdd_fuses : (s.satAdd f n).fuses = s.fuses := rfl
@[simp] theorem State.satAdd_domA : (s.satAdd f n).domA = s.domA := rfl
@[simp] theorem State.satAdd_domB : (s.satAdd f n).domB = s.domB := rfl
@[simp] theorem State.satAdd_tsf : (s.satAdd f n).tsf = s.tsf := rfl
@[simp] theorem State.satAdd_tsfLatch : (s.satAdd f n).tsfLatch = s.tsfLatch := rfl
@[simp] theorem State.satAdd_tsGap : (s.satAdd f n).tsGap = s.tsGap := rfl
@[simp] theorem State.satAdd_ppsLast : (s.satAdd f n).ppsLast = s.ppsLast := rfl
@[simp] theorem State.satAdd_ppsUnread : (s.satAdd f n).ppsUnread = s.ppsUnread := rfl
@[simp] theorem State.satAdd_cmpAt : (s.satAdd f n).cmpAt = s.cmpAt := rfl
@[simp] theorem State.satAdd_log : (s.satAdd f n).log = s.log := rfl
@[simp] theorem State.satAdd_fatalFirst : (s.satAdd f n).fatalFirst = s.fatalFirst := rfl
@[simp] theorem State.satAdd_fatalStop : (s.satAdd f n).fatalStop = s.fatalStop := rfl
@[simp] theorem State.satAdd_scanStop : (s.satAdd f n).scanStop = s.scanStop := rfl
@[simp] theorem State.satAdd_thermTrip : (s.satAdd f n).thermTrip = s.thermTrip := rfl
@[simp] theorem State.satAdd_tmLast : (s.satAdd f n).tmLast = s.tmLast := rfl
@[simp] theorem State.satAdd_snap : (s.satAdd f n).snap = s.snap := rfl
@[simp] theorem State.satAdd_dump : (s.satAdd f n).dump = s.dump := rfl
@[simp] theorem State.satAdd_dumpMissed : (s.satAdd f n).dumpMissed = s.dumpMissed := rfl
@[simp] theorem State.satAdd_dumpStep : (s.satAdd f n).dumpStep = s.dumpStep := rfl
@[simp] theorem State.satAdd_dumpFrom : (s.satAdd f n).dumpFrom = s.dumpFrom := rfl
@[simp] theorem State.satAdd_histDump : (s.satAdd f n).histDump = s.histDump := rfl
@[simp] theorem State.satAdd_dys : (s.satAdd f n).dys = s.dys := rfl
@[simp] theorem State.satAdd_spareMap : (s.satAdd f n).spareMap = s.spareMap := rfl
@[simp] theorem State.satAdd_laneX : (s.satAdd f n).laneX = s.laneX := rfl
@[simp] theorem State.satAdd_portX : (s.satAdd f n).portX = s.portX := rfl
@[simp] theorem State.satAdd_laneMap : (s.satAdd f n).laneMap = s.laneMap := rfl
@[simp] theorem State.satAdd_swaps : (s.satAdd f n).swaps = s.swaps := rfl
@[simp] theorem State.satAdd_lmosWait : (s.satAdd f n).lmosWait = s.lmosWait := rfl
@[simp] theorem State.satAdd_pauseEnd : (s.satAdd f n).pauseEnd = s.pauseEnd := rfl
@[simp] theorem State.satAdd_timers : (s.satAdd f n).timers = s.timers := rfl
@[simp] theorem State.satAdd_hbm : (s.satAdd f n).hbm = s.hbm := rfl
@[simp] theorem State.satAdd_path : (s.satAdd f n).path = s.path := rfl
@[simp] theorem State.satAdd_tm : (s.satAdd f n).tm = s.tm := rfl
@[simp] theorem State.satAdd_mat : (s.satAdd f n).mat = s.mat := rfl
@[simp] theorem State.satAdd_tel : (s.satAdd f n).tel = s.tel := rfl
@[simp] theorem State.satAdd_bpm : (s.satAdd f n).bpm = s.bpm := rfl
@[simp] theorem State.satAdd_mc : (s.satAdd f n).mc = s.mc := rfl
@[simp] theorem State.satAdd_atl : (s.satAdd f n).atl = s.atl := rfl
@[simp] theorem State.satAdd_ras : (s.satAdd f n).ras = s.ras := rfl
@[simp] theorem State.satAdd_boot : (s.satAdd f n).boot = s.boot := rfl
@[simp] theorem State.satAdd_pwr : (s.satAdd f n).pwr = s.pwr := rfl
@[simp] theorem State.satAdd_keep : (s.satAdd f n).keep = s.keep := rfl
@[simp] theorem State.satAdd_harb : (s.satAdd f n).harb = s.harb := rfl

end Satadd

section Wrapadd
variable (s : State) (f : Fld) (n : Nat)

@[simp] theorem State.wrapAdd_pending : (s.wrapAdd f n).pending = s.pending := rfl
@[simp] theorem State.wrapAdd_latch : (s.wrapAdd f n).latch = s.latch := rfl
@[simp] theorem State.wrapAdd_held : (s.wrapAdd f n).held = s.held := rfl
@[simp] theorem State.wrapAdd_out : (s.wrapAdd f n).out = s.out := rfl
@[simp] theorem State.wrapAdd_free : (s.wrapAdd f n).free = s.free := rfl
@[simp] theorem State.wrapAdd_msixOn : (s.wrapAdd f n).msixOn = s.msixOn := rfl
@[simp] theorem State.wrapAdd_msixPend : (s.wrapAdd f n).msixPend = s.msixPend := rfl
@[simp] theorem State.wrapAdd_fuses : (s.wrapAdd f n).fuses = s.fuses := rfl
@[simp] theorem State.wrapAdd_domA : (s.wrapAdd f n).domA = s.domA := rfl
@[simp] theorem State.wrapAdd_domB : (s.wrapAdd f n).domB = s.domB := rfl
@[simp] theorem State.wrapAdd_tsf : (s.wrapAdd f n).tsf = s.tsf := rfl
@[simp] theorem State.wrapAdd_tsfLatch : (s.wrapAdd f n).tsfLatch = s.tsfLatch := rfl
@[simp] theorem State.wrapAdd_tsGap : (s.wrapAdd f n).tsGap = s.tsGap := rfl
@[simp] theorem State.wrapAdd_ppsLast : (s.wrapAdd f n).ppsLast = s.ppsLast := rfl
@[simp] theorem State.wrapAdd_ppsUnread : (s.wrapAdd f n).ppsUnread = s.ppsUnread := rfl
@[simp] theorem State.wrapAdd_cmpAt : (s.wrapAdd f n).cmpAt = s.cmpAt := rfl
@[simp] theorem State.wrapAdd_log : (s.wrapAdd f n).log = s.log := rfl
@[simp] theorem State.wrapAdd_fatalFirst : (s.wrapAdd f n).fatalFirst = s.fatalFirst := rfl
@[simp] theorem State.wrapAdd_fatalStop : (s.wrapAdd f n).fatalStop = s.fatalStop := rfl
@[simp] theorem State.wrapAdd_scanStop : (s.wrapAdd f n).scanStop = s.scanStop := rfl
@[simp] theorem State.wrapAdd_thermTrip : (s.wrapAdd f n).thermTrip = s.thermTrip := rfl
@[simp] theorem State.wrapAdd_tmLast : (s.wrapAdd f n).tmLast = s.tmLast := rfl
@[simp] theorem State.wrapAdd_snap : (s.wrapAdd f n).snap = s.snap := rfl
@[simp] theorem State.wrapAdd_dump : (s.wrapAdd f n).dump = s.dump := rfl
@[simp] theorem State.wrapAdd_dumpMissed : (s.wrapAdd f n).dumpMissed = s.dumpMissed := rfl
@[simp] theorem State.wrapAdd_dumpStep : (s.wrapAdd f n).dumpStep = s.dumpStep := rfl
@[simp] theorem State.wrapAdd_dumpFrom : (s.wrapAdd f n).dumpFrom = s.dumpFrom := rfl
@[simp] theorem State.wrapAdd_histDump : (s.wrapAdd f n).histDump = s.histDump := rfl
@[simp] theorem State.wrapAdd_dys : (s.wrapAdd f n).dys = s.dys := rfl
@[simp] theorem State.wrapAdd_spareMap : (s.wrapAdd f n).spareMap = s.spareMap := rfl
@[simp] theorem State.wrapAdd_laneX : (s.wrapAdd f n).laneX = s.laneX := rfl
@[simp] theorem State.wrapAdd_portX : (s.wrapAdd f n).portX = s.portX := rfl
@[simp] theorem State.wrapAdd_laneMap : (s.wrapAdd f n).laneMap = s.laneMap := rfl
@[simp] theorem State.wrapAdd_swaps : (s.wrapAdd f n).swaps = s.swaps := rfl
@[simp] theorem State.wrapAdd_lmosWait : (s.wrapAdd f n).lmosWait = s.lmosWait := rfl
@[simp] theorem State.wrapAdd_pauseEnd : (s.wrapAdd f n).pauseEnd = s.pauseEnd := rfl
@[simp] theorem State.wrapAdd_timers : (s.wrapAdd f n).timers = s.timers := rfl
@[simp] theorem State.wrapAdd_hbm : (s.wrapAdd f n).hbm = s.hbm := rfl
@[simp] theorem State.wrapAdd_path : (s.wrapAdd f n).path = s.path := rfl
@[simp] theorem State.wrapAdd_tm : (s.wrapAdd f n).tm = s.tm := rfl
@[simp] theorem State.wrapAdd_mat : (s.wrapAdd f n).mat = s.mat := rfl
@[simp] theorem State.wrapAdd_tel : (s.wrapAdd f n).tel = s.tel := rfl
@[simp] theorem State.wrapAdd_bpm : (s.wrapAdd f n).bpm = s.bpm := rfl
@[simp] theorem State.wrapAdd_mc : (s.wrapAdd f n).mc = s.mc := rfl
@[simp] theorem State.wrapAdd_atl : (s.wrapAdd f n).atl = s.atl := rfl
@[simp] theorem State.wrapAdd_ras : (s.wrapAdd f n).ras = s.ras := rfl
@[simp] theorem State.wrapAdd_boot : (s.wrapAdd f n).boot = s.boot := rfl
@[simp] theorem State.wrapAdd_pwr : (s.wrapAdd f n).pwr = s.pwr := rfl
@[simp] theorem State.wrapAdd_keep : (s.wrapAdd f n).keep = s.keep := rfl
@[simp] theorem State.wrapAdd_harb : (s.wrapAdd f n).harb = s.harb := rfl

end Wrapadd

section Subfrom
variable (s : State) (f : Fld) (n : Nat)

@[simp] theorem State.subFrom_pending : (s.subFrom f n).pending = s.pending := rfl
@[simp] theorem State.subFrom_latch : (s.subFrom f n).latch = s.latch := rfl
@[simp] theorem State.subFrom_held : (s.subFrom f n).held = s.held := rfl
@[simp] theorem State.subFrom_out : (s.subFrom f n).out = s.out := rfl
@[simp] theorem State.subFrom_free : (s.subFrom f n).free = s.free := rfl
@[simp] theorem State.subFrom_msixOn : (s.subFrom f n).msixOn = s.msixOn := rfl
@[simp] theorem State.subFrom_msixPend : (s.subFrom f n).msixPend = s.msixPend := rfl
@[simp] theorem State.subFrom_fuses : (s.subFrom f n).fuses = s.fuses := rfl
@[simp] theorem State.subFrom_domA : (s.subFrom f n).domA = s.domA := rfl
@[simp] theorem State.subFrom_domB : (s.subFrom f n).domB = s.domB := rfl
@[simp] theorem State.subFrom_tsf : (s.subFrom f n).tsf = s.tsf := rfl
@[simp] theorem State.subFrom_tsfLatch : (s.subFrom f n).tsfLatch = s.tsfLatch := rfl
@[simp] theorem State.subFrom_tsGap : (s.subFrom f n).tsGap = s.tsGap := rfl
@[simp] theorem State.subFrom_ppsLast : (s.subFrom f n).ppsLast = s.ppsLast := rfl
@[simp] theorem State.subFrom_ppsUnread : (s.subFrom f n).ppsUnread = s.ppsUnread := rfl
@[simp] theorem State.subFrom_cmpAt : (s.subFrom f n).cmpAt = s.cmpAt := rfl
@[simp] theorem State.subFrom_log : (s.subFrom f n).log = s.log := rfl
@[simp] theorem State.subFrom_fatalFirst : (s.subFrom f n).fatalFirst = s.fatalFirst := rfl
@[simp] theorem State.subFrom_fatalStop : (s.subFrom f n).fatalStop = s.fatalStop := rfl
@[simp] theorem State.subFrom_scanStop : (s.subFrom f n).scanStop = s.scanStop := rfl
@[simp] theorem State.subFrom_thermTrip : (s.subFrom f n).thermTrip = s.thermTrip := rfl
@[simp] theorem State.subFrom_tmLast : (s.subFrom f n).tmLast = s.tmLast := rfl
@[simp] theorem State.subFrom_snap : (s.subFrom f n).snap = s.snap := rfl
@[simp] theorem State.subFrom_dump : (s.subFrom f n).dump = s.dump := rfl
@[simp] theorem State.subFrom_dumpMissed : (s.subFrom f n).dumpMissed = s.dumpMissed := rfl
@[simp] theorem State.subFrom_dumpStep : (s.subFrom f n).dumpStep = s.dumpStep := rfl
@[simp] theorem State.subFrom_dumpFrom : (s.subFrom f n).dumpFrom = s.dumpFrom := rfl
@[simp] theorem State.subFrom_histDump : (s.subFrom f n).histDump = s.histDump := rfl
@[simp] theorem State.subFrom_dys : (s.subFrom f n).dys = s.dys := rfl
@[simp] theorem State.subFrom_spareMap : (s.subFrom f n).spareMap = s.spareMap := rfl
@[simp] theorem State.subFrom_laneX : (s.subFrom f n).laneX = s.laneX := rfl
@[simp] theorem State.subFrom_portX : (s.subFrom f n).portX = s.portX := rfl
@[simp] theorem State.subFrom_laneMap : (s.subFrom f n).laneMap = s.laneMap := rfl
@[simp] theorem State.subFrom_swaps : (s.subFrom f n).swaps = s.swaps := rfl
@[simp] theorem State.subFrom_lmosWait : (s.subFrom f n).lmosWait = s.lmosWait := rfl
@[simp] theorem State.subFrom_pauseEnd : (s.subFrom f n).pauseEnd = s.pauseEnd := rfl
@[simp] theorem State.subFrom_timers : (s.subFrom f n).timers = s.timers := rfl
@[simp] theorem State.subFrom_hbm : (s.subFrom f n).hbm = s.hbm := rfl
@[simp] theorem State.subFrom_path : (s.subFrom f n).path = s.path := rfl
@[simp] theorem State.subFrom_tm : (s.subFrom f n).tm = s.tm := rfl
@[simp] theorem State.subFrom_mat : (s.subFrom f n).mat = s.mat := rfl
@[simp] theorem State.subFrom_tel : (s.subFrom f n).tel = s.tel := rfl
@[simp] theorem State.subFrom_bpm : (s.subFrom f n).bpm = s.bpm := rfl
@[simp] theorem State.subFrom_mc : (s.subFrom f n).mc = s.mc := rfl
@[simp] theorem State.subFrom_atl : (s.subFrom f n).atl = s.atl := rfl
@[simp] theorem State.subFrom_ras : (s.subFrom f n).ras = s.ras := rfl
@[simp] theorem State.subFrom_boot : (s.subFrom f n).boot = s.boot := rfl
@[simp] theorem State.subFrom_pwr : (s.subFrom f n).pwr = s.pwr := rfl
@[simp] theorem State.subFrom_keep : (s.subFrom f n).keep = s.keep := rfl
@[simp] theorem State.subFrom_harb : (s.subFrom f n).harb = s.harb := rfl

end Subfrom

section Emit
variable (s : State) (o : Out)

@[simp] theorem State.emit_pending : (s.emit o).pending = s.pending := rfl
@[simp] theorem State.emit_regs : (s.emit o).regs = s.regs := rfl
@[simp] theorem State.emit_latch : (s.emit o).latch = s.latch := rfl
@[simp] theorem State.emit_held : (s.emit o).held = s.held := rfl
@[simp] theorem State.emit_free : (s.emit o).free = s.free := rfl
@[simp] theorem State.emit_msixOn : (s.emit o).msixOn = s.msixOn := rfl
@[simp] theorem State.emit_msixPend : (s.emit o).msixPend = s.msixPend := rfl
@[simp] theorem State.emit_fuses : (s.emit o).fuses = s.fuses := rfl
@[simp] theorem State.emit_domA : (s.emit o).domA = s.domA := rfl
@[simp] theorem State.emit_domB : (s.emit o).domB = s.domB := rfl
@[simp] theorem State.emit_tsf : (s.emit o).tsf = s.tsf := rfl
@[simp] theorem State.emit_tsfLatch : (s.emit o).tsfLatch = s.tsfLatch := rfl
@[simp] theorem State.emit_tsGap : (s.emit o).tsGap = s.tsGap := rfl
@[simp] theorem State.emit_ppsLast : (s.emit o).ppsLast = s.ppsLast := rfl
@[simp] theorem State.emit_ppsUnread : (s.emit o).ppsUnread = s.ppsUnread := rfl
@[simp] theorem State.emit_cmpAt : (s.emit o).cmpAt = s.cmpAt := rfl
@[simp] theorem State.emit_log : (s.emit o).log = s.log := rfl
@[simp] theorem State.emit_fatalFirst : (s.emit o).fatalFirst = s.fatalFirst := rfl
@[simp] theorem State.emit_fatalStop : (s.emit o).fatalStop = s.fatalStop := rfl
@[simp] theorem State.emit_scanStop : (s.emit o).scanStop = s.scanStop := rfl
@[simp] theorem State.emit_thermTrip : (s.emit o).thermTrip = s.thermTrip := rfl
@[simp] theorem State.emit_tmLast : (s.emit o).tmLast = s.tmLast := rfl
@[simp] theorem State.emit_snap : (s.emit o).snap = s.snap := rfl
@[simp] theorem State.emit_dump : (s.emit o).dump = s.dump := rfl
@[simp] theorem State.emit_dumpMissed : (s.emit o).dumpMissed = s.dumpMissed := rfl
@[simp] theorem State.emit_dumpStep : (s.emit o).dumpStep = s.dumpStep := rfl
@[simp] theorem State.emit_dumpFrom : (s.emit o).dumpFrom = s.dumpFrom := rfl
@[simp] theorem State.emit_histDump : (s.emit o).histDump = s.histDump := rfl
@[simp] theorem State.emit_dys : (s.emit o).dys = s.dys := rfl
@[simp] theorem State.emit_spareMap : (s.emit o).spareMap = s.spareMap := rfl
@[simp] theorem State.emit_laneX : (s.emit o).laneX = s.laneX := rfl
@[simp] theorem State.emit_portX : (s.emit o).portX = s.portX := rfl
@[simp] theorem State.emit_laneMap : (s.emit o).laneMap = s.laneMap := rfl
@[simp] theorem State.emit_swaps : (s.emit o).swaps = s.swaps := rfl
@[simp] theorem State.emit_lmosWait : (s.emit o).lmosWait = s.lmosWait := rfl
@[simp] theorem State.emit_pauseEnd : (s.emit o).pauseEnd = s.pauseEnd := rfl
@[simp] theorem State.emit_timers : (s.emit o).timers = s.timers := rfl
@[simp] theorem State.emit_hbm : (s.emit o).hbm = s.hbm := rfl
@[simp] theorem State.emit_path : (s.emit o).path = s.path := rfl
@[simp] theorem State.emit_tm : (s.emit o).tm = s.tm := rfl
@[simp] theorem State.emit_mat : (s.emit o).mat = s.mat := rfl
@[simp] theorem State.emit_tel : (s.emit o).tel = s.tel := rfl
@[simp] theorem State.emit_bpm : (s.emit o).bpm = s.bpm := rfl
@[simp] theorem State.emit_mc : (s.emit o).mc = s.mc := rfl
@[simp] theorem State.emit_atl : (s.emit o).atl = s.atl := rfl
@[simp] theorem State.emit_ras : (s.emit o).ras = s.ras := rfl
@[simp] theorem State.emit_boot : (s.emit o).boot = s.boot := rfl
@[simp] theorem State.emit_pwr : (s.emit o).pwr = s.pwr := rfl
@[simp] theorem State.emit_keep : (s.emit o).keep = s.keep := rfl
@[simp] theorem State.emit_harb : (s.emit o).harb = s.harb := rfl
@[simp] theorem State.emit_out : (s.emit o).out = o :: s.out := rfl

end Emit

section Ran
variable (s : State) (k : Timer) (i t : Nat)

@[simp] theorem State.ran_pending : (s.ran k i t).pending = s.pending := rfl
@[simp] theorem State.ran_regs : (s.ran k i t).regs = s.regs := rfl
@[simp] theorem State.ran_latch : (s.ran k i t).latch = s.latch := rfl
@[simp] theorem State.ran_held : (s.ran k i t).held = s.held := rfl
@[simp] theorem State.ran_out : (s.ran k i t).out = s.out := rfl
@[simp] theorem State.ran_free : (s.ran k i t).free = s.free := rfl
@[simp] theorem State.ran_msixOn : (s.ran k i t).msixOn = s.msixOn := rfl
@[simp] theorem State.ran_msixPend : (s.ran k i t).msixPend = s.msixPend := rfl
@[simp] theorem State.ran_fuses : (s.ran k i t).fuses = s.fuses := rfl
@[simp] theorem State.ran_domA : (s.ran k i t).domA = s.domA := rfl
@[simp] theorem State.ran_domB : (s.ran k i t).domB = s.domB := rfl
@[simp] theorem State.ran_tsf : (s.ran k i t).tsf = s.tsf := rfl
@[simp] theorem State.ran_tsfLatch : (s.ran k i t).tsfLatch = s.tsfLatch := rfl
@[simp] theorem State.ran_tsGap : (s.ran k i t).tsGap = s.tsGap := rfl
@[simp] theorem State.ran_ppsLast : (s.ran k i t).ppsLast = s.ppsLast := rfl
@[simp] theorem State.ran_ppsUnread : (s.ran k i t).ppsUnread = s.ppsUnread := rfl
@[simp] theorem State.ran_cmpAt : (s.ran k i t).cmpAt = s.cmpAt := rfl
@[simp] theorem State.ran_log : (s.ran k i t).log = s.log := rfl
@[simp] theorem State.ran_fatalFirst : (s.ran k i t).fatalFirst = s.fatalFirst := rfl
@[simp] theorem State.ran_fatalStop : (s.ran k i t).fatalStop = s.fatalStop := rfl
@[simp] theorem State.ran_scanStop : (s.ran k i t).scanStop = s.scanStop := rfl
@[simp] theorem State.ran_thermTrip : (s.ran k i t).thermTrip = s.thermTrip := rfl
@[simp] theorem State.ran_tmLast : (s.ran k i t).tmLast = s.tmLast := rfl
@[simp] theorem State.ran_snap : (s.ran k i t).snap = s.snap := rfl
@[simp] theorem State.ran_dump : (s.ran k i t).dump = s.dump := rfl
@[simp] theorem State.ran_dumpMissed : (s.ran k i t).dumpMissed = s.dumpMissed := rfl
@[simp] theorem State.ran_dumpStep : (s.ran k i t).dumpStep = s.dumpStep := rfl
@[simp] theorem State.ran_dumpFrom : (s.ran k i t).dumpFrom = s.dumpFrom := rfl
@[simp] theorem State.ran_histDump : (s.ran k i t).histDump = s.histDump := rfl
@[simp] theorem State.ran_dys : (s.ran k i t).dys = s.dys := rfl
@[simp] theorem State.ran_spareMap : (s.ran k i t).spareMap = s.spareMap := rfl
@[simp] theorem State.ran_laneX : (s.ran k i t).laneX = s.laneX := rfl
@[simp] theorem State.ran_portX : (s.ran k i t).portX = s.portX := rfl
@[simp] theorem State.ran_laneMap : (s.ran k i t).laneMap = s.laneMap := rfl
@[simp] theorem State.ran_swaps : (s.ran k i t).swaps = s.swaps := rfl
@[simp] theorem State.ran_lmosWait : (s.ran k i t).lmosWait = s.lmosWait := rfl
@[simp] theorem State.ran_pauseEnd : (s.ran k i t).pauseEnd = s.pauseEnd := rfl
@[simp] theorem State.ran_hbm : (s.ran k i t).hbm = s.hbm := rfl
@[simp] theorem State.ran_path : (s.ran k i t).path = s.path := rfl
@[simp] theorem State.ran_tm : (s.ran k i t).tm = s.tm := rfl
@[simp] theorem State.ran_mat : (s.ran k i t).mat = s.mat := rfl
@[simp] theorem State.ran_tel : (s.ran k i t).tel = s.tel := rfl
@[simp] theorem State.ran_bpm : (s.ran k i t).bpm = s.bpm := rfl
@[simp] theorem State.ran_mc : (s.ran k i t).mc = s.mc := rfl
@[simp] theorem State.ran_atl : (s.ran k i t).atl = s.atl := rfl
@[simp] theorem State.ran_ras : (s.ran k i t).ras = s.ras := rfl
@[simp] theorem State.ran_boot : (s.ran k i t).boot = s.boot := rfl
@[simp] theorem State.ran_pwr : (s.ran k i t).pwr = s.pwr := rfl
@[simp] theorem State.ran_keep : (s.ran k i t).keep = s.keep := rfl
@[simp] theorem State.ran_harb : (s.ran k i t).harb = s.harb := rfl
@[simp] theorem State.ran_timers : (s.ran k i t).timers = mset s.timers (key2 k.ctorIdx i) t 0 := rfl
@[simp] theorem State.ran_rd (f : Fld) : (s.ran k i t).rd f = s.rd f := rfl

end Ran

section Updpath
variable (s : State) (g : Path → Path)

@[simp] theorem State.updPath_pending : (s.updPath g).pending = s.pending := rfl
@[simp] theorem State.updPath_regs : (s.updPath g).regs = s.regs := rfl
@[simp] theorem State.updPath_latch : (s.updPath g).latch = s.latch := rfl
@[simp] theorem State.updPath_held : (s.updPath g).held = s.held := rfl
@[simp] theorem State.updPath_out : (s.updPath g).out = s.out := rfl
@[simp] theorem State.updPath_free : (s.updPath g).free = s.free := rfl
@[simp] theorem State.updPath_msixOn : (s.updPath g).msixOn = s.msixOn := rfl
@[simp] theorem State.updPath_msixPend : (s.updPath g).msixPend = s.msixPend := rfl
@[simp] theorem State.updPath_fuses : (s.updPath g).fuses = s.fuses := rfl
@[simp] theorem State.updPath_domA : (s.updPath g).domA = s.domA := rfl
@[simp] theorem State.updPath_domB : (s.updPath g).domB = s.domB := rfl
@[simp] theorem State.updPath_tsf : (s.updPath g).tsf = s.tsf := rfl
@[simp] theorem State.updPath_tsfLatch : (s.updPath g).tsfLatch = s.tsfLatch := rfl
@[simp] theorem State.updPath_tsGap : (s.updPath g).tsGap = s.tsGap := rfl
@[simp] theorem State.updPath_ppsLast : (s.updPath g).ppsLast = s.ppsLast := rfl
@[simp] theorem State.updPath_ppsUnread : (s.updPath g).ppsUnread = s.ppsUnread := rfl
@[simp] theorem State.updPath_cmpAt : (s.updPath g).cmpAt = s.cmpAt := rfl
@[simp] theorem State.updPath_log : (s.updPath g).log = s.log := rfl
@[simp] theorem State.updPath_fatalFirst : (s.updPath g).fatalFirst = s.fatalFirst := rfl
@[simp] theorem State.updPath_fatalStop : (s.updPath g).fatalStop = s.fatalStop := rfl
@[simp] theorem State.updPath_scanStop : (s.updPath g).scanStop = s.scanStop := rfl
@[simp] theorem State.updPath_thermTrip : (s.updPath g).thermTrip = s.thermTrip := rfl
@[simp] theorem State.updPath_tmLast : (s.updPath g).tmLast = s.tmLast := rfl
@[simp] theorem State.updPath_snap : (s.updPath g).snap = s.snap := rfl
@[simp] theorem State.updPath_dump : (s.updPath g).dump = s.dump := rfl
@[simp] theorem State.updPath_dumpMissed : (s.updPath g).dumpMissed = s.dumpMissed := rfl
@[simp] theorem State.updPath_dumpStep : (s.updPath g).dumpStep = s.dumpStep := rfl
@[simp] theorem State.updPath_dumpFrom : (s.updPath g).dumpFrom = s.dumpFrom := rfl
@[simp] theorem State.updPath_histDump : (s.updPath g).histDump = s.histDump := rfl
@[simp] theorem State.updPath_dys : (s.updPath g).dys = s.dys := rfl
@[simp] theorem State.updPath_spareMap : (s.updPath g).spareMap = s.spareMap := rfl
@[simp] theorem State.updPath_laneX : (s.updPath g).laneX = s.laneX := rfl
@[simp] theorem State.updPath_portX : (s.updPath g).portX = s.portX := rfl
@[simp] theorem State.updPath_laneMap : (s.updPath g).laneMap = s.laneMap := rfl
@[simp] theorem State.updPath_swaps : (s.updPath g).swaps = s.swaps := rfl
@[simp] theorem State.updPath_lmosWait : (s.updPath g).lmosWait = s.lmosWait := rfl
@[simp] theorem State.updPath_pauseEnd : (s.updPath g).pauseEnd = s.pauseEnd := rfl
@[simp] theorem State.updPath_timers : (s.updPath g).timers = s.timers := rfl
@[simp] theorem State.updPath_hbm : (s.updPath g).hbm = s.hbm := rfl
@[simp] theorem State.updPath_tm : (s.updPath g).tm = s.tm := rfl
@[simp] theorem State.updPath_mat : (s.updPath g).mat = s.mat := rfl
@[simp] theorem State.updPath_tel : (s.updPath g).tel = s.tel := rfl
@[simp] theorem State.updPath_bpm : (s.updPath g).bpm = s.bpm := rfl
@[simp] theorem State.updPath_mc : (s.updPath g).mc = s.mc := rfl
@[simp] theorem State.updPath_atl : (s.updPath g).atl = s.atl := rfl
@[simp] theorem State.updPath_ras : (s.updPath g).ras = s.ras := rfl
@[simp] theorem State.updPath_boot : (s.updPath g).boot = s.boot := rfl
@[simp] theorem State.updPath_pwr : (s.updPath g).pwr = s.pwr := rfl
@[simp] theorem State.updPath_keep : (s.updPath g).keep = s.keep := rfl
@[simp] theorem State.updPath_harb : (s.updPath g).harb = s.harb := rfl
@[simp] theorem State.updPath_path : (s.updPath g).path = g s.path := rfl
@[simp] theorem State.updPath_rd (f : Fld) : (s.updPath g).rd f = s.rd f := rfl

end Updpath

section Updtm
variable (s : State) (g : TmSt → TmSt)

@[simp] theorem State.updTm_pending : (s.updTm g).pending = s.pending := rfl
@[simp] theorem State.updTm_regs : (s.updTm g).regs = s.regs := rfl
@[simp] theorem State.updTm_latch : (s.updTm g).latch = s.latch := rfl
@[simp] theorem State.updTm_held : (s.updTm g).held = s.held := rfl
@[simp] theorem State.updTm_out : (s.updTm g).out = s.out := rfl
@[simp] theorem State.updTm_free : (s.updTm g).free = s.free := rfl
@[simp] theorem State.updTm_msixOn : (s.updTm g).msixOn = s.msixOn := rfl
@[simp] theorem State.updTm_msixPend : (s.updTm g).msixPend = s.msixPend := rfl
@[simp] theorem State.updTm_fuses : (s.updTm g).fuses = s.fuses := rfl
@[simp] theorem State.updTm_domA : (s.updTm g).domA = s.domA := rfl
@[simp] theorem State.updTm_domB : (s.updTm g).domB = s.domB := rfl
@[simp] theorem State.updTm_tsf : (s.updTm g).tsf = s.tsf := rfl
@[simp] theorem State.updTm_tsfLatch : (s.updTm g).tsfLatch = s.tsfLatch := rfl
@[simp] theorem State.updTm_tsGap : (s.updTm g).tsGap = s.tsGap := rfl
@[simp] theorem State.updTm_ppsLast : (s.updTm g).ppsLast = s.ppsLast := rfl
@[simp] theorem State.updTm_ppsUnread : (s.updTm g).ppsUnread = s.ppsUnread := rfl
@[simp] theorem State.updTm_cmpAt : (s.updTm g).cmpAt = s.cmpAt := rfl
@[simp] theorem State.updTm_log : (s.updTm g).log = s.log := rfl
@[simp] theorem State.updTm_fatalFirst : (s.updTm g).fatalFirst = s.fatalFirst := rfl
@[simp] theorem State.updTm_fatalStop : (s.updTm g).fatalStop = s.fatalStop := rfl
@[simp] theorem State.updTm_scanStop : (s.updTm g).scanStop = s.scanStop := rfl
@[simp] theorem State.updTm_thermTrip : (s.updTm g).thermTrip = s.thermTrip := rfl
@[simp] theorem State.updTm_tmLast : (s.updTm g).tmLast = s.tmLast := rfl
@[simp] theorem State.updTm_snap : (s.updTm g).snap = s.snap := rfl
@[simp] theorem State.updTm_dump : (s.updTm g).dump = s.dump := rfl
@[simp] theorem State.updTm_dumpMissed : (s.updTm g).dumpMissed = s.dumpMissed := rfl
@[simp] theorem State.updTm_dumpStep : (s.updTm g).dumpStep = s.dumpStep := rfl
@[simp] theorem State.updTm_dumpFrom : (s.updTm g).dumpFrom = s.dumpFrom := rfl
@[simp] theorem State.updTm_histDump : (s.updTm g).histDump = s.histDump := rfl
@[simp] theorem State.updTm_dys : (s.updTm g).dys = s.dys := rfl
@[simp] theorem State.updTm_spareMap : (s.updTm g).spareMap = s.spareMap := rfl
@[simp] theorem State.updTm_laneX : (s.updTm g).laneX = s.laneX := rfl
@[simp] theorem State.updTm_portX : (s.updTm g).portX = s.portX := rfl
@[simp] theorem State.updTm_laneMap : (s.updTm g).laneMap = s.laneMap := rfl
@[simp] theorem State.updTm_swaps : (s.updTm g).swaps = s.swaps := rfl
@[simp] theorem State.updTm_lmosWait : (s.updTm g).lmosWait = s.lmosWait := rfl
@[simp] theorem State.updTm_pauseEnd : (s.updTm g).pauseEnd = s.pauseEnd := rfl
@[simp] theorem State.updTm_timers : (s.updTm g).timers = s.timers := rfl
@[simp] theorem State.updTm_hbm : (s.updTm g).hbm = s.hbm := rfl
@[simp] theorem State.updTm_path : (s.updTm g).path = s.path := rfl
@[simp] theorem State.updTm_mat : (s.updTm g).mat = s.mat := rfl
@[simp] theorem State.updTm_tel : (s.updTm g).tel = s.tel := rfl
@[simp] theorem State.updTm_bpm : (s.updTm g).bpm = s.bpm := rfl
@[simp] theorem State.updTm_mc : (s.updTm g).mc = s.mc := rfl
@[simp] theorem State.updTm_atl : (s.updTm g).atl = s.atl := rfl
@[simp] theorem State.updTm_ras : (s.updTm g).ras = s.ras := rfl
@[simp] theorem State.updTm_boot : (s.updTm g).boot = s.boot := rfl
@[simp] theorem State.updTm_pwr : (s.updTm g).pwr = s.pwr := rfl
@[simp] theorem State.updTm_keep : (s.updTm g).keep = s.keep := rfl
@[simp] theorem State.updTm_harb : (s.updTm g).harb = s.harb := rfl
@[simp] theorem State.updTm_tm : (s.updTm g).tm = g s.tm := rfl
@[simp] theorem State.updTm_rd (f : Fld) : (s.updTm g).rd f = s.rd f := rfl

end Updtm

section Updmat
variable (s : State) (g : MatSt → MatSt)

@[simp] theorem State.updMat_pending : (s.updMat g).pending = s.pending := rfl
@[simp] theorem State.updMat_regs : (s.updMat g).regs = s.regs := rfl
@[simp] theorem State.updMat_latch : (s.updMat g).latch = s.latch := rfl
@[simp] theorem State.updMat_held : (s.updMat g).held = s.held := rfl
@[simp] theorem State.updMat_out : (s.updMat g).out = s.out := rfl
@[simp] theorem State.updMat_free : (s.updMat g).free = s.free := rfl
@[simp] theorem State.updMat_msixOn : (s.updMat g).msixOn = s.msixOn := rfl
@[simp] theorem State.updMat_msixPend : (s.updMat g).msixPend = s.msixPend := rfl
@[simp] theorem State.updMat_fuses : (s.updMat g).fuses = s.fuses := rfl
@[simp] theorem State.updMat_domA : (s.updMat g).domA = s.domA := rfl
@[simp] theorem State.updMat_domB : (s.updMat g).domB = s.domB := rfl
@[simp] theorem State.updMat_tsf : (s.updMat g).tsf = s.tsf := rfl
@[simp] theorem State.updMat_tsfLatch : (s.updMat g).tsfLatch = s.tsfLatch := rfl
@[simp] theorem State.updMat_tsGap : (s.updMat g).tsGap = s.tsGap := rfl
@[simp] theorem State.updMat_ppsLast : (s.updMat g).ppsLast = s.ppsLast := rfl
@[simp] theorem State.updMat_ppsUnread : (s.updMat g).ppsUnread = s.ppsUnread := rfl
@[simp] theorem State.updMat_cmpAt : (s.updMat g).cmpAt = s.cmpAt := rfl
@[simp] theorem State.updMat_log : (s.updMat g).log = s.log := rfl
@[simp] theorem State.updMat_fatalFirst : (s.updMat g).fatalFirst = s.fatalFirst := rfl
@[simp] theorem State.updMat_fatalStop : (s.updMat g).fatalStop = s.fatalStop := rfl
@[simp] theorem State.updMat_scanStop : (s.updMat g).scanStop = s.scanStop := rfl
@[simp] theorem State.updMat_thermTrip : (s.updMat g).thermTrip = s.thermTrip := rfl
@[simp] theorem State.updMat_tmLast : (s.updMat g).tmLast = s.tmLast := rfl
@[simp] theorem State.updMat_snap : (s.updMat g).snap = s.snap := rfl
@[simp] theorem State.updMat_dump : (s.updMat g).dump = s.dump := rfl
@[simp] theorem State.updMat_dumpMissed : (s.updMat g).dumpMissed = s.dumpMissed := rfl
@[simp] theorem State.updMat_dumpStep : (s.updMat g).dumpStep = s.dumpStep := rfl
@[simp] theorem State.updMat_dumpFrom : (s.updMat g).dumpFrom = s.dumpFrom := rfl
@[simp] theorem State.updMat_histDump : (s.updMat g).histDump = s.histDump := rfl
@[simp] theorem State.updMat_dys : (s.updMat g).dys = s.dys := rfl
@[simp] theorem State.updMat_spareMap : (s.updMat g).spareMap = s.spareMap := rfl
@[simp] theorem State.updMat_laneX : (s.updMat g).laneX = s.laneX := rfl
@[simp] theorem State.updMat_portX : (s.updMat g).portX = s.portX := rfl
@[simp] theorem State.updMat_laneMap : (s.updMat g).laneMap = s.laneMap := rfl
@[simp] theorem State.updMat_swaps : (s.updMat g).swaps = s.swaps := rfl
@[simp] theorem State.updMat_lmosWait : (s.updMat g).lmosWait = s.lmosWait := rfl
@[simp] theorem State.updMat_pauseEnd : (s.updMat g).pauseEnd = s.pauseEnd := rfl
@[simp] theorem State.updMat_timers : (s.updMat g).timers = s.timers := rfl
@[simp] theorem State.updMat_hbm : (s.updMat g).hbm = s.hbm := rfl
@[simp] theorem State.updMat_path : (s.updMat g).path = s.path := rfl
@[simp] theorem State.updMat_tm : (s.updMat g).tm = s.tm := rfl
@[simp] theorem State.updMat_tel : (s.updMat g).tel = s.tel := rfl
@[simp] theorem State.updMat_bpm : (s.updMat g).bpm = s.bpm := rfl
@[simp] theorem State.updMat_mc : (s.updMat g).mc = s.mc := rfl
@[simp] theorem State.updMat_atl : (s.updMat g).atl = s.atl := rfl
@[simp] theorem State.updMat_ras : (s.updMat g).ras = s.ras := rfl
@[simp] theorem State.updMat_boot : (s.updMat g).boot = s.boot := rfl
@[simp] theorem State.updMat_pwr : (s.updMat g).pwr = s.pwr := rfl
@[simp] theorem State.updMat_keep : (s.updMat g).keep = s.keep := rfl
@[simp] theorem State.updMat_harb : (s.updMat g).harb = s.harb := rfl
@[simp] theorem State.updMat_mat : (s.updMat g).mat = g s.mat := rfl
@[simp] theorem State.updMat_rd (f : Fld) : (s.updMat g).rd f = s.rd f := rfl

end Updmat

section Updtel
variable (s : State) (g : TelSt → TelSt)

@[simp] theorem State.updTel_pending : (s.updTel g).pending = s.pending := rfl
@[simp] theorem State.updTel_regs : (s.updTel g).regs = s.regs := rfl
@[simp] theorem State.updTel_latch : (s.updTel g).latch = s.latch := rfl
@[simp] theorem State.updTel_held : (s.updTel g).held = s.held := rfl
@[simp] theorem State.updTel_out : (s.updTel g).out = s.out := rfl
@[simp] theorem State.updTel_free : (s.updTel g).free = s.free := rfl
@[simp] theorem State.updTel_msixOn : (s.updTel g).msixOn = s.msixOn := rfl
@[simp] theorem State.updTel_msixPend : (s.updTel g).msixPend = s.msixPend := rfl
@[simp] theorem State.updTel_fuses : (s.updTel g).fuses = s.fuses := rfl
@[simp] theorem State.updTel_domA : (s.updTel g).domA = s.domA := rfl
@[simp] theorem State.updTel_domB : (s.updTel g).domB = s.domB := rfl
@[simp] theorem State.updTel_tsf : (s.updTel g).tsf = s.tsf := rfl
@[simp] theorem State.updTel_tsfLatch : (s.updTel g).tsfLatch = s.tsfLatch := rfl
@[simp] theorem State.updTel_tsGap : (s.updTel g).tsGap = s.tsGap := rfl
@[simp] theorem State.updTel_ppsLast : (s.updTel g).ppsLast = s.ppsLast := rfl
@[simp] theorem State.updTel_ppsUnread : (s.updTel g).ppsUnread = s.ppsUnread := rfl
@[simp] theorem State.updTel_cmpAt : (s.updTel g).cmpAt = s.cmpAt := rfl
@[simp] theorem State.updTel_log : (s.updTel g).log = s.log := rfl
@[simp] theorem State.updTel_fatalFirst : (s.updTel g).fatalFirst = s.fatalFirst := rfl
@[simp] theorem State.updTel_fatalStop : (s.updTel g).fatalStop = s.fatalStop := rfl
@[simp] theorem State.updTel_scanStop : (s.updTel g).scanStop = s.scanStop := rfl
@[simp] theorem State.updTel_thermTrip : (s.updTel g).thermTrip = s.thermTrip := rfl
@[simp] theorem State.updTel_tmLast : (s.updTel g).tmLast = s.tmLast := rfl
@[simp] theorem State.updTel_snap : (s.updTel g).snap = s.snap := rfl
@[simp] theorem State.updTel_dump : (s.updTel g).dump = s.dump := rfl
@[simp] theorem State.updTel_dumpMissed : (s.updTel g).dumpMissed = s.dumpMissed := rfl
@[simp] theorem State.updTel_dumpStep : (s.updTel g).dumpStep = s.dumpStep := rfl
@[simp] theorem State.updTel_dumpFrom : (s.updTel g).dumpFrom = s.dumpFrom := rfl
@[simp] theorem State.updTel_histDump : (s.updTel g).histDump = s.histDump := rfl
@[simp] theorem State.updTel_dys : (s.updTel g).dys = s.dys := rfl
@[simp] theorem State.updTel_spareMap : (s.updTel g).spareMap = s.spareMap := rfl
@[simp] theorem State.updTel_laneX : (s.updTel g).laneX = s.laneX := rfl
@[simp] theorem State.updTel_portX : (s.updTel g).portX = s.portX := rfl
@[simp] theorem State.updTel_laneMap : (s.updTel g).laneMap = s.laneMap := rfl
@[simp] theorem State.updTel_swaps : (s.updTel g).swaps = s.swaps := rfl
@[simp] theorem State.updTel_lmosWait : (s.updTel g).lmosWait = s.lmosWait := rfl
@[simp] theorem State.updTel_pauseEnd : (s.updTel g).pauseEnd = s.pauseEnd := rfl
@[simp] theorem State.updTel_timers : (s.updTel g).timers = s.timers := rfl
@[simp] theorem State.updTel_hbm : (s.updTel g).hbm = s.hbm := rfl
@[simp] theorem State.updTel_path : (s.updTel g).path = s.path := rfl
@[simp] theorem State.updTel_tm : (s.updTel g).tm = s.tm := rfl
@[simp] theorem State.updTel_mat : (s.updTel g).mat = s.mat := rfl
@[simp] theorem State.updTel_bpm : (s.updTel g).bpm = s.bpm := rfl
@[simp] theorem State.updTel_mc : (s.updTel g).mc = s.mc := rfl
@[simp] theorem State.updTel_atl : (s.updTel g).atl = s.atl := rfl
@[simp] theorem State.updTel_ras : (s.updTel g).ras = s.ras := rfl
@[simp] theorem State.updTel_boot : (s.updTel g).boot = s.boot := rfl
@[simp] theorem State.updTel_pwr : (s.updTel g).pwr = s.pwr := rfl
@[simp] theorem State.updTel_keep : (s.updTel g).keep = s.keep := rfl
@[simp] theorem State.updTel_harb : (s.updTel g).harb = s.harb := rfl
@[simp] theorem State.updTel_tel : (s.updTel g).tel = g s.tel := rfl
@[simp] theorem State.updTel_rd (f : Fld) : (s.updTel g).rd f = s.rd f := rfl

end Updtel

section Updbpm
variable (s : State) (g : BpmSt → BpmSt)

@[simp] theorem State.updBpm_pending : (s.updBpm g).pending = s.pending := rfl
@[simp] theorem State.updBpm_regs : (s.updBpm g).regs = s.regs := rfl
@[simp] theorem State.updBpm_latch : (s.updBpm g).latch = s.latch := rfl
@[simp] theorem State.updBpm_held : (s.updBpm g).held = s.held := rfl
@[simp] theorem State.updBpm_out : (s.updBpm g).out = s.out := rfl
@[simp] theorem State.updBpm_free : (s.updBpm g).free = s.free := rfl
@[simp] theorem State.updBpm_msixOn : (s.updBpm g).msixOn = s.msixOn := rfl
@[simp] theorem State.updBpm_msixPend : (s.updBpm g).msixPend = s.msixPend := rfl
@[simp] theorem State.updBpm_fuses : (s.updBpm g).fuses = s.fuses := rfl
@[simp] theorem State.updBpm_domA : (s.updBpm g).domA = s.domA := rfl
@[simp] theorem State.updBpm_domB : (s.updBpm g).domB = s.domB := rfl
@[simp] theorem State.updBpm_tsf : (s.updBpm g).tsf = s.tsf := rfl
@[simp] theorem State.updBpm_tsfLatch : (s.updBpm g).tsfLatch = s.tsfLatch := rfl
@[simp] theorem State.updBpm_tsGap : (s.updBpm g).tsGap = s.tsGap := rfl
@[simp] theorem State.updBpm_ppsLast : (s.updBpm g).ppsLast = s.ppsLast := rfl
@[simp] theorem State.updBpm_ppsUnread : (s.updBpm g).ppsUnread = s.ppsUnread := rfl
@[simp] theorem State.updBpm_cmpAt : (s.updBpm g).cmpAt = s.cmpAt := rfl
@[simp] theorem State.updBpm_log : (s.updBpm g).log = s.log := rfl
@[simp] theorem State.updBpm_fatalFirst : (s.updBpm g).fatalFirst = s.fatalFirst := rfl
@[simp] theorem State.updBpm_fatalStop : (s.updBpm g).fatalStop = s.fatalStop := rfl
@[simp] theorem State.updBpm_scanStop : (s.updBpm g).scanStop = s.scanStop := rfl
@[simp] theorem State.updBpm_thermTrip : (s.updBpm g).thermTrip = s.thermTrip := rfl
@[simp] theorem State.updBpm_tmLast : (s.updBpm g).tmLast = s.tmLast := rfl
@[simp] theorem State.updBpm_snap : (s.updBpm g).snap = s.snap := rfl
@[simp] theorem State.updBpm_dump : (s.updBpm g).dump = s.dump := rfl
@[simp] theorem State.updBpm_dumpMissed : (s.updBpm g).dumpMissed = s.dumpMissed := rfl
@[simp] theorem State.updBpm_dumpStep : (s.updBpm g).dumpStep = s.dumpStep := rfl
@[simp] theorem State.updBpm_dumpFrom : (s.updBpm g).dumpFrom = s.dumpFrom := rfl
@[simp] theorem State.updBpm_histDump : (s.updBpm g).histDump = s.histDump := rfl
@[simp] theorem State.updBpm_dys : (s.updBpm g).dys = s.dys := rfl
@[simp] theorem State.updBpm_spareMap : (s.updBpm g).spareMap = s.spareMap := rfl
@[simp] theorem State.updBpm_laneX : (s.updBpm g).laneX = s.laneX := rfl
@[simp] theorem State.updBpm_portX : (s.updBpm g).portX = s.portX := rfl
@[simp] theorem State.updBpm_laneMap : (s.updBpm g).laneMap = s.laneMap := rfl
@[simp] theorem State.updBpm_swaps : (s.updBpm g).swaps = s.swaps := rfl
@[simp] theorem State.updBpm_lmosWait : (s.updBpm g).lmosWait = s.lmosWait := rfl
@[simp] theorem State.updBpm_pauseEnd : (s.updBpm g).pauseEnd = s.pauseEnd := rfl
@[simp] theorem State.updBpm_timers : (s.updBpm g).timers = s.timers := rfl
@[simp] theorem State.updBpm_hbm : (s.updBpm g).hbm = s.hbm := rfl
@[simp] theorem State.updBpm_path : (s.updBpm g).path = s.path := rfl
@[simp] theorem State.updBpm_tm : (s.updBpm g).tm = s.tm := rfl
@[simp] theorem State.updBpm_mat : (s.updBpm g).mat = s.mat := rfl
@[simp] theorem State.updBpm_tel : (s.updBpm g).tel = s.tel := rfl
@[simp] theorem State.updBpm_mc : (s.updBpm g).mc = s.mc := rfl
@[simp] theorem State.updBpm_atl : (s.updBpm g).atl = s.atl := rfl
@[simp] theorem State.updBpm_ras : (s.updBpm g).ras = s.ras := rfl
@[simp] theorem State.updBpm_boot : (s.updBpm g).boot = s.boot := rfl
@[simp] theorem State.updBpm_pwr : (s.updBpm g).pwr = s.pwr := rfl
@[simp] theorem State.updBpm_keep : (s.updBpm g).keep = s.keep := rfl
@[simp] theorem State.updBpm_harb : (s.updBpm g).harb = s.harb := rfl
@[simp] theorem State.updBpm_bpm : (s.updBpm g).bpm = g s.bpm := rfl
@[simp] theorem State.updBpm_rd (f : Fld) : (s.updBpm g).rd f = s.rd f := rfl

end Updbpm

section Upddys
variable (s : State) (g : DysSt → DysSt)

@[simp] theorem State.updDys_pending : (s.updDys g).pending = s.pending := rfl
@[simp] theorem State.updDys_regs : (s.updDys g).regs = s.regs := rfl
@[simp] theorem State.updDys_latch : (s.updDys g).latch = s.latch := rfl
@[simp] theorem State.updDys_held : (s.updDys g).held = s.held := rfl
@[simp] theorem State.updDys_out : (s.updDys g).out = s.out := rfl
@[simp] theorem State.updDys_free : (s.updDys g).free = s.free := rfl
@[simp] theorem State.updDys_msixOn : (s.updDys g).msixOn = s.msixOn := rfl
@[simp] theorem State.updDys_msixPend : (s.updDys g).msixPend = s.msixPend := rfl
@[simp] theorem State.updDys_fuses : (s.updDys g).fuses = s.fuses := rfl
@[simp] theorem State.updDys_domA : (s.updDys g).domA = s.domA := rfl
@[simp] theorem State.updDys_domB : (s.updDys g).domB = s.domB := rfl
@[simp] theorem State.updDys_tsf : (s.updDys g).tsf = s.tsf := rfl
@[simp] theorem State.updDys_tsfLatch : (s.updDys g).tsfLatch = s.tsfLatch := rfl
@[simp] theorem State.updDys_tsGap : (s.updDys g).tsGap = s.tsGap := rfl
@[simp] theorem State.updDys_ppsLast : (s.updDys g).ppsLast = s.ppsLast := rfl
@[simp] theorem State.updDys_ppsUnread : (s.updDys g).ppsUnread = s.ppsUnread := rfl
@[simp] theorem State.updDys_cmpAt : (s.updDys g).cmpAt = s.cmpAt := rfl
@[simp] theorem State.updDys_log : (s.updDys g).log = s.log := rfl
@[simp] theorem State.updDys_fatalFirst : (s.updDys g).fatalFirst = s.fatalFirst := rfl
@[simp] theorem State.updDys_fatalStop : (s.updDys g).fatalStop = s.fatalStop := rfl
@[simp] theorem State.updDys_scanStop : (s.updDys g).scanStop = s.scanStop := rfl
@[simp] theorem State.updDys_thermTrip : (s.updDys g).thermTrip = s.thermTrip := rfl
@[simp] theorem State.updDys_tmLast : (s.updDys g).tmLast = s.tmLast := rfl
@[simp] theorem State.updDys_snap : (s.updDys g).snap = s.snap := rfl
@[simp] theorem State.updDys_dump : (s.updDys g).dump = s.dump := rfl
@[simp] theorem State.updDys_dumpMissed : (s.updDys g).dumpMissed = s.dumpMissed := rfl
@[simp] theorem State.updDys_dumpStep : (s.updDys g).dumpStep = s.dumpStep := rfl
@[simp] theorem State.updDys_dumpFrom : (s.updDys g).dumpFrom = s.dumpFrom := rfl
@[simp] theorem State.updDys_histDump : (s.updDys g).histDump = s.histDump := rfl
@[simp] theorem State.updDys_spareMap : (s.updDys g).spareMap = s.spareMap := rfl
@[simp] theorem State.updDys_laneX : (s.updDys g).laneX = s.laneX := rfl
@[simp] theorem State.updDys_portX : (s.updDys g).portX = s.portX := rfl
@[simp] theorem State.updDys_laneMap : (s.updDys g).laneMap = s.laneMap := rfl
@[simp] theorem State.updDys_swaps : (s.updDys g).swaps = s.swaps := rfl
@[simp] theorem State.updDys_lmosWait : (s.updDys g).lmosWait = s.lmosWait := rfl
@[simp] theorem State.updDys_pauseEnd : (s.updDys g).pauseEnd = s.pauseEnd := rfl
@[simp] theorem State.updDys_timers : (s.updDys g).timers = s.timers := rfl
@[simp] theorem State.updDys_hbm : (s.updDys g).hbm = s.hbm := rfl
@[simp] theorem State.updDys_path : (s.updDys g).path = s.path := rfl
@[simp] theorem State.updDys_tm : (s.updDys g).tm = s.tm := rfl
@[simp] theorem State.updDys_mat : (s.updDys g).mat = s.mat := rfl
@[simp] theorem State.updDys_tel : (s.updDys g).tel = s.tel := rfl
@[simp] theorem State.updDys_bpm : (s.updDys g).bpm = s.bpm := rfl
@[simp] theorem State.updDys_mc : (s.updDys g).mc = s.mc := rfl
@[simp] theorem State.updDys_atl : (s.updDys g).atl = s.atl := rfl
@[simp] theorem State.updDys_ras : (s.updDys g).ras = s.ras := rfl
@[simp] theorem State.updDys_boot : (s.updDys g).boot = s.boot := rfl
@[simp] theorem State.updDys_pwr : (s.updDys g).pwr = s.pwr := rfl
@[simp] theorem State.updDys_keep : (s.updDys g).keep = s.keep := rfl
@[simp] theorem State.updDys_harb : (s.updDys g).harb = s.harb := rfl
@[simp] theorem State.updDys_dys : (s.updDys g).dys = g s.dys := rfl
@[simp] theorem State.updDys_rd (f : Fld) : (s.updDys g).rd f = s.rd f := rfl

end Upddys

section Updatl
variable (s : State) (g : AtlSt → AtlSt)

@[simp] theorem State.updAtl_pending : (s.updAtl g).pending = s.pending := rfl
@[simp] theorem State.updAtl_regs : (s.updAtl g).regs = s.regs := rfl
@[simp] theorem State.updAtl_latch : (s.updAtl g).latch = s.latch := rfl
@[simp] theorem State.updAtl_held : (s.updAtl g).held = s.held := rfl
@[simp] theorem State.updAtl_out : (s.updAtl g).out = s.out := rfl
@[simp] theorem State.updAtl_free : (s.updAtl g).free = s.free := rfl
@[simp] theorem State.updAtl_msixOn : (s.updAtl g).msixOn = s.msixOn := rfl
@[simp] theorem State.updAtl_msixPend : (s.updAtl g).msixPend = s.msixPend := rfl
@[simp] theorem State.updAtl_fuses : (s.updAtl g).fuses = s.fuses := rfl
@[simp] theorem State.updAtl_domA : (s.updAtl g).domA = s.domA := rfl
@[simp] theorem State.updAtl_domB : (s.updAtl g).domB = s.domB := rfl
@[simp] theorem State.updAtl_tsf : (s.updAtl g).tsf = s.tsf := rfl
@[simp] theorem State.updAtl_tsfLatch : (s.updAtl g).tsfLatch = s.tsfLatch := rfl
@[simp] theorem State.updAtl_tsGap : (s.updAtl g).tsGap = s.tsGap := rfl
@[simp] theorem State.updAtl_ppsLast : (s.updAtl g).ppsLast = s.ppsLast := rfl
@[simp] theorem State.updAtl_ppsUnread : (s.updAtl g).ppsUnread = s.ppsUnread := rfl
@[simp] theorem State.updAtl_cmpAt : (s.updAtl g).cmpAt = s.cmpAt := rfl
@[simp] theorem State.updAtl_log : (s.updAtl g).log = s.log := rfl
@[simp] theorem State.updAtl_fatalFirst : (s.updAtl g).fatalFirst = s.fatalFirst := rfl
@[simp] theorem State.updAtl_fatalStop : (s.updAtl g).fatalStop = s.fatalStop := rfl
@[simp] theorem State.updAtl_scanStop : (s.updAtl g).scanStop = s.scanStop := rfl
@[simp] theorem State.updAtl_thermTrip : (s.updAtl g).thermTrip = s.thermTrip := rfl
@[simp] theorem State.updAtl_tmLast : (s.updAtl g).tmLast = s.tmLast := rfl
@[simp] theorem State.updAtl_snap : (s.updAtl g).snap = s.snap := rfl
@[simp] theorem State.updAtl_dump : (s.updAtl g).dump = s.dump := rfl
@[simp] theorem State.updAtl_dumpMissed : (s.updAtl g).dumpMissed = s.dumpMissed := rfl
@[simp] theorem State.updAtl_dumpStep : (s.updAtl g).dumpStep = s.dumpStep := rfl
@[simp] theorem State.updAtl_dumpFrom : (s.updAtl g).dumpFrom = s.dumpFrom := rfl
@[simp] theorem State.updAtl_histDump : (s.updAtl g).histDump = s.histDump := rfl
@[simp] theorem State.updAtl_dys : (s.updAtl g).dys = s.dys := rfl
@[simp] theorem State.updAtl_spareMap : (s.updAtl g).spareMap = s.spareMap := rfl
@[simp] theorem State.updAtl_laneX : (s.updAtl g).laneX = s.laneX := rfl
@[simp] theorem State.updAtl_portX : (s.updAtl g).portX = s.portX := rfl
@[simp] theorem State.updAtl_laneMap : (s.updAtl g).laneMap = s.laneMap := rfl
@[simp] theorem State.updAtl_swaps : (s.updAtl g).swaps = s.swaps := rfl
@[simp] theorem State.updAtl_lmosWait : (s.updAtl g).lmosWait = s.lmosWait := rfl
@[simp] theorem State.updAtl_pauseEnd : (s.updAtl g).pauseEnd = s.pauseEnd := rfl
@[simp] theorem State.updAtl_timers : (s.updAtl g).timers = s.timers := rfl
@[simp] theorem State.updAtl_hbm : (s.updAtl g).hbm = s.hbm := rfl
@[simp] theorem State.updAtl_path : (s.updAtl g).path = s.path := rfl
@[simp] theorem State.updAtl_tm : (s.updAtl g).tm = s.tm := rfl
@[simp] theorem State.updAtl_mat : (s.updAtl g).mat = s.mat := rfl
@[simp] theorem State.updAtl_tel : (s.updAtl g).tel = s.tel := rfl
@[simp] theorem State.updAtl_bpm : (s.updAtl g).bpm = s.bpm := rfl
@[simp] theorem State.updAtl_mc : (s.updAtl g).mc = s.mc := rfl
@[simp] theorem State.updAtl_ras : (s.updAtl g).ras = s.ras := rfl
@[simp] theorem State.updAtl_boot : (s.updAtl g).boot = s.boot := rfl
@[simp] theorem State.updAtl_pwr : (s.updAtl g).pwr = s.pwr := rfl
@[simp] theorem State.updAtl_keep : (s.updAtl g).keep = s.keep := rfl
@[simp] theorem State.updAtl_harb : (s.updAtl g).harb = s.harb := rfl
@[simp] theorem State.updAtl_atl : (s.updAtl g).atl = g s.atl := rfl
@[simp] theorem State.updAtl_rd (f : Fld) : (s.updAtl g).rd f = s.rd f := rfl

end Updatl

section Updboot
variable (s : State) (g : BootSt → BootSt)

@[simp] theorem State.updBoot_pending : (s.updBoot g).pending = s.pending := rfl
@[simp] theorem State.updBoot_regs : (s.updBoot g).regs = s.regs := rfl
@[simp] theorem State.updBoot_latch : (s.updBoot g).latch = s.latch := rfl
@[simp] theorem State.updBoot_held : (s.updBoot g).held = s.held := rfl
@[simp] theorem State.updBoot_out : (s.updBoot g).out = s.out := rfl
@[simp] theorem State.updBoot_free : (s.updBoot g).free = s.free := rfl
@[simp] theorem State.updBoot_msixOn : (s.updBoot g).msixOn = s.msixOn := rfl
@[simp] theorem State.updBoot_msixPend : (s.updBoot g).msixPend = s.msixPend := rfl
@[simp] theorem State.updBoot_fuses : (s.updBoot g).fuses = s.fuses := rfl
@[simp] theorem State.updBoot_domA : (s.updBoot g).domA = s.domA := rfl
@[simp] theorem State.updBoot_domB : (s.updBoot g).domB = s.domB := rfl
@[simp] theorem State.updBoot_tsf : (s.updBoot g).tsf = s.tsf := rfl
@[simp] theorem State.updBoot_tsfLatch : (s.updBoot g).tsfLatch = s.tsfLatch := rfl
@[simp] theorem State.updBoot_tsGap : (s.updBoot g).tsGap = s.tsGap := rfl
@[simp] theorem State.updBoot_ppsLast : (s.updBoot g).ppsLast = s.ppsLast := rfl
@[simp] theorem State.updBoot_ppsUnread : (s.updBoot g).ppsUnread = s.ppsUnread := rfl
@[simp] theorem State.updBoot_cmpAt : (s.updBoot g).cmpAt = s.cmpAt := rfl
@[simp] theorem State.updBoot_log : (s.updBoot g).log = s.log := rfl
@[simp] theorem State.updBoot_fatalFirst : (s.updBoot g).fatalFirst = s.fatalFirst := rfl
@[simp] theorem State.updBoot_fatalStop : (s.updBoot g).fatalStop = s.fatalStop := rfl
@[simp] theorem State.updBoot_scanStop : (s.updBoot g).scanStop = s.scanStop := rfl
@[simp] theorem State.updBoot_thermTrip : (s.updBoot g).thermTrip = s.thermTrip := rfl
@[simp] theorem State.updBoot_tmLast : (s.updBoot g).tmLast = s.tmLast := rfl
@[simp] theorem State.updBoot_snap : (s.updBoot g).snap = s.snap := rfl
@[simp] theorem State.updBoot_dump : (s.updBoot g).dump = s.dump := rfl
@[simp] theorem State.updBoot_dumpMissed : (s.updBoot g).dumpMissed = s.dumpMissed := rfl
@[simp] theorem State.updBoot_dumpStep : (s.updBoot g).dumpStep = s.dumpStep := rfl
@[simp] theorem State.updBoot_dumpFrom : (s.updBoot g).dumpFrom = s.dumpFrom := rfl
@[simp] theorem State.updBoot_histDump : (s.updBoot g).histDump = s.histDump := rfl
@[simp] theorem State.updBoot_dys : (s.updBoot g).dys = s.dys := rfl
@[simp] theorem State.updBoot_spareMap : (s.updBoot g).spareMap = s.spareMap := rfl
@[simp] theorem State.updBoot_laneX : (s.updBoot g).laneX = s.laneX := rfl
@[simp] theorem State.updBoot_portX : (s.updBoot g).portX = s.portX := rfl
@[simp] theorem State.updBoot_laneMap : (s.updBoot g).laneMap = s.laneMap := rfl
@[simp] theorem State.updBoot_swaps : (s.updBoot g).swaps = s.swaps := rfl
@[simp] theorem State.updBoot_lmosWait : (s.updBoot g).lmosWait = s.lmosWait := rfl
@[simp] theorem State.updBoot_pauseEnd : (s.updBoot g).pauseEnd = s.pauseEnd := rfl
@[simp] theorem State.updBoot_timers : (s.updBoot g).timers = s.timers := rfl
@[simp] theorem State.updBoot_hbm : (s.updBoot g).hbm = s.hbm := rfl
@[simp] theorem State.updBoot_path : (s.updBoot g).path = s.path := rfl
@[simp] theorem State.updBoot_tm : (s.updBoot g).tm = s.tm := rfl
@[simp] theorem State.updBoot_mat : (s.updBoot g).mat = s.mat := rfl
@[simp] theorem State.updBoot_tel : (s.updBoot g).tel = s.tel := rfl
@[simp] theorem State.updBoot_bpm : (s.updBoot g).bpm = s.bpm := rfl
@[simp] theorem State.updBoot_mc : (s.updBoot g).mc = s.mc := rfl
@[simp] theorem State.updBoot_atl : (s.updBoot g).atl = s.atl := rfl
@[simp] theorem State.updBoot_ras : (s.updBoot g).ras = s.ras := rfl
@[simp] theorem State.updBoot_pwr : (s.updBoot g).pwr = s.pwr := rfl
@[simp] theorem State.updBoot_keep : (s.updBoot g).keep = s.keep := rfl
@[simp] theorem State.updBoot_harb : (s.updBoot g).harb = s.harb := rfl
@[simp] theorem State.updBoot_boot : (s.updBoot g).boot = g s.boot := rfl
@[simp] theorem State.updBoot_rd (f : Fld) : (s.updBoot g).rd f = s.rd f := rfl

end Updboot

section Updpwr
variable (s : State) (g : PwrSt → PwrSt)

@[simp] theorem State.updPwr_pending : (s.updPwr g).pending = s.pending := rfl
@[simp] theorem State.updPwr_regs : (s.updPwr g).regs = s.regs := rfl
@[simp] theorem State.updPwr_latch : (s.updPwr g).latch = s.latch := rfl
@[simp] theorem State.updPwr_held : (s.updPwr g).held = s.held := rfl
@[simp] theorem State.updPwr_out : (s.updPwr g).out = s.out := rfl
@[simp] theorem State.updPwr_free : (s.updPwr g).free = s.free := rfl
@[simp] theorem State.updPwr_msixOn : (s.updPwr g).msixOn = s.msixOn := rfl
@[simp] theorem State.updPwr_msixPend : (s.updPwr g).msixPend = s.msixPend := rfl
@[simp] theorem State.updPwr_fuses : (s.updPwr g).fuses = s.fuses := rfl
@[simp] theorem State.updPwr_domA : (s.updPwr g).domA = s.domA := rfl
@[simp] theorem State.updPwr_domB : (s.updPwr g).domB = s.domB := rfl
@[simp] theorem State.updPwr_tsf : (s.updPwr g).tsf = s.tsf := rfl
@[simp] theorem State.updPwr_tsfLatch : (s.updPwr g).tsfLatch = s.tsfLatch := rfl
@[simp] theorem State.updPwr_tsGap : (s.updPwr g).tsGap = s.tsGap := rfl
@[simp] theorem State.updPwr_ppsLast : (s.updPwr g).ppsLast = s.ppsLast := rfl
@[simp] theorem State.updPwr_ppsUnread : (s.updPwr g).ppsUnread = s.ppsUnread := rfl
@[simp] theorem State.updPwr_cmpAt : (s.updPwr g).cmpAt = s.cmpAt := rfl
@[simp] theorem State.updPwr_log : (s.updPwr g).log = s.log := rfl
@[simp] theorem State.updPwr_fatalFirst : (s.updPwr g).fatalFirst = s.fatalFirst := rfl
@[simp] theorem State.updPwr_fatalStop : (s.updPwr g).fatalStop = s.fatalStop := rfl
@[simp] theorem State.updPwr_scanStop : (s.updPwr g).scanStop = s.scanStop := rfl
@[simp] theorem State.updPwr_thermTrip : (s.updPwr g).thermTrip = s.thermTrip := rfl
@[simp] theorem State.updPwr_tmLast : (s.updPwr g).tmLast = s.tmLast := rfl
@[simp] theorem State.updPwr_snap : (s.updPwr g).snap = s.snap := rfl
@[simp] theorem State.updPwr_dump : (s.updPwr g).dump = s.dump := rfl
@[simp] theorem State.updPwr_dumpMissed : (s.updPwr g).dumpMissed = s.dumpMissed := rfl
@[simp] theorem State.updPwr_dumpStep : (s.updPwr g).dumpStep = s.dumpStep := rfl
@[simp] theorem State.updPwr_dumpFrom : (s.updPwr g).dumpFrom = s.dumpFrom := rfl
@[simp] theorem State.updPwr_histDump : (s.updPwr g).histDump = s.histDump := rfl
@[simp] theorem State.updPwr_dys : (s.updPwr g).dys = s.dys := rfl
@[simp] theorem State.updPwr_spareMap : (s.updPwr g).spareMap = s.spareMap := rfl
@[simp] theorem State.updPwr_laneX : (s.updPwr g).laneX = s.laneX := rfl
@[simp] theorem State.updPwr_portX : (s.updPwr g).portX = s.portX := rfl
@[simp] theorem State.updPwr_laneMap : (s.updPwr g).laneMap = s.laneMap := rfl
@[simp] theorem State.updPwr_swaps : (s.updPwr g).swaps = s.swaps := rfl
@[simp] theorem State.updPwr_lmosWait : (s.updPwr g).lmosWait = s.lmosWait := rfl
@[simp] theorem State.updPwr_pauseEnd : (s.updPwr g).pauseEnd = s.pauseEnd := rfl
@[simp] theorem State.updPwr_timers : (s.updPwr g).timers = s.timers := rfl
@[simp] theorem State.updPwr_hbm : (s.updPwr g).hbm = s.hbm := rfl
@[simp] theorem State.updPwr_path : (s.updPwr g).path = s.path := rfl
@[simp] theorem State.updPwr_tm : (s.updPwr g).tm = s.tm := rfl
@[simp] theorem State.updPwr_mat : (s.updPwr g).mat = s.mat := rfl
@[simp] theorem State.updPwr_tel : (s.updPwr g).tel = s.tel := rfl
@[simp] theorem State.updPwr_bpm : (s.updPwr g).bpm = s.bpm := rfl
@[simp] theorem State.updPwr_mc : (s.updPwr g).mc = s.mc := rfl
@[simp] theorem State.updPwr_atl : (s.updPwr g).atl = s.atl := rfl
@[simp] theorem State.updPwr_ras : (s.updPwr g).ras = s.ras := rfl
@[simp] theorem State.updPwr_boot : (s.updPwr g).boot = s.boot := rfl
@[simp] theorem State.updPwr_keep : (s.updPwr g).keep = s.keep := rfl
@[simp] theorem State.updPwr_harb : (s.updPwr g).harb = s.harb := rfl
@[simp] theorem State.updPwr_pwr : (s.updPwr g).pwr = g s.pwr := rfl
@[simp] theorem State.updPwr_rd (f : Fld) : (s.updPwr g).rd f = s.rd f := rfl

end Updpwr

section Updkeep
variable (s : State) (g : KeepSt → KeepSt)

@[simp] theorem State.updKeep_pending : (s.updKeep g).pending = s.pending := rfl
@[simp] theorem State.updKeep_regs : (s.updKeep g).regs = s.regs := rfl
@[simp] theorem State.updKeep_latch : (s.updKeep g).latch = s.latch := rfl
@[simp] theorem State.updKeep_held : (s.updKeep g).held = s.held := rfl
@[simp] theorem State.updKeep_out : (s.updKeep g).out = s.out := rfl
@[simp] theorem State.updKeep_free : (s.updKeep g).free = s.free := rfl
@[simp] theorem State.updKeep_msixOn : (s.updKeep g).msixOn = s.msixOn := rfl
@[simp] theorem State.updKeep_msixPend : (s.updKeep g).msixPend = s.msixPend := rfl
@[simp] theorem State.updKeep_fuses : (s.updKeep g).fuses = s.fuses := rfl
@[simp] theorem State.updKeep_domA : (s.updKeep g).domA = s.domA := rfl
@[simp] theorem State.updKeep_domB : (s.updKeep g).domB = s.domB := rfl
@[simp] theorem State.updKeep_tsf : (s.updKeep g).tsf = s.tsf := rfl
@[simp] theorem State.updKeep_tsfLatch : (s.updKeep g).tsfLatch = s.tsfLatch := rfl
@[simp] theorem State.updKeep_tsGap : (s.updKeep g).tsGap = s.tsGap := rfl
@[simp] theorem State.updKeep_ppsLast : (s.updKeep g).ppsLast = s.ppsLast := rfl
@[simp] theorem State.updKeep_ppsUnread : (s.updKeep g).ppsUnread = s.ppsUnread := rfl
@[simp] theorem State.updKeep_cmpAt : (s.updKeep g).cmpAt = s.cmpAt := rfl
@[simp] theorem State.updKeep_log : (s.updKeep g).log = s.log := rfl
@[simp] theorem State.updKeep_fatalFirst : (s.updKeep g).fatalFirst = s.fatalFirst := rfl
@[simp] theorem State.updKeep_fatalStop : (s.updKeep g).fatalStop = s.fatalStop := rfl
@[simp] theorem State.updKeep_scanStop : (s.updKeep g).scanStop = s.scanStop := rfl
@[simp] theorem State.updKeep_thermTrip : (s.updKeep g).thermTrip = s.thermTrip := rfl
@[simp] theorem State.updKeep_tmLast : (s.updKeep g).tmLast = s.tmLast := rfl
@[simp] theorem State.updKeep_snap : (s.updKeep g).snap = s.snap := rfl
@[simp] theorem State.updKeep_dump : (s.updKeep g).dump = s.dump := rfl
@[simp] theorem State.updKeep_dumpMissed : (s.updKeep g).dumpMissed = s.dumpMissed := rfl
@[simp] theorem State.updKeep_dumpStep : (s.updKeep g).dumpStep = s.dumpStep := rfl
@[simp] theorem State.updKeep_dumpFrom : (s.updKeep g).dumpFrom = s.dumpFrom := rfl
@[simp] theorem State.updKeep_histDump : (s.updKeep g).histDump = s.histDump := rfl
@[simp] theorem State.updKeep_dys : (s.updKeep g).dys = s.dys := rfl
@[simp] theorem State.updKeep_spareMap : (s.updKeep g).spareMap = s.spareMap := rfl
@[simp] theorem State.updKeep_laneX : (s.updKeep g).laneX = s.laneX := rfl
@[simp] theorem State.updKeep_portX : (s.updKeep g).portX = s.portX := rfl
@[simp] theorem State.updKeep_laneMap : (s.updKeep g).laneMap = s.laneMap := rfl
@[simp] theorem State.updKeep_swaps : (s.updKeep g).swaps = s.swaps := rfl
@[simp] theorem State.updKeep_lmosWait : (s.updKeep g).lmosWait = s.lmosWait := rfl
@[simp] theorem State.updKeep_pauseEnd : (s.updKeep g).pauseEnd = s.pauseEnd := rfl
@[simp] theorem State.updKeep_timers : (s.updKeep g).timers = s.timers := rfl
@[simp] theorem State.updKeep_hbm : (s.updKeep g).hbm = s.hbm := rfl
@[simp] theorem State.updKeep_path : (s.updKeep g).path = s.path := rfl
@[simp] theorem State.updKeep_tm : (s.updKeep g).tm = s.tm := rfl
@[simp] theorem State.updKeep_mat : (s.updKeep g).mat = s.mat := rfl
@[simp] theorem State.updKeep_tel : (s.updKeep g).tel = s.tel := rfl
@[simp] theorem State.updKeep_bpm : (s.updKeep g).bpm = s.bpm := rfl
@[simp] theorem State.updKeep_mc : (s.updKeep g).mc = s.mc := rfl
@[simp] theorem State.updKeep_atl : (s.updKeep g).atl = s.atl := rfl
@[simp] theorem State.updKeep_ras : (s.updKeep g).ras = s.ras := rfl
@[simp] theorem State.updKeep_boot : (s.updKeep g).boot = s.boot := rfl
@[simp] theorem State.updKeep_pwr : (s.updKeep g).pwr = s.pwr := rfl
@[simp] theorem State.updKeep_harb : (s.updKeep g).harb = s.harb := rfl
@[simp] theorem State.updKeep_keep : (s.updKeep g).keep = g s.keep := rfl
@[simp] theorem State.updKeep_rd (f : Fld) : (s.updKeep g).rd f = s.rd f := rfl

end Updkeep

section Updras
variable (s : State) (g : RasSt → RasSt)

@[simp] theorem State.updRas_pending : (s.updRas g).pending = s.pending := rfl
@[simp] theorem State.updRas_regs : (s.updRas g).regs = s.regs := rfl
@[simp] theorem State.updRas_latch : (s.updRas g).latch = s.latch := rfl
@[simp] theorem State.updRas_held : (s.updRas g).held = s.held := rfl
@[simp] theorem State.updRas_out : (s.updRas g).out = s.out := rfl
@[simp] theorem State.updRas_free : (s.updRas g).free = s.free := rfl
@[simp] theorem State.updRas_msixOn : (s.updRas g).msixOn = s.msixOn := rfl
@[simp] theorem State.updRas_msixPend : (s.updRas g).msixPend = s.msixPend := rfl
@[simp] theorem State.updRas_fuses : (s.updRas g).fuses = s.fuses := rfl
@[simp] theorem State.updRas_domA : (s.updRas g).domA = s.domA := rfl
@[simp] theorem State.updRas_domB : (s.updRas g).domB = s.domB := rfl
@[simp] theorem State.updRas_tsf : (s.updRas g).tsf = s.tsf := rfl
@[simp] theorem State.updRas_tsfLatch : (s.updRas g).tsfLatch = s.tsfLatch := rfl
@[simp] theorem State.updRas_tsGap : (s.updRas g).tsGap = s.tsGap := rfl
@[simp] theorem State.updRas_ppsLast : (s.updRas g).ppsLast = s.ppsLast := rfl
@[simp] theorem State.updRas_ppsUnread : (s.updRas g).ppsUnread = s.ppsUnread := rfl
@[simp] theorem State.updRas_cmpAt : (s.updRas g).cmpAt = s.cmpAt := rfl
@[simp] theorem State.updRas_log : (s.updRas g).log = s.log := rfl
@[simp] theorem State.updRas_fatalFirst : (s.updRas g).fatalFirst = s.fatalFirst := rfl
@[simp] theorem State.updRas_fatalStop : (s.updRas g).fatalStop = s.fatalStop := rfl
@[simp] theorem State.updRas_scanStop : (s.updRas g).scanStop = s.scanStop := rfl
@[simp] theorem State.updRas_thermTrip : (s.updRas g).thermTrip = s.thermTrip := rfl
@[simp] theorem State.updRas_tmLast : (s.updRas g).tmLast = s.tmLast := rfl
@[simp] theorem State.updRas_snap : (s.updRas g).snap = s.snap := rfl
@[simp] theorem State.updRas_dump : (s.updRas g).dump = s.dump := rfl
@[simp] theorem State.updRas_dumpMissed : (s.updRas g).dumpMissed = s.dumpMissed := rfl
@[simp] theorem State.updRas_dumpStep : (s.updRas g).dumpStep = s.dumpStep := rfl
@[simp] theorem State.updRas_dumpFrom : (s.updRas g).dumpFrom = s.dumpFrom := rfl
@[simp] theorem State.updRas_histDump : (s.updRas g).histDump = s.histDump := rfl
@[simp] theorem State.updRas_dys : (s.updRas g).dys = s.dys := rfl
@[simp] theorem State.updRas_spareMap : (s.updRas g).spareMap = s.spareMap := rfl
@[simp] theorem State.updRas_laneX : (s.updRas g).laneX = s.laneX := rfl
@[simp] theorem State.updRas_portX : (s.updRas g).portX = s.portX := rfl
@[simp] theorem State.updRas_laneMap : (s.updRas g).laneMap = s.laneMap := rfl
@[simp] theorem State.updRas_swaps : (s.updRas g).swaps = s.swaps := rfl
@[simp] theorem State.updRas_lmosWait : (s.updRas g).lmosWait = s.lmosWait := rfl
@[simp] theorem State.updRas_pauseEnd : (s.updRas g).pauseEnd = s.pauseEnd := rfl
@[simp] theorem State.updRas_timers : (s.updRas g).timers = s.timers := rfl
@[simp] theorem State.updRas_hbm : (s.updRas g).hbm = s.hbm := rfl
@[simp] theorem State.updRas_path : (s.updRas g).path = s.path := rfl
@[simp] theorem State.updRas_tm : (s.updRas g).tm = s.tm := rfl
@[simp] theorem State.updRas_mat : (s.updRas g).mat = s.mat := rfl
@[simp] theorem State.updRas_tel : (s.updRas g).tel = s.tel := rfl
@[simp] theorem State.updRas_bpm : (s.updRas g).bpm = s.bpm := rfl
@[simp] theorem State.updRas_mc : (s.updRas g).mc = s.mc := rfl
@[simp] theorem State.updRas_atl : (s.updRas g).atl = s.atl := rfl
@[simp] theorem State.updRas_boot : (s.updRas g).boot = s.boot := rfl
@[simp] theorem State.updRas_pwr : (s.updRas g).pwr = s.pwr := rfl
@[simp] theorem State.updRas_keep : (s.updRas g).keep = s.keep := rfl
@[simp] theorem State.updRas_harb : (s.updRas g).harb = s.harb := rfl
@[simp] theorem State.updRas_ras : (s.updRas g).ras = g s.ras := rfl
@[simp] theorem State.updRas_rd (f : Fld) : (s.updRas g).rd f = s.rd f := rfl

end Updras

section Updharb
variable (s : State) (g : HarbSt → HarbSt)

@[simp] theorem State.updHarb_pending : (s.updHarb g).pending = s.pending := rfl
@[simp] theorem State.updHarb_regs : (s.updHarb g).regs = s.regs := rfl
@[simp] theorem State.updHarb_latch : (s.updHarb g).latch = s.latch := rfl
@[simp] theorem State.updHarb_held : (s.updHarb g).held = s.held := rfl
@[simp] theorem State.updHarb_out : (s.updHarb g).out = s.out := rfl
@[simp] theorem State.updHarb_free : (s.updHarb g).free = s.free := rfl
@[simp] theorem State.updHarb_msixOn : (s.updHarb g).msixOn = s.msixOn := rfl
@[simp] theorem State.updHarb_msixPend : (s.updHarb g).msixPend = s.msixPend := rfl
@[simp] theorem State.updHarb_fuses : (s.updHarb g).fuses = s.fuses := rfl
@[simp] theorem State.updHarb_domA : (s.updHarb g).domA = s.domA := rfl
@[simp] theorem State.updHarb_domB : (s.updHarb g).domB = s.domB := rfl
@[simp] theorem State.updHarb_tsf : (s.updHarb g).tsf = s.tsf := rfl
@[simp] theorem State.updHarb_tsfLatch : (s.updHarb g).tsfLatch = s.tsfLatch := rfl
@[simp] theorem State.updHarb_tsGap : (s.updHarb g).tsGap = s.tsGap := rfl
@[simp] theorem State.updHarb_ppsLast : (s.updHarb g).ppsLast = s.ppsLast := rfl
@[simp] theorem State.updHarb_ppsUnread : (s.updHarb g).ppsUnread = s.ppsUnread := rfl
@[simp] theorem State.updHarb_cmpAt : (s.updHarb g).cmpAt = s.cmpAt := rfl
@[simp] theorem State.updHarb_log : (s.updHarb g).log = s.log := rfl
@[simp] theorem State.updHarb_fatalFirst : (s.updHarb g).fatalFirst = s.fatalFirst := rfl
@[simp] theorem State.updHarb_fatalStop : (s.updHarb g).fatalStop = s.fatalStop := rfl
@[simp] theorem State.updHarb_scanStop : (s.updHarb g).scanStop = s.scanStop := rfl
@[simp] theorem State.updHarb_thermTrip : (s.updHarb g).thermTrip = s.thermTrip := rfl
@[simp] theorem State.updHarb_tmLast : (s.updHarb g).tmLast = s.tmLast := rfl
@[simp] theorem State.updHarb_snap : (s.updHarb g).snap = s.snap := rfl
@[simp] theorem State.updHarb_dump : (s.updHarb g).dump = s.dump := rfl
@[simp] theorem State.updHarb_dumpMissed : (s.updHarb g).dumpMissed = s.dumpMissed := rfl
@[simp] theorem State.updHarb_dumpStep : (s.updHarb g).dumpStep = s.dumpStep := rfl
@[simp] theorem State.updHarb_dumpFrom : (s.updHarb g).dumpFrom = s.dumpFrom := rfl
@[simp] theorem State.updHarb_histDump : (s.updHarb g).histDump = s.histDump := rfl
@[simp] theorem State.updHarb_dys : (s.updHarb g).dys = s.dys := rfl
@[simp] theorem State.updHarb_spareMap : (s.updHarb g).spareMap = s.spareMap := rfl
@[simp] theorem State.updHarb_laneX : (s.updHarb g).laneX = s.laneX := rfl
@[simp] theorem State.updHarb_portX : (s.updHarb g).portX = s.portX := rfl
@[simp] theorem State.updHarb_laneMap : (s.updHarb g).laneMap = s.laneMap := rfl
@[simp] theorem State.updHarb_swaps : (s.updHarb g).swaps = s.swaps := rfl
@[simp] theorem State.updHarb_lmosWait : (s.updHarb g).lmosWait = s.lmosWait := rfl
@[simp] theorem State.updHarb_pauseEnd : (s.updHarb g).pauseEnd = s.pauseEnd := rfl
@[simp] theorem State.updHarb_timers : (s.updHarb g).timers = s.timers := rfl
@[simp] theorem State.updHarb_hbm : (s.updHarb g).hbm = s.hbm := rfl
@[simp] theorem State.updHarb_path : (s.updHarb g).path = s.path := rfl
@[simp] theorem State.updHarb_tm : (s.updHarb g).tm = s.tm := rfl
@[simp] theorem State.updHarb_mat : (s.updHarb g).mat = s.mat := rfl
@[simp] theorem State.updHarb_tel : (s.updHarb g).tel = s.tel := rfl
@[simp] theorem State.updHarb_bpm : (s.updHarb g).bpm = s.bpm := rfl
@[simp] theorem State.updHarb_mc : (s.updHarb g).mc = s.mc := rfl
@[simp] theorem State.updHarb_atl : (s.updHarb g).atl = s.atl := rfl
@[simp] theorem State.updHarb_ras : (s.updHarb g).ras = s.ras := rfl
@[simp] theorem State.updHarb_boot : (s.updHarb g).boot = s.boot := rfl
@[simp] theorem State.updHarb_pwr : (s.updHarb g).pwr = s.pwr := rfl
@[simp] theorem State.updHarb_keep : (s.updHarb g).keep = s.keep := rfl
@[simp] theorem State.updHarb_harb : (s.updHarb g).harb = g s.harb := rfl
@[simp] theorem State.updHarb_rd (f : Fld) : (s.updHarb g).rd f = s.rd f := rfl

end Updharb

section Updmc
variable (s : State) (st : Nat) (g : McSt → McSt)

@[simp] theorem State.updMc_pending : (s.updMc st g).pending = s.pending := rfl
@[simp] theorem State.updMc_regs : (s.updMc st g).regs = s.regs := rfl
@[simp] theorem State.updMc_latch : (s.updMc st g).latch = s.latch := rfl
@[simp] theorem State.updMc_held : (s.updMc st g).held = s.held := rfl
@[simp] theorem State.updMc_out : (s.updMc st g).out = s.out := rfl
@[simp] theorem State.updMc_free : (s.updMc st g).free = s.free := rfl
@[simp] theorem State.updMc_msixOn : (s.updMc st g).msixOn = s.msixOn := rfl
@[simp] theorem State.updMc_msixPend : (s.updMc st g).msixPend = s.msixPend := rfl
@[simp] theorem State.updMc_fuses : (s.updMc st g).fuses = s.fuses := rfl
@[simp] theorem State.updMc_domA : (s.updMc st g).domA = s.domA := rfl
@[simp] theorem State.updMc_domB : (s.updMc st g).domB = s.domB := rfl
@[simp] theorem State.updMc_tsf : (s.updMc st g).tsf = s.tsf := rfl
@[simp] theorem State.updMc_tsfLatch : (s.updMc st g).tsfLatch = s.tsfLatch := rfl
@[simp] theorem State.updMc_tsGap : (s.updMc st g).tsGap = s.tsGap := rfl
@[simp] theorem State.updMc_ppsLast : (s.updMc st g).ppsLast = s.ppsLast := rfl
@[simp] theorem State.updMc_ppsUnread : (s.updMc st g).ppsUnread = s.ppsUnread := rfl
@[simp] theorem State.updMc_cmpAt : (s.updMc st g).cmpAt = s.cmpAt := rfl
@[simp] theorem State.updMc_log : (s.updMc st g).log = s.log := rfl
@[simp] theorem State.updMc_fatalFirst : (s.updMc st g).fatalFirst = s.fatalFirst := rfl
@[simp] theorem State.updMc_fatalStop : (s.updMc st g).fatalStop = s.fatalStop := rfl
@[simp] theorem State.updMc_scanStop : (s.updMc st g).scanStop = s.scanStop := rfl
@[simp] theorem State.updMc_thermTrip : (s.updMc st g).thermTrip = s.thermTrip := rfl
@[simp] theorem State.updMc_tmLast : (s.updMc st g).tmLast = s.tmLast := rfl
@[simp] theorem State.updMc_snap : (s.updMc st g).snap = s.snap := rfl
@[simp] theorem State.updMc_dump : (s.updMc st g).dump = s.dump := rfl
@[simp] theorem State.updMc_dumpMissed : (s.updMc st g).dumpMissed = s.dumpMissed := rfl
@[simp] theorem State.updMc_dumpStep : (s.updMc st g).dumpStep = s.dumpStep := rfl
@[simp] theorem State.updMc_dumpFrom : (s.updMc st g).dumpFrom = s.dumpFrom := rfl
@[simp] theorem State.updMc_histDump : (s.updMc st g).histDump = s.histDump := rfl
@[simp] theorem State.updMc_dys : (s.updMc st g).dys = s.dys := rfl
@[simp] theorem State.updMc_spareMap : (s.updMc st g).spareMap = s.spareMap := rfl
@[simp] theorem State.updMc_laneX : (s.updMc st g).laneX = s.laneX := rfl
@[simp] theorem State.updMc_portX : (s.updMc st g).portX = s.portX := rfl
@[simp] theorem State.updMc_laneMap : (s.updMc st g).laneMap = s.laneMap := rfl
@[simp] theorem State.updMc_swaps : (s.updMc st g).swaps = s.swaps := rfl
@[simp] theorem State.updMc_lmosWait : (s.updMc st g).lmosWait = s.lmosWait := rfl
@[simp] theorem State.updMc_pauseEnd : (s.updMc st g).pauseEnd = s.pauseEnd := rfl
@[simp] theorem State.updMc_timers : (s.updMc st g).timers = s.timers := rfl
@[simp] theorem State.updMc_hbm : (s.updMc st g).hbm = s.hbm := rfl
@[simp] theorem State.updMc_path : (s.updMc st g).path = s.path := rfl
@[simp] theorem State.updMc_tm : (s.updMc st g).tm = s.tm := rfl
@[simp] theorem State.updMc_mat : (s.updMc st g).mat = s.mat := rfl
@[simp] theorem State.updMc_tel : (s.updMc st g).tel = s.tel := rfl
@[simp] theorem State.updMc_bpm : (s.updMc st g).bpm = s.bpm := rfl
@[simp] theorem State.updMc_atl : (s.updMc st g).atl = s.atl := rfl
@[simp] theorem State.updMc_ras : (s.updMc st g).ras = s.ras := rfl
@[simp] theorem State.updMc_boot : (s.updMc st g).boot = s.boot := rfl
@[simp] theorem State.updMc_pwr : (s.updMc st g).pwr = s.pwr := rfl
@[simp] theorem State.updMc_keep : (s.updMc st g).keep = s.keep := rfl
@[simp] theorem State.updMc_harb : (s.updMc st g).harb = s.harb := rfl
@[simp] theorem State.updMc_rd (f : Fld) : (s.updMc st g).rd f = s.rd f := rfl

end Updmc

section Updlane
variable (s : State) (l : Nat) (g : LaneX → LaneX)

@[simp] theorem State.updLane_pending : (s.updLane l g).pending = s.pending := rfl
@[simp] theorem State.updLane_regs : (s.updLane l g).regs = s.regs := rfl
@[simp] theorem State.updLane_latch : (s.updLane l g).latch = s.latch := rfl
@[simp] theorem State.updLane_held : (s.updLane l g).held = s.held := rfl
@[simp] theorem State.updLane_out : (s.updLane l g).out = s.out := rfl
@[simp] theorem State.updLane_free : (s.updLane l g).free = s.free := rfl
@[simp] theorem State.updLane_msixOn : (s.updLane l g).msixOn = s.msixOn := rfl
@[simp] theorem State.updLane_msixPend : (s.updLane l g).msixPend = s.msixPend := rfl
@[simp] theorem State.updLane_fuses : (s.updLane l g).fuses = s.fuses := rfl
@[simp] theorem State.updLane_domA : (s.updLane l g).domA = s.domA := rfl
@[simp] theorem State.updLane_domB : (s.updLane l g).domB = s.domB := rfl
@[simp] theorem State.updLane_tsf : (s.updLane l g).tsf = s.tsf := rfl
@[simp] theorem State.updLane_tsfLatch : (s.updLane l g).tsfLatch = s.tsfLatch := rfl
@[simp] theorem State.updLane_tsGap : (s.updLane l g).tsGap = s.tsGap := rfl
@[simp] theorem State.updLane_ppsLast : (s.updLane l g).ppsLast = s.ppsLast := rfl
@[simp] theorem State.updLane_ppsUnread : (s.updLane l g).ppsUnread = s.ppsUnread := rfl
@[simp] theorem State.updLane_cmpAt : (s.updLane l g).cmpAt = s.cmpAt := rfl
@[simp] theorem State.updLane_log : (s.updLane l g).log = s.log := rfl
@[simp] theorem State.updLane_fatalFirst : (s.updLane l g).fatalFirst = s.fatalFirst := rfl
@[simp] theorem State.updLane_fatalStop : (s.updLane l g).fatalStop = s.fatalStop := rfl
@[simp] theorem State.updLane_scanStop : (s.updLane l g).scanStop = s.scanStop := rfl
@[simp] theorem State.updLane_thermTrip : (s.updLane l g).thermTrip = s.thermTrip := rfl
@[simp] theorem State.updLane_tmLast : (s.updLane l g).tmLast = s.tmLast := rfl
@[simp] theorem State.updLane_snap : (s.updLane l g).snap = s.snap := rfl
@[simp] theorem State.updLane_dump : (s.updLane l g).dump = s.dump := rfl
@[simp] theorem State.updLane_dumpMissed : (s.updLane l g).dumpMissed = s.dumpMissed := rfl
@[simp] theorem State.updLane_dumpStep : (s.updLane l g).dumpStep = s.dumpStep := rfl
@[simp] theorem State.updLane_dumpFrom : (s.updLane l g).dumpFrom = s.dumpFrom := rfl
@[simp] theorem State.updLane_histDump : (s.updLane l g).histDump = s.histDump := rfl
@[simp] theorem State.updLane_dys : (s.updLane l g).dys = s.dys := rfl
@[simp] theorem State.updLane_spareMap : (s.updLane l g).spareMap = s.spareMap := rfl
@[simp] theorem State.updLane_portX : (s.updLane l g).portX = s.portX := rfl
@[simp] theorem State.updLane_laneMap : (s.updLane l g).laneMap = s.laneMap := rfl
@[simp] theorem State.updLane_swaps : (s.updLane l g).swaps = s.swaps := rfl
@[simp] theorem State.updLane_lmosWait : (s.updLane l g).lmosWait = s.lmosWait := rfl
@[simp] theorem State.updLane_pauseEnd : (s.updLane l g).pauseEnd = s.pauseEnd := rfl
@[simp] theorem State.updLane_timers : (s.updLane l g).timers = s.timers := rfl
@[simp] theorem State.updLane_hbm : (s.updLane l g).hbm = s.hbm := rfl
@[simp] theorem State.updLane_path : (s.updLane l g).path = s.path := rfl
@[simp] theorem State.updLane_tm : (s.updLane l g).tm = s.tm := rfl
@[simp] theorem State.updLane_mat : (s.updLane l g).mat = s.mat := rfl
@[simp] theorem State.updLane_tel : (s.updLane l g).tel = s.tel := rfl
@[simp] theorem State.updLane_bpm : (s.updLane l g).bpm = s.bpm := rfl
@[simp] theorem State.updLane_mc : (s.updLane l g).mc = s.mc := rfl
@[simp] theorem State.updLane_atl : (s.updLane l g).atl = s.atl := rfl
@[simp] theorem State.updLane_ras : (s.updLane l g).ras = s.ras := rfl
@[simp] theorem State.updLane_boot : (s.updLane l g).boot = s.boot := rfl
@[simp] theorem State.updLane_pwr : (s.updLane l g).pwr = s.pwr := rfl
@[simp] theorem State.updLane_keep : (s.updLane l g).keep = s.keep := rfl
@[simp] theorem State.updLane_harb : (s.updLane l g).harb = s.harb := rfl
@[simp] theorem State.updLane_rd (f : Fld) : (s.updLane l g).rd f = s.rd f := rfl

end Updlane

section Updport
variable (s : State) (p : Nat) (g : PortX → PortX)

@[simp] theorem State.updPort_pending : (s.updPort p g).pending = s.pending := rfl
@[simp] theorem State.updPort_regs : (s.updPort p g).regs = s.regs := rfl
@[simp] theorem State.updPort_latch : (s.updPort p g).latch = s.latch := rfl
@[simp] theorem State.updPort_held : (s.updPort p g).held = s.held := rfl
@[simp] theorem State.updPort_out : (s.updPort p g).out = s.out := rfl
@[simp] theorem State.updPort_free : (s.updPort p g).free = s.free := rfl
@[simp] theorem State.updPort_msixOn : (s.updPort p g).msixOn = s.msixOn := rfl
@[simp] theorem State.updPort_msixPend : (s.updPort p g).msixPend = s.msixPend := rfl
@[simp] theorem State.updPort_fuses : (s.updPort p g).fuses = s.fuses := rfl
@[simp] theorem State.updPort_domA : (s.updPort p g).domA = s.domA := rfl
@[simp] theorem State.updPort_domB : (s.updPort p g).domB = s.domB := rfl
@[simp] theorem State.updPort_tsf : (s.updPort p g).tsf = s.tsf := rfl
@[simp] theorem State.updPort_tsfLatch : (s.updPort p g).tsfLatch = s.tsfLatch := rfl
@[simp] theorem State.updPort_tsGap : (s.updPort p g).tsGap = s.tsGap := rfl
@[simp] theorem State.updPort_ppsLast : (s.updPort p g).ppsLast = s.ppsLast := rfl
@[simp] theorem State.updPort_ppsUnread : (s.updPort p g).ppsUnread = s.ppsUnread := rfl
@[simp] theorem State.updPort_cmpAt : (s.updPort p g).cmpAt = s.cmpAt := rfl
@[simp] theorem State.updPort_log : (s.updPort p g).log = s.log := rfl
@[simp] theorem State.updPort_fatalFirst : (s.updPort p g).fatalFirst = s.fatalFirst := rfl
@[simp] theorem State.updPort_fatalStop : (s.updPort p g).fatalStop = s.fatalStop := rfl
@[simp] theorem State.updPort_scanStop : (s.updPort p g).scanStop = s.scanStop := rfl
@[simp] theorem State.updPort_thermTrip : (s.updPort p g).thermTrip = s.thermTrip := rfl
@[simp] theorem State.updPort_tmLast : (s.updPort p g).tmLast = s.tmLast := rfl
@[simp] theorem State.updPort_snap : (s.updPort p g).snap = s.snap := rfl
@[simp] theorem State.updPort_dump : (s.updPort p g).dump = s.dump := rfl
@[simp] theorem State.updPort_dumpMissed : (s.updPort p g).dumpMissed = s.dumpMissed := rfl
@[simp] theorem State.updPort_dumpStep : (s.updPort p g).dumpStep = s.dumpStep := rfl
@[simp] theorem State.updPort_dumpFrom : (s.updPort p g).dumpFrom = s.dumpFrom := rfl
@[simp] theorem State.updPort_histDump : (s.updPort p g).histDump = s.histDump := rfl
@[simp] theorem State.updPort_dys : (s.updPort p g).dys = s.dys := rfl
@[simp] theorem State.updPort_spareMap : (s.updPort p g).spareMap = s.spareMap := rfl
@[simp] theorem State.updPort_laneX : (s.updPort p g).laneX = s.laneX := rfl
@[simp] theorem State.updPort_laneMap : (s.updPort p g).laneMap = s.laneMap := rfl
@[simp] theorem State.updPort_swaps : (s.updPort p g).swaps = s.swaps := rfl
@[simp] theorem State.updPort_lmosWait : (s.updPort p g).lmosWait = s.lmosWait := rfl
@[simp] theorem State.updPort_pauseEnd : (s.updPort p g).pauseEnd = s.pauseEnd := rfl
@[simp] theorem State.updPort_timers : (s.updPort p g).timers = s.timers := rfl
@[simp] theorem State.updPort_hbm : (s.updPort p g).hbm = s.hbm := rfl
@[simp] theorem State.updPort_path : (s.updPort p g).path = s.path := rfl
@[simp] theorem State.updPort_tm : (s.updPort p g).tm = s.tm := rfl
@[simp] theorem State.updPort_mat : (s.updPort p g).mat = s.mat := rfl
@[simp] theorem State.updPort_tel : (s.updPort p g).tel = s.tel := rfl
@[simp] theorem State.updPort_bpm : (s.updPort p g).bpm = s.bpm := rfl
@[simp] theorem State.updPort_mc : (s.updPort p g).mc = s.mc := rfl
@[simp] theorem State.updPort_atl : (s.updPort p g).atl = s.atl := rfl
@[simp] theorem State.updPort_ras : (s.updPort p g).ras = s.ras := rfl
@[simp] theorem State.updPort_boot : (s.updPort p g).boot = s.boot := rfl
@[simp] theorem State.updPort_pwr : (s.updPort p g).pwr = s.pwr := rfl
@[simp] theorem State.updPort_keep : (s.updPort p g).keep = s.keep := rfl
@[simp] theorem State.updPort_harb : (s.updPort p g).harb = s.harb := rfl
@[simp] theorem State.updPort_rd (f : Fld) : (s.updPort p g).rd f = s.rd f := rfl

end Updport

/-! ### Updates of several fields -/

/-- An event changes registers, messages and pending bits of vectors only. -/
theorem State.raise_rest (s : State) (b : Blk) (i e : Nat) :
    s.raise b i e = { s with regs := (s.raise b i e).regs, out := (s.raise b i e).out, msixPend := (s.raise b i e).msixPend } := by
  unfold State.raise State.intEdge State.sendVector
  dsimp only
  split
  · split <;> rfl
  · rfl

/-- A discarded write changes registers, messages and pending bits of vectors only. -/
theorem State.discard_rest (s : State) (q : Requester) (a st r : Nat) :
    s.discard q a st r = { s with regs := (s.discard q a st r).regs, out := (s.discard q a st r).out,
                                  msixPend := (s.discard q a st r).msixPend } := by
  unfold State.discard
  dsimp only
  split
  · rfl
  · rw [State.raise_rest]; rfl

section Setdom
variable (s : State) (d : Nat) (x : Dom)

@[simp] theorem State.setDom_pending : (s.setDom d x).pending = s.pending := by unfold State.setDom; split <;> rfl
@[simp] theorem State.setDom_regs : (s.setDom d x).regs = s.regs := by unfold State.setDom; split <;> rfl
@[simp] theorem State.setDom_latch : (s.setDom d x).latch = s.latch := by unfold State.setDom; split <;> rfl
@[simp] theorem State.setDom_held : (s.setDom d x).held = s.held := by unfold State.setDom; split <;> rfl
@[simp] theorem State.setDom_out : (s.setDom d x).out = s.out := by unfold State.setDom; split <;> rfl
@[simp] theorem State.setDom_free : (s.setDom d x).free = s.free := by unfold State.setDom; split <;> rfl
@[simp] theorem State.setDom_msixOn : (s.setDom d x).msixOn = s.msixOn := by unfold State.setDom; split <;> rfl
@[simp] theorem State.setDom_msixPend : (s.setDom d x).msixPend = s.msixPend := by unfold State.setDom; split <;> rfl
@[simp] theorem State.setDom_fuses : (s.setDom d x).fuses = s.fuses := by unfold State.setDom; split <;> rfl
@[simp] theorem State.setDom_tsf : (s.setDom d x).tsf = s.tsf := by unfold State.setDom; split <;> rfl
@[simp] theorem State.setDom_tsfLatch : (s.setDom d x).tsfLatch = s.tsfLatch := by unfold State.setDom; split <;> rfl
@[simp] theorem State.setDom_tsGap : (s.setDom d x).tsGap = s.tsGap := by unfold State.setDom; split <;> rfl
@[simp] theorem State.setDom_ppsLast : (s.setDom d x).ppsLast = s.ppsLast := by unfold State.setDom; split <;> rfl
@[simp] theorem State.setDom_ppsUnread : (s.setDom d x).ppsUnread = s.ppsUnread := by unfold State.setDom; split <;> rfl
@[simp] theorem State.setDom_cmpAt : (s.setDom d x).cmpAt = s.cmpAt := by unfold State.setDom; split <;> rfl
@[simp] theorem State.setDom_log : (s.setDom d x).log = s.log := by unfold State.setDom; split <;> rfl
@[simp] theorem State.setDom_fatalFirst : (s.setDom d x).fatalFirst = s.fatalFirst := by unfold State.setDom; split <;> rfl
@[simp] theorem State.setDom_fatalStop : (s.setDom d x).fatalStop = s.fatalStop := by unfold State.setDom; split <;> rfl
@[simp] theorem State.setDom_scanStop : (s.setDom d x).scanStop = s.scanStop := by unfold State.setDom; split <;> rfl
@[simp] theorem State.setDom_thermTrip : (s.setDom d x).thermTrip = s.thermTrip := by unfold State.setDom; split <;> rfl
@[simp] theorem State.setDom_tmLast : (s.setDom d x).tmLast = s.tmLast := by unfold State.setDom; split <;> rfl
@[simp] theorem State.setDom_snap : (s.setDom d x).snap = s.snap := by unfold State.setDom; split <;> rfl
@[simp] theorem State.setDom_dump : (s.setDom d x).dump = s.dump := by unfold State.setDom; split <;> rfl
@[simp] theorem State.setDom_dumpMissed : (s.setDom d x).dumpMissed = s.dumpMissed := by unfold State.setDom; split <;> rfl
@[simp] theorem State.setDom_dumpStep : (s.setDom d x).dumpStep = s.dumpStep := by unfold State.setDom; split <;> rfl
@[simp] theorem State.setDom_dumpFrom : (s.setDom d x).dumpFrom = s.dumpFrom := by unfold State.setDom; split <;> rfl
@[simp] theorem State.setDom_histDump : (s.setDom d x).histDump = s.histDump := by unfold State.setDom; split <;> rfl
@[simp] theorem State.setDom_dys : (s.setDom d x).dys = s.dys := by unfold State.setDom; split <;> rfl
@[simp] theorem State.setDom_spareMap : (s.setDom d x).spareMap = s.spareMap := by unfold State.setDom; split <;> rfl
@[simp] theorem State.setDom_laneX : (s.setDom d x).laneX = s.laneX := by unfold State.setDom; split <;> rfl
@[simp] theorem State.setDom_portX : (s.setDom d x).portX = s.portX := by unfold State.setDom; split <;> rfl
@[simp] theorem State.setDom_laneMap : (s.setDom d x).laneMap = s.laneMap := by unfold State.setDom; split <;> rfl
@[simp] theorem State.setDom_swaps : (s.setDom d x).swaps = s.swaps := by unfold State.setDom; split <;> rfl
@[simp] theorem State.setDom_lmosWait : (s.setDom d x).lmosWait = s.lmosWait := by unfold State.setDom; split <;> rfl
@[simp] theorem State.setDom_pauseEnd : (s.setDom d x).pauseEnd = s.pauseEnd := by unfold State.setDom; split <;> rfl
@[simp] theorem State.setDom_timers : (s.setDom d x).timers = s.timers := by unfold State.setDom; split <;> rfl
@[simp] theorem State.setDom_hbm : (s.setDom d x).hbm = s.hbm := by unfold State.setDom; split <;> rfl
@[simp] theorem State.setDom_path : (s.setDom d x).path = s.path := by unfold State.setDom; split <;> rfl
@[simp] theorem State.setDom_tm : (s.setDom d x).tm = s.tm := by unfold State.setDom; split <;> rfl
@[simp] theorem State.setDom_mat : (s.setDom d x).mat = s.mat := by unfold State.setDom; split <;> rfl
@[simp] theorem State.setDom_tel : (s.setDom d x).tel = s.tel := by unfold State.setDom; split <;> rfl
@[simp] theorem State.setDom_bpm : (s.setDom d x).bpm = s.bpm := by unfold State.setDom; split <;> rfl
@[simp] theorem State.setDom_mc : (s.setDom d x).mc = s.mc := by unfold State.setDom; split <;> rfl
@[simp] theorem State.setDom_atl : (s.setDom d x).atl = s.atl := by unfold State.setDom; split <;> rfl
@[simp] theorem State.setDom_ras : (s.setDom d x).ras = s.ras := by unfold State.setDom; split <;> rfl
@[simp] theorem State.setDom_boot : (s.setDom d x).boot = s.boot := by unfold State.setDom; split <;> rfl
@[simp] theorem State.setDom_pwr : (s.setDom d x).pwr = s.pwr := by unfold State.setDom; split <;> rfl
@[simp] theorem State.setDom_keep : (s.setDom d x).keep = s.keep := by unfold State.setDom; split <;> rfl
@[simp] theorem State.setDom_harb : (s.setDom d x).harb = s.harb := by unfold State.setDom; split <;> rfl

end Setdom

section Sendvector
variable (s : State) (k v : Nat)

@[simp] theorem State.sendVector_pending : (s.sendVector k v).pending = s.pending := by unfold State.sendVector; split <;> rfl
@[simp] theorem State.sendVector_regs : (s.sendVector k v).regs = s.regs := by unfold State.sendVector; split <;> rfl
@[simp] theorem State.sendVector_latch : (s.sendVector k v).latch = s.latch := by unfold State.sendVector; split <;> rfl
@[simp] theorem State.sendVector_held : (s.sendVector k v).held = s.held := by unfold State.sendVector; split <;> rfl
@[simp] theorem State.sendVector_free : (s.sendVector k v).free = s.free := by unfold State.sendVector; split <;> rfl
@[simp] theorem State.sendVector_msixOn : (s.sendVector k v).msixOn = s.msixOn := by unfold State.sendVector; split <;> rfl
@[simp] theorem State.sendVector_fuses : (s.sendVector k v).fuses = s.fuses := by unfold State.sendVector; split <;> rfl
@[simp] theorem State.sendVector_domA : (s.sendVector k v).domA = s.domA := by unfold State.sendVector; split <;> rfl
@[simp] theorem State.sendVector_domB : (s.sendVector k v).domB = s.domB := by unfold State.sendVector; split <;> rfl
@[simp] theorem State.sendVector_tsf : (s.sendVector k v).tsf = s.tsf := by unfold State.sendVector; split <;> rfl
@[simp] theorem State.sendVector_tsfLatch : (s.sendVector k v).tsfLatch = s.tsfLatch := by unfold State.sendVector; split <;> rfl
@[simp] theorem State.sendVector_tsGap : (s.sendVector k v).tsGap = s.tsGap := by unfold State.sendVector; split <;> rfl
@[simp] theorem State.sendVector_ppsLast : (s.sendVector k v).ppsLast = s.ppsLast := by unfold State.sendVector; split <;> rfl
@[simp] theorem State.sendVector_ppsUnread : (s.sendVector k v).ppsUnread = s.ppsUnread := by unfold State.sendVector; split <;> rfl
@[simp] theorem State.sendVector_cmpAt : (s.sendVector k v).cmpAt = s.cmpAt := by unfold State.sendVector; split <;> rfl
@[simp] theorem State.sendVector_log : (s.sendVector k v).log = s.log := by unfold State.sendVector; split <;> rfl
@[simp] theorem State.sendVector_fatalFirst : (s.sendVector k v).fatalFirst = s.fatalFirst := by unfold State.sendVector; split <;> rfl
@[simp] theorem State.sendVector_fatalStop : (s.sendVector k v).fatalStop = s.fatalStop := by unfold State.sendVector; split <;> rfl
@[simp] theorem State.sendVector_scanStop : (s.sendVector k v).scanStop = s.scanStop := by unfold State.sendVector; split <;> rfl
@[simp] theorem State.sendVector_thermTrip : (s.sendVector k v).thermTrip = s.thermTrip := by unfold State.sendVector; split <;> rfl
@[simp] theorem State.sendVector_tmLast : (s.sendVector k v).tmLast = s.tmLast := by unfold State.sendVector; split <;> rfl
@[simp] theorem State.sendVector_snap : (s.sendVector k v).snap = s.snap := by unfold State.sendVector; split <;> rfl
@[simp] theorem State.sendVector_dump : (s.sendVector k v).dump = s.dump := by unfold State.sendVector; split <;> rfl
@[simp] theorem State.sendVector_dumpMissed : (s.sendVector k v).dumpMissed = s.dumpMissed := by unfold State.sendVector; split <;> rfl
@[simp] theorem State.sendVector_dumpStep : (s.sendVector k v).dumpStep = s.dumpStep := by unfold State.sendVector; split <;> rfl
@[simp] theorem State.sendVector_dumpFrom : (s.sendVector k v).dumpFrom = s.dumpFrom := by unfold State.sendVector; split <;> rfl
@[simp] theorem State.sendVector_histDump : (s.sendVector k v).histDump = s.histDump := by unfold State.sendVector; split <;> rfl
@[simp] theorem State.sendVector_dys : (s.sendVector k v).dys = s.dys := by unfold State.sendVector; split <;> rfl
@[simp] theorem State.sendVector_spareMap : (s.sendVector k v).spareMap = s.spareMap := by unfold State.sendVector; split <;> rfl
@[simp] theorem State.sendVector_laneX : (s.sendVector k v).laneX = s.laneX := by unfold State.sendVector; split <;> rfl
@[simp] theorem State.sendVector_portX : (s.sendVector k v).portX = s.portX := by unfold State.sendVector; split <;> rfl
@[simp] theorem State.sendVector_laneMap : (s.sendVector k v).laneMap = s.laneMap := by unfold State.sendVector; split <;> rfl
@[simp] theorem State.sendVector_swaps : (s.sendVector k v).swaps = s.swaps := by unfold State.sendVector; split <;> rfl
@[simp] theorem State.sendVector_lmosWait : (s.sendVector k v).lmosWait = s.lmosWait := by unfold State.sendVector; split <;> rfl
@[simp] theorem State.sendVector_pauseEnd : (s.sendVector k v).pauseEnd = s.pauseEnd := by unfold State.sendVector; split <;> rfl
@[simp] theorem State.sendVector_timers : (s.sendVector k v).timers = s.timers := by unfold State.sendVector; split <;> rfl
@[simp] theorem State.sendVector_hbm : (s.sendVector k v).hbm = s.hbm := by unfold State.sendVector; split <;> rfl
@[simp] theorem State.sendVector_path : (s.sendVector k v).path = s.path := by unfold State.sendVector; split <;> rfl
@[simp] theorem State.sendVector_tm : (s.sendVector k v).tm = s.tm := by unfold State.sendVector; split <;> rfl
@[simp] theorem State.sendVector_mat : (s.sendVector k v).mat = s.mat := by unfold State.sendVector; split <;> rfl
@[simp] theorem State.sendVector_tel : (s.sendVector k v).tel = s.tel := by unfold State.sendVector; split <;> rfl
@[simp] theorem State.sendVector_bpm : (s.sendVector k v).bpm = s.bpm := by unfold State.sendVector; split <;> rfl
@[simp] theorem State.sendVector_mc : (s.sendVector k v).mc = s.mc := by unfold State.sendVector; split <;> rfl
@[simp] theorem State.sendVector_atl : (s.sendVector k v).atl = s.atl := by unfold State.sendVector; split <;> rfl
@[simp] theorem State.sendVector_ras : (s.sendVector k v).ras = s.ras := by unfold State.sendVector; split <;> rfl
@[simp] theorem State.sendVector_boot : (s.sendVector k v).boot = s.boot := by unfold State.sendVector; split <;> rfl
@[simp] theorem State.sendVector_pwr : (s.sendVector k v).pwr = s.pwr := by unfold State.sendVector; split <;> rfl
@[simp] theorem State.sendVector_keep : (s.sendVector k v).keep = s.keep := by unfold State.sendVector; split <;> rfl
@[simp] theorem State.sendVector_harb : (s.sendVector k v).harb = s.harb := by unfold State.sendVector; split <;> rfl

end Sendvector

section Raise
variable (s : State) (b : Blk) (i e : Nat)

@[simp] theorem State.raise_pending : (s.raise b i e).pending = s.pending := by rw [State.raise_rest]
@[simp] theorem State.raise_latch : (s.raise b i e).latch = s.latch := by rw [State.raise_rest]
@[simp] theorem State.raise_held : (s.raise b i e).held = s.held := by rw [State.raise_rest]
@[simp] theorem State.raise_free : (s.raise b i e).free = s.free := by rw [State.raise_rest]
@[simp] theorem State.raise_msixOn : (s.raise b i e).msixOn = s.msixOn := by rw [State.raise_rest]
@[simp] theorem State.raise_fuses : (s.raise b i e).fuses = s.fuses := by rw [State.raise_rest]
@[simp] theorem State.raise_domA : (s.raise b i e).domA = s.domA := by rw [State.raise_rest]
@[simp] theorem State.raise_domB : (s.raise b i e).domB = s.domB := by rw [State.raise_rest]
@[simp] theorem State.raise_tsf : (s.raise b i e).tsf = s.tsf := by rw [State.raise_rest]
@[simp] theorem State.raise_tsfLatch : (s.raise b i e).tsfLatch = s.tsfLatch := by rw [State.raise_rest]
@[simp] theorem State.raise_tsGap : (s.raise b i e).tsGap = s.tsGap := by rw [State.raise_rest]
@[simp] theorem State.raise_ppsLast : (s.raise b i e).ppsLast = s.ppsLast := by rw [State.raise_rest]
@[simp] theorem State.raise_ppsUnread : (s.raise b i e).ppsUnread = s.ppsUnread := by rw [State.raise_rest]
@[simp] theorem State.raise_cmpAt : (s.raise b i e).cmpAt = s.cmpAt := by rw [State.raise_rest]
@[simp] theorem State.raise_log : (s.raise b i e).log = s.log := by rw [State.raise_rest]
@[simp] theorem State.raise_fatalFirst : (s.raise b i e).fatalFirst = s.fatalFirst := by rw [State.raise_rest]
@[simp] theorem State.raise_fatalStop : (s.raise b i e).fatalStop = s.fatalStop := by rw [State.raise_rest]
@[simp] theorem State.raise_scanStop : (s.raise b i e).scanStop = s.scanStop := by rw [State.raise_rest]
@[simp] theorem State.raise_thermTrip : (s.raise b i e).thermTrip = s.thermTrip := by rw [State.raise_rest]
@[simp] theorem State.raise_tmLast : (s.raise b i e).tmLast = s.tmLast := by rw [State.raise_rest]
@[simp] theorem State.raise_snap : (s.raise b i e).snap = s.snap := by rw [State.raise_rest]
@[simp] theorem State.raise_dump : (s.raise b i e).dump = s.dump := by rw [State.raise_rest]
@[simp] theorem State.raise_dumpMissed : (s.raise b i e).dumpMissed = s.dumpMissed := by rw [State.raise_rest]
@[simp] theorem State.raise_dumpStep : (s.raise b i e).dumpStep = s.dumpStep := by rw [State.raise_rest]
@[simp] theorem State.raise_dumpFrom : (s.raise b i e).dumpFrom = s.dumpFrom := by rw [State.raise_rest]
@[simp] theorem State.raise_histDump : (s.raise b i e).histDump = s.histDump := by rw [State.raise_rest]
@[simp] theorem State.raise_dys : (s.raise b i e).dys = s.dys := by rw [State.raise_rest]
@[simp] theorem State.raise_spareMap : (s.raise b i e).spareMap = s.spareMap := by rw [State.raise_rest]
@[simp] theorem State.raise_laneX : (s.raise b i e).laneX = s.laneX := by rw [State.raise_rest]
@[simp] theorem State.raise_portX : (s.raise b i e).portX = s.portX := by rw [State.raise_rest]
@[simp] theorem State.raise_laneMap : (s.raise b i e).laneMap = s.laneMap := by rw [State.raise_rest]
@[simp] theorem State.raise_swaps : (s.raise b i e).swaps = s.swaps := by rw [State.raise_rest]
@[simp] theorem State.raise_lmosWait : (s.raise b i e).lmosWait = s.lmosWait := by rw [State.raise_rest]
@[simp] theorem State.raise_pauseEnd : (s.raise b i e).pauseEnd = s.pauseEnd := by rw [State.raise_rest]
@[simp] theorem State.raise_timers : (s.raise b i e).timers = s.timers := by rw [State.raise_rest]
@[simp] theorem State.raise_hbm : (s.raise b i e).hbm = s.hbm := by rw [State.raise_rest]
@[simp] theorem State.raise_path : (s.raise b i e).path = s.path := by rw [State.raise_rest]
@[simp] theorem State.raise_tm : (s.raise b i e).tm = s.tm := by rw [State.raise_rest]
@[simp] theorem State.raise_mat : (s.raise b i e).mat = s.mat := by rw [State.raise_rest]
@[simp] theorem State.raise_tel : (s.raise b i e).tel = s.tel := by rw [State.raise_rest]
@[simp] theorem State.raise_bpm : (s.raise b i e).bpm = s.bpm := by rw [State.raise_rest]
@[simp] theorem State.raise_mc : (s.raise b i e).mc = s.mc := by rw [State.raise_rest]
@[simp] theorem State.raise_atl : (s.raise b i e).atl = s.atl := by rw [State.raise_rest]
@[simp] theorem State.raise_ras : (s.raise b i e).ras = s.ras := by rw [State.raise_rest]
@[simp] theorem State.raise_boot : (s.raise b i e).boot = s.boot := by rw [State.raise_rest]
@[simp] theorem State.raise_pwr : (s.raise b i e).pwr = s.pwr := by rw [State.raise_rest]
@[simp] theorem State.raise_keep : (s.raise b i e).keep = s.keep := by rw [State.raise_rest]
@[simp] theorem State.raise_harb : (s.raise b i e).harb = s.harb := by rw [State.raise_rest]

end Raise

section Discard
variable (s : State) (q : Requester) (a st r k : Nat) (n : RegName)

@[simp] theorem State.discard_pending : (s.discard q a st r).pending = s.pending := by rw [State.discard_rest]
@[simp] theorem State.locked_pending : (s.locked q n k st).pending = s.pending := State.discard_pending ..
@[simp] theorem State.discard_latch : (s.discard q a st r).latch = s.latch := by rw [State.discard_rest]
@[simp] theorem State.locked_latch : (s.locked q n k st).latch = s.latch := State.discard_latch ..
@[simp] theorem State.discard_held : (s.discard q a st r).held = s.held := by rw [State.discard_rest]
@[simp] theorem State.locked_held : (s.locked q n k st).held = s.held := State.discard_held ..
@[simp] theorem State.discard_free : (s.discard q a st r).free = s.free := by rw [State.discard_rest]
@[simp] theorem State.locked_free : (s.locked q n k st).free = s.free := State.discard_free ..
@[simp] theorem State.discard_msixOn : (s.discard q a st r).msixOn = s.msixOn := by rw [State.discard_rest]
@[simp] theorem State.locked_msixOn : (s.locked q n k st).msixOn = s.msixOn := State.discard_msixOn ..
@[simp] theorem State.discard_fuses : (s.discard q a st r).fuses = s.fuses := by rw [State.discard_rest]
@[simp] theorem State.locked_fuses : (s.locked q n k st).fuses = s.fuses := State.discard_fuses ..
@[simp] theorem State.discard_domA : (s.discard q a st r).domA = s.domA := by rw [State.discard_rest]
@[simp] theorem State.locked_domA : (s.locked q n k st).domA = s.domA := State.discard_domA ..
@[simp] theorem State.discard_domB : (s.discard q a st r).domB = s.domB := by rw [State.discard_rest]
@[simp] theorem State.locked_domB : (s.locked q n k st).domB = s.domB := State.discard_domB ..
@[simp] theorem State.discard_tsf : (s.discard q a st r).tsf = s.tsf := by rw [State.discard_rest]
@[simp] theorem State.locked_tsf : (s.locked q n k st).tsf = s.tsf := State.discard_tsf ..
@[simp] theorem State.discard_tsfLatch : (s.discard q a st r).tsfLatch = s.tsfLatch := by rw [State.discard_rest]
@[simp] theorem State.locked_tsfLatch : (s.locked q n k st).tsfLatch = s.tsfLatch := State.discard_tsfLatch ..
@[simp] theorem State.discard_tsGap : (s.discard q a st r).tsGap = s.tsGap := by rw [State.discard_rest]
@[simp] theorem State.locked_tsGap : (s.locked q n k st).tsGap = s.tsGap := State.discard_tsGap ..
@[simp] theorem State.discard_ppsLast : (s.discard q a st r).ppsLast = s.ppsLast := by rw [State.discard_rest]
@[simp] theorem State.locked_ppsLast : (s.locked q n k st).ppsLast = s.ppsLast := State.discard_ppsLast ..
@[simp] theorem State.discard_ppsUnread : (s.discard q a st r).ppsUnread = s.ppsUnread := by rw [State.discard_rest]
@[simp] theorem State.locked_ppsUnread : (s.locked q n k st).ppsUnread = s.ppsUnread := State.discard_ppsUnread ..
@[simp] theorem State.discard_cmpAt : (s.discard q a st r).cmpAt = s.cmpAt := by rw [State.discard_rest]
@[simp] theorem State.locked_cmpAt : (s.locked q n k st).cmpAt = s.cmpAt := State.discard_cmpAt ..
@[simp] theorem State.discard_log : (s.discard q a st r).log = s.log := by rw [State.discard_rest]
@[simp] theorem State.locked_log : (s.locked q n k st).log = s.log := State.discard_log ..
@[simp] theorem State.discard_fatalFirst : (s.discard q a st r).fatalFirst = s.fatalFirst := by rw [State.discard_rest]
@[simp] theorem State.locked_fatalFirst : (s.locked q n k st).fatalFirst = s.fatalFirst := State.discard_fatalFirst ..
@[simp] theorem State.discard_fatalStop : (s.discard q a st r).fatalStop = s.fatalStop := by rw [State.discard_rest]
@[simp] theorem State.locked_fatalStop : (s.locked q n k st).fatalStop = s.fatalStop := State.discard_fatalStop ..
@[simp] theorem State.discard_scanStop : (s.discard q a st r).scanStop = s.scanStop := by rw [State.discard_rest]
@[simp] theorem State.locked_scanStop : (s.locked q n k st).scanStop = s.scanStop := State.discard_scanStop ..
@[simp] theorem State.discard_thermTrip : (s.discard q a st r).thermTrip = s.thermTrip := by rw [State.discard_rest]
@[simp] theorem State.locked_thermTrip : (s.locked q n k st).thermTrip = s.thermTrip := State.discard_thermTrip ..
@[simp] theorem State.discard_tmLast : (s.discard q a st r).tmLast = s.tmLast := by rw [State.discard_rest]
@[simp] theorem State.locked_tmLast : (s.locked q n k st).tmLast = s.tmLast := State.discard_tmLast ..
@[simp] theorem State.discard_snap : (s.discard q a st r).snap = s.snap := by rw [State.discard_rest]
@[simp] theorem State.locked_snap : (s.locked q n k st).snap = s.snap := State.discard_snap ..
@[simp] theorem State.discard_dump : (s.discard q a st r).dump = s.dump := by rw [State.discard_rest]
@[simp] theorem State.locked_dump : (s.locked q n k st).dump = s.dump := State.discard_dump ..
@[simp] theorem State.discard_dumpMissed : (s.discard q a st r).dumpMissed = s.dumpMissed := by rw [State.discard_rest]
@[simp] theorem State.locked_dumpMissed : (s.locked q n k st).dumpMissed = s.dumpMissed := State.discard_dumpMissed ..
@[simp] theorem State.discard_dumpStep : (s.discard q a st r).dumpStep = s.dumpStep := by rw [State.discard_rest]
@[simp] theorem State.locked_dumpStep : (s.locked q n k st).dumpStep = s.dumpStep := State.discard_dumpStep ..
@[simp] theorem State.discard_dumpFrom : (s.discard q a st r).dumpFrom = s.dumpFrom := by rw [State.discard_rest]
@[simp] theorem State.locked_dumpFrom : (s.locked q n k st).dumpFrom = s.dumpFrom := State.discard_dumpFrom ..
@[simp] theorem State.discard_histDump : (s.discard q a st r).histDump = s.histDump := by rw [State.discard_rest]
@[simp] theorem State.locked_histDump : (s.locked q n k st).histDump = s.histDump := State.discard_histDump ..
@[simp] theorem State.discard_dys : (s.discard q a st r).dys = s.dys := by rw [State.discard_rest]
@[simp] theorem State.locked_dys : (s.locked q n k st).dys = s.dys := State.discard_dys ..
@[simp] theorem State.discard_spareMap : (s.discard q a st r).spareMap = s.spareMap := by rw [State.discard_rest]
@[simp] theorem State.locked_spareMap : (s.locked q n k st).spareMap = s.spareMap := State.discard_spareMap ..
@[simp] theorem State.discard_laneX : (s.discard q a st r).laneX = s.laneX := by rw [State.discard_rest]
@[simp] theorem State.locked_laneX : (s.locked q n k st).laneX = s.laneX := State.discard_laneX ..
@[simp] theorem State.discard_portX : (s.discard q a st r).portX = s.portX := by rw [State.discard_rest]
@[simp] theorem State.locked_portX : (s.locked q n k st).portX = s.portX := State.discard_portX ..
@[simp] theorem State.discard_laneMap : (s.discard q a st r).laneMap = s.laneMap := by rw [State.discard_rest]
@[simp] theorem State.locked_laneMap : (s.locked q n k st).laneMap = s.laneMap := State.discard_laneMap ..
@[simp] theorem State.discard_swaps : (s.discard q a st r).swaps = s.swaps := by rw [State.discard_rest]
@[simp] theorem State.locked_swaps : (s.locked q n k st).swaps = s.swaps := State.discard_swaps ..
@[simp] theorem State.discard_lmosWait : (s.discard q a st r).lmosWait = s.lmosWait := by rw [State.discard_rest]
@[simp] theorem State.locked_lmosWait : (s.locked q n k st).lmosWait = s.lmosWait := State.discard_lmosWait ..
@[simp] theorem State.discard_pauseEnd : (s.discard q a st r).pauseEnd = s.pauseEnd := by rw [State.discard_rest]
@[simp] theorem State.locked_pauseEnd : (s.locked q n k st).pauseEnd = s.pauseEnd := State.discard_pauseEnd ..
@[simp] theorem State.discard_timers : (s.discard q a st r).timers = s.timers := by rw [State.discard_rest]
@[simp] theorem State.locked_timers : (s.locked q n k st).timers = s.timers := State.discard_timers ..
@[simp] theorem State.discard_hbm : (s.discard q a st r).hbm = s.hbm := by rw [State.discard_rest]
@[simp] theorem State.locked_hbm : (s.locked q n k st).hbm = s.hbm := State.discard_hbm ..
@[simp] theorem State.discard_path : (s.discard q a st r).path = s.path := by rw [State.discard_rest]
@[simp] theorem State.locked_path : (s.locked q n k st).path = s.path := State.discard_path ..
@[simp] theorem State.discard_tm : (s.discard q a st r).tm = s.tm := by rw [State.discard_rest]
@[simp] theorem State.locked_tm : (s.locked q n k st).tm = s.tm := State.discard_tm ..
@[simp] theorem State.discard_mat : (s.discard q a st r).mat = s.mat := by rw [State.discard_rest]
@[simp] theorem State.locked_mat : (s.locked q n k st).mat = s.mat := State.discard_mat ..
@[simp] theorem State.discard_tel : (s.discard q a st r).tel = s.tel := by rw [State.discard_rest]
@[simp] theorem State.locked_tel : (s.locked q n k st).tel = s.tel := State.discard_tel ..
@[simp] theorem State.discard_bpm : (s.discard q a st r).bpm = s.bpm := by rw [State.discard_rest]
@[simp] theorem State.locked_bpm : (s.locked q n k st).bpm = s.bpm := State.discard_bpm ..
@[simp] theorem State.discard_mc : (s.discard q a st r).mc = s.mc := by rw [State.discard_rest]
@[simp] theorem State.locked_mc : (s.locked q n k st).mc = s.mc := State.discard_mc ..
@[simp] theorem State.discard_atl : (s.discard q a st r).atl = s.atl := by rw [State.discard_rest]
@[simp] theorem State.locked_atl : (s.locked q n k st).atl = s.atl := State.discard_atl ..
@[simp] theorem State.discard_ras : (s.discard q a st r).ras = s.ras := by rw [State.discard_rest]
@[simp] theorem State.locked_ras : (s.locked q n k st).ras = s.ras := State.discard_ras ..
@[simp] theorem State.discard_boot : (s.discard q a st r).boot = s.boot := by rw [State.discard_rest]
@[simp] theorem State.locked_boot : (s.locked q n k st).boot = s.boot := State.discard_boot ..
@[simp] theorem State.discard_pwr : (s.discard q a st r).pwr = s.pwr := by rw [State.discard_rest]
@[simp] theorem State.locked_pwr : (s.locked q n k st).pwr = s.pwr := State.discard_pwr ..
@[simp] theorem State.discard_keep : (s.discard q a st r).keep = s.keep := by rw [State.discard_rest]
@[simp] theorem State.locked_keep : (s.locked q n k st).keep = s.keep := State.discard_keep ..
@[simp] theorem State.discard_harb : (s.discard q a st r).harb = s.harb := by rw [State.discard_rest]
@[simp] theorem State.locked_harb : (s.locked q n k st).harb = s.harb := State.discard_harb ..

end Discard

end Sys2Proof.Machine
end

