-- ==== Sys2Proof/Tests/Slice0.lean ====
section
/-! SUPPORT. Tests: ill-formed terms that WellFormed refuses, the spec's tables and worked examples, and for each statement states and
operands that meet its hypotheses. -/

set_option Elab.async false

namespace Sys2Proof.Tests

open Sys2Proof Sys2Proof.Machine

/-! ### Ill-formed terms -/

/-- A Dysum entry that fits. -/
def hdr : DysHdr := { via := .ring 0, tag := 1, indirect := false, argLen := 0, suits := true, object := 0, resAddr := 0, resLen := 0 }

/-- A port form that fits. -/
def form : PortDef := { port := 0, width := 1, firstLane := 0, mode := 1, fec := 0, pmd := 0, an := false, spare := 0x3F, trusted := false }

theorem test_wf_accepts : (Instr.nop hdr).wf = true ∧ (Instr.portDefine hdr form).wf = true ∧ (Instr.frameReceive 0 (.octets [0] false 0) 0).wf = true := by decide

theorem test_wf_amounts : (Instr.frameReceive 0 (.octets [] false 0) 0).wf = false ∧ (Instr.frameReceive 0 (.pairs []) 0).wf = false ∧
    (Instr.cellGrant 0 0 0).wf = false ∧ (Instr.creditReturn 0 0 0 0).wf = false ∧
    (Instr.timeTick 0).wf = false ∧ (Instr.mcRequest 0 0 0 none false 0).wf = false ∧ (Instr.mcRequest 0 0 2 (some [1]) false 0).wf = false := by decide

theorem test_wf_requesters : (Instr.rxTailWrite (.vf 0) 0 0).wf = false ∧ (Instr.txTailWrite (.dysPcie 4) 0 0).wf = false ∧
    (Instr.laneBitslip (.vf 1) 0).wf = false ∧ (Instr.portCtlEnable (.dysPcie 34) 0 true).wf = false ∧ (Instr.harbRingCfgWrite (.vf 0) false 0 0).wf = false ∧
    (Instr.vfWindowAccess 0 0 4 none).wf = false ∧ (Instr.cntCtlVfWrite 0 0 0).wf = false ∧ (Instr.cntUserPagesWrite .pf0 0 0 0).wf = false ∧
    (Instr.cntUserPagesWrite (.vf 1) 1 0 0).wf = false ∧ (Instr.dysCmdTailWrite (.vf 0) 0 0).wf = false := by decide

theorem test_wf_accesses : (Instr.vfWindowAccess 1 0 3 none).wf = false ∧ (Instr.vfWindowAccess 1 2 4 none).wf = false ∧
    (Instr.vfWindowAccess 1 0 1 (some 256)).wf = false ∧ (Instr.lowWordRead .pf0 0 5).wf = false ∧ (Instr.lowWordWrite .pf0 2 0).wf = false ∧
    (Instr.highWordWrite .pf0 2 0).wf = false ∧ (Instr.registerWrite .pf0 4 8 0).wf = false ∧ (Instr.registerWrite .pf0 0 1 256).wf = false ∧
    (Instr.intStatusWrite .pf0 .mc 6 0).wf = false ∧ (Instr.intStatusWrite .pf0 .lane 16 0).wf = false ∧ (Instr.msixUnmask 1 32).wf = false := by decide

theorem test_wf_descriptors : (Instr.rxFrameWrite [2 ^ 64] []).wf = false ∧ (Instr.pcieLinkChange true 0 3 false).wf = false := by decide

theorem test_wf_datagrams : (Instr.dysDatagramReceive 0 false (2 ^ 32) 0 0 0 0 0 0).wf = false ∧ (Instr.dysDatagramReceive 0 true 0 (2 ^ 128) 0 0 0 0 0).wf = false ∧
    (Instr.dysDatagramReceive 0 false 0 0 65536 0 0 0 0).wf = false ∧ (Instr.dysDatagramReceive 0 false 0 0 0 256 0 0 0).wf = false ∧
    (Instr.dysDatagramReceive 0 false 0 0 0 0 256 0 0).wf = false ∧ (Instr.dysDatagramReceive 0 false 0 0 0 0 0 65536 0).wf = false ∧
    (Instr.dysDatagramReceive 0 false 0 0 0 0 0 0 (2 ^ 32)).wf = false := by decide

theorem test_wf_entries : (Instr.nop { hdr with tag := 65536 }).wf = false ∧ (Instr.nop { hdr with argLen := 49 }).wf = false ∧
    (Instr.nop { hdr with indirect := true, argLen := 65536 }).wf = false ∧ (Instr.nop { hdr with object := 2 ^ 32 }).wf = false ∧
    (Instr.nop { hdr with resAddr := 2 ^ 64 }).wf = false ∧ (Instr.nop { hdr with resLen := 2 ^ 32 }).wf = false ∧
    (Instr.sparePolicy hdr (.mode 4 0)).wf = false ∧ (Instr.sparePolicy hdr (.mode 0 256)).wf = false := by decide

theorem test_wf_forms : (Instr.portDefine hdr { form with width := 8 }).wf = false ∧ (Instr.portDefine hdr { form with firstLane := 64 }).wf = false ∧
    (Instr.portDefine hdr { form with mode := 8 }).wf = false ∧ (Instr.portDefine hdr { form with fec := 4 }).wf = false ∧
    (Instr.portDefine hdr { form with pmd := 4 }).wf = false ∧ (Instr.portDefine hdr { form with spare := 64 }).wf = false := by decide

theorem test_wf_lists : (Instr.adaptUpdate 0 0 (List.replicate 33 0) false none 0).wf = false ∧ (Instr.thermalRead []).wf = false ∧
    (Instr.ageingMeasure []).wf = false := by decide

/-- No word spells a command. -/
theorem test_no_word (n w : Nat) : decodeTableWord n w = none := rfl

/-! ### Tables and worked examples of the spec -/

/-- The table of R48, row by row; the four corner cells are never sent. -/
theorem test_pam6_map : (List.range 32).map pam6Pair =
    [(0, 1), (0, 2), (0, 3), (0, 4), (1, 0), (1, 1), (1, 2), (1, 3), (1, 4), (1, 5), (2, 0), (2, 1), (2, 2), (2, 3), (2, 4), (2, 5),
     (3, 0), (3, 1), (3, 2), (3, 3), (3, 4), (3, 5), (4, 0), (4, 1), (4, 2), (4, 3), (4, 4), (4, 5), (5, 1), (5, 2), (5, 3), (5, 4)] := by decide

/-- The corner pairs of R49. -/
theorem test_pam6_corners : [(0, 0), (0, 5), (5, 0), (5, 5)].map pam6Value = [0, 3, 28, 31] := by decide

theorem test_pam6_inverse : (List.range 32).map (fun v => pam6Value (pam6Pair v)) = List.range 32 := by decide

/-- A training frame of R59 is 4,352 symbols, and its head reads back. -/
theorem test_training_head : trainingRead (trainingHead 0x1234 0x5678) = some (0x1234, 0x5678, crc8 0x1234 0x5678) := by decide +kernel

/-- The fields of R68, and another block type. -/
theorem test_lmos : lmosRead (lmosBlock 1 7 0x3F 0xA5) = some (1, 7, 0x3F, 0xA5) ∧ (lmosBlock 1 7 0x3F 0xA5).length = 66 ∧
    lmosRead idleBlock = none := by decide +kernel

/-- What the scrambler of R86 does, the descrambler undoes. -/
theorem test_scrambler : (unscramble 0x2AAAAAAAAAAAAAA (scramble 0x2AAAAAAAAAAAAAA startBlock).2).2 = startBlock := by decide +kernel

/-- The roots of the generator polynomial of R88, whose degree is 16. -/
theorem test_generator : rsGenerator.length = 17 ∧ (List.range 16).all (fun j => polyAt rsGenerator (gfPow j) = 0) = true ∧
    polyAt rsGenerator (gfPow 16) ≠ 0 := by decide +kernel

/-- SHA-384 of "abc" (FIPS 180-4). -/
theorem test_sha : sha384 [0x61, 0x62, 0x63] =
    0xcb00753f45a35e8bb5a03d699ac65007272c32ab0eded1631a8b605a43ff5bed8086072ba1e7cc2358baeca134c825a7 := by decide +kernel

/-- The base point of P-384 lies on the curve (FIPS 186-5). -/
theorem test_base_point : ecOn ecG.1 ecG.2 = true := by decide +kernel

/-- The two lanes of the worked example beside R483. -/
theorem test_lane_balls : [LaneSignal.txP, .txN, .rxP, .rxN].map (laneBall 79) = [(2, 58), (2, 59), (12, 58), (12, 59)] ∧
    [LaneSignal.txP, .txN, .rxP, .rxN].map (laneBall 400) = [(61, 89), (62, 89), (61, 79), (62, 79)] := by decide

/-- PWRFAIL_N and RESET_N (R484). -/
theorem test_corner_balls : (cornerBalls ⟨true, true⟩).take 2 = [(.one "PWRFAIL_N", 96, 96), (.one "RESET_N", 96, 94)] := by decide +kernel

/-- 0.72 V is 24 steps of 5 mV above 0.60 V (R487). -/
theorem test_vr_frame : vrFrame 720 = 24 := by decide

/-- A 32-bit entry of R148: the sum wraps, and a comparison that fails leaves the entry. -/
theorem test_alu : aluApply .add 32 0xFFFFFFFF 2 0 = 1 ∧ aluApply .cas 32 5 4 9 = 5 ∧ aluApply .cas 32 5 5 9 = 9 := by decide

/-! ### States and operands that meet the hypotheses of the statements -/

/-- The state after reset with some fields changed. -/
def mk (l : List (Fld × Nat)) : State := l.foldl (fun s e => s.wr e.1 e.2) State.reset

/-- A device with one command waiting, and another behind it. -/
def queued : State := { State.reset with pending := [.jtagIdcode, .jtagExtest] }

theorem wit_StepRunsFront : ∃ (s : State) (c : Instr) (rest : List Instr), s.pending = c :: rest := ⟨queued, _, _, rfl⟩

theorem wit_QueueOrder : (∃ s : State, s.pending = []) ∧
    ∃ (s t : State) (c : Instr) (rest : List Instr), s.pending = c :: rest ∧ stepsTo s t :=
  ⟨⟨State.reset, rfl⟩, queued, _, _, _, rfl, rfl⟩

theorem wit_InvariantKept : ∃ s t : State, s.inv ∧ stepsTo s t := ⟨State.reset, _, by unfold State.inv fusesLegal; decide +kernel, rfl⟩

theorem wit_FusesNeverUndone : ∃ s t : State, stepsTo s t := ⟨queued, _, rfl⟩

theorem wit_OnlyNamedCommands : ∃ (s t : State) (c : Instr) (rest : List Instr), s.pending = c :: rest ∧ stepsTo s t ∧ blowsFuses c = false ∧
    writesHbm c = false ∧ resetsDevice c = false := ⟨queued, _, _, _, rfl, rfl, rfl, rfl, rfl⟩

theorem wit_DeniedRequests : (∃ (s : State) (q : Requester), s.grants q true = false) ∧ (∃ (s : State) (q : Requester), s.grants q false = false) :=
  ⟨⟨State.reset, .vf 1, by decide +kernel⟩, State.reset, .pf0, by decide +kernel⟩

theorem wit_AlphaCodes : (∃ k : Nat, k ≤ 9) ∧ ∃ k : Nat, 10 ≤ k ∧ k ≤ 15 := ⟨⟨9, by decide⟩, 15, by decide⟩

theorem wit_SpillBand : (∃ (s : State) (h : Fin 2), s.on (F.LAG_HALF_STATUS_SPILLING h) = false) ∧
    ∃ (s : State) (h : Fin 2), s.on (F.LAG_HALF_STATUS_SPILLING h) = true ∧ s.rd (F.LAG_SPILL_HIGH_HIGH h) ≤ s.rd (F.LAG_SPILL_LOW_LOW h) :=
  ⟨⟨State.reset, 0, by decide +kernel⟩,
   mk [(F.LAG_HALF_STATUS_SPILLING 1, 1), (F.LAG_SPILL_LOW_LOW 1, 4), (F.LAG_SPILL_HIGH_HIGH 1, 4)], 1, by decide +kernel⟩

theorem wit_InterruptStatus : ∃ (b : Blk) (i e : Nat), i < 16 ∧ e < (intStatus b i).width := ⟨.lane, 15, 0, by decide +kernel⟩

theorem wit_BudgetConserved : ∃ l : List (Nat × FerryMember), (l.map (fun e => e.1)).Nodup ∧ l ≠ [] ∧ ∀ e ∈ l, e.2.floor ≤ e.2.grant ∧ e.2.grant ≤ e.2.ceil :=
  ⟨[(1, ⟨100, 90, 50, 200, 0, 0, false, 50⟩), (2, ⟨100, 90, 50, 200, 0, 7, true, 200⟩)], by decide +kernel⟩

/-- A small image: one REG_INIT section that writes nothing, signed with a key made for this test. -/
def smallImage : Image where
  bytes := leBytes 16 0xa09000000014c4d5947 ++ leBytes 16 0x1000011000000000000000007 ++ List.replicate 224 0 ++
    leBytes 32 0x1000ffff000c ++ List.replicate 3808 0 ++
    beBytes 48 0xd5136d1655c65b914e665c9ed35e4e01d1d8da847736957a6a751ea4cf2f80a1380f08c2ae239bc498d1b1bb3fba744f ++
    beBytes 48 0x0e746b1ce69a33ebe8e8a90604f1b2804397cf0410fed1beb08a12e00f8e7f3ec07a6774569844826d0370826f7f1f9f ++
    beBytes 48 0x4e47a237cc608f03d38bf953c2c25c8cb99de4bbada9288a6b43656520b2559143f1fd344dde210802bbc630315996be ++
    beBytes 48 0x80c06254886ea72793316b464fd4fa68991c475092bd71d8582ec488f0981969f4497d459df38e05514fdb73e80489e5 ++ List.replicate 64 0
  bodies := [some (.regInit [])]

/-- A device whose key slot 0 holds that key. -/
def keyed : State := { State.reset with fuses := { State.reset.fuses with digests :=
  [(0, 0x1d68575b2ea1901aa6a14cf3562ab80bff4a85322c7b0a319cec84181d84ea3160ae72219243f8b259eebe0f7da56a15)] } }

theorem wit_ImageChecks : keyed.imageError smallImage false = 0 := by decide +kernel


theorem wit_TimeTicks :
    ∃ (n : Nat), 0 < n := by
  exact ⟨2, by decide +kernel⟩

theorem wit_LightSteps :
    (∃ (s : State) (q : Requester) (d : Fin 2), s.grants q false = true ∧ s.stepAllowed d = true) ∧
    ∃ (s : State) (q : Requester) (d : Fin 2), s.grants q false = true ∧ s.stepAllowed d = false := by
  refine ⟨⟨State.reset, .regInit, 1, ?_⟩,
   ⟨mk [(F.LIGHT_CTL_MODE 1, 0)], .regInit, 1, ?_⟩⟩ <;> decide +kernel

theorem wit_LightControls :
    (∃ (s : State) (q : Requester) (d : Fin 2), s.grants q false = true ∧ s.lightState d ≠ 1) ∧
    (∃ (s : State) (q : Requester) (d : Fin 2), s.grants q false = true ∧ (s.lightState d = 1 ∨ s.lightState d = 3)) ∧
    (∃ (s : State) (q : Requester) (d : Fin 2), s.grants q false = true ∧ s.lightState d ≠ 0) ∧
    (∃ (s : State) (q : Requester) (d : Fin 2), s.grants q false = true ∧ s.lightState d = 1) ∧
    (∃ (s : State) (q : Requester) (d : Fin 2), s.grants q false = true ∧ (s.lightState d = 0 ∨ s.lightState d = 2)) ∧
    (∃ (s : State) (q : Requester) (d : Fin 2), s.grants q false = true ∧ s.lightState d = 0) ∧
    (∃ (s : State) (q : Requester), s.grants q false = true) ∧
    (∃ (s : State) (q : Requester) (d : Fin 2), s.grants q false = true ∧ s.on (F.LIGHT_CTL_MODE d) = false) ∧
    (∃ (s : State) (q : Requester) (d : Fin 2), s.grants q false = true ∧ s.on (F.LIGHT_CTL_MODE d) = true) ∧
    ∃ (s : State) (q : Requester) (d : Fin 2) (mode : _), s.grants q false = true ∧ s.lightState d = 0 ∧ s.on (F.LIGHT_CTL_MODE d) ≠ mode :=
    by
  refine ⟨⟨State.reset, .regInit, 1, ?_⟩,
   ⟨mk [(F.LIGHT_STATUS_STATE 1, 1)], .regInit, 1, ?_⟩,
   ⟨mk [(F.LIGHT_STATUS_STATE 1, 1)], .regInit, 1, ?_⟩,
   ⟨mk [(F.LIGHT_STATUS_STATE 1, 1)], .regInit, 1, ?_⟩,
   ⟨State.reset, .regInit, 1, ?_⟩,
   ⟨State.reset, .regInit, 1, ?_⟩,
   ⟨State.reset, .regInit, ?_⟩,
   ⟨mk [(F.LIGHT_CTL_MODE 1, 0)], .regInit, 1, ?_⟩,
   ⟨State.reset, .regInit, 1, ?_⟩,
   ⟨State.reset, .regInit, 0, true, ?_⟩⟩ <;> decide +kernel

theorem wit_LightControls_2 :
    (∃ (s : State) (q : Requester) (d : Fin 2) (adj : BitVec 40), s.grants q false = true ∧ s.on (F.LIGHT_CTL_MODE d) = true ∧ adj.toNat ≠
    s.rd (F.LIGHT_RATE_ADJ_ADJ d)) ∧
    (∃ (s : State) (q : Requester) (d : Fin 2) (incr : BitVec 40), s.grants q false = true ∧ s.on (F.LIGHT_CTL_MODE d) = false ∧ incr.toNat
    ≠ s.incrRead d) ∧
    ∃ (s : State) (q : Requester) (d : Fin 2) (mode : _), s.grants q false = true ∧ s.lightState d ≠ 0 ∧ s.on (F.LIGHT_CTL_MODE d) ≠ mode :=
    by
  refine ⟨⟨mk [(F.LIGHT_STATUS_STATE 1, 1)], .regInit, 1, 0x9e34968fb8#40, ?_⟩,
   ⟨mk [(F.LIGHT_CTL_MODE 1, 0)], .regInit, 1, 0xfffffffffd#40, ?_⟩,
   ⟨mk [(F.LIGHT_CTL_MODE 1, 0), (F.LIGHT_STATUS_STATE 1, 1)], .regInit, 1, true, ?_⟩⟩ <;> decide +kernel

theorem wit_MasterLoss :
    (∃ (s : State) (d : Fin 2), s.lightState d = 2 ∧ bit (s.rd (F.LIGHT_CTL_SRC d)) 0 = true ∧ s.wdExpired d = true) ∧
    (∃ (s : State) (d : Fin 2), s.lightState d = 2 ∧ bit (s.rd (F.LIGHT_CTL_SRC d)) 1 = true ∧ s.ppsMissed d = true) ∧
    ∃ (s : State) (d : Fin 2), s.lightState d ≠ 2 := by
  refine ⟨⟨mk [(F.LIGHT_CTL_SRC 1, 3), (F.LIGHT_STATUS_STATE 1, 2), (F.LIGHT_TICKS_TICKS, 10000000000)], 1, ?_⟩,
   ⟨{ mk [(F.LIGHT_CTL_SRC 1, 2), (F.LIGHT_STATUS_STATE 1, 2)] with domA := { sec := 4 } }, 1, ?_⟩,
   ⟨State.reset, 0, ?_⟩⟩ <;> decide +kernel

theorem wit_TimingInputs :
    (∃ (s : State), s.ppsLast.any (fun t => s.now - t < 800000000) = false) ∧
    (∃ (s : State), s.on F.LIGHT_PPS_OUT_CFG_EN = true ∧ (s.dom (s.rd F.LIGHT_PPS_OUT_CFG_DOMAIN)).atSecond (sext 16 (s.rd
    F.LIGHT_PPS_OUT_CFG_OFFSET) * 2560 * 2 ^ 40) = true) ∧
    (∃ (s : State), s.domA.atSecond 0 = true) ∧
    (∃ (s : State), s.ppsLast.any (fun t => s.now - t < 800000000) = true) ∧
    (∃ (s : State) (q : Requester) (i : Fin 16), s.grants q false = true ∧ mget s.tsf i [] = []) ∧
    (∃ (s : State) (q : Requester) (i : Fin 16), s.grants q false = true ∧ (mget s.tsf i []).isEmpty = false) ∧
    (∃ (s : State), s.on F.LIGHT_TM_CMP_NS_ARM = true ∧ (s.cmpAt).any (fun x => decide (x.1 * 1000000000 + x.2 ≤ s.domA.sec * 1000000000 +
    s.domA.ns)) = true) ∧
    ∃ (s : State), (s.cmpAt).any (fun x => decide (s.domA.sec * 1000000000 + s.domA.ns < x.1 * 1000000000 + x.2)) = true := by
  refine ⟨⟨State.reset, ?_⟩,
   ⟨mk [(F.LIGHT_PPS_OUT_CFG_EN, 1)], ?_⟩,
   ⟨State.reset, ?_⟩,
   ⟨{ State.reset with ppsLast := some 749 }, ?_⟩,
   ⟨State.reset, .regInit, 2, ?_⟩,
   ⟨{ State.reset with tsf := [(7, [{ w0 := 6222966749, w1 := 3, ts := 4 }, { w0 := 6222966749, w1 := 3, ts := 4 }, { w0 := 6222966749, w1 := 3, ts := 4 }])] },
    .regInit, 7, ?_⟩,
   ⟨{ mk [(F.LIGHT_TM_CMP_NS_ARM, 1)] with domA := { sec := 3 }, cmpAt := some (2, 0) }, ?_⟩,
   ⟨{ State.reset with cmpAt := some (6, 0) }, ?_⟩⟩ <;> decide +kernel

theorem wit_RegisterReads :
    (∃ (s : State) (q : Requester) (addr : BitVec 28), addr.toNat % 4 = 0 ∧ requesterSource q ≠ 1 ∧ s.reach addr.toNat = none) ∧
    (∃ (s : State) (q : Requester) (addr : BitVec 28), addr.toNat % 4 = 0 ∧ requesterSource q ≠ 1 ∧ (s.reach addr.toNat).any (fun pr =>
    decide (pr.2.2 = false ∧ (pr.1) ≠ .LIGHT_TSF_POP ∧ ((regRow (pr.1)).fields (pr.2.1)).all (fun f => f.2 ≠ .rc) = true)) = true) ∧
    (∃ (s : State) (q : Requester) (addr : BitVec 28), addr.toNat % 4 = 0 ∧ requesterSource q ≠ 1 ∧ (s.reach addr.toNat).any (fun pr =>
    decide (pr.2.2 = true ∧ (pr.1) ≠ .LIGHT_PPS_IN_TS ∧ (pr.1) ≠ .PRS_STEPS ∧ (mget s.latch (requesterIx q) none).any (fun l => decide
    (l.reg = (pr.1) ∧ l.ix = (pr.2.1))) = true)) = true) ∧
    (∃ (s : State) (addr : BitVec 28) (f : Fin 32), addr.toNat % 4 = 0 ∧ s.vfReaches (Fin.val f) addr.toNat = false) ∧
    ∃ (s : State) (q : Requester) (addr : BitVec 28), addr.toNat % 4 = 0 ∧ requesterSource q ≠ 1 ∧ s.ready = true := by
  refine ⟨⟨State.reset, .dysPcie 2, 0x190d01c#28, ?_⟩,
   ⟨State.reset, .pf0, 0xd000200#28, ?_⟩,
   ⟨{ mk [(F.BOOT_STATUS_STAGE, 6)] with latch := [(0, some { reg := .LIGHT_TICKS, ix := 0, hi := 7 })] }, .pf0, 0x050030c#28, ?_⟩,
   ⟨State.reset, 0xd000200#28, 5, ?_⟩,
   ⟨mk [(F.BOOT_STATUS_STAGE, 6)], .dysPcie 0, 0x90011a4#28, ?_⟩⟩ <;> decide +kernel

theorem wit_RegisterWrites :
    (∃ (s : State) (q : Requester) (addr : BitVec 28), (q = .pf0 ∨ q = .jtag ∨ q = .regInit) ∧ (s.reach addr.toNat).any (fun pr => decide
    (pr.2.2 = true ∧ addr.toNat % 4 = 0 ∧ (mget s.held (requesterIx q) none).any (fun x => decide (x.reg = (pr.1) ∧ x.ix = (pr.2.1))) =
    true)) = true) ∧
    (∃ (s : State) (q : Requester) (addr : BitVec 28), (q = .pf0 ∨ q = .jtag ∨ q = .regInit) ∧ mget s.held (requesterIx q) none = none ∧
    addr.toNat % 4 = 0 ∧ (s.reach addr.toNat).any (fun pr => decide (pr.2.2 = false ∧ (regRow (pr.1)).wide = true)) = true) ∧
    (∃ (s : State) (q : Requester) (addr : BitVec 28), (q = .pf0 ∨ q = .jtag ∨ q = .regInit) ∧ mget s.held (requesterIx q) none = none ∧
    addr.toNat % 4 = 0 ∧ (s.reach addr.toNat).any (fun pr => decide (pr.2.2 = false ∧ (regRow (pr.1)).wide = true ∧ addr.toNat % 8 = 0)) =
    true) ∧
    (∃ (s : State) (q : Requester) (addr : BitVec 28), (q = .pf0 ∨ q = .jtag ∨ q = .regInit) ∧ mget s.held (requesterIx q) none = none ∧
    addr.toNat % 4 = 0 ∧ (s.reach addr.toNat).any (fun pr => decide (pr.2.2 = false ∧ (regRow (pr.1)).wide = false)) = true) ∧
    (∃ (s : State) (q : Requester) (addr : BitVec 28), (q = .pf0 ∨ q = .jtag ∨ q = .regInit) ∧ mget s.held (requesterIx q) none = none ∧
    addr.toNat % 4 = 0 ∧ s.reach addr.toNat = none) ∧
    ∃ (s : State) (q : Requester) (addr : BitVec 28), (q = .pf0 ∨ q = .jtag ∨ q = .regInit) ∧ mget s.held (requesterIx q) none = none ∧
    (s.reach (addr.toNat / 4 * 4)).any (fun pr => decide (pr.2.2 = false)) = true := by
  refine ⟨⟨{ mk [(F.BOOT_STATUS_STAGE, 6)] with held := [(0, some { reg := .LIGHT_TICKS, ix := 0, lo := 9 })] }, .pf0, 0x050030c#28, ?_⟩,
   ⟨mk [(F.BOOT_STATUS_STAGE, 6)], .regInit, 0xb000010#28, ?_⟩,
   ⟨mk [(F.BOOT_STATUS_STAGE, 6)], .regInit, 0xb000010#28, ?_⟩,
   ⟨State.reset, .pf0, 0xd000200#28, ?_⟩,
   ⟨State.reset, .pf0, 0x030001c#28, ?_⟩,
   ⟨State.reset, .pf0, 0xd000200#28, ?_⟩⟩ <;> decide +kernel

theorem wit_InterruptWrites :
    (∃ (s : State) (q : Requester) (b : Blk) (i : Fin 16), s.ready = true ∧ (q = .pf0 ∨ q = .jtag ∨ q = .regInit) ∧ mget s.held (requesterIx
    q) none = none ∧ intBlks.any (fun e => e.1 = b && i < e.2) = true) ∧
    (∃ (s : State) (q : Requester), s.ready = true ∧ (q = .pf0 ∨ q = .jtag ∨ q = .regInit) ∧ mget s.held (requesterIx q) none = none) ∧
    ∃ (s : State) (q : Requester) (owner : Fin 32) (v : Fin 1056), s.ready = true ∧ (q = .pf0 ∨ q = .jtag ∨ q = .regInit) ∧ mget s.held
    (requesterIx q) none = none ∧ (owner.val = 0 ∨ v.val < 32) := by
  refine ⟨⟨mk [(F.BOOT_STATUS_STAGE, 6)], .jtag, .light, 0, ?_⟩,
   ⟨mk [(F.BOOT_STATUS_STAGE, 6)], .jtag, ?_⟩,
   ⟨mk [(F.BOOT_STATUS_STAGE, 6)], .pf0, 0, 292, ?_⟩⟩ <;> decide +kernel

theorem wit_RingRegisters :
    (∃ (s : State) (f : Fin 32) (off : Fin 1048576), 0 < f.val ∧ off.val % 4 = 0 ∧ s.windowAddr f off = none) ∧
    (∃ (s : State) (f : Fin 32) (off : Fin 1048576), 0 < f.val ∧ off.val % 4 = 0 ∧ (s.windowAddr f off).isSome = true) ∧
    (∃ (s : State) (f : Fin 32) (off : Fin 1048576) (q : Requester) (r : Fin 64), 0 < f.val ∧ off.val % 4 = 0 ∧ s.ready = true ∧ mget s.held
    (requesterIx q) none = none ∧ (q = .pf0 ∨ q = .vf f ∧ s.ringOwner false r = f)) ∧
    (∃ (s : State) (f : Fin 32) (off : Fin 1048576) (q : Requester) (r : Fin 64), 0 < f.val ∧ off.val % 4 = 0 ∧ s.ready = true ∧ mget s.held
    (requesterIx q) none = none ∧ (q = .pf0 ∨ q = .vf f ∧ s.ringOwner true r = f)) ∧
    (∃ (s : State) (f : Fin 32) (off : Fin 1048576) (q : Requester) (r : Fin 64), 0 < f.val ∧ off.val % 4 = 0 ∧ s.ready = true ∧ mget s.held
    (requesterIx q) none = none ∧ s.ringOwner false r ≠ f) ∧
    (∃ (s : State) (q : Requester) (r : Fin 64) (v : BitVec 32), s.ready = true ∧ (q = .pf0 ∨ q = .regInit) ∧ mget s.held (requesterIx q)
    none = none ∧ s.on (F.HARB_RX_CFG_EN r) = false ∧ v.getLsbD 0 = true) ∧
    (∃ (s : State) (q : Requester) (r : Fin 64), s.ready = true ∧ (q = .pf0 ∨ q = .regInit) ∧ mget s.held (requesterIx q) none = none ∧ s.on
    (F.HARB_TX_CFG_EN r) = false) ∧
    ∃ (s : State) (q : Requester) (r : Fin 64) (v : BitVec 32), s.ready = true ∧ (q = .pf0 ∨ q = .regInit) ∧ mget s.held (requesterIx q)
    none = none ∧ s.on (F.HARB_TX_CFG_EN r) = true ∧ v.getLsbD 0 = true ∧ s.ringOwner true r ≠ v.toNat / 2 ^ 5 % 2 ^ 5 := by
  refine ⟨⟨State.reset, 14, 740468, ?_⟩,
   ⟨State.reset, 12, 65568, ?_⟩,
   ⟨mk [(F.BOOT_STATUS_STAGE, 6)], 4, 65580, .pf0, 52, ?_⟩,
   ⟨mk [(F.BOOT_STATUS_STAGE, 6)], 4, 65580, .pf0, 52, ?_⟩,
   ⟨mk [(F.BOOT_STATUS_STAGE, 6)], 2, 503636, .vf 4, 40, ?_⟩,
   ⟨mk [(F.BOOT_STATUS_STAGE, 6)], .regInit, 61, 0xd1f053b1#32, ?_⟩,
   ⟨mk [(F.BOOT_STATUS_STAGE, 6)], .pf0, 11, ?_⟩,
   ⟨mk [(F.BOOT_STATUS_STAGE, 6), (F.HARB_TX_CFG_EN 1, 1), (F.HARB_TX_CFG_OWNER 1, 8)], .pf0, 1, 0x00000001#32, ?_⟩⟩ <;> decide +kernel

theorem wit_HarbourTimers :
    (∃ (s : State) (r : Fin 64), (mfind s.harb.since r).any (fun a => decide (a + 1600 * s.rd (F.HARB_RX_CFG_ITR r) ≤ s.now)) = true) ∧
    ∃ (s : State) (r : Fin 64), (mfind s.harb.since r).any (fun a => decide (s.now < a + 1600 * s.rd (F.HARB_RX_CFG_ITR r))) = true := by
  refine ⟨⟨{ mk [(F.LIGHT_TICKS_TICKS, 11248680053757434576)] with harb := { since := [(40, 7)] } }, 40, ?_⟩,
   ⟨{ State.reset with harb := { since := [(40, 7)] } }, 40, ?_⟩⟩ <;> decide +kernel

theorem wit_RingFrames :
    (∃ (s : State) (bufs : List Nat), (s.cpuDecide).any (fun c => decide ((s.headPkt c.ix).any (fun pr => decide (s.rxNeed (c.ix - 9216)
    (pr.2).data.length ≤ bufs.length)) = true)) = true) ∧
    (∃ (s : State) (bufs : List Nat), (s.cpuDecide).any (fun c => decide ((s.headPkt c.ix).any (fun pr => decide (s.rxNeed (c.ix - 9216)
    (pr.2).data.length ≤ bufs.length ∧ s.on F.DBG_CTL_ARM = false)) = true)) = true) ∧
    (∃ (s : State) (r : Fin 64) (ds : List (BitVec 256)) (data : Bytes), s.ringRuns true r = true ∧ s.stopped = false ∧ ((takeFrameDescs
    (min 16 (s.posted true r)) (ds.map txDesc)).head?).any (fun d => decide (((takeFrameDescs (min 16 (s.posted true r)) (ds.map
    txDesc)).getLast?).any (fun e => decide ((e.last = true ∨ (takeFrameDescs (min 16 (s.posted true r)) (ds.map txDesc)).length = 16) ∧
    (txDescsOk (takeFrameDescs (min 16 (s.posted true r)) (ds.map txDesc)) d = false ∨ data.length ≠ ((takeFrameDescs (min 16 (s.posted true
    r)) (ds.map txDesc)).map (fun x => x.length)).sum))) = true)) = true) ∧
    (∃ (s : State) (r : Fin 64) (ds : List (BitVec 256)) (data : Bytes), s.ringRuns true r = true ∧ s.stopped = false ∧ ((takeFrameDescs
    (min 16 (s.posted true r)) (ds.map txDesc)).head?).any (fun d => decide (((takeFrameDescs (min 16 (s.posted true r)) (ds.map
    txDesc)).getLast?).any (fun e => decide ((e.last = true ∨ (takeFrameDescs (min 16 (s.posted true r)) (ds.map txDesc)).length = 16) ∧
    txDescsOk (takeFrameDescs (min 16 (s.posted true r)) (ds.map txDesc)) d = true ∧ data.length = ((takeFrameDescs (min 16 (s.posted true
    r)) (ds.map txDesc)).map (fun x => x.length)).sum)) = true)) = true) ∧
    (∃ (s : State), s.cpuDecide = none) ∧
    (∃ (s : State) (r : Fin 64), (s.ringRuns true r = false ∨ s.stopped = true)) ∧
    (∃ (s : State) (r : Fin 64) (ds : List (BitVec 256)), s.ringRuns true r = true ∧ s.stopped = false ∧ ((takeFrameDescs (min 16 (s.posted
    true r)) (ds.map txDesc)).head?).isSome = true ∧ ((takeFrameDescs (min 16 (s.posted true r)) (ds.map txDesc)).getLast?).any (fun e =>
    decide (e.last = false ∧ (takeFrameDescs (min 16 (s.posted true r)) (ds.map txDesc)).length < 16)) = true) ∧
    ∃ (s : State) (r : Fin 64) (ds : List (BitVec 256)), takeFrameDescs (min 16 (s.posted true r)) (ds.map txDesc) = [] := by
  refine ⟨⟨{ mk [(F.HARB_STATUS_LINK_UP, 1), (F.HARB_RX_CFG_EN 0, 1)] with path := { pkts := [(5, { data := [], md := { egressPort := 0, queue := 1, mcastGroup := 0, pg := 0, colour := 0, ecnCap := false, drop := false, dropReason := 0, group := 4095, groupHash := 0, trapReason := 0, trapMode := 0, mirror := 0, atoll := false, session := 0, telFlags := 0, parseFail := 15, badFrame := false, egressMeta := 0, flowKey := 0, hostPtp := none }, inPort := 1023, host := true, ts := 2369416605, tsB := 2369416606, t16 := 2369416605, half := 0, cells := [16385, 81922], acct := .none, refs := 1, ce := false, deep := false, admitted := 2369416605, timeA := 0, bad := false, payOff := 0, back := [], backHalf := 0, moving := 0, own := [] })], queues := [(9216, [{ pkt := 5, depth := 0 }, { pkt := 6, depth := 1 }])] } },
    [4096], ?_⟩,
   ⟨{ mk [(F.HARB_STATUS_LINK_UP, 1), (F.HARB_RX_CFG_EN 0, 1)] with path := { pkts := [(5, { data := [], md := { egressPort := 0, queue := 1, mcastGroup := 0, pg := 0, colour := 0, ecnCap := false, drop := false, dropReason := 0, group := 4095, groupHash := 0, trapReason := 0, trapMode := 0, mirror := 0, atoll := false, session := 0, telFlags := 0, parseFail := 15, badFrame := false, egressMeta := 0, flowKey := 0, hostPtp := none }, inPort := 1023, host := true, ts := 2369416605, tsB := 2369416606, t16 := 2369416605, half := 0, cells := [16385, 81922], acct := .none, refs := 1, ce := false, deep := false, admitted := 2369416605, timeA := 0, bad := false, payOff := 0, back := [], backHalf := 0, moving := 0, own := [] })], queues := [(9216, [{ pkt := 5, depth := 0 }, { pkt := 6, depth := 1 }])] } },
    [4096, 8192], ?_⟩,
   ⟨mk [(F.HARB_STATUS_LINK_UP, 1), (F.HARB_TX_CFG_EN 6, 1), (F.HARB_TX_HEAD_HEAD 6, 32120)], 6,
    [0x00000000000000000000110a000000bc000301eb000500400000000000000000#256,
    0x00000000000000000000003400000101000e016c010500400000000000000000#256], (List.replicate 128 0x07#8), ?_⟩,
   ⟨mk [(F.HARB_STATUS_LINK_UP, 1), (F.HARB_TX_CFG_EN 1, 1), (F.HARB_TX_TAIL_TAIL 1, 28347)], 1,
    [0x000000000000000000000001000000f5000d01aa010500400000000000000000#256,
    0x000000000000000000000005000000dc000700c5030000400000000000000000#256,
    0x0000000000000000000000020000010d000900b2030300400000000000000000#256,
    0x00000000000000717bb29ab300000123000a0073030500400000000000000000#256], (List.replicate 64 0x07#8), ?_⟩,
   ⟨State.reset, ?_⟩,
   ⟨State.reset, 50, ?_⟩,
   ⟨mk [(F.HARB_STATUS_LINK_UP, 1), (F.HARB_TX_CFG_EN 4, 1), (F.HARB_TX_HEAD_HEAD 4, 65535)], 4,
    [0x000000000000000000001061000000f5000f0051030041420000000000000000#256], ?_⟩,
   ⟨State.reset, 46, [0x00000000000000000000043f0000016a000d013e030700400000000000000000#256], ?_⟩⟩ <;> decide +kernel

theorem wit_DysumDoors :
    (∃ (s : State) (q : Requester) (k : Fin 35), mget s.held (requesterIx q) none = none ∧ (q = .pf0 ∧ (s.ready = true ∨ k.val < 4) ∨ (∃ f :
    Fin 32, 0 < f.val ∧ q = .vf f ∧ k.val = 3 + f ∧ s.ready = true))) ∧
    (∃ (s : State) (e : Fin 2) (ver : _) (ty : _) (count : Nat), (ver ≠ 1 ∨ ty ≠ 1 ∨ count = 0 ∨ 16 < count ∨ s.on (F.DYS_ETH_CFG_EN e) =
    false)) ∧
    (∃ (s : State) (e : Fin 2) (src count seq : Nat), 0 < count ∧ count ≤ 16 ∧ seq < 2 ^ 32 ∧ s.on (F.DYS_ETH_CFG_EN e) = true ∧ s.on
    (F.DYS_ETH_CFG_ACL_EN e) = true ∧ s.aclHas e (s.on (F.DYS_ETH_CFG_IPV6 e)) src = false) ∧
    (∃ (s : State) (e : Fin 2) (src count seq : Nat), 0 < count ∧ count ≤ 16 ∧ seq < 2 ^ 32 ∧ s.on (F.DYS_ETH_CFG_EN e) = true ∧ (s.on
    (F.DYS_ETH_CFG_ACL_EN e) = false ∨ s.aclHas e (s.on (F.DYS_ETH_CFG_IPV6 e)) src = true) ∧ ((s.ethX e).cache.find? (fun c => c.1 =
    seq)).isSome = true) ∧
    (∃ (s : State) (e : Fin 2) (src count seq : Nat), 0 < count ∧ count ≤ 16 ∧ seq < 2 ^ 32 ∧ s.on (F.DYS_ETH_CFG_EN e) = true ∧ (s.on
    (F.DYS_ETH_CFG_ACL_EN e) = false ∨ s.aclHas e (s.on (F.DYS_ETH_CFG_IPV6 e)) src = true) ∧ (s.ethX e).lastSeq.any (fun last => decide
    ((s.ethX e).cache.find? (fun c => c.1 = seq) = none ∧ (s.ethX e).cur = none ∧ 0 < (seq + 2 ^ 32 - last) % 2 ^ 32 ∧ (seq + 2 ^ 32 - last)
    % 2 ^ 32 ≤ 64)) = true) ∧
    ∃ (s : State) (e : Fin 2) (src count seq : Nat), 0 < count ∧ count ≤ 16 ∧ seq < 2 ^ 32 ∧ s.on (F.DYS_ETH_CFG_EN e) = true ∧ (s.on
    (F.DYS_ETH_CFG_ACL_EN e) = false ∨ s.aclHas e (s.on (F.DYS_ETH_CFG_IPV6 e)) src = true) ∧ (s.ethX e).lastSeq.any (fun last => decide
    ((s.ethX e).cache.find? (fun c => c.1 = seq) = none ∧ (s.ethX e).cur = none ∧ 64 < (seq + 2 ^ 32 - last) % 2 ^ 32)) = true := by
  refine ⟨⟨mk [(F.BOOT_STATUS_STAGE, 6)], .pf0, 34, ?_⟩,
   ⟨State.reset, 1, 39, 9355442619, 2574, ?_⟩,
   ⟨mk [(F.DYS_ETH_CFG_EN 1, 1), (F.DYS_ETH_CFG_ACL_EN 1, 1)], 1, 5, 16, 2 ^ 32 - 1, ?_⟩,
   ⟨{ mk [(F.DYS_ETH_CFG_EN 1, 1), (F.DYS_ETH_CFG_ACL_EN 1, 0)] with dys := { State.reset.dys with eth := [(1, { cache := [(7, [])] })] } },
    1, 5, 1, 7, ?_⟩,
   ⟨{ mk [(F.DYS_ETH_CFG_EN 1, 1), (F.DYS_ETH_CFG_ACL_EN 1, 0)] with dys := { State.reset.dys with eth := [(1, { lastSeq := some (2 ^ 32 - 1) })] } },
    1, 5, 1, 63, ?_⟩,
   ⟨{ mk [(F.DYS_ETH_CFG_EN 1, 1), (F.DYS_ETH_CFG_ACL_EN 1, 0)] with dys := { State.reset.dys with eth := [(1, { lastSeq := some (2 ^ 32 - 1) })] } },
    1, 5, 1, 64, ?_⟩⟩ <;> decide +kernel

theorem wit_DysumAnswers :
    (∃ (s : State) (h : DysHdr) (k : Fin 35), (s.dysTake (.ring k)).isSome = true ∧ dysBadForm { h with via := .ring k } = false) ∧
    (∃ (s : State) (h : DysHdr), s.dysTake .i2c = some s ∧ s.ready = true ∧ h.suits = true ∧ dysBadForm { h with via := .i2c } = false) ∧
    (∃ (s : State) (h : DysHdr), s.dysTake h.via = none) ∧
    (∃ (s : State) (h : DysHdr), (s.dysTake h.via).isSome = true ∧ h.suits = true ∧ s.ready = true ∧ levelOf h.via < lvOperator) ∧
    (∃ (s : State) (h : DysHdr), (s.dysTake h.via).isSome = true ∧ h.suits = true ∧ s.ready = true ∧ levelOf h.via < lvOwner) ∧
    (∃ (s : State) (h : DysHdr), (s.dysTake h.via).isSome = true ∧ h.suits = true ∧ s.ready = true ∧ lvOperator ≤ levelOf h.via ∧ 512 ≤
    h.object) ∧
    (∃ (s : State) (h : DysHdr), (s.dysTake h.via).isSome = true ∧ h.suits = true ∧ s.ready = false) ∧
    ∃ (s : State) (h : DysHdr), (s.dysTake h.via).isSome = true ∧ h.suits = true ∧ s.ready = true ∧ dysBadForm h = true ∧ lvMonitor ≤
    levelOf h.via := by
  refine ⟨⟨mk [(F.HARB_STATUS_LINK_UP, 1), (F.DYS_RING_CFG_EN 5, 1), (F.DYS_CMD_HEAD_HEAD 5, 3835008937)], { via := .ring 0, tag := 13, indirect := false, argLen := 4, suits := true, object := 33, resAddr := 4096, resLen := 64 },
    5, ?_⟩,
   ⟨mk [(F.BOOT_STATUS_STAGE, 6)], { via := .ring 2, tag := 0, indirect := false, argLen := 4, suits := true, object := 173, resAddr := 4096, resLen := 64 },
    ?_⟩,
   ⟨State.reset, { via := .ring 34, tag := 51, indirect := false, argLen := 4, suits := true, object := 8, resAddr := 4096, resLen := 64 },
    ?_⟩,
   ⟨mk [(F.BOOT_STATUS_STAGE, 6)], { via := .i2c, tag := 89, indirect := false, argLen := 4, suits := true, object := 805306405, resAddr := 4096, resLen := 64 },
    ?_⟩,
   ⟨{ mk [(F.BOOT_STATUS_STAGE, 6)] with dys := { eth := [(1, { lastSeq := some 1, cur := none, waiting := [(2, 2)], cache := [] })] } }, { via := .eth 1, tag := 0, indirect := false, argLen := 4, suits := true, object := 2147483659, resAddr := 4096, resLen := 64 },
    ?_⟩,
   ⟨{ mk [(F.BOOT_STATUS_STAGE, 6)] with dys := { eth := [(1, { lastSeq := some 1, cur := none, waiting := [(2, 2)], cache := [] })] } }, { via := .eth 1, tag := 0, indirect := false, argLen := 4, suits := true, object := 2147483659, resAddr := 4096, resLen := 64 },
    ?_⟩,
   ⟨mk [(F.HARB_STATUS_LINK_UP, 1), (F.DYS_RING_CFG_EN 4, 1), (F.DYS_CMD_HEAD_HEAD 4, 76368477)], { via := .ring 4, tag := 34, indirect := false, argLen := 4, suits := true, object := 13, resAddr := 4096, resLen := 64 },
    ?_⟩,
   ⟨{ mk [(F.BOOT_STATUS_STAGE, 6)] with dys := { eth := [(1, { lastSeq := some 0, cur := none, waiting := [(1, 2)], cache := [] })] } }, { via := .eth 1, tag := 74, indirect := true, argLen := 4, suits := true, object := 1342177289, resAddr := 4096, resLen := 64 },
    ?_⟩⟩ <;> decide +kernel

theorem wit_DysumAccesses :
    (∃ (s : State) (h : DysHdr) (count : Fin 16), (s.dysTake h.via).any (fun u => decide (u.ready = true ∧ h.suits = true ∧ dysBadForm h =
    false ∧ 0 < count.val ∧ count.val ≤ 8 ∧ wordsExist h.object count = true ∧ lvMonitor ≤ levelOf h.via ∧ (levelOf h.via = lvMonitor →
    monitorReads h.object count = true))) = true) ∧
    (∃ (s : State) (h : DysHdr) (words : List (BitVec 32)), (s.dysTake h.via).any (fun u => decide (u.ready = true ∧ h.suits = true ∧
    dysBadForm h = false ∧ 0 < words.length ∧ words.length ≤ 8 ∧ wordsExist h.object words.length = true ∧ levelOf h.via = lvOwner)) = true)
    ∧
    (∃ (s : State) (h : DysHdr) (count : Nat), (s.dysTake h.via).any (fun u => decide (u.ready = true ∧ h.suits = true ∧ dysBadForm h =
    false ∧ 0 < count ∧ lvMonitor ≤ levelOf h.via)) = true) ∧
    (∃ (s : State) (h : DysHdr), (s.dysTake h.via).any (fun u => decide (u.ready = true ∧ h.suits = true ∧ dysBadForm h = false ∧ lvOperator
    ≤ levelOf h.via)) = true) ∧
    (∃ (s : State) (h : DysHdr), (s.dysTake h.via).any (fun u => decide (u.ready = true ∧ h.suits = true ∧ dysBadForm h = false ∧ h.object <
    512 ∧ (levelOf h.via ≠ lvTenant ∨ bit (u.rd (F.HARB_VF_PORTS_PORTS (16 * vfOf h.via + h.object / 32))) (h.object % 32) = true))) = true)
    ∧
    ∃ (s : State) (h : DysHdr), (s.dysTake h.via).any (fun u => decide (u.ready = true ∧ h.suits = true ∧ dysBadForm h = false ∧ h.object <
    128 ∧ lvMonitor ≤ levelOf h.via)) = true := by
  refine ⟨⟨mk [(F.BOOT_STATUS_STAGE, 6), (F.HARB_STATUS_LINK_UP, 1), (F.DYS_RING_CFG_EN 2, 1), (F.DYS_CMD_HEAD_HEAD 2, 4)], { via := .ring 2, tag := 69, indirect := false, argLen := 4, suits := true, object := 296, resAddr := 4096, resLen := 64 },
    2, ?_⟩,
   ⟨mk [(F.BOOT_STATUS_STAGE, 6), (F.HARB_STATUS_LINK_UP, 1), (F.DYS_RING_CFG_EN 2, 1), (F.DYS_CMD_HEAD_HEAD 2, 4)], { via := .ring 2, tag := 69, indirect := false, argLen := 4, suits := true, object := 296, resAddr := 4096, resLen := 64 },
    [0xe91ad175#32, 0xe91ad175#32], ?_⟩,
   ⟨mk [(F.BOOT_STATUS_STAGE, 6), (F.HARB_STATUS_LINK_UP, 1), (F.DYS_RING_CFG_EN 2, 1), (F.DYS_CMD_HEAD_HEAD 2, 4294967295)], { via := .ring 2, tag := 0, indirect := false, argLen := 4, suits := true, object := 173, resAddr := 4096, resLen := 64 },
    44, ?_⟩,
   ⟨mk [(F.BOOT_STATUS_STAGE, 6), (F.HARB_STATUS_LINK_UP, 1), (F.DYS_RING_CFG_EN 2, 1), (F.DYS_CMD_HEAD_HEAD 2, 4294967295)], { via := .ring 2, tag := 0, indirect := false, argLen := 4, suits := true, object := 173, resAddr := 4096, resLen := 64 },
    ?_⟩,
   ⟨mk [(F.BOOT_STATUS_STAGE, 6), (F.HARB_STATUS_LINK_UP, 1), (F.DYS_RING_CFG_EN 2, 1), (F.DYS_CMD_HEAD_HEAD 2, 4294967295)], { via := .ring 2, tag := 0, indirect := false, argLen := 4, suits := true, object := 173, resAddr := 4096, resLen := 64 },
    ?_⟩,
   ⟨mk [(F.BOOT_STATUS_STAGE, 6), (F.HARB_STATUS_LINK_UP, 1), (F.DYS_RING_CFG_EN 3, 1), (F.DYS_CMD_HEAD_HEAD 3, 4221824293)], { via := .ring 3, tag := 16, indirect := false, argLen := 4, suits := true, object := 1, resAddr := 4096, resLen := 64 },
    ?_⟩⟩ <;> decide +kernel

theorem wit_DysumPortsAndSpares :
    (∃ (s : State) (h : DysHdr) (d : PortDef), (s.dysTake h.via).any (fun u => decide (u.ready = true ∧ h.suits = true ∧ dysBadForm h =
    false ∧ levelOf h.via = lvOwner ∧ h.object < 512 ∧ u.portState h.object ≤ 1 ∧ d.width ≠ 0 ∧ u.formError { d with port := h.object } =
    0)) = true) ∧
    (∃ (s : State) (h : DysHdr) (d : PortDef), (s.dysTake h.via).any (fun u => decide (u.ready = true ∧ h.suits = true ∧ dysBadForm h =
    false ∧ levelOf h.via = lvOwner ∧ h.object < 512 ∧ u.portState h.object = 1 ∧ d.width = 0)) = true) ∧
    (∃ (s : State) (h : DysHdr), (s.dysTake h.via).any (fun u => decide (u.ready = true ∧ h.suits = true ∧ dysBadForm h = false ∧ levelOf
    h.via = lvOwner ∧ h.object < 512 ∧ 1 < u.portState h.object)) = true) ∧
    (∃ (s : State) (h : DysHdr), (s.dysTake h.via).any (fun u => decide (u.ready = true ∧ h.suits = true ∧ dysBadForm h = false ∧ levelOf
    h.via = lvOwner ∧ h.object < 512 ∧ u.portState h.object = 1)) = true) ∧
    (∃ (s : State) (h : DysHdr), (s.dysTake h.via).any (fun u => decide (u.ready = true ∧ h.suits = true ∧ dysBadForm h = false ∧ levelOf
    h.via = lvOwner ∧ h.object < 512 ∧ u.portState h.object = 0)) = true) ∧
    (∃ (s : State) (h : DysHdr), (s.dysTake h.via).any (fun u => decide (u.ready = true ∧ h.suits = true ∧ dysBadForm h = false ∧ lvOperator
    ≤ levelOf h.via ∧ (h.object / 2 ^ 28) < 7 ∧ objectOk (h.object / 2 ^ 28) (h.object % 2 ^ 28) = true ∧ u.canReplace (h.object / 2 ^ 28)
    (h.object % 2 ^ 28) = false)) = true) ∧
    (∃ (s : State) (h : DysHdr), (s.dysTake h.via).any (fun u => decide (u.ready = true ∧ h.suits = true ∧ dysBadForm h = false ∧ lvOperator
    ≤ levelOf h.via ∧ (h.object / 2 ^ 28) < 7 ∧ objectOk (h.object / 2 ^ 28) (h.object % 2 ^ 28) = true ∧ u.canReplace (h.object / 2 ^ 28)
    (h.object % 2 ^ 28) = true)) = true) ∧
    (∃ (s : State) (h : DysHdr), (s.dysTake h.via).any (fun u => decide (u.ready = true ∧ h.suits = true ∧ dysBadForm h = false ∧ lvOperator
    ≤ levelOf h.via ∧ (h.object / 2 ^ 28) < 7 ∧ objectOk (h.object / 2 ^ 28) (h.object % 2 ^ 28) = true ∧ u.returnable (h.object / 2 ^ 28)
    (h.object % 2 ^ 28) = true ∧ u.ras.returning = none)) = true) ∧
    (∃ (s : State) (h : DysHdr), (s.dysTake h.via).any (fun u => decide (u.ready = true ∧ h.suits = true ∧ dysBadForm h = false ∧ lvOperator
    ≤ levelOf h.via ∧ (h.object / 2 ^ 28) < 7 ∧ objectOk (h.object / 2 ^ 28) (h.object % 2 ^ 28) = true ∧ (u.requestSlot (h.object / 2 ^ 28)
    (h.object % 2 ^ 28)).isSome = true)) = true) ∧
    ∃ (s : State) (h : DysHdr) (m : _) (ask : Nat), (s.dysTake h.via).any (fun u => decide (u.ready = true ∧ h.suits = true ∧ dysBadForm h =
    false ∧ lvOperator ≤ levelOf h.via ∧ m ≤ 1 ∧ ask < 256 ∧ u.on F.RAS_SPARE_STATUS_BUSY = false)) = true := by
  refine ⟨⟨mk [(F.BOOT_STATUS_STAGE, 6), (F.HARB_STATUS_LINK_UP, 1), (F.DYS_RING_CFG_EN 0, 1), (F.DYS_CMD_HEAD_HEAD 0, 1)], { via := .ring 0, tag := 68, indirect := false, argLen := 4, suits := true, object := 0, resAddr := 4096, resLen := 64 },
    { port := 2, width := 3, firstLane := 0, mode := 5, fec := 2, pmd := 2, an := false, spare := 63, trusted := false }, ?_⟩,
   ⟨mk [(F.BOOT_STATUS_STAGE, 6), (F.HARB_STATUS_LINK_UP, 1), (F.DYS_RING_CFG_EN 1, 1), (F.DYS_CMD_TAIL_TAIL 1, 1962254830),
    (F.PORT_STATUS_STATE 3, 1)], { via := .ring 1, tag := 47, indirect := false, argLen := 4, suits := true, object := 3, resAddr := 4096, resLen := 64 },
    { port := 2, width := 0, firstLane := 8, mode := 1, fec := 0, pmd := 2, an := true, spare := 63, trusted := false }, ?_⟩,
   ⟨mk [(F.BOOT_STATUS_STAGE, 6), (F.HARB_STATUS_LINK_UP, 1), (F.DYS_RING_CFG_EN 0, 1), (F.DYS_CMD_HEAD_HEAD 0, 920011234),
    (F.PORT_STATUS_STATE 3, 4)], { via := .ring 0, tag := 61, indirect := false, argLen := 4, suits := true, object := 3, resAddr := 4096, resLen := 64 },
    ?_⟩,
   ⟨mk [(F.BOOT_STATUS_STAGE, 6), (F.HARB_STATUS_LINK_UP, 1), (F.DYS_RING_CFG_EN 3, 1), (F.DYS_CMD_HEAD_HEAD 3, 4221824293),
    (F.PORT_STATUS_STATE 1, 1)], { via := .ring 3, tag := 16, indirect := false, argLen := 4, suits := true, object := 1, resAddr := 4096, resLen := 64 },
    ?_⟩,
   ⟨mk [(F.BOOT_STATUS_STAGE, 6), (F.HARB_STATUS_LINK_UP, 1), (F.DYS_RING_CFG_EN 2, 1), (F.DYS_CMD_HEAD_HEAD 2, 4294967295)], { via := .ring 2, tag := 0, indirect := false, argLen := 4, suits := true, object := 173, resAddr := 4096, resLen := 64 },
    ?_⟩,
   ⟨mk [(F.BOOT_STATUS_STAGE, 6), (F.HARB_STATUS_LINK_UP, 1), (F.DYS_RING_CFG_EN 2, 1), (F.DYS_CMD_HEAD_HEAD 2, 4294967295)], { via := .ring 2, tag := 0, indirect := false, argLen := 4, suits := true, object := 173, resAddr := 4096, resLen := 64 },
    ?_⟩,
   ⟨mk [(F.BOOT_STATUS_STAGE, 6), (F.HARB_STATUS_LINK_UP, 1), (F.DYS_RING_CFG_EN 1, 1), (F.DYS_CMD_HEAD_HEAD 1, 5)], { via := .ring 1, tag := 98, indirect := false, argLen := 4, suits := true, object := 805306373, resAddr := 4096, resLen := 64 },
    ?_⟩,
   ⟨mk [(F.BOOT_STATUS_STAGE, 6), (F.HARB_STATUS_LINK_UP, 1), (F.DYS_RING_CFG_EN 0, 1), (F.DYS_CMD_TAIL_TAIL 0, 1),
    (F.LAG_BANK_STATUS_STATE 39, 3)], { via := .ring 0, tag := 9, indirect := false, argLen := 4, suits := true, object := 536870951, resAddr := 4096, resLen := 64 },
    ?_⟩,
   ⟨mk [(F.BOOT_STATUS_STAGE, 6), (F.HARB_STATUS_LINK_UP, 1), (F.DYS_RING_CFG_EN 0, 1), (F.DYS_CMD_TAIL_TAIL 0, 1505965443),
    (F.RAS_SPARE_REQ_VALID 5, 1)], { via := .ring 0, tag := 70, indirect := false, argLen := 4, suits := true, object := 0, resAddr := 4096, resLen := 64 },
    ?_⟩,
   ⟨mk [(F.BOOT_STATUS_STAGE, 6), (F.HARB_STATUS_LINK_UP, 1), (F.DYS_RING_CFG_EN 2, 1), (F.DYS_CMD_HEAD_HEAD 2, 4294967295)], { via := .ring 2, tag := 0, indirect := false, argLen := 4, suits := true, object := 173, resAddr := 4096, resLen := 64 },
    0, 44, ?_⟩⟩ <;> decide +kernel

theorem wit_DysumPortsAndSpares_2 :
    (∃ (s : State) (h : DysHdr), (s.dysTake h.via).any (fun u => decide (u.ready = true ∧ h.suits = true ∧ dysBadForm h = false ∧ lvOperator
    ≤ levelOf h.via ∧ (s.ras.returning).isSome = true)) = true) ∧
    ∃ (s : State) (h : DysHdr), (s.dysTake h.via).any (fun u => decide (u.ready = true ∧ h.suits = true ∧ dysBadForm h = false ∧ lvOperator
    ≤ levelOf h.via ∧ (s.ras.returning).any (fun w => decide (w / 2 ^ 28 = 2 ∧ s.rd (F.LAG_BANK_STATUS_STATE (w % 2 ^ 28)) = 3)) = true)) =
    true := by
  refine ⟨⟨{ mk [(F.BOOT_STATUS_STAGE, 6), (F.HARB_STATUS_LINK_UP, 1), (F.DYS_RING_CFG_EN 2, 1), (F.DYS_CMD_HEAD_HEAD 2, 4294967295)] with ras := { returning := some 805306371 } },
    { via := .ring 2, tag := 93, indirect := false, argLen := 4, suits := true, object := 1610612743, resAddr := 4096, resLen := 64 }, ?_⟩,
   ⟨{ mk [(F.BOOT_STATUS_STAGE, 6), (F.HARB_STATUS_LINK_UP, 1), (F.DYS_RING_CFG_EN 1, 1), (F.DYS_CMD_TAIL_TAIL 1, 4294967295), (F.LAG_BANK_STATUS_STATE 2, 3)] with ras := { returning := some 536870914 } },
    { via := .ring 1, tag := 73, indirect := false, argLen := 4, suits := true, object := 388, resAddr := 4096, resLen := 64 }, ?_⟩⟩ <;> decide +kernel

theorem wit_DysumControls :
    (∃ (s : State) (h : DysHdr), (s.dysTake h.via).any (fun u => decide (u.ready = true ∧ h.suits = true ∧ dysBadForm h = false ∧ lvOperator
    ≤ levelOf h.via ∧ h.object < 4096 ∧ u.sessState h.object = 0)) = true) ∧
    (∃ (s : State) (h : DysHdr), (s.dysTake h.via).any (fun u => decide (u.ready = true ∧ h.suits = true ∧ dysBadForm h = false ∧ lvOperator
    ≤ levelOf h.via ∧ h.object < 4096 ∧ u.sessState h.object ≠ 0)) = true) ∧
    (∃ (s : State) (h : DysHdr), (s.dysTake h.via).any (fun u => decide (u.ready = true ∧ h.suits = true ∧ dysBadForm h = false ∧ lvOperator
    ≤ levelOf h.via ∧ h.object < 4096 ∧ (u.sessState h.object = 1 ∨ u.sessState h.object = 4))) = true) ∧
    (∃ (s : State) (h : DysHdr), (s.dysTake h.via).any (fun u => decide (u.ready = true ∧ h.suits = true ∧ dysBadForm h = false ∧ lvOperator
    ≤ levelOf h.via ∧ h.object < 4096 ∧ u.sessState h.object = 2)) = true) ∧
    (∃ (s : State) (h : DysHdr), (s.dysTake h.via).any (fun u => decide (u.ready = true ∧ h.suits = true ∧ dysBadForm h = false ∧ lvOperator
    ≤ levelOf h.via ∧ (h.object) < 2 ∧ u.stepAllowed (h.object) = true)) = true) ∧
    (∃ (s : State) (h : DysHdr), (s.dysTake h.via).any (fun u => decide (u.ready = true ∧ h.suits = true ∧ dysBadForm h = false ∧ lvOperator
    ≤ levelOf h.via ∧ (h.object) < 2 ∧ u.stepAllowed (h.object) = false)) = true) ∧
    (∃ (s : State) (h : DysHdr) (req : Fin 8), (s.dysTake h.via).any (fun u => decide (u.ready = true ∧ h.suits = true ∧ dysBadForm h =
    false ∧ lvOperator ≤ levelOf h.via ∧ (h.object) < 2 ∧ 1 ≤ req.val ∧ req.val ≤ 3 ∧ reqAllowed (u.lightState (h.object)) req = true)) =
    true) ∧
    (∃ (s : State) (h : DysHdr) (req : Fin 8), (s.dysTake h.via).any (fun u => decide (u.ready = true ∧ h.suits = true ∧ dysBadForm h =
    false ∧ lvOperator ≤ levelOf h.via ∧ (h.object) < 2 ∧ 1 ≤ req.val ∧ req.val ≤ 3 ∧ reqAllowed (u.lightState (h.object)) req = false)) =
    true) ∧
    (∃ (s : State) (h : DysHdr), (s.dysTake h.via).any (fun u => decide (u.ready = true ∧ h.suits = true ∧ dysBadForm h = false ∧ lvOperator
    ≤ levelOf h.via ∧ u.ferryRole ≠ 1)) = true) ∧
    ∃ (s : State) (h : DysHdr), (s.dysTake h.via).any (fun u => decide (u.ready = true ∧ h.suits = true ∧ dysBadForm h = false ∧ lvOperator
    ≤ levelOf h.via ∧ u.ferryRole = 1)) = true := by
  refine ⟨⟨mk [(F.BOOT_STATUS_STAGE, 6), (F.HARB_STATUS_LINK_UP, 1), (F.DYS_RING_CFG_EN 2, 1), (F.DYS_CMD_HEAD_HEAD 2, 4294967295)], { via := .ring 2, tag := 0, indirect := false, argLen := 4, suits := true, object := 173, resAddr := 4096, resLen := 64 },
    ?_⟩,
   ⟨{ mk [(F.BOOT_STATUS_STAGE, 6), (F.ATL_SESS_STATUS_STATE 1, 5)] with dys := { eth := [(1, { lastSeq := some 0, cur := none, waiting := [(1, 2)], cache := [] })] } },
    { via := .eth 1, tag := 24, indirect := false, argLen := 4, suits := true, object := 1, resAddr := 4096, resLen := 64 }, ?_⟩,
   ⟨mk [(F.BOOT_STATUS_STAGE, 6), (F.HARB_STATUS_LINK_UP, 1), (F.DYS_RING_CFG_EN 2, 1), (F.DYS_CMD_HEAD_HEAD 2, 3396183641),
    (F.ATL_SESS_STATUS_STATE 1, 1)], { via := .ring 2, tag := 84, indirect := false, argLen := 4, suits := true, object := 1, resAddr := 4096, resLen := 64 },
    ?_⟩,
   ⟨mk [(F.BOOT_STATUS_STAGE, 6), (F.HARB_STATUS_LINK_UP, 1), (F.DYS_RING_CFG_EN 2, 1), (F.DYS_CMD_TAIL_TAIL 2, 2069739100),
    (F.ATL_SESS_STATUS_STATE 3, 2)], { via := .ring 2, tag := 14, indirect := false, argLen := 4, suits := true, object := 3, resAddr := 4096, resLen := 64 },
    ?_⟩,
   ⟨mk [(F.BOOT_STATUS_STAGE, 6), (F.HARB_STATUS_LINK_UP, 1), (F.DYS_RING_CFG_EN 3, 1), (F.DYS_CMD_HEAD_HEAD 3, 4221824293)], { via := .ring 3, tag := 16, indirect := false, argLen := 4, suits := true, object := 1, resAddr := 4096, resLen := 64 },
    ?_⟩,
   ⟨mk [(F.BOOT_STATUS_STAGE, 6), (F.HARB_STATUS_LINK_UP, 1), (F.DYS_RING_CFG_EN 0, 1), (F.DYS_CMD_TAIL_TAIL 0, 1505965443)], { via := .ring 0, tag := 70, indirect := false, argLen := 4, suits := true, object := 0, resAddr := 4096, resLen := 64 },
    ?_⟩,
   ⟨mk [(F.BOOT_STATUS_STAGE, 6), (F.HARB_STATUS_LINK_UP, 1), (F.DYS_RING_CFG_EN 3, 1), (F.DYS_CMD_HEAD_HEAD 3, 4221824293)], { via := .ring 3, tag := 16, indirect := false, argLen := 4, suits := true, object := 1, resAddr := 4096, resLen := 64 },
    1, ?_⟩,
   ⟨{ mk [(F.BOOT_STATUS_STAGE, 6)] with dys := { eth := [(1, { lastSeq := some 0, cur := none, waiting := [(1, 2)], cache := [] })] } }, { via := .eth 1, tag := 91, indirect := false, argLen := 4, suits := true, object := 1, resAddr := 4096, resLen := 64 },
    3, ?_⟩,
   ⟨mk [(F.BOOT_STATUS_STAGE, 6), (F.HARB_STATUS_LINK_UP, 1), (F.DYS_RING_CFG_EN 2, 1), (F.DYS_CMD_HEAD_HEAD 2, 4294967295)], { via := .ring 2, tag := 0, indirect := false, argLen := 4, suits := true, object := 173, resAddr := 4096, resLen := 64 },
    ?_⟩,
   ⟨mk [(F.BOOT_STATUS_STAGE, 6), (F.PWR_FERRY_STATUS_ROLE, 1), (F.HARB_STATUS_LINK_UP, 1), (F.DYS_RING_CFG_EN 1, 1), (F.DYS_CMD_HEAD_HEAD
    1, 5)], { via := .ring 1, tag := 98, indirect := false, argLen := 4, suits := true, object := 805306373, resAddr := 4096, resLen := 64 },
    ?_⟩⟩ <;> decide +kernel

theorem wit_DysumControls_2 :
    (∃ (s : State) (h : DysHdr), (s.dysTake h.via).any (fun u => decide (u.ready = true ∧ h.suits = true ∧ dysBadForm h = false ∧ lvOperator
    ≤ levelOf h.via ∧ (h.object) < 64)) = true) ∧
    ∃ (s : State) (h : DysHdr), (s.dysTake h.via).any (fun u => decide (u.ready = true ∧ h.suits = true ∧ dysBadForm h = false ∧ lvOperator
    ≤ levelOf h.via)) = true := by
  refine ⟨⟨mk [(F.BOOT_STATUS_STAGE, 6), (F.HARB_STATUS_LINK_UP, 1), (F.DYS_RING_CFG_EN 3, 1), (F.DYS_CMD_HEAD_HEAD 3, 4221824293)], { via := .ring 3, tag := 16, indirect := false, argLen := 4, suits := true, object := 1, resAddr := 4096, resLen := 64 },
    ?_⟩,
   ⟨mk [(F.BOOT_STATUS_STAGE, 6), (F.HARB_STATUS_LINK_UP, 1), (F.DYS_RING_CFG_EN 2, 1), (F.DYS_CMD_HEAD_HEAD 2, 4294967295)], { via := .ring 2, tag := 0, indirect := false, argLen := 4, suits := true, object := 173, resAddr := 4096, resLen := 64 },
    ?_⟩⟩ <;> decide +kernel

theorem wit_DysumImages :
    (∃ (s : State) (h : DysHdr) (im : Image), (s.dysTake h.via).any (fun u => decide (u.ready = true ∧ h.suits = true ∧ dysBadForm h = false
    ∧ levelOf h.via = lvOwner ∧ im.type = 2 ∧ u.boot.staged = none ∧ (imageIslands im).any (fun k => u.on (F.PPE_BANK_LOADING k)) = false ∧
    u.stagingHolds im = true ∧ u.imageError im true = 0)) = true) ∧
    (∃ (s : State) (h : DysHdr) (im : Image), (s.dysTake h.via).any (fun u => decide (u.ready = true ∧ h.suits = true ∧ dysBadForm h = false
    ∧ levelOf h.via = lvOwner ∧ im.type = 2 ∧ u.boot.staged = none ∧ (imageIslands im).any (fun k => u.on (F.PPE_BANK_LOADING k)) = false ∧
    u.stagingHolds im = true ∧ u.imageError im true ≠ 0)) = true) ∧
    (∃ (s : State) (h : DysHdr), (s.dysTake h.via).any (fun u => decide (u.ready = true ∧ h.suits = true ∧ dysBadForm h = false ∧ levelOf
    h.via = lvOwner ∧ u.boot.staged = none)) = true) ∧
    (∃ (s : State) (h : DysHdr), (s.dysTake h.via).any (fun u => decide (u.ready = true ∧ h.suits = true ∧ dysBadForm h = false ∧ levelOf
    h.via = lvOwner ∧ (u.boot.staged).any (fun im => decide (im.type = 1 ∧ u.fuses.svn ≤ im.svn ∧ u.boot.swapping = false ∧ u.swapAllowed
    (imageTarget im).1 (imageTarget im).2 = true)) = true)) = true) ∧
    ∃ (s : State) (h : DysHdr), (s.dysTake h.via).any (fun u => decide (u.ready = true ∧ h.suits = true ∧ dysBadForm h = false ∧ levelOf
    h.via = lvOwner ∧ (u.boot.staged).isSome = true ∧ u.boot.swapping = false)) = true := by
  refine ⟨⟨{ mk [(F.BOOT_STATUS_STAGE, 6), (F.HARB_STATUS_LINK_UP, 1), (F.DYS_RING_CFG_EN 2, 1), (F.DYS_CMD_HEAD_HEAD 2, 1), (F.BPM_REGION_SIZE 1, 100), (F.BPM_REGION_SIZE 31, 100)] with fuses := { digests := [(0, 3596788468831189304602348453709173624533324862283860404515109047285152604652394099528729032721117035571341823530223)] }, boot := { running := some { bytes := ([0x47#8, 0x59#8, 0x4d#8, 0x4c#8, 0x01#8, 0x00#8, 0x02#8, 0x00#8, 0x09#8, 0x0a#8, 0x00#8, 0x00#8, 0x03#8, 0x00#8, 0x00#8, 0x00#8, 0x07#8, 0x00#8, 0x00#8, 0x00#8, 0x07#8, 0x00#8, 0x00#8, 0x00#8, 0x08#8, 0x11#8, 0x00#8, 0x00#8, 0x01#8] ++ List.replicate 227 0x00#8 ++ [0x06#8, 0x00#8, 0x00#8, 0x03#8, 0x00#8, 0x10#8, 0x00#8, 0x00#8, 0x08#8, 0x00#8, 0x00#8, 0x00#8, 0x62#8, 0xc4#8, 0xfb#8, 0xe3#8] ++ List.replicate 3824 0x00#8 ++ List.replicate 8 0x01#8 ++ [0x3f#8, 0x13#8, 0x43#8, 0x2c#8, 0x6e#8, 0xf4#8, 0x82#8, 0xfd#8, 0x1c#8, 0x05#8, 0xb8#8, 0x0a#8, 0x77#8, 0xe3#8, 0xe4#8, 0x59#8, 0x0c#8, 0x1d#8, 0xcf#8, 0x27#8, 0x50#8, 0xaa#8, 0x1f#8, 0x88#8, 0xe0#8, 0x81#8, 0xbb#8, 0xde#8, 0xa9#8, 0x0c#8, 0x80#8, 0xcd#8, 0x09#8, 0xeb#8, 0x1e#8, 0xbe#8, 0x9d#8, 0x51#8, 0x5d#8, 0x51#8, 0xdf#8, 0x18#8, 0xc9#8, 0x26#8, 0x21#8, 0xca#8, 0xaa#8, 0x5d#8, 0x8c#8, 0x6d#8, 0xc3#8, 0x89#8, 0xa5#8, 0x6b#8, 0x30#8, 0xa7#8, 0x4b#8, 0xd3#8, 0x5f#8, 0x8c#8, 0x3e#8, 0xc7#8, 0x0e#8, 0x54#8, 0x69#8, 0x0b#8, 0xe9#8, 0x2d#8, 0x72#8, 0x3f#8, 0xc3#8, 0x30#8, 0xeb#8, 0x8d#8, 0xc5#8, 0x78#8, 0x80#8, 0x55#8, 0xae#8, 0x7b#8, 0x12#8, 0xd7#8, 0x61#8, 0xce#8, 0x1e#8, 0x8f#8, 0x82#8, 0x55#8, 0x68#8, 0x7b#8, 0x65#8, 0xa2#8, 0x90#8, 0x4b#8, 0x24#8, 0x39#8, 0x10#8, 0xd1#8, 0xc8#8, 0x55#8, 0x03#8, 0x56#8, 0x82#8, 0x9a#8, 0x5f#8, 0xcb#8, 0x58#8, 0x33#8, 0x61#8, 0x14#8, 0xaa#8, 0x3a#8, 0x1a#8, 0x34#8, 0x11#8, 0x90#8, 0x84#8, 0x6f#8, 0xc1#8, 0x38#8, 0x17#8, 0x20#8, 0x79#8, 0x1b#8, 0x8e#8, 0x75#8, 0x58#8, 0xd6#8, 0x2f#8, 0xcc#8, 0x05#8, 0x34#8, 0x89#8, 0x24#8, 0x24#8, 0x4f#8, 0x79#8, 0x60#8, 0x5c#8, 0x79#8, 0x7b#8, 0xfa#8, 0x96#8, 0x56#8, 0xfc#8, 0xa0#8, 0xe6#8, 0xb5#8, 0x69#8, 0x75#8, 0x2e#8, 0x64#8, 0xfb#8, 0x2d#8, 0x49#8, 0x12#8, 0x83#8, 0x5e#8, 0x70#8, 0xa7#8, 0x5d#8, 0x9b#8, 0x26#8, 0xd6#8, 0x6a#8, 0xf3#8, 0x74#8, 0x26#8, 0xcd#8, 0x05#8, 0xfe#8, 0xba#8, 0x9e#8, 0x7a#8, 0xfb#8, 0xc0#8, 0x05#8, 0x82#8, 0xcf#8, 0x03#8, 0xaf#8, 0xcb#8, 0x99#8, 0x9b#8, 0xfa#8, 0x48#8, 0xde#8, 0x1b#8, 0xcb#8, 0x30#8, 0x6a#8, 0x0c#8] ++ List.replicate 64 0x00#8), bodies := [some (.patterns [] 1)] } } },
    { via := .ring 2, tag := 47, indirect := false, argLen := 4, suits := true, object := 3, resAddr := 4096, resLen := 64 }, { bytes := ([0x47#8, 0x59#8, 0x4d#8, 0x4c#8, 0x01#8, 0x00#8, 0x02#8, 0x00#8, 0x09#8, 0x0a#8, 0x00#8, 0x00#8, 0x03#8, 0x00#8, 0x00#8, 0x00#8, 0x05#8, 0x00#8, 0x00#8, 0x00#8, 0x07#8, 0x00#8, 0x00#8, 0x00#8, 0x08#8, 0x11#8, 0x00#8, 0x00#8, 0x01#8] ++ List.replicate 227 0x00#8 ++ [0x06#8, 0x00#8, 0x00#8, 0x03#8, 0x00#8, 0x10#8, 0x00#8, 0x00#8, 0x08#8, 0x00#8, 0x00#8, 0x00#8, 0x62#8, 0xc4#8, 0xfb#8, 0xe3#8] ++ List.replicate 3824 0x00#8 ++ List.replicate 8 0x01#8 ++ [0x3f#8, 0x13#8, 0x43#8, 0x2c#8, 0x6e#8, 0xf4#8, 0x82#8, 0xfd#8, 0x1c#8, 0x05#8, 0xb8#8, 0x0a#8, 0x77#8, 0xe3#8, 0xe4#8, 0x59#8, 0x0c#8, 0x1d#8, 0xcf#8, 0x27#8, 0x50#8, 0xaa#8, 0x1f#8, 0x88#8, 0xe0#8, 0x81#8, 0xbb#8, 0xde#8, 0xa9#8, 0x0c#8, 0x80#8, 0xcd#8, 0x09#8, 0xeb#8, 0x1e#8, 0xbe#8, 0x9d#8, 0x51#8, 0x5d#8, 0x51#8, 0xdf#8, 0x18#8, 0xc9#8, 0x26#8, 0x21#8, 0xca#8, 0xaa#8, 0x5d#8, 0x8c#8, 0x6d#8, 0xc3#8, 0x89#8, 0xa5#8, 0x6b#8, 0x30#8, 0xa7#8, 0x4b#8, 0xd3#8, 0x5f#8, 0x8c#8, 0x3e#8, 0xc7#8, 0x0e#8, 0x54#8, 0x69#8, 0x0b#8, 0xe9#8, 0x2d#8, 0x72#8, 0x3f#8, 0xc3#8, 0x30#8, 0xeb#8, 0x8d#8, 0xc5#8, 0x78#8, 0x80#8, 0x55#8, 0xae#8, 0x7b#8, 0x12#8, 0xd7#8, 0x61#8, 0xce#8, 0x1e#8, 0x8f#8, 0x82#8, 0x55#8, 0x68#8, 0x7b#8, 0x65#8, 0xa2#8, 0x90#8, 0x4b#8, 0x24#8, 0x39#8, 0x10#8, 0xd1#8, 0xc8#8, 0x55#8, 0x03#8, 0x56#8, 0x82#8, 0x9a#8, 0x5f#8, 0xcb#8, 0x58#8, 0x33#8, 0x61#8, 0x14#8, 0xaa#8, 0x3a#8, 0x1a#8, 0x34#8, 0x11#8, 0x90#8, 0x84#8, 0x6f#8, 0xc1#8, 0x38#8, 0x17#8, 0x20#8, 0x79#8, 0x1b#8, 0x8e#8, 0x75#8, 0x58#8, 0xd6#8, 0x2f#8, 0xcc#8, 0x05#8, 0x34#8, 0x89#8, 0x24#8, 0x24#8, 0x4f#8, 0x79#8, 0x60#8, 0x5c#8, 0x79#8, 0x7b#8, 0xfa#8, 0x96#8, 0x56#8, 0xfc#8, 0xa0#8, 0xe6#8, 0xb5#8, 0x69#8, 0x75#8, 0x2e#8, 0x64#8, 0xfb#8, 0x2d#8, 0x49#8, 0x12#8, 0x83#8, 0x5e#8, 0x70#8, 0xa7#8, 0x5d#8, 0x9b#8, 0x26#8, 0xd6#8, 0x6a#8, 0xf3#8, 0x74#8, 0x26#8, 0xcd#8, 0x05#8, 0xfe#8, 0xba#8, 0x9e#8, 0x7a#8, 0xfb#8, 0xc0#8, 0x05#8, 0x82#8, 0xcf#8, 0x03#8, 0xaf#8, 0xcb#8, 0x99#8, 0x9b#8, 0xfa#8, 0x48#8, 0xde#8, 0x1b#8, 0xcb#8, 0x30#8, 0x6a#8, 0x0c#8] ++ List.replicate 64 0x00#8), bodies := [some (.patterns [] 1)] },
    ?_⟩,
   ⟨mk [(F.BOOT_STATUS_STAGE, 6), (F.HARB_STATUS_LINK_UP, 1), (F.DYS_RING_CFG_EN 0, 1), (F.DYS_CMD_HEAD_HEAD 0, 4294967295),
    (F.BPM_REGION_SIZE 1, 100), (F.BPM_REGION_SIZE 31, 100)], { via := .ring 0, tag := 88, indirect := false, argLen := 4, suits := true, object := 268435456, resAddr := 4096, resLen := 64 },
    { bytes := ([0x47#8, 0x59#8, 0x4d#8, 0x4c#8, 0x01#8, 0x00#8, 0x02#8, 0x00#8, 0x09#8, 0x0a#8, 0x00#8, 0x02#8, 0x03#8, 0x00#8, 0x00#8, 0x00#8, 0x05#8, 0x00#8, 0x00#8, 0x00#8, 0x07#8, 0x00#8, 0x00#8, 0x00#8, 0x08#8, 0x11#8, 0x00#8, 0x00#8, 0x01#8] ++ List.replicate 227 0x00#8 ++ [0x06#8, 0x00#8, 0x00#8, 0x03#8, 0x00#8, 0x10#8, 0x00#8, 0x00#8, 0x08#8, 0x00#8, 0x00#8, 0x00#8, 0x62#8, 0xc4#8, 0xfb#8, 0xe3#8] ++ List.replicate 3824 0x00#8 ++ List.replicate 8 0x01#8 ++ [0x3f#8, 0x13#8, 0x43#8, 0x2c#8, 0x6e#8, 0xf4#8, 0x82#8, 0xfd#8, 0x1c#8, 0x05#8, 0xb8#8, 0x0a#8, 0x77#8, 0xe3#8, 0xe4#8, 0x59#8, 0x0c#8, 0x1d#8, 0xcf#8, 0x27#8, 0x50#8, 0xaa#8, 0x1f#8, 0x88#8, 0xe0#8, 0x81#8, 0xbb#8, 0xde#8, 0xa9#8, 0x0c#8, 0x80#8, 0xcd#8, 0x09#8, 0xeb#8, 0x1e#8, 0xbe#8, 0x9d#8, 0x51#8, 0x5d#8, 0x51#8, 0xdf#8, 0x18#8, 0xc9#8, 0x26#8, 0x21#8, 0xca#8, 0xaa#8, 0x5d#8, 0x8c#8, 0x6d#8, 0xc3#8, 0x89#8, 0xa5#8, 0x6b#8, 0x30#8, 0xa7#8, 0x4b#8, 0xd3#8, 0x5f#8, 0x8c#8, 0x3e#8, 0xc7#8, 0x0e#8, 0x54#8, 0x69#8, 0x0b#8, 0xe9#8, 0x2d#8, 0x72#8, 0x3f#8, 0xc3#8, 0x30#8, 0xeb#8, 0x8d#8, 0xc5#8, 0x78#8, 0x80#8, 0x55#8, 0xae#8, 0x7b#8, 0x12#8, 0xd7#8, 0x61#8, 0xce#8, 0x1e#8, 0x8f#8, 0x82#8, 0x55#8, 0x68#8, 0x7b#8, 0x65#8, 0xa2#8, 0x90#8, 0x4b#8, 0x24#8, 0x39#8, 0x38#8, 0xc3#8, 0x1c#8, 0x10#8, 0xe4#8, 0x5f#8, 0x09#8, 0xf8#8, 0xff#8, 0x95#8, 0xe4#8, 0x93#8, 0x45#8, 0x49#8, 0x2c#8, 0x25#8, 0xdb#8, 0xc9#8, 0xef#8, 0x6e#8, 0x37#8, 0x7d#8, 0xde#8, 0xc4#8, 0xa6#8, 0x44#8, 0x94#8, 0xb4#8, 0xd9#8, 0xf0#8, 0xdd#8, 0xdd#8, 0xf0#8, 0x25#8, 0xbd#8, 0xf9#8, 0xa0#8, 0xb4#8, 0xe9#8, 0xe1#8, 0x46#8, 0x75#8, 0x0c#8, 0x71#8, 0x8d#8, 0xaa#8, 0xef#8, 0xb5#8, 0xfe#8, 0x95#8, 0xd3#8, 0xcb#8, 0x79#8, 0xeb#8, 0xee#8, 0x21#8, 0xa4#8, 0x60#8, 0x34#8, 0x32#8, 0xff#8, 0xb8#8, 0x0c#8, 0xee#8, 0x1e#8, 0x72#8, 0x75#8, 0x1e#8, 0x3c#8, 0x1a#8, 0x67#8, 0x0b#8, 0x53#8, 0xa7#8, 0xd6#8, 0x19#8, 0x4b#8, 0xc8#8, 0x94#8, 0x9a#8, 0xde#8, 0x00#8, 0x3f#8, 0x4b#8, 0x11#8, 0x57#8, 0x88#8, 0xac#8, 0xcb#8, 0xbb#8, 0xe7#8, 0x1c#8, 0x7c#8, 0x3e#8, 0x5e#8, 0x2b#8] ++ List.replicate 64 0x00#8), bodies := [some (.patterns [] 1)] },
    ?_⟩,
   ⟨mk [(F.BOOT_STATUS_STAGE, 6), (F.HARB_STATUS_LINK_UP, 1), (F.DYS_RING_CFG_EN 1, 1), (F.DYS_CMD_HEAD_HEAD 1, 5)], { via := .ring 1, tag := 98, indirect := false, argLen := 4, suits := true, object := 805306373, resAddr := 4096, resLen := 64 },
    ?_⟩,
   ⟨{ mk [(F.BOOT_STATUS_STAGE, 6), (F.HARB_STATUS_LINK_UP, 1), (F.DYS_RING_CFG_EN 2, 1), (F.DYS_CMD_TAIL_TAIL 2, 3), (F.PIPE_STATUS_STATE 4, 2), (F.PIPE_STATUS_READY 4, 1)] with mat := { swaps := [(0, some { resv := 4, target := 0, retire := false, progId := 3, tables := [], entries := [], inits := [], copies := [], began := 0, start := 0, hold := 0 })] }, boot := { staged := some { bytes := ([0x47#8, 0x59#8, 0x4d#8, 0x4c#8, 0x01#8, 0x00#8, 0x01#8, 0x00#8, 0x09#8, 0x0a#8, 0x00#8, 0x00#8, 0x03#8, 0x00#8, 0x00#8, 0x00#8, 0x05#8, 0x00#8, 0x00#8, 0x00#8, 0x09#8, 0x00#8, 0x00#8, 0x00#8, 0x08#8, 0x21#8, 0x00#8, 0x00#8, 0x02#8] ++ List.replicate 227 0x00#8 ++ [0x02#8, 0x00#8, 0x04#8, 0x00#8, 0x00#8, 0x10#8, 0x00#8, 0x00#8, 0x08#8, 0x00#8, 0x00#8, 0x00#8, 0x62#8, 0xc4#8, 0xfb#8, 0xe3#8] ++ List.replicate 16 0x00#8 ++ [0x03#8, 0x00#8, 0x04#8, 0x00#8, 0x00#8, 0x20#8, 0x00#8, 0x00#8, 0x08#8, 0x00#8, 0x00#8, 0x00#8, 0x5a#8, 0x5f#8, 0x8e#8, 0x53#8] ++ List.replicate 3792 0x00#8 ++ List.replicate 8 0x01#8 ++ List.replicate 4088 0x00#8 ++ List.replicate 8 0x02#8 ++ [0x3f#8, 0x13#8, 0x43#8, 0x2c#8, 0x6e#8, 0xf4#8, 0x82#8, 0xfd#8, 0x1c#8, 0x05#8, 0xb8#8, 0x0a#8, 0x77#8, 0xe3#8, 0xe4#8, 0x59#8, 0x0c#8, 0x1d#8, 0xcf#8, 0x27#8, 0x50#8, 0xaa#8, 0x1f#8, 0x88#8, 0xe0#8, 0x81#8, 0xbb#8, 0xde#8, 0xa9#8, 0x0c#8, 0x80#8, 0xcd#8, 0x09#8, 0xeb#8, 0x1e#8, 0xbe#8, 0x9d#8, 0x51#8, 0x5d#8, 0x51#8, 0xdf#8, 0x18#8, 0xc9#8, 0x26#8, 0x21#8, 0xca#8, 0xaa#8, 0x5d#8, 0x8c#8, 0x6d#8, 0xc3#8, 0x89#8, 0xa5#8, 0x6b#8, 0x30#8, 0xa7#8, 0x4b#8, 0xd3#8, 0x5f#8, 0x8c#8, 0x3e#8, 0xc7#8, 0x0e#8, 0x54#8, 0x69#8, 0x0b#8, 0xe9#8, 0x2d#8, 0x72#8, 0x3f#8, 0xc3#8, 0x30#8, 0xeb#8, 0x8d#8, 0xc5#8, 0x78#8, 0x80#8, 0x55#8, 0xae#8, 0x7b#8, 0x12#8, 0xd7#8, 0x61#8, 0xce#8, 0x1e#8, 0x8f#8, 0x82#8, 0x55#8, 0x68#8, 0x7b#8, 0x65#8, 0xa2#8, 0x90#8, 0x4b#8, 0x24#8, 0x39#8, 0x78#8, 0x07#8, 0xd0#8, 0x95#8, 0xe9#8, 0x1f#8, 0x17#8, 0x72#8, 0x59#8, 0xe1#8, 0x78#8, 0xa8#8, 0x5d#8, 0x5b#8, 0x91#8, 0x67#8, 0x07#8, 0xba#8, 0x5d#8, 0x3e#8, 0xf7#8, 0x82#8, 0x46#8, 0x01#8, 0x58#8, 0xe6#8, 0x94#8, 0x33#8, 0xdf#8, 0x97#8, 0x36#8, 0x93#8, 0x28#8, 0x51#8, 0x70#8, 0xc4#8, 0x96#8, 0xf1#8, 0x17#8, 0xbb#8, 0x91#8, 0xfe#8, 0x54#8, 0xf6#8, 0x55#8, 0x9c#8, 0x44#8, 0x41#8, 0xb2#8, 0x7d#8, 0xfd#8, 0xbc#8, 0xf8#8, 0xc2#8, 0x02#8, 0x62#8, 0x0a#8, 0xfd#8, 0xf8#8, 0x22#8, 0x54#8, 0x8f#8, 0xa7#8, 0xd5#8, 0x78#8, 0x9a#8, 0xe9#8, 0x03#8, 0xce#8, 0xea#8, 0x2d#8, 0xbc#8, 0x39#8, 0x6c#8, 0xa1#8, 0x41#8, 0x6e#8, 0x12#8, 0x27#8, 0x0f#8, 0x8d#8, 0x77#8, 0x2d#8, 0x32#8, 0x4a#8, 0x7e#8, 0x15#8, 0x91#8, 0x15#8, 0xb4#8, 0xf5#8, 0x11#8, 0xa4#8, 0x7f#8, 0x25#8, 0x9f#8] ++ List.replicate 64 0x00#8), bodies := [some (.parseGraph { states := [], trans := [], fails := [] } []), some (.pipeProgram { id := 9, stages := [] })] } } },
    { via := .ring 2, tag := 72, indirect := false, argLen := 4, suits := true, object := 1073741831, resAddr := 4096, resLen := 64 }, ?_⟩,
   ⟨{ mk [(F.BOOT_STATUS_STAGE, 6), (F.HARB_STATUS_LINK_UP, 1), (F.DYS_RING_CFG_EN 2, 1), (F.DYS_CMD_HEAD_HEAD 2, 4294967295)] with boot := { staged := some { bytes := ([0x47#8, 0x59#8, 0x4d#8, 0x4c#8, 0x01#8, 0x00#8, 0x02#8, 0x00#8, 0x09#8, 0x0a#8, 0x00#8, 0x00#8, 0x03#8, 0x00#8, 0x00#8, 0x00#8, 0x05#8, 0x00#8, 0x00#8, 0x00#8, 0x07#8, 0x00#8, 0x00#8, 0x00#8, 0x08#8, 0x11#8, 0x00#8, 0x00#8, 0x01#8] ++ List.replicate 227 0x00#8 ++ [0x06#8, 0x00#8, 0x00#8, 0x03#8, 0x00#8, 0x10#8, 0x00#8, 0x00#8, 0x08#8, 0x00#8, 0x00#8, 0x00#8, 0x62#8, 0xc4#8, 0xfb#8, 0xe3#8] ++ List.replicate 3824 0x00#8 ++ List.replicate 8 0x01#8 ++ [0x3f#8, 0x13#8, 0x43#8, 0x2c#8, 0x6e#8, 0xf4#8, 0x82#8, 0xfd#8, 0x1c#8, 0x05#8, 0xb8#8, 0x0a#8, 0x77#8, 0xe3#8, 0xe4#8, 0x59#8, 0x0c#8, 0x1d#8, 0xcf#8, 0x27#8, 0x50#8, 0xaa#8, 0x1f#8, 0x88#8, 0xe0#8, 0x81#8, 0xbb#8, 0xde#8, 0xa9#8, 0x0c#8, 0x80#8, 0xcd#8, 0x09#8, 0xeb#8, 0x1e#8, 0xbe#8, 0x9d#8, 0x51#8, 0x5d#8, 0x51#8, 0xdf#8, 0x18#8, 0xc9#8, 0x26#8, 0x21#8, 0xca#8, 0xaa#8, 0x5d#8, 0x8c#8, 0x6d#8, 0xc3#8, 0x89#8, 0xa5#8, 0x6b#8, 0x30#8, 0xa7#8, 0x4b#8, 0xd3#8, 0x5f#8, 0x8c#8, 0x3e#8, 0xc7#8, 0x0e#8, 0x54#8, 0x69#8, 0x0b#8, 0xe9#8, 0x2d#8, 0x72#8, 0x3f#8, 0xc3#8, 0x30#8, 0xeb#8, 0x8d#8, 0xc5#8, 0x78#8, 0x80#8, 0x55#8, 0xae#8, 0x7b#8, 0x12#8, 0xd7#8, 0x61#8, 0xce#8, 0x1e#8, 0x8f#8, 0x82#8, 0x55#8, 0x68#8, 0x7b#8, 0x65#8, 0xa2#8, 0x90#8, 0x4b#8, 0x24#8, 0x39#8, 0x10#8, 0xd1#8, 0xc8#8, 0x55#8, 0x03#8, 0x56#8, 0x82#8, 0x9a#8, 0x5f#8, 0xcb#8, 0x58#8, 0x33#8, 0x61#8, 0x14#8, 0xaa#8, 0x3a#8, 0x1a#8, 0x34#8, 0x11#8, 0x90#8, 0x84#8, 0x6f#8, 0xc1#8, 0x38#8, 0x17#8, 0x20#8, 0x79#8, 0x1b#8, 0x8e#8, 0x75#8, 0x58#8, 0xd6#8, 0x2f#8, 0xcc#8, 0x05#8, 0x34#8, 0x89#8, 0x24#8, 0x24#8, 0x4f#8, 0x79#8, 0x60#8, 0x5c#8, 0x79#8, 0x7b#8, 0xfa#8, 0x96#8, 0x56#8, 0xfc#8, 0xa0#8, 0xe6#8, 0xb5#8, 0x69#8, 0x75#8, 0x2e#8, 0x64#8, 0xfb#8, 0x2d#8, 0x49#8, 0x12#8, 0x83#8, 0x5e#8, 0x70#8, 0xa7#8, 0x5d#8, 0x9b#8, 0x26#8, 0xd6#8, 0x6a#8, 0xf3#8, 0x74#8, 0x26#8, 0xcd#8, 0x05#8, 0xfe#8, 0xba#8, 0x9e#8, 0x7a#8, 0xfb#8, 0xc0#8, 0x05#8, 0x82#8, 0xcf#8, 0x03#8, 0xaf#8, 0xcb#8, 0x99#8, 0x9b#8, 0xfa#8, 0x48#8, 0xde#8, 0x1b#8, 0xcb#8, 0x30#8, 0x6a#8, 0x0c#8] ++ List.replicate 64 0x00#8), bodies := [none] } } },
    { via := .ring 2, tag := 0, indirect := false, argLen := 4, suits := true, object := 173, resAddr := 4096, resLen := 64 }, ?_⟩⟩ <;> decide +kernel

theorem wit_DysumFuses :
    (∃ (s : State) (h : DysHdr), (s.dysTake h.via).any (fun u => decide (h.suits = true ∧ dysBadForm h = false ∧ levelOf h.via = lvOwner ∧
    h.object < 4 ∧ mfind u.fuses.digests h.object = none)) = true) ∧
    (∃ (s : State) (h : DysHdr), (s.dysTake h.via).any (fun u => decide (h.suits = true ∧ dysBadForm h = false ∧ levelOf h.via = lvOwner ∧
    h.object < 4 ∧ (mfind u.fuses.digests h.object).isSome = true)) = true) ∧
    (∃ (s : State) (h : DysHdr), (s.dysTake h.via).any (fun u => decide (h.suits = true ∧ dysBadForm h = false ∧ levelOf h.via = lvOwner ∧
    h.object < 4 ∧ (∃ j : Fin 4, j.val ≠ h.object ∧ (mfind u.fuses.digests j).isSome = true ∧ u.fuses.revoked.contains j.val = false) ∧
    u.boot.staged = none)) = true) ∧
    (∃ (s : State) (h : DysHdr), (s.dysTake h.via).any (fun u => decide (h.suits = true ∧ dysBadForm h = false ∧ levelOf h.via = lvOwner ∧
    h.object < 4 ∧ (∀ j : Fin 4, j.val ≠ h.object → (mfind u.fuses.digests j).isSome = true → u.fuses.revoked.contains j.val = true))) =
    true) ∧
    ∃ (s : State) (h : DysHdr) (floor : Fin 128), (s.dysTake h.via).any (fun u => decide (h.suits = true ∧ dysBadForm h = false ∧ levelOf
    h.via = lvOwner ∧ floor.val ≤ 64 ∧ u.fuses.svn ≤ floor.val ∧ (u.boot.running).any (fun im => decide (floor.val ≤ im.svn)) = true)) =
    true := by
  refine ⟨⟨mk [(F.HARB_STATUS_LINK_UP, 1), (F.DYS_RING_CFG_EN 3, 1), (F.DYS_CMD_HEAD_HEAD 3, 4221824293)], { via := .ring 3, tag := 16, indirect := false, argLen := 4, suits := true, object := 1, resAddr := 4096, resLen := 64 },
    ?_⟩,
   ⟨{ mk [(F.HARB_STATUS_LINK_UP, 1), (F.DYS_RING_CFG_EN 0, 1), (F.DYS_CMD_HEAD_HEAD 0, 3)] with fuses := { digests := [(1, 77)] } }, { via := .ring 0, tag := 74, indirect := false, argLen := 4, suits := true, object := 1, resAddr := 4096, resLen := 64 },
    ?_⟩,
   ⟨{ mk [(F.HARB_STATUS_LINK_UP, 1), (F.DYS_RING_CFG_EN 0, 1), (F.DYS_CMD_HEAD_HEAD 0, 3)] with fuses := { digests := [(0, 3596788468831189304602348453709173624533324862283860404515109047285152604652394099528729032721117035571341823530223)] } },
    { via := .ring 0, tag := 74, indirect := false, argLen := 4, suits := true, object := 1, resAddr := 4096, resLen := 64 }, ?_⟩,
   ⟨mk [(F.HARB_STATUS_LINK_UP, 1), (F.DYS_RING_CFG_EN 0, 1), (F.DYS_CMD_HEAD_HEAD 0, 4294967295)], { via := .ring 0, tag := 6, indirect := false, argLen := 4, suits := true, object := 3, resAddr := 4096, resLen := 64 },
    ?_⟩,
   ⟨{ mk [(F.HARB_STATUS_LINK_UP, 1), (F.DYS_RING_CFG_EN 3, 1), (F.DYS_CMD_HEAD_HEAD 3, 4274662761)] with boot := { running := some { bytes := ([0x47#8, 0x59#8, 0x4d#8, 0x4c#8, 0x01#8, 0x00#8, 0x02#8, 0x00#8, 0x09#8, 0x0a#8, 0x00#8, 0x00#8, 0x03#8, 0x00#8, 0x00#8, 0x00#8, 0x07#8, 0x00#8, 0x00#8, 0x00#8, 0x07#8, 0x00#8, 0x00#8, 0x00#8, 0x08#8, 0x11#8, 0x00#8, 0x00#8, 0x01#8] ++ List.replicate 227 0x00#8 ++ [0x06#8, 0x00#8, 0x00#8, 0x03#8, 0x00#8, 0x10#8, 0x00#8, 0x00#8, 0x08#8, 0x00#8, 0x00#8, 0x00#8, 0x62#8, 0xc4#8, 0xfb#8, 0xe3#8] ++ List.replicate 3824 0x00#8 ++ List.replicate 8 0x01#8 ++ [0x3f#8, 0x13#8, 0x43#8, 0x2c#8, 0x6e#8, 0xf4#8, 0x82#8, 0xfd#8, 0x1c#8, 0x05#8, 0xb8#8, 0x0a#8, 0x77#8, 0xe3#8, 0xe4#8, 0x59#8, 0x0c#8, 0x1d#8, 0xcf#8, 0x27#8, 0x50#8, 0xaa#8, 0x1f#8, 0x88#8, 0xe0#8, 0x81#8, 0xbb#8, 0xde#8, 0xa9#8, 0x0c#8, 0x80#8, 0xcd#8, 0x09#8, 0xeb#8, 0x1e#8, 0xbe#8, 0x9d#8, 0x51#8, 0x5d#8, 0x51#8, 0xdf#8, 0x18#8, 0xc9#8, 0x26#8, 0x21#8, 0xca#8, 0xaa#8, 0x5d#8, 0x8c#8, 0x6d#8, 0xc3#8, 0x89#8, 0xa5#8, 0x6b#8, 0x30#8, 0xa7#8, 0x4b#8, 0xd3#8, 0x5f#8, 0x8c#8, 0x3e#8, 0xc7#8, 0x0e#8, 0x54#8, 0x69#8, 0x0b#8, 0xe9#8, 0x2d#8, 0x72#8, 0x3f#8, 0xc3#8, 0x30#8, 0xeb#8, 0x8d#8, 0xc5#8, 0x78#8, 0x80#8, 0x55#8, 0xae#8, 0x7b#8, 0x12#8, 0xd7#8, 0x61#8, 0xce#8, 0x1e#8, 0x8f#8, 0x82#8, 0x55#8, 0x68#8, 0x7b#8, 0x65#8, 0xa2#8, 0x90#8, 0x4b#8, 0x24#8, 0x39#8, 0x10#8, 0xd1#8, 0xc8#8, 0x55#8, 0x03#8, 0x56#8, 0x82#8, 0x9a#8, 0x5f#8, 0xcb#8, 0x58#8, 0x33#8, 0x61#8, 0x14#8, 0xaa#8, 0x3a#8, 0x1a#8, 0x34#8, 0x11#8, 0x90#8, 0x84#8, 0x6f#8, 0xc1#8, 0x38#8, 0x17#8, 0x20#8, 0x79#8, 0x1b#8, 0x8e#8, 0x75#8, 0x58#8, 0xd6#8, 0x2f#8, 0xcc#8, 0x05#8, 0x34#8, 0x89#8, 0x24#8, 0x24#8, 0x4f#8, 0x79#8, 0x60#8, 0x5c#8, 0x79#8, 0x7b#8, 0xfa#8, 0x96#8, 0x56#8, 0xfc#8, 0xa0#8, 0xe6#8, 0xb5#8, 0x69#8, 0x75#8, 0x2e#8, 0x64#8, 0xfb#8, 0x2d#8, 0x49#8, 0x12#8, 0x83#8, 0x5e#8, 0x70#8, 0xa7#8, 0x5d#8, 0x9b#8, 0x26#8, 0xd6#8, 0x6a#8, 0xf3#8, 0x74#8, 0x26#8, 0xcd#8, 0x05#8, 0xfe#8, 0xba#8, 0x9e#8, 0x7a#8, 0xfb#8, 0xc0#8, 0x05#8, 0x82#8, 0xcf#8, 0x03#8, 0xaf#8, 0xcb#8, 0x99#8, 0x9b#8, 0xfa#8, 0x48#8, 0xde#8, 0x1b#8, 0xcb#8, 0x30#8, 0x6a#8, 0x0c#8] ++ List.replicate 64 0x00#8), bodies := [some (.patterns [] 1)] } } },
    { via := .ring 3, tag := 89, indirect := false, argLen := 4, suits := true, object := 805306387, resAddr := 4096, resLen := 64 }, 1, ?_⟩⟩ <;> decide +kernel

theorem wit_PacketsIn :
    (∃ (s : State) (p : Fin 512) (rx : Reception), s.portState p = 3 ∧ (s.readFrame p rx).1 = none) ∧
    (∃ (s : State) (p : Fin 512) (rx : Reception), s.portState p = 3 ∧ ((s.readFrame p rx).1).any (fun x => decide (x.data.length < 64)) = true) ∧
    (∃ (s : State) (p : Fin 512) (rx : Reception), s.portState p = 3 ∧ ((s.readFrame p rx).1).any (fun x => decide (64 ≤ x.data.length ∧
    isMacControl x.data = true)) = true) ∧
    (∃ (s : State) (p : Fin 512) (rx : Reception), s.portState p = 3 ∧ ((s.readFrame p rx).1).any (fun x => decide (64 ≤ x.data.length ∧
    isMacControl x.data = false ∧ ((s.readFrame p rx).2).isHello p x.data = true)) = true) ∧
    (∃ (s : State) (p : Fin 512) (rx : Reception), s.portState p = 3 ∧ ((s.readFrame p rx).1).any (fun x => decide (64 ≤ x.data.length ∧
    isMacControl x.data = false ∧ ((s.readFrame p rx).2).isHello p x.data = false ∧
    ((s.readFrame p rx).2).isFerry x.data = true)) = true) ∧
    (∃ (s : State) (p : Fin 512) (rx : Reception), s.portState p = 3 ∧ ((s.readFrame p rx).1).any (fun x => decide (64 ≤ x.data.length ∧
    x.data.length ≤ max 64 (min 16000 (s.rd (F.MAC_RX_CFG_MAX_LEN p))) ∧ x.coding = false ∧ fcsGood x.data = true ∧ isMacControl x.data =
    false ∧ ((s.readFrame p rx).2).isHello p x.data = false ∧
    ((s.readFrame p rx).2).isFerry x.data = false ∧ 262144 < s.rxBytes (p / 32) (p % 32 / 8) + x.data.length)) = true) ∧
    (∃ (s : State) (p : Fin 512) (rx : Reception), s.portState p = 3 ∧ ((s.readFrame p rx).1).any (fun x => decide (64 ≤ x.data.length ∧
    x.data.length ≤ max 64 (min 16000 (s.rd (F.MAC_RX_CFG_MAX_LEN p))) ∧ x.coding = false ∧ fcsGood x.data = true ∧ isMacControl x.data =
    false ∧ ((s.readFrame p rx).2).isHello p x.data = false ∧
    ((s.readFrame p rx).2).isFerry x.data = false ∧ s.rxBytes (p / 32) (p % 32 / 8) + x.data.length ≤ 262144 ∧ (s.servePipe (p /
    32) 0 (p % 32 / 8) (s.frameBegun p x.data.length)).any (fun k => decide ((s.parse (10 * (p.val / 32) + k) x.data).1.fail = none)) =
    true)) = true) ∧
    (∃ (s : State) (p : Fin 512), s.portState p ≠ 3) ∧
    (∃ (s : State) (i : Fin 16) (x : Fin 5), (s.pipeState (10 * i.val + x.val) = 0 ∨ s.pipeState (10 * i.val + x.val) = 3) ∧ s.stopped =
    true) ∧
    (∃ (s : State) (i : Fin 16) (x : Fin 5), s.pipeState (10 * i.val + x.val) = 0 ∧ s.stopped = false ∧ s.creditStall (10 * i.val + x.val) =
    false ∧ (s.issueClk (10 * i.val + x.val)).used = 0 ∧ (s.issueClk (10 * i.val + x.val)).stall = 0 ∧ (s.issueClk (10 * i.val +
    x.val)).phase < s.rd F.PWR_STATUS_DUTY ∧ (s.issueClk (10 * i.val + x.val)).reserved = [] ∧ mget s.path.inject (10 * i.val + x.val) [] =
    []) ∧
    (∃ (s : State) (i : Fin 16) (x : Fin 5), (s.flights (10 * i.val + x.val)).head?.any (fun fl => decide (fl.marked = true ∧ s.stopped =
    false ∧ (s.issueClk (10 * i.val + x.val)).used < 2 ∧ (s.issueClk (10 * i.val + x.val)).reserved.headD 0 ≤ (s.issueClk (10 * i.val +
    x.val)).clock ∧ fl.dead = false ∧ fl.md.drop = false)) = true) ∧
    (∃ (s : State) (i : Fin 16) (x : Fin 5), (s.flights (10 * i.val + x.val)).head?.any (fun fl => decide (fl.marked = true ∧ s.stopped =
    false ∧ (s.issueClk (10 * i.val + x.val)).used < 2 ∧ (s.issueClk (10 * i.val + x.val)).reserved.headD 0 ≤ (s.issueClk (10 * i.val +
    x.val)).clock ∧ (fl.dead = true ∨ fl.md.drop = true))) = true) ∧
    ∃ (s : State) (i : Fin 16) (x : Fin 5), (s.pipeState (10 * i.val + x.val) = 1 ∨ s.pipeState (10 * i.val + x.val) = 2 ∨ s.pipeState (10 *
    i.val + x.val) = 4) := by
  refine ⟨⟨mk [(F.PORT_STATUS_STATE 0, 3)], 0, .pairs [[(2, 3), (2, 3), (2, 3), (2, 3), (2, 3), (2, 3), (2, 3), (2, 3), (2, 3), (2, 3), (2, 3),
    (2, 3), (2, 3), (2, 3), (2, 3), (2, 3), (2, 3), (2, 3), (2, 3), (2, 3), (2, 3), (2, 3), (2, 3), (2, 3), (2, 3), (2, 3), (2, 3), (2, 3),
    (2, 3), (2, 3), (2, 3), (2, 3), (2, 3), (2, 3), (2, 3), (2, 3), (2, 3), (2, 3), (2, 3), (2, 3)], [(2, 3), (2, 3), (2, 3), (2, 3), (2,
    3), (2, 3), (2, 3), (2, 3), (2, 3), (2, 3), (2, 3), (2, 3), (2, 3), (2, 3), (2, 3), (2, 3), (2, 3), (2, 3), (2, 3), (2, 3), (2, 3), (2,
    3), (2, 3), (2, 3), (2, 3), (2, 3), (2, 3), (2, 3), (2, 3), (2, 3), (2, 3), (2, 3), (2, 3), (2, 3), (2, 3), (2, 3), (2, 3), (2, 3), (2,
    3), (2, 3)], [(2, 3), (2, 3), (2, 3), (2, 3), (2, 3), (2, 3), (2, 3), (2, 3), (2, 3), (2, 3), (2, 3), (2, 3), (2, 3), (2, 3), (2, 3),
    (2, 3), (2, 3), (2, 3), (2, 3), (2, 3), (2, 3), (2, 3), (2, 3), (2, 3), (2, 3), (2, 3), (2, 3), (2, 3), (2, 3), (2, 3), (2, 3), (2, 3),
    (2, 3), (2, 3), (2, 3), (2, 3), (2, 3), (2, 3), (2, 3), (2, 3)], [(2, 3), (2, 3), (2, 3), (2, 3), (2, 3), (2, 3), (2, 3), (2, 3), (2,
    3), (2, 3), (2, 3), (2, 3), (2, 3), (2, 3), (2, 3), (2, 3), (2, 3), (2, 3), (2, 3), (2, 3), (2, 3), (2, 3), (2, 3), (2, 3), (2, 3), (2,
    3), (2, 3), (2, 3), (2, 3), (2, 3), (2, 3), (2, 3), (2, 3), (2, 3), (2, 3), (2, 3), (2, 3), (2, 3), (2, 3), (2, 3)]], ?_⟩,
   ⟨mk [(F.PORT_STATUS_STATE 0, 3)], 0, .octets [0x07#8, 0x07#8, 0x07#8, 0x07#8, 0x07#8] false 2, ?_⟩,
   ⟨mk [(F.PORT_STATUS_STATE 0, 3)], 0, .octets ([0x01#8, 0x80#8, 0xC2#8, 0x00#8, 0x00#8, 0x01#8] ++ List.replicate 6 0x02#8 ++ [0x88#8, 0x08#8] ++ List.replicate 50 0x00#8) false 2, ?_⟩,
   ⟨mk [(F.PORT_STATUS_STATE 0, 3), (F.PORT_CFG_MODE 0, 1), (F.PORT_HELLO_CFG_ETYPE 0, 0x88B5)], 0, .octets ([0x01#8, 0x80#8, 0xC2#8, 0x00#8, 0x00#8, 0x0E#8] ++ List.replicate 6 0x02#8 ++ [0x88#8, 0xB5#8] ++ List.replicate 50 0x00#8) false 2, ?_⟩,
   ⟨mk [(F.PORT_STATUS_STATE 0, 3), (F.PWR_FERRY_CFG_ETYPE, 0x88B6)], 0, .octets ([0x01#8, 0x80#8, 0xC2#8, 0x00#8, 0x00#8, 0x0E#8] ++ List.replicate 6 0x02#8 ++ [0x88#8, 0xB6#8] ++ List.replicate 50 0x00#8) false 2, ?_⟩,
   ⟨{ mk [(F.PORT_STATUS_STATE 2, 3)] with path := { rxq := [(0, [{ port := 3, host := false, data := (List.replicate 262140 0x00#8), bad := false, ts := 16952390979, tsB := 16952390979, t16 := 16952390979, begun := 79, hdrs := [], payOff := 0, pfail := 15, ppeCount := 0, ppeGroups := 0, ppeFirst := [], ready := 0 }])] } },
    2, .octets (List.replicate 130 0x07#8 ++ [0x0c#8, 0x79#8, 0xc2#8, 0x56#8]) false 6, ?_⟩,
   ⟨mk [(F.PORT_STATUS_STATE 0, 3)], 0, .octets (List.replicate 170 0x07#8 ++ [0x11#8, 0x23#8, 0x2b#8, 0xad#8]) false 6, ?_⟩,
   ⟨State.reset, 2, ?_⟩,
   ⟨{ mk [(F.PIPE_STATUS_STATE 4, 3)] with fatalStop := true }, 0, 4, ?_⟩,
   ⟨State.reset, 0, 2, ?_⟩,
   ⟨{ State.reset with path := { pipes := [(1, [{ rx := { port := 3, host := false, data := (List.replicate 63 0x09#8 ++ [0x8c#8, 0xc7#8, 0xb2#8, 0xff#8]), bad := false, ts := 14553085503, tsB := 14553085503, t16 := 14553085503, begun := 3, hdrs := [], payOff := 0, pfail := 15, ppeCount := 0, ppeGroups := 0, ppeFirst := [], ready := 0 }, md := { egressPort := 3, queue := 3, mcastGroup := 0, pg := 0, colour := 0, ecnCap := false, drop := false, dropReason := 0, group := 4095, groupHash := 0, trapReason := 0, trapMode := 1, mirror := 0, atoll := false, session := 0, telFlags := 0, parseFail := 15, badFrame := false, egressMeta := 0, flowKey := 0, hostPtp := none }, passes := 0, marked := true, dead := false, hw := 0, hv := [], words := [], outPort := 1023, depth := 0, resTime := 0, stamp := none, trace := none }])] } },
    0, 1, ?_⟩,
   ⟨{ State.reset with path := { pipes := [(4, [{ rx := { port := 1, host := false, data := (List.replicate 93 0x09#8 ++ [0xc9#8, 0x90#8, 0xfc#8, 0xd4#8]), bad := false, ts := 3540454233, tsB := 3540454233, t16 := 3540454233, begun := 33, hdrs := [], payOff := 0, pfail := 15, ppeCount := 0, ppeGroups := 0, ppeFirst := [], ready := 0 }, md := { egressPort := 3, queue := 3, mcastGroup := 0, pg := 0, colour := 0, ecnCap := false, drop := false, dropReason := 0, group := 4095, groupHash := 0, trapReason := 0, trapMode := 0, mirror := 0, atoll := false, session := 0, telFlags := 0, parseFail := 15, badFrame := false, egressMeta := 0, flowKey := 0, hostPtp := none }, passes := 0, marked := true, dead := true, hw := 0, hv := [], words := [], outPort := 1023, depth := 0, resTime := 0, stamp := none, trace := none }])] } },
    0, 4, ?_⟩,
   ⟨State.reset, 1, 4, ?_⟩⟩ <;> decide +kernel

theorem wit_PacketsIn_2 :
    ∃ (s : State) (i : Fin 16) (x : Fin 5), (s.flights (10 * i.val + x.val)).head?.any (fun fl => decide (fl.marked = false)) = true := by
  exact ⟨{ State.reset with path := { pipes := [(4, [{ rx := { port := 2, host := false, data := (List.replicate 84 0x09#8 ++ [0x96#8, 0x5f#8, 0x1b#8, 0xfa#8]), bad := false, ts := 3111483374, tsB := 3111483374, t16 := 3111483374, begun := 74, hdrs := [], payOff := 0, pfail := 15, ppeCount := 0, ppeGroups := 0, ppeFirst := [], ready := 0 }, md := { egressPort := 2, queue := 4, mcastGroup := 0, pg := 0, colour := 0, ecnCap := false, drop := false, dropReason := 0, group := 4095, groupHash := 0, trapReason := 0, trapMode := 0, mirror := 0, atoll := false, session := 0, telFlags := 0, parseFail := 15, badFrame := false, egressMeta := 0, flowKey := 0, hostPtp := none }, passes := 0, marked := false, dead := false, hw := 0, hv := [], words := [], outPort := 1023, depth := 0, resTime := 0, stamp := none, trace := none }, { rx := { port := 1, host := false, data := (List.replicate 109 0x09#8 ++ [0x3e#8, 0xeb#8, 0x81#8, 0x2d#8]), bad := false, ts := 2074322249, tsB := 2074322249, t16 := 2074322249, begun := 49, hdrs := [], payOff := 0, pfail := 15, ppeCount := 0, ppeGroups := 0, ppeFirst := [], ready := 0 }, md := { egressPort := 5, queue := 4, mcastGroup := 0, pg := 0, colour := 0, ecnCap := false, drop := false, dropReason := 0, group := 4095, groupHash := 0, trapReason := 0, trapMode := 0, mirror := 0, atoll := false, session := 0, telFlags := 0, parseFail := 15, badFrame := false, egressMeta := 0, flowKey := 0, hostPtp := none }, passes := 0, marked := false, dead := true, hw := 0, hv := [], words := [], outPort := 1023, depth := 0, resTime := 0, stamp := none, trace := none }])] } },
    0, 4, by decide +kernel⟩

theorem wit_PacketExits :
    (∃ (s : State) (i : Fin 16) (x : Fin 5), (s.flights (10 * i.val + x.val)).head?.any (fun f => decide ((f.marked = false ∨ f.dead = true)
    ∧ s.pipeSwap i 0 = none)) = true) ∧
    (∃ (s : State) (i : Fin 16) (x : Fin 5), (s.flights (10 * i.val + x.val)).head?.any (fun f => decide ((f.marked = false ∨ f.dead = true)
    ∧ s.pipeSwap i 0 = none ∧ f.hw = 0 ∧ f.md.drop = true)) = true) ∧
    (∃ (s : State) (i : Fin 16) (x : Fin 5), (s.flights (10 * i.val + x.val)).head?.any (fun f => decide ((f.marked = false ∨ f.dead = true)
    ∧ s.pipeSwap i 0 = none ∧ f.hw = 0 ∧ f.md.drop = false ∧ f.md.trapMode = 0 ∧ f.md.mirror = 0 ∧ f.md.atoll = false ∧ f.md.mcastGroup = 0
    ∧ f.md.badFrame = false ∧ f.md.egressPort < 512 ∧ f.md.queue < 16 ∧ s.chooseHalf (f.md.egressPort / 256) = (f.md.egressPort / 256) ∧
    i.val / 8 = (f.md.egressPort / 256) ∧ s.egressTest (16 * f.md.egressPort + f.md.queue) (cellsOf f.rx.data.length) (f.md.egressPort /
    256) = none ∧ (cellsOf f.rx.data.length) ≤ s.freeFor (f.md.egressPort / 256) (f.md.egressPort / 256) ∧ s.path.held = [] ∧ s.on
    (F.BPM_DEEP_Q_CFG_EN (16 * f.md.egressPort + f.md.queue)) = false ∧ s.on (F.BPM_DEEP_Q_STATUS_DEEP (16 * f.md.egressPort + f.md.queue))
    = false ∧ (s.account (if f.rx.port < 512 then some (f.rx.port, f.md.pg % 8) else none) (some (16 * f.md.egressPort + f.md.queue))
    (cellsOf f.rx.data.length) (f.md.egressPort / 256)).isOk = true)) = true) ∧
    (∃ (s : State) (i : Fin 16) (x : Fin 5), (s.flights (10 * i.val + x.val)).head?.any (fun f => decide ((f.marked = false ∨ f.dead = true)
    ∧ (s.pipeSwap i 0).any (fun w => decide (x.val = w.resv ∧ s.pipeState (10 * i.val + x.val) = 3 ∧ (s.setFlights (10 * i.val + x.val)
    ((s.flights (10 * i.val + x.val)).tail)).holdsPort (10 * i + w.target) f.rx.port = true)) = true)) = true) ∧
    (∃ (s : State) (i : Fin 16) (x : Fin 5), (mget s.path.eg (10 * i.val + 5 + x.val) []).head?.any (fun f => decide (f.heldAt = none ∧
    s.pipeSwap i 1 = none ∧ f.owed = 0)) = true) ∧
    (∃ (s : State) (i : Fin 16) (x : Fin 5), (mget s.path.eg (10 * i.val + 5 + x.val) []).head?.any (fun f => decide (f.heldAt = none ∧
    s.pipeSwap i 1 = none ∧ f.owed = 0 ∧ f.dropCode = none ∧ f.trap = none)) = true) ∧
    (∃ (s : State) (p : Fin 512) (errs : List (Nat × Bool)), (mget s.path.tx p []).head?.any (fun f => decide (s.portState p = 3 ∧ s.stopped
    = false ∧ (s.txErrors f errs).1 = none)) = true) ∧
    (∃ (s : State) (p : Fin 512) (errs : List (Nat × Bool)), (mget s.path.tx p []).head?.any (fun f => decide (s.portState p = 3 ∧ s.stopped
    = false ∧ ((s.txErrors f errs).1).isSome = true)) = true) ∧
    (∃ (s : State) (i : Fin 16) (x : Fin 5), s.flights (10 * i.val + x.val) = []) ∧
    ∃ (s : State) (i : Fin 16) (x : Fin 5), (mget s.path.eg (10 * i.val + 5 + x.val) []).head?.any (fun f => decide (f.heldAt = none ∧
    s.pipeSwap i 1 = none ∧ f.owed ≠ 0)) = true := by
  refine ⟨⟨{ State.reset with path := { pipes := [(4, [{ rx := { port := 1, host := false, data := (List.replicate 95 0x09#8 ++ [0xad#8, 0x3a#8, 0xf0#8, 0x03#8]), bad := false, ts := 5200048185, tsB := 5200048185, t16 := 5200048185, begun := 85, hdrs := [], payOff := 0, pfail := 15, ppeCount := 0, ppeGroups := 0, ppeFirst := [], ready := 0 }, md := { egressPort := 1023, queue := 0, mcastGroup := 0, pg := 0, colour := 0, ecnCap := false, drop := false, dropReason := 0, group := 4095, groupHash := 0, trapReason := 0, trapMode := 0, mirror := 0, atoll := false, session := 0, telFlags := 0, parseFail := 15, badFrame := false, egressMeta := 0, flowKey := 0, hostPtp := none }, passes := 0, marked := true, dead := true, hw := 0, hv := [], words := [], outPort := 1023, depth := 0, resTime := 0, stamp := none, trace := none }])] } },
    0, 4, ?_⟩,
   ⟨{ State.reset with path := { pipes := [(1, [{ rx := { port := 1, host := false, data := (List.replicate 91 0x09#8 ++ [0x88#8, 0x77#8, 0x07#8, 0x77#8]), bad := false, ts := 13067073081, tsB := 13067073081, t16 := 13067073081, begun := 81, hdrs := [], payOff := 0, pfail := 15, ppeCount := 0, ppeGroups := 0, ppeFirst := [], ready := 0 }, md := { egressPort := 3, queue := 1, mcastGroup := 0, pg := 0, colour := 0, ecnCap := false, drop := true, dropReason := 0, group := 4095, groupHash := 0, trapReason := 0, trapMode := 0, mirror := 0, atoll := false, session := 0, telFlags := 0, parseFail := 15, badFrame := false, egressMeta := 0, flowKey := 0, hostPtp := none }, passes := 0, marked := true, dead := true, hw := 0, hv := [], words := [], outPort := 1023, depth := 0, resTime := 0, stamp := none, trace := none }])] } },
    0, 1, ?_⟩,
   ⟨{ mk [(F.LAG_POOL_SIZE 1, 100000)] with path := { pipes := [(4, [{ rx := { port := 0, host := false, data := (List.replicate 88 0x09#8 ++ [0x99#8, 0xaf#8, 0x16#8, 0xf0#8]), bad := false, ts := 217399528, tsB := 217399528, t16 := 217399528, begun := 28, hdrs := [], payOff := 0, pfail := 15, ppeCount := 0, ppeGroups := 0, ppeFirst := [], ready := 0 }, md := { egressPort := 4, queue := 3, mcastGroup := 0, pg := 0, colour := 0, ecnCap := false, drop := false, dropReason := 0, group := 4095, groupHash := 0, trapReason := 0, trapMode := 0, mirror := 0, atoll := false, session := 0, telFlags := 0, parseFail := 15, badFrame := false, egressMeta := 0, flowKey := 0, hostPtp := none }, passes := 0, marked := false, dead := false, hw := 0, hv := [], words := [], outPort := 1023, depth := 0, resTime := 0, stamp := none, trace := none }])] } },
    0, 4, ?_⟩,
   ⟨{ mk [(F.PIPE_STATUS_STATE 4, 3)] with path := { pipes := [(0, [{ rx := { port := 0, host := false, data := (List.replicate 100 0x09#8 ++ [0x75#8, 0x81#8, 0x3d#8, 0x98#8]), bad := false, ts := 7106023840, tsB := 7106023840, t16 := 7106023840, begun := 40, hdrs := [], payOff := 0, pfail := 15, ppeCount := 0, ppeGroups := 0, ppeFirst := [], ready := 0 }, md := { egressPort := 1023, queue := 0, mcastGroup := 0, pg := 0, colour := 0, ecnCap := false, drop := false, dropReason := 0, group := 4095, groupHash := 0, trapReason := 0, trapMode := 0, mirror := 0, atoll := false, session := 0, telFlags := 0, parseFail := 15, badFrame := false, egressMeta := 0, flowKey := 0, hostPtp := none }, passes := 0, marked := false, dead := false, hw := 0, hv := [], words := [], outPort := 1023, depth := 0, resTime := 0, stamp := none, trace := none }]), (4, [{ rx := { port := 0, host := false, data := (List.replicate 80 0x09#8 ++ [0x3d#8, 0x52#8, 0x0e#8, 0x53#8]), bad := false, ts := 3553011920, tsB := 3553011920, t16 := 3553011920, begun := 20, hdrs := [], payOff := 0, pfail := 15, ppeCount := 0, ppeGroups := 0, ppeFirst := [], ready := 0 }, md := { egressPort := 1023, queue := 0, mcastGroup := 0, pg := 0, colour := 0, ecnCap := false, drop := false, dropReason := 0, group := 4095, groupHash := 0, trapReason := 0, trapMode := 0, mirror := 0, atoll := false, session := 0, telFlags := 0, parseFail := 15, badFrame := false, egressMeta := 0, flowKey := 0, hostPtp := none }, passes := 0, marked := false, dead := false, hw := 0, hv := [], words := [], outPort := 1023, depth := 0, resTime := 0, stamp := none, trace := none }])] }, mat := { swaps := [(0, some { resv := 4, target := 0, retire := true, progId := 23843, tables := [], entries := [], inits := [], copies := [], began := 0, start := 0, hold := 0 })] } },
    0, 4, ?_⟩,
   ⟨{ State.reset with path := { eg := [(6, [{ port := 0, queue := 3, pkt := 5, data := (List.replicate 80 0x05#8 ++ [0x29#8, 0x87#8, 0x5f#8, 0xf4#8]), md := { egressPort := 1023, queue := 0, mcastGroup := 0, pg := 0, colour := 0, ecnCap := false, drop := false, dropReason := 0, group := 4095, groupHash := 0, trapReason := 0, trapMode := 0, mirror := 0, atoll := false, session := 0, telFlags := 0, parseFail := 15, badFrame := false, egressMeta := 0, flowKey := 0, hostPtp := none }, inPort := 1, ts := 5, t16 := 6, depth := 1, resTime := 1, deep := false, ce := false, ioam := false, owed := 0, cells := [16385, 2], work := { rewrite := none, ioam := none, ptp := none }, trap := none, delayAt := none, ptp := none, dropCode := none, heldAt := none }])] } },
    0, 1, ?_⟩,
   ⟨{ State.reset with path := { eg := [(6, [{ port := 0, queue := 3, pkt := 5, data := (List.replicate 80 0x05#8 ++ [0x29#8, 0x87#8, 0x5f#8, 0xf4#8]), md := { egressPort := 1023, queue := 0, mcastGroup := 0, pg := 0, colour := 0, ecnCap := false, drop := false, dropReason := 0, group := 4095, groupHash := 0, trapReason := 0, trapMode := 0, mirror := 0, atoll := false, session := 0, telFlags := 0, parseFail := 15, badFrame := false, egressMeta := 0, flowKey := 0, hostPtp := none }, inPort := 1, ts := 5, t16 := 6, depth := 1, resTime := 1, deep := false, ce := false, ioam := false, owed := 0, cells := [16385, 2], work := { rewrite := none, ioam := none, ptp := none }, trap := none, delayAt := none, ptp := none, dropCode := none, heldAt := none }])] } },
    0, 1, ?_⟩,
   ⟨{ mk [(F.PORT_STATUS_STATE 1, 3)] with path := { tx := [(1, [{ port := 2, queue := 9, pkt := 13, data := (List.replicate 80 0x05#8 ++ [0x29#8, 0x87#8, 0x5f#8, 0xf4#8]), md := { egressPort := 1023, queue := 0, mcastGroup := 0, pg := 0, colour := 0, ecnCap := false, drop := false, dropReason := 0, group := 4095, groupHash := 0, trapReason := 0, trapMode := 0, mirror := 0, atoll := false, session := 0, telFlags := 0, parseFail := 15, badFrame := false, egressMeta := 0, flowKey := 0, hostPtp := none }, inPort := 1, ts := 5, t16 := 6, depth := 1, resTime := 1, deep := false, ce := false, ioam := false, owed := 0, cells := [16385, 2], work := { rewrite := none, ioam := none, ptp := none }, trap := none, delayAt := none, ptp := none, dropCode := none, heldAt := none }])] } },
    1, [(14, false), (14, false)], ?_⟩,
   ⟨{ mk [(F.PORT_STATUS_STATE 1, 3)] with path := { tx := [(1, [{ port := 1, queue := 19, pkt := 9, data := (List.replicate 80 0x05#8 ++ [0x29#8, 0x87#8, 0x5f#8, 0xf4#8]), md := { egressPort := 1023, queue := 0, mcastGroup := 0, pg := 0, colour := 0, ecnCap := false, drop := false, dropReason := 0, group := 4095, groupHash := 0, trapReason := 0, trapMode := 0, mirror := 0, atoll := false, session := 0, telFlags := 0, parseFail := 15, badFrame := false, egressMeta := 0, flowKey := 0, hostPtp := none }, inPort := 1, ts := 5, t16 := 6, depth := 1, resTime := 1, deep := false, ce := false, ioam := false, owed := 0, cells := [16385, 2], work := { rewrite := none, ioam := none, ptp := none }, trap := none, delayAt := none, ptp := none, dropCode := none, heldAt := none }])] } },
    1, [(0, true), (0, true)], ?_⟩,
   ⟨State.reset, 0, 2, ?_⟩,
   ⟨{ State.reset with path := { eg := [(5, [{ port := 1, queue := 10, pkt := 8, data := (List.replicate 80 0x05#8 ++ [0x29#8, 0x87#8, 0x5f#8, 0xf4#8]), md := { egressPort := 1023, queue := 0, mcastGroup := 0, pg := 0, colour := 0, ecnCap := false, drop := false, dropReason := 0, group := 4095, groupHash := 0, trapReason := 0, trapMode := 0, mirror := 0, atoll := false, session := 0, telFlags := 0, parseFail := 15, badFrame := false, egressMeta := 0, flowKey := 0, hostPtp := none }, inPort := 1, ts := 5, t16 := 6, depth := 1, resTime := 1, deep := false, ce := true, ioam := false, owed := 1, cells := [16385, 2], work := { rewrite := none, ioam := none, ptp := none }, trap := none, delayAt := none, ptp := none, dropCode := none, heldAt := none }, { port := 2, queue := 15, pkt := 11, data := (List.replicate 80 0x05#8 ++ [0x29#8, 0x87#8, 0x5f#8, 0xf4#8]), md := { egressPort := 1023, queue := 0, mcastGroup := 0, pg := 0, colour := 0, ecnCap := false, drop := false, dropReason := 0, group := 4095, groupHash := 0, trapReason := 0, trapMode := 0, mirror := 0, atoll := false, session := 0, telFlags := 0, parseFail := 15, badFrame := false, egressMeta := 0, flowKey := 0, hostPtp := none }, inPort := 1, ts := 5, t16 := 6, depth := 1, resTime := 1, deep := false, ce := false, ioam := false, owed := 1, cells := [16385, 2], work := { rewrite := none, ioam := none, ptp := none }, trap := none, delayAt := none, ptp := none, dropCode := none, heldAt := none }])] } },
    0, 0, ?_⟩⟩ <;> decide +kernel

theorem wit_PacketExits_2 :
    ∃ (s : State) (p : Fin 512), (mget s.path.tx p [] = [] ∨ s.portState p ≠ 3 ∨ s.stopped = true) := by
  exact ⟨State.reset, 3, by decide +kernel⟩

theorem wit_PipelineSwaps :
    (∃ (s : State) (i : Fin 16) (d : Fin 2), (s.pipeSwap i d).any (fun w => decide (w.resv < 10 ∧ s.pipeState (10 * i.val + w.resv) = 2 ∧
    s.on (F.PIPE_STATUS_READY (10 * i.val + w.resv)) = false)) = true) ∧
    (∃ (s : State) (i : Fin 16) (d : Fin 2), (s.pipeSwap i d).any (fun w => decide (w.resv < 10 ∧ w.target < 10 ∧ w.resv ≠ w.target ∧
    s.pipeState (10 * i.val + w.resv) = 3 ∧ s.targetEmpty i d w = true)) = true) ∧
    (∃ (s : State) (i : Fin 16) (d : Fin 2), (s.pipeSwap i d).any (fun w => decide (w.resv < 10 ∧ w.target < 10 ∧ w.resv ≠ w.target ∧
    s.pipeState (10 * i.val + w.resv) = 3 ∧ s.now - w.start ≥ max 1 (s.rd (F.PIPE_SWAP_CFG_FENCE_MAX (2 * i.val + d.val))) * 128)) = true) ∧
    (∃ (s : State) (i : Fin 16) (x : Fin 10), s.pipeState (10 * i.val + x.val) = 0 ∧ s.pipeSwap i (x / 5) = none ∧ (s.reservePipe i (x /
    5)).isSome = true) ∧
    (∃ (s : State) (i : Fin 16) (x : Fin 10), s.pipeState (10 * i.val + x.val) = 1) ∧
    (∃ (s : State) (i : Fin 16) (x : Fin 10), s.pipeState (10 * i.val + x.val) = 0 ∧ s.pipeSwap i (x / 5) = none ∧ s.reservePipe i (x / 5) =
    none) ∧
    (∃ (s : State) (i : Fin 16) (d : Fin 2), (s.pipeSwap i d).any (fun w => decide (w.resv < 10 ∧ w.target < 10 ∧ w.resv ≠ w.target ∧
    s.pipeState (10 * i.val + w.resv) = 3 ∧ s.targetEmpty i d w = false)) = true) ∧
    ∃ (s : State) (i : Fin 16) (d : Fin 2), (s.pipeSwap i d).any (fun w => decide (w.resv < 10 ∧ w.target < 10 ∧ w.resv ≠ w.target ∧
    s.pipeState (10 * i.val + w.resv) = 3 ∧ s.now - w.start < max 1 (s.rd (F.PIPE_SWAP_CFG_FENCE_MAX (2 * i.val + d.val))) * 128)) = true :=
    by
  refine ⟨⟨{ mk [(F.PIPE_STATUS_STATE 14, 2)] with mat := { swaps := [(2, some { resv := 4, target := 1, retire := false, progId := 59728, tables := [], entries := [], inits := [], copies := [], began := 0, start := 0, hold := 0 })] } },
    1, 0, ?_⟩,
   ⟨{ mk [(F.PIPE_STATUS_STATE 4, 3)] with mat := { swaps := [(0, some { resv := 4, target := 3, retire := false, progId := 88822, tables := [], entries := [], inits := [], copies := [], began := 0, start := 0, hold := 0 })] } },
    0, 0, ?_⟩,
   ⟨{ mk [(F.LIGHT_TICKS_TICKS, 18000), (F.PIPE_STATUS_STATE 4, 3)] with mat := { swaps := [(0, some { resv := 4, target := 1, retire := false, progId := 66752, tables := [], entries := [], inits := [], copies := [], began := 0, start := 0, hold := 0 })] } },
    0, 0, ?_⟩,
   ⟨State.reset, 1, 3, ?_⟩,
   ⟨mk [(F.PIPE_STATUS_STATE 2, 1)], 0, 2, ?_⟩,
   ⟨mk [(F.PIPE_STATUS_STATE 19, 3)], 1, 6, ?_⟩,
   ⟨{ mk [(F.PIPE_STATUS_STATE 4, 3)] with path := { pipes := [(1, [{ rx := { port := 1, host := false, data := (List.replicate 109 0x09#8 ++ [0x3e#8, 0xeb#8, 0x81#8, 0x2d#8]), bad := false, ts := 6222966749, tsB := 6222966749, t16 := 6222966749, begun := 49, hdrs := [], payOff := 0, pfail := 15, ppeCount := 0, ppeGroups := 0, ppeFirst := [], ready := 0 }, md := { egressPort := 5, queue := 4, mcastGroup := 0, pg := 0, colour := 0, ecnCap := false, drop := false, dropReason := 0, group := 4095, groupHash := 0, trapReason := 0, trapMode := 0, mirror := 0, atoll := false, session := 0, telFlags := 0, parseFail := 15, badFrame := false, egressMeta := 0, flowKey := 0, hostPtp := none }, passes := 0, marked := false, dead := false, hw := 0, hv := [], words := [], outPort := 1023, depth := 0, resTime := 0, stamp := none, trace := none }])] }, mat := { swaps := [(0, some { resv := 4, target := 1, retire := false, progId := 66752, tables := [], entries := [], inits := [], copies := [], began := 0, start := 0, hold := 0 })] } },
    0, 0, ?_⟩,
   ⟨{ mk [(F.PIPE_STATUS_STATE 4, 3)] with mat := { swaps := [(0, some { resv := 4, target := 0, retire := true, progId := 13539, tables := [], entries := [], inits := [], copies := [], began := 0, start := 0, hold := 0 })] } },
    0, 0, ?_⟩⟩ <;> decide +kernel

set_option maxRecDepth 100000 in
theorem wit_Causeway :
    (∃ (s : State) (d : Fin 2) (b : Fin 64), s.bundleState d b ≠ 3) ∧
    (∃ (s : State) (d : Fin 2) (b : Fin 64), s.bundleState d b ≠ 3 ∧ (∀ vc : Fin 6, s.cwayWait d vc = []) ∧ (∀ k : Fin 64, (s.bundle d
    k).carry = []) ∧ ((s.nextCell (1 - d)).map (fun r => r.1)).isSome = true) ∧
    (∃ (s : State) (d : Fin 2) (b : Fin 64) (err : BitVec 2096), ((s.bundle d b).wire).head?.any (fun f => decide (flitGood (s.flitArrives f
    err) = false)) = true) ∧
    (∃ (s : State) (d : Fin 2) (b : Fin 64) (err : BitVec 2096), ((s.bundle d b).wire).head?.any (fun f => decide (flitGood (s.flitArrives f
    err) = true ∧ s.perturbFlit d b = false ∧ f.seq = (s.bundle d b).expect)) = true) ∧
    (∃ (s : State) (d : Fin 2) (b : Fin 64) (err : BitVec 2096) (pkt : _) (k : _), ((s.bundle d b).wire).head?.any (fun f => decide
    (flitGood (s.flitArrives f err) = true ∧ s.perturbFlit d b = false ∧ f.seq = (s.bundle d b).expect ∧ f.body = Body.cellWr pkt k)) =
    true) ∧
    (∃ (s : State) (d : Fin 2) (b : Fin 64) (err : BitVec 2096), ((s.bundle d b).wire).head?.any (fun f => decide (flitGood (s.flitArrives f
    err) = true ∧ s.perturbFlit d b = false ∧ f.seq ≠ (s.bundle d b).expect)) = true) ∧
    (∃ (s : State) (d : Fin 2) (b : Fin 64), ((s.bundle d b).ack).isSome = true ∧ (s.bundle d b).swapWait = none) ∧
    (∃ (s : State) (d : Fin 2) (b : Fin 64), ((s.bundle d b).nack).isSome = true ∧ s.bundleState d b = 0 ∧ (s.bundle d b).resends < max 1
    (s.rd F.CWAY_CFG_REPLAY_LIMIT) ∧ (s.bundle d b).swapWait = none) ∧
    (∃ (s : State) (d : Fin 2), (∀ v : Fin 6, s.cwayWait d v = []) ∧ (∀ j : Fin 64, (s.bundle d j).carry = [])) ∧
    ∃ (s : State) (pkt : _), (s.path.held.filter (fun e => e.pkt = pkt)).length = 1 ∧ (s.path.held.filter (fun e => e.pkt = pkt)).all (fun h
    => decide (h.cells = 0 ∧ h.here = true ∧ s.path.held.find? (fun e => e.stream = h.stream) = some h)) = true := by
  refine ⟨⟨State.reset, 0, 0, ?_⟩,
   ⟨State.reset, 0, 0, ?_⟩,
   ⟨{ State.reset with path := { cway := { bundles := [(1, { next := 7, unacked := [{ seq := 2, body := .cellWr 0 0 }, { seq := 3, body := .rdq 47 3 0 2 }], resends := 2, wire := [{ seq := 2, body := .cellWr 0 0 }], expect := 4, discarding := true, ack := some 3, nack := none, grants := [], carry := [], swapWait := none, swapWire := none, since := 200, count := 1 })] } } },
    0, 1,
    0x02000000000000000000000000000000000000000000000000000000000000000000000000000000000000000000000000000000000000000000000000000000000000000000000000000000000000000000000000000000000000000000000000000000000000000000000000000000000000000000000000000000000000000000000000000000000000000000000000000000000000000000000000000000000000000000000000000000000000000000000000000000000000000000000000000000000000000000000000000000000000000000000000000000000000000000000000000000000000000000000000000000000000000000000000000000000000000000#2096,
    ?_⟩,
   ⟨{ State.reset with path := { cway := { bundles := [(65, { next := 6, unacked := [{ seq := 2, body := .desc [(4, 8)] }], resends := 1, wire := [{ seq := 3, body := .desc [(4, 8)] }, { seq := 4, body := .desc [(3, 11)] }], expect := 3, discarding := true, ack := none, nack := none, grants := [], carry := [], swapWait := none, swapWire := none, since := 100, count := 1 })] } } },
    1, 1,
    0x00000000000000000000000000000000000000000000000000000000000000000000000000000000000000000000000000000000000000000000000000000000000000000000000000000000000000000000000000000000000000000000000000000000000000000000000000000000000000000000000000000000000000000000000000000000000000000000000000000000000000000000000000000000000000000000000000000000000000000000000000000000000000000000000000000000000000000000000000000000000000000000000000000000000000000000000000000000000000000000000000000000000000000000000000000000000000000000#2096,
    ?_⟩,
   ⟨{ State.reset with path := { cway := { bundles := [(65, { next := 5, unacked := [{ seq := 2, body := .cellWr 2 2 }, { seq := 3, body := .cellWr 1 1 }], resends := 2, wire := [{ seq := 2, body := .cellWr 2 2 }, { seq := 3, body := .cellWr 1 1 }], expect := 2, discarding := false, ack := some 3, nack := some 2, grants := [1, 2], carry := [], swapWait := none, swapWire := none, since := 0, count := 1 })] } } },
    1, 1,
    0x00000000000000000000000000000000000000000000000000000000000000000000000000000000000000000000000000000000000000000000000000000000000000000000000000000000000000000000000000000000000000000000000000000000000000000000000000000000000000000000000000000000000000000000000000000000000000000000000000000000000000000000000000000000000000000000000000000000000000000000000000000000000000000000000000000000000000000000000000000000000000000000000000000000000000000000000000000000000000000000000000000000000000000000000000000000000000000000#2096,
    2, 2, ?_⟩,
   ⟨{ State.reset with path := { cway := { bundles := [(1, { next := 7, unacked := [{ seq := 2, body := .rdd 1 131 3 1 }, { seq := 3, body := .desc [(2, 18)] }, { seq := 4, body := .desc [(7, 15)] }], resends := 3, wire := [{ seq := 3, body := .rdd 1 131 3 1 }], expect := 4, discarding := true, ack := none, nack := none, grants := [], carry := [], swapWait := none, swapWire := none, since := 200, count := 1 })] } } },
    0, 1,
    0x00000000000000000000000000000000000000000000000000000000000000000000000000000000000000000000000000000000000000000000000000000000000000000000000000000000000000000000000000000000000000000000000000000000000000000000000000000000000000000000000000000000000000000000000000000000000000000000000000000000000000000000000000000000000000000000000000000000000000000000000000000000000000000000000000000000000000000000000000000000000000000000000000000000000000000000000000000000000000000000000000000000000000000000000000000000000000000000#2096,
    ?_⟩,
   ⟨{ State.reset with path := { cway := { bundles := [(1, { next := 7, unacked := [{ seq := 2, body := .cellWr 0 0 }, { seq := 3, body := .rdq 47 3 0 2 }], resends := 2, wire := [{ seq := 2, body := .cellWr 0 0 }], expect := 4, discarding := true, ack := some 3, nack := none, grants := [], carry := [], swapWait := none, swapWire := none, since := 200, count := 1 })] } } },
    0, 1, ?_⟩,
   ⟨{ State.reset with path := { cway := { bundles := [(0, { next := 5, unacked := [{ seq := 2, body := .rdd 1 78 3 1 }, { seq := 3, body := .rdq 58 10 0 2 }], resends := 2, wire := [{ seq := 2, body := .rdd 1 78 3 1 }], expect := 2, discarding := false, ack := some 3, nack := some 2, grants := [1, 2], carry := [], swapWait := none, swapWire := none, since := 0, count := 1 })] } } },
    0, 0, ?_⟩,
   ⟨State.reset, 1, ?_⟩,
   ⟨{ State.reset with path := { held := [{ stream := 1, pkt := 1, queue := 17, cells := 0, here := true }] } }, 1, ?_⟩⟩ <;> decide +kernel

theorem wit_Causeway_2 :
    (∃ (s : State) (pkt : _), (s.path.held.filter (fun e => e.pkt = pkt)).length = 1 ∧ (s.path.held.filter (fun e => e.pkt = pkt)).all (fun
    h => decide (h.cells = 0 ∧ h.here = true ∧ s.path.held.find? (fun e => e.stream = h.stream) = some h ∧ (mfind s.path.pkts pkt).any (fun
    z => decide (z.deep = false)) = true)) = true) ∧
    (∃ (s : State) (d : Fin 2) (b : Fin 64), s.bundleState d b = 3) ∧
    (∃ (s : State) (d : Fin 2) (b : Fin 64), (s.bundle d b).wire = []) ∧
    (∃ (s : State) (pkt : _), s.path.held.find? (fun h => h.pkt = pkt) = none) ∧
    (∃ (s : State) (d : Fin 2) (b : Fin 64), s.bundleState d b = 0 ∧ (s.bundle d b).nack.isSome = true ∧ (s.bundle d b).resends ≥ max 1
    (s.rd F.CWAY_CFG_REPLAY_LIMIT)) ∧
    (∃ (s : State) (d : Fin 2) (b : Fin 64), s.bundleState d b = 1 ∧ s.now - (s.bundle d b).since ≤ 8000 ∧ (s.bundle d b).swapWait = none) ∧
    (∃ (s : State) (d : Fin 2) (b : Fin 64), s.bundleState d b = 1 ∧ 8000 < s.now - (s.bundle d b).since) ∧
    (∃ (s : State) (d : Fin 2) (b : Fin 64) (w : Fin 64), s.wireReady d b w = true ∧ (s.bundle d b).nack = none ∧ (s.bundle d b).discarding
    = false) ∧
    ∃ (s : State) (d : Fin 2) (b : Fin 64), ((s.bundle d b).swapWire).isSome = true ∧ s.bundleState d b = 2 := by
  refine ⟨⟨{ State.reset with path := { pkts := [(1, { data := [], md := { egressPort := 2, queue := 3, mcastGroup := 0, pg := 0, colour := 0, ecnCap := false, drop := false, dropReason := 0, group := 4095, groupHash := 0, trapReason := 0, trapMode := 0, mirror := 0, atoll := false, session := 0, telFlags := 0, parseFail := 15, badFrame := false, egressMeta := 0, flowKey := 0, hostPtp := none }, inPort := 1023, host := true, ts := 3178630427, tsB := 3178630428, t16 := 3178630427, half := 0, cells := [49153, 81922], acct := .none, refs := 1, ce := false, deep := false, admitted := 3178630427, timeA := 0, bad := false, payOff := 0, back := [], backHalf := 0, moving := 0, own := [] })], held := [{ stream := 1, pkt := 1, queue := 17, cells := 0, here := true }] } },
    1, ?_⟩,
   ⟨mk [(F.CWAY_BUNDLE_STATUS_STATE 0, 3)], 0, 0, ?_⟩,
   ⟨State.reset, 0, 0, ?_⟩,
   ⟨State.reset, 2, ?_⟩,
   ⟨{ mk [(F.CWAY_CFG_REPLAY_LIMIT, 0)] with path := { cway := { bundles := [(0, { next := 5, unacked := [{ seq := 2, body := .desc [(9, 5)] }, { seq := 3, body := .cellWr 0 0 }, { seq := 4, body := .rdq 119 3 0 2 }], resends := 3, wire := [], expect := 2, discarding := true, ack := none, nack := some 2, grants := [1, 2], carry := [], swapWait := none, swapWire := none, since := 0, count := 1 })] } } },
    0, 0, ?_⟩,
   ⟨mk [(F.CWAY_BUNDLE_STATUS_STATE 0, 1)], 0, 0, ?_⟩,
   ⟨mk [(F.LIGHT_TICKS_TICKS, 18000), (F.CWAY_BUNDLE_STATUS_STATE 0, 1)], 0, 0, ?_⟩,
   ⟨State.reset, 0, 0, 0, ?_⟩,
   ⟨{ mk [(F.CWAY_BUNDLE_STATUS_STATE 64, 2)] with path := { cway := { bundles := [(64, { next := 5, unacked := [], resends := 0, wire := [], expect := 2, discarding := false, ack := some 1, nack := some 2, grants := [1, 2], carry := [], swapWait := none, swapWire := some 24, since := 0, count := 1 })] } } },
    1, 0, ?_⟩⟩ <;> decide +kernel

theorem wit_Classification :
    (∃ (s : State) (q : Requester) (i : Fin 16) (d : Fin 2), s.grants q false = true ∧ s.clsBusy (2 * i + d) = true) ∧
    (∃ (s : State) (q : Requester) (i : Fin 16) (d : Fin 2), s.grants q false = true ∧ s.clsBusy (2 * i + d) = false ∧ s.layout (2 * i + d)
    (s.rd (F.CLS_WR_TARGET_TABLE (2 * i + d))) = none) ∧
    (∃ (s : State) (q : Requester) (i : Fin 16) (d : Fin 2), s.grants q false = true ∧ s.clsBusy (2 * i + d) = false ∧ (s.layout (2 * i + d)
    (s.rd (F.CLS_WR_TARGET_TABLE (2 * i + d)))).any (fun l => decide (tblSize l ≤ (s.rd (F.CLS_WR_TARGET_INDEX (2 * i + d))))) = true) ∧
    (∃ (s : State) (q : Requester) (i : Fin 16) (d : Fin 2), s.grants q false = true ∧ s.clsBusy (2 * i + d) = false ∧ (s.layout (2 * i + d)
    (s.rd (F.CLS_WR_TARGET_TABLE (2 * i + d)))).any (fun l => decide ((s.rd (F.CLS_WR_TARGET_INDEX (2 * i + d))) < tblSize l ∧ (s.entry (2 *
    i + d) (s.rd (F.CLS_WR_TARGET_TABLE (2 * i + d))) (s.rd (F.CLS_WR_TARGET_INDEX (2 * i + d)))).valid = false)) = true) ∧
    (∃ (s : State) (q : Requester) (i : Fin 16) (d : Fin 2), s.grants q false = true ∧ s.clsBusy (2 * i + d) = false ∧ (s.layout (2 * i + d)
    (s.rd (F.CLS_WR_TARGET_TABLE (2 * i + d)))).any (fun l => decide ((s.rd (F.CLS_WR_TARGET_INDEX (2 * i + d))) < tblSize l ∧ (s.entry (2 *
    i + d) (s.rd (F.CLS_WR_TARGET_TABLE (2 * i + d))) (s.rd (F.CLS_WR_TARGET_INDEX (2 * i + d)))).valid = true)) = true) ∧
    (∃ (s : State) (q : Requester) (i : Fin 16) (d : Fin 2), s.grants q false = true ∧ s.clsBusy (2 * i + d) = false ∧ (s.layout (2 * i + d)
    (s.rd (F.CLS_WR_TARGET_TABLE (2 * i + d)))).any (fun l => decide ((s.rd (F.CLS_WR_TARGET_INDEX (2 * i + d))) < tblSize l)) = true) ∧
    (∃ (s : State) (i : Fin 16) (q : Requester) (active : Bool), s.grants q false = true ∧ s.on (F.PPE_BANK_ACTIVE i) ≠ active ∧ s.on
    (F.PPE_BANK_SHADOW_OK i) = true ∧ s.on (F.PPE_BANK_LOADING i) = false) ∧
    (∃ (s : State) (i : Fin 16), s.boot.loading.contains i.val = true ∧ (s.stagedPatterns i).isSome = true) ∧
    (∃ (s : State) (i : Fin 16), s.boot.loading.contains i.val = true ∧ (s.boot.staged).isSome = true ∧ (s.stagedPatterns i).isSome = true)
    ∧
    ∃ (s : State) (i : Fin 16) (q : Requester) (active : Bool), s.grants q false = true ∧ s.on (F.PPE_BANK_ACTIVE i) = active := by
  refine ⟨⟨{ mk [(F.BOOT_STATUS_STAGE, 6)] with timers := [(1190, 28819)] }, .pf0, 0, 0, ?_⟩,
   ⟨mk [(F.BOOT_STATUS_STAGE, 6)], .pf0, 1, 0, ?_⟩,
   ⟨{ mk [(F.BOOT_STATUS_STAGE, 6), (F.CLS_WR_TARGET_INDEX 0, 9)] with mat := { tables := [(0, some { num := 0, kind := 3, shared := false, ways := 2, log2 := 1, keyWords := 1, actWords := 2, seeds := [1, 2], counters := false, blocks := 8, role := 0, miss := [] })] } },
    .pf0, 0, 0, ?_⟩,
   ⟨{ mk [(F.BOOT_STATUS_STAGE, 6), (F.CLS_WR_TARGET_TABLE 1, 1)] with mat := { tables := [(3, some { num := 1, kind := 3, shared := false, ways := 1, log2 := 1, keyWords := 2, actWords := 1, seeds := [1, 2], counters := false, blocks := 8, role := 0, miss := [] })] } },
    .pf0, 0, 1, ?_⟩,
   ⟨{ mk [(F.BOOT_STATUS_STAGE, 6), (F.CLS_WR_TARGET_INDEX 2, 1)] with mat := { entries := [(7, { words := [6, 2, 7106023840, 4], valid := true })], tables := [(6, some { num := 0, kind := 1, shared := false, ways := 2, log2 := 1, keyWords := 2, actWords := 0, seeds := [1, 2], counters := false, blocks := 8, role := 0, miss := [] })] } },
    .pf0, 1, 0, ?_⟩,
   ⟨{ mk [(F.BOOT_STATUS_STAGE, 6)] with mat := { tables := [(6, some { num := 0, kind := 1, shared := false, ways := 2, log2 := 1, keyWords := 2, actWords := 0, seeds := [1, 2], counters := false, blocks := 8, role := 0, miss := [] })] } },
    .pf0, 1, 0, ?_⟩,
   ⟨mk [(F.PPE_BANK_SHADOW_OK 0, 1)], 0, .regInit, true, ?_⟩,
   ⟨{ State.reset with boot := { staged := some { bytes := ([0x47#8, 0x59#8, 0x4d#8, 0x4c#8, 0x01#8, 0x00#8, 0x02#8, 0x00#8, 0x09#8, 0x0a#8, 0x00#8, 0x00#8, 0x08#8, 0x00#8, 0x00#8, 0x00#8, 0x05#8, 0x00#8, 0x00#8, 0x00#8, 0x07#8, 0x00#8, 0x00#8, 0x00#8, 0x00#8, 0x10#8, 0x00#8, 0x00#8, 0x02#8] ++ List.replicate 227 0x00#8 ++ [0x06#8] ++ List.replicate 31 0x00#8 ++ [0x06#8, 0x00#8, 0x00#8, 0x01#8] ++ List.replicate 28 0x00#8), bodies := [some (.patterns [] 1), some (.patterns [{ value := [0x01#8], mask := [0x01#8], group := 2, endMin := 0, endMax := 100 }] 1)] }, loading := [0] } },
    0, ?_⟩,
   ⟨{ State.reset with boot := { staged := some { bytes := ([0x47#8, 0x59#8, 0x4d#8, 0x4c#8, 0x01#8, 0x00#8, 0x02#8, 0x00#8, 0x09#8, 0x0a#8, 0x00#8, 0x00#8, 0x08#8, 0x00#8, 0x00#8, 0x00#8, 0x05#8, 0x00#8, 0x00#8, 0x00#8, 0x07#8, 0x00#8, 0x00#8, 0x00#8, 0x00#8, 0x10#8, 0x00#8, 0x00#8, 0x02#8] ++ List.replicate 227 0x00#8 ++ [0x06#8] ++ List.replicate 31 0x00#8 ++ [0x06#8, 0x00#8, 0x00#8, 0x01#8] ++ List.replicate 28 0x00#8), bodies := [some (.patterns [] 1), some (.patterns [{ value := [0x01#8], mask := [0x01#8], group := 2, endMin := 0, endMax := 100 }] 1)] }, loading := [0] } },
    0, ?_⟩,
   ⟨mk [(F.BOOT_STATUS_STAGE, 6)], 0, .pf0, false, ?_⟩⟩ <;> decide +kernel

theorem wit_Classification_2 :
    (∃ (s : State) (i : Fin 16) (q : Requester) (active : Bool), s.grants q false = true ∧ s.on (F.PPE_BANK_ACTIVE i) ≠ active ∧ (s.on
    (F.PPE_BANK_SHADOW_OK i) = false ∨ s.on (F.PPE_BANK_LOADING i) = true)) ∧
    ∃ (s : State) (i : Fin 16), s.boot.loading.contains i.val = false := by
  refine ⟨⟨mk [(F.BOOT_STATUS_STAGE, 6)], 0, .pf0, true, ?_⟩,
   ⟨State.reset, 1, ?_⟩⟩ <;> decide +kernel

theorem wit_Meters :
    (∃ (s : State) (i : Fin 16) (q : Requester), s.grants q false = true ∧ s.now < s.ranAt .mtr i) ∧
    (∃ (s : State) (i : Fin 16) (q : Requester), s.grants q false = true ∧ s.ranAt .mtr i ≤ s.now ∧ ((if s.on (F.MTR_CFG_MODE i) then 262144
    else 65536)) ≤ (s.rd (F.MTR_TARGET_INDEX i))) ∧
    (∃ (s : State) (i : Fin 16) (q : Requester), s.grants q false = true ∧ s.ranAt .mtr i ≤ s.now ∧ (s.rd (F.MTR_TARGET_INDEX i)) < ((if
    s.on (F.MTR_CFG_MODE i) then 262144 else 65536))) ∧
    (∃ (s : State) (i : Fin 16) (r : Fin 64), 1600 ≤ s.now - s.ranAt .trap (64 * i + r)) ∧
    ∃ (s : State) (i : Fin 16) (r : Fin 64), s.now - s.ranAt .trap (64 * i + r) < 1600 := by
  refine ⟨⟨{ mk [(F.BOOT_STATUS_STAGE, 6)] with timers := [(1260, 28819)] }, 0, .pf0, ?_⟩,
   ⟨mk [(F.BOOT_STATUS_STAGE, 6), (F.MTR_TARGET_INDEX 1, 131305)], 1, .pf0, ?_⟩,
   ⟨mk [(F.BOOT_STATUS_STAGE, 6)], 0, .pf0, ?_⟩,
   ⟨mk [(F.LIGHT_TICKS_TICKS, 18000)], 0, 1, ?_⟩,
   ⟨State.reset, 1, 0, ?_⟩⟩ <;> decide +kernel

theorem wit_LagoonLoops :
    (∃ (s : State) (h : Fin 2) (b : Fin 34), s.rd (F.LAG_BANK_STATUS_STATE (34 * h + b)) = 0 ∧ s.reserveBank h = none) ∧
    (∃ (s : State) (h : Fin 2) (b : Fin 34), s.rd (F.LAG_BANK_STATUS_STATE (34 * h + b)) = 0 ∧ (s.reserveBank h).isSome = true) ∧
    (∃ (s : State) (k : Fin 9216), s.ecnAdapts k = true ∧ (s.adaptPeriod) ≤ s.now - s.ranAt .alpha k) ∧
    (∃ (s : State) (k : Fin 9216), s.on (qAdaptF k) = true ∧ (s.adaptPeriod) ≤ s.now - s.ranAt .alpha k) ∧
    (∃ (s : State) (p : Fin 512), s.portState p = 3 ∧ s.pfcDue p ≠ 0) ∧
    (∃ (s : State) (h : Fin 2) (b : Fin 34), s.rd (F.LAG_BANK_STATUS_STATE (34 * h + b)) ≠ 0) ∧
    (∃ (s : State) (k : Fin 9216), ((s.on (qAdaptF k) = false → s.ecnAdapts k = false) ∧ (s.on (qAdaptF k) = true ∨ s.ecnAdapts k = true →
    s.now - s.ranAt .alpha k < (s.adaptPeriod)))) ∧
    ∃ (s : State) (p : Fin 512), (s.portState p ≠ 3 ∨ (∀ g : Fin 8, bit (s.rd (F.MAC_PFC_STATUS_TX_XOFF p)) g = true → s.now - mget (s.px
    p).pfcAt g 0 < s.pfcInterval p)) := by
  refine ⟨⟨mk [(F.LAG_BANK_STATUS_STATE 32, 0), (F.LAG_BANK_STATUS_STATE 33, 0)], 0, 2, ?_⟩,
   ⟨State.reset, 0, 0, ?_⟩,
   ⟨mk [(F.LIGHT_TICKS_TICKS, 18000), (F.LAG_Q_ECN_ADAPT 2, 1)], 2, ?_⟩,
   ⟨mk [(F.LIGHT_TICKS_TICKS, 18000), (F.LAG_Q_CFG_ADAPT 1, 1)], 1, ?_⟩,
   ⟨mk [(F.LIGHT_TICKS_TICKS, 18000), (F.PORT_STATUS_STATE 1, 3), (F.MAC_PFC_STATUS_TX_XOFF 1, 1)], 1, ?_⟩,
   ⟨mk [(F.LAG_BANK_STATUS_STATE 3, 3)], 0, 3, ?_⟩,
   ⟨State.reset, 0, ?_⟩,
   ⟨State.reset, 1, ?_⟩⟩ <;> decide +kernel

theorem wit_DeepPages :
    (∃ (s : State) (q : Fin 8192) (seq : Fin 65536), ((s.deepQ q).pages.find? (fun g => g.stage = 1 && g.seq = seq.val && s.pageHere q
    g)).isSome = true) ∧
    (∃ (s : State) (q : Fin 8192), s.on (F.BPM_DEEP_Q_STATUS_DEEP q) = true ∧ (s.deepQ q).pages.all (fun g => g.stage ≥ 4) = true ∧ (s.deepQ
    q).waiting = [] ∧ (s.deepQ q).part = none ∧ (s.deepQ q).blocks = []) ∧
    (∃ (s : State) (q : Fin 8192), max 1 ((s.deepTidy q).rd (F.BPM_DEEP_Q_CFG_DRAIN_AHEAD q)) ≤ (((s.deepTidy q).deepQ q).pages.filter (fun
    g => g.stage ≥ 3)).length) ∧
    (∃ (s : State) (q : Fin 8192), (((s.deepTidy q).deepQ q).pages.filter (fun g => g.stage ≥ 3)).length < max 1 ((s.deepTidy q).rd
    (F.BPM_DEEP_Q_CFG_DRAIN_AHEAD q)) ∧ ((s.deepTidy q).deepQ q).pages.find? (fun g => g.stage = 1 || g.stage = 2) = none) ∧
    (∃ (s : State) (q : Fin 8192), (((s.deepTidy q).deepQ q).pages.filter (fun g => g.stage ≥ 3)).length < max 1 ((s.deepTidy q).rd
    (F.BPM_DEEP_Q_CFG_DRAIN_AHEAD q)) ∧ (((s.deepTidy q).deepQ q).pages.find? (fun g => g.stage = 1 || g.stage = 2)).any (fun g => decide
    (g.stage = 1)) = true) ∧
    (∃ (s : State) (q : Fin 8192), (((s.deepTidy q).deepQ q).pages.filter (fun g => g.stage ≥ 3)).length < max 1 ((s.deepTidy q).rd
    (F.BPM_DEEP_Q_CFG_DRAIN_AHEAD q)) ∧ (((s.deepTidy q).deepQ q).pages.find? (fun g => g.stage = 1 || g.stage = 2)).any (fun g => decide
    (g.stage = 2)) = true) ∧
    (∃ (s : State) (q : Fin 8192), (s.deepQ q).blocks ≠ []) ∧
    (∃ (s : State) (q : Fin 8192) (seq : Fin 65536) (err : Fin 3), ((s.deepQ q).pages.find? (fun g => g.stage = 3 && g.seq = seq.val)).any
    (fun g => decide (err.val < 2 ∧ ((s.deepQ q).pages.filter (fun g => g.stage = 3 && g.seq = seq.val)).length = 1)) = true) ∧
    (∃ (s : State) (q : Fin 8192) (seq : Fin 65536), ((s.deepQ q).pages.find? (fun g => g.stage = 3 && g.seq = seq.val)).isSome = true) ∧
    ∃ (s : State) (q : Fin 8192) (seq : Fin 65536), (s.deepQ q).pages.find? (fun g => g.stage = 1 && g.seq = seq.val && s.pageHere q g) =
    none := by
  refine ⟨⟨{ State.reset with bpm := { deep := [(2, { pages := [{ handle := 137438953473, seq := 0, parts := [(0, 1)], begins := [0], start := 0, place := none, prev := none, stage := 5, since := 0 }, { handle := 137438953474, seq := 1, parts := [(1, 1)], begins := [1], start := 0, place := none, prev := none, stage := 0, since := 0 }, { handle := 1236950581250, seq := 2, parts := [(2, 1)], begins := [2], start := 0, place := none, prev := none, stage := 1, since := 0 }], seq := 4, entries := 0, blocks := [], waiting := [], part := none, owed := [] })] } },
    2, 2, ?_⟩,
   ⟨mk [(F.BPM_DEEP_Q_STATUS_DEEP 2, 1)], 2, ?_⟩,
   ⟨{ mk [(F.BPM_DEEP_Q_CFG_DRAIN_AHEAD 0, 0)] with path := { pkts := [(0, { data := [], md := { egressPort := 2, queue := 1, mcastGroup := 0, pg := 0, colour := 0, ecnCap := false, drop := false, dropReason := 0, group := 4095, groupHash := 0, trapReason := 0, trapMode := 0, mirror := 0, atoll := false, session := 0, telFlags := 0, parseFail := 15, badFrame := false, egressMeta := 0, flowKey := 0, hostPtp := none }, inPort := 1023, host := true, ts := 6222966749, tsB := 6222966750, t16 := 6222966749, half := 0, cells := [16385, 81922], acct := .none, refs := 1, ce := false, deep := false, admitted := 6222966749, timeA := 0, bad := false, payOff := 0, back := [], backHalf := 0, moving := 0, own := [] })] }, bpm := { deep := [(0, { pages := [{ handle := 1236950581250, seq := 0, parts := [(0, 1)], begins := [0], start := 0, place := none, prev := none, stage := 5, since := 0 }], seq := 4, entries := 4, blocks := [], waiting := [], part := none, owed := [] })] } },
    0, ?_⟩,
   ⟨State.reset, 2, ?_⟩,
   ⟨{ State.reset with bpm := { deep := [(2, { pages := [{ handle := 137438953473, seq := 0, parts := [(0, 1)], begins := [0], start := 0, place := none, prev := none, stage := 5, since := 0 }, { handle := 137438953474, seq := 1, parts := [(1, 1)], begins := [1], start := 0, place := none, prev := none, stage := 0, since := 0 }, { handle := 1236950581250, seq := 2, parts := [(2, 1)], begins := [2], start := 0, place := none, prev := none, stage := 1, since := 0 }], seq := 4, entries := 0, blocks := [], waiting := [], part := none, owed := [] })] } },
    2, ?_⟩,
   ⟨{ State.reset with bpm := { deep := [(1, { pages := [{ handle := 137438953472, seq := 0, parts := [], begins := [], start := 0, place := none, prev := none, stage := 2, since := 0 }, { handle := 1236950581248, seq := 1, parts := [], begins := [], start := 0, place := none, prev := none, stage := 3, since := 0 }], seq := 4, entries := 1, blocks := [], waiting := [], part := none, owed := [] })] } },
    1, ?_⟩,
   ⟨{ State.reset with bpm := { deep := [(1, { pages := [{ handle := 1236950581249, seq := 0, parts := [(0, 1)], begins := [0], start := 0, place := none, prev := none, stage := 2, since := 0 }], seq := 4, entries := 1, blocks := [(1, 17179869185)], waiting := [], part := none, owed := [] })] } },
    1, ?_⟩,
   ⟨{ State.reset with bpm := { deep := [(0, { pages := [{ handle := 137438953472, seq := 0, parts := [], begins := [], start := 0, place := none, prev := none, stage := 2, since := 0 }, { handle := 1236950581248, seq := 1, parts := [], begins := [], start := 0, place := none, prev := none, stage := 3, since := 0 }, { handle := 1236950581248, seq := 2, parts := [], begins := [], start := 0, place := none, prev := none, stage := 3, since := 0 }], seq := 4, entries := 1, blocks := [], waiting := [], part := none, owed := [] })] } },
    0, 1, 0, ?_⟩,
   ⟨{ State.reset with bpm := { deep := [(0, { pages := [{ handle := 137438953474, seq := 0, parts := [(0, 1)], begins := [0], start := 0, place := none, prev := none, stage := 2, since := 0 }, { handle := 1236950581250, seq := 1, parts := [(1, 1)], begins := [1], start := 0, place := none, prev := none, stage := 3, since := 0 }, { handle := 137438953473, seq := 2, parts := [(2, 1)], begins := [2], start := 0, place := none, prev := none, stage := 3, since := 0 }], seq := 4, entries := 4, blocks := [], waiting := [5], part := none, owed := [] })] } },
    0, 2, ?_⟩,
   ⟨State.reset, 2, 2, ?_⟩⟩ <;> decide +kernel

theorem wit_DeepPages_2 :
    (∃ (s : State) (q : Fin 8192), (s.on (F.BPM_DEEP_Q_STATUS_DEEP q) = false ∨ (s.deepQ q).pages.any (fun g => g.stage < 4) = true ∨
    (s.deepQ q).waiting ≠ [] ∨ (s.deepQ q).part ≠ none)) ∧
    (∃ (s : State) (q : Fin 8192), (s.deepQ q).blocks = []) ∧
    ∃ (s : State) (q : Fin 8192) (seq : Fin 65536), (s.deepQ q).pages.find? (fun g => g.stage = 3 && g.seq = seq.val) = none := by
  refine ⟨⟨State.reset, 1, ?_⟩,
   ⟨State.reset, 2, ?_⟩,
   ⟨State.reset, 2, 1, ?_⟩⟩ <;> decide +kernel

theorem wit_BufferPools :
    (∃ (s : State) (a : Fin 256) (domain : Fin 64), agentKnown a = true ∧ bit (s.rd (F.BPM_AGENT_DOMAIN_MASK a)) domain = false) ∧
    (∃ (s : State) (a : Fin 256) (pool : Fin 4) (domain : Fin 64), agentKnown a = true ∧ bit (s.rd (F.BPM_AGENT_DOMAIN_MASK a)) domain =
    true ∧ s.servingPool (classOf a) pool = none) ∧
    (∃ (s : State) (a : Fin 256) (pool : Fin 4) (domain : Fin 64), agentKnown a = true ∧ bit (s.rd (F.BPM_AGENT_DOMAIN_MASK a)) domain =
    true ∧ (s.servingPool (classOf a) pool).any (fun j => decide ((s.takeHandle a j none).isSome = true ∧ (a.val ≠ 1 ∧ a.val ≠ 2 ∨ pool.val
    ≠ 1 ∨ (s.bpm.deep.all (fun e => e.2.waiting.isEmpty && e.2.part.isNone)) = true))) = true) ∧
    (∃ (s : State) (a : Fin 256) (h : BitVec 48) (n : BitVec 8), agentKnown a = true ∧ s.refReject a h.toNat n.toNat = none) ∧
    (∃ (s : State) (a : Fin 256) (h : BitVec 48) (n : BitVec 8), agentKnown a = true ∧ (s.refReject a h.toNat n.toNat).isSome = true) ∧
    (∃ (s : State) (a : Fin 256) (h : BitVec 48), agentKnown a = true ∧ s.refReject a h.toNat 0 = none ∧ (s.bpm.deep.all (fun e =>
    e.2.waiting.isEmpty && e.2.part.isNone)) = true ∧ 1 < (s.bufEnt h.toNat).count) ∧
    (∃ (s : State) (a : Fin 256) (h : BitVec 48), agentKnown a = true ∧ s.refReject a h.toNat 0 = none ∧ (s.bpm.deep.all (fun e =>
    e.2.waiting.isEmpty && e.2.part.isNone)) = true ∧ (s.bufEnt h.toNat).count = 1) ∧
    (∃ (a : Fin 256), agentKnown a = true) ∧
    (∃ (s : State) (d : Fin 2) (k : Fin 4) (part : Fin 2), (s.cacheOf d k part).length < 128) ∧
    ∃ (s : State) (d : Fin 2) (k : Fin 4) (part : Fin 2), 448 < (s.cacheOf d k part).length := by
  refine ⟨⟨State.reset, 16, 1, ?_⟩,
   ⟨mk [(F.BPM_AGENT_DOMAIN_MASK 1, 2)], 1, 3, 1, ?_⟩,
   ⟨{ mk [(F.BPM_POOL_FREE_FREE 17, 90), (F.BPM_AGENT_DOMAIN_MASK 2, 18446744073709551615)] with bpm := { cache := [(10, [137438953472, 137438953473, 137438953474])] } },
    2, 1, 0, ?_⟩,
   ⟨{ mk [(F.BPM_AGENT_DOMAIN_MASK 2, 17047638540637984485)] with bpm := { size := [(1, 6)], ents := [(137438953472, { count := 1, owner := 64, domain := 0, gen := 1, retire := false })] } },
    2, 0x012000000000#48, 0x05#8, ?_⟩,
   ⟨State.reset, 2, 0x002000000000#48, 0x05#8, ?_⟩,
   ⟨{ mk [(F.BPM_AGENT_DOMAIN_MASK 1, 1)] with bpm := { size := [(1, 6)], ents := [(137438953472, { count := 2, owner := 64, domain := 0, gen := 0, retire := false })] } },
    1, 0x002000000000#48, ?_⟩,
   ⟨{ mk [(F.BPM_AGENT_DOMAIN_MASK 2, 17047638540637984485)] with bpm := { size := [(1, 6)], ents := [(137438953472, { count := 1, owner := 64, domain := 0, gen := 1, retire := false })] } },
    2, 0x012000000000#48, ?_⟩,
   ⟨2, ?_⟩,
   ⟨State.reset, 1, 2, 0, ?_⟩,
   ⟨{ State.reset with bpm := { cache := [(15, [137438953472, 137438953473, 137438953474, 137438953475, 137438953476, 137438953477, 137438953478, 137438953479, 137438953480, 137438953481, 137438953482, 137438953483, 137438953484, 137438953485, 137438953486, 137438953487, 137438953488, 137438953489, 137438953490, 137438953491, 137438953492, 137438953493, 137438953494, 137438953495, 137438953496, 137438953497, 137438953498, 137438953499, 137438953500, 137438953501, 137438953502, 137438953503, 137438953504, 137438953505, 137438953506, 137438953507, 137438953508, 137438953509, 137438953510, 137438953511, 137438953512, 137438953513, 137438953514, 137438953515, 137438953516, 137438953517, 137438953518, 137438953519, 137438953520, 137438953521, 137438953522, 137438953523, 137438953524, 137438953525, 137438953526, 137438953527, 137438953528, 137438953529, 137438953530, 137438953531, 137438953532, 137438953533, 137438953534, 137438953535, 137438953536, 137438953537, 137438953538, 137438953539, 137438953540, 137438953541, 137438953542, 137438953543, 137438953544, 137438953545, 137438953546, 137438953547, 137438953548, 137438953549, 137438953550, 137438953551, 137438953552, 137438953553, 137438953554, 137438953555, 137438953556, 137438953557, 137438953558, 137438953559, 137438953560, 137438953561, 137438953562, 137438953563, 137438953564, 137438953565, 137438953566, 137438953567, 137438953568, 137438953569, 137438953570, 137438953571, 137438953572, 137438953573, 137438953574, 137438953575, 137438953576, 137438953577, 137438953578, 137438953579, 137438953580, 137438953581, 137438953582, 137438953583, 137438953584, 137438953585, 137438953586, 137438953587, 137438953588, 137438953589, 137438953590, 137438953591, 137438953592, 137438953593, 137438953594, 137438953595, 137438953596, 137438953597, 137438953598, 137438953599, 137438953600, 137438953601, 137438953602, 137438953603, 137438953604, 137438953605, 137438953606, 137438953607, 137438953608, 137438953609, 137438953610, 137438953611, 137438953612, 137438953613, 137438953614, 137438953615, 137438953616, 137438953617, 137438953618, 137438953619, 137438953620, 137438953621, 137438953622, 137438953623, 137438953624, 137438953625, 137438953626, 137438953627, 137438953628, 137438953629, 137438953630, 137438953631, 137438953632, 137438953633, 137438953634, 137438953635, 137438953636, 137438953637, 137438953638, 137438953639, 137438953640, 137438953641, 137438953642, 137438953643, 137438953644, 137438953645, 137438953646, 137438953647, 137438953648, 137438953649, 137438953650, 137438953651, 137438953652, 137438953653, 137438953654, 137438953655, 137438953656, 137438953657, 137438953658, 137438953659, 137438953660, 137438953661, 137438953662, 137438953663, 137438953664, 137438953665, 137438953666, 137438953667, 137438953668, 137438953669, 137438953670, 137438953671, 137438953672, 137438953673, 137438953674, 137438953675, 137438953676, 137438953677, 137438953678, 137438953679, 137438953680, 137438953681, 137438953682, 137438953683, 137438953684, 137438953685, 137438953686, 137438953687, 137438953688, 137438953689, 137438953690, 137438953691, 137438953692, 137438953693, 137438953694, 137438953695, 137438953696, 137438953697, 137438953698, 137438953699, 137438953700, 137438953701, 137438953702, 137438953703, 137438953704, 137438953705, 137438953706, 137438953707, 137438953708, 137438953709, 137438953710, 137438953711, 137438953712, 137438953713, 137438953714, 137438953715, 137438953716, 137438953717, 137438953718, 137438953719, 137438953720, 137438953721, 137438953722, 137438953723, 137438953724, 137438953725, 137438953726, 137438953727, 137438953728, 137438953729, 137438953730, 137438953731, 137438953732, 137438953733, 137438953734, 137438953735, 137438953736, 137438953737, 137438953738, 137438953739, 137438953740, 137438953741, 137438953742, 137438953743, 137438953744, 137438953745, 137438953746, 137438953747, 137438953748, 137438953749, 137438953750, 137438953751, 137438953752, 137438953753, 137438953754, 137438953755, 137438953756, 137438953757, 137438953758, 137438953759, 137438953760, 137438953761, 137438953762, 137438953763, 137438953764, 137438953765, 137438953766, 137438953767, 137438953768, 137438953769, 137438953770, 137438953771, 137438953772, 137438953773, 137438953774, 137438953775, 137438953776, 137438953777, 137438953778, 137438953779, 137438953780, 137438953781, 137438953782, 137438953783, 137438953784, 137438953785, 137438953786, 137438953787, 137438953788, 137438953789, 137438953790, 137438953791, 137438953792, 137438953793, 137438953794, 137438953795, 137438953796, 137438953797, 137438953798, 137438953799, 137438953800, 137438953801, 137438953802, 137438953803, 137438953804, 137438953805, 137438953806, 137438953807, 137438953808, 137438953809, 137438953810, 137438953811, 137438953812, 137438953813, 137438953814, 137438953815, 137438953816, 137438953817, 137438953818, 137438953819, 137438953820, 137438953821, 137438953822, 137438953823, 137438953824, 137438953825, 137438953826, 137438953827, 137438953828, 137438953829, 137438953830, 137438953831, 137438953832, 137438953833, 137438953834, 137438953835, 137438953836, 137438953837, 137438953838, 137438953839, 137438953840, 137438953841, 137438953842, 137438953843, 137438953844, 137438953845, 137438953846, 137438953847, 137438953848, 137438953849, 137438953850, 137438953851, 137438953852, 137438953853, 137438953854, 137438953855, 137438953856, 137438953857, 137438953858, 137438953859, 137438953860, 137438953861, 137438953862, 137438953863, 137438953864, 137438953865, 137438953866, 137438953867, 137438953868, 137438953869, 137438953870, 137438953871, 137438953872, 137438953873, 137438953874, 137438953875, 137438953876, 137438953877, 137438953878, 137438953879, 137438953880, 137438953881, 137438953882, 137438953883, 137438953884, 137438953885, 137438953886, 137438953887, 137438953888, 137438953889, 137438953890, 137438953891, 137438953892, 137438953893, 137438953894, 137438953895, 137438953896, 137438953897, 137438953898, 137438953899, 137438953900, 137438953901, 137438953902, 137438953903, 137438953904, 137438953905, 137438953906, 137438953907, 137438953908, 137438953909, 137438953910, 137438953911, 137438953912, 137438953913, 137438953914, 137438953915, 137438953916, 137438953917, 137438953918, 137438953919, 137438953920, 137438953921, 137438953922, 137438953923, 137438953924, 137438953925, 137438953926, 137438953927, 137438953928, 137438953929, 137438953930, 137438953931])] } },
    1, 3, 1, ?_⟩⟩ <;> decide +kernel

theorem wit_BufferPools_2 :
    (∃ (a : Fin 256), agentKnown a = false) ∧
    ∃ (s : State) (d : Fin 2) (k : Fin 4) (part : Fin 2), (s.cacheOf d k part).length ≤ 448 := by
  refine ⟨⟨0, ?_⟩,
   ⟨State.reset, 1, 2, 0, ?_⟩⟩ <;> decide +kernel

theorem wit_TrafficManager :
    (∃ (s : State) (a : Fin 64) (faults : List MemFault), (s.memoryFatal (a / 32) a faults).stopped = true) ∧
    (∃ (s : State) (a : Fin 64) (faults : List MemFault), (s.memoryFatal (a / 32) a faults).stopped = false ∧ (((((((s.memoryFatal (a / 32)
    a faults).portChildren a).foldl (fun s c => (portQueues c.ix).foldl (fun s k => s.dropTooLong c.ix k (s.queue k).length) s)
    (s.memoryFatal (a / 32) a faults)).servePipe (a / 4) 1 (a % 4) (((s.memoryFatal (a / 32) a faults).portChildren a).foldl (fun s c =>
    (portQueues c.ix).foldl (fun s k => s.dropTooLong c.ix k (s.queue k).length) s) (s.memoryFatal (a / 32) a faults)).now).map (fun xx =>
    (((s.memoryFatal (a / 32) a faults).portChildren a).foldl (fun s c => (portQueues c.ix).foldl (fun s k => s.dropTooLong c.ix k (s.queue
    k).length) s) (s.memoryFatal (a / 32) a faults)).egressSlot (a / 4) xx)).getD (true, (((s.memoryFatal (a / 32) a faults).portChildren
    a).foldl (fun s c => (portQueues c.ix).foldl (fun s k => s.dropTooLong c.ix k (s.queue k).length) s) (s.memoryFatal (a / 32) a
    faults)))).1 = false ∨ ((((((s.memoryFatal (a / 32) a faults).portChildren a).foldl (fun s c => (portQueues c.ix).foldl (fun s k =>
    s.dropTooLong c.ix k (s.queue k).length) s) (s.memoryFatal (a / 32) a faults)).servePipe (a / 4) 1 (a % 4) (((s.memoryFatal (a / 32) a
    faults).portChildren a).foldl (fun s c => (portQueues c.ix).foldl (fun s k => s.dropTooLong c.ix k (s.queue k).length) s) (s.memoryFatal
    (a / 32) a faults)).now).map (fun xx => (((s.memoryFatal (a / 32) a faults).portChildren a).foldl (fun s c => (portQueues c.ix).foldl
    (fun s k => s.dropTooLong c.ix k (s.queue k).length) s) (s.memoryFatal (a / 32) a faults)).egressSlot (a / 4) xx)).getD (true,
    (((s.memoryFatal (a / 32) a faults).portChildren a).foldl (fun s c => (portQueues c.ix).foldl (fun s k => s.dropTooLong c.ix k (s.queue
    k).length) s) (s.memoryFatal (a / 32) a faults)))).2.decide a = none)) ∧
    (∃ (s : State) (a : Fin 64) (faults : List MemFault), (s.memoryFatal (a / 32) a faults).stopped = false ∧ ((((((s.memoryFatal (a / 32) a
    faults).portChildren a).foldl (fun s c => (portQueues c.ix).foldl (fun s k => s.dropTooLong c.ix k (s.queue k).length) s) (s.memoryFatal
    (a / 32) a faults)).servePipe (a / 4) 1 (a % 4) (((s.memoryFatal (a / 32) a faults).portChildren a).foldl (fun s c => (portQueues
    c.ix).foldl (fun s k => s.dropTooLong c.ix k (s.queue k).length) s) (s.memoryFatal (a / 32) a faults)).now).map (fun xx =>
    (((s.memoryFatal (a / 32) a faults).portChildren a).foldl (fun s c => (portQueues c.ix).foldl (fun s k => s.dropTooLong c.ix k (s.queue
    k).length) s) (s.memoryFatal (a / 32) a faults)).egressSlot (a / 4) xx)).getD (true, (((s.memoryFatal (a / 32) a faults).portChildren
    a).foldl (fun s c => (portQueues c.ix).foldl (fun s k => s.dropTooLong c.ix k (s.queue k).length) s) (s.memoryFatal (a / 32) a
    faults)))).1 = true ∧ (((((((s.memoryFatal (a / 32) a faults).portChildren a).foldl (fun s c => (portQueues c.ix).foldl (fun s k =>
    s.dropTooLong c.ix k (s.queue k).length) s) (s.memoryFatal (a / 32) a faults)).servePipe (a / 4) 1 (a % 4) (((s.memoryFatal (a / 32) a
    faults).portChildren a).foldl (fun s c => (portQueues c.ix).foldl (fun s k => s.dropTooLong c.ix k (s.queue k).length) s) (s.memoryFatal
    (a / 32) a faults)).now).map (fun xx => (((s.memoryFatal (a / 32) a faults).portChildren a).foldl (fun s c => (portQueues c.ix).foldl
    (fun s k => s.dropTooLong c.ix k (s.queue k).length) s) (s.memoryFatal (a / 32) a faults)).egressSlot (a / 4) xx)).getD (true,
    (((s.memoryFatal (a / 32) a faults).portChildren a).foldl (fun s c => (portQueues c.ix).foldl (fun s k => s.dropTooLong c.ix k (s.queue
    k).length) s) (s.memoryFatal (a / 32) a faults)))).2.decide a).isSome = true) ∧
    (∃ (s : State) (a : Fin 64) (errs : List (Nat × Bool)) (faults : List MemFault), (s.memoryFatal (a / 32) a faults).stopped = false ∧
    ((((((s.memoryFatal (a / 32) a faults).portChildren a).foldl (fun s c => (portQueues c.ix).foldl (fun s k => s.dropTooLong c.ix k
    (s.queue k).length) s) (s.memoryFatal (a / 32) a faults)).servePipe (a / 4) 1 (a % 4) (((s.memoryFatal (a / 32) a faults).portChildren
    a).foldl (fun s c => (portQueues c.ix).foldl (fun s k => s.dropTooLong c.ix k (s.queue k).length) s) (s.memoryFatal (a / 32) a
    faults)).now).map (fun xx => (((s.memoryFatal (a / 32) a faults).portChildren a).foldl (fun s c => (portQueues c.ix).foldl (fun s k =>
    s.dropTooLong c.ix k (s.queue k).length) s) (s.memoryFatal (a / 32) a faults)).egressSlot (a / 4) xx)).getD (true, (((s.memoryFatal (a /
    32) a faults).portChildren a).foldl (fun s c => (portQueues c.ix).foldl (fun s k => s.dropTooLong c.ix k (s.queue k).length) s)
    (s.memoryFatal (a / 32) a faults)))).1 = true ∧ (((((((s.memoryFatal (a / 32) a faults).portChildren a).foldl (fun s c => (portQueues
    c.ix).foldl (fun s k => s.dropTooLong c.ix k (s.queue k).length) s) (s.memoryFatal (a / 32) a faults)).servePipe (a / 4) 1 (a % 4)
    (((s.memoryFatal (a / 32) a faults).portChildren a).foldl (fun s c => (portQueues c.ix).foldl (fun s k => s.dropTooLong c.ix k (s.queue
    k).length) s) (s.memoryFatal (a / 32) a faults)).now).map (fun xx => (((s.memoryFatal (a / 32) a faults).portChildren a).foldl (fun s c
    => (portQueues c.ix).foldl (fun s k => s.dropTooLong c.ix k (s.queue k).length) s) (s.memoryFatal (a / 32) a faults)).egressSlot (a / 4)
    xx)).getD (true, (((s.memoryFatal (a / 32) a faults).portChildren a).foldl (fun s c => (portQueues c.ix).foldl (fun s k => s.dropTooLong
    c.ix k (s.queue k).length) s) (s.memoryFatal (a / 32) a faults)))).2.decide a).any (fun c => decide ((((((((s.memoryFatal (a / 32) a
    faults).portChildren a).foldl (fun s c => (portQueues c.ix).foldl (fun s k => s.dropTooLong c.ix k (s.queue k).length) s) (s.memoryFatal
    (a / 32) a faults)).servePipe (a / 4) 1 (a % 4) (((s.memoryFatal (a / 32) a faults).portChildren a).foldl (fun s c => (portQueues
    c.ix).foldl (fun s k => s.dropTooLong c.ix k (s.queue k).length) s) (s.memoryFatal (a / 32) a faults)).now).map (fun xx =>
    (((s.memoryFatal (a / 32) a faults).portChildren a).foldl (fun s c => (portQueues c.ix).foldl (fun s k => s.dropTooLong c.ix k (s.queue
    k).length) s) (s.memoryFatal (a / 32) a faults)).egressSlot (a / 4) xx)).getD (true, (((s.memoryFatal (a / 32) a faults).portChildren
    a).foldl (fun s c => (portQueues c.ix).foldl (fun s k => s.dropTooLong c.ix k (s.queue k).length) s) (s.memoryFatal (a / 32) a
    faults)))).2.headPkt c.queue.ix).any (fun pr => decide ((pr.2).bad = false ∧ errs = [] ∧ s.on F.DBG_CTL_ARM = false ∧ ((((s.memoryFatal
    (a / 32) a faults).portChildren a).foldl (fun s c => (portQueues c.ix).foldl (fun s k => s.dropTooLong c.ix k (s.queue k).length) s)
    (s.memoryFatal (a / 32) a faults)).servePipe (a / 4) 1 (a % 4) (((s.memoryFatal (a / 32) a faults).portChildren a).foldl (fun s c =>
    (portQueues c.ix).foldl (fun s k => s.dropTooLong c.ix k (s.queue k).length) s) (s.memoryFatal (a / 32) a faults)).now).any (fun y =>
    decide ((((((((s.memoryFatal (a / 32) a faults).portChildren a).foldl (fun s c => (portQueues c.ix).foldl (fun s k => s.dropTooLong c.ix
    k (s.queue k).length) s) (s.memoryFatal (a / 32) a faults)).servePipe (a / 4) 1 (a % 4) (((s.memoryFatal (a / 32) a faults).portChildren
    a).foldl (fun s c => (portQueues c.ix).foldl (fun s k => s.dropTooLong c.ix k (s.queue k).length) s) (s.memoryFatal (a / 32) a
    faults)).now).map (fun xx => (((s.memoryFatal (a / 32) a faults).portChildren a).foldl (fun s c => (portQueues c.ix).foldl (fun s k =>
    s.dropTooLong c.ix k (s.queue k).length) s) (s.memoryFatal (a / 32) a faults)).egressSlot (a / 4) xx)).getD (true, (((s.memoryFatal (a /
    32) a faults).portChildren a).foldl (fun s c => (portQueues c.ix).foldl (fun s k => s.dropTooLong c.ix k (s.queue k).length) s)
    (s.memoryFatal (a / 32) a faults)))).2.parse (10 * (a.val / 4) + y) ((pr.2).frame c.queue.ix)).1.fail = none)) = true)) = true)) = true)
    ∧
    (∃ (s : State) (n : Fin 23553), 128 ≤ s.now - s.ranAt .shaper n) ∧
    (∃ (s : State) (k : Fin 9216), 1600 ≤ s.now - s.ranAt .sample k ∧ s.on F.TM_HIST_CFG_EN = false) ∧
    (∃ (s : State) (k : Fin 9216), 1600 ≤ s.now - s.ranAt .sample k ∧ s.on F.TM_HIST_CFG_EN = true ∧ (List.range 64).all (fun e => !s.on
    (F.TEL_QS_SEL_VALID e)) = true) ∧
    (∃ (s : State) (n : Fin 23553), s.now - s.ranAt .shaper n < 128) ∧
    (∃ (s : State) (k : Fin 9216), s.now - s.ranAt .sample k < 1600) ∧
    ∃ (s : State) (p : Fin 512) (q : Requester), s.grants q false = true ∧ s.on (F.TM_GATE_STATUS_PENDING p) = true := by
  refine ⟨⟨State.reset, 0, [.sched], ?_⟩,
   ⟨State.reset, 2, [], ?_⟩,
   ⟨{ mk [(F.PORT_STATUS_STATE 1, 3)] with path := { pkts := [(3, { data := [], md := { egressPort := 1, queue := 3, mcastGroup := 0, pg := 0, colour := 0, ecnCap := false, drop := false, dropReason := 0, group := 4095, groupHash := 0, trapReason := 0, trapMode := 0, mirror := 0, atoll := false, session := 0, telFlags := 0, parseFail := 15, badFrame := false, egressMeta := 0, flowKey := 0, hostPtp := none }, inPort := 1023, host := true, ts := 1555741687, tsB := 1555741688, t16 := 1555741687, half := 0, cells := [49153, 81922], acct := .none, refs := 1, ce := false, deep := false, admitted := 1555741687, timeA := 0, bad := false, payOff := 0, back := [], backHalf := 0, moving := 0, own := [] })], queues := [(17, [{ pkt := 3, depth := 0 }])] } },
    0, [], ?_⟩,
   ⟨{ mk [(F.PORT_STATUS_STATE 1, 3)] with path := { pkts := [(3, { data := [], md := { egressPort := 1, queue := 0, mcastGroup := 0, pg := 0, colour := 0, ecnCap := false, drop := false, dropReason := 0, group := 4095, groupHash := 0, trapReason := 0, trapMode := 0, mirror := 0, atoll := false, session := 0, telFlags := 0, parseFail := 15, badFrame := false, egressMeta := 0, flowKey := 0, hostPtp := none }, inPort := 0, host := false, ts := 250372204, tsB := 250372205, t16 := 250372204, half := 0, cells := [1, 81922], acct := .none, refs := 1, ce := false, deep := false, admitted := 250372204, timeA := 0, bad := false, payOff := 0, back := [], backHalf := 0, moving := 0, own := [] })], queues := [(17, [{ pkt := 3, depth := 0 }])] } },
    0, [], [], ?_⟩,
   ⟨mk [(F.LIGHT_TICKS_TICKS, 27000)], 23552, ?_⟩,
   ⟨mk [(F.LIGHT_TICKS_TICKS, 27000), (F.TM_HIST_CFG_EN, 0)], 1, ?_⟩,
   ⟨mk [(F.LIGHT_TICKS_TICKS, 9000)], 8192, ?_⟩,
   ⟨State.reset, 23552, ?_⟩,
   ⟨State.reset, 0, ?_⟩,
   ⟨mk [(F.BOOT_STATUS_STAGE, 6), (F.TM_GATE_STATUS_PENDING 0, 1)], 0, .pf0, ?_⟩⟩ <;> decide +kernel

theorem wit_TrafficManager_2 :
    (∃ (s : State) (p : Fin 512) (q : Requester), s.grants q false = true ∧ s.on (F.TM_GATE_STATUS_PENDING p) = false ∧ s.gateCheck p ≠ 0) ∧
    (∃ (s : State) (p : Fin 512) (q : Requester), s.grants q false = true ∧ s.on (F.TM_GATE_STATUS_PENDING p) = false ∧ s.gateCheck p = 0) ∧
    (∃ (s : State) (p : Fin 512), (mget s.tm.gateNext p none).any (fun start => decide (start ≤ s.nowNs)) = true) ∧
    (∃ (s : State) (p : Fin 512) (q : Requester), s.grants q false = true ∧ s.on (F.TM_GATE_STATUS_PENDING p) = false) ∧
    (∃ (s : State) (p : Fin 512), mget s.tm.gateNext p none = none) ∧
    ∃ (s : State) (p : Fin 512), (mget s.tm.gateNext p none).any (fun start => decide (s.nowNs < start)) = true := by
  refine ⟨⟨mk [(F.BOOT_STATUS_STAGE, 6)], 2, .pf0, ?_⟩,
   ⟨mk [(F.BOOT_STATUS_STAGE, 6), (F.TM_GATE_ADMIN_CYCLE_CYCLE 0, 2601), (F.TM_GATE_ADMIN_LEN_LEN 0, 3), (F.TM_GATE_ENTRY_INTERVAL 256,
    1124), (F.TM_GATE_ENTRY_INTERVAL 257, 1128), (F.TM_GATE_ENTRY_INTERVAL 258, 1132)], 0, .pf0, ?_⟩,
   ⟨{ State.reset with domA := { ns := 888995249 }, tm := { gateNext := [(1, some 5)] } }, 1, ?_⟩,
   ⟨mk [(F.BOOT_STATUS_STAGE, 6)], 2, .pf0, ?_⟩,
   ⟨State.reset, 2, ?_⟩,
   ⟨{ State.reset with tm := { gateNext := [(0, some 1000000000)] } }, 0, ?_⟩⟩ <;> decide +kernel

theorem wit_HbmController :
    (∃ (s : State) (st : Fin 6) (off : Nat) (len : Nat), 0 < len ∧ off / 4096 = (off + len - 1) / 4096 ∧ off + len ≤ stackBytes ∧ (s.chReqs
    st (logicalCh (off / 4096))).length < 48) ∧
    (∃ (s : State) (st : Fin 6) (off : Nat) (d : Bytes), 0 < d.length ∧ off / 4096 = (off + d.length - 1) / 4096 ∧ off + d.length ≤
    stackBytes ∧ (s.chReqs st (logicalCh (off / 4096))).length < 48 ∧ ((s.chReqs st (logicalCh (off / 4096))).filter (fun w =>
    w.write)).length < 32 ∧ (s.chReqs st (logicalCh (off / 4096))).all (fun w => w.line + w.lines ≤ off / 64 || off / 64 + 64 < w.line) =
    true) ∧
    (∃ (s : State) (st : Fin 6) (off : Nat) (d : Bytes), 0 < d.length ∧ off / 4096 = (off + d.length - 1) / 4096 ∧ off + d.length ≤
    stackBytes ∧ ((s.chReqs st (logicalCh (off / 4096)))).length = 1 ∧ ((s.chReqs st (logicalCh (off / 4096)))).all (fun w => decide
    (w.write = true ∧ 64 * w.line + w.off ≤ off ∧ off + d.length ≤ 64 * w.line + w.off + w.len)) = true) ∧
    (∃ (s : State) (st : Fin 6) (c : Fin 31), s.mcHeld st = false ∧ (s.mcPick st c).isSome = true) ∧
    (∃ (s : State) (st : Fin 6) (ch : Fin 32) (bank : Fin 16), s.refi st ≤ s.now - s.refreshLast (512 * st.val + 16 * ch.val + bank.val) ∧
    s.on (F.MC_STATUS_SR st) = true) ∧
    (∃ (s : State) (st : Fin 6) (ch : Fin 32) (bank : Fin 16), s.refi st ≤ s.now - s.refreshLast (512 * st.val + 16 * ch.val + bank.val) ∧
    s.on (F.MC_STATUS_SR st) = false ∧ 8 ≤ s.rd (owedF st ch bank) ∧ (s.bankReqs st ch bank).any (fun r => r.rt) = true) ∧
    (∃ (s : State) (st : Fin 6) (ch : Fin 32) (bank : Fin 16), s.refi st ≤ s.now - s.refreshLast (512 * st.val + 16 * ch.val + bank.val) ∧
    s.on (F.MC_STATUS_SR st) = false ∧ s.rd (owedF st ch bank) < 8 ∧ (s.bankReqs st ch bank).any (fun r => r.rt) = true) ∧
    (∃ (s : State) (st : Fin 6) (ch : Fin 32) (bank : Fin 16), s.refi st ≤ s.now - s.refreshLast (512 * st.val + 16 * ch.val + bank.val) ∧
    s.on (F.MC_STATUS_SR st) = false ∧ (s.bankReqs st ch bank) = [] ∧ (s.logicalOf st ch).any (fun c => mget (s.mcOf st).batch c false) =
    false) ∧
    (∃ (s : State) (st : Fin 6) (pc : Fin 64) (bank : Fin 16), (s.openRow st pc bank).any (fun pr => decide (s.rd (F.MC_IDLE_STATUS_CUR (64
    * st.val + pc.val)) ≤ s.now - (pr.2) ∧ (s.bankReqs st (pc / 2) bank).any (fun r => rowOf r.block = (pr.1)) = false)) = true) ∧
    ∃ (s : State) (st : Fin 6) (pc : Fin 64), 4096 ≤ s.now - s.ranAt .idle (64 * st.val + pc.val) ∧ s.on (F.MC_IDLE_ADAPT st) = false := by
  refine ⟨⟨State.reset, 0, 32, 2915, ?_⟩,
   ⟨State.reset, 0, 7787, (List.replicate 100 0x07#8), ?_⟩,
   ⟨{ State.reset with mc := [(1, { reqs := [{ id := 0, line := 130, lines := 2, write := true, data := [0x69#8, 0x6a#8, 0x6b#8, 0x6c#8, 0x6d#8, 0x6e#8, 0x6f#8, 0x70#8, 0x71#8, 0x72#8, 0x73#8, 0x74#8, 0x75#8, 0x76#8, 0x77#8, 0x78#8, 0x79#8, 0x7a#8, 0x7b#8, 0x7c#8, 0x7d#8, 0x7e#8, 0x7f#8, 0x80#8, 0x81#8, 0x82#8, 0x83#8, 0x84#8, 0x85#8, 0x86#8, 0x87#8, 0x88#8, 0x89#8, 0x8a#8, 0x8b#8, 0x8c#8, 0x8d#8, 0x8e#8, 0x8f#8, 0x90#8, 0x91#8, 0x92#8, 0x93#8, 0x94#8, 0x95#8, 0x96#8, 0x97#8, 0x98#8, 0x99#8, 0x9a#8, 0x9b#8, 0x9c#8, 0x9d#8, 0x9e#8, 0x9f#8, 0xa0#8, 0xa1#8, 0xa2#8, 0xa3#8, 0xa4#8, 0xa5#8, 0xa6#8, 0xa7#8, 0xa8#8, 0xa9#8, 0xaa#8, 0xab#8, 0xac#8, 0xad#8, 0xae#8, 0xaf#8, 0xb0#8, 0xb1#8, 0xb2#8, 0xb3#8, 0xb4#8, 0xb5#8, 0xb6#8, 0xb7#8, 0xb8#8, 0xb9#8, 0xba#8, 0xbb#8, 0xbc#8, 0xbd#8, 0xbe#8, 0xbf#8, 0xc0#8, 0xc1#8, 0xc2#8, 0xc3#8, 0xc4#8, 0xc5#8, 0xc6#8, 0xc7#8, 0xc8#8, 0xc9#8, 0xca#8, 0xcb#8, 0xcc#8, 0xcd#8, 0xce#8, 0xcf#8, 0xd0#8, 0xd1#8, 0xd2#8, 0xd3#8, 0xd4#8, 0xd5#8, 0xd6#8, 0xd7#8, 0xd8#8, 0xd9#8, 0xda#8, 0xdb#8, 0xdc#8, 0xdd#8, 0xde#8, 0xdf#8, 0xe0#8, 0xe1#8, 0xe2#8, 0xe3#8, 0xe4#8, 0xe5#8, 0xe6#8, 0xe7#8, 0xe8#8], off := 0, len := 128, rt := false, arrive := 5253, client := 3, served := 0 }, { id := 1, line := 128, lines := 1, write := false, data := [], off := 0, len := 64, rt := false, arrive := 7550, client := 3, served := 0 }, { id := 2, line := 129, lines := 2, write := false, data := [], off := 63, len := 5, rt := false, arrive := 3399, client := 3, served := 0 }, { id := 3, line := 0, lines := 3, write := true, data := [0xc5#8, 0xc6#8, 0xc7#8, 0xc8#8, 0xc9#8, 0xca#8, 0xcb#8, 0xcc#8, 0xcd#8, 0xce#8, 0xcf#8, 0xd0#8, 0xd1#8, 0xd2#8, 0xd3#8, 0xd4#8, 0xd5#8, 0xd6#8, 0xd7#8, 0xd8#8, 0xd9#8, 0xda#8, 0xdb#8, 0xdc#8, 0xdd#8, 0xde#8, 0xdf#8, 0xe0#8, 0xe1#8, 0xe2#8, 0xe3#8, 0xe4#8, 0xe5#8, 0xe6#8, 0xe7#8, 0xe8#8, 0xe9#8, 0xea#8, 0xeb#8, 0xec#8, 0xed#8, 0xee#8, 0xef#8, 0xf0#8, 0xf1#8, 0xf2#8, 0xf3#8, 0xf4#8, 0xf5#8, 0xf6#8, 0xf7#8, 0xf8#8, 0xf9#8, 0xfa#8, 0xfb#8, 0xfc#8, 0xfd#8, 0xfe#8, 0xff#8, 0x00#8, 0x01#8, 0x02#8, 0x03#8, 0x04#8, 0x05#8, 0x06#8, 0x07#8, 0x08#8, 0x09#8, 0x0a#8, 0x0b#8, 0x0c#8, 0x0d#8, 0x0e#8, 0x0f#8, 0x10#8, 0x11#8, 0x12#8, 0x13#8, 0x14#8, 0x15#8, 0x16#8, 0x17#8, 0x18#8, 0x19#8, 0x1a#8, 0x1b#8, 0x1c#8, 0x1d#8, 0x1e#8, 0x1f#8, 0x20#8, 0x21#8, 0x22#8, 0x23#8, 0x24#8, 0x25#8, 0x26#8, 0x27#8, 0x28#8, 0x29#8, 0x2a#8, 0x2b#8, 0x2c#8, 0x2d#8, 0x2e#8, 0x2f#8, 0x30#8, 0x31#8, 0x32#8, 0x33#8, 0x34#8, 0x35#8, 0x36#8, 0x37#8, 0x38#8, 0x39#8, 0x3a#8, 0x3b#8, 0x3c#8, 0x3d#8, 0x3e#8, 0x3f#8, 0x40#8, 0x41#8, 0x42#8, 0x43#8, 0x44#8, 0x45#8, 0x46#8, 0x47#8, 0x48#8, 0x49#8, 0x4a#8, 0x4b#8, 0x4c#8, 0x4d#8, 0x4e#8, 0x4f#8, 0x50#8, 0x51#8, 0x52#8, 0x53#8, 0x54#8, 0x55#8, 0x56#8, 0x57#8, 0x58#8, 0x59#8, 0x5a#8, 0x5b#8, 0x5c#8, 0x5d#8, 0x5e#8, 0x5f#8, 0x60#8, 0x61#8, 0x62#8, 0x63#8, 0x64#8, 0x65#8, 0x66#8, 0x67#8, 0x68#8, 0x69#8, 0x6a#8, 0x6b#8, 0x6c#8, 0x6d#8, 0x6e#8, 0x6f#8, 0x70#8, 0x71#8, 0x72#8, 0x73#8, 0x74#8, 0x75#8, 0x76#8, 0x77#8, 0x78#8, 0x79#8, 0x7a#8, 0x7b#8, 0x7c#8, 0x7d#8, 0x7e#8, 0x7f#8, 0x80#8, 0x81#8, 0x82#8, 0x83#8, 0x84#8], off := 0, len := 192, rt := false, arrive := 8248, client := 3, served := 0 }], next := 60, batch := [], rows := [(0, some (0, 2774)), (1, some (0, 74)), (2, some (0, 5)), (33, some (0, 4))], closed := [(3, some (0, 2774))], lateHits := [(0, 14), (1, 0)], conflicts := [(0, 4), (1, 3)], change := some { target := 0, committed := true, entering := true, aborts := 5, since := 4119 }, nextSet := some 0, sr := 0, lastReq := 462, lastEntry := 0, blockCe := [], poison := [], copy := none, trainTemp := [(0, 74), (1, 70), (2, 90)], trackTemp := 74, trackAt := 2774, scrubAt := 174 })] },
    1, 23, (List.replicate 64 0x07#8), ?_⟩,
   ⟨{ State.reset with mc := [(0, { reqs := [{ id := 0, line := 129, lines := 2, write := true, data := [0xf5#8, 0xf6#8, 0xf7#8, 0xf8#8, 0xf9#8], off := 20, len := 5, rt := false, arrive := 4254, client := 3, served := 0 }, { id := 1, line := 0, lines := 3, write := true, data := [0xbe#8, 0xbf#8, 0xc0#8, 0xc1#8, 0xc2#8, 0xc3#8, 0xc4#8, 0xc5#8, 0xc6#8, 0xc7#8, 0xc8#8, 0xc9#8, 0xca#8, 0xcb#8, 0xcc#8, 0xcd#8, 0xce#8, 0xcf#8, 0xd0#8, 0xd1#8, 0xd2#8, 0xd3#8, 0xd4#8, 0xd5#8, 0xd6#8, 0xd7#8, 0xd8#8, 0xd9#8, 0xda#8, 0xdb#8, 0xdc#8, 0xdd#8, 0xde#8, 0xdf#8, 0xe0#8, 0xe1#8, 0xe2#8, 0xe3#8, 0xe4#8, 0xe5#8, 0xe6#8, 0xe7#8, 0xe8#8, 0xe9#8, 0xea#8, 0xeb#8, 0xec#8, 0xed#8, 0xee#8, 0xef#8, 0xf0#8, 0xf1#8, 0xf2#8, 0xf3#8, 0xf4#8, 0xf5#8, 0xf6#8, 0xf7#8, 0xf8#8, 0xf9#8, 0xfa#8, 0xfb#8, 0xfc#8, 0xfd#8, 0xfe#8, 0xff#8, 0x00#8, 0x01#8, 0x02#8, 0x03#8, 0x04#8, 0x05#8, 0x06#8, 0x07#8, 0x08#8, 0x09#8, 0x0a#8, 0x0b#8, 0x0c#8, 0x0d#8, 0x0e#8, 0x0f#8, 0x10#8, 0x11#8, 0x12#8, 0x13#8, 0x14#8, 0x15#8, 0x16#8, 0x17#8, 0x18#8, 0x19#8, 0x1a#8, 0x1b#8, 0x1c#8, 0x1d#8, 0x1e#8, 0x1f#8, 0x20#8, 0x21#8, 0x22#8, 0x23#8, 0x24#8, 0x25#8, 0x26#8, 0x27#8, 0x28#8, 0x29#8, 0x2a#8, 0x2b#8, 0x2c#8, 0x2d#8, 0x2e#8, 0x2f#8, 0x30#8, 0x31#8, 0x32#8, 0x33#8, 0x34#8, 0x35#8, 0x36#8, 0x37#8, 0x38#8, 0x39#8, 0x3a#8, 0x3b#8, 0x3c#8, 0x3d#8, 0x3e#8, 0x3f#8, 0x40#8, 0x41#8, 0x42#8, 0x43#8, 0x44#8, 0x45#8, 0x46#8, 0x47#8, 0x48#8, 0x49#8, 0x4a#8, 0x4b#8, 0x4c#8, 0x4d#8, 0x4e#8, 0x4f#8, 0x50#8, 0x51#8, 0x52#8, 0x53#8, 0x54#8, 0x55#8, 0x56#8, 0x57#8, 0x58#8, 0x59#8, 0x5a#8, 0x5b#8, 0x5c#8, 0x5d#8, 0x5e#8, 0x5f#8, 0x60#8, 0x61#8, 0x62#8, 0x63#8, 0x64#8, 0x65#8, 0x66#8, 0x67#8, 0x68#8, 0x69#8, 0x6a#8, 0x6b#8, 0x6c#8, 0x6d#8, 0x6e#8, 0x6f#8, 0x70#8, 0x71#8, 0x72#8, 0x73#8, 0x74#8, 0x75#8, 0x76#8, 0x77#8, 0x78#8, 0x79#8, 0x7a#8, 0x7b#8, 0x7c#8, 0x7d#8], off := 0, len := 192, rt := false, arrive := 103, client := 3, served := 0 }, { id := 2, line := 1, lines := 1, write := true, data := [0x87#8, 0x88#8, 0x89#8, 0x8a#8, 0x8b#8, 0x8c#8, 0x8d#8, 0x8e#8, 0x8f#8, 0x90#8, 0x91#8, 0x92#8, 0x93#8, 0x94#8, 0x95#8, 0x96#8, 0x97#8, 0x98#8, 0x99#8, 0x9a#8, 0x9b#8, 0x9c#8, 0x9d#8, 0x9e#8, 0x9f#8, 0xa0#8, 0xa1#8, 0xa2#8, 0xa3#8, 0xa4#8, 0xa5#8, 0xa6#8, 0xa7#8, 0xa8#8, 0xa9#8, 0xaa#8, 0xab#8, 0xac#8, 0xad#8, 0xae#8, 0xaf#8, 0xb0#8, 0xb1#8, 0xb2#8, 0xb3#8, 0xb4#8, 0xb5#8, 0xb6#8, 0xb7#8, 0xb8#8, 0xb9#8, 0xba#8, 0xbb#8, 0xbc#8, 0xbd#8, 0xbe#8, 0xbf#8, 0xc0#8, 0xc1#8, 0xc2#8, 0xc3#8, 0xc4#8, 0xc5#8, 0xc6#8], off := 0, len := 64, rt := false, arrive := 2400, client := 3, served := 0 }, { id := 3, line := 2, lines := 2, write := true, data := [0x51#8, 0x52#8, 0x53#8, 0x54#8, 0x55#8], off := 52, len := 5, rt := false, arrive := 7250, client := 3, served := 0 }], next := 60, batch := [(0, true)], rows := [(0, some (0, 6749)), (1, some (1, 449)), (2, some (0, 5)), (33, some (0, 4))], closed := [(3, some (0, 6749))], lateHits := [(0, 29), (1, 6)], conflicts := [(0, 9), (1, 3)], change := some { target := 2, committed := false, entering := true, aborts := 1, since := 168 }, nextSet := none, sr := 0, lastReq := 1124, lastEntry := 0, blockCe := [], poison := [], copy := some (2, 7), trainTemp := [(0, 99), (1, 70), (2, 90)], trackTemp := 99, trackAt := 6749, scrubAt := 149 })] },
    0, 2, ?_⟩,
   ⟨mk [(F.LIGHT_TICKS_TICKS, 9000), (F.MC_STATUS_SR 1, 1)], 1, 0, 1, ?_⟩,
   ⟨{ mk [(F.LIGHT_TICKS_TICKS, 18000), (F.MC_REF_OWED_OWED 0, 8)] with mc := [(0, { reqs := [{ id := 0, line := 0, lines := 1, write := false, data := [], off := 0, len := 64, rt := true, arrive := 0, client := 3, served := 0 }, { id := 1, line := 0, lines := 1, write := false, data := [], off := 0, len := 64, rt := true, arrive := 0, client := 3, served := 0 }, { id := 2, line := 0, lines := 1, write := false, data := [], off := 0, len := 64, rt := true, arrive := 0, client := 3, served := 0 }, { id := 3, line := 0, lines := 1, write := false, data := [], off := 0, len := 64, rt := true, arrive := 0, client := 3, served := 0 }, { id := 4, line := 0, lines := 1, write := false, data := [], off := 0, len := 64, rt := true, arrive := 0, client := 3, served := 0 }, { id := 5, line := 0, lines := 1, write := false, data := [], off := 0, len := 64, rt := true, arrive := 0, client := 3, served := 0 }, { id := 6, line := 0, lines := 1, write := false, data := [], off := 0, len := 64, rt := true, arrive := 0, client := 3, served := 0 }, { id := 7, line := 0, lines := 1, write := false, data := [], off := 0, len := 64, rt := true, arrive := 0, client := 3, served := 0 }, { id := 8, line := 0, lines := 1, write := false, data := [], off := 0, len := 64, rt := true, arrive := 0, client := 3, served := 0 }, { id := 9, line := 0, lines := 1, write := false, data := [], off := 0, len := 64, rt := true, arrive := 0, client := 3, served := 0 }, { id := 10, line := 0, lines := 1, write := false, data := [], off := 0, len := 64, rt := true, arrive := 0, client := 3, served := 0 }, { id := 11, line := 0, lines := 1, write := false, data := [], off := 0, len := 64, rt := true, arrive := 0, client := 3, served := 0 }, { id := 12, line := 0, lines := 1, write := false, data := [], off := 0, len := 64, rt := true, arrive := 0, client := 3, served := 0 }, { id := 13, line := 0, lines := 1, write := false, data := [], off := 0, len := 64, rt := true, arrive := 0, client := 3, served := 0 }, { id := 14, line := 0, lines := 1, write := false, data := [], off := 0, len := 64, rt := true, arrive := 0, client := 3, served := 0 }, { id := 15, line := 0, lines := 1, write := false, data := [], off := 0, len := 64, rt := true, arrive := 0, client := 3, served := 0 }, { id := 16, line := 0, lines := 1, write := false, data := [], off := 0, len := 64, rt := true, arrive := 0, client := 3, served := 0 }, { id := 17, line := 0, lines := 1, write := false, data := [], off := 0, len := 64, rt := true, arrive := 0, client := 3, served := 0 }, { id := 18, line := 0, lines := 1, write := false, data := [], off := 0, len := 64, rt := true, arrive := 0, client := 3, served := 0 }, { id := 19, line := 0, lines := 1, write := false, data := [], off := 0, len := 64, rt := true, arrive := 0, client := 3, served := 0 }, { id := 20, line := 0, lines := 1, write := false, data := [], off := 0, len := 64, rt := true, arrive := 0, client := 3, served := 0 }, { id := 21, line := 0, lines := 1, write := false, data := [], off := 0, len := 64, rt := true, arrive := 0, client := 3, served := 0 }, { id := 22, line := 0, lines := 1, write := false, data := [], off := 0, len := 64, rt := true, arrive := 0, client := 3, served := 0 }, { id := 23, line := 0, lines := 1, write := false, data := [], off := 0, len := 64, rt := true, arrive := 0, client := 3, served := 0 }, { id := 24, line := 0, lines := 1, write := false, data := [], off := 0, len := 64, rt := true, arrive := 0, client := 3, served := 0 }, { id := 25, line := 0, lines := 1, write := false, data := [], off := 0, len := 64, rt := true, arrive := 0, client := 3, served := 0 }, { id := 26, line := 0, lines := 1, write := false, data := [], off := 0, len := 64, rt := true, arrive := 0, client := 3, served := 0 }, { id := 27, line := 0, lines := 1, write := false, data := [], off := 0, len := 64, rt := true, arrive := 0, client := 3, served := 0 }, { id := 28, line := 0, lines := 1, write := false, data := [], off := 0, len := 64, rt := true, arrive := 0, client := 3, served := 0 }, { id := 29, line := 0, lines := 1, write := false, data := [], off := 0, len := 64, rt := true, arrive := 0, client := 3, served := 0 }, { id := 30, line := 0, lines := 1, write := false, data := [], off := 0, len := 64, rt := true, arrive := 0, client := 3, served := 0 }, { id := 31, line := 0, lines := 1, write := false, data := [], off := 0, len := 64, rt := true, arrive := 0, client := 3, served := 0 }, { id := 32, line := 0, lines := 1, write := false, data := [], off := 0, len := 64, rt := true, arrive := 0, client := 3, served := 0 }, { id := 33, line := 0, lines := 1, write := false, data := [], off := 0, len := 64, rt := true, arrive := 0, client := 3, served := 0 }, { id := 34, line := 0, lines := 1, write := false, data := [], off := 0, len := 64, rt := true, arrive := 0, client := 3, served := 0 }, { id := 35, line := 0, lines := 1, write := false, data := [], off := 0, len := 64, rt := true, arrive := 0, client := 3, served := 0 }, { id := 36, line := 0, lines := 1, write := false, data := [], off := 0, len := 64, rt := true, arrive := 0, client := 3, served := 0 }, { id := 37, line := 0, lines := 1, write := false, data := [], off := 0, len := 64, rt := true, arrive := 0, client := 3, served := 0 }, { id := 38, line := 0, lines := 1, write := false, data := [], off := 0, len := 64, rt := true, arrive := 0, client := 3, served := 0 }, { id := 39, line := 0, lines := 1, write := false, data := [], off := 0, len := 64, rt := true, arrive := 0, client := 3, served := 0 }, { id := 40, line := 0, lines := 1, write := false, data := [], off := 0, len := 64, rt := true, arrive := 0, client := 3, served := 0 }, { id := 41, line := 0, lines := 1, write := false, data := [], off := 0, len := 64, rt := true, arrive := 0, client := 3, served := 0 }, { id := 42, line := 0, lines := 1, write := false, data := [], off := 0, len := 64, rt := true, arrive := 0, client := 3, served := 0 }, { id := 43, line := 0, lines := 1, write := false, data := [], off := 0, len := 64, rt := true, arrive := 0, client := 3, served := 0 }, { id := 44, line := 0, lines := 1, write := false, data := [], off := 0, len := 64, rt := true, arrive := 0, client := 3, served := 0 }, { id := 45, line := 0, lines := 1, write := false, data := [], off := 0, len := 64, rt := true, arrive := 0, client := 3, served := 0 }, { id := 46, line := 0, lines := 1, write := false, data := [], off := 0, len := 64, rt := true, arrive := 0, client := 3, served := 0 }, { id := 47, line := 0, lines := 1, write := false, data := [], off := 0, len := 64, rt := true, arrive := 0, client := 3, served := 0 }, { id := 48, line := 0, lines := 1, write := false, data := [], off := 0, len := 64, rt := true, arrive := 0, client := 3, served := 0 }], next := 60, batch := [], rows := [(0, some (0, 346)), (1, some (0, 346)), (2, some (0, 5)), (33, some (0, 4))], closed := [(3, some (0, 346))], lateHits := [(0, 26), (1, 4)], conflicts := [(0, 35), (1, 3)], change := some { target := 1, committed := true, entering := false, aborts := 1, since := 8333 }, nextSet := none, sr := 2, lastReq := 1557, lastEntry := 0, blockCe := [], poison := [], copy := none, trainTemp := [(0, 65), (1, 70), (2, 90)], trackTemp := 96, trackAt := 346, scrubAt := 146 })] },
    0, 0, 0, ?_⟩,
   ⟨{ mk [(F.LIGHT_TICKS_TICKS, 18000)] with mc := [(0, { reqs := [{ id := 0, line := 66, lines := 2, write := true, data := [0x98#8, 0x99#8, 0x9a#8, 0x9b#8, 0x9c#8], off := 24, len := 5, rt := false, arrive := 107, client := 3, served := 0 }, { id := 1, line := 129, lines := 3, write := true, data := [0x61#8, 0x62#8, 0x63#8, 0x64#8, 0x65#8, 0x66#8, 0x67#8, 0x68#8, 0x69#8, 0x6a#8, 0x6b#8, 0x6c#8, 0x6d#8, 0x6e#8, 0x6f#8, 0x70#8, 0x71#8, 0x72#8, 0x73#8, 0x74#8, 0x75#8, 0x76#8, 0x77#8, 0x78#8, 0x79#8, 0x7a#8, 0x7b#8, 0x7c#8, 0x7d#8, 0x7e#8, 0x7f#8, 0x80#8, 0x81#8, 0x82#8, 0x83#8, 0x84#8, 0x85#8, 0x86#8, 0x87#8, 0x88#8, 0x89#8, 0x8a#8, 0x8b#8, 0x8c#8, 0x8d#8, 0x8e#8, 0x8f#8, 0x90#8, 0x91#8, 0x92#8, 0x93#8, 0x94#8, 0x95#8, 0x96#8, 0x97#8, 0x98#8, 0x99#8, 0x9a#8, 0x9b#8, 0x9c#8, 0x9d#8, 0x9e#8, 0x9f#8, 0xa0#8, 0xa1#8, 0xa2#8, 0xa3#8, 0xa4#8, 0xa5#8, 0xa6#8, 0xa7#8, 0xa8#8, 0xa9#8, 0xaa#8, 0xab#8, 0xac#8, 0xad#8, 0xae#8, 0xaf#8, 0xb0#8, 0xb1#8, 0xb2#8, 0xb3#8, 0xb4#8, 0xb5#8, 0xb6#8, 0xb7#8, 0xb8#8, 0xb9#8, 0xba#8, 0xbb#8, 0xbc#8, 0xbd#8, 0xbe#8, 0xbf#8, 0xc0#8, 0xc1#8, 0xc2#8, 0xc3#8, 0xc4#8, 0xc5#8, 0xc6#8, 0xc7#8, 0xc8#8, 0xc9#8, 0xca#8, 0xcb#8, 0xcc#8, 0xcd#8, 0xce#8, 0xcf#8, 0xd0#8, 0xd1#8, 0xd2#8, 0xd3#8, 0xd4#8, 0xd5#8, 0xd6#8, 0xd7#8, 0xd8#8, 0xd9#8, 0xda#8, 0xdb#8, 0xdc#8, 0xdd#8, 0xde#8, 0xdf#8, 0xe0#8, 0xe1#8, 0xe2#8, 0xe3#8, 0xe4#8, 0xe5#8, 0xe6#8, 0xe7#8, 0xe8#8, 0xe9#8, 0xea#8, 0xeb#8, 0xec#8, 0xed#8, 0xee#8, 0xef#8, 0xf0#8, 0xf1#8, 0xf2#8, 0xf3#8, 0xf4#8, 0xf5#8, 0xf6#8, 0xf7#8, 0xf8#8, 0xf9#8, 0xfa#8, 0xfb#8, 0xfc#8, 0xfd#8, 0xfe#8, 0xff#8, 0x00#8, 0x01#8, 0x02#8, 0x03#8, 0x04#8, 0x05#8, 0x06#8, 0x07#8, 0x08#8, 0x09#8, 0x0a#8, 0x0b#8, 0x0c#8, 0x0d#8, 0x0e#8, 0x0f#8, 0x10#8, 0x11#8, 0x12#8, 0x13#8, 0x14#8, 0x15#8, 0x16#8, 0x17#8, 0x18#8, 0x19#8, 0x1a#8, 0x1b#8, 0x1c#8, 0x1d#8, 0x1e#8, 0x1f#8, 0x20#8], off := 0, len := 192, rt := false, arrive := 4956, client := 3, served := 0 }, { id := 2, line := 130, lines := 1, write := false, data := [], off := 0, len := 64, rt := true, arrive := 7253, client := 3, served := 0 }], next := 60, batch := [(0, true)], rows := [(0, some (0, 1563)), (1, some (1, 663)), (2, some (0, 5)), (33, some (0, 4))], closed := [(3, some (0, 1563))], lateHits := [(0, 3), (1, 6)], conflicts := [(0, 1), (1, 3)], change := none, nextSet := some 0, sr := 2, lastReq := 7760, lastEntry := 0, blockCe := [], poison := [], copy := some (1, 7), trainTemp := [(0, 71), (1, 70), (2, 90)], trackTemp := 63, trackAt := 0, scrubAt := 390070271 })] },
    0, 2, 0, ?_⟩,
   ⟨mk [(F.LIGHT_TICKS_TICKS, 27000)], 0, 31, 3, ?_⟩,
   ⟨{ mk [(F.LIGHT_TICKS_TICKS, 9000)] with mc := [(1, { reqs := [{ id := 0, line := 67, lines := 2, write := true, data := [0xce#8, 0xcf#8, 0xd0#8, 0xd1#8, 0xd2#8], off := 17, len := 5, rt := false, arrive := 617, client := 3, served := 0 }, { id := 1, line := 130, lines := 3, write := true, data := [0x98#8, 0x99#8, 0x9a#8, 0x9b#8, 0x9c#8, 0x9d#8, 0x9e#8, 0x9f#8, 0xa0#8, 0xa1#8, 0xa2#8, 0xa3#8, 0xa4#8, 0xa5#8, 0xa6#8, 0xa7#8, 0xa8#8, 0xa9#8, 0xaa#8, 0xab#8, 0xac#8, 0xad#8, 0xae#8, 0xaf#8, 0xb0#8, 0xb1#8, 0xb2#8, 0xb3#8, 0xb4#8, 0xb5#8, 0xb6#8, 0xb7#8, 0xb8#8, 0xb9#8, 0xba#8, 0xbb#8, 0xbc#8, 0xbd#8, 0xbe#8, 0xbf#8, 0xc0#8, 0xc1#8, 0xc2#8, 0xc3#8, 0xc4#8, 0xc5#8, 0xc6#8, 0xc7#8, 0xc8#8, 0xc9#8, 0xca#8, 0xcb#8, 0xcc#8, 0xcd#8, 0xce#8, 0xcf#8, 0xd0#8, 0xd1#8, 0xd2#8, 0xd3#8, 0xd4#8, 0xd5#8, 0xd6#8, 0xd7#8, 0xd8#8, 0xd9#8, 0xda#8, 0xdb#8, 0xdc#8, 0xdd#8, 0xde#8, 0xdf#8, 0xe0#8, 0xe1#8, 0xe2#8, 0xe3#8, 0xe4#8, 0xe5#8, 0xe6#8, 0xe7#8, 0xe8#8, 0xe9#8, 0xea#8, 0xeb#8, 0xec#8, 0xed#8, 0xee#8, 0xef#8, 0xf0#8, 0xf1#8, 0xf2#8, 0xf3#8, 0xf4#8, 0xf5#8, 0xf6#8, 0xf7#8, 0xf8#8, 0xf9#8, 0xfa#8, 0xfb#8, 0xfc#8, 0xfd#8, 0xfe#8, 0xff#8, 0x00#8, 0x01#8, 0x02#8, 0x03#8, 0x04#8, 0x05#8, 0x06#8, 0x07#8, 0x08#8, 0x09#8, 0x0a#8, 0x0b#8, 0x0c#8, 0x0d#8, 0x0e#8, 0x0f#8, 0x10#8, 0x11#8, 0x12#8, 0x13#8, 0x14#8, 0x15#8, 0x16#8, 0x17#8, 0x18#8, 0x19#8, 0x1a#8, 0x1b#8, 0x1c#8, 0x1d#8, 0x1e#8, 0x1f#8, 0x20#8, 0x21#8, 0x22#8, 0x23#8, 0x24#8, 0x25#8, 0x26#8, 0x27#8, 0x28#8, 0x29#8, 0x2a#8, 0x2b#8, 0x2c#8, 0x2d#8, 0x2e#8, 0x2f#8, 0x30#8, 0x31#8, 0x32#8, 0x33#8, 0x34#8, 0x35#8, 0x36#8, 0x37#8, 0x38#8, 0x39#8, 0x3a#8, 0x3b#8, 0x3c#8, 0x3d#8, 0x3e#8, 0x3f#8, 0x40#8, 0x41#8, 0x42#8, 0x43#8, 0x44#8, 0x45#8, 0x46#8, 0x47#8, 0x48#8, 0x49#8, 0x4a#8, 0x4b#8, 0x4c#8, 0x4d#8, 0x4e#8, 0x4f#8, 0x50#8, 0x51#8, 0x52#8, 0x53#8, 0x54#8, 0x55#8, 0x56#8, 0x57#8], off := 0, len := 192, rt := false, arrive := 5467, client := 3, served := 0 }, { id := 2, line := 128, lines := 2, write := true, data := [0x61#8, 0x62#8, 0x63#8, 0x64#8, 0x65#8, 0x66#8, 0x67#8, 0x68#8, 0x69#8, 0x6a#8, 0x6b#8, 0x6c#8, 0x6d#8, 0x6e#8, 0x6f#8, 0x70#8, 0x71#8, 0x72#8, 0x73#8, 0x74#8, 0x75#8, 0x76#8, 0x77#8, 0x78#8, 0x79#8, 0x7a#8, 0x7b#8, 0x7c#8, 0x7d#8, 0x7e#8, 0x7f#8, 0x80#8, 0x81#8, 0x82#8, 0x83#8, 0x84#8, 0x85#8, 0x86#8, 0x87#8, 0x88#8, 0x89#8, 0x8a#8, 0x8b#8, 0x8c#8, 0x8d#8, 0x8e#8, 0x8f#8, 0x90#8, 0x91#8, 0x92#8, 0x93#8, 0x94#8, 0x95#8, 0x96#8, 0x97#8, 0x98#8, 0x99#8, 0x9a#8, 0x9b#8, 0x9c#8, 0x9d#8, 0x9e#8, 0x9f#8, 0xa0#8, 0xa1#8, 0xa2#8, 0xa3#8, 0xa4#8, 0xa5#8, 0xa6#8, 0xa7#8, 0xa8#8, 0xa9#8, 0xaa#8, 0xab#8, 0xac#8, 0xad#8, 0xae#8, 0xaf#8, 0xb0#8, 0xb1#8, 0xb2#8, 0xb3#8, 0xb4#8, 0xb5#8, 0xb6#8, 0xb7#8, 0xb8#8, 0xb9#8, 0xba#8, 0xbb#8, 0xbc#8, 0xbd#8, 0xbe#8, 0xbf#8, 0xc0#8, 0xc1#8, 0xc2#8, 0xc3#8, 0xc4#8, 0xc5#8, 0xc6#8, 0xc7#8, 0xc8#8, 0xc9#8, 0xca#8, 0xcb#8, 0xcc#8, 0xcd#8, 0xce#8, 0xcf#8, 0xd0#8, 0xd1#8, 0xd2#8, 0xd3#8, 0xd4#8, 0xd5#8, 0xd6#8, 0xd7#8, 0xd8#8, 0xd9#8, 0xda#8, 0xdb#8, 0xdc#8, 0xdd#8, 0xde#8, 0xdf#8, 0xe0#8], off := 0, len := 128, rt := false, arrive := 7764, client := 3, served := 0 }, { id := 3, line := 129, lines := 3, write := true, data := [0x2a#8, 0x2b#8, 0x2c#8, 0x2d#8, 0x2e#8], off := 49, len := 5, rt := false, arrive := 3613, client := 3, served := 0 }], next := 60, batch := [(0, true)], rows := [(0, some (0, 4149)), (1, some (1, 549)), (2, some (0, 5)), (33, some (0, 4))], closed := [(3, some (0, 4149))], lateHits := [(0, 29), (1, 3)], conflicts := [(0, 23), (1, 3)], change := none, nextSet := none, sr := 0, lastReq := 2191, lastEntry := 0, blockCe := [], poison := [], copy := some (2, 7), trainTemp := [(0, 83), (1, 70), (2, 90)], trackTemp := 99, trackAt := 0, scrubAt := 390070271 })] },
    1, 2, 1, ?_⟩,
   ⟨mk [(F.LIGHT_TICKS_TICKS, 9000), (F.MC_IDLE_ADAPT 0, 0)], 0, 1, ?_⟩⟩ <;> decide +kernel

theorem wit_HbmController_2 :
    (∃ (s : State) (st : Fin 6) (pc : Fin 64), 4096 ≤ s.now - s.ranAt .idle (64 * st.val + pc.val) ∧ s.on (F.MC_IDLE_ADAPT st) = true) ∧
    (∃ (off : Nat) (len : Nat), (len = 0 ∨ off / 4096 ≠ (off + len - 1) / 4096 ∨ stackBytes < off + len)) ∧
    (∃ (s : State) (st : Fin 6) (off : Nat) (len : Nat), 0 < len ∧ off / 4096 = (off + len - 1) / 4096 ∧ off + len ≤ stackBytes ∧ 48 ≤
    (s.chReqs st (logicalCh (off / 4096))).length) ∧
    (∃ (s : State) (st : Fin 6) (off : Nat) (d : Bytes), 0 < d.length ∧ off / 4096 = (off + d.length - 1) / 4096 ∧ off + d.length ≤
    stackBytes ∧ (48 ≤ (s.chReqs st (logicalCh (off / 4096))).length ∨ 32 ≤ ((s.chReqs st (logicalCh (off / 4096))).filter (fun w =>
    w.write)).length) ∧ (s.chReqs st (logicalCh (off / 4096))).all (fun w => w.line + w.lines ≤ off / 64 || off / 64 + 64 < w.line) = true)
    ∧
    (∃ (s : State) (st : Fin 6) (c : Fin 31), (s.mcHeld st = true ∨ s.mcPick st c = none)) ∧
    (∃ (s : State) (st : Fin 6) (ch : Fin 32) (bank : Fin 16), s.now - s.refreshLast (512 * st.val + 16 * ch.val + bank.val) < s.refi st) ∧
    (∃ (s : State) (st : Fin 6) (pc : Fin 64) (bank : Fin 16), s.openRow st pc bank = none) ∧
    (∃ (s : State) (st : Fin 6) (pc : Fin 64) (bank : Fin 16), (s.openRow st pc bank).any (fun pr => decide (s.now - (pr.2) < s.rd
    (F.MC_IDLE_STATUS_CUR (64 * st.val + pc.val)))) = true) ∧
    (∃ (s : State) (st : Fin 6) (pc : Fin 64), s.now - s.ranAt .idle (64 * st.val + pc.val) < 4096) ∧
    ∃ (s : State) (st : Fin 6) (q : Requester) (target : Fin 4), s.grants q false = true ∧ target.val < 3 ∧ (s.mcOf st).change = none ∧ s.rd
    (F.MC_STATUS_TSET st) ≠ target := by
  refine ⟨⟨mk [(F.LIGHT_TICKS_TICKS, 27000)], 0, 2, ?_⟩,
   ⟨3901, 10691, ?_⟩,
   ⟨{ State.reset with mc := [(1, { reqs := [{ id := 0, line := 0, lines := 1, write := false, data := [], off := 0, len := 64, rt := true, arrive := 0, client := 3, served := 0 }, { id := 1, line := 0, lines := 1, write := false, data := [], off := 0, len := 64, rt := true, arrive := 0, client := 3, served := 0 }, { id := 2, line := 0, lines := 1, write := false, data := [], off := 0, len := 64, rt := true, arrive := 0, client := 3, served := 0 }, { id := 3, line := 0, lines := 1, write := false, data := [], off := 0, len := 64, rt := true, arrive := 0, client := 3, served := 0 }, { id := 4, line := 0, lines := 1, write := false, data := [], off := 0, len := 64, rt := true, arrive := 0, client := 3, served := 0 }, { id := 5, line := 0, lines := 1, write := false, data := [], off := 0, len := 64, rt := true, arrive := 0, client := 3, served := 0 }, { id := 6, line := 0, lines := 1, write := false, data := [], off := 0, len := 64, rt := true, arrive := 0, client := 3, served := 0 }, { id := 7, line := 0, lines := 1, write := false, data := [], off := 0, len := 64, rt := true, arrive := 0, client := 3, served := 0 }, { id := 8, line := 0, lines := 1, write := false, data := [], off := 0, len := 64, rt := true, arrive := 0, client := 3, served := 0 }, { id := 9, line := 0, lines := 1, write := false, data := [], off := 0, len := 64, rt := true, arrive := 0, client := 3, served := 0 }, { id := 10, line := 0, lines := 1, write := false, data := [], off := 0, len := 64, rt := true, arrive := 0, client := 3, served := 0 }, { id := 11, line := 0, lines := 1, write := false, data := [], off := 0, len := 64, rt := true, arrive := 0, client := 3, served := 0 }, { id := 12, line := 0, lines := 1, write := false, data := [], off := 0, len := 64, rt := true, arrive := 0, client := 3, served := 0 }, { id := 13, line := 0, lines := 1, write := false, data := [], off := 0, len := 64, rt := true, arrive := 0, client := 3, served := 0 }, { id := 14, line := 0, lines := 1, write := false, data := [], off := 0, len := 64, rt := true, arrive := 0, client := 3, served := 0 }, { id := 15, line := 0, lines := 1, write := false, data := [], off := 0, len := 64, rt := true, arrive := 0, client := 3, served := 0 }, { id := 16, line := 0, lines := 1, write := false, data := [], off := 0, len := 64, rt := true, arrive := 0, client := 3, served := 0 }, { id := 17, line := 0, lines := 1, write := false, data := [], off := 0, len := 64, rt := true, arrive := 0, client := 3, served := 0 }, { id := 18, line := 0, lines := 1, write := false, data := [], off := 0, len := 64, rt := true, arrive := 0, client := 3, served := 0 }, { id := 19, line := 0, lines := 1, write := false, data := [], off := 0, len := 64, rt := true, arrive := 0, client := 3, served := 0 }, { id := 20, line := 0, lines := 1, write := false, data := [], off := 0, len := 64, rt := true, arrive := 0, client := 3, served := 0 }, { id := 21, line := 0, lines := 1, write := false, data := [], off := 0, len := 64, rt := true, arrive := 0, client := 3, served := 0 }, { id := 22, line := 0, lines := 1, write := false, data := [], off := 0, len := 64, rt := true, arrive := 0, client := 3, served := 0 }, { id := 23, line := 0, lines := 1, write := false, data := [], off := 0, len := 64, rt := true, arrive := 0, client := 3, served := 0 }, { id := 24, line := 0, lines := 1, write := false, data := [], off := 0, len := 64, rt := true, arrive := 0, client := 3, served := 0 }, { id := 25, line := 0, lines := 1, write := false, data := [], off := 0, len := 64, rt := true, arrive := 0, client := 3, served := 0 }, { id := 26, line := 0, lines := 1, write := false, data := [], off := 0, len := 64, rt := true, arrive := 0, client := 3, served := 0 }, { id := 27, line := 0, lines := 1, write := false, data := [], off := 0, len := 64, rt := true, arrive := 0, client := 3, served := 0 }, { id := 28, line := 0, lines := 1, write := false, data := [], off := 0, len := 64, rt := true, arrive := 0, client := 3, served := 0 }, { id := 29, line := 0, lines := 1, write := false, data := [], off := 0, len := 64, rt := true, arrive := 0, client := 3, served := 0 }, { id := 30, line := 0, lines := 1, write := false, data := [], off := 0, len := 64, rt := true, arrive := 0, client := 3, served := 0 }, { id := 31, line := 0, lines := 1, write := false, data := [], off := 0, len := 64, rt := true, arrive := 0, client := 3, served := 0 }, { id := 32, line := 0, lines := 1, write := false, data := [], off := 0, len := 64, rt := true, arrive := 0, client := 3, served := 0 }, { id := 33, line := 0, lines := 1, write := false, data := [], off := 0, len := 64, rt := true, arrive := 0, client := 3, served := 0 }, { id := 34, line := 0, lines := 1, write := false, data := [], off := 0, len := 64, rt := true, arrive := 0, client := 3, served := 0 }, { id := 35, line := 0, lines := 1, write := false, data := [], off := 0, len := 64, rt := true, arrive := 0, client := 3, served := 0 }, { id := 36, line := 0, lines := 1, write := false, data := [], off := 0, len := 64, rt := true, arrive := 0, client := 3, served := 0 }, { id := 37, line := 0, lines := 1, write := false, data := [], off := 0, len := 64, rt := true, arrive := 0, client := 3, served := 0 }, { id := 38, line := 0, lines := 1, write := false, data := [], off := 0, len := 64, rt := true, arrive := 0, client := 3, served := 0 }, { id := 39, line := 0, lines := 1, write := false, data := [], off := 0, len := 64, rt := true, arrive := 0, client := 3, served := 0 }, { id := 40, line := 0, lines := 1, write := false, data := [], off := 0, len := 64, rt := true, arrive := 0, client := 3, served := 0 }, { id := 41, line := 0, lines := 1, write := false, data := [], off := 0, len := 64, rt := true, arrive := 0, client := 3, served := 0 }, { id := 42, line := 0, lines := 1, write := false, data := [], off := 0, len := 64, rt := true, arrive := 0, client := 3, served := 0 }, { id := 43, line := 0, lines := 1, write := false, data := [], off := 0, len := 64, rt := true, arrive := 0, client := 3, served := 0 }, { id := 44, line := 0, lines := 1, write := false, data := [], off := 0, len := 64, rt := true, arrive := 0, client := 3, served := 0 }, { id := 45, line := 0, lines := 1, write := false, data := [], off := 0, len := 64, rt := true, arrive := 0, client := 3, served := 0 }, { id := 46, line := 0, lines := 1, write := false, data := [], off := 0, len := 64, rt := true, arrive := 0, client := 3, served := 0 }, { id := 47, line := 0, lines := 1, write := false, data := [], off := 0, len := 64, rt := true, arrive := 0, client := 3, served := 0 }, { id := 48, line := 0, lines := 1, write := false, data := [], off := 0, len := 64, rt := true, arrive := 0, client := 3, served := 0 }], next := 60, batch := [(0, true)], rows := [(0, some (0, 6631)), (1, some (1, 331)), (2, some (0, 5)), (33, some (0, 4))], closed := [(3, some (0, 6631))], lateHits := [(0, 31), (1, 0)], conflicts := [(0, 10), (1, 3)], change := some { target := 2, committed := true, entering := true, aborts := 4, since := 4440 }, nextSet := none, sr := 2, lastReq := 5605, lastEntry := 0, blockCe := [], poison := [], copy := some (3, 7), trainTemp := [(0, 60), (1, 70), (2, 90)], trackTemp := 81, trackAt := 6631, scrubAt := 31 })] },
    1, 23, 22, ?_⟩,
   ⟨{ State.reset with mc := [(1, { reqs := [{ id := 0, line := 0, lines := 1, write := false, data := [], off := 0, len := 64, rt := true, arrive := 0, client := 3, served := 0 }, { id := 1, line := 0, lines := 1, write := false, data := [], off := 0, len := 64, rt := true, arrive := 0, client := 3, served := 0 }, { id := 2, line := 0, lines := 1, write := false, data := [], off := 0, len := 64, rt := true, arrive := 0, client := 3, served := 0 }, { id := 3, line := 0, lines := 1, write := false, data := [], off := 0, len := 64, rt := true, arrive := 0, client := 3, served := 0 }, { id := 4, line := 0, lines := 1, write := false, data := [], off := 0, len := 64, rt := true, arrive := 0, client := 3, served := 0 }, { id := 5, line := 0, lines := 1, write := false, data := [], off := 0, len := 64, rt := true, arrive := 0, client := 3, served := 0 }, { id := 6, line := 0, lines := 1, write := false, data := [], off := 0, len := 64, rt := true, arrive := 0, client := 3, served := 0 }, { id := 7, line := 0, lines := 1, write := false, data := [], off := 0, len := 64, rt := true, arrive := 0, client := 3, served := 0 }, { id := 8, line := 0, lines := 1, write := false, data := [], off := 0, len := 64, rt := true, arrive := 0, client := 3, served := 0 }, { id := 9, line := 0, lines := 1, write := false, data := [], off := 0, len := 64, rt := true, arrive := 0, client := 3, served := 0 }, { id := 10, line := 0, lines := 1, write := false, data := [], off := 0, len := 64, rt := true, arrive := 0, client := 3, served := 0 }, { id := 11, line := 0, lines := 1, write := false, data := [], off := 0, len := 64, rt := true, arrive := 0, client := 3, served := 0 }, { id := 12, line := 0, lines := 1, write := false, data := [], off := 0, len := 64, rt := true, arrive := 0, client := 3, served := 0 }, { id := 13, line := 0, lines := 1, write := false, data := [], off := 0, len := 64, rt := true, arrive := 0, client := 3, served := 0 }, { id := 14, line := 0, lines := 1, write := false, data := [], off := 0, len := 64, rt := true, arrive := 0, client := 3, served := 0 }, { id := 15, line := 0, lines := 1, write := false, data := [], off := 0, len := 64, rt := true, arrive := 0, client := 3, served := 0 }, { id := 16, line := 0, lines := 1, write := false, data := [], off := 0, len := 64, rt := true, arrive := 0, client := 3, served := 0 }, { id := 17, line := 0, lines := 1, write := false, data := [], off := 0, len := 64, rt := true, arrive := 0, client := 3, served := 0 }, { id := 18, line := 0, lines := 1, write := false, data := [], off := 0, len := 64, rt := true, arrive := 0, client := 3, served := 0 }, { id := 19, line := 0, lines := 1, write := false, data := [], off := 0, len := 64, rt := true, arrive := 0, client := 3, served := 0 }, { id := 20, line := 0, lines := 1, write := false, data := [], off := 0, len := 64, rt := true, arrive := 0, client := 3, served := 0 }, { id := 21, line := 0, lines := 1, write := false, data := [], off := 0, len := 64, rt := true, arrive := 0, client := 3, served := 0 }, { id := 22, line := 0, lines := 1, write := false, data := [], off := 0, len := 64, rt := true, arrive := 0, client := 3, served := 0 }, { id := 23, line := 0, lines := 1, write := false, data := [], off := 0, len := 64, rt := true, arrive := 0, client := 3, served := 0 }, { id := 24, line := 0, lines := 1, write := false, data := [], off := 0, len := 64, rt := true, arrive := 0, client := 3, served := 0 }, { id := 25, line := 0, lines := 1, write := false, data := [], off := 0, len := 64, rt := true, arrive := 0, client := 3, served := 0 }, { id := 26, line := 0, lines := 1, write := false, data := [], off := 0, len := 64, rt := true, arrive := 0, client := 3, served := 0 }, { id := 27, line := 0, lines := 1, write := false, data := [], off := 0, len := 64, rt := true, arrive := 0, client := 3, served := 0 }, { id := 28, line := 0, lines := 1, write := false, data := [], off := 0, len := 64, rt := true, arrive := 0, client := 3, served := 0 }, { id := 29, line := 0, lines := 1, write := false, data := [], off := 0, len := 64, rt := true, arrive := 0, client := 3, served := 0 }, { id := 30, line := 0, lines := 1, write := false, data := [], off := 0, len := 64, rt := true, arrive := 0, client := 3, served := 0 }, { id := 31, line := 0, lines := 1, write := false, data := [], off := 0, len := 64, rt := true, arrive := 0, client := 3, served := 0 }, { id := 32, line := 0, lines := 1, write := false, data := [], off := 0, len := 64, rt := true, arrive := 0, client := 3, served := 0 }, { id := 33, line := 0, lines := 1, write := false, data := [], off := 0, len := 64, rt := true, arrive := 0, client := 3, served := 0 }, { id := 34, line := 0, lines := 1, write := false, data := [], off := 0, len := 64, rt := true, arrive := 0, client := 3, served := 0 }, { id := 35, line := 0, lines := 1, write := false, data := [], off := 0, len := 64, rt := true, arrive := 0, client := 3, served := 0 }, { id := 36, line := 0, lines := 1, write := false, data := [], off := 0, len := 64, rt := true, arrive := 0, client := 3, served := 0 }, { id := 37, line := 0, lines := 1, write := false, data := [], off := 0, len := 64, rt := true, arrive := 0, client := 3, served := 0 }, { id := 38, line := 0, lines := 1, write := false, data := [], off := 0, len := 64, rt := true, arrive := 0, client := 3, served := 0 }, { id := 39, line := 0, lines := 1, write := false, data := [], off := 0, len := 64, rt := true, arrive := 0, client := 3, served := 0 }, { id := 40, line := 0, lines := 1, write := false, data := [], off := 0, len := 64, rt := true, arrive := 0, client := 3, served := 0 }, { id := 41, line := 0, lines := 1, write := false, data := [], off := 0, len := 64, rt := true, arrive := 0, client := 3, served := 0 }, { id := 42, line := 0, lines := 1, write := false, data := [], off := 0, len := 64, rt := true, arrive := 0, client := 3, served := 0 }, { id := 43, line := 0, lines := 1, write := false, data := [], off := 0, len := 64, rt := true, arrive := 0, client := 3, served := 0 }, { id := 44, line := 0, lines := 1, write := false, data := [], off := 0, len := 64, rt := true, arrive := 0, client := 3, served := 0 }, { id := 45, line := 0, lines := 1, write := false, data := [], off := 0, len := 64, rt := true, arrive := 0, client := 3, served := 0 }, { id := 46, line := 0, lines := 1, write := false, data := [], off := 0, len := 64, rt := true, arrive := 0, client := 3, served := 0 }, { id := 47, line := 0, lines := 1, write := false, data := [], off := 0, len := 64, rt := true, arrive := 0, client := 3, served := 0 }, { id := 48, line := 0, lines := 1, write := false, data := [], off := 0, len := 64, rt := true, arrive := 0, client := 3, served := 0 }], next := 60, batch := [], rows := [(0, some (0, 7096)), (1, some (0, 796)), (2, some (0, 5)), (33, some (0, 4))], closed := [(3, some (0, 7096))], lateHits := [(0, 16), (1, 1)], conflicts := [(0, 5), (1, 3)], change := some { target := 1, committed := true, entering := true, aborts := 1, since := 3327 }, nextSet := some 1, sr := 2, lastReq := 4182, lastEntry := 0, blockCe := [], poison := [(0, true)], copy := none, trainTemp := [], trackTemp := 96, trackAt := 7096, scrubAt := 96 })] },
    1, 3775, (List.replicate 64 0x07#8), ?_⟩,
   ⟨State.reset, 0, 1, ?_⟩,
   ⟨State.reset, 0, 0, 0, ?_⟩,
   ⟨State.reset, 0, 2, 2, ?_⟩,
   ⟨{ State.reset with mc := [(0, { reqs := [{ id := 0, line := 129, lines := 2, write := true, data := [0x52#8, 0x53#8, 0x54#8, 0x55#8, 0x56#8, 0x57#8, 0x58#8, 0x59#8, 0x5a#8, 0x5b#8, 0x5c#8, 0x5d#8, 0x5e#8, 0x5f#8, 0x60#8, 0x61#8, 0x62#8, 0x63#8, 0x64#8, 0x65#8, 0x66#8, 0x67#8, 0x68#8, 0x69#8, 0x6a#8, 0x6b#8, 0x6c#8, 0x6d#8, 0x6e#8, 0x6f#8, 0x70#8, 0x71#8, 0x72#8, 0x73#8, 0x74#8, 0x75#8, 0x76#8, 0x77#8, 0x78#8, 0x79#8, 0x7a#8, 0x7b#8, 0x7c#8, 0x7d#8, 0x7e#8, 0x7f#8, 0x80#8, 0x81#8, 0x82#8, 0x83#8, 0x84#8, 0x85#8, 0x86#8, 0x87#8, 0x88#8, 0x89#8, 0x8a#8, 0x8b#8, 0x8c#8, 0x8d#8, 0x8e#8, 0x8f#8, 0x90#8, 0x91#8, 0x92#8, 0x93#8, 0x94#8, 0x95#8, 0x96#8, 0x97#8, 0x98#8, 0x99#8, 0x9a#8, 0x9b#8, 0x9c#8, 0x9d#8, 0x9e#8, 0x9f#8, 0xa0#8, 0xa1#8, 0xa2#8, 0xa3#8, 0xa4#8, 0xa5#8, 0xa6#8, 0xa7#8, 0xa8#8, 0xa9#8, 0xaa#8, 0xab#8, 0xac#8, 0xad#8, 0xae#8, 0xaf#8, 0xb0#8, 0xb1#8, 0xb2#8, 0xb3#8, 0xb4#8, 0xb5#8, 0xb6#8, 0xb7#8, 0xb8#8, 0xb9#8, 0xba#8, 0xbb#8, 0xbc#8, 0xbd#8, 0xbe#8, 0xbf#8, 0xc0#8, 0xc1#8, 0xc2#8, 0xc3#8, 0xc4#8, 0xc5#8, 0xc6#8, 0xc7#8, 0xc8#8, 0xc9#8, 0xca#8, 0xcb#8, 0xcc#8, 0xcd#8, 0xce#8, 0xcf#8, 0xd0#8, 0xd1#8], off := 0, len := 128, rt := false, arrive := 3570, client := 3, served := 0 }, { id := 1, line := 129, lines := 3, write := true, data := [0x1b#8, 0x1c#8, 0x1d#8, 0x1e#8, 0x1f#8, 0x20#8, 0x21#8, 0x22#8, 0x23#8, 0x24#8, 0x25#8, 0x26#8, 0x27#8, 0x28#8, 0x29#8, 0x2a#8, 0x2b#8, 0x2c#8, 0x2d#8, 0x2e#8, 0x2f#8, 0x30#8, 0x31#8, 0x32#8, 0x33#8, 0x34#8, 0x35#8, 0x36#8, 0x37#8, 0x38#8, 0x39#8, 0x3a#8, 0x3b#8, 0x3c#8, 0x3d#8, 0x3e#8, 0x3f#8, 0x40#8, 0x41#8, 0x42#8, 0x43#8, 0x44#8, 0x45#8, 0x46#8, 0x47#8, 0x48#8, 0x49#8, 0x4a#8, 0x4b#8, 0x4c#8, 0x4d#8, 0x4e#8, 0x4f#8, 0x50#8, 0x51#8, 0x52#8, 0x53#8, 0x54#8, 0x55#8, 0x56#8, 0x57#8, 0x58#8, 0x59#8, 0x5a#8, 0x5b#8, 0x5c#8, 0x5d#8, 0x5e#8, 0x5f#8, 0x60#8, 0x61#8, 0x62#8, 0x63#8, 0x64#8, 0x65#8, 0x66#8, 0x67#8, 0x68#8, 0x69#8, 0x6a#8, 0x6b#8, 0x6c#8, 0x6d#8, 0x6e#8, 0x6f#8, 0x70#8, 0x71#8, 0x72#8, 0x73#8, 0x74#8, 0x75#8, 0x76#8, 0x77#8, 0x78#8, 0x79#8, 0x7a#8, 0x7b#8, 0x7c#8, 0x7d#8, 0x7e#8, 0x7f#8, 0x80#8, 0x81#8, 0x82#8, 0x83#8, 0x84#8, 0x85#8, 0x86#8, 0x87#8, 0x88#8, 0x89#8, 0x8a#8, 0x8b#8, 0x8c#8, 0x8d#8, 0x8e#8, 0x8f#8, 0x90#8, 0x91#8, 0x92#8, 0x93#8, 0x94#8, 0x95#8, 0x96#8, 0x97#8, 0x98#8, 0x99#8, 0x9a#8, 0x9b#8, 0x9c#8, 0x9d#8, 0x9e#8, 0x9f#8, 0xa0#8, 0xa1#8, 0xa2#8, 0xa3#8, 0xa4#8, 0xa5#8, 0xa6#8, 0xa7#8, 0xa8#8, 0xa9#8, 0xaa#8, 0xab#8, 0xac#8, 0xad#8, 0xae#8, 0xaf#8, 0xb0#8, 0xb1#8, 0xb2#8, 0xb3#8, 0xb4#8, 0xb5#8, 0xb6#8, 0xb7#8, 0xb8#8, 0xb9#8, 0xba#8, 0xbb#8, 0xbc#8, 0xbd#8, 0xbe#8, 0xbf#8, 0xc0#8, 0xc1#8, 0xc2#8, 0xc3#8, 0xc4#8, 0xc5#8, 0xc6#8, 0xc7#8, 0xc8#8, 0xc9#8, 0xca#8, 0xcb#8, 0xcc#8, 0xcd#8, 0xce#8, 0xcf#8, 0xd0#8, 0xd1#8, 0xd2#8, 0xd3#8, 0xd4#8, 0xd5#8, 0xd6#8, 0xd7#8, 0xd8#8, 0xd9#8, 0xda#8], off := 0, len := 192, rt := false, arrive := 5867, client := 3, served := 0 }, { id := 2, line := 130, lines := 1, write := true, data := [0xe5#8, 0xe6#8, 0xe7#8, 0xe8#8, 0xe9#8], off := 25, len := 5, rt := false, arrive := 1716, client := 3, served := 0 }], next := 60, batch := [(0, true)], rows := [(0, some (0, 4503)), (1, some (1, 3)), (2, some (0, 5)), (33, some (0, 4))], closed := [(3, some (0, 4503))], lateHits := [(0, 23), (1, 5)], conflicts := [(0, 21), (1, 3)], change := none, nextSet := none, sr := 2, lastReq := 5250, lastEntry := 0, blockCe := [], poison := [], copy := some (3, 7), trainTemp := [(0, 51), (1, 70), (2, 90)], trackTemp := 53, trackAt := 0, scrubAt := 390070271 })] },
    0, 0, 2, ?_⟩,
   ⟨State.reset, 0, 0, ?_⟩,
   ⟨State.reset, 0, .regInit, 1, ?_⟩⟩ <;> decide +kernel

theorem wit_HbmController_3 :
    (∃ (s : State) (st : Fin 6) (q : Requester) (target : Fin 4), s.grants q false = true ∧ ((s.mcOf st).change).any (fun c => decide
    (c.committed = true ∧ target.val < 3)) = true) ∧
    (∃ (s : State) (st : Fin 6), ((s.mcOf st).change).any (fun c => decide (c.committed = false ∧ (c.entering = true ∨ 1600 ≤ s.now -
    c.since))) = true) ∧
    (∃ (s : State) (st : Fin 6), ((s.mcOf st).change).any (fun c => decide (c.committed = true ∧ (s.mcOf st).nextSet = none)) = true) ∧
    (∃ (s : State) (st : Fin 6), (s.on (F.MC_SR_CFG_EN st) = true ∨ s.rd F.PWR_STATUS_STATE = 4) ∧ (s.mcOf st).reqs = [] ∧ (s.mcOf
    st).change = none ∧ (s.mcOf st).sr = 0 ∧ max 1 (s.rd (F.MC_SR_CFG_IDLE st)) * 1600 ≤ s.now - (s.mcOf st).lastReq) ∧
    (∃ (s : State) (st : Fin 6), s.rd (F.MC_RAS_CFG_SCRUB_HOURS st) ≠ 0 ∧ s.mcHeld st = false ∧ s.rd (F.MC_RAS_CFG_SCRUB_HOURS st) *
    hourTicks / 390070272 ≤ s.now - s.ranAt .scrub st ∧ s.chReqs st (logicalCh ((s.mcOf st).scrubAt / 64)) = [] ∧ s.on F.DBG_CTL_ARM =
    false) ∧
    (∃ (s : State) (st : Fin 6), 160000 ≤ s.now - s.ranAt .thermal (1 + st.val)) ∧
    (∃ (s : State) (st : Fin 6) (ch : Fin 32), (160000000 ≤ s.now - (s.mcOf st).trackAt ∨ 10 ≤ tempDiff (s.rd (F.MC_STATUS_TEMP st)) (s.mcOf
    st).trackTemp) ∧ ch.val = 31 ∧ ((s.logicalOf st ch).any (fun c => (s.chReqs st c).any (fun r => r.rt))) = false) ∧
    (∃ (s : State) (st : Fin 6), s.rd (F.MC_STATUS_SPARE st) = 0) ∧
    (∃ (s : State) (st : Fin 6) (c : Fin 31), s.rd (F.MC_STATUS_SPARE st) ≠ 0 ∧ s.rd (F.MC_STATUS_SPARE st) ≠ 1 ∧ s.rd
    (F.MC_STATUS_SPARED_CH st) ≠ c) ∧
    ∃ (s : State) (st : Fin 6), ((s.mcOf st).copy).isSome = true ∧ s.mcHeld st = false := by
  refine ⟨⟨{ State.reset with mc := [(0, { reqs := [], next := 60, batch := [], rows := [(0, some (0, 1840)), (1, some (0, 40)), (2, some (0, 5)), (33, some (0, 4))], closed := [(3, some (0, 1840))], lateHits := [(0, 0), (1, 6)], conflicts := [(0, 13), (1, 3)], change := some { target := 1, committed := true, entering := true, aborts := 3, since := 8596 }, nextSet := none, sr := 0, lastReq := 306, lastEntry := 0, blockCe := [], poison := [(0, true)], copy := none, trainTemp := [], trackTemp := 90, trackAt := 1840, scrubAt := 40 })] },
    0, .regInit, 2, ?_⟩,
   ⟨{ State.reset with mc := [(0, { reqs := [{ id := 0, line := 129, lines := 2, write := true, data := [0xf5#8, 0xf6#8, 0xf7#8, 0xf8#8, 0xf9#8], off := 20, len := 5, rt := false, arrive := 4254, client := 3, served := 0 }, { id := 1, line := 0, lines := 3, write := true, data := [0xbe#8, 0xbf#8, 0xc0#8, 0xc1#8, 0xc2#8, 0xc3#8, 0xc4#8, 0xc5#8, 0xc6#8, 0xc7#8, 0xc8#8, 0xc9#8, 0xca#8, 0xcb#8, 0xcc#8, 0xcd#8, 0xce#8, 0xcf#8, 0xd0#8, 0xd1#8, 0xd2#8, 0xd3#8, 0xd4#8, 0xd5#8, 0xd6#8, 0xd7#8, 0xd8#8, 0xd9#8, 0xda#8, 0xdb#8, 0xdc#8, 0xdd#8, 0xde#8, 0xdf#8, 0xe0#8, 0xe1#8, 0xe2#8, 0xe3#8, 0xe4#8, 0xe5#8, 0xe6#8, 0xe7#8, 0xe8#8, 0xe9#8, 0xea#8, 0xeb#8, 0xec#8, 0xed#8, 0xee#8, 0xef#8, 0xf0#8, 0xf1#8, 0xf2#8, 0xf3#8, 0xf4#8, 0xf5#8, 0xf6#8, 0xf7#8, 0xf8#8, 0xf9#8, 0xfa#8, 0xfb#8, 0xfc#8, 0xfd#8, 0xfe#8, 0xff#8, 0x00#8, 0x01#8, 0x02#8, 0x03#8, 0x04#8, 0x05#8, 0x06#8, 0x07#8, 0x08#8, 0x09#8, 0x0a#8, 0x0b#8, 0x0c#8, 0x0d#8, 0x0e#8, 0x0f#8, 0x10#8, 0x11#8, 0x12#8, 0x13#8, 0x14#8, 0x15#8, 0x16#8, 0x17#8, 0x18#8, 0x19#8, 0x1a#8, 0x1b#8, 0x1c#8, 0x1d#8, 0x1e#8, 0x1f#8, 0x20#8, 0x21#8, 0x22#8, 0x23#8, 0x24#8, 0x25#8, 0x26#8, 0x27#8, 0x28#8, 0x29#8, 0x2a#8, 0x2b#8, 0x2c#8, 0x2d#8, 0x2e#8, 0x2f#8, 0x30#8, 0x31#8, 0x32#8, 0x33#8, 0x34#8, 0x35#8, 0x36#8, 0x37#8, 0x38#8, 0x39#8, 0x3a#8, 0x3b#8, 0x3c#8, 0x3d#8, 0x3e#8, 0x3f#8, 0x40#8, 0x41#8, 0x42#8, 0x43#8, 0x44#8, 0x45#8, 0x46#8, 0x47#8, 0x48#8, 0x49#8, 0x4a#8, 0x4b#8, 0x4c#8, 0x4d#8, 0x4e#8, 0x4f#8, 0x50#8, 0x51#8, 0x52#8, 0x53#8, 0x54#8, 0x55#8, 0x56#8, 0x57#8, 0x58#8, 0x59#8, 0x5a#8, 0x5b#8, 0x5c#8, 0x5d#8, 0x5e#8, 0x5f#8, 0x60#8, 0x61#8, 0x62#8, 0x63#8, 0x64#8, 0x65#8, 0x66#8, 0x67#8, 0x68#8, 0x69#8, 0x6a#8, 0x6b#8, 0x6c#8, 0x6d#8, 0x6e#8, 0x6f#8, 0x70#8, 0x71#8, 0x72#8, 0x73#8, 0x74#8, 0x75#8, 0x76#8, 0x77#8, 0x78#8, 0x79#8, 0x7a#8, 0x7b#8, 0x7c#8, 0x7d#8], off := 0, len := 192, rt := false, arrive := 103, client := 3, served := 0 }, { id := 2, line := 1, lines := 1, write := true, data := [0x87#8, 0x88#8, 0x89#8, 0x8a#8, 0x8b#8, 0x8c#8, 0x8d#8, 0x8e#8, 0x8f#8, 0x90#8, 0x91#8, 0x92#8, 0x93#8, 0x94#8, 0x95#8, 0x96#8, 0x97#8, 0x98#8, 0x99#8, 0x9a#8, 0x9b#8, 0x9c#8, 0x9d#8, 0x9e#8, 0x9f#8, 0xa0#8, 0xa1#8, 0xa2#8, 0xa3#8, 0xa4#8, 0xa5#8, 0xa6#8, 0xa7#8, 0xa8#8, 0xa9#8, 0xaa#8, 0xab#8, 0xac#8, 0xad#8, 0xae#8, 0xaf#8, 0xb0#8, 0xb1#8, 0xb2#8, 0xb3#8, 0xb4#8, 0xb5#8, 0xb6#8, 0xb7#8, 0xb8#8, 0xb9#8, 0xba#8, 0xbb#8, 0xbc#8, 0xbd#8, 0xbe#8, 0xbf#8, 0xc0#8, 0xc1#8, 0xc2#8, 0xc3#8, 0xc4#8, 0xc5#8, 0xc6#8], off := 0, len := 64, rt := false, arrive := 2400, client := 3, served := 0 }, { id := 3, line := 2, lines := 2, write := true, data := [0x51#8, 0x52#8, 0x53#8, 0x54#8, 0x55#8], off := 52, len := 5, rt := false, arrive := 7250, client := 3, served := 0 }], next := 60, batch := [(0, true)], rows := [(0, some (0, 6749)), (1, some (1, 449)), (2, some (0, 5)), (33, some (0, 4))], closed := [(3, some (0, 6749))], lateHits := [(0, 29), (1, 6)], conflicts := [(0, 9), (1, 3)], change := some { target := 2, committed := false, entering := true, aborts := 1, since := 168 }, nextSet := none, sr := 0, lastReq := 1124, lastEntry := 0, blockCe := [], poison := [], copy := some (2, 7), trainTemp := [(0, 99), (1, 70), (2, 90)], trackTemp := 99, trackAt := 6749, scrubAt := 149 })] },
    0, ?_⟩,
   ⟨{ State.reset with mc := [(0, { reqs := [], next := 60, batch := [], rows := [(0, some (0, 1840)), (1, some (0, 40)), (2, some (0, 5)), (33, some (0, 4))], closed := [(3, some (0, 1840))], lateHits := [(0, 0), (1, 6)], conflicts := [(0, 13), (1, 3)], change := some { target := 1, committed := true, entering := true, aborts := 3, since := 8596 }, nextSet := none, sr := 0, lastReq := 306, lastEntry := 0, blockCe := [], poison := [(0, true)], copy := none, trainTemp := [], trackTemp := 90, trackAt := 1840, scrubAt := 40 })] },
    0, ?_⟩,
   ⟨mk [(F.LIGHT_TICKS_TICKS, 27000), (F.MC_SR_CFG_EN 0, 1), (F.MC_SR_CFG_IDLE 0, 1)], 0, ?_⟩,
   ⟨mk [(F.LIGHT_TICKS_TICKS, 18000), (F.MC_RAS_CFG_SCRUB_HOURS 0, 1)], 0, ?_⟩,
   ⟨mk [(F.LIGHT_TICKS_TICKS, 170027000)], 1, ?_⟩,
   ⟨{ State.reset with mc := [(0, { reqs := [{ id := 0, line := 129, lines := 2, write := true, data := [0xf5#8, 0xf6#8, 0xf7#8, 0xf8#8, 0xf9#8], off := 20, len := 5, rt := false, arrive := 4254, client := 3, served := 0 }, { id := 1, line := 0, lines := 3, write := true, data := [0xbe#8, 0xbf#8, 0xc0#8, 0xc1#8, 0xc2#8, 0xc3#8, 0xc4#8, 0xc5#8, 0xc6#8, 0xc7#8, 0xc8#8, 0xc9#8, 0xca#8, 0xcb#8, 0xcc#8, 0xcd#8, 0xce#8, 0xcf#8, 0xd0#8, 0xd1#8, 0xd2#8, 0xd3#8, 0xd4#8, 0xd5#8, 0xd6#8, 0xd7#8, 0xd8#8, 0xd9#8, 0xda#8, 0xdb#8, 0xdc#8, 0xdd#8, 0xde#8, 0xdf#8, 0xe0#8, 0xe1#8, 0xe2#8, 0xe3#8, 0xe4#8, 0xe5#8, 0xe6#8, 0xe7#8, 0xe8#8, 0xe9#8, 0xea#8, 0xeb#8, 0xec#8, 0xed#8, 0xee#8, 0xef#8, 0xf0#8, 0xf1#8, 0xf2#8, 0xf3#8, 0xf4#8, 0xf5#8, 0xf6#8, 0xf7#8, 0xf8#8, 0xf9#8, 0xfa#8, 0xfb#8, 0xfc#8, 0xfd#8, 0xfe#8, 0xff#8, 0x00#8, 0x01#8, 0x02#8, 0x03#8, 0x04#8, 0x05#8, 0x06#8, 0x07#8, 0x08#8, 0x09#8, 0x0a#8, 0x0b#8, 0x0c#8, 0x0d#8, 0x0e#8, 0x0f#8, 0x10#8, 0x11#8, 0x12#8, 0x13#8, 0x14#8, 0x15#8, 0x16#8, 0x17#8, 0x18#8, 0x19#8, 0x1a#8, 0x1b#8, 0x1c#8, 0x1d#8, 0x1e#8, 0x1f#8, 0x20#8, 0x21#8, 0x22#8, 0x23#8, 0x24#8, 0x25#8, 0x26#8, 0x27#8, 0x28#8, 0x29#8, 0x2a#8, 0x2b#8, 0x2c#8, 0x2d#8, 0x2e#8, 0x2f#8, 0x30#8, 0x31#8, 0x32#8, 0x33#8, 0x34#8, 0x35#8, 0x36#8, 0x37#8, 0x38#8, 0x39#8, 0x3a#8, 0x3b#8, 0x3c#8, 0x3d#8, 0x3e#8, 0x3f#8, 0x40#8, 0x41#8, 0x42#8, 0x43#8, 0x44#8, 0x45#8, 0x46#8, 0x47#8, 0x48#8, 0x49#8, 0x4a#8, 0x4b#8, 0x4c#8, 0x4d#8, 0x4e#8, 0x4f#8, 0x50#8, 0x51#8, 0x52#8, 0x53#8, 0x54#8, 0x55#8, 0x56#8, 0x57#8, 0x58#8, 0x59#8, 0x5a#8, 0x5b#8, 0x5c#8, 0x5d#8, 0x5e#8, 0x5f#8, 0x60#8, 0x61#8, 0x62#8, 0x63#8, 0x64#8, 0x65#8, 0x66#8, 0x67#8, 0x68#8, 0x69#8, 0x6a#8, 0x6b#8, 0x6c#8, 0x6d#8, 0x6e#8, 0x6f#8, 0x70#8, 0x71#8, 0x72#8, 0x73#8, 0x74#8, 0x75#8, 0x76#8, 0x77#8, 0x78#8, 0x79#8, 0x7a#8, 0x7b#8, 0x7c#8, 0x7d#8], off := 0, len := 192, rt := false, arrive := 103, client := 3, served := 0 }, { id := 2, line := 1, lines := 1, write := true, data := [0x87#8, 0x88#8, 0x89#8, 0x8a#8, 0x8b#8, 0x8c#8, 0x8d#8, 0x8e#8, 0x8f#8, 0x90#8, 0x91#8, 0x92#8, 0x93#8, 0x94#8, 0x95#8, 0x96#8, 0x97#8, 0x98#8, 0x99#8, 0x9a#8, 0x9b#8, 0x9c#8, 0x9d#8, 0x9e#8, 0x9f#8, 0xa0#8, 0xa1#8, 0xa2#8, 0xa3#8, 0xa4#8, 0xa5#8, 0xa6#8, 0xa7#8, 0xa8#8, 0xa9#8, 0xaa#8, 0xab#8, 0xac#8, 0xad#8, 0xae#8, 0xaf#8, 0xb0#8, 0xb1#8, 0xb2#8, 0xb3#8, 0xb4#8, 0xb5#8, 0xb6#8, 0xb7#8, 0xb8#8, 0xb9#8, 0xba#8, 0xbb#8, 0xbc#8, 0xbd#8, 0xbe#8, 0xbf#8, 0xc0#8, 0xc1#8, 0xc2#8, 0xc3#8, 0xc4#8, 0xc5#8, 0xc6#8], off := 0, len := 64, rt := false, arrive := 2400, client := 3, served := 0 }, { id := 3, line := 2, lines := 2, write := true, data := [0x51#8, 0x52#8, 0x53#8, 0x54#8, 0x55#8], off := 52, len := 5, rt := false, arrive := 7250, client := 3, served := 0 }], next := 60, batch := [(0, true)], rows := [(0, some (0, 6749)), (1, some (1, 449)), (2, some (0, 5)), (33, some (0, 4))], closed := [(3, some (0, 6749))], lateHits := [(0, 29), (1, 6)], conflicts := [(0, 9), (1, 3)], change := some { target := 2, committed := false, entering := true, aborts := 1, since := 168 }, nextSet := none, sr := 0, lastReq := 1124, lastEntry := 0, blockCe := [], poison := [], copy := some (2, 7), trainTemp := [(0, 99), (1, 70), (2, 90)], trackTemp := 99, trackAt := 6749, scrubAt := 149 })] },
    0, 31, ?_⟩,
   ⟨State.reset, 0, ?_⟩,
   ⟨mk [(F.MC_STATUS_SPARE 0, 3)], 0, 1, ?_⟩,
   ⟨{ State.reset with mc := [(0, { reqs := [{ id := 0, line := 129, lines := 2, write := true, data := [0xf5#8, 0xf6#8, 0xf7#8, 0xf8#8, 0xf9#8], off := 20, len := 5, rt := false, arrive := 4254, client := 3, served := 0 }, { id := 1, line := 0, lines := 3, write := true, data := [0xbe#8, 0xbf#8, 0xc0#8, 0xc1#8, 0xc2#8, 0xc3#8, 0xc4#8, 0xc5#8, 0xc6#8, 0xc7#8, 0xc8#8, 0xc9#8, 0xca#8, 0xcb#8, 0xcc#8, 0xcd#8, 0xce#8, 0xcf#8, 0xd0#8, 0xd1#8, 0xd2#8, 0xd3#8, 0xd4#8, 0xd5#8, 0xd6#8, 0xd7#8, 0xd8#8, 0xd9#8, 0xda#8, 0xdb#8, 0xdc#8, 0xdd#8, 0xde#8, 0xdf#8, 0xe0#8, 0xe1#8, 0xe2#8, 0xe3#8, 0xe4#8, 0xe5#8, 0xe6#8, 0xe7#8, 0xe8#8, 0xe9#8, 0xea#8, 0xeb#8, 0xec#8, 0xed#8, 0xee#8, 0xef#8, 0xf0#8, 0xf1#8, 0xf2#8, 0xf3#8, 0xf4#8, 0xf5#8, 0xf6#8, 0xf7#8, 0xf8#8, 0xf9#8, 0xfa#8, 0xfb#8, 0xfc#8, 0xfd#8, 0xfe#8, 0xff#8, 0x00#8, 0x01#8, 0x02#8, 0x03#8, 0x04#8, 0x05#8, 0x06#8, 0x07#8, 0x08#8, 0x09#8, 0x0a#8, 0x0b#8, 0x0c#8, 0x0d#8, 0x0e#8, 0x0f#8, 0x10#8, 0x11#8, 0x12#8, 0x13#8, 0x14#8, 0x15#8, 0x16#8, 0x17#8, 0x18#8, 0x19#8, 0x1a#8, 0x1b#8, 0x1c#8, 0x1d#8, 0x1e#8, 0x1f#8, 0x20#8, 0x21#8, 0x22#8, 0x23#8, 0x24#8, 0x25#8, 0x26#8, 0x27#8, 0x28#8, 0x29#8, 0x2a#8, 0x2b#8, 0x2c#8, 0x2d#8, 0x2e#8, 0x2f#8, 0x30#8, 0x31#8, 0x32#8, 0x33#8, 0x34#8, 0x35#8, 0x36#8, 0x37#8, 0x38#8, 0x39#8, 0x3a#8, 0x3b#8, 0x3c#8, 0x3d#8, 0x3e#8, 0x3f#8, 0x40#8, 0x41#8, 0x42#8, 0x43#8, 0x44#8, 0x45#8, 0x46#8, 0x47#8, 0x48#8, 0x49#8, 0x4a#8, 0x4b#8, 0x4c#8, 0x4d#8, 0x4e#8, 0x4f#8, 0x50#8, 0x51#8, 0x52#8, 0x53#8, 0x54#8, 0x55#8, 0x56#8, 0x57#8, 0x58#8, 0x59#8, 0x5a#8, 0x5b#8, 0x5c#8, 0x5d#8, 0x5e#8, 0x5f#8, 0x60#8, 0x61#8, 0x62#8, 0x63#8, 0x64#8, 0x65#8, 0x66#8, 0x67#8, 0x68#8, 0x69#8, 0x6a#8, 0x6b#8, 0x6c#8, 0x6d#8, 0x6e#8, 0x6f#8, 0x70#8, 0x71#8, 0x72#8, 0x73#8, 0x74#8, 0x75#8, 0x76#8, 0x77#8, 0x78#8, 0x79#8, 0x7a#8, 0x7b#8, 0x7c#8, 0x7d#8], off := 0, len := 192, rt := false, arrive := 103, client := 3, served := 0 }, { id := 2, line := 1, lines := 1, write := true, data := [0x87#8, 0x88#8, 0x89#8, 0x8a#8, 0x8b#8, 0x8c#8, 0x8d#8, 0x8e#8, 0x8f#8, 0x90#8, 0x91#8, 0x92#8, 0x93#8, 0x94#8, 0x95#8, 0x96#8, 0x97#8, 0x98#8, 0x99#8, 0x9a#8, 0x9b#8, 0x9c#8, 0x9d#8, 0x9e#8, 0x9f#8, 0xa0#8, 0xa1#8, 0xa2#8, 0xa3#8, 0xa4#8, 0xa5#8, 0xa6#8, 0xa7#8, 0xa8#8, 0xa9#8, 0xaa#8, 0xab#8, 0xac#8, 0xad#8, 0xae#8, 0xaf#8, 0xb0#8, 0xb1#8, 0xb2#8, 0xb3#8, 0xb4#8, 0xb5#8, 0xb6#8, 0xb7#8, 0xb8#8, 0xb9#8, 0xba#8, 0xbb#8, 0xbc#8, 0xbd#8, 0xbe#8, 0xbf#8, 0xc0#8, 0xc1#8, 0xc2#8, 0xc3#8, 0xc4#8, 0xc5#8, 0xc6#8], off := 0, len := 64, rt := false, arrive := 2400, client := 3, served := 0 }, { id := 3, line := 2, lines := 2, write := true, data := [0x51#8, 0x52#8, 0x53#8, 0x54#8, 0x55#8], off := 52, len := 5, rt := false, arrive := 7250, client := 3, served := 0 }], next := 60, batch := [(0, true)], rows := [(0, some (0, 6749)), (1, some (1, 449)), (2, some (0, 5)), (33, some (0, 4))], closed := [(3, some (0, 6749))], lateHits := [(0, 29), (1, 6)], conflicts := [(0, 9), (1, 3)], change := some { target := 2, committed := false, entering := true, aborts := 1, since := 168 }, nextSet := none, sr := 0, lastReq := 1124, lastEntry := 0, blockCe := [], poison := [], copy := some (2, 7), trainTemp := [(0, 99), (1, 70), (2, 90)], trackTemp := 99, trackAt := 6749, scrubAt := 149 })] },
    0, ?_⟩⟩ <;> decide +kernel

theorem wit_HbmController_4 :
    (∃ (s : State) (st : Fin 6) (q : Requester) (target : Fin 4), s.grants q false = true ∧ target.val = 3 ∧ (s.mcOf st).change = none) ∧
    (∃ (s : State) (st : Fin 6), ((s.mcOf st).change).any (fun c => decide (c.committed = true)) = true) ∧
    (∃ (s : State) (st : Fin 6), (s.mcOf st).change = none) ∧
    (∃ (s : State) (st : Fin 6), ((s.on (F.MC_SR_CFG_EN st) = false ∧ s.rd F.PWR_STATUS_STATE ≠ 4) ∨ (s.mcOf st).reqs ≠ [] ∨ (s.mcOf st).sr
    ≠ 0)) ∧
    (∃ (s : State) (st : Fin 6), (s.rd (F.MC_RAS_CFG_SCRUB_HOURS st) = 0 ∨ s.mcHeld st = true ∨ s.chReqs st (logicalCh ((s.mcOf st).scrubAt
    / 64)) ≠ [])) ∧
    (∃ (s : State) (st : Fin 6), s.now - s.ranAt .thermal (1 + st.val) < 160000) ∧
    (∃ (s : State) (st : Fin 6) (ch : Fin 32), ((s.logicalOf st ch).any (fun c => (s.chReqs st c).any (fun r => r.rt))) = true) ∧
    (∃ (s : State) (st : Fin 6), s.now - (s.mcOf st).trackAt < 160000000 ∧ tempDiff (s.rd (F.MC_STATUS_TEMP st)) (s.mcOf st).trackTemp < 10)
    ∧
    (∃ (s : State) (st : Fin 6), s.rd (F.MC_STATUS_SPARE st) = 1) ∧
    ∃ (s : State) (st : Fin 6), (s.mcOf st).copy = none := by
  refine ⟨⟨mk [(F.BOOT_STATUS_STAGE, 6)], 0, .pf0, 3, ?_⟩,
   ⟨{ State.reset with mc := [(0, { reqs := [], next := 60, batch := [], rows := [(0, some (0, 1840)), (1, some (0, 40)), (2, some (0, 5)), (33, some (0, 4))], closed := [(3, some (0, 1840))], lateHits := [(0, 0), (1, 6)], conflicts := [(0, 13), (1, 3)], change := some { target := 1, committed := true, entering := true, aborts := 3, since := 8596 }, nextSet := none, sr := 0, lastReq := 306, lastEntry := 0, blockCe := [], poison := [(0, true)], copy := none, trainTemp := [], trackTemp := 90, trackAt := 1840, scrubAt := 40 })] },
    0, ?_⟩,
   ⟨State.reset, 1, ?_⟩,
   ⟨State.reset, 0, ?_⟩,
   ⟨{ State.reset with mc := [(0, { reqs := [{ id := 0, line := 129, lines := 2, write := true, data := [0xf5#8, 0xf6#8, 0xf7#8, 0xf8#8, 0xf9#8], off := 20, len := 5, rt := false, arrive := 4254, client := 3, served := 0 }, { id := 1, line := 0, lines := 3, write := true, data := [0xbe#8, 0xbf#8, 0xc0#8, 0xc1#8, 0xc2#8, 0xc3#8, 0xc4#8, 0xc5#8, 0xc6#8, 0xc7#8, 0xc8#8, 0xc9#8, 0xca#8, 0xcb#8, 0xcc#8, 0xcd#8, 0xce#8, 0xcf#8, 0xd0#8, 0xd1#8, 0xd2#8, 0xd3#8, 0xd4#8, 0xd5#8, 0xd6#8, 0xd7#8, 0xd8#8, 0xd9#8, 0xda#8, 0xdb#8, 0xdc#8, 0xdd#8, 0xde#8, 0xdf#8, 0xe0#8, 0xe1#8, 0xe2#8, 0xe3#8, 0xe4#8, 0xe5#8, 0xe6#8, 0xe7#8, 0xe8#8, 0xe9#8, 0xea#8, 0xeb#8, 0xec#8, 0xed#8, 0xee#8, 0xef#8, 0xf0#8, 0xf1#8, 0xf2#8, 0xf3#8, 0xf4#8, 0xf5#8, 0xf6#8, 0xf7#8, 0xf8#8, 0xf9#8, 0xfa#8, 0xfb#8, 0xfc#8, 0xfd#8, 0xfe#8, 0xff#8, 0x00#8, 0x01#8, 0x02#8, 0x03#8, 0x04#8, 0x05#8, 0x06#8, 0x07#8, 0x08#8, 0x09#8, 0x0a#8, 0x0b#8, 0x0c#8, 0x0d#8, 0x0e#8, 0x0f#8, 0x10#8, 0x11#8, 0x12#8, 0x13#8, 0x14#8, 0x15#8, 0x16#8, 0x17#8, 0x18#8, 0x19#8, 0x1a#8, 0x1b#8, 0x1c#8, 0x1d#8, 0x1e#8, 0x1f#8, 0x20#8, 0x21#8, 0x22#8, 0x23#8, 0x24#8, 0x25#8, 0x26#8, 0x27#8, 0x28#8, 0x29#8, 0x2a#8, 0x2b#8, 0x2c#8, 0x2d#8, 0x2e#8, 0x2f#8, 0x30#8, 0x31#8, 0x32#8, 0x33#8, 0x34#8, 0x35#8, 0x36#8, 0x37#8, 0x38#8, 0x39#8, 0x3a#8, 0x3b#8, 0x3c#8, 0x3d#8, 0x3e#8, 0x3f#8, 0x40#8, 0x41#8, 0x42#8, 0x43#8, 0x44#8, 0x45#8, 0x46#8, 0x47#8, 0x48#8, 0x49#8, 0x4a#8, 0x4b#8, 0x4c#8, 0x4d#8, 0x4e#8, 0x4f#8, 0x50#8, 0x51#8, 0x52#8, 0x53#8, 0x54#8, 0x55#8, 0x56#8, 0x57#8, 0x58#8, 0x59#8, 0x5a#8, 0x5b#8, 0x5c#8, 0x5d#8, 0x5e#8, 0x5f#8, 0x60#8, 0x61#8, 0x62#8, 0x63#8, 0x64#8, 0x65#8, 0x66#8, 0x67#8, 0x68#8, 0x69#8, 0x6a#8, 0x6b#8, 0x6c#8, 0x6d#8, 0x6e#8, 0x6f#8, 0x70#8, 0x71#8, 0x72#8, 0x73#8, 0x74#8, 0x75#8, 0x76#8, 0x77#8, 0x78#8, 0x79#8, 0x7a#8, 0x7b#8, 0x7c#8, 0x7d#8], off := 0, len := 192, rt := false, arrive := 103, client := 3, served := 0 }, { id := 2, line := 1, lines := 1, write := true, data := [0x87#8, 0x88#8, 0x89#8, 0x8a#8, 0x8b#8, 0x8c#8, 0x8d#8, 0x8e#8, 0x8f#8, 0x90#8, 0x91#8, 0x92#8, 0x93#8, 0x94#8, 0x95#8, 0x96#8, 0x97#8, 0x98#8, 0x99#8, 0x9a#8, 0x9b#8, 0x9c#8, 0x9d#8, 0x9e#8, 0x9f#8, 0xa0#8, 0xa1#8, 0xa2#8, 0xa3#8, 0xa4#8, 0xa5#8, 0xa6#8, 0xa7#8, 0xa8#8, 0xa9#8, 0xaa#8, 0xab#8, 0xac#8, 0xad#8, 0xae#8, 0xaf#8, 0xb0#8, 0xb1#8, 0xb2#8, 0xb3#8, 0xb4#8, 0xb5#8, 0xb6#8, 0xb7#8, 0xb8#8, 0xb9#8, 0xba#8, 0xbb#8, 0xbc#8, 0xbd#8, 0xbe#8, 0xbf#8, 0xc0#8, 0xc1#8, 0xc2#8, 0xc3#8, 0xc4#8, 0xc5#8, 0xc6#8], off := 0, len := 64, rt := false, arrive := 2400, client := 3, served := 0 }, { id := 3, line := 2, lines := 2, write := true, data := [0x51#8, 0x52#8, 0x53#8, 0x54#8, 0x55#8], off := 52, len := 5, rt := false, arrive := 7250, client := 3, served := 0 }], next := 60, batch := [(0, true)], rows := [(0, some (0, 6749)), (1, some (1, 449)), (2, some (0, 5)), (33, some (0, 4))], closed := [(3, some (0, 6749))], lateHits := [(0, 29), (1, 6)], conflicts := [(0, 9), (1, 3)], change := some { target := 2, committed := false, entering := true, aborts := 1, since := 168 }, nextSet := none, sr := 0, lastReq := 1124, lastEntry := 0, blockCe := [], poison := [], copy := some (2, 7), trainTemp := [(0, 99), (1, 70), (2, 90)], trackTemp := 99, trackAt := 6749, scrubAt := 149 })] },
    0, ?_⟩,
   ⟨State.reset, 0, ?_⟩,
   ⟨{ State.reset with mc := [(1, { reqs := [{ id := 0, line := 0, lines := 1, write := false, data := [], off := 0, len := 64, rt := true, arrive := 0, client := 3, served := 0 }, { id := 1, line := 0, lines := 1, write := false, data := [], off := 0, len := 64, rt := true, arrive := 0, client := 3, served := 0 }, { id := 2, line := 0, lines := 1, write := false, data := [], off := 0, len := 64, rt := true, arrive := 0, client := 3, served := 0 }, { id := 3, line := 0, lines := 1, write := false, data := [], off := 0, len := 64, rt := true, arrive := 0, client := 3, served := 0 }, { id := 4, line := 0, lines := 1, write := false, data := [], off := 0, len := 64, rt := true, arrive := 0, client := 3, served := 0 }, { id := 5, line := 0, lines := 1, write := false, data := [], off := 0, len := 64, rt := true, arrive := 0, client := 3, served := 0 }, { id := 6, line := 0, lines := 1, write := false, data := [], off := 0, len := 64, rt := true, arrive := 0, client := 3, served := 0 }, { id := 7, line := 0, lines := 1, write := false, data := [], off := 0, len := 64, rt := true, arrive := 0, client := 3, served := 0 }, { id := 8, line := 0, lines := 1, write := false, data := [], off := 0, len := 64, rt := true, arrive := 0, client := 3, served := 0 }, { id := 9, line := 0, lines := 1, write := false, data := [], off := 0, len := 64, rt := true, arrive := 0, client := 3, served := 0 }, { id := 10, line := 0, lines := 1, write := false, data := [], off := 0, len := 64, rt := true, arrive := 0, client := 3, served := 0 }, { id := 11, line := 0, lines := 1, write := false, data := [], off := 0, len := 64, rt := true, arrive := 0, client := 3, served := 0 }, { id := 12, line := 0, lines := 1, write := false, data := [], off := 0, len := 64, rt := true, arrive := 0, client := 3, served := 0 }, { id := 13, line := 0, lines := 1, write := false, data := [], off := 0, len := 64, rt := true, arrive := 0, client := 3, served := 0 }, { id := 14, line := 0, lines := 1, write := false, data := [], off := 0, len := 64, rt := true, arrive := 0, client := 3, served := 0 }, { id := 15, line := 0, lines := 1, write := false, data := [], off := 0, len := 64, rt := true, arrive := 0, client := 3, served := 0 }, { id := 16, line := 0, lines := 1, write := false, data := [], off := 0, len := 64, rt := true, arrive := 0, client := 3, served := 0 }, { id := 17, line := 0, lines := 1, write := false, data := [], off := 0, len := 64, rt := true, arrive := 0, client := 3, served := 0 }, { id := 18, line := 0, lines := 1, write := false, data := [], off := 0, len := 64, rt := true, arrive := 0, client := 3, served := 0 }, { id := 19, line := 0, lines := 1, write := false, data := [], off := 0, len := 64, rt := true, arrive := 0, client := 3, served := 0 }, { id := 20, line := 0, lines := 1, write := false, data := [], off := 0, len := 64, rt := true, arrive := 0, client := 3, served := 0 }, { id := 21, line := 0, lines := 1, write := false, data := [], off := 0, len := 64, rt := true, arrive := 0, client := 3, served := 0 }, { id := 22, line := 0, lines := 1, write := false, data := [], off := 0, len := 64, rt := true, arrive := 0, client := 3, served := 0 }, { id := 23, line := 0, lines := 1, write := false, data := [], off := 0, len := 64, rt := true, arrive := 0, client := 3, served := 0 }, { id := 24, line := 0, lines := 1, write := false, data := [], off := 0, len := 64, rt := true, arrive := 0, client := 3, served := 0 }, { id := 25, line := 0, lines := 1, write := false, data := [], off := 0, len := 64, rt := true, arrive := 0, client := 3, served := 0 }, { id := 26, line := 0, lines := 1, write := false, data := [], off := 0, len := 64, rt := true, arrive := 0, client := 3, served := 0 }, { id := 27, line := 0, lines := 1, write := false, data := [], off := 0, len := 64, rt := true, arrive := 0, client := 3, served := 0 }, { id := 28, line := 0, lines := 1, write := false, data := [], off := 0, len := 64, rt := true, arrive := 0, client := 3, served := 0 }, { id := 29, line := 0, lines := 1, write := false, data := [], off := 0, len := 64, rt := true, arrive := 0, client := 3, served := 0 }, { id := 30, line := 0, lines := 1, write := false, data := [], off := 0, len := 64, rt := true, arrive := 0, client := 3, served := 0 }, { id := 31, line := 0, lines := 1, write := false, data := [], off := 0, len := 64, rt := true, arrive := 0, client := 3, served := 0 }, { id := 32, line := 0, lines := 1, write := false, data := [], off := 0, len := 64, rt := true, arrive := 0, client := 3, served := 0 }, { id := 33, line := 0, lines := 1, write := false, data := [], off := 0, len := 64, rt := true, arrive := 0, client := 3, served := 0 }, { id := 34, line := 0, lines := 1, write := false, data := [], off := 0, len := 64, rt := true, arrive := 0, client := 3, served := 0 }, { id := 35, line := 0, lines := 1, write := false, data := [], off := 0, len := 64, rt := true, arrive := 0, client := 3, served := 0 }, { id := 36, line := 0, lines := 1, write := false, data := [], off := 0, len := 64, rt := true, arrive := 0, client := 3, served := 0 }, { id := 37, line := 0, lines := 1, write := false, data := [], off := 0, len := 64, rt := true, arrive := 0, client := 3, served := 0 }, { id := 38, line := 0, lines := 1, write := false, data := [], off := 0, len := 64, rt := true, arrive := 0, client := 3, served := 0 }, { id := 39, line := 0, lines := 1, write := false, data := [], off := 0, len := 64, rt := true, arrive := 0, client := 3, served := 0 }, { id := 40, line := 0, lines := 1, write := false, data := [], off := 0, len := 64, rt := true, arrive := 0, client := 3, served := 0 }, { id := 41, line := 0, lines := 1, write := false, data := [], off := 0, len := 64, rt := true, arrive := 0, client := 3, served := 0 }, { id := 42, line := 0, lines := 1, write := false, data := [], off := 0, len := 64, rt := true, arrive := 0, client := 3, served := 0 }, { id := 43, line := 0, lines := 1, write := false, data := [], off := 0, len := 64, rt := true, arrive := 0, client := 3, served := 0 }, { id := 44, line := 0, lines := 1, write := false, data := [], off := 0, len := 64, rt := true, arrive := 0, client := 3, served := 0 }, { id := 45, line := 0, lines := 1, write := false, data := [], off := 0, len := 64, rt := true, arrive := 0, client := 3, served := 0 }, { id := 46, line := 0, lines := 1, write := false, data := [], off := 0, len := 64, rt := true, arrive := 0, client := 3, served := 0 }, { id := 47, line := 0, lines := 1, write := false, data := [], off := 0, len := 64, rt := true, arrive := 0, client := 3, served := 0 }, { id := 48, line := 0, lines := 1, write := false, data := [], off := 0, len := 64, rt := true, arrive := 0, client := 3, served := 0 }], next := 60, batch := [(0, true)], rows := [(0, some (0, 6631)), (1, some (1, 331)), (2, some (0, 5)), (33, some (0, 4))], closed := [(3, some (0, 6631))], lateHits := [(0, 31), (1, 0)], conflicts := [(0, 10), (1, 3)], change := some { target := 2, committed := true, entering := true, aborts := 4, since := 4440 }, nextSet := none, sr := 2, lastReq := 5605, lastEntry := 0, blockCe := [], poison := [], copy := some (3, 7), trainTemp := [(0, 60), (1, 70), (2, 90)], trackTemp := 81, trackAt := 6631, scrubAt := 31 })] },
    1, 0, ?_⟩,
   ⟨{ mk [(F.MC_STATUS_TEMP 0, 65)] with mc := [(0, { reqs := [{ id := 0, line := 1, lines := 1, write := true, data := [0x7d#8, 0x7e#8, 0x7f#8, 0x80#8, 0x81#8, 0x82#8, 0x83#8, 0x84#8, 0x85#8, 0x86#8, 0x87#8, 0x88#8, 0x89#8, 0x8a#8, 0x8b#8, 0x8c#8, 0x8d#8, 0x8e#8, 0x8f#8, 0x90#8, 0x91#8, 0x92#8, 0x93#8, 0x94#8, 0x95#8, 0x96#8, 0x97#8, 0x98#8, 0x99#8, 0x9a#8, 0x9b#8, 0x9c#8, 0x9d#8, 0x9e#8, 0x9f#8, 0xa0#8, 0xa1#8, 0xa2#8, 0xa3#8, 0xa4#8, 0xa5#8, 0xa6#8, 0xa7#8, 0xa8#8, 0xa9#8, 0xaa#8, 0xab#8, 0xac#8, 0xad#8, 0xae#8, 0xaf#8, 0xb0#8, 0xb1#8, 0xb2#8, 0xb3#8, 0xb4#8, 0xb5#8, 0xb6#8, 0xb7#8, 0xb8#8, 0xb9#8, 0xba#8, 0xbb#8, 0xbc#8], off := 0, len := 64, rt := false, arrive := 6799, client := 3, served := 0 }, { id := 1, line := 2, lines := 2, write := true, data := [0x46#8, 0x47#8, 0x48#8, 0x49#8, 0x4a#8], off := 51, len := 5, rt := false, arrive := 2648, client := 3, served := 0 }, { id := 2, line := 2, lines := 3, write := true, data := [0x10#8, 0x11#8, 0x12#8, 0x13#8, 0x14#8], off := 43, len := 5, rt := false, arrive := 4946, client := 3, served := 0 }], next := 60, batch := [], rows := [(0, some (0, 518)), (1, some (0, 518)), (2, some (0, 5)), (33, some (0, 4))], closed := [(3, some (0, 518))], lateHits := [(0, 38), (1, 1)], conflicts := [(0, 12), (1, 3)], change := some { target := 1, committed := false, entering := true, aborts := 2, since := 237 }, nextSet := none, sr := 0, lastReq := 4586, lastEntry := 0, blockCe := [], poison := [], copy := none, trainTemp := [(0, 72), (1, 70), (2, 90)], trackTemp := 68, trackAt := 518, scrubAt := 118 })] },
    0, ?_⟩,
   ⟨mk [(F.MC_STATUS_SPARE 1, 1)], 1, ?_⟩,
   ⟨State.reset, 0, ?_⟩⟩ <;> decide +kernel

theorem wit_HbmController_5 :
    ∃ (s : State) (st : Fin 6), s.mcHeld st = true := by
  exact ⟨{ State.reset with mc := [(0, { reqs := [{ id := 0, line := 66, lines := 3, write := true, data := [0x62#8, 0x63#8, 0x64#8, 0x65#8, 0x66#8, 0x67#8, 0x68#8, 0x69#8, 0x6a#8, 0x6b#8, 0x6c#8, 0x6d#8, 0x6e#8, 0x6f#8, 0x70#8, 0x71#8, 0x72#8, 0x73#8, 0x74#8, 0x75#8, 0x76#8, 0x77#8, 0x78#8, 0x79#8, 0x7a#8, 0x7b#8, 0x7c#8, 0x7d#8, 0x7e#8, 0x7f#8, 0x80#8, 0x81#8, 0x82#8, 0x83#8, 0x84#8, 0x85#8, 0x86#8, 0x87#8, 0x88#8, 0x89#8, 0x8a#8, 0x8b#8, 0x8c#8, 0x8d#8, 0x8e#8, 0x8f#8, 0x90#8, 0x91#8, 0x92#8, 0x93#8, 0x94#8, 0x95#8, 0x96#8, 0x97#8, 0x98#8, 0x99#8, 0x9a#8, 0x9b#8, 0x9c#8, 0x9d#8, 0x9e#8, 0x9f#8, 0xa0#8, 0xa1#8, 0xa2#8, 0xa3#8, 0xa4#8, 0xa5#8, 0xa6#8, 0xa7#8, 0xa8#8, 0xa9#8, 0xaa#8, 0xab#8, 0xac#8, 0xad#8, 0xae#8, 0xaf#8, 0xb0#8, 0xb1#8, 0xb2#8, 0xb3#8, 0xb4#8, 0xb5#8, 0xb6#8, 0xb7#8, 0xb8#8, 0xb9#8, 0xba#8, 0xbb#8, 0xbc#8, 0xbd#8, 0xbe#8, 0xbf#8, 0xc0#8, 0xc1#8, 0xc2#8, 0xc3#8, 0xc4#8, 0xc5#8, 0xc6#8, 0xc7#8, 0xc8#8, 0xc9#8, 0xca#8, 0xcb#8, 0xcc#8, 0xcd#8, 0xce#8, 0xcf#8, 0xd0#8, 0xd1#8, 0xd2#8, 0xd3#8, 0xd4#8, 0xd5#8, 0xd6#8, 0xd7#8, 0xd8#8, 0xd9#8, 0xda#8, 0xdb#8, 0xdc#8, 0xdd#8, 0xde#8, 0xdf#8, 0xe0#8, 0xe1#8, 0xe2#8, 0xe3#8, 0xe4#8, 0xe5#8, 0xe6#8, 0xe7#8, 0xe8#8, 0xe9#8, 0xea#8, 0xeb#8, 0xec#8, 0xed#8, 0xee#8, 0xef#8, 0xf0#8, 0xf1#8, 0xf2#8, 0xf3#8, 0xf4#8, 0xf5#8, 0xf6#8, 0xf7#8, 0xf8#8, 0xf9#8, 0xfa#8, 0xfb#8, 0xfc#8, 0xfd#8, 0xfe#8, 0xff#8, 0x00#8, 0x01#8, 0x02#8, 0x03#8, 0x04#8, 0x05#8, 0x06#8, 0x07#8, 0x08#8, 0x09#8, 0x0a#8, 0x0b#8, 0x0c#8, 0x0d#8, 0x0e#8, 0x0f#8, 0x10#8, 0x11#8, 0x12#8, 0x13#8, 0x14#8, 0x15#8, 0x16#8, 0x17#8, 0x18#8, 0x19#8, 0x1a#8, 0x1b#8, 0x1c#8, 0x1d#8, 0x1e#8, 0x1f#8, 0x20#8, 0x21#8], off := 0, len := 192, rt := false, arrive := 6060, client := 3, served := 0 }, { id := 1, line := 67, lines := 1, write := true, data := [0x2b#8, 0x2c#8, 0x2d#8, 0x2e#8, 0x2f#8], off := 56, len := 5, rt := false, arrive := 1909, client := 3, served := 0 }, { id := 2, line := 67, lines := 2, write := true, data := [0xf4#8, 0xf5#8, 0xf6#8, 0xf7#8, 0xf8#8], off := 48, len := 5, rt := false, arrive := 4206, client := 3, served := 0 }, { id := 3, line := 130, lines := 3, write := true, data := [0xbe#8, 0xbf#8, 0xc0#8, 0xc1#8, 0xc2#8, 0xc3#8, 0xc4#8, 0xc5#8, 0xc6#8, 0xc7#8, 0xc8#8, 0xc9#8, 0xca#8, 0xcb#8, 0xcc#8, 0xcd#8, 0xce#8, 0xcf#8, 0xd0#8, 0xd1#8, 0xd2#8, 0xd3#8, 0xd4#8, 0xd5#8, 0xd6#8, 0xd7#8, 0xd8#8, 0xd9#8, 0xda#8, 0xdb#8, 0xdc#8, 0xdd#8, 0xde#8, 0xdf#8, 0xe0#8, 0xe1#8, 0xe2#8, 0xe3#8, 0xe4#8, 0xe5#8, 0xe6#8, 0xe7#8, 0xe8#8, 0xe9#8, 0xea#8, 0xeb#8, 0xec#8, 0xed#8, 0xee#8, 0xef#8, 0xf0#8, 0xf1#8, 0xf2#8, 0xf3#8, 0xf4#8, 0xf5#8, 0xf6#8, 0xf7#8, 0xf8#8, 0xf9#8, 0xfa#8, 0xfb#8, 0xfc#8, 0xfd#8, 0xfe#8, 0xff#8, 0x00#8, 0x01#8, 0x02#8, 0x03#8, 0x04#8, 0x05#8, 0x06#8, 0x07#8, 0x08#8, 0x09#8, 0x0a#8, 0x0b#8, 0x0c#8, 0x0d#8, 0x0e#8, 0x0f#8, 0x10#8, 0x11#8, 0x12#8, 0x13#8, 0x14#8, 0x15#8, 0x16#8, 0x17#8, 0x18#8, 0x19#8, 0x1a#8, 0x1b#8, 0x1c#8, 0x1d#8, 0x1e#8, 0x1f#8, 0x20#8, 0x21#8, 0x22#8, 0x23#8, 0x24#8, 0x25#8, 0x26#8, 0x27#8, 0x28#8, 0x29#8, 0x2a#8, 0x2b#8, 0x2c#8, 0x2d#8, 0x2e#8, 0x2f#8, 0x30#8, 0x31#8, 0x32#8, 0x33#8, 0x34#8, 0x35#8, 0x36#8, 0x37#8, 0x38#8, 0x39#8, 0x3a#8, 0x3b#8, 0x3c#8, 0x3d#8, 0x3e#8, 0x3f#8, 0x40#8, 0x41#8, 0x42#8, 0x43#8, 0x44#8, 0x45#8, 0x46#8, 0x47#8, 0x48#8, 0x49#8, 0x4a#8, 0x4b#8, 0x4c#8, 0x4d#8, 0x4e#8, 0x4f#8, 0x50#8, 0x51#8, 0x52#8, 0x53#8, 0x54#8, 0x55#8, 0x56#8, 0x57#8, 0x58#8, 0x59#8, 0x5a#8, 0x5b#8, 0x5c#8, 0x5d#8, 0x5e#8, 0x5f#8, 0x60#8, 0x61#8, 0x62#8, 0x63#8, 0x64#8, 0x65#8, 0x66#8, 0x67#8, 0x68#8, 0x69#8, 0x6a#8, 0x6b#8, 0x6c#8, 0x6d#8, 0x6e#8, 0x6f#8, 0x70#8, 0x71#8, 0x72#8, 0x73#8, 0x74#8, 0x75#8, 0x76#8, 0x77#8, 0x78#8, 0x79#8, 0x7a#8, 0x7b#8, 0x7c#8, 0x7d#8], off := 0, len := 192, rt := false, arrive := 55, client := 3, served := 0 }], next := 60, batch := [(0, true)], rows := [(0, some (0, 4819)), (1, some (1, 319)), (2, some (0, 5)), (33, some (0, 4))], closed := [(3, some (0, 4819))], lateHits := [(0, 19), (1, 2)], conflicts := [(0, 6), (1, 3)], change := some { target := 1, committed := false, entering := false, aborts := 1, since := 8220 }, nextSet := none, sr := 2, lastReq := 803, lastEntry := 0, blockCe := [], poison := [], copy := some (1, 7), trainTemp := [(0, 56), (1, 70), (2, 90)], trackTemp := 69, trackAt := 4819, scrubAt := 19 })] },
    0, by decide +kernel⟩

theorem wit_AtollFrames :
    (∃ (s : State) (r : Fin 32), (s.atlHead r).any (fun x => decide (s.roleTakes r = true ∧ (atlHdr x.data).type = atlContrib ∧ ((s.updAtl
    (fun a => { a with inq := a.inq.erase x })).atlReject x ((s.updAtl (fun a => { a with inq := a.inq.erase x })).newOperation (atlHdr
    x.data))).isSome = true)) = true) ∧
    (∃ (s : State) (r : Fin 32), (s.atlHead r).any (fun x => decide (s.roleTakes r = true ∧ (atlHdr x.data).type = atlResult ∧ ((s.updAtl
    (fun a => { a with inq := a.inq.erase x })).atlReject x false).isSome = true)) = true) ∧
    (∃ (s : State) (r : Fin 32), (s.atlHead r).any (fun x => decide (s.roleTakes r = true ∧ (atlHdr x.data).type = atlNack ∧ ((s.updAtl (fun
    a => { a with inq := a.inq.erase x })).atlReject x false).isSome = true)) = true) ∧
    (∃ (s : State) (r : Fin 32), (s.atlHead r).any (fun x => decide (s.roleTakes r = true ∧ (atlHdr x.data).type = atlHoldOff ∧ ((s.updAtl
    (fun a => { a with inq := a.inq.erase x })).atlReject x false).isSome = true)) = true) ∧
    (∃ (s : State) (r : Fin 32), (s.atlHead r).any (fun x => decide (s.roleTakes r = true ∧ (atlHdr x.data).type = atlAbort ∧ ((s.updAtl
    (fun a => { a with inq := a.inq.erase x })).atlReject x false).isSome = true)) = true) ∧
    (∃ (s : State) (r : Fin 32), (s.atlHead r).any (fun x => decide (s.roleTakes r = true ∧ (atlHdr x.data).type = atlContrib ∧ (s.updAtl
    (fun a => { a with inq := a.inq.erase x })).atlReject x ((s.updAtl (fun a => { a with inq := a.inq.erase x })).newOperation (atlHdr
    x.data)) = none ∧ ((s.updAtl (fun a => { a with inq := a.inq.erase x })).contributors (atlHdr x.data).session).contains (atlHdr
    x.data).member = true ∧ ((s.updAtl (fun a => { a with inq := a.inq.erase x })).chunkOf (atlHdr x.data)).any (fun c => decide
    (c.from_.contains (atlHdr x.data).member = true)) = true)) = true) ∧
    (∃ (s : State) (r : Fin 32), (s.atlHead r).any (fun x => decide (s.roleTakes r = true ∧ (atlHdr x.data).type = atlContrib ∧ (s.updAtl
    (fun a => { a with inq := a.inq.erase x })).atlReject x ((s.updAtl (fun a => { a with inq := a.inq.erase x })).newOperation (atlHdr
    x.data)) = none ∧ ((s.updAtl (fun a => { a with inq := a.inq.erase x })).contributors (atlHdr x.data).session).contains (atlHdr
    x.data).member = true ∧ ((s.updAtl (fun a => { a with inq := a.inq.erase x })).chunkOf (atlHdr x.data)).any (fun c => decide
    (c.from_.contains (atlHdr x.data).member = false ∧ (atlHdr x.data).count = c.count)) = true)) = true) ∧
    (∃ (s : State) (r : Fin 32), (s.atlHead r).any (fun x => decide (s.roleTakes r = true ∧ (atlHdr x.data).type = atlContrib ∧ (s.updAtl
    (fun a => { a with inq := a.inq.erase x })).atlReject x ((s.updAtl (fun a => { a with inq := a.inq.erase x })).newOperation (atlHdr
    x.data)) = none ∧ ((s.updAtl (fun a => { a with inq := a.inq.erase x })).contributors (atlHdr x.data).session).contains (atlHdr
    x.data).member = true ∧ ((s.updAtl (fun a => { a with inq := a.inq.erase x })).chunkOf (atlHdr x.data)).any (fun c => decide
    (c.from_.contains (atlHdr x.data).member = false ∧ (atlHdr x.data).count = c.count ∧ s.on F.DBG_CTL_ARM = false ∧ x.buf = none ∧
    (s.updAtl (fun a => { a with inq := a.inq.erase x })).parent (atlHdr x.data).session = none)) = true)) = true) ∧
    (∃ (s : State) (r : Fin 32), (s.atlHead r).any (fun x => decide (s.roleTakes r = true ∧ (atlHdr x.data).type = atlContrib ∧ (s.updAtl
    (fun a => { a with inq := a.inq.erase x })).atlReject x ((s.updAtl (fun a => { a with inq := a.inq.erase x })).newOperation (atlHdr
    x.data)) = none ∧ ((s.updAtl (fun a => { a with inq := a.inq.erase x })).contributors (atlHdr x.data).session).contains (atlHdr
    x.data).member = true ∧ ((s.updAtl (fun a => { a with inq := a.inq.erase x })).chunkOf (atlHdr x.data)).any (fun c => decide
    (c.from_.contains (atlHdr x.data).member = false ∧ (atlHdr x.data).count ≠ c.count)) = true)) = true) ∧
    ∃ (s : State) (r : Fin 32), (s.atlHead r).any (fun x => decide (s.roleTakes r = true ∧ (atlHdr x.data).type = atlResult ∧ (s.updAtl (fun
    a => { a with inq := a.inq.erase x })).atlReject x false = none ∧ (s.updAtl (fun a => { a with inq := a.inq.erase x })).parent (atlHdr
    x.data).session = some (atlHdr x.data).member ∧ x.buf = none ∧ ((s.updAtl (fun a => { a with inq := a.inq.erase x })).chunkOf (atlHdr
    x.data)).any (fun c => decide (c.sentUp = true ∧ c.down = none)) = true)) = true := by
  refine ⟨⟨{ mk [(F.ATL_SESS_ROLES_ROLES 0, 4)] with atl := { inq := [{ port := 3, host := false, sess := 0, src := 0, frame := [], md := { egressPort := 1023, queue := 0, mcastGroup := 0, pg := 0, colour := 0, ecnCap := false, drop := false, dropReason := 0, group := 4095, groupHash := 0, trapReason := 0, trapMode := 0, mirror := 0, atoll := false, session := 0, telFlags := 0, parseFail := 15, badFrame := false, egressMeta := 0, flowKey := 0, hostPtp := none }, ts := 0, data := [0x01#8, 0x01#8, 0x00#8, 0x00#8, 0x00#8, 0x00#8, 0x00#8, 0x03#8, 0x00#8, 0x00#8, 0x00#8, 0x02#8, 0x00#8, 0x00#8, 0x00#8, 0x00#8, 0x00#8, 0x02#8, 0x00#8, 0x00#8, 0x00#8, 0x00#8, 0x00#8, 0x00#8, 0x21#8, 0x6f#8, 0x26#8, 0x9c#8, 0x02#8, 0xfe#8, 0x23#8, 0xc8#8, 0x01#8, 0x02#8, 0x03#8, 0x04#8, 0x05#8, 0x06#8, 0x07#8, 0x08#8], buf := none }] } },
    2, ?_⟩,
   ⟨{ mk [(F.ATL_SESS_ROLES_ROLES 1, 4)] with atl := { inq := [{ port := 0, host := false, sess := 1, src := 0, frame := [], md := { egressPort := 1023, queue := 0, mcastGroup := 0, pg := 0, colour := 0, ecnCap := false, drop := false, dropReason := 0, group := 4095, groupHash := 0, trapReason := 0, trapMode := 0, mirror := 0, atoll := false, session := 0, telFlags := 0, parseFail := 15, badFrame := false, egressMeta := 0, flowKey := 0, hostPtp := none }, ts := 0, data := [0x01#8, 0x02#8, 0x00#8, 0x01#8, 0x00#8, 0x02#8, 0x00#8, 0x03#8, 0x00#8, 0x00#8, 0x00#8, 0x00#8, 0x00#8, 0x00#8, 0x00#8, 0x00#8, 0x00#8, 0x02#8, 0x00#8, 0x01#8, 0x00#8, 0x00#8, 0x00#8, 0x00#8, 0x23#8, 0x68#8, 0x25#8, 0xb1#8, 0x60#8, 0x35#8, 0xa1#8, 0x67#8, 0x01#8, 0x02#8, 0x03#8, 0x04#8, 0x05#8, 0x06#8, 0x07#8, 0x08#8], buf := none }] } },
    2, ?_⟩,
   ⟨{ mk [(F.ATL_SESS_ROLES_ROLES 0, 3)] with atl := { inq := [{ port := 0, host := false, sess := 0, src := 0, frame := [], md := { egressPort := 1023, queue := 0, mcastGroup := 0, pg := 0, colour := 0, ecnCap := false, drop := false, dropReason := 0, group := 4095, groupHash := 0, trapReason := 0, trapMode := 0, mirror := 0, atoll := false, session := 0, telFlags := 0, parseFail := 15, badFrame := false, egressMeta := 0, flowKey := 0, hostPtp := none }, ts := 0, data := [0x01#8, 0x03#8, 0x00#8, 0x00#8, 0x00#8, 0x00#8, 0x05#8, 0x03#8, 0x00#8, 0x00#8, 0x00#8, 0x01#8, 0x00#8, 0x00#8, 0x00#8, 0x01#8, 0x00#8, 0x02#8, 0x00#8, 0x00#8, 0x00#8, 0x00#8, 0x00#8, 0x00#8, 0x7a#8, 0xe9#8, 0x5d#8, 0x67#8, 0xea#8, 0xb9#8, 0x28#8, 0xe8#8], buf := none }] } },
    1, ?_⟩,
   ⟨{ mk [(F.ATL_SESS_ROLES_ROLES 1, 2)] with atl := { inq := [{ port := 0, host := false, sess := 1, src := 0, frame := [], md := { egressPort := 1023, queue := 0, mcastGroup := 0, pg := 0, colour := 0, ecnCap := false, drop := false, dropReason := 0, group := 4095, groupHash := 0, trapReason := 0, trapMode := 0, mirror := 0, atoll := false, session := 0, telFlags := 0, parseFail := 15, badFrame := false, egressMeta := 0, flowKey := 0, hostPtp := none }, ts := 0, data := [0x01#8, 0x04#8, 0x00#8, 0x00#8, 0x00#8, 0x01#8, 0x05#8, 0x00#8, 0x00#8, 0x00#8, 0x00#8, 0x02#8, 0x00#8, 0x00#8, 0x00#8, 0x00#8, 0x00#8, 0x02#8, 0x00#8, 0x01#8, 0x00#8, 0x00#8, 0x00#8, 0x00#8, 0x3d#8, 0x72#8, 0xb8#8, 0x86#8, 0x1f#8, 0x59#8, 0xa0#8, 0x08#8], buf := none }] } },
    1, ?_⟩,
   ⟨{ State.reset with atl := { inq := [{ port := 0, host := false, sess := 1, src := 0, frame := [], md := { egressPort := 1023, queue := 0, mcastGroup := 0, pg := 0, colour := 0, ecnCap := false, drop := false, dropReason := 0, group := 4095, groupHash := 0, trapReason := 0, trapMode := 0, mirror := 0, atoll := false, session := 0, telFlags := 0, parseFail := 15, badFrame := false, egressMeta := 0, flowKey := 0, hostPtp := none }, ts := 0, data := [0x01#8, 0x05#8, 0x00#8, 0x01#8, 0x00#8, 0x01#8, 0x05#8, 0x00#8, 0x00#8, 0x00#8, 0x00#8, 0x02#8, 0x00#8, 0x00#8, 0x00#8, 0x00#8, 0x00#8, 0x02#8, 0x00#8, 0x01#8, 0x00#8, 0x00#8, 0x00#8, 0x00#8, 0xd1#8, 0x8a#8, 0x24#8, 0x30#8, 0xd4#8, 0x4e#8, 0xf0#8, 0xae#8, 0x00#8], buf := none }] } },
    0, ?_⟩,
   ⟨{ mk [(F.ATL_SESS_CFG_FORMAT 2, 5), (F.ATL_SESS_ROLES_ROLES 2, 2), (F.ATL_SESS_MEMBERS_COUNT 2, 3), (F.ATL_SESS_STATUS_STATE 2, 2), (F.ATL_MEMBER_KIND 2, 0)] with atl := { sess := [(2, { chunks := [{ opseq := 0, chunk := 0, count := 2, last := false, from_ := [2], acc := [5, -7], code := [1, 1], opened := 1432, deadline := 28432, nacks := 2, sentUp := true, done := false, down := none, pages := 0, buffer := none, lastTick := 3, lead := 4 }, { opseq := 1, chunk := 0, count := 2, last := false, from_ := [], acc := [5, -7], code := [1, 1], opened := 1226, deadline := 1226, nacks := 2, sentUp := false, done := false, down := none, pages := 0, buffer := none, lastTick := 3, lead := 4 }, { opseq := 2, chunk := 1, count := 2, last := false, from_ := [], acc := [5, -7], code := [1, 1], opened := 1603, deadline := 19603, nacks := 1, sentUp := true, done := true, down := none, pages := 0, buffer := none, lastTick := 3, lead := 4 }], stage := [{ opseq := 2, chunk := 1, count := 2, arg := 0, flags := 0, up := false, data := [0x01#8, 0x02#8, 0x03#8] }, { opseq := 2, chunk := 1, count := 2, arg := 0, flags := 0, up := true, data := [0x01#8, 0x02#8, 0x03#8] }], holdOff := [], sentAt := some 6431, job := 0, reserved := 0, released := [] })], inq := [{ port := 3, host := false, sess := 2, src := 0, frame := [], md := { egressPort := 1023, queue := 0, mcastGroup := 0, pg := 0, colour := 0, ecnCap := false, drop := false, dropReason := 0, group := 4095, groupHash := 0, trapReason := 0, trapMode := 0, mirror := 0, atoll := false, session := 0, telFlags := 0, parseFail := 15, badFrame := false, egressMeta := 0, flowKey := 0, hostPtp := none }, ts := 0, data := [0x01#8, 0x01#8, 0x00#8, 0x02#8, 0x00#8, 0x02#8, 0x05#8, 0x00#8, 0x00#8, 0x00#8, 0x00#8, 0x00#8, 0x00#8, 0x00#8, 0x00#8, 0x00#8, 0x00#8, 0x02#8, 0x00#8, 0x01#8, 0x00#8, 0x00#8, 0x00#8, 0x00#8, 0x54#8, 0x77#8, 0xa2#8, 0x0b#8, 0x75#8, 0x45#8, 0x1d#8, 0xbe#8, 0x01#8, 0x02#8, 0x03#8, 0x04#8, 0x05#8, 0x06#8, 0x07#8, 0x08#8], buf := none }] } },
    1, ?_⟩,
   ⟨{ mk [(F.ATL_SESS_MEMBERS_COUNT 1, 3), (F.ATL_SESS_STATUS_STATE 1, 2), (F.ATL_MEMBER_KIND 0, 0)] with atl := { sess := [(1, { chunks := [{ opseq := 0, chunk := 0, count := 2, last := true, from_ := [], acc := [5, -7], code := [1, 1], opened := 384, deadline := 24384, nacks := 1, sentUp := true, done := true, down := none, pages := 0, buffer := none, lastTick := 3, lead := 4 }, { opseq := 1, chunk := 1, count := 2, last := true, from_ := [2], acc := [5, -7], code := [1, 1], opened := 177, deadline := 27177, nacks := 0, sentUp := false, done := true, down := some [0x01#8, 0x02#8, 0x03#8, 0x04#8, 0x05#8, 0x06#8, 0x07#8, 0x08#8], pages := 0, buffer := none, lastTick := 3, lead := 4 }, { opseq := 2, chunk := 0, count := 2, last := false, from_ := [], acc := [5, -7], code := [1, 1], opened := 554, deadline := 15554, nacks := 2, sentUp := true, done := false, down := some [0x01#8, 0x02#8, 0x03#8, 0x04#8, 0x05#8, 0x06#8, 0x07#8, 0x08#8], pages := 0, buffer := none, lastTick := 3, lead := 4 }], stage := [{ opseq := 1, chunk := 0, count := 2, arg := 0, flags := 0, up := false, data := [0x01#8, 0x02#8, 0x03#8] }, { opseq := 2, chunk := 1, count := 2, arg := 0, flags := 0, up := true, data := [0x01#8, 0x02#8, 0x03#8] }], holdOff := [(1, some 8623)], sentAt := some 8623, job := 0, reserved := 0, released := [] })], inq := [{ port := 3, host := false, sess := 1, src := 0, frame := [], md := { egressPort := 1023, queue := 0, mcastGroup := 0, pg := 0, colour := 0, ecnCap := false, drop := false, dropReason := 0, group := 4095, groupHash := 0, trapReason := 0, trapMode := 0, mirror := 0, atoll := false, session := 0, telFlags := 0, parseFail := 15, badFrame := false, egressMeta := 0, flowKey := 0, hostPtp := none }, ts := 0, data := [0x01#8, 0x01#8, 0x00#8, 0x01#8, 0x00#8, 0x00#8, 0x00#8, 0x00#8, 0x00#8, 0x00#8, 0x00#8, 0x01#8, 0x00#8, 0x00#8, 0x00#8, 0x01#8, 0x00#8, 0x02#8, 0x00#8, 0x01#8, 0x00#8, 0x00#8, 0x00#8, 0x00#8, 0x13#8, 0x61#8, 0x2b#8, 0xbc#8, 0x3c#8, 0x43#8, 0xa6#8, 0x2e#8, 0x01#8, 0x02#8, 0x03#8, 0x04#8, 0x05#8, 0x06#8, 0x07#8, 0x08#8], buf := none }] } },
    0, ?_⟩,
   ⟨{ mk [(F.ATL_SESS_CFG_FORMAT 2, 5), (F.ATL_SESS_ROLES_ROLES 1, 3), (F.ATL_SESS_MEMBERS_COUNT 2, 3), (F.ATL_SESS_MEMBERS_BASE 2, 6), (F.ATL_SESS_STATUS_STATE 2, 1), (F.ATL_MEMBER_KIND 6, 0)] with atl := { sess := [(2, { chunks := [{ opseq := 0, chunk := 1, count := 2, last := true, from_ := [1], acc := [5, -7], code := [1, 1], opened := 1419, deadline := 16419, nacks := 0, sentUp := false, done := true, down := some [0x01#8, 0x02#8, 0x03#8, 0x04#8, 0x05#8, 0x06#8, 0x07#8, 0x08#8], pages := 0, buffer := none, lastTick := 3, lead := 4 }, { opseq := 1, chunk := 0, count := 2, last := true, from_ := [], acc := [5, -7], code := [1, 1], opened := 1212, deadline := 19212, nacks := 2, sentUp := true, done := true, down := none, pages := 0, buffer := none, lastTick := 3, lead := 4 }], stage := [], holdOff := [], sentAt := none, job := 0, reserved := 0, released := [] })], inq := [{ port := 3, host := false, sess := 2, src := 0, frame := [], md := { egressPort := 1023, queue := 0, mcastGroup := 0, pg := 0, colour := 0, ecnCap := false, drop := false, dropReason := 0, group := 4095, groupHash := 0, trapReason := 0, trapMode := 0, mirror := 0, atoll := false, session := 0, telFlags := 0, parseFail := 15, badFrame := false, egressMeta := 0, flowKey := 0, hostPtp := none }, ts := 0, data := [0x01#8, 0x01#8, 0x00#8, 0x02#8, 0x00#8, 0x00#8, 0x05#8, 0x00#8, 0x00#8, 0x00#8, 0x00#8, 0x01#8, 0x00#8, 0x00#8, 0x00#8, 0x00#8, 0x00#8, 0x02#8, 0x00#8, 0x01#8, 0x00#8, 0x00#8, 0x00#8, 0x00#8, 0xc1#8, 0x5a#8, 0x10#8, 0x3a#8, 0xa4#8, 0x18#8, 0x6f#8, 0x95#8, 0x01#8, 0x02#8, 0x03#8, 0x04#8, 0x05#8, 0x06#8, 0x07#8, 0x08#8], buf := none }] } },
    0, ?_⟩,
   ⟨{ mk [(F.ATL_SESS_ROLES_ROLES 0, 4), (F.ATL_SESS_MEMBERS_COUNT 0, 3), (F.ATL_SESS_STATUS_STATE 0, 2), (F.ATL_MEMBER_KIND 2, 0)] with atl := { sess := [(0, { chunks := [{ opseq := 0, chunk := 1, count := 2, last := false, from_ := [], acc := [5, -7], code := [1, 1], opened := 2245, deadline := 2245, nacks := 1, sentUp := false, done := false, down := none, pages := 0, buffer := none, lastTick := 3, lead := 4 }, { opseq := 1, chunk := 0, count := 2, last := false, from_ := [1], acc := [5, -7], code := [1, 1], opened := 2038, deadline := 5038, nacks := 0, sentUp := false, done := false, down := none, pages := 0, buffer := none, lastTick := 3, lead := 4 }], stage := [{ opseq := 2, chunk := 0, count := 2, arg := 0, flags := 0, up := false, data := [0x01#8, 0x02#8, 0x03#8] }, { opseq := 2, chunk := 1, count := 2, arg := 0, flags := 0, up := true, data := [0x01#8, 0x02#8, 0x03#8] }], holdOff := [], sentAt := none, job := 0, reserved := 0, released := [] })], inq := [{ port := 3, host := false, sess := 0, src := 0, frame := [], md := { egressPort := 1023, queue := 0, mcastGroup := 0, pg := 0, colour := 0, ecnCap := false, drop := false, dropReason := 0, group := 4095, groupHash := 0, trapReason := 0, trapMode := 0, mirror := 0, atoll := false, session := 0, telFlags := 0, parseFail := 15, badFrame := false, egressMeta := 0, flowKey := 0, hostPtp := none }, ts := 0, data := [0x01#8, 0x01#8, 0x00#8, 0x00#8, 0x00#8, 0x02#8, 0x00#8, 0x00#8, 0x00#8, 0x00#8, 0x00#8, 0x01#8, 0x00#8, 0x00#8, 0x00#8, 0x00#8, 0x00#8, 0x03#8, 0x00#8, 0x02#8, 0x00#8, 0x00#8, 0x00#8, 0x00#8, 0x05#8, 0xce#8, 0x68#8, 0x90#8, 0xe8#8, 0xd0#8, 0x3d#8, 0x87#8, 0x01#8, 0x02#8, 0x03#8, 0x04#8, 0x05#8, 0x06#8, 0x07#8, 0x08#8], buf := none }] } },
    2, ?_⟩,
   ⟨{ mk [(F.ATL_SESS_ROLES_ROLES 0, 4), (F.ATL_SESS_ROOT_PARENT 0, 1), (F.ATL_SESS_STATUS_STATE 0, 2)] with atl := { sess := [(0, { chunks := [{ opseq := 0, chunk := 0, count := 2, last := false, from_ := [0], acc := [5, -7], code := [1, 1], opened := 2482, deadline := 8482, nacks := 0, sentUp := true, done := false, down := none, pages := 0, buffer := none, lastTick := 3, lead := 4 }, { opseq := 1, chunk := 0, count := 2, last := false, from_ := [0], acc := [5, -7], code := [1, 1], opened := 2860, deadline := 26860, nacks := 2, sentUp := true, done := true, down := none, pages := 0, buffer := none, lastTick := 3, lead := 4 }, { opseq := 2, chunk := 1, count := 2, last := false, from_ := [], acc := [5, -7], code := [1, 1], opened := 2653, deadline := 29653, nacks := 2, sentUp := true, done := true, down := none, pages := 0, buffer := none, lastTick := 3, lead := 4 }], stage := [], holdOff := [(1, some 879)], sentAt := some 879, job := 0, reserved := 0, released := [] })], inq := [{ port := 3, host := false, sess := 0, src := 0, frame := [], md := { egressPort := 1023, queue := 0, mcastGroup := 0, pg := 0, colour := 0, ecnCap := false, drop := false, dropReason := 0, group := 4095, groupHash := 0, trapReason := 0, trapMode := 0, mirror := 0, atoll := false, session := 0, telFlags := 0, parseFail := 15, badFrame := false, egressMeta := 0, flowKey := 0, hostPtp := none }, ts := 0, data := [0x01#8, 0x02#8, 0x00#8, 0x00#8, 0x00#8, 0x01#8, 0x00#8, 0x00#8, 0x00#8, 0x00#8, 0x00#8, 0x00#8, 0x00#8, 0x00#8, 0x00#8, 0x00#8, 0x00#8, 0x02#8, 0x00#8, 0x00#8, 0x00#8, 0x00#8, 0x00#8, 0x00#8, 0xfc#8, 0x1b#8, 0x7d#8, 0xdd#8, 0xd1#8, 0xe1#8, 0xb3#8, 0x2d#8, 0x01#8, 0x02#8, 0x03#8, 0x04#8, 0x05#8, 0x06#8, 0x07#8, 0x08#8], buf := none }] } },
    2, ?_⟩⟩ <;> decide +kernel

theorem wit_AtollFrames_2 :
    (∃ (s : State) (r : Fin 32), (s.atlHead r).any (fun x => decide (s.roleTakes r = true ∧ (atlHdr x.data).type = atlNack ∧ (s.updAtl (fun
    a => { a with inq := a.inq.erase x })).atlReject x false = none ∧ x.buf = none ∧ (atlHdr x.data).arg = 2 ∧ ((s.updAtl (fun a => { a with inq := a.inq.erase x })).stagedOf
    (atlHdr x.data) false).isSome = true)) = true) ∧
    (∃ (s : State) (r : Fin 32), (s.atlHead r).any (fun x => decide (s.roleTakes r = true ∧ (atlHdr x.data).type = atlNack ∧ (s.updAtl (fun
    a => { a with inq := a.inq.erase x })).atlReject x false = none ∧ x.buf = none ∧ (atlHdr x.data).arg = 1 ∧ (s.updAtl (fun a => { a with inq := a.inq.erase x })).parent
    (atlHdr x.data).session = some (atlHdr x.data).member ∧ ((s.updAtl (fun a => { a with inq := a.inq.erase x })).stagedOf (atlHdr x.data)
    true).isSome = true)) = true) ∧
    (∃ (s : State) (r : Fin 32), (s.atlHead r).any (fun x => decide (s.roleTakes r = true ∧ (atlHdr x.data).type = atlNack ∧ (s.updAtl (fun
    a => { a with inq := a.inq.erase x })).atlReject x false = none ∧ x.buf = none ∧ (atlHdr x.data).arg = 2 ∧ (s.updAtl (fun a => { a with inq := a.inq.erase x })).stagedOf
    (atlHdr x.data) false = none ∧ (s.updAtl (fun a => { a with inq := a.inq.erase x })).isReleased (atlHdr x.data) = true)) = true) ∧
    (∃ (s : State) (r : Fin 32), (s.atlHead r).any (fun x => decide (s.roleTakes r = true ∧ (atlHdr x.data).type = atlHoldOff ∧ (s.updAtl
    (fun a => { a with inq := a.inq.erase x })).atlReject x false = none ∧ x.buf = none)) = true) ∧
    (∃ (s : State) (r : Fin 32), (s.atlHead r).any (fun x => decide (s.roleTakes r = true ∧ (atlHdr x.data).type = atlAbort ∧ (s.updAtl (fun
    a => { a with inq := a.inq.erase x })).atlReject x false = none ∧ x.buf = none)) = true) ∧
    (∃ (s : State) (r : Fin 32), s.atlHead r = none) ∧
    (∃ (s : State) (r : Fin 32), s.roleTakes r = false) ∧
    (∃ (s : State) (r : Fin 32), (s.atlHead r).any (fun x => decide (s.roleTakes r = true ∧ (atlHdr x.data).type ≠ atlContrib)) = true) ∧
    ∃ (s : State) (r : Fin 32), (s.atlHead r).any (fun x => decide (s.roleTakes r = true ∧ (atlHdr x.data).type ≠ atlAbort)) = true := by
  refine ⟨⟨{ mk [(F.ATL_SESS_CFG_FORMAT 2, 5), (F.ATL_SESS_STATUS_STATE 2, 2)] with atl := { sess := [(2, { chunks := [], stage := [{ opseq := 2, chunk := 0, count := 2, arg := 0, flags := 0, up := false, data := [0x01#8, 0x02#8, 0x03#8] }, { opseq := 2, chunk := 1, count := 2, arg := 0, flags := 0, up := true, data := [0x01#8, 0x02#8, 0x03#8] }], holdOff := [], sentAt := none, job := 0, reserved := 0, released := [] })], inq := [{ port := 0, host := false, sess := 2, src := 0, frame := [], md := { egressPort := 1023, queue := 0, mcastGroup := 0, pg := 0, colour := 0, ecnCap := false, drop := false, dropReason := 0, group := 4095, groupHash := 0, trapReason := 0, trapMode := 0, mirror := 0, atoll := false, session := 0, telFlags := 0, parseFail := 15, badFrame := false, egressMeta := 0, flowKey := 0, hostPtp := none }, ts := 0, data := [0x01#8, 0x03#8, 0x00#8, 0x02#8, 0x00#8, 0x02#8, 0x05#8, 0x00#8, 0x00#8, 0x00#8, 0x00#8, 0x02#8, 0x00#8, 0x00#8, 0x00#8, 0x00#8, 0x00#8, 0x03#8, 0x00#8, 0x02#8, 0x00#8, 0x00#8, 0x00#8, 0x00#8, 0x1e#8, 0x9c#8, 0xa7#8, 0xd5#8, 0xc6#8, 0x2f#8, 0x71#8, 0x7b#8], buf := none }] } },
    0, ?_⟩,
   ⟨{ mk [(F.ATL_SESS_ROLES_ROLES 0, 2), (F.ATL_SESS_ROOT_PARENT 0, 1), (F.ATL_SESS_STATUS_STATE 0, 2)] with atl := { sess := [(0, { chunks := [{ opseq := 0, chunk := 0, count := 2, last := false, from_ := [0], acc := [5, -7], code := [1, 1], opened := 154, deadline := 18154, nacks := 0, sentUp := true, done := false, down := some [0x01#8, 0x02#8, 0x03#8, 0x04#8, 0x05#8, 0x06#8, 0x07#8, 0x08#8], pages := 0, buffer := none, lastTick := 3, lead := 4 }, { opseq := 1, chunk := 0, count := 2, last := false, from_ := [], acc := [5, -7], code := [1, 1], opened := 2948, deadline := 20948, nacks := 0, sentUp := false, done := false, down := none, pages := 0, buffer := none, lastTick := 3, lead := 4 }, { opseq := 2, chunk := 1, count := 2, last := false, from_ := [], acc := [5, -7], code := [1, 1], opened := 325, deadline := 9325, nacks := 2, sentUp := false, done := false, down := none, pages := 0, buffer := none, lastTick := 3, lead := 4 }], stage := [{ opseq := 1, chunk := 0, count := 2, arg := 0, flags := 0, up := false, data := [0x01#8, 0x02#8, 0x03#8] }, { opseq := 2, chunk := 1, count := 2, arg := 0, flags := 0, up := true, data := [0x01#8, 0x02#8, 0x03#8] }], holdOff := [(1, some 5659)], sentAt := some 5659, job := 0, reserved := 0, released := [] })], inq := [{ port := 3, host := false, sess := 0, src := 0, frame := [], md := { egressPort := 1023, queue := 0, mcastGroup := 0, pg := 0, colour := 0, ecnCap := false, drop := false, dropReason := 0, group := 4095, groupHash := 0, trapReason := 0, trapMode := 0, mirror := 0, atoll := false, session := 0, telFlags := 0, parseFail := 15, badFrame := false, egressMeta := 0, flowKey := 0, hostPtp := none }, ts := 0, data := [0x01#8, 0x03#8, 0x00#8, 0x00#8, 0x00#8, 0x01#8, 0x00#8, 0x00#8, 0x00#8, 0x00#8, 0x00#8, 0x02#8, 0x00#8, 0x00#8, 0x00#8, 0x01#8, 0x00#8, 0x02#8, 0x00#8, 0x01#8, 0x00#8, 0x00#8, 0x00#8, 0x00#8, 0x02#8, 0xa6#8, 0x3d#8, 0xca#8, 0x61#8, 0xf9#8, 0xd2#8, 0x0b#8], buf := none }] } },
    1, ?_⟩,
   ⟨{ mk [(F.ATL_SESS_ROLES_ROLES 0, 4), (F.ATL_SESS_STATUS_STATE 0, 2)] with atl := { sess := [(0, { chunks := [{ opseq := 0, chunk := 1, count := 2, last := false, from_ := [], acc := [5, -7], code := [1, 1], opened := 433, deadline := 18433, nacks := 2, sentUp := true, done := true, down := some [0x01#8, 0x02#8, 0x03#8, 0x04#8, 0x05#8, 0x06#8, 0x07#8, 0x08#8], pages := 0, buffer := none, lastTick := 3, lead := 4 }], stage := [{ opseq := 1, chunk := 0, count := 2, arg := 0, flags := 0, up := false, data := [0x01#8, 0x02#8, 0x03#8] }, { opseq := 2, chunk := 1, count := 2, arg := 0, flags := 0, up := true, data := [0x01#8, 0x02#8, 0x03#8] }], holdOff := [], sentAt := some 4825, job := 0, reserved := 0, released := [(2, 0), (0, 0), (1, 1)] })], inq := [{ port := 0, host := false, sess := 0, src := 0, frame := [], md := { egressPort := 1023, queue := 0, mcastGroup := 0, pg := 0, colour := 0, ecnCap := false, drop := false, dropReason := 0, group := 4095, groupHash := 0, trapReason := 0, trapMode := 0, mirror := 0, atoll := false, session := 0, telFlags := 0, parseFail := 15, badFrame := false, egressMeta := 0, flowKey := 0, hostPtp := none }, ts := 0, data := [0x01#8, 0x03#8, 0x00#8, 0x00#8, 0x00#8, 0x01#8, 0x00#8, 0x00#8, 0x00#8, 0x00#8, 0x00#8, 0x00#8, 0x00#8, 0x00#8, 0x00#8, 0x00#8, 0x00#8, 0x02#8, 0x00#8, 0x02#8, 0x00#8, 0x00#8, 0x00#8, 0x00#8, 0x35#8, 0x53#8, 0xea#8, 0x87#8, 0x9b#8, 0x41#8, 0xdd#8, 0x09#8], buf := none }] } },
    2, ?_⟩,
   ⟨{ mk [(F.ATL_SESS_ROLES_ROLES 1, 4), (F.ATL_SESS_STATUS_STATE 0, 2), (F.PORT_CFG_TRUSTED 3, 1)] with atl := { inq := [{ port := 3, host := false, sess := 1, src := 0, frame := [], md := { egressPort := 1023, queue := 0, mcastGroup := 0, pg := 0, colour := 0, ecnCap := false, drop := false, dropReason := 0, group := 4095, groupHash := 0, trapReason := 0, trapMode := 0, mirror := 0, atoll := false, session := 0, telFlags := 0, parseFail := 15, badFrame := false, egressMeta := 0, flowKey := 0, hostPtp := none }, ts := 0, data := [0x01#8, 0x04#8, 0x00#8, 0x00#8, 0x00#8, 0x01#8, 0x00#8, 0x00#8, 0x00#8, 0x00#8, 0x00#8, 0x00#8, 0x00#8, 0x00#8, 0x00#8, 0x00#8, 0x00#8, 0x02#8, 0x00#8, 0x02#8, 0x00#8, 0x00#8, 0x00#8, 0x00#8, 0x1e#8, 0xd2#8, 0x1d#8, 0x31#8, 0x47#8, 0x39#8, 0x1a#8, 0x5e#8], buf := none }] } },
    2, ?_⟩,
   ⟨{ mk [(F.ATL_SESS_CFG_FORMAT 2, 5), (F.ATL_SESS_ROLES_ROLES 2, 3), (F.ATL_SESS_STATUS_STATE 2, 3), (F.PORT_CFG_TRUSTED 3, 1)] with atl := { inq := [{ port := 3, host := false, sess := 2, src := 0, frame := [], md := { egressPort := 1023, queue := 0, mcastGroup := 0, pg := 0, colour := 0, ecnCap := false, drop := false, dropReason := 0, group := 4095, groupHash := 0, trapReason := 0, trapMode := 0, mirror := 0, atoll := false, session := 0, telFlags := 0, parseFail := 15, badFrame := false, egressMeta := 0, flowKey := 0, hostPtp := none }, ts := 0, data := [0x01#8, 0x05#8, 0x00#8, 0x02#8, 0x00#8, 0x00#8, 0x05#8, 0x00#8, 0x00#8, 0x00#8, 0x00#8, 0x02#8, 0x00#8, 0x00#8, 0x00#8, 0x01#8, 0x00#8, 0x03#8, 0x00#8, 0x02#8, 0x00#8, 0x00#8, 0x00#8, 0x00#8, 0xf5#8, 0x04#8, 0x5c#8, 0xb7#8, 0xf1#8, 0x7a#8, 0x16#8, 0x2c#8], buf := none }] } },
    1, ?_⟩,
   ⟨State.reset, 1, ?_⟩,
   ⟨mk [(F.ATL_ENG_STATUS_STATE 0, 3)], 0, ?_⟩,
   ⟨{ mk [(F.ATL_SESS_ROLES_ROLES 1, 4)] with atl := { inq := [{ port := 0, host := false, sess := 1, src := 0, frame := [], md := { egressPort := 1023, queue := 0, mcastGroup := 0, pg := 0, colour := 0, ecnCap := false, drop := false, dropReason := 0, group := 4095, groupHash := 0, trapReason := 0, trapMode := 0, mirror := 0, atoll := false, session := 0, telFlags := 0, parseFail := 15, badFrame := false, egressMeta := 0, flowKey := 0, hostPtp := none }, ts := 0, data := [0x01#8, 0x03#8, 0x00#8, 0x01#8, 0x00#8, 0x02#8, 0x00#8, 0x00#8, 0x00#8, 0x00#8, 0x00#8, 0x02#8, 0x00#8, 0x00#8, 0x00#8, 0x00#8, 0x00#8, 0x02#8, 0x00#8, 0x00#8, 0x00#8, 0x00#8, 0x00#8, 0x00#8, 0x23#8, 0x68#8, 0x25#8, 0xb1#8, 0x65#8, 0xfc#8, 0x17#8, 0xb8#8, 0x00#8], buf := none }] } },
    2, ?_⟩,
   ⟨{ mk [(F.ATL_SESS_ROLES_ROLES 1, 4)] with atl := { inq := [{ port := 0, host := false, sess := 1, src := 0, frame := [], md := { egressPort := 1023, queue := 0, mcastGroup := 0, pg := 0, colour := 0, ecnCap := false, drop := false, dropReason := 0, group := 4095, groupHash := 0, trapReason := 0, trapMode := 0, mirror := 0, atoll := false, session := 0, telFlags := 0, parseFail := 15, badFrame := false, egressMeta := 0, flowKey := 0, hostPtp := none }, ts := 0, data := [0x01#8, 0x03#8, 0x00#8, 0x01#8, 0x00#8, 0x02#8, 0x00#8, 0x00#8, 0x00#8, 0x00#8, 0x00#8, 0x02#8, 0x00#8, 0x00#8, 0x00#8, 0x00#8, 0x00#8, 0x02#8, 0x00#8, 0x00#8, 0x00#8, 0x00#8, 0x00#8, 0x00#8, 0x23#8, 0x68#8, 0x25#8, 0xb1#8, 0x65#8, 0xfc#8, 0x17#8, 0xb8#8, 0x00#8], buf := none }] } },
    2, ?_⟩⟩ <;> decide +kernel

theorem wit_AtollTimers :
    (∃ (s : State) (n : Fin 4096), ((s.sess n).chunks.find? (fun c => c.done)).any (fun c => decide (c.down = none)) = true) ∧
    (∃ (s : State) (n : Fin 4096), ((s.sess n).chunks.find? (fun c => c.done)).isSome = true ∧ s.sessState n = 2) ∧
    (∃ (s : State) (n : Fin 4096), ((s.sess n).chunks.find? (fun c => c.done)).any (fun c => decide ((c.down).any (fun d => decide (d ≠ []))
    = true)) = true) ∧
    (∃ (s : State) (n : Fin 4096) (o : BitVec 32) (k : BitVec 32), ((s.sess n).chunks.find? (fun c => c.opseq = o.toNat && c.chunk =
    k.toNat)).any (fun c => decide (c.deadline ≤ s.now)) = true) ∧
    (∃ (s : State) (n : Fin 4096) (o : BitVec 32) (k : BitVec 32), ((s.sess n).chunks.find? (fun c => c.opseq = o.toNat && c.chunk =
    k.toNat)).any (fun c => decide ((c.nacks + 1) * s.nackDelay ≤ s.now - c.opened ∧ c.sentUp = false)) = true) ∧
    (∃ (s : State) (n : Fin 4096) (o : BitVec 32) (k : BitVec 32), ((s.sess n).chunks.find? (fun c => c.opseq = o.toNat && c.chunk =
    k.toNat)).any (fun c => decide ((c.nacks + 1) * s.nackDelay ≤ s.now - c.opened ∧ c.sentUp = true ∧ c.down = none ∧ (s.parent n).any (fun
    p => decide (s.heldOff n p = false)) = true)) = true) ∧
    (∃ (s : State) (n : Fin 4096), s.sessState n ≠ 2) ∧
    (∃ (s : State) (n : Fin 4096), s.sessState n = 2 ∧ s.on F.ATL_STATUS_HOLDING_OFF = true ∧ (s.sess n).sentAt = none) ∧
    (∃ (s : State) (e : Fin 36), s.rd (F.ATL_ENG_STATUS_STATE e) = 0 ∧ s.scopeBusy 5 e = false ∧ (s.reserveEngine (engineDie e)).isSome =
    true) ∧
    ∃ (s : State) (e : Fin 36), s.rd (F.ATL_ENG_STATUS_STATE e) = 2 ∧ (s.reserveEngine (engineDie e)).isSome = true := by
  refine ⟨⟨{ State.reset with atl := { sess := [(1, { chunks := [{ opseq := 0, chunk := 0, count := 2, last := true, from_ := [], acc := [5, -7], code := [1, 1], opened := 2316, deadline := 29316, nacks := 2, sentUp := false, done := true, down := none, pages := 0, buffer := none, lastTick := 3, lead := 4 }, { opseq := 1, chunk := 1, count := 2, last := false, from_ := [0], acc := [5, -7], code := [1, 1], opened := 2693, deadline := 17693, nacks := 1, sentUp := true, done := false, down := none, pages := 0, buffer := none, lastTick := 3, lead := 4 }, { opseq := 2, chunk := 1, count := 2, last := true, from_ := [1], acc := [5, -7], code := [1, 1], opened := 2487, deadline := 20487, nacks := 1, sentUp := false, done := false, down := some [0x01#8, 0x02#8, 0x03#8, 0x04#8, 0x05#8, 0x06#8, 0x07#8, 0x08#8], pages := 0, buffer := none, lastTick := 3, lead := 4 }], stage := [], holdOff := [(1, some 2763)], sentAt := some 2763, job := 0, reserved := 0, released := [] })] } },
    1, ?_⟩,
   ⟨{ mk [(F.ATL_SESS_STATUS_STATE 1, 2)] with atl := { sess := [(1, { chunks := [{ opseq := 0, chunk := 0, count := 2, last := true, from_ := [], acc := [5, -7], code := [1, 1], opened := 2316, deadline := 29316, nacks := 2, sentUp := false, done := true, down := none, pages := 0, buffer := none, lastTick := 3, lead := 4 }, { opseq := 1, chunk := 1, count := 2, last := false, from_ := [0], acc := [5, -7], code := [1, 1], opened := 2693, deadline := 17693, nacks := 1, sentUp := true, done := false, down := none, pages := 0, buffer := none, lastTick := 3, lead := 4 }, { opseq := 2, chunk := 1, count := 2, last := true, from_ := [1], acc := [5, -7], code := [1, 1], opened := 2487, deadline := 20487, nacks := 1, sentUp := false, done := false, down := some [0x01#8, 0x02#8, 0x03#8, 0x04#8, 0x05#8, 0x06#8, 0x07#8, 0x08#8], pages := 0, buffer := none, lastTick := 3, lead := 4 }], stage := [], holdOff := [(1, some 2763)], sentAt := some 2763, job := 0, reserved := 0, released := [] })] } },
    1, ?_⟩,
   ⟨{ State.reset with atl := { sess := [(2, { chunks := [{ opseq := 0, chunk := 0, count := 2, last := false, from_ := [2], acc := [5, -7], code := [1, 1], opened := 1882, deadline := 7882, nacks := 1, sentUp := true, done := true, down := some [0x01#8, 0x02#8, 0x03#8, 0x04#8, 0x05#8, 0x06#8, 0x07#8, 0x08#8], pages := 0, buffer := none, lastTick := 3, lead := 4 }, { opseq := 1, chunk := 0, count := 2, last := false, from_ := [], acc := [5, -7], code := [1, 1], opened := 1676, deadline := 10676, nacks := 1, sentUp := false, done := true, down := some [0x01#8, 0x02#8, 0x03#8, 0x04#8, 0x05#8, 0x06#8, 0x07#8, 0x08#8], pages := 0, buffer := none, lastTick := 3, lead := 4 }, { opseq := 2, chunk := 1, count := 2, last := false, from_ := [0], acc := [5, -7], code := [1, 1], opened := 1469, deadline := 13469, nacks := 0, sentUp := false, done := true, down := some [0x01#8, 0x02#8, 0x03#8, 0x04#8, 0x05#8, 0x06#8, 0x07#8, 0x08#8], pages := 0, buffer := none, lastTick := 3, lead := 4 }], stage := [{ opseq := 1, chunk := 0, count := 2, arg := 0, flags := 0, up := false, data := [0x01#8, 0x02#8, 0x03#8] }, { opseq := 2, chunk := 1, count := 2, arg := 0, flags := 0, up := true, data := [0x01#8, 0x02#8, 0x03#8] }], holdOff := [], sentAt := some 535, job := 0, reserved := 0, released := [] })] } },
    2, ?_⟩,
   ⟨{ mk [(F.LIGHT_TICKS_TICKS, 27000)] with atl := { sess := [(1, { chunks := [{ opseq := 0, chunk := 1, count := 2, last := true, from_ := [2], acc := [5, -7], code := [1, 1], opened := 1827, deadline := 16827, nacks := 1, sentUp := false, done := false, down := some [0x01#8, 0x02#8, 0x03#8, 0x04#8, 0x05#8, 0x06#8, 0x07#8, 0x08#8], pages := 0, buffer := none, lastTick := 3, lead := 4 }], stage := [{ opseq := 2, chunk := 1, count := 2, arg := 0, flags := 0, up := false, data := [0x01#8, 0x02#8, 0x03#8] }, { opseq := 2, chunk := 1, count := 2, arg := 0, flags := 0, up := true, data := [0x01#8, 0x02#8, 0x03#8] }], holdOff := [(1, some 1349)], sentAt := some 1349, job := 0, reserved := 0, released := [] })] } },
    1, 0x00000000#32, 0x00000001#32, ?_⟩,
   ⟨{ mk [(F.LIGHT_TICKS_TICKS, 170009000)] with atl := { sess := [(2, { chunks := [{ opseq := 0, chunk := 1, count := 2, last := false, from_ := [1], acc := [5, -7], code := [1, 1], opened := 1985, deadline := 7985, nacks := 1, sentUp := false, done := false, down := some [0x01#8, 0x02#8, 0x03#8, 0x04#8, 0x05#8, 0x06#8, 0x07#8, 0x08#8], pages := 0, buffer := none, lastTick := 3, lead := 4 }, { opseq := 1, chunk := 1, count := 2, last := true, from_ := [2], acc := [5, -7], code := [1, 1], opened := 1779, deadline := 10779, nacks := 1, sentUp := false, done := false, down := none, pages := 0, buffer := none, lastTick := 3, lead := 4 }, { opseq := 2, chunk := 0, count := 2, last := true, from_ := [], acc := [5, -7], code := [1, 1], opened := 1572, deadline := 13572, nacks := 0, sentUp := true, done := false, down := none, pages := 0, buffer := none, lastTick := 3, lead := 4 }], stage := [], holdOff := [], sentAt := some 7791, job := 0, reserved := 0, released := [] })] } },
    2, 0x00000000#32, 0x00000001#32, ?_⟩,
   ⟨{ mk [(F.LIGHT_TICKS_TICKS, 170009000), (F.ATL_SESS_ROOT_PARENT 2, 1)] with atl := { sess := [(2, { chunks := [{ opseq := 0, chunk := 1, count := 2, last := false, from_ := [1], acc := [5, -7], code := [1, 1], opened := 1985, deadline := 7985, nacks := 1, sentUp := false, done := false, down := some [0x01#8, 0x02#8, 0x03#8, 0x04#8, 0x05#8, 0x06#8, 0x07#8, 0x08#8], pages := 0, buffer := none, lastTick := 3, lead := 4 }, { opseq := 1, chunk := 1, count := 2, last := true, from_ := [2], acc := [5, -7], code := [1, 1], opened := 1779, deadline := 10779, nacks := 1, sentUp := false, done := false, down := none, pages := 0, buffer := none, lastTick := 3, lead := 4 }, { opseq := 2, chunk := 0, count := 2, last := true, from_ := [], acc := [5, -7], code := [1, 1], opened := 1572, deadline := 13572, nacks := 0, sentUp := true, done := false, down := none, pages := 0, buffer := none, lastTick := 3, lead := 4 }], stage := [], holdOff := [], sentAt := some 7791, job := 0, reserved := 0, released := [] })] } },
    2, 0x00000002#32, 0x00000000#32, ?_⟩,
   ⟨State.reset, 1, ?_⟩,
   ⟨mk [(F.ATL_SESS_STATUS_STATE 1, 2), (F.ATL_STATUS_HOLDING_OFF, 1)], 1, ?_⟩,
   ⟨State.reset, 1, ?_⟩,
   ⟨mk [(F.ATL_ENG_STATUS_STATE 2, 2)], 2, ?_⟩⟩ <;> decide +kernel

theorem wit_AtollTimers_2 :
    (∃ (s : State) (e : Fin 36), s.rd (F.ATL_ENG_STATUS_STATE e) = 0) ∧
    (∃ (s : State) (e : Fin 36), s.rd (F.ATL_ENG_STATUS_STATE e) = 0 ∧ (s.reserveEngine (engineDie e)).isSome = true) ∧
    (∃ (s : State) (e : Fin 36), s.rd (F.ATL_ENG_STATUS_STATE e) = 0 ∧ s.reserveEngine (engineDie e) = none) ∧
    (∃ (s : State) (n : Fin 4096), (s.sess n).chunks.find? (fun c => c.done) = none) ∧
    (∃ (s : State) (n : Fin 4096) (o : BitVec 32) (k : BitVec 32), (s.sess n).chunks.find? (fun c => c.opseq = o.toNat && c.chunk = k.toNat)
    = none) ∧
    (∃ (s : State) (n : Fin 4096) (o : BitVec 32) (k : BitVec 32), ((s.sess n).chunks.find? (fun c => c.opseq = o.toNat && c.chunk =
    k.toNat)).any (fun c => decide (s.now < c.deadline)) = true) ∧
    (∃ (s : State) (n : Fin 4096) (o : BitVec 32) (k : BitVec 32), ((s.sess n).chunks.find? (fun c => c.opseq = o.toNat && c.chunk =
    k.toNat)).any (fun c => decide (s.now - c.opened < (c.nacks + 1) * s.nackDelay)) = true) ∧
    (∃ (s : State) (n : Fin 4096), s.sessState n = 2 ∧ ((s.sess n).sentAt).any (fun a => decide (s.now - a < s.holdOffPeriod ∧ s.on
    F.ATL_STATUS_HOLDING_OFF = true)) = true) ∧
    ∃ (s : State) (e : Fin 36), (s.rd (F.ATL_ENG_STATUS_STATE e) = 1 ∨ s.rd (F.ATL_ENG_STATUS_STATE e) = 3) := by
  refine ⟨⟨State.reset, 1, ?_⟩,
   ⟨State.reset, 1, ?_⟩,
   ⟨mk [(F.ATL_ENG_STATUS_STATE 32, 3), (F.ATL_ENG_STATUS_STATE 33, 3)], 2, ?_⟩,
   ⟨State.reset, 2, ?_⟩,
   ⟨State.reset, 2, 0x00000001#32, 0x00000002#32, ?_⟩,
   ⟨{ State.reset with atl := { sess := [(2, { chunks := [{ opseq := 0, chunk := 1, count := 2, last := false, from_ := [], acc := [5, -7], code := [1, 1], opened := 1723, deadline := 16723, nacks := 0, sentUp := true, done := true, down := some [0x01#8, 0x02#8, 0x03#8, 0x04#8, 0x05#8, 0x06#8, 0x07#8, 0x08#8], pages := 0, buffer := none, lastTick := 3, lead := 4 }, { opseq := 1, chunk := 0, count := 2, last := false, from_ := [1], acc := [5, -7], code := [1, 1], opened := 1516, deadline := 19516, nacks := 0, sentUp := false, done := true, down := some [0x01#8, 0x02#8, 0x03#8, 0x04#8, 0x05#8, 0x06#8, 0x07#8, 0x08#8], pages := 0, buffer := none, lastTick := 3, lead := 4 }, { opseq := 2, chunk := 1, count := 2, last := false, from_ := [], acc := [5, -7], code := [1, 1], opened := 1309, deadline := 22309, nacks := 2, sentUp := false, done := true, down := some [0x01#8, 0x02#8, 0x03#8, 0x04#8, 0x05#8, 0x06#8, 0x07#8, 0x08#8], pages := 0, buffer := none, lastTick := 3, lead := 4 }], stage := [{ opseq := 1, chunk := 0, count := 2, arg := 0, flags := 0, up := false, data := [0x01#8, 0x02#8, 0x03#8] }, { opseq := 2, chunk := 1, count := 2, arg := 0, flags := 0, up := true, data := [0x01#8, 0x02#8, 0x03#8] }], holdOff := [(1, some 2263)], sentAt := some 2263, job := 0, reserved := 0, released := [] })] } },
    2, 0x00000001#32, 0x00000000#32, ?_⟩,
   ⟨{ State.reset with atl := { sess := [(1, { chunks := [{ opseq := 0, chunk := 1, count := 2, last := true, from_ := [2], acc := [5, -7], code := [1, 1], opened := 1827, deadline := 16827, nacks := 1, sentUp := false, done := false, down := some [0x01#8, 0x02#8, 0x03#8, 0x04#8, 0x05#8, 0x06#8, 0x07#8, 0x08#8], pages := 0, buffer := none, lastTick := 3, lead := 4 }], stage := [{ opseq := 2, chunk := 1, count := 2, arg := 0, flags := 0, up := false, data := [0x01#8, 0x02#8, 0x03#8] }, { opseq := 2, chunk := 1, count := 2, arg := 0, flags := 0, up := true, data := [0x01#8, 0x02#8, 0x03#8] }], holdOff := [(1, some 1349)], sentAt := some 1349, job := 0, reserved := 0, released := [] })] } },
    1, 0x00000000#32, 0x00000001#32, ?_⟩,
   ⟨{ mk [(F.ATL_SESS_STATUS_STATE 2, 2), (F.ATL_STATUS_HOLDING_OFF, 1)] with atl := { sess := [(2, { chunks := [{ opseq := 0, chunk := 1, count := 2, last := false, from_ := [], acc := [5, -7], code := [1, 1], opened := 1723, deadline := 16723, nacks := 0, sentUp := true, done := true, down := some [0x01#8, 0x02#8, 0x03#8, 0x04#8, 0x05#8, 0x06#8, 0x07#8, 0x08#8], pages := 0, buffer := none, lastTick := 3, lead := 4 }, { opseq := 1, chunk := 0, count := 2, last := false, from_ := [1], acc := [5, -7], code := [1, 1], opened := 1516, deadline := 19516, nacks := 0, sentUp := false, done := true, down := some [0x01#8, 0x02#8, 0x03#8, 0x04#8, 0x05#8, 0x06#8, 0x07#8, 0x08#8], pages := 0, buffer := none, lastTick := 3, lead := 4 }, { opseq := 2, chunk := 1, count := 2, last := false, from_ := [], acc := [5, -7], code := [1, 1], opened := 1309, deadline := 22309, nacks := 2, sentUp := false, done := true, down := some [0x01#8, 0x02#8, 0x03#8, 0x04#8, 0x05#8, 0x06#8, 0x07#8, 0x08#8], pages := 0, buffer := none, lastTick := 3, lead := 4 }], stage := [{ opseq := 1, chunk := 0, count := 2, arg := 0, flags := 0, up := false, data := [0x01#8, 0x02#8, 0x03#8] }, { opseq := 2, chunk := 1, count := 2, arg := 0, flags := 0, up := true, data := [0x01#8, 0x02#8, 0x03#8] }], holdOff := [(1, some 2263)], sentAt := some 2263, job := 0, reserved := 0, released := [] })] } },
    2, ?_⟩,
   ⟨mk [(F.ATL_ENG_STATUS_STATE 0, 1)], 0, ?_⟩⟩ <;> decide +kernel

theorem wit_TelemetryExport :
    (∃ (s : State) (c : Fin 16) (ty : Fin 5), (mget s.tel.frames (key2 c ty) []).head?.any (fun f => decide ((recLimit ty ≤ f.recs.length ∨
    16000 ≤ s.now - f.since) ∧ s.rd (F.TEL_COLLECTOR_PORT c) ≥ 512)) = true) ∧
    (∃ (s : State) (c : Fin 16) (ty : Fin 5), (mget s.tel.frames (key2 c ty) []).head?.any (fun f => decide ((recLimit ty ≤ f.recs.length ∨
    16000 ≤ s.now - f.since))) = true) ∧
    (∃ (s : State) (c : Fin 16), 1600 ≤ s.now - s.ranAt .collector c) ∧
    (∃ (s : State) (die : Fin 2) (key : BitVec 64), (s.flowGet die key.toNat).any (fun r => decide (((s.rd F.TEL_FLOW_CFG_IDLE ≠ 0 && flowNs
    s.flowTime - flowNs r.last ≥ s.rd F.TEL_FLOW_CFG_IDLE * 1000000000)) = true)) = true) ∧
    (∃ (s : State) (die : Fin 2) (key : BitVec 64), (s.flowGet die key.toNat).any (fun r => decide (((s.rd F.TEL_FLOW_CFG_IDLE ≠ 0 && flowNs
    s.flowTime - flowNs r.last ≥ s.rd F.TEL_FLOW_CFG_IDLE * 1000000000)) = false ∧ ((s.rd F.TEL_FLOW_CFG_ACTIVE ≠ 0 && flowNs s.flowTime -
    flowNs r.first > s.rd F.TEL_FLOW_CFG_ACTIVE * 1000000000)) = true ∧ (mget s.tel.flows (flowIx die key.toNat) none).any (fun e => decide
    (e.cached = some r)) = true)) = true) ∧
    (∃ (s : State) (die : Fin 2) (key : BitVec 64), (s.flowGet die key.toNat).any (fun r => decide (((s.rd F.TEL_FLOW_CFG_IDLE ≠ 0 && flowNs
    s.flowTime - flowNs r.last ≥ s.rd F.TEL_FLOW_CFG_IDLE * 1000000000)) = false ∧ ((s.rd F.TEL_FLOW_CFG_ACTIVE ≠ 0 && flowNs s.flowTime -
    flowNs r.first > s.rd F.TEL_FLOW_CFG_ACTIVE * 1000000000)) = true ∧ (mget s.tel.flows (flowIx die key.toNat) none).any (fun e => decide
    (e.cached = none ∧ (s.flowStack).isSome = true)) = true)) = true) ∧
    (∃ (s : State) (q : Requester), s.grants q false = true ∧ ((s.flowGet 0 (s.rd F.TEL_FLOW_RD_KEY_KEY)).orElse (fun _ => s.flowGet 1 (s.rd
    F.TEL_FLOW_RD_KEY_KEY))) = none) ∧
    (∃ (s : State) (q : Requester), s.grants q false = true ∧ (((s.flowGet 0 (s.rd F.TEL_FLOW_RD_KEY_KEY)).orElse (fun _ => s.flowGet 1
    (s.rd F.TEL_FLOW_RD_KEY_KEY)))).isSome = true) ∧
    (∃ (s : State) (c : Fin 16) (ty : Fin 5), mget s.tel.frames (key2 c ty) [] = []) ∧
    ∃ (s : State) (c : Fin 16) (ty : Fin 5), (mget s.tel.frames (key2 c ty) []).head?.any (fun f => decide (f.recs.length < recLimit ty ∧
    s.now - f.since < 16000)) = true := by
  refine ⟨⟨{ mk [(F.TEL_COLLECTOR_PORT 0, 1023)] with tel := { frames := [(9, [{ recs := [[0x01#8, 0x02#8], [0x01#8, 0x02#8], [0x01#8, 0x02#8], [0x01#8, 0x02#8], [0x01#8, 0x02#8], [0x01#8, 0x02#8], [0x01#8, 0x02#8], [0x01#8, 0x02#8], [0x01#8, 0x02#8], [0x01#8, 0x02#8], [0x01#8, 0x02#8], [0x01#8, 0x02#8], [0x01#8, 0x02#8], [0x01#8, 0x02#8], [0x01#8, 0x02#8], [0x01#8, 0x02#8], [0x01#8, 0x02#8], [0x01#8, 0x02#8]], since := 267 }, { recs := [[0x03#8]], since := 0 }])] } },
    0, 3, ?_⟩,
   ⟨{ State.reset with tel := { frames := [(9, [{ recs := [[0x01#8, 0x02#8], [0x01#8, 0x02#8], [0x01#8, 0x02#8], [0x01#8, 0x02#8], [0x01#8, 0x02#8], [0x01#8, 0x02#8], [0x01#8, 0x02#8], [0x01#8, 0x02#8], [0x01#8, 0x02#8], [0x01#8, 0x02#8], [0x01#8, 0x02#8], [0x01#8, 0x02#8], [0x01#8, 0x02#8], [0x01#8, 0x02#8], [0x01#8, 0x02#8], [0x01#8, 0x02#8], [0x01#8, 0x02#8], [0x01#8, 0x02#8], [0x01#8, 0x02#8]], since := 8977 }, { recs := [[0x03#8]], since := 0 }])] } },
    0, 3, ?_⟩,
   ⟨mk [(F.LIGHT_TICKS_TICKS, 27000)], 0, ?_⟩,
   ⟨{ mk [(F.TEL_FLOW_CFG_IDLE, 1)] with domA := { sec := 4 }, tel := { flows := [(2, some { way := 1, cached := some { packets := 888995249, bytes := 888995249, first := 1073741824, last := 1073741824, maxLat := 888995249, outPort := 1, inPort := 2 } })] } },
    1, 0x0000000000000000#64, ?_⟩,
   ⟨{ mk [(F.TEL_FLOW_CFG_ACTIVE, 2)] with domA := { sec := 4 }, tel := { flows := [(1, some { way := 1, cached := some { packets := 2074322249, bytes := 2074322249, first := 1073741824, last := 4294967296, maxLat := 2074322249, outPort := 1, inPort := 2 } })] } },
    0, 0x0000000000000001#64, ?_⟩,
   ⟨{ mk [(F.BPM_REGION_SIZE 7, 64), (F.TEL_FLOW_CFG_ACTIVE, 1)] with domA := { sec := 3 }, tel := { flows := [(0, some { way := 0, cached := none })] } },
    0, 0x0000000000000000#64, ?_⟩,
   ⟨mk [(F.BOOT_STATUS_STAGE, 6)], .pf0, ?_⟩,
   ⟨{ mk [(F.BOOT_STATUS_STAGE, 6)] with tel := { flows := [(2, some { way := 3, cached := some { packets := 143069831, bytes := 143069831, first := 2147483648, last := 2147483648, maxLat := 143069831, outPort := 1, inPort := 2 } })] } },
    .pf0, ?_⟩,
   ⟨State.reset, 0, 4, ?_⟩,
   ⟨{ State.reset with tel := { frames := [(0, [{ recs := [[0x01#8, 0x02#8], [0x01#8, 0x02#8], [0x01#8, 0x02#8], [0x01#8, 0x02#8]], since := 819 }])] } },
    0, 0, ?_⟩⟩ <;> decide +kernel

theorem wit_TelemetryExport_2 :
    (∃ (s : State) (c : Fin 16), s.now - s.ranAt .collector c < 1600) ∧
    (∃ (s : State) (die : Fin 2) (key : BitVec 64), s.flowGet die key.toNat = none) ∧
    ∃ (s : State) (die : Fin 2) (key : BitVec 64), (s.flowGet die key.toNat).any (fun r => decide (((s.rd F.TEL_FLOW_CFG_IDLE ≠ 0 && flowNs
    s.flowTime - flowNs r.last ≥ s.rd F.TEL_FLOW_CFG_IDLE * 1000000000)) = false ∧ ((s.rd F.TEL_FLOW_CFG_ACTIVE ≠ 0 && flowNs s.flowTime -
    flowNs r.first > s.rd F.TEL_FLOW_CFG_ACTIVE * 1000000000)) = false)) = true := by
  refine ⟨⟨State.reset, 0, ?_⟩,
   ⟨State.reset, 1, 0x0000000000000002#64, ?_⟩,
   ⟨{ State.reset with tel := { flows := [(2, some { way := 3, cached := some { packets := 143069831, bytes := 143069831, first := 2147483648, last := 2147483648, maxLat := 143069831, outPort := 1, inPort := 2 } })] } },
    1, 0x0000000000000000#64, ?_⟩⟩ <;> decide +kernel

theorem wit_CountersAndDumps :
    (∃ (s : State) (q : Requester), s.grants q false = true) ∧
    (∃ (s : State) (f : Fin 32) (n : Fin 1088) (v : BitVec 32), f.val ≠ 0 ∧ s.pageOf f (n / 16) = true ∧ (bit v.toNat 3 = false ∨ s.rd
    (F.HARB_RX_CFG_OWNER (bits v.toNat 4 6)) = f)) ∧
    (∃ (s : State) (q : Requester) (f : Fin 32), s.grants q false = true ∧ viaEth q = false ∧ f.val ≠ 0) ∧
    (∃ (s : State), s.on F.CNT_DUMP_CFG_EN = true ∧ s.on F.CNT_DUMP_CFG_SOURCE = false ∧ s.on F.CNT_DUMP_CFG_ALIGN = false ∧ s.dumpPeriod *
    160000 ≤ s.now - max s.dumpFrom (s.ranAt .dump 0)) ∧
    (∃ (s : State), (s.dump).isSome = true) ∧
    (∃ (s : State) (f : Fin 32) (n : Fin 1088), (f.val = 0 ∨ s.pageOf f (n / 16) = false)) ∧
    (∃ (s : State) (f : Fin 32) (n : Fin 1088) (v : BitVec 32), f.val ≠ 0 ∧ s.pageOf f (n / 16) = true ∧ bit v.toNat 3 = true ∧ s.rd
    (F.HARB_RX_CFG_OWNER (bits v.toNat 4 6)) ≠ f) ∧
    (∃ (s : State), (s.on F.CNT_DUMP_CFG_EN = false ∨ s.on F.CNT_DUMP_CFG_SOURCE = true)) ∧
    (∃ (s : State), s.on F.CNT_DUMP_CFG_EN = true ∧ s.on F.CNT_DUMP_CFG_SOURCE = false ∧ s.on F.CNT_DUMP_CFG_ALIGN = false ∧ s.now - max
    s.dumpFrom (s.ranAt .dump 0) < s.dumpPeriod * 160000) ∧
    ∃ (s : State), s.dump = none := by
  refine ⟨⟨mk [(F.BOOT_STATUS_STAGE, 6)], .dysEth 1, ?_⟩,
   ⟨mk [(F.CNT_USER_PAGES_MASK 3, 1)], 1, 14, 0xf30d7104#32, ?_⟩,
   ⟨State.reset, .regInit, 2, ?_⟩,
   ⟨mk [(F.LIGHT_TICKS_TICKS, 170027000), (F.CNT_DUMP_CFG_EN, 1), (F.CNT_DUMP_CFG_ALIGN, 0), (F.CNT_DUMP_PERIOD_PERIOD, 0)], ?_⟩,
   ⟨{ State.reset with dump := some { seq := 1, sets := 0, flags := 0, sec := 4, ns := 5, frac := 6, ticks := 7, missed := 8, regs := [], hist := [] } },
    ?_⟩,
   ⟨State.reset, 1, 35, ?_⟩,
   ⟨mk [(F.CNT_USER_PAGES_MASK 3, 4294967295)], 1, 6, 0xc3cc020d#32, ?_⟩,
   ⟨State.reset, ?_⟩,
   ⟨mk [(F.CNT_DUMP_CFG_EN, 1), (F.CNT_DUMP_CFG_ALIGN, 0)], ?_⟩,
   ⟨State.reset, ?_⟩⟩ <;> decide +kernel

theorem wit_LaneStates :
    (∃ (s : State) (l : Fin 544), s.laneState l = 0 ∧ s.rd (F.LANE_CTL_MODE l) ≠ 0) ∧
    (∃ (s : State) (l : Fin 544), (s.laneState l ≠ 0 ∨ s.rd (F.LANE_CTL_MODE l) = 0)) ∧
    (∃ (s : State) (l : Fin 544), s.laneState l = 5) ∧
    (∃ (s : State) (l : Fin 544), s.laneState l ≠ 5 ∧ s.laneState l ≠ 3 ∧ s.laneState l ≠ 4) ∧
    (∃ (s : State) (l : Fin 544) (head : List (Fin 6)), s.laneState l = 2 ∧ s.rd (F.LANE_CTL_MODE l) = 1 ∧ trainingRead (head.map Fin.val) =
    none) ∧
    (∃ (s : State) (l : Fin 544) (head : List (Fin 6)) (control : _) (status : _) (check : _), s.laneState l = 2 ∧ s.rd (F.LANE_CTL_MODE l)
    = 1 ∧ trainingRead (head.map Fin.val) = some (control, status, check) ∧ crc8 control status ≠ check) ∧
    (∃ (s : State) (l : Fin 544) (k : Fin 6), (s.carried l).any (fun p => decide (s.laneState l = 2 ∧ s.rd (F.LANE_CTL_MODE l) ≠ 1 ∧ s.rd
    (F.PORT_CFG_PMD p) ≤ 1 ∧ s.on (F.LANE_TX_TAP_PIN (6 * l + k)) = true)) = true) ∧
    (∃ (s : State) (l : Fin 544) (k : Fin 6) (up : Bool), (s.carried l).any (fun p => decide (s.laneState l = 2 ∧ s.rd (F.LANE_CTL_MODE l) ≠
    1 ∧ s.rd (F.PORT_CFG_PMD p) ≤ 1 ∧ s.on (F.LANE_TX_TAP_PIN (6 * l + k)) = false ∧ s.tapMin l k ≤ ((s.taps l).getD k 0 + (if up then 1
    else -1)) ∧ ((s.taps l).getD k 0 + (if up then 1 else -1)) ≤ s.tapMax l k ∧ tapsLegal ((s.taps l).set k ((s.taps l).getD k 0 + (if up
    then 1 else -1))) = true)) = true) ∧
    (∃ (s : State) (l : Fin 544), s.laneState l = 2 ∧ max 1 (s.rd (F.LANE_TRAIN_TIMEOUT l)) * 1600000 ≤ s.now - (mget s.laneX l {}).trainAt)
    ∧
    ∃ (s : State) (l : Fin 544), (s.laneState l = 1 ∨ s.laneState l = 5) := by
  refine ⟨⟨mk [(F.LANE_CTL_MODE 4, 1)], 4, ?_⟩,
   ⟨State.reset, 2, ?_⟩,
   ⟨mk [(F.LANE_STATUS_STATE 0, 5)], 0, ?_⟩,
   ⟨State.reset, 4, ?_⟩,
   ⟨mk [(F.LANE_CTL_MODE 1, 1), (F.LANE_STATUS_STATE 1, 2)], 1, [3, 3, 3, 3, 3, 3, 3, 3, 3, 3, 3, 3, 3, 3, 3, 3, 3, 3, 3, 3, 3, 3, 3, 3, 3,
    3, 3, 3, 3, 3, 3, 3, 3, 3, 3, 3, 3, 3, 3, 3], ?_⟩,
   ⟨mk [(F.LANE_CTL_MODE 2, 1), (F.LANE_STATUS_STATE 2, 2)], 2, [5, 5, 5, 5, 5, 5, 5, 5, 5, 5, 5, 5, 5, 5, 5, 5, 0, 0, 0, 0, 0, 0, 0, 0, 0,
    0, 0, 0, 0, 0, 0, 0, 0, 0, 0, 0, 0, 0, 0, 0, 0, 0, 0, 0, 0, 0, 0, 0, 0, 0, 0, 0, 0, 0, 0, 0, 0, 0, 0, 0, 0, 0, 0, 0, 0, 0, 0, 0, 0, 0,
    0, 0, 0, 0, 0, 0, 0, 0, 0, 0, 0, 0, 0, 0, 0, 0, 0, 0, 0, 0, 0, 0, 0, 0, 0, 0, 0, 0, 0, 0, 0, 0, 0, 0, 0, 0, 0, 0, 0, 0, 0, 0, 0, 0, 0,
    0, 0, 0, 0, 0, 0, 0, 0, 0, 0, 0, 0, 0, 0, 0, 0, 0, 0, 0, 0, 0, 0, 0, 0, 0, 0, 0, 0, 0, 0, 0, 0, 0, 0, 0, 0, 0, 0, 0, 0, 0, 0, 0, 0, 0,
    0, 0, 0, 0, 0, 0, 0, 0, 0, 0, 0, 0, 0, 0, 0, 0, 0, 0, 0, 0, 0, 0, 0, 0, 0, 0, 0, 0, 0, 0, 0, 0, 0, 0, 0, 0, 0, 0, 0, 0, 0, 0, 0, 0, 0,
    0, 0, 0, 0, 0, 0, 0, 0, 0, 0, 0, 0, 0, 0, 0, 0, 0, 0, 0, 0, 0, 0, 0, 0, 0, 0, 0, 0, 0, 0, 0, 0, 0, 0, 0, 0, 0, 0, 0, 0, 0, 0, 0, 0, 0,
    0, 0, 0, 0, 0, 0, 0, 0, 0, 0, 0, 0, 0, 0, 0, 0, 0, 0, 0, 0, 0, 0, 0, 0, 0, 0, 0, 0, 0, 0, 0, 0, 0, 0, 0, 0, 0, 0, 0, 0, 0, 0, 0, 0, 0,
    0, 0, 0, 0, 0, 0, 0, 0, 0, 0, 0, 0, 0, 0, 0, 0, 0, 0, 0, 0, 0, 0, 0, 0, 0, 0, 0, 0, 0, 0, 0, 0, 0, 0, 0, 0, 0, 0, 0, 0, 0, 5, 5, 5, 5,
    5, 5, 5, 5, 5, 5, 5, 5, 5, 5, 5, 5], 0, 0, 3, ?_⟩,
   ⟨mk [(F.LANE_STATUS_STATE 0, 2), (F.LANE_STATUS_PORT 0, 0), (F.LANE_TX_TAP_PIN 1, 1)], 0, 1, ?_⟩,
   ⟨mk [(F.LANE_STATUS_STATE 32, 2), (F.LANE_STATUS_PORT 32, 0)], 32, 3, false, ?_⟩,
   ⟨mk [(F.LIGHT_TICKS_TICKS, 170000000), (F.LANE_STATUS_STATE 3, 2)], 3, ?_⟩,
   ⟨mk [(F.LANE_STATUS_STATE 0, 5)], 0, ?_⟩⟩ <;> decide +kernel

theorem wit_LaneStates_2 :
    (∃ (s : State) (l : Fin 544), s.laneState l = 2 ∧ s.rd (F.LANE_CTL_MODE l) = 1 ∧ s.rd (F.LANE_TRAIN_PHASE l) = 1) ∧
    (∃ (s : State) (l : Fin 544), s.laneState l = 3 ∧ s.on (F.LANE_CTL_ADAPT_FREEZE l) = false) ∧
    (∃ (s : State) (l : Fin 544) (offset : BitVec 16) (heads : _), (s.laneState l ≠ 2 ∨ headsLock heads = false ∨ 20000 <
    offset.toInt.natAbs ∨ (s.rd (F.LANE_CTL_MODE l) = 1 ∧ s.sendsTraining l = true))) ∧
    (∃ (s : State) (l : Fin 544) (offset : BitVec 16) (heads : _), s.laneState l = 2 ∧ headsLock heads = true ∧ offset.toInt.natAbs ≤ 20000
    ∧ (s.rd (F.LANE_CTL_MODE l) ≠ 1 ∨ s.sendsTraining l = false) ∧ (s.portOfLane l).isSome = true) ∧
    (∃ (s : State) (l : Fin 544) (heads : _) (words : _) (cdr : Bool), (((!cdr || headsLost heads || (s.rd (F.LANE_CTL_MODE l) = 1 &&
    wordsLost words))) = false ∨ (s.laneState l ≠ 3 ∧ s.laneState l ≠ 4))) ∧
    (∃ (s : State) (l : Fin 544) (heads : _) (words : _) (cdr : Bool), ((!cdr || headsLost heads || (s.rd (F.LANE_CTL_MODE l) = 1 &&
    wordsLost words))) = true ∧ (s.laneState l = 3 ∨ s.laneState l = 4) ∧ s.portOfLane l = none) ∧
    (∃ (s : State) (l : Fin 544) (q : Requester), s.grants q false = true ∧ s.on (F.LANE_CTL_LOCK_MODE l) = true ∧ (s.rd (F.LANE_CTL_MODE l)
    = 5 ∨ s.rd (F.LANE_CTL_MODE l) = 6) ∧ (s.portOfLane l).all (fun p => s.rd (F.PORT_CFG_FEC p) = 0) = true) ∧
    (∃ (s : State) (l : Fin 544), (mget s.lmosWait l none).any (fun m => decide (1600 ≤ s.now - m.sent)) = true) ∧
    (∃ (s : State) (l : Fin 544), (s.laneState l ≠ 2 ∨ s.rd (F.LANE_CTL_MODE l) ≠ 1)) ∧
    ∃ (s : State) (l : Fin 544), (s.laneState l ≠ 2 ∨ s.rd (F.LANE_CTL_MODE l) = 1 ∨ s.carried l = none) := by
  refine ⟨⟨mk [(F.LANE_CTL_MODE 4, 1), (F.LANE_STATUS_STATE 4, 2), (F.LANE_TRAIN_PHASE 4, 1)], 4, ?_⟩,
   ⟨mk [(F.LANE_STATUS_STATE 2, 3)], 2, ?_⟩,
   ⟨State.reset, 2, 0x0000#16, [], ?_⟩,
   ⟨mk [(F.LANE_STATUS_STATE 4, 2), (F.LANE_STATUS_PORT 4, 0)], 4, 0x0000#16, [0x2#2, 0x2#2, 0x2#2, 0x2#2, 0x2#2, 0x2#2, 0x2#2, 0x2#2,
    0x2#2, 0x2#2, 0x2#2, 0x2#2, 0x2#2, 0x2#2, 0x2#2, 0x2#2, 0x2#2, 0x2#2, 0x2#2, 0x2#2, 0x2#2, 0x2#2, 0x2#2, 0x2#2, 0x2#2, 0x2#2, 0x2#2,
    0x2#2, 0x2#2, 0x2#2, 0x2#2, 0x2#2, 0x2#2, 0x2#2, 0x2#2, 0x2#2, 0x2#2, 0x2#2, 0x2#2, 0x2#2, 0x2#2, 0x2#2, 0x2#2, 0x2#2, 0x2#2, 0x2#2,
    0x2#2, 0x2#2, 0x2#2, 0x2#2, 0x2#2, 0x2#2, 0x2#2, 0x2#2, 0x2#2, 0x2#2, 0x2#2, 0x2#2, 0x2#2, 0x2#2, 0x2#2, 0x2#2, 0x2#2, 0x2#2, 0x2#2,
    0x2#2, 0x2#2, 0x2#2, 0x2#2, 0x2#2], ?_⟩,
   ⟨State.reset, 2, [0x0#2, 0x0#2, 0x0#2, 0x0#2, 0x0#2, 0x0#2, 0x0#2, 0x0#2, 0x0#2, 0x0#2, 0x0#2, 0x0#2, 0x0#2, 0x0#2, 0x0#2, 0x2#2, 0x2#2,
    0x2#2, 0x2#2, 0x2#2, 0x2#2, 0x2#2, 0x2#2, 0x2#2, 0x2#2, 0x2#2, 0x2#2, 0x2#2, 0x2#2, 0x2#2, 0x2#2, 0x2#2, 0x2#2, 0x2#2, 0x2#2, 0x2#2,
    0x2#2, 0x2#2, 0x2#2, 0x2#2, 0x2#2, 0x2#2, 0x2#2, 0x2#2, 0x2#2, 0x2#2, 0x2#2, 0x2#2, 0x2#2, 0x2#2, 0x2#2, 0x2#2, 0x2#2, 0x2#2, 0x2#2,
    0x2#2, 0x2#2, 0x2#2, 0x2#2, 0x2#2, 0x2#2, 0x2#2, 0x2#2, 0x2#2, 0x2#2, 0x2#2, 0x2#2, 0x2#2, 0x2#2, 0x2#2, 0x2#2, 0x2#2, 0x2#2, 0x2#2,
    0x2#2, 0x2#2, 0x2#2, 0x2#2, 0x2#2], [], true, ?_⟩,
   ⟨mk [(F.LANE_STATUS_STATE 0, 4)], 0, [0x1#2, 0x1#2, 0x1#2, 0x1#2, 0x1#2, 0x1#2, 0x1#2, 0x1#2, 0x1#2, 0x1#2, 0x1#2, 0x1#2, 0x1#2, 0x1#2,
    0x1#2, 0x1#2, 0x1#2, 0x1#2, 0x1#2, 0x1#2, 0x1#2, 0x1#2, 0x1#2, 0x1#2, 0x1#2, 0x1#2, 0x1#2, 0x1#2, 0x1#2, 0x1#2, 0x1#2, 0x1#2, 0x1#2,
    0x1#2, 0x1#2, 0x1#2, 0x1#2, 0x1#2, 0x1#2, 0x1#2, 0x1#2, 0x1#2, 0x1#2, 0x1#2, 0x1#2, 0x1#2, 0x1#2, 0x1#2, 0x1#2, 0x1#2, 0x1#2, 0x1#2,
    0x1#2, 0x1#2, 0x1#2, 0x1#2, 0x1#2, 0x1#2, 0x1#2, 0x1#2, 0x1#2, 0x1#2, 0x1#2, 0x1#2, 0x1#2], [], false, ?_⟩,
   ⟨mk [(F.BOOT_STATUS_STAGE, 6), (F.LANE_CTL_MODE 4, 5), (F.LANE_CTL_LOCK_MODE 4, 1)], 4, .dysEth 1, ?_⟩,
   ⟨{ mk [(F.LIGHT_TICKS_TICKS, 27000)] with lmosWait := [(0, some { code := 1, logical := 2, arg := 3, tag := 4, sent := 6749 })] }, 0,
    ?_⟩,
   ⟨State.reset, 2, ?_⟩,
   ⟨State.reset, 2, ?_⟩⟩ <;> decide +kernel

theorem wit_LaneStates_3 :
    (∃ (s : State) (l : Fin 544), (s.carried l).any (fun p => decide (s.laneState l = 2 ∧ s.rd (F.LANE_CTL_MODE l) ≠ 1 ∧ 1 < s.rd
    (F.PORT_CFG_PMD p))) = true) ∧
    (∃ (s : State) (l : Fin 544), s.laneState l ≠ 2) ∧
    (∃ (s : State) (l : Fin 544), s.laneState l = 0) ∧
    (∃ (s : State) (l : Fin 544) (q : Requester), s.grants q false = true ∧ (s.on (F.LANE_CTL_LOCK_MODE l) = false ∨ (s.rd (F.LANE_CTL_MODE
    l) ≠ 5 ∧ s.rd (F.LANE_CTL_MODE l) ≠ 6))) ∧
    (∃ (s : State) (l : Fin 544), mget s.lmosWait l none = none) ∧
    (∃ (s : State) (l : Fin 544), (mget s.lmosWait l none).any (fun m => decide (s.now - m.sent < 1600)) = true) ∧
    (∃ (s : State) (l : Fin 544) (head : List (Fin 6)), s.laneState l = 2 ∧ s.rd (F.LANE_CTL_MODE l) = 1 ∧ (trainingRead (head.map
    Fin.val)).any (fun pr => decide (crc8 pr.1 pr.2.1 = pr.2.2)) = true) ∧
    (∃ (s : State) (p : Fin 512), s.portState p = 3 ∧ s.strait p = true ∧ bit (s.rd (F.PWR_IDLE_EN_PORTS (p / 32))) (p % 32) = true ∧ 160000
    ≤ s.now - (s.px p).lastFrame ∧ s.portBacklog p = false ∧ s.swapOf p = none ∧ (s.px p).idleTag = none ∧ (s.rd (F.PWR_DOM_STATUS_STEPS 0)
    ≠ 0 ∨ s.rd F.PWR_STATUS_STATE = 4)) ∧
    (∃ (s : State) (p : Fin 512) (b : _), (lmosIs 0x10 b).any (fun m => decide (s.strait p = true ∧ (s.portState p = 3 ∨ s.portState p = 4)
    ∧ (s.lmosRepeated p 0x10 m.tag).isSome = true)) = true) ∧
    ∃ (s : State) (p : Fin 512) (b : _), (lmosIs 0x10 b).any (fun m => decide (s.strait p = true ∧ (s.portState p = 3 ∨ s.portState p = 4) ∧
    s.lmosRepeated p 0x10 m.tag = none ∧ s.portState p = 4)) = true := by
  refine ⟨⟨mk [(F.LANE_STATUS_STATE 4, 2), (F.LANE_STATUS_PORT 4, 0), (F.PORT_CFG_PMD 0, 2)], 4, ?_⟩,
   ⟨State.reset, 2, ?_⟩,
   ⟨State.reset, 4, ?_⟩,
   ⟨mk [(F.BOOT_STATUS_STAGE, 6)], 2, .pf0, ?_⟩,
   ⟨State.reset, 2, ?_⟩,
   ⟨{ State.reset with lmosWait := [(0, some { code := 1, logical := 2, arg := 3, tag := 4, sent := 4503 })] }, 0, ?_⟩,
   ⟨mk [(F.LANE_STATUS_STATE 7, 2), (F.LANE_CTL_MODE 7, 1)], 7, (trainingHead 3 1).map (fun v => Fin.ofNat 6 v), ?_⟩,
   ⟨mk [(F.PWR_IDLE_EN_PORTS 0, 3), (F.LIGHT_TICKS_TICKS, 170027000), (F.PORT_CFG_MODE 0, 1), (F.PORT_STATUS_STATE 0, 3),
    (F.PWR_DOM_STATUS_STEPS 0, 1)], 0, ?_⟩,
   ⟨{ mk [(F.PORT_CFG_MODE 0, 1), (F.PORT_STATUS_STATE 0, 4)] with portX := [(0, { helloSeq := 0, helloAt := 0, helloPeriod := 0, degRun := 0, idleTag := some 0, waking := true, anDone := false, lastFrame := 37, pfcAt := [], wantXoff := 0, forceXoff := 0, woke := false, answered := some { code := 16, tag := 1, lane := 32, answer := { code := 2, logical := 0, arg := 0, tag := 1, sent := 169999999 } }, swapped := none, second := none, rxOld := none, pcs := { began := none, txScr := 0, txCount := 0, txLanes := [], rxScr := 0, rxCount := 0, rxLanes := [], rxBlocks := [], rxFrame := none, deskew := [] }, helloSent := none, deliverOld := [], winCorr := 0, winBad := 0, failAt := 0, faults := 0 })] },
    0, 0x0000000680c04412d#66, ?_⟩,
   ⟨mk [(F.PORT_CFG_MODE 0, 1), (F.PORT_STATUS_STATE 0, 4)], 0, 0x0000000280400412d#66, ?_⟩⟩ <;> decide +kernel

theorem wit_LaneStates_4 :
    (∃ (s : State) (p : Fin 512) (b : _), (lmosIs 0x10 b).any (fun m => decide (s.strait p = true ∧ (s.portState p = 3 ∨ s.portState p = 4)
    ∧ s.lmosRepeated p 0x10 m.tag = none ∧ s.portState p = 3 ∧ (s.swapOf p).isSome = true)) = true) ∧
    (∃ (s : State) (p : Fin 512) (b : _), (lmosIs 0x10 b).any (fun m => decide (s.strait p = true ∧ (s.portState p = 3 ∨ s.portState p = 4)
    ∧ s.lmosRepeated p 0x10 m.tag = none ∧ s.portState p = 3 ∧ s.swapOf p = none ∧ s.portBacklog p = true)) = true) ∧
    (∃ (s : State) (p : Fin 512) (b : _), (lmosIs 0x10 b).any (fun m => decide (s.strait p = true ∧ (s.portState p = 3 ∨ s.portState p = 4)
    ∧ s.lmosRepeated p 0x10 m.tag = none ∧ s.portState p = 3 ∧ s.swapOf p = none ∧ s.portBacklog p = false)) = true) ∧
    (∃ (s : State) (p : Fin 512) (b : _), (lmosIs 0x11 b).any (fun m => decide (s.portState p = 3 ∧ (s.px p).idleTag = some m.tag)) = true)
    ∧
    (∃ (s : State) (p : Fin 512) (b : _), (lmosIs 0x12 b).any (fun m => decide ((s.px p).idleTag = some m.tag)) = true) ∧
    (∃ (s : State) (p : Fin 512), s.portState p = 4 ∧ (s.px p).waking = false) ∧
    (∃ (s : State) (p : Fin 512), s.portState p = 4 ∧ (s.px p).waking = true ∧ (s.mainLanes p).all (fun l => s.laneState l ≠ 1 || s.now -
    (mget s.laneX l {}).idleAt ≤ 160000000) = true) ∧
    (∃ (s : State) (p : Fin 512), s.portState p = 4 ∧ (s.px p).waking = true) ∧
    (∃ (s : State) (p : Fin 512), s.portState p ≠ 3) ∧
    ∃ (s : State) (p : Fin 512) (b : _), (s.strait p = false ∨ lmosIs 0x10 b = none ∨ (s.portState p ≠ 3 ∧ s.portState p ≠ 4)) := by
  refine ⟨⟨{ mk [(F.PORT_CFG_MODE 0, 1), (F.PORT_STATUS_STATE 0, 3)] with swaps := [(0, some { logical := 2, oldLane := 1, spare := 32, tag := 2, byCmd := false, requester := true, acked := true, switched := false, doneRx := false, start := 1349 })] },
    0, 0x0000000a80004412d#66, ?_⟩,
   ⟨mk [(F.PORT_CFG_MODE 0, 1), (F.PORT_STATUS_STATE 0, 3), (F.TM_Q_STATUS_BACKLOG 3, 1)], 0, 0x0000000681000412d#66, ?_⟩,
   ⟨mk [(F.PORT_CFG_MODE 0, 1), (F.PORT_STATUS_STATE 0, 3)], 0, 0x0000000a80808412d#66, ?_⟩,
   ⟨{ mk [(F.PORT_STATUS_STATE 0, 3)] with portX := [(0, { helloSeq := 0, helloAt := 0, helloPeriod := 0, degRun := 0, idleTag := some 2, waking := false, anDone := false, lastFrame := 89, pfcAt := [], wantXoff := 0, forceXoff := 0, woke := false, answered := some { code := 1, tag := 2, lane := 32, answer := { code := 2, logical := 0, arg := 0, tag := 1, sent := 169999999 } }, swapped := none, second := none, rxOld := none, pcs := { began := none, txScr := 0, txCount := 0, txLanes := [], rxScr := 0, rxCount := 0, rxLanes := [], rxBlocks := [], rxFrame := none, deskew := [] }, helloSent := none, deliverOld := [], winCorr := 0, winBad := 0, failAt := 0, faults := 0 })] },
    0, 0x0000000a81004452d#66, ?_⟩,
   ⟨{ State.reset with portX := [(1, { helloSeq := 0, helloAt := 0, helloPeriod := 0, degRun := 0, idleTag := some 1, waking := true, anDone := false, lastFrame := 898629, pfcAt := [], wantXoff := 0, forceXoff := 0, woke := false, answered := none, swapped := none, second := none, rxOld := none, pcs := { began := none, txScr := 0, txCount := 0, txLanes := [], rxScr := 0, rxCount := 0, rxLanes := [], rxBlocks := [], rxFrame := none, deskew := [] }, helloSent := none, deliverOld := [], winCorr := 0, winBad := 0, failAt := 0, faults := 0 })] },
    1, 0x0000000680804492d#66, ?_⟩,
   ⟨mk [(F.PORT_STATUS_STATE 1, 4)], 1, ?_⟩,
   ⟨{ mk [(F.PORT_STATUS_STATE 0, 4)] with portX := [(0, { helloSeq := 0, helloAt := 0, helloPeriod := 0, degRun := 0, idleTag := some 0, waking := true, anDone := false, lastFrame := 49, pfcAt := [], wantXoff := 0, forceXoff := 0, woke := false, answered := none, swapped := some { logical := 1, oldLane := 3, spare := 32, tag := 1, byCmd := false, requester := false, acked := true, switched := false, doneRx := false, start := 3921 }, second := none, rxOld := none, pcs := { began := some 4, txScr := 0, txCount := 0, txLanes := [], rxScr := 0, rxCount := 0, rxLanes := [], rxBlocks := [], rxFrame := none, deskew := [] }, helloSent := none, deliverOld := [], winCorr := 0, winBad := 0, failAt := 0, faults := 0 })] },
    0, ?_⟩,
   ⟨{ mk [(F.PORT_STATUS_STATE 0, 4)] with portX := [(0, { helloSeq := 0, helloAt := 0, helloPeriod := 0, degRun := 0, idleTag := some 0, waking := true, anDone := false, lastFrame := 49, pfcAt := [], wantXoff := 0, forceXoff := 0, woke := false, answered := none, swapped := some { logical := 1, oldLane := 3, spare := 32, tag := 1, byCmd := false, requester := false, acked := true, switched := false, doneRx := false, start := 3921 }, second := none, rxOld := none, pcs := { began := some 4, txScr := 0, txCount := 0, txLanes := [], rxScr := 0, rxCount := 0, rxLanes := [], rxBlocks := [], rxFrame := none, deskew := [] }, helloSent := none, deliverOld := [], winCorr := 0, winBad := 0, failAt := 0, faults := 0 })] },
    0, ?_⟩,
   ⟨State.reset, 2, ?_⟩,
   ⟨State.reset, 2, 0x0000000a80c040d2d#66, ?_⟩⟩ <;> decide +kernel

theorem wit_LaneStates_5 :
    (∃ (s : State) (p : Fin 512) (b : _), (lmosIs 0x11 b).any (fun m => decide ((s.portState p ≠ 3 ∨ (s.px p).idleTag ≠ some m.tag))) =
    true) ∧
    (∃ (b : _), lmosIs 0x11 b = none) ∧
    (∃ (b : _), lmosIs 0x12 b = none) ∧
    (∃ (s : State) (p : Fin 512) (b : _), (lmosIs 0x12 b).any (fun m => decide ((s.px p).idleTag ≠ some m.tag)) = true) ∧
    (∃ (s : State) (p : Fin 512), (s.portState p ≠ 4 ∨ (s.px p).waking = true)) ∧
    ∃ (s : State) (p : Fin 512), (s.portState p ≠ 4 ∨ (s.px p).waking = false) := by
  refine ⟨⟨State.reset, 0, 0x0000000281008452d#66, ?_⟩,
   ⟨0x0000000a80c040d2d#66, ?_⟩,
   ⟨0x0000000a80c040d2d#66, ?_⟩,
   ⟨State.reset, 2, 0x0000000281004492d#66, ?_⟩,
   ⟨State.reset, 2, ?_⟩,
   ⟨State.reset, 2, ?_⟩⟩ <;> decide +kernel

theorem wit_LaneSwaps :
    (∃ (s : State) (l : Fin 544), (s.rd (F.LANE_CTL_MODE l) ≠ 1 ∨ s.laneState l = 0 ∨ s.laneState l = 1 ∨ s.laneState l = 2 ∨ s.laneState l
    = 5) ∧ s.carried l = none) ∧
    (∃ (s : State) (l : Fin 544) (words : _), s.rd (F.LANE_CTL_MODE l) = 1 ∧ s.laneState l = 3 ∧ s.on F.DBG_CTL_ARM = false ∧ ((mget s.laneX
    l {}).winBad + (lineCounts words).2.2.2) = 0 ∧ s.berFails (l / 34) ((mget s.laneX l {}).winBits + (lineCounts words).2.1) = false) ∧
    (∃ (s : State) (l : Fin 544) (words : _), s.rd (F.LANE_CTL_MODE l) = 1 ∧ (s.laneState l = 3 ∨ s.laneState l = 4) ∧ s.on F.DBG_CTL_ARM =
    false ∧ 0 < ((mget s.laneX l {}).winBad + (lineCounts words).2.2.2) ∧ s.rd (F.LANE_SWAP_WIN_WIN (l / 34)) = 0) ∧
    (∃ (s : State) (p : Fin 512) (b : _), (lmosIs 0x01 b).any (fun m => decide (s.strait p = true ∧ (s.lmosRepeated p 0x01 m.tag).isSome =
    true)) = true) ∧
    (∃ (s : State) (p : Fin 512) (b : _), (lmosIs 0x01 b).any (fun m => decide (s.strait p = true ∧ s.lmosRepeated p 0x01 m.tag = none ∧
    s.spareOf p < 544 ∧ s.swapOf p = none ∧ s.partnerLm p = false)) = true) ∧
    (∃ (s : State) (p : Fin 512) (b : _), (lmosIs 0x01 b).any (fun m => decide (s.strait p = true ∧ s.lmosRepeated p 0x01 m.tag = none ∧
    s.spareOf p < 544 ∧ s.swapOf p = none ∧ s.partnerLm p = true ∧ s.laneState (s.spareOf p) ≠ 4)) = true) ∧
    (∃ (s : State) (p : Fin 512) (b : _), (lmosIs 0x01 b).any (fun m => decide (s.strait p = true ∧ s.lmosRepeated p 0x01 m.tag = none ∧
    s.spareOf p < 544 ∧ s.swapOf p = none ∧ s.partnerLm p = true ∧ s.laneState (s.spareOf p) = 4 ∧ m.logical < s.portWidth p ∧ s.laneState
    (s.laneOf p m.logical) ≠ 3)) = true) ∧
    (∃ (s : State) (p : Fin 512) (b : _), (lmosIs 0x01 b).any (fun m => decide (s.strait p = true ∧ s.lmosRepeated p 0x01 m.tag = none ∧
    s.spareOf p < 544 ∧ s.swapOf p = none ∧ s.partnerLm p = true ∧ s.laneState (s.spareOf p) = 4 ∧ m.logical < s.portWidth p ∧ s.laneState
    (s.laneOf p m.logical) = 3)) = true) ∧
    (∃ (s : State) (p : Fin 512) (b : _), (lmosIs 0x01 b).any (fun m => decide (s.strait p = true ∧ s.lmosRepeated p 0x01 m.tag = none ∧
    s.spareOf p < 544 ∧ (s.swapOf p).any (fun x => decide (x.requester = false)) = true)) = true) ∧
    ∃ (s : State) (p : Fin 512) (b : _), (lmosIs 0x01 b).any (fun m => decide (s.strait p = true ∧ s.lmosRepeated p 0x01 m.tag = none ∧
    s.spareOf p < 544 ∧ (s.swapOf p).any (fun x => decide (x.requester = true ∧ x.logical < m.logical)) = true)) = true := by
  refine ⟨⟨State.reset, 2, ?_⟩,
   ⟨mk [(F.LANE_CTL_MODE 4, 1), (F.LANE_STATUS_STATE 4, 3)], 4, [], ?_⟩,
   ⟨{ mk [(F.LANE_SWAP_WIN_WIN 0, 0), (F.LANE_CTL_MODE 32, 1), (F.LANE_STATUS_STATE 32, 4)] with laneX := [(32, { winBad := 1 })] }, 32,
    [], ?_⟩,
   ⟨{ mk [(F.PORT_CFG_MODE 0, 1)] with portX := [(0, { helloSeq := 0, helloAt := 0, helloPeriod := 0, degRun := 0, idleTag := some 1, waking := false, anDone := false, lastFrame := 63, pfcAt := [], wantXoff := 0, forceXoff := 0, woke := false, answered := some { code := 1, tag := 0, lane := 32, answer := { code := 2, logical := 0, arg := 0, tag := 1, sent := 169999999 } }, swapped := none, second := none, rxOld := none, pcs := { began := none, txScr := 0, txCount := 0, txLanes := [], rxScr := 0, rxCount := 0, rxLanes := [], rxBlocks := [], rxFrame := none, deskew := [] }, helloSent := none, deliverOld := [], winCorr := 0, winBad := 0, failAt := 0, faults := 0 })] },
    0, 0x0000000281000052d#66, ?_⟩,
   ⟨mk [(F.PORT_CFG_MODE 1, 1), (F.PORT_CFG_SPARE_LANE 1, 32)], 1, 0x0000000a80400052d#66, ?_⟩,
   ⟨mk [(F.PORT_CFG_MODE 0, 1), (F.PORT_PARTNER_STATUS_VALID 0, 1), (F.PORT_PARTNER_PORT_CAP 0, 1), (F.PORT_CFG_SPARE_LANE 0, 32)], 0,
    0x0000000a80400052d#66, ?_⟩,
   ⟨mk [(F.PORT_CFG_WIDTH 0, 2), (F.PORT_CFG_MODE 0, 1), (F.PORT_PARTNER_STATUS_VALID 0, 1), (F.PORT_PARTNER_PORT_CAP 0, 1),
    (F.PORT_CFG_SPARE_LANE 0, 32), (F.LANE_STATUS_STATE 32, 4)], 0, 0x0000000680c04052d#66, ?_⟩,
   ⟨mk [(F.LANE_STATUS_STATE 1, 3), (F.PORT_CFG_WIDTH 0, 2), (F.PORT_CFG_MODE 0, 1), (F.PORT_PARTNER_STATUS_VALID 0, 1),
    (F.PORT_PARTNER_PORT_CAP 0, 1), (F.PORT_CFG_SPARE_LANE 0, 32), (F.LANE_STATUS_STATE 32, 4)], 0, 0x0000000281004052d#66, ?_⟩,
   ⟨{ mk [(F.PORT_CFG_MODE 1, 1), (F.PORT_CFG_SPARE_LANE 1, 32)] with swaps := [(1, some { logical := 1, oldLane := 2, spare := 32, tag := 0, byCmd := true, requester := false, acked := false, switched := true, doneRx := false, start := 3474 })] },
    1, 0x0000000681008052d#66, ?_⟩,
   ⟨{ mk [(F.PORT_CFG_MODE 0, 1), (F.PORT_CFG_SPARE_LANE 0, 32)] with swaps := [(0, some { logical := 1, oldLane := 0, spare := 32, tag := 1, byCmd := true, requester := true, acked := true, switched := true, doneRx := false, start := 333 })] },
    0, 0x0000000281008052d#66, ?_⟩⟩ <;> decide +kernel

theorem wit_LaneSwaps_2 :
    (∃ (s : State) (p : Fin 512) (b : _), (lmosIs 0x01 b).any (fun m => decide (s.strait p = true ∧ s.lmosRepeated p 0x01 m.tag = none ∧
    s.spareOf p < 544 ∧ (s.swapOf p).any (fun x => decide (x.requester = true ∧ x.logical = m.logical)) = true)) = true) ∧
    (∃ (s : State) (p : Fin 512) (b : _), (lmosIs 0x01 b).any (fun m => decide (s.strait p = true ∧ s.lmosRepeated p 0x01 m.tag = none ∧
    s.spareOf p < 544 ∧ (s.swapOf p).any (fun x => decide (x.requester = true ∧ m.logical < x.logical)) = true)) = true) ∧
    (∃ (s : State) (p : Fin 512) (b : _), s.swapOf p = none ∧ ((s.px p).swapped).any (fun x => decide (x.oldLane ≠ x.spare ∧ (lmosIs 0x05
    b).any (fun m => decide (m.logical = x.logical ∧ m.tag = x.tag)) = true)) = true) ∧
    (∃ (s : State) (p : Fin 512) (b : _), (s.swapOf p).any (fun x => decide ((lmosIs 0x02 b).any (fun m => decide (x.requester = true ∧
    x.tag = m.tag)) = true)) = true) ∧
    (∃ (s : State) (p : Fin 512) (b : _), (s.swapOf p).any (fun x => decide ((lmosIs 0x03 b).any (fun m => decide (x.requester = true ∧
    x.tag = m.tag ∧ x.acked = false)) = true)) = true) ∧
    (∃ (s : State) (p : Fin 512) (run : Nat) (skew : Int), (s.swapOf p).any (fun x => decide (x.acked = true ∧ x.switched = false ∧ x.doneRx
    = false ∧ 4 ≤ run ∧ skew.natAbs ≤ 2000)) = true) ∧
    (∃ (s : State) (p : Fin 512) (b : _), (s.swapOf p).any (fun x => decide ((lmosIs 0x04 b).any (fun m => decide (m.logical = x.logical ∧
    x.switched = false)) = true)) = true) ∧
    (∃ (s : State) (p : Fin 512) (b : _), (s.swapOf p).any (fun x => decide ((lmosIs 0x04 b).any (fun m => decide (m.logical = x.logical ∧
    x.switched = true ∧ x.oldLane ≠ x.spare ∧ (s.px p).second = none)) = true)) = true) ∧
    (∃ (s : State) (p : Fin 512) (b : _), (s.swapOf p).any (fun x => decide ((lmosIs 0x05 b).any (fun m => decide (m.logical = x.logical)) =
    true)) = true) ∧
    ∃ (s : State) (p : Fin 512), (s.swapOf p).any (fun x => decide (max 1 (s.rd (F.LANE_SWAP_CFG_TIMEOUT (p / 32))) * 1600 ≤ s.now -
    x.start)) = true := by
  refine ⟨⟨{ mk [(F.PORT_CFG_MODE 0, 1), (F.PORT_CFG_SPARE_LANE 0, 32)] with swaps := [(0, some { logical := 2, oldLane := 1, spare := 32, tag := 1, byCmd := false, requester := true, acked := false, switched := true, doneRx := false, start := 3082 })] },
    0, 0x0000000a80008052d#66, ?_⟩,
   ⟨{ mk [(F.PORT_CFG_MODE 1, 1), (F.PORT_CFG_SPARE_LANE 1, 32)] with swaps := [(1, some { logical := 2, oldLane := 3, spare := 32, tag := 2, byCmd := false, requester := true, acked := false, switched := false, doneRx := false, start := 3962 })] },
    1, 0x0000000680004052d#66, ?_⟩,
   ⟨{ State.reset with portX := [(0, { helloSeq := 0, helloAt := 0, helloPeriod := 0, degRun := 0, idleTag := some 1, waking := false, anDone := false, lastFrame := 3, pfcAt := [], wantXoff := 0, forceXoff := 0, woke := false, answered := some { code := 16, tag := 0, lane := 32, answer := { code := 2, logical := 0, arg := 0, tag := 1, sent := 169999999 } }, swapped := some { logical := 1, oldLane := 2, spare := 32, tag := 2, byCmd := false, requester := false, acked := false, switched := true, doneRx := true, start := 978 }, second := none, rxOld := none, pcs := { began := some 4, txScr := 0, txCount := 0, txLanes := [], rxScr := 0, rxCount := 0, rxLanes := [], rxBlocks := [], rxFrame := none, deskew := [] }, helloSent := none, deliverOld := [], winCorr := 0, winBad := 0, failAt := 0, faults := 0 })] },
    0, 0x0000000a80004152d#66, ?_⟩,
   ⟨{ State.reset with swaps := [(0, some { logical := 2, oldLane := 2, spare := 32, tag := 0, byCmd := true, requester := true, acked := true, switched := true, doneRx := false, start := 2190 })] },
    0, 0x0000000280800092d#66, ?_⟩,
   ⟨{ State.reset with swaps := [(1, some { logical := 2, oldLane := 0, spare := 32, tag := 1, byCmd := true, requester := true, acked := false, switched := true, doneRx := false, start := 1248 })] },
    1, 0x00000006810040d2d#66, ?_⟩,
   ⟨{ State.reset with swaps := [(0, some { logical := 1, oldLane := 0, spare := 32, tag := 0, byCmd := true, requester := true, acked := true, switched := false, doneRx := false, start := 547 })] },
    0, 41, 6, ?_⟩,
   ⟨{ State.reset with swaps := [(1, some { logical := 1, oldLane := 3, spare := 32, tag := 1, byCmd := true, requester := true, acked := false, switched := false, doneRx := true, start := 4170 })] },
    1, 0x0000000681004112d#66, ?_⟩,
   ⟨{ State.reset with swaps := [(0, some { logical := 2, oldLane := 2, spare := 32, tag := 0, byCmd := true, requester := true, acked := true, switched := true, doneRx := false, start := 2190 })] },
    0, 0x0000000a80808112d#66, ?_⟩,
   ⟨{ State.reset with swaps := [(1, some { logical := 2, oldLane := 0, spare := 32, tag := 1, byCmd := false, requester := true, acked := true, switched := true, doneRx := true, start := 8215 })] },
    1, 0x0000000a80808152d#66, ?_⟩,
   ⟨{ mk [(F.LIGHT_TICKS_TICKS, 27000), (F.LANE_SWAP_CFG_TIMEOUT 0, 0)] with swaps := [(1, some { logical := 2, oldLane := 1, spare := 32, tag := 2, byCmd := false, requester := true, acked := true, switched := true, doneRx := false, start := 5669 })] },
    1, ?_⟩⟩ <;> decide +kernel

theorem wit_LaneSwaps_3 :
    (∃ (s : State) (p : Fin 512) (b : _), (s.strait p = false ∨ lmosIs 0x01 b = none)) ∧
    (∃ (s : State) (p : Fin 512) (b : _), (lmosIs 0x01 b).any (fun m => decide (s.strait p = true ∧ s.lmosRepeated p 0x01 m.tag = none ∧ 544
    ≤ s.spareOf p)) = true) ∧
    (∃ (s : State) (p : Fin 512), s.swapOf p = none) ∧
    (∃ (s : State) (p : Fin 512), s.swapOf p = none ∧ (s.px p).swapped = none) ∧
    (∃ (s : State) (p : Fin 512) (run : Nat) (skew : Int), (s.swapOf p).any (fun x => decide ((x.acked = false ∨ run < 4 ∨ 2000 <
    skew.natAbs))) = true) ∧
    ∃ (s : State) (p : Fin 512), (s.swapOf p).any (fun x => decide (s.now - x.start < max 1 (s.rd (F.LANE_SWAP_CFG_TIMEOUT (p / 32))) *
    1600)) = true := by
  refine ⟨⟨State.reset, 2, 0x0000000a804080d2d#66, ?_⟩,
   ⟨mk [(F.PORT_CFG_MODE 0, 1)], 0, 0x0000000681000052d#66, ?_⟩,
   ⟨State.reset, 2, ?_⟩,
   ⟨State.reset, 2, ?_⟩,
   ⟨{ State.reset with swaps := [(0, some { logical := 2, oldLane := 1, spare := 32, tag := 2, byCmd := false, requester := true, acked := true, switched := false, doneRx := false, start := 1349 })] },
    0, 3, -20, ?_⟩,
   ⟨{ State.reset with swaps := [(1, some { logical := 1, oldLane := 2, spare := 32, tag := 0, byCmd := true, requester := false, acked := false, switched := true, doneRx := false, start := 3474 })] },
    1, ?_⟩⟩ <;> decide +kernel

theorem wit_PortCommands :
    (∃ (s : State) (p : Fin 512) (q : Requester), s.grants q false = true ∧ s.portState p = 1) ∧
    (∃ (s : State) (p : Fin 512) (q : Requester), s.grants q false = true ∧ (s.portState p = 2 ∨ s.portState p = 3 ∨ s.portState p = 4)) ∧
    (∃ (s : State) (q : Requester) (w : Fin 16) (v : BitVec 32), s.grants q false = true ∧ (∀ k : Fin 32, v.toNat.testBit k = true →
    s.portLive (32 * w + k) = true)) ∧
    (∃ (s : State) (q : Requester) (w : Fin 16) (v : BitVec 32) (k : Fin 32), s.grants q false = true ∧ v.toNat.testBit k = true ∧
    s.portLive (32 * w + k) = false) ∧
    (∃ (s : State) (p : Fin 512) (arrivals : _), s.portState p = 2 ∧ (s.mainLanes p).all (fun l => s.laneState l = 3) = true ∧ (s.negotiates
    p = false ∨ (s.px p).anDone = true) ∧ s.deskewable p arrivals = true) ∧
    (∃ (s : State) (p : Fin 512), s.portState p = 2 ∧ s.negotiates p = true) ∧
    (∃ (s : State) (p : Fin 512), (s.portState p ≠ 3 ∨ (s.strait p = false ∧ s.rd (F.PORT_CFG_FEC p) = 0))) ∧
    (∃ (s : State) (p : Fin 512) (uncorr : _), s.portState p = 3 ∧ s.strait p = true ∧ s.on F.DBG_CTL_ARM = false ∧ s.swapOf p = none ∧ ((if
    s.strait p then (s.px p).winBad else uncorr)) < max 1 (s.rd (F.PORT_FEC_DEG_UNCORR_MAX p))) ∧
    (∃ (s : State) (p : Fin 512) (uncorr : _), s.portState p = 3 ∧ s.strait p = true ∧ s.swapOf p = none ∧ max 1 (s.rd
    (F.PORT_FEC_DEG_UNCORR_MAX p)) ≤ ((if s.strait p then (s.px p).winBad else uncorr)) ∧ s.rd (F.PORT_FEC_DEG_WIN p) = 0) ∧
    ∃ (s : State) (p : Fin 512) (uncorr : _), s.portState p = 3 ∧ s.strait p = true ∧ s.swapOf p = none ∧ max 1 (s.rd
    (F.PORT_FEC_DEG_UNCORR_MAX p)) ≤ ((if s.strait p then (s.px p).winBad else uncorr)) ∧ s.rd (F.PORT_FEC_DEG_WIN p) = 1 := by
  refine ⟨⟨mk [(F.BOOT_STATUS_STAGE, 6), (F.PORT_STATUS_STATE 2, 1)], 2, .pf0, ?_⟩,
   ⟨mk [(F.BOOT_STATUS_STAGE, 6), (F.PORT_STATUS_STATE 2, 4)], 2, .dysEth 1, ?_⟩,
   ⟨mk [(F.BOOT_STATUS_STAGE, 6), (F.PORT_STATUS_STATE 0, 3), (F.PORT_STATUS_STATE 1, 3)], .dysEth 1, 0, 0x00000003#32, ?_⟩,
   ⟨mk [(F.BOOT_STATUS_STAGE, 6)], .pf0, 0, 0xe906107d#32, 2, ?_⟩,
   ⟨mk [(F.LANE_STATUS_STATE 1, 3), (F.PORT_CFG_WIDTH 1, 1), (F.PORT_CFG_FIRST_LANE 1, 1), (F.PORT_STATUS_STATE 1, 2)], 1, [5], ?_⟩,
   ⟨mk [(F.PORT_STATUS_STATE 2, 2), (F.PORT_CFG_AN_EN 2, 1)], 2, ?_⟩,
   ⟨State.reset, 2, ?_⟩,
   ⟨mk [(F.PORT_CFG_MODE 1, 1), (F.PORT_STATUS_STATE 1, 3)], 1, 0, ?_⟩,
   ⟨{ mk [(F.PORT_CFG_MODE 0, 1), (F.PORT_STATUS_STATE 0, 3), (F.PORT_FEC_DEG_WIN 0, 0), (F.PORT_FEC_DEG_UNCORR_MAX 0, 1)] with portX := [(0, { helloSeq := 0, helloAt := 0, helloPeriod := 1, degRun := 2, idleTag := none, waking := false, anDone := true, lastFrame := 28, pfcAt := [], wantXoff := 0, forceXoff := 0, woke := false, answered := none, swapped := none, second := none, rxOld := none, pcs := { began := none, txScr := 0, txCount := 0, txLanes := [], rxScr := 0, rxCount := 0, rxLanes := [], rxBlocks := [], rxFrame := none, deskew := [] }, helloSent := none, deliverOld := [], winCorr := 1, winBad := 1, failAt := 0, faults := 0 })] },
    0, 13, ?_⟩,
   ⟨{ mk [(F.PORT_CFG_MODE 0, 1), (F.PORT_STATUS_STATE 0, 3), (F.PORT_FEC_DEG_WIN 0, 1), (F.PORT_FEC_DEG_UNCORR_MAX 0, 1)] with portX := [(0, { helloSeq := 0, helloAt := 0, helloPeriod := 1, degRun := 1, idleTag := none, waking := false, anDone := false, lastFrame := 49, pfcAt := [], wantXoff := 0, forceXoff := 0, woke := false, answered := none, swapped := none, second := none, rxOld := none, pcs := { began := none, txScr := 0, txCount := 0, txLanes := [], rxScr := 0, rxCount := 0, rxLanes := [], rxBlocks := [], rxFrame := none, deskew := [] }, helloSent := none, deliverOld := [], winCorr := 4, winBad := 1, failAt := 0, faults := 0 })] },
    0, 168, ?_⟩⟩ <;> decide +kernel

theorem wit_PortCommands_2 :
    (∃ (s : State) (p : Fin 512), s.strait p = true ∧ s.portState p = 3 ∧ s.helloDue p = true) ∧
    (∃ (s : State) (p : Fin 512), s.strait p = true ∧ s.portState p = 4 ∧ s.helloDue p = true) ∧
    (∃ (s : State) (p : Fin 512) (frame : Bytes) (coding : Bool), s.portState p = 3 ∧ s.isHello p frame = true ∧ (s.frameClass p frame
    coding) = some 7) ∧
    (∃ (s : State) (p : Fin 512) (frame : Bytes) (coding : Bool), s.portState p = 3 ∧ s.isHello p frame = true ∧ (s.frameClass p frame
    coding) ≠ some 7 ∧ s.on (F.PORT_CFG_TRUSTED p) = false) ∧
    (∃ (s : State) (p : Fin 512) (frame : Bytes) (coding : Bool), s.portState p = 3 ∧ s.isHello p frame = true ∧ s.on (F.PORT_CFG_TRUSTED p)
    = true ∧ (s.frameClass p frame coding) = none ∧ beAt frame 14 1 = 1 ∧ beAt frame 15 1 = 1) ∧
    (∃ (s : State) (p : Fin 512) (frame : Bytes) (coding : Bool), s.portState p = 3 ∧ isMacControl frame = true ∧ ((s.frameClass p frame
    coding)).isSome = true) ∧
    (∃ (s : State) (p : Fin 512) (frame : Bytes) (coding : Bool), s.portState p = 3 ∧ isMacControl frame = true ∧ (s.frameClass p frame
    coding) = none ∧ beAt frame 14 2 = 1 ∧ s.on (F.MAC_PFC_CFG_LEGACY_RX p) = true) ∧
    (∃ (s : State) (p : Fin 512) (frame : Bytes) (coding : Bool), s.portState p = 3 ∧ isMacControl frame = true ∧ (s.frameClass p frame
    coding) = none ∧ beAt frame 14 2 = 1 ∧ s.on (F.MAC_PFC_CFG_LEGACY_RX p) = false) ∧
    (∃ (s : State) (p : Fin 512) (frame : Bytes) (coding : Bool), s.portState p = 3 ∧ isMacControl frame = true ∧ (s.frameClass p frame
    coding) = none ∧ beAt frame 14 2 = 0x0101) ∧
    ∃ (s : State) (p : Fin 512), s.strait p = true ∧ s.on (F.PORT_PARTNER_STATUS_VALID p) = true ∧ 4 * max 1 (s.px p).helloPeriod * 16000000
    ≤ s.now - (s.px p).helloAt := by
  refine ⟨⟨mk [(F.PORT_CFG_MODE 1, 1), (F.PORT_STATUS_STATE 1, 3)], 1, ?_⟩,
   ⟨mk [(F.PORT_CFG_MODE 1, 1), (F.PORT_STATUS_STATE 1, 4)], 1, ?_⟩,
   ⟨mk [(F.BOOT_STATUS_STAGE, 6), (F.PORT_CFG_MODE 1, 1), (F.PORT_STATUS_STATE 1, 3), (F.PORT_HELLO_CFG_ETYPE 0, 34997)], 1, [0x01#8,
    0x80#8, 0xc2#8, 0x00#8, 0x00#8, 0x0e#8, 0x00#8, 0x00#8, 0x00#8, 0x00#8, 0x00#8, 0x05#8, 0x88#8, 0xb5#8, 0x01#8, 0x01#8, 0x00#8, 0x00#8,
    0x00#8, 0x00#8, 0x00#8, 0x05#8, 0x00#8, 0x00#8, 0x00#8, 0x00#8, 0x00#8, 0x00#8, 0x00#8, 0x09#8, 0x00#8, 0x01#8, 0x00#8, 0x03#8, 0x03#8,
    0x03#8, 0x03#8, 0x03#8, 0x03#8, 0x03#8], true, ?_⟩,
   ⟨mk [(F.BOOT_STATUS_STAGE, 6), (F.PORT_CFG_MODE 1, 1), (F.PORT_STATUS_STATE 1, 3), (F.PORT_HELLO_CFG_ETYPE 0, 34997)], 1, ([0x01#8,
    0x80#8, 0xc2#8, 0x00#8, 0x00#8, 0x0e#8, 0x00#8, 0x00#8, 0x00#8, 0x00#8, 0x00#8, 0x05#8, 0x88#8, 0xb5#8, 0x01#8, 0x02#8, 0x00#8, 0x00#8,
    0x00#8, 0x00#8, 0x00#8, 0x04#8] ++ List.replicate 7 0x00#8 ++ [0x09#8, 0x00#8, 0x01#8, 0x02#8] ++ List.replicate 60 0x03#8 ++ [0xf9#8,
    0xd2#8, 0x9b#8, 0xcf#8, 0x01#8]), false, ?_⟩,
   ⟨mk [(F.PORT_CFG_MODE 1, 1), (F.PORT_STATUS_STATE 1, 3), (F.PORT_HELLO_CFG_ETYPE 0, 34997), (F.PORT_CFG_TRUSTED 1, 1)], 1, ([0x01#8,
    0x80#8, 0xc2#8, 0x00#8, 0x00#8, 0x0e#8, 0x00#8, 0x00#8, 0x00#8, 0x00#8, 0x00#8, 0x05#8, 0x88#8, 0xb5#8, 0x01#8, 0x01#8, 0x00#8, 0x00#8,
    0x00#8, 0x00#8, 0x00#8, 0x04#8] ++ List.replicate 7 0x00#8 ++ [0x09#8, 0x00#8, 0x01#8, 0x02#8] ++ List.replicate 60 0x03#8 ++ [0xd7#8,
    0xee#8, 0x0f#8, 0x12#8]), false, ?_⟩,
   ⟨mk [(F.PORT_STATUS_STATE 1, 3)], 1, ([0x01#8, 0x80#8, 0xc2#8, 0x00#8, 0x00#8, 0x01#8, 0x00#8, 0x00#8, 0x00#8, 0x00#8, 0x00#8, 0x05#8,
    0x88#8, 0x08#8, 0x01#8, 0x01#8] ++ List.replicate 26 0x00#8 ++ List.replicate 30 0x01#8 ++ [0xfc#8, 0x4e#8, 0xdb#8, 0x42#8]), true, ?_⟩,
   ⟨mk [(F.BOOT_STATUS_STAGE, 6), (F.PORT_STATUS_STATE 1, 3), (F.MAC_PFC_CFG_LEGACY_RX 1, 1)], 1, ([0x01#8, 0x80#8, 0xc2#8, 0x00#8, 0x00#8,
    0x01#8, 0x00#8, 0x00#8, 0x00#8, 0x00#8, 0x00#8, 0x05#8, 0x88#8, 0x08#8, 0x00#8, 0x01#8, 0x00#8, 0x57#8, 0x00#8, 0x00#8, 0x00#8, 0x01#8]
    ++ List.replicate 20 0x00#8 ++ List.replicate 30 0x01#8 ++ [0x02#8, 0x79#8, 0x51#8, 0x8c#8]), false, ?_⟩,
   ⟨mk [(F.BOOT_STATUS_STAGE, 6), (F.PORT_STATUS_STATE 2, 3)], 2, ([0x01#8, 0x80#8, 0xc2#8, 0x00#8, 0x00#8, 0x01#8, 0x00#8, 0x00#8, 0x00#8,
    0x00#8, 0x00#8, 0x05#8, 0x88#8, 0x08#8, 0x00#8, 0x01#8, 0x00#8, 0xe8#8, 0x00#8, 0x02#8, 0x00#8, 0x02#8] ++ List.replicate 20 0x00#8 ++
    List.replicate 30 0x01#8 ++ [0x5b#8, 0x14#8, 0x9e#8, 0x07#8]), false, ?_⟩,
   ⟨mk [(F.BOOT_STATUS_STAGE, 6), (F.PORT_STATUS_STATE 0, 3)], 0, ([0x01#8, 0x80#8, 0xc2#8, 0x00#8, 0x00#8, 0x01#8, 0x00#8, 0x00#8, 0x00#8,
    0x00#8, 0x00#8, 0x05#8, 0x88#8, 0x08#8, 0x01#8, 0x01#8, 0x00#8, 0xae#8, 0x00#8, 0x00#8, 0x00#8, 0x02#8] ++ List.replicate 20 0x00#8 ++
    List.replicate 30 0x01#8 ++ [0x67#8, 0x38#8, 0x30#8, 0x91#8]), false, ?_⟩,
   ⟨mk [(F.LIGHT_TICKS_TICKS, 170000000), (F.PORT_CFG_MODE 1, 1), (F.PORT_PARTNER_STATUS_VALID 1, 1)], 1, ?_⟩⟩ <;> decide +kernel

theorem wit_PortCommands_3 :
    (∃ (s : State) (p : Fin 512) (g : Fin 8), bit (s.rd (F.MAC_PFC_STATUS_RX_PAUSED p)) g = true ∧ mget s.pauseEnd (key2 p g) 0 ≤ s.now) ∧
    (∃ (s : State) (p : Fin 512) (q : Requester), s.grants q false = true ∧ s.portState p = 0) ∧
    (∃ (s : State) (p : Fin 512) (arrivals : _), (s.portState p ≠ 2 ∨ (s.mainLanes p).any (fun l => s.laneState l ≠ 3) = true ∨ s.deskewable
    p arrivals = false ∨ (s.negotiates p = true ∧ (s.px p).anDone = false))) ∧
    (∃ (s : State) (p : Fin 512), (s.portState p ≠ 2 ∨ s.negotiates p = false)) ∧
    (∃ (s : State) (p : Fin 512), (s.strait p = false ∨ s.portLive p = false ∨ s.helloDue p = false)) ∧
    (∃ (s : State) (p : Fin 512) (frame : Bytes), (s.portState p ≠ 3 ∨ s.isHello p frame = false)) ∧
    (∃ (s : State) (p : Fin 512) (frame : Bytes), (s.portState p ≠ 3 ∨ isMacControl frame = false)) ∧
    (∃ (s : State) (p : Fin 512), (s.strait p = false ∨ s.on (F.PORT_PARTNER_STATUS_VALID p) = false)) ∧
    (∃ (s : State) (p : Fin 512), s.now - (s.px p).helloAt < 4 * max 1 (s.px p).helloPeriod * 16000000) ∧
    ∃ (s : State) (p : Fin 512) (g : Fin 8), (bit (s.rd (F.MAC_PFC_STATUS_RX_PAUSED p)) g = false ∨ s.now < mget s.pauseEnd (key2 p g) 0) :=
    by
  refine ⟨⟨mk [(F.MAC_PFC_STATUS_RX_PAUSED 1, 127)], 1, 1, ?_⟩,
   ⟨State.reset, 2, .regInit, ?_⟩,
   ⟨State.reset, 2, [1, 2, 3, 1999], ?_⟩,
   ⟨State.reset, 2, ?_⟩,
   ⟨State.reset, 2, ?_⟩,
   ⟨State.reset, 2, [0x01#8, 0x02#8, 0x03#8], ?_⟩,
   ⟨State.reset, 2, [0x01#8, 0x02#8, 0x03#8], ?_⟩,
   ⟨State.reset, 2, ?_⟩,
   ⟨State.reset, 2, ?_⟩,
   ⟨State.reset, 2, 2, ?_⟩⟩ <;> decide +kernel

theorem wit_ClockTree :
    (∃ (s : State), s.standbyReady = true) ∧
    (∃ (s : State), s.standbyReady = false) ∧
    (∃ (s : State) (k : Fin 2) (t0 : _), mget s.pwr.relock k none = some (t0, true) ∧ s.rd (pllStateF k) = 2 ∧ s.now - t0 ≤ 16000000) ∧
    (∃ (s : State) (k : Fin 2) (t0 : _), mget s.pwr.relock k none = some (t0, true) ∧ s.rd (pllStateF k) = 2 ∧ 16000000 ≤ s.now - t0) ∧
    (∃ (s : State), s.rd (pllStateF s.standbyPll) = 1) ∧
    (∃ (s : State) (t0 : _), mget s.pwr.relock s.standbyPll none = some (t0, false) ∧ s.rd (pllStateF s.standbyPll) = 2) ∧
    (∃ (s : State) (q : Requester), s.grants q true = true ∧ s.standbyReady = true) ∧
    (∃ (s : State) (q : Requester) (a : _) (b : _), s.grants q true = true ∧ s.on (pllRefF s.activePll) = ((if s.activePll = 0 then a else
    b)) ∧ s.on (pllRefF s.standbyPll) ≠ ((if s.activePll = 0 then b else a))) ∧
    (∃ (s : State) (r : Fin 2), s.on (refOkF r) = false) ∧
    ∃ (s : State) (r : Fin 2), s.on (refOkF r) = true := by
  refine ⟨⟨mk [(F.CLK_STATUS_ALIGNED, 1)], ?_⟩,
   ⟨State.reset, ?_⟩,
   ⟨{ mk [(F.CLK_STATUS_A_STATE, 2)] with pwr := { relock := [(0, some (100, true))] } }, 0, 100, ?_⟩,
   ⟨{ mk [(F.CLK_STATUS_B_STATE, 2), (F.LIGHT_TICKS_TICKS, 170000000)] with pwr := { relock := [(1, some (0, true))] } }, 1, 0, ?_⟩,
   ⟨State.reset, ?_⟩,
   ⟨{ mk [(F.CLK_STATUS_A_STATE, 2)] with pwr := { relock := [(0, some (0, false))] } }, 0, ?_⟩,
   ⟨mk [(F.CLK_STATUS_ALIGNED, 1)], .dysEth 1, ?_⟩,
   ⟨mk [(F.CLK_STATUS_A_STATE, 2)], .pf0, true, true, ?_⟩,
   ⟨State.reset, 0, ?_⟩,
   ⟨mk [(F.CLK_STATUS_REF1_OK, 1)], 1, ?_⟩⟩ <;> decide +kernel

theorem wit_ClockTree_2 :
    (∃ (s : State) (k : Fin 2), mget s.pwr.relock k none = none) ∧
    (∃ (s : State) (k : Fin 2) (t0 : _), mget s.pwr.relock k none = some (t0, true) ∧ s.rd (pllStateF k) = 2 ∧ s.now - t0 < 16000000) ∧
    (∃ (s : State) (k : Fin 2) (t0 : _), mget s.pwr.relock k none = some (t0, true) ∧ s.rd (pllStateF k) = 2 ∧ 16000000 < s.now - t0) ∧
    (∃ (s : State) (t0 : _), s.rd (pllStateF s.standbyPll) = 2 ∧ mget s.pwr.relock s.standbyPll none = some (t0, true)) ∧
    (∃ (s : State) (q : Requester), s.grants q true = true ∧ s.standbyReady = false) ∧
    (∃ (s : State) (q : Requester) (a : _) (b : _), s.grants q true = true ∧ s.on (pllRefF s.activePll) = ((if s.activePll = 0 then a else
    b)) ∧ s.on (pllRefF s.standbyPll) = ((if s.activePll = 0 then b else a))) ∧
    ∃ (s : State) (q : Requester) (a : _) (b : _), s.grants q true = true ∧ s.on (pllRefF s.activePll) ≠ ((if s.activePll = 0 then a else
    b)) ∧ s.on (pllRefF s.standbyPll) = ((if s.activePll = 0 then b else a)) := by
  refine ⟨⟨State.reset, 1, ?_⟩,
   ⟨{ mk [(F.CLK_STATUS_A_STATE, 2)] with pwr := { relock := [(0, some (100, true))] } }, 0, 100, ?_⟩,
   ⟨{ mk [(F.CLK_STATUS_B_STATE, 2), (F.LIGHT_TICKS_TICKS, 170000000)] with pwr := { relock := [(1, some (0, true))] } }, 1, 0, ?_⟩,
   ⟨{ mk [(F.CLK_STATUS_B_STATE, 2)] with pwr := { relock := [(1, some (0, true))] } }, 0, ?_⟩,
   ⟨State.reset, .pf0, ?_⟩,
   ⟨mk [(F.CLK_CFG_REF_A, 1)], .pf0, true, true, ?_⟩,
   ⟨mk [(F.CLK_CFG_REF_A, 1), (F.CLK_STATUS_A_STATE, 3)], .pf0, true, false, ?_⟩⟩ <;> decide +kernel

theorem wit_PowerControl :
    (∃ (s : State), s.on F.CLK_CORE_STRETCH = false ∧ s.rd F.CLK_CORE_PENDING ≠ 7 ∧ s.rd F.CLK_CORE_DIV < s.rd F.CLK_CORE_PENDING) ∧
    (∃ (s : State) (mv : Fin 1024), s.on F.CLK_CORE_STRETCH = false ∧ s.rd F.CLK_CORE_PENDING < s.rd F.CLK_CORE_DIV ∧ s.pwr.droopAt.any (fun
    t => s.now - t < 8000) = false ∧ s.pwr.target ≤ mv + 10 ∧ 32000 ≤ s.now - s.pwr.raisedAt) ∧
    (∃ (s : State), s.due .control 0 16000 = true) ∧
    (∃ (s : State), (s.pwr.under).any (fun t0 => decide (1600000 ≤ s.now - t0 ∧ s.due .takeback 0 1600000 = true ∧ s.pwr.thermYield <
    s.pwr.yields.length)) = true) ∧
    (∃ (s : State), (s.pwr.boostFrom).any (fun t0 => decide (160000 ≤ s.now - t0 ∧ s.pwrState = 0)) = true) ∧
    (∃ (s : State) (q : Requester), s.grants q true = true ∧ s.on F.PWR_CFG_MODE = false ∧ s.pwrState ≠ 4) ∧
    (∃ (s : State) (q : Requester), s.grants q true = true ∧ s.on F.PWR_CFG_MODE = true ∧ s.pwrState ≠ 4) ∧
    (∃ (s : State) (q : Requester), s.grants q true = true) ∧
    (∃ (s : State), s.pwrState = 4 ∧ s.on F.PWR_CFG_SAVE = false ∧ (s.on F.PWR_STATUS_PWRFAIL = false ∨ 16000000 ≤ s.now - s.pwr.failAt)) ∧
    ∃ (s : State), s.due .trim 0 160000 = true := by
  refine ⟨⟨mk [(F.CLK_CORE_PENDING, 4)], ?_⟩,
   ⟨mk [(F.CLK_CORE_PENDING, 0), (F.LIGHT_TICKS_TICKS, 1700009000)], 809, ?_⟩,
   ⟨mk [(F.LIGHT_TICKS_TICKS, 27000)], ?_⟩,
   ⟨{ mk [(F.LIGHT_TICKS_TICKS, 1700027000)] with pwr := { yields := [0], under := some 429 } }, ?_⟩,
   ⟨{ mk [(F.LIGHT_TICKS_TICKS, 1700027000)] with pwr := { boostFrom := some 2202 } }, ?_⟩,
   ⟨State.reset, .pf0, ?_⟩,
   ⟨mk [(F.PWR_CFG_MODE, 1)], .dysEth 1, ?_⟩,
   ⟨State.reset, .pf0, ?_⟩,
   ⟨mk [(F.PWR_STATUS_STATE, 4)], ?_⟩,
   ⟨mk [(F.LIGHT_TICKS_TICKS, 1700009000)], ?_⟩⟩ <;> decide +kernel

theorem wit_PowerControl_2 :
    (∃ (s : State), (s.rd F.CLK_CORE_PENDING = 7 ∨ s.on F.CLK_CORE_STRETCH = true)) ∧
    (∃ (s : State) (mv : Fin 1024), s.rd F.CLK_CORE_PENDING ≤ s.rd F.CLK_CORE_DIV ∧ (s.pwr.droopAt.any (fun t => s.now - t < 8000) = true ∨
    mv + 10 < s.pwr.target ∨ s.now - s.pwr.raisedAt < 32000)) ∧
    (∃ (s : State), s.due .control 0 16000 = false) ∧
    (∃ (s : State), (s.pwr.under = none ∨ s.due .takeback 0 1600000 = false ∨ s.pwr.yields.length ≤ s.pwr.thermYield)) ∧
    (∃ (s : State), (s.pwr.under).any (fun t0 => decide (s.now - t0 < 1600000)) = true) ∧
    (∃ (s : State), (s.pwr.boostFrom = none ∨ s.pwrState ≠ 0)) ∧
    (∃ (s : State), (s.pwr.boostFrom).any (fun t0 => decide (s.now - t0 < 160000)) = true) ∧
    (∃ (s : State) (q : Requester) (mode : _), s.grants q true = true ∧ s.on F.PWR_CFG_MODE = mode) ∧
    (∃ (s : State) (q : Requester) (mode : _), s.grants q true = true ∧ s.on F.PWR_CFG_MODE ≠ mode ∧ s.pwrState = 4) ∧
    ∃ (s : State), (s.pwrState ≠ 4 ∨ s.on F.PWR_CFG_SAVE = true) := by
  refine ⟨⟨State.reset, ?_⟩,
   ⟨mk [(F.CLK_CORE_PENDING, 0)], 514, ?_⟩,
   ⟨State.reset, ?_⟩,
   ⟨State.reset, ?_⟩,
   ⟨{ State.reset with pwr := { under := some 449 } }, ?_⟩,
   ⟨State.reset, ?_⟩,
   ⟨{ State.reset with pwr := { boostFrom := some 1749 } }, ?_⟩,
   ⟨State.reset, .pf0, false, ?_⟩,
   ⟨mk [(F.PWR_CFG_MODE, 1), (F.PWR_STATUS_STATE, 4)], .regInit, false, ?_⟩,
   ⟨State.reset, ?_⟩⟩ <;> decide +kernel

theorem wit_PowerControl_3 :
    (∃ (s : State), s.on F.PWR_STATUS_PWRFAIL = true ∧ s.now - s.pwr.failAt < 16000000) ∧
    ∃ (s : State), s.due .trim 0 160000 = false := by
  refine ⟨⟨mk [(F.PWR_STATUS_PWRFAIL, 1)], ?_⟩,
   ⟨State.reset, ?_⟩⟩ <;> decide +kernel

theorem wit_PowerProtect :
    (∃ (s : State), s.on F.CLK_CORE_STRETCH = true ∧ max 64 (s.rd F.PWR_DROOP_CFG_MIN_CYCLES) * (stretchHalves (s.rd F.CLK_CORE_DIV)) ≤
    (s.now - s.pwr.stretchAt) * 8 ∧ 64 * (stretchHalves (s.rd F.CLK_CORE_DIV)) ≤ (s.now - s.pwr.droopAt.getD 0) * 8) ∧
    (∃ (s : State) (amps : Nat) (watts : Nat), (min 1000 (s.rd F.PWR_IMAX_IMAX) ≤ amps ∨ 1600 < watts)) ∧
    (∃ (s : State), s.on F.PWR_STATUS_ILIMIT = true ∧ 16000 ≤ s.now - s.pwr.limitAt) ∧
    (∃ (s : State) (temps : List (Fin 256)), s.due .thermal 0 160000 = true ∧ temps.length = 128) ∧
    (∃ (s : State), s.on F.PWR_STATUS_THERM_THROTTLE = true ∧ s.due .throttle 0 1600000 = true ∧ s.tooHot = true ∧ s.dutyNow = 4 ∧
    s.nextYield = none ∧ s.policyCode + s.thermCodes < 4) ∧
    (∃ (s : State), s.on F.PWR_STATUS_THERM_THROTTLE = true ∧ s.due .throttle 0 1600000 = true ∧ s.coolEnough = true ∧ s.pwr.thermSteps ≠
    []) ∧
    (∃ (s : State), s.on F.PWR_STATUS_THERM_THROTTLE = true ∧ s.due .throttle 0 1600000 = true ∧ s.coolEnough = true ∧ s.pwr.thermSteps = []
    ∧ (s.pwr.thermYield = 0 ∨ s.pwr.yields = [])) ∧
    (∃ (s : State) (values : List (Fin 65536)), s.due .age 0 1600000000 = true ∧ values.length = 256) ∧
    (∃ (s : State), ((s.now - s.pwr.stretchAt) * 8 < max 64 (s.rd F.PWR_DROOP_CFG_MIN_CYCLES) * (stretchHalves (s.rd F.CLK_CORE_DIV)) ∨
    (s.now - s.pwr.droopAt.getD 0) * 8 < 64 * (stretchHalves (s.rd F.CLK_CORE_DIV)))) ∧
    ∃ (s : State) (amps : Nat) (watts : Nat), amps < min 1000 (s.rd F.PWR_IMAX_IMAX) ∧ watts ≤ 1600 := by
  refine ⟨⟨mk [(F.CLK_CORE_STRETCH, 1), (F.LIGHT_TICKS_TICKS, 9000)], ?_⟩,
   ⟨State.reset, 1413, 1334, ?_⟩,
   ⟨mk [(F.PWR_STATUS_ILIMIT, 1), (F.LIGHT_TICKS_TICKS, 27000)], ?_⟩,
   ⟨mk [(F.LIGHT_TICKS_TICKS, 1700009000)], [117, 100, 83, 82, 115, 99, 98, 81, 114, 113, 97, 80, 79, 112, 95, 95, 78, 111, 110, 93, 92,
    76, 109, 108, 91, 74, 74, 107, 90, 89, 72, 106, 105, 88, 71, 70, 104, 87, 86, 119, 102, 102, 85, 118, 117, 100, 84, 83, 116, 115, 98,
    82, 81, 114, 97, 96, 80, 113, 112, 95, 78, 78, 111, 94, 93, 76, 110, 109, 92, 75, 74, 108, 91, 90, 73, 106, 106, 89, 88, 71, 104, 103,
    87, 70, 119, 102, 85, 85, 118, 101, 100, 83, 117, 116, 99, 82, 81, 115, 98, 97, 80, 113, 113, 96, 79, 78, 111, 111, 94, 77, 76, 109, 93,
    92, 75, 108, 107, 91, 74, 73, 106, 89, 89, 72, 105, 104, 87, 71], ?_⟩,
   ⟨{ mk [(F.PWR_STATUS_THERM_THROTTLE, 1), (F.PWR_THERM_STATUS_TJ, 100), (F.LIGHT_TICKS_TICKS, 1700018000)] with pwr := { dutyLimit := 4 } },
    ?_⟩,
   ⟨{ mk [(F.PWR_STATUS_THERM_THROTTLE, 1), (F.LIGHT_TICKS_TICKS, 1700009000)] with pwr := { thermSteps := [true] } }, ?_⟩,
   ⟨mk [(F.PWR_STATUS_THERM_THROTTLE, 1), (F.LIGHT_TICKS_TICKS, 1700009000)], ?_⟩,
   ⟨mk [(F.LIGHT_TICKS_TICKS, 1700009000)], [15633, 10182, 23915, 37648, 32198, 45931, 9664, 4213, 17946, 31680, 26229, 39962, 3695, 48244,
    11977, 25711, 20260, 33993, 28542, 42275, 6009, 558, 14291, 28024, 22573, 36307, 40, 44589, 8322, 22055, 16605, 30338, 44071, 38620,
    2353, 16087, 10636, 24369, 38102, 32651, 46385, 10118, 4667, 18400, 32133, 26683, 40416, 34965, 48698, 12431, 6981, 20714, 34447, 28996,
    42729, 6463, 1012, 14745, 28478, 23027, 36761, 494, 45043, 8776, 22509, 17059, 30792, 44525, 39074, 2807, 16541, 11090, 24823, 38556,
    33105, 46838, 41388, 5121, 18854, 13403, 27136, 40870, 35419, 49152, 12885, 7434, 21168, 34901, 29450, 43183, 6916, 1466, 15199, 28932,
    23481, 37214, 948, 45497, 9230, 22963, 17512, 31246, 44979, 39528, 3261, 47810, 11544, 25277, 19826, 33559, 47292, 41842, 5575, 19308,
    13857, 27590, 41324, 35873, 49606, 13339, 7888, 21622, 35355, 29904, 43637, 7370, 1920, 15653, 29386, 23935, 37668, 1401, 45951, 9684,
    4233, 17966, 31699, 26249, 39982, 3715, 48264, 11997, 25731, 20280, 34013, 47746, 42295, 6029, 19762, 14311, 28044, 41777, 36327, 60,
    13793, 8342, 22075, 35809, 30358, 44091, 38640, 2373, 16107, 10656, 24389, 38122, 32671, 46405, 10138, 4687, 18420, 32153, 26703, 40436,
    4169, 48718, 12451, 26185, 20734, 34467, 48200, 42749, 6483, 20216, 14765, 28498, 42231, 36781, 514, 45063, 8796, 22529, 17078, 30812,
    44545, 39094, 2827, 16560, 11110, 24843, 38576, 33125, 46858, 10592, 5141, 18874, 32607, 27156, 40890, 4623, 49172, 12905, 26638, 21188,
    34921, 48654, 43203, 6936, 1486, 15219, 28952, 23501, 37234, 968, 45517, 9250, 22983, 17532, 31266, 44999, 39548, 3281, 17014, 11564,
    25297, 39030, 33579, 47312, 11046, 5595, 19328, 33061, 27610, 41344, 5077, 49626, 13359, 7908, 21642, 35375, 29924, 43657, 7390, 1939,
    15673, 29406], ?_⟩,
   ⟨State.reset, ?_⟩,
   ⟨State.reset, 1, 2, ?_⟩⟩ <;> decide +kernel

theorem wit_PowerProtect_2 :
    (∃ (s : State), (s.on F.PWR_STATUS_ILIMIT = false ∨ s.now - s.pwr.limitAt < 16000)) ∧
    (∃ (s : State) (temps : List (Fin 256)), (s.due .thermal 0 160000 = false ∨ temps.length ≠ 128)) ∧
    (∃ (s : State), (s.on F.PWR_STATUS_THERM_THROTTLE = false ∨ s.due .throttle 0 1600000 = false)) ∧
    ∃ (s : State) (values : List (Fin 65536)), (s.due .age 0 1600000000 = false ∨ values.length ≠ 256) := by
  refine ⟨⟨State.reset, ?_⟩,
   ⟨State.reset, [49, 32, 65, 64, 47, 31, 30, 63, 46, 45, 29, 62, 61, 44, 43, 27, 60, 59, 42, 25, 25, 58, 41, 40, 23, 57, 56, 39, 22, 21,
    55, 38, 37, 20, 53, 53, 36, 69, 68, 51, 51, 34, 67, 66, 49, 33, 32, 65, 48, 47, 31, 64, 63, 46, 29, 28, 62, 45, 44, 27, 60, 60, 43, 26,
    25, 58, 42, 41, 24, 23, 56, 40, 39, 22, 55, 54, 38, 21, 20, 53, 36, 36, 69, 52, 51, 34, 68, 67, 50, 33, 32, 66, 49, 48, 31, 64, 64, 47,
    46, 29, 62, 62, 45, 28, 27, 60, 44, 43, 26, 59, 58, 42, 25, 24, 57, 40, 39, 23, 56, 55, 38, 21, 21, 54, 37, 36, 69, 69], ?_⟩,
   ⟨State.reset, ?_⟩,
   ⟨State.reset, [35667, 30216, 43950, 7683, 2232, 15965, 29698, 24248, 37981, 1714, 46263, 9996, 23730, 18279, 32012, 45745, 40294, 4028,
    17761, 12310, 26043, 20592, 34326, 48059, 42608, 6341, 20074, 14624, 28357, 42090, 36639, 372, 14106, 8655, 22388, 36121, 30670, 44403,
    8137, 2686, 16419, 30152, 24701, 38435, 2168, 46717, 10450, 24183, 18733, 32466, 27015, 40748, 4481, 49031, 12764, 26497, 21046, 34779,
    48513, 43062, 6795, 20528, 15077, 28811, 42544, 37093, 826, 14559, 9109, 22842, 36575, 31124, 44857, 8591, 3140, 16873, 30606, 25155,
    38889, 33438, 47171, 10904, 5453, 19187, 32920, 27469, 41202, 4935, 49485, 13218, 26951, 21500, 35233, 48967, 43516, 7249, 20982, 15531,
    29264, 42998, 37547, 1280, 15013, 9562, 23296, 37029, 31578, 45311, 39860, 3594, 17327, 11876, 25609, 39342, 33892, 47625, 11358, 5907,
    19640, 33374, 27923, 41656, 5389, 49938, 13672, 27405, 21954], ?_⟩⟩ <;> decide +kernel

theorem wit_KeepSaves :
    (∃ (s : State) (k : Fin 3), s.ready = true ∧ s.keep.save = none ∧ ((k = 0 ∧ s.on F.KEEP_CFG_PWRFAIL_EN = true) ∨ (k = 1 ∧ s.on
    F.KEEP_CFG_VKEEP_EN = true) ∨ (k = 2 ∧ s.on F.KEEP_CFG_THERM_EN = true))) ∧
    (∃ (s : State), (s.keep.save).isSome = true ∧ s.ready = true ∧ s.on F.KEEP_CFG_THERM_EN = true ∧ s.now - s.keep.saveAt < 1600) ∧
    (∃ (s : State), s.on F.KEEP_CFG_VKEEP_EN = false) ∧
    (∃ (s : State), s.on F.KEEP_CFG_VKEEP_EN = true ∧ s.ready = true ∧ s.keep.save = none) ∧
    (∃ (s : State) (q : Requester), s.grants q true = true ∧ s.keep.save = none ∧ s.ready = true) ∧
    (∃ (s : State), (s.keep.save).isSome = true) ∧
    (∃ (s : State) (k : Fin 3), (s.ready = false ∨ (k = 0 ∧ s.on F.KEEP_CFG_PWRFAIL_EN = false) ∨ (k = 1 ∧ s.on F.KEEP_CFG_VKEEP_EN = false)
    ∨ (k = 2 ∧ s.on F.KEEP_CFG_THERM_EN = false))) ∧
    (∃ (s : State) (k : Fin 3), (s.keep.save).isSome = true ∧ s.ready = true ∧ k ≠ 2) ∧
    (∃ (s : State) (q : Requester), s.grants q true = true ∧ (s.keep.save).isSome = true) ∧
    ∃ (s : State) (q : Requester), s.grants q true = true ∧ s.keep.save = none ∧ s.ready = false := by
  refine ⟨⟨mk [(F.BOOT_STATUS_STAGE, 6)], 1, ?_⟩,
   ⟨{ mk [(F.BOOT_STATUS_STAGE, 6)] with keep := { save := some { seq := 7, trigger := 1, sec := 4172126389, ns := 2086063194, secs := [(0, { regs := [(7, 4)], map := [], partners := [], ages := [], repairs := [], snap := none, events := [], time := some (1, 2, 4172126389, 4) }), (1, { regs := [(8, 5)], map := [], partners := [], ages := [], repairs := [], snap := none, events := [], time := some (1, 2, 4172126390, 4) }), (2, { regs := [(0, 6)], map := [], partners := [], ages := [], repairs := [], snap := none, events := [], time := some (1, 2, 4172126391, 4) }), (3, { regs := [(1, 0)], map := [], partners := [], ages := [], repairs := [], snap := none, events := [], time := some (1, 2, 4172126392, 4) }), (4, { regs := [(2, 1)], map := [], partners := [], ages := [], repairs := [], snap := none, events := [], time := some (1, 2, 4172126393, 4) }), (5, { regs := [(3, 2)], map := [], partners := [], ages := [], repairs := [], snap := none, events := [], time := some (1, 2, 4172126394, 4) }), (6, { regs := [(4, 3)], map := [], partners := [], ages := [], repairs := [], snap := none, events := [], time := some (1, 2, 4172126395, 4) })] } } },
    ?_⟩,
   ⟨mk [(F.KEEP_CFG_VKEEP_EN, 0)], ?_⟩,
   ⟨mk [(F.BOOT_STATUS_STAGE, 6)], ?_⟩,
   ⟨mk [(F.BOOT_STATUS_STAGE, 6)], .regInit, ?_⟩,
   ⟨{ State.reset with keep := { save := some { seq := 8, trigger := 1, sec := 6222966749, ns := 3111483374, secs := [(0, { regs := [(8, 6)], map := [], partners := [], ages := [], repairs := [], snap := none, events := [], time := some (1, 2, 6222966749, 4) }), (1, { regs := [(0, 0)], map := [], partners := [], ages := [], repairs := [], snap := none, events := [], time := some (1, 2, 6222966750, 4) }), (2, { regs := [(1, 1)], map := [], partners := [], ages := [], repairs := [], snap := none, events := [], time := some (1, 2, 6222966751, 4) }), (3, { regs := [(2, 2)], map := [], partners := [], ages := [], repairs := [], snap := none, events := [], time := some (1, 2, 6222966752, 4) }), (4, { regs := [(3, 3)], map := [], partners := [], ages := [], repairs := [], snap := none, events := [], time := some (1, 2, 6222966753, 4) }), (5, { regs := [(4, 4)], map := [], partners := [], ages := [], repairs := [], snap := none, events := [], time := some (1, 2, 6222966754, 4) }), (6, { regs := [(5, 5)], map := [], partners := [], ages := [], repairs := [], snap := none, events := [], time := some (1, 2, 6222966755, 4) })] } } },
    ?_⟩,
   ⟨State.reset, 2, ?_⟩,
   ⟨{ mk [(F.BOOT_STATUS_STAGE, 6)] with keep := { save := some { seq := 4, trigger := 3, sec := 1001488819, ns := 500744409, secs := [(0, { regs := [(4, 2)], map := [], partners := [], ages := [], repairs := [], snap := none, events := [], time := some (1, 2, 1001488819, 4) }), (1, { regs := [(5, 3)], map := [], partners := [], ages := [], repairs := [], snap := none, events := [], time := some (1, 2, 1001488820, 4) }), (2, { regs := [(6, 4)], map := [], partners := [], ages := [], repairs := [], snap := none, events := [], time := some (1, 2, 1001488821, 4) }), (3, { regs := [(7, 5)], map := [], partners := [], ages := [], repairs := [], snap := none, events := [], time := some (1, 2, 1001488822, 4) }), (4, { regs := [(8, 6)], map := [], partners := [], ages := [], repairs := [], snap := none, events := [], time := some (1, 2, 1001488823, 4) }), (5, { regs := [(0, 0)], map := [], partners := [], ages := [], repairs := [], snap := none, events := [], time := some (1, 2, 1001488824, 4) }), (6, { regs := [(1, 1)], map := [], partners := [], ages := [], repairs := [], snap := none, events := [], time := some (1, 2, 1001488825, 4) })] } } },
    1, ?_⟩,
   ⟨{ State.reset with keep := { save := some { seq := 8, trigger := 1, sec := 6222966749, ns := 3111483374, secs := [(0, { regs := [(8, 6)], map := [], partners := [], ages := [], repairs := [], snap := none, events := [], time := some (1, 2, 6222966749, 4) }), (1, { regs := [(0, 0)], map := [], partners := [], ages := [], repairs := [], snap := none, events := [], time := some (1, 2, 6222966750, 4) }), (2, { regs := [(1, 1)], map := [], partners := [], ages := [], repairs := [], snap := none, events := [], time := some (1, 2, 6222966751, 4) }), (3, { regs := [(2, 2)], map := [], partners := [], ages := [], repairs := [], snap := none, events := [], time := some (1, 2, 6222966752, 4) }), (4, { regs := [(3, 3)], map := [], partners := [], ages := [], repairs := [], snap := none, events := [], time := some (1, 2, 6222966753, 4) }), (5, { regs := [(4, 4)], map := [], partners := [], ages := [], repairs := [], snap := none, events := [], time := some (1, 2, 6222966754, 4) }), (6, { regs := [(5, 5)], map := [], partners := [], ages := [], repairs := [], snap := none, events := [], time := some (1, 2, 6222966755, 4) })] } } },
    .pf0, ?_⟩,
   ⟨State.reset, .pf0, ?_⟩⟩ <;> decide +kernel

theorem wit_KeepSaves_2 :
    ∃ (s : State), s.keep.save = none := by
  exact ⟨State.reset, by decide +kernel⟩

theorem wit_FerryTree :
    (∃ (s : State), s.on F.PWR_CFG_FERRY_EN = true ∧ s.due .announce 0 160000000 = true) ∧
    (∃ (s : State) (p : Fin 512) (frame : Bytes), s.portState p = 3 ∧ beAt frame 12 2 = s.rd F.PWR_FERRY_CFG_ETYPE ∧ beAt frame 15 1 =
    ferryAnnounce ∧ fcsGood frame = true ∧ (s.ferryLink p = false ∨ s.on (F.PORT_CFG_TRUSTED p) = false)) ∧
    (∃ (s : State) (p : Fin 512) (frame : Bytes), s.portState p = 3 ∧ beAt frame 12 2 = s.rd F.PWR_FERRY_CFG_ETYPE ∧ beAt frame 15 1 =
    ferryAnnounce ∧ fcsGood frame = true ∧ s.ferryLink p = true ∧ s.on (F.PORT_CFG_TRUSTED p) = true ∧ beAt frame 18 4 ≠ s.rd
    F.PWR_FERRY_JOB_JOB) ∧
    (∃ (s : State) (p : Fin 512) (frame : Bytes), s.portState p = 3 ∧ beAt frame 12 2 = s.rd F.PWR_FERRY_CFG_ETYPE ∧ beAt frame 15 1 =
    ferryAnnounce ∧ fcsGood frame = true ∧ s.ferryLink p = true ∧ s.on (F.PORT_CFG_TRUSTED p) = true ∧ beAt frame 18 4 = s.rd
    F.PWR_FERRY_JOB_JOB ∧ beAt frame 14 1 = 1) ∧
    (∃ (s : State), (s.on F.PWR_CFG_FERRY_EN = false ∨ s.due .announce 0 160000000 = false)) ∧
    (∃ (s : State) (p : Fin 512) (frame : Bytes), (s.portState p ≠ 3 ∨ beAt frame 12 2 ≠ s.rd F.PWR_FERRY_CFG_ETYPE ∨ beAt frame 15 1 ≠
    ferryAnnounce)) ∧
    (∃ (s : State), s.ferryRole = 1 ∧ s.due .report 0 s.ferryPeriod = true) ∧
    (∃ (s : State), s.on F.PWR_STATUS_HOLDING_OFF = true ∧ s.due .lag 0 160000 = true ∧ s.ferryRole = 1) ∧
    (∃ (s : State), s.on F.PWR_STATUS_HOLDING_OFF = true ∧ s.due .lag 0 160000 = true ∧ s.ferryRole = 2) ∧
    ∃ (s : State) (p : Fin 512) (frame : Bytes), (s.ferryRx p ferryReport frame).any (fun r => decide (r.1 = false)) = true := by
  refine ⟨⟨mk [(F.PWR_CFG_FERRY_EN, 1), (F.LIGHT_TICKS_TICKS, 1700009000)], ?_⟩,
   ⟨mk [(F.PORT_STATUS_STATE 1, 3)], 1, [0x01#8, 0x80#8, 0xc2#8, 0x00#8, 0x00#8, 0x0e#8, 0x00#8, 0x00#8, 0x00#8, 0x00#8, 0x00#8, 0x05#8,
    0x88#8, 0xb5#8, 0x01#8, 0x01#8, 0x00#8, 0x01#8, 0x00#8, 0x00#8, 0x00#8, 0x05#8, 0x00#8, 0x00#8, 0x00#8, 0x00#8, 0x00#8, 0x00#8, 0x00#8,
    0x02#8, 0x00#8, 0x00#8, 0x00#8, 0x01#8, 0x00#8, 0x00#8, 0x00#8, 0x00#8, 0x02#8, 0x00#8, 0x00#8, 0x00#8, 0x00#8, 0x00#8, 0x00#8, 0x4d#8,
    0x00#8, 0x00#8, 0x00#8, 0x00#8, 0x00#8, 0x00#8, 0x00#8, 0x01#8, 0x00#8, 0x00#8, 0x00#8, 0x00#8, 0x00#8, 0x00#8, 0x45#8, 0xf8#8, 0x00#8,
    0xf1#8], ?_⟩,
   ⟨mk [(F.PWR_CFG_FERRY_EN, 1), (F.PORT_STATUS_STATE 0, 3), (F.PORT_CFG_TRUSTED 0, 1), (F.PWR_FERRY_PORT_VALID 1, 1)], 0, [0x01#8, 0x80#8,
    0xc2#8, 0x00#8, 0x00#8, 0x0e#8, 0x00#8, 0x00#8, 0x00#8, 0x00#8, 0x00#8, 0x05#8, 0x88#8, 0xb5#8, 0x01#8, 0x01#8, 0x00#8, 0x00#8, 0x00#8,
    0x00#8, 0x00#8, 0x06#8, 0x00#8, 0x00#8, 0x00#8, 0x00#8, 0x00#8, 0x00#8, 0x00#8, 0x00#8, 0x00#8, 0x00#8, 0x00#8, 0x02#8, 0x00#8, 0x00#8,
    0x00#8, 0x00#8, 0x00#8, 0x03#8, 0x00#8, 0x00#8, 0x00#8, 0x00#8, 0x00#8, 0x4d#8, 0x00#8, 0x00#8, 0x00#8, 0x00#8, 0x00#8, 0x00#8, 0x00#8,
    0x02#8, 0x00#8, 0x00#8, 0x00#8, 0x00#8, 0x00#8, 0x00#8, 0xda#8, 0xbf#8, 0x75#8, 0xaf#8], ?_⟩,
   ⟨mk [(F.PWR_CFG_FERRY_EN, 1), (F.PWR_FERRY_JOB_JOB, 5), (F.PORT_STATUS_STATE 0, 3), (F.PORT_CFG_TRUSTED 0, 1), (F.PWR_FERRY_PORT_VALID
    1, 1)], 0, [0x01#8, 0x80#8, 0xc2#8, 0x00#8, 0x00#8, 0x0e#8, 0x00#8, 0x00#8, 0x00#8, 0x00#8, 0x00#8, 0x05#8, 0x88#8, 0xb5#8, 0x01#8,
    0x01#8, 0x00#8, 0x01#8, 0x00#8, 0x00#8, 0x00#8, 0x05#8, 0x00#8, 0x00#8, 0x00#8, 0x00#8, 0x00#8, 0x00#8, 0x00#8, 0x01#8, 0x00#8, 0x00#8,
    0x00#8, 0x01#8, 0x00#8, 0x00#8, 0x00#8, 0x00#8, 0x01#8, 0x02#8, 0x00#8, 0x00#8, 0x00#8, 0x00#8, 0x00#8, 0x4d#8, 0x00#8, 0x00#8, 0x00#8,
    0x00#8, 0x00#8, 0x00#8, 0x00#8, 0x00#8, 0x00#8, 0x00#8, 0x00#8, 0x00#8, 0x00#8, 0x00#8, 0xbf#8, 0x66#8, 0xe3#8, 0x99#8], ?_⟩,
   ⟨State.reset, ?_⟩,
   ⟨State.reset, 2, [0x01#8, 0x80#8, 0xc2#8, 0x00#8, 0x00#8, 0x0e#8, 0x00#8, 0x00#8, 0x00#8, 0x00#8, 0x00#8, 0x05#8, 0x88#8, 0xb5#8,
    0x01#8, 0x01#8, 0x00#8, 0x01#8, 0x00#8, 0x00#8, 0x00#8, 0x05#8, 0x00#8, 0x00#8, 0x00#8, 0x00#8, 0x00#8, 0x00#8, 0x00#8, 0x01#8, 0x00#8,
    0x00#8, 0x00#8, 0x00#8, 0x00#8, 0x00#8, 0x00#8, 0x00#8, 0x04#8, 0x01#8, 0x00#8, 0x00#8, 0x00#8, 0x00#8, 0x00#8, 0x4d#8, 0x00#8, 0x00#8,
    0x00#8, 0x00#8, 0x00#8, 0x00#8, 0x00#8, 0x02#8, 0x00#8, 0x00#8, 0x00#8, 0x00#8, 0x00#8, 0x00#8, 0xf4#8, 0x19#8, 0x67#8, 0x50#8], ?_⟩,
   ⟨mk [(F.PWR_FERRY_STATUS_ROLE, 1), (F.LIGHT_TICKS_TICKS, 1700009000)], ?_⟩,
   ⟨mk [(F.PWR_FERRY_STATUS_ROLE, 1), (F.PWR_STATUS_HOLDING_OFF, 1), (F.LIGHT_TICKS_TICKS, 1700009000)], ?_⟩,
   ⟨mk [(F.PWR_FERRY_STATUS_ROLE, 2), (F.PWR_STATUS_HOLDING_OFF, 1), (F.LIGHT_TICKS_TICKS, 1700018000)], ?_⟩,
   ⟨mk [(F.PORT_STATUS_STATE 2, 3)], 2, ([0x01#8, 0x80#8, 0xc2#8, 0x00#8, 0x00#8, 0x0e#8, 0x00#8, 0x00#8, 0x00#8, 0x00#8, 0x00#8, 0x05#8,
    0x88#8, 0xb5#8, 0x01#8, 0x02#8, 0x00#8, 0x00#8, 0x00#8, 0x00#8, 0x00#8, 0x05#8] ++ List.replicate 11 0x00#8 ++ [0x01#8] ++
    List.replicate 12 0x00#8 ++ [0x01#8, 0x2c#8] ++ List.replicate 35 0x00#8 ++ [0x3b#8, 0x36#8, 0x31#8, 0x05#8, 0x4c#8, 0x3e#8, 0xa5#8,
    0x96#8, 0x61#8]), ?_⟩⟩ <;> decide +kernel

theorem wit_FerryTree_2 :
    (∃ (s : State) (p : Fin 512) (frame : Bytes), (s.ferryRx p ferryReport frame).any (fun r => decide (r.1 = true ∧ s.on
    F.PWR_FERRY_CFG_SOFT_COORD = false ∧ s.ferryRole = 1 ∧ p.val ≠ s.upLink)) = true) ∧
    (∃ (s : State) (p : Fin 512) (frame : Bytes), (s.ferryRx p ferryReport frame).any (fun r => decide (r.1 = true ∧ s.on
    F.PWR_FERRY_CFG_SOFT_COORD = false ∧ s.ferryRole = 1 ∧ p.val = s.upLink)) = true) ∧
    (∃ (s : State) (p : Fin 512) (frame : Bytes), (s.ferryRx p ferryReport frame).any (fun r => decide (r.1 = true ∧ s.on
    F.PWR_FERRY_CFG_SOFT_COORD = false ∧ s.ferryRole = 2 ∧ s.pwr.seen.contains (beAt frame 22 8, ferryReport, beAt frame 30 4) = true)) =
    true) ∧
    (∃ (s : State) (p : Fin 512) (frame : Bytes), (s.ferryRx p ferryReport frame).any (fun r => decide (r.1 = true ∧ s.on
    F.PWR_FERRY_CFG_SOFT_COORD = false ∧ s.ferryRole = 2 ∧ s.pwr.seen.contains (beAt frame 22 8, ferryReport, beAt frame 30 4) = false ∧
    beAt frame 16 2 = 0)) = true) ∧
    (∃ (s : State) (p : Fin 512) (frame : Bytes), (s.ferryRx p ferryLag frame).any (fun r => decide (r.1 = false)) = true) ∧
    (∃ (s : State) (p : Fin 512) (frame : Bytes), (s.ferryRx p ferryLag frame).any (fun r => decide (r.1 = true ∧ s.on
    F.PWR_FERRY_CFG_SOFT_COORD = false ∧ s.ferryRole = 1 ∧ p.val ≠ s.upLink)) = true) ∧
    (∃ (s : State) (p : Fin 512) (frame : Bytes), (s.ferryRx p ferryLag frame).any (fun r => decide (r.1 = true ∧ s.on
    F.PWR_FERRY_CFG_SOFT_COORD = false ∧ s.ferryRole = 2 ∧ s.pwr.seen.contains (beAt frame 22 8, ferryLag, beAt frame 30 4) = false)) =
    true) ∧
    (∃ (s : State), (s.ferryRole ≠ 1 ∨ s.due .report 0 s.ferryPeriod = false)) ∧
    (∃ (s : State), (s.on F.PWR_STATUS_HOLDING_OFF = false ∨ s.ferryRole = 0 ∨ s.due .lag 0 160000 = false)) ∧
    ∃ (s : State) (p : Fin 512) (frame : Bytes), s.ferryRx p ferryReport frame = none := by
  refine ⟨⟨mk [(F.PWR_CFG_FERRY_EN, 1), (F.PWR_FERRY_JOB_JOB, 5), (F.PWR_FERRY_STATUS_ROLE, 1), (F.PORT_STATUS_STATE 0, 3), (F.PORT_CFG_TRUSTED 0,
    1), (F.PWR_FERRY_PORT_VALID 0, 1)], 0, ([0x01#8, 0x80#8, 0xc2#8, 0x00#8, 0x00#8, 0x0e#8, 0x00#8, 0x00#8, 0x00#8, 0x00#8, 0x00#8, 0x05#8,
    0x88#8, 0xb5#8, 0x01#8, 0x02#8, 0x00#8, 0x00#8, 0x00#8, 0x00#8, 0x00#8, 0x05#8] ++ List.replicate 7 0x00#8 ++ [0x02#8] ++ List.replicate
    16 0x00#8 ++ [0x01#8, 0x2c#8] ++ List.replicate 35 0x00#8 ++ [0x04#8, 0xa7#8, 0x5f#8, 0x19#8, 0x4f#8, 0x97#8, 0x5e#8, 0xb7#8, 0x8a#8]),
    ?_⟩,
   ⟨mk [(F.PWR_CFG_FERRY_EN, 1), (F.PWR_FERRY_JOB_JOB, 5), (F.PWR_FERRY_STATUS_ROLE, 1), (F.PWR_FERRY_STATUS_UP, 0), (F.PORT_STATUS_STATE
    0, 3), (F.PORT_CFG_TRUSTED 0, 1), (F.PWR_FERRY_PORT_VALID 0, 1)], 0, ([0x01#8, 0x80#8, 0xc2#8, 0x00#8, 0x00#8, 0x0e#8, 0x00#8, 0x00#8,
    0x00#8, 0x00#8, 0x00#8, 0x05#8, 0x88#8, 0xb5#8, 0x01#8, 0x02#8, 0x00#8, 0x01#8, 0x00#8, 0x00#8, 0x00#8, 0x05#8] ++ List.replicate 11
    0x00#8 ++ [0x01#8] ++ List.replicate 12 0x00#8 ++ [0x01#8, 0x2c#8] ++ List.replicate 35 0x00#8 ++ [0x2a#8, 0x56#8, 0x2f#8, 0x52#8,
    0xaa#8, 0x43#8, 0x30#8, 0x22#8, 0x77#8]), ?_⟩,
   ⟨{ mk [(F.PWR_CFG_FERRY_EN, 1), (F.PWR_FERRY_JOB_JOB, 5), (F.PWR_FERRY_STATUS_ROLE, 2), (F.PORT_STATUS_STATE 0, 3), (F.PORT_CFG_TRUSTED 0, 1), (F.PWR_FERRY_PORT_VALID 0, 1)] with pwr := { seen := [(0, 2, 0)] } },
    0, ([0x01#8, 0x80#8, 0xc2#8, 0x00#8, 0x00#8, 0x0e#8, 0x00#8, 0x00#8, 0x00#8, 0x00#8, 0x00#8, 0x05#8, 0x88#8, 0xb5#8, 0x01#8, 0x02#8,
    0x00#8, 0x00#8, 0x00#8, 0x00#8, 0x00#8, 0x05#8] ++ List.replicate 24 0x00#8 ++ [0x01#8, 0x2c#8] ++ List.replicate 36 0x00#8 ++ [0x88#8,
    0x98#8, 0x0a#8, 0xcc#8, 0x10#8, 0x5f#8, 0x40#8, 0xd4#8]), ?_⟩,
   ⟨mk [(F.PWR_CFG_FERRY_EN, 1), (F.PWR_FERRY_JOB_JOB, 5), (F.PWR_FERRY_STATUS_ROLE, 2), (F.PWR_FERRY_PORT_PORT 1, 1), (F.PORT_STATUS_STATE
    1, 3), (F.PORT_CFG_TRUSTED 1, 1), (F.PWR_FERRY_PORT_VALID 1, 1)], 1, ([0x01#8, 0x80#8, 0xc2#8, 0x00#8, 0x00#8, 0x0e#8, 0x00#8, 0x00#8,
    0x00#8, 0x00#8, 0x00#8, 0x05#8, 0x88#8, 0xb5#8, 0x01#8, 0x02#8, 0x00#8, 0x00#8, 0x00#8, 0x00#8, 0x00#8, 0x05#8] ++ List.replicate 7
    0x00#8 ++ [0x01#8, 0x00#8, 0x00#8, 0x00#8, 0x01#8] ++ List.replicate 12 0x00#8 ++ [0x01#8, 0x2c#8] ++ List.replicate 35 0x00#8 ++
    [0x12#8, 0xd1#8, 0x20#8, 0x2f#8, 0xce#8, 0x58#8, 0x73#8, 0x9a#8, 0xfe#8]), ?_⟩,
   ⟨mk [(F.PORT_STATUS_STATE 0, 3)], 0, ([0x01#8, 0x80#8, 0xc2#8, 0x00#8, 0x00#8, 0x0e#8, 0x00#8, 0x00#8, 0x00#8, 0x00#8, 0x00#8, 0x05#8,
    0x88#8, 0xb5#8, 0x01#8, 0x04#8, 0x00#8, 0x00#8, 0x00#8, 0x00#8, 0x00#8, 0x06#8] ++ List.replicate 11 0x00#8 ++ [0x02#8] ++
    List.replicate 12 0x00#8 ++ [0x01#8, 0x2c#8] ++ List.replicate 35 0x00#8 ++ [0x17#8, 0x97#8, 0x5e#8, 0xa6#8, 0x1c#8, 0xe6#8, 0x16#8,
    0x37#8, 0x4a#8]), ?_⟩,
   ⟨mk [(F.PWR_CFG_FERRY_EN, 1), (F.PWR_FERRY_JOB_JOB, 5), (F.PWR_FERRY_STATUS_ROLE, 1), (F.PWR_FERRY_PORT_PORT 1, 1), (F.PORT_STATUS_STATE
    1, 3), (F.PORT_CFG_TRUSTED 1, 1), (F.PWR_FERRY_PORT_VALID 1, 1)], 1, [0x01#8, 0x80#8, 0xc2#8, 0x00#8, 0x00#8, 0x0e#8, 0x00#8, 0x00#8,
    0x00#8, 0x00#8, 0x00#8, 0x05#8, 0x88#8, 0xb5#8, 0x01#8, 0x04#8, 0x00#8, 0x01#8, 0x00#8, 0x00#8, 0x00#8, 0x05#8, 0x00#8, 0x00#8, 0x00#8,
    0x00#8, 0x00#8, 0x00#8, 0x00#8, 0x01#8, 0x00#8, 0x00#8, 0x00#8, 0x02#8, 0x00#8, 0x00#8, 0x00#8, 0x00#8, 0x00#8, 0x00#8, 0x00#8, 0x00#8,
    0x00#8, 0x00#8, 0x00#8, 0x01#8, 0x01#8, 0x2c#8, 0x00#8, 0x00#8, 0x00#8, 0x00#8, 0x00#8, 0x00#8, 0x00#8, 0x00#8, 0x00#8, 0x00#8, 0x00#8,
    0x00#8, 0x00#8, 0x00#8, 0x00#8, 0x00#8, 0x00#8, 0x00#8, 0x00#8, 0x00#8, 0x00#8, 0x00#8, 0x00#8, 0x00#8, 0x00#8, 0x00#8, 0x00#8, 0x00#8,
    0x00#8, 0x00#8, 0x00#8, 0x00#8, 0x00#8, 0x00#8, 0x00#8, 0x0b#8, 0xee#8, 0x99#8, 0x3b#8, 0xfd#8, 0x44#8, 0x22#8, 0xc7#8, 0xc6#8], ?_⟩,
   ⟨mk [(F.PWR_CFG_FERRY_EN, 1), (F.PWR_FERRY_JOB_JOB, 5), (F.PWR_FERRY_STATUS_ROLE, 2), (F.PWR_FERRY_PORT_PORT 1, 1), (F.PORT_STATUS_STATE
    1, 3), (F.PORT_CFG_TRUSTED 1, 1), (F.PWR_FERRY_PORT_VALID 1, 1)], 1, ([0x01#8, 0x80#8, 0xc2#8, 0x00#8, 0x00#8, 0x0e#8, 0x00#8, 0x00#8,
    0x00#8, 0x00#8, 0x00#8, 0x05#8, 0x88#8, 0xb5#8, 0x01#8, 0x04#8, 0x00#8, 0x00#8, 0x00#8, 0x00#8, 0x00#8, 0x05#8] ++ List.replicate 7
    0x00#8 ++ [0x01#8, 0x00#8, 0x00#8, 0x00#8, 0x01#8] ++ List.replicate 12 0x00#8 ++ [0x01#8, 0x2c#8] ++ List.replicate 35 0x00#8 ++
    [0x03#8, 0x28#8, 0xa2#8, 0x89#8, 0xdd#8, 0xff#8, 0xc3#8, 0x1c#8, 0x9b#8]), ?_⟩,
   ⟨State.reset, ?_⟩,
   ⟨State.reset, ?_⟩,
   ⟨State.reset, 2, [0x01#8, 0x80#8, 0xc2#8, 0x00#8, 0x00#8, 0x0e#8, 0x00#8, 0x00#8, 0x00#8, 0x00#8, 0x00#8, 0x05#8, 0x88#8, 0xb5#8,
    0x01#8, 0x01#8, 0x00#8, 0x01#8, 0x00#8, 0x00#8, 0x00#8, 0x05#8, 0x00#8, 0x00#8, 0x00#8, 0x00#8, 0x00#8, 0x00#8, 0x00#8, 0x01#8, 0x00#8,
    0x00#8, 0x00#8, 0x00#8, 0x00#8, 0x00#8, 0x00#8, 0x00#8, 0x04#8, 0x01#8, 0x00#8, 0x00#8, 0x00#8, 0x00#8, 0x00#8, 0x4d#8, 0x00#8, 0x00#8,
    0x00#8, 0x00#8, 0x00#8, 0x00#8, 0x00#8, 0x02#8, 0x00#8, 0x00#8, 0x00#8, 0x00#8, 0x00#8, 0x00#8, 0xf4#8, 0x19#8, 0x67#8, 0x50#8], ?_⟩⟩ <;> decide +kernel

theorem wit_FerryTree_3 :
    ∃ (s : State) (p : Fin 512) (frame : Bytes), s.ferryRx p ferryLag frame = none := by
  exact ⟨State.reset, 2, [0x01#8, 0x80#8, 0xc2#8, 0x00#8, 0x00#8, 0x0e#8, 0x00#8, 0x00#8, 0x00#8, 0x00#8, 0x00#8, 0x05#8, 0x88#8, 0xb5#8,
    0x01#8, 0x01#8, 0x00#8, 0x01#8, 0x00#8, 0x00#8, 0x00#8, 0x05#8, 0x00#8, 0x00#8, 0x00#8, 0x00#8, 0x00#8, 0x00#8, 0x00#8, 0x01#8, 0x00#8,
    0x00#8, 0x00#8, 0x00#8, 0x00#8, 0x00#8, 0x00#8, 0x00#8, 0x04#8, 0x01#8, 0x00#8, 0x00#8, 0x00#8, 0x00#8, 0x00#8, 0x4d#8, 0x00#8, 0x00#8,
    0x00#8, 0x00#8, 0x00#8, 0x00#8, 0x00#8, 0x02#8, 0x00#8, 0x00#8, 0x00#8, 0x00#8, 0x00#8, 0x00#8, 0xf4#8, 0x19#8, 0x67#8, 0x50#8], by decide +kernel⟩

theorem wit_FerryGrants :
    (∃ (s : State), s.ferryRole = 2 ∧ s.on F.PWR_FERRY_CFG_SOFT_COORD = false ∧ s.due .ferry 0 s.ferryPeriod = true) ∧
    (∃ (s : State) (p : Fin 512) (frame : Bytes), (s.ferryRx p ferryGrant frame).any (fun r => decide ((r.1 = false ∨ s.ferryRole ≠ 1 ∨
    p.val ≠ s.upLink))) = true) ∧
    (∃ (s : State) (p : Fin 512) (frame : Bytes), (s.ferryRx p ferryGrant frame).any (fun r => decide (r.1 = true ∧ s.ferryRole = 1 ∧ p.val
    = s.upLink ∧ beAt frame 16 2 = 1 ∧ beAt frame 38 8 = s.fuses.serial ∧ s.pwr.grant = none)) = true) ∧
    (∃ (s : State) (p : Fin 512) (frame : Bytes), (s.ferryRx p ferryGrant frame).any (fun r => decide (r.1 = true ∧ s.ferryRole = 1 ∧ p.val
    = s.upLink ∧ beAt frame 16 2 = 0)) = true) ∧
    (∃ (s : State), (s.pwr.grant).isSome = true ∧ s.due .ferry 1 (max 1 (s.rd F.PWR_FERRY_CTL_REVERT) * 16000000) = true) ∧
    (∃ (s : State), (s.ferryRole ≠ 2 ∨ s.on F.PWR_FERRY_CFG_SOFT_COORD = true ∨ s.due .ferry 0 s.ferryPeriod = false)) ∧
    (∃ (s : State) (p : Fin 512) (frame : Bytes), s.ferryRx p ferryGrant frame = none) ∧
    ∃ (s : State), (s.pwr.grant = none ∨ s.due .ferry 1 (max 1 (s.rd F.PWR_FERRY_CTL_REVERT) * 16000000) = false) := by
  refine ⟨⟨mk [(F.PWR_FERRY_STATUS_ROLE, 2), (F.LIGHT_TICKS_TICKS, 1700018000)], ?_⟩,
   ⟨mk [(F.PORT_STATUS_STATE 2, 3)], 2, [0x01#8, 0x80#8, 0xc2#8, 0x00#8, 0x00#8, 0x0e#8, 0x00#8, 0x00#8, 0x00#8, 0x00#8, 0x00#8, 0x05#8,
    0x88#8, 0xb5#8, 0x01#8, 0x03#8, 0x00#8, 0x01#8, 0x00#8, 0x00#8, 0x00#8, 0x06#8, 0x00#8, 0x00#8, 0x00#8, 0x00#8, 0x00#8, 0x00#8, 0x00#8,
    0x01#8, 0x00#8, 0x00#8, 0x00#8, 0x02#8, 0x00#8, 0x00#8, 0x00#8, 0x00#8, 0x00#8, 0x00#8, 0x00#8, 0x00#8, 0x00#8, 0x00#8, 0x00#8, 0x00#8,
    0x01#8, 0x2c#8, 0x00#8, 0x00#8, 0x00#8, 0x00#8, 0x00#8, 0x00#8, 0x00#8, 0x00#8, 0x00#8, 0x00#8, 0x00#8, 0x00#8, 0x00#8, 0x00#8, 0x00#8,
    0x00#8, 0x00#8, 0x00#8, 0x00#8, 0x00#8, 0x00#8, 0x00#8, 0x00#8, 0x00#8, 0x00#8, 0x00#8, 0x00#8, 0x00#8, 0x00#8, 0x00#8, 0x00#8, 0x00#8,
    0x00#8, 0x00#8, 0x00#8, 0x35#8, 0x95#8, 0x8c#8, 0x1d#8, 0x34#8, 0x2e#8, 0xd9#8, 0x35#8, 0xfe#8], ?_⟩,
   ⟨mk [(F.PWR_CFG_FERRY_EN, 1), (F.PWR_FERRY_JOB_JOB, 5), (F.PWR_FERRY_STATUS_ROLE, 1), (F.PWR_FERRY_STATUS_UP, 0), (F.PORT_STATUS_STATE
    0, 3), (F.PORT_CFG_TRUSTED 0, 1), (F.PWR_FERRY_PORT_VALID 1, 1)], 0, [0x01#8, 0x80#8, 0xc2#8, 0x00#8, 0x00#8, 0x0e#8, 0x00#8, 0x00#8,
    0x00#8, 0x00#8, 0x00#8, 0x05#8, 0x88#8, 0xb5#8, 0x01#8, 0x03#8, 0x00#8, 0x01#8, 0x00#8, 0x00#8, 0x00#8, 0x05#8, 0x00#8, 0x00#8, 0x00#8,
    0x00#8, 0x00#8, 0x00#8, 0x00#8, 0x01#8, 0x00#8, 0x00#8, 0x00#8, 0x01#8, 0x00#8, 0x00#8, 0x00#8, 0x00#8, 0x00#8, 0x00#8, 0x00#8, 0x00#8,
    0x00#8, 0x00#8, 0x00#8, 0x00#8, 0x01#8, 0x2c#8, 0x00#8, 0x00#8, 0x00#8, 0x00#8, 0x00#8, 0x00#8, 0x00#8, 0x00#8, 0x00#8, 0x00#8, 0x00#8,
    0x00#8, 0x00#8, 0x00#8, 0x00#8, 0x00#8, 0x00#8, 0x00#8, 0x00#8, 0x00#8, 0x00#8, 0x00#8, 0x00#8, 0x00#8, 0x00#8, 0x00#8, 0x00#8, 0x00#8,
    0x00#8, 0x00#8, 0x00#8, 0x00#8, 0x00#8, 0x00#8, 0x00#8, 0x11#8, 0x1a#8, 0x00#8, 0x25#8, 0xf4#8, 0xb1#8, 0x95#8, 0x2d#8, 0x31#8], ?_⟩,
   ⟨mk [(F.PWR_CFG_FERRY_EN, 1), (F.PWR_FERRY_JOB_JOB, 5), (F.PWR_FERRY_STATUS_ROLE, 1), (F.PWR_FERRY_STATUS_UP, 1), (F.PWR_FERRY_PORT_PORT
    1, 1), (F.PORT_STATUS_STATE 1, 3), (F.PORT_CFG_TRUSTED 1, 1), (F.PWR_FERRY_PORT_VALID 1, 1)], 1, ([0x01#8, 0x80#8, 0xc2#8, 0x00#8,
    0x00#8, 0x0e#8, 0x00#8, 0x00#8, 0x00#8, 0x00#8, 0x00#8, 0x05#8, 0x88#8, 0xb5#8, 0x01#8, 0x03#8, 0x00#8, 0x00#8, 0x00#8, 0x00#8, 0x00#8,
    0x05#8] ++ List.replicate 11 0x00#8 ++ [0x02#8] ++ List.replicate 11 0x00#8 ++ [0x02#8, 0x01#8, 0x2c#8] ++ List.replicate 35 0x00#8 ++
    [0x15#8, 0x58#8, 0x21#8, 0x3a#8, 0x52#8, 0x8c#8, 0x64#8, 0x86#8, 0x65#8]), ?_⟩,
   ⟨{ mk [(F.LIGHT_TICKS_TICKS, 1700009000)] with pwr := { grant := some (300, 1, 4) } }, ?_⟩,
   ⟨State.reset, ?_⟩,
   ⟨State.reset, 2, [0x01#8, 0x80#8, 0xc2#8, 0x00#8, 0x00#8, 0x0e#8, 0x00#8, 0x00#8, 0x00#8, 0x00#8, 0x00#8, 0x05#8, 0x88#8, 0xb5#8,
    0x01#8, 0x01#8, 0x00#8, 0x01#8, 0x00#8, 0x00#8, 0x00#8, 0x05#8, 0x00#8, 0x00#8, 0x00#8, 0x00#8, 0x00#8, 0x00#8, 0x00#8, 0x01#8, 0x00#8,
    0x00#8, 0x00#8, 0x00#8, 0x00#8, 0x00#8, 0x00#8, 0x00#8, 0x04#8, 0x01#8, 0x00#8, 0x00#8, 0x00#8, 0x00#8, 0x00#8, 0x4d#8, 0x00#8, 0x00#8,
    0x00#8, 0x00#8, 0x00#8, 0x00#8, 0x00#8, 0x02#8, 0x00#8, 0x00#8, 0x00#8, 0x00#8, 0x00#8, 0x00#8, 0xf4#8, 0x19#8, 0x67#8, 0x50#8], ?_⟩,
   ⟨State.reset, ?_⟩⟩ <;> decide +kernel

theorem wit_BootFlow :
    (∃ (cause : ResetCause), cause ≠ .powerUp ∧ cause ≠ .resetN) ∧
    (∃ (s : State), s.stage = 0 ∧ s.boot.powerHeld = false) ∧
    (∃ (s : State), s.stage = 1) ∧
    (∃ (s : State) (q : Requester), s.grants q true = true ∧ viaEth q = false ∧ s.stage = 2 ∧ s.boot.waitGo = true) ∧
    (∃ (s : State) (q : Requester), s.grants q true = true ∧ viaEth q = false ∧ s.stage = 7 ∧ s.fuses.bootSrc ≠ 0) ∧
    (∃ (s : State) (q : Requester), s.grants q true = true ∧ viaEth q = false ∧ s.stage = 7 ∧ s.fuses.bootSrc = 0) ∧
    (∃ (s : State), s.stage = 2 ∧ s.boot.waitGo = false) ∧
    (∃ (s : State), (s.boot.image).isSome = true ∧ s.stage = 3 ∧ s.fuses.digests = []) ∧
    (∃ (s : State), (s.boot.image).any (fun im => decide (s.stage = 3 ∧ s.fuses.digests ≠ [] ∧ s.imageError im false = 0)) = true) ∧
    ∃ (s : State), (s.boot.image).any (fun im => decide (s.stage = 3 ∧ s.fuses.digests ≠ [] ∧ s.imageError im false ≠ 0)) = true := by
  refine ⟨⟨.pcieReset, ?_⟩,
   ⟨State.reset, ?_⟩,
   ⟨mk [(F.BOOT_STATUS_STAGE, 1)], ?_⟩,
   ⟨{ mk [(F.BOOT_STATUS_STAGE, 2)] with boot := { waitGo := true } }, .regInit, ?_⟩,
   ⟨{ mk [(F.BOOT_STATUS_STAGE, 7)] with fuses := { bootSrc := 2 } }, .regInit, ?_⟩,
   ⟨mk [(F.BOOT_STATUS_STAGE, 7)], .pf0, ?_⟩,
   ⟨mk [(F.BOOT_STATUS_STAGE, 2)], ?_⟩,
   ⟨{ mk [(F.BOOT_STATUS_STAGE, 3)] with boot := { image := some { bytes := ([0x47#8, 0x59#8, 0x4d#8, 0x4c#8, 0x01#8, 0x00#8, 0x02#8, 0x00#8, 0x09#8, 0x0a#8, 0x00#8, 0x00#8, 0x03#8, 0x00#8, 0x00#8, 0x00#8, 0x05#8, 0x00#8, 0x00#8, 0x00#8, 0x07#8, 0x00#8, 0x00#8, 0x00#8, 0x08#8, 0x11#8, 0x00#8, 0x00#8, 0x01#8] ++ List.replicate 227 0x00#8 ++ [0x06#8, 0x00#8, 0x00#8, 0x03#8, 0x00#8, 0x10#8, 0x00#8, 0x00#8, 0x08#8, 0x00#8, 0x00#8, 0x00#8, 0x62#8, 0xc4#8, 0xfb#8, 0xe3#8] ++ List.replicate 3824 0x00#8 ++ List.replicate 8 0x01#8 ++ [0x3f#8, 0x13#8, 0x43#8, 0x2c#8, 0x6e#8, 0xf4#8, 0x82#8, 0xfd#8, 0x1c#8, 0x05#8, 0xb8#8, 0x0a#8, 0x77#8, 0xe3#8, 0xe4#8, 0x59#8, 0x0c#8, 0x1d#8, 0xcf#8, 0x27#8, 0x50#8, 0xaa#8, 0x1f#8, 0x88#8, 0xe0#8, 0x81#8, 0xbb#8, 0xde#8, 0xa9#8, 0x0c#8, 0x80#8, 0xcd#8, 0x09#8, 0xeb#8, 0x1e#8, 0xbe#8, 0x9d#8, 0x51#8, 0x5d#8, 0x51#8, 0xdf#8, 0x18#8, 0xc9#8, 0x26#8, 0x21#8, 0xca#8, 0xaa#8, 0x5d#8, 0x8c#8, 0x6d#8, 0xc3#8, 0x89#8, 0xa5#8, 0x6b#8, 0x30#8, 0xa7#8, 0x4b#8, 0xd3#8, 0x5f#8, 0x8c#8, 0x3e#8, 0xc7#8, 0x0e#8, 0x54#8, 0x69#8, 0x0b#8, 0xe9#8, 0x2d#8, 0x72#8, 0x3f#8, 0xc3#8, 0x30#8, 0xeb#8, 0x8d#8, 0xc5#8, 0x78#8, 0x80#8, 0x55#8, 0xae#8, 0x7b#8, 0x12#8, 0xd7#8, 0x61#8, 0xce#8, 0x1e#8, 0x8f#8, 0x82#8, 0x55#8, 0x68#8, 0x7b#8, 0x65#8, 0xa2#8, 0x90#8, 0x4b#8, 0x24#8, 0x39#8, 0xd8#8, 0x8f#8, 0x9c#8, 0x1b#8, 0x1f#8, 0xef#8, 0x46#8, 0xa5#8, 0x42#8, 0xb2#8, 0x0c#8, 0x17#8, 0xbc#8, 0x35#8, 0x24#8, 0x8b#8, 0x43#8, 0x34#8, 0xa9#8, 0x8f#8, 0xa5#8, 0xfe#8, 0x8f#8, 0x9d#8, 0x87#8, 0xd7#8, 0x00#8, 0xf0#8, 0x94#8, 0x08#8, 0x58#8, 0xb8#8, 0x84#8, 0xf1#8, 0x93#8, 0xd1#8, 0x16#8, 0xe2#8, 0x97#8, 0xe6#8, 0xf2#8, 0x59#8, 0x40#8, 0xf1#8, 0xfa#8, 0x0a#8, 0x03#8, 0xd3#8, 0xc2#8, 0xbd#8, 0x38#8, 0xef#8, 0xae#8, 0x06#8, 0xc9#8, 0xc8#8, 0x3f#8, 0x05#8, 0xd9#8, 0xac#8, 0x91#8, 0x7e#8, 0x11#8, 0x2b#8, 0xee#8, 0xac#8, 0x56#8, 0xb0#8, 0xb3#8, 0x5b#8, 0x9e#8, 0x5e#8, 0x77#8, 0x03#8, 0x25#8, 0x82#8, 0x0f#8, 0x2b#8, 0x1e#8, 0x65#8, 0xb5#8, 0x99#8, 0xec#8, 0x46#8, 0xe3#8, 0xd3#8, 0x57#8, 0xfc#8, 0x36#8, 0xd3#8, 0xb7#8, 0x54#8, 0x57#8, 0x6a#8, 0x5d#8, 0x48#8] ++ List.replicate 64 0x00#8), bodies := [some (.patterns [] 1)] } } },
    ?_⟩,
   ⟨{ mk [(F.BOOT_STATUS_STAGE, 3)] with fuses := { digests := [(0, 3596788468831189304602348453709173624533324862283860404515109047285152604652394099528729032721117035571341823530223)] }, boot := { image := some { bytes := ([0x47#8, 0x59#8, 0x4d#8, 0x4c#8, 0x01#8, 0x00#8, 0x00#8, 0x00#8, 0x09#8, 0x0a#8, 0x00#8, 0x00#8, 0x03#8, 0x00#8, 0x00#8, 0x00#8, 0x05#8] ++ List.replicate 7 0x00#8 ++ [0x08#8, 0x11#8, 0x00#8, 0x00#8, 0x01#8] ++ List.replicate 227 0x00#8 ++ [0x0b#8, 0x00#8, 0xff#8, 0xff#8, 0x00#8, 0x10#8, 0x00#8, 0x00#8, 0x08#8, 0x00#8, 0x00#8, 0x00#8, 0x62#8, 0xc4#8, 0xfb#8, 0xe3#8] ++ List.replicate 3824 0x00#8 ++ List.replicate 8 0x01#8 ++ [0x3f#8, 0x13#8, 0x43#8, 0x2c#8, 0x6e#8, 0xf4#8, 0x82#8, 0xfd#8, 0x1c#8, 0x05#8, 0xb8#8, 0x0a#8, 0x77#8, 0xe3#8, 0xe4#8, 0x59#8, 0x0c#8, 0x1d#8, 0xcf#8, 0x27#8, 0x50#8, 0xaa#8, 0x1f#8, 0x88#8, 0xe0#8, 0x81#8, 0xbb#8, 0xde#8, 0xa9#8, 0x0c#8, 0x80#8, 0xcd#8, 0x09#8, 0xeb#8, 0x1e#8, 0xbe#8, 0x9d#8, 0x51#8, 0x5d#8, 0x51#8, 0xdf#8, 0x18#8, 0xc9#8, 0x26#8, 0x21#8, 0xca#8, 0xaa#8, 0x5d#8, 0x8c#8, 0x6d#8, 0xc3#8, 0x89#8, 0xa5#8, 0x6b#8, 0x30#8, 0xa7#8, 0x4b#8, 0xd3#8, 0x5f#8, 0x8c#8, 0x3e#8, 0xc7#8, 0x0e#8, 0x54#8, 0x69#8, 0x0b#8, 0xe9#8, 0x2d#8, 0x72#8, 0x3f#8, 0xc3#8, 0x30#8, 0xeb#8, 0x8d#8, 0xc5#8, 0x78#8, 0x80#8, 0x55#8, 0xae#8, 0x7b#8, 0x12#8, 0xd7#8, 0x61#8, 0xce#8, 0x1e#8, 0x8f#8, 0x82#8, 0x55#8, 0x68#8, 0x7b#8, 0x65#8, 0xa2#8, 0x90#8, 0x4b#8, 0x24#8, 0x39#8, 0x10#8, 0xd1#8, 0xc8#8, 0x55#8, 0x03#8, 0x56#8, 0x82#8, 0x9a#8, 0x5f#8, 0xcb#8, 0x58#8, 0x33#8, 0x61#8, 0x14#8, 0xaa#8, 0x3a#8, 0x1a#8, 0x34#8, 0x11#8, 0x90#8, 0x84#8, 0x6f#8, 0xc1#8, 0x38#8, 0x17#8, 0x20#8, 0x79#8, 0x1b#8, 0x8e#8, 0x75#8, 0x58#8, 0xd6#8, 0x2f#8, 0xcc#8, 0x05#8, 0x34#8, 0x89#8, 0x24#8, 0x24#8, 0x4f#8, 0x79#8, 0x60#8, 0x5c#8, 0x79#8, 0x7b#8, 0xfa#8, 0x96#8, 0x56#8, 0x64#8, 0xe0#8, 0x14#8, 0x01#8, 0x44#8, 0xfc#8, 0x9c#8, 0x60#8, 0xfb#8, 0x6a#8, 0xb4#8, 0x05#8, 0x29#8, 0x80#8, 0x62#8, 0x85#8, 0xfb#8, 0x47#8, 0xbf#8, 0x32#8, 0xf1#8, 0xe2#8, 0x99#8, 0xd2#8, 0x68#8, 0x4b#8, 0xe7#8, 0x75#8, 0x91#8, 0x25#8, 0x56#8, 0x2d#8, 0xac#8, 0x6c#8, 0xe1#8, 0x01#8, 0xfb#8, 0x74#8, 0xf2#8, 0x42#8, 0x1f#8, 0x9b#8, 0x4e#8, 0x7c#8, 0x9e#8, 0x41#8, 0xde#8, 0xe5#8] ++ List.replicate 64 0x00#8), bodies := [some (.names)] } } },
    ?_⟩,
   ⟨{ mk [(F.BOOT_STATUS_STAGE, 3)] with fuses := { digests := [(1, 5)] }, boot := { image := some { bytes := ([0x47#8, 0x59#8, 0x4d#8, 0x4c#8, 0x01#8, 0x00#8, 0x00#8, 0x00#8, 0x09#8, 0x0a#8, 0x00#8, 0x00#8, 0x03#8, 0x00#8, 0x00#8, 0x00#8, 0x05#8] ++ List.replicate 7 0x00#8 ++ [0x08#8, 0x11#8, 0x00#8, 0x00#8, 0x01#8] ++ List.replicate 227 0x00#8 ++ [0x0b#8, 0x00#8, 0xff#8, 0xff#8, 0x00#8, 0x10#8, 0x00#8, 0x00#8, 0x08#8, 0x00#8, 0x00#8, 0x00#8, 0x62#8, 0xc4#8, 0xfb#8, 0xe3#8] ++ List.replicate 3824 0x00#8 ++ List.replicate 8 0x01#8 ++ [0x3f#8, 0x13#8, 0x43#8, 0x2c#8, 0x6e#8, 0xf4#8, 0x82#8, 0xfd#8, 0x1c#8, 0x05#8, 0xb8#8, 0x0a#8, 0x77#8, 0xe3#8, 0xe4#8, 0x59#8, 0x0c#8, 0x1d#8, 0xcf#8, 0x27#8, 0x50#8, 0xaa#8, 0x1f#8, 0x88#8, 0xe0#8, 0x81#8, 0xbb#8, 0xde#8, 0xa9#8, 0x0c#8, 0x80#8, 0xcd#8, 0x09#8, 0xeb#8, 0x1e#8, 0xbe#8, 0x9d#8, 0x51#8, 0x5d#8, 0x51#8, 0xdf#8, 0x18#8, 0xc9#8, 0x26#8, 0x21#8, 0xca#8, 0xaa#8, 0x5d#8, 0x8c#8, 0x6d#8, 0xc3#8, 0x89#8, 0xa5#8, 0x6b#8, 0x30#8, 0xa7#8, 0x4b#8, 0xd3#8, 0x5f#8, 0x8c#8, 0x3e#8, 0xc7#8, 0x0e#8, 0x54#8, 0x69#8, 0x0b#8, 0xe9#8, 0x2d#8, 0x72#8, 0x3f#8, 0xc3#8, 0x30#8, 0xeb#8, 0x8d#8, 0xc5#8, 0x78#8, 0x80#8, 0x55#8, 0xae#8, 0x7b#8, 0x12#8, 0xd7#8, 0x61#8, 0xce#8, 0x1e#8, 0x8f#8, 0x82#8, 0x55#8, 0x68#8, 0x7b#8, 0x65#8, 0xa2#8, 0x90#8, 0x4b#8, 0x24#8, 0x39#8, 0x10#8, 0xd1#8, 0xc8#8, 0x55#8, 0x03#8, 0x56#8, 0x82#8, 0x9a#8, 0x5f#8, 0xcb#8, 0x58#8, 0x33#8, 0x61#8, 0x14#8, 0xaa#8, 0x3a#8, 0x1a#8, 0x34#8, 0x11#8, 0x90#8, 0x84#8, 0x6f#8, 0xc1#8, 0x38#8, 0x17#8, 0x20#8, 0x79#8, 0x1b#8, 0x8e#8, 0x75#8, 0x58#8, 0xd6#8, 0x2f#8, 0xcc#8, 0x05#8, 0x34#8, 0x89#8, 0x24#8, 0x24#8, 0x4f#8, 0x79#8, 0x60#8, 0x5c#8, 0x79#8, 0x7b#8, 0xfa#8, 0x96#8, 0x56#8, 0x64#8, 0xe0#8, 0x14#8, 0x01#8, 0x44#8, 0xfc#8, 0x9c#8, 0x60#8, 0xfb#8, 0x6a#8, 0xb4#8, 0x05#8, 0x29#8, 0x80#8, 0x62#8, 0x85#8, 0xfb#8, 0x47#8, 0xbf#8, 0x32#8, 0xf1#8, 0xe2#8, 0x99#8, 0xd2#8, 0x68#8, 0x4b#8, 0xe7#8, 0x75#8, 0x91#8, 0x25#8, 0x56#8, 0x2d#8, 0xac#8, 0x6c#8, 0xe1#8, 0x01#8, 0xfb#8, 0x74#8, 0xf2#8, 0x42#8, 0x1f#8, 0x9b#8, 0x4e#8, 0x7c#8, 0x9e#8, 0x41#8, 0xde#8, 0xe5#8] ++ List.replicate 64 0x00#8), bodies := [some (.names)] } } },
    ?_⟩⟩ <;> decide +kernel

theorem wit_BootFlow_2 :
    (∃ (s : State), (s.boot.image).isSome = true ∧ s.stage = 4 ∧ s.trained = true) ∧
    (∃ (s : State), s.stage = 5) ∧
    (∃ (s : State), (s.stage ≠ 0 ∨ s.boot.powerHeld = true)) ∧
    (∃ (s : State), s.stage ≠ 1) ∧
    (∃ (s : State) (q : Requester), s.grants q true = true ∧ viaEth q = true) ∧
    (∃ (s : State) (q : Requester), s.grants q true = true ∧ viaEth q = false ∧ s.stage ≠ 7 ∧ (s.stage ≠ 2 ∨ s.boot.waitGo = false)) ∧
    (∃ (s : State), (s.stage ≠ 2 ∨ s.boot.waitGo = true)) ∧
    (∃ (s : State), (s.stage ≠ 3 ∨ s.boot.image = none)) ∧
    (∃ (s : State), (s.stage ≠ 4 ∨ s.trained = false ∨ s.boot.image = none)) ∧
    ∃ (s : State), s.stage ≠ 5 := by
  refine ⟨⟨{ mk [(F.BOOT_STATUS_STAGE, 4)] with mc := [(0, { reqs := [], next := 0, batch := [], rows := [], closed := [], lateHits := [], conflicts := [], change := none, nextSet := none, sr := 0, lastReq := 0, lastEntry := 0, blockCe := [], poison := [], copy := none, trainTemp := [(0, 1)], trackTemp := 0, trackAt := 0, scrubAt := 0 }), (1, { reqs := [], next := 0, batch := [], rows := [], closed := [], lateHits := [], conflicts := [], change := none, nextSet := none, sr := 0, lastReq := 0, lastEntry := 0, blockCe := [], poison := [], copy := none, trainTemp := [(0, 1)], trackTemp := 0, trackAt := 0, scrubAt := 0 }), (2, { reqs := [], next := 0, batch := [], rows := [], closed := [], lateHits := [], conflicts := [], change := none, nextSet := none, sr := 0, lastReq := 0, lastEntry := 0, blockCe := [], poison := [], copy := none, trainTemp := [(0, 1)], trackTemp := 0, trackAt := 0, scrubAt := 0 }), (3, { reqs := [], next := 0, batch := [], rows := [], closed := [], lateHits := [], conflicts := [], change := none, nextSet := none, sr := 0, lastReq := 0, lastEntry := 0, blockCe := [], poison := [], copy := none, trainTemp := [(0, 1)], trackTemp := 0, trackAt := 0, scrubAt := 0 }), (4, { reqs := [], next := 0, batch := [], rows := [], closed := [], lateHits := [], conflicts := [], change := none, nextSet := none, sr := 0, lastReq := 0, lastEntry := 0, blockCe := [], poison := [], copy := none, trainTemp := [(0, 1)], trackTemp := 0, trackAt := 0, scrubAt := 0 }), (5, { reqs := [], next := 0, batch := [], rows := [], closed := [], lateHits := [], conflicts := [], change := none, nextSet := none, sr := 0, lastReq := 0, lastEntry := 0, blockCe := [], poison := [], copy := none, trainTemp := [(0, 1)], trackTemp := 0, trackAt := 0, scrubAt := 0 })], boot := { image := some { bytes := ([0x47#8, 0x59#8, 0x4d#8, 0x4c#8, 0x01#8, 0x00#8, 0x00#8, 0x00#8, 0x09#8, 0x0a#8, 0x00#8, 0x00#8, 0x03#8, 0x00#8, 0x00#8, 0x00#8, 0x05#8] ++ List.replicate 7 0x00#8 ++ [0x08#8, 0x11#8, 0x00#8, 0x00#8, 0x01#8] ++ List.replicate 227 0x00#8 ++ [0x0b#8, 0x00#8, 0xff#8, 0xff#8, 0x00#8, 0x10#8, 0x00#8, 0x00#8, 0x08#8, 0x00#8, 0x00#8, 0x00#8, 0x62#8, 0xc4#8, 0xfb#8, 0xe3#8] ++ List.replicate 3824 0x00#8 ++ List.replicate 8 0x01#8 ++ [0x3f#8, 0x13#8, 0x43#8, 0x2c#8, 0x6e#8, 0xf4#8, 0x82#8, 0xfd#8, 0x1c#8, 0x05#8, 0xb8#8, 0x0a#8, 0x77#8, 0xe3#8, 0xe4#8, 0x59#8, 0x0c#8, 0x1d#8, 0xcf#8, 0x27#8, 0x50#8, 0xaa#8, 0x1f#8, 0x88#8, 0xe0#8, 0x81#8, 0xbb#8, 0xde#8, 0xa9#8, 0x0c#8, 0x80#8, 0xcd#8, 0x09#8, 0xeb#8, 0x1e#8, 0xbe#8, 0x9d#8, 0x51#8, 0x5d#8, 0x51#8, 0xdf#8, 0x18#8, 0xc9#8, 0x26#8, 0x21#8, 0xca#8, 0xaa#8, 0x5d#8, 0x8c#8, 0x6d#8, 0xc3#8, 0x89#8, 0xa5#8, 0x6b#8, 0x30#8, 0xa7#8, 0x4b#8, 0xd3#8, 0x5f#8, 0x8c#8, 0x3e#8, 0xc7#8, 0x0e#8, 0x54#8, 0x69#8, 0x0b#8, 0xe9#8, 0x2d#8, 0x72#8, 0x3f#8, 0xc3#8, 0x30#8, 0xeb#8, 0x8d#8, 0xc5#8, 0x78#8, 0x80#8, 0x55#8, 0xae#8, 0x7b#8, 0x12#8, 0xd7#8, 0x61#8, 0xce#8, 0x1e#8, 0x8f#8, 0x82#8, 0x55#8, 0x68#8, 0x7b#8, 0x65#8, 0xa2#8, 0x90#8, 0x4b#8, 0x24#8, 0x39#8, 0x56#8, 0x0f#8, 0x62#8, 0x88#8, 0xbd#8, 0xbc#8, 0xaa#8, 0x26#8, 0x63#8, 0x90#8, 0xd9#8, 0x34#8, 0x50#8, 0xd7#8, 0xfa#8, 0x81#8, 0xa4#8, 0x6a#8, 0x8f#8, 0x88#8, 0x9c#8, 0x42#8, 0xb5#8, 0xf4#8, 0x67#8, 0x6c#8, 0x94#8, 0xf6#8, 0x1b#8, 0x42#8, 0x10#8, 0x1f#8, 0x99#8, 0x4e#8, 0xd2#8, 0x36#8, 0x3d#8, 0x29#8, 0xa2#8, 0xac#8, 0x9f#8, 0x0d#8, 0x50#8, 0xb4#8, 0x0e#8, 0x42#8, 0x9b#8, 0x42#8, 0x2f#8, 0xf4#8, 0xbd#8, 0x82#8, 0xb8#8, 0xd9#8, 0xc7#8, 0xaf#8, 0x93#8, 0x8c#8, 0x5f#8, 0x83#8, 0x7e#8, 0x99#8, 0xf4#8, 0x05#8, 0xa6#8, 0xbd#8, 0x46#8, 0x5c#8, 0x68#8, 0x94#8, 0x51#8, 0x96#8, 0xe9#8, 0xc0#8, 0x4d#8, 0x9f#8, 0xf4#8, 0x92#8, 0x8d#8, 0x1d#8, 0x4f#8, 0x4f#8, 0x37#8, 0xb4#8, 0x1c#8, 0x9e#8, 0xb2#8, 0x0f#8, 0xaf#8, 0xef#8, 0x27#8, 0x83#8, 0xb2#8, 0x45#8, 0x5a#8, 0x2d#8] ++ List.replicate 64 0x00#8), bodies := [some (.names)] } } },
    ?_⟩,
   ⟨mk [(F.BOOT_STATUS_STAGE, 5)], ?_⟩,
   ⟨mk [(F.BOOT_STATUS_STAGE, 2)], ?_⟩,
   ⟨State.reset, ?_⟩,
   ⟨State.reset, .dysEth 1, ?_⟩,
   ⟨State.reset, .pf0, ?_⟩,
   ⟨State.reset, ?_⟩,
   ⟨State.reset, ?_⟩,
   ⟨State.reset, ?_⟩,
   ⟨State.reset, ?_⟩⟩ <;> decide +kernel

theorem wit_SparingPolicy :
    (∃ (s : State) (n : Fin 16), s.on (F.RAS_SPARE_REQ_VALID n) = true) ∧
    (∃ (s : State) (q : Requester) (mode : Fin 4), s.grants q false = true ∧ s.rd F.RAS_SPARE_POLICY_MODE = mode) ∧
    (∃ (s : State) (q : Requester) (mode : Fin 4), s.grants q false = true ∧ s.rd F.RAS_SPARE_POLICY_MODE ≠ mode ∧ s.on
    F.RAS_SPARE_STATUS_BUSY = false ∧ mode.val < 2) ∧
    (∃ (s : State) (q : Requester) (mode : Fin 4), s.grants q false = true ∧ s.rd F.RAS_SPARE_POLICY_MODE ≠ mode ∧ s.on
    F.RAS_SPARE_STATUS_BUSY = false ∧ 2 ≤ mode.val) ∧
    (∃ (s : State), s.due .rate 0 5760000000000 = true ∧ s.ras.rate = []) ∧
    (∃ (s : State), (s.ras.rate).length = 1 ∧ (s.ras.rate).all (fun e => decide (s.due .rate 0 5760000000000 = true ∧ 1 ≤ (Nat.unpair e.1).1
    ∧ (Nat.unpair e.1).1 ≤ 5 ∧ s.rd (F.RAS_SPARE_THRESH_THRESH (rateField (Nat.unpair e.1).1)) ≤ e.2)) = true) ∧
    (∃ (s : State), (s.ras.rate).length = 1 ∧ (s.ras.rate).all (fun e => decide (s.due .rate 0 5760000000000 = true ∧ 1 ≤ (Nat.unpair e.1).1
    ∧ (Nat.unpair e.1).1 ≤ 5 ∧ e.2 < s.rd (F.RAS_SPARE_THRESH_THRESH (rateField (Nat.unpair e.1).1)))) = true) ∧
    (∃ (s : State), s.due .age 1 138240000000000 = true ∧ (∀ m : Fin 256, ageTrigger (s.rd (F.RAS_SPARE_THRESH_THRESH 6)) (s.rd
    (F.RAS_SPARE_THRESH_THRESH 7)) (mget s.ras.ages m {}).now (mget s.ras.ages m {}).days[29]? ((mget s.ras.ages m {}).hours + 24) = false))
    ∧
    (∃ (s : State) (mac : Nat) (col : Bool), s.sramSpare mac col = none) ∧
    ∃ (s : State) (mac : Nat) (col : Bool), (s.sramSpare mac col).isSome = true := by
  refine ⟨⟨mk [(F.RAS_SPARE_REQ_VALID 1, 1)], 1, ?_⟩,
   ⟨mk [(F.BOOT_STATUS_STAGE, 6), (F.RAS_SPARE_POLICY_MODE, 3)], .dysEth 1, 3, ?_⟩,
   ⟨mk [(F.BOOT_STATUS_STAGE, 6), (F.RAS_SPARE_POLICY_MODE, 3)], .dysEth 1, 0, ?_⟩,
   ⟨mk [(F.BOOT_STATUS_STAGE, 6)], .dysEth 1, 3, ?_⟩,
   ⟨mk [(F.LIGHT_TICKS_TICKS, 172800000000000)], ?_⟩,
   ⟨{ mk [(F.LIGHT_TICKS_TICKS, 17280000027000)] with ras := { rate := [(32, 29)] } }, ?_⟩,
   ⟨{ mk [(F.LIGHT_TICKS_TICKS, 172800000009000), (F.RAS_SPARE_THRESH_THRESH 0, 13)] with ras := { rate := [(3, 8)] } }, ?_⟩,
   ⟨mk [(F.LIGHT_TICKS_TICKS, 172800000009000)], ?_⟩,
   ⟨{ State.reset with ras := { repairs := [(0, 0), (0, 1), (0, 2), (0, 3)] } }, 0, false, ?_⟩,
   ⟨State.reset, 1156, true, ?_⟩⟩ <;> decide +kernel

theorem wit_SparingPolicy_2 :
    (∃ (s : State) (p : Fin 32) (tb : Nat) (ix : Nat), s.due .tcam 0 16000000 = true ∧ (s.layout p tb).any (fun l => l.kind = 1) = true ∧
    (s.entry p tb ix).valid = true) ∧
    (∃ (s : State) (p : Fin 32) (tb : Nat) (ix : Nat), s.due .tcam 0 16000000 = true ∧ ((s.layout p tb).any (fun l => l.kind = 1) = false ∨
    (s.entry p tb ix).valid = false)) ∧
    (∃ (s : State) (n : Fin 16), s.on (F.RAS_SPARE_REQ_VALID n) = false) ∧
    (∃ (s : State) (q : Requester) (mode : Fin 4), s.grants q false = true ∧ s.rd F.RAS_SPARE_POLICY_MODE ≠ mode ∧ s.on
    F.RAS_SPARE_STATUS_BUSY = true) ∧
    (∃ (s : State), s.due .rate 0 5760000000000 = false) ∧
    (∃ (s : State), s.due .age 1 138240000000000 = false) ∧
    ∃ (s : State), s.due .tcam 0 16000000 = false := by
  refine ⟨⟨{ mk [(F.LIGHT_TICKS_TICKS, 172800000009000)] with mat := { entries := [(10, { words := [6, 2, 7106023840, 4], valid := true })], tables := [(3, some { num := 1, kind := 1, shared := true, ways := 1, log2 := 4, keyWords := 1, actWords := 1, seeds := [], counters := false, blocks := 1, role := 0, miss := [] })] } },
    1, 1, 1, ?_⟩,
   ⟨mk [(F.LIGHT_TICKS_TICKS, 17280000027000)], 1, 3, 2219, ?_⟩,
   ⟨State.reset, 0, ?_⟩,
   ⟨mk [(F.BOOT_STATUS_STAGE, 6), (F.RAS_SPARE_STATUS_BUSY, 1)], .dysEth 1, 3, ?_⟩,
   ⟨State.reset, ?_⟩,
   ⟨State.reset, ?_⟩,
   ⟨State.reset, ?_⟩⟩ <;> decide +kernel

theorem wit_TidemarkAndTap :
    (∃ (s : State), bit (s.rd F.RAS_TM_CFG_SRC_EN) 0 = true ∧ s.tmLast = none) ∧
    (∃ (s : State), (s.ras.edge).isSome = true ∧ bit (s.rd F.RAS_TM_CFG_SRC_EN) 0 = true ∧ s.tmLast = some s.now) ∧
    (∃ (s : State), (s.tmLast).any (fun t0 => decide (t0 < s.now ∧ s.now - t0 < 1600 ∧ bit (s.rd F.RAS_TM_CFG_SRC_EN) 0 = true)) = true) ∧
    (∃ (s : State) (q : Requester), s.grants q false = true ∧ bit (s.rd F.RAS_TM_CFG_SRC_EN) 2 = true ∧ s.tmLast = none) ∧
    (∃ (s : State) (q : Requester), s.grants q false = true ∧ (s.ras.edge).isSome = true ∧ bit (s.rd F.RAS_TM_CFG_SRC_EN) 2 = true ∧
    s.tmLast = some s.now) ∧
    (∃ (s : State) (q : Requester), s.grants q false = true ∧ (s.tmLast).any (fun t0 => decide (t0 < s.now ∧ 1600 ≤ s.now - t0 ∧ bit (s.rd
    F.RAS_TM_CFG_SRC_EN) 2 = true)) = true) ∧
    (∃ (s : State) (q : Requester) (on : Bool), s.grants q false = true ∧ s.on F.DBG_CTL_ARM ≠ on ∧ (q = .pf0 ∨ q = .jtag) ∧ 512 ≤ s.rd
    F.DBG_PERTURB_PFC_PORT) ∧
    (∃ (s : State), bit (s.rd F.RAS_TM_CFG_SRC_EN) 2 = false) ∧
    (∃ (s : State), bit (s.rd F.RAS_TM_CFG_SRC_EN) 2 = true ∧ s.tmLast = none) ∧
    ∃ (s : State), bit (s.rd F.RAS_TM_CFG_SRC_EN) 0 = false := by
  refine ⟨⟨State.reset, ?_⟩,
   ⟨{ State.reset with tmLast := some 0, ras := { edge := some { at_ := 9, sources := 15, logSeq := 3, out := false } } }, ?_⟩,
   ⟨{ mk [(F.LIGHT_TICKS_TICKS, 18000)] with tmLast := some 17900 }, ?_⟩,
   ⟨mk [(F.BOOT_STATUS_STAGE, 6)], .dysEth 1, ?_⟩,
   ⟨{ mk [(F.BOOT_STATUS_STAGE, 6)] with tmLast := some 0, ras := { edge := some { at_ := 9, sources := 15, logSeq := 3, out := false } } },
    .dysEth 1, ?_⟩,
   ⟨{ mk [(F.BOOT_STATUS_STAGE, 6), (F.LIGHT_TICKS_TICKS, 9000)] with tmLast := some 0 }, .pf0, ?_⟩,
   ⟨mk [(F.BOOT_STATUS_STAGE, 6), (F.DBG_CTL_ARM, 1), (F.DBG_PERTURB_PFC_PORT, 1023)], .pf0, false, ?_⟩,
   ⟨mk [(F.RAS_TM_CFG_SRC_EN, 1)], ?_⟩,
   ⟨State.reset, ?_⟩,
   ⟨mk [(F.RAS_TM_CFG_SRC_EN, 6)], ?_⟩⟩ <;> decide +kernel

theorem wit_TidemarkAndTap_2 :
    (∃ (s : State) (q : Requester), s.grants q false = true ∧ bit (s.rd F.RAS_TM_CFG_SRC_EN) 2 = false) ∧
    (∃ (s : State) (q : Requester) (on : Bool), s.grants q false = true ∧ s.on F.DBG_CTL_ARM = on) ∧
    ∃ (s : State) (q : Requester) (on : Bool), s.grants q false = true ∧ s.on F.DBG_CTL_ARM ≠ on ∧ q ≠ .pf0 ∧ q ≠ .jtag := by
  refine ⟨⟨mk [(F.BOOT_STATUS_STAGE, 6), (F.RAS_TM_CFG_SRC_EN, 1)], .pf0, ?_⟩,
   ⟨mk [(F.BOOT_STATUS_STAGE, 6), (F.DBG_CTL_ARM, 1)], .dysEth 1, true, ?_⟩,
   ⟨mk [(F.BOOT_STATUS_STAGE, 6)], .dysEth 1, true, ?_⟩⟩ <;> decide +kernel

end Sys2Proof.Tests
end

section
/-! SUPPORT. The timers of Harbour (R42, R411, R417). -/

set_option Elab.async false

namespace Sys2Proof.Machine

/-! ### Ring interrupts and the link -/

/-- A vector's message leaves everything as it is but what leaves the device and the pending bits of vectors (R479). -/
theorem State.sendVector_rest (s : State) (k v : Nat) :
    { s.sendVector k v with out := s.out, msixPend := s.msixPend } = s := by
  unfold State.sendVector
  split <;> rfl

/-- What leaves with a vector's message depends on what has left and on which vectors are enabled only. -/
theorem State.sendVector_out_congr {s t : State} (hon : t.msixOn = s.msixOn) (hout : t.out = s.out) (k v : Nat) :
    (t.sendVector k v).out = (s.sendVector k v).out := by
  unfold State.sendVector
  rw [hon]
  split
  · exact congrArg (Out.msix k v :: ·) hout
  · exact hout

/-- RX_ITR_EXPIRE of a ring whose first waiting frame came at tick `a`, ITR µs ago or more: the ring counts no waiting frame and its vector is
raised (R417). -/
theorem rxItrExpire_due (s : State) (r : Fin 64) (a : Nat) (ha : mfind s.harb.since r = some a)
    (hdue : a + 1600 * s.rd (F.HARB_RX_CFG_ITR r) ≤ s.now) :
    Runs (.rxItrExpire r) s fun t =>
      mget t.harb.waiting r 0 = 0 ∧ mfind t.harb.since r = none ∧
      t.out = (s.sendVector (s.ringOwner false r) (ringVector (s.ringOwner false r) (s.rd (F.HARB_RX_CFG_VECTOR r)))).out ∧
      { t with harb := s.harb, out := s.out, msixPend := s.msixPend } = s := by
  have hx : exec (.rxItrExpire r) s = .next
      ((s.updHarb (fun h => { h with waiting := mset h.waiting r 0 0, since := merase h.since r })).ringRaise false r) := by
    change execRxItrExpire r s = _
    simp only [execRxItrExpire, ha, if_neg (Nat.not_lt.2 hdue)]
  refine ⟨_, hx, ?_, ?_, ?_, ?_⟩ <;> unfold State.ringRaise
  · simp [State.updHarb]
  · simp [State.updHarb, mfind_merase]
  · exact State.sendVector_out_congr (s := s) (t := s.updHarb _) rfl rfl _ _
  · exact congrArg (fun u : State => { u with harb := s.harb }) (State.sendVector_rest (s.updHarb _) _ _)

/-- RX_ITR_EXPIRE before ITR µs have passed changes nothing (R417). -/
theorem rxItrExpire_early (s : State) (r : Fin 64) (a : Nat) (ha : mfind s.harb.since r = some a)
    (hearly : s.now < a + 1600 * s.rd (F.HARB_RX_CFG_ITR r)) : Runs (.rxItrExpire r) s fun t => t = s := by
  refine ⟨s, ?_, rfl⟩
  change execRxItrExpire r s = _
  simp only [execRxItrExpire, ha, if_pos hearly]

/-- HARB_STATUS as PCIE_LINK_CHANGE writes it, before the interrupt (R411). -/
def State.linkSet (s : State) (up : Bool) (rate : Fin 6) (width : Fin 9) (flit : Bool) : State :=
  (((s.wrB F.HARB_STATUS_LINK_UP up).wr F.HARB_STATUS_RATE (if up then rate else 0)).wr F.HARB_STATUS_WIDTH
    (if up then width else 0)).wrB F.HARB_STATUS_FLIT (up && flit)

theorem execPcieLinkChange_eq (up : Bool) (rate : Fin 6) (width : Fin 9) (flit : Bool) (s : State) :
    execPcieLinkChange up rate width flit s =
      .next (if (s.linkSet up rate width flit).linkNow = s.linkNow then s else (s.linkSet up rate width flit).raise .harb 0 0) := rfl

/-- The four fields of HARB_STATUS after the write: the link as it is now, zeros where it is down. -/
theorem State.linkNow_linkSet (s : State) (up : Bool) (rate : Fin 6) (width : Fin 9) (flit : Bool) :
    (s.linkSet up rate width flit).linkNow =
      [if up then 1 else 0, if up then rate.val else 0, if up then width.val else 0, if up && flit then 1 else 0] := by
  have hrate : (if up then rate.val else 0) % 2 ^ 3 = if up then rate.val else 0 := Nat.mod_eq_of_lt (by split <;> omega)
  have hwidth : (if up then width.val else 0) % 2 ^ 4 = if up then width.val else 0 := Nat.mod_eq_of_lt (by split <;> omega)
  simp only [State.linkNow, State.linkSet, State.wrB, F.HARB_STATUS_LINK_UP, F.HARB_STATUS_RATE, F.HARB_STATUS_WIDTH, F.HARB_STATUS_FLIT]
  simp only [State.rd_wr_mk, implies_true, reduceCtorEq, Nat.reduceEqDiff, and_false, if_false, and_self,
    if_true, Nat.mod_mod, hrate, hwidth]
  cases up <;> cases flit <;> rfl

/-- The write of HARB_STATUS touches its four fields only. -/
theorem State.changes_linkSet (s : State) (up : Bool) (rate : Fin 6) (width : Fin 9) (flit : Bool) :
    changes [F.HARB_STATUS_LINK_UP, F.HARB_STATUS_RATE, F.HARB_STATUS_WIDTH, F.HARB_STATUS_FLIT] s (s.linkSet up rate width flit) :=
  ((((changes.refl s).wrB (by simp) _).wr (by simp) _).wr (by simp) _).wrB (by simp) _

/-- What a list of the four fields of HARB_STATUS says of a state. -/
theorem State.linkNow_eq_iff (t : State) (a b c d : Nat) :
    t.linkNow = [a, b, c, d] ↔ t.rd F.HARB_STATUS_LINK_UP = a ∧ t.rd F.HARB_STATUS_RATE = b ∧ t.rd F.HARB_STATUS_WIDTH = c ∧
      t.rd F.HARB_STATUS_FLIT = d := by
  simp [State.linkNow]

/-- An event of Harbour leaves HARB_STATUS. -/
theorem State.linkNow_raise (s : State) (b : Blk) (i e : Nat) (h : RegName.HARB_STATUS ≠ (intStatus b i).reg) :
    (s.raise b i e).linkNow = s.linkNow := by
  simp only [State.linkNow, F.HARB_STATUS_LINK_UP, F.HARB_STATUS_RATE, F.HARB_STATUS_WIDTH, F.HARB_STATUS_FLIT, State.rd_raise_reg _ _ _ _ h]

/-- PCIE_LINK_CHANGE: HARB_STATUS follows the link, and bit 0 of HARB_INT_STATUS tells a change (R411). -/
theorem pcieLinkChange_runs (s : State) (up : Bool) (rate : Fin 6) (width : Fin 9) (flit : Bool) :
    Runs (.pcieLinkChange up rate width flit) s fun t =>
      t.on F.HARB_STATUS_LINK_UP = up ∧ t.rd F.HARB_STATUS_RATE = (if up then rate.val else 0) ∧
      t.rd F.HARB_STATUS_WIDTH = (if up then width.val else 0) ∧ t.on F.HARB_STATUS_FLIT = (up && flit) ∧
      (s.on F.HARB_STATUS_LINK_UP ≠ up → t.intBit .harb 0 0 = true) ∧
      signals [F.HARB_STATUS_LINK_UP, F.HARB_STATUS_RATE, F.HARB_STATUS_WIDTH, F.HARB_STATUS_FLIT, F.HARB_INT_STATUS_BITS] s t := by
  have hset := s.linkNow_linkSet up rate width flit
  have hfields : ∀ t : State, t.linkNow = (s.linkSet up rate width flit).linkNow →
      t.on F.HARB_STATUS_LINK_UP = up ∧ t.rd F.HARB_STATUS_RATE = (if up then rate.val else 0) ∧
      t.rd F.HARB_STATUS_WIDTH = (if up then width.val else 0) ∧ t.on F.HARB_STATUS_FLIT = (up && flit) := by
    intro t ht
    obtain ⟨hup, hrate, hwidth, hflit⟩ := (State.linkNow_eq_iff ..).1 (ht.trans hset)
    refine ⟨?_, hrate, hwidth, ?_⟩
    · simp only [State.on, hup]; cases up <;> rfl
    · simp only [State.on, hflit]; cases (up && flit) <;> rfl
  refine ⟨_, execPcieLinkChange_eq up rate width flit s, ?_⟩
  split
  case isTrue hsame =>
    obtain ⟨hup, hrate, hwidth, hflit⟩ := hfields s hsame.symm
    exact ⟨hup, hrate, hwidth, hflit, fun hne => absurd hup hne, signals.refl s⟩
  case isFalse =>
    obtain ⟨hup, hrate, hwidth, hflit⟩ := hfields _ (State.linkNow_raise (s.linkSet up rate width flit) .harb 0 0 (by decide))
    refine ⟨hup, hrate, hwidth, hflit, fun _ => State.intBit_raise_self _ _ _ _ (by decide), ?_⟩
    exact ((s.changes_linkSet up rate width flit).signals.mono (by simp)).raise (by simp [intStatus]) 0

/-- HOST_INJECT_WAIT_EXPIRE: the host frames of one ingress pipeline that have waited 1 µs go ahead; nothing else changes (R42). -/
theorem hostInjectWaitExpire_runs (s : State) (i : Fin 16) (x : Fin 5) :
    Runs (.hostInjectWaitExpire i x) s fun t =>
      mget t.path.inject (10 * i.val + x.val) [] =
        (mget s.path.inject (10 * i.val + x.val) []).map (fun e => if s.now ≥ e.1 + 1600 then (e.1, true, e.2.2) else e) ∧
      (∀ y : Fin 160, y.val ≠ 10 * i.val + x.val → mget t.path.inject y [] = mget s.path.inject y []) ∧
      { t with path := { t.path with inject := s.path.inject } } = s :=
  ⟨_, rfl, mget_mset_self .., fun _ hy => mget_mset_ne _ _ _ _ hy, rfl⟩

/-- Settles O22: each of the three timers by its own lemma. -/
theorem harbourTimers : Obligations.HarbourTimers := by
  unfold Obligations.HarbourTimers
  exact fun s => ⟨fun r a ha => ⟨rxItrExpire_due s r a ha, rxItrExpire_early s r a ha⟩, pcieLinkChange_runs s, hostInjectWaitExpire_runs s⟩

end Sys2Proof.Machine
end

section
/-! SUPPORT. Frames to host memory (R41, R248, R416, R417): a frame whose cells have shown an uncorrectable word is dropped, and nothing of it
is written back. -/

set_option Elab.async false

namespace Sys2Proof.Machine

/-- RX_FRAME_WRITE serves the choice of the CPU scheduler once the ring has the buffers for it (R248, R416). -/
theorem rxFrameWrite_serves (s : State) (bufs : List Nat) (errs : List (Nat × Bool)) (c : Child) (e : QEnt) (x : Pkt)
    (hc : s.cpuDecide = some c) (hx : s.headPkt c.ix = some (e, x)) (hb : s.rxNeed (c.ix - 9216) x.data.length ≤ bufs.length) :
    exec (.rxFrameWrite bufs errs) s =
      .next ((s.cpuAccount c (max 1 x.data.length)).cpuServe (c.ix - 9216) e x bufs errs) := by
  change execRxFrameWrite bufs errs s = _
  simp only [execRxFrameWrite, hc, hx, if_neg (Nat.not_lt.2 hb)]

/-- A frame of one octet in one cell whose reading has shown an uncorrectable word before: a multicast packet that another of its queues has
read, say (R174). -/
def badFrame : Pkt :=
  { data := [0x07#8], md := {}, inPort := 1023, host := true, ts := 0, tsB := 0, t16 := 0, half := 0, cells := [16385], acct := .none,
    refs := 1, ce := false, deep := false, admitted := 0, bad := true, payOff := 0 }

/-- RX ring 0 runs with one buffer posted, and `badFrame` waits for it as packet 5. -/
def badFrameWaits : State :=
  { (((State.reset.wr F.HARB_STATUS_LINK_UP 1).wr (F.HARB_RX_CFG_EN 0) 1).wr (F.HARB_RX_TAIL_TAIL 0) 1) with
    path := { pkts := [(5, badFrame)], queues := [(9216, [{ pkt := 5, depth := 0 }])] } }

/-- CPU queue 0 as the scheduler sees it in `badFrameWaits`. -/
def badFrameQueue : Child :=
  { ix := 9216, key := 9216, prio := 0, weight := 1, tag := 0, below := false, elig := true, busy := true }

theorem badFrameWaits_cpuDecide : badFrameWaits.cpuDecide = some badFrameQueue := by decide +kernel

theorem badFrameWaits_headPkt : badFrameWaits.headPkt badFrameQueue.ix = some ({ pkt := 5, depth := 0 }, badFrame) := by decide +kernel

/-- The frame would take one buffer of ring 0. -/
theorem badFrameWaits_rxNeed : badFrameWaits.rxNeed (badFrameQueue.ix - 9216) badFrame.data.length = 1 := by decide +kernel

/-- Where HEAD would stand had the frame been written back. -/
theorem badFrameWaits_headNext :
    (badFrameWaits.rd (F.HARB_RX_HEAD_HEAD 0) + badFrameWaits.rxNeed 0 badFrame.data.length) % badFrameWaits.ringEntries false 0 = 1 := by
  decide +kernel

/-- The bad frame is dropped: HEAD of ring 0 stays at 0. -/
theorem badFrameWaits_headStays :
    ((badFrameWaits.cpuAccount badFrameQueue (max 1 badFrame.data.length)).cpuServe (badFrameQueue.ix - 9216) { pkt := 5, depth := 0 } badFrame
      [4096] []).rd (F.HARB_RX_HEAD_HEAD 0) = 0 := by
  decide +kernel

/-- Refutes O23: its third clause lets HEAD pass the descriptors of every frame that RX_FRAME_WRITE serves without errors in its operand and
with no perturbation armed, while a packet that is already marked bad is dropped and HEAD stays (`badFrameWaits`). -/
theorem not_ringFrames : ¬ Obligations.RingFrames := by
  unfold Obligations.RingFrames
  rintro ⟨hstate, -⟩
  obtain ⟨-, -, hwritten, -⟩ := hstate badFrameWaits
  have hneed : badFrameWaits.rxNeed 0 badFrame.data.length ≤ [4096].length := badFrameWaits_rxNeed.le
  obtain ⟨t, ht, -, hhead, -⟩ :=
    hwritten [4096] _ badFrameWaits_cpuDecide _ _ badFrameWaits_headPkt 0 rfl hneed (by decide +kernel)
  rw [rxFrameWrite_serves _ _ _ _ _ _ badFrameWaits_cpuDecide badFrameWaits_headPkt hneed] at ht
  rw [← Host.Outcome.next.inj ht, badFrameWaits_headStays, badFrameWaits_headNext] at hhead
  exact absurd hhead (by decide)

end Sys2Proof.Machine
end

section
/-! SUPPORT. What sending over the Causeway, and the counting and reporting around it, can do to the bundles (R26 to R35): one relation, with
one lemma for each operation. -/

set_option Elab.async false

namespace Sys2Proof.Machine

/-- A command runs where it answers a next state. -/
theorem Runs.of_exec {c : Instr} {s t : State} {p : State → Prop} (h : exec c s = .next t) (hp : p t) : Runs c s p := ⟨t, h, hp⟩

/-! ### Bundles after a write -/

@[simp] theorem State.bundle_setBundle_self (s : State) (d b : Nat) (x : Bundle) : (s.setBundle d b x).bundle d b = x :=
  mget_mset_self ..

/-- A bundle that is replaced leaves the places of the others. -/
theorem State.bundles_setBundle (s : State) (d b k : Nat) (x : Bundle) :
    mget (s.setBundle d b x).path.cway.bundles k {} = if k = 64 * d + b then x else mget s.path.cway.bundles k {} :=
  mget_mset ..

@[simp] theorem State.setBundle_rd (s : State) (d b : Nat) (x : Bundle) (f : Fld) : (s.setBundle d b x).rd f = s.rd f := rfl

/-- What keeps the bundles keeps each of them. -/
theorem State.bundle_congr {s t : State} (h : t.path.cway.bundles = s.path.cway.bundles) (d b : Nat) : t.bundle d b = s.bundle d b := by
  unfold State.bundle
  rw [h]

/-! ### The relation -/

/-- From `x` to `y` a bundle has sent flits: they join what is unacknowledged and what is on the wires, in order, and use up grants and
flits handed over. What its receiver holds, and what is on its way back, is as it was. -/
def Bundle.Sent (x y : Bundle) : Prop :=
  ∃ l n g c, y = { x with next := n, unacked := x.unacked ++ l, wire := x.wire ++ l, grants := g, carry := c }

theorem Bundle.Sent.refl (x : Bundle) : x.Sent x := ⟨[], x.next, x.grants, x.carry, by simp⟩

theorem Bundle.Sent.trans {x y z : Bundle} (h : x.Sent y) (k : y.Sent z) : x.Sent z := by
  obtain ⟨l, n, g, c, rfl⟩ := h
  obtain ⟨l', n', g', c', rfl⟩ := k
  exact ⟨l ++ l', n', g', c', by simp⟩

theorem Bundle.Sent.unacked_take {x y : Bundle} (h : x.Sent y) : y.unacked.take x.unacked.length = x.unacked := by
  obtain ⟨l, n, g, c, rfl⟩ := h
  exact List.take_left' rfl

theorem Bundle.Sent.wire_take {x y : Bundle} (h : x.Sent y) : y.wire.take x.wire.length = x.wire := by
  obtain ⟨l, n, g, c, rfl⟩ := h
  exact List.take_left' rfl

/-- What sending leaves of a bundle. -/
theorem Bundle.Sent.rest {x y : Bundle} (h : x.Sent y) :
    y.ack = x.ack ∧ y.nack = x.nack ∧ y.discarding = x.discarding ∧ y.resends = x.resends ∧ y.swapWait = x.swapWait ∧
      y.swapWire = x.swapWire := by
  obtain ⟨l, n, g, c, rfl⟩ := h
  exact ⟨rfl, rfl, rfl, rfl, rfl, rfl⟩

/-- A bundle uses up grants and flits handed over. -/
theorem Bundle.Sent.own (x : Bundle) (g : List Nat) (c : List Body) : x.Sent { x with grants := g, carry := c } :=
  ⟨[], x.next, g, c, by simp⟩

/-- The registers that change with what is sent, counted and reported: the Causeway's own status is not among them. -/
def sendRegs : List RegName :=
  [.CWAY_BUNDLE_ERR, .LAG_BANK_STATUS, .LAG_HALF_STATUS, .LAG_INT_STATUS, .CNT_VALUE, .CNT_CTL, .CNT_INT_STATUS, .RAS_CLASS_CNT,
   .RAS_INT_STATUS, .RAS_LOG_WR, .RAS_LOG_OVERRUN, .RAS_TM_IGNORED, .RAS_SPARE_STATUS, .RAS_SPARE_SUMMARY, .RAS_SPARE_SUMMARY_HI,
   .DYS_RSP_TAIL]

/-- From `s` to `t` the Causeway has done no more than send: registers outside `sendRegs` read as before, bundles have sent, and one that is
not ACTIVE has not (R29, R30). -/
structure State.Sends (s t : State) : Prop where
  regs : readsOff sendRegs s t
  sent : ∀ k, (mget s.path.cway.bundles k {}).Sent (mget t.path.cway.bundles k {})
  idle : ∀ k, s.rd (F.CWAY_BUNDLE_STATUS_STATE k) ≠ 0 → mget t.path.cway.bundles k {} = mget s.path.cway.bundles k {}

namespace State.Sends

variable {s0 s t : State}

theorem refl (s : State) : State.Sends s s := ⟨readsOff.refl s, fun _ => Bundle.Sent.refl _, fun _ _ => rfl⟩

/-- The registers of CWAY_BUNDLE_STATUS read as before. -/
theorem rd_bundleStatus (h : State.Sends s t) {k lo w d : Nat} :
    t.rd ⟨.CWAY_BUNDLE_STATUS, k, lo, w, d⟩ = s.rd ⟨.CWAY_BUNDLE_STATUS, k, lo, w, d⟩ :=
  h.regs _ (show RegName.CWAY_BUNDLE_STATUS ∉ sendRegs by decide)

/-- The events of the Causeway stand as before. -/
theorem intBit_cway (h : State.Sends s t) (i e : Nat) : t.intBit .cway i e = s.intBit .cway i e :=
  congrArg (bit · e) (h.regs _ (show RegName.CWAY_INT_STATUS ∉ sendRegs by decide))

theorem bundleState_eq (h : State.Sends s t) (d b : Nat) : t.bundleState d b = s.bundleState d b := h.rd_bundleStatus

theorem bundle (h : State.Sends s t) (d b : Nat) : (s.bundle d b).Sent (t.bundle d b) := h.sent _

/-- A bundle that is not ACTIVE is as it was. -/
theorem bundle_idle (h : State.Sends s t) {d b : Nat} (hs : s.bundleState d b ≠ 0) : t.bundle d b = s.bundle d b := h.idle _ hs

theorem trans (h : State.Sends s0 s) (k : State.Sends s t) : State.Sends s0 t :=
  ⟨h.regs.trans k.regs, fun i => (h.sent i).trans (k.sent i),
   fun i hi => (k.idle i (h.rd_bundleStatus ▸ hi)).trans (h.idle i hi)⟩

/-- What leaves the bundles and every register outside `sendRegs`. -/
theorem aside (h : State.Sends s0 s) (hr : readsOff sendRegs s t) (hb : t.path.cway.bundles = s.path.cway.bundles) : State.Sends s0 t :=
  h.trans ⟨hr, fun k => hb ▸ Bundle.Sent.refl _, fun k _ => by rw [hb]⟩

/-- What leaves the bundles and the registers. -/
theorem congr (h : State.Sends s0 s) (hr : t.regs = s.regs) (hb : t.path.cway.bundles = s.path.cway.bundles) : State.Sends s0 t :=
  h.aside ((readsOff.refl s).congr hr) hb

theorem updCway (h : State.Sends s0 s) {f : Cway → Cway} (hf : ∀ c, (f c).bundles = c.bundles) : State.Sends s0 (s.updCway f) :=
  h.congr rfl (hf _)

theorem wr (h : State.Sends s0 s) (f : Fld) (v : Nat) (hf : f.reg ∈ sendRegs) : State.Sends s0 (s.wr f v) :=
  h.aside ((readsOff.refl s).wr hf v) rfl

theorem raise (h : State.Sends s0 s) (b : Blk) (i e : Nat) (hf : (intStatus b i).reg ∈ sendRegs) : State.Sends s0 (s.raise b i e) :=
  h.aside ((readsOff.refl s).raise hf e) (by rw [State.raise_path])

/-- An ACTIVE bundle sends. -/
theorem setBundle (h : State.Sends s0 s) {d b : Nat} {x : Bundle} (hs : s.bundleState d b = 0) (hx : (s.bundle d b).Sent x) :
    State.Sends s0 (s.setBundle d b x) := by
  refine h.trans ⟨(readsOff.refl s).congr rfl, fun k => ?_, fun k hk => ?_⟩ <;> rw [State.bundles_setBundle]
  · split
    case isTrue hkey => rw [hkey]; exact hx
    case isFalse => exact Bundle.Sent.refl _
  · refine if_neg fun hkey => hk ?_
    rw [hkey]
    exact hs

theorem foldl {α : Type} {g : State → α → State} {l : List α} (h : State.Sends s0 s) (hg : ∀ t x, State.Sends s0 t → State.Sends s0 (g t x)) :
    State.Sends s0 (l.foldl g s) := by
  induction l generalizing s with
  | nil => exact h
  | cons x l ih => exact ih (hg _ _ h)

theorem ite {c : Prop} [Decidable c] (h : State.Sends s0 s) (k : State.Sends s0 t) : State.Sends s0 (if c then s else t) := by
  split
  · exact h
  · exact k

/-! ### Counting and reporting -/

theorem cntAdd (h : State.Sends s0 s) (n v : Nat) : State.Sends s0 (s.cntAdd n v).2 := by
  have hval : (F.CNT_VALUE_VALUE n).reg ∈ sendRegs := show RegName.CNT_VALUE ∈ sendRegs by decide
  have hovf : State.Sends s0 (s.wrB (F.CNT_CTL_OVF n) true) := h.wr _ _ (show RegName.CNT_CTL ∈ sendRegs by decide)
  unfold State.cntAdd
  dsimp only
  split
  · exact h.wr _ _ hval
  · exact (ite (hovf.raise .cnt 0 0 (by decide)) hovf).wr _ _ hval

theorem cntGlobal (h : State.Sends s0 s) (ev arg v : Nat) : State.Sends s0 (s.cntGlobal ev arg v) :=
  h.foldl fun _ _ ht => ite (ht.cntAdd _ _) ht

theorem logWrite (h : State.Sends s0 s) (c code unit detail : Nat) (inj : Bool) : State.Sends s0 (s.logWrite c code unit detail inj) := by
  unfold State.logWrite
  split
  · exact h.congr rfl rfl
  · extract_lets seq e old s1 s2 s3
    have h1 : State.Sends s0 s1 := ite (h.wr _ _ (show RegName.RAS_LOG_OVERRUN ∈ sendRegs by decide)) h
    have h2 : State.Sends s0 s2 := h1.wr _ _ (show RegName.RAS_LOG_WR ∈ sendRegs by decide)
    have h3 : State.Sends s0 s3 := h2.congr rfl rfl
    exact ite (h3.congr rfl rfl) h3

theorem tidemark (h : State.Sends s0 s) (src logSeq : Nat) : State.Sends s0 (s.tidemark src logSeq) := by
  unfold State.tidemark
  exact ite h (ite (h.congr rfl rfl) (ite (h.wr _ _ (show RegName.RAS_TM_IGNORED ∈ sendRegs by decide)) (h.congr rfl rfl)))

theorem event (h : State.Sends s0 s) (c code unit detail : Nat) (inj : Bool) : State.Sends s0 (s.event c code unit detail inj) := by
  unfold State.event
  extract_lets s1 s2 s3 s4
  have h2 : State.Sends s0 s2 :=
    (h.wr _ _ (show RegName.RAS_CLASS_CNT ∈ sendRegs by decide)).raise .ras 0 c (by decide)
  have h3 : State.Sends s0 s3 := h2.logWrite ..
  have h4 : State.Sends s0 s4 := ite h2 (ite (h3.tidemark ..) h3)
  exact ite (h4.congr rfl rfl) h4

theorem ethRespond (h : State.Sends s0 s) (e : Nat) (r : Rsp) : State.Sends s0 (s.ethRespond e r) := by
  unfold State.ethRespond
  dsimp only
  split
  · exact h
  · exact ite (h.congr rfl rfl) (h.congr rfl rfl)

theorem ringRespond (h : State.Sends s0 s) (k : Nat) (r : Rsp) : State.Sends s0 (s.ringRespond k r) := by
  unfold State.ringRespond
  split
  · exact h
  · extract_lets t at_ ph s1 n s2 dys s3
    have h1 : State.Sends s0 s1 := h.congr rfl rfl
    have h2 : State.Sends s0 s2 := h1.wr _ _ (show RegName.DYS_RSP_TAIL ∈ sendRegs by decide)
    have h3 : State.Sends s0 s3 := ite (h2.congr rfl rfl) h2
    exact h3.congr (State.sendVector_regs ..) (by rw [State.sendVector_path])

theorem respond (h : State.Sends s0 s) (via : Via) (r : Rsp) : State.Sends s0 (s.respond via r) := by
  cases via with
  | ring k => exact h.ringRespond _ r
  | eth e => exact h.ethRespond _ r
  | i2c => exact h.congr rfl rfl

theorem finishHold (h : State.Sends s0 s) (kind ix status state detail : Nat) :
    State.Sends s0 (s.finishHold kind ix status state detail) := by
  unfold State.finishHold
  exact foldl (h.congr rfl rfl) fun _ _ ht => ht.respond _ _

theorem spareConsumed (h : State.Sends s0 s) (k : Nat) (b : Blk) (i unit detail : Nat) :
    State.Sends s0 (s.spareConsumed k b i unit detail) := by
  have hfree : State.Sends s0 (s.subFrom (F.RAS_SPARE_SUMMARY_FREE k) 1) := h.wr _ _ (show RegName.RAS_SPARE_SUMMARY ∈ sendRegs by decide)
  unfold State.spareConsumed
  exact event (hfree.wr (F.RAS_SPARE_SUMMARY_HI_FAILED k) _ (show RegName.RAS_SPARE_SUMMARY_HI ∈ sendRegs by decide)) ..

/-! ### Sending -/

theorem spillUpdate (h : State.Sends s0 s) (i : Nat) : State.Sends s0 (s.spillUpdate i) := by
  have hspill : ∀ v, State.Sends s0 (s.wrB (F.LAG_HALF_STATUS_SPILLING i) v) := fun v =>
    h.wr _ _ (show RegName.LAG_HALF_STATUS ∈ sendRegs by decide)
  unfold State.spillUpdate
  exact ite ((hspill true).raise .lag 0 _ (by decide)) (ite (hspill false) h)

theorem useGrant (h : State.Sends s0 s) (d b : Nat) (x : Body) : State.Sends s0 (s.useGrant d b x) := by
  unfold State.useGrant
  split
  · exact h
  · extract_lets o s1 s2 s3
    have h1 : State.Sends s0 s1 := h.congr rfl rfl
    have h2 : State.Sends s0 s2 := h1.wr _ _ (show RegName.LAG_BANK_STATUS ∈ sendRegs by decide)
    have hfree : State.Sends s0 (s2.subFrom (F.LAG_HALF_STATUS_FREE 1) 1) := h2.wr _ _ (show RegName.LAG_HALF_STATUS ∈ sendRegs by decide)
    have h3 : State.Sends s0 s3 := ite (hfree.spillUpdate 1) h2
    split
    · split
      · exact h2.congr rfl rfl
      · exact h2
    · exact h3.congr rfl rfl
    · exact h2

/-- An ACTIVE bundle sends a flit. -/
theorem seqFlit (h : State.Sends s0 s) {d b : Nat} (hs : s.bundleState d b = 0) (x : Body) : State.Sends s0 (s.seqFlit d b x) :=
  h.setBundle hs ⟨[_], _, _, _, rfl⟩

theorem seqFlits (h : State.Sends s0 s) {d b : Nat} (hs : s.bundleState d b = 0) (l : List Body) :
    State.Sends s0 (l.foldl (fun s x => s.seqFlit d b x) s) := by
  induction l generalizing s with
  | nil => exact h
  | cons x l ih => exact ih (h.seqFlit hs x) hs

theorem putFlit (h : State.Sends s0 s) {d b : Nat} (hs : s.bundleState d b = 0) (x : Body) : State.Sends s0 (s.putFlit d b x) := by
  unfold State.putFlit
  extract_lets s1 y s2 k s3
  have h1 : State.Sends s0 s1 := h.seqFlit hs x
  have h2 : State.Sends s0 s2 := ite (h1.setBundle hs (Bundle.Sent.own _ _ _)) h1
  have h3 : State.Sends s0 s3 := ite h2 (h2.updCway fun _ => rfl)
  exact h3.cntGlobal ..

theorem sendCarry (h : State.Sends s0 s) (d b : Nat) : State.Sends s0 (s.sendCarry d b) := by
  unfold State.sendCarry
  dsimp only
  split
  · exact h
  · next hopen =>
    simp only [Bool.or_eq_true, decide_eq_true_eq, not_or, ne_eq, not_not] at hopen
    have hs : s.bundleState d b = 0 := hopen.1
    exact seqFlits (h.setBundle hs (Bundle.Sent.own _ _ _)) hs _

end State.Sends

/-- The bundle that sends next is ACTIVE (R30, R33). -/
theorem State.nextSend_active {s : State} {d b vc : Nat} (h : s.nextSend d = some (b, vc)) : s.bundleState d b = 0 := by
  obtain ⟨k, -, hk⟩ := List.exists_of_findSome?_eq_some h
  split at hk
  · next hopen =>
    obtain ⟨w, -, hw⟩ := Option.map_eq_some_iff.1 hk
    obtain ⟨rfl, rfl⟩ := Prod.mk.inj hw
    simp only [State.bundleOpen, Bool.and_eq_true, decide_eq_true_eq] at hopen
    exact hopen.1.1.1
  · cases hk

theorem State.Sends.sendOne {s0 s t : State} {d : Nat} (h : State.Sends s0 s) (e : s.sendOne d = some t) : State.Sends s0 t := by
  unfold State.sendOne at e
  split at e
  · cases e
  · next b vc hnext =>
    split at e
    · cases e
    · next x rest _ =>
      extract_lets s1 s2 debt s3 s4 at e
      have h1 : State.Sends s s1 := (State.Sends.refl s).congr rfl rfl
      have h2 : State.Sends s s2 := ite (h1.useGrant ..) h1
      have h3 : State.Sends s s3 := ite (h2.updCway fun _ => rfl) h2
      have h4 : State.Sends s s4 := h3.putFlit ((h3.bundleState_eq d b).trans (State.nextSend_active hnext)) x
      rw [← Option.some.inj e]
      exact h.trans (ite h4 (h4.updCway fun _ => rfl))

theorem State.Sends.sendMany {s0 s : State} (h : State.Sends s0 s) (d n : Nat) : State.Sends s0 (s.sendMany d n) := by
  induction n generalizing s with
  | zero => exact h
  | succ n ih =>
    unfold State.sendMany
    split
    · next t ht => exact ih (h.sendOne ht)
    · exact h

/-- Sending what waits is no more than sending (R33, R34). -/
theorem State.Sends.cwayPump {s0 s : State} (h : State.Sends s0 s) (d : Nat) : State.Sends s0 (s.cwayPump d) := by
  unfold State.cwayPump
  refine State.Sends.sendMany (h.foldl fun t b ht => ?_) d _
  split
  · exact ht
  · exact ht.sendCarry d b

/-- Nothing waits in direction `d`, and nothing that a retired bundle has handed over is still to send. -/
def State.NothingWaits (s : State) (d : Nat) : Prop := (∀ vc < 6, s.cwayWait d vc = []) ∧ ∀ b < 64, (s.bundle d b).carry = []

/-- Where nothing waits, nothing is sent (R33). -/
theorem State.cwayPump_of_nothingWaits {s : State} {d : Nat} (h : s.NothingWaits d) : s.cwayPump d = s := by
  obtain ⟨hwait, hcarry⟩ := h
  have hfold : ∀ l : List Nat, (∀ b ∈ l, b < 64) →
      l.foldl (fun s b => if (s.bundle d b).carry.isEmpty then s else s.sendCarry d b) s = s := by
    intro l hl
    induction l with
    | nil => rfl
    | cons b l ih =>
      rw [List.foldl_cons, hcarry b (hl b List.mem_cons_self)]
      exact ih fun c hc => hl c (List.mem_cons_of_mem _ hc)
  have hnone : (List.range 6).foldl (fun n vc => n + (s.cwayWait d vc).length) 0 = 0 := by
    simp [List.range, List.range.loop, hwait]
  unfold State.cwayPump
  rw [hfold _ fun b hb => List.mem_range.1 hb]
  simp only [hnone, State.sendMany]

end Sys2Proof.Machine
end

section
/-! SUPPORT. A flit's CRC: what is sent passes the receiver's check (R26, R28). -/

set_option Elab.async false

namespace Sys2Proof.Machine

@[simp] theorem length_lsbBits (n v : Nat) : (lsbBits n v).length = n := by
  induction n generalizing v with
  | zero => rfl
  | succ n ih => simp [lsbBits, ih]

/-- The low bits of a number, read back. -/
theorem ofLsb_lsbBits (n v : Nat) : ofLsb (lsbBits n v) = v % 2 ^ n := by
  induction n generalizing v with
  | zero => simp [lsbBits, ofLsb, Nat.mod_one]
  | succ n ih =>
    have hbit : (if decide (v % 2 = 1) = true then 1 else 0) = v % 2 := by
      rcases Nat.mod_two_eq_zero_or_one v with h | h <;> simp [h]
    rw [lsbBits, ofLsb, ih, hbit, Nat.pow_succ', Nat.mod_mul]

/-- Wires that change no bit deliver what was sent. -/
theorem zipWith_xor_lsbBits_zero (l : List Bool) (n : Nat) (h : l.length = n) : List.zipWith xor l (lsbBits n 0) = l := by
  induction n generalizing l with
  | zero => simp [List.length_eq_zero_iff.1 h]
  | succ n ih =>
    cases l with
    | nil => cases h
    | cons b l =>
      rw [lsbBits, Nat.zero_div, List.zipWith_cons_cons, ih l (Nat.succ.inj h)]
      simp

theorem crcStep_lt (c : Nat) (b : Bool) : crcStep c b < 2 ^ 32 := by
  unfold crcStep
  split
  · exact Nat.xor_lt_two_pow (Nat.mod_lt _ (by decide)) (by decide)
  · exact Nat.mod_lt _ (by decide)

/-- The CRC is a number of 32 bits. -/
theorem crc32Bits_lt (l : List Bool) : crc32Bits l < 2 ^ 32 := by
  rcases List.eq_nil_or_concat l with rfl | ⟨l, b, rfl⟩
  · decide
  · rw [crc32Bits, List.concat_eq_append, List.foldl_append]
    exact crcStep_lt _ b

/-- A flit of at most 32 words has 2,064 bits before its CRC (R26). -/
theorem length_flitHead (type seq : Nat) (words : List Nat) (h : words.length ≤ 32) : (flitHead type seq words).length = 2064 := by
  have hpay : ((words ++ List.replicate (32 - words.length) 0).flatMap (lsbBits 64)).length = 2048 := by
    rw [List.length_flatMap, List.map_congr_left (fun _ _ => length_lsbBits 64 _), List.map_const', List.sum_replicate, List.length_append,
      List.length_replicate, Nat.add_sub_cancel' h, smul_eq_mul]
  simp only [flitHead, List.length_append, length_lsbBits, hpay]

/-- A flit as it is sent passes the receiver's check (R26, R28). -/
theorem flitGood_flitBits (type seq : Nat) (words : List Nat) (h : words.length ≤ 32) : flitGood (flitBits type seq words) = true := by
  have hlen := length_flitHead type seq words h
  unfold flitGood flitBits
  rw [List.take_left' hlen, List.drop_left' hlen, ofLsb_lsbBits, Nat.mod_eq_of_lt (crc32Bits_lt _)]
  exact decide_eq_true rfl

/-- A flit whose wires change no bit passes the receiver's check (R28). -/
theorem State.flitGood_flitArrives (s : State) (f : Flit) (h : (s.flitWords f.body).length ≤ 32) : flitGood (s.flitArrives f 0) = true := by
  have hlen : (flitBits f.body.type f.seq (s.flitWords f.body)).length = 2096 := by
    simp only [flitBits, List.length_append, length_lsbBits, length_flitHead _ _ _ h]
  unfold State.flitArrives
  rw [show (0 : BitVec 2096).toNat = 0 from BitVec.toNat_zero, zipWith_xor_lsbBits_zero _ _ hlen]
  exact flitGood_flitBits _ _ _ h

end Sys2Proof.Machine
end

section
/-! SUPPORT. The commands of the Causeway: grants, flits, credits and descriptors (R26 to R29, R33, R34). -/

set_option Elab.async false

namespace Sys2Proof.Machine

/-! ### Grants and credits -/

theorem State.bundle_setBundle (s : State) (d b k l : Nat) (x : Bundle) :
    (s.setBundle d b x).bundle k l = if 64 * k + l = 64 * d + b then x else s.bundle k l := s.bundles_setBundle ..

/-- The next cell leaves registers, grants and the Causeway (R173). -/
theorem State.nextCell_rest {s t : State} {h k : Nat} (e : s.nextCell h = some (k, t)) :
    t.path.granted = s.path.granted ∧ t.path.cway = s.path.cway := by
  have htake : ∀ (u : State) (o : Nat), (u.takeIndex o).2.path.granted = u.path.granted ∧ (u.takeIndex o).2.path.cway = u.path.cway := by
    intro u o
    unfold State.takeIndex
    dsimp only
    split
    · exact ⟨rfl, rfl⟩
    · split <;> exact ⟨rfl, rfl⟩
  unfold State.nextCell at e
  split at e
  · cases e
  · cases e
    exact htake _ _

/-- One granted cell joins the grants of its bundle (R27). -/
theorem State.grantCells_one {s t : State} {d k : Nat} (b : Nat) (e : s.nextCell (1 - d) = some (k, t)) :
    s.grantCells d b 1 =
      (t.updPath (fun x => { x with granted := mset x.granted (cellBank k) (mget x.granted (cellBank k) 0 + 1) 0 })).setBundle d b
        { t.bundle d b with grants := (t.bundle d b).grants ++ [k] } := by
  simp only [State.grantCells, e]
  rfl

/-- What leaves the waiting flits of a direction and the flits handed over to its bundles leaves nothing to send where nothing was. -/
theorem State.NothingWaits.congr {s t : State} {d : Nat} (h : s.NothingWaits d) (hw : t.path.cway.waiting = s.path.cway.waiting)
    (hc : ∀ b, (t.bundle d b).carry = (s.bundle d b).carry) : t.NothingWaits d :=
  ⟨fun vc hvc => by rw [State.cwayWait, hw]; exact h.1 vc hvc, fun b hb => (hc b).trans (h.2 b hb)⟩

theorem State.nothingWaits_of_fin {s : State} {d : Nat} (hw : ∀ vc : Fin 6, s.cwayWait d vc = [])
    (hc : ∀ b : Fin 64, (s.bundle d b).carry = []) : s.NothingWaits d :=
  ⟨fun vc hvc => hw ⟨vc, hvc⟩, fun b hb => hc ⟨b, hb⟩⟩

/-- A bundle that is not RETIRED takes the grants (R27, R30). -/
theorem cellGrant_runs (s : State) (d : Fin 2) (b : Fin 64) (n : Nat) (h : s.bundleState d b ≠ 3) :
    Runs (.cellGrant d b n) s fun t => t = (s.grantCells d b n).cwayPump d := by
  refine ⟨_, ?_, rfl⟩
  change execCellGrant d b n s = _
  rw [execCellGrant, if_neg h]

/-- A RETIRED bundle takes no grants (R30). -/
theorem cellGrant_retired (s : State) (d : Fin 2) (b : Fin 64) (n : Nat) (h : s.bundleState d b = 3) :
    Runs (.cellGrant d b n) s fun t => t = s := by
  refine ⟨_, ?_, rfl⟩
  change execCellGrant d b n s = _
  rw [execCellGrant, if_pos h]

/-- Where nothing waits a grant stands (R27). -/
theorem cellGrant_stands (s : State) (d : Fin 2) (b : Fin 64) (h : s.bundleState d b ≠ 3) (hn : s.NothingWaits d) (k : Nat)
    (hk : (s.nextCell (1 - d)).map (fun r => r.1) = some k) :
    Runs (.cellGrant d b 1) s fun t =>
      (t.bundle d b).grants = (s.bundle d b).grants ++ [k] ∧ mget t.path.granted (cellBank k) 0 = mget s.path.granted (cellBank k) 0 + 1 ∧
      (t.bundle d b).wire = (s.bundle d b).wire := by
  obtain ⟨⟨k', u⟩, hu, rfl⟩ := Option.map_eq_some_iff.1 hk
  obtain ⟨hgranted, hcway⟩ := State.nextCell_rest hu
  have hbundle : ∀ c, u.bundle d c = s.bundle d c := fun c => State.bundle_congr (by rw [hcway]) d c
  obtain ⟨t, ht, hpump⟩ := cellGrant_runs s d b 1 h
  refine Runs.of_exec ht ?_
  rw [hpump, State.grantCells_one b.val hu, State.cwayPump_of_nothingWaits]
  · rw [State.bundle_setBundle_self, hbundle]
    refine ⟨rfl, ?_, rfl⟩
    exact (mget_mset_self u.path.granted (cellBank k') (mget u.path.granted (cellBank k') 0 + 1) 0).trans (by rw [hgranted])
  · refine hn.congr (show u.path.cway.waiting = s.path.cway.waiting by rw [hcway]) fun c => ?_
    rw [State.bundle_setBundle]
    split
    case isTrue heq => rw [hbundle, State.bundle, State.bundle, heq]
    case isFalse => exact congrArg Bundle.carry (hbundle c)

/-- Credits return, and what waits goes on (R34). -/
theorem creditReturn_runs (s : State) (d : Fin 2) (b : Fin 64) (vc : Fin 6) (n k : Nat) (hk : k = 8 * (64 * d.val + b.val) + vc.val) :
    Runs (.creditReturn d b vc n) s fun t =>
      t = (s.updCway (fun c => { c with credits := mset c.credits k (mget c.credits k 0 - n) 0 })).cwayPump d := by
  subst hk
  exact ⟨_, rfl, rfl⟩

/-- Where nothing waits the credits stand, and nothing else changes (R34). -/
theorem creditReturn_stands (s : State) (d : Fin 2) (b : Fin 64) (vc : Fin 6) (n k : Nat) (hk : k = 8 * (64 * d.val + b.val) + vc.val)
    (hn : s.NothingWaits d) :
    Runs (.creditReturn d b vc n) s fun t =>
      mget t.path.cway.credits k 0 = mget s.path.cway.credits k 0 - n ∧
      (∀ j : Fin 1024, j ≠ k → mget t.path.cway.credits j 0 = mget s.path.cway.credits j 0) ∧ { t with path := s.path } = s := by
  obtain ⟨t, ht, hpump⟩ := creditReturn_runs s d b vc n k hk
  refine Runs.of_exec ht ?_
  rw [hpump, State.cwayPump_of_nothingWaits]
  · exact ⟨mget_mset_self .., fun j hj => mget_mset_ne _ _ _ _ hj, rfl⟩
  · exact hn.congr rfl fun _ => rfl

/-! ### Flits -/

/-- Nothing arrives on empty wires. -/
theorem flitReceive_empty (s : State) (d : Fin 2) (b : Fin 64) (err : BitVec 2096) (h : (s.bundle d b).wire = []) :
    Runs (.flitReceive d b err) s fun t => t = s := by
  refine ⟨_, ?_, rfl⟩
  change execFlitReceive d b err s = _
  simp only [execFlitReceive, h]

section Flit

variable {s : State} {d : Fin 2} {b : Fin 64} {err : BitVec 2096} {f : Flit} {rest : List Flit}

/-- A flit with a bad CRC is discarded, counted, and answered with one negative acknowledgement (R28). -/
theorem flitReceive_bad (hw : (s.bundle d b).wire = f :: rest) (hbad : flitGood (s.flitArrives f err) = false) :
    Runs (.flitReceive d b err) s fun t =>
      (t.bundle d b).wire = rest ∧ (t.bundle d b).discarding = true ∧
      ((s.bundle d b).discarding = false → (t.bundle d b).nack = some f.seq) ∧ (t.bundle d b).expect = (s.bundle d b).expect ∧
      t.rd (F.CWAY_BUNDLE_ERR_CRC_ERR (64 * d + b)) = min (s.rd (F.CWAY_BUNDLE_ERR_CRC_ERR (64 * d + b)) + 1) (2 ^ 16 - 1) ∧
      changes [F.CWAY_BUNDLE_ERR_CRC_ERR (64 * d + b)] s { t with path := s.path } ∧ t.path.held = s.path.held := by
  have hx : exec (.flitReceive d b err) s = .next ((s.satAdd (F.CWAY_BUNDLE_ERR_CRC_ERR (64 * d + b)) 1).setBundle d b
      (if (s.bundle d b).discarding then { s.bundle d b with wire := rest, count := (s.bundle d b).count + 1 }
       else { s.bundle d b with wire := rest, count := (s.bundle d b).count + 1, discarding := true, nack := some f.seq })) := by
    change execFlitReceive d b err s = _
    simp only [execFlitReceive, hw, hbad, Bool.not_false, Bool.true_or, if_true]
  refine Runs.of_exec hx ?_
  rw [State.bundle_setBundle_self]
  refine ⟨?_, ?_, fun hd => by rw [hd]; rfl, ?_, ?_, (changes.refl s).satAdd (by simp) 1, rfl⟩
  · split <;> rfl
  · split
    · assumption
    · rfl
  · split <;> rfl
  · rw [State.setBundle_rd]
    exact State.rd_satAdd_self ..

/-- A good flit in sequence is delivered and acknowledged (R28, R29). -/
theorem flitReceive_good (hw : (s.bundle d b).wire = f :: rest) (hgood : flitGood (s.flitArrives f err) = true)
    (hp : s.perturbFlit d b = false) (hseq : f.seq = (s.bundle d b).expect) :
    exec (.flitReceive d b err) s =
      .next ((s.setBundle d b { s.bundle d b with wire := rest, count := (s.bundle d b).count + 1, expect := ((s.bundle d b).expect + 1) % 256,
                                                  discarding := false, ack := some f.seq }).deliverFlit d b f.body) := by
  change execFlitReceive d b err s = _
  simp only [execFlitReceive, hw, hgood, hp, hseq, Bool.not_true, Bool.or_self, Bool.false_eq_true, if_false, ne_eq, not_true_eq_false]

/-- A cell write that lands changes the packet path only, leaves the bundles, and counts for the descriptors that wait for the packet (R33). -/
theorem State.deliverFlit_cellWr (s : State) (d b pkt k : Nat) :
    (s.deliverFlit d b (.cellWr pkt k)).path.cway = s.path.cway ∧
    (s.deliverFlit d b (.cellWr pkt k)).path.held = s.path.held.map (fun h => if h.pkt = pkt then { h with cells := h.cells - 1 } else h) ∧
    { s.deliverFlit d b (.cellWr pkt k) with path := s.path } = s := by
  simp only [State.deliverFlit]
  split
  · split <;> exact ⟨rfl, rfl, rfl⟩
  · exact ⟨rfl, rfl, rfl⟩

/-- A good cell write in sequence lands. -/
theorem flitReceive_cellWr (hw : (s.bundle d b).wire = f :: rest) (hgood : flitGood (s.flitArrives f err) = true)
    (hp : s.perturbFlit d b = false) (hseq : f.seq = (s.bundle d b).expect) (pkt k : Nat) (hbody : f.body = Body.cellWr pkt k) :
    Runs (.flitReceive d b err) s fun t =>
      (t.bundle d b).wire = rest ∧ (t.bundle d b).expect = ((s.bundle d b).expect + 1) % 256 ∧ (t.bundle d b).ack = some f.seq ∧
      (t.bundle d b).discarding = false ∧
      t.path.held = s.path.held.map (fun h => if h.pkt = pkt then { h with cells := h.cells - 1 } else h) ∧
      { t with path := s.path } = s := by
  refine Runs.of_exec (flitReceive_good hw hgood hp hseq) ?_
  rw [hbody]
  obtain ⟨hcway, hheld, hrest⟩ := State.deliverFlit_cellWr (s.setBundle d b
    { s.bundle d b with wire := rest, count := (s.bundle d b).count + 1, expect := ((s.bundle d b).expect + 1) % 256,
                        discarding := false, ack := some f.seq }) d b pkt k
  rw [State.bundle_congr (congrArg Cway.bundles hcway), State.bundle_setBundle_self]
  exact ⟨rfl, rfl, rfl, rfl, hheld, congrArg (fun u : State => { u with path := s.path }) hrest⟩

/-- A good flit out of sequence leaves the wires and nothing else (R28). -/
theorem flitReceive_again (hw : (s.bundle d b).wire = f :: rest) (hgood : flitGood (s.flitArrives f err) = true)
    (hp : s.perturbFlit d b = false) (hseq : f.seq ≠ (s.bundle d b).expect) :
    Runs (.flitReceive d b err) s fun t =>
      (t.bundle d b).wire = rest ∧ (t.bundle d b).expect = (s.bundle d b).expect ∧ t.path.held = s.path.held ∧ { t with path := s.path } = s := by
  have hx : ∃ a, exec (.flitReceive d b err) s =
      .next (s.setBundle d b { s.bundle d b with wire := rest, count := (s.bundle d b).count + 1, ack := a }) := by
    change ∃ a, execFlitReceive d b err s = _
    simp only [execFlitReceive, hw, hgood, hp, Bool.not_true, Bool.or_self, Bool.false_eq_true, if_false, if_pos hseq]
    split
    · exact ⟨_, rfl⟩
    · exact ⟨(s.bundle d b).ack, rfl⟩
  obtain ⟨a, ha⟩ := hx
  refine Runs.of_exec ha ?_
  rw [State.bundle_setBundle_self]
  exact ⟨rfl, rfl, rfl, rfl⟩

end Flit

/-! ### Acknowledgements -/

/-- Without a swap that waits none begins (R32). -/
theorem State.swapPending_of_none {s : State} {d b : Nat} (h : (s.bundle d b).swapWait = none) : s.swapPending d b = s := by
  simp only [State.swapPending, h]

/-- A sender's bundle when the flits `rest` are left unacknowledged: an acknowledgement of any begins its count of resends anew (R29, R30). -/
def Bundle.keepUnacked (y : Bundle) (rest : List Flit) : Bundle :=
  { y with unacked := rest, ack := none, resends := if rest.length < y.unacked.length then 0 else y.resends }

/-- The flits that an acknowledgement of SEQ `a` leaves unacknowledged (R29). -/
def Bundle.afterAck (y : Bundle) (a : Nat) : List Flit := y.unacked.dropWhile (fun f => (a + 256 - f.seq) % 256 < 128)

/-- The flits that a negative acknowledgement of SEQ `k` leaves unacknowledged (R28). -/
def Bundle.afterNack (y : Bundle) (k : Nat) : List Flit :=
  if y.unacked.any (fun f => f.seq = k) then y.unacked.dropWhile (fun f => f.seq ≠ k) else y.unacked

theorem execFlitAckReceive_eq {s : State} {d : Fin 2} {b : Fin 64} {a : Nat} (ha : (s.bundle d b).ack = some a) :
    execFlitAckReceive d b s =
      .next (((s.setBundle d b ((s.bundle d b).keepUnacked ((s.bundle d b).afterAck a))).swapPending d b).cwayPump d) := by
  unfold execFlitAckReceive
  dsimp only
  split
  case h_1 hnone => cases hnone.symm.trans ha
  case h_2 a' ha' => cases Option.some.inj (ha'.symm.trans ha); rfl

/-- Acknowledged flits leave the replay store, and what waits goes on (R29). -/
theorem flitAckReceive_runs (s : State) (d : Fin 2) (b : Fin 64) (a : Nat) (ha : (s.bundle d b).ack = some a)
    (hswap : (s.bundle d b).swapWait = none) (rest : List Flit) (hrest : rest = (s.bundle d b).afterAck a) :
    Runs (.flitAckReceive d b) s fun t =>
      (t.bundle d b).unacked.take rest.length = rest ∧ (t.bundle d b).ack = none ∧
      t = (s.setBundle d b ((s.bundle d b).keepUnacked rest)).cwayPump d := by
  subst hrest
  have hsent := ((State.Sends.refl (s.setBundle d b ((s.bundle d b).keepUnacked ((s.bundle d b).afterAck a)))).cwayPump d.val).bundle d b
  rw [State.bundle_setBundle_self] at hsent
  refine Runs.of_exec (execFlitAckReceive_eq ha) ?_
  rw [State.swapPending_of_none (by rw [State.bundle_setBundle_self]; exact hswap)]
  exact ⟨hsent.unacked_take, hsent.rest.1, rfl⟩

/-- A sender that resends does no more than send from the state in which the unacknowledged flits stand on its wires (R28). -/
theorem State.resend_sends (s : State) (d b : Nat) :
    State.Sends (s.setBundle d b { s.bundle d b with wire := (s.bundle d b).unacked, nack := none, discarding := false,
                                                     resends := (s.bundle d b).resends + 1 }) (s.resend d b) := by
  unfold State.resend
  exact ((State.Sends.refl _).wr _ _ (show RegName.CWAY_BUNDLE_ERR ∈ sendRegs by decide)).foldl fun _ _ ht => ht.cntGlobal ..

/-- The bundle of a sender that resends, but for what it sends beside. -/
theorem State.resend_bundle (s : State) (d b : Nat) :
    Bundle.Sent { s.bundle d b with wire := (s.bundle d b).unacked, nack := none, discarding := false,
                                    resends := (s.bundle d b).resends + 1 } ((s.resend d b).bundle d b) := by
  have h := (s.resend_sends d b).bundle d b
  rwa [State.bundle_setBundle_self] at h

theorem execFlitNackReceive_eq {s : State} {d : Fin 2} {b : Fin 64} {k : Nat} (hk : (s.bundle d b).nack = some k)
    (hactive : s.bundleState d b = 0) (hlimit : (s.bundle d b).resends < max 1 (s.rd F.CWAY_CFG_REPLAY_LIMIT)) :
    execFlitNackReceive d b s =
      .next ((((s.setBundle d b ((s.bundle d b).keepUnacked ((s.bundle d b).afterNack k))).resend d b).swapPending d b).cwayPump d) := by
  have hlow : ((s.bundle d b).keepUnacked ((s.bundle d b).afterNack k)).resends < max 1 (s.rd F.CWAY_CFG_REPLAY_LIMIT) := by
    unfold Bundle.keepUnacked
    dsimp only
    split <;> omega
  unfold execFlitNackReceive
  dsimp only
  split
  case h_1 hnone => cases hnone.symm.trans hk
  case h_2 k' hk' =>
    cases Option.some.inj (hk'.symm.trans hk)
    refine congrArg Host.Outcome.next (if_neg ?_)
    rw [Bool.or_eq_true, decide_eq_true_eq, decide_eq_true_eq]
    rintro (hne | hge)
    · exact hne hactive
    · exact Nat.not_le.2 hlow hge

/-- A sender resends from the flit that a negative acknowledgement names (R28, R30). -/
theorem flitNackReceive_runs (s : State) (d : Fin 2) (b : Fin 64) (k : Nat) (hk : (s.bundle d b).nack = some k)
    (hactive : s.bundleState d b = 0) (hlimit : (s.bundle d b).resends < max 1 (s.rd F.CWAY_CFG_REPLAY_LIMIT))
    (hswap : (s.bundle d b).swapWait = none) (rest : List Flit) (hrest : rest = (s.bundle d b).afterNack k) :
    Runs (.flitNackReceive d b) s fun t =>
      (t.bundle d b).wire.take rest.length = rest ∧ (t.bundle d b).nack = none ∧ (t.bundle d b).discarding = false ∧
      t = ((s.setBundle d b ((s.bundle d b).keepUnacked rest)).resend d b).cwayPump d := by
  subst hrest
  have hresent := (s.setBundle d b ((s.bundle d b).keepUnacked ((s.bundle d b).afterNack k))).resend_bundle d b
  rw [State.bundle_setBundle_self] at hresent
  obtain ⟨-, -, -, -, hwait, -⟩ := hresent.rest
  have hsent := hresent.trans (((State.Sends.refl _).cwayPump d.val).bundle d b)
  obtain ⟨-, hnack, hdisc, -⟩ := hsent.rest
  refine Runs.of_exec (execFlitNackReceive_eq hk hactive hlimit) ?_
  rw [State.swapPending_of_none (hwait.trans hswap)]
  exact ⟨hsent.wire_take, hnack, hdisc, rfl⟩

/-! ### Descriptors -/

theorem State.queueStatus_path (s : State) (k : Nat) : (s.queueStatus k).path = s.path := by
  unfold State.queueStatus
  split <;> rfl

theorem State.portWake_path (s : State) (p : Nat) : (s.portWake p).path = s.path := by
  unfold State.portWake
  split <;> rfl

theorem State.wakeTags_path (s : State) (k : Nat) : (s.wakeTags k).path = s.path := by
  unfold State.wakeTags
  split <;> rfl

/-- A descriptor joins the tail of its queue, and that is all that changes on the packet path (R252). -/
theorem State.enqueue_path (s : State) (k id depth : Nat) :
    (s.enqueue k id depth).path = { s.path with queues := mset s.path.queues k (mget s.path.queues k [] ++ [⟨id, depth⟩]) [] } := by
  have hwake : (if (s.queue k).isEmpty then s.wakeTags k else s).path = s.path := by
    split
    · exact s.wakeTags_path k
    · rfl
  unfold State.enqueue
  dsimp only
  split
  · rw [State.portWake_path, State.wr_path, State.queueStatus_path, State.updPath, hwake]
  · rw [State.queueStatus_path, State.updPath, hwake]

/-- A packet that is not deep goes to one queue: its descriptor joins the tail (R33). -/
theorem State.deliver_one_path (s : State) (id k : Nat) (x : Pkt) (hx : mfind s.path.pkts id = some x) (hdeep : x.deep = false) :
    ∃ depth, (s.deliver id [k]).path = { s.path with queues := mset s.path.queues k (mget s.path.queues k [] ++ [⟨id, depth⟩]) [] } := by
  have hjoin : s.deliver id [k] = s.enqueue k id (s.depth k - if k < 8192 then x.cells.length else 0) := by
    simp only [State.deliver, hx, List.foldl_cons, List.foldl_nil, hdeep, Bool.false_and, Bool.false_eq_true, if_false]
  exact ⟨_, hjoin ▸ State.enqueue_path ..⟩

/-- The one held descriptor of a packet, in place and the oldest of its stream, is enqueued (R33). -/
theorem descEnqueue_runs (s : State) (pkt : Nat) (h : HeldDesc) (hone : s.path.held.filter (fun e => e.pkt = pkt) = [h]) (hcells : h.cells = 0)
    (hhere : h.here = true) (hold : s.path.held.find? (fun e => e.stream = h.stream) = some h) :
    Runs (.descEnqueue pkt) s fun t => t = (s.updPath (fun y => { y with held := y.held.erase h })).deliver pkt [h.queue] := by
  have hpkt : h.pkt = pkt := by
    have hmem : h ∈ s.path.held.filter (fun e => e.pkt = pkt) := hone ▸ List.mem_singleton_self h
    exact of_decide_eq_true (List.mem_filter.1 hmem).2
  refine ⟨_, ?_, rfl⟩
  change execDescEnqueue pkt s = _
  simp only [execDescEnqueue, hone, List.foldl_cons, List.foldl_nil, State.enqueueHeld, hcells, hhere, hold, hpkt, ne_eq,
    not_true_eq_false, decide_false, Bool.not_true, Bool.or_self, Bool.false_eq_true, if_false]

/-- That descriptor stands at the tail of its queue and is no longer held (R33). -/
theorem descEnqueue_joins (s : State) (pkt : Nat) (h : HeldDesc) (hone : s.path.held.filter (fun e => e.pkt = pkt) = [h])
    (hcells : h.cells = 0) (hhere : h.here = true) (hold : s.path.held.find? (fun e => e.stream = h.stream) = some h) (z : Pkt)
    (hz : mfind s.path.pkts pkt = some z) (hdeep : z.deep = false) :
    Runs (.descEnqueue pkt) s fun t =>
      (t.queue h.queue).map (fun e => e.pkt) = (s.queue h.queue).map (fun e => e.pkt) ++ [pkt] ∧ t.path.held = s.path.held.erase h := by
  obtain ⟨t, ht, hdel⟩ := descEnqueue_runs s pkt h hone hcells hhere hold
  obtain ⟨depth, hpath⟩ := State.deliver_one_path (s.updPath (fun y => { y with held := y.held.erase h })) pkt h.queue z hz hdeep
  rw [← hdel] at hpath
  refine Runs.of_exec ht ⟨?_, by rw [hpath]; rfl⟩
  rw [State.queue, hpath]
  change (mget (mset s.path.queues h.queue (mget s.path.queues h.queue [] ++ [⟨pkt, depth⟩]) []) h.queue []).map _ = _
  rw [mget_mset_self, List.map_append]
  rfl

/-- A packet of which no descriptor is held has none to enqueue. -/
theorem descEnqueue_none (s : State) (pkt : Nat) (h : s.path.held.find? (fun h => h.pkt = pkt) = none) :
    Runs (.descEnqueue pkt) s fun t => t = s := by
  have hnil : s.path.held.filter (fun h => h.pkt = pkt) = [] := List.filter_eq_nil_iff.2 (List.find?_eq_none.1 h)
  refine ⟨_, ?_, rfl⟩
  change execDescEnqueue pkt s = _
  rw [execDescEnqueue, hnil]
  rfl

end Sys2Proof.Machine
end

section
/-! SUPPORT. The states of a bundle and its wires (R30 to R32), and the statement of the Causeway. -/

set_option Elab.async false

namespace Sys2Proof.Machine

/-! ### A bundle changes state -/

section Enter

variable (s : State) (d b st : Nat)

/-- The fields that a change of a bundle's state writes. -/
def enterFields (d b : Nat) : List Fld :=
  [F.CWAY_BUNDLE_STATUS_STATE (64 * d + b), F.CWAY_STATUS_ACTIVE_NS, F.CWAY_STATUS_ACTIVE_SN, F.CWAY_INT_STATUS_BITS]

@[simp] theorem State.bundleEnter_path : (s.bundleEnter d b st).path = s.path := by
  unfold State.bundleEnter
  rw [State.raise_path]
  rfl

@[simp] theorem State.bundleEnter_bundle (k l : Nat) : (s.bundleEnter d b st).bundle k l = s.bundle k l :=
  State.bundle_congr (by rw [State.bundleEnter_path]) k l

theorem State.bundleEnter_signals : signals (enterFields d b) s (s.bundleEnter d b st) := by
  have hmem : ∀ f ∈ enterFields d b, f ∈ enterFields d b := fun _ h => h
  unfold State.bundleEnter
  refine signals.raise (signals.wr ((signals.refl s).wr (hmem _ (by simp [enterFields])) st) (hmem _ ?_) _) (hmem _ ?_) 0
  · split <;> simp [enterFields]
  · simp [enterFields, intStatus]

/-- The counts of ACTIVE bundles do not stand where the states do. -/
theorem activeCount_reg : (if d = 0 then F.CWAY_STATUS_ACTIVE_NS else F.CWAY_STATUS_ACTIVE_SN).reg = .CWAY_STATUS := by
  split <;> rfl

/-- The state that was entered is the bundle's. -/
theorem State.bundleEnter_bundleState (h : st < 4) : (s.bundleEnter d b st).bundleState d b = st := by
  have hcount : (F.CWAY_BUNDLE_STATUS_STATE (64 * d + b)).key ≠ (if d = 0 then F.CWAY_STATUS_ACTIVE_NS else F.CWAY_STATUS_ACTIVE_SN).key :=
    fun e => absurd (show RegName.CWAY_BUNDLE_STATUS = .CWAY_STATUS from (Fld.key_eq.1 e).1.trans (activeCount_reg d)) (by decide)
  unfold State.bundleEnter State.bundleState
  refine (State.rd_raise_reg (r := .CWAY_BUNDLE_STATUS) _ .cway 0 0 (by decide)).trans ?_
  refine (State.rd_wr_ne _ _ hcount).trans ?_
  exact (State.rd_wr_self ..).trans (Nat.mod_eq_of_lt h)

/-- Bit 0 of CWAY_INT_STATUS reports the change. -/
theorem State.bundleEnter_intBit : (s.bundleEnter d b st).intBit .cway 0 0 = true := State.intBit_raise_self _ _ _ _ (by decide)

/-- What no change of state writes. -/
theorem State.rd_bundleEnter (f : Fld) (h : ∀ g ∈ enterFields d b, f.key ≠ g.key) : (s.bundleEnter d b st).rd f = s.rd f :=
  (State.bundleEnter_signals s d b st).1 f h

end Enter

/-- What is signalled from a state with another bundle is signalled from the state itself, the packet path apart. -/
theorem signals.of_setBundle {fs : List Fld} {s t : State} {d b : Nat} {x : Bundle} (h : signals fs (s.setBundle d b x) t) :
    signals fs s { t with path := s.path } := by
  obtain ⟨hregs, hrest, hout⟩ := h
  exact ⟨fun f hf => hregs f hf, congrArg (fun u : State => { u with path := s.path }) hrest, hout⟩

/-- An event of another register leaves the state of a bundle. -/
theorem State.raise_bundleState (s : State) (k : Blk) (i e d b : Nat) (h : RegName.CWAY_BUNDLE_STATUS ≠ (intStatus k i).reg) :
    (s.raise k i e).bundleState d b = s.bundleState d b := State.rd_raise_reg _ _ _ _ h

theorem State.raise_bundle (s : State) (k : Blk) (i e d b : Nat) : (s.raise k i e).bundle d b = s.bundle d b :=
  State.bundle_congr (by rw [State.raise_path]) d b

/-- A record in the spare map leaves the Causeway (R452). -/
theorem State.mapRecord_bundleState (s : State) (k id v d b : Nat) : (s.mapRecord k id v).bundleState d b = s.bundleState d b := rfl

theorem State.mapRecord_bundle (s : State) (k id v d b : Nat) : (s.mapRecord k id v).bundle d b = s.bundle d b := rfl

theorem State.mapRecord_intBit (s : State) (k id v : Nat) (n : Blk) (i e : Nat) : (s.mapRecord k id v).intBit n i e = s.intBit n i e := rfl

/-! ### Training and retirement -/

/-- A flit that has been resent often enough sends the bundle into RETRAIN (R30). -/
theorem bundleRetrain_runs (s : State) (d : Fin 2) (b : Fin 64) (hs : s.bundleState d b = 0) (hn : (s.bundle d b).nack.isSome = true)
    (hlimit : (s.bundle d b).resends ≥ max 1 (s.rd F.CWAY_CFG_REPLAY_LIMIT)) :
    Runs (.bundleRetrain d b) s fun t =>
      t.bundleState d b = 1 ∧ (t.bundle d b).wire = [] ∧ (t.bundle d b).since = s.now ∧ t.intBit .cway 0 0 = true ∧
      signals (enterFields d b) s { t with path := s.path } := by
  have hx : exec (.bundleRetrain d b) s =
      .next ((s.setBundle d b { s.bundle d b with since := s.now, wire := [] }).bundleEnter d b 1) := by
    change execBundleRetrain d b s = _
    unfold execBundleRetrain
    exact congrArg Host.Outcome.next (if_pos (by simp [hs, hn, hlimit]))
  refine Runs.of_exec hx ⟨State.bundleEnter_bundleState _ _ _ _ (by decide), ?_, ?_, State.bundleEnter_intBit ..,
    (State.bundleEnter_signals ..).of_setBundle⟩
  · rw [State.bundleEnter_bundle, State.bundle_setBundle_self]
  · rw [State.bundleEnter_bundle, State.bundle_setBundle_self]

/-- A sender that begins anew: it resends, and its count of resends starts from 0 (R30, R32). -/
def State.restart (s : State) (d b : Nat) : State := (s.resend d b).setBundle d b { (s.resend d b).bundle d b with resends := 0 }

/-- Beginning anew leaves the Causeway's status. -/
theorem State.restart_regs (s : State) (d b : Nat) : readsOff sendRegs s (s.restart d b) :=
  (s.resend_sends d b).regs

theorem State.restart_bundleState (s : State) (d b : Nat) : (s.restart d b).bundleState d b = s.bundleState d b :=
  (s.resend_sends d b).bundleState_eq d b

theorem State.restart_intBit (s : State) (d b e : Nat) : (s.restart d b).intBit .cway 0 e = s.intBit .cway 0 e :=
  (s.resend_sends d b).intBit_cway 0 e

/-- The bundle of a sender that begins anew. -/
theorem State.restart_bundle (s : State) (d b : Nat) :
    ((s.restart d b).bundle d b).resends = 0 ∧ ((s.restart d b).bundle d b).swapWait = (s.bundle d b).swapWait ∧
      ((s.restart d b).bundle d b).swapWire = (s.bundle d b).swapWire := by
  obtain ⟨-, -, -, -, hwait, hwire⟩ := (s.resend_bundle d b).rest
  rw [State.restart, State.bundle_setBundle_self]
  exact ⟨rfl, hwait, hwire⟩

/-- A bundle that has trained in time is ACTIVE again (R30). -/
theorem bundleTrainDone_runs (s : State) (d : Fin 2) (b : Fin 64) (hs : s.bundleState d b = 1) (htime : s.now - (s.bundle d b).since ≤ 8000)
    (hswap : (s.bundle d b).swapWait = none) :
    Runs (.bundleTrainDone d b) s fun t => t.bundleState d b = 0 ∧ (t.bundle d b).resends = 0 ∧ t.intBit .cway 0 0 = true := by
  have hx : exec (.bundleTrainDone d b) s =
      .next (((((s.setBundle d b { s.bundle d b with resends := 0 }).bundleEnter d b 0).restart d b).swapPending d b).cwayPump d) := by
    change execBundleTrainDone d b s = _
    unfold execBundleTrainDone
    exact congrArg Host.Outcome.next (if_pos (by simp [hs, htime]))
  obtain ⟨hresends, hwait, -⟩ := State.restart_bundle ((s.setBundle d b { s.bundle d b with resends := 0 }).bundleEnter d b 0) d b
  rw [State.bundleEnter_bundle, State.bundle_setBundle_self] at hwait
  refine Runs.of_exec hx ?_
  rw [State.swapPending_of_none (hwait.trans hswap)]
  have hsends := (State.Sends.refl (((s.setBundle d b { s.bundle d b with resends := 0 }).bundleEnter d b 0).restart d b)).cwayPump d.val
  obtain ⟨-, -, -, hkept, -⟩ := (hsends.bundle d b).rest
  refine ⟨?_, hkept.trans hresends, ?_⟩
  · rw [hsends.bundleState_eq, State.restart_bundleState, State.bundleEnter_bundleState _ _ _ _ (by decide)]
  · rw [hsends.intBit_cway, State.restart_intBit, State.bundleEnter_intBit]

/-- Training that ends too late is no training (R30). -/
theorem bundleTrainDone_late (s : State) (d : Fin 2) (b : Fin 64) (htime : 8000 < s.now - (s.bundle d b).since) :
    Runs (.bundleTrainDone d b) s fun t => t = s := by
  refine ⟨_, ?_, rfl⟩
  change execBundleTrainDone d b s = _
  unfold execBundleTrainDone
  refine congrArg Host.Outcome.next (if_neg fun hc => ?_)
  rw [Bool.and_eq_true, decide_eq_true_eq, decide_eq_true_eq] at hc
  exact Nat.not_le.2 htime hc.2

/-- Bundle `b` of direction `d` hands over what it has to the next ACTIVE bundle and gives its grants back (R31). -/
def State.handOver (s : State) (d b : Nat) : State :=
  let y := s.bundle d b
  let left := (y.unacked.dropWhile (fun f => f.seq ≠ y.expect)).map (fun f => f.body) ++ y.carry
  let s := match s.nextActive d b with
    | some k => (s.moveFlits d k left).updCway (fun c => { c with pins := mset c.pins (key2 d b) k 64 })
    | none => s
  y.grants.foldl (fun s a => s.ungrant (1 - d) a) s

/-- Bundle `b` of direction `d` leaves service in state `s`: it is empty and RETIRED, the spare map records it, and the events report it, a FATAL
one where too many have gone (R30, R31, R389). -/
def State.leaveService (s : State) (d b : Nat) : State :=
  let s := ((s.setBundle d b {}).bundleEnter d b 3).mapRecord 8 (64 * d + b) 1
  let s := s.event degraded (codeOf .cway 0 0) (64 * d + b) 0
  let s := if ((List.range 64).filter (fun k => s.bundleState d k = 3)).length > s.rd F.CWAY_CFG_RETIRE_LIMIT then
      (s.raise .cway 0 2).event fatal (codeOf .cway 0 2) (64 * d + b) 0
    else s
  s.cwayPump d

/-- A bundle that has not trained in time leaves service, after its flits have gone to the next and its grants back. -/
theorem execBundleRetire_eq {s : State} {d : Fin 2} {b : Fin 64} (hs : s.bundleState d b = 1) (htime : 8000 < s.now - (s.bundle d b).since) :
    execBundleRetire d b s = .next ((s.handOver d b).leaveService d b) := by
  unfold execBundleRetire
  exact congrArg Host.Outcome.next (if_pos (by simp [hs, htime]))

/-- A bundle that has left service is empty and stays so while the others send (R31). -/
theorem State.leaveService_bundle (s : State) (d b : Nat) :
    (s.leaveService d b).bundleState d b = 3 ∧ (s.leaveService d b).bundle d b = {} ∧ (s.leaveService d b).intBit .cway 0 0 = true := by
  have hstate : ∀ {t u : State}, State.Sends t u → t.bundleState d b = 3 ∧ t.bundle d b = {} ∧ t.intBit .cway 0 0 = true →
      u.bundleState d b = 3 ∧ u.bundle d b = {} ∧ u.intBit .cway 0 0 = true := by
    rintro t u h ⟨hst, hempty, hint⟩
    exact ⟨(h.bundleState_eq d b).trans hst, (h.bundle_idle (by rw [hst]; decide)).trans hempty, (h.intBit_cway 0 0).trans hint⟩
  unfold State.leaveService
  extract_lets s1 s2 s3
  have h1 : s1.bundleState d b = 3 ∧ s1.bundle d b = {} ∧ s1.intBit .cway 0 0 = true := by
    unfold s1
    rw [State.mapRecord_bundleState, State.mapRecord_bundle, State.mapRecord_intBit, State.bundleEnter_bundle]
    exact ⟨State.bundleEnter_bundleState _ _ _ _ (by decide), State.bundle_setBundle_self .., State.bundleEnter_intBit ..⟩
  have h2 := hstate ((State.Sends.refl s1).event degraded (codeOf .cway 0 0) (64 * d + b) 0 false) h1
  obtain ⟨hst, hempty, hint⟩ := h2
  have hraised : (s2.raise .cway 0 2).bundleState d b = 3 ∧ (s2.raise .cway 0 2).bundle d b = {} ∧
      (s2.raise .cway 0 2).intBit .cway 0 0 = true := by
    refine ⟨(State.raise_bundleState _ _ _ _ _ _ (by decide)).trans hst, (State.raise_bundle ..).trans hempty, ?_⟩
    rw [State.intBit, State.rd_raise, State.rd_wr_self, intStatus_width, bit_mod _ _ _ (by decide), bit_setBit_ne _ (by decide)]
    exact hint
  have h3 : s3.bundleState d b = 3 ∧ s3.bundle d b = {} ∧ s3.intBit .cway 0 0 = true := by
    unfold s3
    split
    · exact hstate ((State.Sends.refl _).event ..) hraised
    · exact ⟨hst, hempty, hint⟩
  exact hstate ((State.Sends.refl s3).cwayPump d) h3

/-- A bundle that has not trained in time is RETIRED and empty (R30, R31). -/
theorem bundleRetire_runs (s : State) (d : Fin 2) (b : Fin 64) (hs : s.bundleState d b = 1) (htime : 8000 < s.now - (s.bundle d b).since) :
    Runs (.bundleRetire d b) s fun t => t.bundleState d b = 3 ∧ t.bundle d b = {} ∧ t.intBit .cway 0 0 = true := by
  exact Runs.of_exec (execBundleRetire_eq hs htime) ((s.handOver d b).leaveService_bundle d b)

/-! ### Wires -/

/-- A swap that waits begins where no replay is under way (R32). -/
theorem State.swapPending_begins {s : State} {d b w : Nat} (hw : (s.bundle d b).swapWait = some w) (hn : (s.bundle d b).nack = none)
    (hd : (s.bundle d b).discarding = false) (hs : s.bundleState d b = 0) :
    s.swapPending d b =
      (s.setBundle d b { s.bundle d b with swapWait := none, swapWire := some w, since := s.now }).bundleEnter d b 2 := by
  unfold State.swapPending
  dsimp only
  split
  case h_1 w' hw' =>
    cases Option.some.inj (hw'.symm.trans hw)
    exact if_pos (by rw [hn, hd, hs]; rfl)
  case h_2 hnone => cases hnone.symm.trans hw

/-- The replacement of a wire begins at once where no replay is under way (R32). -/
theorem wireSwapStart_runs (s : State) (d : Fin 2) (b w : Fin 64) (hready : s.wireReady d b w = true) (hn : (s.bundle d b).nack = none)
    (hd : (s.bundle d b).discarding = false) :
    Runs (.wireSwapStart d b w) s fun t =>
      t.bundleState d b = 2 ∧ (t.bundle d b).swapWire = some w.val ∧ t.intBit .cway 0 0 = true ∧
      (t.bundle d b).unacked = (s.bundle d b).unacked := by
  have hx : exec (.wireSwapStart d b w) s = .next (s.wireSwap d b w) := by
    change execWireSwapStart d b w s = _
    rw [execWireSwapStart, if_pos hready]
  have hs : s.bundleState d b = 0 := by
    simp only [State.wireReady, Bool.and_eq_true, decide_eq_true_eq] at hready
    exact hready.1.1.1
  refine Runs.of_exec hx ?_
  unfold State.wireSwap
  dsimp only
  rw [State.swapPending_begins (w := w.val), State.bundleEnter_bundle, State.bundle_setBundle_self, State.bundle_setBundle_self]
  · exact ⟨State.bundleEnter_bundleState _ _ _ _ (by decide), rfl, State.bundleEnter_intBit .., rfl⟩
  · rw [State.bundle_setBundle_self]
  · rw [State.bundle_setBundle_self]; exact hn
  · rw [State.bundle_setBundle_self]; exact hd
  · exact hs

/-- The count of spare wires of a direction (R32). -/
def spareCount (d : Nat) : Fld := if d = 0 then F.CWAY_STATUS_SPARES_NS else F.CWAY_STATUS_SPARES_SN

theorem spareCount_reg (d : Nat) : (spareCount d).reg = .CWAY_STATUS := by
  unfold spareCount
  split <;> rfl

theorem spareCount_lo (d : Nat) : (spareCount d).lo ≠ 0 ∧ (spareCount d).lo ≠ 7 := by
  unfold spareCount
  split <;> decide

/-- The wire map of a bundle names wire `w` as replaced, and the direction has a spare less (R32). -/
def State.mapWire (s : State) (d b w : Nat) : State :=
  (if s.rd (F.CWAY_BUNDLE_STATUS_SUB0 (64 * d + b)) = 0x7F then s.wr (F.CWAY_BUNDLE_STATUS_SUB0 (64 * d + b)) w
   else s.wr (F.CWAY_BUNDLE_STATUS_SUB1 (64 * d + b)) w).subFrom (spareCount d) 1

/-- A write to another register leaves the field. -/
theorem State.rd_wr_of_reg_ne (s : State) {f g : Fld} (v : Nat) (h : g.reg ≠ f.reg) : (s.wr f v).rd g = s.rd g :=
  State.rd_wr_ne _ _ fun e => h (Fld.key_eq.1 e).1

/-- The replaced wire is named in the first free of SUB0 and SUB1 (R32). -/
theorem State.mapWire_sub (s : State) (d b w : Nat) :
    if s.rd (F.CWAY_BUNDLE_STATUS_SUB0 (64 * d + b)) = 0x7F then (s.mapWire d b w).rd (F.CWAY_BUNDLE_STATUS_SUB0 (64 * d + b)) = w % 2 ^ 7
    else (s.mapWire d b w).rd (F.CWAY_BUNDLE_STATUS_SUB1 (64 * d + b)) = w % 2 ^ 7 := by
  have hreg : RegName.CWAY_BUNDLE_STATUS ≠ (spareCount d).reg := by rw [spareCount_reg]; decide
  unfold State.mapWire State.subFrom
  split
  · exact (State.rd_wr_of_reg_ne _ _ hreg).trans (State.rd_wr_self ..)
  · exact (State.rd_wr_of_reg_ne _ _ hreg).trans (State.rd_wr_self ..)

/-- The replaced wire uses up a spare (R32). -/
theorem State.mapWire_spares (s : State) (d b w : Nat) : (s.mapWire d b w).rd (spareCount d) = s.rd (spareCount d) - 1 := by
  have hreg : (spareCount d).reg ≠ .CWAY_BUNDLE_STATUS := by rw [spareCount_reg]; decide
  have hsub : (if s.rd (F.CWAY_BUNDLE_STATUS_SUB0 (64 * d + b)) = 0x7F then s.wr (F.CWAY_BUNDLE_STATUS_SUB0 (64 * d + b)) w
      else s.wr (F.CWAY_BUNDLE_STATUS_SUB1 (64 * d + b)) w).rd (spareCount d) = s.rd (spareCount d) := by
    split
    · exact State.rd_wr_of_reg_ne _ _ hreg
    · exact State.rd_wr_of_reg_ne _ _ hreg
  unfold State.mapWire State.subFrom
  rw [State.rd_wr_self, hsub]
  exact Nat.mod_eq_of_lt (Nat.lt_of_le_of_lt (Nat.sub_le ..) (State.rd_lt ..))

/-- From `s` on, wire `w` of bundle `b` is mapped: the bundle is ACTIVE and its sender begins anew (R32). -/
def State.remapped (s : State) (d b w : Nat) : State :=
  (((s.mapWire d b w).setBundle d b { s.bundle d b with swapWire := none }).bundleEnter d b 0).restart d b

/-- What the change of the map leaves of the Causeway's status. -/
theorem State.rd_remapped (s : State) (d b w : Nat) {f : Fld} (hsend : f.reg ∉ sendRegs) (henter : ∀ g ∈ enterFields d b, f.key ≠ g.key) :
    (s.remapped d b w).rd f = (s.mapWire d b w).rd f :=
  (State.restart_regs _ d b f hsend).trans (State.rd_bundleEnter _ d b 0 f henter)

theorem State.remapped_bundleState (s : State) (d b w : Nat) : (s.remapped d b w).bundleState d b = 0 :=
  (State.restart_bundleState ..).trans (State.bundleEnter_bundleState _ _ _ _ (by decide))

theorem State.remapped_bundle (s : State) (d b w : Nat) :
    ((s.remapped d b w).bundle d b).swapWire = none ∧ ((s.remapped d b w).bundle d b).resends = 0 := by
  obtain ⟨hresends, -, hwire⟩ :=
    State.restart_bundle (((s.mapWire d b w).setBundle d b { s.bundle d b with swapWire := none }).bundleEnter d b 0) d b
  rw [State.bundleEnter_bundle, State.bundle_setBundle_self] at hwire
  exact ⟨hwire, hresends⟩

/-- The end of a swap: the map changes, bit 1 of CWAY_INT_STATUS and the sparing manager tell it, its command is answered, and the bundle sends
again (R32, R445, R452). -/
theorem execWireSwapDone_eq {s : State} {d : Fin 2} {b : Fin 64} {w : Nat} (hw : (s.bundle d b).swapWire = some w)
    (hs : s.bundleState d b = 2) :
    execWireSwapDone d b s =
      .next ((((((s.remapped d b w).raise .cway 0 1).satAdd F.RAS_SPARE_STATUS_SWAPS 1).spareConsumed 1 .cway 0 (64 * d.val + b.val) w).finishHold
        (holdSpare 1) (wireObject d b w) stOk 0 0).cwayPump d) := by
  unfold execWireSwapDone
  dsimp only
  split
  case h_1 hnone => cases hnone.symm.trans hw
  case h_2 w' hw' =>
    cases Option.some.inj (hw'.symm.trans hw)
    exact congrArg Host.Outcome.next (if_neg (not_not_intro hs))

/-- After the end of a swap the Causeway does no more than report and send (R32). -/
theorem State.remapped_sends (s : State) (d b w o k : Nat) :
    State.Sends ((s.remapped d b w).raise .cway 0 1)
      ((((((s.remapped d b w).raise .cway 0 1).satAdd F.RAS_SPARE_STATUS_SWAPS 1).spareConsumed 1 .cway 0 k w).finishHold (holdSpare 1) o
        stOk 0 0).cwayPump d) := by
  have hswaps := (State.Sends.refl ((s.remapped d b w).raise .cway 0 1)).wr F.RAS_SPARE_STATUS_SWAPS
    (min (((s.remapped d b w).raise .cway 0 1).rd F.RAS_SPARE_STATUS_SWAPS + 1) (2 ^ F.RAS_SPARE_STATUS_SWAPS.width - 1)) (by decide)
  exact ((hswaps.spareConsumed ..).finishHold ..).cwayPump d

/-- The wire maps and the counts of spares after the end of a swap are those that the change of the map has left. -/
theorem State.rd_of_remapped {s t : State} {d b w : Nat} (h : State.Sends ((s.remapped d b w).raise .cway 0 1) t) {f : Fld}
    (hreg : f.reg = .CWAY_BUNDLE_STATUS ∨ f.reg = .CWAY_STATUS) (hzero : f.lo ≠ 0) (hseven : f.lo ≠ 7) : t.rd f = (s.mapWire d b w).rd f := by
  have hsend : f.reg ∉ sendRegs := by rcases hreg with e | e <;> rw [e] <;> decide
  have hint : f.reg ≠ (intStatus .cway 0).reg := by rcases hreg with e | e <;> rw [e] <;> decide
  have hlow : ∀ g ∈ enterFields d b, g.lo = 0 ∨ g.lo = 7 := by
    simp [enterFields, F.CWAY_BUNDLE_STATUS_STATE, F.CWAY_STATUS_ACTIVE_NS, F.CWAY_STATUS_ACTIVE_SN, F.CWAY_INT_STATUS_BITS]
  have henter : ∀ g ∈ enterFields d b, f.key ≠ g.key := fun g hg e => by
    have hlo := (Fld.key_eq.1 e).2.2
    rcases hlow g hg with h0 | h7
    · exact hzero (hlo.trans h0)
    · exact hseven (hlo.trans h7)
  calc t.rd f = ((s.remapped d b w).raise .cway 0 1).rd f := h.regs f hsend
    _ = (s.remapped d b w).rd f := State.rd_raise_ne _ _ _ _ fun e => hint (Fld.key_eq.1 e).1
    _ = (s.mapWire d b w).rd f := s.rd_remapped d b w hsend henter

/-- A swap that is done: the bundle is ACTIVE, the wire is named in its map, and a spare is gone (R32). -/
theorem wireSwapDone_runs (s : State) (d : Fin 2) (b : Fin 64) (w : Nat) (hw : (s.bundle d b).swapWire = some w)
    (hs : s.bundleState d b = 2) :
    Runs (.wireSwapDone d b) s fun t =>
      t.bundleState d b = 0 ∧ (t.bundle d b).swapWire = none ∧ (t.bundle d b).resends = 0 ∧ t.intBit .cway 0 1 = true ∧
      (if s.rd (F.CWAY_BUNDLE_STATUS_SUB0 (64 * d + b)) = 0x7F then t.rd (F.CWAY_BUNDLE_STATUS_SUB0 (64 * d + b)) = w % 2 ^ 7
        else t.rd (F.CWAY_BUNDLE_STATUS_SUB1 (64 * d + b)) = w % 2 ^ 7) ∧
      t.rd (spareCount d) = s.rd (spareCount d) - 1 := by
  have hsends := s.remapped_sends d b w (wireObject d b w) (64 * d.val + b.val)
  obtain ⟨hwire, hresends⟩ := s.remapped_bundle d b w
  obtain ⟨-, -, -, hresends', -, hwire'⟩ := (hsends.bundle d b).rest
  rw [State.raise_bundle] at hwire' hresends'
  refine Runs.of_exec (execWireSwapDone_eq hw hs) ⟨?_, hwire'.trans hwire, hresends'.trans hresends, ?_, ?_, ?_⟩
  · rw [hsends.bundleState_eq, State.raise_bundleState _ _ _ _ _ _ (by decide), State.remapped_bundleState]
  · rw [hsends.intBit_cway, State.intBit_raise_self _ _ _ _ (by decide)]
  · have hsub := s.mapWire_sub d b w
    rwa [← State.rd_of_remapped hsends (.inl rfl) (show (2 : Nat) ≠ 0 by decide) (show (2 : Nat) ≠ 7 by decide),
      ← State.rd_of_remapped hsends (.inl rfl) (show (9 : Nat) ≠ 0 by decide) (show (9 : Nat) ≠ 7 by decide)] at hsub
  · rw [State.rd_of_remapped hsends (.inr (spareCount_reg d)) (spareCount_lo d).1 (spareCount_lo d).2, State.mapWire_spares]

/-! ### The statement -/

/-- Settles O35: each command of the Causeway by its own lemma. Whatever a command sends at its end is no more than sending
(`State.Sends.cwayPump`), so what it says of the bundle stands. -/
theorem causeway : Obligations.Causeway := by
  unfold Obligations.Causeway
  refine ⟨fun s d b => ⟨cellGrant_runs s d b, cellGrant_retired s d b, ?_, flitReceive_empty s d b, ?_, ?_, ?_, ?_, ?_, descEnqueue_none s⟩,
    fun s d b w => ⟨bundleRetrain_runs s d b, bundleTrainDone_runs s d b, bundleRetire_runs s d b, fun _ => bundleTrainDone_late s d b,
      wireSwapStart_runs s d b w, wireSwapDone_runs s d b⟩⟩
  case refine_1 => exact fun h hw hc => cellGrant_stands s d b h (State.nothingWaits_of_fin hw hc)
  case refine_2 =>
    intro err f rest hw
    refine ⟨fun _ hlen => s.flitGood_flitArrives f hlen, flitReceive_bad hw, fun hgood hp => ⟨?_, ?_, flitReceive_again hw hgood hp⟩⟩
    · intro hseq y hy
      subst hy
      exact Runs.of_exec (flitReceive_good hw hgood hp hseq) rfl
    · exact fun hseq pkt k hbody => flitReceive_cellWr hw hgood hp hseq pkt k hbody
  case refine_3 =>
    intro a ha hswap y hy rest hrest
    subst hy
    exact flitAckReceive_runs s d b a ha hswap rest hrest
  case refine_4 =>
    intro k hk hs hlimit hswap y hy rest hrest
    subst hy
    exact flitNackReceive_runs s d b k hk hs hlimit hswap rest hrest
  case refine_5 =>
    exact fun vc n k hk => ⟨creditReturn_runs s d b vc n k hk, fun hw hc => creditReturn_stands s d b vc n k hk (State.nothingWaits_of_fin hw hc)⟩
  case refine_6 =>
    exact fun pkt h hone hcells hhere hold => ⟨descEnqueue_runs s pkt h hone hcells hhere hold, descEnqueue_joins s pkt h hone hcells hhere hold⟩

end Sys2Proof.Machine
end

section
/-! SUPPORT. A lane changes state (R57, R58), and an attempt to bring up an Ethernet lane that runs out (R84). -/

set_option Elab.async false

namespace Sys2Proof.Machine

/-! ### Reads after a write -/

/-- A write to another low bit leaves the field. -/
theorem State.rd_wr_of_lo_ne (s : State) {f g : Fld} (v : Nat) (h : g.lo ≠ f.lo) : (s.wr f v).rd g = s.rd g :=
  State.rd_wr_ne _ _ fun e => h (Fld.key_eq.1 e).2.2

theorem readsBut.raise {fs : List Fld} {s0 s : State} (h : readsBut fs s0 s) {b : Blk} {i : Nat} (hf : intStatus b i ∈ fs) (e : Nat) :
    readsBut fs s0 (s.raise b i e) := (h.wr hf _).congr (State.regs_raise ..)

theorem readsBut.ite {fs : List Fld} {s0 s t : State} {c : Prop} [Decidable c] (h : readsBut fs s0 s) (k : readsBut fs s0 t) :
    readsBut fs s0 (if c then s else t) := by
  split
  · exact h
  · exact k

/-! ### A lane changes state -/

section Enter

variable (s : State) (l st : Nat)

/-- The fields that a change of a lane's state writes. -/
def laneFields (l : Nat) : List Fld :=
  [F.LANE_STATUS_STATE l, F.LANE_STATUS_BLOCK_LOCK l, F.LANE_TRAIN_PHASE l, F.LANE_INT_STATUS_BITS (l / 34)]

/-- What no change of a lane's state writes. -/
theorem State.laneEnter_readsBut : readsBut (laneFields l) s (s.laneEnter l st) := by
  have hstate : F.LANE_STATUS_STATE l ∈ laneFields l := by simp [laneFields]
  have hlock : F.LANE_STATUS_BLOCK_LOCK l ∈ laneFields l := by simp [laneFields]
  have hphase : F.LANE_TRAIN_PHASE l ∈ laneFields l := by simp [laneFields]
  have hint : intStatus .lane (l / 34) ∈ laneFields l := by simp [laneFields, intStatus]
  have hself := readsBut.refl (fs := laneFields l) s
  unfold State.laneEnter
  extract_lets s1 s2 s3
  have h1 : readsBut (laneFields l) s s1 := (hself.wr hstate st).raise hint 0
  have h2 : readsBut (laneFields l) s s2 := (h1.wr hlock _).ite ((h1.wr hlock _).wr hphase 0)
  have h3 : readsBut (laneFields l) s s3 := h2.ite (h2.congr rfl)
  exact hself.ite ((h3.raise hint 4).ite h3)

/-- The state that was entered is the lane's. -/
theorem State.laneEnter_laneState (h : st < 8) : (s.laneEnter l st).laneState l = st := by
  have hint : (F.LANE_STATUS_STATE l).key ≠ (intStatus .lane (l / 34)).key := fun e => 
    absurd (Fld.key_eq.1 e).1 (show RegName.LANE_STATUS ≠ .LANE_INT_STATUS by decide)
  have hlock : (F.LANE_STATUS_STATE l).lo ≠ (F.LANE_STATUS_BLOCK_LOCK l).lo := show (0 : Nat) ≠ 5 by decide
  have hphase : (F.LANE_STATUS_STATE l).lo ≠ (F.LANE_TRAIN_PHASE l).lo := show (0 : Nat) ≠ 8 by decide
  unfold State.laneEnter
  split
  case isTrue hsame =>
    simp only [Bool.and_eq_true, decide_eq_true_eq] at hsame
    exact hsame.1
  case isFalse =>
    extract_lets s1 s2 s3
    have h1 : s1.laneState l = st :=
      (State.rd_raise_ne _ _ _ _ hint).trans ((State.rd_wr_self ..).trans (Nat.mod_eq_of_lt h))
    have h2 : s2.laneState l = s1.laneState l := by
      unfold s2
      split
      · exact State.rd_wr_of_lo_ne _ _ hlock
      · exact (State.rd_wr_of_lo_ne _ _ hphase).trans (State.rd_wr_of_lo_ne _ _ hlock)
    have h3 : s3.laneState l = s2.laneState l := by
      unfold s3
      split <;> rfl
    split
    · exact (State.rd_raise_ne _ _ _ _ hint).trans (h3.trans (h2.trans h1))
    · exact h3.trans (h2.trans h1)

end Enter

/-- Another lane stays in its state. -/
theorem State.laneEnter_laneState_ne (s : State) {l k : Nat} (st : Nat) (h : k ≠ l) : (s.laneEnter l st).laneState k = s.laneState k := by
  refine s.laneEnter_readsBut l st _ ?_
  simp [laneFields, Fld.key_eq, F.LANE_STATUS_STATE, F.LANE_STATUS_BLOCK_LOCK, F.LANE_TRAIN_PHASE, F.LANE_INT_STATUS_BITS, h]

/-! ### Training -/

/-- New transmit coefficients leave the state of every lane. -/
theorem State.loadTaps_laneState (s : State) (l k : Nat) (c : List Int) : (s.loadTaps l c).laneState k = s.laneState k := by
  have hfold : ∀ (g : Nat → Nat) (is : List Nat) (u : State),
      (is.foldl (fun s t => s.wr (F.LANE_TX_TAP_VALUE (6 * l + t)) (g t)) u).laneState k = u.laneState k := by
    intro g is
    induction is with
    | nil => exact fun _ => rfl
    | cons t is ih => exact fun u => (ih _).trans (State.rd_wr_of_reg_ne _ _ (show RegName.LANE_STATUS ≠ .LANE_TX_TAP by decide))
  unfold State.loadTaps
  extract_lets want
  split
  · exact hfold ..
  · rfl

/-- Training starts over in TRAINING (R58, R61). -/
theorem State.laneTrain_laneState (s : State) (l : Nat) : (s.laneTrain l).laneState l = 2 := by
  unfold State.laneTrain
  extract_lets s1 s2
  have h1 : s1.laneState l = 2 := State.laneEnter_laneState s l 2 (by decide)
  have h2 : s2.laneState l = s1.laneState l := by
    unfold s2
    split <;> rfl
  split
  · exact (State.loadTaps_laneState ..).trans (h2.trans h1)
  · exact h2.trans h1

theorem State.advertise_laneState (s : State) (p l : Nat) : (s.advertise p).laneState l = s.laneState l := by
  unfold State.advertise
  split <;> rfl

/-- The attempt to bring up an Ethernet lane includes its negotiation (R84): a lane in LOCKED whose port still negotiates trains again when
LANE_TRAIN.TIMEOUT has passed. -/
theorem trainingTimeout_anOpen (s : State) (l : Fin 544) (hstate : s.laneState l = 3) (hopen : s.anOpen l = true)
    (hdue : max 1 (s.rd (F.LANE_TRAIN_TIMEOUT l)) * 1600000 ≤ s.now - (mget s.laneX l {}).trainAt) :
    Runs (.trainingTimeout l) s fun t => t.laneState l = 2 := by
  refine ⟨_, rfl, ?_⟩
  have hcond : ((s.laneState l = 2 || (s.laneState l = 3 && s.anOpen l)) &&
      s.now - (mget s.laneX l {}).trainAt ≥ max 1 (s.rd (F.LANE_TRAIN_TIMEOUT l)) * 1600000) = true := by
    simp [hstate, hopen, hdue]
  rw [if_pos hcond]
  extract_lets u
  have hu : u.laneState l = 2 := State.laneTrain_laneState ..
  split
  · split
    · exact (State.advertise_laneState ..).trans hu
    · exact hu
  · exact hu

/-- Lane 0 has locked at 50 Gb/s, its port 0 is LINKING with Clause 73 negotiation still open, and the 50 ms of LANE_TRAIN.TIMEOUT have
passed. -/
def negotiationRunsOut : State :=
  (((((State.reset.wr (F.LANE_CTL_MODE 0) 4).wr (F.LANE_STATUS_STATE 0) 3).wr (F.LANE_STATUS_PORT 0) 0).wr (F.PORT_CFG_AN_EN 0) 1).wr
    (F.PORT_STATUS_STATE 0) 2).wr F.LIGHT_TICKS_TICKS 80000000

/-- Refutes O47: it lets TRAINING_TIMEOUT change nothing for any lane that is not in TRAINING, while R84 bounds the whole attempt of an
Ethernet lane, negotiation included, so that a lane in LOCKED whose port still negotiates trains again (`negotiationRunsOut`). -/
theorem not_laneStates : ¬ Obligations.LaneStates := by
  unfold Obligations.LaneStates
  rintro ⟨hlanes, -⟩
  obtain ⟨-, -, -, -, -, -, -, hidle, -⟩ := hlanes negotiationRunsOut 0
  have hlocked : negotiationRunsOut.laneState 0 = 3 := by decide +kernel
  obtain ⟨t, ht, hsame⟩ := hidle (by rw [show ((0 : Fin 544) : Nat) = 0 from rfl, hlocked]; decide)
  obtain ⟨u, hu, htrains⟩ := trainingTimeout_anOpen negotiationRunsOut 0 hlocked (by decide +kernel) (by decide +kernel)
  rw [← Host.Outcome.next.inj (ht.symm.trans hu), hsame] at htrains
  exact absurd (hlocked.symm.trans htrains) (by decide)

end Sys2Proof.Machine
end

section
/-! SUPPORT. What reports, events and answers to commands leave of the swaps of lanes (R69 to R74). -/

set_option Elab.async false

namespace Sys2Proof.Machine

/-! ### Beside the registers -/

/-- What swaps read beside the registers: the ports, the lane map, the swaps in progress and the messages that wait for an answer. -/
def State.swapParts (s : State) : PMap PortX × PMap (Option Nat) × PMap (Option Swap) × PMap (Option Lmos) :=
  (s.portX, s.laneMap, s.swaps, s.lmosWait)

section Congr

variable {s t : State} (h : t.swapParts = s.swapParts)
include h

/-- The parts, one by one. -/
theorem State.swapParts_eq : t.portX = s.portX ∧ t.laneMap = s.laneMap ∧ t.swaps = s.swaps ∧ t.lmosWait = s.lmosWait := by
  simpa only [State.swapParts, Prod.mk.injEq] using h

theorem State.laneMap_congr : t.laneMap = s.laneMap := by
  obtain ⟨-, hmap, -, -⟩ := State.swapParts_eq h
  exact hmap

theorem State.swapOf_congr (p : Nat) : t.swapOf p = s.swapOf p := by
  obtain ⟨-, -, hswaps, -⟩ := State.swapParts_eq h
  rw [State.swapOf, State.swapOf, hswaps]

theorem State.px_congr (p : Nat) : t.px p = s.px p := by
  obtain ⟨hports, -, -, -⟩ := State.swapParts_eq h
  rw [State.px, State.px, hports]

end Congr

section Parts

variable (s : State)

/-- A choice of states that both keep the parts. -/
theorem State.swapParts_ite {c : Prop} [Decidable c] {s t u : State} (ht : t.swapParts = s.swapParts) (hu : u.swapParts = s.swapParts) :
    (if c then t else u).swapParts = s.swapParts := by
  split
  · exact ht
  · exact hu

theorem State.swapParts_foldl {α : Type} {g : State → α → State} (hg : ∀ u x, (g u x).swapParts = u.swapParts) (l : List α) :
    (l.foldl g s).swapParts = s.swapParts := by
  induction l generalizing s with
  | nil => rfl
  | cons x l ih => exact (ih _).trans (hg s x)

theorem State.wr_swapParts (f : Fld) (v : Nat) : (s.wr f v).swapParts = s.swapParts := rfl

theorem State.raise_swapParts (b : Blk) (i e : Nat) : (s.raise b i e).swapParts = s.swapParts := by
  unfold State.swapParts
  simp

theorem State.sendVector_swapParts (k v : Nat) : (s.sendVector k v).swapParts = s.swapParts := by
  unfold State.swapParts
  simp

theorem State.logWrite_swapParts (c code unit detail : Nat) (inj : Bool) : (s.logWrite c code unit detail inj).swapParts = s.swapParts := by
  unfold State.logWrite
  refine State.swapParts_ite rfl ?_
  extract_lets seq e old s1 s2 s3
  have h1 : s1.swapParts = s.swapParts := State.swapParts_ite rfl rfl
  have h3 : s3.swapParts = s.swapParts := h1
  exact State.swapParts_ite h3 h3

theorem State.tidemark_swapParts (src logSeq : Nat) : (s.tidemark src logSeq).swapParts = s.swapParts := by
  unfold State.tidemark
  exact State.swapParts_ite rfl (State.swapParts_ite rfl (State.swapParts_ite rfl rfl))

theorem State.event_swapParts (c code unit detail : Nat) (inj : Bool) : (s.event c code unit detail inj).swapParts = s.swapParts := by
  unfold State.event
  extract_lets s1 s2 s3 s4
  have h2 : s2.swapParts = s.swapParts := State.raise_swapParts ..
  have h3 : s3.swapParts = s.swapParts := (State.logWrite_swapParts ..).trans h2
  have h4 : s4.swapParts = s.swapParts :=
    State.swapParts_ite h2 (State.swapParts_ite ((State.tidemark_swapParts ..).trans h3) h3)
  exact State.swapParts_ite h4 h4

theorem State.spareConsumed_swapParts (k : Nat) (b : Blk) (i unit detail : Nat) :
    (s.spareConsumed k b i unit detail).swapParts = s.swapParts := State.event_swapParts ..

theorem State.ethRespond_swapParts (e : Nat) (r : Rsp) : (s.ethRespond e r).swapParts = s.swapParts := by
  unfold State.ethRespond
  dsimp only
  split
  · rfl
  · exact State.swapParts_ite rfl rfl

theorem State.ringRespond_swapParts (k : Nat) (r : Rsp) : (s.ringRespond k r).swapParts = s.swapParts := by
  unfold State.ringRespond
  split
  · rfl
  · extract_lets t at_ ph s1 n s2 dys s3
    have h2 : s2.swapParts = s.swapParts := State.wr_swapParts s1 _ _
    clear_value s2
    have h3 : s3.swapParts = s.swapParts := State.swapParts_ite h2 h2
    exact (State.sendVector_swapParts ..).trans h3

theorem State.respond_swapParts (via : Via) (r : Rsp) : (s.respond via r).swapParts = s.swapParts := by
  cases via with
  | ring k => exact State.ringRespond_swapParts ..
  | eth e => exact State.ethRespond_swapParts ..
  | i2c => rfl

theorem State.finishHold_swapParts (kind ix status state detail : Nat) : (s.finishHold kind ix status state detail).swapParts = s.swapParts :=
  State.swapParts_foldl _ (fun _ _ => State.respond_swapParts ..) _

theorem State.laneEnter_swapParts (l st : Nat) : (s.laneEnter l st).swapParts = s.swapParts := by
  unfold State.laneEnter
  extract_lets s1 s2 s3
  have h1 : s1.swapParts = s.swapParts := State.raise_swapParts ..
  have h2 : s2.swapParts = s.swapParts := State.swapParts_ite h1 h1
  have h3 : s3.swapParts = s.swapParts := State.swapParts_ite h2 h2
  exact State.swapParts_ite rfl (State.swapParts_ite ((State.raise_swapParts ..).trans h3) h3)

end Parts

/-! ### Registers -/

/-- Answers to commands leave the registers outside `sendRegs`. -/
theorem State.finishHold_rd (s : State) (kind ix status state detail : Nat) {f : Fld} (h : f.reg ∉ sendRegs) :
    (s.finishHold kind ix status state detail).rd f = s.rd f := ((State.Sends.refl s).finishHold ..).regs f h

/-- A spare that is used up leaves the registers outside `sendRegs`. -/
theorem State.spareConsumed_rd (s : State) (k : Nat) (b : Blk) (i unit detail : Nat) {f : Fld} (h : f.reg ∉ sendRegs) :
    (s.spareConsumed k b i unit detail).rd f = s.rd f := ((State.Sends.refl s).spareConsumed ..).regs f h

/-- What a counter counts leaves the registers outside `sendRegs`. -/
theorem State.symbolsFixed_rd (s : State) (p l n : Nat) {f : Fld} (h : f.reg ∉ sendRegs) : (s.symbolsFixed p l n).rd f = s.rd f := by
  have hsends : State.Sends s (s.symbolsFixed p l n) := by
    unfold State.symbolsFixed State.cntIsland
    exact (State.Sends.refl s).foldl fun _ _ ht => State.Sends.ite (ht.cntAdd _ _) ht
  exact hsends.regs f h

end Sys2Proof.Machine
end

section
/-! SUPPORT. The rules of the operations on swaps (R70 to R74): starting to answer one, ending one, undoing one and finishing one. -/

set_option Elab.async false

namespace Sys2Proof.Machine

/-! ### The pieces of a swap -/

section Pieces

variable (s : State) (p : Nat)

@[simp] theorem State.swapOf_setSwap (x : Option Swap) : (s.setSwap p x).swapOf p = x := mget_mset_self ..

theorem State.setSwap_rd (x : Option Swap) {f : Fld} (h : f.reg ≠ .LANE_SWAP_STATUS) : (s.setSwap p x).rd f = s.rd f :=
  State.rd_wr_of_reg_ne _ _ h

theorem State.setSwap_last (x : Option Swap) (i : Nat) :
    (s.setSwap p x).rd (F.LANE_SWAP_STATUS_LAST i) = s.rd (F.LANE_SWAP_STATUS_LAST i) :=
  State.rd_wr_of_lo_ne _ _ (show (1 : Nat) ≠ 0 by decide)

/-- BUSY of the island shows a swap that runs (R72). -/
theorem State.setSwap_busy (x : Swap) : (s.setSwap p (some x)).on (F.LANE_SWAP_STATUS_BUSY (p / 32)) = true := by
  have hany : (List.range 32).any (fun k => ((s.setSwap p (some x)).swapOf (32 * (p / 32) + k)).isSome) = true := by
    refine List.any_eq_true.2 ⟨p % 32, List.mem_range.2 (Nat.mod_lt _ (by decide)), ?_⟩
    rw [Nat.div_add_mod, State.swapOf_setSwap]
    rfl
  have hbusy : (s.setSwap p (some x)).rd (F.LANE_SWAP_STATUS_BUSY (p / 32)) =
      if (List.range 32).any (fun k => ((s.setSwap p (some x)).swapOf (32 * (p / 32) + k)).isSome) then 1 else 0 :=
    State.rd_wrB_self _ _ _ (show 0 < 1 by decide)
  unfold State.on
  rw [hbusy, if_pos hany]
  rfl

theorem State.setMirror_rd (x : Swap) (b : Bool) {f : Fld} (h : f.lo ≠ 21) : (s.setMirror x b).rd f = s.rd f :=
  (State.rd_wr_of_lo_ne _ _ h).trans (State.rd_wr_of_lo_ne _ _ h)

theorem State.lmosAnswered_wait (l : Nat) : mget (s.lmosAnswered l).lmosWait l none = none := by
  unfold State.lmosAnswered
  exact mget_mset_self s.lmosWait l none none

/-- An answer that has arrived leaves the swap, and is waited for no longer (R69). -/
theorem State.lmosAnswered_setSwap (x : Option Swap) (l : Nat) :
    ((s.setSwap p x).lmosAnswered l).swapOf p = x ∧ mget ((s.setSwap p x).lmosAnswered l).lmosWait l none = none ∧
      ((s.setSwap p x).lmosAnswered l).out = s.out :=
  ⟨s.swapOf_setSwap p x, State.lmosAnswered_wait .., rfl⟩

theorem State.spareReady_rd {f : Fld} (h : f.reg ≠ .PORT_STATUS) : (s.spareReady p).rd f = s.rd f := State.rd_wr_of_reg_ne _ _ h

theorem State.px_updPort (g : PortX → PortX) : (s.updPort p g).px p = g (s.px p) := mget_mset_self ..

/-- Where the lane map names logical lane `k` and the hot spare of a port, these are its lanes (R70). -/
theorem State.lanes_of_laneMap {t : State} {m : PMap (Option Nat)} {k a b : Nat} (hk : k ≠ 8)
    (h : t.laneMap = mset (mset m (key2 p k) (some a) none) (key2 p 8) (some b) none) : t.laneOf p k = a ∧ t.spareOf p = b := by
  have hkey : key2 p k ≠ key2 p 8 := fun e => hk (Nat.pair_eq_pair.1 e).2
  unfold State.laneOf State.spareOf
  rw [h, mget_mset_ne _ _ _ _ hkey, mget_mset_self, mget_mset_self]
  exact ⟨rfl, rfl⟩

theorem State.secondRequest_none {s : State} {p : Nat} (h : (s.px p).second = none) : s.secondRequest p = s := by
  unfold State.secondRequest
  rw [h]

end Pieces

/-! ### A swap ends without its lane replaced -/

section End

variable (s : State) (p last status : Nat) (x : Swap)

theorem State.swapEnd_rd {f : Fld} (hmirror : f.lo ≠ 21) (hswap : f.reg ≠ .LANE_SWAP_STATUS) (hsend : f.reg ∉ sendRegs) :
    (s.swapEnd p last status x).rd f = s.rd f :=
  calc (s.swapEnd p last status x).rd f
      = (((s.setMirror x false).setSwap p none).wr (F.LANE_SWAP_STATUS_LAST (p / 32)) last).rd f := State.finishHold_rd _ _ _ _ _ _ hsend
    _ = ((s.setMirror x false).setSwap p none).rd f := State.rd_wr_of_reg_ne _ _ hswap
    _ = s.rd f := (State.setSwap_rd _ _ _ hswap).trans (State.setMirror_rd _ _ _ hmirror)

theorem State.swapEnd_laneState (k : Nat) : (s.swapEnd p last status x).laneState k = s.laneState k :=
  s.swapEnd_rd p last status x (show (0 : Nat) ≠ 21 by decide) (show RegName.LANE_STATUS ≠ .LANE_SWAP_STATUS by decide)
    (show RegName.LANE_STATUS ∉ sendRegs by decide)

/-- LAST holds the result (R72, R74). -/
theorem State.swapEnd_last (h : last < 8) : (s.swapEnd p last status x).rd (F.LANE_SWAP_STATUS_LAST (p / 32)) = last :=
  (State.finishHold_rd _ _ _ _ _ _ (show RegName.LANE_SWAP_STATUS ∉ sendRegs by decide)).trans
    ((State.rd_wr_self ..).trans (Nat.mod_eq_of_lt h))

theorem State.swapEnd_swapOf : (s.swapEnd p last status x).swapOf p = none :=
  (State.swapOf_congr (State.finishHold_swapParts ..) p).trans (State.swapOf_setSwap (s.setMirror x false) p none)

theorem State.swapEnd_laneMap : (s.swapEnd p last status x).laneMap = s.laneMap :=
  (State.laneMap_congr (State.finishHold_swapParts ..)).trans rfl

theorem State.swapEnd_laneOf (k : Nat) : (s.swapEnd p last status x).laneOf p k = s.laneOf p k := by
  have hfirst : (s.swapEnd p last status x).rd (F.PORT_CFG_FIRST_LANE p) = s.rd (F.PORT_CFG_FIRST_LANE p) :=
    s.swapEnd_rd p last status x (show (3 : Nat) ≠ 21 by decide) (show RegName.PORT_CFG ≠ .LANE_SWAP_STATUS by decide)
      (show RegName.PORT_CFG ∉ sendRegs by decide)
  unfold State.laneOf
  rw [State.swapEnd_laneMap, hfirst]

end End

/-- An abort is the end of the swap with its interrupt, after a message at most (R72). -/
theorem State.swapAbort_eq {s : State} {p : Nat} {x : Swap} (hx : s.swapOf p = some x) (last : Nat) (send : Bool) :
    ∃ u : State, (∀ f, u.rd f = s.rd f) ∧ u.laneMap = s.laneMap ∧
      s.swapAbort p last send = (u.swapEnd p last (if last = 3 then stConflict else stTimeout) x).raise .lane (p / 32) 3 := by
  refine ⟨if send then s.lmosSend x.spare 0x05 x.logical 0 x.tag false else s, fun f => ?_, ?_, ?_⟩
  · split <;> rfl
  · split <;> rfl
  · simp only [State.swapAbort, hx]

/-- An aborted swap has ended with its result in LAST and the interrupt of an abort; every lane keeps its state and its place (R72). -/
theorem State.swapAbort_ends {s : State} {p : Nat} {x : Swap} (hx : s.swapOf p = some x) {last : Nat} (hlast : last < 8) (send : Bool) :
    (s.swapAbort p last send).swapOf p = none ∧ (s.swapAbort p last send).rd (F.LANE_SWAP_STATUS_LAST (p / 32)) = last ∧
      (s.swapAbort p last send).laneMap = s.laneMap ∧ (s.swapAbort p last send).intBit .lane (p / 32) 3 = true ∧
      ∀ k, (s.swapAbort p last send).laneState k = s.laneState k := by
  obtain ⟨u, hrd, hmap, habort⟩ := State.swapAbort_eq hx last send
  have hswap : RegName.LANE_SWAP_STATUS ≠ (intStatus .lane (p / 32)).reg := show RegName.LANE_SWAP_STATUS ≠ .LANE_INT_STATUS by decide
  have hlane : RegName.LANE_STATUS ≠ (intStatus .lane (p / 32)).reg := show RegName.LANE_STATUS ≠ .LANE_INT_STATUS by decide
  rw [habort]
  refine ⟨?_, ?_, ?_, ?_, fun k => ?_⟩
  · exact (State.swapOf_congr (State.raise_swapParts ..) p).trans (State.swapEnd_swapOf ..)
  · exact (State.rd_raise_reg _ _ _ _ hswap).trans (State.swapEnd_last _ _ _ _ _ hlast)
  · rw [State.raise_laneMap, State.swapEnd_laneMap, hmap]
  · exact State.intBit_raise_self _ _ _ _ (by decide)
  · exact (State.rd_raise_reg _ _ _ _ hlane).trans ((State.swapEnd_laneState ..).trans (hrd _))

/-! ### A swap is answered -/

/-- The swap that the answering end enters (R70 step 2). -/
def State.answeredSwap (s : State) (p k tag : Nat) (byCmd : Bool) : Swap :=
  { logical := k, oldLane := s.laneOf p k, spare := s.spareOf p, tag := tag, byCmd := byCmd, requester := false, acked := true,
    switched := false, doneRx := false, start := s.now }

section Answer

variable (s : State) (p k tag : Nat) (byCmd : Bool)

theorem State.swapAnswer_swapOf : (s.swapAnswer p k tag byCmd).swapOf p = some (s.answeredSwap p k tag byCmd) := by
  unfold State.swapAnswer
  extract_lets x s1 s2 s3
  have h1 : s1.swapOf p = some x := State.swapOf_setSwap s p (some x)
  have h2 : s2.swapOf p = s1.swapOf p := by
    unfold s2
    split <;> rfl
  exact (show s3.swapOf p = s2.swapOf p from rfl).trans (h2.trans h1)

theorem State.swapAnswer_out :
    (s.swapAnswer p k tag byCmd).out = .lmos (s.spareOf p) (lmosBlock 0x02 k 0 tag) :: s.out := by
  cases byCmd <;> rfl

/-- Of LANE_SWAP_STATUS an answer writes the lanes of the swap and BUSY. -/
theorem State.swapAnswer_rd {f : Fld} (hreg : f.reg = .LANE_SWAP_STATUS) (hold : f.lo ≠ 4) (hnew : f.lo ≠ 10) :
    (s.swapAnswer p k tag byCmd).rd f = (s.setSwap p (some (s.answeredSwap p k tag byCmd))).rd f := by
  have hmirror : ∀ l, f.reg ≠ (F.LANE_STATUS_MIRROR l).reg := fun l => by rw [hreg]; exact show RegName.LANE_SWAP_STATUS ≠ .LANE_STATUS by decide
  unfold State.swapAnswer
  extract_lets x s1 s2 s3
  have h2 : s2.rd f = s1.rd f := by
    unfold s2
    split <;> rfl
  have h3 : s3.rd f = s2.rd f := (State.rd_wr_of_lo_ne _ _ hnew).trans (State.rd_wr_of_lo_ne _ _ hold)
  have h4 : (s3.setMirror x true).rd f = s3.rd f :=
    (State.rd_wr_of_reg_ne _ _ (hmirror _)).trans (State.rd_wr_of_reg_ne _ _ (hmirror _))
  exact h4.trans (h3.trans h2)

theorem State.swapAnswer_busy : (s.swapAnswer p k tag byCmd).on (F.LANE_SWAP_STATUS_BUSY (p / 32)) = true := by
  have hrd : (s.swapAnswer p k tag byCmd).rd (F.LANE_SWAP_STATUS_BUSY (p / 32)) =
      (s.setSwap p (some (s.answeredSwap p k tag byCmd))).rd (F.LANE_SWAP_STATUS_BUSY (p / 32)) :=
    State.swapAnswer_rd _ _ _ _ _ rfl (show (0 : Nat) ≠ 4 by decide) (show (0 : Nat) ≠ 10 by decide)
  unfold State.on
  rw [hrd]
  exact State.setSwap_busy ..

theorem State.swapAnswer_last (i : Nat) :
    (s.swapAnswer p k tag byCmd).rd (F.LANE_SWAP_STATUS_LAST i) = s.rd (F.LANE_SWAP_STATUS_LAST i) :=
  (State.swapAnswer_rd _ _ _ _ _ rfl (show (1 : Nat) ≠ 4 by decide) (show (1 : Nat) ≠ 10 by decide)).trans (State.setSwap_last ..)

end Answer

/-! ### A swap is undone or finished -/

/-- Two lanes that change state one after the other stand in the states entered. -/
theorem State.laneEnter_two (s : State) {a b : Nat} (h : a ≠ b) {m n : Nat} (hm : m < 8) (hn : n < 8) :
    ((s.laneEnter a m).laneEnter b n).laneState a = m ∧ ((s.laneEnter a m).laneEnter b n).laneState b = n :=
  ⟨(State.laneEnter_laneState_ne _ _ h).trans (State.laneEnter_laneState _ _ _ hm), State.laneEnter_laneState _ _ _ hn⟩

/-- The port and the logical lane that a lane names (LANE_STATUS) leave the states of the lanes. -/
theorem State.wr_place_laneState (s : State) (l v w k : Nat) :
    ((s.wr (F.LANE_STATUS_PORT l) v).wr (F.LANE_STATUS_LOGICAL l) w).laneState k = s.laneState k :=
  (State.rd_wr_of_lo_ne _ _ (show (0 : Nat) ≠ 18 by decide)).trans (State.rd_wr_of_lo_ne _ _ (show (0 : Nat) ≠ 8 by decide))

theorem State.laneState_ite {c : Prop} [Decidable c] {t u : State} {k n : Nat} (ht : t.laneState k = n) (hu : u.laneState k = n) :
    (if c then t else u).laneState k = n := by
  split
  · exact ht
  · exact hu

/-- A finished swap that is undone: the old lane is LOCKED in its place again, the hot spare in RESERVE, and LAST and the interrupt tell
the abort (R72). -/
theorem State.swapUndo_lanes (s : State) (p : Nat) (x : Swap) (hne : x.oldLane ≠ x.spare) (hk : x.logical ≠ 8) :
    (s.swapUndo p x).laneState x.oldLane = 3 ∧ (s.swapUndo p x).laneState x.spare = 4 ∧ (s.swapUndo p x).laneOf p x.logical = x.oldLane ∧
      (s.swapUndo p x).spareOf p = x.spare ∧ (s.swapUndo p x).rd (F.LANE_SWAP_STATUS_LAST (p / 32)) = 3 ∧
      (s.swapUndo p x).intBit .lane (p / 32) 3 = true := by
  unfold State.swapUndo
  extract_lets s1 s2 s3 s4 s5 s6
  have h2 : s2.laneState x.oldLane = 3 ∧ s2.laneState x.spare = 4 := s1.laneEnter_two hne (by decide) (by decide)
  clear_value s2
  obtain ⟨hold, hnew⟩ := h2
  have h5 : ∀ k, s5.laneState k = s2.laneState k := fun k =>
    (State.wr_place_laneState ..).trans (State.wr_place_laneState s3 _ _ _ _)
  have h6 : ∀ k, s6.laneState k = s5.laneState k := fun k => State.laneState_ite rfl <|
    (State.rd_wr_of_reg_ne _ _ (show RegName.LANE_STATUS ≠ .RAS_SPARE_SUMMARY_HI by decide)).trans
      (State.rd_wr_of_reg_ne _ _ (show RegName.LANE_STATUS ≠ .RAS_SPARE_SUMMARY by decide))
  have hmap : s6.laneMap = s3.laneMap := by
    unfold s6
    split <;> rfl
  have hlane : RegName.LANE_STATUS ≠ (intStatus .lane (p / 32)).reg := show RegName.LANE_STATUS ≠ .LANE_INT_STATUS by decide
  have hswap : RegName.LANE_SWAP_STATUS ≠ (intStatus .lane (p / 32)).reg := show RegName.LANE_SWAP_STATUS ≠ .LANE_INT_STATUS by decide
  have htail : ∀ k, (((s6.wr (F.LANE_SWAP_STATUS_LAST (p / 32)) 3).raise .lane (p / 32) 3).spareReady p).laneState k = s2.laneState k := fun k =>
    (State.spareReady_rd _ _ (show RegName.LANE_STATUS ≠ .PORT_STATUS by decide)).trans <| (State.rd_raise_reg _ _ _ _ hlane).trans <|
      (State.rd_wr_of_reg_ne _ _ (show RegName.LANE_STATUS ≠ .LANE_SWAP_STATUS by decide)).trans ((h6 k).trans (h5 k))
  have hlaneMap : (((s6.wr (F.LANE_SWAP_STATUS_LAST (p / 32)) 3).raise .lane (p / 32) 3).spareReady p).laneMap = s3.laneMap :=
    (State.raise_laneMap ..).trans hmap
  obtain ⟨hof, hspare⟩ := State.lanes_of_laneMap p hk hlaneMap
  refine ⟨(htail _).trans hold, (htail _).trans hnew, hof, hspare, ?_, ?_⟩
  · exact (State.spareReady_rd _ _ (show RegName.LANE_SWAP_STATUS ≠ .PORT_STATUS by decide)).trans <|
      (State.rd_raise_reg _ _ _ _ hswap).trans (State.rd_wr_self ..)
  · exact (congrArg (bit · 3) (State.spareReady_rd _ _ (show RegName.LANE_INT_STATUS ≠ .PORT_STATUS by decide))).trans
      (State.intBit_raise_self _ _ _ _ (by decide))

/-- Step 6 of a swap, first part: the two lanes have changed states and places (R70). -/
def State.swapMoved (s : State) (p : Nat) (x : Swap) : State :=
  let s := ((s.setMirror x false).setSwap p none).laneEnter x.oldLane (if x.byCmd then 4 else 5)
  let s := s.laneEnter x.spare 3
  let s := { s with laneMap := mset (mset s.laneMap (key2 p x.logical) (some x.spare) none) (key2 p 8)
                                 (some (if x.byCmd then x.oldLane else 544)) none }
  let s := (s.wr (F.LANE_STATUS_PORT x.spare) p).wr (F.LANE_STATUS_LOGICAL x.spare) x.logical
  if x.byCmd then s else (s.wr (F.LANE_STATUS_PORT x.oldLane) noPort).wr (F.LANE_STATUS_LOGICAL x.oldLane) 0

/-- Step 6 of a swap, second part: LAST, the counts and the interrupt tell it (R70). -/
def State.swapTold (s : State) (p : Nat) : State :=
  (((s.wr (F.LANE_SWAP_STATUS_LAST (p / 32)) 1).satAdd (F.LANE_SWAP_STATUS_COUNT (p / 32)) 1).satAdd F.RAS_SPARE_STATUS_SWAPS 1).raise
    .lane (p / 32) 2

/-- Step 6 of a swap, third part: the spare that is used up is reported, and the command that waits is answered (R429, R452). -/
def State.swapReported (s : State) (p : Nat) (x : Swap) : State :=
  let s := if x.byCmd then s else s.spareConsumed 0 .lane (p / 32) x.oldLane p
  (s.spareReady p).finishHold holdLane p stOk (s.laneState x.oldLane) 1

theorem State.swapFinish_eq (s : State) (p : Nat) (x : Swap) :
    s.swapFinish p x =
      ((((s.swapMoved p x).swapTold p).swapReported p x).updPort p (fun y => { y with swapped := some x })).secondRequest p := rfl

theorem State.swapMoved_laneState (s : State) (p : Nat) (x : Swap) (hne : x.oldLane ≠ x.spare) :
    (s.swapMoved p x).laneState x.oldLane = (if x.byCmd then 4 else 5) ∧ (s.swapMoved p x).laneState x.spare = 3 := by
  unfold State.swapMoved
  extract_lets s1 s2 s3 s4
  have hcode : (if x.byCmd then 4 else 5) < 8 := by split <;> decide
  have h2 : s2.laneState x.oldLane = (if x.byCmd then 4 else 5) ∧ s2.laneState x.spare = 3 :=
    State.laneEnter_two _ hne hcode (by decide)
  clear_value s2
  obtain ⟨hold, hnew⟩ := h2
  have h4 : ∀ k, s4.laneState k = s2.laneState k := fun k => State.wr_place_laneState s3 _ _ _ _
  have hplace := fun k => State.wr_place_laneState s4 x.oldLane noPort 0 k
  exact ⟨State.laneState_ite ((h4 _).trans hold) ((hplace _).trans ((h4 _).trans hold)),
    State.laneState_ite ((h4 _).trans hnew) ((hplace _).trans ((h4 _).trans hnew))⟩

/-- No swap runs, the lane map names the spare in the old lane's place, and the port is as it was. -/
theorem State.swapMoved_parts (s : State) (p : Nat) (x : Swap) :
    (s.swapMoved p x).swapOf p = none ∧ (s.swapMoved p x).px p = s.px p ∧
      (s.swapMoved p x).laneMap = mset (mset s.laneMap (key2 p x.logical) (some x.spare) none) (key2 p 8)
        (some (if x.byCmd then x.oldLane else 544)) none := by
  unfold State.swapMoved
  extract_lets s1 s2 s3 s4
  have h2 : s2.swapParts = ((s.setMirror x false).setSwap p none).swapParts :=
    (State.laneEnter_swapParts ..).trans (State.laneEnter_swapParts ..)
  clear_value s2
  have h3 : (if x.byCmd then s4 else (s4.wr (F.LANE_STATUS_PORT x.oldLane) noPort).wr (F.LANE_STATUS_LOGICAL x.oldLane) 0).swapParts =
      s3.swapParts := State.swapParts_ite rfl rfl
  refine ⟨?_, ?_, ?_⟩
  · exact (State.swapOf_congr h3 p).trans ((State.swapOf_congr h2 p).trans (State.swapOf_setSwap ..))
  · exact (State.px_congr h3 p).trans (State.px_congr h2 p)
  · refine (State.laneMap_congr h3).trans ?_
    rw [show s.laneMap = s2.laneMap from (State.laneMap_congr h2).symm]

/-- The lanes keep their states while the swap is told. -/
theorem State.swapTold_laneState (s : State) (p k : Nat) : (s.swapTold p).laneState k = s.laneState k := by
  have hint : RegName.LANE_STATUS ≠ (intStatus .lane (p / 32)).reg := show RegName.LANE_STATUS ≠ .LANE_INT_STATUS by decide
  calc (s.swapTold p).laneState k
      = (((s.wr (F.LANE_SWAP_STATUS_LAST (p / 32)) 1).satAdd (F.LANE_SWAP_STATUS_COUNT (p / 32)) 1).satAdd F.RAS_SPARE_STATUS_SWAPS
          1).laneState k := State.rd_raise_reg _ _ _ _ hint
    _ = ((s.wr (F.LANE_SWAP_STATUS_LAST (p / 32)) 1).satAdd (F.LANE_SWAP_STATUS_COUNT (p / 32)) 1).laneState k :=
        State.rd_wr_of_reg_ne _ _ (show RegName.LANE_STATUS ≠ .RAS_SPARE_STATUS by decide)
    _ = (s.wr (F.LANE_SWAP_STATUS_LAST (p / 32)) 1).laneState k :=
        State.rd_wr_of_reg_ne _ _ (show RegName.LANE_STATUS ≠ .LANE_SWAP_STATUS by decide)
    _ = s.laneState k := State.rd_wr_of_reg_ne _ _ (show RegName.LANE_STATUS ≠ .LANE_SWAP_STATUS by decide)

theorem State.swapTold_last (s : State) (p : Nat) : (s.swapTold p).rd (F.LANE_SWAP_STATUS_LAST (p / 32)) = 1 := by
  have hint : RegName.LANE_SWAP_STATUS ≠ (intStatus .lane (p / 32)).reg := show RegName.LANE_SWAP_STATUS ≠ .LANE_INT_STATUS by decide
  exact (State.rd_raise_reg _ _ _ _ hint).trans <|
    (State.rd_wr_of_reg_ne _ _ (show RegName.LANE_SWAP_STATUS ≠ .RAS_SPARE_STATUS by decide)).trans <|
    (State.rd_wr_of_lo_ne _ _ (show (1 : Nat) ≠ 16 by decide)).trans (State.rd_wr_self ..)

theorem State.swapTold_swapParts (s : State) (p : Nat) : (s.swapTold p).swapParts = s.swapParts :=
  (State.raise_swapParts ..).trans rfl

theorem State.swapReported_rd (s : State) (p : Nat) (x : Swap) {f : Fld} (hsend : f.reg ∉ sendRegs) (hport : f.reg ≠ .PORT_STATUS) :
    (s.swapReported p x).rd f = s.rd f := by
  unfold State.swapReported
  extract_lets s1
  have h1 : s1.rd f = s.rd f := by
    unfold s1
    split
    · rfl
    · exact State.spareConsumed_rd _ _ _ _ _ _ hsend
  exact (State.finishHold_rd _ _ _ _ _ _ hsend).trans ((State.spareReady_rd _ _ hport).trans h1)

theorem State.swapReported_swapParts (s : State) (p : Nat) (x : Swap) : (s.swapReported p x).swapParts = s.swapParts := by
  unfold State.swapReported
  extract_lets s1
  have h1 : s1.swapParts = s.swapParts := State.swapParts_ite rfl (State.spareConsumed_swapParts ..)
  exact (State.finishHold_swapParts ..).trans h1

/-- Step 6 of a swap: no swap runs, the old lane is FAILED, or the hot spare after a swap by command, the hot spare is LOCKED in its place,
and LAST and the interrupt tell it (R70). -/
theorem State.swapFinish_lanes (s : State) (p : Nat) (x : Swap) (hne : x.oldLane ≠ x.spare) (hk : x.logical ≠ 8)
    (hsecond : (s.px p).second = none) :
    (s.swapFinish p x).swapOf p = none ∧ (s.swapFinish p x).laneState x.oldLane = (if x.byCmd then 4 else 5) ∧
      (s.swapFinish p x).laneState x.spare = 3 ∧ (s.swapFinish p x).laneOf p x.logical = x.spare ∧
      (s.swapFinish p x).spareOf p = (if x.byCmd then x.oldLane else 544) ∧
      (s.swapFinish p x).rd (F.LANE_SWAP_STATUS_LAST (p / 32)) = 1 ∧ (s.swapFinish p x).intBit .lane (p / 32) 2 = true := by
  obtain ⟨hold, hnew⟩ := s.swapMoved_laneState p x hne
  obtain ⟨hswap, hpx, hmap⟩ := s.swapMoved_parts p x
  have hparts : (((s.swapMoved p x).swapTold p).swapReported p x).swapParts = (s.swapMoved p x).swapParts :=
    (State.swapReported_swapParts ..).trans (State.swapTold_swapParts ..)
  have hstate : ∀ k, (((s.swapMoved p x).swapTold p).swapReported p x).laneState k = (s.swapMoved p x).laneState k := fun k =>
    (State.swapReported_rd _ _ _ (show RegName.LANE_STATUS ∉ sendRegs by decide) (show RegName.LANE_STATUS ≠ .PORT_STATUS by decide)).trans
      (State.swapTold_laneState ..)
  have hnone : (((((s.swapMoved p x).swapTold p).swapReported p x).updPort p (fun y => { y with swapped := some x })).px p).second = none := by
    rw [State.px_updPort, State.px_congr hparts, hpx]
    exact hsecond
  rw [State.swapFinish_eq, State.secondRequest_none hnone]
  obtain ⟨hof, hspare⟩ := State.lanes_of_laneMap p hk ((State.laneMap_congr hparts).trans hmap)
  refine ⟨(State.swapOf_congr hparts p).trans hswap, (hstate _).trans hold, (hstate _).trans hnew, hof, hspare, ?_, ?_⟩
  · exact (State.swapReported_rd _ _ _ (show RegName.LANE_SWAP_STATUS ∉ sendRegs by decide)
      (show RegName.LANE_SWAP_STATUS ≠ .PORT_STATUS by decide)).trans (State.swapTold_last ..)
  · exact (congrArg (bit · 2) (State.swapReported_rd _ _ _ (show RegName.LANE_INT_STATUS ∉ sendRegs by decide)
      (show RegName.LANE_INT_STATUS ≠ .PORT_STATUS by decide))).trans (State.intBit_raise_self _ _ _ _ (by decide))

end Sys2Proof.Machine
end

section
/-! SUPPORT. The commands of lane windows and swaps (R58, R66, R68 to R74), and the statement of the swaps. -/

set_option Elab.async false

namespace Sys2Proof.Machine

/-! ### Windows -/

/-- Corrected bits of the window that closes (R66). -/
def State.windowBits (s : State) (l : Nat) (words : List LineErr) : Nat := (mget s.laneX l {}).winBits + (lineCounts words).2.1

/-- Uncorrectable codewords of the window that closes (R66). -/
def State.windowBad (s : State) (l : Nat) (words : List LineErr) : Nat := (mget s.laneX l {}).winBad + (lineCounts words).2.2.2

/-- Failing windows in a row after this one (R66). -/
def State.windowRun (s : State) (l : Nat) (words : List LineErr) : Nat :=
  if s.windowBad l words > 0 || s.berFails (l / 34) (s.windowBits l words) then min 15 (s.rd (F.LANE_ERR_FAIL_RUN l) + 1) else 0

/-- LANE_ERR and LANE_ERR_CNT after a window without perturbation (R66). -/
def State.windowJudged (s : State) (l : Nat) (words : List LineErr) (corner : Nat) : State :=
  (((s.windowCount l words corner).wr (F.LANE_ERR_CORR_BITS l) (min (s.windowBits l words) (2 ^ 24 - 1))).satAdd (F.LANE_ERR_CNT_UNCORR l)
    (s.windowBad l words)).wr (F.LANE_ERR_FAIL_RUN l) (s.windowRun l words)

section Window

variable (s : State) (l : Fin 544) (words : List LineErr) (corner : Nat)

/-- Of the fields outside `sendRegs` a count writes the corner pairs only. -/
theorem State.windowCount_rd {f : Fld} (hlo : f.lo ≠ 16) (hsend : f.reg ∉ sendRegs) :
    (s.windowCount l words corner).rd f = s.rd f := by
  unfold State.windowCount
  extract_lets x c s1
  have h1 : s1.rd f = s.rd f := State.rd_wr_of_lo_ne s _ hlo
  clear_value s1
  split
  · exact (State.symbolsFixed_rd _ _ _ _ hsend).trans h1
  · exact h1

/-- A lane that carries no port counts its corner pairs, and nothing else but its own window changes. -/
theorem State.windowCount_eq (h : s.carried l = none) :
    s.windowCount l words corner =
      (s.satAdd (F.LANE_ERR_CNT_CORNER l) corner).updLane l (fun x => { x with winBits := 0, winCorr := 0, winBad := 0 }) := by
  have hport : (s.satAdd (F.LANE_ERR_CNT_CORNER l) corner).rd (F.LANE_STATUS_PORT l) = s.rd (F.LANE_STATUS_PORT l) :=
    State.rd_wr_of_reg_ne _ _ (show RegName.LANE_STATUS ≠ .LANE_ERR_CNT by decide)
  have hcarried : ((s.satAdd (F.LANE_ERR_CNT_CORNER l) corner).updLane l
      (fun x => { x with winBits := 0, winCorr := 0, winBad := 0 })).carried l = none := by
    rw [← h]
    unfold State.carried
    rw [State.updLane_rd, hport]
  simp only [State.windowCount, hcarried]

theorem State.windowCount_berFails (i n : Nat) : (s.windowCount l words corner).berFails i n = s.berFails i n := by
  have hsend : RegName.LANE_SWAP_BER ∉ sendRegs := by decide
  have hmant := s.windowCount_rd l words corner (f := F.LANE_SWAP_BER_MANT i) (show (0 : Nat) ≠ 16 by decide) hsend
  have hexp := s.windowCount_rd l words corner (f := F.LANE_SWAP_BER_EXP i) (show (8 : Nat) ≠ 16 by decide) hsend
  unfold State.berFails
  rw [hmant, hexp]

theorem State.perturbLane_unarmed (h : s.on F.DBG_CTL_ARM = false) (k t : Nat) : s.perturbLane k t = (0, 0) := by
  unfold State.perturbLane
  simp [h]

/-- A window of a Strait lane in LOCKED or RESERVE, without perturbation, that does not complete LANE_SWAP_WIN failing windows in a row
(R66). -/
theorem execSwapWindowClose_judged (hmode : s.rd (F.LANE_CTL_MODE l) = 1) (hstate : s.laneState l = 3 ∨ s.laneState l = 4)
    (harm : s.on F.DBG_CTL_ARM = false) (hrun : s.rd (F.LANE_SWAP_WIN_WIN (l / 34)) = 0 ∨ s.windowRun l words = 0) :
    execSwapWindowClose l words corner s = .next (s.windowJudged l words corner) := by
  unfold execSwapWindowClose
  refine congrArg Host.Outcome.next ?_
  extract_lets x corr uncorr u st inj fed v fail run w win
  have hkeep : ∀ f : Fld, f.lo ≠ 16 → f.reg ∉ sendRegs → u.rd f = s.rd f := fun f => s.windowCount_rd l words corner
  have hu : u.rd (F.LANE_CTL_MODE l) = 1 ∧ (u.laneState l = 3 ∨ u.laneState l = 4) ∧ u.on F.DBG_CTL_ARM = false := by
    unfold State.laneState State.on at *
    rw [hkeep _ (show (0 : Nat) ≠ 16 by decide) (show RegName.LANE_CTL ∉ sendRegs by decide),
      hkeep _ (show (0 : Nat) ≠ 16 by decide) (show RegName.LANE_STATUS ∉ sendRegs by decide),
      hkeep _ (show (0 : Nat) ≠ 16 by decide) (show RegName.DBG_CTL ∉ sendRegs by decide)]
    exact ⟨hmode, hstate, harm⟩
  obtain ⟨hmode', hstate', harm'⟩ := hu
  have hinj : inj = (0, 0) := State.perturbLane_unarmed u harm' _ _
  have hfed : fed = (0, 0) := by
    unfold fed
    rw [hinj, ite_self]
  have hv : v = (u.wr (F.LANE_ERR_CORR_BITS l) (min (s.windowBits l words) (2 ^ 24 - 1))).satAdd (F.LANE_ERR_CNT_UNCORR l)
      (s.windowBad l words) := by
    unfold v
    rw [hinj]
    rfl
  have hvreg : ∀ f : Fld, f.reg ≠ .LANE_ERR → f.reg ≠ .LANE_ERR_CNT → v.rd f = u.rd f := fun f herr hcnt =>
    (State.rd_wr_of_reg_ne _ _ hcnt).trans (State.rd_wr_of_reg_ne _ _ herr)
  have hvrun : v.rd (F.LANE_ERR_FAIL_RUN l) = s.rd (F.LANE_ERR_FAIL_RUN l) :=
    (State.rd_wr_of_reg_ne _ _ (show RegName.LANE_ERR ≠ .LANE_ERR_CNT by decide)).trans <|
      (State.rd_wr_of_lo_ne _ _ (show (24 : Nat) ≠ 0 by decide)).trans
        (hkeep _ (show (24 : Nat) ≠ 16 by decide) (show RegName.LANE_ERR ∉ sendRegs by decide))
  have hvber : ∀ n, v.berFails (l / 34) n = s.berFails (l / 34) n := by
    intro n
    have hreg : RegName.LANE_SWAP_BER ≠ .LANE_ERR ∧ RegName.LANE_SWAP_BER ≠ .LANE_ERR_CNT := by decide
    rw [← s.windowCount_berFails l words corner]
    unfold State.berFails
    rw [hvreg (F.LANE_SWAP_BER_MANT _) hreg.1 hreg.2, hvreg (F.LANE_SWAP_BER_EXP _) hreg.1 hreg.2]
  have hrun' : run = s.windowRun l words := by
    unfold run fail
    rw [hfed, hvber, hvrun]
    rfl
  have hw : w = s.windowJudged l words corner := by
    unfold w
    rw [hrun', hv]
    rfl
  have hwin : win = s.rd (F.LANE_SWAP_WIN_WIN (l / 34)) :=
    (State.rd_wr_of_reg_ne _ _ (show RegName.LANE_SWAP_WIN ≠ .LANE_ERR by decide)).trans <|
      (hvreg _ (show RegName.LANE_SWAP_WIN ≠ .LANE_ERR by decide) (show RegName.LANE_SWAP_WIN ≠ .LANE_ERR_CNT by decide)).trans
        (hkeep _ (show (0 : Nat) ≠ 16 by decide) (show RegName.LANE_SWAP_WIN ∉ sendRegs by decide))
  have hstops : (win = 0 || run < win) = true := by
    rw [hwin, hrun', Bool.or_eq_true, decide_eq_true_eq, decide_eq_true_eq]
    omega
  have hopen : ¬(decide (u.rd (F.LANE_CTL_MODE l) ≠ 1) || (decide (st ≠ 3) && decide (st ≠ 4))) = true := by
    have hst : st = 3 ∨ st = 4 := hstate'
    simp only [hmode', Bool.or_eq_true, Bool.and_eq_true, decide_eq_true_eq]
    omega
  rw [if_neg hopen, if_pos hstops, hw]

end Window

/-- SWAP_WINDOW_CLOSE of a lane that carries no port and that R66 does not judge (R49). -/
theorem swapWindowClose_counts (s : State) (l : Fin 544) (words : List LineErr) (corner : Nat)
    (hopen : s.rd (F.LANE_CTL_MODE l) ≠ 1 ∨ s.laneState l = 0 ∨ s.laneState l = 1 ∨ s.laneState l = 2 ∨ s.laneState l = 5)
    (hcarried : s.carried l = none) :
    Runs (.swapWindowClose l words corner) s fun t =>
      t.rd (F.LANE_ERR_CNT_CORNER l) = min (s.rd (F.LANE_ERR_CNT_CORNER l) + corner) (2 ^ (F.LANE_ERR_CNT_CORNER l).width - 1) ∧
      changes [F.LANE_ERR_CNT_CORNER l] s { t with laneX := s.laneX } := by
  have hcond : (decide ((s.windowCount l words corner).rd (F.LANE_CTL_MODE l) ≠ 1) ||
      (decide ((s.windowCount l words corner).laneState l ≠ 3) && decide ((s.windowCount l words corner).laneState l ≠ 4))) = true := by
    unfold State.laneState at hopen ⊢
    rw [s.windowCount_rd l words corner (show (0 : Nat) ≠ 16 by decide) (show RegName.LANE_CTL ∉ sendRegs by decide),
      s.windowCount_rd l words corner (show (0 : Nat) ≠ 16 by decide) (show RegName.LANE_STATUS ∉ sendRegs by decide)]
    simp only [Bool.or_eq_true, Bool.and_eq_true, decide_eq_true_eq]
    omega
  have hx : exec (.swapWindowClose l words corner) s = .next (s.windowCount l words corner) :=
    congrArg Host.Outcome.next (if_pos hcond)
  refine Runs.of_exec hx ?_
  rw [s.windowCount_eq l words corner hcarried]
  have hcorner : changes [F.LANE_ERR_CNT_CORNER l] s (s.satAdd (F.LANE_ERR_CNT_CORNER l) corner) :=
    (changes.refl s).satAdd (List.mem_singleton.2 rfl) corner
  rw [State.updLane_rd]
  exact ⟨State.rd_satAdd_self .., hcorner⟩

/-- What a window without perturbation leaves in the lane's registers (R66). -/
theorem State.windowJudged_lane (s : State) (l : Fin 544) (words : List LineErr) (corner : Nat) :
    (s.windowJudged l words corner).rd (F.LANE_ERR_FAIL_RUN l) = s.windowRun l words ∧
      (s.windowJudged l words corner).rd (F.LANE_ERR_CORR_BITS l) = min (s.windowBits l words) (2 ^ 24 - 1) ∧
      (s.windowJudged l words corner).rd (F.LANE_ERR_CNT_UNCORR l) =
        min (s.rd (F.LANE_ERR_CNT_UNCORR l) + s.windowBad l words) (2 ^ (F.LANE_ERR_CNT_UNCORR l).width - 1) ∧
      (s.windowJudged l words corner).laneState l = s.laneState l := by
  have hrun : s.windowRun l words < 2 ^ 4 := by
    unfold State.windowRun
    split <;> omega
  refine ⟨?_, ?_, ?_, ?_⟩
  · exact (State.rd_wr_self ..).trans (Nat.mod_eq_of_lt hrun)
  · exact (State.rd_wr_of_lo_ne _ _ (show (0 : Nat) ≠ 24 by decide)).trans <|
      (State.rd_wr_of_reg_ne _ _ (show RegName.LANE_ERR ≠ .LANE_ERR_CNT by decide)).trans <|
      (State.rd_wr_self ..).trans (Nat.mod_eq_of_lt (by show _ < 2 ^ 24; omega))
  · refine (State.rd_wr_of_reg_ne _ _ (show RegName.LANE_ERR_CNT ≠ .LANE_ERR by decide)).trans ((State.rd_satAdd_self ..).trans ?_)
    rw [State.rd_wr_of_reg_ne _ _ (show RegName.LANE_ERR_CNT ≠ .LANE_ERR by decide),
      s.windowCount_rd l words corner (show (0 : Nat) ≠ 16 by decide) (show RegName.LANE_ERR_CNT ∉ sendRegs by decide)]
  · exact (State.rd_wr_of_reg_ne _ _ (show RegName.LANE_STATUS ≠ .LANE_ERR by decide)).trans <|
      (State.rd_wr_of_reg_ne _ _ (show RegName.LANE_STATUS ≠ .LANE_ERR_CNT by decide)).trans <|
      (State.rd_wr_of_reg_ne _ _ (show RegName.LANE_STATUS ≠ .LANE_ERR by decide)).trans
        (s.windowCount_rd l words corner (show (0 : Nat) ≠ 16 by decide) (show RegName.LANE_STATUS ∉ sendRegs by decide))

/-! ### Requests -/

theorem ofLsb_lt (l : List Bool) : ofLsb l < 2 ^ l.length := by
  induction l with
  | nil => decide
  | cons c t ih =>
    rw [ofLsb, List.length_cons, Nat.pow_succ]
    split <;> omega

section Request

variable {s : State} {p : Fin 512} {b : BitVec 66} {byCmd : Bool} {m : Lmos} {x : Swap}

/-- A message names one of eight logical lanes (R68). -/
theorem lmosIs_logical_lt {c : Nat} (h : lmosIs c b = some m) : m.logical < 8 := by
  obtain ⟨hread, -⟩ := Option.filter_eq_some_iff.1 h
  obtain ⟨⟨code, logical, arg, tag⟩, hraw, rfl⟩ := Option.map_eq_some_iff.1 hread
  unfold lmosRead at hraw
  split at hraw
  · obtain ⟨-, rfl, -⟩ := by simpa only [Option.some.injEq, Prod.mk.injEq] using hraw
    exact Nat.lt_of_lt_of_le (ofLsb_lt _) (Nat.pow_le_pow_right (by decide) (List.length_take_le ..))
  · cases hraw

/-- A swap request that is no request, or at a port that is no Strait port, changes nothing (R68, R70). -/
theorem swapReqReceive_ignored (h : s.strait p = false ∨ lmosIs 0x01 b = none) : Runs (.swapReqReceive p b byCmd) s fun t => t = s := by
  refine ⟨s, ?_, rfl⟩
  change execSwapReqReceive p b byCmd s = _
  unfold execSwapReqReceive
  rcases h with hs | hm
  · split
    · rfl
    · simp only [hs, Bool.not_false, if_true]
  · rw [hm]

/-- A refusal: SWAP_NAK leaves with its reason, and neither registers nor swaps change (R70, R74). -/
theorem Runs.of_nak {arg : Nat}
    (h : execSwapReqReceive p b byCmd s = .next (s.lmosAnswer p (s.spareOf p) 0x01 m.tag 0x03 m.logical arg)) :
    Runs (.swapReqReceive p b byCmd) s fun t =>
      t.out = .lmos (s.spareOf p) (lmosBlock 0x03 m.logical arg m.tag) :: s.out ∧ t.regs = s.regs ∧ t.swaps = s.swaps :=
  Runs.of_exec h ⟨rfl, rfl, rfl⟩

section Strait

variable (hm : lmosIs 0x01 b = some m) (hs : s.strait p = true)
include hm hs

/-- A repeated request gets the same answer again (R69). -/
theorem swapReqReceive_again {a : LmosAns} (ha : s.lmosRepeated p 0x01 m.tag = some a) :
    Runs (.swapReqReceive p b byCmd) s fun t =>
      t = { s with out := .lmos a.lane (lmosBlock a.answer.code a.answer.logical a.answer.arg a.answer.tag) :: s.out } := by
  refine ⟨_, ?_, rfl⟩
  change execSwapReqReceive p b byCmd s = _
  simp only [execSwapReqReceive, hm, hs, ha, Bool.not_true, Bool.false_eq_true, if_false]
  rfl

variable (hr : s.lmosRepeated p 0x01 m.tag = none)
include hr

/-- A port without a hot spare answers no request (R58, R70). -/
theorem swapReqReceive_spareless (hsp : 544 ≤ s.spareOf p) : Runs (.swapReqReceive p b byCmd) s fun t => t = s := by
  refine ⟨s, ?_, rfl⟩
  change execSwapReqReceive p b byCmd s = _
  simp only [execSwapReqReceive, hm, hs, hr, Bool.not_true, Bool.false_eq_true, if_false, ge_iff_le, hsp, if_true]

variable (hsp : s.spareOf p < 544)
include hsp

/-- What a new request at a port without a swap does (R70, R74). -/
theorem execSwapReqReceive_idle (hx : s.swapOf p = none) :
    execSwapReqReceive p b byCmd s = .next (
      if !s.partnerLm p then s.lmosAnswer p (s.spareOf p) 0x01 m.tag 0x03 m.logical 3
      else if s.laneState (s.spareOf p) ≠ 4 then s.lmosAnswer p (s.spareOf p) 0x01 m.tag 0x03 m.logical 2
      else if m.logical ≥ s.portWidth p || s.laneState (s.laneOf p m.logical) ≠ 3 then
        s.lmosAnswer p (s.spareOf p) 0x01 m.tag 0x03 m.logical 1
      else s.swapAnswer p m.logical m.tag byCmd) := by
  simp only [execSwapReqReceive, hm, hs, hr, hx, Bool.not_true, Bool.false_eq_true, if_false, ge_iff_le, Nat.not_le.2 hsp]

/-- What a new request during a swap does (R74). -/
theorem execSwapReqReceive_swapping (hx : s.swapOf p = some x) :
    execSwapReqReceive p b byCmd s = .next (
      if x.requester then
        if x.logical = m.logical then (s.setSwap p (some { x with acked := true })).lmosAnswered x.spare
        else if m.logical < x.logical then (s.swapEnd p 4 stConflict x).swapAnswer p m.logical m.tag byCmd
        else s.lmosAnswer p (s.spareOf p) 0x01 m.tag 0x03 m.logical 4
      else s.lmosAnswer p (s.spareOf p) 0x01 m.tag 0x03 m.logical 1) := by
  simp only [execSwapReqReceive, hm, hs, hr, hx, Bool.not_true, Bool.false_eq_true, if_false, ge_iff_le, Nat.not_le.2 hsp]

end Strait

end Request

/-- SWAP_REQ_RECEIVE without a swap in progress: refused with its reason, or answered and begun (R70, R74). -/
theorem swapReqReceive_idle {s : State} {p : Fin 512} {b : BitVec 66} {byCmd : Bool} {m : Lmos} (hm : lmosIs 0x01 b = some m)
    (hs : s.strait p = true) (hr : s.lmosRepeated p 0x01 m.tag = none) (hsp : s.spareOf p < 544) (hx : s.swapOf p = none) {nak : Nat → List Out}
    (hnak : nak = fun arg => Out.lmos (s.spareOf p) (lmosBlock 0x03 m.logical arg m.tag) :: s.out) :
    (s.partnerLm p = false → Runs (.swapReqReceive p b byCmd) s fun t => t.out = nak 3 ∧ t.regs = s.regs ∧ t.swaps = s.swaps) ∧
    (s.partnerLm p = true → s.laneState (s.spareOf p) ≠ 4 →
      Runs (.swapReqReceive p b byCmd) s fun t => t.out = nak 2 ∧ t.regs = s.regs ∧ t.swaps = s.swaps) ∧
    (s.partnerLm p = true → s.laneState (s.spareOf p) = 4 → m.logical < s.portWidth p → s.laneState (s.laneOf p m.logical) ≠ 3 →
      Runs (.swapReqReceive p b byCmd) s fun t => t.out = nak 1 ∧ t.regs = s.regs ∧ t.swaps = s.swaps) ∧
    (s.partnerLm p = true → s.laneState (s.spareOf p) = 4 → m.logical < s.portWidth p → s.laneState (s.laneOf p m.logical) = 3 →
      Runs (.swapReqReceive p b byCmd) s fun t =>
        (t.swapOf p).map (fun x => (x.logical, x.oldLane, x.spare, x.tag, x.byCmd, x.requester, x.acked)) =
          some (m.logical, s.laneOf p m.logical, s.spareOf p, m.tag, byCmd, false, true) ∧
        t.out = .lmos (s.spareOf p) (lmosBlock 0x02 m.logical 0 m.tag) :: s.out ∧ t.on (F.LANE_SWAP_STATUS_BUSY (p / 32)) = true) := by
  subst hnak
  have hx := execSwapReqReceive_idle (byCmd := byCmd) hm hs hr hsp hx
  refine ⟨fun hlm => ?_, fun hlm hspare => ?_, fun hlm hspare hw hl => ?_, fun hlm hspare hw hl => ?_⟩
  · exact Runs.of_nak (hx.trans (by simp [hlm]))
  · exact Runs.of_nak (hx.trans (by simp [hlm, hspare]))
  · exact Runs.of_nak (hx.trans (by simp [hlm, hspare, hl]))
  · have hgo : execSwapReqReceive p b byCmd s = .next (s.swapAnswer p m.logical m.tag byCmd) :=
      hx.trans (by simp [hlm, hspare, hl, Nat.not_le.2 hw])
    refine Runs.of_exec hgo ⟨?_, State.swapAnswer_out .., State.swapAnswer_busy ..⟩
    rw [State.swapAnswer_swapOf]
    rfl

/-- SWAP_REQ_RECEIVE during a swap: of two requests the one of the lower logical lane stands (R74). -/
theorem swapReqReceive_swapping {s : State} {p : Fin 512} {b : BitVec 66} {byCmd : Bool} {m : Lmos} (hm : lmosIs 0x01 b = some m)
    (hs : s.strait p = true) (hr : s.lmosRepeated p 0x01 m.tag = none) (hsp : s.spareOf p < 544) {x : Swap} (hx : s.swapOf p = some x)
    {nak : Nat → List Out} (hnak : nak = fun arg => Out.lmos (s.spareOf p) (lmosBlock 0x03 m.logical arg m.tag) :: s.out) :
    (x.requester = false → Runs (.swapReqReceive p b byCmd) s fun t => t.out = nak 1 ∧ t.regs = s.regs ∧ t.swaps = s.swaps) ∧
    (x.requester = true → x.logical < m.logical →
      Runs (.swapReqReceive p b byCmd) s fun t => t.out = nak 4 ∧ t.regs = s.regs ∧ t.swaps = s.swaps) ∧
    (x.requester = true → x.logical = m.logical → Runs (.swapReqReceive p b byCmd) s fun t =>
      t.swapOf p = some { x with acked := true } ∧ mget t.lmosWait x.spare none = none ∧ t.out = s.out) ∧
    (x.requester = true → m.logical < x.logical → Runs (.swapReqReceive p b byCmd) s fun t =>
      (t.swapOf p).map (fun y => (y.logical, y.oldLane, y.tag, y.requester)) = some (m.logical, s.laneOf p m.logical, m.tag, false) ∧
      t.rd (F.LANE_SWAP_STATUS_LAST (p / 32)) = 4) := by
  subst hnak
  have hx := execSwapReqReceive_swapping (byCmd := byCmd) hm hs hr hsp hx
  refine ⟨fun hreq => ?_, fun hreq hlt => ?_, fun hreq heq => ?_, fun hreq hgt => ?_⟩
  · exact Runs.of_nak (hx.trans (by simp [hreq]))
  · exact Runs.of_nak (hx.trans (by simp [hreq, hlt.ne, hlt.le]))
  · have hgo : execSwapReqReceive p b byCmd s = .next ((s.setSwap p (some { x with acked := true })).lmosAnswered x.spare) :=
      hx.trans (by simp [hreq, heq])
    exact Runs.of_exec hgo (State.lmosAnswered_setSwap ..)
  · have hgo : execSwapReqReceive p b byCmd s = .next ((s.swapEnd p 4 stConflict x).swapAnswer p m.logical m.tag byCmd) :=
      hx.trans (by simp [hreq, hgt, hgt.ne'])
    refine Runs.of_exec hgo ⟨?_, (State.swapAnswer_last ..).trans (State.swapEnd_last _ _ _ _ _ (by decide))⟩
    rw [State.swapAnswer_swapOf, ← State.swapEnd_laneOf s p 4 stConflict x]
    rfl

/-! ### Answers, alignment and the end of a swap -/

section NoSwap

variable {s : State} {p : Fin 512} (hx : s.swapOf p = none)
include hx

/-- An answer that nobody waits for changes nothing. -/
theorem swapAckReceive_none (b : BitVec 66) : Runs (.swapAckReceive p b) s fun t => t = s := by
  refine ⟨s, ?_, rfl⟩
  change execSwapAckReceive p b s = _
  unfold execSwapAckReceive
  split
  case h_1 hsome => cases hx.symm.trans hsome
  case h_2 => rfl

theorem swapNakReceive_none (b : BitVec 66) : Runs (.swapNakReceive p b) s fun t => t = s := by
  refine ⟨s, ?_, rfl⟩
  change execSwapNakReceive p b s = _
  unfold execSwapNakReceive
  split
  case h_1 hsome => cases hx.symm.trans hsome
  case h_2 => rfl

theorem swapDoneReceive_none (b : BitVec 66) : Runs (.swapDoneReceive p b) s fun t => t = s := by
  refine ⟨s, ?_, rfl⟩
  change execSwapDoneReceive p b s = _
  unfold execSwapDoneReceive
  split
  case h_1 hsome => cases hx.symm.trans hsome
  case h_2 => rfl

theorem swapAligned_none (run : Nat) (skew : Int) : Runs (.swapAligned p run skew) s fun t => t = s := by
  refine ⟨s, ?_, rfl⟩
  change execSwapAligned p run skew s = _
  simp only [execSwapAligned, hx]

theorem swapTimeout_none : Runs (.swapTimeout p) s fun t => t = s := by
  refine ⟨s, ?_, rfl⟩
  change execSwapTimeout p s = _
  simp only [execSwapTimeout, hx]

/-- An abort changes nothing where no swap runs and none has been finished (R72). -/
theorem swapAbortReceive_none (b : BitVec 66) (hdone : (s.px p).swapped = none) : Runs (.swapAbortReceive p b) s fun t => t = s := by
  refine ⟨s, ?_, rfl⟩
  change execSwapAbortReceive p b s = _
  unfold execSwapAbortReceive
  split
  · rfl
  · simp only [hx, hdone]

/-- An abort of the swap that this end has finished undoes it (R72). -/
theorem swapAbortReceive_undoes {x : Swap} (hdone : (s.px p).swapped = some x) (hne : x.oldLane ≠ x.spare) {b : BitVec 66} {m : Lmos}
    (hm : lmosIs 0x05 b = some m) (hlogical : m.logical = x.logical) (htag : m.tag = x.tag) :
    Runs (.swapAbortReceive p b) s fun t =>
      t.laneState x.oldLane = 3 ∧ t.laneState x.spare = 4 ∧ t.laneOf p x.logical = x.oldLane ∧ t.spareOf p = x.spare ∧
      t.rd (F.LANE_SWAP_STATUS_LAST (p / 32)) = 3 ∧ t.intBit .lane (p / 32) 3 = true := by
  have hk : x.logical ≠ 8 := hlogical ▸ (lmosIs_logical_lt hm).ne
  have hgo : execSwapAbortReceive p b s = .next (s.swapUndo p x) := by
    simp only [execSwapAbortReceive, hm, hx, hdone, hlogical, htag, decide_true, Bool.and_self, if_true]
  exact Runs.of_exec hgo (s.swapUndo_lanes p x hne hk)

end NoSwap

/-- SWAP_DONE has left on both lanes, and the receiver takes the logical lane from the hot spare with its deskew offset (R70 steps 4 and 5). -/
def State.swapSwitched (s : State) (p : Nat) (x : Swap) (skew : Int) : State :=
  let s := (s.lmosSend x.oldLane 0x04 x.logical 0 x.tag false).lmosSend x.spare 0x04 x.logical 0 x.tag false
  s.updPort p (fun y =>
    { y with rxOld := some (x.logical, x.oldLane, s.now),
             pcs := { y.pcs with deskew := y.pcs.deskew.modify x.logical (fun d => ((d : Int) - skew).toNat) } })

section Swapping

variable {s : State} {p : Fin 512} {x : Swap} (hx : s.swapOf p = some x)
include hx

/-- SWAP_ACK of the swap's TAG: it proceeds, and the request is repeated no longer (R69, R70). -/
theorem swapAckReceive_acked {b : BitVec 66} {m : Lmos} (hm : lmosIs 0x02 b = some m) (hreq : x.requester = true) (htag : x.tag = m.tag) :
    Runs (.swapAckReceive p b) s fun t => t.swapOf p = some { x with acked := true } ∧ mget t.lmosWait x.spare none = none := by
  have hgo : execSwapAckReceive p b s = .next ((s.setSwap p (some { x with acked := true })).lmosAnswered x.spare) := by
    simp only [execSwapAckReceive, hm, hx, hreq, htag, decide_true, Bool.and_self, if_true]
  obtain ⟨hswap, hwait, -⟩ := s.lmosAnswered_setSwap p (some { x with acked := true }) x.spare
  exact Runs.of_exec hgo ⟨hswap, hwait⟩

/-- SWAP_NAK of the swap's TAG ends it; the old lane stays in place (R74). -/
theorem swapNakReceive_ends {b : BitVec 66} {m : Lmos} (hm : lmosIs 0x03 b = some m) (hreq : x.requester = true) (htag : x.tag = m.tag)
    (hack : x.acked = false) :
    Runs (.swapNakReceive p b) s fun t =>
      t.swapOf p = none ∧ t.rd (F.LANE_SWAP_STATUS_LAST (p / 32)) = 4 ∧ t.laneState x.oldLane = s.laneState x.oldLane ∧
      t.laneMap = s.laneMap := by
  have hgo : execSwapNakReceive p b s = .next (s.swapEnd p 4 stConflict x) := by
    simp only [execSwapNakReceive, hm, hx, hreq, htag, hack, decide_true, Bool.not_false, Bool.and_self, if_true]
  exact Runs.of_exec hgo ⟨State.swapEnd_swapOf .., State.swapEnd_last _ _ _ _ _ (by decide), State.swapEnd_laneState .., State.swapEnd_laneMap ..⟩

/-- Four matching codewords within 200 ns, after the answer, are what alignment takes (R70 step 3). -/
theorem swapAligned_waits (run : Nat) (skew : Int) (h : x.acked = false ∨ run < 4 ∨ 2000 < skew.natAbs) :
    Runs (.swapAligned p run skew) s fun t => t = s := by
  refine ⟨s, ?_, rfl⟩
  change execSwapAligned p run skew s = _
  have hcond : (x.switched || !x.acked || decide (run < 4) || decide (2000 < skew.natAbs)) = true := by
    rcases h with h | h | h <;> simp [h]
  simp only [execSwapAligned, hx, hcond, if_true]

/-- Step 6 waits for both ends. -/
theorem State.swapCheck_waits (h : x.switched = false ∨ x.doneRx = false) : s.swapCheck p = s := by
  have hcond : (x.switched && x.doneRx) = false := by
    rcases h with h | h <;> simp [h]
  simp only [State.swapCheck, hx, hcond, Bool.false_eq_true, if_false]

/-- Step 6 follows once both ends have switched. -/
theorem State.swapCheck_finishes (hsw : x.switched = true) (hdone : x.doneRx = true) : s.swapCheck p = s.swapFinish p x := by
  simp only [State.swapCheck, hx, hsw, hdone, Bool.and_self, if_true]

/-- The receiver takes the logical lane from the hot spare and says so on both lanes (R70 steps 4 and 5). -/
theorem swapAligned_switches {run : Nat} {skew : Int} (hack : x.acked = true) (hsw : x.switched = false) (hdone : x.doneRx = false)
    (hrun : 4 ≤ run) (hskew : skew.natAbs ≤ 2000) :
    Runs (.swapAligned p run skew) s fun t =>
      t.swapOf p = some { x with switched := true } ∧ t.laneMap = s.laneMap ∧ (t.px p).rxOld = some (x.logical, x.oldLane, s.now) ∧
      t.out = .lmos x.spare (lmosBlock 0x04 x.logical 0 x.tag) :: .lmos x.oldLane (lmosBlock 0x04 x.logical 0 x.tag) :: s.out := by
  have hcond : (x.switched || !x.acked || decide (run < 4) || decide (2000 < skew.natAbs)) = false := by
    simp [hack, hsw, hrun, hskew]
  have hgo : execSwapAligned p run skew s =
      .next (((s.swapSwitched p x skew).setSwap p (some { x with switched := true })).swapCheck p) := by
    simp only [execSwapAligned, hx, hcond, Bool.false_eq_true, if_false]
    rfl
  have hswap : ((s.swapSwitched p x skew).setSwap p (some { x with switched := true })).swapOf p = some { x with switched := true } :=
    State.swapOf_setSwap ..
  rw [State.swapCheck_waits hswap (.inr hdone)] at hgo
  have hpx : ((s.swapSwitched p x skew).px p).rxOld = some (x.logical, x.oldLane, s.now) := by
    unfold State.swapSwitched
    rw [State.px_updPort]
    rfl
  exact Runs.of_exec hgo ⟨hswap, rfl, hpx, rfl⟩

/-- SWAP_DONE before this end has switched is kept (R70). -/
theorem swapDoneReceive_early {b : BitVec 66} {m : Lmos} (hm : lmosIs 0x04 b = some m) (hlogical : m.logical = x.logical)
    (hsw : x.switched = false) :
    Runs (.swapDoneReceive p b) s fun t => t.swapOf p = some { x with doneRx := true } ∧ t.laneMap = s.laneMap := by
  have hswap : (s.setSwap p (some { x with doneRx := true })).swapOf p = some { x with doneRx := true } := State.swapOf_setSwap ..
  have hgo : execSwapDoneReceive p b s = .next (s.setSwap p (some { x with doneRx := true })) := by
    simp only [execSwapDoneReceive, hm, hx, hlogical, if_true, State.swapCheck_waits hswap (.inl hsw)]
  exact Runs.of_exec hgo ⟨hswap, rfl⟩

/-- SWAP_DONE after this end has switched finishes the swap (R70 step 6). -/
theorem swapDoneReceive_finishes {b : BitVec 66} {m : Lmos} (hm : lmosIs 0x04 b = some m) (hlogical : m.logical = x.logical)
    (hsw : x.switched = true) (hne : x.oldLane ≠ x.spare) (hsecond : (s.px p).second = none) :
    Runs (.swapDoneReceive p b) s fun t =>
      t.swapOf p = none ∧ t.laneState x.oldLane = (if x.byCmd then 4 else 5) ∧ t.laneState x.spare = 3 ∧ t.laneOf p x.logical = x.spare ∧
      t.spareOf p = (if x.byCmd then x.oldLane else 544) ∧ t.rd (F.LANE_SWAP_STATUS_LAST (p / 32)) = 1 ∧
      t.intBit .lane (p / 32) 2 = true := by
  have hk : x.logical ≠ 8 := hlogical ▸ (lmosIs_logical_lt hm).ne
  have hswap : (s.setSwap p (some { x with doneRx := true })).swapOf p = some { x with doneRx := true } := State.swapOf_setSwap ..
  have hgo : execSwapDoneReceive p b s =
      .next ((s.setSwap p (some { x with doneRx := true })).swapFinish p { x with doneRx := true }) := by
    simp only [execSwapDoneReceive, hm, hx, hlogical, if_true, State.swapCheck_finishes hswap hsw rfl]
  exact Runs.of_exec hgo (State.swapFinish_lanes _ p { x with doneRx := true } hne hk hsecond)

/-- SWAP_ABORT of the swap's logical lane ends it (R72). -/
theorem swapAbortReceive_ends {b : BitVec 66} {m : Lmos} (hm : lmosIs 0x05 b = some m) (hlogical : m.logical = x.logical) :
    Runs (.swapAbortReceive p b) s fun t =>
      t.swapOf p = none ∧ t.rd (F.LANE_SWAP_STATUS_LAST (p / 32)) = 3 ∧ t.laneMap = s.laneMap ∧ t.intBit .lane (p / 32) 3 = true ∧
      t.laneState x.oldLane = s.laneState x.oldLane := by
  have hgo : execSwapAbortReceive p b s = .next (s.swapAbort p 3 false) := by
    simp only [execSwapAbortReceive, hm, hx, hlogical, if_true]
  obtain ⟨hswap, hlast, hmap, hint, hstate⟩ := State.swapAbort_ends hx (show 3 < 8 by decide) false
  exact Runs.of_exec hgo ⟨hswap, hlast, hmap, hint, hstate _⟩

/-- SWAP_TIMEOUT before its time changes nothing (R72). -/
theorem swapTimeout_early (h : s.now - x.start < max 1 (s.rd (F.LANE_SWAP_CFG_TIMEOUT (p / 32))) * 1600) :
    Runs (.swapTimeout p) s fun t => t = s := by
  refine ⟨s, ?_, rfl⟩
  change execSwapTimeout p s = _
  simp only [execSwapTimeout, hx, ge_iff_le, if_neg (Nat.not_le.2 h)]

/-- A swap that takes too long is aborted (R72). -/
theorem swapTimeout_due (h : max 1 (s.rd (F.LANE_SWAP_CFG_TIMEOUT (p / 32))) * 1600 ≤ s.now - x.start) :
    Runs (.swapTimeout p) s fun t =>
      t.swapOf p = none ∧ t.rd (F.LANE_SWAP_STATUS_LAST (p / 32)) = 2 ∧ t.laneMap = s.laneMap ∧ t.intBit .lane (p / 32) 3 = true := by
  have hgo : execSwapTimeout p s = .next (s.swapAbort p 2 true) := by
    simp only [execSwapTimeout, hx, ge_iff_le, if_pos h]
  obtain ⟨hswap, hlast, hmap, hint, -⟩ := State.swapAbort_ends hx (show 2 < 8 by decide) true
  exact Runs.of_exec hgo ⟨hswap, hlast, hmap, hint⟩

end Swapping

/-! ### The statement -/

/-- Settles O48: each command by its own lemma, by whether a swap runs at the port. That the lane map names lanes apart from the hot spare
holds because a message names one of eight logical lanes (`lmosIs_logical_lt`). -/
theorem laneSwaps : Obligations.LaneSwaps := by
  unfold Obligations.LaneSwaps
  intro s p
  refine ⟨?window, ?request, ?noSwap, ?swapping⟩
  case window =>
    rintro l words corner _ rfl _ rfl
    refine ⟨swapWindowClose_counts s l words corner, fun hmode hstate harm hgood hber => ?_, fun hmode hstate harm hbad hwin => ?_⟩
    · have hrun : s.windowRun l words = 0 := by
        unfold State.windowRun State.windowBad State.windowBits
        simp [hgood, hber]
      obtain ⟨hfail, hbits, -, hlane⟩ := s.windowJudged_lane l words corner
      exact Runs.of_exec (execSwapWindowClose_judged s l words corner hmode (.inl hstate) harm (.inr hrun))
        ⟨hfail.trans hrun, hbits, hlane.trans hstate⟩
    · have hrun : s.windowRun l words = min 15 (s.rd (F.LANE_ERR_FAIL_RUN l) + 1) := by
        unfold State.windowRun State.windowBad
        simp [hbad]
      obtain ⟨hfail, -, huncorr, hlane⟩ := s.windowJudged_lane l words corner
      exact Runs.of_exec (execSwapWindowClose_judged s l words corner hmode hstate harm (.inl hwin)) ⟨hfail.trans hrun, huncorr, hlane⟩
  case request =>
    refine fun b byCmd => ⟨swapReqReceive_ignored, fun m hm hs => ⟨fun a ha => swapReqReceive_again hm hs ha, fun hr =>
      ⟨fun hsp => swapReqReceive_spareless hm hs hr hsp, fun hsp nak hnak => ⟨fun hx => ?_, fun x hx => ?_⟩⟩⟩⟩
    · exact swapReqReceive_idle hm hs hr hsp hx hnak
    · exact swapReqReceive_swapping hm hs hr hsp hx hnak
  case noSwap =>
    exact fun hx => ⟨fun b => ⟨swapAckReceive_none hx b, swapNakReceive_none hx b, swapDoneReceive_none hx b, swapAbortReceive_none hx b,
      fun x hdone hne m hm hlogical htag => swapAbortReceive_undoes hx hdone hne hm hlogical htag⟩, swapAligned_none hx, swapTimeout_none hx⟩
  case swapping =>
    refine fun x hx => ⟨?ack, ?nak, ?aligned, ?done, ?abort, swapTimeout_early hx, swapTimeout_due hx⟩
    case ack => exact fun b m hm hreq htag => swapAckReceive_acked hx hm hreq htag
    case nak => exact fun b m hm hreq htag hack => swapNakReceive_ends hx hm hreq htag hack
    case aligned => exact fun run skew => ⟨swapAligned_waits hx run skew, fun hack hsw hdone => swapAligned_switches hx hack hsw hdone⟩
    case done =>
      exact fun b m hm hlogical => ⟨fun hsw => swapDoneReceive_early hx hm hlogical hsw,
        fun hsw hne hsecond => swapDoneReceive_finishes hx hm hlogical hsw hne hsecond⟩
    case abort => exact fun b m hm hlogical => swapAbortReceive_ends hx hm hlogical

end Sys2Proof.Machine
end

section
/-! SUPPORT. A packet whose half counts free cells that no bank can give (R173, R180). -/

set_option Elab.async false

namespace Sys2Proof.Machine

/-- A frame of one octet from the host. -/
def octetFrame : RxFrame :=
  { port := 0x3FF, host := true, data := [0x07#8], bad := false, ts := 0, tsB := 0, t16 := 0, begun := 0, hdrs := [], payOff := 0,
    pfail := 0xF }

/-- `octetFrame` at the end of its pass, sent to queue 0 of port 0. -/
def octetFlight : Flight := { rx := octetFrame, md := { egressPort := 0 }, passes := 0, marked := false, dead := false }

/-- Every bank of the north half is RETIRED, while FREE of the half still counts cells; the shared pool has room, queue 0 takes what comes,
and `octetFlight` is the oldest packet of pipeline 0. -/
def banksRetired : State :=
  { (List.range 34).foldl (fun s b => s.wr (F.LAG_BANK_STATUS_STATE b) 3)
      ((State.reset.wr (F.LAG_POOL_SIZE 1) 1000).wr (F.LAG_Q_CFG_LOSSLESS 0) 1) with
    path := { pipes := [(0, [octetFlight])] } }

/-- The packet is stored without a cell. -/
theorem banksRetired_stores :
    Runs (.pipelineExit 0 0 0 []) banksRetired fun t => (mfind t.path.pkts banksRetired.path.nextPkt).map (·.cells) = some [] :=
  ⟨_, rfl, by decide +kernel⟩

/-- Refutes O33: its clause on admission takes FREE of the half for the cells that the banks can give, and promises every cell of the packet.
Where FREE counts cells of banks that are not ACTIVE the allocator has none to give (R173), and the packet is stored without
(`banksRetired`). -/
theorem not_packetExits : ¬ Obligations.PacketExits := by
  unfold Obligations.PacketExits
  intro h
  obtain ⟨-, hexit, -⟩ := h banksRetired 0 0 0 0 rfl
  obtain ⟨-, -, hadmit, -⟩ := hexit octetFlight [] rfl (.inl rfl)
  obtain ⟨t, ht, -, -, hcells, hstored, -⟩ := hadmit rfl rfl rfl rfl rfl rfl rfl rfl (by decide) (by decide) 0 rfl 0 rfl
    (by decide +kernel) rfl 1 rfl (by decide +kernel) (by decide +kernel) rfl (by decide +kernel) (by decide +kernel) (by decide +kernel)
  obtain ⟨z, hz⟩ := Option.isSome_iff_exists.1 hstored
  obtain ⟨-, -, -, -, hlen⟩ := hcells z hz
  obtain ⟨u, hu, hnone⟩ := banksRetired_stores
  rw [← Host.Outcome.next.inj (ht.symm.trans hu), hz] at hnone
  have hempty : z.cells = [] := Option.some.inj hnone
  rw [hempty] at hlen
  exact absurd hlen (by decide)

end Sys2Proof.Machine
end

section
/-! SUPPORT. A port comes up while the register file holds more than eight bits for its XOFF bits (R101, R109). -/

set_option Elab.async false

namespace Sys2Proof.Machine

/-- Port 0 is LINKING and has no lane to wait for. The register file holds 256 for its eight XOFF bits, which read 0. -/
def xoffBeyondField : State :=
  let s := State.reset.wr (F.PORT_STATUS_STATE 0) 2
  { s with regs := minsert s.regs (F.MAC_PFC_STATUS_TX_XOFF 0).key 256 }

/-- All that the register file holds at the place of the XOFF bits of port 0. -/
def xoffWhole : Fld := { F.MAC_PFC_STATUS_TX_XOFF 0 with width := 16 }

theorem xoffBeyondField_before : xoffBeyondField.rd xoffWhole = 256 := by decide +kernel

/-- Entering UP writes the XOFF bits again (R101), which cuts the value to the field. -/
theorem xoffBeyondField_linkUp : Runs (.portLinkUp 0 []) xoffBeyondField fun t => t.rd xoffWhole = 0 := ⟨_, rfl, by decide +kernel⟩

/-- Refutes O49: its clause on PORT_LINK_UP lets only STATE, SPARE_READY and the interrupt change where no XOFF is asked for or held, in
every state. The command writes the XOFF bits all the same; that shows in a register file whose value there is wider than the field
(`xoffBeyondField`), which the statement does not exclude. -/
theorem not_portCommands : ¬ Obligations.PortCommands := by
  unfold Obligations.PortCommands
  intro h
  obtain ⟨-, hlink, -⟩ := h xoffBeyondField 0
  obtain ⟨hup, -⟩ := hlink []
  obtain ⟨t, ht, -, -, -, -, -, -, -, hsame⟩ :=
    hup (by decide +kernel) (by decide +kernel) (.inl (by decide +kernel)) (by decide +kernel)
  obtain ⟨hreads, -⟩ := hsame (by decide +kernel) (by decide +kernel)
  have hkept : t.rd xoffWhole = xoffBeyondField.rd xoffWhole := hreads xoffWhole (by decide +kernel)
  obtain ⟨u, hu, hcut⟩ := xoffBeyondField_linkUp
  rw [← Host.Outcome.next.inj (ht.symm.trans hu), hkept, xoffBeyondField_before] at hcut
  exact absurd hcut (by decide)

end Sys2Proof.Machine
end


section
/-! SUPPORT. What a Dysum command answers, and what the answer leaves (R421 to R424, R426): one rule for a command that passes the checks, one
for a response, and one for an event. -/

set_option Elab.async false

namespace Sys2Proof.Machine

/-! ### Responses -/

/-- From `s` to `t`, beside the fields `fs`, only what a response changes differs. -/
def answersBy (fs : List Fld) (s t : State) : Prop :=
  changes fs s { t with out := s.out, msixPend := s.msixPend, dys := s.dys }

/-- The fields that the responses of all interfaces move (R421). -/
def allRspFields : List Fld := (List.range 35).map F.DYS_RSP_TAIL_TAIL

theorem rspFields_subset (via : Via) : ∀ f ∈ rspFields via, f ∈ allRspFields := by
  cases via with
  | ring k => exact fun f hf => List.mem_map.2 ⟨k.val, List.mem_range.2 k.isLt, (List.mem_singleton.1 hf).symm⟩
  | eth e => exact fun f hf => absurd hf List.not_mem_nil
  | i2c => exact fun f hf => absurd hf List.not_mem_nil

namespace answersBy

variable {fs : List Fld} {s t u : State}

theorem trans (h : answersBy fs s t) (k : answersBy fs t u) : answersBy fs s u := by
  obtain ⟨hreads, hrest⟩ := h
  obtain ⟨kreads, krest⟩ := k
  refine ⟨fun f hf => (kreads f hf).trans (hreads f hf), ?_⟩
  exact (congrArg (fun x : State => { x with regs := s.regs, out := s.out, msixPend := s.msixPend, dys := s.dys }) krest).trans hrest

theorem mono {gs : List Fld} (h : answersBy fs s t) (k : ∀ f ∈ fs, f ∈ gs) : answersBy gs s t := changes.mono h k

theorem of_changes (h : changes fs s t) : answersBy fs s t := by
  obtain ⟨hreads, hrest⟩ := h
  exact ⟨hreads, congrArg (fun x : State => { x with out := s.out, msixPend := s.msixPend, dys := s.dys }) hrest⟩

/-- What differs in the messages and in the Dysum processor only. -/
theorem aside (hregs : t.regs = s.regs) (hrest : { t with regs := s.regs, out := s.out, msixPend := s.msixPend, dys := s.dys } = s) :
    answersBy fs s t := ⟨(readsBut.refl s).congr hregs, hrest⟩

theorem foldl {α : Type} {g : State → α → State} {l : List α} (h : answersBy fs s t) (hg : ∀ v x, answersBy fs v (g v x)) :
    answersBy fs s (l.foldl g t) := by
  induction l generalizing t with
  | nil => exact h
  | cons x l ih => exact ih (h.trans (hg t x))

/-- Fields outside `fs` read as before. -/
theorem rd_eq (h : answersBy fs s t) {f : Fld} (hf : ∀ g ∈ fs, f.reg ≠ g.reg) : t.rd f = s.rd f :=
  h.1 f fun g hg e => hf g hg (Fld.key_eq.1 e).1

theorem ras_eq (h : answersBy fs s t) : t.ras = s.ras := (congrArg State.ras h.2 :)

theorem spareMap_eq (h : answersBy fs s t) : t.spareMap = s.spareMap := (congrArg State.spareMap h.2 :)

end answersBy

theorem State.ethRespond_answersBy (s : State) (e : Nat) (r : Rsp) : answersBy [] s (s.ethRespond e r) := by
  unfold State.ethRespond
  dsimp only
  split
  · exact .aside rfl rfl
  · split
    · exact .aside rfl rfl
    · exact .aside rfl rfl

theorem State.sendVector_answersBy (s : State) (k v : Nat) : answersBy [] s (s.sendVector k v) :=
  .aside (State.sendVector_regs ..) (congrArg (fun x : State => { x with regs := s.regs, dys := s.dys }) (State.sendVector_rest s k v))

theorem State.ringRespond_answersBy (s : State) (k : Nat) (r : Rsp) : answersBy [F.DYS_RSP_TAIL_TAIL k] s (s.ringRespond k r) := by
  unfold State.ringRespond
  split
  · exact .aside rfl rfl
  · extract_lets t at_ ph s1 n s2 dys s3
    have h1 : answersBy [F.DYS_RSP_TAIL_TAIL k] s s1 := .aside rfl rfl
    have h2 : answersBy [F.DYS_RSP_TAIL_TAIL k] s1 s2 := .of_changes ((changes.refl s1).wr List.mem_cons_self _)
    clear_value s2
    have h3 : answersBy [F.DYS_RSP_TAIL_TAIL k] s2 s3 := by
      unfold s3
      split
      · exact .aside rfl rfl
      · exact .aside rfl rfl
    exact h1.trans (h2.trans (h3.trans ((State.sendVector_answersBy ..).mono fun _ hf => absurd hf List.not_mem_nil)))

/-- A response moves the tail of its ring, and beside that only messages and the Dysum processor (R421). -/
theorem State.respond_answersBy (s : State) (via : Via) (r : Rsp) : answersBy (rspFields via) s (s.respond via r) := by
  cases via with
  | ring k => exact State.ringRespond_answersBy ..
  | eth e => exact State.ethRespond_answersBy ..
  | i2c => exact .aside rfl rfl

/-- The responses to long commands (R429). -/
theorem State.finishHold_answersBy (s : State) (kind ix status state detail : Nat) :
    answersBy allRspFields s (s.finishHold kind ix status state detail) := by
  unfold State.finishHold
  exact answersBy.foldl (.aside rfl rfl) fun _ _ => (State.respond_answersBy ..).mono (rspFields_subset _)

/-- Where no command holds its interface, none is answered. -/
theorem State.finishHold_of_noHolds {s : State} (h : s.dys.holds = []) (kind ix status state detail : Nat) :
    s.finishHold kind ix status state detail = s := by
  have hdys : { s.dys with holds := [] } = s.dys := by rw [← h]
  unfold State.finishHold
  rw [h, List.filter_nil, List.filter_nil, List.foldl_nil, hdys]

/-! ### Commands -/

/-- The answer of a command, with what its effect has changed. -/
theorem State.dysAnswer_answers {u : State} {h : DysHdr} {fs : List Fld} (code : Nat) {a : DysAns} (hst : changes fs u a.st) :
    answers h fs u (State.dysAnswer h code a) := by
  have hresult : answersBy fs a.st (if h.indirect && !a.result.isEmpty then
      a.st.emit (.hostWrite (match h.via with
        | .ring k => pairOwner k.val
        | _ => 0) h.resAddr (a.result.take h.resLen))
    else a.st) := by
    split
    · exact .aside rfl rfl
    · exact .aside rfl rfl
  have hall : answersBy (fs ++ rspFields h.via) a.st (State.dysAnswer h code a) :=
    (hresult.mono fun _ => List.mem_append_left _).trans ((State.respond_answersBy ..).mono fun _ => List.mem_append_right _)
  exact ((answersBy.of_changes hst).mono fun _ => List.mem_append_left _).trans hall

/-- A command that is taken and passes the checks of R426 has the effect that its body gives, and is answered unless it holds its
interface. -/
theorem State.dysCmd_passes {s u : State} {h : DysHdr} (htake : s.dysTake h.via = some u) (hready : u.ready = true) (hsuits : h.suits = true)
    {r : DysRule} (hlevel : r.level ≤ levelOf h.via) (hauth : r.auth = true) (hobject : r.object = true) (body : State → DysAns) :
    s.dysCmd h r body = if (body u).held then (body u).st else State.dysAnswer h r.code (body u) := by
  unfold State.dysCmd State.dysRun
  simp only [htake, hready, hsuits, hauth, hobject, Nat.not_lt.2 hlevel, Bool.not_true, Bool.false_and, Bool.false_eq_true, decide_false,
    Bool.or_self, if_false]
  split
  · rfl
  · rfl

/-! ### Events -/

theorem readsOff.mono {rs qs : List RegName} {s t : State} (h : readsOff rs s t) (k : ∀ r ∈ rs, r ∈ qs) : readsOff qs s t :=
  fun f hf => h f fun hr => hf (k _ hr)

theorem readsOff.ite {rs : List RegName} {s0 s t : State} {c : Prop} [Decidable c] (h : readsOff rs s0 s) (k : readsOff rs s0 t) :
    readsOff rs s0 (if c then s else t) := by
  split
  · exact h
  · exact k

/-- The registers that an event writes (R436 to R442, R453). -/
def eventRegs : List RegName := [.RAS_CLASS_CNT, .RAS_INT_STATUS, .RAS_LOG_WR, .RAS_LOG_OVERRUN, .RAS_TM_IGNORED]

section Event

variable (s : State)

theorem State.logWrite_readsOff (c code unit detail : Nat) (inj : Bool) : readsOff eventRegs s (s.logWrite c code unit detail inj) := by
  have hself := readsOff.refl (rs := eventRegs) s
  unfold State.logWrite
  refine readsOff.ite (hself.congr rfl) ?_
  extract_lets seq e old s1 s2 s3
  have h1 : readsOff eventRegs s s1 := readsOff.ite (hself.wr (f := F.RAS_LOG_OVERRUN_COUNT) (by decide) _) hself
  have h2 : readsOff eventRegs s s2 := h1.wr (f := F.RAS_LOG_WR_SEQ) (by decide) _
  have h3 : readsOff eventRegs s s3 := h2.congr rfl
  exact readsOff.ite (h3.congr rfl) h3

theorem State.tidemark_readsOff (src logSeq : Nat) : readsOff eventRegs s (s.tidemark src logSeq) := by
  have hself := readsOff.refl (rs := eventRegs) s
  unfold State.tidemark
  exact readsOff.ite hself (readsOff.ite (hself.congr rfl)
    (readsOff.ite (hself.wr (f := F.RAS_TM_IGNORED_COUNT) (by decide) _) (hself.congr rfl)))

/-- What an event writes in the register file (R436 to R442). -/
theorem State.event_readsOff (c code unit detail : Nat) (inj : Bool) : readsOff eventRegs s (s.event c code unit detail inj) := by
  unfold State.event
  extract_lets s1 s2 s3 s4
  have h2 : readsOff eventRegs s s2 :=
    ((readsOff.refl s).wr (f := F.RAS_CLASS_CNT_COUNT c) (show RegName.RAS_CLASS_CNT ∈ eventRegs by decide) _).raise (b := .ras) (i := 0) (by decide) c
  have h3 : readsOff eventRegs s s3 := h2.trans (State.logWrite_readsOff _ _ _ _ _ _)
  have h4 : readsOff eventRegs s s4 := readsOff.ite h2 (readsOff.ite (h3.trans (State.tidemark_readsOff _ _ _)) h3)
  exact readsOff.ite (h4.congr rfl) h4

theorem State.logWrite_ras (c code unit detail : Nat) (inj : Bool) : (s.logWrite c code unit detail inj).ras = s.ras := by
  unfold State.logWrite
  extract_lets seq e old s1 s2 s3
  have h1 : s1.ras = s.ras := by
    unfold s1
    split <;> rfl
  split
  · rfl
  · split <;> exact h1

theorem State.tidemark_returning (src logSeq : Nat) : (s.tidemark src logSeq).ras.returning = s.ras.returning := by
  unfold State.tidemark
  dsimp only
  split_ifs <;> rfl

/-- An event leaves the RETURN test that runs. -/
theorem State.event_returning (c code unit detail : Nat) (inj : Bool) :
    (s.event c code unit detail inj).ras.returning = s.ras.returning := by
  unfold State.event
  extract_lets s1 s2 s3 s4
  have h2 : s2.ras = s.ras := State.raise_ras ..
  have h3 : s3.ras = s.ras := (State.logWrite_ras ..).trans h2
  have h4 : s4.ras.returning = s.ras.returning := by
    unfold s4
    split_ifs
    · rw [h2]
    · rw [State.tidemark_returning, h3]
    · rw [h3]
  split
  · exact h4
  · exact h4

end Event

end Sys2Proof.Machine
end

section
/-! SUPPORT. The port and sparing commands of Dysum (R76, R109, R110, R365, R444, R449 to R451), and their statement. -/

set_option Elab.async false

namespace Sys2Proof.Machine

/-! ### BUSY and the policy -/

/-- BUSY shows what was written (R451). -/
theorem State.on_wrB_busy (s : State) (b : Bool) : (s.wrB F.RAS_SPARE_STATUS_BUSY b).on F.RAS_SPARE_STATUS_BUSY = b := by
  unfold State.on
  rw [State.rd_wrB_self _ _ _ (show 0 < 1 by decide)]
  cases b <;> rfl

/-- The policy after SPARE_POLICY has written MODE and ASK_KINDS; a MODE that stays is not written. -/
def State.policySet (s : State) (m ask : Nat) : State :=
  let s := s.wr F.RAS_SPARE_POLICY_ASK_KINDS ask
  if s.rd F.RAS_SPARE_POLICY_MODE = m then s else s.setSpareMode m

/-- MODE and ASK_KINDS hold their values, and nothing else has changed, unless the policy is turned off (R449). -/
theorem State.policySet_holds (s : State) {m ask : Nat} (hm : m ≤ 1) (hask : ask < 256) :
    (s.policySet m ask).rd F.RAS_SPARE_POLICY_MODE = m ∧ (s.policySet m ask).rd F.RAS_SPARE_POLICY_ASK_KINDS = ask ∧
      changes [F.RAS_SPARE_POLICY_MODE, F.RAS_SPARE_POLICY_ASK_KINDS] s (s.policySet m ask) := by
  have hwritten : (s.wr F.RAS_SPARE_POLICY_ASK_KINDS ask).rd F.RAS_SPARE_POLICY_ASK_KINDS = ask :=
    (State.rd_wr_self ..).trans (Nat.mod_eq_of_lt hask)
  have hchanges : changes [F.RAS_SPARE_POLICY_MODE, F.RAS_SPARE_POLICY_ASK_KINDS] s (s.wr F.RAS_SPARE_POLICY_ASK_KINDS ask) :=
    (changes.refl s).wr (List.mem_cons_of_mem _ List.mem_cons_self) ask
  have hmode : ∀ t : State, t.setSpareMode m = t.wr F.RAS_SPARE_POLICY_MODE m := fun t => if_neg (by omega)
  unfold State.policySet
  extract_lets t
  split
  case isTrue hsame => exact ⟨hsame, hwritten, hchanges⟩
  case isFalse =>
    rw [hmode]
    exact ⟨(State.rd_wr_self ..).trans (Nat.mod_eq_of_lt (show m < 2 ^ 2 by omega)),
      (State.rd_wr_of_lo_ne _ _ (by decide)).trans hwritten, hchanges.wr List.mem_cons_self m⟩

theorem rspFields_reg (via : Via) : ∀ f ∈ rspFields via, f.reg = .DYS_RSP_TAIL := fun f hf => by
  obtain ⟨k, -, rfl⟩ := List.mem_map.1 (rspFields_subset via f hf)
  rfl

/-- A response leaves the policy. -/
theorem State.dysAnswer_policy (h : DysHdr) (code : Nat) (a : DysAns) {f : Fld} (hf : f.reg = .RAS_SPARE_POLICY) :
    (State.dysAnswer h code a).rd f = a.st.rd f := by
  have hanswers : answersBy (rspFields h.via) a.st (State.dysAnswer h code a) :=
    State.dysAnswer_answers (fs := []) code (changes.refl a.st)
  refine hanswers.rd_eq fun g hg => ?_
  rw [hf, rspFields_reg h.via g hg]
  decide

/-! ### Commands of an owner and of an operator -/

section Taken

variable {s u : State} {h : DysHdr} (htake : s.dysTake h.via = some u) (hready : u.ready = true) (hsuits : h.suits = true)
  (hform : dysBadForm h = false)
include htake hready hsuits

/-- A command that passes the checks and whose body answers at once ends in its response. -/
theorem Runs.of_dysAnswer {c : Instr} {r : DysRule} {body : State → DysAns} {a : DysAns} {p : State → Prop}
    (hexec : exec c s = .next (s.dysCmd h r body)) (hlevel : r.level ≤ levelOf h.via) (hauth : r.auth = true) (hobject : r.object = true)
    (hbody : body u = a) (hheld : a.held = false) (hp : p (State.dysAnswer h r.code a)) : Runs c s p := by
  refine Runs.of_exec hexec ?_
  rw [State.dysCmd_passes htake hready hsuits hlevel hauth hobject, hbody, hheld]
  exact hp

/-- A command that passes the checks and goes on after its acceptance ends without a response (R424). -/
theorem Runs.of_dysHeld {c : Instr} {r : DysRule} {body : State → DysAns} {a : DysAns} {p : State → Prop}
    (hexec : exec c s = .next (s.dysCmd h r body)) (hlevel : r.level ≤ levelOf h.via) (hauth : r.auth = true) (hobject : r.object = true)
    (hbody : body u = a) (hheld : a.held = true) (hp : p a.st) : Runs c s p := by
  refine Runs.of_exec hexec ?_
  rw [State.dysCmd_passes htake hready hsuits hlevel hauth hobject, hbody, hheld]
  exact hp

/-! ### Ports -/

omit htake hready hsuits in
/-- An owner may do what an operator may (R430). -/
theorem operator_le_owner (howner : levelOf h.via = lvOwner) : lvOperator ≤ levelOf h.via := howner ▸ show lvOperator ≤ lvOwner by decide

section Owner

variable (howner : levelOf h.via = lvOwner) (hport : h.object < 512)
include howner hport

theorem portDefine_conflict (d : PortDef) (hstate : 1 < u.portState h.object) :
    Runs (.portDefine h d) s fun t =>
      t = State.dysAnswer h 0x0010 { st := u, status := stConflict, state := u.portState h.object } :=
  Runs.of_dysAnswer htake hready hsuits rfl (operator_le_owner howner) (by simp [howner]) (by simpa using hport)
    (by simp only [gt_iff_lt, hstate, if_true]) rfl rfl

theorem portEnable_undefined (hstate : u.portState h.object = 0) :
    Runs (.portEnable h true) s fun t => t = State.dysAnswer h 0x0011 { st := u, status := stConflict } :=
  Runs.of_dysAnswer htake hready hsuits rfl (operator_le_owner howner) rfl (by simpa using hport) (by simp only [hstate, if_true]) rfl rfl

include hform

theorem portDefine_defines (d : PortDef) (hstate : u.portState h.object ≤ 1) (hwidth : d.width ≠ 0)
    (hok : u.formError { d with port := h.object } = 0) :
    Runs (.portDefine h d) s fun t =>
      t = State.dysAnswer h 0x0010 { st := u.define { d with port := h.object }, state := 1 } :=
  Runs.of_dysAnswer htake hready hsuits rfl (operator_le_owner howner) (by simp [howner]) (by simpa using hport)
    (by simp only [gt_iff_lt, Nat.not_lt.2 hstate, hform, hwidth, hok, if_false, Bool.false_eq_true]) rfl rfl

theorem portDefine_undefines (d : PortDef) (hstate : u.portState h.object = 1) (hwidth : d.width = 0) :
    Runs (.portDefine h d) s fun t => t = State.dysAnswer h 0x0010 { st := u.undefine h.object } :=
  Runs.of_dysAnswer htake hready hsuits rfl (operator_le_owner howner) (by simp [howner]) (by simpa using hport)
    (by simp [hstate, hform, hwidth]) rfl rfl

theorem portEnable_enables (hstate : u.portState h.object = 1) :
    Runs (.portEnable h true) s fun t =>
      t = State.dysAnswer h 0x0011 { st := u.portOn h.object, state := (u.portOn h.object).portState h.object } :=
  Runs.of_dysAnswer htake hready hsuits rfl (operator_le_owner howner) rfl (by simpa using hport) (by simp [hstate, hform]) rfl rfl

theorem portEnable_disables (hstate : 1 < u.portState h.object) :
    Runs (.portEnable h false) s fun t =>
      t = State.dysAnswer h 0x0011 { st := u.portOff h.object, state := (u.portOff h.object).portState h.object } := by
  have hdefined : u.portState h.object ≠ 0 := by omega
  have henabled : u.portState h.object ≠ 1 := by omega
  exact Runs.of_dysAnswer htake hready hsuits rfl (operator_le_owner howner) rfl (by simpa using hport) (by simp [hdefined, henabled, hform]) rfl
    rfl

end Owner

/-! ### Sparing -/

section Operator

variable (hlevel : lvOperator ≤ levelOf h.via) {kind o : Nat} (hkind : kind = h.object / 2 ^ 28) (ho : o = h.object % 2 ^ 28)
  (hobject : objectOk kind o = true)
include hlevel

/-- MODE and ASK_KINDS take their values (R449). -/
theorem sparePolicy_sets {m ask : Nat} (hform : dysBadForm h = false) (hm : m ≤ 1) (hask : ask < 256)
    (hbusy : u.on F.RAS_SPARE_STATUS_BUSY = false) :
    Runs (.sparePolicy h (.mode m ask)) s fun t =>
      t.rd F.RAS_SPARE_POLICY_MODE = m ∧ t.rd F.RAS_SPARE_POLICY_ASK_KINDS = ask ∧
        answers h [F.RAS_SPARE_POLICY_MODE, F.RAS_SPARE_POLICY_ASK_KINDS] u t := by
  obtain ⟨hmode, hkinds, hchanges⟩ := u.policySet_holds hm hask
  have hrange : (decide (m > 2) || decide (ask ≥ 256)) = false := by
    simp only [Bool.or_eq_false_iff, decide_eq_false_iff_not]
    omega
  exact Runs.of_dysAnswer htake hready hsuits (a := { st := u.policySet m ask }) rfl hlevel rfl rfl
    (by simp only [hbusy, hform, hrange, Bool.false_and, Bool.false_eq_true, if_false, Bool.or_false, State.policySet]) rfl
    ⟨(State.dysAnswer_policy h 0x0021 _ rfl).trans hmode, (State.dysAnswer_policy h 0x0021 _ rfl).trans hkinds,
      State.dysAnswer_answers 0x0021 hchanges⟩

include hkind ho hobject

theorem spareSwap_conflict (h7 : kind < 7) (hcan : u.canReplace kind o = false) :
    Runs (.spareSwap h) s fun t => t = State.dysAnswer h 0x0020 { st := u, status := stConflict, state := u.objectState kind o } :=
  Runs.of_dysAnswer htake hready hsuits rfl hlevel rfl (by simpa only [← hkind, ← ho] using hobject)
    (by simp only [← hkind, ← ho, h7.ne, hcan, if_false, Bool.not_false, if_true]) rfl rfl

theorem sparePolicy_dismisses (hform : dysBadForm h = false) {n : Nat} (hslot : u.requestSlot kind o = some n) :
    Runs (.sparePolicy h .dismiss) s fun t => t = State.dysAnswer h 0x0021 { st := u.requestClear n, state := u.objectState kind o } :=
  Runs.of_dysAnswer htake hready hsuits rfl hlevel rfl (by simpa only [← hkind, ← ho] using hobject)
    (by simp only [← hkind, ← ho, hslot, hform, Bool.false_eq_true, if_false]) rfl rfl

/-- A replacement that may start holds its ring (R424, R450). -/
theorem spareSwap_starts (hform : dysBadForm h = false) (h7 : kind < 7) (hcan : u.canReplace kind o = true) :
    Runs (.spareSwap h) s fun t =>
      t = ((u.requestRemove kind o).addHold h 0x0020 (if kind = 0 then holdLane else holdSpare kind)
        (if kind = 0 then (laneObj o).1 else o)).startReplace kind o true := by
  have hhold : (u.requestRemove kind o).addHold h 0x0020 (if kind = 0 then holdLane else holdSpare kind) (if kind = 0 then (laneObj o).1 else o)
      = if kind = 0 then (u.requestRemove kind o).addHold h 0x0020 holdLane (laneObj o).1
        else (u.requestRemove kind o).addHold h 0x0020 (holdSpare kind) o := by
    by_cases h0 : kind = 0
    · simp only [h0, if_true]
    · simp only [h0, if_false]
  rw [hhold]
  exact Runs.of_dysHeld htake hready hsuits
    (a := ⟨State.startReplace (if kind = 0 then (u.requestRemove kind o).addHold h 0x0020 holdLane (laneObj o).1
      else (u.requestRemove kind o).addHold h 0x0020 (holdSpare kind) o) kind o true, stOk, 0, 0, [], true⟩)
    rfl hlevel rfl (by simpa only [← hkind, ← ho] using hobject)
    (by simp only [← hkind, ← ho, h7.ne, hcan, hform, if_false, Bool.not_true, Bool.false_eq_true]) rfl rfl

/-- A FAILED or RETIRED resource is tested before it returns (R451). -/
theorem spareReturn_tests (hform : dysBadForm h = false) (hfailed : u.returnable kind o = true) (hidle : u.ras.returning = none) :
    Runs (.spareReturn h) s fun t =>
      t.ras.returning = some h.object ∧ t.on F.RAS_SPARE_STATUS_BUSY = true ∧
        changes [F.RAS_SPARE_STATUS_BUSY] u { t with ras := u.ras, dys := u.dys } :=
  Runs.of_dysHeld htake hready hsuits
    (a := ⟨((u.addHold h 0x0021 holdReturn h.object).wrB F.RAS_SPARE_STATUS_BUSY true).updRas
      (fun r => { r with returning := some h.object }), stOk, 0, 0, [], true⟩)
    rfl hlevel rfl (by simpa only [← hkind, ← ho] using hobject)
    (by simp only [← hkind, ← ho, hfailed, hform, hidle, Option.isSome_none, Bool.not_true, Bool.false_eq_true, if_false]) rfl
    ⟨rfl, State.on_wrB_busy (u.addHold h 0x0021 holdReturn h.object) true, (changes.refl u).wrB List.mem_cons_self true⟩

end Operator

end Taken

/-! ### The end of a RETURN test -/

/-- The test that runs has ended (R451). -/
def State.returnEnds (s : State) : State := (s.updRas (fun r => { r with returning := none })).wrB F.RAS_SPARE_STATUS_BUSY false

/-- The answers to long commands leave every register but the tails of the response rings. -/
theorem State.finishHold_reads (s : State) (kind ix status state detail : Nat) {f : Fld} (hf : f.reg ≠ .DYS_RSP_TAIL) :
    (s.finishHold kind ix status state detail).rd f = s.rd f := by
  refine (State.finishHold_answersBy ..).rd_eq fun g hg => ?_
  obtain ⟨k, -, rfl⟩ := List.mem_map.1 hg
  exact hf

theorem State.finishHold_on (s : State) (kind ix status state detail : Nat) :
    (s.finishHold kind ix status state detail).on F.RAS_SPARE_STATUS_BUSY = s.on F.RAS_SPARE_STATUS_BUSY := by
  have hread : (s.finishHold kind ix status state detail).rd F.RAS_SPARE_STATUS_BUSY = s.rd F.RAS_SPARE_STATUS_BUSY :=
    State.finishHold_reads _ _ _ _ _ _ (show RegName.RAS_SPARE_STATUS ≠ .DYS_RSP_TAIL by decide)
  simp only [State.on, hread]

/-- A bank that returns is in RESERVE; the test that has ended and BUSY stay as they are (R175, R451). -/
theorem State.returnTo_bank (s : State) (o : Nat) :
    (s.returnTo 2 o).ras.returning = s.ras.returning ∧ (s.returnTo 2 o).on F.RAS_SPARE_STATUS_BUSY = s.on F.RAS_SPARE_STATUS_BUSY ∧
      (s.returnTo 2 o).rd (F.LAG_BANK_STATUS_STATE o) = 1 := by
  set b := (s.mapRecord 2 (s.mapObject 2 o) 0).wr (F.LAG_BANK_STATUS_STATE o) 1
  set t := ((b.wrapAdd (F.LAG_HALF_STATUS_RESERVE_LEFT (o / 34)) 1).wrapAdd (F.RAS_SPARE_SUMMARY_FREE 2) 1).subFrom
    (F.RAS_SPARE_SUMMARY_HI_FAILED 2) 1
  have hevent : s.returnTo 2 o = t.event notice (codeOf .lag 0 0x87) o (objectWord 2 o) := rfl
  have hcounts : readsOff ([.LAG_HALF_STATUS, .RAS_SPARE_SUMMARY, .RAS_SPARE_SUMMARY_HI] ++ eventRegs) b t :=
    (((readsOff.refl b).wr (f := F.LAG_HALF_STATUS_RESERVE_LEFT (o / 34)) (show RegName.LAG_HALF_STATUS ∈ _ by decide) _).wr
      (f := F.RAS_SPARE_SUMMARY_FREE 2) (show RegName.RAS_SPARE_SUMMARY ∈ _ by decide) _).wr
      (f := F.RAS_SPARE_SUMMARY_HI_FAILED 2) (show RegName.RAS_SPARE_SUMMARY_HI ∈ _ by decide) _
  have hreads : readsOff ([.LAG_HALF_STATUS, .RAS_SPARE_SUMMARY, .RAS_SPARE_SUMMARY_HI] ++ eventRegs) b (s.returnTo 2 o) := by
    rw [hevent]
    exact hcounts.trans ((State.event_readsOff _ _ _ _ _ _).mono (by decide))
  refine ⟨?_, ?_, ?_⟩
  · rw [hevent, State.event_returning]
    rfl
  · have hbusy : b.rd F.RAS_SPARE_STATUS_BUSY = s.rd F.RAS_SPARE_STATUS_BUSY :=
      State.rd_wr_of_reg_ne _ _ (show RegName.RAS_SPARE_STATUS ≠ .LAG_BANK_STATUS by decide)
    simp only [State.on, hreads F.RAS_SPARE_STATUS_BUSY (by decide), hbusy]
  · rw [hreads (F.LAG_BANK_STATUS_STATE o) (show RegName.LAG_BANK_STATUS ∉ _ by decide)]
    exact (State.rd_wr_self ..).trans rfl

section Test

variable {s : State} {w : Nat} (hw : s.ras.returning = some w)
include hw

/-- A test that fails ends with nothing but its answer (R451). -/
theorem returnTestDone_fails (step : BitVec 32) :
    Runs (.returnTestDone false step) s fun t =>
      t.ras.returning = none ∧ t.on F.RAS_SPARE_STATUS_BUSY = false ∧ t.spareMap = s.spareMap ∧
        (s.dys.holds = [] → changes [F.RAS_SPARE_STATUS_BUSY] s { t with ras := s.ras }) := by
  set u := s.returnEnds with hu
  have hexec : exec (.returnTestDone false step) s = .next (u.finishHold holdReturn w stNoResource
      (if w / 2 ^ 28 = 0 then 5 else u.objectState (w / 2 ^ 28) (w % 2 ^ 28)) step.toNat) := by
    change execReturnTestDone false step s = _
    simp only [execReturnTestDone, hw, Bool.false_and, Bool.false_eq_true, if_false, hu, State.returnEnds]
  refine Runs.of_exec hexec ⟨?_, ?_, ?_, fun hholds => ?_⟩
  · rw [(State.finishHold_answersBy ..).ras_eq]
    rfl
  · exact (State.finishHold_on ..).trans (State.on_wrB_busy ..)
  · exact (State.finishHold_answersBy ..).spareMap_eq
  · rw [State.finishHold_of_noHolds (show u.dys.holds = [] from hholds)]
    exact (changes.refl s).wrB List.mem_cons_self false

/-- A RETIRED bank that passes its test is a reserve again (R175, R451). -/
theorem returnTestDone_bankPasses (hkind : w / 2 ^ 28 = 2) (hbank : s.rd (F.LAG_BANK_STATUS_STATE (w % 2 ^ 28)) = 3) (step : BitVec 32) :
    Runs (.returnTestDone true step) s fun t =>
      t.ras.returning = none ∧ t.on F.RAS_SPARE_STATUS_BUSY = false ∧ t.rd (F.LAG_BANK_STATUS_STATE (w % 2 ^ 28)) = 1 := by
  set u := s.returnEnds with hu
  have hfailed : u.returnable 2 (w % 2 ^ 28) = true := by
    have hkept : u.rd (F.LAG_BANK_STATUS_STATE (w % 2 ^ 28)) = s.rd (F.LAG_BANK_STATUS_STATE (w % 2 ^ 28)) :=
      State.rd_wr_of_reg_ne _ _ (show RegName.LAG_BANK_STATUS ≠ .RAS_SPARE_STATUS by decide)
    simp only [State.returnable, hkept, hbank, decide_true]
  have hexec : exec (.returnTestDone true step) s = .next ((u.returnTo 2 (w % 2 ^ 28)).finishHold holdReturn w stOk
      ((u.returnTo 2 (w % 2 ^ 28)).objectState 2 (w % 2 ^ 28)) 0) := by
    change execReturnTestDone true step s = _
    have hpass : (true && u.returnable 2 (w % 2 ^ 28)) = true := hfailed
    simp only [execReturnTestDone, hw, hkind]
    exact congrArg Host.Outcome.next (if_pos hpass)
  obtain ⟨hreturning, hbusy, hstate⟩ := u.returnTo_bank (w % 2 ^ 28)
  refine Runs.of_exec hexec ⟨?_, ?_, ?_⟩
  · rw [(State.finishHold_answersBy ..).ras_eq, hreturning]
    rfl
  · exact (State.finishHold_on ..).trans (hbusy.trans (State.on_wrB_busy ..))
  · exact (State.finishHold_reads _ _ _ _ _ _ (show RegName.LAG_BANK_STATUS ≠ .DYS_RSP_TAIL by decide)).trans hstate

end Test

/-- Settles O28: each command passes the checks of Dysum and ends as its body says, and the RETURN test ends at once. -/
theorem dysumPortsAndSpares : Obligations.DysumPortsAndSpares := by
  refine ⟨fun s h u htake hready hsuits hform howner hport => ?_, fun s h u htake hready hsuits hform hlevel => ?_⟩
  · exact ⟨portDefine_defines htake hready hsuits hform howner hport, portDefine_undefines htake hready hsuits hform howner hport,
      portDefine_conflict htake hready hsuits howner hport, portEnable_enables htake hready hsuits hform howner hport,
      portEnable_disables htake hready hsuits hform howner hport, portEnable_undefined htake hready hsuits howner hport⟩
  · refine ⟨fun kind hkind o ho h7 hobject => ?_, fun m ask hm hask hbusy => sparePolicy_sets htake hready hsuits hlevel hform hm hask hbusy,
      fun w hw step => returnTestDone_fails hw step, fun w hw hkind hbank step => returnTestDone_bankPasses hw hkind hbank step⟩
    exact ⟨spareSwap_conflict htake hready hsuits hlevel hkind ho hobject h7,
      spareSwap_starts htake hready hsuits hlevel hkind ho hobject hform h7,
      spareReturn_tests htake hready hsuits hlevel hkind ho hobject hform,
      fun n => sparePolicy_dismisses htake hready hsuits hlevel hkind ho hobject hform⟩

end Sys2Proof.Machine
end

section
/-! SUPPORT. What the counters, records, drops, traps and stores of the packet path leave of the ingress pipelines (R92 to R95, R138 to R141). -/

set_option Elab.async false

namespace Sys2Proof.Machine

/-! ### The relation -/

/-- Registers that the receive side and the issue side read, and that no counter, record, drop, trap or store writes. -/
def issueReg : RegName → Bool
  | .PIPE_STATUS | .PRS_VALUE | .LIGHT_TICKS | .CLK_CORE | .PWR_STATUS | .MAC_RX_CFG | .MAC_RX_OVERFLOW | .PORT_CFG | .PORT_STATUS
  | .CWAY_BUNDLE_STATUS => true
  | _ => false

/-- `t` holds the ingress pipelines, their frames, issue stages and programs' graphs as `s` does. -/
structure State.Aside (s t : State) : Prop where
  reads : ∀ f : Fld, issueReg f.reg = true → t.rd f = s.rd f
  pipes : t.path.pipes = s.path.pipes
  rxq : t.path.rxq = s.path.rxq
  clk : t.path.clk = s.path.clk
  inject : t.path.inject = s.path.inject
  graphs : t.mat.graphs = s.mat.graphs
  swaps : t.mat.swaps = s.mat.swaps
  lastFrame : ∀ p, (t.px p).lastFrame = (s.px p).lastFrame

namespace State.Aside

variable {s t u : State}

theorem refl (s : State) : s.Aside s := ⟨fun _ _ => rfl, rfl, rfl, rfl, rfl, rfl, rfl, fun _ => rfl⟩

theorem trans (h : s.Aside t) (k : t.Aside u) : s.Aside u :=
  ⟨fun f hf => (k.reads f hf).trans (h.reads f hf), k.pipes.trans h.pipes, k.rxq.trans h.rxq, k.clk.trans h.clk, k.inject.trans h.inject,
    k.graphs.trans h.graphs, k.swaps.trans h.swaps, fun p => (k.lastFrame p).trans (h.lastFrame p)⟩

/-! ### The operations of the state -/

/-- What changes neither the registers nor the path, the match-action state and the ports. -/
theorem same (h : s.Aside t) (hregs : u.regs = t.regs := by rfl) (hpath : u.path = t.path := by rfl) (hmat : u.mat = t.mat := by rfl)
    (hport : u.portX = t.portX := by rfl) : s.Aside u := by
  refine h.trans ⟨fun f _ => State.rd_congr hregs f, ?_, ?_, ?_, ?_, ?_, ?_, fun p => ?_⟩
  · rw [hpath]
  · rw [hpath]
  · rw [hpath]
  · rw [hpath]
  · rw [hmat]
  · rw [hmat]
  · rw [State.px, State.px, hport]

theorem wr (h : s.Aside t) (f : Fld) (v : Nat) (hf : issueReg f.reg = false := by rfl) : s.Aside (t.wr f v) := by
  have hread : ∀ g : Fld, issueReg g.reg = true → (t.wr f v).rd g = t.rd g := fun g hg =>
    State.rd_wr_of_reg_ne _ _ fun e => Bool.false_ne_true (hf.symm.trans (e ▸ hg))
  exact h.trans ⟨hread, rfl, rfl, rfl, rfl, rfl, rfl, fun _ => rfl⟩

theorem wrB (h : s.Aside t) (f : Fld) (b : Bool) (hf : issueReg f.reg = false := by rfl) : s.Aside (t.wrB f b) := h.wr f _ hf
theorem satAdd (h : s.Aside t) (f : Fld) (n : Nat) (hf : issueReg f.reg = false := by rfl) : s.Aside (t.satAdd f n) := h.wr f _ hf
theorem wrapAdd (h : s.Aside t) (f : Fld) (n : Nat) (hf : issueReg f.reg = false := by rfl) : s.Aside (t.wrapAdd f n) := h.wr f _ hf
theorem subFrom (h : s.Aside t) (f : Fld) (n : Nat) (hf : issueReg f.reg = false := by rfl) : s.Aside (t.subFrom f n) := h.wr f _ hf

theorem issueReg_intStatus (b : Blk) (i : Nat) : issueReg (intStatus b i).reg = false := by
  cases b <;> rfl

theorem raise (h : s.Aside t) (b : Blk) (i e : Nat) : s.Aside (t.raise b i e) :=
  (h.wr _ _ (issueReg_intStatus b i)).same (State.regs_raise ..) (State.raise_path ..) (State.raise_mat ..) (State.raise_portX ..)

theorem emit (h : s.Aside t) (o : Out) : s.Aside (t.emit o) := h.same
theorem updTel (h : s.Aside t) (g : TelSt → TelSt) : s.Aside (t.updTel g) := h.same
theorem updTm (h : s.Aside t) (g : TmSt → TmSt) : s.Aside (t.updTm g) := h.same
theorem updBpm (h : s.Aside t) (g : BpmSt → BpmSt) : s.Aside (t.updBpm g) := h.same

/-- A change of the packet path beside the pipelines. -/
theorem updPath (h : s.Aside t) (g : Path → Path) (hpipes : (g t.path).pipes = t.path.pipes := by rfl)
    (hrxq : (g t.path).rxq = t.path.rxq := by rfl) (hclk : (g t.path).clk = t.path.clk := by rfl)
    (hinject : (g t.path).inject = t.path.inject := by rfl) : s.Aside (t.updPath g) :=
  h.trans ⟨fun _ _ => rfl, hpipes, hrxq, hclk, hinject, rfl, rfl, fun _ => rfl⟩

/-- A change of the match-action state beside graphs and swaps. -/
theorem updMat (h : s.Aside t) (g : MatSt → MatSt) (hgraphs : (g t.mat).graphs = t.mat.graphs := by rfl)
    (hswaps : (g t.mat).swaps = t.mat.swaps := by rfl) : s.Aside (t.updMat g) :=
  h.trans ⟨fun _ _ => rfl, rfl, rfl, rfl, rfl, hgraphs, hswaps, fun _ => rfl⟩

/-- A change of a port beside the tick of its last frame. -/
theorem updPort (h : s.Aside t) (p : Nat) (g : PortX → PortX) (hlast : (g (t.px p)).lastFrame = (t.px p).lastFrame := by rfl) :
    s.Aside (t.updPort p g) := by
  refine h.trans ⟨fun _ _ => rfl, rfl, rfl, rfl, rfl, rfl, rfl, fun q => ?_⟩
  by_cases hq : q = p
  · rw [hq, State.px_updPort, hlast]
  · exact congrArg PortX.lastFrame (mget_mset_ne _ _ _ _ hq)

theorem ite {c : Prop} [Decidable c] {a b : State} (ha : s.Aside a) (hb : s.Aside b) : s.Aside (if c then a else b) := by
  split
  · exact ha
  · exact hb

theorem foldl {α : Type} {g : State → α → State} (hg : ∀ t x, s.Aside t → s.Aside (g t x)) (h : s.Aside t) (l : List α) :
    s.Aside (l.foldl g t) :=
  List.foldlRecOn l g h fun u hu x _ => hg u x hu

end State.Aside

end Sys2Proof.Machine
end

section
/-! SUPPORT. The functions of the packet path that leave the ingress pipelines as they are: counters, records, drops, the Causeway, queues and
the store, traps. -/

set_option Elab.async false

namespace Sys2Proof.Machine.State.Aside

variable {s t : State}

/-! ### Counters (R321 to R327) -/

theorem cntAdd (h : s.Aside t) (n v : Nat) : s.Aside (t.cntAdd n v).2 := by
  unfold State.cntAdd
  dsimp only
  split
  · exact h.wr _ _
  · exact (ite ((h.wrB _ _).raise ..) (h.wrB _ _)).wr _ _

theorem cntGlobal (h : s.Aside t) (ev arg v : Nat) : s.Aside (t.cntGlobal ev arg v) :=
  foldl (fun _ _ hu => ite (hu.cntAdd ..) hu) h _

theorem cntIsland (h : s.Aside t) (i x ev arg v : Nat) (pkt : Option (RxFrame × Meta) := none) : s.Aside (t.cntIsland i x ev arg v pkt) := by
  refine foldl (fun u k hu => ite ?_ hu) h _
  split
  · exact ite (hu.cntAdd ..).same (hu.cntAdd ..)
  · exact hu.cntAdd ..

theorem slots (h : s.Aside t) (i x c n : Nat) : s.Aside (t.slots i x c n) := ite h ((h.wrapAdd _ _).cntIsland ..)

theorem mib (h : s.Aside t) (p k n : Nat) : s.Aside (t.mib p k n) := h.wrapAdd _ _

theorem mibTx (h : s.Aside t) (p : Nat) (f : Bytes) : s.Aside (t.mibTx p f) := (((h.mib ..).mib ..).mib ..).mib ..

theorem mibRxGood (h : s.Aside t) (p : Nat) (f : Bytes) : s.Aside (t.mibRxGood p f) := ((((h.mib ..).mib ..).mib ..).mib ..).mib ..

/-! ### Records and drops (R308 to R315) -/

theorem recLost (h : s.Aside t) (c n : Nat) : s.Aside (t.recLost c n) := ite (h.updTel _) ((h.updTel _).raise ..)

theorem telRecord (h : s.Aside t) (ty c : Nat) (rec : Bytes) : s.Aside (t.telRecord ty c rec) := ite h (ite (h.updTel _) (h.recLost ..))

theorem drop (h : s.Aside t) (code : Nat) (i : DropInfo) : s.Aside (t.drop code i) := by
  unfold State.drop
  extract_lets s1 s2 s3 wanted
  have h2 : s.Aside s2 := ite ((h.wrapAdd _ _).mib ..) (h.wrapAdd _ _)
  have h3 : s.Aside s3 := by
    unfold s3
    split
    · exact h2.mib ..
    · exact h2
  exact ite (h3.telRecord ..) h3

theorem pipeDrop (h : s.Aside t) (i x code : Nat) (d : DropInfo) : s.Aside (t.pipeDrop i x code d) := (h.drop ..).cntIsland ..

theorem lagEvent (h : s.Aside t) (d e : Nat) : s.Aside (t.lagEvent d e) := h.raise ..

theorem admitDrop (h : s.Aside t) (d code : Nat) (i : DropInfo) : s.Aside (t.admitDrop d code i) :=
  have hcounted := (h.drop code i).cntGlobal 0x44 code 1
  ite (ite ((hcounted.satAdd _ _).lagEvent ..) (hcounted.satAdd _ _)) (ite (hcounted.satAdd _ _) hcounted)

theorem cpuFull (h : s.Aside t) (r : Nat) (i : DropInfo) : s.Aside (t.cpuFull r i) :=
  ite ((h.drop ..).satAdd _ _) (((h.drop ..).satAdd _ _).raise ..)

/-! ### Accounts and cells (R172 to R183) -/

theorem decide1 (h : s.Aside t) (d : Nat) : s.Aside (t.decide1 d) := h.updPath _

theorem charge (h : s.Aside t) (a : Acct) (d n : Nat) : s.Aside (t.charge a d n) := by
  unfold State.charge
  extract_lets seen
  have hseen : ∀ p g u, s.Aside u → s.Aside (seen p g u) := fun _ _ _ hu => hu.updPath _
  split
  · exact h
  · exact hseen _ _ _ ((h.wrapAdd _ _).wrapAdd _ _)
  · exact (h.updPath _).wrapAdd _ _
  · exact h.wrapAdd _ _
  · exact hseen _ _ _ ((h.wrapAdd _ _).wrapAdd _ _)
  · exact hseen _ _ _ ((h.wrapAdd _ _).wrapAdd _ _)

theorem spillUpdate (h : s.Aside t) (d : Nat) : s.Aside (t.spillUpdate d) := ite ((h.wrB _ _).lagEvent ..) (ite (h.wrB _ _) h)

theorem setPkt (h : s.Aside t) (k : Nat) (x : Option Pkt) : s.Aside (t.setPkt k x) := h.updPath _

theorem takeIndex (h : s.Aside t) (o : Nat) : s.Aside (t.takeIndex o).2 := by
  unfold State.takeIndex
  extract_lets n
  split
  · dsimp only
    exact h.updPath _
  · split
    · dsimp only
      exact h.updPath _
    · exact h

theorem nextCell (h : s.Aside t) {d : Nat} {r : Nat × State} (hr : t.nextCell d = some r) : s.Aside r.2 := by
  unfold State.nextCell at hr
  split at hr
  · cases hr
  · cases hr
    exact (h.updPath _).takeIndex _

theorem takeCells (h : s.Aside t) (d n : Nat) : s.Aside (t.takeCells d n).2 := by
  induction n generalizing t with
  | zero => exact h
  | succ n ih =>
    unfold State.takeCells
    split
    · exact h
    · next hr => exact ih ((h.nextCell hr).wrapAdd _ _)

/-! ### The Causeway (R26 to R34) -/

theorem updCway (h : s.Aside t) (g : Cway → Cway) : s.Aside (t.updCway g) := h.updPath _
theorem setBundle (h : s.Aside t) (d b : Nat) (x : Bundle) : s.Aside (t.setBundle d b x) := h.updCway _
theorem seqFlit (h : s.Aside t) (d b : Nat) (x : Body) : s.Aside (t.seqFlit d b x) := h.setBundle ..
theorem setWait (h : s.Aside t) (d vc : Nat) (l : List Body) : s.Aside (t.setWait d vc l) := h.updCway _
theorem vcServed (h : s.Aside t) (d b vc : Nat) : s.Aside (t.vcServed d b vc) := by
  unfold State.vcServed
  exact h.updCway _

theorem sendCarry (h : s.Aside t) (d b : Nat) : s.Aside (t.sendCarry d b) :=
  ite h (foldl (fun _ _ hu => hu.seqFlit ..) (h.setBundle ..) _)

theorem putFlit (h : s.Aside t) (d b : Nat) (x : Body) : s.Aside (t.putFlit d b x) := by
  unfold State.putFlit
  extract_lets s1 y s2 k s3
  have h2 : s.Aside s2 := ite ((h.seqFlit ..).setBundle ..) (h.seqFlit ..)
  have h3 : s.Aside s3 := ite h2 (h2.updCway _)
  exact h3.cntGlobal ..

theorem useGrant (h : s.Aside t) (d b : Nat) (x : Body) : s.Aside (t.useGrant d b x) := by
  unfold State.useGrant
  split
  · exact h
  · extract_lets o s1 s2
    have h2 : s.Aside s2 := (h.updPath _).wrapAdd _ _
    split
    · split
      · exact h2.setPkt ..
      · exact h2
    · exact (ite ((h2.subFrom _ _).spillUpdate _) h2).updPath _
    · exact h2

theorem sendOne (h : s.Aside t) {d : Nat} {u : State} (hu : t.sendOne d = some u) : s.Aside u := by
  unfold State.sendOne at hu
  split at hu
  · cases hu
  · split at hu
    · cases hu
    · next b vc _ _ x rest _ =>
      rw [← Option.some.inj hu]
      have h1 := (h.vcServed d b vc).setWait d vc rest
      have h2 := ite (c := vc = 1) (h1.useGrant d b x) h1
      exact ite ((ite (h2.updCway _) h2).putFlit ..) (((ite (h2.updCway _) h2).putFlit ..).updCway _)

theorem sendMany (h : s.Aside t) (d n : Nat) : s.Aside (t.sendMany d n) := by
  induction n generalizing t with
  | zero => exact h
  | succ n ih =>
    unfold State.sendMany
    split
    · next hu => exact ih (h.sendOne hu)
    · exact h

theorem cwayPump (h : s.Aside t) (d : Nat) : s.Aside (t.cwayPump d) :=
  (foldl (fun _ _ hu => ite hu (hu.sendCarry ..)) h _).sendMany ..

theorem cross (h : s.Aside t) (d : Nat) (l : List Body) : s.Aside (t.cross d l) := (foldl (fun _ _ hu => hu.setWait ..) h _).cwayPump _

/-! ### Queues (R247 to R252) -/

theorem portWake (h : s.Aside t) (p : Nat) : s.Aside (t.portWake p) := ite ((h.updPort p _).emit _) h

theorem issueReg_byKey {u m : Nat → Fld} (hu : ∀ k, issueReg (u k).reg = false) (hm : ∀ k, issueReg (m k).reg = false) (k : Nat) :
    issueReg (byKey u m k).reg = false := by
  unfold byKey
  split
  · exact hu _
  · exact hm _

theorem queueStatus (h : s.Aside t) (k : Nat) : s.Aside (t.queueStatus k) := by
  refine ite h ?_
  refine wrB (wrB (wrB (wrB (wrB h _ _ ?_) _ _ ?_) _ _ ?_) _ _ ?_) _ _ ?_
  all_goals exact issueReg_byKey (fun _ => rfl) (fun _ => rfl) k

theorem wakeTags (h : s.Aside t) (k : Nat) : s.Aside (t.wakeTags k) := ite (h.updTm _) (h.updTm _)

theorem enqueue (h : s.Aside t) (k id depth : Nat) : s.Aside (t.enqueue k id depth) := by
  unfold State.enqueue
  extract_lets s1 s2 s3 s4
  have h3 : s.Aside s3 := ((ite (h.wakeTags k) h).updPath _).queueStatus k
  have h4 : s.Aside s4 := h3.wr _ _ (issueReg_byKey (fun _ => rfl) (fun _ => rfl) k)
  exact ite (h4.portWake _) h3

end Sys2Proof.Machine.State.Aside
end

section
/-! SUPPORT. Deep pages, the MAC's own frames, the store, admission of trapped packets and events leave the ingress pipelines as they are. -/

set_option Elab.async false

namespace Sys2Proof.Machine.State.Aside

variable {s t : State}

/-! ### Buffers and deep pages (R195 to R220) -/

theorem ringPop (h : s.Aside t) {st k : Nat} {r : Nat × State} (hr : t.ringPop st k = some r) : s.Aside r.2 := by
  unfold State.ringPop at hr
  dsimp only at hr
  split at hr
  · cases hr
    dsimp only
    exact h.updBpm _
  · split at hr
    · cases hr
    · cases hr
      dsimp only
      exact h.updBpm _

theorem cacheFill (h : s.Aside t) (d k part n : Nat) : s.Aside (t.cacheFill d k part n) := by
  induction n generalizing t with
  | zero => exact h
  | succ n ih =>
    unfold State.cacheFill
    dsimp only
    split
    · exact h
    · next st hd u hfound =>
      obtain ⟨st', -, hpop⟩ := List.exists_of_findSome?_eq_some hfound
      obtain ⟨r, hr, hpair⟩ := Option.map_eq_some_iff.1 hpop
      have hu : s.Aside u := by
        have hr2 := h.ringPop hr
        cases hpair
        exact hr2
      exact ih ((hu.updBpm _).updBpm _)

theorem takeHandle (h : s.Aside t) {agent k : Nat} {avoid : Option Nat} {r : Nat × State} (hr : t.takeHandle agent k avoid = some r) :
    s.Aside r.2 := by
  unfold State.takeHandle at hr
  extract_lets d part fits u at hr
  have hu : s.Aside u := ite h (h.cacheFill ..)
  split at hr
  · cases hr
  · cases hr
    dsimp only
    exact hu.updBpm _

theorem bpmAlloc (h : s.Aside t) (agent k domain : Nat) (avoid : Option Nat := none) : s.Aside (t.bpmAlloc agent k domain avoid).2.2 := by
  unfold State.bpmAlloc
  extract_lets c
  split
  · exact h
  · split
    · dsimp only
      exact (h.raise ..).cntGlobal ..
    · split
      · dsimp only
        exact (h.raise ..).cntGlobal ..
      · next hr =>
        extract_lets e s1 s2 s3 s4
        have h3 : s.Aside s3 := (((h.takeHandle hr).updBpm _).subFrom _ _).wrapAdd _ _
        exact ite (h3.raise ..) h3

theorem setDeep (h : s.Aside t) (q : Nat) (d : DeepQ) : s.Aside (t.setDeep q d) := (h.updBpm _).wr _ _

theorem listRoom (h : s.Aside t) {q : Nat} {u : State} (hu : t.listRoom q = some u) : s.Aside u := by
  unfold State.listRoom at hu
  dsimp only at hu
  split at hu
  · cases hu
    exact h
  · split at hu
    · cases hu
    · split at hu
      · cases hu
        exact ((h.bpmAlloc ..).bpmAlloc _ _ _ _).updBpm _
      · cases hu

theorem closePage (h : s.Aside t) (q : Nat) : s.Aside (t.closePage q) := by
  unfold State.closePage
  split
  · split
    · exact h
    · next hu => exact ((h.listRoom hu).setDeep ..).cntGlobal ..
  · exact h

theorem drawPage (h : s.Aside t) {die : Nat} {r : Nat × State} (hr : t.drawPage die = some r) : s.Aside r.2 := by
  unfold State.drawPage at hr
  split at hr
  · cases hr
    exact ite ((h.updBpm _).raise ..) (h.updBpm _)
  · dsimp only at hr
    split at hr
    · cases hr
      exact h.bpmAlloc ..
    · cases hr

theorem openPage (h : s.Aside t) {q : Nat} {u : State} (hu : t.openPage q = some u) : s.Aside u := by
  unfold State.openPage at hu
  split at hu
  · cases hu
  · next hr =>
    cases hu
    exact (h.drawPage hr).setDeep ..

theorem roomPage (h : s.Aside t) {q : Nat} {fits : Page → Bool} {u : State} (hu : t.roomPage q fits = some u) : s.Aside u := by
  unfold State.roomPage at hu
  extract_lets t1 at hu
  have h1 : s.Aside t1 := by
    unfold t1
    split
    · exact ite h (h.closePage _)
    · exact h
  split at hu
  · split at hu
    · exact Option.some.inj hu ▸ h1
    · cases hu
  · exact h1.openPage hu

theorem setPart (h : s.Aside t) (q : Nat) (p : Option (Nat × Nat)) : s.Aside (t.setPart q p) := by
  unfold State.setPart
  exact h.updBpm _

theorem fillPages (h : s.Aside t) (q id m n : Nat) : s.Aside (t.fillPages q id m n) := by
  induction n generalizing t with
  | zero => exact h.setPart ..
  | succ n ih =>
    unfold State.fillPages
    split
    · exact h.setPart ..
    · next hu =>
      extract_lets d s1 s2
      have h1 : s.Aside s1 := (h.roomPage hu).setDeep ..
      have h2 : s.Aside s2 := by
        unfold s2
        split
        · exact ite (h1.closePage _) h1
        · exact h1
      exact ih h2

theorem gather (h : s.Aside t) {q id : Nat} {u : State} (hu : t.gather q id = some u) : s.Aside u := by
  unfold State.gather at hu
  split at hu
  · cases hu
    exact h
  · split at hu
    · cases hu
    · next hroom =>
      cases hu
      have h1 := (h.roomPage hroom).setDeep q
      exact (ite ((h1 _).cross ..) (h1 _)).fillPages ..

theorem gatherOrWait (h : s.Aside t) (q id : Nat) : s.Aside (t.gatherOrWait q id) := by
  unfold State.gatherOrWait
  extract_lets wait
  have hwait : s.Aside (wait t) := h.updBpm _
  split
  · exact hwait
  · split
    · next hu => exact h.gather hu
    · exact hwait

theorem deliver (h : s.Aside t) (id : Nat) (queues : List Nat) : s.Aside (t.deliver id queues) := by
  unfold State.deliver
  split
  · exact h
  · exact foldl (fun _ _ hu => ite (hu.gatherOrWait ..) (hu.enqueue ..)) h _

/-! ### Frames of the MAC (R87, R100, R101) -/

theorem dealBlock (h : s.Aside t) (p : Nat) (b : Bits) : s.Aside (t.dealBlock p b) := by
  unfold State.dealBlock
  extract_lets x k l full s1 s2
  have h1 : s.Aside s1 := h.updPort p _
  refine ite ?_ h1
  split
  · exact ite ((h1.emit _).emit _) (h1.emit _)
  · exact h1.emit _

theorem lineSend (h : s.Aside t) (p : Nat) (f : Bytes) : s.Aside (t.lineSend p f) :=
  ite (foldl (fun _ _ hu => (hu.updPort p _).dealBlock ..) (h.emit _) _) (h.emit _)

theorem macSend (h : s.Aside t) (p da etype : Nat) (payload : Bytes) : s.Aside (t.macSend p da etype payload) := (h.lineSend ..).mibTx ..

theorem sendPfc (h : s.Aside t) (p prios time : Nat) : s.Aside (t.sendPfc p prios time) :=
  (foldl (fun _ _ hu => ite (hu.mib ..) hu) h _).macSend ..

theorem pfcUpdate (h : s.Aside t) (p : Nat) : s.Aside (t.pfcUpdate p) := by
  unfold State.pfcUpdate
  extract_lets want have0 s1 s2
  have h1 : s.Aside s1 := h.wr _ _
  have h2 : s.Aside s2 := ite ((h1.sendPfc ..).updPort p _) h1
  exact ite (h.wr _ _) (ite (h2.sendPfc ..) h2)

theorem askXoff (h : s.Aside t) (p g : Nat) (on : Bool) : s.Aside (t.askXoff p g on) := (h.updPort p _).pfcUpdate _

theorem pgTest (h : s.Aside t) (d p g : Nat) : s.Aside (t.pgTest d p g) :=
  ite (ite (((h.wrB _ _).askXoff ..).cntGlobal ..) h) (ite ((h.wrB _ _).askXoff ..) h)

theorem pgTests (h : s.Aside t) (d : Nat) : s.Aside (t.pgTests d) := foldl (fun _ _ hu => hu.pgTest ..) h _

/-! ### The store, and trapped packets (R135, R174, R180) -/

theorem store (h : s.Aside t) (a : Arrival) (x : Pkt) (n : Nat) (queues : List Nat) : s.Aside (t.store a x n queues) := by
  unfold State.store
  extract_lets id s1 s2 s3 r s4 s5 far straight later held s6 l
  have h3 : s.Aside s3 := ((((h.updPath _).charge ..).subFrom _ _).spillUpdate _).cntGlobal ..
  have h4 : s.Aside s4 := ite (h3.setPkt ..) ((h3.takeCells ..).setPkt ..)
  have h6 : s.Aside s6 := ((h4.pgTests _).deliver ..).updPath _
  exact ite h6 (h6.cross ..)

theorem admitCpu (h : s.Aside t) (a : Arrival) (r : Nat) : s.Aside (t.admitCpu a r) := by
  unfold State.admitCpu
  dsimp only
  split
  · exact h.cpuFull ..
  · split
    · exact (h.decide1 _).admitDrop ..
    · exact ite ((h.decide1 _).admitDrop ..) ((h.decide1 _).store ..)

theorem trapPass (h : s.Aside t) (i x r : Nat) (ring : Option Nat) (a : Arrival) : s.Aside (t.trapPass i x r ring a) := by
  unfold State.trapPass
  extract_lets l p1 p2 d1 quiet d2 d3
  have hp : s.Aside p2 := ((h.updMat _).satAdd _ _).cntIsland ..
  have hd1 : s.Aside d1 := (h.satAdd _ _).cntIsland ..
  clear_value d1
  have hd2 : s.Aside d2 := hd1.updMat _
  have hd3 : s.Aside d3 := ite (hd2.raise ..) hd2
  exact ite (hp.admitCpu ..) (hd3.pipeDrop ..)

theorem flushSamples (h : s.Aside t) (sub : Nat) : s.Aside (t.flushSamples sub) := foldl (fun _ _ hu => hu.trapPass ..) (h.updTel _) _

/-! ### Events (R436 to R442) -/

theorem logWrite (h : s.Aside t) (c code unit detail : Nat) (inj : Bool) : s.Aside (t.logWrite c code unit detail inj) := by
  unfold State.logWrite
  extract_lets seq e old s1 s2 s3
  have h1 : s.Aside s1 := ite (h.satAdd _ _) h
  have h3 : s.Aside s3 := (h1.wrapAdd F.RAS_LOG_WR_SEQ 1).same
  exact ite h.same (ite h3.same h3)

theorem tidemark (h : s.Aside t) (src logSeq : Nat) : s.Aside (t.tidemark src logSeq) :=
  ite h (ite h.same (ite (h.satAdd _ _) h.same))

theorem event (h : s.Aside t) (c code unit detail : Nat) (inj : Bool := false) : s.Aside (t.event c code unit detail inj) := by
  unfold State.event
  extract_lets s1 s2 s3 s4
  have h2 : s.Aside s2 := (h.satAdd _ _).raise ..
  have h3 : s.Aside s3 := h2.logWrite ..
  have h4 : s.Aside s4 := ite h2 (ite (h3.tidemark ..) h3)
  exact ite h4.same h4

end Sys2Proof.Machine.State.Aside
end

section
/-! SUPPORT. A pass through a pipeline's program (R140 to R161) works on its own packet, and leaves the pipelines as they are. -/

set_option Elab.async false

namespace Sys2Proof.Machine

/-! ### The packet -/

/-- `g` is `f` with other metadata: the frame and the number of its passes are `f`'s. -/
structure Flight.SameFrame (f g : Flight) : Prop where
  rx : g.rx = f.rx
  passes : g.passes = f.passes

theorem Flight.SameFrame.refl (f : Flight) : f.SameFrame f := ⟨rfl, rfl⟩

theorem Flight.SameFrame.trans {f g k : Flight} (h : f.SameFrame g) (hk : g.SameFrame k) : f.SameFrame k :=
  ⟨hk.rx.trans h.rx, hk.passes.trans h.passes⟩

theorem Flight.SameFrame.putWord {f g : Flight} (h : f.SameFrame g) (k v : Nat) : f.SameFrame (g.putWord k v) := ⟨h.rx, h.passes⟩

theorem Flight.SameFrame.putWords {f g : Flight} (h : f.SameFrame g) (k : Nat) (l : List Nat) : f.SameFrame (g.putWords k l) := by
  unfold Flight.putWords
  induction l.zipIdx generalizing g with
  | nil => exact h
  | cons e es ih => exact ih (h.putWord _ _)

theorem Flight.SameFrame.runHash {f g : Flight} (h : f.SameFrame g) (seen : Flight) (x : Hash) : f.SameFrame (g.runHash seen x) := by
  unfold Flight.runHash
  split
  · exact h
  · exact h.putWord _ _

theorem Flight.SameFrame.runHashes {f g : Flight} (h : f.SameFrame g) (seen : Flight) (l : List Hash) :
    f.SameFrame (l.foldl (fun f x => f.runHash seen x) g) := by
  induction l generalizing g with
  | nil => exact h
  | cons x xs ih => exact ih (h.runHash seen x)

/-! ### The pass -/

/-- `r` is a state and a pass that the program of `p`'s pipeline has reached from `s`: the pipelines are as in `s`, and the pass is of the same
pipeline and packet. -/
structure State.Works (s : State) (p : Pass) (r : State × Pass) : Prop where
  aside : s.Aside r.1
  i : r.2.i = p.i
  x : r.2.x = p.x
  frame : p.fl.SameFrame r.2.fl

namespace State.Works

variable {s t u : State} {p q q' : Pass}

/-- A step that has left the pipelines, and has changed the packet beside its frame. -/
theorem next (h : s.Works p (t, q)) (hu : s.Aside u) (hi : q'.i = q.i := by rfl) (hx : q'.x = q.x := by rfl)
    (hf : q.fl.SameFrame q'.fl := by exact ⟨rfl, rfl⟩) : s.Works p (u, q') :=
  ⟨hu, hi.trans h.i, hx.trans h.x, h.frame.trans hf⟩

theorem foldl {α : Type} {g : State × Pass → α → State × Pass} (hg : ∀ r a, s.Works p r → s.Works p (g r a)) {r : State × Pass}
    (h : s.Works p r) (l : List α) : s.Works p (l.foldl g r) :=
  List.foldlRecOn l g h fun u hu x _ => hg u x hu

end State.Works

namespace State.Aside
variable {s t : State}

theorem passEvent (h : s.Aside t) (p : Pass) (ev arg n : Nat) : s.Aside (t.passEvent p ev arg n) := h.cntIsland _ _ _ _ _ _

theorem blockServe (h : s.Aside t) (pool u b c n : Nat) : s.Aside (t.blockServe pool u b c n).2 := by
  induction n generalizing c with
  | zero => exact h
  | succ n ih =>
    unfold State.blockServe
    dsimp only
    split
    · dsimp only
      exact h.updMat _
    · exact ih _

theorem sharedWait (h : s.Aside t) (pool st : Nat) (l : TblLayout) (is : List Nat) : s.Aside (t.sharedWait pool st l is).2 := by
  unfold State.sharedWait
  split
  · exact h
  · have hfold : ∀ (bs : List Nat) (r : Nat × State), s.Aside r.2 → s.Aside (bs.foldl (fun r b =>
        let w := r.2.blockServe pool l.num b (t.coreIdx + 6 * (st - 1)) 64
        (max r.1 w.1, w.2)) r).2 := by
      intro bs
      induction bs with
      | nil => exact fun _ hr => hr
      | cons b bs ih => exact fun r hr => ih _ (hr.blockServe ..)
    exact hfold _ (0, t) h

theorem countEntry (h : s.Aside t) (pool : Nat) (l : TblLayout) (ix len : Nat) : s.Aside (t.countEntry pool l ix len) := by
  unfold State.countEntry
  dsimp only
  exact ite (h.updMat _) h

theorem entryLost (h : s.Aside t) (i d u ix : Nat) : s.Aside (t.entryLost i d u ix) := (h.updMat _).event ..

theorem setMeter (h : s.Aside t) (i ix : Nat) (m : Meter) : s.Aside (t.setMeter i ix m) := h.updMat _

theorem aluRun (h : s.Aside t) (i x : Nat) (l : TblLayout) (ix : Nat) (op : AluOp) (a b : Nat) : s.Aside (t.aluRun i x l ix op a b).2.2 := by
  unfold State.aluRun
  dsimp only
  exact h.updMat _

theorem servedPrune (h : s.Aside t) : s.Aside t.servedPrune := h.updMat _

end State.Aside

namespace State.Works

variable {s t u : State} {p q q' : Pass}

theorem passWait (h : s.Works p (t, q)) (l : TblLayout) (is : List Nat) : s.Works p (t.passWait q l is) :=
  h.next (h.aside.sharedWait ..)

theorem runLookup (h : s.Works p (t, q)) (seen : Flight) (k : Lookup) : s.Works p (t.runLookup seen q k) := by
  unfold State.runLookup
  split
  · exact h
  · extract_lets s1 miss
    have h1 : s.Works p (s1, q) := h.next (h.aside.passEvent ..)
    have hmiss : ∀ {u : State} {w : Pass} (l : List Act), s.Works p (u, w) → s.Works p (u, miss w l) := 
      fun _ hw => hw.next hw.aside
    split
    · exact hmiss _ h1
    · next l _ =>
      have h2 := h1.passWait l (s1.reads q.pool l (k.key.map (fun v => seen.src v % 2 ^ 32)))
      dsimp only
      split
      · exact hmiss _ (h2.next (h2.aside.entryLost ..))
      · split
        · exact hmiss _ h2
        · exact h2.next ((h2.aside.countEntry ..).passEvent ..) rfl rfl ((Flight.SameFrame.refl _).putWords ..)

theorem runMeter (h : s.Works p (t, q)) (ix : Nat) : s.Works p (t.runMeter q ix) := by
  unfold State.runMeter
  extract_lets bad s1 m wide n fl md colour
  clear_value bad
  have h1 : s.Works p (s1, q) := by
    refine h.next ?_
    unfold s1
    split
    · exact h.aside.event ..
    · exact h.aside
  have hset : ∀ m c, s.Aside ((s1.setMeter q.i ix m).passEvent q 0x0D c 1) := fun _ _ => (h1.aside.setMeter ..).passEvent ..
  have hcolour : ∀ {u} (c : Nat), s.Aside u → s.Works p (u, colour c) := fun _ hu => h.next hu
  split
  · split
    · exact h.next (hset _ _)
    · exact hcolour _ (hset _ _)
  · split
    · split
      · exact h.next (hset _ _)
      · exact h.next (hset _ _)
    · exact hcolour _ (hset _ _)

theorem runAct (h : s.Works p (t, q)) (seen : Flight) (a : Act) : s.Works p (t.runAct seen q a) := by
  unfold State.runAct
  split
  · exact h
  · extract_lets fl
    split
    · exact h.next h.aside
    · exact h.next h.aside
    · exact h.next h.aside
    · exact h.next h.aside
    · exact h.next h.aside
    · extract_lets md
      split
      · exact h.next h.aside
      · exact h.next h.aside
    · split
      · exact h
      · exact (h.next (q' := { q with meters := q.meters + 1 }) h.aside).runMeter _
    · split
      · exact h.next h.aside
      · exact h
    · exact h.next h.aside
    · exact h.next h.aside
    · split
      · exact h
      · split
        · exact h.next (h.aside.satAdd _ _)
        · exact h.next h.aside
    · exact h.next h.aside
    · exact h.next h.aside

theorem runActs (h : s.Works p (t, q)) (seen : Flight) (l : List Act) : s.Works p (t.runActs seen q l) :=
  foldl (fun _ a hr => hr.runAct seen a) h l

theorem runAlu (h : s.Works p (t, q)) (seen : Flight) (al : Nat) (a : Alu) : s.Works p (t.runAlu seen q al a) := by
  unfold State.runAlu
  split
  · exact h
  · split
    · exact h
    · next l _ =>
      extract_lets ix
      split
      · exact (h.next (q' := { q with fl := q.fl.putWord a.dst 0 }) h.aside).runActs ..
      · have h1 := h.passWait l [ix]
        exact h1.next (h1.aside.aluRun ..)

theorem runStage (h : s.Works p (t, q)) (g : Stage) : s.Works p (t.runStage q g) := by
  unfold State.runStage
  extract_lets r1 r2 seen r3 seen'
  have h1 : s.Works p r1 := foldl (fun _ k hr => hr.runLookup q.fl k) (h.next (q' := { q with missed := [] }) h.aside) _
  have h2 : s.Works p r2 := h1.runActs ..
  have h3 : s.Works p r3 := foldl (fun _ a hr => hr.runAlu ..) h2 _
  exact h3.next h3.aside rfl rfl ((Flight.SameFrame.refl _).runHashes ..)

theorem runProgram (h : s.Aside t) (i x : Nat) (fl : Flight) (faults : List MemFault) :
    s.Works { i := i, x := x, fl := fl, faults := faults } (t.runProgram i x fl faults) := by
  have hstart : s.Works { i := i, x := x, fl := fl, faults := faults }
      (t.servedPrune, { i := i, x := x, fl := fl, faults := faults }) := ⟨h.servedPrune, rfl, rfl, .refl fl⟩
  exact foldl (fun r g hr => (hr.next (q' := { r.2 with stage := g.2 + 1 }) hr.aside).runStage g.1) hstart _

end State.Works

end Sys2Proof.Machine
end

section
/-! SUPPORT. Issue into the ingress pipelines (R138 to R141): what a core clock and a recirculation do, and the two commands. -/

set_option Elab.async false

namespace Sys2Proof.Machine

/-! ### Counting leaves the path -/

/-- `t` has the packet path of `s`, and traffic is stopped in both or in none. -/
structure State.SamePath (s t : State) : Prop where
  path : t.path = s.path
  stopped : t.stopped = s.stopped

namespace State.SamePath

variable {s t u : State}

theorem refl (s : State) : s.SamePath s := ⟨rfl, rfl⟩

theorem trans (h : s.SamePath t) (k : t.SamePath u) : s.SamePath u := ⟨k.path.trans h.path, k.stopped.trans h.stopped⟩

theorem ite {c : Prop} [Decidable c] {a b : State} (ha : s.SamePath a) (hb : s.SamePath b) : s.SamePath (if c then a else b) := by
  split
  · exact ha
  · exact hb

theorem foldl {α : Type} {g : State → α → State} (hg : ∀ t x, s.SamePath t → s.SamePath (g t x)) (h : s.SamePath t) (l : List α) :
    s.SamePath (l.foldl g t) :=
  List.foldlRecOn l g h fun u hu x _ => hg u x hu

theorem wr (h : s.SamePath t) (f : Fld) (v : Nat) : s.SamePath (t.wr f v) := h.trans ⟨rfl, rfl⟩

theorem raise (h : s.SamePath t) (b : Blk) (i e : Nat) : s.SamePath (t.raise b i e) :=
  h.trans ⟨State.raise_path .., by simp only [State.stopped, State.raise_fatalStop, State.raise_thermTrip, State.raise_scanStop]⟩

theorem cntAdd (h : s.SamePath t) (n v : Nat) : s.SamePath (t.cntAdd n v).2 := by
  unfold State.cntAdd
  dsimp only
  split
  · exact h.wr _ _
  · exact (ite ((h.wr _ _).raise ..) (h.wr _ _)).wr _ _

theorem cntIsland (h : s.SamePath t) (i x ev arg v : Nat) (pkt : Option (RxFrame × Meta) := none) :
    s.SamePath (t.cntIsland i x ev arg v pkt) := by
  refine foldl (fun u k hu => ite ?_ hu) h _
  split
  · exact ite ((hu.cntAdd ..).trans ⟨rfl, rfl⟩) (hu.cntAdd ..)
  · exact hu.cntAdd ..

/-- Credits are judged by the path and the states of the bundles. -/
theorem creditStall (h : s.SamePath t) (ha : s.Aside t) (y : Nat) : t.creditStall y = s.creditStall y := by
  have hbundle : ∀ d b, t.bundleState d b = s.bundleState d b := fun d b => ha.reads _ rfl
  simp only [State.creditStall, State.cwayStall, State.cwayWait, State.credit, hbundle, h.path] <;> rfl

end State.SamePath

/-! ### Taking slots -/

/-- The frame and the passes of a packet in a pipeline. -/
def Flight.key (f : Flight) : RxFrame × Nat := (f.rx, f.passes)

/-- From `s` to `t` pipeline `y` takes the frames `rs` from its queue, and packets of the frames and passes `fs` enter it, in `n` slots of its present
clock; the clock has not ended, and the other pipelines are as they were. -/
structure State.Issues (y n : Nat) (s t : State) (rs : List RxFrame) (fs : List (RxFrame × Nat)) : Prop where
  rxq : s.rxq y = rs ++ t.rxq y
  flights : (t.flights y).map Flight.key = (s.flights y).map Flight.key ++ fs
  used : (t.issueClk y).used = (s.issueClk y).used + n
  phase : (t.issueClk y).phase = (s.issueClk y).phase
  clock : (t.issueClk y).clock = (s.issueClk y).clock
  inject : t.path.inject = s.path.inject
  others : ∀ j, j ≠ y → t.flights j = s.flights j ∧ t.rxq j = s.rxq j

theorem State.Aside.rxq_eq {s t : State} (h : s.Aside t) (y : Nat) : t.rxq y = s.rxq y := by rw [State.rxq, State.rxq, h.rxq]
theorem State.Aside.flights_eq {s t : State} (h : s.Aside t) (y : Nat) : t.flights y = s.flights y := by rw [State.flights, State.flights, h.pipes]
theorem State.Aside.issueClk_eq {s t : State} (h : s.Aside t) (y : Nat) : t.issueClk y = s.issueClk y := by
  rw [State.issueClk, State.issueClk, h.clk]

theorem State.issueClk_setIssueClk (s : State) (y : Nat) (c : IssueClk) : (s.setIssueClk y c).issueClk y = c := mget_mset_self ..
theorem State.flights_setFlights (s : State) (y : Nat) (l : List Flight) : (s.setFlights y l).flights y = l := mget_mset_self ..
theorem State.rxq_setRxq (s : State) (y : Nat) (l : List RxFrame) : (s.setRxq y l).rxq y = l := mget_mset_self ..
theorem State.issueClk_setFlights (s : State) (y j : Nat) (l : List Flight) : (s.setFlights y l).issueClk j = s.issueClk j := rfl
theorem State.flights_setFlights_ne (s : State) {y j : Nat} (l : List Flight) (h : j ≠ y) : (s.setFlights y l).flights j = s.flights j :=
  mget_mset_ne _ _ _ _ h
theorem State.rxq_setRxq_ne (s : State) {y j : Nat} (l : List RxFrame) (h : j ≠ y) : (s.setRxq y l).rxq j = s.rxq j := mget_mset_ne _ _ _ _ h

namespace State.Issues

variable {y m n : Nat} {s t u : State} {rs rs' : List RxFrame} {fs fs' : List (RxFrame × Nat)}

theorem rxq_eq (h : State.Issues y n s t [] fs) : t.rxq y = s.rxq y := h.rxq.symm

theorem of_aside (y : Nat) (h : s.Aside t) : State.Issues y 0 s t [] [] where
  rxq := (h.rxq_eq y).symm
  flights := by rw [h.flights_eq, List.append_nil]
  used := by rw [h.issueClk_eq, Nat.add_zero]
  phase := by rw [h.issueClk_eq]
  clock := by rw [h.issueClk_eq]
  inject := h.inject
  others j _ := ⟨h.flights_eq j, h.rxq_eq j⟩

theorem trans (h : State.Issues y m s t rs fs) (k : State.Issues y n t u rs' fs') : State.Issues y (m + n) s u (rs ++ rs') (fs ++ fs') where
  rxq := by rw [h.rxq, k.rxq, List.append_assoc]
  flights := by rw [k.flights, h.flights, List.append_assoc]
  used := by rw [k.used, h.used, Nat.add_assoc]
  phase := k.phase.trans h.phase
  clock := k.clock.trans h.clock
  inject := k.inject.trans h.inject
  others j hj := ⟨(k.others j hj).1.trans (h.others j hj).1, (k.others j hj).2.trans (h.others j hj).2⟩

theorem aside (h : State.Issues y n s t rs fs) (k : t.Aside u) : State.Issues y n s u rs fs := by
  simpa only [List.append_nil, Nat.add_zero] using h.trans (.of_aside y k)

/-- The issue stage takes `n` slots. -/
theorem setIssueClk (s : State) {c : IssueClk} (hused : c.used = (s.issueClk y).used + n) (hphase : c.phase = (s.issueClk y).phase)
    (hclock : c.clock = (s.issueClk y).clock) : State.Issues y n s (s.setIssueClk y c) [] [] where
  rxq := rfl
  flights := (List.append_nil _).symm
  used := by rw [State.issueClk_setIssueClk, hused]
  phase := by rw [State.issueClk_setIssueClk, hphase]
  clock := by rw [State.issueClk_setIssueClk, hclock]
  inject := rfl
  others _ _ := ⟨rfl, rfl⟩

/-- A packet enters the pipeline behind those in it. -/
theorem setFlights (s : State) (y : Nat) (f : Flight) : State.Issues y 0 s (s.setFlights y (s.flights y ++ [f])) [] [f.key] where
  rxq := rfl
  flights := by rw [State.flights_setFlights, List.map_append, List.map_singleton]
  used := rfl
  phase := rfl
  clock := rfl
  inject := rfl
  others j hj := ⟨s.flights_setFlights_ne _ hj, rfl⟩

/-- The oldest frame leaves the queue. -/
theorem setRxq {r : RxFrame} {rest : List RxFrame} (h : s.rxq y = r :: rest) : State.Issues y 0 s (s.setRxq y rest) [r] [] where
  rxq := by rw [h, State.rxq_setRxq, List.singleton_append]
  flights := (List.append_nil _).symm
  used := rfl
  phase := rfl
  clock := rfl
  inject := rfl
  others j hj := ⟨rfl, s.rxq_setRxq_ne _ hj⟩

theorem takeSlot (s : State) (i x : Nat) (names : List (Nat × Nat × Nat)) :
    State.Issues (10 * i + x) 1 s (s.takeSlot i x names) [] [] := by
  unfold State.takeSlot
  extract_lets y c c1 ahead c2
  have hphase : c1.phase = c.phase := by
    unfold c1
    split <;> rfl
  have hclock : c1.clock = c.clock := by
    unfold c1
    split <;> rfl
  have hused : c1.used = c.used := by
    unfold c1
    split <;> rfl
  split
  · exact setIssueClk s (congrArg (· + 1) hused) hphase hclock
  · next st _ _ _ =>
    extract_lets s1 s2
    have h2 : s.Aside s2 := ((((State.Aside.refl s).wrapAdd _ _).wr _ _).wr _ _).wr _ _
    have hc : s2.issueClk y = c := h2.issueClk_eq y
    have hset := (Issues.of_aside y h2).trans (setIssueClk (n := 1) s2 (c := { c2 with slip := some (names.filter (fun n => n.1 ≥ st)) })
      (hc ▸ congrArg (· + 1) hused) (hc ▸ hphase) (hc ▸ hclock))
    exact hset.aside ((State.Aside.refl _).cntIsland ..)

theorem takeIssue (s : State) (p : Pass) : State.Issues (10 * p.i + p.x) 1 s (s.takeIssue p) [] [] := by
  unfold State.takeIssue
  extract_lets y s1 s2 n c
  have h2 : State.Issues y 1 s s2 [] [] :=
    (takeSlot s p.i p.x p.names).aside (((State.Aside.refl _).slots ..).passEvent ..)
  split
  · exact h2
  · clear_value s2
    have hstall : State.Issues y 0 s2 (s2.setIssueClk y { c with stall := c.stall + n }) [] [] := setIssueClk s2 rfl rfl rfl
    exact (h2.trans hstall).aside (((State.Aside.refl _).satAdd _ _).cntIsland ..)

/-- A packet that enters stage 1 takes a slot; the frame and the passes are its own. -/
theorem enter (s : State) (i x : Nat) (fl : Flight) (faults : List MemFault) :
    State.Issues (10 * i + x) 1 s (s.enter i x fl faults) [] [fl.key] := by
  unfold State.enter
  extract_lets y
  have hpass := State.Works.runProgram (State.Aside.refl s) i x fl faults
  generalize s.runProgram i x fl faults = r at hpass
  obtain ⟨t, p⟩ := r
  dsimp -zeta only
  extract_lets s1 s2 c
  have hkey : p.fl.key = fl.key := Prod.ext hpass.frame.rx hpass.frame.passes
  have h1 : State.Issues y 1 s s1 [] [] := by
    have htake := takeIssue t p
    rw [hpass.i, hpass.x] at htake
    exact (Issues.of_aside y hpass.aside).trans htake
  have h2 : State.Issues y 1 s s2 [] [fl.key] := hkey ▸ h1.trans (setFlights s1 y p.fl)
  split
  · have hmark : State.Issues y 0 s2 (s2.setIssueClk y { c with reserved := c.reserved ++ [c.clock + 144] }) [] [] :=
      setIssueClk s2 rfl rfl rfl
    exact h2.trans hmark
  · exact h2

/-- With no host frame that waits, up to `n` frames of the queue enter the pipeline in their order. -/
theorem issueFrames (s : State) (i x n : Nat) (faults : List (List MemFault)) (hinject : mget s.path.inject (10 * i + x) [] = []) :
    ∃ k, State.Issues (10 * i + x) k s (s.issueFrames i x n faults) ((s.rxq (10 * i + x)).take n)
      (((s.rxq (10 * i + x)).take n).map fun r => (r, 0)) := by
  induction n generalizing s faults with
  | zero => exact ⟨0, .of_aside _ (State.Aside.refl s)⟩
  | succ n ih =>
    unfold State.issueFrames
    cases hq : s.rxq (10 * i + x) with
    | nil =>
      have hnone : s.nextFrame (10 * i + x) = none := by
        simp only [State.nextFrame, hinject, hq, List.findIdx?_nil, List.getElem?_nil, Option.map_none]
      rw [hnone]
      exact ⟨0, .of_aside _ ((State.Aside.refl s).slots ..)⟩
    | cons r rest =>
      have hsome : s.nextFrame (10 * i + x) = some (r, s.setRxq (10 * i + x) rest) := by
        simp only [State.nextFrame, hinject, hq, List.findIdx?_nil]
      rw [hsome]
      have hr := (setRxq hq).trans (enter (s.setRxq (10 * i + x) rest) i x (firstFlight r) (faults.headD []))
      have hrest : ((s.setRxq (10 * i + x) rest).enter i x (firstFlight r) (faults.headD [])).rxq (10 * i + x) = rest :=
        (List.cons.inj (hr.rxq.symm.trans hq)).2
      obtain ⟨k, hk⟩ := ih _ faults.tail (hr.inject ▸ hinject)
      rw [hrest] at hk
      exact ⟨_, hr.trans hk⟩

end State.Issues

end Sys2Proof.Machine
end

section
/-! SUPPORT. INGRESS_ISSUE and RECIRC_ISSUE (R138 to R141). -/

set_option Elab.async false

namespace Sys2Proof.Machine

/-! ### The clock ends -/

/-- From `s` to `t` the present clock of pipeline `y` ends, and nothing moves in the pipelines. -/
structure State.ClockEnds (y : Nat) (s t : State) : Prop where
  phase : (t.issueClk y).phase = ((s.issueClk y).phase + 1) % 16
  clock : (t.issueClk y).clock = (s.issueClk y).clock + 1
  flights : ∀ j, t.flights j = s.flights j
  rxq : ∀ j, t.rxq j = s.rxq j

theorem State.nextClock_ends (s : State) (i x : Nat) : State.ClockEnds (10 * i + x) s (s.nextClock i x) := by
  unfold State.nextClock
  extract_lets y c s1
  have hc : s1.issueClk y = _ := s.issueClk_setIssueClk y _
  have hset : State.ClockEnds y s s1 := ⟨congrArg IssueClk.phase hc, congrArg IssueClk.clock hc, fun _ => rfl, fun _ => rfl⟩
  have haside : s1.Aside (if c.slip.isSome then s1.slots i x 1 1 else s1) := .ite ((State.Aside.refl s1).slots ..) (.refl s1)
  exact ⟨haside.issueClk_eq y ▸ hset.phase, haside.issueClk_eq y ▸ hset.clock, fun j => (haside.flights_eq j).trans (hset.flights j),
    fun j => (haside.rxq_eq j).trans (hset.rxq j)⟩

theorem State.ClockEnds.aside {y : Nat} {s t u : State} (h : State.ClockEnds y s t) (k : t.Aside u) : State.ClockEnds y s u :=
  ⟨k.issueClk_eq y ▸ h.phase, k.issueClk_eq y ▸ h.clock, fun j => (k.flights_eq j).trans (h.flights j), fun j => (k.rxq_eq j).trans (h.rxq j)⟩

/-! ### INGRESS_ISSUE -/

/-- While traffic is stopped, the slots of a clock are counted. -/
theorem State.issueClock_stopped {s : State} {i x : Nat} {faults : List (List MemFault)} (h : s.stopped = true) :
    s.Aside (s.issueClock i x faults) := by
  have hs := State.Aside.refl s
  unfold State.issueClock
  extract_lets y c free
  refine .ite hs (.ite ((hs.slots ..).cntGlobal ..) ?_)
  rw [if_pos (by simp only [h, Bool.true_or])]
  exact hs.slots ..

/-- In a clock that nothing stalls, with no reservation and no host frame, up to two waiting frames enter the pipeline. -/
theorem State.issueClock_flowing {s : State} {i x : Nat} {faults : List (List MemFault)} (hactive : s.pipeState (10 * i + x) = 0)
    (hstopped : s.stopped = false) (hcredit : s.creditStall (10 * i + x) = false) (hused : (s.issueClk (10 * i + x)).used = 0)
    (hstall : (s.issueClk (10 * i + x)).stall = 0) (hduty : (s.issueClk (10 * i + x)).phase < s.rd F.PWR_STATUS_DUTY)
    (hreserved : (s.issueClk (10 * i + x)).reserved = []) (hinject : mget s.path.inject (10 * i + x) [] = []) :
    ∃ k, State.Issues (10 * i + x) k s (s.issueClock i x faults) ((s.rxq (10 * i + x)).take 2)
      (((s.rxq (10 * i + x)).take 2).map fun r => (r, 0)) := by
  have hfence : s.fenceStall i x = false := by simp only [State.fenceStall, hactive, Nat.reduceEqDiff, decide_false, Bool.false_and]
  have hempty : State.Issues (10 * i + x) 0 s (s.reservedEmpty i x) [] [] := by
    have hnow : s.reservedNow (10 * i + x) = 0 := by simp only [State.reservedNow, hreserved, List.filter_nil, List.length_nil]
    unfold State.reservedEmpty
    simp only [hnow, Nat.zero_min, State.slots, if_true]
    exact .setIssueClk s rfl rfl rfl
  have hclock : s.issueClock i x faults = (s.reservedEmpty i x).issueFrames i x 2 faults := by
    have hfree : ((s.reservedEmpty i x).issueClk (10 * i + x)).used = 0 := hempty.used.trans hused
    simp only [State.issueClock, hused, hstall, hstopped, hcredit, hfence, hfree, Nat.not_le.2 hduty, gt_iff_lt, Bool.or_self,
      Nat.sub_zero, Nat.lt_irrefl, OfNat.ofNat_ne_zero, Bool.false_eq_true, if_false]
  have hqueue : (s.reservedEmpty i x).rxq (10 * i + x) = s.rxq (10 * i + x) := hempty.rxq.symm
  obtain ⟨k, hframes⟩ := State.Issues.issueFrames (s.reservedEmpty i x) i x 2 faults (hempty.inject ▸ hinject)
  rw [hqueue, ← hclock] at hframes
  exact ⟨_, hempty.trans hframes⟩

section Ingress

variable (s : State) (i : Fin 16) (x : Fin 5) {y : Nat} (hy : y = 10 * i.val + x.val) (faults : List (List MemFault))
include hy

/-- The clock of a pipeline that is ACTIVE or FENCED. -/
theorem ingressIssue_clock (hstate : s.pipeState y = 0 ∨ s.pipeState y = 3) {p : State → Prop}
    (h : p (((((s.cntIsland i x 0x01 0 1).issueClock i x faults).nextClock i x).flushSamples 0))) :
    Runs (.ingressIssue i x faults) s p := by
  refine Runs.of_exec (?_ : execIngressIssue i x faults s = _) h
  subst hy
  refine congrArg Host.Outcome.next (if_neg ?_)
  rcases hstate with hactive | hfenced
  · simp [hactive]
  · simp [hfenced]

theorem ingressIssue_inactive (hstate : s.pipeState y = 1 ∨ s.pipeState y = 2 ∨ s.pipeState y = 4) :
    Runs (.ingressIssue i x faults) s fun t => t = s := by
  refine Runs.of_exec (?_ : execIngressIssue i x faults s = _) rfl
  subst hy
  refine congrArg Host.Outcome.next (if_pos ?_)
  rcases hstate with hreserve | hfailed | hretired
  · simp [hreserve]
  · simp [hfailed]
  · simp [hretired]

theorem ingressIssue_stopped (hstate : s.pipeState y = 0 ∨ s.pipeState y = 3) (hstopped : s.stopped = true) :
    Runs (.ingressIssue i x faults) s fun t =>
      (t.issueClk y).phase = ((s.issueClk y).phase + 1) % 16 ∧ (t.issueClk y).clock = (s.issueClk y).clock + 1 ∧
        t.flights y = s.flights y ∧ t.rxq y = s.rxq y := by
  refine ingressIssue_clock s i x hy faults hstate ?_
  have hcounted := (State.Aside.refl s).cntIsland i x 0x01 0 1
  have hstill := ((State.SamePath.refl s).cntIsland i x 0x01 0 1).stopped
  generalize s.cntIsland i x 0x01 0 1 = u at hcounted hstill
  have hissue : s.Aside (u.issueClock i x faults) := hcounted.trans (State.issueClock_stopped (hstill.trans hstopped))
  have hends := (State.nextClock_ends (u.issueClock i x faults) i x).aside ((State.Aside.refl _).flushSamples 0)
  rw [← hy] at hends
  refine ⟨?_, ?_, ?_, ?_⟩
  · rw [hends.phase, hissue.issueClk_eq]
  · rw [hends.clock, hissue.issueClk_eq]
  · rw [hends.flights, hissue.flights_eq]
  · rw [hends.rxq, hissue.rxq_eq]

theorem ingressIssue_flowing (hactive : s.pipeState y = 0) (hstopped : s.stopped = false) (hcredit : s.creditStall y = false)
    (hused : (s.issueClk y).used = 0) (hstall : (s.issueClk y).stall = 0) (hduty : (s.issueClk y).phase < s.rd F.PWR_STATUS_DUTY)
    (hreserved : (s.issueClk y).reserved = []) (hinject : mget s.path.inject y [] = []) :
    Runs (.ingressIssue i x faults) s fun t =>
      t.rxq y = (s.rxq y).drop 2 ∧
        (t.flights y).map (fun f => (f.rx, f.passes)) =
          (s.flights y).map (fun f => (f.rx, f.passes)) ++ ((s.rxq y).take 2).map (fun r => (r, 0)) ∧
        (t.issueClk y).phase = ((s.issueClk y).phase + 1) % 16 ∧ (t.issueClk y).clock = (s.issueClk y).clock + 1 ∧
        ∀ j : Fin 160, j ≠ y → t.flights j = s.flights j ∧ t.rxq j = s.rxq j := by
  refine ingressIssue_clock s i x hy faults (Or.inl hactive) ?_
  have hcounted := (State.Aside.refl s).cntIsland i x 0x01 0 1
  have hpath := (State.SamePath.refl s).cntIsland i x 0x01 0 1
  generalize s.cntIsland i x 0x01 0 1 = u at hcounted hpath
  obtain ⟨k, hissue⟩ : ∃ k, State.Issues y k s (u.issueClock i x faults) ((s.rxq y).take 2) (((s.rxq y).take 2).map fun r => (r, 0)) := by
    have hclk := hcounted.issueClk_eq y
    subst hy
    obtain ⟨k, hk⟩ := State.issueClock_flowing (s := u) (i := i) (x := x) (faults := faults) ((hcounted.reads _ rfl).trans hactive)
      (hpath.stopped.trans hstopped) ((hpath.creditStall hcounted _).trans hcredit) (hclk ▸ hused) (hclk ▸ hstall)
      (by rw [hclk, hcounted.reads _ rfl]; exact hduty) (hclk ▸ hreserved) (hcounted.inject ▸ hinject)
    rw [hcounted.rxq_eq] at hk
    exact ⟨_, (State.Issues.of_aside _ hcounted).trans hk⟩
  have hends := (State.nextClock_ends (u.issueClock i x faults) i x).aside ((State.Aside.refl _).flushSamples 0)
  rw [← hy] at hends
  refine ⟨?_, ?_, ?_, ?_, fun j hj => ?_⟩
  · rw [hends.rxq]
    exact List.append_cancel_left (hissue.rxq.symm.trans (List.take_append_drop 2 (s.rxq y)).symm)
  · rw [hends.flights]
    exact hissue.flights
  · rw [hends.phase, hissue.phase]
  · rw [hends.clock, hissue.clock]
  · rw [hends.flights, hends.rxq]
    exact hissue.others j hj

end Ingress

/-! ### RECIRC_ISSUE -/

section Recirc

variable (s : State) (i : Fin 16) (x : Fin 5) {y : Nat} (hy : y = 10 * i.val + x.val) (faults : List MemFault) {fl : Flight} {rest : List Flight}
  (hfl : s.flights y = fl :: rest)
include hy hfl

theorem recircIssue_unmarked (hmarked : fl.marked = false) : Runs (.recircIssue i x faults) s fun t => t = s := by
  refine Runs.of_exec (?_ : execRecircIssue i x faults s = .next s) rfl
  subst hy
  simp only [execRecircIssue, hfl, hmarked, Bool.not_false, Bool.true_or, if_true]

variable (hmarked : fl.marked = true) (hstopped : s.stopped = false) (hused : (s.issueClk y).used < 2)
  (hdue : (s.issueClk y).reserved.headD 0 ≤ (s.issueClk y).clock)
include hmarked hstopped hused hdue

omit hy hfl in
theorem recircIssue_goes : (!fl.marked || Decidable.decide ((s.issueClk y).used ≥ 2) || s.stopped ||
    Decidable.decide ((s.issueClk y).reserved.headD 0 > (s.issueClk y).clock)) = false := by
  simp only [hmarked, hstopped, Nat.not_le.2 hused, Nat.not_lt.2 hdue, decide_false, Bool.not_true, Bool.or_self]

/-- A marked packet that no stage has dropped enters stage 1 for one more pass, in its slot. -/
theorem recircIssue_enters (hlive : fl.dead = false) (hkept : fl.md.drop = false) :
    Runs (.recircIssue i x faults) s fun t =>
      (t.flights y).map (fun f => (f.rx, f.passes)) = rest.map (fun f => (f.rx, f.passes)) ++ [(fl.rx, fl.passes + 1)] ∧
        (t.issueClk y).used = (s.issueClk y).used + 1 ∧ t.rxq y = s.rxq y ∧ ∀ j : Fin 160, j ≠ y → t.flights j = s.flights j := by
  set u := (s.setIssueClk y { s.issueClk y with reserved := (s.issueClk y).reserved.drop 1 }).setFlights y rest
  set v := u.cntIsland i x 0x08 0 1 (some (fl.rx, fl.md))
  have hv : u.Aside v := (State.Aside.refl u).cntIsland _ _ _ _ _ _
  have henter : State.Issues y 1 u ((v.enter i x { fl with marked := false, passes := fl.passes + 1 } faults).flushSamples 0) []
      [(fl.rx, fl.passes + 1)] := by
    subst hy
    exact ((State.Issues.of_aside _ hv).trans (.enter v i x _ faults)).aside ((State.Aside.refl _).flushSamples 0)
  refine Runs.of_exec (t := (v.enter i x { fl with marked := false, passes := fl.passes + 1 } faults).flushSamples 0) ?_ ⟨?_, ?_, ?_, fun j hj => ?_⟩
  · have hgoes := recircIssue_goes s hmarked hstopped hused hdue
    change execRecircIssue i x faults s = _
    subst hy
    simp only [execRecircIssue, hfl, hgoes, hlive, hkept, Bool.or_self, Bool.false_eq_true, if_false]
    rfl
  · rw [show (fun f : Flight => (f.rx, f.passes)) = Flight.key from rfl, henter.flights, State.flights_setFlights]
  · rw [henter.used, State.issueClk_setFlights, State.issueClk_setIssueClk]
  · rw [henter.rxq_eq]
    rfl
  · rw [(henter.others j hj).1]
    exact State.flights_setFlights_ne _ _ hj

/-- The slot of a marked packet that a stage has dropped stays empty. -/
theorem recircIssue_empty (hdropped : fl.dead = true ∨ fl.md.drop = true) :
    Runs (.recircIssue i x faults) s fun t =>
      t.flights y = { fl with marked := false } :: rest ∧ (t.issueClk y).used = (s.issueClk y).used + 1 ∧
        (t.issueClk y).reserved = (s.issueClk y).reserved.drop 1 := by
  set u := s.setIssueClk y { s.issueClk y with reserved := (s.issueClk y).reserved.drop 1 }
  have hclk : u.issueClk y = { s.issueClk y with reserved := (s.issueClk y).reserved.drop 1 } := State.issueClk_setIssueClk ..
  have hslot : ((u.takeSlot i x []).issueClk y).used = (s.issueClk y).used + 1 ∧
      ((u.takeSlot i x []).issueClk y).reserved = (s.issueClk y).reserved.drop 1 := by
    subst hy
    simp only [State.takeSlot, List.find?_nil, State.issueClk_setIssueClk, hclk]
    split <;> exact ⟨rfl, rfl⟩
  have hcounted : (u.takeSlot i x []).Aside ((u.takeSlot i x []).slots i x 2 1) := (State.Aside.refl _).slots ..
  refine Runs.of_exec (t := ((u.takeSlot i x []).slots i x 2 1).setFlights y ({ fl with marked := false } :: rest)) ?_
    ⟨State.flights_setFlights .., ?_, ?_⟩
  · have hgoes := recircIssue_goes s hmarked hstopped hused hdue
    have hlost : (fl.dead || fl.md.drop) = true := by simpa only [Bool.or_eq_true] using hdropped
    change execRecircIssue i x faults s = _
    subst hy
    simp only [execRecircIssue, hfl, hgoes, hlost, Bool.false_eq_true, if_false, if_true]
    rfl
  · rw [State.issueClk_setFlights, hcounted.issueClk_eq, hslot.1]
  · rw [State.issueClk_setFlights, hcounted.issueClk_eq, hslot.2]

end Recirc

end Sys2Proof.Machine
end

section
/-! SUPPORT. Receiving a frame (R86 to R95, R98, R121): the line coding, the parse and the scan, the queue of the pipeline, and the command. -/

set_option Elab.async false

namespace Sys2Proof.Machine

/-! ### The parse and the scan -/

/-- A pipeline without a graph extracts nothing; else the graph is walked from its first state. -/
theorem State.parse_walk (s : State) (y : Nat) (f : Bytes) :
    (s.parse y f).1 = (mget s.mat.graphs y none).elim { hdrs := [], off := 0, steps := 0, fail := none } fun g => s.walk y g f 64 0 0 [] := by
  unfold State.parse
  split
  · next hnone => rw [hnone, Option.elim_none]
  · next g hsome =>
    rw [hsome, Option.elim_some]
    dsimp only
    split <;> rfl

/-- The walk reads the parser's values alone. -/
theorem State.walk_eq_of_values {s t : State} (h : ∀ k, t.rd (F.PRS_VALUE_VALUE k) = s.rd (F.PRS_VALUE_VALUE k)) (y : Nat) (g : ParseGraph)
    (f : Bytes) (n st off : Nat) (hdrs : List Hdr) : t.walk y g f n st off hdrs = s.walk y g f n st off hdrs := by
  have hnext : ∀ st p off, t.parseNext y g st p f off = s.parseNext y g st p f off := by
    intro st p off
    simp only [State.parseNext, State.keyMatch, h]
  induction n generalizing st off hdrs with
  | zero => rfl
  | succ n ih => simp only [State.walk, hnext, ih]

theorem State.parse_eq_of_values {s t : State} (h : ∀ k, t.rd (F.PRS_VALUE_VALUE k) = s.rd (F.PRS_VALUE_VALUE k))
    (hgraphs : t.mat.graphs = s.mat.graphs) (y : Nat) (f : Bytes) : (t.parse y f).1 = (s.parse y f).1 := by
  have hwalk : (fun g => t.walk y g f 64 0 0 []) = fun g => s.walk y g f 64 0 0 [] :=
    funext fun g => State.walk_eq_of_values h y g f 64 0 0 []
  rw [State.parse_walk, State.parse_walk, hgraphs, hwalk]

namespace State.Aside

variable {s t : State}

theorem parse (h : s.Aside t) (y : Nat) (f : Bytes) : s.Aside (t.parse y f).2 := by
  unfold State.parse
  split
  · exact h
  · next g _ =>
    extract_lets w s1 s2
    have h2 : s.Aside s2 := (h.wrapAdd _ _).wr _ _
    split
    · exact h2
    · dsimp only
      exact (((h2.wr _ _).wr _ _).satAdd _ _).cntIsland ..

theorem scan (h : s.Aside t) (i k x : Nat) (r : RxFrame) : s.Aside (t.scan i k x r).2 :=
  foldl (fun _ _ hu => hu.cntIsland ..) (ite h (h.wrapAdd _ _)) _

theorem parse_eq (h : s.Aside t) (y : Nat) (f : Bytes) : (t.parse y f).1 = (s.parse y f).1 :=
  State.parse_eq_of_values (fun _ => h.reads _ rfl) h.graphs y f

theorem servePipe_eq (h : s.Aside t) (i d g begun : Nat) : t.servePipe i d g begun = s.servePipe i d g begun := by
  have hstate : ∀ y, t.pipeState y = s.pipeState y := fun y => h.reads _ rfl
  have hgroup : ∀ y, t.rd (F.PIPE_STATUS_GROUP y) = s.rd (F.PIPE_STATUS_GROUP y) := fun y => h.reads _ rfl
  have hswap : ∀ j e, t.pipeSwap j e = s.pipeSwap j e := fun j e => by rw [State.pipeSwap, State.pipeSwap, h.swaps]
  simp only [State.servePipe, hstate, hgroup, hswap]

theorem now_eq (h : s.Aside t) : t.now = s.now := h.reads _ rfl

end State.Aside

/-! ### The queue of a pipeline -/

theorem State.rxqAdd_length (s : State) (y : Nat) (r : RxFrame) : (s.rxqAdd y r).length = (s.rxq y).length + 1 := by
  unfold State.rxqAdd
  extract_lets later tail
  have htail : tail.length ≤ (s.rxq y).length := by
    rw [List.length_reverse, ← List.length_reverse (as := s.rxq y)]
    exact (List.takeWhile_sublist _).length_le
  simp only [List.length_append, List.length_take, List.length_singleton]
  omega

theorem State.mem_rxqAdd (s : State) (y : Nat) (r : RxFrame) : r ∈ s.rxqAdd y r :=
  List.mem_append_left _ (List.mem_append_right _ (List.mem_singleton_self r))

/-- A frame that parses joins the queue of the pipeline that serves its port, with what its parse and its scan have found. -/
theorem State.takeFrame_queues (s : State) (r : RxFrame) (sub : Nat) {k y : Nat}
    (hserve : s.servePipe (r.port / 32) 0 (r.port % 32 / 8) r.begun = some k) (hy : y = 10 * (r.port / 32) + k)
    (hparse : (s.parse y r.data).1.fail = none) :
    ∃ (f : RxFrame) (u : State), (f.port = r.port ∧ f.host = r.host ∧ f.data = r.data ∧ f.bad = r.bad ∧ f.begun = r.begun ∧ f.ready = r.ready ∧
      f.hdrs = (s.parse y r.data).1.hdrs ∧ f.payOff = (s.parse y r.data).1.off) ∧ s.Aside u ∧
      (u.setRxq y (u.rxqAdd y f)).Aside (s.takeFrame r sub) := by
  subst hy
  set w := (s.parse (10 * (r.port / 32) + k) r.data).1
  set r1 : RxFrame := { r with hdrs := w.hdrs, payOff := w.off, pfail := match w.fail with
                                                                       | some f => f.1
                                                                       | none => 0xF }
  set c := (s.parse (10 * (r.port / 32) + k) r.data).2.scan (r.port / 32) (r.port % 32 / 8) k r1
  set u := (c.2.cntIsland (r.port / 32) k 0x0E (r.port % 32) 1).cntIsland (r.port / 32) k 0x0F (r.port % 32) c.1.data.length
  have htake : s.takeFrame r sub = (u.parsed (10 * (r.port / 32) + k) c.1 w sub).flushSamples sub := by
    unfold State.takeFrame
    simp only [hserve]
    rfl
  have hu : s.Aside u := ((((State.Aside.refl s).parse _ _).scan _ _ _ _).cntIsland _ _ _ _ _ _).cntIsland _ _ _ _ _ _
  have hparsed : u.parsed (10 * (r.port / 32) + k) c.1 w sub =
      u.setRxq (10 * (r.port / 32) + k) (u.rxqAdd (10 * (r.port / 32) + k) c.1) := by
    simp only [State.parsed, hparse]
  refine ⟨c.1, u, ⟨rfl, rfl, rfl, rfl, rfl, rfl, rfl, rfl⟩, hu, ?_⟩
  rw [htake, hparsed]
  exact (State.Aside.refl _).flushSamples _

end Sys2Proof.Machine
end

section
/-! SUPPORT. FRAME_RECEIVE (R86 to R95, R98, R103, R121, R380), and the statement of the frames received and issued. -/

set_option Elab.async false

namespace Sys2Proof.Machine

/-! ### The line coding -/

/-- Between `s` and `t` the line coding of ports has moved, and counters have counted. -/
structure State.Decodes (s t : State) : Prop where
  aside : s.Aside t
  samePath : s.SamePath t

namespace State.Decodes

variable {s t u : State}

theorem refl (s : State) : s.Decodes s := ⟨.refl s, .refl s⟩

theorem foldl {α : Type} {g : State → α → State} (hg : ∀ t x, s.Decodes t → s.Decodes (g t x)) (h : s.Decodes t) (l : List α) :
    s.Decodes (l.foldl g t) :=
  List.foldlRecOn l g h fun u hu x _ => hg u x hu

theorem updPort (h : s.Decodes t) (p : Nat) (g : PortX → PortX) (hlast : (g (t.px p)).lastFrame = (t.px p).lastFrame := by rfl) :
    s.Decodes (t.updPort p g) := ⟨h.aside.updPort p g hlast, h.samePath.trans ⟨rfl, rfl⟩⟩

theorem updLane (h : s.Decodes t) (l : Nat) (g : LaneX → LaneX) : s.Decodes (t.updLane l g) := ⟨h.aside.same, h.samePath.trans ⟨rfl, rfl⟩⟩

theorem readCodeword (h : s.Decodes t) (p k : Nat) (l : List (Nat × Nat)) : s.Decodes (t.readCodeword p k l) := by
  unfold State.readCodeword
  generalize codewordRead l = c
  obtain ⟨corners, blocks, fixed⟩ := c
  dsimp -zeta only
  extract_lets lane s1 s2
  have h1 : s.Decodes s1 := ⟨h.aside.satAdd _ _, h.samePath.wr _ _⟩
  have h2 : s.Decodes s2 := h1.updPort p _
  split
  · have h3 := h2.updLane lane
    exact ⟨(h3 _).aside.cntIsland .., (h3 _).samePath.cntIsland ..⟩
  · exact h2.updLane lane _

theorem collectBlocks (h : s.Decodes t) (p n : Nat) : s.Decodes (t.collectBlocks p n) := by
  induction n generalizing t with
  | zero => exact h
  | succ n ih =>
    unfold State.collectBlocks
    extract_lets q k
    split
    · exact h
    · exact ih (h.updPort p _)

theorem readPairs (h : s.Decodes t) (p : Nat) (lanes : List (List (Nat × Nat))) : s.Decodes (t.readPairs p lanes).2 := by
  unfold State.readPairs
  extract_lets s1 s2 r
  have h1 : s.Decodes s1 := foldl (fun _ _ hu => foldl (fun _ _ hv => hv.readCodeword ..) hu _) h _
  dsimp only
  exact (h1.collectBlocks ..).updPort p _

theorem readFrame (h : s.Decodes t) (p : Nat) (rx : Reception) : s.Decodes (t.readFrame p rx).2 := by
  unfold State.readFrame
  split
  · exact h
  · split
    · exact h.readPairs ..
    · exact h

theorem rxBytes_eq (h : s.Decodes t) (i g : Nat) : t.rxBytes i g = s.rxBytes i g := by
  simp only [State.rxBytes, State.rxq, h.samePath.path]

theorem frameBegun_eq (h : s.Decodes t) (p len : Nat) : t.frameBegun p len = s.frameBegun p len := by
  have hreads : ∀ f : Fld, issueReg f.reg = true → t.rd f = s.rd f := h.aside.reads
  simp only [State.frameBegun, State.portSpeed, State.portWidth, h.aside.now_eq, hreads (F.PORT_CFG_MODE p) rfl, hreads (F.PORT_CFG_WIDTH p) rfl]

end State.Decodes

/-! ### FRAME_RECEIVE -/

theorem frameReceive_notUp (s : State) (p : Fin 512) (rx : Reception) (sub : Fin 16) (h : s.portState p ≠ 3) :
    Runs (.frameReceive p rx sub) s fun t => t = s :=
  Runs.of_exec (show execFrameReceive p rx sub s = .next s from congrArg Host.Outcome.next (if_pos h)) rfl

section Up

variable {s : State} {p : Fin 512} {rx : Reception} (sub : Fin 16) (hup : s.portState p = 3)
include hup

theorem frameReceive_none {u : State} (hr : s.readFrame p rx = (none, u)) : Runs (.frameReceive p rx sub) s fun t => t = u := by
  refine Runs.of_exec (?_ : execFrameReceive p rx sub s = .next u) rfl
  simp only [execFrameReceive, hup, ne_eq, not_true_eq_false, if_false, hr]

theorem frameReceive_frame {u : State} {x : RxPart} (hr : s.readFrame p rx = (some x, u)) {q : State → Prop} (hq : q (u.macFrame p x sub)) :
    Runs (.frameReceive p rx sub) s q := by
  refine Runs.of_exec (?_ : execFrameReceive p rx sub s = .next (u.macFrame p x sub)) hq
  simp only [execFrameReceive, hup, ne_eq, not_true_eq_false, if_false, hr]

end Up

/-! ### The MAC -/

section Mac

variable (u : State) (p : Nat) (x : RxPart) (sub : Nat)

theorem State.frameClass_runt {data : Bytes} (coding : Bool) (h : data.length < 64) : u.frameClass p data coding = some 7 := if_pos h

theorem State.frameClass_ne_runt {data : Bytes} (coding : Bool) (h : 64 ≤ data.length) : u.frameClass p data coding ≠ some 7 := by
  unfold State.frameClass
  rw [if_neg (Nat.not_lt.2 h)]
  split_ifs <;> decide

theorem State.frameClass_good {data : Bytes} (h : 64 ≤ data.length) (hmax : data.length ≤ max 64 (min 16000 (u.rd (F.MAC_RX_CFG_MAX_LEN p))))
    (hfcs : fcsGood data = true) : u.frameClass p data false = none := by
  unfold State.frameClass
  rw [if_neg (Nat.not_lt.2 h), if_neg (Nat.not_lt.2 hmax)]
  simp only [hfcs, Bool.not_true, Bool.false_eq_true, if_false]

theorem State.consumed_whole (data : Bytes) (coding : Bool) (f : State → State) (h : 64 ≤ data.length) :
    u.consumed p data (u.frameClass p data coding) f = f u := if_neg (u.frameClass_ne_runt p coding h)

/-- A runt is counted and goes no further, whatever it holds (R92). -/
theorem State.macFrame_runt (h : x.data.length < 64) :
    u.macFrame p x sub = (u.updPort p (fun y => { y with lastFrame := u.now })).mibRxErr p 7 x.data.length := by
  have hclass := u.frameClass_runt p x.coding h
  have hcount : u.countClass p x.data (some 7) = (u.updPort p (fun y => { y with lastFrame := u.now })).mibRxErr p 7 x.data.length := rfl
  have hferry : u.ferryArrive p x.data x.coding = u.countClass p x.data (some 7) := by
    simp [State.ferryArrive, State.ferryTaken, hclass]
  unfold State.macFrame
  simp only [hclass, State.consumed, if_true, Option.isNone_some, Bool.false_eq_true, if_false, decide_true, Bool.true_or, hferry, ← hcount,
    ite_self]

variable (hwhole : 64 ≤ x.data.length)
include hwhole

theorem State.macFrame_macControl (h : isMacControl x.data = true) :
    u.macFrame p x sub = u.macControl p x.data (u.frameClass p x.data x.coding) := by
  unfold State.macFrame
  simp only [h, if_true, State.consumed_whole _ _ _ _ _ hwhole]

theorem State.macFrame_hello (hctl : isMacControl x.data = false) (h : u.isHello p x.data = true) :
    u.macFrame p x sub = u.helloRx p x.data (u.frameClass p x.data x.coding) := by
  unfold State.macFrame
  simp only [hctl, h, Bool.false_eq_true, if_false, if_true, State.consumed_whole _ _ _ _ _ hwhole]

omit hwhole in
theorem State.macFrame_ferry (hctl : isMacControl x.data = false) (hhello : u.isHello p x.data = false) (h : u.isFerry x.data = true) :
    u.macFrame p x sub = u.ferryArrive p x.data x.coding := by
  unfold State.macFrame
  simp only [hctl, hhello, h, Bool.false_eq_true, if_false, if_true]

/-- The state after a good frame has been counted (R98, R321). -/
def State.counted (u : State) (p : Nat) (data : Bytes) : State := (u.countClass p data none).mibRxGood p data

omit hwhole in
theorem State.counted_aside (data : Bytes) : (u.countClass p data none).Aside (u.counted p data) := (State.Aside.refl _).mibRxGood p data

omit hwhole in
theorem State.counted_reads (data : Bytes) {f : Fld} (hf : issueReg f.reg = true) : (u.counted p data).rd f = u.rd f :=
  (u.counted_aside p data).reads f hf

omit hwhole in
theorem State.counted_path (data : Bytes) : (u.counted p data).path = u.path := by
  simp only [State.counted, State.mibRxGood, State.mib, State.wrapAdd_path]
  rfl

/-- A good frame for the ingress pipelines is counted, and finds the receive buffer full or is taken (R95). -/
theorem State.macFrame_good (hmax : x.data.length ≤ max 64 (min 16000 (u.rd (F.MAC_RX_CFG_MAX_LEN p)))) (hcoding : x.coding = false)
    (hfcs : fcsGood x.data = true) (hctl : isMacControl x.data = false) (hhello : u.isHello p x.data = false) (hferry : u.isFerry x.data = false) :
    u.macFrame p x sub = if u.rxBytes (p / 32) (p % 32 / 8) + x.data.length > 262144 then
        (((((u.counted p x.data).satAdd (F.MAC_RX_OVERFLOW_COUNT p) 1).mib p 9 1).mib p 21 1)).raise .mac (p / 32) 4
      else (u.counted p x.data).takeFrame ((u.counted p x.data).stamped p x.data false (u.frameBegun p x.data.length) x.lane sub) sub := by
  have hclass : u.frameClass p x.data x.coding = none := hcoding ▸ u.frameClass_good p hwhole hmax hfcs
  have hlen := u.counted_reads p x.data (f := F.MAC_RX_CFG_MAX_LEN p) rfl
  have hbytes : (u.counted p x.data).rxBytes (p / 32) (p % 32 / 8) = u.rxBytes (p / 32) (p % 32 / 8) := by
    simp only [State.rxBytes, State.rxq, State.counted_path]
  have htake : x.data.take (max 64 (min 16000 ((u.counted p x.data).rd (F.MAC_RX_CFG_MAX_LEN p)))) = x.data := by
    rw [hlen]
    exact List.take_of_length_le hmax
  have hcounted : (u.countClass p x.data none).mibRxGood p x.data = u.counted p x.data := rfl
  unfold State.macFrame
  simp only [hctl, hhello, hferry, hclass, hcounted, htake, hbytes, Option.isNone_none, Option.isSome_none, reduceCtorEq, decide_false,
    Bool.false_and, Bool.or_self, Bool.false_eq_true, if_true, if_false]

end Mac

/-! ### Good frames -/

section Good

variable {s u : State} {p : Fin 512} {rx : Reception} (sub : Fin 16) {x : RxPart} (hup : s.portState p = 3)
  (hr : s.readFrame p rx = (some x, u)) (hwhole : 64 ≤ x.data.length)
  (hmax : x.data.length ≤ max 64 (min 16000 (s.rd (F.MAC_RX_CFG_MAX_LEN p)))) (hcoding : x.coding = false) (hfcs : fcsGood x.data = true)
  (hctl : isMacControl x.data = false) (hhello : u.isHello p x.data = false) (hferry : u.isFerry x.data = false)
include hup hr hwhole hmax hcoding hfcs hctl hhello hferry

omit hup hwhole hmax hcoding hfcs hctl hhello hferry in
theorem State.Decodes.of_readFrame : s.Decodes u := by
  have h := (State.Decodes.refl s).readFrame p rx
  rwa [hr] at h

/-- What the command does with a good frame for the ingress pipelines, by the room in the receive buffer. -/
theorem frameReceive_good {q : State → Prop}
    (hq : q (if s.rxBytes (p / 32) (p % 32 / 8) + x.data.length > 262144 then
        (((((u.counted p x.data).satAdd (F.MAC_RX_OVERFLOW_COUNT p) 1).mib p 9 1).mib p 21 1)).raise .mac (p / 32) 4
      else (u.counted p x.data).takeFrame ((u.counted p x.data).stamped p x.data false (s.frameBegun p x.data.length) x.lane sub) sub)) :
    Runs (.frameReceive p rx sub) s q := by
  have hs := State.Decodes.of_readFrame hr
  refine frameReceive_frame sub hup hr ?_
  rwa [State.macFrame_good u p x sub hwhole ((hs.aside.reads (F.MAC_RX_CFG_MAX_LEN p) rfl).symm ▸ hmax) hcoding hfcs hctl hhello hferry,
    hs.rxBytes_eq, hs.frameBegun_eq]

/-- A good frame that finds the receive buffer full is counted as an overflow and dropped (R95). -/
theorem frameReceive_overflow (hfull : 262144 < s.rxBytes (p / 32) (p % 32 / 8) + x.data.length) :
    Runs (.frameReceive p rx sub) s fun t =>
      t.rd (F.MAC_RX_OVERFLOW_COUNT p) = min (u.rd (F.MAC_RX_OVERFLOW_COUNT p) + 1) (2 ^ 32 - 1) ∧ t.intBit .mac (p / 32) 4 = true ∧
        t.path = s.path := by
  refine frameReceive_good sub hup hr hwhole hmax hcoding hfcs hctl hhello hferry ?_
  rw [if_pos hfull]
  set c := (u.counted p x.data).satAdd (F.MAC_RX_OVERFLOW_COUNT p) 1
  have hcount : c.rd (F.MAC_RX_OVERFLOW_COUNT p) = min (u.rd (F.MAC_RX_OVERFLOW_COUNT p) + 1) (2 ^ 32 - 1) := by
    rw [State.rd_satAdd_self, u.counted_reads p x.data rfl]
    rfl
  refine ⟨?_, State.intBit_raise_self _ _ _ _ (by decide), ?_⟩
  · exact (((((State.Aside.refl c).mib ..).mib ..).raise ..).reads _ rfl).trans hcount
  · have hpath : u.path = s.path := (State.Decodes.of_readFrame hr).samePath.path
    rw [State.raise_path, State.mib, State.mib, State.wrapAdd_path, State.wrapAdd_path, State.satAdd_path, State.counted_path, hpath]

/-- Any other good frame that parses waits for the pipeline that serves the group of its port (R95, R121, R138). -/
theorem frameReceive_queues (hroom : s.rxBytes (p / 32) (p % 32 / 8) + x.data.length ≤ 262144) {k y : Nat}
    (hserve : s.servePipe (p / 32) 0 (p % 32 / 8) (s.frameBegun p x.data.length) = some k) (hy : y = 10 * (p.val / 32) + k)
    (hparse : (s.parse y x.data).1.fail = none) :
    Runs (.frameReceive p rx sub) s fun t =>
      (t.rxq y).length = (s.rxq y).length + 1 ∧
        (∃ f, f ∈ t.rxq y ∧ f.data = x.data ∧ f.port = p ∧ f.host = false ∧ f.bad = false ∧ f.begun = s.frameBegun p x.data.length ∧
          f.ready = s.now ∧ f.payOff = (s.parse y x.data).1.off ∧ f.hdrs = (s.parse y x.data).1.hdrs) ∧
        (∀ j : Fin 160, j ≠ y → t.rxq j = s.rxq j) ∧ (t.px p).lastFrame = s.now ∧ t.path.pipes = s.path.pipes ∧ t.hbm = s.hbm ∧
        t.fuses = s.fuses := by
  refine frameReceive_good sub hup hr hwhole hmax hcoding hfcs hctl hhello hferry ?_
  rw [if_neg (Nat.not_lt.2 hroom)]
  have hs := State.Decodes.of_readFrame hr
  set v := u.countClass p x.data none
  set c := u.counted p x.data
  set r := c.stamped p x.data false (s.frameBegun p x.data.length) x.lane sub
  have hv : v.Aside c := u.counted_aside p x.data
  have hserved : c.servePipe (r.port / 32) 0 (r.port % 32 / 8) r.begun = some k := by
    have hlast : v.servePipe (p / 32) 0 (p % 32 / 8) (s.frameBegun p x.data.length) =
      u.servePipe (p / 32) 0 (p % 32 / 8) (s.frameBegun p x.data.length) := rfl
    exact (hv.servePipe_eq ..).trans (hlast.trans ((hs.aside.servePipe_eq ..).trans hserve))
  have hwalked : (c.parse y r.data).1 = (s.parse y x.data).1 := by
    have hlast : (v.parse y x.data).1 = (u.parse y x.data).1 :=
      State.parse_eq_of_values (s := u) (t := v) (fun _ => rfl) rfl y x.data
    exact (hv.parse_eq ..).trans (hlast.trans (hs.aside.parse_eq ..))
  obtain ⟨f, w, ⟨hport, hhost, hdata, hbad, hbegun, hready, hhdrs, hoff⟩, hw, ht⟩ := c.takeFrame_queues r sub hserved hy (hwalked ▸ hparse)
  have hkeeps : State.Keeps true true u (c.takeFrame r sub) := State.takeFrame_keeps (State.mibRxGood_keeps (State.countClass_keeps (.refl u)))
  have hread : State.Keeps true true s u := by
    have h := State.readFrame_keeps (p := p) (rx := rx) (State.Keeps.refl (a := true) (b := true) s)
    rwa [hr] at h
  have hlast : (v.px p).lastFrame = u.now := congrArg PortX.lastFrame (State.px_updPort ..)
  generalize c.takeFrame r sub = t at ht hkeeps
  have hqueue : ∀ j, w.rxq j = s.rxq j := fun j => (hw.rxq_eq j).trans ((hv.rxq_eq j).trans (hs.aside.rxq_eq j))
  have hy' : t.rxq y = w.rxqAdd y f := (ht.rxq_eq y).trans (State.rxq_setRxq ..)
  refine ⟨?_, ⟨f, ?_, hdata, hport, hhost, hbad, hbegun, ?_, ?_, ?_⟩, fun j hj => ?_, ?_, ?_, ?_, ?_⟩
  · rw [hy', State.rxqAdd_length, hqueue]
  · rw [hy']
    exact w.mem_rxqAdd y f
  · exact hready.trans (hv.now_eq.trans hs.aside.now_eq)
  · rw [hoff, hwalked]
  · rw [hhdrs, hwalked]
  · rw [ht.rxq_eq, State.rxq_setRxq_ne _ _ hj, hqueue]
  · exact (ht.lastFrame p).trans ((hw.lastFrame p).trans ((hv.lastFrame p).trans (hlast.trans hs.aside.now_eq)))
  · exact ht.pipes.trans (hw.pipes.trans (hv.pipes.trans hs.aside.pipes))
  · exact (hkeeps.hbm rfl).trans (hread.hbm rfl)
  · exact (hkeeps.fuses rfl).trans (hread.fuses rfl)

end Good

/-! ### The statement -/

/-- Settles O32: the receive side by how the MAC sorts a frame, the issue side by the branches of the two commands; what lies beside the
pipelines is carried by `State.Aside`. -/
theorem packetsIn : Obligations.PacketsIn := by
  refine ⟨fun s p rx sub => ⟨frameReceive_notUp s p rx sub, fun _ _ _ => rfl, fun hup r hr u hu => ?_⟩, fun s i x y hy => ?_⟩
  · subst hr hu
    have hpair : ∀ {o}, (s.readFrame p rx).1 = o → s.readFrame p rx = (o, (s.readFrame p rx).2) := fun h => Prod.ext h rfl
    refine ⟨fun hnone => frameReceive_none sub hup (hpair hnone), fun x hx hrunt => frameReceive_frame sub hup (hpair hx) ?_,
      fun x hx hwhole => ⟨fun hctl => frameReceive_frame sub hup (hpair hx) ?_, fun hctl hhello => frameReceive_frame sub hup (hpair hx) ?_,
        fun hctl hhello hferry => frameReceive_frame sub hup (hpair hx) ?_⟩,
      fun x hx hwhole hmax hcoding hfcs hctl hhello hferry => ⟨fun hfull => ?_, fun hroom begun hbegun k hserve y hy hparse => ?_⟩⟩
    · exact State.macFrame_runt _ _ _ _ hrunt
    · exact State.macFrame_macControl _ _ _ _ hwhole hctl
    · exact State.macFrame_hello _ _ _ _ hwhole hctl hhello
    · exact State.macFrame_ferry _ _ _ _ hctl hhello hferry
    · exact frameReceive_overflow sub hup (hpair hx) hwhole hmax hcoding hfcs hctl hhello hferry hfull
    · subst hbegun
      exact frameReceive_queues sub hup (hpair hx) hwhole hmax hcoding hfcs hctl hhello hferry hroom hserve hy hparse
  · refine ⟨fun faults => ingressIssue_inactive s i x hy faults, fun faults => ingressIssue_stopped s i x hy faults,
      fun faults => ingressIssue_flowing s i x hy faults, fun faults fl rest hfl hmarked hstopped hused hdue => ?_,
      fun faults fl rest hfl hmarked => recircIssue_unmarked s i x hy faults hfl hmarked⟩
    exact ⟨recircIssue_enters s i x hy faults hfl hmarked hstopped hused hdue, recircIssue_empty s i x hy faults hfl hmarked hstopped hused hdue⟩

end Sys2Proof.Machine
end

section
/-! SUPPORT. What the indirect engines of classifier and meters share (R130, R161): a request that is granted, and words written to a row of
registers. -/

set_option Elab.async false

namespace Sys2Proof.Machine

/-! ### Requests -/

/-- A request that reaches its register has the effect of its command. -/
theorem Runs.of_granted {c : Instr} {s t : State} {q : Requester} {p : State → Prop} (hq : s.grants q false = true)
    (hexec : exec c s = if !s.grants q false then .next s else .next t) (hp : p t) : Runs c s p :=
  .of_exec (hexec.trans (if_neg (by simp [hq]))) hp

/-- A one-bit field shows what was written. -/
theorem State.on_wrB_self (s : State) {f : Fld} (b : Bool) (h : 0 < f.width) : (s.wrB f b).on f = b := by
  unfold State.on
  rw [State.rd_wrB_self _ _ _ h]
  cases b <;> rfl

/-! ### Rows of registers -/

/-- Words `v 0` to `v (n - 1)` written to the fields `g 0` to `g (n - 1)`. -/
def State.wrWords (s : State) (g : Nat → Fld) (v : Nat → Nat) (n : Nat) : State :=
  (List.range n).foldl (fun u k => u.wr (g k) (v k)) s

section Words

variable (s : State) (g : Nat → Fld) (v : Nat → Nat)

theorem State.wrWords_succ (n : Nat) : s.wrWords g v (n + 1) = (s.wrWords g v n).wr (g n) (v n) := by
  simp only [State.wrWords, List.range_succ, List.foldl_append, List.foldl_cons, List.foldl_nil]

/-- Words may be given by the state as it is written, where no write of a register changes them. -/
theorem State.foldl_wr_eq_wrWords (w : State → Nat → Nat) (hw : ∀ u f x k, w (State.wr u f x) k = w u k) (n : Nat) :
    (List.range n).foldl (fun u k => u.wr (g k) (w u k)) s = s.wrWords g (w s) n := by
  have hkept : ∀ m k, w (s.wrWords g (w s) m) k = w s k := by
    intro m k
    induction m with
    | zero => rfl
    | succ m ih => rw [State.wrWords_succ, hw, ih]
  induction n with
  | zero => rfl
  | succ n ih => rw [List.range_succ, List.foldl_append, ih, State.wrWords_succ, List.foldl_cons, List.foldl_nil, hkept]

theorem State.wrWords_mat (n : Nat) : (s.wrWords g v n).mat = s.mat :=
  List.foldlRecOn (motive := fun u : State => u.mat = s.mat) _ _ rfl fun _ hu _ _ => hu

/-- A field that is none of the row reads as before. -/
theorem State.rd_wrWords_ne (n : Nat) {f : Fld} (hf : ∀ k < n, f.key ≠ (g k).key) : (s.wrWords g v n).rd f = s.rd f :=
  List.foldlRecOn (motive := fun u : State => u.rd f = s.rd f) _ _ rfl fun u hu k hk =>
    (u.rd_wr_ne _ (hf k (List.mem_range.1 hk))).trans hu

/-- Each field of the row reads its word. -/
theorem State.rd_wrWords {n k : Nat} (hg : ∀ a b, (g a).key = (g b).key → a = b) (hk : k < n) :
    (s.wrWords g v n).rd (g k) = v k % 2 ^ (g k).width := by
  induction n with
  | zero => exact absurd hk (Nat.not_lt_zero k)
  | succ n ih =>
    rw [State.wrWords_succ]
    rcases Nat.lt_succ_iff_lt_or_eq.1 hk with hlt | rfl
    · rw [State.rd_wr_ne _ _ fun e => Nat.ne_of_lt hlt (hg _ _ e), ih hlt]
    · exact State.rd_wr_self ..

end Words

end Sys2Proof.Machine
end

section
/-! SUPPORT. The meter engine (R158, R161) and the trap limiters (R135), and their statement. -/

set_option Elab.async false

namespace Sys2Proof.Machine

/-! ### A command at the meter engine -/

@[simp] theorem State.meter_setMeter (s : State) (i ix : Nat) (m : Meter) : (s.setMeter i ix m).meter i ix = m := mget_mset_self ..

section Engine

variable {s : State} {i : Nat} {f : State → Meter → Meter × State}

/-- A busy engine says so (R161). -/
theorem State.mtrCommand_busy (hbusy : s.now < s.ranAt .mtr i) :
    (s.mtrCommand i f).rd (F.MTR_STATUS_RESULT i) = 2 ∧ changes [F.MTR_STATUS_RESULT i] s (s.mtrCommand i f) := by
  have hwrites : s.mtrCommand i f = s.wr (F.MTR_STATUS_RESULT i) 2 := if_pos hbusy
  rw [hwrites]
  exact ⟨State.rd_wr_self .., (changes.refl s).wr List.mem_cons_self 2⟩

variable (hfree : s.ranAt .mtr i ≤ s.now)
include hfree

/-- An index beyond the meters changes no meter (R161). -/
theorem State.mtrCommand_beyond (hix : (if s.on (F.MTR_CFG_MODE i) then 262144 else 65536) ≤ s.rd (F.MTR_TARGET_INDEX i)) :
    (s.mtrCommand i f).rd (F.MTR_STATUS_RESULT i) = 1 ∧ (s.mtrCommand i f).mat = s.mat ∧
      readsBut [F.MTR_STATUS_RESULT i] s (s.mtrCommand i f) := by
  have hwrites : s.mtrCommand i f = (s.ran .mtr i (s.now + 40)).wr (F.MTR_STATUS_RESULT i) 1 :=
    (if_neg (Nat.not_lt.2 hfree)).trans (if_pos hix)
  rw [hwrites]
  exact ⟨State.rd_wr_self .., rfl, ((readsBut.refl s).congr rfl).wr List.mem_cons_self 1⟩

/-- A command that finds its meter leaves in it what the command's effect answers, and reports success (R161). -/
theorem Runs.of_mtrCommand {c : Instr} {q : Requester} {p : State → Prop} {r : Meter × State} (hq : s.grants q false = true)
    (hexec : exec c s = if !s.grants q false then .next s else .next (s.mtrCommand i f))
    (hix : s.rd (F.MTR_TARGET_INDEX i) < if s.on (F.MTR_CFG_MODE i) then 262144 else 65536)
    (hf : f (s.ran .mtr i (s.now + 40)) (s.meter i (s.rd (F.MTR_TARGET_INDEX i))) = r)
    (hp : ∀ t, t.rd (F.MTR_STATUS_RESULT i) = 0 → t.meter i (s.rd (F.MTR_TARGET_INDEX i)) = r.1 →
      readsBut [F.MTR_STATUS_RESULT i] r.2 t → p t) : Runs c s p := by
  have hwrites : s.mtrCommand i f = (r.2.setMeter i (s.rd (F.MTR_TARGET_INDEX i)) r.1).wr (F.MTR_STATUS_RESULT i) 0 :=
    hf ▸ (if_neg (Nat.not_lt.2 hfree)).trans (if_neg (Nat.not_le.2 hix))
  refine .of_granted hq hexec (hwrites ▸ hp _ ?_ ?_ ?_)
  · exact State.rd_wr_self ..
  · exact State.meter_setMeter ..
  · exact ((readsBut.refl r.2).congr rfl).wr List.mem_cons_self 0

end Engine

/-! ### MTR_READ -/

/-- MTR_DATA as MTR_READ shows a meter, with one level in 256 K mode (R161). -/
def meterWords (m : Meter) (wide : Bool) : List Nat :=
  [(if m.twoRate then 2 ^ 0 else 0) + (if m.aware then 2 ^ 1 else 0) + (if m.packets then 2 ^ 2 else 0), m.cir, m.cbs, m.eir, m.ebs, 0,
   m.lc / m.unit, if wide then 0 else m.le / m.unit]

/-- The row of MTR_DATA of island `i`. -/
def meterData (i k : Nat) : Fld := F.MTR_DATA_WORD (8 * i + k)

theorem meterData_inj (i a b : Nat) (h : (meterData i a).key = (meterData i b).key) : a = b := by
  obtain ⟨-, hix, -⟩ := Fld.key_eq.1 h
  exact Nat.add_left_cancel hix

/-- MTR_READ of a meter: it stands as it is at this tick, and MTR_DATA shows it. -/
theorem mtrRead_shows {s : State} {q : Requester} {i : Fin 16} (hq : s.grants q false = true) (hfree : s.ranAt .mtr i ≤ s.now)
    (hix : s.rd (F.MTR_TARGET_INDEX i) < if s.on (F.MTR_CFG_MODE i) then 262144 else 65536)
    {o : Meter} (ho : o = (s.meter i (s.rd (F.MTR_TARGET_INDEX i))).refill s.now) :
    Runs (.mtrRead q i) s fun t => t.rd (F.MTR_STATUS_RESULT i) = 0 ∧ t.meter i (s.rd (F.MTR_TARGET_INDEX i)) = o ∧
      ∀ k < 8, t.rd (F.MTR_DATA_WORD (8 * i + k)) = (meterWords o (s.on (F.MTR_CFG_MODE i))).getD k 0 % 2 ^ 32 := by
  refine .of_mtrCommand hfree hq rfl hix (r := (o, (s.ran .mtr i (s.now + 40)).wrWords (meterData i)
    ((meterWords o (s.on (F.MTR_CFG_MODE i))).getD · 0) 8)) (by rw [ho]; rfl) fun t hresult hmeter hreads => ⟨hresult, hmeter, fun k hk => ?_⟩
  have hother : ∀ g ∈ [F.MTR_STATUS_RESULT i], (meterData i k).key ≠ g.key := fun g hg e => by
    rw [List.mem_singleton.1 hg] at e
    exact absurd (Fld.key_eq.1 e).1 (show RegName.MTR_DATA ≠ .MTR_STATUS by decide)
  exact (hreads (meterData i k) hother).trans (State.rd_wrWords _ _ _ (meterData_inj i) hk)

/-- The first word of MTR_DATA spells the three flags of a meter. -/
theorem meterWords_flags (m : Meter) (wide : Bool) : (meterWords m wide).getD 0 0 % 2 ^ 32 =
    (if m.twoRate then 1 else 0) + (if m.aware then 2 else 0) + (if m.packets then 4 else 0) :=
  Nat.mod_eq_of_lt (by simp only [meterWords, List.getD_cons_zero]; split <;> split <;> split <;> decide)

/-- The last word shows the second level, which a meter of 256 K mode has not. -/
theorem meterWords_excess (m : Meter) (wide : Bool) :
    (meterWords m wide).getD 7 0 % 2 ^ 32 = if wide then 0 else m.le / m.unit % 2 ^ 32 := by
  cases wide <;> rfl

/-! ### Trap limiters -/

/-- TRAP_REFILL before a microsecond has passed (R135). -/
theorem trapRefill_early {s : State} {i : Fin 16} {r : Fin 64} (h : s.now - s.ranAt .trap (64 * i + r) < 1600) :
    Runs (.trapRefill i r) s fun t => t = s := by
  have hexec : exec (.trapRefill i r) s = .next s := congrArg Host.Outcome.next (if_neg (by simpa [State.due] using h))
  exact .of_exec hexec rfl

/-- The limiter of reason `r` of island `i` is filled to level `l` for the microsecond that has passed. -/
def State.trapFilled (s : State) (i r l : Nat) : State :=
  (s.updMat fun m => { m with trapLevel := mset m.trapLevel (64 * i + r) l (64 * 1000000) }).ran .trap (64 * i + r)
    (s.ranAt .trap (64 * i + r) + 1600)

theorem State.trapLevel_trapFilled (s : State) (i r l : Nat) : (s.trapFilled i r l).trapLevel i r = l := mget_mset_self ..

theorem State.ranAt_ran (s : State) (k : Timer) (i t : Nat) : (s.ran k i t).ranAt k i = t := mget_mset_self ..

theorem State.ranAt_trapFilled (s : State) (i r l : Nat) :
    (s.trapFilled i r l).ranAt .trap (64 * i + r) = s.ranAt .trap (64 * i + r) + 1600 := State.ranAt_ran ..

theorem State.trapFilled_regs (s : State) (i r l : Nat) : (s.trapFilled i r l).regs = s.regs := rfl

/-- Only the level and its timer differ. -/
theorem State.trapFilled_rest (s : State) (i r l : Nat) : { s.trapFilled i r l with mat := s.mat, timers := s.timers } = s := rfl

/-- TRAP_REFILL once per microsecond: RATE units are added, up to BURST packets (R135). -/
theorem trapRefill_due {s : State} {i : Fin 16} {r : Fin 64} (h : 1600 ≤ s.now - s.ranAt .trap (64 * i + r)) :
    Runs (.trapRefill i r) s fun t =>
      t.trapLevel i r = min (max 1 (s.rd (F.TRAP_CFG_BURST (64 * i + r))) * 1000000)
                          (s.trapLevel i r + min (s.rd (F.TRAP_RATE_RATE (64 * i + r))) 1000000) ∧
      t.ranAt .trap (64 * i + r) = s.ranAt .trap (64 * i + r) + 1600 ∧ t.regs = s.regs ∧
      { t with mat := s.mat, timers := s.timers } = s := by
  have hdue : s.due .trap (64 * i.val + r.val) 1600 = true := by simpa [State.due] using h
  have hexec : exec (.trapRefill i r) s = .next (s.trapFilled i r (min (max 1 (s.rd (F.TRAP_CFG_BURST (64 * i + r))) * 1000000)
      (s.trapLevel i r + min (s.rd (F.TRAP_RATE_RATE (64 * i + r))) 1000000))) := by
    change execTrapRefill i r s = _
    simp only [execTrapRefill, hdue, if_true, State.trapFilled]
  exact .of_exec hexec ⟨State.trapLevel_trapFilled .., State.ranAt_trapFilled .., State.trapFilled_regs ..,
    State.trapFilled_rest ..⟩

/-- Settles O37: each meter command by what the engine finds (busy, beyond the meters, a meter), the refill of a limiter by its timer. -/
theorem meters : Obligations.Meters := by
  refine fun s i => ⟨fun q hq hbusy => ?_, ?_, fun r => ⟨trapRefill_early, trapRefill_due⟩⟩
  · exact ⟨.of_granted hq rfl (State.mtrCommand_busy hbusy), .of_granted hq rfl (State.mtrCommand_busy hbusy),
      .of_granted hq rfl (State.mtrCommand_busy hbusy)⟩
  · rintro q hq hfree _ rfl _ rfl
    refine ⟨fun hix => .of_granted hq rfl (State.mtrCommand_beyond hfree hix), ?_⟩
    rintro hix _ rfl o ho
    refine ⟨.of_mtrCommand hfree hq rfl hix rfl fun t hresult hmeter hreads => ⟨hresult, hmeter, hreads⟩,
      .of_mtrCommand hfree hq rfl hix rfl fun t hresult hmeter hreads => ?_, ?_⟩
    · rw [hmeter, ho]
      exact ⟨hresult, rfl, rfl, rfl, rfl, hreads⟩
    · obtain ⟨t, ht, hresult, hmeter, hwords⟩ := mtrRead_shows hq hfree hix ho
      exact .of_exec ht ⟨hresult, hmeter, (hwords 0 (by decide)).trans (meterWords_flags ..), hwords 1 (by decide), hwords 2 (by decide),
        hwords 3 (by decide), hwords 6 (by decide), (hwords 7 (by decide)).trans (meterWords_excess ..)⟩

end Sys2Proof.Machine
end

section
/-! SUPPORT. The write engines of the classifier (R130 to R132). -/

set_option Elab.async false

namespace Sys2Proof.Machine

/-! ### Entries and the result of a command -/

@[simp] theorem State.entry_setEntry (s : State) (pool t ix : Nat) (e : ClsEntry) : (s.setEntry pool t ix e).entry pool t ix = e :=
  mget_mset_self ..

theorem State.layout_ran (s : State) (k : Timer) (i t pool tb : Nat) : (s.ran k i t).layout pool tb = s.layout pool tb := rfl

theorem State.entry_ran (s : State) (k : Timer) (i t pool tb ix : Nat) : (s.ran k i t).entry pool tb ix = s.entry pool tb ix := rfl

theorem State.entry_congr {s t : State} (h : t.mat = s.mat) (pool tb ix : Nat) : t.entry pool tb ix = s.entry pool tb ix := by
  unfold State.entry
  rw [h]

theorem State.clsResult_result (s : State) (pool r : Nat) (valid : Bool) :
    (s.clsResult pool r valid).rd (F.CLS_WR_STATUS_RESULT pool) = r % 2 ^ 3 :=
  (State.rd_wr_of_lo_ne _ _ (show (1 : Nat) ≠ 4 by decide)).trans (State.rd_wr_self ..)

theorem State.clsResult_valid (s : State) (pool r : Nat) (valid : Bool) :
    (s.clsResult pool r valid).on (F.CLS_WR_STATUS_VALID pool) = valid := State.on_wrB_self _ _ (show 0 < 1 by decide)

theorem State.clsResult_reads (s : State) (pool r : Nat) (valid : Bool) {f : Fld} (h : f.reg ≠ .CLS_WR_STATUS) :
    (s.clsResult pool r valid).rd f = s.rd f :=
  (State.rd_wr_of_reg_ne _ _ h).trans (State.rd_wr_of_reg_ne _ _ h)

theorem State.on_congr {s t : State} {f : Fld} (h : t.rd f = s.rd f) : t.on f = s.on f := by
  unfold State.on
  rw [h]

/-- A discarded write leaves the fields of every register but those that record it (R472). -/
theorem State.locked_reads {s : State} {q : Requester} {r : RegName} {k st : Nat} {f : Fld} (h : f.reg ∉ discardFields.map Fld.reg) :
    (s.locked q r k st).rd f = s.rd f :=
  ((signals.refl s).discard q _ st 0).1 f fun _ hg e => h ((Fld.key_eq.1 e).1 ▸ List.mem_map_of_mem hg)

/-- A word that a command takes comes from CLS_WR_DATA, the others stay. -/
theorem State.getD_takeWords (s : State) (pool : Nat) (old : List Nat) (a b : Nat) {size k : Nat} (hk : k < size) :
    (s.takeWords pool size old a b).getD k 0 = if a ≤ k ∧ k ≤ b then s.rd (F.CLS_WR_DATA_WORD (32 * pool + k)) else old.getD k 0 := by
  simp [State.takeWords, List.getD_eq_getElem?_getD, hk]

/-! ### A command at a write engine -/

section Engine

variable {s : State} {q : Requester} {pool : Nat} {ok : Bool → Bool} {f : State → TblLayout → ClsEntry → ClsEntry}

/-- A busy engine says so (R132). -/
theorem State.clsCommand_busy (hbusy : s.clsBusy pool = true) :
    (s.clsCommand q pool ok f).rd (F.CLS_WR_STATUS_RESULT pool) = 2 ∧ changes [F.CLS_WR_STATUS_RESULT pool] s (s.clsCommand q pool ok f) := by
  have hwrites : s.clsCommand q pool ok f = s.wr (F.CLS_WR_STATUS_RESULT pool) 2 := if_pos hbusy
  rw [hwrites]
  exact ⟨State.rd_wr_self .., (changes.refl s).wr List.mem_cons_self 2⟩

variable (hfree : s.clsBusy pool = false)
include hfree

/-- A number that names no table is RESULT 3, and no entry changes (R130). -/
theorem State.clsCommand_noTable (htable : s.layout pool (s.rd (F.CLS_WR_TARGET_TABLE pool)) = none) :
    (s.clsCommand q pool ok f).rd (F.CLS_WR_STATUS_RESULT pool) = 3 ∧ (s.clsCommand q pool ok f).mat = s.mat ∧
      readsBut [F.CLS_WR_STATUS_RESULT pool] s (s.clsCommand q pool ok f) := by
  have hwrites : s.clsCommand q pool ok f = (s.ran .cls pool (s.now + 40)).wr (F.CLS_WR_STATUS_RESULT pool) 3 := by
    simp only [State.clsCommand, hfree, Bool.false_eq_true, if_false, State.ran_rd, State.layout_ran, htable]
  rw [hwrites]
  exact ⟨State.rd_wr_self .., rfl, ((readsBut.refl s).congr rfl).wr List.mem_cons_self 3⟩

variable {l : TblLayout} (htable : s.layout pool (s.rd (F.CLS_WR_TARGET_TABLE pool)) = some l)
include htable

/-- An index beyond the table is RESULT 4, and no entry changes (R130). -/
theorem State.clsCommand_noEntry (hix : tblSize l ≤ s.rd (F.CLS_WR_TARGET_INDEX pool)) :
    (s.clsCommand q pool ok f).rd (F.CLS_WR_STATUS_RESULT pool) = 4 ∧ (s.clsCommand q pool ok f).mat = s.mat ∧
      readsBut [F.CLS_WR_STATUS_RESULT pool] s (s.clsCommand q pool ok f) := by
  have hwrites : s.clsCommand q pool ok f = (s.ran .cls pool (s.now + 40)).wr (F.CLS_WR_STATUS_RESULT pool) 4 := by
    simp only [State.clsCommand, hfree, Bool.false_eq_true, if_false, State.ran_rd, State.layout_ran, htable, ge_iff_le, hix, if_true]
  rw [hwrites]
  exact ⟨State.rd_wr_self .., rfl, ((readsBut.refl s).congr rfl).wr List.mem_cons_self 4⟩

variable (hix : s.rd (F.CLS_WR_TARGET_INDEX pool) < tblSize l) {e : ClsEntry}
  (he : e = s.entry pool (s.rd (F.CLS_WR_TARGET_TABLE pool)) (s.rd (F.CLS_WR_TARGET_INDEX pool)))
include hix he

/-- A command that the entry's valid bit allows has its effect on the entry, and beside that on the engine's timer and status (R130, R131). -/
theorem State.clsCommand_accepted (hok : ok e.valid = true) {x : ClsEntry} (hx : f (s.ran .cls pool (s.now + 40)) l e = x) :
    s.clsCommand q pool ok f = ((s.ran .cls pool (s.now + 40)).setEntry pool (s.rd (F.CLS_WR_TARGET_TABLE pool))
      (s.rd (F.CLS_WR_TARGET_INDEX pool)) x).clsResult pool 0 x.valid := by
  subst he hx
  simp only [State.clsCommand, hfree, Bool.false_eq_true, if_false, State.ran_rd, State.layout_ran, htable, ge_iff_le, Nat.not_le.2 hix,
    State.entry_ran, hok, if_true]

/-- What an accepted command leaves (R130, R131). -/
theorem State.clsCommand_changes (hok : ok e.valid = true) {x : ClsEntry} (hx : f (s.ran .cls pool (s.now + 40)) l e = x) :
    (s.clsCommand q pool ok f).entry pool (s.rd (F.CLS_WR_TARGET_TABLE pool)) (s.rd (F.CLS_WR_TARGET_INDEX pool)) = x ∧
      (s.clsCommand q pool ok f).rd (F.CLS_WR_STATUS_RESULT pool) = 0 ∧
      (s.clsCommand q pool ok f).on (F.CLS_WR_STATUS_VALID pool) = x.valid := by
  rw [State.clsCommand_accepted hfree htable hix he hok hx]
  exact ⟨State.entry_setEntry .., State.clsResult_result .., State.clsResult_valid ..⟩

/-- A command that the entry's valid bit forbids changes no entry; it is a discarded write, and sets bit 1 of PRS_INT_STATUS (R131). -/
theorem State.clsCommand_refused (hok : ok e.valid = false) :
    (s.clsCommand q pool ok f).mat = s.mat ∧ (s.clsCommand q pool ok f).rd (F.CLS_WR_STATUS_RESULT pool) = 1 ∧
      (s.clsCommand q pool ok f).on (F.CLS_WR_STATUS_VALID pool) = e.valid ∧ (s.clsCommand q pool ok f).intBit .prs (pool / 2) 1 = true := by
  have hwrites : s.clsCommand q pool ok f =
      (((s.ran .cls pool (s.now + 40)).clsResult pool 1 e.valid).locked q .CLS_WR_CMD pool 1).raise .prs (pool / 2) 1 := by
    subst he
    simp only [State.clsCommand, hfree, Bool.false_eq_true, if_false, State.ran_rd, State.layout_ran, htable, ge_iff_le, Nat.not_le.2 hix,
      State.entry_ran, hok]
  have hreads : ∀ g : Fld, g.reg = .CLS_WR_STATUS →
      (s.clsCommand q pool ok f).rd g = ((s.ran .cls pool (s.now + 40)).clsResult pool 1 e.valid).rd g := fun g hg => by
    rw [hwrites, State.rd_raise_reg _ _ _ _ (show ¬ g.reg = .PRS_INT_STATUS by rw [hg]; decide), State.locked_reads (by rw [hg]; decide)]
  refine ⟨?_, ?_, ?_, ?_⟩
  · rw [hwrites, State.raise_mat, State.locked_mat]
    rfl
  · exact (hreads (F.CLS_WR_STATUS_RESULT pool) rfl).trans (State.clsResult_result ..)
  · exact (State.on_congr (hreads (F.CLS_WR_STATUS_VALID pool) rfl)).trans (State.clsResult_valid ..)
  · rw [hwrites]
    exact State.intBit_raise_self _ _ _ _ (by decide)

end Engine

/-! ### CLS_READ -/

/-- The row of CLS_WR_DATA of a pool. -/
def clsData (pool k : Nat) : Fld := F.CLS_WR_DATA_WORD (32 * pool + k)

theorem clsData_inj (pool a b : Nat) (h : (clsData pool a).key = (clsData pool b).key) : a = b := by
  obtain ⟨-, hix, -⟩ := Fld.key_eq.1 h
  exact Nat.add_left_cancel hix

/-- The words of an entry go to CLS_WR_DATA. -/
theorem State.showEntry_eq {u : State} {pool : Nat} {l : TblLayout} {e : ClsEntry}
    (htable : u.layout pool (u.rd (F.CLS_WR_TARGET_TABLE pool)) = some l) (hix : u.rd (F.CLS_WR_TARGET_INDEX pool) < tblSize l)
    (he : u.entry pool (u.rd (F.CLS_WR_TARGET_TABLE pool)) (u.rd (F.CLS_WR_TARGET_INDEX pool)) = e) :
    u.showEntry pool = u.wrWords (clsData pool) (e.words.getD · 0) (tblWords l) := by
  subst he
  simp only [State.showEntry, htable, ge_iff_le, Nat.not_le.2 hix, if_false]
  exact State.foldl_wr_eq_wrWords u (clsData pool) (fun v k => (v.entry pool _ _).words.getD k 0) (fun _ _ _ _ => rfl) _

/-- CLS_READ of an entry: it stays, and CLS_WR_DATA and VALID show it (R130). -/
theorem clsRead_shows {s : State} {q : Requester} {i : Fin 16} {d : Fin 2} (hq : s.grants q false = true)
    (hfree : s.clsBusy (2 * i + d) = false) {l : TblLayout} (htable : s.layout (2 * i + d) (s.rd (F.CLS_WR_TARGET_TABLE (2 * i + d))) = some l)
    (hix : s.rd (F.CLS_WR_TARGET_INDEX (2 * i + d)) < tblSize l) {e : ClsEntry}
    (he : e = s.entry (2 * i + d) (s.rd (F.CLS_WR_TARGET_TABLE (2 * i + d))) (s.rd (F.CLS_WR_TARGET_INDEX (2 * i + d)))) :
    Runs (.clsRead q i d) s fun t =>
      t.entry (2 * i + d) (s.rd (F.CLS_WR_TARGET_TABLE (2 * i + d))) (s.rd (F.CLS_WR_TARGET_INDEX (2 * i + d))) = e ∧
      t.on (F.CLS_WR_STATUS_VALID (2 * i + d)) = e.valid ∧
      ∀ k < tblWords l, t.rd (F.CLS_WR_DATA_WORD (32 * (2 * i + d) + k)) = e.words.getD k 0 % 2 ^ 32 := by
  generalize hpool : 2 * i.val + d.val = pool at *
  generalize htb : s.rd (F.CLS_WR_TARGET_TABLE pool) = tb at *
  generalize hixn : s.rd (F.CLS_WR_TARGET_INDEX pool) = ix at *
  set u := ((s.ran .cls pool (s.now + 40)).setEntry pool tb ix e).clsResult pool 0 e.valid
  have hu : s.clsCommand q pool (fun _ => true) (fun _ _ e => e) = u := by
    subst htb hixn
    exact State.clsCommand_accepted hfree htable hix he rfl rfl
  have hreads : ∀ {g : Fld}, g.reg = .CLS_WR_TARGET → u.rd g = s.rd g := fun hg =>
    State.clsResult_reads _ _ _ _ (by rw [hg]; decide)
  have hutb : u.rd (F.CLS_WR_TARGET_TABLE pool) = tb := (hreads rfl).trans htb
  have huix : u.rd (F.CLS_WR_TARGET_INDEX pool) = ix := (hreads rfl).trans hixn
  have hue : u.entry pool tb ix = e := State.entry_setEntry ..
  have hshow : u.showEntry pool = u.wrWords (clsData pool) (e.words.getD · 0) (tblWords l) :=
    State.showEntry_eq (by rw [hutb]; exact htable) (by rw [huix]; exact hix) (by rw [hutb, huix]; exact hue)
  have hexec : (if s.clsBusy pool then s.clsCommand q pool (fun _ => true) (fun _ _ e => e)
      else (s.clsCommand q pool (fun _ => true) (fun _ _ e => e)).showEntry pool) = u.wrWords (clsData pool) (e.words.getD · 0) (tblWords l) := by
    rw [hfree, hu]
    exact hshow
  refine .of_granted hq rfl ?_
  rw [hpool, hexec]
  refine ⟨(State.entry_congr (State.wrWords_mat ..) ..).trans hue, ?_, fun k hk => State.rd_wrWords _ _ _ (clsData_inj pool) hk⟩
  exact (State.on_congr (State.rd_wrWords_ne _ _ _ _ fun k _ he => absurd (Fld.key_eq.1 he).1
    (show RegName.CLS_WR_STATUS ≠ .CLS_WR_DATA by decide))).trans (State.clsResult_valid ..)

end Sys2Proof.Machine
end

section
/-! SUPPORT. The pattern banks (R127), and the statement of the classifier and its banks. -/

set_option Elab.async false

namespace Sys2Proof.Machine

/-! ### PPE_BANK_SWITCH -/

/-- What is signalled from a state with other tables is signalled from the state itself, the tables apart. -/
theorem signals.of_updMat {fs : List Fld} {s u t : State} {g : MatSt → MatSt} (hu : signals fs s u) (h : signals fs (u.updMat g) t) :
    signals fs s { t with mat := s.mat } := by
  obtain ⟨hregs, hrest, l, hl, hmsix⟩ := h
  obtain ⟨uregs, urest, k, hk, umsix⟩ := hu
  refine ⟨(readsBut.trans uregs hregs).congr rfl, ?_, l ++ k, ?_, ?_⟩
  · exact (congrArg (fun x : State => { x with mat := s.mat, regs := s.regs, out := s.out, msixPend := s.msixPend }) hrest).trans
      (congrArg (fun x : State => { x with mat := s.mat }) urest)
  · exact hl.trans ((congrArg (l ++ ·) hk).trans (List.append_assoc ..).symm)
  · exact fun o ho => (List.mem_append.1 ho).elim (hmsix o) (umsix o)

/-- The flips that a bank's switch records: the present one before those of the last 2 ^ 20 ticks. -/
def flipsAt (now : Nat) (l : List Nat) : List Nat := now :: l.filter fun t => now - t ≤ 2 ^ 20

/-- Of the flips after a recent tick, a switch forgets none and adds its own. -/
theorem flipsAt_after {now b : Nat} (l : List Nat) (hb : b < now) (hrecent : now ≤ b + 2 ^ 20) :
    ((flipsAt now l).filter fun t => b < t).length = (l.filter fun t => b < t).length + 1 := by
  have hkept : (l.filter fun t => now - t ≤ 2 ^ 20).filter (fun t => b < t) = l.filter fun t => b < t := by
    rw [List.filter_filter]
    refine List.filter_congr fun t _ => ?_
    simp only [Bool.and_eq_decide, decide_eq_true_eq, decide_eq_decide]
    omega
  rw [flipsAt, List.filter_cons_of_pos (by simpa using hb), hkept, List.length_cons]

/-- No recorded flip lies after a tick that has yet to come. -/
theorem flipsAt_none {now b : Nat} {l : List Nat} (hl : l.all (fun t => t ≤ now) = true) (hb : now ≤ b) :
    (flipsAt now l).filter (fun t => b < t) = [] := by
  refine List.filter_eq_nil_iff.2 fun t ht => ?_
  have hle : t ≤ now := by
    rcases List.mem_cons.1 ht with rfl | hmem
    · exact Nat.le_refl _
    · simpa using List.all_eq_true.1 hl t (List.mem_filter.1 hmem).1
  simpa using Nat.le_trans hle hb

/-- PPE_BANK of an island after a switch, before its interrupt (R127). -/
def State.bankFlipped (s : State) (i : Nat) (active : Bool) : State :=
  ((s.wrB (F.PPE_BANK_ACTIVE i) active).satAdd (F.PPE_BANK_FLIPS i) 1).updMat
    fun m => { m with flips := mset m.flips i (flipsAt s.now (mget s.mat.flips i [])) [] }

theorem State.bankFlipped_active (s : State) (i : Nat) (active : Bool) :
    (s.bankFlipped i active).rd (F.PPE_BANK_ACTIVE i) = if active then 1 else 0 :=
  (State.rd_wr_of_lo_ne _ _ (show (0 : Nat) ≠ 16 by decide)).trans (State.rd_wrB_self _ _ _ (show 0 < 1 by decide))

theorem State.bankFlipped_flips (s : State) (i : Nat) (active : Bool) :
    (s.bankFlipped i active).rd (F.PPE_BANK_FLIPS i) = min (s.rd (F.PPE_BANK_FLIPS i) + 1) (2 ^ 16 - 1) := by
  have hkept : (s.wrB (F.PPE_BANK_ACTIVE i) active).rd (F.PPE_BANK_FLIPS i) = s.rd (F.PPE_BANK_FLIPS i) :=
    State.rd_wr_of_lo_ne _ _ (show (16 : Nat) ≠ 0 by decide)
  simp only [State.bankFlipped, State.updMat_rd, State.rd_satAdd_self, hkept]
  rfl

theorem State.bankFlipped_recorded (s : State) (i : Nat) (active : Bool) :
    mget (s.bankFlipped i active).mat.flips i [] = flipsAt s.now (mget s.mat.flips i []) := by
  simp only [State.bankFlipped, State.updMat_mat, State.satAdd_mat, State.wrB_mat, mget_mset_self]

/-- A switch that is neither refused nor idle flips the bank and sets bit 2 of PRS_INT_STATUS (R127). -/
theorem execPpeBankSwitch_flips {s : State} {q : Requester} {i : Fin 16} {active : Bool} (hq : s.grants q false = true)
    (hne : s.on (F.PPE_BANK_ACTIVE i) ≠ active) (hok : s.on (F.PPE_BANK_SHADOW_OK i) = true) (hload : s.on (F.PPE_BANK_LOADING i) = false) :
    exec (.ppeBankSwitch q i active) s = .next ((s.bankFlipped i active).raise .prs i 2) := by
  have hnow : ((s.wrB (F.PPE_BANK_ACTIVE i) active).satAdd (F.PPE_BANK_FLIPS i) 1).now = s.now :=
    (State.rd_wr_of_reg_ne _ _ (show RegName.LIGHT_TICKS ≠ .PPE_BANK by decide)).trans
      (State.rd_wr_of_reg_ne _ _ (show RegName.LIGHT_TICKS ≠ .PPE_BANK by decide))
  change execPpeBankSwitch q i active s = _
  simp only [execPpeBankSwitch, hq, hne, hok, hload, Bool.not_true, Bool.or_self, Bool.false_eq_true, if_false, hnow]
  rfl

/-- A bit that changes is the other bit. -/
theorem State.rd_of_on_ne {s : State} {f : Fld} {b : Bool} (hf : f.width = 1) (h : s.on f ≠ b) : s.rd f = if b then 0 else 1 := by
  have hlt := s.rd_lt f
  rw [hf] at hlt
  unfold State.on at h
  cases b <;> simp at h ⊢ <;> omega

/-- PPE_BANK_SWITCH to a bank that holds a verified set: frames that begin from now on are scanned by it, frames that have begun by the
bank that was active then (R127). -/
theorem ppeBankSwitch_flips {s : State} {q : Requester} {i : Fin 16} {active : Bool} (hq : s.grants q false = true)
    (hne : s.on (F.PPE_BANK_ACTIVE i) ≠ active) (hok : s.on (F.PPE_BANK_SHADOW_OK i) = true) (hload : s.on (F.PPE_BANK_LOADING i) = false) :
    Runs (.ppeBankSwitch q i active) s fun t =>
      t.on (F.PPE_BANK_ACTIVE i) = active ∧ t.rd (F.PPE_BANK_FLIPS i) = min (s.rd (F.PPE_BANK_FLIPS i) + 1) (2 ^ 16 - 1) ∧
      t.intBit .prs i 2 = true ∧ (∀ b, b < s.now → s.now ≤ b + 2 ^ 20 → t.ppeBank i b = s.ppeBank i b) ∧
      ((mget s.mat.flips i []).all (fun x => x ≤ s.now) = true → ∀ b, s.now ≤ b → t.ppeBank i b = t.rd (F.PPE_BANK_ACTIVE i)) ∧
      signals [F.PPE_BANK_ACTIVE i, F.PPE_BANK_FLIPS i, F.PRS_INT_STATUS_BITS i] s { t with mat := s.mat } := by
  refine .of_exec (execPpeBankSwitch_flips hq hne hok hload) ?_
  have hreads : ∀ {f : Fld}, f.reg = .PPE_BANK → ((s.bankFlipped i active).raise .prs i 2).rd f = (s.bankFlipped i active).rd f :=
    fun hf => State.rd_raise_reg _ _ _ _ (show ¬ _ = RegName.PRS_INT_STATUS by rw [hf]; decide)
  have hactive := (hreads (f := F.PPE_BANK_ACTIVE i) rfl).trans (s.bankFlipped_active i active)
  have hflips : mget ((s.bankFlipped i active).raise .prs i 2).mat.flips i [] = flipsAt s.now (mget s.mat.flips i []) := by
    rw [State.raise_mat, State.bankFlipped_recorded]
  refine ⟨?_, (hreads rfl).trans (s.bankFlipped_flips i active), State.intBit_raise_self _ _ _ _ (by decide), fun b hb hrecent => ?_,
    fun hall b hb => ?_, ?_⟩
  · rw [State.on, hactive]
    cases active <;> rfl
  · rw [State.ppeBank, State.ppeBank, hactive, hflips, flipsAt_after _ hb hrecent, State.rd_of_on_ne rfl hne]
    cases active <;> simp <;> omega
  · rw [State.ppeBank, hflips, flipsAt_none hall hb, hactive]
    cases active <;> rfl
  · have hwrites : signals [F.PPE_BANK_ACTIVE i, F.PPE_BANK_FLIPS i, F.PRS_INT_STATUS_BITS i] s
        ((s.wrB (F.PPE_BANK_ACTIVE i) active).satAdd (F.PPE_BANK_FLIPS i) 1) :=
      ((signals.refl s).wrB (by simp) active).satAdd (by simp) 1
    exact hwrites.of_updMat ((signals.refl _).raise (b := .prs) (i := i.val) (by simp [intStatus]) 2)

/-- PPE_BANK_SWITCH to the active bank changes nothing (R127). -/
theorem ppeBankSwitch_same {s : State} {q : Requester} {i : Fin 16} {active : Bool} (hq : s.grants q false = true)
    (hsame : s.on (F.PPE_BANK_ACTIVE i) = active) : Runs (.ppeBankSwitch q i active) s fun t => t = s := by
  have hexec : exec (.ppeBankSwitch q i active) s = .next s := by
    change execPpeBankSwitch q i active s = _
    simp only [execPpeBankSwitch, hq, hsame, Bool.not_true, Bool.false_eq_true, if_false, if_true]
  exact .of_exec hexec rfl

/-- PPE_BANK_SWITCH to a bank that holds no staged set, or that is being loaded (R127, R472). -/
theorem ppeBankSwitch_discarded {s : State} {q : Requester} {i : Fin 16} {active : Bool} (hq : s.grants q false = true)
    (hne : s.on (F.PPE_BANK_ACTIVE i) ≠ active)
    (hbank : s.on (F.PPE_BANK_SHADOW_OK i) = false ∨ s.on (F.PPE_BANK_LOADING i) = true) :
    Runs (.ppeBankSwitch q i active) s (discarded q (regAddr .PPE_BANK i) 1 0 s) := by
  have hlocked : (!s.on (F.PPE_BANK_SHADOW_OK i) || s.on (F.PPE_BANK_LOADING i)) = true := by simpa using hbank
  have hexec : exec (.ppeBankSwitch q i active) s = .next (s.discard q (regAddr .PPE_BANK i) 1 0) := by
    change execPpeBankSwitch q i active s = _
    simp only [execPpeBankSwitch, hq, hne, hlocked, Bool.not_true, Bool.false_eq_true, if_false, if_true, State.locked]
  exact .of_exec hexec (State.discard_discarded ..)

/-! ### PPE_LOAD_DONE -/

theorem answersBy.boot_eq {fs : List Fld} {s t : State} (h : answersBy fs s t) : t.boot = s.boot := (congrArg State.boot h.2 :)

theorem answersBy.mat_eq {fs : List Fld} {s t : State} (h : answersBy fs s t) : t.mat = s.mat := (congrArg State.mat h.2 :)

/-- Patterns are staged in a staged image only. -/
theorem State.staged_of_stagedPatterns {s : State} {i : Nat} {l : List Pattern} (h : s.stagedPatterns i = some l) :
    ∃ im, s.boot.staged = some im := by
  unfold State.stagedPatterns at h
  split at h
  · next im him => exact ⟨im, him⟩
  · cases h

/-- The inactive bank of island `i` holds the set that was staged for it (R127). -/
def State.bankLoaded (s : State) (i : Nat) (l : List Pattern) : State :=
  (((s.wrB (F.PPE_BANK_LOADING i) false).updMat
      fun m => { m with patterns := mset m.patterns (2 * i + (1 - s.rd (F.PPE_BANK_ACTIVE i))) l [] }).wrB (F.PPE_BANK_SHADOW_OK i) true).updBoot
    fun b => { b with loading := b.loading.erase i }

/-- A load that succeeds: the last of an image answers its command (R127, R407). -/
theorem execPpeLoadDone_ok {s : State} {i : Fin 16} {l : List Pattern} (hloading : s.boot.loading.contains i.val = true)
    (hl : s.stagedPatterns i = some l) :
    exec (.ppeLoadDone i true) s = .next (if (s.boot.loading.erase i.val).isEmpty then (s.bankLoaded i l).finishHold holdStage 0 stOk 0 0
      else s.bankLoaded i l) := by
  obtain ⟨im, him⟩ := State.staged_of_stagedPatterns hl
  have hactive : (s.wrB (F.PPE_BANK_LOADING i) false).rd (F.PPE_BANK_ACTIVE i) = s.rd (F.PPE_BANK_ACTIVE i) :=
    State.rd_wr_of_lo_ne _ _ (show (0 : Nat) ≠ 2 by decide)
  change execPpeLoadDone i true s = _
  simp only [execPpeLoadDone, hloading, him, hl, Bool.not_true, Bool.false_eq_true, if_false, if_true, hactive]
  rfl

/-- A bank that is loaded holds its set, and no other bank changes (R127). -/
theorem State.bankLoaded_holds (s : State) (i : Nat) (l : List Pattern) :
    (s.bankLoaded i l).on (F.PPE_BANK_LOADING i) = false ∧ (s.bankLoaded i l).on (F.PPE_BANK_SHADOW_OK i) = true ∧
      mget (s.bankLoaded i l).mat.patterns (2 * i + (1 - s.rd (F.PPE_BANK_ACTIVE i))) [] = l ∧
      (∀ b ≠ 2 * i + (1 - s.rd (F.PPE_BANK_ACTIVE i)), mget (s.bankLoaded i l).mat.patterns b [] = mget s.mat.patterns b []) := by
  unfold State.bankLoaded
  refine ⟨?_, ?_, mget_mset_self .., fun b hb => mget_mset_ne _ _ _ _ hb⟩
  · rw [State.on, State.updBoot_rd, State.wrB, State.rd_wr_of_lo_ne _ _ (show (2 : Nat) ≠ 1 by decide), State.updMat_rd]
    exact State.on_wrB_self s false (show 0 < 1 by decide)
  · rw [State.on, State.updBoot_rd, State.rd_wrB_self _ _ _ (show 0 < 1 by decide)]
    rfl

/-- PPE_LOAD_DONE of a load that succeeds: what the last load answers leaves the bank (R127). -/
theorem ppeLoadDone_loads {s : State} {i : Fin 16} {l : List Pattern} (hloading : s.boot.loading.contains i.val = true)
    (hl : s.stagedPatterns i = some l) :
    Runs (.ppeLoadDone i true) s fun t =>
      t.on (F.PPE_BANK_LOADING i) = false ∧ t.on (F.PPE_BANK_SHADOW_OK i) = true ∧
      mget t.mat.patterns (2 * i.val + (1 - s.rd (F.PPE_BANK_ACTIVE i))) [] = l ∧ t.boot.loading = s.boot.loading.erase i.val ∧
      (∀ b ≠ 2 * i.val + (1 - s.rd (F.PPE_BANK_ACTIVE i)), mget t.mat.patterns b [] = mget s.mat.patterns b []) := by
  refine .of_exec (execPpeLoadDone_ok hloading hl) ?_
  generalize ht : (if (s.boot.loading.erase i.val).isEmpty then (s.bankLoaded i l).finishHold holdStage 0 stOk 0 0
    else s.bankLoaded i l) = t
  have hanswers : answersBy allRspFields (s.bankLoaded i l) t := by
    rw [← ht]
    split
    · exact State.finishHold_answersBy ..
    · exact .aside rfl rfl
  have hreads : ∀ {f : Fld}, f.reg = .PPE_BANK → t.on f = (s.bankLoaded i l).on f := fun hf => by
    refine State.on_congr (hanswers.rd_eq fun g hg => ?_)
    obtain ⟨k, -, rfl⟩ := List.mem_map.1 hg
    rw [hf]
    exact show RegName.PPE_BANK ≠ .DYS_RSP_TAIL by decide
  obtain ⟨hoff, hok, hset, hothers⟩ := s.bankLoaded_holds i l
  rw [hreads rfl, hreads rfl, hanswers.mat_eq, hanswers.boot_eq]
  exact ⟨hoff, hok, hset, rfl, hothers⟩

/-- What an image leaves to be staged: nothing, and no load goes on. -/
theorem State.unstage_boot (s : State) : s.unstage.boot.staged = none ∧ s.unstage.boot.loading = [] := ⟨rfl, rfl⟩

theorem State.imageStore_mat (s : State) (off : Nat) (data : Bytes) : (s.imageStore off data).mat = s.mat :=
  List.foldlRecOn (motive := fun u : State => u.mat = s.mat) _ _ rfl fun u hu st _ => by
    split
    · exact hu
    · exact hu

theorem State.unstage_mat (s : State) : s.unstage.mat = s.mat := by
  unfold State.unstage
  extract_lets u
  have hu : u.mat = s.mat := by
    unfold u
    split
    · exact State.imageStore_mat ..
    · rfl
  exact hu

theorem State.dropPatterns_mat (s : State) (im : Image) : (s.dropPatterns im).mat = s.mat := by
  unfold State.dropPatterns
  split
  · rfl
  · exact List.foldlRecOn (motive := fun u : State => u.mat = s.mat) _ _ rfl fun _ hu _ _ => hu

/-- PPE_LOAD_DONE of a load that fails: the staged image is dropped, and no bank changes (R127, R407). -/
theorem ppeLoadDone_fails {s : State} {i : Fin 16} {im : Image} {l : List Pattern} (hloading : s.boot.loading.contains i.val = true)
    (him : s.boot.staged = some im) (hl : s.stagedPatterns i = some l) :
    Runs (.ppeLoadDone i false) s fun t =>
      t.boot.staged = none ∧ t.boot.loading = [] ∧ t.mat = s.mat ∧
      t = (((s.wrB (F.PPE_BANK_LOADING i) false).dropPatterns im).unstage).finishHold holdStage 0 stImageInvalid 0 0 := by
  have hexec : exec (.ppeLoadDone i false) s =
      .next ((((s.wrB (F.PPE_BANK_LOADING i) false).dropPatterns im).unstage).finishHold holdStage 0 stImageInvalid 0 0) := by
    change execPpeLoadDone i false s = _
    simp only [execPpeLoadDone, hloading, him, hl, Bool.not_true, Bool.false_eq_true, if_false]
  refine .of_exec hexec ?_
  rw [(State.finishHold_answersBy ..).boot_eq, (State.finishHold_answersBy ..).mat_eq, State.unstage_mat, State.dropPatterns_mat]
  obtain ⟨hstaged, hnoLoads⟩ := ((s.wrB (F.PPE_BANK_LOADING i) false).dropPatterns im).unstage_boot
  exact ⟨hstaged, hnoLoads, rfl, rfl⟩

/-! ### The statement -/

section Entry

variable {s : State} {q : Requester} {i : Fin 16} {d : Fin 2} {l : TblLayout} {e : ClsEntry} (hq : s.grants q false = true)
  (hfree : s.clsBusy (2 * i + d) = false) (htable : s.layout (2 * i + d) (s.rd (F.CLS_WR_TARGET_TABLE (2 * i + d))) = some l)
  (hix : s.rd (F.CLS_WR_TARGET_INDEX (2 * i + d)) < tblSize l)
  (he : e = s.entry (2 * i + d) (s.rd (F.CLS_WR_TARGET_TABLE (2 * i + d))) (s.rd (F.CLS_WR_TARGET_INDEX (2 * i + d))))
include hq hfree htable hix he

/-- A command that the valid bit of its entry allows (R130, R131). -/
theorem Runs.of_clsAccepted {c : Instr} {ok : Bool → Bool} {f : State → TblLayout → ClsEntry → ClsEntry} {x : ClsEntry} {p : State → Prop}
    (hexec : exec c s = if !s.grants q false then .next s else .next (s.clsCommand q (2 * i + d) ok f))
    (hok : ok e.valid = true) (hx : f (s.ran .cls (2 * i + d) (s.now + 40)) l e = x)
    (hp : ∀ t : State, t.entry (2 * i + d) (s.rd (F.CLS_WR_TARGET_TABLE (2 * i + d))) (s.rd (F.CLS_WR_TARGET_INDEX (2 * i + d))) = x →
      t.rd (F.CLS_WR_STATUS_RESULT (2 * i + d)) = 0 → t.on (F.CLS_WR_STATUS_VALID (2 * i + d)) = x.valid → p t) : Runs c s p := by
  obtain ⟨hentry, hresult, hvalid⟩ := State.clsCommand_changes hfree htable hix he hok hx
  exact .of_granted hq hexec (hp _ hentry hresult hvalid)

/-- A command that the valid bit of its entry forbids (R131). -/
theorem Runs.of_clsRefused {c : Instr} {ok : Bool → Bool} {f : State → TblLayout → ClsEntry → ClsEntry} {v : Bool}
    (hexec : exec c s = if !s.grants q false then .next s else .next (s.clsCommand q (2 * i + d) ok f)) (hv : e.valid = v) (hok : ok v = false) :
    Runs c s fun t => t.mat = s.mat ∧ t.rd (F.CLS_WR_STATUS_RESULT (2 * i + d)) = 1 ∧ t.on (F.CLS_WR_STATUS_VALID (2 * i + d)) = v ∧
      t.intBit .prs i 1 = true := by
  have hisland : (2 * i.val + d.val) / 2 = i.val := by omega
  obtain ⟨hmat, hresult, hvalid, hbit⟩ := State.clsCommand_refused (q := q) (f := f) hfree htable hix he (hv ▸ hok)
  rw [hisland] at hbit
  exact .of_granted hq hexec ⟨hmat, hresult, hvalid.trans hv, hbit⟩

/-- CLS_WRITE_ACTION replaces the action words and leaves the key and the valid bit (R130). -/
theorem clsWriteAction_runs : Runs (.clsWriteAction q i d) s fun t =>
    (t.entry (2 * i + d) (s.rd (F.CLS_WR_TARGET_TABLE (2 * i + d))) (s.rd (F.CLS_WR_TARGET_INDEX (2 * i + d)))).valid = e.valid ∧
    (∀ k < tblActFirst l, (t.entry (2 * i + d) (s.rd (F.CLS_WR_TARGET_TABLE (2 * i + d)))
      (s.rd (F.CLS_WR_TARGET_INDEX (2 * i + d)))).words.getD k 0 = e.words.getD k 0) ∧
    (∀ k < tblWords l, tblActFirst l ≤ k → (t.entry (2 * i + d) (s.rd (F.CLS_WR_TARGET_TABLE (2 * i + d)))
      (s.rd (F.CLS_WR_TARGET_INDEX (2 * i + d)))).words.getD k 0 = s.rd (F.CLS_WR_DATA_WORD (32 * (2 * i + d) + k))) ∧
    t.rd (F.CLS_WR_STATUS_RESULT (2 * i + d)) = 0 := by
  refine .of_clsAccepted hq hfree htable hix he rfl rfl rfl fun t hentry hresult _ => ?_
  rw [hentry]
  refine ⟨rfl, fun k hk => ?_, fun k hk hfirst => ?_, hresult⟩
  · refine (State.getD_takeWords _ _ _ _ _ (Nat.lt_of_lt_of_le hk (Nat.sub_le ..))).trans (if_neg fun h => ?_)
    exact Nat.not_le.2 hk h.1
  · exact (State.getD_takeWords _ _ _ _ _ hk).trans (if_pos ⟨hfirst, Nat.le_of_lt hk⟩)

end Entry

/-- Settles O36: each command of the classifier by what its engine finds (busy, no table, no entry, an entry with its valid bit), the
commands of the pattern banks by the state of the bank. -/
theorem classification : Obligations.Classification := by
  refine ⟨fun s q i d hq => ⟨fun hbusy => ?_, ?_⟩, fun s i => ⟨fun q active hq => ⟨ppeBankSwitch_same hq, ppeBankSwitch_discarded hq,
    ppeBankSwitch_flips hq⟩, fun hidle ok => ?_, fun hloading l hl => ppeLoadDone_loads hloading hl,
    fun hloading im him l hl => ppeLoadDone_fails hloading him hl⟩⟩
  · refine ⟨fun a b => .of_granted hq rfl (State.clsCommand_busy hbusy), .of_granted hq rfl (State.clsCommand_busy hbusy),
      .of_granted hq rfl (State.clsCommand_busy hbusy), .of_granted hq rfl (State.clsCommand_busy hbusy), .of_granted hq rfl ?_⟩
    rw [if_pos hbusy]
    exact State.clsCommand_busy hbusy
  · rintro hfree _ rfl _ rfl
    refine ⟨fun htable => .of_granted hq rfl (State.clsCommand_noTable hfree htable),
      fun l htable hix => .of_granted hq rfl (State.clsCommand_noEntry hfree htable hix), fun l htable hix e he =>
      ⟨fun hinvalid => ⟨fun a b => ?_, ?_, ?_⟩, fun hvalid => ⟨fun a b => ?_, ?_, ?_⟩, clsWriteAction_runs hq hfree htable hix he,
        clsRead_shows hq hfree htable hix he⟩⟩
    · exact .of_clsAccepted hq hfree htable hix he rfl (by rw [hinvalid]; rfl) rfl
        fun t hentry hresult hbit => ⟨hentry, hresult, hbit.trans hinvalid⟩
    · exact .of_clsAccepted hq hfree htable hix he rfl (by rw [hinvalid]; rfl) rfl fun t hentry hresult hbit => ⟨hentry, hresult, hbit⟩
    · exact .of_clsRefused hq hfree htable hix he rfl hinvalid rfl
    · exact .of_clsRefused hq hfree htable hix he rfl hvalid rfl
    · exact .of_clsRefused hq hfree htable hix he rfl hvalid rfl
    · exact .of_clsAccepted hq hfree htable hix he rfl hvalid rfl fun t hentry hresult hbit => ⟨hentry, hresult, hbit⟩
  · exact .of_exec (congrArg Host.Outcome.next (if_pos (by simpa using hidle))) rfl

end Sys2Proof.Machine
end

section
/-! SUPPORT. The image commands of Dysum (R127, R163, R164, R407, R408), and their statement. -/

set_option Elab.async false

namespace Sys2Proof.Machine

/-! ### The staging area -/

/-- Two states store alike: their HBM and their partition of it agree (R215). -/
def storesAlike (s t : State) : Prop := t.hbm = s.hbm ∧ ∀ f : Fld, f.reg = .BPM_REGION → t.rd f = s.rd f

/-- What the staging area holds afterwards depends on HBM and its partition only. -/
theorem storesAlike.imageStore {s t : State} (h : storesAlike s t) (off : Nat) (data : Bytes) :
    storesAlike (s.imageStore off data) (t.imageStore off data) := by
  unfold State.imageStore
  refine List.foldl_rel (r := storesAlike) h fun st _ u v ⟨hhbm, hregions⟩ => ?_
  simp only [hregions (F.BPM_REGION_SIZE _) rfl, hregions (F.BPM_REGION_BASE _) rfl]
  split
  · exact ⟨congrArg (fun m => Memory.writeAll m _ data) hhbm, hregions⟩
  · exact ⟨hhbm, hregions⟩

/-- Storing an image changes HBM and nothing else. -/
theorem State.imageStore_rest (s : State) (off : Nat) (data : Bytes) : { s.imageStore off data with hbm := s.hbm } = s :=
  List.foldlRecOn (motive := fun u : State => { u with hbm := s.hbm } = s) _ _ rfl fun _ hu _ _ => by
    split
    · exact hu
    · exact hu

/-! ### Banks that load -/

/-- The inactive bank of island `i` begins to load (R127). -/
def State.bankLoading (s : State) (i : Nat) : State := (s.wrB (F.PPE_BANK_LOADING i) true).wrB (F.PPE_BANK_SHADOW_OK i) false

/-- The bank of island `k` loads, and holds no verified set. -/
def State.loadsBank (s : State) (k : Nat) : Prop := s.on (F.PPE_BANK_LOADING k) = true ∧ s.on (F.PPE_BANK_SHADOW_OK k) = false

theorem State.bankLoading_loads (s : State) (i : Nat) : (s.bankLoading i).loadsBank i :=
  ⟨(State.on_congr (State.rd_wr_of_lo_ne _ _ (show (2 : Nat) ≠ 1 by decide))).trans (State.on_wrB_self s true (show 0 < 1 by decide)),
    State.on_wrB_self _ false (show 0 < 1 by decide)⟩

/-- Another bank that begins to load leaves one that loads. -/
theorem State.loadsBank.bankLoading {s : State} {k : Nat} (h : s.loadsBank k) (i : Nat) : (s.bankLoading i).loadsBank k := by
  rcases eq_or_ne k i with rfl | hne
  · exact s.bankLoading_loads k
  · have hkept : ∀ {f : Fld}, f.ix = k → (s.bankLoading i).on f = s.on f := fun hf =>
      State.on_congr ((State.rd_wr_ne _ _ fun e => hne (hf.symm.trans (Fld.key_eq.1 e).2.1)).trans
        (State.rd_wr_ne _ _ fun e => hne (hf.symm.trans (Fld.key_eq.1 e).2.1)))
    exact ⟨(hkept rfl).trans h.1, (hkept rfl).trans h.2⟩

/-- The banks of all the islands named begin to load. -/
theorem State.foldl_bankLoading_loads (s : State) {ks : List Nat} {k : Nat} (hk : k ∈ ks) :
    (ks.foldl State.bankLoading s).loadsBank k := by
  induction ks generalizing s with
  | nil => exact absurd hk List.not_mem_nil
  | cons i ks ih =>
    rcases List.mem_cons.1 hk with rfl | hmem
    · exact List.foldlRecOn (motive := (State.loadsBank · k)) ks _ (s.bankLoading_loads k) fun _ hu i _ => hu.bankLoading i
    · exact ih (s.bankLoading i) hmem

/-- Banks that begin to load change PPE_BANK and nothing else. -/
theorem State.foldl_bankLoading_rest (s : State) (ks : List Nat) :
    readsOff [.PPE_BANK] s (ks.foldl State.bankLoading s) ∧ { ks.foldl State.bankLoading s with regs := s.regs } = s :=
  List.foldlRecOn (motive := fun u : State => readsOff [.PPE_BANK] s u ∧ { u with regs := s.regs } = s) _ _ ⟨.refl s, rfl⟩
    fun _ ⟨hreads, hrest⟩ i _ =>
      ⟨(hreads.wr (f := F.PPE_BANK_LOADING i) List.mem_cons_self _).wr (f := F.PPE_BANK_SHADOW_OK i) List.mem_cons_self _, hrest⟩

/-! ### IMAGE_STAGE -/

/-- The staged image is recorded and stands in the staging area (R407). -/
def State.imageHeld (s : State) (im : Image) : State :=
  ((s.updBoot (fun b => { b with staged := some im, swapping := false, loading := [] })).wr F.BOOT_STAGED_IMAGE_ID im.imageId).imageStore
    s.stagingOff im.bytes

/-- A table-set image starts to load in the banks of its islands (R407). -/
theorem State.stageStart_patterns (s : State) {im : Image} (htype : im.type = 2) (x : Nat) :
    s.stageStart im x =
      ((imageIslands im).foldl State.bankLoading (s.imageHeld im)).updBoot (fun b => { b with loading := (imageIslands im).dedup }) :=
  if_neg (by omega)

/-- What the record of a staged image changes. -/
theorem State.imageHeld_rest (s : State) (im : Image) :
    (s.imageHeld im).boot = { s.boot with staged := some im, swapping := false, loading := [] } ∧
      (s.imageHeld im).rd F.BOOT_STAGED_IMAGE_ID = im.imageId % 2 ^ 32 ∧ readsOff [.BOOT_STAGED] s (s.imageHeld im) ∧
      (s.imageHeld im).hbm = (s.imageStore s.stagingOff im.bytes).hbm ∧
      { s.imageHeld im with regs := s.regs, boot := s.boot, hbm := s.hbm } = s := by
  unfold State.imageHeld
  set v := (s.updBoot (fun b => { b with staged := some im, swapping := false, loading := [] })).wr F.BOOT_STAGED_IMAGE_ID im.imageId with hv
  have hstored := v.imageStore_rest s.stagingOff im.bytes
  have hregs : (v.imageStore s.stagingOff im.bytes).regs = v.regs := (congrArg State.regs hstored :)
  have halike : storesAlike s v :=
    ⟨rfl, fun f hf => State.rd_wr_of_reg_ne _ _ (show f.reg ≠ .BOOT_STAGED by rw [hf]; decide)⟩
  refine ⟨(congrArg State.boot hstored :), (State.rd_congr hregs _).trans (State.rd_wr_self ..), ?_, (halike.imageStore _ _).1, ?_⟩
  · exact (((readsOff.refl s).congr rfl).wr (f := F.BOOT_STAGED_IMAGE_ID) List.mem_cons_self _).congr hregs
  · exact (congrArg (fun u : State => { u with regs := s.regs, boot := s.boot, hbm := s.hbm }) hstored :)

section Taken

variable {s u : State} {h : DysHdr} (htake : s.dysTake h.via = some u) (hready : u.ready = true) (hsuits : h.suits = true)
  (hform : dysBadForm h = false) (howner : levelOf h.via = lvOwner)
include htake hready hsuits howner

section Patterns

variable {im : Image} (htype : im.type = 2) (hstaged : u.boot.staged = none)
  (hidle : (imageIslands im).any (fun k => u.on (F.PPE_BANK_LOADING k)) = false) (hholds : u.stagingHolds im = true)
include hform htype hstaged hidle hholds

/-- A table-set image for banks that do not load, where nothing is staged and the staging area holds it, is judged by its verification
alone (R407). -/
theorem exec_imageStage_patterns (x : Fin 5) :
    exec (.imageStage h im x) s = .next (if u.imageError im true = 0 then (u.addHold h 0x0040 holdStage 0).stageStart im x
      else State.dysAnswer h 0x0040
        { st := u.imageRejected (u.imageError im true) true, status := stImageInvalid, detail := u.imageError im true }) := by
  refine congrArg Host.Outcome.next ((State.dysCmd_passes htake hready hsuits howner.ge rfl rfl _).trans ?_)
  simp only [htype, hstaged, hidle, hform, hholds, Option.isSome_none, Bool.or_self, Bool.and_false, Bool.not_true, decide_true,
    Bool.false_and, Bool.false_eq_true, if_false, show ¬ (2 : Nat) = 1 by decide, decide_false]
  by_cases hvalid : u.imageError im true = 0
  · simp only [hvalid, if_true]
  · simp only [hvalid, Bool.false_eq_true, if_false]

/-- A table-set image that verifies is staged and loads; its command holds its interface (R407, R424). -/
theorem imageStage_stages (x : Fin 5) (hvalid : u.imageError im true = 0) :
    Runs (.imageStage h im x) s fun t =>
      t.boot.staged = some im ∧ t.boot.swapping = false ∧ t.rd F.BOOT_STAGED_IMAGE_ID = im.imageId % 2 ^ 32 ∧
      (∀ k ∈ imageIslands im, t.on (F.PPE_BANK_LOADING k) = true ∧ t.on (F.PPE_BANK_SHADOW_OK k) = false) ∧
      readsOff [.BOOT_STAGED, .PPE_BANK] u t ∧ t.hbm = (u.imageStore u.stagingOff im.bytes).hbm ∧
      { t with regs := u.regs, boot := u.boot, dys := u.dys, hbm := u.hbm } = u := by
  refine .of_exec ((exec_imageStage_patterns htake hready hsuits hform howner htype hstaged hidle hholds x).trans
    (congrArg Host.Outcome.next (if_pos hvalid))) ?_
  rw [State.stageStart_patterns _ htype]
  set v := u.addHold h 0x0040 holdStage 0
  obtain ⟨hboot, hid, hheld, hhbm, hrest⟩ := v.imageHeld_rest im
  obtain ⟨hbanks, hothers⟩ := (v.imageHeld im).foldl_bankLoading_rest (imageIslands im)
  set w := (imageIslands im).foldl State.bankLoading (v.imageHeld im)
  have hwboot : w.boot = _ := (congrArg State.boot hothers :).trans hboot
  have hwhbm : w.hbm = _ := (congrArg State.hbm hothers :).trans hhbm
  have halike : storesAlike u v := ⟨rfl, fun _ _ => rfl⟩
  refine ⟨congrArg BootSt.staged hwboot, congrArg BootSt.swapping hwboot, ?_, fun k hk => (v.imageHeld im).foldl_bankLoading_loads hk,
    ?_, hwhbm.trans (halike.imageStore _ _).1, ?_⟩
  · exact (hbanks F.BOOT_STAGED_IMAGE_ID (by decide)).trans hid
  · exact ((hheld.mono (by simp)).trans (hbanks.mono (by simp))).congr rfl
  · exact (congrArg (fun y : State => { y with regs := u.regs, boot := u.boot, dys := u.dys, hbm := u.hbm }) hothers).trans
      (congrArg (fun y : State => { y with dys := u.dys }) hrest)

/-- A table-set image that does not verify is rejected with the code of the check that it fails (R395, R407). -/
theorem imageStage_rejects (x : Fin 5) (hinvalid : u.imageError im true ≠ 0) :
    Runs (.imageStage h im x) s fun t =>
      t = State.dysAnswer h 0x0040
        { st := u.imageRejected (u.imageError im true) true, status := stImageInvalid, detail := u.imageError im true } :=
  .of_exec ((exec_imageStage_patterns htake hready hsuits hform howner htype hstaged hidle hholds x).trans
    (congrArg Host.Outcome.next (if_neg hinvalid))) rfl

end Patterns

/-! ### IMAGE_SWAP and IMAGE_CANCEL -/

theorem imageSwap_conflict (hstaged : u.boot.staged = none) :
    Runs (.imageSwap h) s fun t => t = State.dysAnswer h 0x0041 { st := u, status := stConflict } :=
  Runs.of_dysAnswer htake hready hsuits rfl howner.ge rfl rfl (by simp only [hstaged]) rfl rfl

theorem imageCancel_conflict (hstaged : u.boot.staged = none) :
    Runs (.imageCancel h) s fun t => t = State.dysAnswer h 0x0042 { st := u, status := stConflict } :=
  Runs.of_dysAnswer htake hready hsuits rfl howner.ge rfl rfl
    (by simp only [hstaged, Option.isNone_none, Bool.true_or, if_true]) rfl rfl

section Staged

variable {im : Image} (hstaged : u.boot.staged = some im) (hswapping : u.boot.swapping = false)
include hform hstaged hswapping

/-- The reserve is READY and the target ACTIVE: the swap starts with its fence (R164, R166). -/
theorem imageSwap_starts (htype : im.type = 1) (hsvn : u.fuses.svn ≤ im.svn)
    (hallowed : u.swapAllowed (imageTarget im).1 (imageTarget im).2 = true) :
    Runs (.imageSwap h) s fun t =>
      t = State.dysAnswer h 0x0041
        { st := (u.updBoot (fun b => { b with swapping := true })).fenceStart (imageTarget im).1 (imageTarget im).2, state := 3 } :=
  Runs.of_dysAnswer htake hready hsuits rfl howner.ge rfl rfl
    (by simp only [hstaged, hswapping, htype, hallowed, hform, Nat.not_lt.2 hsvn, Bool.not_false, Bool.not_true, Bool.and_self, if_true,
      Bool.false_eq_true, if_false]) rfl rfl

/-- A staged image that is not being swapped is discarded (R163, R408). -/
theorem imageCancel_discards :
    Runs (.imageCancel h) s fun t =>
      t = State.dysAnswer h 0x0042 { st := u.discardStaged, state := if im.type = 1 then 1 else 0 } :=
  Runs.of_dysAnswer htake hready hsuits rfl howner.ge rfl rfl
    (by simp only [hstaged, hswapping, hform, Option.isNone_some, Bool.or_self, Bool.false_eq_true, if_false]) rfl rfl

end Staged

end Taken

/-- Settles O30: each image command passes the checks of Dysum and has the effect that the staged image asks for. -/
theorem dysumImages : Obligations.DysumImages :=
  fun _ _ _ htake hready hsuits hform howner =>
    ⟨fun _ x htype hstaged hidle hholds =>
        ⟨imageStage_stages htake hready hsuits hform howner htype hstaged hidle hholds x,
          imageStage_rejects htake hready hsuits hform howner htype hstaged hidle hholds x⟩,
      fun hstaged => ⟨imageSwap_conflict htake hready hsuits howner hstaged, imageCancel_conflict htake hready hsuits howner hstaged⟩,
      fun _ hstaged htype hsvn hswapping hallowed =>
        imageSwap_starts htake hready hsuits hform howner hstaged hswapping htype hsvn hallowed,
      fun _ hstaged hswapping => imageCancel_discards htake hready hsuits hform howner hstaged hswapping⟩

end Sys2Proof.Machine
end

section
/-! SUPPORT. A reserve whose program stands in it while a table copy still goes on (R165). -/

set_option Elab.async false

namespace Sys2Proof.Machine

/-- READY waits for the copies of the tables (R165): until the last is complete, LOADING_READY changes nothing. -/
theorem loadingReady_waits {s : State} {i : Fin 16} {d : Fin 2} {w : PipeSwap} (hswap : s.pipeSwap i d = some w)
    (hcopies : s.coreClocks (s.now - w.began) < copyTime w.copies) : Runs (.loadingReady i d) s fun t => t = s := by
  have hexec : exec (.loadingReady i d) s = .next s := by
    change execLoadingReady i d s = _
    simp only [execLoadingReady, hswap, hcopies, decide_true, Bool.or_true, if_true]
  exact .of_exec hexec rfl

/-- Reserve 4 of island 0 loads for pipeline 0; the copy of a table of one entry began in this tick. -/
def copyUnderWay : PipeSwap :=
  { resv := 4, target := 0, retire := false, progId := 1, tables := [], copies := [1], began := 0, start := 0, hold := 0 }

/-- `copyUnderWay` is what goes on in island 0, and its reserve is in LOADING. -/
def reserveLoads : State := { State.reset.wr (F.PIPE_STATUS_STATE 4) 2 with mat := { swaps := [(0, some copyUnderWay)] } }

/-- Refutes O34: its clause on LOADING_READY sets READY of every reserve in LOADING, also while its tables are still being copied
(`reserveLoads`). R165 sets READY when the program is verified and every copy is complete. -/
theorem not_pipelineSwaps : ¬ Obligations.PipelineSwaps := by
  unfold Obligations.PipelineSwaps
  intro h
  obtain ⟨hloading, -⟩ := h reserveLoads 0 0 0
  have hnotReady : reserveLoads.on (F.PIPE_STATUS_READY 4) = false := by decide +kernel
  obtain ⟨⟨t, ht, hready, -⟩, -⟩ := hloading copyUnderWay rfl (by decide) (by decide +kernel) hnotReady
  obtain ⟨u, hu, rfl⟩ := loadingReady_waits (s := reserveLoads) (i := 0) (d := 0) (w := copyUnderWay) rfl (by decide +kernel)
  rw [← Host.Outcome.next.inj (hu.symm.trans ht)] at hready
  exact absurd (hnotReady.symm.trans hready) (by decide)

end Sys2Proof.Machine
end

section
/-! SUPPORT. The ALPHA codes (R179), and the band in which a half spills (R176). -/

set_option Elab.async false

namespace Sys2Proof.Machine

/-! ### ALPHA codes -/

/-- Code `k` from 0 to 9 stands for the factor 2^(k − 6) (R179). -/
theorem withinAlpha_iff {x f k : Nat} (hk : k ≤ 9) : withinAlpha x k f = true ↔ (x : ℚ) ≤ (2 : ℚ) ^ ((k : ℤ) - 6) * f := by
  have hfactor : (2 : ℚ) ^ ((k : ℤ) - 6) * f = ((f * 2 ^ k : ℕ) : ℚ) / 64 := by
    rw [zpow_sub₀ two_ne_zero, zpow_natCast]
    push_cast
    ring
  rw [withinAlpha, decide_eq_true_eq, Nat.min_eq_left hk, hfactor, le_div_iff₀ (by norm_num)]
  exact_mod_cast Iff.rfl

/-- A code above 9 acts as 9 (R179). -/
theorem withinAlpha_of_ge {k : Nat} (x f : Nat) (hk : 9 ≤ k) : withinAlpha x k f = withinAlpha x 9 f := by
  rw [withinAlpha, withinAlpha, Nat.min_eq_right hk, Nat.min_self]

/-- Settles O9: the codes up to 9 by their factor, those above as 9. -/
theorem alphaCodes : Obligations.AlphaCodes :=
  ⟨fun _ => ⟨rfl, rfl, rfl, rfl, rfl⟩, fun _ _ _ hk => withinAlpha_iff hk, fun _ _ _ hk _ => withinAlpha_of_ge _ _ (Nat.le_of_succ_le hk)⟩

/-! ### SPILLING -/

/-- An event of the Lagoon leaves the status of the halves. -/
theorem State.lagEvent_rd_half (s : State) (h e : Nat) {f : Fld} (hf : f.reg = .LAG_HALF_STATUS) : (s.lagEvent h e).rd f = s.rd f :=
  State.rd_raise_reg _ _ _ _ (show ¬ f.reg = RegName.LAG_INT_STATUS by rw [hf]; decide)

/-- A half that is not SPILLING spills when the free cells are below LOW; one that is goes on while they are below HIGH, and a HIGH that is
not above LOW acts as LOW (R176). -/
theorem State.spillUpdate_on (s : State) (h : Nat) :
    (s.spillUpdate h).on (F.LAG_HALF_STATUS_SPILLING h) =
      if s.on (F.LAG_HALF_STATUS_SPILLING h) then
        Decidable.decide (s.rd (F.LAG_HALF_STATUS_FREE h) < max (s.rd (F.LAG_SPILL_LOW_LOW h)) (s.rd (F.LAG_SPILL_HIGH_HIGH h)))
      else Decidable.decide (s.rd (F.LAG_HALF_STATUS_FREE h) < s.rd (F.LAG_SPILL_LOW_LOW h)) := by
  have hshown : ∀ b, (s.wrB (F.LAG_HALF_STATUS_SPILLING h) b).on (F.LAG_HALF_STATUS_SPILLING h) = b := fun b =>
    State.on_wrB_self s b (show 0 < 1 by decide)
  unfold State.spillUpdate
  cases hon : s.on (F.LAG_HALF_STATUS_SPILLING h)
  case false =>
    simp only [Bool.not_false, Bool.true_and, Bool.false_and, Bool.false_eq_true, if_false]
    split
    case isTrue hlow => rw [State.on_congr (State.lagEvent_rd_half _ _ _ rfl), hshown, hlow]
    case isFalse hlow => rw [hon, Bool.eq_false_of_not_eq_true hlow]
  case true =>
    simp only [Bool.not_true, Bool.true_and, Bool.false_and, Bool.false_eq_true, if_false, if_true, decide_eq_true_eq]
    split
    case isTrue hhigh => rw [hshown, decide_eq_false (Nat.not_lt.2 hhigh)]
    case isFalse hhigh => rw [hon, decide_eq_true (Nat.not_le.1 hhigh)]

/-- Settles O10: SPILLING after an update, from each of its two values. -/
theorem spillBand : Obligations.SpillBand := by
  rintro s h _ rfl _ rfl high hhigh
  have hmax : high = max (s.rd (F.LAG_SPILL_LOW_LOW h)) (s.rd (F.LAG_SPILL_HIGH_HIGH h)) := by
    rw [hhigh]
    split <;> omega
  refine ⟨fun hoff => ?_, fun hon => ?_⟩
  · rw [State.spillUpdate_on, hoff, if_neg Bool.false_ne_true, decide_eq_true_eq]
  · rw [State.spillUpdate_on, hon, if_pos rfl, hmax, decide_eq_false_iff_not, Nat.not_lt]

end Sys2Proof.Machine
end

section
/-! SUPPORT. What reports, events and answers to commands leave of the Lagoon's banks, and the replacement of a bank (R175). -/

set_option Elab.async false

namespace Sys2Proof.Machine

/-! ### The relation -/

/-- The fields that tell of the banks: their status, and how many are left in RESERVE. -/
def bankField (f : Fld) : Bool := f.reg = .LAG_BANK_STATUS || (f.reg = .LAG_HALF_STATUS && f.lo = 22)

theorem bankField_key_ne {f g : Fld} (hg : bankField g = true) (hf : bankField f = false) : g.key ≠ f.key := fun e => by
  obtain ⟨hreg, -, hlo⟩ := Fld.key_eq.1 e
  rw [bankField, hreg, hlo] at hg
  exact Bool.false_ne_true (hf.symm.trans hg)

theorem bankField_intStatus (b : Blk) (i : Nat) : bankField (intStatus b i) = false := by
  cases b <;> rfl

/-- A write to another register leaves the Lagoon's events. -/
theorem State.lagBit_wr (s : State) {f : Fld} (v e : Nat) (h : RegName.LAG_INT_STATUS ≠ f.reg) :
    (s.wr f v).intBit .lag 0 e = s.intBit .lag 0 e := by
  rw [State.intBit, State.rd_wr_of_reg_ne _ _ (show (intStatus .lag 0).reg ≠ f.reg from h), State.intBit]

/-- INT_STATUS is one field of 32 bits. -/
theorem intStatus_eq (b : Blk) (i : Nat) : intStatus b i = ⟨(intStatus b i).reg, (intStatus b i).ix, 0, 32, 0⟩ := by
  cases b <;> rfl

/-- A bit of INT_STATUS that is set stays set when an event of any block comes (R475). -/
theorem State.intBit_raise_of_intBit {s : State} {b : Blk} {i k : Nat} (h : s.intBit b i k = true) (b' : Blk) (i' e : Nat) :
    (s.raise b' i' e).intBit b i k = true := by
  by_cases hkey : (intStatus b i).key = (intStatus b' i').key
  case neg => rwa [State.intBit, State.rd_raise_ne _ _ _ _ hkey]
  case pos =>
    have hfield : intStatus b i = intStatus b' i' := by
      obtain ⟨hreg, hix, -⟩ := Fld.key_eq.1 hkey
      rw [intStatus_eq b i, intStatus_eq b' i', hreg, hix]
    have hk : k < 32 := by
      refine Nat.lt_of_not_le fun hle => ?_
      have hlt : s.rd (intStatus b i) < 2 ^ 32 := intStatus_width b i ▸ s.rd_lt (intStatus b i)
      have hzero := Nat.testBit_lt_two_pow (Nat.lt_of_lt_of_le hlt (Nat.pow_le_pow_right Nat.two_pos hle))
      exact Bool.false_ne_true (hzero.symm.trans h)
    rw [State.intBit, State.rd_raise, hfield, State.rd_wr_self, intStatus_width, bit_mod _ _ _ hk]
    by_cases hke : k = e
    · rw [hke, bit_setBit]
    · rw [bit_setBit_ne _ hke, ← hfield]
      exact h

/-- In `t` the banks, the packet path and the spare map are those of `s`, and the Lagoon's events that have shown in `s` still show. -/
structure State.BanksStand (s t : State) : Prop where
  reads : ∀ f, bankField f = true → t.rd f = s.rd f
  events : ∀ e, s.intBit .lag 0 e = true → t.intBit .lag 0 e = true
  path : t.path = s.path
  spareMap : t.spareMap = s.spareMap

namespace State.BanksStand

variable {s t u : State}

theorem refl (s : State) : s.BanksStand s := ⟨fun _ _ => rfl, fun _ h => h, rfl, rfl⟩

theorem trans (h : s.BanksStand t) (k : t.BanksStand u) : s.BanksStand u :=
  ⟨fun f hf => (k.reads f hf).trans (h.reads f hf), fun e he => k.events e (h.events e he), k.path.trans h.path,
    k.spareMap.trans h.spareMap⟩

theorem ite {c : Prop} [Decidable c] {a b : State} (ha : s.BanksStand a) (hb : s.BanksStand b) : s.BanksStand (if c then a else b) := by
  split
  · exact ha
  · exact hb

/-- What differs beside the registers, the path and the spare map. -/
theorem same (h : s.BanksStand t) (hregs : u.regs = t.regs := by rfl) (hpath : u.path = t.path := by rfl)
    (hmap : u.spareMap = t.spareMap := by rfl) : s.BanksStand u :=
  h.trans ⟨fun f _ => State.rd_congr hregs f, fun e he => (congrArg (bit · e) (State.rd_congr hregs _)).trans he, hpath, hmap⟩

/-- A write of a field that tells neither of the banks nor of the Lagoon's events. -/
theorem wr (h : s.BanksStand t) (f : Fld) (v : Nat) (hf : bankField f = false := by rfl)
    (hint : RegName.LAG_INT_STATUS ≠ f.reg := by nofun) : s.BanksStand (t.wr f v) :=
  h.trans ⟨fun _ hg => State.rd_wr_ne _ _ (bankField_key_ne hg hf),
    fun _ he => (State.lagBit_wr _ _ _ hint).trans he, rfl, rfl⟩

theorem raise (h : s.BanksStand t) (b : Blk) (i e : Nat) : s.BanksStand (t.raise b i e) :=
  h.trans ⟨fun _ hf => State.rd_raise_ne _ _ _ _ (bankField_key_ne hf (bankField_intStatus b i)),
    fun _ hk => State.intBit_raise_of_intBit hk b i e, State.raise_path .., State.raise_spareMap ..⟩

/-! ### Events and answers (R429, R436 to R442) -/

theorem logWrite (h : s.BanksStand t) (c code unit detail : Nat) (inj : Bool) : s.BanksStand (t.logWrite c code unit detail inj) := by
  unfold State.logWrite
  extract_lets seq e old s1 s2 s3
  have h1 : s.BanksStand s1 := ite (h.wr F.RAS_LOG_OVERRUN_COUNT _) h
  have h3 : s.BanksStand s3 := (h1.wr F.RAS_LOG_WR_SEQ _).same
  exact ite h.same (ite h3.same h3)

theorem tidemark (h : s.BanksStand t) (src logSeq : Nat) : s.BanksStand (t.tidemark src logSeq) :=
  ite h (ite h.same (ite (h.wr F.RAS_TM_IGNORED_COUNT _) h.same))

theorem event (h : s.BanksStand t) (c code unit detail : Nat) (inj : Bool := false) : s.BanksStand (t.event c code unit detail inj) := by
  unfold State.event
  extract_lets s1 s2 s3 s4
  have h2 : s.BanksStand s2 := (h.wr (F.RAS_CLASS_CNT_COUNT c) _).raise ..
  have h3 : s.BanksStand s3 := h2.logWrite ..
  have h4 : s.BanksStand s4 := ite h2 (ite (h3.tidemark ..) h3)
  exact ite h4.same h4

theorem finishHold (h : s.BanksStand t) (kind ix status state detail : Nat) :
    s.BanksStand (t.finishHold kind ix status state detail) := by
  have hanswers := t.finishHold_answersBy kind ix status state detail
  have hreads : ∀ f : Fld, f.reg ≠ .DYS_RSP_TAIL → (t.finishHold kind ix status state detail).rd f = t.rd f := fun _ hf =>
    State.finishHold_reads _ _ _ _ _ _ hf
  refine h.trans ⟨fun f hf => hreads f fun hreg => ?_, fun e he => ?_, (congrArg State.path hanswers.2 :), hanswers.spareMap_eq⟩
  · rw [bankField, hreg] at hf
    exact absurd hf (by simp)
  · exact (congrArg (bit · e) (hreads _ (show RegName.LAG_INT_STATUS ≠ .DYS_RSP_TAIL by decide))).trans he

/-! ### Operations of the Lagoon (R175, R176, R185) -/

theorem lagEvent (h : s.BanksStand t) (d e : Nat) : s.BanksStand (t.lagEvent d e) := h.raise ..

theorem spareConsumed (h : s.BanksStand t) (k : Nat) (b : Blk) (i unit detail : Nat) :
    s.BanksStand (t.spareConsumed k b i unit detail) := by
  unfold State.spareConsumed
  exact ((h.wr (F.RAS_SPARE_SUMMARY_FREE k) _).wr (F.RAS_SPARE_SUMMARY_HI_FAILED k) _).event ..

theorem spillUpdate (h : s.BanksStand t) (d : Nat) : s.BanksStand (t.spillUpdate d) :=
  have hset : ∀ v, s.BanksStand (t.wr (F.LAG_HALF_STATUS_SPILLING d) v) := fun v => h.wr _ v
  ite ((hset _).lagEvent ..) (ite (hset _) h)

theorem overcommitUpdate (h : s.BanksStand t) (d : Nat) : s.BanksStand (t.overcommitUpdate d) :=
  have hset : ∀ v, s.BanksStand (t.wr (F.LAG_HALF_STATUS_OVERCOMMIT d) v) := fun v => h.wr _ v
  ite ((hset _).lagEvent ..) (hset _)

end State.BanksStand

/-! ### A bank that drains retires -/

section Check

variable {s : State} {h b : Nat}

/-- A DRAINING bank that holds nothing and has granted nothing retires; reports follow (R175). -/
theorem State.bankCheck_stands (hdrains : s.rd (F.LAG_BANK_STATUS_STATE (34 * h + b)) = 2) :
    State.BanksStand
      (if s.rd (F.LAG_BANK_STATUS_HELD (34 * h + b)) = 0 ∧ mget s.path.granted (34 * h + b) 0 = 0 then
        s.wr (F.LAG_BANK_STATUS_STATE (34 * h + b)) 3 else s) (s.bankCheck h b) := by
  unfold State.bankCheck
  simp only [hdrains, decide_true, Bool.true_and, Bool.and_eq_true, decide_eq_true_eq]
  split
  · exact (((State.BanksStand.refl _).wr F.RAS_SPARE_STATUS_SWAPS _).lagEvent ..).finishHold ..
  · exact State.BanksStand.refl s

/-- The state of a DRAINING bank after the check (R175). -/
theorem State.bankCheck_state (hdrains : s.rd (F.LAG_BANK_STATUS_STATE (34 * h + b)) = 2) :
    (s.bankCheck h b).rd (F.LAG_BANK_STATUS_STATE (34 * h + b)) =
      if s.rd (F.LAG_BANK_STATUS_HELD (34 * h + b)) = 0 ∧ mget s.path.granted (34 * h + b) 0 = 0 then 3 else 2 := by
  rw [(State.bankCheck_stands hdrains).reads _ rfl]
  split
  · exact State.rd_wr_self ..
  · exact hdrains

/-- The check of a DRAINING bank leaves the other banks. -/
theorem State.bankCheck_rd (hdrains : s.rd (F.LAG_BANK_STATUS_STATE (34 * h + b)) = 2) {f : Fld} (hf : bankField f = true)
    (hother : f.key ≠ (F.LAG_BANK_STATUS_STATE (34 * h + b)).key) : (s.bankCheck h b).rd f = s.rd f := by
  rw [(State.bankCheck_stands hdrains).reads _ hf]
  split
  · exact State.rd_wr_ne _ _ hother
  · rfl

/-- The check of a DRAINING bank leaves the packet path and the spare map, and the Lagoon's events that have shown. -/
theorem State.bankCheck_rest (hdrains : s.rd (F.LAG_BANK_STATUS_STATE (34 * h + b)) = 2) :
    (s.bankCheck h b).path = s.path ∧ (s.bankCheck h b).spareMap = s.spareMap ∧
      ∀ e, s.intBit .lag 0 e = true → (s.bankCheck h b).intBit .lag 0 e = true := by
  have hstands := State.bankCheck_stands hdrains
  split at hstands
  · refine ⟨hstands.path, hstands.spareMap, fun e he => hstands.events e ?_⟩
    exact (State.lagBit_wr _ _ _ (show RegName.LAG_INT_STATUS ≠ .LAG_BANK_STATUS by decide)).trans he
  · exact ⟨hstands.path, hstands.spareMap, hstands.events⟩

end Check

/-! ### A bank is replaced -/

section Replace

variable (s : State) (h b r : Nat)

/-- The replacement is in the spare map, and the free cells of `b` have left the free count. -/
def State.bankLeaves (s : State) (h b r : Nat) : State :=
  (s.mapRecord 2 (34 * h + b) (2 + (34 * h + r))).subFrom (F.LAG_HALF_STATUS_FREE h)
    (16384 - s.rd (F.LAG_BANK_STATUS_HELD (34 * h + b)) - mget s.path.granted (34 * h + b) 0)

theorem State.bankLeaves_rd {f : Fld} (hf : bankField f = true) : (s.bankLeaves h b r).rd f = s.rd f :=
  State.rd_wr_ne _ _ (bankField_key_ne hf rfl)

theorem State.bankLeaves_spareMap :
    (s.bankLeaves h b r).spareMap = mset s.spareMap (key2 2 (34 * h + b)) (2 + (34 * h + r)) 0 := State.subFrom_spareMap ..

/-- Then `b` drains and `r` is ACTIVE. -/
def State.bankSwitched (s : State) (h b r : Nat) : State :=
  ((s.bankLeaves h b r).wr (F.LAG_BANK_STATUS_STATE (34 * h + b)) 2).wr (F.LAG_BANK_STATUS_STATE (34 * h + r)) 0

/-- The Lagoon tells of it, and the cells of `r` join the free count. -/
def State.bankJoins (s : State) (h b r : Nat) : State :=
  ((s.bankSwitched h b r).lagEvent h 2).wrapAdd (F.LAG_HALF_STATUS_FREE h) 16384

/-- The half has one RESERVE bank less; the spare is counted, and SPILLING and OVERCOMMIT follow. -/
def State.bankSettled (s : State) (h b r : Nat) : State :=
  ((((s.bankJoins h b r).subFrom (F.LAG_HALF_STATUS_RESERVE_LEFT h) 1).spareConsumed 2 .lag 0 (34 * h + b) r).spillUpdate h).overcommitUpdate h

theorem State.bankReplace_eq : s.bankReplace h b r = (s.bankSettled h b r).bankCheck h b := rfl

theorem State.bankJoins_stands : (s.bankSwitched h b r).BanksStand (s.bankJoins h b r) :=
  ((State.BanksStand.refl _).lagEvent h 2).wr (F.LAG_HALF_STATUS_FREE h) _

theorem State.bankSettled_stands :
    ((s.bankJoins h b r).subFrom (F.LAG_HALF_STATUS_RESERVE_LEFT h) 1).BanksStand (s.bankSettled h b r) :=
  (((State.BanksStand.refl _).spareConsumed ..).spillUpdate h).overcommitUpdate h

/-- The status of the banks after the switch. -/
theorem State.bankSettled_rd {f : Fld} (hf : f.reg = .LAG_BANK_STATUS) : (s.bankSettled h b r).rd f = (s.bankSwitched h b r).rd f := by
  have hbank : bankField f = true := by rw [bankField, hf]; rfl
  rw [(s.bankSettled_stands h b r).reads f hbank, ← (s.bankJoins_stands h b r).reads f hbank]
  exact State.rd_wr_of_reg_ne _ _ (show f.reg ≠ RegName.LAG_HALF_STATUS by rw [hf]; decide)

theorem State.bankSettled_reserve : (s.bankSettled h b r).rd (F.LAG_BANK_STATUS_STATE (34 * h + r)) = 0 :=
  (s.bankSettled_rd h b r rfl).trans (State.rd_wr_self ..)

theorem State.bankSettled_drains (hne : b ≠ r) : (s.bankSettled h b r).rd (F.LAG_BANK_STATUS_STATE (34 * h + b)) = 2 := by
  have hkey : (F.LAG_BANK_STATUS_STATE (34 * h + b)).key ≠ (F.LAG_BANK_STATUS_STATE (34 * h + r)).key := fun e =>
    hne (Nat.add_left_cancel (Fld.key_eq.1 e).2.1)
  exact (s.bankSettled_rd h b r rfl).trans ((State.rd_wr_ne _ _ hkey).trans (State.rd_wr_self ..))

theorem State.bankSettled_held (k : Nat) : (s.bankSettled h b r).rd (F.LAG_BANK_STATUS_HELD k) = s.rd (F.LAG_BANK_STATUS_HELD k) := by
  have hlo : ∀ j, (F.LAG_BANK_STATUS_HELD k).lo ≠ (F.LAG_BANK_STATUS_STATE j).lo := fun _ => show (2 : Nat) ≠ 0 by decide
  exact (s.bankSettled_rd h b r rfl).trans ((State.rd_wr_of_lo_ne _ _ (hlo _)).trans
    ((State.rd_wr_of_lo_ne _ _ (hlo _)).trans (s.bankLeaves_rd h b r rfl)))

theorem State.bankSettled_reserveLeft :
    (s.bankSettled h b r).rd (F.LAG_HALF_STATUS_RESERVE_LEFT h) = s.rd (F.LAG_HALF_STATUS_RESERVE_LEFT h) - 1 := by
  have hreg : ∀ j, (F.LAG_HALF_STATUS_RESERVE_LEFT h).reg ≠ (F.LAG_BANK_STATUS_STATE j).reg := fun _ =>
    show RegName.LAG_HALF_STATUS ≠ .LAG_BANK_STATUS by decide
  have hkept : (s.bankJoins h b r).rd (F.LAG_HALF_STATUS_RESERVE_LEFT h) = s.rd (F.LAG_HALF_STATUS_RESERVE_LEFT h) :=
    ((s.bankJoins_stands h b r).reads _ rfl).trans ((State.rd_wr_of_reg_ne _ _ (hreg _)).trans
      ((State.rd_wr_of_reg_ne _ _ (hreg _)).trans (s.bankLeaves_rd h b r rfl)))
  rw [(s.bankSettled_stands h b r).reads _ rfl, State.subFrom, State.rd_wr_self, hkept]
  exact Nat.mod_eq_of_lt (Nat.lt_of_le_of_lt (Nat.sub_le ..) (State.rd_lt ..))

theorem State.bankSettled_path : (s.bankSettled h b r).path = s.path :=
  (s.bankSettled_stands h b r).path.trans ((State.subFrom_path ..).trans (s.bankJoins_stands h b r).path)

theorem State.bankSettled_spareMap :
    (s.bankSettled h b r).spareMap = mset s.spareMap (key2 2 (34 * h + b)) (2 + (34 * h + r)) 0 :=
  (s.bankSettled_stands h b r).spareMap.trans ((State.subFrom_spareMap ..).trans
    ((s.bankJoins_stands h b r).spareMap.trans (s.bankLeaves_spareMap h b r)))

/-- The event that tells of the replacement. -/
theorem State.bankSettled_event (hh : h < 2) : (s.bankSettled h b r).intBit .lag 0 (2 + 16 * h) = true := by
  have hraised : ((s.bankSwitched h b r).lagEvent h 2).intBit .lag 0 (2 + 16 * h) = true :=
    State.intBit_raise_self _ _ _ _ (by omega)
  have hother : RegName.LAG_INT_STATUS ≠ .LAG_HALF_STATUS := by decide
  refine (s.bankSettled_stands h b r).events _ ?_
  exact (State.lagBit_wr _ _ _ hother).trans ((State.lagBit_wr _ _ _ hother).trans hraised)

end Replace

/-! ### BANK_REPLACE -/

section Command

variable {s : State} {h : Fin 2} {b : Fin 34}

/-- Only an ACTIVE bank is replaced (R175). -/
theorem bankReplace_idle (hstate : s.rd (F.LAG_BANK_STATUS_STATE (34 * h + b)) ≠ 0) : Runs (.bankReplace h b) s fun t => t = s :=
  .of_exec (congrArg Host.Outcome.next (if_pos hstate)) rfl

/-- Without a RESERVE bank the replacement is refused and logged, and the bank stays ACTIVE (R175). -/
theorem bankReplace_refused (hstate : s.rd (F.LAG_BANK_STATUS_STATE (34 * h + b)) = 0) (hnone : s.reserveBank h = none) :
    Runs (.bankReplace h b) s fun t =>
      t = (s.lagEvent h 3).event degraded (codeOf .lag 0 0x86) (34 * h + b) 0 ∧ t.intBit .lag 0 (3 + 16 * h) = true ∧
      t.rd (F.LAG_BANK_STATUS_STATE (34 * h + b)) = 0 := by
  have hexec : exec (.bankReplace h b) s = .next ((s.lagEvent h 3).event degraded (codeOf .lag 0 0x86) (34 * h + b) 0) := by
    change execBankReplace h b s = _
    simp only [execBankReplace, hstate, ne_eq, not_true_eq_false, if_false, hnone]
  have hevent : (s.lagEvent h 3).BanksStand ((s.lagEvent h 3).event degraded (codeOf .lag 0 0x86) (34 * h + b) 0) :=
    (State.BanksStand.refl _).event ..
  refine .of_exec hexec ⟨rfl, hevent.events _ (State.intBit_raise_self _ _ _ _ (by omega)), ?_⟩
  exact (((State.BanksStand.refl s).lagEvent h 3).trans hevent).reads _ rfl |>.trans hstate

/-- A RESERVE bank is one that reads RESERVE. -/
theorem State.reserveBank_state {r : Nat} (hsome : s.reserveBank h = some r) : s.rd (F.LAG_BANK_STATUS_STATE (34 * h + r)) = 1 := by
  simpa using List.find?_some hsome

/-- An ACTIVE bank drains, or retires where it holds nothing, and a RESERVE bank is ACTIVE in its place (R175, R452). -/
theorem bankReplace_replaces (hstate : s.rd (F.LAG_BANK_STATUS_STATE (34 * h + b)) = 0) {r : Nat} (hsome : s.reserveBank h = some r) :
    Runs (.bankReplace h b) s fun t =>
      t.rd (F.LAG_BANK_STATUS_STATE (34 * h + r)) = 0 ∧
      t.rd (F.LAG_BANK_STATUS_STATE (34 * h + b)) =
        (if s.rd (F.LAG_BANK_STATUS_HELD (34 * h + b)) = 0 ∧ mget s.path.granted (34 * h + b) 0 = 0 then 3 else 2) ∧
      t.rd (F.LAG_HALF_STATUS_RESERVE_LEFT h) = s.rd (F.LAG_HALF_STATUS_RESERVE_LEFT h) - 1 ∧
      t.intBit .lag 0 (2 + 16 * h) = true ∧
      t.path = s.path ∧ mget t.spareMap (key2 2 (34 * h + b)) 0 = 2 + (34 * h + r) := by
  have hne : b.val ≠ r := by
    rintro rfl
    exact absurd (hstate.symm.trans (State.reserveBank_state hsome)) (by decide)
  have hexec : exec (.bankReplace h b) s = .next ((s.bankSettled h b r).bankCheck h b) := by
    change execBankReplace h b s = _
    simp only [execBankReplace, hstate, ne_eq, not_true_eq_false, if_false, hsome, State.bankReplace_eq]
  have hdrains := s.bankSettled_drains h b r hne
  obtain ⟨hpath, hmap, hevents⟩ := State.bankCheck_rest hdrains
  refine .of_exec hexec ⟨?_, ?_, ?_, hevents _ (s.bankSettled_event h b r h.isLt), hpath.trans (s.bankSettled_path h b r), ?_⟩
  · rw [State.bankCheck_rd hdrains rfl fun e => hne (Nat.add_left_cancel (Fld.key_eq.1 e).2.1).symm]
    exact s.bankSettled_reserve h b r
  · rw [State.bankCheck_state hdrains, State.bankSettled_held, State.bankSettled_path]
  · rw [State.bankCheck_rd hdrains rfl fun e => absurd (Fld.key_eq.1 e).1 (show RegName.LAG_HALF_STATUS ≠ .LAG_BANK_STATUS by decide)]
    exact s.bankSettled_reserveLeft h b r
  · rw [hmap, State.bankSettled_spareMap, mget_mset_self]

end Command

end Sys2Proof.Machine
end

section
/-! SUPPORT. The adaptive thresholds of a queue (R186, R187, R189). -/

set_option Elab.async false

namespace Sys2Proof.Machine

/-! ### One step of a working threshold -/

/-- The working code after a period, from `cur` and the step that is wanted, and whether it is pinned (R187): outside the bounds it moves to
the nearer one, and a step beyond a bound leaves it. -/
def alphaMoved (lo hi cur : Nat) (wish : Int) : Nat × Bool :=
  let want := (cur : Int) + wish
  let inside := lo ≤ cur && cur ≤ hi
  let pin := inside && (want < lo || want > hi)
  (if !inside then max lo (min hi cur) else if pin then cur else want.toNat, pin)

/-- A value outside the bounds moves to the nearer one and is not pinned. -/
theorem alphaMoved_outside {lo hi cur : Nat} (wish : Int) (h : ¬ (lo ≤ cur ∧ cur ≤ hi)) :
    alphaMoved lo hi cur wish = (max lo (min hi cur), false) := by
  have hinside : (Decidable.decide (lo ≤ cur) && Decidable.decide (cur ≤ hi)) = false := by simpa using h
  simp only [alphaMoved, hinside, Bool.not_false, Bool.false_and, if_true]

/-- A value within the bounds takes the step, or is pinned where that would cross a bound. -/
theorem alphaMoved_inside {lo hi cur : Nat} (wish : Int) (h : lo ≤ cur ∧ cur ≤ hi) :
    alphaMoved lo hi cur wish =
      if (cur : Int) + wish < lo ∨ hi < (cur : Int) + wish then (cur, true) else (((cur : Int) + wish).toNat, false) := by
  have hinside : (Decidable.decide (lo ≤ cur) && Decidable.decide (cur ≤ hi)) = true := by simpa using h
  simp only [alphaMoved, hinside, Bool.not_true, Bool.true_and, Bool.false_eq_true, if_false, Bool.or_eq_true, decide_eq_true_eq, gt_iff_lt]
  split
  case isTrue hcross => rw [← Bool.decide_or, decide_eq_true hcross]
  case isFalse hcross => rw [← Bool.decide_or, decide_eq_false hcross]

theorem alphaMoved_bounds {lo hi : Nat} (cur : Nat) (wish : Int) (h : lo ≤ hi) :
    lo ≤ (alphaMoved lo hi cur wish).1 ∧ (alphaMoved lo hi cur wish).1 ≤ hi := by
  by_cases hin : lo ≤ cur ∧ cur ≤ hi
  · rw [alphaMoved_inside wish hin]
    split
    · exact hin
    · simp only
      omega
  · rw [alphaMoved_outside wish hin]
    simp only
    omega

/-- Within the bounds a working value takes at most the step that is wanted. -/
theorem alphaMoved_near {lo hi cur : Nat} {wish : Int} (h : lo ≤ cur ∧ cur ≤ hi) (hwish : -1 ≤ wish ∧ wish ≤ 1) :
    (alphaMoved lo hi cur wish).1 ≤ cur + 1 ∧ cur ≤ (alphaMoved lo hi cur wish).1 + 1 := by
  rw [alphaMoved_inside wish h]
  split <;> simp only <;> omega

/-- A pinned working value stays. -/
theorem alphaMoved_pinned {lo hi cur : Nat} {wish : Int} (h : (alphaMoved lo hi cur wish).2 = true) :
    (alphaMoved lo hi cur wish).1 = cur := by
  by_cases hin : lo ≤ cur ∧ cur ≤ hi
  · rw [alphaMoved_inside wish hin] at h ⊢
    split at h
    case isTrue hcross => rw [if_pos hcross]
    case isFalse => exact absurd h Bool.false_ne_true
  · rw [alphaMoved_outside wish hin] at h
    exact absurd h Bool.false_ne_true

/-! ### Fields of a queue -/

/-- ALPHA_PINNED of a queue. -/
abbrev qPinnedF (k : Nat) : Fld := byKey F.LAG_Q_STATUS_ALPHA_PINNED F.LAG_MQ_STATUS_ALPHA_PINNED k

/-- What the end of a period writes for the working threshold (R187). -/
def alphaFields (k : Nat) : List Fld := [qCurF k, qPinnedF k, F.LAG_PINNED_CNT_ALPHA]

/-- What the end of a period writes for the ECN thresholds (R189). -/
def ecnFields (k : Nat) : List Fld := [F.LAG_Q_STATUS_ECN_PINNED k, F.LAG_PINNED_CNT_ECN]

theorem qCurF_lo (k : Nat) : (qCurF k).lo = 20 := by
  unfold qCurF
  split <;> rfl

theorem qCurF_width (k : Nat) : (qCurF k).width = 4 := by
  unfold qCurF
  split <;> rfl

theorem qPinnedF_lo (k : Nat) : (qPinnedF k).lo = 24 := by
  unfold qPinnedF byKey
  split <;> rfl

theorem qPinnedF_width (k : Nat) : (qPinnedF k).width = 1 := by
  unfold qPinnedF byKey
  split <;> rfl

/-- A field stands neither at the place of an ECN_PINNED nor in the counts of pins. -/
def besideEcn (f : Fld) : Bool := f.reg ≠ .LAG_PINNED_CNT && (f.reg ≠ .LAG_Q_STATUS || f.lo ≠ 25)

theorem besideEcn_key_ne {f g : Fld} {k : Nat} (hf : besideEcn f = true) (hg : g ∈ ecnFields k) : f.key ≠ g.key := fun e => by
  obtain ⟨hreg, -, hlo⟩ := Fld.key_eq.1 e
  rw [besideEcn, hreg, hlo] at hf
  rcases List.mem_pair.1 hg with rfl | rfl
  · exact absurd hf (show ¬ _ = true by simp [F.LAG_Q_STATUS_ECN_PINNED])
  · exact absurd hf (by decide)

theorem besideEcn_qCurF (k : Nat) : besideEcn (qCurF k) = true := by
  unfold qCurF
  split <;> rfl

theorem besideEcn_qPinnedF (k : Nat) : besideEcn (qPinnedF k) = true := by
  unfold qPinnedF byKey
  split <;> rfl

theorem besideEcn_qAdaptF (k : Nat) : besideEcn (qAdaptF k) = true := by
  unfold qAdaptF
  split <;> rfl

theorem besideEcn_qAlphaF (k : Nat) : besideEcn (qAlphaF k) = true := by
  unfold qAlphaF
  split <;> rfl

/-- The end of a period for the working threshold leaves ADAPT of the ECN thresholds. -/
theorem ecnAdapt_key_ne {k : Nat} : ∀ g ∈ alphaFields k, (F.LAG_Q_ECN_ADAPT k).key ≠ g.key := by
  intro g hg e
  obtain ⟨-, -, hlo⟩ := Fld.key_eq.1 e
  have hlo : g.lo = 30 := hlo.symm
  simp only [alphaFields, List.mem_cons, List.not_mem_nil, or_false] at hg
  rcases hg with rfl | rfl | rfl
  · exact absurd ((qCurF_lo k).symm.trans hlo) (by decide)
  · exact absurd ((qPinnedF_lo k).symm.trans hlo) (by decide)
  · exact absurd hlo (show (0 : Nat) ≠ 30 by decide)

/-! ### The ECN thresholds -/

section Ecn

variable {s t : State} {k : Nat}

/-- The end of a period writes ECN_PINNED and its count only (R189). -/
theorem State.ecnEnd_changes (s : State) (k : Nat) : changes (ecnFields k) s (s.ecnEnd k) := by
  have hpin : ∀ b, changes (ecnFields k) s (s.wrB (F.LAG_Q_STATUS_ECN_PINNED k) b) := fun b =>
    (changes.refl s).wrB List.mem_cons_self b
  unfold State.ecnEnd
  split
  · exact (hpin true).satAdd (List.mem_cons_of_mem _ List.mem_cons_self) 1
  · exact hpin false

/-- ECN_PINNED tells whether a bound acts (R189). -/
theorem State.ecnEnd_pinned (s : State) (k : Nat) : (s.ecnEnd k).on (F.LAG_Q_STATUS_ECN_PINNED k) = (s.ecnThresholds k).2.2 := by
  have hshown : ∀ b, (s.wrB (F.LAG_Q_STATUS_ECN_PINNED k) b).on (F.LAG_Q_STATUS_ECN_PINNED k) = b := fun b =>
    State.on_wrB_self s b (show 0 < 1 by decide)
  unfold State.ecnEnd
  cases hacts : (s.ecnThresholds k).2.2
  case false => exact hshown false
  case true =>
    exact (State.on_congr (State.rd_wr_of_reg_ne _ _ (show RegName.LAG_Q_STATUS ≠ .LAG_PINNED_CNT by decide))).trans (hshown true)

/-- The thresholds depend on neither (R188, R189). -/
theorem State.ecnThresholds_congr (h : changes (ecnFields k) s t) : t.ecnThresholds k = s.ecnThresholds k := by
  obtain ⟨hreads, hrest⟩ := h
  have hread : ∀ {f}, besideEcn f = true → t.rd f = s.rd f := fun hf => hreads _ fun _ hg => besideEcn_key_ne hf hg
  have hpath : t.path = s.path := (congrArg State.path hrest :)
  have hset : t.alphaSet k = s.alphaSet k := by
    unfold State.alphaSet
    rw [hpath, hread (besideEcn_qAlphaF k)]
  have hcur : t.alphaCur k = s.alphaCur k := by
    unfold State.alphaCur
    rw [State.on_congr (hread (besideEcn_qAdaptF k)), hread (besideEcn_qCurF k), hread (besideEcn_qAlphaF k)]
  have hadapt : t.on (F.LAG_Q_ECN_ADAPT k) = s.on (F.LAG_Q_ECN_ADAPT k) := State.on_congr (hread rfl)
  unfold State.ecnThresholds
  simp only [hset, hcur, hadapt, hread (f := F.LAG_Q_ECN_MIN k) rfl, hread (f := F.LAG_Q_ECN_MAX k) rfl,
    hread (f := F.LAG_Q_ECN_BOUND_FLOOR k) rfl, hread (f := F.LAG_Q_ECN_BOUND_CEIL k) rfl]

/-- After the end of a period ECN_PINNED tells whether a bound acts on the thresholds that hold then. -/
theorem State.ecnEnd_pinned_after (s : State) (k : Nat) :
    (s.ecnEnd k).on (F.LAG_Q_STATUS_ECN_PINNED k) = ((s.ecnEnd k).ecnThresholds k).2.2 := by
  rw [State.ecnThresholds_congr (s.ecnEnd_changes k), State.ecnEnd_pinned]

end Ecn

/-! ### The working threshold -/

section Working

variable (s : State) (k : Nat)

/-- The packet path at the end of a period: the values written in the period take effect, and its drops are forgotten (R186, R187). -/
def State.periodPath (s : State) (k : Nat) : Path :=
  let y := { s.path with alphaWas := mset s.path.alphaWas k 0 0 }
  let quiet := if State.alphaQuiet { s with path := y } k then mget y.quiet k 0 + 1 else 0
  { y with egrDrops := mset y.egrDrops k 0 0, quiet := mset y.quiet k (min quiet 16) 0 }

theorem State.periodPath_egrDrops : (s.periodPath k).egrDrops = mset s.path.egrDrops k 0 0 := rfl

/-- The working code after the period, and whether it is pinned (R186, R187). -/
def State.alphaPlan (s : State) (k : Nat) : Nat × Bool :=
  let u := s.updPath (fun y => { y with alphaWas := mset y.alphaWas k 0 0 })
  alphaMoved (s.alphaBounds k).1 (s.alphaBounds k).2 (min 9 (s.rd (qCurF k)))
    (u.alphaWish k (if u.alphaQuiet k then mget u.path.quiet k 0 + 1 else 0))

/-- The plan is written (R187). -/
theorem State.alphaEnd_eq : s.alphaEnd k =
    let t := (({ s with path := s.periodPath k } : State).wr (qCurF k) (s.alphaPlan k).1).wrB (qPinnedF k) (s.alphaPlan k).2
    if (s.alphaPlan k).2 then t.satAdd F.LAG_PINNED_CNT_ALPHA 1 else t := rfl

/-- The loop wants at most one step (R186). -/
theorem State.alphaWish_range (quiet : Nat) : -1 ≤ s.alphaWish k quiet ∧ s.alphaWish k quiet ≤ 1 := by
  unfold State.alphaWish
  dsimp only
  split_ifs <;> decide

/-- A FLOOR above CEIL acts as CEIL, and codes above 9 as 9 (R179, R187). -/
theorem State.alphaBounds_le : (s.alphaBounds k).1 ≤ (s.alphaBounds k).2 ∧ (s.alphaBounds k).2 ≤ 9 :=
  ⟨Nat.min_le_left .., Nat.min_le_left ..⟩

theorem State.alphaEnd_changes : changes (alphaFields k) s { s.alphaEnd k with path := s.path } := by
  have hwritten : changes (alphaFields k) { s with path := s.periodPath k } (s.alphaEnd k) := by
    have hcur : qCurF k ∈ alphaFields k := List.mem_cons_self
    have hpin : qPinnedF k ∈ alphaFields k := List.mem_cons_of_mem _ List.mem_cons_self
    have hcnt : F.LAG_PINNED_CNT_ALPHA ∈ alphaFields k := List.mem_cons_of_mem _ (List.mem_cons_of_mem _ List.mem_cons_self)
    rw [State.alphaEnd_eq]
    dsimp only
    split
    · exact (((changes.refl _).wr hcur _).wrB hpin _).satAdd hcnt 1
    · exact ((changes.refl _).wr hcur _).wrB hpin _
  obtain ⟨hreads, hrest⟩ := hwritten
  exact ⟨hreads, congrArg (fun u : State => { u with path := s.path }) hrest⟩

theorem State.alphaEnd_path : (s.alphaEnd k).path = s.periodPath k := by
  rw [State.alphaEnd_eq]
  dsimp only
  split <;> rfl

/-- The count of pins is written beside the fields of queues. -/
theorem State.alphaEnd_rd {f : Fld} (hf : f.lo ≠ 0) : (s.alphaEnd k).rd f =
    ((({ s with path := s.periodPath k } : State).wr (qCurF k) (s.alphaPlan k).1).wrB (qPinnedF k) (s.alphaPlan k).2).rd f := by
  rw [State.alphaEnd_eq]
  dsimp only
  split
  · exact State.rd_wr_of_lo_ne _ _ hf
  · rfl

theorem State.alphaPlan_bounds : (s.alphaBounds k).1 ≤ (s.alphaPlan k).1 ∧ (s.alphaPlan k).1 ≤ (s.alphaBounds k).2 :=
  alphaMoved_bounds _ _ (s.alphaBounds_le k).1

/-- ALPHA_CUR after the period. -/
theorem State.alphaEnd_cur : (s.alphaEnd k).rd (qCurF k) = (s.alphaPlan k).1 := by
  have hlt : (s.alphaPlan k).1 < 2 ^ (qCurF k).width := by
    obtain ⟨-, hplan⟩ := s.alphaPlan_bounds k
    obtain ⟨-, hmost⟩ := s.alphaBounds_le k
    rw [qCurF_width]
    omega
  rw [s.alphaEnd_rd k (by rw [qCurF_lo]; decide), State.wrB, State.rd_wr_of_lo_ne _ _ (by rw [qCurF_lo, qPinnedF_lo]; decide),
    State.rd_wr_self, Nat.mod_eq_of_lt hlt]

/-- ALPHA_PINNED after the period. -/
theorem State.alphaEnd_pinned : (s.alphaEnd k).on (qPinnedF k) = (s.alphaPlan k).2 :=
  (State.on_congr (s.alphaEnd_rd k (by rw [qPinnedF_lo]; decide))).trans (State.on_wrB_self _ _ (by rw [qPinnedF_width]; decide))

variable {s k}

/-- A working value within the bounds takes at most one step, and stays where it is pinned (R187). -/
theorem State.alphaPlan_step (hlow : (s.alphaBounds k).1 ≤ s.rd (qCurF k)) (hhigh : s.rd (qCurF k) ≤ (s.alphaBounds k).2) :
    (s.alphaPlan k).1 ≤ s.rd (qCurF k) + 1 ∧ s.rd (qCurF k) ≤ (s.alphaPlan k).1 + 1 ∧
      ((s.alphaPlan k).2 = true → (s.alphaPlan k).1 = s.rd (qCurF k)) := by
  have hcur : min 9 (s.rd (qCurF k)) = s.rd (qCurF k) := Nat.min_eq_right (hhigh.trans (s.alphaBounds_le k).2)
  unfold State.alphaPlan
  rw [hcur]
  obtain ⟨hup, hdown⟩ := alphaMoved_near ⟨hlow, hhigh⟩ (State.alphaWish_range ..)
  exact ⟨hup, hdown, alphaMoved_pinned⟩

end Working

/-! ### ALPHA_ADAPT -/

section Command

variable {s : State} {k : Fin 9216}

/-- A queue that adapts nothing, or whose period has not passed, stays as it is (R186). -/
theorem alphaAdapt_idle (hecn : s.on (qAdaptF k) = false → s.ecnAdapts k = false)
    (hearly : s.on (qAdaptF k) = true ∨ s.ecnAdapts k = true → s.now - s.ranAt .alpha k < s.adaptPeriod) :
    Runs (.alphaAdapt k) s fun t => t = s := by
  refine .of_exec (congrArg Host.Outcome.next (if_pos ?_)) rfl
  cases hon : s.on (qAdaptF k)
  case false => simp [hecn hon]
  case true => simp [State.due, hearly (.inl hon)]

/-- The period of queue `k` has ended. -/
def State.periodEnds (s : State) (k : Nat) : State := s.ran .alpha k (s.now - s.now % s.adaptPeriod)

/-- The working threshold after the period. -/
def State.periodAlpha (s : State) (k : Nat) : State := if s.on (qAdaptF k) then (s.periodEnds k).alphaEnd k else s.periodEnds k

theorem State.periodAlpha_off (hoff : s.on (qAdaptF k) = false) : s.periodAlpha k = s.periodEnds k := if_neg (by rw [hoff]; decide)

theorem State.periodAlpha_on (hon : s.on (qAdaptF k) = true) : s.periodAlpha k = (s.periodEnds k).alphaEnd k := if_pos hon

/-- What the step of the working threshold writes, beside the period's end. -/
theorem State.periodAlpha_changes : changes (alphaFields k) (s.periodEnds k) { s.periodAlpha k with path := s.path } := by
  unfold State.periodAlpha
  split
  · exact State.alphaEnd_changes ..
  · exact changes.refl _

theorem State.periodAlpha_ecnAdapts : (s.periodAlpha k).ecnAdapts k = s.ecnAdapts k := by
  obtain ⟨hreads, -⟩ := State.periodAlpha_changes (s := s) (k := k)
  have hadapt : (s.periodAlpha k).on (F.LAG_Q_ECN_ADAPT k) = s.on (F.LAG_Q_ECN_ADAPT k) := State.on_congr (hreads _ ecnAdapt_key_ne)
  rw [State.ecnAdapts, hadapt, State.ecnAdapts]

/-- The state after the command: the ECN thresholds follow the working threshold (R189). -/
def State.periodDone (s : State) (k : Nat) : State := if s.ecnAdapts k then (s.periodAlpha k).ecnEnd k else s.periodAlpha k

/-- What the ECN thresholds write, after the step of the working threshold. -/
theorem State.periodDone_changes : changes (ecnFields k) (s.periodAlpha k) (s.periodDone k) := by
  unfold State.periodDone
  split
  · exact State.ecnEnd_changes ..
  · exact changes.refl _

theorem State.periodDone_rd {f : Fld} (hf : besideEcn f = true) : (s.periodDone k).rd f = (s.periodAlpha k).rd f :=
  State.periodDone_changes.1 _ fun _ hg => besideEcn_key_ne hf hg

/-- The period is counted from its boundary. -/
theorem State.periodDone_ranAt : (s.periodDone k).ranAt .alpha k = s.now - s.now % s.adaptPeriod := by
  have halpha : (s.periodAlpha k).timers = (s.periodEnds k).timers := (congrArg State.timers State.periodAlpha_changes.2 :)
  have hdone : (s.periodDone k).timers = (s.periodAlpha k).timers := (congrArg State.timers State.periodDone_changes.2 :)
  rw [State.ranAt, hdone, halpha]
  exact State.ranAt_ran ..

/-- A period of a queue that adapts has passed. -/
theorem execAlphaAdapt_due (hadapts : s.on (qAdaptF k) = true ∨ s.ecnAdapts k = true) (hdue : s.adaptPeriod ≤ s.now - s.ranAt .alpha k) :
    exec (.alphaAdapt k) s = .next (s.periodDone k) := by
  have hadapts : (s.on (qAdaptF k) || s.ecnAdapts k) = true := Bool.or_eq_true_iff.2 hadapts
  have hwaits : (!(s.on (qAdaptF k) || s.ecnAdapts k) || !s.due .alpha k s.adaptPeriod) = false := by
    simp [State.due, hdue, hadapts]
  rw [State.periodDone, ← State.periodAlpha_ecnAdapts]
  exact congrArg Host.Outcome.next (if_neg (by rw [hwaits]; exact Bool.false_ne_true))

/-- The end of a period of a queue whose ECN thresholds adapt (R189). -/
theorem alphaAdapt_ecn (hecn : s.ecnAdapts k = true) (hdue : s.adaptPeriod ≤ s.now - s.ranAt .alpha k) :
    Runs (.alphaAdapt k) s fun t =>
      t.on (F.LAG_Q_STATUS_ECN_PINNED k) = (t.ecnThresholds k).2.2 ∧ t.ranAt .alpha k = s.now - s.now % s.adaptPeriod ∧
      (s.on (qAdaptF k) = false → changes [F.LAG_Q_STATUS_ECN_PINNED k, F.LAG_PINNED_CNT_ECN] s { t with timers := s.timers }) := by
  refine .of_exec (execAlphaAdapt_due (.inr hecn) hdue) ⟨?_, State.periodDone_ranAt, fun hoff => ?_⟩
  · have hdone : s.periodDone k = (s.periodAlpha k).ecnEnd k := if_pos hecn
    rw [hdone, State.ecnEnd_pinned_after]
  · obtain ⟨hreads, hrest⟩ := State.periodDone_changes (s := s) (k := k)
    rw [State.periodAlpha_off hoff] at hreads hrest
    exact ⟨hreads, congrArg (fun u : State => { u with timers := s.timers }) hrest⟩

/-- The end of a period of a queue whose working threshold adapts (R186, R187). -/
theorem alphaAdapt_alpha (hon : s.on (qAdaptF k) = true) (hdue : s.adaptPeriod ≤ s.now - s.ranAt .alpha k) :
    Runs (.alphaAdapt k) s fun t =>
      (s.alphaBounds k).1 ≤ t.rd (qCurF k) ∧ t.rd (qCurF k) ≤ (s.alphaBounds k).2 ∧
      ((s.alphaBounds k).1 ≤ s.rd (qCurF k) → s.rd (qCurF k) ≤ (s.alphaBounds k).2 →
        t.rd (qCurF k) ≤ s.rd (qCurF k) + 1 ∧ s.rd (qCurF k) ≤ t.rd (qCurF k) + 1 ∧
        (t.on (qPinnedF k) = true → t.rd (qCurF k) = s.rd (qCurF k))) ∧
      mget t.path.egrDrops k 0 = 0 ∧ t.ranAt .alpha k = s.now - s.now % s.adaptPeriod ∧
      changes (alphaFields k ++ ecnFields k) s { t with path := s.path, timers := s.timers } := by
  have halpha := State.periodAlpha_on hon
  have hcur : (s.periodDone k).rd (qCurF k) = ((s.periodEnds k).alphaPlan k).1 := by
    rw [State.periodDone_rd (besideEcn_qCurF k), halpha, State.alphaEnd_cur]
  have hpinned : (s.periodDone k).on (qPinnedF k) = ((s.periodEnds k).alphaPlan k).2 := by
    rw [State.on_congr (State.periodDone_rd (besideEcn_qPinnedF k)), halpha, State.alphaEnd_pinned]
  obtain ⟨hlow, hhigh⟩ := (s.periodEnds k).alphaPlan_bounds k
  refine .of_exec (execAlphaAdapt_due (.inl hon) hdue)
    ⟨hcur.symm ▸ hlow, hcur.symm ▸ hhigh, fun hfrom hto => ?_, ?_, State.periodDone_ranAt, ?_⟩
  · rw [hcur, hpinned]
    exact State.alphaPlan_step (s := s.periodEnds k) hfrom hto
  · have hpath : (s.periodDone k).path = (s.periodAlpha k).path := (congrArg State.path State.periodDone_changes.2 :)
    rw [hpath, halpha, State.alphaEnd_path, State.periodPath_egrDrops, mget_mset_self]
  · obtain ⟨areads, arest⟩ := State.periodAlpha_changes (s := s) (k := k)
    obtain ⟨ereads, erest⟩ := State.periodDone_changes (s := s) (k := k)
    refine ⟨fun f hf => ?_, ?_⟩
    · exact (ereads f fun g hg => hf g (List.mem_append_right _ hg)).trans (areads f fun g hg => hf g (List.mem_append_left _ hg))
    · have hdone := congrArg (fun u : State => { u with path := s.path, timers := s.timers, regs := s.regs }) erest
      have hends := congrArg (fun u : State => { u with timers := s.timers, regs := s.regs }) arest
      exact hdone.trans hends

end Command

end Sys2Proof.Machine
end

section
/-! SUPPORT. The repetition of XOFF (R101), and the statement of the Lagoon's loops. -/

set_option Elab.async false

namespace Sys2Proof.Machine

/-! ### Priorities by their bits -/

/-- A loop that sets the bits of the numbers below `n` that satisfy `c`. -/
theorem bit_foldl_setBit (c : Nat → Bool) (a n j : Nat) :
    bit ((List.range n).foldl (fun a g => if c g then setBit a g true else a) a) j = (bit a j || (Decidable.decide (j < n) && c j)) := by
  induction n with
  | zero => simp
  | succ n ih =>
    rw [List.range_succ, List.foldl_append, List.foldl_cons, List.foldl_nil]
    by_cases hj : j = n
    · subst hj
      cases hc : c j
      · simp [ih, hc]
      · simp [bit_setBit]
    · have hlt : (j < n + 1) = (j < n) := propext (by omega)
      split
      · simp only [bit_setBit_ne _ hj, ih, hlt]
      · simp only [ih, hlt]

/-- A loop that enters `v` for the numbers below `n` that satisfy `c`. -/
theorem mget_foldl_mset (c : Nat → Bool) (m : PMap Nat) (v n j : Nat) :
    mget ((List.range n).foldl (fun m g => if c g then mset m g v 0 else m) m) j 0 = if j < n ∧ c j then v else mget m j 0 := by
  induction n with
  | zero => simp
  | succ n ih =>
    rw [List.range_succ, List.foldl_append, List.foldl_cons, List.foldl_nil]
    by_cases hj : j = n
    · subst hj
      cases hc : c j
      · simp [ih, hc]
      · simp
    · have hlt : (j < n + 1) = (j < n) := propext (by omega)
      split
      · simp only [mget_mset_ne _ _ _ _ hj, ih, hlt]
      · simp only [ih, hlt]

section Due

variable {s : State} {p : Nat}

/-- The priorities whose XOFF is due: those that hold XOFF and sent it an interval ago or more (R101). -/
theorem State.bit_pfcDue (s : State) (p j : Nat) : bit (s.pfcDue p) j = (Decidable.decide (j < 8) &&
    (bit (s.rd (F.MAC_PFC_STATUS_TX_XOFF p)) j && s.now - mget (s.px p).pfcAt j 0 ≥ s.pfcInterval p)) := by
  have hnone : bit 0 j = false := Nat.zero_testBit j
  unfold State.pfcDue
  rw [bit_foldl_setBit, hnone, Bool.false_or]

/-- No XOFF is due where each was sent less than an interval ago. -/
theorem State.pfcDue_eq_zero (h : ∀ g : Fin 8, bit (s.rd (F.MAC_PFC_STATUS_TX_XOFF p)) g = true →
    s.now - mget (s.px p).pfcAt g 0 < s.pfcInterval p) : s.pfcDue p = 0 := by
  refine Nat.eq_of_testBit_eq fun j => (s.bit_pfcDue p j).trans ?_
  rw [Nat.zero_testBit]
  by_contra hbit
  simp only [Bool.not_eq_false, Bool.and_eq_true, decide_eq_true_eq] at hbit
  obtain ⟨hj, hxoff, hlong⟩ := hbit
  exact absurd (h ⟨j, hj⟩ hxoff) (Nat.not_lt.2 hlong)

end Due

/-! ### Frames of the MAC -/

/-- From `s` to `t` octets have left ports: registers, ports and what leaves the device may differ; the ticks of the last PFC frames are as
they were, and what had left has left. -/
structure State.Transmits (s t : State) : Prop where
  pfcAt : ∀ q, (t.px q).pfcAt = (s.px q).pfcAt
  out : ∀ o ∈ s.out, o ∈ t.out
  rest : { t with portX := s.portX, regs := s.regs, out := s.out } = s

namespace State.Transmits

variable {s t u : State}

theorem refl (s : State) : s.Transmits s := ⟨fun _ => rfl, fun _ ho => ho, rfl⟩

theorem trans (h : s.Transmits t) (k : t.Transmits u) : s.Transmits u :=
  ⟨fun q => (k.pfcAt q).trans (h.pfcAt q), fun o ho => k.out o (h.out o ho),
    (congrArg (fun x : State => { x with portX := s.portX, regs := s.regs, out := s.out }) k.rest).trans h.rest⟩

theorem ite {c : Prop} [Decidable c] {a b : State} (ha : s.Transmits a) (hb : s.Transmits b) : s.Transmits (if c then a else b) := by
  split
  · exact ha
  · exact hb

theorem foldl {α : Type} {g : State → α → State} (hg : ∀ t x, s.Transmits t → s.Transmits (g t x)) (h : s.Transmits t) (l : List α) :
    s.Transmits (l.foldl g t) :=
  List.foldlRecOn l g h fun u hu x _ => hg u x hu

theorem wr (h : s.Transmits t) (f : Fld) (v : Nat) : s.Transmits (t.wr f v) := h.trans ⟨fun _ => rfl, fun _ ho => ho, rfl⟩

theorem emit (h : s.Transmits t) (o : Out) : s.Transmits (t.emit o) := h.trans ⟨fun _ => rfl, fun _ => List.mem_cons_of_mem o, rfl⟩

theorem updPort (h : s.Transmits t) (p : Nat) (g : PortX → PortX) (hpfc : (g (t.px p)).pfcAt = (t.px p).pfcAt := by rfl) :
    s.Transmits (t.updPort p g) := by
  refine h.trans ⟨fun q => ?_, fun _ ho => ho, rfl⟩
  by_cases hq : q = p
  · rw [hq, State.px_updPort, hpfc]
  · exact congrArg PortX.pfcAt (mget_mset_ne _ _ _ _ hq)

/-- Whatever then changes at a port and its lanes. -/
theorem updPort_rest (h : s.Transmits t) (p : Nat) (g : PortX → PortX) :
    { t.updPort p g with portX := s.portX, laneX := s.laneX, regs := s.regs, out := s.out } = s :=
  congrArg (fun x : State => { x with laneX := s.laneX }) h.rest

theorem mib (h : s.Transmits t) (p k n : Nat) : s.Transmits (t.mib p k n) := h.wr _ _

theorem mibTx (h : s.Transmits t) (p : Nat) (f : Bytes) : s.Transmits (t.mibTx p f) := (((h.mib ..).mib ..).mib ..).mib ..

theorem dealBlock (h : s.Transmits t) (p : Nat) (b : Bits) : s.Transmits (t.dealBlock p b) := by
  unfold State.dealBlock
  extract_lets x k l full s1 s2
  have h1 : s.Transmits s1 := h.updPort p _
  refine ite ?_ h1
  split
  · exact ite ((h1.emit _).emit _) (h1.emit _)
  · exact h1.emit _

theorem sendBlocks (h : s.Transmits t) (p : Nat) (l : List Bits) : s.Transmits (t.sendBlocks p l) :=
  foldl (fun _ _ hu => (hu.updPort p _).dealBlock ..) h l

/-- After the frame itself come the codewords of a Strait port (R86, R87). -/
theorem lineSend_of_emit (s : State) (p : Nat) (f : Bytes) : (s.emit (.frame p f)).Transmits (s.lineSend p f) :=
  ite ((refl _).sendBlocks ..) (refl _)

end State.Transmits

/-- A frame that the MAC builds leaves its port, and nothing else that is seen here changes (R96, R101). -/
theorem State.macSend_transmits (s : State) (p da etype : Nat) (payload : Bytes) :
    s.Transmits (s.macSend p da etype payload) ∧ ∃ data, Out.frame p data ∈ (s.macSend p da etype payload).out := by
  unfold State.macSend
  extract_lets f
  have hsent : (s.emit (.frame p f)).Transmits ((s.lineSend p f).mibTx p f) := (State.Transmits.lineSend_of_emit s p f).mibTx p f
  exact ⟨((State.Transmits.refl s).emit _).trans hsent, f, hsent.out _ List.mem_cons_self⟩

/-- A PFC frame leaves its port (R101). -/
theorem State.sendPfc_transmits (s : State) (p prios time : Nat) :
    s.Transmits (s.sendPfc p prios time) ∧ ∃ data, Out.frame p data ∈ (s.sendPfc p prios time).out := by
  have hcounts : s.Transmits ((List.range 8).foldl (fun s i => if bit prios i then s.mib p (38 + i) 1 else s) s) :=
    State.Transmits.foldl (fun _ _ hu => State.Transmits.ite (hu.mib ..) hu) (State.Transmits.refl s) _
  obtain ⟨hsends, hframe⟩ := State.macSend_transmits _ p _ _ _
  exact ⟨hcounts.trans hsends, hframe⟩

/-! ### PFC_REFRESH -/

section Command

variable {s : State} {p : Fin 512}

/-- A port that is not UP, or that has no XOFF due, sends nothing (R101, R193). -/
theorem pfcRefresh_idle (h : s.portState p ≠ 3 ∨ s.pfcDue p = 0) : Runs (.pfcRefresh p) s fun t => t = s := by
  refine .of_exec (congrArg Host.Outcome.next (if_neg ?_)) rfl
  rcases h with h | h <;> simp [h]

/-- The port as a PFC frame for the priorities in `prios` leaves it. -/
def State.pfcSent (s : State) (p prios : Nat) : State :=
  (s.sendPfc p prios (s.rd (F.MAC_PFC_QUANTA_XOFF p))).updPort p fun y =>
    { y with pfcAt := (List.range 8).foldl (fun m g => if bit prios g then mset m g s.now 0 else m) y.pfcAt }

theorem State.pfcSent_pfcAt (s : State) (p prios : Nat) (g : Fin 8) :
    mget ((s.pfcSent p prios).px p).pfcAt g 0 = if bit prios g then s.now else mget (s.px p).pfcAt g 0 := by
  obtain ⟨hsends, -⟩ := s.sendPfc_transmits p prios (s.rd (F.MAC_PFC_QUANTA_XOFF p))
  have hports : ((s.pfcSent p prios).px p).pfcAt =
      (List.range 8).foldl (fun m g => if bit prios g then mset m g s.now 0 else m) (s.px p).pfcAt := by
    rw [← hsends.pfcAt p]
    exact congrArg PortX.pfcAt (State.px_updPort ..)
  simp only [hports, mget_foldl_mset, g.isLt, true_and]

theorem State.pfcSent_frame (s : State) (p prios : Nat) : ∃ data, Out.frame p data ∈ (s.pfcSent p prios).out := by
  obtain ⟨-, hframe⟩ := s.sendPfc_transmits p prios (s.rd (F.MAC_PFC_QUANTA_XOFF p))
  rwa [State.pfcSent, State.updPort_out]

theorem State.pfcSent_rest (s : State) (p prios : Nat) :
    { s.pfcSent p prios with portX := s.portX, laneX := s.laneX, regs := s.regs, out := s.out } = s := by
  obtain ⟨hsends, -⟩ := s.sendPfc_transmits p prios (s.rd (F.MAC_PFC_QUANTA_XOFF p))
  exact hsends.updPort_rest p _

/-- The XOFF that is due goes out again, and its priorities are sent from now (R101). -/
theorem pfcRefresh_sends (hup : s.portState p = 3) (hdue : s.pfcDue p ≠ 0) :
    Runs (.pfcRefresh p) s fun t =>
      (∀ g : Fin 8, mget (t.px p).pfcAt g 0 = if bit (s.pfcDue p) g then s.now else mget (s.px p).pfcAt g 0) ∧
      (∃ data, Out.frame p data ∈ t.out) ∧ { t with portX := s.portX, laneX := s.laneX, regs := s.regs, out := s.out } = s := by
  have hexec : exec (.pfcRefresh p) s = .next (s.pfcSent p (s.pfcDue p)) := by
    have hsend : (s.portState p = 3 && s.pfcDue p ≠ 0) = true := by simp [hup, hdue]
    change execPfcRefresh p s = _
    simp only [execPfcRefresh, hsend, if_true, State.pfcSent]
  exact .of_exec hexec ⟨s.pfcSent_pfcAt p _, s.pfcSent_frame p _, s.pfcSent_rest p _⟩

end Command

/-! ### The statement -/

/-- Settles O38: a bank by what it is and what is in RESERVE, a queue by what adapts and its period, a port by what is due. -/
theorem lagoonLoops : Obligations.LagoonLoops := by
  refine fun s => ⟨fun h b => ⟨bankReplace_idle, bankReplace_refused, fun hstate _ => bankReplace_replaces hstate⟩, ?_,
    fun p => ⟨fun hidle => ?_, fun hup hdue => ⟨fun g => ?_, pfcRefresh_sends hup hdue⟩⟩⟩
  · rintro k _ rfl
    refine ⟨fun ⟨hecn, hearly⟩ => alphaAdapt_idle hecn hearly, alphaAdapt_ecn, fun hon hdue => ?_⟩
    obtain ⟨t, ht, hlow, hhigh, hstep, hrest⟩ := alphaAdapt_alpha hon hdue
    refine ⟨t, ht, hlow, hhigh, fun hfrom hto => ?_, hrest⟩
    obtain ⟨hup, hdown, hpinned⟩ := hstep hfrom hto
    exact ⟨hup, hdown, fun _ => hpinned⟩
  · exact pfcRefresh_idle (hidle.imp_right State.pfcDue_eq_zero)
  · rw [State.bit_pfcDue, decide_eq_true g.isLt, Bool.true_and]

end Sys2Proof.Machine
end

section
/-! SUPPORT. Which commands may change the fuses and the bytes of HBM (R396, R399, R403), and the statement. -/

set_option Elab.async false

namespace Sys2Proof.Machine

/-- A step with a command at the front of the queue goes on as that command does. -/
theorem exec_of_stepsTo {s t : State} {c : Instr} {rest : List Instr} (hfront : s.pending = c :: rest) (hst : stepsTo s t) :
    exec c { s with pending := rest } = .next t := by
  unfold stepsTo step at hst
  rwa [hfront] at hst

/-- Every command keeps the fuses unless it blows them or resets the device, and HBM unless it writes there or resets the device. -/
theorem exec_keeping (c : Instr) (s : State) :
    Keeping (!(blowsFuses c || resetsDevice c)) (!(writesHbm c || resetsDevice c)) s (exec c s) :=
  match c with
  | .frameReceive p rx sub => execFrameReceive_keeps p rx sub s
  | .ingressIssue isl x faults => execIngressIssue_keeps isl x faults s
  | .recircIssue isl x ops => execRecircIssue_keeps isl x ops s
  | .pipelineExit isl x sub faults => execPipelineExit_keeps isl x sub faults s
  | .deepPageWritten q seq => execDeepPageWritten_keeps q seq s
  | .deepModeLeave q => execDeepModeLeave_keeps q s
  | .drainReadIssue q => execDrainReadIssue_keeps q s
  | .drainPageLand q seq err => execDrainPageLand_keeps q seq err s
  | .cellGrant d b n => execCellGrant_keeps d b n s
  | .flitReceive d b err => execFlitReceive_keeps d b err s
  | .flitNackReceive d b => execFlitNackReceive_keeps d b s
  | .flitAckReceive d b => execFlitAckReceive_keeps d b s
  | .creditReturn d b vc n => execCreditReturn_keeps d b vc n s
  | .descEnqueue pkt => execDescEnqueue_keeps pkt s
  | .bundleRetrain d b => execBundleRetrain_keeps d b s
  | .bundleTrainDone d b => execBundleTrainDone_keeps d b s
  | .bundleRetire d b => execBundleRetire_keeps d b s
  | .wireSwapStart d b w => execWireSwapStart_keeps d b w s
  | .wireSwapDone d b => execWireSwapDone_keeps d b s
  | .dequeueDecision a sub errs ops => execDequeueDecision_keeps a sub errs ops s
  | .egressExit a b => execEgressExit_keeps a b s
  | .frameSent p sub errs => execFrameSent_keeps p sub errs s
  | .pfcRefresh p => execPfcRefresh_keeps p s
  | .trapRefill isl r => execTrapRefill_keeps isl r s
  | .rxTailWrite q r tail => execRxTailWrite_keeps q r tail s
  | .rxFrameWrite bufs errs => execRxFrameWrite_keeps bufs errs s
  | .rxItrExpire r => execRxItrExpire_keeps r s
  | .txTailWrite q r tail => execTxTailWrite_keeps q r tail s
  | .txFrameRead r ds data sub => execTxFrameRead_keeps r ds data sub s
  | .hostInjectWaitExpire isl x => execHostInjectWaitExpire_keeps isl x s
  | .pcieLinkChange up rate width flit => execPcieLinkChange_keeps up rate width flit s
  | .functionLevelReset f => execFunctionLevelReset_keeps f s
  | .vfWindowAccess f off size w => execVfWindowAccess_keeps f off size w s
  | .harbRingCfgWrite q tx r v => execHarbRingCfgWrite_keeps q tx r v s
  | .intStatusWrite q b isl v => execIntStatusWrite_keeps q b isl v s
  | .chipVecMapWrite q b v => execChipVecMapWrite_keeps q b v s
  | .dysCmdTailWrite q k tail => execDysCmdTailWrite_keeps q k tail s
  | .dysDatagramReceive e v6 src dst dport ver ty count seq => execDysDatagramReceive_keeps e v6 src dst dport ver ty count seq s
  | .nop h => execNop_keeps h s
  | .regRead h count => execRegRead_keeps h count s
  | .regWrite h words => execRegWrite_keeps h words s
  | .portDefine h d => execPortDefine_keeps h d s
  | .portEnable h on => execPortEnable_keeps h on s
  | .spareSwap h => execSpareSwap_keeps h s
  | .sparePolicy h op => execSparePolicy_keeps h op s
  | .spareReturn h => execSpareReturn_keeps h s
  | .returnTestDone pass step => execReturnTestDone_keeps pass step s
  | .errlogRead h seq count => execErrlogRead_keeps h seq count s
  | .tidemarkFire h => execTidemarkFire_keeps h s
  | .sessionOpen h o => execSessionOpen_keeps h o s
  | .sessionClose h => execSessionClose_keeps h s
  | .imageStage h im x => execImageStage_keeps h im x s
  | .imageSwap h => execImageSwap_keeps h s
  | .imageCancel h => execImageCancel_keeps h s
  | .keyProgram h digest => execKeyProgram_keeps h digest s
  | .keyRevoke h => execKeyRevoke_keeps h s
  | .svnRaise h floor => execSvnRaise_keeps h floor s
  | .lightStep h abs sec ns frac => execLightStep_keeps h abs sec ns frac s
  | .lightState h req => execLightState_keeps h req s
  | .capSet h cap => execCapSet_keeps h cap s
  | .telRead h => execTelRead_keeps h s
  | .ringReset h tx => execRingReset_keeps h tx s
  | .sensorRead h => execSensorRead_keeps h s
  | .resetReq h => execResetReq_keeps h s
  | .laneEnable l => execLaneEnable_keeps l s
  | .laneDisable l => execLaneDisable_keeps l s
  | .trainingFrameReceive l x => execTrainingFrameReceive_keeps l x s
  | .trainingTimeout l => execTrainingTimeout_keeps l s
  | .adaptUpdate l ctle ffe settled req offset => execAdaptUpdate_keeps l ctle ffe settled req offset s
  | .blockLockAcquire l offset pos heads => execBlockLockAcquire_keeps l offset pos heads s
  | .lossOfLock l heads words signal cdr => execLossOfLock_keeps l heads words signal cdr s
  | .laneBitslip q l => execLaneBitslip_keeps q l s
  | .portIdleEntry p => execPortIdleEntry_keeps p s
  | .idleReqReceive p tag => execIdleReqReceive_keeps p tag s
  | .idleAckReceive p tag => execIdleAckReceive_keeps p tag s
  | .idleNakReceive p block => execIdleNakReceive_keeps p block s
  | .wakeBurstDetect p => execWakeBurstDetect_keeps p s
  | .wakeComplete p tempOk => execWakeComplete_keeps p tempOk s
  | .swapWindowClose l words corner => execSwapWindowClose_keeps l words corner s
  | .swapReqReceive p block byCmd => execSwapReqReceive_keeps p block byCmd s
  | .swapAckReceive p tag => execSwapAckReceive_keeps p tag s
  | .swapNakReceive p block => execSwapNakReceive_keeps p block s
  | .swapAligned p run skew => execSwapAligned_keeps p run skew s
  | .swapDoneReceive p block => execSwapDoneReceive_keeps p block s
  | .swapAbortReceive p block => execSwapAbortReceive_keeps p block s
  | .swapTimeout p => execSwapTimeout_keeps p s
  | .lmosRepeat l => execLmosRepeat_keeps l s
  | .portCtlEnable q p on => execPortCtlEnable_keeps q p on s
  | .portLinkUp p arrivals => execPortLinkUp_keeps p arrivals s
  | .anComplete p common an => execAnComplete_keeps p common an s
  | .fecDegradeWindow p corr uncorr => execFecDegradeWindow_keeps p corr uncorr s
  | .helloSend p => execHelloSend_keeps p s
  | .helloReceive p frame coding => execHelloReceive_keeps p frame coding s
  | .partnerExpire p => execPartnerExpire_keeps p s
  | .macControlReceive p frame coding => execMacControlReceive_keeps p frame coding s
  | .pauseExpire p g => execPauseExpire_keeps p g s
  | .pipePortLiveWrite q isl w v => execPipePortLiveWrite_keeps q isl w v s
  | .clsWriteData q isl d first last => execClsWriteData_keeps q isl d first last s
  | .clsSetValid q isl d => execClsSetValid_keeps q isl d s
  | .clsClearValid q isl d => execClsClearValid_keeps q isl d s
  | .clsWriteAction q isl d => execClsWriteAction_keeps q isl d s
  | .clsRead q isl d => execClsRead_keeps q isl d s
  | .ppeBankSwitch q isl active => execPpeBankSwitch_keeps q isl active s
  | .mtrWrite q isl => execMtrWrite_keeps q isl s
  | .mtrWriteKeep q isl => execMtrWriteKeep_keeps q isl s
  | .mtrRead q isl => execMtrRead_keeps q isl s
  | .loadingReady isl d => execLoadingReady_keeps isl d s
  | .swapTargetEmpty isl d => execSwapTargetEmpty_keeps isl d s
  | .fenceTimeout isl d => execFenceTimeout_keeps isl d s
  | .pipelineRetire isl x => execPipelineRetire_keeps isl x s
  | .pipelineFault isl x => execPipelineFault_keeps isl x s
  | .bankReplace h b => execBankReplace_keeps h b s
  | .alphaAdapt k => execAlphaAdapt_keeps k s
  | .bpmAlloc a pool domain => execBpmAlloc_keeps a pool domain s
  | .bpmAddRef a h n => execBpmAddRef_keeps a h n s
  | .bpmRelease a h uncorr => execBpmRelease_keeps a h uncorr s
  | .bpmQuery a h => execBpmQuery_keeps a h s
  | .bpmCacheRefill d k part => execBpmCacheRefill_keeps d k part s
  | .bpmCacheReturn d k part => execBpmCacheReturn_keeps d k part s
  | .mcRequest st off len wr rt client => execMcRequest_keeps st off len wr rt client s
  | .mcRequestDone st c errs => execMcRequestDone_keeps st c errs s
  | .refreshDue st ch bank => execRefreshDue_keeps st ch bank s
  | .rowIdleClose st pc bank => execRowIdleClose_keeps st pc bank s
  | .idleTimerAdapt st pc => execIdleTimerAdapt_keeps st pc s
  | .mcTsetWrite q st target commits => execMcTsetWrite_keeps q st target commits s
  | .tsetEntryRetry st commits => execTsetEntryRetry_keeps st commits s
  | .tsetChangeDone st => execTsetChangeDone_keeps st s
  | .srIdleEntry st => execSrIdleEntry_keeps st s
  | .patrolScrub st pins => execPatrolScrub_keeps st pins s
  | .hbmTempRead st temp => execHbmTempRead_keeps st temp s
  | .delayTracking st ch => execDelayTracking_keeps st ch s
  | .hbmTrainingDone st temp fail => execHbmTrainingDone_keeps st temp fail s
  | .channelSpareStart st c => execChannelSpareStart_keeps st c s
  | .channelCopyDone st => execChannelCopyDone_keeps st s
  | .shaperRefill n => execShaperRefill_keeps n s
  | .gateEdge p => execGateEdge_keeps p s
  | .gateConfigChange q p => execGateConfigChange_keeps q p s
  | .gateCancel q p => execGateCancel_keeps q p s
  | .gateListStart p => execGateListStart_keeps p s
  | .queueSample k => execQueueSample_keeps k s
  | .contribReceive r => execContribReceive_keeps r s
  | .chunkResultSend n => execChunkResultSend_keeps n s
  | .resultReceive r => execResultReceive_keeps r s
  | .atollNackReceive r => execAtollNackReceive_keeps r s
  | .holdOffReceive r => execHoldOffReceive_keeps r s
  | .abortReceive r => execAbortReceive_keeps r s
  | .nackDelayExpire n opseq chunk => execNackDelayExpire_keeps n opseq chunk s
  | .chunkDeadline n opseq chunk => execChunkDeadline_keeps n opseq chunk s
  | .holdOffSend n => execHoldOffSend_keeps n s
  | .engineReplace e => execEngineReplace_keeps e s
  | .engineFault e logic => execEngineFault_keeps e logic s
  | .exportFrameClose c ty => execExportFrameClose_keeps c ty s
  | .collectorRefill c => execCollectorRefill_keeps c s
  | .flowSweep die key => execFlowSweep_keeps die key s
  | .telFlowRd q => execTelFlowRd_keeps q s
  | .cntTblRead q isl d => execCntTblRead_keeps q isl d s
  | .cntTblReadClear q isl d => execCntTblReadClear_keeps q isl d s
  | .cntCtlVfWrite f n v => execCntCtlVfWrite_keeps f n v s
  | .cntUserPagesWrite q f w v => execCntUserPagesWrite_keeps q f w v s
  | .dumpEdge => execDumpEdge_keeps s
  | .dumpWriteDone => execDumpWriteDone_keeps s
  | .lightStepGo q d => execLightStepGo_keeps q d s
  | .lightReqAcquire q d => execLightReqAcquire_keeps q d s
  | .lightReqLocked q d => execLightReqLocked_keeps q d s
  | .lightReqFree q d => execLightReqFree_keeps q d s
  | .lightSnap d => execLightSnap_keeps d s
  | .lightKick d => execLightKick_keeps d s
  | .lightRateAdjWrite q d adj => execLightRateAdjWrite_keeps q d adj s
  | .lightIncrWrite q d incr => execLightIncrWrite_keeps q d incr s
  | .lightModeWrite q d mode => execLightModeWrite_keeps q d mode s
  | .watchdogExpire d => execWatchdogExpire_keeps d s
  | .ppsInEdge sub => execPpsInEdge_keeps sub s
  | .ppsInMiss d => execPpsInMiss_keeps d s
  | .ppsInTsRead q => execPpsInTsRead_keeps q s
  | .ppsOutEdge => execPpsOutEdge_keeps s
  | .tenMhzPhase phase => execTenMhzPhase_keeps phase s
  | .tsfPop q isl => execTsfPop_keeps q isl s
  | .timeCompareFire => execTimeCompareFire_keeps s
  | .pllTakeover refLost => execPllTakeover_keeps refLost s
  | .pllRelockDone k => execPllRelockDone_keeps k s
  | .pllRelockTimeout k => execPllRelockTimeout_keeps k s
  | .pllAligned => execPllAligned_keeps s
  | .clkSwitch q => execClkSwitch_keeps q s
  | .clkRefWrite q a b => execClkRefWrite_keeps q a b s
  | .dividerSwitch mv => execDividerSwitch_keeps mv s
  | .powerControlInterval r => execPowerControlInterval_keeps r s
  | .capTakeback => execCapTakeback_keeps s
  | .boostEntry => execBoostEntry_keeps s
  | .pwrModeWrite q mode => execPwrModeWrite_keeps q mode s
  | .pwrSaveWrite q save => execPwrSaveWrite_keeps q save s
  | .pwrfailAssert => execPwrfailAssert_keeps s
  | .saveExit => execSaveExit_keeps s
  | .vrAlert => execVrAlert_keeps s
  | .voltTrim want => execVoltTrim_keeps want s
  | .droopDetect det => execDroopDetect_keeps det s
  | .droopStretchEnd => execDroopStretchEnd_keeps s
  | .currentLimit amps watts => execCurrentLimit_keeps amps watts s
  | .dutyRise => execDutyRise_keeps s
  | .thermalRead temps => execThermalRead_keeps temps s
  | .throttleStep => execThrottleStep_keeps s
  | .ageingMeasure values => execAgeingMeasure_keeps values s
  | .announceSend => execAnnounceSend_keeps s
  | .announceReceive p frame => execAnnounceReceive_keeps p frame s
  | .bestExpire => execBestExpire_keeps s
  | .reportSend => execReportSend_keeps s
  | .reportReceive p frame => execReportReceive_keeps p frame s
  | .lagSend => execLagSend_keeps s
  | .lagReceive p frame => execLagReceive_keeps p frame s
  | .grantCompute => execGrantCompute_keeps s
  | .grantReceive p frame => execGrantReceive_keeps p frame s
  | .grantRevert => execGrantRevert_keeps s
  | .keepSaveStart trigger => execKeepSaveStart_keeps trigger s
  | .vkeepLow mv => execVkeepLow_keeps mv s
  | .testSave q => execTestSave_keeps q s
  | .keepSaveDone n late => execKeepSaveDone_keeps n late s
  | .keepShadowUpdate wear => execKeepShadowUpdate_keeps wear s
  | .deviceReset cause src i2c => execDeviceReset_keeps cause src i2c s
  | .powerUpRails => execPowerUpRails_keeps s
  | .fuseDone => execFuseDone_keeps s
  | .clockDone ref0 ref1 => execClockDone_keeps ref0 ref1 s
  | .bootPcieGo q => execBootPcieGo_keeps q s
  | .fetchDone image => execFetchDone_keeps image s
  | .verifyDone => execVerifyDone_keeps s
  | .loadDone => execLoadDone_keeps s
  | .restoreDone => execRestoreDone_keeps s
  | .tidemarkInEdge => execTidemarkInEdge_keeps s
  | .rasTmFire q => execRasTmFire_keeps q s
  | .spareReqAge n => execSpareReqAge_keeps n s
  | .spareModeWrite q mode ask => execSpareModeWrite_keeps q mode ask s
  | .spareRateWindow extra => execSpareRateWindow_keeps extra s
  | .ageingCheck => execAgeingCheck_keeps s
  | .softRepair mac line col => execSoftRepair_keeps mac line col s
  | .tcamScrub bad => execTcamScrub_keeps bad s
  | .dbgArmWrite q on => execDbgArmWrite_keeps q on s
  | .jtagBypass tdi => execJtagBypass_keeps tdi s
  | .jtagIdcode => execJtagIdcode_keeps s
  | .jtagSamplePreload data => execJtagSamplePreload_keeps data s
  | .jtagExtest => execJtagExtest_keeps s
  | .jtagClamp => execJtagClamp_keeps s
  | .jtagHighz => execJtagHighz_keeps s
  | .jtagExtestPulse => execJtagExtestPulse_keeps s
  | .jtagExtestTrain => execJtagExtestTrain_keeps s
  | .jtagTmFire => execJtagTmFire_keeps s
  | .jtagTmRead => execJtagTmRead_keeps s
  | .jtagDevReset => execJtagDevReset_keeps s
  | .lowWordRead q addr size => execLowWordRead_keeps q addr size s
  | .lowWordWrite q addr v => execLowWordWrite_keeps q addr v s
  | .highWordWrite q addr v => execHighWordWrite_keeps q addr v s
  | .registerWrite q addr size v => execRegisterWrite_keeps q addr size v s
  | .timeTick n => execTimeTick_keeps n s
  | .ppeLoadDone isl ok => execPpeLoadDone_keeps isl ok s
  | .loadFailed isl d => execLoadFailed_keeps isl d s
  | .msixUnmask owner v => execMsixUnmask_keeps owner v s
  | .refclkStatusChange r ok lock => execRefclkStatusChange_keeps r ok lock s

/-- Settles O7: what a command keeps, by its name; the queue plays no part in it. -/
theorem onlyNamedCommands : Obligations.OnlyNamedCommands := by
  refine ⟨fun s t c rest hfront hst hblows hresets => ?_, fun s t c rest hfront hst hwrites hresets a => ?_⟩
  · obtain ⟨-, hfuses, -⟩ := exec_keeping c _ t (exec_of_stepsTo hfront hst)
    exact hfuses (by rw [hblows, hresets]; rfl)
  · obtain ⟨-, -, hhbm, -⟩ := exec_keeping c _ t (exec_of_stepsTo hfront hst)
    have hsame : t.hbm = s.hbm := hhbm (by rw [hwrites, hresets]; rfl)
    rw [hsame]

end Sys2Proof.Machine
end

section
/-! SUPPORT. What counters, reports, the buffer pools and the Lagoon's accounts leave of the deep queues, the packets and their queues
(R172 to R183, R192, R207 to R214). -/

set_option Elab.async false

namespace Sys2Proof.Machine

/-! ### The relation -/

theorem State.Transmits.bpm_eq {s t : State} (h : s.Transmits t) : t.bpm = s.bpm := (congrArg State.bpm h.rest :)
theorem State.Transmits.path_eq {s t : State} (h : s.Transmits t) : t.path = s.path := (congrArg State.path h.rest :)

/-- `t` holds the deep queues, the packets, the packets' queues and the ingress pipelines as `s` does. -/
structure State.DeepStands (s t : State) : Prop where
  deep : t.bpm.deep = s.bpm.deep
  pkts : t.path.pkts = s.path.pkts
  queues : t.path.queues = s.path.queues
  pipes : t.path.pipes = s.path.pipes

namespace State.DeepStands

variable {s t u : State}

theorem refl (s : State) : s.DeepStands s := ⟨rfl, rfl, rfl, rfl⟩

theorem trans (h : s.DeepStands t) (k : t.DeepStands u) : s.DeepStands u :=
  ⟨k.deep.trans h.deep, k.pkts.trans h.pkts, k.queues.trans h.queues, k.pipes.trans h.pipes⟩

theorem deepQ_eq (h : s.DeepStands t) (q : Nat) : t.deepQ q = s.deepQ q := by rw [State.deepQ, State.deepQ, h.deep]

theorem ite {c : Prop} [Decidable c] {a b : State} (ha : s.DeepStands a) (hb : s.DeepStands b) : s.DeepStands (if c then a else b) := by
  split
  · exact ha
  · exact hb

theorem foldl {α : Type} {g : State → α → State} (hg : ∀ t x, s.DeepStands t → s.DeepStands (g t x)) (h : s.DeepStands t) (l : List α) :
    s.DeepStands (l.foldl g t) :=
  List.foldlRecOn l g h fun u hu x _ => hg u x hu

/-- What differs beside the buffer pools and the packet path. -/
theorem same (h : s.DeepStands t) (hbpm : u.bpm = t.bpm := by rfl) (hpath : u.path = t.path := by rfl) : s.DeepStands u :=
  h.trans ⟨congrArg BpmSt.deep hbpm, congrArg Path.pkts hpath, congrArg Path.queues hpath, congrArg Path.pipes hpath⟩

theorem wr (h : s.DeepStands t) (f : Fld) (v : Nat) : s.DeepStands (t.wr f v) := h.same

theorem raise (h : s.DeepStands t) (b : Blk) (i e : Nat) : s.DeepStands (t.raise b i e) :=
  h.same (State.raise_bpm ..) (State.raise_path ..)

/-- A change of the buffer pools beside the deep queues. -/
theorem updBpm (h : s.DeepStands t) (g : BpmSt → BpmSt) (hdeep : (g t.bpm).deep = t.bpm.deep := by rfl) : s.DeepStands (t.updBpm g) :=
  h.trans ⟨hdeep, rfl, rfl, rfl⟩

/-- A change of the path beside the packets, their queues and the pipelines. -/
theorem updPath (h : s.DeepStands t) (g : Path → Path) (hpkts : (g t.path).pkts = t.path.pkts := by rfl)
    (hqueues : (g t.path).queues = t.path.queues := by rfl) (hpipes : (g t.path).pipes = t.path.pipes := by rfl) :
    s.DeepStands (t.updPath g) :=
  h.trans ⟨rfl, hpkts, hqueues, hpipes⟩

/-! ### Counters, drops and events (R308 to R329, R436 to R442) -/

theorem cntAdd (h : s.DeepStands t) (n v : Nat) : s.DeepStands (t.cntAdd n v).2 := by
  unfold State.cntAdd
  dsimp only
  split
  · exact h.wr _ _
  · exact (ite ((h.wr _ _).raise ..) (h.wr _ _)).wr _ _

theorem cntGlobal (h : s.DeepStands t) (ev arg v : Nat) : s.DeepStands (t.cntGlobal ev arg v) :=
  foldl (fun _ _ hu => ite (hu.cntAdd ..) hu) h _

theorem mib (h : s.DeepStands t) (p k n : Nat) : s.DeepStands (t.mib p k n) := h.wr _ _

theorem updTel (h : s.DeepStands t) (g : TelSt → TelSt) : s.DeepStands (t.updTel g) := h.same

theorem recLost (h : s.DeepStands t) (c n : Nat) : s.DeepStands (t.recLost c n) := ite (h.updTel _) ((h.updTel _).raise ..)

theorem telRecord (h : s.DeepStands t) (ty c : Nat) (rec : Bytes) : s.DeepStands (t.telRecord ty c rec) :=
  ite h (ite (h.updTel _) (h.recLost ..))

theorem drop (h : s.DeepStands t) (code : Nat) (i : DropInfo) : s.DeepStands (t.drop code i) := by
  unfold State.drop
  extract_lets s1 s2 s3 wanted
  have h2 : s.DeepStands s2 := ite ((h.wr _ _).mib ..) (h.wr _ _)
  have h3 : s.DeepStands s3 := by
    unfold s3
    split
    · exact h2.mib ..
    · exact h2
  exact ite (h3.telRecord ..) h3

theorem logWrite (h : s.DeepStands t) (c code unit detail : Nat) (inj : Bool) : s.DeepStands (t.logWrite c code unit detail inj) := by
  unfold State.logWrite
  extract_lets seq e old s1 s2 s3
  have h1 : s.DeepStands s1 := ite (h.wr F.RAS_LOG_OVERRUN_COUNT _) h
  have h2 : s.DeepStands s2 := h1.wr _ _
  have h3 : s.DeepStands s3 := h2.same
  exact ite h.same (ite h3.same h3)

theorem tidemark (h : s.DeepStands t) (src logSeq : Nat) : s.DeepStands (t.tidemark src logSeq) :=
  ite h (ite h.same (ite (h.wr F.RAS_TM_IGNORED_COUNT _) h.same))

theorem event (h : s.DeepStands t) (c code unit detail : Nat) (inj : Bool := false) : s.DeepStands (t.event c code unit detail inj) := by
  unfold State.event
  extract_lets s1 s2 s3 s4
  have h2 : s.DeepStands s2 := (h.wr (F.RAS_CLASS_CNT_COUNT c) _).raise ..
  have h3 : s.DeepStands s3 := h2.logWrite ..
  have h4 : s.DeepStands s4 := ite h2 (ite (h3.tidemark ..) h3)
  exact ite h4.same h4

theorem finishHold (h : s.DeepStands t) (kind ix status state detail : Nat) :
    s.DeepStands (t.finishHold kind ix status state detail) := by
  obtain ⟨-, hrest⟩ := t.finishHold_answersBy kind ix status state detail
  exact h.same (congrArg State.bpm hrest :) (congrArg State.path hrest :)

/-! ### Ports and pauses (R65, R101, R192) -/

theorem emit (h : s.DeepStands t) (o : Out) : s.DeepStands (t.emit o) := h.same
theorem updPort (h : s.DeepStands t) (p : Nat) (g : PortX → PortX) : s.DeepStands (t.updPort p g) := h.same
theorem portWake (h : s.DeepStands t) (p : Nat) : s.DeepStands (t.portWake p) := ite ((h.updPort p _).emit _) h

theorem sendPfc (h : s.DeepStands t) (p prios time : Nat) : s.DeepStands (t.sendPfc p prios time) := by
  obtain ⟨hsends, -⟩ := t.sendPfc_transmits p prios time
  exact h.same hsends.bpm_eq hsends.path_eq

theorem pfcUpdate (h : s.DeepStands t) (p : Nat) : s.DeepStands (t.pfcUpdate p) := by
  unfold State.pfcUpdate
  extract_lets want have0 s1 s2
  have h1 : s.DeepStands s1 := h.wr _ _
  have h2 : s.DeepStands s2 := ite ((h1.sendPfc ..).updPort ..) h1
  exact ite (h.wr _ _) (ite (h2.sendPfc ..) h2)

theorem askXoff (h : s.DeepStands t) (p g : Nat) (on : Bool) : s.DeepStands (t.askXoff p g on) := (h.updPort ..).pfcUpdate _

theorem pgTest (h : s.DeepStands t) (d p g : Nat) : s.DeepStands (t.pgTest d p g) :=
  have hset : ∀ v, s.DeepStands (t.wr (F.LAG_PG_USE_XOFF (3 * (8 * p + g) + 2)) v) := fun v => h.wr _ v
  ite (ite (((hset _).askXoff ..).cntGlobal ..) h) (ite ((hset _).askXoff ..) h)

theorem pgTests (h : s.DeepStands t) (d : Nat) : s.DeepStands (t.pgTests d) := foldl (fun _ _ hu => hu.pgTest ..) h _

/-! ### Accounts and cells (R172 to R183) -/

theorem charge (h : s.DeepStands t) (a : Acct) (d n : Nat) : s.DeepStands (t.charge a d n) := by
  unfold State.charge
  extract_lets seen
  have hseen : ∀ p g u, s.DeepStands u → s.DeepStands (seen p g u) := fun _ _ _ hu => hu.updPath _
  split
  · exact h
  · exact hseen _ _ _ ((h.wr _ _).wr _ _)
  · exact (h.updPath _).wr _ _
  · exact h.wr _ _
  · exact hseen _ _ _ ((h.wr _ _).wr _ _)
  · exact hseen _ _ _ ((h.wr _ _).wr _ _)

theorem refund (h : s.DeepStands t) (a : Acct) (d n : Nat) : s.DeepStands (t.refund a d n) := by
  unfold State.refund
  split
  · exact h
  · exact (h.wr _ _).wr _ _
  · exact (h.updPath _).wr _ _
  · exact h.wr _ _
  · exact (h.wr _ _).wr _ _
  · exact (h.wr _ _).wr _ _

theorem spillUpdate (h : s.DeepStands t) (d : Nat) : s.DeepStands (t.spillUpdate d) :=
  have hset : ∀ v, s.DeepStands (t.wr (F.LAG_HALF_STATUS_SPILLING d) v) := fun v => h.wr _ v
  ite ((hset _).raise ..) (ite (hset _) h)

theorem bankCheck (h : s.DeepStands t) (d b : Nat) : s.DeepStands (t.bankCheck d b) :=
  ite ((((h.wr (F.LAG_BANK_STATUS_STATE (34 * d + b)) 3).wr F.RAS_SPARE_STATUS_SWAPS _).raise ..).finishHold ..) h

theorem freeCells (h : s.DeepStands t) (d : Nat) (cells : List Nat) : s.DeepStands (t.freeCells d cells) := by
  refine spillUpdate (foldl (fun u a hu => ?_) h cells) d
  have hback : s.DeepStands ((u.backIndex a).subFrom (F.LAG_BANK_STATUS_HELD (cellBank a)) 1) := (hu.updPath _).wr _ _
  exact (ite (hback.wr _ _) hback).bankCheck ..

theorem takeIndex (h : s.DeepStands t) (o : Nat) : s.DeepStands (t.takeIndex o).2 := by
  unfold State.takeIndex
  extract_lets n
  split
  · dsimp only
    exact h.updPath _
  · split
    · dsimp only
      exact h.updPath _
    · exact h

theorem nextCell (h : s.DeepStands t) {d : Nat} {r : Nat × State} (hr : t.nextCell d = some r) : s.DeepStands r.2 := by
  unfold State.nextCell at hr
  split at hr
  · cases hr
  · cases hr
    exact (h.updPath _).takeIndex _

theorem takeCells (h : s.DeepStands t) (d n : Nat) : s.DeepStands (t.takeCells d n).2 := by
  induction n generalizing t with
  | zero => exact h
  | succ n ih =>
    unfold State.takeCells
    split
    · exact h
    · next hr => exact ih ((h.nextCell hr).wr _ _)

/-! ### Buffer pools (R207 to R214) -/

theorem ringPop (h : s.DeepStands t) {st k : Nat} {r : Nat × State} (hr : t.ringPop st k = some r) : s.DeepStands r.2 := by
  unfold State.ringPop at hr
  dsimp only at hr
  split at hr
  · cases hr
    dsimp only
    exact h.updBpm _
  · split at hr
    · cases hr
    · cases hr
      dsimp only
      exact h.updBpm _

theorem cacheFill (h : s.DeepStands t) (d k part n : Nat) : s.DeepStands (t.cacheFill d k part n) := by
  induction n generalizing t with
  | zero => exact h
  | succ n ih =>
    unfold State.cacheFill
    dsimp only
    split
    · exact h
    · next st hd u hfound =>
      obtain ⟨st', -, hpop⟩ := List.exists_of_findSome?_eq_some hfound
      obtain ⟨r, hr, hpair⟩ := Option.map_eq_some_iff.1 hpop
      have hu : s.DeepStands u := by
        have hr2 := h.ringPop hr
        cases hpair
        exact hr2
      exact ih ((hu.updBpm _).updBpm _)

theorem takeHandle (h : s.DeepStands t) {agent k : Nat} {avoid : Option Nat} {r : Nat × State} (hr : t.takeHandle agent k avoid = some r) :
    s.DeepStands r.2 := by
  unfold State.takeHandle at hr
  extract_lets d part fits u at hr
  have hu : s.DeepStands u := ite h (h.cacheFill ..)
  split at hr
  · cases hr
  · cases hr
    dsimp only
    exact hu.updBpm _

theorem bpmAlloc (h : s.DeepStands t) (agent k domain : Nat) (avoid : Option Nat := none) :
    s.DeepStands (t.bpmAlloc agent k domain avoid).2.2 := by
  unfold State.bpmAlloc
  extract_lets c
  split
  · exact h
  · split
    · dsimp only
      exact (h.raise ..).cntGlobal ..
    · split
      · dsimp only
        exact (h.raise ..).cntGlobal ..
      · next hr =>
        extract_lets e s1 s2 s3 s4
        have h3 : s.DeepStands s3 := (((h.takeHandle hr).updBpm _).wr _ _).wr _ _
        exact ite (h3.raise ..) h3

theorem badRelease (h : s.DeepStands t) (agent hd kind : Nat) : s.DeepStands (t.badRelease agent hd kind) :=
  ((((h.wr F.BPM_BAD_RELEASE_HANDLE hd).wr F.BPM_BAD_RELEASE_AGENT agent).wr F.BPM_BAD_RELEASE_KIND kind).wr F.BPM_BAD_COUNT_COUNT _).raise ..

theorem setEnt (h : s.DeepStands t) (hd : Nat) (e : BufEnt) : s.DeepStands (t.setEnt hd e) := h.updBpm _

theorem freeBuf (h : s.DeepStands t) (hd : Nat) : s.DeepStands (t.freeBuf hd) := by
  unfold State.freeBuf
  extract_lets e c k g s1 s2 d part s3
  have h2 : s.DeepStands s2 := (h.setEnt ..).wr _ _
  exact ite (h2.wr _ _) ((h2.wr _ _).updBpm _)

theorem bpmRelease (h : s.DeepStands t) (agent hd : Nat) : s.DeepStands (t.bpmRelease agent hd).2 := by
  unfold State.bpmRelease
  split
  · exact h.badRelease ..
  · dsimp only
    split
    · exact h.freeBuf _
    · exact h.setEnt ..

theorem drawPage (h : s.DeepStands t) {die : Nat} {r : Nat × State} (hr : t.drawPage die = some r) : s.DeepStands r.2 := by
  unfold State.drawPage at hr
  split at hr
  · cases hr
    exact ite ((h.updBpm _).raise ..) (h.updBpm _)
  · dsimp only at hr
    split at hr
    · cases hr
      exact h.bpmAlloc ..
    · cases hr

end State.DeepStands

end Sys2Proof.Machine
end

section
/-! SUPPORT. DEEP_PAGE_WRITTEN (R184, R201, R202): the cells that now stand in HBM leave the Lagoon. -/

set_option Elab.async false

namespace Sys2Proof.Machine

theorem mfind_minsert_self {α : Type} (m : PMap α) (k : Nat) (v : α) : mfind (minsert m k v) k = some v := by
  rw [mfind_minsert, if_pos rfl]

theorem mfind_minsert_ne {α : Type} (m : PMap α) {k j : Nat} (v : α) (h : j ≠ k) : mfind (minsert m k v) j = mfind m j := by
  rw [mfind_minsert, if_neg h]

/-- The cells that packet `id` holds in the Lagoon, if there is such a packet. -/
def State.cellsHeld (s : State) (id : Nat) : Option (List Nat) := (mfind s.path.pkts id).map fun z => z.cells

theorem State.DeepStands.cellsHeld_eq {s t : State} (h : s.DeepStands t) (id : Nat) : t.cellsHeld id = s.cellsHeld id := by
  rw [State.cellsHeld, State.cellsHeld, h.pkts]

/-- From `s` to `t` packet `y.1` has given up `y.2` of its cells; other packets hold theirs, and deep queues, queues and pipelines are as they
were. -/
structure State.Gives (y : Nat × Nat) (s t : State) : Prop where
  deep : t.bpm.deep = s.bpm.deep
  queues : t.path.queues = s.path.queues
  pipes : t.path.pipes = s.path.pipes
  given : t.cellsHeld y.1 = (s.cellsHeld y.1).map fun l => l.drop y.2
  others : ∀ id, id ≠ y.1 → t.cellsHeld id = s.cellsHeld id

/-- A packet gives up cells (R184). -/
theorem State.giveCells_gives {s t : State} (h : s.DeepStands t) (y : Nat × Nat) : State.Gives y s (t.giveCells y.1 y.2) := by
  unfold State.giveCells
  split
  · next hnone =>
    have hnot : s.cellsHeld y.1 = none := by rw [← h.cellsHeld_eq, State.cellsHeld, hnone, Option.map_none]
    exact ⟨h.deep, h.queues, h.pipes, by rw [h.cellsHeld_eq, hnot, Option.map_none], fun id _ => h.cellsHeld_eq id⟩
  · next x hx =>
    have hheld : s.cellsHeld y.1 = some x.cells := by rw [← h.cellsHeld_eq, State.cellsHeld, hx, Option.map_some]
    have hfreed : s.DeepStands ((t.freeCells x.half (x.cells.take y.2)).refund x.acct x.half (min y.2 x.cells.length)) :=
      (h.freeCells ..).refund ..
    dsimp only
    generalize (t.freeCells x.half (x.cells.take y.2)).refund x.acct x.half (min y.2 x.cells.length) = u at hfreed
    have htests := (State.DeepStands.refl (u.setPkt y.1 (some { x with cells := x.cells.drop y.2 }))).pgTests x.half
    refine ⟨htests.deep.trans hfreed.deep, htests.queues.trans hfreed.queues, htests.pipes.trans hfreed.pipes, ?_, fun id hid => ?_⟩
    · rw [htests.cellsHeld_eq, hheld]
      exact congrArg (Option.map fun z : Pkt => z.cells) (mfind_minsert_self ..)
    · rw [htests.cellsHeld_eq, ← hfreed.cellsHeld_eq]
      exact congrArg (Option.map fun z : Pkt => z.cells) (mfind_minsert_ne _ _ hid)

/-- The cells of a packet in a page that has been written leave the Lagoon (R184, R201). -/
theorem State.cellsGone_gives (s : State) (q : Nat) (y : Nat × Nat) : State.Gives y s (s.cellsGone q y) := by
  unfold State.cellsGone
  split
  · exact State.giveCells_gives ((State.DeepStands.refl s).wr _ _) y
  · next hnone =>
    have hnot : s.cellsHeld y.1 = none := by rw [State.cellsHeld, hnone, Option.map_none]
    exact ⟨rfl, rfl, rfl, by rw [hnot, Option.map_none], fun _ _ => rfl⟩

section Parts

variable (q : Nat) (l : List (Nat × Nat)) (s : State)

/-- The cells of a whole page leave the Lagoon; deep queues, queues and pipelines stay. -/
theorem State.cellsGone_foldl_stands :
    (l.foldl (fun s y => s.cellsGone q y) s).bpm.deep = s.bpm.deep ∧ (l.foldl (fun s y => s.cellsGone q y) s).path.queues = s.path.queues ∧
      (l.foldl (fun s y => s.cellsGone q y) s).path.pipes = s.path.pipes := by
  induction l generalizing s with
  | nil => exact ⟨rfl, rfl, rfl⟩
  | cons y l ih =>
    have hgives := s.cellsGone_gives q y
    obtain ⟨hdeep, hqueues, hpipes⟩ := ih (s.cellsGone q y)
    exact ⟨hdeep.trans hgives.deep, hqueues.trans hgives.queues, hpipes.trans hgives.pipes⟩

/-- A packet with no cell in the page keeps its cells. -/
theorem State.cellsHeld_foldl_of_notMem {id : Nat} (hid : id ∉ l.map fun y => y.1) :
    (l.foldl (fun s y => s.cellsGone q y) s).cellsHeld id = s.cellsHeld id := by
  induction l generalizing s with
  | nil => rfl
  | cons y l ih =>
    obtain ⟨hne, hnot⟩ := not_or.1 (fun h => hid (List.mem_cons.2 h))
    exact (ih _ hnot).trans ((s.cellsGone_gives q y).others id hne)

/-- A packet with cells in the page gives up that many. -/
theorem State.cellsHeld_foldl_of_mem (hnodup : (l.map fun y => y.1).Nodup) {y : Nat × Nat} (hy : y ∈ l) :
    (l.foldl (fun s y => s.cellsGone q y) s).cellsHeld y.1 = (s.cellsHeld y.1).map fun c => c.drop y.2 := by
  induction l generalizing s with
  | nil => cases hy
  | cons x l ih =>
    obtain ⟨hnot, hrest⟩ := List.nodup_cons.1 hnodup
    have hgives := s.cellsGone_gives q x
    rcases List.mem_cons.1 hy with rfl | hmem
    · exact (State.cellsHeld_foldl_of_notMem q l _ hnot).trans hgives.given
    · have hne : y.1 ≠ x.1 := fun e => hnot (List.mem_map.2 ⟨y, hmem, e⟩)
      rw [List.foldl_cons, ih _ hrest hmem, hgives.others _ hne]

end Parts

/-! ### The command -/

/-- A deep queue after its entry is replaced. -/
theorem State.deepQ_setDeep (s : State) (q : Nat) (d : DeepQ) : (s.setDeep q d).deepQ q = d := mget_mset_self ..

namespace State.DeepStands

variable {s t : State}

theorem hbmWrite (h : s.DeepStands t) (st off : Nat) (l : Bytes) : s.DeepStands (t.hbmWrite st off l) := h.same

theorem storePage (h : s.DeepStands t) (q : Nat) (g : Page) : s.DeepStands (t.storePage q g) := by
  unfold State.storePage
  exact (h.hbmWrite ..).hbmWrite ..

theorem putEntry (h : s.DeepStands t) (b e v : Nat) : s.DeepStands (t.putEntry b e v) := h.hbmWrite ..

theorem putList (h : s.DeepStands t) (g : Page) : s.DeepStands (t.putList g) := by
  unfold State.putList
  split
  · exact h
  · dsimp only
    split
    · exact (((h.putEntry ..).putEntry ..).putEntry ..).putEntry ..
    · exact (h.putEntry ..).putEntry ..

end State.DeepStands

/-- Page `g` of queue `q` and its list entry stand in HBM, and its lines are counted (R201, R202). -/
def State.pageStored (s : State) (q : Nat) (g : Page) : State :=
  ((s.storePage q g).putList g).cntGlobal 0x51 (hStack g.handle) g.lines

theorem State.pageStored_stands (s : State) (q : Nat) (g : Page) : s.DeepStands (s.pageStored q g) :=
  (((State.DeepStands.refl s).storePage q g).putList g).cntGlobal ..

/-- Page `g` stands in HBM, and its cells have left the Lagoon (R184, R201). -/
def State.pageWritten (s : State) (q : Nat) (g : Page) : State := g.parts.foldl (fun s y => s.cellsGone q y) (s.pageStored q g)

theorem State.pageWritten_hbm (s : State) (q : Nat) (g : Page) : (s.pageWritten q g).hbm = ((s.storePage q g).putList g).hbm := by
  have hkeeps : State.Keeps true true ((s.storePage q g).putList g) (s.pageWritten q g) :=
    foldl_keeps (State.cntGlobal_keeps (State.Keeps.refl _)) fun _ _ ht => State.cellsGone_keeps ht
  exact hkeeps.hbm rfl

theorem State.pageWritten_deepQ (s : State) (q k : Nat) (g : Page) : (s.pageWritten q g).deepQ k = s.deepQ k := by
  obtain ⟨hdeep, -, -⟩ := State.cellsGone_foldl_stands q g.parts (s.pageStored q g)
  rw [State.deepQ, State.pageWritten, hdeep, (s.pageStored_stands q g).deep, State.deepQ]

theorem State.pageWritten_path (s : State) (q : Nat) (g : Page) :
    (s.pageWritten q g).path.queues = s.path.queues ∧ (s.pageWritten q g).path.pipes = s.path.pipes := by
  obtain ⟨-, hqueues, hpipes⟩ := State.cellsGone_foldl_stands q g.parts (s.pageStored q g)
  have hstored := s.pageStored_stands q g
  exact ⟨hqueues.trans hstored.queues, hpipes.trans hstored.pipes⟩

theorem State.pageWritten_cells (s : State) (q : Nat) {g : Page} (hnodup : (g.parts.map fun y => y.1).Nodup) {y : Nat × Nat}
    (hy : y ∈ g.parts) : (s.pageWritten q g).cellsHeld y.1 = (s.cellsHeld y.1).map fun c => c.drop y.2 := by
  rw [State.pageWritten, State.cellsHeld_foldl_of_mem q g.parts _ hnodup hy, (s.pageStored_stands q g).cellsHeld_eq]

section Written

variable {s : State} {q : Fin 8192} {seq : Fin 65536}

/-- A page that is not being written, or of which cells are still on their way, is not written (R35, R201). -/
theorem deepPageWritten_none (hfind : (s.deepQ q).pages.find? (fun g => g.stage = 1 && g.seq = seq.val && s.pageHere q g) = none) :
    Runs (.deepPageWritten q seq) s fun t => t = s := by
  refine .of_exec (t := s) ?_ rfl
  change execDeepPageWritten q seq s = _
  rw [execDeepPageWritten, hfind]

/-- A page is written: it stands in HBM with its list entry, and its cells have left the Lagoon (R184, R201, R202). -/
theorem deepPageWritten_some {g : Page}
    (hfind : (s.deepQ q).pages.find? (fun g => g.stage = 1 && g.seq = seq.val && s.pageHere q g) = some g) :
    Runs (.deepPageWritten q seq) s fun t =>
      t.hbm = ((s.storePage q g).putList g).hbm ∧
      (t.deepQ q).pages = updFirst (fun p => p.stage = 1 && p.seq = seq.val) (fun p => { p with stage := 2 }) (s.deepQ q).pages ∧
      ((g.parts.map (fun y => y.1)).Nodup → g.parts.all (fun y =>
        (mfind t.path.pkts y.1).map (fun z => z.cells) = (mfind s.path.pkts y.1).map (fun z => z.cells.drop y.2)) = true) ∧
      t.path.queues = s.path.queues ∧ t.path.pipes = s.path.pipes := by
  have hexec : exec (.deepPageWritten q seq) s = .next ((s.pageWritten q g).setDeep q { (s.pageWritten q g).deepQ q with
      pages := updFirst (fun p => p.stage = 1 && p.seq = seq.val) (fun p => { p with stage := 2 }) ((s.pageWritten q g).deepQ q).pages }) := by
    change execDeepPageWritten q seq s = _
    rw [execDeepPageWritten, hfind]
    rfl
  refine .of_exec hexec ⟨s.pageWritten_hbm q g, ?_, fun hnodup => List.all_eq_true.2 fun y hy => decide_eq_true ?_, s.pageWritten_path q g⟩
  · rw [State.deepQ_setDeep, State.pageWritten_deepQ]
  · have hcells := s.pageWritten_cells q hnodup hy
    rw [State.cellsHeld, State.cellsHeld, Option.map_map] at hcells
    exact hcells

end Written

end Sys2Proof.Machine
end

section
/-! SUPPORT. DEEP_MODE_LEAVE and DRAIN_READ_ISSUE (R198, R203). -/

set_option Elab.async false

namespace Sys2Proof.Machine

/-! ### DEEP_MODE_LEAVE -/

section Leave

variable {s : State} {q : Fin 8192}

/-- Queue `q` has left deep mode, with no list block to give back (R198). -/
def State.deepLeft (s : State) (q : Nat) : State :=
  ((s.setDeep q { s.deepQ q with blocks := [], entries := 0, seq := 0 }).wrB (F.BPM_DEEP_Q_STATUS_DEEP q) false).subFrom
    (F.BPM_DEEP_DIE_STATUS_DEEP_QUEUES (q / 4096)) 1

theorem State.deepLeft_off (s : State) (q : Nat) : (s.deepLeft q).on (F.BPM_DEEP_Q_STATUS_DEEP q) = false := by
  have hread : (s.deepLeft q).rd (F.BPM_DEEP_Q_STATUS_DEEP q) = 0 :=
    (State.rd_wr_of_reg_ne _ _ (by nofun)).trans (State.rd_wrB_self _ _ _ Nat.one_pos)
  rw [State.on, hread]
  rfl

theorem State.deepLeft_deepQueues (s : State) (q : Nat) : (s.deepLeft q).rd (F.BPM_DEEP_DIE_STATUS_DEEP_QUEUES (q / 4096)) =
    s.rd (F.BPM_DEEP_DIE_STATUS_DEEP_QUEUES (q / 4096)) - 1 := by
  have hbefore : ((s.setDeep q { s.deepQ q with blocks := [], entries := 0, seq := 0 }).wrB (F.BPM_DEEP_Q_STATUS_DEEP q) false).rd
      (F.BPM_DEEP_DIE_STATUS_DEEP_QUEUES (q / 4096)) = s.rd (F.BPM_DEEP_DIE_STATUS_DEEP_QUEUES (q / 4096)) :=
    (State.rd_wr_of_reg_ne _ _ (by nofun)).trans (State.rd_wr_of_reg_ne _ _ (by nofun))
  have hlt := s.rd_lt (F.BPM_DEEP_DIE_STATUS_DEEP_QUEUES (q / 4096))
  rw [State.deepLeft, State.subFrom, State.rd_wr_self, hbefore]
  exact Nat.mod_eq_of_lt (by omega)

theorem State.deepLeft_deepQ (s : State) (q : Nat) :
    (s.deepLeft q).deepQ q = { s.deepQ q with blocks := [], entries := 0, seq := 0 } := State.deepQ_setDeep ..

theorem State.deepLeft_changes (s : State) (q : Nat) :
    changes [F.BPM_DEEP_Q_STATUS_DEEP q, F.BPM_DEEP_Q_STATUS_PAGES q, F.BPM_DEEP_DIE_STATUS_DEEP_QUEUES (q / 4096)] s
      { s.deepLeft q with bpm := s.bpm } :=
  (((changes.refl s).wr (by simp) _).wr (f := F.BPM_DEEP_Q_STATUS_DEEP q) (by simp) _).wr
    (f := F.BPM_DEEP_DIE_STATUS_DEEP_QUEUES (q / 4096)) (by simp) _

/-- A queue of which nothing is deep any more leaves deep mode (R198). -/
theorem deepModeLeave_leaves (hdeep : s.on (F.BPM_DEEP_Q_STATUS_DEEP q) = true) (hpages : (s.deepQ q).pages.all (fun g => g.stage ≥ 4) = true)
    (hwaiting : (s.deepQ q).waiting = []) (hpart : (s.deepQ q).part = none) (hblocks : (s.deepQ q).blocks = []) :
    exec (.deepModeLeave q) s = .next (s.deepLeft q) := by
  have hleave : (s.on (F.BPM_DEEP_Q_STATUS_DEEP q) && (s.deepQ q).pages.all (fun g => g.stage ≥ 4) && (s.deepQ q).waiting.isEmpty &&
      (s.deepQ q).part.isNone) = true := by
    rw [hdeep, hpages, hwaiting, hpart]
    rfl
  change execDeepModeLeave q s = _
  simp only [execDeepModeLeave, hleave, if_true, hblocks, List.foldl_nil, State.deepLeft]

/-- A queue that is not in deep mode, or of which something is still deep, does not leave it (R198). -/
theorem deepModeLeave_stays (hstay : s.on (F.BPM_DEEP_Q_STATUS_DEEP q) = false ∨ (s.deepQ q).pages.any (fun g => g.stage < 4) = true ∨
    (s.deepQ q).waiting ≠ [] ∨ (s.deepQ q).part ≠ none) : Runs (.deepModeLeave q) s fun t => t = s := by
  refine .of_exec (t := s) (congrArg Host.Outcome.next (if_neg fun hleave => ?_)) rfl
  simp only [Bool.and_eq_true, List.isEmpty_iff, Option.isNone_iff_eq_none] at hleave
  obtain ⟨⟨⟨hdeep, hpages⟩, hwaiting⟩, hpart⟩ := hleave
  rcases hstay with hoff | hany | hnot | hnot
  · exact Bool.false_ne_true (hoff.symm.trans hdeep)
  · obtain ⟨g, hg, hlow⟩ := List.any_eq_true.1 hany
    have hhigh := List.all_eq_true.1 hpages g hg
    simp only [decide_eq_true_eq] at hlow hhigh
    omega
  · exact hnot hwaiting
  · exact hnot hpart

end Leave

/-! ### DRAIN_READ_ISSUE -/

/-- The first page of queue `q` that stands in HBM is being read back (R203). -/
def State.readBegun (s : State) (q : Nat) : State :=
  s.setDeep q { s.deepQ q with
    pages := updFirst (fun p => p.stage = 2) (fun p => { p with stage := 3, since := s.now }) (s.deepQ q).pages }

/-- That page is `g`, and its lines are counted. -/
def State.readSent (s : State) (q : Nat) (g : Page) : State :=
  ((s.readBegun q).cntGlobal 0x49 (q / 4096) 1).cntGlobal 0x50 (hStack g.handle)
    (if (s.readBegun q).deepDead q then g.recLines else g.lines)

theorem State.readSent_effect (s : State) (q : Nat) (g : Page) :
    ((s.readSent q g).deepQ q).pages =
        updFirst (fun p => p.stage = 2) (fun p => { p with stage := 3, since := s.now }) (s.deepQ q).pages ∧
      (s.readSent q g).hbm = s.hbm := by
  have hkeeps : State.Keeps true true s (s.readSent q g) :=
    State.cntGlobal_keeps (State.cntGlobal_keeps (State.setDeep_keeps (State.Keeps.refl s)))
  refine ⟨?_, hkeeps.hbm rfl⟩
  rw [State.readSent, (((State.DeepStands.refl _).cntGlobal ..).cntGlobal ..).deepQ_eq, State.readBegun, State.deepQ_setDeep]

section Issue

variable {s u : State} {q : Fin 8192} (hu : u = s.deepTidy q)
include hu

/-- With DRAIN_AHEAD pages in flight or read back, no page read goes (R203). -/
theorem drainReadIssue_full
    (hfull : max 1 (u.rd (F.BPM_DEEP_Q_CFG_DRAIN_AHEAD q)) ≤ ((u.deepQ q).pages.filter (fun g => g.stage ≥ 3)).length) :
    Runs (.drainReadIssue q) s fun t => t = u := by
  subst hu
  exact .of_exec (congrArg Host.Outcome.next (if_pos hfull)) rfl

variable (hroom : ((u.deepQ q).pages.filter (fun g => g.stage ≥ 3)).length < max 1 (u.rd (F.BPM_DEEP_Q_CFG_DRAIN_AHEAD q)))
include hroom

/-- With the list empty, an open page that holds a cell is closed (R201). -/
theorem drainReadIssue_empty (hfind : (u.deepQ q).pages.find? (fun g => g.stage = 1 || g.stage = 2) = none) :
    Runs (.drainReadIssue q) s fun t => t = if (u.deepQ q).pages.any (fun g => g.stage = 0 && g.cells ≠ 0) then u.closePage q else u := by
  subst hu
  refine .of_exec ?_ rfl
  change execDrainReadIssue q s = _
  rw [execDrainReadIssue, if_neg (Nat.not_le.2 hroom), hfind]

variable {g : Page} (hfind : (u.deepQ q).pages.find? (fun g => g.stage = 1 || g.stage = 2) = some g)
include hfind

/-- The next page of the list is still being written: its read waits (R203). -/
theorem drainReadIssue_waits (hstage : g.stage = 1) : Runs (.drainReadIssue q) s fun t => t = u := by
  subst hu
  refine .of_exec ?_ rfl
  change execDrainReadIssue q s = _
  rw [execDrainReadIssue, if_neg (Nat.not_le.2 hroom), hfind]
  exact congrArg Host.Outcome.next (if_pos (by omega))

/-- The read of the next page of the list goes (R203). -/
theorem drainReadIssue_reads (hstage : g.stage = 2) : Runs (.drainReadIssue q) s fun t =>
    (t.deepQ q).pages = updFirst (fun p => p.stage = 2) (fun p => { p with stage := 3, since := u.now }) (u.deepQ q).pages ∧
      t.hbm = u.hbm := by
  subst hu
  refine .of_exec (t := (s.deepTidy q).readSent q g) ?_ (State.readSent_effect ..)
  change execDrainReadIssue q s = _
  rw [execDrainReadIssue, if_neg (Nat.not_le.2 hroom), hfind]
  exact congrArg Host.Outcome.next (if_neg (not_not.2 hstage))

end Issue

end Sys2Proof.Machine
end

section
/-! SUPPORT. No operation but DRAIN_READ_ISSUE begins a page read (R203): one relation, with one lemma for each operation on pages and on
packets that are deep. -/

set_option Elab.async false

namespace Sys2Proof.Machine

/-! ### Pages that are being read back -/

/-- How many pages of the list are being read back as page `seq`. -/
def pagesRead (seq : Nat) (l : List Page) : Nat := (l.filter (fun g => g.stage = 3 && g.seq = seq)).length

/-- A change that leaves its page in another stage. -/
theorem pagesRead_updFirst_le (seq : Nat) {p : Page → Bool} {f : Page → Page} (hf : ∀ g, p g = true → (f g).stage ≠ 3) (l : List Page) :
    pagesRead seq (updFirst p f l) ≤ pagesRead seq l := by
  induction l with
  | nil => exact Nat.le_refl _
  | cons g l ih =>
    unfold pagesRead at ih ⊢
    rw [updFirst]
    split
    · next hp =>
      rw [List.filter_cons_of_neg (by simp [hf g hp])]
      exact ((List.sublist_cons_self g l).filter _).length_le
    · rw [List.filter_cons, List.filter_cons]
      split
      · exact Nat.succ_le_succ ih
      · exact ih

/-- A page that lands is one fewer. -/
theorem pagesRead_updFirst_land (seq : Nat) (l : List Page) :
    pagesRead seq (updFirst (fun p => p.stage = 3 && p.seq = seq) (fun p => { p with stage := 4 }) l) = pagesRead seq l - 1 := by
  induction l with
  | nil => rfl
  | cons g l ih =>
    unfold pagesRead at ih ⊢
    rw [updFirst]
    split
    · next hp => simp [hp]
    · next hp => simp [hp, ih]

/-- A cell that joins a page leaves its stage. -/
theorem Page.addCell_stage (id k : Nat) (g : Page) : (Page.addCell id k g).stage = g.stage := by
  unfold Page.addCell
  split
  · split <;> rfl
  · rfl

/-- From `s` to `t` no page read has begun, and the ingress pipelines are as they were. -/
structure State.Drains (s t : State) : Prop where
  reads : ∀ q seq, pagesRead seq (t.deepQ q).pages ≤ pagesRead seq (s.deepQ q).pages
  pipes : t.path.pipes = s.path.pipes

namespace State.Drains

variable {s t u : State}

theorem refl (s : State) : s.Drains s := ⟨fun _ _ => Nat.le_refl _, rfl⟩

theorem trans (h : s.Drains t) (k : t.Drains u) : s.Drains u :=
  ⟨fun q seq => (k.reads q seq).trans (h.reads q seq), k.pipes.trans h.pipes⟩

theorem stands (h : s.Drains t) (k : t.DeepStands u) : s.Drains u :=
  h.trans ⟨fun q seq => (congrArg (fun d : DeepQ => pagesRead seq d.pages) (k.deepQ_eq q)).le, k.pipes⟩

theorem ite {c : Prop} [Decidable c] {a b : State} (ha : s.Drains a) (hb : s.Drains b) : s.Drains (if c then a else b) := by
  split
  · exact ha
  · exact hb

theorem foldl {α : Type} {g : State → α → State} (hg : ∀ t x, s.Drains t → s.Drains (g t x)) (h : s.Drains t) (l : List α) :
    s.Drains (l.foldl g t) :=
  List.foldlRecOn l g h fun u hu x _ => hg u x hu

theorem wr (h : s.Drains t) (f : Fld) (v : Nat) : s.Drains (t.wr f v) := h.stands ((DeepStands.refl t).wr f v)

theorem cntGlobal (h : s.Drains t) (ev arg v : Nat) : s.Drains (t.cntGlobal ev arg v) := h.stands ((DeepStands.refl t).cntGlobal ..)

/-- A change of the path beside the pipelines. -/
theorem updPath (h : s.Drains t) (g : Path → Path) (hpipes : (g t.path).pipes = t.path.pipes := by rfl) : s.Drains (t.updPath g) :=
  h.trans ⟨fun _ _ => Nat.le_refl _, hpipes⟩

theorem setPkt (h : s.Drains t) (k : Nat) (x : Option Pkt) : s.Drains (t.setPkt k x) := h.updPath _

/-- The entry of a deep queue is replaced by one with no further page being read back. -/
theorem putDeep (h : s.Drains t) (q : Nat) (d : DeepQ) (hd : ∀ seq, pagesRead seq d.pages ≤ pagesRead seq (t.deepQ q).pages) :
    s.Drains (t.updBpm fun b => { b with deep := mset b.deep q d {} }) := by
  refine h.trans ⟨fun k seq => ?_, rfl⟩
  by_cases hk : k = q
  · subst hk
    exact (congrArg (fun e : DeepQ => pagesRead seq e.pages) (mget_mset_self ..)).le.trans (hd seq)
  · exact (congrArg (fun e : DeepQ => pagesRead seq e.pages) (mget_mset_ne _ _ _ _ hk)).le

theorem setDeep (h : s.Drains t) (q : Nat) (d : DeepQ) (hd : ∀ seq, pagesRead seq d.pages ≤ pagesRead seq (t.deepQ q).pages) :
    s.Drains (t.setDeep q d) := (h.putDeep q d hd).wr _ _

/-- The pages of a deep queue are as they were. -/
theorem putDeep_pages (h : s.Drains t) (q : Nat) (d : DeepQ) (hd : d.pages = (t.deepQ q).pages := by rfl) :
    s.Drains (t.updBpm fun b => { b with deep := mset b.deep q d {} }) :=
  h.putDeep q d fun _ => (congrArg (pagesRead _) hd).le

/-- Pages of a deep queue leave its list. -/
theorem setDeep_filter (h : s.Drains t) (q : Nat) (d : DeepQ) (p : Page → Bool) (hd : d.pages = (t.deepQ q).pages.filter p) :
    s.Drains (t.setDeep q d) :=
  h.setDeep q d fun _ => hd ▸ (List.filter_sublist.filter _).length_le

/-- A page of a deep queue changes, and is not being read back then. -/
theorem setDeep_updFirst (h : s.Drains t) (q : Nat) (d : DeepQ) {p : Page → Bool} {f : Page → Page}
    (hd : d.pages = updFirst p f (t.deepQ q).pages) (hf : ∀ g, p g = true → (f g).stage ≠ 3) : s.Drains (t.setDeep q d) :=
  h.setDeep q d fun seq => hd ▸ pagesRead_updFirst_le seq hf _

/-! ### Gathering (R197 to R202) -/

theorem listRoom (h : s.Drains t) {q : Nat} (hu : t.listRoom q = some u) : s.Drains u := by
  unfold State.listRoom at hu
  extract_lets d ag a b at hu
  have hallocs : t.DeepStands b.2.2 := ((DeepStands.refl t).bpmAlloc ..).bpmAlloc _ _ _ _
  split at hu
  · cases hu
    exact h
  · split at hu
    · cases hu
    · split at hu
      · cases hu
        exact (h.stands hallocs).putDeep_pages q _ (congrArg DeepQ.pages (hallocs.deepQ_eq q).symm :)
      · cases hu

theorem closePage (h : s.Drains t) (q : Nat) : s.Drains (t.closePage q) := by
  unfold State.closePage
  split
  · split
    · exact h
    · next hu => exact ((h.listRoom hu).setDeep_updFirst q _ rfl fun _ _ => by simp).cntGlobal ..
  · exact h

theorem openPage (h : s.Drains t) {q : Nat} (hu : t.openPage q = some u) : s.Drains u := by
  unfold State.openPage at hu
  split at hu
  · cases hu
  · next hr =>
    cases hu
    refine (h.stands ((DeepStands.refl t).drawPage hr)).setDeep q _ fun seq => ?_
    simp [pagesRead]

theorem roomPage (h : s.Drains t) {q : Nat} {fits : Page → Bool} (hu : t.roomPage q fits = some u) : s.Drains u := by
  unfold State.roomPage at hu
  extract_lets t1 at hu
  have h1 : s.Drains t1 := by
    unfold t1
    split
    · exact ite h (h.closePage _)
    · exact h
  split at hu
  · split at hu
    · exact Option.some.inj hu ▸ h1
    · cases hu
  · exact h1.openPage hu

theorem setPart (h : s.Drains t) (q : Nat) (p : Option (Nat × Nat)) : s.Drains (t.setPart q p) := by
  unfold State.setPart
  exact h.putDeep_pages q _

theorem fillPages (h : s.Drains t) (q id m n : Nat) : s.Drains (t.fillPages q id m n) := by
  induction n generalizing t with
  | zero => exact h.setPart ..
  | succ n ih =>
    unfold State.fillPages
    split
    · exact h.setPart ..
    · next hu =>
      extract_lets d s1 s2
      have h1 : s.Drains s1 := (h.roomPage hu).setDeep_updFirst q _ rfl fun g hg => by
        rw [Page.addCell_stage, of_decide_eq_true hg]
        decide
      have h2 : s.Drains s2 := by
        unfold s2
        split
        · exact ite (h1.closePage _) h1
        · exact h1
      exact ih h2

/-! ### The Causeway (R26 to R34) -/

theorem updCway (h : s.Drains t) (g : Cway → Cway) : s.Drains (t.updCway g) := h.updPath _
theorem setBundle (h : s.Drains t) (d b : Nat) (x : Bundle) : s.Drains (t.setBundle d b x) := h.updCway _
theorem seqFlit (h : s.Drains t) (d b : Nat) (x : Body) : s.Drains (t.seqFlit d b x) := h.setBundle ..
theorem setWait (h : s.Drains t) (d vc : Nat) (l : List Body) : s.Drains (t.setWait d vc l) := h.updCway _

theorem vcServed (h : s.Drains t) (d b vc : Nat) : s.Drains (t.vcServed d b vc) := by
  unfold State.vcServed
  exact h.updCway _

theorem sendCarry (h : s.Drains t) (d b : Nat) : s.Drains (t.sendCarry d b) :=
  ite h (foldl (fun _ _ hu => hu.seqFlit ..) (h.setBundle ..) _)

theorem putFlit (h : s.Drains t) (d b : Nat) (x : Body) : s.Drains (t.putFlit d b x) := by
  unfold State.putFlit
  extract_lets s1 y s2 k s3
  have h2 : s.Drains s2 := ite ((h.seqFlit ..).setBundle ..) (h.seqFlit ..)
  have h3 : s.Drains s3 := ite h2 (h2.updCway _)
  exact h3.cntGlobal ..

theorem useGrant (h : s.Drains t) (d b : Nat) (x : Body) : s.Drains (t.useGrant d b x) := by
  unfold State.useGrant
  split
  · exact h
  · extract_lets o s1 s2
    have h2 : s.Drains s2 := (h.updPath _).wr _ _
    split
    · split
      · exact h2.setPkt ..
      · exact h2
    · exact (ite (h2.stands (((DeepStands.refl s2).wr _ _).spillUpdate _)) h2).updPath _
    · exact h2

theorem sendOne (h : s.Drains t) {d : Nat} (hu : t.sendOne d = some u) : s.Drains u := by
  unfold State.sendOne at hu
  split at hu
  · cases hu
  · split at hu
    · cases hu
    · next b vc _ _ x rest _ =>
      rw [← Option.some.inj hu]
      have h1 := (h.vcServed d b vc).setWait d vc rest
      have h2 := ite (c := vc = 1) (h1.useGrant d b x) h1
      exact ite ((ite (h2.updCway _) h2).putFlit ..) (((ite (h2.updCway _) h2).putFlit ..).updCway _)

theorem sendMany (h : s.Drains t) (d n : Nat) : s.Drains (t.sendMany d n) := by
  induction n generalizing t with
  | zero => exact h
  | succ n ih =>
    unfold State.sendMany
    split
    · next hu => exact ih (h.sendOne hu)
    · exact h

theorem cwayPump (h : s.Drains t) (d : Nat) : s.Drains (t.cwayPump d) :=
  (foldl (fun _ _ hu => ite hu (hu.sendCarry ..)) h _).sendMany ..

theorem cross (h : s.Drains t) (d : Nat) (l : List Body) : s.Drains (t.cross d l) := (foldl (fun _ _ hu => hu.setWait ..) h _).cwayPump _

/-! ### Gathering goes on (R199) -/

theorem gather (h : s.Drains t) {q id : Nat} (hu : t.gather q id = some u) : s.Drains u := by
  unfold State.gather at hu
  split at hu
  · cases hu
    exact h
  · split at hu
    · cases hu
    · next v hroom =>
      cases hu
      have h1 : ∀ owed, s.Drains (v.setDeep q { v.deepQ q with
          pages := updFirst (fun g => g.stage = 0) (fun g => { g with begins := g.begins ++ [id] }) (v.deepQ q).pages, owed := owed }) :=
        fun owed => (h.roomPage hroom).setDeep_updFirst q _ rfl fun g hg => by simp [of_decide_eq_true hg]
      exact (ite ((h1 _).cross ..) (h1 _)).fillPages ..

theorem gatherWaiting (h : s.Drains t) (q : Nat) (l : List Nat) : s.Drains (t.gatherWaiting q l) := by
  induction l generalizing t with
  | nil => exact h
  | cons id l ih =>
    unfold State.gatherWaiting
    split
    · exact h
    · split
      · next hu => exact ih ((h.gather hu).putDeep_pages q _)
      · exact h

theorem gatherRetry (h : s.Drains t) (q : Nat) : s.Drains (t.gatherRetry q) := by
  unfold State.gatherRetry
  extract_lets t1
  have h1 : s.Drains t1 := by
    unfold t1
    split
    · exact h.fillPages ..
    · exact h
  exact h1.gatherWaiting ..

theorem gatherAll (h : s.Drains t) : s.Drains t.gatherAll := foldl (fun _ _ hu => hu.gatherRetry _) h _

/-! ### Packets leave (R114, R155, R182) -/

theorem release (h : s.Drains t) (k : Nat) : s.Drains (t.release k) := by
  unfold State.release
  split
  · exact h
  · next x _ =>
    have hcells : t.DeepStands (t.returnCells x) :=
      ((((DeepStands.refl t).freeCells ..).refund ..).freeCells ..).refund .. |>.pgTests _
    exact ite ((h.stands hcells).setPkt ..) (h.setPkt ..)

theorem queueStatus (h : s.Drains t) (k : Nat) : s.Drains (t.queueStatus k) := ite h (((((h.wr _ _).wr _ _).wr _ _).wr _ _).wr _ _)

theorem drop (h : s.Drains t) (code : Nat) (i : DropInfo) : s.Drains (t.drop code i) := h.stands ((DeepStands.refl t).drop ..)

theorem enqueue (h : s.Drains t) (k id depth : Nat) : s.Drains (t.enqueue k id depth) := by
  unfold State.enqueue
  extract_lets s1 s2 s3 s4
  have hwake : s.Drains (t.wakeTags k) := h.stands (DeepStands.ite (DeepStands.refl t).same (DeepStands.refl t).same)
  have h3 : s.Drains s3 := ((ite hwake h).updPath _).queueStatus k
  have h4 : s.Drains s4 := h3.wr _ _
  exact ite (h4.stands ((DeepStands.refl s4).portWake _)) h3

theorem queueDrop (h : s.Drains t) (k code : Nat) (e : QEnt) : s.Drains (t.queueDrop k code e) := by
  unfold State.queueDrop
  split
  · exact h
  · exact ((h.wr _ _).drop ..).release _

theorem reroute (h : s.Drains t) (k code : Nat) (e : QEnt) : s.Drains (t.reroute k code e) := by
  unfold State.reroute
  split
  · exact h
  · split
    · exact h.queueDrop ..
    · split
      · exact h.queueDrop ..
      · exact (((h.wr _ _).wr _ _).setPkt ..).enqueue ..

/-! ### Deep packets land (R203 to R206) -/

theorem deepDrop (h : s.Drains t) (q code id : Nat) : s.Drains (t.deepDrop q code id) := by
  unfold State.deepDrop
  split
  · exact h
  · extract_lets k s1 s2 s3
    have h2 : s.Drains s2 := (h.wr _ _).updPath _
    have h3 : s.Drains s3 := ite (h2.wr _ _) h2
    exact ((h3.drop ..).release _).queueStatus _

theorem backTo (h : s.Drains t) (q id k n : Nat) : s.Drains (t.backTo q id k n) := by
  unfold State.backTo
  split
  · exact h
  · extract_lets s1 r s2
    have h1 : s.Drains s1 := h.stands ((((DeepStands.refl t).charge ..).wr _ _).spillUpdate _)
    have h2 : s.Drains s2 := ite ((h1.stands ((DeepStands.refl s1).takeCells ..)).setPkt ..) ((h1.setPkt ..).cross ..)
    exact h2.stands ((DeepStands.refl s2).pgTests _)

theorem cellsBack (h : s.Drains t) (q id n : Nat) : s.Drains (t.cellsBack q id n) := by
  unfold State.cellsBack
  split
  · exact h
  · exact (h.backTo ..).wr _ _

theorem moveBack (h : s.Drains t) (q id : Nat) : s.Drains (t.moveBack q id) := by
  unfold State.moveBack
  split
  · exact h
  · next x _ =>
    have hfreed : t.DeepStands ((t.freeCells x.backHalf x.back).refund (.shared none) x.backHalf x.back.length) :=
      ((DeepStands.refl t).freeCells ..).refund ..
    exact ite h (((h.stands hfreed).setPkt ..).backTo ..)

theorem deepDeliver (h : s.Drains t) (q id : Nat) : s.Drains (t.deepDeliver q id) := by
  unfold State.deepDeliver
  split
  · exact h
  · exact ite (h.enqueue ..) (ite ((h.reroute ..).moveBack ..) (h.deepDrop ..))

theorem deepDeliverAll (h : s.Drains t) (q : Nat) (l : List Page) : s.Drains (t.deepDeliverAll q l) := by
  induction l generalizing t with
  | nil => exact h
  | cons g l ih =>
    unfold State.deepDeliverAll
    split
    · exact ih h
    · split
      · exact ih (foldl (fun _ _ hu => hu.deepDeliver ..) (h.setDeep_updFirst q _ rfl fun _ _ => by simp) _)
      · exact h

theorem bpmRelease (h : s.Drains t) (agent hd : Nat) : s.Drains (t.bpmRelease agent hd).2 := h.stands ((DeepStands.refl t).bpmRelease ..)

theorem deepTidy (h : s.Drains t) (q : Nat) : s.Drains (t.deepTidy q) := by
  unfold State.deepTidy
  extract_lets d live s1 d1 left
  have h1 : s.Drains s1 := h.setDeep_filter q _ live rfl
  split
  · extract_lets s2 s3
    have hreleases : s1.DeepStands s3 := ((DeepStands.refl s1).bpmRelease ..).bpmRelease ..
    refine ite ((h1.stands hreleases).setDeep q _ fun seq => ?_) h1
    rw [hreleases.deepQ_eq]
  · exact h1

end State.Drains

end Sys2Proof.Machine
end

section
/-! SUPPORT. DRAIN_PAGE_LAND (R205, R206), and the statement of the deep pages. -/

set_option Elab.async false

namespace Sys2Proof.Machine

section Land

variable {s : State} {q : Fin 8192} {seq : Fin 65536}

/-- With no list block there is none to lose (R206). -/
theorem drainPageLand_noList (hblocks : (s.deepQ q).blocks = []) : Runs (.drainPageLand q seq 2) s fun t => t = s :=
  .of_exec (congrArg Host.Outcome.next (if_pos (List.isEmpty_iff.2 hblocks))) rfl

/-- Both copies of a list block are lost (R206). -/
theorem drainPageLand_listLost (hblocks : (s.deepQ q).blocks ≠ []) : Runs (.drainPageLand q seq 2) s fun t => t = s.listLost q :=
  .of_exec (congrArg Host.Outcome.next (if_neg fun h => hblocks (List.isEmpty_iff.1 h))) rfl

/-- A page that is not being read back does not land. -/
theorem drainPageLand_none (hfind : (s.deepQ q).pages.find? (fun g => g.stage = 3 && g.seq = seq.val) = none) :
    Runs (.drainPageLand q seq 0) s fun t => t = s := by
  refine .of_exec (t := s) ?_ rfl
  change execDrainPageLand q seq 0 s = _
  rw [execDrainPageLand, if_neg (by decide), hfind]

/-- What has become of the packets of page `g` of queue `q` before it counts as landed: dropped with an uncorrectable page, left where the
port is dead, read back otherwise (R205, R206). -/
def State.packetsLanded (s : State) (q : Nat) (err : Fin 3) (g : Page) : State :=
  if err = 1 then
    g.parts.foldl (fun s y => s.deepDrop q 0x52 y.1) (s.event contained (codeOf .bpm 0 0x81) (q / 4096) g.handle)
  else if s.deepDead q then s
  else g.parts.foldl (fun s y => s.cellsBack q y.1 y.2) s

/-- The first page of queue `q` that is read back as `seq` has landed (R205). -/
def State.pageMarked (s : State) (q seq : Nat) : State :=
  s.setDeep q { s.deepQ q with
    pages := updFirst (fun p => p.stage = 3 && p.seq = seq) (fun p => { p with stage := 4 }) (s.deepQ q).pages }

/-- The buffer of a landed page is released, what has landed at the head of the list is delivered, and gathering that waits goes on
(R199, R205). -/
def State.pageReleased (s : State) (q handle : Nat) : State :=
  let w := (s.bpmRelease (deepAgent (q / 4096)) handle).2
  ((w.deepDeliverAll q (w.deepQ q).pages).deepTidy q).gatherAll

/-- A page that is being read back lands. -/
theorem exec_drainPageLand {g : Page} (hfind : (s.deepQ q).pages.find? (fun g => g.stage = 3 && g.seq = seq.val) = some g) {err : Fin 3}
    (herr : err ≠ 2) :
    exec (.drainPageLand q seq err) s = .next (((s.packetsLanded q err g).pageMarked q seq).pageReleased q g.handle) := by
  change execDrainPageLand q seq err s = _
  rw [execDrainPageLand, if_neg herr, hfind]
  rfl

theorem State.packetsLanded_drains (s : State) (q : Nat) (err : Fin 3) (g : Page) : s.Drains (s.packetsLanded q err g) := by
  have hevent := (State.DeepStands.refl s).event contained (codeOf .bpm 0 0x81) (q / 4096) g.handle
  exact .ite (.foldl (fun _ _ hu => hu.deepDrop ..) ((State.Drains.refl s).stands hevent) _)
    (.ite (.refl s) (.foldl (fun _ _ hu => hu.cellsBack ..) (.refl s) _))

theorem State.pageReleased_drains (s : State) (q handle : Nat) : s.Drains (s.pageReleased q handle) :=
  ((((State.Drains.refl s).bpmRelease ..).deepDeliverAll ..).deepTidy _).gatherAll

/-- Of several pages read back under one number one lands. -/
theorem State.pagesRead_pageMarked (s : State) (q seq : Nat) :
    pagesRead seq ((s.pageMarked q seq).deepQ q).pages = pagesRead seq (s.deepQ q).pages - 1 := by
  rw [State.pageMarked, State.deepQ_setDeep, pagesRead_updFirst_land]

theorem any_eq_false_of_pagesRead {seq : Nat} {l : List Page} (h : pagesRead seq l = 0) :
    l.any (fun p => p.stage = 3 && p.seq = seq) = false := by
  rw [pagesRead, List.length_eq_zero_iff, List.filter_eq_nil_iff] at h
  exact List.any_eq_false.2 h

/-- The one page that is read back under a number lands, and is not read back any more; nothing is written to HBM (R205, R206). -/
theorem drainPageLand_lands {g : Page} (hfind : (s.deepQ q).pages.find? (fun g => g.stage = 3 && g.seq = seq.val) = some g) {err : Fin 3}
    (herr : err.val < 2) (hone : ((s.deepQ q).pages.filter (fun g => g.stage = 3 && g.seq = seq.val)).length = 1) :
    Runs (.drainPageLand q seq err) s fun t =>
      (t.deepQ q).pages.any (fun p => p.stage = 3 && p.seq = seq.val) = false ∧ t.hbm = s.hbm ∧ t.path.pipes = s.path.pipes := by
  have hexec := exec_drainPageLand hfind (err := err) (by rintro rfl; exact absurd herr (by decide))
  have hpackets := s.packetsLanded_drains q err g
  have hreleased := ((s.packetsLanded q err g).pageMarked q seq).pageReleased_drains q g.handle
  have hbefore : pagesRead seq ((s.packetsLanded q err g).deepQ q).pages ≤ 1 := (hpackets.reads q seq).trans hone.le
  refine .of_exec hexec ⟨any_eq_false_of_pagesRead (Nat.le_zero.1 ((hreleased.reads q seq).trans ?_)), ?_, ?_⟩
  · rw [State.pagesRead_pageMarked]
    omega
  · exact (execDrainPageLand_keeps (a := true) (b := true) q seq err s _ hexec).hbm rfl
  · exact hreleased.pipes.trans hpackets.pipes

end Land

/-- Settles O39: each command on deep pages by its own lemma, by whether the page it speaks of is there. -/
theorem deepPages : Obligations.DeepPages := by
  refine fun s q => ⟨fun _ => deepPageWritten_none, fun _ _ => deepPageWritten_some, fun hdeep hpages hwaiting hpart hblocks => ?_,
    deepModeLeave_stays, fun u hu => ⟨drainReadIssue_full hu, fun hroom => ⟨drainReadIssue_empty hu hroom, fun g hfind =>
      ⟨drainReadIssue_waits hu hroom hfind, drainReadIssue_reads hu hroom hfind⟩⟩⟩,
    fun seq => ⟨drainPageLand_noList, drainPageLand_listLost, drainPageLand_none, fun g hfind =>
      ⟨fun err herr hone => drainPageLand_lands hfind herr hone, fun u hu => .of_exec (exec_drainPageLand hfind (by decide)) ?_⟩⟩⟩
  · have hleft := s.deepLeft_deepQ q
    exact .of_exec (deepModeLeave_leaves hdeep hpages hwaiting hpart hblocks)
      ⟨s.deepLeft_off q, s.deepLeft_deepQueues q, by rw [hleft], by rw [hleft], by rw [hleft], s.deepLeft_changes q⟩
  · rintro d rfl v rfl w rfl
    subst hu
    rfl

end Sys2Proof.Machine
end

section
/-! SUPPORT. A free ring that holds an index of more than 34 bits (R207, R210). -/

set_option Elab.async false

namespace Sys2Proof.Machine

/-- A device whose free ring of pool P0 on stack 0 holds index 2^37, beyond the 34 bits of INDEX. -/
def indexBeyondField : State := { State.reset with bpm := { ring := [(0, [2 ^ 37])] } }

/-- The refill of the north die's part LOCAL for pool P0 draws that index, and the handle made of it reads as one of pool P1. -/
theorem indexBeyondField_refill : Runs (.bpmCacheRefill 0 0 0) indexBeyondField fun t => (t.cacheOf 0 0 0).map hPool = [1] :=
  ⟨_, rfl, by decide +kernel⟩

/-- Refutes O40: its clause on BPM_CACHE_REFILL promises of every handle that comes into a part that it names the part's pool, while the rings
may hold any number as an index, and in a handle one beyond 34 bits runs into POOL (R210). -/
theorem not_bufferPools : ¬ Obligations.BufferPools := by
  unfold Obligations.BufferPools
  intro h
  obtain ⟨-, -, -, -, -, -, -, -, hcache⟩ := h indexBeyondField 0 0 _ rfl
  obtain ⟨-, hrefill, -⟩ := hcache 0 0 0
  obtain ⟨t, ht, -, -, -, -, hpools⟩ := hrefill (by decide +kernel)
  obtain ⟨u, hu, hone⟩ := indexBeyondField_refill
  have hempty : indexBeyondField.cacheOf 0 0 0 = [] := by decide +kernel
  have htu : u = t := Host.Outcome.next.inj (hu.symm.trans ht)
  have hzero : ∀ x ∈ t.cacheOf 0 0 0, hPool x = 0 := by simpa [hempty] using hpools
  obtain ⟨x, hx, hpool⟩ := List.mem_map.1 (hone ▸ List.mem_singleton_self 1 : 1 ∈ (u.cacheOf 0 0 0).map hPool)
  exact absurd ((hzero x (htu ▸ hx)).symm.trans hpool) (by decide)

end Sys2Proof.Machine
end

section
/-! SUPPORT. A read of the flow engine returns while the flow cache of its die is full (R319). -/

set_option Elab.async false

namespace Sys2Proof.Machine

/-- The update that a packet of flow key 1 brings; no record of the key is live. -/
def waitingUpdate : FlowUpd := { key := 1, len := 64, time := 0, lat := 0, outPort := 0, inPort := 0 }

/-- The record of the key that the die's cache has used longest ago. -/
def oldestRecord : FlowSlot :=
  { way := 0, cached := some { packets := 1, bytes := 64, first := 0, last := 0, maxLat := 0, outPort := 0, inPort := 0 } }

/-- The flow engine's read of the bucket of key 1, four lines of stack 0. -/
def bucketRead : McReq :=
  { id := 0, line := 4 * flowBucket 1, lines := 4, write := false, data := [], off := 0, len := 256, rt := false, arrive := 0,
    client := flowClient, served := 0 }

/-- The FLOW region is the first 64 MiB of stack 0, and nothing stands in HBM. The north die's cache holds as many keys as it can, of whose
records the state lists the oldest only; `waitingUpdate` waits for its bucket, and `bucketRead` for logical channel 20. -/
def flowCacheFull : State :=
  { State.reset.wr (F.BPM_REGION_SIZE 7) 64 with
    mc := [(0, { reqs := [bucketRead], next := 1 })]
    tel := { flows := [(flowIx 0 32769, some oldestRecord)], recent := [(0, List.range' 2 flowCache)], flowQ := [(0, [waitingUpdate])] } }

/-- Serving the read opens the record of key 1, and the oldest record goes to its place in HBM, its key in the first 8 bytes (R318). -/
theorem flowCacheFull_evicts :
    Runs (.mcRequestDone 0 20 []) flowCacheFull fun t =>
      Memory.readAll t.hbm (hbmAddr 0 (flowCacheFull.flowOff 0 0 32769 0)) 8 = leBytes 8 32769 :=
  ⟨_, rfl, by decide +kernel⟩

/-- Refutes O42: its clause on MC_REQUEST_DONE promises that a read leaves HBM as it is, whoever reads. A read of the flow engine brings the
updates that wait for its bucket into the cache of flow records, and a full cache makes room by writing its oldest record to HBM
(`flowCacheFull`; R319, log entry 124). -/
theorem not_hbmController : ¬ Obligations.HbmController := by
  unfold Obligations.HbmController
  intro h
  obtain ⟨hrequests, -⟩ := h
  obtain ⟨-, -, hdone, -⟩ := hrequests flowCacheFull 0
  obtain ⟨-, hserved⟩ := hdone 20 []
  obtain ⟨t, ht, -, -, hread⟩ := hserved (by decide +kernel) bucketRead (by decide +kernel)
  obtain ⟨hhbm, -⟩ := hread rfl
  obtain ⟨u, hu, hevicted⟩ := flowCacheFull_evicts
  have hempty : Memory.readAll flowCacheFull.hbm (hbmAddr 0 (flowCacheFull.flowOff 0 0 32769 0)) 8 = leBytes 8 32769 := by
    rwa [← Host.Outcome.next.inj (ht.symm.trans hu), hhbm] at hevicted
  exact absurd hempty (by decide +kernel)

end Sys2Proof.Machine
end

section
/-! SUPPORT. A shaper's refill while the BURST that it remembers is more than LEVEL can show (R254, R256). -/

set_option Elab.async false

namespace Sys2Proof.Machine

/-- A device 128 ticks after reset, in whose present tick a write to BURST of the max shaper of queue 0 has replaced 2^58 bytes, beyond the
24 bits of BURST; its RATE is 0. -/
def burstBeyondField : State :=
  { State.reset.wr F.LIGHT_TICKS_TICKS 128 with tm := { shapeWas := [(2 * shaperQ 0 false + 1, (129, 2 ^ 58))] } }

/-- The refill of this tick still takes that BURST, and the full bucket of a shaper that is off, 100 × 2^58, wraps in the 64 bits of LEVEL
and reads as a debt. -/
theorem burstBeyondField_refill : Runs (.shaperRefill 0) burstBeyondField fun t => t.level 0 = -(7 * 2 ^ 60) :=
  ⟨_, rfl, by decide +kernel⟩

/-- Refutes O41: its clause on SHAPER_REFILL promises that a shaper that is off holds its full bucket, 100 × BURST, whatever BURST a write of the
same tick has replaced, while the state may remember any number for it and LEVEL is a signed register of 64 bits (R254). A write remembers what
its field read, and 100 × BURST fits there for every value of 24 bits; the clause does not bound BURST so. -/
theorem not_trafficManager : ¬ Obligations.TrafficManager := by
  unfold Obligations.TrafficManager
  intro h
  obtain ⟨hdequeue_refill_sample, -⟩ := h
  obtain ⟨-, hrefill, -⟩ := hdequeue_refill_sample burstBeyondField
  obtain ⟨-, hdue⟩ := hrefill 0
  obtain ⟨t, ht, -, -, -, hfull, -⟩ := hdue (by decide +kernel) 0 (by decide +kernel) (2 ^ 58) (by decide +kernel)
  obtain ⟨u, hu, hdebt⟩ := burstBeyondField_refill
  have htu : t = u := Host.Outcome.next.inj (ht.symm.trans hu)
  have hclash : (100 * (2 ^ 58 : Nat) : Int) = -(7 * 2 ^ 60) := (hfull rfl).symm.trans (htu ▸ hdebt)
  exact absurd hclash (by decide)

end Sys2Proof.Machine
end

section
/-! SUPPORT. What counters, records, events, answers, the buffer pools and the packet path leave of Atoll: its registers, its events and what it
holds beside them (R271 to R302). -/

set_option Elab.async false

namespace Sys2Proof.Machine

/-! ### The relation -/

/-- Registers that configure sessions, members and engines, and the ticks; work on chunks writes none of them. -/
def atollCfg : RegName → Bool
  | .ATL_TIMER | .ATL_ENG_STATUS | .ATL_SESS_CFG | .ATL_SESS_ROLES | .ATL_SESS_TIMEOUT | .ATL_SESS_MEMBERS | .ATL_SESS_ROOT | .ATL_MEMBER
  | .LIGHT_TICKS => true
  | _ => false

/-- Registers of Atoll that work on chunks writes. -/
def atollWork : RegName → Bool
  | .ATL_SESS_STATUS | .ATL_SESS_DONE | .ATL_SESS_EVT | .ATL_INT_STATUS => true
  | _ => false

/-- Registers that tell of Atoll's sessions and engines. No other block writes any of them. -/
def atollReg (r : RegName) : Bool := atollCfg r || atollWork r

/-- From `s` to `t` Atoll's registers and what it holds beside them are as before, and its events that have shown still show. -/
structure State.AtollStands (s t : State) : Prop where
  reads : ∀ f : Fld, atollReg f.reg = true → f.reg ≠ .ATL_INT_STATUS → t.rd f = s.rd f
  events : ∀ e, s.intBit .atl 0 e = true → t.intBit .atl 0 e = true
  atl : t.atl = s.atl

/-- A write to another register leaves Atoll's events. -/
theorem State.atlBit_wr (s : State) {f : Fld} (v e : Nat) (h : RegName.ATL_INT_STATUS ≠ f.reg) :
    (s.wr f v).intBit .atl 0 e = s.intBit .atl 0 e := by
  rw [State.intBit, State.rd_wr_of_reg_ne _ _ (show (intStatus .atl 0).reg ≠ f.reg from h), State.intBit]

theorem atollReg_ne {r r' : RegName} (hr : atollReg r = true) (hr' : atollReg r' = false) : r ≠ r' := fun e =>
  Bool.false_ne_true (hr'.symm.trans (e ▸ hr))

/-- Of the registers of INT_STATUS only Atoll's own is one of Atoll's. -/
theorem intStatus_ne_of_atollReg {r : RegName} (hr : atollReg r = true) (hint : r ≠ .ATL_INT_STATUS) (b : Blk) (i : Nat) :
    r ≠ (intStatus b i).reg := by
  by_cases hb : b = .atl
  · exact hb ▸ hint
  · refine atollReg_ne hr ?_
    cases b with
    | atl => exact absurd rfl hb
    | _ => rfl

namespace State.AtollStands

variable {s t u : State}

theorem refl (s : State) : s.AtollStands s := ⟨fun _ _ _ => rfl, fun _ h => h, rfl⟩

theorem trans (h : s.AtollStands t) (k : t.AtollStands u) : s.AtollStands u :=
  ⟨fun f hf hi => (k.reads f hf hi).trans (h.reads f hf hi), fun e he => k.events e (h.events e he), k.atl.trans h.atl⟩

/-- A register of Atoll reads as before. -/
theorem rd (h : s.AtollStands t) (f : Fld) (hf : atollReg f.reg = true := by rfl) (hint : f.reg ≠ .ATL_INT_STATUS := by nofun) :
    t.rd f = s.rd f := h.reads f hf hint

theorem sess (h : s.AtollStands t) (n : Nat) : t.sess n = s.sess n := by rw [State.sess, State.sess, h.atl]

theorem ite {c : Prop} [Decidable c] {a b : State} (ha : s.AtollStands a) (hb : s.AtollStands b) : s.AtollStands (if c then a else b) := by
  split
  · exact ha
  · exact hb

theorem foldl {α : Type} {g : State → α → State} (hg : ∀ t x, s.AtollStands t → s.AtollStands (g t x)) (h : s.AtollStands t) (l : List α) :
    s.AtollStands (l.foldl g t) :=
  List.foldlRecOn l g h fun u hu x _ => hg u x hu

/-- What differs beside the registers and Atoll: the packet path, the ports, the buffer pools, telemetry, and what leaves the device. -/
theorem same (h : s.AtollStands t) (hregs : u.regs = t.regs := by rfl) (hatl : u.atl = t.atl := by rfl) : s.AtollStands u :=
  h.trans ⟨fun f _ _ => State.rd_congr hregs f, fun e he => (congrArg (bit · e) (State.rd_congr hregs _)).trans he, hatl⟩

/-- A write of a register of another block. -/
theorem wr (h : s.AtollStands t) (f : Fld) (v : Nat) (hf : atollReg f.reg = false := by rfl) : s.AtollStands (t.wr f v) :=
  h.trans ⟨fun _ hg _ => State.rd_wr_of_reg_ne _ _ (atollReg_ne hg hf),
    fun _ he => (State.atlBit_wr _ _ _ (atollReg_ne rfl hf)).trans he, rfl⟩

theorem raise (h : s.AtollStands t) (b : Blk) (i e : Nat) : s.AtollStands (t.raise b i e) :=
  h.trans ⟨fun _ hf hi => State.rd_raise_ne _ _ _ _ fun hkey => intStatus_ne_of_atollReg hf hi b i (Fld.key_eq.1 hkey).1,
    fun _ hk => State.intBit_raise_of_intBit hk b i e, State.raise_atl ..⟩

theorem updPath (h : s.AtollStands t) (g : Path → Path) : s.AtollStands (t.updPath g) := h.same
theorem updPort (h : s.AtollStands t) (p : Nat) (g : PortX → PortX) : s.AtollStands (t.updPort p g) := h.same
theorem updBpm (h : s.AtollStands t) (g : BpmSt → BpmSt) : s.AtollStands (t.updBpm g) := h.same
theorem updTel (h : s.AtollStands t) (g : TelSt → TelSt) : s.AtollStands (t.updTel g) := h.same
theorem emit (h : s.AtollStands t) (o : Out) : s.AtollStands (t.emit o) := h.same

/-! ### Counters, records and drops (R308 to R327) -/

theorem cntAdd (h : s.AtollStands t) (n v : Nat) : s.AtollStands (t.cntAdd n v).2 := by
  have hovf : s.AtollStands (t.wrB (F.CNT_CTL_OVF n) true) := h.wr _ _
  unfold State.cntAdd
  dsimp only
  split
  · exact h.wr _ _
  · exact (ite (hovf.raise ..) hovf).wr _ _

theorem cntGlobal (h : s.AtollStands t) (ev arg v : Nat) : s.AtollStands (t.cntGlobal ev arg v) :=
  foldl (fun _ _ hu => ite (hu.cntAdd ..) hu) h _

theorem mib (h : s.AtollStands t) (p k n : Nat) : s.AtollStands (t.mib p k n) := h.wr _ _

theorem recLost (h : s.AtollStands t) (c n : Nat) : s.AtollStands (t.recLost c n) := ite (h.updTel _) ((h.updTel _).raise ..)

theorem telRecord (h : s.AtollStands t) (ty c : Nat) (rec : Bytes) : s.AtollStands (t.telRecord ty c rec) :=
  ite h (ite (h.updTel _) (h.recLost ..))

theorem drop (h : s.AtollStands t) (code : Nat) (i : DropInfo) : s.AtollStands (t.drop code i) := by
  unfold State.drop
  extract_lets s1 s2 s3 wanted
  have h1 : s.AtollStands s1 := h.wr _ _
  have h2 : s.AtollStands s2 := ite (h1.mib ..) h1
  have h3 : s.AtollStands s3 := by
    unfold s3
    split
    · exact h2.mib ..
    · exact h2
  exact ite (h3.telRecord ..) h3

/-! ### Events and answers (R429, R436 to R442, R452) -/

theorem logWrite (h : s.AtollStands t) (c code unit detail : Nat) (inj : Bool) : s.AtollStands (t.logWrite c code unit detail inj) := by
  unfold State.logWrite
  extract_lets seq e old s1 s2 s3
  have h1 : s.AtollStands s1 := ite (h.wr F.RAS_LOG_OVERRUN_COUNT _) h
  have h3 : s.AtollStands s3 := (h1.wr F.RAS_LOG_WR_SEQ _).same
  exact ite h.same (ite h3.same h3)

theorem tidemark (h : s.AtollStands t) (src logSeq : Nat) : s.AtollStands (t.tidemark src logSeq) :=
  ite h (ite h.same (ite (h.wr F.RAS_TM_IGNORED_COUNT _) h.same))

theorem event (h : s.AtollStands t) (c code unit detail : Nat) (inj : Bool := false) : s.AtollStands (t.event c code unit detail inj) := by
  unfold State.event
  extract_lets s1 s2 s3 s4
  have h2 : s.AtollStands s2 := (h.wr (F.RAS_CLASS_CNT_COUNT c) _).raise ..
  have h3 : s.AtollStands s3 := h2.logWrite ..
  have h4 : s.AtollStands s4 := ite h2 (ite (h3.tidemark ..) h3)
  exact ite h4.same h4

theorem answersBy {fs : List Fld} (h : s.AtollStands t) (k : answersBy fs t u) (hfs : ∀ f ∈ fs, atollReg f.reg = false) : s.AtollStands u := by
  have hreads : ∀ f : Fld, atollReg f.reg = true → u.rd f = t.rd f := fun f hf => k.rd_eq fun g hg => atollReg_ne hf (hfs g hg)
  exact h.trans ⟨fun f hf _ => hreads f hf, fun e he => (congrArg (bit · e) (hreads (intStatus .atl 0) rfl)).trans he,
    (congrArg State.atl k.2 :)⟩

theorem finishHold (h : s.AtollStands t) (kind ix status state detail : Nat) : s.AtollStands (t.finishHold kind ix status state detail) :=
  h.answersBy (State.finishHold_answersBy ..) fun f hf => by
    obtain ⟨k, -, rfl⟩ := List.mem_map.1 hf
    rfl

theorem spareConsumed (h : s.AtollStands t) (k : Nat) (b : Blk) (i unit detail : Nat) :
    s.AtollStands (t.spareConsumed k b i unit detail) := by
  unfold State.spareConsumed
  exact ((h.wr (F.RAS_SPARE_SUMMARY_FREE k) _).wr (F.RAS_SPARE_SUMMARY_HI_FAILED k) _).event ..

theorem noSpare (h : s.AtollStands t) (kind o : Nat) : s.AtollStands (t.noSpare kind o) := by
  unfold State.noSpare
  exact h.event ..

theorem mapRecord (h : s.AtollStands t) (k id v : Nat) : s.AtollStands (t.mapRecord k id v) := h.same

theorem requestClear (h : s.AtollStands t) (n : Nat) : s.AtollStands (t.requestClear n) := by
  have hslot : s.AtollStands (((((t.wr (F.RAS_SPARE_REQ_VALID n) 0).wr (F.RAS_SPARE_REQ_KIND n) 0).wr (F.RAS_SPARE_REQ_TRIGGER n) 0).wr
      (F.RAS_SPARE_REQ_OBJ_OBJECT n) 0).wr (F.RAS_SPARE_REQ_AGE_AGE n) 0) :=
    ((((h.wr _ _).wr _ _).wr _ _).wr _ _).wr _ _
  exact hslot.same.wr F.RAS_SPARE_STATUS_REQS _

theorem requestRemove (h : s.AtollStands t) (kind o : Nat) : s.AtollStands (t.requestRemove kind o) := by
  unfold State.requestRemove
  split
  · exact h.requestClear _
  · exact h

/-! ### Buffer pools (R207 to R214) -/

theorem ringPop (h : s.AtollStands t) {st k : Nat} {r : Nat × State} (hr : t.ringPop st k = some r) : s.AtollStands r.2 := by
  unfold State.ringPop at hr
  dsimp only at hr
  split at hr
  · cases hr
    exact h.same
  · split at hr
    · cases hr
    · cases hr
      exact h.same

theorem cacheFill (h : s.AtollStands t) (d k part n : Nat) : s.AtollStands (t.cacheFill d k part n) := by
  induction n generalizing t with
  | zero => exact h
  | succ n ih =>
    unfold State.cacheFill
    dsimp only
    split
    · exact h
    · next st hd u hfound =>
      obtain ⟨st', -, hpop⟩ := List.exists_of_findSome?_eq_some hfound
      obtain ⟨r, hr, hpair⟩ := Option.map_eq_some_iff.1 hpop
      have hu : s.AtollStands u := by
        have hr2 := h.ringPop hr
        cases hpair
        exact hr2
      exact ih ((hu.updBpm _).updBpm _)

theorem takeHandle (h : s.AtollStands t) {agent k : Nat} {avoid : Option Nat} {r : Nat × State} (hr : t.takeHandle agent k avoid = some r) :
    s.AtollStands r.2 := by
  unfold State.takeHandle at hr
  extract_lets d part fits u at hr
  have hu : s.AtollStands u := ite h (h.cacheFill ..)
  split at hr
  · cases hr
  · cases hr
    exact hu.same

theorem bpmAlloc (h : s.AtollStands t) (agent k domain : Nat) (avoid : Option Nat := none) :
    s.AtollStands (t.bpmAlloc agent k domain avoid).2.2 := by
  unfold State.bpmAlloc
  extract_lets c
  split
  · exact h
  · split
    · dsimp only
      exact (h.raise ..).cntGlobal ..
    · split
      · dsimp only
        exact (h.raise ..).cntGlobal ..
      · next hr =>
        extract_lets e s1 s2 s3 s4
        have h2 : s.AtollStands s2 := ((h.takeHandle hr).updBpm _).wr _ _
        have h3 : s.AtollStands s3 := h2.wr _ _
        exact ite (h3.raise ..) h3

theorem badRelease (h : s.AtollStands t) (agent hd kind : Nat) : s.AtollStands (t.badRelease agent hd kind) :=
  ((((h.wr F.BPM_BAD_RELEASE_HANDLE hd).wr F.BPM_BAD_RELEASE_AGENT agent).wr F.BPM_BAD_RELEASE_KIND kind).wr F.BPM_BAD_COUNT_COUNT _).raise ..

theorem setEnt (h : s.AtollStands t) (hd : Nat) (e : BufEnt) : s.AtollStands (t.setEnt hd e) := h.updBpm _

theorem freeBuf (h : s.AtollStands t) (hd : Nat) : s.AtollStands (t.freeBuf hd) := by
  unfold State.freeBuf
  extract_lets e c k g s1 s2 d part s3
  have h2 : s.AtollStands s2 := (h.setEnt ..).wr _ _
  have h3 : s.AtollStands s3 := h2.wr _ _
  exact ite (h2.wr (F.BPM_POOL_RETIRED_RETIRED _) _) (h3.updBpm _)

theorem bpmRelease (h : s.AtollStands t) (agent hd : Nat) : s.AtollStands (t.bpmRelease agent hd).2 := by
  unfold State.bpmRelease
  split
  · exact h.badRelease ..
  · dsimp only
    split
    · exact h.freeBuf _
    · exact h.setEnt ..

end State.AtollStands

end Sys2Proof.Machine
end

section
/-! SUPPORT. The Causeway, the MAC's own frames, the Lagoon, queues, deep pages and admission leave Atoll as it is, and so do the frames that Atoll
itself hands to admission (R43, R183, R271). -/

set_option Elab.async false

namespace Sys2Proof.Machine.State.AtollStands

variable {s t : State}

/-! ### The Causeway (R26 to R34) -/

theorem seqFlit (h : s.AtollStands t) (d b : Nat) (x : Body) : s.AtollStands (t.seqFlit d b x) := h.same
theorem setWait (h : s.AtollStands t) (d vc : Nat) (l : List Body) : s.AtollStands (t.setWait d vc l) := h.same

theorem sendCarry (h : s.AtollStands t) (d b : Nat) : s.AtollStands (t.sendCarry d b) :=
  ite h (foldl (fun _ _ hu => hu.seqFlit ..) h.same _)

theorem putFlit (h : s.AtollStands t) (d b : Nat) (x : Body) : s.AtollStands (t.putFlit d b x) := by
  unfold State.putFlit
  extract_lets s1 y s2 k s3
  have h1 : s.AtollStands s1 := h.seqFlit ..
  have h2 : s.AtollStands s2 := ite h1.same h1
  have h3 : s.AtollStands s3 := ite h2 h2.same
  exact h3.cntGlobal ..

theorem setPkt (h : s.AtollStands t) (k : Nat) (x : Option Pkt) : s.AtollStands (t.setPkt k x) := h.updPath _

theorem lagEvent (h : s.AtollStands t) (d e : Nat) : s.AtollStands (t.lagEvent d e) := h.raise ..

theorem spillUpdate (h : s.AtollStands t) (d : Nat) : s.AtollStands (t.spillUpdate d) :=
  have hset : ∀ v, s.AtollStands (t.wr (F.LAG_HALF_STATUS_SPILLING d) v) := fun v => h.wr _ v
  ite ((hset _).lagEvent ..) (ite (hset _) h)

theorem useGrant (h : s.AtollStands t) (d b : Nat) (x : Body) : s.AtollStands (t.useGrant d b x) := by
  unfold State.useGrant
  split
  · exact h
  · extract_lets o s1 s2
    have h2 : s.AtollStands s2 := (h.updPath _).wr _ _
    split
    · split
      · exact h2.setPkt ..
      · exact h2
    · have hfree : s.AtollStands (s2.subFrom (F.LAG_HALF_STATUS_FREE 1) 1) := h2.wr _ _
      exact (ite (hfree.spillUpdate _) h2).updPath _
    · exact h2

theorem sendOne (h : s.AtollStands t) {d : Nat} {u : State} (hu : t.sendOne d = some u) : s.AtollStands u := by
  unfold State.sendOne at hu
  split at hu
  · cases hu
  · split at hu
    · cases hu
    · next b vc _ _ x rest _ =>
      extract_lets s1 s2 debt s3 s4 at hu
      have h2 : s.AtollStands s2 := ite (useGrant (h.same (u := s1)) ..) h.same
      have h4 : s.AtollStands s4 := (ite h2.same h2).putFlit ..
      exact Option.some.inj hu ▸ ite h4 (h4.updPath _)

theorem sendMany (h : s.AtollStands t) (d n : Nat) : s.AtollStands (t.sendMany d n) := by
  induction n generalizing t with
  | zero => exact h
  | succ n ih =>
    unfold State.sendMany
    split
    · next hu => exact ih (h.sendOne hu)
    · exact h

theorem cwayPump (h : s.AtollStands t) (d : Nat) : s.AtollStands (t.cwayPump d) :=
  (foldl (fun _ _ hu => ite hu (hu.sendCarry ..)) h _).sendMany ..

theorem cross (h : s.AtollStands t) (d : Nat) (l : List Body) : s.AtollStands (t.cross d l) :=
  (foldl (fun _ _ hu => hu.setWait ..) h _).cwayPump _

/-! ### Frames of the MAC (R87, R100, R101) -/

theorem dealBlock (h : s.AtollStands t) (p : Nat) (b : Bits) : s.AtollStands (t.dealBlock p b) := by
  unfold State.dealBlock
  extract_lets x k l full s1 s2
  refine ite ?_ h.same
  split
  · exact ite h.same h.same
  · exact h.same

theorem lineSend (h : s.AtollStands t) (p : Nat) (f : Bytes) : s.AtollStands (t.lineSend p f) :=
  ite (foldl (fun _ _ hu => (hu.updPort p _).dealBlock ..) (h.emit _) _) (h.emit _)

theorem macSend (h : s.AtollStands t) (p da etype : Nat) (payload : Bytes) : s.AtollStands (t.macSend p da etype payload) :=
  ((((h.lineSend ..).mib ..).mib ..).mib ..).mib ..

theorem sendPfc (h : s.AtollStands t) (p prios time : Nat) : s.AtollStands (t.sendPfc p prios time) :=
  (foldl (fun _ _ hu => ite (hu.mib ..) hu) h _).macSend ..

theorem pfcUpdate (h : s.AtollStands t) (p : Nat) : s.AtollStands (t.pfcUpdate p) := by
  unfold State.pfcUpdate
  extract_lets want have0 s1 s2
  have h1 : s.AtollStands s1 := h.wr _ _
  have h2 : s.AtollStands s2 := ite ((h1.sendPfc ..).updPort p _) h1
  exact ite (h.wr _ _) (ite (h2.sendPfc ..) h2)

theorem askXoff (h : s.AtollStands t) (p g : Nat) (on : Bool) : s.AtollStands (t.askXoff p g on) := (h.updPort p _).pfcUpdate _

theorem pgTest (h : s.AtollStands t) (d p g : Nat) : s.AtollStands (t.pgTest d p g) :=
  have hset : ∀ v, s.AtollStands (t.wr (F.LAG_PG_USE_XOFF (3 * (8 * p + g) + 2)) v) := fun v => h.wr _ v
  ite (ite (((hset _).askXoff ..).cntGlobal ..) h) (ite ((hset _).askXoff ..) h)

theorem pgTests (h : s.AtollStands t) (d : Nat) : s.AtollStands (t.pgTests d) := foldl (fun _ _ hu => hu.pgTest ..) h _

/-! ### Accounts and cells (R172 to R183) -/

theorem charge (h : s.AtollStands t) (a : Acct) (d n : Nat) : s.AtollStands (t.charge a d n) := by
  unfold State.charge
  extract_lets seen
  have hhalf : ∀ {u : State} (k : Nat), s.AtollStands u → s.AtollStands (u.wrapAdd (F.LAG_HALF_USE_USED k) n) := fun _ hu => hu.wr _ _
  have hpg : ∀ {u : State} (k : Nat), s.AtollStands u → s.AtollStands (u.wrapAdd (F.LAG_PG_USE_USED k) n) := fun _ hu => hu.wr _ _
  split
  · exact h
  · exact (hhalf _ (hpg _ h)).same
  · exact hhalf _ (h.updPath _)
  · exact hhalf _ h
  · exact (hhalf _ (hpg _ h)).same
  · exact (hhalf _ (hpg _ h)).same

theorem takeIndex (h : s.AtollStands t) (o : Nat) : s.AtollStands (t.takeIndex o).2 := by
  unfold State.takeIndex
  extract_lets n
  split
  · exact h.same
  · split
    · exact h.same
    · exact h

theorem nextCell (h : s.AtollStands t) {d : Nat} {r : Nat × State} (hr : t.nextCell d = some r) : s.AtollStands r.2 := by
  unfold State.nextCell at hr
  split at hr
  · cases hr
  · cases hr
    exact (h.updPath _).takeIndex _

theorem takeCells (h : s.AtollStands t) (d n : Nat) : s.AtollStands (t.takeCells d n).2 := by
  induction n generalizing t with
  | zero => exact h
  | succ n ih =>
    unfold State.takeCells
    split
    · exact h
    · next hr => exact ih ((h.nextCell hr).wr _ _)

/-! ### Queues (R247 to R252) -/

theorem portWake (h : s.AtollStands t) (p : Nat) : s.AtollStands (t.portWake p) := ite h.same h

theorem atollReg_byKey {u m : Nat → Fld} (hu : ∀ k, atollReg (u k).reg = false) (hm : ∀ k, atollReg (m k).reg = false) (k : Nat) :
    atollReg (byKey u m k).reg = false := by
  unfold byKey
  split
  · exact hu _
  · exact hm _

theorem atollReg_occF (k : Nat) : atollReg (occF k).reg = false := atollReg_byKey (fun _ => rfl) (fun _ => rfl) k

theorem queueStatus (h : s.AtollStands t) (k : Nat) : s.AtollStands (t.queueStatus k) := by
  refine ite h ?_
  refine wr (wr (wr (wr (wr h _ _ ?_) _ _ ?_) _ _ ?_) _ _ ?_) _ _ ?_
  all_goals exact atollReg_byKey (fun _ => rfl) (fun _ => rfl) k

theorem wakeTags (h : s.AtollStands t) (k : Nat) : s.AtollStands (t.wakeTags k) := ite h.same h.same

theorem enqueue (h : s.AtollStands t) (k id depth : Nat) : s.AtollStands (t.enqueue k id depth) := by
  unfold State.enqueue
  extract_lets s1 s2 s3 s4
  have h3 : s.AtollStands s3 := ((ite (h.wakeTags k) h).updPath _).queueStatus k
  have h4 : s.AtollStands s4 := h3.wr _ _ (atollReg_byKey (fun _ => rfl) (fun _ => rfl) k)
  exact ite (h4.portWake _) h3

/-! ### Deep pages (R195 to R220) -/

theorem setDeep (h : s.AtollStands t) (q : Nat) (d : DeepQ) : s.AtollStands (t.setDeep q d) := (h.updBpm _).wr _ _

theorem listRoom (h : s.AtollStands t) {q : Nat} {u : State} (hu : t.listRoom q = some u) : s.AtollStands u := by
  unfold State.listRoom at hu
  dsimp only at hu
  split at hu
  · cases hu
    exact h
  · split at hu
    · cases hu
    · split at hu
      · cases hu
        exact ((h.bpmAlloc ..).bpmAlloc _ _ _ _).same
      · cases hu

theorem closePage (h : s.AtollStands t) (q : Nat) : s.AtollStands (t.closePage q) := by
  unfold State.closePage
  split
  · split
    · exact h
    · next hu => exact ((h.listRoom hu).setDeep ..).cntGlobal ..
  · exact h

theorem drawPage (h : s.AtollStands t) {die : Nat} {r : Nat × State} (hr : t.drawPage die = some r) : s.AtollStands r.2 := by
  unfold State.drawPage at hr
  split at hr
  · cases hr
    exact ite ((h.updBpm _).raise ..) (h.updBpm _)
  · dsimp only at hr
    split at hr
    · cases hr
      exact h.bpmAlloc ..
    · cases hr

theorem openPage (h : s.AtollStands t) {q : Nat} {u : State} (hu : t.openPage q = some u) : s.AtollStands u := by
  unfold State.openPage at hu
  split at hu
  · cases hu
  · next hr =>
    cases hu
    exact (h.drawPage hr).setDeep ..

theorem roomPage (h : s.AtollStands t) {q : Nat} {fits : Page → Bool} {u : State} (hu : t.roomPage q fits = some u) : s.AtollStands u := by
  unfold State.roomPage at hu
  extract_lets t1 at hu
  have h1 : s.AtollStands t1 := by
    unfold t1
    split
    · exact ite h (h.closePage _)
    · exact h
  split at hu
  · split at hu
    · exact Option.some.inj hu ▸ h1
    · cases hu
  · exact h1.openPage hu

theorem setPart (h : s.AtollStands t) (q : Nat) (p : Option (Nat × Nat)) : s.AtollStands (t.setPart q p) := by
  unfold State.setPart
  exact h.updBpm _

theorem fillPages (h : s.AtollStands t) (q id m n : Nat) : s.AtollStands (t.fillPages q id m n) := by
  induction n generalizing t with
  | zero => exact h.setPart ..
  | succ n ih =>
    unfold State.fillPages
    split
    · exact h.setPart ..
    · next hu =>
      extract_lets d s1 s2
      have h1 : s.AtollStands s1 := (h.roomPage hu).setDeep ..
      have h2 : s.AtollStands s2 := by
        unfold s2
        split
        · exact ite (h1.closePage _) h1
        · exact h1
      exact ih h2

theorem gather (h : s.AtollStands t) {q id : Nat} {u : State} (hu : t.gather q id = some u) : s.AtollStands u := by
  unfold State.gather at hu
  split at hu
  · cases hu
    exact h
  · split at hu
    · cases hu
    · next hroom =>
      cases hu
      have h1 := (h.roomPage hroom).setDeep q
      exact (ite ((h1 _).cross ..) (h1 _)).fillPages ..

theorem gatherOrWait (h : s.AtollStands t) (q id : Nat) : s.AtollStands (t.gatherOrWait q id) := by
  unfold State.gatherOrWait
  extract_lets wait
  have hwait : s.AtollStands (wait t) := h.updBpm _
  split
  · exact hwait
  · split
    · next hu => exact h.gather hu
    · exact hwait

theorem deliver (h : s.AtollStands t) (id : Nat) (queues : List Nat) : s.AtollStands (t.deliver id queues) := by
  unfold State.deliver
  split
  · exact h
  · exact foldl (fun _ _ hu => ite (hu.gatherOrWait ..) (hu.enqueue ..)) h _

theorem deepEnter (h : s.AtollStands t) (q : Nat) : s.AtollStands (t.deepEnter q) :=
  ite h ((h.wr (F.BPM_DEEP_Q_STATUS_DEEP q) _).wr (F.BPM_DEEP_DIE_STATUS_DEEP_QUEUES (q / 4096)) _)

/-! ### Admission (R177 to R197) -/

theorem store (h : s.AtollStands t) (a : Arrival) (x : Pkt) (n : Nat) (queues : List Nat) : s.AtollStands (t.store a x n queues) := by
  unfold State.store
  extract_lets id s1 s2 s3 r s4 s5 far straight later held s6 l
  have h2 : s.AtollStands s2 := ((h.updPath _).charge ..).wr _ _
  have h3 : s.AtollStands s3 := (h2.spillUpdate _).cntGlobal ..
  have h4 : s.AtollStands s4 := ite (h3.setPkt ..) ((h3.takeCells ..).setPkt ..)
  have h6 : s.AtollStands s6 := ((h4.pgTests _).deliver ..).updPath _
  exact ite h6 (h6.cross ..)

theorem admitDrop (h : s.AtollStands t) (d code : Nat) (i : DropInfo) : s.AtollStands (t.admitDrop d code i) :=
  have hcounted := (h.drop code i).cntGlobal 0x44 code 1
  have hlag : s.AtollStands (((t.drop code i).cntGlobal 0x44 code 1).satAdd (F.LAG_DROP_CNT_COUNT (6 * d + (code - 0x40))) 1) := hcounted.wr _ _
  have hdeep : s.AtollStands (((t.drop code i).cntGlobal 0x44 code 1).satAdd (F.BPM_DEEP_DROP_CNT_COUNT (3 * d + (code - 0x50))) 1) :=
    hcounted.wr _ _
  ite (ite (hlag.lagEvent ..) hlag) (ite hdeep hcounted)

theorem egrDropped (h : s.AtollStands t) (k : Nat) : s.AtollStands (t.egrDropped k) := ite (h.updPath _) h

theorem ecnMark (h : s.AtollStands t) (d k : Nat) (md : Meta) : s.AtollStands (t.ecnMark d k md).2 := by
  have hheld : s.AtollStands (t.ecnHeld k) := (h.wr (F.LAG_Q_STATUS_ECN_PINNED k) _).wr F.LAG_PINNED_CNT_ECN _
  unfold State.ecnMark
  dsimp only
  split
  · exact h
  · exact ite ((ite hheld h).cntGlobal ..) (ite hheld h)

/-- The half of a packet is chosen (R177), and the decision counts in the half (R188). -/
theorem choose (h : s.AtollStands t) (c : Prop) [Decidable c] (home d : Nat) :
    s.AtollStands ((if c then t.cntGlobal 0x43 home 1 else t).decide1 d) := (ite (h.cntGlobal ..) h).updPath _

theorem admitUnicast (h : s.AtollStands t) (a : Arrival) (p q : Nat) : s.AtollStands (t.admitUnicast a p q) := by
  unfold State.admitUnicast
  extract_lets k n home d s1 ing
  have h1 : s.AtollStands s1 := h.choose ..
  split
  · exact (ite (h1.egrDropped _) h1).admitDrop ..
  · split
    · exact h1.admitDrop ..
    · refine ite (h1.admitDrop ..) ?_
      have hmark := h1.ecnMark d k a.md
      split
      next ce s2 hpair =>
      rw [hpair] at hmark
      extract_lets s3 deep s4
      have h3 : s.AtollStands s3 := ite (hmark.deepEnter _) hmark
      have h4 : s.AtollStands s4 := h3.wr _ _ (atollReg_occF k)
      exact h4.store ..

theorem admitResult (h : s.AtollStands t) (die : Nat) (copies : List (Nat × Bytes)) : s.AtollStands (t.admitResult die copies) := by
  unfold State.admitResult
  split
  · exact h
  · extract_lets a n d s1 test good s2 s3
    have h1 : s.AtollStands s1 := ite (h.cntGlobal ..) h
    split
    · exact h1.admitDrop ..
    · have h2 : s.AtollStands s2 := foldl (fun u c hu => by
        split
        · exact hu.admitDrop ..
        · exact hu) h1 _
      refine ite h2 (ite (h2.admitDrop ..) ?_)
      exact (foldl (fun _ _ hu => hu.wr _ _ (atollReg_occF _)) h2 good).store ..

/-! ### What Atoll sends (R43, R271, R273) -/

theorem atlSend (h : s.AtollStands t) (n m type flags opseq chunk count arg : Nat) (payload : Bytes) :
    s.AtollStands (t.atlSend n m type flags opseq chunk count arg payload) := ite h (h.admitUnicast ..)

theorem sendResult (h : s.AtollStands t) (n : Nat) (x : Staged) : s.AtollStands (t.sendResult n x) := (h.admitResult ..).admitResult ..

end Sys2Proof.Machine.State.AtollStands
end

section
/-! SUPPORT. Sessions, chunks and engines of Atoll: what is read from them after each of their operations (R271 to R302). -/

set_option Elab.async false

namespace Sys2Proof.Machine

/-! ### Sessions -/

section Sess

variable (s : State) (n : Nat) (x : Sess)

@[simp] theorem State.sess_setSess : (s.setSess n x).sess n = x := mget_mset_self ..

theorem State.sess_setSess_ne {m : Nat} (h : m ≠ n) : (s.setSess n x).sess m = s.sess m := mget_mset_ne _ _ _ _ h

/-- OPEN_CHUNKS counts the chunks (R301). -/
theorem State.openChunks_setSess :
    (s.setSess n x).rd (F.ATL_SESS_STATUS_OPEN_CHUNKS n) = x.chunks.length % 2 ^ (F.ATL_SESS_STATUS_OPEN_CHUNKS n).width :=
  State.rd_wr_self ..

/-- What is no OPEN_CHUNKS reads as before. -/
theorem State.rd_setSess_of_lo_ne {f : Fld} (h : f.lo ≠ 6) : (s.setSess n x).rd f = s.rd f := State.rd_wr_of_lo_ne _ _ h

theorem State.rd_setSess_of_reg_ne {f : Fld} (h : f.reg ≠ .ATL_SESS_STATUS) : (s.setSess n x).rd f = s.rd f :=
  State.rd_wr_of_reg_ne _ _ h

@[simp] theorem State.sessState_setSess (m : Nat) : (s.setSess n x).sessState m = s.sessState m :=
  State.rd_setSess_of_lo_ne s n x (show (0 : Nat) ≠ 6 by decide)

end Sess

theorem State.AtollStands.sessState {s t : State} (h : s.AtollStands t) (n : Nat) : t.sessState n = s.sessState n := h.rd _

/-- A chunk's room goes back (R298): scratch pages, and a buffer. -/
theorem State.chunkFree_stands (s : State) (n : Nat) (c : Chunk) :
    ∃ g : AtlSt → AtlSt, (∀ a, (g a).sess = a.sess) ∧ (s.updAtl g).AtollStands (s.chunkFree n c) := by
  unfold State.chunkFree
  extract_lets r d s1
  refine ⟨fun a => { a with scratch := mset a.scratch d (min 8192 (s.scratch d + c.pages)) 8192 }, fun _ => rfl, ?_⟩
  have h1 : s1.AtollStands s1 := .refl s1
  split
  · exact (h1.bpmRelease ..).wr (F.ATL_SESS_SPILL_IN_USE n) _
  · exact h1

/-! ### Configuration -/

/-- From `s` to `t` the configuration of Atoll reads as before. -/
def State.AtollConfig (s t : State) : Prop := ∀ f : Fld, atollCfg f.reg = true → t.rd f = s.rd f

theorem State.AtollStands.config {s t : State} (h : s.AtollStands t) : s.AtollConfig t := fun f hf =>
  h.reads f (by rw [atollReg, hf, Bool.true_or]) fun e => Bool.false_ne_true (show atollCfg .ATL_INT_STATUS = true from e ▸ hf)

namespace State.AtollConfig

variable {s t u : State}

theorem refl (s : State) : s.AtollConfig s := fun _ _ => rfl

theorem trans (h : s.AtollConfig t) (k : t.AtollConfig u) : s.AtollConfig u := fun f hf => (k f hf).trans (h f hf)

theorem wr (h : s.AtollConfig t) (f : Fld) (v : Nat) (hf : atollCfg f.reg = false := by rfl) : s.AtollConfig (t.wr f v) :=
  h.trans fun _ hg => State.rd_wr_of_reg_ne _ _ fun e => Bool.false_ne_true (hf.symm.trans (e ▸ hg))

theorem setSess (h : s.AtollConfig t) (n : Nat) (x : Sess) : s.AtollConfig (t.setSess n x) :=
  h.trans fun _ hg => State.rd_setSess_of_reg_ne _ _ _ fun e =>
    Bool.false_ne_true (show atollCfg .ATL_SESS_STATUS = true from e ▸ hg)

theorem updChunk (h : s.AtollConfig t) (n o k : Nat) (f : Chunk → Chunk) : s.AtollConfig (t.updChunk n o k f) := h.setSess n _

theorem foldl {α : Type} {g : State → α → State} (hg : ∀ t x, s.AtollConfig t → s.AtollConfig (g t x)) (h : s.AtollConfig t) (l : List α) :
    s.AtollConfig (l.foldl g t) :=
  List.foldlRecOn l g h fun u hu x _ => hg u x hu

theorem now_eq (h : s.AtollConfig t) : t.now = s.now := h _ rfl
theorem holdOffExt_eq (h : s.AtollConfig t) : t.holdOffExt = s.holdOffExt := by rw [State.holdOffExt, State.holdOffExt, h _ rfl]
theorem sessTimeout_eq (h : s.AtollConfig t) (n : Nat) : t.sessTimeout n = s.sessTimeout n := by
  rw [State.sessTimeout, State.sessTimeout, h _ rfl]
theorem parent_eq (h : s.AtollConfig t) (n : Nat) : t.parent n = s.parent n := by rw [State.parent, State.parent, h _ rfl]
theorem roleOf_eq (h : s.AtollConfig t) (n c : Nat) : t.roleOf n c = s.roleOf n c := by
  rw [State.roleOf, State.roleOf, State.rolesOf, State.rolesOf, h _ rfl]

theorem contributors_eq (h : s.AtollConfig t) (n : Nat) : t.contributors n = s.contributors n := by
  have hkind : ∀ m, t.memberKind n m = s.memberKind n m := fun m => by
    rw [State.memberKind, State.memberKind, State.memberIx, State.memberIx, h (F.ATL_SESS_MEMBERS_BASE n) rfl, h _ rfl]
  have hmembers : t.members n = s.members n := congrArg List.range (h (F.ATL_SESS_MEMBERS_COUNT n) rfl)
  rw [State.contributors, State.contributors, hmembers]
  refine List.filter_congr fun m _ => ?_
  rw [hkind, h (F.ATL_SESS_ROOT_ROOT n) rfl, State.sessKind, State.sessKind, h (F.ATL_SESS_CFG_KIND n) rfl]

/-- A member is held off as before where the notices heard are those heard before (R289). -/
theorem heldOff_eq (h : s.AtollConfig t) {n : Nat} (hsess : (t.sess n).holdOff = (s.sess n).holdOff) (m : Nat) :
    t.heldOff n m = s.heldOff n m := by
  simp only [State.heldOff, hsess, h.now_eq, h.holdOffExt_eq]

end State.AtollConfig

/-! ### NACKs (R289, R290) -/

section Nack

variable (s : State) (n m o k a : Nat)

theorem State.sendNack_atl : (s.sendNack n m o k a).atl = s.atl := by
  have hsent := (State.AtollStands.refl s).atlSend n m atlNack 0 o k 0 a []
  exact (((State.AtollStands.refl _).cntGlobal _ _ _).atl).trans hsent.atl

theorem State.sendNack_sess (i : Nat) : (s.sendNack n m o k a).sess i = s.sess i := by rw [State.sess, State.sess, State.sendNack_atl]

theorem State.AtollConfig.sendNack {s t : State} (h : s.AtollConfig t) (n m o k a : Nat) : s.AtollConfig (t.sendNack n m o k a) :=
  ((h.trans ((State.AtollStands.refl t).atlSend n m atlNack 0 o k 0 a []).config).wr (F.ATL_SESS_EVT_NACKS n) _).trans
    ((State.AtollStands.refl _).cntGlobal ..).config

/-- A NACK counts in EVT_NACKS. -/
theorem State.nacks_sendNack : (s.sendNack n m o k a).rd (F.ATL_SESS_EVT_NACKS n) =
    min (s.rd (F.ATL_SESS_EVT_NACKS n) + 1) (2 ^ (F.ATL_SESS_EVT_NACKS n).width - 1) := by
  have hsent := (State.AtollStands.refl s).atlSend n m atlNack 0 o k 0 a []
  unfold State.sendNack
  rw [((State.AtollStands.refl _).cntGlobal _ _ _).rd (F.ATL_SESS_EVT_NACKS n), State.rd_satAdd_self, hsent.rd (F.ATL_SESS_EVT_NACKS n)]

end Nack

/-! ### A session fails (R302) -/

section Fail

variable (s : State) (n : Nat)

/-- What is left of the session when it has failed: its status tells the cause (R301, R302). -/
theorem State.rd_chunksFreed (l : List Chunk) (f : Fld) (hf : atollReg f.reg = true) (hint : f.reg ≠ .ATL_INT_STATUS) :
    (l.foldl (fun s c => s.chunkFree n c) s).rd f = s.rd f :=
  List.foldlRecOn (motive := fun u => State.rd u f = s.rd f) l _ rfl fun u hu c _ => by
    obtain ⟨g, -, hstands⟩ := u.chunkFree_stands n c
    exact (hstands.reads f hf hint).trans hu

/-- The session's state between its last ABORT and the answers to its commands. -/
def State.failed (s : State) (n cause : Nat) (skip : Option Nat) : State :=
  let s := (s.wr (F.ATL_SESS_STATUS_STATE n) 4).wr (F.ATL_SESS_STATUS_CAUSE n) cause
  let s := (s.members n).foldl (fun s m => if some m = skip then s else s.atlSend n m atlAbort 0 0 0 0 cause []) s
  let s := (s.sess n).chunks.foldl (fun s c => s.chunkFree n c) s
  s.setSess n { s.sess n with chunks := [], stage := [] }

theorem State.sessFail_eq (cause : Nat) (skip : Option Nat) :
    s.sessFail n cause skip = ((s.failed n cause skip).raise .atl 0 0).finishHold holdClose n stConflict 4 cause := rfl

/-- STATE and CAUSE of a failed session are those written first. -/
theorem State.rd_failed (cause : Nat) (skip : Option Nat) {f : Fld} (hf : f.reg = .ATL_SESS_STATUS) (hlo : f.lo ≠ 6) :
    (s.failed n cause skip).rd f = ((s.wr (F.ATL_SESS_STATUS_STATE n) 4).wr (F.ATL_SESS_STATUS_CAUSE n) cause).rd f := by
  have hreg : atollReg f.reg = true := hf ▸ rfl
  have hint : f.reg ≠ .ATL_INT_STATUS := hf ▸ by nofun
  unfold State.failed
  extract_lets s1 s2 s3 x
  have hsent : s1.AtollStands s2 := .foldl (fun _ _ hu => .ite hu (hu.atlSend ..)) (.refl s1) _
  rw [State.rd_setSess_of_lo_ne _ _ _ hlo, State.rd_chunksFreed _ _ _ _ hreg hint, hsent.reads f hreg hint]

/-- A session that fails tells its cause, has no chunk and no stage left, and raises its event. -/
theorem State.sessFail_fails {cause : Nat} (hcause : cause < 8) (skip : Option Nat) :
    (s.sessFail n cause skip).sessState n = 4 ∧ (s.sessFail n cause skip).rd (F.ATL_SESS_STATUS_CAUSE n) = cause ∧
      ((s.sessFail n cause skip).sess n).chunks = [] ∧ ((s.sessFail n cause skip).sess n).stage = [] ∧
      (s.sessFail n cause skip).rd (F.ATL_SESS_STATUS_OPEN_CHUNKS n) = 0 ∧ (s.sessFail n cause skip).intBit .atl 0 0 = true := by
  have hanswered : ((s.failed n cause skip).raise .atl 0 0).AtollStands (s.sessFail n cause skip) := by
    rw [State.sessFail_eq]
    exact (State.AtollStands.refl _).finishHold ..
  have hstands : (s.failed n cause skip).AtollStands (s.sessFail n cause skip) := ((State.AtollStands.refl _).raise .atl 0 0).trans hanswered
  refine ⟨?_, ?_, ?_, ?_, ?_, hanswered.events 0 (State.intBit_raise_self _ _ _ _ (by decide))⟩
  · rw [hstands.sessState, State.sessState, State.rd_failed s n cause skip rfl (show (0 : Nat) ≠ 6 by decide),
      State.rd_wr_of_lo_ne _ _ (show (0 : Nat) ≠ 3 by decide)]
    exact State.rd_wr_self ..
  · rw [hstands.rd (F.ATL_SESS_STATUS_CAUSE n), State.rd_failed s n cause skip rfl (show (3 : Nat) ≠ 6 by decide), State.rd_wr_self]
    exact Nat.mod_eq_of_lt hcause
  · rw [hstands.sess, State.failed, State.sess_setSess]
  · rw [hstands.sess, State.failed, State.sess_setSess]
  · rw [hstands.rd (F.ATL_SESS_STATUS_OPEN_CHUNKS n), State.failed, State.openChunks_setSess]
    rfl

end Fail

end Sys2Proof.Machine
end

section
/-! SUPPORT. The session, time, power, ring and reset commands of Dysum (R272, R302, R339, R342, R366, R419, R469), and their statement. -/

set_option Elab.async false

namespace Sys2Proof.Machine

/-! ### Effects -/

/-- The results of a session that closes leave its stage; its state stays CLOSING (R290, R302). -/
theorem State.sessState_closing (s : State) (h : DysHdr) (n : Nat) :
    (((s.addHold h 0x0031 holdClose n).wr (F.ATL_SESS_STATUS_STATE n) 3).stageRelease n).sessState n = 3 :=
  (State.sessState_setSess ..).trans (State.rd_wr_self ..)

/-- A domain that an allowed request has moved is in the state that it names, and the interrupt tells of the change (R342). -/
theorem State.applyReq_enters (s : State) (d : Nat) (req : Fin 8) (hreq : req.val ≤ 3) :
    (s.applyReq d req).lightState d = reqState req ∧ (s.applyReq d req).intBit .light 0 0 = true := by
  have hstate : reqState req < 4 := by
    unfold reqState
    split <;> omega
  have hentered : (s.lightEnter d (reqState req)).lightState d = reqState req := by
    unfold State.lightEnter
    extract_lets u x y
    exact (State.rd_raise_ne _ _ _ _ fun e => (show RegName.LIGHT_STATUS ≠ .LIGHT_INT_STATUS by decide) (Fld.key_eq.1 e).1).trans
      ((State.rd_wr_self ..).trans (Nat.mod_eq_of_lt hstate))
  have hint : (s.lightEnter d (reqState req)).intBit .light 0 0 = true := State.intBit_raise_self _ _ _ _ (by decide)
  unfold State.applyReq
  dsimp only
  split
  · refine ⟨(State.rd_wr_of_lo_ne _ _ (show (0 : Nat) ≠ 4 by decide)).trans hentered, ?_⟩
    rw [State.intBit, State.wrB, State.rd_wr_of_reg_ne _ _ (show RegName.LIGHT_INT_STATUS ≠ .LIGHT_STATUS by decide)]
    exact hint
  · exact ⟨hentered, hint⟩

/-- The TX ring `r` is off and starts again from descriptor 0 (R419). -/
def State.txReset (s : State) (r : Nat) : State := ((s.ringEnable true r false).wr (ringHeadF true r) 0).wr (ringTailF true r) 0

theorem State.ringEnable_off (s : State) (r : Nat) : (s.ringEnable true r false).on (F.HARB_TX_CFG_EN r) = false ∧
    changes [F.HARB_TX_CFG_EN r, F.HARB_TX_HEAD_HEAD r, F.HARB_TX_TAIL_TAIL r] s (s.ringEnable true r false) := by
  unfold State.ringEnable
  split
  case isTrue hoff => exact ⟨hoff, .refl s⟩
  case isFalse =>
    refine ⟨?_, (changes.refl s).wrB List.mem_cons_self _⟩
    have hread : (s.wrB (ringEnF true r) false).rd (F.HARB_TX_CFG_EN r) = 0 := State.rd_wr_self ..
    rw [if_pos rfl, State.on, hread]
    rfl

theorem State.txReset_resets (s : State) (r : Nat) : (s.txReset r).on (F.HARB_TX_CFG_EN r) = false ∧
    (s.txReset r).rd (F.HARB_TX_HEAD_HEAD r) = 0 ∧ (s.txReset r).rd (F.HARB_TX_TAIL_TAIL r) = 0 ∧
    changes [F.HARB_TX_CFG_EN r, F.HARB_TX_HEAD_HEAD r, F.HARB_TX_TAIL_TAIL r] s (s.txReset r) := by
  obtain ⟨hoff, hchanges⟩ := s.ringEnable_off r
  refine ⟨?_, ?_, State.rd_wr_self .., (hchanges.wr (f := F.HARB_TX_HEAD_HEAD r) (by simp) 0).wr (f := F.HARB_TX_TAIL_TAIL r) (by simp) 0⟩
  · have hread : (s.txReset r).rd (F.HARB_TX_CFG_EN r) = (s.ringEnable true r false).rd (F.HARB_TX_CFG_EN r) :=
      (State.rd_wr_of_reg_ne _ _ (show RegName.HARB_TX_CFG ≠ .HARB_TX_TAIL by decide)).trans
        (State.rd_wr_of_reg_ne _ _ (show RegName.HARB_TX_CFG ≠ .HARB_TX_HEAD by decide))
    rw [State.on, hread]
    exact hoff
  · exact (State.rd_wr_of_reg_ne _ _ (show RegName.HARB_TX_HEAD ≠ .HARB_TX_TAIL by decide)).trans (State.rd_wr_self ..)

/-! ### What the answer leaves -/

/-- An answer leaves every register but the tail of its response ring. -/
theorem State.dysAnswer_reads (h : DysHdr) (code : Nat) (a : DysAns) {f : Fld} (hf : f.reg ≠ .DYS_RSP_TAIL) :
    (State.dysAnswer h code a).rd f = a.st.rd f := by
  have hanswers : answersBy (rspFields h.via) a.st (State.dysAnswer h code a) := State.dysAnswer_answers (fs := []) code (changes.refl a.st)
  exact hanswers.rd_eq fun g hg e => hf (e.trans (rspFields_reg h.via g hg))

/-! ### The commands -/

section Taken

variable {s u : State} {h : DysHdr} (htake : s.dysTake h.via = some u) (hready : u.ready = true) (hsuits : h.suits = true)
  (hform : dysBadForm h = false) (hlevel : lvOperator ≤ levelOf h.via)
include htake hready hsuits

/-- A command that passes the checks of R426 is judged by its body, and answered unless it holds its interface. -/
theorem State.dysRun_passes {r : DysRule} (hmin : r.level ≤ levelOf h.via) (hauth : r.auth = true) (hobject : r.object = true)
    (body : State → DysAns) :
    s.dysRun h r body = if (body u).held then (none, (body u).st) else (some (body u).status, State.dysAnswer h r.code (body u)) := by
  unfold State.dysRun
  simp only [htake, hready, hsuits, hauth, hobject, Nat.not_lt.2 hmin, Bool.not_true, Bool.false_and, Bool.false_eq_true, decide_false,
    Bool.or_self, if_false]

include hlevel

section Session

variable (hobject : h.object < 4096)
include hobject

/-- A session that is not IDLE does not open (R272). -/
theorem sessionOpen_conflict (o : AtlOpen) (hstate : u.sessState h.object ≠ 0) :
    Runs (.sessionOpen h o) s fun t => t = State.dysAnswer h 0x0030 { st := u, status := stConflict, state := u.sessState h.object } := by
  have hopen : u.sessOpen h.object o = (stConflict, u) := if_pos hstate
  exact Runs.of_dysAnswer htake hready hsuits rfl hlevel rfl (by simpa using hobject)
    (by simp only [hstate, hopen, decide_false, Bool.false_and, Bool.false_eq_true, if_false]) rfl rfl

include hform

/-- A session in IDLE opens as its resources allow (R272, R297, R299). -/
theorem sessionOpen_opens (o : AtlOpen) :
    Runs (.sessionOpen h o) s fun t => t = State.dysAnswer h 0x0030
      { st := (u.sessOpen h.object o).2, status := (u.sessOpen h.object o).1, state := (u.sessOpen h.object o).2.sessState h.object } :=
  Runs.of_dysAnswer htake hready hsuits rfl hlevel rfl (by simpa using hobject)
    (by simp only [hform, Bool.and_false, Bool.false_eq_true, if_false]) rfl rfl

/-- An OPEN or FAILED session closes at once (R302). -/
theorem sessionClose_closes (hstate : u.sessState h.object = 1 ∨ u.sessState h.object = 4) :
    Runs (.sessionClose h) s fun t => t = State.dysAnswer h 0x0031 { st := u.sessIdle h.object } := by
  have hnot : (u.sessState h.object = 0 ∨ u.sessState h.object = 3) = False ∧ (u.sessState h.object = 2) = False := by
    constructor <;> exact eq_false (by omega)
  exact Runs.of_dysAnswer htake hready hsuits rfl hlevel rfl (by simpa using hobject)
    (by simp only [Bool.or_eq_true, decide_eq_true_eq, hnot.1, hnot.2, hform, Bool.false_eq_true, if_false]) rfl rfl

/-- An ACTIVE session is CLOSING, and its command holds the interface (R302, R424). -/
theorem sessionClose_holds (hstate : u.sessState h.object = 2) :
    Runs (.sessionClose h) s fun t => t.sessState h.object = 3 ∧ u.dys.holds.length < t.dys.holds.length ∧ t.out = u.out := by
  refine Runs.of_dysHeld htake hready hsuits
    (a := ⟨((u.addHold h 0x0031 holdClose h.object).wr (F.ATL_SESS_STATUS_STATE h.object) 3).stageRelease h.object, stOk, 0, 0, [], true⟩)
    rfl hlevel rfl (by simpa using hobject) ?_ rfl ⟨State.sessState_closing .., ?_, rfl⟩
  · simp [hstate, hform]
  · change _ < (u.dys.holds ++ [_]).length
    rw [List.length_append]
    exact Nat.lt_succ_self _

end Session

section Light

variable (hdomain : h.object < 2)
include hdomain

/-- A step that the domain's state does not allow is refused (R339). -/
theorem lightStep_conflict (abs : Bool) (sec : BitVec 64) (ns : BitVec 32) (frac : BitVec 16) (hallowed : u.stepAllowed h.object = false) :
    Runs (.lightStep h abs sec ns frac) s fun t =>
      t = State.dysAnswer h 0x0050 { st := u, status := stConflict, state := u.lightState h.object } :=
  Runs.of_dysAnswer htake hready hsuits rfl hlevel rfl (by simpa using hdomain) (by simp only [hallowed, Bool.not_false, if_true]) rfl rfl

/-- A request that the domain's state does not allow is refused (R342). -/
theorem lightState_conflict (req : Fin 8) (hlow : 1 ≤ req.val) (hhigh : req.val ≤ 3)
    (hallowed : reqAllowed (u.lightState h.object) req = false) :
    Runs (.lightState h req) s fun t =>
      t = State.dysAnswer h 0x0051 { st := u, status := stConflict, state := u.lightState h.object } :=
  Runs.of_dysAnswer htake hready hsuits rfl hlevel rfl (by simpa using hdomain)
    (by simp only [hlow, hhigh, hallowed, decide_true, Bool.and_self, Bool.not_false, if_true]) rfl rfl

include hform

/-- A step is accepted as the domain's state allows (R339). -/
theorem lightStep_accepts (abs : Bool) (sec : BitVec 64) (ns : BitVec 32) (frac : BitVec 16) (hallowed : u.stepAllowed h.object = true) :
    Runs (.lightStep h abs sec ns frac) s fun t =>
      t = State.dysAnswer h 0x0050
        { st := u.acceptStep h.object ⟨abs, sec.toNat, ns.toNat, frac.toNat⟩, state := u.lightState h.object } :=
  Runs.of_dysAnswer htake hready hsuits rfl hlevel rfl (by simpa using hdomain)
    (by simp only [hallowed, hform, Bool.not_true, Bool.false_eq_true, if_false]) rfl rfl

/-- An allowed request moves the domain to the state that it names (R342). -/
theorem lightState_moves (req : Fin 8) (hlow : 1 ≤ req.val) (hhigh : req.val ≤ 3) (hallowed : reqAllowed (u.lightState h.object) req = true) :
    Runs (.lightState h req) s fun t => t.lightState h.object = reqState req ∧ t.intBit .light 0 0 = true := by
  obtain ⟨hstate, hint⟩ := u.applyReq_enters h.object req hhigh
  refine Runs.of_dysAnswer htake hready hsuits
    (a := { st := u.applyReq h.object req, state := (u.applyReq h.object req).lightState h.object }) rfl hlevel rfl (by simpa using hdomain) ?_
    rfl ⟨?_, ?_⟩
  · simp only [hlow, hhigh, hallowed, hform, decide_true, Bool.and_self, Bool.not_true, Bool.and_false, Bool.or_self, Bool.false_eq_true,
      if_false]
  · exact (State.dysAnswer_reads _ _ _ (show RegName.LIGHT_STATUS ≠ .DYS_RSP_TAIL by decide)).trans hstate
  · rw [State.intBit, State.dysAnswer_reads _ _ _ (show RegName.LIGHT_INT_STATUS ≠ .DYS_RSP_TAIL by decide)]
    exact hint

end Light

/-- A follower's cap is its leader's to set (R384). -/
theorem capSet_conflict (cap : BitVec 16) (hrole : u.ferryRole = 1) :
    Runs (.capSet h cap) s fun t => t = State.dysAnswer h 0x0060 { st := u, status := stConflict, state := u.pwrState } :=
  Runs.of_dysAnswer htake hready hsuits rfl hlevel rfl rfl (by simp only [hrole, if_true]) rfl rfl

include hform

/-- The cap takes its value, held to the register's bound (R366). -/
theorem capSet_sets (cap : BitVec 16) (hrole : u.ferryRole ≠ 1) :
    Runs (.capSet h cap) s fun t => t.rd F.PWR_CAP_CAP = min 1600 cap.toNat ∧ answers h [F.PWR_CAP_CAP] u t := by
  refine Runs.of_dysAnswer htake hready hsuits (a := { st := u.wr F.PWR_CAP_CAP (min 1600 cap.toNat), state := u.pwrState }) rfl hlevel rfl rfl
    (by simp only [hrole, hform, Bool.false_eq_true, if_false]) rfl ⟨?_, State.dysAnswer_answers _ ((changes.refl u).wr List.mem_cons_self _)⟩
  rw [State.dysAnswer_reads _ _ _ (show RegName.PWR_CAP ≠ .DYS_RSP_TAIL by decide), State.rd_wr_self]
  exact Nat.mod_eq_of_lt (show min 1600 cap.toNat < 2 ^ 11 by omega)

/-- A TX ring is off and starts again from descriptor 0 (R419); the check of a tenant's own rings does not bear on an operator. -/
theorem ringReset_resets (hring : h.object < 64) :
    Runs (.ringReset h true) s fun t =>
      t.on (F.HARB_TX_CFG_EN h.object) = false ∧ t.rd (F.HARB_TX_HEAD_HEAD h.object) = 0 ∧ t.rd (F.HARB_TX_TAIL_TAIL h.object) = 0 ∧
        answers h [F.HARB_TX_CFG_EN h.object, F.HARB_TX_HEAD_HEAD h.object, F.HARB_TX_TAIL_TAIL h.object] u t := by
  have hauth : levelOf h.via ≠ lvTenant := fun e => absurd (e ▸ hlevel) (by decide)
  obtain ⟨hoff, hhead, htail, hchanges⟩ := u.txReset_resets h.object
  refine Runs.of_dysAnswer htake hready hsuits (a := { st := u.txReset h.object }) rfl (Nat.zero_le _) (by simp [hauth]) (by simpa using hring)
    (by simp only [hform, Bool.false_eq_true, if_false, State.txReset]) rfl ⟨?_, ?_, ?_, State.dysAnswer_answers _ hchanges⟩
  · rw [State.on, State.dysAnswer_reads _ _ _ (show RegName.HARB_TX_CFG ≠ .DYS_RSP_TAIL by decide)]
    exact hoff
  · exact (State.dysAnswer_reads _ _ _ (show RegName.HARB_TX_HEAD ≠ .DYS_RSP_TAIL by decide)).trans hhead
  · exact (State.dysAnswer_reads _ _ _ (show RegName.HARB_TX_TAIL ≠ .DYS_RSP_TAIL by decide)).trans htail

/-- The response is written, and the device resets (R432, R469). -/
theorem resetReq_resets : Runs (.resetReq h) s fun t => t = (State.dysAnswer h 0x0081 { st := u }).deviceReset .resetReq 0 false := by
  have hauth : levelOf h.via ≠ lvMonitor := fun e => absurd (e ▸ hlevel) (by decide)
  have hmin : lvMonitor ≤ levelOf h.via := Nat.le_trans (show lvMonitor ≤ lvOperator by decide) hlevel
  refine Runs.of_exec (t := (State.dysAnswer h 0x0081 { st := u }).deviceReset .resetReq 0 false) ?_ rfl
  change execResetReq h s = _
  unfold execResetReq
  rw [State.dysRun_passes htake hready hsuits hmin (by simp [hauth]) rfl]
  simp only [hform, Bool.false_eq_true, if_false, if_true]

end Taken

/-- Settles O29: each command passes the checks of Dysum and ends as its body says. -/
theorem dysumControls : Obligations.DysumControls := by
  refine ⟨fun s h u htake hready hsuits hform hlevel hobject => ?_, fun s h u htake hready hsuits hform hlevel => ?_⟩
  · exact ⟨fun o _ => sessionOpen_opens htake hready hsuits hform hlevel hobject o,
      sessionOpen_conflict htake hready hsuits hlevel hobject, sessionClose_closes htake hready hsuits hform hlevel hobject,
      sessionClose_holds htake hready hsuits hform hlevel hobject⟩
  · refine ⟨?_, capSet_sets htake hready hsuits hform hlevel, capSet_conflict htake hready hsuits hlevel, ?_,
      resetReq_resets htake hready hsuits hform hlevel⟩
    · rintro d rfl abs sec ns frac hdomain
      exact ⟨lightStep_accepts htake hready hsuits hform hlevel hdomain abs sec ns frac,
        lightStep_conflict htake hready hsuits hlevel hdomain abs sec ns frac,
        lightState_moves htake hready hsuits hform hlevel hdomain, lightState_conflict htake hready hsuits hlevel hdomain⟩
    · rintro r rfl hring
      exact ringReset_resets htake hready hsuits hform hlevel hring

end Sys2Proof.Machine
end

section
/-! SUPPORT. Frames that an Atoll role takes from its queue (R285 to R294, R302), and their statement. -/

set_option Elab.async false

namespace Sys2Proof.Machine

/-! ### Taking a frame -/

section Take

variable {s u : State} {r type : Nat} {x : AtlIn} {h : AtlHdr} {fresh : State → AtlHdr → Bool} {f : State → AtlIn → AtlHdr → State}

theorem State.atlTake_of_empty (hhead : s.atlHead r = none) : s.atlTake r type fresh f = s := by
  unfold State.atlTake
  rw [hhead]

theorem State.atlTake_of_not_takes (htakes : s.roleTakes r = false) : s.atlTake r type fresh f = s := by
  unfold State.atlTake
  split
  · rfl
  · exact if_pos (by simp [htakes])

theorem State.atlTake_of_type_ne (hhead : s.atlHead r = some x) (htype : (atlHdr x.data).type ≠ type) : s.atlTake r type fresh f = s := by
  unfold State.atlTake
  rw [hhead]
  exact if_pos (by simp [htype])

section Head

variable (hhead : s.atlHead r = some x) (htakes : s.roleTakes r = true) (hh : h = atlHdr x.data)
  (hu : u = s.updAtl (fun a => { a with inq := a.inq.erase x })) (htype : h.type = type)
include hhead htakes hh hu htype

/-- A frame of the wanted TYPE leaves the queue, to be dropped or taken. -/
theorem State.atlTake_of_head :
    s.atlTake r type fresh f = match u.atlReject x (fresh u h) with
      | some code => u.atlDrop x code
      | none => f u x h := by
  subst hh hu
  unfold State.atlTake
  rw [hhead]
  dsimp only
  exact if_neg (by simp [htakes, htype])

theorem State.atlTake_drops {code : Nat} (hreject : u.atlReject x (fresh u h) = some code) : s.atlTake r type fresh f = u.atlDrop x code := by
  rw [State.atlTake_of_head hhead htakes hh hu htype, hreject]

theorem State.atlTake_gives (hpass : u.atlReject x (fresh u h) = none) : s.atlTake r type fresh f = f u x h := by
  rw [State.atlTake_of_head hhead htakes hh hu htype, hpass]

end Head

/-- What is dropped though it opens no operation is dropped whatever it opens (R285, R302). -/
theorem State.atlReject_of_known {code : Nat} (hreject : s.atlReject x false = some code) (new : Bool) : s.atlReject x new = some code := by
  unfold State.atlReject at hreject ⊢
  by_cases hstate : s.sessState (atlHdr x.data).session = 4 ∨ s.sessState (atlHdr x.data).session = 0
  · simpa [hstate] using hreject
  · have hlive : (s.sessState (atlHdr x.data).session = 4) = False ∧ (s.sessState (atlHdr x.data).session = 0) = False := by
      constructor <;> exact eq_false (by omega)
    simp only [hlive, Bool.and_false, decide_false, Bool.or_self, Bool.false_or, Bool.false_eq_true, if_false] at hreject ⊢
    split_ifs at hreject ⊢ <;> exact hreject

/-- A RESULT for an open chunk opens no operation. -/
theorem State.resultOpens_of_open {c : Chunk} (hopen : s.chunkOf h = some c) : s.resultOpens h = false := by
  rw [State.resultOpens, hopen, Option.isNone_some, Bool.and_false, Bool.false_and]

/-- A frame that waited in no pool buffer gives none back. -/
theorem State.atlDone_of_no_buf (hbuf : x.buf = none) : s.atlDone x = s := by
  unfold State.atlDone
  rw [hbuf]

end Take

/-! ### Chunks of a frame -/

section Chunk

variable {s : State} {h : AtlHdr} {c : Chunk}

theorem State.chunkOf_key (hopen : s.chunkOf h = some c) : c.opseq = h.opseq ∧ c.chunk = h.chunk := by
  simpa using List.find?_some hopen

/-- The chunk of a frame after a change that leaves its number. -/
theorem State.chunkOf_updChunk (hopen : s.chunkOf h = some c) {f : Chunk → Chunk}
    (hkey : ∀ y : Chunk, y.opseq = h.opseq → y.chunk = h.chunk → (f y).opseq = h.opseq ∧ (f y).chunk = h.chunk) :
    (s.updChunk h.session h.opseq h.chunk f).chunkOf h = some (f c) := by
  obtain ⟨hopseq, hchunk⟩ := State.chunkOf_key hopen
  have hsame : (fun y : Chunk => Decidable.decide (y.opseq = h.opseq) && Decidable.decide (y.chunk = h.chunk)) ∘
      (fun y => if y.opseq = h.opseq && y.chunk = h.chunk then f y else y) =
      fun y : Chunk => Decidable.decide (y.opseq = h.opseq) && Decidable.decide (y.chunk = h.chunk) := by
    funext y
    by_cases hy : y.opseq = h.opseq ∧ y.chunk = h.chunk
    · simp [hy, hkey y hy.1 hy.2]
    · simp only [Function.comp_apply, Bool.and_eq_true, decide_eq_true_eq, hy, if_false]
  rw [State.chunkOf, State.updChunk, State.sess_setSess, List.find?_map, hsame]
  rw [State.chunkOf] at hopen
  simp [hopen, hopseq, hchunk]

/-- A contribution changes the elements of its chunk alone (R275 to R279). -/
theorem State.addElems_eq (n : Nat) (wide : Bool) (p : Bytes) :
    ∃ acc code, s.addElems n c wide p = { c with acc := acc, code := code } := by
  unfold State.addElems
  dsimp only
  split_ifs <;> exact ⟨_, _, rfl⟩

/-- The chunk with the contribution in it, for a session without a PARENT (R287, R288). -/
def State.contributed (s : State) (x : AtlIn) (h : AtlHdr) (c : Chunk) : Chunk :=
  { s.addElems h.session c h.wide (x.data.drop 32) with
    from_ := h.member :: c.from_, last := h.last, lastTick := s.now, lead := if c.from_.isEmpty then 0 else s.now - c.lastTick,
    done := (s.contributors h.session).all fun m => (h.member :: c.from_).contains m }

/-- The session with the frame's job, and the chunk with its contribution. -/
def State.withContribution (s : State) (x : AtlIn) (h : AtlHdr) (c : Chunk) : State :=
  (s.setSess h.session { s.sess h.session with job := h.job }).updChunk h.session h.opseq h.chunk fun _ => s.contributed x h c

theorem State.injectEcc_of_off (harm : s.on F.DBG_CTL_ARM = false) (k inst : Nat) : s.injectEcc k inst = (none, s) := by
  unfold State.injectEcc
  exact if_neg (by simp [harm])

@[simp] theorem State.parent_setSess (n m : Nat) (y : Sess) : (s.setSess n y).parent m = s.parent m :=
  ((State.AtollConfig.refl s).setSess n y).parent_eq m

@[simp] theorem State.parent_updChunk (n o k m : Nat) (f : Chunk → Chunk) : (s.updChunk n o k f).parent m = s.parent m :=
  ((State.AtollConfig.refl s).updChunk n o k f).parent_eq m

/-- Without a perturbed error and a PARENT a contribution changes the session's job and its chunk alone. -/
theorem State.contribute_eq {x : AtlIn} (harm : s.on F.DBG_CTL_ARM = false) (hbuf : x.buf = none) (hparent : s.parent h.session = none) :
    s.contribute x h c = s.withContribution x h c := by
  unfold State.contribute
  simp only [State.injectEcc_of_off harm, State.atlDone_of_no_buf hbuf, State.parent_setSess, State.parent_updChunk, hparent,
    Option.isNone_none, Bool.and_true, reduceCtorEq, if_false, ite_self]
  rfl

section Contributed

variable {x : AtlIn} (hopen : s.chunkOf h = some c)
include hopen

theorem State.contributed_key : (s.contributed x h c).opseq = h.opseq ∧ (s.contributed x h c).chunk = h.chunk := by
  obtain ⟨acc, code, hadd⟩ := s.addElems_eq (c := c) h.session h.wide (x.data.drop 32)
  unfold State.contributed
  rw [hadd]
  exact (State.chunkOf_key hopen :)

theorem State.chunkOf_withContribution : (s.withContribution x h c).chunkOf h = some (s.contributed x h c) := by
  refine State.chunkOf_updChunk (c := c) ?_ fun _ _ _ => State.contributed_key hopen
  rw [State.chunkOf, State.sess_setSess]
  exact hopen

end Contributed

theorem State.contributed_stands (x : AtlIn) : (s.contributed x h c).from_ = h.member :: c.from_ ∧ (s.contributed x h c).last = h.last ∧
    (s.contributed x h c).opened = c.opened ∧ (s.contributed x h c).deadline = c.deadline := by
  obtain ⟨acc, code, hadd⟩ := s.addElems_eq (c := c) h.session h.wide (x.data.drop 32)
  unfold State.contributed
  rw [hadd]
  exact ⟨rfl, rfl, rfl, rfl⟩

/-- The chunk is complete when each contributor is this one or has sent before (R287). -/
theorem State.contributed_done (x : AtlIn) :
    (s.contributed x h c).done = (s.contributors h.session).all (fun m => m = h.member || c.from_.contains m) := by
  unfold State.contributed
  refine List.all_congr rfl fun m => ?_
  rw [List.contains_cons]
  rfl

/-- An integer SUM of native values adds each in the width of the accumulator (R275, R276). -/
theorem State.contributed_acc (x : AtlIn) (hsums : s.sums h.session = true) (hint : isFloat (s.sessFmt h.session) = false)
    (hwide : h.wide = false) :
    (s.contributed x h c).acc =
      List.zipWith (fun a v => wrapAcc (s.sessFmt h.session) (a + sext (8 * elemSize (s.sessFmt h.session)) v)) c.acc
        (elems (s.sessFmt h.session) c.count (x.data.drop 32)) := by
  unfold State.contributed State.addElems
  simp only [hsums, hint, hwide, Bool.false_eq_true, if_true, if_false]

theorem State.withContribution_reads (x : AtlIn) : readsOff [.ATL_SESS_STATUS] s (s.withContribution x h c) := fun _ hf =>
  (State.rd_setSess_of_reg_ne _ _ _ fun e => hf (e ▸ List.mem_singleton_self _)).trans
    (State.rd_setSess_of_reg_ne _ _ _ fun e => hf (e ▸ List.mem_singleton_self _))

end Chunk

/-! ### The commands -/

section Nothing

variable {s : State} {r : Fin 32}

/-- No frame waits, or the engine of the role takes none: no command of the role does anything. -/
theorem frames_idle (hidle : ∀ type fresh f, s.atlTake r type fresh f = s) :
    Runs (.contribReceive r) s (fun t => t = s) ∧ Runs (.resultReceive r) s (fun t => t = s) ∧ Runs (.atollNackReceive r) s (fun t => t = s) ∧
    Runs (.holdOffReceive r) s (fun t => t = s) ∧ Runs (.abortReceive r) s (fun t => t = s) :=
  ⟨.of_exec rfl (hidle ..), .of_exec rfl (hidle ..), .of_exec rfl (hidle ..), .of_exec rfl (hidle ..), .of_exec rfl (hidle ..)⟩

end Nothing

section Frame

variable {s u : State} {r : Fin 32} {x : AtlIn} {h : AtlHdr} (hhead : s.atlHead r = some x) (htakes : s.roleTakes r = true)
  (hh : h = atlHdr x.data) (hu : u = s.updAtl (fun a => { a with inq := a.inq.erase x }))
include hhead htakes hh hu

section Contrib

variable (htype : h.type = atlContrib)
include htype

theorem contribReceive_drops {code : Nat} (hreject : u.atlReject x (u.newOperation h) = some code) :
    Runs (.contribReceive r) s fun t => t = u.atlDrop x code :=
  .of_exec rfl (State.atlTake_drops hhead htakes hh hu htype hreject)

variable (hpass : u.atlReject x (u.newOperation h) = none) (hmember : (u.contributors h.session).contains h.member = true) {c : Chunk}
  (hopen : u.chunkOf h = some c)
include hpass hmember hopen

/-- A contributor's frame goes to its open chunk (R287, R288). -/
theorem contribReceive_contribOpen : Runs (.contribReceive r) s fun t => t = u.contribOpen x h c := by
  refine .of_exec rfl ((State.atlTake_gives hhead htakes hh hu htype hpass).trans ?_)
  simp only [hmember, hopen, Bool.not_true, Bool.false_eq_true, if_false]

theorem contribReceive_repeated (hsent : c.from_.contains h.member = true) : Runs (.contribReceive r) s fun t => t = u.atlDrop x 0x71 := by
  obtain ⟨t, ht, rfl⟩ := contribReceive_contribOpen hhead htakes hh hu htype hpass hmember hopen
  exact .of_exec ht (if_pos hsent)

variable (hnew : c.from_.contains h.member = false)
include hnew

theorem contribReceive_contributes (hcount : h.count = c.count) : Runs (.contribReceive r) s fun t => t = u.contribute x h c := by
  obtain ⟨t, ht, rfl⟩ := contribReceive_contribOpen hhead htakes hh hu htype hpass hmember hopen
  exact .of_exec ht ((if_neg (ne_true_of_eq_false hnew)).trans (if_neg (not_not.2 hcount)))

/-- A COUNT other than that of the chunk fails the session (R288). -/
theorem contribReceive_fails (hcount : h.count ≠ c.count) :
    Runs (.contribReceive r) s fun t => t = (u.atlDrop x 0x74).sessFail h.session 3 none := by
  obtain ⟨t, ht, rfl⟩ := contribReceive_contribOpen hhead htakes hh hu htype hpass hmember hopen
  exact .of_exec ht ((if_neg (ne_true_of_eq_false hnew)).trans (if_pos hcount))

/-- What a contribution to a session without a PARENT changes (R275, R287). -/
theorem contribReceive_adds (hcount : h.count = c.count) (harm : s.on F.DBG_CTL_ARM = false) (hbuf : x.buf = none)
    (hparent : u.parent h.session = none) : Runs (.contribReceive r) s fun t =>
      (t.chunkOf h).map (fun y => (y.from_, y.last, y.opened, y.deadline)) = some (h.member :: c.from_, h.last, c.opened, c.deadline) ∧
      (t.chunkOf h).map (fun y => y.done) = some ((u.contributors h.session).all (fun m => m = h.member || c.from_.contains m)) ∧
      (u.sums h.session = true → isFloat (u.sessFmt h.session) = false → h.wide = false → (t.chunkOf h).map (fun y => y.acc) =
        some (List.zipWith (fun a v => wrapAcc (u.sessFmt h.session) (a + sext (8 * elemSize (u.sessFmt h.session)) v)) c.acc
          (elems (u.sessFmt h.session) c.count (x.data.drop 32)))) ∧
      t.atl.inq = u.atl.inq ∧ readsOff [.ATL_SESS_STATUS] s t := by
  obtain ⟨t, ht, rfl⟩ := contribReceive_contributes hhead htakes hh hu htype hpass hmember hopen hnew hcount
  have hregs : u.regs = s.regs := hu ▸ rfl
  have harmed : u.on F.DBG_CTL_ARM = false := by rw [State.on, State.rd_congr hregs]; exact harm
  refine .of_exec ht ?_
  rw [State.contribute_eq harmed hbuf hparent, State.chunkOf_withContribution hopen]
  obtain ⟨hfrom, hlast, hopened, hdeadline⟩ := u.contributed_stands (h := h) (c := c) x
  refine ⟨?_, congrArg some (State.contributed_done x), fun hsums hint hwide => congrArg some (State.contributed_acc x hsums hint hwide), rfl, ?_⟩
  · rw [Option.map_some, hfrom, hlast, hopened, hdeadline]
  · exact (readsOff.congr (.refl s) hregs).trans (State.withContribution_reads x)

end Contrib

theorem resultReceive_drops (htype : h.type = atlResult) {code : Nat} (hreject : u.atlReject x false = some code) :
    Runs (.resultReceive r) s fun t => t = u.atlDrop x code :=
  .of_exec rfl (State.atlTake_drops hhead htakes hh hu htype (State.atlReject_of_known hreject _))

/-- The PARENT's result completes the chunk that went up (R292). -/
theorem resultReceive_completes (htype : h.type = atlResult) (hpass : u.atlReject x false = none)
    (hparent : u.parent h.session = some h.member) (hbuf : x.buf = none) {c : Chunk} (hopen : u.chunkOf h = some c)
    (hup : c.sentUp = true) (hdown : c.down = none) : Runs (.resultReceive r) s fun t =>
      (t.chunkOf h).map (fun y => (y.down, y.done, y.from_)) = some (some (x.data.drop 32), true, c.from_) := by
  have hpass' : u.atlReject x (u.resultOpens h) = none := by rw [State.resultOpens_of_open hopen]; exact hpass
  refine .of_exec rfl ?_
  rw [State.atlTake_gives hhead htakes hh hu htype hpass']
  simp only [hparent, hopen, hup, hdown, Option.isNone_none, Bool.and_self, ne_eq, not_true_eq_false, if_false, if_true,
    State.atlDone_of_no_buf hbuf]
  have hafter := State.chunkOf_updChunk hopen (f := fun c => { c with down := some (x.data.drop 32), done := true, last := h.last })
    fun y ho hk => ⟨ho, hk⟩
  rw [hafter, Option.map_some]

section Nack

variable (htype : h.type = atlNack)
include htype

theorem nackReceive_drops {code : Nat} (hreject : u.atlReject x false = some code) :
    Runs (.atollNackReceive r) s fun t => t = u.atlDrop x code :=
  .of_exec rfl (State.atlTake_drops hhead htakes hh hu htype hreject)

variable (hpass : u.atlReject x false = none) (hbuf : x.buf = none)
include hpass hbuf

/-- A member that misses a result receives the staged one again (R289). -/
theorem nackReceive_resends (harg : h.arg = 2) {z : Staged} (hstaged : u.stagedOf h false = some z) :
    Runs (.atollNackReceive r) s fun t => t = u.resendResult h.session h.member z := by
  refine .of_exec rfl ((State.atlTake_gives hhead htakes hh hu htype hpass).trans ?_)
  simp only [State.atlDone_of_no_buf hbuf, harg, hstaged, OfNat.ofNat_ne_one, if_false, if_true]

/-- A PARENT that misses a contribution receives the staged partial again (R292). -/
theorem nackReceive_resendsPartial (harg : h.arg = 1) (hparent : u.parent h.session = some h.member) {z : Staged}
    (hstaged : u.stagedOf h true = some z) : Runs (.atollNackReceive r) s fun t =>
      t = u.atlSend h.session h.member atlContrib (z.flags ||| 4) z.opseq z.chunk z.count 0 z.data := by
  refine .of_exec rfl ((State.atlTake_gives hhead htakes hh hu htype hpass).trans ?_)
  simp only [State.atlDone_of_no_buf hbuf, harg, hstaged, hparent, if_true]

/-- For a result that has left the stage a NACK with ARG 3 goes back (R290). -/
theorem nackReceive_refuses (harg : h.arg = 2) (hstaged : u.stagedOf h false = none) (hreleased : u.isReleased h = true) :
    Runs (.atollNackReceive r) s fun t =>
      t.rd (F.ATL_SESS_EVT_NACKS h.session) = min (s.rd (F.ATL_SESS_EVT_NACKS h.session) + 1) (2 ^ (F.ATL_SESS_EVT_NACKS h.session).width - 1) ∧
      t.intBit .atl 0 5 = true ∧ t.atl = u.atl := by
  have hregs : u.regs = s.regs := hu ▸ rfl
  refine .of_exec rfl ?_
  rw [State.atlTake_gives hhead htakes hh hu htype hpass]
  simp only [State.atlDone_of_no_buf hbuf, harg, hstaged, hreleased, OfNat.ofNat_ne_one, if_false, if_true]
  refine ⟨?_, State.intBit_raise_self _ _ _ _ (by decide), (State.raise_atl ..).trans (State.sendNack_atl ..)⟩
  rw [((State.AtollStands.refl _).raise .atl 0 5).rd (F.ATL_SESS_EVT_NACKS h.session), State.nacks_sendNack, State.rd_congr hregs]

end Nack

theorem holdOffReceive_drops (htype : h.type = atlHoldOff) {code : Nat} (hreject : u.atlReject x false = some code) :
    Runs (.holdOffReceive r) s fun t => t = u.atlDrop x code :=
  .of_exec rfl (State.atlTake_drops hhead htakes hh hu htype hreject)

/-- A notice counts, and its time is kept for its member (R289, R294). -/
theorem holdOffReceive_notes (htype : h.type = atlHoldOff) (hpass : u.atlReject x false = none) (hbuf : x.buf = none) :
    Runs (.holdOffReceive r) s fun t =>
      t.rd (F.ATL_SESS_EVT_HOLDOFFS h.session) = min (s.rd (F.ATL_SESS_EVT_HOLDOFFS h.session) + 1)
        (2 ^ (F.ATL_SESS_EVT_HOLDOFFS h.session).width - 1) ∧
      mget (t.sess h.session).holdOff h.member none = some s.now := by
  have hregs : u.regs = s.regs := hu ▸ rfl
  have hnow : (u.satAdd (F.ATL_SESS_EVT_HOLDOFFS h.session) 1).now = s.now :=
    (State.rd_wr_of_reg_ne _ _ (show RegName.LIGHT_TICKS ≠ .ATL_SESS_EVT by decide)).trans (State.rd_congr hregs _)
  have hreg : (F.ATL_SESS_EVT_HOLDOFFS h.session).reg ≠ .ATL_SESS_STATUS := by nofun
  refine .of_exec rfl ?_
  rw [State.atlTake_gives hhead htakes hh hu htype hpass]
  simp only [State.atlDone_of_no_buf hbuf, State.extendDeadlines, State.sess_setSess, hnow]
  refine ⟨?_, mget_mset_self ..⟩
  rw [State.rd_setSess_of_reg_ne _ _ _ hreg, State.rd_setSess_of_reg_ne _ _ _ hreg, State.rd_satAdd_self, State.rd_congr hregs]

theorem abortReceive_drops (htype : h.type = atlAbort) {code : Nat} (hreject : u.atlReject x false = some code) :
    Runs (.abortReceive r) s fun t => t = u.atlDrop x code :=
  .of_exec rfl (State.atlTake_drops hhead htakes hh hu htype hreject)

/-- An ABORT fails the session with cause 2, and goes to every other member (R302). -/
theorem abortReceive_fails (htype : h.type = atlAbort) (hpass : u.atlReject x false = none) (hbuf : x.buf = none) :
    Runs (.abortReceive r) s fun t => t = u.sessFail h.session 2 (some h.member) ∧
      t.sessState h.session = 4 ∧ t.rd (F.ATL_SESS_STATUS_CAUSE h.session) = 2 ∧ (t.sess h.session).chunks = [] ∧
      (t.sess h.session).stage = [] ∧
      t.rd (F.ATL_SESS_STATUS_OPEN_CHUNKS h.session) = 0 ∧ t.intBit .atl 0 0 = true := by
  refine .of_exec rfl ?_
  rw [State.atlTake_gives hhead htakes hh hu htype hpass, State.atlDone_of_no_buf hbuf]
  exact ⟨rfl, State.sessFail_fails u h.session (by decide) (some h.member)⟩

end Frame

/-- Settles O43: a role's queue is idle, or its head is dropped, or the frame's session takes it. -/
theorem atollFrames : Obligations.AtollFrames := by
  intro s r
  refine ⟨fun hhead => frames_idle fun _ _ _ => State.atlTake_of_empty hhead,
    fun htakes => frames_idle fun _ _ _ => State.atlTake_of_not_takes htakes,
    fun x hhead htakes h hh u hu => ?_⟩
  refine ⟨fun htype => .of_exec rfl (State.atlTake_of_type_ne hhead (hh ▸ htype)),
    fun htype => .of_exec rfl (State.atlTake_of_type_ne hhead (hh ▸ htype)),
    fun htype _ => contribReceive_drops hhead htakes hh hu htype, fun htype _ => resultReceive_drops hhead htakes hh hu htype,
    fun htype _ => nackReceive_drops hhead htakes hh hu htype, fun htype _ => holdOffReceive_drops hhead htakes hh hu htype,
    fun htype _ => abortReceive_drops hhead htakes hh hu htype, fun htype hpass hmember c hopen => ?_,
    fun htype hpass hparent hbuf c => resultReceive_completes hhead htakes hh hu htype hpass hparent hbuf,
    fun htype hpass hbuf harg z => nackReceive_resends hhead htakes hh hu htype hpass hbuf harg,
    fun htype hpass hbuf harg hparent z => nackReceive_resendsPartial hhead htakes hh hu htype hpass hbuf harg hparent,
    nackReceive_refuses hhead htakes hh hu, holdOffReceive_notes hhead htakes hh hu, abortReceive_fails hhead htakes hh hu⟩
  exact ⟨contribReceive_repeated hhead htakes hh hu htype hpass hmember hopen,
    contribReceive_contributes hhead htakes hh hu htype hpass hmember hopen,
    contribReceive_adds hhead htakes hh hu htype hpass hmember hopen,
    contribReceive_fails hhead htakes hh hu htype hpass hmember hopen⟩

end Sys2Proof.Machine
end

section
/-! SUPPORT. Results, NACKs, deadlines and notices of Atoll's sessions (R273, R287, R289, R293, R294, R302). -/

set_option Elab.async false

namespace Sys2Proof.Machine

/-! ### The result of a chunk (R287, R290) -/

section Close

variable (s : State) (n : Nat) (c : Chunk)

/-- The chunks of a session but `c`. -/
def Chunk.others (l : List Chunk) : List Chunk := l.filter fun y => !(y.opseq = c.opseq && y.chunk = c.chunk)

/-- The stage changes, and no chunk. -/
theorem State.stageResult_eq (x : Staged) : ∃ y : Sess, s.stageResult n x = s.setSess n y ∧ y.chunks = (s.sess n).chunks := by
  unfold State.stageResult
  split
  · exact ⟨_, rfl, rfl⟩
  · dsimp only
    split
    · split
      · exact ⟨_, rfl, rfl⟩
      · exact ⟨_, rfl, rfl⟩
    · exact ⟨_, rfl, rfl⟩

theorem State.chunkFree_sess (m : Nat) : (s.chunkFree n c).sess m = s.sess m := by
  obtain ⟨g, hsess, hstands⟩ := s.chunkFree_stands n c
  rw [hstands.sess, State.sess, State.sess]
  exact congrArg (mget · m {}) (hsess s.atl)

theorem State.rd_chunkFree (f : Fld) (hf : atollReg f.reg = true := by rfl) (hint : f.reg ≠ .ATL_INT_STATUS := by nofun) :
    (s.chunkFree n c).rd f = s.rd f := by
  obtain ⟨g, -, hstands⟩ := s.chunkFree_stands n c
  exact hstands.rd f hf hint

/-- The session without the chunk and its staged partial. -/
def State.chunkLeft : State :=
  let s := s.chunkFree n c
  let x := s.sess n
  s.setSess n { x with chunks := c.others x.chunks, stage := x.stage.filter (fun y => !(y.up && y.opseq = c.opseq && y.chunk = c.chunk)) }

/-- LAST_MEMBER names the last contributor, whose lead is reported (R301). -/
def State.chunkReported : State :=
  match c.from_ with
  | m :: _ => (s.wr (F.ATL_SESS_STATUS_LAST_MEMBER n) m).updAtl (fun a => { a with reports := (n, m, c.lead) :: a.reports })
  | [] => s

/-- The session when the chunk is counted, before its own state is judged. -/
def State.chunkCounted : State :=
  (((s.chunkLeft n c).wrapAdd (F.ATL_SESS_DONE_COUNT n) 1).cntGlobal 0x60 (roleDie ((s.chunkLeft n c).roleOf n c.chunk)) 1).chunkReported n c

theorem State.chunkClose_eq : s.chunkClose n c =
    if ((s.chunkCounted n c).sess n).chunks.isEmpty then
      if (s.chunkCounted n c).sessState n = 3 then (s.chunkCounted n c).sessIdle n
      else (s.chunkCounted n c).wr (F.ATL_SESS_STATUS_STATE n) 1
    else s.chunkCounted n c := rfl

theorem State.chunkReported_sess (m : Nat) : (s.chunkReported n c).sess m = s.sess m := by
  unfold State.chunkReported
  split <;> rfl

theorem State.rd_chunkReported {f : Fld} (hlo : f.lo ≠ 10) : (s.chunkReported n c).rd f = s.rd f := by
  unfold State.chunkReported
  split
  · exact State.rd_wr_of_lo_ne _ _ hlo
  · rfl

theorem State.chunkLeft_chunks : ((s.chunkLeft n c).sess n).chunks = c.others (s.sess n).chunks := by
  unfold State.chunkLeft
  rw [State.sess_setSess, State.chunkFree_sess]

theorem State.chunkCounted_chunks : ((s.chunkCounted n c).sess n).chunks = c.others (s.sess n).chunks := by
  unfold State.chunkCounted
  rw [State.chunkReported_sess, ((State.AtollStands.refl _).cntGlobal _ _ _).sess]
  exact s.chunkLeft_chunks n c

/-- A register that neither counts nor numbers reads as before. -/
theorem State.rd_chunkCounted {f : Fld} (hlo : f.lo ≠ 10) (hf : atollReg f.reg = true) (hint : f.reg ≠ .ATL_INT_STATUS) :
    (s.chunkCounted n c).rd f = ((s.chunkLeft n c).wrapAdd (F.ATL_SESS_DONE_COUNT n) 1).rd f := by
  unfold State.chunkCounted
  rw [State.rd_chunkReported _ _ _ hlo, ((State.AtollStands.refl _).cntGlobal _ _ _).rd f hf hint]

theorem State.chunkCounted_open : (s.chunkCounted n c).rd (F.ATL_SESS_STATUS_OPEN_CHUNKS n) =
    (c.others (s.sess n).chunks).length % 2 ^ (F.ATL_SESS_STATUS_OPEN_CHUNKS n).width := by
  rw [State.rd_chunkCounted _ _ _ (show (6 : Nat) ≠ 10 by decide) rfl (show RegName.ATL_SESS_STATUS ≠ .ATL_INT_STATUS by decide), State.wrapAdd,
    State.rd_wr_of_lo_ne _ _ (show (6 : Nat) ≠ 0 by decide), ← s.chunkLeft_chunks n c]
  unfold State.chunkLeft
  rw [State.openChunks_setSess, State.sess_setSess]

theorem State.chunkCounted_done : (s.chunkCounted n c).rd (F.ATL_SESS_DONE_COUNT n) =
    (s.rd (F.ATL_SESS_DONE_COUNT n) + 1) % 2 ^ (F.ATL_SESS_DONE_COUNT n).width := by
  have hreg : (F.ATL_SESS_DONE_COUNT n).reg ≠ .ATL_SESS_STATUS := by nofun
  rw [State.rd_chunkCounted _ _ _ (show (0 : Nat) ≠ 10 by decide) rfl (show RegName.ATL_SESS_DONE ≠ .ATL_INT_STATUS by decide),
    State.wrapAdd, State.rd_wr_self]
  unfold State.chunkLeft
  rw [State.rd_setSess_of_reg_ne _ _ _ hreg, State.rd_chunkFree _ _ _ (F.ATL_SESS_DONE_COUNT n)]

theorem State.chunkCounted_state : (s.chunkCounted n c).sessState n = s.sessState n := by
  rw [State.sessState, State.rd_chunkCounted _ _ _ (show (0 : Nat) ≠ 10 by decide) rfl (show RegName.ATL_SESS_STATUS ≠ .ATL_INT_STATUS by decide),
    State.wrapAdd, State.rd_wr_of_reg_ne _ _ (show RegName.ATL_SESS_STATUS ≠ .ATL_SESS_DONE by decide)]
  exact (State.sessState_setSess ..).trans (State.rd_chunkFree ..)

/-- The last chunk of an ACTIVE session leaves it OPEN (R302). -/
theorem State.chunkClose_closes (hactive : s.sessState n = 2) {l : List Chunk} (hl : l = c.others (s.sess n).chunks) :
    ((s.chunkClose n c).sess n).chunks = l ∧
      (s.chunkClose n c).rd (F.ATL_SESS_STATUS_OPEN_CHUNKS n) = l.length % 2 ^ (F.ATL_SESS_STATUS_OPEN_CHUNKS n).width ∧
      (s.chunkClose n c).rd (F.ATL_SESS_DONE_COUNT n) =
        (s.rd (F.ATL_SESS_DONE_COUNT n) + 1) % 2 ^ (F.ATL_SESS_DONE_COUNT n).width ∧
      (s.chunkClose n c).sessState n = if l = [] then 1 else 2 := by
  have hstate : (s.chunkCounted n c).sessState n = 2 := (s.chunkCounted_state n c).trans hactive
  subst hl
  rw [State.chunkClose_eq, hstate, State.chunkCounted_chunks]
  by_cases hlast : c.others (s.sess n).chunks = []
  · rw [if_pos (List.isEmpty_iff.2 hlast), if_neg (show (2 : Nat) ≠ 3 by decide), if_pos hlast]
    exact ⟨s.chunkCounted_chunks n c, (State.rd_wr_of_lo_ne _ _ (show (6 : Nat) ≠ 0 by decide)).trans (s.chunkCounted_open n c),
      (State.rd_wr_of_reg_ne _ _ (show RegName.ATL_SESS_DONE ≠ .ATL_SESS_STATUS by decide)).trans (s.chunkCounted_done n c),
      State.rd_wr_self ..⟩
  · rw [if_neg (fun h => hlast (List.isEmpty_iff.1 h)), if_neg hlast]
    exact ⟨s.chunkCounted_chunks n c, s.chunkCounted_open n c, s.chunkCounted_done n c, hstate⟩

/-- A result goes out and its chunk closes (R273, R287, R302). -/
theorem State.finishChunk_closes (hactive : s.sessState n = 2) {l : List Chunk} (hl : l = c.others (s.sess n).chunks)
    (count arg : Nat) (data : Bytes) :
    ((s.finishChunk n c count arg data).sess n).chunks = l ∧
      (s.finishChunk n c count arg data).rd (F.ATL_SESS_STATUS_OPEN_CHUNKS n) = l.length % 2 ^ (F.ATL_SESS_STATUS_OPEN_CHUNKS n).width ∧
      (s.finishChunk n c count arg data).rd (F.ATL_SESS_DONE_COUNT n) =
        (s.rd (F.ATL_SESS_DONE_COUNT n) + 1) % 2 ^ (F.ATL_SESS_DONE_COUNT n).width ∧
      (s.finishChunk n c count arg data).sessState n = if l = [] then 1 else 2 := by
  unfold State.finishChunk
  extract_lets x
  have hsent : s.AtollStands (s.sendResult n x) := (State.AtollStands.refl s).sendResult n x
  obtain ⟨y, hstaged, hchunks⟩ := (s.sendResult n x).stageResult_eq n x
  have hreg : (F.ATL_SESS_DONE_COUNT n).reg ≠ .ATL_SESS_STATUS := by nofun
  have hactive' : ((s.sendResult n x).setSess n y).sessState n = 2 := (State.sessState_setSess ..).trans ((hsent.sessState n).trans hactive)
  have hdone : ((s.sendResult n x).setSess n y).rd (F.ATL_SESS_DONE_COUNT n) = s.rd (F.ATL_SESS_DONE_COUNT n) :=
    (State.rd_setSess_of_reg_ne _ _ _ hreg).trans (hsent.rd _)
  have hl' : l = c.others (((s.sendResult n x).setSess n y).sess n).chunks := by
    rw [State.sess_setSess, hchunks, hsent.sess]
    exact hl
  have hclosed := State.chunkClose_closes _ n c hactive' hl'
  rwa [hdone, ← hstaged] at hclosed

end Close

section Result

variable {s : State} {n : Fin 4096}

theorem chunkResultSend_idle (hnone : (s.sess n).chunks.find? (fun c => c.done) = none) : Runs (.chunkResultSend n) s fun t => t = s := by
  refine .of_exec rfl ?_
  rw [hnone]

variable {c : Chunk} (hfound : (s.sess n).chunks.find? (fun c => c.done) = some c)
include hfound

/-- What the members add up to is the result (R277). -/
theorem chunkResultSend_own (hdown : c.down = none) :
    Runs (.chunkResultSend n) s fun t => t = s.finishChunk n c c.count 0 (s.chunkResult n c) := by
  refine .of_exec rfl ?_
  simp only [hfound, hdown]

/-- The bits of a PARENT's RESULT go on unchanged (R292). -/
theorem chunkResultSend_down {d : Bytes} (hdown : c.down = some d) (hd : d ≠ []) :
    Runs (.chunkResultSend n) s fun t => t = s.finishChunk n c c.count 0 d := by
  refine .of_exec rfl ?_
  simp only [hfound, hdown, List.isEmpty_eq_false_iff.2 hd, Bool.false_and, Bool.false_eq_true, if_false]

/-- The chunk leaves the session, whichever result it sends (R287). -/
theorem chunkResultSend_closes (hactive : s.sessState n = 2) {l : List Chunk}
    (hl : l = c.others (s.sess n).chunks) : Runs (.chunkResultSend n) s fun t =>
      (t.sess n).chunks = l ∧ t.rd (F.ATL_SESS_STATUS_OPEN_CHUNKS n) = l.length % 2 ^ (F.ATL_SESS_STATUS_OPEN_CHUNKS n).width ∧
      t.rd (F.ATL_SESS_DONE_COUNT n) = (s.rd (F.ATL_SESS_DONE_COUNT n) + 1) % 2 ^ (F.ATL_SESS_DONE_COUNT n).width ∧
      t.sessState n = (if l = [] then 1 else 2) := by
  refine .of_exec rfl ?_
  simp only [hfound]
  split <;> exact s.finishChunk_closes n c hactive hl _ _ _

end Result

/-! ### NACKs for an open chunk (R289) -/

/-- NACKs with ARG 1 to the members in `l` that the chunk lacks and that are not held off. -/
def State.nackMissing (s : State) (n o k : Nat) (c : Chunk) (l : List Nat) : State :=
  l.foldl (fun s m => if c.from_.contains m || s.heldOff n m then s else s.sendNack n m o k 1) s

section Missing

variable (n o k : Nat) (c : Chunk)

theorem State.nackMissing_atl (s : State) (l : List Nat) : (s.nackMissing n o k c l).atl = s.atl :=
  List.foldlRecOn (motive := fun u => State.atl u = s.atl) l _ rfl fun u hu m _ => by
    split
    · exact hu
    · exact (State.sendNack_atl ..).trans hu

/-- Each such member counts once in EVT_NACKS. -/
theorem State.nacks_nackMissing (s : State) (l : List Nat) : (s.nackMissing n o k c l).rd (F.ATL_SESS_EVT_NACKS n) =
    min (s.rd (F.ATL_SESS_EVT_NACKS n) + (l.filter (fun m => !(c.from_.contains m || s.heldOff n m))).length)
      (2 ^ (F.ATL_SESS_EVT_NACKS n).width - 1) := by
  induction l generalizing s with
  | nil => exact (min_eq_left (Nat.le_sub_one_of_lt (State.rd_lt ..))).symm
  | cons m l ih =>
    have hcons : s.nackMissing n o k c (m :: l) =
        (if c.from_.contains m || s.heldOff n m then s else s.sendNack n m o k 1).nackMissing n o k c l := rfl
    rw [hcons, List.filter_cons]
    cases hskip : c.from_.contains m || s.heldOff n m with
    | true => exact ih s
    | false =>
      have hheld : ∀ i, (s.sendNack n m o k 1).heldOff n i = s.heldOff n i := fun i =>
        ((State.AtollConfig.refl s).sendNack n m o k 1).heldOff_eq (congrArg Sess.holdOff (State.sendNack_sess ..)) i
      simp only [Bool.false_eq_true, if_false, Bool.not_false, if_true, List.length_cons]
      rw [ih]
      simp only [hheld, State.nacks_sendNack]
      omega

end Missing

section Delay

variable {s : State} {n : Fin 4096} {o k : BitVec 32}

theorem nackDelayExpire_idle (hnone : (s.sess n).chunks.find? (fun c => c.opseq = o.toNat && c.chunk = k.toNat) = none) :
    Runs (.nackDelayExpire n o k) s (fun t => t = s) ∧ Runs (.chunkDeadline n o k) s (fun t => t = s) := by
  constructor
  all_goals
    refine .of_exec rfl ?_
    simp only [hnone]

variable {c : Chunk} (hfound : (s.sess n).chunks.find? (fun c => c.opseq = o.toNat && c.chunk = k.toNat) = some c)
include hfound

theorem chunkDeadline_early (hearly : s.now < c.deadline) : Runs (.chunkDeadline n o k) s fun t => t = s := by
  refine .of_exec rfl ?_
  simp only [hfound, hearly, if_true]

/-- At its deadline a chunk fails its session with cause 1 (R293, R302). -/
theorem chunkDeadline_fails (hlate : c.deadline ≤ s.now) : Runs (.chunkDeadline n o k) s fun t => t = s.sessFail n 1 none ∧ t.sessState n = 4 ∧
    t.rd (F.ATL_SESS_STATUS_CAUSE n) = 1 ∧ (t.sess n).chunks = [] ∧ (t.sess n).stage = [] ∧ t.intBit .atl 0 0 = true := by
  obtain ⟨hstate, hcause, hchunks, hstage, -, hint⟩ := s.sessFail_fails n (show 1 < 8 by decide) none
  refine .of_exec rfl ?_
  simp only [hfound, Nat.not_lt.2 hlate, if_false]
  exact ⟨trivial, hstate, hcause, hchunks, hstage, hint⟩

theorem nackDelayExpire_early (hearly : s.now - c.opened < (c.nacks + 1) * s.nackDelay) : Runs (.nackDelayExpire n o k) s fun t => t = s := by
  refine .of_exec rfl ?_
  simp only [hfound, hearly, if_true]

variable (hlate : (c.nacks + 1) * s.nackDelay ≤ s.now - c.opened)
include hlate

/-- Each contributor that the chunk lacks is asked, but for those that hold off (R289). -/
theorem nackDelayExpire_asks {u : State} (hu : u = s.updChunk n o.toNat k.toNat (fun c => { c with nacks := (s.now - c.opened) / s.nackDelay }))
    (hup : c.sentUp = false) : Runs (.nackDelayExpire n o k) s fun t =>
      t = (u.contributors n).foldl (fun s m => if c.from_.contains m || s.heldOff n m then s else s.sendNack n m o.toNat k.toNat 1) u ∧
      (t.sess n).chunks = (s.sess n).chunks.map (fun y =>
        if y.opseq = o.toNat && y.chunk = k.toNat then { y with nacks := (s.now - y.opened) / s.nackDelay } else y) ∧
      t.rd (F.ATL_SESS_EVT_NACKS n) = min
        (s.rd (F.ATL_SESS_EVT_NACKS n) + ((s.contributors n).filter (fun m => !(c.from_.contains m || s.heldOff n m))).length)
        (2 ^ (F.ATL_SESS_EVT_NACKS n).width - 1) := by
  have hconfig : s.AtollConfig u := hu ▸ (State.AtollConfig.refl s).updChunk _ _ _ _
  have hsess : u.sess n = { s.sess n with chunks := (s.sess n).chunks.map (fun y => if y.opseq = o.toNat && y.chunk = k.toNat then
      { y with nacks := (s.now - y.opened) / s.nackDelay } else y) } := by
    rw [hu, State.updChunk, State.sess_setSess]
  have hheld : ∀ m, u.heldOff n m = s.heldOff n m := hconfig.heldOff_eq (by rw [hsess])
  have hnacks : u.rd (F.ATL_SESS_EVT_NACKS n) = s.rd (F.ATL_SESS_EVT_NACKS n) := hu ▸ State.rd_setSess_of_reg_ne _ _ _ nofun
  have hrun : Runs (.nackDelayExpire n o k) s fun t => t = u.nackMissing n o.toNat k.toNat c (u.contributors n) := by
    refine .of_exec rfl ?_
    simp only [hfound, Nat.not_lt.2 hlate, hup, Bool.false_and, Bool.false_eq_true, if_false, hu]
    rfl
  obtain ⟨t, ht, rfl⟩ := hrun
  refine .of_exec ht ⟨rfl, ?_, ?_⟩
  · rw [State.sess, State.nackMissing_atl]
    exact congrArg Sess.chunks hsess
  · rw [State.nacks_nackMissing, hconfig.contributors_eq, hnacks]
    simp only [hheld]

/-- For a partial that waits for its result the PARENT is asked (R289, R292). -/
theorem nackDelayExpire_asksParent (hup : c.sentUp = true) (hdown : c.down = none) {p : Nat} (hparent : s.parent n = some p)
    (hheld : s.heldOff n p = false) : Runs (.nackDelayExpire n o k) s fun t =>
      t.rd (F.ATL_SESS_EVT_NACKS n) = min (s.rd (F.ATL_SESS_EVT_NACKS n) + 1) (2 ^ (F.ATL_SESS_EVT_NACKS n).width - 1) := by
  have hheld' : ∀ f, (s.updChunk n o.toNat k.toNat f).heldOff n p = false := fun f =>
    (((State.AtollConfig.refl s).updChunk n o.toNat k.toNat f).heldOff_eq (by rw [State.updChunk, State.sess_setSess]) p).trans hheld
  refine .of_exec rfl ?_
  simp only [hfound, Nat.not_lt.2 hlate, hup, hdown, Option.isNone_none, Bool.and_self, if_true, if_false, State.parent_updChunk, hparent, hheld',
    Bool.false_eq_true]
  rw [State.nacks_sendNack, State.updChunk, State.rd_setSess_of_reg_ne _ _ _ (show RegName.ATL_SESS_EVT ≠ .ATL_SESS_STATUS by decide)]

end Delay

/-! ### Notices (R293, R294) -/

section Notice

variable {s : State} {n : Fin 4096}

/-- Outside ACTIVE no notice is due. -/
theorem holdOffSend_forgets (hstate : s.sessState n ≠ 2) : Runs (.holdOffSend n) s fun t =>
    (t.sess n).sentAt = none ∧ (t.sess n).chunks = (s.sess n).chunks ∧ changes [F.ATL_SESS_STATUS_OPEN_CHUNKS n] s { t with atl := s.atl } := by
  refine .of_exec rfl ?_
  simp only [hstate, ne_eq, not_false_eq_true, decide_true, Bool.true_or, if_true, State.sess_setSess]
  exact ⟨trivial, trivial, (changes.refl s).wr List.mem_cons_self _⟩

/-- While COMPUTE is held back the notices go out, and the deadlines are extended (R293). -/
theorem holdOffSend_sends (hstate : s.sessState n = 2) (hown : s.on F.ATL_STATUS_HOLDING_OFF = true) (hnone : (s.sess n).sentAt = none) :
    Runs (.holdOffSend n) s fun t => (t.sess n).sentAt = some s.now ∧ (t.sess n).chunks = (s.sess n).chunks.map (fun c =>
      { c with deadline := max c.deadline (min (c.deadline + s.holdOffExt) (s.now + s.sessTimeout n + s.holdOffExt)) }) := by
  refine .of_exec rfl ?_
  simp only [hstate, hown, hnone, ne_eq, not_true_eq_false, decide_false, Bool.not_true, Bool.false_and, Bool.or_self, Bool.false_eq_true,
    if_false, if_true, Option.any_none]
  generalize hv : s.setSess n { s.sess n with sentAt := some s.now } = v
  generalize ht : List.foldl _ v _ = t
  have hsent : v.AtollStands t := by
    rw [← ht]
    exact .foldl (fun _ _ hw => .ite hw (hw.atlSend ..)) (.refl v) _
  have hconfig : s.AtollConfig t := (hv ▸ (State.AtollConfig.refl s).setSess n _ : s.AtollConfig v).trans hsent.config
  have hsess : t.sess n = { s.sess n with sentAt := some s.now } := by
    rw [hsent.sess, ← hv, State.sess_setSess]
  simp only [State.extendDeadlines, State.sess_setSess, hsess, hconfig.now_eq, hconfig.holdOffExt_eq, hconfig.sessTimeout_eq]
  exact ⟨trivial, trivial⟩

/-- Within the period of the last notice none goes out (R294). -/
theorem holdOffSend_waits (hstate : s.sessState n = 2) {a : Nat} (hsent : (s.sess n).sentAt = some a) (hearly : s.now - a < s.holdOffPeriod)
    (hown : s.on F.ATL_STATUS_HOLDING_OFF = true) : Runs (.holdOffSend n) s fun t => t = s := by
  refine .of_exec rfl ?_
  simp only [hstate, hown, hsent, hearly, ne_eq, not_true_eq_false, decide_false, decide_true, Bool.not_true, Bool.false_and, Bool.or_self,
    Bool.false_eq_true, if_false, if_true, Option.any_some]

end Notice

end Sys2Proof.Machine
end

section
/-! SUPPORT. Atoll's engines: chunks that restart, roles that move, a reserve that takes over (R300), and the statement on results, deadlines
and engines. -/

set_option Elab.async false

namespace Sys2Proof.Machine

/-! ### Chunks that restart -/

/-- The chunk as it restarts: its COUNT stays, and no contribution is left. -/
def Chunk.restarted (c : Chunk) : Chunk :=
  { c with from_ := [], acc := List.replicate c.count 0, code := List.replicate c.count 1, done := false, sentUp := false, down := none }

/-- A chunk restarts, and its contributors receive a NACK with ARG 1. -/
def State.chunkRestart (s : State) (n : Nat) (c : Chunk) : State :=
  let s := s.updChunk n c.opseq c.chunk Chunk.restarted
  let s := (s.contributors n).foldl (fun s m => s.sendNack n m c.opseq c.chunk 1) s
  let s := ((s.satAdd (F.ATL_SESS_EVT_RESTARTS n) 1).raise .atl 0 2)
  s.event contained (codeOf .atl 0 2) (s.roleOf n c.chunk) (n + c.chunk * 2 ^ 12)

theorem State.restartChunks_eq (s : State) (n : Nat) (p : Chunk → Bool) :
    s.restartChunks n p = (s.sess n).chunks.foldl (fun s c => if p c then s.chunkRestart n c else s) s := rfl

section Restart

variable (s : State) (n : Nat)

theorem State.chunkRestart_sess (c : Chunk) (m : Nat) : (s.chunkRestart n c).sess m = (s.updChunk n c.opseq c.chunk Chunk.restarted).sess m := by
  unfold State.chunkRestart
  extract_lets u v w
  have hv : v.atl = u.atl := List.foldlRecOn (motive := fun x => State.atl x = u.atl) _ _ rfl fun x hx i _ => (State.sendNack_atl ..).trans hx
  have hw : w.atl = v.atl := State.raise_atl ..
  rw [((State.AtollStands.refl w).event _ _ _ _).sess, State.sess, hw, hv]
  rfl

theorem State.AtollConfig.chunkRestart {s t : State} (h : s.AtollConfig t) (n : Nat) (c : Chunk) : s.AtollConfig (t.chunkRestart n c) := by
  unfold State.chunkRestart
  extract_lets u v w
  have hv : s.AtollConfig v := .foldl (fun _ _ hx => hx.sendNack _ _ _ _ _) (h.updChunk _ _ _ _) _
  have hw : s.AtollConfig w := (hv.wr (F.ATL_SESS_EVT_RESTARTS n) _).trans ((State.AtollStands.refl _).raise .atl 0 2).config
  exact hw.trans ((State.AtollStands.refl w).event ..).config

theorem State.AtollConfig.restartChunks {s t : State} (h : s.AtollConfig t) (n : Nat) (p : Chunk → Bool) : s.AtollConfig (t.restartChunks n p) := by
  rw [State.restartChunks_eq]
  exact .foldl (fun u c hu => by split; exacts [hu.chunkRestart n c, hu]) h _

/-- Chunks of other sessions stand. -/
theorem State.restartChunks_sess_ne (p : Chunk → Bool) {m : Nat} (hm : m ≠ n) : (s.restartChunks n p).sess m = s.sess m := by
  rw [State.restartChunks_eq]
  exact List.foldlRecOn (motive := fun u => State.sess u m = s.sess m) _ _ rfl fun u hu c _ => by
    split
    · rw [State.chunkRestart_sess, State.updChunk, State.sess_setSess_ne _ _ _ hm, hu]
    · exact hu

/-- Two chunks have one number. -/
def Chunk.sameKey (c y : Chunk) : Bool := y.opseq = c.opseq && y.chunk = c.chunk

/-- Each of the chunks in `l` that `p` accepts restarts. -/
theorem State.restarts_chunks (p : Chunk → Bool) (l : List Chunk) :
    ((l.foldl (fun s c => if p c then State.chunkRestart s n c else s) s).sess n).chunks =
      (s.sess n).chunks.map fun y => if l.any (fun c => p c && c.sameKey y) then y.restarted else y := by
  induction l generalizing s with
  | nil => exact (List.map_id _).symm
  | cons c l ih =>
    rw [List.foldl_cons, ih]
    cases hp : p c with
    | false => simp only [hp, List.any_cons, Bool.false_and, Bool.false_or, Bool.false_eq_true, if_false]
    | true =>
      rw [if_pos rfl, State.chunkRestart_sess, State.updChunk, State.sess_setSess, List.map_map]
      refine List.map_congr_left fun y _ => ?_
      have hkey : ∀ d : Chunk, d.sameKey y.restarted = d.sameKey y := fun _ => rfl
      have htwice : y.restarted.restarted = y.restarted := rfl
      change (if l.any (fun d => p d && d.sameKey (if c.sameKey y then y.restarted else y)) then
        Chunk.restarted (if c.sameKey y then y.restarted else y) else if c.sameKey y then y.restarted else y) = _
      cases hc : c.sameKey y with
      | false => simp only [hc, hp, List.any_cons, Bool.and_false, Bool.false_or, Bool.false_eq_true, if_false]
      | true => simp only [hc, hp, hkey, htwice, List.any_cons, Bool.and_self, Bool.true_or, if_true, ite_self]

/-- Where `p` looks at a chunk's number alone, each chunk that it accepts restarts. -/
theorem State.restartChunks_chunks {p : Chunk → Bool} (hp : ∀ c y : Chunk, c.chunk = y.chunk → p c = p y) :
    ((s.restartChunks n p).sess n).chunks = (s.sess n).chunks.map fun y => if p y then y.restarted else y := by
  rw [State.restartChunks_eq, State.restarts_chunks]
  refine List.map_congr_left fun y hy => ?_
  have hany : (s.sess n).chunks.any (fun c => p c && c.sameKey y) = p y := by
    rw [Bool.eq_iff_iff, List.any_eq_true]
    constructor
    · rintro ⟨c, -, hc⟩
      obtain ⟨hpc, hkey⟩ := Bool.and_eq_true_iff.1 hc
      have hchunk : y.chunk = c.chunk := of_decide_eq_true (Bool.and_eq_true_iff.1 hkey).2
      exact hp c y hchunk.symm ▸ hpc
    · exact fun hpy => ⟨y, hy, by simp [hpy, Chunk.sameKey]⟩
  rw [hany]

end Restart

/-! ### Chunks of a role -/

section Role

variable (r : Nat)

/-- A chunk of session `n` as it stands when the chunks of role `r` have restarted. -/
def State.roleRestarted (s : State) (n : Nat) (c : Chunk) : Chunk := if s.roleOf n c.chunk = r then c.restarted else c

theorem State.roleRestarted_twice (s : State) (n : Nat) (c : Chunk) :
    s.roleRestarted r n (s.roleRestarted r n c) = s.roleRestarted r n c := by
  unfold State.roleRestarted
  by_cases hr : s.roleOf n c.chunk = r
  · rw [if_pos hr, if_pos (show s.roleOf n c.restarted.chunk = r from hr)]
    rfl
  · rw [if_neg hr, if_neg hr]

/-- The chunks of role `r` restart in each session of `l`. -/
def State.restartIn (s : State) (l : List Nat) : State := l.foldl (fun s n => s.restartChunks n fun c => s.roleOf n c.chunk = r) s

theorem State.AtollConfig.restartIn {s t : State} (h : s.AtollConfig t) (l : List Nat) : s.AtollConfig (t.restartIn r l) :=
  .foldl (fun _ _ hu => hu.restartChunks _ _) h l

theorem State.AtollConfig.restartRole {s t : State} (h : s.AtollConfig t) : s.AtollConfig (t.restartRole r) := h.restartIn r _

theorem State.restartIn_chunks (s : State) (l : List Nat) (n : Nat) :
    ((s.restartIn r l).sess n).chunks = if n ∈ l then (s.sess n).chunks.map (s.roleRestarted r n) else (s.sess n).chunks := by
  induction l generalizing s with
  | nil => rfl
  | cons m l ih =>
    have hconfig := (State.AtollConfig.refl s).restartChunks m fun c => s.roleOf m c.chunk = r
    have hrole : (s.restartChunks m fun c => s.roleOf m c.chunk = r).roleRestarted r n = s.roleRestarted r n := by
      funext c
      rw [State.roleRestarted, State.roleRestarted, hconfig.roleOf_eq]
    have hcons : s.restartIn r (m :: l) = (s.restartChunks m fun c => s.roleOf m c.chunk = r).restartIn r l := rfl
    rw [hcons, ih, hrole]
    by_cases hm : n = m
    · subst hm
      have hone : ((s.restartChunks n fun c => s.roleOf n c.chunk = r).sess n).chunks = (s.sess n).chunks.map (s.roleRestarted r n) := by
        rw [State.restartChunks_chunks s n fun c y hcy => by rw [hcy]]
        simp only [decide_eq_true_eq]
        rfl
      have htwice : s.roleRestarted r n ∘ s.roleRestarted r n = s.roleRestarted r n := funext (s.roleRestarted_twice r n)
      rw [hone, List.map_map, htwice, ite_self, if_pos List.mem_cons_self]
    · rw [State.restartChunks_sess_ne _ _ _ hm]
      simp only [List.mem_cons, hm, false_or]

end Role

/-! ### Engines -/

section Engine

/-- The status of engine `e`. -/
def State.setEngine (s : State) (e st role n : Nat) : State :=
  ((s.wr (F.ATL_ENG_STATUS_STATE e) st).wr (F.ATL_ENG_STATUS_ROLE e) role).wr (F.ATL_ENG_STATUS_SESSIONS e) n

variable (s : State) (e st role n : Nat)

theorem State.rd_setEngine_of_ix_ne {f : Fld} (h : f.ix ≠ e) : (s.setEngine e st role n).rd f = s.rd f := by
  have hne : ∀ g : Fld, g.ix = e → f.key ≠ g.key := fun g hg hk => h ((Fld.key_eq.1 hk).2.1.trans hg)
  exact (State.rd_wr_ne _ _ (hne _ rfl)).trans ((State.rd_wr_ne _ _ (hne _ rfl)).trans (State.rd_wr_ne _ _ (hne _ rfl)))

theorem State.setEngine_state (h : st < 4) : (s.setEngine e st role n).rd (F.ATL_ENG_STATUS_STATE e) = st :=
  (State.rd_wr_of_lo_ne _ _ (show (0 : Nat) ≠ 8 by decide)).trans <|
    (State.rd_wr_of_lo_ne _ _ (show (0 : Nat) ≠ 2 by decide)).trans ((State.rd_wr_self ..).trans (Nat.mod_eq_of_lt h))

theorem State.setEngine_role (h : role < 64) : (s.setEngine e st role n).rd (F.ATL_ENG_STATUS_ROLE e) = role :=
  (State.rd_wr_of_lo_ne _ _ (show (2 : Nat) ≠ 8 by decide)).trans ((State.rd_wr_self ..).trans (Nat.mod_eq_of_lt h))

theorem State.setEngine_sessions (h : n < 4096) : (s.setEngine e st role n).rd (F.ATL_ENG_STATUS_SESSIONS e) = n :=
  (State.rd_wr_self ..).trans (Nat.mod_eq_of_lt h)

end Engine

section Take

variable {s : State} {e r : Nat}

/-- A reserve is in RESERVE. -/
theorem State.reserveEngine_state {d : Nat} (h : s.reserveEngine d = some r) : s.rd (F.ATL_ENG_STATUS_STATE r) = 1 :=
  of_decide_eq_true (List.find?_some (p := fun i => Decidable.decide (s.rd (F.ATL_ENG_STATUS_STATE i) = 1)) h)

theorem State.reserveEngine_ne {d : Nat} (h : s.reserveEngine d = some r) (he : s.rd (F.ATL_ENG_STATUS_STATE e) ≠ 1) : r ≠ e :=
  fun hr => he (hr ▸ State.reserveEngine_state h)

theorem atollReg_reserveF (d : Nat) : atollReg (reserveF d).reg = false := by
  unfold reserveF
  split <;> rfl

/-- The registers of both engines as the reserve takes the role. -/
def State.engineMoved (s : State) (e r : Nat) (byCmd : Bool) : State :=
  (s.setEngine r 0 (s.rd (F.ATL_ENG_STATUS_ROLE e)) (s.rd (F.ATL_ENG_STATUS_SESSIONS e))).setEngine e (if byCmd then 1 else 3) 0x3F 0

/-- Nothing of Atoll but the two engines' registers and its event changes. -/
theorem State.engineTake_stands (byCmd : Bool) :
    (((s.engineMoved e r byCmd).satAdd F.RAS_SPARE_STATUS_SWAPS 1).raise .atl 0 1).AtollStands (s.engineTake e r byCmd) ∧
      (s.engineMoved e r byCmd).AtollStands (s.engineTake e r byCmd) := by
  unfold State.engineTake
  extract_lets role n s1 s2 s3 s4
  have h34 : s3.AtollStands s4 :=
    .ite ((State.AtollStands.refl s3).mapRecord ..)
      (((State.AtollStands.refl s3).wr (reserveF (engineDie e)) _ (atollReg_reserveF _)).spareConsumed ..)
  have h23 : s2.AtollStands s3 := ((State.AtollStands.refl s2).wr F.RAS_SPARE_STATUS_SWAPS _).raise .atl 0 1
  exact ⟨h34.finishHold .., (h23.trans h34).finishHold ..⟩

/-- The reserve is ACTIVE with the role and its sessions, and the old engine has no role (R300, R450). -/
theorem State.engineTake_takes (hne : r ≠ e) (byCmd : Bool) :
    (s.engineTake e r byCmd).rd (F.ATL_ENG_STATUS_STATE r) = 0 ∧
      (s.engineTake e r byCmd).rd (F.ATL_ENG_STATUS_ROLE r) = s.rd (F.ATL_ENG_STATUS_ROLE e) ∧
      (s.engineTake e r byCmd).rd (F.ATL_ENG_STATUS_SESSIONS r) = s.rd (F.ATL_ENG_STATUS_SESSIONS e) ∧
      (s.engineTake e r byCmd).rd (F.ATL_ENG_STATUS_STATE e) = (if byCmd then 1 else 3) ∧
      (s.engineTake e r byCmd).rd (F.ATL_ENG_STATUS_ROLE e) = 0x3F ∧ (s.engineTake e r byCmd).intBit .atl 0 1 = true := by
  obtain ⟨hevent, hstands⟩ := s.engineTake_stands (e := e) (r := r) byCmd
  have hold : (if byCmd then 1 else 3) < 4 := by split <;> decide
  refine ⟨(hstands.rd _).trans ?_, (hstands.rd _).trans ?_, (hstands.rd _).trans ?_, (hstands.rd _).trans ?_, (hstands.rd _).trans ?_,
    hevent.events 1 (State.intBit_raise_self _ _ _ _ (by decide))⟩
  · exact (State.rd_setEngine_of_ix_ne _ _ _ _ _ hne).trans (State.setEngine_state _ _ _ _ _ (by decide))
  · exact (State.rd_setEngine_of_ix_ne _ _ _ _ _ hne).trans (State.setEngine_role _ _ _ _ _ (State.rd_lt ..))
  · exact (State.rd_setEngine_of_ix_ne _ _ _ _ _ hne).trans (State.setEngine_sessions _ _ _ _ _ (State.rd_lt ..))
  · exact State.setEngine_state _ _ _ _ _ hold
  · exact State.setEngine_role _ _ _ _ _ (by decide)

end Take

/-! ### A role that retires -/

/-- From `s` to `t` the engines have the states and roles that they had, and engine `e` as many sessions. -/
def State.EnginesKept (e : Nat) (s t : State) : Prop := ∀ f : Fld, f.reg = .ATL_ENG_STATUS → f.lo ≠ 8 ∨ f.ix = e → t.rd f = s.rd f

section Retire

variable {s t u : State} {e r : Nat}

theorem State.AtollConfig.enginesKept (h : s.AtollConfig t) : s.EnginesKept e t := fun f hf _ => h f (hf ▸ rfl)

theorem State.EnginesKept.refl (s : State) : s.EnginesKept e s := fun _ _ _ => rfl

theorem State.EnginesKept.trans (h : s.EnginesKept e t) (k : t.EnginesKept e u) : s.EnginesKept e u :=
  fun f hf hlo => (k f hf hlo).trans (h f hf hlo)

theorem State.EnginesKept.roleEngine_eq (h : s.EnginesKept e t) (k : Nat) : t.roleEngine k = s.roleEngine k := by
  have hrole : ∀ i, t.rd (F.ATL_ENG_STATUS_ROLE i) = s.rd (F.ATL_ENG_STATUS_ROLE i) := fun i => h _ rfl (.inl (show (2 : Nat) ≠ 8 by decide))
  have hstate : ∀ i, t.rd (F.ATL_ENG_STATUS_STATE i) = s.rd (F.ATL_ENG_STATUS_STATE i) := fun i => h _ rfl (.inl (show (0 : Nat) ≠ 8 by decide))
  simp only [State.roleEngine, State.engineOf, hrole, hstate]

/-- Another engine counts a session more. -/
theorem State.EnginesKept.addSession (h : s.EnginesKept e t) {k : Nat} (hk : k ≠ e) :
    s.EnginesKept e (t.wrapAdd (F.ATL_ENG_STATUS_SESSIONS k) 1) :=
  h.trans fun _ _ hlo => State.rd_wr_ne _ _ fun hkey => by
    obtain ⟨-, hix, hlow⟩ := Fld.key_eq.1 hkey
    exact hlo.elim (fun hne => hne hlow) (fun he => hk (hix.symm.trans he))

/-- Sessions that move to a role of another engine leave this one (R300). -/
theorem State.EnginesKept.moveRole {k : Nat} (hk : s.roleEngine k ≠ e) : s.EnginesKept e (s.moveRole r k) := by
  unfold State.moveRole
  refine List.foldlRecOn _ _ (.refl s) fun u hu n _ => ?_
  split
  · extract_lets had u1 u2
    have h1 : s.EnginesKept e u1 :=
      hu.trans fun f hf _ => State.rd_wr_of_reg_ne _ _ fun he => (show RegName.ATL_ENG_STATUS ≠ .ATL_SESS_ROLES by decide) (hf.symm.trans he)
    have h2 : s.EnginesKept e u2 := by
      unfold u2
      split
      · exact h1
      · exact h1.addSession (h1.roleEngine_eq k ▸ hk)
    exact h2.trans ((State.AtollConfig.refl u2).restartChunks n _).enginesKept
  · exact hu

/-- The engine of a role that takes frames is ACTIVE. -/
theorem State.roleEngine_active {k : Nat} (h : s.roleTakes k = true) : s.rd (F.ATL_ENG_STATUS_STATE (s.roleEngine k)) = 0 := by
  obtain ⟨i, hi, hstate⟩ := (Option.any_eq_true ..).1 h
  rw [State.roleEngine, hi]
  exact of_decide_eq_true hstate

theorem State.leastRole_takes {d k : Nat} (h : s.leastRole d r = some k) : s.roleTakes k = true := by
  have hmem : ∀ j, s.leastRole d r = some j → j ∈ ((List.range 16).map (fun k => 16 * d + k)).filter (fun k => k ≠ r && s.roleTakes k) := by
    unfold State.leastRole
    refine List.foldlRecOn (motive := fun a : Option Nat => ∀ j, a = some j → j ∈ _) _ _ nofun fun a ha i hi j hj => ?_
    split at hj
    · exact Option.some.inj hj ▸ hi
    · split at hj
      · exact Option.some.inj hj ▸ hi
      · exact ha j hj
  exact (Bool.and_eq_true_iff.1 (List.mem_filter.1 (hmem k h)).2).2

/-- With no reserve left the engine is failed and has no role, and its sessions move to another role if one takes frames. -/
def State.engineRetired (s : State) (e r : Nat) : State :=
  let s := ((s.requestRemove 5 e).mapRecord 5 e 1).setEngine e 3 0x3F 0
  match s.leastRole (engineDie e) r with
  | some t => s.moveRole r t
  | none => s

theorem State.engineRetired_reads : (s.engineRetired e r).rd (F.ATL_ENG_STATUS_STATE e) = 3 ∧
    (s.engineRetired e r).rd (F.ATL_ENG_STATUS_ROLE e) = 0x3F ∧ (s.engineRetired e r).rd (F.ATL_ENG_STATUS_SESSIONS e) = 0 := by
  unfold State.engineRetired
  extract_lets u
  have hstate : u.rd (F.ATL_ENG_STATUS_STATE e) = 3 := State.setEngine_state _ _ _ _ _ (by decide)
  have hkept : ∀ v : State, u.EnginesKept e v → v.rd (F.ATL_ENG_STATUS_STATE e) = 3 ∧ v.rd (F.ATL_ENG_STATUS_ROLE e) = 0x3F ∧
      v.rd (F.ATL_ENG_STATUS_SESSIONS e) = 0 := fun v hv =>
    ⟨(hv _ rfl (.inr rfl)).trans hstate, (hv _ rfl (.inr rfl)).trans (State.setEngine_role _ _ _ _ _ (by decide)),
      (hv _ rfl (.inr rfl)).trans (State.setEngine_sessions _ _ _ _ _ (by decide))⟩
  split
  · next k hleast =>
    have hactive := State.roleEngine_active (State.leastRole_takes hleast)
    exact hkept _ (State.EnginesKept.moveRole fun he => absurd (hstate.symm.trans (he ▸ hactive)) (by decide))
  · exact hkept u (.refl u)

end Retire

/-! ### The commands -/

section Command

variable {s : State} {e : Fin 36}

/-- An engine in RESERVE or FAILED is neither replaced nor hit by a fault. -/
theorem engine_idle (hstate : s.rd (F.ATL_ENG_STATUS_STATE e) = 1 ∨ s.rd (F.ATL_ENG_STATUS_STATE e) = 3) :
    Runs (.engineReplace e) s (fun t => t = s) ∧ ∀ logic, Runs (.engineFault e logic) s fun t => t = s := by
  have hnot : s.rd (F.ATL_ENG_STATUS_STATE e) ≠ 0 ∧ s.rd (F.ATL_ENG_STATUS_STATE e) ≠ 2 := by omega
  refine ⟨.of_exec rfl ?_, fun logic => .of_exec rfl (if_pos (by simp [hnot]))⟩
  split
  · next _ h _ => exact absurd h hnot.1
  · next _ h _ => exact absurd h hnot.2
  · rfl

theorem engineReplace_none (hstate : s.rd (F.ATL_ENG_STATUS_STATE e) = 0) (hnone : s.reserveEngine (engineDie e) = none) :
    Runs (.engineReplace e) s fun t => t = s := by
  refine .of_exec rfl ?_
  simp only [hstate, hnone]

/-- An ACTIVE engine drains, and the spare map names its reserve (R300). -/
theorem engineReplace_drains (hstate : s.rd (F.ATL_ENG_STATUS_STATE e) = 0) (hfree : s.scopeBusy 5 e = false) {r : Nat}
    (hreserve : s.reserveEngine (engineDie e) = some r) : Runs (.engineReplace e) s fun t =>
      t.rd (F.ATL_ENG_STATUS_STATE e) = 2 ∧ mget t.spareMap (key2 5 e) 0 = 2 + r ∧
      changes [F.ATL_ENG_STATUS_STATE e] s { t with spareMap := s.spareMap } := by
  refine .of_exec rfl ?_
  simp only [hstate, hreserve, hfree, Bool.false_eq_true, if_false, State.engineDrain, Option.getD_some]
  exact ⟨State.rd_wr_self .., mget_mset_self .., (changes.refl s).wr List.mem_cons_self _⟩

/-- A DRAINING engine gives its role to the reserve (R300). -/
theorem engineReplace_takes (hstate : s.rd (F.ATL_ENG_STATUS_STATE e) = 2) {r : Nat} (hreserve : s.reserveEngine (engineDie e) = some r) :
    Runs (.engineReplace e) s fun t =>
      t.rd (F.ATL_ENG_STATUS_STATE r) = 0 ∧ t.rd (F.ATL_ENG_STATUS_ROLE r) = s.rd (F.ATL_ENG_STATUS_ROLE e) ∧
      t.rd (F.ATL_ENG_STATUS_SESSIONS r) = s.rd (F.ATL_ENG_STATUS_SESSIONS e) ∧ t.rd (F.ATL_ENG_STATUS_ROLE e) = 0x3F ∧
      t.intBit .atl 0 1 = true := by
  have hne : r ≠ e := State.reserveEngine_ne hreserve (hstate ▸ by decide)
  obtain ⟨hnew, hrole, hsessions, -, hold, hint⟩ :=
    s.engineTake_takes hne (s.dys.holds.any (fun h => h.kind = holdSpare 5 && h.ix = e.val))
  refine .of_exec rfl ?_
  simp only [hstate, hreserve]
  exact ⟨hnew, hrole, hsessions, hold, hint⟩

section Active

variable (hstate : s.rd (F.ATL_ENG_STATUS_STATE e) = 0)
include hstate

/-- A fault in a chunk's state restarts the chunks of the role (R300). -/
theorem engineFault_restarts : Runs (.engineFault e false) s fun t => t = s.restartRole (s.rd (F.ATL_ENG_STATUS_ROLE e)) ∧
    (∀ n : Fin 4096, s.atl.live.contains n.val = true →
      (t.sess n).chunks = (s.sess n).chunks.map (s.roleRestarted (s.rd (F.ATL_ENG_STATUS_ROLE e)) n)) := by
  refine .of_exec rfl ?_
  simp only [hstate, ne_eq, not_true_eq_false, decide_false, Bool.false_and, Bool.not_false, Bool.false_eq_true, if_false, if_true]
  refine ⟨trivial, fun n hlive => ?_⟩
  exact (State.restartIn_chunks _ s s.atl.live n).trans (if_pos (List.contains_iff_mem.1 hlive))

/-- A fault in the engine itself replaces it at once (R300, R445). -/
theorem engineFault_replaces {v : Nat} (hreserve : s.reserveEngine (engineDie e) = some v) : Runs (.engineFault e true) s fun t =>
    t = (((s.restartRole (s.rd (F.ATL_ENG_STATUS_ROLE e))).requestRemove 5 e).mapRecord 5 e (2 + v)).engineTake e v false ∧
      t.rd (F.ATL_ENG_STATUS_STATE e) = 3 ∧ t.rd (F.ATL_ENG_STATUS_ROLE e) = 0x3F ∧ t.rd (F.ATL_ENG_STATUS_STATE v) = 0 ∧
      t.rd (F.ATL_ENG_STATUS_ROLE v) = s.rd (F.ATL_ENG_STATUS_ROLE e) ∧ t.intBit .atl 0 1 = true := by
  have hne : v ≠ e := State.reserveEngine_ne hreserve (hstate ▸ by decide)
  refine .of_exec rfl ?_
  simp only [hstate, hreserve, ne_eq, not_true_eq_false, decide_false, Bool.false_and, Bool.not_true, Bool.false_eq_true, if_false]
  generalize hu : ((s.restartRole (s.rd (F.ATL_ENG_STATUS_ROLE e))).requestRemove 5 e).mapRecord 5 e (2 + v) = u
  have hconfig : s.AtollConfig u := hu ▸ ((State.AtollConfig.refl s).restartRole _).trans
    (((State.AtollStands.refl _).requestRemove 5 e).mapRecord 5 e (2 + v)).config
  obtain ⟨hnew, hrole, -, hold, hnone, hint⟩ := u.engineTake_takes hne false
  exact ⟨trivial, hold, hnone, hnew, hrole.trans (hconfig _ rfl), hint⟩

/-- With no reserve left on the die its role retires (R300). -/
theorem engineFault_retires (hnone : s.reserveEngine (engineDie e) = none) : Runs (.engineFault e true) s fun t =>
    t.rd (F.ATL_ENG_STATUS_STATE e) = 3 ∧ t.rd (F.ATL_ENG_STATUS_ROLE e) = 0x3F ∧ t.rd (F.ATL_ENG_STATUS_SESSIONS e) = 0 ∧
    t.intBit .atl 0 1 = true := by
  have hrun : Runs (.engineFault e true) s fun t => t =
      (((s.engineRetired e (s.rd (F.ATL_ENG_STATUS_ROLE e))).satAdd (F.RAS_SPARE_SUMMARY_HI_FAILED 5) 1).raise .atl 0 1).noSpare 5 e := by
    refine .of_exec rfl ?_
    simp only [hstate, hnone, ne_eq, not_true_eq_false, decide_false, Bool.false_and, Bool.not_true, Bool.false_eq_true, if_false]
    rfl
  obtain ⟨t, ht, rfl⟩ := hrun
  generalize hu : s.engineRetired e (s.rd (F.ATL_ENG_STATUS_ROLE e)) = u
  obtain ⟨hfailed, hrole, hsessions⟩ := s.engineRetired_reads (e := e) (r := s.rd (F.ATL_ENG_STATUS_ROLE e))
  rw [hu] at ht hfailed hrole hsessions
  have hraised : ((u.satAdd (F.RAS_SPARE_SUMMARY_HI_FAILED 5) 1).raise .atl 0 1).AtollStands _ := (State.AtollStands.refl _).noSpare 5 e
  have hstands : u.AtollStands _ := (((State.AtollStands.refl u).wr (F.RAS_SPARE_SUMMARY_HI_FAILED 5) _).raise .atl 0 1).trans hraised
  exact .of_exec ht ⟨(hstands.rd _).trans hfailed, (hstands.rd _).trans hrole, (hstands.rd _).trans hsessions,
    hraised.events 1 (State.intBit_raise_self _ _ _ _ (by decide))⟩

end Active

end Command

/-- Settles O44: each clause is the effect of its command on a session or an engine. -/
theorem atollTimers : Obligations.AtollTimers := by
  intro s
  refine ⟨fun n => ⟨chunkResultSend_idle, fun c hfound => ?_, fun o k => ⟨nackDelayExpire_idle, fun c hfound => ?_⟩, holdOffSend_forgets,
    holdOffSend_sends, fun hstate a => holdOffSend_waits hstate⟩, fun e => ?_⟩
  · exact ⟨chunkResultSend_own hfound, fun hactive l => chunkResultSend_closes hfound hactive, fun d => chunkResultSend_down hfound⟩
  · exact ⟨chunkDeadline_early hfound, chunkDeadline_fails hfound, nackDelayExpire_early hfound,
      fun hlate u => nackDelayExpire_asks hfound hlate, fun hlate hup hdown p => nackDelayExpire_asksParent hfound hlate hup hdown⟩
  · exact ⟨engine_idle, engineReplace_none, fun hstate hfree r => engineReplace_drains hstate hfree, fun hstate r => engineReplace_takes hstate,
      engineFault_restarts, fun hstate v => engineFault_replaces hstate, engineFault_retires⟩

end Sys2Proof.Machine
end

section
/-! SUPPORT. The frames and the buckets of collectors (R311, R312). -/

set_option Elab.async false

namespace Sys2Proof.Machine

/-! ### EXPORT_FRAME_CLOSE -/

/-- The oldest frame of TYPE `ty` for collector `c` has closed, and `rest` are left: SEQ has risen, and LOST starts anew (R311, R312). -/
def State.frameClosed (s : State) (c ty : Nat) (rest : List ExpFrame) : State :=
  s.updTel fun t =>
    { t with frames := mset t.frames (key2 c ty) rest [], lost := mset t.lost c 0 0, seq := mset t.seq c ((mget t.seq c 0 + 1) % 2 ^ 32) 0 }

section Closed

variable (s : State) (c ty : Nat) (rest : List ExpFrame)

theorem State.frameClosed_frames : mget (s.frameClosed c ty rest).tel.frames (key2 c ty) [] = rest := by
  rw [State.frameClosed, State.updTel_tel, mget_mset_self]

theorem State.frameClosed_seq : mget (s.frameClosed c ty rest).tel.seq c 0 = (mget s.tel.seq c 0 + 1) % 2 ^ 32 := by
  rw [State.frameClosed, State.updTel_tel, mget_mset_self]

theorem State.frameClosed_lost : mget (s.frameClosed c ty rest).tel.lost c 0 = 0 := by
  rw [State.frameClosed, State.updTel_tel, mget_mset_self]

end Closed

/-- A frame that the Lagoon has refused is counted (R312). -/
def State.exportRefused (s : State) : State := (s.satAdd F.TEL_STATUS_REFUSED 1).raise .tel 0 2

theorem State.exportRefused_counts (s : State) :
    s.exportRefused.rd F.TEL_STATUS_REFUSED = min (s.rd F.TEL_STATUS_REFUSED + 1) (2 ^ F.TEL_STATUS_REFUSED.width - 1) :=
  (State.rd_raise_ne _ _ _ _ (by decide)).trans (State.rd_satAdd_self ..)

theorem State.exportRefused_signals (s : State) : signals [F.TEL_STATUS_REFUSED, F.TEL_INT_STATUS_BITS] s s.exportRefused :=
  ((signals.refl s).satAdd (by simp) 1).raise (by simp [intStatus]) 2

theorem State.exportRefused_tel (s : State) : s.exportRefused.tel = s.tel := State.raise_tel ..

/-- What signals after a change of telemetry's own state signals beside it. -/
theorem signals.of_updTel {fs : List Fld} {s t : State} {g : TelSt → TelSt} (h : signals fs (s.updTel g) t) :
    signals fs s { t with tel := s.tel } := by
  obtain ⟨hreads, hrest, hout⟩ := h
  exact ⟨hreads, congrArg (fun u : State => { u with tel := s.tel }) hrest, hout⟩

/-- No port lies beyond 511 (R42). -/
theorem State.admitExport_beyond (s : State) {p : Nat} (q : Nat) (frame : Bytes) (h : 512 ≤ p) : s.admitExport p q frame = (false, s) :=
  if_pos h

section Close

variable {s : State} {c : Fin 16} {ty : Fin 5}

theorem exportFrameClose_empty (hframes : mget s.tel.frames (key2 c ty) [] = []) : Runs (.exportFrameClose c ty) s fun t => t = s := by
  refine .of_exec (t := s) ?_ rfl
  change execExportFrameClose c ty s = _
  simp only [execExportFrameClose, hframes]

variable {f : ExpFrame} {rest : List ExpFrame} (hframes : mget s.tel.frames (key2 c ty) [] = f :: rest)
include hframes

/-- A frame that is neither full nor 10 µs old stays open (R311). -/
theorem exportFrameClose_open (hroom : f.recs.length < recLimit ty) (hyoung : s.now - f.since < 16000) :
    Runs (.exportFrameClose c ty) s fun t => t = s := by
  refine .of_exec (t := s) ?_ rfl
  change execExportFrameClose c ty s = _
  simp only [execExportFrameClose, hframes, hroom, hyoung, decide_true, Bool.and_self, if_true]

variable (hdue : recLimit ty ≤ f.recs.length ∨ 16000 ≤ s.now - f.since)
include hdue

/-- A frame that is full or 10 µs old goes to the Lagoon, and is counted where the Lagoon refuses it (R311, R312). -/
theorem exec_exportFrameClose {a : Bool × State} (ha : a = (s.frameClosed c ty rest).admitExport (s.rd (F.TEL_COLLECTOR_PORT c))
      (s.rd (F.TEL_COLLECTOR_QUEUE c)) (s.exportFrame c ty f.recs)) :
    exec (.exportFrameClose c ty) s = .next (if a.1 then a.2 else a.2.exportRefused) := by
  have hclose : ¬ (decide (f.recs.length < recLimit ty) && decide (s.now - f.since < 16000)) = true := by
    rw [Bool.and_eq_true, decide_eq_true_iff, decide_eq_true_iff]
    omega
  change execExportFrameClose c ty s = _
  simp only [execExportFrameClose, hframes, if_neg hclose, ha]
  rfl

/-- A collector whose port does not exist loses the frame (R312). -/
theorem exportFrameClose_refused (hport : s.rd (F.TEL_COLLECTOR_PORT c) ≥ 512) : Runs (.exportFrameClose c ty) s fun t =>
    mget t.tel.frames (key2 c ty) [] = rest ∧ mget t.tel.seq c 0 = (mget s.tel.seq c 0 + 1) % 2 ^ 32 ∧ mget t.tel.lost c 0 = 0 ∧
    t.rd F.TEL_STATUS_REFUSED = min (s.rd F.TEL_STATUS_REFUSED + 1) (2 ^ F.TEL_STATUS_REFUSED.width - 1) ∧ t.intBit .tel 0 2 = true ∧
    signals [F.TEL_STATUS_REFUSED, F.TEL_INT_STATUS_BITS] s { t with tel := s.tel } := by
  refine .of_exec (exec_exportFrameClose hframes hdue (State.admitExport_beyond _ _ _ hport).symm) ?_
  rw [if_neg Bool.false_ne_true, State.exportRefused_tel]
  exact ⟨State.frameClosed_frames .., State.frameClosed_seq .., State.frameClosed_lost .., State.exportRefused_counts _,
    State.intBit_raise_self _ _ _ _ (by decide), (State.exportRefused_signals _).of_updTel⟩

end Close

/-! ### COLLECTOR_REFILL -/

section Refill

variable {s : State} {c : Fin 16}

theorem collectorRefill_early (h : s.now - s.ranAt .collector c < 1600) : Runs (.collectorRefill c) s fun t => t = s := by
  have hwait : (!s.due .collector c 1600) = true := by simpa [State.due] using h
  have hexec : exec (.collectorRefill c) s = .next s := congrArg Host.Outcome.next (if_pos hwait)
  exact .of_exec hexec rfl

/-- The bucket gains RATE each microsecond, up to 64 records (R312). -/
theorem collectorRefill_due (h : 1600 ≤ s.now - s.ranAt .collector c) : Runs (.collectorRefill c) s fun t =>
    mget t.tel.tokens c fullBucket = min fullBucket (mget s.tel.tokens c fullBucket + max 1 (s.rd (F.TEL_COLLECTOR_RATE_RATE c))) ∧
    t.ranAt .collector c = s.now ∧ { t with tel := s.tel, timers := s.timers } = s := by
  have hdue : ¬ (!s.due .collector c 1600) = true := by simpa [State.due] using h
  have hexec : exec (.collectorRefill c) s = .next ((s.ran .collector c s.now).updTel fun t =>
      { t with
        tokens := mset t.tokens c (min fullBucket (mget t.tokens c fullBucket + max 1 (s.rd (F.TEL_COLLECTOR_RATE_RATE c)))) fullBucket }) :=
    congrArg Host.Outcome.next (if_neg hdue)
  exact .of_exec hexec ⟨mget_mset_self .., State.ranAt_ran .., rfl⟩

end Refill

end Sys2Proof.Machine
end

section
/-! SUPPORT. Flow records: what the operations on them leave (R318 to R320), FLOW_SWEEP and TEL_FLOW_RD, and the statement of the telemetry
exports. -/

set_option Elab.async false

namespace Sys2Proof.Machine

/-! ### Bytes in HBM -/

theorem length_leBytes (n v : Nat) : (leBytes n v).length = n := by
  induction n generalizing v with
  | zero => rfl
  | succ n ih => exact congrArg (· + 1) (ih _)

/-- A flow record takes one line of HBM (R318). -/
theorem length_flowBytes (key : Nat) (r : FlowRec) : (flowBytes key r).length = 64 := by
  simp only [flowBytes, List.length_append, length_leBytes]

/-- A byte string reads back where it was written. -/
theorem Memory.readAll_writeAll (m : PMap Byte) (a : Nat) (l : Bytes) : Memory.readAll (Memory.writeAll m a l) a l.length = l := by
  refine List.ext_getElem (by simp [Memory.readAll]) fun k _ hk => ?_
  simp only [Memory.readAll, List.getElem_map, List.getElem_range]
  exact Memory.read_writeAll_in m a k l hk

theorem State.hbmRead_hbmWrite (s : State) (st o : Nat) {l : Bytes} {n : Nat} (hn : l.length = n) : (s.hbmWrite st o l).hbmRead st o n = l :=
  hn ▸ Memory.readAll_writeAll ..

theorem State.hbmWrite_rd (s : State) (st o : Nat) (l : Bytes) (f : Fld) : (s.hbmWrite st o l).rd f = s.rd f := rfl

/-- A write to HBM leaves every byte outside it. -/
theorem State.read_hbmWrite_out (s : State) (st o : Nat) {l : Bytes} {n a : Nat} (hn : l.length = n)
    (ha : a < hbmAddr st o ∨ hbmAddr st o + n ≤ a) : Memory.read (s.hbmWrite st o l).hbm a = Memory.read s.hbm a :=
  Memory.read_writeAll_out _ _ _ _ (hn ▸ ha)

/-! ### Where a record stands -/

section Record

variable {s : State} {die key : Nat} {e : FlowSlot} {r : FlowRec}

/-- A record that is freed is gone (R320). -/
theorem State.flowGet_flowFree (s : State) (die key : Nat) : (s.flowFree die key).flowGet die key = none := by
  have hgone : mget (s.flowFree die key).tel.flows (flowIx die key) none = none := by
    rw [State.flowFree, State.updTel_tel, mget_mset_self]
  rw [State.flowGet, hgone]

variable (he : mget s.tel.flows (flowIx die key) none = some e)
include he

/-- A cached record takes its new values in the cache (R319). -/
theorem State.flowPut_cached (hcached : e.cached ≠ none) (n : FlowRec) : s.flowPut die key n =
    s.updTel fun x => { x with flows := mset x.flows (flowIx die key) (some { e with cached := some n }) none } := by
  obtain ⟨r, hr⟩ := Option.ne_none_iff_exists'.1 hcached
  simp only [State.flowPut, he, hr]

theorem State.flowGet_flowPut_cached (hcached : e.cached ≠ none) (n : FlowRec) : (s.flowPut die key n).flowGet die key = some n := by
  have hslot : mget (s.flowPut die key n).tel.flows (flowIx die key) none = some { e with cached := some n } := by
    rw [State.flowPut_cached he hcached, State.updTel_tel, mget_mset_self]
  rw [State.flowGet, hslot]
  rfl

theorem State.flowPut_cached_hbm (hcached : e.cached ≠ none) (n : FlowRec) : (s.flowPut die key n).hbm = s.hbm := by
  rw [State.flowPut_cached he hcached]
  rfl

/-- A record that no cache holds takes its new values in HBM (R319). -/
theorem State.flowPut_stored (hstored : e.cached = none) {st : Nat} (hst : s.flowStack = some st) (n : FlowRec) :
    s.flowPut die key n = s.hbmWrite st (s.flowOff st die key e.way) (flowBytes key n) := by
  simp only [State.flowPut, he, hstored, hst]

end Record

/-! ### Records on their way to a collector -/

/-- From `s` to `t` the flow records stand as they are, and of the registers at most telemetry's interrupts change. -/
structure State.FlowsStand (s t : State) : Prop where
  flows : t.tel.flows = s.tel.flows
  hbm : t.hbm = s.hbm
  reads : readsBut [F.TEL_INT_STATUS_BITS] s t

namespace State.FlowsStand

variable {s t : State}

theorem refl (s : State) : s.FlowsStand s := ⟨rfl, rfl, .refl s⟩

theorem raise_tel (h : s.FlowsStand t) (e : Nat) : s.FlowsStand (t.raise .tel 0 e) :=
  ⟨(congrArg TelSt.flows (State.raise_tel ..)).trans h.flows, (State.raise_hbm ..).trans h.hbm, h.reads.raise (by simp [intStatus]) e⟩

/-- A change of telemetry beside the records. -/
theorem updTel (h : s.FlowsStand t) (g : TelSt → TelSt) (hflows : (g t.tel).flows = t.tel.flows := by rfl) : s.FlowsStand (t.updTel g) :=
  ⟨hflows.trans h.flows, h.hbm, h.reads.congr rfl⟩

theorem recLost (h : s.FlowsStand t) (c n : Nat) : s.FlowsStand (t.recLost c n) := by
  unfold State.recLost
  dsimp only
  split
  · exact h.updTel _
  · exact (h.updTel _).raise_tel 0

/-- A record that a collector takes, or that is lost, leaves the flow records (R312). -/
theorem telRecord (h : s.FlowsStand t) (ty c : Nat) (rec : Bytes) : s.FlowsStand (t.telRecord ty c rec) := by
  unfold State.telRecord
  split
  · exact h
  · split
    · exact h.updTel _
    · exact h.recLost c 1

/-- A register of another block, or of telemetry beside its interrupts, reads as before. -/
theorem rd (h : s.FlowsStand t) (f : Fld) (hf : f.reg ≠ .TEL_INT_STATUS) : t.rd f = s.rd f :=
  h.reads f fun _ hg e => hf ((Fld.key_eq.1 e).1.trans (List.mem_singleton.1 hg ▸ rfl))

theorem slot (h : s.FlowsStand t) (ix : Nat) : mget t.tel.flows ix none = mget s.tel.flows ix none := by rw [h.flows]

theorem flowStack (h : s.FlowsStand t) : t.flowStack = s.flowStack := by
  have hsize : ∀ st, t.rd (F.BPM_REGION_SIZE (10 * st + 7)) = s.rd (F.BPM_REGION_SIZE (10 * st + 7)) := fun st =>
    h.rd (F.BPM_REGION_SIZE _) (show RegName.BPM_REGION ≠ .TEL_INT_STATUS by decide)
  simp only [State.flowStack, hsize]

theorem flowOff (h : s.FlowsStand t) (st die key w : Nat) : t.flowOff st die key w = s.flowOff st die key w := by
  rw [State.flowOff, State.flowOff, h.rd (F.BPM_REGION_BASE _) (show RegName.BPM_REGION ≠ .TEL_INT_STATUS by decide)]

end State.FlowsStand

/-! ### FLOW_SWEEP -/

/-- A record that no packet has updated for IDLE seconds (R320). -/
def State.flowIdle (s : State) (r : FlowRec) : Bool :=
  s.rd F.TEL_FLOW_CFG_IDLE ≠ 0 && flowNs s.flowTime - flowNs r.last ≥ s.rd F.TEL_FLOW_CFG_IDLE * 1000000000

/-- A record of more than ACTIVE seconds (R320). -/
def State.flowAged (s : State) (r : FlowRec) : Bool :=
  s.rd F.TEL_FLOW_CFG_ACTIVE ≠ 0 && flowNs s.flowTime - flowNs r.first > s.rd F.TEL_FLOW_CFG_ACTIVE * 1000000000

/-- The record of a key is exported (R320). -/
def State.flowExport (s : State) (key : Nat) (r : FlowRec) : State := s.telRecord 3 (s.rd F.TEL_CFG_FLOW_COL) (flowWire key r)

/-- A record as it restarts once it is exported (R320). -/
def State.flowRestarted (s : State) (r : FlowRec) : FlowRec := { r with packets := 0, bytes := 0, maxLat := 0, first := s.flowTime }

theorem State.flowExport_stands (s : State) (key : Nat) (r : FlowRec) : s.FlowsStand (s.flowExport key r) :=
  (State.FlowsStand.refl s).telRecord ..

section Sweep

variable {s : State} {die : Fin 2} {key : BitVec 64}

theorem flowSweep_none (hget : s.flowGet die key.toNat = none) : Runs (.flowSweep die key) s fun t => t = s := by
  refine .of_exec (t := s) ?_ rfl
  change execFlowSweep die key s = _
  simp only [execFlowSweep, hget]

variable {r : FlowRec} (hget : s.flowGet die key.toNat = some r)
include hget

theorem exec_flowSweep : exec (.flowSweep die key) s = .next (
    if s.flowIdle r then (s.flowExport key.toNat r).flowFree die key.toNat
    else if s.flowAged r then (s.flowExport key.toNat r).flowPut die key.toNat (s.flowRestarted r)
    else s) := by
  have hscale : ∀ n : Nat, (n * 1000000000 ≠ 0) = (n ≠ 0) := fun n => propext (by omega)
  change execFlowSweep die key s = _
  simp only [execFlowSweep, hget, State.flowIdle, State.flowAged, hscale]
  rfl

theorem flowSweep_leaves (hidle : s.flowIdle r = false) (haged : s.flowAged r = false) : Runs (.flowSweep die key) s fun t => t = s :=
  .of_exec (exec_flowSweep hget) (by rw [hidle, haged]; rfl)

theorem flowSweep_frees (hidle : s.flowIdle r = true) :
    Runs (.flowSweep die key) s fun t => t.flowGet die key.toNat = none ∧ t.hbm = s.hbm := by
  refine .of_exec (exec_flowSweep hget) ?_
  rw [if_pos hidle]
  exact ⟨State.flowGet_flowFree .., (s.flowExport_stands _ r).hbm⟩

variable (hidle : s.flowIdle r = false) (haged : s.flowAged r = true)
include hidle haged

theorem exec_flowSweep_aged :
    exec (.flowSweep die key) s = .next ((s.flowExport key.toNat r).flowPut die key.toNat (s.flowRestarted r)) := by
  rw [exec_flowSweep hget, hidle, haged]
  rfl

variable {e : FlowSlot} (he : mget s.tel.flows (flowIx die key.toNat) none = some e)
include he

/-- An old record in the cache restarts there (R319, R320). -/
theorem flowSweep_restarts_cached (hcached : e.cached = some r) :
    Runs (.flowSweep die key) s fun t => t.flowGet die key.toNat = some (s.flowRestarted r) ∧ t.hbm = s.hbm := by
  have hstands := s.flowExport_stands key.toNat r
  have hslot := (hstands.slot _).trans he
  have hsome : e.cached ≠ none := by rw [hcached]; nofun
  exact .of_exec (exec_flowSweep_aged hget hidle haged)
    ⟨State.flowGet_flowPut_cached hslot hsome _, (State.flowPut_cached_hbm hslot hsome _).trans hstands.hbm⟩

/-- An old record in HBM restarts there, and no other byte of HBM changes (R319, R320). -/
theorem flowSweep_restarts_stored (hstored : e.cached = none) {st : Nat} (hst : s.flowStack = some st) {o : Nat}
    (ho : o = s.flowOff st die key.toNat e.way) : Runs (.flowSweep die key) s fun t =>
      t.hbmRead st o 64 = flowBytes key.toNat (s.flowRestarted r) ∧
      ∀ a : Nat, a < hbmAddr st o ∨ hbmAddr st o + 64 ≤ a → Memory.read t.hbm a = Memory.read s.hbm a := by
  have hstands := s.flowExport_stands key.toNat r
  have hlen := length_flowBytes key.toNat (s.flowRestarted r)
  refine .of_exec (exec_flowSweep_aged hget hidle haged) ?_
  rw [State.flowPut_stored ((hstands.slot _).trans he) hstored (hstands.flowStack.trans hst), hstands.flowOff, ← ho]
  refine ⟨?_, fun a ha => ?_⟩
  · exact State.hbmRead_hbmWrite _ _ _ hlen
  · exact (State.read_hbmWrite_out _ _ _ hlen ha).trans (congrArg (Memory.read · a) hstands.hbm)

end Sweep

/-! ### TEL_FLOW_RD -/

theorem flowRdWord_inj (a b : Nat) (h : (F.TEL_FLOW_RD_REC_WORD a).key = (F.TEL_FLOW_RD_REC_WORD b).key) : a = b := by
  obtain ⟨-, hix, -⟩ := Fld.key_eq.1 h
  exact hix

/-- A row of registers leaves what lies beside the register file. -/
theorem State.wrWords_tel (s : State) (g : Nat → Fld) (v : Nat → Nat) (n : Nat) : (s.wrWords g v n).tel = s.tel :=
  List.foldlRecOn (motive := fun u : State => u.tel = s.tel) _ _ rfl fun _ hu _ _ => hu

/-- The record that TEL_FLOW_RD finds: the north die's before the south die's (log entry 78). -/
def State.flowFound (s : State) : Option FlowRec :=
  (s.flowGet 0 (s.rd F.TEL_FLOW_RD_KEY_KEY)).orElse fun _ => s.flowGet 1 (s.rd F.TEL_FLOW_RD_KEY_KEY)

/-- TEL_FLOW_RD_REC shows record `r` of key `key` (R320). -/
def State.flowShown (s : State) (key : Nat) (r : FlowRec) : State :=
  (s.wrB F.TEL_FLOW_RD_STAT_FOUND true).wrWords F.TEL_FLOW_RD_REC_WORD (fun w => leAt (flowBytes key r) (4 * w) 4) 16

section Show

variable (s : State) (key : Nat) (r : FlowRec)

theorem State.flowShown_tel : (s.flowShown key r).tel = s.tel := State.wrWords_tel ..

theorem State.flowShown_found : (s.flowShown key r).on F.TEL_FLOW_RD_STAT_FOUND = true :=
  (State.on_congr (State.rd_wrWords_ne _ _ _ _ fun _ _ e =>
    absurd (Fld.key_eq.1 e).1 (show RegName.TEL_FLOW_RD_STAT ≠ .TEL_FLOW_RD_REC by decide))).trans (State.on_wrB_self _ _ (by decide))

theorem State.flowShown_word {w : Nat} (hw : w < 16) :
    (s.flowShown key r).rd (F.TEL_FLOW_RD_REC_WORD w) = leAt (flowBytes key r) (4 * w) 4 % 2 ^ 32 :=
  State.rd_wrWords _ _ _ flowRdWord_inj hw

theorem State.flowShown_reads : readsOff [.TEL_FLOW_RD_STAT, .TEL_FLOW_RD_REC] s (s.flowShown key r) := by
  intro f hf
  simp only [List.mem_cons, List.not_mem_nil, or_false, not_or] at hf
  obtain ⟨hstat, hrec⟩ := hf
  exact (State.rd_wrWords_ne _ _ _ _ fun _ _ e => hrec (Fld.key_eq.1 e).1).trans (State.rd_wr_of_reg_ne _ _ hstat)

end Show

section Read

variable {s : State} {q : Requester} (hq : s.grants q false = true)
include hq

theorem telFlowRd_none (hnone : s.flowFound = none) :
    Runs (.telFlowRd q) s fun t => t.on F.TEL_FLOW_RD_STAT_FOUND = false ∧ changes [F.TEL_FLOW_RD_STAT_FOUND] s t := by
  have hexec : exec (.telFlowRd q) s = if !s.grants q false then .next s else .next (s.wrB F.TEL_FLOW_RD_STAT_FOUND false) := by
    change execTelFlowRd q s = _
    rw [State.flowFound] at hnone
    simp only [execTelFlowRd, hnone]
  exact .of_granted hq hexec ⟨State.on_wrB_self _ _ (by decide), (changes.refl s).wrB List.mem_cons_self false⟩

theorem telFlowRd_some {r : FlowRec} (hfound : s.flowFound = some r) : Runs (.telFlowRd q) s fun t =>
    t.on F.TEL_FLOW_RD_STAT_FOUND = true ∧ t.tel = s.tel ∧
    (∀ w, w < 16 → t.rd (F.TEL_FLOW_RD_REC_WORD w) = leAt (flowBytes (s.rd F.TEL_FLOW_RD_KEY_KEY) r) (4 * w) 4 % 2 ^ 32) ∧
    readsOff [.TEL_FLOW_RD_STAT, .TEL_FLOW_RD_REC] s t := by
  have hexec : exec (.telFlowRd q) s =
      if !s.grants q false then .next s else .next (s.flowShown (s.rd F.TEL_FLOW_RD_KEY_KEY) r) := by
    change execTelFlowRd q s = _
    rw [State.flowFound] at hfound
    simp only [execTelFlowRd, hfound]
    rfl
  exact .of_granted hq hexec ⟨State.flowShown_found .., State.flowShown_tel .., fun _ => State.flowShown_word _ _ _, State.flowShown_reads _ _ _⟩

end Read

/-! ### The statement -/

/-- Settles O45: each clause is the effect of its command on a frame, a bucket or a record. -/
theorem telemetryExport : Obligations.TelemetryExport := by
  unfold Obligations.TelemetryExport
  refine fun s => ⟨fun c ty => ⟨exportFrameClose_empty, fun f rest hframes => ⟨exportFrameClose_open hframes,
    exportFrameClose_refused hframes, fun hdue => ?_⟩, collectorRefill_early, collectorRefill_due⟩,
    fun die key => ⟨flowSweep_none, fun r hget => ?_⟩, fun q hq rec_ hrec => ?_⟩
  · refine .of_exec (exec_exportFrameClose hframes hdue rfl) ?_
    rintro u rfl a rfl
    rfl
  · rintro idle rfl old rfl
    refine ⟨flowSweep_leaves hget, flowSweep_frees hget, ?_⟩
    rintro n rfl hidle haged e he
    exact ⟨flowSweep_restarts_cached hget hidle haged he, fun hstored st hst o => flowSweep_restarts_stored hget hidle haged he hstored hst⟩
  · subst hrec
    exact ⟨telFlowRd_none hq, fun r => telFlowRd_some hq⟩

end Sys2Proof.Machine
end

section
/-! SUPPORT. Table-entry counters and the tenants' pages of programmable counters (R323, R332). -/

set_option Elab.async false

namespace Sys2Proof.Machine

/-! ### Table-entry counters -/

/-- A row of registers changes nothing else. -/
theorem changes.wrWords {fs : List Fld} {s : State} {g : Nat → Fld} {n : Nat} (v : Nat → Nat) (hg : ∀ k < n, g k ∈ fs) :
    changes fs s (s.wrWords g v n) :=
  List.foldlRecOn (motive := changes fs s) _ _ (changes.refl s) fun _ hu k hk => hu.wr (hg k (List.mem_range.1 hk)) _

/-- The row of CNT_TBL_DATA of pool `k`. -/
def tblData (k w : Nat) : Fld := F.CNT_TBL_DATA_WORD (4 * k + w)

theorem tblData_inj (k a b : Nat) (h : (tblData k a).key = (tblData k b).key) : a = b := by
  obtain ⟨-, hix, -⟩ := Fld.key_eq.1 h
  exact Nat.add_left_cancel hix

/-- The counter that CNT_TBL_TARGET of pool `k` names. -/
def State.tblTarget (s : State) (k : Nat) : Nat := key2 k (key2 (s.rd (F.CNT_TBL_TARGET_TABLE k)) (s.rd (F.CNT_TBL_TARGET_INDEX k)))

section Table

variable (s : State) (k : Nat)

/-- CNT_TBL_DATA shows the counter as one number, its count of packets above the 64 bits of its bytes. -/
theorem State.tblRead_eq_wrWords : s.tblRead k = s.wrWords (tblData k)
    (fun w => bits ((mget s.mat.counts (s.tblTarget k) (0, 0)).1 + (mget s.mat.counts (s.tblTarget k) (0, 0)).2 * 2 ^ 64) (32 * w) 32) 4 := rfl

theorem State.tblRead_mat : (s.tblRead k).mat = s.mat := State.wrWords_mat ..

theorem State.tblRead_changes : changes [F.CNT_TBL_DATA_WORD (4 * k), F.CNT_TBL_DATA_WORD (4 * k + 1), F.CNT_TBL_DATA_WORD (4 * k + 2),
    F.CNT_TBL_DATA_WORD (4 * k + 3)] s (s.tblRead k) := by
  refine changes.wrWords _ fun w hw => ?_
  match w, hw with
  | 0, _ | 1, _ | 2, _ | 3, _ => simp

theorem State.tblRead_word {w : Nat} (hw : w < 4) : (s.tblRead k).rd (tblData k w) =
    bits ((mget s.mat.counts (s.tblTarget k) (0, 0)).1 + (mget s.mat.counts (s.tblTarget k) (0, 0)).2 * 2 ^ 64) (32 * w) 32 :=
  (State.rd_wrWords _ _ _ (tblData_inj k) hw).trans (Nat.mod_mod _ _)

theorem State.tblRead_low :
    (s.tblRead k).rd (F.CNT_TBL_DATA_WORD (4 * k)) = (mget s.mat.counts (s.tblTarget k) (0, 0)).1 % 2 ^ 32 := by
  refine (s.tblRead_word k (w := 0) (by decide)).trans ?_
  unfold bits
  omega

theorem State.tblRead_high : (s.tblRead k).rd (F.CNT_TBL_DATA_WORD (4 * k + 2)) =
    ((mget s.mat.counts (s.tblTarget k) (0, 0)).1 / 2 ^ 64 + (mget s.mat.counts (s.tblTarget k) (0, 0)).2) % 2 ^ 32 := by
  refine (s.tblRead_word k (w := 2) (by decide)).trans ?_
  unfold bits
  omega

/-- The counter that CNT_TBL_TARGET names is cleared (R323). -/
def State.tblCleared (s : State) (k : Nat) : State :=
  (s.tblRead k).updMat fun m => { m with counts := mset m.counts (s.tblTarget k) (0, 0) (0, 0) }

theorem State.tblCleared_counts :
    (s.tblCleared k).mat.counts = mset s.mat.counts (s.tblTarget k) (0, 0) (0, 0) := by
  rw [State.tblCleared, State.updMat_mat, State.tblRead_mat]

theorem State.tblCleared_target : mget (s.tblCleared k).mat.counts (s.tblTarget k) (0, 0) = (0, 0) := by
  rw [State.tblCleared_counts, mget_mset_self]

theorem State.tblCleared_others {j : Nat} (h : j ≠ s.tblTarget k) :
    mget (s.tblCleared k).mat.counts j (0, 0) = mget s.mat.counts j (0, 0) := by
  rw [State.tblCleared_counts, mget_mset_ne _ _ _ _ h]

theorem State.tblCleared_low :
    (s.tblCleared k).rd (F.CNT_TBL_DATA_WORD (4 * k)) = (mget s.mat.counts (s.tblTarget k) (0, 0)).1 % 2 ^ 32 :=
  (State.updMat_rd ..).trans (s.tblRead_low k)

end Table

/-! ### Counters of a tenant -/

section Control

variable (s : State) (n v : Nat)

/-- OVF apart, a write of CNT_CTL leaves each field at its value. -/
theorem State.cntCtl_reads {f : Fld} (h : f.lo ≠ 10) : (s.cntCtl n v).rd f =
    (((((s.wrB (F.CNT_CTL_EN n) (bit v 0)).wrB (F.CNT_CTL_RELOAD n) (bit v 1)).wrB (F.CNT_CTL_INT n) (bit v 2)).wrB
      (F.CNT_CTL_SAMPLE n) (bit v 3)).wr (F.CNT_CTL_RING n) (bits v 4 6)).rd f := by
  unfold State.cntCtl
  dsimp only
  split
  · exact State.rd_wr_of_lo_ne _ _ h
  · rfl

theorem State.cntCtl_en : (s.cntCtl n v).on (F.CNT_CTL_EN n) = bit v 0 := by
  have hother : ∀ (u : State) (g : Fld) (x : Nat), 0 ≠ g.lo → (u.wr g x).rd (F.CNT_CTL_EN n) = u.rd (F.CNT_CTL_EN n) :=
    fun u g x hlo => State.rd_wr_of_lo_ne u x hlo
  refine (State.on_congr ((s.cntCtl_reads n v (show 0 ≠ 10 by decide)).trans ?_)).trans (State.on_wrB_self s _ (show 0 < 1 by decide))
  exact (hother _ _ _ (show 0 ≠ 4 by decide)).trans ((hother _ _ _ (show 0 ≠ 3 by decide)).trans
    ((hother _ _ _ (show 0 ≠ 2 by decide)).trans (hother _ _ _ (show 0 ≠ 1 by decide))))

theorem State.cntCtl_sample : (s.cntCtl n v).on (F.CNT_CTL_SAMPLE n) = bit v 3 :=
  (State.on_congr ((s.cntCtl_reads n v (show 3 ≠ 10 by decide)).trans (State.rd_wr_of_lo_ne _ _ (show 3 ≠ 4 by decide)))).trans
    (State.on_wrB_self _ _ (show 0 < 1 by decide))

theorem State.cntCtl_ring : (s.cntCtl n v).rd (F.CNT_CTL_RING n) = bits v 4 6 :=
  (s.cntCtl_reads n v (show 4 ≠ 10 by decide)).trans ((State.rd_wr_self ..).trans (Nat.mod_mod ..))

theorem State.cntCtl_readsOff : readsOff [.CNT_CTL] s (s.cntCtl n v) := by
  have hset := (((((readsOff.refl (rs := [.CNT_CTL]) s).wr (f := F.CNT_CTL_EN n) (.head _) (if bit v 0 then 1 else 0)).wr
    (f := F.CNT_CTL_RELOAD n) (.head _) (if bit v 1 then 1 else 0)).wr (f := F.CNT_CTL_INT n) (.head _) (if bit v 2 then 1 else 0)).wr
    (f := F.CNT_CTL_SAMPLE n) (.head _) (if bit v 3 then 1 else 0)).wr (f := F.CNT_CTL_RING n) (.head _) (bits v 4 6)
  unfold State.cntCtl
  exact .ite (hset.wr (f := F.CNT_CTL_OVF n) (.head _) 0) hset

end Control

section Tenant

variable {s : State} {f : Fin 32} {n : Fin 1088} {v : BitVec 32}

/-- PF0 and a function without the page write nothing here (R332). -/
theorem cntCtlVfWrite_ignored (h : f.val = 0 ∨ s.pageOf f (n / 16) = false) : Runs (.cntCtlVfWrite f n v) s fun t => t = s := by
  have hexec : exec (.cntCtlVfWrite f n v) s = .next s := congrArg Host.Outcome.next (if_pos (by simpa using h))
  exact .of_exec hexec rfl

variable (hvf : f.val ≠ 0) (hpage : s.pageOf f (n / 16) = true)
include hvf hpage

theorem exec_cntCtlVfWrite : exec (.cntCtlVfWrite f n v) s = .next (
    if !bit v.toNat 3 || s.rd (F.HARB_RX_CFG_OWNER (bits v.toNat 4 6)) = f then s.cntCtl n v.toNat else s.locked (.vf f) .CNT_CTL n 1) :=
  congrArg Host.Outcome.next (if_neg (by simp [hvf, hpage]))

/-- A VF's write that samples to no other function's ring takes effect (R332). -/
theorem cntCtlVfWrite_takes (hring : bit v.toNat 3 = false ∨ s.rd (F.HARB_RX_CFG_OWNER (bits v.toNat 4 6)) = f) :
    Runs (.cntCtlVfWrite f n v) s fun t => t.on (F.CNT_CTL_EN n) = bit v.toNat 0 ∧ t.on (F.CNT_CTL_SAMPLE n) = bit v.toNat 3 ∧
      t.rd (F.CNT_CTL_RING n) = bits v.toNat 4 6 ∧ readsOff [.CNT_CTL] s t := by
  refine .of_exec (exec_cntCtlVfWrite hvf hpage) ?_
  rw [if_pos (by simpa using hring)]
  exact ⟨State.cntCtl_en .., State.cntCtl_sample .., State.cntCtl_ring .., State.cntCtl_readsOff _ _ _⟩

/-- A write that samples to another function's ring is discarded whole (R332). -/
theorem cntCtlVfWrite_discarded (hsample : bit v.toNat 3 = true) (hring : s.rd (F.HARB_RX_CFG_OWNER (bits v.toNat 4 6)) ≠ f) :
    Runs (.cntCtlVfWrite f n v) s (discarded (.vf f) (regAddr .CNT_CTL n) 1 0 s) := by
  refine .of_exec (exec_cntCtlVfWrite hvf hpage) ?_
  rw [if_neg (by simp [hsample, hring])]
  exact State.discard_discarded ..

end Tenant

/-! ### Pages of a tenant -/

/-- Taking away a power of two that is there clears its bit and no other. -/
theorem testBit_sub_two_pow {x i : Nat} (h : x.testBit i = true) (j : Nat) : (x - 2 ^ i).testBit j = (x.testBit j && decide (j ≠ i)) := by
  have hlow : x % 2 ^ i < 2 ^ i := Nat.mod_lt _ (Nat.two_pow_pos i)
  have hodd : x / 2 ^ i % 2 = 1 := by simpa [Nat.testBit_eq_decide_div_mod_eq] using h
  obtain ⟨c, hc⟩ : ∃ c, x / 2 ^ i = 2 ^ 1 * c + 1 := ⟨x / 2 ^ i / 2, by omega⟩
  have hx : x = 2 ^ i * (2 ^ 1 * c + 1) + x % 2 ^ i := by rw [← hc, Nat.div_add_mod]
  have hsub : x - 2 ^ i = 2 ^ i * (2 ^ 1 * c) + x % 2 ^ i := by
    rw [Nat.mul_succ] at hx
    omega
  rw [hsub, Nat.testBit_two_pow_mul_add _ hlow]
  conv_rhs => rw [hx, Nat.testBit_two_pow_mul_add _ hlow]
  rcases Nat.lt_trichotomy j i with hlt | rfl | hgt
  · simp [hlt, hlt.ne]
  · simp
  · obtain ⟨d, rfl⟩ : ∃ d, j = i + (d + 1) := ⟨j - i - 1, by omega⟩
    simp [Nat.testBit_succ, Nat.mul_add_div]

/-- Clearing a bit leaves the others. -/
theorem bit_setBit_false (x e j : Nat) : bit (setBit x e false) j = (bit x j && decide (j ≠ e)) := by
  unfold setBit bit
  rw [if_neg Bool.false_ne_true]
  split
  · next h => exact testBit_sub_two_pow h j
  · next h =>
    by_cases hj : j = e
    · simp [hj, h]
    · simp [hj]

/-- Clearing the bits of a list. -/
theorem bit_foldl_setBit_false (l : List Nat) (x j : Nat) :
    bit (l.foldl (fun a b => setBit a b false) x) j = (bit x j && decide (j ∉ l)) := by
  induction l generalizing x with
  | nil => simp
  | cons e l ih => simp [ih, bit_setBit_false, Bool.and_assoc]

/-- Another VF holds page `b` of word `w` (R332). -/
def State.pageHeld (s : State) (f w b : Nat) : Bool :=
  (List.range 32).any fun g => g ≠ 0 && g ≠ f && bit (s.rd (F.CNT_USER_PAGES_MASK (3 * g + w))) b

/-- The pages of word `w` that are asked for and that another VF holds. -/
def State.pagesTaken (s : State) (f w want : Nat) : List Nat := (List.range 32).filter fun b => bit want b && s.pageHeld f w b

/-- What is left of the pages asked for. -/
def State.pagesLeft (s : State) (f w want : Nat) : Nat := (s.pagesTaken f w want).foldl (fun a b => setBit a b false) want

/-- A page that another VF holds is not given (R332). -/
theorem State.bit_pagesLeft (s : State) (f w want : Nat) {b : Nat} (hb : b < 32) :
    bit (s.pagesLeft f w want) b = (bit want b && !s.pageHeld f w b) := by
  have htaken : (b ∈ s.pagesTaken f w want) = (bit want b = true ∧ s.pageHeld f w b = true) := by
    simp [State.pagesTaken, hb]
  rw [State.pagesLeft, bit_foldl_setBit_false]
  simp only [htaken]
  cases bit want b <;> simp

/-- The pages that word `w` of a mask can name: the third word has four. -/
def pagesAsked (w v : Nat) : Nat := if w = 2 then v % 16 else v

theorem bit_pagesAsked {w b : Nat} (v : Nat) (h : w < 2 ∨ b < 4) : bit (pagesAsked w v) b = bit v b := by
  unfold pagesAsked
  split
  · exact bit_mod v 4 b (by omega)
  · rfl

/-- CNT_USER_PAGES takes the pages that no other VF holds (R332). -/
theorem cntUserPagesWrite_gives {s : State} {q : Requester} {f : Fin 32} {w : Fin 3} {v : BitVec 32} (hq : s.grants q false = true)
    (heth : viaEth q = false) (hvf : f.val ≠ 0) : Runs (.cntUserPagesWrite q f w v) s fun t =>
      ∀ b, b < 32 → w.val < 2 ∨ b < 4 →
        bit (t.rd (F.CNT_USER_PAGES_MASK (3 * f.val + w.val))) b = (bit v.toNat b && !s.pageHeld f w b) := by
  have hexec : exec (.cntUserPagesWrite q f w v) s = .next (
      if (s.pagesTaken f w (pagesAsked w v.toNat)).isEmpty then
        s.wr (F.CNT_USER_PAGES_MASK (3 * f.val + w.val)) (s.pagesLeft f w (pagesAsked w v.toNat))
      else (s.wr (F.CNT_USER_PAGES_MASK (3 * f.val + w.val)) (s.pagesLeft f w (pagesAsked w v.toNat))).locked q .CNT_USER_PAGES
        (3 * f.val + w.val) 1) :=
    (if_neg (by simp [hq, heth])).trans (congrArg Host.Outcome.next (if_neg hvf))
  refine .of_exec hexec fun b hb hpage => ?_
  have hleft : bit (s.pagesLeft f w (pagesAsked w v.toNat) % 2 ^ 32) b = (bit v.toNat b && !s.pageHeld f w b) := by
    rw [bit_mod _ _ _ hb, State.bit_pagesLeft _ _ _ _ hb, bit_pagesAsked _ hpage]
  have hlocked : RegName.CNT_USER_PAGES ∉ discardFields.map Fld.reg := by decide
  split
  · exact (congrArg (bit · b) (State.rd_wr_self ..)).trans hleft
  · exact (congrArg (bit · b) ((State.locked_reads hlocked).trans (State.rd_wr_self ..))).trans hleft

end Sys2Proof.Machine
end

section
/-! SUPPORT. Dump edges and the end of a dump's writes (R328 to R331), and the statement of the counters and their dumps. -/

set_option Elab.async false

namespace Sys2Proof.Machine

/-! ### An edge -/

/-- The edge has its number (R328). -/
def State.dumpNext (s : State) : State := s.wr F.CNT_DUMP_SEQ_SEQ (s.rd F.CNT_DUMP_SEQ_SEQ + 1)

/-- An edge finds no slot: a dump is being written, or its ring is full (R330). -/
def State.dumpFull (s : State) : Bool :=
  s.dump.isSome || (s.rd F.CNT_DUMP_PROD_PROD + 1) % s.rd F.CNT_DUMP_RING_SLOTS = s.rd F.CNT_DUMP_CONS_CONS % s.rd F.CNT_DUMP_RING_SLOTS

/-- A slot holds the selected sets (R330). -/
def State.dumpFits (s : State) : Bool := Decidable.decide (dumpLength (s.rd F.CNT_DUMP_CFG_SETS) ≤ s.rd F.CNT_DUMP_RING_SLOT_KIB * 1024)

/-- An edge that is skipped is counted (R330). -/
def State.dumpSkipped (s : State) : State := { s.satAdd F.CNT_DUMP_STATUS_MISSED 1 with dumpMissed := true }.raise .cnt 0 2

/-- A slot that is too small shows in CFG_ERR (R330). -/
def State.dumpRefused (s : State) : State := (s.wrB F.CNT_DUMP_STATUS_CFG_ERR true).raise .cnt 0 3

/-- The dump `d` of the edge is being written (R329). -/
def State.dumpStarted (s : State) (d : DumpRec) : State :=
  { s with dump := some d, dumpStep := false, dumpMissed := false, histDump := [] }.wrB F.CNT_DUMP_STATUS_BUSY true

section Edge

variable (s : State)

/-- The number alone changes. -/
theorem State.dumpNext_rd {f : Fld} (h : f.reg ≠ .CNT_DUMP_SEQ) : s.dumpNext.rd f = s.rd f := State.rd_wr_of_reg_ne _ _ h

theorem State.dumpNext_full : s.dumpNext.dumpFull = s.dumpFull := by
  simp only [State.dumpFull, s.dumpNext_rd (f := F.CNT_DUMP_PROD_PROD) (by decide), s.dumpNext_rd (f := F.CNT_DUMP_RING_SLOTS) (by decide),
    s.dumpNext_rd (f := F.CNT_DUMP_CONS_CONS) (by decide)]
  rfl

theorem State.dumpNext_fits : s.dumpNext.dumpFits = s.dumpFits := by
  simp only [State.dumpFits, s.dumpNext_rd (f := F.CNT_DUMP_CFG_SETS) (by decide), s.dumpNext_rd (f := F.CNT_DUMP_RING_SLOT_KIB) (by decide)]

theorem State.dumpNext_seq : s.dumpNext.rd F.CNT_DUMP_SEQ_SEQ = (s.rd F.CNT_DUMP_SEQ_SEQ + 1) % 2 ^ F.CNT_DUMP_SEQ_SEQ.width :=
  State.rd_wr_self ..

theorem State.dumpSkipped_seq : s.dumpSkipped.rd F.CNT_DUMP_SEQ_SEQ = s.rd F.CNT_DUMP_SEQ_SEQ :=
  (State.rd_raise_ne _ _ _ _ (by decide)).trans (State.rd_wr_ne s _ (by decide))

theorem State.dumpSkipped_missed : s.dumpSkipped.rd F.CNT_DUMP_STATUS_MISSED =
    min (s.rd F.CNT_DUMP_STATUS_MISSED + 1) (2 ^ F.CNT_DUMP_STATUS_MISSED.width - 1) :=
  (State.rd_raise_ne _ _ _ _ (by decide)).trans (State.rd_satAdd_self s _ 1)

theorem State.dumpRefused_seq : s.dumpRefused.rd F.CNT_DUMP_SEQ_SEQ = s.rd F.CNT_DUMP_SEQ_SEQ :=
  (State.rd_raise_ne _ _ _ _ (by decide)).trans (State.rd_wr_ne s _ (by decide))

theorem State.dumpRefused_error : s.dumpRefused.on F.CNT_DUMP_STATUS_CFG_ERR = true :=
  (State.on_congr (State.rd_raise_ne _ _ _ _ (by decide))).trans (State.on_wrB_self _ _ (by decide))

theorem State.dumpStarted_seq (d : DumpRec) : (s.dumpStarted d).rd F.CNT_DUMP_SEQ_SEQ = s.rd F.CNT_DUMP_SEQ_SEQ :=
  State.rd_wr_ne _ _ (by decide)

theorem State.dumpStarted_busy (d : DumpRec) : (s.dumpStarted d).on F.CNT_DUMP_STATUS_BUSY = true := State.on_wrB_self _ _ (by decide)

variable {s} (src1 : Bool)

theorem State.dumpEdge_full (hfull : s.dumpFull = true) : s.dumpEdge src1 = s.dumpNext.dumpSkipped :=
  if_pos (s.dumpNext_full.trans hfull)

variable (hfull : s.dumpFull = false)
include hfull

theorem State.dumpEdge_small (hfits : s.dumpFits = false) : s.dumpEdge src1 = s.dumpNext.dumpRefused := by
  have hfree : ¬ s.dumpNext.dumpFull = true := by rw [s.dumpNext_full, hfull]; nofun
  have hsmall := of_decide_eq_false (s.dumpNext_fits.trans hfits)
  exact (if_neg hfree).trans (if_pos (Nat.lt_of_not_le hsmall))

/-- An edge that finds room latches the selected sets with its number and its time (R328, R329, R331). -/
theorem State.dumpEdge_latches (hfits : s.dumpFits = true) : ∃ d : DumpRec, s.dumpEdge src1 = s.dumpNext.dumpStarted d ∧
    (d.seq, d.sets, d.ticks, d.sec, d.ns) = (s.rd F.CNT_DUMP_SEQ_SEQ + 1, s.rd F.CNT_DUMP_CFG_SETS, s.now, s.domA.sec, s.domA.ns) := by
  have hfree : ¬ s.dumpNext.dumpFull = true := by rw [s.dumpNext_full, hfull]; nofun
  have hroom := of_decide_eq_true (s.dumpNext_fits.trans hfits)
  have hsets : s.dumpNext.rd F.CNT_DUMP_CFG_SETS = s.rd F.CNT_DUMP_CFG_SETS := s.dumpNext_rd (by decide)
  have hticks : s.dumpNext.now = s.now := s.dumpNext_rd (by decide)
  refine ⟨_, (if_neg hfree).trans (if_neg (Nat.not_lt.2 hroom)), ?_⟩
  rw [← hsets, ← hticks]
  rfl

end Edge

/-! ### DUMP_EDGE -/

section Period

variable {s : State}

/-- Without EN, or with another source, the period has no edges (R328). -/
theorem dumpEdge_off (h : s.on F.CNT_DUMP_CFG_EN = false ∨ s.on F.CNT_DUMP_CFG_SOURCE = true) : Runs .dumpEdge s fun t => t = s := by
  have hoff : ∀ hit : Bool, ¬ (s.on F.CNT_DUMP_CFG_EN && !s.on F.CNT_DUMP_CFG_SOURCE && hit) = true := fun hit => by
    rcases h with h | h <;> simp [h]
  have hexec : exec .dumpEdge s = .next s := congrArg Host.Outcome.next (if_neg (hoff _))
  exact .of_exec hexec rfl

variable (hen : s.on F.CNT_DUMP_CFG_EN = true) (hsource : s.on F.CNT_DUMP_CFG_SOURCE = false) (halign : s.on F.CNT_DUMP_CFG_ALIGN = false)
include hen hsource halign

/-- Edges that are not aligned come a period after the last one, or after EN (R328). -/
theorem exec_dumpEdge : exec .dumpEdge s = .next (
    if s.now - max s.dumpFrom (s.ranAt .dump 0) ≥ s.dumpPeriod * 160000 then (s.ran .dump 0 s.now).dumpEdge false else s) := by
  change execDumpEdge s = _
  simp only [execDumpEdge, hen, hsource, halign, Bool.not_false, Bool.and_self, Bool.true_and, Bool.false_eq_true, if_false, decide_eq_true_eq]

theorem dumpEdge_early (h : s.now - max s.dumpFrom (s.ranAt .dump 0) < s.dumpPeriod * 160000) : Runs .dumpEdge s fun t => t = s :=
  .of_exec (exec_dumpEdge hen hsource halign) (if_neg (Nat.not_le.2 h))

/-- A due edge takes its number, and is skipped, refused or latched (R328 to R331). -/
theorem dumpEdge_due (h : s.dumpPeriod * 160000 ≤ s.now - max s.dumpFrom (s.ranAt .dump 0)) : Runs .dumpEdge s fun t =>
    t = (s.ran .dump 0 s.now).dumpEdge false ∧
    t.rd F.CNT_DUMP_SEQ_SEQ = (s.rd F.CNT_DUMP_SEQ_SEQ + 1) % 2 ^ F.CNT_DUMP_SEQ_SEQ.width ∧
    (s.dumpFull = true → t.dump = s.dump ∧ t.intBit .cnt 0 2 = true ∧
      t.rd F.CNT_DUMP_STATUS_MISSED = min (s.rd F.CNT_DUMP_STATUS_MISSED + 1) (2 ^ F.CNT_DUMP_STATUS_MISSED.width - 1)) ∧
    (s.dumpFull = false → s.dumpFits = false →
      t.dump = none ∧ t.on F.CNT_DUMP_STATUS_CFG_ERR = true ∧ t.intBit .cnt 0 3 = true) ∧
    (s.dumpFull = false → s.dumpFits = true → t.on F.CNT_DUMP_STATUS_BUSY = true ∧
      t.dump.map (fun d => (d.seq, d.sets, d.ticks, d.sec, d.ns)) =
        some (s.rd F.CNT_DUMP_SEQ_SEQ + 1, s.rd F.CNT_DUMP_CFG_SETS, s.now, s.domA.sec, s.domA.ns)) := by
  refine .of_exec ((exec_dumpEdge hen hsource halign).trans (congrArg _ (if_pos h))) ⟨rfl, ?_⟩
  generalize hu : s.ran .dump 0 s.now = u
  have hseq : u.rd F.CNT_DUMP_SEQ_SEQ = s.rd F.CNT_DUMP_SEQ_SEQ := hu ▸ rfl
  have hnext : u.dumpNext.rd F.CNT_DUMP_SEQ_SEQ = (s.rd F.CNT_DUMP_SEQ_SEQ + 1) % 2 ^ F.CNT_DUMP_SEQ_SEQ.width := hseq ▸ u.dumpNext_seq
  have hfull : u.dumpFull = s.dumpFull := hu ▸ rfl
  have hfits : u.dumpFits = s.dumpFits := hu ▸ rfl
  have hdump : u.dump = s.dump := hu ▸ rfl
  have hmissed : u.dumpNext.rd F.CNT_DUMP_STATUS_MISSED = s.rd F.CNT_DUMP_STATUS_MISSED := (u.dumpNext_rd (by decide)).trans (hu ▸ rfl)
  rw [← hfull, ← hfits]
  cases hf : u.dumpFull with
  | true =>
    rw [State.dumpEdge_full false hf]
    refine ⟨u.dumpNext.dumpSkipped_seq.trans hnext, fun _ => ⟨?_, State.intBit_raise_self _ _ _ _ (by decide), ?_⟩, nofun, nofun⟩
    · exact (State.raise_dump ..).trans hdump
    · rw [State.dumpSkipped_missed, hmissed]
  | false =>
    cases hg : u.dumpFits with
    | false =>
      have hnone : u.dump = none := by simpa using (Bool.or_eq_false_iff.1 hf).1
      rw [State.dumpEdge_small false hf hg]
      exact ⟨u.dumpNext.dumpRefused_seq.trans hnext, nofun, fun _ _ => ⟨(State.raise_dump ..).trans hnone, u.dumpNext.dumpRefused_error,
        State.intBit_raise_self _ _ _ _ (by decide)⟩, nofun⟩
    | true =>
      obtain ⟨d, hd, hrec⟩ := State.dumpEdge_latches false hf hg
      have hshown : some (d.seq, d.sets, d.ticks, d.sec, d.ns) =
          some (s.rd F.CNT_DUMP_SEQ_SEQ + 1, s.rd F.CNT_DUMP_CFG_SETS, s.now, s.domA.sec, s.domA.ns) :=
        congrArg some (hrec.trans (hu ▸ rfl))
      rw [hd]
      exact ⟨(u.dumpNext.dumpStarted_seq d).trans hnext, nofun, nofun, fun _ _ => ⟨u.dumpNext.dumpStarted_busy d, hshown⟩⟩

end Period

/-! ### DUMP_WRITE_DONE -/

/-- The offset of the ring's next slot (R330). -/
def State.dumpOffset (s : State) : Nat :=
  s.rd F.CNT_DUMP_PROD_PROD % max 1 (s.rd F.CNT_DUMP_RING_SLOTS) * (s.rd F.CNT_DUMP_RING_SLOT_KIB * 1024)

/-- The snapshot stands in the next slot of its ring, in HBM or in host memory (R330). -/
def State.dumpStored (s : State) (d : DumpRec) : State :=
  if s.on F.CNT_DUMP_CFG_TARGET then
    if s.rd F.CNT_DUMP_CFG_STACK < 6 then
      s.hbmWrite (s.rd F.CNT_DUMP_CFG_STACK) (s.rd (F.BPM_REGION_BASE (10 * s.rd F.CNT_DUMP_CFG_STACK + 9)) * 2 ^ 20 + s.dumpOffset) d.bytes
    else s
  else s.emit (.hostWrite 0 (s.rd F.CNT_DUMP_BASE_BASE + s.dumpOffset) d.bytes)

/-- The dump is over, and PROD stands at `p` (R330). -/
def State.dumpOver (s : State) (p : Nat) : State := ({ s with dump := none }.wrB F.CNT_DUMP_STATUS_BUSY false).wr F.CNT_DUMP_PROD_PROD p

/-- Where INT asks for it, the end of a dump is an event (R330). -/
def State.dumpTold (s : State) : State := if s.on F.CNT_DUMP_CFG_INT then s.raise .cnt 0 1 else s

section Done

variable (s : State)

theorem State.dumpStored_rd (d : DumpRec) (f : Fld) : (s.dumpStored d).rd f = s.rd f := by
  unfold State.dumpStored
  split
  · split
    · exact State.hbmWrite_rd ..
    · rfl
  · exact State.emit_rd ..

theorem State.dumpOver_busy (p : Nat) : (s.dumpOver p).on F.CNT_DUMP_STATUS_BUSY = false :=
  (State.on_congr (State.rd_wr_ne _ _ (by decide))).trans (State.on_wrB_self _ _ (by decide))

theorem State.dumpOver_prod (p : Nat) : (s.dumpOver p).rd F.CNT_DUMP_PROD_PROD = p % 2 ^ F.CNT_DUMP_PROD_PROD.width := State.rd_wr_self ..

theorem State.dumpOver_int (p : Nat) : (s.dumpOver p).on F.CNT_DUMP_CFG_INT = s.on F.CNT_DUMP_CFG_INT :=
  State.on_congr ((State.rd_wr_ne _ _ (by decide)).trans (State.rd_wr_ne { s with dump := none } _ (by decide)))

theorem State.dumpTold_signals : signals [F.CNT_INT_STATUS_BITS] s s.dumpTold := by
  unfold State.dumpTold
  split
  · exact (signals.refl s).raise (b := .cnt) (i := 0) List.mem_cons_self 1
  · exact .refl s

theorem State.dumpTold_intBit (h : s.on F.CNT_DUMP_CFG_INT = true) : s.dumpTold.intBit .cnt 0 1 = true := by
  rw [State.dumpTold, if_pos h]
  exact State.intBit_raise_self _ _ _ _ (by decide)

variable {s}

theorem dumpWriteDone_none (hnone : s.dump = none) : Runs .dumpWriteDone s fun t => t = s := by
  refine .of_exec (t := s) ?_ rfl
  change execDumpWriteDone s = _
  simp only [execDumpWriteDone, hnone]

variable {d : DumpRec} (hdump : s.dump = some d)
include hdump

theorem exec_dumpWriteDone : exec .dumpWriteDone s =
    .next ((s.dumpStored d).dumpOver ((s.rd F.CNT_DUMP_PROD_PROD + 1) % max 1 (s.rd F.CNT_DUMP_RING_SLOTS))).dumpTold := by
  change execDumpWriteDone s = _
  simp only [execDumpWriteDone, hdump]
  rfl

/-- A dump that has been written gives its slot to the host: PROD advances (R330). -/
theorem dumpWriteDone_advances : Runs .dumpWriteDone s fun t =>
    t.dump = none ∧ t.on F.CNT_DUMP_STATUS_BUSY = false ∧
    t.rd F.CNT_DUMP_PROD_PROD = (s.rd F.CNT_DUMP_PROD_PROD + 1) % max 1 (s.rd F.CNT_DUMP_RING_SLOTS) % 2 ^ F.CNT_DUMP_PROD_PROD.width ∧
    (s.on F.CNT_DUMP_CFG_TARGET = false → t.hbm = s.hbm ∧
      Out.hostWrite 0 (s.rd F.CNT_DUMP_BASE_BASE + s.dumpOffset) d.bytes ∈ t.out) ∧
    (s.on F.CNT_DUMP_CFG_INT = true → t.intBit .cnt 0 1 = true) := by
  refine .of_exec (exec_dumpWriteDone hdump) ?_
  generalize (s.rd F.CNT_DUMP_PROD_PROD + 1) % max 1 (s.rd F.CNT_DUMP_RING_SLOTS) = p
  obtain ⟨hreads, hrest, l, hout, -⟩ := State.dumpTold_signals ((s.dumpStored d).dumpOver p)
  refine ⟨(congrArg State.dump hrest :), ?_, ?_, fun htarget => ?_, fun hint => ?_⟩
  · exact (State.on_congr (hreads _ (by decide))).trans (State.dumpOver_busy ..)
  · exact (hreads _ (by decide)).trans (State.dumpOver_prod ..)
  · have hhost : s.dumpStored d = s.emit (.hostWrite 0 (s.rd F.CNT_DUMP_BASE_BASE + s.dumpOffset) d.bytes) := if_neg (by simp [htarget])
    rw [hhost] at hrest hout ⊢
    exact ⟨(congrArg State.hbm hrest :), hout ▸ List.mem_append_right _ List.mem_cons_self⟩
  · exact State.dumpTold_intBit _ ((State.dumpOver_int ..).trans ((State.on_congr (State.dumpStored_rd ..)).trans hint))

end Done

/-! ### The statement -/

/-- Settles O46: each clause is the effect of its command on a counter, a page or a dump. -/
theorem countersAndDumps : Obligations.CountersAndDumps := by
  unfold Obligations.CountersAndDumps
  refine fun s => ⟨?_, fun f n v => ⟨cntCtlVfWrite_ignored, cntCtlVfWrite_takes, cntCtlVfWrite_discarded⟩,
    fun q f w v => cntUserPagesWrite_gives, dumpEdge_off, fun hen hsource halign => ⟨dumpEdge_early hen hsource halign, fun hdue => ?_⟩,
    dumpWriteDone_none, fun d => dumpWriteDone_advances⟩
  · rintro q i d hq _ rfl _ rfl _ rfl
    exact ⟨.of_granted hq rfl ⟨State.tblRead_mat .., State.tblRead_low .., State.tblRead_high .., State.tblRead_changes ..⟩,
      .of_granted hq rfl ⟨State.tblCleared_target .., fun j => State.tblCleared_others _ _, State.tblCleared_low ..⟩⟩
  · obtain ⟨t, ht, hedge, hseq, hcases⟩ := dumpEdge_due hen hsource halign hdue
    refine .of_exec ht ⟨hedge, hseq, ?_⟩
    rintro full rfl fits rfl
    exact hcases

end Sys2Proof.Machine
end

section
/-! SUPPORT. What every command and every step keep: each meaning completes, the queue is first in first out, and the fuses and HBM keep
their invariants (R396, R399); and the commands of requesters that reach no register (R403, R413, R431). -/

set_option Elab.async false

namespace Sys2Proof.Machine

/-! ### Every command completes -/

theorem outcome_ite (b : Bool) (s t : State) :
    ∃ u, (if b then Host.Outcome.next s else .next t : Result) = .next u := by
  cases b
  · exact ⟨t, rfl⟩
  · exact ⟨s, rfl⟩

/-- Every meaning answers a next state: the writes of registers first ask whether the requester reaches the register (R403, R413), every
other meaning answers at once. -/
theorem exec_completes (c : Instr) (s : State) : ∃ t, exec c s = .next t := by
  cases c
  case bootPcieGo | clkSwitch | clkRefWrite | testSave | pwrModeWrite | pwrSaveWrite | mcTsetWrite | laneBitslip | lightStepGo |
    lightReqAcquire | lightReqLocked | lightReqFree | lightRateAdjWrite | lightIncrWrite | lightModeWrite | tsfPop | ppeBankSwitch |
    clsWriteData | clsSetValid | clsClearValid | clsWriteAction | clsRead | mtrWrite | mtrWriteKeep | mtrRead | portCtlEnable |
    pipePortLiveWrite | spareModeWrite | dbgArmWrite | rasTmFire | telFlowRd | cntTblRead | cntTblReadClear | cntUserPagesWrite |
    gateConfigChange | gateCancel => exact outcome_ite _ s _
  all_goals exact ⟨_, rfl⟩

/-- A step from a state with a command at the front runs the command, which keeps the queue, the fuses and HBM. -/
theorem keeps_of_stepsTo {s t : State} {c : Instr} {rest : List Instr} (hfront : s.pending = c :: rest) (hst : stepsTo s t) :
    State.Keeps false false { s with pending := rest } t :=
  (exec_keeping c _ t (exec_of_stepsTo hfront hst)).weak

/-- Every step keeps the fuses and HBM as `Keeps` says. -/
theorem fuses_hbm_of_stepsTo {s t : State} (hst : stepsTo s t) :
    fusesGrow s.fuses t.fuses ∧ (fusesLegal s.fuses → fusesLegal t.fuses) ∧ (Memory.wf s.hbm → Memory.wf t.hbm) := by
  cases hfront : s.pending with
  | nil =>
    unfold stepsTo step at hst
    rw [hfront] at hst
    cases hst
    exact ⟨fusesGrow.refl _, id, id⟩
  | cons c rest =>
    obtain ⟨-, -, -, hgrow, hlegal, hwf⟩ := keeps_of_stepsTo hfront hst
    exact ⟨hgrow, hlegal, hwf⟩

/-- Settles O3: each meaning answers a next state, and keeps the queue. -/
theorem everyCommandCompletes : Obligations.EveryCommandCompletes := fun c s => by
  obtain ⟨t, ht⟩ := exec_completes c s
  exact .of_exec ht (exec_keeping c s t ht).pending

/-- Settles O1: by the definition of a step. -/
theorem stepRunsFront : Obligations.StepRunsFront := fun s c rest hfront => by
  unfold step
  rw [hfront]

/-- Settles O2: a step on an empty queue idles, and the command that a step runs leaves the queue's rest. -/
theorem queueOrder : Obligations.QueueOrder := by
  refine ⟨fun s hempty => ?_, fun s t c rest hfront hst => (keeps_of_stepsTo hfront hst).pending⟩
  unfold step
  rw [hempty]

/-- Settles O4: what a step keeps of the fuses and of HBM. -/
theorem invariantKept : Obligations.InvariantKept := fun s t hinv hst => by
  obtain ⟨hfuses, hhbm⟩ := hinv
  obtain ⟨-, hlegal, hwf⟩ := fuses_hbm_of_stepsTo hst
  exact ⟨hlegal hfuses, hwf hhbm⟩

/-- Settles O6: what a step keeps of the fuses. -/
theorem fusesNeverUndone : Obligations.FusesNeverUndone := fun _ _ hst => (fuses_hbm_of_stepsTo hst).1

/-- Blank fuses are legal (R396, R399). -/
theorem fusesLegal_blank : fusesLegal ({} : Fuses) := ⟨Nat.zero_le _, by simp, by simp⟩

/-- Settles O5: the fields of the reset state as they stand. -/
theorem resetState : Obligations.ResetState :=
  ⟨⟨fusesLegal_blank, Memory.wf_nil⟩, rfl, rfl, rfl, rfl, rfl, rfl, by decide, fun _ => rfl⟩

/-! ### Requesters that reach no register -/

/-- A command that the guard of its meaning refuses leaves the state as it is. -/
theorem Runs.of_refused {c : Instr} {s : State} {r : Result} {guard : Bool} (hguard : guard = true)
    (hexec : exec c s = if guard then .next s else r) : Runs c s fun t => t = s :=
  .of_exec (hexec.trans (if_pos hguard)) rfl

/-- Settles O8: each of these commands asks first whether its requester reaches the register, and two of them whether it is a management
port. -/
theorem deniedRequests : Obligations.DeniedRequests := by
  refine fun s q => ⟨fun h => ?_, fun h => ?_⟩
  · have hdenied : (!s.grants q true) = true := by rw [h]; rfl
    have heither : (!s.grants q true || viaEth q) = true := by rw [hdenied]; rfl
    exact ⟨.of_refused heither rfl, .of_refused hdenied rfl, fun _ _ => .of_refused hdenied rfl, .of_refused hdenied rfl,
      fun _ => .of_refused hdenied rfl, fun _ => .of_refused hdenied rfl⟩
  · have hdenied : (!s.grants q false) = true := by rw [h]; rfl
    have heither : (!s.grants q false || viaEth q) = true := by rw [hdenied]; rfl
    refine ⟨?_, ?_, ?_, ?_, ?_, ?_, ?_, ?_, ?_, ?_, ?_, ?_, ?_, ?_, ?_, ?_, ?_, ?_, ?_, ?_, ?_, ?_, ?_, ?_, ?_, ?_, ?_, fun _ _ _ =>
      .of_refused heither rfl, ?_, ?_⟩
    all_goals intros; exact .of_refused hdenied rfl

end Sys2Proof.Machine
end

section
/-! SUPPORT. Accesses to registers (R463 to R467): a host's write that reaches a register, and the statements on interrupts and on reads and
writes of whole registers. -/

set_option Elab.async false

namespace Sys2Proof.Machine

/-! ### The interrupt registers (R475, R476) -/

/-- A sum of flags, each in its own bit, is below the next power of two. -/
theorem foldl_flagAt_lt (c : Nat → Bool) (n : Nat) : (List.range n).foldl (fun a b => a + flagAt (c b) b) 0 < 2 ^ n := by
  induction n with
  | zero => exact Nat.one_pos
  | succ n ih =>
    have hflag : flagAt (c n) n ≤ 2 ^ n := by
      unfold flagAt
      split
      · exact le_rfl
      · exact Nat.zero_le _
    rw [List.range_succ, List.foldl_append, List.foldl_cons, List.foldl_nil, Nat.pow_succ]
    omega

/-- A sum of flags has each flag in its bit. -/
theorem bit_foldl_flagAt (c : Nat → Bool) (n : Nat) {j : Nat} (hj : j < n) :
    bit ((List.range n).foldl (fun a b => a + flagAt (c b) b) 0) j = c j := by
  induction n with
  | zero => exact absurd hj (Nat.not_lt_zero j)
  | succ n ih =>
    have hlt := foldl_flagAt_lt c n
    rw [List.range_succ, List.foldl_append, List.foldl_cons, List.foldl_nil]
    generalize (List.range n).foldl (fun a b => a + flagAt (c b) b) 0 = x at ih hlt ⊢
    unfold bit at ih ⊢
    rcases Nat.lt_succ_iff_lt_or_eq.1 hj with hlow | rfl
    · rw [← ih hlow]
      cases hc : c n
      · rfl
      · rw [flagAt, if_pos rfl, Nat.add_comm, Nat.testBit_two_pow_add_gt hlow]
    · cases hc : c j
      · exact Nat.testBit_lt_two_pow hlt
      · rw [flagAt, if_pos rfl, Nat.add_comm, Nat.testBit_two_pow_add_eq, Nat.testBit_lt_two_pow hlt]
        rfl

/-- Bit `b` of CHIP_INT_ISL is the pending condition of a sub-block of an island (R476). -/
theorem State.bit_intIsl (s : State) {b : Nat} (hb : b < 64) :
    bit (s.regValue .CHIP_INT_ISL 0) b = s.pendingOf (islandBlks.getD (b % 4) .lane) (b / 4) :=
  bit_foldl_flagAt (fun b => s.pendingOf (islandBlks.getD (b % 4) .lane) (b / 4)) 64 hb

/-- Settles O11: the bits of the two registers are the pending conditions that they name. -/
theorem islandInterrupts : Obligations.IslandInterrupts := by
  intro s i
  have hisl (j : Fin 4) : bit (s.regValue .CHIP_INT_ISL 0) (4 * i + j) = s.pendingOf (islandBlks.getD j .lane) i := by
    rw [State.bit_intIsl s (by omega), show (4 * i.val + j) % 4 = j by omega, show (4 * i.val + j) / 4 = i by omega]
  have hsum : bit (s.regValue .CHIP_INT_SUMMARY 0) (8 + i) = s.summaryCond (8 + i) :=
    bit_foldl_flagAt (fun b => s.summaryCond b) 39 (by omega)
  have hcond : s.summaryCond (8 + i) = islandBlks.any (fun k => s.pendingOf k i) := by
    unfold State.summaryCond
    rw [if_neg (by omega), if_pos (by omega), Nat.add_sub_cancel_left]
  refine ⟨hisl 0, hisl 1, hisl 2, hisl 3, ?_⟩
  rw [hsum, hcond, show bit _ (4 * i.val) = _ from hisl 0, show bit _ (4 * i.val + 1) = _ from hisl 1,
    show bit _ (4 * i.val + 2) = _ from hisl 2, show bit _ (4 * i.val + 3) = _ from hisl 3]
  simp [islandBlks, Bool.or_assoc]

/-- What is left of a number without the bits of a mask is not 0 where one of its bits is outside the mask. -/
theorem sub_and_ne_zero_iff {x : Nat} (m : Nat) {w : Nat} (hx : x < 2 ^ w) :
    x - (x &&& m) ≠ 0 ↔ ∃ k < w, bit x k = true ∧ bit m k = false := by
  have hle : x &&& m ≤ x := Nat.and_le_left
  have hsame : x - (x &&& m) = 0 ↔ x &&& m = x := by omega
  rw [Ne, hsame, ← not_iff_comm]
  push Not
  constructor
  · intro h
    refine Nat.eq_of_testBit_eq fun k => ?_
    rw [Nat.testBit_and]
    by_cases hk : k < w
    · cases hb : x.testBit k
      · rfl
      · simpa [bit] using h k hk hb
    · rw [Nat.testBit_lt_two_pow (hx.trans_le (Nat.pow_le_pow_right Nat.two_pos (Nat.not_lt.1 hk)))]
      rfl
  · intro h k _ hb
    have hand : (x &&& m).testBit k = true := h.symm ▸ hb
    rw [Nat.testBit_and, Bool.and_eq_true] at hand
    simp [bit, hand.2]

/-- A block's condition is pending where a bit of its INT_STATUS is set that INT_MASK leaves (R475). -/
theorem State.pendingOf_iff (s : State) (b : Blk) (i : Nat) :
    s.pendingOf b i = true ↔ ∃ k < (intStatus b i).width, s.intBit b i k = true ∧ bit (s.rd (intMask b i)) k = false := by
  unfold State.pendingOf
  rw [decide_eq_true_iff]
  exact sub_and_ne_zero_iff _ (s.rd_lt _)

theorem intMask_reg_ne (b : Blk) (i : Nat) : (intMask b i).reg ≠ (intStatus b i).reg := by cases b <;> nofun

/-- Settles O12: an event writes its bit of INT_STATUS alone, and INT_MASK stays. -/
theorem interruptStatus : Obligations.InterruptStatus := by
  intro s b i e _ he
  rw [intStatus_width] at he
  refine ⟨State.intBit_raise_self s b i e he, fun k hk hne => ?_, ?_⟩
  · unfold State.intBit
    rw [State.rd_raise, State.rd_wr_self, intStatus_width, bit_mod _ _ _ hk, bit_setBit_ne _ hne]
  · have hmask : (s.raise b i e).rd (intMask b i) = s.rd (intMask b i) :=
      State.rd_raise_ne s b i e fun h => intMask_reg_ne b i (Fld.key_eq.1 h).1
    rw [State.pendingOf_iff, hmask]

/-! ### A host's access to a register (R463 to R467) -/

section Host

variable {s : State} {q : Requester} {addr : Nat} {r : RegName} {k : Nat}

/-- A requester that is held to no list of registers (R413, R434). -/
def freeRequester (q : Requester) : Prop := q = .pf0 ∨ q = .jtag ∨ q = .regInit

theorem State.write_of_free (hq : freeRequester q) {size : Nat} (hok : accessOk addr size = true) (v : Nat) :
    s.write q addr size v = s.writeAccess q addr size v := by
  unfold State.write
  rw [hok]
  rcases hq with rfl | rfl | rfl <;> rfl

theorem accessOk_of_aligned {size : Nat} (haddr : addr < 2 ^ 28) (hsize : [1, 2, 4, 8].contains size = true) (halign : addr % size = 0) :
    accessOk addr size = true := by
  unfold accessOk
  rw [hsize, decide_eq_true halign, decide_eq_true haddr]
  rfl

/-- A register that an address reaches is the one of the address map. -/
theorem State.regAt_of_reach {x : RegName × Nat × Bool} (h : s.reach addr = some x) : regAt addr = some x := by
  unfold State.reach at h
  split at h
  · exact h
  · cases h

/-- A requester without a held low word drops none. -/
theorem State.dropHeld_of_none (hheld : mget s.held (requesterIx q) none = none) (r : RegName) (k : Nat) : s.dropHeld q r k = s := by
  unfold State.dropHeld
  rw [hheld]

/-- A write that reaches no register has no effect. -/
theorem State.writeWord_nowhere (hreach : s.reach addr = none) (v : Nat) : s.writeWord q addr v = s := by
  unfold State.writeWord
  rw [hreach]
  rfl

/-- A 4-byte write to a 32-bit register writes it (R465). -/
theorem State.writeWord_narrow (hreach : s.reach addr = some (r, k, false)) (hwide : (regRow r).wide = false)
    (hheld : mget s.held (requesterIx q) none = none) (v : Nat) : s.writeWord q addr v = s.regWrite q r k v := by
  unfold State.writeWord State.writeAt
  rw [hreach, State.regAt_of_reach hreach]
  simp only [Option.isSome_some, if_true, State.dropHeld_of_none hheld, hwide, Bool.not_false]

/-- A free requester's 4-byte write to a 32-bit register writes it. -/
theorem State.write_narrow (hq : freeRequester q) (haddr : addr < 2 ^ 28) (halign : addr % 4 = 0)
    (hreach : s.reach addr = some (r, k, false)) (hwide : (regRow r).wide = false) (hheld : mget s.held (requesterIx q) none = none) (v : Nat) :
    s.write q addr 4 v = s.regWrite q r k v :=
  (State.write_of_free hq (accessOk_of_aligned haddr (by decide) halign) v).trans (State.writeWord_narrow hreach hwide hheld v)

/-- A 4-byte write to the low word of a 64-bit register is held for its requester (R467). -/
theorem State.writeWord_low (hreach : s.reach addr = some (r, k, false)) (hwide : (regRow r).wide = true)
    (hheld : mget s.held (requesterIx q) none = none) (v : Nat) :
    s.writeWord q addr v = { s with held := mset s.held (requesterIx q) (some { reg := r, ix := k, lo := v }) none } := by
  unfold State.writeWord State.writeAt
  rw [hreach, State.regAt_of_reach hreach]
  simp only [Option.isSome_some, if_true, State.dropHeld_of_none hheld, hwide, Bool.not_true, Bool.false_eq_true, if_false]

/-- A 4-byte write to the high word brings the held low word into effect with it (R467). -/
theorem State.writeWord_high (hreach : s.reach addr = some (r, k, true)) (hwide : (regRow r).wide = true) {x : HeldLow}
    (hheld : mget s.held (requesterIx q) none = some x) (hreg : x.reg = r) (hix : x.ix = k) (v : Nat) :
    s.writeWord q addr v = State.regWrite { s with held := mset s.held (requesterIx q) none none } q r k (x.lo + v * 2 ^ 32) := by
  have hdrop : s.dropHeld q r k = s := by
    unfold State.dropHeld
    rw [hheld]
    simp [hreg, hix]
  unfold State.writeWord State.writeAt
  rw [hreach, State.regAt_of_reach hreach]
  simp only [Option.isSome_some, if_true, hdrop, hwide, Bool.not_true, Bool.false_eq_true, if_false, hheld]

/-- An 8-byte write to a 64-bit register writes it whole (R465). -/
theorem State.writeAccess_wide (hreach : s.reach addr = some (r, k, false)) (hwide : (regRow r).wide = true) (v : Nat) :
    s.writeAccess q addr 8 v = State.regWrite { s with held := mset s.held (requesterIx q) none none } q r k v := by
  unfold State.writeAccess
  rw [if_neg (by decide), if_pos rfl, hreach]
  exact if_pos hwide

/-- A write of one byte is discarded (R465, R472). -/
theorem State.writeAccess_byte {hi : Bool} (hreach : s.reach (addr / 4 * 4) = some (r, k, hi))
    (hheld : mget s.held (requesterIx q) none = none) (v : Nat) : s.writeAccess q addr 1 v = s.discard q (regAddr r k) 0 1 := by
  unfold State.writeAccess
  rw [if_neg (by decide), if_neg (by decide), hreach]
  exact congrArg (fun t : State => t.discard q (regAddr r k) 0 1) (State.dropHeld_of_none hheld r k)

end Host

/-- An address that reaches a word of a 64-bit register names that word. -/
theorem wideWord_of_reach {s : State} {addr : Nat} {r : RegName} {k : Nat} {hi : Bool} (hreach : s.reach addr = some (r, k, hi))
    (hwide : (regRow r).wide = true) : wideWord addr hi = true := by
  unfold wideWord
  rw [State.regAt_of_reach hreach]
  simp [hwide]

/-- A row of the address map is the row of its register, so far as the register's width goes. -/
theorem wide_regRow_of_mem : ∀ x ∈ regTable, (regRow x.reg).wide = x.wide := by decide +kernel

/-- Only a 64-bit register has a high word. -/
theorem wide_of_high {addr : Nat} {r : RegName} {k : Nat} (h : regAt addr = some (r, k, true)) : (regRow r).wide = true := by
  obtain ⟨x, hx, hfind⟩ := List.exists_of_findSome?_eq_some h
  have hwide := wide_regRow_of_mem x hx
  unfold RegRow.find at hfind
  split at hfind
  · cases hfind
  · split at hfind
    · split_ifs at hfind with hlow hhigh
      · cases hfind
      · obtain rfl : x.reg = r := congrArg Prod.fst (Option.some.inj hfind)
        exact hwide.trans (Bool.and_eq_true_iff.1 hhigh).1
    · cases hfind

/-- Settles O19: each write is the write of the register that it reaches. -/
theorem registerWrites : Obligations.RegisterWrites := by
  intro s q addr v w hq
  have haddr : addr.toNat < 2 ^ 28 := addr.isLt
  refine ⟨fun r k hreach halign x hheld hreg hix => ?_, fun hheld => ⟨fun halign hreach => ?_, fun halign r k hreach hwide => ⟨?_, fun h8 => ?_⟩,
    fun halign r k hreach hwide => ?_, fun r k hreach => ?_⟩⟩
  · have hwide := wide_of_high (State.regAt_of_reach hreach)
    refine .of_exec (congrArg Host.Outcome.next (if_pos (wideWord_of_reach hreach hwide))) ?_
    rw [State.write_of_free hq (accessOk_of_aligned haddr (by decide) halign)]
    exact State.writeWord_high hreach hwide hheld hreg hix _
  · refine .of_exec (t := s.write q addr.toNat 4 (w.toNat % 2 ^ 32)) rfl ?_
    rw [State.write_of_free hq (accessOk_of_aligned haddr (by decide) halign)]
    exact State.writeWord_nowhere hreach _
  · have hword : wideWord addr.toNat false = true := by simp [wideWord, State.regAt_of_reach hreach, hwide]
    refine .of_exec (congrArg Host.Outcome.next (if_pos (wideWord_of_reach hreach hwide))) ?_
    rw [State.write_of_free hq (accessOk_of_aligned haddr (by decide) halign)]
    rw [show s.writeAccess q addr.toNat 4 v.toNat = _ from State.writeWord_low hreach hwide hheld v.toNat]
    refine ⟨?_, rfl⟩
    rw [mget_mset_self]
  · refine .of_exec rfl ((State.write_of_free hq (accessOk_of_aligned haddr (by decide) h8) _).trans ?_)
    have hfull : w.toNat % 2 ^ (8 * (8 : Fin 9).val) = w.toNat := Nat.mod_eq_of_lt w.isLt
    rw [hfull]
    exact State.writeAccess_wide hreach hwide w.toNat
  · exact .of_exec rfl (State.write_narrow hq haddr halign hreach hwide hheld _)
  · refine .of_exec (t := s.write q addr.toNat 1 (w.toNat % 2 ^ 8)) rfl ?_
    rw [State.write_of_free hq (accessOk_of_aligned haddr (size := 1) (by decide) (Nat.mod_one _)), State.writeAccess_byte hreach hheld]
    exact State.discard_discarded ..

end Sys2Proof.Machine
end

section
/-! SUPPORT. A latched high word of more than 32 bits (R466). -/

set_option Elab.async false

namespace Sys2Proof.Machine

/-- A device after reset whose latch for PF0 holds 2^32 as the high word of CHIP_INT_SUMMARY, beyond the 32 bits of a word. -/
def latchBeyondWord : State := { State.reset with latch := [(0, some { reg := .CHIP_INT_SUMMARY, ix := 0, hi := 2 ^ 32 })] }

/-- PF0's read of the high word of CHIP_INT_SUMMARY returns the 32 bits that a word has. -/
theorem latchBeyondWord_read : Runs (.lowWordRead .pf0 0x804 4) latchBeyondWord fun t => t.out.head? = some (.readData .pf0 0x804 4 0) :=
  ⟨_, rfl, by decide +kernel⟩

/-- Refutes O18: its third clause promises that a read of a high word returns the latched word whatever number the latch holds, while a latch
that holds more than 32 bits is cut to the 4 bytes that are read. -/
theorem not_registerReads : ¬ Obligations.RegisterReads := by
  unfold Obligations.RegisterReads
  intro h
  obtain ⟨-, -, hhigh, -⟩ := h latchBeyondWord .pf0 0x804 (by decide)
  obtain ⟨t, ht, hout, -⟩ :=
    hhigh (by decide) .CHIP_INT_SUMMARY 0 (by decide +kernel) nofun nofun _ (rfl : mget latchBeyondWord.latch 0 none = some _) rfl rfl
  obtain ⟨u, hu, hzero⟩ := latchBeyondWord_read
  rw [Host.Outcome.next.inj (hu.symm.trans ht), hout] at hzero
  exact absurd hzero (by decide)

end Sys2Proof.Machine
end

section
/-! SUPPORT. What a chain of writes, events and messages leaves: one relation for every block, and how a field reads after the shared
operations. -/

set_option Elab.async false

namespace Sys2Proof.Machine

/-- From `s` to `t` nothing changes but registers of `rs` and the messages that leave or wait. -/
def touches (rs : List RegName) (s t : State) : Prop :=
  readsOff rs s t ∧ { t with regs := s.regs, out := s.out, msixPend := s.msixPend } = s

namespace touches

variable {rs qs : List RegName} {s0 s t u : State}

theorem refl (s : State) : touches rs s s := ⟨readsOff.refl s, rfl⟩

theorem trans (h : touches rs s t) (k : touches rs t u) : touches rs s u := by
  refine ⟨h.1.trans k.1, ?_⟩
  rw [← h.2, ← k.2]

theorem mono (h : touches rs s t) (k : ∀ r ∈ rs, r ∈ qs) : touches qs s t := ⟨h.1.mono k, h.2⟩

theorem wr (h : touches rs s0 s) {f : Fld} (hf : f.reg ∈ rs) (v : Nat) : touches rs s0 (s.wr f v) := ⟨h.1.wr hf v, h.2⟩

theorem wrB (h : touches rs s0 s) {f : Fld} (hf : f.reg ∈ rs) (b : Bool) : touches rs s0 (s.wrB f b) := h.wr hf _

theorem satAdd (h : touches rs s0 s) {f : Fld} (hf : f.reg ∈ rs) (n : Nat) : touches rs s0 (s.satAdd f n) := h.wr hf _

theorem wrapAdd (h : touches rs s0 s) {f : Fld} (hf : f.reg ∈ rs) (n : Nat) : touches rs s0 (s.wrapAdd f n) := h.wr hf _

theorem emit (h : touches rs s0 s) (o : Out) : touches rs s0 (s.emit o) := ⟨h.1.congr rfl, h.2⟩

theorem of_signals {fs : List Fld} (h : signals fs s t) (hfs : ∀ f ∈ fs, f.reg ∈ rs) : touches rs s t := by
  obtain ⟨hreads, hrest, -⟩ := h
  exact ⟨hreads.off hfs, hrest⟩

theorem raise (h : touches rs s0 s) {b : Blk} {i : Nat} (hb : (intStatus b i).reg ∈ rs) (e : Nat) : touches rs s0 (s.raise b i e) :=
  h.trans (of_signals ((signals.refl s).raise List.mem_cons_self e) fun _ hf => List.mem_singleton.1 hf ▸ hb)

theorem sendVector (h : touches rs s0 s) (k v : Nat) : touches rs s0 (s.sendVector k v) :=
  h.trans (of_signals (fs := []) ((signals.refl s).sendVector k v) fun _ hf => absurd hf List.not_mem_nil)

theorem ite {c : Prop} [Decidable c] (h : touches rs s0 s) (k : touches rs s0 t) : touches rs s0 (if c then s else t) := by
  split
  · exact h
  · exact k

theorem foldl {α : Type} {g : State → α → State} {l : List α} (h : touches rs s t) (hg : ∀ v x, touches rs v (g v x)) :
    touches rs s (l.foldl g t) := by
  induction l generalizing t with
  | nil => exact h
  | cons x l ih => exact ih (h.trans (hg t x))

/-- A field of another register reads as before. -/
theorem rd (h : touches rs s t) {f : Fld} (hf : f.reg ∉ rs) : t.rd f = s.rd f := h.1 f hf

theorem on (h : touches rs s t) {f : Fld} (hf : f.reg ∉ rs) : t.on f = s.on f := congrArg (· ≠ 0 : Nat → Bool) (h.rd hf)

theorem now (h : touches rs s t) (hf : RegName.LIGHT_TICKS ∉ rs) : t.now = s.now := h.rd hf

theorem domA (h : touches rs s t) : t.domA = s.domA := (congrArg State.domA h.2 :)

theorem domB (h : touches rs s t) : t.domB = s.domB := (congrArg State.domB h.2 :)

theorem ras (h : touches rs s t) : t.ras = s.ras := (congrArg State.ras h.2 :)

theorem timers (h : touches rs s t) : t.timers = s.timers := (congrArg State.timers h.2 :)

/-- The rest of the state, with a part of it put back. -/
theorem rest (h : touches rs s t) (f : State → State)
    (hf : f { t with regs := s.regs, out := s.out, msixPend := s.msixPend } = f t := by rfl) : f t = f s := by
  rw [← hf, h.2]

end touches

/-- A write to another field of the register leaves the field. -/
theorem State.rd_wrB_of_lo_ne (s : State) {f g : Fld} (b : Bool) (h : g.lo ≠ f.lo) : (s.wrB f b).rd g = s.rd g := State.rd_wr_of_lo_ne _ _ h

/-- An event leaves a field of another register. -/
theorem State.rd_raise_of_reg_ne (s : State) {b : Blk} {i e : Nat} {f : Fld} (h : f.reg ≠ (intStatus b i).reg) :
    (s.raise b i e).rd f = s.rd f := State.rd_raise_ne _ _ _ _ fun e => h (Fld.key_eq.1 e).1

/-- An event counter that counts adds to its value, or wraps (R325). -/
theorem State.cntAdd_touches (s : State) (n v : Nat) : touches [.CNT_CTL, .CNT_VALUE, .CNT_INT_STATUS] s (s.cntAdd n v).2 := by
  have hself := touches.refl (rs := [.CNT_CTL, .CNT_VALUE, .CNT_INT_STATUS]) s
  have hctl (b : Bool) : touches _ s (s.wrB (F.CNT_CTL_OVF n) b) := hself.wrB (show RegName.CNT_CTL ∈ _ by decide) b
  unfold State.cntAdd
  extract_lets t s1 s2
  split
  · exact hself.wr (f := F.CNT_VALUE_VALUE n) (show RegName.CNT_VALUE ∈ _ by decide) _
  · exact ((hctl true).raise (b := .cnt) (i := 0) (by decide) 0 |>.ite (hctl true)).wr (f := F.CNT_VALUE_VALUE n)
      (show RegName.CNT_VALUE ∈ _ by decide) _

/-- A global event counts in the counters that select it, and nowhere else (R324). -/
theorem State.cntGlobal_touches (s : State) (ev arg v : Nat) :
    touches [.CNT_CTL, .CNT_VALUE, .CNT_INT_STATUS] s (s.cntGlobal ev arg v) :=
  (touches.refl s).foldl fun u k => (u.cntAdd_touches (1024 + k) v).ite (.refl u)

end Sys2Proof.Machine
end

section
/-! SUPPORT. The domains of Lighthouse (R334 to R345): what a change of state leaves, and the statements on states, steps, masters and
control writes. -/

set_option Elab.async false

namespace Sys2Proof.Machine

/-! ### Domains -/

theorem State.dom_setDom (s : State) (d e : Fin 2) (x : Dom) : (s.setDom d x).dom e = if e = d then x else s.dom e := by
  fin_cases d <;> fin_cases e <;> rfl

theorem State.dom_raise (s : State) (b : Blk) (i k : Nat) (e : Nat) : (s.raise b i k).dom e = s.dom e := by
  unfold State.dom
  rw [State.raise_domA, State.raise_domB]

/-- Beside the times of the two domains, only the fields `fs` and messages of vectors differ. -/
def lightSignals (fs : List Fld) (s t : State) : Prop := signals fs s { t with domA := s.domA, domB := s.domB }

namespace lightSignals

variable {fs gs : List Fld} {s t u : State}

theorem refl (s : State) : lightSignals fs s s := signals.refl s

theorem of_signals (h : signals fs s t) : lightSignals fs s t := by
  obtain ⟨hreads, hrest, hout⟩ := h
  exact ⟨hreads.congr rfl, congrArg (fun x : State => { x with domA := s.domA, domB := s.domB }) hrest, hout⟩

theorem trans (h : lightSignals fs s t) (k : lightSignals fs t u) : lightSignals fs s u := by
  obtain ⟨hreads, hrest, l, hl, hmsix⟩ := h
  obtain ⟨kreads, krest, m, hm, kmsix⟩ := k
  refine ⟨hreads.trans kreads, ?_, m ++ l, ?_, fun o ho => (List.mem_append.1 ho).elim (kmsix o) (hmsix o)⟩
  · exact (congrArg (fun x : State =>
      { x with regs := s.regs, out := s.out, msixPend := s.msixPend, domA := s.domA, domB := s.domB }) krest).trans hrest
  · rw [List.append_assoc, ← hl]
    exact hm

theorem mono (h : lightSignals fs s t) (k : ∀ g ∈ fs, g ∈ gs) : lightSignals gs s t := signals.mono h k

theorem setDom (h : lightSignals fs s t) (d : Nat) (x : Dom) : lightSignals fs s (t.setDom d x) := by
  refine h.trans ?_
  unfold State.setDom
  split
  · exact ⟨readsBut.refl t, rfl, [], rfl, nofun⟩
  · exact ⟨readsBut.refl t, rfl, [], rfl, nofun⟩

theorem wr (h : lightSignals fs s t) {f : Fld} (hf : f ∈ fs) (v : Nat) : lightSignals fs s (t.wr f v) :=
  h.trans (of_signals ((signals.refl t).wr hf v))

theorem wrB (h : lightSignals fs s t) {f : Fld} (hf : f ∈ fs) (b : Bool) : lightSignals fs s (t.wrB f b) := h.wr hf _

theorem raise (h : lightSignals fs s t) (hf : F.LIGHT_INT_STATUS_BITS ∈ fs) (e : Nat) : lightSignals fs s (t.raise .light 0 e) :=
  h.trans (of_signals ((signals.refl t).raise (b := .light) (i := 0) hf e))

end lightSignals

/-! ### Changes of state (R342 to R344) -/

theorem State.endFollow_following (s : State) : s.endFollow.following = false := by
  unfold State.endFollow
  split
  · exact State.on_wrB_self _ _ Nat.one_pos
  · next h => exact Bool.eq_false_of_not_eq_true h

theorem State.endFollow_dom (s : State) (e : Nat) : ∃ k, s.endFollow.dom e = { s.dom e with keepEff := k } := by
  unfold State.endFollow
  split
  · unfold State.dom
    split
    · exact ⟨true, rfl⟩
    · exact ⟨s.domB.keepEff, rfl⟩
  · exact ⟨(s.dom e).keepEff, rfl⟩

theorem State.endFollow_signals (s : State) : lightSignals [F.LIGHT_STATUS_FOLLOWING_B 0] s s.endFollow := by
  unfold State.endFollow
  split
  · exact ((lightSignals.refl s).setDom 0 { s.domA with keepEff := true }).wrB List.mem_cons_self false
  · exact .refl s

/-- Following of domain B ends where domain `d` leaves a state that it stands on (R344). -/
def State.lightLeave (s : State) (d : Nat) : State := if d = 0 then s.endFollow else if s.lightState 1 = 2 then s.endFollow else s

theorem State.lightLeave_dom (s : State) (d e : Nat) : ∃ k, (s.lightLeave d).dom e = { s.dom e with keepEff := k } := by
  unfold State.lightLeave
  split_ifs
  · exact s.endFollow_dom e
  · exact s.endFollow_dom e
  · exact ⟨(s.dom e).keepEff, rfl⟩

theorem State.lightLeave_signals (s : State) (d : Nat) : lightSignals [F.LIGHT_STATUS_FOLLOWING_B 0] s (s.lightLeave d) := by
  unfold State.lightLeave
  split_ifs
  · exact s.endFollow_signals
  · exact s.endFollow_signals
  · exact .refl s

/-- Domain `d` on entry to `st`: the entry to LOCKED starts the watches (R343). -/
def State.lightFrom (s : State) (d st : Nat) : Dom :=
  if st = 2 then { s.dom d with keepEff := false, wdFrom := s.now, ppsFromS := s.domA.sec, ppsFromNs := s.domA.ns }
  else { s.dom d with keepEff := false }

theorem State.lightEnter_eq (s : State) (d st : Nat) :
    s.lightEnter d st =
      (((s.lightLeave d).setDom d ((s.lightLeave d).lightFrom d st)).wr (F.LIGHT_STATUS_STATE d) st).raise .light 0 0 := rfl

section Enter

variable (s : State) (d : Fin 2) (st : Nat)

/-- What the entry to a state changes beside the two times. -/
theorem State.lightEnter_signals :
    lightSignals [F.LIGHT_STATUS_STATE d, F.LIGHT_STATUS_FOLLOWING_B 0, F.LIGHT_INT_STATUS_BITS] s (s.lightEnter d st) := by
  have hleft := (s.lightLeave_signals d).mono (gs := [F.LIGHT_STATUS_STATE d, F.LIGHT_STATUS_FOLLOWING_B 0, F.LIGHT_INT_STATUS_BITS])
    (by simp)
  rw [State.lightEnter_eq]
  exact ((hleft.setDom d _).wr (by simp) st).raise (by simp) 0

theorem State.lightEnter_dom (e : Fin 2) :
    (s.lightEnter d st).dom e = if e = d then (s.lightLeave d).lightFrom d st else (s.lightLeave d).dom e := by
  rw [State.lightEnter_eq, State.dom_raise]
  exact State.dom_setDom ..

/-- The entry to a state leaves times and increments. -/
theorem State.lightEnter_time (e : Fin 2) :
    ((s.lightEnter d st).dom e).total = (s.dom e).total ∧ ((s.lightEnter d st).dom e).eff = (s.dom e).eff := by
  obtain ⟨k, hk⟩ := s.lightLeave_dom d e
  rw [State.lightEnter_dom]
  split
  · next h =>
    subst h
    unfold State.lightFrom
    rw [hk]
    split
    · exact ⟨rfl, rfl⟩
    · exact ⟨rfl, rfl⟩
  · rw [hk]
    exact ⟨rfl, rfl⟩

theorem State.lightEnter_following : (s.lightEnter d st).following = (s.lightLeave d).following := by
  rw [State.lightEnter_eq, State.following, State.on, State.rd_raise_of_reg_ne _ (by nofun), State.rd_wr_of_lo_ne _ _ (by nofun),
    State.rd_setDom]
  rfl

theorem State.lightEnter_state (hst : st < 4) : (s.lightEnter d st).lightState d = st := by
  rw [State.lightEnter_eq, State.lightState, State.rd_raise_of_reg_ne _ (by nofun), State.rd_wr_self]
  exact Nat.mod_eq_of_lt hst

theorem State.lightEnter_intBit : (s.lightEnter d st).intBit .light 0 0 = true := State.intBit_raise_self _ _ _ _ (by decide)

/-- The entry of a domain to LOCKED starts its watches (R343). -/
theorem State.lightEnter_locked :
    ((s.lightEnter d 2).dom d).wdFrom = s.now ∧ ((s.lightEnter d 2).dom d).ppsFromS = s.domA.sec ∧
      ((s.lightEnter d 2).dom d).ppsFromNs = s.domA.ns := by
  obtain ⟨k, hk⟩ := s.lightLeave_dom d 0
  have hdomA : (s.lightLeave d).domA = { s.domA with keepEff := k } := hk
  have hnow : (s.lightLeave d).now = s.now := (s.lightLeave_signals d).1 _ (by simp [Fld.key_eq]; decide)
  rw [State.lightEnter_dom, if_pos rfl, State.lightFrom, if_pos rfl, hnow, hdomA]
  exact ⟨rfl, rfl, rfl⟩

/-- Domain A's change of state, and a LOCKED domain B's, end following (R344). -/
theorem State.lightLeave_following (h : d = 0 ∨ s.lightState d = 2) : (s.lightLeave d).following = false := by
  unfold State.lightLeave
  split
  · exact s.endFollow_following
  · next hd =>
    have hlocked : s.lightState d = 2 := h.resolve_left fun h0 => hd (congrArg Fin.val h0)
    rw [show d.val = 1 by omega] at hlocked
    rw [if_pos hlocked]
    exact s.endFollow_following

end Enter

/-! ### Loss of the master (R343, R344) -/

theorem lightSignals.on {fs : List Fld} {s t : State} (h : lightSignals fs s t) {f : Fld} (hf : ∀ g ∈ fs, f.key ≠ g.key) : t.on f = s.on f := by
  unfold State.on
  rw [show t.rd f = s.rd f from h.1 f hf]

theorem State.lightState_other (s : State) (st : Nat) : (s.lightEnter 0 st).lightState 1 = s.lightState 1 :=
  (s.lightEnter_signals 0 st).1 (F.LIGHT_STATUS_STATE 1) (by simp [Fld.key_eq]; decide)

theorem State.lightEnter_bFollow (s : State) (d : Fin 2) (st : Nat) :
    (s.lightEnter d st).on (F.LIGHT_CTL_B_FOLLOW 0) = s.on (F.LIGHT_CTL_B_FOLLOW 0) :=
  (s.lightEnter_signals d st).on (by simp [Fld.key_eq, F.LIGHT_CTL_B_FOLLOW, F.LIGHT_STATUS_STATE, F.LIGHT_STATUS_FOLLOWING_B, F.LIGHT_INT_STATUS_BITS])

end Sys2Proof.Machine
end

section
/-! SUPPORT. The statements on the masters, the states, the steps and the control writes of the Lighthouse domains (R334 to R344). -/

set_option Elab.async false

namespace Sys2Proof.Machine

/-! ### Loss of the master -/

section Master

variable (s : State) (d : Fin 2)

theorem State.loseMaster_of_alone (h : ¬(d.val = 0 ∧ s.on (F.LIGHT_CTL_B_FOLLOW 0) = true ∧ s.lightState 1 = 2)) :
    s.loseMaster d = s.lightEnter d 3 := by
  have hstate : d.val = 0 → (s.lightEnter d 3).lightState 1 = s.lightState 1 := fun hd => by
    rw [show d = 0 from Fin.ext hd]
    exact s.lightState_other 3
  unfold State.loseMaster
  refine if_neg fun hfollow => h ?_
  simp only [Bool.and_eq_true, decide_eq_true_eq] at hfollow
  obtain ⟨⟨hd, hon⟩, hb⟩ := hfollow
  exact ⟨hd, (s.lightEnter_bFollow d 3) ▸ hon, (hstate hd) ▸ hb⟩

theorem State.loseMaster_of_follower (hon : s.on (F.LIGHT_CTL_B_FOLLOW 0) = true) (hb : s.lightState 1 = 2) :
    s.loseMaster 0 = ((s.lightEnter 0 3).wrB (F.LIGHT_STATUS_FOLLOWING_B 0) true).raise .light 0 3 := by
  unfold State.loseMaster
  refine if_pos ?_
  rw [show (s.lightEnter 0 3).on (F.LIGHT_CTL_B_FOLLOW 0) = _ from s.lightEnter_bFollow 0 3,
    show (s.lightEnter 0 3).lightState 1 = _ from s.lightState_other 3, hon, hb]
  rfl

/-- A LOCKED domain that loses its master (R343, R344). -/
theorem State.loseMaster_lost (hlocked : s.lightState d = 2) : masterLost s d (s.loseMaster d) := by
  by_cases hfollow : d.val = 0 ∧ s.on (F.LIGHT_CTL_B_FOLLOW 0) = true ∧ s.lightState 1 = 2
  · obtain ⟨hd, hon, hb⟩ := hfollow
    obtain rfl : d = 0 := Fin.ext hd
    rw [show s.loseMaster (0 : Fin 2) = _ from s.loseMaster_of_follower hon hb]
    have hint := s.lightEnter_intBit 0 3
    refine ⟨?_, ?_, fun e => ?_, fun _ _ _ => ⟨?_, State.intBit_raise_self _ _ _ _ (by decide)⟩, fun h => absurd h (by decide), ?_⟩
    · rw [State.lightState, State.rd_raise_of_reg_ne _ (by nofun), State.rd_wrB_of_lo_ne _ _ (by nofun)]
      exact s.lightEnter_state 0 3 (by decide)
    · refine State.intBit_raise_of_intBit ?_ _ _ _
      rw [State.intBit, State.wrB, State.rd_wr_of_reg_ne _ _ (by nofun)]
      exact hint
    · rw [State.dom_raise]
      exact s.lightEnter_time 0 3 e
    · rw [State.following, State.on, State.rd_raise_of_reg_ne _ (by nofun), State.rd_wrB_self _ _ _ Nat.one_pos]
      rfl
    · exact ((s.lightEnter_signals 0 3).wrB (by simp) true).raise (by simp) 3
  · rw [State.loseMaster_of_alone s d hfollow]
    refine ⟨s.lightEnter_state d 3 (by decide), s.lightEnter_intBit d 3, s.lightEnter_time d 3,
      fun hd hon hb => absurd ⟨congrArg Fin.val hd, hon, hb⟩ hfollow, fun _ => ?_, s.lightEnter_signals d 3⟩
    rw [State.lightEnter_following]
    exact s.lightLeave_following d (.inr hlocked)

end Master

/-- Settles O16: what was lost moves a LOCKED domain that watches it, and no other. -/
theorem masterLoss : Obligations.MasterLoss := by
  refine fun s d => ⟨fun hlocked hsrc hexpired => .of_exec (t := s.loseMaster d) ?_ (s.loseMaster_lost d hlocked),
    fun hlocked hsrc hmissed => .of_exec (t := s.loseMaster d) ?_ (s.loseMaster_lost d hlocked),
    fun hstate => ⟨.of_exec (t := s) ?_ rfl, .of_exec (t := s) ?_ rfl⟩⟩
  · exact congrArg Host.Outcome.next (if_pos (by simp [hlocked, hsrc, hexpired]))
  · exact congrArg Host.Outcome.next (if_pos (by simp [hlocked, hsrc, hmissed]))
  · exact congrArg Host.Outcome.next (if_neg (by simp [hstate]))
  · exact congrArg Host.Outcome.next (if_neg (by simp [hstate]))

/-! ### Requests for a state (R342) -/

section Requests

variable (s : State) (q : Requester) (d : Fin 2)

theorem State.lightReq_refused {req : Nat} (h : reqAllowed (s.lightState d) req = false) :
    discarded q (regAddr .LIGHT_CTL d) (s.lightState d) 0 s (s.lightReq q d req) := by
  unfold State.lightReq
  rw [if_neg (by simp [h])]
  exact s.discard_discarded ..

/-- The entry to ACQUIRE allows one step again (R342). -/
theorem State.applyReq_acquire :
    (s.applyReq d 1).lightState d = 1 ∧ (s.applyReq d 1).on (F.LIGHT_STATUS_STEP_USED d) = false ∧ (s.applyReq d 1).intBit .light 0 0 = true ∧
      lightSignals [F.LIGHT_STATUS_STATE d, F.LIGHT_STATUS_STEP_USED d, F.LIGHT_STATUS_FOLLOWING_B 0, F.LIGHT_INT_STATUS_BITS] s
        (s.applyReq d 1) := by
  obtain ⟨hstate, hint⟩ := s.applyReq_enters d 1 (by decide)
  refine ⟨hstate, State.on_wrB_self _ _ Nat.one_pos, hint, ?_⟩
  exact ((s.lightEnter_signals d 1).mono (by simp)).wrB (by simp) false

theorem State.applyReq_locked : s.applyReq d 2 = s.lightEnter d 2 := rfl

theorem State.applyReq_free : s.applyReq d 3 = s.lightEnter d 0 := rfl

/-- A requester that reaches LIGHT_CTL has its request judged (R342). -/
theorem Runs.of_lightReq {c : Instr} {req : Nat} {p : State → Prop} (hq : s.grants q false = true)
    (hexec : exec c s = if !s.grants q false then .next s else .next (s.lightReq q d req))
    (h : p (if reqAllowed (s.lightState d) req then s.applyReq d req else s.locked q .LIGHT_CTL d (s.lightState d))) : Runs c s p :=
  .of_granted hq hexec h

end Requests

/-- The six rows of the table of states (R342). -/
theorem lightRequests (s : State) (q : Requester) (d : Fin 2) (hq : s.grants q false = true) :
    (s.lightState d ≠ 1 → Runs (.lightReqAcquire q d) s fun t => t.lightState d = 1 ∧ t.on (F.LIGHT_STATUS_STEP_USED d) = false ∧
      t.intBit .light 0 0 = true ∧
      lightSignals [F.LIGHT_STATUS_STATE d, F.LIGHT_STATUS_STEP_USED d, F.LIGHT_STATUS_FOLLOWING_B 0, F.LIGHT_INT_STATUS_BITS] s t) ∧
    (s.lightState d = 1 ∨ s.lightState d = 3 → Runs (.lightReqLocked q d) s fun t => t.lightState d = 2 ∧ t.intBit .light 0 0 = true ∧
      (t.dom d).wdFrom = s.now ∧ (t.dom d).ppsFromS = s.domA.sec ∧ (t.dom d).ppsFromNs = s.domA.ns ∧ (d = 0 → t.following = false) ∧
      lightSignals [F.LIGHT_STATUS_STATE d, F.LIGHT_STATUS_FOLLOWING_B 0, F.LIGHT_INT_STATUS_BITS] s t) ∧
    (s.lightState d ≠ 0 → Runs (.lightReqFree q d) s fun t => t.lightState d = 0 ∧ t.intBit .light 0 0 = true ∧
      (∀ e : Fin 2, (t.dom e).total = (s.dom e).total) ∧
      lightSignals [F.LIGHT_STATUS_STATE d, F.LIGHT_STATUS_FOLLOWING_B 0, F.LIGHT_INT_STATUS_BITS] s t) ∧
    (s.lightState d = 1 → Runs (.lightReqAcquire q d) s (discarded q (regAddr .LIGHT_CTL d) 1 0 s)) ∧
    (s.lightState d = 0 ∨ s.lightState d = 2 → Runs (.lightReqLocked q d) s (discarded q (regAddr .LIGHT_CTL d) (s.lightState d) 0 s)) ∧
    (s.lightState d = 0 → Runs (.lightReqFree q d) s (discarded q (regAddr .LIGHT_CTL d) 0 0 s)) := by
  refine ⟨fun hst => .of_lightReq s q d hq rfl ?_, fun hst => .of_lightReq s q d hq rfl ?_, fun hst => .of_lightReq s q d hq rfl ?_,
    fun hst => .of_granted hq rfl ?_, fun hst => .of_granted hq rfl ?_, fun hst => .of_granted hq rfl ?_⟩
  · rw [if_pos (by simpa [reqAllowed] using hst)]
    exact s.applyReq_acquire d
  · rw [if_pos (by simpa [reqAllowed] using hst), State.applyReq_locked]
    obtain ⟨hwd, hpps, hns⟩ := s.lightEnter_locked d
    refine ⟨s.lightEnter_state d 2 (by decide), s.lightEnter_intBit d 2, hwd, hpps, hns, fun hd => ?_, s.lightEnter_signals d 2⟩
    rw [State.lightEnter_following]
    exact s.lightLeave_following d (.inl hd)
  · rw [if_pos (by simpa [reqAllowed] using hst), State.applyReq_free]
    exact ⟨s.lightEnter_state d 0 (by decide), s.lightEnter_intBit d 0, fun e => (s.lightEnter_time d 0 e).1, s.lightEnter_signals d 0⟩
  · exact hst ▸ s.lightReq_refused q d (by simp [reqAllowed, hst])
  · exact s.lightReq_refused q d (by rcases hst with h | h <;> simp [reqAllowed, h])
  · exact hst ▸ s.lightReq_refused q d (by simp [reqAllowed, hst])

/-! ### Control writes (R334 to R338, R360) -/

section Controls

variable (s : State) (q : Requester) (d : Fin 2)

/-- SNAP copies the time to the three words of LIGHT_SNAP (R334). -/
theorem lightSnap_copies :
    Runs (.lightSnap d) s fun t => t.rd (F.LIGHT_SNAP_S_S d) = (s.dom d).sec % 2 ^ 64 ∧ t.rd (F.LIGHT_SNAP_NS_NS d) = (s.dom d).ns % 2 ^ 32 ∧
      t.rd (F.LIGHT_SNAP_FRAC_FRAC d) = (s.dom d).frac / 2 ^ 40 % 2 ^ 16 ∧
      changes [F.LIGHT_SNAP_S_S d, F.LIGHT_SNAP_NS_NS d, F.LIGHT_SNAP_FRAC_FRAC d] s t := by
  refine .of_exec rfl ⟨?_, ?_, State.rd_wr_self .., (((changes.refl s).wr (by simp) _).wr (by simp) _).wr (by simp) _⟩
  · rw [State.rd_wr_of_reg_ne _ _ (by nofun), State.rd_wr_of_reg_ne _ _ (by nofun), State.rd_wr_self]
    rfl
  · rw [State.rd_wr_of_reg_ne _ _ (by nofun), State.rd_wr_self]
    rfl

/-- The clamped rate fits the signed 40 bits of ADJ (R335). -/
theorem sext_trunc_clampAdj (v : Int) : sext 40 (trunc 40 (clampAdj v) % 2 ^ 40) = max (-65536000000) (min v 65536000000) := by
  have hlow : -65536000000 ≤ clampAdj v := le_max_left ..
  have hhigh : clampAdj v ≤ 65536000000 := max_le (by decide) (min_le_right ..)
  change _ = clampAdj v
  unfold sext trunc
  have hcut : BitVec.ofNat 40 ((BitVec.ofInt 40 (clampAdj v)).toNat % 2 ^ 40) = BitVec.ofInt 40 (clampAdj v) := by
    rw [Nat.mod_eq_of_lt (BitVec.isLt _), BitVec.ofNat_toNat, BitVec.setWidth_eq]
  rw [hcut, BitVec.toInt_ofInt]
  exact Int.bmod_eq_of_le (le_trans (by decide) hlow) (lt_of_le_of_lt hhigh (by decide))

/-- A rate in NATIVE mode is clamped and restarts the watchdog (R335, R343). -/
theorem lightRateAdjWrite_native (hq : s.grants q false = true) (hmode : s.on (F.LIGHT_CTL_MODE d) = false) (adj : BitVec 40) :
    Runs (.lightRateAdjWrite q d adj) s fun t =>
      sext 40 (t.rd (F.LIGHT_RATE_ADJ_ADJ d)) = max (-65536000000) (min adj.toInt 65536000000) ∧ (t.dom d).wdFrom = s.now ∧
        t.dom d = { s.dom d with wdFrom := s.now } ∧
        changes [F.LIGHT_RATE_ADJ_ADJ d] s { t with domA := s.domA, domB := s.domB } := by
  have hdom : (s.setDom d { s.dom d with wdFrom := s.now }).dom d = { s.dom d with wdFrom := s.now } :=
    (s.dom_setDom d d _).trans (if_pos rfl)
  have hrest : ({ s.setDom d { s.dom d with wdFrom := s.now } with regs := s.regs, domA := s.domA, domB := s.domB } : State) = s := by
    unfold State.setDom
    split
    · rfl
    · rfl
  refine .of_granted (t := (s.setDom d { s.dom d with wdFrom := s.now }).wr (F.LIGHT_RATE_ADJ_ADJ d) (trunc 40 (clampAdj adj.toInt))) hq
    (if_congr Iff.rfl rfl (congrArg _ (if_neg (by simp [hmode])))) ⟨?_, congrArg Dom.wdFrom hdom, hdom, ?_⟩
  · rw [State.rd_wr_self]
    exact sext_trunc_clampAdj _
  · refine ⟨fun f hf => ?_, hrest⟩
    exact (State.rd_wr_ne _ _ (hf _ List.mem_cons_self)).trans (State.rd_setDom ..)

/-- The increment of DIRECT mode is the register's (R336). -/
theorem lightIncrWrite_direct (hq : s.grants q false = true) (hmode : s.on (F.LIGHT_CTL_MODE d) = true) (incr : BitVec 40) :
    Runs (.lightIncrWrite q d incr) s fun t => t.rd (F.LIGHT_INCR_INCR d) = incr.toNat ∧ changes [F.LIGHT_INCR_INCR d] s t :=
  .of_granted (t := s.wr (F.LIGHT_INCR_INCR d) incr.toNat) hq (if_congr Iff.rfl rfl (congrArg _ (if_pos hmode)))
    ⟨(State.rd_wr_self ..).trans (Nat.mod_eq_of_lt incr.isLt), (changes.refl s).wr List.mem_cons_self _⟩

/-- MODE changes in FREE, and a change to DIRECT loads the increment of the last tick (R338). -/
theorem lightModeWrite_free (hq : s.grants q false = true) (hfree : s.lightState d = 0) (mode : Bool)
    (hmode : s.on (F.LIGHT_CTL_MODE d) ≠ mode) :
    Runs (.lightModeWrite q d mode) s fun t => t.on (F.LIGHT_CTL_MODE d) = mode ∧
      (mode = true → t.rd (F.LIGHT_INCR_INCR d) = (s.dom d).eff / 2 ^ 24 % 2 ^ 40) ∧ changes [F.LIGHT_CTL_MODE d, F.LIGHT_INCR_INCR d] s t := by
  refine .of_granted
    (t := (if mode then s.wr (F.LIGHT_INCR_INCR d) ((s.dom d).eff / 2 ^ 24) else s).wrB (F.LIGHT_CTL_MODE d) mode) hq
    (if_congr Iff.rfl rfl (congrArg _ ((if_neg hmode).trans (if_neg (by simp [hfree]))))) ⟨State.on_wrB_self _ _ Nat.one_pos, ?_, ?_⟩
  · rintro rfl
    rw [if_pos rfl, State.wrB, State.rd_wr_of_reg_ne _ _ (by nofun), State.rd_wr_self]
    rfl
  · refine changes.wrB ?_ (by simp) mode
    split
    · exact (changes.refl s).wr (by simp) _
    · exact .refl s

end Controls

/-- Settles O15: the requests follow the table of states, and the control writes their modes. -/
theorem lightControls : Obligations.LightControls := by
  refine ⟨fun s q d hq => lightRequests s q d hq, fun s q d hq => ⟨lightSnap_copies s d, .of_exec rfl rfl,
    lightRateAdjWrite_native s q d hq, lightIncrWrite_direct s q d hq, lightModeWrite_free s q d hq,
    fun hmode adj hadj => .of_granted hq ?_ (s.discard_discarded ..), fun hmode incr hincr => .of_granted hq ?_ (s.discard_discarded ..),
    fun hstate mode hmode => .of_granted hq ?_ (s.discard_discarded ..)⟩⟩
  · exact if_congr Iff.rfl rfl (congrArg _ ((if_pos hmode).trans (if_neg (Ne.symm hadj))))
  · exact if_congr Iff.rfl rfl (congrArg _ ((if_neg (by simp [hmode])).trans (if_neg (Ne.symm hincr))))
  · exact if_congr Iff.rfl rfl (congrArg _ ((if_neg hmode).trans (if_pos hstate)))

end Sys2Proof.Machine
end

section
/-! SUPPORT. Steps of the Lighthouse domains (R338 to R340), and their statement. -/

set_option Elab.async false

namespace Sys2Proof.Machine

/-- The gated ports count a step of domain A (R340). -/
def State.gateSteps (s : State) : State :=
  (List.range 512).foldl (fun s p =>
    if s.on (F.TM_GATE_CTL_EN p) || s.on (F.TM_GATE_STATUS_PENDING p) then s.satAdd (F.TM_GATE_STATUS_STEPS p) 1 else s) s

theorem State.gateSteps_touches (s : State) : touches [.TM_GATE_STATUS] s s.gateSteps :=
  (touches.refl s).foldl fun u p => ((touches.refl u).satAdd (show RegName.TM_GATE_STATUS ∈ _ by decide) 1).ite (.refl u)

theorem State.stepEffects_zero (s : State) :
    s.stepEffects 0 = State.gateSteps { (s.satAdd (F.LIGHT_STATUS_DISC 0) 1).raise .light 0 1 with dumpStep := true } := by
  unfold State.stepEffects State.gateSteps
  exact if_pos rfl

/-- The flag of the next counter dump, and the steps that the gated ports count, are all that a step of domain A marks besides (R328). -/
theorem State.stepEffects_eq (s : State) (d : Nat) : touches [.TM_GATE_STATUS]
    { (s.satAdd (F.LIGHT_STATUS_DISC d) 1).raise .light 0 1 with dumpStep := d = 0 || s.dumpStep } (s.stepEffects d) := by
  by_cases hd : d = 0
  · subst hd
    rw [State.stepEffects_zero]
    exact State.gateSteps_touches _
  · have hnone : s.stepEffects d = (s.satAdd (F.LIGHT_STATUS_DISC d) 1).raise .light 0 1 := if_neg hd
    have hflag : ((s.satAdd (F.LIGHT_STATUS_DISC d) 1).raise .light 0 1).dumpStep = s.dumpStep := State.raise_dumpStep ..
    rw [hnone, decide_eq_false hd, Bool.false_or, ← hflag]
    exact .refl _

section Effects

variable (s : State) (d : Nat)

/-- What a step writes of LIGHT_STATUS is DISC (R340). -/
theorem State.stepEffects_rd {f : Fld} (hint : f.reg ≠ .LIGHT_INT_STATUS) (hgate : f.reg ≠ .TM_GATE_STATUS) :
    (s.stepEffects d).rd f = (s.satAdd (F.LIGHT_STATUS_DISC d) 1).rd f := by
  have ht := s.stepEffects_eq d
  rw [ht.rd (by simpa using hgate)]
  exact State.rd_raise_of_reg_ne _ hint

theorem State.stepEffects_disc : (s.stepEffects d).rd (F.LIGHT_STATUS_DISC d) = min (s.rd (F.LIGHT_STATUS_DISC d) + 1) (2 ^ 16 - 1) :=
  (s.stepEffects_rd d (by nofun) (by nofun)).trans (State.rd_satAdd_self ..)

theorem State.stepEffects_intBit : (s.stepEffects d).intBit .light 0 1 = true := by
  have ht := s.stepEffects_eq d
  rw [State.intBit, ht.rd (by decide)]
  exact State.intBit_raise_self _ .light 0 1 (by decide)

theorem State.stepEffects_dom (e : Nat) : (s.stepEffects d).dom e = s.dom e := by
  have ht := s.stepEffects_eq d
  rw [State.dom, ht.domA, ht.domB]
  exact State.dom_raise ..

theorem State.stepEffects_dumpStep : (s.stepEffects d).dumpStep = (d = 0 || s.dumpStep) := by
  exact (congrArg State.dumpStep (s.stepEffects_eq d).2 :)

theorem State.stepEffects_touches :
    touches [.LIGHT_STATUS, .LIGHT_INT_STATUS, .TM_GATE_STATUS] s { s.stepEffects d with dumpStep := s.dumpStep } := by
  have ht := s.stepEffects_eq d
  have hraised : touches [.LIGHT_STATUS, .LIGHT_INT_STATUS, .TM_GATE_STATUS] s ((s.satAdd (F.LIGHT_STATUS_DISC d) 1).raise .light 0 1) :=
    ((touches.refl s).satAdd (show RegName.LIGHT_STATUS ∈ _ by decide) 1).raise (b := .light) (i := 0) (by decide) 1
  obtain ⟨hreads, hrest⟩ := ht.mono (qs := [.LIGHT_STATUS, .LIGHT_INT_STATUS, .TM_GATE_STATUS]) (by simp)
  exact ⟨(hraised.1.trans (hreads : _)).congr rfl,
    (congrArg (fun x : State => { x with regs := s.regs, out := s.out, msixPend := s.msixPend, dumpStep := s.dumpStep }) hrest).trans
      (hraised.rest fun x : State => { x with regs := s.regs, out := s.out, msixPend := s.msixPend, dumpStep := s.dumpStep })⟩

end Effects

/-! ### An accepted step (R338, R339) -/

section Accept

variable (s : State) (d : Fin 2) (x : LightStep)

/-- In NATIVE mode the stay in ACQUIRE has had its one step (R338). -/
def State.stepUsed (s : State) (d : Nat) : State :=
  if s.on (F.LIGHT_CTL_MODE d) then s else s.wrB (F.LIGHT_STATUS_STEP_USED d) true

theorem State.stepUsed_dom (e : Nat) : (s.stepUsed d).dom e = s.dom e := by
  unfold State.stepUsed
  split <;> rfl

/-- The step waits for the next tick (R339). -/
def State.stepTaken (s : State) (d : Nat) (x : LightStep) : State :=
  (s.stepUsed d).setDom d { (s.stepUsed d).dom d with steps := ((s.stepUsed d).dom d).steps ++ [x] }

theorem State.stepTaken_dom (e : Fin 2) :
    (s.stepTaken d x).dom e = if e = d then { s.dom d with steps := (s.dom d).steps ++ [x] } else s.dom e := by
  unfold State.stepTaken
  rw [State.dom_setDom, State.stepUsed_dom, State.stepUsed_dom]

theorem State.stepTaken_signals : lightSignals [F.LIGHT_STATUS_STEP_USED d] s (s.stepTaken d x) := by
  refine lightSignals.setDom ?_ _ _
  unfold State.stepUsed
  split
  · exact .refl s
  · exact (lightSignals.refl s).wrB List.mem_cons_self true

theorem State.stepTaken_used (h : s.on (F.LIGHT_CTL_MODE d) = false) : (s.stepTaken d x).on (F.LIGHT_STATUS_STEP_USED d) = true := by
  rw [State.stepTaken, State.on, State.rd_setDom, State.stepUsed, if_neg (by simp [h]), State.rd_wrB_self _ _ _ Nat.one_pos]
  rfl

/-- A step counts in its own domain, and one of domain B in domain A too where that follows (R339, R344). -/
theorem State.acceptStep_eq : s.acceptStep d x =
    if d.val = 1 && ((s.stepTaken d x).stepEffects d).following then ((s.stepTaken d x).stepEffects d).stepEffects 0
    else (s.stepTaken d x).stepEffects d := rfl

/-- What holds of the state in which the step has counted in its own domain, and stays when it counts in domain A, holds of an accepted step. -/
theorem State.acceptStep_induct {p : State → Prop} (hown : p ((s.stepTaken d x).stepEffects d))
    (hfollower : ∀ t (e : Nat), e ≠ d → p t → p (t.stepEffects e)) : p (s.acceptStep d x) := by
  rw [State.acceptStep_eq]
  split
  · next h =>
    simp only [Bool.and_eq_true, decide_eq_true_eq] at h
    exact hfollower _ 0 (by omega) hown
  · exact hown

theorem State.acceptStep_dom (e : Fin 2) :
    (s.acceptStep d x).dom e = if e = d then { s.dom d with steps := (s.dom d).steps ++ [x] } else s.dom e := by
  rw [← State.stepTaken_dom]
  exact s.acceptStep_induct d x (p := fun t => t.dom e = (s.stepTaken d x).dom e) (State.stepEffects_dom ..)
    fun t k _ ht => (t.stepEffects_dom k e).trans ht

theorem State.acceptStep_disc :
    (s.acceptStep d x).rd (F.LIGHT_STATUS_DISC d) = min (s.rd (F.LIGHT_STATUS_DISC d) + 1) (2 ^ 16 - 1) := by
  refine s.acceptStep_induct d x (p := fun t => t.rd (F.LIGHT_STATUS_DISC d) = _) ?_ fun t e he ht => ?_
  · have hsame : (s.stepTaken d x).rd (F.LIGHT_STATUS_DISC d) = s.rd (F.LIGHT_STATUS_DISC d) :=
      (s.stepTaken_signals d x).1 _ (by simp [Fld.key_eq, F.LIGHT_STATUS_DISC, F.LIGHT_STATUS_STEP_USED])
    rw [State.stepEffects_disc, hsame]
  · rw [State.stepEffects_rd _ _ (by nofun) (by nofun), State.satAdd,
      State.rd_wr_ne _ _ (by simpa [Fld.key_eq, F.LIGHT_STATUS_DISC] using Ne.symm he), ht]

theorem State.acceptStep_intBit : (s.acceptStep d x).intBit .light 0 1 = true :=
  s.acceptStep_induct d x (p := fun t => t.intBit .light 0 1 = true) (State.stepEffects_intBit ..) fun t e _ _ => t.stepEffects_intBit e

theorem State.acceptStep_used (h : s.on (F.LIGHT_CTL_MODE d) = false) : (s.acceptStep d x).on (F.LIGHT_STATUS_STEP_USED d) = true := by
  have hkept (t : State) (e : Nat) : (t.stepEffects e).on (F.LIGHT_STATUS_STEP_USED d) = t.on (F.LIGHT_STATUS_STEP_USED d) := by
    rw [State.on, State.stepEffects_rd _ _ (by nofun) (by nofun), State.satAdd, State.rd_wr_of_lo_ne _ _ (by nofun)]
    rfl
  exact s.acceptStep_induct d x ((hkept ..).trans (s.stepTaken_used d x h)) fun t e _ ht => (hkept t e).trans ht

theorem State.acceptStep_dumpStep (hd : d = 0) : (s.acceptStep d x).dumpStep = true :=
  s.acceptStep_induct d x (p := fun t => t.dumpStep = true) ((State.stepEffects_dumpStep ..).trans (by simp [hd]))
    fun t e _ ht => (t.stepEffects_dumpStep e).trans (by simp [ht])

/-- What an accepted step changes beside the two times and the flag of the next counter dump. -/
theorem State.acceptStep_touches : touches [.LIGHT_STATUS, .LIGHT_INT_STATUS, .TM_GATE_STATUS] s
    { s.acceptStep d x with domA := s.domA, domB := s.domB, dumpStep := s.dumpStep } := by
  have hcounts (t : State) (e : Nat)
      (ht : touches [.LIGHT_STATUS, .LIGHT_INT_STATUS, .TM_GATE_STATUS] s { t with domA := s.domA, domB := s.domB, dumpStep := s.dumpStep }) :
      touches [.LIGHT_STATUS, .LIGHT_INT_STATUS, .TM_GATE_STATUS] s
        { t.stepEffects e with domA := s.domA, domB := s.domB, dumpStep := s.dumpStep } := by
    have heffects := t.stepEffects_touches e
    exact ⟨(ht.1.trans (heffects.1 : _)).congr rfl,
      (heffects.rest fun y : State => { y with
        regs := s.regs, out := s.out, msixPend := s.msixPend, domA := s.domA, domB := s.domB, dumpStep := s.dumpStep }).trans ht.2⟩
  have htaken := touches.of_signals (rs := [.LIGHT_STATUS, .LIGHT_INT_STATUS, .TM_GATE_STATUS]) (s.stepTaken_signals d x)
    fun f hf => List.mem_singleton.1 hf ▸ (show RegName.LIGHT_STATUS ∈ _ by decide)
  have hflag : (s.stepTaken d x).dumpStep = s.dumpStep := (congrArg State.dumpStep htaken.2 :)
  exact s.acceptStep_induct d x (hcounts _ d (by rw [← hflag]; exact htaken)) fun t e _ ht => hcounts t e ht

end Accept

/-- Settles O14: an allowed step waits and counts, any other is discarded. -/
theorem lightSteps : Obligations.LightSteps := by
  refine fun s q d hq => ⟨fun hallowed => ?_, fun hallowed => ?_⟩
  · refine .of_granted hq (if_congr Iff.rfl rfl (congrArg _ (if_pos hallowed))) ?_
    generalize LightStep.mk .. = x
    refine ⟨(s.acceptStep_dom d x d).trans (if_pos rfl), State.rd_wr_self .., ?_, ?_, fun hmode => ?_, ?_,
      fun e he => (s.acceptStep_dom d x e).trans (if_neg he), ?_, ?_⟩
    · exact (State.rd_wr_of_reg_ne _ _ (by nofun)).trans (s.acceptStep_disc d x)
    · rw [State.intBit, State.rd_wr_of_reg_ne _ _ (by nofun)]
      exact s.acceptStep_intBit d x
    · rw [State.on, State.rd_wr_of_reg_ne _ _ (by nofun)]
      exact s.acceptStep_used d x hmode
    · exact fun hd => s.acceptStep_dumpStep d x hd
    · exact (((s.acceptStep_touches d x).1.mono (by simp)).congr (t := s.acceptStep d x) rfl).wr
        (show RegName.LIGHT_STEP_CTL ∈ _ by decide) 1
    · exact (s.acceptStep_touches d x).2
  · refine .of_granted hq (if_congr Iff.rfl rfl (congrArg _ (if_neg (by simp [hallowed])))) ?_
    obtain ⟨hsignals, hcount, hint, -⟩ :=
      (((s.wr (F.LIGHT_STEP_CTL_RESULT d) 2).raise .light 0 2)).discard_discarded q (regAddr .LIGHT_STEP_CTL d) (s.lightState d) 0
    have hraised : signals [F.LIGHT_STEP_CTL_RESULT d, F.LIGHT_INT_STATUS_BITS] s ((s.wr (F.LIGHT_STEP_CTL_RESULT d) 2).raise .light 0 2) :=
      ((signals.refl s).wr (by simp) 2).raise (b := .light) (i := 0) (by simp [intStatus]) 2
    have hother {f : Fld} (h : ∀ g ∈ discardFields, f.reg ≠ g.reg) := hsignals.1 f fun g hg e => h g hg (Fld.key_eq.1 e).1
    refine ⟨?_, ?_, ?_, hint, (hraised.mono (by simp)).trans (hsignals.mono fun _ hf => List.mem_append_right _ hf)⟩
    · rw [State.locked, hother (show ∀ g ∈ discardFields, RegName.LIGHT_STEP_CTL ≠ g.reg by decide), State.rd_raise_of_reg_ne _ (by nofun), State.rd_wr_self]
      rfl
    · rw [State.locked, State.intBit, hother (show ∀ g ∈ discardFields, RegName.LIGHT_INT_STATUS ≠ g.reg by decide)]
      exact State.intBit_raise_self _ .light 0 2 (by decide)
    · rw [State.locked, hcount, State.rd_raise_of_reg_ne _ (by nofun), State.rd_wr_of_reg_ne _ _ (by nofun)]

end Sys2Proof.Machine
end

section
/-! SUPPORT. The statements on the timing pins, the capture FIFOs and the time compare (R355 to R358, R453), and on time ticks (R334, R335). -/

set_option Elab.async false

namespace Sys2Proof.Machine

/-! ### Edges of PPS_IN (R343, R357) -/

section Pps

variable (s : State) (sub : Nat)

/-- An edge is accepted: the watches of both domains count from it (R343). -/
def State.ppsAccepted (s : State) : State :=
  { s with ppsLast := some s.now, domA := { s.domA with ppsFromS := s.domA.sec, ppsFromNs := s.domA.ns },
           domB := { s.domB with ppsFromS := s.domA.sec, ppsFromNs := s.domA.ns } }

/-- The timestamps of an accepted edge (R357). -/
def State.ppsWritten (s : State) (sub : Nat) : State :=
  ((s.wr (F.LIGHT_PPS_IN_TS_TS 0) (s.domA.ts64 sub)).wr (F.LIGHT_PPS_IN_TS_TS 1) (s.domB.ts64 sub)).wrB F.LIGHT_PPS_IN_STAT_VALID true

/-- A record waits to be read (R357). -/
def State.ppsWaits (s : State) : State := { s with ppsUnread := true }

theorem State.rd_ppsWaits (f : Fld) : s.ppsWaits.rd f = s.rd f := rfl

theorem State.dom_ppsWaits (e : Nat) : s.ppsWaits.dom e = s.dom e := rfl

theorem State.ppsLast_ppsWaits : s.ppsWaits.ppsLast = s.ppsLast := rfl

theorem State.ppsUnread_ppsWaits : s.ppsWaits.ppsUnread = true := rfl

/-- The timestamps of an accepted edge are recorded and wait (R357). -/
def State.ppsStamped (s : State) (sub : Nat) : State := (s.ppsWritten sub).ppsWaits

/-- A record that was not read is lost (R357). -/
def State.ppsOverrun (s : State) : State := (s.wrB F.LIGHT_PPS_IN_STAT_OVERRUN true).raise .light 0 6

theorem execPpsInEdge_accepts (sub : Fin 16) (h : s.ppsLast.any (fun t => s.now - t < 800000000) = false) :
    exec (.ppsInEdge sub) s = .next (
      if s.on F.LIGHT_PPS_IN_CFG_EN then
        if s.ppsUnread then (s.ppsAccepted.ppsStamped sub).ppsOverrun else s.ppsAccepted.ppsStamped sub
      else s.ppsAccepted) := congrArg Host.Outcome.next (if_neg (by simp [h]))

theorem Dom.ts64_lt (x : Dom) : x.ts64 sub < 2 ^ 64 := Nat.mod_lt _ (Nat.two_pow_pos _)

theorem State.ppsStamped_ts : (s.ppsStamped sub).rd (F.LIGHT_PPS_IN_TS_TS 0) = s.domA.ts64 sub ∧
    (s.ppsStamped sub).rd (F.LIGHT_PPS_IN_TS_TS 1) = s.domB.ts64 sub ∧ (s.ppsStamped sub).on F.LIGHT_PPS_IN_STAT_VALID = true := by
  have hvalid : (s.ppsWritten sub).on F.LIGHT_PPS_IN_STAT_VALID = true := State.on_wrB_self _ _ Nat.one_pos
  refine ⟨?_, ?_, by rwa [State.ppsStamped, State.on, State.rd_ppsWaits]⟩
  · rw [State.ppsStamped, State.rd_ppsWaits, State.ppsWritten, State.wrB, State.rd_wr_of_reg_ne _ _ (by decide), State.rd_wr_ne _ _ (by simp [Fld.key_eq, F.LIGHT_PPS_IN_TS_TS]), State.rd_wr_self]
    exact Nat.mod_eq_of_lt (Dom.ts64_lt ..)
  · rw [State.ppsStamped, State.rd_ppsWaits, State.ppsWritten, State.wrB, State.rd_wr_of_reg_ne _ _ (by decide), State.rd_wr_self]
    exact Nat.mod_eq_of_lt (Dom.ts64_lt ..)

/-- The overrun leaves what was recorded. -/
theorem State.ppsOverrun_ts : (s.ppsOverrun).rd (F.LIGHT_PPS_IN_TS_TS 0) = s.rd (F.LIGHT_PPS_IN_TS_TS 0) ∧
    s.ppsOverrun.rd (F.LIGHT_PPS_IN_TS_TS 1) = s.rd (F.LIGHT_PPS_IN_TS_TS 1) ∧
    s.ppsOverrun.on F.LIGHT_PPS_IN_STAT_VALID = s.on F.LIGHT_PPS_IN_STAT_VALID := by
  refine ⟨?_, ?_, congrArg (· ≠ 0 : Nat → Bool) ?_⟩
  · exact (State.rd_raise_of_reg_ne _ (by decide)).trans (State.rd_wr_of_reg_ne _ _ (by decide))
  · exact (State.rd_raise_of_reg_ne _ (by decide)).trans (State.rd_wr_of_reg_ne _ _ (by decide))
  · exact (State.rd_raise_of_reg_ne _ (by decide)).trans (State.rd_wr_of_lo_ne _ _ (by decide))

theorem State.ppsOverrun_told : s.ppsOverrun.on F.LIGHT_PPS_IN_STAT_OVERRUN = true ∧ s.ppsOverrun.intBit .light 0 6 = true := by
  refine ⟨?_, State.intBit_raise_self _ _ _ _ (by decide)⟩
  unfold State.ppsOverrun
  rw [State.on, State.rd_raise_of_reg_ne _ (by decide), State.rd_wrB_self _ _ _ Nat.one_pos]
  rfl

end Pps

/-- The fields that an edge of PPS_IN changes (R357). -/
def ppsFields : List Fld :=
  [F.LIGHT_PPS_IN_TS_TS 0, F.LIGHT_PPS_IN_TS_TS 1, F.LIGHT_PPS_IN_STAT_VALID, F.LIGHT_PPS_IN_STAT_OVERRUN, F.LIGHT_INT_STATUS_BITS]

/-- Beside the times, the record of the last edge and the note of an unread one, only the fields of PPS_IN differ. -/
def ppsSignals (s t : State) : Prop :=
  signals ppsFields s { t with ppsLast := s.ppsLast, ppsUnread := s.ppsUnread, domA := s.domA, domB := s.domB }

theorem ppsSignals.of_signals {s t u : State} (h : ppsSignals s t) (k : signals ppsFields t u) : ppsSignals s u := by
  obtain ⟨hreads, hrest, l, hl, hmsix⟩ := h
  obtain ⟨kreads, krest, m, hm, kmsix⟩ := k
  refine ⟨hreads.trans kreads, ?_, m ++ l, ?_, fun o ho => (List.mem_append.1 ho).elim (kmsix o) (hmsix o)⟩
  · exact (congrArg (fun x : State => { x with
      regs := s.regs, out := s.out, msixPend := s.msixPend, ppsLast := s.ppsLast, ppsUnread := s.ppsUnread, domA := s.domA, domB := s.domB })
      krest).trans hrest
  · rw [List.append_assoc, ← hl]
    exact hm

theorem ppsSignals.unread {s t : State} (h : ppsSignals s t) (b : Bool) : ppsSignals s { t with ppsUnread := b } := h

section Pps

variable (s : State)

theorem State.ppsAccepted_signals : ppsSignals s s.ppsAccepted := signals.refl s

theorem State.ppsWritten_signals (sub : Nat) : ppsSignals s (s.ppsAccepted.ppsWritten sub) :=
  s.ppsAccepted_signals.of_signals ((((signals.refl _).wr (f := F.LIGHT_PPS_IN_TS_TS 0) (by simp [ppsFields]) _).wr
    (f := F.LIGHT_PPS_IN_TS_TS 1) (by simp [ppsFields]) _).wrB (f := F.LIGHT_PPS_IN_STAT_VALID) (by simp [ppsFields]) true)

theorem State.ppsStamped_signals (sub : Nat) : ppsSignals s (s.ppsAccepted.ppsStamped sub) := (s.ppsWritten_signals sub).unread true

theorem State.ppsOverrun_signals : signals ppsFields s s.ppsOverrun :=
  ((signals.refl s).wrB (f := F.LIGHT_PPS_IN_STAT_OVERRUN) (by simp [ppsFields]) true).raise (b := .light) (i := 0) (by simp [ppsFields, intStatus]) 6

theorem State.dom_ppsOverrun (e : Nat) : s.ppsOverrun.dom e = s.dom e := State.dom_raise ..

theorem State.ppsLast_ppsOverrun : s.ppsOverrun.ppsLast = s.ppsLast := State.raise_ppsLast ..

theorem State.ppsUnread_ppsOverrun : s.ppsOverrun.ppsUnread = s.ppsUnread := State.raise_ppsUnread ..

/-- The watches of both domains count from an accepted edge, and their times stay (R343). -/
theorem State.ppsAccepted_dom (e : Fin 2) : (s.ppsAccepted.dom e).ppsFromS = s.domA.sec ∧ (s.ppsAccepted.dom e).ppsFromNs = s.domA.ns ∧
    (s.ppsAccepted.dom e).total = (s.dom e).total := by
  fin_cases e
  · exact ⟨rfl, rfl, rfl⟩
  · exact ⟨rfl, rfl, rfl⟩

theorem State.ppsAccepted_ts64 (sub : Nat) :
    s.ppsAccepted.domA.ts64 sub = s.domA.ts64 sub ∧ s.ppsAccepted.domB.ts64 sub = s.domB.ts64 sub := ⟨rfl, rfl⟩

theorem State.dom_ppsStamped (sub e : Nat) : (s.ppsStamped sub).dom e = s.dom e := by
  rw [State.ppsStamped, State.dom_ppsWaits, State.dom, State.ppsWritten, State.wrB_domA, State.wrB_domB, State.wr_domA, State.wr_domB,
    State.wr_domA, State.wr_domB]
  rfl

theorem State.ppsLast_ppsStamped (sub : Nat) : (s.ppsStamped sub).ppsLast = s.ppsLast := by
  rw [State.ppsStamped, State.ppsLast_ppsWaits, State.ppsWritten, State.wrB_ppsLast, State.wr_ppsLast, State.wr_ppsLast]

theorem State.ppsUnread_ppsStamped (sub : Nat) : (s.ppsStamped sub).ppsUnread = true := rfl

/-- What an accepted edge of PPS_IN does (R343, R357). -/
theorem ppsInEdge_accepted (sub : Fin 16) (h : s.ppsLast.any (fun t => s.now - t < 800000000) = false) : Runs (.ppsInEdge sub) s fun t =>
    t.ppsLast = some s.now ∧
    (∀ e : Fin 2, (t.dom e).ppsFromS = s.domA.sec ∧ (t.dom e).ppsFromNs = s.domA.ns ∧ (t.dom e).total = (s.dom e).total) ∧
    (s.on F.LIGHT_PPS_IN_CFG_EN = true → t.rd (F.LIGHT_PPS_IN_TS_TS 0) = s.domA.ts64 sub ∧ t.rd (F.LIGHT_PPS_IN_TS_TS 1) = s.domB.ts64 sub ∧
      t.on F.LIGHT_PPS_IN_STAT_VALID = true ∧ t.ppsUnread = true ∧
      (s.ppsUnread = true → t.on F.LIGHT_PPS_IN_STAT_OVERRUN = true ∧ t.intBit .light 0 6 = true)) ∧
    ppsSignals s t := by
  have hdom := s.ppsAccepted_dom
  obtain ⟨hts0, hts1, hvalid⟩ := s.ppsAccepted.ppsStamped_ts sub
  obtain ⟨hA, hB⟩ := s.ppsAccepted_ts64 sub
  rw [hA] at hts0
  rw [hB] at hts1
  refine .of_exec (execPpsInEdge_accepts s sub h) ?_
  split_ifs with hen hunread
  · obtain ⟨kts0, kts1, kvalid⟩ := (s.ppsAccepted.ppsStamped sub).ppsOverrun_ts
    refine ⟨?_, fun e => ?_, fun _ => ⟨kts0.trans hts0, kts1.trans hts1, kvalid.trans hvalid, ?_, fun _ => State.ppsOverrun_told _⟩,
      (s.ppsStamped_signals sub).of_signals (State.ppsOverrun_signals _)⟩
    · rw [State.ppsLast_ppsOverrun, State.ppsLast_ppsStamped]
      rfl
    · rw [State.dom_ppsOverrun, State.dom_ppsStamped]
      exact hdom e
    · rw [State.ppsUnread_ppsOverrun, State.ppsUnread_ppsStamped]
  · refine ⟨State.ppsLast_ppsStamped .., fun e => ?_, fun _ => ⟨hts0, hts1, hvalid, State.ppsUnread_ppsStamped .., fun hu => absurd hu hunread⟩,
      s.ppsStamped_signals sub⟩
    rw [State.dom_ppsStamped]
    exact hdom e
  · exact ⟨rfl, hdom, fun hon => absurd hon hen, s.ppsAccepted_signals⟩

end Pps

/-! ### Capture FIFOs (R355) -/

section Capture

variable (s : State) (q : Requester) (i : Fin 16)

theorem tsfPop_empty (hq : s.grants q false = true) (hfifo : mget s.tsf i [] = []) : Runs (.tsfPop q i) s fun t =>
    t = { s with out := .readData q (regAddr .LIGHT_TSF_POP (4 * i)) 4 0 :: s.out } := by
  refine .of_granted hq rfl ?_
  unfold State.tsfPop
  rw [hfifo]
  rfl

theorem State.tsfPop_cons {e : TsfEntry} {l : List TsfEntry} (hfifo : mget s.tsf i [] = e :: l) :
    s.tsfPop i = (e.w0, { s with tsf := mset s.tsf i l [], tsfLatch := mset s.tsfLatch i (e.w1, e.ts) (0, 0) }.wr
      (F.LIGHT_TSF_STATUS_COUNT i) l.length) := by
  unfold State.tsfPop
  rw [hfifo]

theorem tsfPop_oldest (hq : s.grants q false = true) (e : TsfEntry) (l : List TsfEntry) (hfifo : mget s.tsf i [] = e :: l) :
    Runs (.tsfPop q i) s fun t =>
      t.out = .readData q (regAddr .LIGHT_TSF_POP (4 * i)) 4 e.w0 :: s.out ∧ mget t.tsf i [] = l ∧ mget t.tsfLatch i (0, 0) = (e.w1, e.ts) ∧
      t.rd (F.LIGHT_TSF_STATUS_COUNT i) = l.length % 2 ^ 10 ∧ (∀ k : Nat, k ≠ i → mget t.tsf k [] = mget s.tsf k []) ∧
      changes [F.LIGHT_TSF_STATUS_COUNT i] s { t with tsf := s.tsf, tsfLatch := s.tsfLatch, out := s.out } := by
  refine .of_granted hq rfl ?_
  rw [State.tsfPop_cons s i hfifo]
  refine ⟨rfl, ?_, ?_, State.rd_wr_self .., fun k hk => ?_, fun f hf => State.rd_wr_ne _ _ (hf _ List.mem_cons_self), rfl⟩
  · exact mget_mset_self s.tsf i l []
  · exact mget_mset_self s.tsfLatch i (e.w1, e.ts) (0, 0)
  · exact mget_mset_ne s.tsf l [] [] hk

end Capture

/-! ### The time compare (R453) -/

section Compare

variable (s : State)

theorem State.tidemark_keeps_time (src logSeq : Nat) :
    (s.tidemark src logSeq).domA = s.domA ∧ (s.tidemark src logSeq).domB = s.domB ∧ (s.tidemark src logSeq).hbm = s.hbm ∧
      (s.tidemark src logSeq).fuses = s.fuses ∧ (s.tidemark src logSeq).cmpAt = s.cmpAt := by
  unfold State.tidemark
  dsimp only
  split_ifs <;> exact ⟨rfl, rfl, rfl, rfl, rfl⟩

theorem execTimeCompareFire_eq : exec .timeCompareFire s = .next (
    if s.on F.LIGHT_TM_CMP_NS_ARM && s.cmpAt.any (fun t => t.1 * 1000000000 + t.2 ≤ s.domA.sec * 1000000000 + s.domA.ns) then
      (({ s with cmpAt := none }.wrB F.LIGHT_TM_CMP_NS_ARM false).raise .light 0 7).tidemark 1 0
    else s) := rfl

/-- The armed compare judges whether domain A has reached its instant. -/
theorem cmpAt_any {x : Nat × Nat} (hat : s.cmpAt = some x) (n : Nat) :
    s.cmpAt.any (fun t => t.1 * 1000000000 + t.2 ≤ n) = decide (x.1 * 1000000000 + x.2 ≤ n) := by
  rw [hat, Option.any_some]

/-- The compare whose instant is reached disarms and raises its interrupt. -/
theorem timeCompareFire_fires (harm : s.on F.LIGHT_TM_CMP_NS_ARM = true) (x : Nat × Nat) (hat : s.cmpAt = some x)
    (hreached : x.1 * 1000000000 + x.2 ≤ s.domA.sec * 1000000000 + s.domA.ns) : Runs .timeCompareFire s fun t =>
      t.on F.LIGHT_TM_CMP_NS_ARM = false ∧ t.cmpAt = none ∧ t.intBit .light 0 7 = true ∧ t.domA = s.domA ∧ t.domB = s.domB ∧ t.hbm = s.hbm ∧
        t.fuses = s.fuses := by
  refine .of_exec ((execTimeCompareFire_eq s).trans (congrArg _ (if_pos ?_))) ?_
  · rw [harm, cmpAt_any s hat, decide_eq_true hreached]
    rfl
  generalize hu : ({ s with cmpAt := none }.wrB F.LIGHT_TM_CMP_NS_ARM false).raise .light 0 7 = u
  have hreads := u.tidemark_readsOff 1 0
  obtain ⟨hA, hB, hhbm, hfuses, hcmp⟩ := u.tidemark_keeps_time 1 0
  subst hu
  refine ⟨?_, ?_, ?_, ?_, ?_, ?_, ?_⟩
  · rw [State.on, hreads _ (by decide), State.rd_raise_of_reg_ne _ (by decide), State.rd_wrB_self _ _ _ Nat.one_pos]
    rfl
  · rw [hcmp, State.raise_cmpAt, State.wrB_cmpAt]
  · rw [State.intBit, hreads _ (by decide)]
    exact State.intBit_raise_self _ .light 0 7 (by decide)
  · rw [hA, State.raise_domA, State.wrB_domA]
  · rw [hB, State.raise_domB, State.wrB_domB]
  · rw [hhbm, State.raise_hbm, State.wrB_hbm]
  · rw [hfuses, State.raise_fuses, State.wrB_fuses]

end Compare

/-- Settles O17: the rules of the pins, of the FIFOs and of the compare. -/
theorem timingInputs : Obligations.TimingInputs := by
  refine ⟨fun s => ⟨fun sub h => .of_exec (t := s) (congrArg _ (if_pos h)) rfl, fun sub h => ppsInEdge_accepted s sub h, fun hen hsecond => ?_,
    fun hsecond phase => ?_⟩,
    fun s q i => ⟨tsfPop_empty s q i, tsfPop_oldest s q i, timeCompareFire_fires s, fun x hat hearly => ?_⟩⟩
  · refine .of_exec (congrArg Host.Outcome.next (if_pos (by simp only [hen, hsecond, Bool.and_self]))) ⟨List.mem_cons_self, ?_, rfl⟩
    exact mget_mset_self s.timers _ _ 0
  · refine .of_exec (congrArg Host.Outcome.next (if_pos hsecond)) ⟨?_, State.on_wrB_self _ _ Nat.one_pos,
      ((changes.refl s).wr (by simp) _).wrB (by simp) true⟩
    rw [State.wrB, State.rd_wr_of_lo_ne _ _ (by decide), State.rd_wr_self]
    exact Nat.mod_eq_of_lt (phase.isLt.trans (by decide))
  · refine .of_exec ((execTimeCompareFire_eq s).trans (congrArg _ (if_neg ?_))) rfl
    rw [cmpAt_any s hat, decide_eq_false (Nat.not_le.2 hearly), Bool.and_false]
    decide

end Sys2Proof.Machine
end

section
/-! SUPPORT. Time ticks (R334, R335, R337, R344, R454 to R456), and their statement. -/

set_option Elab.async false

namespace Sys2Proof.Machine

/-! ### Time in units of 2^−56 ns -/

/-- Where the count of a domain's seconds wraps. -/
def timeWrap : Nat := secondUnits * 2 ^ 64

theorem Dom.total_withTotal (x : Dom) (t : Nat) : (x.withTotal t).total = t % timeWrap := by
  have hwhole : t % timeWrap = t % secondUnits + secondUnits * (t / secondUnits % 2 ^ 64) := Nat.mod_mul
  have hfrac : t % secondUnits = t % secondUnits / 2 ^ 56 * 2 ^ 56 + t % 2 ^ 56 := by
    have hmod : t % secondUnits % 2 ^ 56 = t % 2 ^ 56 := Nat.mod_mod_of_dvd _ (Dvd.intro_left _ rfl)
    rw [← hmod]
    exact (Nat.div_add_mod' ..).symm
  change (t / secondUnits % 2 ^ 64 * 1000000000 + t % secondUnits / 2 ^ 56) * 2 ^ 56 + t % 2 ^ 56 = _
  rw [hwhole, Nat.add_mul, Nat.add_assoc, ← hfrac, Nat.mul_assoc, Nat.add_comm, Nat.mul_comm secondUnits]
  rfl

/-- The time of a domain is a number modulo the wrap of its seconds. -/
theorem Dom.withTotal_mod (x : Dom) (t k : Nat) : x.withTotal (t % timeWrap + k) = x.withTotal (t + k) := by
  have hmod : t % timeWrap + k ≡ t + k [MOD timeWrap] := (Nat.mod_modEq t timeWrap).add_right k
  have hunits : t % timeWrap + k ≡ t + k [MOD secondUnits] := hmod.of_mul_right _
  have hfrac : t % timeWrap + k ≡ t + k [MOD 2 ^ 56] := (hunits : _ ≡ _ [MOD 1000000000 * 2 ^ 56]).of_mul_left _
  have hsec : (t % timeWrap + k) / secondUnits % 2 ^ 64 = (t + k) / secondUnits % 2 ^ 64 := by
    rw [← Nat.mod_mul_right_div_self, ← Nat.mod_mul_right_div_self]
    exact congrArg (· / secondUnits) hmod
  unfold Dom.withTotal
  rw [hsec, show _ % secondUnits = _ from hunits, show _ % 2 ^ 56 = _ from hfrac]

/-- A domain as it stands `a` units into its time, with the increment `e`. -/
def Dom.ticked (x : Dom) (e a : Nat) : Dom := { x with eff := e }.withTotal a

theorem Dom.ticked_keepEff (x : Dom) (e a : Nat) : (x.ticked e a).keepEff = x.keepEff := rfl

theorem Dom.ticked_eff (x : Dom) (e a : Nat) : (x.ticked e a).eff = e := rfl

theorem Dom.ticked_ticked (x : Dom) (e a b : Nat) : (x.ticked e a).ticked e b = x.ticked e b := rfl

theorem Dom.total_ticked (x : Dom) (e a : Nat) : (x.ticked e a).total = a % timeWrap := Dom.total_withTotal ..

theorem Dom.ticked_mod (x : Dom) (e t k : Nat) : x.ticked e (t % timeWrap + k) = x.ticked e (t + k) := Dom.withTotal_mod ..

theorem Dom.withTotal_bounds (x : Dom) (t : Nat) : (x.withTotal t).ns < 1000000000 ∧ (x.withTotal t).frac < 2 ^ 56 ∧ (x.withTotal t).sec < 2 ^ 64 := by
  refine ⟨?_, Nat.mod_lt _ (Nat.two_pow_pos _), Nat.mod_lt _ (Nat.two_pow_pos _)⟩
  exact Nat.div_lt_of_lt_mul ((Nat.mod_lt t (by decide : 0 < secondUnits)).trans_eq (Nat.mul_comm ..))

/-! ### What time depends on -/

/-- The registers that give the increments of the domains and count the ticks (R335 to R337, R344). -/
def timeReg (r : RegName) : Bool :=
  match r with
  | .LIGHT_CTL | .LIGHT_STATUS | .LIGHT_RATE_ADJ | .LIGHT_INCR | .LIGHT_TICKS => true
  | _ => false

/-- The two domains, and the registers that their time depends on, stand. -/
structure State.SameTime (s t : State) : Prop where
  domA : t.domA = s.domA
  domB : t.domB = s.domB
  rd : ∀ f : Fld, timeReg f.reg = true → t.rd f = s.rd f

namespace State.SameTime

variable {s t u : State}

theorem refl (s : State) : s.SameTime s := ⟨rfl, rfl, fun _ _ => rfl⟩

theorem trans (h : s.SameTime t) (k : t.SameTime u) : s.SameTime u :=
  ⟨k.domA.trans h.domA, k.domB.trans h.domB, fun f hf => (k.rd f hf).trans (h.rd f hf)⟩

theorem of_touches {rs : List RegName} (h : touches rs s t) (hrs : ∀ r ∈ rs, timeReg r = false) : s.SameTime t :=
  ⟨h.domA, h.domB, fun _ hf => h.rd fun hr => absurd hf (by simp [hrs _ hr])⟩

theorem of_regs (hregs : t.regs = s.regs) (hA : t.domA = s.domA) (hB : t.domB = s.domB) : s.SameTime t :=
  ⟨hA, hB, fun f _ => State.rd_congr hregs f⟩

theorem congr (h : s.SameTime t) (hregs : u.regs = t.regs) (hA : u.domA = t.domA) (hB : u.domB = t.domB) : s.SameTime u :=
  h.trans (.of_regs hregs hA hB)

theorem wr (h : s.SameTime t) {f : Fld} (hf : timeReg f.reg = false) (v : Nat) : s.SameTime (t.wr f v) :=
  h.trans (.of_touches (rs := [f.reg]) ((touches.refl t).wr List.mem_cons_self v) (by simpa using hf))

theorem raise (h : s.SameTime t) {b : Blk} {i : Nat} (hb : timeReg (intStatus b i).reg = false) (e : Nat) : s.SameTime (t.raise b i e) :=
  h.trans (.of_touches (rs := [(intStatus b i).reg]) ((touches.refl t).raise List.mem_cons_self e) (by simpa using hb))

theorem dom (h : s.SameTime t) (d : Nat) : t.dom d = s.dom d := by rw [State.dom, h.domA, h.domB]; rfl

theorem following (h : s.SameTime t) : t.following = s.following := by
  unfold State.following State.on
  rw [h.rd _ rfl]

theorem modeEff (h : s.SameTime t) (d : Nat) : t.modeEff d = s.modeEff d := by
  unfold State.modeEff State.on
  rw [h.rd (F.LIGHT_CTL_MODE d) rfl, h.rd (F.LIGHT_INCR_INCR d) rfl, h.rd (F.LIGHT_RATE_ADJ_ADJ d) rfl]

theorem nextEff (h : s.SameTime t) (d : Nat) : t.nextEff d = s.nextEff d := by
  unfold State.nextEff
  rw [h.following, h.domB, h.modeEff, h.modeEff, h.dom]

theorem now (h : s.SameTime t) : t.now = s.now := h.rd _ rfl

end State.SameTime

/-- A dump edge has one of three ends (R329, R330). -/
theorem State.dumpEdge_ends {p : State → Prop} (s : State) (src1 : Bool) (hskip : p s.dumpNext.dumpSkipped) (hrefuse : p s.dumpNext.dumpRefused)
    (hstart : ∀ d, p (s.dumpNext.dumpStarted d)) : p (s.dumpEdge src1) := by
  cases hfull : s.dumpFull
  · cases hfits : s.dumpFits
    · rw [State.dumpEdge_small src1 hfull hfits]
      exact hrefuse
    · obtain ⟨d, hlatch, -⟩ := State.dumpEdge_latches src1 hfull hfits
      rw [hlatch]
      exact hstart d
  · rw [State.dumpEdge_full src1 hfull]
    exact hskip

/-- The registers that an edge writes are none of those that time depends on. -/
theorem State.dumpEdge_sameTime (s : State) (src1 : Bool) : s.SameTime (s.dumpEdge src1) := by
  have hnext : s.SameTime s.dumpNext := (State.SameTime.refl s).wr (f := F.CNT_DUMP_SEQ_SEQ) rfl _
  refine s.dumpEdge_ends src1 ?_ ?_ fun d => ?_
  · refine State.SameTime.raise (b := .cnt) (i := 0) ?_ rfl 2
    exact (hnext.wr (f := F.CNT_DUMP_STATUS_MISSED) rfl _).congr rfl rfl rfl
  · exact (hnext.wr (f := F.CNT_DUMP_STATUS_CFG_ERR) rfl _).raise (b := .cnt) (i := 0) rfl 3
  · refine State.SameTime.wr (f := F.CNT_DUMP_STATUS_BUSY) ?_ rfl _
    exact hnext.congr rfl rfl rfl

theorem State.dumpEdge_ras (s : State) (src1 : Bool) : (s.dumpEdge src1).ras = s.ras :=
  s.dumpEdge_ends src1 (p := fun t => t.ras = s.ras) (State.raise_ras ..) (State.raise_ras ..) fun _ => rfl

theorem State.takeSnap_sameTime (s : State) (sources logSeq : Nat) : s.SameTime (s.takeSnap sources logSeq) := by
  unfold State.takeSnap
  extract_lets seq t u
  have hu : s.SameTime u := .congr ((State.SameTime.refl s).wr (f := F.RAS_TM_SEQ_SEQ) rfl _) rfl rfl rfl
  split
  · exact hu.wr rfl _
  · exact hu

theorem State.takeSnap_ras (s : State) (sources logSeq : Nat) : (s.takeSnap sources logSeq).ras = s.ras := by
  unfold State.takeSnap
  dsimp only
  split <;> rfl

/-- A Tidemark edge that latches leaves the time, and waits no more (R454). -/
theorem State.tmLatch_sameTime (s : State) (e : TmEdge) : s.SameTime (s.tmLatch e) ∧ (s.tmLatch e).ras.edge = none := by
  unfold State.tmLatch
  extract_lets _ t _ u v
  have ht : s.SameTime t := .of_regs rfl rfl rfl
  have hu : s.SameTime u ∧ u.ras.edge = none := by
    unfold u
    split
    · exact ⟨ht.trans (.of_regs rfl rfl rfl), rfl⟩
    · exact ⟨ht, rfl⟩
  have hv : s.SameTime v ∧ v.ras.edge = none := by
    unfold v
    split
    · exact ⟨hu.1.trans (u.dumpEdge_sameTime true), (congrArg RasSt.edge (u.dumpEdge_ras true)).trans hu.2⟩
    · exact hu
  split
  · exact hv
  · exact ⟨hv.1.trans (v.takeSnap_sameTime ..), (congrArg RasSt.edge (v.takeSnap_ras ..)).trans hv.2⟩

/-! ### Ticks (R334, R337) -/

section Ticks

variable (s : State)

theorem State.ticks_zero : s.ticks 0 = s := rfl

variable {n : Nat} (hn : 0 < n)

/-- Ticks write the two domains and their own count. -/
theorem State.ticks_changes : changes [F.LIGHT_TICKS_TICKS] s { s.ticks n with domA := s.domA, domB := s.domB } := by
  unfold State.ticks
  split
  · exact .refl s
  · exact (changes.refl s).wrapAdd List.mem_cons_self n

theorem State.rd_ticks {f : Fld} (hf : f.reg ≠ .LIGHT_TICKS) : (s.ticks n).rd f = s.rd f :=
  (s.ticks_changes (n := n)).1 f fun g hg e => hf ((Fld.key_eq.1 e).1.trans (by rw [List.mem_singleton.1 hg]; rfl))

theorem State.now_ticks : (s.ticks n).now = (s.now + n) % 2 ^ 64 := by
  unfold State.ticks
  split
  · next h =>
    rw [h]
    exact (Nat.mod_eq_of_lt (s.rd_lt F.LIGHT_TICKS_TICKS)).symm
  · exact State.rd_wr_self ..

theorem State.following_ticks : (s.ticks n).following = s.following := by
  unfold State.following State.on
  rw [State.rd_ticks _ (by decide)]

include hn

/-- A domain that follows no other and has no step waiting adds its increment (R335). -/
theorem State.ticks_dom (d : Fin 2) (hown : d = 0 → s.following = false) (hsteps : (s.dom d).steps = []) :
    (s.ticks n).dom d = (s.dom d).ticked (s.nextEff d) ((s.dom d).total + n * s.nextEff d) := by
  have hsum (a e : Nat) : a + e + (n - 1) * e = a + n * e := by
    rw [Nat.add_assoc, Nat.add_comm e, ← Nat.succ_mul, Nat.succ_eq_add_one, Nat.sub_add_cancel hn]
  unfold State.ticks
  rw [if_neg (Nat.ne_of_gt hn)]
  dsimp only
  fin_cases d
  · have hsteps : s.domA.steps = [] := hsteps
    rw [if_neg (by simp [hown rfl]), hsteps]
    change Dom.withTotal _ (s.domA.total + s.nextEff 0 + _) = _
    rw [hsum, ← hsteps]
    rfl
  · have hsteps : s.domB.steps = [] := hsteps
    rw [hsteps]
    change Dom.withTotal _ (s.domB.total + s.nextEff 1 + _) = _
    rw [hsum, ← hsteps]
    rfl

/-- After a tick a domain shows a time, and no step waits (R339). -/
theorem State.ticks_bounds (d : Fin 2) : ((s.ticks n).dom d).ns < 1000000000 ∧ ((s.ticks n).dom d).frac < 2 ^ 56 ∧
    ((s.ticks n).dom d).sec < 2 ^ 64 ∧ ((s.ticks n).dom d).steps = [] := by
  have hbounds (x : Dom) (t : Nat) (hx : x.steps = []) : (x.withTotal t).ns < 1000000000 ∧ (x.withTotal t).frac < 2 ^ 56 ∧
      (x.withTotal t).sec < 2 ^ 64 ∧ (x.withTotal t).steps = [] := by
    obtain ⟨hns, hfrac, hsec⟩ := x.withTotal_bounds t
    exact ⟨hns, hfrac, hsec, hx⟩
  unfold State.ticks
  rw [if_neg (Nat.ne_of_gt hn)]
  fin_cases d
  · exact hbounds _ _ rfl
  · exact hbounds _ _ rfl

end Ticks

/-! ### Ticks with an edge among them (R454) -/

section Latch

variable (s : State) {n : Nat}

theorem State.tmTicks_of_none (h : s.ras.edge = none) : s.tmTicks n = s.ticks n := by
  unfold State.tmTicks
  rw [h]

theorem State.tmTicks_of_early {e : TmEdge} (h : s.ras.edge = some e) (hearly : s.now + n < e.at_) : s.tmTicks n = s.ticks n := by
  unfold State.tmTicks
  rw [h]
  exact if_neg (Nat.not_le.2 hearly)

theorem State.tmTicks_of_due {e : TmEdge} (h : s.ras.edge = some e) (hdue : e.at_ ≤ s.now + n) :
    s.tmTicks n = ((s.ticks (e.at_ - s.now)).tmLatch e).ticks (n - (e.at_ - s.now)) := by
  unfold State.tmTicks
  rw [h]
  exact if_pos hdue

/-- Either no edge latches, or one latches between two runs of ticks. -/
theorem State.tmTicks_cases : s.tmTicks n = s.ticks n ∨
    ∃ a b e, a + b = n ∧ s.tmTicks n = ((s.ticks a).tmLatch e).ticks b := by
  cases h : s.ras.edge with
  | none => exact .inl (s.tmTicks_of_none h)
  | some e =>
    rcases Nat.lt_or_ge (s.now + n) e.at_ with hearly | hdue
    · exact .inl (s.tmTicks_of_early h hearly)
    · exact .inr ⟨e.at_ - s.now, n - (e.at_ - s.now), e, by omega, s.tmTicks_of_due h hdue⟩

theorem State.now_tmTicks : (s.tmTicks n).now = (s.now + n) % 2 ^ 64 := by
  rcases s.tmTicks_cases (n := n) with h | ⟨a, b, e, hab, h⟩
  · rw [h, State.now_ticks]
  · rw [h, State.now_ticks, ((s.ticks a).tmLatch_sameTime e).1.now, State.now_ticks, Nat.mod_add_mod, Nat.add_assoc, hab]

theorem State.ticks_nextEff {a : Nat} (ha : 0 < a) (d : Fin 2) (hown : d = 0 → s.following = false) (hsteps : (s.dom d).steps = []) :
    (s.ticks a).nextEff d = s.nextEff d := by
  have hmode : (s.ticks a).modeEff d = s.modeEff d := by
    unfold State.modeEff State.on
    rw [State.rd_ticks _ (by nofun), State.rd_ticks _ (by nofun), State.rd_ticks _ (by nofun)]
  have hdom := s.ticks_dom ha d hown hsteps
  have hnofollow : (Decidable.decide (d.val = 0) && s.following) = false := by
    by_cases hd : d = 0
    · rw [hown hd, Bool.and_false]
    · rw [decide_eq_false (p := d.val = 0) fun h => hd (Fin.ext h), Bool.false_and]
  have hnext : s.nextEff d = if (s.dom d).keepEff then (s.dom d).eff else s.modeEff d := if_neg (by rw [hnofollow]; decide)
  have hnext' : (s.ticks a).nextEff d = if ((s.ticks a).dom d).keepEff then ((s.ticks a).dom d).eff else (s.ticks a).modeEff d :=
    if_neg (by rw [State.following_ticks, hnofollow]; decide)
  rw [hnext', hdom, hmode, Dom.ticked_keepEff, Dom.ticked_eff, hnext]
  split
  · rfl
  · rfl

theorem State.tmTicks_dom (hn : 0 < n) (d : Fin 2) (hown : d = 0 → s.following = false) (hsteps : (s.dom d).steps = []) :
    (s.tmTicks n).dom d = (s.dom d).ticked (s.nextEff d) ((s.dom d).total + n * s.nextEff d) := by
  rcases s.tmTicks_cases (n := n) with h | ⟨a, b, e, rfl, h⟩
  · rw [h, s.ticks_dom hn d hown hsteps]
  · obtain ⟨hlatch, -⟩ := (s.ticks a).tmLatch_sameTime e
    rw [h]
    rcases Nat.eq_zero_or_pos a with rfl | ha
    · rw [Nat.zero_add] at hn ⊢
      rw [State.ticks_zero] at hlatch ⊢
      rw [State.ticks_dom _ hn d (fun hd => hlatch.following.trans (hown hd)) ((congrArg Dom.steps (hlatch.dom d)).trans hsteps), hlatch.dom,
        hlatch.nextEff]
    · have hfirst := s.ticks_dom ha d hown hsteps
      rcases Nat.eq_zero_or_pos b with rfl | hb
      · rw [State.ticks_zero, hlatch.dom, hfirst, Nat.add_zero]
      · have hsteps' : ((s.ticks a).dom d).steps = [] := (s.ticks_bounds ha d).2.2.2
        rw [State.ticks_dom _ hb d (fun hd => hlatch.following.trans (s.following_ticks.trans (hown hd)))
          ((congrArg Dom.steps (hlatch.dom d)).trans hsteps'), hlatch.dom, hlatch.nextEff, s.ticks_nextEff ha d hown hsteps, hfirst,
          Dom.total_ticked, Dom.ticked_ticked, Dom.ticked_mod, Nat.add_assoc, ← Nat.add_mul]

theorem State.tmTicks_bounds (hn : 0 < n) (d : Fin 2) : ((s.tmTicks n).dom d).ns < 1000000000 ∧ ((s.tmTicks n).dom d).frac < 2 ^ 56 ∧
    ((s.tmTicks n).dom d).sec < 2 ^ 64 ∧ ((s.tmTicks n).dom d).steps = [] := by
  rcases s.tmTicks_cases (n := n) with h | ⟨a, b, e, rfl, h⟩
  · rw [h]
    exact s.ticks_bounds hn d
  · rw [h]
    rcases Nat.eq_zero_or_pos b with rfl | hb
    · rw [State.ticks_zero, ((s.ticks a).tmLatch_sameTime e).1.dom]
      exact s.ticks_bounds hn d
    · exact State.ticks_bounds _ hb d

theorem State.ras_ticks : (s.ticks n).ras = s.ras := (congrArg State.ras s.ticks_changes.2 :)

theorem State.timers_ticks : (s.ticks n).timers = s.timers := (congrArg State.timers s.ticks_changes.2 :)

end Latch

/-! ### The pulses (R356, R455) and the statement -/

section Pulses

variable (s : State)

theorem State.ppsFall_sameTime : s.SameTime s.ppsFall := by
  unfold State.ppsFall
  split
  · exact .of_regs rfl rfl rfl
  · exact .refl s

theorem State.tmFall_sameTime : s.SameTime s.tmFall := by
  unfold State.tmFall
  split
  · exact .of_regs rfl rfl rfl
  · exact .refl s

theorem State.ras_ppsFall : s.ppsFall.ras = s.ras := by
  unfold State.ppsFall
  split <;> rfl

theorem State.edge_tmFall : s.tmFall.ras.edge = s.ras.edge := by
  unfold State.tmFall
  split <;> rfl

theorem State.timers_tmFall : s.tmFall.timers = s.timers := by
  unfold State.tmFall
  split <;> rfl

theorem State.out_tmFall {o : Out} (h : o ∈ s.out) : o ∈ s.tmFall.out := by
  unfold State.tmFall
  split
  · exact List.mem_cons_of_mem _ h
  · exact h

/-- A pulse of PPS_OUT whose end is reached falls. -/
theorem State.ppsFall_falls (hran : s.ranAt .ppsOut 0 ≠ 0) (hend : s.ranAt .ppsOut 0 ≤ s.now) :
    Out.pin .ppsOut false ∈ s.ppsFall.out ∧ s.ppsFall.ranAt .ppsOut 0 = 0 := by
  unfold State.ppsFall
  rw [if_pos (by simp [hran, hend])]
  exact ⟨List.mem_cons_self, mget_mset_self s.timers _ 0 0⟩

theorem State.tmFall_of_early {e : Nat} (hout : s.ras.tmOut = some e) (hearly : s.now < e) : s.tmFall = s := by
  unfold State.tmFall
  rw [hout]
  exact if_neg (by simp [hearly])

/-- A pulse of TIDEMARK_OUT whose end is reached falls. -/
theorem State.tmFall_falls {e : Nat} (hout : s.ras.tmOut = some e) (hend : e ≤ s.now) :
    s.tmFall.ras.tmOut = none ∧ Out.pin .tidemarkOut false ∈ s.tmFall.out := by
  unfold State.tmFall
  rw [if_pos (by simp [hout, hend])]
  exact ⟨rfl, List.mem_cons_self⟩

/-- A global event that no counter selects counts nowhere (R324). -/
theorem State.cntGlobal_of_none {ev arg : Nat} (v : Nat) (h : ∀ k : Fin 64, s.cntSelects (1024 + k) ev arg = false) :
    s.cntGlobal ev arg v = s := by
  unfold State.cntGlobal
  refine List.foldlRecOn (motive := fun t => t = s) _ _ rfl ?_
  rintro t rfl k hk
  exact if_neg (by rw [h ⟨k, List.mem_range.1 hk⟩]; decide)

end Pulses

/-- Settles O13: ticks move the two domains and their count, and what waits for a tick takes place in it. -/
theorem timeTicks : Obligations.TimeTicks := by
  refine fun s n hn => .of_exec rfl ?_
  have hcount := (s.tmTicks n).cntGlobal_touches 0x70 0 n
  generalize hu : (s.tmTicks n).cntGlobal 0x70 0 n = u at hcount ⊢
  have hcounted : (s.tmTicks n).SameTime u := .of_touches hcount (by decide)
  have hall : (s.tmTicks n).SameTime u.ppsFall.tmFall := hcounted.trans (u.ppsFall_sameTime.trans u.ppsFall.tmFall_sameTime)
  have hnow : u.ppsFall.tmFall.now = u.now := (u.ppsFall_sameTime.trans u.ppsFall.tmFall_sameTime).now
  have hfall : u.ppsFall.now = u.now := u.ppsFall_sameTime.now
  refine ⟨hall.now.trans s.now_tmTicks, fun d hown hsteps => (hall.dom d).trans (s.tmTicks_dom hn d hown hsteps), fun d => ?_, ?_, ?_, ?_, ?_⟩
  · rw [hall.dom]
    exact s.tmTicks_bounds hn d
  · intro hedge hout hran hselects
    have hquiet : u = s.ticks n := by
      rw [← hu, s.tmTicks_of_none hedge]
      refine State.cntGlobal_of_none _ n fun k => ?_
      rw [← hselects k]
      unfold State.cntSelects State.on
      rw [State.rd_ticks _ (by nofun), State.rd_ticks _ (by nofun), State.rd_ticks _ (by nofun)]
    have hpps : u.ppsFall = u := by
      unfold State.ppsFall
      refine if_neg ?_
      rw [hquiet, State.ranAt, State.timers_ticks, show mget s.timers _ 0 = 0 from hran]
      nofun
    have htm : u.tmFall = u := by
      unfold State.tmFall
      refine if_neg ?_
      rw [hquiet, State.ras_ticks, hout]
      nofun
    rw [hpps, htm, hquiet]
    exact s.ticks_changes
  · intro hedge hran hend
    have hsame : u.ranAt .ppsOut 0 = s.ranAt .ppsOut 0 := by
      rw [State.ranAt, hcount.timers, s.tmTicks_of_none hedge, State.timers_ticks]
      rfl
    obtain ⟨hpin, hzero⟩ := u.ppsFall_falls (by rwa [hsame]) (by rwa [hsame, ← hnow])
    refine ⟨State.out_tmFall _ hpin, ?_⟩
    rw [State.ranAt, State.timers_tmFall]
    exact hzero
  · intro hedge e hout
    have hsame : u.ppsFall.ras.tmOut = some e := by
      rw [State.ras_ppsFall, hcount.ras, s.tmTicks_of_none hedge, State.ras_ticks, hout]
    exact ⟨fun hend => State.tmFall_falls _ hsame (by rwa [hfall, ← hnow]),
      fun hearly => by rwa [State.tmFall_of_early _ hsame (by rwa [hfall, ← hnow])]⟩
  · intro e hedge
    rw [State.edge_tmFall, State.ras_ppsFall, hcount.ras]
    refine ⟨fun hearly => by rw [s.tmTicks_of_early hedge hearly, State.ras_ticks, hedge], fun hdue => ?_⟩
    rw [s.tmTicks_of_due hedge hdue, State.ras_ticks]
    exact (State.tmLatch_sameTime _ e).2

end Sys2Proof.Machine
end

section
/-! SUPPORT. A Ferry frame that is too short (R93, R379 to R381). -/

set_option Elab.async false

namespace Sys2Proof.Machine

/-- The head of an ANNOUNCE, with nothing after its TYPE. -/
def shortAnnounceHead : Bytes := List.replicate 12 0 ++ beBytes 2 0x88B5 ++ beBytes 1 1 ++ beBytes 1 ferryAnnounce

/-- A frame of 20 octets with the Ferry Ethertype, the TYPE of an ANNOUNCE and a good FCS: a runt. -/
def shortAnnounce : Bytes := shortAnnounceHead ++ fcsOf shortAnnounceHead

/-- A device after reset whose port 0 is UP; it has no Ferry link. -/
def portZeroUp : State := State.reset.wr (F.PORT_STATUS_STATE 0) 3

/-- The runt counts as one, and as no untrusted Ferry frame. -/
theorem shortAnnounce_received : Runs (.announceReceive 0 shortAnnounce) portZeroUp fun t => t.rd F.FERRY_UNTRUSTED_COUNT = 0 :=
  ⟨_, rfl, by decide +kernel⟩

/-- Refutes O54: its clause on ANNOUNCE_RECEIVE has every frame with a good FCS on a port that is no trusted Ferry link count in
FERRY_UNTRUSTED, while a frame below 64 octets is a runt and ends there, whatever its FCS (R93). -/
theorem not_ferryTree : ¬ Obligations.FerryTree := by
  unfold Obligations.FerryTree
  rintro ⟨hframes, -⟩
  obtain ⟨-, -, hreceive, -⟩ := hframes portZeroUp
  obtain ⟨-, hgood⟩ := hreceive 0 shortAnnounce
  obtain ⟨huntrusted, -⟩ := hgood (by decide +kernel) (by decide +kernel) (by decide +kernel) (by decide +kernel)
  obtain ⟨t, ht, hcount, -⟩ := huntrusted (.inl (by decide +kernel))
  obtain ⟨u, hu, hzero⟩ := shortAnnounce_received
  rw [← Host.Outcome.next.inj (hu.symm.trans ht), hzero] at hcount
  exact absurd hcount (by decide +kernel)

end Sys2Proof.Machine
end

section
/-! SUPPORT. Moves of budget between the members of Ferry (R383), and their statement. -/

set_option Elab.async false

namespace Sys2Proof.Machine

/-! ### Who takes and who gives -/

/-- What a choice among the elements of a list begins with, or an element of the list, is what it ends with. -/
theorem foldl_choice_mem {α : Type} {g : Option α → α → Option α} (hg : ∀ a e, g a e = a ∨ g a e = some e) (l : List α) (a : Option α) :
    l.foldl g a = a ∨ ∃ e ∈ l, l.foldl g a = some e := by
  induction l generalizing a with
  | nil => exact .inl rfl
  | cons x l ih =>
    rcases ih (g a x) with hsame | ⟨e, he, hfound⟩
    · rcases hg a x with hkeep | htake
      · exact .inl (hsame.trans hkeep)
      · exact .inr ⟨x, List.mem_cons_self, hsame.trans htake⟩
    · exact .inr ⟨e, List.mem_cons_of_mem _ he, hfound⟩

/-- A choice that begins with nothing ends with an element of the list. -/
theorem mem_of_foldl_choice {α : Type} {g : Option α → α → Option α} (hg : ∀ a e, g a e = a ∨ g a e = some e) {l : List α} {e : α}
    (h : l.foldl g none = some e) : e ∈ l := by
  rcases foldl_choice_mem hg l none with hnone | ⟨x, hx, hsome⟩
  · rw [h] at hnone
    cases hnone
  · rw [h] at hsome
    exact Option.some.inj hsome ▸ hx

section Move

variable {l : List (Nat × FerryMember)} {t d : Nat × FerryMember}

theorem firstTaker_mem (h : firstTaker l = some t) : t ∈ l ∧ mayTake t.2 = true := by
  refine List.mem_filter.1 (mem_of_foldl_choice (fun a e => ?_) h)
  cases a with
  | none => exact .inr rfl
  | some x =>
    dsimp only
    split
    · exact .inr rfl
    · exact .inl rfl

theorem bestDonor_mem (h : bestDonor l = some d) : d ∈ l ∧ mayGive d.2 = true := by
  refine List.mem_filter.1 (mem_of_foldl_choice (fun a e => ?_) h)
  cases a with
  | none => exact .inr rfl
  | some x =>
    dsimp only
    split
    · exact .inr rfl
    · exact .inl rfl

/-- One move of 5 W from donor `d` to taker `t`. -/
def moveOne (d t : Nat) (e : Nat × FerryMember) : Nat × FerryMember :=
  if e.1 = d then (e.1, { e.2 with grant := e.2.grant - 5 }) else if e.1 = t then (e.1, { e.2 with grant := e.2.grant + 5 }) else e

theorem moveBudget_succ (n : Nat) (ht : firstTaker l = some t) (hd : bestDonor l = some d) :
    moveBudget l (n + 1) = moveBudget (l.map (moveOne d.1 t.1)) n := by
  rw [moveBudget, ht, hd]
  rfl

/-- Without a taker or a donor nothing moves. -/
theorem moveBudget_of_none (n : Nat) (h : firstTaker l = none ∨ bestDonor l = none) : moveBudget l n = l := by
  cases n with
  | zero => rfl
  | succ n =>
    rw [moveBudget]
    rcases h with h | h
    · rw [h]
    · rw [h]
      split
      · next hd => cases hd
      · rfl

theorem moveOne_serial (d t : Nat) (e : Nat × FerryMember) : (moveOne d t e).1 = e.1 := by
  unfold moveOne
  split_ifs <;> rfl

theorem map_moveOne_serial (d t : Nat) (l : List (Nat × FerryMember)) : (l.map (moveOne d t)).map (fun e => e.1) = l.map (fun e => e.1) := by
  rw [List.map_map]
  exact List.map_congr_left fun e _ => moveOne_serial d t e

/-- The entries of one serial, counted in steps of 5 W. -/
theorem sum_serial (l : List (Nat × FerryMember)) (k : Nat) :
    (l.map fun e => if e.1 = k then 5 else 0).sum = 5 * (l.map fun e => e.1).count k := by
  induction l with
  | nil => rfl
  | cons x l ih =>
    rw [List.map_cons, List.sum_cons, ih, List.map_cons, List.count_cons]
    by_cases h : x.1 = k
    · simp [h, Nat.mul_add, Nat.add_comm]
    · simp [h]

variable (hserials : (l.map fun e => e.1).Nodup) (htaker : t ∈ l ∧ mayTake t.2 = true) (hdonor : d ∈ l ∧ mayGive d.2 = true)
include hserials htaker hdonor

/-- The donor and the taker are two members. -/
theorem taker_ne_donor : t.1 ≠ d.1 := by
  intro h
  have hsame : t = d := List.inj_on_of_nodup_map hserials htaker.1 hdonor.1 h
  have htake := htaker.2
  have hgive := hdonor.2
  simp only [hsame, mayTake, mayGive, Bool.and_eq_true, Bool.or_eq_true, decide_eq_true_eq, Bool.not_eq_true'] at htake hgive
  obtain ⟨hlate | hlag, -⟩ := htake
  · omega
  · rw [hlag] at hgive
    simp at hgive

/-- What a move changes of a member's grant. -/
theorem moveOne_grant {e : Nat × FerryMember} (he : e ∈ l) :
    (moveOne d.1 t.1 e).2.grant + (if e.1 = d.1 then 5 else 0) = e.2.grant + if e.1 = t.1 then 5 else 0 := by
  have hne := taker_ne_donor hserials htaker hdonor
  unfold moveOne
  by_cases hd : e.1 = d.1
  · have hsame : e = d := List.inj_on_of_nodup_map hserials he hdonor.1 hd
    have hgive := hdonor.2
    simp only [mayGive, Bool.and_eq_true, decide_eq_true_eq] at hgive
    have hroom : 5 ≤ e.2.grant := hsame ▸ (Nat.le_add_left ..).trans hgive.2
    have hother : e.1 ≠ t.1 := fun h => hne (h.symm.trans hd)
    rw [if_pos hd, if_pos hd, if_neg hother]
    exact Nat.sub_add_cancel hroom
  · rw [if_neg hd, if_neg hd]
    split
    · rfl
    · rfl

/-- A move leaves the sum of the grants. -/
theorem sum_moveOne : ((l.map (moveOne d.1 t.1)).map fun e => e.2.grant).sum = (l.map fun e => e.2.grant).sum := by
  have hone {k : Nat} (hk : k ∈ l.map fun e => e.1) : (l.map fun e => if e.1 = k then 5 else 0).sum = 5 := by
    rw [sum_serial, List.count_eq_one_of_mem hserials hk]
  have hsums : (l.map fun e => (moveOne d.1 t.1 e).2.grant + if e.1 = d.1 then 5 else 0).sum =
      (l.map fun e => e.2.grant + if e.1 = t.1 then 5 else 0).sum :=
    congrArg List.sum (List.map_congr_left fun e he => moveOne_grant hserials htaker hdonor he)
  rw [List.sum_map_add, List.sum_map_add, hone (List.mem_map_of_mem hdonor.1), hone (List.mem_map_of_mem htaker.1)] at hsums
  rw [List.map_map]
  exact Nat.add_right_cancel hsums

/-- A move keeps every member within its floor and its ceiling. -/
theorem moveOne_bounds {e : Nat × FerryMember} (he : e ∈ l) (hbounds : e.2.floor ≤ e.2.grant ∧ e.2.grant ≤ e.2.ceil) :
    (moveOne d.1 t.1 e).2.floor ≤ (moveOne d.1 t.1 e).2.grant ∧ (moveOne d.1 t.1 e).2.grant ≤ (moveOne d.1 t.1 e).2.ceil := by
  have htake := htaker.2
  have hgive := hdonor.2
  simp only [mayTake, mayGive, Bool.and_eq_true, decide_eq_true_eq] at htake hgive
  unfold moveOne
  split_ifs with hd ht
  · have hsame : e = d := List.inj_on_of_nodup_map hserials he hdonor.1 hd
    subst hsame
    exact ⟨Nat.le_sub_of_add_le hgive.2, (Nat.sub_le ..).trans hbounds.2⟩
  · have hsame : e = t := List.inj_on_of_nodup_map hserials he htaker.1 ht
    subst hsame
    exact ⟨hbounds.1.trans (Nat.le_add_right ..), htake.2⟩
  · exact hbounds

end Move

/-- Settles O56, by induction on the number of moves. -/
theorem budgetConserved : Obligations.BudgetConserved := by
  intro n
  induction n with
  | zero => exact fun l _ => ⟨rfl, rfl, id⟩
  | succ n ih =>
    intro l hserials
    cases ht : firstTaker l with
    | none =>
      rw [moveBudget_of_none _ (.inl ht)]
      exact ⟨rfl, rfl, id⟩
    | some t =>
      cases hd : bestDonor l with
      | none =>
        rw [moveBudget_of_none _ (.inr hd)]
        exact ⟨rfl, rfl, id⟩
      | some d =>
        have htaker := firstTaker_mem ht
        have hdonor := bestDonor_mem hd
        have hnames := map_moveOne_serial d.1 t.1 l
        rw [moveBudget_succ n ht hd]
        obtain ⟨hsum, hsame, hin⟩ := ih (l.map (moveOne d.1 t.1)) (hnames ▸ hserials)
        refine ⟨hsum.trans (sum_moveOne hserials htaker hdonor), hsame.trans hnames, fun hbounds => hin fun e he => ?_⟩
        obtain ⟨x, hx, rfl⟩ := List.mem_map.1 he
        exact moveOne_bounds hserials htaker hdonor hx (hbounds x hx)

end Sys2Proof.Machine
end

section
/-! SUPPORT. Saves of the Keep domain (R386, R387, R404), and their statement. -/

set_option Elab.async false

namespace Sys2Proof.Machine

/-! ### The start of a save -/

section Start

variable {s : State} {trigger : Nat}

/-- The save that `trigger` starts: the shadow as it stands. -/
def State.saveNow (s : State) (trigger : Nat) : KeepSlot :=
  { seq := s.keep.seq + 1, trigger := trigger, sec := s.domA.sec, ns := s.domA.ns, secs := s.shadow }

theorem State.keepStart_early (hready : s.ready = false) : s.keepStart trigger = s := by
  unfold State.keepStart
  exact if_pos (by simp [hready])

theorem State.keepStart_starts (hready : s.ready = true) (hsave : s.keep.save = none) :
    s.keepStart trigger = { s with keep := { s.keep with saveAt := s.now, save := some (s.saveNow trigger) } } := by
  unfold State.keepStart
  rw [if_neg (by simp [hready]), hsave]
  rfl

/-- A trigger during a save changes nothing but by a thermal trip in the same microsecond (R387). -/
theorem State.keepStart_runs {x : KeepSlot} (hready : s.ready = true) (hsave : s.keep.save = some x) : s.keepStart trigger =
    if trigger = 2 && s.now - s.keep.saveAt < 1600 then { s with keep := { s.keep with save := some { x with trigger := 2 } } } else s := by
  unfold State.keepStart
  rw [if_neg (by simp [hready]), hsave]
  rfl

/-- The trigger that a field of KEEP_CFG enables (R387). -/
def State.triggerOn (s : State) (k : Fin 3) : Bool :=
  match k with
  | 0 => s.on F.KEEP_CFG_PWRFAIL_EN
  | 1 => s.on F.KEEP_CFG_VKEEP_EN
  | 2 => s.on F.KEEP_CFG_THERM_EN

theorem State.keepTrigger_eq (s : State) (k : Fin 3) : s.keepTrigger k = if s.triggerOn k then s.keepStart k else s := by
  fin_cases k
  · rfl
  · rfl
  · rfl

end Start

/-! ### The end of a save -/

section Finish

variable (s : State) (x : KeepSlot) (n late : Nat)

/-- The sections that the save writes (R387). -/
def State.savedSec (k : Nat) : KeepSec := if k < late then mget x.secs k {} else s.shadowSec k

/-- The outcome as KEEP_STATUS shows it (R387). -/
def saveOutcome (n : Nat) : Nat := if n ≥ 7 then 1 else if n = 0 then 3 else 2

/-- The Keep domain at the end of the save `x` (R387). -/
def State.keepAfter : KeepSt :=
  { s.keep with
    slots := minsert s.keep.slots s.keep.next (some { x with secs := (List.range n).map fun k => (k, s.savedSec x late k) })
    lastSlot := s.keep.next, next := (s.keep.next + 1) % 16, last := saveOutcome n, seq := x.seq
    seqComplete := if n ≥ 7 then x.seq else s.keep.seqComplete, save := none }

/-- KEEP_STATUS and KEEP_SEQ at the end of the save `x`. -/
def State.keepShown : State :=
  ((({ s with keep := s.keepAfter x n late }.wr F.KEEP_STATUS_LAST (saveOutcome n)).wr F.KEEP_STATUS_SLOT s.keep.next).wr F.KEEP_SEQ_SEQ
    (if n ≥ 7 then x.seq else s.keep.seqComplete))

theorem State.keepFinish_eq (hsave : s.keep.save = some x) : s.keepFinish n late =
    if n ≥ 7 then ((s.keepShown x n late).satAdd F.KEEP_SAVES_COMPLETE 1).raise .keep 0 0
    else if n = 0 then s.keepShown x n late else (s.keepShown x n late).satAdd F.KEEP_SAVES_PARTIAL 1 := by
  unfold State.keepFinish
  rw [hsave]
  rfl

/-- A list of sections holds the ones that it names. -/
theorem mfind_sections {α : Type} (f : Nat → α) (l : List Nat) (k : Nat) : mfind (l.map fun k => (k, f k)) k = if k ∈ l then some (f k) else none := by
  induction l with
  | nil => rfl
  | cons j l ih =>
    rw [List.map_cons, mfind, ih]
    by_cases h : k = j
    · simp [h]
    · simp [h]

/-- What the last writes of a save leave of the Keep domain's state and of KEEP_STATUS. -/
theorem State.keepFinish_shows (hsave : s.keep.save = some x) :
    (s.keepFinish n late).keep = s.keepAfter x n late ∧ (s.keepFinish n late).rd F.KEEP_STATUS_LAST = saveOutcome n := by
  have hlast : (s.keepShown x n late).rd F.KEEP_STATUS_LAST = saveOutcome n := by
    unfold State.keepShown
    rw [State.rd_wr_of_reg_ne _ _ (by decide), State.rd_wr_of_lo_ne _ _ (by decide), State.rd_wr_self]
    refine Nat.mod_eq_of_lt ?_
    unfold saveOutcome
    split_ifs <;> decide
  have hkeep : (s.keepShown x n late).keep = s.keepAfter x n late := by
    unfold State.keepShown
    rw [State.wr_keep, State.wr_keep, State.wr_keep]
  rw [State.keepFinish_eq s x n late hsave]
  split_ifs
  · refine ⟨by rw [State.raise_keep, State.satAdd_keep, hkeep], ?_⟩
    rw [State.rd_raise_of_reg_ne _ (by decide), State.satAdd, State.rd_wr_of_reg_ne _ _ (by decide), hlast]
  · exact ⟨hkeep, hlast⟩
  · refine ⟨by rw [State.satAdd_keep, hkeep], ?_⟩
    rw [State.satAdd, State.rd_wr_of_reg_ne _ _ (by decide), hlast]

theorem State.rd_keepShown {f : Fld} (hstatus : f.reg ≠ .KEEP_STATUS) (hseq : f.reg ≠ .KEEP_SEQ) : (s.keepShown x n late).rd f = s.rd f := by
  unfold State.keepShown
  rw [State.rd_wr_of_reg_ne _ _ hseq, State.rd_wr_of_reg_ne _ _ hstatus, State.rd_wr_of_reg_ne _ _ hstatus]
  rfl

/-- A save that is whole counts as complete, one that wrote some sections as partial (R387). -/
theorem State.keepFinish_counts (hsave : s.keep.save = some x) :
    (s.keepFinish n late).rd F.KEEP_SAVES_COMPLETE =
      (if n ≥ 7 then min (s.rd F.KEEP_SAVES_COMPLETE + 1) (2 ^ F.KEEP_SAVES_COMPLETE.width - 1) else s.rd F.KEEP_SAVES_COMPLETE) ∧
    (s.keepFinish n late).rd F.KEEP_SAVES_PARTIAL =
      if 0 < n ∧ n < 7 then min (s.rd F.KEEP_SAVES_PARTIAL + 1) (2 ^ F.KEEP_SAVES_PARTIAL.width - 1) else s.rd F.KEEP_SAVES_PARTIAL := by
  have hcomplete := State.rd_keepShown s x n late (f := F.KEEP_SAVES_COMPLETE) (by decide) (by decide)
  have hpartial := State.rd_keepShown s x n late (f := F.KEEP_SAVES_PARTIAL) (by decide) (by decide)
  rw [State.keepFinish_eq s x n late hsave]
  by_cases hall : n ≥ 7
  · rw [if_pos hall, if_pos hall, if_neg (by omega)]
    refine ⟨?_, ?_⟩
    · rw [State.rd_raise_of_reg_ne _ (by decide), State.rd_satAdd_self, hcomplete]
    · rw [State.rd_raise_of_reg_ne _ (by decide), State.satAdd, State.rd_wr_of_lo_ne _ _ (by decide), hpartial]
  · rw [if_neg hall, if_neg hall]
    by_cases hnone : n = 0
    · rw [if_pos hnone, if_neg (by omega)]
      exact ⟨hcomplete, hpartial⟩
    · rw [if_neg hnone, if_pos (by omega)]
      refine ⟨?_, ?_⟩
      · rw [State.satAdd, State.rd_wr_of_lo_ne _ _ (by decide), hcomplete]
      · rw [State.rd_satAdd_self, hpartial]

end Finish

/-- Settles O53: the rules of KEEP_CFG's triggers, of the running save and of its end. -/
theorem keepSaves : Obligations.KeepSaves := by
  refine fun s => ⟨fun k => ⟨fun hoff => ?_, fun hready hsave hon => ?_, fun x hsave hready hk => ?_, fun x hsave hready hon hrecent => ?_⟩,
    fun mv => ⟨fun hoff => ?_, fun hon hready hsave => ?_⟩,
    fun q hq => ⟨fun x hsave => ?_, fun hsave hready => ?_, fun hsave hready => ?_⟩,
    fun n late => ⟨fun hsave => ?_, fun x hsave => ?_⟩, .of_exec rfl ⟨rfl, rfl⟩, .of_exec rfl ⟨rfl, rfl⟩⟩
  · refine .of_exec (congrArg Host.Outcome.next (s.keepTrigger_eq k)) ?_
    rcases hoff with hready | ⟨rfl, hoff⟩ | ⟨rfl, hoff⟩ | ⟨rfl, hoff⟩
    · rw [State.keepStart_early hready, ite_self]
    · exact if_neg (by rw [State.triggerOn, hoff]; nofun)
    · exact if_neg (by rw [State.triggerOn, hoff]; nofun)
    · exact if_neg (by rw [State.triggerOn, hoff]; nofun)
  · have hen : s.triggerOn k = true := by
      rcases hon with ⟨rfl, h⟩ | ⟨rfl, h⟩ | ⟨rfl, h⟩
      · exact h
      · exact h
      · exact h
    refine .of_exec (congrArg Host.Outcome.next (s.keepTrigger_eq k)) ?_
    rw [if_pos hen, State.keepStart_starts hready hsave]
    exact ⟨rfl, rfl⟩
  · have hother : ¬(Decidable.decide (k.val = 2) && Decidable.decide (s.now - s.keep.saveAt < 1600)) = true := by
      rw [decide_eq_false (p := k.val = 2) fun h => hk (Fin.ext h), Bool.false_and]
      nofun
    refine .of_exec (congrArg Host.Outcome.next (s.keepTrigger_eq k)) ?_
    rw [State.keepStart_runs hready hsave, if_neg hother, ite_self]
  · refine .of_exec (congrArg Host.Outcome.next (s.keepTrigger_eq 2)) ?_
    rw [if_pos (show s.triggerOn 2 = true from hon), State.keepStart_runs hready hsave, if_pos (by simp [hrecent])]
    exact ⟨rfl, rfl⟩
  · have hsame : (s.wr F.KEEP_STATUS_VKEEP mv).on F.KEEP_CFG_VKEEP_EN = false := by
      rw [State.on, State.rd_wr_of_reg_ne _ _ (by decide)]
      exact hoff
    refine .of_exec (congrArg Host.Outcome.next (State.keepTrigger_eq _ 1)) ?_
    rw [if_neg (by rw [State.triggerOn, hsame]; nofun)]
    exact ⟨State.rd_wr_self .., (changes.refl s).wr List.mem_cons_self _⟩
  · have hsame : (s.wr F.KEEP_STATUS_VKEEP mv).triggerOn 1 = true := by
      rw [State.triggerOn, State.on, State.rd_wr_of_reg_ne _ _ (by decide)]
      exact hon
    have hready' : (s.wr F.KEEP_STATUS_VKEEP mv).ready = true := by
      rw [State.ready, State.rd_wr_of_reg_ne _ _ (by decide)]
      exact hready
    refine .of_exec (congrArg Host.Outcome.next (State.keepTrigger_eq _ 1)) ?_
    rw [if_pos hsame, State.keepStart_starts hready' hsave]
    exact ⟨rfl, (changes.refl s).wr List.mem_cons_self _⟩
  · refine .of_exec ((if_neg (by simp [hq])).trans (congrArg Host.Outcome.next (if_pos ?_))) (s.discard_discarded ..)
    rw [hsave]
    rfl
  · refine .of_exec ((if_neg (by simp [hq])).trans (congrArg Host.Outcome.next (if_neg ?_))) (State.keepStart_early hready)
    rw [hsave]
    nofun
  · refine .of_exec ((if_neg (by simp [hq])).trans (congrArg Host.Outcome.next (if_neg ?_))) ?_
    · rw [hsave]
      nofun
    · rw [show s.keepTrigger 3 = _ from State.keepStart_starts hready hsave]
      exact ⟨rfl, rfl⟩
  · refine .of_exec rfl ?_
    unfold State.keepFinish
    rw [hsave]
  · obtain ⟨hkeep, hlast⟩ := s.keepFinish_shows x n late hsave
    obtain ⟨hcomplete, hpartial⟩ := s.keepFinish_counts x n late hsave
    have hwhole : n = 7 ↔ n.val ≥ 7 := ⟨fun h => h ▸ le_rfl, fun h => Fin.ext (by omega)⟩
    have hslot : mget (s.keepAfter x n late).slots s.keep.next none =
        some { x with secs := (List.range n).map fun k => (k, s.savedSec x late k) } := by
      unfold mget
      exact congrArg (Option.getD · none) (mfind_minsert_self ..)
    refine .of_exec rfl ⟨?_, ?_, ?_, ?_, fun y hy => ?_, ?_, ?_, ?_, ?_⟩
    · rw [hkeep]; rfl
    · rw [hkeep]; rfl
    · rw [hkeep]; rfl
    · rw [hkeep]; rfl
    · rw [hkeep, hslot] at hy
      obtain rfl := Option.some.inj hy
      refine ⟨rfl, rfl, fun k => (mfind_sections ..).trans ?_⟩
      simp only [List.mem_range]
      rfl
    · rw [hkeep, hslot]
      rfl
    · rw [hlast, saveOutcome]
      simp only [hwhole, Fin.ext_iff]
      rfl
    · simp only [hcomplete, hwhole]
    · simp only [hpartial, Fin.lt_def]
      rfl

end Sys2Proof.Machine
end

section
/-! SUPPORT. What an event leaves of the state (R436 to R442), and the clock tree (R363 to R365) with its statement. -/

set_option Elab.async false

namespace Sys2Proof.Machine

/-! ### Events -/

/-- From `s` to `t` nothing changes but registers, messages, and what an event writes: the log, the first FATAL event and its stop, and
Tidemark. -/
def eventRest (s t : State) : Prop :=
  { t with regs := s.regs, out := s.out, msixPend := s.msixPend, log := s.log, fatalFirst := s.fatalFirst, fatalStop := s.fatalStop,
           tmLast := s.tmLast, ras := s.ras } = s

namespace eventRest

variable {s t u : State}

theorem trans (h : eventRest s t) (k : eventRest t u) : eventRest s u := by
  have hput := congrArg (fun x : State => { x with
    regs := s.regs, out := s.out, msixPend := s.msixPend, log := s.log, fatalFirst := s.fatalFirst, fatalStop := s.fatalStop,
    tmLast := s.tmLast, ras := s.ras }) k
  exact hput.trans h

theorem of_touches {rs : List RegName} (h : touches rs s t) : eventRest s t :=
  h.rest fun x => { x with
    regs := s.regs, out := s.out, msixPend := s.msixPend, log := s.log, fatalFirst := s.fatalFirst, fatalStop := s.fatalStop,
    tmLast := s.tmLast, ras := s.ras }

theorem pwr (h : eventRest s t) : t.pwr = s.pwr := (congrArg State.pwr h :)

theorem spareMap (h : eventRest s t) : t.spareMap = s.spareMap := (congrArg State.spareMap h :)

theorem keep (h : eventRest s t) : t.keep = s.keep := (congrArg State.keep h :)

theorem thermTrip (h : eventRest s t) : t.thermTrip = s.thermTrip := (congrArg State.thermTrip h :)

end eventRest

section Event

variable (s : State)

theorem State.logWrite_rest (c code unit detail : Nat) (inj : Bool) : eventRest s (s.logWrite c code unit detail inj) := by
  unfold State.logWrite
  split
  · rfl
  · extract_lets seq e old s1 s2 s3
    have h1 : eventRest s s1 := by
      unfold s1
      split <;> rfl
    have h3 : eventRest s s3 := h1.trans rfl
    split
    · exact h3.trans rfl
    · exact h3

theorem State.tidemark_rest (src logSeq : Nat) : eventRest s (s.tidemark src logSeq) := by
  unfold State.tidemark
  dsimp only
  split_ifs <;> rfl

/-- What an event leaves of the state beside the registers. -/
theorem State.event_rest (c code unit detail : Nat) (inj : Bool) : eventRest s (s.event c code unit detail inj) := by
  unfold State.event
  extract_lets s1 s2 s3 s4
  have h2 : eventRest s s2 :=
    .of_touches (((touches.refl s).satAdd (f := F.RAS_CLASS_CNT_COUNT c) (rs := [.RAS_CLASS_CNT, .RAS_INT_STATUS])
      List.mem_cons_self 1).raise (b := .ras) (i := 0) (by decide) c)
  have h3 : eventRest s s3 := h2.trans (State.logWrite_rest ..)
  have h4 : eventRest s s4 := by
    unfold s4
    split_ifs
    · exact h2
    · exact h3.trans (State.tidemark_rest ..)
    · exact h3
  split
  · exact h4.trans rfl
  · exact h4

end Event

/-! ### The fields of the clock tree -/

theorem pllStateF_reg (k : Nat) : (pllStateF k).reg = .CLK_STATUS := by
  unfold pllStateF
  split <;> rfl

theorem pllStateF_width (k : Nat) : (pllStateF k).width = 2 := by
  unfold pllStateF
  split <;> rfl

theorem pllStateF_lo_lt (k : Nat) : (pllStateF k).lo < 4 := by
  unfold pllStateF
  split <;> decide

theorem refOkF_reg (r : Nat) : (refOkF r).reg = .CLK_STATUS := by
  unfold refOkF
  split <;> rfl

theorem refOkF_width (r : Nat) : (refOkF r).width = 1 := by
  unfold refOkF
  split <;> rfl

theorem refOkF_lo (r : Nat) : 4 ≤ (refOkF r).lo ∧ (refOkF r).lo < 6 := by
  unfold refOkF
  split <;> decide

theorem pllRefF_reg (k : Nat) : (pllRefF k).reg = .CLK_CFG := by
  unfold pllRefF
  split <;> rfl

theorem pllRefF_width (k : Nat) : (pllRefF k).width = 1 := by
  unfold pllRefF
  split <;> rfl

section Fields

variable (s : State)

theorem State.activePll_lt : s.activePll < 2 := by
  unfold State.activePll
  split <;> decide

/-- The two PLLs are two. -/
theorem State.pllStateF_lo_ne : (pllStateF s.standbyPll).lo ≠ (pllStateF s.activePll).lo := by
  unfold State.standbyPll State.activePll
  split <;> decide

theorem State.pllRefF_lo_ne : (pllRefF s.standbyPll).lo ≠ (pllRefF s.activePll).lo := by
  unfold State.standbyPll State.activePll
  split <;> decide

/-- Where the fields of the PLLs stand, their roles do. -/
theorem State.activePll_congr {s t : State} (h : ∀ k, t.rd (pllStateF k) = s.rd (pllStateF k)) : t.activePll = s.activePll := by
  unfold State.activePll
  rw [h]

theorem State.standbyPll_congr {s t : State} (h : ∀ k, t.rd (pllStateF k) = s.rd (pllStateF k)) : t.standbyPll = s.standbyPll := by
  unfold State.standbyPll
  rw [State.activePll_congr h]

/-- A write to CLK_STATUS from bit 4 on leaves the states of the PLLs. -/
theorem State.rd_pllState_wr {f : Fld} (hf : 4 ≤ f.lo) (v k : Nat) : (s.wr f v).rd (pllStateF k) = s.rd (pllStateF k) :=
  State.rd_wr_of_lo_ne _ _ fun h => absurd (pllStateF_lo_lt k) (by omega)

end Fields

/-! ### Roles of the PLLs (R364, R365) -/

section Exchange

variable (s : State) {st : Nat}

/-- The standby becomes the active PLL, and the PLL that was active enters `st`. -/
theorem State.exchangePlls_states (hst : st < 4) :
    (s.exchangePlls st).rd (pllStateF s.standbyPll) = 0 ∧ (s.exchangePlls st).rd (pllStateF s.activePll) = st := by
  have heq : s.exchangePlls st = (s.wr (pllStateF s.activePll) st).wr (pllStateF s.standbyPll) 0 := rfl
  rw [heq]
  refine ⟨State.rd_wr_self .., ?_⟩
  rw [State.rd_wr_of_lo_ne _ _ s.pllStateF_lo_ne.symm, State.rd_wr_self, pllStateF_width]
  exact Nat.mod_eq_of_lt hst

theorem pllStateF_mem (k : Nat) : pllStateF k ∈ [F.CLK_STATUS_A_STATE, F.CLK_STATUS_B_STATE] := by
  unfold pllStateF
  split
  · exact List.mem_cons_self
  · exact List.mem_cons_of_mem _ List.mem_cons_self

theorem State.exchangePlls_changes : changes [F.CLK_STATUS_A_STATE, F.CLK_STATUS_B_STATE] s (s.exchangePlls st) :=
  ((changes.refl s).wr (pllStateF_mem _) _).wr (pllStateF_mem _) _

end Exchange

/-! ### A takeover (R364) -/

/-- What signals after a change of the power manager's own state signals beside it. -/
theorem signals.of_updPwr {fs : List Fld} {s v t : State} {f : PwrSt → PwrSt} (hv : changes fs s v) (h : signals fs (v.updPwr f) t) :
    signals fs s { t with pwr := s.pwr } := by
  obtain ⟨hreads, hrest, hout⟩ := h
  obtain ⟨vreads, vrest⟩ := hv
  have hv : v.out = s.out := (congrArg State.out vrest :)
  refine ⟨fun g hg => (hreads g hg).trans (vreads g hg), ?_, hv ▸ hout⟩
  exact (congrArg (fun x : State => { x with regs := s.regs, out := s.out, msixPend := s.msixPend, pwr := s.pwr }) hrest).trans
    (congrArg (fun x : State => { x with regs := s.regs, out := s.out, msixPend := s.msixPend, pwr := s.pwr }) vrest)

theorem State.relock_setRelock (s : State) (k : Nat) (x : Option (Nat × Bool)) : mget (s.setRelock k x).pwr.relock k none = x :=
  mget_mset_self s.pwr.relock k x none

theorem State.rd_setRelock (s : State) (k : Nat) (x : Option (Nat × Bool)) (f : Fld) : (s.setRelock k x).rd f = s.rd f := rfl

section Takeover

variable (s : State) (k : Nat)

/-- The standby takes over: the roles change, and the failed PLL `k` tries to relock. -/
def State.takenOver : State :=
  ((((s.exchangePlls 2).setRelock k (some (s.now, true))).wrB F.CLK_STATUS_ALIGNED false).satAdd F.CLK_STATUS_TAKEOVERS 1).raise .clk 0 0

/-- Without a ready standby the loss of the active PLL is FATAL. -/
def State.takeoverFails : State := ((s.wr (pllStateF k) 3).raise .clk 0 1).event fatal (codeOf .clk 0 1) k 0

theorem State.takenOver_rd {f : Fld} (hreg : f.reg = .CLK_STATUS) (hlo : f.lo < 6) : (s.takenOver k).rd f = (s.exchangePlls 2).rd f := by
  unfold State.takenOver
  rw [State.rd_raise_of_reg_ne _ (by rw [hreg]; decide), State.satAdd,
    State.rd_wr_of_lo_ne _ _ (Nat.ne_of_lt (hlo.trans (by decide))), State.wrB, State.rd_wr_of_lo_ne _ _ (Nat.ne_of_lt hlo)]
  rfl

theorem State.takenOver_counts : (s.takenOver k).on F.CLK_STATUS_ALIGNED = false ∧
    (s.takenOver k).rd F.CLK_STATUS_TAKEOVERS = min (s.rd F.CLK_STATUS_TAKEOVERS + 1) (2 ^ F.CLK_STATUS_TAKEOVERS.width - 1) ∧
    (s.takenOver k).intBit .clk 0 0 = true := by
  unfold State.takenOver
  refine ⟨?_, ?_, State.intBit_raise_self _ _ _ _ (by decide)⟩
  · rw [State.on, State.rd_raise_of_reg_ne _ (by decide), State.satAdd, State.rd_wr_of_lo_ne _ _ (by decide), State.rd_wrB_self _ _ _ Nat.one_pos]
    rfl
  · rw [State.rd_raise_of_reg_ne _ (by decide), State.rd_satAdd_self, State.rd_wrB_of_lo_ne _ _ (by decide)]
    congr 2
    exact s.exchangePlls_changes.1 _ (by decide)

theorem State.takenOver_signals :
    signals [F.CLK_STATUS_A_STATE, F.CLK_STATUS_B_STATE, F.CLK_STATUS_ALIGNED, F.CLK_STATUS_TAKEOVERS, F.CLK_INT_STATUS_BITS] s
      { s.takenOver k with pwr := s.pwr } :=
  signals.of_updPwr ((s.exchangePlls_changes (st := 2)).mono (by simp))
    ((((signals.refl _).wrB (by simp) false).satAdd (by simp) 1).raise (b := .clk) (i := 0) (by simp [intStatus]) 0)

theorem State.takenOver_relock : mget (s.takenOver k).pwr.relock k none = some (s.now, true) := by
  unfold State.takenOver
  rw [State.raise_pwr, State.satAdd_pwr, State.wrB_pwr]
  exact State.relock_setRelock ..

theorem State.takenOver_intBit {e : Nat} (h : s.intBit .clk 0 e = true) : (s.takenOver k).intBit .clk 0 e = true := by
  refine State.intBit_raise_of_intBit ?_ _ _ _
  rw [State.intBit, State.satAdd, State.rd_wr_of_reg_ne _ _ (by decide), State.wrB, State.rd_wr_of_reg_ne _ _ (by decide), State.rd_setRelock,
    s.exchangePlls_changes.1 _ (by decide)]
  exact h

theorem State.takeoverFails_rd {f : Fld} (hreg : f.reg = .CLK_STATUS) : (s.takeoverFails k).rd f = (s.wr (pllStateF k) 3).rd f := by
  unfold State.takeoverFails
  rw [State.event_readsOff _ _ _ _ _ _ _ (by rw [hreg]; decide), State.rd_raise_of_reg_ne _ (by rw [hreg]; decide)]

theorem State.takeoverFails_intBit {e : Nat} (h : s.intBit .clk 0 e = true) : (s.takeoverFails k).intBit .clk 0 e = true := by
  unfold State.takeoverFails
  rw [State.intBit, State.event_readsOff _ _ _ _ _ _ _ (by decide)]
  refine State.intBit_raise_of_intBit ?_ _ _ _
  rw [State.intBit, State.rd_wr_of_reg_ne _ _ (by rw [pllStateF_reg]; decide)]
  exact h

/-- A REFCLK that is lost shows so, and its interrupt stands (R363). -/
theorem State.refLost_lost (r : Nat) : (s.refLost r).on (refOkF r) = false ∧ (s.refLost r).intBit .clk 0 2 = true := by
  refine ⟨?_, State.intBit_raise_self _ _ _ _ (by decide)⟩
  unfold State.refLost
  rw [State.on, State.rd_raise_of_reg_ne _ (by rw [refOkF_reg]; decide), State.rd_wrB_self _ _ _ (by rw [refOkF_width]; decide)]
  rfl

/-- The fields of the PLLs lie below those of the reference clocks. -/
theorem refOkF_lo_ne (r k : Nat) : (refOkF r).lo ≠ (pllStateF k).lo := by
  have hstate := pllStateF_lo_lt k
  have href := refOkF_lo r
  omega

/-- A takeover, made or failed, leaves the reference clocks. -/
theorem State.takeover_refOk (r : Nat) : (s.takenOver k).rd (refOkF r) = s.rd (refOkF r) ∧ (s.takeoverFails k).rd (refOkF r) = s.rd (refOkF r) := by
  refine ⟨?_, ?_⟩
  · rw [State.takenOver_rd _ _ (refOkF_reg r) (refOkF_lo r).2, State.exchangePlls]
    exact (State.rd_wr_of_lo_ne _ _ (refOkF_lo_ne r _)).trans (State.rd_wr_of_lo_ne _ _ (refOkF_lo_ne r _))
  · rw [State.takeoverFails_rd _ _ (refOkF_reg r)]
    exact State.rd_wr_of_lo_ne _ _ (refOkF_lo_ne r k)

end Takeover

theorem exec_pllTakeover (s : State) (lost : Bool) : exec (.pllTakeover lost) s = .next (
    if (if lost then s.refLost (s.rd (pllRefF s.activePll)) else s).standbyReady then
      (if lost then s.refLost (s.rd (pllRefF s.activePll)) else s).takenOver s.activePll
    else (if lost then s.refLost (s.rd (pllRefF s.activePll)) else s).takeoverFails s.activePll) := rfl

/-- The loss of a REFCLK with the active PLL's lock (R364). -/
theorem pllTakeover_lost (s : State) :
    Runs (.pllTakeover true) s fun t => t.on (refOkF (s.rd (pllRefF s.activePll))) = false ∧ t.intBit .clk 0 2 = true := by
  obtain ⟨hok, hint⟩ := s.refLost_lost (s.rd (pllRefF s.activePll))
  refine .of_exec (exec_pllTakeover s true) ?_
  rw [if_pos rfl]
  split
  · refine ⟨?_, State.takenOver_intBit _ _ hint⟩
    rw [State.on, (State.takeover_refOk ..).1]
    exact hok
  · refine ⟨?_, State.takeoverFails_intBit _ _ hint⟩
    rw [State.on, (State.takeover_refOk ..).2]
    exact hok

/-- The standby takes over where it is ready (R364). -/
theorem pllTakeover_ready (s : State) (h : s.standbyReady = true) : Runs (.pllTakeover false) s fun t =>
    t.rd (pllStateF s.standbyPll) = 0 ∧ t.rd (pllStateF s.activePll) = 2 ∧ mget t.pwr.relock s.activePll none = some (s.now, true) ∧
    t.on F.CLK_STATUS_ALIGNED = false ∧
    t.rd F.CLK_STATUS_TAKEOVERS = min (s.rd F.CLK_STATUS_TAKEOVERS + 1) (2 ^ F.CLK_STATUS_TAKEOVERS.width - 1) ∧ t.intBit .clk 0 0 = true ∧
    signals [F.CLK_STATUS_A_STATE, F.CLK_STATUS_B_STATE, F.CLK_STATUS_ALIGNED, F.CLK_STATUS_TAKEOVERS, F.CLK_INT_STATUS_BITS] s
      { t with pwr := s.pwr } := by
  obtain ⟨hstandby, hactive⟩ := s.exchangePlls_states (st := 2) (by decide)
  obtain ⟨haligned, hcount, hint⟩ := s.takenOver_counts s.activePll
  have hlow (k : Nat) : (pllStateF k).lo < 6 := (pllStateF_lo_lt k).trans (by decide)
  refine .of_exec ((exec_pllTakeover s false).trans (congrArg _ (if_pos h))) ⟨?_, ?_, s.takenOver_relock _, haligned, hcount, hint, s.takenOver_signals _⟩
  · exact (s.takenOver_rd _ (pllStateF_reg _) (hlow _)).trans hstandby
  · exact (s.takenOver_rd _ (pllStateF_reg _) (hlow _)).trans hactive

end Sys2Proof.Machine
end

section
/-! SUPPORT. Locks, switches and reference clocks of the PLLs (R363 to R365), and the statement on the clock tree. -/

set_option Elab.async false

namespace Sys2Proof.Machine

/-! ### Locks (R364) -/

section Relock

variable (s : State) (k : Fin 2)

theorem relock_none (h : mget s.pwr.relock k none = none) :
    exec (.pllRelockDone k) s = .next s ∧ exec (.pllRelockTimeout k) s = .next s := by
  refine ⟨?_, ?_⟩
  · change execPllRelockDone k s = _
    unfold execPllRelockDone
    rw [h]
  · change execPllRelockTimeout k s = _
    unfold execPllRelockTimeout
    rw [h]

/-- PLL `k` locks again, and is STANDBY. -/
def State.relocked (k : Nat) : State := ((s.setRelock k none).wr (pllStateF k) 1).event corrected (codeOf .clk 0 0) k 0

/-- PLL `k` has not locked in time, and is FAILED. -/
def State.relockFailed (k : Nat) : State :=
  ((((s.setRelock k none).wr (pllStateF k) 3).raise .clk 0 1).mapRecord 7 k (2 + (1 - k))).spareConsumed 7 .clk 0 k k

/-- A PLL that relocks after a takeover has 10 ms (R364). -/
theorem relock_taken {t0 : Nat} (h : mget s.pwr.relock k none = some (t0, true)) (hstate : s.rd (pllStateF k) = 2) :
    exec (.pllRelockDone k) s = .next (if s.now - t0 ≤ 16000000 then s.relocked k else s) ∧
    exec (.pllRelockTimeout k) s = .next (if 16000000 ≤ s.now - t0 then s.relockFailed k else s) := by
  refine ⟨?_, ?_⟩
  · change execPllRelockDone k s = _
    unfold execPllRelockDone
    rw [h]
    simp only [hstate, decide_true, Bool.true_and, decide_eq_true_eq]
    rfl
  · change execPllRelockTimeout k s = _
    unfold execPllRelockTimeout
    rw [h]
    simp only [hstate, decide_true, Bool.true_and, decide_eq_true_eq]
    rfl

theorem State.relocked_ends (k : Nat) : (s.relocked k).rd (pllStateF k) = 1 ∧ mget (s.relocked k).pwr.relock k none = none := by
  unfold State.relocked
  refine ⟨?_, ?_⟩
  · rw [State.event_readsOff _ _ _ _ _ _ _ (by rw [pllStateF_reg]; decide), State.rd_wr_self, pllStateF_width]
    rfl
  · rw [(State.event_rest ..).pwr]
    exact State.relock_setRelock ..

theorem State.relockFailed_ends (k : Nat) : (s.relockFailed k).rd (pllStateF k) = 3 ∧
    mget (s.relockFailed k).spareMap (key2 7 k) 0 = 2 + (1 - k) ∧ mget (s.relockFailed k).pwr.relock k none = none := by
  have hraised : ((((s.setRelock k none).wr (pllStateF k) 3).raise .clk 0 1).pwr) = (s.setRelock k none).pwr :=
    (State.raise_pwr ..).trans (State.wr_pwr ..)
  unfold State.relockFailed State.spareConsumed
  refine ⟨?_, ?_, ?_⟩
  · rw [State.event_readsOff _ _ _ _ _ _ _ (by rw [pllStateF_reg]; decide), State.satAdd, State.rd_wr_of_reg_ne _ _ (by rw [pllStateF_reg]; nofun),
      State.subFrom, State.rd_wr_of_reg_ne _ _ (by rw [pllStateF_reg]; nofun)]
    refine (State.rd_raise_of_reg_ne _ (by rw [pllStateF_reg]; decide)).trans ?_
    rw [State.rd_wr_self, pllStateF_width]
    rfl
  · rw [(State.event_rest ..).spareMap]
    exact mget_mset_self _ (key2 7 k) (2 + (1 - k)) 0
  · rw [(State.event_rest ..).pwr]
    exact (congrArg (fun p : PwrSt => mget p.relock k none) hraised).trans (State.relock_setRelock ..)

end Relock

/-! ### The standby (R363, R365) -/

section Standby

variable (s : State)

theorem pllAligned_standby (h : s.rd (pllStateF s.standbyPll) = 1) :
    Runs .pllAligned s fun t => t.on F.CLK_STATUS_ALIGNED = true ∧ changes [F.CLK_STATUS_ALIGNED] s t :=
  .of_exec (t := s.wrB F.CLK_STATUS_ALIGNED true) (congrArg Host.Outcome.next (if_pos h))
    ⟨State.on_wrB_self _ _ Nat.one_pos, (changes.refl s).wrB List.mem_cons_self true⟩

/-- A standby that relocks after a takeover does not become ready by its alignment. -/
theorem pllAligned_taken {t0 : Nat} (hstate : s.rd (pllStateF s.standbyPll) = 2)
    (h : mget s.pwr.relock s.standbyPll none = some (t0, true)) : Runs .pllAligned s fun t => t = s := by
  refine .of_exec (t := s) (congrArg Host.Outcome.next ((if_neg (by rw [hstate]; decide)).trans ?_)) rfl
  rw [h]

/-- A standby that relocks for another reason is STANDBY once it is aligned. -/
theorem pllAligned_relocks {t0 : Nat} (h : mget s.pwr.relock s.standbyPll none = some (t0, false))
    (hstate : s.rd (pllStateF s.standbyPll) = 2) :
    Runs .pllAligned s fun t => t.rd (pllStateF s.standbyPll) = 1 ∧ t.on F.CLK_STATUS_ALIGNED = true := by
  refine .of_exec (t := ((s.setRelock s.standbyPll none).wr (pllStateF s.standbyPll) 1).wrB F.CLK_STATUS_ALIGNED true)
    (congrArg Host.Outcome.next ((if_neg (by rw [hstate]; decide)).trans ?_)) ⟨?_, State.on_wrB_self _ _ Nat.one_pos⟩
  · rw [h]
    exact if_pos hstate
  · rw [State.wrB, State.rd_pllState_wr _ (by decide), State.rd_wr_self, pllStateF_width]
    rfl

/-- The standby locks again: it is not aligned, and RELOCKING where it was STANDBY (R363 to R365). -/
theorem State.standbyRelock_ends : s.standbyRelock.on F.CLK_STATUS_ALIGNED = false ∧
    (s.rd (pllStateF s.standbyPll) = 1 → s.standbyRelock.rd (pllStateF s.standbyPll) = 2) := by
  have hoff : (s.wrB F.CLK_STATUS_ALIGNED false).on F.CLK_STATUS_ALIGNED = false := State.on_wrB_self _ _ Nat.one_pos
  have hsame : (s.wrB F.CLK_STATUS_ALIGNED false).rd (pllStateF s.standbyPll) = s.rd (pllStateF s.standbyPll) :=
    State.rd_pllState_wr _ (by decide) _ _
  have hlow := pllStateF_lo_lt s.standbyPll
  unfold State.standbyRelock
  dsimp only
  rw [hsame]
  split
  · refine ⟨?_, fun _ => ?_⟩
    · rw [State.on, State.rd_setRelock, State.rd_wr_of_lo_ne _ _ (show 6 ≠ _ by omega)]
      exact hoff
    · rw [State.rd_setRelock, State.rd_wr_self, pllStateF_width]
      rfl
  · next h => exact ⟨hoff, fun h1 => absurd h1 h⟩

/-- What the standby's loss of its lock leaves. -/
theorem State.standbyRelock_rd {f : Fld} (hf : f.reg = .CLK_STATUS → 4 ≤ f.lo ∧ f.lo ≠ 6) : s.standbyRelock.rd f = s.rd f := by
  have hwr (u : State) (g : Fld) (v : Nat) (hg : g.reg = .CLK_STATUS) (hlo : g.lo < 4 ∨ g.lo = 6) : (u.wr g v).rd f = u.rd f := by
    refine State.rd_wr_ne _ _ fun e => ?_
    obtain ⟨hreg, -, hsame⟩ := Fld.key_eq.1 e
    have := hf (hreg.trans hg)
    omega
  have hlow := pllStateF_lo_lt s.standbyPll
  unfold State.standbyRelock
  dsimp only
  split
  · rw [State.rd_setRelock, hwr _ _ _ (pllStateF_reg _) (.inl hlow)]
    exact hwr _ _ _ rfl (.inr rfl)
  · exact hwr _ _ _ rfl (.inr rfl)

/-- A switch to a ready standby (R365). -/
theorem clkSwitch_ready {q : Requester} (hq : s.grants q true = true) (h : s.standbyReady = true) : Runs (.clkSwitch q) s fun t =>
    t.rd (pllStateF s.standbyPll) = 0 ∧ t.rd (pllStateF s.activePll) = 1 ∧ t.intBit .clk 0 0 = true ∧ t.pwr = s.pwr := by
  obtain ⟨hstandby, hactive⟩ := s.exchangePlls_states (st := 1) (by decide)
  have hstate (k : Nat) : (((s.exchangePlls 1).satAdd F.CLK_STATUS_TAKEOVERS 1).raise .clk 0 0).rd (pllStateF k) =
      (s.exchangePlls 1).rd (pllStateF k) := by
    rw [State.rd_raise_of_reg_ne _ (by rw [pllStateF_reg]; decide)]
    exact State.rd_pllState_wr _ (by decide) _ _
  refine .of_exec (t := ((s.exchangePlls 1).satAdd F.CLK_STATUS_TAKEOVERS 1).raise .clk 0 0)
    ((if_neg (by simp [hq])).trans (congrArg Host.Outcome.next (if_pos h)))
    ⟨(hstate _).trans hstandby, (hstate _).trans hactive, State.intBit_raise_self _ _ _ _ (by decide), ?_⟩
  rw [State.raise_pwr, State.satAdd_pwr]
  rfl

theorem clkSwitch_unready {q : Requester} (hq : s.grants q true = true) (h : s.standbyReady = false) :
    Runs (.clkSwitch q) s (discarded q (regAddr .CLK_CFG 0) (s.rd (pllStateF s.standbyPll)) 0 s) :=
  .of_exec ((if_neg (by simp [hq])).trans (congrArg Host.Outcome.next (if_neg (by rw [h]; nofun)))) (s.discard_discarded ..)

/-- REF of PLL `k` as a write of both fields names it. -/
def refWant (a b : Bool) (k : Nat) : Bool := if k = 0 then a else b

/-- A write of both REF fields (R365). -/
theorem exec_clkRefWrite {q : Requester} (hq : s.grants q true = true) (a b : Bool) : exec (.clkRefWrite q a b) s = .next (
    if (if s.on (pllRefF s.activePll) != refWant a b s.activePll then s.locked q .CLK_CFG 0 0 else s).on (pllRefF s.standbyPll) !=
        refWant a b s.standbyPll then
      (((if s.on (pllRefF s.activePll) != refWant a b s.activePll then s.locked q .CLK_CFG 0 0 else s).wrB (pllRefF s.standbyPll)
        (refWant a b s.standbyPll)).standbyRelock)
    else if s.on (pllRefF s.activePll) != refWant a b s.activePll then s.locked q .CLK_CFG 0 0 else s) := if_neg (by simp [hq])

theorem refWant_active (a b : Bool) : refWant a b s.activePll = if s.activePll = 0 then a else b := rfl

theorem refWant_standby (a b : Bool) : refWant a b s.standbyPll = if s.activePll = 0 then b else a := by
  unfold refWant State.standbyPll
  have := s.activePll_lt
  by_cases h : s.activePll = 0
  · rw [h]
    rfl
  · rw [if_neg h, if_pos (by omega)]

end Standby

/-! ### Reference clocks (R363, R364) -/

section Refclk

variable (s : State) (r : Fin 2)

theorem exec_refclkStatusChange (ok lock : Bool) : exec (.refclkStatusChange r ok lock) s = .next (
    if !lock || ((s.on (refOkF r) && !ok) &&
        (if s.on (refOkF r) && !ok then s.refLost r else s.wrB (refOkF r) ok).rd
          (pllRefF (if s.on (refOkF r) && !ok then s.refLost r else s.wrB (refOkF r) ok).standbyPll) = r.val) then
      (if s.on (refOkF r) && !ok then s.refLost r else s.wrB (refOkF r) ok).standbyRelock
    else if s.on (refOkF r) && !ok then s.refLost r else s.wrB (refOkF r) ok) := rfl

/-- The first part of a change: the OK bit, and the interrupt of a loss. It leaves the states of the PLLs. -/
theorem State.refChange_rd (ok : Bool) (k : Nat) :
    (if s.on (refOkF r) && !ok then s.refLost r else s.wrB (refOkF r) ok).rd (pllStateF k) = s.rd (pllStateF k) := by
  have hwr (b : Bool) : (s.wrB (refOkF r) b).rd (pllStateF k) = s.rd (pllStateF k) := State.rd_wr_of_lo_ne _ _ (refOkF_lo_ne r k).symm
  split
  · exact (State.rd_raise_of_reg_ne _ (by rw [pllStateF_reg]; decide)).trans (hwr false)
  · exact hwr ok

end Refclk

/-- Settles O50: the rules of the takeover, of the locks, of the switch and of the reference clocks. -/
theorem clockTree : Obligations.ClockTree := by
  refine fun s => ⟨pllTakeover_ready s, fun h => .of_exec ((exec_pllTakeover s false).trans (congrArg _ (if_neg (by simp [h])))) rfl,
    pllTakeover_lost s, fun k => ⟨fun h => ⟨.of_exec (relock_none s k h).1 rfl, .of_exec (relock_none s k h).2 rfl⟩, fun t0 h hstate => ?_⟩,
    pllAligned_standby s, fun t0 hstate h => pllAligned_taken s hstate h, fun t0 h hstate => pllAligned_relocks s h hstate,
    fun q hq => ⟨clkSwitch_ready s hq, clkSwitch_unready s hq, ?_⟩, fun r lock => ⟨fun hoff => ?_, fun hon => ?_, fun ok => ?_⟩⟩
  · obtain ⟨hdone, htimeout⟩ := relock_taken s k h hstate
    obtain ⟨hlocked, hnone⟩ := s.relocked_ends k
    exact ⟨fun hin => .of_exec (hdone.trans (congrArg _ (if_pos hin))) ⟨rfl, hlocked, hnone⟩,
      fun hearly => .of_exec (htimeout.trans (congrArg _ (if_neg (Nat.not_le.2 hearly)))) rfl,
      fun hlate => .of_exec (hdone.trans (congrArg _ (if_neg (Nat.not_le.2 hlate)))) rfl,
      fun hout => .of_exec (htimeout.trans (congrArg _ (if_pos hout))) (s.relockFailed_ends k)⟩
  · rintro a b v hv w hw
    have hexec := exec_clkRefWrite s hq a b
    rw [refWant_active, refWant_standby, ← hv, ← hw] at hexec
    refine ⟨fun hactive hstandby => ?_, fun hactive hstandby => ?_, fun hactive hstandby => ?_⟩
    · refine .of_exec hexec ?_
      simp [hactive, hstandby]
    · refine .of_exec hexec ?_
      have hsame : (s.locked q .CLK_CFG 0 0).on (pllRefF s.standbyPll) = w := by
        rw [State.on, State.locked_reads (by rw [pllRefF_reg]; decide)]
        exact hstandby
      simp only [bne_iff_ne, ne_eq, hactive, not_false_eq_true, if_true, hsame, not_true_eq_false, if_false]
      exact s.discard_discarded ..
    · refine .of_exec hexec ?_
      simp only [bne_iff_ne, ne_eq, hactive, not_true_eq_false, if_false, hstandby, not_false_eq_true, if_true]
      have hstates (k : Nat) : (s.wrB (pllRefF s.standbyPll) w).rd (pllStateF k) = s.rd (pllStateF k) :=
        State.rd_wr_of_reg_ne _ _ (by rw [pllStateF_reg, pllRefF_reg]; decide)
      obtain ⟨haligned, hrelock⟩ := (s.wrB (pllRefF s.standbyPll) w).standbyRelock_ends
      rw [hstates, State.standbyPll_congr hstates] at hrelock
      refine ⟨?_, haligned, hrelock⟩
      rw [State.on, State.standbyRelock_rd _ (fun h => absurd (h.symm.trans (pllRefF_reg _)) (by decide))]
      exact State.on_wrB_self _ _ (by rw [pllRefF_width]; decide)
  · refine .of_exec (exec_refclkStatusChange s r true true) ?_
    simp only [hoff, Bool.not_true, Bool.and_false, Bool.false_and, Bool.or_self, Bool.false_eq_true, if_false]
    exact ⟨State.on_wrB_self _ _ (by rw [refOkF_width]; decide), (changes.refl s).wrB List.mem_cons_self true⟩
  · obtain ⟨hlost, hint⟩ := s.refLost_lost r
    have hhigh := refOkF_lo r
    refine .of_exec (exec_refclkStatusChange s r false lock) ?_
    simp only [hon, Bool.not_false, Bool.and_self, if_true]
    split
    · refine ⟨?_, ?_⟩
      · rw [State.on, State.standbyRelock_rd _ fun _ => by omega]
        exact hlost
      · rw [State.intBit, State.standbyRelock_rd _ fun h => absurd h (by decide)]
        exact hint
    · exact ⟨hlost, hint⟩
  · have hstates := s.refChange_rd r ok
    obtain ⟨haligned, hrelock⟩ := (if s.on (refOkF r) && !ok then s.refLost r else s.wrB (refOkF r) ok).standbyRelock_ends
    rw [hstates, State.standbyPll_congr hstates] at hrelock
    exact .of_exec ((exec_refclkStatusChange s r ok false).trans (congrArg _ (if_pos rfl))) ⟨haligned, hrelock⟩

end Sys2Proof.Machine
end

section
/-! SUPPORT. Writes of interrupt status, of the vector map and of the MSI-X masks (R475, R478, R479). -/

set_option Elab.async false

namespace Sys2Proof.Machine

/-! ### The registers behind the commands (R463, R475) -/

/-- INT_STATUS of a block is a 32-bit register of BAR0. -/
theorem intStatus_place : ∀ e ∈ intBlks, ∀ i < e.2, regAddr (intStatus e.1 i).reg i < 2 ^ 28 ∧ regAddr (intStatus e.1 i).reg i % 4 = 0 ∧
    regAt (regAddr (intStatus e.1 i).reg i) = some ((intStatus e.1 i).reg, i, false) := by decide +kernel

theorem intStatus_row : ∀ e ∈ intBlks, (regRow (intStatus e.1 0).reg).wide = false ∧ statusOf (intStatus e.1 0).reg = some e.1 := by
  decide +kernel

theorem intStatus_reg (b : Blk) (i : Nat) : (intStatus b i).reg = (intStatus b 0).reg := by cases b <;> rfl

theorem vecMap_place : ∀ b : Fin 39, regAddr .CHIP_VEC_MAP b < 2 ^ 28 ∧ regAddr .CHIP_VEC_MAP b % 4 = 0 ∧
    regAt (regAddr .CHIP_VEC_MAP b) = some (.CHIP_VEC_MAP, b.val, false) := by decide +kernel

theorem State.reach_of_ready {s : State} (hready : s.ready = true) (addr : Nat) : s.reach addr = regAt addr := by
  unfold State.reach
  rw [hready]
  rfl

/-! ### What a vector's condition looks at (R478, R479) -/

/-- A vector's message changes no vector's condition. -/
theorem State.vectorCond_sendVector (s : State) (k v x : Nat) : (s.sendVector k v).vectorCond x = s.vectorCond x := by
  unfold State.vectorCond State.summaryCond State.pendingOf
  simp only [State.rd_sendVector]

theorem intStatus_ne_vecMap (b : Blk) (i : Nat) : (intStatus b i).reg ≠ .CHIP_VEC_MAP := by cases b <;> nofun

theorem intMask_ne_vecMap (b : Blk) (i : Nat) : (intMask b i).reg ≠ .CHIP_VEC_MAP := by cases b <;> nofun

/-- The vector map has no part in the summary conditions. -/
theorem State.summaryCond_wr_vecMap (s : State) (k v b : Nat) : (s.wr (F.CHIP_VEC_MAP_VECTOR k) v).summaryCond b = s.summaryCond b := by
  unfold State.summaryCond State.pendingOf
  simp only [State.rd_wr_of_reg_ne s (f := F.CHIP_VEC_MAP_VECTOR k) v (intStatus_ne_vecMap _ _),
    State.rd_wr_of_reg_ne s (f := F.CHIP_VEC_MAP_VECTOR k) v (intMask_ne_vecMap _ _)]

/-! ### INT_STATUS and CHIP_VEC_MAP -/

/-- A write to INT_STATUS clears the bits written as 1, and sends the vector's message while its condition holds (R475). -/
theorem State.intStatusWrite_clears (s : State) (b : Blk) (i v : Nat) :
    (s.intStatusWrite b i v).rd (intStatus b i) = s.rd (intStatus b i) - (s.rd (intStatus b i) &&& v) ∧
    ((s.intStatusWrite b i v).vectorCond (s.rd (F.CHIP_VEC_MAP_VECTOR (summaryBit b i))) = true →
      (s.intStatusWrite b i v).out = (s.sendVector 0 (s.rd (F.CHIP_VEC_MAP_VECTOR (summaryBit b i)))).out) ∧
    ((s.intStatusWrite b i v).vectorCond (s.rd (F.CHIP_VEC_MAP_VECTOR (summaryBit b i))) = false → (s.intStatusWrite b i v).out = s.out) ∧
    signals [intStatus b i] s (s.intStatusWrite b i v) := by
  have hlt : s.rd (intStatus b i) - (s.rd (intStatus b i) &&& v) < 2 ^ (intStatus b i).width :=
    Nat.lt_of_le_of_lt (Nat.sub_le ..) (s.rd_lt _)
  have hvec : (s.wr (intStatus b i) (s.rd (intStatus b i) - (s.rd (intStatus b i) &&& v))).rd (F.CHIP_VEC_MAP_VECTOR (summaryBit b i)) =
      s.rd (F.CHIP_VEC_MAP_VECTOR (summaryBit b i)) := State.rd_wr_of_reg_ne _ _ (intStatus_ne_vecMap b i).symm
  unfold State.intStatusWrite
  dsimp only
  rw [hvec]
  generalize s.rd (F.CHIP_VEC_MAP_VECTOR (summaryBit b i)) = x
  have hsig := (signals.refl (fs := [intStatus b i]) s).wr (f := intStatus b i) List.mem_cons_self
    (s.rd (intStatus b i) - (s.rd (intStatus b i) &&& v))
  split
  next hcond =>
    refine ⟨?_, fun _ => State.sendVector_out_congr (s := s) (t := s.wr _ _) rfl rfl 0 x, fun hno => ?_, hsig.sendVector 0 x⟩
    · rw [State.rd_sendVector, State.rd_wr_self, Nat.mod_eq_of_lt hlt]
    · rw [State.vectorCond_sendVector, hcond] at hno
      cases hno
  next hcond =>
    refine ⟨?_, fun hyes => absurd hyes hcond, fun _ => rfl, hsig⟩
    rw [State.rd_wr_self, Nat.mod_eq_of_lt hlt]

/-- A summary bit takes its vector, and a new vector sends at once while the bit's condition holds (R478). -/
theorem State.vecMapWrite_maps (s : State) (b v : Nat) :
    (s.vecMapWrite b v).rd (F.CHIP_VEC_MAP_VECTOR b) = v % 2 ^ 10 ∧ signals [F.CHIP_VEC_MAP_VECTOR b] s (s.vecMapWrite b v) ∧
    (s.summaryCond b = true → s.rd (F.CHIP_VEC_MAP_VECTOR b) ≠ v % 2 ^ 10 →
      (s.vecMapWrite b v).out = (s.sendVector 0 (v % 2 ^ 10)).out) := by
  have hbits : bits v 0 10 = v % 2 ^ 10 := by unfold bits; rw [pow_zero, Nat.div_one]
  have hrd : (s.wr (F.CHIP_VEC_MAP_VECTOR b) (v % 2 ^ 10)).rd (F.CHIP_VEC_MAP_VECTOR b) = v % 2 ^ 10 :=
    (State.rd_wr_self ..).trans (Nat.mod_mod _ _)
  have hsig := (signals.refl (fs := [F.CHIP_VEC_MAP_VECTOR b]) s).wr (f := F.CHIP_VEC_MAP_VECTOR b) List.mem_cons_self (v % 2 ^ 10)
  unfold State.vecMapWrite
  dsimp only
  rw [hbits, State.summaryCond_wr_vecMap]
  split
  next => exact ⟨(State.rd_sendVector ..).trans hrd, hsig.sendVector 0 _, fun _ _ => State.sendVector_out_congr (s := s) (t := s.wr _ _) rfl rfl 0 _⟩
  next hno =>
    refine ⟨hrd, hsig, fun hcond hne => absurd ?_ hno⟩
    rw [hcond, Bool.and_true, decide_eq_true hne.symm]

theorem State.regWrite_intStatus (s : State) (q : Requester) {b : Blk} {r : RegName} (hr : statusOf r = some b) (k v : Nat) :
    s.regWrite q r k v = s.intStatusWrite b k v := by
  unfold State.regWrite
  rw [hr]

theorem State.regWrite_vecMap (s : State) (q : Requester) (k v : Nat) : s.regWrite q .CHIP_VEC_MAP k v = s.vecMapWrite k v := by
  unfold State.regWrite
  rw [show statusOf .CHIP_VEC_MAP = none by decide +kernel, show maskOf .CHIP_VEC_MAP = none by decide +kernel]
  rfl

/-! ### MSI-X -/

/-- An unmasked vector with a pending message sends it (R479). -/
theorem msixUnmask_sends (s : State) (owner : Fin 32) (v : Fin 1056) (hv : owner.val = 0 ∨ v.val < 32) : Runs (.msixUnmask owner v) s fun t =>
    mget t.msixOn (key2 owner.val v.val) false = true ∧ mget t.msixPend (key2 owner.val v.val) false = false ∧
    (mget s.msixPend (key2 owner.val v.val) false = true → t.out = .msix owner v :: s.out) ∧
    (mget s.msixPend (key2 owner.val v.val) false = false → t.out = s.out) ∧
    { t with out := s.out, msixOn := s.msixOn, msixPend := s.msixPend } = s := by
  have hguard : (owner.val ≠ 0 && v.val ≥ 32) = false := by
    rcases hv with h | h
    · rw [decide_eq_false (not_not.2 h)]; rfl
    · rw [decide_eq_false (Nat.not_le.2 h), Bool.and_false]
  have hon := mget_mset_self s.msixOn (key2 owner.val v.val) true false
  have hgo : execMsixUnmask owner v s = .next (
      if mget s.msixPend (key2 owner.val v.val) false then
        State.emit { s with
          msixOn := mset s.msixOn (key2 owner.val v.val) true false
          msixPend := mset s.msixPend (key2 owner.val v.val) false false } (.msix owner v)
      else { s with msixOn := mset s.msixOn (key2 owner.val v.val) true false }) :=
    congrArg Host.Outcome.next (if_neg (by rw [hguard]; decide))
  refine .of_exec hgo ?_
  cases hpend : mget s.msixPend (key2 owner.val v.val) false with
  | true => exact ⟨hon, mget_mset_self s.msixPend _ false false, fun _ => rfl, nofun, rfl⟩
  | false => exact ⟨hon, hpend, nofun, fun _ => rfl, rfl⟩

/-- Settles O20: the three kinds of writes, each to its register or vector. -/
theorem interruptWrites : Obligations.InterruptWrites := by
  intro s q hready hq hheld
  refine ⟨fun b i v hb => ?_, fun b v => ?_, msixUnmask_sends s⟩
  · obtain ⟨⟨b', n⟩, hmem, he⟩ := List.any_eq_true.1 hb
    obtain ⟨hb', hi⟩ := (Bool.and_eq_true_iff.1 he).imp of_decide_eq_true of_decide_eq_true
    obtain rfl : b' = b := hb'
    obtain ⟨haddr, halign, hat⟩ := intStatus_place _ hmem i hi
    obtain ⟨hwide, hstatus⟩ := intStatus_row _ hmem
    rw [← intStatus_reg b' i] at hwide hstatus
    have hwrite := State.write_narrow hq haddr halign ((State.reach_of_ready hready _).trans hat) hwide hheld v.toNat
    refine .of_exec (congrArg Host.Outcome.next ((if_pos hb).trans (hwrite.trans ?_))) (s.intStatusWrite_clears b' i v.toNat)
    exact State.regWrite_intStatus s q hstatus i v.toNat
  · obtain ⟨haddr, halign, hat⟩ := vecMap_place b
    have hwrite := State.write_narrow hq haddr halign ((State.reach_of_ready hready _).trans hat) (by decide +kernel) hheld v.toNat
    exact .of_exec (congrArg Host.Outcome.next (hwrite.trans (State.regWrite_vecMap s q b v.toNat))) (s.vecMapWrite_maps b v.toNat)

end Sys2Proof.Machine
end

section
/-! SUPPORT. The checks of an image (R395). -/

set_option Elab.async false

namespace Sys2Proof.Machine

/-- A chain of checks that ends at 0 went past a check whose code is another. -/
theorem pass_of_ite_eq_zero {bad : Prop} [Decidable bad] {code rest : Nat} (hcode : code ≠ 0) (h : (if bad then code else rest) = 0) :
    ¬bad ∧ rest = 0 := by
  split at h
  next => exact absurd h hcode
  next hpass => exact ⟨hpass, h⟩

/-- A check that is negated passes where the condition holds. -/
theorem eq_true_of_not_not {b : Bool} (h : ¬(!b) = true) : b = true := by
  cases b
  · exact absurd rfl h
  · rfl

/-- Settles O58: an image without an error went past each check of R395, one after the other. -/
theorem imageChecks : Obligations.ImageChecks := by
  intro s im staged h
  unfold State.imageError at h
  obtain ⟨hmagic, h⟩ := pass_of_ite_eq_zero (by decide) h
  obtain ⟨hdevice, h⟩ := pass_of_ite_eq_zero (by decide) h
  obtain ⟨hlength, h⟩ := pass_of_ite_eq_zero (by decide) h
  obtain ⟨hslot, h⟩ := pass_of_ite_eq_zero (by decide) h
  obtain ⟨hdigest, h⟩ := pass_of_ite_eq_zero (by decide) h
  obtain ⟨hsig, h⟩ := pass_of_ite_eq_zero (by decide) h
  obtain ⟨hsvn, h⟩ := pass_of_ite_eq_zero (by decide) h
  obtain ⟨hsections, h⟩ := pass_of_ite_eq_zero (by decide) h
  obtain ⟨hcontent, h⟩ := pass_of_ite_eq_zero (by decide) h
  have hmagic := eq_true_of_not_not hmagic
  have hdevice := eq_true_of_not_not hdevice
  have hslot := eq_true_of_not_not hslot
  have hcontent := eq_true_of_not_not hcontent
  simp only [Bool.and_eq_true, decide_eq_true_eq] at hmagic hdevice hslot hcontent
  obtain ⟨⟨⟨⟨hmagic, hformat⟩, -⟩, -⟩, -⟩ := hmagic
  obtain ⟨⟨-, hkeySlot⟩, hrevoked⟩ := hslot
  refine ⟨hmagic, hformat, hdevice.1, hdevice.2, ?_, hkeySlot, not_not.1 hdigest, ?_, eq_true_of_not_not hsig, Nat.le_of_not_lt hsvn,
    eq_true_of_not_not hsections, hcontent.1, ?_, ?_⟩
  · split at hlength <;> omega
  · simpa using hrevoked
  · rintro rfl
    rw [if_neg Bool.false_ne_true] at h
    by_contra htype
    rw [if_neg htype] at h
    cases h
  · rintro rfl
    rw [if_pos rfl] at h
    split at h
    next hbase =>
      simp only [Bool.and_eq_true, decide_eq_true_eq] at hbase
      exact ⟨hbase.1.1, hbase.2⟩
    next => cases h

end Sys2Proof.Machine
end

section
/-! SUPPORT. Ring tails, windows of VFs, ring configurations, and the doors of Dysum (R413, R416, R419, R422 to R424, R435). -/

set_option Elab.async false

namespace Sys2Proof.Machine

/-! ### Writes to plain registers -/

/-- A register of one writable field that no command, lock, clamp or shaper bears on: a write puts the field's bits there (R17). -/
theorem State.regWrite_plain (s : State) (q : Requester) {r : RegName} {k : Nat} {f : Fld} (v : Nat) (hstatus : statusOf r = none)
    (hmask : maskOf r = none) (htable : writeTable.find? (fun e => e.1 = r) = none) (hshaper : shaperReg r k = none)
    (hlock : s.lockState r k = none) (hfields : (regRow r).fields k = [(f, .rw)]) (hclamp : ∀ x, s.clamped f v x = x) :
    s.regWrite q r k v = s.wr f (bits v f.lo f.width) := by
  unfold State.regWrite State.plainWrite State.shapeWrite State.takeFields
  rw [hstatus, hmask, htable]
  dsimp only
  rw [hshaper]
  dsimp only
  rw [hlock, hfields]
  dsimp only [List.foldl_cons, List.foldl_nil]
  rw [hclamp]

/-- A field of the low bits of its register takes them. -/
theorem State.wr_low_changes (s : State) (f : Fld) {v : Nat} (hlo : f.lo = 0) (hv : v < 2 ^ f.width) :
    (s.wr f (bits v f.lo f.width)).rd f = v ∧ changes [f] s (s.wr f (bits v f.lo f.width)) := by
  refine ⟨?_, (changes.refl s).wr List.mem_cons_self _⟩
  rw [State.rd_wr_self, hlo, bits, pow_zero, Nat.div_one, Nat.mod_mod, Nat.mod_eq_of_lt hv]

theorem regWrite_rxTail (s : State) (q : Requester) (r v : Nat) :
    s.regWrite q .HARB_RX_TAIL r v = s.wr (F.HARB_RX_TAIL_TAIL r) (bits v 0 16) :=
  s.regWrite_plain q v (by decide +kernel) (by decide +kernel) rfl rfl rfl rfl fun _ => rfl

theorem regWrite_txTail (s : State) (q : Requester) (r v : Nat) :
    s.regWrite q .HARB_TX_TAIL r v = s.wr (F.HARB_TX_TAIL_TAIL r) (bits v 0 16) :=
  s.regWrite_plain q v (by decide +kernel) (by decide +kernel) rfl rfl rfl rfl fun _ => rfl

theorem regWrite_cmdTail (s : State) (q : Requester) (k v : Nat) :
    s.regWrite q .DYS_CMD_TAIL k v = s.wr (F.DYS_CMD_TAIL_TAIL k) (bits v 0 32) :=
  s.regWrite_plain q v (by decide +kernel) (by decide +kernel) rfl rfl rfl rfl fun _ => rfl

/-! ### Writes by a VF (R413) -/

/-- A VF's 4-byte write to a register of its own writes it. -/
theorem State.write_vf {s : State} {f : Fin 32} {addr : Nat} {r : RegName} {k : Nat} (haddr : addr < 2 ^ 28) (halign : addr % 4 = 0)
    (hown : s.vfReaches f addr = true) (hreach : s.reach addr = some (r, k, false)) (hwide : (regRow r).wide = false)
    (hheld : mget s.held (requesterIx (.vf f)) none = none) (v : Nat) : s.write (.vf f) addr 4 v = s.regWrite (.vf f) r k v := by
  unfold State.write
  rw [accessOk_of_aligned haddr (by decide) halign]
  exact (if_neg (by decide)).trans ((if_pos hown).trans (State.writeWord_narrow hreach hwide hheld v))

/-- A VF's write to a register that is not its own is counted. -/
theorem State.write_vf_denied {s : State} {f : Fin 32} {addr : Nat} (haddr : addr < 2 ^ 28) (halign : addr % 4 = 0)
    (hown : s.vfReaches f addr = false) (v : Nat) : s.write (.vf f) addr 4 v = s.vfDenied f := by
  unfold State.write
  rw [accessOk_of_aligned haddr (by decide) halign]
  exact (if_neg (by decide)).trans (if_neg (by rw [hown]; exact Bool.false_ne_true))

/-- An access outside a VF's window is counted and signalled (R413). -/
theorem State.vfDenied_counts (s : State) (f : Nat) :
    (s.vfDenied f).rd (F.HARB_VF_DENIED_COUNT f) = min (s.rd (F.HARB_VF_DENIED_COUNT f) + 1) (2 ^ 32 - 1) ∧
    (s.vfDenied f).intBit .harb 0 2 = true ∧ signals [F.HARB_VF_DENIED_COUNT f, F.HARB_INT_STATUS_BITS] s (s.vfDenied f) :=
  ⟨(State.rd_raise_reg _ .harb 0 2 (by nofun)).trans (State.rd_satAdd_self ..), State.intBit_raise_self _ _ _ _ (by decide),
    ((signals.refl s).satAdd List.mem_cons_self 1).raise (b := .harb) (i := 0) (List.mem_cons_of_mem _ List.mem_cons_self) 2⟩

/-! ### The doors of Dysum (R422 to R424) -/

theorem cmdTail_place : ∀ k : Fin 35, regAddr .DYS_CMD_TAIL k < 2 ^ 28 ∧ regAddr .DYS_CMD_TAIL k % 4 = 0 ∧
    regAt (regAddr .DYS_CMD_TAIL k) = some (.DYS_CMD_TAIL, k.val, false) ∧ (k.val < 4 → bootServes (regAddr .DYS_CMD_TAIL k) = true) := by
  decide +kernel

/-- A doorbell of PF0, or of the VF whose pair it is, moves TAIL (R424). -/
theorem dysCmdTailWrite_moves (s : State) (q : Requester) (k : Fin 35) (tail : BitVec 32) (hheld : mget s.held (requesterIx q) none = none)
    (hq : q = .pf0 ∧ (s.ready = true ∨ k.val < 4) ∨ ∃ f : Fin 32, 0 < f.val ∧ q = .vf f ∧ k.val = 3 + f ∧ s.ready = true) :
    Runs (.dysCmdTailWrite q k tail) s fun t =>
      t.rd (F.DYS_CMD_TAIL_TAIL k) = tail.toNat ∧ changes [F.DYS_CMD_TAIL_TAIL k] s t := by
  obtain ⟨haddr, halign, hat, hboot⟩ := cmdTail_place k
  have hwrites (hwrite : s.write q (regAddr .DYS_CMD_TAIL k) 4 tail.toNat = s.regWrite q .DYS_CMD_TAIL k tail.toNat) :
      Runs (.dysCmdTailWrite q k tail) s fun t =>
        t.rd (F.DYS_CMD_TAIL_TAIL k) = tail.toNat ∧ changes [F.DYS_CMD_TAIL_TAIL k] s t :=
    .of_exec (congrArg Host.Outcome.next (hwrite.trans (regWrite_cmdTail s q k tail.toNat)))
      (s.wr_low_changes (F.DYS_CMD_TAIL_TAIL k) rfl tail.isLt)
  rcases hq with ⟨rfl, hready⟩ | ⟨f, -, rfl, hk, hready⟩
  · have hreach : s.reach (regAddr .DYS_CMD_TAIL k) = some (.DYS_CMD_TAIL, k.val, false) := by
      unfold State.reach
      rw [if_pos, hat]
      rcases hready with h | h
      · rw [h]; rfl
      · rw [hboot h, Bool.or_true]
    exact hwrites (State.write_narrow (.inl rfl) haddr halign hreach (by decide +kernel) hheld _)
  · have hown : s.vfReaches f (regAddr .DYS_CMD_TAIL k) = true := by
      unfold State.vfReaches
      rw [hat]
      exact decide_eq_true hk
    exact hwrites (State.write_vf haddr halign hown ((State.reach_of_ready hready _).trans hat) (by decide +kernel) hheld _)

section Datagrams

variable {s : State} {e : Fin 2} {v6 : Bool} {src dst dport ver ty count seq : Nat}

/-- A datagram that is malformed, or reaches a port that is off, has no effect (R423). -/
theorem dysDatagramReceive_ignores (hbad : ver ≠ 1 ∨ ty ≠ 1 ∨ count = 0 ∨ 16 < count ∨ s.on (F.DYS_ETH_CFG_EN e) = false) :
    exec (.dysDatagramReceive e v6 src dst dport ver ty count seq) s = .next s := by
  refine congrArg Host.Outcome.next (if_pos ?_)
  rcases hbad with h | h | h | h | h <;> simp [h]

/-- A drop of a datagram is counted and signalled (R423). -/
theorem State.ethDrop_counts (s : State) (e : Nat) :
    (s.ethDrop e).rd (F.DYS_ETH_DROP_COUNT e) = min (s.rd (F.DYS_ETH_DROP_COUNT e) + 1) (2 ^ 32 - 1) ∧
    (s.ethDrop e).intBit .dys 0 1 = true ∧ signals [F.DYS_ETH_DROP_COUNT e, F.DYS_INT_STATUS_BITS] s (s.ethDrop e) :=
  ⟨(State.rd_raise_reg _ .dys 0 1 (by nofun)).trans (State.rd_satAdd_self ..), State.intBit_raise_self _ _ _ _ (by decide),
    ((signals.refl s).satAdd List.mem_cons_self 1).raise (b := .dys) (i := 0) (List.mem_cons_of_mem _ List.mem_cons_self) 1⟩

/-- A well-formed datagram for the port is dropped where its sender is not in the ACL, and taken otherwise (R423). -/
theorem dysDatagramReceive_eq (hcount : 0 < count) (hmax : count ≤ 16) (hseq : seq < 2 ^ 32) (hen : s.on (F.DYS_ETH_CFG_EN e) = true) :
    exec (.dysDatagramReceive e (s.on (F.DYS_ETH_CFG_IPV6 e)) src (addrOf (fun w => s.rd (F.DYS_ETH_ADDR_WORD (4 * e + w))))
      (s.rd (F.DYS_ETH_CFG_UDP_PORT e)) 1 1 count seq) s =
    .next (if s.on (F.DYS_ETH_CFG_ACL_EN e) && !s.aclHas e (s.on (F.DYS_ETH_CFG_IPV6 e)) src then s.ethDrop e else s.ethTake e count seq) := by
  have hgo : execDysDatagramReceive e (s.on (F.DYS_ETH_CFG_IPV6 e)) src (addrOf (fun w => s.rd (F.DYS_ETH_ADDR_WORD (4 * e + w))))
      (s.rd (F.DYS_ETH_CFG_UDP_PORT e)) 1 1 count seq s =
    .next (if s.on (F.DYS_ETH_CFG_ACL_EN e) && !s.aclHas e (s.on (F.DYS_ETH_CFG_IPV6 e)) src then s.ethDrop e
      else s.ethTake e count (seq % 2 ^ 32)) := by
    refine congrArg Host.Outcome.next (if_neg ?_)
    simp [hen, Nat.ne_of_gt hcount, Nat.not_lt.2 hmax]
  rw [Nat.mod_eq_of_lt hseq] at hgo
  exact hgo

/-- A datagram whose answer is cached is answered again. -/
theorem State.ethTake_cached {x : Nat × List Rsp} (hx : (s.ethX e).cache.find? (fun c => c.1 = seq) = some x) :
    s.ethTake e count seq = s.emit (.dysDatagram e seq x.2) := by
  unfold State.ethTake
  dsimp only
  rw [hx]

/-- A datagram without a cached answer is judged by its distance above the last one carried out. -/
theorem State.ethTake_judged {last : Nat} (hlast : (s.ethX e).lastSeq = some last)
    (hcache : (s.ethX e).cache.find? (fun c => c.1 = seq) = none) (hcur : (s.ethX e).cur = none) :
    s.ethTake e count seq = if (seq + 2 ^ 32 - last) % 2 ^ 32 = 0 || (seq + 2 ^ 32 - last) % 2 ^ 32 > 64 then s.ethDrop e
      else s.setEth e { s.ethX e with lastSeq := some last, waiting := mset (s.ethX e).waiting seq count 0 } := by
  unfold State.ethTake
  dsimp only
  rw [hcache, hlast, hcur]
  dsimp only
  rw [Option.any_none, Option.getD_some, if_neg Bool.false_ne_true]

end Datagrams

/-- Settles O25: doorbells move TAIL, and each datagram goes the way of its sender and its sequence number. -/
theorem dysumDoors : Obligations.DysumDoors := by
  intro s
  refine ⟨fun q k tail hheld hq => dysCmdTailWrite_moves s q k tail hheld hq,
    fun e v6 src dst dport ver ty count seq hbad => .of_exec (dysDatagramReceive_ignores hbad) rfl,
    fun e src count seq hcount hmax hseq hen => ⟨fun hacl hout => ?_, fun hin => ?_⟩⟩
  · refine .of_exec ((dysDatagramReceive_eq hcount hmax hseq hen).trans (congrArg Host.Outcome.next (if_pos ?_))) (s.ethDrop_counts e)
    rw [hacl, hout]
    rfl
  · have htake := (dysDatagramReceive_eq (src := src) hcount hmax hseq hen).trans (congrArg Host.Outcome.next (if_neg (by
      rcases hin with h | h
      · rw [h]; exact Bool.false_ne_true
      · rw [h, Bool.not_true, Bool.and_false]; exact Bool.false_ne_true)))
    refine ⟨fun x hx => .of_exec htake (State.ethTake_cached hx), fun last hlast hcache hcur => ?_⟩
    rw [State.ethTake_judged hlast hcache hcur] at htake
    refine ⟨fun hpos hnear => ?_, fun hfar => ?_⟩
    · rw [if_neg (by rw [decide_eq_false (Nat.ne_of_gt hpos), decide_eq_false (Nat.not_lt.2 hnear)]; decide)] at htake
      refine .of_exec htake ⟨?_, ?_, ?_, rfl⟩
      · unfold State.setEth State.ethX
        rw [mget_mset_self, mget_mset_self]
      · unfold State.setEth State.ethX
        rw [mget_mset_self]
      · unfold State.setEth State.ethX
        rw [mget_mset_self]
        exact hcur
    · rw [if_pos (by rw [decide_eq_true hfar, Bool.or_true])] at htake
      obtain ⟨hcount, -, hsignals⟩ := s.ethDrop_counts e
      exact .of_exec htake ⟨hcount, hsignals⟩

end Sys2Proof.Machine
end

section
/-! SUPPORT. Ring tails, windows of VFs and ring configurations (R413, R416, R419, R435). -/

set_option Elab.async false

namespace Sys2Proof.Machine

/-! ### Windows (R413) -/

section Window

variable {s : State} {f : Fin 32} {off : Fin 1048576} {w : Nat}

theorem window_ok (hf : 0 < f.val) (halign : off.val % 4 = 0) : ¬(f.val = 0 || !accessOk off.val 4) = true := by
  have hoff : off.val < 2 ^ 28 := Nat.lt_trans off.isLt (by decide)
  rw [accessOk_of_aligned hoff (by decide) halign, decide_eq_false (Nat.ne_of_gt hf)]
  decide

/-- A VF's access outside what it owns reads 0, or is counted (R413). -/
theorem vfWindowAccess_outside (hf : 0 < f.val) (halign : off.val % 4 = 0) (hout : s.windowAddr f off = none) :
    exec (.vfWindowAccess f off 4 none) s = .next { s with out := .readData (.vf f) off 4 0 :: s.out } ∧
    exec (.vfWindowAccess f off 4 (some w)) s = .next (s.vfDenied f) := by
  refine ⟨congrArg Host.Outcome.next ((if_neg (window_ok hf halign)).trans ?_), congrArg Host.Outcome.next ((if_neg (window_ok hf halign)).trans ?_)⟩
  · dsimp only
    rw [hout]
    rfl
  · dsimp only
    rw [hout]

/-- A VF's access within its window is the access of the register behind it (R413). -/
theorem vfWindowAccess_within {a : Nat} (hf : 0 < f.val) (halign : off.val % 4 = 0) (hin : s.windowAddr f off = some a) :
    exec (.vfWindowAccess f off 4 none) s =
      .next ((s.readAccess (.vf f) a 4).2.emit (.readData (.vf f) off 4 (s.readAccess (.vf f) a 4).1)) ∧
    exec (.vfWindowAccess f off 4 (some w)) s = .next (s.writeAccess (.vf f) a 4 w) := by
  refine ⟨congrArg Host.Outcome.next ((if_neg (window_ok hf halign)).trans ?_), congrArg Host.Outcome.next ((if_neg (window_ok hf halign)).trans ?_)⟩
  · dsimp only
    rw [hin]
  · dsimp only
    rw [hin]

end Window

/-! ### Tails (R416, R419) -/

theorem rxTail_place : ∀ r : Fin 64, regAddr .HARB_RX_TAIL r < 2 ^ 28 ∧ regAddr .HARB_RX_TAIL r % 4 = 0 ∧
    regAt (regAddr .HARB_RX_TAIL r) = some (.HARB_RX_TAIL, r.val, false) := by decide +kernel

theorem txTail_place : ∀ r : Fin 64, regAddr .HARB_TX_TAIL r < 2 ^ 28 ∧ regAddr .HARB_TX_TAIL r % 4 = 0 ∧
    regAt (regAddr .HARB_TX_TAIL r) = some (.HARB_TX_TAIL, r.val, false) := by decide +kernel

section Tail

variable {s : State} {q : Requester} {f : Fin 32} {r : Fin 64} {tail : Fin 65536}

theorem vfReaches_rxTail : s.vfReaches f (regAddr .HARB_RX_TAIL r) = decide (s.ringOwner false r = f) := by
  unfold State.vfReaches
  rw [(rxTail_place r).2.2]

theorem vfReaches_txTail : s.vfReaches f (regAddr .HARB_TX_TAIL r) = decide (s.ringOwner true r = f) := by
  unfold State.vfReaches
  rw [(txTail_place r).2.2]

/-- PF0 and the ring's owner move TAIL of an RX ring. -/
theorem rxTailWrite_moves (hready : s.ready = true) (hheld : mget s.held (requesterIx q) none = none)
    (hq : q = .pf0 ∨ q = .vf f ∧ s.ringOwner false r = f) :
    Runs (.rxTailWrite q r tail) s fun t => t.rd (F.HARB_RX_TAIL_TAIL r) = tail ∧ changes [F.HARB_RX_TAIL_TAIL r] s t := by
  obtain ⟨haddr, halign, hat⟩ := rxTail_place r
  have hreach := (State.reach_of_ready hready _).trans hat
  have hwrite : s.write q (regAddr .HARB_RX_TAIL r) 4 tail = s.regWrite q .HARB_RX_TAIL r tail := by
    rcases hq with rfl | ⟨rfl, hown⟩
    · exact State.write_narrow (.inl rfl) haddr halign hreach (by decide +kernel) hheld _
    · exact State.write_vf haddr halign (vfReaches_rxTail.trans (decide_eq_true hown)) hreach (by decide +kernel) hheld _
  exact .of_exec (congrArg Host.Outcome.next (hwrite.trans (regWrite_rxTail s q r tail)))
    (s.wr_low_changes (F.HARB_RX_TAIL_TAIL r) rfl tail.isLt)

/-- PF0 and the ring's owner move TAIL of a TX ring. -/
theorem txTailWrite_moves (hready : s.ready = true) (hheld : mget s.held (requesterIx q) none = none)
    (hq : q = .pf0 ∨ q = .vf f ∧ s.ringOwner true r = f) :
    Runs (.txTailWrite q r tail) s fun t => t.rd (F.HARB_TX_TAIL_TAIL r) = tail ∧ changes [F.HARB_TX_TAIL_TAIL r] s t := by
  obtain ⟨haddr, halign, hat⟩ := txTail_place r
  have hreach := (State.reach_of_ready hready _).trans hat
  have hwrite : s.write q (regAddr .HARB_TX_TAIL r) 4 tail = s.regWrite q .HARB_TX_TAIL r tail := by
    rcases hq with rfl | ⟨rfl, hown⟩
    · exact State.write_narrow (.inl rfl) haddr halign hreach (by decide +kernel) hheld _
    · exact State.write_vf haddr halign (vfReaches_txTail.trans (decide_eq_true hown)) hreach (by decide +kernel) hheld _
  exact .of_exec (congrArg Host.Outcome.next (hwrite.trans (regWrite_txTail s q r tail)))
    (s.wr_low_changes (F.HARB_TX_TAIL_TAIL r) rfl tail.isLt)

/-- A VF's tail write to a ring of another function is counted. -/
theorem rxTailWrite_denied (hown : s.ringOwner false r ≠ f) : exec (.rxTailWrite (.vf f) r tail) s = .next (s.vfDenied f) :=
  have ⟨haddr, halign, _⟩ := rxTail_place r
  congrArg Host.Outcome.next (State.write_vf_denied haddr halign (vfReaches_rxTail.trans (decide_eq_false hown)) _)

end Tail

/-! ### Ring configurations (R416, R419, R435) -/

theorem rxCfg_place : ∀ r : Fin 64, regAddr .HARB_RX_CFG r < 2 ^ 28 ∧ regAddr .HARB_RX_CFG r % 4 = 0 ∧
    regAt (regAddr .HARB_RX_CFG r) = some (.HARB_RX_CFG, r.val, false) := by decide +kernel

theorem txCfg_place : ∀ r : Fin 64, regAddr .HARB_TX_CFG r < 2 ^ 28 ∧ regAddr .HARB_TX_CFG r % 4 = 0 ∧
    regAt (regAddr .HARB_TX_CFG r) = some (.HARB_TX_CFG, r.val, false) := by decide +kernel

section Config

variable {s : State} {q : Requester} {r : Fin 64} {v : BitVec 32}

/-- A ring configuration is written as the whole register (R435). -/
theorem harbRingCfgWrite_writes (hready : s.ready = true) (hq : q = .pf0 ∨ q = .regInit) (hheld : mget s.held (requesterIx q) none = none)
    (tx : Bool) : exec (.harbRingCfgWrite q tx r v) s = .next (s.ringCfg q tx r v.toNat) := by
  have hfree : freeRequester q := hq.imp_right .inr
  cases tx with
  | false =>
    obtain ⟨haddr, halign, hat⟩ := rxCfg_place r
    refine congrArg Host.Outcome.next
      ((State.write_narrow hfree haddr halign ((State.reach_of_ready hready _).trans hat) (by decide +kernel) hheld v.toNat).trans ?_)
    unfold State.regWrite
    rw [show statusOf .HARB_RX_CFG = none by decide +kernel, show maskOf .HARB_RX_CFG = none by decide +kernel]
    rfl
  | true =>
    obtain ⟨haddr, halign, hat⟩ := txCfg_place r
    refine congrArg Host.Outcome.next
      ((State.write_narrow hfree haddr halign ((State.reach_of_ready hready _).trans hat) (by decide +kernel) hheld v.toNat).trans ?_)
    unfold State.regWrite
    rw [show statusOf .HARB_TX_CFG = none by decide +kernel, show maskOf .HARB_TX_CFG = none by decide +kernel]
    rfl

/-! #### A TX ring -/

/-- EN of a TX ring takes the value, and nothing else changes. -/
theorem State.ringEnable_tx (s : State) (r : Nat) (b : Bool) :
    (s.ringEnable true r b).on (F.HARB_TX_CFG_EN r) = b ∧ changes [F.HARB_TX_CFG_EN r] s (s.ringEnable true r b) := by
  unfold State.ringEnable
  split
  next hsame => exact ⟨hsame, changes.refl s⟩
  next => exact ⟨State.on_wrB_self s b (show 0 < 1 by decide), (changes.refl s).wrB List.mem_cons_self b⟩

/-- SIZE, OWNER and VECTOR of a TX ring take the bits of `v`. -/
def State.txRingSet (s : State) (r v : Nat) : State :=
  ((s.wr (F.HARB_TX_CFG_SIZE r) (bits v 1 4)).wr (F.HARB_TX_CFG_OWNER r) (bits v 5 5)).wr (F.HARB_TX_CFG_VECTOR r) (bits v 16 5)

/-- A TX ring that is disabled takes its whole configuration. -/
theorem State.ringCfg_txOff (hq : q = .pf0 ∨ q = .regInit) {r v : Nat} (hoff : s.on (F.HARB_TX_CFG_EN r) = false) :
    s.ringCfg q true r v = (s.txRingSet r v).ringEnable true r (bit v 0) := by
  have hen : ¬s.on (ringEnF true r) = true := by
    rw [show s.on (ringEnF true r) = false from hoff]
    exact Bool.false_ne_true
  unfold State.ringCfg
  rcases hq with rfl | rfl
  all_goals
    dsimp only
    rw [if_neg hen]
    rfl

theorem State.txRingSet_reads (s : State) (r v : Nat) :
    (s.txRingSet r v).rd (F.HARB_TX_CFG_SIZE r) = v / 2 % 2 ^ 4 ∧ (s.txRingSet r v).rd (F.HARB_TX_CFG_OWNER r) = v / 2 ^ 5 % 2 ^ 5 ∧
    (s.txRingSet r v).rd (F.HARB_TX_CFG_VECTOR r) = v / 2 ^ 16 % 2 ^ 5 ∧
    changes [F.HARB_TX_CFG_EN r, F.HARB_TX_CFG_SIZE r, F.HARB_TX_CFG_OWNER r, F.HARB_TX_CFG_VECTOR r] s (s.txRingSet r v) := by
  unfold State.txRingSet
  refine ⟨?_, ?_, ?_, ?_⟩
  · rw [State.rd_wr_of_lo_ne _ _ (by nofun), State.rd_wr_of_lo_ne _ _ (by nofun), State.rd_wr_self]
    exact Nat.mod_mod ..
  · rw [State.rd_wr_of_lo_ne _ _ (by nofun), State.rd_wr_self]
    exact Nat.mod_mod ..
  · rw [State.rd_wr_self]
    exact Nat.mod_mod ..
  · exact (((changes.refl s).wr (List.mem_cons_of_mem _ List.mem_cons_self) _).wr
      (List.mem_cons_of_mem _ (List.mem_cons_of_mem _ List.mem_cons_self)) _).wr
      (List.mem_cons_of_mem _ (List.mem_cons_of_mem _ (List.mem_cons_of_mem _ List.mem_cons_self))) _

/-- HARB_RING_CFG_WRITE of a TX ring that is disabled. -/
theorem State.ringCfg_txOff_takes (hq : q = .pf0 ∨ q = .regInit) {r v : Nat} (hoff : s.on (F.HARB_TX_CFG_EN r) = false) {t : State}
    (ht : t = s.ringCfg q true r v) :
    t.on (F.HARB_TX_CFG_EN r) = bit v 0 ∧ t.rd (F.HARB_TX_CFG_SIZE r) = v / 2 % 2 ^ 4 ∧ t.rd (F.HARB_TX_CFG_OWNER r) = v / 2 ^ 5 % 2 ^ 5 ∧
    t.rd (F.HARB_TX_CFG_VECTOR r) = v / 2 ^ 16 % 2 ^ 5 ∧
    changes [F.HARB_TX_CFG_EN r, F.HARB_TX_CFG_SIZE r, F.HARB_TX_CFG_OWNER r, F.HARB_TX_CFG_VECTOR r] s t := by
  subst ht
  rw [State.ringCfg_txOff hq hoff]
  obtain ⟨hsize, howner, hvector, hset⟩ := s.txRingSet_reads r v
  obtain ⟨hen, hchanges⟩ := (s.txRingSet r v).ringEnable_tx r (bit v 0)
  have hkeeps {f : Fld} (hf : f.key ≠ (F.HARB_TX_CFG_EN r).key) := hchanges.1 f fun g hg => List.mem_singleton.1 hg ▸ hf
  refine ⟨hen, (hkeeps ?_).trans hsize, (hkeeps ?_).trans howner, (hkeeps ?_).trans hvector,
    hset.trans (hchanges.mono fun _ hg => List.mem_singleton.1 hg ▸ List.mem_cons_self)⟩
  all_goals simp [Fld.key_eq, F.HARB_TX_CFG_EN, F.HARB_TX_CFG_SIZE, F.HARB_TX_CFG_OWNER, F.HARB_TX_CFG_VECTOR]

/-- A write that would change OWNER of a TX ring that is enabled is recorded; VECTOR takes its bits (R435). -/
theorem State.ringCfg_txLocked (hq : q = .pf0 ∨ q = .regInit) {r v : Nat} (hon : s.on (F.HARB_TX_CFG_EN r) = true) (hstays : bit v 0 = true)
    (howner : s.ringOwner true r ≠ v / 2 ^ 5 % 2 ^ 5) :
    s.ringCfg q true r v = (s.locked q .HARB_TX_CFG r 1).wr (F.HARB_TX_CFG_VECTOR r) (bits v 16 5) := by
  have hrecorded : ∀ b c d : Bool, ((b || Decidable.decide (s.ringOwner true r ≠ bits v 5 5)) || (c && d)) = true := fun b c d => by
    rw [decide_eq_true (show s.ringOwner true r ≠ bits v 5 5 from howner), Bool.or_true, Bool.true_or]
  have hlocked : ((s.locked q .HARB_TX_CFG r 1).wr (F.HARB_TX_CFG_VECTOR r) (bits v 16 5)).on (ringEnF true r) = true := by
    refine Eq.trans ?_ hon
    exact State.on_congr ((State.rd_wr_of_lo_ne (f := F.HARB_TX_CFG_VECTOR r) _ _ (show (0 : Nat) ≠ 16 by decide)).trans (State.locked_reads (f := F.HARB_TX_CFG_EN r) (show RegName.HARB_TX_CFG ∉ discardFields.map Fld.reg by decide)))
  unfold State.ringCfg
  rcases hq with rfl | rfl
  all_goals
    dsimp only
    rw [if_pos (show s.on (ringEnF true r) = true from hon), if_pos (hrecorded _ _ _), hstays]
    exact if_pos hlocked

theorem State.ringCfg_txLocked_reads (s : State) (q : Requester) (r v : Nat) {t : State}
    (ht : t = (s.locked q .HARB_TX_CFG r 1).wr (F.HARB_TX_CFG_VECTOR r) (bits v 16 5)) :
    t.ringOwner true r = s.ringOwner true r ∧ t.rd (F.HARB_TX_CFG_SIZE r) = s.rd (F.HARB_TX_CFG_SIZE r) ∧
    t.rd (F.HARB_TX_CFG_VECTOR r) = v / 2 ^ 16 % 2 ^ 5 ∧ t.intBit .chip 0 0 = true ∧
    t.rd F.CHIP_WDISCARD_CNT_COUNT = min (s.rd F.CHIP_WDISCARD_CNT_COUNT + 1) (2 ^ 32 - 1) ∧
    signals (F.HARB_TX_CFG_VECTOR r :: discardFields) s t := by
  subst ht
  obtain ⟨hsignals, hcount, hbit, -⟩ := s.discard_discarded q (regAddr .HARB_TX_CFG r) 1 0
  refine ⟨?_, ?_, ?_, ?_, ?_, ?_⟩
  · exact (State.rd_wr_of_lo_ne _ _ (show (5 : Nat) ≠ 16 by decide)).trans (State.locked_reads (show RegName.HARB_TX_CFG ∉ discardFields.map Fld.reg by decide))
  · exact (State.rd_wr_of_lo_ne _ _ (show (1 : Nat) ≠ 16 by decide)).trans (State.locked_reads (show RegName.HARB_TX_CFG ∉ discardFields.map Fld.reg by decide))
  · rw [State.rd_wr_self]
    exact Nat.mod_mod ..
  · rw [← hbit]
    exact congrArg (bit · 0) (State.rd_wr_of_reg_ne _ _ (by nofun))
  · exact (State.rd_wr_of_reg_ne _ _ (by nofun)).trans hcount
  · exact (hsignals.mono fun _ hg => List.mem_cons_of_mem _ hg).wr List.mem_cons_self _

/-! #### An RX ring -/

/-- The fields of an RX ring's configuration but EN, and SAMPLE of the counters. -/
def rxRingFields (r : Nat) : List Fld :=
  [F.HARB_RX_CFG_SIZE r, F.HARB_RX_CFG_OWNER r, F.HARB_RX_CFG_BUF r, F.HARB_RX_CFG_VECTOR r, F.HARB_RX_CFG_COUNT r, F.HARB_RX_CFG_ITR r] ++
    (List.range 1088).map F.CNT_CTL_SAMPLE

theorem State.sampleClear_changes (s : State) (r o : Nat) : changes ((List.range 1088).map F.CNT_CTL_SAMPLE) s (s.sampleClear r o) := by
  refine List.foldlRecOn (motive := changes _ s) _ _ (changes.refl s) fun u hu n hn => ?_
  split
  · exact hu.wrB (List.mem_map_of_mem hn) false
  · exact hu

theorem rxRingFields_reg (r : Nat) : ∀ g ∈ rxRingFields r, g.reg ∈ [RegName.HARB_RX_CFG, .CNT_CTL] := by
  intro g hg
  rcases List.mem_append.1 hg with hg | hg
  · fin_cases hg <;> exact List.mem_cons_self
  · obtain ⟨n, -, rfl⟩ := List.mem_map.1 hg
    exact List.mem_cons_of_mem _ List.mem_cons_self

/-- SIZE, OWNER and BUF of an RX ring take the bits of `v`; where the owner changes, counters that sample the ring stop (R332). -/
def State.rxRingOwn (s : State) (r v : Nat) : State :=
  let t := ((s.wr (F.HARB_RX_CFG_SIZE r) (bits v 1 4)).wr (F.HARB_RX_CFG_OWNER r) (bits v 5 5)).wr (F.HARB_RX_CFG_BUF r) (bits v 10 6)
  if s.ringOwner false r = bits v 5 5 then t else t.sampleClear r (bits v 5 5)

/-- VECTOR, COUNT and ITR of an RX ring take the bits of `v`. -/
def State.rxRingTell (s : State) (r v : Nat) : State :=
  ((s.wr (F.HARB_RX_CFG_VECTOR r) (bits v 16 5)).wr (F.HARB_RX_CFG_COUNT r) (bits v 21 5)).wr (F.HARB_RX_CFG_ITR r) (bits v 26 6)

/-- The ring counts its frames from 0. -/
def State.rxRingStart (s : State) (r : Nat) : State :=
  (s.wrB (F.HARB_RX_CFG_EN r) true).updHarb fun h =>
    { h with seq := mset h.seq r 0 0, waiting := mset h.waiting r 0 0, since := merase h.since r }

/-- A field of the ring's configuration reads after its owner's counters stop as it did before. -/
theorem State.rd_sampleClear {s : State} {r o : Nat} {f : Fld} (hf : f.reg ≠ .CNT_CTL) : (s.sampleClear r o).rd f = s.rd f := by
  refine (s.sampleClear_changes r o).1 f fun g hg e => hf ?_
  obtain ⟨n, -, rfl⟩ := List.mem_map.1 hg
  exact (Fld.key_eq.1 e).1

theorem State.rxRingOwn_reads (s : State) (r v : Nat) :
    (s.rxRingOwn r v).rd (F.HARB_RX_CFG_SIZE r) = v / 2 % 2 ^ 4 ∧ (s.rxRingOwn r v).rd (F.HARB_RX_CFG_OWNER r) = v / 2 ^ 5 % 2 ^ 5 ∧
    (s.rxRingOwn r v).rd (F.HARB_RX_CFG_BUF r) = v / 2 ^ 10 % 2 ^ 6 ∧
    (s.rxRingOwn r v).rd (F.HARB_RX_CFG_EN r) = s.rd (F.HARB_RX_CFG_EN r) ∧ changes (rxRingFields r) s (s.rxRingOwn r v) := by
  have hreads {f : Fld} (hf : f.reg ≠ .CNT_CTL) : (s.rxRingOwn r v).rd f =
      (((s.wr (F.HARB_RX_CFG_SIZE r) (bits v 1 4)).wr (F.HARB_RX_CFG_OWNER r) (bits v 5 5)).wr (F.HARB_RX_CFG_BUF r) (bits v 10 6)).rd f := by
    unfold State.rxRingOwn
    dsimp only
    split
    · rfl
    · exact State.rd_sampleClear hf
  refine ⟨?_, ?_, ?_, ?_, ?_⟩
  · rw [hreads (by nofun), State.rd_wr_of_lo_ne _ _ (by nofun), State.rd_wr_of_lo_ne _ _ (by nofun), State.rd_wr_self]
    exact Nat.mod_mod ..
  · rw [hreads (by nofun), State.rd_wr_of_lo_ne _ _ (by nofun), State.rd_wr_self]
    exact Nat.mod_mod ..
  · rw [hreads (by nofun), State.rd_wr_self]
    exact Nat.mod_mod ..
  · rw [hreads (by nofun), State.rd_wr_of_lo_ne _ _ (by nofun), State.rd_wr_of_lo_ne _ _ (by nofun), State.rd_wr_of_lo_ne _ _ (by nofun)]
  · have hset : changes (rxRingFields r) s (((s.wr (F.HARB_RX_CFG_SIZE r) (bits v 1 4)).wr (F.HARB_RX_CFG_OWNER r) (bits v 5 5)).wr
        (F.HARB_RX_CFG_BUF r) (bits v 10 6)) :=
      (((changes.refl s).wr (by simp [rxRingFields]) _).wr (by simp [rxRingFields]) _).wr (by simp [rxRingFields]) _
    unfold State.rxRingOwn
    dsimp only
    split
    · exact hset
    · exact hset.trans ((State.sampleClear_changes ..).mono fun _ hg => List.mem_append_right _ hg)

theorem State.rxRingTell_reads (s : State) (r v : Nat) :
    (s.rxRingTell r v).rd (F.HARB_RX_CFG_VECTOR r) = v / 2 ^ 16 % 2 ^ 5 ∧ (s.rxRingTell r v).rd (F.HARB_RX_CFG_COUNT r) = v / 2 ^ 21 % 2 ^ 5 ∧
    (s.rxRingTell r v).rd (F.HARB_RX_CFG_ITR r) = v / 2 ^ 26 % 2 ^ 6 ∧
    (∀ f : Fld, f.lo < 16 → (s.rxRingTell r v).rd f = s.rd f) ∧ changes (rxRingFields r) s (s.rxRingTell r v) := by
  unfold State.rxRingTell
  refine ⟨?_, ?_, ?_, fun f hlo => ?_, ?_⟩
  · rw [State.rd_wr_of_lo_ne _ _ (by nofun), State.rd_wr_of_lo_ne _ _ (by nofun), State.rd_wr_self]
    exact Nat.mod_mod ..
  · rw [State.rd_wr_of_lo_ne _ _ (by nofun), State.rd_wr_self]
    exact Nat.mod_mod ..
  · rw [State.rd_wr_self]
    exact Nat.mod_mod ..
  · have hne {n : Nat} (hn : 16 ≤ n) : f.lo ≠ n := by omega
    rw [State.rd_wr_of_lo_ne _ _ (hne (show 16 ≤ 26 by decide)), State.rd_wr_of_lo_ne _ _ (hne (show 16 ≤ 21 by decide)),
      State.rd_wr_of_lo_ne _ _ (hne (show 16 ≤ 16 by decide))]
  · exact (((changes.refl s).wr (by simp [rxRingFields]) _).wr (by simp [rxRingFields]) _).wr (by simp [rxRingFields]) _

theorem State.rxRingStart_reads (s : State) (r : Nat) :
    (s.rxRingStart r).on (F.HARB_RX_CFG_EN r) = true ∧ mget (s.rxRingStart r).harb.seq r 0 = 0 ∧
    mget (s.rxRingStart r).harb.waiting r 0 = 0 ∧ (∀ f : Fld, f.lo ≠ 0 → (s.rxRingStart r).rd f = s.rd f) ∧
    readsOff [.HARB_RX_CFG, .CNT_CTL] s (s.rxRingStart r) ∧ { s.rxRingStart r with regs := s.regs, harb := s.harb } = s := by
  refine ⟨State.on_wrB_self s (f := F.HARB_RX_CFG_EN r) true (show 0 < 1 by decide), mget_mset_self s.harb.seq r 0 0,
    mget_mset_self s.harb.waiting r 0 0, fun f hf => State.rd_wrB_of_lo_ne s (f := F.HARB_RX_CFG_EN r) true hf, ?_, rfl⟩
  exact ((readsOff.refl s).wr (f := F.HARB_RX_CFG_EN r) (show RegName.HARB_RX_CFG ∈ _ by decide) 1).congr rfl

/-- An RX ring that is disabled takes its whole configuration, and where EN is set counts its frames from 0. -/
theorem State.ringCfg_rxStarts (hq : q = .pf0 ∨ q = .regInit) {r v : Nat} (hoff : s.on (F.HARB_RX_CFG_EN r) = false) (hen : bit v 0 = true) :
    s.ringCfg q false r v = ((s.rxRingOwn r v).rxRingTell r v).rxRingStart r := by
  have hoff' : ¬s.on (ringEnF false r) = true := by
    rw [show s.on (ringEnF false r) = false from hoff]
    exact Bool.false_ne_true
  have hstill : ¬((s.rxRingOwn r v).rxRingTell r v).on (ringEnF false r) = true := by
    obtain ⟨-, -, -, hown, -⟩ := s.rxRingOwn_reads r v
    obtain ⟨-, -, -, htell, -⟩ := (s.rxRingOwn r v).rxRingTell_reads r v
    have hread := (htell (F.HARB_RX_CFG_EN r) (show 0 < 16 by decide)).trans hown
    rw [show ((s.rxRingOwn r v).rxRingTell r v).on (ringEnF false r) = s.on (F.HARB_RX_CFG_EN r) from State.on_congr hread, hoff]
    exact Bool.false_ne_true
  have hcfg : s.ringCfg q false r v = ((s.rxRingOwn r v).rxRingTell r v).ringEnable false r (bit v 0) := by
    unfold State.ringCfg State.rxRingOwn
    rcases hq with rfl | rfl
    all_goals
      dsimp only
      rw [if_neg hoff', Bool.false_or]
      simp only [decide_eq_true_eq]
      rfl
  rw [hcfg, hen]
  exact if_neg hstill

/-- HARB_RING_CFG_WRITE of an RX ring that is disabled. -/
theorem State.ringCfg_rxStarts_takes (hq : q = .pf0 ∨ q = .regInit) {r v : Nat} (hoff : s.on (F.HARB_RX_CFG_EN r) = false)
    (hen : bit v 0 = true) {t : State} (ht : t = s.ringCfg q false r v) :
    t.on (F.HARB_RX_CFG_EN r) = true ∧ t.rd (F.HARB_RX_CFG_SIZE r) = v / 2 % 2 ^ 4 ∧ t.rd (F.HARB_RX_CFG_OWNER r) = v / 2 ^ 5 % 2 ^ 5 ∧
    t.rd (F.HARB_RX_CFG_BUF r) = v / 2 ^ 10 % 2 ^ 6 ∧ t.rd (F.HARB_RX_CFG_VECTOR r) = v / 2 ^ 16 % 2 ^ 5 ∧
    t.rd (F.HARB_RX_CFG_COUNT r) = v / 2 ^ 21 % 2 ^ 5 ∧ t.rd (F.HARB_RX_CFG_ITR r) = v / 2 ^ 26 % 2 ^ 6 ∧
    mget t.harb.seq r 0 = 0 ∧ mget t.harb.waiting r 0 = 0 ∧
    readsOff [.HARB_RX_CFG, .CNT_CTL] s t ∧ { t with regs := s.regs, harb := s.harb } = s := by
  rw [State.ringCfg_rxStarts hq hoff hen] at ht
  obtain ⟨hsize, howner, hbuf, -, hown⟩ := s.rxRingOwn_reads r v
  obtain ⟨hvector, hcount, hitr, htell, htells⟩ := (s.rxRingOwn r v).rxRingTell_reads r v
  obtain ⟨hon, hseq, hwaiting, hreads, hoffs, -⟩ := ((s.rxRingOwn r v).rxRingTell r v).rxRingStart_reads r
  have hset := hown.trans htells
  subst ht
  refine ⟨hon, (hreads _ (by nofun)).trans ((htell _ (show 1 < 16 by decide)).trans hsize),
    (hreads _ (by nofun)).trans ((htell _ (show 5 < 16 by decide)).trans howner),
    (hreads _ (by nofun)).trans ((htell _ (show 10 < 16 by decide)).trans hbuf), (hreads _ (by nofun)).trans hvector,
    (hreads _ (by nofun)).trans hcount, (hreads _ (by nofun)).trans hitr, hseq, hwaiting, (hset.1.off (rxRingFields_reg r)).trans hoffs, ?_⟩
  exact congrArg (fun x : State => { x with harb := s.harb }) hset.2

end Config

/-- Settles O21: windows, tails and configurations, each for the requesters that reach them. -/
theorem ringRegisters : Obligations.RingRegisters := by
  refine ⟨fun s f off w hf halign => ⟨fun hout => ?_, fun a hin => ?_, fun q r tail hready hheld => ?_⟩,
    fun s q r v hready hq hheld => ⟨fun hoff hen => ?_, fun hoff => ?_, fun hon hstays howner => ?_⟩⟩
  · obtain ⟨hread, hwrite⟩ := vfWindowAccess_outside (w := w) hf halign hout
    exact ⟨.of_exec hread rfl, .of_exec hwrite (s.vfDenied_counts f)⟩
  · obtain ⟨hread, hwrite⟩ := vfWindowAccess_within (w := w) hf halign hin
    exact ⟨.of_exec hread rfl, .of_exec hwrite rfl⟩
  · refine ⟨rxTailWrite_moves hready hheld, txTailWrite_moves hready hheld, fun hown => .of_exec (rxTailWrite_denied hown) ?_⟩
    obtain ⟨hcount, -, hsignals⟩ := s.vfDenied_counts f
    exact ⟨hcount, hsignals⟩
  · exact .of_exec (harbRingCfgWrite_writes hready hq hheld false) (State.ringCfg_rxStarts_takes hq hoff hen rfl)
  · exact .of_exec (harbRingCfgWrite_writes hready hq hheld true) (State.ringCfg_txOff_takes hq hoff rfl)
  · exact .of_exec (harbRingCfgWrite_writes hready hq hheld true)
      (State.ringCfg_txLocked_reads s q r v.toNat (State.ringCfg_txLocked hq hon hstays howner))

end Sys2Proof.Machine
end

section
/-! SUPPORT. A function level reset (R419, R470): registers that hold their reset values again, and the ones that a reset leaves. -/

set_option Elab.async false

namespace Sys2Proof.Machine

/-! ### Registers at their reset values -/

/-- A part of a map that is chosen by the keys holds the entries of those keys. -/
theorem mfind_filter {α : Type} (p : Nat → Bool) (m : PMap α) (k : Nat) :
    mfind (m.filter fun e => p e.1) k = if p k then mfind m k else none := by
  induction m with
  | nil => simp [mfind]
  | cons e m ih =>
    obtain ⟨j, v⟩ := e
    rw [List.filter_cons]
    by_cases hj : k = j
    · subst hj
      cases hp : p k
      · rw [if_neg Bool.false_ne_true, if_neg Bool.false_ne_true, ih, hp, if_neg Bool.false_ne_true]
      · rw [if_pos rfl, if_pos rfl, mfind, mfind, if_pos rfl, if_pos rfl]
    · cases hp : p j
      · rw [if_neg Bool.false_ne_true, ih, mfind, if_neg hj]
      · rw [if_pos rfl, mfind, ih, mfind, if_neg hj, if_neg hj]

section Reset

variable {s : State} {r : RegName} {k : Nat} {f : Fld}

theorem State.rd_regReset (s : State) (r : RegName) (k : Nat) (f : Fld) :
    (s.regReset r k).rd f = if f.reg = r ∧ f.ix = k then f.dflt % 2 ^ f.width else s.rd f := by
  have hfind := mfind_filter (fun j => !(Decidable.decide ((Nat.unpair j).1 = r.ctorIdx) && Decidable.decide ((Nat.unpair (Nat.unpair j).2).1 = k))) s.regs f.key
  have hkey : (!(Decidable.decide ((Nat.unpair f.key).1 = r.ctorIdx) && Decidable.decide ((Nat.unpair (Nat.unpair f.key).2).1 = k))) =
      !Decidable.decide (f.reg = r ∧ f.ix = k) := by
    unfold Fld.key
    rw [Nat.unpair_pair, Nat.unpair_pair, Bool.decide_and]
    have hreg : (f.reg.ctorIdx = r.ctorIdx) = (f.reg = r) := propext ⟨regName_ctorIdx_inj, congrArg _⟩
    dsimp only
    simp only [hreg]
  rw [hkey] at hfind
  unfold State.rd mget State.regReset
  dsimp only
  rw [hfind]
  by_cases h : f.reg = r ∧ f.ix = k
  · rw [if_pos h, decide_eq_true h]
    rfl
  · rw [if_neg h, decide_eq_false h]
    rfl

theorem State.rd_regReset_self (hreg : f.reg = r) (hix : f.ix = k) : (s.regReset r k).rd f = f.dflt % 2 ^ f.width := by
  rw [State.rd_regReset, if_pos ⟨hreg, hix⟩]

theorem State.rd_regReset_ne (h : ¬(f.reg = r ∧ f.ix = k)) : (s.regReset r k).rd f = s.rd f := by
  rw [State.rd_regReset, if_neg h]

end Reset

/-! ### What is left -/

/-- A field of a register and index outside `P` reads in `t` as it does in `s`. -/
def readsOut (P : RegName → Nat → Prop) (s t : State) : Prop := ∀ f : Fld, ¬P f.reg f.ix → t.rd f = s.rd f

namespace readsOut

variable {P Q : RegName → Nat → Prop} {s0 s t u : State}

theorem refl (s : State) : readsOut P s s := fun _ _ => rfl

theorem trans (h : readsOut P s t) (k : readsOut P t u) : readsOut P s u := fun f hf => (k f hf).trans (h f hf)

theorem mono (h : readsOut P s t) (k : ∀ r i, P r i → Q r i) : readsOut Q s t := fun f hf => h f fun hp => hf (k _ _ hp)

theorem wr (h : readsOut P s0 s) {f : Fld} (hf : P f.reg f.ix) (v : Nat) : readsOut P s0 (s.wr f v) := by
  refine fun g hg => (State.rd_wr_ne s v fun e => hg ?_).trans (h g hg)
  obtain ⟨hreg, hix, -⟩ := Fld.key_eq.1 e
  rw [hreg, hix]
  exact hf

theorem congr (h : readsOut P s0 s) (e : t.regs = s.regs) : readsOut P s0 t := fun f hf => (State.rd_congr e f).trans (h f hf)

theorem regReset (h : readsOut P s0 s) {r : RegName} {k : Nat} (hp : P r k) : readsOut P s0 (s.regReset r k) :=
  fun f hf => (State.rd_regReset_ne fun e => hf (by rw [e.1, e.2]; exact hp)).trans (h f hf)

theorem regResets (h : readsOut P s0 s) {rs : List RegName} {k : Nat} (hp : ∀ r ∈ rs, P r k) :
    readsOut P s0 (rs.foldl (fun s n => s.regReset n k) s) := by
  induction rs generalizing s with
  | nil => exact h
  | cons r rs ih => exact ih (h.regReset (hp r List.mem_cons_self)) fun x hx => hp x (List.mem_cons_of_mem _ hx)

theorem of_changes {fs : List Fld} (h : changes fs s t) (hp : ∀ f ∈ fs, P f.reg f.ix) : readsOut P s t := by
  refine fun f hf => h.1 f fun g hg e => hf ?_
  obtain ⟨hreg, hix, -⟩ := Fld.key_eq.1 e
  rw [hreg, hix]
  exact hp g hg

theorem foldl {α : Type} {g : State → α → State} {l : List α} (h : readsOut P s t) (hg : ∀ v, ∀ x ∈ l, readsOut P v (g v x)) :
    readsOut P s (l.foldl g t) := by
  induction l generalizing t with
  | nil => exact h
  | cons x l ih => exact ih (h.trans (hg t x List.mem_cons_self)) fun v y hy => hg v y (List.mem_cons_of_mem _ hy)

end readsOut

/-- A chain of resets at index `k` puts each of its registers at its reset value. -/
theorem State.rd_regResets {s : State} {rs : List RegName} {k : Nat} {f : Fld} (hreg : f.reg ∈ rs) (hix : f.ix = k) :
    (rs.foldl (fun s n => s.regReset n k) s).rd f = f.dflt % 2 ^ f.width := by
  induction rs generalizing s with
  | nil => cases hreg
  | cons r rs ih =>
    rw [List.foldl_cons]
    by_cases hlater : f.reg ∈ rs
    · exact ih hlater
    · have hhere : f.reg = r := (List.mem_cons.1 hreg).resolve_right hlater
      have hkept : readsOut (fun n _ => n ∈ rs) (s.regReset r k) (rs.foldl (fun s n => s.regReset n k) (s.regReset r k)) :=
        (readsOut.refl _).regResets fun _ hn => hn
      exact (hkept f hlater).trans (State.rd_regReset_self hhere hix)

/-- A property that a step at `a` brings about and that every step keeps holds after a chain that passes `a`. -/
theorem foldl_establishes {α β : Type} {p : α → Prop} {g : α → β → α} {a : β} {l : List β} (hhere : ∀ x, p (g x a))
    (hkept : ∀ x b, p x → p (g x b)) (ha : a ∈ l) (x : α) : p (l.foldl g x) := by
  have hstays : ∀ (l : List β) x, p x → p (l.foldl g x) := fun l x hx => List.foldlRecOn l g hx fun y hy b _ => hkept y b hy
  induction l generalizing x with
  | nil => cases ha
  | cons b l ih =>
    rcases List.mem_cons.1 ha with rfl | hin
    · exact hstays l _ (hhere x)
    · exact ih hin _

/-! ### The parts of a function level reset (R419, R470) -/

/-- The registers of a TX ring. -/
def txRingRegs : List RegName := [.HARB_TX_BASE, .HARB_TX_CFG, .HARB_TX_TAIL, .HARB_TX_HEAD, .HARB_TX_DROP]

/-- The registers of an RX ring. -/
def rxRingRegs : List RegName := [.HARB_RX_BASE, .HARB_RX_CFG, .HARB_RX_TAIL, .HARB_RX_HEAD, .HARB_RX_DROP]

/-- The registers of a Dysum pair. -/
def dysPairRegs : List RegName := [.DYS_RING_CFG, .DYS_CMD_BASE, .DYS_RSP_BASE, .DYS_CMD_TAIL, .DYS_CMD_HEAD, .DYS_RSP_TAIL]

/-- The registers that the rest of a reset changes: buffers, counters, and the event. -/
def flrRestRegs : List RegName :=
  [.BPM_CLASS_USED, .BPM_POOL_RETIRED, .BPM_POOL_FREE, .BPM_FN_ARG, .BPM_FN_CMD, .BPM_FN_RESULT, .BPM_FN_HANDLE, .CNT_SEL, .CNT_CTL,
   .CNT_VALUE, .CNT_PRESET, .HARB_INT_STATUS]

section Parts

variable (s : State)

theorem State.ringClear_tx (r : Nat) : readsOut (fun n i => n ∈ txRingRegs ∧ i = r) s (s.ringClear true r) ∧
    ∀ f : Fld, f.reg ∈ txRingRegs → f.ix = r → (s.ringClear true r).rd f = f.dflt % 2 ^ f.width := by
  obtain ⟨-, hchanges⟩ := s.ringEnable_tx r false
  have hoff : readsOut (fun n i => n ∈ txRingRegs ∧ i = r) s (s.ringEnable true r false) :=
    .of_changes hchanges fun f hf => List.mem_singleton.1 hf ▸ ⟨show RegName.HARB_TX_CFG ∈ txRingRegs by decide, rfl⟩
  exact ⟨hoff.regResets fun n hn => ⟨hn, rfl⟩, fun f hreg hix => State.rd_regResets hreg hix⟩

/-- Where no frame waits in it, a disabled RX ring drops nothing. -/
theorem State.ringEnable_rxIdle {r : Nat} (hidle : s.queue (9216 + r) = []) :
    readsOut (fun n i => n ∈ rxRingRegs ∧ i = r) s (s.ringEnable false r false) ∧
      (s.ringEnable false r false).path = s.path := by
  have hcfg := (readsOut.refl (P := fun n i => n ∈ rxRingRegs ∧ i = r) s).wr (f := F.HARB_RX_CFG_EN r)
    ⟨show RegName.HARB_RX_CFG ∈ rxRingRegs by decide, rfl⟩ 0
  unfold State.ringEnable
  split
  next => exact ⟨.refl s, rfl⟩
  next =>
    have hlength : (State.queue ((s.wrB (ringEnF false r) false).updHarb fun h =>
        { h with seq := mset h.seq r 0 0, waiting := mset h.waiting r 0 0, since := merase h.since r }) (9216 + r)).length = 0 :=
      congrArg List.length hidle
    dsimp only
    rw [if_neg Bool.false_ne_true, if_neg Bool.false_ne_true, hlength]
    exact ⟨hcfg.congr rfl, rfl⟩

theorem changes.path {fs : List Fld} {s t : State} (h : changes fs s t) : t.path = s.path := (congrArg State.path h.2 :)

theorem State.ringClear_rx {r : Nat} (hidle : s.queue (9216 + r) = []) :
    readsOut (fun n i => (n ∈ rxRingRegs ∧ i = r) ∨ n = .CNT_CTL) s (s.ringClear false r) ∧ (s.ringClear false r).path = s.path ∧
    ∀ f : Fld, f.reg ∈ rxRingRegs → f.ix = r → (s.ringClear false r).rd f = f.dflt % 2 ^ f.width := by
  obtain ⟨hoff, hpath⟩ := s.ringEnable_rxIdle hidle
  generalize hu : s.ringEnable false r false = u at hoff hpath
  have hclear (v : State) (c : Prop) [Decidable c] : readsOut (fun n _ => n = .CNT_CTL) v (if c then v else v.sampleClear r 0) ∧
      (if c then v else v.sampleClear r 0).path = v.path := by
    split
    · exact ⟨.refl v, rfl⟩
    · refine ⟨.of_changes (v.sampleClear_changes r 0) fun f hf => ?_, (v.sampleClear_changes r 0).path⟩
      obtain ⟨n, -, rfl⟩ := List.mem_map.1 hf
      rfl
  have hresets : readsOut (fun n i => n ∈ rxRingRegs ∧ i = r) s (rxRingRegs.foldl (fun s n => s.regReset n r) u) :=
    hoff.regResets fun n hn => ⟨hn, rfl⟩
  obtain ⟨hrest, hlast⟩ := hclear (rxRingRegs.foldl (fun s n => s.regReset n r) u) (false || Decidable.decide (u.ringOwner false r = 0))
  have heq : s.ringClear false r = if (false || Decidable.decide (u.ringOwner false r = 0)) = true then rxRingRegs.foldl (fun s n => s.regReset n r) u
      else (rxRingRegs.foldl (fun s n => s.regReset n r) u).sampleClear r 0 := by
    unfold State.ringClear
    rw [hu]
    rfl
  rw [heq]
  have hpath' : (rxRingRegs.foldl (fun s n => s.regReset n r) u).path = s.path := hpath
  refine ⟨(hresets.mono fun _ _ => .inl).trans (hrest.mono fun _ _ => .inr), hlast.trans hpath', fun f hreg hix => (hrest f ?_).trans
    (State.rd_regResets hreg hix)⟩
  intro hcounter
  rw [hcounter] at hreg
  exact absurd hreg (by decide)

theorem State.dysClear_resets (k : Nat) : readsOut (fun n i => n ∈ dysPairRegs ∧ i = k) s (s.dysClear k) ∧
    ∀ f : Fld, f.reg ∈ dysPairRegs → f.ix = k → (s.dysClear k).rd f = f.dflt % 2 ^ f.width :=
  ⟨((readsOut.refl s).regResets fun _ hn => ⟨hn, rfl⟩).congr rfl, fun _ hreg hix => State.rd_regResets (s := s) hreg hix⟩

/-- A buffer that is freed touches the counts of its pool only. -/
theorem State.freeBuf_readsOut (h : Nat) : readsOut (fun n _ => n ∈ flrRestRegs) s (s.freeBuf h) := by
  have hent (v : State) (e : BufEnt) : readsOut (fun n _ => n ∈ flrRestRegs) v (v.setEnt h e) := (readsOut.refl v).congr rfl
  unfold State.freeBuf State.subFrom State.wrapAdd
  dsimp only
  split
  · exact ((hent s _).wr (show RegName.BPM_CLASS_USED ∈ flrRestRegs by decide) _).wr (show RegName.BPM_POOL_RETIRED ∈ flrRestRegs by decide) _
  · exact (((hent s _).wr (show RegName.BPM_CLASS_USED ∈ flrRestRegs by decide) _).wr
      (show RegName.BPM_POOL_FREE ∈ flrRestRegs by decide) _).congr rfl

theorem State.ownerRelease_readsOut (agent : Nat) : readsOut (fun n _ => n ∈ flrRestRegs) s (s.ownerRelease agent) := by
  refine (readsOut.refl s).foldl fun v e _ => ?_
  split
  · exact v.freeBuf_readsOut _
  · exact (readsOut.refl v).congr rfl

theorem State.windowClear_readsOut (f : Nat) : readsOut (fun n _ => n ∈ flrRestRegs) s (s.windowClear f) := by
  have hfunction : readsOut (fun n _ => n ∈ flrRestRegs) s
      ([RegName.BPM_FN_ARG, .BPM_FN_CMD, .BPM_FN_RESULT, .BPM_FN_HANDLE].foldl (fun s n => s.regReset n f) s) :=
    (readsOut.refl s).regResets (by decide)
  refine hfunction.foldl fun v n _ => ?_
  split
  · exact (readsOut.refl v).regResets (by decide)
  · exact .refl v

/-- What a reset does after the rings: Dysum pairs, buffers and counters. -/
def State.flrRest (s : State) (f : Nat) : State :=
  State.raise (if f = 0 then (List.range 4).foldl (fun s k => s.dysClear k) s
    else ((s.dysClear (3 + f)).ownerRelease (0x40 + f)).windowClear f) .harb 0 1

theorem State.raise_harb_readsOut (e : Nat) : readsOut (fun n _ => n ∈ flrRestRegs) s (s.raise .harb 0 e) :=
  ((readsOut.refl s).wr (f := F.HARB_INT_STATUS_BITS) (show RegName.HARB_INT_STATUS ∈ flrRestRegs by decide) _).congr (State.regs_raise ..)

theorem State.flrRest_readsOut (f : Nat) : readsOut (fun n _ => n ∈ dysPairRegs ∨ n ∈ flrRestRegs) s (s.flrRest f) := by
  have hpair (v : State) (k : Nat) : readsOut (fun n _ => n ∈ dysPairRegs ∨ n ∈ flrRestRegs) v (v.dysClear k) :=
    (v.dysClear_resets k).1.mono fun _ _ hn => .inl hn.1
  have hevent (v : State) : readsOut (fun n _ => n ∈ dysPairRegs ∨ n ∈ flrRestRegs) v (v.raise .harb 0 1) :=
    (v.raise_harb_readsOut 1).mono fun _ _ => .inr
  unfold State.flrRest
  split
  · exact ((readsOut.refl s).foldl fun v k _ => hpair v k).trans (hevent _)
  · exact (((hpair s _).trans (readsOut.mono (State.ownerRelease_readsOut _ _) fun _ _ => .inr)).trans
      (readsOut.mono (State.windowClear_readsOut _ _) fun _ _ => .inr)).trans (hevent _)

/-- The Dysum pair of a VF is at its reset values. -/
theorem State.flrRest_pair {f : Nat} (hf : f ≠ 0) {g : Fld} (hreg : g.reg ∈ dysPairRegs) (hix : g.ix = 3 + f) :
    (s.flrRest f).rd g = g.dflt % 2 ^ g.width := by
  have hout : g.reg ∉ flrRestRegs := fun h => absurd hreg ((show ∀ n ∈ flrRestRegs, n ∉ dysPairRegs by decide) _ h)
  unfold State.flrRest
  rw [if_neg hf, State.raise_harb_readsOut _ 1 g hout, State.windowClear_readsOut _ f g hout, State.ownerRelease_readsOut _ _ g hout]
  exact (s.dysClear_resets (3 + f)).2 g hreg hix

/-- The rings of `f` among `l` are cleared, one kind at a time. -/
def State.ringsClear (s : State) (tx : Bool) (l : List Nat) : State := l.foldl (fun s r => s.ringClear tx r) s

theorem State.flr_eq (f : Nat) : s.flr f =
    (((s.ringsClear false ((List.range 64).filter fun r => s.ringOwner false r = f)).ringsClear true
      ((List.range 64).filter fun r => s.ringOwner true r = f)).flrRest f) := rfl

theorem State.ringsClear_tx (l : List Nat) : readsOut (fun n _ => n ∈ txRingRegs) s (s.ringsClear true l) :=
  (readsOut.refl s).foldl fun v r _ => (v.ringClear_tx r).1.mono fun _ _ h => h.1

theorem State.ringsClear_tx_resets {l : List Nat} {f : Fld} (hreg : f.reg ∈ txRingRegs) (hix : f.ix ∈ l) :
    (s.ringsClear true l).rd f = f.dflt % 2 ^ f.width := by
  refine foldl_establishes (p := fun v : State => v.rd f = f.dflt % 2 ^ f.width) (fun v => (v.ringClear_tx f.ix).2 f hreg rfl)
    (fun v r hv => ?_) hix s
  by_cases hr : f.ix = r
  · exact (v.ringClear_tx r).2 f hreg hr
  · exact ((v.ringClear_tx r).1 f fun h => hr h.2).trans hv

/-- RX rings in which no frame waits are cleared, and the others stay. -/
theorem State.ringsClear_rx {l : List Nat} (hidle : ∀ r ∈ l, s.queue (9216 + r) = []) :
    readsOut (fun n i => (n ∈ rxRingRegs ∧ i ∈ l) ∨ n = .CNT_CTL) s (s.ringsClear false l) ∧
    ∀ f : Fld, f.reg ∈ rxRingRegs → f.ix ∈ l → (s.ringsClear false l).rd f = f.dflt % 2 ^ f.width := by
  induction l generalizing s with
  | nil => exact ⟨.refl s, fun _ _ h => absurd h List.not_mem_nil⟩
  | cons r l ih =>
    obtain ⟨hreads, hpath, hresets⟩ := s.ringClear_rx (hidle r List.mem_cons_self)
    obtain ⟨hothers, hlater⟩ := ih (s.ringClear false r) fun j hj =>
      (congrArg (fun p : Path => mget p.queues (9216 + j) []) hpath).trans (hidle j (List.mem_cons_of_mem _ hj))
    refine ⟨(hreads.mono fun n i hn => hn.imp_left fun hn => ⟨hn.1, hn.2 ▸ List.mem_cons_self⟩).trans
      (hothers.mono fun n i hn => hn.imp_left fun hn => ⟨hn.1, List.mem_cons_of_mem _ hn.2⟩), fun f hreg hix => ?_⟩
    by_cases hin : f.ix ∈ l
    · exact hlater f hreg hin
    · have hcounter : f.reg ≠ .CNT_CTL := fun h => absurd (h ▸ hreg) (by decide)
      refine (hothers f fun h => ?_).trans (hresets f hreg ((List.mem_cons.1 hix).resolve_right hin))
      rcases h with ⟨-, h⟩ | h
      · exact hin h
      · exact hcounter h

end Parts

/-- Settles O24: the rings and the Dysum pair of the function hold their reset values, and idle rings of others stay. -/
theorem functionReset : Obligations.FunctionReset := by
  intro s f
  refine .of_exec (t := s.flr f) rfl ?_
  rw [State.flr_eq]
  have hmine {tx : Bool} {r : Fin 64} (h : s.ringOwner tx r = f) :
      r.val ∈ (List.range 64).filter fun r => s.ringOwner tx r = f :=
    List.mem_filter.2 ⟨List.mem_range.2 r.isLt, decide_eq_true h⟩
  generalize hu : s.ringsClear false ((List.range 64).filter fun r => s.ringOwner false r = f) = u
  have hrest {g : Fld} (hg : g.reg ∉ dysPairRegs ∧ g.reg ∉ flrRestRegs) (v : State) : (v.flrRest f).rd g = v.rd g :=
    v.flrRest_readsOut f g (not_or.2 hg)
  have hafter {g : Fld} (hg : g.reg ∉ txRingRegs ∧ g.reg ∉ dysPairRegs ∧ g.reg ∉ flrRestRegs) :
      ((u.ringsClear true ((List.range 64).filter fun r => s.ringOwner true r = f)).flrRest f).rd g = u.rd g :=
    (hrest hg.2 _).trans (u.ringsClear_tx _ g hg.1)
  have hrxRegs : ∀ n ∈ rxRingRegs, n ∉ txRingRegs ∧ n ∉ dysPairRegs ∧ n ∉ flrRestRegs := by decide
  have htxRegs : ∀ n ∈ txRingRegs, n ∉ dysPairRegs ∧ n ∉ flrRestRegs := by decide
  have hrxIdle (hidle : ∀ r : Fin 64, s.ringOwner false r = f → s.queue (9216 + r) = []) :=
    s.ringsClear_rx (l := (List.range 64).filter fun r => s.ringOwner false r = f) fun r hr => by
      obtain ⟨hlt, howner⟩ := List.mem_filter.1 hr
      exact hidle ⟨r, List.mem_range.1 hlt⟩ (of_decide_eq_true howner)
  rw [hu] at hrxIdle
  refine ⟨fun r howner => ?_, fun hidle => ⟨fun r howner => ?_, fun r hother => ?_⟩, fun hf => ?_, ?_⟩
  · have hzero {g : Fld} (hreg : g.reg ∈ txRingRegs) (hix : g.ix = r.val) :
        ((u.ringsClear true ((List.range 64).filter fun r => s.ringOwner true r = f)).flrRest f).rd g = g.dflt % 2 ^ g.width :=
      (hrest (htxRegs _ hreg) _).trans (State.ringsClear_tx_resets u hreg (hix ▸ hmine howner))
    have hcfg : RegName.HARB_TX_CFG ∈ txRingRegs := by decide
    exact ⟨congrArg (· ≠ 0 : Nat → Bool) (hzero (g := F.HARB_TX_CFG_EN r) hcfg rfl),
      hzero (g := F.HARB_TX_TAIL_TAIL r) (show RegName.HARB_TX_TAIL ∈ txRingRegs by decide) rfl,
      hzero (g := F.HARB_TX_HEAD_HEAD r) (show RegName.HARB_TX_HEAD ∈ txRingRegs by decide) rfl,
      hzero (g := F.HARB_TX_CFG_OWNER r) hcfg rfl,
      hzero (g := F.HARB_TX_BASE_BASE r) (show RegName.HARB_TX_BASE ∈ txRingRegs by decide) rfl⟩
  · obtain ⟨-, hclear⟩ := hrxIdle hidle
    have hzero {g : Fld} (hreg : g.reg ∈ rxRingRegs) (hix : g.ix = r.val) :
        ((u.ringsClear true ((List.range 64).filter fun r => s.ringOwner true r = f)).flrRest f).rd g = g.dflt % 2 ^ g.width :=
      (hafter (hrxRegs _ hreg)).trans (hclear g hreg (hix ▸ hmine howner))
    have hcfg : RegName.HARB_RX_CFG ∈ rxRingRegs := by decide
    exact ⟨congrArg (· ≠ 0 : Nat → Bool) (hzero (g := F.HARB_RX_CFG_EN r) hcfg rfl),
      hzero (g := F.HARB_RX_TAIL_TAIL r) (show RegName.HARB_RX_TAIL ∈ rxRingRegs by decide) rfl,
      hzero (g := F.HARB_RX_HEAD_HEAD r) (show RegName.HARB_RX_HEAD ∈ rxRingRegs by decide) rfl,
      hzero (g := F.HARB_RX_CFG_OWNER r) hcfg rfl,
      hzero (g := F.HARB_RX_BASE_BASE r) (show RegName.HARB_RX_BASE ∈ rxRingRegs by decide) rfl⟩
  · obtain ⟨hreads, -⟩ := hrxIdle hidle
    have hkept {g : Fld} (hreg : g.reg ∈ rxRingRegs) (hix : g.ix = r.val) :
        ((u.ringsClear true ((List.range 64).filter fun r => s.ringOwner true r = f)).flrRest f).rd g = s.rd g := by
      refine (hafter (hrxRegs _ hreg)).trans (hreads g fun h => ?_)
      rcases h with ⟨-, h⟩ | h
      · exact hother (of_decide_eq_true (hix ▸ (List.mem_filter.1 h).2))
      · exact absurd (h ▸ hreg) (by decide)
    exact ⟨congrArg (· ≠ 0 : Nat → Bool) (hkept (g := F.HARB_RX_CFG_EN r) (show RegName.HARB_RX_CFG ∈ rxRingRegs by decide) rfl),
      hkept (g := F.HARB_RX_TAIL_TAIL r) (show RegName.HARB_RX_TAIL ∈ rxRingRegs by decide) rfl,
      hkept (g := F.HARB_RX_BASE_BASE r) (show RegName.HARB_RX_BASE ∈ rxRingRegs by decide) rfl⟩
  · have hzero {g : Fld} (hreg : g.reg ∈ dysPairRegs) (hix : g.ix = 3 + f.val) :=
      (u.ringsClear true ((List.range 64).filter fun r => s.ringOwner true r = f)).flrRest_pair hf hreg hix
    exact ⟨congrArg (· ≠ 0 : Nat → Bool) (hzero (g := F.DYS_RING_CFG_EN (3 + f)) (show RegName.DYS_RING_CFG ∈ dysPairRegs by decide) rfl),
      hzero (g := F.DYS_CMD_TAIL_TAIL (3 + f)) (show RegName.DYS_CMD_TAIL ∈ dysPairRegs by decide) rfl,
      hzero (g := F.DYS_CMD_HEAD_HEAD (3 + f)) (show RegName.DYS_CMD_HEAD ∈ dysPairRegs by decide) rfl,
      hzero (g := F.DYS_RSP_TAIL_TAIL (3 + f)) (show RegName.DYS_RSP_TAIL ∈ dysPairRegs by decide) rfl⟩
  · exact State.intBit_raise_self _ .harb 0 1 (by decide)

end Sys2Proof.Machine
end

section
/-! SUPPORT. How a Dysum command is refused and answered, and the commands that access registers, the log, telemetry and sensors
(R421 to R427, R431 to R433). -/

set_option Elab.async false

namespace Sys2Proof.Machine

/-! ### Taking an entry (R424) -/

/-- An entry that is taken moves HEAD of its ring, or stands in hand at its port. -/
theorem State.dysTake_reads {s u : State} {via : Via} (htake : s.dysTake via = some u) :
    readsOff [.DYS_CMD_HEAD] s u := by
  unfold State.dysTake at htake
  split at htake
  next => cases htake
  next =>
    cases via with
    | ring k =>
      dsimp only at htake
      split at htake
      next => cases htake
      next =>
        obtain rfl := Option.some.inj htake
        exact (readsOff.refl s).wr (f := F.DYS_CMD_HEAD_HEAD k) List.mem_cons_self _
    | eth e =>
      dsimp only at htake
      split at htake
      next =>
        obtain rfl := Option.some.inj htake
        exact .refl s
      next =>
        split at htake
        next =>
          obtain rfl := Option.some.inj htake
          exact (readsOff.refl s).congr rfl
        next => cases htake
    | i2c =>
      obtain rfl := Option.some.inj htake
      exact .refl s

theorem State.dysTake_rd {s u : State} {via : Via} (htake : s.dysTake via = some u) {f : Fld} (hf : f.reg ≠ .DYS_CMD_HEAD) : u.rd f = s.rd f :=
  State.dysTake_reads htake f fun h => hf (List.mem_singleton.1 h)

theorem State.dysTake_ready {s u : State} {via : Via} (htake : s.dysTake via = some u) : u.ready = s.ready := by
  unfold State.ready
  rw [State.dysTake_rd htake (by decide)]

/-! ### The order of the checks (R402, R426, R431) -/

section Checks

variable {s u : State} {h : DysHdr} (htake : s.dysTake h.via = some u) {r : DysRule} (body : State → DysAns)

/-- Without an entry a command waits. -/
theorem State.dysCmd_waits (hnone : s.dysTake h.via = none) : s.dysCmd h r body = s := by
  unfold State.dysCmd State.dysRun
  rw [hnone]

include htake

/-- Before READY a command that the boot ROM does not take is BUSY (R402). -/
theorem State.dysCmd_busy (hready : s.ready = false) (hearly : r.early = false) :
    s.dysCmd h r body = State.dysAnswer h r.code { st := u, status := stBusy } := by
  unfold State.dysCmd State.dysRun
  rw [htake]
  dsimp only
  rw [State.dysTake_ready htake, hready, hearly, Bool.not_false, Bool.false_and, Bool.not_false, Bool.and_self, if_pos rfl]

/-- After READY an opcode that the interface does not have is BAD_OPCODE. -/
theorem State.dysCmd_unsuited (hready : s.ready = true) (hsuits : h.suits = false) :
    s.dysCmd h r body = State.dysAnswer h r.code { st := u, status := stBadOpcode } := by
  unfold State.dysCmd State.dysRun
  rw [htake]
  dsimp only
  rw [State.dysTake_ready htake, hready, Bool.not_true, Bool.false_and, if_neg Bool.false_ne_true, hsuits, if_pos (by decide)]

variable (hready : s.ready = true) (hsuits : h.suits = true)
include hready hsuits

/-- A command of too low a level is DENIED, with its interrupt and no other effect (R431). -/
theorem State.dysCmd_denied (hlevel : levelOf h.via < r.level) :
    s.dysCmd h r body = State.dysAnswer h r.code { st := u.raise .dys 0 0, status := stDenied } := by
  unfold State.dysCmd State.dysRun
  rw [htake]
  dsimp only
  rw [State.dysTake_ready htake, hready, hsuits, Bool.not_true, Bool.false_and, if_neg Bool.false_ne_true, if_neg Bool.false_ne_true,
    decide_eq_true hlevel, Bool.true_or, if_pos rfl]

/-- An object that does not exist is BAD_ARG (R426). -/
theorem State.dysCmd_noObject (hlevel : r.level ≤ levelOf h.via) (hauth : r.auth = true) (hobject : r.object = false) :
    s.dysCmd h r body = State.dysAnswer h r.code { st := u, status := stBadArg } := by
  unfold State.dysCmd State.dysRun
  rw [htake]
  dsimp only
  rw [State.dysTake_ready htake, hready, hsuits, hauth, hobject, Bool.not_true, Bool.false_and, if_neg Bool.false_ne_true,
    if_neg Bool.false_ne_true, decide_eq_false (Nat.not_lt.2 hlevel), Bool.or_false, if_neg Bool.false_ne_true, if_pos (by decide)]

end Checks

/-! ### NOP on a ring (R421, R424) -/

theorem dysSize_pos (code : Nat) : 0 < dysSize code := Nat.two_pow_pos _

theorem dysSize_le (code : Nat) : dysSize code ≤ 2 ^ 12 := Nat.pow_le_pow_right Nat.two_pos (by omega)

theorem State.mem_sendVector {s : State} {k v : Nat} {o : Out} (ho : o ∈ s.out) : o ∈ (s.sendVector k v).out := by
  unfold State.sendVector
  split
  · exact List.mem_cons_of_mem _ ho
  · exact ho

/-- What a response on an enabled ring does: it is written, RSP_TAIL moves, and PHASE flips at a wrap (R421). -/
theorem State.ringRespond_writes (s : State) (k : Nat) (r : Rsp) (hen : s.on (F.DYS_RING_CFG_EN k) = true) :
    (s.ringRespond k r).rd (F.DYS_RSP_TAIL_TAIL k) =
      (s.rd (F.DYS_RSP_TAIL_TAIL k) + 1) % dysSize (s.rd (F.DYS_RING_CFG_RSP_SIZE k)) ∧
    mget (s.ringRespond k r).dys.phase k false = (if s.rd (F.DYS_RSP_TAIL_TAIL k) + 1 = dysSize (s.rd (F.DYS_RING_CFG_RSP_SIZE k))
      then !mget s.dys.phase k false else mget s.dys.phase k false) ∧
    Out.hostWrite (pairOwner k) (s.rd (F.DYS_RSP_BASE_BASE k) + 32 * s.rd (F.DYS_RSP_TAIL_TAIL k)) (r.bytes (!mget s.dys.phase k false)) ∈
      (s.ringRespond k r).out := by
  unfold State.ringRespond
  rw [hen, if_neg (by decide)]
  extract_lets t at_ ph s1 n s2 dys s3
  have hregs : s3.regs = s2.regs := by
    unfold s3
    split <;> rfl
  have hout : s3.out = s2.out := by
    unfold s3
    split <;> rfl
  have hphase : mget s3.dys.phase k false = if t = n then !ph else ph := by
    unfold s3
    split
    · exact mget_mset_self ..
    · rfl
  refine ⟨?_, ?_, ?_⟩
  · rw [State.rd_sendVector, State.rd_congr hregs]
    refine (State.rd_wr_self ..).trans (Nat.mod_eq_of_lt ?_)
    exact Nat.lt_of_lt_of_le (Nat.mod_lt _ (dysSize_pos _)) ((dysSize_le _).trans (Nat.pow_le_pow_right Nat.two_pos (show 12 ≤ 32 by decide)))
  · rw [State.sendVector_dys, hphase]
    rfl
  · refine State.mem_sendVector ?_
    rw [hout]
    exact List.mem_cons_self

/-- An entry that is taken from a ring moves HEAD of a pair that is enabled (R424). -/
theorem State.dysTake_ring {s u : State} {k : Fin 35} (htake : s.dysTake (.ring k) = some u) :
    u = s.wr (F.DYS_CMD_HEAD_HEAD k) ((s.rd (F.DYS_CMD_HEAD_HEAD k) + 1) % dysSize (s.rd (F.DYS_RING_CFG_CMD_SIZE k))) ∧
      s.on (F.DYS_RING_CFG_EN k) = true := by
  unfold State.dysTake at htake
  split at htake
  next => cases htake
  next =>
    dsimp only at htake
    split at htake
    next => cases htake
    next hgo =>
      refine ⟨(Option.some.inj htake).symm, ?_⟩
      cases hen : s.on (F.DYS_RING_CFG_EN k) with
      | true => rfl
      | false => exact absurd (by rw [hen]; rfl) hgo

/-- A response without a result is written as it is. -/
theorem State.dysAnswer_short (h : DysHdr) (code : Nat) {a : DysAns} (hresult : a.result = []) :
    State.dysAnswer h code a = a.st.respond h.via ⟨code, h.tag, a.status, a.state, h.object, a.detail, []⟩ := by
  unfold State.dysAnswer
  rw [hresult, List.isEmpty_nil, Bool.not_true, Bool.and_false]
  rfl

/-- What NOP answers, by the checks that come before its own (R402, R426). -/
theorem nop_answers {s u : State} {h : DysHdr} (htake : s.dysTake h.via = some u) (hform : dysBadForm h = false) :
    exec (.nop h) s = .next (u.respond h.via ⟨1, h.tag, if !s.ready then stBusy else if !h.suits then stBadOpcode else stOk, 0, h.object, 0, []⟩) := by
  refine congrArg Host.Outcome.next ?_
  cases hready : s.ready with
  | false => exact (State.dysCmd_busy htake _ hready rfl).trans (State.dysAnswer_short h _ rfl)
  | true =>
    cases hsuits : h.suits with
    | false => exact (State.dysCmd_unsuited htake _ hready hsuits).trans (State.dysAnswer_short h _ rfl)
    | true =>
      rw [State.dysCmd_passes htake ((State.dysTake_ready htake).trans hready) hsuits (Nat.zero_le _) rfl rfl, hform]
      exact State.dysAnswer_short h _ rfl

/-- NOP on a ring: HEAD passes the entry and the response stands at RSP_TAIL (R421, R424). -/
theorem nop_ring {s u : State} {h : DysHdr} {k : Fin 35} (htake : s.dysTake (.ring k) = some u)
    (hform : dysBadForm { h with via := .ring k } = false) :
    u = s.wr (F.DYS_CMD_HEAD_HEAD k) ((s.rd (F.DYS_CMD_HEAD_HEAD k) + 1) % dysSize (s.rd (F.DYS_RING_CFG_CMD_SIZE k))) ∧
    Runs (.nop { h with via := .ring k }) s fun t =>
      t.rd (F.DYS_RSP_TAIL_TAIL k) = (s.rd (F.DYS_RSP_TAIL_TAIL k) + 1) % dysSize (s.rd (F.DYS_RING_CFG_RSP_SIZE k)) ∧
      mget t.dys.phase k false = (if s.rd (F.DYS_RSP_TAIL_TAIL k) + 1 = dysSize (s.rd (F.DYS_RING_CFG_RSP_SIZE k))
        then !mget s.dys.phase k false else mget s.dys.phase k false) ∧
      Out.hostWrite (pairOwner k) (s.rd (F.DYS_RSP_BASE_BASE k) + 32 * s.rd (F.DYS_RSP_TAIL_TAIL k))
        (Rsp.bytes ⟨1, h.tag, if !s.ready then stBusy else if !h.suits then stBadOpcode else stOk, 0, h.object, 0, []⟩
          (!mget s.dys.phase k false)) ∈ t.out ∧
      answers { h with via := .ring k } [F.DYS_CMD_HEAD_HEAD k] s t := by
  obtain ⟨hu, hen⟩ := State.dysTake_ring htake
  refine ⟨hu, .of_exec (nop_answers (h := { h with via := .ring k }) htake hform) ?_⟩
  have hrd {f : Fld} (hf : f.reg ≠ .DYS_CMD_HEAD) : u.rd f = s.rd f := State.dysTake_rd htake hf
  have hdys : u.dys = s.dys := (congrArg State.dys hu).trans (State.wr_dys ..)
  obtain ⟨htail, hphase, hout⟩ := u.ringRespond_writes k
    ⟨1, h.tag, if !s.ready then stBusy else if !h.suits then stBadOpcode else stOk, 0, h.object, 0, []⟩ ((State.on_congr (hrd (by nofun))).trans hen)
  rw [hrd (by nofun), hrd (by nofun)] at htail
  rw [hrd (by nofun), hrd (by nofun), hdys] at hphase
  rw [hrd (by nofun), hrd (by nofun), hdys] at hout
  refine ⟨htail, hphase, hout, ?_⟩
  have htaken : answersBy [F.DYS_CMD_HEAD_HEAD k] s u := hu ▸ .of_changes ((changes.refl s).wr List.mem_cons_self _)
  exact (htaken.mono fun _ => List.mem_append_left _).trans ((State.respond_answersBy u (.ring k) _).mono fun _ => List.mem_append_right _)

/-- Settles O26: NOP, and the checks of R426 in their order. -/
theorem dysumAnswers : Obligations.DysumAnswers := by
  refine ⟨fun s h => ⟨fun hnone => ?_, fun k u htake hform => nop_ring htake hform, fun htake hready hsuits hform => ?_⟩,
    fun s h u htake hsuits => ⟨fun hready hlow => ?_, fun hready hlow => ?_, fun hready hlevel hobject => ?_, fun hready => ?_,
      fun hready hform hlevel => ?_⟩⟩
  · exact .of_exec (congrArg Host.Outcome.next (State.dysCmd_waits _ hnone)) rfl
  · refine .of_exec (nop_answers (h := { h with via := .i2c }) htake hform) ?_
    rw [hready, show ({ h with via := .i2c } : DysHdr).suits = true from hsuits]
    rfl
  · have hdenied (r : DysRule) (body : State → DysAns) (hr : r.level = lvOperator) :=
      State.dysCmd_denied htake (r := r) body hready hsuits (hr ▸ hlow)
    exact ⟨.of_exec (congrArg Host.Outcome.next (hdenied _ _ rfl)) rfl, .of_exec (congrArg Host.Outcome.next (hdenied _ _ rfl)) rfl,
      .of_exec (congrArg Host.Outcome.next (hdenied _ _ rfl)) rfl, fun req => .of_exec (congrArg Host.Outcome.next (hdenied _ _ rfl)) rfl,
      fun cap => .of_exec (congrArg Host.Outcome.next (hdenied _ _ rfl)) rfl⟩
  · have hdenied (r : DysRule) (body : State → DysAns) (hr : r.level = lvOwner) :=
      State.dysCmd_denied htake (r := r) body hready hsuits (hr ▸ hlow)
    exact ⟨fun d => .of_exec (congrArg Host.Outcome.next (hdenied _ _ rfl)) rfl, .of_exec (congrArg Host.Outcome.next (hdenied _ _ rfl)) rfl,
      fun f => .of_exec (congrArg Host.Outcome.next (hdenied _ _ rfl)) rfl⟩
  · have hbad (r : DysRule) (body : State → DysAns) (hr : r.level ≤ lvOperator) (hauth : r.auth = true) (hnone : r.object = false) :=
      State.dysCmd_noObject htake (r := r) body hready hsuits (hr.trans hlevel) hauth hnone
    have hport : decide (h.object < 512) = false := decide_eq_false (Nat.not_lt.2 hobject)
    have hdomain : decide (h.object < 2) = false := decide_eq_false (by omega)
    have hsensor : decide (h.object < 128) = false := decide_eq_false (by omega)
    exact ⟨.of_exec (congrArg Host.Outcome.next (hbad _ _ le_rfl rfl hport)) rfl,
      fun req => .of_exec (congrArg Host.Outcome.next (hbad _ _ le_rfl rfl hdomain)) rfl,
      .of_exec (congrArg Host.Outcome.next (hbad _ _ (show lvMonitor ≤ lvOperator by decide) rfl hsensor)) rfl⟩
  · have hbusy (r : DysRule) (body : State → DysAns) (hr : r.early = false) := State.dysCmd_busy htake (r := r) body hready hr
    exact ⟨.of_exec (congrArg Host.Outcome.next (hbusy _ _ rfl)) rfl, .of_exec (congrArg Host.Outcome.next (hbusy _ _ rfl)) rfl⟩
  · have hu := (State.dysTake_ready htake).trans hready
    refine ⟨Runs.of_dysAnswer htake hu hsuits rfl (Nat.zero_le _) rfl rfl rfl rfl ?_, ?_⟩
    · dsimp only
      rw [hform, if_pos rfl]
    · by_cases hoperator : lvOperator ≤ levelOf h.via
      · refine Runs.of_dysAnswer htake hu hsuits rfl hoperator rfl rfl (if_pos hform) rfl fun _ => rfl
      · exact .of_exec rfl fun h => absurd h hoperator

/-! ### Registers, the log, telemetry and sensors (R425, R432, R433) -/

section Accesses

variable {s u : State} {h : DysHdr} (htake : s.dysTake h.via = some u) (hready : u.ready = true) (hsuits : h.suits = true)
  (hform : dysBadForm h = false)
include htake hready hsuits hform

/-- REG_READ reads the words from OBJECT on as the interface's requester would (R432). -/
theorem regRead_reads {count : Fin 16} (hpos : 0 < count.val) (hmax : count.val ≤ 8) (hexist : wordsExist h.object count = true)
    (hlevel : lvMonitor ≤ levelOf h.via) (hmonitor : levelOf h.via = lvMonitor → monitorReads h.object count = true) :
    Runs (.regRead h count) s fun t =>
      (h.via ≠ .i2c → t = State.dysAnswer h 2 { st := (u.dysRead (requesterOf h.via) h.object count).2,
                                                result := (u.dysRead (requesterOf h.via) h.object count).1 }) ∧
      (count.val = 1 → (u.dysRead (requesterOf h.via) h.object count).1 = leBytes 4 (u.readWord (requesterOf h.via) h.object).1) := by
  have hone : max 1 count.val = count.val := max_eq_right hpos
  have hauth : (decide (levelOf h.via ≠ lvMonitor) || monitorReads h.object (max 1 count.val)) = true := by
    rw [hone]
    by_cases hm : levelOf h.via = lvMonitor
    · rw [hmonitor hm, Bool.or_true]
    · rw [decide_eq_true hm, Bool.true_or]
  have hargs : ¬((decide (count = 0) || decide (count.val > 8)) || dysBadForm h) = true := by
    rw [hform, decide_eq_false (Nat.not_lt.2 hmax), decide_eq_false (show ¬count = 0 from fun e => by rw [e] at hpos; exact absurd hpos (by decide))]
    decide
  refine Runs.of_dysAnswer htake hready hsuits rfl hlevel hauth hexist (if_neg hargs) rfl ⟨fun hvia => ?_, fun hcount => ?_⟩
  · dsimp only
    rw [if_neg hvia]
  · rw [hcount]
    rfl

/-- REG_WRITE of an owner writes the words from OBJECT on as the interface's requester would (R432). -/
theorem regWrite_writes {words : List (BitVec 32)} (hpos : 0 < words.length) (hmax : words.length ≤ 8)
    (hexist : wordsExist h.object words.length = true) (howner : levelOf h.via = lvOwner) : Runs (.regWrite h words) s fun t =>
      t = State.dysAnswer h 3 { st := u.dysWrite (requesterOf h.via) h.object (words.map BitVec.toNat) } := by
  have hauth : ∀ b : Bool, (decide (levelOf h.via ≠ lvOperator) || b) = true := fun b => by
    rw [howner, decide_eq_true (by decide), Bool.true_or]
  have hargs : ¬(((words.map fun w => w.toNat).isEmpty || decide ((words.map fun w => w.toNat).length > 8)) || dysBadForm h) = true := by
    rw [hform, List.length_map, decide_eq_false (Nat.not_lt.2 hmax), List.isEmpty_map, List.isEmpty_eq_false_iff.2 (List.length_pos_iff.1 hpos)]
    decide
  refine Runs.of_dysAnswer htake hready hsuits rfl (howner ▸ show lvOperator ≤ lvOwner by decide) (hauth _) ?_ (if_neg hargs) rfl rfl
  rw [List.length_map]
  exact hexist

/-- ERRLOG_READ answers the entries from SEQ on, oldest first (R442). -/
theorem errlogRead_reads {seq : BitVec 32} {count : Nat} (hpos : 0 < count) (hlevel : lvMonitor ≤ levelOf h.via) :
    Runs (.errlogRead h seq count) s fun t => t = State.dysAnswer h 0x0022
      { st := u, result := ((u.log.reverse.filter (fun e => e.seq ≥ seq.toNat)).take count).flatMap (fun e => e.bytes) } := by
  refine Runs.of_dysAnswer htake hready hsuits rfl hlevel rfl rfl (if_neg ?_) rfl rfl
  rw [hform, decide_eq_false (Nat.ne_of_gt hpos)]
  decide

/-- TIDEMARK_FIRE makes an edge (R453). -/
theorem tidemarkFire_fires (hlevel : lvOperator ≤ levelOf h.via) :
    Runs (.tidemarkFire h) s fun t => t = State.dysAnswer h 0x0023 { st := u.tidemark 2 0 } :=
  Runs.of_dysAnswer htake hready hsuits rfl hlevel rfl rfl (if_neg (by rw [hform]; decide)) rfl rfl

/-- SENSOR_READ answers the sensor's temperature (R377). -/
theorem sensorRead_reads (hobject : h.object < 128) (hlevel : lvMonitor ≤ levelOf h.via) :
    Runs (.sensorRead h) s fun t => t = State.dysAnswer h 0x0080 { st := u, result := leBytes 1 (u.rd (F.PWR_SENSOR_TEMP h.object)) } :=
  Runs.of_dysAnswer htake hready hsuits rfl hlevel rfl (decide_eq_true hobject) (if_neg (by rw [hform]; decide)) rfl rfl

end Accesses

/-- The bins of the queues `l` read 0 (R267). -/
def State.binsClear (s : State) (l : List Nat) : State :=
  l.foldl (fun s k => (List.range 64).foldl (fun s b => s.wr (F.TM_HIST_COUNT (64 * k + b)) 0) s) s

theorem State.binClear_changes (s : State) (k : Nat) : changes ((List.range 64).map fun b => F.TM_HIST_COUNT (64 * k + b)) s
    ((List.range 64).foldl (fun s b => s.wr (F.TM_HIST_COUNT (64 * k + b)) 0) s) :=
  List.foldlRecOn (motive := changes _ s) _ _ (changes.refl s) fun _ hu _ hb => hu.wr (List.mem_map_of_mem hb) 0

/-- The bins that clear are those of the queues, and nothing else changes. -/
theorem State.binsClear_clears (s : State) (l : List Nat) :
    (∀ k ∈ l, ∀ b < 64, (s.binsClear l).rd (F.TM_HIST_COUNT (64 * k + b)) = 0) ∧
    changes (l.flatMap fun k => (List.range 64).map fun b => F.TM_HIST_COUNT (64 * k + b)) s (s.binsClear l) := by
  refine ⟨fun k hk b hb => ?_, ?_⟩
  · have hwr (u : State) (n : Nat) (h : u.rd (F.TM_HIST_COUNT (64 * k + b)) = 0) :
        (u.wr (F.TM_HIST_COUNT n) 0).rd (F.TM_HIST_COUNT (64 * k + b)) = 0 := by
      by_cases hn : 64 * k + b = n
      · rw [hn]
        exact State.rd_wr_self ..
      · rw [State.rd_wr_ne _ _ fun e => hn (Fld.key_eq.1 e).2.1]
        exact h
    refine foldl_establishes (p := fun u : State => u.rd (F.TM_HIST_COUNT (64 * k + b)) = 0) (fun u => ?_) (fun u j hu => ?_) hk s
    · exact foldl_establishes (p := fun u : State => u.rd (F.TM_HIST_COUNT (64 * k + b)) = 0) (fun u => State.rd_wr_self ..)
        (fun u _ hu => hwr u _ hu) (List.mem_range.2 hb) u
    · exact List.foldlRecOn (motive := fun u : State => u.rd (F.TM_HIST_COUNT (64 * k + b)) = 0) _ _ hu fun v hv _ _ => hwr v _ hv
  · refine List.foldlRecOn (motive := changes _ s) _ _ (changes.refl s) fun u hu k hk => ?_
    exact hu.trans ((u.binClear_changes k).mono fun f hf => List.mem_flatMap.2 ⟨k, hk, hf⟩)

/-- TEL_READ answers the port's counters and bins, and clears the bins (R268, R433). -/
theorem telRead_clears {s u : State} {h : DysHdr} (htake : s.dysTake h.via = some u) (hready : u.ready = true) (hsuits : h.suits = true)
    (hform : dysBadForm h = false) (hobject : h.object < 512)
    (hmay : levelOf h.via ≠ lvTenant ∨ bit (u.rd (F.HARB_VF_PORTS_PORTS (16 * vfOf h.via + h.object / 32))) (h.object % 32) = true) :
    Runs (.telRead h) s fun t =>
      (∀ k ∈ portQueues h.object, ∀ b : Fin 64, t.rd (F.TM_HIST_COUNT (64 * k + b)) = 0) ∧
      readsOff [.TM_HIST, .DYS_RSP_TAIL] u t ∧
      { t with regs := u.regs, out := u.out, msixPend := u.msixPend, dys := u.dys } = u := by
  have hauth : (decide (levelOf h.via ≠ lvTenant) ||
      (decide (h.object < 512) && bit (s.rd (F.HARB_VF_PORTS_PORTS (16 * vfOf h.via + h.object / 32))) (h.object % 32))) = true := by
    rw [State.dysTake_rd htake (by nofun)] at hmay
    rcases hmay with hlevel | hport
    · rw [decide_eq_true hlevel, Bool.true_or]
    · rw [hport, decide_eq_true hobject, Bool.and_true, Bool.or_true]
  obtain ⟨hbins, hchanges⟩ := u.binsClear_clears (portQueues h.object)
  have hanswer (st : Nat) (result : Bytes) := State.dysAnswer_answers (u := u) (h := h) 0x0070
    (a := { st := u.binsClear (portQueues h.object), state := st, result := result }) hchanges
  have hrsp (st : Nat) (result : Bytes) : answersBy (rspFields h.via) (u.binsClear (portQueues h.object))
      (State.dysAnswer h 0x0070 { st := u.binsClear (portQueues h.object), state := st, result := result }) :=
    State.dysAnswer_answers (fs := []) 0x0070 (changes.refl _)
  refine Runs.of_dysAnswer htake hready hsuits rfl (Nat.zero_le _) hauth (decide_eq_true hobject) (if_neg (by rw [hform]; decide)) rfl
    ⟨fun k hk b => ?_, ?_, ?_⟩
  · refine ((hrsp _ _).rd_eq fun g hg => ?_).trans (hbins k hk b b.isLt)
    rw [rspFields_reg h.via g hg]
    nofun
  · refine (hanswer _ _).1.off fun g hg => ?_
    rcases List.mem_append.1 hg with hg | hg
    · obtain ⟨k, -, hg⟩ := List.mem_flatMap.1 hg
      obtain ⟨b, -, rfl⟩ := List.mem_map.1 hg
      exact List.mem_cons_self
    · exact List.mem_cons_of_mem _ (List.mem_singleton.2 (rspFields_reg h.via g hg))
  · exact (hanswer _ _).2

/-- Settles O27: what each of the commands answers. -/
theorem dysumAccesses : Obligations.DysumAccesses :=
  ⟨fun _ _ _ htake hready hsuits hform =>
    ⟨fun _ hpos hmax hexist hlevel hmonitor => regRead_reads htake hready hsuits hform hpos hmax hexist hlevel hmonitor,
      fun _ hpos hmax hexist howner => regWrite_writes htake hready hsuits hform hpos hmax hexist howner⟩,
    fun _ _ _ htake hready hsuits hform =>
    ⟨fun _ _ hpos hlevel => errlogRead_reads htake hready hsuits hform hpos hlevel,
      fun hlevel => tidemarkFire_fires htake hready hsuits hform hlevel,
      fun hobject hmay => telRead_clears htake hready hsuits hform hobject hmay,
      fun hobject hlevel => sensorRead_reads htake hready hsuits hform hobject hlevel⟩⟩

end Sys2Proof.Machine
end

section
/-! SUPPORT. The key registers and the fuse commands of Dysum (R396 to R399, R402). -/

set_option Elab.async false

namespace Sys2Proof.Machine

/-! ### The key registers (R396, R399) -/

/-- The status of the key slots as the fuses stand. -/
def State.keyStatus (s : State) : State :=
  ((s.wr F.BOOT_KEY_STATUS_PROGRAMMED ((List.range 4).foldl (fun a k => a + flagAt (mfind s.fuses.digests k).isSome k) 0)).wr
    F.BOOT_KEY_STATUS_REVOKED ((List.range 4).foldl (fun a k => a + flagAt (s.fuses.revoked.contains k) k) 0)).wr
    F.BOOT_KEY_STATUS_SVN_FLOOR s.fuses.svn

/-- Word `n` of the digests, 12 words to a slot. -/
def State.digestWord (s : State) (n : Nat) : Nat := bits (mget s.fuses.digests (n / 12) 0) (32 * (n % 12)) 32

theorem State.keyRegs_eq (s : State) : s.keyRegs = s.keyStatus.wrWords F.BOOT_KEY_DIGEST_WORD s.digestWord 48 := rfl

theorem changes.fuses {fs : List Fld} {s t : State} (h : changes fs s t) : t.fuses = s.fuses := (congrArg State.fuses h.2 :)

theorem changes.boot {fs : List Fld} {s t : State} (h : changes fs s t) : t.boot = s.boot := (congrArg State.boot h.2 :)

section KeyRegs

variable (s : State)

theorem State.wrWords_changes (g : Nat → Fld) (v : Nat → Nat) (n : Nat) : changes ((List.range n).map g) s (s.wrWords g v n) :=
  List.foldlRecOn (motive := changes _ s) _ _ (changes.refl s) fun _ hu _ hk => hu.wr (List.mem_map_of_mem hk) _

theorem State.keyStatus_changes :
    changes [F.BOOT_KEY_STATUS_PROGRAMMED, F.BOOT_KEY_STATUS_REVOKED, F.BOOT_KEY_STATUS_SVN_FLOOR] s s.keyStatus :=
  (((changes.refl s).wr (by decide) _).wr (by decide) _).wr (by decide) _

/-- The fields of the key registers. -/
def keyFields : List Fld :=
  [F.BOOT_KEY_STATUS_PROGRAMMED, F.BOOT_KEY_STATUS_REVOKED, F.BOOT_KEY_STATUS_SVN_FLOOR] ++ (List.range 48).map F.BOOT_KEY_DIGEST_WORD

theorem State.keyRegs_changes : changes keyFields s s.keyRegs := by
  rw [State.keyRegs_eq]
  exact (s.keyStatus_changes.mono fun _ => List.mem_append_left _).trans
    ((s.keyStatus.wrWords_changes _ _ 48).mono fun _ => List.mem_append_right _)

theorem State.rd_keyRegs_status {f : Fld} (hf : f.reg = .BOOT_KEY_STATUS) : s.keyRegs.rd f = s.keyStatus.rd f := by
  rw [State.keyRegs_eq]
  refine State.rd_wrWords_ne _ _ _ 48 fun k _ e => ?_
  have hreg := (Fld.key_eq.1 e).1
  rw [hf] at hreg
  cases hreg

/-- PROGRAMMED has a bit for each slot with a digest, REVOKED one for each that is revoked, and SVN_FLOOR the floor. -/
theorem State.keyRegs_status (k : Fin 4) :
    bit (s.keyRegs.rd F.BOOT_KEY_STATUS_PROGRAMMED) k = (mfind s.fuses.digests k).isSome ∧
    bit (s.keyRegs.rd F.BOOT_KEY_STATUS_REVOKED) k = s.fuses.revoked.contains k.val ∧
    s.keyRegs.rd F.BOOT_KEY_STATUS_SVN_FLOOR = s.fuses.svn % 2 ^ 7 := by
  rw [s.rd_keyRegs_status rfl, s.rd_keyRegs_status rfl, s.rd_keyRegs_status rfl]
  unfold State.keyStatus
  refine ⟨?_, ?_, State.rd_wr_self ..⟩
  · rw [State.rd_wr_of_lo_ne _ _ (by decide), State.rd_wr_of_lo_ne _ _ (by decide), State.rd_wr_self]
    refine (congrArg (bit · k) (Nat.mod_eq_of_lt ?_)).trans (bit_foldl_flagAt (fun k => (mfind s.fuses.digests k).isSome) 4 k.isLt)
    exact foldl_flagAt_lt (fun k => (mfind s.fuses.digests k).isSome) 4
  · rw [State.rd_wr_of_lo_ne _ _ (by decide), State.rd_wr_self]
    refine (congrArg (bit · k) (Nat.mod_eq_of_lt ?_)).trans (bit_foldl_flagAt (fun k => s.fuses.revoked.contains k) 4 k.isLt)
    exact foldl_flagAt_lt (fun k => s.fuses.revoked.contains k) 4

theorem State.keyRegs_digest (n : Fin 48) :
    s.keyRegs.rd (F.BOOT_KEY_DIGEST_WORD n) = bits (mget s.fuses.digests (n / 12) 0) (32 * (n % 12)) 32 := by
  rw [State.keyRegs_eq]
  refine (State.rd_wrWords _ _ _ (fun a b e => (Fld.key_eq.1 e).2.1) n.isLt).trans (Nat.mod_eq_of_lt ?_)
  exact Nat.mod_lt _ (Nat.two_pow_pos _)

theorem State.keyRegs_rd {f : Fld} (hstatus : f.reg ≠ .BOOT_KEY_STATUS) (hdigest : f.reg ≠ .BOOT_KEY_DIGEST) : s.keyRegs.rd f = s.rd f := by
  refine s.keyRegs_changes.1 f fun g hg e => ?_
  rcases List.mem_append.1 hg with hg | hg
  · exact hstatus ((Fld.key_eq.1 e).1.trans ((show ∀ g ∈ [F.BOOT_KEY_STATUS_PROGRAMMED, F.BOOT_KEY_STATUS_REVOKED,
      F.BOOT_KEY_STATUS_SVN_FLOOR], g.reg = .BOOT_KEY_STATUS by decide) g hg))
  · obtain ⟨n, -, rfl⟩ := List.mem_map.1 hg
    exact hdigest (Fld.key_eq.1 e).1

theorem State.keyRegs_fuses : s.keyRegs.fuses = s.fuses := s.keyRegs_changes.fuses

theorem State.keyRegs_boot : s.keyRegs.boot = s.boot := s.keyRegs_changes.boot

end KeyRegs

/-! ### The stage of the boot (R400) -/

theorem State.stageEnter_stage (s : State) {n : Nat} (hn : n < 16) : (s.stageEnter n).stage = n := by
  have hread : (s.stageEnter n).rd F.BOOT_STATUS_STAGE = n % 2 ^ 4 := State.rd_wr_self s F.BOOT_STATUS_STAGE n
  exact hread.trans (Nat.mod_eq_of_lt hn)

theorem State.stageEnter_rd (s : State) (n : Nat) {f : Fld} (hf : f.key ≠ F.BOOT_STATUS_STAGE.key) : (s.stageEnter n).rd f = s.rd f :=
  State.rd_wr_ne s n hf

/-! ### Commands of an owner that the boot ROM takes too (R402) -/

/-- A command of an owner that the boot ROM takes passes before READY as well. -/
theorem State.dysCmd_early {s u : State} {h : DysHdr} (htake : s.dysTake h.via = some u) (hsuits : h.suits = true)
    (howner : levelOf h.via = lvOwner) {r : DysRule} (hearly : r.early = true) (hlevel : r.level ≤ lvOwner) (hauth : r.auth = true)
    (hobject : r.object = true) (body : State → DysAns) :
    s.dysCmd h r body = if (body u).held then (body u).st else State.dysAnswer h r.code (body u) := by
  unfold State.dysCmd State.dysRun
  simp only [htake, hsuits, hauth, hobject, hearly, howner, Nat.not_lt.2 hlevel, Bool.not_true, Bool.and_false, Bool.true_and, decide_true,
    Bool.false_eq_true, decide_false, Bool.or_self, if_false]
  split
  · rfl
  · rfl

/-- What a response leaves: the fuses, and every register but the tail of a ring. -/
theorem State.dysAnswer_leaves (h : DysHdr) (code : Nat) (a : DysAns) :
    (State.dysAnswer h code a).fuses = a.st.fuses ∧ ∀ f : Fld, f.reg ≠ .DYS_RSP_TAIL → (State.dysAnswer h code a).rd f = a.st.rd f := by
  have hanswers : answersBy (rspFields h.via) a.st (State.dysAnswer h code a) := State.dysAnswer_answers (fs := []) code (changes.refl a.st)
  exact ⟨(congrArg State.fuses hanswers.2 :), fun f hf => hanswers.rd_eq fun g hg => rspFields_reg h.via g hg ▸ hf⟩

/-! ### The fuse commands (R396 to R399) -/

/-- The slot takes a digest, and the key registers follow. -/
def State.keyTake (s : State) (k digest : Nat) : State :=
  State.keyRegs { s with fuses := { s.fuses with digests := minsert s.fuses.digests k digest } }

/-- The slot is revoked, and the key registers follow. -/
def State.keyDrop (s : State) (k : Nat) : State :=
  State.keyRegs { s with fuses := { s.fuses with
    revoked := if s.fuses.revoked.contains k then s.fuses.revoked else s.fuses.revoked ++ [k] } }

/-- The floor takes a value, and the key registers follow. -/
def State.floorTake (s : State) (floor : Nat) : State := State.keyRegs { s with fuses := { s.fuses with svn := floor } }

section FuseCommands

variable {s u : State} {h : DysHdr} (htake : s.dysTake h.via = some u) (hsuits : h.suits = true) (hform : dysBadForm h = false)
  (howner : levelOf h.via = lvOwner)
include htake hsuits howner

theorem keyProgram_conflict (hobject : h.object < 4) (d : BitVec 384) {e : Nat} (he : mfind u.fuses.digests h.object = some e) :
    exec (.keyProgram h d) s = .next (State.dysAnswer h 0x0048 { st := u, status := stConflict }) := by
  refine congrArg Host.Outcome.next ((State.dysCmd_early htake hsuits howner rfl le_rfl rfl (decide_eq_true hobject) _).trans ?_)
  simp only [he, Option.isSome_some, if_true, Bool.false_eq_true, if_false]

theorem keyRevoke_conflict (hobject : h.object < 4)
    (hlast : ∀ j : Fin 4, j.val ≠ h.object → (mfind u.fuses.digests j).isSome = true → u.fuses.revoked.contains j.val = true) :
    exec (.keyRevoke h) s = .next (State.dysAnswer h 0x0049 { st := u, status := stConflict }) := by
  have hleft : (List.range 4).any (fun j => decide (j ≠ h.object) && (mfind u.fuses.digests j).isSome && !u.fuses.revoked.contains j) = false := by
    refine List.any_eq_false.2 fun j hj hyes => ?_
    simp only [Bool.and_eq_true, decide_eq_true_eq, Bool.not_eq_true'] at hyes
    obtain ⟨⟨hne, hsome⟩, hfree⟩ := hyes
    rw [hlast ⟨j, List.mem_range.1 hj⟩ hne hsome] at hfree
    cases hfree
  refine congrArg Host.Outcome.next ((State.dysCmd_early htake hsuits howner rfl le_rfl rfl (decide_eq_true hobject) _).trans ?_)
  simp only [hleft, Bool.not_false, if_true, Bool.false_eq_true, if_false]

include hform

theorem keyProgram_takes (hobject : h.object < 4) (d : BitVec 384) (hblank : mfind u.fuses.digests h.object = none) :
    exec (.keyProgram h d) s = .next (State.dysAnswer h 0x0048
      { st := if (u.keyTake h.object d.toNat).stage = 8 then (u.keyTake h.object d.toNat).stageEnter 3 else u.keyTake h.object d.toNat }) := by
  refine congrArg Host.Outcome.next ((State.dysCmd_early htake hsuits howner rfl le_rfl rfl (decide_eq_true hobject) _).trans ?_)
  simp only [hblank, hform, Option.isSome_none, Bool.false_eq_true, if_false]
  rfl

theorem keyRevoke_drops (hobject : h.object < 4) {j : Fin 4} (hne : j.val ≠ h.object) (hsome : (mfind u.fuses.digests j).isSome = true)
    (hfree : u.fuses.revoked.contains j.val = false) (hstaged : u.boot.staged = none) :
    exec (.keyRevoke h) s = .next (State.dysAnswer h 0x0049 { st := u.keyDrop h.object }) := by
  have hleft : (List.range 4).any (fun j => decide (j ≠ h.object) && (mfind u.fuses.digests j).isSome && !u.fuses.revoked.contains j) = true := by
    refine List.any_eq_true.2 ⟨j, List.mem_range.2 j.isLt, ?_⟩
    rw [decide_eq_true hne, hsome, hfree]
    rfl
  have hboot : (u.keyDrop h.object).boot.staged = none := (congrArg BootSt.staged (State.keyRegs_boot _)).trans hstaged
  refine congrArg Host.Outcome.next ((State.dysCmd_early htake hsuits howner rfl le_rfl rfl (decide_eq_true hobject) _).trans ?_)
  simp only [hleft, hform, Bool.not_true, Bool.false_eq_true, if_false]
  have hkept : ¬(!(u.keyDrop h.object).boot.swapping && (u.keyDrop h.object).boot.staged.any fun im => decide (im.keySlot = h.object)) = true := by
    rw [hboot, Option.any_none, Bool.and_false]
    exact Bool.false_ne_true
  exact congrArg (fun t => State.dysAnswer h 0x0049 { st := t }) (if_neg hkept)

theorem svnRaise_takes {floor : Fin 128} (hmax : floor.val ≤ 64) (hrise : u.fuses.svn ≤ floor.val) {im : Image}
    (hrunning : u.boot.running = some im) (hsvn : floor.val ≤ im.svn) :
    exec (.svnRaise h floor) s = .next (State.dysAnswer h 0x004A { st := u.floorTake floor.val }) := by
  refine congrArg Host.Outcome.next ((State.dysCmd_early htake hsuits howner rfl le_rfl rfl rfl _).trans ?_)
  simp only [hform, hrunning, Option.all_some, decide_eq_false (Nat.not_lt.2 hrise), gt_iff_lt, decide_eq_false (Nat.not_lt.2 hsvn),
    decide_eq_false (Nat.not_lt.2 hmax), Bool.or_self, Bool.false_eq_true, if_false]
  rfl

end FuseCommands

/-- A digest that is programmed stands in the fuses, the other slots stay, and PROGRAMMED shows it. -/
theorem State.keyTake_shows (u : State) (k : Fin 4) (d : Nat) :
    mfind (u.keyTake k d).fuses.digests k = some d ∧
    (∀ j : Fin 4, j.val ≠ k → mfind (u.keyTake k d).fuses.digests j = mfind u.fuses.digests j) ∧
    (u.keyTake k d).fuses.revoked = u.fuses.revoked ∧ (u.keyTake k d).fuses.svn = u.fuses.svn ∧
    bit ((u.keyTake k d).rd F.BOOT_KEY_STATUS_PROGRAMMED) k = true := by
  unfold State.keyTake
  rw [State.keyRegs_fuses, (State.keyRegs_status _ k).1]
  dsimp only
  rw [mfind_minsert_self]
  exact ⟨rfl, fun j hj => mfind_minsert_ne _ _ hj, rfl, rfl, rfl⟩

/-- A slot that is revoked stands in the fuses and in REVOKED, and nothing else changes there. -/
theorem State.keyDrop_shows (u : State) (k : Fin 4) :
    k.val ∈ (u.keyDrop k).fuses.revoked ∧ (u.keyDrop k).fuses.digests = u.fuses.digests ∧ (u.keyDrop k).fuses.svn = u.fuses.svn ∧
    bit ((u.keyDrop k).rd F.BOOT_KEY_STATUS_REVOKED) k = true := by
  have hmem : k.val ∈ (if u.fuses.revoked.contains k.val then u.fuses.revoked else u.fuses.revoked ++ [k.val]) := by
    split
    next hin => exact List.contains_iff_mem.1 hin
    next => exact List.mem_append_right _ List.mem_cons_self
  unfold State.keyDrop
  rw [State.keyRegs_fuses, (State.keyRegs_status _ k).2.1]
  exact ⟨hmem, rfl, rfl, List.contains_iff_mem.2 hmem⟩

/-- A floor that is raised stands in the fuses and in SVN_FLOOR. -/
theorem State.floorTake_shows (u : State) {floor : Nat} (hmax : floor ≤ 64) :
    (u.floorTake floor).fuses.svn = floor ∧ (u.floorTake floor).rd F.BOOT_KEY_STATUS_SVN_FLOOR = floor ∧
    (u.floorTake floor).fuses.digests = u.fuses.digests ∧ (u.floorTake floor).fuses.revoked = u.fuses.revoked := by
  unfold State.floorTake
  rw [State.keyRegs_fuses, (State.keyRegs_status _ 0).2.2]
  exact ⟨rfl, Nat.mod_eq_of_lt (Nat.lt_of_le_of_lt hmax (by decide)), rfl, rfl⟩

/-- Settles O31: each fuse command of an owner, with what the key registers show. -/
theorem dysumFuses : Obligations.DysumFuses := by
  intro s h u htake hsuits hform howner
  refine ⟨fun hobject d hblank => .of_exec (keyProgram_takes htake hsuits hform howner hobject d hblank) ?_,
    fun hobject d e he => .of_exec (keyProgram_conflict htake hsuits howner hobject d he) rfl,
    fun hobject ⟨j, hne, hsome, hfree⟩ hstaged => .of_exec (keyRevoke_drops htake hsuits hform howner hobject hne hsome hfree hstaged) ?_,
    fun hobject hlast => .of_exec (keyRevoke_conflict htake hsuits howner hobject hlast) rfl,
    fun floor hmax hrise im hrunning hsvn => .of_exec (svnRaise_takes htake hsuits hform howner hmax hrise hrunning hsvn) ?_⟩
  · obtain ⟨hnew, hothers, hrevoked, hsvn, hprogrammed⟩ := u.keyTake_shows ⟨h.object, hobject⟩ d.toNat
    obtain ⟨hfuses, hrd⟩ := State.dysAnswer_leaves h 0x0048
      { st := if (u.keyTake h.object d.toNat).stage = 8 then (u.keyTake h.object d.toNat).stageEnter 3 else u.keyTake h.object d.toNat }
    have hstage : (u.keyTake h.object d.toNat).stage = u.stage := State.keyRegs_rd _ (by decide) (by decide)
    have hentered : (if (u.keyTake h.object d.toNat).stage = 8 then (u.keyTake h.object d.toNat).stageEnter 3 else u.keyTake h.object d.toNat).fuses =
        (u.keyTake h.object d.toNat).fuses := by split <;> rfl
    have hshown : (if (u.keyTake h.object d.toNat).stage = 8 then (u.keyTake h.object d.toNat).stageEnter 3 else u.keyTake h.object d.toNat).rd
        F.BOOT_KEY_STATUS_PROGRAMMED = (u.keyTake h.object d.toNat).rd F.BOOT_KEY_STATUS_PROGRAMMED := by
      split
      · exact State.stageEnter_rd _ _ (by decide)
      · rfl
    rw [hfuses, hrd _ (by decide), hentered, hshown]
    refine ⟨hnew, hothers, hrevoked, hsvn, fun hwaits => ?_, hprogrammed⟩
    refine (hrd F.BOOT_STATUS_STAGE (by decide)).trans ?_
    rw [if_pos (hstage.trans hwaits)]
    exact State.stageEnter_stage _ (by decide)
  · obtain ⟨hmem, hdigests, hsvn, hrevoked⟩ := u.keyDrop_shows ⟨h.object, hobject⟩
    obtain ⟨hfuses, hrd⟩ := State.dysAnswer_leaves h 0x0049 { st := u.keyDrop h.object }
    rw [hfuses, hrd _ (by decide)]
    exact ⟨hmem, hdigests, hsvn, hrevoked⟩
  · obtain ⟨hsvn, hfloor, hdigests, hrevoked⟩ := u.floorTake_shows hmax
    obtain ⟨hfuses, hrd⟩ := State.dysAnswer_leaves h 0x004A { st := u.floorTake floor.val }
    rw [hfuses, hrd _ (by decide)]
    exact ⟨hsvn, hfloor, hdigests, hrevoked⟩

end Sys2Proof.Machine
end

section
/-! SUPPORT. Resets of the device and the stages of the boot (R395, R400 to R405, R469). -/

set_option Elab.async false

namespace Sys2Proof.Machine

/-! ### Resets (R469) -/

/-- Settles the part of O57 on resets. -/
theorem deviceReset_resets (s : State) :
    (∀ src i2c,
      Runs (.deviceReset .powerUp src i2c) s (fun t => t.regs = [] ∧ t.keep = s.keep ∧ t.hbm = [] ∧
        t.fuses = { s.fuses with bootSrc := src, i2cRstEn := i2c } ∧ t.boot = { powerHeld := true } ∧ t.path = {} ∧ t.dys = {} ∧ t.log = [] ∧
        t.domA = State.reset.domA ∧ t.harb = {}) ∧
      Runs (.deviceReset .resetN src i2c) s (fun t => t.regs = [] ∧ t.keep = s.keep ∧ t.hbm = s.hbm ∧
        t.fuses = { s.fuses with bootSrc := src, i2cRstEn := i2c } ∧ t.boot = {} ∧ t.path = {} ∧ t.dys = {} ∧ t.log = [] ∧
        t.domA = State.reset.domA)) ∧
    (∀ (cause : ResetCause) src i2c, cause ≠ .powerUp → cause ≠ .resetN → Runs (.deviceReset cause src i2c) s fun t =>
      t.regs = [] ∧ t.keep = s.keep ∧ t.hbm = s.hbm ∧ t.fuses = s.fuses ∧ t.boot = {} ∧ t.log = []) ∧
    Runs .jtagDevReset s fun t => t.regs = [] ∧ t.keep = s.keep ∧ t.hbm = s.hbm ∧ t.fuses = s.fuses ∧ t.boot = {} ∧
      t.harb = { tapIr := 0x22, boundary := s.harb.boundary } := by
  refine ⟨fun src i2c => ⟨.of_exec rfl ⟨rfl, rfl, rfl, rfl, rfl, rfl, rfl, rfl, rfl, rfl⟩,
    .of_exec rfl ⟨rfl, rfl, rfl, rfl, rfl, rfl, rfl, rfl, rfl⟩⟩, fun cause src i2c hup hreset => ?_,
    .of_exec rfl ⟨rfl, rfl, rfl, rfl, rfl, rfl⟩⟩
  cases cause with
  | powerUp => exact absurd rfl hup
  | resetN => exact absurd rfl hreset
  | _ => exact .of_exec rfl ⟨rfl, rfl, rfl, rfl, rfl, rfl⟩

/-! ### FUSE and CLOCK (R396, R403) -/

section Stages

variable (s : State)

theorem State.stageEnter_boot (n : Nat) : (s.stageEnter n).boot = { s.boot with since := s.now } := rfl

theorem State.stageEnter_fuses (n : Nat) : (s.stageEnter n).fuses = s.fuses := rfl

/-- The stage changes beside the boot ROM's own state. -/
theorem State.stageEnter_changes (n : Nat) : changes [F.BOOT_STATUS_STAGE] s { s.stageEnter n with boot := s.boot } :=
  (changes.refl s).wr List.mem_cons_self n

theorem State.fetchFrom_boot (src : Nat) :
    (s.fetchFrom src).boot = { s.boot with since := s.now, source := src, waitGo := Decidable.decide (src = 3), image := none } := rfl

theorem State.fetchFrom_stage (src : Nat) : (s.fetchFrom src).stage = 2 := s.stageEnter_stage (n := 2) (by decide)

theorem State.fetchFrom_rd (src : Nat) {f : Fld} (hf : f.key ≠ F.BOOT_STATUS_STAGE.key) : (s.fetchFrom src).rd f = s.rd f :=
  s.stageEnter_rd 2 hf

/-- What FUSE senses beside the keys: the grade, the strap and the spares used at manufacture. -/
def State.spareSense (s : State) : State :=
  (List.range 8).foldl (fun s k =>
    (s.wr (F.RAS_SPARE_SUMMARY_HI_FUSE k) (mget s.fuses.used k 0)).subFrom (F.RAS_SPARE_SUMMARY_FREE k) (mget s.fuses.used k 0)) s

theorem State.spareSense_touches : touches [.RAS_SPARE_SUMMARY, .RAS_SPARE_SUMMARY_HI] s s.spareSense :=
  (touches.refl s).foldl fun v k => ((touches.refl v).wr (f := F.RAS_SPARE_SUMMARY_HI_FUSE k) (List.mem_cons_of_mem _ List.mem_cons_self) _).wr
    (f := F.RAS_SPARE_SUMMARY_FREE k) List.mem_cons_self _

theorem State.fuseSense_eq : s.fuseSense = ((s.wr F.CHIP_ID_GRADE s.fuses.grade).wr F.BOOT_STATUS_SRC s.fuses.bootSrc).keyRegs.spareSense := rfl

theorem touches.fuses {rs : List RegName} {s t : State} (h : touches rs s t) : t.fuses = s.fuses := (congrArg State.fuses h.2 :)

/-- What FUSE_DONE shows: the strap, the keys and the floor, with the stage and its start (R396, R403). -/
theorem fuseDone_senses (hstage : s.stage = 0) (hheld : s.boot.powerHeld = false) : Runs .fuseDone s fun t =>
    t.stage = 1 ∧ t.boot.since = s.now ∧ t.rd F.BOOT_STATUS_SRC = s.fuses.bootSrc % 2 ^ F.BOOT_STATUS_SRC.width ∧
    t.rd F.BOOT_KEY_STATUS_SVN_FLOOR = s.fuses.svn % 2 ^ F.BOOT_KEY_STATUS_SVN_FLOOR.width ∧
    (∀ k : Fin 4, bit (t.rd F.BOOT_KEY_STATUS_PROGRAMMED) k = (mfind s.fuses.digests k).isSome ∧
      bit (t.rd F.BOOT_KEY_STATUS_REVOKED) k = s.fuses.revoked.contains k.val) ∧
    (∀ n : Fin 48, t.rd (F.BOOT_KEY_DIGEST_WORD n) = bits (mget s.fuses.digests (n / 12) 0) (32 * (n % 12)) 32) ∧ t.fuses = s.fuses := by
  have hgo : (decide (s.stage = 0) && !s.boot.powerHeld) = true := by
    rw [hheld, decide_eq_true hstage]
    rfl
  refine .of_exec (t := s.fuseSense.stageEnter 1) (congrArg Host.Outcome.next (if_pos hgo)) ?_
  generalize hu : (s.wr F.CHIP_ID_GRADE s.fuses.grade).wr F.BOOT_STATUS_SRC s.fuses.bootSrc = u
  have hfuses : u.fuses = s.fuses := hu ▸ rfl
  have hsense : s.fuseSense = u.keyRegs.spareSense := hu ▸ s.fuseSense_eq
  have hspares := u.keyRegs.spareSense_touches
  have hrd {f : Fld} (hstage : f.key ≠ F.BOOT_STATUS_STAGE.key) (hspare : f.reg ∉ [RegName.RAS_SPARE_SUMMARY, .RAS_SPARE_SUMMARY_HI]) :
      (s.fuseSense.stageEnter 1).rd f = u.keyRegs.rd f := by
    rw [State.stageEnter_rd _ 1 hstage, hsense, hspares.rd hspare]
  have hnow : s.fuseSense.now = s.now := by
    rw [hsense, hspares.now (by decide)]
    refine (u.keyRegs_rd (by decide) (by decide)).trans ?_
    rw [← hu]
    exact (State.rd_wr_of_reg_ne _ _ (by decide)).trans (State.rd_wr_of_reg_ne _ _ (by decide))
  refine ⟨State.stageEnter_stage _ (by decide), hnow, ?_, ?_, fun k => ?_, fun n => ?_, ?_⟩
  · rw [hrd (by decide) (by decide), u.keyRegs_rd (by decide) (by decide), ← hu]
    exact State.rd_wr_self ..
  · obtain ⟨-, -, hfloor⟩ := u.keyRegs_status 0
    rw [hrd (by decide) (by decide), hfloor, hfuses]
    rfl
  · obtain ⟨hprogrammed, hrevoked, -⟩ := u.keyRegs_status k
    rw [hrd (by decide) (by decide), hrd (by decide) (by decide), hprogrammed, hrevoked, hfuses]
    exact ⟨rfl, rfl⟩
  · rw [hrd (fun e => absurd (Fld.key_eq.1 e).1 (by nofun)) (show RegName.BOOT_KEY_DIGEST ∉ _ by decide), u.keyRegs_digest, hfuses]
  · rw [State.stageEnter_fuses, hsense, hspares.fuses, u.keyRegs_fuses, hfuses]

/-- The PLLs as the fuses record them at CLOCK_DONE (R364). -/
def State.pllSense (s : State) : State :=
  if mget s.fuses.map (key2 7 0) 0 ≠ 0 then (s.wr F.CLK_STATUS_A_STATE 3).wr F.CLK_STATUS_B_STATE 0
  else if mget s.fuses.map (key2 7 1) 0 ≠ 0 then s.wr F.CLK_STATUS_B_STATE 3 else s

theorem State.pllSense_changes : changes [F.CLK_STATUS_A_STATE, F.CLK_STATUS_B_STATE] s s.pllSense := by
  unfold State.pllSense
  split
  · exact ((changes.refl s).wr (by decide) 3).wr (by decide) 0
  · split
    · exact (changes.refl s).wr (by decide) 3
    · exact .refl s

/-- CLOCK_DONE in its stage: the references show, and the fetch starts from the first source (R364, R400, R403). -/
theorem clockDone_fetches (a b : Bool) (hstage : s.stage = 1) : Runs (.clockDone a b) s fun t =>
    t.stage = 2 ∧ t.on F.CLK_STATUS_REF0_OK = a ∧ t.on F.CLK_STATUS_REF1_OK = b ∧ t.boot.image = none ∧
    (s.fuses.bootSrc = 1 → t.boot.source = 3 ∧ t.boot.waitGo = true) ∧ (s.fuses.bootSrc ≠ 1 → t.boot.source = 1 ∧ t.boot.waitGo = false) := by
  generalize hu : (s.wrB F.CLK_STATUS_REF0_OK a).wrB F.CLK_STATUS_REF1_OK b = u
  have hfuses : u.pllSense.fuses = s.fuses := u.pllSense_changes.fuses.trans (hu ▸ rfl)
  have hexec : exec (.clockDone a b) s = .next (u.pllSense.fetchFrom (if u.pllSense.fuses.bootSrc = 1 then 3 else 1)) := by
    rw [← hu]
    refine congrArg Host.Outcome.next ((if_neg (not_not.2 hstage)).trans ?_)
    unfold State.pllSense
    simp only [decide_eq_true_eq]
  have hkept {f : Fld} (hstage : f.key ≠ F.BOOT_STATUS_STAGE.key)
      (hpll : ∀ g ∈ [F.CLK_STATUS_A_STATE, F.CLK_STATUS_B_STATE], f.key ≠ g.key) (src : Nat) : (u.pllSense.fetchFrom src).rd f = u.rd f :=
    (State.fetchFrom_rd _ src hstage).trans (u.pllSense_changes.1 f hpll)
  rw [hfuses] at hexec
  refine .of_exec hexec ⟨State.fetchFrom_stage .., ?_, ?_, rfl, fun h => ?_, fun h => ?_⟩
  · rw [State.on_congr (hkept (by decide) (by decide) _), ← hu, State.on_congr (State.rd_wrB_of_lo_ne _ _ (by decide))]
    exact State.on_wrB_self _ _ (by decide)
  · rw [State.on_congr (hkept (by decide) (by decide) _), ← hu]
    exact State.on_wrB_self _ _ (by decide)
  · rw [if_pos h]
    exact ⟨rfl, rfl⟩
  · rw [if_neg h]
    exact ⟨rfl, rfl⟩

/-! ### BOOT_PCIE_GO, FETCH and VERIFY (R395, R401 to R403, R405) -/

theorem bootPcieGo_eq {q : Requester} (hq : s.grants q true = true) (heth : viaEth q = false) :
    exec (.bootPcieGo q) s = .next (s.pcieGo q) := if_neg (by rw [hq, heth]; decide)

/-- BOOT_PCIE_GO in each stage (R402, R405). -/
theorem bootPcieGo_goes (q : Requester) (hq : s.grants q true = true) :
    (viaEth q = true → Runs (.bootPcieGo q) s fun t => t = s) ∧
    (viaEth q = false →
      (s.stage = 2 → s.boot.waitGo = true → Runs (.bootPcieGo q) s fun t => t.boot = { s.boot with waitGo := false } ∧
        t.on F.BOOT_PCIE_GO_GO = true ∧ changes [F.BOOT_PCIE_GO_GO] s { t with boot := s.boot }) ∧
      (s.stage = 7 → s.fuses.bootSrc ≠ 0 → Runs (.bootPcieGo q) s fun t =>
        t.stage = 2 ∧ t.boot.source = 3 ∧ t.boot.waitGo = false ∧ t.boot.image = none) ∧
      (s.stage = 7 → s.fuses.bootSrc = 0 → Runs (.bootPcieGo q) s fun t =>
        t.on F.BOOT_PCIE_GO_GO = true ∧ changes [F.BOOT_PCIE_GO_GO] s t) ∧
      (s.stage ≠ 7 → s.stage ≠ 2 ∨ s.boot.waitGo = false → Runs (.bootPcieGo q) s (discarded q (regAddr .BOOT_PCIE_GO 0) s.stage 0 s))) := by
  refine ⟨fun heth => .of_exec (if_pos (by rw [heth, Bool.or_true])) rfl, fun heth => ?_⟩
  have hexec := bootPcieGo_eq s hq heth
  have hnowait {c : Bool} (h : s.stage ≠ 2 ∨ c = false) : ¬(decide (s.stage = 2) && c) = true := by
    rcases h with h | h
    · rw [decide_eq_false h]; exact Bool.false_ne_true
    · rw [h, Bool.and_false]; exact Bool.false_ne_true
  have hon : (s.wrB F.BOOT_PCIE_GO_GO true).on F.BOOT_PCIE_GO_GO = true := State.on_wrB_self s true (by decide)
  have hset : changes [F.BOOT_PCIE_GO_GO] s (s.wrB F.BOOT_PCIE_GO_GO true) := (changes.refl s).wrB List.mem_cons_self true
  refine ⟨fun hstage hwait => ?_, fun hstage hsrc => ?_, fun hstage hsrc => ?_, fun hne hno => ?_⟩
  · refine .of_exec (hexec.trans (congrArg Host.Outcome.next (if_pos (by rw [decide_eq_true hstage, hwait]; rfl)))) ⟨rfl, hon, hset⟩
  · have hne : s.stage ≠ 2 := by rw [hstage]; decide
    refine .of_exec (hexec.trans (congrArg Host.Outcome.next ((if_neg (hnowait (.inl hne))).trans
      ((if_pos hstage).trans (if_neg hsrc))))) ⟨State.fetchFrom_stage _ 3, rfl, rfl, rfl⟩
  · have hne : s.stage ≠ 2 := by rw [hstage]; decide
    exact .of_exec (hexec.trans (congrArg Host.Outcome.next ((if_neg (hnowait (.inl hne))).trans
      ((if_pos hstage).trans (if_pos hsrc))))) ⟨hon, hset⟩
  · exact .of_exec (hexec.trans (congrArg Host.Outcome.next ((if_neg (hnowait hno)).trans (if_neg hne)))) (s.discard_discarded ..)

/-- FETCH_DONE ends FETCH once no GO is waited for (R403). -/
theorem fetchDone_fetches (im : Image) :
    (s.stage ≠ 2 ∨ s.boot.waitGo = true → Runs (.fetchDone im) s fun t => t = s) ∧
    (s.stage = 2 → s.boot.waitGo = false → Runs (.fetchDone im) s fun t =>
      t.stage = 3 ∧ t.boot.image = some im ∧ t.boot.since = s.now ∧ changes [F.BOOT_STATUS_STAGE] s { t with boot := s.boot }) := by
  refine ⟨fun hno => ?_, fun hstage hwait => ?_⟩
  · refine .of_exec (congrArg Host.Outcome.next (if_neg ?_)) rfl
    rcases hno with h | h
    · rw [decide_eq_false h]; exact Bool.false_ne_true
    · rw [h, Bool.not_true, Bool.and_false]; exact Bool.false_ne_true
  · refine .of_exec (congrArg Host.Outcome.next (if_pos (by rw [decide_eq_true hstage, hwait]; rfl))) ?_
    exact ⟨s.stageEnter_stage (n := 3) (by decide), rfl, rfl, s.stageEnter_changes 3⟩

/-- What a rejected image leaves in BOOT_ERR (R395). -/
theorem State.imageRejected_records (code : Nat) :
    (s.imageRejected code false).rd F.BOOT_ERR_CODE = code % 2 ^ F.BOOT_ERR_CODE.width ∧ (s.imageRejected code false).on F.BOOT_ERR_STAGED = false ∧
    (s.imageRejected code false).rd F.BOOT_ERR_COUNT = min (s.rd F.BOOT_ERR_COUNT + 1) (2 ^ F.BOOT_ERR_COUNT.width - 1) ∧
    (s.imageRejected code false).intBit .boot 0 1 = true ∧ (s.imageRejected code false).boot = s.boot ∧
    (s.imageRejected code false).fuses = s.fuses := by
  have hevent {u : State} {f : Fld} (hf : f.key ≠ F.BOOT_INT_STATUS_BITS.key) : (u.raise .boot 0 1).rd f = u.rd f := u.rd_raise_ne .boot 0 1 hf
  unfold State.imageRejected State.satAdd
  dsimp only
  rw [State.intBit_raise_self _ .boot 0 1 (by decide), State.raise_boot, State.raise_fuses, hevent (by decide), hevent (by decide),
    State.on_congr (hevent (by decide))]
  refine ⟨?_, ?_, ?_, rfl, rfl, rfl⟩
  · rw [State.rd_wr_of_lo_ne _ _ (by decide), State.rd_wrB_of_lo_ne _ _ (by decide), State.rd_wr_of_lo_ne _ _ (by decide), State.rd_wr_self]
  · rw [State.on_congr (State.rd_wr_of_lo_ne _ _ (by decide))]
    exact State.on_wrB_self _ _ (by decide)
  · rw [State.rd_wr_self, State.rd_wrB_of_lo_ne _ _ (by decide), State.rd_wr_of_lo_ne _ _ (by decide), State.rd_wr_of_lo_ne _ _ (by decide)]
    exact Nat.mod_eq_of_lt (Nat.lt_of_le_of_lt (min_le_right _ _) (by decide))

end Stages

/-- A boot that fails stops in FAILED, with its interrupt (R403). -/
theorem State.bootFailed_stops (s : State) :
    (∀ f : Fld, f.key ≠ F.BOOT_STATUS_STAGE.key → f.key ≠ F.BOOT_INT_STATUS_BITS.key → s.bootFailed.rd f = s.rd f) ∧
    s.bootFailed.boot.image = none ∧ (s.intBit .boot 0 1 = true → s.bootFailed.intBit .boot 0 1 = true) ∧
    s.bootFailed.stage = 7 ∧ s.bootFailed.intBit .boot 0 3 = true := by
  have hentered (f : Fld) (hf : f.key ≠ F.BOOT_STATUS_STAGE.key) :
      ((s.stageEnter 7).updBoot fun b => { b with image := none }).rd f = s.rd f := s.stageEnter_rd 7 hf
  unfold State.bootFailed
  refine ⟨fun f hstage hbits => (State.rd_raise_ne _ .boot 0 3 hbits).trans (hentered f hstage), by rw [State.raise_boot]; rfl, fun hbit => ?_,
    ?_, State.intBit_raise_self _ .boot 0 3 (by decide)⟩
  · refine State.intBit_raise_of_intBit ?_ .boot 0 3
    rw [← hbit]
    exact congrArg (bit · 1) (hentered _ (by decide))
  · exact (State.rd_raise_ne _ .boot 0 3 (by decide)).trans (s.stageEnter_stage (n := 7) (by decide))

/-- The source that is tried after an image that was rejected (R400, R401). -/
theorem State.nextSource_tries (s : State) :
    (∀ f : Fld, f.key ≠ F.BOOT_STATUS_STAGE.key → f.key ≠ F.BOOT_INT_STATUS_BITS.key → s.nextSource.rd f = s.rd f) ∧
    s.nextSource.boot.image = none ∧ (s.intBit .boot 0 1 = true → s.nextSource.intBit .boot 0 1 = true) ∧
    (s.boot.source = 1 → s.nextSource.stage = 2 ∧ s.nextSource.boot.source = 2) ∧
    (s.boot.source = 2 → 2 ≤ s.fuses.bootSrc → s.nextSource.stage = 2 ∧ s.nextSource.boot.source = 3 ∧ s.nextSource.boot.waitGo = true) ∧
    (s.boot.source = 2 → s.fuses.bootSrc < 2 → s.nextSource.stage = 7 ∧ s.nextSource.intBit .boot 0 3 = true) ∧
    (s.boot.source = 3 → s.nextSource.stage = 7 ∧ s.nextSource.intBit .boot 0 3 = true) := by
  have hfetch (n : Nat) : (∀ f : Fld, f.key ≠ F.BOOT_STATUS_STAGE.key → f.key ≠ F.BOOT_INT_STATUS_BITS.key → (s.fetchFrom n).rd f = s.rd f) ∧
      (s.fetchFrom n).boot.image = none ∧ (s.intBit .boot 0 1 = true → (s.fetchFrom n).intBit .boot 0 1 = true) :=
    ⟨fun f hstage _ => s.fetchFrom_rd n hstage, rfl, fun hbit => hbit ▸ congrArg (bit · 1) (s.fetchFrom_rd n (by decide))⟩
  obtain ⟨hreads, himage, hbit, hstage, hfailed⟩ := s.bootFailed_stops
  unfold State.nextSource
  split
  next h1 =>
    obtain ⟨hreads, himage, hbit⟩ := hfetch 2
    exact ⟨hreads, himage, hbit, fun _ => ⟨s.fetchFrom_stage 2, rfl⟩, fun h => absurd (h1.symm.trans h) (by decide),
      fun h => absurd (h1.symm.trans h) (by decide), fun h => absurd (h1.symm.trans h) (by decide)⟩
  next h2 =>
    split
    next hpcie =>
      obtain ⟨hreads, himage, hbit⟩ := hfetch 3
      exact ⟨hreads, himage, hbit, fun h => absurd (h2.symm.trans h) (by decide), fun _ _ => ⟨s.fetchFrom_stage 3, rfl, rfl⟩,
        fun _ h => absurd h (Nat.not_lt.2 hpcie), fun h => absurd (h2.symm.trans h) (by decide)⟩
    next hpcie =>
      exact ⟨hreads, himage, hbit, fun h => absurd (h2.symm.trans h) (by decide), fun _ h => absurd h hpcie, fun _ _ => ⟨hstage, hfailed⟩,
        fun h => absurd (h2.symm.trans h) (by decide)⟩
  next h1 h2 => exact ⟨hreads, himage, hbit, fun h => absurd h h1, fun h => absurd h h2, fun h => absurd h h2, fun _ => ⟨hstage, hfailed⟩⟩

section Verify

variable (s : State)

/-- VERIFY_DONE (R395, R402, R403): no key, a valid image, or the next source. -/
theorem verifyDone_judges :
    (s.stage ≠ 3 ∨ s.boot.image = none → Runs .verifyDone s fun t => t = s) ∧
    (∀ im, s.boot.image = some im → s.stage = 3 →
      (s.fuses.digests = [] → Runs .verifyDone s fun t => t.stage = 8 ∧ t.intBit .boot 0 2 = true ∧ t.boot.image = some im) ∧
      (s.fuses.digests ≠ [] → s.imageError im false = 0 → Runs .verifyDone s fun t =>
        t.stage = 4 ∧ t.boot.image = some im ∧ changes [F.BOOT_STATUS_STAGE] s { t with boot := s.boot }) ∧
      (s.fuses.digests ≠ [] → s.imageError im false ≠ 0 → Runs .verifyDone s fun t =>
        t = (s.imageRejected (s.imageError im false) false).nextSource)) := by
  refine ⟨fun hno => ?_, fun im him hstage => ?_⟩
  · by_cases hstage : s.stage = 3
    · have him := hno.resolve_left (not_not.2 hstage)
      refine .of_exec (congrArg Host.Outcome.next ((if_neg (not_not.2 hstage)).trans ?_)) rfl
      rw [him]
    · exact .of_exec (congrArg Host.Outcome.next (if_pos hstage)) rfl
  · have hexec : exec .verifyDone s = .next (if s.fuses.digests.isEmpty then (s.stageEnter 8).raise .boot 0 2
        else match s.imageError im false with
          | 0 => s.stageEnter 4
          | c => (s.imageRejected c false).nextSource) := by
      refine congrArg Host.Outcome.next ((if_neg (not_not.2 hstage)).trans ?_)
      rw [him] <;> rfl
    refine ⟨fun hblank => ?_, fun hkeys hvalid => ?_, fun hkeys hbad => ?_⟩
    · refine .of_exec (hexec.trans (congrArg Host.Outcome.next (if_pos (by rw [hblank]; rfl)))) ⟨?_, ?_, ?_⟩
      · exact (State.rd_raise_ne _ .boot 0 2 (by decide)).trans (s.stageEnter_stage (n := 8) (by decide))
      · exact State.intBit_raise_self _ .boot 0 2 (by decide)
      · rw [State.raise_boot]
        exact him
    · rw [if_neg (by rw [List.isEmpty_eq_false_iff.2 hkeys]; exact Bool.false_ne_true), hvalid] at hexec
      exact .of_exec hexec ⟨s.stageEnter_stage (n := 4) (by decide), him, s.stageEnter_changes 4⟩
    · rw [if_neg (by rw [List.isEmpty_eq_false_iff.2 hkeys]; exact Bool.false_ne_true)] at hexec
      refine .of_exec hexec ?_
      split
      next h0 => exact absurd h0 hbad
      next => rfl

end Verify

/-! ### LOAD and RESTORE (R391, R403) -/

/-- The sections of an image take effect, and then its REG_INIT lists (R391, R392). -/
def State.loadSecs (s : State) (im : Image) : State :=
  im.secs.foldl (fun s c => s.loadInit c) ((im.secs.foldl (fun s c => s.loadSec c) s).imageStore 0 im.bytes)

/-- The image runs, and the boot registers show it. -/
def State.loadShow (s : State) (im : Image) : State :=
  State.stageEnter (State.updBoot ((((s.wr F.BOOT_STATUS_USED s.boot.source).wr F.BOOT_KEY_STATUS_SLOT_USED im.keySlot).wr F.BOOT_IMAGE_IMAGE_ID
    im.imageId).wr F.BOOT_IMAGE_SVN_SVN im.svn) (fun b => { b with running := some im, image := none })) 5

theorem State.loadShow_shows (s : State) (im : Image) :
    (s.loadShow im).stage = 5 ∧ (s.loadShow im).boot.running = some im ∧ (s.loadShow im).boot.image = none ∧
    (s.loadShow im).rd F.BOOT_IMAGE_IMAGE_ID = im.imageId % 2 ^ F.BOOT_IMAGE_IMAGE_ID.width ∧
    (s.loadShow im).rd F.BOOT_IMAGE_SVN_SVN = im.svn % 2 ^ F.BOOT_IMAGE_SVN_SVN.width ∧
    (s.loadShow im).rd F.BOOT_KEY_STATUS_SLOT_USED = im.keySlot % 2 ^ F.BOOT_KEY_STATUS_SLOT_USED.width := by
  have hentered {f : Fld} (hf : f.key ≠ F.BOOT_STATUS_STAGE.key) : (s.loadShow im).rd f =
      ((((s.wr F.BOOT_STATUS_USED s.boot.source).wr F.BOOT_KEY_STATUS_SLOT_USED im.keySlot).wr F.BOOT_IMAGE_IMAGE_ID im.imageId).wr
        F.BOOT_IMAGE_SVN_SVN im.svn).rd f := State.stageEnter_rd _ 5 hf
  refine ⟨State.stageEnter_stage _ (by decide), rfl, rfl, ?_, ?_, ?_⟩
  · rw [hentered (by decide), State.rd_wr_of_reg_ne _ _ (by decide), State.rd_wr_self]
  · rw [hentered (by decide), State.rd_wr_self]
  · rw [hentered (by decide), State.rd_wr_of_reg_ne _ _ (by decide), State.rd_wr_of_reg_ne _ _ (by decide), State.rd_wr_self]

/-- LOAD_DONE after the training of HBM runs the image (R403). -/
theorem loadDone_loads (s : State) :
    (s.stage ≠ 4 ∨ s.trained = false ∨ s.boot.image = none → Runs .loadDone s fun t => t = s) ∧
    (∀ im, s.boot.image = some im → s.stage = 4 → s.trained = true → Runs .loadDone s fun t => t = (s.loadSecs im).loadShow im) := by
  refine ⟨fun hno => ?_, fun im him hstage htrained => ?_⟩
  · by_cases hgo : s.stage = 4 ∧ s.trained = true
    · obtain ⟨hstage, htrained⟩ := hgo
      have him : s.boot.image = none := (hno.resolve_left (not_not.2 hstage)).resolve_left (by rw [htrained]; decide)
      refine .of_exec (congrArg Host.Outcome.next ((if_neg ?_).trans ?_)) rfl
      · rw [htrained, decide_eq_false (not_not.2 hstage)]
        decide
      · rw [him]
    · refine .of_exec (congrArg Host.Outcome.next (if_pos ?_)) rfl
      cases htrained : s.trained with
      | false => rw [Bool.not_false, Bool.or_true]
      | true => rw [decide_eq_true (show s.stage ≠ 4 from fun hstage => hgo ⟨hstage, htrained⟩), Bool.true_or]
  · refine .of_exec (congrArg Host.Outcome.next ((if_neg ?_).trans ?_)) rfl
    · rw [htrained, decide_eq_false (not_not.2 hstage)]
      decide
    · rw [him]
      rfl

/-- RESTORE_DONE reaches READY, with its interrupt (R403). -/
theorem restoreDone_readies (s : State) :
    (s.stage ≠ 5 → Runs .restoreDone s fun t => t = s) ∧
    (s.stage = 5 → Runs .restoreDone s fun t => t.stage = 6 ∧ t.intBit .boot 0 0 = true) := by
  refine ⟨fun hno => .of_exec (congrArg Host.Outcome.next (if_pos hno)) rfl,
    fun hstage => .of_exec (congrArg Host.Outcome.next (if_neg (not_not.2 hstage))) ⟨?_, State.intBit_raise_self _ .boot 0 0 (by decide)⟩⟩
  exact (State.rd_raise_ne _ .boot 0 0 (by decide)).trans (State.stageEnter_stage _ (n := 6) (by decide))

/-- Settles O57: resets, and each stage of the boot with the command that ends it. -/
theorem bootFlow : Obligations.BootFlow := by
  refine ⟨deviceReset_resets, fun s => ?_⟩
  obtain ⟨hunverified, hverified⟩ := verifyDone_judges s
  obtain ⟨hunloaded, hloaded⟩ := loadDone_loads s
  obtain ⟨hunrestored, hrestored⟩ := restoreDone_readies s
  refine ⟨.of_exec rfl ⟨rfl, rfl⟩, fun hno => ?_, fun hstage hheld => fuseDone_senses s hstage hheld,
    fun a b => ⟨fun hno => .of_exec (congrArg Host.Outcome.next (if_pos hno)) rfl, fun hstage => clockDone_fetches s a b hstage⟩,
    fun q hq => bootPcieGo_goes s q hq, fun im => fetchDone_fetches s im, hunverified, fun im him hstage => ?_,
    hunloaded, fun im him hstage htrained => ?_, hunrestored, hrestored⟩
  · refine .of_exec (congrArg Host.Outcome.next (if_neg ?_)) rfl
    rcases hno with h | h
    · rw [decide_eq_false h]; exact Bool.false_ne_true
    · rw [h, Bool.not_true, Bool.and_false]; exact Bool.false_ne_true
  · obtain ⟨hblank, hvalid, hbad⟩ := hverified im him hstage
    refine ⟨hblank, hvalid, fun hkeys herror => ?_⟩
    obtain ⟨t, ht, rfl⟩ := hbad hkeys herror
    obtain ⟨hcode, hstaged, hcount, hbit, hboot, hfuses⟩ := s.imageRejected_records (s.imageError im false)
    obtain ⟨hreads, himage, hkept, h1, h2pcie, h2, h3⟩ := (s.imageRejected (s.imageError im false) false).nextSource_tries
    rw [hboot] at h1 h3
    rw [hboot, hfuses] at h2pcie h2
    refine .of_exec ht ⟨?_, ?_, ?_, hkept hbit, himage, h1, h2pcie, h2, h3⟩
    · exact (hreads _ (by decide) (by decide)).trans hcode
    · exact (State.on_congr (hreads _ (by decide) (by decide))).trans hstaged
    · exact (hreads _ (by decide) (by decide)).trans hcount
  · obtain ⟨t, ht, rfl⟩ := hloaded im him hstage htrained
    exact .of_exec ht ((s.loadSecs im).loadShow_shows im)

end Sys2Proof.Machine
end

section
/-! SUPPORT. Requests for replacement and their policy, rate windows, ageing and repair (R437, R444 to R449, R452). -/

set_option Elab.async false

namespace Sys2Proof.Machine

/-! ### What an event leaves of the state of RAS -/

section EventRas

variable (s : State)

theorem State.tidemark_ras (src logSeq : Nat) : ∃ e, (s.tidemark src logSeq).ras = { s.ras with edge := e } := by
  unfold State.tidemark
  dsimp only
  split_ifs
  · exact ⟨s.ras.edge, rfl⟩
  · exact ⟨_, rfl⟩
  · exact ⟨s.ras.edge, rfl⟩
  · exact ⟨_, rfl⟩

/-- An event changes the edge that waits in the state of RAS, and nothing else there. -/
theorem State.event_ras (c code unit detail : Nat) (inj : Bool) : ∃ e, (s.event c code unit detail inj).ras = { s.ras with edge := e } := by
  unfold State.event
  extract_lets s1 s2 s3 s4
  have h2 : s2.ras = s.ras := State.raise_ras ..
  have h3 : s3.ras = s.ras := (State.logWrite_ras ..).trans h2
  have h4 : ∃ e, s4.ras = { s.ras with edge := e } := by
    unfold s4
    split_ifs
    · exact ⟨s.ras.edge, h2⟩
    · exact (State.tidemark_ras s3 _ _).imp fun e he => he.trans (by rw [h3])
    · exact ⟨s.ras.edge, h3⟩
  split
  · exact h4
  · exact h4

end EventRas

theorem eventRest.mat {s t : State} (h : eventRest s t) : t.mat = s.mat := (congrArg State.mat h :)

/-! ### Requests and the policy (R449) -/

section Requests

variable (s : State)

theorem State.lifeVoid_sets : s.lifeVoid.on F.RAS_SPARE_STATUS_LIFE_VOID = true ∧ mget s.lifeVoid.spareMap (key2 9 0) 0 = 1 :=
  ⟨State.on_wrB_self s (f := F.RAS_SPARE_STATUS_LIFE_VOID) true (by decide), mget_mset_self s.spareMap (key2 9 0) 1 0⟩

theorem State.lifeVoid_rd {f : Fld} (hf : f.key ≠ F.RAS_SPARE_STATUS_LIFE_VOID.key) : s.lifeVoid.rd f = s.rd f :=
  State.rd_wr_ne s 1 hf

/-- A request that leaves its slot touches the slot and REQS. -/
theorem State.requestClear_readsOff (n : Nat) :
    readsOff [.RAS_SPARE_REQ, .RAS_SPARE_REQ_OBJ, .RAS_SPARE_REQ_AGE, .RAS_SPARE_STATUS] s (s.requestClear n) := by
  unfold State.requestClear State.requestCount
  dsimp only
  refine readsOff.wr ?_ (f := F.RAS_SPARE_STATUS_REQS) (by decide) _
  refine readsOff.congr (s := ((((s.wr (F.RAS_SPARE_REQ_VALID n) 0).wr (F.RAS_SPARE_REQ_KIND n) 0).wr (F.RAS_SPARE_REQ_TRIGGER n) 0).wr
    (F.RAS_SPARE_REQ_OBJ_OBJECT n) 0).wr (F.RAS_SPARE_REQ_AGE_AGE n) 0) ?_ rfl
  have hslot {u : State} {f : Fld} (h : readsOff [RegName.RAS_SPARE_REQ, .RAS_SPARE_REQ_OBJ, .RAS_SPARE_REQ_AGE, .RAS_SPARE_STATUS] s u)
      (hf : f.reg ∈ [RegName.RAS_SPARE_REQ, .RAS_SPARE_REQ_OBJ, .RAS_SPARE_REQ_AGE, .RAS_SPARE_STATUS]) := h.wr hf 0
  exact hslot (hslot (hslot (hslot (hslot (.refl s) List.mem_cons_self) List.mem_cons_self) List.mem_cons_self)
    (List.mem_cons_of_mem _ List.mem_cons_self)) (List.mem_cons_of_mem _ (List.mem_cons_of_mem _ List.mem_cons_self))

/-- The slot is not VALID any more, and the others stay. -/
theorem State.requestClear_valid (n m : Nat) :
    (s.requestClear n).rd (F.RAS_SPARE_REQ_VALID m) = if m = n then 0 else s.rd (F.RAS_SPARE_REQ_VALID m) := by
  have hlast : (s.requestClear n).rd (F.RAS_SPARE_REQ_VALID m) = (s.wr (F.RAS_SPARE_REQ_VALID n) 0).rd (F.RAS_SPARE_REQ_VALID m) := by
    have hslot : (((((s.wr (F.RAS_SPARE_REQ_VALID n) 0).wr (F.RAS_SPARE_REQ_KIND n) 0).wr (F.RAS_SPARE_REQ_TRIGGER n) 0).wr
        (F.RAS_SPARE_REQ_OBJ_OBJECT n) 0).wr (F.RAS_SPARE_REQ_AGE_AGE n) 0).rd (F.RAS_SPARE_REQ_VALID m) =
        (s.wr (F.RAS_SPARE_REQ_VALID n) 0).rd (F.RAS_SPARE_REQ_VALID m) := by
      rw [State.rd_wr_of_reg_ne _ _ (by nofun), State.rd_wr_of_reg_ne _ _ (by nofun), State.rd_wr_of_lo_ne _ _ (by nofun),
        State.rd_wr_of_lo_ne _ _ (by nofun)]
    exact (State.rd_wr_of_reg_ne (f := F.RAS_SPARE_STATUS_REQS) _ _ (by nofun)).trans hslot
  rw [hlast]
  split
  next h => rw [h]; exact State.rd_wr_self ..
  next h => exact State.rd_wr_ne _ _ fun e => h (Fld.key_eq.1 e).2.1

/-- Off dismisses every request that waits and sets LIFE_VOID (R449). -/
theorem State.setSpareMode_off {m : Nat} (hm : 2 ≤ m) (hmax : m < 4) :
    (s.setSpareMode m).rd F.RAS_SPARE_POLICY_MODE = m ∧ (s.setSpareMode m).on F.RAS_SPARE_STATUS_LIFE_VOID = true ∧
    mget (s.setSpareMode m).spareMap (key2 9 0) 0 = 1 ∧ ∀ n : Fin 16, (s.setSpareMode m).on (F.RAS_SPARE_REQ_VALID n) = false := by
  generalize hdismissed : (List.range 16).foldl (fun s n => if s.on (F.RAS_SPARE_REQ_VALID n) then s.requestClear n else s)
    (s.wr F.RAS_SPARE_POLICY_MODE m) = u
  have hset : s.setSpareMode m = u.lifeVoid := by
    rw [← hdismissed]
    exact if_pos hm
  have hreads : readsOff [.RAS_SPARE_REQ, .RAS_SPARE_REQ_OBJ, .RAS_SPARE_REQ_AGE, .RAS_SPARE_STATUS] (s.wr F.RAS_SPARE_POLICY_MODE m) u := by
    rw [← hdismissed]
    refine List.foldlRecOn (motive := readsOff _ (s.wr F.RAS_SPARE_POLICY_MODE m)) _ _ (readsOff.refl _) fun v hv n _ => ?_
    exact readsOff.ite (hv.trans (v.requestClear_readsOff n)) hv
  have hvalid (n : Fin 16) : u.rd (F.RAS_SPARE_REQ_VALID n) = 0 := by
    rw [← hdismissed]
    refine foldl_establishes (p := fun v : State => v.rd (F.RAS_SPARE_REQ_VALID n) = 0) (a := n.val) (fun v => ?_) (fun v k hv => ?_)
      (List.mem_range.2 n.isLt) _
    · split
      next => rw [v.requestClear_valid n n, if_pos rfl]
      next hoff => simpa [State.on] using hoff
    · split
      next => rw [v.requestClear_valid k n, hv, ite_self]
      next => exact hv
  obtain ⟨hvoid, hmap⟩ := u.lifeVoid_sets
  rw [hset]
  refine ⟨?_, hvoid, hmap, fun n => ?_⟩
  · rw [u.lifeVoid_rd (by decide), hreads _ (by decide)]
    exact (State.rd_wr_self ..).trans (Nat.mod_eq_of_lt hmax)
  · unfold State.on
    rw [u.lifeVoid_rd (fun e => absurd (Fld.key_eq.1 e).1 (by nofun)), hvalid]
    rfl

/-- SPARE_REQ_AGE (R449): the age of a request that waits, and LIFE_VOID at 24 hours. -/
theorem spareReqAge_ages (n : Fin 16) {h : Nat} (hh : h = (s.now - mget s.ras.reqAt n 0) / hourTicks) :
    (s.on (F.RAS_SPARE_REQ_VALID n) = false → Runs (.spareReqAge n) s fun t => t = s) ∧
    (s.on (F.RAS_SPARE_REQ_VALID n) = true → Runs (.spareReqAge n) s fun t =>
      t.rd (F.RAS_SPARE_REQ_AGE_AGE n) = min h 65535 % 2 ^ (F.RAS_SPARE_REQ_AGE_AGE n).width ∧
      (s.rd (F.RAS_SPARE_REQ_AGE_AGE n) < 24 → 24 ≤ h → t.on F.RAS_SPARE_STATUS_LIFE_VOID = true ∧ mget t.spareMap (key2 9 0) 0 = 1) ∧
      (h < 24 → changes [F.RAS_SPARE_REQ_AGE_AGE n] s t)) := by
  refine ⟨fun hoff => .of_exec (congrArg Host.Outcome.next (if_pos (by rw [hoff]; rfl))) rfl, fun hon => ?_⟩
  have hage : (s.wr (F.RAS_SPARE_REQ_AGE_AGE n) (min h 65535)).rd (F.RAS_SPARE_REQ_AGE_AGE n) =
      min h 65535 % 2 ^ (F.RAS_SPARE_REQ_AGE_AGE n).width := State.rd_wr_self ..
  obtain ⟨code, unit, detail, hexec⟩ : ∃ code unit detail, exec (.spareReqAge n) s = .next (
      if decide (s.rd (F.RAS_SPARE_REQ_AGE_AGE n) < 24) && decide (h ≥ 24) then
        ((s.wr (F.RAS_SPARE_REQ_AGE_AGE n) (min h 65535)).event notice code unit detail).lifeVoid
      else s.wr (F.RAS_SPARE_REQ_AGE_AGE n) (min h 65535)) := by
    rw [hh]
    exact ⟨_, _, _, congrArg Host.Outcome.next (if_neg (by rw [hon]; decide))⟩
  refine .of_exec hexec ?_
  split
  next hlate =>
    obtain ⟨-, h24⟩ := Bool.and_eq_true_iff.1 hlate
    refine ⟨?_, fun _ _ => State.lifeVoid_sets _, fun hearly => absurd (of_decide_eq_true h24) (Nat.not_le.2 hearly)⟩
    rw [State.lifeVoid_rd _ (fun e => absurd (Fld.key_eq.1 e).1 (by nofun)),
      State.event_readsOff _ _ _ _ _ _ _ (show RegName.RAS_SPARE_REQ_AGE ∉ eventRegs by decide)]
    exact hage
  next hearly =>
    refine ⟨hage, fun hold h24 => absurd ?_ hearly, fun _ => (changes.refl s).wr List.mem_cons_self _⟩
    rw [decide_eq_true hold, decide_eq_true (show h ≥ 24 from h24)]
    rfl

/-- SPARE_MODE_WRITE (R449, R462): ASK_KINDS takes its value, and MODE unless a RETURN test runs. -/
theorem spareModeWrite_sets (q : Requester) (mode : Fin 4) (ask : Fin 256) (hq : s.grants q false = true) :
    (s.rd F.RAS_SPARE_POLICY_MODE = mode → Runs (.spareModeWrite q mode ask) s fun t =>
      t.rd F.RAS_SPARE_POLICY_ASK_KINDS = ask.val % 2 ^ F.RAS_SPARE_POLICY_ASK_KINDS.width ∧ changes [F.RAS_SPARE_POLICY_ASK_KINDS] s t) ∧
    (s.rd F.RAS_SPARE_POLICY_MODE ≠ mode → s.on F.RAS_SPARE_STATUS_BUSY = true → Runs (.spareModeWrite q mode ask) s
      (discarded q (regAddr .RAS_SPARE_POLICY 0) 1 0 (s.wr F.RAS_SPARE_POLICY_ASK_KINDS ask))) ∧
    (s.rd F.RAS_SPARE_POLICY_MODE ≠ mode → s.on F.RAS_SPARE_STATUS_BUSY = false → mode.val < 2 → Runs (.spareModeWrite q mode ask) s fun t =>
      t.rd F.RAS_SPARE_POLICY_MODE = mode ∧ t.rd F.RAS_SPARE_POLICY_ASK_KINDS = ask.val % 2 ^ F.RAS_SPARE_POLICY_ASK_KINDS.width ∧
      changes [F.RAS_SPARE_POLICY_MODE, F.RAS_SPARE_POLICY_ASK_KINDS] s t) ∧
    (s.rd F.RAS_SPARE_POLICY_MODE ≠ mode → s.on F.RAS_SPARE_STATUS_BUSY = false → 2 ≤ mode.val → Runs (.spareModeWrite q mode ask) s fun t =>
      t.rd F.RAS_SPARE_POLICY_MODE = mode ∧ t.on F.RAS_SPARE_STATUS_LIFE_VOID = true ∧ mget t.spareMap (key2 9 0) 0 = 1 ∧
      (∀ n : Fin 16, t.on (F.RAS_SPARE_REQ_VALID n) = false)) := by
  generalize hu : s.wr F.RAS_SPARE_POLICY_ASK_KINDS ask = u
  have hmode : u.rd F.RAS_SPARE_POLICY_MODE = s.rd F.RAS_SPARE_POLICY_MODE := hu ▸ State.rd_wr_of_lo_ne _ _ (by decide)
  have hbusy : u.on F.RAS_SPARE_STATUS_BUSY = s.on F.RAS_SPARE_STATUS_BUSY := hu ▸ State.on_congr (State.rd_wr_of_reg_ne _ _ (by decide))
  have hask : u.rd F.RAS_SPARE_POLICY_ASK_KINDS = ask.val % 2 ^ F.RAS_SPARE_POLICY_ASK_KINDS.width := hu ▸ State.rd_wr_self ..
  have hchanges : changes [F.RAS_SPARE_POLICY_ASK_KINDS] s u := hu ▸ (changes.refl s).wr List.mem_cons_self _
  have hexec : exec (.spareModeWrite q mode ask) s = .next (if s.rd F.RAS_SPARE_POLICY_MODE = mode then u
      else if s.on F.RAS_SPARE_STATUS_BUSY then u.locked q .RAS_SPARE_POLICY 0 1 else u.setSpareMode mode) := by
    rw [← hmode, ← hbusy, ← hu]
    exact if_neg (by rw [hq]; decide)
  refine ⟨fun hsame => ?_, fun hne hon => ?_, fun hne hoff hlow => ?_, fun hne hoff hhigh => ?_⟩
  · rw [if_pos hsame] at hexec
    exact .of_exec hexec ⟨hask, hchanges⟩
  · rw [if_neg hne, if_pos hon] at hexec
    exact .of_exec hexec (u.discard_discarded ..)
  · have hset : u.setSpareMode mode = u.wr F.RAS_SPARE_POLICY_MODE mode := if_neg (Nat.not_le.2 hlow)
    rw [if_neg hne, if_neg (by rw [hoff]; exact Bool.false_ne_true), hset] at hexec
    refine .of_exec hexec ⟨(State.rd_wr_self ..).trans (Nat.mod_eq_of_lt mode.isLt), (State.rd_wr_of_lo_ne _ _ (by decide)).trans hask,
      (hchanges.mono fun _ hg => List.mem_cons_of_mem _ hg).wr List.mem_cons_self _⟩
  · rw [if_neg hne, if_neg (by rw [hoff]; exact Bool.false_ne_true)] at hexec
    exact .of_exec hexec (u.setSpareMode_off hhigh mode.isLt)

end Requests

/-! ### Rate windows (R446) -/

section Windows

variable (s : State)

theorem spareRateWindow_eq (hdue : s.due .rate 0 hourTicks = true) :
    exec (.spareRateWindow []) s = .next (s.ras.rate.foldl (fun s e =>
      if 1 ≤ (Nat.unpair e.1).1 && (Nat.unpair e.1).1 ≤ 5 && e.2 ≥ s.rd (F.RAS_SPARE_THRESH_THRESH (rateField (Nat.unpair e.1).1))
      then s.spareRequest (Nat.unpair e.1).1 (Nat.unpair e.1).2 0 else s) ((s.ran .rate 0 s.now).updRas (fun r => { r with rate := [] }))) :=
  congrArg Host.Outcome.next (if_neg (by rw [hdue]; decide))

/-- SPARE_RATE_WINDOW of one rate (R446): at its threshold it becomes a request. -/
theorem spareRateWindow_one {e : Nat × Nat} (he : s.ras.rate = [e]) (hdue : s.due .rate 0 hourTicks = true) (hlow : 1 ≤ (Nat.unpair e.1).1)
    (hhigh : (Nat.unpair e.1).1 ≤ 5) :
    (s.rd (F.RAS_SPARE_THRESH_THRESH (rateField (Nat.unpair e.1).1)) ≤ e.2 → Runs (.spareRateWindow []) s fun t =>
      t = ((s.ran .rate 0 s.now).updRas (fun r => { r with rate := [] })).spareRequest (Nat.unpair e.1).1 (Nat.unpair e.1).2 0) ∧
    (e.2 < s.rd (F.RAS_SPARE_THRESH_THRESH (rateField (Nat.unpair e.1).1)) → Runs (.spareRateWindow []) s fun t =>
      t.ras = { s.ras with rate := [] } ∧ { t with timers := s.timers, ras := s.ras } = s) := by
  have hexec := spareRateWindow_eq s hdue
  rw [he, List.foldl_cons, List.foldl_nil, decide_eq_true hlow, decide_eq_true hhigh] at hexec
  refine ⟨fun hreach => .of_exec (hexec.trans (congrArg Host.Outcome.next (if_pos ?_))) rfl,
    fun hbelow => .of_exec (hexec.trans (congrArg Host.Outcome.next (if_neg fun hreach =>
      absurd (of_decide_eq_true hreach) (Nat.not_le.2 hbelow)))) ⟨rfl, rfl⟩⟩
  exact decide_eq_true hreach

end Windows

/-! ### Ageing (R448) -/

/-- A day of one monitor: its value joins the days, and 24 hours are in service. -/
def State.ageDay (s : State) (m : Nat) : State :=
  s.updRas fun r => { r with ages := minsert r.ages m { mget s.ras.ages m {} with
    days := ((mget s.ras.ages m {}).now :: (mget s.ras.ages m {}).days).take 30, hours := (mget s.ras.ages m {}).hours + 24 } }

/-- One step of AGEING_CHECK: a monitor's day, and a request where its trend asks for one. -/
def State.ageStep (s : State) (m : Nat) : State :=
  if !ageTrigger (s.rd (F.RAS_SPARE_THRESH_THRESH 6)) (s.rd (F.RAS_SPARE_THRESH_THRESH 7)) (mget s.ras.ages m {}).now
      (mget s.ras.ages m {}).days[29]? ((mget s.ras.ages m {}).hours + 24) then s.ageDay m
  else if m < 160 then if (s.ageDay m).pipeState m = 0 then (s.ageDay m).spareRequest 3 m 1 else s.ageDay m
  else if m < 196 then
    if (s.ageDay m).rd (F.ATL_ENG_STATUS_STATE (m - 160)) = 0 then (s.ageDay m).spareRequest 5 (m - 160) 1 else s.ageDay m
  else (s.ageDay m).event notice (codeOf .ras 0 0x84) m (mget s.ras.ages m {}).now

/-- From `s` to `t` the first `n` monitors have had their day, and nothing else changes. -/
def agedTo (s : State) (n : Nat) (t : State) : Prop :=
  (∀ m < n, (mget t.ras.ages m {}).now = (mget s.ras.ages m {}).now ∧ (mget t.ras.ages m {}).hours = (mget s.ras.ages m {}).hours + 24 ∧
    (mget t.ras.ages m {}).days = ((mget s.ras.ages m {}).now :: (mget s.ras.ages m {}).days).take 30) ∧
  (∀ m, n ≤ m → mget t.ras.ages m {} = mget s.ras.ages m {}) ∧ { t with ras := { t.ras with ages := s.ras.ages } } = s

theorem agedTo.step {s t : State} {n : Nat} (h : agedTo s n t)
    (hquiet : ageTrigger (s.rd (F.RAS_SPARE_THRESH_THRESH 6)) (s.rd (F.RAS_SPARE_THRESH_THRESH 7)) (mget s.ras.ages n {}).now
      (mget s.ras.ages n {}).days[29]? ((mget s.ras.ages n {}).hours + 24) = false) : agedTo s (n + 1) (t.ageStep n) := by
  obtain ⟨haged, hlater, hrest⟩ := h
  have hregs (f : Fld) : t.rd f = s.rd f := State.rd_congr (congrArg State.regs hrest :) f
  have hday : t.ageStep n = t.ageDay n := by
    unfold State.ageStep
    rw [hregs, hregs, hlater n le_rfl, hquiet]
    rfl
  have hfound (m : Nat) : mget (t.ageDay n).ras.ages m {} = if m = n then { mget t.ras.ages n {} with
      days := ((mget t.ras.ages n {}).now :: (mget t.ras.ages n {}).days).take 30, hours := (mget t.ras.ages n {}).hours + 24 }
      else mget t.ras.ages m {} := by
    unfold State.ageDay State.updRas mget
    dsimp only
    rw [mfind_minsert]
    split <;> rfl
  rw [hday]
  refine ⟨fun m hm => ?_, fun m hm => ?_, hrest⟩
  · rw [hfound]
    rcases Nat.lt_succ_iff_lt_or_eq.1 hm with hlt | rfl
    · rw [if_neg (Nat.ne_of_lt hlt)]
      exact haged m hlt
    · rw [if_pos rfl, hlater m le_rfl]
      exact ⟨rfl, rfl, rfl⟩
  · rw [hfound, if_neg (by omega)]
    exact hlater m (by omega)

/-- AGEING_CHECK where no monitor's trend asks for a request (R448). -/
theorem ageingCheck_quiet (s : State) (hdue : s.due .age 1 dayTicks = true)
    (hquiet : ∀ m : Fin 256, ageTrigger (s.rd (F.RAS_SPARE_THRESH_THRESH 6)) (s.rd (F.RAS_SPARE_THRESH_THRESH 7)) (mget s.ras.ages m {}).now
      (mget s.ras.ages m {}).days[29]? ((mget s.ras.ages m {}).hours + 24) = false) :
    Runs .ageingCheck s fun t =>
      (∀ m : Fin 256, (mget t.ras.ages m {}).now = (mget s.ras.ages m {}).now ∧ (mget t.ras.ages m {}).hours = (mget s.ras.ages m {}).hours + 24 ∧
        (mget t.ras.ages m {}).days = ((mget s.ras.ages m {}).now :: (mget s.ras.ages m {}).days).take 30) ∧
      { t with timers := s.timers, ras := { t.ras with ages := s.ras.ages } } = s := by
  have hexec : exec .ageingCheck s = .next ((List.range 256).foldl State.ageStep (s.ran .age 1 s.now)) :=
    congrArg Host.Outcome.next (if_neg (by rw [hdue]; decide))
  have hall (n : Nat) (hn : n ≤ 256) : agedTo (s.ran .age 1 s.now) n ((List.range n).foldl State.ageStep (s.ran .age 1 s.now)) := by
    induction n with
    | zero => exact ⟨fun m hm => absurd hm (Nat.not_lt_zero m), fun _ _ => rfl, rfl⟩
    | succ n ih =>
      rw [List.range_succ, List.foldl_append, List.foldl_cons, List.foldl_nil]
      exact (ih (by omega)).step (hquiet ⟨n, by omega⟩)
  have hlast := hall 256 le_rfl
  generalize (List.range 256).foldl State.ageStep (s.ran .age 1 s.now) = t at hexec hlast
  obtain ⟨haged, -, hrest⟩ := hlast
  refine .of_exec hexec ⟨fun m => haged m m.isLt, ?_⟩
  exact congrArg (fun x : State => { x with timers := s.timers }) hrest

/-- The trend rule of R448, case by case. -/
theorem ageTrigger_cases (limit horizon p hours v : Nat) :
    (hours < 720 → ageTrigger limit horizon p (some v) hours = false) ∧
    (720 ≤ hours → limit ≤ p → ageTrigger limit horizon p none hours = true) ∧
    (720 ≤ hours → p < limit → v < p → (ageTrigger limit horizon p (some v) hours = true ↔ (limit - p) * 30 ≤ horizon * (p - v))) ∧
    (p < limit → p ≤ v → ageTrigger limit horizon p (some v) hours = false) := by
  unfold ageTrigger
  refine ⟨fun hyoung => ?_, fun hold hover => ?_, fun hold hunder hrises => ?_, fun hunder hfalls => ?_⟩
  · rw [decide_eq_false (Nat.not_le.2 hyoung), Bool.false_and]
  · rw [decide_eq_true hold, decide_eq_true hover]
    rfl
  · rw [decide_eq_true hold, decide_eq_false (Nat.not_le.2 hunder), Bool.true_and, Bool.false_or, Option.any_some, decide_eq_true hrises,
      Bool.true_and, decide_eq_true_eq]
  · rw [decide_eq_false (Nat.not_le.2 hunder), Bool.false_or, Option.any_some, decide_eq_false (Nat.not_lt.2 hfalls), Bool.false_and,
      Bool.and_false]

/-! ### Repair (R437, R444, R452) -/

section Repair

variable (s : State) (mac line : Nat) (col : Bool)

/-- A free spare of a memory is one of its rows, or columns, and not in use. -/
theorem State.sramSpare_free {k : Nat} (hk : s.sramSpare mac col = some k) : (col = true ↔ 4 ≤ k) ∧ k < 6 ∧ (mac, k) ∉ s.ras.repairs := by
  have hmem := List.mem_of_find?_eq_some hk
  have hfree := List.find?_some hk
  obtain ⟨hunused, -⟩ := Bool.and_eq_true_iff.1 hfree
  refine ⟨?_, ?_, fun h => ?_⟩
  · cases col
    · simp only [Bool.false_eq_true, if_false, List.mem_cons, List.not_mem_nil, or_false] at hmem
      constructor
      · nofun
      · omega
    · simp only [if_true, List.mem_cons, List.not_mem_nil, or_false] at hmem
      constructor
      · omega
      · exact fun _ => rfl
  · cases col
    · simp only [Bool.false_eq_true, if_false, List.mem_cons, List.not_mem_nil, or_false] at hmem
      omega
    · simp only [if_true, List.mem_cons, List.not_mem_nil, or_false] at hmem
      omega
  · rw [List.contains_iff_mem.2 h] at hunused
    cases hunused

/-- The memory's line is mapped to spare `k`, and the counts of spares follow. -/
def State.repairMap (s : State) (k : Nat) : State :=
  ((((s.updRas (fun r => { r with repairs := r.repairs ++ [(mac, k)] })).mapRecord 6 (8 * mac + k) (line + 1)).subFrom
    (F.RAS_SPARE_SUMMARY_FREE 6) 1).satAdd (F.RAS_SPARE_SUMMARY_HI_FAILED 6) 1).satAdd F.RAS_SPARE_STATUS_SWAPS 1

theorem softRepair_eq {k : Nat} (hk : s.sramSpare mac col = some k) :
    exec (.softRepair mac line col) s = .next ((s.repairMap mac line k).event degraded (codeOf .ras 0 0x82) mac line) := by
  refine congrArg Host.Outcome.next ?_
  rw [hk]
  rfl

theorem State.repairMap_maps (k : Nat) :
    mget (s.repairMap mac line k).spareMap (key2 6 (8 * mac + k)) 0 = line + 1 ∧
    (s.repairMap mac line k).ras.repairs = s.ras.repairs ++ [(mac, k)] ∧
    (s.repairMap mac line k).rd (F.RAS_SPARE_SUMMARY_FREE 6) = s.rd (F.RAS_SPARE_SUMMARY_FREE 6) - 1 ∧
    (s.repairMap mac line k).rd F.RAS_SPARE_STATUS_SWAPS =
      min (s.rd F.RAS_SPARE_STATUS_SWAPS + 1) (2 ^ F.RAS_SPARE_STATUS_SWAPS.width - 1) := by
  generalize hu : (s.updRas (fun r => { r with repairs := r.repairs ++ [(mac, k)] })).mapRecord 6 (8 * mac + k) (line + 1) = u
  have hmap : s.repairMap mac line k = ((u.subFrom (F.RAS_SPARE_SUMMARY_FREE 6) 1).satAdd (F.RAS_SPARE_SUMMARY_HI_FAILED 6) 1).satAdd
      F.RAS_SPARE_STATUS_SWAPS 1 := hu ▸ rfl
  have hrd (f : Fld) : u.rd f = s.rd f := hu ▸ rfl
  have hspare : mget u.spareMap (key2 6 (8 * mac + k)) 0 = line + 1 := by
    rw [← hu]
    exact mget_mset_self s.spareMap (key2 6 (8 * mac + k)) (line + 1) 0
  have hrepairs : u.ras.repairs = s.ras.repairs ++ [(mac, k)] := hu ▸ rfl
  rw [hmap]
  refine ⟨hspare, hrepairs, ?_, ?_⟩
  · unfold State.satAdd State.subFrom
    rw [State.rd_wr_of_reg_ne _ _ (by decide), State.rd_wr_of_reg_ne _ _ (by decide), State.rd_wr_self, hrd]
    exact Nat.mod_eq_of_lt (Nat.lt_of_le_of_lt (Nat.sub_le ..) (s.rd_lt _))
  · rw [State.rd_satAdd_self]
    unfold State.satAdd State.subFrom
    rw [State.rd_wr_of_reg_ne _ _ (by decide), State.rd_wr_of_reg_ne _ _ (by decide), hrd]

/-- SOFT_REPAIR (R445, R447, R452): a line is mapped to a free spare of its macro, or the memory has none. -/
theorem softRepair_repairs :
    (s.sramSpare mac col = none → Runs (.softRepair mac line col) s fun t => t = s.event degraded (codeOf .ras 0 0x86) mac line) ∧
    (∀ k, s.sramSpare mac col = some k → Runs (.softRepair mac line col) s fun t =>
      t.ras.repairs = s.ras.repairs ++ [(mac, k)] ∧ mget t.spareMap (key2 6 (8 * mac + k)) 0 = line + 1 ∧ (col = true ↔ 4 ≤ k) ∧ k < 6 ∧
      (mac, k) ∉ s.ras.repairs ∧ t.rd (F.RAS_SPARE_SUMMARY_FREE 6) = s.rd (F.RAS_SPARE_SUMMARY_FREE 6) - 1 ∧
      t.rd F.RAS_SPARE_STATUS_SWAPS = min (s.rd F.RAS_SPARE_STATUS_SWAPS + 1) (2 ^ F.RAS_SPARE_STATUS_SWAPS.width - 1)) := by
  refine ⟨fun hnone => .of_exec (congrArg Host.Outcome.next (by rw [hnone])) rfl, fun k hk => .of_exec (softRepair_eq s mac line col hk) ?_⟩
  obtain ⟨hkind, hmax, hunused⟩ := s.sramSpare_free mac col hk
  obtain ⟨hspare, hrepairs, hfree, hswaps⟩ := s.repairMap_maps mac line k
  obtain ⟨e, hras⟩ := State.event_ras (s.repairMap mac line k) degraded (codeOf .ras 0 0x82) mac line false
  refine ⟨?_, ?_, hkind, hmax, hunused, ?_, ?_⟩
  · rw [hras]
    exact hrepairs
  · rw [(State.event_rest ..).spareMap]
    exact hspare
  · rw [State.event_readsOff _ _ _ _ _ _ _ (by decide)]
    exact hfree
  · rw [State.event_readsOff _ _ _ _ _ _ _ (by decide)]
    exact hswaps

/-- TCAM_SCRUB of one entry (R437): a valid TCAM entry that fails its parity is lost. -/
theorem tcamScrub_scrubs (p : Fin 32) (tb ix : Nat) (hdue : s.due .tcam 0 16000000 = true) :
    ((s.layout p tb).any (fun l => l.kind = 1) = true → (s.entry p tb ix).valid = true → Runs (.tcamScrub [(p, tb, ix)]) s fun t =>
      t = (s.ran .tcam 0 s.now).entryLost (p / 2) (p % 2) tb ix ∧ (t.entry p tb ix).valid = false) ∧
    ((s.layout p tb).any (fun l => l.kind = 1) = false ∨ (s.entry p tb ix).valid = false → Runs (.tcamScrub [(p, tb, ix)]) s fun t =>
      { t with timers := s.timers } = s) := by
  have hexec : exec (.tcamScrub [(p, tb, ix)]) s = .next (if (s.layout p tb).any (fun l => l.kind = 1) && (s.entry p tb ix).valid then
      (s.ran .tcam 0 s.now).entryLost (p / 2) (p % 2) tb ix else s.ran .tcam 0 s.now) :=
    congrArg Host.Outcome.next (if_neg (by rw [hdue]; decide))
  refine ⟨fun htcam hvalid => ?_, fun hno => ?_⟩
  · rw [htcam, hvalid, if_pos (by decide)] at hexec
    refine .of_exec hexec ⟨rfl, ?_⟩
    have hpool : 2 * (p.val / 2) + p.val % 2 = p.val := Nat.div_add_mod p.val 2
    unfold State.entryLost State.entry
    rw [(State.event_rest ..).mat, hpool]
    unfold State.setEntry State.updMat
    dsimp only
    rw [mget_mset_self]
  · rw [if_neg (by rcases hno with h | h <;> rw [h] <;> simp)] at hexec
    exact .of_exec hexec rfl

end Repair

/-- Settles O59: requests and their policy, the hourly and daily judgements, and repair. -/
theorem sparingPolicy : Obligations.SparingPolicy := by
  intro s
  refine ⟨fun n h hh => spareReqAge_ages s n hh, fun q mode ask hq => spareModeWrite_sets s q mode ask hq,
    fun extra hdue => .of_exec (congrArg Host.Outcome.next (if_pos (by rw [show s.due .rate 0 hourTicks = false from hdue]; rfl))) rfl,
    fun hdue hrate => ?_, fun e he hdue hlow hhigh => spareRateWindow_one s he hdue hlow hhigh,
    fun hdue => .of_exec (congrArg Host.Outcome.next (if_pos (by rw [show s.due .age 1 dayTicks = false from hdue]; rfl))) rfl,
    fun hdue hquiet => ageingCheck_quiet s hdue hquiet, fun limit horizon p hours v => ageTrigger_cases limit horizon p hours v,
    fun mac line col => softRepair_repairs s mac line col,
    fun bad hdue => .of_exec (congrArg Host.Outcome.next (if_pos (by rw [hdue]; rfl))) rfl,
    fun p tb ix hdue => tcamScrub_scrubs s p tb ix hdue⟩
  have hexec := spareRateWindow_eq s hdue
  rw [hrate, List.foldl_nil] at hexec
  refine .of_exec hexec ?_
  have hras : { s.ras with rate := [] } = s.ras := by rw [← hrate]
  exact congrArg (fun r => { s with ras := r }) hras

end Sys2Proof.Machine
end

section
/-! SUPPORT. Tidemark sources, arming and the test access port (R453, R456, R457, R460 to R462). -/

set_option Elab.async false

namespace Sys2Proof.Machine

/-! ### Tidemark sources (R453) -/

section Source

variable {s : State} {src logSeq : Nat}

theorem State.tidemark_disabled (h : bit (s.rd F.RAS_TM_CFG_SRC_EN) src = false) : s.tidemark src logSeq = s :=
  if_pos (by rw [h]; rfl)

/-- Past the check of its enable, a source joins the edge of its tick, is ignored, or makes an edge. -/
theorem State.tidemark_enabled (h : bit (s.rd F.RAS_TM_CFG_SRC_EN) src = true) : s.tidemark src logSeq =
    if s.tmLast = some s.now then
      { s with ras := { s.ras with edge := s.ras.edge.map (fun e => e.join src logSeq (bit (s.rd F.RAS_TM_CFG_OUT_SRC) src)) } }
    else if s.tmLast.any (fun t => s.now - t < 1600) then s.satAdd F.RAS_TM_IGNORED_COUNT 1
    else
      { s with tmLast := some s.now,
               ras := { s.ras with edge := some { at_ := s.now + 8, sources := 2 ^ src, logSeq := logSeq,
                                                  out := bit (s.rd F.RAS_TM_CFG_OUT_SRC) src } } } :=
  if_neg (by rw [h]; decide)

/-- The first edge since the reset. -/
theorem State.tidemark_first (h : bit (s.rd F.RAS_TM_CFG_SRC_EN) src = true) (hlast : s.tmLast = none) : s.tidemark src logSeq =
    { s with tmLast := some s.now,
             ras := { s.ras with edge := some { at_ := s.now + 8, sources := 2 ^ src, logSeq := logSeq,
                                                out := bit (s.rd F.RAS_TM_CFG_OUT_SRC) src } } } := by
  rw [State.tidemark_enabled h, if_neg (by rw [hlast]; nofun), if_neg (by rw [hlast]; exact Bool.false_ne_true)]

theorem State.tidemark_joins {e : TmEdge} (h : bit (s.rd F.RAS_TM_CFG_SRC_EN) src = true) (hedge : s.ras.edge = some e)
    (hlast : s.tmLast = some s.now) : s.tidemark src logSeq =
    { s with ras := { s.ras with edge := some (e.join src logSeq (bit (s.rd F.RAS_TM_CFG_OUT_SRC) src)) } } := by
  rw [State.tidemark_enabled h, if_pos hlast, hedge]
  rfl

theorem State.tidemark_ignored {t0 : Nat} (h : bit (s.rd F.RAS_TM_CFG_SRC_EN) src = true) (hlast : s.tmLast = some t0) (hpast : t0 < s.now)
    (hnear : s.now - t0 < 1600) : s.tidemark src logSeq = s.satAdd F.RAS_TM_IGNORED_COUNT 1 := by
  rw [State.tidemark_enabled h, if_neg (by rw [hlast]; exact fun he => Nat.ne_of_lt hpast (Option.some.inj he)),
    if_pos (by rw [hlast]; exact decide_eq_true hnear)]

theorem State.tidemark_later {t0 : Nat} (h : bit (s.rd F.RAS_TM_CFG_SRC_EN) src = true) (hlast : s.tmLast = some t0) (hpast : t0 < s.now)
    (hfar : 1600 ≤ s.now - t0) : s.tidemark src logSeq =
    { s with tmLast := some s.now,
             ras := { s.ras with edge := some { at_ := s.now + 8, sources := 2 ^ src, logSeq := logSeq,
                                                out := bit (s.rd F.RAS_TM_CFG_OUT_SRC) src } } } := by
  rw [State.tidemark_enabled h, if_neg (by rw [hlast]; exact fun he => Nat.ne_of_lt hpast (Option.some.inj he)),
    if_neg (by rw [hlast]; exact fun he => Nat.not_lt.2 hfar (of_decide_eq_true he))]

end Source

section Edges

variable (s : State)

/-- TIDEMARK_IN_EDGE (R453): an edge at the pin is source 0. -/
theorem tidemarkInEdge_edges :
    (bit (s.rd F.RAS_TM_CFG_SRC_EN) 0 = false → Runs .tidemarkInEdge s fun t => t = s) ∧
    (bit (s.rd F.RAS_TM_CFG_SRC_EN) 0 = true → s.tmLast = none → Runs .tidemarkInEdge s fun t =>
      t.tmLast = some s.now ∧ t.ras.edge = some { at_ := s.now + 8, sources := 1, logSeq := 0, out := bit (s.rd F.RAS_TM_CFG_OUT_SRC) 0 } ∧
      { t with tmLast := s.tmLast, ras := { t.ras with edge := s.ras.edge } } = s) ∧
    (∀ e, s.ras.edge = some e → bit (s.rd F.RAS_TM_CFG_SRC_EN) 0 = true → s.tmLast = some s.now → Runs .tidemarkInEdge s fun t =>
      t.ras.edge = some { e with sources := e.sources ||| 1, out := e.out || bit (s.rd F.RAS_TM_CFG_OUT_SRC) 0 } ∧ { t with ras := s.ras } = s) ∧
    (∀ t0, s.tmLast = some t0 → t0 < s.now → s.now - t0 < 1600 → bit (s.rd F.RAS_TM_CFG_SRC_EN) 0 = true → Runs .tidemarkInEdge s fun t =>
      t.rd F.RAS_TM_IGNORED_COUNT = min (s.rd F.RAS_TM_IGNORED_COUNT + 1) (2 ^ F.RAS_TM_IGNORED_COUNT.width - 1) ∧
      changes [F.RAS_TM_IGNORED_COUNT] s t) :=
  ⟨fun hoff => .of_exec (congrArg Host.Outcome.next (State.tidemark_disabled hoff)) rfl,
    fun hon hlast => .of_exec (congrArg Host.Outcome.next (State.tidemark_first hon hlast)) ⟨rfl, rfl, rfl⟩,
    fun _ hedge hon hlast => .of_exec (congrArg Host.Outcome.next (State.tidemark_joins hon hedge hlast)) ⟨rfl, rfl⟩,
    fun _ hlast hpast hnear hon => .of_exec (congrArg Host.Outcome.next (State.tidemark_ignored hon hlast hpast hnear))
      ⟨State.rd_satAdd_self .., (changes.refl s).satAdd List.mem_cons_self 1⟩⟩

/-- RAS_TM_FIRE (R453): a write of FIRE is source 2. -/
theorem rasTmFire_edges {q : Requester} (hq : s.grants q false = true) :
    (bit (s.rd F.RAS_TM_CFG_SRC_EN) 2 = false → Runs (.rasTmFire q) s fun t => t = s) ∧
    (bit (s.rd F.RAS_TM_CFG_SRC_EN) 2 = true → s.tmLast = none → Runs (.rasTmFire q) s fun t =>
      t.tmLast = some s.now ∧ t.ras.edge = some { at_ := s.now + 8, sources := 4, logSeq := 0, out := bit (s.rd F.RAS_TM_CFG_OUT_SRC) 2 } ∧
      { t with tmLast := s.tmLast, ras := { t.ras with edge := s.ras.edge } } = s) ∧
    (∀ e, s.ras.edge = some e → bit (s.rd F.RAS_TM_CFG_SRC_EN) 2 = true → s.tmLast = some s.now → Runs (.rasTmFire q) s fun t =>
      t.ras.edge = some { e with sources := e.sources ||| 4, out := e.out || bit (s.rd F.RAS_TM_CFG_OUT_SRC) 2 } ∧ { t with ras := s.ras } = s) ∧
    (∀ t0, s.tmLast = some t0 → t0 < s.now → 1600 ≤ s.now - t0 → bit (s.rd F.RAS_TM_CFG_SRC_EN) 2 = true → Runs (.rasTmFire q) s fun t =>
      t.tmLast = some s.now ∧ t.ras.edge.map (fun e => (e.at_, e.sources)) = some (s.now + 8, 4)) := by
  have hexec : exec (.rasTmFire q) s = .next (s.tidemark 2 0) := if_neg (by rw [hq]; decide)
  exact ⟨fun hoff => .of_exec (hexec.trans (congrArg Host.Outcome.next (State.tidemark_disabled hoff))) rfl,
    fun hon hlast => .of_exec (hexec.trans (congrArg Host.Outcome.next (State.tidemark_first hon hlast))) ⟨rfl, rfl, rfl⟩,
    fun _ hedge hon hlast => .of_exec (hexec.trans (congrArg Host.Outcome.next (State.tidemark_joins hon hedge hlast))) ⟨rfl, rfl⟩,
    fun _ hlast hpast hfar hon => .of_exec (hexec.trans (congrArg Host.Outcome.next (State.tidemark_later hon hlast hpast hfar))) ⟨rfl, rfl⟩⟩

/-- JTAG_TM_FIRE (R453, R460): the TAP's instruction fires the same source. -/
theorem jtagTmFire_edges :
    (bit (s.rd F.RAS_TM_CFG_SRC_EN) 2 = false → Runs .jtagTmFire s fun t =>
      t.harb.tapIr = 0x20 ∧ { t with harb := { t.harb with tapIr := s.harb.tapIr } } = s) ∧
    (bit (s.rd F.RAS_TM_CFG_SRC_EN) 2 = true → s.tmLast = none → Runs .jtagTmFire s fun t =>
      t.harb.tapIr = 0x20 ∧ t.tmLast = some s.now ∧
      t.ras.edge = some { at_ := s.now + 8, sources := 4, logSeq := 0, out := bit (s.rd F.RAS_TM_CFG_OUT_SRC) 2 } ∧ t.snap = s.snap) :=
  ⟨fun hoff => .of_exec (congrArg Host.Outcome.next (State.tidemark_disabled (s := s.tap 0x20) hoff)) ⟨rfl, rfl⟩,
    fun hon hlast => .of_exec (congrArg Host.Outcome.next (State.tidemark_first (s := s.tap 0x20) hon hlast)) ⟨rfl, rfl, rfl, rfl⟩⟩

end Edges

/-! ### Arming (R457, R462) -/

section Arm

variable (s : State) (on : Bool)

/-- ARM says nothing of what is set up to perturb. -/
theorem State.perturbs_arm : (s.wrB F.DBG_CTL_ARM on).perturbs = s.perturbs := by
  unfold State.perturbs State.wrB
  simp (disch := decide) only [State.rd_wr_of_reg_ne]

/-- ARM with its ACTIVE, where DBG_PERTURB_PFC names no port. -/
def State.armed : State := (s.wrB F.DBG_CTL_ARM on).wrB F.DBG_CTL_ACTIVE (on && s.perturbs)

theorem State.armed_eq (hport : 512 ≤ s.rd F.DBG_PERTURB_PFC_PORT) :
    (s.wrB F.DBG_CTL_ARM on).perturbUpdate (s.rd F.DBG_PERTURB_PFC_PORT) = s.armed on := by
  unfold State.perturbUpdate State.armed
  rw [if_neg (Nat.not_lt.2 hport), State.on_wrB_self _ _ (by decide), State.perturbs_arm]

theorem State.armed_shows : (s.armed on).on F.DBG_CTL_ARM = on ∧ (s.armed on).on F.DBG_CTL_ACTIVE = (on && s.perturbs) := by
  refine ⟨?_, State.on_wrB_self _ _ (by decide)⟩
  exact (State.on_congr (State.rd_wrB_of_lo_ne _ _ (by decide))).trans (State.on_wrB_self _ _ (by decide))

theorem State.armed_signals : signals [F.DBG_CTL_ARM, F.DBG_CTL_ACTIVE, F.DBG_INT_STATUS_BITS] s (s.armed on) :=
  ((signals.refl s).wrB (by simp) _).wrB (by simp) _

/-- An event of the block leaves ARM and ACTIVE. -/
theorem State.armed_raise (e : Nat) :
    ((s.armed on).raise .dbg 0 e).on F.DBG_CTL_ARM = on ∧ ((s.armed on).raise .dbg 0 e).on F.DBG_CTL_ACTIVE = (on && s.perturbs) ∧
    signals [F.DBG_CTL_ARM, F.DBG_CTL_ACTIVE, F.DBG_INT_STATUS_BITS] s ((s.armed on).raise .dbg 0 e) := by
  obtain ⟨harm, hactive⟩ := s.armed_shows on
  exact ⟨(State.on_congr (State.rd_raise_of_reg_ne _ (by decide))).trans harm,
    (State.on_congr (State.rd_raise_of_reg_ne _ (by decide))).trans hactive, (s.armed_signals on).raise (by simp [intStatus]) e⟩

/-- DBG_ARM_WRITE (R457, R462): ARM takes writes from PF0 and JTAG alone. -/
theorem dbgArmWrite_arms {q : Requester} (hq : s.grants q false = true) :
    (s.on F.DBG_CTL_ARM = on → Runs (.dbgArmWrite q on) s fun t => t = s) ∧
    (s.on F.DBG_CTL_ARM ≠ on → q ≠ .pf0 → q ≠ .jtag → Runs (.dbgArmWrite q on) s (discarded q (regAddr .DBG_CTL 0) 0 2 s)) ∧
    (s.on F.DBG_CTL_ARM ≠ on → q = .pf0 ∨ q = .jtag → 512 ≤ s.rd F.DBG_PERTURB_PFC_PORT → Runs (.dbgArmWrite q on) s fun t =>
      t.on F.DBG_CTL_ARM = on ∧ t.on F.DBG_CTL_ACTIVE = (on && s.perturbs) ∧ (on = true → t.intBit .dbg 0 0 = true) ∧
      (on = false → s.perturbs = true → t.intBit .dbg 0 1 = true) ∧
      signals [F.DBG_CTL_ARM, F.DBG_CTL_ACTIVE, F.DBG_INT_STATUS_BITS] s t) := by
  have hexec : exec (.dbgArmWrite q on) s = .next (
      if s.on F.DBG_CTL_ARM = on then s
      else if q = .pf0 || q = .jtag then
        let t := (s.wrB F.DBG_CTL_ARM on).perturbUpdate (s.rd F.DBG_PERTURB_PFC_PORT)
        if on then t.raise .dbg 0 0 else if s.perturbs then t.raise .dbg 0 1 else t
      else s.discard q (regAddr .DBG_CTL 0) 0 2) := if_neg (by rw [hq]; decide)
  refine ⟨fun hsame => .of_exec (hexec.trans (congrArg _ (if_pos hsame))) rfl, fun hnew hpf0 hjtag => ?_, fun hnew hfrom hport => ?_⟩
  · refine .of_exec (hexec.trans (congrArg _ ((if_neg hnew).trans (if_neg ?_)))) (s.discard_discarded ..)
    rw [decide_eq_false hpf0, decide_eq_false hjtag]
    decide
  · have hq : (decide (q = .pf0) || decide (q = .jtag)) = true := by
      rcases hfrom with rfl | rfl <;> rfl
    refine .of_exec (hexec.trans (congrArg _ ((if_neg hnew).trans (if_pos hq)))) ?_
    dsimp only
    rw [s.armed_eq on hport]
    cases on with
    | true =>
      obtain ⟨harm, hactive, hsignals⟩ := s.armed_raise true 0
      exact ⟨harm, hactive, fun _ => State.intBit_raise_self _ _ _ _ (by decide), nofun, hsignals⟩
    | false =>
      rw [if_neg Bool.false_ne_true]
      split
      next hacts =>
        obtain ⟨harm, hactive, hsignals⟩ := s.armed_raise false 1
        exact ⟨harm, hactive, nofun, fun _ _ => State.intBit_raise_self _ _ _ _ (by decide), hsignals⟩
      next hrests =>
        obtain ⟨harm, hactive⟩ := s.armed_shows false
        exact ⟨harm, hactive, nofun, fun _ hacts => absurd hacts hrests, s.armed_signals false⟩

end Arm

/-! ### The test access port (R460, R461) -/

section Event

variable (s : State)

theorem State.logWrite_intBit (c code unit detail : Nat) (inj : Bool) (e : Nat) :
    (s.logWrite c code unit detail inj).intBit .ras 0 e = s.intBit .ras 0 e := by
  have hrest : readsOff [.RAS_LOG_WR, .RAS_LOG_OVERRUN] s (s.logWrite c code unit detail inj) := by
    have hself := readsOff.refl (rs := [.RAS_LOG_WR, .RAS_LOG_OVERRUN]) s
    unfold State.logWrite
    refine readsOff.ite (hself.congr rfl) ?_
    extract_lets seq e old s1 s2 s3
    have h1 : readsOff [.RAS_LOG_WR, .RAS_LOG_OVERRUN] s s1 := readsOff.ite (hself.wr (f := F.RAS_LOG_OVERRUN_COUNT) (by decide) _) hself
    have h3 : readsOff [.RAS_LOG_WR, .RAS_LOG_OVERRUN] s s3 := (h1.wr (f := F.RAS_LOG_WR_SEQ) (by decide) _).congr rfl
    exact readsOff.ite (h3.congr rfl) h3
  rw [State.intBit, hrest _ (by decide), State.intBit]

theorem State.tidemark_intBit (src logSeq e : Nat) : (s.tidemark src logSeq).intBit .ras 0 e = s.intBit .ras 0 e := by
  unfold State.tidemark
  dsimp only
  split_ifs
  · rfl
  · rfl
  · rw [State.intBit, State.satAdd, State.rd_wr_of_reg_ne _ _ (by decide), State.intBit]
  · rfl

/-- An event sets the bit of its class in RAS_INT_STATUS (R436). -/
theorem State.event_intBit {c : Nat} (hc : c < 32) (code unit detail : Nat) (inj : Bool) :
    (s.event c code unit detail inj).intBit .ras 0 c = true := by
  unfold State.event
  extract_lets s1 s2 s3 s4
  have h2 : s2.intBit .ras 0 c = true := State.intBit_raise_self _ _ _ _ hc
  have h3 : s3.intBit .ras 0 c = true := (State.logWrite_intBit ..).trans h2
  have h4 : s4.intBit .ras 0 c = true := by
    unfold s4
    split_ifs
    · exact h2
    · exact (State.tidemark_intBit ..).trans h3
    · exact h3
  split
  · exact h4
  · exact h4

end Event

theorem eventRest.path {s t : State} (h : eventRest s t) : t.path = s.path := (congrArg State.path h :)

theorem eventRest.harb {s t : State} (h : eventRest s t) : t.harb = s.harb := (congrArg State.harb h :)

theorem eventRest.scanStop {s t : State} (h : eventRest s t) : t.scanStop = s.scanStop := (congrArg State.scanStop h :)

section Port

variable (s : State)

/-- An instruction of R461 that stops forwarding. -/
theorem State.tapStop_stops (code : Nat) : (s.tapStop code).harb.tapIr = code ∧ (s.tapStop code).scanStop = true ∧
    (s.tapStop code).intBit .ras 0 notice = true ∧ (s.tapStop code).path = s.path := by
  have hrest : eventRest { s.fresh.2.tap code with scanStop := true } (s.tapStop code) := State.event_rest ..
  exact ⟨congrArg HarbSt.tapIr hrest.harb, hrest.scanStop, State.event_intBit _ (by decide) .., hrest.path⟩

/-- The instructions of the TAP that shift data out (R456, R460). -/
theorem jtag_shifts :
    (∀ tdi : Bytes, Runs (.jtagBypass tdi) s fun t => t.harb.tapIr = 0xFF ∧ t.out = .tdo (leBytes tdi.length (2 * ofLe tdi)) :: s.out ∧
      { t with out := s.out, harb := { t.harb with tapIr := s.harb.tapIr } } = s) ∧
    Runs .jtagIdcode s (fun t => t.harb.tapIr = 0x01 ∧ t.out = .tdo (leBytes 4 0xB0A0947D) :: s.out ∧
      { t with out := s.out, harb := { t.harb with tapIr := s.harb.tapIr } } = s) ∧
    (∀ data : Bytes, Runs (.jtagSamplePreload data) s fun t => t.harb.tapIr = 0x02 ∧ t.harb.boundary = data ∧ t.out.tail = s.out ∧
      t.free = s.free + 1 ∧ { t with out := s.out, free := s.free, harb := s.harb } = s) ∧
    Runs .jtagTmRead s (fun t => t.harb.tapIr = 0x21 ∧ t.out = .tdo s.snapBytes :: s.out ∧
      { t with out := s.out, harb := { t.harb with tapIr := s.harb.tapIr } } = s) :=
  ⟨fun _ => .of_exec rfl ⟨rfl, rfl, rfl⟩, .of_exec rfl ⟨rfl, rfl, rfl⟩, fun _ => .of_exec rfl ⟨rfl, rfl, rfl, rfl, rfl⟩,
    .of_exec rfl ⟨rfl, rfl, rfl⟩⟩

end Port

/-- Settles O60: a source is disabled, joins the edge of its tick, is ignored, or makes an edge; ARM by who writes it; the TAP. -/
theorem tidemarkAndTap : Obligations.TidemarkAndTap := by
  unfold Obligations.TidemarkAndTap
  refine ⟨fun s => ?_, fun s => ?_⟩
  · obtain ⟨hoff, hfirst, hjoin, hnear⟩ := tidemarkInEdge_edges s
    obtain ⟨htapOff, htapFirst⟩ := jtagTmFire_edges s
    refine ⟨hoff, hfirst, hjoin, hnear, fun q hq => ?_, htapOff, htapFirst⟩
    obtain ⟨hfireOff, hfireFirst, hfireJoin, hfireLater⟩ := rasTmFire_edges s hq
    exact ⟨hfireOff, hfireFirst, hfireJoin, hfireLater, fun on => dbgArmWrite_arms s on hq⟩
  · obtain ⟨hbypass, hidcode, hsample, hread⟩ := jtag_shifts s
    exact ⟨hbypass, hidcode, hsample, .of_exec rfl (s.tapStop_stops 0x03), .of_exec rfl (s.tapStop_stops 0x04),
      .of_exec rfl (s.tapStop_stops 0x05), .of_exec rfl (s.tapStop_stops 0x06), .of_exec rfl (s.tapStop_stops 0x07), hread⟩

end Sys2Proof.Machine
end

section
/-! SUPPORT. The power manager's own operations (R362 to R377): the core divider, its voltage, the issue duty, the power states and
overrides. -/

set_option Elab.async false

namespace Sys2Proof.Machine

/-! ### The core divider, its voltage and the issue duty -/

/-- The fields in which the core divider's request, its voltage and the issue duty show. -/
def driveFields : List Fld :=
  [F.CLK_CORE_PENDING, F.CLK_CORE_DEFERRED_BY_DROOP, F.PWR_STATUS_VOLT_PINNED, F.PWR_STATUS_DUTY, F.PWR_STATUS_HOLDING_OFF,
   F.PWR_PINNED_CNT_VOLT, F.PWR_INT_STATUS_BITS, F.ATL_STATUS_HOLDING_OFF]

/-- From `s` to `t` the divider, its voltage and the duty follow the power manager: only their fields, their part of the manager's own
state and messages change, and its events that have shown still show. -/
structure State.Drives (s t : State) : Prop where
  reads : readsBut driveFields s t
  events : ∀ e, s.intBit .pwr 0 e = true → t.intBit .pwr 0 e = true
  rest : { t with regs := s.regs, out := s.out, msixPend := s.msixPend,
                  pwr := { t.pwr with target := s.pwr.target, raisedAt := s.pwr.raisedAt, voltBeyond := s.pwr.voltBeyond } } = s

section Pin

variable (s : State)

/-- A pinned bit is set and counted, and its event shows (R373). -/
theorem State.pin_signals (b c : Fld) : signals [b, c, F.PWR_INT_STATUS_BITS] s (s.pin b c) := by
  have hcounted : signals [b, c, F.PWR_INT_STATUS_BITS] s ((s.wrB b true).satAdd c 1) :=
    ((signals.refl s).wrB (by simp) true).satAdd (by simp) 1
  unfold State.pin
  dsimp only
  split
  · exact hcounted
  · exact hcounted.raise (by simp [intStatus]) 2

theorem State.pin_pwr (b c : Fld) : (s.pin b c).pwr = s.pwr := (congrArg State.pwr (s.pin_signals b c).2.1 :)

/-- The regulator is told of its target. -/
def State.regulate (s : State) (mv : Nat) (beyond : Bool) : State :=
  (s.updPwr (fun p => { p with target := mv, voltBeyond := beyond })).emit (.vr (vrFrame mv))

/-- A move of the voltage target is a move of the regulator, pinned where it would go beyond a bound (R363, R373). -/
theorem State.voltTarget_eq (mv : Int) : ∃ n beyond, n = (max (s.voltBounds.1 : Int) (min (s.voltBounds.2 : Int) mv)).toNat ∧
    s.voltTarget mv = if max (s.voltBounds.1 : Int) (min (s.voltBounds.2 : Int) mv) ≠ mv then
      (s.regulate n beyond).pin F.PWR_STATUS_VOLT_PINNED F.PWR_PINNED_CNT_VOLT else s.regulate n beyond := ⟨_, _, rfl, rfl⟩

theorem State.voltTarget_reads (mv : Int) :
    readsBut [F.PWR_STATUS_VOLT_PINNED, F.PWR_PINNED_CNT_VOLT, F.PWR_INT_STATUS_BITS] s (s.voltTarget mv) := by
  obtain ⟨n, beyond, -, htarget⟩ := s.voltTarget_eq mv
  have hmoved : readsBut [F.PWR_STATUS_VOLT_PINNED, F.PWR_PINNED_CNT_VOLT, F.PWR_INT_STATUS_BITS] s (s.regulate n beyond) :=
    (readsBut.refl s).congr rfl
  rw [htarget]
  split
  · exact hmoved.trans ((s.regulate n beyond).pin_signals _ _).1
  · exact hmoved

end Pin

namespace State.Drives

variable {s t u : State}

theorem refl (s : State) : s.Drives s := ⟨readsBut.refl s, fun _ h => h, rfl⟩

theorem trans (h : s.Drives t) (k : t.Drives u) : s.Drives u := by
  refine ⟨h.reads.trans k.reads, fun e he => k.events e (h.events e he), ?_⟩
  have hput := congrArg (fun x : State => { x with
    regs := s.regs, out := s.out, msixPend := s.msixPend,
    pwr := { x.pwr with target := s.pwr.target, raisedAt := s.pwr.raisedAt, voltBeyond := s.pwr.voltBeyond } }) k.rest
  exact hput.trans h.rest

/-- A field of another register reads as before. -/
theorem rd (h : s.Drives t) {f : Fld} (hf : ∀ g ∈ driveFields, f.key ≠ g.key) : t.rd f = s.rd f := h.reads f hf

theorem on (h : s.Drives t) {f : Fld} (hf : ∀ g ∈ driveFields, f.key ≠ g.key) : t.on f = s.on f := State.on_congr (h.rd hf)

theorem steps (h : s.Drives t) (d : Nat) : t.steps d = s.steps d :=
  h.reads.off (rs := [.CLK_CORE, .PWR_STATUS, .PWR_PINNED_CNT, .PWR_INT_STATUS, .ATL_STATUS]) (by decide) _
    (show RegName.PWR_DOM_STATUS ∉ _ by decide)

theorem pwrState (h : s.Drives t) : t.pwrState = s.pwrState := h.rd (f := F.PWR_STATUS_STATE) (by decide)

theorem yields (h : s.Drives t) : t.pwr.yields = s.pwr.yields := (congrArg (fun x : State => x.pwr.yields) h.rest :)

theorem thermSteps (h : s.Drives t) : t.pwr.thermSteps = s.pwr.thermSteps := (congrArg (fun x : State => x.pwr.thermSteps) h.rest :)

theorem dutyLimit (h : s.Drives t) : t.pwr.dutyLimit = s.pwr.dutyLimit := (congrArg (fun x : State => x.pwr.dutyLimit) h.rest :)

theorem limitAt (h : s.Drives t) : t.pwr.limitAt = s.pwr.limitAt := (congrArg (fun x : State => x.pwr.limitAt) h.rest :)

theorem failAt (h : s.Drives t) : t.pwr.failAt = s.pwr.failAt := (congrArg (fun x : State => x.pwr.failAt) h.rest :)

theorem phase (h : s.Drives t) : t.pwr.phase = s.pwr.phase := (congrArg (fun x : State => x.pwr.phase) h.rest :)

theorem grantNext (h : s.Drives t) : t.pwr.grantNext = s.pwr.grantNext := (congrArg (fun x : State => x.pwr.grantNext) h.rest :)

theorem keep (h : s.Drives t) : t.keep = s.keep := (congrArg State.keep h.rest :)

theorem wr (h : s.Drives t) {f : Fld} (hf : f ∈ driveFields) (hint : RegName.PWR_INT_STATUS ≠ f.reg) (v : Nat) : s.Drives (t.wr f v) := by
  refine ⟨h.reads.wr hf v, fun e he => ?_, h.rest⟩
  rw [State.intBit, State.rd_wr_of_reg_ne _ _ (show (intStatus .pwr 0).reg ≠ f.reg from hint)]
  exact h.events e he

theorem wrB (h : s.Drives t) {f : Fld} (hf : f ∈ driveFields) (hint : RegName.PWR_INT_STATUS ≠ f.reg) (b : Bool) : s.Drives (t.wrB f b) :=
  h.wr hf hint _

theorem raise (h : s.Drives t) (e : Nat) : s.Drives (t.raise .pwr 0 e) := by
  obtain ⟨hreads, hrest, -⟩ := (signals.refl (fs := driveFields) t).raise (b := .pwr) (i := 0) (by simp [driveFields, intStatus]) e
  refine h.trans ⟨hreads, fun k hk => State.intBit_raise_of_intBit hk .pwr 0 e, ?_⟩
  exact congrArg (fun x : State => { x with
    pwr := { x.pwr with target := t.pwr.target, raisedAt := t.pwr.raisedAt, voltBeyond := t.pwr.voltBeyond } }) hrest

theorem ite {c : Prop} [Decidable c] {a b : State} (ha : s.Drives a) (hb : s.Drives b) : s.Drives (if c then a else b) := by
  split
  · exact ha
  · exact hb

/-- A change of the voltage's part of the manager's own state, and what leaves the device. -/
theorem moved (h : s.Drives t) (hregs : u.regs = t.regs) (hrest : { u with
    regs := t.regs, out := t.out, msixPend := t.msixPend,
    pwr := { u.pwr with target := t.pwr.target, raisedAt := t.pwr.raisedAt, voltBeyond := t.pwr.voltBeyond } } = t) : s.Drives u :=
  h.trans ⟨(readsBut.refl t).congr hregs, fun _ he => (congrArg (bit · _) (State.rd_congr hregs _)).trans he, hrest⟩

/-- A pinned bit of the voltage. -/
theorem pinVolt (h : s.Drives t) : s.Drives (t.pin F.PWR_STATUS_VOLT_PINNED F.PWR_PINNED_CNT_VOLT) := by
  have hcounted : s.Drives ((t.wrB F.PWR_STATUS_VOLT_PINNED true).satAdd F.PWR_PINNED_CNT_VOLT 1) :=
    (h.wrB (by simp [driveFields]) (by decide) true).wr (by simp [driveFields]) (by decide) _
  unfold State.pin
  dsimp only
  split
  · exact hcounted
  · exact hcounted.raise 2

theorem voltTarget (h : s.Drives t) (mv : Int) : s.Drives (t.voltTarget mv) := by
  obtain ⟨n, beyond, -, htarget⟩ := t.voltTarget_eq mv
  have hmoved : s.Drives (t.regulate n beyond) := h.moved rfl rfl
  rw [htarget]
  exact ite hmoved.pinVolt hmoved

theorem divRequest (h : s.Drives t) (c : Nat) : s.Drives (t.divRequest c) := by
  have hpending (v : Nat) : s.Drives (t.wr F.CLK_CORE_PENDING v) := h.wr (by simp [driveFields]) (by decide) v
  have hdefer {u : State} (hu : s.Drives u) (b : Bool) : s.Drives (u.wrB F.CLK_CORE_DEFERRED_BY_DROOP b) :=
    hu.wrB (by simp [driveFields]) (by decide) b
  have hraised (u : State) (hu : s.Drives u) (n : Nat) : s.Drives (u.updPwr (fun p => { p with raisedAt := n })) := hu.moved rfl rfl
  unfold State.divRequest
  extract_lets cur pend u
  exact ite (ite h ((hdefer (hpending 7) false).voltTarget _))
    (ite h (ite (hdefer (hraised _ ((hpending c).voltTarget _) _) _) (hdefer (hpending c) false)))

theorem applyCode (h : s.Drives t) : s.Drives t.applyCode := h.divRequest _

theorem applyDuty (h : s.Drives t) : s.Drives t.applyDuty := h.wr (by simp [driveFields]) (by decide) _

theorem holdingOff (h : s.Drives t) : s.Drives t.holdingOff :=
  (h.wrB (by simp [driveFields]) (by decide) _).wrB (by simp [driveFields]) (by decide) _

end State.Drives

section Drive

variable (s : State)

/-- HOLDING_OFF shows in two places and changes nothing else (R385). -/
theorem State.holdingOff_changes : changes [F.PWR_STATUS_HOLDING_OFF, F.ATL_STATUS_HOLDING_OFF] s s.holdingOff :=
  ((changes.refl s).wrB List.mem_cons_self _).wrB (List.mem_cons_of_mem _ List.mem_cons_self) _

/-- The voltage target is the one asked for within the bounds (R363, R373). -/
theorem State.voltTarget_target (mv : Int) :
    ((s.voltTarget mv).pwr.target : Int) = max (s.voltBounds.1 : Int) (min (s.voltBounds.2 : Int) mv) := by
  obtain ⟨n, beyond, hn, htarget⟩ := s.voltTarget_eq mv
  have hpwr : (s.voltTarget mv).pwr.target = (max (s.voltBounds.1 : Int) (min (s.voltBounds.2 : Int) mv)).toNat := by
    rw [htarget, ← hn]
    split
    · rw [State.pin_pwr]
      rfl
    · rfl
  rw [hpwr]
  exact Int.toNat_of_nonneg (le_max_of_le_left (Int.natCast_nonneg _))

/-- A target beyond the bounds is pinned (R373). -/
theorem State.voltTarget_pins {mv : Int} (hbeyond : max (s.voltBounds.1 : Int) (min (s.voltBounds.2 : Int) mv) ≠ mv) :
    (s.voltTarget mv).on F.PWR_STATUS_VOLT_PINNED = true ∧
    (s.voltTarget mv).rd F.PWR_PINNED_CNT_VOLT = min (s.rd F.PWR_PINNED_CNT_VOLT + 1) (2 ^ F.PWR_PINNED_CNT_VOLT.width - 1) := by
  obtain ⟨n, beyond, -, htarget⟩ := s.voltTarget_eq mv
  rw [if_pos hbeyond] at htarget
  obtain ⟨u, hu, hreads⟩ : ∃ u, u = s.regulate n beyond ∧ ∀ f, u.rd f = s.rd f := ⟨_, rfl, fun _ => rfl⟩
  have hcounted : ((u.wrB F.PWR_STATUS_VOLT_PINNED true).satAdd F.PWR_PINNED_CNT_VOLT 1).on F.PWR_STATUS_VOLT_PINNED = true ∧
      ((u.wrB F.PWR_STATUS_VOLT_PINNED true).satAdd F.PWR_PINNED_CNT_VOLT 1).rd F.PWR_PINNED_CNT_VOLT =
        min (s.rd F.PWR_PINNED_CNT_VOLT + 1) (2 ^ F.PWR_PINNED_CNT_VOLT.width - 1) := by
    refine ⟨(State.on_congr (State.rd_wr_of_reg_ne _ _ (by decide))).trans (State.on_wrB_self _ _ (by decide)), ?_⟩
    rw [State.rd_satAdd_self, State.wrB, State.rd_wr_of_reg_ne _ _ (by decide), hreads]
  rw [htarget, ← hu]
  unfold State.pin
  dsimp only
  split
  · exact hcounted
  · rw [State.on_congr (State.rd_raise_of_reg_ne _ (by decide)), State.rd_raise_of_reg_ne _ (by decide)]
    exact hcounted

/-- A request for another code pends (R363). -/
theorem State.divRequest_pending {c : Nat} (hc : c < 8) (hnew : s.rd F.CLK_CORE_DIV ≠ c) : (s.divRequest c).rd F.CLK_CORE_PENDING = c := by
  have hset : (s.wr F.CLK_CORE_PENDING c).rd F.CLK_CORE_PENDING = c := (State.rd_wr_self ..).trans (Nat.mod_eq_of_lt hc)
  have hvolt (u : State) (mv : Int) : (u.voltTarget mv).rd F.CLK_CORE_PENDING = u.rd F.CLK_CORE_PENDING :=
    u.voltTarget_reads mv _ (by decide)
  have hdefer (u : State) (b : Bool) : (u.wrB F.CLK_CORE_DEFERRED_BY_DROOP b).rd F.CLK_CORE_PENDING = u.rd F.CLK_CORE_PENDING :=
    State.rd_wrB_of_lo_ne _ _ (by decide)
  unfold State.divRequest
  dsimp only
  rw [if_neg hnew.symm]
  split
  next hsame => exact hsame.symm
  next =>
    split
    · rw [hdefer]
      exact (hvolt _ _).trans hset
    · rw [hdefer]
      exact hset

end Drive

end Sys2Proof.Machine
end

section
/-! SUPPORT. Droop, current, heat and ageing (R374 to R378, R438), and their statement. -/

set_option Elab.async false

namespace Sys2Proof.Machine

/-! ### Overrides (R374) -/

section Override

variable (s : State) (kind detail : Nat)

/-- The registers that an override writes. -/
def overrideRegs : List RegName := .PWR_OVERRIDE_CNT :: .PWR_INT_STATUS :: eventRegs

/-- The counter of an override. -/
def overrideF : Nat → Fld
  | 0 => F.PWR_OVERRIDE_CNT_THERMAL
  | 1 => F.PWR_OVERRIDE_CNT_ILIMIT
  | 2 => F.PWR_OVERRIDE_CNT_DROOP
  | _ => F.PWR_OVERRIDE_CNT_PACKAGE

theorem overrideF_reg : (overrideF kind).reg = .PWR_OVERRIDE_CNT := by
  unfold overrideF
  split <;> rfl

theorem State.override_eq : s.override kind detail =
    ((s.satAdd (overrideF kind) 1).raise .pwr 0 3).event notice 0x0383 kind detail := by
  unfold State.override overrideF
  rfl

theorem State.override_readsOff : readsOff overrideRegs s (s.override kind detail) := by
  have hcounted : readsOff overrideRegs s (s.satAdd (overrideF kind) 1) :=
    (readsOff.refl s).wr (by rw [overrideF_reg]; exact List.mem_cons_self) _
  rw [State.override_eq]
  exact (hcounted.raise (b := .pwr) (i := 0) (by decide) 3).trans
    (readsOff.mono (State.event_readsOff _ _ _ _ _ _) fun r hr => List.mem_cons_of_mem _ (List.mem_cons_of_mem _ hr))

theorem State.override_rest : eventRest s (s.override kind detail) := by
  rw [State.override_eq]
  exact eventRest.trans (.of_touches (((touches.refl s).satAdd (rs := [.PWR_OVERRIDE_CNT, .PWR_INT_STATUS])
    (by rw [overrideF_reg]; exact List.mem_cons_self) 1).raise (b := .pwr) (i := 0) (by decide) 3)) (State.event_rest ..)

theorem State.override_intBit : (s.override kind detail).intBit .pwr 0 3 = true := by
  rw [State.override_eq, State.intBit, State.event_readsOff _ _ _ _ _ _ _ (by decide)]
  exact State.intBit_raise_self _ .pwr 0 3 (by decide)

theorem State.override_counts :
    (s.override kind detail).rd (overrideF kind) = min (s.rd (overrideF kind) + 1) (2 ^ (overrideF kind).width - 1) := by
  rw [State.override_eq, State.event_readsOff _ _ _ _ _ _ _ (by rw [overrideF_reg]; decide),
    State.rd_raise_of_reg_ne _ (by rw [overrideF_reg]; decide), State.rd_satAdd_self]

end Override

/-! ### Droop (R375, R376) -/

section Droop

variable (s : State)

/-- A detector that fires is noted, and a faster change that pends waits. -/
def State.droopNoted : State :=
  let s := s.updPwr (fun p => { p with droopAt := some s.now })
  if s.rd F.CLK_CORE_PENDING < s.rd F.CLK_CORE_DIV then s.wrB F.CLK_CORE_DEFERRED_BY_DROOP true else s

/-- A stretch begins. -/
def State.stretchStarts (det : Nat) : State :=
  ((((s.wrB F.CLK_CORE_STRETCH true).updPwr (fun p => { p with stretchAt := s.now })).satAdd F.PWR_DROOP_CNT_COUNT 1).cntGlobal 0x68 0 1).override
    2 det

theorem exec_droopDetect (det : Fin 64) : exec (.droopDetect det) s =
    .next (if s.droopNoted.on F.CLK_CORE_STRETCH then s.droopNoted else s.droopNoted.stretchStarts det) := rfl

theorem State.droopNoted_notes : readsBut [F.CLK_CORE_DEFERRED_BY_DROOP] s s.droopNoted ∧
    s.droopNoted.pwr = { s.pwr with droopAt := some s.now } ∧
    (s.rd F.CLK_CORE_PENDING < s.rd F.CLK_CORE_DIV → s.droopNoted.on F.CLK_CORE_DEFERRED_BY_DROOP = true) := by
  have hnoted : readsBut [F.CLK_CORE_DEFERRED_BY_DROOP] s (s.updPwr (fun p => { p with droopAt := some s.now })) :=
    (readsBut.refl s).congr rfl
  unfold State.droopNoted
  dsimp only
  split
  next => exact ⟨hnoted.wr List.mem_cons_self _, rfl, fun _ => State.on_wrB_self _ _ (by decide)⟩
  next hslow => exact ⟨hnoted, rfl, fun hfast => absurd hfast hslow⟩

/-- What the start of a stretch writes beside the counters and the log. -/
theorem State.stretchStarts_reads (det : Nat) {f : Fld}
    (hf : f.reg ∉ [RegName.CNT_CTL, .CNT_VALUE, .CNT_INT_STATUS] ++ overrideRegs) :
    (s.stretchStarts det).rd f = ((s.wrB F.CLK_CORE_STRETCH true).satAdd F.PWR_DROOP_CNT_COUNT 1).rd f := by
  unfold State.stretchStarts
  rw [State.override_readsOff _ _ _ _ fun h => hf (List.mem_append_right _ h),
    (State.cntGlobal_touches _ 0x68 0 1).rd fun h => hf (List.mem_append_left _ h)]
  rfl

theorem State.stretchStarts_pwr (det : Nat) : (s.stretchStarts det).pwr = { s.pwr with stretchAt := s.now } := by
  unfold State.stretchStarts
  rw [(State.override_rest ..).pwr, (eventRest.of_touches (State.cntGlobal_touches ..)).pwr]
  rfl

/-- DROOP_DETECT (R374 to R376). -/
theorem droopDetect_stretches (det : Fin 64) : Runs (.droopDetect det) s fun t =>
    t.pwr.droopAt = some s.now ∧ t.on F.CLK_CORE_STRETCH = true ∧
    (s.rd F.CLK_CORE_PENDING < s.rd F.CLK_CORE_DIV → t.on F.CLK_CORE_DEFERRED_BY_DROOP = true) ∧
    (s.on F.CLK_CORE_STRETCH = true → t.rd F.PWR_DROOP_CNT_COUNT = s.rd F.PWR_DROOP_CNT_COUNT ∧ t.pwr.stretchAt = s.pwr.stretchAt) ∧
    (s.on F.CLK_CORE_STRETCH = false →
      t.rd F.PWR_DROOP_CNT_COUNT = min (s.rd F.PWR_DROOP_CNT_COUNT + 1) (2 ^ F.PWR_DROOP_CNT_COUNT.width - 1) ∧ t.pwr.stretchAt = s.now ∧
      t.rd F.PWR_OVERRIDE_CNT_DROOP = min (s.rd F.PWR_OVERRIDE_CNT_DROOP + 1) (2 ^ F.PWR_OVERRIDE_CNT_DROOP.width - 1) ∧
      t.intBit .pwr 0 3 = true) := by
  obtain ⟨hreads, hpwr, hdefer⟩ := s.droopNoted_notes
  have hstretch : s.droopNoted.on F.CLK_CORE_STRETCH = s.on F.CLK_CORE_STRETCH := State.on_congr (hreads _ (by decide))
  have hnow : s.droopNoted.now = s.now := hreads _ (by decide)
  refine .of_exec (exec_droopDetect s det) ?_
  rw [hstretch]
  split
  next hon =>
    exact ⟨by rw [hpwr], hstretch.trans hon, hdefer, fun _ => ⟨hreads _ (by decide), by rw [hpwr]⟩,
      fun hoff => absurd hon (by rw [hoff]; exact Bool.false_ne_true)⟩
  next hoff =>
    have hstart := s.droopNoted.stretchStarts_pwr det
    have hcore {f : Fld} (hreg : f.reg = .CLK_CORE) : (s.droopNoted.stretchStarts det).rd f = (s.droopNoted.wrB F.CLK_CORE_STRETCH true).rd f := by
      rw [State.stretchStarts_reads _ _ (by rw [hreg]; decide), State.satAdd, State.rd_wr_of_reg_ne _ _ (by rw [hreg]; decide)]
    refine ⟨by rw [hstart, hpwr], (State.on_congr (hcore rfl)).trans (State.on_wrB_self _ _ (by decide)), fun hfast => ?_,
      fun hon => absurd hon hoff, fun _ => ⟨?_, by rw [hstart, hnow], ?_, State.override_intBit ..⟩⟩
    · exact (State.on_congr ((hcore rfl).trans (State.rd_wrB_of_lo_ne _ _ (by decide)))).trans (hdefer hfast)
    · rw [State.stretchStarts_reads _ _ (by decide), State.rd_satAdd_self, State.wrB, State.rd_wr_of_reg_ne _ _ (by decide), hreads _ (by decide)]
    · have hbefore : ((s.droopNoted.wrB F.CLK_CORE_STRETCH true).satAdd F.PWR_DROOP_CNT_COUNT 1).rd F.PWR_OVERRIDE_CNT_DROOP =
          s.rd F.PWR_OVERRIDE_CNT_DROOP := by
        rw [State.satAdd, State.rd_wr_of_reg_ne _ _ (by decide), State.wrB, State.rd_wr_of_reg_ne _ _ (by decide), hreads _ (by decide)]
      unfold State.stretchStarts
      refine (State.override_counts _ 2 det).trans ?_
      rw [show overrideF 2 = F.PWR_OVERRIDE_CNT_DROOP from rfl, (State.cntGlobal_touches _ 0x68 0 1).rd (by decide), ← hbefore]
      rfl

/-- DROOP_STRETCH_END (R375). -/
theorem droopStretchEnd_ends {h : Nat} (hh : h = stretchHalves (s.rd F.CLK_CORE_DIV)) :
    (s.on F.CLK_CORE_STRETCH = true → max 64 (s.rd F.PWR_DROOP_CFG_MIN_CYCLES) * h ≤ (s.now - s.pwr.stretchAt) * 8 →
      64 * h ≤ (s.now - s.pwr.droopAt.getD 0) * 8 →
      Runs .droopStretchEnd s fun t => t.on F.CLK_CORE_STRETCH = false ∧ changes [F.CLK_CORE_STRETCH] s t) ∧
    ((s.now - s.pwr.stretchAt) * 8 < max 64 (s.rd F.PWR_DROOP_CFG_MIN_CYCLES) * h ∨ (s.now - s.pwr.droopAt.getD 0) * 8 < 64 * h →
      Runs .droopStretchEnd s fun t => t = s) := by
  have hexec : exec .droopStretchEnd s = .next (
      if s.on F.CLK_CORE_STRETCH && decide ((s.now - s.pwr.stretchAt) * 8 ≥ max 64 (s.rd F.PWR_DROOP_CFG_MIN_CYCLES) * h) &&
        decide ((s.now - s.pwr.droopAt.getD 0) * 8 ≥ 64 * h) then s.wrB F.CLK_CORE_STRETCH false
      else s) := hh ▸ rfl
  refine ⟨fun hon hlong hquiet => .of_exec (hexec.trans (congrArg _ (if_pos ?_)))
    ⟨State.on_wrB_self _ _ (by decide), (changes.refl s).wrB List.mem_cons_self _⟩, fun hearly => .of_exec (hexec.trans (congrArg _ (if_neg ?_))) rfl⟩
  · rw [hon, decide_eq_true hlong, decide_eq_true hquiet]
    rfl
  · intro hall
    obtain ⟨hboth, hquiet⟩ := Bool.and_eq_true_iff.1 hall
    obtain ⟨-, hlong⟩ := Bool.and_eq_true_iff.1 hboth
    exact hearly.elim (Nat.not_lt.2 (of_decide_eq_true hlong)) (Nat.not_lt.2 (of_decide_eq_true hquiet))

end Droop

/-! ### Current (R374) -/

section Duty

/-- The issue duty depends on the state, on COMPUTE's steps, on the current limit and on the thermal throttle. -/
theorem State.dutyNow_congr {s t : State} (hstate : t.pwrState = s.pwrState) (hsteps : t.steps 2 = s.steps 2)
    (htherm : t.pwr.thermSteps = s.pwr.thermSteps) (hlimit : t.pwr.dutyLimit = s.pwr.dutyLimit) : t.dutyNow = s.dutyNow := by
  unfold State.dutyNow State.thermDuty
  rw [hstate, hsteps, htherm, hlimit]

/-- At the lowest limit the duty is 4/16. -/
theorem State.dutyNow_lowest {s : State} (hlimit : s.pwr.dutyLimit = 4) : s.dutyNow = 4 := by
  unfold State.dutyNow
  rw [hlimit]
  exact Nat.max_eq_left (Nat.min_le_right ..)

variable (s : State)

/-- The duty shows in PWR_STATUS (R366). -/
theorem State.duty_applied : s.applyDuty.holdingOff.rd F.PWR_STATUS_DUTY = s.dutyNow % 2 ^ F.PWR_STATUS_DUTY.width := by
  obtain ⟨hreads, -⟩ := s.applyDuty.holdingOff_changes
  rw [hreads _ (by decide)]
  exact State.rd_wr_self ..

/-- The current limit sets the duty to its lowest. -/
def State.limited : State :=
  ((s.wrB F.PWR_STATUS_ILIMIT true).updPwr (fun p => { p with dutyLimit := 4, limitAt := s.now })).applyDuty.holdingOff

theorem State.limited_limits : s.limited.on F.PWR_STATUS_ILIMIT = true ∧ s.limited.rd F.PWR_STATUS_DUTY = 4 ∧ s.limited.pwr.dutyLimit = 4 ∧
    s.limited.pwr.limitAt = s.now ∧ ∀ f : Fld, f.reg = .PWR_OVERRIDE_CNT → s.limited.rd f = s.rd f := by
  obtain ⟨u, hu, heq⟩ : ∃ u, u = (s.wrB F.PWR_STATUS_ILIMIT true).updPwr (fun p => { p with dutyLimit := 4, limitAt := s.now }) ∧
      s.limited = u.applyDuty.holdingOff := ⟨_, rfl, rfl⟩
  have hset (f : Fld) : u.rd f = (s.wrB F.PWR_STATUS_ILIMIT true).rd f := by
    rw [hu]
    rfl
  have hdrives : u.Drives s.limited := heq ▸ (State.Drives.refl u).applyDuty.holdingOff
  have hlimit : u.pwr.dutyLimit = 4 := by
    rw [hu]
    rfl
  refine ⟨?_, ?_, hdrives.dutyLimit.trans hlimit, hdrives.limitAt.trans ?_, fun f hf => ?_⟩
  · rw [hdrives.on (by decide), State.on_congr (hset _), State.on_wrB_self _ _ (by decide)]
  · rw [heq, State.duty_applied, State.dutyNow_lowest hlimit]
    rfl
  · rw [hu]
    rfl
  · rw [hdrives.reads.off (rs := [.CLK_CORE, .PWR_STATUS, .PWR_PINNED_CNT, .PWR_INT_STATUS, .ATL_STATUS]) (by decide) f (by rw [hf]; decide), hset]
    exact State.rd_wr_of_reg_ne _ _ (by rw [hf]; decide)

/-- CURRENT_LIMIT (R374). -/
theorem currentLimit_limits (amps watts : Nat) :
    (amps < min 1000 (s.rd F.PWR_IMAX_IMAX) → watts ≤ 1600 → Runs (.currentLimit amps watts) s fun t => t = s) ∧
    (min 1000 (s.rd F.PWR_IMAX_IMAX) ≤ amps ∨ 1600 < watts → Runs (.currentLimit amps watts) s fun t =>
      t.on F.PWR_STATUS_ILIMIT = true ∧ t.rd F.PWR_STATUS_DUTY = 4 ∧ t.pwr.dutyLimit = 4 ∧ t.pwr.limitAt = s.now ∧
      (s.on F.PWR_STATUS_ILIMIT = true →
        t.rd F.PWR_OVERRIDE_CNT_ILIMIT = s.rd F.PWR_OVERRIDE_CNT_ILIMIT ∧ t.rd F.PWR_OVERRIDE_CNT_PACKAGE = s.rd F.PWR_OVERRIDE_CNT_PACKAGE) ∧
      (s.on F.PWR_STATUS_ILIMIT = false → min 1000 (s.rd F.PWR_IMAX_IMAX) ≤ amps →
        t.rd F.PWR_OVERRIDE_CNT_ILIMIT = min (s.rd F.PWR_OVERRIDE_CNT_ILIMIT + 1) (2 ^ F.PWR_OVERRIDE_CNT_ILIMIT.width - 1))) := by
  have hexec : exec (.currentLimit amps watts) s = .next (
      if !decide (amps ≥ min 1000 (s.rd F.PWR_IMAX_IMAX)) && decide (watts ≤ 1600) then s
      else if s.on F.PWR_STATUS_ILIMIT then s.limited
      else s.limited.override (if decide (amps ≥ min 1000 (s.rd F.PWR_IMAX_IMAX)) then 1 else 3) 0) := rfl
  refine ⟨fun hamps hwatts => .of_exec (hexec.trans (congrArg _ (if_pos ?_))) rfl,
    fun hover => .of_exec (hexec.trans (congrArg _ (if_neg ?_))) ?_⟩
  · rw [decide_eq_false (Nat.not_le.2 hamps), decide_eq_true hwatts]
    rfl
  · intro hunder
    obtain ⟨hamps, hwatts⟩ := Bool.and_eq_true_iff.1 hunder
    rcases hover with hover | hover
    · rw [decide_eq_true hover] at hamps
      exact Bool.false_ne_true hamps
    · exact Nat.not_le.2 hover (of_decide_eq_true hwatts)
  · obtain ⟨hon, hduty, hlimit, hat, hcounts⟩ := s.limited_limits
    split
    next hwas => exact ⟨hon, hduty, hlimit, hat, fun _ => ⟨hcounts _ rfl, hcounts _ rfl⟩, fun hoff => absurd hwas (by rw [hoff]; exact Bool.false_ne_true)⟩
    next hwas =>
      generalize hkind : (if decide (amps ≥ min 1000 (s.rd F.PWR_IMAX_IMAX)) then 1 else 3) = kind
      have hreads := s.limited.override_readsOff kind 0
      have hpwr := (s.limited.override_rest kind 0).pwr
      refine ⟨(State.on_congr (hreads _ (by decide))).trans hon, (hreads _ (by decide)).trans hduty, by rw [hpwr, hlimit], by rw [hpwr, hat],
        fun hset => absurd hset hwas, fun _ hamps => ?_⟩
      rw [if_pos (decide_eq_true hamps)] at hkind
      rw [← hkind]
      refine (State.override_counts ..).trans ?_
      rw [hcounts _ rfl]
      rfl

/-- DUTY_RISE (R374). -/
theorem dutyRise_rises :
    (s.on F.PWR_STATUS_ILIMIT = false ∨ s.now - s.pwr.limitAt < 16000 → Runs .dutyRise s fun t => t = s) ∧
    (s.on F.PWR_STATUS_ILIMIT = true → 16000 ≤ s.now - s.pwr.limitAt → Runs .dutyRise s fun t =>
      t.pwr.dutyLimit = min 16 (s.pwr.dutyLimit + 1) ∧ t.pwr.limitAt = s.now ∧ (t.on F.PWR_STATUS_ILIMIT = true ↔ s.pwr.dutyLimit < 15) ∧
      t.rd F.PWR_STATUS_DUTY = t.dutyNow % 2 ^ F.PWR_STATUS_DUTY.width) := by
  obtain ⟨u, hu⟩ : ∃ u, u = s.updPwr (fun p => { p with dutyLimit := min 16 (s.pwr.dutyLimit + 1), limitAt := s.now }) := ⟨_, rfl⟩
  have hexec : exec .dutyRise s = .next (
      if !s.on F.PWR_STATUS_ILIMIT || decide (s.now - s.pwr.limitAt < 16000) then s
      else if s.pwr.dutyLimit + 1 ≥ 16 then u.applyDuty.holdingOff.wrB F.PWR_STATUS_ILIMIT false else u.applyDuty.holdingOff) := hu ▸ rfl
  refine ⟨fun hidle => .of_exec (hexec.trans (congrArg _ (if_pos ?_))) rfl, fun hon hdue => .of_exec (hexec.trans (congrArg _ (if_neg ?_))) ?_⟩
  · rcases hidle with hoff | hearly
    · rw [hoff]
      rfl
    · rw [decide_eq_true hearly, Bool.or_true]
  · rw [hon, decide_eq_false (Nat.not_lt.2 hdue)]
    exact Bool.false_ne_true
  · have hdrives : u.Drives u.applyDuty.holdingOff := (State.Drives.refl u).applyDuty.holdingOff
    have hlimit : u.applyDuty.holdingOff.pwr.dutyLimit = min 16 (s.pwr.dutyLimit + 1) := hdrives.dutyLimit.trans (by rw [hu]; rfl)
    have hat : u.applyDuty.holdingOff.pwr.limitAt = s.now := hdrives.limitAt.trans (by rw [hu]; rfl)
    have hduty : u.applyDuty.holdingOff.rd F.PWR_STATUS_DUTY = u.applyDuty.holdingOff.dutyNow % 2 ^ F.PWR_STATUS_DUTY.width := by
      rw [State.duty_applied, State.dutyNow_congr hdrives.pwrState (hdrives.steps 2) hdrives.thermSteps hdrives.dutyLimit]
    have hset : u.applyDuty.holdingOff.on F.PWR_STATUS_ILIMIT = true := (hdrives.on (by decide)).trans (by rw [hu]; exact hon)
    split
    next hfull =>
      refine ⟨hlimit, hat, ?_, ?_⟩
      · rw [State.on_wrB_self _ _ (by decide)]
        exact iff_of_false Bool.false_ne_true (by omega)
      · rw [State.rd_wrB_of_lo_ne _ _ (by decide), hduty]
        congr 1
        exact (State.dutyNow_congr (State.rd_wrB_of_lo_ne _ _ (by decide)) (State.rd_wr_of_reg_ne _ _ (by decide)) rfl rfl).symm
    next hpart => exact ⟨hlimit, hat, iff_of_true hset (by omega), hduty⟩

end Duty

end Sys2Proof.Machine
end

section
/-! SUPPORT. Heat and ageing (R377, R378, R438), and the statement of what protects the core. -/

set_option Elab.async false

namespace Sys2Proof.Machine

/-! ### The hottest sensor -/

theorem foldl_max_bounds (l : List Nat) (a : Nat) : a ≤ l.foldl max a ∧ (∀ x ∈ l, x ≤ l.foldl max a) ∧ (l.foldl max a = a ∨ l.foldl max a ∈ l) := by
  induction l generalizing a with
  | nil => exact ⟨le_rfl, nofun, .inl rfl⟩
  | cons b l ih =>
    obtain ⟨hstart, hrest, hfound⟩ := ih (max a b)
    refine ⟨(le_max_left a b).trans hstart, fun x hx => ?_, ?_⟩
    · rcases List.mem_cons.1 hx with rfl | hx
      · exact (le_max_right a x).trans hstart
      · exact hrest x hx
    · rcases hfound with heq | hin
      · rcases max_choice a b with hmax | hmax
        · exact .inl (heq.trans hmax)
        · exact .inr (List.mem_cons.2 (.inl (heq.trans hmax)))
      · exact .inr (List.mem_cons_of_mem _ hin)

/-- The hottest sensor is one of them, and none is hotter. -/
theorem hottest_is {l : List Nat} (hl : l ≠ []) :
    (∀ x ∈ l, x ≤ (hottest l).1) ∧ (hottest l).2 < l.length ∧ l.getD (hottest l).2 0 = (hottest l).1 := by
  obtain ⟨-, hall, hfound⟩ := foldl_max_bounds l 0
  have hin : (hottest l).1 ∈ l := by
    rcases hfound with hzero | hin
    · obtain ⟨x, hx⟩ := List.exists_mem_of_ne_nil l hl
      have hxz : x = (hottest l).1 := (Nat.le_zero.1 (hzero ▸ hall x hx)).trans hzero.symm
      exact hxz ▸ hx
    · exact hin
  have hlt : (hottest l).2 < l.length := List.idxOf_lt_length_of_mem hin
  refine ⟨hall, hlt, ?_⟩
  rw [List.getD_eq_getElem _ _ hlt]
  exact List.getElem_idxOf hlt

/-! ### THERMAL_READ (R377, R378) -/

theorem State.keepStart_rest (s : State) (trigger : Nat) : { s.keepStart trigger with keep := s.keep } = s := by
  unfold State.keepStart
  split
  · rfl
  · split
    · split <;> rfl
    · rfl

theorem State.keepStart_rd (s : State) (trigger : Nat) (f : Fld) : (s.keepStart trigger).rd f = s.rd f :=
  State.rd_congr (congrArg State.regs (s.keepStart_rest trigger) :) f

theorem changes.thermTrip {fs : List Fld} {s t : State} (h : changes fs s t) : t.thermTrip = s.thermTrip := (congrArg State.thermTrip h.2 :)

section Thermal

variable (s : State)

/-- What the sensors show, and the hottest. -/
def State.sensed (l : List Nat) : State :=
  ((s.wrWords F.PWR_SENSOR_TEMP (fun n => l.getD n 0) 128).wr F.PWR_THERM_STATUS_TJ (hottest l).1).wr F.PWR_THERM_STATUS_SENSOR (hottest l).2

/-- At THROTTLE the throttle starts (R377). -/
def State.throttles : State :=
  if s.tooHot && !s.on F.PWR_STATUS_THERM_THROTTLE then
    ((s.wrB F.PWR_STATUS_THERM_THROTTLE true).raise .pwr 0 4).ran .throttle 0 s.now
  else s

/-- At 115 °C the XH9 trips (R378). -/
def State.trips (h : Nat × Nat) : State :=
  if h.1 ≥ 115 && !s.thermTrip then
    let s := ({ s with thermTrip := true }.emit (.pin .thermtripN false)).event fatal (codeOf .pwr 0 4) h.2 h.1
    if s.on F.KEEP_CFG_THERM_EN then s.keepStart 2 else s
  else s

theorem State.sensed_shows {l : List Nat} (hlen : l.length = 128) (hmax : ∀ x ∈ l, x < 256) :
    (∀ k < 128, (s.sensed l).rd (F.PWR_SENSOR_TEMP k) = l.getD k 0 % 2 ^ 8) ∧ (s.sensed l).rd F.PWR_THERM_STATUS_TJ = (hottest l).1 ∧
    (s.sensed l).rd F.PWR_THERM_STATUS_SENSOR = (hottest l).2 ∧
    ∀ f : Fld, f.reg ∉ [RegName.PWR_SENSOR, .PWR_THERM_STATUS] → (s.sensed l).rd f = s.rd f := by
  have hne : l ≠ [] := by
    rintro rfl
    exact absurd hlen (by decide)
  obtain ⟨-, hindex, hat⟩ := hottest_is hne
  have htj : (hottest l).1 < 256 := hat ▸ hmax _ (by rw [List.getD_eq_getElem _ _ hindex]; exact List.getElem_mem hindex)
  have hout {f : Fld} (hf : f.reg ≠ .PWR_THERM_STATUS) :
      (s.sensed l).rd f = (s.wrWords F.PWR_SENSOR_TEMP (fun n => l.getD n 0) 128).rd f :=
    (State.rd_wr_of_reg_ne _ _ hf).trans (State.rd_wr_of_reg_ne _ _ hf)
  refine ⟨fun k hk => ?_, ?_, ?_, fun f hf => ?_⟩
  · rw [hout (by nofun)]
    exact State.rd_wrWords s F.PWR_SENSOR_TEMP _ (fun a b hab => (Fld.key_eq.1 hab).2.1) hk
  · rw [State.sensed, State.rd_wr_of_lo_ne _ _ (by decide), State.rd_wr_self]
    exact Nat.mod_eq_of_lt htj
  · rw [State.sensed, State.rd_wr_self]
    exact Nat.mod_eq_of_lt (hindex.trans_eq hlen)
  · rw [hout fun h => hf (by rw [h]; decide), State.rd_wrWords_ne _ _ _ _ fun k _ hkey => hf ?_]
    rw [(Fld.key_eq.1 hkey).1]
    exact List.mem_cons_self

theorem State.sensed_thermTrip (l : List Nat) : (s.sensed l).thermTrip = s.thermTrip := by
  rw [State.sensed, State.wr_thermTrip, State.wr_thermTrip]
  exact (s.wrWords_changes F.PWR_SENSOR_TEMP (fun n => l.getD n 0) 128).thermTrip

theorem State.throttles_leaves : readsBut [F.PWR_STATUS_THERM_THROTTLE, F.PWR_INT_STATUS_BITS] s s.throttles ∧
    s.throttles.thermTrip = s.thermTrip ∧ (s.tooHot = true → s.throttles.on F.PWR_STATUS_THERM_THROTTLE = true) := by
  have hstart : signals [F.PWR_STATUS_THERM_THROTTLE, F.PWR_INT_STATUS_BITS] s ((s.wrB F.PWR_STATUS_THERM_THROTTLE true).raise .pwr 0 4) :=
    ((signals.refl s).wrB (by simp) true).raise (by simp [intStatus]) 4
  obtain ⟨hreads, -⟩ := hstart
  unfold State.throttles
  split
  next =>
    refine ⟨hreads, State.raise_thermTrip .., fun _ => (State.on_congr ?_).trans (State.on_wrB_self s (f := F.PWR_STATUS_THERM_THROTTLE) true (by decide))⟩
    exact State.rd_raise_of_reg_ne _ (by decide)
  next hnot =>
    refine ⟨readsBut.refl s, rfl, fun hhot => ?_⟩
    rw [hhot, Bool.true_and] at hnot
    simpa using hnot

theorem State.trips_leaves (h : Nat × Nat) : readsOff eventRegs s (s.trips h) ∧
    (115 ≤ h.1 → (s.trips h).thermTrip = true) ∧ (h.1 < 115 → (s.trips h).thermTrip = s.thermTrip) := by
  generalize htripped : ({ s with thermTrip := true }.emit (.pin .thermtripN false)) = u
  have hregs : ∀ f, u.rd f = s.rd f := fun f => by
    rw [← htripped]
    rfl
  have hreads : readsOff eventRegs s (u.event fatal (codeOf .pwr 0 4) h.2 h.1) := fun f hf => (State.event_readsOff _ _ _ _ _ _ f hf).trans (hregs f)
  have htrip : (u.event fatal (codeOf .pwr 0 4) h.2 h.1).thermTrip = true := by
    rw [(u.event_rest fatal (codeOf .pwr 0 4) h.2 h.1 false).thermTrip, ← htripped]
    rfl
  have heq : s.trips h = if Decidable.decide (h.1 ≥ 115) && !s.thermTrip then
      if (u.event fatal (codeOf .pwr 0 4) h.2 h.1).on F.KEEP_CFG_THERM_EN then (u.event fatal (codeOf .pwr 0 4) h.2 h.1).keepStart 2
      else u.event fatal (codeOf .pwr 0 4) h.2 h.1
    else s := by
    rw [← htripped]
    rfl
  generalize u.event fatal (codeOf .pwr 0 4) h.2 h.1 = v at hreads htrip heq
  rw [heq]
  split
  next hfirst =>
    have hhot : 115 ≤ h.1 := of_decide_eq_true (Bool.and_eq_true_iff.1 hfirst).1
    split
    · exact ⟨fun f hf => (v.keepStart_rd 2 f).trans (hreads f hf),
        fun _ => (congrArg State.thermTrip (v.keepStart_rest 2) :).trans htrip, fun hcool => absurd hhot (Nat.not_le.2 hcool)⟩
    · exact ⟨hreads, fun _ => htrip, fun hcool => absurd hhot (Nat.not_le.2 hcool)⟩
  next hnot =>
    refine ⟨readsOff.refl s, fun hhot => ?_, fun _ => rfl⟩
    rw [decide_eq_true (show h.1 ≥ 115 from hhot), Bool.true_and] at hnot
    simpa using hnot

theorem exec_thermalRead (temps : List (Fin 256)) : exec (.thermalRead temps) s = .next (
    if !s.due .thermal 0 160000 || temps.length ≠ 128 then s
    else (((s.ran .thermal 0 s.now).sensed (temps.map (fun x => x.val))).throttles).trips (hottest (temps.map (fun x => x.val)))) := rfl

/-- THERMAL_READ (R377, R378, R438). -/
theorem thermalRead_reads (temps : List (Fin 256)) :
    (s.due .thermal 0 160000 = false ∨ temps.length ≠ 128 → Runs (.thermalRead temps) s fun t => t = s) ∧
    (s.due .thermal 0 160000 = true → temps.length = 128 → Runs (.thermalRead temps) s fun t =>
      (∀ k : Fin 128, t.rd (F.PWR_SENSOR_TEMP k) = (temps.getD k 0).val % 2 ^ (F.PWR_SENSOR_TEMP 0).width) ∧
      (∀ k : Fin 128, (temps.getD k 0).val ≤ t.rd F.PWR_THERM_STATUS_TJ) ∧
      (temps.getD (t.rd F.PWR_THERM_STATUS_SENSOR) 0).val = t.rd F.PWR_THERM_STATUS_TJ ∧
      (s.throttleAt ≤ t.rd F.PWR_THERM_STATUS_TJ → t.on F.PWR_STATUS_THERM_THROTTLE = true) ∧
      (115 ≤ t.rd F.PWR_THERM_STATUS_TJ → t.thermTrip = true) ∧
      (t.rd F.PWR_THERM_STATUS_TJ < 115 → t.thermTrip = s.thermTrip)) := by
  refine ⟨fun hidle => .of_exec ((exec_thermalRead s temps).trans (congrArg _ (if_pos ?_))) rfl,
    fun hdue hlen => .of_exec ((exec_thermalRead s temps).trans (congrArg _ (if_neg ?_))) ?_⟩
  · rcases hidle with hearly | hlen
    · rw [hearly]
      rfl
    · rw [decide_eq_true hlen, Bool.or_true]
  · rw [hdue, hlen]
    decide
  · obtain ⟨l, hl⟩ : ∃ l, l = temps.map (fun x => x.val) := ⟨_, rfl⟩
    have hlength : l.length = 128 := by rw [hl, List.length_map, hlen]
    have hmax : ∀ x ∈ l, x < 256 := fun x hx => by
      obtain ⟨y, -, rfl⟩ := List.mem_map.1 (hl ▸ hx)
      exact y.isLt
    have hget (k : Nat) (hk : k < 128) : l.getD k 0 = (temps.getD k 0).val := by
      rw [hl, List.getD_eq_getElem _ _ (by rw [List.length_map, hlen]; exact hk), List.getElem_map, List.getD_eq_getElem]
    obtain ⟨hall, hindex, hat⟩ := hottest_is (l := l) fun h => absurd hlength (by rw [h]; decide)
    rw [← hl]
    obtain ⟨r, hr⟩ : ∃ r, r = s.ran .thermal 0 s.now := ⟨_, rfl⟩
    have hran (f : Fld) : r.rd f = s.rd f := by
      rw [hr]
      rfl
    rw [← hr]
    obtain ⟨hsensor, htjr, hnumber, hothers⟩ := r.sensed_shows hlength hmax
    obtain ⟨hthrottle, hsame, hstarts⟩ := (r.sensed l).throttles_leaves
    obtain ⟨htrips, htrip, hcool⟩ := (r.sensed l).throttles.trips_leaves (hottest l)
    have htrip0 : (r.sensed l).throttles.thermTrip = s.thermTrip := (hsame.trans (r.sensed_thermTrip l)).trans (by rw [hr]; rfl)
    have hoff := hthrottle.off (rs := [.PWR_STATUS, .PWR_INT_STATUS]) (by decide)
    have hread {f : Fld} (hevent : f.reg ∉ eventRegs) (hf : f.reg ∉ [RegName.PWR_STATUS, .PWR_INT_STATUS]) :
        ((r.sensed l).throttles.trips (hottest l)).rd f = (r.sensed l).rd f := (htrips f hevent).trans (hoff f hf)
    have htj : ((r.sensed l).throttles.trips (hottest l)).rd F.PWR_THERM_STATUS_TJ = (hottest l).1 := (hread (by decide) (by decide)).trans htjr
    have hnumber : ((r.sensed l).throttles.trips (hottest l)).rd F.PWR_THERM_STATUS_SENSOR = (hottest l).2 :=
      (hread (by decide) (by decide)).trans hnumber
    rw [htj, hnumber]
    refine ⟨fun k => ?_, fun k => ?_, ?_, fun hhot => ?_, htrip, fun hlow => (hcool hlow).trans htrip0⟩
    · rw [hread (show RegName.PWR_SENSOR ∉ eventRegs by decide) (show RegName.PWR_SENSOR ∉ _ by decide), hsensor k k.isLt, hget k k.isLt]
      rfl
    · rw [← hget k k.isLt, List.getD_eq_getElem _ _ (hlength.symm ▸ k.isLt)]
      exact hall _ (List.getElem_mem _)
    · rw [← hget _ (hindex.trans_eq hlength), hat]
    · refine (State.on_congr (htrips _ (by decide))).trans (hstarts ?_)
      have hat : (r.sensed l).throttleAt = s.throttleAt := by
        unfold State.throttleAt
        rw [hothers _ (by decide), hran]
      rw [State.tooHot, hat, htjr]
      exact decide_eq_true hhot

end Thermal

/-! ### THROTTLE_STEP (R377) -/

/-- The code of the mode and the COMPUTE yield depends on the state, the bounds and COMPUTE's steps. -/
theorem State.policyCode_congr {s t : State} (hstate : t.pwrState = s.pwrState) (hsteps : t.steps 2 = s.steps 2)
    (hbounds : ∀ f : Fld, f.reg = .PWR_FREQ_BOUND → t.rd f = s.rd f) : t.policyCode = s.policyCode := by
  have hceil : t.freqCeil = s.freqCeil := congrArg (min 4) (hbounds _ rfl)
  have hfloor : t.freqFloor = s.freqFloor := by
    unfold State.freqFloor
    rw [hceil, hbounds _ rfl]
  unfold State.policyCode State.nominalCode
  rw [hstate, hsteps, hceil, hfloor]

section Throttle

variable (s : State)

/-- The divider is asked for the code in force, where that is not the present one. -/
theorem State.applyCode_pending {c : Nat} (hcode : s.policyCode + s.thermCodes = c) (hc : c ≤ 4) (hnew : s.rd F.CLK_CORE_DIV ≠ c) :
    s.applyCode.rd F.CLK_CORE_PENDING = c := by
  unfold State.applyCode
  rw [hcode, Nat.min_eq_right hc]
  exact s.divRequest_pending (by omega) hnew

theorem State.holdingOff_pending (u : State) : u.holdingOff.rd F.CLK_CORE_PENDING = u.rd F.CLK_CORE_PENDING := by
  obtain ⟨hreads, -⟩ := u.holdingOff_changes
  exact hreads _ (by decide)

/-- The divider is slowed by one more code. -/
def State.slowed : State :=
  let s := s.updPwr (fun p => { p with thermSteps := true :: p.thermSteps })
  let below : Bool := s.policyCode + s.thermCodes > s.freqFloor
  s.override 0 (if below then 1 else 0)

/-- The throttle's step at its period. -/
def State.throttleTurn : State :=
  if s.tooHot then
    if s.dutyNow = 4 && s.nextYield.isNone && s.policyCode + s.thermCodes < 4 then s.slowed.applyCode.holdingOff else s
  else if s.coolEnough then
    match s.pwr.thermSteps with
    | _ :: t => (s.updPwr (fun p => { p with thermSteps := t })).applyCode.applyDuty.holdingOff
    | [] =>
      if s.pwr.thermYield > 0 && !s.pwr.yields.isEmpty then
        (s.updPwr (fun p => { p with thermYield := p.thermYield - 1 })).takeBack.holdingOff
      else (s.updPwr (fun p => { p with thermYield := 0 })).wrB F.PWR_STATUS_THERM_THROTTLE false
  else s

theorem exec_throttleStep : exec .throttleStep s = .next (
    if !s.on F.PWR_STATUS_THERM_THROTTLE || !s.due .throttle 0 1600000 then s else (s.ran .throttle 0 s.now).throttleTurn) := rfl

theorem State.slowed_slows : s.slowed.pwr.thermSteps = true :: s.pwr.thermSteps ∧ readsOff overrideRegs s s.slowed := by
  obtain ⟨detail, u, hu, hslowed⟩ : ∃ detail u, u = s.updPwr (fun p => { p with thermSteps := true :: p.thermSteps }) ∧
      s.slowed = u.override 0 detail := by
    unfold State.slowed
    exact ⟨_, _, rfl, rfl⟩
  have hsteps : u.pwr.thermSteps = true :: s.pwr.thermSteps := by
    rw [hu]
    rfl
  have hreads : ∀ f, u.rd f = s.rd f := fun f => by
    rw [hu]
    rfl
  rw [hslowed, (u.override_rest 0 detail).pwr]
  exact ⟨hsteps, fun f hf => (u.override_readsOff 0 detail f hf).trans (hreads f)⟩

/-- A divider step: heat, and nothing else left to give. -/
theorem State.throttleTurn_slows (hhot : s.tooHot = true) (hduty : s.dutyNow = 4) (hnone : s.nextYield = none)
    (hcode : s.policyCode + s.thermCodes < 4) : s.throttleTurn.pwr.thermSteps = true :: s.pwr.thermSteps ∧
    (s.rd F.CLK_CORE_DIV ≠ s.policyCode + s.thermCodes + 1 → s.throttleTurn.rd F.CLK_CORE_PENDING = s.policyCode + s.thermCodes + 1) := by
  have hturn : s.throttleTurn = s.slowed.applyCode.holdingOff :=
    (if_pos hhot).trans (if_pos (by rw [hduty, hnone, decide_eq_true hcode]; rfl))
  obtain ⟨hsteps, hreads⟩ := s.slowed_slows
  have hdrives : s.slowed.Drives s.slowed.applyCode.holdingOff := (State.Drives.refl _).applyCode.holdingOff
  rw [hturn]
  refine ⟨hdrives.thermSteps.trans hsteps, fun hnew => ?_⟩
  rw [State.holdingOff_pending]
  refine State.applyCode_pending _ ?_ hcode (by rwa [hreads _ (by decide)])
  have hcodes : s.slowed.thermCodes = s.thermCodes + 1 := by
    unfold State.thermCodes
    rw [hsteps]
    rfl
  rw [hcodes, State.policyCode_congr (hreads _ (by decide)) (hreads _ (by decide)) fun f hf => hreads f (by rw [hf]; decide)]
  rfl

theorem State.tooHot_of_coolEnough (hcool : s.coolEnough = true) : s.tooHot = false := by
  have hle : s.rd F.PWR_THERM_STATUS_TJ + max 1 (s.rd F.PWR_THERM_CFG_HYST) ≤ s.throttleAt := of_decide_eq_true hcool
  exact decide_eq_false (by omega)

/-- The last step is released once Tj has fallen. -/
theorem State.throttleTurn_releases (hcool : s.coolEnough = true) (hsteps : s.pwr.thermSteps ≠ []) :
    s.throttleTurn.pwr.thermSteps = s.pwr.thermSteps.tail ∧
    s.throttleTurn.on F.PWR_STATUS_THERM_THROTTLE = s.on F.PWR_STATUS_THERM_THROTTLE := by
  obtain ⟨b, l, hl⟩ := List.exists_cons_of_ne_nil hsteps
  obtain ⟨u, hu, hturn⟩ : ∃ u, u = s.updPwr (fun p => { p with thermSteps := l }) ∧ s.throttleTurn = u.applyCode.applyDuty.holdingOff := by
    refine ⟨_, rfl, (if_neg (by rw [s.tooHot_of_coolEnough hcool]; exact Bool.false_ne_true)).trans ((if_pos hcool).trans ?_)⟩
    rw [hl]
  have hdrives : u.Drives s.throttleTurn := hturn ▸ (State.Drives.refl u).applyCode.applyDuty.holdingOff
  refine ⟨hdrives.thermSteps.trans ?_, (hdrives.on (by decide)).trans ?_⟩
  · rw [hu, hl]
    rfl
  · rw [hu]
    rfl

/-- With no step left the throttle ends. -/
theorem State.throttleTurn_ends (hcool : s.coolEnough = true) (hsteps : s.pwr.thermSteps = []) (hyield : s.pwr.thermYield = 0 ∨ s.pwr.yields = []) :
    s.throttleTurn.on F.PWR_STATUS_THERM_THROTTLE = false := by
  have hidle : (Decidable.decide (s.pwr.thermYield > 0) && !s.pwr.yields.isEmpty) = false := by
    rcases hyield with hnone | hnone
    · rw [hnone]
      rfl
    · rw [hnone]
      exact Bool.and_false _
  have hturn : s.throttleTurn = (s.updPwr (fun p => { p with thermYield := 0 })).wrB F.PWR_STATUS_THERM_THROTTLE false := by
    refine (if_neg (by rw [s.tooHot_of_coolEnough hcool]; exact Bool.false_ne_true)).trans ((if_pos hcool).trans ?_)
    rw [hsteps]
    exact if_neg (by rw [hidle]; exact Bool.false_ne_true)
  rw [hturn]
  exact State.on_wrB_self _ _ (by decide)

/-- THROTTLE_STEP (R377). -/
theorem throttleStep_steps :
    (s.on F.PWR_STATUS_THERM_THROTTLE = false ∨ s.due .throttle 0 1600000 = false → Runs .throttleStep s fun t => t = s) ∧
    (s.on F.PWR_STATUS_THERM_THROTTLE = true → s.due .throttle 0 1600000 = true →
      (s.tooHot = true → s.dutyNow = 4 → s.nextYield = none → s.policyCode + s.thermCodes < 4 → Runs .throttleStep s fun t =>
        t.pwr.thermSteps = true :: s.pwr.thermSteps ∧
        (s.rd F.CLK_CORE_DIV ≠ s.policyCode + s.thermCodes + 1 → t.rd F.CLK_CORE_PENDING = s.policyCode + s.thermCodes + 1)) ∧
      (s.coolEnough = true → s.pwr.thermSteps ≠ [] → Runs .throttleStep s fun t =>
        t.pwr.thermSteps = s.pwr.thermSteps.tail ∧ t.on F.PWR_STATUS_THERM_THROTTLE = true) ∧
      (s.coolEnough = true → s.pwr.thermSteps = [] → s.pwr.thermYield = 0 ∨ s.pwr.yields = [] →
        Runs .throttleStep s fun t => t.on F.PWR_STATUS_THERM_THROTTLE = false)) := by
  refine ⟨fun hidle => .of_exec ((exec_throttleStep s).trans (congrArg _ (if_pos ?_))) rfl, fun hon hdue => ?_⟩
  · rcases hidle with hoff | hearly
    · rw [hoff]
      rfl
    · rw [hearly, Bool.not_false, Bool.or_true]
  · have hexec := (exec_throttleStep s).trans (congrArg _ (if_neg (by rw [hon, hdue]; decide)))
    exact ⟨fun hhot hduty hnone hcode => .of_exec hexec (State.throttleTurn_slows (s.ran .throttle 0 s.now) hhot hduty hnone hcode),
      fun hcool hsteps => .of_exec hexec ((State.throttleTurn_releases (s.ran .throttle 0 s.now) hcool hsteps).imp_right fun h => h.trans hon),
      fun hcool hsteps hyield => .of_exec hexec (State.throttleTurn_ends (s.ran .throttle 0 s.now) hcool hsteps hyield)⟩

end Throttle

/-! ### AGEING_MEASURE (R378) -/

section Ageing

variable (s : State) (v : List Nat)

/-- Monitor `n` reports its delay change. -/
def State.monitor (n x : Nat) : State :=
  let a := mget s.ras.ages n {}
  { (s.wr (F.PWR_AGE_DELAY n) x) with ras := { s.ras with ages := minsert s.ras.ages n { a with now := x, largest := max a.largest x } } }

/-- The first `m` monitors have reported. -/
def State.monitored (m : Nat) : State := (List.range m).foldl (fun u n => u.monitor n (v.getD n 0)) s

theorem State.monitored_succ (m : Nat) : s.monitored v (m + 1) = (s.monitored v m).monitor m (v.getD m 0) := by
  rw [State.monitored, List.range_succ, List.foldl_append, State.monitored]
  rfl

theorem State.monitor_ages (n x k : Nat) : mget (s.monitor n x).ras.ages k {} =
    if k = n then { mget s.ras.ages n {} with now := x, largest := max (mget s.ras.ages n {}).largest x } else mget s.ras.ages k {} := by
  have hmap : mfind (s.monitor n x).ras.ages k = if k = n then
      some { mget s.ras.ages n {} with now := x, largest := max (mget s.ras.ages n {}).largest x } else mfind s.ras.ages k := mfind_minsert ..
  rw [mget, hmap]
  split
  · rfl
  · rfl

/-- A monitor that has reported shows its delay, and the largest so far; the others are as before. -/
theorem State.monitored_shows (m k : Nat) : (k < m → (s.monitored v m).rd (F.PWR_AGE_DELAY k) = v.getD k 0 % 2 ^ 16) ∧
    mget (s.monitored v m).ras.ages k {} = if k < m then
      { mget s.ras.ages k {} with now := v.getD k 0, largest := max (mget s.ras.ages k {}).largest (v.getD k 0) } else mget s.ras.ages k {} := by
  induction m with
  | zero => exact ⟨nofun, rfl⟩
  | succ m ih =>
    obtain ⟨hreads, hages⟩ := ih
    rw [State.monitored_succ, State.monitor_ages]
    by_cases hkm : k = m
    · subst hkm
      rw [if_pos rfl, if_pos (Nat.lt_succ_self k), hages, if_neg (Nat.lt_irrefl k)]
      exact ⟨fun _ => State.rd_wr_self .., rfl⟩
    · rw [if_neg hkm, hages]
      refine ⟨fun hk => ?_, if_congr (by omega) rfl rfl⟩
      rw [← hreads (by omega)]
      exact State.rd_wr_ne _ _ fun hkey => hkm (Fld.key_eq.1 hkey).2.1

theorem exec_ageingMeasure (values : List (Fin 65536)) : exec (.ageingMeasure values) s = .next (
    if !s.due .age 0 1600000000 || values.length ≠ 256 then s
    else (s.ran .age 0 s.now).monitored (values.map (fun x => x.val)) 256) := rfl

/-- AGEING_MEASURE (R378). -/
theorem ageingMeasure_measures (values : List (Fin 65536)) :
    (s.due .age 0 1600000000 = false ∨ values.length ≠ 256 → Runs (.ageingMeasure values) s fun t => t = s) ∧
    (s.due .age 0 1600000000 = true → values.length = 256 → Runs (.ageingMeasure values) s fun t => ∀ k : Fin 256,
      t.rd (F.PWR_AGE_DELAY k) = (values.getD k 0).val % 2 ^ (F.PWR_AGE_DELAY 0).width ∧
      (mget t.ras.ages k {}).now = (values.getD k 0).val ∧
      (mget t.ras.ages k {}).largest = max (mget s.ras.ages k {}).largest (values.getD k 0).val) := by
  refine ⟨fun hidle => .of_exec ((exec_ageingMeasure s values).trans (congrArg _ (if_pos ?_))) rfl,
    fun hdue hlen => .of_exec ((exec_ageingMeasure s values).trans (congrArg _ (if_neg ?_))) fun k => ?_⟩
  · rcases hidle with hearly | hlen
    · rw [hearly]
      rfl
    · rw [decide_eq_true hlen, Bool.or_true]
  · rw [hdue, hlen]
    decide
  · have hget : (values.map (fun x => x.val)).getD k 0 = (values.getD k 0).val := by
      rw [List.getD_eq_getElem _ _ (by rw [List.length_map, hlen]; exact k.isLt), List.getElem_map, List.getD_eq_getElem]
    obtain ⟨hreads, hages⟩ := (s.ran .age 0 s.now).monitored_shows (values.map (fun x => x.val)) 256 k
    rw [if_pos k.isLt, hget] at hages
    rw [hreads k.isLt, hages, hget]
    exact ⟨rfl, rfl, rfl⟩

end Ageing

/-- Settles O52: what each command of the core's protection does. -/
theorem powerProtect : Obligations.PowerProtect := by
  unfold Obligations.PowerProtect
  intro s
  obtain ⟨hduty, hrise⟩ := dutyRise_rises s
  obtain ⟨hidle, hthrottle⟩ := throttleStep_steps s
  exact ⟨droopDetect_stretches s, fun _ hh => droopStretchEnd_ends s hh, currentLimit_limits s, hduty, hrise, thermalRead_reads s, hidle,
    hthrottle, ageingMeasure_measures s⟩

end Sys2Proof.Machine
end

section
/-! SUPPORT. What the packets on their way leave of the power manager and of Ferry: counters, buffers, the Causeway, the MAC's own frames, the
Lagoon, deep pages and admission (R42, R101, R172 to R214). -/

set_option Elab.async false

namespace Sys2Proof.Machine

/-- Registers of the power manager and of Ferry, which no packet writes. -/
def powerReg : RegName → Bool
  | .PWR_STATUS | .PWR_CFG | .PWR_POWER | .PWR_DOM_STATUS | .PWR_CAP | .PWR_CAP_EFF | .PWR_CAP_LIMIT | .PWR_FERRY_STATUS | .PWR_FERRY_CTL
  | .PWR_FERRY_TOTAL | .PWR_FREQ_BOUND | .CLK_CORE => true
  | _ => false

/-- From `s` to `t` the power manager's registers and its own state are as before, and so are the fuses. -/
structure State.PowerStands (s t : State) : Prop where
  reads : ∀ f : Fld, powerReg f.reg = true → t.rd f = s.rd f
  pwr : t.pwr = s.pwr
  fuses : t.fuses = s.fuses

theorem powerReg_ne {r r' : RegName} (hr : powerReg r = true) (hr' : powerReg r' = false) : r ≠ r' := fun e =>
  Bool.false_ne_true (hr'.symm.trans (e ▸ hr))

theorem powerReg_intStatus (b : Blk) (i : Nat) : powerReg (intStatus b i).reg = false := by
  cases b <;> rfl

namespace State.PowerStands

variable {s t u : State}

theorem refl (s : State) : s.PowerStands s := ⟨fun _ _ => rfl, rfl, rfl⟩

theorem trans (h : s.PowerStands t) (k : t.PowerStands u) : s.PowerStands u :=
  ⟨fun f hf => (k.reads f hf).trans (h.reads f hf), k.pwr.trans h.pwr, k.fuses.trans h.fuses⟩

theorem rd (h : s.PowerStands t) (f : Fld) (hf : powerReg f.reg = true := by rfl) : t.rd f = s.rd f := h.reads f hf

theorem on (h : s.PowerStands t) (f : Fld) (hf : powerReg f.reg = true := by rfl) : t.on f = s.on f := State.on_congr (h.rd f hf)

theorem ite {c : Prop} [Decidable c] {a b : State} (ha : s.PowerStands a) (hb : s.PowerStands b) : s.PowerStands (if c then a else b) := by
  split
  · exact ha
  · exact hb

theorem foldl {α : Type} {g : State → α → State} (hg : ∀ t x, s.PowerStands t → s.PowerStands (g t x)) (h : s.PowerStands t) (l : List α) :
    s.PowerStands (l.foldl g t) :=
  List.foldlRecOn l g h fun u hu x _ => hg u x hu

/-- What differs beside the registers, the power manager and the fuses. -/
theorem same (h : s.PowerStands t) (hregs : u.regs = t.regs := by rfl) (hpwr : u.pwr = t.pwr := by rfl) (hfuses : u.fuses = t.fuses := by rfl) :
    s.PowerStands u := h.trans ⟨fun f _ => State.rd_congr hregs f, hpwr, hfuses⟩

/-- A write of a register of another block. -/
theorem wr (h : s.PowerStands t) (f : Fld) (v : Nat) (hf : powerReg f.reg = false := by rfl) : s.PowerStands (t.wr f v) :=
  h.trans ⟨fun _ hg => State.rd_wr_of_reg_ne _ _ (powerReg_ne hg hf), rfl, rfl⟩

theorem raise (h : s.PowerStands t) (b : Blk) (i e : Nat) : s.PowerStands (t.raise b i e) :=
  (h.wr _ _ (powerReg_intStatus b i)).same (State.regs_raise ..) (State.raise_pwr ..) (State.raise_fuses ..)

theorem updPath (h : s.PowerStands t) (g : Path → Path) : s.PowerStands (t.updPath g) := h.same
theorem updPort (h : s.PowerStands t) (p : Nat) (g : PortX → PortX) : s.PowerStands (t.updPort p g) := h.same
theorem updBpm (h : s.PowerStands t) (g : BpmSt → BpmSt) : s.PowerStands (t.updBpm g) := h.same
theorem updTel (h : s.PowerStands t) (g : TelSt → TelSt) : s.PowerStands (t.updTel g) := h.same
theorem emit (h : s.PowerStands t) (o : Out) : s.PowerStands (t.emit o) := h.same

/-! ### Counters, records and drops (R308 to R327) -/

theorem cntAdd (h : s.PowerStands t) (n v : Nat) : s.PowerStands (t.cntAdd n v).2 := by
  have hovf : s.PowerStands (t.wrB (F.CNT_CTL_OVF n) true) := h.wr _ _
  unfold State.cntAdd
  dsimp only
  split
  · exact h.wr _ _
  · exact (ite (hovf.raise ..) hovf).wr _ _

theorem cntGlobal (h : s.PowerStands t) (ev arg v : Nat) : s.PowerStands (t.cntGlobal ev arg v) :=
  foldl (fun _ _ hu => ite (hu.cntAdd ..) hu) h _

theorem mib (h : s.PowerStands t) (p k n : Nat) : s.PowerStands (t.mib p k n) := h.wr _ _

theorem recLost (h : s.PowerStands t) (c n : Nat) : s.PowerStands (t.recLost c n) := ite (h.updTel _) ((h.updTel _).raise ..)

theorem telRecord (h : s.PowerStands t) (ty c : Nat) (rec : Bytes) : s.PowerStands (t.telRecord ty c rec) :=
  ite h (ite (h.updTel _) (h.recLost ..))

theorem drop (h : s.PowerStands t) (code : Nat) (i : DropInfo) : s.PowerStands (t.drop code i) := by
  unfold State.drop
  extract_lets s1 s2 s3 wanted
  have h1 : s.PowerStands s1 := h.wr _ _
  have h2 : s.PowerStands s2 := ite (h1.mib ..) h1
  have h3 : s.PowerStands s3 := by
    unfold s3
    split
    · exact h2.mib ..
    · exact h2
  exact ite (h3.telRecord ..) h3

/-! ### Buffer pools (R207 to R214) -/

theorem ringPop (h : s.PowerStands t) {st k : Nat} {r : Nat × State} (hr : t.ringPop st k = some r) : s.PowerStands r.2 := by
  unfold State.ringPop at hr
  dsimp only at hr
  split at hr
  · cases hr
    exact h.same
  · split at hr
    · cases hr
    · cases hr
      exact h.same

theorem cacheFill (h : s.PowerStands t) (d k part n : Nat) : s.PowerStands (t.cacheFill d k part n) := by
  induction n generalizing t with
  | zero => exact h
  | succ n ih =>
    unfold State.cacheFill
    dsimp only
    split
    · exact h
    · next st hd u hfound =>
      obtain ⟨st', -, hpop⟩ := List.exists_of_findSome?_eq_some hfound
      obtain ⟨r, hr, hpair⟩ := Option.map_eq_some_iff.1 hpop
      have hu : s.PowerStands u := by
        have hr2 := h.ringPop hr
        cases hpair
        exact hr2
      exact ih ((hu.updBpm _).updBpm _)

theorem takeHandle (h : s.PowerStands t) {agent k : Nat} {avoid : Option Nat} {r : Nat × State} (hr : t.takeHandle agent k avoid = some r) :
    s.PowerStands r.2 := by
  unfold State.takeHandle at hr
  extract_lets d part fits u at hr
  have hu : s.PowerStands u := ite h (h.cacheFill ..)
  split at hr
  · cases hr
  · cases hr
    exact hu.same

theorem bpmAlloc (h : s.PowerStands t) (agent k domain : Nat) (avoid : Option Nat := none) :
    s.PowerStands (t.bpmAlloc agent k domain avoid).2.2 := by
  unfold State.bpmAlloc
  extract_lets c
  split
  · exact h
  · split
    · dsimp only
      exact (h.raise ..).cntGlobal ..
    · split
      · dsimp only
        exact (h.raise ..).cntGlobal ..
      · next hr =>
        extract_lets e s1 s2 s3 s4
        have h2 : s.PowerStands s2 := ((h.takeHandle hr).updBpm _).wr _ _
        have h3 : s.PowerStands s3 := h2.wr _ _
        exact ite (h3.raise ..) h3

/-! ### The Causeway (R26 to R34) -/

theorem seqFlit (h : s.PowerStands t) (d b : Nat) (x : Body) : s.PowerStands (t.seqFlit d b x) := h.same
theorem setWait (h : s.PowerStands t) (d vc : Nat) (l : List Body) : s.PowerStands (t.setWait d vc l) := h.same

theorem sendCarry (h : s.PowerStands t) (d b : Nat) : s.PowerStands (t.sendCarry d b) :=
  ite h (foldl (fun _ _ hu => hu.seqFlit ..) h.same _)

theorem putFlit (h : s.PowerStands t) (d b : Nat) (x : Body) : s.PowerStands (t.putFlit d b x) := by
  unfold State.putFlit
  extract_lets s1 y s2 k s3
  have h1 : s.PowerStands s1 := h.seqFlit ..
  have h2 : s.PowerStands s2 := ite h1.same h1
  have h3 : s.PowerStands s3 := ite h2 h2.same
  exact h3.cntGlobal ..

theorem setPkt (h : s.PowerStands t) (k : Nat) (x : Option Pkt) : s.PowerStands (t.setPkt k x) := h.updPath _

theorem lagEvent (h : s.PowerStands t) (d e : Nat) : s.PowerStands (t.lagEvent d e) := h.raise ..

theorem spillUpdate (h : s.PowerStands t) (d : Nat) : s.PowerStands (t.spillUpdate d) :=
  have hset : ∀ v, s.PowerStands (t.wr (F.LAG_HALF_STATUS_SPILLING d) v) := fun v => h.wr _ v
  ite ((hset _).lagEvent ..) (ite (hset _) h)

theorem useGrant (h : s.PowerStands t) (d b : Nat) (x : Body) : s.PowerStands (t.useGrant d b x) := by
  unfold State.useGrant
  split
  · exact h
  · extract_lets o s1 s2
    have h2 : s.PowerStands s2 := (h.updPath _).wr _ _
    split
    · split
      · exact h2.setPkt ..
      · exact h2
    · have hfree : s.PowerStands (s2.subFrom (F.LAG_HALF_STATUS_FREE 1) 1) := h2.wr _ _
      exact (ite (hfree.spillUpdate _) h2).updPath _
    · exact h2

theorem sendOne (h : s.PowerStands t) {d : Nat} {u : State} (hu : t.sendOne d = some u) : s.PowerStands u := by
  unfold State.sendOne at hu
  split at hu
  · cases hu
  · split at hu
    · cases hu
    · next b vc _ _ x rest _ =>
      extract_lets s1 s2 debt s3 s4 at hu
      have h2 : s.PowerStands s2 := ite (useGrant (h.same (u := s1)) ..) h.same
      have h4 : s.PowerStands s4 := (ite h2.same h2).putFlit ..
      exact Option.some.inj hu ▸ ite h4 (h4.updPath _)

theorem sendMany (h : s.PowerStands t) (d n : Nat) : s.PowerStands (t.sendMany d n) := by
  induction n generalizing t with
  | zero => exact h
  | succ n ih =>
    unfold State.sendMany
    split
    · next hu => exact ih (h.sendOne hu)
    · exact h

theorem cwayPump (h : s.PowerStands t) (d : Nat) : s.PowerStands (t.cwayPump d) :=
  (foldl (fun _ _ hu => ite hu (hu.sendCarry ..)) h _).sendMany ..

theorem cross (h : s.PowerStands t) (d : Nat) (l : List Body) : s.PowerStands (t.cross d l) :=
  (foldl (fun _ _ hu => hu.setWait ..) h _).cwayPump _

/-! ### Frames of the MAC (R87, R100, R101) -/

theorem dealBlock (h : s.PowerStands t) (p : Nat) (b : Bits) : s.PowerStands (t.dealBlock p b) := by
  unfold State.dealBlock
  extract_lets x k l full s1 s2
  refine ite ?_ h.same
  split
  · exact ite h.same h.same
  · exact h.same

theorem lineSend (h : s.PowerStands t) (p : Nat) (f : Bytes) : s.PowerStands (t.lineSend p f) :=
  ite (foldl (fun _ _ hu => (hu.updPort p _).dealBlock ..) (h.emit _) _) (h.emit _)

theorem macSend (h : s.PowerStands t) (p da etype : Nat) (payload : Bytes) : s.PowerStands (t.macSend p da etype payload) :=
  ((((h.lineSend ..).mib ..).mib ..).mib ..).mib ..

theorem sendPfc (h : s.PowerStands t) (p prios time : Nat) : s.PowerStands (t.sendPfc p prios time) :=
  (foldl (fun _ _ hu => ite (hu.mib ..) hu) h _).macSend ..

theorem pfcUpdate (h : s.PowerStands t) (p : Nat) : s.PowerStands (t.pfcUpdate p) := by
  unfold State.pfcUpdate
  extract_lets want have0 s1 s2
  have h1 : s.PowerStands s1 := h.wr _ _
  have h2 : s.PowerStands s2 := ite ((h1.sendPfc ..).updPort p _) h1
  exact ite (h.wr _ _) (ite (h2.sendPfc ..) h2)

theorem askXoff (h : s.PowerStands t) (p g : Nat) (on : Bool) : s.PowerStands (t.askXoff p g on) := (h.updPort p _).pfcUpdate _

theorem pgTest (h : s.PowerStands t) (d p g : Nat) : s.PowerStands (t.pgTest d p g) :=
  have hset : ∀ v, s.PowerStands (t.wr (F.LAG_PG_USE_XOFF (3 * (8 * p + g) + 2)) v) := fun v => h.wr _ v
  ite (ite (((hset _).askXoff ..).cntGlobal ..) h) (ite ((hset _).askXoff ..) h)

theorem pgTests (h : s.PowerStands t) (d : Nat) : s.PowerStands (t.pgTests d) := foldl (fun _ _ hu => hu.pgTest ..) h _

/-! ### Accounts and cells (R172 to R183) -/

theorem charge (h : s.PowerStands t) (a : Acct) (d n : Nat) : s.PowerStands (t.charge a d n) := by
  unfold State.charge
  extract_lets seen
  have hhalf : ∀ {u : State} (k : Nat), s.PowerStands u → s.PowerStands (u.wrapAdd (F.LAG_HALF_USE_USED k) n) := fun _ hu => hu.wr _ _
  have hpg : ∀ {u : State} (k : Nat), s.PowerStands u → s.PowerStands (u.wrapAdd (F.LAG_PG_USE_USED k) n) := fun _ hu => hu.wr _ _
  split
  · exact h
  · exact (hhalf _ (hpg _ h)).same
  · exact hhalf _ (h.updPath _)
  · exact hhalf _ h
  · exact (hhalf _ (hpg _ h)).same
  · exact (hhalf _ (hpg _ h)).same

theorem takeIndex (h : s.PowerStands t) (o : Nat) : s.PowerStands (t.takeIndex o).2 := by
  unfold State.takeIndex
  extract_lets n
  split
  · exact h.same
  · split
    · exact h.same
    · exact h

theorem nextCell (h : s.PowerStands t) {d : Nat} {r : Nat × State} (hr : t.nextCell d = some r) : s.PowerStands r.2 := by
  unfold State.nextCell at hr
  split at hr
  · cases hr
  · cases hr
    exact (h.updPath _).takeIndex _

theorem takeCells (h : s.PowerStands t) (d n : Nat) : s.PowerStands (t.takeCells d n).2 := by
  induction n generalizing t with
  | zero => exact h
  | succ n ih =>
    unfold State.takeCells
    split
    · exact h
    · next hr => exact ih ((h.nextCell hr).wr _ _)

/-! ### Queues (R247 to R252) -/

theorem portWake (h : s.PowerStands t) (p : Nat) : s.PowerStands (t.portWake p) := ite h.same h

theorem powerReg_byKey {u m : Nat → Fld} (hu : ∀ k, powerReg (u k).reg = false) (hm : ∀ k, powerReg (m k).reg = false) (k : Nat) :
    powerReg (byKey u m k).reg = false := by
  unfold byKey
  split
  · exact hu _
  · exact hm _

theorem powerReg_occF (k : Nat) : powerReg (occF k).reg = false := powerReg_byKey (fun _ => rfl) (fun _ => rfl) k

theorem queueStatus (h : s.PowerStands t) (k : Nat) : s.PowerStands (t.queueStatus k) := by
  refine ite h ?_
  refine wr (wr (wr (wr (wr h _ _ ?_) _ _ ?_) _ _ ?_) _ _ ?_) _ _ ?_
  all_goals exact powerReg_byKey (fun _ => rfl) (fun _ => rfl) k

theorem wakeTags (h : s.PowerStands t) (k : Nat) : s.PowerStands (t.wakeTags k) := ite h.same h.same

theorem enqueue (h : s.PowerStands t) (k id depth : Nat) : s.PowerStands (t.enqueue k id depth) := by
  unfold State.enqueue
  extract_lets s1 s2 s3 s4
  have h3 : s.PowerStands s3 := ((ite (h.wakeTags k) h).updPath _).queueStatus k
  have h4 : s.PowerStands s4 := h3.wr _ _ (powerReg_byKey (fun _ => rfl) (fun _ => rfl) k)
  exact ite (h4.portWake _) h3

/-! ### Deep pages (R195 to R220) -/

theorem setDeep (h : s.PowerStands t) (q : Nat) (d : DeepQ) : s.PowerStands (t.setDeep q d) := (h.updBpm _).wr _ _

theorem listRoom (h : s.PowerStands t) {q : Nat} {u : State} (hu : t.listRoom q = some u) : s.PowerStands u := by
  unfold State.listRoom at hu
  dsimp only at hu
  split at hu
  · cases hu
    exact h
  · split at hu
    · cases hu
    · split at hu
      · cases hu
        exact ((h.bpmAlloc ..).bpmAlloc _ _ _ _).same
      · cases hu

theorem closePage (h : s.PowerStands t) (q : Nat) : s.PowerStands (t.closePage q) := by
  unfold State.closePage
  split
  · split
    · exact h
    · next hu => exact ((h.listRoom hu).setDeep ..).cntGlobal ..
  · exact h

theorem drawPage (h : s.PowerStands t) {die : Nat} {r : Nat × State} (hr : t.drawPage die = some r) : s.PowerStands r.2 := by
  unfold State.drawPage at hr
  split at hr
  · cases hr
    exact ite ((h.updBpm _).raise ..) (h.updBpm _)
  · dsimp only at hr
    split at hr
    · cases hr
      exact h.bpmAlloc ..
    · cases hr

theorem openPage (h : s.PowerStands t) {q : Nat} {u : State} (hu : t.openPage q = some u) : s.PowerStands u := by
  unfold State.openPage at hu
  split at hu
  · cases hu
  · next hr =>
    cases hu
    exact (h.drawPage hr).setDeep ..

theorem roomPage (h : s.PowerStands t) {q : Nat} {fits : Page → Bool} {u : State} (hu : t.roomPage q fits = some u) : s.PowerStands u := by
  unfold State.roomPage at hu
  extract_lets t1 at hu
  have h1 : s.PowerStands t1 := by
    unfold t1
    split
    · exact ite h (h.closePage _)
    · exact h
  split at hu
  · split at hu
    · exact Option.some.inj hu ▸ h1
    · cases hu
  · exact h1.openPage hu

theorem setPart (h : s.PowerStands t) (q : Nat) (p : Option (Nat × Nat)) : s.PowerStands (t.setPart q p) := by
  unfold State.setPart
  exact h.updBpm _

theorem fillPages (h : s.PowerStands t) (q id m n : Nat) : s.PowerStands (t.fillPages q id m n) := by
  induction n generalizing t with
  | zero => exact h.setPart ..
  | succ n ih =>
    unfold State.fillPages
    split
    · exact h.setPart ..
    · next hu =>
      extract_lets d s1 s2
      have h1 : s.PowerStands s1 := (h.roomPage hu).setDeep ..
      have h2 : s.PowerStands s2 := by
        unfold s2
        split
        · exact ite (h1.closePage _) h1
        · exact h1
      exact ih h2

theorem gather (h : s.PowerStands t) {q id : Nat} {u : State} (hu : t.gather q id = some u) : s.PowerStands u := by
  unfold State.gather at hu
  split at hu
  · cases hu
    exact h
  · split at hu
    · cases hu
    · next hroom =>
      cases hu
      have h1 := (h.roomPage hroom).setDeep q
      exact (ite ((h1 _).cross ..) (h1 _)).fillPages ..

theorem gatherOrWait (h : s.PowerStands t) (q id : Nat) : s.PowerStands (t.gatherOrWait q id) := by
  unfold State.gatherOrWait
  extract_lets wait
  have hwait : s.PowerStands (wait t) := h.updBpm _
  split
  · exact hwait
  · split
    · next hu => exact h.gather hu
    · exact hwait

theorem deliver (h : s.PowerStands t) (id : Nat) (queues : List Nat) : s.PowerStands (t.deliver id queues) := by
  unfold State.deliver
  split
  · exact h
  · exact foldl (fun _ _ hu => ite (hu.gatherOrWait ..) (hu.enqueue ..)) h _

theorem deepEnter (h : s.PowerStands t) (q : Nat) : s.PowerStands (t.deepEnter q) :=
  ite h ((h.wr (F.BPM_DEEP_Q_STATUS_DEEP q) _).wr (F.BPM_DEEP_DIE_STATUS_DEEP_QUEUES (q / 4096)) _)

/-! ### Admission (R177 to R197) -/

theorem store (h : s.PowerStands t) (a : Arrival) (x : Pkt) (n : Nat) (queues : List Nat) : s.PowerStands (t.store a x n queues) := by
  unfold State.store
  extract_lets id s1 s2 s3 r s4 s5 far straight later held s6 l
  have h2 : s.PowerStands s2 := ((h.updPath _).charge ..).wr _ _
  have h3 : s.PowerStands s3 := (h2.spillUpdate _).cntGlobal ..
  have h4 : s.PowerStands s4 := ite (h3.setPkt ..) ((h3.takeCells ..).setPkt ..)
  have h6 : s.PowerStands s6 := ((h4.pgTests _).deliver ..).updPath _
  exact ite h6 (h6.cross ..)

theorem admitDrop (h : s.PowerStands t) (d code : Nat) (i : DropInfo) : s.PowerStands (t.admitDrop d code i) :=
  have hcounted := (h.drop code i).cntGlobal 0x44 code 1
  have hlag : s.PowerStands (((t.drop code i).cntGlobal 0x44 code 1).satAdd (F.LAG_DROP_CNT_COUNT (6 * d + (code - 0x40))) 1) := hcounted.wr _ _
  have hdeep : s.PowerStands (((t.drop code i).cntGlobal 0x44 code 1).satAdd (F.BPM_DEEP_DROP_CNT_COUNT (3 * d + (code - 0x50))) 1) :=
    hcounted.wr _ _
  ite (ite (hlag.lagEvent ..) hlag) (ite hdeep hcounted)

theorem egrDropped (h : s.PowerStands t) (k : Nat) : s.PowerStands (t.egrDropped k) := ite (h.updPath _) h

theorem ecnMark (h : s.PowerStands t) (d k : Nat) (md : Meta) : s.PowerStands (t.ecnMark d k md).2 := by
  have hheld : s.PowerStands (t.ecnHeld k) := (h.wr (F.LAG_Q_STATUS_ECN_PINNED k) _).wr F.LAG_PINNED_CNT_ECN _
  unfold State.ecnMark
  dsimp only
  split
  · exact h
  · exact ite ((ite hheld h).cntGlobal ..) (ite hheld h)

/-- The half of a packet is chosen (R177), and the decision counts in the half (R188). -/
theorem choose (h : s.PowerStands t) (c : Prop) [Decidable c] (home d : Nat) :
    s.PowerStands ((if c then t.cntGlobal 0x43 home 1 else t).decide1 d) := (ite (h.cntGlobal ..) h).updPath _

theorem admitUnicast (h : s.PowerStands t) (a : Arrival) (p q : Nat) : s.PowerStands (t.admitUnicast a p q) := by
  unfold State.admitUnicast
  extract_lets k n home d s1 ing
  have h1 : s.PowerStands s1 := h.choose ..
  split
  · exact (ite (h1.egrDropped _) h1).admitDrop ..
  · split
    · exact h1.admitDrop ..
    · refine ite (h1.admitDrop ..) ?_
      have hmark := h1.ecnMark d k a.md
      split
      next ce s2 hpair =>
      rw [hpair] at hmark
      extract_lets s3 deep s4
      have h3 : s.PowerStands s3 := ite (hmark.deepEnter _) hmark
      have h4 : s.PowerStands s4 := h3.wr _ _ (powerReg_occF k)
      exact h4.store ..

/-! ### Frames of Ferry (R379, R380) -/

theorem ferryDirect (h : s.PowerStands t) (p : Nat) (frame : Bytes) : s.PowerStands (t.ferryDirect p frame) :=
  ite h (admitUnicast (same (t := t) h) ..)

theorem mibRxGood (h : s.PowerStands t) (p : Nat) (f : Bytes) : s.PowerStands (t.mibRxGood p f) :=
  ((((h.mib ..).mib ..).mib ..).mib ..).mib ..

theorem mibRxErr (h : s.PowerStands t) (p k len : Nat) : s.PowerStands (t.mibRxErr p k len) :=
  have hcounted : s.PowerStands (((t.mib p k 1).mib p 22 1).mib p 20 len) := ((h.mib ..).mib ..).mib ..
  ite hcounted (hcounted.mib ..)

theorem countClass (h : s.PowerStands t) (p : Nat) (frame : Bytes) (cls : Option Nat) : s.PowerStands (t.countClass p frame cls) := by
  unfold State.countClass
  extract_lets s1
  have h1 : s.PowerStands s1 := h.updPort ..
  split
  · exact h1.mibRxErr ..
  · exact h1

theorem ferryTaken (h : s.PowerStands t) (p : Nat) (frame : Bytes) (coding : Bool) : s.PowerStands (t.ferryTaken p frame coding).2 := by
  unfold State.ferryTaken
  extract_lets cls s1 s2
  have h1 : s.PowerStands s1 := h.countClass ..
  have h2 : s.PowerStands s2 := ite (h1.mibRxGood ..) h1
  split
  · exact h2
  · split
    · exact h2.wr _ _
    · split
      · exact h2.wr _ _
      · exact h2

/-! ### What the yields of LINKS and MEMORY set (R236, R366, R367) -/

theorem updMc (h : s.PowerStands t) (st : Nat) (g : McSt → McSt) : s.PowerStands (t.updMc st g) := h.same

theorem tsetBegin (h : s.PowerStands t) (st target : Nat) : s.PowerStands (t.tsetBegin st target) :=
  ((h.updMc st _).wr (F.MC_STATUS_TSET_BUSY st) _).wr (F.MC_TSET_CMD_ABORTS st) _

theorem tsetRequest (h : s.PowerStands t) (st target : Nat) : s.PowerStands (t.tsetRequest st target) := by
  unfold State.tsetRequest
  extract_lets s1
  have h1 : s.PowerStands s1 := h.wr _ _
  refine ite h ?_
  split
  · split
    · exact h1
    · exact h1.tsetBegin ..
  · split
    · exact h1.updMc ..
    · exact h1.updMc ..

theorem applyMemory (h : s.PowerStands t) (before : Nat) (load : List Nat) : s.PowerStands (t.applyMemory before load) := by
  unfold State.applyMemory
  refine foldl (fun u st hu => ?_) h _
  extract_lets s1 risk s2 s3
  have h1 : s.PowerStands s1 := hu.wr _ _
  have h2 : s.PowerStands s2 := ite (h1.raise ..) h1
  have h3 : s.PowerStands s3 := h2.wr _ _
  exact ite h3 (h3.tsetRequest ..)

theorem applyXoff (h : s.PowerStands t) : s.PowerStands t.applyXoff := foldl (fun _ _ hu => (hu.updPort ..).pfcUpdate _) h _

end State.PowerStands

end Sys2Proof.Machine
end

section
/-! SUPPORT. Grants of Ferry (R383, R384), and their statement. -/

set_option Elab.async false

namespace Sys2Proof.Machine

/-! ### What leaves on the links, and what the coordinator notes -/

namespace State.PowerStands

variable {s t : State}

/-- The same change of the manager's own state on both sides. -/
theorem updPwr (h : s.PowerStands t) (f : PwrSt → PwrSt) : (s.updPwr f).PowerStands (t.updPwr f) :=
  ⟨h.reads, congrArg f h.pwr, h.fuses⟩

end State.PowerStands

section Links

variable (s : State)

/-- A frame of Ferry moves its TYPE's SEQ, and nothing else of the power manager (R379). -/
theorem State.ferrySend_stands (ports : List Nat) (type count : Nat) (body : Bytes) :
    ∃ q, (s.updPwr (fun p => { p with seqs := q })).PowerStands (s.ferrySend ports type count body) :=
  ⟨_, State.PowerStands.foldl (fun _ _ hu => hu.ferryDirect ..) (.refl _) ports⟩

theorem State.sendGrants_stands (l : List (Nat × Nat)) : ∃ q, (s.updPwr (fun p => { p with seqs := q })).PowerStands (s.sendGrants l) := by
  unfold State.sendGrants
  refine List.foldlRecOn (motive := fun u : State => ∃ q, (s.updPwr (fun p => { p with seqs := q })).PowerStands u) _ _ ?_ ?_
  · exact ⟨s.pwr.seqs, .refl s⟩
  · rintro u ⟨q, hu⟩ c -
    obtain ⟨q', hsent⟩ := u.ferrySend_stands u.ferryPorts ferryGrant c.length (c.flatMap (fun e => beBytes 8 e.1 ++ beBytes 2 e.2 ++ beBytes 2 0))
    exact ⟨q', (hu.updPwr fun p => { p with seqs := q' }).trans hsent⟩

/-- A GRANT that is taken waits; nothing else changes (R384). -/
theorem State.takeGrant_eq (serial seq cap : Nat) : ∃ g, s.takeGrant serial seq cap = s.updPwr (fun p => { p with grantNext := g }) := by
  unfold State.takeGrant
  extract_lets last newer
  split
  · exact ⟨_, rfl⟩
  · exact ⟨s.pwr.grantNext, rfl⟩

/-- With no grant applied every GRANT is newer. -/
theorem State.takeGrant_first (serial seq cap : Nat) (hnone : s.pwr.grant = none) :
    s.takeGrant serial seq cap = s.updPwr (fun p => { p with grantNext := some (cap, serial * 2 ^ 32 + seq) }) := by
  unfold State.takeGrant
  rw [hnone]
  rfl

theorem State.addLate_eq (l : List (Nat × Nat)) : ∃ m, s.addLate l = s.updPwr (fun p => { p with members := m }) := by
  unfold State.addLate
  refine List.foldlRecOn (motive := fun u : State => ∃ m, u = s.updPwr (fun p => { p with members := m })) _ _ ⟨s.pwr.members, rfl⟩ ?_
  rintro u ⟨m, rfl⟩ e -
  exact ⟨_, rfl⟩

end Links

/-! ### GRANT_COMPUTE (R383) -/

theorem map_moveBudget_serial (l : List (Nat × FerryMember)) (n : Nat) : (moveBudget l n).map (fun e => e.1) = l.map (fun e => e.1) := by
  induction n generalizing l with
  | zero => rfl
  | succ n ih =>
    cases ht : firstTaker l with
    | none => rw [moveBudget_of_none _ (.inl ht)]
    | some t =>
      cases hd : bestDonor l with
      | none => rw [moveBudget_of_none _ (.inr hd)]
      | some d => rw [moveBudget_succ _ ht hd, ih, map_moveOne_serial]

section Compute

variable (s : State)

/-- What the coordinator knows at the end of its period. -/
def State.gathered : State :=
  let s := s.updMember s.fuses.serial (fun m =>
    { m with cap := s.rd F.PWR_CAP_EFF_CAP, power := s.rd F.PWR_POWER_TOTAL, floor := s.rd F.PWR_CAP_LIMIT_MIN,
             ceil := s.rd F.PWR_CAP_LIMIT_MAX, at_ := s.now, lag := m.lag || s.on F.PWR_STATUS_HOLDING_OFF })
  (s.addLate (s.reportEntries.map (fun e => (e.1, e.2.2.2.2)))).updAtl (fun a => { a with reports := [] })

/-- The members of the period, with their new grants. -/
def State.periodGrants : List (Nat × FerryMember) :=
  let l := s.activeMembers
  let l := if l.map (fun e => e.1) = s.pwr.granted then moveBudget l (s.rd F.PWR_FERRY_CTL_MOVES)
           else l.map (fun e => (e.1, { e.2 with grant := firstGrant (s.rd F.PWR_FERRY_TOTAL_TOTAL) l.length e.2 }))
  l.map (fun e => (e.1, { e.2 with late := 0, lag := false }))

/-- The grants leave, and this member's own waits. -/
def State.sendPeriod (l : List (Nat × FerryMember)) (ids : List Nat) : State :=
  let s := s.updPwr (fun p => { p with members := l, granted := ids })
  let s := s.wr F.PWR_FERRY_STATUS_MEMBERS l.length
  let seq := mget s.pwr.seqs ferryGrant 0
  let s := s.sendGrants (l.map (fun e => (e.1, e.2.grant)))
  let s := s.ran .ferry 1 s.now
  match l.find? (fun e => e.1 = s.fuses.serial) with
  | some e => s.takeGrant s.fuses.serial seq e.2.grant
  | none => s

theorem exec_grantCompute : exec .grantCompute s = .next (
    if s.ferryRole ≠ 2 || s.on F.PWR_FERRY_CFG_SOFT_COORD || !s.due .ferry 0 s.ferryPeriod then s
    else (s.ran .ferry 0 s.now).gathered.sendPeriod (s.ran .ferry 0 s.now).gathered.periodGrants
      ((s.ran .ferry 0 s.now).gathered.activeMembers.map (fun e => e.1))) := rfl

/-- Gathering moves what is known of the members, and nothing that a grant is computed from. -/
theorem State.gathered_stands : s.gathered.pwr.granted = s.pwr.granted ∧ s.gathered.rd F.PWR_FERRY_TOTAL_TOTAL = s.rd F.PWR_FERRY_TOTAL_TOTAL := by
  obtain ⟨q, f, l, hgathered⟩ : ∃ q f l, s.gathered = ((s.updMember q f).addLate l).updAtl (fun a => { a with reports := [] }) := by
    unfold State.gathered
    exact ⟨_, _, _, rfl⟩
  obtain ⟨m, hm⟩ := (s.updMember q f).addLate_eq l
  rw [hgathered, hm]
  exact ⟨rfl, rfl⟩

/-- The grants of a period before what was late is forgotten. -/
def State.newGrants : List (Nat × FerryMember) :=
  if s.activeMembers.map (fun e => e.1) = s.pwr.granted then moveBudget s.activeMembers (s.rd F.PWR_FERRY_CTL_MOVES)
  else s.activeMembers.map (fun e => (e.1, { e.2 with grant := firstGrant (s.rd F.PWR_FERRY_TOTAL_TOTAL) s.activeMembers.length e.2 }))

theorem State.periodGrants_eq : s.periodGrants = s.newGrants.map (fun e => (e.1, { e.2 with late := 0, lag := false })) := rfl

theorem State.periodGrants_serial : s.periodGrants.map (fun e => e.1) = s.activeMembers.map (fun e => e.1) := by
  have hnew : s.newGrants.map (fun e => e.1) = s.activeMembers.map (fun e => e.1) := by
    unfold State.newGrants
    split
    · exact map_moveBudget_serial ..
    · exact List.map_map
  rw [State.periodGrants_eq, List.map_map, ← hnew]
  rfl

theorem State.periodGrants_settled : ∀ e ∈ s.periodGrants, e.2.late = 0 ∧ e.2.lag = false := by
  intro e he
  obtain ⟨x, -, rfl⟩ := List.mem_map.1 he
  exact ⟨rfl, rfl⟩

theorem State.periodGrants_first (hnew : s.activeMembers.map (fun e => e.1) ≠ s.pwr.granted) :
    ∀ e ∈ s.periodGrants, e.2.grant = firstGrant (s.rd F.PWR_FERRY_TOTAL_TOTAL) s.periodGrants.length e.2 := by
  have heq : s.newGrants = s.activeMembers.map
      (fun e => (e.1, { e.2 with grant := firstGrant (s.rd F.PWR_FERRY_TOTAL_TOTAL) s.activeMembers.length e.2 })) := if_neg hnew
  have hlen : s.periodGrants.length = s.activeMembers.length := by
    rw [State.periodGrants_eq, List.length_map, heq, List.length_map]
  rw [hlen]
  intro e he
  rw [State.periodGrants_eq, heq] at he
  obtain ⟨x, hx, rfl⟩ := List.mem_map.1 he
  obtain ⟨y, -, rfl⟩ := List.mem_map.1 hx
  rfl

/-- The frames and this member's own GRANT leave the period's members and their number. -/
theorem State.sendPeriod_grants (l : List (Nat × FerryMember)) (ids : List Nat) :
    (s.sendPeriod l ids).pwr.granted = ids ∧ (s.sendPeriod l ids).pwr.members = l ∧
    (s.sendPeriod l ids).rd F.PWR_FERRY_STATUS_MEMBERS = l.length % 2 ^ F.PWR_FERRY_STATUS_MEMBERS.width := by
  obtain ⟨u, hu⟩ : ∃ u, u = (s.updPwr (fun p => { p with members := l, granted := ids })).wr F.PWR_FERRY_STATUS_MEMBERS l.length := ⟨_, rfl⟩
  obtain ⟨q, hsent⟩ := u.sendGrants_stands (l.map (fun e => (e.1, e.2.grant)))
  obtain ⟨v, hv, hperiod⟩ : ∃ v, v = (u.sendGrants (l.map (fun e => (e.1, e.2.grant)))).ran .ferry 1
      (u.sendGrants (l.map (fun e => (e.1, e.2.grant)))).now ∧ s.sendPeriod l ids =
      match l.find? (fun e => e.1 = v.fuses.serial) with
      | some e => v.takeGrant v.fuses.serial (mget u.pwr.seqs ferryGrant 0) e.2.grant
      | none => v := by
    subst hu
    exact ⟨_, rfl, rfl⟩
  have hpwr : v.pwr.granted = ids ∧ v.pwr.members = l := by
    rw [show v.pwr = (u.updPwr (fun p => { p with seqs := q })).pwr by rw [hv, ← hsent.pwr]; rfl, hu]
    exact ⟨rfl, rfl⟩
  have hmembers : v.rd F.PWR_FERRY_STATUS_MEMBERS = l.length % 2 ^ F.PWR_FERRY_STATUS_MEMBERS.width := by
    rw [hv, State.ran_rd, hsent.rd F.PWR_FERRY_STATUS_MEMBERS, hu]
    exact State.rd_wr_self ..
  rw [hperiod]
  split
  next e _ =>
    obtain ⟨g, hg⟩ := v.takeGrant_eq v.fuses.serial (mget u.pwr.seqs ferryGrant 0) e.2.grant
    rw [hg]
    exact ⟨hpwr.1, hpwr.2, hmembers⟩
  next => exact ⟨hpwr.1, hpwr.2, hmembers⟩

/-- GRANT_COMPUTE (R383). -/
theorem grantCompute_grants :
    (s.ferryRole ≠ 2 ∨ s.on F.PWR_FERRY_CFG_SOFT_COORD = true ∨ s.due .ferry 0 s.ferryPeriod = false → Runs .grantCompute s fun t => t = s) ∧
    (s.ferryRole = 2 → s.on F.PWR_FERRY_CFG_SOFT_COORD = false → s.due .ferry 0 s.ferryPeriod = true → Runs .grantCompute s fun t =>
      t.pwr.granted = t.pwr.members.map (fun e => e.1) ∧
      t.rd F.PWR_FERRY_STATUS_MEMBERS = t.pwr.members.length % 2 ^ F.PWR_FERRY_STATUS_MEMBERS.width ∧
      (∀ e ∈ t.pwr.members, e.2.late = 0 ∧ e.2.lag = false) ∧
      (t.pwr.granted ≠ s.pwr.granted → ∀ e ∈ t.pwr.members,
        e.2.grant = firstGrant (s.rd F.PWR_FERRY_TOTAL_TOTAL) t.pwr.members.length e.2)) := by
  refine ⟨fun hidle => .of_exec ((exec_grantCompute s).trans (congrArg _ (if_pos ?_))) rfl,
    fun hrole hsoft hdue => .of_exec ((exec_grantCompute s).trans (congrArg _ (if_neg ?_))) ?_⟩
  · rcases hidle with hrole | hsoft | hearly
    · rw [decide_eq_true hrole]
      rfl
    · rw [hsoft, Bool.or_true]
      rfl
    · rw [hearly, Bool.not_false, Bool.or_true]
  · rw [hrole, hsoft, hdue]
    decide
  · obtain ⟨hgranted, htotal⟩ := (s.ran .ferry 0 s.now).gathered_stands
    generalize (s.ran .ferry 0 s.now).gathered = u at hgranted htotal ⊢
    obtain ⟨hids, hmembers, hcount⟩ := u.sendPeriod_grants u.periodGrants (u.activeMembers.map (fun e => e.1))
    rw [hids, hmembers, hcount]
    refine ⟨u.periodGrants_serial.symm, rfl, u.periodGrants_settled, fun hnew => ?_⟩
    have hfirst := u.periodGrants_first fun h => hnew (h.trans hgranted)
    rw [htotal] at hfirst
    exact hfirst

end Compute

/-! ### GRANT_RECEIVE (R382, R384) -/

section Receive

variable (s : State) (p : Fin 512) (frame : Bytes)

/-- What the MAC takes leaves the power manager (R380). -/
theorem State.ferryRx_stands {type : Nat} {r : Bool × State} (hrx : s.ferryRx p type frame = some r) : s.PowerStands r.2 := by
  unfold State.ferryRx at hrx
  split at hrx
  · cases hrx
  · exact Option.some.inj hrx ▸ (State.PowerStands.refl s).ferryTaken ..

theorem exec_grantReceive : exec (.grantReceive p frame) s = .next (
    match s.ferryRx p ferryGrant frame with
    | none => s
    | some (false, t) => t
    | some (true, t) => t.grantIn p frame) := rfl

theorem State.grantIn_elsewhere (h : s.ferryRole ≠ 1 ∨ p.val ≠ s.upLink) : s.grantIn p frame = s := by
  refine if_pos ?_
  rcases h with hrole | hlink
  · rw [decide_eq_true hrole]
    rfl
  · rw [decide_eq_true hlink, Bool.or_true]

/-- A GRANT from the up link goes down the tree, and this member's entry is taken. -/
theorem State.grantIn_up (hrole : s.ferryRole = 1) (hlink : p.val = s.upLink) : ∃ u, s.PowerStands u ∧ s.grantIn p frame =
    match (List.range (beAt frame 16 2)).find? (fun k => beAt frame (38 + 12 * k) 8 = u.fuses.serial) with
    | some k => u.takeGrant (beAt frame 22 8) (beAt frame 30 4) (beAt frame (46 + 12 * k) 2)
    | none => u := by
  have hsent : s.PowerStands ((s.ferryPorts.filter (fun x => x ≠ p.val)).foldl (fun s x => s.ferryDirect x frame) s) :=
    State.PowerStands.foldl (fun _ _ hu => hu.ferryDirect ..) (.refl s) _
  refine ⟨_, hsent.same, if_neg ?_⟩
  rw [hrole, decide_eq_false (not_not.2 hlink)]
  decide

/-- GRANT_RECEIVE (R382, R384). -/
theorem grantReceive_takes :
    (s.ferryRx p ferryGrant frame = none → Runs (.grantReceive p frame) s fun t => t = s) ∧
    (∀ r, s.ferryRx p ferryGrant frame = some r →
      (r.1 = false ∨ s.ferryRole ≠ 1 ∨ p.val ≠ s.upLink → Runs (.grantReceive p frame) s fun t => t = r.2) ∧
      (r.1 = true → s.ferryRole = 1 → p.val = s.upLink → beAt frame 16 2 = 1 → beAt frame 38 8 = s.fuses.serial → s.pwr.grant = none →
        Runs (.grantReceive p frame) s fun t => t.pwr.grantNext = some (beAt frame 46 2, beAt frame 22 8 * 2 ^ 32 + beAt frame 30 4)) ∧
      (r.1 = true → s.ferryRole = 1 → p.val = s.upLink → beAt frame 16 2 = 0 →
        Runs (.grantReceive p frame) s fun t => t.pwr.grantNext = s.pwr.grantNext)) := by
  have hexec := exec_grantReceive s p frame
  refine ⟨fun hnone => ?_, fun r hrx => ?_⟩
  · rw [hnone] at hexec
    exact .of_exec hexec rfl
  · have hstands := s.ferryRx_stands p frame hrx
    have hroles : r.2.ferryRole = s.ferryRole := hstands.rd _
    have hlinks : r.2.upLink = s.upLink := hstands.rd _
    obtain ⟨taken, v⟩ := r
    rw [hrx] at hexec
    refine ⟨fun helse => ?_, fun htaken hrole hlink hcount hserial hfirst => ?_, fun htaken hrole hlink hcount => ?_⟩
    · cases taken with
      | false => exact .of_exec hexec rfl
      | true => exact .of_exec hexec (v.grantIn_elsewhere p frame (by simpa [hroles, hlinks] using helse))
    · cases htaken
      obtain ⟨u, hu, hin⟩ := v.grantIn_up p frame (hroles.trans hrole) (hlink.trans hlinks.symm)
      have hfound : (List.range (beAt frame 16 2)).find? (fun k => beAt frame (38 + 12 * k) 8 = u.fuses.serial) = some 0 := by
        rw [hcount, hu.fuses, hstands.fuses, ← hserial]
        simp [List.range_succ]
      rw [hfound] at hin
      dsimp only at hin
      refine .of_exec (hexec.trans (congrArg _ hin)) ?_
      rw [State.takeGrant_first _ _ _ _ (by rw [hu.pwr, hstands.pwr, hfirst])]
      rfl
    · cases htaken
      obtain ⟨u, hu, hin⟩ := v.grantIn_up p frame (hroles.trans hrole) (hlink.trans hlinks.symm)
      rw [hcount] at hin
      refine .of_exec (hexec.trans (congrArg _ hin)) ?_
      exact congrArg PwrSt.grantNext (hu.pwr.trans hstands.pwr)

end Receive

/-! ### GRANT_REVERT (R384) -/

/-- GRANT_REVERT (R384). -/
theorem grantRevert_reverts (s : State) :
    (s.pwr.grant = none ∨ s.due .ferry 1 (max 1 (s.rd F.PWR_FERRY_CTL_REVERT) * 16000000) = false → Runs .grantRevert s fun t => t = s) ∧
    (∀ g, s.pwr.grant = some g → s.due .ferry 1 (max 1 (s.rd F.PWR_FERRY_CTL_REVERT) * 16000000) = true → Runs .grantRevert s fun t =>
      t.pwr.grant = none ∧ t.pwr.grantNext = none ∧ t.rd F.PWR_CAP_EFF_SOURCE = 0 ∧
      t.rd F.PWR_CAP_EFF_CAP = s.capOf (s.rd F.PWR_CAP_CAP) % 2 ^ F.PWR_CAP_EFF_CAP.width ∧
      changes [F.PWR_CAP_EFF_CAP, F.PWR_CAP_EFF_SOURCE] s { t with pwr := s.pwr }) := by
  obtain ⟨u, hu, hreverted⟩ : ∃ u, u = s.updPwr (fun p => { p with grant := none, grantNext := none }) ∧
      u.applyCap = (u.wr F.PWR_CAP_EFF_CAP (s.capOf (s.rd F.PWR_CAP_CAP))).wr F.PWR_CAP_EFF_SOURCE 0 := ⟨_, rfl, rfl⟩
  have hexec : exec .grantRevert s = .next (
      if s.pwr.grant.isSome && s.due .ferry 1 (max 1 (s.rd F.PWR_FERRY_CTL_REVERT) * 16000000) then u.applyCap else s) := hu ▸ rfl
  refine ⟨fun hidle => .of_exec (hexec.trans (congrArg _ (if_neg ?_))) rfl,
    fun g hg hdue => .of_exec (hexec.trans (congrArg _ ((if_pos (by rw [hg, hdue]; rfl)).trans hreverted))) ⟨?_, ?_, State.rd_wr_self .., ?_, ?_⟩⟩
  · rcases hidle with hnone | hearly
    · rw [hnone]
      exact Bool.false_ne_true
    · rw [hearly, Bool.and_false]
      exact Bool.false_ne_true
  · rw [hu]
    rfl
  · rw [hu]
    rfl
  · rw [State.rd_wr_of_lo_ne _ _ (by decide)]
    exact State.rd_wr_self ..
  · have hcap : changes [F.PWR_CAP_EFF_CAP, F.PWR_CAP_EFF_SOURCE] s
        ((s.wr F.PWR_CAP_EFF_CAP (s.capOf (s.rd F.PWR_CAP_CAP))).wr F.PWR_CAP_EFF_SOURCE 0) :=
      ((changes.refl s).wr List.mem_cons_self _).wr (List.mem_cons_of_mem _ List.mem_cons_self) _
    rw [hu]
    exact hcap

/-- Settles O55: the coordinator's period, a GRANT on its way, and its end. -/
theorem ferryGrants : Obligations.FerryGrants := by
  unfold Obligations.FerryGrants
  intro s
  obtain ⟨hidle, hcompute⟩ := grantCompute_grants s
  obtain ⟨hkept, hrevert⟩ := grantRevert_reverts s
  exact ⟨hidle, hcompute, grantReceive_takes s, hkept, hrevert⟩

end Sys2Proof.Machine
end

section
/-! SUPPORT. The states of the power manager, its yields and their return (R363, R366, R369 to R373, R387). -/

set_option Elab.async false

namespace Sys2Proof.Machine

/-! ### DIVIDER_SWITCH (R363, R376) -/

section Switch

variable (s : State) (mv : Fin 1024)

theorem exec_dividerSwitch : exec (.dividerSwitch mv) s = .next (if s.divReady mv then (s.wr F.PWR_POWER_VCORE mv).divSwitch else s) := rfl

/-- The change that pends is in force. -/
def State.switched : State :=
  (((s.wr F.CLK_CORE_DIV (s.rd F.CLK_CORE_PENDING)).wr F.CLK_CORE_PENDING 7).wrB F.CLK_CORE_DEFERRED_BY_DROOP false).satAdd F.CLK_CORE_CHANGES 1

theorem State.divSwitch_eq : s.divSwitch = if s.rd F.CLK_CORE_PENDING > s.rd F.CLK_CORE_DIV then
    s.switched.voltTarget (nominalMv (s.rd F.CLK_CORE_PENDING)) else s.switched := rfl

theorem State.switched_shows : s.switched.rd F.CLK_CORE_DIV = s.rd F.CLK_CORE_PENDING ∧ s.switched.rd F.CLK_CORE_PENDING = 7 ∧
    s.switched.on F.CLK_CORE_DEFERRED_BY_DROOP = false ∧
    s.switched.rd F.CLK_CORE_CHANGES = min (s.rd F.CLK_CORE_CHANGES + 1) (2 ^ F.CLK_CORE_CHANGES.width - 1) := by
  unfold State.switched State.satAdd State.wrB
  refine ⟨?_, ?_, ?_, ?_⟩
  · rw [State.rd_wr_of_lo_ne _ _ (by decide), State.rd_wr_of_lo_ne _ _ (by decide), State.rd_wr_of_lo_ne _ _ (by decide), State.rd_wr_self]
    exact Nat.mod_eq_of_lt (s.rd_lt F.CLK_CORE_PENDING)
  · rw [State.rd_wr_of_lo_ne _ _ (by decide), State.rd_wr_of_lo_ne _ _ (by decide), State.rd_wr_self]
    rfl
  · exact (State.on_congr (State.rd_wr_of_lo_ne _ _ (by decide))).trans (State.on_wrB_self _ false (by decide))
  · refine (State.rd_satAdd_self _ F.CLK_CORE_CHANGES 1).trans ?_
    rw [State.rd_wr_of_lo_ne _ _ (by decide), State.rd_wr_of_lo_ne _ _ (by decide), State.rd_wr_of_lo_ne _ _ (by decide)]

theorem State.switched_changes :
    changes [F.CLK_CORE_DIV, F.CLK_CORE_PENDING, F.CLK_CORE_DEFERRED_BY_DROOP, F.CLK_CORE_CHANGES] s s.switched :=
  ((((changes.refl s).wr (by simp) _).wr (by simp) _).wrB (by simp) _).satAdd (by simp) 1

theorem State.voltBounds_congr {s t : State} (h : ∀ f : Fld, f.reg = .PWR_VOLT_BOUND → t.rd f = s.rd f) : t.voltBounds = s.voltBounds := by
  unfold State.voltBounds
  rw [h _ rfl, h _ rfl]

/-- DIVIDER_SWITCH (R363, R376). -/
theorem dividerSwitch_switches :
    (s.rd F.CLK_CORE_PENDING = 7 ∨ s.on F.CLK_CORE_STRETCH = true → Runs (.dividerSwitch mv) s fun t => t = s) ∧
    (s.on F.CLK_CORE_STRETCH = false → s.rd F.CLK_CORE_PENDING ≠ 7 → s.rd F.CLK_CORE_DIV < s.rd F.CLK_CORE_PENDING →
      Runs (.dividerSwitch mv) s fun t =>
        t.rd F.CLK_CORE_DIV = s.rd F.CLK_CORE_PENDING ∧ t.rd F.CLK_CORE_PENDING = 7 ∧ t.on F.CLK_CORE_DEFERRED_BY_DROOP = false ∧
        t.rd F.CLK_CORE_CHANGES = min (s.rd F.CLK_CORE_CHANGES + 1) (2 ^ F.CLK_CORE_CHANGES.width - 1) ∧
        (t.pwr.target : Int) = max (s.voltBounds.1 : Int) (min (s.voltBounds.2 : Int) (nominalMv (s.rd F.CLK_CORE_PENDING)))) ∧
    (s.on F.CLK_CORE_STRETCH = false → s.rd F.CLK_CORE_PENDING < s.rd F.CLK_CORE_DIV → s.pwr.droopAt.any (fun t => s.now - t < 8000) = false →
      s.pwr.target ≤ mv + 10 → 32000 ≤ s.now - s.pwr.raisedAt →
      Runs (.dividerSwitch mv) s fun t => t.rd F.CLK_CORE_DIV = s.rd F.CLK_CORE_PENDING ∧ t.rd F.CLK_CORE_PENDING = 7 ∧
        changes [F.PWR_POWER_VCORE, F.CLK_CORE_DIV, F.CLK_CORE_PENDING, F.CLK_CORE_DEFERRED_BY_DROOP, F.CLK_CORE_CHANGES] s t) ∧
    (s.rd F.CLK_CORE_PENDING ≤ s.rd F.CLK_CORE_DIV →
      s.pwr.droopAt.any (fun t => s.now - t < 8000) = true ∨ mv + 10 < s.pwr.target ∨ s.now - s.pwr.raisedAt < 32000 →
      Runs (.dividerSwitch mv) s fun t => t = s) := by
  obtain ⟨u, hu⟩ : ∃ u, u = s.wr F.PWR_POWER_VCORE mv := ⟨_, rfl⟩
  have hreads {f : Fld} (hf : f.reg ≠ .PWR_POWER) : u.rd f = s.rd f := by
    rw [hu]
    exact State.rd_wr_of_reg_ne _ _ hf
  have hready : s.divReady mv = (decide (s.rd F.CLK_CORE_PENDING ≠ 7) && !s.on F.CLK_CORE_STRETCH &&
      (decide (s.rd F.CLK_CORE_PENDING > s.rd F.CLK_CORE_DIV) || (decide (mv.val + 10 ≥ s.pwr.target) &&
        decide (s.now - s.pwr.raisedAt ≥ 32000) && !s.droopBusy))) := rfl
  have hexec := exec_dividerSwitch s mv
  rw [← hu, hready] at hexec
  obtain ⟨hdiv, hpending, hdefer, hcount⟩ := u.switched_shows
  refine ⟨fun hidle => .of_exec (hexec.trans (congrArg _ (if_neg ?_))) rfl, fun hcalm hpend hslower => ?_,
    fun hcalm hfaster hquiet hvolt hlong => ?_, fun hfaster hwait => .of_exec (hexec.trans (congrArg _ (if_neg ?_))) rfl⟩
  · rcases hidle with hnone | hstretch
    · rw [hnone]
      exact Bool.false_ne_true
    · rw [hstretch, Bool.not_true, Bool.and_false, Bool.false_and]
      exact Bool.false_ne_true
  · refine .of_exec (hexec.trans (congrArg _ (if_pos ?_))) ?_
    · rw [decide_eq_true hpend, hcalm, decide_eq_true (show _ > _ from hslower)]
      rfl
    · have hswitch : u.divSwitch = u.switched.voltTarget (nominalMv (s.rd F.CLK_CORE_PENDING)) := by
        rw [State.divSwitch_eq, hreads (by decide), hreads (by decide)]
        exact if_pos hslower
      have hvolt := u.switched.voltTarget_reads (nominalMv (s.rd F.CLK_CORE_PENDING))
      have hbounds : u.switched.voltBounds = s.voltBounds := State.voltBounds_congr fun f hf => by
        rw [(u.switched_changes.1.off (rs := [.CLK_CORE]) (by decide)) f (by rw [hf]; decide), hreads (by rw [hf]; decide)]
      rw [hswitch]
      refine ⟨?_, ?_, ?_, ?_, ?_⟩
      · rw [hvolt _ (by decide), hdiv, hreads (by decide)]
      · rw [hvolt _ (by decide), hpending]
      · rw [State.on_congr (hvolt _ (by decide)), hdefer]
      · rw [hvolt _ (by decide), hcount, hreads (by decide)]
      · rw [State.voltTarget_target, hbounds]
  · have hpend : s.rd F.CLK_CORE_PENDING ≠ 7 := by
      have hlt : s.rd F.CLK_CORE_DIV < 8 := s.rd_lt F.CLK_CORE_DIV
      omega
    refine .of_exec (hexec.trans (congrArg _ (if_pos ?_))) ?_
    · have hcalmer : s.droopBusy = false := by
        unfold State.droopBusy
        rw [hcalm]
        exact hquiet
      rw [decide_eq_true hpend, hcalm, decide_eq_true (show _ ≥ _ from hvolt), decide_eq_true (show _ ≥ _ from hlong), hcalmer, Bool.or_comm]
      rfl
    · have hswitch : u.divSwitch = u.switched := by
        rw [State.divSwitch_eq, hreads (by decide), hreads (by decide)]
        exact if_neg (Nat.not_lt.2 hfaster.le)
      have hsensed : changes [F.PWR_POWER_VCORE, F.CLK_CORE_DIV, F.CLK_CORE_PENDING, F.CLK_CORE_DEFERRED_BY_DROOP, F.CLK_CORE_CHANGES] s u := by
        rw [hu]
        exact (changes.refl s).wr List.mem_cons_self _
      rw [hswitch]
      exact ⟨hdiv.trans (hreads (by decide)), hpending, hsensed.trans (u.switched_changes.mono fun _ => List.mem_cons_of_mem _)⟩
  · rw [decide_eq_false (Nat.not_lt.2 hfaster), Bool.false_or]
    intro hall
    obtain ⟨-, hcond⟩ := Bool.and_eq_true_iff.1 hall
    obtain ⟨hboth, hcalm⟩ := Bool.and_eq_true_iff.1 hcond
    obtain ⟨hvolt, hlong⟩ := Bool.and_eq_true_iff.1 hboth
    rcases hwait with hdroop | hlow | hshort
    · have hbusy : s.droopBusy = true := by
        unfold State.droopBusy
        rw [show s.pwr.droopAt.any (fun t => s.now - t < quietTicks) = true from hdroop, Bool.or_true]
      rw [hbusy] at hcalm
      exact Bool.false_ne_true hcalm
    · exact Nat.not_lt.2 (of_decide_eq_true hvolt) hlow
    · exact Nat.not_lt.2 (of_decide_eq_true hlong) hshort

end Switch

/-! ### VOLT_TRIM (R373) -/

/-- VOLT_TRIM (R373). -/
theorem voltTrim_trims (s : State) :
    (∀ want, s.due .trim 0 160000 = false → Runs (.voltTrim want) s fun t => t = s) ∧
    (s.due .trim 0 160000 = true → Runs (.voltTrim none) s fun t => t.pwr.target = s.pwr.target) ∧
    (∀ up, ∀ v : Int, v = (s.pwr.target : Int) + (if up then 5 else -5) →
      ∀ c : Int, c = max (s.voltBounds.1 : Int) (min (s.voltBounds.2 : Int) v) → s.due .trim 0 160000 = true → Runs (.voltTrim (some up)) s fun t =>
        (t.pwr.target : Int) = c ∧ (c ≠ v → t.on F.PWR_STATUS_VOLT_PINNED = true ∧
          t.rd F.PWR_PINNED_CNT_VOLT = min (s.rd F.PWR_PINNED_CNT_VOLT + 1) (2 ^ F.PWR_PINNED_CNT_VOLT.width - 1))) := by
  refine ⟨fun want hearly => .of_exec (congrArg Host.Outcome.next (if_pos (by rw [hearly]; rfl))) rfl,
    fun hdue => .of_exec (congrArg Host.Outcome.next (if_neg (by rw [hdue]; decide))) rfl, ?_⟩
  rintro up v hv c rfl hdue
  obtain ⟨u, hu⟩ : ∃ u, u = s.ran .trim 0 s.now := ⟨_, rfl⟩
  have hreads (f : Fld) : u.rd f = s.rd f := by
    rw [hu]
    rfl
  have hexec : exec (.voltTrim (some up)) s = .next (u.voltTarget v) := by
    rw [hu, hv]
    exact congrArg Host.Outcome.next (if_neg (by rw [hdue]; decide))
  have hbounds : u.voltBounds = s.voltBounds := State.voltBounds_congr fun f _ => hreads f
  refine .of_exec hexec ⟨?_, fun hbeyond => ?_⟩
  · rw [State.voltTarget_target, hbounds]
  · have hpins := u.voltTarget_pins (mv := v) (by rwa [hbounds])
    rwa [hreads] at hpins

end Sys2Proof.Machine
end

section
/-! SUPPORT. Entries to the power states, and yields and their return (R366, R369 to R372, R387). -/

set_option Elab.async false

namespace Sys2Proof.Machine

/-! ### Entries (R369, R370) -/

section Enter

variable (s : State)

theorem State.pwrEnter_signals (st : Nat) : signals [F.PWR_STATUS_STATE, F.PWR_INT_STATUS_BITS] s (s.pwrEnter st) := by
  unfold State.pwrEnter
  split
  · exact signals.refl s
  · exact ((signals.refl s).wr (by simp) st).raise (by simp [intStatus]) 0

theorem signals.pwr {fs : List Fld} {s t : State} (h : signals fs s t) : t.pwr = s.pwr := (congrArg State.pwr h.2.1 :)

theorem signals.keep {fs : List Fld} {s t : State} (h : signals fs s t) : t.keep = s.keep := (congrArg State.keep h.2.1 :)

theorem State.pwrEnter_state {st : Nat} (hst : st < 8) : (s.pwrEnter st).pwrState = st := by
  unfold State.pwrEnter
  split
  next h => exact h
  next =>
    refine (State.rd_raise_of_reg_ne _ (by decide)).trans ((State.rd_wr_self ..).trans ?_)
    exact Nat.mod_eq_of_lt hst

/-- A change of state shows its event. -/
theorem State.pwrEnter_intBit {st : Nat} (hst : s.pwrState ≠ st) : (s.pwrEnter st).intBit .pwr 0 0 = true := by
  unfold State.pwrEnter
  rw [if_neg hst]
  exact State.intBit_raise_self _ .pwr 0 0 (by decide)

theorem State.pwrEnter_steps (st d : Nat) : (s.pwrEnter st).steps d = s.steps d :=
  (s.pwrEnter_signals st).1.off (rs := [.PWR_STATUS, .PWR_INT_STATUS]) (by decide) _ (show RegName.PWR_DOM_STATUS ∉ _ by decide)

/-- The codes of the states that fix one (R369, R370, R372). -/
theorem State.policyCode_fixed {st c : Nat} (hstate : s.pwrState = st) (h : st = 2 ∧ c = 0 ∨ st = 3 ∧ c = 1 ∨ st = 4 ∧ c = 4) : s.policyCode = c := by
  unfold State.policyCode
  rw [hstate]
  rcases h with ⟨rfl, rfl⟩ | ⟨rfl, rfl⟩ | ⟨rfl, rfl⟩
  · rfl
  · rfl
  · rfl

theorem State.thermCodes_none (h : s.pwr.thermSteps = []) : s.thermCodes = 0 := by
  unfold State.thermCodes
  rw [h]
  rfl

/-- COMPUTE gives back all its steps at once. -/
theorem State.clearCompute_clears : s.clearCompute.steps 2 = 0 ∧ s.clearCompute.pwr = { s.pwr with yields := s.pwr.yields.filter (fun d => d ≠ 2) } ∧
    readsBut [F.PWR_DOM_STATUS_STEPS 2] s s.clearCompute ∧ s.clearCompute.keep = s.keep :=
  ⟨State.rd_wr_self s (F.PWR_DOM_STATUS_STEPS 2) 0, rfl, ((readsBut.refl s).wr List.mem_cons_self 0).congr rfl, rfl⟩

/-- The divider's request is that of the code in force, whatever the duty and HOLDING_OFF. -/
theorem State.settled_pending (u : State) : u.applyCode.applyDuty.holdingOff.rd F.CLK_CORE_PENDING = u.applyCode.rd F.CLK_CORE_PENDING := by
  rw [State.holdingOff_pending]
  exact State.rd_wr_of_reg_ne _ _ (by decide)

end Enter

/-! ### BOOST_ENTRY (R370, R371) -/

section Boost

variable (s : State)

theorem exec_boostEntry : exec .boostEntry s = .next (
    match s.pwr.boostFrom with
    | some t => if s.pwrState = 0 && s.now - t ≥ 160000 then (s.pwrEnter 2).applyCode else s
    | none => s) := rfl

theorem boostEntry_idles {t0 : Option Nat} (hfrom : s.pwr.boostFrom = t0)
    (h : ∀ t1, t0 = some t1 → s.pwrState ≠ 0 ∨ s.now - t1 < 160000) : Runs .boostEntry s fun t => t = s := by
  have hexec := exec_boostEntry s
  rw [hfrom] at hexec
  cases t0 with
  | none => exact .of_exec hexec rfl
  | some t1 =>
    refine .of_exec (hexec.trans (congrArg _ (if_neg ?_))) rfl
    rcases h t1 rfl with hstate | hearly
    · rw [decide_eq_false hstate]
      exact Bool.false_ne_true
    · rw [decide_eq_false (Nat.not_le.2 hearly), Bool.and_false]
      exact Bool.false_ne_true

/-- BOOST_ENTRY (R370, R371). -/
theorem boostEntry_enters {t0 : Nat} (hfrom : s.pwr.boostFrom = some t0) (hlong : 160000 ≤ s.now - t0) (hstate : s.pwrState = 0) :
    Runs .boostEntry s fun t => t.pwrState = 2 ∧ t.intBit .pwr 0 0 = true ∧
      (s.pwr.thermSteps = [] → s.rd F.CLK_CORE_DIV ≠ 0 → t.rd F.CLK_CORE_PENDING = 0) := by
  have hexec := exec_boostEntry s
  rw [hfrom] at hexec
  have hdrives : (s.pwrEnter 2).Drives (s.pwrEnter 2).applyCode := (State.Drives.refl _).applyCode
  have hboost : (s.pwrEnter 2).pwrState = 2 := s.pwrEnter_state (by decide)
  obtain ⟨hreads, -⟩ := s.pwrEnter_signals 2
  refine .of_exec (hexec.trans (congrArg _ (if_pos ?_))) ⟨hdrives.pwrState.trans hboost, hdrives.events 0 (s.pwrEnter_intBit ?_), fun htherm hdiv => ?_⟩
  · rw [hstate, decide_eq_true (show s.now - t0 ≥ 160000 from hlong)]
    rfl
  · rw [hstate]
    decide
  · refine State.applyCode_pending _ ?_ (by decide) (by rwa [hreads _ (by decide)])
    rw [State.policyCode_fixed _ hboost (.inl ⟨rfl, rfl⟩), State.thermCodes_none _ (by rw [(s.pwrEnter_signals 2).pwr, htherm])]

end Boost

/-! ### PWR_MODE_WRITE (R370) -/

section Mode

variable (s : State) {q : Requester} (hq : s.grants q true = true)

/-- The mode is written, and COMPUTE's steps are void. -/
def State.modeSet (mode : Bool) : State := (s.wrB F.PWR_CFG_MODE mode).clearCompute

include hq in
theorem exec_pwrModeWrite (mode : Bool) : exec (.pwrModeWrite q mode) s = .next (
    if s.on F.PWR_CFG_MODE = mode then s
    else if s.pwrState = 4 then s.locked q .PWR_CFG 0 4
    else (if mode then (s.modeSet mode).pwrEnter 3 else (s.modeSet mode).enterAdaptive).applyCode.applyDuty.holdingOff) :=
  if_neg (by rw [hq]; decide)

theorem State.modeSet_sets (mode : Bool) : (s.modeSet mode).on F.PWR_CFG_MODE = mode ∧ (s.modeSet mode).steps 2 = 0 ∧
    (s.modeSet mode).pwr = { s.pwr with yields := s.pwr.yields.filter (fun d => d ≠ 2) } ∧
    (s.modeSet mode).rd F.CLK_CORE_DIV = s.rd F.CLK_CORE_DIV := by
  obtain ⟨hsteps, hpwr, hreads, -⟩ := (s.wrB F.PWR_CFG_MODE mode).clearCompute_clears
  refine ⟨(State.on_congr (hreads _ (by decide))).trans (State.on_wrB_self _ _ (by decide)), hsteps, hpwr, (hreads _ (by decide)).trans ?_⟩
  exact State.rd_wr_of_reg_ne _ _ (by decide)

include hq in
/-- MODE is locked in SAVE, and a write of what it is changes nothing. -/
theorem pwrModeWrite_keeps (mode : Bool) :
    (s.on F.PWR_CFG_MODE = mode → Runs (.pwrModeWrite q mode) s fun t => t = s) ∧
    (s.on F.PWR_CFG_MODE ≠ mode → s.pwrState = 4 → Runs (.pwrModeWrite q mode) s (discarded q (regAddr .PWR_CFG 0) 4 0 s)) :=
  ⟨fun hsame => .of_exec ((exec_pwrModeWrite s hq mode).trans (congrArg _ (if_pos hsame))) rfl,
    fun hnew hsave => .of_exec ((exec_pwrModeWrite s hq mode).trans (congrArg _ ((if_neg hnew).trans (if_pos hsave)))) (s.discard_discarded ..)⟩

include hq in
/-- FIXED mode (R370). -/
theorem pwrModeWrite_fixes (hmode : s.on F.PWR_CFG_MODE = false) (hstate : s.pwrState ≠ 4) : Runs (.pwrModeWrite q true) s fun t =>
    t.on F.PWR_CFG_MODE = true ∧ t.pwrState = 3 ∧ t.steps 2 = 0 ∧
    (s.pwr.thermSteps = [] → s.rd F.CLK_CORE_DIV ≠ 1 → t.rd F.CLK_CORE_PENDING = 1) := by
  obtain ⟨hset, hsteps, hpwr, hdiv⟩ := s.modeSet_sets true
  have hexec : exec (.pwrModeWrite q true) s = .next ((s.modeSet true).pwrEnter 3).applyCode.applyDuty.holdingOff :=
    (exec_pwrModeWrite s hq true).trans (congrArg _ ((if_neg (by rw [hmode]; exact Bool.false_ne_true)).trans (if_neg hstate)))
  have hfixed : ((s.modeSet true).pwrEnter 3).pwrState = 3 := State.pwrEnter_state _ (by decide)
  obtain ⟨hreads, -⟩ := (s.modeSet true).pwrEnter_signals 3
  have hdrives := (State.Drives.refl ((s.modeSet true).pwrEnter 3)).applyCode.applyDuty.holdingOff
  refine .of_exec hexec ⟨?_, hdrives.pwrState.trans hfixed, ?_, fun htherm hnew => ?_⟩
  · exact (hdrives.on (by decide)).trans ((State.on_congr (hreads _ (by decide))).trans hset)
  · exact (hdrives.steps 2).trans ((State.pwrEnter_steps ..).trans hsteps)
  · rw [State.settled_pending]
    refine State.applyCode_pending _ ?_ (by decide) (by rwa [hreads _ (by decide), hdiv])
    rw [State.policyCode_fixed _ hfixed (.inr (.inl ⟨rfl, rfl⟩)),
      State.thermCodes_none _ (by rw [((s.modeSet true).pwrEnter_signals 3).pwr, hpwr, ← htherm])]

include hq in
/-- The adaptive mode (R369, R370). -/
theorem pwrModeWrite_adapts (hmode : s.on F.PWR_CFG_MODE = true) (hstate : s.pwrState ≠ 4) : Runs (.pwrModeWrite q false) s fun t =>
    t.on F.PWR_CFG_MODE = false ∧ t.steps 2 = 0 ∧ t.pwr.yields = s.pwr.yields.filter (fun d => d ≠ 2) ∧
    t.pwrState = (if t.pwr.yields = [] then 0 else 1) := by
  obtain ⟨hset, hsteps, hpwr, -⟩ := s.modeSet_sets false
  obtain ⟨st, hst, hexec⟩ : ∃ st, st = (if s.pwr.yields.filter (fun d => d ≠ 2) = [] then 0 else 1) ∧
      exec (.pwrModeWrite q false) s = .next ((s.modeSet false).pwrEnter st).applyCode.applyDuty.holdingOff := by
    refine ⟨_, rfl, (exec_pwrModeWrite s hq false).trans (congrArg _ ((if_neg (by rw [hmode]; decide)).trans ((if_neg hstate).trans ?_)))⟩
    have hempty : (s.modeSet false).enterAdaptive = (s.modeSet false).pwrEnter (if s.pwr.yields.filter (fun d => d ≠ 2) = [] then 0 else 1) := by
      unfold State.enterAdaptive
      rw [hpwr]
      congr 1
      exact if_congr List.isEmpty_iff rfl rfl
    rw [if_neg Bool.false_ne_true, hempty]
  have hentered : ((s.modeSet false).pwrEnter st).pwrState = st := State.pwrEnter_state _ (by rw [hst]; split <;> decide)
  have hsignals := (s.modeSet false).pwrEnter_signals st
  have hdrives := (State.Drives.refl ((s.modeSet false).pwrEnter st)).applyCode.applyDuty.holdingOff
  have hyields : ((s.modeSet false).pwrEnter st).applyCode.applyDuty.holdingOff.pwr.yields = s.pwr.yields.filter (fun d => d ≠ 2) := by
    rw [hdrives.yields, hsignals.pwr, hpwr]
  refine .of_exec hexec ⟨?_, ?_, hyields, ?_⟩
  · exact (hdrives.on (by decide)).trans ((State.on_congr (hsignals.1 _ (by decide))).trans hset)
  · exact (hdrives.steps 2).trans ((State.pwrEnter_steps ..).trans hsteps)
  · rw [hdrives.pwrState, hentered, hyields, hst]

end Mode

/-! ### SAVE (R370, R372, R387) -/

section Save

variable (s : State)

/-- The fields that an entry to SAVE changes. -/
def saveFields : List Fld := F.PWR_DOM_STATUS_STEPS 2 :: F.PWR_STATUS_STATE :: F.PWR_INT_STATUS_BITS :: driveFields

/-- An entry to SAVE (R372). -/
theorem State.enterSave_saves : s.enterSave.pwrState = 4 ∧ readsBut saveFields s s.enterSave ∧ s.enterSave.pwr.failAt = s.pwr.failAt ∧
    s.enterSave.keep = s.keep ∧ (s.pwrState ≠ 4 → s.rd F.CLK_CORE_DIV ≠ 4 → s.enterSave.rd F.CLK_CORE_PENDING = 4) := by
  by_cases hsave : s.pwrState = 4
  · have hstays : s.enterSave = s := if_pos hsave
    rw [hstays]
    exact ⟨hsave, readsBut.refl s, rfl, rfl, fun h => absurd hsave h⟩
  · have henters : s.enterSave = (s.clearCompute.pwrEnter 4).applyCode.applyDuty.holdingOff := if_neg hsave
    obtain ⟨-, hpwr, hcleared, hkeep⟩ := s.clearCompute_clears
    have hsignals := s.clearCompute.pwrEnter_signals 4
    have hstate : (s.clearCompute.pwrEnter 4).pwrState = 4 := State.pwrEnter_state _ (by decide)
    have hdrives := (State.Drives.refl (s.clearCompute.pwrEnter 4)).applyCode.applyDuty.holdingOff
    have hbefore : readsBut saveFields s (s.clearCompute.pwrEnter 4) :=
      (hcleared.mono (by simp [saveFields])).trans (hsignals.1.mono (by simp [saveFields]))
    rw [henters]
    refine ⟨hdrives.pwrState.trans hstate, hbefore.trans (hdrives.reads.mono (by simp +contextual [saveFields])), ?_, ?_, fun _ hdiv => ?_⟩
    · rw [hdrives.failAt, hsignals.pwr, hpwr]
    · rw [hdrives.keep, hsignals.keep, hkeep]
    · rw [State.settled_pending]
      unfold State.applyCode
      rw [State.policyCode_fixed _ hstate (.inr (.inr ⟨rfl, rfl⟩)), Nat.min_eq_left (Nat.le_add_right ..)]
      exact State.divRequest_pending _ (by decide) (by rwa [hbefore _ (by decide)])

/-- PWR_SAVE_WRITE (R370, R372). -/
theorem pwrSaveWrite_saves {q : Requester} (hq : s.grants q true = true) :
    Runs (.pwrSaveWrite q false) s (fun t => t.on F.PWR_CFG_SAVE = false ∧ changes [F.PWR_CFG_SAVE] s t) ∧
    Runs (.pwrSaveWrite q true) s fun t => t.on F.PWR_CFG_SAVE = true ∧ t.pwrState = 4 ∧
      (s.pwrState ≠ 4 → s.rd F.CLK_CORE_DIV ≠ 4 → t.rd F.CLK_CORE_PENDING = 4) := by
  have hexec (save : Bool) : exec (.pwrSaveWrite q save) s = .next (if save then (s.wrB F.PWR_CFG_SAVE save).enterSave else s.wrB F.PWR_CFG_SAVE save) :=
    if_neg (by rw [hq]; decide)
  refine ⟨.of_exec (hexec false) ⟨State.on_wrB_self _ _ (by decide), (changes.refl s).wrB List.mem_cons_self _⟩, .of_exec (hexec true) ?_⟩
  have hreads {f : Fld} (hf : f.reg ≠ .PWR_CFG) : (s.wrB F.PWR_CFG_SAVE true).rd f = s.rd f := State.rd_wr_of_reg_ne _ _ hf
  obtain ⟨hstate, hsaved, -, -, hpending⟩ := (s.wrB F.PWR_CFG_SAVE true).enterSave_saves
  refine ⟨(State.on_congr (hsaved _ (by decide))).trans (State.on_wrB_self _ _ (by decide)), hstate, fun hnew hdiv => hpending ?_ ?_⟩
  · rw [State.pwrState, hreads (by decide)]
    exact hnew
  · rwa [hreads (by decide)]

/-- PWRFAIL_N asserted (R370, R387). -/
theorem State.pwrfail_saves : s.pwrfail.on F.PWR_STATUS_PWRFAIL = true ∧ s.pwrfail.pwr.failAt = s.now ∧ s.pwrfail.pwrState = 4 ∧
    (s.ready = true → s.keep.save = none → s.on F.KEEP_CFG_PWRFAIL_EN = true → s.pwrfail.keep.save.map (fun x => x.trigger) = some 0) ∧
    (s.ready = false ∨ s.on F.KEEP_CFG_PWRFAIL_EN = false → s.pwrfail.keep = s.keep) := by
  obtain ⟨u, hu, hfail⟩ : ∃ u, u = (s.wrB F.PWR_STATUS_PWRFAIL true).updPwr (fun p => { p with failAt := s.now }) ∧
      s.pwrfail = if u.enterSave.on F.KEEP_CFG_PWRFAIL_EN then u.enterSave.keepStart 0 else u.enterSave := ⟨_, rfl, rfl⟩
  have hset (f : Fld) : u.rd f = (s.wrB F.PWR_STATUS_PWRFAIL true).rd f := by
    rw [hu]
    rfl
  have hother {f : Fld} (hf : f.reg ≠ .PWR_STATUS) : u.rd f = s.rd f := (hset f).trans (State.rd_wr_of_reg_ne _ _ hf)
  obtain ⟨hstate, hreads, hat, hkeep, -⟩ := u.enterSave_saves
  have hnow : u.pwr.failAt = s.now := by
    rw [hu]
    rfl
  have hsame : u.keep = s.keep := by
    rw [hu]
    rfl
  have hready : u.enterSave.ready = s.ready := by
    unfold State.ready
    rw [hreads _ (by decide), hother (by decide)]
  have henabled : u.enterSave.on F.KEEP_CFG_PWRFAIL_EN = s.on F.KEEP_CFG_PWRFAIL_EN :=
    State.on_congr ((hreads _ (by decide)).trans (hother (by decide)))
  have hpin : u.enterSave.on F.PWR_STATUS_PWRFAIL = true := by
    rw [State.on_congr (hreads _ (by decide)), State.on_congr (hset _), State.on_wrB_self _ _ (by decide)]
  generalize u.enterSave = v at *
  rw [hfail, henabled]
  split
  next hon =>
    refine ⟨(State.on_congr (v.keepStart_rd 0 _)).trans hpin, ?_, (v.keepStart_rd 0 _).trans hstate, fun hup hnone _ => ?_, fun hoff => ?_⟩
    · have hpwr : (v.keepStart 0).pwr = v.pwr := (congrArg State.pwr (v.keepStart_rest 0) :)
      rw [hpwr, hat, hnow]
    · rw [State.keepStart_starts (hready.trans hup) (by rw [hkeep, hsame, hnone])]
      rfl
    · rcases hoff with hdown | hoff
      · rw [State.keepStart_early (hready.trans hdown), hkeep, hsame]
      · exact absurd hon (by rw [hoff]; exact Bool.false_ne_true)
  next hon => exact ⟨hpin, hat.trans hnow, hstate, fun _ _ hset => absurd hset hon, fun _ => hkeep.trans hsame⟩

end Save

end Sys2Proof.Machine
end

section
/-! SUPPORT. Yields, what is taken back, and the control interval (R366, R368, R370, R371, R373, R384), with the statement of the power
manager's control. -/

set_option Elab.async false

namespace Sys2Proof.Machine

/-! ### A step is taken back (R366) -/

section TakeBack

variable (s : State)

/-- A domain's steps after one is returned. -/
theorem State.steps_returned (d : Nat) : (s.subFrom (F.PWR_DOM_STATUS_STEPS d) 1).steps d = s.steps d - 1 := by
  refine (State.rd_wr_self ..).trans (Nat.mod_eq_of_lt ?_)
  exact (Nat.sub_le _ _).trans_lt (s.rd_lt _)

/-- The registers that a step taken back writes beside those of MEMORY. -/
def takeBackRegs : List RegName := [.PWR_DOM_STATUS, .PWR_STATUS, .PWR_INT_STATUS, .CLK_CORE, .PWR_PINNED_CNT, .ATL_STATUS]

/-- The domain that yielded last takes back one step. -/
theorem State.takeBack_takes {d : Nat} {l : List Nat} (hyields : s.pwr.yields = d :: l) :
    s.takeBack.pwr.yields = l ∧ s.takeBack.steps d = s.steps d - 1 ∧
    (s.pwrState = 4 → s.takeBack.pwrState = 4) ∧ s.takeBack.rd F.PWR_STATUS_PWRFAIL = s.rd F.PWR_STATUS_PWRFAIL ∧
    s.takeBack.rd F.PWR_CFG_MODE = s.rd F.PWR_CFG_MODE := by
  obtain ⟨u, hu, heq⟩ : ∃ u, u = (s.subFrom (F.PWR_DOM_STATUS_STEPS d) 1).updPwr (fun p => { p with yields := l }) ∧ s.takeBack =
      (let v := if d = 1 then u.applyMemory (s.steps 1) [] else u
       (if l.isEmpty && v.pwrState = 1 then v.pwrEnter 0 else v).applyCode.applyDuty) := by
    refine ⟨_, rfl, ?_⟩
    unfold State.takeBack
    rw [hyields]
  dsimp only at heq
  have hstands : u.PowerStands (if d = 1 then u.applyMemory (s.steps 1) [] else u) := .ite ((State.PowerStands.refl u).applyMemory ..) (.refl u)
  generalize (if d = 1 then u.applyMemory (s.steps 1) [] else u) = v at hstands heq
  obtain ⟨w, hw, hsignals⟩ : ∃ w, w = (if l.isEmpty && v.pwrState = 1 then v.pwrEnter 0 else v) ∧
      (signals [F.PWR_STATUS_STATE, F.PWR_INT_STATUS_BITS] v w ∧ (v.pwrState = 4 → w.pwrState = 4)) := by
    refine ⟨_, rfl, ?_⟩
    split
    next hlast =>
      refine ⟨v.pwrEnter_signals 0, fun hsave => ?_⟩
      have hone : v.pwrState = 1 := of_decide_eq_true (Bool.and_eq_true_iff.1 hlast).2
      exact absurd (hone.symm.trans hsave) (by decide)
    next => exact ⟨signals.refl v, fun h => h⟩
  obtain ⟨hsignals, hsave⟩ := hsignals
  rw [← hw] at heq
  have hdrives : w.Drives s.takeBack := heq ▸ (State.Drives.refl w).applyCode.applyDuty
  have hreads {f : Fld} (hreg : f.reg ≠ .PWR_DOM_STATUS) : u.rd f = s.rd f := by
    rw [hu]
    exact State.rd_wr_of_reg_ne s _ hreg
  refine ⟨?_, ?_, fun hstate => ?_, ?_, ?_⟩
  · rw [hdrives.yields, hsignals.pwr, hstands.pwr, hu]
    rfl
  · rw [hdrives.steps, State.steps, hsignals.1.off (rs := [.PWR_STATUS, .PWR_INT_STATUS]) (by decide) _ (show RegName.PWR_DOM_STATUS ∉ _ by decide),
      hstands.rd (F.PWR_DOM_STATUS_STEPS d), hu]
    exact s.steps_returned d
  · rw [hdrives.pwrState]
    exact hsave ((hstands.rd _).trans ((hreads (by decide)).trans hstate))
  · rw [hdrives.rd (by decide), hsignals.1 _ (by decide), hstands.rd F.PWR_STATUS_PWRFAIL, hreads (by decide)]
  · rw [hdrives.rd (by decide), hsignals.1 _ (by decide), hstands.rd F.PWR_CFG_MODE, hreads (by decide)]

theorem exec_capTakeback : exec .capTakeback s = .next (
    match s.pwr.under with
    | some t =>
      if s.now - t ≥ 1600000 && s.due .takeback 0 1600000 && s.pwr.yields.length > s.pwr.thermYield then
        (s.ran .takeback 0 s.now).takeBack.holdingOff
      else s
    | none => s) := rfl

theorem capTakeback_idles (h : ∀ t0, s.pwr.under = some t0 →
    s.now - t0 < 1600000 ∨ s.due .takeback 0 1600000 = false ∨ s.pwr.yields.length ≤ s.pwr.thermYield) : Runs .capTakeback s fun t => t = s := by
  have hexec := exec_capTakeback s
  cases hunder : s.pwr.under with
  | none =>
    rw [hunder] at hexec
    exact .of_exec hexec rfl
  | some t0 =>
    rw [hunder] at hexec
    refine .of_exec (hexec.trans (congrArg _ (if_neg ?_))) rfl
    rcases h t0 hunder with hearly | hrecent | hnone
    · rw [decide_eq_false (Nat.not_le.2 hearly)]
      exact Bool.false_ne_true
    · rw [hrecent, Bool.and_false]
      exact Bool.false_ne_true
    · rw [decide_eq_false (Nat.not_lt.2 hnone), Bool.and_false]
      exact Bool.false_ne_true

/-- CAP_TAKEBACK (R366, R370). -/
theorem capTakeback_takes {t0 : Nat} (hunder : s.pwr.under = some t0) (hlong : 1600000 ≤ s.now - t0) (hdue : s.due .takeback 0 1600000 = true)
    (hyield : s.pwr.thermYield < s.pwr.yields.length) : Runs .capTakeback s fun t =>
      t.pwr.yields = s.pwr.yields.tail ∧ t.steps (s.pwr.yields.headD 0) = s.steps (s.pwr.yields.headD 0) - 1 := by
  have hexec := exec_capTakeback s
  rw [hunder] at hexec
  obtain ⟨d, l, hl⟩ := List.exists_cons_of_length_pos (Nat.zero_lt_of_lt hyield)
  obtain ⟨hyields, hsteps, -⟩ := State.takeBack_takes (s.ran .takeback 0 s.now) (d := d) (l := l) hl
  have hdrives := (State.Drives.refl (s.ran .takeback 0 s.now).takeBack).holdingOff
  refine .of_exec (hexec.trans (congrArg _ (if_pos ?_))) ?_
  · rw [decide_eq_true (show s.now - t0 ≥ 1600000 from hlong), hdue, decide_eq_true (show s.pwr.yields.length > s.pwr.thermYield from hyield)]
    rfl
  · rw [hl]
    exact ⟨hdrives.yields.trans hyields, (hdrives.steps d).trans hsteps⟩

/-! ### SAVE_EXIT (R370) -/

/-- Every domain takes back all its steps. -/
theorem State.takeBack_all (l : List Nat) (hl : l.length = s.pwr.yields.length) :
    (l.foldl (fun s _ => s.takeBack) s).pwr.yields = [] ∧
    (l.foldl (fun s _ => s.takeBack) s).rd F.PWR_STATUS_PWRFAIL = s.rd F.PWR_STATUS_PWRFAIL ∧
    (l.foldl (fun s _ => s.takeBack) s).rd F.PWR_CFG_MODE = s.rd F.PWR_CFG_MODE := by
  induction l generalizing s with
  | nil => exact ⟨List.length_eq_zero_iff.1 hl.symm, rfl, rfl⟩
  | cons x l ih =>
    obtain ⟨d, t, ht⟩ := List.exists_cons_of_length_pos (l := s.pwr.yields) (by rw [← hl]; exact Nat.succ_pos _)
    obtain ⟨hyields, -, -, hfail, hmode⟩ := s.takeBack_takes ht
    obtain ⟨hnone, hfails, hmodes⟩ := ih s.takeBack (by rw [hyields]; rw [ht] at hl; exact Nat.succ.inj hl)
    exact ⟨hnone, hfails.trans hfail, hmodes.trans hmode⟩

/-- The way out of SAVE, with every step taken back. -/
def State.saveLeft : State :=
  let s := s.wrB F.PWR_STATUS_PWRFAIL false
  (s.pwr.yields.foldl (fun s _ => s.takeBack) s).updPwr (fun p => { p with thermYield := 0 })

theorem exec_saveExit : exec .saveExit s = .next (
    if s.pwrState ≠ 4 || s.on F.PWR_CFG_SAVE || (s.on F.PWR_STATUS_PWRFAIL && s.now - s.pwr.failAt < 16000000) then s
    else (s.saveLeft.pwrEnter (if s.saveLeft.on F.PWR_CFG_MODE then 3 else 0)).applyCode.applyDuty.holdingOff) := rfl

theorem State.saveLeft_leaves : s.saveLeft.pwr.yields = [] ∧ s.saveLeft.on F.PWR_STATUS_PWRFAIL = false ∧
    s.saveLeft.on F.PWR_CFG_MODE = s.on F.PWR_CFG_MODE := by
  obtain ⟨hyields, hfail, hmode⟩ := (s.wrB F.PWR_STATUS_PWRFAIL false).takeBack_all s.pwr.yields rfl
  refine ⟨hyields, (State.on_congr hfail).trans (State.on_wrB_self _ _ (by decide)), State.on_congr (hmode.trans ?_)⟩
  exact State.rd_wr_of_reg_ne _ _ (by decide)

/-- SAVE_EXIT (R370). -/
theorem saveExit_exits :
    (s.pwrState ≠ 4 ∨ s.on F.PWR_CFG_SAVE = true → Runs .saveExit s fun t => t = s) ∧
    (s.on F.PWR_STATUS_PWRFAIL = true → s.now - s.pwr.failAt < 16000000 → Runs .saveExit s fun t => t = s) ∧
    (s.pwrState = 4 → s.on F.PWR_CFG_SAVE = false → s.on F.PWR_STATUS_PWRFAIL = false ∨ 16000000 ≤ s.now - s.pwr.failAt → Runs .saveExit s fun t =>
      t.on F.PWR_STATUS_PWRFAIL = false ∧ t.pwr.yields = [] ∧ t.pwrState = (if s.on F.PWR_CFG_MODE then 3 else 0)) := by
  refine ⟨fun hstays => .of_exec ((exec_saveExit s).trans (congrArg _ (if_pos ?_))) rfl,
    fun hfail hearly => .of_exec ((exec_saveExit s).trans (congrArg _ (if_pos ?_))) rfl,
    fun hstate hsave hclear => .of_exec ((exec_saveExit s).trans (congrArg _ (if_neg ?_))) ?_⟩
  · rcases hstays with hstate | hsave
    · rw [decide_eq_true hstate]
      rfl
    · rw [hsave, Bool.or_true]
      rfl
  · rw [hfail, decide_eq_true hearly, Bool.and_self, Bool.or_true]
  · rw [hsave, decide_eq_false (not_not.2 hstate)]
    rcases hclear with hclear | hlong
    · rw [hclear]
      exact Bool.false_ne_true
    · rw [decide_eq_false (Nat.not_lt.2 hlong), Bool.and_false]
      exact Bool.false_ne_true
  · obtain ⟨hyields, hfail, hmode⟩ := s.saveLeft_leaves
    generalize s.saveLeft = u at hyields hfail hmode ⊢
    rw [hmode]
    obtain ⟨st, hst⟩ : ∃ st, st = if s.on F.PWR_CFG_MODE then 3 else 0 := ⟨_, rfl⟩
    rw [← hst]
    have hsignals := u.pwrEnter_signals st
    have hdrives := (State.Drives.refl (u.pwrEnter st)).applyCode.applyDuty.holdingOff
    refine ⟨(hdrives.on (by decide)).trans ((State.on_congr (hsignals.1 _ (by decide))).trans hfail), ?_, ?_⟩
    · rw [hdrives.yields, hsignals.pwr, hyields]
    · exact hdrives.pwrState.trans (State.pwrEnter_state _ (by rw [hst]; split <;> decide))

end TakeBack

end Sys2Proof.Machine
end

section
/-! SUPPORT. The control interval (R366, R368, R370, R371, R373, R384), and the statement of the power manager's control. -/

set_option Elab.async false

namespace Sys2Proof.Machine

/-! ### The cap at a control interval (R366) -/

section Cap

variable (s : State)

/-- The domain that yields next depends on the order, on the domains, on their floors, on the state and on the bounds. -/
theorem State.nextYield_congr {s t : State} (hstate : t.pwrState = s.pwrState)
    (h : ∀ f : Fld, f.reg ∈ [RegName.PWR_PRIO, .PWR_DOM_STATUS, .PWR_DOM_FLOOR, .PWR_FREQ_BOUND] → t.rd f = s.rd f) : t.nextYield = s.nextYield := by
  have hsteps (d : Nat) : t.steps d = s.steps d := h _ (show RegName.PWR_DOM_STATUS ∈ _ by decide)
  have habove (d : Nat) : t.aboveFloor d = s.aboveFloor d := by
    unfold State.aboveFloor
    rw [h _ (show RegName.PWR_DOM_STATUS ∈ _ by decide), h _ (show RegName.PWR_DOM_FLOOR ∈ _ by decide)]
  have hceil : t.freqCeil = s.freqCeil := congrArg (min 4) (h _ (by decide))
  have hfloor : t.freqFloor = s.freqFloor := by
    unfold State.freqFloor
    rw [hceil, h _ (by decide)]
  have hmax (d : Nat) : t.maxSteps d = s.maxSteps d := by
    unfold State.maxSteps State.nominalCode
    rw [hstate, hfloor, hceil]
  unfold State.nextYield State.prioOrder
  rw [h _ (by decide), h _ (by decide), h _ (by decide)]
  simp only [habove, hsteps, hmax]

/-- A pinned frequency shows, or does not, before a domain yields (R373). -/
def State.freqPinned : State :=
  let s := s.updPwr (fun p => { p with under := none })
  if s.computePinned then s.pin F.PWR_STATUS_FREQ_PINNED F.PWR_PINNED_CNT_FREQ else s.wrB F.PWR_STATUS_FREQ_PINNED false

theorem State.pin_event (b c : Fld) (hb : b.reg ≠ .PWR_INT_STATUS) (hc : c.reg ≠ .PWR_INT_STATUS) {e : Nat} (he : e < 32) (hne : e ≠ 2) :
    (s.pin b c).intBit .pwr 0 e = s.intBit .pwr 0 e := by
  have hcounted : ((s.wrB b true).satAdd c 1).intBit .pwr 0 e = s.intBit .pwr 0 e := by
    rw [State.intBit, State.satAdd, State.rd_wr_of_reg_ne _ _ (show (intStatus .pwr 0).reg ≠ c.reg from hc.symm), State.wrB,
      State.rd_wr_of_reg_ne _ _ (show (intStatus .pwr 0).reg ≠ b.reg from hb.symm), State.intBit]
  unfold State.pin
  dsimp only
  split
  · exact hcounted
  · rw [← hcounted, State.intBit, State.rd_raise, State.rd_wr_self, intStatus_width, bit_mod _ _ _ he, bit_setBit_ne _ hne, State.intBit]

theorem State.freqPinned_leaves :
    readsBut [F.PWR_STATUS_FREQ_PINNED, F.PWR_PINNED_CNT_FREQ, F.PWR_INT_STATUS_BITS] s s.freqPinned ∧
    s.freqPinned.pwr = { s.pwr with under := none } ∧ s.freqPinned.intBit .pwr 0 1 = s.intBit .pwr 0 1 := by
  obtain ⟨u, hu, hpinned⟩ : ∃ u, u = s.updPwr (fun p => { p with under := none }) ∧ s.freqPinned =
      if u.computePinned then u.pin F.PWR_STATUS_FREQ_PINNED F.PWR_PINNED_CNT_FREQ else u.wrB F.PWR_STATUS_FREQ_PINNED false := ⟨_, rfl, rfl⟩
  have hregs : u.regs = s.regs := by
    rw [hu]
    rfl
  have hpwr : u.pwr = { s.pwr with under := none } := by
    rw [hu]
    rfl
  have hbefore : readsBut [F.PWR_STATUS_FREQ_PINNED, F.PWR_PINNED_CNT_FREQ, F.PWR_INT_STATUS_BITS] s u := (readsBut.refl s).congr hregs
  have hbit : u.intBit .pwr 0 1 = s.intBit .pwr 0 1 := congrArg (bit · 1) (State.rd_congr hregs _)
  rw [hpinned]
  split
  · have hsignals := u.pin_signals F.PWR_STATUS_FREQ_PINNED F.PWR_PINNED_CNT_FREQ
    exact ⟨hbefore.trans hsignals.1, hsignals.pwr.trans hpwr, (u.pin_event _ _ (by decide) (by decide) (by decide) (by decide)).trans hbit⟩
  · refine ⟨hbefore.wr List.mem_cons_self _, hpwr, ?_⟩
    rw [State.intBit, State.wrB, State.rd_wr_of_reg_ne _ _ (by decide)]
    exact hbit

theorem State.freqPinned_nextYield : s.freqPinned.nextYield = s.nextYield := by
  obtain ⟨hreads, -⟩ := s.freqPinned_leaves
  refine State.nextYield_congr (hreads _ (by decide)) fun f hf => ?_
  refine hreads.off (rs := [.PWR_STATUS, .PWR_PINNED_CNT, .PWR_INT_STATUS]) (by decide) f fun hin => ?_
  exact absurd hin ((by decide : ∀ r ∈ [RegName.PWR_PRIO, .PWR_DOM_STATUS, .PWR_DOM_FLOOR, .PWR_FREQ_BOUND],
    r ∉ [RegName.PWR_STATUS, .PWR_PINNED_CNT, .PWR_INT_STATUS]) _ hf)

theorem State.capInterval_over {r : PwrReading} (hover : s.rd F.PWR_CAP_EFF_CAP < r.power) : s.capInterval r =
    match s.freqPinned.nextYield with
    | some d => (s.freqPinned.yieldStep d r.rtLoad).wrB F.PWR_STATUS_CAP_UNMET false
    | none =>
      if s.freqPinned.on F.PWR_STATUS_CAP_UNMET then s.freqPinned.wrB F.PWR_STATUS_CAP_UNMET true
      else (s.freqPinned.wrB F.PWR_STATUS_CAP_UNMET true).raise .pwr 0 1 := if_pos hover

/-- A domain yields one step (R366). -/
theorem State.yieldStep_yields {d : Nat} (load : List Nat) (hd : s.steps d < 15) :
    (s.yieldStep d load).steps d = s.steps d + 1 ∧ (s.yieldStep d load).pwr = { s.pwr with yields := d :: s.pwr.yields } := by
  obtain ⟨u, hu, heq⟩ : ∃ u, u = (s.wr (F.PWR_DOM_STATUS_STEPS d) (s.steps d + 1)).updPwr (fun p => { p with yields := d :: p.yields }) ∧
      s.yieldStep d load =
        (let v := if d = 1 then u.applyMemory (s.steps 1) load else u
         if v.pwrState = 0 || v.pwrState = 2 then v.pwrEnter 1 else v) := ⟨_, rfl, rfl⟩
  dsimp only at heq
  have hstands : u.PowerStands (if d = 1 then u.applyMemory (s.steps 1) load else u) := .ite ((State.PowerStands.refl u).applyMemory ..) (.refl u)
  generalize (if d = 1 then u.applyMemory (s.steps 1) load else u) = v at hstands heq
  have hsteps : u.steps d = s.steps d + 1 := by
    rw [hu]
    exact (State.rd_wr_self ..).trans (Nat.mod_eq_of_lt (Nat.succ_lt_succ hd))
  have hpwr : u.pwr = { s.pwr with yields := d :: s.pwr.yields } := by
    rw [hu]
    rfl
  have hv : v.steps d = s.steps d + 1 := (hstands.rd (F.PWR_DOM_STATUS_STEPS d)).trans hsteps
  rw [heq]
  split
  · exact ⟨(v.pwrEnter_steps 1 d).trans hv, (v.pwrEnter_signals 1).pwr.trans (hstands.pwr.trans hpwr)⟩
  · exact ⟨hv, hstands.pwr.trans hpwr⟩

/-- The cap at a control interval (R366): what yields, and CAP_UNMET. -/
theorem State.capInterval_caps (r : PwrReading) :
    (∀ d, s.rd F.PWR_CAP_EFF_CAP < r.power → s.nextYield = some d → s.steps d < 7 →
      (s.capInterval r).steps d = s.steps d + 1 ∧ (s.capInterval r).pwr.yields = d :: s.pwr.yields ∧
      (s.capInterval r).on F.PWR_STATUS_CAP_UNMET = false) ∧
    (s.rd F.PWR_CAP_EFF_CAP < r.power → s.nextYield = none → (s.capInterval r).on F.PWR_STATUS_CAP_UNMET = true ∧
      (s.capInterval r).intBit .pwr 0 1 = (s.intBit .pwr 0 1 || !s.on F.PWR_STATUS_CAP_UNMET)) ∧
    (r.power ≤ s.rd F.PWR_CAP_EFF_CAP → (s.capInterval r).on F.PWR_STATUS_CAP_UNMET = false ∧
      (s.capInterval r).pwr.yields = s.pwr.yields) := by
  obtain ⟨hreads, hpwr, hbit⟩ := s.freqPinned_leaves
  have hnext := s.freqPinned_nextYield
  have hsteps (d : Nat) : s.freqPinned.steps d = s.steps d :=
    hreads.off (rs := [.PWR_STATUS, .PWR_PINNED_CNT, .PWR_INT_STATUS]) (by decide) _ (show RegName.PWR_DOM_STATUS ∉ _ by decide)
  have hunmet : s.freqPinned.on F.PWR_STATUS_CAP_UNMET = s.on F.PWR_STATUS_CAP_UNMET := State.on_congr (hreads _ (by decide))
  refine ⟨fun d hover hsome hd => ?_, fun hover hnone => ?_, fun hunder => ?_⟩
  · have heq := s.capInterval_over hover
    rw [hnext, hsome] at heq
    dsimp only at heq
    obtain ⟨hstep, hyield⟩ := s.freqPinned.yieldStep_yields (d := d) r.rtLoad (by rw [hsteps]; omega)
    rw [heq]
    refine ⟨?_, ?_, State.on_wrB_self _ _ (by decide)⟩
    · rw [State.steps, State.wrB, State.rd_wr_of_reg_ne _ _ (by nofun)]
      exact hstep.trans (by rw [hsteps])
    · rw [State.wrB_pwr, hyield, hpwr]
  · have heq := s.capInterval_over hover
    rw [hnext, hnone] at heq
    dsimp only at heq
    rw [heq, hunmet]
    split
    next hwas =>
      refine ⟨State.on_wrB_self _ _ (by decide), ?_⟩
      rw [State.intBit, State.wrB, State.rd_wr_of_reg_ne _ _ (by decide), hwas, Bool.not_true, Bool.or_false]
      exact hbit
    next hwas =>
      refine ⟨(State.on_congr (State.rd_raise_of_reg_ne _ (by decide))).trans (State.on_wrB_self _ _ (by decide)), ?_⟩
      rw [State.intBit_raise_self _ .pwr 0 1 (by decide), Bool.eq_false_iff.2 hwas, Bool.not_false, Bool.or_true]
  · obtain ⟨x, heq⟩ : ∃ x : PwrSt → Option Nat, s.capInterval r =
        ((s.wrB F.PWR_STATUS_CAP_UNMET false).wrB F.PWR_STATUS_FREQ_PINNED false).updPwr (fun p => { p with under := x p }) :=
      ⟨_, if_neg (Nat.not_lt.2 hunder)⟩
    have hmet : ((s.wrB F.PWR_STATUS_CAP_UNMET false).wrB F.PWR_STATUS_FREQ_PINNED false).on F.PWR_STATUS_CAP_UNMET = false :=
      (State.on_congr (State.rd_wrB_of_lo_ne _ _ (by decide))).trans (State.on_wrB_self _ _ (by decide))
    rw [heq]
    exact ⟨hmet, rfl⟩

end Cap

/-! ### POWER_CONTROL_INTERVAL (R366, R368) -/

/-- From `s` to `t` the measured powers stand, and so do the interval's phase and the grant that waits. -/
structure State.MeasureStands (s t : State) : Prop where
  reads : ∀ f : Fld, f.reg ∈ [RegName.PWR_POWER, .PWR_DOM_STATUS] → f.lo = 0 → t.rd f = s.rd f
  phase : t.pwr.phase = s.pwr.phase
  grantNext : t.pwr.grantNext = s.pwr.grantNext

namespace State.MeasureStands

variable {s t u : State}

theorem refl (s : State) : s.MeasureStands s := ⟨fun _ _ _ => rfl, rfl, rfl⟩

theorem trans (h : s.MeasureStands t) (k : t.MeasureStands u) : s.MeasureStands u :=
  ⟨fun f hf hlo => (k.reads f hf hlo).trans (h.reads f hf hlo), k.phase.trans h.phase, k.grantNext.trans h.grantNext⟩

theorem ite {c : Prop} [Decidable c] {a b : State} (ha : s.MeasureStands a) (hb : s.MeasureStands b) : s.MeasureStands (if c then a else b) := by
  split
  · exact ha
  · exact hb

/-- What changes other registers, or no register at all, and nothing of the manager's own state. -/
theorem off (h : s.MeasureStands t) {rs : List RegName} (k : readsOff rs t u) (hrs : ∀ r ∈ [RegName.PWR_POWER, .PWR_DOM_STATUS], r ∉ rs)
    (hpwr : u.pwr = t.pwr) : s.MeasureStands u :=
  h.trans ⟨fun f hf _ => k f (hrs _ hf), congrArg PwrSt.phase hpwr, congrArg PwrSt.grantNext hpwr⟩

theorem stands (h : s.MeasureStands t) (k : t.PowerStands u) : s.MeasureStands u :=
  h.trans ⟨fun f hf _ => k.reads f ((by decide : ∀ r ∈ [RegName.PWR_POWER, .PWR_DOM_STATUS], powerReg r = true) _ hf),
    congrArg PwrSt.phase k.pwr, congrArg PwrSt.grantNext k.pwr⟩

theorem drives (h : s.MeasureStands t) (k : t.Drives u) : s.MeasureStands u :=
  h.trans ⟨fun f hf _ => k.reads.off (rs := [.CLK_CORE, .PWR_STATUS, .PWR_PINNED_CNT, .PWR_INT_STATUS, .ATL_STATUS]) (by decide) f
      ((by decide : ∀ r ∈ [RegName.PWR_POWER, .PWR_DOM_STATUS], r ∉ [RegName.CLK_CORE, .PWR_STATUS, .PWR_PINNED_CNT, .PWR_INT_STATUS, .ATL_STATUS]) _ hf),
    k.phase, k.grantNext⟩

/-- A write of a field that holds no measured power. -/
theorem wr (h : s.MeasureStands t) {f : Fld} (v : Nat) (hf : f.reg ∉ [RegName.PWR_POWER, .PWR_DOM_STATUS] ∨ f.lo ≠ 0) :
    s.MeasureStands (t.wr f v) := by
  refine h.trans ⟨fun g hg hlo => State.rd_wr_ne _ _ fun hkey => ?_, rfl, rfl⟩
  obtain ⟨hreg, -, hlos⟩ := Fld.key_eq.1 hkey
  rcases hf with hreg' | hlo'
  · exact hreg' (hreg ▸ hg)
  · exact hlo' (hlos ▸ hlo)

theorem updPwr (h : s.MeasureStands t) (f : PwrSt → PwrSt) (hphase : (f t.pwr).phase = t.pwr.phase := by rfl)
    (hgrant : (f t.pwr).grantNext = t.pwr.grantNext := by rfl) : s.MeasureStands (t.updPwr f) := h.trans ⟨fun _ _ _ => rfl, hphase, hgrant⟩

theorem raise (h : s.MeasureStands t) (e : Nat) : s.MeasureStands (t.raise .pwr 0 e) :=
  h.off (rs := [.PWR_INT_STATUS]) ((readsOff.refl t).raise (b := .pwr) (i := 0) (by decide) e) (by decide) (State.raise_pwr ..)

theorem pin (h : s.MeasureStands t) {b c : Fld} (hb : b.reg = .PWR_STATUS) (hc : c.reg = .PWR_PINNED_CNT) : s.MeasureStands (t.pin b c) :=
  h.off (rs := [.PWR_STATUS, .PWR_PINNED_CNT, .PWR_INT_STATUS])
    ((t.pin_signals b c).1.off fun g hg => by
      rcases List.mem_cons.1 hg with rfl | hg
      · rw [hb]
        decide
      rcases List.mem_cons.1 hg with rfl | hg
      · rw [hc]
        decide
      · rw [List.mem_singleton.1 hg]
        decide) (by decide) (t.pin_signals b c).pwr

theorem pwrEnter (h : s.MeasureStands t) (st : Nat) : s.MeasureStands (t.pwrEnter st) :=
  h.off (rs := [.PWR_STATUS, .PWR_INT_STATUS]) ((t.pwrEnter_signals st).1.off (by decide)) (by decide) (t.pwrEnter_signals st).pwr

theorem yieldStep (h : s.MeasureStands t) (d : Nat) (load : List Nat) : s.MeasureStands (t.yieldStep d load) := by
  have hstep : s.MeasureStands ((t.wr (F.PWR_DOM_STATUS_STEPS d) (t.steps d + 1)).updPwr (fun p => { p with yields := d :: p.yields })) :=
    (h.wr (f := F.PWR_DOM_STATUS_STEPS d) (t.steps d + 1) (.inr (by nofun))).trans ⟨fun _ _ _ => rfl, rfl, rfl⟩
  unfold State.yieldStep
  extract_lets before u v
  have hv : s.MeasureStands v := ite (hstep.stands ((State.PowerStands.refl _).applyMemory ..)) hstep
  exact ite (hv.pwrEnter 1) hv

theorem override (h : s.MeasureStands t) (kind detail : Nat) : s.MeasureStands (t.override kind detail) :=
  h.off (t.override_readsOff kind detail) (by decide) (t.override_rest kind detail).pwr

/-! ### The parts of a control interval -/

theorem applyCap (h : s.MeasureStands t) : s.MeasureStands t.applyCap := by
  unfold State.applyCap
  split
  · exact (h.wr _ (.inl (by decide))).wr _ (.inl (by decide))
  · exact (h.wr _ (.inl (by decide))).wr _ (.inl (by decide))

theorem boostInterval (h : s.MeasureStands t) (r : PwrReading) : s.MeasureStands (t.boostInterval r) := by
  unfold State.boostInterval
  extract_lets ok u
  have hu : s.MeasureStands u := h.updPwr _
  exact ite (hu.pwrEnter 0) hu

theorem capInterval (h : s.MeasureStands t) (r : PwrReading) : s.MeasureStands (t.capInterval r) := by
  have hunmet {u : State} (hu : s.MeasureStands u) (b : Bool) : s.MeasureStands (u.wrB F.PWR_STATUS_CAP_UNMET b) := hu.wr _ (.inl (by decide))
  by_cases hover : t.rd F.PWR_CAP_EFF_CAP < r.power
  · have hpinned : s.MeasureStands t.freqPinned :=
      ite ((h.updPwr _).pin rfl rfl) ((h.updPwr _).wr _ (.inl (by decide)))
    rw [t.capInterval_over hover]
    split
    · exact hunmet (hpinned.yieldStep ..) false
    · exact ite (hunmet hpinned true) ((hunmet hpinned true).raise 1)
  · have hmet : s.MeasureStands ((t.wrB F.PWR_STATUS_CAP_UNMET false).wrB F.PWR_STATUS_FREQ_PINNED false) :=
      (hunmet h false).wr _ (.inl (by decide))
    unfold State.capInterval
    rw [if_neg hover]
    exact hmet.updPwr _

theorem thermInterval (h : s.MeasureStands t) (load : List Nat) : s.MeasureStands (t.thermInterval load) := by
  unfold State.thermInterval
  refine ite h ?_
  split
  · exact (h.yieldStep ..).updPwr _
  · exact ite ((h.updPwr _).override 0 0) h

end State.MeasureStands

section Interval

variable (s : State) (r : PwrReading)

/-- The measurement is recorded. -/
theorem State.recordPower_records : (s.recordPower r).rd F.PWR_POWER_TOTAL = r.power % 2 ^ F.PWR_POWER_TOTAL.width ∧
    (s.recordPower r).rd (F.PWR_DOM_STATUS_POWER 0) = r.links % 2 ^ (F.PWR_DOM_STATUS_POWER 0).width ∧
    (s.recordPower r).rd (F.PWR_DOM_STATUS_POWER 1) = r.memory % 2 ^ (F.PWR_DOM_STATUS_POWER 1).width ∧
    (s.recordPower r).rd (F.PWR_DOM_STATUS_POWER 2) = r.compute % 2 ^ (F.PWR_DOM_STATUS_POWER 2).width ∧
    (s.recordPower r).pwr = s.pwr := by
  obtain ⟨u, hu, hrecord⟩ : ∃ u, u = ((((s.wr F.PWR_POWER_TOTAL r.power).wr F.PWR_POWER_VCORE r.vcore).wr (F.PWR_DOM_STATUS_POWER 0) r.links).wr
      (F.PWR_DOM_STATUS_POWER 1) r.memory).wr (F.PWR_DOM_STATUS_POWER 2) r.compute ∧ s.recordPower r =
      (List.range 3).foldl (fun s d => s.wrB (F.PWR_DOM_STATUS_AT_FLOOR d) (!s.aboveFloor d)) u := ⟨_, rfl, rfl⟩
  have hfloors : u.MeasureStands (s.recordPower r) ∧ (s.recordPower r).pwr = u.pwr := by
    rw [hrecord]
    exact List.foldlRecOn (motive := fun v : State => u.MeasureStands v ∧ v.pwr = u.pwr) _ _ ⟨.refl u, rfl⟩
      fun v hv d _ => ⟨hv.1.wr (f := F.PWR_DOM_STATUS_AT_FLOOR d) _ (.inr (by nofun)), hv.2⟩
  obtain ⟨hfloors, hpwr⟩ := hfloors
  refine ⟨?_, ?_, ?_, ?_, hpwr.trans (by rw [hu]; rfl)⟩
  · rw [hfloors.reads _ (by decide) rfl, hu, State.rd_wr_of_reg_ne _ _ (by decide), State.rd_wr_of_reg_ne _ _ (by decide),
      State.rd_wr_of_reg_ne _ _ (by decide), State.rd_wr_of_lo_ne _ _ (by decide), State.rd_wr_self]
  · rw [hfloors.reads _ (by decide) rfl, hu, State.rd_wr_ne _ _ (by decide), State.rd_wr_ne _ _ (by decide), State.rd_wr_self]
  · rw [hfloors.reads _ (by decide) rfl, hu, State.rd_wr_ne _ _ (by decide), State.rd_wr_self]
  · rw [hfloors.reads _ (by decide) rfl, hu, State.rd_wr_self]

/-- A GRANT that waits waits no more (R384). -/
theorem State.applyGrant_applies : s.applyGrant.pwr.grantNext = none ∧ s.applyGrant.pwr.phase = s.pwr.phase ∧
    readsOff [.PWR_INT_STATUS] s s.applyGrant := by
  have hown (f : PwrSt → PwrSt) : readsOff [.PWR_INT_STATUS] s (s.updPwr f) := (readsOff.refl s).congr rfl
  unfold State.applyGrant
  split
  next =>
    refine ⟨?_, ?_, (hown _).raise (b := .pwr) (i := 0) (by decide) 5⟩
    · rw [State.raise_pwr]
      rfl
    · rw [State.raise_pwr]
      rfl
  next hnone => exact ⟨hnone, rfl, readsOff.refl s⟩

/-- The control interval up to its phase. -/
def State.controlled : State :=
  let s := (s.applyCap.boostInterval r).capInterval r
  let s := s.thermInterval r.rtLoad
  let s := if s.pwr.voltBeyond then s else s.wrB F.PWR_STATUS_VOLT_PINNED false
  s.applyMemory (s.steps 1) r.rtLoad

theorem State.controlled_stands : s.MeasureStands (s.controlled r) := by
  unfold State.controlled
  extract_lets u v w
  have hv : s.MeasureStands v := (((State.MeasureStands.refl s).applyCap.boostInterval r).capInterval r).thermInterval _
  have hw : s.MeasureStands w := .ite hv (hv.wr _ (.inl (by decide)))
  exact hw.stands ((State.PowerStands.refl w).applyMemory ..)

theorem exec_powerControlInterval : exec (.powerControlInterval r) s = .next (
    if !s.due .control 0 16000 then s
    else (((((s.ran .control 0 s.now).recordPower r).applyGrant.controlled r).updPwr
      (fun p => { p with phase := (p.phase + 1) % 8 })).applyXoff.applyCode.applyDuty.holdingOff)) := rfl

/-- POWER_CONTROL_INTERVAL (R366, R368, R384). -/
theorem powerControlInterval_records :
    (s.due .control 0 16000 = false → Runs (.powerControlInterval r) s fun t => t = s) ∧
    (s.due .control 0 16000 = true → Runs (.powerControlInterval r) s fun t =>
      t.rd F.PWR_POWER_TOTAL = r.power % 2 ^ F.PWR_POWER_TOTAL.width ∧
      t.rd (F.PWR_DOM_STATUS_POWER 0) = r.links % 2 ^ (F.PWR_DOM_STATUS_POWER 0).width ∧
      t.rd (F.PWR_DOM_STATUS_POWER 1) = r.memory % 2 ^ (F.PWR_DOM_STATUS_POWER 1).width ∧
      t.rd (F.PWR_DOM_STATUS_POWER 2) = r.compute % 2 ^ (F.PWR_DOM_STATUS_POWER 2).width ∧
      t.pwr.phase = (s.pwr.phase + 1) % 8 ∧ t.pwr.grantNext = none) := by
  refine ⟨fun hearly => .of_exec ((exec_powerControlInterval s r).trans (congrArg _ (if_pos (by rw [hearly]; rfl)))) rfl, fun hdue => ?_⟩
  obtain ⟨u, hu⟩ : ∃ u, u = s.ran .control 0 s.now := ⟨_, rfl⟩
  obtain ⟨htotal, hlinks, hmemory, hcompute, hpwr⟩ := u.recordPower_records r
  obtain ⟨hgrant, hphase, hreads⟩ := (u.recordPower r).applyGrant_applies
  have hcontrol := (u.recordPower r).applyGrant.controlled_stands r
  have hexec := (exec_powerControlInterval s r).trans (congrArg _ (if_neg (by rw [hdue]; decide)))
  rw [← hu] at hexec
  have hstart : u.pwr.phase = s.pwr.phase := by
    rw [hu]
    rfl
  generalize (u.recordPower r).applyGrant.controlled r = v at hcontrol hexec
  obtain ⟨w, hw⟩ : ∃ w, w = v.updPwr (fun p => { p with phase := (p.phase + 1) % 8 }) := ⟨_, rfl⟩
  have hwreads (f : Fld) : w.rd f = v.rd f := by
    rw [hw]
    rfl
  have hlast : w.MeasureStands w.applyXoff.applyCode.applyDuty.holdingOff :=
    ((State.MeasureStands.refl w).stands (State.PowerStands.refl w).applyXoff).drives
      (State.Drives.refl w.applyXoff).applyCode.applyDuty.holdingOff
  rw [← hw] at hexec
  have hmeasured {f : Fld} (hf : f.reg ∈ [RegName.PWR_POWER, .PWR_DOM_STATUS]) (hlo : f.lo = 0) :
      w.applyXoff.applyCode.applyDuty.holdingOff.rd f = (u.recordPower r).rd f := by
    rw [hlast.reads f hf hlo, hwreads, hcontrol.reads f hf hlo,
      hreads f ((by decide : ∀ n ∈ [RegName.PWR_POWER, .PWR_DOM_STATUS], n ∉ [RegName.PWR_INT_STATUS]) _ hf)]
  refine .of_exec hexec ⟨?_, ?_, ?_, ?_, ?_, ?_⟩
  · rw [hmeasured (by decide) rfl, htotal]
  · rw [hmeasured (by decide) rfl, hlinks]
  · rw [hmeasured (by decide) rfl, hmemory]
  · rw [hmeasured (by decide) rfl, hcompute]
  · have hnow : v.pwr.phase = s.pwr.phase := by rw [hcontrol.phase, hphase, hpwr, hstart]
    rw [hlast.phase, hw, ← hnow]
    rfl
  · have hnone : v.pwr.grantNext = none := by rw [hcontrol.grantNext, hgrant]
    rw [hlast.grantNext, hw, ← hnone]
    rfl

end Interval

/-- Settles O51: the divider, the control interval and the cap, and each way between the states of the power manager. -/
theorem powerControl : Obligations.PowerControl := by
  unfold Obligations.PowerControl
  intro s
  obtain ⟨hexit, hfail, hleave⟩ := saveExit_exits s
  obtain ⟨hpwrfail, hat, hstate, hsaves, hkeep⟩ := s.pwrfail_saves
  refine ⟨dividerSwitch_switches s, fun r => ?_, fun hidle => capTakeback_idles s fun t0 ht0 => ?_,
    fun t0 ht0 hearly => capTakeback_idles s fun t1 ht1 => .inl ?_, fun t0 => capTakeback_takes s,
    fun hidle => boostEntry_idles s rfl fun t1 ht1 => ?_, fun t0 ht0 hearly => boostEntry_idles s ht0 fun t1 ht1 => .inr ?_,
    fun t0 => boostEntry_enters s, fun q hq => ?_, .of_exec rfl ⟨hpwrfail, hat, hstate, hsaves, hkeep⟩,
    .of_exec rfl ⟨rfl, hpwrfail, hat, hstate, hkeep⟩, hexit, hfail, hleave, voltTrim_trims s⟩
  · obtain ⟨hearly, hdue⟩ := powerControlInterval_records s r
    exact ⟨hearly, hdue, s.capInterval_caps r⟩
  · rcases hidle with hnone | hidle
    · rw [hnone] at ht0
      cases ht0
    · exact .inr hidle
  · rw [ht0] at ht1
    exact Option.some.inj ht1 ▸ hearly
  · rcases hidle with hnone | hstate
    · rw [hnone] at ht1
      cases ht1
    · exact .inl hstate
  · exact Option.some.inj ht1 ▸ hearly
  · obtain ⟨hclear, hset⟩ := pwrSaveWrite_saves s hq
    exact ⟨pwrModeWrite_keeps s hq, pwrModeWrite_fixes s hq, pwrModeWrite_adapts s hq, hclear, hset⟩

end Sys2Proof.Machine
end
